-- ==== Sys2Proof/Word.lean ====
section
/-!
DEFINITION. Word.lean: the word types of the device and the two arithmetic helpers that every block uses. Bit vectors stand
where the spec treats a value as bits (a byte of memory, a line mask); counts, addresses and register field values are
natural numbers, truncated to the field's width where they are stored (R6).
-/

namespace Sys2Proof

/-- One byte of DRAM or flash contents. -/
abbrev Byte := BitVec 8

/-- The 64 lines of a granule, bit n for line n (Table 07-2, R271). -/
abbrev LineMask := BitVec 64

/-- Bytes in a granule (R6, glossary). -/
abbrev granuleBytes : Nat := 4096

/-- Granules in a 2 MiB region. -/
abbrev granulesPerRegion : Nat := 512

/-- Ceiling division. -/
def ceilDiv (a b : Nat) : Nat := (a + (b - 1)) / b

/-- `v`, held to the range `lo` to `hi`: the "treated as the nearer limit" of the register tables (R548). -/
def clampTo (lo hi v : Nat) : Nat := if v < lo then lo else if hi < v then hi else v

end Sys2Proof
end

