-- ==== Sys2Proof/Config.lean ====
section
/-!
DEFINITION. Config.lean: what the spec leaves open. Values that the spec does not fix are given by an opaque function of a
counter in the state (`State.freeCtr`); no proof can see them. The variants of Table 00-1 stand here as data.
-/

namespace Sys2Proof

/-- The three variants of Table 00-1 (R1). -/
inductive Variant where
  /-- KNM-3216-F -/
  | f
  /-- KNM-3216-S -/
  | s
  /-- KNM-1608-E -/
  | e
deriving DecidableEq, Repr

/-- A value that the spec leaves open, fresh at each use: the step reads it at `State.freeCtr` and advances the counter
(assumption 2). It has no body: nothing can be proved of it but that it fits 64 bits. -/
opaque Config.freeValue : Nat → BitVec 64

/-- The 512-bit cask key of a key epoch, drawn from the device's random-bit generator (R206, assumption 196). -/
opaque Config.caskKey : Nat → BitVec 512

/-- AES-XTS-256 under a cask key and a tweak, of the bytes of one data unit (R205, assumption 196). -/
opaque Config.encrypt : BitVec 512 → Nat → List Nat → List Nat

/-- The 476 bytes of LDPC parity over the bytes before them (Table 07-2, assumption 196). -/
opaque Config.ldpcParity : List Nat → List Nat

/-- The bytes of a manifest section whose byte layout the spec does not give, by its type and what it holds (Table 08-9, assumption
198). -/
opaque Config.sectionBytes : Nat → List Nat → List Nat

/-- The first 16 bytes of HMAC-SHA-256 under the pack key in OTP, over a challenge, a serial and a port byte (R378, assumption
203). -/
opaque Config.packMac : Nat → Nat → Nat → BitVec 128

/-- The byte `COST_p` of an LSA where the cost is above 255 (R329, assumption 201). -/
opaque Config.lsaCost : Nat → BitVec 8

end Sys2Proof
end

