-- ==== Sys2Proof/Machine/Regs.lean ====
section
/-!
DEFINITION. Machine/Regs.lean: sparse number maps and the register file. A register field is a `Fld`; the register file
holds, for each field whose value differs from its reset value, the difference (exclusive or), in one canonical form
(keys strictly rising, no zero), so that equal register contents are equal data.
-/

namespace Sys2Proof.Machine

/-- A map from numbers to numbers; a key not listed maps to 0. Canonical: keys strictly rising, no value 0. -/
abbrev NMap := List (Nat × Nat)

/-- The value at `k`; 0 where `k` is not listed. -/
def NMap.get : NMap → Nat → Nat
  | [], _ => 0
  | (k', v) :: t, k => if k = k' then v else NMap.get t k

/-- `m` with `v` at `k`, in canonical form. -/
def NMap.set : NMap → Nat → Nat → NMap
  | [], k, v => if v = 0 then [] else [(k, v)]
  | (k', v') :: t, k, v =>
    if k < k' then (if v = 0 then (k', v') :: t else (k, v) :: (k', v') :: t)
    else if k = k' then (if v = 0 then t else (k, v) :: t)
    else (k', v') :: NMap.set t k v

/-- Every key of `m` is above `b`, keys rise strictly and no value is 0. -/
def NMap.wfFrom : Nat → NMap → Bool
  | _, [] => true
  | b, (k, v) :: t => decide (b ≤ k) && decide (v ≠ 0) && NMap.wfFrom (k + 1) t

/-- The canonical form. -/
def NMap.wf (m : NMap) : Bool := NMap.wfFrom 0 m

/-- The entries whose key satisfies `p`. -/
def NMap.keep (m : NMap) (p : Nat → Bool) : NMap := m.filter (fun e => p e.1)

/-- The sum of the values. -/
def NMap.total (m : NMap) : Nat := (m.map (fun e => e.2)).sum

/-- One register field: where it stands, how wide it is and what it holds at reset. `idx` tells the copies of a windowed
field apart (one copy per value of the page's select register). -/
structure Fld where
  page : Nat
  off : Nat
  lsb : Nat
  width : Nat
  reset : Nat
  idx : Nat := 0
deriving DecidableEq, Repr

/-- The place of a field in the register file: page, byte offset, low bit, index. -/
def Fld.key (f : Fld) : Nat := ((f.page * 4096 + f.off) * 32 + f.lsb) * 4096 + f.idx

/-- The page a key belongs to. -/
def keyPage (k : Nat) : Nat := k / 536870912

/-- The byte offset of a key in its page. -/
def keyOff (k : Nat) : Nat := k / 131072 % 4096

/-- The value of field `f` in the register file. -/
def RegFile.rd (m : NMap) (f : Fld) : Nat := m.get f.key ^^^ f.reset

/-- The register file with `v`, cut to the field's width, in field `f`. -/
def RegFile.wr (m : NMap) (f : Fld) (v : Nat) : NMap := m.set f.key ((v % 2 ^ f.width) ^^^ f.reset)

end Sys2Proof.Machine
end

