-- ==== Sys2Proof/Machine/Fields.lean ====
section
/-!
DEFINITION. Machine/Fields.lean: every register field that a register table of the spec names, as a value of `Fld`:
its page, byte offset, low bit, width and reset value. A register pair `..._LO`/`..._HI` is one wide field (R58). Fields
of a windowed register (one copy per selected index, such as `SEQ.RAIL_*` by `RAIL_SEL`) take the index as an argument. An index
is cut to the number of copies, so that no operand reaches past the copies that the spec gives.
Names are `R.<PAGE>_<REGISTER>[_<FIELD>]`; the field name is dropped where a register has one field. Resets of fields
that the spec marks found, restored, kept, stored, fused, variant, pin, random or last without a number are named in
assumption 3.
-/

namespace Sys2Proof.Machine.R

/-! ### `PHS` (Table 02-4) -/

def PHS_CTRL_AC_EN : Fld := { page := 0xB0, off := 0x040, lsb := 0, width := 1, reset := 1 }
def PHS_CTRL_FORCE_PSEUDO : Fld := { page := 0xB0, off := 0x040, lsb := 1, width := 1, reset := 0 }
def PHS_CTRL_EW_ACOK : Fld := { page := 0xB0, off := 0x040, lsb := 2, width := 1, reset := 1 }
def PHS_CTRL_EDGE : Fld := { page := 0xB0, off := 0x040, lsb := 3, width := 1, reset := 0 }
def PHS_CTRL_GLITCH : Fld := { page := 0xB0, off := 0x040, lsb := 8, width := 8, reset := 50 }
def PHS_STAT_LOCKED : Fld := { page := 0xB0, off := 0x044, lsb := 0, width := 1, reset := 0 }
def PHS_STAT_SRC : Fld := { page := 0xB0, off := 0x044, lsb := 1, width := 1, reset := 1 }
def PHS_STAT_SRC_REASON : Fld := { page := 0xB0, off := 0x044, lsb := 2, width := 2, reset := 2 }
def PHS_STAT_EW : Fld := { page := 0xB0, off := 0x044, lsb := 4, width := 1, reset := 0 }
def PHS_STAT_AC_OK : Fld := { page := 0xB0, off := 0x044, lsb := 5, width := 1, reset := 0 }
def PHS_STAT_CT_EST : Fld := { page := 0xB0, off := 0x044, lsb := 6, width := 1, reset := 0 }
def PHS_HC : Fld := { page := 0xB0, off := 0x048, lsb := 0, width := 48, reset := 0 }
def PHS_PU : Fld := { page := 0xB0, off := 0x04C, lsb := 16, width := 10, reset := 0 }
def PHS_PERIOD : Fld := { page := 0xB0, off := 0x050, lsb := 0, width := 24, reset := 0xf4240 }
def PHS_FREQ : Fld := { page := 0xB0, off := 0x054, lsb := 0, width := 17, reset := 0xc350 }
def PHS_PHASE_ERR : Fld := { page := 0xB0, off := 0x058, lsb := 0, width := 24, reset := 0 }
def PHS_MISS_CNT_MISSED : Fld := { page := 0xB0, off := 0x05C, lsb := 0, width := 16, reset := 0 }
def PHS_MISS_CNT_REJECTED : Fld := { page := 0xB0, off := 0x05C, lsb := 16, width := 16, reset := 0 }
def PHS_CT_DRAWN : Fld := { page := 0xB0, off := 0x060, lsb := 0, width := 48, reset := 0 }
def PHS_CT_RET : Fld := { page := 0xB0, off := 0x068, lsb := 0, width := 48, reset := 0 }
def PHS_CT_RATE_RATE : Fld := { page := 0xB0, off := 0x070, lsb := 0, width := 20, reset := 0 }
def PHS_CT_RATE_DIR : Fld := { page := 0xB0, off := 0x070, lsb := 31, width := 1, reset := 0 }
def PHS_CDL_TARGET (n : Nat) : Fld := { page := 0xB0, off := 0x080 + 8 * (n % 8), lsb := 0, width := 48, reset := 0 }
def PHS_CDL_ARMED (n : Nat) : Fld := { page := 0xB0, off := 0x084 + 8 * (n % 8), lsb := 16, width := 1, reset := 0 }
def PHS_CDL_FIRED (n : Nat) : Fld := { page := 0xB0, off := 0x084 + 8 * (n % 8), lsb := 17, width := 1, reset := 0 }
def PHS_OPSEC : Fld := { page := 0xB0, off := 0x0C0, lsb := 0, width := 40, reset := 0 }
def PHS_PCYCLES : Fld := { page := 0xB0, off := 0x0C8, lsb := 0, width := 32, reset := 0 }
def PHS_SELFTEST_CDL_FAIL : Fld := { page := 0xB0, off := 0x0CC, lsb := 0, width := 8, reset := 0 }
def PHS_SELFTEST_DONE : Fld := { page := 0xB0, off := 0x0CC, lsb := 8, width := 1, reset := 0 }

/-! ### `ID` (Table 03-5) -/

def ID_PART_NUMBER : Fld := { page := 0x00, off := 0x040, lsb := 0, width := 16, reset := 0x3216 }
def ID_PART_SUFFIX : Fld := { page := 0x00, off := 0x040, lsb := 16, width := 8, reset := 70 }
def ID_PART_STEPPING : Fld := { page := 0x00, off := 0x040, lsb := 24, width := 8, reset := 16 }
def ID_EUI : Fld := { page := 0x00, off := 0x048, lsb := 0, width := 64, reset := 1 }
def ID_FWVER (n : Nat) : Fld := { page := 0x00, off := 0x050 + 4 * (n % 6), lsb := 0, width := 32, reset := 0 }
def ID_BANK : Fld := { page := 0x00, off := 0x068, lsb := 0, width := 1, reset := 0 }
def ID_ROM_IF : Fld := { page := 0x00, off := 0x06C, lsb := 0, width := 16, reset := 8 }
def ID_REPAIR (n : Nat) : Fld := { page := 0x00, off := 0x070 + 4 * (n % 4), lsb := 0, width := 32, reset := if (n % 4) = 0 then 0x00FFFF20 else if (n % 4) = 1 then 0x07070707 else 0 }
def ID_ADMIN : Fld := { page := 0x00, off := 0x080, lsb := 0, width := 2, reset := 2 }
def ID_MODULE_ID : Fld := { page := 0x00, off := 0x084, lsb := 0, width := 32, reset := 0 }
def ID_MAINT_NONCE : Fld := { page := 0x00, off := 0x088, lsb := 0, width := 32, reset := 0 }
def ID_MAINT_UNLOCK : Fld := { page := 0x00, off := 0x08C, lsb := 0, width := 32, reset := 0 }

/-! ### `CAP` (Table 03-6) -/

def CAP_DMC_FUSED : Fld := { page := 0x01, off := 0x040, lsb := 0, width := 16, reset := 0xffff }
def CAP_DMC_POPULATED : Fld := { page := 0x01, off := 0x040, lsb := 16, width := 16, reset := 0 }
def CAP_NCH_FUSED : Fld := { page := 0x01, off := 0x044, lsb := 0, width := 32, reset := 0xffffffff }
def CAP_NCH_POP : Fld := { page := 0x01, off := 0x048, lsb := 0, width := 32, reset := 0 }
def CAP_UNITS_HOST_PORTS : Fld := { page := 0x01, off := 0x04C, lsb := 0, width := 2, reset := 3 }
def CAP_UNITS_FABRIC : Fld := { page := 0x01, off := 0x04C, lsb := 2, width := 1, reset := 1 }
def CAP_UNITS_RACKING : Fld := { page := 0x01, off := 0x04C, lsb := 3, width := 1, reset := 1 }
def CAP_UNITS_GAUGE : Fld := { page := 0x01, off := 0x04C, lsb := 4, width := 1, reset := 1 }
def CAP_UNITS_PACK_PORTS : Fld := { page := 0x01, off := 0x04C, lsb := 5, width := 2, reset := 3 }
def CAP_UNITS_LDPC_ACTIVE : Fld := { page := 0x01, off := 0x04C, lsb := 8, width := 8, reset := 32 }
def CAP_QUEUES : Fld := { page := 0x01, off := 0x050, lsb := 0, width := 19, reset := 0x40000 }
def CAP_CLK_ABSENT : Fld := { page := 0x01, off := 0x054, lsb := 0, width := 25, reset := 0 }
def CAP_DRAM : Fld := { page := 0x01, off := 0x058, lsb := 0, width := 40, reset := 0 }
def CAP_HOST : Fld := { page := 0x01, off := 0x060, lsb := 0, width := 40, reset := 0 }
def CAP_KEEP : Fld := { page := 0x01, off := 0x068, lsb := 0, width := 32, reset := 0 }
def CAP_DIES : Fld := { page := 0x01, off := 0x06C, lsb := 0, width := 10, reset := 0 }

/-! ### `PST` (Table 03-7) -/

def PST_SEQ : Fld := { page := 0x02, off := 0x040, lsb := 0, width := 32, reset := 0 }
def PST_STATE_STATE : Fld := { page := 0x02, off := 0x044, lsb := 0, width := 2, reset := 2 }
def PST_STATE_PNG_EXCESS : Fld := { page := 0x02, off := 0x044, lsb := 8, width := 1, reset := 0 }
def PST_STATE_PNG_NO_PACK : Fld := { page := 0x02, off := 0x044, lsb := 9, width := 1, reset := 1 }
def PST_STATE_PNG_DIAG : Fld := { page := 0x02, off := 0x044, lsb := 10, width := 1, reset := 0 }
def PST_STATE_PAR_DIRTY : Fld := { page := 0x02, off := 0x044, lsb := 16, width := 1, reset := 0 }
def PST_STATE_PAR_MARGIN : Fld := { page := 0x02, off := 0x044, lsb := 17, width := 1, reset := 0 }
def PST_STATE_DIAG_SRC : Fld := { page := 0x02, off := 0x044, lsb := 24, width := 8, reset := 0 }
def PST_DIRTY : Fld := { page := 0x02, off := 0x048, lsb := 0, width := 40, reset := 0 }
def PST_BOUND : Fld := { page := 0x02, off := 0x050, lsb := 0, width := 40, reset := 0 }
def PST_EXCESS : Fld := { page := 0x02, off := 0x058, lsb := 0, width := 40, reset := 0 }
def PST_EPOCH : Fld := { page := 0x02, off := 0x060, lsb := 0, width := 64, reset := 0 }
def PST_PREV : Fld := { page := 0x02, off := 0x068, lsb := 0, width := 2, reset := 0 }
def PST_CHANGES : Fld := { page := 0x02, off := 0x06C, lsb := 0, width := 32, reset := 0 }

/-! ### `HPA and HPB` (Table 04-10) -/

def HP_LINK_STAT_UP (u : Nat) : Fld := { page := (0x10 + (u % 2)), off := 0x040, lsb := 0, width := 1, reset := 0 }
def HP_LINK_STAT_WIDTH (u : Nat) : Fld := { page := (0x10 + (u % 2)), off := 0x040, lsb := 1, width := 3, reset := 0 }
def HP_LINK_STAT_RATE (u : Nat) : Fld := { page := (0x10 + (u % 2)), off := 0x040, lsb := 4, width := 4, reset := 0 }
def HP_LINK_STAT_FLIT256 (u : Nat) : Fld := { page := (0x10 + (u % 2)), off := 0x040, lsb := 8, width := 1, reset := 0 }
def HP_LINK_STAT_CXL (u : Nat) : Fld := { page := (0x10 + (u % 2)), off := 0x040, lsb := 9, width := 1, reset := 0 }
def HP_LINK_STAT_RETRAINS (u : Nat) : Fld := { page := (0x10 + (u % 2)), off := 0x040, lsb := 16, width := 16, reset := 0 }
def HP_LINK_CTRL_MAX_WIDTH (u : Nat) : Fld := { page := (0x10 + (u % 2)), off := 0x044, lsb := 0, width := 3, reset := 5 }
def HP_LINK_CTRL_MAX_RATE (u : Nat) : Fld := { page := (0x10 + (u % 2)), off := 0x044, lsb := 4, width := 3, reset := 6 }
def HP_LINK_CTRL_LP_EN (u : Nat) : Fld := { page := (0x10 + (u % 2)), off := 0x044, lsb := 8, width := 1, reset := 1 }
def HP_SLICE_BASE (u : Nat) : Fld := { page := (0x10 + (u % 2)), off := 0x048, lsb := 0, width := 18, reset := 0 }
def HP_SLICE_SIZE (u : Nat) : Fld := { page := (0x10 + (u % 2)), off := 0x04C, lsb := 0, width := 18, reset := 0 }
def HP_DEC_STAT_COMMITTED (u : Nat) : Fld := { page := (0x10 + (u % 2)), off := 0x050, lsb := 0, width := 8, reset := 0 }
def HP_DEC_STAT_REJECTED (u : Nat) : Fld := { page := (0x10 + (u % 2)), off := 0x050, lsb := 8, width := 8, reset := 0 }
def HP_GPF_WINDOW (u : Nat) : Fld := { page := (0x10 + (u % 2)), off := 0x054, lsb := 0, width := 6, reset := 10 }
def HP_GPF_P2_DONE (u : Nat) : Fld := { page := (0x10 + (u % 2)), off := 0x054, lsb := 8, width := 1, reset := 0 }
def HP_GPF_P2_LATE (u : Nat) : Fld := { page := (0x10 + (u % 2)), off := 0x054, lsb := 9, width := 1, reset := 0 }
def HP_LOAD_CTRL_OPT_PCT (u : Nat) : Fld := { page := (0x10 + (u % 2)), off := 0x058, lsb := 0, width := 7, reset := 50 }
def HP_LOAD_CTRL_MOD_PCT (u : Nat) : Fld := { page := (0x10 + (u % 2)), off := 0x058, lsb := 8, width := 7, reset := 80 }
def HP_LOAD_CTRL_DIRTY_EN (u : Nat) : Fld := { page := (0x10 + (u % 2)), off := 0x058, lsb := 16, width := 1, reset := 1 }
def HP_LOAD_STAT_DEVLOAD (u : Nat) : Fld := { page := (0x10 + (u % 2)), off := 0x05C, lsb := 0, width := 2, reset := 0 }
def HP_LOAD_STAT_DIRTY_LOAD (u : Nat) : Fld := { page := (0x10 + (u % 2)), off := 0x05C, lsb := 2, width := 2, reset := 0 }
def HP_LOAD_STAT_BW_LOAD (u : Nat) : Fld := { page := (0x10 + (u % 2)), off := 0x05C, lsb := 4, width := 2, reset := 0 }
def HP_LOAD_STAT_SEVERE_ENTRIES (u : Nat) : Fld := { page := (0x10 + (u % 2)), off := 0x05C, lsb := 16, width := 16, reset := 0 }
def HP_EVT_PEND_INFO (u : Nat) : Fld := { page := (0x10 + (u % 2)), off := 0x060, lsb := 0, width := 9, reset := 0 }
def HP_EVT_PEND_WARN (u : Nat) : Fld := { page := (0x10 + (u % 2)), off := 0x060, lsb := 16, width := 9, reset := 0 }
def HP_EVT_PEND2_FAIL (u : Nat) : Fld := { page := (0x10 + (u % 2)), off := 0x064, lsb := 0, width := 9, reset := 0 }
def HP_EVT_PEND2_FATAL (u : Nat) : Fld := { page := (0x10 + (u % 2)), off := 0x064, lsb := 16, width := 9, reset := 0 }
def HP_EVT_OVF (u : Nat) : Fld := { page := (0x10 + (u % 2)), off := 0x068, lsb := 0, width := 4, reset := 0 }
def HP_POISON_ENTRIES (u : Nat) : Fld := { page := (0x10 + (u % 2)), off := 0x06C, lsb := 0, width := 17, reset := 0 }
def HP_POISON_OVERFLOW (u : Nat) : Fld := { page := (0x10 + (u % 2)), off := 0x06C, lsb := 31, width := 1, reset := 0 }
def HP_DSC (u : Nat) : Fld := { page := (0x10 + (u % 2)), off := 0x070, lsb := 0, width := 32, reset := 0 }
def HP_LINK_ERR_CORR (u : Nat) : Fld := { page := (0x10 + (u % 2)), off := 0x074, lsb := 0, width := 16, reset := 0 }
def HP_LINK_ERR_REPLAY (u : Nat) : Fld := { page := (0x10 + (u % 2)), off := 0x074, lsb := 16, width := 16, reset := 0 }
def HP_MBOX_OPCODE (u : Nat) : Fld := { page := (0x10 + (u % 2)), off := 0x078, lsb := 0, width := 16, reset := 0 }
def HP_MBOX_BUSY (u : Nat) : Fld := { page := (0x10 + (u % 2)), off := 0x078, lsb := 16, width := 1, reset := 0 }
def HP_MBOX_BG (u : Nat) : Fld := { page := (0x10 + (u % 2)), off := 0x078, lsb := 17, width := 1, reset := 0 }
def HP_MBOX_PCT (u : Nat) : Fld := { page := (0x10 + (u % 2)), off := 0x078, lsb := 24, width := 8, reset := 0 }

/-! ### `DMC` (Table 05-4) -/

def DMC_CFG_MAX_RATE (u : Nat) : Fld := { page := (0x20 + (u % 16)), off := 0x040, lsb := 0, width := 4, reset := 9 }
def DMC_CFG_RANK_MAP (u : Nat) : Fld := { page := (0x20 + (u % 16)), off := 0x040, lsb := 8, width := 1, reset := 0 }
def DMC_CFG_TRAIN_FULL (u : Nat) : Fld := { page := (0x20 + (u % 16)), off := 0x040, lsb := 9, width := 1, reset := 0 }
def DMC_GEOM_RANKS (u : Nat) : Fld := { page := (0x20 + (u % 16)), off := 0x044, lsb := 0, width := 4, reset := 0 }
def DMC_GEOM_CHIP_ID_BITS (u : Nat) : Fld := { page := (0x20 + (u % 16)), off := 0x044, lsb := 4, width := 3, reset := 0 }
def DMC_GEOM_ROW_BITS (u : Nat) : Fld := { page := (0x20 + (u % 16)), off := 0x044, lsb := 8, width := 4, reset := 0 }
def DMC_GEOM_DENSITY (u : Nat) : Fld := { page := (0x20 + (u % 16)), off := 0x044, lsb := 12, width := 4, reset := 0 }
def DMC_GEOM_OVERSIZE (u : Nat) : Fld := { page := (0x20 + (u % 16)), off := 0x044, lsb := 16, width := 1, reset := 0 }
def DMC_GEOM_EXCLUDED (u : Nat) : Fld := { page := (0x20 + (u % 16)), off := 0x044, lsb := 17, width := 1, reset := 0 }
def DMC_GRAN (u : Nat) : Fld := { page := (0x20 + (u % 16)), off := 0x048, lsb := 0, width := 40, reset := 0 }
def DMC_TRAIN_RATE (u : Nat) : Fld := { page := (0x20 + (u % 16)), off := 0x050, lsb := 0, width := 4, reset := 0 }
def DMC_TRAIN_MODE (u : Nat) : Fld := { page := (0x20 + (u % 16)), off := 0x050, lsb := 4, width := 2, reset := 0 }
def DMC_TRAIN_STEPDOWNS (u : Nat) : Fld := { page := (0x20 + (u % 16)), off := 0x050, lsb := 8, width := 4, reset := 0 }
def DMC_TRAIN_MS (u : Nat) : Fld := { page := (0x20 + (u % 16)), off := 0x050, lsb := 16, width := 16, reset := 0 }
def DMC_RANK_PWR (u n : Nat) : Fld := { page := (0x20 + (u % 16)), off := 0x054, lsb := 2 * (n % 8), width := 2, reset := 0 }
def DMC_SHED_EN (u n : Nat) : Fld := { page := (0x20 + (u % 16)), off := 0x058 + 4 * ((n % 8) / 4), lsb := 6 * ((n % 8) % 4), width := 6, reset := 63 }
def DMC_PATROL_HOURS (u : Nat) : Fld := { page := (0x20 + (u % 16)), off := 0x060, lsb := 0, width := 8, reset := 24 }
def DMC_PATROL_STEP (u : Nat) : Fld := { page := (0x20 + (u % 16)), off := 0x060, lsb := 16, width := 12, reset := 0 }
def DMC_PATROL_PASS_PASSES (u : Nat) : Fld := { page := (0x20 + (u % 16)), off := 0x064, lsb := 0, width := 16, reset := 0 }
def DMC_PATROL_PASS_PCT (u : Nat) : Fld := { page := (0x20 + (u % 16)), off := 0x064, lsb := 24, width := 8, reset := 0 }
def DMC_CE_CNT (u : Nat) : Fld := { page := (0x20 + (u % 16)), off := 0x068, lsb := 0, width := 32, reset := 0 }
def DMC_UE_CNT_COUNT (u : Nat) : Fld := { page := (0x20 + (u % 16)), off := 0x06C, lsb := 0, width := 16, reset := 0 }
def DMC_UE_CNT_REFILLS (u : Nat) : Fld := { page := (0x20 + (u % 16)), off := 0x06C, lsb := 16, width := 16, reset := 0 }
def DMC_THR_CE_ROW_THR (u : Nat) : Fld := { page := (0x20 + (u % 16)), off := 0x070, lsb := 0, width := 8, reset := 16 }
def DMC_THR_DEV_ROWS (u : Nat) : Fld := { page := (0x20 + (u % 16)), off := 0x070, lsb := 8, width := 4, reset := 4 }
def DMC_LAST_UE (u : Nat) : Fld := { page := (0x20 + (u % 16)), off := 0x078, lsb := 0, width := 36, reset := 0 }
def DMC_LAST_UE_LOC_RANK (u : Nat) : Fld := { page := (0x20 + (u % 16)), off := 0x080, lsb := 0, width := 3, reset := 0 }
def DMC_LAST_UE_LOC_DEVICE (u : Nat) : Fld := { page := (0x20 + (u % 16)), off := 0x080, lsb := 4, width := 4, reset := 0 }
def DMC_LAST_UE_LOC_SUB (u : Nat) : Fld := { page := (0x20 + (u % 16)), off := 0x080, lsb := 8, width := 1, reset := 0 }
def DMC_LAST_UE_LOC_ROW (u : Nat) : Fld := { page := (0x20 + (u % 16)), off := 0x080, lsb := 14, width := 18, reset := 0 }

/-! ### `DRS` (Table 05-6) -/

def DRS_CTRL_PPR_EN : Fld := { page := 0x30, off := 0x040, lsb := 0, width := 1, reset := 1 }
def DRS_CTRL_HPPR_EN : Fld := { page := 0x30, off := 0x040, lsb := 1, width := 1, reset := 1 }
def DRS_CTRL_SPARE_EN : Fld := { page := 0x30, off := 0x040, lsb := 2, width := 1, reset := 1 }
def DRS_CTRL_RETIRE_EN : Fld := { page := 0x30, off := 0x040, lsb := 3, width := 1, reset := 1 }
def DRS_CTRL_POOL_DIV : Fld := { page := 0x30, off := 0x040, lsb := 8, width := 2, reset := 0 }
def DRS_CTRL_LOW_PCT : Fld := { page := 0x30, off := 0x040, lsb := 12, width := 4, reset := 1 }
def DRS_POOL_SLOTS : Fld := { page := 0x30, off := 0x044, lsb := 0, width := 32, reset := 0 }
def DRS_POOL_USED : Fld := { page := 0x30, off := 0x048, lsb := 0, width := 32, reset := 0 }
def DRS_RETIRED : Fld := { page := 0x30, off := 0x04C, lsb := 0, width := 32, reset := 0 }
def DRS_RELEASED : Fld := { page := 0x30, off := 0x050, lsb := 0, width := 32, reset := 0 }
def DRS_PPR_HARD : Fld := { page := 0x30, off := 0x054, lsb := 0, width := 16, reset := 0 }
def DRS_PPR_SOFT : Fld := { page := 0x30, off := 0x054, lsb := 16, width := 16, reset := 0 }
def DRS_PPR_PEND : Fld := { page := 0x30, off := 0x058, lsb := 0, width := 16, reset := 0 }
def DRS_SPARE_STAT_SPARED : Fld := { page := 0x30, off := 0x05C, lsb := 0, width := 9, reset := 0 }
def DRS_SPARE_STAT_DEGRADED : Fld := { page := 0x30, off := 0x05C, lsb := 16, width := 9, reset := 0 }
def DRS_SPARE_PROG_CH : Fld := { page := 0x30, off := 0x060, lsb := 0, width := 4, reset := 0 }
def DRS_SPARE_PROG_RANK : Fld := { page := 0x30, off := 0x060, lsb := 4, width := 3, reset := 0 }
def DRS_SPARE_PROG_SUB : Fld := { page := 0x30, off := 0x060, lsb := 7, width := 1, reset := 0 }
def DRS_SPARE_PROG_PCT : Fld := { page := 0x30, off := 0x060, lsb := 8, width := 8, reset := 0 }
def DRS_SPARE_PROG_ACTIVE : Fld := { page := 0x30, off := 0x060, lsb := 16, width := 1, reset := 0 }

/-! ### `DRT` (Table 06-10) -/

def DRT_CTRL_HEAT_EN : Fld := { page := 0x40, off := 0x040, lsb := 0, width := 1, reset := 1 }
def DRT_CTRL_DECAY_SHIFT : Fld := { page := 0x40, off := 0x040, lsb := 1, width := 3, reset := 3 }
def DRT_CTRL_HEAT_INC : Fld := { page := 0x40, off := 0x040, lsb := 8, width := 7, reset := 16 }
def DRT_CTRL_EPOCH_S : Fld := { page := 0x40, off := 0x040, lsb := 16, width := 8, reset := 1 }
def DRT_SCRUB_PASSES : Fld := { page := 0x40, off := 0x044, lsb := 0, width := 16, reset := 0 }
def DRT_SCRUB_MISMATCH : Fld := { page := 0x40, off := 0x044, lsb := 16, width := 16, reset := 0 }
def DRT_DIRTY : Fld := { page := 0x40, off := 0x048, lsb := 0, width := 40, reset := 0 }
def DRT_INFLOW : Fld := { page := 0x40, off := 0x050, lsb := 0, width := 32, reset := 0 }
def DRT_SUMMARY : Fld := { page := 0x40, off := 0x054, lsb := 0, width := 25, reset := 0 }
def DRT_VOL_SEL : Fld := { page := 0x40, off := 0x058, lsb := 16, width := 8, reset := 0 }
def DRT_INFLIGHT_IN_USE : Fld := { page := 0x40, off := 0x064, lsb := 0, width := 15, reset := 0 }
def DRT_INFLIGHT_PEAK : Fld := { page := 0x40, off := 0x064, lsb := 16, width := 15, reset := 0 }
def DRT_EPOCHS : Fld := { page := 0x40, off := 0x068, lsb := 0, width := 32, reset := 0 }
def DRT_RANK_DIRTY (n : Nat) : Fld := { page := 0x40, off := 0x100 + 4 * (n % 128), lsb := 0, width := 32, reset := 0 }

/-! ### `WTH` (Table 06-12) -/

def WTH_CTRL_TARGET_PCT : Fld := { page := 0x41, off := 0x040, lsb := 0, width := 7, reset := 80 }
def WTH_CTRL_TAU_S : Fld := { page := 0x41, off := 0x040, lsb := 8, width := 8, reset := 10 }
def WTH_CTRL_COOL_LEVEL : Fld := { page := 0x41, off := 0x040, lsb := 16, width := 7, reset := 0 }
def WTH_CTRL_EW_BOOST : Fld := { page := 0x41, off := 0x040, lsb := 24, width := 1, reset := 1 }
def WTH_RATE_CTRL_MAX_GBPS : Fld := { page := 0x41, off := 0x044, lsb := 0, width := 5, reset := 30 }
def WTH_RATE_CTRL_COOL_MBPS : Fld := { page := 0x41, off := 0x044, lsb := 16, width := 16, reset := 0 }
def WTH_WEAR_CTRL_LIFE_DAYS : Fld := { page := 0x41, off := 0x048, lsb := 0, width := 16, reset := 1826 }
def WTH_WEAR_CTRL_BORROW_PCT : Fld := { page := 0x41, off := 0x048, lsb := 16, width := 8, reset := 25 }
def WTH_STATE_STATE : Fld := { page := 0x41, off := 0x04C, lsb := 0, width := 3, reset := 7 }
def WTH_STATE_CEILING : Fld := { page := 0x41, off := 0x04C, lsb := 8, width := 7, reset := 0 }
def WTH_RATE_CMD_MBPS : Fld := { page := 0x41, off := 0x050, lsb := 0, width := 16, reset := 0 }
def WTH_RATE_ACT_MBPS : Fld := { page := 0x41, off := 0x050, lsb := 16, width := 16, reset := 0 }
def WTH_TARGET : Fld := { page := 0x41, off := 0x054, lsb := 0, width := 32, reset := 0 }
def WTH_ALLOW : Fld := { page := 0x41, off := 0x058, lsb := 0, width := 40, reset := 0 }
def WTH_BUCKET : Fld := { page := 0x41, off := 0x060, lsb := 0, width := 40, reset := 0 }
def WTH_LIFE_REMAIN_DAYS : Fld := { page := 0x41, off := 0x068, lsb := 0, width := 16, reset := 0 }
def WTH_LIFE_ELAPSED_DAYS : Fld := { page := 0x41, off := 0x068, lsb := 16, width := 16, reset := 0 }
def WTH_WITHERED : Fld := { page := 0x41, off := 0x06C, lsb := 0, width := 48, reset := 0 }
def WTH_TORN : Fld := { page := 0x41, off := 0x074, lsb := 0, width := 32, reset := 0 }
def WTH_REDIRTY : Fld := { page := 0x41, off := 0x078, lsb := 0, width := 32, reset := 0 }
def WTH_SKIPPED : Fld := { page := 0x41, off := 0x07C, lsb := 0, width := 32, reset := 0 }
def WTH_HELD_S : Fld := { page := 0x41, off := 0x080, lsb := 0, width := 32, reset := 0 }
def WTH_BOOST_CNT : Fld := { page := 0x41, off := 0x084, lsb := 0, width := 16, reset := 0 }

/-! ### `BUD` (Table 06-14) -/

def BUD_HOST_CAP : Fld := { page := 0x44, off := 0x040, lsb := 0, width := 32, reset := 0x40000000 }
def BUD_CTRL : Fld := { page := 0x44, off := 0x044, lsb := 0, width := 6, reset := 10 }
def BUD_FLOOR : Fld := { page := 0x44, off := 0x048, lsb := 0, width := 32, reset := 0 }
def BUD_IKILN_DEF : Fld := { page := 0x44, off := 0x04C, lsb := 0, width := 20, reset := 4000 }
def BUD_HOST_ENERGY : Fld := { page := 0x44, off := 0x050, lsb := 0, width := 24, reset := 0 }
def BUD_BOUND : Fld := { page := 0x44, off := 0x054, lsb := 0, width := 32, reset := 0 }
def BUD_B_ENERGY : Fld := { page := 0x44, off := 0x058, lsb := 0, width := 32, reset := 0 }
def BUD_B_ZONE : Fld := { page := 0x44, off := 0x05C, lsb := 0, width := 32, reset := 0 }
def BUD_LIMIT : Fld := { page := 0x44, off := 0x060, lsb := 0, width := 3, reset := 4 }
def BUD_E_COUNT_CT : Fld := { page := 0x44, off := 0x064, lsb := 0, width := 24, reset := 0 }
def BUD_E_COUNT_SRC : Fld := { page := 0x44, off := 0x064, lsb := 31, width := 1, reset := 0 }
def BUD_Q_FIX : Fld := { page := 0x44, off := 0x068, lsb := 0, width := 20, reset := 0 }
def BUD_I_KILN_CT_PER_S : Fld := { page := 0x44, off := 0x06C, lsb := 0, width := 20, reset := 4000 }
def BUD_I_KILN_LEARNT : Fld := { page := 0x44, off := 0x06C, lsb := 24, width := 3, reset := 0 }
def BUD_DRAIN_MBPS : Fld := { page := 0x44, off := 0x070, lsb := 0, width := 17, reset := 0 }
def BUD_DRAIN_TERM : Fld := { page := 0x44, off := 0x070, lsb := 28, width := 3, reset := 0 }
def BUD_SAFE_BOUND : Fld := { page := 0x44, off := 0x074, lsb := 0, width := 32, reset := 0 }
def BUD_CHECKS_PASSED : Fld := { page := 0x44, off := 0x078, lsb := 0, width := 16, reset := 0 }
def BUD_CHECKS_FAILED : Fld := { page := 0x44, off := 0x078, lsb := 16, width := 16, reset := 0 }
def BUD_UPDATES : Fld := { page := 0x44, off := 0x07C, lsb := 0, width := 32, reset := 0 }
def BUD_ENERGY_AGE : Fld := { page := 0x44, off := 0x080, lsb := 0, width := 32, reset := 0 }

/-! ### `NCH` (Table 07-9) -/

def NCH_CFG_IF_MODE (u : Nat) : Fld := { page := (0x50 + (u % 32)), off := 0x040, lsb := 0, width := 2, reset := 0 }
def NCH_CFG_MAX_RATE (u : Nat) : Fld := { page := (0x50 + (u % 32)), off := 0x040, lsb := 8, width := 6, reset := 36 }
def NCH_STAT_IF_ACT (u : Nat) : Fld := { page := (0x50 + (u % 32)), off := 0x044, lsb := 0, width := 2, reset := 0 }
def NCH_STAT_RATE_ACT (u : Nat) : Fld := { page := (0x50 + (u % 32)), off := 0x044, lsb := 8, width := 6, reset := 0 }
def NCH_STAT_TRAINED (u : Nat) : Fld := { page := (0x50 + (u % 32)), off := 0x044, lsb := 16, width := 1, reset := 0 }
def NCH_STAT_DEAD (u : Nat) : Fld := { page := (0x50 + (u % 32)), off := 0x044, lsb := 17, width := 1, reset := 0 }
def NCH_STAT_DIES (u : Nat) : Fld := { page := (0x50 + (u % 32)), off := 0x044, lsb := 24, width := 5, reset := 0 }
def NCH_DIE_MAP_PRESENT (u : Nat) : Fld := { page := (0x50 + (u % 32)), off := 0x048, lsb := 0, width := 16, reset := 0 }
def NCH_DIE_MAP_RETIRED (u : Nat) : Fld := { page := (0x50 + (u % 32)), off := 0x048, lsb := 16, width := 16, reset := 0 }
def NCH_GEOM_PLANES (u : Nat) : Fld := { page := (0x50 + (u % 32)), off := 0x04C, lsb := 0, width := 4, reset := 0 }
def NCH_GEOM_BLOCKS (u : Nat) : Fld := { page := (0x50 + (u % 32)), off := 0x04C, lsb := 4, width := 16, reset := 0 }
def NCH_GEOM_PAGES (u : Nat) : Fld := { page := (0x50 + (u % 32)), off := 0x04C, lsb := 20, width := 12, reset := 0 }
def NCH_RATE_PSLC_MEAN_MBPS (u : Nat) : Fld := { page := (0x50 + (u % 32)), off := 0x050, lsb := 0, width := 16, reset := 0 }
def NCH_RATE_PSLC_MIN_MBPS (u : Nat) : Fld := { page := (0x50 + (u % 32)), off := 0x050, lsb := 16, width := 16, reset := 0 }
def NCH_RATE_TLC_MEAN_MBPS (u : Nat) : Fld := { page := (0x50 + (u % 32)), off := 0x054, lsb := 0, width := 16, reset := 0 }
def NCH_RATE_TLC_MIN_MBPS (u : Nat) : Fld := { page := (0x50 + (u % 32)), off := 0x054, lsb := 16, width := 16, reset := 0 }
def NCH_RETRY (u : Nat) : Fld := { page := (0x50 + (u % 32)), off := 0x058, lsb := 0, width := 32, reset := 0 }
def NCH_SOFT (u : Nat) : Fld := { page := (0x50 + (u % 32)), off := 0x05C, lsb := 0, width := 32, reset := 0 }
def NCH_REBUILT (u : Nat) : Fld := { page := (0x50 + (u % 32)), off := 0x060, lsb := 0, width := 32, reset := 0 }
def NCH_UNREAD (u : Nat) : Fld := { page := (0x50 + (u % 32)), off := 0x064, lsb := 0, width := 32, reset := 0 }
def NCH_FAILS_PROGRAM (u : Nat) : Fld := { page := (0x50 + (u % 32)), off := 0x068, lsb := 0, width := 16, reset := 0 }
def NCH_FAILS_ERASE (u : Nat) : Fld := { page := (0x50 + (u % 32)), off := 0x068, lsb := 16, width := 16, reset := 0 }
def NCH_BAD_FACTORY (u : Nat) : Fld := { page := (0x50 + (u % 32)), off := 0x06C, lsb := 0, width := 16, reset := 0 }
def NCH_BAD_GROWN (u : Nat) : Fld := { page := (0x50 + (u % 32)), off := 0x06C, lsb := 16, width := 16, reset := 0 }
def NCH_SPARE_FREE (u : Nat) : Fld := { page := (0x50 + (u % 32)), off := 0x070, lsb := 0, width := 16, reset := 0 }
def NCH_SPARE_MIN_DIE (u : Nat) : Fld := { page := (0x50 + (u % 32)), off := 0x070, lsb := 16, width := 16, reset := 0 }
def NCH_LAST_ERR_DIE (u : Nat) : Fld := { page := (0x50 + (u % 32)), off := 0x074, lsb := 0, width := 4, reset := 0 }
def NCH_LAST_ERR_BLOCK (u : Nat) : Fld := { page := (0x50 + (u % 32)), off := 0x074, lsb := 4, width := 16, reset := 0 }
def NCH_LAST_ERR_PAGE (u : Nat) : Fld := { page := (0x50 + (u % 32)), off := 0x074, lsb := 20, width := 12, reset := 0 }

/-! ### `CEL` (Table 07-11) -/

def CEL_ZONE_CTRL : Fld := { page := 0x70, off := 0x040, lsb := 0, width := 13, reset := 512 }
def CEL_GUEST_CTRL : Fld := { page := 0x70, off := 0x044, lsb := 0, width := 16, reset := 0 }
def CEL_STRIPE : Fld := { page := 0x70, off := 0x048, lsb := 0, width := 5, reset := 15 }
def CEL_RET_CTRL_REFRESH_DAYS : Fld := { page := 0x70, off := 0x04C, lsb := 0, width := 10, reset := 180 }
def CEL_RET_CTRL_UNPOW_ASSUME_DAYS : Fld := { page := 0x70, off := 0x04C, lsb := 12, width := 8, reset := 90 }
def CEL_RET_CTRL_PATROL_DAYS : Fld := { page := 0x70, off := 0x04C, lsb := 24, width := 4, reset := 14 }
def CEL_ERR_CTRL_REFRESH_PCT : Fld := { page := 0x70, off := 0x050, lsb := 0, width := 7, reset := 50 }
def CEL_ERR_CTRL_DISTURB_K : Fld := { page := 0x70, off := 0x050, lsb := 16, width := 16, reset := 200 }
def CEL_GC_CTRL_OP_MIN_PCT : Fld := { page := 0x70, off := 0x054, lsb := 0, width := 7, reset := 7 }
def CEL_GC_CTRL_GC_LOW_PCT : Fld := { page := 0x70, off := 0x054, lsb := 8, width := 7, reset := 2 }
def CEL_GC_CTRL_FOLD_MBPS : Fld := { page := 0x70, off := 0x054, lsb := 16, width := 16, reset := 0x1f40 }
def CEL_WL_CTRL : Fld := { page := 0x70, off := 0x058, lsb := 0, width := 5, reset := 5 }
def CEL_MAP_CTRL_DIRTY_MAX : Fld := { page := 0x70, off := 0x05C, lsb := 0, width := 20, reset := 0x10000 }
def CEL_MAP_CTRL_SCRUB_H : Fld := { page := 0x70, off := 0x05C, lsb := 24, width := 8, reset := 24 }
def CEL_Z : Fld := { page := 0x70, off := 0x060, lsb := 0, width := 40, reset := 0 }
def CEL_KILN_GROUPS_TOTAL : Fld := { page := 0x70, off := 0x068, lsb := 0, width := 16, reset := 0 }
def CEL_KILN_GROUPS_ERASED : Fld := { page := 0x70, off := 0x068, lsb := 16, width := 16, reset := 0 }
def CEL_KILN_OCC_OCCUPIED : Fld := { page := 0x70, off := 0x06C, lsb := 0, width := 16, reset := 0 }
def CEL_KILN_OCC_SPARE : Fld := { page := 0x70, off := 0x06C, lsb := 16, width := 16, reset := 0 }
def CEL_FOLD : Fld := { page := 0x70, off := 0x070, lsb := 0, width := 40, reset := 0 }
def CEL_IMAGE_FREE : Fld := { page := 0x70, off := 0x078, lsb := 0, width := 32, reset := 0 }
def CEL_OP : Fld := { page := 0x70, off := 0x07C, lsb := 0, width := 16, reset := 0 }
def CEL_WA : Fld := { page := 0x70, off := 0x080, lsb := 0, width := 16, reset := 300 }
def CEL_ENDUR : Fld := { page := 0x70, off := 0x084, lsb := 0, width := 48, reset := 0 }
def CEL_LIFE_USED : Fld := { page := 0x70, off := 0x08C, lsb := 0, width := 14, reset := 0 }
def CEL_LIFE_MAX : Fld := { page := 0x70, off := 0x08C, lsb := 16, width := 14, reset := 0 }
def CEL_BAD_FACTORY : Fld := { page := 0x70, off := 0x090, lsb := 0, width := 16, reset := 0 }
def CEL_BAD_GROWN : Fld := { page := 0x70, off := 0x090, lsb := 16, width := 16, reset := 0 }
def CEL_SPARE_FREE : Fld := { page := 0x70, off := 0x094, lsb := 0, width := 24, reset := 0 }
def CEL_SPARE_DIES_EMPTY : Fld := { page := 0x70, off := 0x094, lsb := 24, width := 8, reset := 0 }
def CEL_PATROL_PASSES : Fld := { page := 0x70, off := 0x098, lsb := 0, width := 16, reset := 0 }
def CEL_PATROL_PCT : Fld := { page := 0x70, off := 0x098, lsb := 16, width := 8, reset := 0 }
def CEL_PATROL_LAST_DAYS : Fld := { page := 0x70, off := 0x098, lsb := 24, width := 8, reset := 0 }
def CEL_UNPOW : Fld := { page := 0x70, off := 0x09C, lsb := 0, width := 2, reset := 0 }
def CEL_UNPOW_S : Fld := { page := 0x70, off := 0x0A0, lsb := 0, width := 32, reset := 0 }
def CEL_MAP_DIRTY : Fld := { page := 0x70, off := 0x0A4, lsb := 0, width := 20, reset := 0 }
def CEL_MAP_LOADED : Fld := { page := 0x70, off := 0x0A8, lsb := 0, width := 25, reset := 0 }
def CEL_LOST : Fld := { page := 0x70, off := 0x0AC, lsb := 0, width := 40, reset := 0 }
def CEL_DIES_USABLE : Fld := { page := 0x70, off := 0x0B4, lsb := 0, width := 10, reset := 0 }
def CEL_DIES_RETIRED : Fld := { page := 0x70, off := 0x0B4, lsb := 16, width := 10, reset := 0 }
def CEL_RESIZE_ACTIVE : Fld := { page := 0x70, off := 0x0B8, lsb := 0, width := 1, reset := 0 }
def CEL_RESIZE_PCT : Fld := { page := 0x70, off := 0x0B8, lsb := 8, width := 8, reset := 0 }
def CEL_MAP_SCRUB_PASSES : Fld := { page := 0x70, off := 0x0BC, lsb := 0, width := 16, reset := 0 }
def CEL_MAP_SCRUB_ERRORS : Fld := { page := 0x70, off := 0x0BC, lsb := 16, width := 16, reset := 0 }

/-! ### `CRY` (Table 07-13) -/

def CRY_STAT_KEY_VALID : Fld := { page := 0x71, off := 0x040, lsb := 0, width := 1, reset := 0 }
def CRY_STAT_SEALED : Fld := { page := 0x71, off := 0x040, lsb := 1, width := 1, reset := 0 }
def CRY_STAT_LOCKED : Fld := { page := 0x71, off := 0x040, lsb := 2, width := 1, reset := 0 }
def CRY_STAT_SELFTEST_OK : Fld := { page := 0x71, off := 0x040, lsb := 3, width := 1, reset := 0 }
def CRY_STAT_WRAP_GEN : Fld := { page := 0x71, off := 0x040, lsb := 8, width := 8, reset := 0 }
def CRY_STAT_UNLOCK_FAILS : Fld := { page := 0x71, off := 0x040, lsb := 16, width := 16, reset := 0 }
def CRY_UNLOCK_WAIT : Fld := { page := 0x71, off := 0x044, lsb := 0, width := 7, reset := 0 }
def CRY_ENC : Fld := { page := 0x71, off := 0x048, lsb := 0, width := 48, reset := 0 }
def CRY_DEC : Fld := { page := 0x71, off := 0x050, lsb := 0, width := 48, reset := 0 }
def CRY_KEY_EPOCH : Fld := { page := 0x71, off := 0x058, lsb := 0, width := 32, reset := 0 }

/-! ### `KLN` (Table 08-13) -/

def KLN_CTRL_ARM : Fld := { page := 0x42, off := 0x040, lsb := 0, width := 1, reset := 1 }
def KLN_CTRL_DEF_CLASS : Fld := { page := 0x42, off := 0x040, lsb := 8, width := 3, reset := 4 }
def KLN_CTRL_SELFTEST : Fld := { page := 0x42, off := 0x040, lsb := 16, width := 1, reset := 0 }
def KLN_TRIG_EW_HC : Fld := { page := 0x42, off := 0x044, lsb := 0, width := 12, reset := 100 }
def KLN_TRIG_GROUP_TX : Fld := { page := 0x42, off := 0x044, lsb := 16, width := 1, reset := 0 }
def KLN_TRIG_GROUP_RX : Fld := { page := 0x42, off := 0x044, lsb := 17, width := 2, reset := 2 }
def KLN_TRIG_MRN_EN : Fld := { page := 0x42, off := 0x044, lsb := 20, width := 1, reset := 1 }
def KLN_THR_FAIL_MV : Fld := { page := 0x42, off := 0x048, lsb := 0, width := 14, reset := 0x27d8 }
def KLN_THR_WARN_MV : Fld := { page := 0x42, off := 0x048, lsb := 16, width := 14, reset := 0x2af8 }
def KLN_TRIAGE : Fld := { page := 0x42, off := 0x04C, lsb := 0, width := 6, reset := 10 }
def KLN_STAT_STATE : Fld := { page := 0x42, off := 0x050, lsb := 0, width := 4, reset := 0 }
def KLN_STAT_TRIAGE : Fld := { page := 0x42, off := 0x050, lsb := 4, width := 1, reset := 0 }
def KLN_STAT_ROM : Fld := { page := 0x42, off := 0x050, lsb := 5, width := 1, reset := 0 }
def KLN_STAT_PLANNED : Fld := { page := 0x42, off := 0x050, lsb := 6, width := 1, reset := 0 }
def KLN_STAT_DEBOUNCE : Fld := { page := 0x42, off := 0x050, lsb := 7, width := 1, reset := 0 }
def KLN_STAT_TRIGGER : Fld := { page := 0x42, off := 0x050, lsb := 8, width := 3, reset := 0 }
def KLN_STAT_TEST_OK : Fld := { page := 0x42, off := 0x050, lsb := 16, width := 1, reset := 0 }
def KLN_STAT_SLOT_READY : Fld := { page := 0x42, off := 0x050, lsb := 17, width := 1, reset := 0 }
def KLN_STAT_NEXT_SLOT : Fld := { page := 0x42, off := 0x050, lsb := 18, width := 1, reset := 0 }
def KLN_SELFTEST_FAIL : Fld := { page := 0x42, off := 0x054, lsb := 0, width := 8, reset := 0 }
def KLN_SELFTEST_PASSED : Fld := { page := 0x42, off := 0x054, lsb := 16, width := 16, reset := 0 }
def KLN_BATCH : Fld := { page := 0x42, off := 0x058, lsb := 0, width := 64, reset := 0 }
def KLN_PINS : Fld := { page := 0x42, off := 0x060, lsb := 0, width := 11, reset := 0 }
def KLN_MAP_ROOM : Fld := { page := 0x42, off := 0x064, lsb := 0, width := 18, reset := 0x2c000 }
def KLN_DRAINED : Fld := { page := 0x42, off := 0x068, lsb := 0, width := 40, reset := 0 }
def KLN_REMAIN : Fld := { page := 0x42, off := 0x070, lsb := 0, width := 40, reset := 0 }
def KLN_LAST_END : Fld := { page := 0x42, off := 0x078, lsb := 0, width := 2, reset := 0 }
def KLN_LAST_TRIGGER : Fld := { page := 0x42, off := 0x078, lsb := 4, width := 3, reset := 0 }
def KLN_LAST_TRIAGE : Fld := { page := 0x42, off := 0x078, lsb := 8, width := 1, reset := 0 }
def KLN_LAST_ROM : Fld := { page := 0x42, off := 0x078, lsb := 9, width := 1, reset := 0 }
def KLN_LAST_PLANNED : Fld := { page := 0x42, off := 0x078, lsb := 10, width := 1, reset := 0 }
def KLN_LAST_COARSE_K : Fld := { page := 0x42, off := 0x078, lsb := 16, width := 6, reset := 0 }
def KLN_LAST_DIRTY : Fld := { page := 0x42, off := 0x07C, lsb := 0, width := 40, reset := 0 }
def KLN_LAST_LOST : Fld := { page := 0x42, off := 0x084, lsb := 0, width := 40, reset := 0 }
def KLN_LAST_LISTED : Fld := { page := 0x42, off := 0x08C, lsb := 0, width := 40, reset := 0 }
def KLN_LAST_CT : Fld := { page := 0x42, off := 0x094, lsb := 0, width := 24, reset := 0 }
def KLN_LAST_MS : Fld := { page := 0x42, off := 0x098, lsb := 0, width := 24, reset := 0 }
def KLN_COUNTS_SEALED : Fld := { page := 0x42, off := 0x09C, lsb := 0, width := 16, reset := 0 }
def KLN_COUNTS_CANCELLED : Fld := { page := 0x42, off := 0x09C, lsb := 16, width := 16, reset := 0 }
def KLN_COUNTS2_TRIAGED : Fld := { page := 0x42, off := 0x0A0, lsb := 0, width := 16, reset := 0 }
def KLN_COUNTS2_UNSEALED : Fld := { page := 0x42, off := 0x0A0, lsb := 16, width := 16, reset := 0 }
def KLN_IGNORED : Fld := { page := 0x42, off := 0x0A4, lsb := 0, width := 16, reset := 0 }
def KLN_PHASE_US (n : Nat) : Fld := { page := 0x42, off := 0x0C0 + 8 * (n % 8), lsb := 0, width := 32, reset := 0 }
def KLN_PHASE_CT (n : Nat) : Fld := { page := 0x42, off := 0x0C4 + 8 * (n % 8), lsb := 0, width := 24, reset := 0 }

/-! ### `STP` (Table 09-11) -/

def STP_CTRL_BULK_EN : Fld := { page := 0x43, off := 0x040, lsb := 0, width := 1, reset := 1 }
def STP_CTRL_HINT_EN : Fld := { page := 0x43, off := 0x040, lsb := 1, width := 1, reset := 1 }
def STP_FILL_CTRL_CEIL_100US : Fld := { page := 0x43, off := 0x044, lsb := 0, width := 10, reset := 40 }
def STP_FILL_CTRL_WAIT_US : Fld := { page := 0x43, off := 0x044, lsb := 16, width := 10, reset := 100 }
def STP_BULK_CTRL : Fld := { page := 0x43, off := 0x048, lsb := 0, width := 17, reset := 0 }
def STP_BULK_DELAY : Fld := { page := 0x43, off := 0x04C, lsb := 0, width := 16, reset := 0 }
def STP_WIN_A : Fld := { page := 0x43, off := 0x050, lsb := 0, width := 8, reset := 0 }
def STP_WIN_B : Fld := { page := 0x43, off := 0x054, lsb := 0, width := 8, reset := 0 }
def STP_STAT_PHASE : Fld := { page := 0x43, off := 0x058, lsb := 0, width := 3, reset := 0 }
def STP_STAT_COLD : Fld := { page := 0x43, off := 0x058, lsb := 3, width := 1, reset := 0 }
def STP_STAT_FOLD_ACTIVE : Fld := { page := 0x43, off := 0x058, lsb := 4, width := 1, reset := 0 }
def STP_STAT_BULK_RUN : Fld := { page := 0x43, off := 0x058, lsb := 5, width := 1, reset := 0 }
def STP_STAT_HOLD : Fld := { page := 0x43, off := 0x058, lsb := 8, width := 3, reset := 0 }
def STP_STAT_SEALED_CASK : Fld := { page := 0x43, off := 0x058, lsb := 16, width := 1, reset := 0 }
def STP_TIMES_READY_MS : Fld := { page := 0x43, off := 0x05C, lsb := 0, width := 16, reset := 0 }
def STP_TIMES_ST1_MS : Fld := { page := 0x43, off := 0x05C, lsb := 16, width := 16, reset := 0 }
def STP_UNFILLED : Fld := { page := 0x43, off := 0x060, lsb := 0, width := 40, reset := 0 }
def STP_PARTIAL_IN_USE : Fld := { page := 0x43, off := 0x068, lsb := 0, width := 16, reset := 0 }
def STP_PARTIAL_PEAK : Fld := { page := 0x43, off := 0x068, lsb := 16, width := 16, reset := 0 }
def STP_MASKS : Fld := { page := 0x43, off := 0x06C, lsb := 0, width := 25, reset := 0 }
def STP_MASKS_PEAK : Fld := { page := 0x43, off := 0x070, lsb := 0, width := 25, reset := 0 }
def STP_DEMAND : Fld := { page := 0x43, off := 0x074, lsb := 0, width := 48, reset := 0 }
def STP_FILL_LAT_MEAN_US : Fld := { page := 0x43, off := 0x07C, lsb := 0, width := 16, reset := 0 }
def STP_FILL_LAT_MAX_US : Fld := { page := 0x43, off := 0x07C, lsb := 16, width := 16, reset := 0 }
def STP_CEIL_HITS : Fld := { page := 0x43, off := 0x080, lsb := 0, width := 32, reset := 0 }
def STP_REBUILDS : Fld := { page := 0x43, off := 0x084, lsb := 0, width := 32, reset := 0 }
def STP_POISONED : Fld := { page := 0x43, off := 0x088, lsb := 0, width := 32, reset := 0 }
def STP_WAITS_SLOT_WAITS : Fld := { page := 0x43, off := 0x08C, lsb := 0, width := 16, reset := 0 }
def STP_WAITS_MASK_HOLDS : Fld := { page := 0x43, off := 0x08C, lsb := 16, width := 16, reset := 0 }
def STP_BULK_MBPS : Fld := { page := 0x43, off := 0x090, lsb := 0, width := 17, reset := 0 }
def STP_BULK_PCT : Fld := { page := 0x43, off := 0x090, lsb := 24, width := 8, reset := 0 }
def STP_HINTS_QUEUED : Fld := { page := 0x43, off := 0x094, lsb := 0, width := 13, reset := 0 }
def STP_HINTS_DROPPED : Fld := { page := 0x43, off := 0x094, lsb := 16, width := 16, reset := 0 }
def STP_COMPLETE_S : Fld := { page := 0x43, off := 0x098, lsb := 0, width := 32, reset := 0 }
def STP_CHAIN_LOGS : Fld := { page := 0x43, off := 0x09C, lsb := 0, width := 4, reset := 0 }
def STP_CHAIN_PREFOLD_S : Fld := { page := 0x43, off := 0x09C, lsb := 16, width := 16, reset := 0 }

/-! ### `PQE` (Table 10-8) -/

def PQE_CFG_WIN (i : Nat) : Fld := { page := 0x80, off := 0x040, lsb := 0, width := 3, reset := 0, idx := (i % 2) }
def PQE_SPLIT : Fld := { page := 0x80, off := 0x044, lsb := 0, width := 19, reset := 0x20000 }
def PQE_WRR (n : Nat) : Fld := { page := 0x80, off := 0x048 + 4 * ((n % 8) / 4), lsb := 8 * ((n % 8) % 4), width := 8, reset := [32, 16, 8, 8, 4, 2, 1, 1].getD (n % 8) 0 }
def PQE_COAL_COUNT : Fld := { page := 0x80, off := 0x050, lsb := 0, width := 8, reset := 1 }
def PQE_COAL_US : Fld := { page := 0x80, off := 0x050, lsb := 8, width := 16, reset := 0 }
def PQE_QUEUES : Fld := { page := 0x80, off := 0x054, lsb := 0, width := 19, reset := 0 }
def PQE_CACHE : Fld := { page := 0x80, off := 0x058, lsb := 0, width := 13, reset := 0 }
def PQE_MISSES : Fld := { page := 0x80, off := 0x05C, lsb := 0, width := 32, reset := 0 }
def PQE_CMDS : Fld := { page := 0x80, off := 0x060, lsb := 0, width := 48, reset := 0 }
def PQE_ERRORS : Fld := { page := 0x80, off := 0x068, lsb := 0, width := 32, reset := 0 }
def PQE_FENCE_LAT_MEAN_US : Fld := { page := 0x80, off := 0x06C, lsb := 0, width := 16, reset := 0 }
def PQE_FENCE_LAT_MAX_MS : Fld := { page := 0x80, off := 0x06C, lsb := 16, width := 16, reset := 0 }
def PQE_INTERRUPTED : Fld := { page := 0x80, off := 0x070, lsb := 0, width := 19, reset := 0 }
def PQE_FAULTED_LAST_Q : Fld := { page := 0x80, off := 0x074, lsb := 0, width := 19, reset := 0 }
def PQE_FAULTED_COUNT : Fld := { page := 0x80, off := 0x074, lsb := 24, width := 8, reset := 0 }
def PQE_CQ_STALLS : Fld := { page := 0x80, off := 0x078, lsb := 0, width := 32, reset := 0 }
def PQE_CONTENDED : Fld := { page := 0x80, off := 0x07C, lsb := 0, width := 32, reset := 0 }

/-! ### `DFS` (Table 11-12) -/

def DFS_CTRL_WAKE_EN : Fld := { page := 0x90, off := 0x040, lsb := 0, width := 1, reset := 0 }
def DFS_CTRL_FNN_MODE : Fld := { page := 0x90, off := 0x040, lsb := 1, width := 1, reset := 0 }
def DFS_FNN_REQ : Fld := { page := 0x90, off := 0x044, lsb := 0, width := 13, reset := 0 }
def DFS_FNN_STAT_FNN : Fld := { page := 0x90, off := 0x048, lsb := 0, width := 13, reset := 0x1fff }
def DFS_FNN_STAT_CLAIM : Fld := { page := 0x90, off := 0x048, lsb := 13, width := 2, reset := 0 }
def DFS_FNN_STAT_REMEMBERED : Fld := { page := 0x90, off := 0x048, lsb := 15, width := 1, reset := 0 }
def DFS_FNN_STAT_CONFLICTS : Fld := { page := 0x90, off := 0x048, lsb := 16, width := 16, reset := 0 }
def DFS_GROUP : Fld := { page := 0x90, off := 0x04C, lsb := 0, width := 16, reset := 0 }
def DFS_ALARM_MIN_SEV : Fld := { page := 0x90, off := 0x050, lsb := 0, width := 2, reset := 2 }
def DFS_ALARM_CODE_S : Fld := { page := 0x90, off := 0x050, lsb := 8, width := 8, reset := 10 }
def DFS_ALARM_PERIOD_S : Fld := { page := 0x90, off := 0x050, lsb := 16, width := 16, reset := 60 }
def DFS_COLL (n : Nat) : Fld := { page := 0x90, off := 0x058 + 8 * (n % 4), lsb := 0, width := 64, reset := 0 }
def DFS_COLL_STAT : Fld := { page := 0x90, off := 0x078, lsb := 0, width := 4, reset := 0 }
def DFS_COLL_DROP (n : Nat) : Fld := { page := 0x90, off := 0x080 + 4 * (n % 4), lsb := 0, width := 32, reset := 0 }
def DFS_NODES_REACHABLE : Fld := { page := 0x90, off := 0x090, lsb := 0, width := 13, reset := 0 }
def DFS_NODES_KNOWN : Fld := { page := 0x90, off := 0x090, lsb := 16, width := 13, reset := 0 }
def DFS_ROUTE_INSTALLS : Fld := { page := 0x90, off := 0x094, lsb := 0, width := 16, reset := 0 }
def DFS_ROUTE_CONV_MS : Fld := { page := 0x90, off := 0x094, lsb := 16, width := 16, reset := 0 }
def DFS_OWN_SEQ : Fld := { page := 0x90, off := 0x098, lsb := 0, width := 32, reset := 0 }
def DFS_ROUTE_SEL : Fld := { page := 0x90, off := 0x09C, lsb := 0, width := 13, reset := 0 }
def DFS_ROUTE_E_PORTS (i : Nat) : Fld := { page := 0x90, off := 0x0A0, lsb := 0, width := 4, reset := 0, idx := (i % 4096) }
def DFS_ROUTE_E_HOPS (i : Nat) : Fld := { page := 0x90, off := 0x0A0, lsb := 4, width := 7, reset := 0, idx := (i % 4096) }
def DFS_ROUTE_E_VALID (i : Nat) : Fld := { page := 0x90, off := 0x0A0, lsb := 15, width := 1, reset := 0, idx := (i % 4096) }
def DFS_ROUTE_E_COST (i : Nat) : Fld := { page := 0x90, off := 0x0A0, lsb := 16, width := 16, reset := 0, idx := (i % 4096) }
def DFS_KILN_MSG_SENT : Fld := { page := 0x90, off := 0x0A4, lsb := 0, width := 16, reset := 0 }
def DFS_KILN_MSG_RECEIVED : Fld := { page := 0x90, off := 0x0A4, lsb := 16, width := 16, reset := 0 }
def DFS_WAKE_ACCEPTED : Fld := { page := 0x90, off := 0x0A8, lsb := 0, width := 16, reset := 0 }
def DFS_WAKE_IGNORED : Fld := { page := 0x90, off := 0x0A8, lsb := 16, width := 16, reset := 0 }
def DFS_SUMMARIES : Fld := { page := 0x90, off := 0x0AC, lsb := 0, width := 32, reset := 0 }
def DFS_BAD_TYPE : Fld := { page := 0x90, off := 0x0B0, lsb := 0, width := 32, reset := 0 }

/-! ### `DLP` (Table 11-14) -/

def DLP_CTRL_HR_EN (u : Nat) : Fld := { page := (0x91 + (u % 4)), off := 0x040, lsb := 0, width := 1, reset := 1 }
def DLP_CTRL_PH_TX (u : Nat) : Fld := { page := (0x91 + (u % 4)), off := 0x040, lsb := 1, width := 1, reset := 0 }
def DLP_CTRL_SPARE_EN (u : Nat) : Fld := { page := (0x91 + (u % 4)), off := 0x040, lsb := 2, width := 1, reset := 1 }
def DLP_CTRL_COST_ADD (u : Nat) : Fld := { page := (0x91 + (u % 4)), off := 0x040, lsb := 8, width := 8, reset := 0 }
def DLP_STAT_STATE (u : Nat) : Fld := { page := (0x91 + (u % 4)), off := 0x044, lsb := 0, width := 3, reset := 1 }
def DLP_STAT_LANES (u : Nat) : Fld := { page := (0x91 + (u % 4)), off := 0x044, lsb := 3, width := 3, reset := 0 }
def DLP_STAT_SPARE_USED (u : Nat) : Fld := { page := (0x91 + (u % 4)), off := 0x044, lsb := 6, width := 1, reset := 0 }
def DLP_STAT_FAILED_LANE (u : Nat) : Fld := { page := (0x91 + (u % 4)), off := 0x044, lsb := 7, width := 3, reset := 7 }
def DLP_STAT_PH_IN (u : Nat) : Fld := { page := (0x91 + (u % 4)), off := 0x044, lsb := 10, width := 1, reset := 0 }
def DLP_STAT_PH_OUT (u : Nat) : Fld := { page := (0x91 + (u % 4)), off := 0x044, lsb := 11, width := 1, reset := 0 }
def DLP_STAT_RETRAINS (u : Nat) : Fld := { page := (0x91 + (u % 4)), off := 0x044, lsb := 16, width := 16, reset := 0 }
def DLP_NBR (u : Nat) : Fld := { page := (0x91 + (u % 4)), off := 0x048, lsb := 0, width := 64, reset := 0 }
def DLP_NBR_FNN (u : Nat) : Fld := { page := (0x91 + (u % 4)), off := 0x050, lsb := 0, width := 13, reset := 0x1fff }
def DLP_NBR_PORT (u : Nat) : Fld := { page := (0x91 + (u % 4)), off := 0x050, lsb := 13, width := 2, reset := 0 }
def DLP_NBR_PSTATE (u : Nat) : Fld := { page := (0x91 + (u % 4)), off := 0x050, lsb := 16, width := 3, reset := 0 }
def DLP_COST (u : Nat) : Fld := { page := (0x91 + (u % 4)), off := 0x054, lsb := 0, width := 16, reset := 0 }
def DLP_RETRIES (u : Nat) : Fld := { page := (0x91 + (u % 4)), off := 0x058, lsb := 0, width := 32, reset := 0 }
def DLP_CRC_ERR (u : Nat) : Fld := { page := (0x91 + (u % 4)), off := 0x05C, lsb := 0, width := 32, reset := 0 }
def DLP_LANE_ERR (u n : Nat) : Fld := { page := (0x91 + (u % 4)), off := 0x060, lsb := 4 * (n % 5), width := 4, reset := 0 }
def DLP_DROP_LINK (u : Nat) : Fld := { page := (0x91 + (u % 4)), off := 0x064, lsb := 0, width := 16, reset := 0 }
def DLP_DROP_ALARM (u : Nat) : Fld := { page := (0x91 + (u % 4)), off := 0x064, lsb := 16, width := 16, reset := 0 }
def DLP_DROP2_HOPS (u : Nat) : Fld := { page := (0x91 + (u % 4)), off := 0x068, lsb := 0, width := 16, reset := 0 }
def DLP_DROP2_NO_ROUTE (u : Nat) : Fld := { page := (0x91 + (u % 4)), off := 0x068, lsb := 16, width := 16, reset := 0 }
def DLP_HELLO (u : Nat) : Fld := { page := (0x91 + (u % 4)), off := 0x06C, lsb := 0, width := 16, reset := 0 }

/-! ### `RCK` (Table 12-8) -/

def RCK_CTRL_HOLD_MS : Fld := { page := 0x95, off := 0x040, lsb := 0, width := 8, reset := 20 }
def RCK_CTRL_GUEST_ACCEPT : Fld := { page := 0x95, off := 0x040, lsb := 8, width := 1, reset := 0 }
def RCK_CTRL_ACK_TIMEOUT_MS : Fld := { page := 0x95, off := 0x040, lsb := 16, width := 8, reset := 100 }
def RCK_TGT0 : Fld := { page := 0x95, off := 0x044, lsb := 0, width := 64, reset := 0 }
def RCK_TGT1 : Fld := { page := 0x95, off := 0x04C, lsb := 0, width := 64, reset := 0 }
def RCK_TGT_RATE_MAX_MBPS0 : Fld := { page := 0x95, off := 0x054, lsb := 0, width := 16, reset := 0x1f40 }
def RCK_TGT_RATE_MAX_MBPS1 : Fld := { page := 0x95, off := 0x054, lsb := 16, width := 16, reset := 0x1f40 }
def RCK_RANGE_SEL : Fld := { page := 0x95, off := 0x058, lsb := 0, width := 6, reset := 0 }
def RCK_RANGE_BASE (i : Nat) : Fld := { page := 0x95, off := 0x05C, lsb := 0, width := 24, reset := 0, idx := (i % 64) }
def RCK_RANGE_SIZE (i : Nat) : Fld := { page := 0x95, off := 0x060, lsb := 0, width := 25, reset := 0, idx := (i % 64) }
def RCK_RANGE_TGT (i : Nat) : Fld := { page := 0x95, off := 0x064, lsb := 0, width := 2, reset := 0, idx := (i % 64) }
def RCK_TGT_STAT_STATE (n : Nat) : Fld := { page := 0x95, off := 0x068 + 4 * (n % 2), lsb := 0, width := 3, reset := 0 }
def RCK_TGT_STAT_REPLY (n : Nat) : Fld := { page := 0x95, off := 0x068 + 4 * (n % 2), lsb := 8, width := 8, reset := 0 }
def RCK_TGT_STAT_INFLIGHT (n : Nat) : Fld := { page := 0x95, off := 0x068 + 4 * (n % 2), lsb := 16, width := 7, reset := 0 }
def RCK_GEN (n : Nat) : Fld := { page := 0x95, off := 0x070 + 4 * (n % 2), lsb := 0, width := 32, reset := 0 }
def RCK_OWED (n : Nat) : Fld := { page := 0x95, off := 0x078 + 4 * (n % 2), lsb := 0, width := 25, reset := 0 }
def RCK_ACKED (n : Nat) : Fld := { page := 0x95, off := 0x080 + 4 * (n % 2), lsb := 0, width := 32, reset := 0 }
def RCK_RESENT (n : Nat) : Fld := { page := 0x95, off := 0x088 + 4 * (n % 2), lsb := 0, width := 32, reset := 0 }
def RCK_RATE_MBPS0 : Fld := { page := 0x95, off := 0x090, lsb := 0, width := 16, reset := 0 }
def RCK_RATE_MBPS1 : Fld := { page := 0x95, off := 0x090, lsb := 16, width := 16, reset := 0 }
def RCK_GUEST_CTRL_GUEST_MBPS : Fld := { page := 0x95, off := 0x094, lsb := 0, width := 16, reset := 0x2710 }
def RCK_GUEST_CTRL_GUEST_ORPHAN_H : Fld := { page := 0x95, off := 0x094, lsb := 16, width := 16, reset := 72 }
def RCK_GUEST_SEL : Fld := { page := 0x95, off := 0x098, lsb := 0, width := 5, reset := 0 }
def RCK_GUEST_OWN (i : Nat) : Fld := { page := 0x95, off := 0x09C, lsb := 0, width := 64, reset := 0, idx := (i % 32) }
def RCK_GUEST_STAT_STATE (i : Nat) : Fld := { page := 0x95, off := 0x0A4, lsb := 0, width := 2, reset := 0, idx := (i % 32) }
def RCK_GUEST_STAT_OWNER_REACH (i : Nat) : Fld := { page := 0x95, off := 0x0A4, lsb := 2, width := 1, reset := 0, idx := (i % 32) }
def RCK_GUEST_STAT_UNREACH_H (i : Nat) : Fld := { page := 0x95, off := 0x0A4, lsb := 16, width := 16, reset := 0, idx := (i % 32) }
def RCK_GUEST_GEN (i : Nat) : Fld := { page := 0x95, off := 0x0A8, lsb := 0, width := 32, reset := 0, idx := (i % 32) }
def RCK_GUEST_SIZE (i : Nat) : Fld := { page := 0x95, off := 0x0AC, lsb := 0, width := 25, reset := 0, idx := (i % 32) }
def RCK_GUEST_HELD (i : Nat) : Fld := { page := 0x95, off := 0x0B0, lsb := 0, width := 25, reset := 0, idx := (i % 32) }
def RCK_GUEST_LOST (i : Nat) : Fld := { page := 0x95, off := 0x0B4, lsb := 0, width := 25, reset := 0, idx := (i % 32) }
def RCK_GUEST_CMD : Fld := { page := 0x95, off := 0x0B8, lsb := 0, width := 1, reset := 0 }
def RCK_GUEST_VOLS : Fld := { page := 0x95, off := 0x0BC, lsb := 0, width := 6, reset := 0 }
def RCK_GUEST_DROPS : Fld := { page := 0x95, off := 0x0C0, lsb := 0, width := 32, reset := 0 }
def RCK_EXPORT_ACTIVE : Fld := { page := 0x95, off := 0x0C4, lsb := 0, width := 1, reset := 0 }
def RCK_EXPORT_PCT : Fld := { page := 0x95, off := 0x0C4, lsb := 24, width := 8, reset := 0 }

/-! ### `GAU` (Table 13-7) -/

def GAU_CTRL_FLOOR_PCT : Fld := { page := 0xA8, off := 0x040, lsb := 0, width := 6, reset := 15 }
def GAU_CTRL_REST_PERMIT : Fld := { page := 0xA8, off := 0x040, lsb := 8, width := 1, reset := 0 }
def GAU_CTRL_RELEARN : Fld := { page := 0xA8, off := 0x040, lsb := 9, width := 1, reset := 0 }
def GAU_CTRL_REST_MIN : Fld := { page := 0xA8, off := 0x040, lsb := 16, width := 8, reset := 30 }
def GAU_CTRL_REPLACE_PCT : Fld := { page := 0xA8, off := 0x040, lsb := 24, width := 8, reset := 70 }
def GAU_E : Fld := { page := 0xA8, off := 0x044, lsb := 0, width := 24, reset := 0 }
def GAU_SOC : Fld := { page := 0xA8, off := 0x048, lsb := 0, width := 14, reset := 0 }
def GAU_UNC : Fld := { page := 0xA8, off := 0x04C, lsb := 0, width := 24, reset := 0 }
def GAU_REST_HOURS : Fld := { page := 0xA8, off := 0x050, lsb := 0, width := 16, reset := 0 }
def GAU_REST_WINDOW : Fld := { page := 0xA8, off := 0x050, lsb := 16, width := 1, reset := 0 }
def GAU_DISAGREE_CT : Fld := { page := 0xA8, off := 0x054, lsb := 0, width := 24, reset := 0 }
def GAU_DISAGREE_ACTIVE : Fld := { page := 0xA8, off := 0x054, lsb := 31, width := 1, reset := 0 }
def GAU_RELEARNS : Fld := { page := 0xA8, off := 0x058, lsb := 0, width := 16, reset := 0 }

/-! ### `PKA and PKB` (Table 13-9) -/

def PK_CFG_CHEM (u : Nat) : Fld := { page := (0xA9 + (u % 2)), off := 0x040, lsb := 0, width := 2, reset := 0 }
def PK_CFG_CELLS4 (u : Nat) : Fld := { page := (0xA9 + (u % 2)), off := 0x040, lsb := 2, width := 1, reset := 1 }
def PK_CFG_RATED_MAH (u : Nat) : Fld := { page := (0xA9 + (u % 2)), off := 0x040, lsb := 16, width := 16, reset := 0 }
def PK_SHUNT_UOHM (u : Nat) : Fld := { page := (0xA9 + (u % 2)), off := 0x044, lsb := 0, width := 16, reset := 0 }
def PK_SHUNT_EFF_PERMILLE (u : Nat) : Fld := { page := (0xA9 + (u % 2)), off := 0x044, lsb := 16, width := 10, reset := 998 }
def PK_CHG_CTRL_CHG_EN (u : Nat) : Fld := { page := (0xA9 + (u % 2)), off := 0x048, lsb := 0, width := 1, reset := 1 }
def PK_CHG_CTRL_TARGET_PCT (u : Nat) : Fld := { page := (0xA9 + (u % 2)), off := 0x048, lsb := 8, width := 7, reset := 97 }
def PK_CHG_CTRL_ISET_MA (u : Nat) : Fld := { page := (0xA9 + (u % 2)), off := 0x048, lsb := 16, width := 16, reset := 2500 }
def PK_TRIM_TRIM_I (u : Nat) : Fld := { page := (0xA9 + (u % 2)), off := 0x04C, lsb := 0, width := 4, reset := 15 }
def PK_TRIM_TRIM_V (u : Nat) : Fld := { page := (0xA9 + (u % 2)), off := 0x04C, lsb := 4, width := 4, reset := 14 }
def PK_TRIM_IFS_MA (u : Nat) : Fld := { page := (0xA9 + (u % 2)), off := 0x04C, lsb := 16, width := 16, reset := 0x2710 }
def PK_TRIM2_VFS_MV (u : Nat) : Fld := { page := (0xA9 + (u % 2)), off := 0x050, lsb := 0, width := 16, reset := 0x4650 }
def PK_TRIM2_VSET_MV (u : Nat) : Fld := { page := (0xA9 + (u % 2)), off := 0x050, lsb := 16, width := 16, reset := 0 }
def PK_AUTH_OVERRIDE (u : Nat) : Fld := { page := (0xA9 + (u % 2)), off := 0x054, lsb := 0, width := 1, reset := 0 }
def PK_AUTH_RUN (u : Nat) : Fld := { page := (0xA9 + (u % 2)), off := 0x054, lsb := 1, width := 1, reset := 0 }
def PK_AUTH_STATE (u : Nat) : Fld := { page := (0xA9 + (u % 2)), off := 0x054, lsb := 2, width := 2, reset := 0 }
def PK_AUTH_FAILS (u : Nat) : Fld := { page := (0xA9 + (u % 2)), off := 0x054, lsb := 8, width := 8, reset := 0 }
def PK_SERIAL (u : Nat) : Fld := { page := (0xA9 + (u % 2)), off := 0x058, lsb := 0, width := 64, reset := 0 }
def PK_STAT_STATE (u : Nat) : Fld := { page := (0xA9 + (u % 2)), off := 0x060, lsb := 0, width := 3, reset := 0 }
def PK_STAT_UNCOUNT (u : Nat) : Fld := { page := (0xA9 + (u % 2)), off := 0x060, lsb := 8, width := 5, reset := 0 }
def PK_STAT_CHARGING (u : Nat) : Fld := { page := (0xA9 + (u % 2)), off := 0x060, lsb := 16, width := 1, reset := 0 }
def PK_STAT_AT_REST (u : Nat) : Fld := { page := (0xA9 + (u % 2)), off := 0x060, lsb := 17, width := 1, reset := 0 }
def PK_STAT_REPLACE (u : Nat) : Fld := { page := (0xA9 + (u % 2)), off := 0x060, lsb := 18, width := 1, reset := 0 }
def PK_Q_CC (u : Nat) : Fld := { page := (0xA9 + (u % 2)), off := 0x064, lsb := 0, width := 24, reset := 0 }
def PK_Q_VHI (u : Nat) : Fld := { page := (0xA9 + (u % 2)), off := 0x068, lsb := 0, width := 24, reset := 0 }
def PK_CAP (u : Nat) : Fld := { page := (0xA9 + (u % 2)), off := 0x06C, lsb := 0, width := 24, reset := 0 }
def PK_UNC (u : Nat) : Fld := { page := (0xA9 + (u % 2)), off := 0x070, lsb := 0, width := 24, reset := 0 }
def PK_E_CT (u : Nat) : Fld := { page := (0xA9 + (u % 2)), off := 0x074, lsb := 0, width := 24, reset := 0 }
def PK_E_K_T (u : Nat) : Fld := { page := (0xA9 + (u % 2)), off := 0x074, lsb := 24, width := 7, reset := 0 }
def PK_SOC_RAW (u : Nat) : Fld := { page := (0xA9 + (u % 2)), off := 0x078, lsb := 0, width := 14, reset := 0 }
def PK_SOC_REPORTED (u : Nat) : Fld := { page := (0xA9 + (u % 2)), off := 0x078, lsb := 16, width := 14, reset := 0 }
def PK_VOLT_PACK_MV (u : Nat) : Fld := { page := (0xA9 + (u % 2)), off := 0x07C, lsb := 0, width := 16, reset := 0 }
def PK_VOLT_IMBAL_MV (u : Nat) : Fld := { page := (0xA9 + (u % 2)), off := 0x07C, lsb := 16, width := 16, reset := 0 }
def PK_CELL (u n : Nat) : Fld := { page := (0xA9 + (u % 2)), off := 0x080 + 4 * (n % 4), lsb := 0, width := 16, reset := 0 }
def PK_CURRENT (u : Nat) : Fld := { page := (0xA9 + (u % 2)), off := 0x090, lsb := 0, width := 32, reset := 0 }
def PK_TEMP_NTC0 (u : Nat) : Fld := { page := (0xA9 + (u % 2)), off := 0x094, lsb := 0, width := 8, reset := 0 }
def PK_TEMP_NTC1 (u : Nat) : Fld := { page := (0xA9 + (u % 2)), off := 0x094, lsb := 8, width := 8, reset := 0 }
def PK_RES_MOHM10 (u : Nat) : Fld := { page := (0xA9 + (u % 2)), off := 0x098, lsb := 0, width := 16, reset := 0 }
def PK_RES_BASE (u : Nat) : Fld := { page := (0xA9 + (u % 2)), off := 0x098, lsb := 16, width := 16, reset := 0 }
def PK_TESTS_PULSES (u : Nat) : Fld := { page := (0xA9 + (u % 2)), off := 0x09C, lsb := 0, width := 16, reset := 0 }
def PK_TESTS_SW_US (u : Nat) : Fld := { page := (0xA9 + (u % 2)), off := 0x09C, lsb := 16, width := 8, reset := 0 }
def PK_TESTS_SW_OK (u : Nat) : Fld := { page := (0xA9 + (u % 2)), off := 0x09C, lsb := 24, width := 1, reset := 0 }
def PK_TEST_DISCHARGE (u : Nat) : Fld := { page := (0xA9 + (u % 2)), off := 0x0A0, lsb := 0, width := 1, reset := 0 }
def PK_TEST_SOLO (u : Nat) : Fld := { page := (0xA9 + (u % 2)), off := 0x0A0, lsb := 1, width := 1, reset := 0 }
def PK_TEST_TO_PCT (u : Nat) : Fld := { page := (0xA9 + (u % 2)), off := 0x0A0, lsb := 8, width := 7, reset := 20 }
def PK_LEARN_COUNT (u : Nat) : Fld := { page := (0xA9 + (u % 2)), off := 0x0A4, lsb := 0, width := 16, reset := 0 }
def PK_LEARN_CAP_PERMILLE (u : Nat) : Fld := { page := (0xA9 + (u % 2)), off := 0x0A4, lsb := 16, width := 16, reset := 0 }

/-! ### `SQP` (Table 14-11) -/

def SQP_ADDR : Fld := { page := 0xA1, off := 0x040, lsb := 0, width := 10, reset := 0 }
def SQP_DIR_START (n : Nat) : Fld := { page := 0xA1, off := 0x048 + 8 * (n % 8), lsb := 0, width := 10, reset := 0 }
def SQP_DIR_LENGTH (n : Nat) : Fld := { page := 0xA1, off := 0x048 + 8 * (n % 8), lsb := 16, width := 11, reset := 0 }
def SQP_CRC (n : Nat) : Fld := { page := 0xA1, off := 0x04C + 8 * (n % 8), lsb := 0, width := 32, reset := 0 }
def SQP_STAT_VALID : Fld := { page := 0xA1, off := 0x088, lsb := 0, width := 8, reset := 0 }
def SQP_STAT_CHECK_FAIL : Fld := { page := 0xA1, off := 0x088, lsb := 8, width := 8, reset := 0 }
def SQP_STAT_SRC : Fld := { page := 0xA1, off := 0x088, lsb := 16, width := 2, reset := 0 }
def SQP_STAT_COMMITS : Fld := { page := 0xA1, off := 0x088, lsb := 24, width := 8, reset := 0 }

/-! ### `SEQ` (Table 14-13) -/

def SEQ_CTRL_SYNC_EN : Fld := { page := 0xA0, off := 0x040, lsb := 0, width := 1, reset := 0 }
def SEQ_CTRL_DOWN_GAP_US : Fld := { page := 0xA0, off := 0x040, lsb := 8, width := 12, reset := 1000 }
def SEQ_COLLAPSE_MV : Fld := { page := 0xA0, off := 0x044, lsb := 0, width := 14, reset := 0x1f40 }
def SEQ_COLLAPSE_COUNT : Fld := { page := 0xA0, off := 0x044, lsb := 16, width := 16, reset := 0 }
def SEQ_STAT_PROG : Fld := { page := 0xA0, off := 0x048, lsb := 0, width := 3, reset := 0 }
def SEQ_STAT_ACTIVE : Fld := { page := 0xA0, off := 0x048, lsb := 3, width := 1, reset := 0 }
def SEQ_STAT_STEP : Fld := { page := 0xA0, off := 0x048, lsb := 4, width := 10, reset := 0 }
def SEQ_STAT_CHECK_FAILED : Fld := { page := 0xA0, off := 0x048, lsb := 14, width := 1, reset := 0 }
def SEQ_STAT_PENDING : Fld := { page := 0xA0, off := 0x048, lsb := 16, width := 8, reset := 0 }
def SEQ_STAT_SYNC_WAIT : Fld := { page := 0xA0, off := 0x048, lsb := 24, width := 1, reset := 0 }
def SEQ_STAT_SYNC_SOLO : Fld := { page := 0xA0, off := 0x048, lsb := 25, width := 1, reset := 0 }
def SEQ_STAT_RC_CLOCK : Fld := { page := 0xA0, off := 0x048, lsb := 26, width := 1, reset := 0 }
def SEQ_SYNC_TIMEOUT_MS : Fld := { page := 0xA0, off := 0x04C, lsb := 0, width := 16, reset := 0x1388 }
def SEQ_SYNC_STATE : Fld := { page := 0xA0, off := 0x04C, lsb := 16, width := 8, reset := 0 }
def SEQ_SYNC_TIMEOUTS : Fld := { page := 0xA0, off := 0x04C, lsb := 24, width := 8, reset := 0 }
def SEQ_EN : Fld := { page := 0xA0, off := 0x050, lsb := 0, width := 48, reset := 0 }
def SEQ_KILN_EN : Fld := { page := 0xA0, off := 0x058, lsb := 0, width := 48, reset := 0 }
def SEQ_RAIL_SEL : Fld := { page := 0xA0, off := 0x060, lsb := 0, width := 5, reset := 0 }
def SEQ_RAIL_CFG_USED (i : Nat) : Fld := { page := 0xA0, off := 0x064, lsb := 0, width := 1, reset := 0, idx := (i % 32) }
def SEQ_RAIL_CFG_KILN (i : Nat) : Fld := { page := 0xA0, off := 0x064, lsb := 1, width := 1, reset := 0, idx := (i % 32) }
def SEQ_RAIL_CFG_OV_CUT (i : Nat) : Fld := { page := 0xA0, off := 0x064, lsb := 2, width := 1, reset := 1, idx := (i % 32) }
def SEQ_RAIL_CFG_EN (i : Nat) : Fld := { page := 0xA0, off := 0x064, lsb := 3, width := 6, reset := 63, idx := (i % 32) }
def SEQ_RAIL_CFG_TRIM (i : Nat) : Fld := { page := 0xA0, off := 0x064, lsb := 9, width := 4, reset := 0, idx := (i % 32) }
def SEQ_RAIL_CFG_TRIM_USED (i : Nat) : Fld := { page := 0xA0, off := 0x064, lsb := 13, width := 1, reset := 0, idx := (i % 32) }
def SEQ_RAIL_CFG_FILT (i : Nat) : Fld := { page := 0xA0, off := 0x064, lsb := 16, width := 3, reset := 3, idx := (i % 32) }
def SEQ_RAIL_NOM (i : Nat) : Fld := { page := 0xA0, off := 0x068, lsb := 0, width := 16, reset := 0, idx := (i % 32) }
def SEQ_RAIL_UV_WARN_MV (i : Nat) : Fld := { page := 0xA0, off := 0x06C, lsb := 0, width := 16, reset := 0, idx := (i % 32) }
def SEQ_RAIL_UV_FAULT_MV (i : Nat) : Fld := { page := 0xA0, off := 0x06C, lsb := 16, width := 16, reset := 0, idx := (i % 32) }
def SEQ_RAIL_OV_WARN_MV (i : Nat) : Fld := { page := 0xA0, off := 0x070, lsb := 0, width := 16, reset := 0, idx := (i % 32) }
def SEQ_RAIL_OV_FAULT_MV (i : Nat) : Fld := { page := 0xA0, off := 0x070, lsb := 16, width := 16, reset := 0, idx := (i % 32) }
def SEQ_RAIL_TRIM_NOM_PM (i : Nat) : Fld := { page := 0xA0, off := 0x074, lsb := 0, width := 10, reset := 500, idx := (i % 32) }
def SEQ_RAIL_TRIM_GAIN (i : Nat) : Fld := { page := 0xA0, off := 0x074, lsb := 16, width := 10, reset := 0, idx := (i % 32) }
def SEQ_RAIL_MARGIN_PCT10 (i : Nat) : Fld := { page := 0xA0, off := 0x078, lsb := 0, width := 7, reset := 0, idx := (i % 32) }
def SEQ_RAIL_MARGIN_ACT10 (i : Nat) : Fld := { page := 0xA0, off := 0x078, lsb := 8, width := 8, reset := 0, idx := (i % 32) }
def SEQ_RAIL_MV_MV (i : Nat) : Fld := { page := 0xA0, off := 0x07C, lsb := 0, width := 16, reset := 0, idx := (i % 32) }
def SEQ_RAIL_MV_STATE (i : Nat) : Fld := { page := 0xA0, off := 0x07C, lsb := 16, width := 3, reset := 0, idx := (i % 32) }
def SEQ_RAIL_CNT_UV_WARN (i : Nat) : Fld := { page := 0xA0, off := 0x080, lsb := 0, width := 16, reset := 0, idx := (i % 32) }
def SEQ_RAIL_CNT_UV_FAULT (i : Nat) : Fld := { page := 0xA0, off := 0x080, lsb := 16, width := 16, reset := 0, idx := (i % 32) }
def SEQ_RAIL_CNT_OV_WARN (i : Nat) : Fld := { page := 0xA0, off := 0x084, lsb := 0, width := 16, reset := 0, idx := (i % 32) }
def SEQ_RAIL_CNT_OV_FAULT (i : Nat) : Fld := { page := 0xA0, off := 0x084, lsb := 16, width := 16, reset := 0, idx := (i % 32) }
def SEQ_RAIL_CNT_SEQ_UP_FAIL (i : Nat) : Fld := { page := 0xA0, off := 0x088, lsb := 0, width := 16, reset := 0, idx := (i % 32) }
def SEQ_RAIL_CNT_SEQ_DOWN_FAIL (i : Nat) : Fld := { page := 0xA0, off := 0x088, lsb := 16, width := 16, reset := 0, idx := (i % 32) }
def SEQ_CNT_CLEAR_RAIL : Fld := { page := 0xA0, off := 0x08C, lsb := 0, width := 1, reset := 0 }
def SEQ_CNT_CLEAR_ALL : Fld := { page := 0xA0, off := 0x08C, lsb := 1, width := 1, reset := 0 }
def SEQ_LAST_FAIL_RAIL : Fld := { page := 0xA0, off := 0x090, lsb := 0, width := 5, reset := 0 }
def SEQ_LAST_FAIL_KIND : Fld := { page := 0xA0, off := 0x090, lsb := 8, width := 3, reset := 0 }
def SEQ_MARGINS : Fld := { page := 0xA0, off := 0x094, lsb := 0, width := 32, reset := 0 }
def SEQ_MRN_LEVEL : Fld := { page := 0xA0, off := 0x098, lsb := 0, width := 1, reset := 1 }
def SEQ_MRN_SHORT : Fld := { page := 0xA0, off := 0x098, lsb := 8, width := 8, reset := 0 }
def SEQ_MRN_HOLD4 : Fld := { page := 0xA0, off := 0x098, lsb := 16, width := 8, reset := 0 }
def SEQ_MRN_HOLD12 : Fld := { page := 0xA0, off := 0x098, lsb := 24, width := 8, reset := 0 }
def SEQ_TRIM_OWNER : Fld := { page := 0xA0, off := 0x09C, lsb := 0, width := 16, reset := 0 }

/-! ### `PWR` (Table 15-9) -/

def PWR_PERMIT_P1 : Fld := { page := 0xD8, off := 0x040, lsb := 1, width := 1, reset := 1 }
def PWR_PERMIT_P2 : Fld := { page := 0xD8, off := 0x040, lsb := 2, width := 1, reset := 0 }
def PWR_TOL_TOL_A : Fld := { page := 0xD8, off := 0x044, lsb := 0, width := 8, reset := 0 }
def PWR_TOL_TOL_B : Fld := { page := 0xD8, off := 0x044, lsb := 8, width := 8, reset := 0 }
def PWR_DWELL_P1_US : Fld := { page := 0xD8, off := 0x048, lsb := 0, width := 16, reset := 100 }
def PWR_DWELL_P2_MS : Fld := { page := 0xD8, off := 0x048, lsb := 16, width := 16, reset := 1000 }
def PWR_STAT_STATE : Fld := { page := 0xD8, off := 0x04C, lsb := 0, width := 3, reset := 0 }
def PWR_STAT_TARGET : Fld := { page := 0xD8, off := 0x04C, lsb := 3, width := 3, reset := 0 }
def PWR_STAT_BLOCK : Fld := { page := 0xD8, off := 0x04C, lsb := 8, width := 8, reset := 0 }
def PWR_TOL_EFF : Fld := { page := 0xD8, off := 0x050, lsb := 0, width := 32, reset := 1 }
def PWR_ENTRIES_P1 : Fld := { page := 0xD8, off := 0x054, lsb := 0, width := 16, reset := 0 }
def PWR_ENTRIES_P2 : Fld := { page := 0xD8, off := 0x054, lsb := 16, width := 16, reset := 0 }
def PWR_RES_P1 : Fld := { page := 0xD8, off := 0x058, lsb := 0, width := 32, reset := 0 }
def PWR_RES_P2 : Fld := { page := 0xD8, off := 0x05C, lsb := 0, width := 32, reset := 0 }
def PWR_EXIT_P1_MAX_US : Fld := { page := 0xD8, off := 0x060, lsb := 0, width := 8, reset := 0 }
def PWR_EXIT_P2_MAX_US : Fld := { page := 0xD8, off := 0x060, lsb := 8, width := 16, reset := 0 }
def PWR_P3 : Fld := { page := 0xD8, off := 0x064, lsb := 0, width := 16, reset := 0 }
def PWR_START_KIND : Fld := { page := 0xD8, off := 0x068, lsb := 0, width := 2, reset := 0 }
def PWR_START_STEP : Fld := { page := 0xD8, off := 0x068, lsb := 4, width := 4, reset := 0 }
def PWR_START_CAUSE : Fld := { page := 0xD8, off := 0x068, lsb := 8, width := 3, reset := 0 }
def PWR_START_MS : Fld := { page := 0xD8, off := 0x068, lsb := 16, width := 16, reset := 0 }
def PWR_STEP_MS_ODD (n : Nat) : Fld := { page := 0xD8, off := 0x070 + 4 * (n % 6), lsb := 0, width := 16, reset := 0 }
def PWR_STEP_MS_EVEN (n : Nat) : Fld := { page := 0xD8, off := 0x070 + 4 * (n % 6), lsb := 16, width := 16, reset := 0 }

/-! ### `SNT` (Table 15-11) -/

def SNT_CTRL_FORCE_COLD : Fld := { page := 0xE0, off := 0x040, lsb := 0, width := 1, reset := 0 }
def SNT_CTRL_CLEAR_FAILS : Fld := { page := 0xE0, off := 0x040, lsb := 1, width := 1, reset := 0 }
def SNT_CTRL_CLEAR_RECOVERY : Fld := { page := 0xE0, off := 0x040, lsb := 2, width := 1, reset := 0 }
def SNT_CTX_VALID : Fld := { page := 0xE0, off := 0x044, lsb := 0, width := 1, reset := 0 }
def SNT_CTX_CRC_FAIL : Fld := { page := 0xE0, off := 0x044, lsb := 1, width := 1, reset := 0 }
def SNT_CTX_SUPPLY : Fld := { page := 0xE0, off := 0x044, lsb := 4, width := 3, reset := 0 }
def SNT_CTX_LAYOUT : Fld := { page := 0xE0, off := 0x044, lsb := 8, width := 8, reset := 0 }
def SNT_CTX_SUPPLY_CHANGES : Fld := { page := 0xE0, off := 0x044, lsb := 16, width := 16, reset := 0 }
def SNT_FAILS_WARM : Fld := { page := 0xE0, off := 0x048, lsb := 0, width := 2, reset := 0 }
def SNT_FAILS_COLD : Fld := { page := 0xE0, off := 0x048, lsb := 2, width := 2, reset := 0 }
def SNT_FAILS_RECOVERY : Fld := { page := 0xE0, off := 0x048, lsb := 4, width := 1, reset := 0 }
def SNT_FAILS_LAST_STEP : Fld := { page := 0xE0, off := 0x048, lsb := 8, width := 4, reset := 0 }
def SNT_FAILS_LAST_CAUSE : Fld := { page := 0xE0, off := 0x048, lsb := 16, width := 8, reset := 0 }
def SNT_FAILS_TOTAL : Fld := { page := 0xE0, off := 0x048, lsb := 24, width := 8, reset := 0 }
def SNT_RTC : Fld := { page := 0xE0, off := 0x04C, lsb := 0, width := 40, reset := 0 }
def SNT_UNPOW : Fld := { page := 0xE0, off := 0x054, lsb := 0, width := 32, reset := 0 }
def SNT_ISLAND_MV : Fld := { page := 0xE0, off := 0x058, lsb := 0, width := 12, reset := 0 }
def SNT_ISLAND_AUX_OK : Fld := { page := 0xE0, off := 0x058, lsb := 12, width := 1, reset := 0 }
def SNT_WAKE_EN_PERST : Fld := { page := 0xE0, off := 0x05C, lsb := 0, width := 1, reset := 1 }
def SNT_WAKE_EN_TIMER : Fld := { page := 0xE0, off := 0x05C, lsb := 1, width := 1, reset := 0 }
def SNT_WAKE_AT : Fld := { page := 0xE0, off := 0x060, lsb := 0, width := 32, reset := 0 }
def SNT_LAST_WAKE_SOURCE : Fld := { page := 0xE0, off := 0x064, lsb := 0, width := 3, reset := 0 }
def SNT_LAST_WAKE_IGNORED : Fld := { page := 0xE0, off := 0x064, lsb := 16, width := 16, reset := 0 }
def SNT_STARTS_WARM : Fld := { page := 0xE0, off := 0x068, lsb := 0, width := 16, reset := 0 }
def SNT_STARTS_COLD : Fld := { page := 0xE0, off := 0x068, lsb := 16, width := 16, reset := 0 }

/-! ### `SAF` (Table 16-9) -/

def SAF_CTRL_QUIET_S : Fld := { page := 0xC0, off := 0x040, lsb := 0, width := 12, reset := 10 }
def SAF_CTRL_HIST_REARM : Fld := { page := 0xC0, off := 0x040, lsb := 16, width := 1, reset := 0 }
def SAF_CTRL_ERRN_TEST : Fld := { page := 0xC0, off := 0x040, lsb := 17, width := 1, reset := 0 }
def SAF_CTRL_INJ_EN : Fld := { page := 0xC0, off := 0x040, lsb := 18, width := 1, reset := 1 }
def SAF_STAT_STATE : Fld := { page := 0xC0, off := 0x044, lsb := 0, width := 2, reset := 0 }
def SAF_STAT_DEPTH : Fld := { page := 0xC0, off := 0x044, lsb := 2, width := 3, reset := 0 }
def SAF_STAT_ROM_GUARD : Fld := { page := 0xC0, off := 0x044, lsb := 5, width := 1, reset := 0 }
def SAF_STAT_ERRN_DRIVE : Fld := { page := 0xC0, off := 0x044, lsb := 6, width := 1, reset := 0 }
def SAF_STAT_ERRN_PIN : Fld := { page := 0xC0, off := 0x044, lsb := 7, width := 1, reset := 1 }
def SAF_STAT_FIRST_VALID : Fld := { page := 0xC0, off := 0x044, lsb := 8, width := 1, reset := 0 }
def SAF_STAT_RUNNING : Fld := { page := 0xC0, off := 0x044, lsb := 16, width := 8, reset := 0 }
def SAF_STAT_ACTIVE : Fld := { page := 0xC0, off := 0x044, lsb := 24, width := 8, reset := 0 }
def SAF_QUIET_LEFT : Fld := { page := 0xC0, off := 0x048, lsb := 0, width := 12, reset := 0 }
def SAF_HIST_COUNT : Fld := { page := 0xC0, off := 0x060, lsb := 0, width := 5, reset := 0 }
def SAF_HIST_FROZEN : Fld := { page := 0xC0, off := 0x060, lsb := 5, width := 1, reset := 0 }
def SAF_HIST_LOST : Fld := { page := 0xC0, off := 0x060, lsb := 16, width := 16, reset := 0 }
def SAF_NEST_OVF : Fld := { page := 0xC0, off := 0x064, lsb := 0, width := 16, reset := 0 }
def SAF_NEST_PREEMPTS : Fld := { page := 0xC0, off := 0x064, lsb := 16, width := 16, reset := 0 }
def SAF_RECOVERIES : Fld := { page := 0xC0, off := 0x068, lsb := 0, width := 32, reset := 0 }
def SAF_KILN_ISSUED : Fld := { page := 0xC0, off := 0x06C, lsb := 0, width := 16, reset := 0 }
def SAF_KILN_SUPPRESSED : Fld := { page := 0xC0, off := 0x06C, lsb := 16, width := 16, reset := 0 }
def SAF_KILN_LAST : Fld := { page := 0xC0, off := 0x070, lsb := 0, width := 32, reset := 0 }
def SAF_RESTARTS_SAFETY : Fld := { page := 0xC0, off := 0x074, lsb := 0, width := 8, reset := 0 }
def SAF_RESTARTS_MGMT : Fld := { page := 0xC0, off := 0x074, lsb := 8, width := 8, reset := 0 }
def SAF_RESTARTS_CELLAR : Fld := { page := 0xC0, off := 0x074, lsb := 16, width := 8, reset := 0 }
def SAF_RESTARTS_FABRIC : Fld := { page := 0xC0, off := 0x074, lsb := 24, width := 8, reset := 0 }
def SAF_INJ_FAIL_SRC : Fld := { page := 0xC0, off := 0x078, lsb := 0, width := 8, reset := 0 }
def SAF_INJ_FAIL_INSTANCE : Fld := { page := 0xC0, off := 0x078, lsb := 8, width := 5, reset := 0 }
def SAF_ACTIVE (n : Nat) : Fld := { page := 0xC0, off := 0x080 + 4 * (n % 8), lsb := 0, width := 32, reset := 0 }
def SAF_INJ_SEEN (n : Nat) : Fld := { page := 0xC0, off := 0x0A0 + 4 * (n % 8), lsb := 0, width := 32, reset := 0 }
def SAF_PENDING (n : Nat) : Fld := { page := 0xC0, off := 0x0C0 + 4 * (n % 8), lsb := 0, width := 32, reset := 0 }

/-! ### `FRT` (Table 16-11) -/

def FRT_STAT_LOADED : Fld := { page := 0xC1, off := 0x040, lsb := 0, width := 1, reset := 0 }
def FRT_STAT_DEFAULTED : Fld := { page := 0xC1, off := 0x040, lsb := 1, width := 1, reset := 0 }
def FRT_STAT_CHANGES : Fld := { page := 0xC1, off := 0x040, lsb := 16, width := 16, reset := 0 }

/-! ### `TLG` (Table 17-5) -/

def TLG_CTRL_CLEAR : Fld := { page := 0xC8, off := 0x040, lsb := 0, width := 1, reset := 0 }
def TLG_CTRL_SRC : Fld := { page := 0xC8, off := 0x040, lsb := 1, width := 1, reset := 0 }
def TLG_CTRL_RATE : Fld := { page := 0xC8, off := 0x040, lsb := 8, width := 8, reset := 64 }
def TLG_HEAD : Fld := { page := 0xC8, off := 0x044, lsb := 0, width := 32, reset := 1 }
def TLG_OLDEST : Fld := { page := 0xC8, off := 0x048, lsb := 0, width := 32, reset := 0 }
def TLG_COUNT : Fld := { page := 0xC8, off := 0x04C, lsb := 0, width := 13, reset := 0 }
def TLG_CURSOR : Fld := { page := 0xC8, off := 0x050, lsb := 0, width := 32, reset := 0 }
def TLG_DROPPED : Fld := { page := 0xC8, off := 0x054, lsb := 0, width := 32, reset := 0 }
def TLG_CASK_BATCH : Fld := { page := 0xC8, off := 0x058, lsb := 0, width := 64, reset := 0 }

/-! ### `REC` (Table 17-7) -/

def REC_CTRL_CLEAR : Fld := { page := 0xC9, off := 0x040, lsb := 0, width := 1, reset := 0 }
def REC_CTRL_FLUSH : Fld := { page := 0xC9, off := 0x040, lsb := 1, width := 1, reset := 0 }
def REC_CTRL_RATE_DEF : Fld := { page := 0xC9, off := 0x040, lsb := 16, width := 16, reset := 100 }
def REC_STAT_FLUSHING : Fld := { page := 0xC9, off := 0x044, lsb := 0, width := 1, reset := 0 }
def REC_STAT_SRC : Fld := { page := 0xC9, off := 0x044, lsb := 1, width := 2, reset := 0 }
def REC_STAT_FLUSHES : Fld := { page := 0xC9, off := 0x044, lsb := 16, width := 16, reset := 0 }
def REC_USED_HIST : Fld := { page := 0xC9, off := 0x048, lsb := 0, width := 10, reset := 0 }
def REC_USED_EXT : Fld := { page := 0xC9, off := 0x048, lsb := 16, width := 9, reset := 0 }
def REC_UNREC : Fld := { page := 0xC9, off := 0x04C, lsb := 0, width := 32, reset := 0 }
def REC_LAST_FLUSH : Fld := { page := 0xC9, off := 0x050, lsb := 0, width := 40, reset := 0 }
def REC_FLUSH_SEQ : Fld := { page := 0xC9, off := 0x058, lsb := 0, width := 32, reset := 0 }
def REC_CURSOR_SLOT : Fld := { page := 0xC9, off := 0x05C, lsb := 0, width := 9, reset := 0 }
def REC_CURSOR_KIND : Fld := { page := 0xC9, off := 0x05C, lsb := 16, width := 1, reset := 0 }
def REC_SLOT_CODE_CODE : Fld := { page := 0xC9, off := 0x060, lsb := 0, width := 16, reset := 0 }
def REC_SLOT_CODE_VALID : Fld := { page := 0xC9, off := 0x060, lsb := 16, width := 1, reset := 0 }
def REC_SLOT_SEQ : Fld := { page := 0xC9, off := 0x064, lsb := 0, width := 32, reset := 0 }
def REC_SLOT_SUPP : Fld := { page := 0xC9, off := 0x068, lsb := 0, width := 32, reset := 0 }
def REC_SLOT_PEND : Fld := { page := 0xC9, off := 0x06C, lsb := 0, width := 16, reset := 0 }
def REC_SLOT_FIRST : Fld := { page := 0xC9, off := 0x070, lsb := 0, width := 32, reset := 0 }
def REC_SLOT_FIRST_PC : Fld := { page := 0xC9, off := 0x074, lsb := 0, width := 32, reset := 0 }

/-! ### `MON` (Table 18-5) -/

def MON_BUS_ISNS_INPUT : Fld := { page := 0xB8, off := 0x040, lsb := 0, width := 5, reset := 0 }
def MON_BUS_ISNS_EN : Fld := { page := 0xB8, off := 0x040, lsb := 5, width := 1, reset := 0 }
def MON_BUS_ISNS_MA_PER_MV : Fld := { page := 0xB8, off := 0x040, lsb := 16, width := 16, reset := 0 }
def MON_STAT_CAL_ACTIVE : Fld := { page := 0xB8, off := 0x044, lsb := 0, width := 1, reset := 0 }
def MON_STAT_CAL_ADC : Fld := { page := 0xB8, off := 0x044, lsb := 1, width := 2, reset := 0 }
def MON_STAT_STALE_ANY : Fld := { page := 0xB8, off := 0x044, lsb := 3, width := 1, reset := 0 }
def MON_TEMP_DIE_C : Fld := { page := 0xB8, off := 0x048, lsb := 0, width := 8, reset := 0 }
def MON_TEMP_MAX_C : Fld := { page := 0xB8, off := 0x048, lsb := 8, width := 8, reset := 0 }
def MON_TEMP_AT_CAL_C : Fld := { page := 0xB8, off := 0x048, lsb := 16, width := 8, reset := 0 }
def MON_MAIN_IN : Fld := { page := 0xB8, off := 0x04C, lsb := 0, width := 16, reset := 0 }
def MON_HOLDUP : Fld := { page := 0xB8, off := 0x050, lsb := 0, width := 16, reset := 0 }
def MON_HOLDUP_I : Fld := { page := 0xB8, off := 0x054, lsb := 0, width := 32, reset := 0 }
def MON_IN_SEL : Fld := { page := 0xB8, off := 0x058, lsb := 0, width := 6, reset := 0 }
def MON_IN_VAL_VALUE (i : Nat) : Fld := { page := 0xB8, off := 0x05C, lsb := 0, width := 16, reset := 0, idx := (i % 64) }
def MON_IN_VAL_RAW (i : Nat) : Fld := { page := 0xB8, off := 0x05C, lsb := 16, width := 16, reset := 0, idx := (i % 64) }
def MON_IN_STAT_ADC (i : Nat) : Fld := { page := 0xB8, off := 0x060, lsb := 0, width := 2, reset := 0, idx := (i % 64) }
def MON_IN_STAT_STALE (i : Nat) : Fld := { page := 0xB8, off := 0x060, lsb := 2, width := 1, reset := 0, idx := (i % 64) }
def MON_IN_STAT_SAT (i : Nat) : Fld := { page := 0xB8, off := 0x060, lsb := 3, width := 1, reset := 0, idx := (i % 64) }
def MON_CMP_SEL : Fld := { page := 0xB8, off := 0x064, lsb := 0, width := 2, reset := 0 }
def MON_CMP_STAT_ACTIVE (i : Nat) : Fld := { page := 0xB8, off := 0x068, lsb := 0, width := 2, reset := 0, idx := (i % 3) }
def MON_CMP_STAT_PASS (i : Nat) : Fld := { page := 0xB8, off := 0x068, lsb := 4, width := 4, reset := 0, idx := (i % 3) }
def MON_CMP_STAT_FAILED (i : Nat) : Fld := { page := 0xB8, off := 0x068, lsb := 8, width := 4, reset := 0, idx := (i % 3) }
def MON_CMP_STAT_TRIM (i : Nat) : Fld := { page := 0xB8, off := 0x068, lsb := 12, width := 1, reset := 0, idx := (i % 3) }
def MON_CMP_STAT_PARALLEL (i : Nat) : Fld := { page := 0xB8, off := 0x068, lsb := 13, width := 1, reset := 0, idx := (i % 3) }
def MON_CMP_STAT_DAC (i : Nat) : Fld := { page := 0xB8, off := 0x068, lsb := 16, width := 10, reset := 0, idx := (i % 3) }
def MON_CMP_OFS (n i : Nat) : Fld := { page := 0xB8, off := 0x06C + 4 * (n % 4), lsb := 0, width := 16, reset := 0x8000, idx := (i % 3) }
def MON_CMP_TESTS_PASSED : Fld := { page := 0xB8, off := 0x07C, lsb := 0, width := 16, reset := 0 }
def MON_CMP_TESTS_FAILED : Fld := { page := 0xB8, off := 0x07C, lsb := 16, width := 16, reset := 0 }
def MON_CMP_SWAPS : Fld := { page := 0xB8, off := 0x080, lsb := 0, width := 16, reset := 0 }

/-! ### `CAL` (Table 18-7) -/

def CAL_CTRL_TEMP_DELTA_C : Fld := { page := 0xB9, off := 0x040, lsb := 0, width := 4, reset := 8 }
def CAL_CTRL_RUN : Fld := { page := 0xB9, off := 0x040, lsb := 8, width := 1, reset := 0 }
def CAL_CTRL_VREF_EN : Fld := { page := 0xB9, off := 0x040, lsb := 9, width := 1, reset := 0 }
def CAL_CTRL_MODULE_CAL : Fld := { page := 0xB9, off := 0x040, lsb := 10, width := 1, reset := 0 }
def CAL_CTRL_VREF_H : Fld := { page := 0xB9, off := 0x040, lsb := 16, width := 8, reset := 24 }
def CAL_STAT_RUNNING : Fld := { page := 0xB9, off := 0x044, lsb := 0, width := 1, reset := 0 }
def CAL_STAT_VREF_OK : Fld := { page := 0xB9, off := 0x044, lsb := 3, width := 1, reset := 0 }
def CAL_STAT_SRC : Fld := { page := 0xB9, off := 0x044, lsb := 4, width := 2, reset := 0 }
def CAL_STAT_MODULE_REC : Fld := { page := 0xB9, off := 0x044, lsb := 6, width := 1, reset := 0 }
def CAL_STAT_LAST : Fld := { page := 0xB9, off := 0x044, lsb := 8, width := 3, reset := 0 }
def CAL_BG : Fld := { page := 0xB9, off := 0x048, lsb := 0, width := 24, reset := 0 }
def CAL_RUNS_DONE : Fld := { page := 0xB9, off := 0x04C, lsb := 0, width := 16, reset := 0 }
def CAL_RUNS_REJECTED : Fld := { page := 0xB9, off := 0x04C, lsb := 16, width := 16, reset := 0 }
def CAL_LAST_RUN : Fld := { page := 0xB9, off := 0x050, lsb := 0, width := 32, reset := 0 }
def CAL_GAIN (n : Nat) : Fld := { page := 0xB9, off := 0x054 + 8 * (n % 3), lsb := 0, width := 20, reset := 0 }
def CAL_OFS (n : Nat) : Fld := { page := 0xB9, off := 0x058 + 8 * (n % 3), lsb := 0, width := 16, reset := 0 }
def CAL_REJECT_ADC : Fld := { page := 0xB9, off := 0x06C, lsb := 0, width := 2, reset := 0 }
def CAL_REJECT_GAIN : Fld := { page := 0xB9, off := 0x06C, lsb := 2, width := 1, reset := 0 }
def CAL_REJECT_OFFSET : Fld := { page := 0xB9, off := 0x06C, lsb := 3, width := 1, reset := 0 }
def CAL_VREF_CHECK : Fld := { page := 0xB9, off := 0x070, lsb := 0, width := 24, reset := 0 }

/-! ### `CFL` (Table 19-13) -/

def CFL_KEY : Fld := { page := 0xD0, off := 0x040, lsb := 0, width := 16, reset := 0 }
def CFL_CMD : Fld := { page := 0xD0, off := 0x044, lsb := 0, width := 8, reset := 0 }
def CFL_ADDR : Fld := { page := 0xD0, off := 0x048, lsb := 0, width := 25, reset := 0 }
def CFL_DATA : Fld := { page := 0xD0, off := 0x04C, lsb := 0, width := 64, reset := 0 }
def CFL_STAT_BUSY0 : Fld := { page := 0xD0, off := 0x054, lsb := 0, width := 1, reset := 0 }
def CFL_STAT_BUSY1 : Fld := { page := 0xD0, off := 0x054, lsb := 1, width := 1, reset := 0 }
def CFL_STAT_SEQ_OPEN : Fld := { page := 0xD0, off := 0x054, lsb := 2, width := 1, reset := 0 }
def CFL_STAT_ERR : Fld := { page := 0xD0, off := 0x054, lsb := 8, width := 3, reset := 0 }
def CFL_ECC_CORRECTED : Fld := { page := 0xD0, off := 0x058, lsb := 0, width := 16, reset := 0 }
def CFL_ECC_UNCORR : Fld := { page := 0xD0, off := 0x058, lsb := 16, width := 16, reset := 0 }
def CFL_CRC_PASS : Fld := { page := 0xD0, off := 0x05C, lsb := 0, width := 16, reset := 0 }
def CFL_CRC_FAIL_BANK : Fld := { page := 0xD0, off := 0x060, lsb := 0, width := 1, reset := 0 }
def CFL_CRC_FAIL_SECTOR : Fld := { page := 0xD0, off := 0x060, lsb := 1, width := 12, reset := 0 }
def CFL_CRC_FAIL_COUNT : Fld := { page := 0xD0, off := 0x060, lsb := 16, width := 16, reset := 0 }
def CFL_JOURNAL : Fld := { page := 0xD0, off := 0x064, lsb := 0, width := 16, reset := 0 }
def CFL_ERASE_MAX : Fld := { page := 0xD0, off := 0x068, lsb := 0, width := 32, reset := 0 }

/-! ### `UPD` (Table 19-15) -/

def UPD_CTRL : Fld := { page := 0xD1, off := 0x040, lsb := 0, width := 11, reset := 15 }
def UPD_STAT_STATE : Fld := { page := 0xD1, off := 0x044, lsb := 0, width := 3, reset := 0 }
def UPD_STAT_LOCK : Fld := { page := 0xD1, off := 0x044, lsb := 4, width := 3, reset := 0 }
def UPD_STAT_STAGE_BANK : Fld := { page := 0xD1, off := 0x044, lsb := 7, width := 1, reset := 0 }
def UPD_STAT_RUN_BANK : Fld := { page := 0xD1, off := 0x044, lsb := 8, width := 1, reset := 0 }
def UPD_STAT_PROC : Fld := { page := 0xD1, off := 0x044, lsb := 9, width := 3, reset := 0 }
def UPD_STAT_REPAIR : Fld := { page := 0xD1, off := 0x044, lsb := 12, width := 1, reset := 0 }
def UPD_RECEIVED : Fld := { page := 0xD1, off := 0x048, lsb := 0, width := 24, reset := 0 }
def UPD_TOTAL : Fld := { page := 0xD1, off := 0x04C, lsb := 0, width := 24, reset := 0 }
def UPD_STAGED_VER : Fld := { page := 0xD1, off := 0x050, lsb := 0, width := 32, reset := 0 }
def UPD_CONFIRM_LEFT : Fld := { page := 0xD1, off := 0x054, lsb := 0, width := 17, reset := 0 }
def UPD_HANDOVER : Fld := { page := 0xD1, off := 0x058, lsb := 0, width := 8, reset := 0 }
def UPD_SVN_COUNTER : Fld := { page := 0xD1, off := 0x05C, lsb := 0, width := 16, reset := 0 }
def UPD_SVN_STAGED : Fld := { page := 0xD1, off := 0x05C, lsb := 16, width := 16, reset := 0 }
def UPD_BOOTREC_GEN : Fld := { page := 0xD1, off := 0x060, lsb := 0, width := 16, reset := 0 }
def UPD_BOOTREC_BANK : Fld := { page := 0xD1, off := 0x060, lsb := 16, width := 1, reset := 0 }
def UPD_BOOTREC_TRIAL : Fld := { page := 0xD1, off := 0x060, lsb := 17, width := 1, reset := 0 }
def UPD_COUNTS_CONFIRMED : Fld := { page := 0xD1, off := 0x064, lsb := 0, width := 16, reset := 0 }
def UPD_COUNTS_FALLBACKS : Fld := { page := 0xD1, off := 0x064, lsb := 16, width := 16, reset := 0 }
def UPD_LOCK_IDLE : Fld := { page := 0xD1, off := 0x068, lsb := 0, width := 6, reset := 0 }
def UPD_SETTINGS_RESET : Fld := { page := 0xD1, off := 0x06C, lsb := 0, width := 8, reset := 0 }
def UPD_SETTINGS_MIGRATED : Fld := { page := 0xD1, off := 0x06C, lsb := 8, width := 8, reset := 0 }
def UPD_REJECT_CODE : Fld := { page := 0xD1, off := 0x070, lsb := 0, width := 4, reset := 0 }
def UPD_REJECT_MIX : Fld := { page := 0xD1, off := 0x070, lsb := 8, width := 3, reset := 0 }

end Sys2Proof.Machine.R
end

