-- ==== Sys2Proof/Machine/FaultTable.lean ====
section
/-!
DEFINITION. Machine/FaultTable.lean: the fault sources of Table 16-1, the default severities of the fault bit tables and the
fixed minimums of Tables 16-2 and 16-3.
-/

namespace Sys2Proof.Machine

/-- Table 16-1 by block: first source, last source, first page of the block, number of its pages. -/
def srcRanges : List (Nat × Nat × Nat × Nat) :=
  [(0, 7, 0x10, 2), (8, 16, 0x20, 16), (17, 23, 0x30, 1), (24, 29, 0x40, 1), (30, 35, 0x41, 1),
   (36, 47, 0x42, 1), (48, 56, 0x43, 1), (57, 61, 0x44, 1), (62, 71, 0x50, 32), (72, 83, 0x70, 1),
   (84, 88, 0x71, 1), (89, 96, 0x80, 1), (97, 104, 0x90, 1), (105, 111, 0x91, 4), (112, 119, 0x95, 1),
   (120, 134, 0xA0, 1), (135, 137, 0xA1, 1), (138, 142, 0xA8, 1), (143, 152, 0xA9, 2), (153, 158, 0xB0, 1),
   (159, 174, 0xB8, 1), (175, 182, 0xB9, 1), (183, 198, 0xC0, 1), (199, 202, 0xC8, 1), (203, 210, 0xC9, 1),
   (211, 226, 0xD0, 1), (227, 238, 0xD1, 1), (239, 244, 0xD8, 1), (245, 250, 0xE0, 1)]

/-- Default severity of each source, F000 to F250: the value `FLT_SEV` holds at reset. Sources that no fault bit table names
are 0. -/
def defaultSevs : List Nat :=
  [1, 1, 2, 1, 0, 1, 1, 0, 0, 1, 2, 2, 0, 2, 1, 2, 3, 1, 2, 1, 1, 1, 2, 3, 3,
   2, 3, 1, 0, 3, 0, 1, 1, 2, 0, 0, 3, 3, 1, 1, 2, 2, 1, 3, 2, 3, 0, 0, 1, 2,
   0, 0, 0, 1, 3, 1, 2, 3, 1, 2, 1, 0, 3, 2, 1, 1, 1, 2, 1, 2, 2, 3, 3, 1, 2,
   2, 1, 1, 1, 2, 0, 1, 2, 3, 3, 3, 1, 1, 3, 1, 1, 2, 0, 0, 0, 0, 0, 1, 2, 2,
   1, 1, 1, 3, 3, 1, 1, 1, 0, 1, 0, 3, 1, 2, 0, 0, 2, 1, 1, 1, 0, 2, 1, 2, 3,
   2, 1, 1, 2, 1, 2, 2, 1, 1, 3, 0, 1, 2, 1, 2, 0, 2, 3, 2, 2, 1, 2, 3, 2, 2,
   1, 1, 1, 2, 1, 0, 2, 3, 3, 1, 3, 1, 2, 1, 1, 2, 0, 0, 0, 0, 0, 0, 0, 0, 0,
   1, 1, 0, 1, 1, 0, 1, 0, 3, 3, 2, 2, 1, 2, 3, 1, 2, 2, 2, 2, 3, 3, 2, 0, 0,
   0, 1, 0, 1, 1, 0, 0, 1, 2, 1, 0, 2, 0, 0, 2, 1, 1, 1, 2, 0, 0, 0, 0, 0, 0,
   0, 0, 1, 2, 2, 0, 1, 2, 1, 1, 0, 0, 0, 0, 1, 2, 0, 2, 1, 3, 1, 1, 0, 2, 1,
   3]

/-- Fixed minimums: source, severity, actions (bit 0 `PAR_MARGIN`, bit 1 `PNG_DIAG`, bit 2 planned kiln, bit 3 sticky), as
`FRT.MIN_w` reads (Tables 16-2 and 16-3). A source not listed has SV0 and no action (R451). -/
def fixedMins : List (Nat × Nat × Nat) :=
  [(10, 2, 0), (18, 2, 1), (22, 2, 1), (24, 3, 2), (25, 2, 2), (29, 3, 2), (36, 3, 1), (44, 2, 2),
   (57, 3, 2), (58, 1, 1), (62, 3, 1), (71, 3, 2), (72, 3, 1), (74, 2, 1), (83, 3, 2), (88, 3, 2),
   (124, 3, 2), (133, 1, 1), (134, 3, 2), (139, 2, 1), (142, 3, 2), (143, 2, 0), (145, 1, 1), (146, 2, 0),
   (147, 3, 0), (153, 2, 1), (157, 3, 2), (158, 3, 2), (159, 1, 0), (160, 3, 6), (183, 3, 2), (184, 3, 2),
   (185, 2, 1), (189, 3, 6), (195, 3, 2), (211, 2, 1)]

/-- The sources that a fault bit table names; no other source ever latches (R448). -/
def namedSources : List Nat :=
  [0, 1, 2, 3, 4, 5, 6, 7, 8, 9, 10, 11, 12, 13, 14, 15, 16, 17, 18, 19, 20, 21, 22, 23, 24,
   25, 26, 27, 28, 29, 30, 31, 32, 33, 34, 35, 36, 37, 38, 39, 40, 41, 42, 43, 44, 45, 46, 47, 48, 49,
   50, 51, 52, 53, 54, 55, 56, 57, 58, 59, 60, 61, 62, 63, 64, 65, 66, 67, 68, 69, 70, 71, 72, 73, 74,
   75, 76, 77, 78, 79, 80, 81, 82, 83, 84, 85, 86, 87, 88, 89, 90, 91, 92, 93, 94, 95, 96, 97, 98, 99,
   100, 101, 102, 103, 104, 105, 106, 107, 108, 109, 110, 111, 112, 113, 114, 115, 116, 117, 118, 119, 120, 121, 122, 123, 124,
   125, 126, 127, 128, 129, 130, 131, 132, 133, 134, 135, 136, 137, 138, 139, 140, 141, 142, 143, 144, 145, 146, 147, 148, 149,
   150, 151, 152, 153, 154, 155, 156, 157, 158, 159, 160, 161, 162, 163, 164, 165, 175, 176, 177, 178, 179, 180, 181, 183, 184,
   185, 186, 187, 188, 189, 190, 191, 192, 193, 194, 195, 196, 197, 199, 200, 201, 202, 203, 204, 205, 206, 207, 208, 209, 210,
   211, 212, 213, 214, 215, 216, 217, 218, 227, 228, 229, 230, 231, 232, 233, 234, 239, 240, 241, 242, 243, 244, 245, 246, 247,
   248, 249, 250]

/-- First source, last source, base page and page count of the range a source lies in. -/
def rangeOfSrc (src : Nat) : Option (Nat × Nat × Nat × Nat) :=
  srcRanges.find? (fun r => decide (r.1 ≤ src) && decide (src ≤ r.2.1))

/-- The page that holds the fault bit of source `src`, instance `inst` (R448, R449). -/
def srcPage (src inst : Nat) : Nat :=
  match rangeOfSrc src with
  | some (_, _, p, _) => p + inst
  | none => 0

/-- The bit of source `src` in its page's `FLT_STAT` (R448). -/
def srcBit (src : Nat) : Nat :=
  match rangeOfSrc src with
  | some (f, _, _, _) => src - f
  | none => 0

/-- How many pages share the source (R449). -/
def srcInstances (src : Nat) : Nat :=
  match rangeOfSrc src with
  | some (_, _, _, n) => n
  | none => 1

/-- The first source of a page, if the page has fault bits. -/
def pageFirstSrc (page : Nat) : Option (Nat × Nat) :=
  (srcRanges.find? (fun r => decide (r.2.2.1 ≤ page) && decide (page < r.2.2.1 + r.2.2.2))).map
    (fun r => (r.1, r.2.1))

/-- The fixed minimum severity of a source (R450, R451). -/
def minSev (src : Nat) : Nat := ((fixedMins.find? (fun m => m.1 == src)).map (fun m => m.2.1)).getD 0

/-- The fixed minimum actions of a source (R450, R451). -/
def minAct (src : Nat) : Nat := ((fixedMins.find? (fun m => m.1 == src)).map (fun m => m.2.2)).getD 0

/-- The value of `FLT_SEV` at reset on a page: two bits for each fault bit, its default severity. -/
def sevReset (page : Nat) : Nat :=
  match pageFirstSrc page with
  | none => 0
  | some (f, l) => ((List.range (min 16 (l + 1 - f))).map (fun b => defaultSevs.getD (f + b) 0 * 4 ^ b)).sum

end Sys2Proof.Machine
end

