-- ==== Sys2Proof/Machine/Sets.lean ====
section
/-!
DEFINITION. Machine/Sets.lean: sets of numbers (granules, regions, lines) as rising lists of disjoint half-open intervals
that do not touch, so that a bitmap of thousands of millions of bits (R136) is plain data and equal sets are equal data.
-/

namespace Sys2Proof.Machine

/-- A set of numbers: intervals `(lo, hi)`, `lo` in, `hi` out. -/
abbrev RSet := List (Nat × Nat)

/-- Whether `x` is in the set. -/
def RSet.has : RSet → Nat → Bool
  | [], _ => false
  | (a, b) :: t, x => (decide (a ≤ x) && decide (x < b)) || RSet.has t x

/-- The set without the numbers from `lo` up to but not `hi`. -/
def RSet.cut : RSet → Nat → Nat → RSet
  | [], _, _ => []
  | (a, b) :: t, lo, hi =>
    let right := if hi < b then (max a hi, b) :: RSet.cut t lo hi else RSet.cut t lo hi
    if hi ≤ lo then (a, b) :: RSet.cut t lo hi
    else if b ≤ lo then (a, b) :: RSet.cut t lo hi
    else if a < lo then (a, lo) :: right
    else right

/-- Put the interval `(lo, hi)`, disjoint from every interval of the set, in its place, joining neighbours that touch and
dropping empty intervals. -/
def RSet.put : RSet → Nat → Nat → RSet
  | [], lo, hi => [(lo, hi)]
  | (a, b) :: t, lo, hi =>
    if b ≤ a then RSet.put t lo hi
    else if hi < a then (lo, hi) :: (a, b) :: t
    else if hi = a then (lo, b) :: t
    else if b = lo then RSet.put t a hi
    else (a, b) :: RSet.put t lo hi

/-- The set with the numbers from `lo` up to but not `hi` added. -/
def RSet.add (s : RSet) (lo hi : Nat) : RSet := if lo < hi then RSet.put (s.cut lo hi) lo hi else s

/-- The set with one number added. -/
def RSet.insert1 (s : RSet) (x : Nat) : RSet := s.add x (x + 1)

/-- The set without one number. -/
def RSet.erase1 (s : RSet) (x : Nat) : RSet := s.cut x (x + 1)

/-- How many numbers the set holds. -/
def RSet.card (s : RSet) : Nat := (s.map (fun i => i.2 - i.1)).sum

/-- The part of the set from `lo` up to but not `hi`. -/
def RSet.slice (s : RSet) (lo hi : Nat) : RSet :=
  s.filterMap (fun i => if max i.1 lo < min i.2 hi then some (max i.1 lo, min i.2 hi) else none)

/-- The union. -/
def RSet.union (s t : RSet) : RSet := t.foldl (fun acc i => RSet.add acc i.1 i.2) s

/-- The difference. -/
def RSet.diff (s t : RSet) : RSet := t.foldl (fun acc i => RSet.cut acc i.1 i.2) s

/-- The smallest member not below `lo`. -/
def RSet.next : RSet → Nat → Option Nat
  | [], _ => none
  | (a, b) :: t, lo => if lo < b then some (max a lo) else RSet.next t lo

/-- Intervals start at `b` or later, are not empty, rise and do not touch. -/
def RSet.wfFrom : Nat → RSet → Bool
  | _, [] => true
  | lo, (a, b) :: t => decide (lo ≤ a) && decide (a < b) && RSet.wfFrom (b + 1) t

/-- The canonical form. -/
def RSet.wf (s : RSet) : Bool := RSet.wfFrom 0 s

/-- The numbers, listed (for small sets: lines of a granule, queues, ports). -/
def RSet.toList (s : RSet) : List Nat := (s.map (fun i => (List.range (i.2 - i.1)).map (fun j => i.1 + j))).flatten

end Sys2Proof.Machine
end

