-- ==== Sys2Proof/Machine/Mem.lean ====
section
/-!
DEFINITION. Machine/Mem.lean: byte memory as a list of cells in one canonical form: addresses strictly rising, no cell
holding 0, an address not listed reading as 0 (assumption 5). It serves DRAM (by device physical address), the data of a
flash codeword (by offset in the granule) and the data buffers of the queues.
-/

namespace Sys2Proof.Machine

/-- Byte memory. -/
abbrev Memory := List Host.Cell

/-- The byte at `a`. -/
def Memory.byte : Memory → Nat → Byte
  | [], _ => 0
  | (k, v) :: t, a => if a = k then v else Memory.byte t a

/-- The memory with `v` at `a`, in canonical form. -/
def Memory.setByte : Memory → Nat → Byte → Memory
  | [], a, v => if v = 0 then [] else [(a, v)]
  | (k, w) :: t, a, v =>
    if a < k then (if v = 0 then (k, w) :: t else (a, v) :: (k, w) :: t)
    else if a = k then (if v = 0 then t else (a, v) :: t)
    else (k, w) :: Memory.setByte t a v

/-- The memory with the bytes of `bs` from `a` on. -/
def Memory.write (m : Memory) : Nat → List Byte → Memory
  | _, [] => m
  | a, b :: bs => Memory.write (m.setByte a b) (a + 1) bs

/-- `n` bytes from `a` on. -/
def Memory.read (m : Memory) (a n : Nat) : List Byte := (List.range n).map (fun i => m.byte (a + i))

/-- The cells from `base` up to `base + n`, their addresses counted from `base`. -/
def Memory.slice (m : Memory) (base n : Nat) : Memory :=
  (m.filter (fun c => decide (base ≤ c.1) && decide (c.1 < base + n))).map (fun c => (c.1 - base, c.2))

/-- The memory with the cells of `img` whose address is below `n` put at `base` on. -/
def Memory.overlay (m : Memory) (base n : Nat) : Memory → Memory
  | [] => m
  | (k, v) :: t => Memory.overlay (if k < n then m.setByte (base + k) v else m) base n t

/-- The memory with its `n` bytes from `base` on replaced by `img`, whose addresses count from `base`. -/
def Memory.paste (m : Memory) (base n : Nat) (img : Memory) : Memory :=
  Memory.overlay (m.filter (fun c => decide (c.1 < base) || decide (base + n ≤ c.1))) base n img

/-- Cells rise from `b` on and none holds 0. -/
def Memory.wfFrom : Nat → Memory → Bool
  | _, [] => true
  | b, (k, v) :: t => decide (b ≤ k) && decide (v ≠ 0) && Memory.wfFrom (k + 1) t

/-- The canonical form. -/
def Memory.wf (m : Memory) : Bool := Memory.wfFrom 0 m

/-- The cells of `m` that do not lie in a masked line of 64 bytes, and those of `top` that do: the merge of a fill under a
write mask (R267, R272). Addresses count from the start of the granule. -/
def Memory.mergeLines (m top : Memory) (mask : LineMask) : Memory :=
  (List.range 64).foldl (fun acc l =>
    acc.paste (64 * l) 64 ((if mask.getLsbD l then top else m).slice (64 * l) 64)) []

end Sys2Proof.Machine
end

