-- ==== Sys2Proof/Machine/Types.lean ====
section
/-!
DEFINITION. Machine/Types.lean: the records, tables and queues that the spec gives the device besides its register fields:
fault history, trouble log, host event records, poison list, flash codewords, cask manifests and the rest. All of it is
plain data.
-/

namespace Sys2Proof.Machine

/-- Who reads or writes a register: each has its own high-word latch (R58). -/
inductive Requester where
  | portA
  | portB
  | sideband
deriving DecidableEq, Repr

/-- The index of a requester: port A 0, port B 1, `MGMT_SB` 2. -/
def Requester.idx : Requester → Nat
  | .portA => 0
  | .portB => 1
  | .sideband => 2

/-- The five processors of Table 01-5. -/
inductive Proc where
  | sentinel
  | fabric
  | cellar
  | mgmt
  | safety
deriving DecidableEq, Repr

/-- The index of a processor in `ID.FWVER_n` (1 to 5; 0 is the boot ROM). -/
def Proc.idx : Proc → Nat
  | .sentinel => 1
  | .fabric => 2
  | .cellar => 3
  | .mgmt => 4
  | .safety => 5

/-- One entry of the fault history (Table 16-5). -/
structure HistEntry where
  src : Nat
  sev : Nat
  inst : Nat
  injected : Bool
  masked : Bool
  preempt : Bool
  order : Nat
  opsec : Nat
  pu : Nat
  hc : Nat
deriving DecidableEq, Repr

/-- One trouble-log entry (Table 17-2). -/
structure TEntry where
  code : Nat
  sev : Nat
  injected : Bool
  masked : Bool
  inst : Nat
  seqno : Nat
  opsec : Nat
  pcycles : Nat
  hc : Nat
  pu : Nat
  data : Nat
deriving DecidableEq, Repr

/-- The record types of R95. -/
inductive EvtKind where
  | generalMedia
  | dram
  | memoryModule
  /-- Corirvo vendor record, with its subtype (Table 04-5) -/
  | vendor (subtype : Nat)
deriving DecidableEq, Repr

/-- One host event record in a port's log: its handle, kind, the granule it is about (if it is about a DPA) and up to
four payload words. -/
structure EvtRec where
  handle : Nat
  kind : EvtKind
  granule : Option Nat
  words : List Nat
deriving DecidableEq, Repr

/-- One poison-list entry of a port: a whole granule, or lines of one granule. -/
structure PoisonEntry where
  granule : Nat
  whole : Bool
  lines : LineMask
deriving DecidableEq, Repr

/-- One slot of the hc event service (R49): owner, time, and the period: in hc, and in seconds where it is stated so (0 none). -/
structure SchedSlot where
  owner : Nat
  hc : Nat
  pu : Nat
  period : Nat
  seconds : Nat
deriving DecidableEq, Repr

/-- What the phase scheduler holds besides its registers (R33 to R43). -/
structure Track where
  /-- a reference point for the next crossing is held -/
  refHeld : Bool := false
  /-- accepted crossing intervals, newest first, at most 8, in 10 ns ticks -/
  intervals : List Nat := []
  /-- intervals in a row since the last miss or start, for lock (R35) -/
  lockRun : Nat := 0
  /-- consecutive missing half-cycles -/
  missRun : Nat := 0
  /-- crossings accepted in a row (R43) -/
  acceptRun : Nat := 0
  /-- consecutive hc whose mean frequency lay outside 45 to 66 Hz (R35) -/
  rangeRun : Nat := 0
  /-- the reference point is the predicted crossing of a missing half-cycle (R34) -/
  spansMiss : Bool := false
  /-- the last crossing was an accepted rising edge whose falling one is still to be placed (R33) -/
  fallingDue : Bool := false
  /-- mains sense has been declared lost (R42) -/
  senseLost : Bool := false
  /-- causes of the Early Warning in force: bit 0 missing half-cycles, bit 1 `AC_OK` (Table 02-1) -/
  ewCause : Nat := 0
  /-- what the estimate of R45 carries below 1 µC, in millionths of it -/
  remEst : Nat := 0
  /-- hc at which the Early Warning in force was raised -/
  ewSince : Nat := 0
  /-- hc and pu at which it was raised, as one number (R48) -/
  ewAt : Nat := 0
  /-- signed shunt charge, in µC, and frames of the rate being measured, 1,000 frames at a time (Table 02-4) -/
  rateUc : Int := 0
  rateFrames : Nat := 0
  /-- the hc events, by slot 0 to 63 -/
  sched : List (Nat × SchedSlot) := []
  /-- the frequency, mHz, that periods in seconds were last converted with (R49) -/
  freqUsed : Nat := 50000
  /-- the gauge path is plausible again: the charge clock returns to the shunt at the next conversion (R45) -/
  estEnds : Bool := false
  /-- charge carried below one tick, drawn and returned, in µC; below one µC for the estimate (R44) -/
  remDrawn : Nat := 0
  remRet : Nat := 0
deriving DecidableEq, Repr

/-- Maintenance access (R71). -/
structure Maint where
  /-- the `MAINT` strap is high -/
  strap : Bool := false
  /-- access is open -/
  isOpen : Bool := false
  /-- wrong values since the start -/
  wrong : Nat := 0
deriving DecidableEq, Repr

/-- An active fault source (R454): the severity and the actions of its effective reaction at its latches, and the instances
that latched. -/
structure ActiveSrc where
  src : Nat
  sev : Nat
  act : Nat
  insts : List Nat
deriving DecidableEq, Repr

/-- What the firmware part of a reaction will report of one latch (R453). -/
structure Report where
  src : Nat
  inst : Nat
  sev : Nat
  masked : Bool
  kiln : Bool
  data : Nat
  opsec : Nat
  hc : Nat
  pu : Nat
deriving DecidableEq, Repr

/-- What the safety manager holds besides its registers (R452 to R461). -/
structure Safe where
  /-- detections of the collection window that is open: source and instance (R453, R456) -/
  todo : List (Nat × Nat) := []
  first : Option HistEntry := none
  hist : List HistEntry := []
  /-- latches since start -/
  order : Nat := 0
  active : List ActiveSrc := []
  /-- the reactions nested now, the running one first: source and severity (R458) -/
  stack : List (Nat × Nat) := []
  /-- the reactions pending: source and severity -/
  pend : List (Nat × Nat) := []
  reports : List Report := []
  /-- sources whose condition stands: source times 32 plus instance -/
  conds : RSet := []
  /-- the REACT nibble of each source, exclusive-ored with its fixed minimum (R466) -/
  react : NMap := []
  /-- injections that wait for their detector: source and instance -/
  injWait : List (Nat × Nat) := []
  /-- operating seconds of the last F183 or F184 latch, plus one; 0 none (Table 16-2, F189) -/
  lastSafetyFail : Nat := 0
  /-- successive differing `ERR_N` readings -/
  readbackRun : Nat := 0
  /-- `ERRN_TEST` drives the pin: the readings of 1 ms still to come (R459) -/
  errnTest : Nat := 0
  /-- a failed start drives the pin (R438) -/
  errnStart : Bool := false
  /-- F190 has latched in this episode of the fault state (R458) -/
  ovfLatched : Bool := false
  /-- stored copies of the REACT table: 0 erased, 1 written and valid, 2 written and invalid (R467) -/
  reactCopies : Nat := 0
deriving DecidableEq, Repr

/-- One slot of the event recorder (R474, R475). Extremes hold the lowest and highest value with the time each was seen. -/
structure RecSlot where
  code : Nat
  extremes : Bool
  seq : Nat := 0
  supp : Nat := 0
  /-- 16 bins, or the count of values in bin 0 for an extremes slot -/
  bins : List Nat := []
  pend : List Nat := []
  lo : Option (Int × Nat × Nat) := none
  hi : Option (Int × Nat × Nat) := none
  pendLo : Option (Int × Nat × Nat) := none
  pendHi : Option (Int × Nat × Nat) := none
  first : Nat := 0
  firstPc : Nat := 0
  /-- occurrences left in this second's bucket (R476) -/
  bucket : Nat := 0
deriving DecidableEq, Repr

/-- A stored image of the event recorder (R477). -/
structure RecImage where
  flushSeq : Nat
  opsec : Nat
  pcycles : Nat
  slots : List RecSlot
  unrec : Nat
  /-- the newest sealed batch at the flush, and what R164 restores with the image: the wear bucket and `LIFE_DAYS` -/
  sealed : Nat := 0
  wear : Int := 0
  lifeDays : Nat := 1826
  valid : Bool
deriving DecidableEq, Repr

/-- Trouble log and event recorder (R468 to R479). -/
structure Records where
  live : List TEntry := []
  /-- the next `SEQNO` of the live log -/
  nextSeq : Nat := 1
  snap : List TEntry := []
  snapBatch : Nat := 0
  /-- entries left to each code in this second: used so far, by code -/
  used : NMap := []
  /-- entries held back in this second, by code (R470) -/
  held : NMap := []
  slots : List RecSlot := []
  copyA : Option RecImage := none
  copyB : Option RecImage := none
  /-- the copy being written: 0 none, 1 A, 2 B; and the image of it (R477, R478) -/
  writing : Nat := 0
  image : Option RecImage := none
  /-- pool-exhausted bits latched since the start (R474) -/
  poolLatched : Nat := 0
  /-- the health fields that the last Memory Module record reported, or those of reset (R95) -/
  health : List Nat := [0, 1, 0, 0]
  /-- a clear waits for the running flush (Table 17-4) -/
  clearWaits : Bool := false
deriving DecidableEq, Repr

/-- One flash codeword (Table 07-2): its metadata and, behind the LDPC and cipher, the granule data it stands for.
`keyEpoch` names the cask key it is encrypted under (R209). -/
structure Codeword where
  index : Nat
  typ : Nat
  poison : LineMask
  seq : Nat
  batch : Nat
  keyEpoch : Nat
  data : Memory
deriving DecidableEq, Repr

/-- One entry of a kiln log (Table 08-6). -/
structure LogEntry where
  granule : Nat
  poison : Bool
  ordinal : Nat
deriving DecidableEq, Repr

/-- One kiln log of a chain (Table 08-9, section 1). -/
structure KilnLog where
  batch : Nat
  entries : List LogEntry
  groups : List Nat
deriving DecidableEq, Repr

/-- One range of the pin table: base region, region count, class (Table 08-9, section 6). -/
structure PinRange where
  base : Nat
  size : Nat
  cls : Nat
deriving DecidableEq, Repr

/-- The record of an interrupted persist command (R310, Table 10-1). -/
structure IntRecord where
  queue : Nat
  cid : Nat
  opcode : Nat
  status : Nat
  offset : Nat
  element : Nat
  later : Nat
  laterOvf : Bool
  addr : Nat
  count : Nat
  kiln : Bool
  sqIdx : Nat
deriving DecidableEq, Repr

/-- A cask manifest: the header of Table 08-8 and the sections of Table 08-9. -/
structure Cask where
  batch : Nat
  prevBatch : Nat
  /-- 1 sealed; 2 sealed after the abort floor -/
  endKind : Nat
  trigger : Nat
  flags : Nat
  coarseK : Nat
  hcK0 : Nat
  puK0 : Nat
  opsec : Nat
  pcycles : Nat
  dK3 : Nat
  drained : Nat
  lost : Nat
  listed : Nat
  ctUsed : Nat
  eK0 : Nat
  iLearn : Nat
  vMbps : Nat
  merges : Nat
  fwver : List Nat
  chain : List KilnLog
  regionIndex : RSet
  lostList : RSet
  heat : NMap
  vol : RSet
  pins : List PinRange
  debt0 : RSet
  debt1 : RSet
  interrupted : List IntRecord
  retire : NMap
  tlog : List TEntry
  bucket : Int
  learnt : List Nat
  lifeDays : Nat
  hostTime : Nat
  fnn : Nat
  /-- section 12: the entries of the map pages dirty at K3, by granule, and the regions saved -/
  mapPages : NMap
  mapRegions : RSet
  /-- duration from the end of K1, ms, ct drawn K0 to K7, and per-phase durations and charges (`KLN.LAST_*`, `PHASE_*`) -/
  ms : Nat
  ct : Nat
  phaseUs : List Nat
  phaseCt : List Nat
deriving DecidableEq, Repr

end Sys2Proof.Machine
end

