-- ==== Sys2Proof/Machine/Parts.lean ====
section
/-!
DEFINITION. Machine/Parts.lean: the parts of the state of one block each: host port, DRAM, dirty tracker, wither path, kiln,
cellar, steep. Every part is plain data; the register fields of the block stand in the register file.
-/

namespace Sys2Proof.Machine

/-- A mailbox command that waits because MGMT is stopped, or the background command that runs (R103, R105). -/
structure MboxCmd where
  opcode : Nat
  /-- what the command still has to do: words of its own meaning -/
  words : List Nat
deriving DecidableEq, Repr

/-- One host port besides its registers (chapter 04). Index 0 is port A, 1 is port B. -/
structure HostPort where
  /-- committed HDM decoders: number, DPA base and size in 256 MiB units -/
  decoders : List (Nat × Nat × Nat) := []
  /-- interleave ways and granularity of the committed decoders, by number (Table 04-1) -/
  ways : List (Nat × Nat × Nat) := []
  /-- Error Not Committed of the HDM decoders, bit n for decoder n (R84) -/
  notCommitted : Nat := 0
  /-- the four event logs in the order Informational, Warning, Failure, Fatal, oldest record first -/
  logs : List (List EvtRec) := [[], [], [], []]
  /-- the interrupt policy of each log: 1 raises its MSI-X vector -/
  policy : List Nat := [0, 0, 0, 0]
  nextHandle : Nat := 1
  poison : List PoisonEntry := []
  /-- lines read by Scan Media since the list overflowed (R99) -/
  scanned : RSet := []
  /-- a GPF Phase 2 request waits (R90) -/
  gpfWait : Bool := false
  bg : Option MboxCmd := none
  /-- the MSI-X enable of the port's configuration space, and the interrupts of its mailbox that the host asks for: bit 0 the end of a
  command, bit 1 that of a background command (Table 04-1, R82; assumption 189) -/
  msixOn : Bool := true
  mailIrq : Nat := 0
  /-- the opcode of the command that waits for a stopped processor, if any (R105) -/
  waiting : Option Nat := none
  /-- alert thresholds (Get and Set Alert Configuration) -/
  alert : List Nat := []
  /-- shutdown state that the host set last -/
  shutdown : Nat := 0
  /-- a reset of the port or a cleared `ENABLE` explains the next link-down -/
  downExplained : Bool := false
  /-- the electrical level of `HPx_PERST_N` -/
  perstN : Bool := true
deriving DecidableEq, Repr

/-- A host write that waits for a fill (R273). -/
structure HeldWrite where
  port : Nat
  tag : Nat
  granule : Nat
  line : Nat
  poison : Bool
  data : List (Nat × Byte)
  /-- received before the port's GPF Phase 2 request (R90) -/
  flush : Bool := false
  /-- it comes from a mailbox command, whose answer it gives (R98) -/
  mail : Bool := false
  /-- a read that came after a held write of its line, and is answered after it (R86) -/
  read : Bool := false
deriving DecidableEq, Repr

/-- One granule retired to a spare slot, and the rows that wait for repair (R119, R122). -/
structure PendRow where
  chan : Nat
  rank : Nat
  row : Nat
  granules : List Nat
deriving DecidableEq, Repr

/-- The stored training of a channel (R126): its identities, its rate, and the die temperature it was taken at. -/
structure Training where
  chan : Nat
  ids : Nat
  rate : Nat
  temp : Int
deriving DecidableEq, Repr

/-- DRAM contents and repair state (chapter 05). -/
structure Dram where
  mem : Memory := []
  /-- poisoned lines, numbered DPA / 64 (R115) -/
  poison : RSet := []
  /-- granule to spare slot, plus one (R119) -/
  retire : NMap := []
  /-- granules whose retire copy runs -/
  retiring : List Nat := []
  pendRows : List PendRow := []
  /-- corrected errors of the last 24 h: row key, device key, operating seconds (R119, R123) -/
  errs : List (Nat × Nat × Nat) := []
  /-- ranks that did not acknowledge shed entry in this kiln: channel * 8 + rank (R129) -/
  noShed : RSet := []
  /-- spared subchannels, channel * 16 + rank * 2 + subchannel, to the device spared, plus one -/
  spared : NMap := []
  /-- ranks degraded (R124): channel * 8 + rank -/
  degraded : RSet := []
  /-- granules of the running sparing copy still to rewrite -/
  sparingLeft : Nat := 0
  sparingAll : Nat := 0
  /-- next granule of each channel's patrol, by channel -/
  patrolPos : NMap := []
  /-- `POOL_DIV` as the last cold start took it (R133) -/
  poolDiv : Nat := 0
  /-- operating seconds at which each channel's pass began; 0: with the start (R432) -/
  patrolFrom : NMap := []
  /-- granules to be retired once their refill has ended (R117) -/
  retireAfter : List Nat := []
  /-- host accesses that wait for the retire copy of their granule, oldest first (R119) -/
  waiting : List HeldWrite := []
  /-- rows under soft repair, which every start applies again (R122) -/
  soft : List PendRow := []
  /-- ranks that have been told to enter shed and have not acknowledged it yet: channel * 8 + rank (R129) -/
  shedding : RSet := []
  /-- stored training (R126) -/
  trained : List Training := []
deriving DecidableEq, Repr

/-- Phase of a wither or fence copy (R159). -/
inductive CopyPhase where
  | read
  | prog
deriving DecidableEq, Repr

/-- One entry of the in-flight table (R159). The data is what the read phase read; `addr` is where it is programmed. -/
structure InFlight where
  granule : Nat
  phase : CopyPhase
  wrRead : Bool
  wrProg : Bool
  data : Memory
  poison : LineMask
  addr : Nat
  /-- 0 a wither copy, else one plus the queue whose fence started it -/
  fence : Nat
  boost : Bool
deriving DecidableEq, Repr

/-- Dirty tracker (R135 to R143). -/
structure Dirty where
  bits : RSet := []
  /-- region summary -/
  summary : RSet := []
  /-- heat byte of each region: level times 2 plus `TOUCHED` -/
  heat : NMap := []
  /-- volatile regions; each interval is one range of the table (R141) -/
  vol : RSet := []
  inflight : List InFlight := []
  /-- the copy whose read each DRAM channel has granted: granule plus one, by channel (R14, R15) -/
  grants : NMap := []
  /-- consecutive torn copies of a granule -/
  torn : NMap := []
  /-- granules skipped until the next heat epoch -/
  skip : RSet := []
  scrubRun : Bool := false
  scrubDue : Bool := false
  /-- clean-to-dirty transitions of this 1 ms, and of the last 100 of them, newest first (R137) -/
  inflow : Nat := 0
  inflowWin : List Nat := []
deriving DecidableEq, Repr

/-- Wither engine and budget unit besides their registers (R144 to R157). -/
structure Budget where
  /-- learnt kiln currents, newest first, at most four (R146) -/
  learnt : List Nat := []
  /-- `CT_DRAWN` minus `CT_RET` at the last `HOST_ENERGY` write (R147) -/
  mark : Int := 0
  /-- `HOST_ENERGY` has expired -/
  expired : Bool := false
  /-- B is clamped to this bound (R149) -/
  clamp : Option Nat := none
  /-- `BUD.UPDATES` at the last check -/
  lastUpdates : Nat := 0
  /-- the wither scan stands at a heat level, before a granule of it (R155) -/
  level : Nat := 0
  cursor : Nat := 0
  /-- thousandths of a granule that the commanded rate has left over (R154) -/
  copyRem : Nat := 0
  /-- the bucket is filled when A is first known (R164) -/
  fill : Bool := false
  /-- refill of the bucket below one granule, in 1/86,400,000 granule (R156) -/
  refillRem : Nat := 0
  /-- ticks of 1 ms in which the cellar gave no image-zone space -/
  noSpace : Nat := 0
  /-- granules committed in this 1 ms, and in the last 100 of them, newest first -/
  commits : Nat := 0
  commitWin : List Nat := []
deriving DecidableEq, Repr

/-- The kiln in progress (chapter 08). -/
structure Kiln where
  /-- K0 has been entered since the start (R69) -/
  since : Bool := false
  /-- charge marks M0, M5, M6 and values in use at K0 (R229) -/
  m0 : Nat := 0
  m5 : Nat := 0
  m6 : Nat := 0
  e0 : Nat := 0
  iK : Nat := 0
  w : Nat := 0
  v : Nat := 0
  hc0 : Nat := 0
  pu0 : Nat := 0
  /-- trigger codes that arrived with K0, bit c - 1 for code c (R223) -/
  trigMask : Nat := 0
  p3Consent : Bool := false
  /-- hc counted at the beginning of the debounce, or of the way back from Primed (R248, Table 08-2) -/
  goodFrom : Nat := 0
  /-- frames in a row in which the hold-up bus read below `COLLAPSE.MV` (R554) -/
  lowFrames : Nat := 0
  /-- timebase at the beginning of K5 -/
  k5Pu : Nat := 0
  /-- the controller was in a steep (ST2 or ST3) at K3 -/
  duringSteep : Bool := false
  /-- `CDL1` or a failed debounce ends K2 at once (R229, R248) -/
  k2Force : Bool := false
  /-- ports link-up at K0 that have not ended their part of K2 (R92) -/
  k2Wait : List Nat := []
  dK3 : Nat := 0
  /-- drain capacity taken at K3 (R231) -/
  capacity : Nat := 0
  /-- ordinals issued, used or abandoned (R236) -/
  ordinals : Nat := 0
  /-- log entries in the order in which granules became safe -/
  log : List LogEntry := []
  /-- groups used, in order -/
  groups : List Nat := []
  lost : RSet := []
  merges : Nat := 0
  /-- `CDL0` has fired or the capacity is used up: no further granule reads (R239, R240) -/
  stopReads : Bool := false
  /-- the drain ends at the abort floor (R239) -/
  floored : Bool := false
  sealed : Bool := false
  /-- no seal is possible: both headers, or a section in both copies, failed -/
  unsealed : Bool := false
  /-- samples of the drain, timebase and granules drained, newest first, back to 100 ms ago (R238) -/
  rateWin : List (Nat × Nat) := []
  /-- the phase has latched its time overrun (R227) -/
  late : Bool := false
  tlogSnap : List TEntry := []
  heatK3 : NMap := []
  pinsK3 : List PinRange := []
  volK3 : RSet := []
  mapDirtyK3 : RSet := []
  /-- timebase marks, in pu since the start, at the phases' beginnings, and charge marks -/
  markPu : Nat := 0
  markCt : Nat := 0
  markK1 : Nat := 0
  /-- kiln-zone groups opened as program targets while Primed, and `KILN_SHED` preloaded (R218) -/
  opened : List Nat := []
  preload : Bool := false
  /-- the pack path has been told to take the bus and is not confirmed (R226, R230) -/
  pathDue : Bool := false
  /-- a debounce has run in K2, which its allotment includes (Table 08-4) -/
  debounced : Bool := false
  /-- log codewords of the stream that have been programmed (R236) -/
  logWords : Nat := 0
deriving DecidableEq, Repr

/-- Zones of the cellar (Table 07-3). -/
inductive Zone where
  | spare
  | records
  | kiln
  | kilnSpare
  | guest
  | image
deriving DecidableEq, Repr

/-- The state of a stripe group. -/
inductive GroupSt where
  | free
  | erased
  | opened
  | closed
deriving DecidableEq, Repr

/-- One stripe group (R175): its number, zone, state, members (channel, die, block) and the time stamps that order it. -/
structure Group where
  id : Nat
  zone : Zone
  st : GroupSt
  members : List (Nat × Nat × Nat)
  /-- data granules the group carries -/
  cap : Nat
  /-- order of its last erase -/
  erasedAt : Nat
  /-- order of its close -/
  closedAt : Nat
  /-- the group is allocated to a kiln -/
  kilnUse : Bool
  /-- cellar time, in seconds, of its first program -/
  writtenAt : Nat
  /-- of a free group: the members that still need their erase, the others being erased; none listed where all do (R189, R190) -/
  pendErase : List (Nat × Nat × Nat) := []
deriving DecidableEq, Repr

/-- One block's wear and standing (R195, R198, R203). -/
structure Block where
  chan : Nat
  die : Nat
  blk : Nat
  tlc : Nat
  pslc : Nat
  reads : Nat
  bad : Bool
  spare : Bool
  /-- operating seconds of its last rebuild, plus one -/
  rebuiltAt : Nat
  /-- read-retry level that last succeeded (R185) -/
  level : Nat
  /-- the block belongs to the records zone (Table 07-3) -/
  record : Bool := false
deriving DecidableEq, Repr

/-- A wrapped copy of the cask key in the records zone (R206 to R208): which key it wraps and under which host key
(0 for none). -/
structure WrapCopy where
  keyEpoch : Nat
  hostKey : Nat
  gen : Nat
  readable : Bool
  /-- NAND channel that the copy stands on (R206) -/
  chan : Nat := 0
deriving DecidableEq, Repr

/-- A NAND die found at a start: ONFI manufacturer ID and model, geometry, and whether it runs NV-LPDDR4 (R171, R172). -/
structure FoundDie where
  chan : Nat
  die : Nat
  mfr : Nat
  model : Nat
  planes : Nat
  blocks : Nat
  pages : Nat
  lpddr : Bool
deriving DecidableEq, Repr

/-- A row of the die table: pSLC command method, read-retry levels and rated endurance of a die type (R172). -/
structure DieRow where
  mfr : Nat
  model : Nat
  method : Nat := 0
  levels : List Nat := []
  tlc : Nat := 3000
  pslc : Nat := 30000
deriving DecidableEq, Repr

/-- The cellar besides its registers (chapter 07). -/
structure Cellar where
  /-- free image-zone space was below `GC_LOW_PCT` at the last second -/
  lowSpace : Bool := false
  /-- granule map entries (Table 07-5) in force, by granule -/
  map : NMap := []
  loaded : RSet := []
  mapDirty : RSet := []
  dirKiln : RSet := []
  dirLost : RSet := []
  /-- the map as the written map pages and logged deltas give it: the cellar base of R254 -/
  base : NMap := []
  flash : List (Nat × Codeword) := []
  seq : Nat := 0
  groups : List Group := []
  blocks : List Block := []
  opOrder : Nat := 0
  deltas : Nat := 0
  /-- regions whose map page has been written since the last sealed cask was loaded or sealed -/
  flushed : RSet := []
  /-- checkpoint slot last written and which of the two are valid -/
  ckptLast : Nat := 0
  ckptOk0 : Bool := true
  ckptOk1 : Bool := true
  /-- two manifest slots; `none` erased or not sealed -/
  slot0 : Option Cask := none
  slot1 : Option Cask := none
  slot0Erased : Bool := true
  slot1Erased : Bool := true
  /-- open-epoch record: batch and Steep Ready mark (R247, R261) -/
  epoch : Option (Nat × Bool) := none
  /-- newest batch ever opened -/
  epochMax : Nat := 0
  /-- kiln logs of the loaded cask not yet folded, oldest first -/
  chain : List KilnLog := []
  /-- TLC-equivalent codewords used and granules committed in this hour and in the 720 hours before, newest first; granules
  counted in all (R196) -/
  used : Nat := 0
  done : Nat := 0
  hours : List (Nat × Nat) := []
  counted : Nat := 0
  /-- operating seconds at which the running patrol pass began (R204) -/
  patrolFrom : Nat := 0
  /-- one more than the `epochMax` at which the last unsealed stop was counted (R100) -/
  dscAt : Nat := 0
  /-- the open epoch was opened by a start after an unsealed stop and has no Steep Ready mark: the next start is one too (R261) -/
  endUnsealed : Bool := false
  /-- contents of the label storage area, 128 KiB in the records zone (Table 04-1) -/
  labels : Memory := []
  /-- erases that ended in a kiln, to be counted at the next start: group and failed blocks (R16) -/
  lateErase : List (Nat × List (Nat × Nat × Nat)) := []
  /-- unpowered seconds added to operating seconds for cellar time (R201) -/
  unpow : Nat := 0
  /-- host time stored at the last kiln or flush, plus one -/
  hostStored : Nat := 0
  /-- the last unpowered interval was assumed -/
  assumed : Nat := 0
  /-- a zone resize (R178): groups that the kiln zone and the guest zone are to have, and group moves that it had to make -/
  resizeKiln : Nat := 0
  resizeGuest : Nat := 0
  resizeAll : Nat := 0
  wrapA : WrapCopy := { keyEpoch := 0, hostKey := 0, gen := 0, readable := true }
  wrapB : WrapCopy := { keyEpoch := 0, hostKey := 0, gen := 0, readable := true }
  /-- blocks whose copies are to be moved (R186, R198, R202, R203) -/
  reloc : List (Nat × Nat × Nat) := []
  /-- directory entries, bits 63 to 4 of each: the codeword of the map page of a region (R180) -/
  dir : NMap := []
  /-- dies found, and the die table of the running package (R172, R173) -/
  dies : List FoundDie := []
  dieTable : List DieRow := []
  /-- trained interfaces by channel: 4 times the rate, plus the mode (R173) -/
  trained : NMap := []
  /-- dies that the table does not list or whose geometry differs: channel * 16 + die (R172) -/
  offDies : RSet := []
  /-- dies unusable: channel * 16 + die -/
  deadDies : RSet := []
  deadChans : RSet := []
  /-- corrupt entries found by the running scrub pass -/
  corrupt : RSet := []
  /-- the device has drawn its first cask key (R206) -/
  keyed : Bool := false
  /-- cellar time at which the records zone was last rewritten (R202) -/
  recordsAt : Nat := 0
  /-- blocks whose reads ask for a patrol at once (R203) -/
  patrolDue : List (Nat × Nat × Nat) := []
deriving DecidableEq, Repr

/-- One fill in flight (R266, R267). -/
structure Fill where
  granule : Nat
  demand : Bool
  /-- held reads: port, tag, line -/
  held : List (Nat × Nat × Nat)
deriving DecidableEq, Repr

/-- A fill that is complete but for its partial-region entry (R265): its granule, the ladder steps of its reads, its latency, and the
time its die is busy. -/
structure SlotWait where
  granule : Nat
  mapStep : Nat
  step : Nat
  us : Nat
  busy : Nat
deriving DecidableEq, Repr

/-- The steep besides its registers (chapter 09). -/
structure Steep where
  unfilled : RSet := []
  /-- granule to line mask; a granule with an all-zero entry is listed in `maskHeld` -/
  masks : NMap := []
  maskHeld : RSet := []
  /-- partial regions, oldest first -/
  partials : List Nat := []
  fills : List Fill := []
  heldWrites : List HeldWrite := []
  /-- reads and fills that wait for a table entry -/
  waitFills : List Fill := []
  hints : List Nat := []
  /-- demand fills are completing partial regions (R265) -/
  drainPartials : Bool := false
  /-- heat map of the manifest, for the bulk order -/
  savedHeat : NMap := []
  /-- the region the bulk steep works on, plus one; samples of its progress, timebase and granules filled, newest first, back to
  100 ms ago, and granules it has filled -/
  bulkRegion : Nat := 0
  bulkWin : List (Nat × Nat) := []
  bulkDone : Nat := 0
  /-- sum and number of the fill latencies of this second, µs -/
  latSum : Nat := 0
  latCnt : Nat := 0
  readyOps : Nat := 0
  bulkDelayDone : Bool := false
  /-- this start has held (R259, R260); one of its NAND channels has fallen back to a full scan or training (R258) -/
  hasHeld : Bool := false
  nandFull : Bool := false
  /-- fills that wait for a partial-region entry, oldest first (R265) -/
  slotWaits : List SlotWait := []
deriving DecidableEq, Repr

end Sys2Proof.Machine
end

