-- ==== Sys2Proof/Machine/Parts2.lean ====
section
/-!
DEFINITION. Machine/Parts2.lean: more parts of the state: persist queues, Daluf fabric, racking, packs, sequencer, power
states, calibration, code flash and update. Plain data throughout.
-/

namespace Sys2Proof.Machine

/-- A persist descriptor (Table 10-2). `reservedZero` tells whether every reserved field is zero. -/
structure Desc where
  opcode : Nat
  irq : Bool
  order : Bool
  chain : Bool
  cid : Nat
  param : Nat
  addr : Nat
  addr2 : Nat
  count : Nat
  offset : Nat
  reservedZero : Bool
deriving DecidableEq, Repr

/-- A command of a queue that has been fetched and has no posted completion yet. -/
structure RunCmd where
  cid : Nat
  /-- SQ index of its first descriptor -/
  sqIdx : Nat
  /-- SQ head after its descriptors -/
  sqAfter : Nat
  elems : List Desc
  /-- the chain element being worked on -/
  elem : Nat := 0
  /-- units of that element below which all work is done, counted from the start of its range (R295) -/
  progress : Nat := 0
  result : Nat := 0
  /-- the status it ended with, once it has ended -/
  status : Option Nat := none
  /-- the chain still waits for its next descriptor (R293) -/
  more : Bool := false
  started : Bool := false
  /-- a fence or rack element has taken its covered set -/
  covering : Bool := false
  /-- covered granules (fence), or regions times 2 plus target (rack), still to be done -/
  left : RSet := []
  /-- covered granules whose copy in flight missed a write that came before the fence: they need another copy (R299) -/
  again : RSet := []
  /-- the covered set as the fence took it, and the covered regions whose map page is still to be written (`MAP_FLUSH`) -/
  covered : RSet := []
  mapLeft : RSet := []
  /-- granules given up after eight torn copies (R300) -/
  gaveUp : RSet := []
  poisoned : Bool := false
deriving DecidableEq, Repr

/-- One completion (R295). -/
structure Completion where
  cid : Nat
  element : Nat
  status : Nat
  progress : Nat
  result : Nat
  sqHead : Nat
  irq : Bool
deriving DecidableEq, Repr

/-- One queue pair with its configuration slot (Table 10-1) and its work. -/
structure Queue where
  q : Nat
  sqBase : Nat := 0
  cqBase : Nat := 0
  en : Bool := false
  cls : Nat := 4
  credits : Nat := 4
  sqLog2 : Nat := 0
  cqLog2 : Nat := 0
  vector : Nat := 8
  irqEn : Bool := false
  /-- 0 none; 1 port A; 2 port B -/
  owner : Nat := 0
  running : Bool := false
  fault : Bool := false
  cqFull : Bool := false
  err : Nat := 0
  sqHead : Nat := 0
  sqTail : Nat := 0
  cqTail : Nat := 0
  cqHead : Nat := 0
  phase : Nat := 1
  cmds : List RunCmd := []
  held : List Completion := []
  intRec : Option IntRecord := none
  /-- the interrupted command's completion is still to be posted (R310) -/
  postDue : Bool := false
  /-- the port whose DMA and vectors serve the queue: its last owner -/
  via : Nat := 0
deriving DecidableEq, Repr

/-- Persist queue engine besides its registers (chapter 10). -/
structure Queues where
  list : List Queue := []
  /-- cached contexts, most recently used first (R285) -/
  cache : List Nat := []
  pins : List PinRange := []
  /-- completions pending per vector: key is port * 2048 + vector (R296) -/
  pendVec : NMap := []
  /-- the weighted round robin: class being served, fetches left, last queue served per class -/
  rrClass : Nat := 0
  rrLeft : Nat := 0
  rrLast : NMap := []
  /-- fence latencies of this second: their sum in µs and their number -/
  latSum : Nat := 0
  latCnt : Nat := 0
deriving DecidableEq, Repr

/-- A link-state advertisement (Table 11-7). `nbrs` gives for each port the neighbour FNN, whether the high-rate plane is up
and the cost. -/
structure Lsa where
  eui : Nat
  fnn : Nat
  tentative : Bool
  dormant : Bool
  power : Nat
  seq : Nat
  group : Nat
  nbrs : List (Nat × Bool × Nat)
deriving DecidableEq, Repr

/-- An alarm summary (Table 11-8). -/
structure Summary where
  eui : Nat
  pst : Nat
  errN : Bool
  kilnRunning : Bool
  stateSummary : Bool
  power : Nat
  changes : Nat
  suppressed : Nat
  hopDrops : Nat
  collDrops : Nat
  num : Nat
  /-- source, severity, latches -/
  entries : List (Nat × Nat × Nat)
deriving DecidableEq, Repr

/-- The payload of a fabric packet, by type (Tables 11-4 and 12-1). -/
inductive Payload where
  /-- 0x00: sender's LSA bytes 0 to 15 (EUI, number, flags, sequence), sending port, high-rate available, good lanes, power
  state, feed driven -/
  | hello (eui fnn flags seq port : Nat) (hrAvail : Bool) (lanes power : Nat) (feed : Bool)
  /-- 0x01 -/
  | lsa (a : Lsa)
  /-- 0x02 -/
  | dbx (a : Lsa)
  /-- 0x10: originator, group, trigger code -/
  | kiln (eui group trigger : Nat)
  /-- 0x11 -/
  | alarm (a : Summary)
  /-- 0x12: EUI, group -/
  | wake (eui group : Nat)
  /-- 0x20: owner, generation, declared size, range count -/
  | rOpen (owner gen size count : Nat)
  /-- 0x21: first range index, ranges of base region and size -/
  | rRanges (first : Nat) (ranges : List (Nat × Nat))
  /-- 0x22: status, slot, target generation, committed regions -/
  | rOpenReply (status slot gen committed : Nat)
  /-- 0x23: generation, source region, `DROP` -/
  | rBegin (gen region : Nat) (drop : Bool)
  /-- 0x24: granule offset, part of 256 bytes, the bytes that are not zero by offset in the part -/
  | rData (off part : Nat) (data : Memory)
  /-- 0x25 -/
  | rPoison (off : Nat) (mask : LineMask)
  /-- 0x26: `DATA` count, `POISON` count, CRC-32 over the region's data -/
  | rEnd (nData nPoison crc : Nat)
  /-- 0x27: source region, status -/
  | rAck (region status : Nat)
  /-- 0x28: owner, generation -/
  | rRelease (owner gen : Nat)
  /-- 0x29 -/
  | rLost (regions : List Nat)
  /-- 0x30 to 0x33: export mailbox traffic, whose payload the spec does not give -/
  | rExport (typ : Nat) (words : List Nat)
  /-- any other type, or a type in the wrong class -/
  | other (typ : Nat)
deriving DecidableEq, Repr

/-- A fabric packet (Table 11-3): its header's fields, `res0` and `res1` the reserved bits of words 0 and 1, `hcrc` the check that
came with it, and its payload. -/
structure Packet where
  dst : Nat
  cls : Nat
  src : Nat
  hops : Nat
  flood : Bool
  len : Nat
  seq : Nat
  flow : Nat
  tag : Nat
  hcrc : Nat
  res0 : Nat
  res1 : Nat
  payload : Payload
deriving DecidableEq, Repr

/-- One installed route (R332). -/
structure Route where
  fnn : Nat
  ports : Nat
  hops : Nat
  cost : Nat
deriving DecidableEq, Repr

/-- One plane of a Daluf port, with its link rules (R318, R324). -/
structure Plane where
  /-- next link sequence number to send and to receive -/
  txSeq : Nat := 0
  rxSeq : Nat := 0
  /-- the replay buffer: frames not acknowledged, oldest first -/
  unacked : List (Nat × Packet) := []
  /-- replays in a row of the frame at the front of the buffer -/
  replays : Nat := 0
  /-- packets that wait for a place in the replay buffer -/
  waiting : List Packet := []
  /-- packets that classes 5 to 0 may still send in this round -/
  credits : List Nat := [8, 4, 2, 2, 1, 1]
deriving DecidableEq, Repr

/-- A Daluf port besides its registers (R316 to R321). -/
structure DPort where
  overcurrents : Nat := 0
  /-- overcurrent has switched the feed off until the retry, or for good after three -/
  feedOff : Bool := false
  /-- a lane-available hello has come from the other end -/
  nbrHr : Bool := false
  /-- lanes that fail, bit l for lane l (4 is the spare) -/
  badLanes : Nat := 0
  /-- the port retrains after 8 replays (R318) -/
  retraining : Bool := false
  /-- a training has failed and its retry is still to come (Table 11-2) -/
  retry : Bool := false
  /-- the sideband and the high-rate plane -/
  sb : Plane := {}
  hr : Plane := {}
deriving DecidableEq, Repr

/-- Daluf fabric besides its registers (chapter 11). -/
structure Fabric where
  ports : List DPort := [{}, {}, {}, {}]
  /-- database: LSA and operating seconds at which it was accepted -/
  db : List (Lsa × Nat) := []
  routes : List Route := []
  /-- a route computation is pending -/
  routeDue : Bool := false
  /-- the moment of the device's last LSA, plus one, and an LSA that waits for the 20 ms after it (R329) -/
  lsaAt : Nat := 0
  lsaDue : Bool := false
  /-- number remembered by the Sentinel (R326) -/
  remembered : Option Nat := none
  /-- flood cache: source, type, sequence, operating seconds when seen (R337) -/
  seen : List (Nat × Nat × Nat × Nat) := []
  kilnSeq : Nat := 0
  alarmSeq : Nat := 0
  /-- a state change waits for the next summary; a latch asks for one at once; latches waiting: source, severity, count -/
  stateDue : Bool := false
  faultNow : Bool := false
  changes : Nat := 0
  faultDue : List (Nat × Nat × Nat) := []
  suppressed : Nat := 0
  hopDrops : Nat := 0
  /-- summaries not sent to each collector since the last that reached it (R341) -/
  collDue : List Nat := [0, 0, 0, 0]
  /-- last second each source was sent (R338) -/
  codeSent : NMap := []
  /-- state summaries sent in this second -/
  stateSent : Nat := 0
  /-- RTC second of the last accepted wake, plus one (R343) -/
  lastWake : Nat := 0
deriving DecidableEq, Repr

/-- A racking send in flight (R354, R359). -/
structure Send where
  target : Nat
  region : Nat
  handle : Nat
  /-- written since the send's first DRAM read -/
  wr : Bool := false
  /-- a timeout has passed once -/
  late : Bool := false
  /-- the region is to be sent again -/
  resend : Bool := false
deriving DecidableEq, Repr

/-- A guest volume held for an owner (R360 to R364). -/
structure Guest where
  slot : Nat
  owner : Nat
  gen : Nat
  /-- declared size in regions -/
  size : Nat
  ranges : List (Nat × Nat) := []
  /-- ranges that its range table has -/
  count : Nat := 0
  held : RSet := []
  /-- regions committed in the current generation -/
  fresh : Bool := false
  lost : RSet := []
  /-- regions to report in a `LOST` packet -/
  lostDue : RSet := []
  lastCommit : Nat := 0
deriving DecidableEq, Repr

/-- One region being received from an owner (R358). -/
structure Recv where
  slot : Nat
  region : Nat
  handle : Nat
  drop : Bool
  nData : Nat := 0
  nPoison : Nat := 0
  /-- parts received -/
  parts : RSet := []
  data : Memory := []
  poison : List (Nat × LineMask) := []
  /-- `REGION_END` checked: the region waits for its stripes and map page -/
  ended : Bool := false
deriving DecidableEq, Repr

/-- Racking besides its registers (chapter 12). -/
structure Racking where
  /-- debt bitmaps of the two targets, by region (R354) -/
  debt0 : RSet := []
  debt1 : RSet := []
  /-- when regions became owed, and when a target was busy: moment plus one, regions by target (R355, R359) -/
  owedAt : List (Nat × RSet) := []
  busyAt : List (Nat × RSet) := []
  /-- where the ascending order of R355 goes on, for each target -/
  cursor0 : Nat := 0
  cursor1 : Nat := 0
  /-- sends with data of the last 100 ms: target and moment (R370) -/
  sentWin : List (Nat × Nat) := []
  sends : List Send := []
  nextHandle : Nat := 0
  guests : List Guest := []
  recvs : List Recv := []
  /-- guest copies by slot, source granule: codeword with `TYPE` 5 -/
  copies : List (Nat × Nat × Codeword) := []
  /-- a full resynchronisation is due after an unsealed stop or a first open, by target (R362) -/
  genDue0 : Bool := true
  genDue1 : Bool := true
  /-- owners whose volume this device's host released while they were unreachable (R363) -/
  gone : List Nat := []
  /-- export window of each port -/
  window0 : Memory := []
  window1 : Memory := []
deriving DecidableEq, Repr

/-- What the device has learnt of a pack serial (R377). -/
structure Learnt where
  serial : Nat
  cap : Nat
  base : Nat
  lastQ : Nat
deriving DecidableEq, Repr

/-- A pack port besides its registers (chapter 13). -/
structure Pack where
  /-- the pack has passed authentication and no check has failed since -/
  authOk : Bool := false
  /-- a challenge is out: its value -/
  challenge : Option Nat := none
  /-- attempts that failed in this authentication -/
  attempts : Nat := 0
  /-- consecutive 24 h checks that failed (R395); this authentication is one -/
  dailyFails : Nat := 0
  daily : Bool := false
  /-- an authentication waits for the end of a kiln or rest window (Table 13-6) -/
  authDeferred : Bool := false
  /-- lower end of the interval formed last, and whether one has been formed for this pack -/
  vLo : Nat := 0
  haveV : Bool := false
  /-- Q_cc is still to be taken from the first interval (R386) -/
  firstV : Bool := false
  /-- the last 8 internal resistance values in 0.1 mΩ, newest first; conclusive pulses for the baseline -/
  ri : List Nat := []
  basePulses : List Nat := []
  /-- net charge counted since the discharge being learnt from began, and its interval's midpoint (R385) -/
  learnMid : Option Nat := none
  learnDrawn : Nat := 0
  /-- operating seconds of the last rest correction, widening and rest window -/
  restAt : Nat := 0
  widenAt : Nat := 0
  windowAt : Nat := 0
  /-- 0 none; 1 switchover; 2 pulse; 3 discharge -/
  test : Nat := 0
  /-- the pack carries the hold-up bus; it stands by to do so (K1) -/
  pathOn : Bool := false
  standby : Bool := false
  /-- operating seconds of the insertion or, later, the last conclusive pulse, and since which `UNCOUNT` bit 1 is set, plus one -/
  pulseAt : Nat := 0
  highZAt : Nat := 0
  /-- the switchover test has passed since insertion (Table 13-3), and operating seconds of the last pass, plus one -/
  swDone : Bool := false
  swAt : Nat := 0
  implausible : Bool := false
  /-- the charger is held off until `CHG_EN` is written again (R394) -/
  chgLatched : Bool := false
  /-- the charger is to be switched off at its next phase window, whatever calls for charging then (R50, R394) -/
  chgStop : Bool := false
  /-- a raise of Q_best - U still to enter, and conversion frames left for it (R388) -/
  rampLeft : Nat := 0
  rampFrames : Nat := 0
  /-- fractions: of a ct drawn and returned (µC), and what U has grown ahead of 0.5 % of the ct counted (0.001 ct) -/
  remDrawn : Nat := 0
  remRet : Nat := 0
  remU : Nat := 0
  /-- the port became Absent by a removal since the start -/
  removed : Bool := false
  /-- the rest-correction clock has been set to 72 h; the pack is in disagreement (R384) -/
  relearn : Bool := false
  disagree : Bool := false
  /-- operating seconds until which the pack rests after a test discharge (R391) -/
  restUntil : Nat := 0
  /-- the warm-start adjustment applied for the unpowered interval (R386) -/
  unpowAdj : Nat := 0
deriving DecidableEq, Repr

/-- One entry of the rise list (R411): the enables one step set, and the rails and timeout of its check, if it has one. -/
structure RiseEntry where
  ens : Nat
  check : Option (Nat × Nat)
deriving DecidableEq, Repr

/-- What a running sequencer program waits for (R407 to R412, R416). -/
inductive SeqWait where
  | none
  /-- a time in µs, or in ct while no pack path carries the bus (R409) -/
  | time
  /-- hc to be reached -/
  | hc (target : Nat)
  /-- `CDL4` to fire -/
  | ct
  /-- rails to be Good -/
  | up (rails : Nat)
  /-- rails to be below their off levels -/
  | down (rails : Nat)
  /-- a sync step: whether its timeout fails the program, and its state number -/
  | sync (fails : Bool) (n : Nat)
  /-- an `EN_CLR` that waits until its ranks are shed (R410): the enables still to clear -/
  | shed (mask : Nat)
  /-- `DOWN_GAP_US` of the derived power-down -/
  | gap
  /-- a run of steps with no wait among them goes on -/
  | more
deriving DecidableEq, Repr

/-- Sequencer besides its registers (chapter 14). -/
structure Seq where
  /-- committed and staged program store: words by step -/
  store : NMap := []
  staged : NMap := []
  rise : List RiseEntry := []
  /-- the last entry of the rise list still takes the check that follows in the run -/
  openEntry : Bool := false
  prog : Option Nat := none
  pc : Nat := 0
  wait : SeqWait := .none
  /-- entries the derived power-down still has to clear, last first -/
  derived : Option (List RiseEntry) := none
  /-- programs whose moment has come and that SAFETY has not started yet -/
  due : List Nat := []
  /-- the program that ended last, and whether it failed -/
  ended : Option (Nat × Bool) := none
  /-- the running sync steps pass alone (R416) -/
  solo : Bool := false
  /-- rail samples in a row beyond: UV warn, UV fault, OV warn, OV fault; and samples inside the warn window. Key: rail times 8
  plus kind -/
  runs : NMap := []
  /-- `MR_N` is down since 20 ms; 4 s and 12 s reached -/
  press : Bool := false
  held4 : Bool := false
  held12 : Bool := false
  /-- a force off holds the device Off (R421) -/
  forcedOff : Bool := false
  /-- an input collapse waits for a kiln (R415) -/
  collapsed : Bool := false
  /-- stored copies of the program store that are valid: 1 Sentinel, 2 copy A, 4 copy B (R422) -/
  stored : Nat := 0
  /-- the copy of the rail counters written last, and the counters in each copy (R406) -/
  railCopy : Nat := 0
  railA : NMap := []
  railB : NMap := []
deriving DecidableEq, Repr

/-- Where the device stands in its life between starts (chapter 15). -/
inductive Life where
  /-- without main power, or in P4 -/
  | off
  /-- boot steps run -/
  | starting
  /-- from B12 on -/
  | running
  /-- P3 -/
  | dormant
  /-- a start has failed: powering down, and waiting for the retry -/
  | failed
  /-- ROM recovery (R440) -/
  | recovery
  /-- `POWER_DOWN` runs and P4 follows -/
  | goingDown
deriving DecidableEq, Repr

/-- Power states and starts besides their registers (chapter 15). -/
structure Power where
  life : Life := .off
  /-- the boot steps complete and running (R435) -/
  doneSteps : List Nat := []
  runSteps : List Nat := []
  /-- the boot in progress is warm -/
  warm : Bool := false
  /-- `MAIN_IN` is good -/
  mainGood : Bool := false
  /-- `MAIN_IN` has fallen below `WARN_MV` and not returned (Table 08-2) -/
  belowWarn : Bool := false
  /-- the Sentinel context has survived since it was last written (R25) -/
  ctxOk : Bool := false
  /-- the cause that the next start shows (Table 15-9) -/
  cause : Nat := 5
  /-- sources of the island's supply present, bit 0 `AUX3V3`, 1 and 2 the packs, 3 to 6 phantom feeds (R24) -/
  sources : Nat := 1
  /-- the patrol catch-up is not yet done (R432) -/
  catchup : Bool := false
  /-- the rest state being left: 0 none, 1, 2 -/
  leaving : Nat := 0
  /-- the deepest rest whose dwell has been met since the last host request: 0 none, 1, 2 (R429) -/
  quiet : Nat := 0
  /-- Memory_Active_Timeout, s, and Mailbox Interface Ready, both of boot step B5 (R102) -/
  memTimeout : Nat := 0
  mboxReady : Bool := false
  /-- registers of the pages powered down at the end of K3, as they were then, and the words of the `TLG` and `REC` windows (R74) -/
  heldRegs : NMap := []
  /-- Set Partition has set the slices (R85) -/
  partitioned : Bool := false
  /-- the words of the last previous-epoch report (Table 04-6) -/
  report : List Nat := []
  /-- LDPC engines retired since the last cold start (R29) -/
  ldpcDead : List Nat := []
  /-- field repairs of SRAM macros, stored in the Sentinel context; macros with no redundancy left; macros disabled (R31, R32) -/
  sramField : List Nat := []
  sramSpent : List Nat := []
  sramOff : List Nat := []
  heldWindows : Option (List Nat × List Nat) := none
deriving DecidableEq, Repr

end Sys2Proof.Machine
end

