-- ==== Sys2Proof/Machine/Parts3.lean ====
section
/-!
DEFINITION. Machine/Parts3.lean: the last parts of the state: calibration and comparators, code flash, firmware update, and
what one command sends out of the device. Plain data throughout.
-/

namespace Sys2Proof.Machine

/-- One row of the event code table that the brew package carries (chapter 17): recorder kinds, histogram base, rate. -/
structure CodeRow where
  code : Nat
  hist : Bool
  extremes : Bool
  base : Nat
  rate : Nat
deriving DecidableEq, Repr

/-- Calibration and comparators besides their registers (chapter 18). -/
structure Cal where
  /-- a trigger waits until the kiln controller is Ready again (R495) -/
  deferred : Bool := false
  /-- die temperature, as its register reads it, at the start of the run -/
  startTemp : Nat := 0
  /-- a result of this run was rejected -/
  rejected : Bool := false
  /-- coefficients that wait in the inactive bank of an ADC: ADC, gain, offset (R492) -/
  banks : List (Nat × Nat × Nat) := []
  /-- ADCs that failed their housekeeping check and no run has accepted since (Table 18-6) -/
  badAdc : RSet := []
  /-- slice swaps whose old slice leaves at the next frame: threshold and old slice (R497) -/
  swaps : List (Nat × Nat) := []
  /-- trip error left to trim away, mV, signed, by threshold (R497) -/
  trimLeft : List (Nat × Int) := []
  /-- next of the 11 slices tested in rotation (R498) -/
  rotation : Nat := 0
  /-- the band-gap reading of a periodic `VREF_EXT` check that waits for the end of the run (Table 18-3) -/
  vrefWaits : Option Nat := none
  /-- periodic checks have stopped because `VREF_EXT` is out of range (R493) -/
  vrefStopped : Bool := false
  /-- a stored band-gap change takes effect with the next run (R493) -/
  bgNext : Option Nat := none
  /-- stored copies that are valid: bit 0 Sentinel, bit 1 copy A, bit 2 copy B; and the flash copy written last (R494) -/
  stored : Nat := 0
  lastCopy : Nat := 0
deriving DecidableEq, Repr

/-- A command sequence of the code-flash controller (R507): how many of its writes have come, and what they gave. -/
structure FlashSeq where
  step : Nat := 0
  opcode : Nat := 0
  addr : Nat := 0
deriving DecidableEq, Repr

/-- An operation of the code-flash controller in progress in one bank (R507, R508). -/
structure FlashOp where
  /-- 1 word program, 2 sector erase, 3 block erase -/
  opcode : Nat
  addr : Nat
  word : Nat
  /-- 0 the host, 1 firmware -/
  who : Nat
deriving DecidableEq, Repr

/-- One journal word (R511). -/
structure JournalWord where
  kind : Nat
  addr : Nat
  /-- the bit as read: 1 until the operation has ended -/
  done : Bool
  valid : Bool
deriving DecidableEq, Repr

/-- One boot-record word (R512). -/
structure BootWord where
  gen : Nat
  bank : Nat
  trial : Bool
  tried : Bool
  svn : Nat
  crcOk : Bool
deriving DecidableEq, Repr

/-- One processor image of a brew package (Table 19-5). -/
structure Image where
  typ : Nat
  version : Nat
  ifVer : Nat
  minPeer : Nat
deriving DecidableEq, Repr

/-- One entry of the settings descriptor (Table 19-6). -/
structure Setting where
  id : Nat
  format : Nat
  resetOk : Bool
deriving DecidableEq, Repr

/-- A brew package as its header and section table give it, with the outcome of each cryptographic check (Tables 19-4 to
19-7). -/
structure Package where
  version : Nat
  svn : Nat
  keySlot : Nat
  part : Nat
  variants : Nat
  minRom : Nat
  images : List Image
  settings : List Setting
  codes : List CodeRow
  /-- section 6: the NAND die table (R172) -/
  dies : List DieRow := []
  length : Nat
  formOk : Bool
  sigOk : Bool
  digestsOk : Bool
deriving DecidableEq, Repr

/-- The code-flash controller besides its registers (chapter 19). Flash contents are words by address / 8, held
exclusive-ored with the erased word of ones. -/
structure CodeFlash where
  host : FlashSeq := {}
  firmware : FlashSeq := {}
  op0 : Option FlashOp := none
  op1 : Option FlashOp := none
  words : NMap := []
  /-- times a record word has been programmed since its erase (R508) -/
  programs : NMap := []
  /-- erase cycles by sector of both banks -/
  erases : NMap := []
  /-- words that an abandoned operation left undefined (R509) -/
  undefined : RSet := []
  /-- the two journal sectors, oldest word first, and the one in use (R511) -/
  journal0 : List JournalWord := []
  journal1 : List JournalWord := []
  journalUse : Nat := 0
  /-- boot record copies, oldest word first (R512) -/
  bootA : List BootWord := []
  bootB : List BootWord := []
  /-- sectors whose check fails, numbered 4,096 × bank + sector (R527) -/
  corrupt : RSet := []
  /-- a start has come since corruption was found (R527) -/
  corruptOld : Bool := false
  /-- the record of module calibration stands in copy A or B (R493): its band-gap value -/
  moduleRec : Option Nat := none
deriving DecidableEq, Repr

/-- A firmware update besides its registers (chapter 19). -/
structure Update where
  /-- the package in each bank, if it holds one that passed its checks -/
  bank0 : Option Package := none
  bank1 : Option Package := none
  /-- the staging bank is marked empty or to be discarded at the next start -/
  discard : Bool := false
  /-- a package that passed its staging checks waits in the staging bank, or is in activation or trial -/
  staged : Bool := false
  /-- the End of the package has come (R518) -/
  ended : Bool := false
  /-- a fallback trigger latched in Confirming (R523) -/
  trigger : Bool := false
  /-- processors that run a new image now, in the order of their hand-over (Table 01-5 numbers 1 to 5) -/
  changed : List Nat := []
  /-- when the last processor of a hand-over reported running, plus one: the next one starts 1 s later (R521); 0 none -/
  handAt : Nat := 0
  /-- the processors still to hand over -/
  left : List Nat := []
  /-- images confirmed and running before the activation -/
  confirmed : List Image := []
  /-- settings blocks: in force, and old copies kept until confirmation -/
  settings : List Setting := []
  kept : List Setting := []
  /-- the kept fields of those blocks, by key -/
  keptRegs : NMap := []
  /-- revoked signing-key slots -/
  revoked : RSet := []
  /-- blocks of 64 KiB of the staging bank erased for this package -/
  erased : RSet := []
  /-- the package goes to a repair of the running one (R527) -/
  repair : Bool := false
  /-- a package staged from ROM recovery waits for its trial (R528) -/
  fromRom : Bool := false
  codeTable : List CodeRow := []
deriving DecidableEq, Repr

/-- What a command sends out of the device: answers, interrupts, packets, DMA. Each command leaves here only its own. -/
inductive Output where
  /-- data of a CXL.mem read: port, tag, the 64 bytes that are not zero, by offset -/
  | memData (port tag : Nat) (data : Memory)
  /-- a read answered with poison -/
  | memPoison (port tag : Nat)
  /-- completion of a CXL.mem write -/
  | memDone (port tag : Nat)
  /-- a mailbox command completes: port, CXL return code, payload words -/
  | reply (port rc : Nat) (words : List Nat)
  /-- a background command completes -/
  | bgDone (port opcode rc : Nat) (words : List Nat)
  /-- MSI-X vector of a port -/
  | msix (port vector : Nat)
  /-- GPF answer of a port: phase 1 or 2 -/
  | gpf (port phase : Nat)
  /-- a DMA write of 32-bit words to host memory -/
  | dmaWrite (port addr : Nat) (words : List Nat)
  /-- the value a register read returns -/
  | regData (who : Requester) (value : Nat)
  /-- a frame with a packet leaves a Daluf port on a plane: 0 sideband, 1 high-rate -/
  | packet (port plane : Nat) (p : Packet)
  /-- a cumulative acknowledge, or a request for replay from a frame, leaves a port on a plane -/
  | linkAck (port plane seq : Nat)
  | linkNak (port plane seq : Nat)
  /-- a value written to a pack over SMBus (a challenge) -/
  | packWrite (pack value : Nat)
  /-- a hc/pu event or charge deadline is signalled to its owner -/
  | signal (owner slot : Nat)
deriving DecidableEq, Repr

end Sys2Proof.Machine
end

