-- ==== Sys2Proof/Machine/Operands.lean ====
section
/-!
DEFINITION. Machine/Operands.lean: the operands that commands carry besides plain numbers: what the device finds, measures or
is sent at one event (assumption 6).
-/

namespace Sys2Proof.Machine

/-- One conversion frame of the analog monitor (R484): the readings of inputs 0 to 47 (mV at the ball, °C for an NTC), their raw
codes, and what the frame shows besides. -/
structure Frame where
  value : List Int
  raw : List Nat
  /-- inputs at either end of their range (R485) -/
  sat : List Nat := []
  /-- shunt charge of each pack port over the frame, in µC; positive is drawn -/
  ucA : Int := 0
  ucB : Int := 0
  /-- die temperature, °C (R487) -/
  die : Int := 25
  /-- NTC inputs that read open or shorted -/
  ntcBad : List Nat := []
  /-- voltage interval formed in this frame for each pack, in ct (R381, R382) -/
  ivA : Option (Nat × Nat) := none
  ivB : Option (Nat × Nat) := none
  /-- internal resistance taken from a current step of this frame, in 0.1 mΩ (R382) -/
  riA : Option Nat := none
  riB : Option Nat := none
  /-- ADCs whose housekeeping check lies outside 5 % -/
  hkBad : List Nat := []
  /-- `VREF_EXT`, mV, as read in its housekeeping slot -/
  vref : Nat := 2500
  /-- occurrences of event codes in this frame, with their values (R474 to R476) -/
  occ : List (Nat × Option Int) := []
deriving DecidableEq, Repr

/-- What the ECC of a DRAM channel finds in one line (R114): nothing, an error corrected in one device, or an uncorrectable one
with the device it points at (15 unknown). -/
inductive Ecc where
  | clean
  | corrected (device : Nat)
  | failing (device : Nat)
deriving DecidableEq, Repr

/-- What a boot step finds (Table 15-5). -/
structure BootFound where
  /-- register fields that the tables mark found, by key -/
  fields : List (Nat × Nat) := []
  /-- B2: the context's check word matches; its layout is one that the image accepts -/
  crcOk : Bool := true
  layoutOk : Bool := true
  /-- B2: unpowered seconds the island counted, plus one; 0 where it could not -/
  unpow : Nat := 0
  /-- B3: kiln-critical macros that failed make the start fail; these processors do not run (B5) -/
  stopped : List Nat := []
  /-- B3, cold: what the full SRAM test repairs, finds without redundancy left, and disables, by macro (R31) -/
  sramField : List Nat := []
  sramSpent : List Nat := []
  sramOff : List Nat := []
  /-- B10: LDPC engines that fail their start self-test (Table 01-9) -/
  badEngines : List Nat := []
  /-- B4: the banks that verify -/
  bank0Ok : Bool := true
  bank1Ok : Bool := true
  /-- B6: deadline slots that fail their test (R47) -/
  cdlFail : Nat := 0
  /-- B6: stored calibration copies that are valid -/
  calOk : Bool := true
  /-- B7: ports whose pack stayed since the last service (warm start) -/
  packsKept : List Nat := []
  /-- B10: known-answer tests; the wrapped copies that unwrap -/
  katOk : Bool := true
  wrapAOk : Bool := true
  wrapBOk : Bool := true
  /-- B2: stored copies of the sequencer's program store that do not read (bit 0 Sentinel, 1 copy A, 2 copy B) -/
  badStore : Nat := 0
  /-- B5: packages that the banks hold, where the model holds none; settings blocks whose migration fails -/
  pkg0 : Option Package := none
  pkg1 : Option Package := none
  migrateFail : List Nat := []
  /-- B6: one of the stored calibration copies is invalid -/
  calOneBad : Bool := false
  /-- B8: the dies found (at a warm start only those of channels whose identities differ); the highest rate at which the interface
  of a channel trains, in 100 MT/s, where it is not 36; channels whose read-training check fails; at the first cold start the
  blocks with their factory marks and the members of the stripe groups; channels that fail -/
  dies : List FoundDie := []
  ifRates : List (Nat × Nat) := []
  ifBad : List Nat := []
  blocks : List (Nat × Nat × Nat × Bool) := []
  groups : List (List (Nat × Nat × Nat)) := []
  deadChans : List Nat := []
  /-- B8: one of the two copies of the records zone does not read -/
  recordsBad : Bool := false
  /-- B11: the highest rate code at which full training of a channel passes, where it is not 9 (0 where none does); the SPD and RCD
  identities of a channel; channels whose quick check fails; the stored training's check word holds; the die temperature; the
  repair of pending rows, by index, where it finds more than a free resource and a verified row: bit 0 no hard repair left in the bank
  group, bit 1 not verified; the retire table passes its check -/
  rates : List (Nat × Nat) := []
  ids : List (Nat × Nat) := []
  eyeBad : List Nat := []
  trainCrcOk : Bool := true
  dieTemp : Int := 0
  repairs : List (Nat × Nat) := []
  retireOk : Bool := true
  /-- B12: `MAIN_IN` stable to Steep Ready, ms -/
  readyMs : Nat := 0
  /-- B10 and B11: manifest slots whose headers pass; directory checkpoints that decode -/
  slot0Ok : Bool := true
  slot1Ok : Bool := true
  ckpt0Ok : Bool := true
  ckpt1Ok : Bool := true
deriving DecidableEq, Repr

/-- What a codeword is read for (Table 07-7): a copy of a host granule by the cellar's own work, the map page of a region, one
copy of a record, a granule of a guest volume. -/
inductive ReadFor where
  | granule (g : Nat)
  | mapPage (region : Nat)
  | records
  | guest (slot g : Nat)
deriving DecidableEq, Repr

/-- One data codeword of a kiln stripe: the DRAM channel (used-channel index) that supplies it and its flash address. -/
structure DrainSlot where
  chan : Nat
  addr : Nat
  /-- the place takes the next log codeword of the stream (R236) -/
  log : Bool := false
deriving DecidableEq, Repr

/-- What the reads of K6 find uncorrectable in the keep region (Table 08-11): 64-byte lines of the heat map, lines of the debt
bitmaps (target, line), and regions whose dirty map page is lost. -/
structure KeepFound where
  heat : List Nat := []
  debt : List (Nat × Nat) := []
  pages : List Nat := []
deriving DecidableEq, Repr

/-- The answer to a Rack Export (Table 12-6): generation, flags, age, and for each granule its status, data and line mask. -/
structure ExportReply where
  gen : Nat
  flags : Nat
  age : Nat
  granules : List (Nat × Memory × LineMask)
deriving DecidableEq, Repr

/-- The address of a register access: a byte offset in BAR2 or BAR4 (Table 03-1), the three bytes of a sideband transfer (R73), or
the register named directly: an offset of a register page, an offset of a slot of the per-queue configuration window. -/
inductive RegAddr where
  | page (page off : Nat)
  | slot (n off : Nat)
  | bar2 (off : Nat)
  | bar4 (off : Nat)
  | bytes (index low high : Nat)
deriving DecidableEq, Repr

/-- What an address reaches (Table 03-1): a register page, a queue's configuration slot, the doorbells of a queue, the steep
bitmap window, the racking export window, or nothing. -/
inductive Place where
  | page (page off : Nat)
  | slot (n off : Nat)
  | bell (q off : Nat)
  | bitmap (off : Nat)
  | rackWin (off : Nat)
  | nothing
deriving DecidableEq, Repr

/-- R56, R73: where an address lands. -/
def RegAddr.place : RegAddr → Place
  | .page p o => .page p o
  | .slot n o => .slot n o
  | .bytes index low high => .page (index % 256) (low % 256 + high % 16 * 256)
  | .bar2 o => if o < 0x400000 then .page (o / 4096) (o % 4096) else .nothing
  | .bar4 o =>
    if o < 0x200000 then .bell (o / 8) (o % 8)
    else if o < 0x400000 then .slot ((o - 0x200000) / 64) (o % 64)
    else if o < 0x800000 then .bitmap (o - 0x400000)
    else if o < 0x900000 then .rackWin (o - 0x800000)
    else .nothing

end Sys2Proof.Machine
end

