-- ==== Sys2Proof/Syntax.lean ====
section
/-!
DEFINITION. Syntax.lean: the commands of the device, one constructor for each row of the table of operations and events. The
operands of a command that stands for an event inside the device carry what the spec leaves to the module, the firmware, the
link or the flash: readings, outcomes, choices (assumption 6). Everything that the spec fixes is computed from the state.
-/

namespace Sys2Proof

open Sys2Proof.Machine

/-- The commands. -/
inductive Instr where
  /-- An AC_SENSE edge that holds for GLITCH µs and falls inside the window is accepted as a mains crossing and ends
  the half-cycle (R34). Operands: 10 ns ticks since the reference point, and the filtered `AC_OK` level then. -/
  | acceptedCrossing (ticks : Nat) (acOk : Bool)
  /-- An edge outside the 0.75 P to 1.25 P window is counted in MISS_CNT.REJECTED and otherwise ignored (R34). -/
  | rejectedCrossing
  /-- With EDGE = 1, a falling crossing is placed at the last rising edge plus P and counted as accepted (R33). -/
  | placedFallingCrossing
  /-- The mean frequency has stayed outside 45–66 Hz for 16 consecutive hc, so lock is lost and the pseudo-mains takes
  over (R35). -/
  | lockLost
  /-- The phase-unit count advances by one every P ÷ 1,024, holding at 1,023 (R36). -/
  | puAdvance
  /-- A 10 ms pseudo-mains half-cycle ends and hc advances (R39). -/
  | pseudoHalfCycleEnd
  /-- 1.25 P passes from the reference point with no crossing, so the half-cycle is declared missing and hc advances
  onto the predicted grid (R36). Operands: the filtered `AC_OK` level then. -/
  | missingHalfCycle (acOk : Bool)
  /-- A one-shot or periodic hc/pu event of the event service reaches its time and fires (R49). Operands: slot of the
  event service. -/
  | scheduledEventFire (slot : Nat)
  /-- AC_OK stays low for 20 µs while EW_ACOK = 1, which raises Early Warning (R41). -/
  | acOkLowTimeout
  /-- Under the pseudo-mains, AC_OK has stayed high for 4 hc, so Early Warning is withdrawn (R43). -/
  | acOkHighTimeout
  /-- A 100 µs ADC conversion frame completes: readings, rail thresholds, shunt integration and the charge clock are
  updated (R484). Operands: what the frame reads. -/
  | conversionFrame (f : Frame)
  /-- CT_DRAWN reaches an armed slot's target, so the slot fires, clears ARMED and sets FIRED (R46). Operands: slot 0
  to 7. -/
  | chargeDeadlineFire (slot : Nat)
  /-- A slot owner arms a charge-deadline slot, clearing FIRED; the slot fires at once if its target is already
  reached (R46). Operands: slot 0 to 7 and target in ct. -/
  | chargeDeadlineArm (slot target : Nat)
  /-- The gauge path has been implausible for 1 s, so the charge clock goes onto its estimate (R393). Operands: pack
  port, 0 A, 1 B. -/
  | gaugePathImplausible (pack : Nat)
  /-- The gauge path is plausible again, and both counts return to the shunt at the next conversion (R45). Operands:
  pack port. -/
  | gaugePathPlausible (pack : Nat)
  /-- The 40-bit operating-seconds count advances by one (R51). -/
  | opsecTick
  /-- A read of a _LO register latches the matching _HI register for the next read by the same requester (R58).
  Operands: requester, address, bytes read. -/
  | readLoLatch (who : Requester) (a : RegAddr) (size : Nat)
  /-- A write to register fields that have no row of their own is applied, staged or rejected by change class, lock,
  kind and access path (R9). Operands: requester, register, bytes written and their value. -/
  | registerWrite (who : Requester) (a : RegAddr) (size value : Nat)
  /-- A write of PAGE_CTRL.COMMIT sets COMMIT_PENDING and asks for staged fields to apply at the next safe point
  (R65). Operands: requester and page index. -/
  | commit (who : Requester) (page : Nat)
  /-- A block reaches its safe point and applies every staged write of the page in one step, with any page-specific
  checks (R65). Operands: page index. -/
  | safePointCommitApply (page : Nat)
  /-- A block is halted, returned to its reset configuration, cleared of faults and restarted (R67). Operands:
  requester and page index. -/
  | softReset (who : Requester) (page : Nat)
  /-- A write that clears PAGE_CTRL.ENABLE asks the block to finish its granule or step and halt (R64). Operands:
  requester and page index. -/
  | enableClear (who : Requester) (page : Nat)
  /-- The block finishes its work in progress and halts, RUNNING clears, and any pending commit applies (R64).
  Operands: page index. -/
  | blockHalt (page : Nat)
  /-- A write that sets ENABLE starts the block on its current field values (R64). Operands: requester and page index. -/
  | enableSet (who : Requester) (page : Nat)
  /-- A W1C write ends a fault latch without releasing its source (R454). Operands: requester, page index, bits
  written with 1. -/
  | fltStatClear (who : Requester) (page mask : Nat)
  /-- A write of 1 to a FLT_FORCE bit drives the detector's test path, or is ignored (R461). Operands: requester, page
  index, fault bit, and whether the detector answers at once. -/
  | faultInject (who : Requester) (page bit : Nat) (seen : Bool)
  /-- Setting LOCK.LOCKED makes the page's RW fields ignore writes until the next start (R70). Operands: requester and
  page index. -/
  | pageLock (who : Requester) (page : Nat)
  /-- A sideband write of ID.MAINT_UNLOCK opens maintenance access if strap and key are right, closes it on 0, and
  changes the nonce (R71). Operands: requester, level of the `MAINT` strap then, value written. -/
  | maintUnlock (who : Requester) (strap : Bool) (value : Nat)
  /-- Maintenance access closes after 30 min with no sideband write (R71). -/
  | maintIdleTimeout
  /-- The MAINT strap goes low, so maintenance access closes (R71). -/
  | maintStrapLow
  /-- A host CXL.mem write is decoded, its granule is marked dirty, its line mask is set if unfilled, and it is
  accepted by the DRAM channel and completed (R11). Operands: host port, request tag, 64-byte line of the DPA
  space, occupancy of the request queue in per cent, bytes written by offset in the line, host data poison,
  whether the granule's set of the line-mask table is full, what the ECC finds where a part of a line is merged. -/
  | hostWrite (port tag line load : Nat) (bytes : List (Nat × Byte)) (poison setFull : Bool) (ecc : Ecc)
  /-- A host CXL.mem read is served from DRAM, or held for a demand fill when its granule is unfilled (R264).
  Operands: as HOST_WRITE. -/
  | hostRead (port tag line load : Nat) (ecc : Ecc)
  /-- A host port completes training at the highest allowed rate and width and latches a degraded-link fault if it
  trained below the limit (R81). Operands: host port, what the partner allows by the codes of LINK_STAT,
  256-byte flit mode, CXL negotiated, correctable errors and flit replays since the last training, and whether an
  uncorrectable link error was among them (Table 04-11). -/
  | linkTrained (port width rate : Nat) (flit256 cxl : Bool) (corr replay : Nat) (bad : Bool)
  /-- A conventional or hot reset, or HPx_PERST_N assertion in P0–P2, resets one port's configuration, decoders and
  mailbox (R82). Operands: host port, and whether the pin is the cause. -/
  | portReset (port : Nat) (perst : Bool)
  /-- A host link goes down, latching the unexpected-link-down fault unless a kiln, a reset or ENABLE caused it (R82).
  Operands: host port. -/
  | linkDown (port : Nat)
  /-- An HDM decoder commit is accepted, or refused if it maps DPA outside the port's slice (R84). Operands: host
  port, decoder, the DPA range it would map in units of 256 MiB, interleave ways and granularity in bytes. -/
  | decoderCommit (port n base size ways gran : Nat)
  /-- A port answers GPF Phase 1 at once (R90). Operands: host port. -/
  | gpfPhase1 (port : Nat)
  /-- A GPF Phase 2 request arrives and waits for the earlier writes to be accepted (R90). Operands: host port. -/
  | gpfPhase2Request (port : Nat)
  /-- Every earlier write has been accepted, so Phase 2 completes; in a kiln this can end K2 (R90). Operands: host
  port. -/
  | gpfPhase2Done (port : Nat)
  /-- A port reaches its K2 window without Phase 2 or link-down, so it sets P2_LATE and latches its fault (R92).
  Operands: host port. -/
  | gpfWindowExpired (port : Nat)
  /-- A mailbox command has waited 1 s, so the mailbox-timeout fault bit latches (R105). Operands: host port. -/
  | mailboxTimeout (port : Nat)
  /-- The mailbox command returns device identity and capacity rounded to 256 MiB (R83). Operands: host port. -/
  | identify (port : Nat)
  /-- The mailbox command returns the health fields of Table 04-7 (R101). Operands: host port. -/
  | getHealthInfo (port : Nat)
  /-- The mailbox command returns event records from a log (R95). Operands: host port, and log 0 Informational, 1
  Warning, 2 Failure, 3 Fatal. -/
  | getEventRecords (port log : Nat)
  /-- The mailbox command clears event records from a log (R95). Operands: host port, log, all of it, or the handles
  of its oldest records. -/
  | clearEventRecords (port log : Nat) (all : Bool) (handles : List Nat)
  /-- The mailbox command returns the supported logs (R103). Operands: host port. -/
  | getSupportedLogs (port : Nat)
  /-- The mailbox command returns a log (R103). Operands: host port. -/
  | getLog (port : Nat)
  /-- The mailbox command returns the two firmware slots (R80). Operands: host port. -/
  | getFwInfo (port : Nat)
  /-- The mailbox command returns the device timestamp (R80). Operands: host port. -/
  | getTimestamp (port : Nat)
  /-- The host sets the time; before Steep Ready it supplies the unpowered interval to the cellar (R201). Operands:
  host port and time in seconds. -/
  | setTimestamp (port seconds : Nat)
  /-- The mailbox command returns the alert configuration (R80). Operands: host port. -/
  | getAlertConfiguration (port : Nat)
  /-- The mailbox command sets the alert configuration (R80). Operands: host port and thresholds. -/
  | setAlertConfiguration (port : Nat) (limits : List Nat)
  /-- The host sets the shutdown state, which does not stop the dirty shutdown count after an unsealed stop (R100).
  Operands: host port and state. -/
  | setShutdownState (port value : Nat)
  /-- A background scan reads the DRAM range through ECC at patrol rank (R80). Operands: host port, first granule,
  granules, and what the ECC finds in the lines that do not read clean. -/
  | scanMedia (port base n : Nat) (found : List (Nat × Ecc))
  /-- The mailbox command returns the port's poison-list entries (R97). Operands: host port, first granule, granules. -/
  | getPoisonList (port base n : Nat)
  /-- A line is marked poisoned as a host-data-poison write would mark it (R98). Operands: host port, line of the DPA
  space, whether the granule's set of the line-mask table is full. -/
  | injectPoison (port line : Nat) (setFull : Bool)
  /-- The supplied 64 bytes are written, the line's poison is cleared and the granule is marked dirty (R98). Operands:
  host port, line, its 64 bytes, and setFull as INJECT_POISON. -/
  | clearPoison (port line : Nat) (bytes : List Byte) (setFull : Bool)
  /-- A background command destroys the cask key, sets every map entry to STATE 0, zeroes DRAM and advances KEY_EPOCH
  (R209). Operands: host port. -/
  | sanitize (port : Nat)
  /-- A background command erases as Sanitize does (R209). Operands: host port. -/
  | secureErase (port : Nat)
  /-- All four sanitize actions are done, and the background command completes (R209). Operands: host port whose
  background command ends. -/
  | sanitizeComplete (port : Nat)
  /-- Vendor 0xC000 returns copies of the ID and CAP pages (R104). Operands: host port. -/
  | getCorirvoInfo (port : Nat)
  /-- Vendor 0xC001 returns PST and the last previous-epoch report (R104). Operands: host port. -/
  | getPersistenceReport (port : Nat)
  /-- Vendor 0xC002 changes the two port slices, or is rejected (R85). Operands: host port, and the two slices in
  units of 256 MiB. -/
  | setPartition (port aBase aSize bBase bSize : Nat)
  /-- Vendor 0xC010 starts a kiln with trigger 3 and optional P3 consent (R224). Operands: host port, consent to P3,
  group kiln message. -/
  | plannedKiln (port : Nat) (p3 group : Bool)
  /-- Vendor 0xC020 unwraps the cask key with the host key, or fails and backs off (R207). Operands: host port and
  host key. -/
  | caskUnlock (port key : Nat)
  /-- Vendor 0xC021 rewraps the cask key under a new host key in both records slots (R208). Operands: host port,
  current key, new key (0 leaves sealed mode), and whether power lasts to the second write. -/
  | setCaskHostKey (port current new : Nat) (second : Bool)
  /-- Vendor 0xC040 returns trouble-log entries from a first SEQNO (R473). Operands: host port, source 0 live or 1
  snapshot, first SEQNO, and the SEQNOs of live entries whose parity fails. -/
  | readTroubleLog (port src first : Nat) (bad : List Nat)
  /-- Vendor 0xC041 returns allocated recorder slots, each copied whole (R479). Operands: host port and first slot. -/
  | readEventRecorder (port first : Nat)
  /-- Vendor 0xC050 reads granules of a guest volume into the export window, locally or over the fabric (R369).
  Operands: host port, EUI of the holding device (0 this one), EUI of the owner, first granule, granules, and
  what the fabric brings from another device. -/
  | rackExport (port target owner granule count : Nat) (remote : Option ExportReply)
  /-- Vendor 0xC030 programs one package block at offset RECEIVED into the staging bank (R517). Operands: host port,
  offset, length and bytes of the block, and whether it programs and verifies. -/
  | brewTransfer (port off len : Nat) (data : Memory) (ok : Bool)
  /-- Update Control action 0 returns the update status (R516). Operands: host port. -/
  | updateStatus (port : Nat)
  /-- Update Control action 1 takes the update lock and enters Receiving (R516). Operands: host port and LENGTH. -/
  | updateStart (port len : Nat)
  /-- Update Control action 2 starts online activation if ST4, Ready and Normal hold (R524). Operands: host port. -/
  | updateActivate (port : Nat)
  /-- Update Control action 3 writes a trial boot-record word for the staged bank (R524). Operands: host port. -/
  | updateActivateAtReset (port : Nat)
  /-- Update Control action 4 ends the update and discards the staging bank, or triggers fallback in Confirming
  (R516). Operands: host port. -/
  | updateAbort (port : Nat)
  /-- CXL Transfer FW Initiate acts as START (R516). Operands: host port. -/
  | transferFwInitiate (port : Nat)
  /-- CXL Transfer FW Continue adds one block (R517). Operands: as BREW_TRANSFER. -/
  | transferFwContinue (port off len : Nat) (data : Memory) (ok : Bool)
  /-- CXL Transfer FW End starts verification of the staged package (R518). Operands: host port. -/
  | transferFwEnd (port : Nat)
  /-- CXL Transfer FW Abort acts as ABORT (R516). Operands: host port. -/
  | transferFwAbort (port : Nat)
  /-- CXL Transfer FW Full is START, one block and End together (R516). Operands: host port, length and bytes of the
  package, and whether they program and verify. -/
  | transferFwFull (port len : Nat) (data : Memory) (ok : Bool)
  /-- CXL Activate FW with online activation acts as ACTIVATE (R524). Operands: host port. -/
  | activateFwOnline (port : Nat)
  /-- CXL Activate FW with reset activation acts as ACTIVATE_AT_RESET (R524). Operands: host port. -/
  | activateFwReset (port : Nat)
  /-- Each hc, a DRAM channel reads STEP granules through ECC at rank 9 (R118). Operands: DRAM channel, and what the
  ECC finds in the lines of this step that do not read clean. -/
  | patrolStep (chan : Nat) (found : List (Nat × Ecc))
  /-- A patrol pass has not completed within 1.25 × HOURS, so the overdue fault bit latches (R118). Operands: DRAM
  channel. -/
  | patrolOverdue (chan : Nat)
  /-- A retire copy finishes, the retire-table entry switches in one step and the region's retire summary bit is set
  (R119). Operands: granule whose copy ends, and what the ECC finds in its lines that do not read clean. -/
  | retireCopyDone (granule : Nat) (found : List (Nat × Ecc))
  /-- A device-sparing copy rewrites one more granule of the rank into the spared layout (R123).
  Operands: what the ECC finds in its lines that do not read clean. -/
  | sparingCopyStep (found : List (Nat × Ecc))
  /-- A rank does not acknowledge shed entry within 10 µs, so it stays active and latches the shed fault bit (R129).
  Operands: used channel and rank. -/
  | rankShedTimeout (chan rank : Nat)
  /-- The 10 min period ends and a scrub pass of the dirty bitmap starts, or waits for the running pass (R138). -/
  | dirtyScrubStart
  /-- A scrub pass ends, compares its tallies with D and the rank counts, and corrects any mismatch (R138). Operands:
  regions whose bitmap line met an uncorrectable error. -/
  | dirtyScrubEnd (bad : List Nat) (vol : Option Bool)
  /-- A heat epoch ends and the sweeper decays, increments and clears TOUCHED in every region (R139). Operands:
  64-byte lines of the heat map that met an uncorrectable error. -/
  | heatEpochEnd (bad : List Nat)
  /-- Every 1 ms the budget unit computes B and updates PST with its reason bits (R148). -/
  | budgetCompute
  /-- Every 10 s SAFETY recomputes the bound along a separate path and clamps B on a mismatch (R149). -/
  | safeBoundCheck
  /-- A write of BUD.HOST_ENERGY on the KNM-1608-E restarts the 24 h expiry and the drawn-charge mark (R147).
  Operands: requester, value written. -/
  | hostEnergyWrite (who : Requester) (ct : Nat)
  /-- 24 h pass since the last HOST_ENERGY write, so E becomes 0 and the expiry fault bit latches (R147). -/
  | hostEnergyExpired
  /-- Every 1 ms the wither engine commands a copy rate and state transitions are evaluated (R154). Operands: copies
  that higher-ranked work lets begin, and whether the cellar gives image-zone space. -/
  | witherTick (n : Nat) (space : Bool)
  /-- A wither or fence copy finishes its read phase and is discarded as torn if WR_READ is set (R160). Operands:
  granule, flash address its copy goes to, what the ECC finds in its lines that do not read clean, and the LDPC engines
  that failed the re-check of its codeword before one passed (R29). -/
  | copyReadDone (granule addr : Nat) (found : List (Nat × Ecc)) (bad : List Nat)
  /-- A stripe's parity programs, the map walker commits its granules' entries and clears dirty bits whose WR_PROG is
  clear (R161). Operands: granules of the stripe. -/
  | mapCommit (granules : List Nat)
  /-- A stripe not full 1 ms after its first page was programmed is closed with padding (R175). Operands: flash
  addresses that take padding. -/
  | stripeCloseTimeout (addrs : List Nat)
  /-- Hourly, or on a LIFE_DAYS change, the wither engine recomputes the daily wear allowance A (R156). -/
  | wearAllowanceRecompute
  /-- Hourly, the cellar recomputes WA and R_END (R196). -/
  | enduranceRecompute
  /-- A NAND read returns and the codeword is decoded, retried, or rebuilt on the read ladder (R185). Operands: flash
  address, step of the ladder that yields the codeword (above 9: none), and what it is read for. -/
  | codewordReadDone (addr step errs : Nat) (what : ReadFor)
  /-- A NAND program fails, so the block is retired and the wordline's granules are retried elsewhere (R198).
  Operands: block, page, and the granules of the failed wordline. -/
  | nandProgramFail (chan die blk page : Nat) (granules : List Nat)
  /-- A NAND erase completes; a kiln-zone failure substitutes a block or group (R189). Operands: stripe group, and its
  blocks (channel, die, block) whose erase failed. -/
  | nandEraseDone (group : Nat) (failed : List (Nat × Nat × Nat))
  /-- A die does not answer status for 1 s or fails 16 operations in a row, so it is retired (R199). Operands: NAND
  channel and die. -/
  | dieTimeout (chan die : Nat)
  /-- No die on a NAND channel answers for 5 s, so the channel is declared dead (R199). Operands: NAND channel. -/
  | channelDead (chan : Nat)
  /-- A dirty map page is written and its directory delta logged, with a checkpoint every 1,048,576 deltas (R181).
  Operands: region, and flash address of its map page. -/
  | mapFlushDone (region addr : Nat)
  /-- Every SCRUB_H hours, loaded map pages are checked for corrupt entries (R184). Operands: granules whose entries
  the pass finds corrupt besides those the state shows. -/
  | mapScrub (bad : List Nat)
  /-- Garbage collection moves the current copies of the least-valid group and erases it (R194). Operands: granule,
  flash address its copy moves to, step of the read ladder. -/
  | garbageCollectMove (what : ReadFor) (addr step : Nat)
  /-- Hourly, the cellar compares life-used spread and moves the coldest group if it exceeds WL_SPREAD_PCT (R195).
  Operands: flash addresses of the next free positions. -/
  | wearLevelCheck (addrs : List Nat)
  /-- The fold moves one kiln-zone copy into the image zone, and an emptied group is erased back into Z (R191).
  Operands: as GARBAGE_COLLECT_MOVE. -/
  | foldMoveCommit (granule addr step : Nat)
  /-- Patrol reads programmed pages spread over the hc grid and applies refresh or Table 07-7 (R204). Operands:
  progress of the pass, and address, step and purpose of the codewords that need more than the first step. -/
  | flashPatrolStep (pct : Nat) (found : List (Nat × Nat × Nat × ReadFor))
  /-- A flash patrol pass does not finish within 1.25 × PATROL_DAYS (R204). -/
  | flashPatrolOverdue
  /-- The threshold-0 comparator trips with MAIN_IN below FAIL_MV: kiln trigger 1, or POWER_DOWN while Disarmed
  (R222). -/
  | mainInFail
  /-- MAIN_IN falls below WARN_MV, so the kiln controller becomes Primed (R218). -/
  | mainInWarn
  /-- Early Warning is withdrawn and MAIN_IN is good for 4 hc, so Primed returns to Ready (R218). -/
  | primedClear
  /-- Early Warning stands for EW_HC consecutive hc, so kiln trigger 2 starts K0 (R222). -/
  | ewEscalation
  /-- 50 µs into K1 the pack path is not confirmed, so the pack-path fault latches and the kiln continues (R230). -/
  | packPathTimeout
  /-- In-flight map commits complete, D_K3 and rank counts are frozen, and K4 begins (R231). -/
  | kilnSnapshotDone
  /-- K4 shedding is complete, CDL2 is armed and the drain begins (R233). -/
  | kilnShedDone
  /-- A kiln stripe programs with parity: its granules are safe, logged and cleared, ranks may shed and triage is
  projected (R232). Operands: data codewords of the stripe in order, what the ECC finds in the lines of their
  DRAM reads that do not read clean, granules whose flash copy a merge cannot read, and the LDPC engines that failed a re-check
  (R29). -/
  | kilnStripeProgrammed (slots : List DrainSlot) (ue : List (Nat × Ecc)) (unread bad : List Nat)
  /-- K5 ends on drain completion, capacity exhaustion, the abort floor or lost rails, and CDL3 is armed (R240).
  Operands: reason: 0 drained, 1 capacity, 2 abort floor, 3 rails lost. -/
  | drainComplete (reason : Nat)
  /-- K6 writes sections and headers, and the cask is sealed at the first header that reads back, or is unsealed
  (R245). Operands: which headers read back, whether a codeword was rewritten or one copy failed, whether a
  section failed in both copies, and what K6 found uncorrectable. -/
  | sealComplete (hdrA hdrB rewritten secLost : Bool) (found : KeepFound)
  /-- K7 completes, then P3, a warm start or Off follows (R249). -/
  | kilnPowerDownDone
  /-- Power stays good through the 4 hc debounce in K0–K2, so the kiln is cancelled (R248). -/
  | kilnCancel
  /-- A kiln phase exceeds its time allotment and latches the time-overrun fault (R227). -/
  | phaseTimeOverrun
  /-- The hold-up bus collapses during a kiln, which is an unsealed stop (R554). Operands: the CONTROL supplies left
  their tolerance. -/
  | holdupCollapse (control : Bool)
  /-- The readiness self-test runs at Steep Ready, every 24 h or on KLN.CTRL.SELFTEST (R221). Operands: outcomes of
  the comparator test, of the check word of KILN_SHED, and of that of the ROM kiln image. -/
  | kilnSelftest (cmpOk shedOk romOk : Bool)
  /-- A write of KLN.CTRL.ARM arms the kiln, or disarms it under maintenance access and sets PNG_DIAG (R220).
  Operands: requester, and the value of ARM. -/
  | kilnArmWrite (who : Requester) (on : Bool)
  /-- MAIN_IN and the CONTROL supplies hold for 20 ms, so boot step B1 begins (R539). -/
  | mainInStable
  /-- A boot step completes and the next steps of Table 15-5 start (R435). Operands: step 1 to 12, whether its work
  could be done, the fault source that is its cause where not, its duration, what it finds. -/
  | bootStepDone (n : Nat) (ok : Bool) (cause ms : Nat) (found : BootFound)
  /-- BULK_DELAY elapses with BULK_EN = 1, so the steep enters ST3 (R257). -/
  | bulkDelayElapsed
  /-- A demand fill writes the unmasked lines, clears the steep bit and answers its held reads (R267). Operands:
  granule, ladder steps of the map page (where it is to be loaded) and of the codeword, latency in µs, and the µs for which a
  program or erase keeps the codeword's die busy (R270). -/
  | demandFillDone (granule mapStep step us busy : Nat)
  /-- A held read reaches its ceiling and is answered with poison while the fill continues (R269). Operands: port and
  tag of the held read or write. -/
  | fillCeiling (port tag : Nat)
  /-- A bulk-steep granule fill completes and the next region is chosen (R275). Operands: ladder steps of the map page
  (where it is to be loaded) and of the codeword, µs for which its die is busy (R270). -/
  | bulkFillDone (mapStep step busy : Nat)
  /-- A doorbell write sets a queue's SQ tail, or faults the queue if out of range (R289). Operands: writing port,
  queue, SQ tail. -/
  | sqDoorbell (port q tail : Nat)
  /-- A doorbell write sets a queue's CQ head, releasing held completions (R289). Operands: writing port, queue, CQ
  head. -/
  | cqDoorbell (port q head : Nat)
  /-- Setting CTRL.EN enables a queue, zeroes its pointers and sets its owner (R291). Operands: writing port, queue. -/
  | queueEnable (port q : Nat)
  /-- Clearing CTRL.EN stops fetching and aborts running commands with progress (R291). Operands: writing port, queue. -/
  | queueDisable (port q : Nat)
  /-- A descriptor fetched by arbitration arrives and is validated and started (R292). Operands: its 16 words. -/
  | descriptorFetch (words : List Nat)
  /-- A failed descriptor fetch or completion write faults the queue (R312). Operands: queue; 0 descriptor fetch, 1
  completion write, 2 queue context. -/
  | dmaFailure (q kind : Nat)
  /-- The persist command does nothing and completes (R297). Operands: queue, command. -/
  | nop (q cid : Nat)
  /-- The persist command copies every dirty granule of its range through the wither path at rank 3 (R299). Operands:
  queue, command, copies begun at most. -/
  | fenceDurable (q cid n : Nat)
  /-- The persist command sends the owed regions of its range to the selected targets (R306). Operands: queue,
  command. -/
  | rack (q cid : Nat)
  /-- The persist command waits until targets acknowledge the owed regions of its range (R367). Operands: queue,
  command. -/
  | rackFence (q cid : Nat)
  /-- The persist command copies granules within the device and marks the destinations dirty (R302). Operands: queue,
  command, granules at most, what ECC finds by source line, destination granules whose line-mask set is full (R273). -/
  | copy (q cid n : Nat) (found : List (Nat × Ecc)) (full : List Nat)
  /-- The persist command writes zeros over its range (R302). Operands: queue, command, granules at most, granules whose
  line-mask set is full (R273). -/
  | zero (q cid n : Nat) (full : List Nat)
  /-- The persist command sets or removes the kiln priority class of its regions (R304). Operands: queue, command. -/
  | pin (q cid : Nat)
  /-- The persist command sets heat levels and queues regions for bulk steep (R305). Operands: queue, command, regions
  at most. -/
  | heatHint (q cid n : Nat)
  /-- The persist command cleans granules without saving them, optionally releasing their map entries (R303).
  Operands: queue, command, granules at most. -/
  | discard (q cid n : Nat)
  /-- The persist command makes its range volatile or persistent in one step (R305). Operands: queue, command. -/
  | volatileSet (q cid : Nat)
  /-- The persist command walks its range and writes a 64-byte result record by DMA (R307). Operands: queue, command,
  whether the result write succeeds. -/
  | query (q cid : Nat) (ok : Bool)
  /-- A persist command ends and its completion is written at the CQ tail or held for room (R295). Operands: queue,
  command, µs from start to completion. -/
  | commandComplete (q cid us : Nat)
  /-- COAL.US passes since the first pending completion, so the vector is raised (R296). Operands: port, vector. -/
  | coalesceTimeout (port vec : Nat)
  /-- Completions have been held for 1 s, so the CQ-full fault latches (R295). Operands: queue. -/
  | cqFullTimeout (q : Nat)
  /-- A chain has waited 1 s for its next descriptor, so it completes with CHAIN_ERROR (R293). Operands: queue. -/
  | chainTimeout (q : Nat)
  /-- A write of 1 to INT_CTRL.VALID discards the interrupted-command record (R310). Operands: writing port, queue. -/
  | intRecordDiscard (port q : Nat)
  /-- Every 10 ms a port sends a hello on its sideband (R320). Operands: Daluf port. -/
  | helloTx (port : Nat)
  /-- A hello is received and moves the port from Down to Sideband or toward Training (R320). Operands: Daluf port,
  the hello. -/
  | helloRx (port : Nat) (p : Packet)
  /-- Three consecutive hellos are missed, so the port goes Down and an LSA is flooded (R319). Operands: Daluf port. -/
  | hellosMissed (port : Nat)
  /-- High-rate training ends with 2 or more good lanes, so the port is Up and exchanges the database (R319).
  Operands: Daluf port, lanes that fail (bit 4: the spare). -/
  | trainingDone (port bad : Nat)
  /-- Training does not succeed in 10 ms, so the port returns to Sideband and retries after 1 s (R319). Operands:
  Daluf port. -/
  | trainingTimeout (port : Nat)
  /-- A lane exceeds the error limit and is mapped onto the spare or dropped (R317). Operands: Daluf port, lane 0 to
  4, -log10 of its symbol error rate. -/
  | laneFail (port lane exp : Nat)
  /-- A link frame is received, acknowledged, or discarded with a replay request (R318). Operands: Daluf port, plane
  (0 sideband, 1 high-rate), 0 frame 1 acknowledge 2 replay request, link sequence number, whether its CRC-32
  matches. -/
  | linkFrameRx (port plane kind seq : Nat) (crcOk : Bool)
  /-- A retrain after 8 replays does not complete in 10 ms, so the link goes down and its buffer is discarded (R318).
  Operands: Daluf port. -/
  | replayRetrainTimeout (port : Nat)
  /-- A fabric packet is received, checked, forwarded, flooded or delivered by type (R322). Operands: Daluf port,
  plane, packet. -/
  | packetRx (port plane : Nat) (p : Packet)
  /-- Every 30 s a device floods its LSA, dormant or not (R329). -/
  | lsaPeriodic
  /-- 120 s pass without an LSA from an EUI, so it is removed and its number freed (R329). Operands: originator. -/
  | lsaAgeOut (eui : Nat)
  /-- 250 ms pass alone or without conflict, so the number claim advances (R326). -/
  | claimWindowEnd
  /-- FABRIC finishes a shortest-path computation and installs the route table in one step (R332). Operands: ms since
  the LSA that triggered the computation. -/
  | routeInstall (ms : Nat)
  /-- A route computation is still pending 200 ms after its LSA, so the convergence fault latches (R333). -/
  | convergenceTimeout
  /-- An alarm summary is sent to each reachable collector on a change, a fault or the period (R338). Operands: 0
  state change, 1 fault, 2 period. -/
  | alarmSummaryTx (kind : Nat)
  /-- DLFn_PHFLT reports overcurrent, so the feed is switched off and retried after 1 s (R321). Operands: Daluf port. -/
  | phantomOvercurrent (port : Nat)
  /-- An eligible owed region starts a send of REGION_BEGIN, DATA, POISON and REGION_END (R355). Operands: target,
  region, what ECC finds by line. -/
  | rackSendStart (target region : Nat) (found : List (Nat × Ecc))
  /-- No ACK arrives within ACK_TIMEOUT_MS, so the region is resent, or a second timeout suspends the target (R359).
  Operands: target and region of the send. -/
  | ackTimeout (target region : Nat)
  /-- The 1 s or 60 s retry period ends and OPEN is sent again (R365). Operands: target. -/
  | rackOpenRetry (target : Nat)
  /-- The guest map page and volume-directory delta are written, and ACK status 0 is sent (R358). Operands: guest
  volume and source region. -/
  | guestRegionCommit (slot region : Nat)
  /-- GUEST_CMD.RELEASE frees the selected orphaned guest volume, or is rejected (R363). Operands: requester that sets
  GUEST_CMD.RELEASE. -/
  | guestRelease (who : Requester)
  /-- PRES_N stays low for 100 ms, so the pack goes to Identifying (R375). Operands: pack port. -/
  | packInserted (port : Nat)
  /-- Identity reads complete or time out after 1 s, so the pack goes to Authenticating or Uncounted (R375). Operands:
  pack port, whether the pack answered, and what it reports: serial, chemistry, cell count. -/
  | packIdentified (port : Nat) (answered : Bool) (serial chem : Nat) (cells4 : Bool)
  /-- PRES_N high for 100 ms, or low voltage or open taps for 2 s, removes the pack and its E_p (R376). Operands: pack
  port. -/
  | packRemoved (port : Nat)
  /-- The pack's HMAC response arrives or times out, so authentication passes, retries or fails (R378). Operands: pack
  port, whether the response came in time and is the expected one. -/
  | authResponse (port : Nat) (answer : Option Nat)
  /-- Authentication starts on AUTH.RUN or every 24 h (R378). Operands: requester, pack port, whether it is the 24 h
  check. -/
  | authRun (who : Requester) (port : Nat) (daily : Bool)
  /-- A write of AUTH.OVERRIDE counts an unauthenticated pack and puts the override in force (R379). Operands:
  requester, pack port, value of OVERRIDE. -/
  | authOverrideWrite (who : Requester) (port value : Nat)
  /-- The pack current stays below 0.02 C for REST_MIN, so a rest correction updates Q_cc and U (R381). Operands: pack
  port, interval from the open-circuit voltages in ct. -/
  | packAtRest (port lo hi : Nat)
  /-- Q_cc lies more than 3 % outside the voltage interval for 60 s, so a relearn is scheduled (R384). Operands: pack
  port. -/
  | gaugeDisagree (port : Nat)
  /-- GAU.CTRL.RELEARN schedules a relearn (R384). Operands: requester. -/
  | relearn (who : Requester)
  /-- 72 h pass without a rest correction, so a rest window opens or U widens (R383). Operands: pack port. -/
  | noRest72h (port : Nat)
  /-- A rest window ends after REST_MIN + 5 min or on Early Warning (R383). -/
  | restWindowEnd
  /-- The pack is put onto the hold-up bus for the switchover test at a start or every 24 h (R390). Operands: pack
  port. -/
  | switchoverTest (port : Nat)
  /-- The hourly pulse test measures Ri and checks the kiln voltage margin (R390). Operands: pack port. -/
  | pulseTest (port : Nat)
  /-- A pack test ends, or its slot fires, and its pass or fail sets or clears UNCOUNT bits (R390). Operands: pack
  port; switchover: µs to confirmation (0 none); pulse: current step in mA, Ri in 0.1 mΩ, cell voltage at
  Q_floor in mV. -/
  | packTestDone (port us ma ri vFloor : Nat)
  /-- TEST.DISCHARGE starts a test discharge of one pack (R391). Operands: requester, pack port. -/
  | testDischarge (who : Requester) (port : Nat)
  /-- A cell reaches its over-voltage limit, so the charger is switched off within 10 ms (R394). Operands: pack port. -/
  | cellOvervoltage (port : Nat)
  /-- Low charge current for 60 s, or current returned while disabled for 10 s, latches the charger fault (R394).
  Operands: pack port; 0 low current for 60 s, 1 current returned while disabled for 10 s. -/
  | chargerFaultTimeout (port kind : Nat)
  /-- SAFETY starts a sequencer program at the moment that the power state, kiln or start calls for (R410). Operands:
  program number, whether its check before the run holds. -/
  | seqProgramStart (n : Nat) (crcOk : Bool)
  /-- A WAIT_US, WAIT_HC or WAIT_CT step completes and the program moves on (R407). -/
  | seqWaitDone
  /-- A CHECK_UP or CHECK_DOWN step sees its rails reach the goal and moves on (R407). -/
  | seqCheckDone
  /-- A check times out, setting the flag and failing or continuing the program (R412). -/
  | seqCheckTimeout
  /-- SEQSYNC is seen high for 2 µs at a SYNC step, so the sequencer advances (R416). -/
  | syncAdvance
  /-- A SYNC step times out and fails the program or goes on solo (R416). -/
  | syncTimeout
  /-- A program has run for 60 s, so the overrun fault latches (R408). -/
  | programOverrun
  /-- MAIN_IN stays below COLLAPSE.MV for 2 µs outside a kiln, so the non-kiln enables are released (R415). -/
  | inputCollapse
  /-- No kiln starts within 1 ms of a collapse, so the remaining enables are cleared as in force off (R415). -/
  | collapseNoKilnTimeout
  /-- A margin write under maintenance access sets a rail margin target (R417). Operands: requester, the 7-bit value
  written. -/
  | railMarginWrite (who : Requester) (pct10 : Nat)
  /-- At pu 384 of each hc, the trim duty moves one step toward the margin (R417). -/
  | marginStep
  /-- CNT_CLEAR.RAIL clears the selected rail's counters under maintenance access (R406). Operands: requester. -/
  | cntClearRail (who : Requester)
  /-- CNT_CLEAR.ALL clears every rail's counters under maintenance access (R406). Operands: requester. -/
  | cntClearAll (who : Requester)
  /-- Hourly, the rail counters are written to the code-flash record region (R406). -/
  | railCounterSave
  /-- A read or write of SQP.DATA accesses the staged store and advances ADDR (R423). Operands: requester, the word
  written (none: a read). -/
  | sqpDataAccess (who : Requester) (write : Option Nat)
  /-- MR_N is released; a short press raises an operator event or wakes the device (R419). Operands: length of the
  press in ms. -/
  | mrNPressRelease (ms : Nat)
  /-- MR_N reaches 4 s held, giving kiln trigger 5 if enabled (R419). -/
  | mrNHold4s
  /-- MR_N reaches 12 s held, so enables are cleared in reverse order and the pack paths open (R421). -/
  | forceOff
  /-- The dwell of P1 or P2 is met and the device enters the deepest permitted rest (R429). Operands: whether the
  conditions of P1, and of P2, have held for its dwell. -/
  | restDwellMet (p1 p2 : Bool)
  /-- An exit event takes the device out of P1 or P2 to P0 (R431). -/
  | restExitEvent
  /-- The exit completes, and an overrun latches the exit-overrun fault (R431). Operands: length of the exit in µs. -/
  | restExitDone (us : Nat)
  /-- The patrol would fall behind, so the device leaves P2 (R432). -/
  | patrolCatchup
  /-- A rising edge of HPx_PERST_N in P3 starts the device if enabled and MAIN_IN is good (R433). Operands: host port. -/
  | perstWake (port : Nat)
  /-- SNT.RTC reaches WAKE_AT with TIMER enabled, so the device starts from P3 (R433). -/
  | timerWake
  /-- MAIN_IN is lost in P3, so the device enters P4 and opens the pack paths (R427). -/
  | mainInLostP3
  /-- B12 is not reached within 60 s of MAIN_IN stable, so the start fails (R438). -/
  | startTimeout
  /-- 1 s after a failed start, the device starts again if MAIN_IN is good (R438). -/
  | startRetry
  /-- SNT.CTRL.FORCE_COLD makes the next start cold (R437). Operands: requester. -/
  | forceCold (who : Requester)
  /-- SNT.CTRL.CLEAR_FAILS zeroes the failed-start counts under maintenance access (R439). Operands: requester. -/
  | clearFails (who : Requester)
  /-- SNT.CTRL.CLEAR_RECOVERY leaves ROM recovery under maintenance access (R440). Operands: requester. -/
  | clearRecovery (who : Requester)
  /-- The Sentinel island's supply source appears or disappears and the island reselects (R24). Operands: source (0
  AUX3V3, 1 pack A, 2 pack B, 3 to 6 phantom feed of ports 0 to 3), whether it is present now. -/
  | islandSupplyChange (source : Nat) (present : Bool)
  /-- The island has lost all sources beyond its hold-up time, losing its context (R25). -/
  | islandPowerOn
  /-- A firmware reaction ends and the next pending or pre-empted reaction runs (R458). -/
  | reactionDone
  /-- QUIET_LEFT reaches 0, so SV2/SV3 sources are released and the manager returns to Normal (R460). -/
  | quietExpired
  /-- QUIET_S after its latch, an SV0 or SV1 event source is released (R454). Operands: fault source. -/
  | eventSourceRelease (src : Nat)
  /-- Every 1 ms ERR_N is read back, and three mismatches latch F194 (R459). Operands: whether the pin reads low. -/
  | errnReadback (low : Bool)
  /-- SAF.CTRL.ERRN_TEST drives ERR_N low for 10 ms under maintenance access (R459). Operands: requester. -/
  | errnTest (who : Requester)
  /-- SAF.CTRL.HIST_REARM empties the history and FIRST and arms them again (R457). Operands: requester. -/
  | histRearm (who : Requester)
  /-- An injection sees no detection within its time, so it records INJ_FAIL and latches F193 (R461). Operands: fault
  source, page instance. -/
  | injectionTimeout (src inst : Nat)
  /-- The SAFETY pair mismatches, so it is reset and the ROM kiln guards (R450). -/
  | lockstepMismatch
  /-- A processor watchdog expires and the processor restarts on its last confirmed image (R465). Operands: processor:
  1 SENTINEL, 2 FABRIC, 3 CELLAR, 4 MGMT, 5 SAFETY. -/
  | watchdogExpiry (proc : Nat)
  /-- Every 60 s the active threshold-0 slice and one rotating slice are tested (R498). Operands: whether the active
  slice of threshold 0, and the next slice of the rotation, pass. -/
  | comparatorTest (ok okOther : Bool)
  /-- Once per second a 0x0100 entry is appended for each code held back (R470). -/
  | tlogRateSummary
  /-- TLG.CTRL.CLEAR empties the live log under maintenance access (R479).
  Operands: requester. -/
  | tlgClear (who : Requester)
  /-- REC.CTRL.CLEAR releases every recorder slot and flushes under maintenance access (R479).
  Operands: requester. -/
  | recClear (who : Requester)
  /-- A recorder flush starts on REC.CTRL.FLUSH, hourly or in K6 (R477). Operands:
  the requester of `CTRL.FLUSH`, if one writes it. -/
  | recFlush (who : Option Requester)
  /-- A flush write ends, and pending counters merge into their slots (R478). Operands: whether the write succeeded. -/
  | recFlushDone (ok : Bool)
  /-- CAL.CTRL.RUN, B6 or a temperature change starts a calibration run (R488). Operands: requester of CTRL.RUN (none:
  boot step B6). -/
  | calRun (who : Option Requester)
  /-- CAL.CTRL.MODULE_CAL measures the band-gap against VREF_EXT and writes the module record (R493). Operands:
  requester, band-gap in µV as measured. -/
  | moduleCal (who : Requester) (uv : Nat)
  /-- Every 100 hc the die temperature is compared with AT_CAL_C (R488). -/
  | calTempCheck
  /-- One ADC's calibration ends, and its coefficients are accepted or rejected (R489). Operands: gain deviation in
  ppm, offset in µV, and after ADC2 the trip errors measured (threshold, spare slice, mV) and the failed slices
  that pass again. -/
  | adcCalDone (gain ofs : Int) (trips : List (Nat × Nat × Int)) (again : List (Nat × Nat))
  /-- Every VREF_H hours the band-gap is measured against VREF_EXT (R493). Operands: band-gap in µV as measured. -/
  | vrefCheck (uv : Nat)
  /-- A write of CFL.KEY advances or breaks the command sequence (R507). Operands: whether firmware issues it, else
  which requester, and the key. -/
  | cflKeyWrite (fw : Bool) (who : Requester) (value : Nat)
  /-- Opcode 0x01 programs one 64-bit word after DATA_HI is written (R508). Operands: requester, flash byte address
  and 64-bit word; the writes of CMD, ADDR, DATA_LO and DATA_HI in this order. -/
  | wordProgram (fw : Bool) (who : Requester) (addr word : Nat)
  /-- Opcode 0x02 erases a 4 KiB sector after ADDR is written (R507). Operands: requester and flash byte address; the
  writes of CMD and ADDR. -/
  | sectorErase (fw : Bool) (who : Requester) (addr : Nat)
  /-- Opcode 0x03 erases a 64 KiB block after ADDR is written (R507). Operands: as SECTOR_ERASE. -/
  | blockErase (fw : Bool) (who : Requester) (addr : Nat)
  /-- Opcode 0x0F resets the command sequence (R507). Operands: requester. -/
  | sequenceReset (fw : Bool) (who : Requester)
  /-- A code-flash program or erase completes and verifies (R508). Operands: bank, and whether the operation verifies. -/
  | flashOpDone (bank : Nat) (ok : Bool)
  /-- Hourly, stored sectors are checked against the sector check table (R527). Operands: ECC words corrected, and
  sectors (bank, sector) whose check fails. -/
  | codeFlashCheck (corrected : Nat) (bad : List (Nat × Nat))
  /-- 60 s pass with no command from the lock holder, so the staging bank is discarded (R516). -/
  | updateLockExpired
  /-- Staging checks end, and the package is Staged or rejected (R518). Operands: what the checks find in the staging
  bank. -/
  | verifyDone (k : Package)
  /-- A processor reports running on its new image, and 1 s later the next hand-over starts (R521). Operands: time
  from halt to running, and settings blocks that the processor owns. -/
  | handoverRunning (ms : Nat) (blocks : List Nat)
  /-- A hand-over fails within 50 ms, so changed processors return to their confirmed images (R522). -/
  | handoverFail
  /-- CONFIRM_MIN elapses and the self-test confirms the update or triggers fallback (R523). Operands: outcomes of the
  readiness self-test as KILN_SELFTEST. -/
  | confirmWindowEnd (cmpOk shedOk romOk : Bool)
  /-- In K1 the hold-up bus sense confirms that the pack path carries the bus, which ends K1 and opens K2 (R230). -/
  | packPathConfirmed
  /-- MAIN_IN rises back to or above WARN_MV, which starts the 4 hc debounce of a K0–K2 kiln or the 4 hc count back
  from Primed (R248). -/
  | powerReturn
  /-- A monitored clock domain leaves ±1 % of its setting for 10 µs and raises its clock fault (R21). Operands: clock
  domain of Table 01-6. -/
  | clockFault (domain : Nat)
  /-- A faulted clock domain returns within tolerance, which ends the condition of its clock fault (R21). Operands:
  clock domain of Table 01-6. -/
  | clockBackInTolerance (domain : Nat)
  /-- XTAL25 is lost, and the sequencer and analog monitor switch to the Sentinel RC fallback within 10 µs (R22). -/
  | xtal25Lost
  /-- 1 s after a failed high-rate training, a Sideband port whose ends both advertise high-rate lanes tries training
  again (R319). Operands: Daluf port. -/
  | trainingRetry (port : Nat)
  /-- 1 s after an overcurrent switched the phantom feed off, the device drives it again unless three consecutive
  overcurrents have occurred (R321). Operands: Daluf port. -/
  | phantomFeedRetry (port : Nat)
  /-- 1 s after a wrong or late pack response, the device sends a fresh challenge, up to three failures (R378).
  Operands: pack port. -/
  | authRetry (port : Nat)
deriving DecidableEq, Repr

end Sys2Proof
end

