-- ==== Sys2Proof/Machine/Rows.lean ====
section
/-!
DEFINITION. Machine/Rows.lean: which register fields live through a start, which of them a start finds anew, and which fields
`REGISTER_WRITE` writes, with their change classes (R9), read off the register tables of the spec.
-/

namespace Sys2Proof.Machine

/-- A field, or an array of fields, that a start does not return to its reset value: first page, number of pages, offset,
stride and number of the array's members, low bit (32 for every bit of the word); `found` where the device finds the value. -/
structure KeepRow where
  page : Nat
  pages : Nat
  off : Nat
  stride : Nat
  n : Nat
  lsb : Nat
  found : Bool
deriving DecidableEq, Repr

/-- A writable field or array of fields: as above, with its width, its change class (0 L, 1 S, 2 H), the select register that
indexes it (0 none, 1 `RAIL_SEL`, 2 `RANGE_SEL`, 3 `GUEST_SEL`, 4 the requester) and its reset value. -/
structure WriteRow where
  page : Nat
  pages : Nat
  off : Nat
  stride : Nat
  n : Nat
  lsb : Nat
  width : Nat
  cls : Nat
  win : Nat
  reset : Nat
deriving DecidableEq, Repr

/-- Fields that a start keeps, restores or finds, part 1. -/
def keptRows0 : List KeepRow :=
  [⟨0xB0, 1, 0x044, 4096, 1, 5, true⟩, ⟨0xB0, 1, 0x0C0, 4096, 1, 0, false⟩, ⟨0xB0, 1, 0x0C8, 4096, 1, 0, false⟩,
   ⟨0x00, 1, 0x040, 4096, 1, 0, false⟩, ⟨0x00, 1, 0x040, 4096, 1, 16, false⟩,
   ⟨0x00, 1, 0x040, 4096, 1, 24, false⟩, ⟨0x00, 1, 0x048, 4096, 1, 0, false⟩, ⟨0x00, 1, 0x050, 4, 6, 0, true⟩,
   ⟨0x00, 1, 0x068, 4096, 1, 0, false⟩, ⟨0x00, 1, 0x06C, 4096, 1, 0, false⟩, ⟨0x00, 1, 0x070, 4, 4, 0, false⟩,
   ⟨0x00, 1, 0x080, 4096, 1, 0, false⟩, ⟨0x00, 1, 0x084, 4096, 1, 0, false⟩,
   ⟨0x01, 1, 0x040, 4096, 1, 0, false⟩, ⟨0x01, 1, 0x040, 4096, 1, 16, false⟩,
   ⟨0x01, 1, 0x044, 4096, 1, 0, false⟩, ⟨0x01, 1, 0x048, 4096, 1, 0, false⟩,
   ⟨0x01, 1, 0x04C, 4096, 1, 0, false⟩, ⟨0x01, 1, 0x04C, 4096, 1, 2, false⟩,
   ⟨0x01, 1, 0x04C, 4096, 1, 3, false⟩, ⟨0x01, 1, 0x04C, 4096, 1, 4, false⟩,
   ⟨0x01, 1, 0x04C, 4096, 1, 5, false⟩, ⟨0x01, 1, 0x04C, 4096, 1, 8, false⟩,
   ⟨0x01, 1, 0x050, 4096, 1, 0, false⟩, ⟨0x01, 1, 0x054, 4096, 1, 0, false⟩,
   ⟨0x01, 1, 0x058, 4096, 1, 0, false⟩, ⟨0x01, 1, 0x060, 4096, 1, 0, false⟩,
   ⟨0x01, 1, 0x068, 4096, 1, 0, false⟩, ⟨0x01, 1, 0x06C, 4096, 1, 0, false⟩,
   ⟨0x02, 1, 0x060, 4096, 1, 0, false⟩, ⟨0x02, 1, 0x068, 4096, 1, 0, false⟩,
   ⟨0x10, 2, 0x048, 4096, 1, 0, false⟩, ⟨0x10, 2, 0x04C, 4096, 1, 0, false⟩,
   ⟨0x10, 2, 0x054, 4096, 1, 9, false⟩, ⟨0x10, 2, 0x06C, 4096, 1, 0, false⟩,
   ⟨0x10, 2, 0x06C, 4096, 1, 31, false⟩, ⟨0x10, 2, 0x070, 4096, 1, 0, false⟩,
   ⟨0x10, 2, 0x078, 4096, 1, 0, false⟩, ⟨0x20, 16, 0x040, 4096, 1, 0, false⟩,
   ⟨0x20, 16, 0x040, 4096, 1, 8, false⟩]

/-- Fields that a start keeps, restores or finds, part 2. -/
def keptRows1 : List KeepRow :=
  [⟨0x20, 16, 0x040, 4096, 1, 9, false⟩, ⟨0x20, 16, 0x044, 4096, 1, 0, true⟩,
   ⟨0x20, 16, 0x044, 4096, 1, 4, true⟩, ⟨0x20, 16, 0x044, 4096, 1, 8, true⟩,
   ⟨0x20, 16, 0x044, 4096, 1, 12, true⟩, ⟨0x20, 16, 0x044, 4096, 1, 16, false⟩,
   ⟨0x20, 16, 0x044, 4096, 1, 17, false⟩, ⟨0x20, 16, 0x048, 4096, 1, 0, false⟩,
   ⟨0x20, 16, 0x050, 4096, 1, 0, false⟩, ⟨0x20, 16, 0x050, 4096, 1, 4, false⟩,
   ⟨0x20, 16, 0x050, 4096, 1, 16, true⟩, ⟨0x20, 16, 0x058, 4, 2, 32, false⟩,
   ⟨0x20, 16, 0x060, 4096, 1, 16, false⟩, ⟨0x30, 1, 0x040, 4096, 1, 8, false⟩,
   ⟨0x30, 1, 0x044, 4096, 1, 0, false⟩, ⟨0x30, 1, 0x048, 4096, 1, 0, false⟩,
   ⟨0x30, 1, 0x04C, 4096, 1, 0, false⟩, ⟨0x30, 1, 0x050, 4096, 1, 0, false⟩,
   ⟨0x30, 1, 0x054, 4096, 1, 0, false⟩, ⟨0x30, 1, 0x054, 4096, 1, 16, false⟩,
   ⟨0x30, 1, 0x058, 4096, 1, 0, false⟩, ⟨0x30, 1, 0x05C, 4096, 1, 0, false⟩,
   ⟨0x30, 1, 0x05C, 4096, 1, 16, false⟩, ⟨0x41, 1, 0x048, 4096, 1, 0, false⟩,
   ⟨0x41, 1, 0x058, 4096, 1, 0, false⟩, ⟨0x41, 1, 0x060, 4096, 1, 0, false⟩,
   ⟨0x41, 1, 0x068, 4096, 1, 0, false⟩, ⟨0x41, 1, 0x068, 4096, 1, 16, false⟩,
   ⟨0x44, 1, 0x04C, 4096, 1, 0, false⟩, ⟨0x44, 1, 0x064, 4096, 1, 31, false⟩,
   ⟨0x44, 1, 0x06C, 4096, 1, 0, false⟩, ⟨0x44, 1, 0x06C, 4096, 1, 24, false⟩,
   ⟨0x50, 32, 0x040, 4096, 1, 0, false⟩, ⟨0x50, 32, 0x040, 4096, 1, 8, false⟩,
   ⟨0x50, 32, 0x044, 4096, 1, 0, false⟩, ⟨0x50, 32, 0x044, 4096, 1, 8, false⟩,
   ⟨0x50, 32, 0x044, 4096, 1, 24, false⟩, ⟨0x50, 32, 0x048, 4096, 1, 0, false⟩,
   ⟨0x50, 32, 0x048, 4096, 1, 16, false⟩, ⟨0x50, 32, 0x04C, 4096, 1, 0, false⟩]

/-- Fields that a start keeps, restores or finds, part 3. -/
def keptRows2 : List KeepRow :=
  [⟨0x50, 32, 0x04C, 4096, 1, 4, false⟩, ⟨0x50, 32, 0x04C, 4096, 1, 20, false⟩,
   ⟨0x50, 32, 0x050, 4096, 1, 0, true⟩, ⟨0x50, 32, 0x050, 4096, 1, 16, true⟩,
   ⟨0x50, 32, 0x054, 4096, 1, 0, true⟩, ⟨0x50, 32, 0x054, 4096, 1, 16, true⟩,
   ⟨0x50, 32, 0x06C, 4096, 1, 0, false⟩, ⟨0x50, 32, 0x06C, 4096, 1, 16, false⟩,
   ⟨0x50, 32, 0x070, 4096, 1, 0, true⟩, ⟨0x50, 32, 0x070, 4096, 1, 16, true⟩,
   ⟨0x70, 1, 0x040, 4096, 1, 0, false⟩, ⟨0x70, 1, 0x044, 4096, 1, 0, false⟩,
   ⟨0x70, 1, 0x048, 4096, 1, 0, false⟩, ⟨0x70, 1, 0x054, 4096, 1, 0, false⟩,
   ⟨0x70, 1, 0x068, 4096, 1, 0, false⟩, ⟨0x70, 1, 0x068, 4096, 1, 16, false⟩,
   ⟨0x70, 1, 0x06C, 4096, 1, 0, false⟩, ⟨0x70, 1, 0x06C, 4096, 1, 16, false⟩,
   ⟨0x70, 1, 0x070, 4096, 1, 0, false⟩, ⟨0x70, 1, 0x078, 4096, 1, 0, false⟩,
   ⟨0x70, 1, 0x07C, 4096, 1, 0, false⟩, ⟨0x70, 1, 0x080, 4096, 1, 0, false⟩,
   ⟨0x70, 1, 0x084, 4096, 1, 0, false⟩, ⟨0x70, 1, 0x08C, 4096, 1, 0, false⟩,
   ⟨0x70, 1, 0x08C, 4096, 1, 16, false⟩, ⟨0x70, 1, 0x090, 4096, 1, 0, false⟩,
   ⟨0x70, 1, 0x090, 4096, 1, 16, false⟩, ⟨0x70, 1, 0x094, 4096, 1, 0, true⟩,
   ⟨0x70, 1, 0x094, 4096, 1, 24, false⟩, ⟨0x70, 1, 0x098, 4096, 1, 16, false⟩,
   ⟨0x70, 1, 0x098, 4096, 1, 24, false⟩, ⟨0x70, 1, 0x09C, 4096, 1, 0, false⟩,
   ⟨0x70, 1, 0x0A0, 4096, 1, 0, false⟩, ⟨0x70, 1, 0x0AC, 4096, 1, 0, false⟩,
   ⟨0x70, 1, 0x0B4, 4096, 1, 0, false⟩, ⟨0x70, 1, 0x0B4, 4096, 1, 16, false⟩,
   ⟨0x70, 1, 0x0B8, 4096, 1, 0, false⟩, ⟨0x70, 1, 0x0B8, 4096, 1, 8, false⟩,
   ⟨0x71, 1, 0x040, 4096, 1, 1, false⟩, ⟨0x71, 1, 0x040, 4096, 1, 8, false⟩]

/-- Fields that a start keeps, restores or finds, part 4. -/
def keptRows3 : List KeepRow :=
  [⟨0x71, 1, 0x058, 4096, 1, 0, false⟩, ⟨0x42, 1, 0x040, 4096, 1, 0, false⟩,
   ⟨0x42, 1, 0x048, 4096, 1, 0, false⟩, ⟨0x42, 1, 0x048, 4096, 1, 16, false⟩,
   ⟨0x42, 1, 0x050, 4096, 1, 18, false⟩, ⟨0x42, 1, 0x058, 4096, 1, 0, false⟩,
   ⟨0x42, 1, 0x060, 4096, 1, 0, false⟩, ⟨0x42, 1, 0x068, 4096, 1, 0, false⟩,
   ⟨0x42, 1, 0x078, 4096, 1, 0, false⟩, ⟨0x42, 1, 0x078, 4096, 1, 4, false⟩,
   ⟨0x42, 1, 0x078, 4096, 1, 8, false⟩, ⟨0x42, 1, 0x078, 4096, 1, 9, false⟩,
   ⟨0x42, 1, 0x078, 4096, 1, 10, false⟩, ⟨0x42, 1, 0x078, 4096, 1, 16, false⟩,
   ⟨0x42, 1, 0x07C, 4096, 1, 0, false⟩, ⟨0x42, 1, 0x084, 4096, 1, 0, false⟩,
   ⟨0x42, 1, 0x08C, 4096, 1, 0, false⟩, ⟨0x42, 1, 0x094, 4096, 1, 0, false⟩,
   ⟨0x42, 1, 0x098, 4096, 1, 0, false⟩, ⟨0x42, 1, 0x09C, 4096, 1, 0, false⟩,
   ⟨0x42, 1, 0x09C, 4096, 1, 16, false⟩, ⟨0x42, 1, 0x0A0, 4096, 1, 0, false⟩,
   ⟨0x42, 1, 0x0A0, 4096, 1, 16, false⟩, ⟨0x42, 1, 0x0C0, 8, 8, 0, false⟩, ⟨0x42, 1, 0x0C4, 8, 8, 0, false⟩,
   ⟨0x43, 1, 0x058, 4096, 1, 3, false⟩, ⟨0x43, 1, 0x058, 4096, 1, 16, false⟩,
   ⟨0x43, 1, 0x09C, 4096, 1, 0, false⟩, ⟨0x80, 1, 0x044, 4096, 1, 0, false⟩, ⟨0x80, 1, 0x048, 4, 2, 32, false⟩,
   ⟨0x80, 1, 0x050, 4096, 1, 0, false⟩, ⟨0x80, 1, 0x050, 4096, 1, 8, false⟩,
   ⟨0x80, 1, 0x070, 4096, 1, 0, false⟩, ⟨0x90, 1, 0x040, 4096, 1, 0, false⟩,
   ⟨0x90, 1, 0x040, 4096, 1, 1, false⟩, ⟨0x90, 1, 0x044, 4096, 1, 0, false⟩,
   ⟨0x90, 1, 0x048, 4096, 1, 15, false⟩, ⟨0x90, 1, 0x04C, 4096, 1, 0, false⟩, ⟨0x90, 1, 0x058, 8, 4, 0, false⟩,
   ⟨0x90, 1, 0x0A8, 4096, 1, 0, false⟩]

/-- Fields that a start keeps, restores or finds, part 5. -/
def keptRows4 : List KeepRow :=
  [⟨0x90, 1, 0x0A8, 4096, 1, 16, false⟩, ⟨0x91, 4, 0x040, 4096, 1, 0, false⟩,
   ⟨0x91, 4, 0x040, 4096, 1, 1, false⟩, ⟨0x91, 4, 0x044, 4096, 1, 10, true⟩,
   ⟨0x95, 1, 0x040, 4096, 1, 8, false⟩, ⟨0x95, 1, 0x044, 4096, 1, 0, false⟩,
   ⟨0x95, 1, 0x04C, 4096, 1, 0, false⟩, ⟨0x95, 1, 0x05C, 4096, 1, 0, false⟩,
   ⟨0x95, 1, 0x060, 4096, 1, 0, false⟩, ⟨0x95, 1, 0x064, 4096, 1, 0, false⟩, ⟨0x95, 1, 0x070, 4, 2, 0, false⟩,
   ⟨0x95, 1, 0x078, 4, 2, 0, false⟩, ⟨0x95, 1, 0x094, 4096, 1, 16, false⟩, ⟨0x95, 1, 0x09C, 4096, 1, 0, false⟩,
   ⟨0x95, 1, 0x0A4, 4096, 1, 0, false⟩, ⟨0x95, 1, 0x0A8, 4096, 1, 0, false⟩,
   ⟨0x95, 1, 0x0AC, 4096, 1, 0, false⟩, ⟨0x95, 1, 0x0B0, 4096, 1, 0, false⟩,
   ⟨0x95, 1, 0x0B4, 4096, 1, 0, false⟩, ⟨0x95, 1, 0x0BC, 4096, 1, 0, false⟩,
   ⟨0xA8, 1, 0x040, 4096, 1, 0, false⟩, ⟨0xA8, 1, 0x040, 4096, 1, 8, false⟩,
   ⟨0xA9, 2, 0x040, 4096, 1, 0, false⟩, ⟨0xA9, 2, 0x040, 4096, 1, 2, false⟩,
   ⟨0xA9, 2, 0x040, 4096, 1, 16, false⟩, ⟨0xA9, 2, 0x044, 4096, 1, 0, false⟩,
   ⟨0xA9, 2, 0x044, 4096, 1, 16, false⟩, ⟨0xA9, 2, 0x04C, 4096, 1, 0, false⟩,
   ⟨0xA9, 2, 0x04C, 4096, 1, 4, false⟩, ⟨0xA9, 2, 0x04C, 4096, 1, 16, false⟩,
   ⟨0xA9, 2, 0x050, 4096, 1, 0, false⟩, ⟨0xA9, 2, 0x050, 4096, 1, 16, false⟩,
   ⟨0xA9, 2, 0x058, 4096, 1, 0, false⟩, ⟨0xA9, 2, 0x060, 4096, 1, 18, false⟩,
   ⟨0xA9, 2, 0x064, 4096, 1, 0, false⟩, ⟨0xA9, 2, 0x06C, 4096, 1, 0, false⟩,
   ⟨0xA9, 2, 0x070, 4096, 1, 0, false⟩, ⟨0xA9, 2, 0x098, 4096, 1, 16, false⟩,
   ⟨0xA9, 2, 0x0A4, 4096, 1, 0, false⟩, ⟨0xA9, 2, 0x0A4, 4096, 1, 16, false⟩]

/-- Fields that a start keeps, restores or finds, part 6. -/
def keptRows5 : List KeepRow :=
  [⟨0xA1, 1, 0x048, 8, 8, 0, false⟩, ⟨0xA1, 1, 0x048, 8, 8, 16, false⟩, ⟨0xA1, 1, 0x04C, 8, 8, 0, false⟩,
   ⟨0xA1, 1, 0x088, 4096, 1, 0, false⟩, ⟨0xA1, 1, 0x088, 4096, 1, 16, false⟩,
   ⟨0xA1, 1, 0x088, 4096, 1, 24, false⟩, ⟨0xA0, 1, 0x040, 4096, 1, 0, false⟩,
   ⟨0xA0, 1, 0x040, 4096, 1, 8, false⟩, ⟨0xA0, 1, 0x044, 4096, 1, 0, false⟩,
   ⟨0xA0, 1, 0x044, 4096, 1, 16, false⟩, ⟨0xA0, 1, 0x050, 4096, 1, 0, false⟩,
   ⟨0xA0, 1, 0x058, 4096, 1, 0, false⟩, ⟨0xA0, 1, 0x064, 4096, 1, 0, false⟩,
   ⟨0xA0, 1, 0x064, 4096, 1, 1, false⟩, ⟨0xA0, 1, 0x064, 4096, 1, 2, false⟩,
   ⟨0xA0, 1, 0x064, 4096, 1, 3, false⟩, ⟨0xA0, 1, 0x064, 4096, 1, 9, false⟩,
   ⟨0xA0, 1, 0x064, 4096, 1, 13, false⟩, ⟨0xA0, 1, 0x064, 4096, 1, 16, false⟩,
   ⟨0xA0, 1, 0x068, 4096, 1, 0, false⟩, ⟨0xA0, 1, 0x06C, 4096, 1, 0, false⟩,
   ⟨0xA0, 1, 0x06C, 4096, 1, 16, false⟩, ⟨0xA0, 1, 0x070, 4096, 1, 0, false⟩,
   ⟨0xA0, 1, 0x070, 4096, 1, 16, false⟩, ⟨0xA0, 1, 0x074, 4096, 1, 0, false⟩,
   ⟨0xA0, 1, 0x074, 4096, 1, 16, false⟩, ⟨0xA0, 1, 0x080, 4096, 1, 0, false⟩,
   ⟨0xA0, 1, 0x080, 4096, 1, 16, false⟩, ⟨0xA0, 1, 0x084, 4096, 1, 0, false⟩,
   ⟨0xA0, 1, 0x084, 4096, 1, 16, false⟩, ⟨0xA0, 1, 0x088, 4096, 1, 0, false⟩,
   ⟨0xA0, 1, 0x088, 4096, 1, 16, false⟩, ⟨0xA0, 1, 0x098, 4096, 1, 0, false⟩,
   ⟨0xA0, 1, 0x098, 4096, 1, 8, false⟩, ⟨0xA0, 1, 0x098, 4096, 1, 16, false⟩,
   ⟨0xA0, 1, 0x098, 4096, 1, 24, false⟩, ⟨0xA0, 1, 0x09C, 4096, 1, 0, false⟩,
   ⟨0xD8, 1, 0x040, 4096, 1, 1, false⟩, ⟨0xD8, 1, 0x040, 4096, 1, 2, false⟩, ⟨0xD8, 1, 0x064, 4096, 1, 0, false⟩]

/-- Fields that a start keeps, restores or finds, part 7. -/
def keptRows6 : List KeepRow :=
  [⟨0xD8, 1, 0x068, 4096, 1, 0, false⟩, ⟨0xD8, 1, 0x068, 4096, 1, 8, false⟩,
   ⟨0xC0, 1, 0x040, 4096, 1, 0, false⟩, ⟨0xC0, 1, 0x044, 4096, 1, 7, false⟩,
   ⟨0xC0, 1, 0x068, 4096, 1, 0, false⟩, ⟨0xC0, 1, 0x06C, 4096, 1, 0, false⟩,
   ⟨0xC0, 1, 0x06C, 4096, 1, 16, false⟩, ⟨0xC0, 1, 0x070, 4096, 1, 0, false⟩,
   ⟨0xC1, 1, 0x040, 4096, 1, 0, false⟩, ⟨0xC1, 1, 0x040, 4096, 1, 1, false⟩,
   ⟨0xC1, 1, 0x040, 4096, 1, 16, false⟩, ⟨0xC8, 1, 0x058, 4096, 1, 0, false⟩,
   ⟨0xC9, 1, 0x040, 4096, 1, 16, false⟩, ⟨0xC9, 1, 0x044, 4096, 1, 1, false⟩,
   ⟨0xC9, 1, 0x048, 4096, 1, 0, false⟩, ⟨0xC9, 1, 0x048, 4096, 1, 16, false⟩,
   ⟨0xC9, 1, 0x04C, 4096, 1, 0, false⟩, ⟨0xC9, 1, 0x050, 4096, 1, 0, false⟩,
   ⟨0xC9, 1, 0x058, 4096, 1, 0, false⟩, ⟨0xC9, 1, 0x064, 4096, 1, 0, false⟩,
   ⟨0xC9, 1, 0x068, 4096, 1, 0, false⟩, ⟨0xC9, 1, 0x070, 4096, 1, 0, false⟩,
   ⟨0xC9, 1, 0x074, 4096, 1, 0, false⟩, ⟨0xB8, 1, 0x040, 4096, 1, 0, false⟩,
   ⟨0xB8, 1, 0x040, 4096, 1, 5, false⟩, ⟨0xB8, 1, 0x040, 4096, 1, 16, false⟩,
   ⟨0xB8, 1, 0x048, 4096, 1, 16, false⟩, ⟨0xB8, 1, 0x068, 4096, 1, 0, false⟩,
   ⟨0xB8, 1, 0x068, 4096, 1, 12, false⟩, ⟨0xB8, 1, 0x068, 4096, 1, 16, false⟩, ⟨0xB8, 1, 0x06C, 4, 4, 0, false⟩,
   ⟨0xB8, 1, 0x080, 4096, 1, 0, false⟩, ⟨0xB9, 1, 0x040, 4096, 1, 0, false⟩,
   ⟨0xB9, 1, 0x040, 4096, 1, 9, false⟩, ⟨0xB9, 1, 0x044, 4096, 1, 4, false⟩,
   ⟨0xB9, 1, 0x044, 4096, 1, 6, false⟩, ⟨0xB9, 1, 0x048, 4096, 1, 0, false⟩,
   ⟨0xB9, 1, 0x050, 4096, 1, 0, false⟩, ⟨0xB9, 1, 0x054, 8, 3, 0, false⟩, ⟨0xB9, 1, 0x058, 8, 3, 0, false⟩]

/-- Fields that a start keeps, restores or finds, part 8. -/
def keptRows7 : List KeepRow :=
  [⟨0xD0, 1, 0x064, 4096, 1, 0, false⟩, ⟨0xD0, 1, 0x068, 4096, 1, 0, false⟩,
   ⟨0xD1, 1, 0x040, 4096, 1, 0, false⟩, ⟨0xD1, 1, 0x044, 4096, 1, 0, false⟩,
   ⟨0xD1, 1, 0x044, 4096, 1, 7, false⟩, ⟨0xD1, 1, 0x044, 4096, 1, 8, false⟩,
   ⟨0xD1, 1, 0x050, 4096, 1, 0, false⟩, ⟨0xD1, 1, 0x05C, 4096, 1, 0, false⟩,
   ⟨0xD1, 1, 0x05C, 4096, 1, 16, false⟩, ⟨0xD1, 1, 0x060, 4096, 1, 0, false⟩,
   ⟨0xD1, 1, 0x060, 4096, 1, 16, false⟩, ⟨0xD1, 1, 0x060, 4096, 1, 17, false⟩,
   ⟨0xD1, 1, 0x064, 4096, 1, 0, false⟩, ⟨0xD1, 1, 0x064, 4096, 1, 16, false⟩,
   ⟨0xE0, 1, 0x044, 4096, 1, 8, true⟩, ⟨0xE0, 1, 0x058, 4096, 1, 0, true⟩, ⟨0xE0, 1, 0x058, 4096, 1, 12, true⟩,
   ⟨0xE0, 1, 0x000, 4, 1024, 32, false⟩]

/-- Fields that a start keeps, restores or finds. -/
def keptRows : List KeepRow :=
  keptRows0 ++ keptRows1 ++ keptRows2 ++ keptRows3 ++ keptRows4 ++ keptRows5 ++ keptRows6 ++ keptRows7

/-- Writable fields that have no row of their own, part 1. -/
def writeRows0 : List WriteRow :=
  [⟨0xB0, 1, 0x040, 4096, 1, 0, 1, 1, 0, 1⟩, ⟨0xB0, 1, 0x040, 4096, 1, 1, 1, 0, 0, 0⟩,
   ⟨0xB0, 1, 0x040, 4096, 1, 2, 1, 1, 0, 1⟩, ⟨0xB0, 1, 0x040, 4096, 1, 3, 1, 2, 0, 0⟩,
   ⟨0xB0, 1, 0x040, 4096, 1, 8, 8, 2, 0, 50⟩, ⟨0x00, 1, 0x080, 4096, 1, 0, 2, 2, 0, 2⟩,
   ⟨0x00, 1, 0x084, 4096, 1, 0, 32, 2, 0, 0⟩, ⟨0x10, 2, 0x044, 4096, 1, 0, 3, 1, 0, 5⟩,
   ⟨0x10, 2, 0x044, 4096, 1, 4, 3, 1, 0, 6⟩, ⟨0x10, 2, 0x044, 4096, 1, 8, 1, 0, 0, 1⟩,
   ⟨0x10, 2, 0x054, 4096, 1, 0, 6, 0, 0, 10⟩, ⟨0x10, 2, 0x058, 4096, 1, 0, 7, 0, 0, 50⟩,
   ⟨0x10, 2, 0x058, 4096, 1, 8, 7, 0, 0, 80⟩, ⟨0x10, 2, 0x058, 4096, 1, 16, 1, 0, 0, 1⟩,
   ⟨0x20, 16, 0x040, 4096, 1, 0, 4, 2, 0, 9⟩, ⟨0x20, 16, 0x040, 4096, 1, 8, 1, 2, 0, 0⟩,
   ⟨0x20, 16, 0x040, 4096, 1, 9, 1, 0, 0, 0⟩, ⟨0x20, 16, 0x058, 4096, 1, 0, 6, 2, 0, 63⟩,
   ⟨0x20, 16, 0x058, 4096, 1, 6, 6, 2, 0, 63⟩, ⟨0x20, 16, 0x058, 4096, 1, 12, 6, 2, 0, 63⟩,
   ⟨0x20, 16, 0x058, 4096, 1, 18, 6, 2, 0, 63⟩, ⟨0x20, 16, 0x05C, 4096, 1, 0, 6, 2, 0, 63⟩,
   ⟨0x20, 16, 0x05C, 4096, 1, 6, 6, 2, 0, 63⟩, ⟨0x20, 16, 0x05C, 4096, 1, 12, 6, 2, 0, 63⟩,
   ⟨0x20, 16, 0x05C, 4096, 1, 18, 6, 2, 0, 63⟩, ⟨0x20, 16, 0x060, 4096, 1, 0, 8, 0, 0, 24⟩,
   ⟨0x20, 16, 0x070, 4096, 1, 0, 8, 0, 0, 16⟩, ⟨0x20, 16, 0x070, 4096, 1, 8, 4, 0, 0, 4⟩,
   ⟨0x30, 1, 0x040, 4096, 1, 0, 1, 0, 0, 1⟩, ⟨0x30, 1, 0x040, 4096, 1, 1, 1, 0, 0, 1⟩,
   ⟨0x30, 1, 0x040, 4096, 1, 2, 1, 0, 0, 1⟩, ⟨0x30, 1, 0x040, 4096, 1, 3, 1, 0, 0, 1⟩,
   ⟨0x30, 1, 0x040, 4096, 1, 8, 2, 2, 0, 0⟩, ⟨0x30, 1, 0x040, 4096, 1, 12, 4, 0, 0, 1⟩,
   ⟨0x40, 1, 0x040, 4096, 1, 0, 1, 0, 0, 1⟩, ⟨0x40, 1, 0x040, 4096, 1, 1, 3, 0, 0, 3⟩,
   ⟨0x40, 1, 0x040, 4096, 1, 8, 7, 0, 0, 16⟩, ⟨0x40, 1, 0x040, 4096, 1, 16, 8, 0, 0, 1⟩,
   ⟨0x40, 1, 0x058, 4096, 1, 16, 8, 0, 0, 0⟩, ⟨0x41, 1, 0x040, 4096, 1, 0, 7, 0, 0, 80⟩]

/-- Writable fields that have no row of their own, part 2. -/
def writeRows1 : List WriteRow :=
  [⟨0x41, 1, 0x040, 4096, 1, 8, 8, 0, 0, 10⟩, ⟨0x41, 1, 0x040, 4096, 1, 16, 7, 0, 0, 0⟩,
   ⟨0x41, 1, 0x040, 4096, 1, 24, 1, 0, 0, 1⟩, ⟨0x41, 1, 0x044, 4096, 1, 0, 5, 0, 0, 30⟩,
   ⟨0x41, 1, 0x044, 4096, 1, 16, 16, 0, 0, 0⟩, ⟨0x41, 1, 0x048, 4096, 1, 0, 16, 0, 0, 1826⟩,
   ⟨0x41, 1, 0x048, 4096, 1, 16, 8, 0, 0, 25⟩, ⟨0x44, 1, 0x040, 4096, 1, 0, 32, 0, 0, 1073741824⟩,
   ⟨0x44, 1, 0x044, 4096, 1, 0, 6, 0, 0, 10⟩, ⟨0x44, 1, 0x048, 4096, 1, 0, 32, 0, 0, 0⟩,
   ⟨0x44, 1, 0x04C, 4096, 1, 0, 20, 2, 0, 4000⟩, ⟨0x50, 32, 0x040, 4096, 1, 0, 2, 2, 0, 0⟩,
   ⟨0x50, 32, 0x040, 4096, 1, 8, 6, 2, 0, 36⟩, ⟨0x70, 1, 0x040, 4096, 1, 0, 13, 1, 0, 512⟩,
   ⟨0x70, 1, 0x044, 4096, 1, 0, 16, 1, 0, 0⟩, ⟨0x70, 1, 0x048, 4096, 1, 0, 5, 2, 0, 15⟩,
   ⟨0x70, 1, 0x04C, 4096, 1, 0, 10, 0, 0, 180⟩, ⟨0x70, 1, 0x04C, 4096, 1, 12, 8, 0, 0, 90⟩,
   ⟨0x70, 1, 0x04C, 4096, 1, 24, 4, 0, 0, 14⟩, ⟨0x70, 1, 0x050, 4096, 1, 0, 7, 0, 0, 50⟩,
   ⟨0x70, 1, 0x050, 4096, 1, 16, 16, 0, 0, 200⟩, ⟨0x70, 1, 0x054, 4096, 1, 0, 7, 2, 0, 7⟩,
   ⟨0x70, 1, 0x054, 4096, 1, 8, 7, 0, 0, 2⟩, ⟨0x70, 1, 0x054, 4096, 1, 16, 16, 0, 0, 8000⟩,
   ⟨0x70, 1, 0x058, 4096, 1, 0, 5, 0, 0, 5⟩, ⟨0x70, 1, 0x05C, 4096, 1, 0, 20, 0, 0, 65536⟩,
   ⟨0x70, 1, 0x05C, 4096, 1, 24, 8, 0, 0, 24⟩, ⟨0x42, 1, 0x040, 4096, 1, 8, 3, 0, 0, 4⟩,
   ⟨0x42, 1, 0x044, 4096, 1, 0, 12, 0, 0, 100⟩, ⟨0x42, 1, 0x044, 4096, 1, 16, 1, 0, 0, 0⟩,
   ⟨0x42, 1, 0x044, 4096, 1, 17, 2, 0, 0, 2⟩, ⟨0x42, 1, 0x044, 4096, 1, 20, 1, 0, 0, 1⟩,
   ⟨0x42, 1, 0x048, 4096, 1, 0, 14, 2, 0, 10200⟩, ⟨0x42, 1, 0x048, 4096, 1, 16, 14, 2, 0, 11000⟩,
   ⟨0x42, 1, 0x04C, 4096, 1, 0, 6, 0, 0, 10⟩, ⟨0x43, 1, 0x040, 4096, 1, 0, 1, 0, 0, 1⟩,
   ⟨0x43, 1, 0x040, 4096, 1, 1, 1, 0, 0, 1⟩, ⟨0x43, 1, 0x044, 4096, 1, 0, 10, 0, 0, 40⟩,
   ⟨0x43, 1, 0x044, 4096, 1, 16, 10, 0, 0, 100⟩, ⟨0x43, 1, 0x048, 4096, 1, 0, 17, 0, 0, 0⟩]

/-- Writable fields that have no row of their own, part 3. -/
def writeRows2 : List WriteRow :=
  [⟨0x43, 1, 0x04C, 4096, 1, 0, 16, 0, 0, 0⟩, ⟨0x43, 1, 0x050, 4096, 1, 0, 8, 0, 0, 0⟩,
   ⟨0x43, 1, 0x054, 4096, 1, 0, 8, 0, 0, 0⟩, ⟨0x80, 1, 0x040, 4096, 1, 0, 3, 0, 4, 0⟩,
   ⟨0x80, 1, 0x044, 4096, 1, 0, 19, 2, 0, 131072⟩, ⟨0x80, 1, 0x048, 4096, 1, 0, 8, 0, 0, 32⟩,
   ⟨0x80, 1, 0x048, 4096, 1, 8, 8, 0, 0, 16⟩, ⟨0x80, 1, 0x048, 4096, 1, 16, 8, 0, 0, 8⟩,
   ⟨0x80, 1, 0x048, 4096, 1, 24, 8, 0, 0, 8⟩, ⟨0x80, 1, 0x04C, 4096, 1, 0, 8, 0, 0, 4⟩,
   ⟨0x80, 1, 0x04C, 4096, 1, 8, 8, 0, 0, 2⟩, ⟨0x80, 1, 0x04C, 4096, 1, 16, 8, 0, 0, 1⟩,
   ⟨0x80, 1, 0x04C, 4096, 1, 24, 8, 0, 0, 1⟩, ⟨0x80, 1, 0x050, 4096, 1, 0, 8, 0, 0, 1⟩,
   ⟨0x80, 1, 0x050, 4096, 1, 8, 16, 0, 0, 0⟩, ⟨0x90, 1, 0x040, 4096, 1, 0, 1, 0, 0, 0⟩,
   ⟨0x90, 1, 0x040, 4096, 1, 1, 1, 2, 0, 0⟩, ⟨0x90, 1, 0x044, 4096, 1, 0, 13, 2, 0, 0⟩,
   ⟨0x90, 1, 0x04C, 4096, 1, 0, 16, 0, 0, 0⟩, ⟨0x90, 1, 0x050, 4096, 1, 0, 2, 0, 0, 2⟩,
   ⟨0x90, 1, 0x050, 4096, 1, 8, 8, 0, 0, 10⟩, ⟨0x90, 1, 0x050, 4096, 1, 16, 16, 0, 0, 60⟩,
   ⟨0x90, 1, 0x058, 8, 4, 0, 64, 0, 0, 0⟩, ⟨0x90, 1, 0x09C, 4096, 1, 0, 13, 0, 0, 0⟩,
   ⟨0x91, 4, 0x040, 4096, 1, 0, 1, 0, 0, 1⟩, ⟨0x91, 4, 0x040, 4096, 1, 1, 1, 0, 0, 0⟩,
   ⟨0x91, 4, 0x040, 4096, 1, 2, 1, 0, 0, 1⟩, ⟨0x91, 4, 0x040, 4096, 1, 8, 8, 0, 0, 0⟩,
   ⟨0x95, 1, 0x040, 4096, 1, 0, 8, 0, 0, 20⟩, ⟨0x95, 1, 0x040, 4096, 1, 8, 1, 0, 0, 0⟩,
   ⟨0x95, 1, 0x040, 4096, 1, 16, 8, 0, 0, 100⟩, ⟨0x95, 1, 0x044, 4096, 1, 0, 64, 1, 0, 0⟩,
   ⟨0x95, 1, 0x04C, 4096, 1, 0, 64, 1, 0, 0⟩, ⟨0x95, 1, 0x054, 4096, 1, 0, 16, 0, 0, 8000⟩,
   ⟨0x95, 1, 0x054, 4096, 1, 16, 16, 0, 0, 8000⟩, ⟨0x95, 1, 0x058, 4096, 1, 0, 6, 0, 0, 0⟩,
   ⟨0x95, 1, 0x05C, 4096, 1, 0, 24, 1, 2, 0⟩, ⟨0x95, 1, 0x060, 4096, 1, 0, 25, 1, 2, 0⟩,
   ⟨0x95, 1, 0x064, 4096, 1, 0, 2, 1, 2, 0⟩, ⟨0x95, 1, 0x094, 4096, 1, 0, 16, 0, 0, 10000⟩]

/-- Writable fields that have no row of their own, part 4. -/
def writeRows3 : List WriteRow :=
  [⟨0x95, 1, 0x094, 4096, 1, 16, 16, 0, 0, 72⟩, ⟨0x95, 1, 0x098, 4096, 1, 0, 5, 0, 0, 0⟩,
   ⟨0xA8, 1, 0x040, 4096, 1, 0, 6, 0, 0, 15⟩, ⟨0xA8, 1, 0x040, 4096, 1, 8, 1, 0, 0, 0⟩,
   ⟨0xA8, 1, 0x040, 4096, 1, 16, 8, 0, 0, 30⟩, ⟨0xA8, 1, 0x040, 4096, 1, 24, 8, 0, 0, 70⟩,
   ⟨0xA9, 2, 0x040, 4096, 1, 0, 2, 2, 0, 0⟩, ⟨0xA9, 2, 0x040, 4096, 1, 2, 1, 2, 0, 1⟩,
   ⟨0xA9, 2, 0x040, 4096, 1, 16, 16, 2, 0, 0⟩, ⟨0xA9, 2, 0x044, 4096, 1, 0, 16, 2, 0, 0⟩,
   ⟨0xA9, 2, 0x044, 4096, 1, 16, 10, 2, 0, 998⟩, ⟨0xA9, 2, 0x048, 4096, 1, 0, 1, 0, 0, 1⟩,
   ⟨0xA9, 2, 0x048, 4096, 1, 8, 7, 0, 0, 97⟩, ⟨0xA9, 2, 0x048, 4096, 1, 16, 16, 0, 0, 2500⟩,
   ⟨0xA9, 2, 0x04C, 4096, 1, 0, 4, 2, 0, 15⟩, ⟨0xA9, 2, 0x04C, 4096, 1, 4, 4, 2, 0, 14⟩,
   ⟨0xA9, 2, 0x04C, 4096, 1, 16, 16, 2, 0, 10000⟩, ⟨0xA9, 2, 0x050, 4096, 1, 0, 16, 2, 0, 18000⟩,
   ⟨0xA9, 2, 0x0A0, 4096, 1, 1, 1, 0, 0, 0⟩, ⟨0xA9, 2, 0x0A0, 4096, 1, 8, 7, 0, 0, 20⟩,
   ⟨0xA1, 1, 0x040, 4096, 1, 0, 10, 0, 0, 0⟩, ⟨0xA1, 1, 0x048, 8, 8, 0, 10, 1, 0, 0⟩,
   ⟨0xA1, 1, 0x048, 8, 8, 16, 11, 1, 0, 0⟩, ⟨0xA0, 1, 0x040, 4096, 1, 0, 1, 2, 0, 0⟩,
   ⟨0xA0, 1, 0x040, 4096, 1, 8, 12, 2, 0, 1000⟩, ⟨0xA0, 1, 0x044, 4096, 1, 0, 14, 2, 0, 8000⟩,
   ⟨0xA0, 1, 0x04C, 4096, 1, 0, 16, 0, 0, 5000⟩, ⟨0xA0, 1, 0x058, 4096, 1, 0, 48, 2, 0, 0⟩,
   ⟨0xA0, 1, 0x060, 4096, 1, 0, 5, 0, 0, 0⟩, ⟨0xA0, 1, 0x064, 4096, 1, 0, 1, 2, 1, 0⟩,
   ⟨0xA0, 1, 0x064, 4096, 1, 1, 1, 2, 1, 0⟩, ⟨0xA0, 1, 0x064, 4096, 1, 2, 1, 2, 1, 1⟩,
   ⟨0xA0, 1, 0x064, 4096, 1, 3, 6, 2, 1, 63⟩, ⟨0xA0, 1, 0x064, 4096, 1, 9, 4, 2, 1, 0⟩,
   ⟨0xA0, 1, 0x064, 4096, 1, 13, 1, 2, 1, 0⟩, ⟨0xA0, 1, 0x064, 4096, 1, 16, 3, 2, 1, 3⟩,
   ⟨0xA0, 1, 0x068, 4096, 1, 0, 16, 2, 1, 0⟩, ⟨0xA0, 1, 0x06C, 4096, 1, 0, 16, 2, 1, 0⟩,
   ⟨0xA0, 1, 0x06C, 4096, 1, 16, 16, 2, 1, 0⟩, ⟨0xA0, 1, 0x070, 4096, 1, 0, 16, 2, 1, 0⟩]

/-- Writable fields that have no row of their own, part 5. -/
def writeRows4 : List WriteRow :=
  [⟨0xA0, 1, 0x070, 4096, 1, 16, 16, 2, 1, 0⟩, ⟨0xA0, 1, 0x074, 4096, 1, 0, 10, 2, 1, 500⟩,
   ⟨0xA0, 1, 0x074, 4096, 1, 16, 10, 2, 1, 0⟩, ⟨0xD8, 1, 0x040, 4096, 1, 1, 1, 0, 0, 1⟩,
   ⟨0xD8, 1, 0x040, 4096, 1, 2, 1, 0, 0, 0⟩, ⟨0xD8, 1, 0x044, 4096, 1, 0, 8, 0, 0, 0⟩,
   ⟨0xD8, 1, 0x044, 4096, 1, 8, 8, 0, 0, 0⟩, ⟨0xD8, 1, 0x048, 4096, 1, 0, 16, 0, 0, 100⟩,
   ⟨0xD8, 1, 0x048, 4096, 1, 16, 16, 0, 0, 1000⟩, ⟨0xE0, 1, 0x05C, 4096, 1, 0, 1, 0, 0, 1⟩,
   ⟨0xE0, 1, 0x05C, 4096, 1, 1, 1, 0, 0, 0⟩, ⟨0xE0, 1, 0x060, 4096, 1, 0, 32, 0, 0, 0⟩,
   ⟨0xC0, 1, 0x040, 4096, 1, 0, 12, 0, 0, 10⟩, ⟨0xC0, 1, 0x040, 4096, 1, 18, 1, 0, 0, 1⟩,
   ⟨0xC8, 1, 0x040, 4096, 1, 1, 1, 0, 0, 0⟩, ⟨0xC8, 1, 0x040, 4096, 1, 8, 8, 0, 0, 64⟩,
   ⟨0xC8, 1, 0x050, 4096, 1, 0, 32, 0, 0, 0⟩, ⟨0xC9, 1, 0x040, 4096, 1, 16, 16, 0, 0, 100⟩,
   ⟨0xC9, 1, 0x05C, 4096, 1, 0, 9, 0, 0, 0⟩, ⟨0xC9, 1, 0x05C, 4096, 1, 16, 1, 0, 0, 0⟩,
   ⟨0xB8, 1, 0x040, 4096, 1, 0, 5, 2, 0, 0⟩, ⟨0xB8, 1, 0x040, 4096, 1, 5, 1, 2, 0, 0⟩,
   ⟨0xB8, 1, 0x040, 4096, 1, 16, 16, 2, 0, 0⟩, ⟨0xB8, 1, 0x058, 4096, 1, 0, 6, 0, 0, 0⟩,
   ⟨0xB8, 1, 0x064, 4096, 1, 0, 2, 0, 0, 0⟩, ⟨0xB9, 1, 0x040, 4096, 1, 0, 4, 0, 0, 8⟩,
   ⟨0xB9, 1, 0x040, 4096, 1, 9, 1, 2, 0, 0⟩, ⟨0xB9, 1, 0x040, 4096, 1, 16, 8, 0, 0, 24⟩,
   ⟨0xD1, 1, 0x040, 4096, 1, 0, 11, 0, 0, 15⟩]

/-- Writable fields that have no row of their own. -/
def writeRows : List WriteRow :=
  writeRows0 ++ writeRows1 ++ writeRows2 ++ writeRows3 ++ writeRows4

/-- The row holds for the field at `page`, `off`, `lsb`. -/
def KeepRow.covers (r : KeepRow) (page off lsb : Nat) : Bool :=
  decide (r.page ≤ page) && decide (page < r.page + r.pages) && decide (r.off ≤ off) && (off - r.off) % r.stride == 0 &&
    decide ((off - r.off) / r.stride < r.n) && (r.lsb == 32 || r.lsb == lsb)

/-- The low bit that a key carries. -/
def keyLsb (k : Nat) : Nat := k / 4096 % 32

/-- The field of key `k` lives through a start. -/
def survives (k : Nat) : Bool := keptRows.any (fun r => r.covers (keyPage k) (keyOff k) (keyLsb k))

/-- The field of key `k` is one that the device finds. -/
def findable (k : Nat) : Bool := keptRows.any (fun r => r.found && r.covers (keyPage k) (keyOff k) (keyLsb k))

end Sys2Proof.Machine
end

