-- ==== Sys2Proof/Machine/Header.lean ====
section
/-!
DEFINITION. Machine/Header.lean: the common page header (R59, Table 03-2) and the page index (R61, Table 03-3): base index of
each page, kind, sideband access, and the units that a variant lacks (R1, Table 00-1).
-/

namespace Sys2Proof.Machine

/-- `PAGE_CTRL.ENABLE` -/
def R.ENABLE (p : Nat) : Fld := { page := p, off := 0x008, lsb := 0, width := 1, reset := 1 }
/-- `PAGE_CTRL.COMMIT` -/
def R.COMMIT (p : Nat) : Fld := { page := p, off := 0x008, lsb := 1, width := 1, reset := 0 }
/-- `PAGE_CTRL.SOFT_RESET` -/
def R.SOFT_RESET (p : Nat) : Fld := { page := p, off := 0x008, lsb := 2, width := 1, reset := 0 }
/-- `PAGE_STAT.RUNNING`, 1 at reset (assumption 3) -/
def R.RUNNING (p : Nat) : Fld := { page := p, off := 0x00C, lsb := 0, width := 1, reset := 1 }
/-- `PAGE_STAT.COMMIT_PENDING` -/
def R.COMMIT_PENDING (p : Nat) : Fld := { page := p, off := 0x00C, lsb := 1, width := 1, reset := 0 }
/-- `PAGE_STAT.CFG_REJECT` -/
def R.CFG_REJECT (p : Nat) : Fld := { page := p, off := 0x00C, lsb := 2, width := 1, reset := 0 }
/-- `PAGE_STAT.STALE` -/
def R.STALE (p : Nat) : Fld := { page := p, off := 0x00C, lsb := 3, width := 1, reset := 0 }
/-- `FLT_STAT.FAULT` -/
def R.FLT_STAT (p : Nat) : Fld := { page := p, off := 0x010, lsb := 0, width := 16, reset := 0 }
/-- `FLT_MASK.MASK` -/
def R.FLT_MASK (p : Nat) : Fld := { page := p, off := 0x014, lsb := 0, width := 16, reset := 0 }
/-- `FLT_FORCE.INJECT` -/
def R.FLT_FORCE (p : Nat) : Fld := { page := p, off := 0x018, lsb := 0, width := 16, reset := 0 }
/-- `FLT_SEV`: two bits for each fault bit -/
def R.FLT_SEV (p : Nat) : Fld := { page := p, off := 0x01C, lsb := 0, width := 32, reset := sevReset p }
/-- `EVT_CNT.COUNT` -/
def R.EVT_CNT (p : Nat) : Fld := { page := p, off := 0x020, lsb := 0, width := 32, reset := 0 }
/-- `LOCK.LOCKED` -/
def R.LOCKED (p : Nat) : Fld := { page := p, off := 0x024, lsb := 0, width := 1, reset := 0 }

/-- The page indices of Table 03-3. -/
def pageList : List Nat :=
  [0x000, 0x001, 0x002, 0x010, 0x011] ++ (List.range 16).map (0x020 + ·) ++
    [0x030, 0x040, 0x041, 0x042, 0x043, 0x044] ++ (List.range 32).map (0x050 + ·) ++
    [0x070, 0x071, 0x080, 0x090, 0x091, 0x092, 0x093, 0x094, 0x095, 0x0A0, 0x0A1, 0x0A8, 0x0A9, 0x0AA, 0x0B0, 0x0B8,
      0x0B9, 0x0C0, 0x0C1, 0x0C8, 0x0C9, 0x0D0, 0x0D1, 0x0D8, 0x0E0]

/-- The base index of the block a page belongs to: the first index of its row in Table 03-3 (R60). -/
def pageBase (p : Nat) : Nat :=
  if 0x010 ≤ p ∧ p ≤ 0x011 then 0x010
  else if 0x020 ≤ p ∧ p ≤ 0x02F then 0x020
  else if 0x050 ≤ p ∧ p ≤ 0x06F then 0x050
  else if 0x091 ≤ p ∧ p ≤ 0x094 then 0x091
  else if 0x0A9 ≤ p ∧ p ≤ 0x0AA then 0x0A9
  else p

/-- `PAGE_ID` of a present page: layout 1, instance, block code (R60). -/
def pageId (p : Nat) : Nat := (0x4B00 + pageBase p % 256) * 65536 + (p - pageBase p) * 256 + 1

/-- `LOCK.MAINT_ONLY`: pages writable only under maintenance access (R71): `SQP`. -/
def maintOnly (p : Nat) : Bool := p == 0xA1

/-- Pages of kind F: `ENABLE` fixed at 1 (Table 03-3). -/
def kindF (p : Nat) : Bool := decide (p ≤ 2)

/-- Pages of kind K: kiln-critical (Table 03-3). -/
def kindK (p : Nat) : Bool :=
  [0x040, 0x042, 0x043, 0x044, 0x070, 0x071, 0x0A0, 0x0A1, 0x0A8, 0x0A9, 0x0AA, 0x0B0, 0x0B8, 0x0B9, 0x0C0, 0x0C1, 0x0D0,
    0x0E0].contains p

/-- Sideband access of a page (Table 03-3): 0 none, 1 read only, 2 read, and write under maintenance access. -/
def sbAccess (p : Nat) : Nat :=
  if p = 0x071 ∨ p = 0x0D1 then 0 else if p = 0x0A0 ∨ p = 0x0A1 ∨ p = 0x0B9 then 2 else 1

/-- Whether the variant has the page (R1, R61, R62, Table 00-1). -/
def pagePresent (v : Variant) (p : Nat) : Bool :=
  pageList.contains p &&
    (match v with
      | .f => true
      | .s => !(decide (0x090 ≤ p) && decide (p ≤ 0x095))
      | .e => !((decide (0x090 ≤ p) && decide (p ≤ 0x095)) || p == 0x011 || p == 0x0A8 || p == 0x0AA ||
          (decide (0x028 ≤ p) && decide (p ≤ 0x02F)) || (decide (0x060 ≤ p) && decide (p ≤ 0x06F))))

/-- `PAGE_CAP` of a present page: `PRESENT`, and the bits that the block's chapter names. -/
def pageCap (v : Variant) (p : Nat) : Nat :=
  let full := match v with
    | .e => false
    | .f => true
    | .s => true
  let peers := match v with
    | .f => true
    | .s => false
    | .e => false
  let bit := fun (b : Bool) (i : Nat) => if b then 2 ^ i else 0
  if p = 0x0B0 then 3 + bit full 2
  else if p = 0x010 ∨ p = 0x011 then 15
  else if p = 0x044 then 1 + bit (!full) 1
  else if p = 0x070 then 1 + bit peers 1
  else if p = 0x042 then 5 + bit peers 1
  else if p = 0x043 then 7
  else if p = 0x080 then 1 + bit peers 1 + bit full 2
  else if p = 0x0A9 ∨ p = 0x0AA then 1 + bit full 1
  else if [0x000, 0x001, 0x002, 0x030, 0x071, 0x0A1, 0x0B8, 0x0B9, 0x0C0, 0x0C1, 0x0E0].contains p then 1
  else 3

end Sys2Proof.Machine

namespace Sys2Proof

/-- Whether the variant has the Daluf fabric and racking (Table 00-1). -/
def Variant.fabric : Variant → Bool
  | .f => true
  | .s => false
  | .e => false

/-- Whether the variant has the energy gauge and full pack ports (Table 00-1). -/
def Variant.gauge : Variant → Bool
  | .f => true
  | .s => true
  | .e => false

/-- DRAM channels the variant has. -/
def Variant.dmcs : Variant → Nat
  | .f => 16
  | .s => 16
  | .e => 8

/-- NAND channels the variant has. -/
def Variant.nchs : Variant → Nat
  | .f => 32
  | .s => 32
  | .e => 16

/-- CXL host ports the variant has. -/
def Variant.ports : Variant → Nat
  | .f => 2
  | .s => 2
  | .e => 1

/-- Persist queue pairs the variant has. -/
def Variant.pairs : Variant → Nat
  | .f => 262144
  | .s => 262144
  | .e => 65536

/-- LDPC engines active on a part as shipped (Table 00-1). -/
def Variant.engines : Variant → Nat
  | .f => 32
  | .s => 32
  | .e => 16

end Sys2Proof
end

