-- ==== Sys2Proof/Machine/State.lean ====
section
/-!
DEFINITION. Machine/State.lean: the state of the device as plain data, the reasons a step can stop, and the state at reset:
the module after power has come and before boot step B1, with every register at the reset value of its table (R443) or at
the value assumption 3 names.
-/

namespace Sys2Proof.Machine

/-- Why a step stops with a fault. -/
inductive Fault where
  /-- a CXL.mem access to a device physical address outside the port's slice or the device's capacity, which the spec says
  does not exist for that port (R83, R84, R85): raised by `HOST_READ` and `HOST_WRITE`. Safe: the device never serves such an
  access -/
  | dpaOutsideSlice
deriving DecidableEq, Repr

/-- Why a step has no meaning. -/
inductive Refusal where
  /-- the command has no meaning in this model yet: raised by a refused arm of `exec` only. Safe -/
  | notModelled (mnemonic : String)
deriving DecidableEq, Repr

structure State where
  variant : Variant := .f
  /-- register fields that differ from their reset values -/
  regs : NMap := []
  /-- staged writes of S fields and accepted writes that wait for a safe point: field key to value plus one (R9, R65, R550) -/
  staged : NMap := []
  /-- high words latched by a read of a `_LO` register: requester and register to value plus one (R58) -/
  latched : NMap := []
  track : Track := {}
  maint : Maint := {}
  safe : Safe := {}
  recs : Records := {}
  hostA : HostPort := {}
  hostB : HostPort := {}
  dram : Dram := {}
  dirty : Dirty := {}
  budget : Budget := {}
  kiln : Kiln := {}
  cellar : Cellar := {}
  steep : Steep := {}
  queues : Queues := {}
  fabric : Fabric := {}
  racking : Racking := {}
  packA : Pack := {}
  packB : Pack := {}
  learnt : List Learnt := []
  seq : Seq := {}
  power : Power := {}
  cal : Cal := {}
  flash : CodeFlash := {}
  update : Update := {}
  /-- processors that do not run now, by the number of Table 03-5 (`FWVER_n`); before B5 only the Sentinel runs (Table 15-5) -/
  halted : List Nat := [2, 3, 4, 5]
  /-- clock domains out of tolerance (R21) -/
  badClocks : List Nat := []
  /-- device timestamp: the seconds that the host set, plus one (0 none), and the operating seconds then (R201) -/
  hostTime : Nat := 0
  hostTimeAt : Nat := 0
  /-- the model's own: how many open values have been taken (assumption 2) -/
  freeCtr : Nat := 0
  /-- the model's own: what the command just run sent out of the device -/
  out : List Output := []
  /-- commands taken while the processor that carries them out is stopped: they wait, whole, for it to run again (R18, R105, R521) -/
  held : List Instr := []
  /-- the commands that wait, first in, first out -/
  pending : List Instr := []
deriving DecidableEq, Repr

/-- The device at reset: variant F, power applied, before boot step B1. -/
def State.reset : State := {}

end Sys2Proof.Machine
end

