-- ==== Sys2Proof/Machine/Ops.lean ====
section
/-!
DEFINITION. Machine/Ops.lean: the named operations over the state that every block uses: register fields, saturating counters,
the trouble log (R468 to R470), host event records (R95), the persistence status page (R77, R78), the dirty load (R93, R94),
fault detections and conditions (R453, R454), and the answers a command sends.
-/

namespace Sys2Proof.Machine

open Sys2Proof

/-! ### Register fields -/

/-- The value of a register field. -/
def State.rd (s : State) (f : Fld) : Nat := RegFile.rd s.regs f

/-- The state with `v`, cut to its width, in a register field. -/
def State.wr (s : State) (f : Fld) (v : Nat) : State := { s with regs := RegFile.wr s.regs f v }

/-- Whether a one-bit field is set. -/
def State.flag (s : State) (f : Fld) : Bool := s.rd f != 0

/-- One more in a field that saturates. -/
def State.inc (s : State) (f : Fld) : State := if s.rd f + 1 < 2 ^ f.width then s.wr f (s.rd f + 1) else s

/-- `n` more in a field that saturates. -/
def State.addSat (s : State) (f : Fld) (n : Nat) : State := s.wr f (min (2 ^ f.width - 1) (s.rd f + n))

/-- One more in a field that wraps. -/
def State.bump (s : State) (f : Fld) : State := s.wr f (s.rd f + 1)

/-- Whether bit `i` of a field is set. -/
def State.bit (s : State) (f : Fld) (i : Nat) : Bool := (s.rd f).testBit i

/-- Bit `i` of a field set to `b`. -/
def State.setBit (s : State) (f : Fld) (i : Nat) (b : Bool) : State :=
  if s.bit f i = b then s else s.wr f (s.rd f ^^^ 2 ^ i)

/-- `g s` where `c` holds, else `s`. -/
def State.cond (s : State) (c : Bool) (g : State → State) : State := if c then g s else s

/-- `g` over each number below `n`, in rising order. -/
def State.each (s : State) (n : Nat) (g : State → Nat → State) : State := (List.range n).foldl g s

/-- A Boolean as a field value. -/
def b2n (b : Bool) : Nat := if b then 1 else 0

/-- A number as a two's complement field of `w` bits. -/
def toField (w : Nat) (i : Int) : Nat := (i % (2 ^ w : Int)).toNat

/-- The signed value of a two's complement field of `w` bits. -/
def ofField (w : Nat) (v : Nat) : Int := if v < 2 ^ (w - 1) then (v : Int) else (v : Int) - (2 ^ w : Int)

/-- A fresh open value of `w` bits, and the state after taking it (assumption 2). -/
def State.takeFree (s : State) (w : Nat) : Nat × State :=
  ((Config.freeValue s.freeCtr).toNat % 2 ^ w, { s with freeCtr := s.freeCtr + 1 })

/-- What the command sends out next. -/
def State.send (s : State) (o : Output) : State := { s with out := s.out ++ [o] }

/-- The start of a command: nothing sent yet, an empty collection window, no fallback called for (each command ends with all
of its own carried out, `finish`). -/
def State.begin (s : State) : State :=
  { s with out := [], safe := { s.safe with todo := [] }, update := { s.update with trigger := false } }

/-! ### The variant -/

/-- The fields that the variant fuses: part number and suffix, the unit set, clock domains absent, the source of the counted energy
(R1, R75, R76, Table 00-1). No more engines are active than the variant has. -/
def State.fuse (s : State) : State :=
  let v := s.variant
  let w := ((s.wr R.ID_PART_NUMBER (if v.gauge then 0x3216 else 0x1608)).wr R.ID_PART_SUFFIX (match v with
    | .f => 0x46
    | .s => 0x53
    | .e => 0x45)).wr R.CAP_DMC_FUSED (2 ^ v.dmcs - 1)
  let w := ((w.wr R.CAP_NCH_FUSED (2 ^ v.nchs - 1)).wr R.CAP_UNITS_HOST_PORTS (2 ^ v.ports - 1)).wr R.CAP_UNITS_FABRIC (b2n v.fabric)
  let w := ((w.wr R.CAP_UNITS_RACKING (b2n v.fabric)).wr R.CAP_UNITS_GAUGE (b2n v.gauge)).wr R.CAP_UNITS_PACK_PORTS
    (if v.gauge then 3 else 0)
  let w := ((w.wr R.CAP_QUEUES v.pairs).wr R.CAP_CLK_ABSENT (match v with
    | .f => 0
    | .s => 0x70000
    | .e => 0x70CC2)).wr R.BUD_E_COUNT_SRC (b2n (!v.gauge))
  let r := s.rd (R.ID_REPAIR 0)
  let n := min (r % 256) v.engines
  (w.wr (R.ID_REPAIR 0) (r / 256 * 256 + n)).wr R.CAP_UNITS_LDPC_ACTIVE n

/-- A part of a variant at reset: State.reset with what the variant fuses, the queues split in halves (Table 10-8). -/
def State.resetOf (v : Variant) : State := ({ State.reset with variant := v }).fuse.wr R.PQE_SPLIT (v.pairs / 2)

/-! ### Parts with two copies -/

/-- Host port `p`. -/
def State.host (s : State) (p : Nat) : HostPort := if p = 0 then s.hostA else s.hostB

/-- Host port `p` replaced. -/
def State.setHost (s : State) (p : Nat) (h : HostPort) : State :=
  if p = 0 then { s with hostA := h } else { s with hostB := h }

/-- A word of the header (Table 03-2). `COMMIT` reads 1 until its safe point. -/
def State.headerWord (s : State) (page off : Nat) : Nat :=
  match off with
  | 0x000 => pageId page
  | 0x004 => pageCap s.variant page
  | 0x008 => s.rd (R.ENABLE page) + 2 * s.rd (R.COMMIT_PENDING page) + 4 * s.rd (R.SOFT_RESET page)
  | 0x00C => s.rd (R.RUNNING page) + 2 * s.rd (R.COMMIT_PENDING page) + 4 * s.rd (R.CFG_REJECT page) + 8 * s.rd (R.STALE page)
  | 0x010 => s.rd (R.FLT_STAT page)
  | 0x014 => s.rd (R.FLT_MASK page)
  | 0x018 => s.rd (R.FLT_FORCE page)
  | 0x01C => s.rd (R.FLT_SEV page)
  | 0x020 => s.rd (R.EVT_CNT page)
  | 0x024 => s.rd (R.LOCKED page) + 2 * b2n (maintOnly page) + 4 * b2n s.maint.isOpen
  | _ => 0

/-- The pages that a processor owns (Table 01-5, assumption 15). -/
def procPages (n : Nat) : List Nat :=
  match n with
  | 1 => [0x0E0]
  | 2 => [0x090, 0x091, 0x092, 0x093, 0x094, 0x095]
  | 3 => [0x070]
  | 4 => [0x010, 0x011, 0x0C8, 0x0C9, 0x0D0, 0x0D1, 0x0D8]
  | 5 => [0x002, 0x042, 0x044, 0x0A0, 0x0A1, 0x0A8, 0x0A9, 0x0AA, 0x0C0, 0x0C1]
  | _ => []

/-- A command waits, whole, for a stopped processor. -/
def State.hold (s : State) (c : Instr) : State := { s with held := s.held ++ [c] }

/-- An MSI-X vector of a host port, where its configuration space enables MSI-X (Table 04-1). -/
def State.msix (s : State) (p vec : Nat) : State := if (s.host p).msixOn then s.send (.msix p vec) else s

/-- The port whose mailbox brings a command, of those that can wait there. -/
def mailPort (c : Instr) : Option Nat :=
  match c with
  | .identify p => some (p % 2)
  | .getHealthInfo p => some (p % 2)
  | .getEventRecords p _ => some (p % 2)
  | .clearEventRecords p _ _ _ => some (p % 2)
  | .getSupportedLogs p => some (p % 2)
  | .getLog p => some (p % 2)
  | .getFwInfo p => some (p % 2)
  | .getTimestamp p => some (p % 2)
  | .setTimestamp p _ => some (p % 2)
  | .getAlertConfiguration p => some (p % 2)
  | .setAlertConfiguration p _ => some (p % 2)
  | .setShutdownState p _ => some (p % 2)
  | .getPoisonList p _ _ => some (p % 2)
  | .injectPoison p _ _ => some (p % 2)
  | .clearPoison p _ _ _ => some (p % 2)
  | .scanMedia p _ _ _ => some (p % 2)
  | .sanitize p => some (p % 2)
  | .secureErase p => some (p % 2)
  | .getCorirvoInfo p => some (p % 2)
  | .getPersistenceReport p => some (p % 2)
  | .setPartition p _ _ _ _ => some (p % 2)
  | .plannedKiln p _ _ => some (p % 2)
  | .caskUnlock p _ => some (p % 2)
  | .setCaskHostKey p _ _ _ => some (p % 2)
  | .readTroubleLog p _ _ _ => some (p % 2)
  | .readEventRecorder p _ => some (p % 2)
  | .rackExport p _ _ _ _ _ => some (p % 2)
  | .brewTransfer p _ _ _ _ => some (p % 2)
  | .updateStatus p => some (p % 2)
  | .updateStart p _ => some (p % 2)
  | .updateActivate p => some (p % 2)
  | .updateActivateAtReset p => some (p % 2)
  | .updateAbort p => some (p % 2)
  | .transferFwInitiate p => some (p % 2)
  | .transferFwContinue p _ _ _ _ => some (p % 2)
  | .transferFwEnd p => some (p % 2)
  | .transferFwAbort p => some (p % 2)
  | .transferFwFull p _ _ _ => some (p % 2)
  | .activateFwOnline p => some (p % 2)
  | .activateFwReset p => some (p % 2)
  | _ => none

/-- A reset mailbox forgets the command that waits in it (R82). -/
def State.dropHeld (s : State) (p : Nat) : State := { s with held := s.held.filter (fun c => mailPort c != some p) }

/-- Pack port `p`. -/
def State.pack (s : State) (p : Nat) : Pack := if p = 0 then s.packA else s.packB

/-- Pack port `p` replaced. -/
def State.setPack (s : State) (p : Nat) (k : Pack) : State :=
  if p = 0 then { s with packA := k } else { s with packB := k }

/-! ### What several blocks ask -/

/-- hc (R36). -/
def State.hc (s : State) : Nat := s.rd R.PHS_HC
/-- pu (R36). -/
def State.pu (s : State) : Nat := s.rd R.PHS_PU
/-- The timebase as pu since the start. -/
def State.puNow (s : State) : Nat := s.hc * 1024 + s.pu
/-- A span of pu in µs at the tracked period (assumption 10). -/
def State.usOf (s : State) (dpu : Nat) : Nat := dpu * s.rd R.PHS_PERIOD / 102400
/-- Less than `us` have passed since the moment `at0`, held plus one; 0 is none. -/
def State.within (s : State) (at0 us : Nat) : Bool := at0 != 0 && decide (s.usOf (s.puNow + 1 - at0) < us)
/-- Operating seconds (R51). -/
def State.opsec (s : State) : Nat := s.rd R.PHS_OPSEC
/-- Charge drawn less charge returned, in ct (R44). -/
def State.netCt (s : State) : Int := (s.rd R.PHS_CT_DRAWN : Int) - (s.rd R.PHS_CT_RET : Int)
/-- The block of a page runs: it has not halted after `ENABLE` was cleared (R64). -/
def State.works (s : State) (page : Nat) : Bool := s.flag (R.RUNNING page)
/-- The processor runs now. -/
def State.runs (s : State) (p : Proc) : Bool := !s.halted.contains p.idx
/-- A kiln phase runs: `KLN.STAT.STATE` is 8 to 15 (Table 08-1). -/
def State.inKiln (s : State) : Bool := decide (8 ≤ s.rd R.KLN_STAT_STATE)
/-- The kiln phase number, 0 to 7, in a kiln. -/
def State.kilnPhase (s : State) : Nat := s.rd R.KLN_STAT_STATE - 8
/-- A kiln has reached K3. -/
def State.pastK3 (s : State) : Bool := s.inKiln && decide (3 ≤ s.kilnPhase)
/-- The kiln controller is Ready or Primed. -/
def State.kilnLive (s : State) : Bool := s.rd R.KLN_STAT_STATE == 1 || s.rd R.KLN_STAT_STATE == 2
/-- Steep Ready has been reached: the steep is in ST2, ST3 or ST4 (Table 09-1). -/
def State.steepReady (s : State) : Bool := decide (2 ≤ s.rd R.STP_STAT_PHASE)
/-- `FAIL_MV` and `WARN_MV` as treated (Table 08-13, R548). -/
def State.failMv (s : State) : Nat := clampTo 9000 11500 (s.rd R.KLN_THR_FAIL_MV)
def State.warnMv (s : State) : Nat := clampTo (s.failMv + 200) 11800 (s.rd R.KLN_THR_WARN_MV)
/-- The device timestamp in seconds, plus one; 0 where the host has set none since the start (R201). -/
def State.hostNow (s : State) : Nat := if s.hostTime = 0 then 0 else s.hostTime + (s.opsec - s.hostTimeAt)
/-- The port is link-up. -/
def State.linkUp (s : State) (p : Nat) : Bool := s.flag (R.HP_LINK_STAT_UP p)
/-- The port exists in the variant. -/
def State.hasPort (s : State) (p : Nat) : Bool := decide (p < s.variant.ports)
/-- The treated value of `ID.ADMIN.PORT`: 0, 1 or 2 (Table 03-5). -/
def State.admin (s : State) : Nat := min 2 (s.rd R.ID_ADMIN)
/-- `ID.ADMIN.PORT` selects the port (R72). -/
def State.isAdmin (s : State) (p : Nat) : Bool := s.admin == 2 || s.admin == p || !s.hasPort 1
/-- The DPA granule lies in the port's slice (R84). -/
def State.inSlice (s : State) (p g : Nat) : Bool :=
  decide (s.rd (R.HP_SLICE_BASE p) * 65536 ≤ g) && decide (g < (s.rd (R.HP_SLICE_BASE p) + s.rd (R.HP_SLICE_SIZE p)) * 65536)

/-! ### The trouble log -/

/-- `TLG.HEAD`, `OLDEST` and `COUNT` of the selected log (Table 17-5). -/
def State.showTlog (s : State) : State :=
  let log := if s.flag R.TLG_CTRL_SRC then s.recs.snap else s.recs.live
  let head := if s.flag R.TLG_CTRL_SRC then (match log.getLast? with
      | some e => e.seqno + 1
      | none => 1) else s.recs.nextSeq
  ((s.wr R.TLG_HEAD head).wr R.TLG_OLDEST ((log.head?.map (fun e => e.seqno)).getD 0)).wr R.TLG_COUNT log.length

/-- Append an entry to the live log; with 4,096 entries held it takes the place of the oldest (R468). -/
def State.pushTlog (s : State) (e : TEntry) : State :=
  let live := if 4096 ≤ s.recs.live.length then s.recs.live.drop 1 else s.recs.live
  ({ s with recs := { s.recs with live := live ++ [{ e with seqno := s.recs.nextSeq }],
                                  nextSeq := s.recs.nextSeq + 1 } }).showTlog

/-- A detection enters the collection window (R453). -/
def State.detect (s : State) (src inst : Nat) : State :=
  { s with safe := { s.safe with todo := s.safe.todo ++ [(src, inst)] } }

/-- The treated value of `TLG.CTRL.RATE` (Table 17-5). -/
def State.tlogRate (s : State) : Nat := max 1 (s.rd R.TLG_CTRL_RATE)

/-- Append an entry under the rate limit of its code; an entry held back is counted and latches F199 (R470). `limited` is
false for entries that are never limited. -/
def State.appendTlog (s : State) (limited : Bool) (e : TEntry) : State :=
  if limited && decide (s.tlogRate ≤ s.recs.used.get e.code) then
    (({ s with recs := { s.recs with held := s.recs.held.set e.code (s.recs.held.get e.code + 1) } }).inc
      R.TLG_DROPPED).cond (e.code != 199) (fun s => s.detect 199 0)
  else
    ({ s with recs := { s.recs with used := s.recs.used.set e.code (s.recs.used.get e.code + 1) } }).pushTlog e

/-- A trouble-log entry stamped now. -/
def State.stamp (s : State) (code data : Nat) : TEntry :=
  { code := code, sev := 0, injected := false, masked := false, inst := 0, seqno := 0, opsec := s.opsec,
    pcycles := s.rd R.PHS_PCYCLES, hc := s.hc, pu := s.pu, data := data % 2 ^ 32 }

/-- Log an event that is no fault latch (R468, Table 17-1). -/
def State.tlog (s : State) (code data : Nat) : State := s.appendTlog true (s.stamp code data)

/-- Log a notice: code 0x0106 with the page index (assumption 7: the code table gives notices their codes). -/
def State.notice (s : State) (page : Nat) : State := s.tlog 0x0106 page

/-- Log a warning: code 0x0107 with the page index (assumption 7). -/
def State.warning (s : State) (page : Nat) : State := s.tlog 0x0107 page

/-- A register write is rejected: `CFG_REJECT` is set (R9). -/
def State.reject (s : State) (page : Nat) : State := s.wr (R.CFG_REJECT page) 1

/-! ### Host event records -/

/-- The ports a record goes to (R95). -/
def State.eventPorts (s : State) (granule : Option Nat) : List Nat :=
  match granule with
  | some g => (List.range s.variant.ports).filter (fun p => s.inSlice p g)
  | none =>
    if s.variant.ports = 1 then [0]
    else if s.admin = 2 then (if s.linkUp 0 then [0] else [1])
    else [0, 1]

/-- Event log fields: records pending. -/
def evtPend (p log : Nat) : Fld :=
  match log with
  | 0 => R.HP_EVT_PEND_INFO p
  | 1 => R.HP_EVT_PEND_WARN p
  | 2 => R.HP_EVT_PEND2_FAIL p
  | _ => R.HP_EVT_PEND2_FATAL p

/-- Put a record into one log of one port: 256 records, then overflow (R95, Table 04-1); the vector follows the log's
interrupt policy. -/
def State.pushEvent (s : State) (log : Nat) (kind : EvtKind) (granule : Option Nat) (words : List Nat) (p : Nat) :
    State :=
  let h := s.host p
  let l := h.logs.getD log []
  if 256 ≤ l.length then
    (s.setBit (R.HP_EVT_OVF p) log true).cond (!s.bit (R.HP_EVT_OVF p) log) (fun s => s.detect 4 p)
  else
    let r : EvtRec := { handle := h.nextHandle, kind := kind, granule := granule, words := words }
    ((s.setHost p { h with logs := h.logs.set log (l ++ [r]), nextHandle := h.nextHandle + 1 }).wr (evtPend p log)
      (l.length + 1)).cond (h.policy.getD log 0 == 1) (fun s => s.msix p (log + 1))

/-- The subtype byte of a record; 0 for the CXL-defined kinds. -/
def EvtKind.subtype : EvtKind → Nat
  | .vendor n => n
  | .generalMedia => 0
  | .dram => 0
  | .memoryModule => 0

/-- Send a host event record to its ports and the trouble log (R95). Logs: 0 Informational, 1 Warning, 2 Failure, 3 Fatal. -/
def State.event (s : State) (log : Nat) (kind : EvtKind) (granule : Option Nat) (words : List Nat) : State :=
  ((s.eventPorts granule).foldl (fun s p => s.pushEvent log kind granule words p) s).tlog 0x0105
    (log + kind.subtype * 256)

/-- A Corirvo vendor record (R96). -/
def State.vendor (s : State) (log subtype : Nat) (words : List Nat) : State :=
  s.event log (.vendor subtype) none words

/-! ### Health -/

/-- `MAX_WIDTH` as treated: 0 as 5 (Table 04-10); 6 and 7 as 5 (DESIGN CHOICE, assumption 153). -/
def State.maxWidth (s : State) (p : Nat) : Nat :=
  let v := s.rd (R.HP_LINK_CTRL_MAX_WIDTH p)
  if v = 0 ∨ 5 < v then 5 else v

/-- `MAX_RATE` as treated: 1, 2 and 7 as 3, 3 and 6 (Table 04-10); 0 as 6 (DESIGN CHOICE, assumption 153). -/
def State.maxRate (s : State) (p : Nat) : Nat :=
  let v := s.rd (R.HP_LINK_CTRL_MAX_RATE p)
  if v = 7 ∨ v = 0 then 6 else max 3 v

/-- The link trained below x16 or below the lesser of 64 GT/s and `MAX_RATE` (R81). -/
def State.degradedLink (s : State) (p : Nat) : Bool :=
  s.linkUp p && (decide (s.rd (R.HP_LINK_STAT_WIDTH p) < 5) || decide (s.rd (R.HP_LINK_STAT_RATE p) < min 6 (s.maxRate p)))

/-- Media Status of Get Health Info by its CXL code (Table 04-7). -/
def State.mediaStatus (s : State) : Nat :=
  if s.steepReady = false then 1
  else match s.rd R.PST_STATE_STATE with
    | 0 => 0
    | 1 => 6
    | _ => 4

/-- Health Status (Table 04-7): bit 0 maintenance needed, bit 1 performance degraded, bit 2 hardware replacement needed. -/
def State.healthStatus (s : State) : Nat :=
  let slow := (List.range s.variant.ports).any s.degradedLink || decide (0 < s.rd (R.ID_REPAIR 0) / 2 ^ 24) ||
    (s.variant.fabric && (List.range 4).any (fun i => s.rd (R.DLP_STAT_LANES i) == 3))
  let replace := decide (10000 ≤ s.rd R.CEL_LIFE_USED) || (if s.variant.gauge then [0, 1] else []).any (fun i => s.flag (R.PK_STAT_REPLACE i))
  b2n (s.rd R.PST_STATE_STATE != 0) + b2n slow * 2 + b2n replace * 4

/-- DRAM errors corrected since the start (Table 04-7). -/
def State.ceTotal (s : State) : Nat := min (2 ^ 32 - 1) ((List.range s.variant.dmcs).map (fun c => s.rd (R.DMC_CE_CNT c))).sum

/-- The health fields that a Memory Module record reports a change of, all those of Table 04-7: Health Status, Media Status, Life
Used, temperature, dirty shutdown count, corrected volatile and persistent errors. -/
def State.healthKey (s : State) : List Nat :=
  [s.healthStatus, s.mediaStatus, min 100 (s.rd R.CEL_LIFE_USED / 100), s.rd R.MON_TEMP_DIE_C, s.rd (R.HP_DSC 0), 0, s.ceTotal]

/-- R95: a change of the health fields sends a Memory Module record, to the Informational log (DESIGN CHOICE, assumption 191: the
spec names no log for it). -/
def State.healthNote (s : State) : State :=
  if s.recs.health = s.healthKey then s
  else ({ s with recs := { s.recs with health := s.healthKey } }).event 0 .memoryModule none s.healthKey

/-! ### Dirty load -/

/-- `LOAD_CTRL.OPT_PCT` as treated (Table 04-10). -/
def State.optPct (s : State) (p : Nat) : Nat := min 89 (s.rd (R.HP_LOAD_CTRL_OPT_PCT p))
/-- `LOAD_CTRL.MOD_PCT` as treated (Table 04-10). -/
def State.modPct (s : State) (p : Nat) : Nat := max (s.optPct p) (min 89 (s.rd (R.HP_LOAD_CTRL_MOD_PCT p)))

/-- The level that D and B call for, with D raised by `slack` granules (Table 04-4). -/
def State.loadLevel (s : State) (p slack : Nat) : Nat :=
  let d := s.rd R.PST_DIRTY + slack
  let b := s.rd R.PST_BOUND
  if s.modPct p * b ≤ 100 * d then 2 else if s.optPct p * b ≤ 100 * d then 1 else 0

/-- `DIRTY_LOAD` re-evaluated (R93, R94): a level falls only when D is at least 1 % of B below the threshold that raised it. -/
def State.dirtyLoad (s : State) (p : Nat) : State :=
  let old := s.rd (R.HP_LOAD_STAT_DIRTY_LOAD p)
  let now := s.loadLevel p 0
  let kept := min old (s.loadLevel p (ceilDiv (s.rd R.PST_BOUND) 100))
  let severe := s.flag R.PST_STATE_PAR_DIRTY || s.flag R.PST_STATE_PNG_EXCESS
  let lvl :=
    if s.rd (R.HP_LOAD_CTRL_DIRTY_EN p) = 0 ∨ s.flag R.PST_STATE_PNG_NO_PACK ∨ s.flag R.PST_STATE_PNG_DIAG then 0
    else if severe then 3
    else max now kept
  (s.wr (R.HP_LOAD_STAT_DIRTY_LOAD p) lvl).cond (decide (old < 3) && lvl == 3)
    (fun s => s.inc (R.HP_LOAD_STAT_SEVERE_ENTRIES p))

/-! ### The persistence status page -/

/-- `PST.STATE` as one word (Table 03-7). -/
def State.pstWord (s : State) : Nat :=
  s.rd R.PST_STATE_STATE + s.rd R.PST_STATE_PNG_EXCESS * 0x100 + s.rd R.PST_STATE_PNG_NO_PACK * 0x200 +
    s.rd R.PST_STATE_PNG_DIAG * 0x400 + s.rd R.PST_STATE_PAR_DIRTY * 0x10000 + s.rd R.PST_STATE_PAR_MARGIN * 0x20000 +
    s.rd R.PST_STATE_DIAG_SRC * 0x1000000

/-- The worst state that a set reason bit calls for (R78): 2 PNG, 1 PAR, 0 PG. -/
def State.pstWorst (s : State) : Nat :=
  if s.flag R.PST_STATE_PNG_EXCESS || s.flag R.PST_STATE_PNG_NO_PACK || s.flag R.PST_STATE_PNG_DIAG then 2
  else if s.flag R.PST_STATE_PAR_DIRTY || s.flag R.PST_STATE_PAR_MARGIN then 1
  else 0

/-- A 40-bit count as two little-endian words. -/
def words40 (n : Nat) : List Nat := [n % 2 ^ 32, n / 2 ^ 32]

/-- The payload of vendor record 0x01 (Table 04-6). -/
def State.pstRecord (s : State) (before : Nat) : List Nat :=
  [1, s.pstWord, before, 0] ++ words40 (s.rd R.PST_DIRTY) ++ words40 (s.rd R.PST_BOUND) ++ words40 (s.rd R.PST_EXCESS) ++
    [s.rd R.PST_CHANGES, 0, s.hc % 2 ^ 32, s.hc / 2 ^ 32 + s.pu * 65536, 0, 0]

/-- One update of the `PST` page: `upd` writes the reasons and counts; then `STATE` is the worst they call for, a change of it
is counted, recorded and logged, `SEQ` advances, a change of the health fields is reported (R95), and every port's dirty load follows (R77, R78, R93). -/
def State.pstUpdate (s : State) (upd : State → State) : State :=
  let before := s.pstWord
  let old := s.rd R.PST_STATE_STATE
  let s := upd s
  let s := s.wr R.PST_EXCESS (s.rd R.PST_DIRTY - s.rd R.PST_BOUND)
  let s := s.wr R.PST_STATE_STATE s.pstWorst
  let s := s.cond (s.rd R.PST_STATE_STATE != old) (fun s =>
    let s := { s with fabric := { s.fabric with stateDue := true, changes := s.fabric.changes + 1 } }.inc R.PST_CHANGES
    (s.vendor (s.rd R.PST_STATE_STATE) 1 (s.pstRecord before)).tlog 0x0101 s.pstWord)
  let s := (s.bump R.PST_SEQ).healthNote
  s.each s.variant.ports State.dirtyLoad

/-! ### Fault sources -/

/-- The effective severity of a source on its page: `FLT_SEV`, never below the fixed minimum (R452). -/
def State.effSev (s : State) (src inst : Nat) : Nat :=
  max (minSev src) (s.rd (R.FLT_SEV (srcPage src inst)) / 4 ^ srcBit src % 4)

/-- The source is masked on its page (R59). -/
def State.masked (s : State) (src inst : Nat) : Bool := s.bit (R.FLT_MASK (srcPage src inst)) (srcBit src)

/-- The source's `FRT` entry: actions as `FRT.REACT` holds them (R466). -/
def State.react (s : State) (src : Nat) : Nat := s.safe.react.get src ^^^ minAct src

/-- The actions of the effective reaction (R452). -/
def State.effAct (s : State) (src inst : Nat) : Nat :=
  if s.masked src inst then minAct src else minAct src ||| s.react src

/-- The latch bit of a source is set on an instance's page. -/
def State.latchedBit (s : State) (src inst : Nat) : Bool := s.bit (R.FLT_STAT (srcPage src inst)) (srcBit src)

/-- The source's continuing state stands on some instance (R454). -/
def State.condAny (s : State) (src : Nat) : Bool := (s.safe.conds.slice (src * 32) (src * 32 + 32)).card != 0

/-- The continuing state of a source begins, goes on or ends on an instance: a state that stands and has no latch set latches
(R454). -/
def State.setCond (s : State) (src inst : Nat) (on : Bool) : State :=
  if on then
    let s' := { s with safe := { s.safe with conds := s.safe.conds.insert1 (src * 32 + inst) } }
    if s.safe.conds.has (src * 32 + inst) && s.latchedBit src inst then s' else s'.detect src inst
  else { s with safe := { s.safe with conds := s.safe.conds.erase1 (src * 32 + inst) } }

/-- Clock-fault sources and instances of a clock domain (R21 and the fault bit tables). -/
def clockFaultSrcs (v : Variant) (domain : Nat) : List (Nat × Nat) :=
  match domain with
  | 3 => [(197, 0)]
  | 4 => [(29, 0)]
  | 13 => [(88, 0)]
  | 14 => [(83, 0)]
  | 15 => [(196, 0)]
  | 16 => [(195, 0)]
  | 20 => [(250, 0)]
  | 22 => [(134, 0)]
  | 23 => [(218, 0)]
  | 24 => [(158, 0)]
  | 21 => [(142, 0)]
  | 17 => if v.fabric then [(103, 0)] else []
  | 19 => if v.fabric then [(104, 0)] else []
  | 18 => if v.fabric then [(111, 0), (111, 1), (111, 2), (111, 3)] else []
  | _ =>
    if 5 ≤ domain ∧ domain ≤ 8 then
      ((List.range 4).map (fun i => (16, 4 * (domain - 5) + i))).filter (fun c => decide (c.2 < v.dmcs))
    else if 9 ≤ domain ∧ domain ≤ 12 then
      ((List.range 8).map (fun i => (71, 8 * (domain - 9) + i))).filter (fun c => decide (c.2 < v.nchs))
    else []

/-! ### Registers that show tables and records -/

/-- A trouble-log entry as the eight words of Table 17-2. -/
def TEntry.toWords (e : TEntry) : List Nat :=
  [e.code + (e.sev + b2n e.injected * 4 + b2n e.masked * 8) * 65536 + e.inst * 2 ^ 24, e.seqno, e.opsec % 2 ^ 32,
    e.opsec / 2 ^ 32 % 256, e.pcycles, e.hc % 2 ^ 32, e.hc / 2 ^ 32 % 65536 + e.pu % 1024 * 65536, e.data]

/-- A history entry as the four words of Table 16-5. -/
def HistEntry.toWords (e : HistEntry) : List Nat :=
  [e.src % 256 + e.sev % 4 * 2 ^ 8 + e.inst % 32 * 2 ^ 10 + b2n e.injected * 2 ^ 15 + b2n e.masked * 2 ^ 16 +
      b2n e.preempt * 2 ^ 17 + e.order % 256 * 2 ^ 24,
    e.opsec % 2 ^ 32, e.opsec / 2 ^ 32 % 256 + e.pu % 1024 * 2 ^ 8, e.hc % 2 ^ 32]

/-- The 16 window words of a recorder slot: its bins, or the words of Table 17-3. -/
def RecSlot.window (r : RecSlot) : List Nat :=
  if r.extremes then
    let part := fun (e : Option (Int × Nat × Nat)) => match e with
      | none => [0, 0, 0, 0]
      | some x => [toField 32 x.1, x.2.1 % 2 ^ 32, x.2.1 / 2 ^ 32 % 256, x.2.2]
    part r.lo ++ part r.hi ++ [r.bins.headD 0] ++ List.replicate 7 0
  else r.bins

/-- `TLG.ENTRY0` to `ENTRY7`: the entry that `CURSOR` names in the selected log, zeros where the log does not hold it (R472). -/
def State.tlogWindow (s : State) : List Nat :=
  let log := if s.flag R.TLG_CTRL_SRC then s.recs.snap else s.recs.live
  match log.find? (fun e => e.seqno == s.rd R.TLG_CURSOR) with
  | some e => e.toWords
  | none => []

/-- `REC.WIN0` to `WIN15` of the slot that `CURSOR` selects (Table 17-7). -/
def State.recWindow (s : State) : List Nat :=
  match (s.recs.slots.filter (fun x => x.extremes == s.flag R.REC_CURSOR_KIND))[s.rd R.REC_CURSOR_SLOT]? with
  | some r => r.window
  | none => []

/-- The words of registers that show a table or a record: volatile ranges (Table 06-10), first error and history (Table 16-9), the
reaction table (Table 16-11), and the windows of the trouble log and the event recorder. -/
def State.heldWord (s : State) (page off : Nat) : Nat :=
  if page = 0x40 then
    let range := s.dirty.vol[s.rd R.DRT_VOL_SEL]?
    if off = 0x058 then s.dirty.vol.length
    else if off = 0x05C then (range.map (fun (r : Nat × Nat) => r.1)).getD 0
    else if off = 0x060 then (range.map (fun (r : Nat × Nat) => r.2 - r.1)).getD 0
    else 0
  else if page = 0xC0 then
    if 0x050 ≤ off ∧ off < 0x060 then ((s.safe.first.map HistEntry.toWords).getD []).getD ((off - 0x050) / 4) 0
    else if 0x100 ≤ off ∧ off < 0x200 then
      ((s.safe.hist[(off - 0x100) / 16]?.map HistEntry.toWords).getD []).getD ((off - 0x100) / 4 % 4) 0
    else 0
  else if page = 0xC1 then
    let word := fun (f : Nat → Nat) (i : Nat) => ((List.range 4).map (fun j => f (4 * i + j) * 256 ^ j)).sum
    if 0x100 ≤ off ∧ off < 0x200 then word s.react ((off - 0x100) / 4)
    else if 0x200 ≤ off ∧ off < 0x300 then word minAct ((off - 0x200) / 4)
    else 0
  else if page = 0xA1 then (if off = 0x044 then s.seq.staged.get (s.rd R.SQP_ADDR) else 0)
  else if page = 0xC8 then
    if 0x080 ≤ off ∧ off < 0x0A0 then ((s.power.heldWindows.map (fun w => w.1)).getD s.tlogWindow).getD ((off - 0x080) / 4) 0
    else 0
  else if page = 0xC9 then
    if 0x080 ≤ off ∧ off < 0x0C0 then ((s.power.heldWindows.map (fun w => w.2)).getD s.recWindow).getD ((off - 0x080) / 4) 0
    else 0
  else 0

/-! ### Mailbox answers -/

/-- CXL mailbox return codes (CXL specification): success. -/
def rcSuccess : Nat := 0
/-- Background command started. -/
def rcBackground : Nat := 1
/-- Invalid Input. -/
def rcInvalid : Nat := 2
/-- Unsupported. -/
def rcUnsupported : Nat := 3
/-- Busy. -/
def rcBusy : Nat := 6

/-- A mailbox command of port `p` completes with a return code and payload words. -/
def State.reply (s : State) (p rc : Nat) (words : List Nat) : State :=
  (s.send (.reply p rc words)).cond ((s.host p).mailIrq.testBit 0) (fun s => s.msix p 0)

/-- A background command of port `p` ends, with its return code and words. -/
def State.bgEnd (s : State) (p opcode rc : Nat) (words : List Nat) : State :=
  (s.send (.bgDone p opcode rc words)).cond ((s.host p).mailIrq.testBit 1) (fun s => s.msix p 0)

end Sys2Proof.Machine
end

