-- ==== Sys2Proof/Machine/DirtyOps.lean ====
section
/-!
DEFINITION. Machine/DirtyOps.lean: the map of granules onto DRAM channels and ranks (R112, R113), the dirty tracker (R135 to
R137, R159), heat (R139) and the wither engine's state (R153).
-/

namespace Sys2Proof.Machine

open Sys2Proof

/-! ### Arithmetic helpers -/

/-- The number of bits set among the low 64. -/
def popcount (x : Nat) : Nat := ((List.range 64).filter (fun i => x.testBit i)).length

/-- The least `i` with `n ≤ 2 ^ i`, up to 64. -/
def log2up (n : Nat) : Nat := ((List.range 65).find? (fun i => decide (n ≤ 2 ^ i))).getD 64

/-! ### Channels and ranks -/

/-- Channels in use, N (R110, R112); 1 before training. -/
def State.chN (s : State) : Nat := max 1 (popcount (s.rd R.CAP_DMC_POPULATED))

/-- k with N = 2 ^ k. -/
def State.chK (s : State) : Nat := log2up s.chN

/-- The used-channel index of a granule (R112). -/
def State.chanOf (s : State) (g : Nat) : Nat := (g ^^^ (g >>> 4) ^^^ (g >>> 8)) % 2 ^ s.chK

/-- The local granule index (R112). -/
def State.localOf (s : State) (g : Nat) : Nat := g >>> s.chK

/-- The granule at a channel and local index: the inverse of R112. -/
def State.granuleAt (s : State) (c l : Nat) : Nat :=
  let base := l * 2 ^ s.chK
  base + (c ^^^ ((base >>> 4) % 2 ^ s.chK) ^^^ ((base >>> 8) % 2 ^ s.chK))

/-- The DMC page of used channel `c`: the populated channels in rising order (R110). -/
def State.dmcOf (s : State) (c : Nat) : Nat :=
  ((List.range 16).filter (fun i => s.bit R.CAP_DMC_POPULATED i)).getD c c

/-- Ranks of each channel, at least 1; all used channels are alike (R110). -/
def State.ranks (s : State) : Nat := max 1 (s.rd (R.DMC_GEOM_RANKS (s.dmcOf 0)))

/-- Gb of one die, by the code of `GEOM.DENSITY` (Table 05-4). -/
def dieGb (code : Nat) : Nat :=
  match code with
  | 1 => 16
  | 2 => 24
  | 3 => 32
  | 4 => 64
  | _ => 0

/-- Granules of one rank of channel `c`: two subchannels of 8 data devices (Table 05-1), each a stack of dies; 1 Gb on every
data device is 2 GiB. -/
def State.rankGran (s : State) (c : Nat) : Nat :=
  dieGb (s.rd (R.DMC_GEOM_DENSITY c)) * 2 ^ s.rd (R.DMC_GEOM_CHIP_ID_BITS c) * 2 * 262144

/-- Local granules of one rank (R113, assumption 8). -/
def State.perRank (s : State) : Nat := max 1 (s.rankGran (s.dmcOf 0))

/-- The rank of a local granule (R113). -/
def State.rankOfLocal (s : State) (l : Nat) : Nat :=
  if s.rd (R.DMC_CFG_RANK_MAP 0) = 0 then min (l / s.perRank) 7 else l % s.ranks

/-- The rank of a granule's own place. -/
def State.rankOf (s : State) (g : Nat) : Nat := s.rankOfLocal (s.localOf g)

/-- Granules of a spare pool: C over the divisor of `POOL_DIV` (Table 05-6). -/
def poolOf (c div : Nat) : Nat :=
  match div with
  | 0 => c / 2048
  | 1 => c / 1024
  | 2 => c / 4096
  | _ => c / 8192

/-- Granules of the spare pool, as the last cold start sized it (R133). -/
def State.poolGranules (s : State) : Nat := poolOf (s.rd R.CAP_DRAM) s.dram.poolDiv

/-- The granule of spare slot `n`: the pool stands at the top of DRAM, its first 1/512 holding the retire table (R119). -/
def State.slotGranule (s : State) (n : Nat) : Nat :=
  s.rd R.CAP_DRAM - s.poolGranules + s.poolGranules / 512 + n

/-- Where a granule lies: its spare slot's granule where it is retired (R119). -/
def State.placeOf (s : State) (g : Nat) : Nat :=
  match s.dram.retire.get g with
  | 0 => g
  | n + 1 => s.slotGranule n

/-- The rank register index 8c + r that counts a granule (R128, R137). -/
def State.rankIdx (s : State) (g : Nat) : Nat := 8 * s.chanOf (s.placeOf g) + s.rankOf (s.placeOf g)

/-- How many local granules from `a` up to `b` lie on rank `r`. -/
def State.localsOnRank (s : State) (r a b : Nat) : Nat :=
  if s.rd (R.DMC_CFG_RANK_MAP 0) = 0 then
    let lo := max a (r * s.perRank)
    let hi := if r = 7 then b else min b ((r + 1) * s.perRank)
    hi - lo
  else
    let n := s.ranks
    (b + n - 1 - r) / n - (a + n - 1 - r) / n

/-- Granules from `lo` up to `hi` that lie, in their own places, on rank `r` of channel `c`: each aligned run of N granules
has one on every channel. -/
def State.countRank (s : State) (c r lo hi : Nat) : Nat :=
  let n := 2 ^ s.chK
  let la := ceilDiv lo n
  let lb := hi / n
  let single := fun (a b : Nat) =>
    ((List.range (b - a)).filter (fun i => s.chanOf (a + i) == c && s.rankOf (a + i) == r)).length
  if la ≤ lb then s.localsOnRank r la lb + single lo (la * n) + single (lb * n) hi else single lo hi

/-! ### Dirty bits -/

/-- The granule lies in a volatile range (R141). -/
def State.inVol (s : State) (g : Nat) : Bool := s.dirty.vol.has (g / granulesPerRegion)

/-- The granule is dirty. -/
def State.isDirty (s : State) (g : Nat) : Bool := s.dirty.bits.has g

/-- An entry of the in-flight table after a write to its granule (R159). -/
def InFlight.hit (e : InFlight) : InFlight :=
  match e.phase with
  | .read => { e with wrRead := true }
  | .prog => { e with wrProg := true }

/-- A write of R135 looks the granule up in the in-flight table (R159). -/
def State.flagInflight (s : State) (g : Nat) : State :=
  { s with dirty := { s.dirty with inflight := s.dirty.inflight.map (fun (e : InFlight) =>
      if e.granule = g then e.hit else e) } }

/-- One more or one less on the rank count of a granule. -/
def State.rankAdd (s : State) (g : Nat) : State :=
  s.wr (R.DRT_RANK_DIRTY (s.rankIdx g)) (s.rd (R.DRT_RANK_DIRTY (s.rankIdx g)) + 1)
def State.rankSub (s : State) (g : Nat) : State :=
  s.wr (R.DRT_RANK_DIRTY (s.rankIdx g)) (s.rd (R.DRT_RANK_DIRTY (s.rankIdx g)) - 1)

/-- A write of R135 to one granule: no bit in a volatile range; else the bit, the region's summary bit, D and the rank count
in the same cycle (R135 to R137). -/
def State.markDirty (s : State) (g : Nat) : State :=
  if s.inVol g then s
  else
    let s := s.flagInflight g
    if s.isDirty g then s
    else
      let s := { s with dirty := { s.dirty with bits := s.dirty.bits.insert1 g,
                                                summary := s.dirty.summary.insert1 (g / granulesPerRegion),
                                                inflow := s.dirty.inflow + 1 } }
      ((s.wr R.DRT_DIRTY (s.rd R.DRT_DIRTY + 1)).wr R.DRT_SUMMARY s.dirty.summary.card).rankAdd g

/-- One granule becomes clean: bit, D and rank count (R137). -/
def State.markClean (s : State) (g : Nat) : State :=
  if s.isDirty g then
    ({ s with dirty := { s.dirty with bits := s.dirty.bits.erase1 g } }.wr R.DRT_DIRTY
      (s.rd R.DRT_DIRTY - 1)).rankSub g
  else s

/-- Every per-rank count moved by the granules of `set`, in their own places and then for the retired ones among them in
their slots (R128); `up` adds, else subtracts. -/
def State.rankBulk (s : State) (set : RSet) (up : Bool) : State :=
  let move := fun (s : State) (i n m : Nat) =>
    let f := R.DRT_RANK_DIRTY i
    s.wr f (if up then s.rd f + n - m else s.rd f + m - n)
  let s0 := s
  let s := s.each (2 ^ s.chK * 8) (fun s i =>
    let n := (set.map (fun v => s0.countRank (i / 8) (i % 8) v.1 v.2)).sum
    if n = 0 then s else move s i n 0)
  (s.dram.retire.filter (fun e => set.has e.1)).foldl (fun s e =>
    let own := 8 * s0.chanOf e.1 + s0.rankOf e.1
    let slot := s0.rankIdx e.1
    move (move s own 0 1) slot 1 0) s

/-- The granules of `[lo, hi)` outside volatile ranges that are clean. -/
def State.cleanIn (s : State) (lo hi : Nat) : RSet :=
  let volG : RSet := s.dirty.vol.map (fun v => (v.1 * granulesPerRegion, v.2 * granulesPerRegion))
  (RSet.diff (RSet.diff [(lo, hi)] s.dirty.bits) volG)

/-- The regions a set of granules touches. -/
def regionsOf (set : RSet) : RSet :=
  set.foldl (fun acc v => RSet.add acc (v.1 / granulesPerRegion) ((v.2 + (granulesPerRegion - 1)) / granulesPerRegion)) []

/-- Every granule from `lo` up to `hi` marked dirty, as the writes of a `ZERO` or `COPY` or a range made persistent do. -/
def State.markRange (s : State) (lo hi : Nat) : State :=
  if hi ≤ lo then s
  else
    let new := s.cleanIn lo hi
    let s := { s with dirty := { s.dirty with
      bits := s.dirty.bits.union new, summary := s.dirty.summary.union (regionsOf new),
      inflow := s.dirty.inflow + new.card,
      inflight := s.dirty.inflight.map (fun (e : InFlight) =>
        if lo ≤ e.granule ∧ e.granule < hi ∧ ¬ s.inVol e.granule then e.hit else e) } }
    ((s.wr R.DRT_DIRTY (s.rd R.DRT_DIRTY + new.card)).wr R.DRT_SUMMARY s.dirty.summary.card).rankBulk new true

/-- Every granule from `lo` up to `hi` clean. -/
def State.cleanRange (s : State) (lo hi : Nat) : State :=
  let old := s.dirty.bits.slice lo hi
  let s := { s with dirty := { s.dirty with bits := s.dirty.bits.cut lo hi } }
  (s.wr R.DRT_DIRTY (s.rd R.DRT_DIRTY - old.card)).rankBulk old false

/-- The in-flight table's occupancy registers (Table 06-10). -/
def State.showInflight (s : State) : State :=
  let n := s.dirty.inflight.length
  (s.wr R.DRT_INFLIGHT_IN_USE n).wr R.DRT_INFLIGHT_PEAK (max n (s.rd R.DRT_INFLIGHT_PEAK))

/-- Copies in flight of granules of `[lo, hi)` are discarded (R142, R303). -/
def State.dropCopies (s : State) (lo hi : Nat) : State :=
  ({ s with dirty := { s.dirty with inflight := s.dirty.inflight.filter (fun e =>
      !(decide (lo ≤ e.granule) && decide (e.granule < hi))) } }).showInflight

/-! ### Heat -/

/-- The heat level of a region. -/
def State.heatLevel (s : State) (r : Nat) : Nat := s.dirty.heat.get r / 2

/-- A host write touches its region (R139). -/
def State.touch (s : State) (r : Nat) : State :=
  if s.flag R.DRT_CTRL_HEAT_EN && s.dirty.heat.get r % 2 == 0 then
    { s with dirty := { s.dirty with heat := s.dirty.heat.set r (s.dirty.heat.get r + 1) } }
  else s

/-! ### The wither engine's state -/

/-- The wither engine's states (Table 06-12). -/
def wthOff : Nat := 0
def wthIdle : Nat := 1
def wthCool : Nat := 2
def wthChase : Nat := 3
def wthHeld : Nat := 4
def wthBoost : Nat := 5
def wthFrozen : Nat := 6
def wthWaiting : Nat := 7

/-- The treated value of `TARGET_PCT` (Table 06-12). -/
def State.targetPct (s : State) : Nat := clampTo 50 88 (s.rd R.WTH_CTRL_TARGET_PCT)

/-- T, the wither target (chapter 06). -/
def State.witherT (s : State) : Nat := s.targetPct * s.rd R.PST_BOUND / 100

/-- Early Warning: the engine enters Boost (R158, Table 06-5). -/
def State.enterBoost (s : State) : State :=
  let st := s.rd R.WTH_STATE_STATE
  if s.flag R.WTH_CTRL_EW_BOOST && decide (1 ≤ st) && decide (st ≤ 4) then
    ((((s.wr R.WTH_STATE_STATE wthBoost).wr R.WTH_STATE_CEILING 127).inc R.WTH_BOOST_CNT)).detect 35 0
  else s

/-- Early Warning withdrawn: the engine leaves Boost (Table 06-5). -/
def State.leaveBoost (s : State) : State :=
  if s.rd R.WTH_STATE_STATE = wthBoost then
    (s.wr R.WTH_STATE_STATE (if s.witherT < s.rd R.DRT_DIRTY then wthChase else wthCool)).wr R.WTH_STATE_CEILING
      (s.rd R.WTH_CTRL_COOL_LEVEL)
  else s

end Sys2Proof.Machine
end

