-- ==== Sys2Proof/Machine/CellarOps.lean ====
section
/-!
DEFINITION. Machine/CellarOps.lean: the granule map (R179 to R183), codewords in flash, stripe groups and the pre-erased kiln
zone (R188 to R190).
-/

namespace Sys2Proof.Machine

open Sys2Proof

/-! ### Map entries (Table 07-5) -/

/-- `STATE` of an entry: 0 no copy, 1 image zone, 2 kiln zone, 3 lost. -/
def entState (e : Nat) : Nat := e % 4
/-- `POISON` of an entry. -/
def entPoison (e : Nat) : Bool := e.testBit 2
/-- The address fields of an entry, bits 42 to 4. -/
def entAddr (e : Nat) : Nat := e / 16 % 2 ^ 39
/-- `SEQ16` of an entry. -/
def entSeq (e : Nat) : Nat := e / 2 ^ 48
/-- An entry. -/
def mkEntry (st : Nat) (poison : Bool) (addr seq : Nat) : Nat :=
  st + b2n poison * 4 + addr % 2 ^ 39 * 16 + seq % 65536 * 2 ^ 48
/-- Channel, die and block of an address. -/
def addrBlock (a : Nat) : Nat × Nat × Nat := (a / 2 ^ 34 % 32, a / 2 ^ 30 % 16, a / 2 ^ 14 % 65536)
/-- An address from its fields. -/
def mkAddr (chan die blk page slot : Nat) : Nat :=
  slot % 4 + page % 4096 * 4 + blk % 65536 * 2 ^ 14 + die % 16 * 2 ^ 30 + chan % 32 * 2 ^ 34

/-- The map entry of a granule. -/
def State.entry (s : State) (g : Nat) : Nat := s.cellar.map.get g

/-- The granule's entry names a copy in flash (R179). -/
def State.hasCopy (s : State) (g : Nat) : Bool := entState (s.entry g) == 1 || entState (s.entry g) == 2

/-- The directory entry of a region (R180). -/
def State.dirWord (s : State) (r : Nat) : Nat :=
  let st := if s.cellar.mapDirty.has r then 3 else if s.cellar.loaded.has r then 2 else if s.cellar.dir.get r != 0 then 1 else 0
  st + b2n (s.cellar.dirKiln.has r) * 4 + b2n (s.cellar.dirLost.has r) * 8 + s.cellar.dir.get r / 16 * 16

/-- The map-page registers (Table 07-11). -/
def State.showMap (s : State) : State :=
  (s.wr R.CEL_MAP_DIRTY s.cellar.mapDirty.card).wr R.CEL_MAP_LOADED s.cellar.loaded.card

/-- A granule's entry set in its map page, which is loaded and dirty from then on (R180); `CEL.LOST` follows. -/
def State.setEntry (s : State) (g e : Nat) : State :=
  let old := s.entry g
  let r := g / granulesPerRegion
  let lost := s.rd R.CEL_LOST + b2n (entState e == 3) - b2n (entState old == 3)
  ({ s with cellar := { s.cellar with map := s.cellar.map.set g e, loaded := s.cellar.loaded.insert1 r,
                                      mapDirty := s.cellar.mapDirty.insert1 r } }.wr R.CEL_LOST lost).showMap

/-- The entries of the granules from `lo` up to `hi` released: `STATE` 0 (R142, R303). The map pages that the range has are loaded;
one with kiln-log entries not yet merged is dirty from then on (R183). -/
def State.releaseEntries (s : State) (lo hi : Nat) : State :=
  let gone := s.cellar.map.keep (fun k => decide (lo ≤ k) && decide (k < hi))
  if gone.isEmpty then s
  else
    let lost := (gone.filter (fun e => entState e.2 == 3)).length
    let rs := (regionsOf [(lo, hi)]).toList.filter (fun r => s.cellar.dir.get r != 0 || s.cellar.dirKiln.has r)
    let kiln := rs.filter (fun r => s.cellar.dirKiln.has r && !s.cellar.loaded.has r)
    ({ s with cellar := { s.cellar with
        map := s.cellar.map.keep (fun k => !(decide (lo ≤ k) && decide (k < hi))),
        loaded := (rs ++ gone.map (fun (e : Nat × Nat) => e.1 / granulesPerRegion)).foldl RSet.insert1 s.cellar.loaded,
        mapDirty := kiln.foldl RSet.insert1 (gone.foldl (fun (d : RSet) (e : Nat × Nat) => d.insert1 (e.1 / granulesPerRegion)) s.cellar.mapDirty) } }.wr
      R.CEL_LOST (s.rd R.CEL_LOST - lost)).showMap

/-! ### Codewords -/

/-- One bit of the CRC-32 of IEEE 802.3, reflected. -/
def crcBit (c : Nat) : Nat := if c.testBit 0 then (c >>> 1) ^^^ 0xEDB88320 else c >>> 1

/-- The CRC-32 of a list of bytes. -/
def crc32Bytes (bs : List Nat) : Nat :=
  bs.foldl (fun c b => (List.range 8).foldl (fun x _ => crcBit x) (c ^^^ b)) 0xFFFFFFFF ^^^ 0xFFFFFFFF

/-- The `n` bytes of a number, little-endian. -/
def leBytes (n v : Nat) : List Nat := (List.range n).map (fun i => v / 256 ^ i % 256)

/-- The tweak of a codeword: `INDEX` in bits 35 to 0, `TYPE` in bits 39 to 36 (R205). -/
def Codeword.tweak (c : Codeword) : Nat := c.index % 2 ^ 36 + c.typ % 16 * 2 ^ 36

/-- Bytes 0 to 4,127 of a codeword: the ciphertext of its 4,096 bytes under the cask key of its epoch, and its metadata in clear
(Table 07-2, R205). -/
def Codeword.body (c : Codeword) : List Nat :=
  Config.encrypt (Config.caskKey c.keyEpoch) c.tweak ((List.range granuleBytes).map (fun i => (c.data.byte i).toNat)) ++
    (leBytes 5 c.tweak ++ leBytes 8 c.poison.toNat ++ leBytes 8 c.seq ++ leBytes 8 c.batch ++ leBytes 3 0)

/-- The 4,608 bytes of a codeword: body, CRC-32 and LDPC parity (Table 07-2). -/
def Codeword.bytes (c : Codeword) : List Nat :=
  let b := c.body
  let b := b ++ leBytes 4 (crc32Bytes b)
  b ++ Config.ldpcParity b

/-- The parity codeword of a stripe: the exclusive or of the codewords in one slot of its data pages (R175). -/
def stripeParity (cs : List Codeword) : List Nat :=
  (cs.map Codeword.bytes).foldl (fun x y => x.zipWith (· ^^^ ·) y) (List.replicate 4608 0)

/-- The codeword at a flash address. -/
def flashGet : List (Nat × Codeword) → Nat → Option Codeword
  | [], _ => none
  | (a, c) :: t, x => if a = x then some c else flashGet t x

/-- A codeword put at a flash address, addresses rising. -/
def flashPut : List (Nat × Codeword) → Nat → Codeword → List (Nat × Codeword)
  | [], x, c => [(x, c)]
  | (a, d) :: t, x, c =>
    if x < a then (x, c) :: (a, d) :: t else if a = x then (x, c) :: t else (a, d) :: flashPut t x c

/-- The codeword at an address of the state's flash. -/
def State.codeword (s : State) (a : Nat) : Option Codeword := flashGet s.cellar.flash a

/-- A codeword written: it takes the next write sequence and the open batch (Table 07-2, R206). Answers the sequence. -/
def State.putCodeword (s : State) (a : Nat) (index typ : Nat) (poison : LineMask) (data : Memory) : State :=
  { s with cellar := { s.cellar with
      seq := s.cellar.seq + 1,
      flash := flashPut s.cellar.flash a
        { index := index, typ := typ, poison := poison, seq := s.cellar.seq + 1, batch := s.rd R.KLN_BATCH,
          keyEpoch := s.rd R.CRY_KEY_EPOCH, data := data } } }

/-! ### Stripe groups -/

/-- The die is usable: neither the die nor its channel is lost (R199). -/
def State.dieOk (s : State) (m : Nat × Nat × Nat) : Bool :=
  !s.cellar.deadDies.has (m.1 * 16 + m.2.1) && !s.cellar.offDies.has (m.1 * 16 + m.2.1) && !s.cellar.deadChans.has m.1

/-- The group counts in Z: erased kiln-zone group, every die usable, not allocated to a kiln (R188). -/
def State.inZ (s : State) (g : Group) : Bool :=
  (match g.zone with
    | .kiln => true
    | _ => false) &&
  (match g.st with
    | .erased => true
    | _ => false) && !g.kilnUse && g.members.all s.dieOk

/-- The treated value of `KILN_GIB` in effect (Table 07-11). -/
def State.kilnGib (s : State) : Nat := clampTo 64 4096 (s.rd R.CEL_ZONE_CTRL)

/-- Granules of the two 1 GiB manifest slots (Table 07-3). -/
def manifestGranules : Nat := 524288

/-- Z: the data capacity of the groups that count, net of the manifest slots and of the kiln log, at most net `KILN_GIB` (R188,
assumption 9). -/
def State.zNow (s : State) : Nat :=
  min (s.kilnGib * 262144) ((((s.cellar.groups.filter s.inZ).map (fun g => g.cap)).sum - manifestGranules) * 512 / 513)

/-- Whether a group belongs to a zone. -/
def Group.inZone (g : Group) (z : Zone) : Bool := decide (g.zone = z)

/-- The kiln-zone registers (Table 07-11); the pre-erase shortfall of F072 ends when Z is net `KILN_GIB` again or a spare group
is there (Table 16-2). -/
def State.showZ (s : State) : State :=
  let ks := s.cellar.groups.filter (fun g => g.inZone .kiln)
  let sp := s.cellar.groups.filter (fun g => g.inZone .kilnSpare)
  let occ := ks.filter (fun g => match g.st with
    | .free => false
    | .erased => false
    | .opened => true
    | .closed => true)
  let s := ((((s.wr R.CEL_Z s.zNow).wr R.CEL_KILN_GROUPS_TOTAL (ks.length + sp.length)).wr R.CEL_KILN_GROUPS_ERASED
    (ks.filter s.inZ).length).wr R.CEL_KILN_OCC_OCCUPIED occ.length).wr R.CEL_KILN_OCC_SPARE sp.length
  s.cond (s.condAny 72 && (decide (s.kilnGib * 262144 ≤ s.zNow) || !sp.isEmpty)) (fun s => s.setCond 72 0 false)

/-- The groups with `g` put in the place of the group of its number. -/
def putGroup (gs : List Group) (g : Group) : List Group := gs.map (fun (h : Group) => if h.id = g.id then g else h)

/-- The group that holds an address. -/
def State.groupOf (s : State) (a : Nat) : Option Group :=
  s.cellar.groups.find? (fun g => g.members.contains (addrBlock a))

/-- The address lies in the kiln zone; in the image zone. -/
def State.inKilnZone (s : State) (a : Nat) : Bool :=
  (s.groupOf a).any (fun g => g.inZone .kiln || g.inZone .kilnSpare)
def State.inImageZone (s : State) (a : Nat) : Bool := (s.groupOf a).any (fun g => g.inZone .image)

/-- The codeword that the entry of a host granule names, if it stands in the zone that `STATE` names and its `INDEX`, `TYPE` and
`SEQ` agree with the entry (R184). -/
def State.copyOf (s : State) (g : Nat) : Option Codeword :=
  let e := s.entry g
  let a := entAddr e
  match s.codeword a with
  | some c =>
    if c.index = g ∧ c.typ = 0 ∧ c.seq % 65536 = entSeq e ∧
        ((entState e = 1 ∧ s.inImageZone a) ∨ (entState e = 2 ∧ s.inKilnZone a)) then some c
    else none
  | none => none

/-- A group changed by `f`. -/
def State.updGroup (s : State) (id : Nat) (f : Group → Group) : State :=
  { s with cellar := { s.cellar with groups := s.cellar.groups.map (fun (h : Group) => if h.id = id then f h else h) } }

/-- The block has been found bad. -/
def State.isBad (s : State) (k : Nat × Nat × Nat) : Bool :=
  s.cellar.blocks.any (fun b => decide ((b.chan, b.die, b.blk) = k) && b.bad)

/-- Members of a group that are bad or on a lost die or channel. -/
def State.badMembers (s : State) (g : Group) : List (Nat × Nat × Nat) := g.members.filter (fun m => !s.dieOk m || s.isBad m)

/-- An open group with a member that cannot be programmed any more takes no more stripes: it is closed (R198, R199). -/
def State.closeBroken (s : State) : State :=
  { s with cellar := { s.cellar with groups := s.cellar.groups.map (fun (g : Group) =>
      if g.st = .opened ∧ s.badMembers g ≠ [] then { g with st := .closed, closedAt := s.cellar.opOrder } else g) } }

/-- A group erased in its mode: its codewords are gone, its blocks have one more cycle and no reads (R188, R195, R203). Of a group
that has been re-formed only the blocks that joined it are erased (R190). -/
def State.eraseGroup (s : State) (id : Nat) : State :=
  match s.cellar.groups.find? (fun g => g.id == id) with
  | none => s
  | some g =>
    let pslc := g.inZone .kiln || g.inZone .kilnSpare || g.inZone .records
    let part := if g.st = .free ∧ g.pendErase ≠ [] then g.pendErase else g.members
    ({ s with cellar := { s.cellar with
        opOrder := s.cellar.opOrder + 1,
        flash := s.cellar.flash.filter (fun c => !g.members.contains (addrBlock c.1)),
        reloc := s.cellar.reloc.filter (fun k => !g.members.contains k),
        groups := s.cellar.groups.map (fun (h : Group) =>
          if h.id = id then { h with st := .erased, kilnUse := false, erasedAt := s.cellar.opOrder + 1, pendErase := [] } else h),
        blocks := s.cellar.blocks.map (fun (b : Block) =>
          if part.contains (b.chan, b.die, b.blk) then
            { b with reads := 0, level := 0, tlc := b.tlc + b2n (!pslc), pslc := b.pslc + b2n pslc }
          else b) } }).showZ

/-- The cellar time in seconds (R201). -/
def State.cellarTime (s : State) : Nat := s.opsec + s.cellar.unpow

/-- Codewords in flash on the blocks of a group. -/
def State.groupFill (s : State) (g : Group) : Nat :=
  (s.cellar.flash.filter (fun c => g.members.contains (addrBlock c.1))).length

/-- A codeword has been programmed at an address: its group is open, with the cellar time of its first program, and closed once
it carries its capacity (R175, R194). -/
def State.noteProgram (s : State) (a : Nat) : State :=
  match s.groupOf a with
  | none => s
  | some g =>
    let first := decide (g.st = .erased) || decide (g.st = .free)
    let full := decide (g.cap ≤ s.groupFill g)
    let s := { s with cellar := { s.cellar with opOrder := s.cellar.opOrder + b2n full } }
    s.updGroup g.id (fun (h : Group) =>
      { h with st := if full then .closed else .opened, writtenAt := if first then s.cellarTime else h.writtenAt,
               closedAt := if full then s.cellar.opOrder else h.closedAt })

/-- Codewords consumed, as TLC codewords (R196). -/
def State.countUsed (s : State) (n : Nat) : State := { s with cellar := { s.cellar with used := s.cellar.used + n } }

/-- Granules committed (R196). -/
def State.countDone (s : State) (n : Nat) : State :=
  { s with cellar := { s.cellar with done := s.cellar.done + n, counted := s.cellar.counted + n } }

/-- A zone in pSLC (Table 07-3). -/
def Zone.pslc (z : Zone) : Bool := decide (z = .kiln) || decide (z = .kilnSpare) || decide (z = .records)

/-- Pages of a block in the mode of a zone: a pSLC block holds one third of the TLC page count (Table 07-1). -/
def State.zonePages (s : State) (chan : Nat) (z : Zone) : Nat :=
  let n := s.rd (R.NCH_GEOM_PAGES chan)
  if z.pslc then n / 3 else n

/-- The members of a group whose page at the offset of `a` holds a codeword. -/
def State.stripeUsed (s : State) (g : Group) (a : Nat) : List (Nat × Nat × Nat) :=
  g.members.filter (fun m => s.cellar.flash.any (fun c => decide (addrBlock c.1 = m) && decide (c.1 / 4 % 4096 = a / 4 % 4096)))

/-- The stripe of `a` leaves one of its n + 1 pages for parity (R175). -/
def State.stripeRoom (s : State) (g : Group) (a : Nat) : Bool :=
  let u := s.stripeUsed g a
  u.contains (addrBlock a) || decide (u.length + 1 < g.members.length)

/-- The place is free to program: a page of a group that is erased or open and whole, where no codeword stands since the erase and
the stripe still has room for data (R175, R177, R198). -/
def State.placeFree (s : State) (a : Nat) : Bool :=
  (s.codeword a).isNone && (s.groupOf a).any (fun g => (decide (g.st = .erased) || decide (g.st = .opened)) &&
    (s.badMembers g).isEmpty && s.stripeRoom g a && decide (a / 4 % 4096 < s.zonePages (addrBlock a).1 g.zone))

/-- The stripe of `a` is open: one of its pages has been programmed (R175). -/
def State.stripeOpen (s : State) (a : Nat) : Bool := (s.groupOf a).any (fun g => !(s.stripeUsed g a).isEmpty)

/-! ### Wrapped keys -/

/-- NAND channels in use: populated and not dead. -/
def State.liveChans (s : State) : List Nat :=
  (List.range s.variant.nchs).filter (fun c => s.bit R.CAP_NCH_POP c && !s.cellar.deadChans.has c)

/-- The NAND channels of the two copies that the records zone keeps of each thing: the first two that are not dead (Table 07-3,
R206). -/
def State.recordChans (s : State) : Nat × Nat :=
  let l := s.liveChans
  (l.headD 0, (l.drop 1).headD 1)

/-- Both wrapped copies written, each on its channel (R206). -/
def State.putWraps (s : State) (w : WrapCopy) : State :=
  let c := s.recordChans
  { s with cellar := { s.cellar with wrapA := { w with chan := c.1, readable := true },
                                     wrapB := { w with chan := c.2, readable := true } } }

/-- A wrapped copy on a lost channel is rewritten from the other on a channel that is left (Table 07-7, R206). -/
def State.moveWraps (s : State) (chan : Nat) : State :=
  let a := s.cellar.wrapA
  let b := s.cellar.wrapB
  let c := s.recordChans
  let free := fun (k : Nat) => if c.1 = k then c.2 else c.1
  if a.chan = chan ∧ a.readable ∧ b.readable then { s with cellar := { s.cellar with wrapA := { b with chan := free b.chan } } }
  else if b.chan = chan ∧ a.readable ∧ b.readable then { s with cellar := { s.cellar with wrapB := { a with chan := free a.chan } } }
  else s

/-! ### Space -/

/-- Free image-zone space in granules: the capacity of its groups less what they hold. -/
def State.imageFree (s : State) : Nat :=
  ((s.cellar.groups.filter (fun g => g.inZone .image)).map (fun g => g.cap - min g.cap (s.groupFill g))).sum

/-- Data capacity of the image zone. -/
def State.imageCap (s : State) : Nat := ((s.cellar.groups.filter (fun g => g.inZone .image)).map (fun g => g.cap)).sum

/-- `IMAGE_FREE` and `OP` (Table 07-11). -/
def State.showImage (s : State) : State :=
  let need := s.rd R.CAP_HOST + ceilDiv (s.rd R.CAP_HOST) granulesPerRegion
  (s.wr R.CEL_IMAGE_FREE (min (2 ^ 32 - 1) (s.imageFree / 256))).wr R.CEL_OP
    (min 65535 ((s.imageCap - need) * 1000 / max 1 need))

end Sys2Proof.Machine
end

