-- ==== Sys2Proof/Machine/MemOps.lean ====
section
/-!
DEFINITION. Machine/MemOps.lean: lines of DRAM, poison and the poison lists (R97 to R99, R115), the racking debt that a write
adds (R354), unfilled granules with their line masks (R264, R271, R272) and fills (R267).
-/

namespace Sys2Proof.Machine

open Sys2Proof

/-! ### Capacity -/

/-- Decodable granules: the host-visible capacity in whole units of 256 MiB (R83). -/
def State.decodable (s : State) : Nat := s.rd R.CAP_HOST / 65536 * 65536

/-! ### Racking debt -/

/-- The targets that a region is racked to (R351). -/
def State.rackMask (s : State) (r : Nat) : Nat :=
  if s.variant.fabric then
    ((List.range 64).find? (fun i => decide (s.rd (R.RCK_RANGE_BASE i) ≤ r) &&
      decide (r < s.rd (R.RCK_RANGE_BASE i) + s.rd (R.RCK_RANGE_SIZE i)))).elim 0 (fun i => s.rd (R.RCK_RANGE_TGT i))
  else 0

/-- The debt bitmap of a target. -/
def State.debt (s : State) (t : Nat) : RSet := if t = 0 then s.racking.debt0 else s.racking.debt1

/-- The place of a region of a target in sets over both targets: targets stand 2^24 apart. -/
def rackKey (t r : Nat) : Nat := t * 16777216 + r

/-- A set moved up by `k`. -/
def RSet.shift (a : RSet) (k : Nat) : RSet := a.map (fun i => (i.1 + k, i.2 + k))

/-- The times of regions, the ones long past left out: nothing asks for more than 1 s. -/
def State.noteAt (s : State) (l : List (Nat × RSet)) (a : RSet) : List (Nat × RSet) :=
  if a.isEmpty then l else l.filter (fun e => s.within e.1 1000000) ++ [(s.puNow + 1, a)]

/-- Regions of a target become owed: their hold begins (R355). -/
def State.noteOwed (s : State) (t : Nat) (a : RSet) : State :=
  { s with racking := { s.racking with owedAt := s.noteAt s.racking.owedAt (a.shift (rackKey t 0)) } }

/-- A target's debt bitmap replaced; `OWED` follows, and what is newly owed begins its hold. -/
def State.setDebt (s : State) (t : Nat) (d : RSet) : State :=
  let s := s.noteOwed t (RSet.diff d (s.debt t))
  (if t = 0 then { s with racking := { s.racking with debt0 := d } }
   else { s with racking := { s.racking with debt1 := d } }).wr (R.RCK_OWED t) d.card

/-- A write of R135 to a racked region: owed to each target, and sends in flight learn of it (R354). Volatile regions owe
nothing more (R353). -/
def State.debtMark (s : State) (r : Nat) : State :=
  let m := s.rackMask r
  if m = 0 ∨ s.dirty.vol.has r then s
  else
    let s := (s.cond (m.testBit 0) (fun s => s.setDebt 0 (s.racking.debt0.insert1 r))).cond (m.testBit 1)
      (fun s => s.setDebt 1 (s.racking.debt1.insert1 r))
    { s with racking := { s.racking with sends := s.racking.sends.map (fun (e : Send) =>
      if e.region = r then { e with wr := true } else e) } }

/-- A write of R135 to one granule, with all that follows from it in the same cycle (R135, R137, R354). -/
def State.wrote (s : State) (g : Nat) : State := (s.markDirty g).debtMark (g / granulesPerRegion)

/-- A write of R135 to every granule from `lo` up to `hi`. -/
def State.wroteRange (s : State) (lo hi : Nat) : State :=
  if s.variant.fabric then (regionsOf [(lo, hi)]).toList.foldl State.debtMark (s.markRange lo hi) else s.markRange lo hi

/-! ### Poison -/

/-- Entries that one record of the poison list counts for: one for a whole granule, else one for each line (R97). -/
def PoisonEntry.count (e : PoisonEntry) : Nat := if e.whole then 1 else popcount e.lines.toNat

/-- `POISON.ENTRIES` of a port. -/
def State.showPoison (s : State) (p : Nat) : State :=
  s.wr (R.HP_POISON_ENTRIES p) ((s.host p).poison.map PoisonEntry.count).sum

/-- The bit of one line. -/
def lineBit (l : Nat) : LineMask := BitVec.ofNat 64 (2 ^ l)

/-- Line `l` of granule `g` is listed at port `p`. -/
def State.listed (s : State) (p g l : Nat) : Bool :=
  (s.host p).poison.any (fun e => e.granule == g && e.lines.getLsbD l)

/-- List a granule's lines at one port; what a list of 65,536 entries has no room for
overflows (R97, R99). -/
def State.listAt (s : State) (g : Nat) (whole : Bool) (lines : LineMask) (p : Nat) : State :=
  let new := (List.range 64).filter (fun l => lines.getLsbD l && !s.listed p g l)
  let room := 65536 - s.rd (R.HP_POISON_ENTRIES p)
  let n := if whole then 1 else new.length
  let s := s.cond (decide (room < n) && !new.isEmpty) (fun s =>
    (s.wr (R.HP_POISON_OVERFLOW p) 1).cond (!s.flag (R.HP_POISON_OVERFLOW p)) (fun s => s.detect 5 p))
  if new.isEmpty ∨ room = 0 then s
  else
      let h := s.host p
      let new := if whole then new else new.take room
      let mask := BitVec.ofNat 64 ((new.map (fun l => 2 ^ l)).sum)
      let list :=
        if whole then (h.poison.filter (fun e => e.granule != g)) ++ [{ granule := g, whole := true, lines := lines }]
        else if h.poison.any (fun e => e.granule == g && !e.whole) then
          h.poison.map (fun (e : PoisonEntry) =>
            if e.granule = g ∧ e.whole = false then { e with lines := e.lines ||| mask } else e)
        else h.poison ++ [{ granule := g, whole := false, lines := mask }]
      (s.setHost p { h with poison := list }).showPoison p

/-- Ports whose slice holds the granule. -/
def State.portsOf (s : State) (g : Nat) : List Nat := (List.range s.variant.ports).filter (fun p => s.inSlice p g)

/-- List lines of a granule as poisoned at every port whose slice holds it (R97). -/
def State.listPoison (s : State) (g : Nat) (whole : Bool) (lines : LineMask) : State :=
  (s.portsOf g).foldl (fun s p => s.listAt g whole lines p) s

/-- A line leaves its entry in every port's list; an entry with no line left is removed (R98). -/
def State.unlistLine (s : State) (g l : Nat) : State :=
  s.each s.variant.ports (fun s p =>
    if s.listed p g l then
      let h := s.host p
      let list := (h.poison.map (fun (e : PoisonEntry) =>
        if e.granule = g then { e with lines := e.lines &&& ~~~ lineBit l } else e)).filter (fun e => e.lines != 0)
      (s.setHost p { h with poison := list }).showPoison p
    else s)

/-- The line reads as poison. -/
def State.isPoison (s : State) (g l : Nat) : Bool := s.dram.poison.has (64 * g + l)

/-- The line stored as poison or with good check bytes; a line that is good again is no longer listed (R115, R97). -/
def State.setPoison (s : State) (g l : Nat) (on : Bool) : State :=
  if on then
    ({ s with dram := { s.dram with poison := s.dram.poison.insert1 (64 * g + l) } }).listPoison g false (lineBit l)
  else ({ s with dram := { s.dram with poison := s.dram.poison.erase1 (64 * g + l) } }).unlistLine g l

/-- The mask of the lines of a granule that read as poison. -/
def State.poisonMask (s : State) (g : Nat) : LineMask :=
  BitVec.ofNat 64 (((List.range 64).filter (fun l => s.isPoison g l)).map (fun l => 2 ^ l)).sum

/-- The 4 KiB of a granule, by offset. -/
def State.granuleData (s : State) (g : Nat) : Memory := s.dram.mem.slice (granuleBytes * g) granuleBytes

/-- The 64 bytes of a line, by offset. -/
def State.lineData (s : State) (g l : Nat) : Memory := s.dram.mem.slice (granuleBytes * g + 64 * l) 64

/-- Store 64 bytes in a line, as poison or not. -/
def State.storeLine (s : State) (g l : Nat) (data : Memory) (poison : Bool) : State :=
  ({ s with dram := { s.dram with mem := s.dram.mem.paste (granuleBytes * g + 64 * l) 64 data } }).setPoison g l poison

/-! ### Unfilled granules -/

/-- The granule is unfilled (R264). -/
def State.unfilled (s : State) (g : Nat) : Bool := s.steep.unfilled.has g

/-- Unfilled granules of a region. -/
def State.regionUnfilled (s : State) (r : Nat) : Nat :=
  (s.steep.unfilled.slice (r * granulesPerRegion) ((r + 1) * granulesPerRegion)).card

/-- The line mask of a granule (R272). -/
def State.mask (s : State) (g : Nat) : LineMask := BitVec.ofNat 64 (s.steep.masks.get g)

/-- The granule has a line-mask entry. -/
def State.hasMask (s : State) (g : Nat) : Bool := s.steep.masks.get g != 0 || s.steep.maskHeld.has g

/-- The steep's occupancy registers (Table 09-11). -/
def State.showSteep (s : State) : State :=
  let n := s.steep.unfilled.card
  let m := s.steep.masks.length + s.steep.maskHeld.card
  let k := s.steep.partials.length
  let cap := max 1 s.decodable
  let s := (s.wr R.STP_UNFILLED n).wr R.STP_MASKS m
  let s := s.wr R.STP_MASKS_PEAK (max m (s.rd R.STP_MASKS_PEAK))
  let s := (s.wr R.STP_PARTIAL_IN_USE k).wr R.STP_PARTIAL_PEAK (max k (s.rd R.STP_PARTIAL_PEAK))
  (s.wr R.STP_BULK_PCT ((cap - n) * 100 / cap)).wr R.STP_HINTS_QUEUED s.steep.hints.length

/-- A full-line write to an unfilled granule sets the line's mask bit, allocating the entry (R271, R272). -/
def State.maskLine (s : State) (g l : Nat) : State :=
  if s.unfilled g then
    ({ s with steep := { s.steep with masks := s.steep.masks.set g (s.steep.masks.get g ||| 2 ^ l),
                                      maskHeld := s.steep.maskHeld.erase1 g } }).showSteep
  else s

/-- Every line of a granule written whole. -/
def State.maskAll (s : State) (g : Nat) : State :=
  if s.unfilled g then
    ({ s with steep := { s.steep with masks := s.steep.masks.set g (2 ^ 64 - 1),
                                      maskHeld := s.steep.maskHeld.erase1 g } }).showSteep
  else s

/-- One whole line written by the host, `ZERO`, `COPY` or Clear Poison: dirty before it is accepted, masked where the granule
is unfilled, then stored (R11, R135, R271). -/
def State.writeLine (s : State) (g l : Nat) (data : Memory) (poison : Bool) : State :=
  (((s.wrote g).maskLine g l)).storeLine g l data poison

/-- Bytes of one line merged into DRAM and stored with good check bytes. -/
def State.mergeBytes (s : State) (g l : Nat) (bytes : List (Nat × Byte)) : State :=
  { s with dram := { s.dram with mem := bytes.foldl (fun (m : Memory) (b : Nat × Byte) =>
      m.setByte (granuleBytes * g + 64 * l + b.1 % 64) b.2) s.dram.mem } }

/-! ### Fills -/

/-- The granule has a fill in flight or waiting for a table entry. -/
def State.filling (s : State) (g : Nat) : Bool :=
  s.steep.fills.any (fun f => f.granule == g) || s.steep.waitFills.any (fun f => f.granule == g)

/-- Demand fills in flight. -/
def State.demandFills (s : State) : Nat := (s.steep.fills.filter (fun f => f.demand)).length

/-- A fill of the granule is asked for at demand rank, with at most one held read: it joins a fill in flight, takes a table
entry, or waits for one of the 4,096 (R266, R273). -/
def State.raiseFill (s : State) (g : Nat) (held : List (Nat × Nat × Nat)) : State :=
  let join := fun (f : Fill) =>
    if f.granule = g then { f with demand := true, held := f.held ++ held } else f
  if s.filling g then
    { s with steep := { s.steep with fills := s.steep.fills.map join, waitFills := s.steep.waitFills.map join } }
  else
    let f : Fill := { granule := g, demand := true, held := held }
    if s.demandFills < 4096 then { s with steep := { s.steep with fills := s.steep.fills ++ [f] } }
    else { s with steep := { s.steep with waitFills := s.steep.waitFills ++ [f] } }

/-- Waiting fills take the table entries that are free, oldest first. -/
def State.admitFills (s : State) : State :=
  let n := min (4096 - s.demandFills) s.steep.waitFills.length
  { s with steep := { s.steep with fills := s.steep.fills ++ s.steep.waitFills.take n,
                                   waitFills := s.steep.waitFills.drop n } }

/-- A CXL.mem response of a port, with the higher of its two load levels (R93). -/
def State.respond (s : State) (p : Nat) (o : Output) : State :=
  (s.wr (R.HP_LOAD_STAT_DEVLOAD p) (max (s.rd (R.HP_LOAD_STAT_BW_LOAD p)) (s.rd (R.HP_LOAD_STAT_DIRTY_LOAD p)))).send o

/-- One read answered from DRAM: data, or poison (R115). -/
def State.answerRead (s : State) (port tag g l : Nat) : State :=
  if s.isPoison g l then s.respond port (.memPoison port tag) else s.respond port (.memData port tag (s.lineData g l))

/-- The bytes cover all 64 of a line. -/
def fullLine (bytes : List (Nat × Byte)) : Bool := (List.range 64).all (fun i => bytes.any (fun b => b.1 % 64 == i))

/-- The bytes of one line as memory. -/
def lineOf (bytes : List (Nat × Byte)) : Memory :=
  bytes.foldl (fun (m : Memory) (b : Nat × Byte) => m.setByte (b.1 % 64) b.2) []

/-- A held write completes as a write to a filled granule (R273); a read held behind it is answered (R86). -/
def State.finishWrite (s : State) (w : HeldWrite) : State :=
  if w.read then s.answerRead w.port w.tag w.granule w.line
  else
    let s := s.wrote w.granule
    let s := if fullLine w.data ∨ w.poison then s.storeLine w.granule w.line (lineOf w.data) w.poison
      else s.mergeBytes w.granule w.line w.data
    if w.mail then s.reply w.port rcSuccess [] else s.respond w.port (.memDone w.port w.tag)

/-- A read held for the fill of a granule whose line has been written since is older than that write: it gets what the fill brings
(R86). -/
def State.answerOld (s : State) (data : Memory) (poison : LineMask) (h : Nat × Nat × Nat) : State :=
  s.respond h.1 (if poison.getLsbD h.2.2 then .memPoison h.1 h.2.1 else .memData h.1 h.2.1 (data.slice (64 * h.2.2) 64))

/-- The held reads of a granule that a write of their line has overtaken are answered, and leave their fill (R86). -/
def State.answerOvertaken (s : State) (g : Nat) (data : Memory) (poison : LineMask) : State :=
  let mask := s.mask g
  let old := ((s.steep.fills ++ s.steep.waitFills).filter (fun f => f.granule == g)).flatMap
    (fun f => f.held.filter (fun h => mask.getLsbD h.2.2))
  let strip := fun (f : Fill) => if f.granule = g then { f with held := f.held.filter (fun h => !mask.getLsbD h.2.2) } else f
  let s := { s with steep := { s.steep with fills := s.steep.fills.map strip, waitFills := s.steep.waitFills.map strip } }
  old.foldl (fun s h => s.answerOld data poison h) s

/-- The unmasked lines of a granule written by its fill, those in `poison` as poison, and its steep bit, mask entry and
partial-region entry brought up to date; the granule stays as dirty as it was (R264, R267, R272). Lines poisoned by the fill
are listed one by one where `lines`, else by `whole` (R268). -/
def State.fillGranule (s : State) (g : Nat) (data : Memory) (poison : LineMask) (lost : Bool) : State :=
  let s := s.answerOvertaken g data poison
  let mask := s.mask g
  let new := poison &&& ~~~ mask
  let merged := Memory.mergeLines data (s.granuleData g) mask
  let r := g / granulesPerRegion
  let keep := (List.range 64).foldl (fun (p : RSet) (l : Nat) =>
    if mask.getLsbD l then p else if poison.getLsbD l then p.insert1 (64 * g + l) else p.erase1 (64 * g + l)) s.dram.poison
  let unf := s.steep.unfilled.erase1 g
  let left := (unf.slice (r * granulesPerRegion) ((r + 1) * granulesPerRegion)).card
  let parts := s.steep.partials.filter (fun x => x != r || left != 0)
  let parts := if left = 0 ∨ parts.contains r then parts else parts ++ [r]
  let drain := if 24576 ≤ parts.length then true else if parts.length < 16384 then false else s.steep.drainPartials
  let s := { s with dram := { s.dram with mem := s.dram.mem.paste (granuleBytes * g) granuleBytes merged, poison := keep },
                    steep := { s.steep with unfilled := unf, masks := s.steep.masks.set g 0,
                                            maskHeld := s.steep.maskHeld.erase1 g, partials := parts,
                                            drainPartials := drain } }
  let s := s.cond (new != 0) (fun s => s.listPoison g (lost && mask == 0) new)
  s.showSteep

/-- Held reads of a granule answered and its held writes finished, its fill out of the table (R267, R273). -/
def State.endFill (s : State) (g : Nat) : State :=
  let mine := (s.steep.fills ++ s.steep.waitFills).filter (fun f => f.granule == g)
  let held := (mine.map (fun f => f.held)).flatten
  let writes := s.steep.heldWrites.filter (fun w => w.granule == g)
  let s := { s with steep := { s.steep with fills := s.steep.fills.filter (fun f => f.granule != g),
                                            waitFills := s.steep.waitFills.filter (fun f => f.granule != g),
                                            heldWrites := s.steep.heldWrites.filter (fun w => w.granule != g) } }
  let s := held.foldl (fun s h => s.answerRead h.1 h.2.1 g h.2.2) s
  (writes.foldl State.finishWrite s).admitFills

/-- A directory checkpoint: the other slot is written and the log starts over (R181). -/
def State.dirCheckpoint (s : State) : State :=
  { s with cellar := { s.cellar with ckptLast := 1 - s.cellar.ckptLast, deltas := 0, ckptOk0 := true, ckptOk1 := true } }

/-- Steep Complete: with no granule unfilled in ST2 or ST3, the steep enters ST4, sends vendor record 0x04 and writes a
directory checkpoint (Table 09-2). -/
def State.steepCheck (s : State) : State :=
  if (s.rd R.STP_STAT_PHASE = 2 ∨ s.rd R.STP_STAT_PHASE = 3) ∧ s.steep.unfilled = [] then
    let s := ((s.wr R.STP_STAT_PHASE 4).wr R.STP_STAT_BULK_RUN 0).wr R.STP_COMPLETE_S (s.opsec - s.steep.readyOps)
    (s.vendor 0 4 [4]).dirCheckpoint
  else s

end Sys2Proof.Machine
end

