-- ==== Sys2Proof/Machine/QueueOps.lean ====
section
/-!
DEFINITION. Machine/QueueOps.lean: the persist queues (R285 to R313): contexts, arbitration, chains, validation of
descriptors, completions and interrupts, fences in progress, and what ends or interrupts commands.
-/

namespace Sys2Proof.Machine

open Sys2Proof

/-! ### Contexts -/

/-- Queue `q`'s context; a queue not listed has its reset values (R313). -/
def State.queue (s : State) (q : Nat) : Queue := (s.queues.list.find? (fun c => c.q == q)).getD { q := q }

/-- Put a context in place, queues rising. -/
def putQueue : List Queue → Queue → List Queue
  | [], c => [c]
  | d :: t, c => if c.q < d.q then c :: d :: t else if c.q = d.q then c :: t else d :: putQueue t c

/-- A queue's context replaced. -/
def State.setQueue (s : State) (c : Queue) : State :=
  { s with queues := { s.queues with list := putQueue s.queues.list c } }

/-- Every queue's context changed by `f`. -/
def State.mapQueues (s : State) (f : Queue → Queue) : State :=
  { s with queues := { s.queues with list := s.queues.list.map f } }

/-- Ring depths as treated (Table 10-1). -/
def Queue.sqDepth (c : Queue) : Nat := 2 ^ clampTo 1 16 c.sqLog2
def Queue.cqDepth (c : Queue) : Nat := 2 ^ clampTo 1 16 c.cqLog2

/-- `CREDITS` as treated. -/
def Queue.creditsT (c : Queue) : Nat := clampTo 1 16 c.credits

/-- Commands in flight: fetched whole and without a posted completion (`STAT.INFLIGHT`). -/
def Queue.inflight (c : Queue) : Nat := (c.cmds.filter (fun k => !k.more)).length

/-- CQ entries that the host has not yet taken. -/
def Queue.cqUsed (c : Queue) : Nat := (c.cqTail + c.cqDepth - c.cqHead) % c.cqDepth

/-- A completion slot is free; one entry stays empty, as in the SQ (R288). -/
def Queue.cqRoom (c : Queue) : Bool := decide (c.cqUsed + 1 < c.cqDepth)

/-- The descriptor at the SQ head may be fetched (R292). -/
def Queue.eligible (c : Queue) : Bool :=
  c.en && !c.fault && !c.cqFull && c.sqHead != c.sqTail &&
    (decide (c.inflight < c.creditsT) || c.cmds.any (fun k => k.more)) &&
    decide (c.cqUsed + c.inflight + 1 < c.cqDepth)

/-- `PQE.QUEUES` and `INTERRUPTED`. -/
def State.showQueues (s : State) : State :=
  (s.wr R.PQE_QUEUES (s.queues.list.filter (fun c => c.en)).length).wr R.PQE_INTERRUPTED
    (s.queues.list.filter (fun c => c.intRec.isSome)).length

/-- The context of `q` used: the cache of 4,096 keeps the most recently used, a miss is counted (R285). -/
def State.useContext (s : State) (q : Nat) : State :=
  let hit := s.queues.cache.contains q
  let cache := (q :: s.queues.cache.filter (fun x => x != q)).take 4096
  let s := { s with queues := { s.queues with cache := cache } }
  (s.wr R.PQE_CACHE cache.length).cond (!hit) (fun s => s.inc R.PQE_MISSES)

/-! ### Arbitration (R292) -/

/-- The weight of a class: 0 is treated as 1. -/
def State.weight (s : State) (c : Nat) : Nat := max 1 (s.rd (R.PQE_WRR c))

/-- The eligible queue of a class that is next in its round robin. -/
def State.nextOf (s : State) (cls : Nat) : Option Nat :=
  let qs := (s.queues.list.filter (fun c => c.cls == cls && c.eligible)).map (fun c => c.q)
  match qs.find? (fun q => decide (s.queues.rrLast.get cls ≤ q)) with
  | some q => some q
  | none => qs.head?

/-- The class and queue served next: the class being served while it has fetches left in its round, else the next class with
an eligible queue. -/
def State.arbitrate (s : State) : Option (Nat × Nat × Bool) :=
  match (if s.queues.rrLeft = 0 then none else s.nextOf s.queues.rrClass) with
  | some q => some (s.queues.rrClass, q, false)
  | none =>
    ((List.range 8).map (fun i => (s.queues.rrClass + 1 + i) % 8)).findSome? (fun c =>
      (s.nextOf c).map (fun q => (c, q, true)))

/-- The arbitration's state after it has served `q` of class `c`; `fresh` where the class's turn begins. -/
def State.served (s : State) (c q : Nat) (fresh : Bool) : State :=
  { s with queues := { s.queues with rrClass := c,
                                     rrLeft := (if fresh then s.weight c else s.queues.rrLeft) - 1,
                                     rrLast := s.queues.rrLast.set c (q + 1) } }

/-! ### Descriptors (R287, R294, R297) -/

/-- Granules in one unit of an opcode's `COUNT`. -/
def unitGranules (op : Nat) : Nat := if op = 6 ∨ op = 7 ∨ op = 9 then granulesPerRegion else 1

/-- The bits of `PARAM` an opcode defines (Table 10-3). -/
def paramOk (op p : Nat) : Bool :=
  match op with
  | 1 => decide (p < 2)
  | 2 => decide (p < 4)
  | 3 => decide (p < 4)
  | 6 => decide (p < 512) && p / 8 % 32 == 0
  | 7 => decide (p < 128)
  | 8 => decide (p < 2)
  | 9 => decide (p < 2)
  | _ => p == 0

/-- First granule of an element's range and the one after its last. -/
def Desc.base (d : Desc) : Nat := d.addr / granuleBytes
def Desc.top (d : Desc) : Nat := d.base + d.count * unitGranules d.opcode

/-- The range named lies in the owning port's slice and below the decodable capacity (R287). -/
def State.rangeOk (s : State) (port base n : Nat) : Bool :=
  s.inSlice port base && s.inSlice port (base + n - 1) && decide (base + n ≤ s.decodable)

/-- A persist descriptor from its 16 words (Table 10-2). -/
def Desc.ofWords (ws : List Nat) : Desc :=
  let w := fun (i : Nat) => ws.getD i 0 % 2 ^ 32
  let pair := fun (i : Nat) => w i + w (i + 1) * 2 ^ 32
  { opcode := w 0 % 256, irq := (w 0).testBit 8, order := (w 0).testBit 9, chain := (w 0).testBit 10, cid := w 0 / 65536,
    param := w 1, addr := pair 2, addr2 := pair 4, count := pair 6 % 2 ^ 36, offset := pair 8 % 2 ^ 36,
    reservedZero := w 0 / 2048 % 32 == 0 && decide (pair 6 < 2 ^ 36) && decide (pair 8 < 2 ^ 36) &&
      (List.range 6).all (fun i => w (10 + i) == 0) }

/-- The status a descriptor is refused with, if any. `NOP` takes any unit and ignores its range. -/
def State.refuseDesc (s : State) (port : Nat) (d : Desc) : Option Nat :=
  let n := d.count * unitGranules d.opcode
  if 10 < d.opcode then some 0x10
  else if d.reservedZero = false ∨ paramOk d.opcode d.param = false then some 0x11
  else if d.count = 0 ∨ d.count ≤ d.offset then some 0x11
  else if d.opcode = 0 then (if d.addr2 = 0 then none else some 0x11)
  else if d.addr % (granuleBytes * unitGranules d.opcode) ≠ 0 then some 0x11
  else if d.opcode = 4 ∧ d.addr2 % granuleBytes ≠ 0 then some 0x11
  else if d.opcode = 10 ∧ d.addr2 % 64 ≠ 0 then some 0x11
  else if d.opcode ≠ 4 ∧ d.opcode ≠ 10 ∧ d.addr2 ≠ 0 then some 0x11
  else if d.opcode = 4 ∧ d.base < d.addr2 / granuleBytes + n ∧ d.addr2 / granuleBytes < d.top then some 0x11
  else if s.rangeOk port d.base n = false then some 0x12
  else if d.opcode = 4 ∧ s.rangeOk port (d.addr2 / granuleBytes) n = false then some 0x12
  else if (d.opcode = 2 ∨ d.opcode = 3) ∧
      (s.variant.fabric = false ∨ (s.rd R.RCK_TGT0 = 0 ∧ s.rd R.RCK_TGT1 = 0)) then some 0x13
  else none

/-- The element that has a whole command refused, and its status, if any: a chain of more than 16 descriptors or of unlike opcodes, or
an element that is refused (R293 to R295). -/
def State.refuseCmd (s : State) (port : Nat) (k : RunCmd) : Option (Nat × Nat) :=
  let op := (k.elems.head?.map (fun d => d.opcode)).getD 0
  match k.elems.findIdx? (fun d => d.opcode != op) with
  | some n => some (min n 15, 0x15)
  | none =>
    if 16 < k.elems.length then some (15, 0x15)
    else k.elems.zipIdx.findSome? (fun e => (s.refuseDesc port e.1).map (fun st => (e.2, st)))

/-! ### Running commands -/

/-- The command's element in progress. -/
def RunCmd.desc (k : RunCmd) : Option Desc := k.elems[k.elem]?

/-- The command's opcode. -/
def RunCmd.opcode (k : RunCmd) : Nat := (k.elems.head?.map (fun d => d.opcode)).getD 0

/-- The command has ended with a status. -/
def RunCmd.close (k : RunCmd) (st : Nat) : RunCmd := { k with status := some st, more := false, started := true }

/-- The element in progress is done: the next one begins at its offset, or the command ends. -/
def RunCmd.nextElem (k : RunCmd) : RunCmd :=
  match k.elems[k.elem + 1]? with
  | some d => { k with elem := k.elem + 1, progress := d.offset, covering := false, left := [], again := [], covered := [],
                       mapLeft := [], gaveUp := [] }
  | none => k.close (if k.poisoned then 3 else 0)

/-- Commands start in SQ order; one with `ORDER` waits until it is the oldest without a completion (R293). Refused commands
end at once, with no effect. -/
def startCmds (refuse : RunCmd → Option (Nat × Nat)) : Bool → List RunCmd → List RunCmd
  | _, [] => []
  | first, k :: t =>
    if k.started then k :: startCmds refuse false t
    else if k.more then k :: t
    else if (k.elems.head?.map (fun d => d.order)).getD false && !first then k :: t
    else
      let k' := match refuse k with
        | some e => { k.close e.2 with elem := e.1 }
        | none => { k with started := true, progress := (k.elems.head?.map (fun d => d.offset)).getD 0 }
      k' :: startCmds refuse false t

/-- The commands of a queue that may start now do so. -/
def State.startQueue (s : State) (q : Nat) : State :=
  let c := s.queue q
  if c.en && !c.fault then s.setQueue { c with cmds := startCmds (s.refuseCmd c.owner.pred) true c.cmds } else s

/-- The element in progress may run: a later one of a chain that has `ORDER` starts only once every earlier command of the queue has
completed (R293). -/
def Queue.inOrder (c : Queue) (k : RunCmd) : Bool :=
  k.elem == 0 || !(k.desc.any (fun d => d.order)) || c.cmds.head?.any (fun j => j.sqIdx == k.sqIdx)

/-- A command of a queue that runs: started and without a status. -/
def Queue.running? (c : Queue) (cid : Nat) : Option RunCmd :=
  if c.en && !c.fault then
    c.cmds.find? (fun k => k.cid == cid && k.started && k.status.isNone && !k.more && c.inOrder k)
  else none

/-- A running command replaced in its queue. -/
def State.setCmd (s : State) (q : Nat) (k : RunCmd) : State :=
  let c := s.queue q
  s.setQueue { c with cmds := c.cmds.map (fun (j : RunCmd) => if j.sqIdx = k.sqIdx then k else j) }

/-! ### Completions (R295, R296) -/

/-- The completion of a command that has ended. -/
def RunCmd.completion (k : RunCmd) (st : Nat) : Completion :=
  { cid := k.cid, element := k.elem, status := st, progress := k.progress, result := min k.result 0x0FFFFFFF,
    sqHead := k.sqAfter, irq := ((k.elems.getLast?.map (fun d => d.irq)).getD false) }

/-- The four words of a completion. -/
def Completion.words (c : Completion) (phase : Nat) : List Nat :=
  [c.cid % 65536 + phase * 65536 + c.element % 16 * 2 ^ 20 + c.status % 256 * 2 ^ 24, c.progress % 2 ^ 32,
    c.progress / 2 ^ 32 % 16 + c.result * 16, c.sqHead % 65536]

/-- An interrupt cause on a vector: raised when `COAL.COUNT` are pending, or at the timeout (R296). -/
def State.vectorCause (s : State) (port vec : Nat) : State :=
  let key := port * 2048 + vec
  let n := s.queues.pendVec.get key + 1
  if max 1 (s.rd R.PQE_COAL_COUNT) ≤ n then
    ({ s with queues := { s.queues with pendVec := s.queues.pendVec.set key 0 } }).msix port vec
  else { s with queues := { s.queues with pendVec := s.queues.pendVec.set key n } }

/-- Write a completion at the CQ tail. -/
def State.postCompletion (s : State) (q : Nat) (d : Completion) : State :=
  let c := s.queue q
  let wrap := c.cqTail + 1 == c.cqDepth
  let s := s.send (.dmaWrite c.via (c.cqBase + 16 * c.cqTail) (d.words c.phase))
  let s := s.setQueue { c with cqTail := if wrap then 0 else c.cqTail + 1, phase := if wrap then 1 - c.phase else c.phase,
                               err := if 0x10 ≤ d.status then d.status else c.err }
  let s := (s.bump R.PQE_CMDS).cond (decide (0x10 ≤ d.status)) (fun s => s.bump R.PQE_ERRORS)
  s.cond (c.irqEn && (d.irq || decide (0x10 ≤ d.status))) (fun s => s.vectorCause c.via (max 8 c.vector))

/-- A disabled queue whose last completion is out no longer runs (R291). -/
def State.settleQueue (s : State) (q : Nat) : State :=
  let c := s.queue q
  s.cond (!c.en && c.cmds.isEmpty && c.held.isEmpty) (fun s => s.setQueue { c with running := false })

/-- Complete a command that has ended: its completion is posted, or held for room with the queue stalled (R295). -/
def State.complete (s : State) (q : Nat) (k : RunCmd) (st : Nat) : State :=
  let c := s.queue q
  let d := k.completion st
  if c.cqRoom && c.held.isEmpty then
    let s := s.setQueue { c with cmds := c.cmds.filter (fun j => j.sqIdx != k.sqIdx) }
    ((s.postCompletion q d).startQueue q).settleQueue q
  else if c.held.any (fun h => h.cid == d.cid && h.sqHead == d.sqHead) then s
  else (s.setQueue { c with held := c.held ++ [d], cqFull := true }).inc R.PQE_CQ_STALLS

/-- Held completions posted while room lasts; `fuel` bounds their number. -/
def State.releaseHeld (s : State) (q : Nat) : Nat → State
  | 0 => s
  | n + 1 =>
    let c := s.queue q
    match c.held with
    | [] => s.setQueue { c with cqFull := false }
    | d :: t =>
      if c.cqRoom then
        let s := s.setQueue { c with held := t, cmds := c.cmds.filter (fun k => k.cid != d.cid || k.sqAfter != d.sqHead) }
        (s.postCompletion q d).releaseHeld q n
      else s

/-! ### Fences (R299, R300) -/

/-- `PROGRESS` of a fence: the first covered granule not done, and with `MAP_FLUSH` the first covered granule of the first
region not done (R299). -/
def fenceProgress (d : Desc) (covered left mapLeft : RSet) : Nat :=
  let byGranule := (left.next 0).getD d.top
  let byRegion := (mapLeft.next 0).elim d.top (fun r => (covered.next (r * granulesPerRegion)).getD d.top)
  if d.param % 2 = 0 then byGranule - d.base else min byGranule byRegion - d.base

/-- A fence whose covered set is done completes, `CONTENDED` where it gave granules up (R299, R300). -/
def RunCmd.fenceCheck (k : RunCmd) : RunCmd :=
  match k.desc with
  | none => k
  | some d =>
    if k.covering ∧ k.left = [] ∧ k.mapLeft = [] then
      match k.gaveUp.next 0 with
      | some g => ({ k with progress := g - d.base }).close 2
      | none => ({ k with progress := d.count }).nextElem
    else { k with progress := fenceProgress d k.covered (k.left.union k.gaveUp) k.mapLeft }

/-- A command that is a fence in progress. -/
def RunCmd.isFence (k : RunCmd) : Bool := k.opcode == 1 && k.covering && k.status.isNone

/-- With `MAP_FLUSH`, the regions of a fence that are done: no granule of theirs is left to copy, and their map page has been written
since the last commit (R299); granules given up hold none back (R300). -/
def State.settlePages (s : State) (k : RunCmd) : RunCmd :=
  { k with mapLeft := k.mapLeft.toList.foldl (fun (m : RSet) r =>
      if (k.left.slice (r * granulesPerRegion) ((r + 1) * granulesPerRegion)).isEmpty && !s.cellar.mapDirty.has r then m.erase1 r
      else m) k.mapLeft }

/-- Every fence in progress changed by `f` and checked. -/
def State.mapFences (s : State) (f : RunCmd → RunCmd) : State :=
  s.mapQueues (fun (c : Queue) =>
    { c with cmds := c.cmds.map (fun (k : RunCmd) =>
        if k.isFence && c.en && !c.fault then (s.settlePages (f k)).fenceCheck else k) })

/-- A copy of a granule has committed: fences count it done, but those it came too early for need another (R299). -/
def State.fenceCommit (s : State) (g : Nat) : State :=
  s.mapFences (fun (k : RunCmd) =>
    if k.again.has g then { k with again := k.again.erase1 g }
    else if k.left.has g then { k with left := k.left.erase1 g, result := k.result + 1 }
    else k)

/-- Granules that became clean in another way are done for every fence (R299, Table 10-6). -/
def State.fenceClean (s : State) (lo hi : Nat) : State :=
  s.mapFences (fun (k : RunCmd) => { k with left := k.left.cut lo hi, again := k.again.cut lo hi })

/-- A granule's copy was torn eight times: fences give it up (R300). -/
def State.fenceGiveUp (s : State) (g : Nat) : State :=
  s.mapFences (fun (k : RunCmd) =>
    if k.left.has g then { k with left := k.left.erase1 g, gaveUp := k.gaveUp.insert1 g } else k)

/-- A map page is written and logged: its region is done for each fence that has no covered granule of it left (R299). -/
def State.fenceFlushed (s : State) : State := s.mapFences id

/-- Some fence covers the granule and waits for it. -/
def State.fenceWants (s : State) (g : Nat) : Bool :=
  s.queues.list.any (fun c => c.en && !c.fault && c.cmds.any (fun k => k.isFence && k.left.has g))

/-! ### Interrupted commands (R309 to R312) -/

/-- What a record shows of the progress of a command without a status: an opcode that is applied whole has done nothing of its element
(Table 10-7). -/
def RunCmd.kept (k : RunCmd) : Nat :=
  let whole := k.desc.any (fun d => d.opcode == 6 || d.opcode == 9 || d.opcode == 10)
  if k.status.isNone && whole then 0 else k.progress

/-- The record of a queue's oldest command without a posted completion, joined to an older valid record (R310, R311). Descriptors
that have not been fetched count for nothing (DESIGN CHOICE, assumption 194). -/
def Queue.interrupt (c : Queue) (kiln : Bool) (status : Nat) : Queue :=
  match c.cmds with
  | [] => c
  | k :: later =>
    match c.intRec with
    | some r =>
      let n := r.later + later.length + 1
      { c with cmds := [], held := [], intRec := some { r with later := min 31 n, laterOvf := r.laterOvf || decide (31 < n) } }
    | none =>
      let d := k.desc
      { c with cmds := [], held := [],
               intRec := some { queue := c.q, cid := k.cid, opcode := k.opcode, status := k.status.getD status,
                                offset := k.kept, element := k.elem, later := min 31 later.length,
                                laterOvf := decide (31 < later.length), addr := (d.map (fun d => d.addr)).getD 0,
                                count := (d.map (fun d => d.count)).getD 0, kiln := kiln, sqIdx := k.sqIdx },
               postDue := true }

/-- Kiln phase K3: every enabled queue's commands stop, with their records (R309, R310). Copies that only their fences asked
for stop with them (R12). -/
def State.freezeQueues (s : State) : State :=
  (s.mapQueues (fun (c : Queue) => if c.en then { c.interrupt true 1 with running := false } else c)).showQueues

/-- A port's queues end because the port resets or goes down: each is disabled, with a record of status `ABORTED`
(R311, R291). -/
def State.dropPortQueues (s : State) (p : Nat) : State :=
  (s.mapQueues (fun (c : Queue) =>
    if c.en ∧ c.owner = p + 1 then
      { c.interrupt false 4 with en := false, running := false, owner := 0, fault := false, cqFull := false }
    else c)).showQueues

/-- Abort every command of a queue with its progress (R291). -/
def State.abortCmds (s : State) (q : Nat) : State :=
  let c := s.queue q
  let s := s.setQueue { c with cmds := c.cmds.map (fun (k : RunCmd) => if k.status.isSome then k else k.close 4) }
  (s.queue q).cmds.foldl (fun s k => s.complete q k (k.status.getD 4)) s

/-- A queue is disabled: fetching stops, running commands complete `ABORTED` (R291). -/
def State.disableQueue (s : State) (q : Nat) : State :=
  let c := s.queue q
  if c.en then
    let s := s.setQueue { c with en := false, owner := 0 }
    ((s.abortCmds q).settleQueue q).showQueues
  else s

/-- A queue faults: it stops fetching and its commands stop (R289, R312). -/
def State.faultQueue (s : State) (q : Nat) : State :=
  let c := s.queue q
  let s := s.setQueue { c with fault := true }
  (s.wr R.PQE_FAULTED_LAST_Q q).inc R.PQE_FAULTED_COUNT

end Sys2Proof.Machine
end

