-- ==== Sys2Proof/Machine/SeqOps.lean ====
section
/-!
DEFINITION. Machine/SeqOps.lean: charge-deadline slots (R46), enables, rails and the rise list, the sequencer's step engine and
the programs it runs (R404 to R416), and margins (R417, R418).
-/

namespace Sys2Proof.Machine

open Sys2Proof

/-! ### Charge-deadline slots (R46) -/

/-- Arm a charge-deadline slot: `ARMED` set, `FIRED` cleared; a target already reached fires at once (R46). -/
def State.armCdl (s : State) (n target : Nat) : State :=
  let s := (s.wr (R.PHS_CDL_TARGET n) target).wr (R.PHS_CDL_FIRED n) 0
  if target ≤ s.rd R.PHS_CT_DRAWN then (s.wr (R.PHS_CDL_ARMED n) 0).wr (R.PHS_CDL_FIRED n) 1
  else s.wr (R.PHS_CDL_ARMED n) 1

/-- Disarm a slot before it fires (R46). -/
def State.disarmCdl (s : State) (n : Nat) : State := s.wr (R.PHS_CDL_ARMED n) 0

/-! ### Channels and ranks that enables feed -/

/-- Every rank of a used channel that names enable `e` is shed or without supply (R410, Table 14-5 condition 2). -/
def State.enableSafe (s : State) (e : Nat) : Bool :=
  (List.range s.chN).all (fun c => (List.range s.ranks).all (fun r =>
    s.rd (R.DMC_SHED_EN (s.dmcOf c) r) != e ||
      (decide (2 ≤ s.rd (R.DMC_RANK_PWR (s.dmcOf c) r)) && !s.dram.shedding.has (8 * c + r))))

/-! ### Rails (Tables 14-2 and 14-3) -/

/-- Rail states as `RAIL_MV.STATE` shows them. -/
def railOff : Nat := 0
def railRising : Nat := 1
def railGood : Nat := 2
def railWarn : Nat := 3
def railFault : Nat := 4
def railFalling : Nat := 5
def railUnmon : Nat := 6

/-- A rail's state. -/
def State.railSt (s : State) (i : Nat) : Nat := s.rd (R.SEQ_RAIL_MV_STATE i)

/-- Numbers below `n` whose bit is set in a mask. -/
def maskBits (n mask : Nat) : List Nat := (List.range n).filter (fun i => mask.testBit i)

/-- The monitored rails that an enable of `mask` feeds. -/
def State.railsOf (s : State) (mask : Nat) : List Nat :=
  (List.range 32).filter (fun i => s.flag (R.SEQ_RAIL_CFG_USED i) && mask.testBit (s.rd (R.SEQ_RAIL_CFG_EN i)))

/-- The rail's thresholds are in strictly rising order (R403). -/
def State.railOrdered (s : State) (i : Nat) : Bool :=
  let uf := s.rd (R.SEQ_RAIL_UV_FAULT_MV i)
  let uw := s.rd (R.SEQ_RAIL_UV_WARN_MV i)
  let nm := s.rd (R.SEQ_RAIL_NOM i)
  let ow := s.rd (R.SEQ_RAIL_OV_WARN_MV i)
  decide (uf < uw) && decide (uw < nm) && decide (nm < ow) && decide (ow < s.rd (R.SEQ_RAIL_OV_FAULT_MV i))

/-! ### Margins (R417, R418) -/

/-- `MARGINS` and the margin-in-force condition of F133. -/
def State.showMargins (s : State) : State :=
  let m := ((List.range 32).filter (fun i => s.rd (R.SEQ_RAIL_MARGIN_ACT10 i) != 0)).map (fun i => 2 ^ i)
  let s := s.wr R.SEQ_MARGINS m.sum
  s.cond (m.sum != 0 || s.condAny 133) (fun s => s.setCond 133 0 (m.sum != 0))

/-- One rail's margin returned to 0 at once. -/
def State.dropMargin (s : State) (i : Nat) : State := (s.wr (R.SEQ_RAIL_MARGIN_PCT10 i) 0).wr (R.SEQ_RAIL_MARGIN_ACT10 i) 0

/-- A rail's margin in effect, in 0.1 %. -/
def State.marginNow (s : State) (i : Nat) : Int := ofField 8 (s.rd (R.SEQ_RAIL_MARGIN_ACT10 i))

/-- What a rail's warn levels have moved by, in mV: the margin's part of the nominal level (R417). -/
def State.marginMv (s : State) (i : Nat) : Int := (s.rd (R.SEQ_RAIL_NOM i) : Int) * s.marginNow i / 1000

/-- The duty of a rail's trim output, per-mille (R417). -/
def State.trimDuty (s : State) (i : Nat) : Int :=
  (s.rd (R.SEQ_RAIL_TRIM_NOM_PM i) : Int) + s.marginNow i * ofField 10 (s.rd (R.SEQ_RAIL_TRIM_GAIN i)) / 10

/-- Every margin returned to 0 at once (R418). -/
def State.dropMargins (s : State) : State := (s.each 32 State.dropMargin).showMargins

/-- Every margin's target set to 0: it returns in steps (R418). -/
def State.easeMargins (s : State) : State := s.each 32 (fun s i => s.wr (R.SEQ_RAIL_MARGIN_PCT10 i) 0)

/-! ### Enables and the rise list (R411) -/

/-- Enables 0 to 39. -/
def mainMask : Nat := 2 ^ 40 - 1

/-- Drive enables high: their rails rise, and those among 0 to 39 that were low form one entry of the rise list; the entry before it
takes no check any more. -/
def State.setEnables (s : State) (mask : Nat) : State :=
  let old := s.rd R.SEQ_EN
  let new := mask ^^^ (mask &&& old)
  let s := { s with seq := { s.seq with openEntry := false } }
  if new = 0 then s
  else
    let s := s.wr R.SEQ_EN (old ||| mask)
    let s := (s.railsOf new).foldl (fun s i => s.wr (R.SEQ_RAIL_MV_STATE i) railRising) s
    if new &&& mainMask = 0 then s
    else { s with seq := { s.seq with rise := s.seq.rise ++ [{ ens := new &&& mainMask, check := none }], openEntry := true } }

/-- The ranks that an enable of `mask` feeds lose their supply (R128, R129). -/
def State.ranksOff (s : State) (mask : Nat) : State :=
  s.each s.chN (fun s c => s.each s.ranks (fun s r =>
    s.cond (mask.testBit (s.rd (R.DMC_SHED_EN (s.dmcOf c) r))) (fun s => s.wr (R.DMC_RANK_PWR (s.dmcOf c) r) 3)))

/-- Drive enables low: their rails fall, their ranks lose supply, and they leave the rise list. -/
def State.clrEnables (s : State) (mask : Nat) : State :=
  let old := s.rd R.SEQ_EN
  let gone := mask &&& old
  if gone = 0 then s
  else
    let s := (s.wr R.SEQ_EN (old ^^^ gone)).ranksOff gone
    let s := (s.railsOf gone).foldl (fun s i =>
      s.cond (s.railSt i != railOff) (fun s => s.wr (R.SEQ_RAIL_MV_STATE i) railFalling)) s
    { s with seq := { s.seq with
        openEntry := s.seq.openEntry && s.seq.rise.getLast?.any (fun (e : RiseEntry) => e.ens &&& gone != e.ens),
        rise := (s.seq.rise.map (fun (e : RiseEntry) => { e with ens := e.ens ^^^ (e.ens &&& gone) })).filter (fun e => e.ens != 0) } }

/-! ### The step engine -/

/-- `STAT.PROG`, `ACTIVE`, `STEP`, `SYNC_WAIT`, `SYNC_SOLO` (Table 14-13). -/
def State.showSeq (s : State) : State :=
  let s := (s.wr R.SEQ_STAT_PROG (s.seq.prog.getD 0)).wr R.SEQ_STAT_ACTIVE (b2n s.seq.prog.isSome)
  let s := (s.wr R.SEQ_STAT_STEP s.seq.pc).wr R.SEQ_STAT_SYNC_SOLO (b2n s.seq.solo)
  s.wr R.SEQ_STAT_SYNC_WAIT (b2n (match s.seq.wait with
    | .sync _ _ => true
    | .none => false
    | .time => false
    | .hc _ => false
    | .ct => false
    | .up _ => false
    | .down _ => false
    | .shed _ => false
    | .gap => false
    | .more => false))

/-- The start in progress is warm (Table 14-5 condition 5). -/
def State.warmStart (s : State) : Bool := s.power.warm

/-- A jump condition (Table 14-5). -/
def State.jumpCond (s : State) (code arg : Nat) : Bool :=
  match code with
  | 0 => true
  | 1 => s.flag R.SEQ_STAT_CHECK_FAILED
  | 2 => s.enableSafe arg
  | 3 => decide (s.warnMv ≤ s.rd R.MON_MAIN_IN)
  | 4 => s.flag R.PHS_STAT_EW
  | 5 => s.warmStart
  | 6 => s.railSt arg == railGood
  | 7 => (s.pack arg).pathOn
  | 8 => s.inKiln
  | _ => false

/-- Sync steps pass at once: `SYNC_EN` = 0, from K0 until the next start, or alone after a timeout (R416). -/
def State.syncPasses (s : State) : Bool := !s.flag R.SEQ_CTRL_SYNC_EN || s.kiln.since || s.seq.solo

/-- The module leaves `SEQSYNC` released: it waits at a sync step, or its sync steps pass at once (R416). -/
def State.syncReleased (s : State) : Bool :=
  s.syncPasses || (match s.seq.wait with
    | .sync _ _ => true
    | .none => false
    | .time => false
    | .hc _ => false
    | .ct => false
    | .up _ => false
    | .down _ => false
    | .shed _ => false
    | .gap => false
    | .more => false)

/-- A pack path carries the hold-up bus. -/
def State.packCarries (s : State) : Bool := s.packA.pathOn || s.packB.pathOn

/-- The word of the running program at its step. -/
def State.seqWord (s : State) : Nat := s.seq.store.get (s.rd (R.SQP_DIR_START (s.seq.prog.getD 0)) + s.seq.pc)

/-- The enables an `EN_SET` or `EN_CLR` word names. -/
def wordMask (w : Nat) : Nat := w % 2 ^ 24 * (if w.testBit 24 then 2 ^ 24 else 1)

/-- The rails a check names. -/
def wordRails (w : Nat) : Nat := w % 65536 * (if w.testBit 16 then 65536 else 1)

/-- A named rail is Unmonitored: the check fails (R403). -/
def State.anyUnmon (s : State) (rails : Nat) : Bool := (maskBits 32 rails).any (fun i => s.railSt i == railUnmon)

/-- Every named rail is Good. -/
def State.allGood (s : State) (rails : Nat) : Bool := (maskBits 32 rails).all (fun i => s.railSt i == railGood)

/-- Every named rail reads below its off level. -/
def State.allDown (s : State) (rails : Nat) : Bool :=
  (maskBits 32 rails).all (fun i => decide (10 * s.rd (R.SEQ_RAIL_MV_MV i) < s.rd (R.SEQ_RAIL_NOM i)) || s.railSt i == railOff)

/-- The sequencer waits. -/
def State.seqWaits (s : State) (w : SeqWait) : State := { s with seq := { s.seq with wait := w } }

/-- The step after the present one. -/
def State.seqNext (s : State) : State := { s with seq := { s.seq with pc := s.seq.pc + 1, wait := .none } }

/-- A check has passed its timeout: the rails not there are counted and recorded, the flag is set (R412, Table 14-3). -/
def State.checkFailed (s : State) (rails : Nat) (up : Bool) : State :=
  let bad := (maskBits 32 rails).filter (fun i =>
    if up then s.railSt i != railGood else !s.allDown (2 ^ i))
  let s := bad.foldl (fun s i =>
    let s := if up then s.inc (R.SEQ_RAIL_CNT_SEQ_UP_FAIL i) else s.inc (R.SEQ_RAIL_CNT_SEQ_DOWN_FAIL i)
    (s.wr R.SEQ_LAST_FAIL_RAIL i).wr R.SEQ_LAST_FAIL_KIND (if up then 5 else 6)) s
  (s.wr R.SEQ_STAT_CHECK_FAILED 1).detect (if up then 125 else 126) 0

/-- The running program ends; requests latched behind it become due, `DORMANT_EXIT` before the others (Table 14-7). -/
def State.seqStop (s : State) (failed : Bool) : State :=
  let n := s.seq.prog.getD 0
  let bits := maskBits 8 (s.rd R.SEQ_STAT_PENDING)
  let waiting := bits.filter (fun k => k == 7) ++ bits.filter (fun k => k != 7)
  let s := { s with seq := { s.seq with prog := none, derived := none, wait := .none, pc := 0, openEntry := false,
                                        ended := some (n, failed), due := s.seq.due ++ waiting, solo := false } }
  (s.wr R.SEQ_STAT_PENDING 0).showSeq

/-- The derived power-down goes on with its next entry: enables cleared, then a check of the entry's rails or the gap
(R411). -/
def State.derivedStep (s : State) : State :=
  match s.seq.derived with
  | none => s
  | some [] => s.seqStop false
  | some (e :: t) =>
    let s := s.clrEnables e.ens
    let s := { s with seq := { s.seq with derived := some t } }
    match e.check with
    | some c => s.seqWaits (.down c.1)
    | none => s.seqWaits .gap

/-- The derived power-down begins over the enables actually set (R411, R414). -/
def State.derivedDown (s : State) : State :=
  ({ s with seq := { s.seq with prog := some 1, derived := some s.seq.rise.reverse, pc := 0, wait := .none } }).derivedStep.showSeq

/-- `END`: after an explicit `POWER_DOWN`, enables 0 to 39 still high are cleared as the derived one clears them, and the
leftover bit latches (R413). -/
def State.seqEnd (s : State) : State :=
  if s.seq.prog = some 1 ∧ s.rd R.SEQ_EN &&& mainMask ≠ 0 then (s.detect 132 0).derivedDown
  else s.seqStop false

/-- An `EN_CLR`: while a kiln runs, an enable that a rank names waits for its ranks (R410). -/
def State.seqClear (s : State) (mask : Nat) : State :=
  let free := ((maskBits 48 mask).filter (fun e => !s.inKiln || s.enableSafe e)).map (fun e => 2 ^ e)
  let s := s.clrEnables free.sum
  let left := mask ^^^ (mask &&& free.sum)
  if left = 0 then s.seqNext else s.seqWaits (.shed left)

/-- Whether the step after the present one handles a failed check itself: a `JUMP` on condition 1 (R412). -/
def State.nextHandles (s : State) : Bool :=
  let w := s.seq.store.get (s.rd (R.SQP_DIR_START (s.seq.prog.getD 0)) + s.seq.pc + 1)
  w / 2 ^ 28 == 8 && w / 2 ^ 24 % 16 == 1

/-- Programs that a failed up-check ends (R412). -/
def failsProgram (n : Nat) : Bool := n == 0 || n == 3 || n == 5 || n == 7

/-- A check of the running program has failed: the program fails, or goes on with the flag set (R412). -/
def State.afterFail (s : State) (up : Bool) : State :=
  if up && failsProgram (s.seq.prog.getD 0) && !s.nextHandles then s.seqStop true else s.seqNext

/-- One step of the running program (Table 14-4). -/
def State.seqStep (s : State) : State :=
  let w := s.seqWord
  let f := w % 2 ^ 24
  match w / 2 ^ 28 with
  | 0 => s.seqEnd
  | 1 => (s.setEnables (wordMask w)).seqNext
  | 2 => s.seqClear (wordMask w)
  | 3 => if f = 0 then s.seqNext else s.seqWaits .time
  | 4 => if f = 0 then s.seqNext else s.seqWaits (.hc (s.hc + f))
  | 5 =>
    if s.packCarries then
      let s := s.armCdl 4 (s.rd R.PHS_CT_DRAWN + f)
      if s.flag (R.PHS_CDL_FIRED 4) then (s.send (.signal 2 4)).seqNext else s.seqWaits .ct
    else s.seqWaits .time
  | 6 =>
    let rails := wordRails w
    let entry := s.seq.openEntry
    let s := if entry then
        { s with seq := { s.seq with openEntry := false, rise := s.seq.rise.dropLast ++
          (s.seq.rise.getLast?.map (fun (e : RiseEntry) =>
            ({ e with check := some (rails, max 1 (w / 2 ^ 17 % 2048)) } : RiseEntry))).toList } }
      else s
    if s.anyUnmon rails then (s.checkFailed rails true).afterFail true
    else if s.allGood rails then (s.wr R.SEQ_STAT_CHECK_FAILED 0).seqNext
    else s.seqWaits (.up rails)
  | 7 =>
    let rails := wordRails w
    if s.anyUnmon rails then (s.checkFailed rails false).afterFail false
    else if s.allDown rails then (s.wr R.SEQ_STAT_CHECK_FAILED 0).seqNext
    else s.seqWaits (.down rails)
  | 8 =>
    if (s.jumpCond (w / 2 ^ 24 % 16) (w / 2 ^ 18 % 64)) != w.testBit 17 then
      { s with seq := { s.seq with pc := w % 1024, wait := .none } }
    else s.seqNext
  | 9 => if s.syncPasses then (s.wr R.SEQ_SYNC_STATE (w % 256)).seqNext else s.seqWaits (.sync (w.testBit 24) (w % 256))
  | _ => s.seqEnd

/-- Run steps until the program waits or ends; `fuel` bounds a run of steps with no wait among them. -/
def State.seqRun (s : State) : Nat → State
  | 0 => (s.seqWaits .more).showSeq
  | n + 1 =>
    if s.seq.prog.isNone ∨ s.seq.derived.isSome then s.showSeq
    else
      match s.seq.wait with
      | .none => (s.seqStep).seqRun n
      | .time => s.showSeq
      | .hc _ => s.showSeq
      | .ct => s.showSeq
      | .up _ => s.showSeq
      | .down _ => s.showSeq
      | .sync _ _ => s.showSeq
      | .shed _ => s.showSeq
      | .gap => s.showSeq
      | .more => s.showSeq

/-- Steps run at once between two waits at most. -/
def seqFuel : Nat := 1024

/-- The program goes on after a wait that is over. -/
def State.seqGo (s : State) : State :=
  if s.seq.derived.isSome then s.derivedStep.showSeq else s.seqNext.seqRun seqFuel

/-- An `EN_CLR` that waits looks at its ranks again (R410). -/
def State.seqShedLook (s : State) : State :=
  match s.seq.wait with
  | .shed m => (({ s with seq := { s.seq with wait := .none } }).seqClear m).seqRun seqFuel
  | .none => s
  | .time => s
  | .hc _ => s
  | .ct => s
  | .up _ => s
  | .down _ => s
  | .sync _ _ => s
  | .gap => s
  | .more => s

/-! ### Programs (Tables 14-6 and 14-7) -/

/-- A program is present and its check word holds. -/
def State.progValid (s : State) (n : Nat) : Bool := s.bit R.SQP_STAT_VALID n && s.rd (R.SQP_DIR_LENGTH n) != 0

/-- Program `n` begins; `crcOk` is the outcome of its check before the run (R422). Without it `POWER_DOWN` is derived, and the
others do nothing: `POWER_UP` then has failed (Table 14-6). -/
def State.seqBegin (s : State) (n : Nat) (crcOk : Bool) : State :=
  let s := { s with seq := { s.seq with due := s.seq.due.filter (fun k => k != n) } }
  let s := s.wr R.SEQ_STAT_CHECK_FAILED 0
  let ok := s.progValid n && crcOk
  let s := s.cond (s.progValid n && !crcOk) (fun s => (s.setBit R.SQP_STAT_CHECK_FAIL n true).detect 137 0)
  let s := s.cond (s.progValid n && crcOk) (fun s => s.setBit R.SQP_STAT_CHECK_FAIL n false)
  let s := s.cond (!ok && (decide (n ≤ 2) || s.progValid n)) (fun s => s.detect 128 0)
  if ok then
    ({ s with seq := { s.seq with prog := some n, derived := none, pc := 0, wait := .none, openEntry := false,
                                  solo := false } }).seqRun seqFuel
  else if n = 1 then s.derivedDown
  else ({ s with seq := { s.seq with ended := some (n, n == 0) } }).showSeq

/-- The moment of program `n` has come: due at once where none runs; else the outcome of Table 14-7. -/
def State.seqRequest (s : State) (n : Nat) : State :=
  let want := fun (s : State) => { s with seq := { s.seq with due := s.seq.due.filter (fun k => k != n) ++ [n] } }
  match s.seq.prog with
  | none => want s
  | some k =>
    if k = n then s
    else if n = 1 ∧ (k = 0 ∨ k = 3 ∨ k = 2) then want (s.seqStop false)
    else if n = 5 ∧ k = 4 then want (s.seqStop false)
    else s.setBit R.SEQ_STAT_PENDING n true

/-- The running program abandoned at once (force off, input collapse). -/
def State.seqAbandon (s : State) : State :=
  if s.seq.prog.isSome then s.seqStop true else s

end Sys2Proof.Machine
end

