-- ==== Sys2Proof/Machine/Wire.lean ====
section
/-!
DEFINITION. Machine/Wire.lean: the bytes of fabric packets: payloads by type (R320, Tables 11-7, 11-8 and 12-1, R336, R343), the
header of Table 11-3 and its `HCRC`.
-/

namespace Sys2Proof.Machine

open Sys2Proof

/-! ### Types -/

/-- `TYPE` of a payload (Tables 11-4 and 12-1). -/
def Payload.typ : Payload → Nat
  | .hello .. => 0x00
  | .lsa _ => 0x01
  | .dbx _ => 0x02
  | .kiln .. => 0x10
  | .alarm _ => 0x11
  | .wake .. => 0x12
  | .rOpen .. => 0x20
  | .rRanges .. => 0x21
  | .rOpenReply .. => 0x22
  | .rBegin .. => 0x23
  | .rData .. => 0x24
  | .rPoison .. => 0x25
  | .rEnd .. => 0x26
  | .rAck .. => 0x27
  | .rRelease .. => 0x28
  | .rLost _ => 0x29
  | .rExport t _ => 0x30 + t % 4
  | .other t => t

/-! ### Payloads -/

/-- `FLAGS` of an LSA as a word (Table 11-7). -/
def Lsa.flags (a : Lsa) : Nat := b2n a.tentative + b2n a.dormant * 2 + a.power % 8 * 4

/-- Bytes 0 to 15 of an LSA: EUI, number, flags and sequence (Table 11-7). -/
def lsaHead (eui fnn flags sq : Nat) : List Nat := leBytes 8 eui ++ leBytes 2 (fnn % 8192) ++ leBytes 2 flags ++ leBytes 4 sq

/-- The 36 bytes of an LSA (Table 11-7). -/
def Lsa.bytes (a : Lsa) : List Nat :=
  lsaHead a.eui a.fnn a.flags a.seq ++ leBytes 2 a.group ++ leBytes 2 0 ++
    a.nbrs.flatMap (fun n => leBytes 2 (n.1 % 8192) ++ [b2n n.2.1, n.2.2 % 256])

/-- The bytes of an alarm summary (Table 11-8). -/
def Summary.bytes (a : Summary) : List Nat :=
  leBytes 8 a.eui ++ leBytes 4 a.pst ++ [b2n a.errN + b2n a.kilnRunning * 2 + b2n a.stateSummary * 4 + a.power % 8 * 8, 0] ++
    leBytes 2 (min 65535 a.changes) ++ leBytes 4 a.suppressed ++ leBytes 4 a.hopDrops ++ leBytes 4 a.collDrops ++ leBytes 4 a.num ++
    a.entries.flatMap (fun e => leBytes 4 (e.1 % 256 + e.2.1 % 4 * 256) ++ leBytes 4 (min 4294967295 e.2.2))

/-- The payload's bytes, by type. The mailbox traffic of an export and unknown types have none that the spec gives. -/
def Payload.bytes : Payload → List Nat
  | .hello eui fnn flags sq port hr lanes power feed =>
    lsaHead eui fnn flags sq ++ [port, b2n hr + lanes % 8 * 2, power, b2n feed]
  | .lsa a => a.bytes
  | .dbx a => a.bytes
  | .kiln eui group trig => leBytes 8 eui ++ leBytes 2 group ++ [trig] ++ List.replicate 5 0
  | .alarm a => a.bytes
  | .wake eui group => leBytes 8 eui ++ leBytes 2 group
  | .rOpen owner gen size count => leBytes 8 owner ++ leBytes 4 gen ++ leBytes 4 size ++ [count]
  | .rRanges first l => [first, l.length] ++ List.replicate 14 0 ++ l.flatMap (fun r => leBytes 4 r.1 ++ leBytes 4 r.2)
  | .rOpenReply st slot gen committed => [st, slot] ++ leBytes 4 gen ++ leBytes 4 committed
  | .rBegin gen region drop => leBytes 4 gen ++ leBytes 4 region ++ [b2n drop]
  | .rData _ _ data => (List.range 256).map (fun i => (data.byte i).toNat)
  | .rPoison off m => leBytes 2 off ++ leBytes 8 m.toNat
  | .rEnd nData nPoison crc => leBytes 4 nData ++ leBytes 2 nPoison ++ leBytes 4 crc
  | .rAck region st => leBytes 4 region ++ [st]
  | .rRelease owner gen => leBytes 8 owner ++ leBytes 4 gen
  | .rLost l => leBytes 2 l.length ++ l.flatMap (leBytes 4)
  | .rExport _ _ => []
  | .other _ => []

/-! ### The header (Table 11-3) -/

/-- Words 0 to 2 of the header. -/
def Packet.word0 (p : Packet) : Nat := p.dst % 8192 + p.cls % 8 * 8192 + p.src % 8192 * 65536 + p.res0 % 8 * 2 ^ 29
def Packet.word1 (p : Packet) : Nat :=
  p.payload.typ % 256 + p.hops % 128 * 256 + b2n p.flood * 32768 + p.len % 512 * 65536 + p.res1 % 128 * 2 ^ 25
def Packet.word2 (p : Packet) : Nat := p.seq % 65536 + p.flow % 65536 * 65536

/-- One byte more in the CRC-16/CCITT-FALSE: polynomial 0x1021, most significant bit first. -/
def crc16Step (c b : Nat) : Nat :=
  (List.range 8).foldl (fun x _ => if x.testBit 15 then (x <<< 1) % 65536 ^^^ 0x1021 else (x <<< 1) % 65536) (c ^^^ (b <<< 8))

/-- `HCRC` of the header as it stands: over bytes 0 to 13 (Table 11-3). -/
def Packet.crc (p : Packet) : Nat :=
  (leBytes 4 p.word0 ++ leBytes 4 p.word1 ++ leBytes 4 p.word2 ++ leBytes 2 p.tag).foldl crc16Step 0xFFFF

/-- The packet with its `HCRC`. -/
def Packet.sealed (p : Packet) : Packet := { p with hcrc := p.crc }

/-- `HCRC` matches. -/
def Packet.hcrcOk (p : Packet) : Bool := p.hcrc == p.crc
/-- The reserved bits are zero. -/
def Packet.reservedZero (p : Packet) : Bool := p.res0 == 0 && p.res1 == 0

/-- The 16 bytes of the header. -/
def Packet.header (p : Packet) : List Nat :=
  leBytes 4 p.word0 ++ leBytes 4 p.word1 ++ leBytes 4 p.word2 ++ leBytes 2 p.tag ++ leBytes 2 p.hcrc

end Sys2Proof.Machine
end

