-- ==== Sys2Proof/Machine/LinkOps.lean ====
section
/-!
DEFINITION. Machine/LinkOps.lean: what a Daluf port sends: output queues and replay buffers of its two planes (R318, R324, R340),
floods (R337), unicast by the route table (R332), the device's own LSA (R329), its kiln message (R336), the phantom feed (R321),
and what a port loses when its link goes (R318, R319).
-/

namespace Sys2Proof.Machine

open Sys2Proof

/-! ### Ports and planes -/

/-- Port `n` of the fabric. -/
def State.dport (s : State) (n : Nat) : DPort := s.fabric.ports.getD n {}
/-- Port `n` replaced. -/
def State.setDport (s : State) (n : Nat) (d : DPort) : State :=
  { s with fabric := { s.fabric with ports := s.fabric.ports.set n d } }
/-- A plane of a port: 0 the sideband, 1 the high-rate plane. -/
def State.plane (s : State) (n pl : Nat) : Plane := if pl = 1 then (s.dport n).hr else (s.dport n).sb
/-- A plane replaced. -/
def State.setPlane (s : State) (n pl : Nat) (l : Plane) : State :=
  s.setDport n (if pl = 1 then { s.dport n with hr := l } else { s.dport n with sb := l })
/-- The port's state (Table 11-1). -/
def State.dlp (s : State) (n : Nat) : Nat := s.rd (R.DLP_STAT_STATE n)

/-- FABRIC and the high-rate plane are off: from the end of kiln phase K3 until the next start, in P3 and in P4 (R342). The spec
does not say what `DFS.PAGE_CTRL.ENABLE` = 0 does to the fabric: that a halted `DFS` page makes the device dormant in the same way is
the model's choice (assumption 200). -/
def State.fabricOff (s : State) : Bool :=
  decide (12 ≤ s.rd R.KLN_STAT_STATE) || !s.works 0x90 || s.power.life == .off || s.power.life == .dormant

/-- A plane carries packets: the sideband of a port that has a neighbour, the high-rate plane of a port in Up. -/
def State.planeUp (s : State) (n pl : Nat) : Bool :=
  s.variant.fabric && (if pl = 1 then s.dlp n == 4 else decide (2 ≤ s.dlp n))

/-- Frames the replay buffer of a plane holds (R318, R320). -/
def planeCap (pl : Nat) : Nat := if pl = 1 then 128 else 16

/-- The weights of classes 5 to 0 (R324). -/
def classWeights : List Nat := [8, 4, 2, 2, 1, 1]

/-- The class served next, and the credits after it (R324). -/
def Plane.pick (l : Plane) : Option (Nat × List Nat) :=
  let has := fun (c : Nat) => l.waiting.any (fun p => p.cls == c)
  if has 7 then some (7, l.credits)
  else if has 6 then some (6, l.credits)
  else
    let use := fun (c : Nat) (w : List Nat) => (c, w.set (5 - c) (w.getD (5 - c) 0 - 1))
    let cand := [5, 4, 3, 2, 1, 0].filter has
    match cand.find? (fun c => l.credits.getD (5 - c) 0 != 0), cand.head? with
    | some c, _ => some (use c l.credits)
    | none, some c => some (use c classWeights)
    | none, none => none

/-- The first packet of a class, and the packets without it. -/
def firstOf (c : Nat) : List Packet → Option (Packet × List Packet)
  | [] => none
  | p :: t => if p.cls = c then some (p, t) else (firstOf c t).map (fun r => (r.1, p :: r.2))

/-- Packets that wait are sent while the replay buffer has room; `fuel` bounds their number. A port that retrains sends none on
its high-rate plane. -/
def State.pump (s : State) (n pl : Nat) : Nat → State
  | 0 => s
  | k + 1 =>
    let l := s.plane n pl
    if planeCap pl ≤ l.unacked.length ∨ (pl = 1 ∧ (s.dport n).retraining) then s
    else
      match l.pick with
      | none => s
      | some (c, cr) =>
        match firstOf c l.waiting with
        | none => s
        | some (p, rest) =>
          ((s.setPlane n pl { l with waiting := rest, credits := cr, txSeq := (l.txSeq + 1) % 4096,
                                     unacked := l.unacked ++ [(l.txSeq, p)] }).send (.packet n pl p)).pump n pl k

/-- A packet is a summary that is not a state summary. -/
def Packet.plainAlarm (p : Packet) : Bool :=
  match p.payload with
  | .alarm a => !a.stateSummary
  | _ => false

/-- A summary dropped at a port (R340). -/
def State.dropAlarm (s : State) (n : Nat) : State :=
  ({ s with fabric := { s.fabric with hopDrops := s.fabric.hopDrops + 1 } }.inc (R.DLP_DROP_ALARM n)).detect 110 n

/-- The list without its first plain alarm summary. -/
def dropPlain : List Packet → List Packet
  | [] => []
  | p :: t => if p.plainAlarm then t else p :: dropPlain t

/-- Class-7 packets that wait at the port. -/
def State.queue7 (s : State) (n : Nat) : Nat :=
  (((s.dport n).sb.waiting ++ (s.dport n).hr.waiting).filter (fun p => p.cls == 7)).length

/-- A packet is put into the output queue of a plane and sent as soon as its buffer has room. Of the 32 places of class 7, four
are kept for kiln messages and wake packets (R340). -/
def State.sendOn (s : State) (n pl : Nat) (p : Packet) : State :=
  let put := fun (s : State) =>
    let l := s.plane n pl
    (s.setPlane n pl { l with waiting := l.waiting ++ [p.sealed] }).pump n pl (l.waiting.length + 1)
  if s.planeUp n pl = false then s
  else
    match p.payload with
    | .alarm a =>
      let l := s.plane n pl
      if s.queue7 n < 28 then put s
      else if a.stateSummary ∧ l.waiting.any Packet.plainAlarm then
        put ((s.setPlane n pl { l with waiting := dropPlain l.waiting }).dropAlarm n)
      else s.dropAlarm n
    | _ => put s

/-! ### Headers -/

/-- The number the device sends under: the remembered one while dormant, else the one it claims or owns; 0x1FFF for none
(Table 11-3, R342). -/
def State.srcFnn (s : State) : Nat :=
  if s.fabricOff then s.fabric.remembered.getD 0x1FFF
  else if s.rd R.DFS_FNN_STAT_CLAIM = 1 ∨ s.rd R.DFS_FNN_STAT_CLAIM = 2 then s.rd R.DFS_FNN_STAT_FNN
  else 0x1FFF

/-- A packet with the header fields a sender gives it (Table 11-3). -/
def State.packet (s : State) (dst cls len sq : Nat) (flood : Bool) (p : Payload) : Packet :=
  { dst := dst, cls := cls, src := s.srcFnn, hops := 64, flood := flood, len := len, seq := sq % 65536, flow := 0, tag := 0,
    hcrc := 0, res0 := 0, res1 := 0, payload := p }

/-- The device may send packets of its own in a class: it owns its number, or the claim is Probing and the class is 6 or 7
(Table 11-6a). -/
def State.maySend (s : State) (cls : Nat) : Bool :=
  s.fabricOff || s.rd R.DFS_FNN_STAT_CLAIM == 2 || (s.rd R.DFS_FNN_STAT_CLAIM == 1 && decide (6 ≤ cls))

/-! ### Floods -/

/-- A packet leaves every port but `from`, on every plane that is up (R337). -/
def State.floodOut (s : State) (src : Nat) (p : Packet) : State :=
  s.each 4 (fun s n => s.cond (n != src) (fun s => (s.sendOn n 0 p).sendOn n 1 p))

/-- The flood cache takes a packet in: 1,024 entries, 256 while dormant (R337, R342). -/
def State.remember (s : State) (src typ sq : Nat) : State :=
  let cap := if s.fabricOff then 256 else 1024
  { s with fabric := { s.fabric with
      seen := (s.fabric.seen ++ [(src, typ, sq, s.rd R.SNT_RTC)]).drop (s.fabric.seen.length + 1 - cap) } }

/-- A flood that came within the last 10 s (R337). -/
def State.seenFlood (s : State) (src typ sq : Nat) : Bool :=
  s.fabric.seen.any (fun e => e.1 == src && e.2.1 == typ && e.2.2.1 == sq && decide (s.rd R.SNT_RTC ≤ e.2.2.2 + 10))

/-- A flood of the device's own. -/
def State.floodOwn (s : State) (typ : Nat) (p : Packet) : State := (s.remember p.src typ p.seq).floodOut 4 p

/-- Flood the kiln message of R336 to the device's own group, on every port in state Sideband or Up. -/
def State.floodKiln (s : State) (trig : Nat) : State :=
  if s.rd R.DFS_GROUP = 0 then s
  else
    let n := s.fabric.kilnSeq + 1
    let s := { s with fabric := { s.fabric with kilnSeq := n } }
    let p := s.packet 0x1FFF 7 16 n true (.kiln (s.rd R.ID_EUI) (s.rd R.DFS_GROUP) trig)
    let s := s.remember p.src 0x10 p.seq
    (s.each 4 (fun s n => s.cond (s.dlp n != 3) (fun s => (s.sendOn n 0 p).sendOn n 1 p))).inc R.DFS_KILN_MSG_SENT

/-! ### The own LSA (R329, R331, Table 11-7) -/

/-- The cost of a port with good lanes `n` (R331). -/
def State.portCost (s : State) (n lanes : Nat) : Nat :=
  (if 4 ≤ lanes then 10 else if lanes = 3 then 13 else 20) + s.rd (R.DLP_CTRL_COST_ADD n)

/-- A port's cost in the one byte of `COST_p`: the spec gives no rule above 255, where the byte is a free value (assumption 201). -/
def lsaCost (c : Nat) : Nat := if c < 256 then c else (Config.lsaCost c).toNat

/-- The device's LSA with sequence `sq`. -/
def State.ownLsa (s : State) (sq : Nat) : Lsa :=
  { eui := s.rd R.ID_EUI, fnn := s.srcFnn, tentative := !s.fabricOff && s.rd R.DFS_FNN_STAT_CLAIM == 1, dormant := s.fabricOff,
    power := s.rd R.PWR_STAT_STATE, seq := sq, group := s.rd R.DFS_GROUP,
    nbrs := (List.range 4).map (fun n =>
      (if 2 ≤ s.dlp n then s.rd (R.DLP_NBR_FNN n) else 0x1FFF, s.dlp n == 4, lsaCost (s.rd (R.DLP_COST n)))) }

/-- The device floods its LSA, one higher in `SEQ`, while it claims or holds a number. -/
def State.floodLsa (s : State) : State :=
  if s.variant.fabric = false ∨ s.srcFnn = 0x1FFF then s
  else
    let s := { s with fabric := { s.fabric with lsaAt := s.puNow + 1, lsaDue := false } }.bump R.DFS_OWN_SEQ
    let p := s.packet 0x1FFF 6 36 (s.rd R.DFS_OWN_SEQ) true (.lsa (s.ownLsa (s.rd R.DFS_OWN_SEQ)))
    s.floodOwn 0x01 p

/-- Less than 20 ms have passed since the device's last LSA (R329), as the timebase of a device that runs shows. -/
def State.lsaSoon (s : State) : Bool := s.within s.fabric.lsaAt 20000 && s.power.life != .off && s.power.life != .dormant

/-- The device's LSA is due: flooded at once, or 20 ms after its previous one (R329). -/
def State.announce (s : State) : State :=
  if s.lsaSoon then { s with fabric := { s.fabric with lsaDue := true } } else s.floodLsa

/-- Time passes: an LSA that waits is flooded once 20 ms have passed (R329). -/
def State.lsaTick (s : State) : State :=
  s.cond (s.fabric.lsaDue && !s.lsaSoon) State.floodLsa

/-- An adjacency or a cost of the device has changed: LSA, and routes to compute (R329, R333). -/
def State.adjacency (s : State) : State := ({ s with fabric := { s.fabric with routeDue := true } }).announce

/-! ### Number claims (R325 to R327) -/

/-- The initial number of R325. -/
def State.firstFnn (s : State) : Nat :=
  let e := s.rd R.ID_EUI
  if s.flag R.DFS_CTRL_FNN_MODE then min 4095 (s.rd R.DFS_FNN_REQ)
  else
    (e % 4096 ^^^ (e >>> 12) % 4096 ^^^ (e >>> 24) % 4096 ^^^ (e >>> 36) % 4096 ^^^ (e >>> 48) % 4096) ^^^ (e >>> 60) % 16

/-- A number that the database shows owned or dormant. -/
def State.fnnTaken (s : State) (n : Nat) : Bool := s.fabric.db.any (fun e => e.1.fnn == n && (!e.1.tentative || e.1.dormant))

/-- Claim a number, or the next free one after it (R326); with none left the claim is Exhausted. -/
def State.claim (s : State) (n : Nat) : State :=
  match (List.range 4096).find? (fun i => !s.fnnTaken ((n + i) % 4096)) with
  | some i => ((s.wr R.DFS_FNN_STAT_FNN ((n + i) % 4096)).wr R.DFS_FNN_STAT_CLAIM 1).adjacency
  | none => ((s.wr R.DFS_FNN_STAT_FNN 0x1FFF).wr R.DFS_FNN_STAT_CLAIM 3).detect 98 0

/-- The number is lost to a lower EUI (R327). -/
def State.loseFnn (s : State) : State :=
  let n := s.rd R.DFS_FNN_STAT_FNN
  ((s.inc R.DFS_FNN_STAT_CONFLICTS).detect 97 0).claim ((n + 1) % 4096)

/-- The database holds the device's number under a lower EUI (R327). -/
def State.conflict (s : State) : Bool :=
  let c := s.rd R.DFS_FNN_STAT_CLAIM
  (c == 1 || c == 2) && s.fabric.db.any (fun e => e.1.fnn == s.rd R.DFS_FNN_STAT_FNN && decide (e.1.eui < s.rd R.ID_EUI))

/-- FABRIC settles the claim from the database: a conflict lost, or a number freed for an exhausted device (Table 11-6b). -/
def State.settleClaim (s : State) : State :=
  if s.conflict then s.loseFnn
  else s.cond (s.rd R.DFS_FNN_STAT_CLAIM == 3 && (List.range 4096).any (fun n => !s.fnnTaken n)) (fun s => s.claim s.firstFnn)

/-! ### Unicast (R328, R332) -/

/-- The number that the database resolves an EUI to (R328). The spec does not say whether a number that is still `TENTATIVE`
resolves: that it does not is the model's choice (assumption 202). -/
def State.fnnOf (s : State) (eui : Nat) : Option Nat :=
  (s.fabric.db.find? (fun e => e.1.eui == eui && !e.1.tentative)).map (fun e => e.1.fnn)

/-- The route to a number. -/
def State.routeTo (s : State) (dst : Nat) : Option Route := s.fabric.routes.find? (fun r => r.fnn == dst)

/-- A route to the device of an EUI is installed. -/
def State.reachable (s : State) (eui : Nat) : Bool :=
  match s.fnnOf eui with
  | none => false
  | some n => (s.routeTo n).isSome

/-- The port a unicast packet leaves by: the j-th of the mask (R332). -/
def Route.port (r : Route) (p : Packet) : Nat :=
  let set := (List.range 4).filter (fun n => r.ports.testBit n)
  set.getD ((p.src ^^^ p.dst ^^^ p.flow) % max 1 set.length) 0

/-- A unicast packet leaves on the high-rate plane of its route. -/
def State.unicast (s : State) (p : Packet) : State :=
  match s.routeTo p.dst with
  | none => s
  | some r => s.sendOn (r.port p) 1 p

/-! ### Links that go -/

/-- The high-rate plane of a port ends: its replay buffer is discarded and counted (R318). -/
def State.dropHr (s : State) (n : Nat) : State :=
  let d := s.dport n
  let s := s.addSat (R.DLP_DROP_LINK n) d.hr.unacked.length
  let s := s.setDport n { d with hr := {}, retraining := false }
  ((s.wr (R.DLP_STAT_LANES n) 0).wr (R.DLP_STAT_SPARE_USED n) 0).wr (R.DLP_COST n) 0

/-- The sideband of a port ends, and with it what is known of the neighbour. -/
def State.dropSb (s : State) (n : Nat) : State :=
  let d := s.dport n
  let s := s.addSat (R.DLP_DROP_LINK n) d.sb.unacked.length
  let s := s.setDport n { d with sb := {}, nbrHr := false, retry := false }
  (((s.wr (R.DLP_NBR n) 0).wr (R.DLP_NBR_FNN n) 0x1FFF).wr (R.DLP_NBR_PORT n) 0).wr (R.DLP_NBR_PSTATE n) 0

/-- A port falls to state 2 (Sideband), 1 (Down) or 0 (Off) with the actions of Table 11-2; leaving Up while the device runs is
a lost link (Table 11-15). -/
def State.portFall (s : State) (n upTo : Nat) : State :=
  let was := s.dlp n
  if was ≤ upTo then s
  else
    let s := (s.cond (decide (3 ≤ was)) (fun s => s.dropHr n)).cond (decide (upTo < 2)) (fun s => s.dropSb n)
    let s := (s.wr (R.DLP_STAT_STATE n) upTo).cond (was == 4 && !s.fabricOff) (fun s => s.detect 105 n)
    if was = 3 ∧ upTo = 2 then s else if was = 1 then s else s.adjacency

/-- The high-rate plane goes off (R342). -/
def State.hrOff (s : State) : State :=
  s.cond s.variant.fabric (fun s => s.each 4 (fun s n => s.cond (decide (3 ≤ s.dlp n)) (fun s => s.portFall n 2)))

/-! ### Phantom feed (R321) -/

/-- `PH_OUT` follows: the feed is driven while `PH_TX` = 1, the island runs from `AUX3V3` (the one source of
R24 that is neither a pack nor a phantom feed), the port is not Off and no overcurrent holds it off. -/
def State.showFeed (s : State) (n : Nat) : State :=
  let on := s.flag (R.DLP_CTRL_PH_TX n) && s.rd R.SNT_CTX_SUPPLY == 0 && s.dlp n != 0 && !(s.dport n).feedOff
  s.wr (R.DLP_STAT_PH_OUT n) (b2n on)

/-- Every feed follows the island's supply. -/
def State.showFeeds (s : State) : State := s.cond s.variant.fabric (fun s => s.each 4 State.showFeed)

/-! ### What a summary will report (R338) -/

/-- A latch at or above `ALARM.MIN_SEV` asks for a summary, at most one per source in `ALARM.CODE_S`; those held back are
counted. -/
def State.alarmLatch (s : State) (src sev : Nat) : State :=
  if s.variant.fabric = false ∨ sev < s.rd R.DFS_ALARM_MIN_SEV then s
  else
    let last := s.fabric.codeSent.get src
    let held := last != 0 && decide (s.opsec + 1 < last + max 1 (s.rd R.DFS_ALARM_CODE_S))
    let due := if s.fabric.faultDue.any (fun e => e.1 == src) then
        s.fabric.faultDue.map (fun (e : Nat × Nat × Nat) => if e.1 = src then (src, max sev e.2.1, e.2.2 + 1) else e)
      else s.fabric.faultDue ++ [(src, sev, 1)]
    { s with fabric := { s.fabric with faultDue := due, faultNow := s.fabric.faultNow || !held,
                                       suppressed := s.fabric.suppressed + b2n held } }

end Sys2Proof.Machine
end

