-- ==== Sys2Proof/Machine/RackOps.lean ====
section
/-!
DEFINITION. Machine/RackOps.lean: racking at the source and at the target apart from the sends themselves: targets and their
states (R365, R366), generations (R362), debts (R354), the commands `RACK` and `RACK_FENCE` (R306, R367), guest volumes and their
release (R360, R363, R364).
-/

namespace Sys2Proof.Machine

open Sys2Proof

/-! ### Targets -/

/-- The EUI configured for a target; 0 none. -/
def State.tgt (s : State) (t : Nat) : Nat := if t = 0 then s.rd R.RCK_TGT0 else s.rd R.RCK_TGT1

/-- A target's state (Table 12-2): 0 None, 1 Opening, 2 Active, 3 Suspended, 4 Refused. -/
def State.tgtState (s : State) (t : Nat) : Nat := s.rd (R.RCK_TGT_STAT_STATE t)

/-- The numbers in both sets. -/
def RSet.inter (a b : RSet) : RSet := RSet.diff a (RSet.diff a b)

/-- The ranges racked to a target: base and size in regions, by range index (R351). -/
def State.rangesOf (s : State) (t : Nat) : List (Nat × Nat) :=
  ((List.range 64).filter (fun i => s.rd (R.RCK_RANGE_SIZE i) != 0 && (s.rd (R.RCK_RANGE_TGT i)).testBit t)).map
    (fun i => (s.rd (R.RCK_RANGE_BASE i), s.rd (R.RCK_RANGE_SIZE i)))

/-- The regions of a list of ranges. -/
def rangeSet (l : List (Nat × Nat)) : RSet := l.foldl (fun (a : RSet) e => a.add e.1 (e.1 + e.2)) []

/-- The sends in flight replaced; `INFLIGHT` follows. -/
def State.setSends (s : State) (l : List Send) : State :=
  let s := { s with racking := { s.racking with sends := l } }
  s.each 2 (fun s t => s.wr (R.RCK_TGT_STAT_INFLIGHT t) (l.filter (fun e => e.target == t)).length)

/-! ### RACK and RACK_FENCE (R306, R367) -/

/-- The targets that a command's `PARAM` selects; 0 selects every configured one. -/
def State.rackTargets (s : State) (param : Nat) : List Nat :=
  (List.range 2).filter (fun t => if param % 4 = 0 then s.tgt t != 0 else param.testBit t)

/-- What is left of the covered set: regions still owed. -/
def State.owedOf (s : State) (left : RSet) : RSet := left.inter (s.racking.debt0 ++ s.racking.debt1.shift 16777216)

/-- The offset, in granules, below which a rack command has done all its work. -/
def rackProgress (d : Desc) (left : RSet) : Nat :=
  let low := fun (t : Nat) => (left.slice (rackKey t 0) (rackKey (t + 1) 0)).next 0 |>.map (fun k => (k - rackKey t 0) * granulesPerRegion)
  let first := match low 0, low 1 with
    | some a, some b => some (min a b)
    | some a, none => some a
    | none, b => b
  match first with
  | some g => min d.count (max g (d.base + d.offset) - d.base)
  | none => d.count

/-- A rack command in progress after a change: unreachable at once where a selected target is not Active (R366), done where
nothing it covers is left. -/
def State.rackCheck (s : State) (k : RunCmd) : RunCmd :=
  match k.desc with
  | none => k
  | some d =>
    let left := s.owedOf k.left
    let k := { k with left := left, progress := rackProgress d left }
    if (s.rackTargets d.param).any (fun t => s.tgtState t != 2) then k.close 0x16
    else if left.isEmpty then k.nextElem
    else k

/-- A command that is a `RACK` or a `RACK_FENCE` in progress. -/
def RunCmd.isRack (k : RunCmd) : Bool := (k.opcode == 2 || k.opcode == 3) && k.covering && k.status.isNone

/-- Every rack command in progress changed by `f` and checked. -/
def State.mapRacks (s : State) (f : RunCmd → RunCmd) : State :=
  s.mapQueues (fun (c : Queue) => if c.cmds.any RunCmd.isRack && c.en && !c.fault then
    { c with cmds := c.cmds.map (fun (k : RunCmd) => if k.isRack then s.rackCheck (f k) else k) } else c)

/-- Rack commands follow the debts and the states of the targets. -/
def State.rackSettle (s : State) : State := s.mapRacks id

/-- A send of a region begins: for a fence it comes after its start, a `RACK` counts it as sent (R367). -/
def State.rackSent (s : State) (t r : Nat) : State :=
  s.mapRacks (fun (k : RunCmd) =>
    if k.opcode = 3 then { k with again := k.again.erase1 (rackKey t r) }
    else if k.left.has (rackKey t r) then { k with left := k.left.erase1 (rackKey t r), result := k.result + 1 }
    else k)

/-- A send has been acknowledged with status 0: done for the fences that began before it (R367). -/
def State.rackAcked (s : State) (t r : Nat) : State :=
  s.mapRacks (fun (k : RunCmd) =>
    if k.opcode = 3 ∧ k.left.has (rackKey t r) ∧ (k.again.has (rackKey t r) = false ∨ (s.debt t).has r = false) then
      { k with left := k.left.erase1 (rackKey t r), result := k.result + 1 }
    else k)

/-! ### States of a target (Tables 12-2, 12-3) -/

/-- Sends in flight to a target abandoned; their regions stay owed. -/
def State.abandonSends (s : State) (t : Nat) : State := s.setSends (s.racking.sends.filter (fun e => e.target != t))

/-- A target is suspended (R359, R366). -/
def State.suspend (s : State) (t : Nat) : State :=
  (((s.abandonSends t).wr (R.RCK_TGT_STAT_STATE t) 3).detect 112 0).rackSettle

/-- A target has refused (Table 12-3). -/
def State.refuse (s : State) (t : Nat) : State :=
  (((s.abandonSends t).wr (R.RCK_TGT_STAT_STATE t) 4).detect 113 0).rackSettle

/-- The generation of a target advances: every region of its ranges is owed (R362). -/
def State.advanceGen (s : State) (t n : Nat) : State :=
  let s := if t = 0 then { s with racking := { s.racking with genDue0 := false } }
    else { s with racking := { s.racking with genDue1 := false } }
  ((s.wr (R.RCK_GEN t) n).setDebt t ((s.debt t).union (rangeSet (s.rangesOf t)))).detect 119 0

/-- An advance is due at the next open of a target. -/
def State.genDue (s : State) (t : Nat) : Bool := if t = 0 then s.racking.genDue0 else s.racking.genDue1

/-- A unicast racking packet to the device of an EUI (R328); the device sends none before it owns its number (Table 11-6a). -/
def State.rackTo (s : State) (eui cls len sq tag : Nat) (p : Payload) : State :=
  match s.fnnOf eui with
  | none => s
  | some n => s.cond (s.maySend cls) (fun s => s.unicast { s.packet n cls len sq false p with tag := tag, flow := tag })

/-- Chunks of at most 30 ranges, with the index of their first. -/
def rangeChunks : Nat → Nat → List (Nat × Nat) → List (Nat × List (Nat × Nat))
  | 0, _, _ => []
  | k + 1, i, l => if l.isEmpty then [] else (i, l.take 30) :: rangeChunks k (i + 30) (l.drop 30)

/-- `OPEN` and `RANGES` are sent to a target in Opening, after the generation's advance where one is due (R362, R365). -/
def State.sendOpen (s : State) (t : Nat) : State :=
  let s := s.cond (s.genDue t) (fun s => s.advanceGen t (s.rd (R.RCK_GEN t) + 1))
  let l := s.rangesOf t
  let size := (l.map (fun e => e.2)).sum
  let s := s.rackTo (s.tgt t) 5 17 0 0 (.rOpen (s.rd R.ID_EUI) (s.rd (R.RCK_GEN t)) size l.length)
  (rangeChunks 3 0 l).foldl (fun s c => s.rackTo (s.tgt t) 5 (16 + 8 * c.2.length) 0 0 (.rRanges c.1 c.2)) s

/-- A target enters Opening, and its `OPEN` is sent from Steep Ready on while FABRIC runs (R365, Table 12-4). -/
def State.openTarget (s : State) (t : Nat) : State :=
  let s := s.wr (R.RCK_TGT_STAT_STATE t) 1
  (s.cond (s.steepReady && s.runs .fabric) (fun s => s.sendOpen t)).rackSettle

/-- Targets follow the route table: Active without a route is suspended, Suspended with one opens (Table 12-3). -/
def State.followRoutes (s : State) : State :=
  s.each 2 (fun s t =>
    if s.tgt t = 0 then s
    else if s.tgtState t = 2 ∧ s.reachable (s.tgt t) = false then s.suspend t
    else if s.tgtState t = 3 ∧ s.runs .fabric ∧ s.reachable (s.tgt t) then s.openTarget t
    else s)

/-- FABRIC stops: every target is Suspended (R366). -/
def State.fabricStops (s : State) : State :=
  s.cond s.variant.fabric (fun s => s.each 2 (fun s t =>
    s.cond (s.tgtState t != 0 && s.tgtState t != 3) (fun s => s.suspend t)))

/-- FABRIC runs again: what it missed of the claim is settled, and targets with a route open (R327, R335, R365). -/
def State.fabricRuns (s : State) : State := s.cond s.variant.fabric (fun s => s.settleClaim.followRoutes)

/-- At Steep Ready the configured targets open (Table 12-4). -/
def State.rackStart (s : State) : State :=
  s.cond s.variant.fabric (fun s => s.each 2 (fun s t => s.cond (s.tgt t != 0) (fun s => s.openTarget t)))

/-! ### Guest volumes -/

/-- The volume in a slot, and of an owner. -/
def State.guestAt (s : State) (slot : Nat) : Option Guest := s.racking.guests.find? (fun v => v.slot == slot)
def State.guestOf (s : State) (owner : Nat) : Option Guest := s.racking.guests.find? (fun v => v.owner == owner)

/-- The registers of a slot (Table 12-8). -/
def State.showGuest (s : State) (slot : Nat) : State :=
  let s := s.wr R.RCK_GUEST_VOLS s.racking.guests.length
  match s.guestAt slot with
  | none =>
    let s := (((s.wr (R.RCK_GUEST_OWN slot) 0).wr (R.RCK_GUEST_STAT_STATE slot) 0).wr (R.RCK_GUEST_STAT_OWNER_REACH slot) 0).wr
      (R.RCK_GUEST_STAT_UNREACH_H slot) 0
    (((s.wr (R.RCK_GUEST_GEN slot) 0).wr (R.RCK_GUEST_SIZE slot) 0).wr (R.RCK_GUEST_HELD slot) 0).wr (R.RCK_GUEST_LOST slot) 0
  | some v =>
    let r := s.reachable v.owner
    let s := ((s.wr (R.RCK_GUEST_OWN slot) v.owner).wr (R.RCK_GUEST_STAT_STATE slot) 1).wr (R.RCK_GUEST_STAT_OWNER_REACH slot) (b2n r)
    let s := s.cond r (fun s => s.wr (R.RCK_GUEST_STAT_UNREACH_H slot) 0)
    (((s.wr (R.RCK_GUEST_GEN slot) v.gen).wr (R.RCK_GUEST_SIZE slot) v.size).wr (R.RCK_GUEST_HELD slot) v.held.card).wr
      (R.RCK_GUEST_LOST slot) v.lost.card

/-- A volume put in its slot. -/
def State.putGuest (s : State) (v : Guest) : State :=
  let rest := s.racking.guests.filter (fun w => w.slot != v.slot)
  { s with racking := { s.racking with guests := rest ++ [v] } }.showGuest v.slot

/-- Regions released from a volume: copies outside `keep` are dropped. -/
def State.guestKeep (s : State) (v : Guest) (keep : RSet) : State :=
  let s := { s with racking := { s.racking with
      copies := s.racking.copies.filter (fun c => c.1 != v.slot || keep.has (c.2.1 / granulesPerRegion)),
      recvs := s.racking.recvs.filter (fun r => r.slot != v.slot || keep.has r.region) } }
  s.putGuest { v with held := v.held.inter keep, lost := v.lost.inter keep, lostDue := v.lostDue.inter keep }

/-- A volume released: its slot is free and its copies are gone (R363). -/
def State.dropGuest (s : State) (slot : Nat) : State :=
  { s with racking := { s.racking with guests := s.racking.guests.filter (fun v => v.slot != slot),
                                       copies := s.racking.copies.filter (fun c => c.1 != slot),
                                       recvs := s.racking.recvs.filter (fun r => r.slot != slot) } }.showGuest slot

/-- The first `n` numbers of a set, one by one. -/
def RSet.firsts (a : RSet) : Nat → Nat → List Nat
  | 0, _ => []
  | k + 1, lo =>
    match a.next lo with
    | none => []
    | some x => x :: a.firsts k (x + 1)

/-- One `LOST` packet of a volume, of at most 62 regions, where its owner is reachable (R364, Table 12-1). -/
def State.sendLost (s : State) (slot : Nat) : State :=
  match s.guestAt slot with
  | none => s
  | some v =>
    if v.lostDue.isEmpty ∨ s.reachable v.owner = false then s
    else
      let l := v.lostDue.firsts 62 0
      let left := l.foldl (fun (a : RSet) r => a.erase1 r) v.lostDue
      (s.rackTo v.owner 5 (2 + 4 * l.length) 0 0 (.rLost l)).putGuest { v with lostDue := left }

/-- The slots follow the route table: owners reachable, losses reported. -/
def State.guestsFollow (s : State) : State :=
  (s.racking.guests.map (fun v => v.slot)).foldl (fun s n => (s.sendLost n).showGuest n) s

/-- One more hour without the owner, for each volume (Table 12-8). -/
def State.guestHours (s : State) : State :=
  s.racking.guests.foldl (fun s v =>
    s.cond (!s.flag (R.RCK_GUEST_STAT_OWNER_REACH v.slot)) (fun s => s.inc (R.RCK_GUEST_STAT_UNREACH_H v.slot))) s

/-- Data capacity of the guest zone in granules (Table 07-3). -/
def State.guestCap (s : State) : Nat := ((s.cellar.groups.filter (fun g => g.inZone .guest)).map (fun g => g.cap)).sum

/-- The declared sizes of all volumes, with `size` regions in the place of the owner's, fit within 90 % of the zone (R360). -/
def State.guestFits (s : State) (owner size : Nat) : Bool :=
  let rest := ((s.racking.guests.filter (fun v => v.owner != owner)).map (fun v => v.size)).sum
  decide ((rest + size) * granulesPerRegion * 10 ≤ s.guestCap * 9)

end Sys2Proof.Machine
end

