-- ==== Sys2Proof/Machine/StopOps.lean ====
section
/-!
DEFINITION. Machine/StopOps.lean: what the kiln stops or freezes in the other blocks: calibration, update, code flash, pending
commits, steep, racking, pages of powered-down blocks; and the kiln message and the log entries of reactions not yet reported.
-/

namespace Sys2Proof.Machine

open Sys2Proof

/-! ### Leaving a rest state -/

/-- A host request, or an L1 exit: no dwell is met any more (Table 15-3). -/
def State.noQuiet (s : State) : State := { s with power := { s.power with quiet := 0 } }

/-- An exit event takes the device out of P1 or P2 to P0; from P2 `REST_EXIT` runs and the ranks leave self-refresh (R431,
Table 15-2). The change of power state is flooded (R329). -/
def State.restExit (s : State) : State :=
  let st := s.rd R.PWR_STAT_STATE
  if st = 1 ∨ st = 2 then
    let s := { s.wr R.PWR_STAT_STATE 0 with power := { s.power with leaving := st } }
    (s.cond (st == 2) (fun s => s.seqRequest 5)).announce
  else s

/-- A program that must end before K3 (R226): `REST_EXIT`. -/
def State.restRuns (s : State) : Bool := s.seq.prog == some 5 || s.seq.due.contains 5

/-! ### Phase K0 -/

/-- A calibration run in progress at K0 is abandoned: no bank is switched (R495). -/
def State.abandonCal (s : State) : State :=
  if s.flag R.CAL_STAT_RUNNING then
    let s := { s with cal := { s.cal with banks := [], rejected := false } }
    ((((s.wr R.CAL_STAT_RUNNING 0).wr R.CAL_CTRL_RUN 0).wr R.CAL_STAT_LAST 3).wr R.MON_STAT_CAL_ACTIVE 0).detect 180 0
  else s

/-- A firmware update meets K0: Receiving and Verifying end Idle, the staging bank to be discarded (Table 19-9). -/
def State.updateK0 (s : State) : State :=
  if s.rd R.UPD_STAT_STATE = 1 ∨ s.rd R.UPD_STAT_STATE = 2 then
    ({ s with update := { s.update with discard := true } }.wr R.UPD_STAT_STATE 0).wr R.UPD_STAT_LOCK 0
  else s

/-! ### Boot record and fallback (R512, R513, R523) -/

/-- `GEN` `a` is newer than `b`: modulo 65,536, by the shorter distance. -/
def genNewer (a b : Nat) : Bool := a != b && decide ((a + 65536 - b) % 65536 < 32768)

/-- The newest valid word of one copy. -/
def newestWord (l : List BootWord) : Option BootWord := l.reverse.find? (fun w => w.crcOk)

/-- The candidate word of the two copies. -/
def bootCandidate (a b : List BootWord) : Option BootWord :=
  match newestWord a, newestWord b with
  | some x, some y => if genNewer y.gen x.gen then some y else some x
  | some x, none => some x
  | none, y => y

/-- The newest word without `TRIAL`. -/
def lastFirm (f : CodeFlash) : Option BootWord :=
  bootCandidate (f.bootA.filter (fun w => !w.trial)) (f.bootB.filter (fun w => !w.trial))

/-- The bank of the last confirmed images; bank 0 where no word says otherwise. -/
def State.confirmedBank (s : State) : Nat := ((lastFirm s.flash).map (fun w => w.bank)).getD 0

/-- A processor is stopped; its pages read `STALE` meanwhile (R59). While SAFETY is stopped the ROM kiln guards (R20),
a kiln in progress goes on as a ROM kiln, which does not triage, and the reactions it ran wait until it runs again (R453); during a
kiln it does not take control back (R253). -/
def State.halt (s : State) (n : Nat) : State :=
  let s := { s with halted := if s.halted.contains n then s.halted else s.halted ++ [n] }
  let s := (procPages n).foldl (fun s p => s.wr (R.STALE p) 1) s
  (s.cond (n == 5) (fun s =>
    let t : State := { s with safe := { s.safe with
      pend := s.safe.pend ++ s.safe.stack.filter (fun (r : Nat × Nat) => !s.safe.pend.any (fun q => q.1 == r.1)), stack := [] } }
    (t.wr R.SAF_STAT_ROM_GUARD 1).cond t.inKiln (fun s => (s.wr R.KLN_STAT_ROM 1).wr R.KLN_STAT_TRIAGE 0))).cond (n == 2)
    State.fabricStops

/-- A processor runs again. -/
def State.unhalt (s : State) (n : Nat) : State :=
  let s := { s with halted := s.halted.filter (fun k => k != n) }
  let s := (procPages n).foldl (fun s p => s.wr (R.STALE p) 0) s
  (s.cond (n == 5 && !s.kiln.since) (fun s => s.wr R.SAF_STAT_ROM_GUARD 0)).cond (n == 2) State.fabricRuns

/-- The hand-over of the next processor begins: it halts (R521). With none left the confirmation window begins (R523). -/
def State.nextHandover (s : State) : State :=
  match s.update.left with
  | p :: _ => (s.halt p).wr R.UPD_STAT_PROC p
  | [] =>
    ((s.wr R.UPD_STAT_PROC 0).wr R.UPD_STAT_STATE 5).wr R.UPD_CONFIRM_LEFT (60 * clampTo 15 1440 (s.rd R.UPD_CTRL))

/-- 1 s after a processor reported running, the hand-over of the next one begins (R521). -/
def State.handTick (s : State) : State :=
  s.cond (s.rd R.UPD_STAT_STATE == 4 && s.update.handAt != 0 && !s.within s.update.handAt 1000000) (fun s =>
    ({ s with update := { s.update with handAt := 0 } }).nextHandover)

/-- Settings blocks return to their kept old copies (R525). -/
def State.restoreSettings (s : State) : State :=
  if s.update.kept.isEmpty then s
  else
    let ids := s.update.kept.map (fun k => k.id)
    let mine := fun (k : Nat) => ids.contains (keyPage k)
    let regs := s.update.keptRegs.foldl (fun (m : NMap) (e : Nat × Nat) => m.set e.1 e.2)
      (s.regs.keep (fun k => !(mine k && survives k)))
    { s with regs := regs, update := { s.update with
        settings := s.update.kept ++ s.update.settings.filter (fun b => !ids.contains b.id), kept := [], keptRegs := [] } }

/-- Every processor that has changed runs its last confirmed image again, with the settings of it (R522, R523). -/
def State.returnImages (s : State) : State :=
  let s := s.update.confirmed.foldl (fun s i => s.cond (s.update.changed.contains i.typ && (i.typ != 2 || s.variant.fabric)) (fun s =>
    s.wr (R.ID_FWVER i.typ) i.version)) s
  let s := s.cond (s.update.changed.contains 4) (fun s => s.wr R.UPD_STAT_RUN_BANK s.confirmedBank)
  let s := s.cond (s.rd R.UPD_STAT_PROC != 0) (fun s => s.unhalt (s.rd R.UPD_STAT_PROC))
  let s := s.cond (s.update.changed.contains 3) (fun s => { s with cellar := { s.cellar with
    dieTable := ((if s.confirmedBank = 0 then s.update.bank0 else s.update.bank1).map (fun k => k.dies)).getD s.cellar.dieTable } })
  ({ s with update := { s.update with changed := [], left := [], handAt := 0, trigger := false } }.restoreSettings).wr R.UPD_STAT_PROC 0

/-- A fallback from Confirming (R523). -/
def State.fallback (s : State) : State :=
  let s := ((s.returnImages).wr R.UPD_STAT_STATE 3).wr R.UPD_CONFIRM_LEFT 0
  ((s.inc R.UPD_COUNTS_FALLBACKS).detect 229 0).vendor 2 7 [7, 5, 3]

/-- A hand-over failure in Activating (R522). -/
def State.handoverBack (s : State) : State :=
  (((s.returnImages).wr R.UPD_STAT_STATE 3).detect 228 0).vendor 2 7 [7, 4, 3]

/-- The charge-deadline slot of a port's tests. -/
def testSlot (p : Nat) : Nat := 6 + p

/-- A test ends with no result: its slot disarmed (Table 13-6). -/
def State.dropTest (s : State) (p : Nat) : State :=
  if (s.pack p).test = 0 then s
  else ((s.setPack p { s.pack p with test := 0 }).wr (R.PK_TEST_DISCHARGE p) 0).disarmCdl (testSlot p)

/-- The pack paths of identified packs stand by to take the hold-up bus (R230). -/
def State.packPathOn (s : State) : State :=
  s.each 2 (fun s p => s.cond (decide (3 ≤ s.rd (R.PK_STAT_STATE p))) (fun s =>
    s.setPack p { s.pack p with standby := true }))

/-! ### Phase K3 -/

/-- The steep stops at its granule boundary; what it held gets no answer (R281, R88). -/
def State.freezeSteep (s : State) : State :=
  let s := { s with steep := { s.steep with fills := [], waitFills := [], heldWrites := [], slotWaits := [], hints := [] } }
  (s.wr R.STP_STAT_BULK_RUN 0).showSteep

/-- Racking stops: sends in flight stay owed, uncommitted receptions are unreferenced (Table 12-4). -/
def State.freezeRacking (s : State) : State :=
  let s := { s with racking := { s.racking with sends := [], recvs := [] } }
  (s.wr (R.RCK_TGT_STAT_INFLIGHT 0) 0).wr (R.RCK_TGT_STAT_INFLIGHT 1) 0

/-- The retire copy whose first line has been read finishes; the others are abandoned (R15, R120). Copies run one after the other
(DESIGN CHOICE, assumption 157). -/
def State.freezeRetire (s : State) : State :=
  { s with dram := { s.dram with retiring := s.dram.retiring.take 1, retireAfter := [], waiting := [] } }

/-- The staged values of a page are discarded, the staged program store of `SQP` among them (R66, R67). -/
def State.dropStaged (s : State) (page : Nat) : State :=
  { s with staged := s.staged.keep (fun k => keyPage k != page),
           seq := if page = 0xA1 then { s.seq with staged := s.seq.store } else s.seq }

/-- Pending commits are discarded with a notice (Table 03-4). -/
def State.discardCommits (s : State) : State :=
  (pageList.filter (fun p => s.flag (R.COMMIT_PENDING p))).foldl (fun s p =>
    ((s.dropStaged p).wr (R.COMMIT_PENDING p) 0).notice p) s

/-- A code-flash operation still running is abandoned at the end of K3, at a start and at a watchdog restart of MGMT: its location
is undefined (R509, R510). -/
def State.flashAbandon (s : State) : State :=
  let bad := (s.flash.op0.toList ++ s.flash.op1.toList).foldl (fun (u : RSet) (o : FlashOp) =>
    match o.opcode with
    | 1 => u.insert1 (o.addr / 8)
    | 2 => u.add (o.addr / 4096 * 512) (o.addr / 4096 * 512 + 512)
    | _ => u.add (o.addr / 65536 * 8192) (o.addr / 65536 * 8192 + 8192)) s.flash.undefined
  let s := { s with flash := { s.flash with op0 := none, op1 := none, undefined := bad } }
  (s.wr R.CFL_STAT_BUSY0 0).wr R.CFL_STAT_BUSY1 0

/-- Pages whose blocks are powered down at the end of K3 (R74, Table 01-7). -/
def offPages : List Nat := [0x010, 0x011, 0x090, 0x091, 0x092, 0x093, 0x094, 0x0C8, 0x0C9, 0x0D0, 0x0D1, 0x0D8]

/-- These pages show what they held, marked stale: their registers and windows are kept as they are now (R74). -/
def State.holdOffPages (s : State) : State :=
  let s := offPages.foldl (fun s p => s.cond (pagePresent s.variant p) (fun s => s.wr (R.STALE p) 1)) s
  { s with power := { s.power with heldRegs := s.regs.keep (fun k => offPages.contains (keyPage k)),
                                   heldWindows := some (s.tlogWindow, s.recWindow) } }

/-! ### Reports of latches -/

/-- The trouble-log entry of a latch (Table 17-1, Table 17-2). -/
def Report.entry (r : Report) : TEntry :=
  { code := r.src, sev := r.sev, injected := false, masked := r.masked, inst := r.inst, seqno := 0, opsec := r.opsec,
    pcycles := 0, hc := r.hc, pu := r.pu, data := r.data }

/-- Append the trouble-log entry of a report; latches of SV2 and SV3 are never limited (R470). -/
def State.logReport (s : State) (r : Report) : State :=
  s.appendTlog (decide (r.sev < 2)) { r.entry with pcycles := s.rd R.PHS_PCYCLES }

/-- The entries of every latch not yet reported enter the log before it is frozen (R469, R471). -/
def State.reportAll (s : State) : State :=
  let rs := s.safe.reports
  rs.foldl State.logReport { s with safe := { s.safe with reports := [] } }

end Sys2Proof.Machine
end

