-- ==== Sys2Proof/Machine/KilnOps.lean ====
section
/-!
DEFINITION. Machine/KilnOps.lean: the kiln controller's transitions (Table 08-2) and the work of each phase (R229 to R254).
-/

namespace Sys2Proof.Machine

open Sys2Proof

/-! ### Phases -/

/-- Time allotment of a phase in µs (Table 08-4); that of K0 is part of K1's. -/
def State.allotUs (s : State) (k : Nat) : Option Nat :=
  match k with
  | 0 => none
  | 1 => some (50 - min 50 (s.rd (R.KLN_PHASE_US 0)))
  | 2 => some (s.kiln.w * 1000 + if s.kiln.debounced then s.usOf 4096 else 0)
  | 3 => some 80000
  | 4 => some 40000
  | 5 =>
    let n := s.rd R.KLN_DRAINED
    let v := max 1 s.kiln.v
    some (ceilDiv (n * 4096) v + min 90000 (ceilDiv (ceilDiv n 512 * 4096) v))
  | 6 => some 1000000
  | _ => some 240000

/-- The duration and charge of the phase now ending (R255); a phase over its allotment latches the time overrun (R227). -/
def State.closePhase (s : State) : State :=
  let k := s.kilnPhase
  let us := s.usOf (s.puNow - s.kiln.markPu)
  let ct := s.rd R.PHS_CT_DRAWN - s.kiln.markCt
  let s := (s.wr (R.KLN_PHASE_US k) (min us (2 ^ 32 - 1))).wr (R.KLN_PHASE_CT k) (min ct (2 ^ 24 - 1))
  match s.allotUs k with
  | some a => s.cond (decide (a < us) && !s.kiln.late) (fun s => s.detect 39 0)
  | none => s

/-- Kiln phase `k` entered: state, marks, and the trouble-log entry of code 0x0102 (Table 17-1). -/
def State.enterPhase (s : State) (k : Nat) : State :=
  let s := s.cond s.inKiln State.closePhase
  let s := s.wr R.KLN_STAT_STATE (8 + k)
  let s := { s with kiln := { s.kiln with markPu := s.puNow, markCt := s.rd R.PHS_CT_DRAWN, late := false } }
  let s := s.cond (!s.runs .safety) (fun s => s.wr R.KLN_STAT_ROM 1)
  let data :=
    if k = 0 then s.rd R.KLN_STAT_TRIGGER * 256 + s.kiln.trigMask * 2048
    else k + s.rd R.KLN_STAT_TRIGGER * 256 + (s.rd R.PHS_CT_DRAWN - s.kiln.m0) % 2 ^ 21 * 2048
  s.tlog 0x0102 data

/-- W, ms: the largest treated `GPF.WINDOW` of the link-up ports (Table 06-1). -/
def State.windowW (s : State) : Nat :=
  (((List.range s.variant.ports).filter s.linkUp).map (fun p => clampTo 1 50 (s.rd (R.HP_GPF_WINDOW p)))).foldl max 0

/-- What the firing of a kiln's deadline sets: `CDL0` ends the granule reads of K5, `CDL1` ends K2; each of `CDL1` to `CDL3` is an
overrun of its charge allotment (R229, R239). -/
def State.cdlMark (s : State) (n : Nat) : State :=
  match n with
  | 0 => s.cond (s.rd R.KLN_STAT_STATE == 13) (fun s =>
      { s with kiln := { s.kiln with stopReads := true, floored := true } })
  | 1 => ({ s with kiln := { s.kiln with k2Force := true } }).detect 38 0
  | _ => s.detect 38 0

/-- Arm one of the kiln's deadlines; one whose target is already reached fires at once (R46, R229). -/
def State.armKiln (s : State) (n target : Nat) : State :=
  let s := s.armCdl n target
  s.cond (s.flag (R.PHS_CDL_FIRED n)) (fun s => s.cdlMark n)

/-- The group message of K0 goes out for a trigger (R225). -/
def State.groupMessage (s : State) (trig : Nat) (group : Bool) : State :=
  s.cond (s.flag R.KLN_TRIG_GROUP_TX && s.variant.fabric && !s.flag R.KLN_STAT_ROM &&
    (trig == 1 || trig == 2 || trig == 5 || (trig == 3 && group))) (fun s => s.floodKiln trig)

/-- Disarmed, Ready and Primed to K0 of a kiln: the mark, the deadlines, the group message, and the lock-outs of K0
(R229, R225, R460, R495, R418, R520). A ROM kiln is not the last before the next start (R253). -/
def State.enterK0 (s : State) (trig mask : Nat) (p3 group : Bool) : State :=
  let s := { s with kiln := { since := true, m0 := s.rd R.PHS_CT_DRAWN, e0 := s.rd R.BUD_E_COUNT_CT, iK := s.rd R.BUD_I_KILN_CT_PER_S,
                              w := s.windowW, v := s.rd R.BUD_DRAIN_MBPS, hc0 := s.hc, pu0 := s.pu, trigMask := mask,
                              p3Consent := p3 && trig == 3, k2Wait := (List.range s.variant.ports).filter s.linkUp } }
  let s := (((s.wr R.KLN_STAT_TRIGGER trig).wr R.KLN_STAT_PLANNED (b2n (decide (3 ≤ trig)))).wr R.KLN_STAT_TRIAGE 0).wr
    R.KLN_STAT_ROM (b2n (!s.runs .safety || s.flag R.SAF_STAT_ROM_GUARD))
  let s := (s.wr R.KLN_STAT_DEBOUNCE 0).wr R.KLN_DRAINED 0
  let s := s.armKiln 0 (s.kiln.m0 + s.kiln.e0)
  let s := s.armKiln 1 (s.kiln.m0 + ceilDiv (2 * s.kiln.iK * (s.kiln.w + 120)) 1000)
  let s := s.each s.variant.ports (fun s p => s.wr (R.HP_GPF_P2_LATE p) 0)
  let s := s.wr R.SAF_STAT_STATE 1
  let s := (((((s.abandonCal).dropMargins).updateK0).restExit).dropTest 0).dropTest 1
  (s.enterPhase 0).groupMessage trig group

/-- K3: the dirty scrub ends, ports and engines stop at their granule boundaries, pending commits are discarded, interrupted-command records are
written (R231 step 1, R17, R88, R309, R310). -/
def State.enterK3 (s : State) : State :=
  let s := s.enterPhase 3
  let s := s.wr R.KLN_STAT_DEBOUNCE 0
  let s := { s with dirty := { s.dirty with scrubRun := false, scrubDue := false } }
  let s := { s with kiln := { s.kiln with duringSteep := s.rd R.STP_STAT_PHASE == 2 || s.rd R.STP_STAT_PHASE == 3 } }
  let s := (((s.freezeQueues).freezeSteep).freezeRacking).freezeRetire
  let s := s.cond (s.rd R.WTH_STATE_STATE != wthOff) (fun s => s.wr R.WTH_STATE_STATE wthFrozen)
  let s := s.discardCommits
  s.each s.variant.ports (fun s p =>
    ((((((s.setHost p { s.host p with gpfWait := false }).wr (R.HP_LINK_STAT_UP p) 0).wr (R.HP_LINK_STAT_WIDTH p) 0).wr (R.HP_LINK_STAT_RATE p) 0).wr
      (R.HP_LINK_STAT_CXL p) 0).wr (R.HP_LINK_STAT_FLIT256 p) 0).wr (R.HP_MBOX_BUSY p) 0)

/-- K2 ends when every port that was link-up has ended its part, or at once where forced; a debounce holds it open
(R92, R229, R248); K3 waits for `REST_EXIT` (R226). -/
def State.k2Check (s : State) : State :=
  if s.rd R.KLN_STAT_STATE = 10 ∧ s.restRuns = false ∧ (s.kiln.k2Force ∨ (¬ s.flag R.KLN_STAT_DEBOUNCE ∧ s.kiln.k2Wait = [])) then s.enterK3
  else s

/-- K2 entered from K1, ending at once where nothing holds it (R230, R92). -/
def State.openK2 (s : State) : State :=
  if s.rd R.KLN_STAT_STATE = 9 then
    let s := s.enterPhase 2
    ({ s with kiln := { s.kiln with markK1 := s.puNow } }).k2Check
  else s

/-- A port's part of K2 is done (R92). -/
def State.k2PortDone (s : State) (p : Nat) : State :=
  ({ s with kiln := { s.kiln with k2Wait := s.kiln.k2Wait.filter (fun q => q != p) } }).k2Check

/-- The pack path is told to take the hold-up bus; it is due until the bus sense confirms it (R226, R230). -/
def State.pathOn (s : State) : State := ({ s with kiln := { s.kiln with pathDue := true } }).packPathOn

/-- K0 and K1. A trigger that starts a kiln while `MAIN_IN` is good needs no pack path: K1 ends at once (R226). Otherwise the pack
path takes the hold-up bus and K1 waits for its confirmation (R230). -/
def State.startKiln (s : State) (trig mask : Nat) (p3 group : Bool) : State :=
  let s := (s.enterK0 trig mask p3 group).enterPhase 1
  if 3 ≤ trig ∧ s.power.mainGood then s.openK2 else s.pathOn

/-- The trigger arrives in the cycle of K0 (R223). -/
def State.sameCycle (s : State) : Bool := s.inKiln && s.kiln.hc0 == s.hc && s.kiln.pu0 == s.pu

/-- R223: a trigger that arrives in the cycle of K0 joins the one that started the kiln: the lowest code is recorded, every code in
the trigger mask; what the lowest asks for at K0 is done. -/
def State.joinTrigger (s : State) (trig : Nat) (group : Bool) : State :=
  let old := s.rd R.KLN_STAT_TRIGGER
  let low := min trig old
  let mask := s.kiln.trigMask ||| 2 ^ (trig - 1)
  let amend := fun (x : TEntry) =>
    if x.code = 0x0102 ∧ x.hc = s.kiln.hc0 ∧ x.pu = s.kiln.pu0 then
      { x with data := x.data % 256 + low * 256 + (if x.data % 256 = 0 then mask else x.data / 2048) * 2048 }
    else x
  let s := { s with kiln := { s.kiln with trigMask := mask, p3Consent := s.kiln.p3Consent && low == 3 },
                    recs := { s.recs with live := s.recs.live.map amend } }
  let s := (s.wr R.KLN_STAT_TRIGGER low).wr R.KLN_STAT_PLANNED (b2n (decide (3 ≤ low)))
  let s := s.cond (decide (low < old)) (fun s => s.groupMessage low group)
  s.cond (decide (low < 3) && decide (3 ≤ old)) State.pathOn

/-- A trigger arrives (R222, R223): a kiln while Ready or Primed; in the cycle of K0 it joins it; later it is counted; nothing
otherwise. -/
def State.fireTrigger (s : State) (trig : Nat) (p3 group : Bool) : State :=
  if s.kilnLive then s.startKiln trig (2 ^ (trig - 1)) p3 group
  else if s.sameCycle then s.joinTrigger trig group
  else s.cond s.inKiln (fun s => s.inc R.KLN_IGNORED)

/-! ### Freeze, shed, drain -/

/-- K3 complete: heat, pins and volatile ranges frozen, D_K3 and the capacity taken, triage where D_K3 exceeds it, K4 begins
(R231 steps 2 to 5). Copies whose map commit has not come are abandoned (R12). -/
def State.snapshotDone (s : State) : State :=
  let s := ({ s with dirty := { s.dirty with inflight := [] } }).showInflight
  let s := { s with kiln := { s.kiln with heatK3 := s.dirty.heat, pinsK3 := s.queues.pins, volK3 := s.dirty.vol,
                                          mapDirtyK3 := s.cellar.mapDirty,
                                          dK3 := s.rd R.DRT_DIRTY, capacity := s.zNow } }
  let s := s.wr R.KLN_REMAIN (s.kiln.dK3 - s.kiln.lost.card)
  let s := s.cond (decide (s.kiln.capacity < s.kiln.dK3) && !s.flag R.KLN_STAT_ROM) (fun s => s.wr R.KLN_STAT_TRIAGE 1)
  ((((s.flashAbandon).holdOffPages).enterPhase 4).hrOff).seqRequest 2

/-- A rank is a keep-region rank: it holds part of the keep region other than plain spare slots (R128). -/
def State.keepRank (s : State) (r : Nat) : Bool :=
  s.rd (R.DMC_CFG_RANK_MAP 0) != 0 ||
    (decide (s.rankOf (s.rd R.CAP_HOST) ≤ r) &&
      decide (r ≤ s.rankOf (s.rd R.CAP_DRAM - s.poolGranules + s.poolGranules / 512 - 1)))

/-- Dirty granules of rank `r`, used channel `c` that the kiln can still save: lost ones no longer count (R128, R237). -/
def State.rankLeft (s : State) (c r : Nat) : Nat :=
  s.rd (R.DRT_RANK_DIRTY (8 * c + r)) - (s.kiln.lost.toList.filter (fun g => s.rankIdx g == 8 * c + r)).length

/-- Shed the ranks that hold no dirty granule and are no keep-region ranks; the sequencer looks at the enables they name
(R128, R129, R233, R234). -/
def State.shedRanks (s : State) : State :=
  let s := s.each (s.chN * 8) (fun s i =>
    let c := i / 8
    let r := i % 8
    s.cond (decide (r < s.ranks) && !s.keepRank r && !s.dram.noShed.has (8 * c + r) && s.rankLeft c r == 0 && decide (s.rd (R.DMC_RANK_PWR (s.dmcOf c) r) < 2))
      (fun s => { s with dram := { s.dram with shedding := s.dram.shedding.insert1 i } }.wr (R.DMC_RANK_PWR (s.dmcOf c) r) 2))
  s.seqShedLook

/-- The ranks told to enter shed have acknowledged it by the next step of the kiln, 10 µs and more later (R129): the sequencer looks
at their enables. -/
def State.settleShed (s : State) : State :=
  if s.dram.shedding.isEmpty then s else ({ s with dram := { s.dram with shedding := [] } }).seqShedLook

/-- V_m: the drain rate in MB/s over the last 100 ms, or V during the first 100 ms (R238). -/
def State.drainRate (s : State) : Nat :=
  if s.usOf (s.puNow - s.kiln.k5Pu) < 100000 then s.kiln.v
  else
    match s.kiln.rateWin.getLast? with
    | none => 0
    | some o => (s.rd R.KLN_DRAINED - o.2) * 4096 / max 1 (s.usOf (s.puNow - o.1))

/-- A sample of the drain enters the window of 100 ms. -/
def State.sampleDrain (s : State) : State :=
  let win := (s.puNow, s.rd R.KLN_DRAINED) :: s.kiln.rateWin
  let young := win.filter (fun x => decide (s.usOf (s.puNow - x.1) ≤ 100000))
  { s with kiln := { s.kiln with rateWin := win.take (young.length + 1) } }

/-- The projection of R238: triage where the charge still needed, with its margin, exceeds the charge left. The ROM kiln never
triages (R253). -/
def State.project (s : State) : State :=
  let vm := s.drainRate
  let left := s.rd R.KLN_REMAIN
  let g := left + ceilDiv left 512
  let need := ceilDiv (s.rd R.PHS_CT_RATE_RATE * g * 4096) (max 1 vm * 1000000)
  let qleft := s.rd (R.PHS_CDL_TARGET 0) - s.rd R.PHS_CT_DRAWN
  let margin := min 50 (s.rd R.KLN_TRIAGE)
  s.cond (s.rd R.KLN_STAT_STATE == 13 && !s.flag R.KLN_STAT_ROM && decide (qleft * 100 < need * (100 + margin)))
    (fun s => s.wr R.KLN_STAT_TRIAGE 1)

/-- K4 complete: idle ranks shed, `CDL2` armed, K5 begins with a projection (R233, R229, R238). -/
def State.shedDone (s : State) : State :=
  let s := s.settleShed.shedRanks
  let s := (s.enterPhase 5).disarmCdl 1
  let s := { s with kiln := { s.kiln with m5 := s.rd R.PHS_CT_DRAWN, k5Pu := s.puNow } }
  let s := s.cond (s.flag (R.PHS_CDL_FIRED 0)) (fun s => s.cdlMark 0)
  let n := s.rd R.KLN_REMAIN
  let n5 := n + ceilDiv n 512
  let s := s.armKiln 2 (s.kiln.m5 + ceilDiv (5 * s.kiln.iK * n5 * 4096) (4 * max 1 s.kiln.v * 1000000))
  s.project

/-- R237: a granule that cannot be drained is recorded lost; it keeps its dirty bit and no longer counts as left. -/
def State.kilnLose (s : State) (g : Nat) : State :=
  if s.kiln.lost.has g then s
  else ({ s with kiln := { s.kiln with lost := s.kiln.lost.insert1 g } }.wr R.KLN_REMAIN (s.rd R.KLN_REMAIN - 1)).detect 41 0

/-- The rail of one DDR group fails during the drain: the unsaved granules on the ranks that its enable feeds are listed lost
(Table 08-11). -/
def State.loseRanks (s : State) (en : Nat) : State :=
  if s.inKiln ∧ s.kilnPhase ≤ 5 then
    let dead := (List.range (s.chN * 8)).filter (fun i => decide (i % 8 < s.ranks) && s.rd (R.DMC_SHED_EN (s.dmcOf (i / 8)) (i % 8)) == en)
    if dead.isEmpty then s
    else (s.dirty.bits.toList.filter (fun g => dead.contains (s.rankIdx g))).foldl State.kilnLose s
  else s

/-! ### Seal -/

/-- The runs of 2^k-aligned blocks that hold a member of `set`, clipped to `cap` (R244). -/
def coarsen (set : RSet) (k cap : Nat) : RSet :=
  set.foldl (fun acc v => RSet.add acc (v.1 / 2 ^ k * 2 ^ k) (min cap ((v.2 + 2 ^ k - 1) / 2 ^ k * 2 ^ k))) []

/-- The least k from 0 to 33 whose runs fit in 4,194,304 entries (R244). -/
def coarseK (set : RSet) (cap : Nat) : Nat :=
  ((List.range 34).find? (fun k => decide ((coarsen set k cap).length ≤ 4194304))).getD 33

/-- K5 ends: the granules still dirty are lost, `CDL3` is armed, K6 begins and the trouble log is frozen (R239, R240, R229,
R471). Reasons: 0 drained, 1 capacity, 2 abort floor, 3 rails lost. -/
def State.drainEnd (s : State) (reason : Nat) : State :=
  let s := { s with kiln := { s.kiln with stopReads := true, floored := s.kiln.floored || reason == 2 } }
  let s := s.cond (reason == 3) (fun s => s.detect 45 0)
  let s := { s with kiln := { s.kiln with lost := s.dirty.bits } }
  let s := s.cond (!s.kiln.lost.isEmpty) (fun s => s.detect 41 0)
  let s := (s.settleShed.shedRanks.settleShed.enterPhase 6).disarmCdl 2
  let s := { s with kiln := { s.kiln with m6 := s.rd R.PHS_CT_DRAWN } }
  let s := s.armKiln 3 (s.kiln.m6 + ceilDiv (2 * s.kiln.iK * 1240) 1000)
  let s := s.reportAll
  { s with kiln := { s.kiln with tlogSnap := s.recs.live } }


/-- The current learnt over K5 in ct/s, where K5 lasted 1 s or longer (R146, Table 08-8). -/
def State.learntRate (s : State) : Option Nat :=
  let us := s.usOf (s.kiln.markPu - s.kiln.k5Pu)
  if us < 1000000 then none else some ((s.kiln.m6 - s.kiln.m5) * 1000000 / us)

/-- Write sequence and position of the kiln's log as one chained log (Table 08-9, section 1). -/
def State.ownLog (s : State) : KilnLog :=
  { batch := s.rd R.KLN_BATCH, entries := s.kiln.log, groups := s.kiln.groups }

/-- The slot of the next kiln (R241). -/
def State.nextSlot (s : State) : Nat := s.rd R.KLN_STAT_NEXT_SLOT

/-- The cask that the kiln seals: header and sections (Tables 08-8 and 08-9). -/
def State.buildCask (s : State) : Cask :=
  let lost := s.kiln.lost
  let k := coarseK lost (s.rd R.CAP_HOST)
  let listed := coarsen lost k (s.rd R.CAP_HOST)
  let chain := s.cellar.chain ++ (if s.kiln.log.isEmpty then [] else [s.ownLog])
  { batch := s.rd R.KLN_BATCH,
    prevBatch := ((if s.nextSlot = 0 then s.cellar.slot1 else s.cellar.slot0).map (fun c => c.batch)).getD 0,
    endKind := if s.kiln.floored then 2 else 1,
    trigger := s.rd R.KLN_STAT_TRIGGER,
    flags := s.rd R.KLN_STAT_PLANNED + s.rd R.KLN_STAT_TRIAGE * 2 + s.rd R.KLN_STAT_ROM * 4 + b2n s.kiln.p3Consent * 8 +
      b2n s.kiln.duringSteep * 16 + b2n (s.kiln.merges != 0) * 32,
    coarseK := k, hcK0 := s.kiln.hc0, puK0 := s.kiln.pu0, opsec := s.opsec, pcycles := s.rd R.PHS_PCYCLES,
    dK3 := s.kiln.dK3, drained := s.rd R.KLN_DRAINED, lost := lost.card, listed := listed.card,
    ctUsed := s.kiln.m6 - s.kiln.m0, eK0 := s.kiln.e0, iLearn := s.learntRate.getD 0, vMbps := s.kiln.v, merges := s.kiln.merges,
    fwver := (List.range 6).map (fun i => s.rd (R.ID_FWVER i)),
    chain := chain,
    regionIndex := chain.foldl (fun (acc : RSet) (l : KilnLog) =>
      l.entries.foldl (fun (d : RSet) (e : LogEntry) => d.insert1 (e.granule / granulesPerRegion)) acc) [],
    lostList := listed, heat := s.kiln.heatK3, vol := s.kiln.volK3, pins := s.kiln.pinsK3,
    debt0 := s.racking.debt0, debt1 := s.racking.debt1,
    interrupted := (s.queues.list.map (fun c => c.intRec.toList)).flatten,
    retire := s.dram.retire, tlog := s.kiln.tlogSnap, bucket := ofField R.WTH_BUCKET.width (s.rd R.WTH_BUCKET),
    learnt := (s.learntRate.toList ++ s.budget.learnt).take 4, lifeDays := s.rd R.WTH_WEAR_CTRL_LIFE_DAYS, hostTime := s.hostNow,
    fnn := (s.fabric.remembered.map (fun n => n + 1)).getD 0,
    mapPages := s.cellar.map.keep (fun g => s.kiln.mapDirtyK3.has (g / granulesPerRegion)),
    mapRegions := s.kiln.mapDirtyK3,
    ms := 0, ct := 0, phaseUs := [], phaseCt := [] }

/-- The cask put into the slot of this kiln. -/
def State.putCask (s : State) (c : Cask) : State :=
  if s.nextSlot = 0 then { s with cellar := { s.cellar with slot0 := some c, slot0Erased := false } }
  else { s with cellar := { s.cellar with slot1 := some c, slot1Erased := false } }

/-- K7 sheds every rank that is left: the keep-region ranks (R234). -/
def State.shedAll (s : State) : State :=
  s.each (s.chN * 8) (fun s i =>
    let f := R.DMC_RANK_PWR (s.dmcOf (i / 8)) (i % 8)
    s.cond (decide (i % 8 < s.ranks) && decide (s.rd f < 2)) (fun s =>
      { s with dram := { s.dram with shedding := s.dram.shedding.insert1 i } }.wr f 2))

/-- K7 begins: the reverse power-down (Table 08-4, Table 14-7), with the keep-region ranks shed (R234). -/
def State.enterK7 (s : State) : State := (((s.enterPhase 7).shedAll).seqRequest 1).settleShed

/-- A used rail that is in Fault, by its enable. -/
def State.faultyRail (s : State) (p : Nat → Bool) : Bool :=
  (List.range 32).any (fun i => s.flag (R.SEQ_RAIL_CFG_USED i) && s.flag (R.SEQ_RAIL_CFG_KILN i) &&
    s.rd (R.SEQ_RAIL_MV_STATE i) == railFault && p (s.rd (R.SEQ_RAIL_CFG_EN i)))

/-- An enable feeds a rank that satisfies `p`: its rails are those of a DDR group. -/
def State.feedsRank (s : State) (p : Nat → Bool) (en : Nat) : Bool :=
  (List.range (s.chN * 8)).any (fun i => decide (i % 8 < s.ranks) && p (i % 8) &&
    s.rd (R.DMC_SHED_EN (s.dmcOf (i / 8)) (i % 8)) == en)

/-- A rail that the drain needs has failed: a kiln-critical one that is not a DDR group's (R252, assumption 197). -/
def State.drainRailLost (s : State) : Bool := s.faultyRail (fun en => !s.feedsRank (fun _ => true) en)

/-- A rail that the seal needs has failed: one of those, or a keep-region rank's (R252). -/
def State.sealRailLost (s : State) : Bool := s.drainRailLost || s.faultyRail (fun en => s.feedsRank s.keepRank en)

/-- The seal: `hdrA` and `hdrB` tell which headers read back, `rewritten` whether a manifest codeword was written again or a
section failed in one copy, `secLost` whether a section failed in both copies (R245); the rails that the seal needs must hold
(R252). The last log codeword of the stream is flushed with padding. The current of a K5 of 1 s or more is
learnt (R146). -/
def State.seal (s : State) (hdrA hdrB rewritten secLost : Bool) : State :=
  let ok := (hdrA || hdrB) && !secLost && !s.sealRailLost
  let s := s.cond (rewritten || (hdrA != hdrB)) (fun s => s.detect 42 0)
  if ok then
    let c := s.buildCask
    let s := s.putCask c
    let words := ceilDiv s.kiln.log.length 512
    let s := { s with cellar := { s.cellar with seq := s.cellar.seq + (words - s.kiln.logWords) },
                      kiln := { s.kiln with logWords := words } }
    let s := { s with cellar := { s.cellar with flushed := [],
                                                hostStored := if s.hostTime = 0 then s.cellar.hostStored else s.hostNow } }
    let s := { s with budget := { s.budget with learnt := c.learnt } }
    let s := s.cond s.kiln.floored (fun s => s.detect 40 0)
    let s := (s.inc R.KLN_COUNTS_SEALED).cond (s.flag R.KLN_STAT_TRIAGE) (fun s => s.inc R.KLN_COUNTS2_TRIAGED)
    ({ s with kiln := { s.kiln with sealed := true } }).enterK7
  else ({ s with kiln := { s.kiln with unsealed := true } }).enterK7

/-! ### Ready, Primed and cancelled -/

/-- The erased kiln-zone groups that count in Z, in the order in which the allocator takes them (R188). -/
def State.zGroups (s : State) : List Group :=
  (s.cellar.groups.filter s.inZ).mergeSort (fun g h => decide (g.erasedAt ≤ h.erasedAt))

/-- The first groups of a list that, with the channels in `have'`, give every channel of `want` a program target, or all. -/
def coverChans (want : List Nat) : List Nat → List Group → List Nat
  | _, [] => []
  | got, g :: t => if want.all (fun c => got.contains c) then []
    else g.id :: coverChans want (got ++ g.members.map (fun m => m.1)) t

/-- The groups that the allocator holds open: enough, in its order, that every usable channel has a program target (R188, R218). -/
def State.targets (s : State) : List Nat :=
  let mine := s.cellar.groups.filter (fun g => g.kilnUse && g.inZone .kiln && decide (g.st = .opened) && (s.badMembers g).isEmpty)
  coverChans s.liveChans (mine.flatMap (fun g => g.members.map (fun m => m.1))) s.zGroups

/-- Ready to Primed: the groups of the next kiln are opened, `KILN_SHED` is preloaded (Tables 08-1 and 08-2). -/
def State.prime (s : State) : State :=
  if s.rd R.KLN_STAT_STATE = 1 then
    { s with kiln := { s.kiln with goodFrom := s.hc, opened := s.targets, preload := true } }.wr R.KLN_STAT_STATE 2
  else s

/-- Back to Ready: the opened groups stay erased and counted in Z (Table 08-2). -/
def State.unprime (s : State) : State := { s with kiln := { s.kiln with opened := [], preload := false } }.wr R.KLN_STAT_STATE 1

/-- A calibration run begins with ADC0 (R489); a new band-gap value takes effect with it (R493). -/
def State.calBegin (s : State) : State :=
  let s := s.cond s.cal.bgNext.isSome (fun s => s.wr R.CAL_BG (s.cal.bgNext.getD 0))
  let s := { s with cal := { s.cal with deferred := false, startTemp := s.rd R.MON_TEMP_DIE_C, rejected := false, bgNext := none } }
  ((s.wr R.CAL_STAT_RUNNING 1).wr R.MON_STAT_CAL_ACTIVE 1).wr R.MON_STAT_CAL_ADC 0

/-- The kiln controller becomes Ready where Steep Ready has been reached and it is armed, and a deferred calibration may run; an
Early Warning or a `MAIN_IN` below `WARN_MV` that stands primes it (Table 08-2, R220, R495). -/
def State.toReady (s : State) : State :=
  if s.steepReady ∧ s.flag R.KLN_CTRL_ARM then
    ((s.unprime).cond s.cal.deferred State.calBegin).cond (s.flag R.PHS_STAT_EW || s.power.belowWarn) State.prime
  else s

/-- The CXL return code Retry Required (assumption 13). -/
def rcRetry : Nat := 5

/-- The kiln is cancelled: the pack path back to standby, the deadlines disarmed, the controller Ready; a Planned Kiln
that the kiln carried ends with Retry Required (R248, assumption 155). -/
def State.cancelKiln (s : State) : State :=
  let s := ((s.setPack 0 { s.packA with pathOn := false }).setPack 1 { s.packB with pathOn := false })
  let s := ((((s.disarmCdl 0).disarmCdl 1).disarmCdl 2).disarmCdl 3).inc R.KLN_COUNTS_CANCELLED
  let s := ((s.wr R.KLN_STAT_DEBOUNCE 0).wr R.KLN_STAT_STATE 0).toReady
  let s := s.each s.variant.ports (fun s p => s.cond ((s.host p).bg.any (fun b => b.opcode == 0xC010)) (fun s =>
    ((s.setHost p { s.host p with bg := none }).wr (R.HP_MBOX_BG p) 0).bgEnd p 0xC010 rcRetry []))
  ((s.wr R.KLN_STAT_TRIGGER 0).wr R.KLN_STAT_PLANNED 0).detect 47 0

end Sys2Proof.Machine
end

