-- ==== Sys2Proof/Machine/FaultOps.lean ====
section
/-!
DEFINITION. Machine/FaultOps.lean: the safety manager's hardware: what a latch does (R453, R455 to R458), when sources are
released (R454), the fault state (R460), the reason bits and `ERR_N` (R459), and the end of every command, where its collection
window closes.
-/

namespace Sys2Proof.Machine

open Sys2Proof

/-- Sources with a continuing state named by Tables 16-2 and 16-3 or by their chapter; every other source is an event source
(R454). -/
def condSrcs : List Nat :=
  [16, 17, 18, 22, 24, 25, 29, 36, 44, 57, 58, 62, 71, 72, 74, 83, 88, 103, 104, 111, 124, 133, 134, 139, 142, 143, 145, 146,
    147, 153, 157, 158, 159, 160, 183, 184, 185, 189, 195, 196, 197, 211, 218, 250]

/-- The source is sticky in its effective reaction. -/
def sticky (act : Nat) : Bool := act.testBit 3

/-- The source's latch bit is set on some page (R454). -/
def State.anyLatch (s : State) (src : Nat) : Bool := (List.range (srcInstances src)).any (fun i => s.latchedBit src i)

/-- The condition of an active source stands (R454). -/
def State.condStands (s : State) (a : ActiveSrc) : Bool :=
  (condSrcs.contains a.src && s.condAny a.src) || (sticky a.act && s.anyLatch a.src)

/-! ### Registers of the safety manager -/

/-- A 32-bit word of a set of sources. -/
def srcWord (l : List Nat) (w : Nat) : Nat :=
  (((List.range 32).filter (fun i => l.contains (32 * w + i))).map (fun i => 2 ^ i)).sum

/-- `ACTIVE_w`, `PENDING_w`, `STAT` and `HIST` (Table 16-9). -/
def State.showSafe (s : State) : State :=
  let act := s.safe.active.map (fun a => a.src)
  let pend := s.safe.pend.map (fun p => p.1)
  let s := s.each 8 (fun s w => (s.wr (R.SAF_ACTIVE w) (srcWord act w)).wr (R.SAF_PENDING w) (srcWord pend w))
  let s := (s.wr R.SAF_STAT_ACTIVE (min 255 act.length)).wr R.SAF_STAT_DEPTH s.safe.stack.length
  let s := s.wr R.SAF_STAT_RUNNING ((s.safe.stack.head?.map (fun r => r.1)).getD 0)
  let s := (s.wr R.SAF_STAT_FIRST_VALID (b2n s.safe.first.isSome)).wr R.SAF_HIST_COUNT s.safe.hist.length
  s.wr R.SAF_HIST_FROZEN (b2n (decide (16 ≤ s.safe.hist.length)))

/-! ### Reason bits -/

/-- The reasons that the active sources hold, and the lowest source that holds one (Table 03-7). -/
def State.holdReasons (s : State) : State :=
  let png := (s.safe.active.filter (fun a => a.act.testBit 1)).map (fun a => a.src)
  let par := (s.safe.active.filter (fun a => a.act.testBit 0)).map (fun a => a.src)
  let all := png ++ par
  let src := all.foldl min (all.headD 0)
  let want := (b2n (!png.isEmpty), b2n (!par.isEmpty), src)
  if want = (s.rd R.PST_STATE_PNG_DIAG, s.rd R.PST_STATE_PAR_MARGIN, s.rd R.PST_STATE_DIAG_SRC) then s
  else s.pstUpdate (fun s =>
    ((s.wr R.PST_STATE_PNG_DIAG want.1).wr R.PST_STATE_PAR_MARGIN want.2.1).wr R.PST_STATE_DIAG_SRC want.2.2)

/-! ### ERR_N (R459) -/

/-- A page's `FLT_STAT` holds a bit whose source is unmasked and of effective severity SV2 or SV3. -/
def State.pageErr (s : State) (page : Nat) : Bool :=
  match pageFirstSrc page with
  | none => false
  | some (f, l) =>
    (List.range (l + 1 - f)).any (fun b =>
      s.bit (R.FLT_STAT page) b && !s.bit (R.FLT_MASK page) b && decide (2 ≤ s.effSev (f + b) (page - srcPage f 0)))

/-- The level `ERR_N` is driven to: true for low. Only pages with a latch set are looked at. -/
def State.errnLow (s : State) : Bool :=
  s.power.life != .off && s.power.life != .dormant &&
    (s.safe.errnTest != 0 || s.safe.errnStart || s.flag R.SNT_FAILS_RECOVERY ||
      s.regs.any (fun e => keyOff e.1 == 0x010 && s.pageErr (keyPage e.1)))

/-- `ERR_N` follows; a change asks for a state summary (R459, R338). -/
def State.driveErrn (s : State) : State :=
  let low := b2n s.errnLow
  if s.rd R.SAF_STAT_ERRN_DRIVE = low then s
  else { s.wr R.SAF_STAT_ERRN_DRIVE low with fabric := { s.fabric with stateDue := true, changes := s.fabric.changes + 1 } }

/-! ### One latch -/

/-- First error and history (R457). -/
def State.enterHist (s : State) (e : HistEntry) : State :=
  let first := s.safe.first.isNone && decide (2 ≤ e.sev) && !e.injected
  if s.safe.first.isNone ∧ first = false then s
  else if 16 ≤ s.safe.hist.length then s.inc R.SAF_HIST_LOST
  else { s with safe := { s.safe with first := if first then some e else s.safe.first, hist := s.safe.hist ++ [e] } }

/-- An injected detection (R461): `INJ_SEEN`, the trouble log, the history once a first error stands; the `FLT_FORCE` bit
clears. Nothing else follows. -/
def State.injSeen (s : State) (src inst : Nat) : State :=
  let page := srcPage src inst
  let msk := s.masked src inst
  let sev := s.effSev src inst
  let s := { s with safe := { s.safe with injWait := s.safe.injWait.filter (fun w => w != (src, inst)) } }
  let s := (s.setBit (R.SAF_INJ_SEEN (src / 32)) (src % 32) true).setBit (R.FLT_FORCE page) (srcBit src) false
  let s := s.enterHist { src := src, sev := sev, inst := inst, injected := true, masked := msk, preempt := false,
                         order := s.safe.order % 256, opsec := s.opsec, pu := s.pu, hc := s.hc }
  s.appendTlog true { s.stamp src (s.rd (R.FLT_STAT page)) with sev := sev, injected := true, masked := msk, inst := inst }

/-- An injection of this source waits for its detector. -/
def State.injWaits (s : State) (src inst : Nat) : Bool := s.safe.injWait.contains (src, inst)

/-- The source becomes or stays active with the severity and actions of this latch (R454). -/
def activate (l : List ActiveSrc) (src sev act inst : Nat) : List ActiveSrc :=
  if l.any (fun a => a.src == src) then
    l.map (fun (a : ActiveSrc) =>
      if a.src = src then { a with sev := max a.sev sev, act := a.act ||| act, insts := inst :: a.insts.filter (· != inst) }
      else a)
  else l ++ [{ src := src, sev := sev, act := act, insts := [inst] }]

/-- Whether a latch of this severity would pre-empt the running reaction (R458). -/
def State.preempts (s : State) (sev : Nat) : Bool :=
  match s.safe.stack with
  | [] => false
  | (_, r) :: _ => decide (r < sev)

/-- Dispatch the firmware part of a reaction: it runs, pre-empts, waits, or is merged with one that runs or waits (R458).
While SAFETY does not run, it waits (R453). -/
def State.dispatch (s : State) (src sev : Nat) : State :=
  let st := s.safe.stack
  let toPend := fun (s : State) => { s with safe := { s.safe with pend := s.safe.pend ++ [(src, sev)] } }
  if st.any (fun r => r.1 == src) ∨ s.safe.pend.any (fun r => r.1 == src) then s
  else if !s.runs .safety then toPend s
  else if st.isEmpty then { s with safe := { s.safe with stack := [(src, sev)] } }
  else if s.preempts sev then
    if st.length < 4 then
      ({ s with safe := { s.safe with stack := (src, sev) :: st } }).inc R.SAF_NEST_PREEMPTS
    else
      let s := (toPend s).inc R.SAF_NEST_OVF
      if s.safe.ovfLatched then s
      else ({ s with safe := { s.safe with ovfLatched := true } }).detect 190 0
  else toPend s

/-- The planned-kiln action of a latch: trigger 6 while the controller is Ready or Primed and none was issued in the last
86,400 operating seconds; otherwise it is suppressed (R455). From K0 to the next start it is a trigger ignored (R463). -/
def State.kilnAction (s : State) (src : Nat) : State :=
  let last := s.rd R.SAF_KILN_LAST
  if s.kiln.since then s.inc R.KLN_IGNORED
  else if s.kilnLive ∧ (s.rd R.SAF_KILN_ISSUED = 0 ∨ last + 86400 ≤ s.opsec) then
    ((s.inc R.SAF_KILN_ISSUED).wr R.SAF_KILN_LAST s.opsec).fireTrigger 6 false false
  else (s.inc R.SAF_KILN_SUPPRESSED).cond (src != 192) (fun s => s.detect 192 0)

/-- F183 or F184 a second time within 1 h latches F189 (Table 16-2). -/
def State.repeatedFail (s : State) (src : Nat) : State :=
  if src = 183 ∨ src = 184 then
    let last := s.safe.lastSafetyFail
    let s := { s with safe := { s.safe with lastSafetyFail := s.opsec + 1 } }
    s.cond (last != 0 && decide (s.opsec + 1 ≤ last + 3600)) (fun s => s.setCond 189 0 true)
  else s

/-- The hardware steps of one latch (Table 16-4) and the dispatch of its firmware part. Sources that no fault bit table names
and pages that the variant lacks never latch (R448, R62), but the clock fault of domain 21, which every variant has: where `GAU`
is absent it has its reaction without a page that shows it (R21, assumption 188). -/
def State.latch (s : State) (src inst : Nat) : State :=
  let page := srcPage src inst
  if namedSources.contains src ∧ (pagePresent s.variant page ∨ src = 142) then
    let sev := s.effSev src inst
    let act := s.effAct src inst
    let msk := s.masked src inst
    let s := (s.setBit (R.FLT_STAT page) (srcBit src) true).inc (R.EVT_CNT page)
    let pre := s.runs .safety && s.preempts sev && decide (s.safe.stack.length < 4) &&
      !s.safe.stack.any (fun r => r.1 == src) && !s.safe.pend.any (fun r => r.1 == src)
    let e : HistEntry := { src := src, sev := sev, inst := inst, injected := false, masked := msk, preempt := pre,
                           order := s.safe.order % 256, opsec := s.opsec, pu := s.pu, hc := s.hc }
    let r : Report := { src := src, inst := inst, sev := sev, masked := msk, kiln := act.testBit 2,
                        data := s.rd (R.FLT_STAT page), opsec := s.opsec, hc := s.hc, pu := s.pu }
    let s := s.enterHist e
    let s := { s with safe := { s.safe with order := s.safe.order + 1, active := activate s.safe.active src sev act inst,
                                            reports := s.safe.reports ++ [r] } }
    let s := s.cond (decide (2 ≤ sev)) (fun s => ((s.wr R.SAF_STAT_STATE 1).wr R.SAF_QUIET_LEFT 0).restExit)
    let s := s.cond (decide (183 ≤ src) && decide (src ≤ 189) && s.rd R.UPD_STAT_STATE == 5) (fun s =>
      { s with update := { s.update with trigger := true } })
    let s := (s.repeatedFail src).cond (act.testBit 2) (fun s => s.kilnAction src)
    s.dispatch src sev
  else s

/-! ### The collection window -/

/-- Order of a latch in its window: descending severity, then source, then instance (R456). -/
def State.latchKey (s : State) (d : Nat × Nat) : Nat := ((3 - min 3 (s.effSev d.1 d.2)) * 256 + d.1) * 64 + d.2

/-- Insert a detection in its place. -/
def State.insertLatch (s : State) (d : Nat × Nat) : List (Nat × Nat) → List (Nat × Nat)
  | [] => [d]
  | e :: t => if s.latchKey d < s.latchKey e then d :: e :: t else if d = e then e :: t else e :: s.insertLatch d t

/-- The window closes: its detections latch in order; those that a latch itself adds come in the next window. -/
def State.closeWindow (s : State) : State :=
  let w := s.safe.todo.foldl (fun l d => s.insertLatch d l) []
  w.foldl (fun s d => s.latch d.1 d.2) { s with safe := { s.safe with todo := [] } }

/-- SV0 and SV1 sources whose continuing state has ended are released (R454). -/
def State.releaseEnded (s : State) : State :=
  { s with safe := { s.safe with active := s.safe.active.filter (fun a =>
      !(decide (a.sev < 2) && (condSrcs.contains a.src || sticky a.act) && !s.condStands a)) } }

/-- Fault and Quiet follow the conditions (Table 16-7). From K0 to the next start the fault state has no exit. -/
def State.faultState (s : State) : State :=
  let stands := s.safe.active.any (fun a => decide (2 ≤ a.sev) && s.condStands a)
  if s.rd R.SAF_STAT_STATE = 1 ∧ stands = false ∧ s.kiln.since = false then
    (s.wr R.SAF_STAT_STATE 2).wr R.SAF_QUIET_LEFT (clampTo 1 3600 (s.rd R.SAF_CTRL_QUIET_S))
  else if s.rd R.SAF_STAT_STATE = 2 ∧ stands then (s.wr R.SAF_STAT_STATE 1).wr R.SAF_QUIET_LEFT 0
  else s

/-- The pending reaction that comes first (R456). -/
def firstPending : List (Nat × Nat) → Option (Nat × Nat)
  | [] => none
  | p :: t =>
    match firstPending t with
    | none => some p
    | some q => if p.2 < q.2 || (p.2 == q.2 && decide (q.1 < p.1)) then some q else some p

/-- A pending reaction starts where none runs, or above a running one of lower severity that has come back to the front
(R458). -/
def State.runPending (s : State) : State :=
  match firstPending s.safe.pend with
  | none => s
  | some p =>
    if s.runs .safety ∧ (s.safe.stack.isEmpty ∨ (s.preempts p.2 ∧ s.safe.stack.length < 4)) then
      ({ s with safe := { s.safe with stack := p :: s.safe.stack, pend := s.safe.pend.filter (fun q => q != p) } }).cond
        (!s.safe.stack.isEmpty) (fun s => s.inc R.SAF_NEST_PREEMPTS)
    else s

/-- Windows close until none is left; what the active sources call for follows. -/
def State.settle (s : State) : Nat → State
  | 0 => s
  | n + 1 =>
    if s.update.trigger then s.fallback.settle n
    else if s.safe.todo.isEmpty then
      let s := ((((s.releaseEnded).faultState).holdReasons).runPending).showSafe
      if s.safe.todo.isEmpty then s.driveErrn else s.settle n
    else s.closeWindow.settle n

/-- The end of every command: its collection windows close (R453). -/
def finish (s : State) : State := s.settle 16

end Sys2Proof.Machine
end

