-- ==== Sys2Proof/Machine/PackOps.lean ====
section
/-!
DEFINITION. Machine/PackOps.lean: the event service's slots (R49), pack states and `UNCOUNT` reasons (R375, R379), the gauge's
energy and state of charge (R387, R388), rest windows (R383), tests (R390 to R392) and the charger (R394).
-/

namespace Sys2Proof.Machine

open Sys2Proof

/-! ### The event service -/

/-- Post an event in a slot (R49). -/
def State.post (s : State) (slot : Nat) (e : SchedSlot) : State :=
  { s with track := { s.track with sched := s.track.sched.filter (fun x => x.1 != slot) ++ [(slot, e)] } }

/-- The half-cycle rate now, in half-cycles per 1,000 s: 100,000 on the pseudo-mains (R39), else twice the frequency. -/
def State.hcRate (s : State) : Nat := if s.flag R.PHS_STAT_SRC then 100000 else 2 * s.rd R.PHS_FREQ

/-- A period in seconds as hc (R49). -/
def State.hcOf (s : State) (seconds : Nat) : Nat := seconds * s.hcRate / 1000

/-- `STEP` of a channel's patrol; 0 where it is off. -/
def State.patrolStep (s : State) (c : Nat) : Nat :=
  let h := min 168 (s.rd (R.DMC_PATROL_HOURS c))
  if h = 0 then 0 else min 1657 (ceilDiv (s.rd (R.DMC_GRAN c)) (max 1 (s.hcOf (h * 3600))))

/-- `STEP` recomputed on every channel (R49, R118). -/
def State.showSteps (s : State) : State := s.each s.variant.dmcs (fun s c => s.wr (R.DMC_PATROL_STEP c) (s.patrolStep c))

/-! ### Packs -/

/-- Pack states (Table 13-9). -/
def pkAbsent : Nat := 0
def pkIdent : Nat := 1
def pkAuth : Nat := 2
def pkCounted : Nat := 3
def pkUncounted : Nat := 4

/-- Pack ports that a variant has in full (R396). -/
def State.packs (s : State) : List Nat := if s.variant.gauge then [0, 1] else []

/-- Cells of the fitted pack. -/
def State.cells (s : State) (p : Nat) : Nat := if s.flag (R.PK_CFG_CELLS4 p) then 4 else 3

/-- Rated capacity in ct: 1 mAh is 3.6 C, 360 ct. -/
def State.ratedCt (s : State) (p : Nat) : Nat := 360 * s.rd (R.PK_CFG_RATED_MAH p)

/-- `FLOOR_PCT` as treated. -/
def State.floorPct (s : State) : Nat := clampTo 5 40 (s.rd R.GAU_CTRL_FLOOR_PCT)

/-- `REST_MIN` as treated. -/
def State.restMin (s : State) : Nat := clampTo 10 240 (s.rd R.GAU_CTRL_REST_MIN)

/-- Q_floor (R387). -/
def State.qFloor (s : State) (p : Nat) : Nat := ceilDiv (s.rd (R.PK_CAP p) * s.floorPct) 100

/-- Q_best (R384, R393). -/
def State.qBest (s : State) (p : Nat) : Nat :=
  if (s.pack p).implausible then s.rd (R.PK_Q_VHI p) else min (s.rd (R.PK_Q_CC p)) (s.rd (R.PK_Q_VHI p))

/-- E_p, SOC and the sums over the Counted packs (R387, R388, Table 13-7). -/
def State.gaugeShow (s : State) : State :=
  if s.variant.gauge then
    let s := s.each 2 (fun s p =>
      let cap := s.rd (R.PK_CAP p)
      let use := s.qBest p - s.rd (R.PK_UNC p) - (s.pack p).rampLeft - s.qFloor p
      let counted := s.rd (R.PK_STAT_STATE p) == pkCounted && (s.pack p).swDone
      let e := if counted then use * s.rd (R.PK_E_K_T p) / 100 else 0
      let s := s.wr (R.PK_E_CT p) (min e 0xFFFFFF)
      let s := s.wr (R.PK_SOC_RAW p) (if cap = 0 then 0 else min 10000 (s.rd (R.PK_Q_CC p) * 10000 / cap))
      s.wr (R.PK_SOC_REPORTED p) (min 10000 (use * 10000 / max 1 (cap - s.qFloor p))))
    let cs := [0, 1].filter (fun p => s.rd (R.PK_STAT_STATE p) == pkCounted)
    let num := (cs.map (fun p => s.qBest p - s.rd (R.PK_UNC p) - (s.pack p).rampLeft - s.qFloor p)).sum
    let den := (cs.map (fun p => s.rd (R.PK_CAP p) - s.qFloor p)).sum
    let e := min 0xFFFFFF (s.rd (R.PK_E_CT 0) + s.rd (R.PK_E_CT 1))
    let s := (s.wr R.GAU_E e).wr R.GAU_SOC (min 10000 (num * 10000 / max 1 den))
    let s := s.wr R.GAU_UNC (min 0xFFFFFF (s.rd (R.PK_UNC 0) + s.rd (R.PK_UNC 1)))
    let present := [0, 1].any (fun p => decide (3 ≤ s.rd (R.PK_STAT_STATE p)))
    s.cond (e == 0 && present && !s.bit (R.FLT_STAT 0x0A8) 3) (fun s => s.detect 141 0)
  else s

/-- The pack counts only because of the override (R379). -/
def State.overrideForce (s : State) (p : Nat) : Bool :=
  s.flag (R.PK_AUTH_OVERRIDE p) && decide (3 ≤ s.rd (R.PK_STAT_STATE p)) && !(s.pack p).authOk

/-- An identified pack is Counted while no `UNCOUNT` bit is set, else Uncounted; bit 0 stands while it is neither
authenticated nor overridden (Table 13-3, R379). E follows. -/
def State.packJudge (s : State) (p : Nat) : State :=
  if 3 ≤ s.rd (R.PK_STAT_STATE p) then
    let s := s.setBit (R.PK_STAT_UNCOUNT p) 0 (!(s.pack p).authOk && !s.flag (R.PK_AUTH_OVERRIDE p))
    let s := s.wr (R.PK_STAT_STATE p) (if s.rd (R.PK_STAT_UNCOUNT p) = 0 then pkCounted else pkUncounted)
    (s.cond (s.overrideForce p || s.condAny 145) (fun s => s.setCond 145 p (s.overrideForce p))).gaugeShow
  else s.gaugeShow

/-- An `UNCOUNT` bit set or cleared. -/
def State.uncount (s : State) (p b : Nat) (on : Bool) : State := (s.setBit (R.PK_STAT_UNCOUNT p) b on).packJudge p

/-! ### The charger (R394) -/

/-- The fitted chemistry as treated: 0 none, 1 LFP, 2 NMC (Table 13-9). -/
def State.chem (s : State) (p : Nat) : Nat := s.rd (R.PK_CFG_CHEM p) % 3

/-- A cell of the pack is at its over-voltage limit (Table 13-1). -/
def State.cellHigh (s : State) (p : Nat) : Bool :=
  (List.range 4).any (fun c => decide ((if s.chem p = 2 then 4200 else 3650) ≤ s.rd (R.PK_CELL p c)))

/-- Whether charging is called for. -/
def State.chargeWant (s : State) (p : Nat) : Bool :=
  let raw := s.rd (R.PK_SOC_RAW p)
  let tgt := clampTo 50 100 (s.rd (R.PK_CHG_CTRL_TARGET_PCT p)) * 100
  let cool := fun (v : Nat) => decide (v < 128) && decide (v ≤ 45)
  s.flag (R.PK_CHG_CTRL_CHG_EN p) && !(s.pack p).chgLatched && decide (3 ≤ s.rd (R.PK_STAT_STATE p)) &&
    !s.bit (R.PK_STAT_UNCOUNT p) 4 && (decide (raw + 200 ≤ tgt) || (s.flag (R.PK_STAT_CHARGING p) && decide (raw < tgt))) &&
    cool (s.rd (R.PK_TEMP_NTC0 p)) && cool (s.rd (R.PK_TEMP_NTC1 p)) && !s.inKiln && !s.flag R.GAU_REST_WINDOW &&
    s.packA.test != 3 && s.packB.test != 3 && decide ((s.pack p).restUntil ≤ s.opsec) && !s.cellHigh p

/-- Slot of the event service that changes a port's charger (Table 02-2). -/
def chgSlot (p : Nat) : Nat := 60 + p

/-- The owner number of the gauge in the event service (DESIGN CHOICE, assumption 11). -/
def ownGauge : Nat := 4

/-- The voltage setpoint of an identified pack: its cells times the charge voltage of the chemistry (R394). -/
def State.vset (s : State) (p : Nat) : Nat :=
  if s.rd (R.PK_STAT_STATE p) < 2 ∨ s.bit (R.PK_STAT_UNCOUNT p) 4 then s.rd (R.PK_TRIM2_VSET_MV p)
  else s.cells p * (if s.chem p = 2 then 4150 else 3600)

/-- Whether pu lies in the phase window of work that disturbs the sense inputs (R50). -/
def State.inWindow (s : State) : Bool := decide (384 ≤ s.pu) && decide (s.pu ≤ 639)

/-- A charger change, of its enable or of its voltage setpoint, is posted for pu 384 of the next hc (Table 02-2). -/
def State.chargeCheck (s : State) (p : Nat) : State :=
  if (s.chargeWant p = s.flag (R.PK_STAT_CHARGING p) ∧ s.vset p = s.rd (R.PK_TRIM2_VSET_MV p)) ∨
      s.track.sched.any (fun x => x.1 == chgSlot p) then s
  else s.post (chgSlot p) { owner := ownGauge, hc := s.hc + 1, pu := 384, period := 0, seconds := 0 }

/-- The charger's outputs follow what is called for, in the phase window (R394). -/
def State.chargerSet (s : State) (p : Nat) : State :=
  let s := s.wr (R.PK_STAT_CHARGING p) (b2n (s.chargeWant p && !(s.pack p).chgStop))
  (s.wr (R.PK_TRIM2_VSET_MV p) (s.vset p)).setPack p { s.pack p with chgStop := false }

/-- `DISAGREE.ACTIVE`: a pack is in disagreement (R384). -/
def State.showDisagree (s : State) : State := s.wr R.GAU_DISAGREE_ACTIVE (b2n (s.packA.disagree || s.packB.disagree))

/-- The charger off at once: its supply goes. -/
def State.chargeOff (s : State) (p : Nat) : State := s.wr (R.PK_STAT_CHARGING p) 0

/-- The charger is switched off in the phase window: now where pu lies in it, else at pu 384 of this hc or, after the window, of
the next one (R50, R394). -/
def State.chargeStop (s : State) (p : Nat) : State :=
  if s.flag (R.PK_STAT_CHARGING p) = false then s
  else if s.inWindow then s.chargeOff p
  else
    (s.setPack p { s.pack p with chgStop := true }).post (chgSlot p)
      { owner := ownGauge, hc := if s.pu < 384 then s.hc else s.hc + 1, pu := 384, period := 0, seconds := 0 }

/-! ### Rest windows and tests -/

/-- A fresh challenge goes to the pack's responder: 16 bytes from the random-bit generator (R378). -/
def State.sendChallenge (s : State) (p : Nat) : State :=
  let a := s.takeFree 64
  let b := a.2.takeFree 64
  let n := a.1 + b.1 * 2 ^ 64
  let s := b.2
  ((s.setPack p { s.pack p with challenge := some n, authDeferred := false }).wr (R.PK_AUTH_STATE p) 3).send (.packWrite p n)

/-- An authentication begins; while a kiln runs or a rest window is open it is deferred to the end of either (Table 13-6). -/
def State.startAuth (s : State) (p : Nat) (daily : Bool) : State :=
  if s.inKiln ∨ s.flag R.GAU_REST_WINDOW then s.setPack p { s.pack p with authDeferred := true, daily := daily }
  else (s.setPack p { s.pack p with attempts := 0, daily := daily }).sendChallenge p

/-- Authentications that were deferred begin. -/
def State.authDue (s : State) : State :=
  s.packs.foldl (fun s p => s.cond ((s.pack p).authDeferred && decide (2 ≤ s.rd (R.PK_STAT_STATE p))) (fun s =>
    s.startAuth p (s.pack p).daily)) s

/-- A rest window ends (R383, Table 13-6); a deferred authentication is due again. -/
def State.endRest (s : State) : State := (s.wr R.GAU_REST_WINDOW 0).authDue

/-- No test starts and no rest window opens while the controller is Primed or a kiln runs (R392). -/
def State.testBar (s : State) : Bool := s.rd R.KLN_STAT_STATE == 2 || s.inKiln

/-- The interval in force for one that the voltage curve gives: LFP's curve tells nothing between 15 % and 95 % of CAP (R381). -/
def State.curve (s : State) (p lo hi : Nat) : Nat × Nat :=
  let cap := s.rd (R.PK_CAP p)
  if s.chem p = 1 ∧ cap * 15 ≤ lo * 100 ∧ hi * 100 ≤ cap * 95 then (cap * 15 / 100, cap * 95 / 100) else (lo, hi)

/-- A correction that moves Q_best - U: a raise above 0.5 % of CAP enters over 60 s, 600,000 conversion frames; anything else
at once (R388). -/
def State.ramp (s : State) (p before : Nat) : State :=
  let now := s.qBest p - s.rd (R.PK_UNC p)
  if s.rd (R.PK_CAP p) < 200 * (now - before) then
    s.setPack p { s.pack p with rampLeft := now - before, rampFrames := 600000 }
  else s.setPack p { s.pack p with rampLeft := 0, rampFrames := 0 }

/-- The adjustment of a pack's charge for the unpowered interval of a warm start: 0.1 % of CAP per 30 days lower, the uncertainty
as much higher; a new interval applies the difference (R386). -/
def State.ageGauge (s : State) (p : Nat) : State :=
  if s.power.warm ∧ 3 ≤ s.rd (R.PK_STAT_STATE p) then
    let adj := s.rd (R.PK_CAP p) * s.rd R.CEL_UNPOW_S / 2592000000
    let old := (s.pack p).unpowAdj
    let before := s.qBest p - s.rd (R.PK_UNC p)
    let s := s.wr (R.PK_Q_CC p) (min (s.rd (R.PK_CAP p)) (s.rd (R.PK_Q_CC p) + old - adj))
    let s := (s.wr (R.PK_UNC p) (s.rd (R.PK_UNC p) + adj - old)).setPack p { s.pack p with unpowAdj := adj }
    s.ramp p before
  else s

/-- A pack is reported for replacement (R395). -/
def State.replacePack (s : State) (p : Nat) : State :=
  if s.flag (R.PK_STAT_REPLACE p) then s else ((s.wr (R.PK_STAT_REPLACE p) 1).detect 152 p).healthNote

/-- Every hour: `REST.HOURS`, the longest time since a rest correction of a fitted pack, and packs that have been of high impedance
for 24 h (R395, Table 13-7). -/
def State.packHours (s : State) : State :=
  let s := s.packs.foldl (fun s p => s.cond ((s.pack p).highZAt != 0 && decide ((s.pack p).highZAt + 86399 ≤ s.opsec)) (fun s =>
    s.replacePack p)) s
  let hs := (s.packs.filter (fun p => decide (3 ≤ s.rd (R.PK_STAT_STATE p)))).map (fun p =>
    max ((s.opsec - (s.pack p).restAt) / 3600) (if (s.pack p).relearn then 72 else 0))
  s.wr R.GAU_REST_HOURS (min 65535 (hs.foldl max 0))

/-- The learnt entry of a serial. -/
def State.learntOf (s : State) (serial : Nat) : Option Learnt := s.learnt.find? (fun l => l.serial == serial)

/-- Learnt data of the pack on a port stored: the four serials seen last, newest first (R377). -/
def State.storeLearnt (s : State) (p : Nat) : State :=
  let n := s.rd (R.PK_SERIAL p)
  let l : Learnt := { serial := n, cap := s.rd (R.PK_CAP p), base := s.rd (R.PK_RES_BASE p), lastQ := s.rd (R.PK_Q_CC p) }
  { s with learnt := (l :: s.learnt.filter (fun x => x.serial != n)).take 4 }

/-- No gauge path is implausible any more: the charge clock leaves its estimate at the next conversion (R45). -/
def State.estCease (s : State) : State :=
  s.cond (s.flag R.PHS_STAT_CT_EST && !s.packA.implausible && !s.packB.implausible) (fun s =>
    { s with track := { s.track with estEnds := true } })

/-- A pack leaves its port: Absent, E_p gone, learnt data stored, override cleared (R375, R376, R379). -/
def State.removePack (s : State) (p : Nat) : State :=
  let had := s.rd (R.PK_STAT_STATE p)
  let s := s.cond (decide (3 ≤ had)) (fun s => s.storeLearnt p)
  let s := ((s.dropTest p).setPack p { restAt := s.opsec, removed := true }).showDisagree.estCease
  let s := (((s.wr (R.PK_STAT_STATE p) pkAbsent).wr (R.PK_STAT_UNCOUNT p) 0).wr (R.PK_AUTH_OVERRIDE p) 0).wr (R.PK_AUTH_STATE p) 0
  let s := (((s.chargeStop p).wr (R.PK_STAT_AT_REST p) 0).wr (R.PK_AUTH_RUN p) 0).wr (R.PK_Q_VHI p) 0
  let s := s.cond (s.condAny 145) (fun s => s.setCond 145 p false)
  let s := s.cond (s.condAny 146) (fun s => s.setCond 146 p false)
  s.cond (s.condAny 147) (fun s => s.setCond 147 p false)

end Sys2Proof.Machine
end

