-- ==== Sys2Proof/Machine/PowerOps.lean ====
section
/-!
DEFINITION. Machine/PowerOps.lean: the reset of a start (R441, R443), boot steps (R435 to R439), the steep's load ST1 (R257 to
R264, Table 09-3), Steep Ready, failed starts, wakes, P3 and P4, and the rest states (R427 to R434).
-/

namespace Sys2Proof.Machine

open Sys2Proof

/-! ### Starts -/

/-- The recorder image that a start loads: valid, with the higher `FLUSH_SEQ` (R477). -/
def Records.newest (r : Records) : Option RecImage :=
  match r.copyA.filter (fun i => i.valid), r.copyB.filter (fun i => i.valid) with
  | some a, some b => if a.flushSeq < b.flushSeq then some b else some a
  | some a, none => some a
  | none, some b => some b
  | none, none => none

/-- The sequencer at the reset of a start: `DORMANT_ENTER` runs on where it has not ended (Table 14-7). -/
def Seq.reset (q : Seq) : Seq :=
  let due := q.due.filter (fun k => k == 6)
  if q.prog = some 6 then
    { q with staged := q.store, due := due, ended := none, runs := [], forcedOff := false, collapsed := false }
  else
    { store := q.store, staged := q.store, stored := q.stored, press := q.press, held4 := q.held4, railCopy := q.railCopy,
      railA := q.railA, railB := q.railB, due := due }

/-- What a start clears (Table 15-7): page fields that are not kept, restored or found return to their reset values, on-die
state is gone; flash, code flash, what the Sentinel and the records zone hold stay. -/
def State.startReset (s : State) : State :=
  let s := s.flashAbandon.restoreSettings
  let t : State := {
    variant := s.variant, regs := s.regs.keep survives,
    maint := { strap := s.maint.strap },
    safe := { react := if s.safe.reactCopies = 1 then s.safe.react else [], reactCopies := s.safe.reactCopies,
              errnStart := s.safe.errnStart, lastSafetyFail := s.safe.lastSafetyFail },
    recs := { slots := (s.recs.newest.map (fun i => i.slots)).getD [], copyA := s.recs.copyA, copyB := s.recs.copyB,
              snap := s.recs.snap, snapBatch := s.recs.snapBatch },
    hostA := { poison := s.hostA.poison, perstN := s.hostA.perstN },
    hostB := { poison := s.hostB.poison, perstN := s.hostB.perstN },
    dram := { s.dram with mem := [], poison := [], retiring := [], retireAfter := [], waiting := [], shedding := [], errs := [],
                          noShed := [], sparingLeft := 0,
                          sparingAll := 0 },
    dirty := { heat := s.dirty.heat, vol := s.dirty.vol },
    budget := { learnt := s.budget.learnt, level := s.budget.level, cursor := s.budget.cursor },
    cellar := { s.cellar with map := [], loaded := [], mapDirty := [], chain := [], corrupt := [] },
    queues := { list := s.queues.list.map (fun (c : Queue) => { q := c.q, intRec := c.intRec, postDue := c.intRec.isSome,
                                                                via := c.via }), pins := s.queues.pins },
    fabric := { remembered := s.fabric.remembered, lastWake := s.fabric.lastWake },
    racking := { debt0 := s.racking.debt0, debt1 := s.racking.debt1, guests := s.racking.guests, copies := s.racking.copies,
                 genDue0 := s.racking.genDue0, genDue1 := s.racking.genDue1, gone := s.racking.gone },
    packA := { s.packA with pathOn := false, standby := true, test := 0, challenge := none, swDone := false, implausible := false,
                               chgStop := false },
    packB := { s.packB with pathOn := false, standby := true, test := 0, challenge := none, swDone := false, implausible := false,
                               chgStop := false },
    learnt := s.learnt,
    seq := s.seq.reset,
    power := { s.power with memTimeout := 0, mboxReady := false, heldRegs := [], heldWindows := none },
    cal := { stored := s.cal.stored, lastCopy := s.cal.lastCopy },
    flash := { s.flash with host := {}, firmware := {} },
    update := { s.update with changed := [], left := [], handAt := 0, kept := [] },
    badClocks := s.badClocks, freeCtr := s.freeCtr, out := s.out, pending := s.pending }
  t.cond (!s.flag R.KLN_CTRL_ARM) (fun s => s.setCond 44 0 true)

/-- A start begins: `POWER_UP` is due, after `DORMANT_EXIT` from P3 or P4, and B1 runs (Table 15-2, R435). -/
def State.startBegin (s : State) (cause : Nat) : State :=
  let from34 := decide (3 ≤ s.rd R.PWR_STAT_STATE)
  let s := (s.startReset.fuse).cond s.maint.isOpen (fun s => s.tlog 0x0104 0)
  let s := { s with power := { s.power with life := .starting, doneSteps := [], runSteps := [1], warm := false, leaving := 0,
                                            catchup := false } }
  let s := s.wr R.PWR_START_CAUSE cause
  ((s.cond from34 (fun s => s.seqRequest 7)).seqRequest 0).showSeq

/-- Both pack paths open (R427). -/
def State.openPaths (s : State) : State :=
  (s.setPack 0 { s.packA with pathOn := false, standby := false }).setPack 1 { s.packB with pathOn := false, standby := false }

/-- No processor but the Sentinel runs, and no device register page but the island's is powered. -/
def State.coreOff (s : State) : State :=
  { s with halted := [2, 3, 4, 5], power := { s.power with doneSteps := [], runSteps := [], leaving := 0 } }

/-- P4, or Off: the pack paths open, `DORMANT_ENTER` follows (Table 15-1, Table 14-6). -/
def State.enterP4 (s : State) : State :=
  let s := (s.openPaths).coreOff
  let s := { s with power := { s.power with life := .off, cause := 1, quiet := 0 },
                    seq := { s.seq with due := s.seq.due.filter (fun k => k != 0) } }
  (((s.wr R.PWR_STAT_STATE 4).wr R.KLN_STAT_STATE 0).hrOff).announce.seqRequest 6

/-- The way down without a kiln: `POWER_DOWN`, then P4 (R219, R436, Table 15-2). -/
def State.goDown (s : State) : State :=
  match s.power.life with
  | .off => s
  | .dormant => s
  | .goingDown => s
  | .starting => ({ s with power := { s.power with life := .goingDown } }).seqRequest 1
  | .running => ({ s with power := { s.power with life := .goingDown } }).seqRequest 1
  | .failed =>
    let s := { s with power := { s.power with life := .goingDown } }
    if s.seq.prog.isSome ∨ s.seq.due.contains 1 then s else s.enterP4
  | .recovery => ({ s with power := { s.power with life := .goingDown } }).seqRequest 1

/-- P3: `DORMANT_ENTER` follows; the pack paths stay in standby and charging is off (Table 15-1). -/
def State.enterP3 (s : State) : State :=
  let s := ((s.chargeOff 0).chargeOff 1).coreOff
  let s := { s with power := { s.power with life := .dormant, cause := 2 } }
  ((((s.wr R.PWR_STAT_STATE 3).wr R.KLN_STAT_STATE 0).inc R.PWR_P3).hrOff).announce.seqRequest 6

/-- A wake of source `src` (R433): a start where the device is in P3 and `MAIN_IN` is good; latched while the `POWER_DOWN` of K7 runs
(Table 14-7); otherwise counted as ignored where it is dormant or starts. -/
def State.wake (s : State) (src : Nat) : State :=
  match s.power.life with
  | .dormant =>
    if s.power.mainGood then (s.wr R.SNT_LAST_WAKE_SOURCE src).startBegin 2 else s.inc R.SNT_LAST_WAKE_IGNORED
  | .off => s.inc R.SNT_LAST_WAKE_IGNORED
  | .starting => s.inc R.SNT_LAST_WAKE_IGNORED
  | .failed => s.inc R.SNT_LAST_WAKE_IGNORED
  | .running =>
    s.cond (s.rd R.KLN_STAT_STATE == 15 && s.power.mainGood) (fun s => (s.wr R.SNT_LAST_WAKE_SOURCE src).seqRequest 0)
  | .recovery => s
  | .goingDown => s.inc R.SNT_LAST_WAKE_IGNORED

/-- A start fails at a step with a fault source as its cause: recorded by the Sentinel, `POWER_DOWN`, F242, `ERR_N` low, retry
(R438); at three failures the escalation of R439. -/
def State.failStart (s : State) (step cause : Nat) : State :=
  let s := ((s.wr R.SNT_FAILS_LAST_STEP step).wr R.SNT_FAILS_LAST_CAUSE cause).inc R.SNT_FAILS_TOTAL
  let s := if s.power.warm then s.inc R.SNT_FAILS_WARM else s.inc R.SNT_FAILS_COLD
  let recover := decide (3 ≤ s.rd R.SNT_FAILS_COLD)
  let s := { s with power := { s.power with life := .failed, runSteps := [], cause := 4 },
                    safe := { s.safe with errnStart := true } }
  let s := s.cond recover (fun s => (s.wr R.SNT_FAILS_RECOVERY 1).detect 244 0)
  (s.detect 242 0).seqRequest 1

/-- The steps that begin when `doneSteps` are complete (R435). -/
def stepsAfter (fabric : Bool) (done : List Nat) (n : Nat) : List Nat :=
  match n with
  | 6 => if fabric then [7, 8, 9] else [7, 8]
  | 7 => if done.contains 11 then [12] else []
  | 8 => [10]
  | 9 => []
  | 10 => [11]
  | 11 => if done.contains 7 then [12] else []
  | 12 => []
  | n => [n + 1]

/-- A boot step is complete: its duration, the trouble-log entry 0x0103, and the steps it lets begin (Table 17-1,
Table 15-9). -/
def State.stepDone (s : State) (n ms : Nat) : State :=
  let s := if n % 2 = 1 then s.wr (R.PWR_STEP_MS_ODD (n / 2)) (min ms 65535) else s.wr (R.PWR_STEP_MS_EVEN (n / 2 - 1)) (min ms 65535)
  let s := (s.wr R.PWR_START_STEP n).tlog 0x0103 (n + s.rd R.PWR_START_KIND * 16 + min ms 65535 * 65536)
  let done := n :: s.power.doneSteps
  { s with power := { s.power with doneSteps := done,
                                   runSteps := s.power.runSteps.filter (fun k => k != n) ++ stepsAfter s.variant.fabric done n } }

/-! ### ST1: selecting and restoring the cask -/

/-- The sealed cask of a slot, if its header passes (R262). -/
def pickCask (c : Option Cask) (ok : Bool) : Option Cask := if ok then c else none

/-- The newer of two casks. -/
def newerCask (a b : Option Cask) : Option Cask :=
  match a, b with
  | some x, some y => if x.batch < y.batch then some y else some x
  | some x, none => some x
  | none, y => y

/-- Batch of a slot; 0 where it holds no cask. -/
def caskBatch (c : Option Cask) : Nat := (c.map (fun x => x.batch)).getD 0

/-- The registers of `KLN` marked restored, from a cask (R255). -/
def State.showCask (s : State) (c : Cask) : State :=
  let s := ((s.wr R.KLN_LAST_TRIGGER c.trigger).wr R.KLN_LAST_PLANNED (c.flags % 2)).wr R.KLN_LAST_TRIAGE (c.flags / 2 % 2)
  let s := (s.wr R.KLN_LAST_ROM (c.flags / 4 % 2)).wr R.KLN_LAST_COARSE_K c.coarseK
  let s := ((s.wr R.KLN_LAST_DIRTY c.dK3).wr R.KLN_LAST_LOST c.lost).wr R.KLN_LAST_LISTED c.listed
  let s := ((s.wr R.KLN_LAST_CT c.ct).wr R.KLN_LAST_MS c.ms).wr R.KLN_DRAINED c.drained
  s.each 8 (fun s k => (s.wr (R.KLN_PHASE_US k) (c.phaseUs.getD k 0)).wr (R.KLN_PHASE_CT k) (c.phaseCt.getD k 0))

/-- Whether the epoch before this start ended unsealed: the newer slot's header fails, or a marked open-epoch record is newer
than the newest sealed cask (R254, R261, R262), or that was so at a start since that has not reached its mark (R261). -/
def State.unsealedStart (s : State) (okA okB : Bool) : Bool :=
  let best := newerCask (pickCask s.cellar.slot0 okA) (pickCask s.cellar.slot1 okB)
  let failed := max (if okA then 0 else caskBatch s.cellar.slot0) (if okB then 0 else caskBatch s.cellar.slot1)
  decide (caskBatch best < failed) || s.cellar.endUnsealed ||
    (match s.cellar.epoch with
      | some (b, true) => decide (caskBatch best < b)
      | some (_, false) => false
      | none => false)

/-- ST1, step 1, an unsealed stop counted once however often its start is retried: the cask selected, `PST.PREV`, `PST.EPOCH` and the restored fields of `KLN` (Table 09-3, R100, R254). -/
def State.st1Begin (s : State) (okA okB : Bool) : State :=
  let best := newerCask (pickCask s.cellar.slot0 okA) (pickCask s.cellar.slot1 okB)
  let bad := s.unsealedStart okA okB
  let fin := if bad then 3 else (best.map (fun c => c.endKind)).getD 0
  let s := (s.wr R.STP_STAT_PHASE 1).wr R.STP_STAT_HOLD 0
  let s := s.wr R.STP_STAT_SEALED_CASK (b2n best.isSome)
  let s := match best with
    | some c => s.showCask c
    | none => s
  let s := s.wr R.KLN_PINS ((if bad then none else best.map (fun c => c.pins)).getD s.queues.pins).length
  let s := (((s.wr R.PST_PREV fin).wr R.PST_EPOCH (caskBatch best)).bump R.PST_SEQ).wr R.KLN_LAST_END fin
  let s := s.wr R.KLN_STAT_NEXT_SLOT (if best.isSome && caskBatch best == caskBatch s.cellar.slot0 then 1 else 0)
  let again := s.cellar.dscAt == s.cellar.epochMax + 1 || s.cellar.endUnsealed
  let s := s.cond bad (fun s => { s with cellar := { s.cellar with dscAt := s.cellar.epochMax + 1 } })
  (s.cond (bad && !again) (fun s =>
    ((s.each s.variant.ports (fun s p => s.inc (R.HP_DSC p))).inc R.KLN_COUNTS2_UNSEALED).detect 43 0)).seqRequest 3

/-- The Table 07-5 entry of a kiln-log entry: `STATE` 2 and the address of the codeword of its granule and batch (R263). -/
def State.logAddr (s : State) (batch g : Nat) : Option (Nat × Codeword) :=
  (s.cellar.flash.filter (fun c => c.2.index == g && c.2.typ == 0 && c.2.batch == batch && s.inKilnZone c.1)).getLast?

/-- The overlay of one kiln log over the regions whose map page has not been written since (R263). -/
def State.overlay (s : State) (l : KilnLog) : State :=
  l.entries.foldl (fun s e =>
    if s.cellar.flushed.has (e.granule / granulesPerRegion) then s
    else
      match s.logAddr l.batch e.granule with
      | some (a, c) => { s with cellar := { s.cellar with map := s.cellar.map.set e.granule (mkEntry 2 e.poison a c.seq) } }
      | none => { s with cellar := { s.cellar with map := s.cellar.map.set e.granule (mkEntry 3 true 0 0) } }) s

/-- Queue contexts that hold only an interrupted-command record (R313). A record that the host has not cleared is posted again after
each start (DESIGN CHOICE, assumption 194). -/
def recordQueues (l : List IntRecord) : List Queue :=
  l.foldl (fun (acc : List Queue) (r : IntRecord) => putQueue acc { q := r.queue, intRec := some r, postDue := true }) []

/-- Sections of the cask applied: heat, pins, debts, queue contexts, retire table, device state (R164, R313, Table 08-9). After an
unsealed stop the pin and retire tables stand in the records zone as they were last changed, which an older cask does not undo
(R119, R304, R555). -/
def State.applySections (s : State) (c : Cask) (sealed : Bool) : State :=
  let s := { s with dirty := { s.dirty with heat := c.heat },
                    racking := { s.racking with debt0 := c.debt0, debt1 := c.debt1 },
                    dram := { s.dram with retire := if sealed then c.retire else s.dram.retire },
                    recs := { s.recs with snap := c.tlog, snapBatch := c.batch },
                    queues := { s.queues with pins := if sealed then c.pins else s.queues.pins,
                                              list := recordQueues c.interrupted },
                    steep := { s.steep with savedHeat := c.heat } }
  s.wr R.TLG_CASK_BATCH c.batch

/-- R164: the wear bucket and `LIFE_DAYS` from the newer of the last manifest and the last records flush; at the first cold start
of a device the bucket is full. The volatile ranges and the learnt currents stand in the records zone as they were last changed
(assumption 158). -/
def State.restoreWear (s : State) (best : Option Cask) : State :=
  let put := fun (b : Int) (d : Nat) =>
    (s.wr R.WTH_BUCKET (toField R.WTH_BUCKET.width b)).wr R.WTH_WEAR_CTRL_LIFE_DAYS d
  match best, s.recs.newest with
  | some c, some i => if c.batch ≤ i.sealed then put i.wear i.lifeDays else put c.bucket c.lifeDays
  | some c, none => put c.bucket c.lifeDays
  | none, some i => put i.wear i.lifeDays
  | none, none =>
    let first := s.cellar.epochMax == 0
    { put (if first then (s.rd R.WTH_ALLOW : Int) else 0) 1826 with budget := { s.budget with fill := first } }

/-- After an unsealed stop: heat zero, no queue context, the snapshot unavailable, every racked region owed to each target and
its generation to advance (R164, R313, R471, R362). -/
def State.applyUnsealed (s : State) : State :=
  let owed := (List.range 64).foldl (fun (a : RSet × RSet) i =>
    let lo := s.rd (R.RCK_RANGE_BASE i)
    let hi := lo + s.rd (R.RCK_RANGE_SIZE i)
    let t := s.rd (R.RCK_RANGE_TGT i)
    (if t.testBit 0 then a.1.add lo hi else a.1, if t.testBit 1 then a.2.add lo hi else a.2)) ([], [])
  let s := { s with dirty := { s.dirty with heat := [] }, steep := { s.steep with savedHeat := [] },
                    queues := { s.queues with list := [] },
                    racking := { s.racking with debt0 := owed.1, debt1 := owed.2, genDue0 := true, genDue1 := true } }
  s.detect 200 0

/-- Kiln-zone groups that no chained log names are reclaimed after an unsealed stop (R254). -/
def State.reclaimGroups (s : State) : State :=
  let kept := (s.cellar.chain.map (fun l => l.groups)).flatten
  { s with cellar := { s.cellar with groups := s.cellar.groups.map (fun (g : Group) =>
      if g.kilnUse && !kept.contains g.id then { g with st := .free, kilnUse := false } else g) } }

/-- The start holds (R259, R260). -/
def State.stepHold (s : State) (n : Nat) : State :=
  { s with steep := { s.steep with hasHeld := true } }.wr R.STP_STAT_HOLD n

/-- Granules still to fold (Table 09-11, R280). -/
def State.showChain (s : State) : State :=
  let left := (s.cellar.map.filter (fun e => entState e.2 == 2)).length
  (s.wr R.CEL_FOLD left).wr R.STP_STAT_FOLD_ACTIVE
    (b2n (s.steepReady && (left != 0 || !s.cellar.chain.isEmpty)))

/-- The map as ST1 builds it: the cellar base, the cask's section 12 and lost list, and the overlay, each where no newer map
page has been written (R182, R183, R244, R254, R263). -/
def State.buildMap (s : State) (best : Option Cask) : State :=
  match best with
  | none => { s with cellar := { s.cellar with map := s.cellar.base, chain := [] } }
  | some c =>
    let old := fun (g : Nat) => !s.cellar.flushed.has (g / granulesPerRegion)
    let paged := fun (g : Nat) => c.mapRegions.has (g / granulesPerRegion) && old g
    let m := (c.mapPages.keep old).foldl (fun (m : NMap) (e : Nat × Nat) => m.set e.1 e.2)
      (s.cellar.base.keep (fun g => !paged g))
    let s := { s with cellar := { s.cellar with
        map := m,
        loaded := s.cellar.loaded.union (RSet.diff c.mapRegions s.cellar.flushed),
        mapDirty := s.cellar.mapDirty.union (RSet.diff c.mapRegions s.cellar.flushed),
        chain := c.chain.filter (fun l => l.entries.any (fun e => old e.granule)) } }
    let s := s.cellar.chain.foldl State.overlay s
    let lost := c.lostList.toList.filter old
    { s with cellar := { s.cellar with
        map := lost.foldl (fun (m : NMap) (g : Nat) => m.set g (mkEntry 3 true 0 0)) s.cellar.map,
        dirKiln := c.regionIndex } }

/-- ST1, step 6: the other manifest slot erased, the open-epoch record written (R247); `bad` after an unsealed stop. -/
def State.openEpoch (s : State) (best : Option Cask) (bad : Bool) : State :=
  let n := 1 + max (caskBatch best) s.cellar.epochMax
  let s := if s.nextSlot = 0 then { s with cellar := { s.cellar with slot0 := none, slot0Erased := true } }
    else { s with cellar := { s.cellar with slot1 := none, slot1Erased := true } }
  let s := { s with cellar := { s.cellar with epoch := some (n, false), epochMax := n, endUnsealed := bad } }
  (s.wr R.KLN_BATCH n).wr R.KLN_STAT_SLOT_READY 1

/-- ST1, steps 2 to 6 (Table 09-3): answers the state and whether the start may go on; holds 3 and 4 keep it in ST1 (R260). -/
def State.st1Load (s : State) (okA okB ckpt0 ckpt1 : Bool) : State × Bool :=
  let best := newerCask (pickCask s.cellar.slot0 okA) (pickCask s.cellar.slot1 okB)
  let bad := s.unsealedStart okA okB
  let newer := if s.cellar.ckptLast = 0 then ckpt0 else ckpt1
  let s := { s with steep := { s.steep with unfilled := RSet.add [] 0 (s.rd R.CAP_HOST), masks := [], maskHeld := [] } }
  if ckpt0 = false ∧ ckpt1 = false then (((s.stepHold 3).detect 54 0).detect 74 0, false)
  else
    let s := { s with cellar := { s.cellar with ckptOk0 := ckpt0, ckptOk1 := ckpt1 } }
    let s := s.cond (!newer) (fun s => s.detect 82 0)
    let s : State := match best with
      | some c => s.applySections c (!bad)
      | none => s
    let s := (s.cond bad State.applyUnsealed).restoreWear best
    let s := (s.buildMap best).cond bad State.reclaimGroups
    let s := (((s.wr R.STP_CHAIN_LOGS s.cellar.chain.length).showChain).showMap).showZ
    let s := s.wr R.CEL_LOST (s.cellar.map.filter (fun e => entState e.2 == 3)).length
    let s := (s.wr (R.RCK_OWED 0) s.racking.debt0.card).wr (R.RCK_OWED 1) s.racking.debt1.card
    let s := (s.wr R.DRS_RETIRED s.dram.retire.length).showQueues
    let s := s.cond (s.rd R.PQE_INTERRUPTED != 0) (fun s => s.detect 95 0)
    if 8 ≤ s.cellar.chain.length then ((s.stepHold 4).detect 55 0, false)
    else ((s.wr R.STP_STAT_HOLD 0).openEpoch best bad, true)

/-! ### Steep Ready -/

/-- The unpowered interval taken by assumption where no clock has given it (R201). -/
def State.assumeUnpow (s : State) : State :=
  if s.rd R.CEL_UNPOW = 0 ∧ s.cellar.epochMax ≠ 1 then
    let sec := 86400 * s.rd R.CEL_RET_CTRL_UNPOW_ASSUME_DAYS
    (((({ s with cellar := { s.cellar with unpow := s.cellar.unpow + sec, assumed := sec, patrolFrom := s.opsec } }).wr R.CEL_UNPOW 3).wr R.CEL_UNPOW_S
      sec).wr R.CEL_PATROL_PCT 0).detect 77 0 |>.ageGauge 0 |>.ageGauge 1
  else s

/-- The figure of R258, in ms, for a start: cold, or a warm one where no DRAM or NAND channel has fallen back. -/
def State.readyFigure (s : State) : Nat :=
  let full := (List.range s.chN).any (fun c => s.rd (R.DMC_TRAIN_MODE (s.dmcOf c)) != 2)
  if s.power.warm && !full && !s.steep.nandFull then 3000 else 14000

/-- Steep Ready (R257, R261, R102, Table 09-2): the mark, every host-visible granule unfilled, the kiln controller Ready where
armed, the wither engine out of Waiting, vendor record 0x03, P0; the failed-start counts cleared (R439). -/
def State.steepReadyNow (s : State) (ms : Nat) : State :=
  let s := { s with cellar := { s.cellar with epoch := s.cellar.epoch.map (fun (e : Nat × Bool) => (e.1, true)),
                                                 endUnsealed := false },
                    steep := { s.steep with unfilled := RSet.add [] 0 (s.rd R.CAP_HOST), masks := [], maskHeld := [],
                                            partials := [], readyOps := s.opsec },
                    power := { s.power with life := .running, cause := 3 },
                    safe := { s.safe with errnStart := false } }
  let s := ((s.wr R.STP_STAT_PHASE 2).wr R.STP_TIMES_READY_MS (min ms 65535)).wr R.PWR_START_MS (min ms 65535)
  let s := ((s.showSteep).showChain).assumeUnpow
  let s := (s.wr R.SNT_FAILS_WARM 0).wr R.SNT_FAILS_COLD 0
  let s := s.cond (s.rd R.WTH_STATE_STATE == wthWaiting) (fun s =>
    (s.wr R.WTH_STATE_STATE wthIdle).wr R.WTH_STATE_CEILING (s.rd R.WTH_CTRL_COOL_LEVEL))
  let s := s.cond (!s.steep.hasHeld && decide (s.readyFigure < ms)) (fun s => s.detect 53 0)
  let s := s.toReady
  let s := s.cond (!s.flag R.KLN_CTRL_ARM) (fun s => s.setCond 44 0 true)
  let fin := s.rd R.PST_PREV
  let words := [3, fin, 0, 0] ++ words40 (s.rd R.KLN_LAST_LOST) ++ words40 (s.rd R.KLN_DRAINED) ++ [0, 0, 0, 0, 0, 0] ++
    [s.rd R.PST_EPOCH % 2 ^ 32, s.rd R.PST_EPOCH / 2 ^ 32]
  let s := { s with power := { s.power with report := words } }
  ((s.vendor (if fin = 2 ∨ fin = 3 then 2 else 0) 3 words).wr R.PWR_STAT_STATE 0).announce.rackStart.steepCheck

/-! ### Rest states (R428 to R432) -/

/-- The tolerance in µs of a code; 0xFF is unlimited (R428). -/
def tolUs (code : Nat) : Nat := if code = 0xFF then 0xFFFFFFFF else min 0xFFFFFFFE ((8 + code / 32) * 2 ^ (code % 32) / 8)

/-- `TOL_EFF`: the smaller tolerance of the ports that are link-up with CXL.mem active (R428). -/
def State.tolEff (s : State) : Nat :=
  let of := fun (p : Nat) => if s.linkUp p && s.flag (R.HP_LINK_STAT_CXL p) then
      tolUs (s.rd (if p = 0 then R.PWR_TOL_TOL_A else R.PWR_TOL_TOL_B)) else 0xFFFFFFFF
  min (of 0) (if s.hasPort 1 then of 1 else 0xFFFFFFFF)

/-- An engine has work that keeps the device out of rest (Table 15-3). -/
def State.enginesBusy (s : State) : Bool :=
  (s.rd R.WTH_STATE_STATE != wthIdle && s.rd R.WTH_STATE_STATE != wthOff) ||
    s.queues.list.any (fun c => c.en && !c.cmds.isEmpty) || !s.racking.sends.isEmpty || !s.dirty.inflight.isEmpty ||
    !s.steep.fills.isEmpty || s.flag R.CEL_RESIZE_ACTIVE

/-- What keeps rest state `n` from being selected, as bits of `STAT.BLOCK` (Tables 15-3 and 15-9). -/
def State.restBlock (s : State) (n : Nat) : Nat :=
  let lat := if n = 1 then 20 else 2000
  let permit := if n = 1 then s.flag R.PWR_PERMIT_P1 else s.flag R.PWR_PERMIT_P2
  let tests := s.packA.test == 3 || s.packB.test == 3 || s.flag R.GAU_REST_WINDOW
  b2n (decide (s.power.quiet < n)) + b2n (s.enginesBusy || (n == 2 && (s.rd R.UPD_STAT_STATE == 4 || s.rd R.UPD_STAT_STATE == 5))) * 2 +
    b2n (s.rd R.STP_STAT_PHASE != 4 || s.flag R.STP_STAT_FOLD_ACTIVE) * 4 +
    b2n (s.rd R.KLN_STAT_STATE != 1 || s.flag R.PHS_STAT_EW || tests) * 8 + b2n (n == 2 && s.power.catchup) * 16 +
    b2n (decide (s.tolEff < lat)) * 32 + b2n (!permit) * 64 + b2n (!s.steepReady) * 128

/-- `TOL_EFF`, `TARGET` and `BLOCK` (Table 15-9). -/
def State.showRest (s : State) : State :=
  let t := if s.restBlock 2 = 0 then 2 else if s.restBlock 1 = 0 then 1 else 0
  ((s.wr R.PWR_TOL_EFF s.tolEff).wr R.PWR_STAT_TARGET t).wr R.PWR_STAT_BLOCK (s.restBlock (if t = 1 then 2 else 1))

/-- A condition of P1 has ceased: the device leaves it (Table 15-1). -/
def State.restCease (s : State) : State := s.cond (s.rd R.PWR_STAT_STATE == 1 && s.restBlock 1 != 0) State.restExit

/-- A rest state entered; on entry to P2 every rank goes into self-refresh and `REST_ENTER` runs (Table 15-2). -/
def State.restEnter (s : State) (n : Nat) : State :=
  let s := (s.wr R.PWR_STAT_STATE n).announce
  if n = 1 then s.inc R.PWR_ENTRIES_P1
  else
    let s := s.each s.chN (fun s c => s.each s.ranks (fun s r =>
      s.cond (s.rd (R.DMC_RANK_PWR (s.dmcOf c) r) == 0) (fun s => s.wr (R.DMC_RANK_PWR (s.dmcOf c) r) 1)))
    (s.inc R.PWR_ENTRIES_P2).seqRequest 4

/-- The ranks leave self-refresh. -/
def State.ranksActive (s : State) : State :=
  s.each s.chN (fun s c => s.each s.ranks (fun s r =>
    s.cond (s.rd (R.DMC_RANK_PWR (s.dmcOf c) r) == 1) (fun s => s.wr (R.DMC_RANK_PWR (s.dmcOf c) r) 0)))

/-! ### Programs that end -/

/-- What follows from the end of a sequencer program: a failed `POWER_UP`, `DORMANT_EXIT` or `STEEP_UP` fails the start, a
failed `REST_EXIT` latches, and after the `POWER_DOWN` of a power failure comes P4 (R412, Table 15-2, R226), and a start where
`MAIN_IN` has become stable meanwhile (Table 14-7). -/
def State.seqSettle (s : State) : State :=
  match s.seq.ended with
  | none => s
  | some (n, bad) =>
    let s := { s with seq := { s.seq with ended := none } }
    let starting := decide (s.power.life = .starting)
    let down := decide (s.power.life = .goingDown)
    match n with
    | 0 => s.cond (bad && starting) (fun s => s.failStart 1 (if s.progValid 0 then 125 else 128))
    | 7 => s.cond (bad && starting) (fun s => s.failStart 1 125)
    | 3 => s.cond (bad && starting) (fun s => s.failStart 11 125)
    | 5 => (s.cond bad (fun s => s.detect 240 0)).k2Check
    | 1 =>
      let on := s.seq.due.contains 0 && s.power.mainGood
      s.cond down (fun s => s.enterP4.cond on (fun s => (s.wr R.SNT_LAST_WAKE_SOURCE 5).startBegin s.power.cause))
    | _ => s

end Sys2Proof.Machine
end

