-- ==== Sys2Proof/Machine/Phase.lean ====
section
/-!
DEFINITION. Machine/Phase.lean: the mains clock, its counters and the pseudo-mains (R33 to R43), the event service (R49), charge
deadlines (R46), and operating seconds (R51).
-/

namespace Sys2Proof.Machine

open Sys2Proof

/-! ### Charge deadlines -/

/-- What follows from the firing of a slot, by its owner (R46): the kiln's deadlines, the sequencer's waits, the gauge's tests. -/
def State.cdlEffect (s : State) (n : Nat) : State :=
  let s := s.send (.signal (if n < 4 then 1 else if n < 6 then 2 else 3) n)
  if n < 4 then
    if s.inKiln then
      let s := s.cdlMark n
      if n = 1 then s.k2Check else if n = 2 then s.project else s
    else s
  else if n = 4 then
    match s.seq.wait with
    | .ct => s.seqGo.seqSettle
    | .none => s
    | .time => s
    | .hc _ => s
    | .up _ => s
    | .down _ => s
    | .sync _ _ => s
    | .shed _ => s
    | .gap => s
    | .more => s
  else s

/-- R46: an armed slot whose target `CT_DRAWN` has reached fires once. -/
def State.fireOne (s : State) (n : Nat) : State :=
  if s.flag (R.PHS_CDL_ARMED n) ∧ s.rd (R.PHS_CDL_TARGET n) ≤ s.rd R.PHS_CT_DRAWN then
    (((s.wr (R.PHS_CDL_ARMED n) 0).wr (R.PHS_CDL_FIRED n) 1)).cdlEffect n
  else s

/-- The deadlines below slot `n` that are due fire, lowest slot first (R48). -/
def State.fireDue (s : State) (n : Nat) : State := s.each n State.fireOne

/-- A deadline fires, after the lower ones that coincide with it (R46, R48). -/
def State.fireCdl (s : State) (n : Nat) : State :=
  if n < 8 ∧ s.flag (R.PHS_CDL_ARMED n) ∧ s.rd (R.PHS_CDL_TARGET n) ≤ s.rd R.PHS_CT_DRAWN then s.fireDue (n + 1) else s

def execChargeDeadlineFire (slot : Nat) (s : State) : Host.Outcome State Fault Refusal :=
  .next (finish (s.begin.fireCdl slot))

/-! ### The event service -/

/-- An event of the service fires: its owner is told, a charger follows its rule, a periodic event is posted again, one period on
(R49). A charger change whose window has passed waits for the next (R50). -/
def State.fireEvent (s : State) (slot : Nat) (e : SchedSlot) : State :=
  let s := { s with track := { s.track with sched := s.track.sched.filter (fun x => x.1 != slot) } }
  if (slot == chgSlot 0 || slot == chgSlot 1) && !s.inWindow then
    s.post slot { e with hc := if s.pu < 384 then s.hc else s.hc + 1, pu := 384 }
  else
    let s := s.send (.signal e.owner slot)
    let s := s.each 2 (fun s p => s.cond (slot == chgSlot p) (fun s => s.chargerSet p))
    if e.period = 0 then s
    else s.post slot { e with hc := e.hc + e.period }

/-- The events due before `hc`, `pu` in ascending time (R37). -/
def State.dueEvents (s : State) (hc pu : Nat) : List (Nat × SchedSlot) :=
  let due := s.track.sched.filter (fun x => decide (x.2.hc < hc) || (x.2.hc == hc && decide (x.2.pu ≤ pu)))
  due.foldl (fun (acc : List (Nat × SchedSlot)) x =>
    acc.filter (fun y => decide (y.2.hc * 1024 + y.2.pu ≤ x.2.hc * 1024 + x.2.pu)) ++
      (x :: acc.filter (fun y => decide (x.2.hc * 1024 + x.2.pu < y.2.hc * 1024 + y.2.pu)))) []

/-- Every event up to `hc`, `pu` that has not fired fires now, in ascending order (R37). -/
def State.fireSkipped (s : State) (hc pu : Nat) : State :=
  (s.dueEvents hc pu).foldl (fun s x => s.fireEvent x.1 x.2) s

/-- The hc periods stated in seconds recomputed, where the frequency has moved by more than 1 % or the source has changed; the
next event stays on the old grid (R49). The patrol's `STEP` follows (R118). -/
def State.regrid (s : State) (force : Bool) : State :=
  let f := s.hcRate / 2
  let u := s.track.freqUsed
  if force || decide (u < 100 * (f - u)) || decide (u < 100 * (u - f)) then
    { s with track := { s.track with freqUsed := f, sched := s.track.sched.map (fun (x : Nat × SchedSlot) =>
        if x.2.seconds = 0 then x else (x.1, { x.2 with period := s.hcOf x.2.seconds })) } }.showSteps
  else s

/-! ### Early Warning -/

/-- The newest trouble-log entry of a code takes another data word. -/
def State.amendTlog (s : State) (code data : Nat) : State :=
  match s.recs.live.reverse.find? (fun e => e.code == code) with
  | none => s
  | some e => { s with recs := { s.recs with live := s.recs.live.map (fun x => if x = e then { x with data := data } else x) } }

/-- Early Warning raised for a cause, by an event whose moment was `at0` on the grid before it: `EW`, the wither engine boosts, the kiln controller primes, a rest window ends, and a
kiln's debounce fails (R41, R158, R248, Table 08-2, Table 13-6). A second cause at the same moment enters the same trouble-log
entry (Table 02-1). -/
def State.raiseEw (s : State) (cause at0 : Nat) : State :=
  let s := { s with track := { s.track with ewCause := s.track.ewCause ||| cause, acceptRun := 0 } }
  if s.flag R.PHS_STAT_EW then s.cond (s.track.ewAt == s.puNow || s.track.ewAt == at0) (fun s => s.amendTlog 0x0108 s.track.ewCause)
  else
    let s := { s with track := { s.track with ewSince := s.hc, ewAt := s.puNow } }
    let s := ((s.wr R.PHS_STAT_EW 1).detect 155 0).tlog 0x0108 s.track.ewCause
    let s := (((s.vendor 1 2 [2, 1]).enterBoost).prime).restExit
    let s := s.cond (s.flag R.GAU_REST_WINDOW) State.endRest
    s.cond (s.flag R.KLN_STAT_DEBOUNCE && s.rd R.KLN_STAT_TRIGGER == 2) (fun s =>
      ({ s with kiln := { s.kiln with k2Force := true } }.wr R.KLN_STAT_DEBOUNCE 0).k2Check)

/-- Power has returned: the 4 hc debounce of a kiln of trigger 1 or 2 in K0 to K2, or of the way back from Primed (R248,
Table 08-2). -/
def State.startDebounce (s : State) : State :=
  let s := { s with kiln := { s.kiln with goodFrom := s.hc } }
  s.cond (s.inKiln && decide (s.kilnPhase ≤ 2)) (fun s =>
    ({ s with kiln := { s.kiln with debounced := true } }).wr R.KLN_STAT_DEBOUNCE 1)

/-- Early Warning withdrawn (R43); not from K3 on. -/
def State.withdrawEw (s : State) : State :=
  if s.flag R.PHS_STAT_EW = false ∨ (s.inKiln ∧ 3 ≤ s.kilnPhase) then s
  else
    let s := { s with track := { s.track with ewCause := 0 } }
    let s := ((s.wr R.PHS_STAT_EW 0).vendor 1 2 [2, 0]).leaveBoost
    s.cond (s.rd R.KLN_STAT_STATE == 2 || (s.inKiln && s.rd R.KLN_STAT_TRIGGER == 2)) State.startDebounce

/-! ### The half-cycle source -/

/-- The pseudo-mains is called for by a field (R39). -/
def State.pseudoForced (s : State) : Bool := !s.flag R.PHS_CTRL_AC_EN || s.flag R.PHS_CTRL_FORCE_PSEUDO

/-- The half-cycle source set, with the reason (R39); a change recomputes the hc periods. Table 02-4 gives no priority where two
reasons hold: forced shows first, then lost sense, then an unlocked clock (DESIGN CHOICE, assumption 199). -/
def State.setSource (s : State) (pseudo : Bool) : State :=
  let old := s.flag R.PHS_STAT_SRC
  let reason := if !pseudo then 0 else if s.pseudoForced then 1 else if s.track.senseLost then 3 else 2
  let s := (s.wr R.PHS_STAT_SRC (b2n pseudo)).wr R.PHS_STAT_SRC_REASON reason
  let s := s.wr R.PHS_FREQ (if pseudo then 50000 else 50000000000 / max 1 (s.rd R.PHS_PERIOD))
  s.regrid (old != pseudo)

/-- An interval corresponds to 45 to 66 Hz (R35). -/
def inBand (i : Nat) : Bool := decide (45000 * i ≤ 50000000000) && decide (50000000000 ≤ 66000 * i)

/-- One more hc with the mean out of band, or none (R35). -/
def State.countRange (s : State) : State :=
  let out := s.flag R.PHS_STAT_LOCKED && !inBand (s.rd R.PHS_PERIOD)
  { s with track := { s.track with rangeRun := if out then s.track.rangeRun + 1 else 0 } }

/-- The end of a half-cycle: charge deadlines that coincide (R48), skipped events, the hc count, and at this boundary a source change that is due (R36, R37, R40).
`pu` is where the new half-cycle begins. -/
def State.endHalf (s : State) (pu : Nat) : State :=
  let s := (s.fireDue 8).fireSkipped s.hc 1023
  let s := ((s.wr R.PHS_HC (s.hc + 1)).wr R.PHS_PU pu).countRange.fireSkipped (s.hc + 1) pu
  s.setSource (s.flag R.PHS_STAT_SRC || s.pseudoForced || !s.flag R.PHS_STAT_LOCKED)

/-- The mean of measured intervals, in ticks. -/
def meanOf (l : List Nat) : Nat := l.sum / max 1 l.length

/-- Eight intervals lock: each in band and within 2 % of their mean (R35). -/
def locks (l : List Nat) : Bool :=
  let m := meanOf l
  l.length == 8 && l.all (fun i => inBand i && decide (98 * m ≤ 100 * i) && decide (100 * i ≤ 102 * m))

/-- Measured intervals enter the mean that forms P, and lock follows (R34, R35). -/
def State.takeIntervals (s : State) (new : List Nat) : State :=
  let iv := (new ++ s.track.intervals).take 8
  let p := meanOf iv
  let run := s.track.lockRun + new.length
  let s := { s with track := { s.track with intervals := iv, lockRun := run } }
  let s := s.wr R.PHS_PERIOD p
  s.cond (decide (8 ≤ run) && locks iv) (fun s => s.wr R.PHS_STAT_LOCKED 1)

/-- A crossing accepted into tracking: the counters and the source follow (R36, R40, R42, R43). -/
def State.acceptCrossing (s : State) (lockedBefore : Bool) : State :=
  let run := if s.flag R.PHS_STAT_AC_OK then s.track.acceptRun + 1 else 0
  let s := { s with track := { s.track with missRun := 0, acceptRun := run, spansMiss := false } }
  let s :=
    if s.flag R.PHS_STAT_SRC then
      if lockedBefore && !s.pseudoForced then
        let s := { s with track := { s.track with senseLost := false } }
        let s := s.cond (s.condAny 153) (fun s => s.setCond 153 0 false)
        let s := (s.fireDue 8).fireSkipped s.hc 1023
        (((s.wr R.PHS_HC (s.hc + 1)).wr R.PHS_PU 0).countRange.fireSkipped (s.hc + 1) 0).setSource false
      else s
    else s.endHalf 0
  s.cond (decide (4 ≤ s.track.acceptRun) && !s.flag R.PHS_STAT_SRC) State.withdrawEw

/-- With `EDGE` = 1 an interval runs from rising edge to rising edge: from the reference point where no falling crossing has been
placed since, else P more than that (R33). An edge that holds for `GLITCH` µs, `ticks` after the reference point, with the filtered `AC_OK` level then (R33, R34): the
first one is accepted without a window test, the second only in band, later ones inside 0.75 P to 1.25 P; any other is
rejected. -/
def State.crossing (s : State) (ticks : Nat) (acOk : Bool) : State :=
  let s := s.wr R.PHS_STAT_AC_OK (b2n acOk)
  let rising := s.flag R.PHS_CTRL_EDGE
  let locked := s.flag R.PHS_STAT_LOCKED
  let p := s.rd R.PHS_PERIOD
  let half := if rising then (if s.track.intervals.isEmpty || s.track.fallingDue then ticks / 2 else (ticks + p) / 2)
    else ticks
  let due := fun (s : State) => { s with track := { s.track with fallingDue := rising } }
  if s.track.refHeld = false then
    due { s with track := { s.track with refHeld := true, missRun := 0, acceptRun := 0, spansMiss := false } }
  else if s.track.intervals.isEmpty then
    if inBand half then
      ((due s).takeIntervals (if rising then [half, half] else [half])).acceptCrossing locked
    else due s
  else if 4 * ticks < 3 * p ∨ 5 * p < 4 * ticks then s.inc R.PHS_MISS_CNT_REJECTED
  else
    let s := s.wr R.PHS_PHASE_ERR (toField 24 ((ticks : Int) - (p : Int)))
    let s := if s.track.spansMiss then { s with track := { s.track with lockRun := 0 } }
      else s.takeIntervals (if rising then [half, half] else [half])
    (due s).acceptCrossing locked

def execAcceptedCrossing (ticks : Nat) (acOk : Bool) (s : State) : Host.Outcome State Fault Refusal :=
  .next (finish (s.begin.crossing ticks acOk))

/-- R34: an edge outside the window is counted and otherwise ignored. -/
def execRejectedCrossing (s : State) : Host.Outcome State Fault Refusal :=
  .next (finish (s.begin.inc R.PHS_MISS_CNT_REJECTED))

/-- R33: with `EDGE` = 1 a falling crossing is placed P after an accepted rising edge, and becomes the reference point. -/
def State.placeFalling (s : State) : State :=
  if s.flag R.PHS_CTRL_EDGE ∧ s.track.fallingDue ∧ s.track.intervals ≠ [] then
    ({ s with track := { s.track with fallingDue := false } }).acceptCrossing (s.flag R.PHS_STAT_LOCKED)
  else s

def execPlacedFallingCrossing (s : State) : Host.Outcome State Fault Refusal :=
  .next (finish s.begin.placeFalling)

/-- R35: lock is lost after 16 hc with the mean out of band; the pseudo-mains takes over at the next half-cycle boundary. -/
def State.loseLock (s : State) : State :=
  if s.flag R.PHS_STAT_LOCKED ∧ 16 ≤ s.track.rangeRun then
    ({ s with track := { s.track with lockRun := 0, rangeRun := 0 } }.wr R.PHS_STAT_LOCKED 0).detect 154 0
  else s

def execLockLost (s : State) : Host.Outcome State Fault Refusal :=
  .next (finish s.begin.loseLock)

/-- R36: pu advances and holds at 1,023. -/
def State.puStep (s : State) : State := if s.pu < 1023 then (s.wr R.PHS_PU (s.pu + 1)).lsaTick.handTick else s

def execPuAdvance (s : State) : Host.Outcome State Fault Refusal :=
  .next (finish s.begin.puStep)

/-- R39: a pseudo half-cycle ends while the pseudo-mains is the source. -/
def State.pseudoEnd (s : State) : State := if s.flag R.PHS_STAT_SRC then s.endHalf 0 else s

def execPseudoHalfCycleEnd (s : State) : Host.Outcome State Fault Refusal :=
  .next (finish s.begin.pseudoEnd)

/-- R42: mains sense lost: lock, reference point and intervals discarded, the pseudo-mains the source, Early Warning of the
missing half-cycles withdrawn. -/
def State.loseSense (s : State) : State :=
  let s := { s with track := { s.track with senseLost := true, refHeld := false, intervals := [], lockRun := 0, rangeRun := 0,
                                            missRun := 0, acceptRun := 0, spansMiss := false, fallingDue := false } }
  (((s.wr R.PHS_STAT_LOCKED 0).setSource true).withdrawEw).setCond 153 0 true

/-- R36, R41, R42: 1.25 P without a crossing. With the mains as source hc advances on the predicted grid; the second miss in a
row raises Early Warning, the third looks at `MAIN_IN` and `AC_OK`. Under the pseudo-mains only the reference point moves. -/
def State.missing (s : State) (acOk : Bool) : State :=
  if s.track.refHeld = false ∨ s.track.intervals = [] then s
  else
    let s := s.wr R.PHS_STAT_AC_OK (b2n acOk)
    let s := { s with track := { s.track with spansMiss := true, lockRun := 0, acceptRun := 0, fallingDue := false } }
    if s.flag R.PHS_STAT_SRC then s
    else
      let s := { s with track := { s.track with missRun := s.track.missRun + 1 } }
      let at0 := s.puNow
      let s := (s.inc R.PHS_MISS_CNT_MISSED).endHalf 256
      let s := s.cond (s.track.missRun == 2) (fun s => s.raiseEw 1 at0)
      s.cond (s.track.missRun == 3 && decide (s.warnMv ≤ s.rd R.MON_MAIN_IN) && acOk) State.loseSense

def execMissingHalfCycle (acOk : Bool) (s : State) : Host.Outcome State Fault Refusal :=
  .next (finish (s.begin.missing acOk))

/-- R49: an event of the service whose time has come fires, after the charge deadlines that coincide with it (R48). -/
def State.fireSlot (s : State) (slot : Nat) : State :=
  match s.track.sched.find? (fun x => x.1 == slot) with
  | some x => if x.2.hc * 1024 + x.2.pu ≤ s.puNow then (s.fireDue 8).fireEvent slot x.2 else s
  | none => s

def execScheduledEventFire (slot : Nat) (s : State) : Host.Outcome State Fault Refusal :=
  .next (finish (s.begin.fireSlot slot))

/-- R41: `AC_OK` low for 20 µs raises Early Warning while `EW_ACOK` = 1. -/
def State.acOkLow (s : State) : State :=
  let s := { s with track := { s.track with acceptRun := 0 } }.wr R.PHS_STAT_AC_OK 0
  s.cond (s.flag R.PHS_CTRL_EW_ACOK) (fun s => s.raiseEw 2 s.puNow)

def execAcOkLowTimeout (s : State) : Host.Outcome State Fault Refusal :=
  .next (finish s.begin.acOkLow)

/-- R43: with the pseudo-mains as source, 4 hc of `AC_OK` high withdraw Early Warning. -/
def State.acOkHigh (s : State) : State :=
  let s := s.wr R.PHS_STAT_AC_OK 1
  s.cond (s.flag R.PHS_STAT_SRC) State.withdrawEw

def execAcOkHighTimeout (s : State) : Host.Outcome State Fault Refusal :=
  .next (finish s.begin.acOkHigh)

/-! ### Arming -/

/-- R46: the owner of a slot arms it; a target already reached fires at once. -/
def State.ownerArm (s : State) (n target : Nat) : State :=
  if n < 8 then
    let s := s.armCdl n (target % 2 ^ 48)
    s.cond (s.flag (R.PHS_CDL_FIRED n)) (fun s => s.cdlEffect n)
  else s

def execChargeDeadlineArm (slot target : Nat) (s : State) : Host.Outcome State Fault Refusal :=
  .next (finish (s.begin.ownerArm slot target))

/-! ### The gauge path (R45, R393) -/

/-- R393: the gauge path of a port has been implausible for 1 s: the charge clock goes onto its estimate, Q_best uses Q_vhi alone,
U grows by 5 % of CAP once. -/
def State.gaugeBad (s : State) (p : Nat) : State :=
  let k := s.pack p
  if 2 ≤ p ∨ k.implausible then s
  else
    let s := s.setPack p { k with implausible := true }
    let s := { s with track := { s.track with estEnds := false } }
    let s := s.wr (R.PK_UNC p) (min 0xFFFFFF (s.rd (R.PK_UNC p) + s.rd (R.PK_CAP p) * 5 / 100))
    (((s.wr R.PHS_STAT_CT_EST 1).detect 156 0).cond s.variant.gauge (fun s => s.detect 139 0)).gaugeShow

def execGaugePathImplausible (pack : Nat) (s : State) : Host.Outcome State Fault Refusal :=
  .next (finish (s.begin.gaugeBad pack))

/-- R45: the path is plausible again; both counts return to the shunt at the next conversion. -/
def State.gaugeGood (s : State) (p : Nat) : State :=
  if 2 ≤ p ∨ (s.pack p).implausible = false then s
  else
    ((s.setPack p { s.pack p with implausible := false }).gaugeShow).estCease

def execGaugePathPlausible (pack : Nat) (s : State) : Host.Outcome State Fault Refusal :=
  .next (finish (s.begin.gaugeGood pack))

/-! ### Operating seconds -/

/-- The free groups of the image zone are below `GC_LOW_PCT` per cent of it (R194, Table 07-12). -/
def State.imageLow (s : State) : Bool :=
  decide (s.power.life = .running) &&
    decide (100 * s.imageFree < clampTo 1 10 (s.rd R.CEL_GC_CTRL_GC_LOW_PCT) * s.imageCap)

/-- Free image-zone space low for a second latches F073. -/
def State.lowSecond (s : State) : State :=
  let low := s.imageLow
  let was := s.cellar.lowSpace
  { s with cellar := { s.cellar with lowSpace := low } }.cond (low && was) (fun s => s.detect 73 0)

/-- R51: one second, an operating second where the CONTROL domain is powered: the count, and what the spec counts in seconds: the
trouble log's buckets (R470), the recorder's (R476), `SNT.RTC`, rest times, the summaries of the fabric (R338) and the LSA that waits (R329). -/
def State.second (s : State) : State :=
  let s := s.cond (s.power.life != .off && s.power.life != .dormant) (fun s => s.inc R.PHS_OPSEC)
  let s := (s.bump R.SNT_RTC).cond (s.opsec % 3600 == 0) (fun s => s.guestHours.packHours)
  let fence := if s.queues.latCnt = 0 then 0 else s.queues.latSum / s.queues.latCnt
  let s := s.wr R.PQE_FENCE_LAT_MEAN_US (min 65535 fence)
  let slots := s.recs.slots.map (fun (r : RecSlot) => { r with bucket := 0 })
  let s := s.recs.held.foldl (fun s e => s.pushTlog (s.stamp 0x0100 (e.1 % 65536 + min 65535 e.2 * 65536))) s
  let s : State := { s with recs := { s.recs with used := [], held := [], slots := slots }, fabric := { s.fabric with stateSent := 0 },
                            queues := { s.queues with latSum := 0, latCnt := 0 } }
  let mean := if s.steep.latCnt = 0 then 0 else s.steep.latSum / s.steep.latCnt
  let s := { s with steep := { s.steep with latSum := 0, latCnt := 0 } }.wr R.STP_FILL_LAT_MEAN_US (min 65535 mean)
  let s := s.cond (s.rd R.PWR_STAT_STATE == 1) (fun s => s.inc R.PWR_RES_P1)
  let s := s.cond (s.rd R.PWR_STAT_STATE == 2) (fun s => s.inc R.PWR_RES_P2)
  let s := s.cond (s.rd R.WTH_STATE_STATE == wthHeld) (fun s => s.inc R.WTH_HELD_S)
  let s := s.cond (!s.variant.gauge) (fun s => s.inc R.BUD_ENERGY_AGE)
  let s := s.cond (s.rd R.STP_STAT_HOLD == 4) (fun s => s.inc R.STP_CHAIN_PREFOLD_S)
  let s := s.cond (s.rd R.UPD_LOCK_IDLE != 0) (fun s => s.wr R.UPD_LOCK_IDLE (s.rd R.UPD_LOCK_IDLE - 1))
  let s := s.cond (s.rd R.UPD_CONFIRM_LEFT != 0) (fun s => s.wr R.UPD_CONFIRM_LEFT (s.rd R.UPD_CONFIRM_LEFT - 1))
  let s := s.cond (s.rd R.CRY_UNLOCK_WAIT != 0) (fun s => s.wr R.CRY_UNLOCK_WAIT (s.rd R.CRY_UNLOCK_WAIT - 1))
  (s.cond (s.rd R.SAF_STAT_STATE == 2 && s.rd R.SAF_QUIET_LEFT != 0) (fun s =>
    s.wr R.SAF_QUIET_LEFT (s.rd R.SAF_QUIET_LEFT - 1))).lsaTick.handTick.lowSecond

def execOpsecTick (s : State) : Host.Outcome State Fault Refusal :=
  .next (finish s.begin.second)

end Sys2Proof.Machine
end

