-- ==== Sys2Proof/Machine/RecOps.lean ====
section
/-!
DEFINITION. Machine/RecOps.lean: the event recorder (R474 to R479): allocation, bins, extremes, the rate limit, pending counters
and the merge.
-/

namespace Sys2Proof.Machine

open Sys2Proof

/-- The bin of a value (R475); a code without a value counts in bin 0. -/
def binOf (base : Nat) (v : Option Int) : Nat :=
  match v with
  | none => 0
  | some x => if x < (max 1 base : Int) then 0 else min 15 (1 + Nat.log2 (x.toNat / max 1 base))

/-- One more in entry `i` of a list of counts, none of which passes `top`. -/
def bumpAt (l : List Nat) (i top : Nat) : List Nat := l.set i (min top (l.getD i 0 + 1))

/-- The lower and the higher of a held extreme and a value seen now; an equal value does not replace it (R475). -/
def keepLow (e : Option (Int × Nat × Nat)) (v : Int) (op pc : Nat) : Option (Int × Nat × Nat) :=
  match e with
  | none => some (v, op, pc)
  | some x => if v < x.1 then some (v, op, pc) else some x
def keepHigh (e : Option (Int × Nat × Nat)) (v : Int) (op pc : Nat) : Option (Int × Nat × Nat) :=
  match e with
  | none => some (v, op, pc)
  | some x => if x.1 < v then some (v, op, pc) else some x

/-- An empty slot of one kind. -/
def newSlot (code : Nat) (ext : Bool) (op pc : Nat) : RecSlot :=
  { code := code, extremes := ext, bins := List.replicate (if ext then 1 else 16) 0,
    pend := List.replicate (if ext then 1 else 16) 0, first := op % 2 ^ 32, firstPc := pc }

/-- Slots of one kind that are allocated. -/
def Records.usedSlots (r : Records) (ext : Bool) : Nat := (r.slots.filter (fun x => x.extremes == ext)).length

/-- `USED` and the slot that `CURSOR` selects (Table 17-7). -/
def State.showRec (s : State) : State :=
  let s := (s.wr R.REC_USED_HIST (s.recs.usedSlots false)).wr R.REC_USED_EXT (s.recs.usedSlots true)
  let kind := s.flag R.REC_CURSOR_KIND
  match (s.recs.slots.filter (fun x => x.extremes == kind))[s.rd R.REC_CURSOR_SLOT]? with
  | some r =>
    let s := (s.wr R.REC_SLOT_CODE_CODE r.code).wr R.REC_SLOT_CODE_VALID 1
    let s := ((s.wr R.REC_SLOT_SEQ r.seq).wr R.REC_SLOT_SUPP r.supp).wr R.REC_SLOT_PEND (min 65535 r.pend.sum)
    (s.wr R.REC_SLOT_FIRST r.first).wr R.REC_SLOT_FIRST_PC r.firstPc
  | none =>
    let s := (s.wr R.REC_SLOT_CODE_CODE 0).wr R.REC_SLOT_CODE_VALID 0
    let s := ((s.wr R.REC_SLOT_SEQ 0).wr R.REC_SLOT_SUPP 0).wr R.REC_SLOT_PEND 0
    (s.wr R.REC_SLOT_FIRST 0).wr R.REC_SLOT_FIRST_PC 0

/-- One slot takes an occurrence in: over the limit only the suppressed count and the extremes move; during a flush the pending
counters (R476, R478). Answers the slot and whether something was suppressed or a pending count was full. -/
def RecSlot.take (r : RecSlot) (base rate op pc : Nat) (writing : Bool) (v : Option Int) : RecSlot × Bool × Bool :=
  let past := decide (rate ≤ r.bucket)
  let i := if r.extremes then 0 else binOf base v
  let full := writing && decide (0xFFFF ≤ r.pend.getD i 0)
  let r := { r with bucket := r.bucket + 1 }
  let r := match v with
    | none => r
    | some x =>
      if r.extremes = false then r
      else if writing then { r with pendLo := keepLow r.pendLo x op pc, pendHi := keepHigh r.pendHi x op pc }
      else { r with lo := keepLow r.lo x op pc, hi := keepHigh r.hi x op pc }
  if past ∨ full then ({ r with supp := min (2 ^ 32 - 1) (r.supp + 1), seq := r.seq + 1 }, past, full && !past)
  else if writing then ({ r with pend := bumpAt r.pend i 0xFFFF }, false, false)
  else ({ r with bins := bumpAt r.bins i (2 ^ 32 - 1), seq := r.seq + 1 }, false, false)

/-- One occurrence for one kind of slot: the code's slot, a new one, or none left (R474). -/
def State.occurKind (s : State) (row : CodeRow) (ext : Bool) (v : Option Int) : State :=
  let op := s.opsec
  let pc := s.rd R.PHS_PCYCLES
  let has := s.recs.slots.any (fun x => x.code == row.code && x.extremes == ext)
  let room := decide (s.recs.usedSlots ext < (if ext then 256 else 512))
  if !has && !room then
    let bit := if ext then 2 else 1
    let first := s.recs.poolLatched / bit % 2 == 0
    let s := s.inc R.REC_UNREC
    s.cond first (fun s => ({ s with recs := { s.recs with poolLatched := s.recs.poolLatched + bit } }).detect
      (if ext then 204 else 203) 0)
  else
    let slots := if has then s.recs.slots else s.recs.slots ++ [newSlot row.code ext op pc]
    let rate := if row.rate = 0 then max 1 (s.rd R.REC_CTRL_RATE_DEF) else row.rate
    let w := s.recs.writing != 0
    let hit := fun (x : RecSlot) => x.code == row.code && x.extremes == ext
    let outc := slots.map (fun x => if hit x then x.take row.base rate op pc w v else (x, false, false))
    let s := { s with recs := { s.recs with slots := outc.map (fun (o : RecSlot × Bool × Bool) => o.1) } }
    let s := s.cond (outc.any (fun o => o.2.1)) (fun s => s.detect 205 0)
    s.cond (outc.any (fun o => o.2.2)) (fun s => s.detect 206 0)

/-- An occurrence of an event code, with its value if it has one (R474 to R476). A code of no recorder kind leaves no trace. -/
def State.occur (s : State) (code : Nat) (v : Option Int) : State :=
  match s.update.codeTable.find? (fun r => r.code == code) with
  | none => s
  | some row =>
    let s := s.cond row.hist (fun s => s.occurKind row false v)
    (s.cond row.extremes (fun s => s.occurKind row true v)).showRec

/-- Pending counters merged into their slot (R478). -/
def RecSlot.merge (r : RecSlot) : RecSlot :=
  if r.pend.all (fun n => n == 0) && r.pendLo.isNone && r.pendHi.isNone then r
  else
    let bins := (r.bins.zip r.pend).map (fun b => min (2 ^ 32 - 1) (b.1 + b.2))
    let lo := match r.pendLo with
      | none => r.lo
      | some x => keepLow r.lo x.1 x.2.1 x.2.2
    let hi := match r.pendHi with
      | none => r.hi
      | some x => keepHigh r.hi x.1 x.2.1 x.2.2
    { r with bins := bins, pend := r.pend.map (fun _ => 0), lo := lo, hi := hi, pendLo := none, pendHi := none,
             seq := r.seq + 1 }

/-- A flush starts: the image is taken, and is written to the copy that is not the newest (R477). -/
def State.flushStart (s : State) : State :=
  if s.recs.writing ≠ 0 then s
  else
    let cp := match s.recs.copyA.filter (fun i => i.valid), s.recs.copyB.filter (fun i => i.valid) with
      | some a, some b => if a.flushSeq < b.flushSeq then 1 else 2
      | some _, none => 2
      | none, _ => 1
    let img : RecImage := { flushSeq := s.rd R.REC_FLUSH_SEQ + 1, opsec := s.opsec, pcycles := s.rd R.PHS_PCYCLES,
                            slots := s.recs.slots, unrec := s.rd R.REC_UNREC,
                            sealed := caskBatch (newerCask s.cellar.slot0 s.cellar.slot1),
                            wear := ofField R.WTH_BUCKET.width (s.rd R.WTH_BUCKET),
                            lifeDays := s.rd R.WTH_WEAR_CTRL_LIFE_DAYS, valid := true }
    { s with recs := { s.recs with writing := cp, image := some img } }.wr R.REC_STAT_FLUSHING 1

/-- Every slot released, `UNREC` zeroed, a flush follows (R479). -/
def State.recClear (s : State) : State :=
  let s := { s with recs := { s.recs with slots := [], clearWaits := false } }
  (((((s.wr R.REC_CTRL_CLEAR 0).wr R.REC_UNREC 0).showRec).notice 0xC9).detect 210 0).flushStart

/-- The write of a flush ends: the copy stands or not, pending counters merge, a waiting clear runs (R477, R478, Table 17-4). -/
def State.flushEnd (s : State) (ok : Bool) : State :=
  if s.recs.writing = 0 then s
  else
    let img := s.recs.image
    let r := s.recs
    let r := if ok then (if r.writing = 1 then { r with copyA := img } else { r with copyB := img })
      else if r.writing = 1 then { r with copyA := r.copyA.map (fun i => { i with valid := false }) }
      else { r with copyB := r.copyB.map (fun i => { i with valid := false }) }
    let seqNo := (img.map (fun i => i.flushSeq)).getD 0
    let opsec := (img.map (fun i => i.opsec)).getD 0
    let s := { s with recs := { r with writing := 0, image := none, slots := r.slots.map RecSlot.merge } }
    let s := (s.wr R.REC_STAT_FLUSHING 0).wr R.REC_CTRL_FLUSH 0
    let s := if ok then
        let s := ((s.wr R.REC_FLUSH_SEQ seqNo).wr R.REC_LAST_FLUSH opsec).inc R.REC_STAT_FLUSHES
        s.cond (s.hostTime != 0) (fun s => { s with cellar := { s.cellar with hostStored := s.hostNow } })
      else s.detect 207 0
    (s.cond s.recs.clearWaits State.recClear).showRec

end Sys2Proof.Machine
end

