-- ==== Sys2Proof/Machine/Monitor.lean ====
section
/-!
DEFINITION. Machine/Monitor.lean: the conversion frame of the analog monitor (R484 to R487, R490, R492): readings, rails (R403 to
R405), the charge clock (R44, R45), and each pack's gauge (R380 to R388).
-/

namespace Sys2Proof.Machine

open Sys2Proof

/-! ### Readings -/

/-- The ADC of an input (Table 18-1). -/
def adcOf (i : Nat) : Nat :=
  if i < 16 then 0 else if i < 32 then 1 else if i < 40 then 0 else if i < 46 then 1 else 2

/-- Protected inputs of an ADC in ascending order, at most the 14 that its substitute can carry (R490, Table 18-2). -/
def State.protectedOf (s : State) (a : Nat) : List Nat :=
  ((List.range 48).filter (fun i => adcOf i == a &&
    (decide (38 ≤ i ∧ i ≤ 39) || decide (46 ≤ i) || (decide (i < 32) && s.flag (R.SEQ_RAIL_CFG_KILN i))))).take 14

/-- The ADC's inputs are converted by a substitute now: it is calibrated, or its housekeeping check has failed. -/
def State.adcAway (s : State) (a : Nat) : Bool :=
  (s.flag R.MON_STAT_CAL_ACTIVE && s.rd R.MON_STAT_CAL_ADC == a) || s.cal.badAdc.has a

/-- The input holds its last reading (R490). -/
def State.staleIn (s : State) (i : Nat) : Bool := s.adcAway (adcOf i) && !(s.protectedOf (adcOf i)).contains i

/-- The ADC that converts an input now: its own, or while that is away the substitute of a protected input (Table 18-2). ADC0 takes
the first shunt and ADC1 the second (DEDUCED, assumption 204). -/
def State.adcNow (s : State) (i : Nat) : Nat :=
  if s.adcAway (adcOf i) ∧ s.staleIn i = false then (if adcOf i = 2 then i % 2 else 2) else adcOf i

/-- The reading of input `i` in this frame; the inputs that the variant lacks read 0 (R484). -/
def State.readingOf (s : State) (f : Frame) (i : Nat) : Int :=
  if s.variant.gauge = false ∧ ((32 ≤ i ∧ i ≤ 37) ∨ (40 ≤ i ∧ i ≤ 45)) then 0 else f.value.getD i 0

/-- Readings and their flags stored (R485, R490). -/
def State.storeReadings (s : State) (f : Frame) : State :=
  let s := s.each 48 (fun s i =>
    let stale := s.staleIn i
    let s := (s.wr (R.MON_IN_STAT_ADC i) (s.adcNow i)).wr (R.MON_IN_STAT_STALE i) (b2n stale)
    if stale then s
    else
      ((s.wr (R.MON_IN_VAL_VALUE i) (toField 16 (s.readingOf f i))).wr (R.MON_IN_VAL_RAW i) (f.raw.getD i 0)).wr
        (R.MON_IN_STAT_SAT i) (b2n (f.sat.contains i)))
  let any := (List.range 48).any (fun i => s.flag (R.MON_IN_STAT_STALE i))
  let s := (s.wr R.MON_STAT_STALE_ANY (b2n any)).wr (R.STALE 0xB8) (b2n any)
  s.cond (f.sat.any (fun i => !s.staleIn i)) (fun s => s.detect 163 0)

/-- The stored reading of an input. -/
def State.reading (s : State) (i : Nat) : Int := ofField 16 (s.rd (R.MON_IN_VAL_VALUE i))

/-- `COLLAPSE.MV` as treated (Table 14-13). -/
def State.collapseMv (s : State) : Nat := clampTo 6000 8500 (s.rd R.SEQ_COLLAPSE_MV)

/-- `MAIN_IN`, the hold-up bus and the die temperature (R486, R487, R554). -/
def State.storeSupplies (s : State) (f : Frame) : State :=
  let hub := (s.reading 39).toNat
  let s := (s.wr R.MON_MAIN_IN (s.reading 38).toNat).wr R.MON_HOLDUP hub
  let ma := if s.flag R.MON_BUS_ISNS_EN then
      (s.reading (s.rd R.MON_BUS_ISNS_INPUT)).toNat * s.rd R.MON_BUS_ISNS_MA_PER_MV else 0
  let s := s.wr R.MON_HOLDUP_I ma
  let s := { s with kiln := { s.kiln with lowFrames := if hub < s.collapseMv then s.kiln.lowFrames + 1 else 0 } }
  let old := ofField 8 (s.rd R.MON_TEMP_DIE_C)
  let s := (s.wr R.MON_TEMP_DIE_C (toField 8 f.die)).cond (old != f.die) State.healthNote
  let s := s.cond (decide (ofField 8 (s.rd R.MON_TEMP_MAX_C) < f.die)) (fun s => s.wr R.MON_TEMP_MAX_C (toField 8 f.die))
  let s := s.cond (decide (old ≤ 100) && decide (100 < f.die)) (fun s => s.detect 164 0)
  s.cond (decide (old ≤ 105) && decide (105 < f.die)) (fun s => s.detect 165 0)

/-! ### Rails (R403 to R405) -/

/-- The run counters of a rail advanced by one sample: kinds 0 UV warn, 1 UV fault, 2 OV warn, 3 OV fault, 4 inside. The warn
levels move with the margin (R417). -/
def State.railRuns (s : State) (i mv : Nat) : State :=
  let uw : Int := (s.rd (R.SEQ_RAIL_UV_WARN_MV i) : Int) + s.marginMv i
  let ow : Int := (s.rd (R.SEQ_RAIL_OV_WARN_MV i) : Int) + s.marginMv i
  let hit := fun (k : Nat) =>
    match k with
    | 0 => decide ((mv : Int) < uw)
    | 1 => decide (mv < s.rd (R.SEQ_RAIL_UV_FAULT_MV i))
    | 2 => decide (ow < (mv : Int))
    | 3 => decide (s.rd (R.SEQ_RAIL_OV_FAULT_MV i) < mv)
    | _ => decide (uw ≤ (mv : Int)) && decide ((mv : Int) ≤ ow)
  { s with seq := { s.seq with runs := (List.range 5).foldl (fun (m : NMap) k =>
      m.set (8 * i + k) (if hit k then min 15 (m.get (8 * i + k) + 1) else 0)) s.seq.runs } }

/-- A run of a rail's samples of one kind has reached `n`. -/
def State.railRun (s : State) (i k n : Nat) : Bool := decide (n ≤ s.seq.runs.get (8 * i + k))

/-- A rail reaches Fault (R405): counter, latches, `LAST_FAIL`, and the enable of an over-voltage with `OV_CUT`. -/
def State.railFail (s : State) (i : Nat) (ov : Bool) : State :=
  let s := s.wr (R.SEQ_RAIL_MV_STATE i) railFault
  let s := s.inc (if ov then R.SEQ_RAIL_CNT_OV_FAULT i else R.SEQ_RAIL_CNT_UV_FAULT i)
  let s := (s.wr R.SEQ_LAST_FAIL_RAIL i).wr R.SEQ_LAST_FAIL_KIND (if ov then 4 else 2)
  let s := s.detect (if ov then 123 else 121) 0
  let s := s.cond (s.flag (R.SEQ_RAIL_CFG_KILN i)) (fun s => (s.setCond 124 0 true).cond s.inKiln (fun s => s.detect 45 0))
  let s := s.loseRanks (s.rd (R.SEQ_RAIL_CFG_EN i))
  let s := s.cond (s.rd (R.SEQ_RAIL_MARGIN_PCT10 i) != 0 || s.rd (R.SEQ_RAIL_MARGIN_ACT10 i) != 0) (fun s =>
    (s.dropMargin i).showMargins)
  s.cond (ov && s.flag (R.SEQ_RAIL_CFG_OV_CUT i) && decide (s.rd (R.SEQ_RAIL_CFG_EN i) < 48)) (fun s =>
    s.clrEnables (2 ^ s.rd (R.SEQ_RAIL_CFG_EN i)))

/-- A rail goes to Warn, counted once (Table 14-3). -/
def State.railWarns (s : State) (i : Nat) (ov : Bool) : State :=
  if s.railSt i = railWarn then s
  else
    let s := s.wr (R.SEQ_RAIL_MV_STATE i) railWarn
    let s := s.inc (if ov then R.SEQ_RAIL_CNT_OV_WARN i else R.SEQ_RAIL_CNT_UV_WARN i)
    ((s.wr R.SEQ_LAST_FAIL_RAIL i).wr R.SEQ_LAST_FAIL_KIND (if ov then 3 else 1)).detect (if ov then 122 else 120) 0

/-- Whether no kiln-critical rail is in Fault any more, which ends the condition of F124. -/
def State.railsCalm (s : State) : Bool :=
  (List.range 32).all (fun i => !(s.flag (R.SEQ_RAIL_CFG_USED i) && s.flag (R.SEQ_RAIL_CFG_KILN i) && s.railSt i == railFault))

/-- One sample of a used rail moves its state (Table 14-3). -/
def State.railSample (s : State) (i : Nat) : State :=
  let mv := (s.reading i).toNat
  let s := (s.wr (R.SEQ_RAIL_MV_MV i) mv).railRuns i mv
  let n := s.rd (R.SEQ_RAIL_CFG_FILT i) + 1
  let en := s.rd (R.SEQ_RAIL_CFG_EN i)
  let high := en == 63 || s.bit R.SEQ_EN en
  let below := decide (10 * mv < s.rd (R.SEQ_RAIL_NOM i))
  let st := s.railSt i
  if s.railOrdered i = false then s.wr (R.SEQ_RAIL_MV_STATE i) railUnmon
  else if st = railUnmon then s.wr (R.SEQ_RAIL_MV_STATE i) (if high then railRising else if below then railOff else railFalling)
  else if st = railOff then (if high && !(en == 63 && below) then s.wr (R.SEQ_RAIL_MV_STATE i) railRising else s)
  else if st = railRising then (if s.railRun i 4 1 then s.wr (R.SEQ_RAIL_MV_STATE i) railGood else s)
  else if st = railFalling then (if below then s.wr (R.SEQ_RAIL_MV_STATE i) railOff else s)
  else if en = 63 ∧ below then s.wr (R.SEQ_RAIL_MV_STATE i) railOff
  else if st ≠ railFault ∧ s.railRun i 1 n then s.railFail i false
  else if st ≠ railFault ∧ s.railRun i 3 n then s.railFail i true
  else if st = railGood ∧ s.railRun i 0 n then s.railWarns i false
  else if st = railGood ∧ s.railRun i 2 n then s.railWarns i true
  else if st ≠ railGood ∧ s.railRun i 4 10 then s.wr (R.SEQ_RAIL_MV_STATE i) railGood
  else s

/-- Every used rail whose sense is not stale. -/
def State.sampleRails (s : State) : State :=
  let s := s.each 32 (fun s i => s.cond (s.flag (R.SEQ_RAIL_CFG_USED i) && !s.flag (R.MON_IN_STAT_STALE i)) (fun s =>
    s.railSample i))
  s.cond (s.condAny 124 && s.railsCalm) (fun s => s.setCond 124 0 false)

/-! ### The charge clock (R44, R45, R486) -/

/-- The voltages of the packs that are present. The KNM-1608-E, which has no gauge, has the hold-up bus's own (assumption 151). -/
def State.packVolts (s : State) : List Nat :=
  if s.variant.gauge then
    (s.packs.filter (fun p => s.rd (R.PK_STAT_STATE p) != pkAbsent)).map (fun p => s.rd (R.PK_VOLT_PACK_MV p))
  else [s.rd R.MON_HOLDUP]

/-- Charge that the estimate counts in one frame, in millionths of a µC, rounded up: the bus power through the current sense over
the lowest present pack voltage, plus 10 %; or, without the sense, the fixed rate while a pack path carries the bus (R45, R486). -/
def State.estimatePc (s : State) : Nat :=
  if s.flag R.MON_BUS_ISNS_EN then
    let vs := s.packVolts
    let v := vs.foldl min (vs.headD 0)
    if v = 0 then 0 else (s.rd R.MON_HOLDUP_I * s.rd R.MON_HOLDUP * 110000 + v - 1) / v
  else if s.packCarries then max (2 * s.rd R.BUD_I_KILN_CT_PER_S) 4000 * 1000000
  else 0

/-- The charge clock takes one frame: the summed shunt charge, or the estimate, drawn charge only; remainders are carried. -/
def State.chargeFrame (s : State) (f : Frame) : State :=
  let s := s.cond s.track.estEnds (fun s =>
    { s with track := { s.track with estEnds := false } }.wr R.PHS_STAT_CT_EST 0)
  let est := s.flag R.PHS_STAT_CT_EST
  let frac := if est then s.track.remEst + s.estimatePc else s.track.remEst
  let s := { s with track := { s.track with remEst := frac % 1000000 } }
  let uc : Int := if est then ((frac / 1000000 : Nat) : Int) else f.ucA + (if s.variant.gauge then f.ucB else 0)
  let d := s.track.remDrawn + uc.toNat
  let r := s.track.remRet + (-uc).toNat
  let s := (s.wr R.PHS_CT_DRAWN (s.rd R.PHS_CT_DRAWN + d / 10000)).wr R.PHS_CT_RET (s.rd R.PHS_CT_RET + r / 10000)
  let sum := s.track.rateUc + uc
  let n := s.track.rateFrames + 1
  let s := { s with track := { s.track with remDrawn := d % 10000, remRet := r % 10000 } }
  if n < 1000 then { s with track := { s.track with rateUc := sum, rateFrames := n } }
  else
    let s := { s with track := { s.track with rateUc := 0, rateFrames := 0 } }
    (s.wr R.PHS_CT_RATE_RATE (min (2 ^ 20 - 1) (sum.natAbs / 1000))).wr R.PHS_CT_RATE_DIR (b2n (decide (sum < 0)))

/-! ### One pack (R380 to R388) -/

/-- NTC inputs of a port. -/
def ntcInputs (p : Nat) : List Nat := if p = 0 then [36, 37] else [44, 45]
/-- First tap input of a port. -/
def tapInput (p : Nat) : Nat := if p = 0 then 32 else 40

/-- k_T of Table 13-4 for the coldest NTC; none where the pack is excluded. -/
def deratingOf (cold hot : Int) : Option Nat :=
  if cold < -10 ∨ 60 < hot then none
  else if cold < 0 then some 60
  else if cold < 5 then some 80
  else if cold < 15 then some 90
  else some 100

/-- Temperatures of a pack: readings, k_T, the NTC fault and the temperature exclusion (R387, Table 13-4). -/
def State.packTemp (s : State) (p : Nat) (f : Frame) : State :=
  let s := (s.wr (R.PK_TEMP_NTC0 p) (toField 8 (s.reading ((ntcInputs p).headD 0)))).wr (R.PK_TEMP_NTC1 p)
    (toField 8 (s.reading ((ntcInputs p).headD 0 + 1)))
  let ok := (ntcInputs p).filter (fun i => !f.ntcBad.contains i)
  let ts := ok.map (fun i => s.reading i)
  if s.rd (R.PK_STAT_STATE p) < 3 then s
  else
    match ts with
    | [] => (s.wr (R.PK_E_K_T p) 60).cond (!s.bit (R.FLT_STAT (0xA9 + p)) 7) (fun s => s.detect 150 p)
    | t :: rest =>
      let was := s.bit (R.PK_STAT_UNCOUNT p) 3
      match deratingOf (rest.foldl min t) (rest.foldl max t) with
      | some k => (s.wr (R.PK_E_K_T p) k).cond was (fun s => s.uncount p 3 false)
      | none => s.cond (!was) (fun s => (s.detect 151 p).uncount p 3 true)

/-- Counted charge of a pack (R380, R383): Q_cc falls by what is drawn, rises by what is returned times the efficiency; U grows by
0.5 % of every ct counted, rounded up as the Malthouse example rounds it. -/
def State.packCharge (s : State) (p : Nat) (uc : Int) : State :=
  let k := s.pack p
  let d := k.remDrawn + uc.toNat
  let r := k.remRet + (-uc).toNat * clampTo 900 1000 (s.rd (R.PK_SHUNT_EFF_PERMILLE p))
  let dn := d / 10000
  let up := r / 10000000
  let q := min (s.rd (R.PK_CAP p)) (s.rd (R.PK_Q_CC p) - dn + up)
  let u := ceilDiv (5 * (dn + up) - k.remU) 1000
  let s := s.setPack p { k with remDrawn := d % 10000, remRet := r % 10000000, remU := k.remU + 1000 * u - 5 * (dn + up),
                                learnDrawn := k.learnDrawn + dn - up }
  (s.wr (R.PK_Q_CC p) q).wr (R.PK_UNC p) (min 0xFFFFFF (s.rd (R.PK_UNC p) + u))

/-- The voltage interval of a frame; the first of a cold-started pack gives Q_cc and U (R382, R386). -/
def State.packInterval (s : State) (p : Nat) (iv : Option (Nat × Nat)) (returning : Bool) : State :=
  match iv with
  | none => s
  | some (lo, hi) =>
    if returning then s
    else
      let k := s.pack p
      let v := s.curve p lo hi
      let s := (s.setPack p { k with vLo := v.1, haveV := true, firstV := false }).wr (R.PK_Q_VHI p) v.2
      s.cond k.firstV (fun s => (s.wr (R.PK_Q_CC p) (min v.1 (s.rd (R.PK_CAP p)))).wr (R.PK_UNC p)
        (2 * s.rd (R.PK_CAP p) / 100))

/-- A resistance value enters the mean of the last eight (R382). -/
def State.packRi (s : State) (p : Nat) (ri : Option Nat) : State :=
  match ri with
  | none => s
  | some v =>
    let l := (v :: (s.pack p).ri).take 8
    (s.setPack p { s.pack p with ri := l }).wr (R.PK_RES_MOHM10 p) (meanOf l)

/-- A raise that enters over 60 s goes on (R388). -/
def State.packRamp (s : State) (p : Nat) : State :=
  let k := s.pack p
  if k.rampFrames = 0 then s
  else s.setPack p { k with rampLeft := k.rampLeft - ceilDiv k.rampLeft k.rampFrames, rampFrames := k.rampFrames - 1 }

/-- One frame of a fitted pack. -/
def State.packFrame (s : State) (p : Nat) (f : Frame) : State :=
  let uc := if p = 0 then f.ucA else f.ucB
  let cells := (List.range (s.cells p)).map (fun c => (s.reading (tapInput p + c)).toNat)
  let s := s.each 4 (fun s c => s.wr (R.PK_CELL p c) (cells.getD c 0))
  let s := (s.wr (R.PK_VOLT_PACK_MV p) cells.sum).wr (R.PK_VOLT_IMBAL_MV p)
    (cells.foldl max 0 - cells.foldl min (cells.headD 0))
  let s := s.wr (R.PK_CURRENT p) (toField 32 (10 * uc))
  let s := (s.packTemp p f).packCharge p uc
  let s := s.packInterval p (if p = 0 then f.ivA else f.ivB) (decide (uc < 0))
  let s := s.cond (decide (s.rd (R.PK_CAP p) ≤ 180000 * uc.natAbs)) (fun s => s.wr (R.PK_STAT_AT_REST p) 0)
  ((s.packRi p (if p = 0 then f.riA else f.riB)).packRamp p).chargeCheck p

/-! ### Coefficient banks and comparator swaps -/

/-- What waits for a frame boundary: coefficient banks switch (R492), the old slice of a swap leaves, and a trimmed slice moves one
tap (R497). -/
def State.frameEdge (s : State) : State :=
  let s := s.cal.banks.foldl (fun s b => (s.wr (R.CAL_GAIN b.1) b.2.1).wr (R.CAL_OFS b.1) b.2.2) s
  let s := s.cal.swaps.foldl (fun s b => s.wr (R.MON_CMP_STAT_PARALLEL b.1) 0) s
  let s := { s with cal := { s.cal with banks := [], swaps := [] } }
  let moved := s.cal.trimLeft.map (fun (t : Nat × Int) => (t.1, if 0 < t.2 then t.2 - 10 else t.2 + 10))
  let step := fun (s : State) (t : Nat × Int) =>
    let dac := s.rd (R.MON_CMP_STAT_DAC t.1)
    (s.wr (R.MON_CMP_STAT_DAC t.1) (if 0 < t.2 then dac - 1 else dac + 1)).wr
      (R.MON_CMP_OFS (s.rd (R.MON_CMP_STAT_ACTIVE t.1)) t.1) (toField 16 (if 0 < t.2 then t.2 - 10 else t.2 + 10))
  let s := s.cal.trimLeft.foldl step s
  { s with cal := { s.cal with trimLeft := moved.filter (fun t => decide (5 < t.2.natAbs)) } }

/-- Housekeeping: an ADC outside 5 % counts as being calibrated from then on; `VREF_EXT` (R493, Table 18-6). -/
def State.housekeeping (s : State) (f : Frame) : State :=
  let new := f.hkBad.filter (fun a => !s.cal.badAdc.has a)
  let s := { s with cal := { s.cal with badAdc := new.foldl RSet.insert1 s.cal.badAdc } }
  let s := s.cond (!new.isEmpty) (fun s => s.detect 162 0)
  if s.flag R.CAL_CTRL_VREF_EN then
    let ok := decide (2450 ≤ f.vref) && decide (f.vref ≤ 2550)
    let was := s.cal.vrefStopped
    let s := ({ s with cal := { s.cal with vrefStopped := !ok } }).wr R.CAL_STAT_VREF_OK (b2n ok)
    s.cond (!ok && !was) (fun s => s.detect 178 0)
  else s

/-- A conversion frame completes (R484). -/
def State.frame (s : State) (f : Frame) : State :=
  let s := (((s.frameEdge).storeReadings f).storeSupplies f).sampleRails
  let s := (s.chargeFrame f).housekeeping f
  let s := s.packs.foldl (fun s p => s.cond (s.rd (R.PK_STAT_STATE p) != pkAbsent) (fun s => s.packFrame p f)) s
  let s := s.cond (!s.variant.gauge) (fun s => s.wr (R.PK_CURRENT 0) (toField 32 (10 * f.ucA)))
  f.occ.foldl (fun s o => s.occur o.1 o.2) s.gaugeShow

def execConversionFrame (f : Frame) (s : State) : Host.Outcome State Fault Refusal := .next (finish (s.begin.frame f))

end Sys2Proof.Machine
end

