-- ==== Sys2Proof/Machine/Dram.lean ====
section
/-!
DEFINITION. Machine/Dram.lean: the DRAM channels' errors, patrol, retirement and sparing (R116 to R125, R129) and their
commands.
-/

namespace Sys2Proof.Machine

open Sys2Proof

/-! ### Where a granule lies in its rank (Table 05-2) -/

/-- The local index without its rank field: the rank stands lowest where `RANK_MAP` is 1 (R113). -/
def State.inRank (s : State) (l : Nat) : Nat := if s.rd (R.DMC_CFG_RANK_MAP 0) = 0 then l else l / s.ranks

/-- The row number of a local granule: above segment, bank group, bank and chip ID. -/
def State.rowOf (s : State) (l : Nat) : Nat :=
  let low := 5 + (if s.rd (R.DMC_GEOM_DENSITY (s.dmcOf 0)) = 1 then 1 else 2) + s.rd (R.DMC_GEOM_CHIP_ID_BITS (s.dmcOf 0))
  s.inRank l / 2 ^ low % 2 ^ (s.rd (R.DMC_GEOM_ROW_BITS (s.dmcOf 0)) + 14)

/-- The row segment, bank group, bank and chip ID of a local granule, and the burst of a line: the fields below the row (R112,
Table 05-2). -/
def State.segOf (s : State) (l : Nat) : Nat := s.inRank l % 4
def State.bgOf (s : State) (l : Nat) : Nat := s.inRank l / 4 % 8
def State.bankOf (s : State) (l : Nat) : Nat :=
  s.inRank l / 32 % (if s.rd (R.DMC_GEOM_DENSITY (s.dmcOf 0)) = 1 then 2 else 4)
def State.chipOf (s : State) (l : Nat) : Nat :=
  s.inRank l / (if s.rd (R.DMC_GEOM_DENSITY (s.dmcOf 0)) = 1 then 64 else 128) % 2 ^ s.rd (R.DMC_GEOM_CHIP_ID_BITS (s.dmcOf 0))
def burstOf (n : Nat) : Nat := n / 2 % 32

/-- The column of a line: its burst within the row, 32 in each segment. -/
def State.columnOf (s : State) (l n : Nat) : Nat := 32 * s.segOf l + burstOf n

/-- The local granules that share a row segment group, four of them (R119). -/
def State.rowMates (s : State) (l : Nat) : List Nat :=
  if s.rd (R.DMC_CFG_RANK_MAP 0) = 0 then (List.range 4).map (fun j => l / 4 * 4 + j)
  else (List.range 4).map (fun j => l % s.ranks + (l / s.ranks / 4 * 4 + j) * s.ranks)

/-- The key of the row that holds the place of a granule: channel and the first local granule of the row. -/
def State.rowKey (s : State) (g : Nat) : Nat :=
  let p := s.placeOf g
  s.chanOf p + 16 * ((s.rowMates (s.localOf p)).headD 0)

/-- Channel, rank and subchannel of a line's place in one number. -/
def State.subKey (s : State) (g l : Nat) : Nat :=
  let p := s.placeOf g
  16 * s.chanOf p + 2 * s.rankOf p + l % 2

/-- A DRAM event record about a granule (R125): channel, rank, bank group, bank, row, column of the line, and the mask of the
device corrected, 0 where none applies; to the Informational log (assumption 12). -/
def State.dramEvent (s : State) (g n kind device : Nat) : State :=
  let p := s.placeOf g
  let l := s.localOf p
  s.event 0 .dram (some g) [kind, s.chanOf p, s.rankOf p, s.bgOf l, s.bankOf l, s.rowOf l, s.columnOf l n,
    if device < 10 then 2 ^ device else 0]

/-! ### Retirement (R119, R121) -/

/-- Spare slots in use. -/
def State.slotsUsed (s : State) : Nat := s.dram.retire.length + s.dram.retiring.length

/-- The lowest free spare slot. -/
def State.freeSlot (s : State) : Option Nat :=
  (List.range (s.dram.retire.length + 1)).find? (fun n =>
    decide (n < s.rd R.DRS_POOL_SLOTS) && !s.dram.retire.any (fun e => e.2 == n + 1))

/-- `LOW_PCT` as treated: 1 to 15; 0 as 1 (DESIGN CHOICE, assumption 156). -/
def State.lowPct (s : State) : Nat := max 1 (s.rd R.DRS_CTRL_LOW_PCT)

/-- The pool's registers and the pool-low and pool-exhausted states (R121). -/
def State.showPool (s : State) : State :=
  let n := s.dram.retire.length
  let slots := s.rd R.DRS_POOL_SLOTS
  let s := (s.wr R.DRS_POOL_USED n).wr R.DRS_RETIRED n
  let low := decide ((slots - n) * 100 < s.lowPct * slots)
  let out := decide (slots ≤ n)
  let s := s.cond (low != s.condAny 17) (fun s => s.setCond 17 0 low)
  s.cond (out != s.condAny 18) (fun s => s.setCond 18 0 out)

/-- A retire copy of a granule begins, where retirement is on, a slot is free and no kiln has reached K3 (R119, R120). -/
def State.retireStart (s : State) (g : Nat) : State :=
  if s.works 0x30 = false ∨ s.flag R.DRS_CTRL_RETIRE_EN = false ∨ s.pastK3 ∨ s.dram.retire.get g ≠ 0 ∨
      s.dram.retiring.contains g then s
  else if s.rd R.DRS_POOL_SLOTS ≤ s.slotsUsed then s.setCond 18 0 true
  else { s with dram := { s.dram with retiring := s.dram.retiring ++ [g] } }

/-! ### Corrected errors (R119, R123, R124) -/

/-- A second device of a spared subchannel has failed: the rank is degraded (R124). -/
def State.degrade (s : State) (g : Nat) : State :=
  let p := s.placeOf g
  if s.dram.degraded.has (8 * s.chanOf p + s.rankOf p) then s
  else
    let s := { s with dram := { s.dram with degraded := s.dram.degraded.insert1 (8 * s.chanOf p + s.rankOf p) } }
    (s.wr R.DRS_SPARE_STAT_DEGRADED s.dram.degraded.card).setCond 22 0 true

/-- A sparing copy begins, or a second device of a spared subchannel marks the rank degraded. -/
def State.spareStart (s : State) (g l device : Nat) : State :=
  let p := s.placeOf g
  let k := s.subKey g l
  match s.dram.spared.get k with
  | 0 =>
    if s.works 0x30 = false ∨ s.flag R.DRS_CTRL_SPARE_EN = false ∨ s.pastK3 ∨ s.flag R.DRS_SPARE_PROG_ACTIVE then s
    else
      let s := { s with dram := { s.dram with spared := s.dram.spared.set k (device + 1), sparingLeft := s.perRank,
                                              sparingAll := s.perRank } }
      let s := ((s.wr R.DRS_SPARE_PROG_CH (s.dmcOf (s.chanOf p))).wr R.DRS_SPARE_PROG_RANK (s.rankOf p)).wr
        R.DRS_SPARE_PROG_SUB (l % 2)
      let s := ((s.wr R.DRS_SPARE_PROG_PCT 0).wr R.DRS_SPARE_PROG_ACTIVE 1).wr R.DRS_SPARE_STAT_SPARED
        s.dram.spared.length
      (s.detect 21 0).dramEvent g l 3 device
  | d + 1 =>
    if d = device then s else s.degrade g

/-- One corrected error of a line: counted, and the thresholds of its row and its device looked at over the last 24 h, each reached
threshold with its record (R125). A row whose errors reach `CE_ROW_THR` is the one that R122 calls recorded; the row of an
uncorrectable error alone is not (DESIGN CHOICE, assumption 192). -/
def State.corrected (s : State) (g l device : Nat) : State :=
  let c := s.dmcOf (s.chanOf (s.placeOf g))
  let row := s.rowKey g
  let dev := 16 * s.subKey g l + device
  let now := s.opsec
  let errs := (s.dram.errs.filter (fun e => decide (now < e.2.2 + 86400))) ++ [(row, dev, now)]
  let s := (({ s with dram := { s.dram with errs := errs } } : State).inc (R.DMC_CE_CNT c)).healthNote
  let inRow := (errs.filter (fun e => e.1 == row)).length
  let rowsOf := fun (l : List (Nat × Nat × Nat)) => ((l.filter (fun e => e.2.1 == dev)).map (fun e => e.1)).eraseDups.length
  let top := max 2 (s.rd (R.DMC_THR_DEV_ROWS c))
  let p := s.placeOf g
  let mates := (s.rowMates (s.localOf p)).map (s.granuleAt (s.chanOf p))
  let due := s.dram.pendRows.any (fun r => r.granules == mates)
  let s := s.cond (decide (max 2 (s.rd (R.DMC_THR_CE_ROW_THR c)) ≤ inRow) && !due) (fun s =>
    let s : State := { s with dram := { s.dram with pendRows := s.dram.pendRows ++
      [{ chan := s.chanOf p, rank := s.rankOf p, row := s.rowOf (s.localOf p), granules := mates }] } }
    let s := ((s.wr R.DRS_PPR_PEND s.dram.pendRows.length).detect 8 c).dramEvent g l 1 device
    mates.foldl State.retireStart s)
  let s := s.cond (decide (top ≤ rowsOf errs) && decide (rowsOf errs.dropLast < top)) (fun s => s.dramEvent g l 6 device)
  s.cond (decide (top ≤ rowsOf errs)) (fun s => s.spareStart g l device)

/-! ### Uncorrectable errors (R116, R117) -/

/-- The failing line counted and recorded; of another device than the one spared, it marks the rank degraded (R116, R124). -/
def State.recordUe (s : State) (g l device : Nat) : State :=
  let p := s.placeOf g
  let c := s.dmcOf (s.chanOf p)
  let s := (s.inc (R.DMC_UE_CNT_COUNT c)).wr (R.DMC_LAST_UE c) g
  let s := ((s.wr (R.DMC_LAST_UE_LOC_RANK c) (s.rankOf p)).wr (R.DMC_LAST_UE_LOC_DEVICE c) (min 15 device)).wr
    (R.DMC_LAST_UE_LOC_SUB c) (l % 2)
  let s := s.wr (R.DMC_LAST_UE_LOC_ROW c) (s.rowOf (s.localOf p))
  let d := s.dram.spared.get (s.subKey g l)
  s.cond (d != 0 && decide (device < 10) && d != device + 1) (fun s => s.degrade g)

/-- The granule can be refilled from a current flash copy: clean, not volatile, with a copy (R117). -/
def State.refillable (s : State) (g : Nat) : Bool := !s.isDirty g && !s.inVol g && s.hasCopy g

/-- A clean granule with a flash copy marked unfilled for its repair, its region partial (R264); it is retired once its fill has
ended (R117). -/
def State.refill (s : State) (g : Nat) (held : List (Nat × Nat × Nat)) (demand : Bool) : State :=
  let c := s.dmcOf (s.chanOf (s.placeOf g))
  let r := g / granulesPerRegion
  let s := { s with steep := { s.steep with unfilled := s.steep.unfilled.insert1 g,
                                            partials := if s.steep.partials.contains r then s.steep.partials
                                              else s.steep.partials ++ [r] } }
  let s := ((s.showSteep).inc (R.DMC_UE_CNT_REFILLS c)).detect 9 c
  let s : State := if demand then s.raiseFill g held
    else if s.filling g then s
    else { s with steep := { s.steep with fills := s.steep.fills ++ [{ granule := g, demand := false, held := [] }] } }
  if s.dram.retireAfter.contains g then s
  else { s with dram := { s.dram with retireAfter := s.dram.retireAfter ++ [g] } }

/-- The refill of a granule has ended: it is retired (R117). -/
def State.retireRefilled (s : State) (g : Nat) : State :=
  if s.dram.retireAfter.contains g ∧ s.unfilled g = false then
    ({ s with dram := { s.dram with retireAfter := s.dram.retireAfter.filter (fun x => x != g) } }).retireStart g
  else s

/-- A line that cannot be repaired: stored poisoned, listed (Table 05-3). -/
def State.poisonUe (s : State) (g l : Nat) : State :=
  let c := s.dmcOf (s.chanOf (s.placeOf g))
  let s := s.cond (s.isDirty g) (fun s => s.detect 10 c)
  (s.setPoison g l true).retireStart g

/-- A General Media record about a granule (R95). -/
def State.mediaEvent (s : State) (g : Nat) : State := s.event 2 .generalMedia (some g) [g % 2 ^ 32, g / 2 ^ 32]

/-! ### Patrol (R118) -/

/-- What the patrol meets in one line: unfilled granules are skipped (Table 09-7), errors handled by Table 05-3. -/
def State.patrolLine (s : State) (e : Nat × Ecc) : State :=
  let g := e.1 / 64
  let l := e.1 % 64
  if s.unfilled g ∨ s.isPoison g l then s
  else
    match e.2 with
    | .clean => s
    | .corrected d => s.corrected g l d
    | .failing d =>
      let s := s.recordUe g l d
      if s.refillable g then s.refill g [] false else s.poisonUe g l

/-- The DRAM can be read: the device runs, its ranks are not in self-refresh, and no kiln has reached K3. -/
def State.dramUp (s : State) : Bool :=
  s.steepReady && s.rd R.PWR_STAT_STATE != 2 && !s.pastK3 && decide (s.power.life = .running)

/-- Every channel's pass is at least as far as its share of `HOURS` since it began (R432). -/
def State.patrolOnTime (s : State) : Bool :=
  (List.range s.chN).all (fun i =>
    let c := s.dmcOf i
    let h := 3600 * min 168 (s.rd (R.DMC_PATROL_HOURS c))
    let spent := s.opsec - max s.steep.readyOps (s.dram.patrolFrom.get c)
    decide (s.rd (R.DMC_GRAN c) * spent ≤ s.dram.patrolPos.get c * h) || h == 0)

/-- R118: a pass has not completed within 1.25 times `HOURS`. -/
def State.patrolLate (s : State) (c : Nat) : State :=
  if s.rd (R.DMC_PATROL_HOURS c) = 0 then s else s.detect 14 c

def execPatrolOverdue (chan : Nat) (s : State) : Host.Outcome State Fault Refusal :=
  .next (finish (s.begin.patrolLate (chan % 16)))

/-! ### Sparing and shedding -/

/-- The record of the end of a sparing copy (R125): channel, rank and device; no bank, row or column applies to a whole rank. -/
def State.spareEnd (s : State) : State :=
  let c := ((List.range s.chN).find? (fun c => s.dmcOf c == s.rd R.DRS_SPARE_PROG_CH)).getD 0
  let d := s.dram.spared.get (16 * c + 2 * s.rd R.DRS_SPARE_PROG_RANK + s.rd R.DRS_SPARE_PROG_SUB)
  (s.wr R.DRS_SPARE_PROG_ACTIVE 0).event 0 .dram none
    [4, c, s.rd R.DRS_SPARE_PROG_RANK, 0, 0, 0, 0, if d = 0 then 0 else 2 ^ (d - 1)]

/-- What a sparing copy meets in one line: of an unfilled granule it reads the masked lines only (Table 09-7). -/
def State.spareLine (s : State) (e : Nat × Ecc) : State :=
  let g := e.1 / 64
  let l := e.1 % 64
  if s.unfilled g = false then s.patrolLine e
  else if (s.mask g).getLsbD l = false ∨ s.isPoison g l then s
  else
    match e.2 with
    | .clean => s
    | .corrected d => s.corrected g l d
    | .failing d => (s.recordUe g l d).poisonUe g l

/-- R123: one more granule of the rank rewritten into the spared layout, with what the ECC finds in its lines (R114); the last one
ends the copy with its record (R125). -/
def State.spareStep (s : State) (found : List (Nat × Ecc)) : State :=
  if s.flag R.DRS_SPARE_PROG_ACTIVE = false ∨ s.dramUp = false then s
  else
    let s := found.foldl State.spareLine s
    let left := s.dram.sparingLeft - 1
    let s := { s with dram := { s.dram with sparingLeft := left } }
    let s := s.wr R.DRS_SPARE_PROG_PCT ((s.dram.sparingAll - left) * 100 / max 1 s.dram.sparingAll)
    s.cond (left == 0) State.spareEnd

def execSparingCopyStep (found : List (Nat × Ecc)) (s : State) : Host.Outcome State Fault Refusal :=
  .next (finish (s.begin.spareStep found))

/-- R129: a rank does not acknowledge shed entry: it stays active, the kiln goes on. -/
def State.shedLate (s : State) (c r : Nat) : State :=
  if s.inKiln ∧ s.rd (R.DMC_RANK_PWR (s.dmcOf c) r) = 2 ∧ s.dram.shedding.has (8 * c + r) then
    (({ s with dram := { s.dram with noShed := s.dram.noShed.insert1 (8 * c + r), shedding := s.dram.shedding.erase1 (8 * c + r) } }).wr
      (R.DMC_RANK_PWR (s.dmcOf c) r) 0).detect 13 (s.dmcOf c)
  else s

def execRankShedTimeout (chan rank : Nat) (s : State) : Host.Outcome State Fault Refusal :=
  .next (finish (s.begin.shedLate (chan % 16) (rank % 8)))

end Sys2Proof.Machine
end

