-- ==== Sys2Proof/Machine/Host.lean ====
section
/-!
DEFINITION. Machine/Host.lean: host memory traffic, the links of the CXL ports, HDM decoders and Global Persistent Flush
(chapter 04).
-/

namespace Sys2Proof.Machine

open Sys2Proof

/-! ### Serving memory -/

/-- Mailbox opcodes of Sanitize and Secure Erase (CXL specification). -/
def opSanitize : Nat := 0x4400
def opSecureErase : Nat := 0x4401

/-- A Sanitize or Secure Erase runs on some port (R209). -/
def State.wiping (s : State) : Bool :=
  [s.hostA, s.hostB].any (fun h => h.bg.any (fun b => b.opcode == opSanitize || b.opcode == opSecureErase))

/-- The ports serve host memory: Steep Ready has been reached and no Sanitize or Secure Erase runs (R556). -/
def State.serves (s : State) : Bool := s.steepReady && !s.wiping

/-- The Memory Device Status register: Media Status (1 Not Ready, 0 Ready), Memory_Active, Memory_Active_Timeout in seconds, Mailbox
Interface Ready (R102). -/
def State.deviceStatus (s : State) : List Nat :=
  [b2n (!s.steepReady), b2n s.steepReady, s.power.memTimeout, b2n s.power.mboxReady]

/-- The CDAT of the device: the persistent range of its DSMAS, base and length in bytes; read and write latency in ps and
bandwidth in MB/s of its DSLBIS, the typical figures of Table 04-9 for an idle row miss and the payload of a port at full width
(R80, R83). -/
def State.cdat (s : State) : List Nat := [0, s.decodable * 4096, 235000, 150000, 121000]

/-- The GPF DVSEC of a port: Phase 2 duration in µs and Phase 2 power in mW (R90). -/
def gpfDvsec : List Nat := [20, 95000]

/-- The port takes CXL.mem requests. -/
def State.memUp (s : State) (p : Nat) : Bool := s.hasPort p && s.linkUp p && s.flag (R.HP_LINK_STAT_CXL p)

/-- The load level of a request-queue occupancy in per cent (R93). The bands share their ends: exactly 60 % is Optimal Load, exactly
85 % Moderate Overload (DESIGN CHOICE, assumption 152). -/
def bwLoad (pct : Nat) : Nat := if pct < 25 then 0 else if pct ≤ 60 then 1 else if pct ≤ 85 then 2 else 3

/-- The occupancy of a port's request queue sets its level (R93). -/
def State.devLoad (s : State) (p pct : Nat) : State := s.wr (R.HP_LOAD_STAT_BW_LOAD p) (bwLoad pct)

/-- The granule lies in the port's slice and is decodable (R83, R84). -/
def State.decodes (s : State) (p g : Nat) : Bool := s.inSlice p g && decide (g < s.decodable)

/-! ### Writes -/

/-- Requests of the line are held behind a held write (R86). -/
def State.lineHeld (s : State) (g l : Nat) : Bool := s.steep.heldWrites.any (fun w => w.granule == g && w.line == l)

/-- A write of one line is held until its granule is filled: a partial write to a line not yet written, or a full set of the
line-mask table (R273); and one that comes after a held write of its line (R86). -/
def State.holds (s : State) (g l : Nat) (full setFull : Bool) : Bool :=
  s.unfilled g && ((!full && !(s.mask g).getLsbD l) || (full && setFull && !s.hasMask g) || s.lineHeld g l)

/-- The write joins the held ones and its granule's fill is raised (R273). -/
def State.holdWrite (s : State) (w : HeldWrite) (full : Bool) : State :=
  let s : State := { s with steep := { s.steep with heldWrites := s.steep.heldWrites ++ [w] } }
  ((s.inc R.STP_WAITS_MASK_HOLDS).cond full (fun s => s.detect 51 0)).raiseFill w.granule []

/-- Part of a line written: merged with what DRAM holds; a poisoned line stays poisoned, an uncorrectable error stores the line
poisoned (R115, R116). -/
def State.writePart (s : State) (g l : Nat) (bytes : List (Nat × Byte)) (ecc : Ecc) : State :=
  let s := (s.wrote g).mergeBytes g l bytes
  match ecc with
  | .clean => s
  | .corrected d => if s.isPoison g l then s else s.corrected g l d
  | .failing d => if s.isPoison g l then s else (s.recordUe g l d).poisonUe g l

/-- A host write of one line that the port serves (R11, R89, R135, R139, R271, R273). -/
def State.hostWrite (s : State) (p tag g l : Nat) (bytes : List (Nat × Byte)) (poison setFull : Bool) (ecc : Ecc) : State :=
  let full := poison || fullLine bytes
  let s := s.touch (g / granulesPerRegion)
  if s.holds g l full setFull then
    s.holdWrite { port := p, tag := tag, granule := g, line := l, poison := poison, data := bytes } full
  else
    (if full then s.writeLine g l (lineOf bytes) poison else s.writePart g l bytes ecc).respond p (.memDone p tag)

/-- A host access of one line: it waits while a retire copy of its granule runs (R119). -/
def State.access (s : State) (w : HeldWrite) (go : State → State) : State :=
  if s.dram.retiring.contains w.granule then { s with dram := { s.dram with waiting := s.dram.waiting ++ [w] } } else go s

/-- R11, R556: the line is a 64-byte line of the DPA space; `load` is the occupancy of the request queue. -/
def execHostWrite (port tag line load : Nat) (bytes : List (Nat × Byte)) (poison setFull : Bool) (ecc : Ecc) (s : State) :
    Host.Outcome State Fault Refusal :=
  let p := port % 2
  let s := s.begin
  if s.memUp p = false then .next (finish s)
  else
    let s := (s.devLoad p load).noQuiet.restExit
    if s.serves = false then .next (finish (s.respond p (.memDone p tag)))
    else if s.decodes p (line / 64) = false then .fault .dpaOutsideSlice
    else
      let w : HeldWrite := { port := p, tag := tag, granule := line / 64, line := line % 64, poison := poison, data := bytes }
      .next (finish (s.access w (fun s => s.hostWrite p tag (line / 64) (line % 64) bytes poison setFull ecc)))

/-! ### Reads -/

/-- A host read of one line that the port serves (R115 to R117, R266). -/
def State.hostRead (s : State) (p tag g l : Nat) (ecc : Ecc) : State :=
  if s.unfilled g ∧ s.lineHeld g l then
    let w : HeldWrite := { port := p, tag := tag, granule := g, line := l, poison := false, data := [], read := true }
    ({ s with steep := { s.steep with heldWrites := s.steep.heldWrites ++ [w] } }).raiseFill g []
  else if s.unfilled g ∧ ¬ (s.mask g).getLsbD l then s.raiseFill g [(p, tag, l)]
  else if s.isPoison g l then s.respond p (.memPoison p tag)
  else
    match ecc with
    | .clean => s.answerRead p tag g l
    | .corrected d => (s.corrected g l d).answerRead p tag g l
    | .failing d =>
      let s := s.recordUe g l d
      if s.refillable g then s.refill g [(p, tag, l)] true
      else ((s.poisonUe g l).respond p (.memPoison p tag)).mediaEvent g

def execHostRead (port tag line load : Nat) (ecc : Ecc) (s : State) : Host.Outcome State Fault Refusal :=
  let p := port % 2
  let s := s.begin
  if s.memUp p = false then .next (finish s)
  else
    let s := (s.devLoad p load).noQuiet.restExit
    if s.serves = false then .next (finish (s.respond p (.memPoison p tag)))
    else if s.decodes p (line / 64) = false then .fault .dpaOutsideSlice
    else
      let w : HeldWrite := { port := p, tag := tag, granule := line / 64, line := line % 64, poison := false, data := [], read := true }
      .next (finish (s.access w (fun s => s.hostRead p tag (line / 64) (line % 64) ecc)))

/-! ### The end of a retire copy (R119) -/

/-- What the ECC finds in a line that a retire copy reads: corrected, or carried as poison (R114, R116, R119); of an unfilled
granule the masked lines only (Table 09-7). -/
def State.retireLine (s : State) (e : Nat × Ecc) : State :=
  let g := e.1 / 64
  let l := e.1 % 64
  if s.isPoison g l ∨ (s.unfilled g ∧ (s.mask g).getLsbD l = false) then s
  else
    match e.2 with
    | .clean => s
    | .corrected d => s.corrected g l d
    | .failing d => ((s.recordUe g l d).cond (s.isDirty g) (fun s => s.detect 10 (s.dmcOf (s.chanOf (s.placeOf g))))).setPoison g l true

/-- A retire copy ends: the table entry switches in one step, the granule's dirty count moves to the rank of its slot, the rest
of the granule stays as it is (R119, R128). -/
def State.retireDone (s : State) (g : Nat) (found : List (Nat × Ecc)) : State :=
  if s.dram.retiring.contains g then
    let s := (found.filter (fun e => e.1 / 64 == g)).foldl State.retireLine s
    let s := { s with dram := { s.dram with retiring := s.dram.retiring.filter (fun x => x != g) } }
    match s.freeSlot with
    | none => s.showPool
    | some n =>
      let dirty := s.isDirty g
      let s := (s.dramEvent g 0 2 15).cond dirty (fun s => s.rankSub g)
      let s := { s with dram := { s.dram with retire := s.dram.retire.set g (n + 1) } }
      (s.cond dirty (fun s => s.rankAdd g)).showPool
  else s

/-- The host accesses that waited for the copy of a granule go on, in the order of their arrival (R119). -/
def State.runWaiting (s : State) (g : Nat) : State :=
  let mine := s.dram.waiting.filter (fun w => w.granule == g)
  let s := { s with dram := { s.dram with waiting := s.dram.waiting.filter (fun w => w.granule != g) } }
  mine.foldl (fun s w =>
    if w.read then s.hostRead w.port w.tag g w.line .clean else s.hostWrite w.port w.tag g w.line w.data w.poison false .clean) s

def execRetireCopyDone (granule : Nat) (found : List (Nat × Ecc)) (s : State) : Host.Outcome State Fault Refusal :=
  .next (finish ((s.begin.retireDone granule found).runWaiting granule))

/-! ### Links -/

/-- The device holds its ports up: a start runs or has ended, and no kiln has reached K3 (R88, R107). -/
def State.portsOn (s : State) : Bool :=
  (match s.power.life with
    | .starting => true
    | .running => true
    | .recovery => true
    | .off => false
    | .dormant => false
    | .failed => false
    | .goingDown => false) && !(s.inKiln && decide (3 ≤ s.kilnPhase))

/-- The link of a port is down: its registers, its queues, and its part of a kiln's K2 (R92, R311). -/
def State.dropLink (s : State) (p : Nat) : State :=
  let s := (((s.wr (R.HP_LINK_STAT_UP p) 0).wr (R.HP_LINK_STAT_WIDTH p) 0).wr (R.HP_LINK_STAT_RATE p) 0).wr
    (R.HP_LINK_STAT_CXL p) 0
  (((s.wr (R.HP_LINK_STAT_FLIT256 p) 0).dropPortQueues p).k2PortDone p).healthNote

/-- R82: the link goes down. -/
def State.linkDown (s : State) (p : Nat) : State :=
  if s.hasPort p && s.linkUp p then
    let explained := (s.host p).downExplained || s.inKiln || !s.flag (R.ENABLE (0x10 + p))
    let s := s.setHost p { s.host p with gpfWait := false }
    (s.cond (!explained) (fun s => s.detect 0 p)).dropLink p
  else s

def execLinkDown (port : Nat) (s : State) : Host.Outcome State Fault Refusal :=
  .next (finish (s.begin.linkDown (port % 2)))

/-- What a conventional or hot reset does to a port: configuration space, decoders, mailbox, whose `OPCODE` is 0 from then on
(DESIGN CHOICE, assumption 190), and link; not DRAM, the dirty set, the persistence state or
the other port (R82). A Sanitize that runs goes on. -/
def State.resetPort (s : State) (p : Nat) : State :=
  let h := s.host p
  let keep := h.bg.filter (fun b => b.opcode == opSanitize || b.opcode == opSecureErase)
  let s := s.setHost p { h with decoders := [], ways := [], notCommitted := 0, policy := [0, 0, 0, 0], msixOn := false, mailIrq := 0, gpfWait := false, bg := keep,
                                waiting := none, downExplained := true }
  let s := s.dropHeld p
  let s := ((s.wr (R.HP_DEC_STAT_COMMITTED p) 0).wr (R.HP_DEC_STAT_REJECTED p) 0).wr (R.HP_MBOX_BUSY p) 0
  let s := ((s.wr (R.HP_MBOX_OPCODE p) 0).wr (R.HP_MBOX_BG p) (b2n keep.isSome)).wr (R.HP_MBOX_PCT p) 0
  s.dropLink p

/-- R82: `perst` where the pin caused it; the pin resets the port in P0, P1 and P2 only. -/
def State.portReset (s : State) (p : Nat) (perst : Bool) : State :=
  let s := s.cond perst (fun s => s.setHost p { s.host p with perstN := false })
  if s.hasPort p && s.portsOn && decide (s.rd R.PWR_STAT_STATE ≤ 2) then (s.restExit).resetPort p else s

def execPortReset (port : Nat) (perst : Bool) (s : State) : Host.Outcome State Fault Refusal :=
  .next (finish (s.begin.portReset (port % 2) perst))

/-- Interleave ways and granularity that the decoders support (Table 04-1). -/
def interleaveOk (ways gran : Nat) : Bool :=
  [1, 2, 4, 8, 16].contains ways && [256, 512, 1024, 2048, 4096, 8192, 16384].contains gran

/-- R84: decoder `n` commits `size` units of 256 MiB from `base` on, or is refused. An interleave that is not supported does not
commit either (R80). -/
def State.decoderCommit (s : State) (p n base size ways gran : Nat) : State :=
  if s.hasPort p && s.linkUp p && decide (n < 8) then
    let lo := s.rd (R.HP_SLICE_BASE p)
    let h := s.host p
    let others := h.decoders.filter (fun d => d.1 != n)
    let h := { h with ways := h.ways.filter (fun d => d.1 != n) }
    if interleaveOk ways gran = false then
      let s := s.setHost p { h with decoders := others, notCommitted := h.notCommitted ||| 2 ^ n }
      (s.setBit (R.HP_DEC_STAT_COMMITTED p) n false).setBit (R.HP_DEC_STAT_REJECTED p) n false
    else if lo ≤ base ∧ base + size ≤ lo + s.rd (R.HP_SLICE_SIZE p) then
      let h := { h with ways := h.ways ++ [(n, ways, gran)] }
      let s := s.setHost p { h with decoders := others ++ [(n, base, size)], notCommitted := h.notCommitted &&& (255 ^^^ 2 ^ n) }
      (s.setBit (R.HP_DEC_STAT_COMMITTED p) n true).setBit (R.HP_DEC_STAT_REJECTED p) n false
    else
      let s := s.setHost p { h with decoders := others, notCommitted := h.notCommitted ||| 2 ^ n }
      ((s.setBit (R.HP_DEC_STAT_COMMITTED p) n false).setBit (R.HP_DEC_STAT_REJECTED p) n true).detect 7 p
  else s

def execDecoderCommit (port n base size ways gran : Nat) (s : State) : Host.Outcome State Fault Refusal :=
  .next (finish (s.begin.restExit.decoderCommit (port % 2) n base size ways gran))

/-! ### Global Persistent Flush -/

/-- R90: Phase 1 is answered at once. -/
def execGpfPhase1 (port : Nat) (s : State) : Host.Outcome State Fault Refusal :=
  .next (finish (s.begin.cond (s.begin.hasPort (port % 2) && s.begin.linkUp (port % 2)) (fun s =>
    s.restExit.send (.gpf (port % 2) 1))))

/-- R90: a Phase 2 request waits for the writes received before it. -/
def State.gpfRequest (s : State) (p : Nat) : State :=
  let s := s.setHost p { s.host p with gpfWait := true }
  let mark := fun (l : List HeldWrite) => l.map (fun (w : HeldWrite) => if w.port = p ∧ w.read = false then { w with flush := true } else w)
  { s with steep := { s.steep with heldWrites := mark s.steep.heldWrites }, dram := { s.dram with waiting := mark s.dram.waiting } }

def execGpfPhase2Request (port : Nat) (s : State) : Host.Outcome State Fault Refusal :=
  .next (finish (s.begin.cond (s.begin.hasPort (port % 2) && s.begin.linkUp (port % 2)) (fun s =>
    s.restExit.gpfRequest (port % 2))))

/-- R90, R92: every earlier write has been accepted by its DRAM channel. From K3 on no completion is sent (R88). -/
def State.gpfDone (s : State) (p : Nat) : State :=
  if (s.host p).gpfWait ∧ s.linkUp p ∧ s.portsOn ∧ ¬ (s.steep.heldWrites ++ s.dram.waiting).any (fun w => w.port == p && w.flush) then
    let s := (s.setHost p { s.host p with gpfWait := false }).wr (R.HP_GPF_P2_DONE p) 1
    (s.send (.gpf p 2)).k2PortDone p
  else s

def execGpfPhase2Done (port : Nat) (s : State) : Host.Outcome State Fault Refusal :=
  .next (finish (s.begin.gpfDone (port % 2)))

/-- R92: the port reaches its window in K2. -/
def State.gpfLate (s : State) (p : Nat) : State :=
  if s.inKiln ∧ s.kilnPhase ≤ 2 ∧ s.kiln.k2Wait.contains p then
    ((s.wr (R.HP_GPF_P2_LATE p) 1).detect 3 p).k2PortDone p
  else s

def execGpfWindowExpired (port : Nat) (s : State) : Host.Outcome State Fault Refusal :=
  .next (finish (s.begin.gpfLate (port % 2)))

/-! ### Mailbox timeout -/

/-- R105: a mailbox command has waited 1 s. -/
def State.mboxLate (s : State) (p : Nat) : State := s.cond (s.host p).waiting.isSome (fun s => s.detect 6 p)

def execMailboxTimeout (port : Nat) (s : State) : Host.Outcome State Fault Refusal :=
  .next (finish (s.begin.mboxLate (port % 2)))

end Sys2Proof.Machine
end

