-- ==== Sys2Proof/Machine/Mailbox.lean ====
section
/-!
DEFINITION. Machine/Mailbox.lean: the mailbox commands of the host ports that concern the device, its events, poison, the cask
key, the slices and the records (R95 to R105, R201, R207 to R209, R224, R369, R473, R479). Payloads are lists of words in the
order that each docstring gives (assumption 13).
-/

namespace Sys2Proof.Machine

open Sys2Proof

/-! ### The mailbox (R103, R105) -/

/-- The payload of a mailbox in bytes: Payload Size = 16, a power of two (R103). -/
def payloadBytes : Nat := 2 ^ 16

/-- Further CXL return codes (assumption 13): Invalid Handle, Invalid Physical Address. -/
def rcHandle : Nat := 14
def rcAddress : Nat := 15

/-- The processor that owns what a command works on, where that is not MGMT (Table 01-5): the command reaches it through the
inter-processor mailbox (R18). -/
def mailOwner (op : Nat) : Option Proc :=
  if op = 0xC050 then some .fabric
  else if op = 0xC010 then some .safety
  else if op = 0xC020 ∨ op = 0xC021 ∨ op = opSanitize ∨ op = opSecureErase then some .cellar
  else none

/-- The owner of a command's work does not run, so the command waits in the inter-processor mailbox (R18). -/
def State.ownerStops (s : State) (op : Nat) : Bool :=
  match mailOwner op with
  | none => false
  | some .fabric => s.variant.fabric && !s.runs .fabric
  | some .cellar => !s.runs .cellar
  | some .sentinel => !s.runs .sentinel
  | some .mgmt => !s.runs .mgmt
  | some .safety => !s.runs .safety

/-- Command `c` of port `p`: it waits, held whole, while MGMT or the processor that owns its work is stopped (R18, R105, R521), and
the mailbox takes no other one meanwhile; before Steep Ready only the commands of R103 are taken, a device-wide setting only from
an admin port. -/
def State.mbox (s : State) (c : Instr) (p op : Nat) (early admin : Bool) (body : State → State) : State :=
  if s.hasPort p = false ∨ s.linkUp p = false ∨ (s.host p).waiting.isSome then s
  else if s.runs .mgmt = false ∨ s.ownerStops op then
    ((s.setHost p { s.host p with waiting := some op }).wr (R.HP_MBOX_BUSY p) 1).hold c
  else
    let s := ((s.wr (R.HP_MBOX_BUSY p) 0).wr (R.HP_MBOX_OPCODE p) op).restExit
    if s.steepReady = false ∧ early = false then s.reply p rcBusy []
    else if admin ∧ s.isAdmin p = false then s.reply p rcUnsupported []
    else body s

/-- A mailbox command that answers with words and changes nothing else. -/
def State.mboxRead (s : State) (c : Instr) (p op : Nat) (early : Bool) (words : State → List Nat) : State :=
  s.mbox c p op early false (fun s => s.reply p rcSuccess (words s))

/-- A hold of ST1 in which Sanitize, Secure Erase and Rack Export are taken (R103). -/
def State.hold23 (s : State) : Bool := s.rd R.STP_STAT_HOLD == 2 || s.rd R.STP_STAT_HOLD == 3

/-! ### Identity and health -/

/-- Identify: total, volatile and persistent capacity in units of 256 MiB, records of each event log, label storage bytes, poison
list entries, inject-poison limit (R80, R83). -/
def State.identifyWords (s : State) : List Nat :=
  [s.decodable / 65536, 0, s.decodable / 65536, 256, 256, 256, 256, 131072, 65536, 65536]

def execIdentify (port : Nat) (s : State) : Host.Outcome State Fault Refusal :=
  .next (finish (s.begin.mboxRead (.identify port) (port % 2) 0x4000 true State.identifyWords))

/-- Get Health Info: Health Status, Media Status, Life Used, temperature in °C as its register holds it, dirty shutdown count,
corrected volatile and persistent errors (Table 04-7). -/
def State.healthWords (s : State) (p : Nat) : List Nat :=
  [s.healthStatus, s.mediaStatus, min 100 (s.rd R.CEL_LIFE_USED / 100), s.rd R.MON_TEMP_DIE_C, s.rd (R.HP_DSC p), 0, s.ceTotal]

def execGetHealthInfo (port : Nat) (s : State) : Host.Outcome State Fault Refusal :=
  .next (finish (s.begin.mboxRead (.getHealthInfo port) (port % 2) 0x4200 true (fun s => s.healthWords (port % 2))))

/-! ### Event records -/

/-- The UUID of a Corirvo vendor record (R96). -/
def vendorUuid : Nat := 0x7c1a9e405d2b4f819a360b4e6d2c8f15

/-- A record as words: handle, kind (0 General Media, 1 DRAM, 2 Memory Module, the UUID of a vendor record), granule plus one, the record's own
words. -/
def EvtRec.toWords (r : EvtRec) : List Nat :=
  [r.handle, (match r.kind with
    | .generalMedia => 0
    | .dram => 1
    | .memoryModule => 2
    | .vendor _ => vendorUuid), (r.granule.map (fun g => g + 1)).getD 0] ++ r.words

/-- Get Event Records: the overflow flag, the count, and the records, oldest first. -/
def State.eventWords (s : State) (p log : Nat) : List Nat :=
  let l := (s.host p).logs.getD log []
  [b2n (s.bit (R.HP_EVT_OVF p) log), l.length] ++ (l.map EvtRec.toWords).flatten

def execGetEventRecords (port log : Nat) (s : State) : Host.Outcome State Fault Refusal :=
  .next (finish (s.begin.mboxRead (.getEventRecords port log) (port % 2) 0x0100 true (fun s => s.eventWords (port % 2) (log % 4))))

/-- Clear Event Records: all of a log, or the oldest ones by their handles in order; a handle out of order is Invalid Handle
and clears none. The overflow bit clears with the room (assumption 13). -/
def State.clearEvents (s : State) (p log : Nat) (all : Bool) (handles : List Nat) : State :=
  let h := s.host p
  let l := h.logs.getD log []
  if all = false ∧ (l.take handles.length).map (fun r => r.handle) ≠ handles then s.reply p rcHandle []
  else
    let l := if all then [] else l.drop handles.length
    let s := (s.setHost p { h with logs := h.logs.set log l }).wr (evtPend p log) l.length
    (s.cond (decide (l.length < 256)) (fun s => s.setBit (R.HP_EVT_OVF p) log false)).reply p rcSuccess []

def execClearEventRecords (port log : Nat) (all : Bool) (handles : List Nat) (s : State) :
    Host.Outcome State Fault Refusal :=
  .next (finish (s.begin.mbox (.clearEventRecords port log all handles) (port % 2) 0x0101 true false (fun s => s.clearEvents (port % 2) (log % 4) all handles)))

/-! ### Logs, firmware, timestamp, alerts, shutdown state -/

/-- An answer whose contents the spec does not give: one word, open (assumption 2). -/
def State.openReply (s : State) (p : Nat) : State :=
  let v := s.takeFree 32
  v.2.reply p rcSuccess [v.1]

def execGetSupportedLogs (port : Nat) (s : State) : Host.Outcome State Fault Refusal :=
  .next (finish (s.begin.mbox (.getSupportedLogs port) (port % 2) 0x0400 true false (fun s => s.openReply (port % 2))))

def execGetLog (port : Nat) (s : State) : Host.Outcome State Fault Refusal :=
  .next (finish (s.begin.mbox (.getLog port) (port % 2) 0x0401 true false (fun s => s.openReply (port % 2))))

/-- Get FW Info: two slots, the slot that runs, the staged slot (0 none), and the version of each slot's package (R80). -/
def State.fwWords (s : State) : List Nat :=
  let ver := fun (b : Option Package) => (b.map (fun k => k.version)).getD 0
  let staged := if s.rd R.UPD_STAT_STATE = 3 then s.rd R.UPD_STAT_STAGE_BANK + 1 else 0
  [2, s.rd R.UPD_STAT_RUN_BANK + 1, staged, ver s.update.bank0, ver s.update.bank1]

def execGetFwInfo (port : Nat) (s : State) : Host.Outcome State Fault Refusal :=
  .next (finish (s.begin.mboxRead (.getFwInfo port) (port % 2) 0x0200 true State.fwWords))

/-- Get Timestamp: the seconds set plus the operating seconds since; 0 where none was set. -/
def execGetTimestamp (port : Nat) (s : State) : Host.Outcome State Fault Refusal :=
  .next (finish (s.begin.mboxRead (.getTimestamp port) (port % 2) 0x0300 true (fun s => [s.hostNow - 1])))

/-- R201: the unpowered interval that a Set Timestamp supplies, before Steep Ready or in place of an assumed one. A time
earlier than the stored one counts as 0 and is logged. -/
def State.hostUnpow (s : State) (seconds : Nat) : State :=
  let src := s.rd R.CEL_UNPOW
  if s.cellar.hostStored ≠ 0 ∧ ((s.steepReady = false ∧ src = 0) ∨ src = 3) then
    let stored := s.cellar.hostStored - 1
    let iv := seconds - stored
    let s := s.cond (decide (seconds < stored)) (fun s => s.notice 0x70)
    let s := { s with cellar := { s.cellar with unpow := s.cellar.unpow - s.cellar.assumed + iv, assumed := 0 } }
    (((s.wr R.CEL_UNPOW 2).wr R.CEL_UNPOW_S (min iv (2 ^ 32 - 1))).ageGauge 0).ageGauge 1
  else s

/-- Set Timestamp, in seconds; the time is the device's, so only an admin port sets it (R103, R201). -/
def State.setTime (s : State) (p seconds : Nat) : State :=
  let s := s.hostUnpow seconds
  ({ s with hostTime := seconds + 1, hostTimeAt := s.opsec }).reply p rcSuccess []

def execSetTimestamp (port seconds : Nat) (s : State) : Host.Outcome State Fault Refusal :=
  .next (finish (s.begin.mbox (.setTimestamp port seconds) (port % 2) 0x0301 true true (fun s => s.setTime (port % 2) seconds)))

def execGetAlertConfiguration (port : Nat) (s : State) : Host.Outcome State Fault Refusal :=
  .next (finish (s.begin.mboxRead (.getAlertConfiguration port) (port % 2) 0x4201 false (fun s => (s.host (port % 2)).alert)))

/-- Set Alert Configuration: the thresholds as the host gives them. -/
def State.setAlert (s : State) (p : Nat) (limits : List Nat) : State :=
  (s.setHost p { s.host p with alert := limits }).reply p rcSuccess []

def execSetAlertConfiguration (port : Nat) (limits : List Nat) (s : State) : Host.Outcome State Fault Refusal :=
  .next (finish (s.begin.mbox (.setAlertConfiguration port limits) (port % 2) 0x4202 false false (fun s => s.setAlert (port % 2) limits)))

/-- Set Shutdown State: kept; the dirty shutdown count does not depend on it (R100). -/
def State.setShutdown (s : State) (p v : Nat) : State :=
  (s.setHost p { s.host p with shutdown := v }).reply p rcSuccess []

def execSetShutdownState (port value : Nat) (s : State) : Host.Outcome State Fault Refusal :=
  .next (finish (s.begin.mbox (.setShutdownState port value) (port % 2) 0x4204 false false (fun s => s.setShutdown (port % 2) value)))

/-! ### Poison -/

/-- A background command is taken where none runs on the port (R103). -/
def State.background (s : State) (p : Nat) (body : State → State) : State :=
  if (s.host p).bg.isSome then s.reply p rcBusy [] else body (s.reply p rcBackground [])

/-- Poisoned lines of `[lo, hi)` of the poison set listed at a port, granule by granule (R97, R99). -/
def State.relistLines (s : State) (p lo hi : Nat) : State :=
  ((s.dram.poison.slice (lo * 64) (hi * 64)).toList).foldl (fun s x => s.listAt (x / 64) false (lineBit (x % 64)) p) s

/-- Scan Media of `n` granules from `base` on, with what the ECC finds: errors by Table 05-3 (R80); lines the full list had no
room for are listed, and the overflow clears when the slice is covered and the list has room (R99). -/
def State.scanMedia (s : State) (p base n : Nat) (found : List (Nat × Ecc)) : State :=
  if s.decodes p base = false ∨ s.decodes p (base + n - 1) = false then s.reply p rcAddress []
  else s.background p (fun s =>
    let mine := found.filter (fun e => decide (base ≤ e.1 / 64) && decide (e.1 / 64 < base + n))
    let s := mine.foldl State.patrolLine s
    let ovf := s.flag (R.HP_POISON_OVERFLOW p)
    let s := s.cond ovf (fun s => s.relistLines p base (base + n))
    let h := s.host p
    let seen := if ovf then h.scanned.add base (base + n) else []
    let lo := s.rd (R.HP_SLICE_BASE p) * 65536
    let hi := min s.decodable (lo + s.rd (R.HP_SLICE_SIZE p) * 65536)
    let clears := ovf && (RSet.diff [(lo, hi)] seen).isEmpty && decide (s.rd (R.HP_POISON_ENTRIES p) < 65536)
    let s := s.setHost p { h with scanned := if clears then [] else seen }
    (s.cond clears (fun s => s.wr (R.HP_POISON_OVERFLOW p) 0)).bgEnd p 0x4304 rcSuccess [])

def execScanMedia (port base n : Nat) (found : List (Nat × Ecc)) (s : State) : Host.Outcome State Fault Refusal :=
  .next (finish (s.begin.mbox (.scanMedia port base n found) (port % 2) 0x4304 false false (fun s => s.scanMedia (port % 2) base n found)))

/-- Get Poison List of `n` granules from `base` on: the overflow flag, whether more entries follow, then granule, whole-granule flag
and line mask of each entry (R97, R99); 2,730 entries of three 8-byte words fill the payload of 64 KiB (R103). -/
def State.poisonWords (s : State) (p base n : Nat) : List Nat :=
  let l := (s.host p).poison.filter (fun e => decide (base ≤ e.granule) && decide (e.granule < base + n))
  [b2n (s.flag (R.HP_POISON_OVERFLOW p)), b2n (decide (payloadBytes / 24 < l.length))] ++
    ((l.take (payloadBytes / 24)).map (fun e => [e.granule, b2n e.whole, e.lines.toNat])).flatten

def execGetPoisonList (port base n : Nat) (s : State) : Host.Outcome State Fault Refusal :=
  .next (finish (s.begin.mboxRead (.getPoisonList port base n) (port % 2) 0x4300 false (fun s => s.poisonWords (port % 2) base n)))

/-- A mailbox write of one whole line: Inject Poison and Clear Poison (R98, R271); held as R273 states, its answer then comes
with its fill. -/
def State.mailWrite (s : State) (p line : Nat) (bytes : List (Nat × Byte)) (poison setFull : Bool) : State :=
  let g := line / 64
  let l := line % 64
  if s.decodes p g = false then s.reply p rcAddress []
  else if s.holds g l true setFull then
    s.holdWrite { port := p, tag := 0, granule := g, line := l, poison := poison, data := bytes, mail := true } true
  else (s.writeLine g l (lineOf bytes) poison).reply p rcSuccess []

def execInjectPoison (port line : Nat) (setFull : Bool) (s : State) : Host.Outcome State Fault Refusal :=
  .next (finish (s.begin.mbox (.injectPoison port line setFull) (port % 2) 0x4301 false false (fun s => s.mailWrite (port % 2) line [] true setFull)))

def execClearPoison (port line : Nat) (bytes : List Byte) (setFull : Bool) (s : State) : Host.Outcome State Fault Refusal :=
  .next (finish (s.begin.mbox (.clearPoison port line bytes setFull) (port % 2) 0x4302 false false (fun s =>
    s.mailWrite (port % 2) line ((List.range 64).map (fun i => (i, bytes.getD i 0))) false setFull)))

/-! ### Sanitize and Secure Erase (R209) -/

/-- The command begins in the background; in ST0 to ST3 it is refused with Busy, but for holds 2 and 3 (R80, R103). -/
def State.wipeStart (s : State) (p op : Nat) : State :=
  if s.rd R.STP_STAT_PHASE ≠ 4 ∧ s.hold23 = false then s.reply p rcBusy []
  else s.background p (fun s =>
    let s := s.setHost p { s.host p with bg := some { opcode := op, words := [] } }
    (s.wr (R.HP_MBOX_BG p) 1).wr (R.HP_MBOX_PCT p) 0)

def execSanitize (port : Nat) (s : State) : Host.Outcome State Fault Refusal :=
  .next (finish (s.begin.mbox (.sanitize port) (port % 2) opSanitize s.hold23 true (fun s => s.wipeStart (port % 2) opSanitize)))

def execSecureErase (port : Nat) (s : State) : Host.Outcome State Fault Refusal :=
  .next (finish (s.begin.mbox (.secureErase port) (port % 2) opSecureErase s.hold23 true (fun s => s.wipeStart (port % 2) opSecureErase)))

/-- The new cask key: both wrapped copies under the device key alone, sealed mode ended (R206, R209). -/
def State.newKey (s : State) : State :=
  let n := s.rd R.CRY_KEY_EPOCH + 1
  let s := ({ s with cellar := { s.cellar with keyed := true } }).putWraps
    { keyEpoch := n, hostKey := 0, gen := s.rd R.CRY_STAT_WRAP_GEN, readable := true }
  (((s.wr R.CRY_KEY_EPOCH n).wr R.CRY_STAT_SEALED 0).wr R.CRY_STAT_LOCKED 0).wr R.CRY_STAT_KEY_VALID 1

/-- Every map and directory entry at `STATE` 0: no copy, no chained log, no cask (R209, R262). A stop that was sealed stays so
(R100). -/
def State.emptyCellar (s : State) : State :=
  let bad := s.unsealedStart true true
  let s := { s with cellar := { s.cellar with
    epoch := s.cellar.epoch.map (fun (e : Nat × Bool) => (e.1, e.2 && bad)),
    map := [], loaded := [], base := [], dir := [], mapDirty := [], dirKiln := [], dirLost := [], chain := [], slot0 := none, slot1 := none,
    slot0Erased := true, slot1Erased := true, ckptOk0 := true, ckptOk1 := true, corrupt := [] } }
  (((s.wr R.CEL_LOST 0).wr R.CEL_FOLD 0).showMap).showChain

/-- The host-visible DRAM zeroed: nothing poisoned, nothing dirty (R12, R209). -/
def State.zeroDram (s : State) : State :=
  let n := s.rd R.CAP_HOST
  let s := (((s.cleanRange 0 n).dropCopies 0 n).fenceClean 0 n)
  let s := { s with dram := { s.dram with mem := [], poison := [] } }
  s.each s.variant.ports (fun s p => (s.setHost p { s.host p with poison := [] }).showPoison p)

/-- R209: the four actions are done and the command completes; in a hold of ST1 the DRAM is left alone and the start goes on. -/
def State.wipeDone (s : State) (p : Nat) : State :=
  match (s.host p).bg with
  | none => s
  | some b =>
    if (b.opcode = opSanitize ∨ b.opcode = opSecureErase) ∧ ¬ (s.inKiln ∧ 3 ≤ s.kilnPhase) then
      let s := (s.newKey).emptyCellar
      let s := if s.steepReady then s.zeroDram else s.wr R.STP_STAT_HOLD 0
      let s := s.setHost p { s.host p with bg := none }
      ((s.wr (R.HP_MBOX_BG p) 0).wr (R.HP_MBOX_PCT p) 100).bgEnd p b.opcode rcSuccess []
    else s

def execSanitizeComplete (port : Nat) (s : State) : Host.Outcome State Fault Refusal :=
  .next (finish (s.begin.wipeDone (port % 2)))

/-! ### Vendor commands -/

/-- The header words of a page (Table 03-2). -/
def State.headerWords (s : State) (page : Nat) : List Nat := (List.range 10).map (fun i => s.headerWord page (4 * i))

/-- The `ID` page, its header and its fields in table order with `MAINT_UNLOCK` reading 0, then the `CAP` page (R75, R76, R104). -/
def State.infoWords (s : State) : List Nat :=
  s.headerWords 0x000 ++ [s.rd R.ID_PART_NUMBER, s.rd R.ID_PART_SUFFIX, s.rd R.ID_PART_STEPPING, s.rd R.ID_EUI] ++
    (List.range 6).map (fun i => s.rd (R.ID_FWVER i)) ++ [s.rd R.ID_BANK, s.rd R.ID_ROM_IF] ++
    (List.range 4).map (fun i => s.rd (R.ID_REPAIR i)) ++ [s.rd R.ID_ADMIN, s.rd R.ID_MODULE_ID, s.rd R.ID_MAINT_NONCE, 0] ++ s.headerWords 0x001 ++
    [s.rd R.CAP_DMC_FUSED, s.rd R.CAP_DMC_POPULATED, s.rd R.CAP_NCH_FUSED, s.rd R.CAP_NCH_POP, s.rd R.CAP_UNITS_HOST_PORTS,
      s.rd R.CAP_UNITS_FABRIC, s.rd R.CAP_UNITS_RACKING, s.rd R.CAP_UNITS_GAUGE, s.rd R.CAP_UNITS_PACK_PORTS,
      s.rd R.CAP_UNITS_LDPC_ACTIVE, s.rd R.CAP_QUEUES, s.rd R.CAP_CLK_ABSENT, s.rd R.CAP_DRAM, s.rd R.CAP_HOST,
      s.rd R.CAP_KEEP, s.rd R.CAP_DIES]

def execGetCorirvoInfo (port : Nat) (s : State) : Host.Outcome State Fault Refusal :=
  .next (finish (s.begin.mboxRead (.getCorirvoInfo port) (port % 2) 0xC000 true State.infoWords))

/-- The fields of `PST` in table order, then the words of the last previous-epoch report (Table 04-6, R104). -/
def State.reportWords (s : State) : List Nat :=
  [s.rd R.PST_SEQ, s.pstWord, s.rd R.PST_DIRTY, s.rd R.PST_BOUND, s.rd R.PST_EXCESS, s.rd R.PST_EPOCH, s.rd R.PST_PREV,
    s.rd R.PST_CHANGES] ++ s.power.report

def execGetPersistenceReport (port : Nat) (s : State) : Host.Outcome State Fault Refusal :=
  .next (finish (s.begin.mboxRead (.getPersistenceReport port) (port % 2) 0xC001 true State.reportWords))

/-- Poisoned lines of granules not yet filled, as their copies in the cellar mark them and no write has covered them, listed at a port
(R97). -/
def State.relistCopies (s : State) (p : Nat) : State :=
  s.cellar.flash.foldl (fun s (e : Nat × Codeword) =>
    let g := e.2.index
    if e.2.poison ≠ 0 ∧ s.unfilled g ∧ entAddr (s.entry g) = e.1 ∧ s.copyOf g = some e.2 ∧ s.inSlice p g then
      s.listAt g false (e.2.poison &&& ~~~ s.mask g) p
    else s) s

/-- The poison list of a port made anew for its slice: lost granules as one entry, other poisoned lines by line, in DRAM and, of
granules not yet filled, in their copies (R97). -/
def State.relist (s : State) (p : Nat) : State :=
  let s := (s.setHost p { s.host p with poison := [], scanned := [] }).showPoison p
  let lost := (s.cellar.map.filter (fun e => entState e.2 == 3 && s.inSlice p e.1)).map (fun e => e.1)
  let s := lost.foldl (fun s g =>
    let lines := if s.unfilled g then ~~~ s.mask g else s.poisonMask g
    s.listAt g true lines p) s
  let lo := s.rd (R.HP_SLICE_BASE p) * 65536
  (s.relistLines p lo (lo + s.rd (R.HP_SLICE_SIZE p) * 65536)).relistCopies p

/-- Two ranges share a unit. -/
def overlaps (aB aN bB bN : Nat) : Bool := decide (0 < aN) && decide (0 < bN) && decide (aB < bB + bN) && decide (bB < aB + aN)

/-- Set Partition (R85): Invalid Input, then Busy, then the new slices. -/
def State.setPartition (s : State) (p aB aN bB bN : Nat) : State :=
  let units := s.decodable / 65536
  let two := decide (1 < s.variant.ports)
  let outside := fun (q b n : Nat) => (s.host q).decoders.any (fun d => decide (d.2.1 < b) || decide (b + n < d.2.1 + d.2.2))
  if units < aB + aN ∨ (two ∧ (units < bB + bN ∨ (s.admin ≠ 2 ∧ overlaps aB aN bB bN))) then s.reply p rcInvalid []
  else if outside 0 aB aN ∨ (two ∧ outside 1 bB bN) then s.reply p rcBusy []
  else
    let s := { s with power := { s.power with partitioned := true } }
    let s := (s.wr (R.HP_SLICE_BASE 0) aB).wr (R.HP_SLICE_SIZE 0) aN
    let s := s.cond two (fun s => (s.wr (R.HP_SLICE_BASE 1) bB).wr (R.HP_SLICE_SIZE 1) bN)
    (s.each s.variant.ports State.relist).reply p rcSuccess []

def execSetPartition (port aBase aSize bBase bSize : Nat) (s : State) : Host.Outcome State Fault Refusal :=
  .next (finish (s.begin.mbox (.setPartition port aBase aSize bBase bSize) (port % 2) 0xC002 false true (fun s =>
    s.setPartition (port % 2) aBase aSize bBase bSize)))

/-- Planned Kiln (R224): Busy while the controller is Disarmed; while a kiln runs the trigger is counted (R223). It runs in the
background (Table 04-8): to K3, where it gets no completion (R105), or to the kiln's cancellation. -/
def State.plannedKiln (s : State) (p : Nat) (p3 group : Bool) : State :=
  if s.kilnLive = false then (s.fireTrigger 3 p3 group).reply p rcBusy []
  else s.background p (fun s =>
    let s := s.setHost p { s.host p with bg := some { opcode := 0xC010, words := [] } }
    ((s.wr (R.HP_MBOX_BG p) 1).wr (R.HP_MBOX_PCT p) 0).fireTrigger 3 p3 group)

def execPlannedKiln (port : Nat) (p3 group : Bool) (s : State) : Host.Outcome State Fault Refusal :=
  .next (finish (s.begin.mbox (.plannedKiln port p3 group) (port % 2) 0xC010 false true (fun s => s.plannedKiln (port % 2) p3 group)))

/-- Cask Unlock (R207, R208): a key that opens either copy unlocks and both copies take its wrap; another fails and backs off.
It answers Invalid Input where no unlock is awaited. -/
def State.caskUnlock (s : State) (p key : Nat) : State :=
  let a := s.cellar.wrapA
  let b := s.cellar.wrapB
  let opens := fun (w : WrapCopy) => w.readable && w.hostKey == key
  if s.flag R.CRY_STAT_LOCKED = false then s.reply p rcInvalid []
  else if s.rd R.CRY_UNLOCK_WAIT ≠ 0 then s.reply p rcBusy []
  else if opens a || opens b then
    let w := if opens a then a else b
    let s := (s.putWraps w).wr R.CRY_STAT_SEALED (b2n (w.hostKey != 0))
    let s := ((s.wr R.CRY_STAT_LOCKED 0).wr R.CRY_STAT_KEY_VALID 1).wr R.CRY_STAT_WRAP_GEN w.gen
    (s.cond (s.rd R.STP_STAT_HOLD == 1) (fun s => s.wr R.STP_STAT_HOLD 0)).reply p rcSuccess []
  else
    let n := s.rd R.CRY_STAT_UNLOCK_FAILS
    (((s.inc R.CRY_STAT_UNLOCK_FAILS).wr R.CRY_UNLOCK_WAIT (min 64 (2 ^ min 6 n))).detect 86 0).reply p rcInvalid []

def execCaskUnlock (port key : Nat) (s : State) : Host.Outcome State Fault Refusal :=
  .next (finish (s.begin.mbox (.caskUnlock port key) (port % 2) 0xC020 true true (fun s => s.caskUnlock (port % 2) key)))

/-- Set Cask Host Key (R208): after Steep Ready and with the correct current key; the first records slot takes the new wrap,
then the second, then the command completes. `second` is false where power is lost between the two writes. -/
def State.setHostKey (s : State) (p cur new : Nat) (second : Bool) : State :=
  if s.cellar.wrapA.hostKey ≠ cur then s.reply p rcInvalid []
  else
    let n := (s.rd R.CRY_STAT_WRAP_GEN + 1) % 256
    let w : WrapCopy := { s.cellar.wrapA with hostKey := new, gen := n, readable := true }
    let s := { s with cellar := { s.cellar with wrapA := w } }
    if second then
      let s := s.putWraps w
      ((s.wr R.CRY_STAT_WRAP_GEN n).wr R.CRY_STAT_SEALED (b2n (new != 0))).reply p rcSuccess []
    else s

def execSetCaskHostKey (port current new : Nat) (second : Bool) (s : State) : Host.Outcome State Fault Refusal :=
  .next (finish (s.begin.mbox (.setCaskHostKey port current new second) (port % 2) 0xC021 false true (fun s => s.setHostKey (port % 2) current new second)))

/-- Read Trouble Log (R473): the header `HEAD`, `OLDEST`, count, batch, and up to 2,047 entries from the first held at or above
the `SEQNO` asked for. -/
def State.tlogWords (s : State) (src first : Nat) : List Nat :=
  let log := if src = 1 then s.recs.snap else s.recs.live
  let head := if src = 1 then ((log.getLast?.map (fun e => e.seqno)).getD 0) + 1 else s.recs.nextSeq
  let out := (log.filter (fun e => decide (first ≤ e.seqno))).take (payloadBytes / 32 - 1)
  [head, (log.head?.map (fun e => e.seqno)).getD 0, out.length, s.recs.snapBatch % 2 ^ 32] ++ (out.map TEntry.toWords).flatten

/-- R473: live entries whose parity fails are discarded. -/
def State.tlogParity (s : State) (bad : List Nat) : State :=
  s.cond (s.recs.live.any (fun e => bad.contains e.seqno)) (fun s =>
    { s with recs := { s.recs with live := s.recs.live.filter (fun e => !bad.contains e.seqno) } }.showTlog.detect 201 0)

def execReadTroubleLog (port src first : Nat) (bad : List Nat) (s : State) : Host.Outcome State Fault Refusal :=
  .next (finish ((s.begin.tlogParity bad).mboxRead (.readTroubleLog port src first bad) (port % 2) 0xC040 false (fun s => s.tlogWords src first)))

/-- Read Event Recorder (R479): kind, code, `SEQ`, suppressed count and the window words of each allocated slot from a first slot
on; 819 slots of 80 bytes fill the payload. -/
def State.recWords (s : State) (first : Nat) : List Nat :=
  (((s.recs.slots.drop first).take (payloadBytes / 80)).map (fun (r : RecSlot) => [b2n r.extremes, r.code, r.seq, r.supp] ++ r.window)).flatten

def execReadEventRecorder (port first : Nat) (s : State) : Host.Outcome State Fault Refusal :=
  .next (finish (s.begin.mboxRead (.readEventRecorder port first) (port % 2) 0xC041 false (fun s => s.recWords first)))

/-! ### Rack Export (R369) -/

/-- One granule of a local guest volume as an export shows it: data, not held, unreadable or lost, with poisoned lines; without
the cask key no copy can be read. -/
def State.exportGranule (s : State) (v : Guest) (g : Nat) : Nat × Memory × LineMask :=
  if v.lost.has (g / granulesPerRegion) then (2, [], 0)
  else
    match s.racking.copies.find? (fun c => c.1 == v.slot && c.2.1 == g) with
    | none => (1, [], 0)
    | some c =>
      let w := c.2.2
      if s.flag R.CRY_STAT_KEY_VALID = false ∨ w.keyEpoch ≠ s.rd R.CRY_KEY_EPOCH then (2, [], 0)
      else (if w.poison = 0 then 0 else 3, Memory.mergeLines w.data [] w.poison, w.poison)

/-- The answer from a volume of this device. -/
def State.localExport (s : State) (owner first n : Nat) : Option ExportReply :=
  (s.racking.guests.find? (fun v => v.owner == owner)).map (fun v =>
    { gen := v.gen, flags := s.rd (R.RCK_GUEST_STAT_OWNER_REACH v.slot) + b2n v.fresh * 2, age := s.opsec - v.lastCommit,
      granules := (List.range n).map (fun i => s.exportGranule v (first + i)) })

/-- The output payload of Table 12-6 as 32-bit words: generation, flags, age in two words, 16 words of statuses of two bits each,
the line masks in two words each. -/
def ExportReply.toWords (r : ExportReply) : List Nat :=
  let st := fun (i : Nat) => ((r.granules.getD i (0, [], 0)).1) % 4
  [r.gen, r.flags % 256, r.age % 2 ^ 32, r.age / 2 ^ 32] ++
    (List.range 16).map (fun w => ((List.range 16).map (fun i => st (16 * w + i) * 4 ^ i)).sum) ++
    (List.range 256).flatMap (fun i =>
      let m := (r.granules.getD i (0, [], 0)).2.2.toNat
      [m % 2 ^ 32, m / 2 ^ 32])

/-- The export window of a port takes the granules, granule i at offset i × 4,096. -/
def State.setWindow (s : State) (p : Nat) (r : ExportReply) : State :=
  let w := (r.granules.zip (List.range r.granules.length)).foldl (fun (m : Memory) (e : (Nat × Memory × LineMask) × Nat) =>
    m.paste (granuleBytes * e.2) granuleBytes e.1.2.1) ([] : Memory)
  if p = 0 then { s with racking := { s.racking with window0 := w } }
  else { s with racking := { s.racking with window1 := w } }

/-- Rack Export: `target` 0 or the device's own EUI reads a local volume; for another device `remote` is what the fabric
brings, if it holds the volume. -/
def State.rackExport (s : State) (p target owner first n : Nat) (remote : Option ExportReply) : State :=
  let own := decide (target = 0) || target == s.rd R.ID_EUI
  if s.variant.fabric = false then s.reply p rcUnsupported []
  else if n = 0 ∨ 256 < n then s.reply p rcInvalid []
  else s.background p (fun s =>
    if own = false ∧ s.reachable target = false then s.bgEnd p 0xC050 rcRetry []
    else
      match (if own then s.localExport owner first n else remote) with
      | none => s.bgEnd p 0xC050 rcInvalid []
      | some r => ((s.setWindow p r).wr R.RCK_EXPORT_PCT 100).bgEnd p 0xC050 rcSuccess r.toWords)

def execRackExport (port target owner granule count : Nat) (remote : Option ExportReply) (s : State) :
    Host.Outcome State Fault Refusal :=
  .next (finish (s.begin.mbox (.rackExport port target owner granule count remote) (port % 2) 0xC050 s.hold23 true (fun s =>
    s.rackExport (port % 2) target owner granule count remote)))

end Sys2Proof.Machine
end

