-- ==== Sys2Proof/Machine/PageOps.lean ====
section
/-!
DEFINITION. Machine/PageOps.lean: who may write a register page (R57, R69 to R74), and the readiness checks that more than one
family uses.
-/

namespace Sys2Proof.Machine

open Sys2Proof

/-- The outcome of an access check: accepted, ignored without a trace, or ignored with `CFG_REJECT` set. -/
inductive Admit where
  | accept
  | ignore
  | reject
deriving DecidableEq, Repr

/-- The registers answer: the CONTROL domain is powered (R74). -/
def State.paged (s : State) : Bool :=
  match s.power.life with
  | .off => false
  | .dormant => false
  | .starting => true
  | .running => true
  | .failed => true
  | .recovery => true
  | .goingDown => true

/-- A host port is up to carry register accesses: no kiln has reached K3. -/
def State.portsAlive (s : State) : Bool := !(s.inKiln && decide (3 ≤ s.kilnPhase))

/-- The lock of a page holds against a write: it is set and maintenance access is not open (R70); a page with `MAINT_ONLY` is
locked against every write without that access (R71): `SQP`. -/
def State.lockHolds (s : State) (page : Nat) : Bool :=
  !s.maint.isOpen && (s.flag (R.LOCKED page) || maintOnly page)

/-- Whether a port may write a page: its own `HPx` page always, any other as `ID.ADMIN` selects (R72). -/
def State.portMay (s : State) (p page : Nat) : Bool := page == 0x10 + p || s.isAdmin p

/-- The access check of a register write, lock apart (R57, R62, R69, R72, R73). -/
def State.mayWrite (s : State) (who : Requester) (page : Nat) : Admit :=
  if pagePresent s.variant page = false ∨ s.paged = false then .ignore
  else if s.kiln.since ∧ kindK page then .ignore
  else
    match who with
    | .portA => if s.portsAlive = false then .ignore else if s.portMay 0 page then .accept else .reject
    | .portB =>
      if s.portsAlive = false ∨ s.hasPort 1 = false then .ignore else if s.portMay 1 page then .accept else .reject
    | .sideband => if sbAccess page = 2 ∧ s.maint.isOpen then .accept else .reject

/-- The access check with the lock: for RW fields (R70). -/
def State.admission (s : State) (who : Requester) (page : Nat) : Admit :=
  match s.mayWrite who page with
  | .accept => if s.lockHolds page then .reject else .accept
  | .ignore => .ignore
  | .reject => .reject

/-- The register pages answer a requester's reads: the CONTROL domain is powered; for a host port, no kiln has reached K3 (R74). -/
def State.answers (s : State) (who : Requester) : Bool :=
  s.paged &&
    (match who with
      | .portA => s.portsAlive
      | .portB => s.portsAlive && s.hasPort 1
      | .sideband => true)

/-- Whether a read returns the register rather than zeros: a present page, over the sideband one that it may read (R62, R73). -/
def State.mayRead (s : State) (who : Requester) (page : Nat) : Bool :=
  pagePresent s.variant page && s.answers who &&
    (match who with
      | .portA => true
      | .portB => true
      | .sideband => sbAccess page != 0)

/-- The value of a register read. -/
def State.giveReg (s : State) (who : Requester) (v : Nat) : State := s.send (.regData who v)

/-- A register write runs under its access check: `f` where accepted, `CFG_REJECT` where rejected. An accepted write is an exit
event of the rest states (R431). -/
def State.under (s : State) (a : Admit) (page : Nat) (f : State → State) : State :=
  match a with
  | .accept => f s.restExit
  | .ignore => s
  | .reject => s.reject page

/-- Limit of dirty map pages: the lesser of `DIRTY_MAX` and 163,840 (R246). -/
def State.mapLimit (s : State) : Nat := min (clampTo 4096 262144 (s.rd R.CEL_MAP_CTRL_DIRTY_MAX)) 163840

/-! ### Commands to a stopped processor (R18, R521) -/

/-- No processor that owns the page's block is stopped in service (Table 01-5). -/
def State.ownerRuns (s : State) (page : Nat) : Bool :=
  s.power.life != .running || s.halted.all (fun n => !(procPages n).contains page)

/-- Command `c` to the block of a page runs under its access check; while the processor that owns the block is stopped or in
hand-over it waits (R18, R521). -/
def State.command (s : State) (c : Instr) (a : Admit) (page : Nat) (f : State → State) : State :=
  s.under a page (fun s => if s.ownerRuns page then f s else s.hold c)

end Sys2Proof.Machine
end

