-- ==== Sys2Proof/Machine/Wither.lean ====
section
/-!
DEFINITION. Machine/Wither.lean: the scrub of the dirty bitmap, heat, the save bound, the wither engine and the copy race
(chapter 06).
-/

namespace Sys2Proof.Machine

open Sys2Proof

/-- The engines of the keep region run: a start has got as far as Steep Ready and no kiln has reached K3. -/
def State.live (s : State) : Bool := s.steepReady && !(s.inKiln && decide (3 ≤ s.kilnPhase)) && decide (s.power.life = .running)

/-! ### The scrub (R138) -/

/-- The 10 min period ends: a pass starts, or the next one waits for the running one. -/
def State.scrubStart (s : State) : State :=
  if s.live = false ∨ s.works 0x40 = false then s
  else if s.dirty.scrubRun then { s with dirty := { s.dirty with scrubDue := true } }
  else { s with dirty := { s.dirty with scrubRun := true } }

def execDirtyScrubStart (s : State) : Host.Outcome State Fault Refusal := .next (finish s.begin.scrubStart)

/-- R163: an uncorrectable error in the bitmap line of a region marks all its granules dirty. -/
def State.bitmapUe (s : State) (r : Nat) : State :=
  let s := s.markRange (r * granulesPerRegion) ((r + 1) * granulesPerRegion)
  let s := { s with dirty := { s.dirty with summary := s.dirty.summary.insert1 r } }
  (s.detect 26 0).setCond 24 0 true

/-- The per-rank counts as the dirty bits give them. -/
def State.rankTallies (s : State) : State :=
  (s.each 128 (fun s i => s.wr (R.DRT_RANK_DIRTY i) 0)).rankBulk s.dirty.bits true

/-- The pass ends: missing summary bits set, D and rank counts compared with the tallies and rewritten, summary bits of clean
regions cleared; `bad` lists regions whose bitmap line met an uncorrectable error (R138, R163). -/
def State.scrubPass (s : State) (bad : List Nat) : State :=
  if s.dirty.scrubRun = false ∨ s.pastK3 then s
  else
    let s := [24, 25].foldl (fun s n => s.cond (s.injWaits n 0) (fun s => s.injSeen n 0)) s
    let s := bad.foldl State.bitmapUe s
    let want := regionsOf s.dirty.bits
    let missing := (RSet.diff want s.dirty.summary).card
    let good := s.rankTallies
    let ranks := ((List.range 128).filter (fun i => good.rd (R.DRT_RANK_DIRTY i) != s.rd (R.DRT_RANK_DIRTY i))).length
    let counts := b2n (s.rd R.DRT_DIRTY != s.dirty.bits.card) + ranks
    let s := if ranks = 0 then s else good
    let s := (s.wr R.DRT_DIRTY s.dirty.bits.card).addSat R.DRT_SCRUB_MISMATCH (missing + counts + bad.length)
    let s := { s with dirty := { s.dirty with summary := want, scrubRun := s.dirty.scrubDue, scrubDue := false } }
    let s := (s.wr R.DRT_SUMMARY want.card).inc R.DRT_SCRUB_PASSES
    let s := s.cond (missing != 0 || (s.condAny 24 && bad.isEmpty)) (fun s => s.setCond 24 0 (missing != 0))
    s.cond (counts != 0 || s.condAny 25) (fun s => s.setCond 25 0 (counts != 0))

/-- The end of the granules of the regions below `hi`. -/
def State.regionEnd (s : State) (hi : Nat) : Nat := min (s.rd R.CAP_HOST) (hi * granulesPerRegion)

/-- R163: an uncorrectable error in the volatile range table. The records zone holds the table as it was last changed, so that the
reload gives it again (assumption 158); where that copy fails too, every range is persistent and dirty. -/
def State.volLost (s : State) (copyOk : Bool) : State :=
  if copyOk ∨ s.live = false then s
  else
    let was := s.dirty.vol
    let s := { s with dirty := { s.dirty with vol := [] } }
    was.foldl (fun s v => s.markRange (v.1 * granulesPerRegion) (s.regionEnd v.2)) s

/-- The scrub pass ends; `vol` tells of an error in the volatile range table, and whether the records zone's copy serves. -/
def State.scrubEnd (s : State) (bad : List Nat) (vol : Option Bool) : State :=
  (vol.elim s s.volLost).scrubPass bad

def execDirtyScrubEnd (bad : List Nat) (vol : Option Bool) (s : State) : Host.Outcome State Fault Refusal :=
  .next (finish (s.begin.scrubEnd bad vol))

/-! ### Heat (R139) -/

/-- A heat byte at the end of an epoch. -/
def heatNext (shift gain v : Nat) : Nat :=
  let lvl := v / 2
  let lvl := if lvl = 0 then 0 else lvl - max 1 (lvl / 2 ^ max 1 shift)
  2 * (if v % 2 = 1 then min 127 (lvl + gain) else lvl)

/-- The sweep of every region; `bad` lists 64-byte lines of the map that met an uncorrectable error (R163). Granules skipped for
torn copies are taken up again (R160). No epoch ends in P2 (Table 15-1). -/
def State.heatSweep (s : State) (bad : List Nat) : State :=
  if s.rd R.PWR_STAT_STATE = 2 then s else
  let s := { s with dirty := { s.dirty with skip := [] } }
  if s.flag R.DRT_CTRL_HEAT_EN = false ∨ s.works 0x40 = false ∨ s.live = false then s
  else
    let heat := s.dirty.heat.filterMap (fun e =>
      let v := heatNext (s.rd R.DRT_CTRL_DECAY_SHIFT) (s.rd R.DRT_CTRL_HEAT_INC) e.2
      if v = 0 then none else some (e.1, v))
    let heat := bad.foldl (fun (h : NMap) l => (List.range 64).foldl (fun (h : NMap) i => h.set (64 * l + i) 254) h) heat
    let s := { s with dirty := { s.dirty with heat := heat } }
    (s.inc R.DRT_EPOCHS).cond (!bad.isEmpty) (fun s => s.detect 27 0)

def execHeatEpochEnd (bad : List Nat) (s : State) : Host.Outcome State Fault Refusal := .next (finish (s.begin.heatSweep bad))

/-! ### The save bound (R144 to R152) -/

/-- `DATA_DIES` as treated (R176). -/
def State.dataDies (s : State) : Nat := min (clampTo 8 31 (s.rd R.CEL_STRIPE)) (max 1 (s.liveChans.length - 1))

/-- Usable dies of a channel. -/
def State.liveDies (s : State) (c : Nat) : Nat :=
  popcount (s.rd (R.NCH_DIE_MAP_PRESENT c) &&& (s.rd (R.NCH_DIE_MAP_RETIRED c) ^^^ 0xFFFF))

/-- The row of the die table that lists a die found (R172). -/
def State.dieRow (s : State) (d : FoundDie) : Option DieRow :=
  s.cellar.dieTable.find? (fun r => r.mfr == d.mfr && r.model == d.model)

/-- Rated TLC and pSLC cycles of a die (Table 07-1). -/
def State.rated (s : State) (chan die : Nat) : Nat × Nat :=
  match (s.cellar.dies.find? (fun d => d.chan == chan && d.die == die)).bind s.dieRow with
  | some r => (max 1 r.tlc, max 1 r.pslc)
  | none => (3000, 30000)

/-- TLC codewords of a block: four for each page. -/
def State.blockCodewords (s : State) : Nat := 4 * s.rd (R.NCH_GEOM_PAGES (s.liveChans.headD 0))

/-- The sum of the measured pSLC program rates of the usable dies, MB/s. -/
def State.dieRates (s : State) : Nat := (s.liveChans.map (fun c => s.rd (R.NCH_RATE_PSLC_MEAN_MBPS c) * s.liveDies c)).sum

/-- The four terms of V (R145). -/
def State.drainTerms (s : State) : List Nat :=
  let n := s.dataDies
  [100000, s.rd R.CAP_UNITS_LDPC_ACTIVE * 3125, n * s.dieRates / (n + 1), n * 3600 * s.liveChans.length / (n + 1)]

/-- The least of a list, and its first index. -/
def leastOf (l : List Nat) : Nat × Nat :=
  let m := l.foldl min (l.headD 0)
  (m, (l.findIdx? (fun x => x == m)).getD 0)

/-- The mean of the learnt kiln currents, rounded up; 0 where none is held (R146). -/
def State.learntMean (s : State) : Nat :=
  if s.budget.learnt.isEmpty then 0 else ceilDiv s.budget.learnt.sum s.budget.learnt.length

/-- I_K (R146). -/
def State.iKiln (s : State) : Nat := max (s.rd R.BUD_IKILN_DEF) s.learntMean

/-- E: from the gauge, or on the KNM-1608-E from the host's value (R147). -/
def State.energy (s : State) : Nat :=
  if s.variant.gauge then s.rd R.GAU_E
  else if s.budget.expired ∨ s.condAny 147 then 0
  else s.rd R.BUD_HOST_ENERGY - (s.netCt - s.budget.mark).toNat

/-- Q_FIX (Table 06-2). -/
def State.qFix (s : State) : Nat := ceilDiv (s.iKiln * (s.windowW + 1450)) 1000 + 1

/-- E_use (Table 06-2). -/
def State.eUse (s : State) : Nat := s.energy * (100 - min 50 (s.rd R.BUD_CTRL)) / 100

/-- B_E (Table 06-2), where I_K is not 0. -/
def State.bEnergy (s : State) : Nat :=
  let v := (leastOf s.drainTerms).1
  if s.qFix < s.eUse then (s.eUse - s.qFix) * v * 1000000 / (s.iKiln * 4096) else 0

/-- The ceiling of B. -/
def boundMax : Nat := 1073741824

/-- B and its term, from an energy term `be`, without the clamp of R149. -/
def State.rawBound (s : State) (be : Nat) : Nat × Nat :=
  if s.energy = 0 then (0, 4) else leastOf [be, s.rd R.CEL_Z, min boundMax (s.rd R.BUD_HOST_CAP), boundMax]

/-- B_E as published; where I_K is 0 the spec states none and the value is open (assumption 2). -/
def State.takeEnergyTerm (s : State) : Nat × State :=
  if s.iKiln = 0 ∧ s.qFix < s.eUse then s.takeFree 32 else (min (s.bEnergy) (2 ^ 32 - 1), s)

/-- The reasons of Table 06-3 that `PST` holds itself. -/
def State.dirtyReasons (s : State) (d b e : Nat) : State :=
  let par := if 9 * b < 10 * d then 1 else if 100 * d < 89 * b then 0 else s.rd R.PST_STATE_PAR_DIRTY
  let png := if b < d then 1 else if 100 * d < 99 * b ∨ d = 0 then 0 else s.rd R.PST_STATE_PNG_EXCESS
  ((s.wr R.PST_STATE_PAR_DIRTY par).wr R.PST_STATE_PNG_EXCESS png).wr R.PST_STATE_PNG_NO_PACK (b2n (e == 0))

/-- A window of the last 100 counts of 1 ms. -/
def pushWin (l : List Nat) (n : Nat) : List Nat := (n :: l).take 100

/-- The budget unit computes: from the first boot steps on, not from K3 until the next start (R148). -/
def State.budgetOn (s : State) : Bool :=
  ((decide (s.power.life = .starting) && s.power.doneSteps.contains 7 && s.power.doneSteps.contains 8) ||
    decide (s.power.life = .running)) && !(s.inKiln && decide (3 ≤ s.kilnPhase))

/-- `INFLOW`: the transitions of the last 100 ms, per second (R137). -/
def State.showInflow (s : State) : State :=
  let win := pushWin s.dirty.inflowWin s.dirty.inflow
  { s with dirty := { s.dirty with inflow := 0, inflowWin := win } }.wr R.DRT_INFLOW (min (2 ^ 32 - 1) (win.sum * 10))

/-- The registers of `BUD` that show the inputs and terms of a computation (Table 06-14). -/
def State.showTerms (s : State) (be term : Nat) : State :=
  let v := leastOf s.drainTerms
  let s := ((s.wr R.BUD_B_ENERGY be).wr R.BUD_B_ZONE (min (2 ^ 32 - 1) (s.rd R.CEL_Z))).wr R.BUD_LIMIT term
  let s := ((s.wr R.BUD_E_COUNT_CT s.energy).wr R.BUD_E_COUNT_SRC (b2n (!s.variant.gauge))).wr R.BUD_Q_FIX s.qFix
  let s := (s.wr R.BUD_I_KILN_CT_PER_S s.iKiln).wr R.BUD_I_KILN_LEARNT s.budget.learnt.length
  (s.wr R.BUD_DRAIN_MBPS v.1).wr R.BUD_DRAIN_TERM v.2

/-- The faults that a new B gives, `old` being the one before (R146, R151, Table 06-15). -/
def State.boundFaults (s : State) (old b : Nat) : State :=
  let s := s.cond (decide (2 * b < old)) (fun s => s.detect 61 0)
  let s := s.cond (decide (125 * s.rd R.BUD_IKILN_DEF < 100 * s.learntMean) && !s.latchedBit 60 0) (fun s => s.detect 60 0)
  let low := s.rd R.BUD_FLOOR != 0 && decide (b < s.rd R.BUD_FLOOR)
  s.cond (low != s.condAny 58) (fun s => s.setCond 58 0 low)

/-- B with the clamp of R149. -/
def State.clamped (s : State) (b : Nat) : Nat := (s.budget.clamp.map (fun c => min c b)).getD b

/-- B in `BUD` and `PST`, with the faults and reasons it gives (R151, R152). -/
def State.showBound (s : State) (b : Nat) : State :=
  let old := s.rd R.BUD_BOUND
  let s := (s.wr R.BUD_BOUND b).boundFaults old b
  s.pstUpdate (fun s =>
    ((s.wr R.PST_DIRTY (s.rd R.DRT_DIRTY)).wr R.PST_BOUND b).dirtyReasons (s.rd R.DRT_DIRTY) b s.energy)

/-- A new B published, with `PST` (R148, R152). -/
def State.publishBound (s : State) (b : Nat) : State := (s.bump R.BUD_UPDATES).showBound b

/-- One computation of B, and the update of `PST` (R144 to R152). -/
def State.budget1ms (s : State) : State :=
  if s.budgetOn = false ∨ s.works 0x44 = false then s
  else
    let t := s.takeEnergyTerm
    let raw := t.2.rawBound t.1
    ((t.2.showInflow).showTerms t.1 raw.2).publishBound (t.2.clamped raw.1)

def execBudgetCompute (s : State) : Host.Outcome State Fault Refusal := .next (finish s.begin.budget1ms)

/-- R149: SAFETY's check of the bound. -/
def State.safeBound (s : State) : State :=
  if s.runs .safety = false ∨ s.budgetOn = false then s
  else
    let t := s.takeEnergyTerm
    let s := t.2
    let sb := (s.rawBound t.1).1
    let bad := decide (101 * sb < 100 * s.rd R.BUD_BOUND) || s.rd R.BUD_UPDATES == s.budget.lastUpdates
    let s := s.wr R.BUD_SAFE_BOUND sb
    let s := s.cond (bad && decide (sb < s.rd R.BUD_BOUND)) (fun s => s.showBound sb)
    let s := { s with budget := { s.budget with lastUpdates := s.rd R.BUD_UPDATES,
                                                clamp := if bad then some sb else none } }
    let s := s.inc (if bad then R.BUD_CHECKS_FAILED else R.BUD_CHECKS_PASSED)
    s.cond (bad || s.condAny 57) (fun s => s.setCond 57 0 bad)

def execSafeBoundCheck (s : State) : Host.Outcome State Fault Refusal := .next (finish s.begin.safeBound)

/-- R147: a write of `HOST_ENERGY` on the KNM-1608-E; elsewhere it is ignored. -/
def State.hostEnergy (s : State) (v : Nat) : State :=
  if s.variant.gauge then s
  else
    let s := { s with budget := { s.budget with mark := s.netCt, expired := false } }
    (s.wr R.BUD_HOST_ENERGY v).wr R.BUD_ENERGY_AGE 0

def execHostEnergyWrite (who : Requester) (ct : Nat) (s : State) : Host.Outcome State Fault Refusal :=
  .next (finish (s.begin.under (s.admission who 0x44) 0x44 (fun s => s.hostEnergy ct)))

/-- R147: 24 h have passed since the last write. -/
def State.hostEnergyOut (s : State) : State :=
  if s.variant.gauge ∨ s.budget.expired then s
  else ({ s with budget := { s.budget with expired := true } }).detect 59 0

def execHostEnergyExpired (s : State) : Host.Outcome State Fault Refusal := .next (finish s.begin.hostEnergyOut)

/-! ### The wither engine (R153 to R157) -/

/-- The bucket, signed. -/
def State.bucket (s : State) : Int := ofField 40 (s.rd R.WTH_BUCKET)

/-- A, granules a day. -/
def State.allowA (s : State) : Nat := s.rd R.WTH_ALLOW

/-- L (R156). -/
def State.bucketL (s : State) : Int :=
  if s.flag R.PST_STATE_PAR_DIRTY then -((min 100 (s.rd R.WTH_WEAR_CTRL_BORROW_PCT) * s.allowA / 100 : Nat) : Int) else 0

/-- The bucket refilled over 1 ms, to a depth of A (R156). -/
def State.refillBucket (s : State) : State :=
  let n := s.budget.refillRem + s.allowA
  let b := min (s.bucket + (n / 86400000 : Nat)) (s.allowA : Int)
  { s with budget := { s.budget with refillRem := n % 86400000 } }.wr R.WTH_BUCKET (toField 40 (max s.bucket b))

/-- The refill rate, granules per second. -/
def State.refillRate (s : State) : Nat := s.allowA / 86400

/-- `MAX_GBPS` as treated, granules per second. -/
def State.maxRateG (s : State) : Nat :=
  let v := s.rd R.WTH_RATE_CTRL_MAX_GBPS
  (if v = 0 ∨ 30 < v then 30 else v) * 1000000000 / 4096

/-- e = D - T (R153). -/
def State.witherE (s : State) : Int := (s.rd R.DRT_DIRTY : Int) - (s.witherT : Int)

/-- The commanded rate in granules per second (R154). -/
def State.copyRate (s : State) : Nat :=
  let st := s.rd R.WTH_STATE_STATE
  if st = wthCool then
    let c := s.rd R.WTH_RATE_CTRL_COOL_MBPS * 1000000 / 4096
    if c ≠ 0 ∧ c < s.refillRate then c else s.refillRate
  else if st = wthChase then
    min s.maxRateG (max s.refillRate (s.rd R.DRT_INFLOW + s.witherE.toNat / max 1 (s.rd R.WTH_CTRL_TAU_S)))
  else if st = wthHeld then s.refillRate
  else if st = wthBoost then s.maxRateG
  else 0

/-- The granule can be copied now: dirty, filled, not given up, not in flight (R160, R162). -/
def State.copyable (s : State) (g : Nat) : Bool :=
  s.isDirty g && !s.unfilled g && !s.dirty.skip.has g && !s.dirty.inflight.any (fun e => e.granule == g)

/-- The granules of the dirty regions at heat level `l`, ascending, that are not before the scan's place (R155). -/
def State.scanLevel (s : State) (l : Nat) : List Nat :=
  let rs := (regionsOf s.dirty.bits).toList.filter (fun r => s.heatLevel r == l)
  let gs := (rs.map (fun r => (s.dirty.bits.slice (r * granulesPerRegion) ((r + 1) * granulesPerRegion)).toList)).flatten
  if l = s.budget.level then gs.filter (fun g => decide (s.budget.cursor ≤ g)) else gs

/-- An eligible region exists. -/
def State.eligible (s : State) (ceiling : Nat) : Bool :=
  (regionsOf s.dirty.bits).toList.any (fun r => decide (s.heatLevel r ≤ ceiling))

/-- The granules that the next copies take, at most `n`: those that the pass has still to take, by ascending level up to the
ceiling and ascending index within it (R155). -/
def State.nextCopies (s : State) (n : Nat) : List Nat :=
  let top := s.rd R.WTH_STATE_CEILING
  let ls := (List.range 128).filter (fun l => decide (s.budget.level ≤ l) && decide (l ≤ top))
  ((ls.map (fun l => (s.scanLevel l).filter s.copyable)).flatten).take n

/-- The scan goes on after the granules it took, or the pass ends, which in Chase with e > 0 raises the ceiling (R155). -/
def State.scanOn (s : State) (took : List Nat) (want : Nat) : State :=
  if took.length < want then
    let s := { s with budget := { s.budget with level := 0, cursor := 0 } }
    s.cond (s.rd R.WTH_STATE_STATE == wthChase && decide (0 < s.witherE))
      (fun s => s.wr R.WTH_STATE_CEILING (min 127 (s.rd R.WTH_STATE_CEILING + 16)))
  else
    match took.getLast? with
    | none => s
    | some g => { s with budget := { s.budget with level := s.heatLevel (g / granulesPerRegion), cursor := g + 1 } }

/-- The rank of a copy's DRAM read (Table 01-3): 3 for a fence, 7 for the wither engine. -/
def InFlight.rank (e : InFlight) : Nat := if e.fence = 0 then 7 else 3

/-- The copies that wait for a read of a DRAM channel, oldest first. -/
def State.waitingReads (s : State) (c : Nat) : List InFlight :=
  s.dirty.inflight.filter (fun e => decide (e.phase = .read) && s.chanOf (s.placeOf e.granule) == c)

/-- The granule whose read a DRAM channel serves: the one whose transfer has begun, else the oldest of the highest rank that
waits (R14, R15, Table 01-3). -/
def State.grantee (s : State) (c : Nat) : Option Nat :=
  let w := s.waitingReads c
  match w.find? (fun e => e.granule + 1 == s.dirty.grants.get c) with
  | some e => some e.granule
  | none => ((w.find? (fun e => e.rank == 3)).orElse (fun _ => w.head?)).map (fun e => e.granule)

/-- The transfer of the copy that the channel serves begins. -/
def State.settleGrant (s : State) (c : Nat) : State :=
  { s with dirty := { s.dirty with grants := s.dirty.grants.set c ((s.grantee c).elim 0 (fun g => g + 1)) } }

/-- A copy of a granule begins (R159). -/
def State.startCopy (s : State) (g fence : Nat) : State :=
  if 16384 ≤ s.dirty.inflight.length then s
  else
    let e : InFlight := { granule := g, phase := .read, wrRead := false, wrProg := false, data := [], poison := 0, addr := 0,
                          fence := fence, boost := s.rd R.WTH_STATE_STATE == wthBoost }
    ({ s with dirty := { s.dirty with inflight := s.dirty.inflight ++ [e] } }).showInflight.settleGrant (s.chanOf (s.placeOf g))

/-- The transitions of Table 06-5 that a tick evaluates. -/
def State.witherMove (s : State) : State :=
  let st := s.rd R.WTH_STATE_STATE
  let cool := s.rd R.WTH_CTRL_COOL_LEVEL
  let past := decide (0 < s.witherE)
  let dry := decide (s.bucket ≤ s.bucketL)
  let up := fun (s : State) =>
    if dry then (s.wr R.WTH_STATE_STATE wthHeld).detect 30 0 else s.wr R.WTH_STATE_STATE wthChase
  if st = wthIdle then
    if past then up s
    else if s.eligible cool then (s.wr R.WTH_STATE_STATE wthCool).wr R.WTH_STATE_CEILING cool
    else s.wr R.WTH_STATE_CEILING cool
  else if st = wthCool then
    if past then up s
    else if s.eligible cool then s.wr R.WTH_STATE_CEILING cool
    else
      let want := regionsOf s.dirty.bits
      (({ s with dirty := { s.dirty with summary := want } }).wr R.DRT_SUMMARY want.card).wr R.WTH_STATE_STATE wthIdle
  else if st = wthChase ∨ st = wthHeld then
    if !past then (s.wr R.WTH_STATE_STATE wthCool).wr R.WTH_STATE_CEILING cool
    else if st = wthChase ∧ dry then (s.wr R.WTH_STATE_STATE wthHeld).detect 30 0
    else if st = wthHeld ∧ s.bucketL + (ceilDiv s.allowA 100 : Nat) ≤ s.bucket then s.wr R.WTH_STATE_STATE wthChase
    else s
  else s

/-- One tick: refill, transitions, the commanded rate, and at most `n` copies begun as the rate and the table allow, the fraction of
a granule carried to the next tick (R153 to R157). `space` tells whether the cellar gives
image-zone space. -/
def State.witherTick (s : State) (n : Nat) (space : Bool) : State :=
  if s.live = false then s
  else
    let s := (s.refillBucket).wr R.WTH_TARGET s.witherT
    let s := s.cond (decide (s.bucket < 0) && !s.latchedBit 31 0) (fun s => s.detect 31 0)
    let s := s.witherMove
    let rate := s.copyRate
    let win := pushWin s.budget.commitWin s.budget.commits
    let none' := if space ∨ rate = 0 then 0 else s.budget.noSpace + 1
    let s := { s with budget := { s.budget with commits := 0, commitWin := win, noSpace := none' } }
    let s := (s.wr R.WTH_RATE_CMD_MBPS (min 65535 (rate * 4096 / 1000000))).wr R.WTH_RATE_ACT_MBPS
      (min 65535 (win.sum * 10 * 4096 / 1000000))
    let s := s.cond (none' == 1000) (fun s => s.detect 33 0)
    let due := if rate = 0 then 0 else s.budget.copyRem + rate
    let s := { s with budget := { s.budget with copyRem := due % 1000 } }.restCease
    if space = false then s
    else
      let want := min (min n (due / 1000)) (16384 - s.dirty.inflight.length)
      let took := s.nextCopies want
      (took.foldl (fun s g => s.startCopy g 0) s).scanOn took want

def execWitherTick (n : Nat) (space : Bool) (s : State) : Host.Outcome State Fault Refusal :=
  .next (finish (s.begin.witherTick n space))

/-! ### The copy race (R159 to R161) -/

/-- The in-flight entry of a granule in a phase. -/
def State.inflightOf (s : State) (g : Nat) (ph : CopyPhase) : Option InFlight :=
  s.dirty.inflight.find? (fun e => e.granule == g && decide (e.phase = ph))

/-- An entry leaves the table. -/
def State.freeCopy (s : State) (g : Nat) : State :=
  ({ s with dirty := { s.dirty with inflight := s.dirty.inflight.filter (fun e => e.granule != g) } }).showInflight

/-- A torn copy: discarded and counted; at eight in a row the granule is skipped until the next heat epoch (R160, R300). -/
def State.tornCopy (s : State) (g : Nat) : State :=
  let n := s.dirty.torn.get g + 1
  let s := (s.freeCopy g).inc R.WTH_TORN
  if 8 ≤ n then
    let s := { s with dirty := { s.dirty with torn := s.dirty.torn.set g 0, skip := s.dirty.skip.insert1 g } }
    ((s.inc R.WTH_SKIPPED).detect 34 0).fenceGiveUp g
  else { s with dirty := { s.dirty with torn := s.dirty.torn.set g n } }

/-- What the ECC finds in the lines of a copy: corrected errors counted, uncorrectable ones carried as poison, their
granule retired (R119, Table 05-3). -/
def State.copyErrors (s : State) (g : Nat) (found : List (Nat × Ecc)) : State × LineMask :=
  found.foldl (fun (a : State × LineMask) (e : Nat × Ecc) =>
    let l := e.1 % 64
    if a.1.isPoison g l then a
    else
      match e.2 with
      | .clean => a
      | .corrected d => (a.1.corrected g l d, a.2)
      | .failing d =>
        let s := a.1.recordUe g l d
        let s := s.cond (s.isDirty g) (fun s => s.detect 10 (s.dmcOf (s.chanOf (s.placeOf g))))
        (s.retireStart g, a.2 ||| lineBit l)) (s, s.poisonMask g)

/-- The read phase ends: the copy is torn, or goes on to be programmed at `addr`. -/
def State.copyRead (s : State) (g addr : Nat) (found : List (Nat × Ecc)) : State :=
  match s.inflightOf g .read with
  | none => s
  | some e =>
    if e.wrRead then s.tornCopy g
    else
      let r := s.copyErrors g found
      let s := { r.1 with dirty := { r.1.dirty with torn := r.1.dirty.torn.set g 0 } }
      let data := s.granuleData g
      (({ s with dirty := { s.dirty with inflight := s.dirty.inflight.map (fun (x : InFlight) =>
        if x.granule = g then { x with phase := .prog, data := data, poison := r.2, addr := addr } else x) } }) : State).bump
          R.CRY_ENC

/-- R29, R32, Table 01-9: an LDPC engine fails the syndrome re-check of a codeword: the codeword is discarded and encoded again on
another engine; the failing engine is retired, and a spare takes its work while one is left. -/
def State.retireEngine (s : State) (e : Nat) : State :=
  if s.power.ldpcDead.contains e then s
  else
    let s := { s with power := { s.power with ldpcDead := s.power.ldpcDead ++ [e] } }
    let w := s.rd (R.ID_REPAIR 0)
    let put := fun (i v : Nat) => w - w / 256 ^ i % 256 * 256 ^ i + v % 256 * 256 ^ i
    let s := if w / 2 ^ 8 % 256 = 0xFF then s.wr (R.ID_REPAIR 0) (put 1 e)
      else if w / 2 ^ 16 % 256 = 0xFF then s.wr (R.ID_REPAIR 0) (put 2 e)
      else (s.wr (R.ID_REPAIR 0) (put 0 (w % 256 - 1) + 2 ^ 24)).wr R.CAP_UNITS_LDPC_ACTIVE (w % 256 - 1)
    ((s.tlog 0x010C e).occur 0x010C none).healthNote

/-- The DRAM channel serves the copy's read, which ends; `bad` are the engines that failed the re-check of its codeword before one
passed (R14, R29). -/
def State.copyGranted (s : State) (g addr : Nat) (found : List (Nat × Ecc)) (bad : List Nat) : State :=
  let c := s.chanOf (s.placeOf g)
  if s.grantee c = some g then ((bad.foldl State.retireEngine s).copyRead g addr found).settleGrant c else s

def execCopyReadDone (granule addr : Nat) (found : List (Nat × Ecc)) (bad : List Nat) (s : State) :
    Host.Outcome State Fault Refusal :=
  .next (finish (s.begin.copyGranted granule addr found bad))

/-- Whether the map walker may commit the copy now: fence copies always, wither copies while fewer than `DIRTY_MAX` map pages are
dirty (R181, R246). -/
def State.mayCommit (s : State) (e : InFlight) : Bool :=
  e.fence != 0 || decide (s.rd R.CEL_MAP_DIRTY < s.mapLimit)

/-- One granule of a programmed stripe commits: its entry names the new copy, and its dirty bit is cleared unless it was written
in the program phase (R12, R156, R161, R196). -/
def State.commitCopy (s : State) (g : Nat) : State :=
  match s.inflightOf g .prog with
  | none => s
  | some e =>
    if s.mayCommit e = false ∨ s.placeFree e.addr = false ∨ s.inImageZone e.addr = false then s
    else
      let s := ((s.putCodeword e.addr g 0 e.poison e.data).noteProgram e.addr).showImage
      let s := s.setEntry g (mkEntry 1 (e.poison != 0) e.addr s.cellar.seq)
      let s := (s.freeCopy g).countUsed 1
      let s := s.countDone 1
      let s := if e.wrProg then s.inc R.WTH_REDIRTY else s.markClean g
      let s := { s with budget := { s.budget with commits := s.budget.commits + 1 } }
      let s := (s.inc R.WTH_WITHERED).wr R.WTH_BUCKET (toField 40 (s.bucket - 1))
      (s.cond (decide (s.bucket < 0) && !s.latchedBit 31 0) (fun s => s.detect 31 0)).fenceCommit g

def execMapCommit (granules : List Nat) (s : State) : Host.Outcome State Fault Refusal :=
  .next (finish (s.begin.cond s.live (fun s => granules.foldl State.commitCopy s)))

/-- R175: a stripe not full 1 ms after its first program is closed with padding at `addrs`. -/
def State.padStripe (s : State) (a : Nat) : State :=
  if s.placeFree a ∧ s.inImageZone a ∧ s.stripeOpen a then
    ((((s.putCodeword a 0 6 0 []).noteProgram a).countUsed 1).bump R.CRY_ENC).showImage
  else s

def execStripeCloseTimeout (addrs : List Nat) (s : State) : Host.Outcome State Fault Refusal :=
  .next (finish (s.begin.cond s.live (fun s => addrs.foldl State.padStripe s)))

/-- R156: A from the remaining endurance and the remaining days. -/
def State.wearAllow (s : State) : State :=
  let life := clampTo 365 7305 (s.rd R.WTH_WEAR_CTRL_LIFE_DAYS)
  let gone := s.opsec / 86400
  let days := max 30 (life - gone)
  let a := if 10000 ≤ s.rd R.CEL_LIFE_USED then 0 else s.rd R.CEL_ENDUR / days
  let s := ((s.wr R.WTH_ALLOW (min (2 ^ 40 - 1) a)).wr R.WTH_LIFE_REMAIN_DAYS (min 65535 days)).wr R.WTH_LIFE_ELAPSED_DAYS
    (min 65535 gone)
  let s := s.cond s.budget.fill (fun s => { s.wr R.WTH_BUCKET (s.rd R.WTH_ALLOW) with budget := { s.budget with fill := false } })
  s.cond (decide (life < gone + 30)) (fun s => s.detect 32 0)

def execWearAllowanceRecompute (s : State) : Host.Outcome State Fault Refusal := .next (finish s.begin.wearAllow)

end Sys2Proof.Machine
end

