-- ==== Sys2Proof/Machine/Cellar.lean ====
section
/-!
DEFINITION. Machine/Cellar.lean: the cellar's commands: reads and what unreadable copies lead to (R184 to R187), bad blocks, dies
and channels (R198 to R200), erases and the pre-erase guarantee (R188 to R190), map flush and scrub (R181 to R184), the fold,
garbage collection and wear levelling (R191 to R196), and patrol (R202 to R204).
-/

namespace Sys2Proof.Machine

open Sys2Proof

/-- Cellar work goes on: `CEL` runs, the cask can be read and no kiln has reached K3 (R211). -/
def State.cellarOn (s : State) : Bool :=
  decide (1 ≤ s.rd R.STP_STAT_PHASE) && s.works 0x70 && !(s.inKiln && decide (3 ≤ s.kilnPhase))

/-! ### Wear (R195, R196) -/

/-- A common denominator of the life used of all blocks. -/
def State.lifeDen (s : State) : Nat := (s.cellar.dieTable.map (fun r => max 1 r.tlc * max 1 r.pslc)).foldl Nat.lcm 90000000

/-- Life used of a block, LU × `lifeDen`. -/
def State.blockLife (s : State) (b : Block) : Nat :=
  let r := s.rated b.chan b.die
  (b.tlc * r.2 + b.pslc * r.1) * (s.lifeDen / (r.1 * r.2))

/-- The mean life used of a list of blocks, LU × `lifeDen`, with the number of blocks: sum and count. -/
def State.lifeSum (s : State) (bs : List Block) : Nat := (bs.map s.blockLife).sum

/-- The good blocks; those outside the flash spare pool. -/
def State.wearBlocks (s : State) : List Block := s.cellar.blocks.filter (fun b => !b.bad)
def State.goodBlocks (s : State) : List Block := s.cellar.blocks.filter (fun b => !b.bad && !b.spare)

/-- `WL_SPREAD_PCT` as treated, LU × `lifeDen` × 100. -/
def State.lifeSpread (s : State) : Nat := clampTo 1 20 (s.rd R.CEL_WL_CTRL) * s.lifeDen

/-- WA in hundredths: at least 100; 300 until 262,144,000 granules have been counted (R196). -/
def State.writeAmp (s : State) : Nat :=
  let used := s.cellar.used + (s.cellar.hours.map (fun h => h.1)).sum
  let done := s.cellar.done + (s.cellar.hours.map (fun h => h.2)).sum
  if s.cellar.counted < 262144000 then 300 else max 100 (used * 100 / max 1 done)

/-- R_END (R196). -/
def State.rEnd (s : State) : Nat :=
  let n := s.dataDies
  let all := (s.cellar.dieTable.map (fun r => max 1 r.pslc)).foldl Nat.lcm 30000
  let left := (s.goodBlocks.map (fun b =>
    let r := s.rated b.chan b.die
    (r.1 * r.2 - (b.tlc * r.2 + b.pslc * r.1)) * (all / r.2))).sum
  left * s.blockCodewords * n * 100 / (all * (n + 1) * s.writeAmp)

/-- Life-used registers and their faults (Table 07-11, Table 07-12). -/
def State.showLife (s : State) : State :=
  let ls := s.goodBlocks.map s.blockLife
  let mean := min 10000 (ls.sum * 10000 / (s.lifeDen * max 1 ls.length))
  let s := (s.wr R.CEL_LIFE_USED mean).wr R.CEL_LIFE_MAX (min 16383 (ls.foldl max 0 * 10000 / s.lifeDen))
  let s := s.cond (decide (9000 ≤ mean) && !s.latchedBit 78 0) (fun s => s.detect 78 0)
  (s.cond (decide (10000 ≤ mean) && !s.latchedBit 79 0) (fun s => s.detect 79 0)).healthNote

/-- R202: every 30 days of cellar time the records zone is rewritten: one more erase of each of its blocks, and both directory
checkpoints stand anew. -/
def State.rewriteRecords (s : State) : State :=
  s.cond (decide (s.cellar.recordsAt + 2592000 ≤ s.cellarTime)) (fun s =>
    { s with cellar := { s.cellar with
        recordsAt := s.cellarTime, ckptOk0 := true, ckptOk1 := true,
        blocks := s.cellar.blocks.map (fun (b : Block) =>
          if b.record ∧ b.bad = false then { b with pslc := b.pslc + 1, reads := 0, level := 0 } else b) } })

/-- The hourly recomputation: the hour closes, and with the 719 before it makes the 30 days of R196. -/
def State.endurance (s : State) : State :=
  let wa := s.writeAmp
  let s := (s.wr R.CEL_WA (min 65535 wa)).wr R.CEL_ENDUR (min (2 ^ 48 - 1) s.rEnd)
  let s := { s with cellar := { s.cellar with hours := ((s.cellar.used, s.cellar.done) :: s.cellar.hours).take 719,
                                              used := 0, done := 0 } }
  (s.cond s.cellarOn State.rewriteRecords).showLife

def execEnduranceRecompute (s : State) : Host.Outcome State Fault Refusal := .next (finish s.begin.endurance)

/-! ### Bad blocks (R198, R200) -/

/-- The key of a block. -/
def Block.key (b : Block) : Nat × Nat × Nat := (b.chan, b.die, b.blk)

/-- A block changed by `f`. -/
def State.updBlock (s : State) (k : Nat × Nat × Nat) (f : Block → Block) : State :=
  { s with cellar := { s.cellar with blocks := s.cellar.blocks.map (fun (b : Block) => if b.key = k then f b else b) } }

/-- Free blocks of the flash spare pool of a die. -/
def State.spares (s : State) (chan die : Nat) : List Block :=
  s.cellar.blocks.filter (fun b => b.chan == chan && b.die == die && b.spare && !b.bad)

/-- The spare-pool registers of a channel and of the cellar; a die with none left latches the spare-exhausted bit (R200). -/
def State.showSpares (s : State) (chan die : Nat) : State :=
  let onChan := s.cellar.blocks.filter (fun b => b.chan == chan && b.spare && !b.bad)
  let all := s.cellar.blocks.filter (fun b => b.spare && !b.bad)
  let dies := ((s.cellar.blocks.map (fun b => (b.chan, b.die))).eraseDups)
  let empty := (dies.filter (fun d => (s.spares d.1 d.2).isEmpty)).length
  let mine := (dies.filter (fun d => d.1 == chan)).map (fun d => (s.spares d.1 d.2).length)
  let s := (s.wr (R.NCH_SPARE_FREE chan) onChan.length).wr (R.NCH_SPARE_MIN_DIE chan) (mine.foldl min (mine.headD 0))
  let s := (s.wr R.CEL_SPARE_FREE all.length).wr R.CEL_SPARE_DIES_EMPTY (min 255 empty)
  s.cond ((s.spares chan die).isEmpty) (fun s => s.detect 70 chan)

/-- A block is retired as grown bad (R198): counted, its copies are due for relocation, and its group, if open, takes no more. -/
def State.retireBlock (s : State) (k : Nat × Nat × Nat) : State :=
  if s.cellar.blocks.any (fun b => decide (b.key = k) && b.bad) then s
  else
    let s := s.updBlock k (fun (b : Block) => { b with bad := true })
    let s := { s with cellar := { s.cellar with reloc := s.cellar.reloc ++ [k] } }
    ((s.inc (R.NCH_BAD_GROWN k.1)).inc R.CEL_BAD_GROWN).closeBroken

/-- A block that can take the place of `k` in a group: from the flash spare pool of the same die; in the kiln zone, or where that die
is lost, else from a die on a channel that is not yet in the group (R189, R190, R198). -/
def State.substitute (s : State) (g : Group) (k : Nat × Nat × Nat) : Option Block :=
  match ((s.spares k.1 k.2.1).filter (fun b => s.dieOk b.key)).head? with
  | some b => some b
  | none =>
    if g.zone.pslc = false ∧ s.dieOk k then none
    else (s.cellar.blocks.filter (fun b => b.spare && !b.bad && s.dieOk b.key && !g.members.any (fun m => m.1 == b.chan))).head?

/-- Member `m` of a group gives its place to `k`, which needs its erase before the group is whole again (R177, R189, R190). -/
def Group.swap (g : Group) (m k : Nat × Nat × Nat) : Group :=
  let pend := if g.st = .erased then [k]
    else if g.pendErase = [] then [] else (g.pendErase.filter (fun x => x != m)) ++ [k]
  { g with members := g.members.map (fun x => if x = m then k else x), st := if g.st = .erased then .free else g.st,
           pendErase := pend }

/-- The place of `k` in a group goes to a substitute; answers whether one was there. -/
def State.replaceMember (s : State) (id : Nat) (k : Nat × Nat × Nat) : State × Bool :=
  match s.cellar.groups.find? (fun g => g.id == id) with
  | none => (s, false)
  | some g =>
    match s.substitute g k with
    | none => (s, false)
    | some b =>
      let s := s.updBlock b.key (fun (x : Block) => { x with spare := false })
      let s := s.updGroup id (fun (h : Group) => h.swap k b.key)
      ((s.showSpares k.1 k.2.1).cond (b.chan != k.1 || b.die != k.2.1) (fun s => s.showSpares b.chan b.die), true)

/-- A group that cannot be made whole leaves its zone; in the kiln zone a spare group takes its place, and with none left Z
falls short (R189). -/
def State.dropGroup (s : State) (id : Nat) : State :=
  let kiln := (s.cellar.groups.find? (fun g => g.id == id)).any (fun g => g.inZone .kiln)
  let s := s.updGroup id (fun (h : Group) => { h with zone := .spare, st := .free })
  if kiln = false then s
  else
    match s.cellar.groups.find? (fun g => g.inZone .kilnSpare) with
    | some sp => (s.updGroup sp.id (fun (h : Group) => { h with zone := .kiln })).showZ
    | none =>
      let s := s.showZ
      s.cond (decide (s.zNow < s.kilnGib * 262144)) (fun s => s.setCond 72 0 true)

/-! ### Zone sizes (R177, R178, R200) -/

/-- Data capacity of a stripe group of `n` members in the mode of a zone (R174, R175). -/
def State.capOf (s : State) (n : Nat) (z : Zone) : Nat := (n - 1) * (4 * s.zonePages (s.liveChans.headD 0) z)

/-- Data capacity of a TLC stripe group of the configured width. -/
def State.tlcCap (s : State) : Nat := s.capOf (s.dataDies + 1) .image

/-- Groups that a kiln zone of net `gib` GiB has, its spare groups apart; its spare groups; groups of a guest zone
(Table 07-3). -/
def kilnNeed (gib : Nat) : Nat := gib * 262144 + gib * 512 + manifestGranules
def State.kilnWant (s : State) (gib : Nat) : Nat := ceilDiv (kilnNeed gib) (max 1 (s.capOf (s.dataDies + 1) .kiln))
def spareWant (n : Nat) : Nat := ceilDiv n 100
def State.guestWant (s : State) (gib : Nat) : Nat := ceilDiv (gib * 262144) (max 1 s.tlcCap)

/-- The first groups of a list that carry `need` granules in the mode of a zone, by the width each has (R176). -/
def State.groupsFor (s : State) (z : Zone) : Nat → List Group → Nat
  | _, [] => 0
  | need, g :: t => if need = 0 then 0 else 1 + s.groupsFor z (need - s.capOf g.members.length z) t

/-- What a list of groups carries in the mode of a zone. -/
def State.groupsCap (s : State) (z : Zone) (gs : List Group) : Nat := (gs.map (fun g => s.capOf g.members.length z)).sum

/-- The groups of a zone; those that hold nothing, and those that hold something. -/
def State.zoneGroups (s : State) (z : Zone) : List Group := s.cellar.groups.filter (fun g => g.inZone z)
def Group.holdsNone (g : Group) : Bool := decide (g.st = .free ∨ g.st = .erased) && !g.kilnUse

/-- Groups of a zone. -/
def State.zoneCount (s : State) (z : Zone) : Nat := (s.cellar.groups.filter (fun g => g.inZone z)).length

/-- An image zone of these groups holds what R178 asks. -/
def State.imageHolds (s : State) (gs : List Group) : Bool :=
  decide ((s.rd R.CAP_HOST + ceilDiv (s.rd R.CAP_HOST) granulesPerRegion) * (100 + clampTo 5 50 (s.rd R.CEL_GC_CTRL_OP_MIN_PCT)) ≤
    s.groupsCap .image gs * 100)

/-- A group takes another zone: it is erased, in the mode of that zone, before use (R177). The spare groups are part of the kiln
zone. -/
def State.rezone (s : State) (g : Group) (z : Zone) : Group :=
  if g.zone.pslc ∧ z.pslc then { g with zone := z }
  else { g with zone := z, st := .free, pendErase := [], cap := s.capOf g.members.length z }

/-- A group of a zone that holds nothing. -/
def State.emptyGroup (s : State) (z : Zone) : Option Group :=
  s.cellar.groups.find? (fun g => g.inZone z && decide (g.st = .free ∨ g.st = .erased) && !g.kilnUse)

/-- One group moved from a zone to another; none where no group is empty. -/
def State.moveGroup (s : State) (a b : Zone) : Option State :=
  (s.emptyGroup a).map (fun g => s.updGroup g.id (fun (h : Group) => s.rezone h b))

/-- The guest zone can spare a group: the others hold the copies there are (R178). -/
def State.guestSpare (s : State) : Bool :=
  decide (s.racking.copies.length + s.tlcCap ≤ s.zoneCount .guest * s.tlcCap)

/-- Group moves that a resize still has to make. -/
def State.resizeLeft (s : State) : Nat :=
  let off := fun (a b : Nat) => (a - b) + (b - a)
  off (s.zoneCount .kiln) s.cellar.resizeKiln + off (s.zoneCount .kilnSpare) (spareWant s.cellar.resizeKiln) +
    off (s.zoneCount .guest) s.cellar.resizeGuest

/-- The next group move of a resize (R178). -/
def State.resizeMove (s : State) : Option State :=
  let k := s.zoneCount .kiln
  let sp := s.zoneCount .kilnSpare
  let g := s.zoneCount .guest
  let want := spareWant s.cellar.resizeKiln
  let kiln :=
    if k < s.cellar.resizeKiln then (if want < sp then s.moveGroup .kilnSpare .kiln else s.moveGroup .image .kiln)
    else if s.cellar.resizeKiln < k then (if sp < want then s.moveGroup .kiln .kilnSpare else s.moveGroup .kiln .image)
    else if sp < want then s.moveGroup .image .kilnSpare
    else if want < sp then s.moveGroup .kilnSpare .image
    else none
  match kiln with
  | some t => some t
  | none =>
    if g < s.cellar.resizeGuest then s.moveGroup .image .guest
    else if s.cellar.resizeGuest < g ∧ s.guestSpare then s.moveGroup .guest .image
    else none

/-- Moves until none can be made; `fuel` bounds their number. -/
def State.resizeMoves (s : State) : Nat → State
  | 0 => s
  | n + 1 =>
    match s.resizeMove with
    | some t => t.resizeMoves n
    | none => s

/-- A resize goes on as far as empty groups allow; `RESIZE` shows its progress in group moves (R178, Table 07-11). -/
def State.resizeGo (s : State) : State :=
  if s.flag R.CEL_RESIZE_ACTIVE then
    let s := s.resizeMoves (2 * s.cellar.groups.length)
    let left := s.resizeLeft
    ((s.wr R.CEL_RESIZE_ACTIVE (b2n (left != 0))).wr R.CEL_RESIZE_PCT (100 - min 100 (100 * left / max 1 s.cellar.resizeAll))).showZ
  else s

/-- R200: with the spare pool empty, a block of the same die comes from the image zone: a group of it that holds nothing is given
up for this, and its other blocks serve the next such replacements. The image zone shrinks, and where R178 then fails the
resize-refused bit latches. Answers whether a block was there. -/
def State.takeImage (s : State) (id : Nat) (k : Nat × Nat × Nat) : State × Bool :=
  let fit := fun (m : Nat × Nat × Nat) => m.1 == k.1 && m.2.1 == k.2.1 && s.dieOk m &&
    !s.isBad m
  let has := fun (h : Group) => h.id != id && decide (h.st = .free ∨ h.st = .erased) && h.members.any fit
  let cands := s.cellar.groups.filter (fun h => h.inZone .spare && has h) ++ s.cellar.groups.filter (fun h => h.inZone .image && has h)
  match cands.head? with
  | none => (s, false)
  | some h =>
    match h.members.find? fit with
    | none => (s, false)
    | some m =>
      let s := s.updGroup id (fun (x : Group) => x.swap k m)
      let s := s.updGroup h.id (fun (x : Group) => { x with zone := .spare, st := .free, members := x.members.filter (fun y => y != m) })
      ((s.cond (h.inZone .image && !s.imageHolds (s.zoneGroups .image)) (fun s => s.detect 80 0)).showImage, true)

/-- A member replaced: from a spare pool, else, outside the kiln zone, from the image zone (R198, R200); or the group dropped
(R189). -/
def State.mendMember (s : State) (id : Nat) (k : Nat × Nat × Nat) : State :=
  let r := s.replaceMember id k
  if r.2 then r.1
  else
    let pslc := (r.1.cellar.groups.find? (fun g => g.id == id)).any (fun g => g.inZone .kiln || g.inZone .kilnSpare)
    let r := if pslc then (r.1, false) else r.1.takeImage id k
    if r.2 then r.1 else r.1.dropGroup id

/-- R195: at an erase, a pSLC-zone block whose life used exceeds the mean by more than the spread is exchanged with a block of
the same die in a free image-zone group. -/
def State.exchangeWorn (s : State) (id : Nat) (k : Nat × Nat × Nat) : State :=
  match s.cellar.blocks.find? (fun b => decide (b.key = k)) with
  | none => s
  | some b =>
    let n := max 1 s.wearBlocks.length
    let free := s.cellar.groups.filter (fun g => g.inZone .image && decide (g.st = .free ∨ g.st = .erased) &&
      g.members.any (fun m => m.1 == k.1 && m.2.1 == k.2.1))
    match free.head? with
    | none => s
    | some h =>
      if s.blockLife b * n * 100 ≤ s.lifeSum s.wearBlocks * 100 + s.lifeSpread * n then s
      else
        match h.members.find? (fun m => m.1 == k.1 && m.2.1 == k.2.1) with
        | none => s
        | some m =>
          (s.updGroup id (fun (x : Group) => x.swap k m)).updGroup h.id (fun (x : Group) => x.swap m k)

/-- Current copies that stand on the blocks of a group: entries of host granules, guest copies apart. -/
def State.groupCopies (s : State) (g : Group) : List Nat :=
  (s.cellar.map.filter (fun e => (entState e.2 == 1 || entState e.2 == 2) && g.members.contains (addrBlock (entAddr e.2)))).map
    (fun e => e.1)

/-- The regions whose map page stands on the blocks of a group. -/
def State.groupPages (s : State) (g : Group) : List Nat :=
  (s.cellar.dir.filter (fun e => g.members.contains (addrBlock (entAddr e.2)))).map (fun e => e.1)

/-- The group may be erased: it holds no current copy and no map page, and no chained kiln log, nor the kiln in progress, uses it
(R191, R194, R280). -/
def State.erasable (s : State) (g : Group) : Bool :=
  (s.groupCopies g).isEmpty && (s.groupPages g).isEmpty && !s.cellar.chain.any (fun l => l.groups.contains g.id) && !(s.inKiln && g.kilnUse)

/-- A block that no group, spare pool or zone uses. -/
def State.looseBlock (s : State) (b : Block) : Bool :=
  !b.bad && !b.spare && !b.record && s.dieOk b.key && !s.cellar.groups.any (fun g => g.members.contains b.key)

/-- The members of a group widened with loose blocks of channels that it has not yet. -/
def State.widen (s : State) (ms : List (Nat × Nat × Nat)) : List (Nat × Nat × Nat) :=
  s.cellar.blocks.foldl (fun (l : List (Nat × Nat × Nat)) b =>
    if l.length < s.dataDies + 1 ∧ s.looseBlock b ∧ ¬ l.any (fun m => m.1 == b.chan) then l ++ [b.key] else l) ms

/-- An image-zone group that holds nothing is dissolved: its blocks are loose. -/
def State.dissolve (s : State) (id : Nat) : State :=
  match (s.cellar.groups.filter (fun h => h.id != id && h.inZone .image && decide (h.st = .free ∨ h.st = .erased))).head? with
  | none => s
  | some h => s.updGroup h.id (fun (x : Group) => { x with zone := .spare, st := .free, members := [], cap := 0 })

/-- A group that is reclaimed takes the configured width: it gives up its last members, or takes loose blocks, for which another
group is dissolved where there are none (R176). -/
def State.rewidth (s : State) (id : Nat) : State :=
  match s.cellar.groups.find? (fun g => g.id == id) with
  | none => s
  | some g =>
    let ms := g.members.take (s.dataDies + 1)
    let s := s.cond (decide ((s.widen ms).length < s.dataDies + 1)) (fun s => s.dissolve id)
    let ms := s.widen ms
    s.updGroup id (fun (h : Group) => { h with members := ms, cap := s.capOf ms.length h.zone })

/-- A member block whose erase failed is counted and retired (R189, R198). -/
def State.eraseFail (s : State) (k : Nat × Nat × Nat) : State :=
  let s := (s.inc (R.NCH_FAILS_ERASE k.1)).wr (R.NCH_LAST_ERR_DIE k.1) k.2.1
  (((s.wr (R.NCH_LAST_ERR_BLOCK k.1) k.2.2).wr (R.NCH_LAST_ERR_PAGE k.1) 0).detect 65 k.1).retireBlock k

/-- The members of a group that fail, are bad or are lost give way to substitutes, which may fail in their turn (R189). -/
def State.mendGroup (s : State) (id : Nat) (failed : List (Nat × Nat × Nat)) : Nat → State
  | 0 => s
  | n + 1 =>
    match s.cellar.groups.find? (fun g => g.id == id && !g.inZone .spare) with
    | none => s
    | some g =>
      let s := (g.members.filter (fun k => failed.contains k && !s.isBad k)).foldl State.eraseFail s
      let ms := s.badMembers g
      if ms.isEmpty then s else (ms.foldl (fun s k => s.mendMember id k) s).mendGroup id failed n

/-- The group has left every zone. -/
def State.isDropped (s : State) (id : Nat) : Bool := s.cellar.groups.any (fun g => g.id == id && g.inZone .spare)

/-- R189, R195: an erase is counted; `failed` are the blocks whose erase failed. The group is made whole first, so that every block
of it has been erased when it counts again. -/
def State.eraseNow (s : State) (id : Nat) (failed : List (Nat × Nat × Nat)) : State :=
  match s.cellar.groups.find? (fun g => g.id == id) with
  | none => s
  | some g =>
    if s.erasable g = false then s
    else
      let part := decide (g.st = .free) && !g.pendErase.isEmpty
      let s := s.cond (g.zone.pslc && !part) (fun s => g.members.foldl (fun s k => s.exchangeWorn id k) s)
      let s := (s.cond (!part) (fun s => s.rewidth id)).mendGroup id failed (failed.length + g.members.length + 1)
      ((s.cond (!s.isDropped id) (fun s => s.eraseGroup id)).showZ).resizeGo.showImage

/-- The erased groups that have lost a member are re-formed with a substitute, which is erased before they count again (R190,
R198). -/
def State.reform (s : State) : State :=
  let gs := s.cellar.groups.filter (fun g => decide (g.st = .erased ∨ (g.st = .free ∧ g.pendErase ≠ [])) && !g.inZone .spare &&
    !(s.badMembers g).isEmpty)
  (gs.foldl (fun s g => s.mendGroup g.id [] (g.members.length + 1)) s).showZ

/-- An erase completes. One that a kiln finds already issued runs to its end and is counted at the next start (R16, Table 07-8). -/
def State.eraseDone (s : State) (id : Nat) (failed : List (Nat × Nat × Nat)) : State :=
  if s.cellarOn then s.eraseNow id failed
  else s.cond s.inKiln (fun s => { s with cellar := { s.cellar with lateErase := s.cellar.lateErase ++ [(id, failed)] } })

/-- The erases that ended in a kiln are counted (Table 07-8). -/
def State.lateErases (s : State) : State :=
  let s := s.cellar.lateErase.foldl (fun s e => s.eraseNow e.1 e.2) s
  { s with cellar := { s.cellar with lateErase := [] } }

def execNandEraseDone (group : Nat) (failed : List (Nat × Nat × Nat)) (s : State) : Host.Outcome State Fault Refusal :=
  .next (finish (s.begin.eraseDone group failed))

/-- A spare group joins the kiln zone, ahead of the others (R189, Table 08-11). -/
def State.spareFirst (s : State) : State :=
  match s.cellar.groups.find? (fun g => g.inZone .kilnSpare && decide (g.st = .erased)) with
  | none => s
  | some g => (s.updGroup g.id (fun (h : Group) => { h with zone := .kiln, erasedAt := 0 })).showZ

/-- R198: a program fails: its block is retired, the copies of its wordline are abandoned and their granules stay dirty
(Table 06-6); in K5 the ordinals of its codewords are used up, and once no granule is read any more its granules are not drained
again (R236, R239), and a spare group is written first (R251). -/
def State.programFail (s : State) (chan die blk : Nat) (page : Nat) (granules : List Nat) : State :=
  let s := (s.inc (R.NCH_FAILS_PROGRAM chan)).wr (R.NCH_LAST_ERR_DIE chan) die
  let s := (((s.wr (R.NCH_LAST_ERR_BLOCK chan) blk).wr (R.NCH_LAST_ERR_PAGE chan) (page % 4096)).detect 64 chan).retireBlock
    (chan, die, blk)
  let s := (s.reform.showSpares chan die).cond (s.rd R.KLN_STAT_STATE == 13) (fun s =>
    ({ s with kiln := { s.kiln with ordinals := s.kiln.ordinals + granules.length } }).spareFirst)
  let s := granules.foldl (fun s g => if (s.inflightOf g .prog).isSome then s.freeCopy g else s) s
  s.cond (s.rd R.KLN_STAT_STATE == 13 && s.kiln.stopReads) (fun s =>
    (granules.filter (fun g => s.isDirty g)).foldl State.kilnLose s)

def execNandProgramFail (chan die blk page : Nat) (granules : List Nat) (s : State) : Host.Outcome State Fault Refusal :=
  .next (finish (s.begin.cond (decide (chan % 32 < s.variant.nchs)) (fun s => s.programFail (chan % 32) die blk page granules)))

/-! ### Dies and channels (R190, R199) -/

/-- R199: the die is retired; its erased kiln-zone groups leave Z (R190). -/
def State.retireDie (s : State) (chan die : Nat) : State :=
  if s.cellar.deadDies.has (chan * 16 + die) then s
  else
    let s := { s with cellar := { s.cellar with deadDies := s.cellar.deadDies.insert1 (chan * 16 + die) } }
    let s := (s.setBit (R.NCH_DIE_MAP_RETIRED chan) die true).inc R.CEL_DIES_RETIRED
    let s := s.wr (R.NCH_STAT_DIES chan) (s.liveDies chan)
    ((((s.wr R.CEL_DIES_USABLE (s.rd R.CEL_DIES_USABLE - 1)).detect 63 chan).closeBroken).reform).project

def execDieTimeout (chan die : Nat) (s : State) : Host.Outcome State Fault Refusal :=
  .next (finish (s.begin.cond (decide (chan % 32 < s.variant.nchs)) (fun s => s.retireDie (chan % 32) (die % 16))))

/-- Copies on a dead channel that are not yet relocated keep its condition standing (Table 16-2). -/
def State.relocCheck (s : State) (chan : Nat) : State :=
  let left := s.cellar.map.any (fun e => (entState e.2 == 1 || entState e.2 == 2) && (addrBlock (entAddr e.2)).1 == chan)
  s.cond (!left && s.safe.conds.has (62 * 32 + chan)) (fun s => s.setCond 62 chan false)

/-- R199: the channel is declared dead. -/
def State.killChannel (s : State) (chan : Nat) : State :=
  if s.cellar.deadChans.has chan then s
  else
    let s := { s with cellar := { s.cellar with deadChans := s.cellar.deadChans.insert1 chan } }
    let s := (s.wr (R.NCH_STAT_DEAD chan) 1).wr R.CEL_DIES_USABLE (s.rd R.CEL_DIES_USABLE - s.liveDies chan)
    let s := s.wr (R.NCH_STAT_DIES chan) 0
    ((((s.setCond 62 chan true).closeBroken.moveWraps chan).reform).relocCheck chan).project

def execChannelDead (chan : Nat) (s : State) : Host.Outcome State Fault Refusal :=
  .next (finish (s.begin.killChannel (chan % 32)))

/-! ### Reads (R185 to R187) -/

/-- The copies of a block are to be moved. -/
def State.relocate (s : State) (k : Nat × Nat × Nat) : State :=
  if s.cellar.reloc.contains k then s else { s with cellar := { s.cellar with reloc := s.cellar.reloc ++ [k] } }

/-- A member of the stripe of an address, other than its own block, is on a lost die or channel (R186). -/
def State.otherLost (s : State) (a : Nat) : Bool :=
  (s.groupOf a).any (fun g => g.members.any (fun m => decide (m ≠ addrBlock a) && !s.dieOk m))

/-- The step at which a read of `a` ends whose codeword first yields at `step`: it begins at the level that the block remembers, goes
through the rebuild where the die is lost, and finds nothing where the rebuild fails (R185, R186, R199). -/
def State.reach (s : State) (a step : Nat) : Nat :=
  let k := addrBlock a
  let level := ((s.cellar.blocks.find? (fun b => decide (b.key = k))).map (fun b => b.level)).getD 0
  let st := if step ≤ 9 ∧ s.dieOk k = false then 9 else if step ≤ 7 then max step level else step
  if st = 9 ∧ s.otherLost a then 10 else st

/-- R203: a block that reaches its count of reads is due for a patrol at once. -/
def State.disturb (s : State) (k : Nat × Nat × Nat) : State :=
  match s.cellar.blocks.find? (fun b => decide (b.key = k)) with
  | none => s
  | some b =>
    let pslc := s.cellar.groups.any (fun g => g.members.contains k && g.zone.pslc)
    let top := max 10 (s.rd R.CEL_ERR_CTRL_DISTURB_K) * 1000 * (if pslc then 5 else 1)
    s.cond (b.reads == top && !s.cellar.patrolDue.contains k) (fun s =>
      { s with cellar := { s.cellar with patrolDue := s.cellar.patrolDue ++ [k] } })

/-- R186: a rebuild reads the codewords in the same slot of the other pages of the stripe. -/
def State.rebuildReads (s : State) (a : Nat) : State :=
  match s.groupOf a with
  | none => s
  | some g => (g.members.filter (fun m => m != addrBlock a)).foldl (fun s m =>
      (s.updBlock m (fun (b : Block) => { b with reads := b.reads + 1 })).disturb m) s

/-- One read of a codeword that succeeded at a step of the ladder, or, above 9, at none: counters, the block's level and reads, a
rebuild and what follows from it (R185, R186, R198, R203). The 30 days between two rebuilds of one block are counted in operating
seconds (DESIGN CHOICE, assumption 193). -/
def State.ladder (s : State) (a step : Nat) : State :=
  let k := addrBlock a
  let chan := k.1
  let s := s.updBlock k (fun (b : Block) => { b with reads := b.reads + 1, level := if step ≤ 7 then step else b.level })
  let s := s.cond (decide (1 ≤ step) && decide (step ≤ 7)) (fun s => s.inc (R.NCH_RETRY chan))
  let s := s.disturb k
  let s := s.cond (step == 8) (fun s => (s.inc (R.NCH_SOFT chan)).relocate k)
  if step < 9 then s
  else if step = 9 then
    let s := ((s.inc (R.NCH_REBUILT chan)).detect 66 chan).rebuildReads a
    let again := s.cellar.blocks.any (fun b => decide (b.key = k) && b.rebuiltAt != 0 &&
      decide (s.opsec + 1 < b.rebuiltAt + 2592000))
    let s := (s.updBlock k (fun (b : Block) => { b with rebuiltAt := s.opsec + 1 })).relocate k
    s.cond again (fun s => (s.retireBlock k).reform.showSpares k.1 k.2.1)
  else
    let s := (s.inc (R.NCH_UNREAD chan)).wr (R.NCH_LAST_ERR_DIE chan) k.2.1
    ((s.wr (R.NCH_LAST_ERR_BLOCK chan) k.2.2).wr (R.NCH_LAST_ERR_PAGE chan) (a / 4 % 4096)).detect 67 chan

/-- The copy of an unfilled granule is gone: `STATE` 3, listed as R268 says, one General Media record (Table 07-7). -/
def State.loseGranule (s : State) (g : Nat) : State :=
  let m := s.mask g
  let s := (s.setEntry g (mkEntry 3 true 0 0)).listPoison g (m == 0) (~~~ m)
  (s.detect 75 0).mediaEvent g

/-- A copy of a granule is unreadable or its entry corrupt (Table 07-7): an unfilled granule is lost; a filled clean one becomes
dirty; the old copy is released. -/
def State.unreadable (s : State) (g : Nat) : State :=
  if s.unfilled g then s.loseGranule g
  else
    let s := if s.isDirty g then s else s.markDirty g
    s.setEntry g 0

/-- A map page is unreadable: `LOST` set, every granule of the region as its state says (Table 07-7). -/
def State.pageLost (s : State) (r : Nat) : State :=
  let s := { s with cellar := { s.cellar with dirLost := s.cellar.dirLost.insert1 r } }
  (List.range granulesPerRegion).foldl (fun s i => s.unreadable (r * granulesPerRegion + i)) s

/-- A guest granule is unreadable: its region is lost in the volume directory and will be reported (R364). -/
def State.guestLost (s : State) (slot g : Nat) : State :=
  let r := g / granulesPerRegion
  let s := { s with racking := { s.racking with guests := s.racking.guests.map (fun (v : Guest) =>
    if v.slot = slot then { v with lost := v.lost.insert1 r, lostDue := v.lostDue.insert1 r, held := v.held.erase1 r } else v) } }
  let v := s.racking.guests.find? (fun v => v.slot == slot)
  let s := (s.wr (R.RCK_GUEST_LOST slot) ((v.map (fun v => v.lost.card)).getD 0)).wr (R.RCK_GUEST_HELD slot)
    ((v.map (fun v => v.held.card)).getD 0)
  (s.detect 116 0).sendLost slot

/-- R185, R202: a read at `a` ends at a step, with `errs` bit errors corrected; an unreadable codeword has the outcome of its
context, and one with too many errors has its block moved. The hard-decision capability is 96 bit errors (Table 07-6). -/
def State.readDone (s : State) (a step errs : Nat) (what : ReadFor) : State :=
  let step := s.reach a step
  let s := s.cond (decide (clampTo 20 90 (s.rd R.CEL_ERR_CTRL_REFRESH_PCT) * 96 < 100 * errs)) (fun s => s.relocate (addrBlock a))
  let s := (s.ladder a step).cond (decide (step ≤ 9)) (fun s => s.bump R.CRY_DEC)
  if step ≤ 9 then s
  else
    match what with
    | .granule g => if s.hasCopy g && entAddr (s.entry g) == a then s.unreadable g else s
    | .mapPage r => s.pageLost r
    | .records => ({ s with cellar := { s.cellar with seq := s.cellar.seq + 1 } }).detect 81 0
    | .guest slot g => s.guestLost slot g

def execCodewordReadDone (addr step errs : Nat) (what : ReadFor) (s : State) : Host.Outcome State Fault Refusal :=
  .next (finish (s.begin.cond s.cellarOn (fun s => s.readDone addr step errs what)))

/-! ### Map flush and scrub (R181, R184) -/

/-- Kiln logs whose regions have all been merged leave the chain (R280). -/
def State.chainCheck (s : State) : State :=
  let left := s.cellar.chain.filter (fun l => l.entries.any (fun e => s.cellar.dirKiln.has (e.granule / granulesPerRegion)))
  ({ s with cellar := { s.cellar with chain := left } }).showChain

/-- R181: the map page of a region is written at `a` and its directory delta logged. -/
def State.flushPage (s : State) (r a : Nat) : State :=
  if s.cellarOn = false ∨ ¬ (s.cellar.mapDirty.has r ∨ s.cellar.dirKiln.has r) ∨ s.placeFree a = false ∨
      s.inImageZone a = false then s
  else
    let lo := r * granulesPerRegion
    let hi := lo + granulesPerRegion
    let out := s.cellar.base.keep (fun k => !(decide (lo ≤ k) && decide (k < hi)))
    let page := s.cellar.map.keep (fun k => decide (lo ≤ k) && decide (k < hi))
    let s := (((s.putCodeword a r 1 0 []).noteProgram a).countUsed 1).bump R.CRY_ENC
    let s := { s with cellar := { s.cellar with
      base := page.foldl (fun (m : NMap) (e : Nat × Nat) => m.set e.1 e.2) out, mapDirty := s.cellar.mapDirty.erase1 r,
      loaded := s.cellar.loaded.insert1 r, dirKiln := s.cellar.dirKiln.erase1 r, flushed := s.cellar.flushed.insert1 r,
      dir := s.cellar.dir.set r (mkEntry 0 false a (s.cellar.seq)), deltas := s.cellar.deltas + 1 } }
    let s := s.cond (decide (1048576 ≤ s.cellar.deltas)) State.dirCheckpoint
    (((s.chainCheck).showMap).showZ).showImage.fenceFlushed

def execMapFlushDone (region addr : Nat) (s : State) : Host.Outcome State Fault Refusal :=
  .next (finish (s.begin.flushPage region addr))

/-- Entries of loaded map pages that name no codeword of their own in the zone of their `STATE` (R184). -/
def State.corruptEntries (s : State) : List Nat :=
  (s.cellar.map.filter (fun e => s.cellar.loaded.has (e.1 / granulesPerRegion) && (entState e.2 == 1 || entState e.2 == 2) && (s.copyOf e.1).isNone)).map (fun e => e.1)

/-- R184: a pass over the map pages; `bad` are entries that the pass finds corrupt besides those the state shows. The condition
of F074 stands until a pass finds none (Table 16-2). -/
def State.mapScrub (s : State) (bad : List Nat) : State :=
  if s.cellarOn = false then s
  else
    let mine := bad.filter (fun g => s.hasCopy g && s.cellar.loaded.has (g / granulesPerRegion))
    let all := (mine ++ s.corruptEntries).eraseDups
    let s := all.foldl State.unreadable s
    let s := (s.inc R.CEL_MAP_SCRUB_PASSES).addSat R.CEL_MAP_SCRUB_ERRORS all.length
    s.cond (!all.isEmpty || s.condAny 74) (fun s => s.setCond 74 0 (!all.isEmpty))

def execMapScrub (bad : List Nat) (s : State) : Host.Outcome State Fault Refusal := .next (finish (s.begin.mapScrub bad))

/-! ### Moves (R191, R194, R195) -/

/-- The current copy of a granule is moved to `a` in the image zone: read at a step of the ladder, programmed with a new `SEQ`,
its entry committed with `STATE` 1 (R191). An unreadable copy has the outcome of Table 07-7. -/
def State.moveCopy (s : State) (g a step : Nat) : State :=
  let old := entAddr (s.entry g)
  let chan := (addrBlock old).1
  let step := s.reach old step
  let s := s.ladder old step
  match s.copyOf g with
  | none => (s.setCond 74 0 true).unreadable g
  | some c =>
    if 9 < step then s.unreadable g
    else
      let s := ((s.putCodeword a g 0 c.poison c.data).noteProgram a).countUsed 1
      let s := s.setEntry g (mkEntry 1 (c.poison != 0) a s.cellar.seq)
      (s.showImage).relocCheck chan

/-- The map page of a region is moved to `a`: read, programmed with a new `SEQ`, its directory entry following with a delta (R180,
R181). -/
def State.movePage (s : State) (r a step : Nat) : State :=
  let old := entAddr (s.cellar.dir.get r)
  let step := s.reach old step
  let s := s.ladder old step
  if 9 < step then s.pageLost r
  else
    let s := ((s.putCodeword a r 1 0 []).noteProgram a).countUsed 1
    let s := { s with cellar := { s.cellar with dir := s.cellar.dir.set r (mkEntry 0 false a s.cellar.seq),
                                                deltas := s.cellar.deltas + 1 } }
    (s.cond (decide (1048576 ≤ s.cellar.deltas)) State.dirCheckpoint).showImage

/-- Garbage collection runs: the free image-zone groups are below `GC_LOW_PCT` per cent of the zone plus 64 (R194). -/
def State.gcRuns (s : State) : Bool :=
  let free := (s.cellar.groups.filter (fun g => g.inZone .image && decide (g.st = .free ∨ g.st = .erased))).length
  decide (100 * free < clampTo 1 10 (s.rd R.CEL_GC_CTRL_GC_LOW_PCT) * s.zoneCount .image + 6400)

/-- The number of current codewords of a group. -/
def State.groupCurrent (s : State) (g : Group) : Nat := (s.groupCopies g).length + (s.groupPages g).length

/-- The closed image-zone group with the lowest fraction of current copies, on a tie the one closed earliest (R194). -/
def State.gcVictim (s : State) : Option Group :=
  let less := fun (g h : Group) =>
    let x := s.groupCurrent g * max 1 h.cap
    let y := s.groupCurrent h * max 1 g.cap
    decide (x < y) || (x == y && decide (g.closedAt < h.closedAt))
  (s.cellar.groups.filter (fun g => g.inZone .image && decide (g.st = .closed))).foldl (fun (best : Option Group) g =>
    match best with
    | none => some g
    | some b => some (if less g b then g else b)) none

/-- A group of the image or guest zone that is past `REFRESH_DAYS` of cellar time (R202). -/
def State.pastRefresh (s : State) (g : Group) : Bool :=
  !g.zone.pslc && decide (g.writtenAt + clampTo 30 730 (s.rd R.CEL_RET_CTRL_REFRESH_DAYS) * 86400 < s.cellarTime)

/-- What stands at `a` is due for a move at rank 6: garbage collection has its group, its age or its block asks for it, or its die or
channel is lost (R194, R198, R199, R202). -/
def State.moveDue (s : State) (a : Nat) : Bool :=
  s.cellar.reloc.contains (addrBlock a) || !s.dieOk (addrBlock a) ||
    (s.groupOf a).any (fun g => s.pastRefresh g || (s.gcRuns && (s.gcVictim.map (fun v => v.id)) == some g.id))

/-- The mover of current copies runs and may program `a`. -/
def State.mayMove (s : State) (a : Nat) : Bool := s.cellarOn && s.placeFree a && s.inImageZone a

/-- A copy of the guest zone is moved: read, and programmed with a new `SEQ`, or lost where it cannot be read (R199, R364). -/
def State.moveGuest (s : State) (slot g step : Nat) : State :=
  if s.cellarOn = false ∨ s.racking.copies.all (fun c => c.1 != slot || c.2.1 != g) then s
  else if 9 < step then s.guestLost slot g
  else
    let n := s.cellar.seq + 1
    { s with
      cellar := { s.cellar with seq := n },
      racking := { s.racking with copies := s.racking.copies.map (fun (c : Nat × Nat × Codeword) =>
        if c.1 = slot ∧ c.2.1 = g then (c.1, c.2.1, { c.2.2 with seq := n }) else c) } }.countUsed 1

/-- R194: garbage collection, and the relocations that run at its rank, move one current copy of the image zone: that of a granule,
or the map page of a region. The records zone moves by being rewritten (R187); the copies of the guest zone have no map entry
here (assumption 195). -/
def State.gcMove (s : State) (what : ReadFor) (a step : Nat) : State :=
  match what with
  | .granule g =>
    if s.mayMove a ∧ entState (s.entry g) = 1 ∧ s.moveDue (entAddr (s.entry g)) then s.moveCopy g a step else s
  | .mapPage r =>
    if s.mayMove a ∧ s.cellar.dir.get r ≠ 0 ∧ s.moveDue (entAddr (s.cellar.dir.get r)) then s.movePage r a step else s
  | .records => s.cond s.cellarOn (fun s => { s with cellar := { s.cellar with seq := s.cellar.seq + 1 } })
  | .guest slot g => s.moveGuest slot g step

def execGarbageCollectMove (what : ReadFor) (addr step : Nat) (s : State) : Host.Outcome State Fault Refusal :=
  .next (finish (s.begin.gcMove what addr step))

/-- The write sequence of the kiln-zone copy that a granule's entry names; 0 where it names none. -/
def State.copySeq (s : State) (g : Nat) : Nat := ((s.codeword (entAddr (s.entry g))).map (fun c => c.seq)).getD 0

/-- The granule is the next of the fold: of the current kiln-zone copies, none was drained earlier (R191). -/
def State.foldNext (s : State) (g : Nat) : Bool :=
  entState (s.entry g) == 2 && s.cellar.map.all (fun e => entState e.2 != 2 || decide (s.copySeq g ≤ s.copySeq e.1))

/-- R191: the fold moves one current copy of the kiln zone, in drain order. -/
def State.foldMove (s : State) (g a step : Nat) : State :=
  if s.mayMove a ∧ s.foldNext g then (s.moveCopy g a step).showChain else s

def execFoldMoveCommit (granule addr step : Nat) (s : State) : Host.Outcome State Fault Refusal :=
  .next (finish (s.begin.foldMove granule addr step))

/-- The closed image-zone group that holds the longest-unwritten data. -/
def State.coldestGroup (s : State) : Option Group :=
  let cs := s.cellar.groups.filter (fun g => g.inZone .image && decide (g.st = .closed))
  let m := (cs.map (fun g => g.writtenAt)).foldl min ((cs.map (fun g => g.writtenAt)).headD 0)
  cs.find? (fun g => g.writtenAt == m)

/-- The life used of the most-worn good block exceeds that of the least-worn by more than the spread (R195). -/
def State.wornApart (s : State) : Bool :=
  let ls := s.wearBlocks.map s.blockLife
  decide (ls.foldl min (ls.headD 0) * 100 + s.lifeSpread < ls.foldl max 0 * 100)

/-- R195: with the spread exceeded, the copies and map pages of the coldest group move into the next free positions, which `addrs`
names in the order of the granules, then of the regions. -/
def State.wearLevel (s : State) (addrs : List Nat) : State :=
  let far := s.wornApart
  let s := s.showLife
  if s.cellarOn = false ∨ far = false then s
  else
    match s.coldestGroup with
    | none => s
    | some g =>
      let gs := s.groupCopies g
      let rs := s.groupPages g
      let s := (gs.zip addrs).foldl (fun s m =>
        s.cond (s.mayMove m.2 && entState (s.entry m.1) == 1) (fun s => s.moveCopy m.1 m.2 0)) s
      (rs.zip (addrs.drop gs.length)).foldl (fun s m => s.cond (s.mayMove m.2) (fun s => s.movePage m.1 m.2 0)) s

def execWearLevelCheck (addrs : List Nat) (s : State) : Host.Outcome State Fault Refusal :=
  .next (finish (s.begin.wearLevel addrs))

/-! ### Patrol (R204) -/

/-- One step of the patrol: the codewords it reads that need more than the first step, and how far the pass has come, in
per cent. The blocks due at once are among those it reads (R203). -/
def State.flashPatrol (s : State) (pct : Nat) (found : List (Nat × Nat × Nat × ReadFor)) : State :=
  let s := { s with cellar := { s.cellar with patrolDue := [] } }
  let s := found.foldl (fun s e => s.readDone e.1 e.2.1 e.2.2.1 e.2.2.2) s
  if pct < 100 then s.wr R.CEL_PATROL_PCT pct
  else
    let days := (s.opsec - s.cellar.patrolFrom) / 86400
    let s := { s with cellar := { s.cellar with patrolFrom := s.opsec } }
    ((s.inc R.CEL_PATROL_PASSES).wr R.CEL_PATROL_PCT 0).wr R.CEL_PATROL_LAST_DAYS (min 255 days)

def execFlashPatrolStep (pct : Nat) (found : List (Nat × Nat × Nat × ReadFor)) (s : State) : Host.Outcome State Fault Refusal :=
  .next (finish (s.begin.cond s.cellarOn (fun s => s.flashPatrol pct found)))

/-- `PATROL_DAYS` as treated: 1 to 14; 0 and above 14 are 14 (Table 07-11). -/
def State.patrolDays (s : State) : Nat :=
  let d := s.rd R.CEL_RET_CTRL_PATROL_DAYS
  if d = 0 ∨ 14 < d then 14 else d

/-- The running pass has lasted 1.25 × `PATROL_DAYS` (R204). -/
def State.flashPatrolLate (s : State) : Bool := decide (s.patrolDays * 108000 ≤ s.opsec - s.cellar.patrolFrom)

def execFlashPatrolOverdue (s : State) : Host.Outcome State Fault Refusal :=
  .next (finish (s.begin.cond s.flashPatrolLate (fun s => s.detect 76 0)))

end Sys2Proof.Machine
end

