-- ==== Sys2Proof/Machine/Kiln.lean ====
section
/-!
DEFINITION. Machine/Kiln.lean: the kiln's commands (chapter 08): triggers and readiness, the phases K0 to K7, the drain in its
order with merges and triage, the seal, and what power returning or the collapse of the hold-up bus does.
-/

namespace Sys2Proof.Machine

open Sys2Proof

/-! ### Power failing -/

/-- R222, R219, R226: `MAIN_IN` falls below `FAIL_MV`: trigger 1 while Ready or Primed, `POWER_DOWN` while Disarmed; a planned
kiln's pack path takes the load, and a debounce fails (R248). -/
def State.mainFail (s : State) : State :=
  if s.paged = false then s
  else
    let s := { s with power := { s.power with mainGood := false } }
    if s.inKiln then
      let s := s.fireTrigger 1 false false
      let s := s.cond (s.flag R.KLN_STAT_PLANNED && !s.packCarries && !s.kiln.pathDue) State.pathOn
      s.cond (s.flag R.KLN_STAT_DEBOUNCE) (fun s =>
        (({ s with kiln := { s.kiln with k2Force := true } }).wr R.KLN_STAT_DEBOUNCE 0).k2Check)
    else if s.kilnLive then (s.restExit).fireTrigger 1 false false
    else s.goDown

def execMainInFail (s : State) : Host.Outcome State Fault Refusal := .next (finish s.begin.mainFail)

/-- R218, R248: `MAIN_IN` below `WARN_MV`: the controller is Primed; a running debounce ends K2 at once. P1 ends, whose condition
has ceased (Table 15-3). -/
def State.mainWarn (s : State) : State :=
  let s := { s with power := { s.power with belowWarn := true } }
  let s := (s.cond (s.rd R.PWR_STAT_STATE == 1) State.restExit).prime
  s.cond (s.flag R.KLN_STAT_DEBOUNCE) (fun s =>
    (({ s with kiln := { s.kiln with k2Force := true } }).wr R.KLN_STAT_DEBOUNCE 0).k2Check)

def execMainInWarn (s : State) : Host.Outcome State Fault Refusal := .next (finish s.begin.mainWarn)

/-- Table 08-2: Primed to Ready once Early Warning is withdrawn and `MAIN_IN` is at or above `WARN_MV`, both for 4 hc. -/
def State.primedClear (s : State) : State :=
  if s.rd R.KLN_STAT_STATE = 2 ∧ s.flag R.PHS_STAT_EW = false ∧ s.power.belowWarn = false ∧ s.kiln.goodFrom + 4 ≤ s.hc then s.unprime else s

def execPrimedClear (s : State) : Host.Outcome State Fault Refusal := .next (finish s.begin.primedClear)

/-- `EW_HC` as treated; 0 is off (Table 08-13). -/
def State.ewHc (s : State) : Nat :=
  let v := s.rd R.KLN_TRIG_EW_HC
  if v = 0 then 0 else max 8 v

/-- R222: Early Warning has stood for `EW_HC` hc: trigger 2. -/
def State.escalate (s : State) : State :=
  if s.ewHc ≠ 0 ∧ s.flag R.PHS_STAT_EW ∧ s.track.ewSince + s.ewHc ≤ s.hc ∧ s.kilnLive then
    (s.restExit).fireTrigger 2 false false
  else s

def execEwEscalation (s : State) : Host.Outcome State Fault Refusal := .next (finish s.begin.escalate)

/-- R248, Table 08-2: `MAIN_IN` is back at or above `WARN_MV`: the debounce of a kiln of trigger 1 in K0 to K2, or the 4 hc back
from Primed; power is good again for R249. -/
def State.powerReturn (s : State) : State :=
  let s := { s with power := { s.power with mainGood := true, belowWarn := false } }
  s.cond (s.rd R.KLN_STAT_STATE == 2 ||
      (s.inKiln && decide (s.kilnPhase ≤ 2) && s.rd R.KLN_STAT_TRIGGER == 1 && !s.kiln.k2Force)) State.startDebounce

def execPowerReturn (s : State) : Host.Outcome State Fault Refusal := .next (finish s.begin.powerReturn)

/-! ### K0 to K2 -/

/-- The pack path is the hold-up bus's source: identified packs that stand by carry it. -/
def State.pathsCarry (s : State) : State :=
  s.each 2 (fun s p => s.cond (s.pack p).standby (fun s => s.setPack p { s.pack p with pathOn := true }))

/-- R230: the bus sense confirms the pack path: K1 ends and K2 opens; later in a planned kiln the paths carry the bus (R226). -/
def State.pathConfirmed (s : State) : State :=
  if s.inKiln then ({ s with kiln := { s.kiln with pathDue := false } }).pathsCarry.openK2 else s

def execPackPathConfirmed (s : State) : Host.Outcome State Fault Refusal := .next (finish s.begin.pathConfirmed)

/-- R230: 50 µs without confirmation of a path that is due: the fault latches, the kiln goes on; in a planned kiln whose `MAIN_IN`
fails later as in K1 (R226). -/
def State.pathLate (s : State) : State :=
  if s.inKiln ∧ s.kiln.pathDue then (({ s with kiln := { s.kiln with pathDue := false } }).detect 37 0).openK2 else s

def execPackPathTimeout (s : State) : Host.Outcome State Fault Refusal := .next (finish s.begin.pathLate)

/-- R248: the debounce has run 4 hc with power good in K0, K1 or K2 of a kiln of trigger 1 or 2. -/
def State.debounced (s : State) : State :=
  if s.inKiln ∧ s.kilnPhase ≤ 2 ∧ s.rd R.KLN_STAT_TRIGGER ≤ 2 ∧ s.flag R.KLN_STAT_DEBOUNCE ∧ s.kiln.goodFrom + 4 ≤ s.hc then
    ({ s with power := { s.power with mainGood := true } }).cancelKiln.authDue
  else s

def execKilnCancel (s : State) : Host.Outcome State Fault Refusal := .next (finish s.begin.debounced)

/-- R227: a phase is over its time allotment: latched once in the phase, and the kiln goes on. -/
def State.phaseLate (s : State) : State :=
  if s.inKiln ∧ s.kiln.late = false then ({ s with kiln := { s.kiln with late := true } }).detect 39 0 else s

def execPhaseTimeOverrun (s : State) : Host.Outcome State Fault Refusal := .next (finish s.begin.phaseLate)

/-! ### K3 and K4 -/

def execKilnSnapshotDone (s : State) : Host.Outcome State Fault Refusal :=
  .next (finish (s.begin.cond (s.rd R.KLN_STAT_STATE == 11) State.snapshotDone))

def execKilnShedDone (s : State) : Host.Outcome State Fault Refusal :=
  .next (finish (s.begin.cond (s.rd R.KLN_STAT_STATE == 12) State.shedDone))

/-! ### The drain (R234 to R240) -/

/-- The kiln priority class of a region: its pin, else `DEF_CLASS` (R238, R304). -/
def State.kilnClass (s : State) (r : Nat) : Nat :=
  match s.kiln.pinsK3.find? (fun p => decide (p.base ≤ r) && decide (r < p.base + p.size)) with
  | some p => p.cls
  | none => s.rd R.KLN_CTRL_DEF_CLASS

/-- Granules of a used channel that are still to be drained. -/
def State.toDrain (s : State) (c : Nat) : List Nat :=
  (RSet.diff s.dirty.bits s.kiln.lost).toList.filter (fun g => s.chanOf (s.placeOf g) == c)

/-- The order of triage: class, heat level at K3, region, granule (R238). -/
def State.triageKey (s : State) (g : Nat) : Nat :=
  let r := g / granulesPerRegion
  (s.kilnClass r * 128 + s.kiln.heatK3.get r / 2) * 2 ^ 33 + g

/-- The order outside triage among the ranks of a channel: keep-region ranks last, then the fewest left, then the lower index
(R234). -/
def State.rankKey (s : State) (left : List Nat) (r : Nat) : Nat :=
  b2n (s.keepRank r) * 2 ^ 40 + (left.filter (fun g => s.rankOf (s.placeOf g) == r)).length * 8 + r

/-- The element of a list with the least key. -/
def leastBy (key : Nat → Nat) : List Nat → Option Nat
  | [] => none
  | x :: t =>
    match leastBy key t with
    | none => some x
    | some y => if key y < key x then some y else some x

/-- The granule that channel `c` drains next (R234, R238). -/
def State.nextDrain (s : State) (c : Nat) : Option Nat :=
  let left := s.toDrain c
  if s.flag R.KLN_STAT_TRIAGE then leastBy s.triageKey left
  else
    let ranks := (List.range 8).filter (fun r => left.any (fun g => s.rankOf (s.placeOf g) == r))
    match leastBy (s.rankKey left) ranks with
    | none => none
    | some r => leastBy id (left.filter (fun g => s.rankOf (s.placeOf g) == r))

/-- All 64 lines. -/
def allLines : LineMask := BitVec.ofNat 64 (2 ^ 64 - 1)

/-- The flash copy that a merge takes the lines outside the mask from: data and lines that are poison (R235). `unread` tells that
the read of it failed. -/
def State.mergeCopy (s : State) (g : Nat) (unread : Bool) : Memory × LineMask :=
  if entState (s.entry g) = 0 then ([], 0)
  else if entState (s.entry g) = 3 ∨ unread ∨ 9 < s.reach (entAddr (s.entry g)) 0 then ([], allLines)
  else
    match s.copyOf g with
    | some c => (c.data, c.poison)
    | none => ([], allLines)

/-- The lines of a granule that the drain finds uncorrectable. -/
def ueLines (ue : List (Nat × Ecc)) (g : Nat) : LineMask :=
  (ue.filter (fun x => x.1 / 64 == g)).foldl (fun (m : LineMask) x =>
    match x.2 with
    | .clean => m
    | .corrected _ => m
    | .failing _ => m ||| lineBit (x.1 % 64)) 0

/-- What the ECC finds in the lines of a granule that the drain reads: corrected errors, and uncorrectable ones, which are counted
and recorded (R114, R116, R131). -/
def State.drainErrors (s : State) (g : Nat) (ue : List (Nat × Ecc)) : State :=
  (ue.filter (fun x => x.1 / 64 == g && !s.isPoison g (x.1 % 64))).foldl (fun s x =>
    match x.2 with
    | .clean => s
    | .corrected d => s.corrected g (x.1 % 64) d
    | .failing d => (s.recordUe g (x.1 % 64) d).detect 10 (s.dmcOf (s.chanOf (s.placeOf g)))) s

/-- What the kiln saves of a granule: its data and poisoned lines; for an unfilled granule the merge of its masked lines with its
flash copy (R235, Table 08-11). -/
def State.drainImage (s : State) (g : Nat) (ue : List (Nat × Ecc)) (unread : Bool) : Memory × LineMask :=
  if s.unfilled g then
    let m := s.mask g
    let c := s.mergeCopy g unread
    (Memory.mergeLines c.1 (s.granuleData g) m, (c.2 &&& ~~~ m) ||| ((s.poisonMask g ||| ueLines ue g) &&& m))
  else (s.granuleData g, s.poisonMask g)

/-- A kiln-zone place that a stripe may take: of a group that this kiln writes, or of one that the allocator holds open; with every
channel served, of the earliest erased one that counts in Z (R188). -/
def State.kilnPlace (s : State) (a : Nat) : Bool :=
  s.placeFree a && (s.groupOf a).any (fun g => (g.kilnUse && g.inZone .kiln) ||
    (s.inZ g && (s.targets.contains g.id || s.zGroups.head?.any (fun h => h.id == g.id))))

/-- A codeword of the kiln's stream put at `a`: its group is allocated to the kiln and listed (R236). -/
def State.putKiln (s : State) (a index typ : Nat) (poison : LineMask) (data : Memory) : State :=
  let id := (s.groupOf a).elim 0 (fun h => h.id)
  let s := (((s.putCodeword a index typ poison data).noteProgram a).updGroup id (fun (h : Group) => { h with kilnUse := true })).bump
    R.CRY_ENC
  { s with kiln := { s.kiln with groups := if s.kiln.groups.contains id then s.kiln.groups else s.kiln.groups ++ [id] } }

/-- The position in the stream of data codeword `d`, and of log codeword `k` (R236). -/
def streamPos (d : Nat) : Nat := d + d / 512
def logPos (k : Nat) : Nat := 513 * k + 512

/-- Log codeword `logWords` programmed once its 512 entries are there (R236). -/
def State.logWord (s : State) (a : Nat) : State :=
  if 512 * (s.kiln.logWords + 1) ≤ s.kiln.log.length ∧ s.kilnPlace a then
    let s := s.putKiln a s.kiln.logWords 3 0 []
    { s with kiln := { s.kiln with logWords := s.kiln.logWords + 1 } }
  else s

/-- The open stripe of `a` closed with padding: every place of it that data could still take (R239). -/
def State.padKiln (s : State) (a : Nat) : State :=
  match s.groupOf a with
  | none => s
  | some g => (g.members.flatMap (fun m => (List.range 4).map (fun i => mkAddr m.1 m.2.1 m.2.2 (a / 4 % 4096) i))).foldl
      (fun s b => s.cond (s.kilnPlace b) (fun s => s.putKiln b 0 6 0 [])) s

/-- One granule safe at `a`: programmed, logged, its dirty bit cleared (R232, R236). -/
def State.saveGranule (s : State) (g a : Nat) (img : Memory × LineMask) : State :=
  let merged := s.unfilled g
  let s := s.putKiln a g 0 img.2 img.1
  let e : LogEntry := { granule := g, poison := img.2 != 0, ordinal := s.kiln.ordinals }
  let s := { s with kiln := { s.kiln with
    log := s.kiln.log ++ [e], ordinals := s.kiln.ordinals + 1, merges := s.kiln.merges + b2n merged } }
  ((s.markClean g).wr R.KLN_DRAINED (s.rd R.KLN_DRAINED + 1)).wr R.KLN_REMAIN (s.rd R.KLN_REMAIN - 1)

/-- One data codeword of a stripe: the next granule of its channel; a filled granule with an uncorrectable line is lost and the
drain moves on (R237). `fuel` bounds the granules lost on the way. -/
def State.drainSlot (s : State) (d : DrainSlot) (ue : List (Nat × Ecc)) (unread : List Nat) : Nat → State
  | 0 => s
  | n + 1 =>
    match s.nextDrain d.chan with
    | none => s
    | some g =>
      if s.unfilled g = false ∧ ueLines ue g &&& ~~~ (s.poisonMask g) ≠ 0 then
        ((s.drainErrors g ue).kilnLose g).drainSlot d ue unread n
      else if s.kiln.capacity ≤ s.kiln.ordinals ∨ s.kilnPlace d.addr = false then s
      else (s.drainErrors g ue).saveGranule g d.addr (s.drainImage g ue (unread.contains g))

/-- A kiln stripe has programmed with its parity: its granules are safe; after `CDL0` only granules whose read had begun come, and
their stripes are closed with padding (R239); ranks shed as they empty; the projection runs after every
65,536 granules, and at the capacity no further granule is read (R232, R234, R238, R240). -/
def State.stripeDone (s : State) (slots : List DrainSlot) (ue : List (Nat × Ecc)) (unread : List Nat) : State :=
  if s.rd R.KLN_STAT_STATE = 13 then
    let before := s.rd R.KLN_DRAINED
    let s := s.settleShed
    let s := slots.foldl (fun s d => if d.log then s.logWord d.addr else s.drainSlot d ue unread (ue.length + 1)) s
    let s := s.cond s.kiln.stopReads (fun s => slots.foldl (fun s d => s.padKiln d.addr) s)
    let n := s.rd R.KLN_DRAINED - before
    let r := (slots.head?.map (fun d => s.rated (addrBlock d.addr).1 (addrBlock d.addr).2.1)).getD (3000, 30000)
    let s := ((s.countUsed (ceilDiv (3 * r.1 * n) r.2)).countDone n).sampleDrain
    let s := (s.showZ).shedRanks
    let s := s.cond (decide (s.kiln.capacity ≤ s.kiln.ordinals)) (fun s => { s with kiln := { s.kiln with stopReads := true } })
    s.cond (before / 65536 != s.rd R.KLN_DRAINED / 65536) State.project
  else s

/-- `bad` are the LDPC engines that failed the re-check of a codeword of the stripe before one passed (R29). -/
def execKilnStripeProgrammed (slots : List DrainSlot) (ue : List (Nat × Ecc)) (unread bad : List Nat) (s : State) :
    Host.Outcome State Fault Refusal :=
  .next (finish ((s.begin.cond (s.rd R.KLN_STAT_STATE == 13) (fun s => bad.foldl State.retireEngine s)).stripeDone slots ue
    unread))

/-- Whether K5 ends for a reason: 0 nothing left, 1 capacity used up, 2 the abort floor, 3 a rail that the drain needs has failed
(R239, R240, R252). -/
def State.drainOver (s : State) (reason : Nat) : Bool :=
  match reason with
  | 0 => (RSet.diff s.dirty.bits s.kiln.lost).isEmpty
  | 1 => decide (s.kiln.capacity ≤ s.kiln.ordinals)
  | 2 => s.kiln.floored
  | _ => s.drainRailLost

def execDrainComplete (reason : Nat) (s : State) : Host.Outcome State Fault Refusal :=
  .next (finish (s.begin.cond (s.rd R.KLN_STAT_STATE == 13 && s.drainOver reason) (fun s => s.drainEnd (min 3 reason))))

/-! ### K6 and K7 -/

/-- Uncorrectable errors met in K6 (Table 08-11, R163): a heat line shows the highest level, a debt line is owed whole where its
regions are racked, every granule of a lost map page's region is listed lost. -/
def State.keepErrors (s : State) (k : KeepFound) : State :=
  let heat := k.heat.foldl (fun (h : NMap) l => (List.range 64).foldl (fun (h : NMap) i => h.set (64 * l + i) 254) h) s.kiln.heatK3
  let s := { s with kiln := { s.kiln with heatK3 := heat } }
  let s := s.cond (!k.heat.isEmpty) (fun s => s.detect 27 0)
  let s := k.debt.foldl (fun s e => ((List.range 512).filter (fun i => (s.rackMask (512 * e.2 + i)).testBit e.1)).foldl
    (fun s i => s.setDebt e.1 ((s.debt e.1).insert1 (512 * e.2 + i))) s) s
  k.pages.foldl (fun s r => { s with kiln := { s.kiln with
    lost := s.kiln.lost.add (r * granulesPerRegion) (min (s.rd R.CAP_HOST) ((r + 1) * granulesPerRegion)),
    mapDirtyK3 := s.kiln.mapDirtyK3.erase1 r } }) s

def execSealComplete (hdrA hdrB rewritten secLost : Bool) (found : KeepFound) (s : State) : Host.Outcome State Fault Refusal :=
  .next (finish (s.begin.cond (s.rd R.KLN_STAT_STATE == 14) (fun s => (s.keepErrors found).seal hdrA hdrB rewritten secLost)))

/-- The last figures of a sealed cask's kiln, shown as restored by the next start (Table 08-13; assumption 14). -/
def State.castLast (s : State) : State :=
  if s.kiln.sealed then
    let put := fun (c : Cask) => if c.batch = s.rd R.KLN_BATCH then
      { c with ms := s.usOf (s.puNow - s.kiln.markK1) / 1000, ct := s.rd R.PHS_CT_DRAWN - s.kiln.m0,
               phaseUs := (List.range 8).map (fun k => s.rd (R.KLN_PHASE_US k)),
               phaseCt := (List.range 8).map (fun k => s.rd (R.KLN_PHASE_CT k)) } else c
    { s with cellar := { s.cellar with slot0 := s.cellar.slot0.map put, slot1 := s.cellar.slot1.map put } }
  else s

/-- The pack paths return to standby. -/
def State.pathsStandby (s : State) : State :=
  (s.setPack 0 { s.packA with pathOn := false }).setPack 1 { s.packB with pathOn := false }

/-- K7 is over: P3, a warm start, or Off (R249). -/
def State.kilnOver (s : State) : State :=
  if s.rd R.KLN_STAT_STATE = 15 then
    let s := (s.closePhase).castLast
    let woken := s.seq.due.contains 0 || s.bit R.SEQ_STAT_PENDING 0
    let s := ({ s with seq := { s.seq with due := [] } }.wr R.SEQ_STAT_PENDING 0).seqAbandon
    if s.power.mainGood ∧ s.kiln.p3Consent then s.enterP3.cond woken (fun s => s.startBegin 2)
    else if s.power.mainGood then (s.pathsStandby).startBegin 3
    else s.enterP4
  else s

def execKilnPowerDownDone (s : State) : Host.Outcome State Fault Refusal := .next (finish s.begin.kilnOver)

/-! ### The hold-up bus -/

/-- R254: a kiln loses its supply: an unsealed stop before the seal point. Without the CONTROL supplies every enable falls and the
device is Off; with them `POWER_DOWN` runs. -/
def State.kilnCut (s : State) (control : Bool) : State :=
  let s := { s with kiln := { s.kiln with unsealed := !s.kiln.sealed }, power := { s.power with mainGood := false } }
  let s := (s.wr R.KLN_STAT_STATE 0).seqAbandon
  if control then ((s.clrEnables mainMask).enterP4)
  else ({ s with power := { s.power with life := .goingDown } }).seqRequest 1

/-- R554: the hold-up bus collapses during a kiln. -/
def State.collapse (s : State) (control : Bool) : State :=
  if s.inKiln ∧ (2 ≤ s.kiln.lowFrames ∨ control) then s.kilnCut control else s

def execHoldupCollapse (control : Bool) (s : State) : Host.Outcome State Fault Refusal :=
  .next (finish (s.begin.collapse control))

/-! ### Readiness -/

/-- Every usable NAND channel has a program target in the kiln zone (Table 08-5). -/
def State.targetsReady (s : State) : Bool :=
  s.liveChans.all (fun c => s.cellar.groups.any (fun g => s.inZ g && g.members.any (fun m => m.1 == c)))

/-- The checks that fail (Table 08-5): outcomes of the comparator test, of the check word of `KILN_SHED` and of the ROM kiln's image
come with the command. -/
def State.readiness (s : State) (cmpOk shedOk romOk : Bool) : Nat :=
  b2n (!cmpOk) + b2n (s.rd R.PHS_SELFTEST_CDL_FAIL != 0) * 2 + b2n (!(s.progValid 2 && shedOk)) * 4 +
    b2n (!([s.packA, s.packB].any (fun p => p.swAt != 0 && decide (s.opsec + 1 ≤ p.swAt + 86400)))) * 8 +
    b2n (!(decide (0 < s.zNow) && s.targetsReady)) * 16 + b2n (!s.flag R.KLN_STAT_SLOT_READY) * 32 + b2n (!romOk) * 64 +
    b2n (!decide (s.rd R.CEL_MAP_DIRTY < s.mapLimit)) * 128

/-- R221: the readiness self-test; the controller's state does not change. -/
def State.selfTest (s : State) (cmpOk shedOk romOk : Bool) : State :=
  let bad := s.readiness cmpOk shedOk romOk
  let s := ((s.wr R.KLN_SELFTEST_FAIL bad).wr R.KLN_STAT_TEST_OK (b2n (bad == 0))).wr R.KLN_CTRL_SELFTEST 0
  let s := s.cond (bad == 0) (fun s => s.inc R.KLN_SELFTEST_PASSED)
  s.cond (bad != 0 || s.condAny 36) (fun s => s.setCond 36 0 (bad != 0))

def execKilnSelftest (cmpOk shedOk romOk : Bool) (s : State) : Host.Outcome State Fault Refusal :=
  .next (finish (s.begin.selfTest cmpOk shedOk romOk))

/-- R220: a write of `KLN.CTRL.ARM`: 1 arms, and the controller is Ready at once after Steep Ready; 0 disarms under maintenance
access only, which holds `PNG_DIAG` by the condition of the kiln-disarmed source. -/
def State.armWrite (s : State) (on : Bool) : State :=
  if on then
    let s := (s.wr R.KLN_CTRL_ARM 1).cond (s.condAny 44) (fun s => s.setCond 44 0 false)
    s.cond (s.rd R.KLN_STAT_STATE == 0) State.toReady
  else if s.maint.isOpen = false then s.reject 0x42
  else
    ((s.wr R.KLN_CTRL_ARM 0).cond s.kilnLive (fun s => s.wr R.KLN_STAT_STATE 0)).setCond 44 0 true

def execKilnArmWrite (who : Requester) (on : Bool) (s : State) : Host.Outcome State Fault Refusal :=
  .next (finish (s.begin.command (.kilnArmWrite who on) (s.admission who 0x42) 0x42 (fun s => s.armWrite on)))

end Sys2Proof.Machine
end

