-- ==== Sys2Proof/Machine/Flash.lean ====
section
/-!
DEFINITION. Machine/Flash.lean: the code flash (R504 to R513, R527): its command sequences, program and erase, the flash journal,
the boot record, and the hourly check.
-/

namespace Sys2Proof.Machine

open Sys2Proof

/-! ### CRC-32 -/

/-- The CRC-32 after one more 32-bit word, little-endian: 32 bits, the lowest first. -/
def crcWord (c w : Nat) : Nat := (List.range 32).foldl (fun x _ => crcBit x) (c ^^^ w)

/-- The CRC-32 of a list of words, little-endian (R422, Table 19-1). -/
def crc32 (ws : List Nat) : Nat := ws.foldl crcWord 0xFFFFFFFF ^^^ 0xFFFFFFFF

/-! ### Layout (Table 19-1) -/

/-- Bytes of a bank. -/
def bankBytes : Nat := 0x1000000
/-- The bank of a flash address. -/
def flashBank (a : Nat) : Nat := a / bankBytes % 2
/-- The address lies in the record region. -/
def inRecords (a : Nat) : Bool := decide (0xF00000 ≤ a % bankBytes)
/-- The largest package. -/
def packageMax : Nat := 15712256

/-- An operation runs in a bank. -/
def State.flashOp (s : State) (b : Nat) : Option FlashOp := if b = 0 then s.flash.op0 else s.flash.op1

/-- The operation of a bank set; its busy bit follows. -/
def State.setFlashOp (s : State) (b : Nat) (o : Option FlashOp) : State :=
  if b = 0 then { s with flash := { s.flash with op0 := o } }.wr R.CFL_STAT_BUSY0 (b2n o.isSome)
  else { s with flash := { s.flash with op1 := o } }.wr R.CFL_STAT_BUSY1 (b2n o.isSome)

/-- The code region of a bank is protected: the bank was booted or MGMT runs from it (R506). -/
def State.protectedBank (s : State) (b : Nat) : Bool := s.rd R.UPD_BOOTREC_BANK == b || s.rd R.UPD_STAT_RUN_BANK == b

/-! ### The flash journal (R511) -/

/-- Append a journal word; a full sector is left for the other, erased one. -/
def State.journal (s : State) (kind addr : Nat) : State :=
  let w : JournalWord := { kind := kind, addr := addr, done := true, valid := true }
  let f := s.flash
  let cur := if f.journalUse = 0 then f.journal0 else f.journal1
  let use := if 512 ≤ cur.length then 1 - f.journalUse else f.journalUse
  let l := if 512 ≤ cur.length then [w] else cur ++ [w]
  if use = 0 then { s with flash := { f with journal0 := l, journalUse := 0 } }
  else { s with flash := { f with journal1 := l, journalUse := 1 } }

/-- `DONE` programmed in every word of the address that is still open. -/
def State.journalDone (s : State) (addr : Nat) : State :=
  let mark := fun (w : JournalWord) => if w.addr = addr then { w with done := false } else w
  { s with flash := { s.flash with journal0 := s.flash.journal0.map mark, journal1 := s.flash.journal1.map mark } }

/-! ### Erase and program -/

/-- One more erase cycle of the sectors from `lo` up to `hi`, numbered address / 4,096 over both banks; a sector beyond 90,000
cycles latches (Table 19-14). -/
def State.countErases (s : State) (lo hi : Nat) : State :=
  (List.range (hi - lo)).foldl (fun s i =>
    let n := s.flash.erases.get (lo + i) + 1
    let s := { s with flash := { s.flash with erases := s.flash.erases.set (lo + i) n } }
    (s.wr R.CFL_ERASE_MAX (max n (s.rd R.CFL_ERASE_MAX))).cond (n == 90001) (fun s => s.detect 217 0)) s

/-- The copies of a bank's record region that lie in the sectors from `lo` up to `hi`, numbered over both banks, are lost: boot
record, sequencer store and calibration store (Table 19-2, assumption 161). -/
def State.loseRecords (s : State) (lo hi : Nat) : State :=
  let hit := fun (b first last : Nat) => decide (lo ≤ 4096 * b + 3840 + last) && decide (4096 * b + 3840 + first < hi)
  let s := s.cond (hit 0 0 0) (fun s => { s with flash := { s.flash with bootA := [] } })
  let s := s.cond (hit 1 0 0) (fun s => { s with flash := { s.flash with bootB := [] } })
  let off := fun (m b first last : Nat) => if hit b first last ∧ m.testBit (b + 1) then m - 2 ^ (b + 1) else m
  { s with
    seq := { s.seq with stored := off (off s.seq.stored 0 8 11) 1 8 11 },
    cal := { s.cal with stored := off (off s.cal.stored 0 24 27) 1 24 27 } }

/-- The sectors from `lo` up to `hi` erased: words, program counts and undefined marks gone. -/
def State.eraseSectors (s : State) (lo hi : Nat) : State :=
  let out := fun (w : Nat) => !(decide (512 * lo ≤ w) && decide (w < 512 * hi))
  (({ s with
      flash := { s.flash with words := s.flash.words.keep out, programs := s.flash.programs.keep out,
                              undefined := s.flash.undefined.cut (512 * lo) (512 * hi) } }).loseRecords lo
    hi).countErases lo hi

/-- The byte `b` stored at a flash address, words kept exclusive-ored with ones. -/
def putFlashByte (m : NMap) (a : Nat) (b : Byte) : NMap :=
  let w := m.get (a / 8)
  let sh := 2 ^ (8 * (a % 8))
  m.set (a / 8) (w - w / sh % 256 * sh + (b.toNat ^^^ 255) * sh)

/-! ### Command sequences (R507) -/

/-- The sequence of a requester. -/
def State.flashSeq (s : State) (fw : Bool) : FlashSeq := if fw then s.flash.firmware else s.flash.host

/-- The sequence replaced; `SEQ_OPEN` follows the host's. -/
def State.setFlashSeq (s : State) (fw : Bool) (q : FlashSeq) : State :=
  if fw then { s with flash := { s.flash with firmware := q } }
  else { s with flash := { s.flash with host := q } }.wr R.CFL_STAT_SEQ_OPEN (b2n (q.step != 0))

/-- `ERR` set. -/
def State.flashErr (s : State) (e : Nat) : State := s.wr R.CFL_STAT_ERR e

/-- A sequence ends with no operation (R507). -/
def State.breakSeq (s : State) (fw : Bool) : State := ((s.setFlashSeq fw {}).flashErr 1).detect 213 0

/-- The access check of a flash command: from K0 on none starts, for a host only under maintenance access (R507, R510, R70). -/
def State.flashAdmit (s : State) (fw : Bool) (who : Requester) : Admit :=
  if s.kiln.since then .ignore
  else if fw then .accept
  else
    match s.mayWrite who 0xD0 with
    | .accept => if s.maint.isOpen then .accept else .reject
    | .ignore => .ignore
    | .reject => .reject

/-- A write of `CFL.KEY`. -/
def State.keyWrite (s : State) (fw : Bool) (v : Nat) : State :=
  let q := s.flashSeq fw
  if (q.step = 0 ∧ v = 0x5A3C) ∨ (q.step = 1 ∧ v = 0xC3A5) then s.setFlashSeq fw { step := q.step + 1 } else s.breakSeq fw

def execCflKeyWrite (fw : Bool) (who : Requester) (value : Nat) (s : State) : Host.Outcome State Fault Refusal :=
  .next (finish (s.begin.under (s.flashAdmit fw who) 0xD0 (fun s => s.keyWrite fw (value % 65536))))

/-- No word of the sector is programmed: the next program of it is its first (R511). -/
def State.sectorFresh (s : State) (sec : Nat) : Bool :=
  s.flash.words.all (fun e => e.1 / 512 != sec) && s.flash.programs.all (fun e => e.1 / 512 != sec)

/-- The rest of a sequence whose keys are written: opcode and address, and for a program its word. A protected code region,
a bank that operates and the rules of R508 refuse it, in this order (DEDUCED, assumption 18). -/
def State.flashCommand (s : State) (fw : Bool) (op addr word : Nat) : State :=
  let b := flashBank addr
  let addr := addr % (2 * bankBytes)
  if (s.flashSeq fw).step ≠ 2 then s.breakSeq fw
  else
    let s := s.setFlashSeq fw {}
    let old := s.flash.words.get (addr / 8)
    let new := word % 2 ^ 64 ^^^ (2 ^ 64 - 1)
    if inRecords addr = false ∧ s.protectedBank b then s.flashErr 4
    else if (s.flashOp b).isSome then s.flashErr 5
    else if op = 1 ∧ inRecords addr = false ∧ (old ≠ 0 ∨ s.flash.undefined.has (addr / 8)) then s.flashErr 2
    else if op = 1 ∧ inRecords addr ∧ (2 ≤ s.flash.programs.get (addr / 8) ∨ new &&& old ≠ old) then s.flashErr 3
    else
      let first := op == 1 && s.sectorFresh (addr / 4096)
      let s := (s.flashErr 0).cond fw (fun s => s.cond (op != 1 || first) (fun s =>
        if op = 1 then s.journal 3 (addr / 4096 * 4096) else s.journal (op - 1) addr))
      s.setFlashOp b (some { opcode := op, addr := addr, word := word % 2 ^ 64, who := b2n fw })

def execWordProgram (fw : Bool) (who : Requester) (addr word : Nat) (s : State) : Host.Outcome State Fault Refusal :=
  .next (finish (s.begin.under (s.flashAdmit fw who) 0xD0 (fun s => s.flashCommand fw 1 addr word)))

def execSectorErase (fw : Bool) (who : Requester) (addr : Nat) (s : State) : Host.Outcome State Fault Refusal :=
  .next (finish (s.begin.under (s.flashAdmit fw who) 0xD0 (fun s => s.flashCommand fw 2 addr 0)))

def execBlockErase (fw : Bool) (who : Requester) (addr : Nat) (s : State) : Host.Outcome State Fault Refusal :=
  .next (finish (s.begin.under (s.flashAdmit fw who) 0xD0 (fun s => s.flashCommand fw 3 addr 0)))

/-- Opcode 0x0F: the sequence starts over with no operation. -/
def State.seqReset (s : State) (fw : Bool) : State :=
  if (s.flashSeq fw).step = 2 then (s.setFlashSeq fw {}).flashErr 0 else s.breakSeq fw

def execSequenceReset (fw : Bool) (who : Requester) (s : State) : Host.Outcome State Fault Refusal :=
  .next (finish (s.begin.under (s.flashAdmit fw who) 0xD0 (fun s => s.seqReset fw)))

/-- The sectors an erase takes, numbered address / 4,096. -/
def FlashOp.span (o : FlashOp) : Nat × Nat :=
  if o.opcode = 2 then (o.addr / 4096, o.addr / 4096 + 1) else (o.addr / 65536 * 16, o.addr / 65536 * 16 + 16)

/-- R508: the operation of a bank ends and is verified. A location that did not verify is undefined from then on. -/
def State.flashDone (s : State) (b : Nat) (ok : Bool) : State :=
  match s.flashOp b with
  | none => s
  | some o =>
    let s := s.setFlashOp b none
    let w := o.addr / 8
    if o.opcode = 1 then
      let new := o.word ^^^ (2 ^ 64 - 1)
      let f := s.flash
      let f := if inRecords o.addr then { f with programs := f.programs.set w (f.programs.get w + 1) } else f
      if ok then
        { s with flash := { f with words := f.words.set w (f.words.get w ||| new) } }.cond
          (o.who == 1 && o.addr / 8 % 512 == 511) (fun s => s.journalDone (o.addr / 4096 * 4096))
      else (({ s with flash := { f with undefined := f.undefined.insert1 w } }).flashErr 6).detect 214 0
    else
      let sp := o.span
      if ok then (s.eraseSectors sp.1 sp.2).journalDone o.addr
      else
        let s := (s.countErases sp.1 sp.2).loseRecords sp.1 sp.2
        (({ s with flash := { s.flash with undefined := s.flash.undefined.add (512 * sp.1) (512 * sp.2) } }).flashErr 6).detect
          214 0

def execFlashOpDone (bank : Nat) (ok : Bool) (s : State) : Host.Outcome State Fault Refusal :=
  .next (finish (s.begin.flashDone (bank % 2) ok))

/-! ### The boot record (R512, R513) -/

/-- A word appended to one copy; a full sector is erased first. -/
def putBootWord (l : List BootWord) (w : BootWord) : List BootWord := if 512 ≤ l.length then [w] else l ++ [w]

/-- A boot-record word written, to copy A and then to copy B; its `GEN` is one above that of the newest valid word. -/
def State.bootWrite (s : State) (bank svn : Nat) (trial : Bool) : State :=
  let gen := ((bootCandidate s.flash.bootA s.flash.bootB).map (fun w => w.gen + 1)).getD 1
  let w : BootWord := { gen := gen % 65536, bank := bank, trial := trial, tried := true, svn := svn % 65536, crcOk := true }
  { s with flash := { s.flash with bootA := putBootWord s.flash.bootA w, bootB := putBootWord s.flash.bootB w } }

/-! ### Packages in the banks -/

/-- The package of a bank. -/
def State.bankPkg (s : State) (b : Nat) : Option Package := if b = 0 then s.update.bank0 else s.update.bank1

/-- The package of a bank replaced. -/
def State.setBankPkg (s : State) (b : Nat) (k : Option Package) : State :=
  if b = 0 then { s with update := { s.update with bank0 := k } } else { s with update := { s.update with bank1 := k } }

/-- The staging bank is emptied (R516, R518). -/
def State.dropStaging (s : State) : State :=
  let s := s.setBankPkg (s.rd R.UPD_STAT_STAGE_BANK) none
  let s := { s with update := { s.update with staged := false, discard := false, ended := false, erased := [] } }
  (((s.wr R.UPD_STAGED_VER 0).wr R.UPD_SVN_STAGED 0).wr R.UPD_RECEIVED 0).wr R.UPD_TOTAL 0

/-- R527: the hourly check: corrected words, and the sectors (bank, sector) whose check fails. In the booted or running bank the
condition of F211 stands and a repair is asked for; another bank is marked empty. -/
def State.flashCheck (s : State) (corrected : Nat) (bad : List (Nat × Nat)) : State :=
  let s := (s.inc R.CFL_CRC_PASS).addSat R.CFL_ECC_CORRECTED corrected
  let s := s.cond (corrected != 0) (fun s => s.detect 212 0)
  let s := bad.foldl (fun s e =>
    let s := (s.wr R.CFL_CRC_FAIL_BANK e.1).wr R.CFL_CRC_FAIL_SECTOR e.2
    let s := s.inc R.CFL_CRC_FAIL_COUNT
    if s.protectedBank e.1 then
      let s := { s with flash := { s.flash with corrupt := s.flash.corrupt.insert1 (4096 * e.1 + e.2), corruptOld := false } }
      ((s.setCond 211 0 true).cond (!s.flag R.UPD_STAT_REPAIR) (fun s => s.vendor 0 7 [7, 8])).wr R.UPD_STAT_REPAIR 1
    else (s.cond s.update.staged (fun s => s.dropStaging.wr R.UPD_STAT_STATE 0)).detect 211 0) s
  let booted := bad.any (fun e => e.1 == s.rd R.UPD_BOOTREC_BANK)
  if s.flash.corruptOld ∧ booted = false then
    ({ s with flash := { s.flash with corrupt := [], corruptOld := false } }).setCond 211 0 false
  else s

def execCodeFlashCheck (corrected : Nat) (bad : List (Nat × Nat)) (s : State) : Host.Outcome State Fault Refusal :=
  .next (finish (s.begin.flashCheck corrected bad))

end Sys2Proof.Machine
end

