-- ==== Sys2Proof/Machine/Update.lean ====
section
/-!
DEFINITION. Machine/Update.lean: the firmware update (R514 to R528): download and staging, the checks of Table 19-7, activation
by hand-over or at the next start, confirmation and fallback.
-/

namespace Sys2Proof.Machine

open Sys2Proof

/-! ### Sources and the update lock (R516) -/

/-- CXL return codes of a firmware transfer: in progress, out of order (assumption 13). -/
def rcXferBusy : Nat := 7
def rcXferOrder : Nat := 8

/-- The code that `UPD.STAT.LOCK` shows for a source: port and path (`cxl` for Transfer FW); 5 in ROM recovery (Table 19-15). -/
def State.source (s : State) (p : Nat) (cxl : Bool) : Nat :=
  if s.power.life = .recovery then 5 else 2 * p + (if cxl then 1 else 2)

/-- A mailbox command of an update: in ROM recovery the boot ROM takes it (R440), else as any command. -/
def State.updBox (s : State) (c : Instr) (p op : Nat) (body : State → State) : State :=
  if s.power.life = .recovery then
    (if s.hasPort p ∧ s.linkUp p then body (s.wr (R.HP_MBOX_OPCODE p) op) else s)
  else s.mbox c p op false true body

/-- Another source holds the lock. -/
def State.lockedOut (s : State) (src : Nat) : Bool := s.rd R.UPD_STAT_LOCK != 0 && s.rd R.UPD_STAT_LOCK != src

/-- The answer to a source that the lock keeps out. -/
def busyCode (cxl : Bool) : Nat := if cxl then rcXferBusy else rcBusy

/-- The lock and its idle time taken or renewed. -/
def State.keepLock (s : State) (src : Nat) : State := (s.wr R.UPD_STAT_LOCK src).wr R.UPD_LOCK_IDLE 60

/-- The lock ended. -/
def State.freeLock (s : State) : State := (s.wr R.UPD_STAT_LOCK 0).wr R.UPD_LOCK_IDLE 0

/-- The bank that takes a package: neither booted nor running; in ROM recovery the one that the last valid boot-record word does
not name, or bank 0 (R517, R528). -/
def State.stageBank (s : State) : Nat :=
  if s.power.life = .recovery then
    (match bootCandidate s.flash.bootA s.flash.bootB with
      | some w => 1 - w.bank
      | none => 0)
  else 1 - s.rd R.UPD_BOOTREC_BANK

/-- START from a source, `len` bytes where the path tells (R516, Table 19-9). A repair is accepted although the lock would hold it
(R527). Answers the state and the return code. -/
def State.updStart (s : State) (p : Nat) (cxl : Bool) (len : Nat) : State × Nat :=
  let src := s.source p cxl
  let st := s.rd R.UPD_STAT_STATE
  let repair := s.flag R.UPD_STAT_REPAIR
  if (s.lockedOut src ∧ repair = false) ∨ ¬ (st = 0 ∨ st = 3 ∨ (repair ∧ st ≤ 3)) ∨ s.kiln.since then (s, busyCode cxl)
  else if packageMax < len then (s, rcInvalid)
  else
    let s := ((s.dropStaging).wr R.UPD_STAT_STAGE_BANK s.stageBank).wr R.UPD_STAT_STATE 1
    let s := (s.setBankPkg s.stageBank none).wr R.UPD_TOTAL len
    (({ s with update := { s.update with repair := repair, fromRom := decide (s.power.life = Life.recovery) } }.wr
      R.UPD_REJECT_CODE 0).keepLock src, rcSuccess)

/-- The blocks of 64 KiB of the staging bank that a write of bytes from `lo` up to `hi` enters for the first time are erased, with
their journal words (R511, R517). -/
def State.eraseFor (s : State) (lo hi : Nat) : State :=
  let base := s.rd R.UPD_STAT_STAGE_BANK * bankBytes
  let blocks := ((List.range (hi / 65536 + 1)).filter (fun k => decide (lo < (k + 1) * 65536) && decide (k * 65536 < hi) &&
    !s.update.erased.has k))
  blocks.foldl (fun s k =>
    let a := base + k * 65536
    let s := ((s.journal 2 a).eraseSectors (a / 4096) (a / 4096 + 16)).journalDone a
    { s with update := { s.update with erased := s.update.erased.insert1 k } }) s

/-- The journal words of the sectors whose first word a write from `lo` up to `hi` programs (R511). -/
def State.journalFor (s : State) (lo hi : Nat) : State :=
  let base := s.rd R.UPD_STAT_STAGE_BANK * bankBytes
  ((List.range (hi / 4096 + 1)).filter (fun k => decide (lo ≤ k * 4096) && decide (k * 4096 < hi))).foldl (fun s k =>
    s.journal 3 (base + k * 4096)) s

/-- `DONE` of the sectors whose last word a write from `lo` up to `hi` has programmed (R511). -/
def State.journalEnd (s : State) (lo hi : Nat) : State :=
  let base := s.rd R.UPD_STAT_STAGE_BANK * bankBytes
  ((List.range (hi / 4096 + 1)).filter (fun k => decide (lo < (k + 1) * 4096) && decide ((k + 1) * 4096 ≤ hi))).foldl (fun s k =>
    s.journalDone (base + k * 4096)) s

/-- One block of the package at `off`, `len` bytes (R517). `ok` tells whether it programs and verifies (R508). -/
def State.putBlock (s : State) (p : Nat) (cxl : Bool) (off len : Nat) (data : Memory) (ok : Bool) : State × Nat :=
  let src := s.source p cxl
  let total := if s.rd R.UPD_TOTAL = 0 then packageMax else s.rd R.UPD_TOTAL
  let got := s.rd R.UPD_RECEIVED
  if s.lockedOut src then (s, busyCode cxl)
  else if s.rd R.UPD_STAT_STATE ≠ 1 ∨ s.kiln.since then (s, rcInvalid)
  else if off ≠ got then (s.keepLock src, if cxl then rcXferOrder else rcInvalid)
  else if total - got < len ∨ 65528 < len then (s.keepLock src, rcInvalid)
  else
    let base := s.rd R.UPD_STAT_STAGE_BANK * bankBytes + off
    let s := ((s.eraseFor off (off + len)).journalFor off (off + len)).keepLock src
    if ok = false then ((s.flashErr 6).detect 214 0, rcInvalid)
    else
      let words := (List.range len).foldl (fun (m : NMap) i => putFlashByte m (base + i) (data.byte i)) s.flash.words
      ((({ s with flash := { s.flash with words := words } }).journalEnd off (off + len)).wr R.UPD_RECEIVED (got + len), rcSuccess)

/-- End: the package goes to its checks (R518, Table 19-9). -/
def State.updEnd (s : State) (p : Nat) (cxl : Bool) : State × Nat :=
  let src := s.source p cxl
  if s.lockedOut src then (s, busyCode cxl)
  else if s.rd R.UPD_STAT_STATE ≠ 1 then (s, rcInvalid)
  else ((s.wr R.UPD_STAT_STATE 2).keepLock src, rcSuccess)

/-- ABORT: the update ends; in Confirming it is a fallback trigger (R516, R523). -/
def State.updAbort (s : State) (p : Nat) (cxl : Bool) : State × Nat :=
  let src := s.source p cxl
  let st := s.rd R.UPD_STAT_STATE
  if s.lockedOut src then (s, busyCode cxl)
  else if st = 1 ∨ st = 2 ∨ st = 3 then (((s.dropStaging).wr R.UPD_STAT_STATE 0).freeLock, rcSuccess)
  else if st = 5 then (s.fallback.freeLock, rcSuccess)
  else if st = 0 then (s.freeLock, rcSuccess)
  else (s, rcBusy)

/-- A state and a return code as the answer of a mailbox command. -/
def answer (p : Nat) (r : State × Nat) : State := r.1.reply p r.2 []

/-! ### Activation (R521, R524, R525) -/

/-- Settings blocks in force whose format the descriptor of a package changes (R525). -/
def State.changedBlocks (s : State) (k : Package) : List Setting :=
  s.update.settings.filter (fun b => k.settings.any (fun d => d.id == b.id && d.format != b.format))

/-- A block whose format changes has no `RESET_OK`. -/
def State.resetBarred (s : State) (k : Package) : Bool :=
  (s.changedBlocks k).any (fun b => k.settings.any (fun d => d.id == b.id && !d.resetOk))

/-- Processors present (FABRIC only with the fabric, assumption 15). -/
def State.present (s : State) (n : Nat) : Bool := decide (1 ≤ n) && decide (n ≤ 5) && (n != 2 || s.variant.fabric)

/-- A package is rejected with a code of Table 19-7, and for code 8 the mix: the staging bank is discarded, the update ends
(R518). -/
def State.rejectPackage (s : State) (code mix : Nat) : State :=
  ((((s.wr R.UPD_REJECT_CODE code).wr R.UPD_REJECT_MIX mix).detect 227 0).dropStaging.wr R.UPD_STAT_STATE 0).freeLock

/-- Online activation: ST4, Ready and Normal, and settings that may be reset (R524, R525). -/
def State.activate (s : State) (p : Nat) (cxl : Bool) : State × Nat :=
  let src := s.source p cxl
  match s.bankPkg (s.rd R.UPD_STAT_STAGE_BANK) with
  | none => (s, rcInvalid)
  | some k =>
    if s.lockedOut src then (s, busyCode cxl)
    else if s.rd R.UPD_STAT_STATE ≠ 3 then (s, rcInvalid)
    else if s.rd R.STP_STAT_PHASE ≠ 4 ∨ s.rd R.KLN_STAT_STATE ≠ 1 ∨ s.rd R.SAF_STAT_STATE ≠ 0 then (s, rcBusy)
    else if k.digestsOk = false then (s.rejectPackage 7 0, rcInvalid)
    else if s.resetBarred k then (s.wr R.UPD_REJECT_CODE 9, rcInvalid)
    else
      let todo := [1, 2, 3, 4, 5].filter (fun n => s.present n && k.images.any (fun i => i.typ == n))
      let s := { s with update := { s.update with left := todo, changed := [], handAt := 0 } }
      (((s.wr R.UPD_STAT_STATE 4).wr R.UPD_HANDOVER 0).nextHandover, rcSuccess)

/-- Reset activation: a trial word for the staged bank (R524). -/
def State.activateReset (s : State) (p : Nat) (cxl : Bool) : State × Nat :=
  let src := s.source p cxl
  match s.bankPkg (s.rd R.UPD_STAT_STAGE_BANK) with
  | none => (s, rcInvalid)
  | some k =>
    if s.lockedOut src then (s, busyCode cxl)
    else if s.rd R.UPD_STAT_STATE ≠ 3 ∨ s.kiln.since then (s, rcInvalid)
    else ((s.bootWrite (s.rd R.UPD_STAT_STAGE_BANK) k.svn true).wr R.UPD_STAT_STATE 6, rcSuccess)

/-! ### The commands -/

/-- R516, R517: a block by Brew Transfer; the last byte of `LENGTH` ends the package (assumption 16). -/
def State.brewBlock (s : State) (p off len : Nat) (data : Memory) (ok : Bool) : State :=
  let r := s.putBlock p false off len data ok
  let whole := decide (r.2 = rcSuccess) && r.1.rd R.UPD_TOTAL != 0 && r.1.rd R.UPD_RECEIVED == r.1.rd R.UPD_TOTAL
  if r.2 ≠ rcSuccess then answer p r
  else s.background p (fun s =>
    let r := s.putBlock p false off len data ok
    (r.1.cond whole (fun s => s.wr R.UPD_STAT_STATE 2)).bgEnd p 0xC030 rcSuccess [])

def execBrewTransfer (port off len : Nat) (data : Memory) (ok : Bool) (s : State) : Host.Outcome State Fault Refusal :=
  .next (finish (s.begin.updBox (.brewTransfer port off len data ok) (port % 2) 0xC030 (fun s => s.brewBlock (port % 2) off len data ok)))

/-- The update status: state, lock, staging and running bank, bytes received and in all, staged version, rejection code and
mix. -/
def State.statusWords (s : State) : List Nat :=
  [s.rd R.UPD_STAT_STATE, s.rd R.UPD_STAT_LOCK, s.rd R.UPD_STAT_STAGE_BANK, s.rd R.UPD_STAT_RUN_BANK, s.rd R.UPD_RECEIVED,
    s.rd R.UPD_TOTAL, s.rd R.UPD_STAGED_VER, s.rd R.UPD_REJECT_CODE, s.rd R.UPD_REJECT_MIX]

/-- A status read by the holder renews its lock. -/
def State.updStatus (s : State) (p : Nat) : State :=
  let src := s.source p false
  (s.cond (s.rd R.UPD_STAT_LOCK == src) (fun s => s.keepLock src)).reply p rcSuccess s.statusWords

def execUpdateStatus (port : Nat) (s : State) : Host.Outcome State Fault Refusal :=
  .next (finish (s.begin.updBox (.updateStatus port) (port % 2) 0xC031 (fun s => s.updStatus (port % 2))))

def execUpdateStart (port len : Nat) (s : State) : Host.Outcome State Fault Refusal :=
  .next (finish (s.begin.updBox (.updateStart port len) (port % 2) 0xC031 (fun s => answer (port % 2) (s.updStart (port % 2) false len))))

def execUpdateActivate (port : Nat) (s : State) : Host.Outcome State Fault Refusal :=
  .next (finish (s.begin.updBox (.updateActivate port) (port % 2) 0xC031 (fun s => answer (port % 2) (s.activate (port % 2) false))))

def execUpdateActivateAtReset (port : Nat) (s : State) : Host.Outcome State Fault Refusal :=
  .next (finish (s.begin.updBox (.updateActivateAtReset port) (port % 2) 0xC031 (fun s => answer (port % 2) (s.activateReset (port % 2) false))))

def execUpdateAbort (port : Nat) (s : State) : Host.Outcome State Fault Refusal :=
  .next (finish (s.begin.updBox (.updateAbort port) (port % 2) 0xC031 (fun s => answer (port % 2) (s.updAbort (port % 2) false))))

def execTransferFwInitiate (port : Nat) (s : State) : Host.Outcome State Fault Refusal :=
  .next (finish (s.begin.updBox (.transferFwInitiate port) (port % 2) 0x0201 (fun s => answer (port % 2) (s.updStart (port % 2) true 0))))

def execTransferFwContinue (port off len : Nat) (data : Memory) (ok : Bool) (s : State) : Host.Outcome State Fault Refusal :=
  .next (finish (s.begin.updBox (.transferFwContinue port off len data ok) (port % 2) 0x0201 (fun s =>
    answer (port % 2) (s.putBlock (port % 2) true off len data ok))))

def execTransferFwEnd (port : Nat) (s : State) : Host.Outcome State Fault Refusal :=
  .next (finish (s.begin.updBox (.transferFwEnd port) (port % 2) 0x0201 (fun s => answer (port % 2) (s.updEnd (port % 2) true))))

def execTransferFwAbort (port : Nat) (s : State) : Host.Outcome State Fault Refusal :=
  .next (finish (s.begin.updBox (.transferFwAbort port) (port % 2) 0x0201 (fun s => answer (port % 2) (s.updAbort (port % 2) true))))

/-- START, one block and End together; the first part that is refused gives the answer. -/
def State.updFull (s : State) (p len : Nat) (data : Memory) (ok : Bool) : State × Nat :=
  let a := s.updStart p true len
  if a.2 ≠ rcSuccess then a
  else
    let b := a.1.putBlock p true 0 len data ok
    if b.2 ≠ rcSuccess then b else b.1.updEnd p true

def execTransferFwFull (port len : Nat) (data : Memory) (ok : Bool) (s : State) : Host.Outcome State Fault Refusal :=
  .next (finish (s.begin.updBox (.transferFwFull port len data ok) (port % 2) 0x0201 (fun s => answer (port % 2) (s.updFull (port % 2) len data ok))))

def execActivateFwOnline (port : Nat) (s : State) : Host.Outcome State Fault Refusal :=
  .next (finish (s.begin.updBox (.activateFwOnline port) (port % 2) 0x0202 (fun s => answer (port % 2) (s.activate (port % 2) true))))

def execActivateFwReset (port : Nat) (s : State) : Host.Outcome State Fault Refusal :=
  .next (finish (s.begin.updBox (.activateFwReset port) (port % 2) 0x0202 (fun s => answer (port % 2) (s.activateReset (port % 2) true))))

/-- R516: 60 s without a command from the holder: the staging bank is discarded. -/
def State.lockExpired (s : State) : State :=
  let st := s.rd R.UPD_STAT_STATE
  if s.rd R.UPD_STAT_LOCK = 0 ∨ s.rd R.UPD_LOCK_IDLE ≠ 0 ∨ ¬ (st = 1 ∨ st = 2 ∨ st = 3) then s
  else (((s.dropStaging).wr R.UPD_STAT_STATE 0).freeLock).detect 230 0

def execUpdateLockExpired (s : State) : Host.Outcome State Fault Refusal := .next (finish s.begin.lockExpired)

/-! ### Staging checks (R518, R519) -/

/-- The bit of `VARIANTS` and the `PART` of a variant (Table 19-4). -/
def variantBit (v : Variant) : Nat :=
  match v with
  | .f => 0
  | .s => 1
  | .e => 2
def variantPart (v : Variant) : Nat :=
  match v with
  | .f => 0x3216
  | .s => 0x3216
  | .e => 0x1608

/-- The image of processor `n` in mix `k`: new for the first `k`, else the one that runs. -/
def mixImage (new cur : List Image) (k n : Nat) : Option Image :=
  match (if n ≤ k then new.find? (fun i => i.typ == n) else none) with
  | some i => some i
  | none => cur.find? (fun i => i.typ == n)

/-- Mix `k` is legal (R519). -/
def State.mixOk (s : State) (new : List Image) (k : Nat) : Bool :=
  let is := (([1, 2, 3, 4, 5].filter s.present).map (mixImage new s.update.confirmed k)).filterMap id
  is.all (fun a => is.all (fun b => a.typ == b.typ || decide (b.minPeer ≤ a.ifVer))) &&
    is.all (fun a => a.typ != 5 || decide (a.minPeer ≤ s.rd R.ID_ROM_IF))

/-- The first check of Table 19-7 that fails, and the failing mix of code 8. A repair must carry the running version (R527); ROM
recovery leaves code 8 out (R528). -/
def State.failingCheck (s : State) (k : Package) : Option (Nat × Nat) :=
  if k.formOk = false ∨ k.length ≠ s.rd R.UPD_RECEIVED ∨ (s.rd R.UPD_TOTAL ≠ 0 ∧ k.length ≠ s.rd R.UPD_TOTAL) then some (1, 0)
  else if k.sigOk = false then some (2, 0)
  else if s.update.revoked.has k.keySlot then some (3, 0)
  else if k.svn < s.rd R.UPD_SVN_COUNTER then some (4, 0)
  else if k.part ≠ variantPart s.variant ∨ k.variants.testBit (variantBit s.variant) = false then some (5, 0)
  else if s.rd (R.ID_FWVER 0) < k.minRom then some (6, 0)
  else if k.digestsOk = false then some (7, 0)
  else if s.update.fromRom then none
  else ((List.range 6).find? (fun m => !s.mixOk k.images m)).map (fun m => (8, m))

/-- The version of the package that MGMT runs from. -/
def State.runVersion (s : State) : Nat := ((s.bankPkg (s.rd R.UPD_STAT_RUN_BANK)).map (fun k => k.version)).getD 0

/-- Where the sector check table of a bank lies (Table 19-1). -/
def checkTable : Nat := 0xEFC000

/-- The two 32-bit halves of the flash word at a byte address. -/
def State.flashHalves (s : State) (a : Nat) : List Nat :=
  let w := s.flash.words.get (a / 8) ^^^ (2 ^ 64 - 1)
  [w % 2 ^ 32, w / 2 ^ 32]

/-- The CRC-32 of a stored sector (Table 19-1). -/
def State.sectorCrc (s : State) (a : Nat) : Nat := crc32 ((List.range 512).flatMap (fun i => s.flashHalves (a + 8 * i)))

/-- Staging writes the check word of every stored sector into the sector check table (R518). -/
def State.writeChecks (s : State) (bytes : Nat) : State :=
  let base := s.rd R.UPD_STAT_STAGE_BANK * bankBytes
  let n := ceilDiv bytes 4096
  let s := (s.eraseFor checkTable (checkTable + 4 * n)).journalFor checkTable (checkTable + 4 * n)
  let put := fun (m : NMap) (k : Nat) =>
    (List.range 4).foldl (fun (m : NMap) j =>
      putFlashByte m (base + checkTable + 4 * k + j) (BitVec.ofNat 8 (s.sectorCrc (base + 4096 * k) / 256 ^ j))) m
  let s := { s with flash := { s.flash with words := (List.range n).foldl put s.flash.words } }
  ((List.range 4).foldl (fun (s : State) k => s.journalDone (base + checkTable + 4096 * k))) s

/-- R518: the checks end with what they find in the staging bank. -/
def State.verifyDone (s : State) (k : Package) : State :=
  if s.rd R.UPD_STAT_STATE ≠ 2 then s
  else
    let b := s.rd R.UPD_STAT_STAGE_BANK
    match s.failingCheck k with
    | some c => s.rejectPackage c.1 c.2
    | none =>
      if s.update.repair ∧ k.version ≠ s.runVersion then
        let v := s.takeFree 4
        v.2.rejectPackage v.1 0
      else
        let s := ((s.setBankPkg b (some k)).writeChecks k.length).vendor 0 7 [7, 2, 3]
        if s.update.repair then
          let s := { s with update := { s.update with repair := false, erased := [] } }
          ((((s.bootWrite b k.svn false).wr R.UPD_STAT_REPAIR 0).wr R.UPD_STAT_STATE 0).freeLock)
        else
          let s := { s with update := { s.update with staged := true, erased := [] } }
          let s := ((s.wr R.UPD_STAGED_VER k.version).wr R.UPD_SVN_STAGED k.svn).wr R.UPD_STAT_STATE 3
          if s.update.fromRom then
            let s := { s with update := { s.update with fromRom := false } }
            let s := ((s.bootWrite b k.svn true).wr R.SNT_FAILS_WARM 0).wr R.SNT_FAILS_COLD 0
            let s := (s.wr R.SNT_FAILS_RECOVERY 0).wr R.SNT_CTRL_FORCE_COLD 1
            (({ s with safe := { s.safe with errnStart := false } }).startBegin s.power.cause).detect 234 0
          else s

def execVerifyDone (k : Package) (s : State) : Host.Outcome State Fault Refusal := .next (finish (s.begin.verifyDone k))

/-! ### Hand-over and confirmation -/

/-- Settings blocks among `ids` whose format the package changes take their defaults; the old copies are kept (R525). -/
def State.resetBlocks (s : State) (k : Package) (ids : List Nat) : State :=
  let bs := (s.changedBlocks k).filter (fun b => ids.contains b.id)
  if bs.isEmpty then s
  else
    let mine := fun (key : Nat) => bs.any (fun b => b.id == keyPage key) && survives key
    let s := { s with regs := s.regs.keep (fun key => !mine key),
                      update := { s.update with
                        kept := s.update.kept ++ bs,
                        keptRegs := (s.regs.keep mine).foldl (fun (m : NMap) (e : Nat × Nat) => m.set e.1 e.2) s.update.keptRegs,
                        settings := s.update.settings.map (fun (b : Setting) =>
                          if bs.any (fun (x : Setting) => x.id == b.id) then (k.settings.find? (fun (d : Setting) => d.id == b.id)).getD b else b) } }
    let s := bs.foldl (fun s b => s.notice b.id) s
    (s.addSat R.UPD_SETTINGS_RESET bs.length).detect 231 0

/-- The next start under a new image: blocks whose format the package changes are migrated, their old copies kept until confirmation;
one whose migration fails takes its defaults (R525). What the fields of a migrated block hold goes on in the new format
(assumption 146). -/
def State.migrateBlocks (s : State) (k : Package) (failed : List Nat) : State :=
  let bs := s.changedBlocks k
  let good := bs.filter (fun b => !failed.contains b.id)
  let s := (s.resetBlocks k failed).cond (bs.any (fun b => failed.contains b.id)) (fun s => s.detect 232 0)
  if good.isEmpty then s
  else
    let mine := fun (key : Nat) => good.any (fun b => b.id == keyPage key) && survives key
    let s := { s with update := { s.update with
      kept := s.update.kept ++ good,
      keptRegs := (s.regs.keep mine).foldl (fun (m : NMap) (e : Nat × Nat) => m.set e.1 e.2) s.update.keptRegs,
      settings := s.update.settings.map (fun (b : Setting) =>
        if good.any (fun (x : Setting) => x.id == b.id) then (k.settings.find? (fun (d : Setting) => d.id == b.id)).getD b else b) } }
    s.addSat R.UPD_SETTINGS_MIGRATED good.length

/-- R521: the processor in hand-over reports running on its new image after `ms`; `blocks` are the settings blocks that it owns. -/
def State.handoverDone (s : State) (ms : Nat) (blocks : List Nat) : State :=
  match s.update.left, s.bankPkg (s.rd R.UPD_STAT_STAGE_BANK) with
  | p :: rest, some k =>
    if s.rd R.UPD_STAT_STATE ≠ 4 ∨ s.halted.contains p = false then s
    else
      let s := (s.unhalt p).wr (R.ID_FWVER p) (((k.images.find? (fun i => i.typ == p)).map (fun i => i.version)).getD 0)
      let s := s.wr R.UPD_HANDOVER (max (min 255 ms) (s.rd R.UPD_HANDOVER))
      let s := s.cond (p == 4) (fun s => { s.wr R.UPD_STAT_RUN_BANK (s.rd R.UPD_STAT_STAGE_BANK) with
        update := { s.update with codeTable := k.codes } })
      let s := s.cond (p == 3) (fun s => { s with cellar := { s.cellar with dieTable := k.dies } })
      let s := { s with update := { s.update with left := rest, changed := s.update.changed ++ [p] } }
      let s := s.resetBlocks k blocks
      if rest.isEmpty then s.nextHandover
      else ({ s with update := { s.update with handAt := s.puNow + 1 } }).wr R.UPD_STAT_PROC 0
  | _ :: _, none => s
  | [], _ => s

/-- Confirmation (R523). -/
def State.confirm (s : State) : State :=
  let b := s.rd R.UPD_STAT_STAGE_BANK
  match s.bankPkg b with
  | none => s
  | some k =>
    let s := s.bootWrite b k.svn false
    let gen := ((bootCandidate s.flash.bootA s.flash.bootB).map (fun w => w.gen)).getD 0
    let s := s.wr R.UPD_SVN_COUNTER (max k.svn (s.rd R.UPD_SVN_COUNTER))
    let cur := s.update.confirmed.filter (fun i => !k.images.any (fun j => j.typ == i.typ))
    let s := { s with update := { s.update with confirmed := k.images ++ cur, changed := [], kept := [], keptRegs := [],
                                                staged := false } }
    let s := (((s.wr R.UPD_BOOTREC_GEN gen).wr R.UPD_BOOTREC_BANK b).wr R.UPD_BOOTREC_TRIAL 0).wr R.UPD_STAT_STAGE_BANK (1 - b)
    let s := ((s.wr R.UPD_STAT_STATE 0).wr R.UPD_STAGED_VER 0).wr R.UPD_CONFIRM_LEFT 0
    ((s.freeLock).inc R.UPD_COUNTS_CONFIRMED).vendor 0 7 [7, 5, 0]

/-- R523: the confirmation window ends with the readiness self-test. -/
def State.windowEnd (s : State) (cmpOk shedOk romOk : Bool) : State :=
  if s.rd R.UPD_STAT_STATE ≠ 5 ∨ s.kiln.since then s
  else
    let s := s.selfTest cmpOk shedOk romOk
    if s.rd R.KLN_SELFTEST_FAIL = 0 then s.confirm else s.fallback

def execConfirmWindowEnd (cmpOk shedOk romOk : Bool) (s : State) : Host.Outcome State Fault Refusal :=
  .next (finish (s.begin.windowEnd cmpOk shedOk romOk))

end Sys2Proof.Machine
end

