-- ==== Sys2Proof/Machine/Boot.lean ====
section
/-!
DEFINITION. Machine/Boot.lean: the commands of a start (chapter 15): `MAIN_IN` stable, and the end of each boot step with what
it finds and decides (Table 15-5, R435 to R440).
-/

namespace Sys2Proof.Machine

open Sys2Proof

/-! ### MAIN_IN -/

/-- R539, Table 15-2: `MAIN_IN` and the CONTROL supplies have held for 20 ms: a device that is off starts. After a force off it
does so only where `MR_N` is down no longer (R421); while `POWER_DOWN` runs the request is latched (Table 14-7). -/
def State.mainStable (s : State) : State :=
  let s := { s with power := { s.power with mainGood := true, belowWarn := false } }
  match s.power.life with
  | .off =>
    if s.seq.forcedOff ∧ s.seq.press then s
    else (({ s with seq := { s.seq with forcedOff := false } }).wr R.SNT_LAST_WAKE_SOURCE 5).startBegin s.power.cause
  | .dormant => s
  | .starting => s
  | .running => s
  | .failed => s
  | .recovery => s
  | .goingDown => s.seqRequest 0

def execMainInStable (s : State) : Host.Outcome State Fault Refusal := .next (finish s.begin.mainStable)

/-! ### B2: the kind of start, the counts and the boot bank -/

/-- A field value that a step finds, for fields that the tables mark found; `LDPC_ACTIVE` of `CAP` follows the repair summary
(Tables 01-10 and 03-6). -/
def State.findFields (s : State) (l : List (Nat × Nat)) : State :=
  let s := { s with regs := l.foldl (fun (m : NMap) (e : Nat × Nat) => if findable e.1 then m.set e.1 e.2 else m) s.regs }
  let s := s.cond (!s.variant.fabric) (fun s => s.wr (R.ID_FWVER 2) 0)
  let n := min (s.rd (R.ID_REPAIR 0) % 256) s.variant.engines
  (s.wr (R.ID_REPAIR 0) (s.rd (R.ID_REPAIR 0) / 256 * 256 + n)).wr R.CAP_UNITS_LDPC_ACTIVE n

/-- The rail counters of R406, by rail and kind. -/
def railCounter (i k : Nat) : Fld :=
  match k with
  | 0 => R.SEQ_RAIL_CNT_UV_WARN i
  | 1 => R.SEQ_RAIL_CNT_UV_FAULT i
  | 2 => R.SEQ_RAIL_CNT_OV_WARN i
  | 3 => R.SEQ_RAIL_CNT_OV_FAULT i
  | 4 => R.SEQ_RAIL_CNT_SEQ_UP_FAIL i
  | _ => R.SEQ_RAIL_CNT_SEQ_DOWN_FAIL i

/-- The rail counters are written to the copy that is not the newer (R406). -/
def State.saveRails (s : State) : State :=
  let m := (List.range 192).foldl (fun (m : NMap) j => m.set j (s.rd (railCounter (j / 6) (j % 6)))) []
  if s.seq.railCopy = 1 then { s with seq := { s.seq with railCopy := 2, railB := m } }
  else { s with seq := { s.seq with railCopy := 1, railA := m } }

/-- The rail counters resume from the newer copy (R406). -/
def State.loadRails (s : State) : State :=
  let m := if s.seq.railCopy = 2 then s.seq.railB else s.seq.railA
  s.each 192 (fun s j => s.wr (railCounter (j / 6) (j % 6)) (m.get j))

/-- Operating seconds and power cycles resume from the larger of the newest manifest and the newest recorder value (R52). -/
def State.resumeCounts (s : State) : State :=
  let c := newerCask s.cellar.slot0 s.cellar.slot1
  let r := s.recs.newest
  let s := s.wr R.PHS_OPSEC (max ((c.map (fun c => c.opsec)).getD 0) ((r.map (fun r => r.opsec)).getD 0))
  s.wr R.PHS_PCYCLES (max ((c.map (fun c => c.pcycles)).getD 0) ((r.map (fun r => r.pcycles)).getD 0))

/-- The unpowered interval that the island counted (R201, source 1). -/
def State.islandUnpow (s : State) (found : Nat) : State :=
  if found = 0 then { s with cellar := { s.cellar with assumed := 0 } }.wr R.CEL_UNPOW 0
  else
    let s := { s with cellar := { s.cellar with unpow := s.cellar.unpow + (found - 1), assumed := 0 } }
    ((s.wr R.SNT_UNPOW (found - 1)).wr R.CEL_UNPOW 1).wr R.CEL_UNPOW_S (min (found - 1) (2 ^ 32 - 1))

/-- The word `TRIED` of a copy cleared. -/
def clearTried (l : List BootWord) (gen : Nat) : List BootWord :=
  l.map (fun (w : BootWord) => if w.gen = gen ∧ w.crcOk then { w with tried := false } else w)

/-- R513: the boot bank. A copy whose newest word is invalid or older is completed (F216). -/
def State.bootBank (s : State) : State :=
  let f := s.flash
  match bootCandidate f.bootA f.bootB with
  | none => ((s.wr R.UPD_BOOTREC_GEN 0).wr R.UPD_BOOTREC_BANK 0).wr R.UPD_BOOTREC_TRIAL 0
  | some w =>
    let lag := fun (l : List BootWord) => (newestWord l).all (fun x => genNewer w.gen x.gen)
    let whole := fun (l : List BootWord) => l.getLast?.any (fun x => x.crcOk)
    let a := if lag f.bootA then putBootWord f.bootA w else f.bootA
    let b := if lag f.bootB then putBootWord f.bootB w else f.bootB
    let mend := lag f.bootA || lag f.bootB || !whole f.bootA || !whole f.bootB
    let trial := w.trial && w.tried
    let s := { s with flash := { f with bootA := if trial then clearTried a w.gen else a,
                                        bootB := if trial then clearTried b w.gen else b } }
    let s := s.cond mend (fun s => s.detect 216 0)
    let bank := if trial || !w.trial then w.bank else s.confirmedBank
    ((s.wr R.UPD_BOOTREC_GEN w.gen).wr R.UPD_BOOTREC_BANK bank).wr R.UPD_BOOTREC_TRIAL (b2n trial)

/-- ROM recovery (R440): only the boot ROM runs. -/
def State.enterRecovery (s : State) : State :=
  let s := { s with power := { s.power with life := .recovery, runSteps := [] } }
  ((s.wr R.SNT_FAILS_RECOVERY 1).wr R.PWR_START_KIND 2).detect 244 0

/-- The program store of the first copy that is valid (R422). -/
def State.loadStore (s : State) (bad : Nat) : State :=
  let good := (List.range 3).filter (fun i => s.seq.stored.testBit i && !bad.testBit i)
  let lost := (List.range 3).any (fun i => s.seq.stored.testBit i && bad.testBit i)
  let s := { s with seq := { s.seq with stored := (good.map (fun i => 2 ^ i)).sum } }
  let s := s.wr R.SQP_STAT_SRC ((good.head?.map (fun i => i + 1)).getD 0)
  s.cond lost (fun s => s.detect 136 0)

/-- What is lost with the Sentinel context: the remembered number, the counts and the rail counters, the SRAM field repairs, the
patrol positions (R17, R25, R31, R52, R406). -/
def State.contextGone (s : State) : State :=
  ({ s with fabric := { s.fabric with remembered := none },
            dram := { s.dram with patrolPos := [], patrolFrom := [] },
            power := { s.power with sramField := [], sramSpent := [], sramOff := [] } }).resumeCounts.loadRails

/-- The SRAM halves of the repair summary follow the stored repairs (Table 01-10). -/
def State.showSram (s : State) : State :=
  let p := s.power
  (s.wr (R.ID_REPAIR 2) (s.rd (R.ID_REPAIR 2) % 65536 + min 65535 p.sramField.length * 65536)).wr (R.ID_REPAIR 3)
    (min 65535 p.sramSpent.length + min 65535 p.sramOff.length * 65536)

/-- B3 (R31, R32): a warm start applies the stored field repairs; the full test of a cold one records the repairs it makes, each
in the trouble log and the event recorder. Lane substitutions count from a cold start (Table 01-10). -/
def State.bootB3 (s : State) (f : BootFound) : State :=
  if s.power.warm then s.showSram
  else
    let s := f.sramField.foldl (fun s m => (s.tlog 0x010D m).occur 0x010D none) (s.wr (R.ID_REPAIR 1) 0x07070707)
    { s with power := { s.power with sramField := s.power.sramField ++ f.sramField, sramSpent := f.sramSpent,
                                     sramOff := f.sramOff } }.showSram

/-- B2 (R437, R51, R52, R201, R513). The island's supply that the step finds below 2.9 V latches F248, and a context without the
unpowered interval F249 (Table 15-12, R540; assumption 160). -/
def State.bootB2 (s : State) (f : BootFound) : State :=
  if s.flag R.SNT_FAILS_RECOVERY then
    let s := (s.cond (!(s.power.ctxOk && f.crcOk)) State.contextGone).inc R.PHS_PCYCLES
    { s with power := { s.power with ctxOk := true } }.enterRecovery
  else
    let ctx := s.power.ctxOk && f.crcOk
    let few := decide (s.rd R.SNT_FAILS_WARM < 3)
    let warm := ctx && f.layoutOk && !s.flag R.SNT_CTRL_FORCE_COLD && few
    let s := (s.cond (!s.power.ctxOk) (fun s => s.detect 245 0)).cond (s.power.ctxOk && !f.crcOk) (fun s => s.detect 246 0)
    let s := (s.wr R.SNT_CTX_VALID (b2n ctx)).wr R.SNT_CTX_CRC_FAIL (b2n (s.power.ctxOk && !f.crcOk))
    let s := s.cond (s.rd R.SNT_ISLAND_MV != 0 && decide (s.rd R.SNT_ISLAND_MV < 2900)) (fun s => s.detect 248 0)
    let s := s.cond (ctx && f.unpow == 0) (fun s => s.detect 249 0)
    let s := (s.cond (!ctx) State.contextGone).inc R.PHS_PCYCLES
    let s := (s.cond (!few) (fun s => (s.wr R.SNT_FAILS_WARM 0).detect 243 0)).wr R.SNT_CTRL_FORCE_COLD 0
    let s := (s.wr R.PWR_START_KIND (b2n warm)).wr R.STP_STAT_COLD (b2n (!warm))
    let s := if warm then s.inc R.SNT_STARTS_WARM else s.inc R.SNT_STARTS_COLD
    let s := { s with power := { s.power with warm := warm, ctxOk := true } }
    let s := s.cond (!warm) (fun s => { s with dram := { s.dram with poolDiv := s.rd R.DRS_CTRL_POOL_DIV } })
    ((s.islandUnpow f.unpow).loadStore f.badStore).bootBank

/-! ### B4 and B5: code flash, images, settings, records -/

/-- B4: operations that the journal shows unfinished are erased again (R511). -/
def State.bootJournal (s : State) : State :=
  let l := (s.flash.journal0 ++ s.flash.journal1).filter (fun w => w.valid && w.done)
  l.foldl (fun s w =>
    let sp : Nat × Nat := if w.kind = 2 then (w.addr / 65536 * 16, w.addr / 65536 * 16 + 16) else (w.addr / 4096, w.addr / 4096 + 1)
    (((s.eraseSectors sp.1 sp.2).journalDone w.addr).inc R.CFL_JOURNAL).detect 215 0) s

/-- B4: whether the start goes on: the active bank, else the other where its package passes and may run (R527); neither leads to
ROM recovery (Table 15-5). Answers the state, and the fault source where the start fails. -/
def State.bootB4 (s : State) (f : BootFound) : State × Option Nat :=
  let s := s.bootJournal
  let b := s.rd R.UPD_BOOTREC_BANK
  let ok := fun (k : Nat) => if k = 0 then f.bank0Ok else f.bank1Ok
  if ok b then (s, none)
  else if ok (1 - b) = false then (s.enterRecovery, none)
  else if (s.bankPkg (1 - b)).any (fun k => decide (s.rd R.UPD_SVN_COUNTER ≤ k.svn)) then (s.wr R.UPD_BOOTREC_BANK (1 - b), none)
  else (s, some 211)

/-- The records that a start loads: the `REACT` table and the event recorder (R467, R477). -/
def State.loadRecords (s : State) : State :=
  let n := s.safe.reactCopies
  let s := (s.wr R.FRT_STAT_LOADED (b2n (n == 1))).wr R.FRT_STAT_DEFAULTED (b2n (n != 1))
  let s := s.cond (n == 2) (fun s => s.detect 191 0)
  let bad := s.recs.copyA.any (fun i => !i.valid) || s.recs.copyB.any (fun i => !i.valid)
  match s.recs.newest with
  | none => ((s.wr R.REC_STAT_SRC 0).detect 208 0).showRec
  | some i =>
    let src := if s.recs.copyA = some i then 1 else 2
    let s := ((s.wr R.REC_STAT_SRC src).wr R.REC_FLUSH_SEQ i.flushSeq).wr R.REC_UNREC i.unrec
    ((s.wr R.REC_LAST_FLUSH i.opsec).cond bad (fun s => s.detect 209 0)).showRec

/-- B5: the images of the booted bank run; an update that the stop cut ends, a staged package stays, a trial enters Confirming
(R524 to R526, Table 19-10). -/
def State.bootImages (s : State) (f : BootFound) : State :=
  let b := s.rd R.UPD_BOOTREC_BANK
  let u := s.update
  let s := { s with update := { u with bank0 := if u.bank0.isNone then f.pkg0 else u.bank0,
                                       bank1 := if u.bank1.isNone then f.pkg1 else u.bank1 } }
  let old := s.rd R.UPD_STAT_STATE
  let cut := s.update.discard || old == 1 || old == 2 || old == 4 || old == 5
  let s := (s.cond (s.update.discard || old == 1 || old == 2) State.dropStaging).cond cut (fun s => s.detect 233 0)
  let s := ((s.wr R.UPD_STAT_RUN_BANK b).wr R.ID_BANK b).wr R.UPD_STAT_STAGE_BANK (1 - s.confirmedBank)
  let trial := s.flag R.UPD_BOOTREC_TRIAL
  let s : State := match s.bankPkg b with
    | none => s
    | some k =>
      let s := (k.images.filter (fun i => i.typ != 2 || s.variant.fabric)).foldl (fun (s : State) (i : Image) =>
        s.wr (R.ID_FWVER i.typ) i.version) s
      let s := { s with update := { s.update with
        codeTable := k.codes, settings := if s.update.settings.isEmpty then k.settings else s.update.settings,
        confirmed := if trial then s.update.confirmed else k.images,
        changed := if trial then [1, 2, 3, 4, 5].filter (fun n => k.images.any (fun i => i.typ == n)) else [] } }
      let s := { s with cellar := { s.cellar with dieTable := k.dies } }
      s.cond trial (fun s => s.migrateBlocks k f.migrateFail)
  if trial then
    (s.wr R.UPD_STAT_STATE 5).wr R.UPD_CONFIRM_LEFT (60 * clampTo 15 1440 (s.rd R.UPD_CTRL))
  else
    match (if s.update.staged then s.bankPkg (s.rd R.UPD_STAT_STAGE_BANK) else none) with
    | some k => ((s.wr R.UPD_STAT_STATE 3).wr R.UPD_STAGED_VER k.version).wr R.UPD_SVN_STAGED k.svn
    | none => ((s.wr R.UPD_STAT_STATE 0).wr R.UPD_STAGED_VER 0).wr R.UPD_SVN_STAGED 0

/-- B5: the processors run; mailboxes are ready (R102); a maintenance nonce is drawn (R71). -/
def State.bootB5 (s : State) (f : BootFound) : State :=
  let s := (s.bootImages f).loadRecords
  let t := if s.flag R.CRY_STAT_SEALED ∨ 1024 < s.kilnGib then 256 else 64
  let s := { s with halted := f.stopped.filter (fun n => decide (2 ≤ n) && s.present n),
                    power := { s.power with memTimeout := t, mboxReady := true } }
  let s := s.halted.foldl (fun s n => s.halt n) s
  let s := s.cond (!s.flash.corrupt.isEmpty) (fun s =>
    ({ s with flash := { s.flash with corruptOld := true } }).setCond 211 0 true)
  let v := s.takeFree 32
  v.2.wr R.ID_MAINT_NONCE v.1

/-! ### B6 to B10 -/

/-- The level, in mV, that a comparator threshold watches (R496). -/
def State.cmpTarget (s : State) (t : Nat) : Nat :=
  match t with
  | 0 => s.failMv
  | 1 => s.warnMv
  | _ => s.collapseMv

/-- B6: the comparators are armed: a threshold that is not on tap trim has the DAC code of its level, in 10 mV steps (R496). -/
def State.armComparators (s : State) : State :=
  s.each 3 (fun s t => s.cond (!s.flag (R.MON_CMP_STAT_TRIM t)) (fun s => s.wr (R.MON_CMP_STAT_DAC t) (s.cmpTarget t / 10)))

/-- B6: the band-gap value of the module record; without one 1,200,000 µV and F181 (R493). A warm start keeps the value restored
with the coefficients. -/
def State.bootRefs (s : State) (calOk : Bool) : State :=
  match s.flash.moduleRec with
  | none => ((s.wr R.CAL_STAT_MODULE_REC 0).wr R.CAL_BG 1200000).detect 181 0
  | some v => (s.wr R.CAL_STAT_MODULE_REC 1).cond (!(s.power.warm && calOk && s.rd R.CAL_BG != 0)) (fun s => s.wr R.CAL_BG v)

/-- The periodic works of Table 02-2 that the event service starts, from the clocks' zero: comparator test, dirty scrub, recorder
flush, calibration check (R49). -/
def State.postWorks (s : State) : State :=
  let put := fun (s : State) (slot owner seconds pu : Nat) =>
    s.post slot { owner := owner, hc := s.hcOf seconds, pu := pu, period := s.hcOf seconds, seconds := seconds }
  let s := put (put (put s 0 1 60 384) 1 5 600 0) 2 6 3600 0
  s.post 3 { owner := 7, hc := 100, pu := 0, period := 100, seconds := 0 }

/-- B6: the clocks at zero, the deadline self-test, calibration, the rail counters stored (R38, R44, R47, R406, R494). -/
def State.bootB6 (s : State) (f : BootFound) : State :=
  let s := (s.bootRefs f.calOk).armComparators
  let s := (((s.wr R.PHS_HC 0).wr R.PHS_PU 0).wr R.PHS_CT_DRAWN 0).wr R.PHS_CT_RET 0
  let s := ((s.wr R.PHS_SELFTEST_DONE 1).wr R.PHS_SELFTEST_CDL_FAIL f.cdlFail).cond (f.cdlFail != 0) (fun s => s.setCond 157 0 true)
  let s := (s.cond (!f.calOk) (fun s => s.detect 176 0)).cond (f.calOk && f.calOneBad) (fun s => s.detect 177 0)
  s.saveRails.postWorks

/-- B7: packs that stayed resume under a warm start; a port with none has its condition (R144, R386, Table 13-3). -/
def State.bootB7 (s : State) (f : BootFound) : State :=
  s.packs.foldl (fun s p =>
    if s.power.warm ∧ f.packsKept.contains p then (((s.wr (R.PK_STAT_STATE p) pkUncounted).packJudge p).ageGauge p)
    else if s.rd (R.PK_STAT_STATE p) = pkAbsent then (s.setPack p {}).setCond 143 p true
    else s) s

/-- The dies that a start finds and uses (Tables 03-6, 07-9 and 07-11). -/
def State.countDies (s : State) : State :=
  let cs := List.range s.variant.nchs
  let s := s.each s.variant.nchs (fun s c => s.wr (R.NCH_STAT_DIES c) (if s.cellar.deadChans.has c then 0 else s.liveDies c))
  let s := s.wr R.CAP_NCH_POP (((cs.filter (fun c => s.rd (R.NCH_DIE_MAP_PRESENT c) != 0)).map (fun c => 2 ^ c)).sum)
  let s := s.wr R.CAP_DIES ((cs.map (fun c => popcount (s.rd (R.NCH_DIE_MAP_PRESENT c)))).sum)
  s.wr R.CEL_DIES_USABLE ((s.liveChans.map (fun c => s.liveDies c)).sum)

/-- The dies that a start finds: read at a cold start; at a warm one cached, but for channels whose identities differ (R173). -/
def State.topology (s : State) (f : BootFound) : List FoundDie :=
  let now := f.dies.filter (fun d => decide (d.chan < s.variant.nchs) && decide (d.die < 16))
  if s.power.warm then s.cellar.dies.filter (fun d => !now.any (fun e => e.chan == d.chan)) ++ now else now

/-- Die 0 of the lowest-numbered populated channel (R172). -/
def State.firstDie (s : State) : Option FoundDie :=
  s.cellar.dies.foldl (fun (best : Option FoundDie) d =>
    match best with
    | none => some d
    | some b => if d.chan * 16 + d.die < b.chan * 16 + b.die then some d else some b) none

/-- The cellar uses a die: the die table lists it and it has the geometry of die 0 (R172). -/
def State.dieUsed (s : State) (d : FoundDie) : Bool :=
  (s.dieRow d).isSome && s.firstDie.any (fun z => z.planes == d.planes && z.blocks == d.blocks && z.pages == d.pages)

/-- The dies of a channel as its page shows them; one that is not used latches F069 (R172, Table 07-9). -/
def State.showDies (s : State) (c : Nat) : State :=
  let mine := s.cellar.dies.filter (fun d => d.chan == c)
  let z := s.firstDie
  let geom := fun (f : FoundDie → Nat) => if mine.isEmpty then 0 else (z.map f).getD 0
  let s := s.wr (R.NCH_DIE_MAP_PRESENT c) ((List.range 16).map (fun d => if mine.any (fun x => x.die == d) then 2 ^ d else 0)).sum
  let s := s.wr (R.NCH_DIE_MAP_RETIRED c) ((List.range 16).map (fun d =>
    if s.cellar.deadDies.has (c * 16 + d) || s.cellar.offDies.has (c * 16 + d) then 2 ^ d else 0)).sum
  let s := ((s.wr (R.NCH_GEOM_PLANES c) (geom FoundDie.planes)).wr (R.NCH_GEOM_BLOCKS c) (geom FoundDie.blocks)).wr
    (R.NCH_GEOM_PAGES c) (geom FoundDie.pages)
  s.cond (mine.any (fun d => !s.dieUsed d)) (fun s => s.detect 69 c)

/-- The dies of a start (R172, R173). -/
def State.findDies (s : State) (f : BootFound) : State :=
  let s := { s with cellar := { s.cellar with dies := s.topology f } }
  let off := (s.cellar.dies.filter (fun d => !s.dieUsed d)).foldl (fun (l : RSet) d => l.insert1 (d.chan * 16 + d.die)) []
  let s := { s with cellar := { s.cellar with offDies := off } }
  s.each s.variant.nchs State.showDies

/-- `MAX_RATE` of a channel as treated (Table 07-9). -/
def State.nchMaxRate (s : State) (c : Nat) : Nat := clampTo 8 36 (s.rd (R.NCH_CFG_MAX_RATE c))

/-- `IF_MODE` asks for NV-LPDDR4; the dies in use on the channel support it (Table 07-9). -/
def State.wantsLp (s : State) (c : Nat) : Bool := s.rd (R.NCH_CFG_IF_MODE c) != 1
def State.hasLp (s : State) (c : Nat) : Bool :=
  s.cellar.dies.all (fun d => d.chan != c || !s.dieUsed d || d.lpddr)

/-- The interface of a channel: the cached values where a warm start's check passes, else a full training at the highest rate that
`MAX_RATE` allows, and a channel that fails at 800 MT/s is dead (R173, R199). -/
def State.trainIf (s : State) (f : BootFound) (c : Nat) : State :=
  if s.rd (R.NCH_DIE_MAP_PRESENT c) = 0 then s
  else
    let pass := ((f.ifRates.find? (fun e => e.1 == c)).map (fun e => e.2)).getD 36
    let mode := if s.wantsLp c && s.hasLp c then 2 else 1
    let cached := s.cellar.trained.get c
    let keep := s.power.warm && cached != 0 && !f.ifBad.contains c && !f.dies.any (fun d => d.chan == c)
    let got := if keep then cached else 4 * min (s.nchMaxRate c) pass + mode
    let s := s.cond (!keep) (fun s => { s with steep := { s.steep with nandFull := true } })
    if keep = false ∧ pass < 8 then s.killChannel c
    else
      let s := { s with cellar := { s.cellar with trained := s.cellar.trained.set c got } }
      let s := ((s.wr (R.NCH_STAT_RATE_ACT c) (got / 4)).wr (R.NCH_STAT_IF_ACT c) (got % 4)).wr (R.NCH_STAT_TRAINED c) 1
      s.cond (decide (got / 4 < s.nchMaxRate c) || (s.wantsLp c && got % 4 == 1)) (fun s => s.detect 68 c)

/-- The good blocks of the die of `b` among `bs`. -/
def dieGood (bs : List Block) (b : Block) : List Block := bs.filter (fun x => x.chan == b.chan && x.die == b.die && !x.bad)

/-- The blocks of a device first seen: the first eight good blocks of each die are its part of the records zone, block 0 with its
bad-block table among them, and the next 2 % make its flash spare pool (Table 07-3, R197, assumption 159). -/
def layBlocks (bs : List Block) : List Block :=
  bs.map (fun (b : Block) =>
    let good := dieGood bs b
    let pool := ceilDiv (2 * good.length) 100
    let i := (good.findIdx? (fun x => decide (x.key = b.key))).getD good.length
    { b with record := !b.bad && decide (i < 8), spare := !b.bad && decide (8 ≤ i) && decide (i < 8 + pool) })

/-- A stripe group may have these members: n + 1 loose blocks on dies of different channels (R175). -/
def State.groupFits (s : State) (ms : List (Nat × Nat × Nat)) : Bool :=
  decide (ms.length = s.dataDies + 1) && decide ((ms.map (fun m => m.1)).Nodup) &&
    ms.all (fun m => s.cellar.blocks.any (fun b => decide (b.key = m) && s.looseBlock b))

/-- The zone of the group that stands at place `i`: kiln zone with its spare groups, guest zone, image zone (Table 07-3). -/
def State.layZone (s : State) (i : Nat) : Zone :=
  let k := s.kilnWant s.kilnGib
  let sp := spareWant k
  let g := if s.variant.fabric then s.guestWant (s.rd R.CEL_GUEST_CTRL) else 0
  if i < k then .kiln else if i < k + sp then .kilnSpare else if i < k + sp + g then .guest else .image

/-- One stripe group laid. -/
def State.layGroup (s : State) (ms : List (Nat × Nat × Nat)) : State :=
  if s.groupFits ms = false then s
  else
    let i := s.cellar.groups.length
    let z := s.layZone i
    let g : Group := { id := i + 1, zone := z, st := .free, members := ms, cap := s.capOf ms.length z, erasedAt := 0, closedAt := 0,
                       kilnUse := false, writtenAt := 0 }
    { s with cellar := { s.cellar with groups := s.cellar.groups ++ [g] } }

/-- The first cold start of a device: the bad-block table from the factory marks, and the zones (R173, R177, R197). -/
def State.layCellar (s : State) (f : BootFound) : State :=
  let here := f.blocks.filter (fun b => s.cellar.dies.any (fun d => d.chan == b.1 && d.die == b.2.1 && s.dieUsed d &&
    decide (b.2.2.1 < d.blocks)))
  let bs : List Block := here.map (fun b => { chan := b.1, die := b.2.1, blk := b.2.2.1, tlc := 0, pslc := 0, reads := 0,
                                              bad := b.2.2.2, spare := false, rebuiltAt := 0, level := 0 })
  let s := { s with cellar := { s.cellar with blocks := layBlocks bs } }
  let marks := fun (c : Nat) => (bs.filter (fun b => b.chan == c && b.bad)).length
  let s := s.each s.variant.nchs (fun s c => s.wr (R.NCH_BAD_FACTORY c) (marks c))
  let s := s.wr R.CEL_BAD_FACTORY (min 65535 (bs.filter (fun b => b.bad)).length)
  f.groups.foldl State.layGroup s

/-- B8: one unreadable copy in the records zone is replaced from the other (Table 07-7); the dies, the interfaces, the blocks and stripe groups of a device first seen; channels that fail are dead (R172, R173, R197,
R199). -/
def State.bootB8 (s : State) (f : BootFound) : State :=
  let s := { s with cellar := { s.cellar with deadChans := [] } }
  let s := (s.findDies f).each s.variant.nchs (fun s c => s.trainIf f c)
  let s := f.deadChans.foldl (fun s c => s.killChannel (c % 32)) s
  let s := s.countDies
  let s := s.cond (s.cellar.groups.isEmpty && s.cellar.blocks.isEmpty) (fun s => s.layCellar f)
  (s.cond f.recordsBad (fun s => ({ s with cellar := { s.cellar with seq := s.cellar.seq + 1 } }).detect 81 0)).lateErases.showZ.showImage

/-- B9: a warm start reclaims the remembered number as Owned (R327). -/
def State.bootB9 (s : State) : State :=
  match s.fabric.remembered with
  | none => s
  | some n => if s.power.warm then ((s.wr R.DFS_FNN_STAT_FNN n).wr R.DFS_FNN_STAT_CLAIM 2).wr R.DFS_FNN_STAT_REMEMBERED 1 else s

/-- The first cask key of a device, drawn at its first cold start (R206). -/
def State.firstKey (s : State) : State :=
  if s.cellar.keyed then s
  else ({ s with cellar := { s.cellar with keyed := true } }).putWraps
    { keyEpoch := s.rd R.CRY_KEY_EPOCH, hostKey := 0, gen := 0, readable := true }

/-- B10: the cask key (R205 to R210, Table 09-2). Answers the state and whether the step is complete. -/
def State.bootB10 (s : State) (f : BootFound) : State × Bool :=
  if s.flag R.CRY_STAT_KEY_VALID then (s, true)
  else
    let s := (s.firstKey).wr R.CRY_STAT_SELFTEST_OK 1
    let a := f.wrapAOk && s.cellar.wrapA.readable
    let b := f.wrapBOk && s.cellar.wrapB.readable
    let w := if a then s.cellar.wrapA else s.cellar.wrapB
    let s := s.cond (a != b) (fun s => (s.putWraps w).detect 87 0)
    let s := s.cond (a || b) (fun s => s.wr R.CRY_STAT_SEALED (b2n (w.hostKey != 0)))
    if (a ∨ b) ∧ w.hostKey ≠ 0 then
      ((s.wr R.CRY_STAT_LOCKED 1).stepHold 1, false)
    else if a = false ∧ b = false then
      (((s.wr R.STP_STAT_PHASE 1).stepHold 2).detect 85 0 |>.detect 54 0, false)
    else ((s.wr R.CRY_STAT_KEY_VALID 1).wr R.CRY_STAT_WRAP_GEN w.gen, true)

/-! ### B11 and B12 -/

/-- What the repair of pending row `i` finds: whether its bank group has no hard repair left, and whether it is not verified. -/
def repairFound (l : List (Nat × Nat)) (i : Nat) : Bool × Bool :=
  let c := ((l.find? (fun e => e.1 == i)).map (fun e => e.2)).getD 0
  (c.testBit 0, c.testBit 1)

/-- The repair of one pending row during training (R122): hard while `HPPR_EN` = 1 and its bank group has resources left, else
soft, which every later start applies again; verified, the row's granules return to the pool. Its record is sent either way
(R125). -/
def State.repairRow (s : State) (r : PendRow) (found : Bool × Bool) : State :=
    let s := (s.cond found.1 (fun s => s.detect 20 0)).dramEvent (r.granules.headD 0) 0 5 15
    if found.2 then s.detect 19 0
    else
      let n := (r.granules.filter (fun g => s.dram.retire.get g != 0)).length
      let hard := !found.1 && s.flag R.DRS_CTRL_HPPR_EN
      let s := { s with dram := { s.dram with
        retire := r.granules.foldl (fun (m : NMap) (g : Nat) => m.set g 0) s.dram.retire,
        soft := if hard then s.dram.soft else s.dram.soft ++ [r] } }
      let s := (s.addSat R.DRS_RELEASED n).cond hard (fun s => s.inc R.DRS_PPR_HARD)
      s.wr R.DRS_PPR_SOFT (min 65535 s.dram.soft.length)

/-- The repairs of a start, of every pending row where `PPR_EN` = 1; rows whose repair failed stay pending. -/
def State.repairRows (s : State) (l : List (Nat × Nat)) : State :=
  if s.flag R.DRS_CTRL_PPR_EN then
    let rows := s.dram.pendRows.zipIdx
    let s := rows.foldl (fun s x => s.repairRow x.1 (repairFound l x.2)) s
    let left := (rows.filter (fun x => (repairFound l x.2).2)).map (fun x => x.1)
    { s with dram := { s.dram with pendRows := left } }.wr R.DRS_PPR_PEND left.length
  else s

/-! #### The DRAM that a start uses (R26, R110, R111) -/

/-- The largest power of two that is not above `n`, for `n` above 0. -/
def pow2Below (n : Nat) : Nat := if n = 0 then 0 else 2 ^ Nat.log2 n

/-- The capacity of channel `c` in granules. -/
def State.chanGran (s : State) (c : Nat) : Nat := s.rankGran c * s.rd (R.DMC_GEOM_RANKS c)

/-- The populated channels, lowest first. -/
def State.dramChans (s : State) : List Nat :=
  (List.range s.variant.dmcs).filter (fun c => s.bit R.CAP_DMC_FUSED c && s.chanGran c != 0)

/-- Two channels have the same capacity and geometry. -/
def State.alike (s : State) (c d : Nat) : Bool :=
  s.rd (R.DMC_GEOM_RANKS c) == s.rd (R.DMC_GEOM_RANKS d) && s.rd (R.DMC_GEOM_DENSITY c) == s.rd (R.DMC_GEOM_DENSITY d) &&
    s.rd (R.DMC_GEOM_CHIP_ID_BITS c) == s.rd (R.DMC_GEOM_CHIP_ID_BITS d) &&
    s.rd (R.DMC_GEOM_ROW_BITS c) == s.rd (R.DMC_GEOM_ROW_BITS d)

/-- The largest set of 1, 2, 4, 8 or 16 populated channels that are alike, lowest channel numbers first (R110). -/
def State.usedChans (s : State) : List Nat :=
  (s.dramChans.map (fun c =>
    let l := s.dramChans.filter (fun d => s.alike c d)
    l.take (pow2Below l.length))).foldl (fun best l => if best.length < l.length then l else best) []

/-- The bytes of the keep region at an installed capacity of `c` granules and a spare pool of `pool` granules (Table 01-8). -/
def keepBytes (c pool : Nat) : Nat :=
  let b := c * 4096
  ceilDiv b 512 + ceilDiv b 262144 + 2 * ceilDiv b 32768 + ceilDiv b 2097152 + 268435456 + 2 * ceilDiv b 16777216 + 16777216 +
    pool * 4096

/-- R26: the keep region in whole regions at the top of DRAM, the host-visible capacity below it, and the usable slots of the spare
pool, whose first 1/512 holds the retire table (R119). -/
def State.sizeKeep (s : State) : State :=
  let c := s.rd R.CAP_DRAM
  let keep := if c = 0 then 0 else ceilDiv (keepBytes c s.poolGranules) 2097152
  let s := (s.wr R.CAP_KEEP keep).wr R.CAP_HOST (c - keep * granulesPerRegion)
  s.wr R.DRS_POOL_SLOTS (s.poolGranules - s.poolGranules / 512)

/-- The slices cover the whole decodable capacity until Set Partition has set them (R85). -/
def State.defaultSlices (s : State) : State :=
  s.cond (!s.power.partitioned) (fun s => s.each s.variant.ports (fun s p =>
    (s.wr (R.HP_SLICE_BASE p) 0).wr (R.HP_SLICE_SIZE p) (s.decodable / 65536)))

/-- What one channel shows of its use: its granules up to 2 TiB, oversize, excluded (R110, R111). -/
def State.layChan (s : State) (used : List Nat) (c : Nat) : State :=
  let cap := s.chanGran c
  let out := s.dramChans.contains c && !used.contains c
  let s := s.wr (R.DMC_GRAN c) (if used.contains c then min cap 536870912 else 0)
  let s := (s.wr (R.DMC_GEOM_OVERSIZE c) (b2n (decide (536870912 < cap)))).wr (R.DMC_GEOM_EXCLUDED c) (b2n out)
  s.cond out (fun s => s.detect 15 c)

/-- The channels that the geometry found lets the device use, and the capacities that follow (R26, R110, R111). -/
def State.layDram (s : State) : State :=
  let used := s.usedChans
  let s := s.each 16 (fun s c => s.layChan used c)
  let s := s.wr R.CAP_DMC_POPULATED ((used.map (fun c => 2 ^ c)).sum)
  ((s.wr R.CAP_DRAM ((used.map (fun c => s.rd (R.DMC_GRAN c))).sum)).sizeKeep).defaultSlices

/-- `MAX_RATE` as treated (Table 05-4). -/
def State.dmcMaxRate (s : State) (c : Nat) : Nat :=
  let v := s.rd (R.DMC_CFG_MAX_RATE c)
  if v = 0 ∨ 9 < v then 9 else v

/-- The highest rate that a rate group may train at: the lowest of its four channels (Table 05-4). -/
def State.groupMax (s : State) (g : Nat) : Nat := ((List.range 4).map (fun i => s.dmcMaxRate (4 * g + i))).foldl min 9

/-- The identities found on a channel. -/
def BootFound.idOf (f : BootFound) (c : Nat) : Nat := ((f.ids.find? (fun e => e.1 == c)).map (fun e => e.2)).getD 0

/-- The highest rate at which full training of a channel passes; 0 where none does. -/
def BootFound.passRate (f : BootFound) (c : Nat) : Nat := min 9 (((f.rates.find? (fun e => e.1 == c)).map (fun e => e.2)).getD 9)

/-- The stored rate that a warm start may restore on a channel: the identities match, the die temperature lies within 15 °C, the
check word holds, and the group still admits the rate (R109, R126). -/
def State.restoreRate (s : State) (f : BootFound) (c : Nat) : Option Nat :=
  if s.power.warm = false ∨ f.trainCrcOk = false then none
  else (s.dram.trained.find? (fun e => e.chan == c && e.ids == f.idOf c && decide ((f.dieTemp - e.temp).natAbs ≤ 15) &&
    decide (e.rate ≤ s.groupMax (c / 4)))).map (fun e => e.rate)

/-- The mode of a channel's training, before its group is looked at: 1 full, 2 stored and checked, 3 stored rejected, then full
(R126). -/
def State.trainMode (s : State) (f : BootFound) (c : Nat) : Nat :=
  if s.power.warm = false ∨ s.flag (R.DMC_CFG_TRAIN_FULL c) then 1
  else if (s.restoreRate f c).isSome ∧ ¬ f.eyeBad.contains c then 2
  else 3

/-- One rate group: the rate it begins with, the rate it trains at, and whether full training of one of its channels has lowered it,
which trains the whole group anew (R127). -/
def State.groupTrain (s : State) (f : BootFound) (g : Nat) (used : List Nat) : Nat × Nat × Bool :=
  let mine := used.filter (fun c => c / 4 == g)
  let kept := mine.filter (fun c => s.trainMode f c == 2)
  let start := (kept.map (fun c => (s.restoreRate f c).getD 9)).foldl min (s.groupMax g)
  let full := mine.filter (fun c => s.trainMode f c != 2)
  let low := (full.map f.passRate).foldl min start
  if low = start then (start, start, false) else (start, (mine.map f.passRate).foldl min start, true)

/-- The training of one used channel, as the group of it came out; new values are stored with their temperature. -/
def State.trainChan (s : State) (f : BootFound) (r : Nat × Nat × Bool) (c : Nat) : State :=
  let m := s.trainMode f c
  let steps := if r.2.2 then r.1 - min r.1 (f.passRate c) else 0
  let s := (s.wr (R.DMC_TRAIN_RATE c) r.2.1).wr (R.DMC_TRAIN_MODE c) (if r.2.2 ∧ m = 2 then 1 else m)
  let s := s.cond (m == 3) (fun s => s.detect 12 c)
  let s := s.cond (steps != 0) (fun s => (s.wr (R.DMC_TRAIN_STEPDOWNS c) (min 15 steps)).detect 11 c)
  let full := m != 2 || r.2.2
  let s := s.cond full (fun s => { s with dram := { s.dram with trained := s.dram.trained.filter (fun (e : Training) => e.chan != c) ++
    [{ chan := c, ids := f.idOf c, rate := r.2.1, temp := f.dieTemp }] } })
  s.wr (R.DMC_CFG_TRAIN_FULL c) 0

/-- What DRAM training shows (R109, R110, R126, R127). -/
def State.trainFound (s : State) (f : BootFound) : State :=
  let s := s.layDram
  let used := s.usedChans
  let r := fun (c : Nat) => s.groupTrain f (c / 4) used
  (used.foldl (fun t c => t.trainChan f (r c) c) s).showSteps

/-- A rate group has failed at 3,200 MT/s (R127). -/
def State.trainFails (s : State) : Bool := (s.usedChans).any (fun c => s.rd (R.DMC_TRAIN_RATE c) == 0)

/-- The granules that the start finds lost enter the poison lists of their ports, one entry each (R97). -/
def State.listLost (s : State) : State :=
  (s.cellar.map.filter (fun e => entState e.2 == 3)).foldl (fun s e => s.listPoison e.1 true (BitVec.ofNat 64 (2 ^ 64 - 1))) s

/-- B11 (Table 09-3, R260). Answers the state and whether the step is complete. -/
def State.bootB11 (s : State) (f : BootFound) (ms : Nat) : State × Bool :=
  if s.rd R.STP_STAT_HOLD = 4 then
    if 8 ≤ s.cellar.chain.length then (s, false)
    else
      let best := newerCask (pickCask s.cellar.slot0 f.slot0Ok) (pickCask s.cellar.slot1 f.slot1Ok)
      (((s.wr R.STP_STAT_HOLD 0).openEpoch best (s.unsealedStart f.slot0Ok f.slot1Ok)).wr R.STP_TIMES_ST1_MS (min 65535 ms), true)
  else
    let r := s.st1Load f.slot0Ok f.slot1Ok f.ckpt0Ok f.ckpt1Ok
    let s := ((r.1.listLost.cond (!f.retireOk) (fun s => s.detect 23 0)).repairRows f.repairs).showPool
    (s.wr R.STP_TIMES_ST1_MS (min 65535 ms), r.2)

/-- A sequencer program that a step waits for still runs, is due or is latched. -/
def State.seqBusy (s : State) (n : Nat) : Bool := s.seq.prog == some n || s.seq.due.contains n || s.bit R.SEQ_STAT_PENDING n

/-- The end of step `n`, done. -/
def State.bootDone (s : State) (n ms : Nat) (f : BootFound) : State :=
  match n with
  | 1 => if s.seqBusy 0 || s.seqBusy 7 then s else s.stepDone 1 ms
  | 2 => s.bootB2 f |>.cond (!s.flag R.SNT_FAILS_RECOVERY) (fun s => s.stepDone 2 ms)
  | 4 =>
    let r := s.bootB4 f
    match r.2 with
    | some c => r.1.failStart 4 c
    | none => if r.1.power.life = Life.recovery then r.1 else r.1.stepDone 4 ms
  | 3 => (s.bootB3 f).stepDone 3 ms
  | 5 => (s.bootB5 f).stepDone 5 ms
  | 6 => (s.bootB6 f).stepDone 6 ms
  | 7 => (s.bootB7 f).stepDone 7 ms
  | 8 => (s.bootB8 f).stepDone 8 ms
  | 9 => s.bootB9.stepDone 9 ms
  | 10 =>
    if f.katOk = false then (s.detect 84 0).failStart 10 84
    else
      let r := (f.badEngines.foldl State.retireEngine s).bootB10 f
      if r.2 then (r.1.stepDone 10 ms).st1Begin f.slot0Ok f.slot1Ok else r.1
  | 11 =>
    if 2 ≤ s.rd R.STP_STAT_HOLD ∧ s.rd R.STP_STAT_HOLD ≤ 3 ∨ s.seqBusy 3 then s
    else if s.rd R.STP_STAT_HOLD ≠ 4 ∧ (s.trainFound f).trainFails then (s.trainFound f).failStart 11 11
    else
      let r := (s.cond (s.rd R.STP_STAT_HOLD != 4) (fun s => s.trainFound f)).bootB11 f ms
      if r.2 then r.1.stepDone 11 ms else r.1
  | 12 => (s.stepDone 12 ms).steepReadyNow f.readyMs
  | k => s.stepDone k ms

/-- R435, R438: a boot step ends. Steps 6, 7 and 9 never fail the start (Table 15-5). -/
def State.bootStep (s : State) (n : Nat) (ok : Bool) (cause ms : Nat) (f : BootFound) : State :=
  if s.power.life = Life.starting ∧ s.power.runSteps.contains n then
    let s := s.findFields f.fields
    if ok ∨ n = 6 ∨ n = 7 ∨ n = 9 then s.bootDone n ms f
    else s.failStart n cause
  else s

def execBootStepDone (n : Nat) (ok : Bool) (cause ms : Nat) (found : BootFound) (s : State) : Host.Outcome State Fault Refusal :=
  .next (finish (s.begin.bootStep n ok (cause % 256) ms found))

end Sys2Proof.Machine
end

