-- ==== Sys2Proof/Machine/Steep.lean ====
section
/-!
DEFINITION. Machine/Steep.lean: the steep's commands (chapter 09): the bulk delay, demand fills, the fill ceiling, bulk fills and
the order in which they take the regions.
-/

namespace Sys2Proof.Machine

open Sys2Proof

/-! ### ST3 -/

/-- ST2 to ST3, once `BULK_DELAY` has elapsed with `BULK_EN` = 1 (Table 09-2). -/
def State.bulkBegin (s : State) : State :=
  if s.rd R.STP_STAT_PHASE = 2 ∧ s.steep.bulkDelayDone ∧ s.flag R.STP_CTRL_BULK_EN then
    (s.wr R.STP_STAT_PHASE 3).wr R.STP_STAT_BULK_RUN 1
  else s

/-- R257: `BULK_DELAY` has elapsed. -/
def State.bulkDelay (s : State) : State :=
  if s.rd R.STP_STAT_PHASE = 2 then ({ s with steep := { s.steep with bulkDelayDone := true } }).bulkBegin else s

def execBulkDelayElapsed (s : State) : Host.Outcome State Fault Refusal := .next (finish s.begin.bulkDelay)

/-! ### One fill (R267, Table 09-5) -/

/-- The partial-region table holds no entry that a fill in this region needs and could take (R265). -/
def State.partialFull (s : State) (g : Nat) : Bool :=
  let r := g / granulesPerRegion
  decide (32768 ≤ s.steep.partials.length) && !s.steep.partials.contains r && decide (1 < s.regionUnfilled r)

/-- A fill of `g` that ends in poison: listed as R268 says, F049. -/
def State.fillLost (s : State) (g : Nat) : State := (s.fillGranule g [] (BitVec.ofNat 64 (2 ^ 64 - 1)) true).detect 49 0

/-- A fill finds the granule's copy gone: `STATE` 3, counted (Tables 07-7 and 09-11). -/
def State.fillLoses (s : State) (g : Nat) : State := ((s.loseGranule g).inc R.STP_POISONED).fillLost g

/-- The map page of a region that is not loaded would be read, and the read finds nothing. -/
def State.pageFails (s : State) (r mapStep : Nat) : Bool :=
  !s.cellar.loaded.has r && s.cellar.dir.get r != 0 && decide (9 < s.reach (entAddr (s.cellar.dir.get r)) mapStep)

/-- The map page of a region is loaded on first use; where its `KILN` bit is set it takes the kiln-log entries and is dirty
(R182, R183). A region without a page, in flash or in a kiln log, has none to load (R180). -/
def State.loadPage (s : State) (r mapStep : Nat) : State :=
  if s.cellar.loaded.has r ∨ (s.cellar.dir.get r = 0 ∧ s.cellar.dirKiln.has r = false) then s
  else if s.pageFails r mapStep then
    let t := (s.ladder (entAddr (s.cellar.dir.get r)) 10).pageLost r
    t.addSat R.STP_POISONED (t.rd R.CEL_LOST - s.rd R.CEL_LOST)
  else
    let a := entAddr (s.cellar.dir.get r)
    let s := s.cond (s.cellar.dir.get r != 0) (fun s => (s.ladder a (s.reach a mapStep)).bump R.CRY_DEC)
    let c := s.cellar
    ({ s with cellar := { c with loaded := c.loaded.insert1 r,
                                 mapDirty := if c.dirKiln.has r then c.mapDirty.insert1 r else c.mapDirty } }).showMap

/-- `FILL_CTRL.WAIT_US` as treated (Table 09-11). -/
def State.waitUs (s : State) : Nat := min 1000 (s.rd R.STP_FILL_CTRL_WAIT_US)

/-- R270: the die of a codeword is busy for longer than `WAIT_US`, and its stripe has every other member: the fill rebuilds it from
die parity and does not read it. -/
def State.rebuildsBusy (s : State) (a busy : Nat) : Bool := decide (s.waitUs < busy) && s.dieOk (addrBlock a) && !s.otherLost a

/-- The fill of a granule by its map entry (Table 09-5). `mapStep` is the ladder step at which the region's map page read, where
it has to be loaded; `step` that of the codeword; above 9 neither read. `busy` are the µs for which the codeword's die is busy.
A demand fill that ends in poison sends a General Media record (R95). -/
def State.fillBy (s : State) (g mapStep step busy : Nat) (demand : Bool) : State :=
  let r := g / granulesPerRegion
  if s.inVol g then s.fillGranule g [] 0 false
  else
    let gone := s.pageFails r mapStep
    let s := s.loadPage r mapStep
    match entState (s.entry g) with
    | 0 => s.fillGranule g [] 0 false
    | 3 =>
      (s.fillLost g).cond (demand && !gone) (fun s => s.mediaEvent g)
    | _ =>
      match s.copyOf g with
      | none => (s.setCond 74 0 true).fillLoses g
      | some c =>
        let a := entAddr (s.entry g)
        let around := s.rebuildsBusy a busy
        let step := if around then 0 else s.reach a step
        let s := if around then s else s.ladder a step
        if 9 < step then s.fillLoses g
        else
          let s := (s.bump R.CRY_DEC).cond (around || step == 9) (fun s => s.inc R.STP_REBUILDS)
          (s.fillGranule g c.data c.poison false).cond ((c.poison &&& ~~~ (s.mask g)) != 0) (fun s =>
            (s.detect 49 0).cond demand (fun s => s.mediaEvent g))

/-- The latency of a demand fill, µs, enters the mean and the maximum (Table 09-11). -/
def State.fillLatency (s : State) (us : Nat) : State :=
  let s := { s with steep := { s.steep with latSum := s.steep.latSum + us, latCnt := s.steep.latCnt + 1 } }
  (s.wr R.STP_FILL_LAT_MAX_US (max (min 65535 us) (s.rd R.STP_FILL_LAT_MAX_US))).bump R.STP_DEMAND

/-- Fills run: from Steep Ready on, while `STP` runs, until a kiln reaches K3. -/
def State.fillsRun (s : State) : Bool := s.steepReady && s.works 0x43 && s.cellarOn

/-- Some demand fill of the granule is in flight. -/
def State.demanded (s : State) (g : Nat) : Bool := s.steep.fills.any (fun f => f.granule == g && f.demand)

/-- A fill completes: its lines are written, its latency is counted where it is a demand fill, and what it held goes on. -/
def State.fillOne (s : State) (w : SlotWait) : State :=
  let demand := s.demanded w.granule
  let s := (s.fillBy w.granule w.mapStep w.step w.busy demand).cond demand (fun s => s.fillLatency w.us)
  (s.endFill w.granule).retireRefilled w.granule

/-- A complete fill waits for a partial-region entry, once counted (R265). -/
def State.waitSlot (s : State) (w : SlotWait) : State :=
  if s.steep.slotWaits.any (fun x => x.granule == w.granule) then s
  else (({ s with steep := { s.steep with slotWaits := s.steep.slotWaits ++ [w] } }).inc R.STP_WAITS_SLOT_WAITS).detect 50 0

/-- The fills that wait take the partial-region entries that have become free, oldest first (R265). -/
def State.runWaits (s : State) : State :=
  s.steep.slotWaits.foldl (fun s w =>
    if s.unfilled w.granule ∧ s.partialFull w.granule then s
    else
      let s := { s with steep := { s.steep with slotWaits := s.steep.slotWaits.filter (fun x => x.granule != w.granule) } }
      if s.unfilled w.granule then s.fillOne w else s) s

/-- R267, R265: a demand fill, or a refill, ends, or waits for a partial-region entry. -/
def State.demandDone (s : State) (w : SlotWait) : State :=
  if s.fillsRun = false ∨ s.unfilled w.granule = false ∨ ¬ s.steep.fills.any (fun f => f.granule == w.granule) then s
  else if s.partialFull w.granule then s.waitSlot w
  else (s.fillOne w).runWaits.steepCheck

def execDemandFillDone (granule mapStep step us busy : Nat) (s : State) : Host.Outcome State Fault Refusal :=
  .next (finish (s.begin.demandDone { granule := granule, mapStep := mapStep, step := step, us := us, busy := busy }))

/-! ### The ceiling (R269, R273) -/

/-- A held read without its answer. -/
def Fill.drop (f : Fill) (port tag : Nat) : Fill := { f with held := f.held.filter (fun h => !(h.1 == port && h.2.1 == tag)) }

/-- R269: a read still held at its ceiling is answered with poison; a held write waits on. Either latches the ceiling bit. -/
def State.ceiling (s : State) (port tag : Nat) : State :=
  let mine := fun (f : Fill) => f.held.any (fun h => h.1 == port && h.2.1 == tag)
  if (s.steep.fills ++ s.steep.waitFills).any mine then
    let s := { s with steep := { s.steep with fills := s.steep.fills.map (fun (f : Fill) => f.drop port tag),
                                              waitFills := s.steep.waitFills.map (fun (f : Fill) => f.drop port tag) } }
    ((s.inc R.STP_CEIL_HITS).detect 48 0).respond port (.memPoison port tag)
  else if s.steep.heldWrites.any (fun w => w.read && w.port == port && w.tag == tag) then
    let left := s.steep.heldWrites.filter (fun w => !(w.read && w.port == port && w.tag == tag))
    let s := { s with steep := { s.steep with heldWrites := left } }
    ((s.inc R.STP_CEIL_HITS).detect 48 0).respond port (.memPoison port tag)
  else s.cond (s.steep.heldWrites.any (fun w => w.port == port && w.tag == tag)) (fun s => s.detect 48 0)

def execFillCeiling (port tag : Nat) (s : State) : Host.Outcome State Fault Refusal :=
  .next (finish (s.begin.ceiling port tag))

/-! ### The bulk steep (R275) -/

/-- The region is volatile, or has neither a map page nor a kiln-log entry, its directory entry at `STATE` 0: it is filled with
zeros. -/
def State.zeroRegion (s : State) (r : Nat) : Bool := s.dirty.vol.has r || s.dirWord r % 8 == 0

/-- The first unfilled region that satisfies `p`, among the first of each unfilled interval's regions. -/
def State.unfilledRegion (s : State) (p : Nat → Bool) : Option Nat :=
  (regionsOf s.steep.unfilled).foldl (fun (acc : Option Nat) v =>
    match acc with
    | some r => some r
    | none => ((List.range (v.2 - v.1)).map (fun i => v.1 + i)).find? p) none

/-- The unfilled region of highest saved heat level above 0, the lowest index first among equals. -/
def State.hottest (s : State) : Option Nat :=
  s.steep.savedHeat.foldl (fun (acc : Option Nat) e =>
    if e.2 < 2 ∨ s.regionUnfilled e.1 = 0 then acc
    else
      match acc with
      | none => some e.1
      | some r => if s.steep.savedHeat.get r / 2 < e.2 / 2 then some e.1 else some r) none

/-- The region that the bulk steep takes next (R275). -/
def State.bulkChoose (s : State) : Option Nat :=
  let left := fun (r : Nat) => decide (0 < s.regionUnfilled r)
  match s.steep.hints.find? left with
  | some r => some r
  | none =>
    match s.steep.partials.find? left with
    | some r => some r
    | none =>
      match s.unfilledRegion s.zeroRegion with
      | some r => some r
      | none =>
        match s.hottest with
        | some r => some r
        | none => s.unfilledRegion (fun _ => true)

/-- The region under work, while it has unfilled granules, else the one chosen next; complete regions leave the hint queue. While the
partial-region table has to be emptied, the oldest partial region is taken (R265). -/
def State.bulkTake (s : State) : State :=
  let hints := s.steep.hints.filter (fun r => decide (0 < s.regionUnfilled r))
  let s := { s with steep := { s.steep with hints := hints } }
  if s.steep.drainPartials then
    { s with steep := { s.steep with bulkRegion := (s.steep.partials.head?).elim 0 (fun r => r + 1) } }
  else if s.steep.bulkRegion ≠ 0 ∧ 0 < s.regionUnfilled (s.steep.bulkRegion - 1) then s
  else { s with steep := { s.steep with bulkRegion := s.bulkChoose.elim 0 (fun r => r + 1) } }

/-- The unfilled granules of a region that no demand fill has taken, in rising order: the first. -/
def State.bulkNext (s : State) (r : Nat) : Option Nat :=
  ((s.steep.unfilled.slice (r * granulesPerRegion) ((r + 1) * granulesPerRegion)).toList).find? (fun g =>
    !s.demanded g && !s.steep.waitFills.any (fun f => f.granule == g))

/-- The bulk rate over 100 ms. -/
def State.bulkRate (s : State) : State :=
  let n := s.steep.bulkDone + 1
  let win := (s.puNow, n) :: s.steep.bulkWin
  let young := win.filter (fun x => decide (s.usOf (s.puNow - x.1) ≤ 100000))
  let win := win.take (young.length + 1)
  let s := { s with steep := { s.steep with bulkDone := n, bulkWin := win } }
  match win.getLast? with
  | none => s
  | some o => s.wr R.STP_BULK_MBPS (min 131071 ((n - o.2) * 4096 / max 1 (s.usOf (s.puNow - o.1))))

/-- The steep engine fills of its own accord: in ST3, and in ST2 while the partial-region table has to be emptied (R265, R275). -/
def State.bulkRuns (s : State) : Bool :=
  s.fillsRun && (s.rd R.STP_STAT_PHASE == 3 || (s.rd R.STP_STAT_PHASE == 2 && s.steep.drainPartials))

/-- R275: one granule of the bulk steep: of the region under work, in rising order. -/
def State.bulkFill (s : State) (mapStep step busy : Nat) : State :=
  if s.bulkRuns = false then s
  else
    let s := s.bulkTake
    match (if s.steep.bulkRegion = 0 then none else s.bulkNext (s.steep.bulkRegion - 1)) with
    | none => s
    | some g =>
      let w : SlotWait := { granule := g, mapStep := mapStep, step := step, us := 0, busy := busy }
      if s.partialFull g then s.waitSlot w
      else ((s.fillOne w).bulkRate.runWaits.bulkTake.showSteep).steepCheck

def execBulkFillDone (mapStep step busy : Nat) (s : State) : Host.Outcome State Fault Refusal :=
  .next (finish (s.begin.bulkFill mapStep step busy))

end Sys2Proof.Machine
end

