-- ==== Sys2Proof/Machine/Queues.lean ====
section
/-!
DEFINITION. Machine/Queues.lean: the persist queues' commands (chapter 10): doorbells, enabling and disabling, fetch, the
persist commands apart from racking, completion and its timeouts.
-/

namespace Sys2Proof.Machine

open Sys2Proof

/-! ### Doorbells and the slot (R286, R289, R291) -/

/-- A write of port `p` to a queue's doorbell or slot: refused with `CFG_REJECT` where the other port owns the queue (R286). -/
def State.byOwner (s : State) (p q : Nat) (f : State → State) : State :=
  if s.paged = false ∨ s.portsAlive = false ∨ s.hasPort p = false ∨ s.variant.pairs ≤ q then s
  else if (s.queue q).owner ≠ 0 ∧ (s.queue q).owner ≠ p + 1 then s.reject 0x80
  else f s.restExit

/-- A doorbell value at or beyond the ring depth: ignored, and the queue faults (R289). -/
def State.badDoorbell (s : State) (q : Nat) : State := (s.faultQueue q).detect 92 0

/-- R289: the SQ tail. -/
def State.sqTail (s : State) (q tail : Nat) : State :=
  let c := s.queue q
  if c.en = false then s
  else if c.sqDepth ≤ tail then s.badDoorbell q
  else s.setQueue { c with sqTail := tail }

def execSqDoorbell (port q tail : Nat) (s : State) : Host.Outcome State Fault Refusal :=
  .next (finish (s.begin.byOwner (port % 2) q (fun s => s.sqTail q (tail % 65536))))

/-- R289, R295: the CQ head; held completions take the room. -/
def State.cqHead (s : State) (q head : Nat) : State :=
  let c := s.queue q
  if c.en = false then s
  else if c.cqDepth ≤ head then s.badDoorbell q
  else
    let s := s.setQueue { c with cqHead := head }
    ((s.releaseHeld q (c.held.length + 1)).startQueue q).settleQueue q

def execCqDoorbell (port q head : Nat) (s : State) : Host.Outcome State Fault Refusal :=
  .next (finish (s.begin.byOwner (port % 2) q (fun s => s.cqHead q (head % 65536))))

/-- Whether a port may enable a queue (R286). -/
def State.mayEnable (s : State) (p q : Nat) : Bool :=
  let split := min s.variant.pairs (s.rd R.PQE_SPLIT)
  s.admin == 2 || (if p = 0 then decide (q < split) else decide (split ≤ q))

/-- The completion of the command that a record names, the first entry of the new CQ (R310); its `RESULT` is 0 and it raises no
interrupt (DESIGN CHOICE, assumption 194). -/
def State.postRecord (s : State) (q : Nat) : State :=
  let c := s.queue q
  match c.intRec with
  | none => s
  | some r =>
    if c.postDue then
      (s.setQueue { c with postDue := false }).postCompletion q { cid := r.cid, element := r.element, status := r.status,
                                                                  progress := r.offset, result := 0, sqHead := 0, irq := false }
    else s

/-- R291: `EN` set. A queue that was disabled with completions held for want of room begins anew, and they are gone (DEDUCED,
assumption 54). -/
def State.enableQueue (s : State) (p q : Nat) : State :=
  let c := s.queue q
  if c.en then s
  else if s.steepReady = false ∨ s.flag (R.ENABLE 0x80) = false ∨ s.mayEnable p q = false then s.reject 0x80
  else
    let s := s.setQueue { c with en := true, owner := p + 1, via := p, running := true, fault := false, cqFull := false,
                                 sqHead := 0, sqTail := 0, cqTail := 0, cqHead := 0, phase := 1, cmds := [], held := [] }
    (s.postRecord q).showQueues

def execQueueEnable (port q : Nat) (s : State) : Host.Outcome State Fault Refusal :=
  .next (finish (s.begin.byOwner (port % 2) q (fun s => s.enableQueue (port % 2) q)))

def execQueueDisable (port q : Nat) (s : State) : Host.Outcome State Fault Refusal :=
  .next (finish (s.begin.byOwner (port % 2) q (fun s => s.disableQueue q)))

/-- R310: a write of 1 to `INT_CTRL.VALID`. -/
def State.dropRecord (s : State) (q : Nat) : State :=
  (s.setQueue { s.queue q with intRec := none, postDue := false }).showQueues

def execIntRecordDiscard (port q : Nat) (s : State) : Host.Outcome State Fault Refusal :=
  .next (finish (s.begin.byOwner (port % 2) q (fun s => s.dropRecord q)))

/-! ### Fetch (R292, R293) -/

/-- A descriptor joins the open chain or begins a command. -/
def putDesc (l : List RunCmd) (idx after : Nat) (d : Desc) : List RunCmd :=
  if l.any (fun k => k.more) then
    l.map (fun (k : RunCmd) => if k.more then { k with elems := k.elems ++ [d], more := d.chain, sqAfter := after } else k)
  else l ++ [{ cid := d.cid, sqIdx := idx, sqAfter := after, elems := [d], more := d.chain }]

/-- R292: the descriptor that arbitration has fetched arrives, 16 words. Nothing is fetched once a kiln has reached K3 (R309). -/
def State.fetchDesc (s : State) (d : Desc) : State :=
  match (if s.portsAlive && s.flag (R.ENABLE 0x80) then s.arbitrate else none) with
  | none => s
  | some (cls, q, fresh) =>
    let s := s.useContext q
    let c := s.queue q
    let next := (c.sqHead + 1) % c.sqDepth
    let s := s.setQueue { c with sqHead := next, cmds := putDesc c.cmds c.sqHead next d }
    (s.served cls q fresh).startQueue q

def execDescriptorFetch (words : List Nat) (s : State) : Host.Outcome State Fault Refusal :=
  .next (finish (s.begin.fetchDesc (Desc.ofWords words)))

/-- R312: a descriptor fetch (0) or a completion write (1) fails, or a queue context has an uncorrectable error (2). -/
def State.dmaFails (s : State) (q kind : Nat) : State :=
  if (s.queue q).en then (s.faultQueue q).detect (89 + min 2 kind) 0 else s

def execDmaFailure (q kind : Nat) (s : State) : Host.Outcome State Fault Refusal := .next (finish (s.begin.dmaFails q kind))

/-! ### Running an element -/

/-- Commands run: from Steep Ready until a kiln has reached K3. -/
def State.cmdsRun (s : State) : Bool := s.steepReady && s.portsAlive

/-- A step of the running command `cid` of queue `q`, whose opcode is `op`: `f` gets its element. -/
def State.runElem (s : State) (q cid op : Nat) (f : State → RunCmd → Desc → State) : State :=
  match (if s.cmdsRun then (s.queue q).running? cid else none) with
  | none => s
  | some k =>
    match k.desc with
    | none => s
    | some d => if d.opcode = op then f s k d else s

/-- An element has come as far as `to`, with `n` more in `RESULT`; at its end the command goes on. -/
def State.advance (s : State) (q : Nat) (k : RunCmd) (d : Desc) (upTo n : Nat) : State :=
  let k := { k with progress := upTo, result := k.result + n }
  s.setCmd q (if d.count ≤ upTo then k.nextElem else k)

/-- R297: `NOP`. -/
def State.runNop (s : State) (q cid : Nat) : State := s.runElem q cid 0 (fun s k d => s.advance q k d d.count 0)

def execNop (q cid : Nat) (s : State) : Host.Outcome State Fault Refusal := .next (finish (s.begin.runNop q cid))

/-! ### FENCE_DURABLE (R299 to R301) -/

/-- The covered set of a fence that starts, and those of it that wait for a copy in flight to be followed by another. -/
def State.cover (s : State) (k : RunCmd) (d : Desc) : RunCmd :=
  let left := s.dirty.bits.slice (d.base + d.offset) d.top
  let again := (s.dirty.inflight.filter (fun e => left.has e.granule && decide (e.phase = CopyPhase.prog) && e.wrProg)).foldl
    (fun (a : RSet) (e : InFlight) => a.insert1 e.granule) []
  { k with covering := true, covered := left, left := left, again := again, mapLeft := if d.param % 2 = 1 then regionsOf left else [] }

/-- At most `n` copies begun for a fence: of covered granules that are filled and not in flight; the fills of unfilled ones are
raised (R301). While CELLAR is stopped copies wait (R299). -/
def State.fenceCopies (s : State) (q n : Nat) (left : RSet) : State :=
  let want := (left.toList.filter (fun g => s.unfilled g || !s.dirty.inflight.any (fun e => e.granule == g))).take n
  want.foldl (fun s g =>
    if s.unfilled g then s.raiseFill g [] else if s.runs .cellar then s.startCopy g (q + 1) else s) s

/-- R299: the fence takes its covered set when it starts; then copies begin. -/
def State.runFence (s : State) (q cid n : Nat) : State :=
  s.runElem q cid 1 (fun s k d =>
    let k := if k.covering then k else s.cover k d
    (s.setCmd q k.fenceCheck).fenceCopies q n k.left)

def execFenceDurable (q cid n : Nat) (s : State) : Host.Outcome State Fault Refusal :=
  .next (finish (s.begin.runFence q cid n))

/-! ### COPY and ZERO (R302) -/

/-- A granule written whole, each line with its data or as poison. -/
def State.putGranule (s : State) (g : Nat) (data : Memory) (poison : LineMask) : State :=
  let s := (s.wrote g).maskAll g
  let s := { s with dram := { s.dram with mem := s.dram.mem.paste (granuleBytes * g) granuleBytes data } }
  s.each 64 (fun s l => if poison.getLsbD l || s.isPoison g l then s.setPoison g l (poison.getLsbD l) else s)

/-- The writes to a destination granule need a new line-mask entry and its set, one of those in `full`, has none free (R273). -/
def State.setHolds (s : State) (full : List Nat) (g : Nat) : Bool := s.unfilled g && !s.hasMask g && full.contains g

/-- Such writes are held until the granule's fill, which is raised (R273). -/
def State.holdDst (s : State) (g : Nat) : State :=
  (s.cond (!s.filling g) (fun s => (s.inc R.STP_WAITS_MASK_HOLDS).detect 51 0)).raiseFill g []

/-- Granules `i` up to `i + n` of a copy from `src` to `dst`, stopping at an unfilled source granule, whose fill is raised
(Table 09-7), or at a destination that is held. `found` is what the ECC finds in source lines. Answers the state, how far it came,
and the poisoned lines. -/
def State.copyRun (s : State) (src dst : Nat) (found : List (Nat × Ecc)) (full : List Nat) : Nat → Nat → State × Nat × Nat
  | i, 0 => (s, i, 0)
  | i, n + 1 =>
    if s.unfilled (src + i) then (s.raiseFill (src + i) [], i, 0)
    else if s.setHolds full (dst + i) then (s.holdDst (dst + i), i, 0)
    else
      let r := s.copyErrors (src + i) (found.filter (fun e => e.1 / 64 == src + i))
      let t := r.1.putGranule (dst + i) (r.1.granuleData (src + i)) r.2
      let u := t.copyRun src dst found full (i + 1) n
      (u.1, u.2.1, u.2.2 + popcount r.2.toNat)

/-- R302: at most `n` granules of a `COPY`. -/
def State.runCopy (s : State) (q cid n : Nat) (found : List (Nat × Ecc)) (full : List Nat) : State :=
  s.runElem q cid 4 (fun s k d =>
    let r := s.copyRun (d.addr2 / granuleBytes) d.base found full k.progress (min n (d.count - k.progress))
    r.1.advance q { k with poisoned := k.poisoned || r.2.2 != 0 } d r.2.1 r.2.2)

def execCopy (q cid n : Nat) (found : List (Nat × Ecc)) (full : List Nat) (s : State) : Host.Outcome State Fault Refusal :=
  .next (finish (s.begin.runCopy q cid n found full))

/-- Granules `i` up to `i + n` from `dst` on zeroed, stopping at one that is held. -/
def State.zeroRun (s : State) (dst : Nat) (full : List Nat) : Nat → Nat → State × Nat
  | i, 0 => (s, i)
  | i, n + 1 =>
    if s.setHolds full (dst + i) then (s.holdDst (dst + i), i) else (s.putGranule (dst + i) [] 0).zeroRun dst full (i + 1) n

/-- R302: at most `n` granules of a `ZERO`. -/
def State.runZero (s : State) (q cid n : Nat) (full : List Nat) : State :=
  s.runElem q cid 5 (fun s k d =>
    let r := s.zeroRun d.base full k.progress (min n (d.count - k.progress))
    r.1.advance q k d r.2 0)

def execZero (q cid n : Nat) (full : List Nat) (s : State) : Host.Outcome State Fault Refusal :=
  .next (finish (s.begin.runZero q cid n full))

/-! ### PIN (R304) -/

/-- The entries without the regions from `lo` up to `hi`. -/
def pinCut (l : List PinRange) (lo hi : Nat) : List PinRange :=
  (l.map (fun (p : PinRange) =>
    let e := p.base + p.size
    (if p.base < min e lo then [{ p with size := min e lo - p.base }] else []) ++
      (if max p.base hi < e then [{ p with base := max p.base hi, size := e - max p.base hi }] else []))).flatten

/-- An entry put in its place in the order of the regions. -/
def pinPut (p : PinRange) : List PinRange → List PinRange
  | [] => [p]
  | x :: t => if p.base < x.base then p :: x :: t else x :: pinPut p t

/-- Adjoining entries of one class joined. -/
def pinJoin : List PinRange → List PinRange
  | [] => []
  | p :: t =>
    match pinJoin t with
    | [] => [p]
    | x :: u => if p.base + p.size = x.base ∧ p.cls = x.cls then { p with size := p.size + x.size } :: u else p :: x :: u

/-- The table after a `PIN` or `UNPIN` of an element. -/
def pinTable (l : List PinRange) (d : Desc) : List PinRange :=
  let lo := d.addr / (granuleBytes * granulesPerRegion) + d.offset
  let n := d.count - d.offset
  let rest := pinCut l lo (lo + n)
  if d.param.testBit 8 then rest else pinJoin (pinPut { base := lo, size := n, cls := d.param % 8 } rest)

/-- R304: applied whole, or `TABLE_FULL` with the table unchanged. -/
def State.runPin (s : State) (q cid : Nat) : State :=
  s.runElem q cid 6 (fun s k d =>
    let t := pinTable s.queues.pins d
    if 1024 < t.length then (s.setCmd q (k.close 0x14)).detect 96 0
    else
      let s := { s with queues := { s.queues with pins := t } }.wr R.KLN_PINS t.length
      s.advance q { k with result := 0 } d d.count t.length)

def execPin (q cid : Nat) (s : State) : Host.Outcome State Fault Refusal := .next (finish (s.begin.runPin q cid))

/-! ### HEAT_HINT (R140, R276, R305) -/

/-- A hinted region joins the queue of the bulk steep, where it may and is not complete; answers whether it was queued. -/
def State.hintRegion (s : State) (r : Nat) : State × Bool :=
  let ph := s.rd R.STP_STAT_PHASE
  if (ph = 2 ∨ ph = 3) ∧ s.flag R.STP_CTRL_HINT_EN ∧ 0 < s.regionUnfilled r ∧ ¬ s.steep.hints.contains r then
    if 4096 ≤ s.steep.hints.length then ((s.inc R.STP_HINTS_DROPPED).detect 52 0, false)
    else
      let s : State := { s with steep := { s.steep with hints := s.steep.hints ++ [r] } }
      (s.wr R.STP_HINTS_QUEUED s.steep.hints.length, true)
  else (s, false)

/-- The level of one region set; its `TOUCHED` bit stays. -/
def State.setLevel (s : State) (r v : Nat) : State :=
  { s with dirty := { s.dirty with heat := s.dirty.heat.set r (2 * (v % 128) + s.dirty.heat.get r % 2) } }

/-- R305: at most `n` regions of a `HEAT_HINT`. -/
def State.runHint (s : State) (q cid n : Nat) : State :=
  s.runElem q cid 7 (fun s k d =>
    let m := min n (d.count - k.progress)
    let r0 := d.addr / (granuleBytes * granulesPerRegion) + k.progress
    let t := (List.range m).foldl (fun (a : State × Nat) i =>
      let h := (a.1.setLevel (r0 + i) d.param).hintRegion (r0 + i)
      (h.1, a.2 + b2n h.2)) (s, 0)
    t.1.advance q k d (k.progress + m) t.2)

def execHeatHint (q cid n : Nat) (s : State) : Host.Outcome State Fault Refusal := .next (finish (s.begin.runHint q cid n))

/-! ### DISCARD (R303) and VOLATILE_SET (R141 to R143) -/

/-- Granules from `lo` up to `hi` cleaned with nothing saved: dirty bits, copies in flight, and what fences wait for. -/
def State.cleanDrop (s : State) (lo hi : Nat) : State := ((s.cleanRange lo hi).dropCopies lo hi).fenceClean lo hi

/-- R303: at most `n` granules of a `DISCARD`. -/
def State.runDiscard (s : State) (q cid n : Nat) : State :=
  s.runElem q cid 8 (fun s k d =>
    let m := min n (d.count - k.progress)
    let lo := d.base + k.progress
    let cleaned := (s.dirty.bits.slice lo (lo + m)).card
    let s := (s.cleanDrop lo (lo + m)).cond (d.param % 2 == 1) (fun s => s.releaseEntries lo (lo + m))
    s.advance q k d (k.progress + m) cleaned)

def execDiscard (q cid n : Nat) (s : State) : Host.Outcome State Fault Refusal := .next (finish (s.begin.runDiscard q cid n))

/-- A range becomes volatile (R142), or persistent: what of it was volatile is marked dirty (R143). -/
def State.setVolatile (s : State) (lo hi : Nat) (on : Bool) : State :=
  if on then
    let a := lo * granulesPerRegion
    let b := s.regionEnd hi
    let s := { s with dirty := { s.dirty with vol := s.dirty.vol.add lo hi } }
    (s.cleanDrop a b).releaseEntries a b
  else
    let was := s.dirty.vol.slice lo hi
    let s := { s with dirty := { s.dirty with vol := s.dirty.vol.cut lo hi } }
    was.foldl (fun s v => s.markRange (v.1 * granulesPerRegion) (s.regionEnd v.2)) s

/-- R141, R305: applied whole, or `TABLE_FULL` with the table unchanged. -/
def State.runVolatile (s : State) (q cid : Nat) : State :=
  s.runElem q cid 9 (fun s k d =>
    let lo := d.addr / (granuleBytes * granulesPerRegion) + d.offset
    let hi := d.addr / (granuleBytes * granulesPerRegion) + d.count
    let on := d.param % 2 == 1
    let t := if on then s.dirty.vol.add lo hi else s.dirty.vol.cut lo hi
    if 256 < t.length then (s.setCmd q (k.close 0x14)).detect 28 0
    else (s.setVolatile lo hi on).advance q { k with result := 0 } d d.count t.length)

def execVolatileSet (q cid : Nat) (s : State) : Host.Outcome State Fault Refusal := .next (finish (s.begin.runVolatile q cid))

/-! ### QUERY (R307) -/

/-- The regions of a list's least and greatest value under `f`. -/
def rangeOf (f : Nat → Nat) (rs : List Nat) : Nat × Nat :=
  let vs := rs.map f
  (vs.foldl min (vs.headD 0), vs.foldl max 0)

/-- The kiln class of a region now. -/
def State.pinClass (s : State) (r : Nat) : Nat :=
  match s.queues.pins.find? (fun p => decide (p.base ≤ r) && decide (r < p.base + p.size)) with
  | some p => p.cls
  | none => s.rd R.KLN_CTRL_DEF_CLASS

/-- The result record of Table 10-5 over the granules from `lo` up to `hi`. -/
def State.queryWords (s : State) (lo hi : Nat) : List Nat :=
  let rs := (regionsOf [(lo, hi)]).toList
  let vol : RSet := s.dirty.vol.map (fun v => (v.1 * granulesPerRegion, v.2 * granulesPerRegion))
  let owed := (rs.filter (fun r => (s.debt 0).has r || (s.debt 1).has r)).length
  let cls := rangeOf s.pinClass rs
  let heat := rangeOf s.heatLevel rs
  words40 (s.dirty.bits.slice lo hi).card ++ words40 (s.steep.unfilled.slice lo hi).card ++ words40 (RSet.slice vol lo hi).card ++
    words40 owed ++ words40 (s.rd R.DRT_DIRTY) ++ words40 (s.rd R.BUD_BOUND) ++
    [cls.1 + cls.2 * 2 ^ 8 + heat.1 * 2 ^ 16 + heat.2 * 2 ^ 24, s.rd R.PST_SEQ, 0, 0]

/-- R307: the record is written to host memory; `ok` is false where that write fails. -/
def State.runQuery (s : State) (q cid : Nat) (ok : Bool) : State :=
  s.runElem q cid 10 (fun s k d =>
    if ok then
      (s.send (.dmaWrite (s.queue q).via d.addr2 (s.queryWords (d.base + d.offset) d.top))).advance q k d d.count 0
    else s.setCmd q (k.close 0x17))

def execQuery (q cid : Nat) (ok : Bool) (s : State) : Host.Outcome State Fault Refusal :=
  .next (finish (s.begin.runQuery q cid ok))

/-! ### Completion (R295, R296, R293) -/

/-- What a completed fence leaves in the latency registers and `CONTENDED`; `us` is its time from start to completion. -/
def State.fenceStats (s : State) (st us : Nat) : State :=
  let n := s.queues.latSum + us
  let s := { s with queues := { s.queues with latSum := n, latCnt := s.queues.latCnt + 1 } }
  let s := s.wr R.PQE_FENCE_LAT_MAX_MS (max (min 65535 (us / 1000)) (s.rd R.PQE_FENCE_LAT_MAX_MS))
  s.cond (st == 2) (fun s => (s.inc R.PQE_CONTENDED).detect 94 0)

/-- R295: the command that has ended is completed. -/
def State.commandDone (s : State) (q cid us : Nat) : State :=
  match (s.queue q).cmds.find? (fun k => k.cid == cid && k.status.isSome) with
  | none => s
  | some k =>
    let st := k.status.getD 0
    if s.portsAlive = false ∨ (s.queue q).fault then s
    else (s.cond (k.opcode == 1 && decide (st < 4)) (fun s => s.fenceStats st us)).complete q k st

def execCommandComplete (q cid us : Nat) (s : State) : Host.Outcome State Fault Refusal :=
  .next (finish (s.begin.commandDone q cid us))

/-- R296: `COAL.US` have passed since the first completion pending on a vector. -/
def State.coalesce (s : State) (port vec : Nat) : State :=
  let key := port * 2048 + vec
  if s.rd R.PQE_COAL_US ≠ 0 ∧ s.queues.pendVec.get key ≠ 0 then
    ({ s with queues := { s.queues with pendVec := s.queues.pendVec.set key 0 } }).msix port vec
  else s

def execCoalesceTimeout (port vec : Nat) (s : State) : Host.Outcome State Fault Refusal :=
  .next (finish (s.begin.coalesce (port % 2) (vec % 2048)))

/-- R295: completions held for 1 s. -/
def execCqFullTimeout (q : Nat) (s : State) : Host.Outcome State Fault Refusal :=
  .next (finish (s.begin.cond (s.queue q).cqFull (fun s => s.detect 93 0)))

/-- R293: a chain has waited 1 s for the tail to advance. -/
def State.chainLate (s : State) (q : Nat) : State :=
  let c := s.queue q
  if c.en ∧ c.fault = false ∧ c.sqHead = c.sqTail then
    s.setQueue { c with cmds := c.cmds.map (fun (k : RunCmd) => if k.more then k.close 0x15 else k) }
  else s

def execChainTimeout (q : Nat) (s : State) : Host.Outcome State Fault Refusal := .next (finish (s.begin.chainLate q))

end Sys2Proof.Machine
end

