-- ==== Sys2Proof/Machine/Racking.lean ====
section
/-!
DEFINITION. Machine/Racking.lean: racking (chapter 12): the commands `RACK` and `RACK_FENCE`, sends, acknowledgements and opens
at the source, and what a target does with the packets it receives.
-/

namespace Sys2Proof.Machine

open Sys2Proof

/-! ### RACK and RACK_FENCE (R306, R367) -/

/-- The owed regions that a rack command covers, per target, and those whose send in flight began before it. -/
def State.rackCover (s : State) (k : RunCmd) (d : Desc) : RunCmd :=
  let lo := (d.base + d.offset) / granulesPerRegion
  let hi := (d.top + granulesPerRegion - 1) / granulesPerRegion
  let left := (s.rackTargets d.param).foldl (fun (a : RSet) t => a ++ ((s.debt t).slice lo hi).shift (rackKey t 0)) []
  let again := s.racking.sends.foldl (fun (a : RSet) (e : Send) =>
    if left.has (rackKey e.target e.region) then a.insert1 (rackKey e.target e.region) else a) []
  { k with covering := true, left := left, again := again }

/-- The fills of the unfilled granules in the owed regions are raised (R367, Table 09-7). -/
def State.rackFills (s : State) (left : RSet) : State :=
  let owed := (left.slice 0 16777216).union (((left.slice 16777216 33554432)).map (fun i => (i.1 - 16777216, i.2 - 16777216)))
  let want := owed.foldl (fun (a : RSet) i =>
    a.union (s.steep.unfilled.slice (i.1 * granulesPerRegion) (i.2 * granulesPerRegion))) []
  want.toList.foldl (fun s g => s.cond (!s.filling g) (fun s => s.raiseFill g [])) s

/-- A rack command takes its covered set when it starts, ends where it can, and raises fills. -/
def State.runRack (s : State) (q cid op : Nat) : State :=
  s.runElem q cid op (fun s k d =>
    let k := s.rackCheck (if k.covering then k else s.rackCover k d)
    let s := s.setCmd q k
    s.cond k.status.isNone (fun s => s.rackFills k.left))

def execRack (q cid : Nat) (s : State) : Host.Outcome State Fault Refusal := .next (finish (s.begin.runRack q cid 2))

def execRackFence (q cid : Nat) (s : State) : Host.Outcome State Fault Refusal := .next (finish (s.begin.runRack q cid 3))

/-! ### Sends (R355 to R357) -/

/-- A rack command of opcode `op` names the region for the target. -/
def State.rackNames (s : State) (op t r : Nat) : Bool :=
  s.queues.list.any (fun c => c.en && !c.fault && c.cmds.any (fun k => k.isRack && k.opcode == op && k.left.has (rackKey t r)))

/-- The entry of a region's send to a target. -/
def State.sendOf (s : State) (t r : Nat) : Option Send := s.racking.sends.find? (fun e => e.target == t && e.region == r)

/-- The region is owed to the target, not in flight to it and filled (R355); the hold is the turn's. -/
def State.rackEligible (s : State) (t r : Nat) : Bool :=
  (s.debt t).has r && (match s.sendOf t r with
    | none => true
    | some e => e.resend) && s.regionUnfilled r == 0

/-- The region waits: its hold has not passed, or its target was busy with it less than 1 s ago (R355, R359). -/
def State.rackBusy (s : State) (t r : Nat) : Bool :=
  s.racking.busyAt.any (fun e => e.2.has (rackKey t r) && s.within e.1 1000000)
def State.rackHeld (s : State) (t r : Nat) : Bool :=
  s.racking.owedAt.any (fun e => e.2.has (rackKey t r) && s.within e.1 (s.rd R.RCK_CTRL_HOLD_MS * 1000))

/-- Where the ascending order of a target's other regions goes on (R355). -/
def State.rackCursor (s : State) (t : Nat) : Nat := if t = 0 then s.racking.cursor0 else s.racking.cursor1

/-- The cursor after a region. -/
def State.passRegion (s : State) (t r : Nat) : State :=
  if t = 0 then { s with racking := { s.racking with cursor0 := r + 1 } } else { s with racking := { s.racking with cursor1 := r + 1 } }

/-- The region is the next of those that no command names: no other that may be sent lies between the cursor and it, the cursor
wrapping at the last racked region (R355). -/
def State.rackNext (s : State) (t r : Nat) : Bool :=
  let c := s.rackCursor t
  let ahead := if c ≤ r then (s.debt t).slice c r else (s.debt t).slice c (rackKey 1 0) ++ (s.debt t).slice 0 r
  !ahead.toList.any (fun x => s.rackEligible t x && !s.rackHeld t x && !s.rackBusy t x)

/-- Some region named by a command of opcode `op` may be sent to the target. -/
def State.rackAhead (s : State) (op t : Nat) : Bool :=
  s.queues.list.any (fun c => c.en && !c.fault && c.cmds.any (fun k => k.isRack && k.opcode == op &&
    (k.left.slice (rackKey t 0) (rackKey (t + 1) 0)).toList.any (fun x =>
      s.rackEligible t (x - rackKey t 0) && !s.rackBusy t (x - rackKey t 0))))

/-- The order of R355: fences first, then `RACK`, then the rest, each after its hold and in ascending order. -/
def State.rackTurn (s : State) (t r : Nat) : Bool :=
  if s.rackNames 3 t r then true
  else if s.rackAhead 3 t then false
  else if s.rackNames 2 t r then true
  else !s.rackAhead 2 t && !s.rackHeld t r && s.rackNext t r

/-- Sends go out: Steep Ready, no kiln from K3 on, the page enabled, the target Active with a route (R355, R368). -/
def State.rackSends (s : State) (t : Nat) : Bool :=
  s.variant.fabric && s.cmdsRun && s.flag (R.ENABLE 0x95) && s.tgtState t == 2 && s.reachable (s.tgt t)

/-- The packets of one granule: 16 parts of 256 bytes, and its line mask where lines are poisoned. -/
def granuleParts (off : Nat) (data : Memory) : List (Nat × Payload) :=
  (List.range 16).map (fun i => (off * 16 + i, .rData off i (data.slice (256 * i) 256)))

/-- A region is read granule by granule and sent (R356, R357): answers the state after what the ECC found, the `DATA` payloads and
the `POISON` payloads. -/
def State.readRegion (s : State) (r : Nat) (found : List (Nat × Ecc)) : State × List (Nat × Payload) × List Payload :=
  (List.range granulesPerRegion).foldl (fun (a : State × List (Nat × Payload) × List Payload) i =>
    let g := r * granulesPerRegion + i
    let e := a.1.copyErrors g (found.filter (fun f => f.1 / 64 == g))
    (e.1, a.2.1 ++ granuleParts i (e.1.granuleData g), if e.2 = 0 then a.2.2 else a.2.2 ++ [.rPoison i e.2])) (s, [], [])

/-- The CRC-32 over the data of a region's parts, in their order (Table 12-1). -/
def crcOfParts (l : List Payload) : Nat := crc32Bytes (l.flatMap Payload.bytes)

/-- One send of a region to a target: `REGION_BEGIN`, data and poison where the region is not volatile, `REGION_END`, all under
one handle (R353, R357). -/
def State.sendRegion (s : State) (t r : Nat) (found : List (Nat × Ecc)) : State :=
  let fence := s.rackNames 3 t r
  let h := s.racking.nextHandle % 65536
  let late := (s.sendOf t r).any (fun e => e.late)
  let rest := s.racking.sends.filter (fun e => !(e.target == t && e.region == r))
  let s : State := { s with racking := { s.racking with nextHandle := h + 1 } }
  let s := s.setSends (rest ++ [{ target := t, region := r, handle := h, late := late }])
  let s := s.rackSent t r
  let eui := s.tgt t
  let cls := if fence then 4 else 2
  let gen := s.rd (R.RCK_GEN t)
  if s.dirty.vol.has r then
    (s.rackTo eui 5 9 h h (.rBegin gen r true)).rackTo eui 5 10 h h (.rEnd 0 0 (crc32Bytes []))
  else
    let x := s.readRegion r found
    let s := x.1.rackTo eui 5 9 h h (.rBegin gen r false)
    let s := x.2.1.foldl (fun s p => s.rackTo eui cls 256 p.1 h p.2) s
    let s := x.2.2.foldl (fun s p => s.rackTo eui cls 10 h h p) s
    s.rackTo eui 5 10 h h (.rEnd x.2.1.length x.2.2.length (crcOfParts (x.2.1.map (fun (p : Nat × Payload) => p.2))))

/-- Sends with data to a target within the last 100 ms. -/
def State.sentLately (s : State) (t : Nat) : Nat :=
  (s.racking.sentWin.filter (fun e => e.1 == t && s.within e.2 100000)).length

/-- `RATE.MBPS` of a target: the mean of the last 100 ms (Table 12-8). -/
def State.showRackRate (s : State) (t : Nat) : State :=
  s.wr (if t = 0 then R.RCK_RATE_MBPS0 else R.RCK_RATE_MBPS1) (min 65535 (s.sentLately t * 2097152 / 100000))

/-- One region more to the target keeps within `MAX_MBPS` over 100 ms, or is the only one (R370). -/
def State.rateRoom (s : State) (t : Nat) : Bool :=
  let m := max 100 (min 26000 (s.rd (if t = 0 then R.RCK_TGT_RATE_MAX_MBPS0 else R.RCK_TGT_RATE_MAX_MBPS1)))
  s.sentLately t == 0 || decide ((s.sentLately t + 1) * 2097152 ≤ m * 100000)

/-- A send with data counts in the target's rate. -/
def State.noteSent (s : State) (t : Nat) : State :=
  { s with racking := { s.racking with
      sentWin := s.racking.sentWin.filter (fun (e : Nat × Nat) => s.within e.2 100000) ++ [(t, s.puNow + 1)] } }.showRackRate t

/-- R355: a send starts where the region is eligible, its turn has come, the in-flight table has room and so has the target's rate
(R370). -/
def State.sendStart (s : State) (t r : Nat) (found : List (Nat × Ecc)) : State :=
  let room := (s.sendOf t r).isSome || decide (s.rd (R.RCK_TGT_STAT_INFLIGHT t) < 64)
  let named := s.rackNames 3 t r || s.rackNames 2 t r
  let data := !s.dirty.vol.has r
  if t < 2 ∧ s.rackSends t ∧ s.rackEligible t r ∧ s.rackBusy t r = false ∧ s.rackTurn t r ∧ room ∧ (data = false ∨ s.rateRoom t) then
    (((s.cond (!named) (fun s => s.passRegion t r)).cond data (fun s => s.noteSent t)).sendRegion t r found).restCease
  else s

def execRackSendStart (target region : Nat) (found : List (Nat × Ecc)) (s : State) : Host.Outcome State Fault Refusal :=
  .next (finish (s.begin.sendStart target region found))

/-! ### Acknowledgements (R354, R359) -/

/-- A region is to be sent again. -/
def State.sendAgain (s : State) (e : Send) (late : Bool) : State :=
  let s := s.setSends (s.racking.sends.map (fun (x : Send) =>
    if x.target = e.target ∧ x.region = e.region then { x with resend := true, late := late, wr := false } else x))
  (s.inc (R.RCK_RESENT e.target)).detect 115 0

/-- R359: no `ACK` in time: once, the region is sent again; twice in a row, the target is suspended. -/
def State.ackLate (s : State) (t r : Nat) : State :=
  match s.sendOf t r with
  | none => s
  | some e => if e.resend then s else if e.late then s.suspend t else s.sendAgain e true

def execAckTimeout (target region : Nat) (s : State) : Host.Outcome State Fault Refusal :=
  .next (finish (s.begin.ackLate (target % 2) region))

/-- The configured target that a number belongs to (R328). -/
def State.targetOf (s : State) (fnn : Nat) : Option Nat :=
  (List.range 2).find? (fun t => s.tgt t != 0 && s.fnnOf (s.tgt t) == some fnn)

/-- The `ACK` of a send (R354, R359, R367). -/
def State.ackRx (s : State) (t h r st : Nat) : State :=
  match s.sendOf t r with
  | none => s
  | some e =>
    if e.resend ∨ e.handle ≠ h ∨ s.tgtState t ≠ 2 then s
    else
      let s := s.wr (R.RCK_TGT_STAT_REPLY t) st
      let without := s.racking.sends.filter (fun x => !(x.target == t && x.region == r))
      match st with
      | 0 =>
        let s := (s.setSends without).inc (R.RCK_ACKED t)
        let s := s.cond (!e.wr) (fun s => s.setDebt t ((s.debt t).erase1 r))
        s.rackAcked t r
      | 1 => s.sendAgain e false
      | 2 =>
        let s := { s with racking := { s.racking with busyAt := s.noteAt s.racking.busyAt [(rackKey t r, rackKey t r + 1)] } }
        s.setSends without
      | 3 => s.refuse t
      | 4 => s.refuse t
      | _ => s

/-! ### Opens at the source (R362, R365) -/

/-- R365: the retry period of a target ends. -/
def State.openRetry (s : State) (t : Nat) : State :=
  if s.variant.fabric = false ∨ s.steepReady = false ∨ s.portsAlive = false ∨ s.runs .fabric = false then s
  else if s.tgtState t = 1 then s.sendOpen t
  else if s.tgtState t = 4 then s.openTarget t
  else s

def execRackOpenRetry (target : Nat) (s : State) : Host.Outcome State Fault Refusal :=
  .next (finish (s.begin.openRetry (target % 2)))

/-- An `OPEN_REPLY` of a target (Table 12-3, R362): a generation above the source's own makes it advance past it, and the volume
is opened anew under it. -/
def State.replyRx (s : State) (t st gen : Nat) : State :=
  let was := s.tgtState t
  if was = 1 ∨ (was = 2 ∧ (st = 2 ∨ st = 3)) then
    let s := s.wr (R.RCK_TGT_STAT_REPLY t) st
    match st with
    | 0 =>
      let s := s.wr (R.RCK_TGT_STAT_STATE t) 2
      if s.rd (R.RCK_GEN t) < gen then (s.advanceGen t (gen + 1)).sendOpen t else s
    | 2 => s.refuse t
    | 3 => s.refuse t
    | 4 => s.advanceGen t (s.rd (R.RCK_GEN t) + 1)
    | _ => s
  else s

/-- The owner learns that its volume is gone: a new generation at its next open (R363, R362). -/
def State.releasedRx (s : State) (t : Nat) : State :=
  let s := if t = 0 then { s with racking := { s.racking with genDue0 := true } }
    else { s with racking := { s.racking with genDue1 := true } }
  if s.tgtState t = 2 ∨ s.tgtState t = 1 then (s.abandonSends t).openTarget t else s

/-- The owner learns of lost regions: owed again to that target (R364). -/
def State.lostRx (s : State) (t : Nat) (l : List Nat) : State :=
  let rs := l.filter (fun r => (s.rackMask r).testBit t)
  (s.setDebt t (rs.foldl (fun (a : RSet) r => a.insert1 r) (s.debt t))).rackSettle

/-! ### The target (R358, R360, R361) -/

/-- A packet from a device that does not own the volume, or of a stale generation, is dropped and counted (R361). -/
def State.guestDrop (s : State) : State := (s.inc R.RCK_GUEST_DROPS).detect 117 0

/-- The device takes racking packets as a target: from Steep Ready until kiln phase K3 (R360). -/
def State.guestOpen (s : State) : Bool := s.variant.fabric && s.cmdsRun

/-- The volume whose owner a number belongs to. -/
def State.guestFrom (s : State) (fnn : Nat) : Option Guest :=
  s.racking.guests.find? (fun v => s.fnnOf v.owner == some fnn)

/-- The answer to an `OPEN`. -/
def State.answerOpen (s : State) (owner st slot gen committed : Nat) : State :=
  s.rackTo owner 5 10 0 0 (.rOpenReply st slot gen committed)

/-- `OPEN` (R360, R362): an existing volume while the declared sizes fit; a new one where accepted; a generation above the
volume's is adopted, and what was in progress under the old one ends. A volume that this device's host released is reported
missing, once. -/
def State.openRx (s : State) (src owner gen size count : Nat) : State :=
  if s.fnnOf owner ≠ some src then s.guestDrop
  else if s.guestOpen = false then s.answerOpen owner 1 0 0 0
  else
    match s.guestOf owner with
    | some v =>
      if s.guestFits owner size = false then s.answerOpen owner 2 v.slot v.gen v.held.card
      else if gen < v.gen then s.answerOpen owner 0 v.slot v.gen v.held.card
      else
        let s := s.cond (decide (v.gen < gen)) (fun s =>
          { s with racking := { s.racking with recvs := s.racking.recvs.filter (fun r => r.slot != v.slot) } })
        let v := { v with gen := gen, size := size, ranges := [], count := count, fresh := v.fresh && gen == v.gen }
        let s := if count = 0 then s.guestKeep v [] else s.putGuest v
        s.answerOpen owner 0 v.slot gen v.held.card
    | none =>
      if s.racking.gone.contains owner then
        { s with racking := { s.racking with gone := s.racking.gone.filter (fun e => e != owner) } }.answerOpen owner 4 0 0 0
      else if !s.flag R.RCK_CTRL_GUEST_ACCEPT then s.answerOpen owner 3 0 0 0
      else
        match (List.range 32).find? (fun n => (s.guestAt n).isNone) with
        | none => s.answerOpen owner 2 0 0 0
        | some n =>
          if s.guestFits owner size = false then s.answerOpen owner 2 0 0 0
          else (s.putGuest { slot := n, owner := owner, gen := gen, size := size, count := count }).answerOpen owner 0 n gen 0

/-- `RANGES`: the volume's range table; once it is whole, copies outside it are released (R352, R360). -/
def State.rangesRx (s : State) (src first : Nat) (l : List (Nat × Nat)) : State :=
  match s.guestFrom src with
  | none => s.guestDrop
  | some v =>
    if s.guestOpen = false then s
    else
      let v := { v with ranges := v.ranges.take first ++ l }
      if v.count ≤ v.ranges.length then s.guestKeep v (rangeSet v.ranges) else s.putGuest v

/-- `ACK` to an owner, under the handle of the send it answers (`TAG`, Table 11-3). -/
def State.ackTo (s : State) (owner h region st : Nat) : State := s.rackTo owner 5 5 h h (.rAck region st)

/-- `REGION_BEGIN` (R357, R361): a region outside the volume's range table is refused. -/
def State.beginRx (s : State) (src h gen region : Nat) (drop : Bool) : State :=
  match s.guestFrom src with
  | none => s.guestDrop
  | some v =>
    if v.gen ≠ gen then s.guestDrop
    else if s.guestOpen = false then s
    else if (rangeSet v.ranges).has region = false then s.ackTo v.owner h region 3
    else
      let rest := s.racking.recvs.filter (fun r => !(r.slot == v.slot && (r.region == region || r.handle == h)))
      { s with racking := { s.racking with recvs := rest ++ [{ slot := v.slot, region := region, handle := h, drop := drop }] } }

/-- A change of the region being received from `src` under handle `h`. -/
def State.recvWith (s : State) (src h : Nat) (f : Recv → Recv) : State :=
  match s.guestFrom src with
  | none => s.guestDrop
  | some v =>
    { s with racking := { s.racking with recvs := s.racking.recvs.map (fun (r : Recv) =>
      if r.slot = v.slot ∧ r.handle = h ∧ r.ended = false then f r else r) } }

/-- `DATA`. -/
def State.dataRx (s : State) (src h off part : Nat) (data : Memory) : State :=
  s.recvWith src h (fun (r : Recv) =>
    if off < granulesPerRegion ∧ part < 16 then
      { r with nData := r.nData + 1, parts := r.parts.insert1 (off * 16 + part),
               data := r.data.paste (granuleBytes * off + 256 * part) 256 data }
    else { r with nData := r.nData + 1 })

/-- `POISON`. -/
def State.poisonRx (s : State) (src h off : Nat) (m : LineMask) : State :=
  s.recvWith src h (fun (r : Recv) => { r with nPoison := r.nPoison + 1, poison := r.poison ++ [(off, m)] })

/-- The region came whole, and the CRC-32 over its data matches. -/
def Recv.whole (r : Recv) (nData nPoison crc : Nat) : Bool :=
  r.nData == nData && r.nPoison == nPoison && (r.drop || (r.parts == [(0, 16 * granulesPerRegion)] &&
    crc == crc32Bytes ((List.range (granuleBytes * granulesPerRegion)).map (fun i => (r.data.byte i).toNat))))

/-- `REGION_END` (R358): a region that came whole waits for its stripes; otherwise the owner is to send it again. -/
def State.endRx (s : State) (src h nData nPoison crc : Nat) : State :=
  match s.guestFrom src with
  | none => s.guestDrop
  | some v =>
    match s.racking.recvs.find? (fun r => r.slot == v.slot && r.handle == h && !r.ended) with
    | none => s
    | some r =>
      if r.whole nData nPoison crc then s.recvWith src h (fun (r : Recv) => { r with ended := true })
      else
        { s with racking := { s.racking with recvs := s.racking.recvs.filter (fun x => x.slot != v.slot || x.handle != h) } }.ackTo
          v.owner h r.region 1

/-- The codewords of a region received (R358): `TYPE` 5, one for each of its granules. -/
def State.guestCopies (s : State) (r : Recv) : List (Nat × Nat × Codeword) :=
  if r.drop then []
  else (List.range granulesPerRegion).map (fun i =>
    let g := r.region * granulesPerRegion + i
    (r.slot, g, { index := g, typ := 5,
                  poison := r.poison.foldl (fun (m : LineMask) (e : Nat × LineMask) => if e.1 = i then m ||| e.2 else m) 0,
                  seq := s.cellar.seq + 1 + i, batch := s.rd R.KLN_BATCH, keyEpoch := s.rd R.CRY_KEY_EPOCH,
                  data := r.data.slice (granuleBytes * i) granuleBytes }))

/-- R358: the map page and the volume-directory delta are written: the commit. The copy is replaced whole, or released where the
send said so; the answer is `ACK` status 0. -/
def State.guestCommit (s : State) (slot region : Nat) : State :=
  match s.guestAt slot, s.racking.recvs.find? (fun r => r.slot == slot && r.region == region && r.ended) with
  | some v, some r =>
    if s.guestOpen = false then s
    else
      let old := s.racking.copies.filter (fun c => c.1 != slot || c.2.1 / granulesPerRegion != region)
      let s := { s with racking := { s.racking with copies := old ++ s.guestCopies r,
                                                    recvs := s.racking.recvs.filter (fun x => x.slot != slot || x.region != region) },
                        cellar := { s.cellar with seq := s.cellar.seq + granulesPerRegion } }
      let s := s.putGuest { v with held := if r.drop then v.held.erase1 region else v.held.insert1 region,
                                   lost := v.lost.erase1 region, lostDue := v.lostDue.erase1 region, fresh := true,
                                   lastCommit := s.opsec }
      let s := s.cond (!r.drop) (fun s => s.countDone granulesPerRegion)
      (s.countUsed (granulesPerRegion + 1)).ackTo v.owner r.handle region 0
  | some _, none => s
  | none, _ => s

def execGuestRegionCommit (slot region : Nat) (s : State) : Host.Outcome State Fault Refusal :=
  .next (finish (s.begin.guestCommit slot region))

/-- `RELEASE` (R363): from the owner, with the volume's generation, it frees the volume; from a target, it tells this owner. -/
def State.releaseRx (s : State) (src owner gen : Nat) : State :=
  if owner = s.rd R.ID_EUI then
    match s.targetOf src with
    | some t => s.releasedRx t
    | none => s
  else
    match s.guestOf owner with
    | none => s.guestDrop
    | some v =>
      if s.fnnOf owner ≠ some src ∨ v.gen ≠ gen then s.guestDrop
      else s.cond s.guestOpen (fun s => s.dropGuest v.slot)

/-- R363: `GUEST_CMD.RELEASE` for the volume that `GUEST_SEL` selects. -/
def State.guestRelease (s : State) (who : Requester) : State :=
  s.under (s.admission who 0x95) 0x95 (fun s =>
    match s.guestAt (s.rd R.RCK_GUEST_SEL) with
    | none => s.reject 0x95
    | some v =>
      let orphan := !s.flag (R.RCK_GUEST_STAT_OWNER_REACH v.slot) &&
        decide (max 1 (s.rd R.RCK_GUEST_CTRL_GUEST_ORPHAN_H) ≤ s.rd (R.RCK_GUEST_STAT_UNREACH_H v.slot))
      if orphan ∨ s.maint.isOpen then
        let s := if s.reachable v.owner then s.rackTo v.owner 5 12 0 0 (.rRelease v.owner v.gen)
          else { s with racking := { s.racking with gone := s.racking.gone ++ [v.owner] } }
        (s.dropGuest v.slot).detect 118 0
      else s.reject 0x95)

def execGuestRelease (who : Requester) (s : State) : Host.Outcome State Fault Refusal :=
  .next (finish (s.begin.guestRelease who))

/-! ### Racking packets -/

/-- A racking packet for this device, by type (Table 12-1). -/
def State.rackRx (s : State) (p : Packet) : State :=
  let own := fun (f : Nat → State) => match s.targetOf p.src with
    | some t => f t
    | none => s
  match p.payload with
  | .rOpen owner gen size count => s.openRx p.src owner gen size count
  | .rRanges first l => s.rangesRx p.src first l
  | .rOpenReply st _ gen _ => own (fun t => s.replyRx t st gen)
  | .rBegin gen region drop => s.beginRx p.src p.tag gen region drop
  | .rData off part data => s.dataRx p.src p.tag off part data
  | .rPoison off m => s.poisonRx p.src p.tag off m
  | .rEnd n k crc => s.endRx p.src p.tag n k crc
  | .rAck region st => own (fun t => s.ackRx t p.tag region st)
  | .rRelease owner gen => s.releaseRx p.src owner gen
  | .rLost l => own (fun t => s.lostRx t l)
  | .hello .. => s
  | .lsa _ => s
  | .dbx _ => s
  | .kiln .. => s
  | .alarm _ => s
  | .wake .. => s
  | .rExport .. => s
  | .other _ => s

end Sys2Proof.Machine
end

