-- ==== Sys2Proof/Machine/Fabric.lean ====
section
/-!
DEFINITION. Machine/Fabric.lean: the Daluf fabric (chapter 11): hellos and port states, link frames, packets, link-state
database, number claims, routes, alarm summaries, wakes and the phantom feed.
-/

namespace Sys2Proof.Machine

open Sys2Proof

/-- A fabric command runs on port `n` of a variant that has the fabric, the port not Off. -/
def State.onPort (s : State) (n : Nat) (f : State → State) : State :=
  if s.variant.fabric ∧ n < 4 ∧ s.dlp n ≠ 0 then f s else s

/-! ### Hellos (R320) -/

/-- High-rate lanes are available on the port: `HR_EN` = 1 and the high-rate plane is on. -/
def State.hrAvail (s : State) (n : Nat) : Bool :=
  s.flag (R.DLP_CTRL_HR_EN n) && !s.fabricOff && s.power.life != .failed && s.power.life != .goingDown

/-- The hello of a port. -/
def State.hello (s : State) (n : Nat) : Packet :=
  let a := s.ownLsa (s.rd R.DFS_OWN_SEQ)
  { s.packet 0x1FFF 7 20 0 false (.hello a.eui a.fnn a.flags a.seq n (s.hrAvail n) (s.rd (R.DLP_STAT_LANES n))
      (s.rd R.PWR_STAT_STATE) (s.flag (R.DLP_STAT_PH_OUT n))) with hops := 64 }

def execHelloTx (port : Nat) (s : State) : Host.Outcome State Fault Refusal :=
  .next (finish (s.begin.onPort port (fun s => s.send (.packet port 0 (s.hello port).sealed))))

/-- Database exchange: every LSA held, then the own one (R330). -/
def State.exchange (s : State) (n : Nat) : State :=
  let pl := if s.dlp n = 4 then 1 else 0
  let s := s.fabric.db.foldl (fun s e => s.sendOn n pl (s.packet 0x1FFF 6 36 e.1.seq false (.dbx e.1))) s
  s.cond (s.srcFnn != 0x1FFF) (fun s =>
    s.sendOn n pl (s.packet 0x1FFF 6 36 (s.rd R.DFS_OWN_SEQ) false (.dbx (s.ownLsa (s.rd R.DFS_OWN_SEQ)))))

/-- A Sideband port whose ends both advertise high-rate lanes trains, unless a retry is still to come (Table 11-2). -/
def State.mayTrain (s : State) (n : Nat) : State :=
  s.cond (s.dlp n == 2 && s.hrAvail n && (s.dport n).nbrHr && !(s.dport n).retry) (fun s => s.wr (R.DLP_STAT_STATE n) 3)

/-- A hello is received (Table 11-2). -/
def State.helloRx (s : State) (n : Nat) (eui fnn port : Nat) (hr : Bool) (power : Nat) : State :=
  let old := s.rd (R.DLP_NBR_FNN n)
  let s := s.setDport n { s.dport n with nbrHr := hr }
  let s := (((s.wr (R.DLP_NBR n) eui).wr (R.DLP_NBR_FNN n) fnn).wr (R.DLP_NBR_PORT n) port).wr (R.DLP_NBR_PSTATE n) power
  let s := if s.dlp n = 1 then ((s.wr (R.DLP_STAT_STATE n) 2).exchange n).adjacency
    else if old ≠ fnn then s.adjacency else s
  (s.cond (s.dlp n == 4 && !hr) (fun s => s.portFall n 2)).mayTrain n

/-! ### Packet checks (R322, R323) -/

/-- The packet's class is the one of its type (Tables 11-4 and 12-1); an unknown type has none. -/
def Packet.classOk (p : Packet) : Bool :=
  match p.payload with
  | .hello .. => p.cls == 7
  | .lsa _ => p.cls == 6
  | .dbx _ => p.cls == 6
  | .kiln .. => p.cls == 7
  | .alarm _ => p.cls == 7
  | .wake .. => p.cls == 7
  | .rData .. => p.cls == 4 || p.cls == 2
  | .rPoison .. => p.cls == 4 || p.cls == 2
  | .rExport .. => p.cls == 1
  | .other _ => false
  | .rOpen .. => p.cls == 5
  | .rRanges .. => p.cls == 5
  | .rOpenReply .. => p.cls == 5
  | .rBegin .. => p.cls == 5
  | .rEnd .. => p.cls == 5
  | .rAck .. => p.cls == 5
  | .rRelease .. => p.cls == 5
  | .rLost _ => p.cls == 5

/-- A packet that passes the checks of its header, type and class goes on; others are dropped and counted. -/
def State.checked (s : State) (n : Nat) (p : Packet) (f : State → State) : State :=
  if p.hcrcOk = false ∨ p.reservedZero = false ∨ 256 < p.len then s.inc (R.DLP_CRC_ERR n)
  else if p.classOk = false then s.inc R.DFS_BAD_TYPE
  else f s

/-- R320: a hello on a port's sideband. -/
def State.helloIn (s : State) (n : Nat) (p : Packet) : State :=
  s.checked n p (fun s =>
    match p.payload with
    | .hello eui fnn _ _ port hr _ power _ => s.helloRx n eui fnn port hr power
    | _ => s)

def execHelloRx (port : Nat) (p : Packet) (s : State) : Host.Outcome State Fault Refusal :=
  .next (finish (s.begin.onPort port (fun s => s.helloIn port p)))

/-- R319: three hellos in a row missed. -/
def State.hellosMissed (s : State) (n : Nat) : State :=
  s.cond (decide (2 ≤ s.dlp n)) (fun s => (s.addSat (R.DLP_HELLO n) 3).portFall n 1)

def execHellosMissed (port : Nat) (s : State) : Host.Outcome State Fault Refusal :=
  .next (finish (s.begin.onPort port (fun s => s.hellosMissed port)))

/-! ### Training and lanes (R317 to R319) -/

/-- What the repair summary shows of a port: its failed lane, 7 for none, and whether the spare is in use (Table 01-10). -/
def State.laneWord (s : State) (n lane used : Nat) : State :=
  let w := s.rd (R.ID_REPAIR 1)
  let old := w / 256 ^ n % 256
  s.wr (R.ID_REPAIR 1) (w - old * 256 ^ n + (lane % 8 + 8 * (used % 2) + old / 16 * 16) * 256 ^ n)

/-- A substitution of the spare is recorded in the trouble log, the event recorder and the repair summary (R32, Table 01-10). -/
def State.recordSpare (s : State) (n lane : Nat) : State :=
  let w := s.rd (R.ID_REPAIR 1)
  let subs := min 15 (w / 256 ^ n / 16 % 16 + 1)
  let byte := lane % 8 + 8 + subs * 16
  let s := s.wr (R.ID_REPAIR 1) (w - w / 256 ^ n % 256 * 256 ^ n + byte * 256 ^ n)
  let s := (s.wr (R.DLP_STAT_SPARE_USED n) 1).wr (R.DLP_STAT_FAILED_LANE n) lane
  ((s.tlog 0x0109 (n * 256 + lane)).occur 0x0109 none).detect 106 n

/-- Good lanes in use, and what follows for the cost and the faults. -/
def State.showLanes (s : State) (n lanes : Nat) : State :=
  let s := (s.wr (R.DLP_STAT_LANES n) lanes).wr (R.DLP_COST n) (s.portCost n lanes)
  s.cond (decide (lanes < 4)) (fun s => s.detect 107 n)

/-- Frames in a replay buffer are sent again. -/
def State.replay (s : State) (n pl : Nat) : State :=
  let l := (s.plane n pl).unacked
  (l.foldl (fun s f => s.send (.packet n pl f.2)) s).addSat (R.DLP_RETRIES n) l.length

/-- Training is done; `bad` are the lanes that fail, bit 4 the spare. -/
def State.trained (s : State) (n bad : Nat) : State :=
  let again := s.dlp n == 4 && (s.dport n).retraining
  let dead := (List.range 4).filter (fun l => bad.testBit l)
  let spare := s.flag (R.DLP_CTRL_SPARE_EN n) && !bad.testBit 4 && !dead.isEmpty
  let good := 4 - dead.length + b2n spare
  if s.dlp n = 3 ∨ again then
    if good < 2 then s.cond again (fun s => s.portFall n 2)
    else
      let s := s.setDport n { s.dport n with badLanes := bad % 32, retraining := false,
                                             hr := { (s.dport n).hr with replays := 0 } }
      let s := s.wr (R.DLP_STAT_STATE n) 4
      let s := if spare then s.recordSpare n (dead.headD 7)
        else (s.wr (R.DLP_STAT_SPARE_USED n) 0).laneWord n (dead.headD 7) 0
      let s := s.showLanes n good
      if again then ((s.replay n 1).pump n 1 128).adjacency else ((s.exchange n).adjacency)
  else s

def execTrainingDone (port bad : Nat) (s : State) : Host.Outcome State Fault Refusal :=
  .next (finish (s.begin.onPort port (fun s => s.trained port bad)))

/-- R319: 10 ms of training without success. -/
def State.trainLate (s : State) (n : Nat) : State :=
  if s.dlp n = 3 then
    (s.setDport n { s.dport n with retry := true }).wr (R.DLP_STAT_STATE n) 2 |>.inc (R.DLP_STAT_RETRAINS n)
  else s

def execTrainingTimeout (port : Nat) (s : State) : Host.Outcome State Fault Refusal :=
  .next (finish (s.begin.onPort port (fun s => s.trainLate port)))

/-- 1 s after a failed training. -/
def State.trainRetry (s : State) (n : Nat) : State :=
  s.cond (s.dlp n == 2 && (s.dport n).retry) (fun s => (s.setDport n { s.dport n with retry := false }).mayTrain n)

def execTrainingRetry (port : Nat) (s : State) : Host.Outcome State Fault Refusal :=
  .next (finish (s.begin.onPort port (fun s => s.trainRetry port)))

/-- R317: a lane fails while the link is up: the spare takes its place, or the link goes on with fewer lanes, or it ends. -/
def State.laneFail (s : State) (n lane : Nat) : State :=
  let d := s.dport n
  let used := s.flag (R.DLP_STAT_SPARE_USED n)
  if s.dlp n ≠ 4 ∨ 4 < lane ∨ d.badLanes.testBit lane then s
  else
    let s := s.setDport n { d with badLanes := d.badLanes ||| 2 ^ lane }
    if lane = 4 ∧ used = false then s
    else if lane < 4 ∧ s.flag (R.DLP_CTRL_SPARE_EN n) ∧ used = false ∧ d.badLanes.testBit 4 = false then s.recordSpare n lane
    else
      let left := s.rd (R.DLP_STAT_LANES n) - 1
      let s := if lane = 4 then (s.wr (R.DLP_STAT_SPARE_USED n) 0).laneWord n (s.rd (R.DLP_STAT_FAILED_LANE n)) 0
        else s.cond (!used) (fun s => s.laneWord n lane 0)
      let s := s.showLanes n left
      if left < 2 then s.portFall n 2 else s.adjacency

def execLaneFail (port lane exp : Nat) (s : State) : Host.Outcome State Fault Refusal :=
  .next (finish (s.begin.onPort port (fun s =>
    (s.cond (s.dlp port == 4 && decide (lane < 5)) (fun s => s.wr (R.DLP_LANE_ERR port lane) (min 15 exp))).laneFail port lane)))

/-! ### Link frames (R318) -/

/-- Frames in the buffer up to `seq` are acknowledged. -/
def ackUpTo (seq : Nat) (l : List (Nat × Packet)) : List (Nat × Packet) :=
  match l.dropWhile (fun f => f.1 != seq) with
  | [] => l
  | _ :: t => t

/-- A frame arrives: out of sequence or corrupted, it is discarded and asked for again. -/
def State.frameIn (s : State) (n pl seq : Nat) (crcOk : Bool) : State :=
  let l := s.plane n pl
  if crcOk = false then (s.inc (R.DLP_CRC_ERR n)).send (.linkNak n pl l.rxSeq)
  else if seq = l.rxSeq then
    (s.setPlane n pl { l with rxSeq := (l.rxSeq + 1) % 4096 }).send (.linkAck n pl seq)
  else if (l.rxSeq + 4096 - seq) % 4096 ≤ 2048 then s.send (.linkAck n pl ((l.rxSeq + 4095) % 4096))
  else s.send (.linkNak n pl l.rxSeq)

/-- A cumulative acknowledge: the queue moves on. -/
def State.ackIn (s : State) (n pl seq : Nat) : State :=
  let l := s.plane n pl
  let left := ackUpTo seq l.unacked
  (s.setPlane n pl { l with unacked := left, replays := if left.length < l.unacked.length then 0 else l.replays }).pump n pl
    l.waiting.length

/-- A request for replay from a frame: those before it are acknowledged; after 8 in a row for one frame the port retrains. -/
def State.nakIn (s : State) (n pl seq : Nat) : State :=
  let l := s.plane n pl
  if l.unacked.any (fun f => f.1 == seq) then
    let left := l.unacked.dropWhile (fun f => f.1 != seq)
    let r := if left.length < l.unacked.length then 1 else l.replays + 1
    let s := s.setPlane n pl { l with unacked := left, replays := r }
    if pl = 1 ∧ 8 ≤ r then
      ((s.replay n pl).setDport n { s.dport n with retraining := true }).detect 108 n
    else s.replay n pl
  else s

/-- R318: a link frame with a packet (0), an acknowledge (1) or a request for replay (2). -/
def State.linkFrame (s : State) (n pl kind seq : Nat) (crcOk : Bool) : State :=
  if s.planeUp n pl = false ∨ (pl = 1 ∧ (s.dport n).retraining) then s
  else
    match kind with
    | 0 => s.frameIn n pl seq crcOk
    | 1 => s.cond crcOk (fun s => s.ackIn n pl seq)
    | _ => s.cond crcOk (fun s => s.nakIn n pl seq)

def execLinkFrameRx (port plane kind seq : Nat) (crcOk : Bool) (s : State) : Host.Outcome State Fault Refusal :=
  .next (finish (s.begin.onPort port (fun s => s.linkFrame port (plane % 2) kind (seq % 4096) crcOk)))

/-- R318: the retraining of a link that is up does not end within 10 ms. -/
def State.replayLate (s : State) (n : Nat) : State :=
  s.cond (s.dlp n == 4 && (s.dport n).retraining) (fun s => s.portFall n 2)

def execReplayRetrainTimeout (port : Nat) (s : State) : Host.Outcome State Fault Refusal :=
  .next (finish (s.begin.onPort port (fun s => s.replayLate port)))

/-! ### Number claims (R325 to R327) -/

/-- The claim of R325 is made by an unclaimed device while FABRIC runs. -/
def State.firstClaim (s : State) : State :=
  s.cond (s.rd R.DFS_FNN_STAT_CLAIM == 0 && s.runs .fabric && !s.fabricOff) (fun s => s.claim s.firstFnn)

/-- R326: 250 ms alone, or without a conflict. -/
def State.claimEnd (s : State) : State :=
  if s.variant.fabric = false ∨ s.runs .fabric = false ∨ s.fabricOff then s
  else if s.rd R.DFS_FNN_STAT_CLAIM = 0 then s.firstClaim
  else if s.rd R.DFS_FNN_STAT_CLAIM = 1 then
    { s with fabric := { s.fabric with remembered := some (s.rd R.DFS_FNN_STAT_FNN) } }.wr R.DFS_FNN_STAT_CLAIM 2 |>.adjacency
  else s

def execClaimWindowEnd (s : State) : Host.Outcome State Fault Refusal := .next (finish s.begin.claimEnd)

/-! ### The database (R329, R330) -/

/-- LSAs held. -/
def State.showDb (s : State) : State := s.wr R.DFS_NODES_KNOWN s.fabric.db.length

/-- An LSA is received: a higher `SEQ` than the one held for its EUI is accepted; conflicts follow R327 while FABRIC runs (R335). Answers whether it is
accepted. -/
def State.lsaIn (s : State) (a : Lsa) : State × Bool :=
  if a.eui = s.rd R.ID_EUI then
    (s.cond (s.srcFnn != 0x1FFF && a.fnn != s.srcFnn) (fun s => s.detect 99 0), false)
  else
    let old := s.fabric.db.find? (fun e => e.1.eui == a.eui)
    let s := s.cond (old.any (fun e => e.1.fnn != a.fnn)) (fun s => s.detect 99 0)
    if old.any (fun e => decide (a.seq ≤ e.1.seq)) then (s, false)
    else
      let rest := s.fabric.db.filter (fun e => e.1.eui != a.eui)
      let s := { s with fabric := { s.fabric with db := rest ++ [(a, s.rd R.SNT_RTC)], routeDue := true } }.showDb
      let c := s.rd R.DFS_FNN_STAT_CLAIM
      (s.cond (s.runs .fabric && (c == 1 || c == 2) && a.fnn == s.rd R.DFS_FNN_STAT_FNN && decide (a.eui < s.rd R.ID_EUI))
        State.loseFnn, true)

/-- A database-exchange packet on port `n`: an accepted LSA is flooded on; the neighbour's own LSA ends its part, and an
unclaimed device claims. -/
def State.dbxIn (s : State) (n : Nat) (a : Lsa) : State :=
  let r := s.lsaIn a
  let p := { s.packet 0x1FFF 6 36 a.seq true (.lsa a) with src := a.fnn }
  let s := r.1.cond r.2 (fun s => s.cond (!s.seenFlood a.fnn 1 p.seq) (fun s => (s.remember a.fnn 1 p.seq).floodOut n p))
  s.cond (a.eui == s.rd (R.DLP_NBR n)) State.firstClaim

def execLsaPeriodic (s : State) : Host.Outcome State Fault Refusal := .next (finish s.begin.announce)

/-- R329: 120 s without an LSA from an EUI; a number that is freed may be claimed by an exhausted device. -/
def State.lsaAge (s : State) (eui : Nat) : State :=
  if s.fabric.db.any (fun e => e.1.eui == eui && decide (e.2 + 120 ≤ s.rd R.SNT_RTC)) then
    let s : State := { s with fabric := { s.fabric with db := s.fabric.db.filter (fun e => e.1.eui != eui), routeDue := true } }
    s.showDb.cond (s.rd R.DFS_FNN_STAT_CLAIM == 3 && s.runs .fabric) (fun s => s.claim s.firstFnn)
  else s

def execLsaAgeOut (eui : Nat) (s : State) : Host.Outcome State Fault Refusal :=
  .next (finish (s.begin.cond s.variant.fabric (fun s => s.lsaAge eui)))

/-! ### Routes (R331 to R333) -/

/-- A directed edge: from number, by port, to number, cost. -/
structure Edge where
  src : Nat
  port : Nat
  dst : Nat
  cost : Nat
deriving DecidableEq, Repr

/-- The high-rate adjacencies that both ends advertise (R332). -/
def edgesOf (l : List Lsa) : List Edge :=
  let half := (l.map (fun a => ((List.range 4).filterMap (fun p =>
    match a.nbrs[p]? with
    | some (f, true, c) => some ({ src := a.fnn, port := p, dst := f, cost := c } : Edge)
    | some (_, false, _) => none
    | none => none)))).flatten
  half.filter (fun e => half.any (fun x => x.src == e.dst && x.dst == e.src))

/-- One round of relaxation of the costs from the device; `none` where no path is known. -/
def relax (es : List Edge) (d : NMap) : NMap :=
  es.foldl (fun (m : NMap) e =>
    let u := m.get e.src
    if u = 0 then m
    else if m.get e.dst = 0 ∨ u + e.cost < m.get e.dst then m.set e.dst (u + e.cost) else m) d

/-- `n` rounds. Costs are held plus one. -/
def relaxN (es : List Edge) : Nat → NMap → NMap
  | 0, d => d
  | n + 1, d => relaxN es n (relax es d)

/-- One round of ports and hop counts over the shortest-path edges: the ports of every equal-cost path, the fewest hops. -/
def spread (es : List Edge) (own : Nat) (d : NMap) (m : NMap × NMap) : NMap × NMap :=
  es.foldl (fun (m : NMap × NMap) e =>
    if d.get e.src = 0 ∨ d.get e.src + e.cost ≠ d.get e.dst then m
    else
      let ports := if e.src = own then 2 ^ e.port else m.1.get e.src
      let hops := if e.src = own then 1 else m.2.get e.src + 1
      if ports = 0 then m
      else
        let old := m.2.get e.dst
        (m.1.set e.dst (m.1.get e.dst ||| ports), m.2.set e.dst (if old = 0 then hops else min old hops))) m

/-- `n` rounds. -/
def spreadN (es : List Edge) (own : Nat) (d : NMap) : Nat → NMap × NMap → NMap × NMap
  | 0, m => m
  | n + 1, m => spreadN es own d n (spread es own d m)

/-- The route table of R332, from the own LSA and the database. -/
def routeTable (own : Nat) (l : List Lsa) : List Route :=
  let es := edgesOf l
  let n := l.length
  let d := relaxN es n [(own, 1)]
  let m := spreadN es own d n ([], [])
  (m.1.filter (fun e => e.1 != own)).map (fun e =>
    { fnn := e.1, ports := e.2, hops := m.2.get e.1, cost := d.get e.1 - 1 })

/-- The entry that `ROUTE_SEL` selects. -/
def State.showRoute (s : State) : State :=
  let r := s.routeTo (s.rd R.DFS_ROUTE_SEL)
  (((s.wr (R.DFS_ROUTE_E_PORTS 0) ((r.map (fun r => r.ports)).getD 0)).wr (R.DFS_ROUTE_E_HOPS 0)
    ((r.map (fun r => r.hops)).getD 0)).wr (R.DFS_ROUTE_E_VALID 0) (b2n r.isSome)).wr (R.DFS_ROUTE_E_COST 0)
    ((r.map (fun r => r.cost)).getD 0)

/-- Collectors reachable. -/
def State.showColl (s : State) : State :=
  s.each 4 (fun s n => s.setBit R.DFS_COLL_STAT n (s.rd (R.DFS_COLL n) != 0 && s.reachable (s.rd (R.DFS_COLL n))))

/-- R332: the new table is installed in one step, `ms` after the LSA that asked for it. -/
def State.install (s : State) (ms : Nat) : State :=
  if s.variant.fabric = false ∨ s.runs .fabric = false ∨ s.fabricOff ∨ s.fabric.routeDue = false then s
  else
    let old := s.fabric.routes
    let own := s.srcFnn
    let table := if own = 0x1FFF then [] else routeTable own (s.ownLsa 0 :: s.fabric.db.map (fun e => e.1))
    let s := { s with fabric := { s.fabric with routes := table, routeDue := false } }
    let s := (s.inc R.DFS_ROUTE_INSTALLS).wr R.DFS_ROUTE_CONV_MS (min 65535 ms)
    let s := (s.wr R.DFS_NODES_REACHABLE table.length).cond (old.any (fun r => (s.routeTo r.fnn).isNone)) (fun s => s.detect 102 0)
    (((s.showRoute).showColl).followRoutes).guestsFollow

def execRouteInstall (ms : Nat) (s : State) : Host.Outcome State Fault Refusal := .next (finish (s.begin.install ms))

/-- R333: a computation is still pending 200 ms after its LSA. -/
def execConvergenceTimeout (s : State) : Host.Outcome State Fault Refusal :=
  .next (finish (s.begin.cond (s.variant.fabric && s.fabric.routeDue && !s.fabricOff) (fun s => s.detect 101 0)))

/-! ### Alarm summaries (R338 to R341) -/

/-- The summary for a collector now. -/
def State.summary (s : State) (n kind : Nat) : Summary :=
  { eui := s.rd R.ID_EUI, pst := s.pstWord, errN := s.flag R.SAF_STAT_ERRN_DRIVE, kilnRunning := s.inKiln,
    stateSummary := kind == 0, power := s.rd R.PWR_STAT_STATE, changes := min 65535 s.fabric.changes,
    suppressed := s.fabric.suppressed, hopDrops := s.fabric.hopDrops, collDrops := s.fabric.collDue.getD n 0,
    num := s.fabric.alarmSeq + 1, entries := s.fabric.faultDue.take 28 }

/-- The summary goes to one collector, or is counted as not sent. -/
def State.toCollector (s : State) (kind n : Nat) : State :=
  let eui := s.rd (R.DFS_COLL n)
  if eui = 0 then s
  else
    match (if s.reachable eui then s.fnnOf eui else none) with
    | none =>
      ({ s with fabric := { s.fabric with collDue := s.fabric.collDue.set n (s.fabric.collDue.getD n 0 + 1) } }.inc
        (R.DFS_COLL_DROP n)).detect 100 0
    | some f =>
      let a := s.summary n kind
      let p := s.packet f 7 (min 256 (32 + 8 * a.entries.length)) a.num false (.alarm a)
      ({ s with fabric := { s.fabric with collDue := s.fabric.collDue.set n 0 } }.inc R.DFS_SUMMARIES).unicast p

/-- A summary is due: a state change, at most 10 per second; a fault; the period. -/
def State.summaryDue (s : State) (kind : Nat) : Bool :=
  match kind with
  | 0 => s.fabric.stateDue && decide (s.fabric.stateSent < 10)
  | 1 => s.fabric.faultNow
  | _ => true

/-- R338: a summary is sent to every collector that is named; what it carries is counted anew. -/
def State.sendSummary (s : State) (kind : Nat) : State :=
  if s.variant.fabric = false ∨ s.runs .fabric = false ∨ s.fabricOff ∨ s.summaryDue kind = false then s
  else
    let s := s.each 4 (fun s n => s.toCollector kind n)
    let sent := s.fabric.faultDue.take 28
    { s with fabric := { s.fabric with
        alarmSeq := s.fabric.alarmSeq + 1, changes := 0, suppressed := 0, hopDrops := 0,
        stateDue := if kind = 0 then false else s.fabric.stateDue,
        stateSent := if kind = 0 then s.fabric.stateSent + 1 else s.fabric.stateSent,
        faultNow := false, faultDue := s.fabric.faultDue.drop 28,
        codeSent := sent.foldl (fun (m : NMap) (e : Nat × Nat × Nat) => m.set e.1 (s.opsec + 1)) s.fabric.codeSent } }

def execAlarmSummaryTx (kind : Nat) (s : State) : Host.Outcome State Fault Refusal := .next (finish (s.begin.sendSummary kind))

/-! ### Wake (R343) -/

/-- The wake packet is meant for this device. -/
def State.wakeMine (s : State) (p : Packet) (eui group : Nat) : Bool :=
  if p.flood then
    eui == s.rd R.ID_EUI || (eui == 0 && s.rd R.DFS_GROUP != 0 && group == s.rd R.DFS_GROUP)
  else s.srcFnn != 0x1FFF && p.dst == s.srcFnn

/-- A wake packet for this device, while `WAKE_EN` = 1. -/
def State.wakeIn (s : State) : State :=
  let dormant := s.power.life == .dormant || (s.power.life == .off && !s.seq.forcedOff)
  let early := s.fabric.lastWake != 0 && decide (s.rd R.SNT_RTC + 1 < s.fabric.lastWake + 10)
  if dormant ∧ s.power.mainGood ∧ early = false then
    let s := { s with fabric := { s.fabric with lastWake := s.rd R.SNT_RTC + 1 } }.inc R.DFS_WAKE_ACCEPTED
    if s.power.life = .dormant then s.wake 2 else (s.wr R.SNT_LAST_WAKE_SOURCE 2).startBegin s.power.cause
  else (s.inc R.DFS_WAKE_IGNORED).cond (!early) (fun s => s.wake 2)

/-! ### Packets (R334, R336, R337, R342) -/

/-- A kiln message: from the device's own group it is logged, primes the controller, or is trigger 4 (R225, R336). -/
def State.kilnIn (s : State) (group trig : Nat) : State :=
  if s.rd R.DFS_GROUP = 0 ∨ group ≠ s.rd R.DFS_GROUP then s
  else
    let s := ((s.inc R.DFS_KILN_MSG_RECEIVED).tlog 0x010A (group + trig * 65536)).detect 46 0
    match s.rd R.KLN_TRIG_GROUP_RX with
    | 0 => s
    | 1 => s.prime
    | _ => s.fireTrigger 4 false false

/-- A packet is delivered to this device. While dormant, the Sentinel takes wakes, and the kiln controller kiln messages. -/
def State.deliver (s : State) (n : Nat) (p : Packet) : State :=
  match p.payload with
  | .hello eui fnn _ _ port hr _ power _ => s.helloRx n eui fnn port hr power
  | .lsa a => if s.fabricOff then s else (s.lsaIn a).1
  | .dbx a => if s.fabricOff then s else s.dbxIn n a
  | .kiln _ group trig => s.kilnIn group trig
  | .wake eui group => s.cond (s.flag R.DFS_CTRL_WAKE_EN && s.wakeMine p eui group) State.wakeIn
  | .alarm _ => s
  | .rExport .. => s
  | .other _ => s
  | .rOpen .. => if s.fabricOff then s else s.rackRx p
  | .rRanges .. => if s.fabricOff then s else s.rackRx p
  | .rOpenReply .. => if s.fabricOff then s else s.rackRx p
  | .rBegin .. => if s.fabricOff then s else s.rackRx p
  | .rData .. => if s.fabricOff then s else s.rackRx p
  | .rPoison .. => if s.fabricOff then s else s.rackRx p
  | .rEnd .. => if s.fabricOff then s else s.rackRx p
  | .rAck .. => if s.fabricOff then s else s.rackRx p
  | .rRelease .. => if s.fabricOff then s else s.rackRx p
  | .rLost _ => if s.fabricOff then s else s.rackRx p

/-- A flooded packet: dropped where the cache holds it, else delivered and forwarded while hops are left (R337); a dormant device
forwards only types 0x01, 0x10 and 0x12 (R342). It is forwarded first: what it sets off here comes after it. -/
def State.floodIn (s : State) (n : Nat) (p : Packet) : State :=
  let t := p.payload.typ
  if s.seenFlood p.src t p.seq then s
  else
    let s := s.remember p.src t p.seq
    let go := decide (1 < p.hops) && (!s.fabricOff || t == 0x01 || t == 0x10 || t == 0x12)
    (s.cond go (fun s => s.floodOut n { p with hops := p.hops - 1 })).deliver n p

/-- A unicast packet for another device (R332, R334, R342). -/
def State.forward (s : State) (n : Nat) (p : Packet) : State :=
  if p.hops ≤ 1 then s.inc (R.DLP_DROP2_HOPS n)
  else if s.fabricOff ∨ (s.routeTo p.dst).isNone then s.inc (R.DLP_DROP2_NO_ROUTE n)
  else s.unicast { p with hops := p.hops - 1 }

/-- The packet is link-local: it is never forwarded (Table 11-4). -/
def Packet.local (p : Packet) : Bool := p.payload.typ == 0x00 || p.payload.typ == 0x02

/-- R322: a packet that came on a plane of a port. -/
def State.packetIn (s : State) (n pl : Nat) (p : Packet) : State :=
  if s.planeUp n pl = false ∧ ¬(pl = 0 ∧ p.payload.typ = 0) then s
  else
    s.checked n p (fun s =>
      if p.payload.typ = 0 then s.cond (pl == 0) (fun s => s.deliver n p)
      else if p.local then s.deliver n p
      else if p.flood then s.floodIn n p
      else if p.dst = 0x1FFF ∨ (s.srcFnn ≠ 0x1FFF ∧ p.dst = s.srcFnn) then s.deliver n p
      else s.forward n p)

def execPacketRx (port plane : Nat) (p : Packet) (s : State) : Host.Outcome State Fault Refusal :=
  .next (finish (s.begin.onPort port (fun s => s.packetIn port (plane % 2) p)))

/-! ### Phantom feed (R321) -/

/-- The feed of a port meets an overcurrent. -/
def State.overcurrent (s : State) (n : Nat) : State :=
  if s.flag (R.DLP_STAT_PH_OUT n) then
    ((s.setDport n { s.dport n with feedOff := true, overcurrents := (s.dport n).overcurrents + 1 }).showFeed n).detect 109 n
  else s

def execPhantomOvercurrent (port : Nat) (s : State) : Host.Outcome State Fault Refusal :=
  .next (finish (s.begin.onPort port (fun s => s.overcurrent port)))

/-- 1 s later it is driven again, unless three overcurrents in a row have been met. -/
def State.feedRetry (s : State) (n : Nat) : State :=
  s.cond ((s.dport n).feedOff && decide ((s.dport n).overcurrents < 3)) (fun s =>
    (s.setDport n { s.dport n with feedOff := false }).showFeed n)

def execPhantomFeedRetry (port : Nat) (s : State) : Host.Outcome State Fault Refusal :=
  .next (finish (s.begin.onPort port (fun s => s.feedRetry port)))

end Sys2Proof.Machine
end

