-- ==== Sys2Proof/Machine/Pack.lean ====
section
/-!
DEFINITION. Machine/Pack.lean: backup packs and the energy gauge (chapter 13): insertion and identity, authentication, rest
corrections and learning, tests, and charger supervision. The conversion frame's part of the gauge is in Monitor.
-/

namespace Sys2Proof.Machine

open Sys2Proof

/-- A pack command runs on a full pack port of the variant (R396). -/
def State.onPack (s : State) (p : Nat) (f : State → State) : State := if s.packs.contains p then f s else s

/-- Vendor record 0x05: 1 inserted, 2 removed, 3 authenticated, 4 refused (Table 04-5). -/
def State.packEvent (s : State) (p k : Nat) : State := s.vendor 1 5 [5, p, k]

/-- The pack has been identified. -/
def State.identified (s : State) (p : Nat) : Bool := decide (3 ≤ s.rd (R.PK_STAT_STATE p))

/-! ### Insertion, identity, removal (R373, R375 to R377) -/

/-- A pack is inserted: on an empty port, or again during authentication; during a kiln it stays Absent (Table 13-6). -/
def State.insertPack (s : State) (p : Nat) : State :=
  let st := s.rd (R.PK_STAT_STATE p)
  if s.kiln.since ∨ s.inKiln ∨ (st ≠ pkAbsent ∧ st ≠ pkAuth) then s
  else
    let s := (s.setPack p { restAt := s.opsec, removed := (s.pack p).removed, pulseAt := s.opsec + 1 }).showDisagree
    let s := ((s.wr (R.PK_STAT_STATE p) pkIdent).wr (R.PK_AUTH_OVERRIDE p) 0).wr (R.PK_AUTH_STATE p) 0
    (s.packEvent p 1).cond (s.condAny 143) (fun s => s.setCond 143 p false)

def execPackInserted (port : Nat) (s : State) : Host.Outcome State Fault Refusal :=
  .next (finish (s.begin.onPack port (fun s => s.insertPack port)))

/-- Learnt data selected: those of the serial, else rated capacity and no baseline (R377). After a removal a known pack resumes
its charge; otherwise Q_cc comes from the first interval (R386). -/
def State.selectLearnt (s : State) (p serial : Nat) : State :=
  let l := s.learntOf serial
  let cap := match l with
    | some x => x.cap
    | none => s.ratedCt p
  let s := ((s.wr (R.PK_SERIAL p) serial).wr (R.PK_CAP p) (min 0xFFFFFF cap)).wr (R.PK_RES_BASE p) ((l.map (fun x => x.base)).getD 0)
  let s := (s.wr (R.PK_UNC p) (2 * cap / 100)).wr (R.PK_Q_VHI p) (min 0xFFFFFF cap)
  match l, (s.pack p).removed with
  | some x, true => s.wr (R.PK_Q_CC p) x.lastQ
  | some _, false => (s.wr (R.PK_Q_CC p) 0).setPack p { s.pack p with firstV := true }
  | none, _ => (s.wr (R.PK_Q_CC p) 0).setPack p { s.pack p with firstV := true }

/-- The identity reads are complete, or 1 s has passed without an answer (Table 13-3). -/
def State.identify (s : State) (p : Nat) (answered : Bool) (serial chem : Nat) (cells4 : Bool) : State :=
  if s.rd (R.PK_STAT_STATE p) ≠ pkIdent then s
  else if answered ∧ s.chem p ≠ 0 ∧ chem = s.chem p ∧ cells4 = s.flag (R.PK_CFG_CELLS4 p) then
    (((s.selectLearnt p serial).wr (R.PK_STAT_STATE p) pkAuth).startAuth p false).chargeCheck p
  else
    let s := s.cond answered (fun s => s.wr (R.PK_SERIAL p) serial)
    ((((s.wr (R.PK_STAT_STATE p) pkUncounted).uncount p 4 true).chargeStop p).detect 148 p).packEvent p 4

def execPackIdentified (port : Nat) (answered : Bool) (serial chem : Nat) (cells4 : Bool) (s : State) :
    Host.Outcome State Fault Refusal :=
  .next (finish (s.begin.onPack port (fun s => s.identify port answered serial chem cells4)))

/-- A pack is removed (R376): E_p leaves E; the removal stands until a pack is inserted. -/
def State.packGone (s : State) (p : Nat) : State :=
  if s.rd (R.PK_STAT_STATE p) = pkAbsent then s
  else
    let s := (((s.removePack p).gaugeShow).packEvent p 2).setCond 143 p true
    s.cond (s.inKiln && !s.power.mainGood && !s.packCarries) (fun s => s.kilnCut false)

def execPackRemoved (port : Nat) (s : State) : Host.Outcome State Fault Refusal :=
  .next (finish (s.begin.onPack port (fun s => s.packGone port)))

/-! ### Authentication (R378, R379) -/

/-- Authentication passed: bit 0 clears; a pack that was being authenticated is judged. -/
def State.authPass (s : State) (p : Nat) : State :=
  let s := s.setPack p { s.pack p with authOk := true, attempts := 0, dailyFails := 0, challenge := none }
  let s := ((s.wr (R.PK_AUTH_STATE p) 1).wr (R.PK_AUTH_RUN p) 0).cond (s.rd (R.PK_STAT_STATE p) == pkAuth) (fun s =>
    (s.wr (R.PK_STAT_STATE p) pkUncounted).packEvent p 3)
  s.packJudge p

/-- Authentication failed for good: at the third failure. Three 24 h checks in a row that fail report the pack for
replacement (R395). -/
def State.authFail (s : State) (p : Nat) : State :=
  let k := s.pack p
  let n := if k.daily then k.dailyFails + 1 else k.dailyFails
  let s := s.setPack p { k with authOk := false, attempts := 0, dailyFails := n, challenge := none }
  let s := (((s.wr (R.PK_AUTH_STATE p) 2).wr (R.PK_AUTH_RUN p) 0).detect 144 p).packEvent p 4
  let s := s.cond (s.rd (R.PK_STAT_STATE p) == pkAuth) (fun s => s.wr (R.PK_STAT_STATE p) pkUncounted)
  (s.packJudge p).cond (decide (3 ≤ n)) (fun s => s.replacePack p)

/-- The answer that the pack at a port owes to a challenge: message and port byte of R378. -/
def State.expectedMac (s : State) (p challenge : Nat) : Nat :=
  (Config.packMac challenge (s.rd (R.PK_SERIAL p)) (0x41 + p)).toNat

/-- The pack's response, or none within 100 ms (R378). -/
def State.authResponse (s : State) (p : Nat) (answer : Option Nat) : State :=
  let k := s.pack p
  if k.challenge.isNone ∨ s.rd (R.PK_STAT_STATE p) < pkAuth then s
  else if answer.isSome ∧ answer = k.challenge.map (s.expectedMac p) then s.authPass p
  else
    let s := s.inc (R.PK_AUTH_FAILS p)
    if 3 ≤ k.attempts + 1 then s.authFail p
    else s.setPack p { k with challenge := none, attempts := k.attempts + 1 }

def execAuthResponse (port : Nat) (answer : Option Nat) (s : State) : Host.Outcome State Fault Refusal :=
  .next (finish (s.begin.onPack port (fun s => s.authResponse port answer)))

/-- 1 s after a failure, a fresh challenge. -/
def State.authRetry (s : State) (p : Nat) : State :=
  let k := s.pack p
  s.cond (k.challenge.isNone && k.attempts != 0 && s.rd (R.PK_AUTH_STATE p) == 3) (fun s => s.sendChallenge p)

def execAuthRetry (port : Nat) (s : State) : Host.Outcome State Fault Refusal :=
  .next (finish (s.begin.onPack port (fun s => s.authRetry port)))

/-- R378: authentication of an identified pack, at 24 h or by `AUTH.RUN`. -/
def State.authRun (s : State) (who : Requester) (p : Nat) (daily : Bool) : State :=
  let run := fun (s : State) => s.cond (s.identified p && s.rd (R.PK_AUTH_STATE p) != 3 && !s.bit (R.PK_STAT_UNCOUNT p) 4)
    (fun s => s.startAuth p daily)
  if daily then run s
  else s.command (.authRun who p daily) (s.admission who (0xA9 + p)) (0xA9 + p) (fun s =>
    let s := run s
    s.wr (R.PK_AUTH_RUN p) (b2n ((s.pack p).challenge.isSome || (s.pack p).authDeferred)))

def execAuthRun (who : Requester) (port : Nat) (daily : Bool) (s : State) : Host.Outcome State Fault Refusal :=
  .next (finish (s.begin.onPack port (fun s => s.authRun who port daily)))

def execAuthOverrideWrite (who : Requester) (port value : Nat) (s : State) : Host.Outcome State Fault Refusal :=
  .next (finish (s.begin.onPack port (fun s => s.under (s.admission who (0xA9 + port)) (0xA9 + port) (fun s =>
    (s.wr (R.PK_AUTH_OVERRIDE port) (value % 2)).packJudge port))))

/-! ### Rest, disagreement, learning (R381 to R385) -/

/-- A capacity learnt from a discharge between two narrow intervals (R385). -/
def State.learnCap (s : State) (p mid : Nat) : State :=
  let k := s.pack p
  let cap := s.rd (R.PK_CAP p)
  match k.learnMid with
  | none => s
  | some m =>
    if m ≤ mid ∨ 5 * (m - mid) < cap then s
    else
      let measured := k.learnDrawn * cap / (m - mid)
      let new := clampTo (cap * 95 / 100) (cap * 105 / 100) ((3 * cap + measured) / 4)
      let s := ((s.wr (R.PK_CAP p) (min 0xFFFFFF new)).inc (R.PK_LEARN_COUNT p)).wr (R.PK_LEARN_CAP_PERMILLE p)
        (min 65535 (1000 * new / max 1 (s.ratedCt p)))
      s.cond (decide (100 * new < clampTo 50 95 (s.rd R.GAU_CTRL_REPLACE_PCT) * s.ratedCt p)) (fun s => s.replacePack p)

/-- The pack is at rest with the interval of its open-circuit voltage: a narrow one corrects Q_cc and U (R381), may end or begin a
discharge to learn from, and ends a disagreement (R384). -/
def State.atRest (s : State) (p lo hi : Nat) : State :=
  if s.identified p = false ∨ s.bit (R.PK_STAT_UNCOUNT p) 4 then s
  else
    let cap := s.rd (R.PK_CAP p)
    let before := s.qBest p - s.rd (R.PK_UNC p)
    let v := s.curve p lo hi
    let lo := v.1
    let hi := v.2
    let s := ((s.wr (R.PK_STAT_AT_REST p) 1).wr (R.PK_Q_VHI p) (min hi 0xFFFFFF)).setPack p
      { s.pack p with vLo := lo, haveV := true }
    let s := s.cond (s.pack p).firstV (fun s =>
      ((s.wr (R.PK_Q_CC p) (min lo cap)).wr (R.PK_UNC p) (2 * cap / 100)).setPack p { s.pack p with firstV := false })
    if 50 * (hi - lo) < cap then
      let mid := (lo + hi) / 2
      let s := s.learnCap p mid
      let s := (s.wr (R.PK_Q_CC p) (min mid (s.rd (R.PK_CAP p)))).wr (R.PK_UNC p) (s.rd (R.PK_CAP p) / 100)
      let s := s.setPack p { s.pack p with
        learnMid := some mid, learnDrawn := 0, restAt := s.opsec, widenAt := 0, relearn := false, remU := 0, disagree := false }
      (((s.showDisagree).ramp p before).packHours).gaugeShow
    else s.gaugeShow

def execPackAtRest (port lo hi : Nat) (s : State) : Host.Outcome State Fault Refusal :=
  .next (finish (s.begin.onPack port (fun s => s.atRest port lo hi)))

/-- A relearn is scheduled: the rest-correction clock of a pack stands at 72 h (R384). -/
def State.schedule (s : State) (p : Nat) : State := s.setPack p { s.pack p with relearn := true }

/-- R384: Q_cc has lain more than 3 % of CAP outside the interval for 60 s. -/
def State.disagree (s : State) (p : Nat) : State :=
  let q := s.rd (R.PK_Q_CC p)
  let far := max ((s.pack p).vLo - q) (q - s.rd (R.PK_Q_VHI p))
  if s.identified p ∧ (s.pack p).haveV ∧ 3 * s.rd (R.PK_CAP p) < 100 * far then
    let s := ((s.wr R.GAU_DISAGREE_CT (max far (s.rd R.GAU_DISAGREE_CT))).setPack p { s.pack p with disagree := true }).showDisagree
    ((((s.detect 138 0).inc R.GAU_RELEARNS).schedule p).packHours).gaugeShow
  else s

def execGaugeDisagree (port : Nat) (s : State) : Host.Outcome State Fault Refusal :=
  .next (finish (s.begin.onPack port (fun s => s.disagree port)))

def execRelearn (who : Requester) (s : State) : Host.Outcome State Fault Refusal :=
  .next (finish (s.begin.command (.relearn who) (s.begin.admission who 0xA8) 0xA8 (fun s =>
    ((s.packs.foldl State.schedule s).inc R.GAU_RELEARNS).packHours)))

/-- R383: 72 h without a rest correction: a rest window, at most once per 24 h, or a wider uncertainty at each 24 h. -/
def State.noRest (s : State) (p : Nat) : State :=
  let k := s.pack p
  let due := k.relearn || decide (k.restAt + 259200 ≤ s.opsec)
  if s.identified p = false ∨ due = false then s
  else if s.flag R.GAU_CTRL_REST_PERMIT then
    let last := max s.packA.windowAt s.packB.windowAt
    if (last ≠ 0 ∧ s.opsec + 1 < last + 86400) ∨ s.testBar ∨ s.flag R.PHS_STAT_EW ∨
        s.flag R.GAU_REST_WINDOW ∨ s.packA.test ≠ 0 ∨ s.packB.test ≠ 0 then s
    else
      let s := (s.setPack p { k with windowAt := s.opsec + 1 }).wr R.GAU_REST_WINDOW 1
      ((s.chargeCheck 0).chargeCheck 1).restCease
  else if k.widenAt ≠ 0 ∧ s.opsec + 1 < k.widenAt + 86400 then s
  else
    let cap := s.rd (R.PK_CAP p)
    let u := s.rd (R.PK_UNC p)
    let s := s.setPack p { k with widenAt := s.opsec + 1 }
    (((s.wr (R.PK_UNC p) (max u (min (cap / 5) (u + cap / 400)))).detect 140 0)).gaugeShow

def execNoRest72h (port : Nat) (s : State) : Host.Outcome State Fault Refusal :=
  .next (finish (s.begin.onPack port (fun s => s.noRest port)))

/-- R383: a rest window ends; chargers resume. -/
def execRestWindowEnd (s : State) : Host.Outcome State Fault Refusal :=
  .next (finish (s.begin.cond (s.flag R.GAU_REST_WINDOW) (fun s => ((s.endRest).chargeCheck 0).chargeCheck 1)))

/-! ### Tests (R390 to R392, R396) -/

/-- A test of kind `k` starts with its allotment: the pack goes onto the hold-up bus at pu 384 of a half-cycle (R390); none starts
while the controller is Primed, a kiln runs or a rest window is open. -/
def State.startTest (s : State) (p k ct : Nat) : State :=
  if s.testBar ∨ s.flag R.GAU_REST_WINDOW ∨ (s.pack p).test ≠ 0 ∨ s.power.mainGood = false ∨ s.pu ≠ 384 then s
  else (s.setPack p { s.pack p with test := k, pathOn := true }).armCdl (testSlot p) (s.rd R.PHS_CT_DRAWN + ct)

/-- The switchover test of a port: of an identified pack, and on the variant without a gauge of pack port A (R396). -/
def State.switchTest (s : State) (p : Nat) : State :=
  s.cond ((s.packs.contains p && s.identified p) || (!s.variant.gauge && p == 0)) (fun s => s.startTest p 1 50)

def execSwitchoverTest (port : Nat) (s : State) : Host.Outcome State Fault Refusal := .next (finish (s.begin.switchTest port))

def execPulseTest (port : Nat) (s : State) : Host.Outcome State Fault Refusal :=
  .next (finish (s.begin.onPack port (fun s => s.cond (s.identified port) (fun s => s.startTest port 2 200))))

/-- The result of a switchover test: confirmed within 50 µs or failed (Table 13-5, R396). -/
def State.switchResult (s : State) (p us : Nat) : State :=
  let ok := us != 0 && decide (us ≤ 50)
  let s := (s.wr (R.PK_TESTS_SW_US p) (min 255 us)).wr (R.PK_TESTS_SW_OK p) (b2n ok)
  let s := s.setPack p { s.pack p with swDone := (s.pack p).swDone || ok, swAt := if ok then s.opsec + 1 else (s.pack p).swAt }
  let s := s.cond (!ok || s.condAny 147) (fun s => s.setCond 147 p (!ok))
  if s.variant.gauge then s.uncount p 2 (!ok) else s

/-- The pack is of high impedance, or no longer (R390). -/
def State.highZ (s : State) (p : Nat) (on : Bool) : State :=
  let k := s.pack p
  let s := s.setPack p { k with highZAt := if on then (if k.highZAt = 0 then s.opsec + 1 else k.highZAt) else 0 }
  (s.cond (on || s.condAny 146) (fun s => s.setCond 146 p on)).uncount p 1 on

/-- The result of a pulse test: inconclusive below 5 A; else the checks of Table 13-5. The first eight conclusive pulses at 15 to
35 °C give the baseline. -/
def State.pulseResult (s : State) (p ma ri vFloor : Nat) : State :=
  let k := s.pack p
  if ma < 5000 then s.cond (decide (k.pulseAt + 3600 ≤ s.opsec + 1)) (fun s => s.highZ p true)
  else
    let base := s.rd (R.PK_RES_BASE p)
    let n := s.cells p
    let cut := if s.chem p = 2 then 3000 else 2500
    let sag := ceilDiv (s.rd R.BUD_I_KILN_CT_PER_S * ri) 1000
    let ok := (base == 0 || decide (ri ≤ 2 * base)) && decide (n * cut + sag ≤ n * vFloor)
    let mild := fun (v : Nat) => decide (15 ≤ v) && decide (v ≤ 35)
    let s := s.setPack p { k with pulseAt := s.opsec + 1 }
    let s := s.cond (base == 0 && mild (s.rd (R.PK_TEMP_NTC0 p)) && mild (s.rd (R.PK_TEMP_NTC1 p))) (fun s =>
      let l := (s.pack p).basePulses ++ [ri]
      if l.length < 8 then s.setPack p { s.pack p with basePulses := l }
      else (s.setPack p { s.pack p with basePulses := [] }).wr (R.PK_RES_BASE p) (min 65535 (l.sum / 8)))
    (s.cond ok (fun s => s.inc (R.PK_TESTS_PULSES p))).highZ p (!ok)

/-- A test ends, or its slot has fired: the pack leaves the bus and its result counts; after a test discharge it rests for
`REST_MIN` (R390, R391). -/
def State.testDone (s : State) (p us ma ri vFloor : Nat) : State :=
  let off := fun (s : State) =>
    ((s.setPack p { s.pack p with test := 0, pathOn := false }).wr (R.PK_TEST_DISCHARGE p) 0).disarmCdl (testSlot p)
  match (s.pack p).test with
  | 1 => (off s).switchResult p us
  | 2 => (off s).pulseResult p ma ri vFloor
  | 3 =>
    let upTo := clampTo (s.floorPct + 5) 90 (s.rd (R.PK_TEST_TO_PCT p))
    s.cond (decide (s.rd (R.PK_SOC_RAW p) ≤ 100 * upTo)) (fun s =>
      off (s.setPack p { s.pack p with restUntil := s.opsec + 60 * s.restMin }))
  | _ => s

def execPackTestDone (port us ma ri vFloor : Nat) (s : State) : Host.Outcome State Fault Refusal :=
  .next (finish (s.begin.cond (decide (port < 2)) (fun s => s.testDone port us ma ri vFloor)))

/-- R391: a test discharge, while the other port holds a Counted pack or `SOLO` = 1. -/
def State.dischargeTest (s : State) (p : Nat) : State :=
  if (s.rd (R.PK_STAT_STATE (1 - p)) = pkCounted ∨ s.flag (R.PK_TEST_SOLO p)) ∧ s.identified p ∧ s.testBar = false ∧
      s.flag R.GAU_REST_WINDOW = false ∧ (s.pack p).test = 0 then
    ((s.setPack p { s.pack p with test := 3, pathOn := true }).wr (R.PK_TEST_DISCHARGE p) 1).chargeCheck 0 |>.chargeCheck 1 |>.restCease
  else s.reject (0xA9 + p)

def execTestDischarge (who : Requester) (port : Nat) (s : State) : Host.Outcome State Fault Refusal :=
  .next (finish (s.begin.onPack port (fun s => s.command (.testDischarge who port) (s.admission who (0xA9 + port)) (0xA9 + port) (fun s => s.dischargeTest port))))

/-! ### Charger supervision (R394) -/

def execCellOvervoltage (port : Nat) (s : State) : Host.Outcome State Fault Refusal :=
  .next (finish (s.begin.onPack port (fun s => s.cond (s.cellHigh port) (fun s => (s.chargeStop port).detect 149 port))))

/-- A charger fault: too little current while charging below 90 %, or current returned while disabled; charging stays off until
`CHG_EN` is written again. -/
def State.chargerFault (s : State) (p kind : Nat) : State :=
  let hit := if kind = 0 then s.flag (R.PK_STAT_CHARGING p) && decide (s.rd (R.PK_SOC_RAW p) < 9000)
    else !s.flag (R.PK_STAT_CHARGING p)
  s.cond hit (fun s => ((s.setPack p { s.pack p with chgLatched := true }).chargeStop p).detect 149 p)

def execChargerFaultTimeout (port kind : Nat) (s : State) : Host.Outcome State Fault Refusal :=
  .next (finish (s.begin.onPack port (fun s => s.chargerFault port kind)))

end Sys2Proof.Machine
end

