-- ==== Sys2Proof/Machine/Sequencer.lean ====
section
/-!
DEFINITION. Machine/Sequencer.lean: the power sequencer, margining and the push-button (chapter 14). The step engine itself is in
SeqOps.
-/

namespace Sys2Proof.Machine

open Sys2Proof

/-! ### Programs (R407 to R416) -/

/-- R410: SAFETY starts the program whose moment has come; `crcOk` is the outcome of its check before the run (R422). -/
def State.programStart (s : State) (n : Nat) (crcOk : Bool) : State :=
  if s.seq.prog.isNone ∧ s.seq.due.head? = some n then (s.seqBegin n crcOk).seqSettle else s

def execSeqProgramStart (n : Nat) (crcOk : Bool) (s : State) : Host.Outcome State Fault Refusal :=
  .next (finish (s.begin.programStart n crcOk))

/-- R407, R409, R411: a wait in µs, in hc (once its boundaries have passed), in ct by time, or the gap of the derived power-down
is over. A `WAIT_CT` on charge ends when `CDL4` fires (R46). -/
def State.waitDone (s : State) : State :=
  match s.seq.wait with
  | .time => s.seqGo.seqSettle
  | .gap => s.seqGo.seqSettle
  | .hc t => if t ≤ s.hc then s.seqGo.seqSettle else s
  | .more => (({ s with seq := { s.seq with wait := .none } }).seqRun seqFuel).seqSettle
  | .none => s
  | .ct => s
  | .up _ => s
  | .down _ => s
  | .sync _ _ => s
  | .shed _ => s

def execSeqWaitDone (s : State) : Host.Outcome State Fault Refusal := .next (finish s.begin.waitDone)

/-- R407: every rail that the check names has reached the goal. -/
def State.checkDone (s : State) : State :=
  match s.seq.wait with
  | .up r => if s.allGood r then ((s.wr R.SEQ_STAT_CHECK_FAILED 0).seqGo).seqSettle else s
  | .down r => if s.allDown r then ((s.wr R.SEQ_STAT_CHECK_FAILED 0).seqGo).seqSettle else s
  | .none => s
  | .time => s
  | .hc _ => s
  | .ct => s
  | .sync _ _ => s
  | .shed _ => s
  | .gap => s
  | .more => s

def execSeqCheckDone (s : State) : Host.Outcome State Fault Refusal := .next (finish s.begin.checkDone)

/-- R412, Table 14-7: the timeout of a check passes with a rail not there. -/
def State.checkTimeout (s : State) : State :=
  match s.seq.wait with
  | .up r => if s.allGood r then s else (((s.checkFailed r true).afterFail true).seqRun seqFuel).seqSettle
  | .down r => if s.allDown r then s else ((s.checkFailed r false).seqGo).seqSettle
  | .none => s
  | .time => s
  | .hc _ => s
  | .ct => s
  | .sync _ _ => s
  | .shed _ => s
  | .gap => s
  | .more => s

def execSeqCheckTimeout (s : State) : Host.Outcome State Fault Refusal := .next (finish s.begin.checkTimeout)

/-- R416: the line has been high for 2 µs. -/
def State.syncAdvance (s : State) : State :=
  match s.seq.wait with
  | .sync _ n => ((s.wr R.SEQ_SYNC_STATE n).seqGo).seqSettle
  | .none => s
  | .time => s
  | .hc _ => s
  | .ct => s
  | .up _ => s
  | .down _ => s
  | .shed _ => s
  | .gap => s
  | .more => s

def execSyncAdvance (s : State) : Host.Outcome State Fault Refusal := .next (finish s.begin.syncAdvance)

/-- R416: the timeout passes: the program fails, or goes on alone for the rest of the run. -/
def State.syncTimeout (s : State) : State :=
  match s.seq.wait with
  | .sync fails _ =>
    let s := (s.inc R.SEQ_SYNC_TIMEOUTS).detect 129 0
    if fails then (s.seqStop true).seqSettle
    else ({ s with seq := { s.seq with solo := true } }).seqGo.seqSettle
  | .none => s
  | .time => s
  | .hc _ => s
  | .ct => s
  | .up _ => s
  | .down _ => s
  | .shed _ => s
  | .gap => s
  | .more => s

def execSyncTimeout (s : State) : Host.Outcome State Fault Refusal := .next (finish s.begin.syncTimeout)

/-- R408: a program other than `KILN_SHED` has run for 60 s; it continues. -/
def execProgramOverrun (s : State) : Host.Outcome State Fault Refusal :=
  .next (finish (s.begin.cond (s.seq.prog.isSome && s.seq.prog != some 2) (fun s => s.detect 127 0)))

/-! ### Input collapse (R415) -/

/-- The running program abandoned with nothing following from its end. -/
def State.seqDrop (s : State) : State :=
  let s := s.seqAbandon
  { s with seq := { s.seq with ended := none } }

/-- R415: outside a kiln `MAIN_IN` has stayed below `COLLAPSE.MV` for 2 µs: enables 0 to 39 outside `KILN_EN` are released. -/
def State.inputCollapse (s : State) : State :=
  if s.inKiln ∨ s.paged = false then s
  else
    let s := s.seqDrop
    let keep := s.rd R.SEQ_KILN_EN &&& mainMask
    let s := ((s.clrEnables (mainMask ^^^ keep)).inc R.SEQ_COLLAPSE_COUNT).detect 130 0
    { s with seq := { s.seq with collapsed := true }, power := { s.power with mainGood := false } }

def execInputCollapse (s : State) : Host.Outcome State Fault Refusal := .next (finish s.begin.inputCollapse)

/-- Enables 0 to 39 cleared in reverse order of the rise list, then both pack paths opened, and the device Off (R421). -/
def State.cutOff (s : State) : State :=
  let s := s.seqDrop
  let s := { s with seq := { s.seq with due := [] } }
  let s := s.seq.rise.reverse.foldl (fun (s : State) (e : RiseEntry) => s.clrEnables e.ens) s
  (s.clrEnables mainMask).enterP4

/-- R415: no kiln has started within 1 ms of a collapse. -/
def State.collapseOver (s : State) : State :=
  if s.seq.collapsed = false then s
  else
    let s := { s with seq := { s.seq with collapsed := false } }
    s.cond (!s.inKiln) State.cutOff

def execCollapseNoKilnTimeout (s : State) : Host.Outcome State Fault Refusal := .next (finish s.begin.collapseOver)

/-! ### Margins and counters (R402, R406, R417) -/

/-- A rail's trim may be driven: it has one, and the gauge does not own it (R402). -/
def State.mayMargin (s : State) (i : Nat) : Bool :=
  s.flag (R.SEQ_RAIL_CFG_TRIM_USED i) && !s.bit R.SEQ_TRIM_OWNER (s.rd (R.SEQ_RAIL_CFG_TRIM i))

/-- R417: `RAIL_MARGIN.PCT10` of the rail selected takes a value from -50 to 50 under maintenance access. -/
def State.marginWrite (s : State) (v : Nat) : State :=
  let m := ofField 7 (v % 128)
  let i := s.rd R.SEQ_RAIL_SEL
  if s.maint.isOpen ∧ -50 ≤ m ∧ m ≤ 50 ∧ s.mayMargin i then s.wr (R.SEQ_RAIL_MARGIN_PCT10 i) (v % 128) else s.reject 0xA0

def execRailMarginWrite (who : Requester) (pct10 : Nat) (s : State) : Host.Outcome State Fault Refusal :=
  .next (finish (s.begin.command (.railMarginWrite who pct10) (s.admission who 0xA0) 0xA0 (fun s => s.marginWrite pct10)))

/-- One step of at most 0.5 % of nominal toward the target (R417). -/
def stepToward (now target : Int) : Int :=
  if now + 5 < target then now + 5 else if target < now - 5 then now - 5 else target

/-- R417: at pu 384 every margin moves one step. -/
def State.marginStep (s : State) : State :=
  (s.each 32 (fun s i => s.cond (s.mayMargin i || s.rd (R.SEQ_RAIL_MARGIN_ACT10 i) != 0) (fun s =>
    s.wr (R.SEQ_RAIL_MARGIN_ACT10 i) (toField 8 (stepToward (s.marginNow i) (ofField 7 (s.rd (R.SEQ_RAIL_MARGIN_PCT10 i)))))))).showMargins

def execMarginStep (s : State) : Host.Outcome State Fault Refusal :=
  .next (finish (s.begin.cond (s.paged && !s.kiln.since && s.pu == 384) State.marginStep))

/-- The six counters of a rail at 0. -/
def State.clearRail (s : State) (i : Nat) : State := s.each 6 (fun s k => s.wr (railCounter i k) 0)

/-- R406: `CNT_CLEAR` works under maintenance access. -/
def State.clearCounts (s : State) (f : State → State) : State := if s.maint.isOpen then f s else s.reject 0xA0

def execCntClearRail (who : Requester) (s : State) : Host.Outcome State Fault Refusal :=
  .next (finish (s.begin.command (.cntClearRail who) (s.admission who 0xA0) 0xA0 (fun s => s.clearCounts (fun s => s.clearRail (s.rd R.SEQ_RAIL_SEL)))))

def execCntClearAll (who : Requester) (s : State) : Host.Outcome State Fault Refusal :=
  .next (finish (s.begin.command (.cntClearAll who) (s.admission who 0xA0) 0xA0 (fun s => s.clearCounts (fun s => s.each 32 State.clearRail))))

/-- R406: the hourly copy; none from K0 to the next start, nor while `POWER_DOWN` runs. -/
def execRailCounterSave (s : State) : Host.Outcome State Fault Refusal :=
  .next (finish (s.begin.cond (s.paged && !s.kiln.since && s.seq.prog != some 1) State.saveRails))

/-! ### The program window (R423) -/

/-- `ADDR` one on, wrapping at 1,023. -/
def State.sqpNext (s : State) : State := s.wr R.SQP_ADDR (s.rd R.SQP_ADDR + 1)

/-- R423: an access to `SQP.DATA`: a read answers the staged step at `ADDR`, a write stages one; both advance `ADDR`. -/
def State.sqpData (s : State) (who : Requester) (write : Option Nat) : State :=
  match write with
  | none =>
    if s.mayRead who 0xA1 then (s.giveReg who (s.seq.staged.get (s.rd R.SQP_ADDR))).sqpNext
    else s.cond (s.answers who) (fun s => s.giveReg who 0)
  | some w =>
    s.under (s.admission who 0xA1) 0xA1 (fun s =>
      if s.flag (R.COMMIT_PENDING 0xA1) && s.seq.staged.get (s.rd R.SQP_ADDR) != w % 2 ^ 32 then s.reject 0xA1
      else ({ s with seq := { s.seq with staged := s.seq.staged.set (s.rd R.SQP_ADDR) (w % 2 ^ 32) } }).sqpNext)

def execSqpDataAccess (who : Requester) (write : Option Nat) (s : State) : Host.Outcome State Fault Refusal :=
  .next (finish (s.begin.sqpData who write))

/-! ### The push-button (R419 to R421) -/

/-- A press class in the trouble log: 0 short, 1 from 1 s, 2 at 4 s, 3 at 12 s (R420; assumption 7). -/
def State.pressLog (s : State) (k : Nat) : State := s.tlog 0x010B k

/-- `MR_N` wakes the device where `MAIN_IN` is good: from P3 (source 1), or from Off (Table 14-9, R433). After a force off only a
press under 1 s does (R421). -/
def State.pressWake (s : State) (short : Bool) : State :=
  match s.power.life with
  | .dormant => s.wake 1
  | .off =>
    if s.power.mainGood ∧ (s.seq.forcedOff = false ∨ short) then
      (({ s with seq := { s.seq with forcedOff := false } }).wr R.SNT_LAST_WAKE_SOURCE 1).startBegin s.power.cause
    else s
  | .starting => s
  | .running => s
  | .failed => s
  | .recovery => s
  | .goingDown => s

/-- The device is in P3 or P4. -/
def State.asleep (s : State) : Bool := !s.paged

/-- R419: `MR_N` is released after a press of `ms`; the points at 4 s and 12 s have had their effect already. -/
def State.pressEnd (s : State) (ms : Nat) : State :=
  let was4 := s.seq.held4
  let s := { s with seq := { s.seq with press := false, held4 := false, held12 := false } }
  let s := s.wr R.SEQ_MRN_LEVEL 1
  if was4 ∨ 4000 ≤ ms then s
  else if ms < 1000 then
    let s := (s.inc R.SEQ_MRN_SHORT).pressLog 0
    if s.asleep then s.pressWake true else s.vendor 0 6 [6]
  else
    let s := s.pressLog 1
    if s.asleep then s.pressWake false else s.notice 0xA0

def execMrNPressRelease (ms : Nat) (s : State) : Host.Outcome State Fault Refusal := .next (finish (s.begin.pressEnd ms))

/-- R419, Table 14-9: the press reaches 4 s: kiln trigger 5 where enabled and the kiln is Ready or Primed, ignored in a kiln, a
warning otherwise; no action in P3 or P4. -/
def State.press4 (s : State) : State :=
  if s.seq.held4 then s
  else
    let s := { s with seq := { s.seq with press := true, held4 := true } }
    let s := ((s.wr R.SEQ_MRN_LEVEL 0).inc R.SEQ_MRN_HOLD4).pressLog 2
    if s.asleep then s
    else if s.inKiln then s.inc R.KLN_IGNORED
    else if s.flag R.KLN_TRIG_MRN_EN ∧ s.kilnLive then s.fireTrigger 5 false false
    else s.warning 0xA0

def execMrNHold4s (s : State) : Host.Outcome State Fault Refusal := .next (finish s.begin.press4)

/-- R421: the press reaches 12 s: force off. A kiln before its seal point ends unsealed (R254). -/
def State.forceOff (s : State) : State :=
  if s.seq.held12 then s
  else
    let s := { s with seq := { s.seq with press := true, held4 := true, held12 := true } }
    let s := ((s.wr R.SEQ_MRN_LEVEL 0).inc R.SEQ_MRN_HOLD12).pressLog 3
    let s := s.detect 131 0
    let s := { s with kiln := { s.kiln with unsealed := s.kiln.unsealed || (s.inKiln && !s.kiln.sealed) } }
    let s := { s with seq := { s.seq with forcedOff := true, collapsed := false, due := [] } }
    if s.asleep then
      let s := s.openPaths
      { s with power := { s.power with life := .off } }.wr R.PWR_STAT_STATE 4
    else s.cutOff

def execForceOff (s : State) : Host.Outcome State Fault Refusal := .next (finish s.begin.forceOff)

end Sys2Proof.Machine
end

