-- ==== Sys2Proof/Machine/PowerStates.lean ====
section
/-!
DEFINITION. Machine/PowerStates.lean: rest states, wakes, failed starts, the Sentinel's controls and its supply (chapter 15, R24,
R25).
-/

namespace Sys2Proof.Machine

open Sys2Proof

/-! ### Rest (R429 to R432) -/

/-- R429: the dwells of P1 and P2, as told, are met: the deepest rest that qualifies. -/
def State.restSelect (s : State) (p1 p2 : Bool) : State :=
  let st := s.rd R.PWR_STAT_STATE
  let s := { s with power := { s.power with quiet := if p2 then 2 else if p1 then 1 else 0 } }.showRest
  if s.power.life ≠ Life.running ∨ 2 ≤ st ∨ s.power.leaving ≠ 0 then s
  else if s.restBlock 2 = 0 then s.restEnter 2
  else if st = 0 ∧ s.restBlock 1 = 0 then s.restEnter 1
  else s

def execRestDwellMet (p1 p2 : Bool) (s : State) : Host.Outcome State Fault Refusal :=
  .next (finish (s.begin.restSelect p1 p2))

def execRestExitEvent (s : State) : Host.Outcome State Fault Refusal := .next (finish (s.begin.noQuiet.restExit))

/-- R431, R430: the exit completes after `us`; from P2 `REST_EXIT` has ended and the ranks leave self-refresh. -/
def State.restLeft (s : State) (us : Nat) : State :=
  let n := s.power.leaving
  if n = 0 ∨ s.restRuns then s
  else
    let s := { s with power := { s.power with leaving := 0 } }
    let s := s.cond (n == 2) State.ranksActive
    let s := if n = 1 then s.wr R.PWR_EXIT_P1_MAX_US (max (s.rd R.PWR_EXIT_P1_MAX_US) (min us 255))
      else s.wr R.PWR_EXIT_P2_MAX_US (max (s.rd R.PWR_EXIT_P2_MAX_US) (min us 65535))
    s.cond (decide ((if n = 1 then 20 else 2000) < us)) (fun s => s.detect 239 0)

def execRestExitDone (us : Nat) (s : State) : Host.Outcome State Fault Refusal := .next (finish (s.begin.restLeft us))

/-- R432: the patrol would fall behind. -/
def State.patrolBehind (s : State) : State :=
  if s.rd R.PWR_STAT_STATE = 2 then
    ({ s.restExit with power := { s.restExit.power with catchup := true } }).detect 241 0
  else s

def execPatrolCatchup (s : State) : Host.Outcome State Fault Refusal := .next (finish s.begin.patrolBehind)

/-! ### Wakes (R433) -/

/-- R433: a rising edge of a port's `PERST_N`. -/
def State.perstRise (s : State) (p : Nat) : State :=
  if s.hasPort p then
    let s := s.setHost p { s.host p with perstN := true }
    s.cond (s.flag R.SNT_WAKE_EN_PERST) (fun s => s.wake 3)
  else s

def execPerstWake (port : Nat) (s : State) : Host.Outcome State Fault Refusal := .next (finish (s.begin.perstRise port))

/-- R433: the island's clock has reached `WAKE_AT`. -/
def execTimerWake (s : State) : Host.Outcome State Fault Refusal :=
  .next (finish (s.begin.cond (s.flag R.SNT_WAKE_EN_TIMER && decide (s.rd R.SNT_WAKE_AT ≤ s.rd R.SNT_RTC % 2 ^ 32))
    (fun s => s.wake 4)))

/-- Table 15-2: `MAIN_IN` is lost in P3. -/
def execMainInLostP3 (s : State) : Host.Outcome State Fault Refusal :=
  .next (finish (s.begin.cond (decide (s.power.life = Life.dormant)) (fun s =>
    ({ s with power := { s.power with mainGood := false } }).enterP4)))

/-! ### Failed starts (R438 to R440) -/

/-- R438: 60 s from `MAIN_IN` stable, holds not counted, without B12: the start fails in the step that has run longest. -/
def execStartTimeout (s : State) : Host.Outcome State Fault Refusal :=
  .next (finish (s.begin.cond (decide (s.power.life = Life.starting) && s.rd R.STP_STAT_HOLD == 0) (fun s =>
    s.failStart (s.power.runSteps.headD 1) 242)))

/-- R438: 1 s after a failed start, where `MAIN_IN` is good and `POWER_DOWN` has ended (Table 14-7). -/
def execStartRetry (s : State) : Host.Outcome State Fault Refusal :=
  .next (finish (s.begin.cond (decide (s.power.life = Life.failed) && s.power.mainGood && s.seq.prog.isNone && !s.seq.due.contains 1)
    (fun s => s.startBegin 4)))

def execForceCold (who : Requester) (s : State) : Host.Outcome State Fault Refusal :=
  .next (finish (s.begin.under (s.admission who 0xE0) 0xE0 (fun s => s.wr R.SNT_CTRL_FORCE_COLD 1)))

/-- A Sentinel control that acts only while maintenance access is open (chapter 15, the SNT page). -/
def State.sntMaint (s : State) (who : Requester) (f : State → State) : State :=
  s.under (s.admission who 0xE0) 0xE0 (fun s => if s.maint.isOpen then f s else s.reject 0xE0)

/-- The counts of consecutive failed starts at 0 (R439). -/
def State.clearFails (s : State) : State := (s.wr R.SNT_FAILS_WARM 0).wr R.SNT_FAILS_COLD 0

def execClearFails (who : Requester) (s : State) : Host.Outcome State Fault Refusal :=
  .next (finish (s.begin.sntMaint who State.clearFails))

/-- R440: ROM recovery is left by a cold start with cleared counts. -/
def State.leaveRecovery (s : State) : State :=
  if s.flag R.SNT_FAILS_RECOVERY then
    let s := ((s.clearFails).wr R.SNT_FAILS_RECOVERY 0).wr R.SNT_CTRL_FORCE_COLD 1
    if s.power.life = Life.recovery then
      ({ s with safe := { s.safe with errnStart := false } }).startBegin s.power.cause
    else s
  else s

def execClearRecovery (who : Requester) (s : State) : Host.Outcome State Fault Refusal :=
  .next (finish (s.begin.sntMaint who State.leaveRecovery))

/-! ### The island's supply (R24, R25) -/

/-- The variant has a source of the island's supply (R1, R24). -/
def hasSource (v : Variant) (src : Nat) : Bool :=
  decide (src ≤ 1) || (src == 2 && v.gauge) || (decide (3 ≤ src) && decide (src ≤ 6) && v.fabric)

/-- R24: a source appears or disappears; the island runs from the first present in the order of the source numbers. -/
def State.supplyChange (s : State) (src : Nat) (on : Bool) : State :=
  if hasSource s.variant src = false ∨ s.power.sources.testBit src = on then s
  else
    let now := s.power.sources ^^^ 2 ^ src
    let s := { s with power := { s.power with sources := now } }
    let s := s.cond (src == 0) (fun s => s.wr R.SNT_ISLAND_AUX_OK (b2n on))
    match (List.range 7).find? (fun i => now.testBit i) with
    | none => s
    | some k =>
      if k = s.rd R.SNT_CTX_SUPPLY then s
      else
        let s := (s.wr R.SNT_CTX_SUPPLY k).inc R.SNT_CTX_SUPPLY_CHANGES
        (s.cond (decide (3 ≤ k)) (fun s => s.detect 247 0)).showFeeds

def execIslandSupplyChange (source : Nat) (present : Bool) (s : State) : Host.Outcome State Fault Refusal :=
  .next (finish (s.begin.supplyChange source present))

/-- Fields of `SNT` that code flash records besides the context: the failed-start counts and ROM recovery (R439, R440). -/
def State.sntRecorded (s : State) (old : State) : State :=
  ((s.wr R.SNT_FAILS_WARM (old.rd R.SNT_FAILS_WARM)).wr R.SNT_FAILS_COLD (old.rd R.SNT_FAILS_COLD)).wr R.SNT_FAILS_RECOVERY
    (old.rd R.SNT_FAILS_RECOVERY)

/-- R25, Table 15-7: the island has lost its context: clock, remembered number, warm data, the Sentinel copy of the program store,
and enables 40 to 47. Everything without power is off. -/
def State.islandOn (s : State) : State :=
  let old := s
  let s := { s with regs := s.regs.keep (fun k => keyPage k != 0xE0 || keyOff k < 0x040) }
  let s := s.sntRecorded old
  let s := (s.wr R.SNT_CTX_SUPPLY (old.rd R.SNT_CTX_SUPPLY)).wr R.SNT_ISLAND_AUX_OK (b2n (s.power.sources.testBit 0))
  let s := { s with fabric := { s.fabric with remembered := none, lastWake := 0 },
                    seq := { s.seq with stored := s.seq.stored / 2 * 2, due := [], press := false, held4 := false, held12 := false,
                                        forcedOff := false, collapsed := false } }
  let s := (s.seqDrop).wr R.SEQ_EN 0
  let s := { s with seq := { s.seq with rise := [], due := [] } }
  let s := { s with dram := { s.dram with mem := [] }, power := { s.power with ctxOk := false, mainGood := false } }
  let s := { s with kiln := { s.kiln with unsealed := s.kiln.unsealed || (s.inKiln && !s.kiln.sealed) } }
  let s := ((s.openPaths).coreOff).hrOff
  { s with power := { s.power with life := .off, cause := 5 } }
    |>.wr R.PWR_STAT_STATE 4 |>.wr R.KLN_STAT_STATE 0 |>.cond s.variant.fabric (fun s =>
      (s.wr R.DFS_FNN_STAT_FNN 0x1FFF).wr R.DFS_FNN_STAT_CLAIM 0)

def execIslandPowerOn (s : State) : Host.Outcome State Fault Refusal := .next (finish s.begin.islandOn)

end Sys2Proof.Machine
end

