-- ==== Sys2Proof/Machine/Reaction.lean ====
section
/-!
DEFINITION. Machine/Reaction.lean: the firmware side of the safety manager, its recovery, `ERR_N`, injection, processor failures
(chapter 16), and the comparator tests (R498, R499).
-/

namespace Sys2Proof.Machine

open Sys2Proof

/-! ### Processors -/

/-- The processor runs again on its last confirmed image; the condition of its failure ends (Tables 15-7 and 16-2). -/
def State.restartProc (s : State) (n : Nat) : State :=
  let s := match s.update.confirmed.find? (fun (i : Image) => i.typ == n) with
    | some i => s.wr (R.ID_FWVER n) i.version
    | none => s
  let s := s.unhalt n
  match n with
  | 5 => ((([183, 184, 189] : List Nat).foldl (fun s k => s.cond (s.condAny k) (fun s => s.setCond k 0 false)) s)).inc R.SAF_RESTARTS_SAFETY
  | 4 => (s.cond (s.condAny 185) (fun s => s.setCond 185 0 false)).inc R.SAF_RESTARTS_MGMT
  | 3 => s.inc R.SAF_RESTARTS_CELLAR
  | 2 => s.inc R.SAF_RESTARTS_FABRIC
  | _ => s

/-- The processor that a watchdog source names, and the source of each processor's watchdog (R465, Table 16-10). -/
def watchdogSrc (n : Nat) : Nat :=
  match n with
  | 5 => 184
  | 4 => 185
  | 3 => 186
  | 2 => 187
  | _ => 188

/-- A step of B5 to B11 runs (R438). -/
def State.lateStep (s : State) : Option Nat :=
  if s.power.life = Life.starting then s.power.runSteps.find? (fun k => decide (5 ≤ k) && decide (k ≤ 11)) else none

/-- R450: the SAFETY pair mismatches: it is reset, the ROM kiln guards, F183 (and F189 the second time within 1 h). -/
def State.lockstep (s : State) : State := if s.runs .safety then (s.halt 5).setCond 183 0 true else s

/-- R526: what a watchdog restart of MGMT does to an update: a code-flash operation is abandoned; a download goes back to the start
of its 64 KiB block, which is erased again when it comes; an activation fails. In Confirming the latch of F185 is a fallback
trigger (R523). -/
def State.updateCut (s : State) : State :=
  let s := s.flashAbandon
  let k := s.rd R.UPD_RECEIVED / 65536
  if s.rd R.UPD_STAT_STATE = 1 then
    ({ s with update := { s.update with erased := s.update.erased.erase1 k } }).wr R.UPD_RECEIVED (k * 65536)
  else s.cond (s.rd R.UPD_STAT_STATE == 4) State.handoverBack

/-- R465, R438: the watchdog of processor `n` of Table 01-5 (1 SENTINEL to 5 SAFETY) expires: it stops until its reaction has
restarted it; those of MGMT and SAFETY fail a start in B5 to B11. That of the processor in hand-over fails the hand-over (R522). -/
def State.watchdog (s : State) (n : Nat) : State :=
  if s.present n = false ∨ s.paged = false then s
  else if s.halted.contains n then s.cond (s.rd R.UPD_STAT_STATE == 4 && s.rd R.UPD_STAT_PROC == n) State.handoverBack
  else
    let src := watchdogSrc n
    let s := (s.halt n).cond (n == 4) State.updateCut
    let s := if n = 4 ∨ n = 5 then s.setCond src 0 true else s.detect src 0
    match s.lateStep with
    | some k => s.cond (n == 4 || n == 5) (fun s => s.failStart k src)
    | none => s

/-! ### The end of a reaction (R453, R458) -/

/-- The log of a fault-reaction record: Warning for SV2, Failure for SV3, Fatal with a planned kiln (Table 04-5). -/
def Report.log (r : Report) : Nat := if r.kiln then 3 else if r.sev = 3 then 2 else 1

/-- One latch reported: trouble log, vendor record 0x08 for an unmasked SV2 or SV3, alarm summary request (Table 16-4, R452). -/
def State.reportOne (s : State) (r : Report) : State :=
  let s := s.logReport r
  let s := s.cond (decide (2 ≤ r.sev) && !r.masked) (fun s => s.vendor r.log 8 [8, r.src, r.inst])
  s.alarmLatch r.src r.sev

/-- The processor restart that a source's reaction owes. -/
def State.restartOwed (s : State) (src : Nat) : State :=
  match [4, 3, 2, 1].find? (fun n => watchdogSrc n == src) with
  | some n => s.cond (s.halted.contains n) (fun s => s.restartProc n)
  | none => s

/-- The running firmware reaction ends; the pre-empted or pending one that is next runs (the end of the command starts it). While
SAFETY is stopped by a failure, the reaction that ends is its own restart (assumption 17). -/
def State.reactionDone (s : State) : State :=
  if s.runs .safety then
    match s.safe.stack with
    | [] => s
    | (src, _) :: t =>
      let mine := s.safe.reports.filter (fun (r : Report) => r.src == src)
      let s := { s with safe := { s.safe with stack := t, reports := s.safe.reports.filter (fun (r : Report) => r.src != src) } }
      (mine.foldl State.reportOne s).restartOwed src
  else if s.paged ∧ (s.condAny 183 ∨ s.condAny 184) then s.restartProc 5
  else s

/-! ### Recovery (R454, R460) -/

/-- The latch bits of a source cleared on every page and instance. -/
def State.clearLatches (s : State) (src : Nat) : State :=
  s.each (srcInstances src) (fun s i => s.setBit (R.FLT_STAT (srcPage src i)) (srcBit src) false)

/-- R460: `QUIET_LEFT` has reached 0: every active SV2 and SV3 source is released, and the manager is Normal. -/
def State.quietOver (s : State) : State :=
  if s.rd R.SAF_STAT_STATE ≠ 2 ∨ s.rd R.SAF_QUIET_LEFT ≠ 0 ∨ s.kiln.since then s
  else
    let gone := s.safe.active.filter (fun (a : ActiveSrc) => decide (2 ≤ a.sev))
    let s := gone.foldl (fun (s : State) (a : ActiveSrc) => s.clearLatches a.src) s
    let s := { s with safe := { s.safe with active := s.safe.active.filter (fun (a : ActiveSrc) => decide (a.sev < 2)),
                                            ovfLatched := false } }
    ((s.wr R.SAF_STAT_STATE 0).inc R.SAF_RECOVERIES).notice 0xC0

def execQuietExpired (s : State) : Host.Outcome State Fault Refusal := .next (finish s.begin.quietOver)

/-- R454: `QUIET_S` after its latch, an SV0 or SV1 event source is released. -/
def State.eventRelease (s : State) (src : Nat) : State :=
  { s with safe := { s.safe with active := s.safe.active.filter (fun (a : ActiveSrc) =>
      !(a.src == src && decide (a.sev < 2) && !condSrcs.contains src && !sticky a.act)) } }

def execEventSourceRelease (src : Nat) (s : State) : Host.Outcome State Fault Refusal :=
  .next (finish (s.begin.eventRelease src))

/-! ### ERR_N and the history (R457, R459) -/

/-- R459: one reading of the pin, every 1 ms: three in a row that differ from the level driven latch F194. -/
def State.errnRead (s : State) (low : Bool) : State :=
  let s := s.wr R.SAF_STAT_ERRN_PIN (b2n (!low))
  let run := if low = s.flag R.SAF_STAT_ERRN_DRIVE then 0 else s.safe.readbackRun + 1
  let s := { s with safe := { s.safe with readbackRun := run % 3, errnTest := s.safe.errnTest - 1 } }
  let s := s.cond (s.safe.errnTest == 0) (fun s => s.wr R.SAF_CTRL_ERRN_TEST 0)
  s.cond (run == 3) (fun s => s.detect 194 0)

def execErrnReadback (low : Bool) (s : State) : Host.Outcome State Fault Refusal :=
  .next (finish (s.begin.cond s.paged (fun s => s.errnRead low)))

/-- R459: `CTRL.ERRN_TEST` drives the pin for 10 ms, under maintenance access only. -/
def execErrnTest (who : Requester) (s : State) : Host.Outcome State Fault Refusal :=
  .next (finish (s.begin.command (.errnTest who) (s.admission who 0xC0) 0xC0 (fun s =>
    if s.maint.isOpen then { s with safe := { s.safe with errnTest := 10 } }.wr R.SAF_CTRL_ERRN_TEST 1 else s.reject 0xC0)))

/-- R457: the history and `FIRST` are emptied and armed again. -/
def State.rearm (s : State) : State := { s with safe := { s.safe with first := none, hist := [] } }.wr R.SAF_HIST_LOST 0

def execHistRearm (who : Requester) (s : State) : Host.Outcome State Fault Refusal :=
  .next (finish (s.begin.command (.histRearm who) (s.admission who 0xC0) 0xC0 State.rearm))

/-! ### Injection (R461) -/

/-- R461: an injection has seen no detection within its time. -/
def State.injectLate (s : State) (src inst : Nat) : State :=
  if s.injWaits src inst = false then s
  else
    let s := { s with safe := { s.safe with injWait := s.safe.injWait.filter (fun w => w != (src, inst)) } }
    let s := s.setBit (R.FLT_FORCE (srcPage src inst)) (srcBit src) false
    ((s.wr R.SAF_INJ_FAIL_SRC src).wr R.SAF_INJ_FAIL_INSTANCE inst).detect 193 0

def execInjectionTimeout (src inst : Nat) (s : State) : Host.Outcome State Fault Refusal :=
  .next (finish (s.begin.injectLate src inst))

/-! ### Comparators (R496 to R499) -/

/-- A slice's trip error, mV; none where it has not been measured (Table 18-5). -/
def State.tripErr (s : State) (t k : Nat) : Option Int :=
  let v := s.rd (R.MON_CMP_OFS k t)
  if v = 0x8000 then none else some (ofField 16 v)

/-- Size of a slice's trip error for comparison; a slice not measured comes last. -/
def State.tripSize (s : State) (t k : Nat) : Nat := ((s.tripErr t k).map Int.natAbs).getD 0x8000

/-- The slice of a list with the smallest error, the lowest of equals. -/
def State.bestSlice (s : State) (t : Nat) : List Nat → Option Nat
  | [] => none
  | k :: l =>
    match s.bestSlice t l with
    | none => some k
    | some j => if s.tripSize t j < s.tripSize t k then some j else some k

/-- Slices of a threshold that have passed their last test. -/
def State.passing (s : State) (t : Nat) : List Nat := (List.range 4).filter (fun k => s.bit (R.MON_CMP_STAT_PASS t) k)

/-- A spare takes the place of the active slice: joined in parallel, the old slice removed after one frame (R497). -/
def State.swapSlice (s : State) (t k : Nat) : State :=
  let old := s.rd (R.MON_CMP_STAT_ACTIVE t)
  if old = k then s
  else
    let s := { s with cal := { s.cal with swaps := s.cal.swaps ++ [(t, old)],
                                          trimLeft := s.cal.trimLeft.filter (fun (x : Nat × Int) => x.1 != t) } }
    let s := (((((s.wr (R.MON_CMP_STAT_ACTIVE t) k).wr (R.MON_CMP_STAT_PARALLEL t) 1).wr (R.MON_CMP_STAT_TRIM t) 0).wr
      (R.MON_CMP_STAT_DAC t) (s.cmpTarget t / 10))).inc R.MON_CMP_SWAPS
    (s.tlog 0x010E (t + k * 256 + old * 65536)).occur 0x010E none

/-- The conditions of F159, a slice marked failed, and F160, no slice of a threshold passing (Table 16-2). -/
def State.cmpConds (s : State) : State :=
  let failed := (List.range 3).any (fun t => s.rd (R.MON_CMP_STAT_FAILED t) != 0)
  let none := (List.range 3).any (fun t => s.rd (R.MON_CMP_STAT_FAILED t) == 15)
  let s := s.cond (failed || s.condAny 159) (fun s => s.setCond 159 0 failed)
  s.cond (none || s.condAny 160) (fun s => s.setCond 160 0 none)

/-- One slice tested: passing or failed; a failed active slice gives way to the best passing one (R499). -/
def State.testSlice (s : State) (t k : Nat) (ok : Bool) : State :=
  let s := (s.setBit (R.MON_CMP_STAT_PASS t) k ok).setBit (R.MON_CMP_STAT_FAILED t) k (!ok)
  let s := if ok then s.inc R.MON_CMP_TESTS_PASSED else s.inc R.MON_CMP_TESTS_FAILED
  let s := s.cond (!ok) (fun s => s.detect 159 0)
  if s.bit (R.MON_CMP_STAT_FAILED t) (s.rd (R.MON_CMP_STAT_ACTIVE t)) then
    match s.bestSlice t (s.passing t) with
    | some j => s.swapSlice t j
    | none => s
  else s

/-- The 11 slices of the rotation: all but the active slice of threshold 0. -/
def State.otherSlices (s : State) : List (Nat × Nat) :=
  ((List.range 12).map (fun i => (i / 4, i % 4))).filter (fun p => p != (0, s.rd (R.MON_CMP_STAT_ACTIVE 0)))

/-- R498: the test of every 60 s, which the phase window admits alone (R50), with its two outcomes. Injections of F159 and F160 are seen by the test of threshold 0 (R461). -/
def State.compareTest (s : State) (ok okOther : Bool) : State :=
  let s := [159, 160].foldl (fun s n => s.cond (s.injWaits n 0) (fun s => s.injSeen n 0)) s
  let other := s.otherSlices.getD s.cal.rotation (0, 0)
  let s := s.testSlice 0 (s.rd (R.MON_CMP_STAT_ACTIVE 0)) ok
  let s := s.testSlice other.1 other.2 okOther
  { s with cal := { s.cal with rotation := (s.cal.rotation + 1) % 11 } }.cmpConds

def execComparatorTest (ok okOther : Bool) (s : State) : Host.Outcome State Fault Refusal :=
  .next (finish (s.begin.cond (s.paged && s.inWindow) (fun s => s.compareTest ok okOther)))

end Sys2Proof.Machine
end

