-- ==== Sys2Proof/Machine/Calibration.lean ====
section
/-!
DEFINITION. Machine/Calibration.lean: calibration of the ADCs, the references and the comparators (chapter 18), and the clock
domains (R21, R22).
-/

namespace Sys2Proof.Machine

open Sys2Proof

/-! ### Runs (R488, R495) -/

/-- A trigger of a calibration run: merged into one in progress, deferred while the kiln controller is Primed or a kiln runs. -/
def State.calTrigger (s : State) : State :=
  if s.flag R.CAL_STAT_RUNNING ∨ s.works 0xB9 = false then s
  else if s.inKiln ∨ s.rd R.KLN_STAT_STATE = 2 then { s with cal := { s.cal with deferred := true } }
  else s.calBegin

/-- R488: a run asked for by `CAL.CTRL.RUN`, or by boot step B6 while it runs. -/
def State.calRun (s : State) (who : Option Requester) : State :=
  match who with
  | some w => s.command (.calRun who) (s.admission w 0xB9) 0xB9 (fun s => (s.wr R.CAL_CTRL_RUN 1).calTrigger)
  | none => s.cond (decide (s.power.life = Life.starting) && s.power.runSteps.contains 6) State.calTrigger

def execCalRun (who : Option Requester) (s : State) : Host.Outcome State Fault Refusal := .next (finish (s.begin.calRun who))

/-- R488: the check of every 100 hc. -/
def State.calTemp (s : State) : State :=
  let d := (ofField 8 (s.rd R.MON_TEMP_DIE_C) - ofField 8 (s.rd R.MON_TEMP_AT_CAL_C)).natAbs
  s.cond (decide (max 2 (s.rd R.CAL_CTRL_TEMP_DELTA_C) ≤ d)) State.calTrigger

def execCalTempCheck (s : State) : Host.Outcome State Fault Refusal :=
  .next (finish (s.begin.cond s.paged State.calTemp))

/-! ### The end of one ADC (R489, R491, R492) -/

/-- R491: new coefficients, gain deviation in ppm and offset in µV, accepted into the inactive bank or rejected. -/
def State.adcResult (s : State) (a : Nat) (gain ofs : Int) : State :=
  let badG := decide (20000 < gain.natAbs)
  let badO := decide (5000 < ofs.natAbs)
  if badG ∨ badO then
    let s := ((s.wr R.CAL_REJECT_ADC a).wr R.CAL_REJECT_GAIN (b2n badG)).wr R.CAL_REJECT_OFFSET (b2n badO)
    ({ s with cal := { s.cal with rejected := true } }).detect 175 0
  else
    { s with cal := { s.cal with banks := s.cal.banks ++ [(a, toField 20 gain, toField 16 ofs)],
                                 badAdc := s.cal.badAdc.erase1 a } }

/-- R497: the spares of a threshold have been measured: the matching slice with the smallest error is active; a spare takes over
where it is better by more than 10 mV; with none matching, the best passing slice goes onto tap trim. -/
def State.selectSlice (s : State) (t : Nat) : State :=
  let old := s.rd (R.MON_CMP_STAT_ACTIVE t)
  let usable := (List.range 4).filter (fun k => !s.bit (R.MON_CMP_STAT_FAILED t) k && (s.tripErr t k).isSome)
  match s.bestSlice t usable with
  | none => s
  | some k =>
    if s.tripSize t k ≤ 20 then
      s.cond (decide (s.tripSize t k + 10 < s.tripSize t old) || decide (20 < s.tripSize t old)) (fun s => s.swapSlice t k)
    else
      let s := s.swapSlice t k
      let e := (s.tripErr t k).getD 0
      let s := { s with cal := { s.cal with trimLeft := s.cal.trimLeft.filter (fun (x : Nat × Int) => x.1 != t) ++ [(t, e)] } }
      (s.wr (R.MON_CMP_STAT_TRIM t) 1).detect 161 0

/-- R497, R499: the measurement of the spare slices: trip errors of the spares, and failed slices that pass again. -/
def State.measureSlices (s : State) (trips : List (Nat × Nat × Int)) (again : List (Nat × Nat)) : State :=
  let s := again.foldl (fun (s : State) (p : Nat × Nat) =>
    s.cond (decide (p.1 < 3) && decide (p.2 < 4) && s.bit (R.MON_CMP_STAT_FAILED p.1) p.2) (fun s =>
      (s.setBit (R.MON_CMP_STAT_FAILED p.1) p.2 false).setBit (R.MON_CMP_STAT_PASS p.1) p.2 true)) s
  let s := trips.foldl (fun (s : State) (x : Nat × Nat × Int) =>
    s.cond (decide (x.1 < 3) && decide (x.2.1 < 4) && x.2.1 != s.rd (R.MON_CMP_STAT_ACTIVE x.1)) (fun s =>
      s.wr (R.MON_CMP_OFS x.2.1 x.1) (toField 16 x.2.2))) s
  (s.each 3 State.selectSlice).cmpConds

/-- R494: the results stored: the Sentinel context, then the flash copy that was not written last. -/
def State.storeCal (s : State) : State :=
  let n := if s.cal.lastCopy = 1 then 2 else 1
  { s with cal := { s.cal with lastCopy := n, stored := s.cal.stored ||| 1 ||| 2 ^ n } }

/-- The end of a run (R489): `AT_CAL_C` is the temperature at its start. -/
def State.calEnd (s : State) : State :=
  let bad := s.cal.rejected
  let s := (s.wr R.MON_TEMP_AT_CAL_C s.cal.startTemp).wr R.CAL_STAT_LAST (if bad then 2 else 1)
  let s := (s.inc R.CAL_RUNS_DONE).cond bad (fun s => s.inc R.CAL_RUNS_REJECTED)
  let s := (((s.wr R.CAL_STAT_RUNNING 0).wr R.CAL_CTRL_RUN 0).wr R.MON_STAT_CAL_ACTIVE 0).wr R.MON_STAT_CAL_ADC 0
  (s.wr R.CAL_LAST_RUN s.opsec).storeCal

/-- R489: the calibration of the ADC now being calibrated ends. -/
def State.adcDone (s : State) (gain ofs : Int) (trips : List (Nat × Nat × Int)) (again : List (Nat × Nat)) : State :=
  if s.flag R.CAL_STAT_RUNNING then
    let a := s.rd R.MON_STAT_CAL_ADC
    let s := s.adcResult a gain ofs
    if a < 2 then s.wr R.MON_STAT_CAL_ADC (a + 1) else (s.measureSlices trips again).calEnd
  else s

/-! ### References (R493) -/

/-- R493: `CTRL.MODULE_CAL` under maintenance access, with `VREF_EXT` fitted: the module record. -/
def State.moduleCal (s : State) (uv : Nat) : State :=
  if s.maint.isOpen = false then s.reject 0xB9
  else if s.flag R.CAL_CTRL_VREF_EN = false then s.reject 0xB9
  else
    let v := uv % 2 ^ 24
    let s := { s with flash := { s.flash with moduleRec := some v } }
    ((s.wr R.CAL_STAT_MODULE_REC 1).wr R.CAL_VREF_CHECK v).wr R.CAL_BG v

def execModuleCal (who : Requester) (uv : Nat) (s : State) : Host.Outcome State Fault Refusal :=
  .next (finish (s.begin.command (.moduleCal who uv) (s.admission who 0xB9) 0xB9 (fun s => s.moduleCal uv)))

/-- R493: the check of every `VREF_H` hours: a band-gap within 0.5 % of the record replaces `BG` at the next run, which starts at
once. The check waits for a run in progress (Table 18-3). -/
def State.vrefCheck (s : State) (uv : Nat) : State :=
  if s.paged = false ∨ s.flag R.CAL_CTRL_VREF_EN = false ∨ s.cal.vrefStopped then s
  else if s.flag R.CAL_STAT_RUNNING then { s with cal := { s.cal with vrefWaits := some uv } }
  else
    let v := uv % 2 ^ 24
    let base := s.flash.moduleRec.getD 1200000
    let s := s.wr R.CAL_VREF_CHECK v
    if 200 * (v - base) ≤ base ∧ 200 * (base - v) ≤ base then
      ({ s with cal := { s.cal with bgNext := some v } }).calTrigger
    else s.detect 179 0

/-- A check that waited for the end of the run is made (Table 18-3). -/
def State.vrefResume (s : State) : State :=
  match s.cal.vrefWaits with
  | some uv =>
    if s.flag R.CAL_STAT_RUNNING then s else ({ s with cal := { s.cal with vrefWaits := none } }).vrefCheck uv
  | none => s

def execVrefCheck (uv : Nat) (s : State) : Host.Outcome State Fault Refusal := .next (finish (s.begin.vrefCheck uv))

def execAdcCalDone (gain ofs : Int) (trips : List (Nat × Nat × Int)) (again : List (Nat × Nat)) (s : State) :
    Host.Outcome State Fault Refusal :=
  .next (finish ((s.begin.adcDone gain ofs trips again).vrefResume))

/-! ### Clock domains (R21, R22) -/

/-- R21: domain `d`, 3 to 24, has left its setting for 10 µs. -/
def State.clockBad (s : State) (d : Nat) : State :=
  if d < 3 ∨ 24 < d ∨ s.badClocks.contains d ∨ (clockFaultSrcs s.variant d).isEmpty then s
  else
    let s := { s with badClocks := s.badClocks ++ [d] }
    (clockFaultSrcs s.variant d).foldl (fun (s : State) (x : Nat × Nat) => s.setCond x.1 x.2 true) s

def execClockFault (domain : Nat) (s : State) : Host.Outcome State Fault Refusal := .next (finish (s.begin.clockBad domain))

/-- R21: the domain is back within tolerance: the condition of its clock fault ends. -/
def State.clockGood (s : State) (d : Nat) : State :=
  if s.badClocks.contains d then
    let s := { s with badClocks := s.badClocks.filter (fun k => k != d) }
    (clockFaultSrcs s.variant d).foldl (fun (s : State) (x : Nat × Nat) => s.setCond x.1 x.2 false) s
  else s

def execClockBackInTolerance (domain : Nat) (s : State) : Host.Outcome State Fault Refusal :=
  .next (finish (s.begin.clockGood domain))

/-- R22: `XTAL25` is lost: the sequencer and the analog monitor run from the Sentinel RC oscillator. -/
def execXtal25Lost (s : State) : Host.Outcome State Fault Refusal :=
  .next (finish (s.begin.cond s.paged (fun s => s.wr R.SEQ_STAT_RC_CLOCK 1)))

end Sys2Proof.Machine
end

