-- ==== Sys2Proof/Machine/Keep.lean ====
section
/-!
DEFINITION. Machine/Keep.lean: the keep region's structures (Table 01-8), what an uncorrectable error in each of them does (R28,
R163, R184, R282, R312), and the patrol that meets them (R118).
-/

namespace Sys2Proof.Machine

open Sys2Proof

/-- The sizes of the structures below the spare pool, in the order of Table 01-8, at an installed capacity of `c` granules: granule
map, map directory, dirty bitmap, steep bitmap, heat map, line masks, two debt bitmaps, queue contexts. -/
def keepSizes (c : Nat) : List Nat :=
  let b := c * 4096
  [ceilDiv b 512, ceilDiv b 262144, ceilDiv b 32768, ceilDiv b 32768, ceilDiv b 2097152, 268435456, ceilDiv b 16777216,
   ceilDiv b 16777216, 16777216]

/-- The part of a run of parts that holds byte `off`, counted from `k`, and the byte within it. -/
def partAt : List Nat → Nat → Nat → Nat × Nat
  | [], k, off => (k, off)
  | n :: rest, k, off => if off < n then (k, off) else partAt rest (k + 1) (off - n)

/-- The structure of the keep region that holds line `l` of granule `g`: its place in `keepSizes`, and the byte within it. The
structures stand one after the other from the top of host-visible capacity (assumption 150). -/
def State.keepPlace (s : State) (g l : Nat) : Nat × Nat :=
  partAt (keepSizes (s.rd R.CAP_DRAM)) 0 ((g - s.rd R.CAP_HOST) * 4096 + 64 * l)

/-- R282: the mark of one granule of a steep-bitmap line that is rewritten. -/
def State.remark (s : State) (g : Nat) : State :=
  let on := s.hasMask g || !s.isDirty g
  { s with steep := { s.steep with unfilled := if on then s.steep.unfilled.insert1 g else s.steep.unfilled.erase1 g } }

/-- A region is partial: some of its granules are unfilled, some not (R265). -/
def State.isPartial (s : State) (r : Nat) : Bool :=
  let n := s.regionUnfilled r
  let hi := min (s.rd R.CAP_HOST) ((r + 1) * granulesPerRegion)
  n != 0 && n != hi - r * granulesPerRegion

/-- R282: an uncorrectable error in the steep-bitmap line of region `r`. -/
def State.steepLine (s : State) (r : Nat) : State :=
  let lo := r * granulesPerRegion
  let hi := min (s.rd R.CAP_HOST) (lo + granulesPerRegion)
  let s := (List.range (hi - lo)).foldl (fun s i => s.remark (lo + i)) s
  let rest := s.steep.partials.filter (fun x => x != r)
  let s := { s with steep := { s.steep with partials := if s.isPartial r then rest ++ [r] else rest } }
  (s.showSteep).detect 56 0

/-- R282: a granule whose line mask cannot be read: its DRAM lines are kept under a mask of all ones, and the lines the host never
wrote read as poison. -/
def State.maskLost (s : State) (g : Nat) : State :=
  let m := s.mask g
  let s := (List.range 64).foldl (fun s l => s.cond (!m.getLsbD l) (fun s => s.setPoison g l true)) s
  s.maskAll g

/-- R282: an uncorrectable error in a line of the line-mask table: its four entries. Entries stand in the order of their
allocation (assumption 150). -/
def State.maskTableLine (s : State) (n : Nat) : State :=
  let l := ((s.steep.masks.map (fun e => e.1)).drop (4 * n)).take 4
  (l.foldl State.maskLost s).detect 56 0

/-- The regions the host sees. -/
def State.hostRegions (s : State) : Nat := s.rd R.CAP_HOST / granulesPerRegion

/-- A heat-map line goes to the highest level (R163). -/
def State.heatLine (s : State) (n : Nat) : State :=
  let heat := (List.range 64).foldl (fun (h : NMap) i => if 64 * n + i < s.hostRegions then h.set (64 * n + i) 254 else h) s.dirty.heat
  { s with dirty := { s.dirty with heat := heat } }.detect 27 0

/-- A debt-bitmap line is owed whole where its regions are racked to the target (Table 08-11). -/
def State.debtLine (s : State) (t n : Nat) : State :=
  ((List.range 512).filter (fun i => (s.rackMask (512 * n + i)).testBit t)).foldl
    (fun s i => s.setDebt t ((s.debt t).insert1 (512 * n + i))) s

/-- A line of map entries is corrupt (R184): each entry that names a copy. -/
def State.mapLine (s : State) (n : Nat) : State :=
  (((List.range 8).filter (fun i => s.hasCopy (8 * n + i))).foldl (fun s i => s.unreadable (8 * n + i)) s).setCond 74 0 true

/-- A line of the map directory is corrupt: the pages it names that are not loaded are lost (R184, Table 07-7). -/
def State.dirLine (s : State) (n : Nat) : State :=
  (((List.range 8).filter (fun i => decide (8 * n + i < s.hostRegions) && !s.cellar.loaded.has (8 * n + i))).foldl
    (fun s i => s.pageLost (8 * n + i)) s).setCond 74 0 true

/-- R28: an uncorrectable error in a line of the keep region, by the structure it strikes. -/
def State.keepUe (s : State) (g l : Nat) : State :=
  let p := s.keepPlace g l
  match p.1 with
  | 0 => s.mapLine (p.2 / 64)
  | 1 => s.dirLine (p.2 / 64)
  | 2 => s.cond (decide (p.2 / 64 < s.hostRegions)) (fun s => s.bitmapUe (p.2 / 64))
  | 3 => s.cond (decide (p.2 / 64 < s.hostRegions)) (fun s => s.steepLine (p.2 / 64))
  | 4 => s.heatLine (p.2 / 64)
  | 5 => s.maskTableLine (p.2 / 64)
  | 6 => s.debtLine 0 (p.2 / 64)
  | 7 => s.debtLine 1 (p.2 / 64)
  | 8 => s.dmaFails (p.2 / 64) 2
  | _ => s

/-- What the patrol meets in one line of any granule: Table 05-3 for the host's, R28 for the keep region's. -/
def State.patrolRead (s : State) (e : Nat × Ecc) : State :=
  if e.1 / 64 < s.rd R.CAP_HOST then s.patrolLine e
  else
    match e.2 with
    | .clean => s
    | .corrected d => s.corrected (e.1 / 64) (e.1 % 64) d
    | .failing d => (s.recordUe (e.1 / 64) (e.1 % 64) d).keepUe (e.1 / 64) (e.1 % 64)

/-- One hc of a channel's patrol, with what it finds in the lines it reads. -/
def State.patrol (s : State) (c : Nat) (found : List (Nat × Ecc)) : State :=
  let n := s.patrolStep c
  let s := s.wr (R.DMC_PATROL_STEP c) n
  if n = 0 ∨ s.dramUp = false ∨ s.works (0x20 + c) = false then s
  else
    let all := max 1 (s.rd (R.DMC_GRAN c))
    let pos := s.dram.patrolPos.get c + n
    let s := found.foldl State.patrolRead s
    let s := { s with dram := { s.dram with patrolPos := s.dram.patrolPos.set c (if all ≤ pos then 0 else pos) } }
    let s : State := if all ≤ pos then
        ({ s with dram := { s.dram with patrolFrom := s.dram.patrolFrom.set c s.opsec } }.bump (R.DMC_PATROL_PASS_PASSES c)).wr
          (R.DMC_PATROL_PASS_PCT c) 0
      else s.wr (R.DMC_PATROL_PASS_PCT c) (pos * 100 / all)
    s.cond s.patrolOnTime (fun s => { s with power := { s.power with catchup := false } })

def execPatrolStep (chan : Nat) (found : List (Nat × Ecc)) (s : State) : Host.Outcome State Fault Refusal :=
  .next (finish (s.begin.patrol (chan % 16) found))

end Sys2Proof.Machine
end

