-- ==== Sys2Proof/Machine/ReadRows.lean ====
section
/-!
DEFINITION. Machine/ReadRows.lean: the register pairs named `_LO` and `_HI` (R58), and the fields that a register read
shows and `REGISTER_WRITE` does not write, read off the register tables of the spec.
-/

namespace Sys2Proof.Machine

/-- The `_LO` registers: first page, number of pages, offset, members 8 bytes apart. -/
def pairList : List (Nat × Nat × Nat × Nat) :=
  [(0xB0, 1, 0x048, 1), (0xB0, 1, 0x060, 1), (0xB0, 1, 0x068, 1), (0xB0, 1, 0x080, 8), (0xB0, 1, 0x0C0, 1),
   (0x00, 1, 0x048, 1), (0x01, 1, 0x058, 1), (0x01, 1, 0x060, 1), (0x02, 1, 0x048, 1), (0x02, 1, 0x050, 1),
   (0x02, 1, 0x058, 1), (0x02, 1, 0x060, 1), (0x20, 16, 0x048, 1), (0x20, 16, 0x058, 1), (0x20, 16, 0x078, 1),
   (0x40, 1, 0x048, 1), (0x41, 1, 0x058, 1), (0x41, 1, 0x060, 1), (0x41, 1, 0x06C, 1), (0x70, 1, 0x060, 1),
   (0x70, 1, 0x070, 1), (0x70, 1, 0x084, 1), (0x70, 1, 0x0AC, 1), (0x71, 1, 0x048, 1), (0x71, 1, 0x050, 1),
   (0x42, 1, 0x058, 1), (0x42, 1, 0x068, 1), (0x42, 1, 0x070, 1), (0x42, 1, 0x07C, 1), (0x42, 1, 0x084, 1),
   (0x42, 1, 0x08C, 1), (0x43, 1, 0x060, 1), (0x43, 1, 0x074, 1), (0x80, 1, 0x048, 1), (0x80, 1, 0x060, 1),
   (0x90, 1, 0x058, 4), (0x91, 4, 0x048, 1), (0x95, 1, 0x044, 1), (0x95, 1, 0x04C, 1), (0x95, 1, 0x09C, 1),
   (0xA9, 2, 0x058, 1), (0xA0, 1, 0x050, 1), (0xA0, 1, 0x058, 1), (0xE0, 1, 0x04C, 1), (0xC8, 1, 0x058, 1),
   (0xC9, 1, 0x050, 1), (0xD0, 1, 0x04C, 1)]

/-- Fields that only a read shows, part 1. -/
def readRows0 : List WriteRow :=
  [⟨0xB0, 1, 0x044, 4096, 1, 0, 1, 0, 0, 0⟩, ⟨0xB0, 1, 0x044, 4096, 1, 1, 1, 0, 0, 1⟩,
   ⟨0xB0, 1, 0x044, 4096, 1, 2, 2, 0, 0, 2⟩, ⟨0xB0, 1, 0x044, 4096, 1, 4, 1, 0, 0, 0⟩,
   ⟨0xB0, 1, 0x044, 4096, 1, 5, 1, 0, 0, 0⟩, ⟨0xB0, 1, 0x044, 4096, 1, 6, 1, 0, 0, 0⟩,
   ⟨0xB0, 1, 0x048, 4096, 1, 0, 48, 0, 0, 0⟩, ⟨0xB0, 1, 0x04C, 4096, 1, 16, 10, 0, 0, 0⟩,
   ⟨0xB0, 1, 0x050, 4096, 1, 0, 24, 0, 0, 1000000⟩, ⟨0xB0, 1, 0x054, 4096, 1, 0, 17, 0, 0, 50000⟩,
   ⟨0xB0, 1, 0x058, 4096, 1, 0, 24, 0, 0, 0⟩, ⟨0xB0, 1, 0x05C, 4096, 1, 0, 16, 0, 0, 0⟩,
   ⟨0xB0, 1, 0x05C, 4096, 1, 16, 16, 0, 0, 0⟩, ⟨0xB0, 1, 0x060, 4096, 1, 0, 48, 0, 0, 0⟩,
   ⟨0xB0, 1, 0x068, 4096, 1, 0, 48, 0, 0, 0⟩, ⟨0xB0, 1, 0x070, 4096, 1, 0, 20, 0, 0, 0⟩,
   ⟨0xB0, 1, 0x070, 4096, 1, 31, 1, 0, 0, 0⟩, ⟨0xB0, 1, 0x080, 8, 8, 0, 48, 0, 0, 0⟩,
   ⟨0xB0, 1, 0x084, 8, 8, 16, 1, 0, 0, 0⟩, ⟨0xB0, 1, 0x084, 8, 8, 17, 1, 0, 0, 0⟩,
   ⟨0xB0, 1, 0x0C0, 4096, 1, 0, 40, 0, 0, 0⟩, ⟨0xB0, 1, 0x0C8, 4096, 1, 0, 32, 0, 0, 0⟩,
   ⟨0xB0, 1, 0x0CC, 4096, 1, 0, 8, 0, 0, 0⟩, ⟨0xB0, 1, 0x0CC, 4096, 1, 8, 1, 0, 0, 0⟩,
   ⟨0x00, 1, 0x040, 4096, 1, 0, 16, 0, 0, 12822⟩, ⟨0x00, 1, 0x040, 4096, 1, 16, 8, 0, 0, 70⟩,
   ⟨0x00, 1, 0x040, 4096, 1, 24, 8, 0, 0, 16⟩, ⟨0x00, 1, 0x048, 4096, 1, 0, 64, 0, 0, 1⟩,
   ⟨0x00, 1, 0x050, 4, 6, 0, 32, 0, 0, 0⟩, ⟨0x00, 1, 0x068, 4096, 1, 0, 1, 0, 0, 0⟩,
   ⟨0x00, 1, 0x06C, 4096, 1, 0, 16, 0, 0, 8⟩, ⟨0x00, 1, 0x070, 4, 4, 0, 32, 0, 0, 0⟩,
   ⟨0x00, 1, 0x088, 4096, 1, 0, 32, 0, 0, 0⟩, ⟨0x00, 1, 0x08C, 4096, 1, 0, 32, 0, 0, 0⟩,
   ⟨0x01, 1, 0x040, 4096, 1, 0, 16, 0, 0, 65535⟩, ⟨0x01, 1, 0x040, 4096, 1, 16, 16, 0, 0, 0⟩,
   ⟨0x01, 1, 0x044, 4096, 1, 0, 32, 0, 0, 4294967295⟩, ⟨0x01, 1, 0x048, 4096, 1, 0, 32, 0, 0, 0⟩,
   ⟨0x01, 1, 0x04C, 4096, 1, 0, 2, 0, 0, 3⟩, ⟨0x01, 1, 0x04C, 4096, 1, 2, 1, 0, 0, 1⟩]

/-- Fields that only a read shows, part 2. -/
def readRows1 : List WriteRow :=
  [⟨0x01, 1, 0x04C, 4096, 1, 3, 1, 0, 0, 1⟩, ⟨0x01, 1, 0x04C, 4096, 1, 4, 1, 0, 0, 1⟩,
   ⟨0x01, 1, 0x04C, 4096, 1, 5, 2, 0, 0, 3⟩, ⟨0x01, 1, 0x04C, 4096, 1, 8, 8, 0, 0, 32⟩,
   ⟨0x01, 1, 0x050, 4096, 1, 0, 19, 0, 0, 262144⟩, ⟨0x01, 1, 0x054, 4096, 1, 0, 25, 0, 0, 0⟩,
   ⟨0x01, 1, 0x058, 4096, 1, 0, 40, 0, 0, 0⟩, ⟨0x01, 1, 0x060, 4096, 1, 0, 40, 0, 0, 0⟩,
   ⟨0x01, 1, 0x068, 4096, 1, 0, 32, 0, 0, 0⟩, ⟨0x01, 1, 0x06C, 4096, 1, 0, 10, 0, 0, 0⟩,
   ⟨0x02, 1, 0x040, 4096, 1, 0, 32, 0, 0, 0⟩, ⟨0x02, 1, 0x044, 4096, 1, 0, 2, 0, 0, 2⟩,
   ⟨0x02, 1, 0x044, 4096, 1, 8, 1, 0, 0, 0⟩, ⟨0x02, 1, 0x044, 4096, 1, 9, 1, 0, 0, 1⟩,
   ⟨0x02, 1, 0x044, 4096, 1, 10, 1, 0, 0, 0⟩, ⟨0x02, 1, 0x044, 4096, 1, 16, 1, 0, 0, 0⟩,
   ⟨0x02, 1, 0x044, 4096, 1, 17, 1, 0, 0, 0⟩, ⟨0x02, 1, 0x044, 4096, 1, 24, 8, 0, 0, 0⟩,
   ⟨0x02, 1, 0x048, 4096, 1, 0, 40, 0, 0, 0⟩, ⟨0x02, 1, 0x050, 4096, 1, 0, 40, 0, 0, 0⟩,
   ⟨0x02, 1, 0x058, 4096, 1, 0, 40, 0, 0, 0⟩, ⟨0x02, 1, 0x060, 4096, 1, 0, 64, 0, 0, 0⟩,
   ⟨0x02, 1, 0x068, 4096, 1, 0, 2, 0, 0, 0⟩, ⟨0x02, 1, 0x06C, 4096, 1, 0, 32, 0, 0, 0⟩,
   ⟨0x10, 2, 0x040, 4096, 1, 0, 1, 0, 0, 0⟩, ⟨0x10, 2, 0x040, 4096, 1, 1, 3, 0, 0, 0⟩,
   ⟨0x10, 2, 0x040, 4096, 1, 4, 4, 0, 0, 0⟩, ⟨0x10, 2, 0x040, 4096, 1, 8, 1, 0, 0, 0⟩,
   ⟨0x10, 2, 0x040, 4096, 1, 9, 1, 0, 0, 0⟩, ⟨0x10, 2, 0x040, 4096, 1, 16, 16, 0, 0, 0⟩,
   ⟨0x10, 2, 0x048, 4096, 1, 0, 18, 0, 0, 0⟩, ⟨0x10, 2, 0x04C, 4096, 1, 0, 18, 0, 0, 0⟩,
   ⟨0x10, 2, 0x050, 4096, 1, 0, 8, 0, 0, 0⟩, ⟨0x10, 2, 0x050, 4096, 1, 8, 8, 0, 0, 0⟩,
   ⟨0x10, 2, 0x054, 4096, 1, 8, 1, 0, 0, 0⟩, ⟨0x10, 2, 0x054, 4096, 1, 9, 1, 0, 0, 0⟩,
   ⟨0x10, 2, 0x05C, 4096, 1, 0, 2, 0, 0, 0⟩, ⟨0x10, 2, 0x05C, 4096, 1, 2, 2, 0, 0, 0⟩,
   ⟨0x10, 2, 0x05C, 4096, 1, 4, 2, 0, 0, 0⟩, ⟨0x10, 2, 0x05C, 4096, 1, 16, 16, 0, 0, 0⟩]

/-- Fields that only a read shows, part 3. -/
def readRows2 : List WriteRow :=
  [⟨0x10, 2, 0x060, 4096, 1, 0, 9, 0, 0, 0⟩, ⟨0x10, 2, 0x060, 4096, 1, 16, 9, 0, 0, 0⟩,
   ⟨0x10, 2, 0x064, 4096, 1, 0, 9, 0, 0, 0⟩, ⟨0x10, 2, 0x064, 4096, 1, 16, 9, 0, 0, 0⟩,
   ⟨0x10, 2, 0x068, 4096, 1, 0, 4, 0, 0, 0⟩, ⟨0x10, 2, 0x06C, 4096, 1, 0, 17, 0, 0, 0⟩,
   ⟨0x10, 2, 0x06C, 4096, 1, 31, 1, 0, 0, 0⟩, ⟨0x10, 2, 0x070, 4096, 1, 0, 32, 0, 0, 0⟩,
   ⟨0x10, 2, 0x074, 4096, 1, 0, 16, 0, 0, 0⟩, ⟨0x10, 2, 0x074, 4096, 1, 16, 16, 0, 0, 0⟩,
   ⟨0x10, 2, 0x078, 4096, 1, 0, 16, 0, 0, 0⟩, ⟨0x10, 2, 0x078, 4096, 1, 16, 1, 0, 0, 0⟩,
   ⟨0x10, 2, 0x078, 4096, 1, 17, 1, 0, 0, 0⟩, ⟨0x10, 2, 0x078, 4096, 1, 24, 8, 0, 0, 0⟩,
   ⟨0x20, 16, 0x044, 4096, 1, 0, 4, 0, 0, 0⟩, ⟨0x20, 16, 0x044, 4096, 1, 4, 3, 0, 0, 0⟩,
   ⟨0x20, 16, 0x044, 4096, 1, 8, 4, 0, 0, 0⟩, ⟨0x20, 16, 0x044, 4096, 1, 12, 4, 0, 0, 0⟩,
   ⟨0x20, 16, 0x044, 4096, 1, 16, 1, 0, 0, 0⟩, ⟨0x20, 16, 0x044, 4096, 1, 17, 1, 0, 0, 0⟩,
   ⟨0x20, 16, 0x048, 4096, 1, 0, 40, 0, 0, 0⟩, ⟨0x20, 16, 0x050, 4096, 1, 0, 4, 0, 0, 0⟩,
   ⟨0x20, 16, 0x050, 4096, 1, 4, 2, 0, 0, 0⟩, ⟨0x20, 16, 0x050, 4096, 1, 8, 4, 0, 0, 0⟩,
   ⟨0x20, 16, 0x050, 4096, 1, 16, 16, 0, 0, 0⟩, ⟨0x20, 16, 0x054, 4096, 1, 0, 2, 0, 0, 0⟩,
   ⟨0x20, 16, 0x054, 4096, 1, 2, 2, 0, 0, 0⟩, ⟨0x20, 16, 0x054, 4096, 1, 4, 2, 0, 0, 0⟩,
   ⟨0x20, 16, 0x054, 4096, 1, 6, 2, 0, 0, 0⟩, ⟨0x20, 16, 0x054, 4096, 1, 8, 2, 0, 0, 0⟩,
   ⟨0x20, 16, 0x054, 4096, 1, 10, 2, 0, 0, 0⟩, ⟨0x20, 16, 0x054, 4096, 1, 12, 2, 0, 0, 0⟩,
   ⟨0x20, 16, 0x054, 4096, 1, 14, 2, 0, 0, 0⟩, ⟨0x20, 16, 0x060, 4096, 1, 16, 12, 0, 0, 0⟩,
   ⟨0x20, 16, 0x064, 4096, 1, 0, 16, 0, 0, 0⟩, ⟨0x20, 16, 0x064, 4096, 1, 24, 8, 0, 0, 0⟩,
   ⟨0x20, 16, 0x068, 4096, 1, 0, 32, 0, 0, 0⟩, ⟨0x20, 16, 0x06C, 4096, 1, 0, 16, 0, 0, 0⟩,
   ⟨0x20, 16, 0x06C, 4096, 1, 16, 16, 0, 0, 0⟩, ⟨0x20, 16, 0x078, 4096, 1, 0, 36, 0, 0, 0⟩]

/-- Fields that only a read shows, part 4. -/
def readRows3 : List WriteRow :=
  [⟨0x20, 16, 0x080, 4096, 1, 0, 3, 0, 0, 0⟩, ⟨0x20, 16, 0x080, 4096, 1, 4, 4, 0, 0, 0⟩,
   ⟨0x20, 16, 0x080, 4096, 1, 8, 1, 0, 0, 0⟩, ⟨0x20, 16, 0x080, 4096, 1, 14, 18, 0, 0, 0⟩,
   ⟨0x30, 1, 0x044, 4096, 1, 0, 32, 0, 0, 0⟩, ⟨0x30, 1, 0x048, 4096, 1, 0, 32, 0, 0, 0⟩,
   ⟨0x30, 1, 0x04C, 4096, 1, 0, 32, 0, 0, 0⟩, ⟨0x30, 1, 0x050, 4096, 1, 0, 32, 0, 0, 0⟩,
   ⟨0x30, 1, 0x054, 4096, 1, 0, 16, 0, 0, 0⟩, ⟨0x30, 1, 0x054, 4096, 1, 16, 16, 0, 0, 0⟩,
   ⟨0x30, 1, 0x058, 4096, 1, 0, 16, 0, 0, 0⟩, ⟨0x30, 1, 0x05C, 4096, 1, 0, 9, 0, 0, 0⟩,
   ⟨0x30, 1, 0x05C, 4096, 1, 16, 9, 0, 0, 0⟩, ⟨0x30, 1, 0x060, 4096, 1, 0, 4, 0, 0, 0⟩,
   ⟨0x30, 1, 0x060, 4096, 1, 4, 3, 0, 0, 0⟩, ⟨0x30, 1, 0x060, 4096, 1, 7, 1, 0, 0, 0⟩,
   ⟨0x30, 1, 0x060, 4096, 1, 8, 8, 0, 0, 0⟩, ⟨0x30, 1, 0x060, 4096, 1, 16, 1, 0, 0, 0⟩,
   ⟨0x40, 1, 0x044, 4096, 1, 0, 16, 0, 0, 0⟩, ⟨0x40, 1, 0x044, 4096, 1, 16, 16, 0, 0, 0⟩,
   ⟨0x40, 1, 0x048, 4096, 1, 0, 40, 0, 0, 0⟩, ⟨0x40, 1, 0x050, 4096, 1, 0, 32, 0, 0, 0⟩,
   ⟨0x40, 1, 0x054, 4096, 1, 0, 25, 0, 0, 0⟩, ⟨0x40, 1, 0x064, 4096, 1, 0, 15, 0, 0, 0⟩,
   ⟨0x40, 1, 0x064, 4096, 1, 16, 15, 0, 0, 0⟩, ⟨0x40, 1, 0x068, 4096, 1, 0, 32, 0, 0, 0⟩,
   ⟨0x40, 1, 0x100, 4, 128, 0, 32, 0, 0, 0⟩, ⟨0x41, 1, 0x04C, 4096, 1, 0, 3, 0, 0, 7⟩,
   ⟨0x41, 1, 0x04C, 4096, 1, 8, 7, 0, 0, 0⟩, ⟨0x41, 1, 0x050, 4096, 1, 0, 16, 0, 0, 0⟩,
   ⟨0x41, 1, 0x050, 4096, 1, 16, 16, 0, 0, 0⟩, ⟨0x41, 1, 0x054, 4096, 1, 0, 32, 0, 0, 0⟩,
   ⟨0x41, 1, 0x058, 4096, 1, 0, 40, 0, 0, 0⟩, ⟨0x41, 1, 0x060, 4096, 1, 0, 40, 0, 0, 0⟩,
   ⟨0x41, 1, 0x068, 4096, 1, 0, 16, 0, 0, 0⟩, ⟨0x41, 1, 0x068, 4096, 1, 16, 16, 0, 0, 0⟩,
   ⟨0x41, 1, 0x06C, 4096, 1, 0, 48, 0, 0, 0⟩, ⟨0x41, 1, 0x074, 4096, 1, 0, 32, 0, 0, 0⟩,
   ⟨0x41, 1, 0x078, 4096, 1, 0, 32, 0, 0, 0⟩, ⟨0x41, 1, 0x07C, 4096, 1, 0, 32, 0, 0, 0⟩]

/-- Fields that only a read shows, part 5. -/
def readRows4 : List WriteRow :=
  [⟨0x41, 1, 0x080, 4096, 1, 0, 32, 0, 0, 0⟩, ⟨0x41, 1, 0x084, 4096, 1, 0, 16, 0, 0, 0⟩,
   ⟨0x44, 1, 0x050, 4096, 1, 0, 24, 0, 0, 0⟩, ⟨0x44, 1, 0x054, 4096, 1, 0, 32, 0, 0, 0⟩,
   ⟨0x44, 1, 0x058, 4096, 1, 0, 32, 0, 0, 0⟩, ⟨0x44, 1, 0x05C, 4096, 1, 0, 32, 0, 0, 0⟩,
   ⟨0x44, 1, 0x060, 4096, 1, 0, 3, 0, 0, 4⟩, ⟨0x44, 1, 0x064, 4096, 1, 0, 24, 0, 0, 0⟩,
   ⟨0x44, 1, 0x064, 4096, 1, 31, 1, 0, 0, 0⟩, ⟨0x44, 1, 0x068, 4096, 1, 0, 20, 0, 0, 0⟩,
   ⟨0x44, 1, 0x06C, 4096, 1, 0, 20, 0, 0, 4000⟩, ⟨0x44, 1, 0x06C, 4096, 1, 24, 3, 0, 0, 0⟩,
   ⟨0x44, 1, 0x070, 4096, 1, 0, 17, 0, 0, 0⟩, ⟨0x44, 1, 0x070, 4096, 1, 28, 3, 0, 0, 0⟩,
   ⟨0x44, 1, 0x074, 4096, 1, 0, 32, 0, 0, 0⟩, ⟨0x44, 1, 0x078, 4096, 1, 0, 16, 0, 0, 0⟩,
   ⟨0x44, 1, 0x078, 4096, 1, 16, 16, 0, 0, 0⟩, ⟨0x44, 1, 0x07C, 4096, 1, 0, 32, 0, 0, 0⟩,
   ⟨0x44, 1, 0x080, 4096, 1, 0, 32, 0, 0, 0⟩, ⟨0x50, 32, 0x044, 4096, 1, 0, 2, 0, 0, 0⟩,
   ⟨0x50, 32, 0x044, 4096, 1, 8, 6, 0, 0, 0⟩, ⟨0x50, 32, 0x044, 4096, 1, 16, 1, 0, 0, 0⟩,
   ⟨0x50, 32, 0x044, 4096, 1, 17, 1, 0, 0, 0⟩, ⟨0x50, 32, 0x044, 4096, 1, 24, 5, 0, 0, 0⟩,
   ⟨0x50, 32, 0x048, 4096, 1, 0, 16, 0, 0, 0⟩, ⟨0x50, 32, 0x048, 4096, 1, 16, 16, 0, 0, 0⟩,
   ⟨0x50, 32, 0x04C, 4096, 1, 0, 4, 0, 0, 0⟩, ⟨0x50, 32, 0x04C, 4096, 1, 4, 16, 0, 0, 0⟩,
   ⟨0x50, 32, 0x04C, 4096, 1, 20, 12, 0, 0, 0⟩, ⟨0x50, 32, 0x050, 4096, 1, 0, 16, 0, 0, 0⟩,
   ⟨0x50, 32, 0x050, 4096, 1, 16, 16, 0, 0, 0⟩, ⟨0x50, 32, 0x054, 4096, 1, 0, 16, 0, 0, 0⟩,
   ⟨0x50, 32, 0x054, 4096, 1, 16, 16, 0, 0, 0⟩, ⟨0x50, 32, 0x058, 4096, 1, 0, 32, 0, 0, 0⟩,
   ⟨0x50, 32, 0x05C, 4096, 1, 0, 32, 0, 0, 0⟩, ⟨0x50, 32, 0x060, 4096, 1, 0, 32, 0, 0, 0⟩,
   ⟨0x50, 32, 0x064, 4096, 1, 0, 32, 0, 0, 0⟩, ⟨0x50, 32, 0x068, 4096, 1, 0, 16, 0, 0, 0⟩,
   ⟨0x50, 32, 0x068, 4096, 1, 16, 16, 0, 0, 0⟩, ⟨0x50, 32, 0x06C, 4096, 1, 0, 16, 0, 0, 0⟩]

/-- Fields that only a read shows, part 6. -/
def readRows5 : List WriteRow :=
  [⟨0x50, 32, 0x06C, 4096, 1, 16, 16, 0, 0, 0⟩, ⟨0x50, 32, 0x070, 4096, 1, 0, 16, 0, 0, 0⟩,
   ⟨0x50, 32, 0x070, 4096, 1, 16, 16, 0, 0, 0⟩, ⟨0x50, 32, 0x074, 4096, 1, 0, 4, 0, 0, 0⟩,
   ⟨0x50, 32, 0x074, 4096, 1, 4, 16, 0, 0, 0⟩, ⟨0x50, 32, 0x074, 4096, 1, 20, 12, 0, 0, 0⟩,
   ⟨0x70, 1, 0x060, 4096, 1, 0, 40, 0, 0, 0⟩, ⟨0x70, 1, 0x068, 4096, 1, 0, 16, 0, 0, 0⟩,
   ⟨0x70, 1, 0x068, 4096, 1, 16, 16, 0, 0, 0⟩, ⟨0x70, 1, 0x06C, 4096, 1, 0, 16, 0, 0, 0⟩,
   ⟨0x70, 1, 0x06C, 4096, 1, 16, 16, 0, 0, 0⟩, ⟨0x70, 1, 0x070, 4096, 1, 0, 40, 0, 0, 0⟩,
   ⟨0x70, 1, 0x078, 4096, 1, 0, 32, 0, 0, 0⟩, ⟨0x70, 1, 0x07C, 4096, 1, 0, 16, 0, 0, 0⟩,
   ⟨0x70, 1, 0x080, 4096, 1, 0, 16, 0, 0, 0⟩, ⟨0x70, 1, 0x084, 4096, 1, 0, 48, 0, 0, 0⟩,
   ⟨0x70, 1, 0x08C, 4096, 1, 0, 14, 0, 0, 0⟩, ⟨0x70, 1, 0x08C, 4096, 1, 16, 14, 0, 0, 0⟩,
   ⟨0x70, 1, 0x090, 4096, 1, 0, 16, 0, 0, 0⟩, ⟨0x70, 1, 0x090, 4096, 1, 16, 16, 0, 0, 0⟩,
   ⟨0x70, 1, 0x094, 4096, 1, 0, 24, 0, 0, 0⟩, ⟨0x70, 1, 0x094, 4096, 1, 24, 8, 0, 0, 0⟩,
   ⟨0x70, 1, 0x098, 4096, 1, 0, 16, 0, 0, 0⟩, ⟨0x70, 1, 0x098, 4096, 1, 16, 8, 0, 0, 0⟩,
   ⟨0x70, 1, 0x098, 4096, 1, 24, 8, 0, 0, 0⟩, ⟨0x70, 1, 0x09C, 4096, 1, 0, 2, 0, 0, 0⟩,
   ⟨0x70, 1, 0x0A0, 4096, 1, 0, 32, 0, 0, 0⟩, ⟨0x70, 1, 0x0A4, 4096, 1, 0, 20, 0, 0, 0⟩,
   ⟨0x70, 1, 0x0A8, 4096, 1, 0, 25, 0, 0, 0⟩, ⟨0x70, 1, 0x0AC, 4096, 1, 0, 40, 0, 0, 0⟩,
   ⟨0x70, 1, 0x0B4, 4096, 1, 0, 10, 0, 0, 0⟩, ⟨0x70, 1, 0x0B4, 4096, 1, 16, 10, 0, 0, 0⟩,
   ⟨0x70, 1, 0x0B8, 4096, 1, 0, 1, 0, 0, 0⟩, ⟨0x70, 1, 0x0B8, 4096, 1, 8, 8, 0, 0, 0⟩,
   ⟨0x70, 1, 0x0BC, 4096, 1, 0, 16, 0, 0, 0⟩, ⟨0x70, 1, 0x0BC, 4096, 1, 16, 16, 0, 0, 0⟩,
   ⟨0x71, 1, 0x040, 4096, 1, 0, 1, 0, 0, 0⟩, ⟨0x71, 1, 0x040, 4096, 1, 1, 1, 0, 0, 0⟩,
   ⟨0x71, 1, 0x040, 4096, 1, 2, 1, 0, 0, 0⟩, ⟨0x71, 1, 0x040, 4096, 1, 3, 1, 0, 0, 0⟩]

/-- Fields that only a read shows, part 7. -/
def readRows6 : List WriteRow :=
  [⟨0x71, 1, 0x040, 4096, 1, 8, 8, 0, 0, 0⟩, ⟨0x71, 1, 0x040, 4096, 1, 16, 16, 0, 0, 0⟩,
   ⟨0x71, 1, 0x044, 4096, 1, 0, 7, 0, 0, 0⟩, ⟨0x71, 1, 0x048, 4096, 1, 0, 48, 0, 0, 0⟩,
   ⟨0x71, 1, 0x050, 4096, 1, 0, 48, 0, 0, 0⟩, ⟨0x71, 1, 0x058, 4096, 1, 0, 32, 0, 0, 0⟩,
   ⟨0x42, 1, 0x040, 4096, 1, 0, 1, 0, 0, 1⟩, ⟨0x42, 1, 0x040, 4096, 1, 16, 1, 0, 0, 0⟩,
   ⟨0x42, 1, 0x050, 4096, 1, 0, 4, 0, 0, 0⟩, ⟨0x42, 1, 0x050, 4096, 1, 4, 1, 0, 0, 0⟩,
   ⟨0x42, 1, 0x050, 4096, 1, 5, 1, 0, 0, 0⟩, ⟨0x42, 1, 0x050, 4096, 1, 6, 1, 0, 0, 0⟩,
   ⟨0x42, 1, 0x050, 4096, 1, 7, 1, 0, 0, 0⟩, ⟨0x42, 1, 0x050, 4096, 1, 8, 3, 0, 0, 0⟩,
   ⟨0x42, 1, 0x050, 4096, 1, 16, 1, 0, 0, 0⟩, ⟨0x42, 1, 0x050, 4096, 1, 17, 1, 0, 0, 0⟩,
   ⟨0x42, 1, 0x050, 4096, 1, 18, 1, 0, 0, 0⟩, ⟨0x42, 1, 0x054, 4096, 1, 0, 8, 0, 0, 0⟩,
   ⟨0x42, 1, 0x054, 4096, 1, 16, 16, 0, 0, 0⟩, ⟨0x42, 1, 0x058, 4096, 1, 0, 64, 0, 0, 0⟩,
   ⟨0x42, 1, 0x060, 4096, 1, 0, 11, 0, 0, 0⟩, ⟨0x42, 1, 0x064, 4096, 1, 0, 18, 0, 0, 180224⟩,
   ⟨0x42, 1, 0x068, 4096, 1, 0, 40, 0, 0, 0⟩, ⟨0x42, 1, 0x070, 4096, 1, 0, 40, 0, 0, 0⟩,
   ⟨0x42, 1, 0x078, 4096, 1, 0, 2, 0, 0, 0⟩, ⟨0x42, 1, 0x078, 4096, 1, 4, 3, 0, 0, 0⟩,
   ⟨0x42, 1, 0x078, 4096, 1, 8, 1, 0, 0, 0⟩, ⟨0x42, 1, 0x078, 4096, 1, 9, 1, 0, 0, 0⟩,
   ⟨0x42, 1, 0x078, 4096, 1, 10, 1, 0, 0, 0⟩, ⟨0x42, 1, 0x078, 4096, 1, 16, 6, 0, 0, 0⟩,
   ⟨0x42, 1, 0x07C, 4096, 1, 0, 40, 0, 0, 0⟩, ⟨0x42, 1, 0x084, 4096, 1, 0, 40, 0, 0, 0⟩,
   ⟨0x42, 1, 0x08C, 4096, 1, 0, 40, 0, 0, 0⟩, ⟨0x42, 1, 0x094, 4096, 1, 0, 24, 0, 0, 0⟩,
   ⟨0x42, 1, 0x098, 4096, 1, 0, 24, 0, 0, 0⟩, ⟨0x42, 1, 0x09C, 4096, 1, 0, 16, 0, 0, 0⟩,
   ⟨0x42, 1, 0x09C, 4096, 1, 16, 16, 0, 0, 0⟩, ⟨0x42, 1, 0x0A0, 4096, 1, 0, 16, 0, 0, 0⟩,
   ⟨0x42, 1, 0x0A0, 4096, 1, 16, 16, 0, 0, 0⟩, ⟨0x42, 1, 0x0A4, 4096, 1, 0, 16, 0, 0, 0⟩]

/-- Fields that only a read shows, part 8. -/
def readRows7 : List WriteRow :=
  [⟨0x42, 1, 0x0C0, 8, 8, 0, 32, 0, 0, 0⟩, ⟨0x42, 1, 0x0C4, 8, 8, 0, 24, 0, 0, 0⟩,
   ⟨0x43, 1, 0x058, 4096, 1, 0, 3, 0, 0, 0⟩, ⟨0x43, 1, 0x058, 4096, 1, 3, 1, 0, 0, 0⟩,
   ⟨0x43, 1, 0x058, 4096, 1, 4, 1, 0, 0, 0⟩, ⟨0x43, 1, 0x058, 4096, 1, 5, 1, 0, 0, 0⟩,
   ⟨0x43, 1, 0x058, 4096, 1, 8, 3, 0, 0, 0⟩, ⟨0x43, 1, 0x058, 4096, 1, 16, 1, 0, 0, 0⟩,
   ⟨0x43, 1, 0x05C, 4096, 1, 0, 16, 0, 0, 0⟩, ⟨0x43, 1, 0x05C, 4096, 1, 16, 16, 0, 0, 0⟩,
   ⟨0x43, 1, 0x060, 4096, 1, 0, 40, 0, 0, 0⟩, ⟨0x43, 1, 0x068, 4096, 1, 0, 16, 0, 0, 0⟩,
   ⟨0x43, 1, 0x068, 4096, 1, 16, 16, 0, 0, 0⟩, ⟨0x43, 1, 0x06C, 4096, 1, 0, 25, 0, 0, 0⟩,
   ⟨0x43, 1, 0x070, 4096, 1, 0, 25, 0, 0, 0⟩, ⟨0x43, 1, 0x074, 4096, 1, 0, 48, 0, 0, 0⟩,
   ⟨0x43, 1, 0x07C, 4096, 1, 0, 16, 0, 0, 0⟩, ⟨0x43, 1, 0x07C, 4096, 1, 16, 16, 0, 0, 0⟩,
   ⟨0x43, 1, 0x080, 4096, 1, 0, 32, 0, 0, 0⟩, ⟨0x43, 1, 0x084, 4096, 1, 0, 32, 0, 0, 0⟩,
   ⟨0x43, 1, 0x088, 4096, 1, 0, 32, 0, 0, 0⟩, ⟨0x43, 1, 0x08C, 4096, 1, 0, 16, 0, 0, 0⟩,
   ⟨0x43, 1, 0x08C, 4096, 1, 16, 16, 0, 0, 0⟩, ⟨0x43, 1, 0x090, 4096, 1, 0, 17, 0, 0, 0⟩,
   ⟨0x43, 1, 0x090, 4096, 1, 24, 8, 0, 0, 0⟩, ⟨0x43, 1, 0x094, 4096, 1, 0, 13, 0, 0, 0⟩,
   ⟨0x43, 1, 0x094, 4096, 1, 16, 16, 0, 0, 0⟩, ⟨0x43, 1, 0x098, 4096, 1, 0, 32, 0, 0, 0⟩,
   ⟨0x43, 1, 0x09C, 4096, 1, 0, 4, 0, 0, 0⟩, ⟨0x43, 1, 0x09C, 4096, 1, 16, 16, 0, 0, 0⟩,
   ⟨0x80, 1, 0x054, 4096, 1, 0, 19, 0, 0, 0⟩, ⟨0x80, 1, 0x058, 4096, 1, 0, 13, 0, 0, 0⟩,
   ⟨0x80, 1, 0x05C, 4096, 1, 0, 32, 0, 0, 0⟩, ⟨0x80, 1, 0x060, 4096, 1, 0, 48, 0, 0, 0⟩,
   ⟨0x80, 1, 0x068, 4096, 1, 0, 32, 0, 0, 0⟩, ⟨0x80, 1, 0x06C, 4096, 1, 0, 16, 0, 0, 0⟩,
   ⟨0x80, 1, 0x06C, 4096, 1, 16, 16, 0, 0, 0⟩, ⟨0x80, 1, 0x070, 4096, 1, 0, 19, 0, 0, 0⟩,
   ⟨0x80, 1, 0x074, 4096, 1, 0, 19, 0, 0, 0⟩, ⟨0x80, 1, 0x074, 4096, 1, 24, 8, 0, 0, 0⟩]

/-- Fields that only a read shows, part 9. -/
def readRows8 : List WriteRow :=
  [⟨0x80, 1, 0x078, 4096, 1, 0, 32, 0, 0, 0⟩, ⟨0x80, 1, 0x07C, 4096, 1, 0, 32, 0, 0, 0⟩,
   ⟨0x90, 1, 0x048, 4096, 1, 0, 13, 0, 0, 8191⟩, ⟨0x90, 1, 0x048, 4096, 1, 13, 2, 0, 0, 0⟩,
   ⟨0x90, 1, 0x048, 4096, 1, 15, 1, 0, 0, 0⟩, ⟨0x90, 1, 0x048, 4096, 1, 16, 16, 0, 0, 0⟩,
   ⟨0x90, 1, 0x078, 4096, 1, 0, 4, 0, 0, 0⟩, ⟨0x90, 1, 0x080, 4, 4, 0, 32, 0, 0, 0⟩,
   ⟨0x90, 1, 0x090, 4096, 1, 0, 13, 0, 0, 0⟩, ⟨0x90, 1, 0x090, 4096, 1, 16, 13, 0, 0, 0⟩,
   ⟨0x90, 1, 0x094, 4096, 1, 0, 16, 0, 0, 0⟩, ⟨0x90, 1, 0x094, 4096, 1, 16, 16, 0, 0, 0⟩,
   ⟨0x90, 1, 0x098, 4096, 1, 0, 32, 0, 0, 0⟩, ⟨0x90, 1, 0x0A0, 4096, 1, 0, 4, 0, 7, 0⟩,
   ⟨0x90, 1, 0x0A0, 4096, 1, 4, 7, 0, 7, 0⟩, ⟨0x90, 1, 0x0A0, 4096, 1, 15, 1, 0, 7, 0⟩,
   ⟨0x90, 1, 0x0A0, 4096, 1, 16, 16, 0, 7, 0⟩, ⟨0x90, 1, 0x0A4, 4096, 1, 0, 16, 0, 0, 0⟩,
   ⟨0x90, 1, 0x0A4, 4096, 1, 16, 16, 0, 0, 0⟩, ⟨0x90, 1, 0x0A8, 4096, 1, 0, 16, 0, 0, 0⟩,
   ⟨0x90, 1, 0x0A8, 4096, 1, 16, 16, 0, 0, 0⟩, ⟨0x90, 1, 0x0AC, 4096, 1, 0, 32, 0, 0, 0⟩,
   ⟨0x90, 1, 0x0B0, 4096, 1, 0, 32, 0, 0, 0⟩, ⟨0x91, 4, 0x044, 4096, 1, 0, 3, 0, 0, 1⟩,
   ⟨0x91, 4, 0x044, 4096, 1, 3, 3, 0, 0, 0⟩, ⟨0x91, 4, 0x044, 4096, 1, 6, 1, 0, 0, 0⟩,
   ⟨0x91, 4, 0x044, 4096, 1, 7, 3, 0, 0, 7⟩, ⟨0x91, 4, 0x044, 4096, 1, 10, 1, 0, 0, 0⟩,
   ⟨0x91, 4, 0x044, 4096, 1, 11, 1, 0, 0, 0⟩, ⟨0x91, 4, 0x044, 4096, 1, 16, 16, 0, 0, 0⟩,
   ⟨0x91, 4, 0x048, 4096, 1, 0, 64, 0, 0, 0⟩, ⟨0x91, 4, 0x050, 4096, 1, 0, 13, 0, 0, 8191⟩,
   ⟨0x91, 4, 0x050, 4096, 1, 13, 2, 0, 0, 0⟩, ⟨0x91, 4, 0x050, 4096, 1, 16, 3, 0, 0, 0⟩,
   ⟨0x91, 4, 0x054, 4096, 1, 0, 16, 0, 0, 0⟩, ⟨0x91, 4, 0x058, 4096, 1, 0, 32, 0, 0, 0⟩,
   ⟨0x91, 4, 0x05C, 4096, 1, 0, 32, 0, 0, 0⟩, ⟨0x91, 4, 0x060, 4096, 1, 0, 4, 0, 0, 0⟩,
   ⟨0x91, 4, 0x060, 4096, 1, 4, 4, 0, 0, 0⟩, ⟨0x91, 4, 0x060, 4096, 1, 8, 4, 0, 0, 0⟩]

/-- Fields that only a read shows, part 10. -/
def readRows9 : List WriteRow :=
  [⟨0x91, 4, 0x060, 4096, 1, 12, 4, 0, 0, 0⟩, ⟨0x91, 4, 0x060, 4096, 1, 16, 4, 0, 0, 0⟩,
   ⟨0x91, 4, 0x064, 4096, 1, 0, 16, 0, 0, 0⟩, ⟨0x91, 4, 0x064, 4096, 1, 16, 16, 0, 0, 0⟩,
   ⟨0x91, 4, 0x068, 4096, 1, 0, 16, 0, 0, 0⟩, ⟨0x91, 4, 0x068, 4096, 1, 16, 16, 0, 0, 0⟩,
   ⟨0x91, 4, 0x06C, 4096, 1, 0, 16, 0, 0, 0⟩, ⟨0x95, 1, 0x068, 4, 2, 0, 3, 0, 0, 0⟩,
   ⟨0x95, 1, 0x068, 4, 2, 8, 8, 0, 0, 0⟩, ⟨0x95, 1, 0x068, 4, 2, 16, 7, 0, 0, 0⟩,
   ⟨0x95, 1, 0x070, 4, 2, 0, 32, 0, 0, 0⟩, ⟨0x95, 1, 0x078, 4, 2, 0, 25, 0, 0, 0⟩,
   ⟨0x95, 1, 0x080, 4, 2, 0, 32, 0, 0, 0⟩, ⟨0x95, 1, 0x088, 4, 2, 0, 32, 0, 0, 0⟩,
   ⟨0x95, 1, 0x090, 4096, 1, 0, 16, 0, 0, 0⟩, ⟨0x95, 1, 0x090, 4096, 1, 16, 16, 0, 0, 0⟩,
   ⟨0x95, 1, 0x09C, 4096, 1, 0, 64, 0, 3, 0⟩, ⟨0x95, 1, 0x0A4, 4096, 1, 0, 2, 0, 3, 0⟩,
   ⟨0x95, 1, 0x0A4, 4096, 1, 2, 1, 0, 3, 0⟩, ⟨0x95, 1, 0x0A4, 4096, 1, 16, 16, 0, 3, 0⟩,
   ⟨0x95, 1, 0x0A8, 4096, 1, 0, 32, 0, 3, 0⟩, ⟨0x95, 1, 0x0AC, 4096, 1, 0, 25, 0, 3, 0⟩,
   ⟨0x95, 1, 0x0B0, 4096, 1, 0, 25, 0, 3, 0⟩, ⟨0x95, 1, 0x0B4, 4096, 1, 0, 25, 0, 3, 0⟩,
   ⟨0x95, 1, 0x0B8, 4096, 1, 0, 1, 0, 0, 0⟩, ⟨0x95, 1, 0x0BC, 4096, 1, 0, 6, 0, 0, 0⟩,
   ⟨0x95, 1, 0x0C0, 4096, 1, 0, 32, 0, 0, 0⟩, ⟨0x95, 1, 0x0C4, 4096, 1, 0, 1, 0, 0, 0⟩,
   ⟨0x95, 1, 0x0C4, 4096, 1, 24, 8, 0, 0, 0⟩, ⟨0xA8, 1, 0x040, 4096, 1, 9, 1, 0, 0, 0⟩,
   ⟨0xA8, 1, 0x044, 4096, 1, 0, 24, 0, 0, 0⟩, ⟨0xA8, 1, 0x048, 4096, 1, 0, 14, 0, 0, 0⟩,
   ⟨0xA8, 1, 0x04C, 4096, 1, 0, 24, 0, 0, 0⟩, ⟨0xA8, 1, 0x050, 4096, 1, 0, 16, 0, 0, 0⟩,
   ⟨0xA8, 1, 0x050, 4096, 1, 16, 1, 0, 0, 0⟩, ⟨0xA8, 1, 0x054, 4096, 1, 0, 24, 0, 0, 0⟩,
   ⟨0xA8, 1, 0x054, 4096, 1, 31, 1, 0, 0, 0⟩, ⟨0xA8, 1, 0x058, 4096, 1, 0, 16, 0, 0, 0⟩,
   ⟨0xA9, 2, 0x050, 4096, 1, 16, 16, 0, 0, 0⟩, ⟨0xA9, 2, 0x054, 4096, 1, 0, 1, 0, 0, 0⟩]

/-- Fields that only a read shows, part 11. -/
def readRows10 : List WriteRow :=
  [⟨0xA9, 2, 0x054, 4096, 1, 1, 1, 0, 0, 0⟩, ⟨0xA9, 2, 0x054, 4096, 1, 2, 2, 0, 0, 0⟩,
   ⟨0xA9, 2, 0x054, 4096, 1, 8, 8, 0, 0, 0⟩, ⟨0xA9, 2, 0x058, 4096, 1, 0, 64, 0, 0, 0⟩,
   ⟨0xA9, 2, 0x060, 4096, 1, 0, 3, 0, 0, 0⟩, ⟨0xA9, 2, 0x060, 4096, 1, 8, 5, 0, 0, 0⟩,
   ⟨0xA9, 2, 0x060, 4096, 1, 16, 1, 0, 0, 0⟩, ⟨0xA9, 2, 0x060, 4096, 1, 17, 1, 0, 0, 0⟩,
   ⟨0xA9, 2, 0x060, 4096, 1, 18, 1, 0, 0, 0⟩, ⟨0xA9, 2, 0x064, 4096, 1, 0, 24, 0, 0, 0⟩,
   ⟨0xA9, 2, 0x068, 4096, 1, 0, 24, 0, 0, 0⟩, ⟨0xA9, 2, 0x06C, 4096, 1, 0, 24, 0, 0, 0⟩,
   ⟨0xA9, 2, 0x070, 4096, 1, 0, 24, 0, 0, 0⟩, ⟨0xA9, 2, 0x074, 4096, 1, 0, 24, 0, 0, 0⟩,
   ⟨0xA9, 2, 0x074, 4096, 1, 24, 7, 0, 0, 0⟩, ⟨0xA9, 2, 0x078, 4096, 1, 0, 14, 0, 0, 0⟩,
   ⟨0xA9, 2, 0x078, 4096, 1, 16, 14, 0, 0, 0⟩, ⟨0xA9, 2, 0x07C, 4096, 1, 0, 16, 0, 0, 0⟩,
   ⟨0xA9, 2, 0x07C, 4096, 1, 16, 16, 0, 0, 0⟩, ⟨0xA9, 2, 0x080, 4, 4, 0, 16, 0, 0, 0⟩,
   ⟨0xA9, 2, 0x090, 4096, 1, 0, 32, 0, 0, 0⟩, ⟨0xA9, 2, 0x094, 4096, 1, 0, 8, 0, 0, 0⟩,
   ⟨0xA9, 2, 0x094, 4096, 1, 8, 8, 0, 0, 0⟩, ⟨0xA9, 2, 0x098, 4096, 1, 0, 16, 0, 0, 0⟩,
   ⟨0xA9, 2, 0x098, 4096, 1, 16, 16, 0, 0, 0⟩, ⟨0xA9, 2, 0x09C, 4096, 1, 0, 16, 0, 0, 0⟩,
   ⟨0xA9, 2, 0x09C, 4096, 1, 16, 8, 0, 0, 0⟩, ⟨0xA9, 2, 0x09C, 4096, 1, 24, 1, 0, 0, 0⟩,
   ⟨0xA9, 2, 0x0A0, 4096, 1, 0, 1, 0, 0, 0⟩, ⟨0xA9, 2, 0x0A4, 4096, 1, 0, 16, 0, 0, 0⟩,
   ⟨0xA9, 2, 0x0A4, 4096, 1, 16, 16, 0, 0, 0⟩, ⟨0xA1, 1, 0x04C, 8, 8, 0, 32, 0, 0, 0⟩,
   ⟨0xA1, 1, 0x088, 4096, 1, 0, 8, 0, 0, 0⟩, ⟨0xA1, 1, 0x088, 4096, 1, 8, 8, 0, 0, 0⟩,
   ⟨0xA1, 1, 0x088, 4096, 1, 16, 2, 0, 0, 0⟩, ⟨0xA1, 1, 0x088, 4096, 1, 24, 8, 0, 0, 0⟩,
   ⟨0xA0, 1, 0x044, 4096, 1, 16, 16, 0, 0, 0⟩, ⟨0xA0, 1, 0x048, 4096, 1, 0, 3, 0, 0, 0⟩,
   ⟨0xA0, 1, 0x048, 4096, 1, 3, 1, 0, 0, 0⟩, ⟨0xA0, 1, 0x048, 4096, 1, 4, 10, 0, 0, 0⟩]

/-- Fields that only a read shows, part 12. -/
def readRows11 : List WriteRow :=
  [⟨0xA0, 1, 0x048, 4096, 1, 14, 1, 0, 0, 0⟩, ⟨0xA0, 1, 0x048, 4096, 1, 16, 8, 0, 0, 0⟩,
   ⟨0xA0, 1, 0x048, 4096, 1, 24, 1, 0, 0, 0⟩, ⟨0xA0, 1, 0x048, 4096, 1, 25, 1, 0, 0, 0⟩,
   ⟨0xA0, 1, 0x048, 4096, 1, 26, 1, 0, 0, 0⟩, ⟨0xA0, 1, 0x04C, 4096, 1, 16, 8, 0, 0, 0⟩,
   ⟨0xA0, 1, 0x04C, 4096, 1, 24, 8, 0, 0, 0⟩, ⟨0xA0, 1, 0x050, 4096, 1, 0, 48, 0, 0, 0⟩,
   ⟨0xA0, 1, 0x078, 4096, 1, 0, 7, 0, 1, 0⟩, ⟨0xA0, 1, 0x078, 4096, 1, 8, 8, 0, 1, 0⟩,
   ⟨0xA0, 1, 0x07C, 4096, 1, 0, 16, 0, 1, 0⟩, ⟨0xA0, 1, 0x07C, 4096, 1, 16, 3, 0, 1, 0⟩,
   ⟨0xA0, 1, 0x080, 4096, 1, 0, 16, 0, 1, 0⟩, ⟨0xA0, 1, 0x080, 4096, 1, 16, 16, 0, 1, 0⟩,
   ⟨0xA0, 1, 0x084, 4096, 1, 0, 16, 0, 1, 0⟩, ⟨0xA0, 1, 0x084, 4096, 1, 16, 16, 0, 1, 0⟩,
   ⟨0xA0, 1, 0x088, 4096, 1, 0, 16, 0, 1, 0⟩, ⟨0xA0, 1, 0x088, 4096, 1, 16, 16, 0, 1, 0⟩,
   ⟨0xA0, 1, 0x08C, 4096, 1, 0, 1, 0, 0, 0⟩, ⟨0xA0, 1, 0x08C, 4096, 1, 1, 1, 0, 0, 0⟩,
   ⟨0xA0, 1, 0x090, 4096, 1, 0, 5, 0, 0, 0⟩, ⟨0xA0, 1, 0x090, 4096, 1, 8, 3, 0, 0, 0⟩,
   ⟨0xA0, 1, 0x094, 4096, 1, 0, 32, 0, 0, 0⟩, ⟨0xA0, 1, 0x098, 4096, 1, 0, 1, 0, 0, 1⟩,
   ⟨0xA0, 1, 0x098, 4096, 1, 8, 8, 0, 0, 0⟩, ⟨0xA0, 1, 0x098, 4096, 1, 16, 8, 0, 0, 0⟩,
   ⟨0xA0, 1, 0x098, 4096, 1, 24, 8, 0, 0, 0⟩, ⟨0xA0, 1, 0x09C, 4096, 1, 0, 16, 0, 0, 0⟩,
   ⟨0xD8, 1, 0x04C, 4096, 1, 0, 3, 0, 0, 0⟩, ⟨0xD8, 1, 0x04C, 4096, 1, 3, 3, 0, 0, 0⟩,
   ⟨0xD8, 1, 0x04C, 4096, 1, 8, 8, 0, 0, 0⟩, ⟨0xD8, 1, 0x050, 4096, 1, 0, 32, 0, 0, 1⟩,
   ⟨0xD8, 1, 0x054, 4096, 1, 0, 16, 0, 0, 0⟩, ⟨0xD8, 1, 0x054, 4096, 1, 16, 16, 0, 0, 0⟩,
   ⟨0xD8, 1, 0x058, 4096, 1, 0, 32, 0, 0, 0⟩, ⟨0xD8, 1, 0x05C, 4096, 1, 0, 32, 0, 0, 0⟩,
   ⟨0xD8, 1, 0x060, 4096, 1, 0, 8, 0, 0, 0⟩, ⟨0xD8, 1, 0x060, 4096, 1, 8, 16, 0, 0, 0⟩,
   ⟨0xD8, 1, 0x064, 4096, 1, 0, 16, 0, 0, 0⟩, ⟨0xD8, 1, 0x068, 4096, 1, 0, 2, 0, 0, 0⟩]

/-- Fields that only a read shows, part 13. -/
def readRows12 : List WriteRow :=
  [⟨0xD8, 1, 0x068, 4096, 1, 4, 4, 0, 0, 0⟩, ⟨0xD8, 1, 0x068, 4096, 1, 8, 3, 0, 0, 0⟩,
   ⟨0xD8, 1, 0x068, 4096, 1, 16, 16, 0, 0, 0⟩, ⟨0xD8, 1, 0x070, 4, 6, 0, 16, 0, 0, 0⟩,
   ⟨0xD8, 1, 0x070, 4, 6, 16, 16, 0, 0, 0⟩, ⟨0xE0, 1, 0x040, 4096, 1, 0, 1, 0, 0, 0⟩,
   ⟨0xE0, 1, 0x040, 4096, 1, 1, 1, 0, 0, 0⟩, ⟨0xE0, 1, 0x040, 4096, 1, 2, 1, 0, 0, 0⟩,
   ⟨0xE0, 1, 0x044, 4096, 1, 0, 1, 0, 0, 0⟩, ⟨0xE0, 1, 0x044, 4096, 1, 1, 1, 0, 0, 0⟩,
   ⟨0xE0, 1, 0x044, 4096, 1, 4, 3, 0, 0, 0⟩, ⟨0xE0, 1, 0x044, 4096, 1, 8, 8, 0, 0, 0⟩,
   ⟨0xE0, 1, 0x044, 4096, 1, 16, 16, 0, 0, 0⟩, ⟨0xE0, 1, 0x048, 4096, 1, 0, 2, 0, 0, 0⟩,
   ⟨0xE0, 1, 0x048, 4096, 1, 2, 2, 0, 0, 0⟩, ⟨0xE0, 1, 0x048, 4096, 1, 4, 1, 0, 0, 0⟩,
   ⟨0xE0, 1, 0x048, 4096, 1, 8, 4, 0, 0, 0⟩, ⟨0xE0, 1, 0x048, 4096, 1, 16, 8, 0, 0, 0⟩,
   ⟨0xE0, 1, 0x048, 4096, 1, 24, 8, 0, 0, 0⟩, ⟨0xE0, 1, 0x04C, 4096, 1, 0, 40, 0, 0, 0⟩,
   ⟨0xE0, 1, 0x054, 4096, 1, 0, 32, 0, 0, 0⟩, ⟨0xE0, 1, 0x058, 4096, 1, 0, 12, 0, 0, 0⟩,
   ⟨0xE0, 1, 0x058, 4096, 1, 12, 1, 0, 0, 0⟩, ⟨0xE0, 1, 0x064, 4096, 1, 0, 3, 0, 0, 0⟩,
   ⟨0xE0, 1, 0x064, 4096, 1, 16, 16, 0, 0, 0⟩, ⟨0xE0, 1, 0x068, 4096, 1, 0, 16, 0, 0, 0⟩,
   ⟨0xE0, 1, 0x068, 4096, 1, 16, 16, 0, 0, 0⟩, ⟨0xC0, 1, 0x040, 4096, 1, 16, 1, 0, 0, 0⟩,
   ⟨0xC0, 1, 0x040, 4096, 1, 17, 1, 0, 0, 0⟩, ⟨0xC0, 1, 0x044, 4096, 1, 0, 2, 0, 0, 0⟩,
   ⟨0xC0, 1, 0x044, 4096, 1, 2, 3, 0, 0, 0⟩, ⟨0xC0, 1, 0x044, 4096, 1, 5, 1, 0, 0, 0⟩,
   ⟨0xC0, 1, 0x044, 4096, 1, 6, 1, 0, 0, 0⟩, ⟨0xC0, 1, 0x044, 4096, 1, 7, 1, 0, 0, 1⟩,
   ⟨0xC0, 1, 0x044, 4096, 1, 8, 1, 0, 0, 0⟩, ⟨0xC0, 1, 0x044, 4096, 1, 16, 8, 0, 0, 0⟩,
   ⟨0xC0, 1, 0x044, 4096, 1, 24, 8, 0, 0, 0⟩, ⟨0xC0, 1, 0x048, 4096, 1, 0, 12, 0, 0, 0⟩,
   ⟨0xC0, 1, 0x060, 4096, 1, 0, 5, 0, 0, 0⟩, ⟨0xC0, 1, 0x060, 4096, 1, 5, 1, 0, 0, 0⟩]

/-- Fields that only a read shows, part 14. -/
def readRows13 : List WriteRow :=
  [⟨0xC0, 1, 0x060, 4096, 1, 16, 16, 0, 0, 0⟩, ⟨0xC0, 1, 0x064, 4096, 1, 0, 16, 0, 0, 0⟩,
   ⟨0xC0, 1, 0x064, 4096, 1, 16, 16, 0, 0, 0⟩, ⟨0xC0, 1, 0x068, 4096, 1, 0, 32, 0, 0, 0⟩,
   ⟨0xC0, 1, 0x06C, 4096, 1, 0, 16, 0, 0, 0⟩, ⟨0xC0, 1, 0x06C, 4096, 1, 16, 16, 0, 0, 0⟩,
   ⟨0xC0, 1, 0x070, 4096, 1, 0, 32, 0, 0, 0⟩, ⟨0xC0, 1, 0x074, 4096, 1, 0, 8, 0, 0, 0⟩,
   ⟨0xC0, 1, 0x074, 4096, 1, 8, 8, 0, 0, 0⟩, ⟨0xC0, 1, 0x074, 4096, 1, 16, 8, 0, 0, 0⟩,
   ⟨0xC0, 1, 0x074, 4096, 1, 24, 8, 0, 0, 0⟩, ⟨0xC0, 1, 0x078, 4096, 1, 0, 8, 0, 0, 0⟩,
   ⟨0xC0, 1, 0x078, 4096, 1, 8, 5, 0, 0, 0⟩, ⟨0xC0, 1, 0x080, 4, 8, 0, 32, 0, 0, 0⟩,
   ⟨0xC0, 1, 0x0A0, 4, 8, 0, 32, 0, 0, 0⟩, ⟨0xC0, 1, 0x0C0, 4, 8, 0, 32, 0, 0, 0⟩,
   ⟨0xC1, 1, 0x040, 4096, 1, 0, 1, 0, 0, 0⟩, ⟨0xC1, 1, 0x040, 4096, 1, 1, 1, 0, 0, 0⟩,
   ⟨0xC1, 1, 0x040, 4096, 1, 16, 16, 0, 0, 0⟩, ⟨0xC8, 1, 0x040, 4096, 1, 0, 1, 0, 0, 0⟩,
   ⟨0xC8, 1, 0x044, 4096, 1, 0, 32, 0, 0, 1⟩, ⟨0xC8, 1, 0x048, 4096, 1, 0, 32, 0, 0, 0⟩,
   ⟨0xC8, 1, 0x04C, 4096, 1, 0, 13, 0, 0, 0⟩, ⟨0xC8, 1, 0x054, 4096, 1, 0, 32, 0, 0, 0⟩,
   ⟨0xC8, 1, 0x058, 4096, 1, 0, 64, 0, 0, 0⟩, ⟨0xC9, 1, 0x040, 4096, 1, 0, 1, 0, 0, 0⟩,
   ⟨0xC9, 1, 0x040, 4096, 1, 1, 1, 0, 0, 0⟩, ⟨0xC9, 1, 0x044, 4096, 1, 0, 1, 0, 0, 0⟩,
   ⟨0xC9, 1, 0x044, 4096, 1, 1, 2, 0, 0, 0⟩, ⟨0xC9, 1, 0x044, 4096, 1, 16, 16, 0, 0, 0⟩,
   ⟨0xC9, 1, 0x048, 4096, 1, 0, 10, 0, 0, 0⟩, ⟨0xC9, 1, 0x048, 4096, 1, 16, 9, 0, 0, 0⟩,
   ⟨0xC9, 1, 0x04C, 4096, 1, 0, 32, 0, 0, 0⟩, ⟨0xC9, 1, 0x050, 4096, 1, 0, 40, 0, 0, 0⟩,
   ⟨0xC9, 1, 0x058, 4096, 1, 0, 32, 0, 0, 0⟩, ⟨0xC9, 1, 0x060, 4096, 1, 0, 16, 0, 0, 0⟩,
   ⟨0xC9, 1, 0x060, 4096, 1, 16, 1, 0, 0, 0⟩, ⟨0xC9, 1, 0x064, 4096, 1, 0, 32, 0, 0, 0⟩,
   ⟨0xC9, 1, 0x068, 4096, 1, 0, 32, 0, 0, 0⟩, ⟨0xC9, 1, 0x06C, 4096, 1, 0, 16, 0, 0, 0⟩]

/-- Fields that only a read shows, part 15. -/
def readRows14 : List WriteRow :=
  [⟨0xC9, 1, 0x070, 4096, 1, 0, 32, 0, 0, 0⟩, ⟨0xC9, 1, 0x074, 4096, 1, 0, 32, 0, 0, 0⟩,
   ⟨0xB8, 1, 0x044, 4096, 1, 0, 1, 0, 0, 0⟩, ⟨0xB8, 1, 0x044, 4096, 1, 1, 2, 0, 0, 0⟩,
   ⟨0xB8, 1, 0x044, 4096, 1, 3, 1, 0, 0, 0⟩, ⟨0xB8, 1, 0x048, 4096, 1, 0, 8, 0, 0, 0⟩,
   ⟨0xB8, 1, 0x048, 4096, 1, 8, 8, 0, 0, 0⟩, ⟨0xB8, 1, 0x048, 4096, 1, 16, 8, 0, 0, 0⟩,
   ⟨0xB8, 1, 0x04C, 4096, 1, 0, 16, 0, 0, 0⟩, ⟨0xB8, 1, 0x050, 4096, 1, 0, 16, 0, 0, 0⟩,
   ⟨0xB8, 1, 0x054, 4096, 1, 0, 32, 0, 0, 0⟩, ⟨0xB8, 1, 0x05C, 4096, 1, 0, 16, 0, 5, 0⟩,
   ⟨0xB8, 1, 0x05C, 4096, 1, 16, 16, 0, 5, 0⟩, ⟨0xB8, 1, 0x060, 4096, 1, 0, 2, 0, 5, 0⟩,
   ⟨0xB8, 1, 0x060, 4096, 1, 2, 1, 0, 5, 0⟩, ⟨0xB8, 1, 0x060, 4096, 1, 3, 1, 0, 5, 0⟩,
   ⟨0xB8, 1, 0x068, 4096, 1, 0, 2, 0, 6, 0⟩, ⟨0xB8, 1, 0x068, 4096, 1, 4, 4, 0, 6, 0⟩,
   ⟨0xB8, 1, 0x068, 4096, 1, 8, 4, 0, 6, 0⟩, ⟨0xB8, 1, 0x068, 4096, 1, 12, 1, 0, 6, 0⟩,
   ⟨0xB8, 1, 0x068, 4096, 1, 13, 1, 0, 6, 0⟩, ⟨0xB8, 1, 0x068, 4096, 1, 16, 10, 0, 6, 0⟩,
   ⟨0xB8, 1, 0x06C, 4, 4, 0, 16, 0, 6, 0⟩, ⟨0xB8, 1, 0x07C, 4096, 1, 0, 16, 0, 0, 0⟩,
   ⟨0xB8, 1, 0x07C, 4096, 1, 16, 16, 0, 0, 0⟩, ⟨0xB8, 1, 0x080, 4096, 1, 0, 16, 0, 0, 0⟩,
   ⟨0xB9, 1, 0x040, 4096, 1, 8, 1, 0, 0, 0⟩, ⟨0xB9, 1, 0x040, 4096, 1, 10, 1, 0, 0, 0⟩,
   ⟨0xB9, 1, 0x044, 4096, 1, 0, 1, 0, 0, 0⟩, ⟨0xB9, 1, 0x044, 4096, 1, 3, 1, 0, 0, 0⟩,
   ⟨0xB9, 1, 0x044, 4096, 1, 4, 2, 0, 0, 0⟩, ⟨0xB9, 1, 0x044, 4096, 1, 6, 1, 0, 0, 0⟩,
   ⟨0xB9, 1, 0x044, 4096, 1, 8, 3, 0, 0, 0⟩, ⟨0xB9, 1, 0x048, 4096, 1, 0, 24, 0, 0, 0⟩,
   ⟨0xB9, 1, 0x04C, 4096, 1, 0, 16, 0, 0, 0⟩, ⟨0xB9, 1, 0x04C, 4096, 1, 16, 16, 0, 0, 0⟩,
   ⟨0xB9, 1, 0x050, 4096, 1, 0, 32, 0, 0, 0⟩, ⟨0xB9, 1, 0x054, 8, 3, 0, 20, 0, 0, 0⟩,
   ⟨0xB9, 1, 0x058, 8, 3, 0, 16, 0, 0, 0⟩, ⟨0xB9, 1, 0x06C, 4096, 1, 0, 2, 0, 0, 0⟩]

/-- Fields that only a read shows, part 16. -/
def readRows15 : List WriteRow :=
  [⟨0xB9, 1, 0x06C, 4096, 1, 2, 1, 0, 0, 0⟩, ⟨0xB9, 1, 0x06C, 4096, 1, 3, 1, 0, 0, 0⟩,
   ⟨0xB9, 1, 0x070, 4096, 1, 0, 24, 0, 0, 0⟩, ⟨0xD0, 1, 0x040, 4096, 1, 0, 16, 0, 0, 0⟩,
   ⟨0xD0, 1, 0x044, 4096, 1, 0, 8, 0, 0, 0⟩, ⟨0xD0, 1, 0x048, 4096, 1, 0, 25, 0, 0, 0⟩,
   ⟨0xD0, 1, 0x04C, 4096, 1, 0, 64, 0, 0, 0⟩, ⟨0xD0, 1, 0x054, 4096, 1, 0, 1, 0, 0, 0⟩,
   ⟨0xD0, 1, 0x054, 4096, 1, 1, 1, 0, 0, 0⟩, ⟨0xD0, 1, 0x054, 4096, 1, 2, 1, 0, 0, 0⟩,
   ⟨0xD0, 1, 0x054, 4096, 1, 8, 3, 0, 0, 0⟩, ⟨0xD0, 1, 0x058, 4096, 1, 0, 16, 0, 0, 0⟩,
   ⟨0xD0, 1, 0x058, 4096, 1, 16, 16, 0, 0, 0⟩, ⟨0xD0, 1, 0x05C, 4096, 1, 0, 16, 0, 0, 0⟩,
   ⟨0xD0, 1, 0x060, 4096, 1, 0, 1, 0, 0, 0⟩, ⟨0xD0, 1, 0x060, 4096, 1, 1, 12, 0, 0, 0⟩,
   ⟨0xD0, 1, 0x060, 4096, 1, 16, 16, 0, 0, 0⟩, ⟨0xD0, 1, 0x064, 4096, 1, 0, 16, 0, 0, 0⟩,
   ⟨0xD0, 1, 0x068, 4096, 1, 0, 32, 0, 0, 0⟩, ⟨0xD1, 1, 0x044, 4096, 1, 0, 3, 0, 0, 0⟩,
   ⟨0xD1, 1, 0x044, 4096, 1, 4, 3, 0, 0, 0⟩, ⟨0xD1, 1, 0x044, 4096, 1, 7, 1, 0, 0, 0⟩,
   ⟨0xD1, 1, 0x044, 4096, 1, 8, 1, 0, 0, 0⟩, ⟨0xD1, 1, 0x044, 4096, 1, 9, 3, 0, 0, 0⟩,
   ⟨0xD1, 1, 0x044, 4096, 1, 12, 1, 0, 0, 0⟩, ⟨0xD1, 1, 0x048, 4096, 1, 0, 24, 0, 0, 0⟩,
   ⟨0xD1, 1, 0x04C, 4096, 1, 0, 24, 0, 0, 0⟩, ⟨0xD1, 1, 0x050, 4096, 1, 0, 32, 0, 0, 0⟩,
   ⟨0xD1, 1, 0x054, 4096, 1, 0, 17, 0, 0, 0⟩, ⟨0xD1, 1, 0x058, 4096, 1, 0, 8, 0, 0, 0⟩,
   ⟨0xD1, 1, 0x05C, 4096, 1, 0, 16, 0, 0, 0⟩, ⟨0xD1, 1, 0x05C, 4096, 1, 16, 16, 0, 0, 0⟩,
   ⟨0xD1, 1, 0x060, 4096, 1, 0, 16, 0, 0, 0⟩, ⟨0xD1, 1, 0x060, 4096, 1, 16, 1, 0, 0, 0⟩,
   ⟨0xD1, 1, 0x060, 4096, 1, 17, 1, 0, 0, 0⟩, ⟨0xD1, 1, 0x064, 4096, 1, 0, 16, 0, 0, 0⟩,
   ⟨0xD1, 1, 0x064, 4096, 1, 16, 16, 0, 0, 0⟩, ⟨0xD1, 1, 0x068, 4096, 1, 0, 6, 0, 0, 0⟩,
   ⟨0xD1, 1, 0x06C, 4096, 1, 0, 8, 0, 0, 0⟩, ⟨0xD1, 1, 0x06C, 4096, 1, 8, 8, 0, 0, 0⟩]

/-- Fields that only a read shows, part 17. -/
def readRows16 : List WriteRow :=
  [⟨0xD1, 1, 0x070, 4096, 1, 0, 4, 0, 0, 0⟩, ⟨0xD1, 1, 0x070, 4096, 1, 8, 3, 0, 0, 0⟩]

/-- Fields that a read shows and `REGISTER_WRITE` does not write. -/
def readRows : List WriteRow :=
  readRows0 ++ readRows1 ++ readRows2 ++ readRows3 ++ readRows4 ++ readRows5 ++ readRows6 ++ readRows7 ++ readRows8 ++
    readRows9 ++ readRows10 ++ readRows11 ++ readRows12 ++ readRows13 ++ readRows14 ++ readRows15 ++ readRows16

/-- Every field of the register tables. -/
def allRows : List WriteRow := writeRows ++ readRows

end Sys2Proof.Machine
end

