-- ==== Sys2Proof/Machine/PageRegs.lean ====
section
/-!
DEFINITION. Machine/PageRegs.lean: register words as fields (R57, R58), staged values (R65, R548, R549), what follows when a
field takes a new value, and what a commit checks and applies (R65, R178, R351, R352, R422, R550).
-/

namespace Sys2Proof.Machine

open Sys2Proof

/-! ### Words and fields -/

/-- The row is about the page. -/
def WriteRow.on (r : WriteRow) (page : Nat) : Bool := decide (r.page ≤ page) && decide (page < r.page + r.pages)

/-- Member `i` of a row's array on a page. -/
def WriteRow.fld (r : WriteRow) (page i idx : Nat) : Fld :=
  { page := page, off := r.off + i * r.stride, lsb := r.lsb, width := r.width, reset := r.reset, idx := idx }

/-- The first bit of a field, counted from the start of its page. -/
def Fld.start (f : Fld) : Nat := 8 * f.off + f.lsb

/-- The index that a windowed field has now: the page's select register, or the requester; `CMP_SEL` 3 is treated as 2. -/
def State.winIdx (s : State) (who : Requester) (win : Nat) : Nat :=
  match win with
  | 0 => 0
  | 1 => s.rd R.SEQ_RAIL_SEL
  | 2 => s.rd R.RCK_RANGE_SEL
  | 3 => s.rd R.RCK_GUEST_SEL
  | 5 => s.rd R.MON_IN_SEL
  | 6 => min 2 (s.rd R.MON_CMP_SEL)
  | 7 => s.rd R.DFS_ROUTE_SEL
  | _ => who.idx

/-- The fields of a table that `bits` bits from byte `off` of a page meet. -/
def State.fieldsAt (s : State) (rows : List WriteRow) (who : Requester) (page off bits : Nat) : List (WriteRow × Fld) :=
  ((rows.filter (fun r => r.on page)).map (fun r =>
    ((List.range r.n).map (fun i => (r, r.fld page i (s.winIdx who r.win)))).filter (fun (e : WriteRow × Fld) =>
      decide (e.2.start < 8 * off + bits) && decide (8 * off < e.2.start + e.2.width)))).flatten

/-- The value that a field reads: the one last written and not discarded (R65). -/
def State.shown (s : State) (f : Fld) : Nat :=
  match s.staged.get f.key with
  | 0 => s.rd f
  | n + 1 => n

/-- The word at byte `off` of a page, its fields taken from a table. -/
def State.word (s : State) (rows : List WriteRow) (who : Requester) (page off : Nat) : Nat :=
  (s.fieldsAt rows who page off 32).foldl (fun w e =>
    w ||| (if 8 * off ≤ e.2.start then s.shown e.2 <<< (e.2.start - 8 * off) else s.shown e.2 >>> (8 * off - e.2.start)) % 2 ^ 32) 0

/-- A field's value with the bits that `v`, `bits` wide from byte `off`, covers replaced. -/
def Fld.merge (f : Fld) (old off bits v : Nat) : Nat :=
  let lo := max f.start (8 * off)
  let hi := min (f.start + f.width) (8 * off + bits)
  let at0 := lo - f.start
  let len := hi - lo
  old % 2 ^ at0 + (v >>> (lo - 8 * off)) % 2 ^ len * 2 ^ at0 + (old >>> (at0 + len)) * 2 ^ (at0 + len)

/-! ### Blocks -/

/-- The block is disabled: `ENABLE` and `RUNNING` both read 0 (R64). -/
def State.blockOff (s : State) (page : Nat) : Bool := !s.flag (R.ENABLE page) && !s.flag (R.RUNNING page)

/-- A DMC page whose channel is used. -/
def State.usedDmc (s : State) (page : Nat) : Bool :=
  decide (0x20 ≤ page) && decide (page ≤ 0x2F) && s.bit R.CAP_DMC_POPULATED (page - 0x20)

/-- R550 governs the page's H fields. -/
def State.guarded (s : State) (page : Nat) : Bool := kindF page || kindK page || s.usedDmc page

/-- The page's chapter names a safe point that is not immediate; `PWR`'s is at once in P0. -/
def State.waitsSafe (s : State) (page : Nat) : Bool :=
  [0x10, 0x11, 0x30, 0x43, 0x70, 0x80, 0x90, 0x95, 0xA0, 0xA1, 0xA8, 0xA9, 0xAA, 0xB0, 0xB8, 0xB9, 0xC0, 0xC9, 0xD0].contains page ||
    (decide (0x20 ≤ page) && decide (page ≤ 0x2F)) || (decide (0x50 ≤ page) && decide (page ≤ 0x6F)) ||
    (decide (0x91 ≤ page) && decide (page ≤ 0x94)) || (page == 0xD8 && s.rd R.PWR_STAT_STATE != 0)

/-! ### What follows from a new value -/

/-- The bulk steep follows `BULK_EN` (R277, Table 09-2). -/
def State.followBulk (s : State) : State :=
  if s.flag R.STP_CTRL_BULK_EN then s.bulkBegin
  else if s.rd R.STP_STAT_PHASE = 3 then (s.wr R.STP_STAT_PHASE 2).wr R.STP_STAT_BULK_RUN 0
  else s

/-- A Daluf port follows `HR_EN`, `PH_TX` and `COST_ADD` (R319, R321, R331); `tx` tells that `PH_TX` has been written. -/
def State.followDlp (s old : State) (n : Nat) (tx : Bool) : State :=
  let s := s.cond tx (fun s => s.setDport n { s.dport n with overcurrents := 0, feedOff := false })
  let s := s.showFeed n
  let s := s.cond (!s.flag (R.DLP_CTRL_HR_EN n) && s.dlp n == 4) (fun s => s.portFall n 2)
  s.cond (s.rd (R.DLP_CTRL_COST_ADD n) != old.rd (R.DLP_CTRL_COST_ADD n) && s.dlp n == 4) (fun s =>
    (s.wr (R.DLP_COST n) (s.portCost n (s.rd (R.DLP_STAT_LANES n)))).adjacency)

/-- What a write to a page, or a commit, lets follow at once: registers that show a selection, and engines that a control
starts or stops. `old` is the state before; `off` and `bits` tell what was written, `bits` = 0 that the page is at its safe
point, which for `PHS` is the boundary at which a change of source takes effect. -/
def State.follow (s old : State) (page off bits : Nat) : State :=
  let hit := fun (f : Fld) => decide (f.start < 8 * off + bits) && decide (8 * off < f.start + f.width)
  if page = 0x10 ∨ page = 0x11 then s.dirtyLoad (page - 0x10)
  else if page = 0x41 then
    s.cond (s.rd R.WTH_WEAR_CTRL_LIFE_DAYS != old.rd R.WTH_WEAR_CTRL_LIFE_DAYS) State.wearAllow
  else if page = 0x43 then s.followBulk
  else if 0x20 ≤ page ∧ page ≤ 0x2F then
    let c := page - 0x20
    (s.cond (hit (R.DMC_PATROL_HOURS c) && s.rd (R.DMC_PATROL_HOURS c) == 0) (fun s => s.warning page)).wr (R.DMC_PATROL_STEP c)
      (s.patrolStep c)
  else if page = 0x30 then s.showPool
  else if page = 0x42 ∨ page = 0xA0 then s.armComparators
  else if page = 0x90 then
    ((s.showRoute).showColl).cond (s.rd R.DFS_GROUP != old.rd R.DFS_GROUP) State.announce
  else if 0x91 ≤ page ∧ page ≤ 0x94 then s.followDlp old (page - 0x91) (hit (R.DLP_CTRL_PH_TX (page - 0x91)))
  else if page = 0xA8 then s.gaugeShow
  else if page = 0xA9 ∨ page = 0xAA then
    let p := page - 0xA9
    let s := s.cond (hit (R.PK_CHG_CTRL_CHG_EN p) && s.flag (R.PK_CHG_CTRL_CHG_EN p)) (fun s =>
      s.setPack p { s.pack p with chgLatched := false })
    s.chargeCheck p
  else if page = 0xB0 then
    s.cond (bits == 0) (fun s => s.setSource (s.flag R.PHS_STAT_SRC || s.pseudoForced || !s.flag R.PHS_STAT_LOCKED))
  else if page = 0xC8 then s.showTlog
  else if page = 0xC9 then s.showRec
  else if page = 0xD8 then s.showRest
  else s

/-! ### Writes by change class (R9, R64, R65, R549, R550) -/

/-- A rejected H write sets `CFG_REJECT` and logs a notice (R9). -/
def State.rejectH (s : State) (page : Nat) : State := (s.reject page).notice page

/-- Usable slots of a spare pool of divisor `div` (R119): its first 1/512 holds the retire table. -/
def State.usableSlots (s : State) (div : Nat) : Nat := poolOf (s.rd R.CAP_DRAM) div - poolOf (s.rd R.CAP_DRAM) div / 512

/-- A value that the device refuses although the class admits the write: `POOL_DIV` with too few slots (R133). -/
def State.refusedValue (s : State) (f : Fld) (v : Nat) : Bool :=
  f.key == R.DRS_CTRL_POOL_DIV.key && decide (s.usableSlots v < s.rd R.DRS_POOL_USED)

/-- A field whose writes the variant ignores: `GUEST_GIB` without racking. -/
def State.ignoredField (s : State) (f : Fld) : Bool := f.key == R.CEL_GUEST_CTRL.key && !s.variant.fabric

/-- A field takes a value at once: no older value of it waits any more (R8, R9, R65). -/
def State.putNow (s : State) (f : Fld) (v : Nat) : State := { s.wr f v with staged := s.staged.set f.key 0 }

/-- One field of a write takes value `v`. -/
def State.writeField (s : State) (page : Nat) (r : WriteRow) (f : Fld) (v : Nat) : State :=
  if s.ignoredField f then s
  else if r.cls = 0 then s.wr f v
  else if v = s.shown f then s
  else if s.refusedValue f v then s.reject page
  else if r.cls = 1 then
    if s.flag (R.COMMIT_PENDING page) then s.reject page
    else if s.blockOff page then s.putNow f v
    else { s with staged := s.staged.set f.key (v + 1) }
  else if s.guarded page then
    if s.maint.isOpen = false then s.rejectH page
    else if s.waitsSafe page && !s.blockOff page then { s with staged := s.staged.set f.key (v + 1) }
    else s.putNow f v
  else if s.blockOff page then s.putNow f v
  else s.rejectH page

/-- `FLT_SEV` as it stores a written word: no severity below a fixed minimum, bits without a fault at 0 (R59). -/
def sevStored (page v : Nat) : Nat :=
  match pageFirstSrc page with
  | none => 0
  | some (f, l) => ((List.range (min 16 (l + 1 - f))).map (fun b => max (minSev (f + b)) (v / 4 ^ b % 4) * 4 ^ b)).sum

/-- A word of the header: `CFG_REJECT` clears and `FLT_MASK` is written whether or not the page is locked; `FLT_SEV` obeys the
lock (R70). The other header fields have commands of their own. -/
def State.writeHeader (s : State) (page off v : Nat) : State :=
  if s.lockHolds page ∧ maintOnly page then s.reject page
  else if off = 0x00C then s.cond (v.testBit 2) (fun s => s.wr (R.CFG_REJECT page) 0)
  else if off = 0x014 then s.wr (R.FLT_MASK page) v
  else if off = 0x01C then (if s.lockHolds page then s.reject page else s.wr (R.FLT_SEV page) (sevStored page v))
  else s

/-- One byte of `FRT.REACT_w`: the entry of a source, its fixed minimum always set; entries of reserved sources stay 0
(R466). -/
def State.reactByte (s : State) (src b : Nat) : State :=
  if namedSources.contains src = false then s
  else
    let v := b % 16 ||| minAct src
    (({ s with safe := { s.safe with react := s.safe.react.set src (v ^^^ minAct src), reactCopies := 1 } }).inc R.FRT_STAT_CHANGES)

/-- A word of `FRT` or of `SAF.INJ_SEEN_w`. -/
def State.writeSpecial (s : State) (page off v : Nat) : State :=
  if page = 0xC1 ∧ 0x100 ≤ off ∧ off < 0x200 then
    if s.lockHolds page then s.reject page
    else s.each 4 (fun s j => s.reactByte (off - 0x100 + j) (v / 256 ^ j % 256))
  else if page = 0xC0 ∧ 0x0A0 ≤ off ∧ off < 0x0C0 then
    if s.lockHolds page then s.reject page
    else
      let f := R.SAF_INJ_SEEN ((off - 0x0A0) / 4)
      s.wr f (s.rd f &&& (v ^^^ (2 ^ 32 - 1)))
  else s

/-- A write to the `CFL` page other than a command's: it ends an open sequence of the host, and so does an opcode that is none
(R507). -/
def State.flashWrite (s : State) (off v : Nat) : State :=
  let seqOpen := (s.flashSeq false).step != 0
  let mine := decide (0x040 ≤ off) && decide (off < 0x054)
  let badOp := off == 0x044 && s.maint.isOpen && !([1, 2, 3, 15].contains (v % 256))
  if mine && !s.maint.isOpen then s.reject 0xD0 else s.cond (seqOpen && (!mine || badOp)) (fun s => s.breakSeq false)

/-- An accepted write of `size` bytes, 4 or 8, at byte `off` of a page. -/
def State.writeWord (s : State) (who : Requester) (page off size v : Nat) : State :=
  let old := s
  let fs := s.fieldsAt writeRows who page off (8 * size)
  let s := s.each (size / 4) (fun s i =>
    let w := v / 2 ^ (32 * i) % 2 ^ 32
    (s.writeHeader page (off + 4 * i) w).writeSpecial page (off + 4 * i) w)
  let s := s.cond (page == 0xD0) (fun s => s.flashWrite off v)
  if fs.isEmpty then s
  else if s.lockHolds page then s.reject page
  else
    let s := fs.foldl (fun s e => s.writeField page e.1 e.2 (e.2.merge (s.shown e.2) off (8 * size) v)) s
    s.follow old page off (8 * size)

/-! ### Commits -/

/-- The writable field of a key. -/
def fieldOfKey (k : Nat) : Option (WriteRow × Fld) :=
  let page := keyPage k
  let off := keyOff k
  (writeRows.find? (fun r => r.on page && r.lsb == keyLsb k && decide (r.off ≤ off) && (off - r.off) % r.stride == 0 &&
    decide ((off - r.off) / r.stride < r.n))).map (fun r => (r, r.fld page ((off - r.off) / r.stride) (k % 4096)))

/-- The waiting values of a page: row, field and value. -/
def State.waiting (s : State) (page : Nat) : List (WriteRow × Fld × Nat) :=
  (s.staged.filter (fun e => keyPage e.1 == page)).filterMap (fun e =>
    (fieldOfKey e.1).map (fun (x : WriteRow × Fld) => (x.1, x.2, e.2 - 1)))

/-- The waiting values for which `p` holds take effect, and wait no more. -/
def State.applyWaiting (s : State) (page : Nat) (p : WriteRow → Bool) : State :=
  ((s.waiting page).filter (fun (e : WriteRow × Fld × Nat) => p e.1)).foldl (fun s e =>
    { s.wr e.2.1 e.2.2 with staged := s.staged.set e.2.1.key 0 }) s

/-- The waiting values for which `p` holds are discarded. -/
def State.dropWaiting (s : State) (page : Nat) (p : WriteRow → Bool) : State :=
  ((s.waiting page).filter (fun (e : WriteRow × Fld × Nat) => p e.1)).foldl (fun s e =>
    { s with staged := s.staged.set e.2.1.key 0 }) s

/-- The row is of class S. -/
def WriteRow.isS (r : WriteRow) : Bool := r.cls == 1
/-- The row is of class H. -/
def WriteRow.isH (r : WriteRow) : Bool := r.cls == 2

/-! ### RCK: R351 and R352 -/

/-- The range set as the registers read: base, size and target mask of the ranges in use. -/
def State.shownRanges (s : State) : List (Nat × Nat × Nat) :=
  ((List.range 64).map (fun i => (s.shown (R.RCK_RANGE_BASE i), s.shown (R.RCK_RANGE_SIZE i), s.shown (R.RCK_RANGE_TGT i)))).filter
    (fun (r : Nat × Nat × Nat) => r.2.1 != 0)

/-- No two of the ranges overlap. -/
def disjointRanges : List (Nat × Nat × Nat) → Bool
  | [] => true
  | r :: t => t.all (fun (q : Nat × Nat × Nat) => decide (r.1 + r.2.1 ≤ q.1) || decide (q.1 + q.2.1 ≤ r.1)) && disjointRanges t

/-- The check of R351. -/
def State.rangesOk (s : State) : Bool :=
  let rs := s.shownRanges
  let t0 := s.shown R.RCK_TGT0
  let t1 := s.shown R.RCK_TGT1
  let own := s.rd R.ID_EUI
  disjointRanges rs && rs.all (fun (r : Nat × Nat × Nat) => decide ((r.1 + r.2.1) * granulesPerRegion ≤ s.decodable)) &&
    rs.all (fun (r : Nat × Nat × Nat) => !(r.2.2.testBit 0 && t0 == 0) && !(r.2.2.testBit 1 && t1 == 0)) &&
    !(t0 != 0 && t0 == t1) && !(t0 != 0 && t0 == own) && !(t1 != 0 && t1 == own)

/-- A target after a new range set: `old` had EUI `eui` and the regions `had` (R352, Table 12-3). -/
def State.retarget (s : State) (t eui gen : Nat) (had : RSet) : State :=
  let now := rangeSet (s.rangesOf t)
  if s.tgt t ≠ eui then
    let s := (s.abandonSends t).setDebt t now
    let s := s.cond (eui != 0 && s.reachable eui) (fun s => s.rackTo eui 5 12 0 0 (.rRelease (s.rd R.ID_EUI) gen))
    let s := if t = 0 then { s with racking := { s.racking with genDue0 := true } }
      else { s with racking := { s.racking with genDue1 := true } }
    if s.tgt t = 0 then ((s.setDebt t []).wr (R.RCK_TGT_STAT_STATE t) 0).rackSettle else s.openTarget t
  else if now = had then s
  else
    let gone := RSet.diff had now
    let s := s.setDebt t ((RSet.diff (s.debt t) gone).union (RSet.diff now had))
    let s := s.setSends (s.racking.sends.filter (fun e => !(e.target == t && gone.has e.region)))
    if s.tgtState t = 1 ∨ s.tgtState t = 2 ∨ s.tgtState t = 4 then s.openTarget t else s.rackSettle

/-- A commit of `RCK` (R351, R352). -/
def State.commitRanges (s : State) : State :=
  if s.rangesOk = false then ((s.dropWaiting 0x95 WriteRow.isS).reject 0x95).detect 114 0
  else
    let e0 := s.tgt 0
    let e1 := s.tgt 1
    let h0 := rangeSet (s.rangesOf 0)
    let h1 := rangeSet (s.rangesOf 1)
    let s := s.applyWaiting 0x95 WriteRow.isS
    (s.retarget 0 e0 (s.rd (R.RCK_GEN 0)) h0).retarget 1 e1 (s.rd (R.RCK_GEN 1)) h1

/-! ### CEL: R178 -/

/-- A commit of `CEL`: the zone sizes are checked, and the zones resized. -/
def State.commitZones (s : State) : State :=
  let kib := clampTo 64 4096 (s.shown R.CEL_ZONE_CTRL)
  let gib := s.shown R.CEL_GUEST_CTRL
  if kib = s.kilnGib ∧ gib = s.rd R.CEL_GUEST_CTRL then s.applyWaiting 0x70 WriteRow.isS
  else
    let gs := s.zoneGroups .kiln ++ s.zoneGroups .kilnSpare
    let is := (s.zoneGroups .image).filter Group.holdsNone ++ (s.zoneGroups .image).filter (fun g => !g.holdsNone)
    let kw := s.groupsFor .kiln (kilnNeed kib) (gs ++ is)
    let rest := (gs ++ is).drop (kw + spareWant kw)
    let gw := s.groupsFor .guest (gib * 262144) (s.zoneGroups .guest ++ rest)
    let full := decide (s.groupsCap .kiln ((gs ++ is).take kw) < kilnNeed kib) ||
      decide (s.groupsCap .guest ((s.zoneGroups .guest ++ rest).take gw) < gib * 262144)
    if full ∨ s.imageHolds ((s.zoneGroups .guest ++ rest).drop gw) = false then
      ((s.dropWaiting 0x70 WriteRow.isS).reject 0x70).detect 80 0
    else
      let s := s.applyWaiting 0x70 WriteRow.isS
      let s := { s with cellar := { s.cellar with resizeKiln := kw, resizeGuest := gw } }
      let s := { s with cellar := { s.cellar with resizeAll := s.resizeLeft } }
      (((s.wr R.CEL_RESIZE_ACTIVE 1).resizeGo).showZ).showImage

/-! ### SQP: R422 -/

/-- A step of a present program passes the check: kind, jump target below `len`, condition argument, and in `KILN_SHED` neither
`EN_SET` nor `SYNC`. -/
def stepOk (n len w : Nat) : Bool :=
  let kind := w / 2 ^ 28 % 16
  let code := w / 2 ^ 24 % 16
  let arg := w / 2 ^ 18 % 64
  decide (kind ≤ 9) && !(kind == 8 && (decide (len ≤ w % 1024) || (code == 2 && decide (47 < arg)) ||
    (code == 6 && decide (31 < arg)) || (code == 7 && decide (1 < arg)))) && !(n == 2 && (kind == 1 || kind == 9))

/-- `START` and `LENGTH` of the present programs as the registers read. -/
def State.programs (s : State) : List (Nat × Nat × Nat) :=
  ((List.range 8).map (fun n => (n, s.shown (R.SQP_DIR_START n), s.shown (R.SQP_DIR_LENGTH n)))).filter
    (fun (p : Nat × Nat × Nat) => p.2.2 != 0)

/-- The check of R422 on the staged store. -/
def State.storeOk (s : State) : Bool :=
  let ps := s.programs
  ps.all (fun (p : Nat × Nat × Nat) => decide (p.2.1 + p.2.2 ≤ 1024)) &&
    ps.all (fun (p : Nat × Nat × Nat) => ps.all (fun (q : Nat × Nat × Nat) =>
      decide (q.1 ≤ p.1) || decide (p.2.1 + p.2.2 ≤ q.2.1) || decide (q.2.1 + q.2.2 ≤ p.2.1))) &&
    ps.all (fun (p : Nat × Nat × Nat) => (List.range (min 1024 p.2.2)).all (fun i => stepOk p.1 p.2.2 (s.seq.staged.get (p.2.1 + i))))

/-- The committed steps of program `n`. -/
def State.progWords (s : State) (n : Nat) : List Nat :=
  (List.range (s.rd (R.SQP_DIR_LENGTH n))).map (fun i => s.seq.store.get (s.rd (R.SQP_DIR_START n) + i))

/-- A commit of `SQP` (R422): the store comes into force with the CRC of each program, and goes to its three places. -/
def State.commitStore (s : State) : State :=
  if s.storeOk = false then (s.reject 0xA1).detect 135 0
  else
    let s := s.applyWaiting 0xA1 WriteRow.isS
    let s := { s with seq := { s.seq with store := s.seq.staged, stored := 7 } }
    let s := s.each 8 (fun s n =>
      let there := s.rd (R.SQP_DIR_LENGTH n) != 0
      ((s.setBit R.SQP_STAT_VALID n there).setBit R.SQP_STAT_CHECK_FAIL n false).wr (R.SQP_CRC n)
        (if there then crc32 (s.progWords n) else 0))
    (s.wr R.SQP_STAT_SRC 1).inc R.SQP_STAT_COMMITS

/-! ### The safe point -/

/-- What a pending commit does on a page (R65). -/
def State.commitPage (s : State) (page : Nat) : State :=
  let s := s.wr (R.COMMIT_PENDING page) 0
  if page = 0x95 then s.commitRanges
  else if page = 0x70 then s.commitZones
  else if page = 0xA1 then s.commitStore
  else s.applyWaiting page WriteRow.isS

/-- The page's safe point: accepted H values take effect (R550), and the commit that is pending is applied in one step. -/
def State.safePoint (s : State) (page : Nat) : State :=
  let old := s
  let s := s.applyWaiting page WriteRow.isH
  let s := s.cond (s.flag (R.COMMIT_PENDING page)) (fun s => s.commitPage page)
  s.follow old page 0 0

end Sys2Proof.Machine
end

