-- ==== Sys2Proof/Machine/Pages.lean ====
section
/-!
DEFINITION. Machine/Pages.lean: the commands of the register pages (chapter 03): reads of pairs, writes, commits, safe points, soft
resets, enabling and halting, clearing and injecting faults, locks, and maintenance access.
-/

namespace Sys2Proof.Machine

open Sys2Proof

/-! ### Reads (R7, R53, R57 to R60, R73, R74) -/

/-- The register is a `_LO` register. -/
def isLo (page off : Nat) : Bool :=
  pairList.any (fun (p : Nat × Nat × Nat × Nat) => decide (p.1 ≤ page) && decide (page < p.1 + p.2.1) && decide (p.2.2.1 ≤ off) &&
    (off - p.2.2.1) % 8 == 0 && decide ((off - p.2.2.1) / 8 < p.2.2.2))

/-- The state that a page's registers show: a page powered down at the end of K3 shows what it held then (R74). -/
def State.seen (s : State) (page : Nat) : State :=
  if s.power.heldWindows.isSome && offPages.contains page then { s with regs := s.power.heldRegs, staged := [] } else s

/-- The word at a 4-byte offset of a present page: header, fields of the register tables, tables and records; reserved bits and
offsets are 0 (R7). -/
def State.pageWord (s : State) (who : Requester) (page off : Nat) : Nat :=
  if off < 0x040 then (s.seen page).headerWord page off
  else (s.seen page).word allRows who page off ||| s.heldWord page off

/-- Where a requester's latch of a register is held. -/
def pairKey (who : Requester) (n : Nat) : Nat := who.idx * 2 ^ 40 + n

/-- The port of a requester; none for `MGMT_SB`. -/
def Requester.port : Requester → Option Nat
  | .portA => some 0
  | .portB => some 1
  | .sideband => none

/-- A read of a word that is the low one (`lo`) or the high one of a pair, or none of both: a low word latches the high one, `hi`,
for the same requester's next read of it (R53, R58); `n` names the pair. Answers the value read. -/
def State.pairRead (s : State) (who : Requester) (n : Nat) (lo high : Bool) (v hi : Nat) : Nat × State :=
  if lo then (v, { s with latched := s.latched.set (pairKey who n) (hi + 1) })
  else if high then
    match s.latched.get (pairKey who n) with
    | 0 => (v, s)
    | l + 1 => (l, { s with latched := s.latched.set (pairKey who n) 0 })
  else (v, s)

/-- How one read takes its bytes: a 64-bit pair at once, an aligned word, bytes of a word, or in a way that no rule gives. -/
inductive ReadShape where
  | both
  | word (off shift bytes : Nat)
  | odd
deriving DecidableEq, Repr

/-- The shape of a read of `size` bytes at an offset (R57); over `MGMT_SB` every read is of 32 bits (R73). -/
def readShape (who : Requester) (off size : Nat) : ReadShape :=
  let sz := if who.port.isSome then size else 4
  if sz = 8 ∧ off % 8 = 0 then .both
  else if sz = 4 ∧ off % 4 = 0 then .word off 0 4
  else if (sz = 1 ∨ sz = 2) ∧ off % sz = 0 then .word (off / 4 * 4) (off % 4) sz
  else .odd

/-- A read of a register file that `word` gives; `lo` tells the offsets of low words, `base` names the pairs. A read of no shape that
a rule gives answers an open value (assumption 2). -/
def State.readBy (s : State) (who : Requester) (off size base : Nat) (word : Nat → Nat) (lo : Nat → Bool) : State :=
  match readShape who off size with
  | .both => s.giveReg who (word off + word (off + 4) * 2 ^ 32)
  | .word o shift bytes =>
    let high := decide (4 ≤ o) && lo (o - 4)
    let r := s.pairRead who (base + (if lo o then o else o - 4)) (lo o) high (word o) (word (o + 4))
    r.2.giveReg who (r.1 / 256 ^ shift % 256 ^ bytes)
  | .odd =>
    let v := s.takeFree 32
    v.2.giveReg who v.1

/-- A read of a register page: zeros where the requester sees none (R62, R73). A read that takes in `SQP.DATA` moves `ADDR` on
(Table 14-11). -/
def State.pageRead (s : State) (who : Requester) (page off size : Nat) : State :=
  if s.answers who = false then s
  else if s.mayRead who page = false then s.giveReg who 0
  else
    let s := s.cond (page == 0xD8) State.showRest
    (s.readBy who off size (page * 4096) (s.pageWord who page) (isLo page)).cond
      (page == 0xA1 && decide (off ≤ 0x047) && decide (0x044 < off + size)) State.sqpNext

/-- A word of a queue's configuration slot (Table 10-1). -/
def Queue.slotWord (c : Queue) (off : Nat) : Nat :=
  let r := c.intRec
  let of := fun (f : IntRecord → Nat) => (r.map f).getD 0
  match off with
  | 0x00 => c.sqBase % 2 ^ 32
  | 0x04 => c.sqBase / 2 ^ 32
  | 0x08 => c.cqBase % 2 ^ 32
  | 0x0C => c.cqBase / 2 ^ 32
  | 0x10 => b2n c.en + c.cls * 2 + c.credits * 16 + c.sqLog2 * 2 ^ 16 + c.cqLog2 * 2 ^ 24
  | 0x14 => c.vector + b2n c.irqEn * 2 ^ 16 + c.owner * 2 ^ 18
  | 0x18 => b2n c.running + b2n c.fault * 2 + b2n c.cqFull * 4 + min 31 c.cmds.length * 8 + c.err % 256 * 2 ^ 8 +
      c.sqHead % 65536 * 2 ^ 16
  | 0x1C => c.cqTail % 65536 + c.phase % 2 * 2 ^ 16
  | 0x20 => of (fun r => r.cid % 65536 + r.opcode % 256 * 2 ^ 16 + r.status % 256 * 2 ^ 24)
  | 0x24 => of (fun r => r.offset % 2 ^ 32)
  | 0x28 => of (fun r => r.offset / 2 ^ 32 % 16 + r.element % 16 * 2 ^ 8 + min 31 r.later * 2 ^ 16 + b2n r.laterOvf * 2 ^ 21)
  | 0x2C => of (fun r => r.addr % 2 ^ 32)
  | 0x30 => of (fun r => r.addr / 2 ^ 32)
  | 0x34 => of (fun r => r.count % 2 ^ 32)
  | 0x38 => of (fun r => r.count / 2 ^ 32 % 16)
  | 0x3C => of (fun r => 1 + b2n r.kiln * 2 + r.sqIdx % 65536 * 2 ^ 16)
  | _ => 0

/-- The low words of a configuration slot. -/
def slotLo (off : Nat) : Bool := [0x00, 0x08, 0x24, 0x2C, 0x34].contains off

/-- The queue that slot `n` shows a requester (R290). -/
def State.slotQueue (s : State) (who : Requester) (n : Nat) : Nat := s.rd (R.PQE_CFG_WIN who.idx) * 32768 + n % 32768

/-- The doorbell of a queue: the `SQ` tail and the `CQ` head last written (R289). -/
def Queue.bellWord (c : Queue) (off : Nat) : Nat := if off = 0 then c.sqTail % 65536 else if off = 4 then c.cqHead % 65536 else 0

/-- A word of the steep bitmap window of a port (R278): one bit for each unfilled granule that the port sees. -/
def State.bitmapWord (s : State) (p off : Nat) : Nat :=
  let seg := if p = 0 then s.rd R.STP_WIN_A else s.rd R.STP_WIN_B
  let g0 := seg * 2 ^ 25 + off * 8
  ((List.range 32).map (fun i =>
    let g := g0 + i
    if s.unfilled g && s.inSlice p g && decide (g < s.rd R.CAP_HOST) then 2 ^ i else 0)).sum

/-- A little-endian word of a memory. -/
def Memory.word32 (m : Memory) (a : Nat) : Nat := ((List.range 4).map (fun i => (m.byte (a + i)).toNat * 256 ^ i)).sum

/-- A read in BAR4: a queue of no context reads zeros (R3, R290); what no window holds reads zeros (R7). -/
def State.barRead (s : State) (who : Requester) (p size : Nat) (a : Place) : State :=
  if s.answers who = false then s
  else
    match a with
    | .page page off => s.pageRead who page off size
    | .slot n off =>
      let q := s.slotQueue who n
      if s.variant.pairs ≤ q then s.giveReg who 0
      else s.readBy who off size (2 ^ 39 + q * 64) (s.queue q).slotWord slotLo
    | .bell q off =>
      if s.variant.pairs ≤ q then s.giveReg who 0 else s.readBy who off size 0 (s.queue q).bellWord (fun _ => false)
    | .bitmap off => s.readBy who off size 0 (s.bitmapWord p) (fun _ => false)
    | .rackWin off =>
      s.readBy who off size 0 (if p = 0 then s.racking.window0 else s.racking.window1).word32 (fun _ => false)
    | .nothing => s.giveReg who 0

/-- R58: a register read: over a host port in BAR2 or BAR4, over `MGMT_SB` in the register pages (R56, R73). -/
def State.readReg (s : State) (who : Requester) (a : RegAddr) (size : Nat) : State :=
  match who.port with
  | some p => s.barRead who p size a.place
  | none =>
    match a.place with
    | .page page off => s.pageRead who page off 4
    | .slot _ _ => s
    | .bell _ _ => s
    | .bitmap _ => s
    | .rackWin _ => s
    | .nothing => s

def execReadLoLatch (who : Requester) (a : RegAddr) (size : Nat) (s : State) : Host.Outcome State Fault Refusal :=
  .next (finish (s.begin.readReg who a size))

/-! ### Commits (R65, R66) -/

/-- R65: `COMMIT`. While one is pending it has no effect; a disabled block, and a page whose safe point is immediate, applies at
once. -/
def State.commitWrite (s : State) (page : Nat) : State :=
  if s.flag (R.COMMIT_PENDING page) then s
  else
    let s := s.wr (R.COMMIT_PENDING page) 1
    s.cond (s.blockOff page || !s.waitsSafe page) (fun s => s.safePoint page)

def execCommit (who : Requester) (page : Nat) (s : State) : Host.Outcome State Fault Refusal :=
  .next (finish (s.begin.command (.commit who page) (s.admission who page) page (fun s => s.commitWrite page)))

/-! ### Link training (R81) -/

/-- R81: training ends with a partner that reaches `width` and `rate` (codes of Table 04-10). The entry to training was the page's
safe point: a pending commit has applied (R107). `corr` and `replay` are the correctable errors and flit replays since the last
training, `bad` tells of an uncorrectable link error among them (Tables 04-10 and 04-11). -/
def State.linkTrained (s : State) (p width rate : Nat) (flit256 cxl : Bool) (corr replay : Nat) (bad : Bool) : State :=
  if s.hasPort p && s.portsOn && s.flag (R.ENABLE (0x10 + p)) then
    let s := s.cond (s.flag (R.COMMIT_PENDING (0x10 + p))) (fun s => s.safePoint (0x10 + p))
    let s := ((s.addSat (R.HP_LINK_ERR_CORR p) corr).addSat (R.HP_LINK_ERR_REPLAY p) replay).cond bad (fun s => s.detect 2 p)
    let w := min (max 1 width) (s.maxWidth p)
    let r := min (max 1 rate) (s.maxRate p)
    let s := s.cond (s.linkUp p) (fun s => s.inc (R.HP_LINK_STAT_RETRAINS p))
    let s := s.setHost p { s.host p with downExplained := false, msixOn := true }
    let s := ((s.wr (R.HP_LINK_STAT_UP p) 1).wr (R.HP_LINK_STAT_WIDTH p) w).wr (R.HP_LINK_STAT_RATE p) r
    let s := (s.wr (R.HP_LINK_STAT_FLIT256 p) (b2n (flit256 || r == 6))).wr (R.HP_LINK_STAT_CXL p) (b2n (cxl && decide (3 ≤ r)))
    (s.cond (s.degradedLink p) (fun s => s.detect 1 p)).healthNote
  else s

def execLinkTrained (port width rate : Nat) (flit256 cxl : Bool) (corr replay : Nat) (bad : Bool) (s : State) :
    Host.Outcome State Fault Refusal :=
  .next (finish (s.begin.linkTrained (port % 2) width rate flit256 cxl corr replay bad))

/-! ### Soft reset, enabling and halting (R64, R67, R68) -/

/-- A Daluf port is off (R321): its link falls, and the phantom feed goes. -/
def State.dlpOff (s : State) (n : Nat) : State := (s.portFall n 0).showFeed n

/-- Every enabled queue is disabled (R291). -/
def State.disableQueues (s : State) : State :=
  (s.queues.list.filter (fun c => c.en)).foldl (fun s c => s.disableQueue c.q) s

/-- What halting does to a block besides `RUNNING` (R64, R107, R153, R199, R319). -/
def State.haltBlock (s : State) (page : Nat) : State :=
  if page = 0x10 ∨ page = 0x11 then s.linkDown (page - 0x10)
  else if page = 0x41 then s.cond (s.rd R.WTH_STATE_STATE != wthFrozen) (fun s => s.wr R.WTH_STATE_STATE wthOff)
  else if page = 0x43 then s.cond (s.rd R.STP_STAT_PHASE == 3) (fun s => s.wr R.STP_STAT_BULK_RUN 0)
  else if 0x50 ≤ page ∧ page ≤ 0x6F then s.killChannel (page - 0x50)
  else if page = 0x80 then s.disableQueues
  else if 0x91 ≤ page ∧ page ≤ 0x94 then s.dlpOff (page - 0x91)
  else if page = 0x95 then (s.abandonSends 0).abandonSends 1
  else s

/-- What starting does to a block besides `RUNNING` (R64, R107, R153, R319). A NAND channel starts only at the next start. -/
def State.startBlock (s : State) (page : Nat) : State :=
  if page = 0x41 then
    s.cond (s.rd R.WTH_STATE_STATE == wthOff) (fun s => s.wr R.WTH_STATE_STATE (if s.steepReady then wthIdle else wthWaiting))
  else if page = 0x43 then s.cond (s.rd R.STP_STAT_PHASE == 3) (fun s => s.wr R.STP_STAT_BULK_RUN 1)
  else if 0x91 ≤ page ∧ page ≤ 0x94 then
    (s.cond (s.dlp (page - 0x91) == 0) (fun s => s.wr (R.DLP_STAT_STATE (page - 0x91)) 1)).showFeed (page - 0x91)
  else s

/-- RW fields at 0x040 and above, and the counters and results that the block's RO fields show, return to their reset values,
unless the page's table marks them kept or restored (R67). The RO fields of `PWR` and `UPD` show the device's state, not the block's:
they stay; so does the state that the halt has left the wither engine or a Daluf port in, from which the restart goes on. -/
def State.fieldsReset (s : State) (page : Nat) : State :=
  let some := fun (k : Nat) => (page != 0xD8 && page != 0xD1) || (fieldOfKey k).isSome
  let halted := fun (k : Nat) => k == R.WTH_STATE_STATE.key || (List.range 4).any (fun n => k == (R.DLP_STAT_STATE n).key)
  { s with regs := s.regs.keep (fun k =>
    !(keyPage k == page && decide (0x040 ≤ keyOff k) && some k && !survives k && !halted k)) }

/-- The internal state of a block at reset (R67): queues without contexts, the fabric without a database, an update's transfer
dropped. What kept and restored fields describe stays. -/
def State.blockReset (s : State) (page : Nat) : State :=
  if page = 0x10 ∨ page = 0x11 then s.resetPort (page - 0x10)
  else if page = 0x30 then { s with dram := { s.dram with retiring := [] } }
  else if page = 0x41 then
    ({ s with dirty := { s.dirty with inflight := [], torn := [], skip := [] },
              budget := { s.budget with cursor := 0, commits := 0, commitWin := [], noSpace := 0 } }).showInflight
  else if page = 0x95 then
    let s := { s with racking := { s.racking with sends := [], recvs := [] } }
    s.each 2 (fun s t => s.cond (s.tgt t != 0) (fun s => s.openTarget t))
  else if page = 0x80 then
    { s.disableQueues with queues := { s.queues with
        list := s.queues.list.map (fun (c : Queue) => { q := c.q, intRec := c.intRec, postDue := c.postDue, via := c.via }),
        pendVec := [], rrClass := 0, rrLeft := 0, rrLast := [], latSum := 0, latCnt := 0 } }.showQueues
  else if page = 0x90 then
    let s := { s with fabric := { s.fabric with db := [], routes := [], routeDue := false, seen := [], lsaDue := false } }
    ((((s.wr R.DFS_FNN_STAT_CLAIM 0).showDb).showRoute).showColl).followRoutes.guestsFollow
  else if page = 0xD1 then
    s.cond (s.rd R.UPD_STAT_STATE == 1 || s.rd R.UPD_STAT_STATE == 2) (fun s => (s.wr R.UPD_STAT_STATE 0).freeLock)
  else s

/-- R67, from step 1 on: the block is at its safe point. -/
def State.resetNow (s : State) (page : Nat) : State :=
  let old := s
  let nch := decide (0x50 ≤ page) && decide (page ≤ 0x6F)
  let s := s.cond (!nch) (fun s => s.haltBlock page)
  let s := (((s.fieldsReset page).blockReset page).dropStaged page).wr (R.COMMIT_PENDING page) 0
  let s := ((s.wr (R.FLT_STAT page) 0).wr (R.EVT_CNT page) 0).wr (R.RUNNING page) (s.rd (R.ENABLE page))
  let s := s.wr (R.SOFT_RESET page) 0
  let s := s.cond (s.flag (R.ENABLE page)) (fun s => s.startBlock page)
  (s.follow old page 0 0).cond (page == 0x90 && s.flag (R.ENABLE page)) State.firstClaim

/-- R67: `SOFT_RESET`, ignored with `CFG_REJECT` on pages of kind F and K. Staged writes go at once
(Table 03-4). A running block whose chapter names a safe point waits for it, the bit reading 1. -/
def State.softReset (s : State) (page : Nat) : State :=
  if kindF page ∨ kindK page then s.reject page
  else
    let s := (s.dropStaged page).wr (R.COMMIT_PENDING page) 0
    if s.waitsSafe page && !s.blockOff page then s.wr (R.SOFT_RESET page) 1 else s.resetNow page

def execSoftReset (who : Requester) (page : Nat) (s : State) : Host.Outcome State Fault Refusal :=
  .next (finish (s.begin.command (.softReset who page) (s.admission who page) page (fun s => s.softReset page)))

/-- Whether the block is at its safe point, as far as its registers show it: no program or kiln for `SQP`, no program for `SEQ`,
no calibration, no flush, no running reaction, no flash operation. -/
def State.atSafePoint (s : State) (page : Nat) : Bool :=
  if page = 0xA1 then s.seq.prog.isNone && !s.inKiln
  else if page = 0xA0 then s.seq.prog.isNone
  else if page = 0xB9 then !s.flag R.CAL_STAT_RUNNING
  else if page = 0xC9 then !s.flag R.REC_STAT_FLUSHING
  else if page = 0xC0 then s.safe.stack.isEmpty
  else if page = 0xD0 then s.flash.op0.isNone && s.flash.op1.isNone
  else true

/-- R65, R67, R550: a block reaches its safe point. -/
def State.safePointReached (s : State) (page : Nat) : State :=
  if pagePresent s.variant page = false ∨ s.paged = false ∨ s.atSafePoint page = false then s
  else if s.flag (R.SOFT_RESET page) then s.resetNow page
  else if s.flag (R.COMMIT_PENDING page) = false ∧ (s.waiting page).isEmpty then s
  else s.safePoint page

def execSafePointCommitApply (page : Nat) (s : State) : Host.Outcome State Fault Refusal :=
  .next (finish (s.begin.safePointReached page))

/-- R64, R68: `ENABLE` cleared. `PQE` applies R291 to every enabled queue; a Daluf port goes Off (Table 11-2). -/
def State.enableClear (s : State) (page : Nat) : State :=
  if kindF page then s
  else if (kindK page || s.usedDmc page) && !s.maint.isOpen then s.reject page
  else
    let s := s.wr (R.ENABLE page) 0
    if page = 0x80 then s.disableQueues
    else if 0x91 ≤ page ∧ page ≤ 0x94 then s.dlpOff (page - 0x91)
    else s

def execEnableClear (who : Requester) (page : Nat) (s : State) : Host.Outcome State Fault Refusal :=
  .next (finish (s.begin.command (.enableClear who page) (s.admission who page) page (fun s => s.enableClear page)))

/-- The page is a host port's with requests that are not answered yet: they complete before it halts (R107). -/
def State.portBusy (s : State) (page : Nat) : Bool :=
  (page == 0x10 || page == 0x11) &&
    ((s.steep.fills ++ s.steep.waitFills).any (fun f => f.held.any (fun h => h.1 == page - 0x10)) ||
      (s.steep.heldWrites ++ s.dram.waiting).any (fun w => w.port == page - 0x10))

/-- R64, R107, Table 03-4: a block with `ENABLE` = 0 halts; a pending commit applies, or a pending reset runs. -/
def State.blockHalt (s : State) (page : Nat) : State :=
  if pagePresent s.variant page = false ∨ s.paged = false ∨ s.flag (R.ENABLE page) ∨ s.flag (R.RUNNING page) = false ∨
      s.portBusy page then s
  else
    let s := (s.haltBlock page).wr (R.RUNNING page) 0
    if s.flag (R.SOFT_RESET page) then s.resetNow page
    else s.cond (s.flag (R.COMMIT_PENDING page) || !(s.waiting page).isEmpty) (fun s => s.safePoint page)

def execBlockHalt (page : Nat) (s : State) : Host.Outcome State Fault Refusal := .next (finish (s.begin.blockHalt page))

/-- R64: `ENABLE` set: the block starts on its current field values; a NAND channel at the next start. A Daluf port, which goes
Off at once when `ENABLE` is cleared, leaves that state even before the block has halted (Table 11-2). -/
def State.enableSet (s : State) (page : Nat) : State :=
  let off := s.blockOff page || (decide (0x91 ≤ page) && decide (page ≤ 0x94))
  let s := s.wr (R.ENABLE page) 1
  if 0x50 ≤ page ∧ page ≤ 0x6F then s
  else (s.wr (R.RUNNING page) 1).cond off (fun s => s.startBlock page)

def execEnableSet (who : Requester) (page : Nat) (s : State) : Host.Outcome State Fault Refusal :=
  .next (finish (s.begin.command (.enableSet who page) (s.admission who page) page (fun s => s.enableSet page)))

/-! ### Writes (R9, R57, R290) -/

/-- A word written to `PAGE_CTRL`: `ENABLE` as written, then `SOFT_RESET`, or `COMMIT` where that is not set too (R65 to R68,
Table 03-4). -/
def State.ctrlWrite (s : State) (page v : Nat) : State :=
  if s.lockHolds page then s.reject page
  else
    let s := if v.testBit 0 then s.enableSet page else s.enableClear page
    if v.testBit 2 then s.softReset page else s.cond (v.testBit 1) (fun s => s.commitWrite page)

/-- A write to a register page. One that is no aligned 32-bit or 64-bit write, or over `MGMT_SB` no 32-bit write, is discarded
with `CFG_REJECT` and a notice (R57). -/
def State.pageWrite (s : State) (who : Requester) (page off size v : Nat) : State :=
  s.under (s.mayWrite who page) page (fun s =>
    let fits := (size == 4 || (size == 8 && who.port.isSome)) && off % size == 0 && decide (off + size ≤ 4096)
    if fits = false then (s.reject page).notice page
    else
      let s := s.cond (off == 0x008) (fun s => s.ctrlWrite page (v % 2 ^ 32))
      s.writeWord who page off size v)

/-- The L fields of a slot: class, credits, interrupts (Table 10-1). `EN` has commands of its own. -/
def Queue.slotLive (c : Queue) (off v : Nat) : Queue :=
  if off = 0x10 then { c with cls := v / 2 % 8, credits := v / 16 % 32 }
  else if off = 0x14 then { c with irqEn := v.testBit 16 }
  else c

/-- The H fields of a slot: bases, depths, vector (Table 10-1). -/
def Queue.slotHalted (c : Queue) (off v : Nat) : Queue :=
  if off = 0x00 then { c with sqBase := c.sqBase / 2 ^ 32 * 2 ^ 32 + v / 4096 * 4096 }
  else if off = 0x04 then { c with sqBase := c.sqBase % 2 ^ 32 + v * 2 ^ 32 }
  else if off = 0x08 then { c with cqBase := c.cqBase / 2 ^ 32 * 2 ^ 32 + v / 4096 * 4096 }
  else if off = 0x0C then { c with cqBase := c.cqBase % 2 ^ 32 + v * 2 ^ 32 }
  else if off = 0x10 then { c with sqLog2 := v / 65536 % 32, cqLog2 := v / 2 ^ 24 % 32 }
  else if off = 0x14 then { c with vector := v % 2048 }
  else c

/-- One word of a slot write: H fields take it only while `EN` and `RUNNING` both read 0 (R290, R549). -/
def State.slotWord (s : State) (q off v : Nat) : State :=
  let c := s.queue q
  let d := c.slotHalted off v
  let s := if decide (d = c) then s
    else if c.en ∨ c.running then s.rejectH 0x80
    else s.setQueue d
  let c := s.queue q
  if decide (c.slotLive off v = c) then s else s.setQueue (c.slotLive off v)

/-- A write to the configuration window of the persist queues, through a host port only (R286, R290). -/
def State.slotWrite (s : State) (who : Requester) (p n off size v : Nat) : State :=
  let q := s.slotQueue who n
  s.byOwner p q (fun s =>
    if (size = 4 ∨ size = 8) ∧ off % size = 0 ∧ off + size ≤ 64 then
      s.each (size / 4) (fun s i => s.slotWord q (off + 4 * i) (v / 2 ^ (32 * i) % 2 ^ 32))
    else (s.reject 0x80).notice 0x80)

/-- A doorbell write: 32 bits at +0 the `SQ` tail, at +4 the `CQ` head, 64 bits both (R289). -/
def State.bellWrite (s : State) (p q off size v : Nat) : State :=
  s.byOwner p q (fun s =>
    if size = 4 ∧ off = 0 then s.sqTail q (v % 65536)
    else if size = 4 ∧ off = 4 then s.cqHead q (v % 65536)
    else if size = 8 ∧ off = 0 then (s.sqTail q (v % 65536)).cqHead q (v / 2 ^ 32 % 65536)
    else s)

/-- A write in BAR4: the windows and what no window holds take none (R7, R278). -/
def State.barWrite (s : State) (who : Requester) (p size v : Nat) (a : Place) : State :=
  match a with
  | .page page off => s.pageWrite who page off size v
  | .slot n off => s.slotWrite who p n off size v
  | .bell q off => s.bellWrite p q off size v
  | .bitmap _ => s
  | .rackWin _ => s
  | .nothing => s

/-- R9: a register write: over a host port in BAR2 or BAR4, over `MGMT_SB` to the register pages (R56, R73). -/
def State.regWrite (s : State) (who : Requester) (a : RegAddr) (size v : Nat) : State :=
  match who.port with
  | some p => s.barWrite who p size v a.place
  | none =>
    match a.place with
    | .page page off => s.pageWrite who page off size v
    | .slot _ _ => s
    | .bell _ _ => s
    | .bitmap _ => s
    | .rackWin _ => s
    | .nothing => s

def execRegisterWrite (who : Requester) (a : RegAddr) (size value : Nat) (s : State) : Host.Outcome State Fault Refusal :=
  .next (finish (s.begin.regWrite who a size value))

/-! ### Fault bits (R454, R461) -/

/-- The access check of a W1C write to `FLT_STAT`: no lock holds it (R70), and `MGMT_SB` may clear bits of any page it may read
(R73). -/
def State.mayClear (s : State) (who : Requester) (page : Nat) : Admit :=
  if maintOnly page ∧ s.lockHolds page then s.admission who page
  else
    match who with
    | .portA => s.mayWrite who page
    | .portB => s.mayWrite who page
    | .sideband =>
      if pagePresent s.variant page = false ∨ s.paged = false ∨ (s.kiln.since ∧ kindK page) then .ignore
      else if sbAccess page = 0 then .reject
      else .accept

/-- R454: the bits written with 1 end their latches; their sources stay as they are. -/
def State.fltClear (s : State) (page mask : Nat) : State :=
  s.wr (R.FLT_STAT page) (s.rd (R.FLT_STAT page) &&& (mask % 2 ^ 16 ^^^ (2 ^ 16 - 1)))

def execFltStatClear (who : Requester) (page mask : Nat) (s : State) : Host.Outcome State Fault Refusal :=
  .next (finish (s.begin.under (s.mayClear who page) page (fun s => s.fltClear page mask)))

/-- R461: one bit of `FLT_FORCE` is written with 1. `seen` tells that the detector answers before the command ends; otherwise, and
always where the test path drives a later test, the injection waits. A bit without a fault does nothing. -/
def State.inject (s : State) (page bit : Nat) (seen : Bool) : State :=
  match pageFirstSrc page with
  | none => s
  | some (f, l) =>
    let src := f + bit
    let inst := page - srcPage f 0
    if l < src ∨ namedSources.contains src = false then s
    else if s.flag R.SAF_CTRL_INJ_EN = false ∨ s.kiln.since ∨ s.runs .safety = false then
      (s.setBit (R.FLT_FORCE page) bit false).reject page
    else if seen && !([24, 25, 159, 160].contains src) then s.injSeen src inst
    else if s.injWaits src inst then s
    else
      { s with safe := { s.safe with injWait := s.safe.injWait ++ [(src, inst)] } }.setBit (R.FLT_FORCE page) bit true

def execFaultInject (who : Requester) (page bit : Nat) (seen : Bool) (s : State) : Host.Outcome State Fault Refusal :=
  .next (finish (s.begin.under (s.admission who page) page (fun s => s.inject page (bit % 16) seen)))

/-! ### Locks and maintenance access (R70, R71) -/

/-- R70: `LOCKED` holds until the next start. -/
def execPageLock (who : Requester) (page : Nat) (s : State) : Host.Outcome State Fault Refusal :=
  .next (finish (s.begin.under (s.admission who page) page (fun s => s.wr (R.LOCKED page) 1)))

/-- A new nonce (R71). -/
def State.newNonce (s : State) : State :=
  let v := s.takeFree 32
  v.2.wr R.ID_MAINT_NONCE v.1

/-- The log entry of an opening (1) or a closing (0) of maintenance access (R71, Table 17-1). -/
def State.maintLog (s : State) (on : Nat) : State := s.tlog 0x0104 on

/-- Access closes: margins go back in steps (R418). -/
def State.maintClose (s : State) : State :=
  if s.maint.isOpen then ({ s with maint := { s.maint with isOpen := false } }.easeMargins).maintLog 0 else s

/-- R71: a sideband write of `ID.MAINT_UNLOCK` with the strap as `strap` tells. -/
def State.unlock (s : State) (strap : Bool) (v : Nat) : State :=
  let s := { s with maint := { s.maint with strap := strap } }
  if v = 0 then s.maintClose.newNonce
  else if strap = false then (s.notice 0x00).newNonce
  else if 3 ≤ s.maint.wrong then s.newNonce
  else if v = s.rd R.ID_MAINT_NONCE ^^^ 0x5A3CC3A5 then
    (s.cond (!s.maint.isOpen) (fun s => { s with maint := { s.maint with isOpen := true } }.maintLog 1)).newNonce
  else ({ s with maint := { s.maint with wrong := s.maint.wrong + 1 } }.warning 0x00).newNonce

/-- A write of `MAINT_UNLOCK`: over `MGMT_SB` only (Table 03-5). -/
def State.unlockWrite (s : State) (who : Requester) (strap : Bool) (v : Nat) : State :=
  match who with
  | .portA => s.under (match s.mayWrite who 0x00 with
      | .accept => .reject
      | .ignore => .ignore
      | .reject => .reject) 0x00 (fun s => s)
  | .portB => s.under (match s.mayWrite who 0x00 with
      | .accept => .reject
      | .ignore => .ignore
      | .reject => .reject) 0x00 (fun s => s)
  | .sideband => if s.paged then s.unlock strap (v % 2 ^ 32) else s

def execMaintUnlock (who : Requester) (strap : Bool) (value : Nat) (s : State) : Host.Outcome State Fault Refusal :=
  .next (finish (s.begin.unlockWrite who strap value))

/-- R71: 30 min without a sideband write. -/
def execMaintIdleTimeout (s : State) : Host.Outcome State Fault Refusal := .next (finish s.begin.maintClose)

/-- R71: the strap goes low. -/
def execMaintStrapLow (s : State) : Host.Outcome State Fault Refusal :=
  .next (finish ({ s.begin with maint := { s.maint with strap := false } }.maintClose))

end Sys2Proof.Machine
end

