-- ==== Sys2Proof/Machine/Records.lean ====
section
/-!
DEFINITION. Machine/Records.lean: the commands of the trouble log and the event recorder (chapter 17).
-/

namespace Sys2Proof.Machine

open Sys2Proof

/-- R470: once per second, one entry of code 0x0100 for each code held back; never limited. -/
def State.rateSummary (s : State) : State :=
  let held := s.recs.held
  held.foldl (fun s e => s.appendTlog false (s.stamp 0x0100 (e.1 + min 65535 e.2 * 65536)))
    { s with recs := { s.recs with held := [] } }

def execTlogRateSummary (s : State) : Host.Outcome State Fault Refusal := .next (finish s.begin.rateSummary)

/-- R479: `TLG.CTRL.CLEAR`, under maintenance access: the live log is emptied and `HEAD` is 1; the clear itself is logged. -/
def State.tlgClear (s : State) : State :=
  if s.maint.isOpen then
    let s := ({ s with recs := { s.recs with live := [], nextSeq := 1 } }).showTlog
    (s.notice 0xC8).detect 202 0
  else s.reject 0xC8

def execTlgClear (who : Requester) (s : State) : Host.Outcome State Fault Refusal :=
  .next (finish (s.begin.command (.tlgClear who) (s.admission who 0xC8) 0xC8 State.tlgClear))

/-- R479, Table 17-4: `REC.CTRL.CLEAR`, under maintenance access; during a flush it waits. -/
def State.recClearWrite (s : State) : State :=
  if s.maint.isOpen then
    if s.recs.writing ≠ 0 then { s with recs := { s.recs with clearWaits := true } }.wr R.REC_CTRL_CLEAR 1 else s.recClear
  else s.reject 0xC9

def execRecClear (who : Requester) (s : State) : Host.Outcome State Fault Refusal :=
  .next (finish (s.begin.command (.recClear who) (s.admission who 0xC9) 0xC9 State.recClearWrite))

/-- R477: a flush starts on `CTRL.FLUSH`, hourly, and in K6 after the seal; from K3 on only the kiln's own flush starts. -/
def State.recFlush (s : State) : State :=
  if s.inKiln ∧ 3 ≤ s.kilnPhase ∧ ¬ s.kiln.sealed then s else s.flushStart

/-- `CTRL.FLUSH` written by a requester: the bit reads 1 until the flush ends (R8); without one, the hour or K6. -/
def State.recFlushBy (s : State) (who : Option Requester) : State :=
  match who with
  | some w => s.command (.recFlush who) (s.admission w 0xC9) 0xC9 (fun s => (s.wr R.REC_CTRL_FLUSH 1).recFlush)
  | none => s.cond s.paged State.recFlush

def execRecFlush (who : Option Requester) (s : State) : Host.Outcome State Fault Refusal :=
  .next (finish (s.begin.recFlushBy who))

def execRecFlushDone (ok : Bool) (s : State) : Host.Outcome State Fault Refusal := .next (finish (s.begin.flushEnd ok))

end Sys2Proof.Machine
end

