-- ==== Sys2Proof/Machine/Resume.lean ====
section
/-!
DEFINITION. Machine/Resume.lean: a processor that runs again takes up the commands that waited for it (R18, R105, R521), and the
events after which a processor runs again.
-/

namespace Sys2Proof.Machine

open Sys2Proof

/-! ### Commands that waited -/

/-- A command that waited runs as it does when it arrives; the commands that never wait are not among these. -/
def execHeld (c : Instr) (s : State) : Host.Outcome State Fault Refusal :=
  match c with
  | .identify port => execIdentify port s
  | .getHealthInfo port => execGetHealthInfo port s
  | .getEventRecords port log => execGetEventRecords port log s
  | .clearEventRecords port log all handles => execClearEventRecords port log all handles s
  | .getSupportedLogs port => execGetSupportedLogs port s
  | .getLog port => execGetLog port s
  | .getFwInfo port => execGetFwInfo port s
  | .getTimestamp port => execGetTimestamp port s
  | .setTimestamp port seconds => execSetTimestamp port seconds s
  | .getAlertConfiguration port => execGetAlertConfiguration port s
  | .setAlertConfiguration port limits => execSetAlertConfiguration port limits s
  | .setShutdownState port value => execSetShutdownState port value s
  | .getPoisonList port base n => execGetPoisonList port base n s
  | .injectPoison port line setFull => execInjectPoison port line setFull s
  | .clearPoison port line bytes setFull => execClearPoison port line bytes setFull s
  | .scanMedia port base n found => execScanMedia port base n found s
  | .sanitize port => execSanitize port s
  | .secureErase port => execSecureErase port s
  | .getCorirvoInfo port => execGetCorirvoInfo port s
  | .getPersistenceReport port => execGetPersistenceReport port s
  | .setPartition port aBase aSize bBase bSize => execSetPartition port aBase aSize bBase bSize s
  | .plannedKiln port p3 group => execPlannedKiln port p3 group s
  | .caskUnlock port key => execCaskUnlock port key s
  | .setCaskHostKey port current new second => execSetCaskHostKey port current new second s
  | .readTroubleLog port src first bad => execReadTroubleLog port src first bad s
  | .readEventRecorder port first => execReadEventRecorder port first s
  | .rackExport port target owner granule count remote => execRackExport port target owner granule count remote s
  | .brewTransfer port off len data ok => execBrewTransfer port off len data ok s
  | .updateStatus port => execUpdateStatus port s
  | .updateStart port len => execUpdateStart port len s
  | .updateActivate port => execUpdateActivate port s
  | .updateActivateAtReset port => execUpdateActivateAtReset port s
  | .updateAbort port => execUpdateAbort port s
  | .transferFwInitiate port => execTransferFwInitiate port s
  | .transferFwContinue port off len data ok => execTransferFwContinue port off len data ok s
  | .transferFwEnd port => execTransferFwEnd port s
  | .transferFwAbort port => execTransferFwAbort port s
  | .transferFwFull port len data ok => execTransferFwFull port len data ok s
  | .activateFwOnline port => execActivateFwOnline port s
  | .activateFwReset port => execActivateFwReset port s
  | .commit who page => execCommit who page s
  | .enableClear who page => execEnableClear who page s
  | .enableSet who page => execEnableSet who page s
  | .softReset who page => execSoftReset who page s
  | .tlgClear who => execTlgClear who s
  | .recClear who => execRecClear who s
  | .testDischarge who port => execTestDischarge who port s
  | .relearn who => execRelearn who s
  | .cntClearRail who => execCntClearRail who s
  | .cntClearAll who => execCntClearAll who s
  | .railMarginWrite who pct10 => execRailMarginWrite who pct10 s
  | .moduleCal who uv => execModuleCal who uv s
  | .histRearm who => execHistRearm who s
  | .errnTest who => execErrnTest who s
  | .kilnArmWrite who on => execKilnArmWrite who on s
  | .calRun who => execCalRun who s
  | .authRun who port daily => execAuthRun who port daily s
  | .recFlush who => execRecFlush who s
  | _ => .next s

/-- One command that waited: its mailbox is free for it again, it runs, and what it sends out follows what was sent before. -/
def State.takeOne (s : State) (c : Instr) : State :=
  let s := match mailPort c with
    | none => s
    | some p => s.setHost p { s.host p with waiting := none }
  match execHeld c s with
  | .next t => { t with out := s.out ++ t.out }
  | .fault _ => s
  | .refused _ => s

/-- The commands that waited are taken up in the order of their arrival; one whose processor is still stopped waits on. -/
def State.takeUp (s : State) : State := s.held.foldl State.takeOne { s with held := [] }

/-! ### Events after which a processor runs again -/

def execReactionDone (s : State) : Host.Outcome State Fault Refusal := .next (finish s.begin.reactionDone).takeUp

def execWatchdogExpiry (proc : Nat) (s : State) : Host.Outcome State Fault Refusal := .next (finish (s.begin.watchdog proc)).takeUp

def execLockstepMismatch (s : State) : Host.Outcome State Fault Refusal := .next (finish s.begin.lockstep).takeUp

def execHandoverRunning (ms : Nat) (blocks : List Nat) (s : State) : Host.Outcome State Fault Refusal :=
  .next (finish (s.begin.handoverDone ms blocks)).takeUp

/-- R522: a hand-over fails. -/
def execHandoverFail (s : State) : Host.Outcome State Fault Refusal :=
  .next (finish (s.begin.cond (s.rd R.UPD_STAT_STATE == 4) State.handoverBack)).takeUp

end Sys2Proof.Machine
end

