-- ==== Sys2Proof/Machine/Dispatch.lean ====
section
/-!
DEFINITION. Machine/Dispatch.lean: the meaning of each command, one arm for each constructor.
-/

namespace Sys2Proof.Machine

open Sys2Proof

def exec (i : Instr) (s : State) : Host.Outcome State Fault Refusal :=
  match i with
  | .acceptedCrossing ticks acOk => Sys2Proof.Machine.execAcceptedCrossing ticks acOk s
  | .rejectedCrossing => Sys2Proof.Machine.execRejectedCrossing s
  | .placedFallingCrossing => Sys2Proof.Machine.execPlacedFallingCrossing s
  | .lockLost => Sys2Proof.Machine.execLockLost s
  | .puAdvance => Sys2Proof.Machine.execPuAdvance s
  | .pseudoHalfCycleEnd => Sys2Proof.Machine.execPseudoHalfCycleEnd s
  | .missingHalfCycle acOk => Sys2Proof.Machine.execMissingHalfCycle acOk s
  | .scheduledEventFire slot => Sys2Proof.Machine.execScheduledEventFire slot s
  | .acOkLowTimeout => Sys2Proof.Machine.execAcOkLowTimeout s
  | .acOkHighTimeout => Sys2Proof.Machine.execAcOkHighTimeout s
  | .conversionFrame f => Sys2Proof.Machine.execConversionFrame f s
  | .chargeDeadlineFire slot => Sys2Proof.Machine.execChargeDeadlineFire slot s
  | .chargeDeadlineArm slot target => Sys2Proof.Machine.execChargeDeadlineArm slot target s
  | .gaugePathImplausible pack => Sys2Proof.Machine.execGaugePathImplausible pack s
  | .gaugePathPlausible pack => Sys2Proof.Machine.execGaugePathPlausible pack s
  | .opsecTick => Sys2Proof.Machine.execOpsecTick s
  | .readLoLatch who a size => Sys2Proof.Machine.execReadLoLatch who a size s
  | .registerWrite who a size value => Sys2Proof.Machine.execRegisterWrite who a size value s
  | .commit who page => Sys2Proof.Machine.execCommit who page s
  | .safePointCommitApply page => Sys2Proof.Machine.execSafePointCommitApply page s
  | .softReset who page => Sys2Proof.Machine.execSoftReset who page s
  | .enableClear who page => Sys2Proof.Machine.execEnableClear who page s
  | .blockHalt page => Sys2Proof.Machine.execBlockHalt page s
  | .enableSet who page => Sys2Proof.Machine.execEnableSet who page s
  | .fltStatClear who page mask => Sys2Proof.Machine.execFltStatClear who page mask s
  | .faultInject who page bit seen => Sys2Proof.Machine.execFaultInject who page bit seen s
  | .pageLock who page => Sys2Proof.Machine.execPageLock who page s
  | .maintUnlock who strap value => Sys2Proof.Machine.execMaintUnlock who strap value s
  | .maintIdleTimeout => Sys2Proof.Machine.execMaintIdleTimeout s
  | .maintStrapLow => Sys2Proof.Machine.execMaintStrapLow s
  | .hostWrite port tag line load bytes poison setFull ecc => Sys2Proof.Machine.execHostWrite port tag line load bytes poison setFull ecc s
  | .hostRead port tag line load ecc => Sys2Proof.Machine.execHostRead port tag line load ecc s
  | .linkTrained port width rate flit256 cxl corr replay bad => Sys2Proof.Machine.execLinkTrained port width rate flit256 cxl corr replay bad s
  | .portReset port perst => Sys2Proof.Machine.execPortReset port perst s
  | .linkDown port => Sys2Proof.Machine.execLinkDown port s
  | .decoderCommit port n base size ways gran => Sys2Proof.Machine.execDecoderCommit port n base size ways gran s
  | .gpfPhase1 port => Sys2Proof.Machine.execGpfPhase1 port s
  | .gpfPhase2Request port => Sys2Proof.Machine.execGpfPhase2Request port s
  | .gpfPhase2Done port => Sys2Proof.Machine.execGpfPhase2Done port s
  | .gpfWindowExpired port => Sys2Proof.Machine.execGpfWindowExpired port s
  | .mailboxTimeout port => Sys2Proof.Machine.execMailboxTimeout port s
  | .identify port => Sys2Proof.Machine.execIdentify port s
  | .getHealthInfo port => Sys2Proof.Machine.execGetHealthInfo port s
  | .getEventRecords port log => Sys2Proof.Machine.execGetEventRecords port log s
  | .clearEventRecords port log all handles => Sys2Proof.Machine.execClearEventRecords port log all handles s
  | .getSupportedLogs port => Sys2Proof.Machine.execGetSupportedLogs port s
  | .getLog port => Sys2Proof.Machine.execGetLog port s
  | .getFwInfo port => Sys2Proof.Machine.execGetFwInfo port s
  | .getTimestamp port => Sys2Proof.Machine.execGetTimestamp port s
  | .setTimestamp port seconds => Sys2Proof.Machine.execSetTimestamp port seconds s
  | .getAlertConfiguration port => Sys2Proof.Machine.execGetAlertConfiguration port s
  | .setAlertConfiguration port limits => Sys2Proof.Machine.execSetAlertConfiguration port limits s
  | .setShutdownState port value => Sys2Proof.Machine.execSetShutdownState port value s
  | .scanMedia port base n found => Sys2Proof.Machine.execScanMedia port base n found s
  | .getPoisonList port base n => Sys2Proof.Machine.execGetPoisonList port base n s
  | .injectPoison port line setFull => Sys2Proof.Machine.execInjectPoison port line setFull s
  | .clearPoison port line bytes setFull => Sys2Proof.Machine.execClearPoison port line bytes setFull s
  | .sanitize port => Sys2Proof.Machine.execSanitize port s
  | .secureErase port => Sys2Proof.Machine.execSecureErase port s
  | .sanitizeComplete port => Sys2Proof.Machine.execSanitizeComplete port s
  | .getCorirvoInfo port => Sys2Proof.Machine.execGetCorirvoInfo port s
  | .getPersistenceReport port => Sys2Proof.Machine.execGetPersistenceReport port s
  | .setPartition port aBase aSize bBase bSize => Sys2Proof.Machine.execSetPartition port aBase aSize bBase bSize s
  | .plannedKiln port p3 group => Sys2Proof.Machine.execPlannedKiln port p3 group s
  | .caskUnlock port key => Sys2Proof.Machine.execCaskUnlock port key s
  | .setCaskHostKey port current new second => Sys2Proof.Machine.execSetCaskHostKey port current new second s
  | .readTroubleLog port src first bad => Sys2Proof.Machine.execReadTroubleLog port src first bad s
  | .readEventRecorder port first => Sys2Proof.Machine.execReadEventRecorder port first s
  | .rackExport port target owner granule count remote => Sys2Proof.Machine.execRackExport port target owner granule count remote s
  | .brewTransfer port off len data ok => Sys2Proof.Machine.execBrewTransfer port off len data ok s
  | .updateStatus port => Sys2Proof.Machine.execUpdateStatus port s
  | .updateStart port len => Sys2Proof.Machine.execUpdateStart port len s
  | .updateActivate port => Sys2Proof.Machine.execUpdateActivate port s
  | .updateActivateAtReset port => Sys2Proof.Machine.execUpdateActivateAtReset port s
  | .updateAbort port => Sys2Proof.Machine.execUpdateAbort port s
  | .transferFwInitiate port => Sys2Proof.Machine.execTransferFwInitiate port s
  | .transferFwContinue port off len data ok => Sys2Proof.Machine.execTransferFwContinue port off len data ok s
  | .transferFwEnd port => Sys2Proof.Machine.execTransferFwEnd port s
  | .transferFwAbort port => Sys2Proof.Machine.execTransferFwAbort port s
  | .transferFwFull port len data ok => Sys2Proof.Machine.execTransferFwFull port len data ok s
  | .activateFwOnline port => Sys2Proof.Machine.execActivateFwOnline port s
  | .activateFwReset port => Sys2Proof.Machine.execActivateFwReset port s
  | .patrolStep chan found => Sys2Proof.Machine.execPatrolStep chan found s
  | .patrolOverdue chan => Sys2Proof.Machine.execPatrolOverdue chan s
  | .retireCopyDone granule found => Sys2Proof.Machine.execRetireCopyDone granule found s
  | .sparingCopyStep found => Sys2Proof.Machine.execSparingCopyStep found s
  | .rankShedTimeout chan rank => Sys2Proof.Machine.execRankShedTimeout chan rank s
  | .dirtyScrubStart => Sys2Proof.Machine.execDirtyScrubStart s
  | .dirtyScrubEnd bad vol => Sys2Proof.Machine.execDirtyScrubEnd bad vol s
  | .heatEpochEnd bad => Sys2Proof.Machine.execHeatEpochEnd bad s
  | .budgetCompute => Sys2Proof.Machine.execBudgetCompute s
  | .safeBoundCheck => Sys2Proof.Machine.execSafeBoundCheck s
  | .hostEnergyWrite who ct => Sys2Proof.Machine.execHostEnergyWrite who ct s
  | .hostEnergyExpired => Sys2Proof.Machine.execHostEnergyExpired s
  | .witherTick n space => Sys2Proof.Machine.execWitherTick n space s
  | .copyReadDone granule addr found bad => Sys2Proof.Machine.execCopyReadDone granule addr found bad s
  | .mapCommit granules => Sys2Proof.Machine.execMapCommit granules s
  | .stripeCloseTimeout addrs => Sys2Proof.Machine.execStripeCloseTimeout addrs s
  | .wearAllowanceRecompute => Sys2Proof.Machine.execWearAllowanceRecompute s
  | .enduranceRecompute => Sys2Proof.Machine.execEnduranceRecompute s
  | .codewordReadDone addr step errs what => Sys2Proof.Machine.execCodewordReadDone addr step errs what s
  | .nandProgramFail chan die blk page granules => Sys2Proof.Machine.execNandProgramFail chan die blk page granules s
  | .nandEraseDone group failed => Sys2Proof.Machine.execNandEraseDone group failed s
  | .dieTimeout chan die => Sys2Proof.Machine.execDieTimeout chan die s
  | .channelDead chan => Sys2Proof.Machine.execChannelDead chan s
  | .mapFlushDone region addr => Sys2Proof.Machine.execMapFlushDone region addr s
  | .mapScrub bad => Sys2Proof.Machine.execMapScrub bad s
  | .garbageCollectMove what addr step => Sys2Proof.Machine.execGarbageCollectMove what addr step s
  | .wearLevelCheck addrs => Sys2Proof.Machine.execWearLevelCheck addrs s
  | .foldMoveCommit granule addr step => Sys2Proof.Machine.execFoldMoveCommit granule addr step s
  | .flashPatrolStep pct found => Sys2Proof.Machine.execFlashPatrolStep pct found s
  | .flashPatrolOverdue => Sys2Proof.Machine.execFlashPatrolOverdue s
  | .mainInFail => Sys2Proof.Machine.execMainInFail s
  | .mainInWarn => Sys2Proof.Machine.execMainInWarn s
  | .primedClear => Sys2Proof.Machine.execPrimedClear s
  | .ewEscalation => Sys2Proof.Machine.execEwEscalation s
  | .packPathTimeout => Sys2Proof.Machine.execPackPathTimeout s
  | .kilnSnapshotDone => Sys2Proof.Machine.execKilnSnapshotDone s
  | .kilnShedDone => Sys2Proof.Machine.execKilnShedDone s
  | .kilnStripeProgrammed slots ue unread bad => Sys2Proof.Machine.execKilnStripeProgrammed slots ue unread bad s
  | .drainComplete reason => Sys2Proof.Machine.execDrainComplete reason s
  | .sealComplete hdrA hdrB rewritten secLost found => Sys2Proof.Machine.execSealComplete hdrA hdrB rewritten secLost found s
  | .kilnPowerDownDone => Sys2Proof.Machine.execKilnPowerDownDone s
  | .kilnCancel => Sys2Proof.Machine.execKilnCancel s
  | .phaseTimeOverrun => Sys2Proof.Machine.execPhaseTimeOverrun s
  | .holdupCollapse control => Sys2Proof.Machine.execHoldupCollapse control s
  | .kilnSelftest cmpOk shedOk romOk => Sys2Proof.Machine.execKilnSelftest cmpOk shedOk romOk s
  | .kilnArmWrite who on => Sys2Proof.Machine.execKilnArmWrite who on s
  | .mainInStable => Sys2Proof.Machine.execMainInStable s
  | .bootStepDone n ok cause ms found => Sys2Proof.Machine.execBootStepDone n ok cause ms found s
  | .bulkDelayElapsed => Sys2Proof.Machine.execBulkDelayElapsed s
  | .demandFillDone granule mapStep step us busy => Sys2Proof.Machine.execDemandFillDone granule mapStep step us busy s
  | .fillCeiling port tag => Sys2Proof.Machine.execFillCeiling port tag s
  | .bulkFillDone mapStep step busy => Sys2Proof.Machine.execBulkFillDone mapStep step busy s
  | .sqDoorbell port q tail => Sys2Proof.Machine.execSqDoorbell port q tail s
  | .cqDoorbell port q head => Sys2Proof.Machine.execCqDoorbell port q head s
  | .queueEnable port q => Sys2Proof.Machine.execQueueEnable port q s
  | .queueDisable port q => Sys2Proof.Machine.execQueueDisable port q s
  | .descriptorFetch words => Sys2Proof.Machine.execDescriptorFetch words s
  | .dmaFailure q kind => Sys2Proof.Machine.execDmaFailure q kind s
  | .nop q cid => Sys2Proof.Machine.execNop q cid s
  | .fenceDurable q cid n => Sys2Proof.Machine.execFenceDurable q cid n s
  | .rack q cid => Sys2Proof.Machine.execRack q cid s
  | .rackFence q cid => Sys2Proof.Machine.execRackFence q cid s
  | .copy q cid n found full => Sys2Proof.Machine.execCopy q cid n found full s
  | .zero q cid n full => Sys2Proof.Machine.execZero q cid n full s
  | .pin q cid => Sys2Proof.Machine.execPin q cid s
  | .heatHint q cid n => Sys2Proof.Machine.execHeatHint q cid n s
  | .discard q cid n => Sys2Proof.Machine.execDiscard q cid n s
  | .volatileSet q cid => Sys2Proof.Machine.execVolatileSet q cid s
  | .query q cid ok => Sys2Proof.Machine.execQuery q cid ok s
  | .commandComplete q cid us => Sys2Proof.Machine.execCommandComplete q cid us s
  | .coalesceTimeout port vec => Sys2Proof.Machine.execCoalesceTimeout port vec s
  | .cqFullTimeout q => Sys2Proof.Machine.execCqFullTimeout q s
  | .chainTimeout q => Sys2Proof.Machine.execChainTimeout q s
  | .intRecordDiscard port q => Sys2Proof.Machine.execIntRecordDiscard port q s
  | .helloTx port => Sys2Proof.Machine.execHelloTx port s
  | .helloRx port p => Sys2Proof.Machine.execHelloRx port p s
  | .hellosMissed port => Sys2Proof.Machine.execHellosMissed port s
  | .trainingDone port bad => Sys2Proof.Machine.execTrainingDone port bad s
  | .trainingTimeout port => Sys2Proof.Machine.execTrainingTimeout port s
  | .laneFail port lane exp => Sys2Proof.Machine.execLaneFail port lane exp s
  | .linkFrameRx port plane kind seq crcOk => Sys2Proof.Machine.execLinkFrameRx port plane kind seq crcOk s
  | .replayRetrainTimeout port => Sys2Proof.Machine.execReplayRetrainTimeout port s
  | .packetRx port plane p => Sys2Proof.Machine.execPacketRx port plane p s
  | .lsaPeriodic => Sys2Proof.Machine.execLsaPeriodic s
  | .lsaAgeOut eui => Sys2Proof.Machine.execLsaAgeOut eui s
  | .claimWindowEnd => Sys2Proof.Machine.execClaimWindowEnd s
  | .routeInstall ms => Sys2Proof.Machine.execRouteInstall ms s
  | .convergenceTimeout => Sys2Proof.Machine.execConvergenceTimeout s
  | .alarmSummaryTx kind => Sys2Proof.Machine.execAlarmSummaryTx kind s
  | .phantomOvercurrent port => Sys2Proof.Machine.execPhantomOvercurrent port s
  | .rackSendStart target region found => Sys2Proof.Machine.execRackSendStart target region found s
  | .ackTimeout target region => Sys2Proof.Machine.execAckTimeout target region s
  | .rackOpenRetry target => Sys2Proof.Machine.execRackOpenRetry target s
  | .guestRegionCommit slot region => Sys2Proof.Machine.execGuestRegionCommit slot region s
  | .guestRelease who => Sys2Proof.Machine.execGuestRelease who s
  | .packInserted port => Sys2Proof.Machine.execPackInserted port s
  | .packIdentified port answered serial chem cells4 => Sys2Proof.Machine.execPackIdentified port answered serial chem cells4 s
  | .packRemoved port => Sys2Proof.Machine.execPackRemoved port s
  | .authResponse port answer => Sys2Proof.Machine.execAuthResponse port answer s
  | .authRun who port daily => Sys2Proof.Machine.execAuthRun who port daily s
  | .authOverrideWrite who port value => Sys2Proof.Machine.execAuthOverrideWrite who port value s
  | .packAtRest port lo hi => Sys2Proof.Machine.execPackAtRest port lo hi s
  | .gaugeDisagree port => Sys2Proof.Machine.execGaugeDisagree port s
  | .relearn who => Sys2Proof.Machine.execRelearn who s
  | .noRest72h port => Sys2Proof.Machine.execNoRest72h port s
  | .restWindowEnd => Sys2Proof.Machine.execRestWindowEnd s
  | .switchoverTest port => Sys2Proof.Machine.execSwitchoverTest port s
  | .pulseTest port => Sys2Proof.Machine.execPulseTest port s
  | .packTestDone port us ma ri vFloor => Sys2Proof.Machine.execPackTestDone port us ma ri vFloor s
  | .testDischarge who port => Sys2Proof.Machine.execTestDischarge who port s
  | .cellOvervoltage port => Sys2Proof.Machine.execCellOvervoltage port s
  | .chargerFaultTimeout port kind => Sys2Proof.Machine.execChargerFaultTimeout port kind s
  | .seqProgramStart n crcOk => Sys2Proof.Machine.execSeqProgramStart n crcOk s
  | .seqWaitDone => Sys2Proof.Machine.execSeqWaitDone s
  | .seqCheckDone => Sys2Proof.Machine.execSeqCheckDone s
  | .seqCheckTimeout => Sys2Proof.Machine.execSeqCheckTimeout s
  | .syncAdvance => Sys2Proof.Machine.execSyncAdvance s
  | .syncTimeout => Sys2Proof.Machine.execSyncTimeout s
  | .programOverrun => Sys2Proof.Machine.execProgramOverrun s
  | .inputCollapse => Sys2Proof.Machine.execInputCollapse s
  | .collapseNoKilnTimeout => Sys2Proof.Machine.execCollapseNoKilnTimeout s
  | .railMarginWrite who pct10 => Sys2Proof.Machine.execRailMarginWrite who pct10 s
  | .marginStep => Sys2Proof.Machine.execMarginStep s
  | .cntClearRail who => Sys2Proof.Machine.execCntClearRail who s
  | .cntClearAll who => Sys2Proof.Machine.execCntClearAll who s
  | .railCounterSave => Sys2Proof.Machine.execRailCounterSave s
  | .sqpDataAccess who write => Sys2Proof.Machine.execSqpDataAccess who write s
  | .mrNPressRelease ms => Sys2Proof.Machine.execMrNPressRelease ms s
  | .mrNHold4s => Sys2Proof.Machine.execMrNHold4s s
  | .forceOff => Sys2Proof.Machine.execForceOff s
  | .restDwellMet p1 p2 => Sys2Proof.Machine.execRestDwellMet p1 p2 s
  | .restExitEvent => Sys2Proof.Machine.execRestExitEvent s
  | .restExitDone us => Sys2Proof.Machine.execRestExitDone us s
  | .patrolCatchup => Sys2Proof.Machine.execPatrolCatchup s
  | .perstWake port => Sys2Proof.Machine.execPerstWake port s
  | .timerWake => Sys2Proof.Machine.execTimerWake s
  | .mainInLostP3 => Sys2Proof.Machine.execMainInLostP3 s
  | .startTimeout => Sys2Proof.Machine.execStartTimeout s
  | .startRetry => Sys2Proof.Machine.execStartRetry s
  | .forceCold who => Sys2Proof.Machine.execForceCold who s
  | .clearFails who => Sys2Proof.Machine.execClearFails who s
  | .clearRecovery who => Sys2Proof.Machine.execClearRecovery who s
  | .islandSupplyChange source present => Sys2Proof.Machine.execIslandSupplyChange source present s
  | .islandPowerOn => Sys2Proof.Machine.execIslandPowerOn s
  | .reactionDone => Sys2Proof.Machine.execReactionDone s
  | .quietExpired => Sys2Proof.Machine.execQuietExpired s
  | .eventSourceRelease src => Sys2Proof.Machine.execEventSourceRelease src s
  | .errnReadback low => Sys2Proof.Machine.execErrnReadback low s
  | .errnTest who => Sys2Proof.Machine.execErrnTest who s
  | .histRearm who => Sys2Proof.Machine.execHistRearm who s
  | .injectionTimeout src inst => Sys2Proof.Machine.execInjectionTimeout src inst s
  | .lockstepMismatch => Sys2Proof.Machine.execLockstepMismatch s
  | .watchdogExpiry proc => Sys2Proof.Machine.execWatchdogExpiry proc s
  | .comparatorTest ok okOther => Sys2Proof.Machine.execComparatorTest ok okOther s
  | .tlogRateSummary => Sys2Proof.Machine.execTlogRateSummary s
  | .tlgClear who => Sys2Proof.Machine.execTlgClear who s
  | .recClear who => Sys2Proof.Machine.execRecClear who s
  | .recFlush who => Sys2Proof.Machine.execRecFlush who s
  | .recFlushDone ok => Sys2Proof.Machine.execRecFlushDone ok s
  | .calRun who => Sys2Proof.Machine.execCalRun who s
  | .calTempCheck => Sys2Proof.Machine.execCalTempCheck s
  | .adcCalDone gain ofs trips again => Sys2Proof.Machine.execAdcCalDone gain ofs trips again s
  | .moduleCal who uv => Sys2Proof.Machine.execModuleCal who uv s
  | .vrefCheck uv => Sys2Proof.Machine.execVrefCheck uv s
  | .cflKeyWrite fw who value => Sys2Proof.Machine.execCflKeyWrite fw who value s
  | .wordProgram fw who addr word => Sys2Proof.Machine.execWordProgram fw who addr word s
  | .sectorErase fw who addr => Sys2Proof.Machine.execSectorErase fw who addr s
  | .blockErase fw who addr => Sys2Proof.Machine.execBlockErase fw who addr s
  | .sequenceReset fw who => Sys2Proof.Machine.execSequenceReset fw who s
  | .flashOpDone bank ok => Sys2Proof.Machine.execFlashOpDone bank ok s
  | .codeFlashCheck corrected bad => Sys2Proof.Machine.execCodeFlashCheck corrected bad s
  | .updateLockExpired => Sys2Proof.Machine.execUpdateLockExpired s
  | .verifyDone k => Sys2Proof.Machine.execVerifyDone k s
  | .handoverRunning ms blocks => Sys2Proof.Machine.execHandoverRunning ms blocks s
  | .handoverFail => Sys2Proof.Machine.execHandoverFail s
  | .confirmWindowEnd cmpOk shedOk romOk => Sys2Proof.Machine.execConfirmWindowEnd cmpOk shedOk romOk s
  | .packPathConfirmed => Sys2Proof.Machine.execPackPathConfirmed s
  | .powerReturn => Sys2Proof.Machine.execPowerReturn s
  | .clockFault domain => Sys2Proof.Machine.execClockFault domain s
  | .clockBackInTolerance domain => Sys2Proof.Machine.execClockBackInTolerance domain s
  | .xtal25Lost => Sys2Proof.Machine.execXtal25Lost s
  | .trainingRetry port => Sys2Proof.Machine.execTrainingRetry port s
  | .phantomFeedRetry port => Sys2Proof.Machine.execPhantomFeedRetry port s
  | .authRetry port => Sys2Proof.Machine.execAuthRetry port s

end Sys2Proof.Machine
end

