-- ==== Sys2Proof/Safety.lean ====
section
/-!
DEFINITION. Safety.lean: the terms in which the statements speak of states: the canonical form that every step keeps, a calm
state (no fault source active and none detected, the normal operation of R460), and what it means that a command changed only
certain register fields.
-/

/-! ## What a command may write -/

namespace Sys2Proof

/-- A command that may begin a start or end one: the start rebuilds the state from what survives it (Table 15-5, R435). -/
def Instr.begins (c : Instr) : Bool :=
  match c with
  | .acceptedCrossing .. | .placedFallingCrossing .. | .pseudoHalfCycleEnd .. | .missingHalfCycle .. |
  .scheduledEventFire .. | .chargeDeadlineFire .. | .chargeDeadlineArm .. | .kilnPowerDownDone .. | .mainInStable ..
  | .packetRx .. | .seqProgramStart .. | .seqWaitDone .. | .seqCheckDone .. | .seqCheckTimeout .. | .syncAdvance ..
  | .syncTimeout .. | .mrNPressRelease .. | .perstWake .. | .timerWake .. | .startRetry .. | .clearRecovery .. |
  .verifyDone .. => true
  | _ => false

/-- Beside the starts, a command that may change the DRAM: its bytes, its poison, its repair state. -/
def Instr.writesDram (c : Instr) : Bool :=
  match c with
  | .registerWrite .. | .safePointCommitApply .. | .softReset .. | .blockHalt .. | .hostWrite .. | .hostRead .. |
  .gpfPhase2Request .. | .scanMedia .. | .injectPoison .. | .clearPoison .. | .sanitizeComplete .. | .patrolStep ..
  | .retireCopyDone .. | .sparingCopyStep .. | .rankShedTimeout .. | .copyReadDone .. | .kilnShedDone .. |
  .kilnStripeProgrammed .. | .drainComplete .. | .sealComplete .. | .bootStepDone .. | .demandFillDone .. |
  .bulkFillDone .. | .copy .. | .zero .. | .rackSendStart .. | .islandPowerOn .. | .reactionDone .. |
  .lockstepMismatch .. | .watchdogExpiry .. | .handoverRunning .. | .handoverFail .. => true
  | _ => false

/-- Beside the starts, a command that may change the dirty state: bits, summary, heat, volatile ranges, copies in flight. -/
def Instr.writesDirty (c : Instr) : Bool :=
  match c with
  | .registerWrite .. | .safePointCommitApply .. | .softReset .. | .blockHalt .. | .hostWrite .. | .injectPoison ..
  | .clearPoison .. | .sanitizeComplete .. | .patrolStep .. | .retireCopyDone .. | .dirtyScrubStart .. |
  .dirtyScrubEnd .. | .heatEpochEnd .. | .budgetCompute .. | .witherTick .. | .copyReadDone .. | .mapCommit .. |
  .codewordReadDone .. | .nandProgramFail .. | .mapScrub .. | .garbageCollectMove .. | .wearLevelCheck .. |
  .foldMoveCommit .. | .flashPatrolStep .. | .kilnSnapshotDone .. | .kilnStripeProgrammed .. | .bootStepDone .. |
  .demandFillDone .. | .bulkFillDone .. | .fenceDurable .. | .copy .. | .zero .. | .heatHint .. | .discard .. |
  .volatileSet .. | .reactionDone .. | .lockstepMismatch .. | .watchdogExpiry .. | .handoverRunning .. |
  .handoverFail .. => true
  | _ => false

/-- Beside the starts, a command that may change the cellar: flash contents, map, directory, key copies, manifests. -/
def Instr.writesCellar (c : Instr) : Bool :=
  match c with
  | .opsecTick .. | .registerWrite .. | .commit .. | .safePointCommitApply .. | .softReset .. | .blockHalt .. |
  .linkTrained .. | .setTimestamp .. | .sanitizeComplete .. | .caskUnlock .. | .setCaskHostKey .. | .patrolStep .. |
  .mapCommit .. | .stripeCloseTimeout .. | .enduranceRecompute .. | .codewordReadDone .. | .nandProgramFail .. |
  .nandEraseDone .. | .dieTimeout .. | .channelDead .. | .mapFlushDone .. | .mapScrub .. | .garbageCollectMove .. |
  .wearLevelCheck .. | .foldMoveCommit .. | .flashPatrolStep .. | .kilnStripeProgrammed .. | .sealComplete .. |
  .bootStepDone .. | .demandFillDone .. | .bulkFillDone .. | .discard .. | .volatileSet .. | .guestRegionCommit .. |
  .reactionDone .. | .lockstepMismatch .. | .watchdogExpiry .. | .recFlushDone .. | .handoverRunning .. |
  .handoverFail .. => true
  | _ => false

/-- Beside the starts, a command that may change the code flash: its words, its key sequences, its operations. -/
def Instr.writesFlash (c : Instr) : Bool :=
  match c with
  | .registerWrite .. | .brewTransfer .. | .updateActivateAtReset .. | .transferFwContinue .. | .transferFwFull .. |
  .activateFwReset .. | .kilnSnapshotDone .. | .bootStepDone .. | .reactionDone .. | .lockstepMismatch .. |
  .watchdogExpiry .. | .moduleCal .. | .cflKeyWrite .. | .wordProgram .. | .sectorErase .. | .blockErase .. |
  .sequenceReset .. | .flashOpDone .. | .codeFlashCheck .. | .handoverRunning .. | .handoverFail .. |
  .confirmWindowEnd .. => true
  | _ => false

/-- Beside the starts, a command that may change what the budget unit and the bucket keep. -/
def Instr.writesBudget (c : Instr) : Bool :=
  match c with
  | .registerWrite .. | .commit .. | .safePointCommitApply .. | .softReset .. | .blockHalt .. | .linkTrained .. |
  .safeBoundCheck .. | .hostEnergyWrite .. | .hostEnergyExpired .. | .witherTick .. | .mapCommit .. |
  .wearAllowanceRecompute .. | .sealComplete .. | .bootStepDone .. | .reactionDone .. | .lockstepMismatch .. |
  .watchdogExpiry .. | .handoverRunning .. | .handoverFail .. => true
  | _ => false

/-- Beside the starts, a command that may change the phase tracker or the event service. -/
def Instr.writesTrack (c : Instr) : Bool :=
  match c with
  | .lockLost .. | .acOkLowTimeout .. | .acOkHighTimeout .. | .conversionFrame .. | .gaugePathImplausible .. |
  .gaugePathPlausible .. | .registerWrite .. | .commit .. | .safePointCommitApply .. | .softReset .. | .blockHalt ..
  | .linkTrained .. | .bootStepDone .. | .packIdentified .. | .packRemoved .. | .noRest72h .. | .restWindowEnd .. |
  .testDischarge .. | .cellOvervoltage .. | .chargerFaultTimeout .. | .reactionDone .. | .lockstepMismatch .. |
  .watchdogExpiry .. | .handoverRunning .. | .handoverFail .. => true
  | _ => false

/-- A CXL.mem access, the one kind of command that may stop the device (R83). -/
def Instr.accessesMemory (c : Instr) : Bool :=
  match c with
  | .hostWrite .. | .hostRead .. => true
  | _ => false

/-- A command that writes no steady register (`Fld.reactive` says which these are). -/
def Instr.quietOnRegs (c : Instr) : Bool :=
  match c with
  | .enableClear .. | .enableSet .. | .fltStatClear .. | .faultInject .. | .pageLock .. | .maintIdleTimeout .. |
  .maintStrapLow .. | .portReset .. | .linkDown .. | .decoderCommit .. | .gpfPhase1 .. | .gpfPhase2Request .. |
  .gpfPhase2Done .. | .gpfWindowExpired .. | .mailboxTimeout .. | .identify .. | .getHealthInfo .. |
  .getEventRecords .. | .clearEventRecords .. | .getSupportedLogs .. | .getLog .. | .getFwInfo .. | .getTimestamp ..
  | .getAlertConfiguration .. | .setAlertConfiguration .. | .setShutdownState .. | .getPoisonList .. | .sanitize ..
  | .secureErase .. | .getCorirvoInfo .. | .getPersistenceReport .. | .setPartition .. | .plannedKiln .. |
  .readTroubleLog .. | .readEventRecorder .. | .rackExport .. | .updateStatus .. | .updateStart .. |
  .updateActivate .. | .updateActivateAtReset .. | .updateAbort .. | .transferFwInitiate .. | .transferFwEnd .. |
  .transferFwAbort .. | .activateFwOnline .. | .activateFwReset .. | .patrolOverdue .. | .dirtyScrubStart .. |
  .hostEnergyExpired .. | .flashPatrolOverdue .. | .mainInFail .. | .mainInWarn .. | .primedClear .. |
  .ewEscalation .. | .packPathTimeout .. | .phaseTimeOverrun .. | .kilnSelftest .. | .kilnArmWrite .. |
  .bulkDelayElapsed .. | .fillCeiling .. | .sqDoorbell .. | .cqDoorbell .. | .queueEnable .. | .queueDisable .. |
  .descriptorFetch .. | .dmaFailure .. | .nop .. | .rack .. | .rackFence .. | .pin .. | .heatHint .. | .query .. |
  .commandComplete .. | .coalesceTimeout .. | .cqFullTimeout .. | .chainTimeout .. | .intRecordDiscard .. |
  .helloTx .. | .helloRx .. | .hellosMissed .. | .trainingTimeout .. | .linkFrameRx .. | .replayRetrainTimeout .. |
  .lsaPeriodic .. | .lsaAgeOut .. | .claimWindowEnd .. | .routeInstall .. | .convergenceTimeout .. |
  .alarmSummaryTx .. | .phantomOvercurrent .. | .ackTimeout .. | .rackOpenRetry .. | .guestRegionCommit .. |
  .guestRelease .. | .switchoverTest .. | .pulseTest .. | .programOverrun .. | .railMarginWrite .. | .marginStep ..
  | .cntClearRail .. | .cntClearAll .. | .railCounterSave .. | .mrNHold4s .. | .restExitEvent .. | .patrolCatchup ..
  | .mainInLostP3 .. | .quietExpired .. | .eventSourceRelease .. | .errnReadback .. | .errnTest .. | .histRearm .. |
  .injectionTimeout .. | .tlogRateSummary .. | .tlgClear .. | .calRun .. | .calTempCheck .. | .moduleCal .. |
  .vrefCheck .. | .updateLockExpired .. | .confirmWindowEnd .. | .packPathConfirmed .. | .clockFault .. |
  .clockBackInTolerance .. | .xtal25Lost .. | .trainingRetry .. | .phantomFeedRetry .. => true
  | _ => false

end Sys2Proof

namespace Sys2Proof.Machine

/-- What every step keeps: the canonical form of the state's sparse data (registers, staged values, high-word latches, DRAM:
equal contents are equal data, and a field reads as it was written), and the capacities that the spec gives the tables that grow:
trouble log 4,096 entries (R468), fault history 16 (R457), nested reactions 4 (R458), hint queue 4,096 (R276), in-flight
copies 16,384 (R159), event records 256 in each log of a port (R95). -/
structure State.Inv (s : State) : Prop where
  regs : s.regs.wf = true
  staged : s.staged.wf = true
  latched : s.latched.wf = true
  mem : s.dram.mem.wf = true
  tlog : s.recs.live.length ≤ 4096
  hist : s.safe.hist.length ≤ 16
  stack : s.safe.stack.length ≤ 4
  hints : s.steep.hints.length ≤ 4096
  inflight : s.dirty.inflight.length ≤ 16384
  logsA : ∀ l ∈ s.hostA.logs, l.length ≤ 256
  logsB : ∀ l ∈ s.hostB.logs, l.length ≤ 256

/-- Canonical data, and no old settings kept beside the ones in force (they are kept while an update is tried, R525): what the
reactions to a fault never write then stays as the command left it. -/
structure State.Sound (s : State) : Prop where
  inv : s.Inv
  kept : s.update.kept = []

/-- A calm state: no fault source is active or waits for its reaction, the fault state is Normal, and no active source holds a
reason bit of `PST.STATE` (R454, R460, R77). -/
structure State.Calm (s : State) : Prop where
  inv : s.Inv
  active : s.safe.active = []
  pend : s.safe.pend = []
  normal : s.rd R.SAF_STAT_STATE = 0
  diag : s.rd R.PST_STATE_PNG_DIAG = 0
  margin : s.rd R.PST_STATE_PAR_MARGIN = 0
  src : s.rd R.PST_STATE_DIAG_SRC = 0

/-- Calm in a kiln: as `Calm`, but that the fault state is the one of K0 and after, which has no exit before the next start
(R460). -/
structure State.KilnCalm (s : State) : Prop where
  inv : s.Inv
  active : s.safe.active = []
  pend : s.safe.pend = []
  since : s.kiln.since = true
  fault : s.rd R.SAF_STAT_STATE = 1
  diag : s.rd R.PST_STATE_PNG_DIAG = 0
  margin : s.rd R.PST_STATE_PAR_MARGIN = 0
  src : s.rd R.PST_STATE_DIAG_SRC = 0

/-- The page of the safety manager (Table 03-3), whose registers every command brings up to date as it ends. -/
abbrev safPage : Nat := 0xC0

/-- From `s` to `t`, no register field changed but those of `fs` and those of the safety manager's page. -/
def SameRegsBut (s t : State) (fs : List Fld) : Prop :=
  ∀ f : Fld, f.page ≠ safPage → f.off < 4096 → f.lsb < 32 → f.idx < 4096 → (∀ g ∈ fs, f.key ≠ g.key) → t.rd f = s.rd f

/-- A register that a reaction to a fault may write, after whatever command: the header of a page, the firmware versions of `ID`,
the pages `PST`, `HP`, `KLN`, `STP`, `PQE`, `SEQ`, `CAL`, `SAF`, `TLG` and `UPD`, the fabric and racking pages, `WTH.STATE`, the
charge deadlines, `MON.STAT`, `PWR.STAT` and the test requested of a pack (R454 to R460). Every other register is steady: the command itself must
write it for it to change. -/
def Fld.reactive (f : Fld) : Bool :=
  f.off < 0x40 || (f.page == 0x00 && 0x50 ≤ f.off && f.off < 0x68) ||
  [0x02, 0x10, 0x11, 0x42, 0x43, 0x80, 0xA0, 0xB9, 0xC0, 0xC8, 0xD1].contains f.page || (0x90 ≤ f.page && f.page ≤ 0x95) ||
  (f.page == 0x41 && f.off == 0x4C) || (f.page == 0xB0 && 0x80 ≤ f.off && f.off < 0xC0) || (f.page == 0xB8 && f.off == 0x44) ||
  (f.page == 0xD8 && f.off == 0x4C) || ((f.page == 0xA9 || f.page == 0xAA) && f.off == 0xA0)

/-- From `s` to `t`, no steady register field changed but those of `fs`. -/
def SteadyRegsBut (s t : State) (fs : List Fld) : Prop :=
  ∀ f : Fld, f.reactive = false → f.off < 4096 → f.lsb < 32 → f.idx < 4096 → (∀ g ∈ fs, f.key ≠ g.key) → t.rd f = s.rd f

/-- The registers that show the energy counted, of the gauge and of both packs (R387, R388). -/
def energyRegs : List Fld :=
  [R.GAU_E, R.GAU_SOC, R.GAU_UNC, R.PK_E_CT 0, R.PK_E_CT 1, R.PK_SOC_RAW 0, R.PK_SOC_RAW 1, R.PK_SOC_REPORTED 0,
   R.PK_SOC_REPORTED 1]

/-- The registers that show the kiln zone and its capacity `Z` (R188). -/
def zoneRegs : List Fld :=
  [R.CEL_KILN_GROUPS_ERASED, R.CEL_KILN_GROUPS_TOTAL, R.CEL_KILN_OCC_OCCUPIED, R.CEL_KILN_OCC_SPARE, R.CEL_Z]

/-- The registers that follow the trouble log (R468, R470). -/
def tlogRegs : List Fld := [R.TLG_HEAD, R.TLG_OLDEST, R.TLG_COUNT, R.TLG_DROPPED]

/-- The registers that follow the event logs of both ports (R95). -/
def eventRegs : List Fld :=
  [R.HP_EVT_PEND_INFO 0, R.HP_EVT_PEND_WARN 0, R.HP_EVT_PEND2_FAIL 0, R.HP_EVT_PEND2_FATAL 0, R.HP_EVT_OVF 0,
   R.HP_EVT_PEND_INFO 1, R.HP_EVT_PEND_WARN 1, R.HP_EVT_PEND2_FAIL 1, R.HP_EVT_PEND2_FATAL 1, R.HP_EVT_OVF 1]

/-- The registers that count dirty granules (R137, R139). -/
def dirtyRegs : List Fld := R.DRT_DIRTY :: R.DRT_SUMMARY :: (List.range 128).map R.DRT_RANK_DIRTY

/-- The registers that show the poison lists of both ports (R97). -/
def poisonRegs : List Fld := [R.HP_POISON_ENTRIES 0, R.HP_POISON_ENTRIES 1, R.HP_POISON_OVERFLOW 0, R.HP_POISON_OVERFLOW 1]

/-- The registers that show what a steep has yet to fill (R264, R265, R272, R276). -/
def fillRegs : List Fld :=
  [R.STP_BULK_PCT, R.STP_HINTS_QUEUED, R.STP_MASKS, R.STP_MASKS_PEAK, R.STP_PARTIAL_IN_USE, R.STP_PARTIAL_PEAK,
   R.STP_UNFILLED]

/-- The rank power states of every DRAM channel (R128). -/
def rankPowerRegs : List Fld := (List.range 16).flatMap (fun c => (List.range 8).map (R.DMC_RANK_PWR c))

/-- The patrol step of every DRAM channel, which follows the mains' period (R49, R118). -/
def patrolRegs : List Fld := (List.range 16).map R.DMC_PATROL_STEP

/-- The registers that record failed starts (R439), and those that a step of the start has found. -/
def startFailRegs : List Fld :=
  [R.ID_FWVER 2, R.ID_REPAIR 0, R.CAP_UNITS_LDPC_ACTIVE, R.SNT_FAILS_COLD, R.SNT_FAILS_WARM, R.SNT_FAILS_LAST_STEP, R.SNT_FAILS_LAST_CAUSE, R.SNT_FAILS_TOTAL, R.SNT_FAILS_RECOVERY]

/-- From `s` to `t`, no part of the state but the registers, what was sent out, the safety manager's lists and the fabric's
request for a state summary changed. -/
def SameParts (s t : State) : Prop :=
  t = { s with regs := t.regs, out := t.out, safe := t.safe, update := { s.update with trigger := false },
               fabric := { s.fabric with stateDue := t.fabric.stateDue, changes := t.fabric.changes } }

/-- The mailbox of port `p` takes a command now: the port is there and link-up, MGMT and the other processors run, no earlier
command waits, and the device is in P0 (R80, R105). -/
abbrev State.MailboxTakes (s : State) (p : Nat) : Prop :=
  p < 2 ∧ s.hasPort p = true ∧ s.linkUp p = true ∧ s.runs .mgmt = true ∧ s.halted = [] ∧ (s.host p).waiting = none ∧
    s.rd R.PWR_STAT_STATE = 0

/-- An update command of port `p` is taken now: by MGMT, from the administrating port after Steep Ready, or in ROM recovery by the
boot ROM (R105, R440, R516). -/
abbrev State.UpdateTakes (s : State) (p : Nat) : Prop :=
  (s.MailboxTakes p ∧ s.steepReady = true ∧ s.isAdmin p = true ∧ s.power.life ≠ .recovery) ∨
    (s.power.life = .recovery ∧ p < 2 ∧ s.hasPort p = true ∧ s.linkUp p = true)

/-- Port `p` serves memory at the DPA line `line` in P0 (R83, R84, R556). -/
abbrev State.ServesLine (s : State) (p line : Nat) : Prop :=
  p < 2 ∧ s.memUp p = true ∧ s.serves = true ∧ s.decodes p (line / 64) = true ∧ s.rd R.PWR_STAT_STATE = 0

/-- The state in which the dwell of a rest has been told met: 2 both, 1 that of P1, 0 none (R429). -/
abbrev State.dwelt (s : State) (n : Nat) : State := { s with power := { s.power with quiet := n } }

/-- A register write by `who` to the page is taken, in P0 (R57, R69 to R74). -/
abbrev State.Writable (s : State) (who : Requester) (page : Nat) : Prop :=
  s.admission who page = .accept ∧ s.rd R.PWR_STAT_STATE = 0

/-- A page whose register writes have no effect beyond the fields they cover (the other pages show, select or start something
with them). -/
def plainPage (p : Nat) : Bool :=
  [0x40, 0x44, 0x70, 0x71, 0x80, 0x95, 0xB0, 0xB8, 0xB9, 0xD1, 0xE0].contains p || (decide (0x50 ≤ p) && decide (p ≤ 0x6F))

/-- The fields that a write of `size` bytes at the page offset `off` covers. -/
abbrev State.writtenAt (s : State) (who : Requester) (page off size : Nat) : List (WriteRow × Fld) :=
  s.fieldsAt writeRows who page off (8 * size)

/-- What a write of `size` bytes at the page offset `off` asks of the field `f` (R57). -/
abbrev State.asked (s : State) (f : Fld) (off size v : Nat) : Nat := f.merge (s.shown f) off (8 * size) v

/-- A doorbell or slot write of port `p` reaches queue `q`: pages answer, the queue is free or the port's own, in P0 (R286, R291). -/
abbrev State.ReachesQueue (s : State) (p q : Nat) : Prop :=
  p < 2 ∧ s.hasPort p = true ∧ s.paged = true ∧ s.portsAlive = true ∧ q < s.variant.pairs ∧
    ((s.queue q).owner = 0 ∨ (s.queue q).owner = p + 1) ∧ s.rd R.PWR_STAT_STATE = 0

/-- The persist queue `q` works on element `d`, of opcode `op`, of its command `k` with identifier `cid` (R293). -/
abbrev State.WorksOn (s : State) (q cid op : Nat) (k : RunCmd) (d : Desc) : Prop :=
  s.cmdsRun = true ∧ (s.queue q).running? cid = some k ∧ k.desc = some d ∧ d.opcode = op

/-- The Daluf port `n` is there and not Off (R316, Table 11-1); the model holds the data of four ports. -/
abbrev State.PortOn (s : State) (n : Nat) : Prop :=
  s.variant.fabric = true ∧ n < 4 ∧ s.fabric.ports.length = 4 ∧ s.dlp n ≠ 0

/-- FABRIC runs and its planes are on (R342). -/
abbrev State.FabricRuns (s : State) : Prop :=
  s.variant.fabric = true ∧ s.runs .fabric = true ∧ s.fabricOff = false

/-- The records have room: every event log of the ports for eight more records, and the trouble log has held back no code in this
second and takes eight entries of each (R95, R469). -/
abbrev State.RecordsOpen (s : State) : Prop :=
  (∀ l ∈ s.hostA.logs ++ s.hostB.logs, l.length ≤ 248) ∧ s.recs.used = [] ∧ 8 ≤ s.tlogRate

/-- The state a step went on with; the reset state where it stopped. -/
def Outcome.state (o : Host.Outcome State Fault Refusal) : State :=
  match o with
  | .next t => t
  | .fault _ => State.reset
  | .refused _ => State.reset

end Sys2Proof.Machine
end

