-- ==== Sys2Proof/Certificates/Slice0/Obligations.lean ====
section
/-!
DEFINITION. Certificates/Slice0/Obligations.lean: the statements for the provers, one `Prop` each, family by family. A clause
whose states are `Calm` says what a command does while no fault is active, and what it leaves alone (`SameRegsBut`, `SameParts`);
a clause whose states are only `Sound` holds whatever faults are active, and says what neither the command nor a reaction writes
(`SteadyRegsBut`). Operands that carry physics or a firmware's choice are assumption 6.
-/

open Sys2Proof Sys2Proof.Machine

/-! ## The whole device -/

/-- A step takes the command at the front of the queue and runs it on the state with the rest of the queue; on an empty queue
the device idles (assumption 4). -/
def Obligations.StepRunsTheFrontCommand : Prop :=
  (∀ (c : Instr) (rest : List Instr) (s : State), step { s with pending := c :: rest } = exec c
    { s with pending := rest }) ∧
  (∀ s : State, s.pending = [] → step s = .next s)

/-- The state after reset is canonical, every register field reads the reset value of its table, and nothing waits or was sent.
The reset values that no table gives are the model's choice (assumption 3). -/
def Obligations.ResetHoldsTheInvariantAndTheTableValues : Prop :=
  (State.reset.Inv ∧ State.reset.Sound ∧ State.reset.Calm) ∧
  (∀ f : Fld, State.reset.rd f = f.reset) ∧
  (State.reset.pending = [] ∧ State.reset.out = [] ∧ State.reset.dram.mem = [] ∧ State.reset.dirty.bits = [] ∧
    State.reset.safe.active = [])

/-- Whatever command is at the front of the queue, a step that goes on keeps the canonical form of the registers, of the staged
values, of the latched words and of DRAM, and no table outgrows its capacity: trouble log (R468), fault history (R457),
nested reactions (R458), hint queue (R276), in-flight copies (R159), event logs (R95). -/
def Obligations.EveryStepKeepsTheInvariant : Prop :=
  ∀ s t : State, s.Inv → step s = .next t → t.Inv

/-- R83, R84, R85: no command is refused, every command but a CXL.mem access goes on from every state with every operand, and
only a CXL.mem access to an address outside the port's slice stops the device; in P0, where the port serves memory, exactly
such an access does. -/
def Obligations.OnlyAccessesOutsideTheSliceStop : Prop :=
  (∀ (c : Instr) (s : State) (r : Refusal), exec c s ≠ .refused r) ∧
  (∀ (c : Instr) (s : State) (f : Fault), exec c s = .fault f → f = .dpaOutsideSlice ∧ ∃ port tag line load, s.memUp
    (port % 2) = true ∧ ((∃ ecc, c = .hostRead port tag line load ecc) ∨ ∃ bytes poison setFull ecc, c = .hostWrite port
    tag line load bytes poison setFull ecc)) ∧
  (∀ (c : Instr) (s : State), c.accessesMemory = false → ∃ t, exec c s = .next t ∧ t.pending = s.pending ∧ t.variant =
    s.variant) ∧
  (∀ (s : State) (port tag line load : Nat) (ecc : Ecc) (bytes : List (Nat × Byte)) (poison setFull : Bool), port < 2 →
    (s.memUp port = false ∨ s.decodes port (line / 64) = true ∨ (s.serves = false ∧ s.rd R.PWR_STAT_STATE = 0)) → (∃ t,
    exec (.hostRead port tag line load ecc) s = .next t ∧ t.pending = s.pending ∧ t.variant = s.variant) ∧ (∃ t, exec
    (.hostWrite port tag line load bytes poison setFull ecc) s = .next t ∧ t.pending = s.pending ∧ t.variant = s.variant)) ∧
  (∀ (s : State) (port tag line load : Nat) (ecc : Ecc) (bytes : List (Nat × Byte)) (poison setFull : Bool), port < 2 →
    s.memUp port = true → s.serves = true → s.rd R.PWR_STAT_STATE = 0 → s.decodes port (line / 64) = false → exec
    (.hostRead port tag line load ecc) s = .fault .dpaOutsideSlice ∧ exec (.hostWrite port tag line load bytes poison
    setFull ecc) s = .fault .dpaOutsideSlice)

/-- A command takes nothing from the queue behind it and puts nothing into it, and the variant of the device never changes (R1). -/
def Obligations.CommandsLeaveTheQueueAndTheVariant : Prop :=
  ∀ (c : Instr) (s t : State), exec c s = .next t → t.pending = s.pending ∧ t.variant = s.variant

/-- The frame of the registers: a command of `Instr.quietOnRegs` changes no steady register, whatever faults it raises and
whatever reactions these begin; the other commands are framed where their effects are stated. -/
def Obligations.QuietCommandsWriteNoSteadyRegister : Prop :=
  ∀ (c : Instr) (s t : State), s.Sound → c.quietOnRegs = true → exec c s = .next t → SteadyRegsBut s t []

/-- The frame of memory and of the stores: a command that begins no start leaves DRAM with its poison and repair state (but for
the retire copies that phase K3 stops, R120), the dirty bits with the copies in flight (but for the dirty scrub that K3
ends, R231), the cellar (but for the die table that a fallback returns to, R523), the code flash, the budget unit and the
phase tracker each as they were, unless it is one of those that `Instr.writesDram` and the five beside it name. -/
def Obligations.MemoryAndStoredStateHaveTheirWriters : Prop :=
  (∀ (c : Instr) (s t : State), c.begins = false → c.writesDram = false → exec c s = .next t → t.dram = s.dram ∨ t.dram =
    s.freezeRetire.dram) ∧
  (∀ (c : Instr) (s t : State), c.begins = false → c.writesDirty = false → exec c s = .next t → t.dirty = s.dirty ∨
    t.dirty = { s.dirty with scrubRun := false, scrubDue := false }) ∧
  (∀ (c : Instr) (s t : State), c.begins = false → c.writesCellar = false → exec c s = .next t → ∃ d, t.cellar =
    { s.cellar with dieTable := d }) ∧
  (∀ (c : Instr) (s t : State), c.begins = false → c.writesFlash = false → exec c s = .next t → t.flash = s.flash) ∧
  (∀ (c : Instr) (s t : State), c.begins = false → c.writesBudget = false → exec c s = .next t → t.budget = s.budget) ∧
  (∀ (c : Instr) (s t : State), c.begins = false → c.writesTrack = false → exec c s = .next t → t.track = s.track)

/-! ## Register pages -/

/-- R484, R485: a conversion frame stores each reading of an input that is converted, its raw code, and the die temperature. -/
def Obligations.ReadingsAreStored : Prop :=
  ∀ (s : State) (f : Frame) (i : Nat), s.Sound → i < 48 → s.variant.gauge = true → s.flag R.MON_STAT_CAL_ACTIVE = false →
  s.cal.badAdc = [] → s.cal.banks = [] → s.cal.swaps = [] → s.cal.trimLeft = [] →
    ∃ t, exec (.conversionFrame f) s = .next t ∧
    t.rd (R.MON_IN_VAL_VALUE i) = toField 16 (f.value.getD i 0) ∧
    t.rd (R.MON_IN_VAL_RAW i) = f.raw.getD i 0 % 65536 ∧
    t.rd R.MON_TEMP_DIE_C = toField 8 f.die

/-- R57, R58: a read of a `_LO` register returns its word and latches the matching `_HI` register for the next read by the same
requester, which returns it and ends the latch; a 64-bit read takes both halves at once; any other aligned word is the
register's; a page that is absent or hidden reads as zero. -/
def Obligations.ReadingALowWordLatchesTheHighOne : Prop :=
  (∀ (s : State) (who : Requester) (page off : Nat), s.Sound → isLo page off = true → off % 4 = 0 → s.mayRead who page =
    true →
      ∃ t, exec (.readLoLatch who (.page page off) 4) s = .next t ∧
      t.latched.get (pairKey who (page * 4096 + off)) = (s.cond (page == 0xD8) State.showRest).pageWord who page (off +
        4) + 1) ∧
  (∀ (s : State) (who : Requester) (page off : Nat), s.Calm → isLo page off = true → off % 4 = 0 → s.mayRead who page =
    true →
      ∃ t, exec (.readLoLatch who (.page page off) 4) s = .next t ∧
      t.out = [.regData who ((s.cond (page == 0xD8) State.showRest).pageWord who page off % 2 ^ 32)] ∧
      t.dirty = s.dirty ∧
      t.cellar = s.cellar) ∧
  (∀ (s : State) (who : Requester) (page off w : Nat), s.Calm → 4 ≤ off → isLo page (off - 4) = true → isLo page off =
    false → off % 4 = 0 → s.mayRead who page = true → s.latched.get (pairKey who (page * 4096 + (off - 4))) = w + 1 →
      ∃ t, exec (.readLoLatch who (.page page off) 4) s = .next t ∧
      t.out = [.regData who (w % 2 ^ 32)] ∧
      t.latched.get (pairKey who (page * 4096 + (off - 4))) = 0) ∧
  (∀ (s : State) (who : Requester) (page off : Nat), s.Calm → who.port.isSome = true → off % 8 = 0 → off + 8 ≤ 4096 →
    s.mayRead who page = true →
      ∃ t, exec (.readLoLatch who (.page page off) 8) s = .next t ∧
      t.out = [.regData who ((s.cond (page == 0xD8) State.showRest).pageWord who page off + (s.cond (page == 0xD8)
        State.showRest).pageWord who page (off + 4) * 2 ^ 32)] ∧
      t.latched = s.latched) ∧
  (∀ (s : State) (who : Requester) (page off : Nat), s.Calm → page ≠ 0xD8 → page ≠ 0xA1 → off % 4 = 0 → off + 4 ≤ 4096 →
    isLo page off = false → (off < 4 ∨ isLo page (off - 4) = false) → s.mayRead who page = true →
      ∃ t, exec (.readLoLatch who (.page page off) 4) s = .next t ∧
      t.out = [.regData who (s.pageWord who page off % 2 ^ 32)] ∧
      t.latched = s.latched ∧
      SameRegsBut s t [] ∧
      SameParts s t) ∧
  (∀ (s : State) (who : Requester) (page off size : Nat), s.Calm → s.answers who = true → s.mayRead who page = false →
      ∃ t, exec (.readLoLatch who (.page page off) size) s = .next t ∧
      t.out = [.regData who 0] ∧
      t.latched = s.latched ∧
      SameRegsBut s t [] ∧
      SameParts s t)

/-- R9, R57, R59, R62, R70: an accepted write of a live field takes effect at once, one of a staged field waits while the block
runs and takes effect at once while it is halted, one of a halt-only field is rejected while it runs; the header's
`FLT_MASK` and `FLT_SEV` are written and `CFG_REJECT` is cleared; a write of another shape is rejected with a notice, one
that the page refuses with `CFG_REJECT`, and a locked page refuses its fields; a write to an absent page does nothing, and
no register write touches the dirty state, the cellar or DRAM's bytes. -/
def Obligations.WritesAreAppliedStagedOrRejected : Prop :=
  (∀ (s : State) (who : Requester) (v : Nat), s.Calm → s.mayWrite who 0x41 = .accept → s.rd R.PWR_STAT_STATE = 0 →
    s.lockHolds 0x41 = false →
      ∃ t, exec (.registerWrite who (.page 0x41 0x044) 4 v) s = .next t ∧
      t.rd R.WTH_RATE_CTRL_MAX_GBPS = v % 32 ∧
      t.rd R.WTH_RATE_CTRL_COOL_MBPS = v / 65536 % 65536 ∧
      SameRegsBut s t [R.WTH_RATE_CTRL_MAX_GBPS, R.WTH_RATE_CTRL_COOL_MBPS] ∧
      SameParts s t) ∧
  (∀ (s : State) (who : Requester) (page off size v : Nat), s.Calm → plainPage page = true → s.Writable who page → (size
    = 4 ∨ (size = 8 ∧ who.port.isSome = true)) → off % size = 0 → 0x040 ≤ off → off + size ≤ 4096 → s.RecordsOpen →
      ∃ t, exec (.registerWrite who (.page page off) size v) s = .next t ∧
      (∀ e ∈ s.writtenAt who page off size, e.1.cls = 0 → s.ignoredField e.2 = false → t.rd e.2 = s.asked e.2 off size v
        % 2 ^ e.2.width) ∧
      SameRegsBut s t ([R.CFG_REJECT page] ++ tlogRegs ++ (s.writtenAt who page off size).map (fun e => e.2)) ∧
      SameParts { s with recs := t.recs, staged := t.staged } t) ∧
  (∀ (s : State) (who : Requester) (page off size v : Nat), s.Calm → plainPage page = true → s.Writable who page → (size
    = 4 ∨ (size = 8 ∧ who.port.isSome = true)) → off % size = 0 → 0x040 ≤ off → off + size ≤ 4096 → s.RecordsOpen →
    s.blockOff page = false → s.flag (R.COMMIT_PENDING page) = false →
      ∃ t, exec (.registerWrite who (.page page off) size v) s = .next t ∧
      (∀ e ∈ s.writtenAt who page off size, e.1.cls = 1 → s.ignoredField e.2 = false → s.asked e.2 off size v ≠ s.shown
        e.2 → t.rd e.2 = s.rd e.2 ∧ t.staged.get e.2.key = s.asked e.2 off size v + 1)) ∧
  (∀ (s : State) (who : Requester) (page off size v : Nat), s.Calm → plainPage page = true → s.Writable who page → (size
    = 4 ∨ (size = 8 ∧ who.port.isSome = true)) → off % size = 0 → 0x040 ≤ off → off + size ≤ 4096 → s.RecordsOpen →
    s.blockOff page = false → (s.guarded page = false ∨ s.maint.isOpen = false) →
      ∃ t, exec (.registerWrite who (.page page off) size v) s = .next t ∧
      (∀ e ∈ s.writtenAt who page off size, e.1.cls = 2 → s.ignoredField e.2 = false → s.asked e.2 off size v ≠ s.shown
        e.2 → t.rd e.2 = s.rd e.2 ∧ t.flag (R.CFG_REJECT page) = true ∧ (∃ e ∈ t.recs.live, e.code = 0x0106))) ∧
  (∀ (s : State) (who : Requester) (page off size v : Nat), s.Calm → plainPage page = true → s.Writable who page → (size
    = 4 ∨ (size = 8 ∧ who.port.isSome = true)) → off % size = 0 → 0x040 ≤ off → off + size ≤ 4096 → s.RecordsOpen →
    s.blockOff page = true → (s.guarded page = false ∨ s.maint.isOpen = true) → s.flag (R.COMMIT_PENDING page) = false →
      ∃ t, exec (.registerWrite who (.page page off) size v) s = .next t ∧
      (∀ e ∈ s.writtenAt who page off size, s.ignoredField e.2 = false → s.asked e.2 off size v ≠ s.shown e.2 → t.rd e.2
        = s.asked e.2 off size v % 2 ^ e.2.width ∧ (e.1.cls = 0 ∨ t.staged.get e.2.key = 0))) ∧
  (∀ (s : State) (who : Requester), s.Calm → s.mayWrite who 0xB0 = .accept → s.rd R.PWR_STAT_STATE = 0 → s.lockHolds 0xB0
    = false → s.blockOff 0xB0 = false → s.flag (R.COMMIT_PENDING 0xB0) = false → s.staged = [] → s.rd R.PHS_CTRL_AC_EN = 1
    → s.rd R.PHS_CTRL_EW_ACOK = 1 → s.rd R.PHS_CTRL_FORCE_PSEUDO = 0 → s.rd R.PHS_CTRL_EDGE = 0 → s.rd R.PHS_CTRL_GLITCH =
    50 →
      ∃ t, exec (.registerWrite who (.page 0xB0 0x040) 4 0x3204) s = .next t ∧
      t.staged = [(R.PHS_CTRL_AC_EN.key, 1)] ∧
      t.rd R.PHS_CTRL_AC_EN = 1 ∧
      t.rd R.PHS_CTRL_EW_ACOK = 1 ∧
      SameRegsBut s t [] ∧
      SameParts { s with staged := t.staged } t) ∧
  (∀ (s : State) (who : Requester) (page off size v : Nat), s.Calm → page ≠ safPage → page ≠ 0xD0 → s.mayWrite who page =
    .accept → s.rd R.PWR_STAT_STATE = 0 → s.lockHolds page = true → (size = 4 ∨ (size = 8 ∧ who.port.isSome = true)) → off
    % size = 0 → 0x040 ≤ off → off + size ≤ 4096 → s.writtenAt who page off size ≠ [] →
      ∃ t, exec (.registerWrite who (.page page off) size v) s = .next t ∧
      t.flag (R.CFG_REJECT page) = true ∧
      SameRegsBut s t [R.CFG_REJECT page] ∧
      SameParts s t) ∧
  (∀ (s : State) (who : Requester) (v page off size : Nat), s.Calm → page ≠ safPage → s.mayWrite who page = .reject →
      ∃ t, exec (.registerWrite who (.page page off) size v) s = .next t ∧
      t.flag (R.CFG_REJECT page) = true ∧
      t.rd (R.FLT_MASK page) = s.rd (R.FLT_MASK page) ∧
      SameRegsBut s t [R.CFG_REJECT page] ∧
      SameParts s t) ∧
  (∀ (s : State) (who : Requester) (page off size v : Nat), s.Calm → page ≠ safPage → s.Writable who page → s.RecordsOpen
    → (off % size ≠ 0 ∨ 4096 < off + size ∨ ¬(size = 4 ∨ (size = 8 ∧ who.port.isSome = true))) →
      ∃ t, exec (.registerWrite who (.page page off) size v) s = .next t ∧
      t.flag (R.CFG_REJECT page) = true ∧
      (∃ e ∈ t.recs.live, e.code = 0x0106) ∧
      SameRegsBut s t (R.CFG_REJECT page :: tlogRegs) ∧
      SameParts { s with recs := t.recs } t) ∧
  (∀ (s : State) (who : Requester) (page v : Nat), s.Calm → page ≠ safPage → page ≠ 0xD0 → s.Writable who page →
      ∃ t, exec (.registerWrite who (.page page 0x014) 4 v) s = .next t ∧
      t.rd (R.FLT_MASK page) = v % 65536 ∧
      SameRegsBut s t [R.FLT_MASK page] ∧
      SameParts s t) ∧
  (∀ (s : State) (who : Requester) (page v : Nat), s.Calm → page ≠ safPage → page ≠ 0xD0 → s.mayWrite who page = .accept
    → s.rd R.PWR_STAT_STATE = 0 → maintOnly page = false →
      ∃ t, exec (.registerWrite who (.page page 0x014) 4 v) s = .next t ∧
      t.rd (R.FLT_MASK page) = v % 65536 ∧
      SameRegsBut s t [R.FLT_MASK page] ∧
      SameParts s t) ∧
  (∀ (s : State) (who : Requester) (page v : Nat), s.Calm → page ≠ safPage → page ≠ 0xD0 → s.Writable who page →
      ∃ t, exec (.registerWrite who (.page page 0x01C) 4 v) s = .next t ∧
      t.rd (R.FLT_SEV page) = sevStored page (v % 2 ^ 32) ∧
      SameRegsBut s t [R.FLT_SEV page] ∧
      SameParts s t) ∧
  (∀ (s : State) (who : Requester) (page v : Nat), s.Calm → page ≠ safPage → page ≠ 0xD0 → s.Writable who page →
    v.testBit 2 = true →
      ∃ t, exec (.registerWrite who (.page page 0x00C) 4 v) s = .next t ∧
      t.flag (R.CFG_REJECT page) = false ∧
      SameRegsBut s t [R.CFG_REJECT page] ∧
      SameParts s t) ∧
  (∀ (s : State) (who : Requester) (page off size v : Nat), s.Calm → pagePresent s.variant page = false →
      ∃ t, exec (.registerWrite who (.page page off) size v) s = .next t ∧
      SameRegsBut s t [] ∧
      SameParts s t) ∧
  (∀ (s : State) (n off size v : Nat), s.Calm → s.ReachesQueue 0 (s.slotQueue .portA n) → (size = 4 ∨ size = 8) → off %
    size = 0 → off + size ≤ 64 →
      ∃ t, exec (.registerWrite .portA (.slot n off) size v) s = .next t ∧
      (∀ q ∈ List.range 512, q ≠ s.slotQueue .portA n → t.queue q = s.queue q) ∧
      t.dirty = s.dirty ∧
      t.staged = s.staged) ∧
  (∀ (s : State) (who : Requester) (r : RegAddr) (size v : Nat),
      ∃ t, exec (.registerWrite who r size v) s = .next t ∧
      t.dirty = s.dirty ∧
      t.cellar = s.cellar ∧
      t.dram.mem = s.dram.mem ∧
      t.budget = s.budget)

/-- R65, R66: `COMMIT` marks a commit pending and leaves the staged fields alone while the block runs, and a second one changes
nothing; a commit of a block that is halted or needs no safe point is done at once; the safe point ends the commit and
applies every staged write of the page in one step, and restores the resets of the page where a soft reset waits. -/
def Obligations.CommitsApplyAtTheSafePoint : Prop :=
  (∀ (s : State) (who : Requester) (page : Nat), s.Calm → page ≠ safPage → s.Writable who page → s.ownerRuns page = true
    → (s.flag (R.COMMIT_PENDING page) = true ∨ (s.blockOff page = false ∧ s.waitsSafe page = true)) →
      ∃ t, exec (.commit who page) s = .next t ∧
      t.flag (R.COMMIT_PENDING page) = true ∧
      t.staged = s.staged ∧
      SameRegsBut s t [R.COMMIT_PENDING page] ∧
      SameParts s t) ∧
  (∀ (s : State) (who : Requester) (page : Nat), s.Calm → page ≠ safPage → s.Writable who page → s.flag (R.COMMIT_PENDING
    page) = false → (s.blockOff page = true ∨ s.waitsSafe page = false) →
      ∃ t, exec (.commit who page) s = .next t ∧
      t.flag (R.COMMIT_PENDING page) = false ∧
      ([0x70, 0x95, 0xA1].contains page = true ∨ t.waiting page = []) ∧
      t.dirty = s.dirty) ∧
  (∀ (s : State) (who : Requester) (page v : Nat) (r : WriteRow) (f : Fld), s.Calm → plainPage page = true → [0x70,
    0x95].contains page = false → s.Writable who page → s.flag (R.COMMIT_PENDING page) = false → (s.blockOff page = true ∨
    s.waitsSafe page = false) → s.waiting page = [(r, f, v)] →
      ∃ t, exec (.commit who page) s = .next t ∧
      t.rd f = v % 2 ^ f.width ∧
      t.waiting page = []) ∧
  (∀ (s : State) (page : Nat), s.Calm → page ≠ safPage → pagePresent s.variant page = true → s.paged = true →
    s.atSafePoint page = true → s.flag (R.SOFT_RESET page) = false → s.flag (R.COMMIT_PENDING page) = true →
      ∃ t, exec (.safePointCommitApply page) s = .next t ∧
      t.flag (R.COMMIT_PENDING page) = false ∧
      ([0x70, 0x95, 0xA1].contains page = true ∨ t.waiting page = []) ∧
      t.dirty = s.dirty) ∧
  (∀ (s : State) (page : Nat), s.Calm → page ≠ safPage → pagePresent s.variant page = true → s.paged = true →
    s.atSafePoint page = true → s.flag (R.SOFT_RESET page) = true →
      ∃ t, exec (.safePointCommitApply page) s = .next t ∧
      t.flag (R.COMMIT_PENDING page) = false ∧
      t.flag (R.SOFT_RESET page) = false ∧
      t.waiting page = []) ∧
  (∀ (s : State) (page : Nat), s.Calm → pagePresent s.variant page = true → s.paged = true → s.atSafePoint page = true →
    s.flag (R.SOFT_RESET page) = false → s.flag (R.COMMIT_PENDING page) = false → s.waiting page = [] →
      ∃ t, exec (.safePointCommitApply page) s = .next t ∧
      SameRegsBut s t [] ∧
      SameParts s t) ∧
  (∀ (s : State) (v : Nat), s.Calm → s.paged = true → s.flag (R.COMMIT_PENDING 0x10) = true → s.staged =
    [((R.HP_LINK_CTRL_MAX_WIDTH 0).key, v + 1)] → v < 8 → s.rd (R.HP_LOAD_CTRL_DIRTY_EN 0) = 0 →
      ∃ t, exec (.safePointCommitApply 0x10) s = .next t ∧
      t.flag (R.COMMIT_PENDING 0x10) = false ∧
      t.rd (R.HP_LINK_CTRL_MAX_WIDTH 0) = v ∧
      t.staged = [] ∧
      SameRegsBut s t [R.COMMIT_PENDING 0x10, R.HP_LINK_CTRL_MAX_WIDTH 0, R.HP_LOAD_STAT_DIRTY_LOAD 0] ∧
      SameParts { s with staged := t.staged } t)

/-- R64, R67: clearing `ENABLE` asks the block to halt, its halt clears `RUNNING`, setting `ENABLE` starts it, a soft reset of
the trouble log page restores its fields and clears its faults, and one of the kiln page is rejected. -/
def Obligations.BlocksStartHaltAndReset : Prop :=
  (∀ (s : State) (who : Requester), s.Calm → s.admission who 0x41 = .accept → s.rd R.PWR_STAT_STATE = 0 →
      ∃ t, exec (.enableClear who 0x41) s = .next t ∧
      t.flag (R.ENABLE 0x41) = false ∧
      t.rd (R.RUNNING 0x41) = s.rd (R.RUNNING 0x41) ∧
      SameRegsBut s t [R.ENABLE 0x41] ∧
      SameParts s t) ∧
  (∀ (s : State), s.Calm → s.paged = true → s.flag (R.ENABLE 0x41) = false → s.flag (R.RUNNING 0x41) = true → s.flag
    (R.COMMIT_PENDING 0x41) = false → s.staged = [] → s.rd R.WTH_STATE_STATE ≠ wthFrozen →
      ∃ t, exec (.blockHalt 0x41) s = .next t ∧
      t.flag (R.RUNNING 0x41) = false ∧
      t.rd R.WTH_STATE_STATE = wthOff ∧
      SameRegsBut s t [R.RUNNING 0x41, R.WTH_STATE_STATE] ∧
      SameParts s t) ∧
  (∀ (s : State) (who : Requester), s.Calm → s.admission who 0x41 = .accept → s.rd R.PWR_STAT_STATE = 0 → s.blockOff 0x41
    = true → s.rd R.WTH_STATE_STATE = wthOff →
      ∃ t, exec (.enableSet who 0x41) s = .next t ∧
      t.flag (R.ENABLE 0x41) = true ∧
      t.flag (R.RUNNING 0x41) = true ∧
      (t.rd R.WTH_STATE_STATE = if s.steepReady then wthIdle else wthWaiting) ∧
      SameRegsBut s t [R.ENABLE 0x41, R.RUNNING 0x41, R.WTH_STATE_STATE] ∧
      SameParts s t) ∧
  (∀ (s : State) (who : Requester), s.Calm → s.admission who 0xC8 = .accept → s.ownerRuns 0xC8 = true → s.rd
    R.PWR_STAT_STATE = 0 → s.blockOff 0xC8 = false →
      ∃ t, exec (.softReset who 0xC8) s = .next t ∧
      t.rd R.TLG_CTRL_RATE = 64 ∧
      t.rd R.TLG_CURSOR = 0 ∧
      t.rd (R.FLT_STAT 0xC8) = 0 ∧
      t.recs.live = s.recs.live) ∧
  (∀ (s : State) (who : Requester), s.Calm → s.admission who 0x42 = .accept → s.ownerRuns 0x42 = true → s.rd
    R.PWR_STAT_STATE = 0 →
      ∃ t, exec (.softReset who 0x42) s = .next t ∧
      t.flag (R.CFG_REJECT 0x42) = true ∧
      t.rd R.KLN_TRIG_EW_HC = s.rd R.KLN_TRIG_EW_HC ∧
      t.kiln = s.kiln ∧
      SameRegsBut s t [R.CFG_REJECT 0x42] ∧
      SameParts s t) ∧
  (∀ (s : State) (who : Requester) (page : Nat), s.Calm → page ≠ safPage → s.Writable who page → s.ownerRuns page = true
    → kindF page = false → (s.guarded page = false ∨ s.maint.isOpen = true) →
      ∃ t, exec (.enableClear who page) s = .next t ∧
      t.flag (R.ENABLE page) = false ∧
      t.dirty = s.dirty) ∧
  (∀ (s : State) (who : Requester) (page : Nat), s.Calm → page ≠ safPage → s.Writable who page → s.ownerRuns page = true
    →
      ∃ t, exec (.enableSet who page) s = .next t ∧
      t.flag (R.ENABLE page) = true ∧
      t.flag (R.RUNNING page) = (s.flag (R.RUNNING page) || !(decide (0x50 ≤ page) && decide (page ≤ 0x6F))) ∧
      t.dirty = s.dirty) ∧
  (∀ (s : State) (page : Nat), s.Calm → page ≠ safPage → pagePresent s.variant page = true → s.paged = true → s.flag
    (R.ENABLE page) = false → s.portBusy page = false →
      ∃ t, exec (.blockHalt page) s = .next t ∧
      t.flag (R.RUNNING page) = false ∧
      t.dram.mem = s.dram.mem) ∧
  (∀ (s : State) (who : Requester) (page : Nat), s.Calm → page ≠ safPage → s.Writable who page → s.ownerRuns page = true
    → (kindF page = true ∨ kindK page = true) →
      ∃ t, exec (.softReset who page) s = .next t ∧
      t.flag (R.CFG_REJECT page) = true ∧
      SameRegsBut s t [R.CFG_REJECT page] ∧
      SameParts s t) ∧
  (∀ (s : State) (who : Requester) (page : Nat), s.Calm → page ≠ safPage → s.Writable who page → s.ownerRuns page = true
    → kindF page = false → kindK page = false → s.waitsSafe page = true → s.blockOff page = false →
      ∃ t, exec (.softReset who page) s = .next t ∧
      t.flag (R.SOFT_RESET page) = true ∧
      t.flag (R.COMMIT_PENDING page) = false ∧
      t.waiting page = [] ∧
      SameRegsBut s t [R.SOFT_RESET page, R.COMMIT_PENDING page]) ∧
  (∀ (s : State) (who : Requester) (page : Nat), s.Calm → page ≠ safPage → s.Writable who page → s.ownerRuns page = true
    → kindF page = false → kindK page = false → (s.waitsSafe page = false ∨ s.blockOff page = true) →
      ∃ t, exec (.softReset who page) s = .next t ∧
      t.flag (R.SOFT_RESET page) = false ∧
      t.flag (R.COMMIT_PENDING page) = false ∧
      t.waiting page = [] ∧
      (plainPage page = false ∨ page = 0x95 ∨ t.rd (R.FLT_STAT page) = 0)) ∧
  (∀ (s : State) (who : Requester) (page : Nat), s.Calm → plainPage page = true → s.Writable who page → s.ownerRuns page
    = true → kindF page = false → kindK page = false → (s.waitsSafe page = false ∨ s.blockOff page = true) →
      ∃ t, exec (.softReset who page) s = .next t ∧
      (∀ e ∈ s.writtenAt who page 0x040 4032, survives e.2.key = true ∨ t.rd e.2 = e.2.reset % 2 ^ e.2.width))

/-- R454, R461, R70: writing 1 to a latched bit ends the latch and leaves the other bits and the source; a fault bit that is
forced waits for its detector, which is seen without latching the fault; a lock bit is set. -/
def Obligations.FaultBitsClearAndForce : Prop :=
  (∀ (s : State) (who : Requester) (page mask : Nat), s.Calm → page ≠ safPage → s.mayClear who page = .accept → s.rd
    R.PWR_STAT_STATE = 0 →
      ∃ t, exec (.fltStatClear who page mask) s = .next t ∧
      t.rd (R.FLT_STAT page) = (s.rd (R.FLT_STAT page) &&& (mask % 65536 ^^^ 65535)) % 65536 ∧
      t.safe.active = s.safe.active ∧
      SameRegsBut s t [R.FLT_STAT page] ∧
      SameParts s t) ∧
  (∀ (s : State) (who : Requester), s.Calm → s.admission who 0x43 = .accept → s.rd R.PWR_STAT_STATE = 0 → s.flag
    R.SAF_CTRL_INJ_EN = true → s.kiln.since = false → s.runs .safety = true → s.safe.injWait = [] → s.rd (R.FLT_FORCE
    0x43) = 0 →
      ∃ t, exec (.faultInject who 0x43 0 false) s = .next t ∧
      t.rd (R.FLT_FORCE 0x43) = 1 ∧
      t.safe.injWait.length = 1 ∧
      SameRegsBut s t [R.FLT_FORCE 0x43] ∧
      SameParts s t) ∧
  (∀ (s : State) (who : Requester) (page bit f l : Nat), s.Calm → page ≠ safPage → s.Writable who page → pageFirstSrc
    page = some (f, l) → bit < 16 → f + bit ≤ l → namedSources.contains (f + bit) = true → s.flag R.SAF_CTRL_INJ_EN = true
    → s.kiln.since = false → s.runs .safety = true → s.injWaits (f + bit) (page - srcPage f 0) = false →
      ∃ t, exec (.faultInject who page bit false) s = .next t ∧
      t.bit (R.FLT_FORCE page) bit = true ∧
      t.safe.injWait = s.safe.injWait ++ [(f + bit, page - srcPage f 0)] ∧
      SameRegsBut s t [R.FLT_FORCE page] ∧
      SameParts s t) ∧
  (∀ (s : State) (who : Requester) (page bit f l : Nat), s.Calm → s.RecordsOpen → s.Writable who page → pageFirstSrc page
    = some (f, l) → bit < 16 → f + bit ≤ l → namedSources.contains (f + bit) = true → f + bit ≠ 24 ∧ f + bit ≠ 25 ∧ f +
    bit ≠ 159 ∧ f + bit ≠ 160 → s.flag R.SAF_CTRL_INJ_EN = true → s.kiln.since = false → s.runs .safety = true →
      ∃ t, exec (.faultInject who page bit true) s = .next t ∧
      t.bit (R.SAF_INJ_SEEN ((f + bit) / 32)) ((f + bit) % 32) = true ∧
      t.bit (R.FLT_FORCE page) bit = false ∧
      t.rd (R.FLT_STAT page) = s.rd (R.FLT_STAT page) ∧
      t.dirty = s.dirty) ∧
  (∀ (s : State) (who : Requester) (page : Nat), s.Calm → page ≠ safPage → s.admission who page = .accept → s.rd
    R.PWR_STAT_STATE = 0 →
      ∃ t, exec (.pageLock who page) s = .next t ∧
      t.flag (R.LOCKED page) = true ∧
      SameRegsBut s t [R.LOCKED page] ∧
      SameParts s t)

/-- R71: with the strap high the right value opens access, and the idle timeout or the strap going low closes it. -/
def Obligations.MaintenanceAccessOpensAndCloses : Prop :=
  (∀ (s : State), s.Sound → s.paged = true → s.maint.wrong < 3 → s.rd R.ID_MAINT_NONCE ≠ 0x5A3CC3A5 → s.rd
    R.ID_MAINT_NONCE < 2 ^ 32 →
      ∃ t, exec (.maintUnlock .sideband true (s.rd R.ID_MAINT_NONCE ^^^ 0x5A3CC3A5)) s = .next t ∧
      t.maint.isOpen = true ∧
      t.maint.strap = true ∧
      SteadyRegsBut s t [R.ID_MAINT_NONCE]) ∧
  (∀ (s : State) (v : Nat), s.Sound → s.paged = true → s.maint.isOpen = false → v % 2 ^ 32 ≠ 0 → v % 2 ^ 32 ≠ s.rd
    R.ID_MAINT_NONCE ^^^ 0x5A3CC3A5 → s.maint.wrong < 3 →
      ∃ t, exec (.maintUnlock .sideband true v) s = .next t ∧
      t.maint.isOpen = false ∧
      t.maint.wrong = s.maint.wrong + 1 ∧
      SteadyRegsBut s t [R.ID_MAINT_NONCE]) ∧
  (∀ (s : State), s.Sound →
      ∃ t, exec .maintIdleTimeout s = .next t ∧
      t.maint.isOpen = false ∧
      t.maint.strap = s.maint.strap ∧
      SteadyRegsBut s t []) ∧
  (∀ (s : State), s.Sound →
      ∃ t, exec .maintStrapLow s = .next t ∧
      t.maint.isOpen = false ∧
      t.maint.strap = false ∧
      SteadyRegsBut s t [])

/-! ## Host port: memory, links, flushes -/

/-- R11, R135, R137: a host write of a whole line to a clean granule marks the granule dirty, stores the line, completes with
its tag, and leaves every byte outside the line alone; while the port serves nothing it completes without effect on DRAM. -/
def Obligations.HostWritesReachDram : Prop :=
  (∀ (s : State) (port tag line load : Nat) (bytes : List (Nat × Byte)) (full : Bool) (ecc : Ecc), s.Sound → s.ServesLine
    port line → fullLine bytes = true → s.unfilled (line / 64) = false → s.inVol (line / 64) = false → s.isDirty (line /
    64) = false →
      ∃ t, exec (.hostWrite port tag line load bytes false full ecc) s = .next t ∧
      t.dram.mem = s.dram.mem.paste (4096 * (line / 64) + 64 * (line % 64)) 64 (lineOf bytes) ∧
      t.dirty.bits = s.dirty.bits.insert1 (line / 64) ∧
      t.rd R.DRT_DIRTY = (s.rd R.DRT_DIRTY + 1) % 2 ^ 40 ∧
      t.dram.poison = s.dram.poison.erase1 line ∧
      SteadyRegsBut s t dirtyRegs) ∧
  (∀ (s : State) (port tag line load : Nat) (bytes : List (Nat × Byte)) (full : Bool) (ecc : Ecc), s.Calm → s.ServesLine
    port line → fullLine bytes = true → s.unfilled (line / 64) = false → s.isPoison (line / 64) (line % 64) = false →
    s.listed 0 (line / 64) (line % 64) = false → s.listed 1 (line / 64) (line % 64) = false →
      ∃ t, exec (.hostWrite port tag line load bytes false full ecc) s = .next t ∧
      t.out = [.memDone port tag] ∧
      t.rd (R.HP_LOAD_STAT_BW_LOAD port) = bwLoad load ∧
      SameRegsBut s t (dirtyRegs ++ [R.HP_LOAD_STAT_DEVLOAD port, R.HP_LOAD_STAT_BW_LOAD port, R.RCK_OWED 0, R.RCK_OWED
        1]) ∧
      SameParts { s with dram := t.dram, dirty := t.dirty, racking := t.racking, power := { s.power with quiet := 0 } }
        t) ∧
  (∀ (s : State) (port tag line load : Nat) (bytes : List (Nat × Byte)) (poison full : Bool) (ecc : Ecc), s.Sound → port
    < 2 → s.memUp port = true → s.serves = false →
      ∃ t, exec (.hostWrite port tag line load bytes poison full ecc) s = .next t ∧
      t.dram = s.dram ∧
      t.dirty = s.dirty ∧
      SteadyRegsBut s t [])

/-- R115, R264, R266, R556: a read of a filled line returns its 64 bytes, a poisoned line reads as poison, a read of an unfilled
line is held and raises its fill, and a port that serves nothing answers with poison. -/
def Obligations.HostReadsAnswer : Prop :=
  (∀ (s : State) (port tag line load : Nat), s.Calm → s.ServesLine port line → s.unfilled (line / 64) = false →
    s.isPoison (line / 64) (line % 64) = false →
      ∃ t, exec (.hostRead port tag line load .clean) s = .next t ∧
      t.out = [.memData port tag (s.lineData (line / 64) (line % 64))] ∧
      t.dram = s.dram ∧
      SameRegsBut s t [R.HP_LOAD_STAT_DEVLOAD port, R.HP_LOAD_STAT_BW_LOAD port] ∧
      SameParts { s with power := { s.power with quiet := 0 } } t) ∧
  (∀ (s : State) (port tag line load : Nat) (ecc : Ecc), s.Calm → s.ServesLine port line → s.unfilled (line / 64) = false
    → s.isPoison (line / 64) (line % 64) = true →
      ∃ t, exec (.hostRead port tag line load ecc) s = .next t ∧
      t.out = [.memPoison port tag] ∧
      t.dram = s.dram ∧
      SameRegsBut s t [R.HP_LOAD_STAT_DEVLOAD port, R.HP_LOAD_STAT_BW_LOAD port] ∧
      SameParts { s with power := { s.power with quiet := 0 } } t) ∧
  (∀ (s : State) (port tag line load : Nat) (ecc : Ecc), s.Calm → s.ServesLine port line → s.unfilled (line / 64) = true
    → (s.mask (line / 64)).getLsbD (line % 64) = false → s.filling (line / 64) = false → s.demandFills < 4096 →
      ∃ t, exec (.hostRead port tag line load ecc) s = .next t ∧
      t.steep.fills = s.steep.fills ++ [{ granule := line / 64, demand := true, held := [(port, tag, line % 64)] }] ∧
      t.dram = s.dram ∧
      t.out = [] ∧
      SameRegsBut s t [R.HP_LOAD_STAT_DEVLOAD port, R.HP_LOAD_STAT_BW_LOAD port] ∧
      SameParts { s with steep := t.steep, power := { s.power with quiet := 0 } } t) ∧
  (∀ (s : State) (port tag line load : Nat) (ecc : Ecc), s.Calm → port < 2 → s.memUp port = true → s.rd R.PWR_STAT_STATE
    = 0 → s.serves = false →
      ∃ t, exec (.hostRead port tag line load ecc) s = .next t ∧
      t.out = [.memPoison port tag] ∧
      t.dram = s.dram ∧
      SameRegsBut s t [R.HP_LOAD_STAT_DEVLOAD port, R.HP_LOAD_STAT_BW_LOAD port] ∧
      SameParts { s with power := { s.power with quiet := 0 } } t)

/-- R81, R82: training brings the link up at the widest and fastest that both ends allow; a reset of a port empties its decoders
and leaves DRAM and the dirty set alone; a link-down that a reset explains latches nothing. -/
def Obligations.LinksComeAndGo : Prop :=
  (∀ (s : State) (port width rate corr replay : Nat) (flit cxl bad : Bool), s.Sound → port < 2 → s.hasPort port = true →
    s.portsOn = true → s.flag (R.ENABLE (0x10 + port)) = true → s.flag (R.COMMIT_PENDING (0x10 + port)) = false →
      ∃ t, exec (.linkTrained port width rate flit cxl corr replay bad) s = .next t ∧
      t.linkUp port = true ∧
      t.rd (R.HP_LINK_STAT_WIDTH port) = min (max 1 width) (s.maxWidth port) ∧
      t.rd (R.HP_LINK_STAT_RATE port) = min (max 1 rate) (s.maxRate port) ∧
      t.flag (R.HP_LINK_STAT_CXL port) = (cxl && decide (3 ≤ min (max 1 rate) (s.maxRate port))) ∧
      t.flag (R.HP_LINK_STAT_FLIT256 port) = (flit || min (max 1 rate) (s.maxRate port) == 6) ∧
      t.rd (R.HP_LINK_ERR_CORR port) = min 65535 (s.rd (R.HP_LINK_ERR_CORR port) + corr) ∧
      t.rd (R.HP_LINK_ERR_REPLAY port) = min 65535 (s.rd (R.HP_LINK_ERR_REPLAY port) + replay) ∧
      (bad = false ∨ t.bit (R.FLT_STAT (0x10 + port)) 2 = true) ∧
      SteadyRegsBut s t []) ∧
  (∀ (s : State) (port width rate corr replay : Nat) (flit cxl : Bool), s.Calm → port < 2 → s.hasPort port = true →
    s.portsOn = true → s.flag (R.ENABLE (0x10 + port)) = true → s.flag (R.COMMIT_PENDING (0x10 + port)) = false →
    s.maxWidth port = 5 → 5 ≤ width → s.maxRate port ≤ rate → s.recs.health = s.healthKey →
      ∃ t, exec (.linkTrained port width rate flit cxl corr replay false) s = .next t ∧
      t.linkUp port = true ∧
      SameRegsBut s t [R.HP_LINK_STAT_UP port, R.HP_LINK_STAT_WIDTH port, R.HP_LINK_STAT_RATE port,
        R.HP_LINK_STAT_FLIT256 port, R.HP_LINK_STAT_CXL port, R.HP_LINK_STAT_RETRAINS port, R.HP_LINK_ERR_CORR port,
        R.HP_LINK_ERR_REPLAY port] ∧
      SameParts { s with hostA := t.hostA, hostB := t.hostB } t) ∧
  (∀ (s : State) (port width rate corr replay : Nat) (flit cxl bad : Bool), s.Sound → port < 2 → s.hasPort port = true →
    s.portsOn = true → s.flag (R.ENABLE (0x10 + port)) = true → s.flag (R.COMMIT_PENDING (0x10 + port)) = false → width <
    5 →
      ∃ t, exec (.linkTrained port width rate flit cxl corr replay bad) s = .next t ∧
      t.bit (R.FLT_STAT (0x10 + port)) 1 = true ∧
      SteadyRegsBut s t []) ∧
  (∀ (s : State) (port : Nat) (perst : Bool), s.Calm → port < 2 → s.hasPort port = true → s.portsOn = true → s.rd
    R.PWR_STAT_STATE ≤ 2 →
      ∃ t, exec (.portReset port perst) s = .next t ∧
      (t.host port).decoders = [] ∧
      t.rd (R.HP_DEC_STAT_COMMITTED port) = 0 ∧
      t.rd (R.HP_MBOX_BUSY port) = 0 ∧
      (t.host port).waiting = none ∧
      t.linkUp port = false ∧
      t.rd (R.HP_LINK_STAT_WIDTH port) = 0 ∧
      t.dram.mem = s.dram.mem ∧
      t.dirty = s.dirty ∧
      t.host (1 - port) = s.host (1 - port)) ∧
  (∀ (s : State) (port : Nat), s.Sound → port < 2 → s.hasPort port = true → s.linkUp port = true →
      ∃ t, exec (.linkDown port) s = .next t ∧
      t.linkUp port = false ∧
      t.rd (R.HP_LINK_STAT_WIDTH port) = 0 ∧
      t.rd (R.HP_LINK_STAT_RATE port) = 0 ∧
      (t.host port).gpfWait = false ∧
      t.dram.mem = s.dram.mem ∧
      t.dirty = s.dirty) ∧
  (∀ (s : State) (port : Nat), s.Sound → port < 2 → s.hasPort port = true → s.linkUp port = true → (s.host
    port).downExplained = false → s.inKiln = false → s.flag (R.ENABLE (0x10 + port)) = true →
      ∃ t, exec (.linkDown port) s = .next t ∧
      t.bit (R.FLT_STAT (0x10 + port)) 0 = true ∧
      SteadyRegsBut s t [])

/-- R84: a port decodes only within its slice; a decoder commit inside the slice is kept, and one that would map anything
outside it is refused, with Error Not Committed and its bit of `DEC_STAT.REJECTED` set. -/
def Obligations.DecodersCommitInsideTheSlice : Prop :=
  (∀ (s : State) (port g : Nat), s.decodes port g = true → s.rd (R.HP_SLICE_BASE port) * 65536 ≤ g ∧ g < (s.rd
    (R.HP_SLICE_BASE port) + s.rd (R.HP_SLICE_SIZE port)) * 65536) ∧
  (∀ (s : State) (port n base size ways gran : Nat), s.Calm → port < 2 → interleaveOk ways gran = true → n < 8 →
    s.hasPort port = true → s.linkUp port = true → s.rd R.PWR_STAT_STATE = 0 → s.rd (R.HP_SLICE_BASE port) ≤ base → base +
    size ≤ s.rd (R.HP_SLICE_BASE port) + s.rd (R.HP_SLICE_SIZE port) →
      ∃ t, exec (.decoderCommit port n base size ways gran) s = .next t ∧
      (t.host port).decoders = (s.host port).decoders.filter (fun d => d.1 != n) ++ [(n, base, size)] ∧
      (t.host port).notCommitted.testBit n = false ∧
      (t.host port).ways = (s.host port).ways.filter (fun d => d.1 != n) ++ [(n, ways, gran)] ∧
      t.bit (R.HP_DEC_STAT_COMMITTED port) n = true ∧
      t.bit (R.HP_DEC_STAT_REJECTED port) n = false ∧
      SameRegsBut s t [R.HP_DEC_STAT_COMMITTED port, R.HP_DEC_STAT_REJECTED port] ∧
      SameParts { s with hostA := t.hostA, hostB := t.hostB } t) ∧
  (∀ (s : State) (port n base size ways gran : Nat), s.Sound → port < 2 → interleaveOk ways gran = true → n < 8 →
    s.hasPort port = true → s.linkUp port = true → s.rd R.PWR_STAT_STATE = 0 → 0 < size → (base < s.rd (R.HP_SLICE_BASE
    port) ∨ s.rd (R.HP_SLICE_BASE port) + s.rd (R.HP_SLICE_SIZE port) < base + size) →
      ∃ t, exec (.decoderCommit port n base size ways gran) s = .next t ∧
      (t.host port).decoders = (s.host port).decoders.filter (fun d => d.1 != n) ∧
      (t.host port).notCommitted.testBit n = true ∧
      t.bit (R.HP_DEC_STAT_REJECTED port) n = true ∧
      t.bit (R.HP_DEC_STAT_COMMITTED port) n = false ∧
      t.bit (R.FLT_STAT (0x10 + port)) 7 = true ∧
      SteadyRegsBut s t [R.HP_DEC_STAT_COMMITTED port, R.HP_DEC_STAT_REJECTED port]) ∧
  (∀ (s : State) (port n base size ways gran : Nat), s.Calm → port < 2 → interleaveOk ways gran = false → n < 8 →
    s.hasPort port = true → s.linkUp port = true → s.rd R.PWR_STAT_STATE = 0 →
      ∃ t, exec (.decoderCommit port n base size ways gran) s = .next t ∧
      (t.host port).decoders = (s.host port).decoders.filter (fun d => d.1 != n) ∧
      (t.host port).notCommitted.testBit n = true ∧
      t.bit (R.HP_DEC_STAT_COMMITTED port) n = false ∧
      SameRegsBut s t [R.HP_DEC_STAT_COMMITTED port] ∧
      SameParts { s with hostA := t.hostA, hostB := t.hostB } t)

/-- R90, R92, R105: GPF Phase 1 is answered at once, Phase 2 waits for the writes received before it and then completes; a port
that reaches its window in K2 and a mailbox command that has waited 1 s latch their faults. -/
def Obligations.FlushesAreAnswered : Prop :=
  (∀ (s : State) (port : Nat), s.Calm → port < 2 → s.hasPort port = true → s.linkUp port = true → s.rd R.PWR_STAT_STATE =
    0 →
      ∃ t, exec (.gpfPhase1 port) s = .next t ∧
      t.out = [.gpf port 1] ∧
      SameRegsBut s t [] ∧
      SameParts s t) ∧
  (∀ (s : State) (port : Nat), s.Calm → port < 2 → s.hasPort port = true → s.linkUp port = true → s.rd R.PWR_STAT_STATE =
    0 →
      ∃ t, exec (.gpfPhase2Request port) s = .next t ∧
      (t.host port).gpfWait = true ∧
      t.out = [] ∧
      SameRegsBut s t [] ∧
      SameParts { s with hostA := t.hostA, hostB := t.hostB, steep := t.steep } t) ∧
  (∀ (s : State) (port : Nat), s.Calm → port < 2 → (s.host port).gpfWait = true → s.linkUp port = true → s.portsOn = true
    → (s.steep.heldWrites.all (fun w => w.port != port || !w.flush)) = true → s.inKiln = false →
      ∃ t, exec (.gpfPhase2Done port) s = .next t ∧
      (t.host port).gpfWait = false ∧
      t.flag (R.HP_GPF_P2_DONE port) = true ∧
      t.out = [.gpf port 2] ∧
      SameRegsBut s t [R.HP_GPF_P2_DONE port] ∧
      SameParts { s with hostA := t.hostA, hostB := t.hostB, kiln := t.kiln } t) ∧
  (∀ (s : State) (port : Nat), s.Sound → port < s.variant.ports → port < 2 → s.inKiln = true → s.kilnPhase ≤ 2 →
    s.kiln.k2Wait.contains port = true →
      ∃ t, exec (.gpfWindowExpired port) s = .next t ∧
      t.bit (R.FLT_STAT (0x10 + port)) 3 = true ∧
      SteadyRegsBut s t []) ∧
  (∀ (s : State) (port : Nat), s.Sound → port < s.variant.ports → port < 2 → (s.host port).waiting.isSome = true →
      ∃ t, exec (.mailboxTimeout port) s = .next t ∧
      t.bit (R.FLT_STAT (0x10 + port)) 6 = true ∧
      SteadyRegsBut s t [])

/-! ## Host port: mailbox -/

/-- R80, R83, R95, R97, R101, R103, R104, R473, R479, Tables 04-6 and 04-7: the mailbox commands that read return success with
the fields that they name, and change no register but those of the mailbox; four of them answer only once Steep Ready has
been reached; Get Supported Logs and Get Log answer with a payload that the spec leaves open. -/
def Obligations.MailboxReadsReturnTheirFields : Prop :=
  (∀ (s : State) (port : Nat), s.Calm → s.MailboxTakes port →
      ∃ t, exec (.identify port) s = .next t ∧
      t.out = [.reply port 0 (s.identifyWords)] ∧
      SameRegsBut s t [R.HP_MBOX_BUSY port, R.HP_MBOX_OPCODE port] ∧
      SameParts s t) ∧
  (∀ (s : State) (port : Nat), s.Calm → s.MailboxTakes port → (s.host port).mailIrq = 0 →
      ∃ t, exec (.getHealthInfo port) s = .next t ∧
      t.out = [.reply port 0 (s.healthWords port)] ∧
      SameRegsBut s t [R.HP_MBOX_BUSY port, R.HP_MBOX_OPCODE port] ∧
      SameParts s t) ∧
  (∀ (s : State) (port log : Nat), s.Calm → log < 4 → s.MailboxTakes port →
      ∃ t, exec (.getEventRecords port log) s = .next t ∧
      t.out = [.reply port 0 (s.eventWords port log)] ∧
      SameRegsBut s t [R.HP_MBOX_BUSY port, R.HP_MBOX_OPCODE port] ∧
      SameParts { s with hostA := t.hostA, hostB := t.hostB } t) ∧
  (∀ (s : State) (port : Nat), s.Calm → s.MailboxTakes port →
      ∃ t, exec (.getFwInfo port) s = .next t ∧
      t.out = [.reply port 0 (s.fwWords)] ∧
      SameRegsBut s t [R.HP_MBOX_BUSY port, R.HP_MBOX_OPCODE port] ∧
      SameParts { s with staged := t.staged } t) ∧
  (∀ (s : State) (port : Nat), s.Calm → s.MailboxTakes port →
      ∃ t, exec (.getTimestamp port) s = .next t ∧
      t.out = [.reply port 0 ([s.hostNow - 1])] ∧
      SameRegsBut s t [R.HP_MBOX_BUSY port, R.HP_MBOX_OPCODE port] ∧
      SameParts s t) ∧
  (∀ (s : State) (port : Nat), s.Calm → s.MailboxTakes port →
      ∃ t, exec (.getCorirvoInfo port) s = .next t ∧
      t.out = [.reply port 0 (s.infoWords)] ∧
      SameRegsBut s t [R.HP_MBOX_BUSY port, R.HP_MBOX_OPCODE port] ∧
      SameParts s t) ∧
  (∀ (s : State) (port : Nat), s.Calm → s.MailboxTakes port →
      ∃ t, exec (.getPersistenceReport port) s = .next t ∧
      t.out = [.reply port 0 (s.reportWords)] ∧
      SameRegsBut s t [R.HP_MBOX_BUSY port, R.HP_MBOX_OPCODE port] ∧
      SameParts s t) ∧
  (∀ (s : State) (port : Nat), s.Calm → s.MailboxTakes port → s.steepReady = true →
      ∃ t, exec (.getAlertConfiguration port) s = .next t ∧
      t.out = [.reply port 0 ((s.host port).alert)] ∧
      SameRegsBut s t [R.HP_MBOX_BUSY port, R.HP_MBOX_OPCODE port] ∧
      SameParts s t) ∧
  (∀ (s : State) (port base n : Nat), s.Calm → s.MailboxTakes port → s.steepReady = true →
      ∃ t, exec (.getPoisonList port base n) s = .next t ∧
      t.out = [.reply port 0 (s.poisonWords port base n)] ∧
      SameRegsBut s t [R.HP_MBOX_BUSY port, R.HP_MBOX_OPCODE port] ∧
      SameParts s t) ∧
  (∀ (s : State) (port src first : Nat) (bad : List Nat), s.Calm → s.MailboxTakes port → s.steepReady = true →
    (s.recs.live.any (fun e => bad.contains e.seqno)) = false →
      ∃ t, exec (.readTroubleLog port src first bad) s = .next t ∧
      t.out = [.reply port 0 (s.tlogWords src first)] ∧
      SameRegsBut s t [R.HP_MBOX_BUSY port, R.HP_MBOX_OPCODE port] ∧
      SameParts s t) ∧
  (∀ (s : State) (port src first : Nat) (bad : List Nat), s.Sound → s.MailboxTakes port → s.steepReady = true →
      ∃ t, exec (.readTroubleLog port src first bad) s = .next t ∧
      .reply port 0 ((s.begin.tlogParity bad).tlogWords src first) ∈ t.out ∧
      t.dirty = s.dirty) ∧
  (∀ (s : State) (port first : Nat), s.Calm → s.MailboxTakes port → s.steepReady = true →
      ∃ t, exec (.readEventRecorder port first) s = .next t ∧
      t.out = [.reply port 0 (s.recWords first)] ∧
      SameRegsBut s t [R.HP_MBOX_BUSY port, R.HP_MBOX_OPCODE port] ∧
      SameParts s t) ∧
  (∀ (s : State) (port base n : Nat), s.Calm → s.MailboxTakes port → s.steepReady = false →
      ∃ t, exec (.getPoisonList port base n) s = .next t ∧
      t.out = [.reply port 6 []] ∧
      t.dram = s.dram ∧
      SameRegsBut s t [R.HP_MBOX_OPCODE port, R.HP_MBOX_BUSY port] ∧
      SameParts s t) ∧
  (∀ (s : State) (port : Nat), s.Calm → s.MailboxTakes port →
      ∃ t, exec (.getSupportedLogs port) s = .next t ∧
      (∃ v, t.out = [.reply port 0 [v]]) ∧
      t.rd (R.HP_MBOX_OPCODE port) = 0x0400 ∧
      SameRegsBut s t [R.HP_MBOX_OPCODE port, R.HP_MBOX_BUSY port] ∧
      SameParts { s with freeCtr := t.freeCtr } t) ∧
  (∀ (s : State) (port : Nat), s.Calm → s.MailboxTakes port →
      ∃ t, exec (.getLog port) s = .next t ∧
      (∃ v, t.out = [.reply port 0 [v]]) ∧
      t.rd (R.HP_MBOX_OPCODE port) = 0x0401 ∧
      SameRegsBut s t [R.HP_MBOX_OPCODE port, R.HP_MBOX_BUSY port] ∧
      SameParts { s with freeCtr := t.freeCtr } t)

/-- R95, R100, R201: the host clears event records from the oldest on, sets the device time, the alert configuration and the
shutdown state; none of them touches memory or the dirty shutdown count. -/
def Obligations.HostSettingsAreKept : Prop :=
  (∀ (s : State) (port log : Nat), s.Calm → s.MailboxTakes port → log < 4 → (s.host port).logs.length = 4 →
      ∃ t, exec (.clearEventRecords port log true []) s = .next t ∧
      (t.host port).logs = (s.host port).logs.set log [] ∧
      t.rd (evtPend port log) = 0 ∧
      t.out = [.reply port 0 []] ∧
      SameRegsBut s t (eventRegs ++ [R.HP_MBOX_OPCODE port, R.HP_MBOX_BUSY port]) ∧
      SameParts { s with hostA := t.hostA, hostB := t.hostB } t) ∧
  (∀ (s : State) (port log : Nat) (handles : List Nat), s.Calm → s.MailboxTakes port → log < 4 → (((s.host
    port).logs.getD log []).take handles.length).map (fun r => r.handle) ≠ handles →
      ∃ t, exec (.clearEventRecords port log false handles) s = .next t ∧
      (t.host port).logs = (s.host port).logs ∧
      t.out = [.reply port rcHandle []] ∧
      SameRegsBut s t (eventRegs ++ [R.HP_MBOX_OPCODE port, R.HP_MBOX_BUSY port]) ∧
      SameParts { s with hostA := t.hostA, hostB := t.hostB } t) ∧
  (∀ (s : State) (port seconds : Nat), s.Calm → s.MailboxTakes port → s.isAdmin port = true →
      ∃ t, exec (.setTimestamp port seconds) s = .next t ∧
      t.hostTime = seconds + 1 ∧
      t.hostTimeAt = s.opsec ∧
      t.rd (R.HP_DSC port) = s.rd (R.HP_DSC port) ∧
      t.dirty = s.dirty) ∧
  (∀ (s : State) (port : Nat) (limits : List Nat), s.Calm → s.MailboxTakes port → s.steepReady = true →
      ∃ t, exec (.setAlertConfiguration port limits) s = .next t ∧
      (t.host port).alert = limits ∧
      t.out = [.reply port 0 []] ∧
      SameRegsBut s t [R.HP_MBOX_OPCODE port, R.HP_MBOX_BUSY port] ∧
      SameParts { s with hostA := t.hostA, hostB := t.hostB } t) ∧
  (∀ (s : State) (port v : Nat), s.Calm → s.MailboxTakes port → s.steepReady = true →
      ∃ t, exec (.setShutdownState port v) s = .next t ∧
      (t.host port).shutdown = v ∧
      t.rd (R.HP_DSC port) = s.rd (R.HP_DSC port) ∧
      t.out = [.reply port 0 []] ∧
      SameRegsBut s t [R.HP_MBOX_OPCODE port, R.HP_MBOX_BUSY port] ∧
      SameParts { s with hostA := t.hostA, hostB := t.hostB } t)

/-- R80, R98, R99: Inject Poison stores the line as poison and marks its granule dirty; Clear Poison writes the 64 bytes and
makes the line good; Scan Media of lines that read clean changes no memory and completes. -/
def Obligations.PoisonIsInjectedClearedAndScanned : Prop :=
  (∀ (s : State) (port line : Nat) (full : Bool), s.Sound → s.MailboxTakes port → s.steepReady = true → s.decodes port
    (line / 64) = true → s.unfilled (line / 64) = false → s.inVol (line / 64) = false → s.isDirty (line / 64) = false →
      ∃ t, exec (.injectPoison port line full) s = .next t ∧
      t.dram.poison = s.dram.poison.insert1 line ∧
      t.dirty.bits = s.dirty.bits.insert1 (line / 64) ∧
      SteadyRegsBut s t dirtyRegs) ∧
  (∀ (s : State) (port line : Nat) (bytes : List Byte) (full : Bool), s.Sound → s.MailboxTakes port → s.steepReady = true
    → s.decodes port (line / 64) = true → s.unfilled (line / 64) = false → s.inVol (line / 64) = false → s.isDirty (line /
    64) = false →
      ∃ t, exec (.clearPoison port line bytes full) s = .next t ∧
      t.dram.poison = s.dram.poison.erase1 line ∧
      t.dram.mem = s.dram.mem.paste (4096 * (line / 64) + 64 * (line % 64)) 64 (lineOf ((List.range 64).map (fun i =>
        (i, bytes.getD i 0)))) ∧
      t.dirty.bits = s.dirty.bits.insert1 (line / 64) ∧
      SteadyRegsBut s t dirtyRegs) ∧
  (∀ (s : State) (port line : Nat) (full : Bool), s.Sound → s.MailboxTakes port → s.steepReady = true → s.decodes port
    (line / 64) = true → s.holds (line / 64) (line % 64) true full = false →
      ∃ t, exec (.injectPoison port line full) s = .next t ∧
      t.isPoison (line / 64) (line % 64) = true ∧
      .reply port 0 [] ∈ t.out) ∧
  (∀ (s : State) (port line : Nat) (bytes : List Byte) (full : Bool), s.Sound → s.MailboxTakes port → s.steepReady = true
    → s.decodes port (line / 64) = true → s.holds (line / 64) (line % 64) true full = false →
      ∃ t, exec (.clearPoison port line bytes full) s = .next t ∧
      t.isPoison (line / 64) (line % 64) = false ∧
      t.dram.mem = s.dram.mem.paste (4096 * (line / 64) + 64 * (line % 64)) 64 (lineOf ((List.range 64).map (fun i =>
        (i, bytes.getD i 0)))) ∧
      .reply port 0 [] ∈ t.out) ∧
  (∀ (s : State) (port base n : Nat), s.Calm → s.MailboxTakes port → s.steepReady = true → s.decodes port base = true →
    s.decodes port (base + n - 1) = true → (s.host port).bg = none → s.rd (R.HP_POISON_OVERFLOW port) = 0 →
      ∃ t, exec (.scanMedia port base n []) s = .next t ∧
      t.out = [.reply port 1 [], .bgDone port 0x4304 0 []] ∧
      t.dram = s.dram ∧
      SameRegsBut s t [R.HP_MBOX_OPCODE port, R.HP_MBOX_BUSY port] ∧
      SameParts s t) ∧
  (∀ (s : State) (port base n : Nat) (found : List (Nat × Ecc)), s.Sound → s.MailboxTakes port → s.steepReady = true →
    s.decodes port base = true → s.decodes port (base + n - 1) = true → (s.host port).bg = none →
      ∃ t, exec (.scanMedia port base n found) s = .next t ∧
      .reply port 1 [] ∈ t.out ∧
      .bgDone port 0x4304 0 [] ∈ t.out ∧
      t.dram.mem = s.dram.mem) ∧
  (∀ (s : State) (port base n : Nat), s.Calm → s.MailboxTakes port → s.steepReady = true → (s.decodes port base = false ∨
    s.decodes port (base + n - 1) = false) →
      ∃ t, exec (.scanMedia port base n []) s = .next t ∧
      t.out = [.reply port rcAddress []] ∧
      SameRegsBut s t [R.HP_MBOX_OPCODE port, R.HP_MBOX_BUSY port] ∧
      SameParts s t)

/-- R209: Sanitize and Secure Erase start in the background, and at their end the key is replaced, the key epoch advances, every
map entry is at state 0, and the DRAM reads as zeros with nothing poisoned. -/
def Obligations.SanitizeDestroysTheKeyAndTheData : Prop :=
  (∀ (s : State) (port : Nat), s.Calm → s.MailboxTakes port → s.isAdmin port = true → s.rd R.STP_STAT_PHASE = 4 → (s.host
    port).bg = none →
      ∃ t, exec (.sanitize port) s = .next t ∧
      (t.host port).bg = some { opcode := opSanitize, words := [] } ∧
      t.flag (R.HP_MBOX_BG port) = true ∧
      t.out = [.reply port 1 []] ∧
      SameRegsBut s t [R.HP_MBOX_OPCODE port, R.HP_MBOX_BG port, R.HP_MBOX_BUSY port, R.HP_MBOX_PCT port] ∧
      SameParts { s with hostA := t.hostA, hostB := t.hostB } t) ∧
  (∀ (s : State) (port : Nat), s.Calm → s.MailboxTakes port → s.isAdmin port = true → s.rd R.STP_STAT_PHASE = 4 → (s.host
    port).bg = none →
      ∃ t, exec (.secureErase port) s = .next t ∧
      (t.host port).bg = some { opcode := opSecureErase, words := [] } ∧
      t.flag (R.HP_MBOX_BG port) = true ∧
      t.out = [.reply port 1 []] ∧
      SameRegsBut s t [R.HP_MBOX_OPCODE port, R.HP_MBOX_BG port, R.HP_MBOX_BUSY port, R.HP_MBOX_PCT port] ∧
      SameParts { s with hostA := t.hostA, hostB := t.hostB } t) ∧
  (∀ (s : State) (port : Nat) (b : MboxCmd), s.Sound → port < 2 → (s.host port).bg = some b → (b.opcode = opSanitize ∨
    b.opcode = opSecureErase) → s.inKiln = false → s.steepReady = true →
      ∃ t, exec (.sanitizeComplete port) s = .next t ∧
      t.rd R.CRY_KEY_EPOCH = (s.rd R.CRY_KEY_EPOCH + 1) % 2 ^ 32 ∧
      t.cellar.map = [] ∧
      t.cellar.wrapA.hostKey = 0 ∧
      t.dram.mem = [] ∧
      t.dram.poison = [] ∧
      SteadyRegsBut s t (dirtyRegs ++ [R.CRY_STAT_KEY_VALID, R.CRY_KEY_EPOCH, R.CEL_MAP_LOADED, R.CRY_STAT_LOCKED,
        R.CEL_LOST, R.CRY_STAT_SEALED, R.CEL_MAP_DIRTY, R.CEL_FOLD, R.DRT_INFLIGHT_IN_USE, R.DRT_INFLIGHT_PEAK]))

/-- R85, R207, R208, R224, R369: Set Partition writes the slices or is refused, Planned Kiln is Busy while the controller is
Disarmed, a right key unlocks the cask and a wrong one backs off, Set Cask Host Key rewraps both copies, and Rack Export of
a volume that is not here is Invalid Input. -/
def Obligations.VendorCommandsTakeEffect : Prop :=
  (∀ (s : State) (port aB aN bB bN : Nat), s.Calm → s.MailboxTakes port → s.isAdmin port = true → s.steepReady = true →
    aB + aN ≤ s.decodable / 65536 → (1 < s.variant.ports → bB + bN ≤ s.decodable / 65536 ∧ (s.admin = 2 ∨ overlaps aB aN
    bB bN = false)) → s.decodable / 65536 < 2 ^ 18 → (s.hostA.decoders.all (fun d => decide (aB ≤ d.2.1) && decide (d.2.1
    + d.2.2 ≤ aB + aN))) = true → (s.variant.ports ≤ 1 ∨ s.hostB.decoders.all (fun d => decide (bB ≤ d.2.1) && decide
    (d.2.1 + d.2.2 ≤ bB + bN)) = true) →
      ∃ t, exec (.setPartition port aB aN bB bN) s = .next t ∧
      t.rd (R.HP_SLICE_BASE 0) = aB ∧
      t.rd (R.HP_SLICE_SIZE 0) = aN ∧
      (s.variant.ports ≤ 1 ∨ t.rd (R.HP_SLICE_BASE 1) = bB) ∧
      (s.variant.ports ≤ 1 ∨ t.rd (R.HP_SLICE_SIZE 1) = bN) ∧
      t.out = [.reply port 0 []] ∧
      t.power.partitioned = true ∧
      t.dram = s.dram ∧
      SteadyRegsBut s t []) ∧
  (∀ (s : State) (port aB aN bB bN : Nat), s.Calm → s.MailboxTakes port → s.isAdmin port = true → s.steepReady = true →
    s.decodable / 65536 < aB + aN →
      ∃ t, exec (.setPartition port aB aN bB bN) s = .next t ∧
      t.out = [.reply port 2 []] ∧
      t.rd (R.HP_SLICE_SIZE 0) = s.rd (R.HP_SLICE_SIZE 0) ∧
      SameRegsBut s t [R.HP_MBOX_OPCODE port, R.HP_MBOX_BUSY port] ∧
      SameParts s t) ∧
  (∀ (s : State) (port : Nat) (p3 group : Bool), s.Sound → s.MailboxTakes port → s.isAdmin port = true → s.steepReady =
    true → s.kilnLive = true → (s.host port).bg = none → s.portsOn = true →
      ∃ t, exec (.plannedKiln port p3 group) s = .next t ∧
      .reply port 1 [] ∈ t.out ∧
      t.inKiln = true ∧
      t.kiln.since = true ∧
      t.flag (R.HP_MBOX_BG port) = true ∧
      (t.host port).bg = some { opcode := 0xC010, words := [] } ∧
      t.dram.mem = s.dram.mem) ∧
  (∀ (s : State) (port : Nat) (p3 group : Bool), s.Calm → s.MailboxTakes port → s.isAdmin port = true → s.steepReady =
    true → s.rd R.KLN_STAT_STATE = 0 →
      ∃ t, exec (.plannedKiln port p3 group) s = .next t ∧
      t.out = [.reply port 6 []] ∧
      t.rd R.KLN_STAT_STATE = 0 ∧
      SameRegsBut s t [R.HP_MBOX_OPCODE port, R.HP_MBOX_BUSY port] ∧
      SameParts s t) ∧
  (∀ (s : State) (port key : Nat), s.Calm → s.MailboxTakes port → s.isAdmin port = true → s.flag R.CRY_STAT_LOCKED = true
    → s.rd R.CRY_UNLOCK_WAIT = 0 → s.cellar.wrapA.readable = true → s.cellar.wrapA.hostKey = key →
      ∃ t, exec (.caskUnlock port key) s = .next t ∧
      t.flag R.CRY_STAT_LOCKED = false ∧
      t.flag R.CRY_STAT_KEY_VALID = true ∧
      t.cellar.wrapA = { s.cellar.wrapA with chan := s.recordChans.1 } ∧
      t.cellar.wrapB = { s.cellar.wrapA with chan := s.recordChans.2 } ∧
      t.out = [.reply port 0 []] ∧
      SameRegsBut s t [R.CRY_STAT_LOCKED, R.CRY_STAT_SEALED, R.HP_MBOX_OPCODE port, R.CRY_STAT_KEY_VALID,
        R.CRY_STAT_WRAP_GEN, R.STP_STAT_HOLD, R.CRY_STAT_UNLOCK_FAILS, R.CRY_UNLOCK_WAIT, R.HP_MBOX_BUSY port] ∧
      SameParts { s with cellar := t.cellar } t) ∧
  (∀ (s : State) (port key : Nat), s.Sound → s.MailboxTakes port → s.isAdmin port = true → s.flag R.CRY_STAT_LOCKED =
    true → s.rd R.CRY_UNLOCK_WAIT = 0 → s.rd R.CRY_STAT_UNLOCK_FAILS < 65535 → s.cellar.wrapA.hostKey ≠ key →
    s.cellar.wrapB.hostKey ≠ key →
      ∃ t, exec (.caskUnlock port key) s = .next t ∧
      t.flag R.CRY_STAT_LOCKED = true ∧
      t.rd R.CRY_UNLOCK_WAIT = min 64 (2 ^ min 6 (s.rd R.CRY_STAT_UNLOCK_FAILS)) ∧
      t.rd R.CRY_STAT_UNLOCK_FAILS = s.rd R.CRY_STAT_UNLOCK_FAILS + 1 ∧
      .reply port 2 [] ∈ t.out ∧
      t.bit (R.FLT_STAT 0x71) 2 = true ∧
      t.cellar = s.cellar ∧
      SteadyRegsBut s t [R.CRY_STAT_UNLOCK_FAILS, R.CRY_UNLOCK_WAIT]) ∧
  (∀ (s : State) (port cur new : Nat), s.Calm → s.MailboxTakes port → s.isAdmin port = true → s.steepReady = true →
    s.cellar.wrapA.hostKey = cur →
      ∃ t, exec (.setCaskHostKey port cur new true) s = .next t ∧
      t.cellar.wrapA =
        { s.cellar.wrapA with hostKey := new, gen := (s.rd R.CRY_STAT_WRAP_GEN + 1) % 256, readable := true, chan := s.recordChans.1 } ∧
      t.cellar.wrapB = { t.cellar.wrapA with chan := s.recordChans.2 } ∧
      t.flag R.CRY_STAT_SEALED = (new != 0) ∧
      t.out = [.reply port 0 []] ∧
      SameRegsBut s t [R.HP_MBOX_OPCODE port, R.CRY_STAT_SEALED, R.CRY_STAT_WRAP_GEN, R.HP_MBOX_BUSY port] ∧
      SameParts { s with cellar := t.cellar } t) ∧
  (∀ (s : State) (port owner g n : Nat), s.Calm → s.MailboxTakes port → s.isAdmin port = true → s.steepReady = true →
    s.variant.fabric = true → 0 < n → n ≤ 256 → (s.host port).bg = none → s.racking.guests = [] →
      ∃ t, exec (.rackExport port 0 owner g n none) s = .next t ∧
      t.out = [.reply port 1 [], .bgDone port 0xC050 2 []] ∧
      SameRegsBut s t [R.HP_MBOX_OPCODE port, R.HP_MBOX_BUSY port, R.RCK_EXPORT_PCT] ∧
      SameParts { s with racking := t.racking } t) ∧
  (∀ (s : State) (port owner g n : Nat) (r : ExportReply), s.Calm → s.MailboxTakes port → s.isAdmin port = true →
    s.steepReady = true → s.variant.fabric = true → 0 < n → n ≤ 256 → (s.host port).bg = none → s.localExport owner g n =
    some r →
      ∃ t, exec (.rackExport port 0 owner g n none) s = .next t ∧
      t.out = [.reply port 1 [], .bgDone port 0xC050 0 r.toWords] ∧
      t.rd R.RCK_EXPORT_PCT = 100 ∧
      SameRegsBut s t [R.HP_MBOX_OPCODE port, R.RCK_EXPORT_PCT, R.HP_MBOX_BUSY port] ∧
      SameParts { s with racking := t.racking } t)

/-! ## DRAM and repair -/

/-- R118, R119, R123, R129: a patrol step advances its channel's position, a finished retire copy moves the granule to a spare
slot, a sparing step rewrites one granule, and a rank that does not acknowledge shed entry stays active. -/
def Obligations.PatrolAndRepairGoOn : Prop :=
  (∀ (s : State) (c : Nat), s.Sound → c < 16 → s.patrolStep c ≠ 0 → s.dramUp = true → s.works (0x20 + c) = true →
    s.dram.patrolPos.get c + s.patrolStep c < max 1 (s.rd (R.DMC_GRAN c)) →
      ∃ t, exec (.patrolStep c []) s = .next t ∧
      t.dram.patrolPos = s.dram.patrolPos.set c (s.dram.patrolPos.get c + s.patrolStep c) ∧
      t.rd (R.DMC_PATROL_STEP c) = s.patrolStep c % 4096 ∧
      SteadyRegsBut s t [R.DMC_PATROL_STEP c, R.DMC_PATROL_PASS_PCT c]) ∧
  (∀ (s : State) (c : Nat) (found : List (Nat × Ecc)), s.Sound → c < 16 → s.patrolStep c ≠ 0 → s.dramUp = true → s.works
    (0x20 + c) = true →
      ∃ t, exec (.patrolStep c found) s = .next t ∧
      t.dram.patrolPos = s.dram.patrolPos.set c (if max 1 (s.rd (R.DMC_GRAN c)) ≤ s.dram.patrolPos.get c + s.patrolStep
        c then 0 else s.dram.patrolPos.get c + s.patrolStep c) ∧
      t.rd (R.DMC_PATROL_STEP c) = s.patrolStep c % 4096 ∧
      t.dram.mem = s.dram.mem ∧
      t.dirty = s.dirty) ∧
  (∀ (s : State) (g n : Nat) (found : List (Nat × Ecc)), s.Sound → s.dram.retiring.contains g = true → s.freeSlot = some
    n →
      ∃ t, exec (.retireCopyDone g found) s = .next t ∧
      t.dram.retire.get g = n + 1 ∧
      t.dram.retiring.contains g = false) ∧
  (∀ (s : State) (g n : Nat), s.Sound → s.dram.retiring.contains g = true → s.freeSlot = some n → s.isDirty g = false →
    (s.dram.waiting.all (fun w => w.granule != g)) = true →
      ∃ t, exec (.retireCopyDone g []) s = .next t ∧
      t.dram.retire = s.dram.retire.set g (n + 1) ∧
      t.dram.mem = s.dram.mem ∧
      SteadyRegsBut s t [R.DRS_POOL_USED, R.DRS_RETIRED]) ∧
  (∀ (s : State) (g : Nat) (found : List (Nat × Ecc)), s.Sound → s.dram.retiring.contains g = true → s.freeSlot = none →
    (s.dram.waiting.all (fun w => w.granule != g)) = true →
      ∃ t, exec (.retireCopyDone g found) s = .next t ∧
      t.dram.retire = s.dram.retire ∧
      t.dram.retiring.contains g = false ∧
      t.dram.mem = s.dram.mem) ∧
  (∀ (s : State) (found : List (Nat × Ecc)), s.Sound → s.flag R.DRS_SPARE_PROG_ACTIVE = true → s.dramUp = true →
    s.kiln.since = false → 2 ≤ s.dram.sparingLeft →
      ∃ t, exec (.sparingCopyStep found) s = .next t ∧
      t.dram.sparingLeft = s.dram.sparingLeft - 1 ∧
      t.flag R.DRS_SPARE_PROG_ACTIVE = true ∧
      t.rd R.DRS_SPARE_PROG_PCT = (s.dram.sparingAll - (s.dram.sparingLeft - 1)) * 100 / max 1 s.dram.sparingAll % 128 ∧
      t.dram.mem = s.dram.mem) ∧
  (∀ (s : State), s.Sound → s.flag R.DRS_SPARE_PROG_ACTIVE = true → s.dramUp = true → s.kiln.since = false → 2 ≤
    s.dram.sparingLeft →
      ∃ t, exec (.sparingCopyStep []) s = .next t ∧
      t.dram = { s.dram with sparingLeft := s.dram.sparingLeft - 1 } ∧
      SteadyRegsBut s t [R.DRS_SPARE_PROG_PCT, R.DRS_SPARE_PROG_ACTIVE]) ∧
  (∀ (s : State) (found : List (Nat × Ecc)), s.Sound → s.flag R.DRS_SPARE_PROG_ACTIVE = true → s.dramUp = true →
    s.kiln.since = false → s.dram.sparingLeft ≤ 1 →
      ∃ t, exec (.sparingCopyStep found) s = .next t ∧
      t.dram.sparingLeft = 0 ∧
      t.flag R.DRS_SPARE_PROG_ACTIVE = false ∧
      t.dram.mem = s.dram.mem) ∧
  (∀ (s : State) (c r : Nat), s.Sound → c < 16 → r < 6 → s.inKiln = true → s.rd (R.DMC_RANK_PWR (s.dmcOf c) r) = 2 →
    s.dram.shedding.has (8 * c + r) = true →
      ∃ t, exec (.rankShedTimeout c r) s = .next t ∧
      t.dram.noShed = s.dram.noShed.insert1 (8 * c + r) ∧
      t.rd (R.DMC_RANK_PWR (s.dmcOf c) r) = 0 ∧
      SteadyRegsBut s t rankPowerRegs) ∧
  (∀ (s : State) (c : Nat), s.Sound → c < s.variant.dmcs → s.rd (R.DMC_PATROL_HOURS c) ≠ 0 →
      ∃ t, exec (.patrolOverdue c) s = .next t ∧
      t.bit (R.FLT_STAT (0x20 + c)) 6 = true ∧
      SteadyRegsBut s t [])

/-! ## Steep -/

/-- R257, R264, R267, R269, R275, Table 09-5: the bulk steep begins once its delay has elapsed; a fill writes the lines that are
not masked, from the granule's copy or as zeros, and leaves the granule as dirty as it was; a read held to its ceiling
latches the ceiling bit. -/
def Obligations.FillsBringGranulesBack : Prop :=
  (∀ (s : State), s.Calm → s.rd R.STP_STAT_PHASE = 2 → s.flag R.STP_CTRL_BULK_EN = true →
      ∃ t, exec .bulkDelayElapsed s = .next t ∧
      t.rd R.STP_STAT_PHASE = 3 ∧
      t.flag R.STP_STAT_BULK_RUN = true ∧
      t.steep.bulkDelayDone = true ∧
      SameRegsBut s t [R.STP_STAT_PHASE, R.STP_STAT_BULK_RUN] ∧
      SameParts { s with steep := t.steep } t) ∧
  (∀ (s : State) (g mapStep step us busy : Nat), s.Sound → s.fillsRun = true → s.unfilled g = true → s.steep.fills.any
    (fun f => f.granule == g && f.demand) = true → s.partialFull g = false →
      ∃ t, exec (.demandFillDone g mapStep step us busy) s = .next t ∧
      t.unfilled g = false ∧
      (s.steep.hints.contains g = true ∨ (t.steep.fills.all (fun f => f.granule != g)) = true) ∧
      (t.steep.heldWrites.all (fun w => w.granule != g)) = true) ∧
  (∀ (s : State) (g mapStep step us busy : Nat), s.Sound → s.fillsRun = true → s.unfilled g = true → s.steep.fills.any
    (fun f => f.granule == g && f.demand) = true → s.partialFull g = false → s.inVol g = false → s.cellar.loaded.has (g /
    512) = true → entState (s.entry g) = 0 → (s.steep.heldWrites.all (fun w => w.granule != g)) = true →
      ∃ t, exec (.demandFillDone g mapStep step us busy) s = .next t ∧
      t.dram.mem = s.dram.mem.paste (4096 * g) 4096 (Memory.mergeLines [] (s.granuleData g) (s.mask g)) ∧
      t.dirty = s.dirty) ∧
  (∀ (s : State) (g mapStep step us busy : Nat), s.Sound → s.fillsRun = true → s.unfilled g = true → s.steep.fills.any
    (fun f => f.granule == g && f.demand) = true → s.partialFull g = false → s.inVol g = false → s.cellar.loaded.has (g /
    512) = true → entState (s.entry g) = 3 → (s.steep.heldWrites.all (fun w => w.granule != g)) = true →
      ∃ t, exec (.demandFillDone g mapStep step us busy) s = .next t ∧
      (∀ l ∈ List.range 64, (s.mask g).getLsbD l = true ∨ t.isPoison g l = true) ∧
      t.bit (R.FLT_STAT 0x43) 1 = true ∧
      t.dirty = s.dirty) ∧
  (∀ (s : State) (g mapStep us busy : Nat) (c : Codeword), s.Sound → s.fillsRun = true → s.unfilled g = true →
    s.steep.fills.any (fun f => f.granule == g && f.demand) = true → s.partialFull g = false → s.inVol g = false →
    s.cellar.loaded.has (g / 512) = true → entState (s.entry g) = 1 → s.copyOf g = some c → (s.steep.heldWrites.all (fun w
    => w.granule != g)) = true →
      ∃ t, exec (.demandFillDone g mapStep 0 us busy) s = .next t ∧
      t.dram.mem = s.dram.mem.paste (4096 * g) 4096 (Memory.mergeLines c.data (s.granuleData g) (s.mask g)) ∧
      t.dirty = s.dirty) ∧
  (∀ (s : State) (g mapStep step us busy : Nat), s.Sound → s.fillsRun = true → s.unfilled g = true → s.steep.fills.any
    (fun f => f.granule == g && f.demand) = true → s.partialFull g = false → s.inVol g = true → (s.steep.heldWrites.all
    (fun w => w.granule != g)) = true →
      ∃ t, exec (.demandFillDone g mapStep step us busy) s = .next t ∧
      t.dram.mem = s.dram.mem.paste (4096 * g) 4096 (Memory.mergeLines [] (s.granuleData g) (s.mask g)) ∧
      t.dirty = s.dirty) ∧
  (∀ (s : State) (port tag : Nat), s.Sound → port < 2 → s.steep.fills.any (fun f => f.held.any (fun h => h.1 == port &&
    h.2.1 == tag)) = true →
      ∃ t, exec (.fillCeiling port tag) s = .next t ∧
      t.bit (R.FLT_STAT 0x43) 0 = true ∧
      SteadyRegsBut s t []) ∧
  (∀ (s : State) (r g mapStep step busy : Nat), s.Sound → s.bulkRuns = true → s.bulkTake.steep.bulkRegion = r + 1 →
    s.bulkTake.bulkNext r = some g → s.bulkTake.partialFull g = false →
      ∃ t, exec (.bulkFillDone mapStep step busy) s = .next t ∧
      t.unfilled g = false) ∧
  (∀ (s : State) (r g mapStep step busy : Nat), s.Sound → s.bulkRuns = true → s.bulkTake.steep.bulkRegion = r + 1 →
    s.bulkTake.bulkNext r = some g → s.bulkTake.partialFull g = false → s.inVol g = true → (s.steep.heldWrites.all (fun w
    => w.granule != g)) = true →
      ∃ t, exec (.bulkFillDone mapStep step busy) s = .next t ∧
      t.dram.mem = s.dram.mem.paste (4096 * g) 4096 (Memory.mergeLines [] (s.granuleData g) (s.mask g)) ∧
      t.dirty = s.dirty)

/-! ## Dirty state, budget and withering -/

/-- R138, R139, R160: a scrub pass starts and, at its end, D is what the dirty bits count and the summary what they call for; a
heat epoch decays every region and takes skipped granules up again. -/
def Obligations.TheDirtyMapIsScrubbedAndHeatDecays : Prop :=
  (∀ (s : State), s.Sound → s.live = true → s.works 0x40 = true → s.dirty.scrubRun = false →
      ∃ t, exec .dirtyScrubStart s = .next t ∧
      t.dirty.scrubRun = true ∧
      t.dirty.bits = s.dirty.bits ∧
      SteadyRegsBut s t []) ∧
  (∀ (s : State), s.Sound → s.dirty.scrubRun = true → s.pastK3 = false →
      ∃ t, exec (.dirtyScrubEnd [] none) s = .next t ∧
      t.rd R.DRT_DIRTY = s.dirty.bits.card % 2 ^ 40 ∧
      t.dirty.summary = regionsOf s.dirty.bits ∧
      t.dirty.scrubRun = s.dirty.scrubDue ∧
      t.dirty.bits = s.dirty.bits ∧
      SteadyRegsBut s t (dirtyRegs ++ [R.DRT_SCRUB_PASSES, R.DRT_SCRUB_MISMATCH])) ∧
  (∀ (s : State), s.Sound → s.live = true → s.works 0x40 = true → s.dirty.scrubRun = true →
      ∃ t, exec .dirtyScrubStart s = .next t ∧
      t.dirty = { s.dirty with scrubDue := true } ∧
      SteadyRegsBut s t []) ∧
  (∀ (s : State) (bad : List Nat) (vol : Option Bool), s.Sound → s.dirty.scrubRun = true → s.pastK3 = false →
      ∃ t, exec (.dirtyScrubEnd bad vol) s = .next t ∧
      t.rd R.DRT_DIRTY = t.dirty.bits.card % 2 ^ 40 ∧
      t.dirty.summary = regionsOf t.dirty.bits ∧
      t.dirty.scrubRun = s.dirty.scrubDue ∧
      t.dram.mem = s.dram.mem) ∧
  (∀ (s : State) (bad : List Nat), s.Sound → s.live = true → s.rd R.PWR_STAT_STATE ≠ 2 → s.flag R.DRT_CTRL_HEAT_EN = true
    → s.works 0x40 = true →
      ∃ t, exec (.heatEpochEnd bad) s = .next t ∧
      t.dirty.heat = bad.foldl (fun (h : NMap) l => (List.range 64).foldl (fun (h : NMap) i => h.set (64 * l + i) 254)
        h) (s.dirty.heat.filterMap (fun e => if heatNext (s.rd R.DRT_CTRL_DECAY_SHIFT) (s.rd R.DRT_CTRL_HEAT_INC) e.2 = 0
        then none else some (e.1, heatNext (s.rd R.DRT_CTRL_DECAY_SHIFT) (s.rd R.DRT_CTRL_HEAT_INC) e.2))) ∧
      t.dirty.skip = [] ∧
      t.dirty.bits = s.dirty.bits ∧
      SteadyRegsBut s t [R.DRT_EPOCHS])

/-- R144, R145, R147, R148, R149: where a kiln current is known the bound is the least of its terms, under the clamp; without
energy it is 0; SAFETY computes it anew; the host's energy counts from its write until it expires. -/
def Obligations.TheSaveBoundIsComputedAndChecked : Prop :=
  (∀ (s : State), s.Sound → s.budgetOn = true → s.works 0x44 = true → s.iKiln ≠ 0 → s.budget.clamp = none →
      ∃ t, exec .budgetCompute s = .next t ∧
      t.rd R.BUD_BOUND = (s.rawBound (min s.bEnergy (2 ^ 32 - 1))).1 ∧
      t.rd R.BUD_LIMIT = (s.rawBound (min s.bEnergy (2 ^ 32 - 1))).2 ∧
      t.rd R.BUD_UPDATES = (s.rd R.BUD_UPDATES + 1) % 2 ^ 32 ∧
      t.rd R.BUD_E_COUNT_SRC = b2n (!s.variant.gauge) ∧
      SteadyRegsBut s t [R.BUD_B_ZONE, R.BUD_LIMIT, R.BUD_E_COUNT_CT, R.BUD_Q_FIX, R.BUD_DRAIN_TERM, R.BUD_UPDATES,
        R.DRT_INFLOW, R.BUD_I_KILN_CT_PER_S, R.BUD_DRAIN_MBPS, R.BUD_B_ENERGY, R.BUD_I_KILN_LEARNT, R.BUD_BOUND,
        R.BUD_E_COUNT_SRC]) ∧
  (∀ (s : State), s.Sound → s.budgetOn = true → s.works 0x44 = true → s.energy = 0 →
      ∃ t, exec .budgetCompute s = .next t ∧
      t.rd R.BUD_BOUND = 0 ∧
      SteadyRegsBut s t [R.BUD_B_ZONE, R.BUD_Q_FIX, R.BUD_DRAIN_TERM, R.BUD_UPDATES, R.DRT_INFLOW,
        R.BUD_I_KILN_CT_PER_S, R.BUD_LIMIT, R.BUD_DRAIN_MBPS, R.BUD_E_COUNT_CT, R.BUD_B_ENERGY, R.BUD_I_KILN_LEARNT,
        R.BUD_BOUND, R.BUD_E_COUNT_SRC]) ∧
  (∀ (s : State), s.Sound → s.runs .safety = true → s.budgetOn = true → s.iKiln ≠ 0 →
      ∃ t, exec .safeBoundCheck s = .next t ∧
      t.rd R.BUD_SAFE_BOUND = (s.rawBound (min s.bEnergy (2 ^ 32 - 1))).1 ∧
      t.budget.lastUpdates = s.rd R.BUD_UPDATES ∧
      t.rd R.BUD_BOUND = min (s.rd R.BUD_BOUND) (if 101 * (s.rawBound (min s.bEnergy (2 ^ 32 - 1))).1 < 100 * s.rd
        R.BUD_BOUND ∨ s.rd R.BUD_UPDATES = s.budget.lastUpdates then (s.rawBound (min s.bEnergy (2 ^ 32 - 1))).1 else s.rd
        R.BUD_BOUND) ∧
      SteadyRegsBut s t [R.BUD_CHECKS_FAILED, R.BUD_CHECKS_PASSED, R.BUD_SAFE_BOUND, R.BUD_BOUND]) ∧
  (∀ (s : State) (who : Requester) (ct : Nat), s.Sound → s.variant.gauge = false → s.Writable who 0x44 →
      ∃ t, exec (.hostEnergyWrite who ct) s = .next t ∧
      t.rd R.BUD_HOST_ENERGY = ct % 2 ^ 24 ∧
      t.budget.mark = s.netCt ∧
      t.budget.expired = false ∧
      t.rd R.BUD_ENERGY_AGE = 0 ∧
      SteadyRegsBut s t [R.BUD_HOST_ENERGY, R.BUD_ENERGY_AGE]) ∧
  (∀ (s : State), s.Sound → s.variant = .e → s.budget.expired = false →
      ∃ t, exec .hostEnergyExpired s = .next t ∧
      t.budget.expired = true ∧
      t.bit (R.FLT_STAT 0x44) 2 = true ∧
      SteadyRegsBut s t [])

/-- R153, R156, R159, R160, R161, R175: a tick refills the bucket and sets the target; a copy read without a write in between
goes on to be programmed, a torn one is counted; a commit clears the dirty bit unless the granule was written in the program
phase; a stripe is closed with padding. -/
def Obligations.WitherCopiesRaceWrites : Prop :=
  (∀ (s : State) (n : Nat) (space : Bool), s.Sound → s.live = true →
      ∃ t, exec (.witherTick n space) s = .next t ∧
      t.rd R.WTH_TARGET = s.witherT % 2 ^ 32 ∧
      t.budget.refillRem = (s.budget.refillRem + s.allowA) % 86400000 ∧
      t.budget.commits = 0 ∧
      t.dirty.bits = s.dirty.bits ∧
      SteadyRegsBut s t [R.WTH_BUCKET, R.DRT_INFLIGHT_IN_USE, R.DRT_INFLIGHT_PEAK, R.WTH_RATE_CMD_MBPS, R.WTH_TARGET,
        R.WTH_RATE_ACT_MBPS, R.DRT_SUMMARY]) ∧
  (∀ (s : State) (g addr : Nat) (e : InFlight), s.Sound → s.inflightOf g .read = some e → s.grantee (s.chanOf (s.placeOf
    g)) = some g → e.wrRead = false →
      ∃ t, exec (.copyReadDone g addr [] []) s = .next t ∧
      t.dirty.inflight = s.dirty.inflight.map (fun (x : InFlight) => if x.granule = g then
        { x with phase := .prog, data := s.granuleData g, poison := s.poisonMask g, addr := addr } else x) ∧
      t.rd R.CRY_ENC = (s.rd R.CRY_ENC + 1) % 2 ^ 48 ∧
      SteadyRegsBut s t [R.CRY_ENC]) ∧
  (∀ (s : State) (g addr : Nat) (e : InFlight) (found : List (Nat × Ecc)) (bad : List Nat), s.Sound → s.inflightOf g
    .read = some e → s.grantee (s.chanOf (s.placeOf g)) = some g → e.wrRead = false →
      ∃ t, exec (.copyReadDone g addr found bad) s = .next t ∧
      t.inflightOf g .prog = some
        { e with phase := .prog, data := s.granuleData g, poison := (s.copyErrors g found).2, addr := addr } ∧
      t.rd R.CRY_ENC = (s.rd R.CRY_ENC + 1) % 2 ^ 48 ∧
      t.dirty.bits = s.dirty.bits ∧
      t.dram.mem = s.dram.mem) ∧
  (∀ (s : State) (g addr : Nat) (e : InFlight), s.Sound → s.inflightOf g .read = some e → s.grantee (s.chanOf (s.placeOf
    g)) = some g → e.wrRead = true → s.dirty.torn.get g < 7 → s.rd R.WTH_TORN < 2 ^ 32 - 1 →
      ∃ t, exec (.copyReadDone g addr [] []) s = .next t ∧
      t.dirty.inflight = s.dirty.inflight.filter (fun x => x.granule != g) ∧
      t.rd R.WTH_TORN = s.rd R.WTH_TORN + 1 ∧
      t.dirty.bits = s.dirty.bits ∧
      SteadyRegsBut s t [R.WTH_TORN, R.DRT_INFLIGHT_IN_USE, R.DRT_INFLIGHT_PEAK]) ∧
  (∀ (s : State) (g : Nat) (e : InFlight), s.Sound → s.live = true → s.inflightOf g .prog = some e → s.mayCommit e = true
    → s.placeFree e.addr = true → s.inImageZone e.addr = true → e.wrProg = false → s.isDirty g = true →
      ∃ t, exec (.mapCommit [g]) s = .next t ∧
      t.dirty.bits = s.dirty.bits.erase1 g ∧
      t.cellar.map = s.cellar.map.set g (mkEntry 1 (e.poison != 0) e.addr (s.cellar.seq + 1)) ∧
      t.dirty.inflight = s.dirty.inflight.filter (fun x => x.granule != g) ∧
      SteadyRegsBut s t (dirtyRegs ++ [R.WTH_BUCKET, R.WTH_WITHERED, R.CEL_MAP_DIRTY, R.CEL_MAP_LOADED,
        R.DRT_INFLIGHT_IN_USE, R.CEL_LOST, R.CEL_IMAGE_FREE, R.CEL_OP, R.DRT_INFLIGHT_PEAK, R.WTH_REDIRTY])) ∧
  (∀ (s : State) (g : Nat) (e : InFlight), s.Sound → s.live = true → s.inflightOf g .prog = some e → s.mayCommit e = true
    → s.placeFree e.addr = true → s.inImageZone e.addr = true → e.wrProg = true →
      ∃ t, exec (.mapCommit [g]) s = .next t ∧
      t.dirty.bits = s.dirty.bits ∧
      t.cellar.map = s.cellar.map.set g (mkEntry 1 (e.poison != 0) e.addr (s.cellar.seq + 1)) ∧
      SteadyRegsBut s t (dirtyRegs ++ [R.WTH_BUCKET, R.WTH_WITHERED, R.WTH_REDIRTY, R.CEL_MAP_DIRTY, R.CEL_MAP_LOADED,
        R.DRT_INFLIGHT_IN_USE, R.CEL_LOST, R.CEL_IMAGE_FREE, R.CEL_OP, R.DRT_INFLIGHT_PEAK])) ∧
  (∀ (s : State) (gs : List Nat), s.Sound → s.live = true →
      ∃ t, exec (.mapCommit gs) s = .next t ∧
      (∀ k, gs.contains k = true ∨ (t.entry k = s.entry k ∧ t.isDirty k = s.isDirty k ∧ t.inflightOf k .prog =
        s.inflightOf k .prog)) ∧
      t.dram.mem = s.dram.mem) ∧
  (∀ (s : State) (l : List Nat), s.Sound → s.live = true →
      ∃ t, exec (.stripeCloseTimeout l) s = .next t ∧
      (∀ k, l.contains k = true ∨ flashGet t.cellar.flash k = flashGet s.cellar.flash k) ∧
      t.dirty = s.dirty ∧
      t.cellar.map = s.cellar.map ∧
      SteadyRegsBut s t []) ∧
  (∀ (s : State) (a : Nat), s.Sound → s.live = true → s.placeFree a = true → s.inImageZone a = true → s.stripeOpen a =
    true →
      ∃ t, exec (.stripeCloseTimeout [a]) s = .next t ∧
      t.cellar.flash = flashPut s.cellar.flash a
        { index := 0, typ := 6, poison := 0, seq := s.cellar.seq + 1, batch := s.rd R.KLN_BATCH, keyEpoch := s.rd R.CRY_KEY_EPOCH, data := [] } ∧
      t.dirty = s.dirty ∧
      SteadyRegsBut s t (zoneRegs ++ [R.CRY_ENC, R.CEL_IMAGE_FREE, R.CEL_OP])) ∧
  (∀ (s : State), s.Sound →
      ∃ t, exec .wearAllowanceRecompute s = .next t ∧
      t.rd R.WTH_ALLOW = min (2 ^ 40 - 1) (if 10000 ≤ s.rd R.CEL_LIFE_USED then 0 else s.rd R.CEL_ENDUR / max 30
        (clampTo 365 7305 (s.rd R.WTH_WEAR_CTRL_LIFE_DAYS) - s.opsec / 86400)) ∧
      t.rd R.WTH_LIFE_ELAPSED_DAYS = min 65535 (s.opsec / 86400) ∧
      SteadyRegsBut s t [R.WTH_ALLOW, R.WTH_LIFE_REMAIN_DAYS, R.WTH_LIFE_ELAPSED_DAYS])

/-! ## Cellar -/

/-- R188, R189, R198, R199: an erase that ends empties its group; a failed program is counted and latches; a die that times out
is retired; a channel is declared dead. -/
def Obligations.FlashOperationsEnd : Prop :=
  (∀ (s : State) (id : Nat) (g : Group), s.Sound → s.cellar.groups.find? (fun g => g.id == id) = some g → s.cellarOn =
    true → s.erasable g = true → g.zone = .image → s.badMembers g = [] → s.flag R.CEL_RESIZE_ACTIVE = false →
      ∃ t, exec (.nandEraseDone id []) s = .next t ∧
      t.cellar.flash = s.cellar.flash.filter (fun c => !g.members.contains (addrBlock c.1)) ∧
      t.cellar.opOrder = s.cellar.opOrder + 1 ∧
      SteadyRegsBut s t (zoneRegs ++ [R.CEL_IMAGE_FREE, R.CEL_OP])) ∧
  (∀ (s : State) (id : Nat) (g : Group) (failed : List (Nat × Nat × Nat)), s.Sound → s.cellar.groups.find? (fun g => g.id
    == id) = some g → s.cellarOn = true → s.erasable g = true → s.flag R.CEL_RESIZE_ACTIVE = false →
      ∃ t, exec (.nandEraseDone id failed) s = .next t ∧
      t.cellar.flash = s.cellar.flash.filter (fun c => !g.members.contains (addrBlock c.1)) ∧
      t.cellar.map = s.cellar.map ∧
      t.dirty = s.dirty) ∧
  (∀ (s : State) (id : Nat) (failed : List (Nat × Nat × Nat)), s.Sound → s.cellarOn = false → s.inKiln = true →
      ∃ t, exec (.nandEraseDone id failed) s = .next t ∧
      t.cellar = { s.cellar with lateErase := s.cellar.lateErase ++ [(id, failed)] } ∧
      SteadyRegsBut s t []) ∧
  (∀ (s : State) (chan die blk page : Nat) (gs : List Nat), s.Sound → chan < s.variant.nchs → s.rd (R.NCH_FAILS_PROGRAM
    chan) < 65535 →
      ∃ t, exec (.nandProgramFail chan die blk page gs) s = .next t ∧
      t.rd (R.NCH_FAILS_PROGRAM chan) = s.rd (R.NCH_FAILS_PROGRAM chan) + 1 ∧
      t.rd (R.NCH_LAST_ERR_DIE chan) = die % 16 ∧
      t.rd (R.NCH_LAST_ERR_BLOCK chan) = blk % 65536 ∧
      t.rd (R.NCH_LAST_ERR_PAGE chan) = page % 4096 ∧
      t.bit (R.FLT_STAT (0x50 + chan)) 2 = true ∧
      (∀ g ∈ gs, t.inflightOf g .prog = none) ∧
      t.dirty.bits = s.dirty.bits ∧
      t.cellar.map = s.cellar.map) ∧
  (∀ (s : State) (chan die blk page : Nat), s.Sound → chan < s.variant.nchs → s.rd (R.NCH_FAILS_PROGRAM chan) < 65535 →
      ∃ t, exec (.nandProgramFail chan die blk page []) s = .next t ∧
      t.rd (R.NCH_FAILS_PROGRAM chan) = s.rd (R.NCH_FAILS_PROGRAM chan) + 1 ∧
      t.rd (R.NCH_LAST_ERR_BLOCK chan) = blk % 65536 ∧
      t.bit (R.FLT_STAT (0x50 + chan)) 2 = true ∧
      SteadyRegsBut s t (zoneRegs ++ [R.NCH_FAILS_PROGRAM chan, R.NCH_BAD_GROWN chan, R.NCH_LAST_ERR_DIE chan,
        R.NCH_LAST_ERR_BLOCK chan, R.NCH_LAST_ERR_PAGE chan, R.CEL_BAD_GROWN, R.CEL_SPARE_FREE, R.CEL_SPARE_DIES_EMPTY,
        R.DRT_INFLIGHT_IN_USE, R.DRT_INFLIGHT_PEAK, R.NCH_SPARE_FREE chan, R.NCH_SPARE_MIN_DIE chan])) ∧
  (∀ (s : State) (chan die : Nat), s.Sound → chan < s.variant.nchs → die < 16 → s.cellar.deadDies.has (chan * 16 + die) =
    false →
      ∃ t, exec (.dieTimeout chan die) s = .next t ∧
      t.cellar.deadDies = s.cellar.deadDies.insert1 (chan * 16 + die) ∧
      t.bit (R.NCH_DIE_MAP_RETIRED chan) die = true ∧
      t.bit (R.FLT_STAT (0x50 + chan)) 1 = true ∧
      t.rd (R.NCH_STAT_DIES chan) = t.liveDies chan ∧
      SteadyRegsBut s t (zoneRegs ++ [R.NCH_DIE_MAP_RETIRED chan, R.NCH_STAT_DIES chan, R.CEL_DIES_RETIRED,
        R.CEL_DIES_USABLE])) ∧
  (∀ (s : State) (chan : Nat), s.Sound → chan < s.variant.nchs → s.cellar.deadChans.has chan = false →
      ∃ t, exec (.channelDead chan) s = .next t ∧
      t.cellar.deadChans = s.cellar.deadChans.insert1 chan ∧
      t.flag (R.NCH_STAT_DEAD chan) = true ∧
      t.bit (R.FLT_STAT (0x50 + chan)) 0 = true ∧
      t.rd (R.NCH_STAT_DIES chan) = 0 ∧
      SteadyRegsBut s t (zoneRegs ++ [R.NCH_STAT_DEAD chan, R.NCH_STAT_DIES chan, R.CEL_DIES_USABLE]))

/-- R185, Table 07-7: a read that succeeds on the ladder changes no map entry; one that cannot be read releases the copy of a
filled clean granule, which becomes dirty. -/
def Obligations.FlashReadsEnd : Prop :=
  (∀ (s : State) (a step errs : Nat) (what : ReadFor), s.Sound → s.cellarOn = true → s.reach a step ≤ 9 →
      ∃ t, exec (.codewordReadDone a step errs what) s = .next t ∧
      t.cellar.map = s.cellar.map ∧
      t.dirty = s.dirty ∧
      t.rd R.CRY_DEC = (s.rd R.CRY_DEC + 1) % 2 ^ 48 ∧
      SteadyRegsBut s t ([R.CRY_DEC, R.NCH_RETRY (addrBlock a).1, R.NCH_SOFT (addrBlock a).1, R.NCH_REBUILT (addrBlock
        a).1, R.NCH_BAD_GROWN (addrBlock a).1, R.CEL_BAD_GROWN, R.CEL_SPARE_FREE, R.CEL_SPARE_DIES_EMPTY, R.NCH_SPARE_FREE
        (addrBlock a).1, R.NCH_SPARE_MIN_DIE (addrBlock a).1] ++ zoneRegs)) ∧
  (∀ (s : State) (a g step errs : Nat), s.Sound → s.cellarOn = true → 9 < s.reach a step → s.hasCopy g = true → entAddr
    (s.entry g) = a → s.unfilled g = false → s.isDirty g = false →
      ∃ t, exec (.codewordReadDone a step errs (.granule g)) s = .next t ∧
      t.cellar.map = s.cellar.map.set g 0 ∧
      t.isDirty g = !(s.inVol g) ∧
      ((addrBlock a).1 < s.variant.nchs → t.bit (R.FLT_STAT (0x50 + (addrBlock a).1)) 5 = true)) ∧
  (∀ (s : State) (a r step errs : Nat), s.Sound → s.cellarOn = true → 9 < s.reach a step →
      ∃ t, exec (.codewordReadDone a step errs (.mapPage r)) s = .next t ∧
      t.cellar.dirLost.has r = true ∧
      (∀ i ∈ List.range 512, s.unfilled (512 * r + i) = true ∨ t.entry (512 * r + i) = 0)) ∧
  (∀ (s : State) (a step errs : Nat), s.Sound → s.cellarOn = true → 9 < s.reach a step →
      ∃ t, exec (.codewordReadDone a step errs .records) s = .next t ∧
      t.bit (R.FLT_STAT (srcPage 81 0)) (srcBit 81) = true ∧
      t.cellar.map = s.cellar.map ∧
      t.dirty = s.dirty) ∧
  (∀ (s : State) (a slot g step errs : Nat), s.Sound → s.cellarOn = true → 9 < s.reach a step →
      ∃ t, exec (.codewordReadDone a step errs (.guest slot g)) s = .next t ∧
      (∀ v ∈ t.racking.guests, v.slot ≠ slot ∨ v.lost.has (g / 512) = true) ∧
      t.bit (R.FLT_STAT (srcPage 116 0)) (srcBit 116) = true ∧
      t.cellar.map = s.cellar.map ∧
      t.dirty = s.dirty) ∧
  (∀ (s : State), s.Sound → s.flashPatrolLate = true →
      ∃ t, exec .flashPatrolOverdue s = .next t ∧
      t.bit (R.FLT_STAT 0x70) 4 = true ∧
      SteadyRegsBut s t []) ∧
  (∀ (s : State), s.Sound → s.flashPatrolLate = false →
      ∃ t, exec .flashPatrolOverdue s = .next t ∧
      t.cellar.flash = s.cellar.flash ∧
      t.cellar.map = s.cellar.map ∧
      SteadyRegsBut s t []) ∧
  (∀ (s : State) (pct : Nat), s.Sound → s.cellarOn = true → s.works 0x70 = true → pct < 100 →
      ∃ t, exec (.flashPatrolStep pct []) s = .next t ∧
      t.rd R.CEL_PATROL_PCT = pct ∧
      t.cellar = { s.cellar with patrolDue := [] } ∧
      SteadyRegsBut s t [R.CEL_PATROL_PCT]) ∧
  (∀ (s : State) (pct : Nat), s.Sound → s.cellarOn = true → s.works 0x70 = true → 100 ≤ pct → s.rd R.CEL_PATROL_PASSES <
    65535 →
      ∃ t, exec (.flashPatrolStep pct []) s = .next t ∧
      t.rd R.CEL_PATROL_PCT = 0 ∧
      t.rd R.CEL_PATROL_PASSES = s.rd R.CEL_PATROL_PASSES + 1 ∧
      t.cellar.patrolFrom = s.opsec ∧
      SteadyRegsBut s t [R.CEL_PATROL_PASSES, R.CEL_PATROL_LAST_DAYS, R.CEL_PATROL_PCT]) ∧
  (∀ (s : State) (pct : Nat) (found : List (Nat × Nat × Nat × ReadFor)), s.Sound → s.cellarOn = true → s.works 0x70 =
    true →
      ∃ t, exec (.flashPatrolStep pct found) s = .next t ∧
      (t.rd R.CEL_PATROL_PCT = if pct < 100 then pct else 0) ∧
      (pct < 100 ∨ (t.rd R.CEL_PATROL_PASSES = min 65535 (s.rd R.CEL_PATROL_PASSES + 1) ∧ t.cellar.patrolFrom =
        s.opsec)))

/-- R181, R184, R191, R194, R195, R196: a flushed map page is clean and its delta logged; a scrub that finds nothing changes no
entry; a move commits the copy's new place with state 1; the hourly recomputation shows the write amplification and the
remaining endurance. -/
def Obligations.TheMapIsFlushedScrubbedAndMoved : Prop :=
  (∀ (s : State) (r a : Nat), s.Sound → s.cellarOn = true → (s.cellar.mapDirty.has r = true ∨ s.cellar.dirKiln.has r =
    true) → s.placeFree a = true → s.inImageZone a = true →
      ∃ t, exec (.mapFlushDone r a) s = .next t ∧
      t.cellar.mapDirty = s.cellar.mapDirty.erase1 r ∧
      t.cellar.dirKiln = s.cellar.dirKiln.erase1 r ∧
      t.cellar.flushed = s.cellar.flushed.insert1 r ∧
      entAddr (t.cellar.dir.get r) = a % 2 ^ 39 ∧
      t.cellar.map = s.cellar.map ∧
      t.dirty.bits = s.dirty.bits ∧
      SteadyRegsBut s t (zoneRegs ++ [R.CEL_MAP_LOADED, R.CEL_MAP_DIRTY, R.CEL_FOLD, R.CEL_IMAGE_FREE, R.CEL_OP,
        R.CRY_ENC])) ∧
  (∀ (s : State), s.Sound → s.cellarOn = true → s.works 0x70 = true → s.corruptEntries = [] → s.rd R.CEL_MAP_SCRUB_PASSES
    < 65535 →
      ∃ t, exec (.mapScrub []) s = .next t ∧
      t.cellar.map = s.cellar.map ∧
      t.rd R.CEL_MAP_SCRUB_PASSES = s.rd R.CEL_MAP_SCRUB_PASSES + 1 ∧
      SteadyRegsBut s t [R.CEL_MAP_SCRUB_PASSES]) ∧
  (∀ (s : State) (bad : List Nat), s.Sound → s.cellarOn = true → s.works 0x70 = true → s.rd R.CEL_MAP_SCRUB_PASSES <
    65535 →
      ∃ t, exec (.mapScrub bad) s = .next t ∧
      t.rd R.CEL_MAP_SCRUB_PASSES = s.rd R.CEL_MAP_SCRUB_PASSES + 1 ∧
      (∀ g ∈ bad, s.hasCopy g = false ∨ s.cellar.loaded.has (g / 512) = false ∨ t.hasCopy g = false) ∧
      (∀ g ∈ s.corruptEntries, t.hasCopy g = false)) ∧
  (∀ (s : State) (g a step : Nat) (c : Codeword), s.Sound → s.mayMove a = true → entState (s.entry g) = 1 → s.moveDue
    (entAddr (s.entry g)) = true → s.copyOf g = some c → s.reach (entAddr (s.entry g)) step ≤ 9 →
      ∃ t, exec (.garbageCollectMove (.granule g) a step) s = .next t ∧
      t.cellar.map = s.cellar.map.set g (mkEntry 1 (c.poison != 0) a (s.cellar.seq + 1)) ∧
      t.cellar.seq = s.cellar.seq + 1) ∧
  (∀ (s : State) (r a step : Nat), s.Sound → s.mayMove a = true → s.cellar.dir.get r ≠ 0 → s.moveDue (entAddr
    (s.cellar.dir.get r)) = true → s.reach (entAddr (s.cellar.dir.get r)) step ≤ 9 →
      ∃ t, exec (.garbageCollectMove (.mapPage r) a step) s = .next t ∧
      t.cellar.dir = s.cellar.dir.set r (mkEntry 0 false a (s.cellar.seq + 1)) ∧
      t.cellar.seq = s.cellar.seq + 1 ∧
      t.cellar.map = s.cellar.map ∧
      t.dirty = s.dirty) ∧
  (∀ (s : State) (g a step : Nat) (c : Codeword), s.Sound → s.mayMove a = true → s.foldNext g = true → s.copyOf g = some
    c → s.reach (entAddr (s.entry g)) step ≤ 9 →
      ∃ t, exec (.foldMoveCommit g a step) s = .next t ∧
      t.cellar.map = s.cellar.map.set g (mkEntry 1 (c.poison != 0) a (s.cellar.seq + 1)) ∧
      t.cellar.seq = s.cellar.seq + 1) ∧
  (∀ (s : State), s.Sound → s.cellarOn = true →
      ∃ t, exec (.wearLevelCheck []) s = .next t ∧
      t.cellar.map = s.cellar.map ∧
      t.rd R.CEL_LIFE_USED = min 10000 ((s.goodBlocks.map s.blockLife).sum * 10000 / (s.lifeDen * max 1
        (s.goodBlocks.map s.blockLife).length)) ∧
      SteadyRegsBut s t [R.CEL_LIFE_USED, R.CEL_LIFE_MAX]) ∧
  (∀ (s : State) (addrs : List Nat), s.Sound →
      ∃ t, exec (.wearLevelCheck addrs) s = .next t ∧
      t.rd R.CEL_LIFE_USED = min 10000 ((s.goodBlocks.map s.blockLife).sum * 10000 / (s.lifeDen * max 1
        (s.goodBlocks.map s.blockLife).length)) ∧
      t.dram.mem = s.dram.mem) ∧
  (∀ (s : State), s.Sound →
      ∃ t, exec .enduranceRecompute s = .next t ∧
      t.rd R.CEL_WA = min 65535 s.writeAmp ∧
      t.rd R.CEL_ENDUR = min (2 ^ 48 - 1) s.rEnd ∧
      t.cellar.hours = ((s.cellar.used, s.cellar.done) :: s.cellar.hours).take 719 ∧
      t.cellar.used = 0 ∧
      t.cellar.done = 0 ∧
      SteadyRegsBut s t [R.CEL_WA, R.CEL_ENDUR, R.CEL_LIFE_MAX, R.CEL_LIFE_USED])

/-! ## Kiln -/

/-- R218, R219, R221, R220, R248, Tables 08-2 and 08-5: `MAIN_IN` falling while Disarmed powers the device down, a warning
primes the controller, a clear return makes it Ready, the readiness self-test leaves its state alone, and a write of `ARM`
arms it. -/
def Obligations.PowerWarningsMoveTheController : Prop :=
  (∀ (s : State), s.Calm → s.power.life = .running → s.rd R.KLN_STAT_STATE = 0 → s.seq.prog = none →
      ∃ t, exec .mainInFail s = .next t ∧
      t.power.life = .goingDown ∧
      t.power.mainGood = false ∧
      t.seq.due = s.seq.due.filter (fun k => k != 1) ++ [1]) ∧
  (∀ (s : State), s.Sound → s.power.life = .running → s.inKiln = false → s.kilnLive = false →
      ∃ t, exec .mainInFail s = .next t ∧
      t.power.life = .goingDown ∧
      t.power.mainGood = false ∧
      t.dram.mem = s.dram.mem) ∧
  (∀ (s : State), s.Calm → s.rd R.PWR_STAT_STATE = 0 → s.rd R.KLN_STAT_STATE = 1 → s.flag R.KLN_STAT_DEBOUNCE = false →
      ∃ t, exec .mainInWarn s = .next t ∧
      t.rd R.KLN_STAT_STATE = 2 ∧
      t.kiln.goodFrom = s.hc ∧
      SameRegsBut s t [R.KLN_STAT_STATE] ∧
      SameParts { s with kiln := t.kiln, power := { s.power with belowWarn := true } } t) ∧
  (∀ (s : State), s.Calm → s.rd R.KLN_STAT_STATE = 2 → s.power.belowWarn = false → s.flag R.PHS_STAT_EW = false →
    s.kiln.goodFrom + 4 ≤ s.hc →
      ∃ t, exec .primedClear s = .next t ∧
      t.rd R.KLN_STAT_STATE = 1 ∧
      SameRegsBut s t [R.KLN_STAT_STATE] ∧
      SameParts { s with kiln := t.kiln } t) ∧
  (∀ (s : State), s.Calm → s.inKiln = false → s.rd R.KLN_STAT_STATE ≠ 2 →
      ∃ t, exec .powerReturn s = .next t ∧
      t.power.mainGood = true ∧
      t.rd R.KLN_STAT_STATE = s.rd R.KLN_STAT_STATE ∧
      SameRegsBut s t [] ∧
      SameParts { s with power := t.power } t) ∧
  (∀ (s : State), s.Calm → s.rd R.KLN_STAT_STATE = 2 →
      ∃ t, exec .powerReturn s = .next t ∧
      t.power.mainGood = true ∧
      t.kiln.goodFrom = s.hc ∧
      SameRegsBut s t [] ∧
      SameParts { s with kiln := t.kiln, power := t.power } t) ∧
  (∀ (s : State) (a b c : Bool), s.Calm → s.readiness a b c = 0 → s.condAny 36 = false →
      ∃ t, exec (.kilnSelftest a b c) s = .next t ∧
      t.flag R.KLN_STAT_TEST_OK = true ∧
      t.rd R.KLN_SELFTEST_FAIL = 0 ∧
      t.rd R.KLN_STAT_STATE = s.rd R.KLN_STAT_STATE ∧
      SameRegsBut s t [R.KLN_STAT_TEST_OK, R.KLN_SELFTEST_PASSED, R.KLN_CTRL_SELFTEST, R.KLN_SELFTEST_FAIL] ∧
      SameParts s t) ∧
  (∀ (s : State) (a b c : Bool), s.Sound → s.readiness a b c ≠ 0 →
      ∃ t, exec (.kilnSelftest a b c) s = .next t ∧
      t.bit (R.FLT_STAT 0x42) 0 = true ∧
      SteadyRegsBut s t []) ∧
  (∀ (s : State) (who : Requester), s.Calm → s.Writable who 0x42 → s.rd R.KLN_STAT_STATE = 0 → s.condAny 44 = false →
    s.ownerRuns 0x42 = true → s.steepReady = true → s.flag R.PHS_STAT_EW = false → s.power.belowWarn = false →
    s.cal.deferred = false →
      ∃ t, exec (.kilnArmWrite who true) s = .next t ∧
      t.flag R.KLN_CTRL_ARM = true ∧
      t.rd R.KLN_STAT_STATE = 1 ∧
      SameRegsBut s t [R.KLN_CTRL_ARM, R.KLN_STAT_STATE] ∧
      SameParts { s with kiln := t.kiln } t) ∧
  (∀ (s : State) (who : Requester), s.Calm → s.Writable who 0x42 → s.ownerRuns 0x42 = true → s.maint.isOpen = false →
      ∃ t, exec (.kilnArmWrite who false) s = .next t ∧
      t.flag (R.CFG_REJECT 0x42) = true ∧
      SameRegsBut s t [R.CFG_REJECT 0x42] ∧
      SameParts s t)

/-- R222, R229, R455: a power failure and an escalated Early Warning start a kiln from Ready or Primed: K0 is entered with its
trigger and K1 follows it, its mark is taken, and `CDL0` is armed at the energy counted. -/
def Obligations.AKilnStarts : Prop :=
  (∀ (s : State), s.Calm → s.paged = true → s.kilnLive = true → s.rd R.PWR_STAT_STATE = 0 → s.flag R.CAL_STAT_RUNNING =
    false → s.flag R.KLN_TRIG_GROUP_TX = false → s.recs.used.get 0x0102 < s.tlogRate → 0 < s.rd R.BUD_I_KILN_CT_PER_S →
    s.rd R.BUD_I_KILN_CT_PER_S < 2 ^ 20 → 0 < s.rd R.BUD_E_COUNT_CT → s.rd R.BUD_E_COUNT_CT < 2 ^ 24 → s.rd R.PHS_CT_DRAWN
    < 2 ^ 47 → s.windowW ≤ 50 →
      ∃ t, exec .mainInFail s = .next t ∧
      t.rd R.KLN_STAT_STATE = 9 ∧
      t.rd R.KLN_STAT_TRIGGER = 1 ∧
      t.kiln.since = true ∧
      t.kiln.m0 = s.rd R.PHS_CT_DRAWN ∧
      t.rd (R.PHS_CDL_TARGET 0) = s.rd R.PHS_CT_DRAWN + s.rd R.BUD_E_COUNT_CT ∧
      t.flag (R.PHS_CDL_ARMED 0) = true) ∧
  (∀ (s : State), s.Calm → s.kilnLive = true → s.rd R.PWR_STAT_STATE = 0 → s.ewHc ≠ 0 → s.flag R.PHS_STAT_EW = true →
    s.track.ewSince + s.ewHc ≤ s.hc → s.flag R.CAL_STAT_RUNNING = false → s.flag R.KLN_TRIG_GROUP_TX = false →
    s.recs.used.get 0x0102 < s.tlogRate → 0 < s.rd R.BUD_I_KILN_CT_PER_S → s.rd R.BUD_I_KILN_CT_PER_S < 2 ^ 20 → 0 < s.rd
    R.BUD_E_COUNT_CT → s.rd R.BUD_E_COUNT_CT < 2 ^ 24 → s.rd R.PHS_CT_DRAWN < 2 ^ 47 → s.windowW ≤ 50 →
      ∃ t, exec .ewEscalation s = .next t ∧
      t.rd R.KLN_STAT_STATE = 9 ∧
      t.rd R.KLN_STAT_TRIGGER = 2 ∧
      t.kiln.since = true ∧
      t.kiln.m0 = s.rd R.PHS_CT_DRAWN) ∧
  (∀ (s : State), s.Sound → s.paged = true → s.kilnLive = true → s.rd R.PWR_STAT_STATE = 0 →
      ∃ t, exec .mainInFail s = .next t ∧
      t.kiln.since = true ∧
      t.inKiln = true ∧
      t.rd R.KLN_STAT_TRIGGER = 1 ∧
      t.kiln.m0 = s.rd R.PHS_CT_DRAWN ∧
      t.power.mainGood = false) ∧
  (∀ (s : State), s.Sound → s.kilnLive = true → s.rd R.PWR_STAT_STATE = 0 → s.ewHc ≠ 0 → s.flag R.PHS_STAT_EW = true →
    s.track.ewSince + s.ewHc ≤ s.hc →
      ∃ t, exec .ewEscalation s = .next t ∧
      t.kiln.since = true ∧
      t.inKiln = true ∧
      t.rd R.KLN_STAT_TRIGGER = 2 ∧
      t.kiln.m0 = s.rd R.PHS_CT_DRAWN)

/-- R227, R230, R248, R249, Table 08-2: K1 ends with the pack path confirmed, or after 50 µs with its fault; the debounce
cancels the kiln with its notice; an overrun of a phase latches; K7 without power ends in P4, and the collapse of the
hold-up bus ends the kiln. -/
def Obligations.TheKilnGoesThroughItsPhases : Prop :=
  (∀ (s : State), s.KilnCalm → s.rd R.KLN_STAT_STATE = 9 → s.kiln.k2Force = false → s.kiln.k2Wait ≠ [] → s.recs.used.get
    0x0102 < s.tlogRate →
      ∃ t, exec .packPathConfirmed s = .next t ∧
      t.rd R.KLN_STAT_STATE = 10 ∧
      t.packA.pathOn = (s.packA.pathOn || s.packA.standby) ∧
      t.packB.pathOn = (s.packB.pathOn || s.packB.standby)) ∧
  (∀ (s : State), s.Sound → s.rd R.KLN_STAT_STATE = 9 →
      ∃ t, exec .packPathConfirmed s = .next t ∧
      10 ≤ t.rd R.KLN_STAT_STATE ∧
      t.packA.pathOn = (s.packA.pathOn || s.packA.standby) ∧
      t.packB.pathOn = (s.packB.pathOn || s.packB.standby) ∧
      t.dram.mem = s.dram.mem) ∧
  (∀ (s : State), s.Sound → s.rd R.KLN_STAT_STATE = 9 → s.kiln.pathDue = true →
      ∃ t, exec .packPathTimeout s = .next t ∧
      10 ≤ t.rd R.KLN_STAT_STATE ∧
      t.bit (R.FLT_STAT 0x42) 1 = true ∧
      SteadyRegsBut s t []) ∧
  (∀ (s : State), s.Sound → s.inKiln = true → s.kilnPhase ≤ 2 → s.rd R.KLN_STAT_TRIGGER ≤ 2 → s.flag R.KLN_STAT_DEBOUNCE
    = true → s.kiln.goodFrom + 4 ≤ s.hc →
      ∃ t, exec .kilnCancel s = .next t ∧
      t.rd R.KLN_STAT_STATE = (if s.steepReady ∧ s.flag R.KLN_CTRL_ARM then (if s.flag R.PHS_STAT_EW ∨ s.power.belowWarn
        then 2 else 1) else 0) ∧
      t.rd R.KLN_STAT_TRIGGER = 0 ∧
      t.power.mainGood = true ∧
      t.packA.pathOn = false ∧
      t.packB.pathOn = false ∧
      t.bit (R.FLT_STAT 0x42) 11 = true ∧
      SteadyRegsBut s t [R.PK_AUTH_STATE 0, R.PK_AUTH_STATE 1]) ∧
  (∀ (s : State), s.Sound → s.inKiln = true → s.kiln.late = false →
      ∃ t, exec .phaseTimeOverrun s = .next t ∧
      t.bit (R.FLT_STAT 0x42) 3 = true ∧
      SteadyRegsBut s t []) ∧
  (∀ (s : State), s.KilnCalm → s.rd R.KLN_STAT_STATE = 15 → s.power.mainGood = false → s.seq.prog = none →
    s.variant.fabric = false → s.kiln.late = true → s.kiln.sealed = false →
      ∃ t, exec .kilnPowerDownDone s = .next t ∧
      t.rd R.KLN_STAT_STATE = 0 ∧
      t.rd R.PWR_STAT_STATE = 4 ∧
      t.power.life = .off) ∧
  (∀ (s : State), s.Sound → s.rd R.KLN_STAT_STATE = 15 → s.power.mainGood = false →
      ∃ t, exec .kilnPowerDownDone s = .next t ∧
      t.rd R.KLN_STAT_STATE = 0 ∧
      t.rd R.PWR_STAT_STATE = 4 ∧
      t.power.life = .off) ∧
  (∀ (s : State), s.Sound → s.rd R.KLN_STAT_STATE = 15 → s.power.mainGood = true → s.kiln.p3Consent = false →
      ∃ t, exec .kilnPowerDownDone s = .next t ∧
      t.rd R.KLN_STAT_STATE = 0 ∧
      t.power.life = .starting ∧
      t.dram.mem = []) ∧
  (∀ (s : State) (control : Bool), s.Sound → s.inKiln = true → (2 ≤ s.kiln.lowFrames ∨ control = true) →
      ∃ t, exec (.holdupCollapse control) s = .next t ∧
      t.rd R.KLN_STAT_STATE = 0 ∧
      (t.power.life = .off ∨ t.power.life = .goingDown) ∧
      t.power.mainGood = false) ∧
  (∀ (s : State), s.KilnCalm → s.inKiln = true → s.seq.prog = none → s.variant.fabric = false → s.rd R.SEQ_EN = 0 →
      ∃ t, exec (.holdupCollapse true) s = .next t ∧
      t.rd R.KLN_STAT_STATE = 0 ∧
      t.power.life = .off)

/-- R231, R234, R236, R240, R245: K3 ends with no copy in flight, K4 opens the drain, a programmed stripe makes its next granule
clean, a drain with nothing left goes on to K6, and the seal puts the cask into the slot of this kiln where a header reads
back. -/
def Obligations.TheDrainSavesAndSeals : Prop :=
  (∀ (s : State), s.Sound → s.rd R.KLN_STAT_STATE = 11 →
      ∃ t, exec .kilnSnapshotDone s = .next t ∧
      t.dirty.inflight = [] ∧
      t.rd R.DRT_INFLIGHT_IN_USE = 0 ∧
      t.dirty.bits = s.dirty.bits ∧
      SteadyRegsBut s t [R.CFL_STAT_BUSY0, R.CFL_STAT_BUSY1, R.DRT_INFLIGHT_IN_USE, R.DRT_INFLIGHT_PEAK]) ∧
  (∀ (s : State), s.Sound → s.rd R.KLN_STAT_STATE = 12 →
      ∃ t, exec .kilnShedDone s = .next t ∧
      t.rd R.KLN_STAT_STATE = 13 ∧
      t.kiln.m5 = s.rd R.PHS_CT_DRAWN ∧
      t.dirty = s.dirty ∧
      t.dram.mem = s.dram.mem) ∧
  (∀ (s : State), s.KilnCalm → s.rd R.KLN_STAT_STATE = 12 → s.kiln.late = true → s.flag (R.PHS_CDL_FIRED 0) = false →
    s.recs.used.get 0x0102 < s.tlogRate → s.seq.wait = .none → 0 < s.kiln.iK → s.kiln.iK < 2 ^ 20 → s.rd R.KLN_REMAIN =
    1000000 → s.kiln.v = 1000 → s.rd R.PHS_CT_DRAWN < 2 ^ 47 →
      ∃ t, exec .kilnShedDone s = .next t ∧
      t.rd R.KLN_STAT_STATE = 13 ∧
      t.kiln.m5 = s.rd R.PHS_CT_DRAWN ∧
      t.flag (R.PHS_CDL_ARMED 1) = false ∧
      t.flag (R.PHS_CDL_ARMED 2) = true) ∧
  (∀ (s : State) (slots : List DrainSlot) (ue : List (Nat × Ecc)) (unread bad : List Nat), s.Sound → s.rd
    R.KLN_STAT_STATE = 13 →
      ∃ t, exec (.kilnStripeProgrammed slots ue unread bad) s = .next t ∧
      (∀ k, t.isDirty k = false ∨ s.isDirty k = true) ∧
      (∀ k, s.isDirty k = false ∨ t.isDirty k = true ∨ t.kiln.log.any (fun e => e.granule == k) = true) ∧
      t.kiln.log.length ≤ s.kiln.log.length + slots.length ∧
      t.dram.mem = s.dram.mem ∧
      t.cellar.map = s.cellar.map) ∧
  (∀ (s : State) (d : DrainSlot) (g : Nat), s.Sound → s.rd R.KLN_STAT_STATE = 13 → s.nextDrain d.chan = some g →
    s.isDirty g = true → s.kiln.ordinals < s.kiln.capacity → s.kilnPlace d.addr = true →
      ∃ t, exec (.kilnStripeProgrammed [d] [] [] []) s = .next t ∧
      t.dirty.bits = s.dirty.bits.erase1 g ∧
      t.cellar.flash = flashPut s.cellar.flash d.addr
        { index := g, typ := 0, poison := (s.drainImage g [] false).2, seq := s.cellar.seq + 1, batch := s.rd R.KLN_BATCH, keyEpoch := s.rd R.CRY_KEY_EPOCH, data := (s.drainImage g [] false).1 } ∧
      SteadyRegsBut s t (zoneRegs ++ dirtyRegs ++ rankPowerRegs ++ [R.CRY_ENC])) ∧
  (∀ (s : State), s.KilnCalm → s.rd R.KLN_STAT_STATE = 13 → s.dirty.bits = [] → s.kiln.late = true → s.recs.used.get
    0x0102 < s.tlogRate → s.safe.reports = [] → 0 < s.kiln.iK → s.kiln.iK < 2 ^ 20 → s.rd R.PHS_CT_DRAWN < 2 ^ 47 →
      ∃ t, exec (.drainComplete 0) s = .next t ∧
      t.rd R.KLN_STAT_STATE = 14 ∧
      t.kiln.lost = [] ∧
      t.kiln.tlogSnap = t.recs.live ∧
      t.flag (R.PHS_CDL_ARMED 2) = false ∧
      SameRegsBut s t (tlogRegs ++ rankPowerRegs ++ [R.KLN_STAT_STATE, R.KLN_STAT_ROM, R.PHS_CDL_TARGET 3,
        R.PHS_CDL_ARMED 3, R.PHS_CDL_FIRED 3, R.KLN_PHASE_CT 5, R.KLN_PHASE_US 5]) ∧
      SameParts { s with recs := t.recs, kiln := t.kiln } t) ∧
  (∀ (s : State) (reason : Nat), s.Sound → s.rd R.KLN_STAT_STATE = 13 → s.drainOver reason = true →
      ∃ t, exec (.drainComplete reason) s = .next t ∧
      t.rd R.KLN_STAT_STATE = 14 ∧
      t.kiln.lost = s.dirty.bits ∧
      (s.dirty.bits = [] ∨ t.bit (R.FLT_STAT 0x42) 5 = true) ∧
      t.kiln.m6 = s.rd R.PHS_CT_DRAWN ∧
      t.dirty = s.dirty ∧
      t.dram.mem = s.dram.mem) ∧
  (∀ (s : State) (a b rewritten lost : Bool) (found : KeepFound), s.Sound → s.rd R.KLN_STAT_STATE = 14 → (a = true ∨ b =
    true) ∧ lost = false →
      ∃ t, exec (.sealComplete a b rewritten lost found) s = .next t ∧
      (if s.nextSlot = 0 then t.cellar.slot0 else t.cellar.slot1) = some (s.keepErrors found).buildCask ∧
      (if s.nextSlot = 0 then t.cellar.slot1 else t.cellar.slot0) = (if s.nextSlot = 0 then s.cellar.slot1 else
        s.cellar.slot0) ∧
      t.kiln.sealed = true ∧
      t.rd R.KLN_STAT_STATE = 15) ∧
  (∀ (s : State) (a b rewritten lost : Bool) (found : KeepFound), s.Sound → s.rd R.KLN_STAT_STATE = 14 → ((a = false ∧ b
    = false) ∨ lost = true) →
      ∃ t, exec (.sealComplete a b rewritten lost found) s = .next t ∧
      t.cellar.slot0 = s.cellar.slot0 ∧
      t.cellar.slot1 = s.cellar.slot1 ∧
      t.kiln.unsealed = true ∧
      t.rd R.KLN_STAT_STATE = 15) ∧
  (∀ (s : State) (b rewritten : Bool), s.Sound → s.rd R.KLN_STAT_STATE = 14 → s.nextSlot = 0 →
      ∃ t, exec (.sealComplete true b rewritten false {}) s = .next t ∧
      t.cellar.slot0 = some s.buildCask ∧
      t.cellar.slot1 = s.cellar.slot1 ∧
      t.cellar.flushed = [] ∧
      SteadyRegsBut s t rankPowerRegs) ∧
  (∀ (s : State) (b rewritten : Bool), s.Sound → s.rd R.KLN_STAT_STATE = 14 → s.nextSlot ≠ 0 →
      ∃ t, exec (.sealComplete b true rewritten false {}) s = .next t ∧
      t.cellar.slot1 = some s.buildCask ∧
      t.cellar.slot0 = s.cellar.slot0 ∧
      SteadyRegsBut s t rankPowerRegs) ∧
  (∀ (s : State) (rewritten lost : Bool), s.Sound → s.rd R.KLN_STAT_STATE = 14 →
      ∃ t, exec (.sealComplete false false rewritten lost {}) s = .next t ∧
      t.cellar.slot0 = s.cellar.slot0 ∧
      t.cellar.slot1 = s.cellar.slot1 ∧
      SteadyRegsBut s t rankPowerRegs)

/-! ## Persist queues -/

/-- R286, R289, R291, R292, R293, R295, R296, R310, R312: the owner's doorbells move the tail and the head, a tail outside the
ring faults the queue; enabling zeroes the pointers, disabling takes the queue from its port; arbitration fetches a
descriptor into the queue it chose; a completion goes to the CQ tail; causes that waited are raised; a record is discarded. -/
def Obligations.PersistQueuesTakeCommands : Prop :=
  (∀ (s : State) (port q tail : Nat), s.Calm → s.ReachesQueue port q → (s.queue q).en = true → tail < (s.queue q).sqDepth
    → tail < 65536 →
      ∃ t, exec (.sqDoorbell port q tail) s = .next t ∧
      t.queue q = { s.queue q with sqTail := tail } ∧
      SameRegsBut s t [] ∧
      SameParts { s with queues := t.queues } t) ∧
  (∀ (s : State) (port q tail : Nat), s.Sound → s.ReachesQueue port q → (s.queue q).en = true → (s.queue q).sqDepth ≤
    tail → tail < 65536 →
      ∃ t, exec (.sqDoorbell port q tail) s = .next t ∧
      t.bit (R.FLT_STAT 0x80) 3 = true ∧
      t.dram = s.dram ∧
      SteadyRegsBut s t []) ∧
  (∀ (s : State) (port q head : Nat), s.Calm → s.ReachesQueue port q → (s.queue q).en = true → head < (s.queue q).cqDepth
    → head < 65536 →
      ∃ t, exec (.cqDoorbell port q head) s = .next t ∧
      (t.queue q).cqHead = head ∧
      (t.queue q).sqTail = (s.queue q).sqTail ∧
      SameRegsBut s t [R.PQE_CMDS, R.PQE_ERRORS, R.PQE_FAULTED_COUNT, R.PQE_FAULTED_LAST_Q, R.RCK_TGT_STAT_INFLIGHT 0,
        R.RCK_TGT_STAT_INFLIGHT 1, R.RCK_TGT_STAT_STATE 0, R.RCK_TGT_STAT_STATE 1] ∧
      SameParts { s with queues := t.queues, racking := t.racking } t) ∧
  (∀ (s : State) (port q : Nat), s.Calm → s.ReachesQueue port q → (s.queue q).en = false → s.steepReady = true → s.flag
    (R.ENABLE 0x80) = true → (s.queue q).running = false → s.mayEnable port q = true →
      ∃ t, exec (.queueEnable port q) s = .next t ∧
      (t.queue q).en = true ∧
      (t.queue q).owner = port + 1 ∧
      (t.queue q).sqHead = 0 ∧
      (t.queue q).sqTail = 0 ∧
      (t.queue q).cqHead = 0 ∧
      (t.queue q).cmds = [] ∧
      SameRegsBut s t [R.PQE_QUEUES, R.PQE_CMDS, R.PQE_INTERRUPTED, R.PQE_ERRORS, R.PQE_FAULTED_COUNT,
        R.PQE_FAULTED_LAST_Q, R.RCK_TGT_STAT_INFLIGHT 0, R.RCK_TGT_STAT_INFLIGHT 1, R.RCK_TGT_STAT_STATE 0,
        R.RCK_TGT_STAT_STATE 1] ∧
      SameParts { s with queues := t.queues, racking := t.racking } t) ∧
  (∀ (s : State) (port q : Nat), s.Calm → s.ReachesQueue port q → (s.queue q).en = true →
      ∃ t, exec (.queueDisable port q) s = .next t ∧
      (t.queue q).en = false ∧
      (t.queue q).owner = 0 ∧
      SameRegsBut s t [R.PQE_INTERRUPTED, R.PQE_QUEUES, R.PQE_CMDS, R.PQE_CQ_STALLS, R.PQE_ERRORS,
        R.RCK_TGT_STAT_INFLIGHT 0, R.RCK_TGT_STAT_INFLIGHT 1, R.RCK_TGT_STAT_STATE 0, R.RCK_TGT_STAT_STATE 1] ∧
      SameParts { s with queues := t.queues, racking := t.racking } t) ∧
  (∀ (s : State) (port q : Nat), s.Calm → s.ReachesQueue port q →
      ∃ t, exec (.intRecordDiscard port q) s = .next t ∧
      t.queue q = { s.queue q with intRec := none, postDue := false } ∧
      SameRegsBut s t [R.PQE_INTERRUPTED, R.PQE_QUEUES] ∧
      SameParts { s with queues := t.queues } t) ∧
  (∀ (s : State) (cls q : Nat) (fresh : Bool) (ws : List Nat), s.Calm → s.portsAlive = true → s.flag (R.ENABLE 0x80) =
    true → s.arbitrate = some (cls, q, fresh) →
      ∃ t, exec (.descriptorFetch ws) s = .next t ∧
      t.queues.rrClass = cls ∧
      t.queues.rrLast = s.queues.rrLast.set cls (q + 1) ∧
      (t.queue q).sqHead = ((s.queue q).sqHead + 1) % (s.queue q).sqDepth ∧
      (t.queue q).cmds.any (fun k => k.elems.contains (Desc.ofWords ws)) = true ∧
      SameRegsBut s t [R.PQE_CACHE, R.PQE_MISSES, R.RCK_TGT_STAT_INFLIGHT 0, R.RCK_TGT_STAT_INFLIGHT 1,
        R.RCK_TGT_STAT_STATE 0, R.RCK_TGT_STAT_STATE 1, R.STP_CEIL_HITS] ∧
      SameParts { s with steep := t.steep, queues := t.queues, racking := t.racking } t) ∧
  (∀ (s : State) (q kind : Nat), s.Sound → (s.queue q).en = true →
      ∃ t, exec (.dmaFailure q kind) s = .next t ∧
      t.bit (R.FLT_STAT 0x80) (min 2 kind) = true ∧
      (t.queue q).fault = true ∧
      t.dram.mem = s.dram.mem ∧
      SteadyRegsBut s t []) ∧
  (∀ (s : State) (q cid us st : Nat) (k : RunCmd), s.Calm → (s.queue q).cmds.find? (fun k => k.cid == cid &&
    k.status.isSome) = some k → k.status = some st → k.opcode ≠ 1 → s.portsAlive = true → (s.queue q).fault = false →
    (s.queue q).cqRoom = true → (s.queue q).held = [] →
      ∃ t, exec (.commandComplete q cid us) s = .next t ∧
      t.out.head? = some (.dmaWrite (s.queue q).via ((s.queue q).cqBase + 16 * (s.queue q).cqTail) ((k.completion
        st).words (s.queue q).phase)) ∧
      (t.queue q).cmds.any (fun j => j.sqIdx == k.sqIdx) = false ∧
      SameRegsBut s t [R.PQE_CMDS, R.PQE_CONTENDED, R.PQE_CQ_STALLS, R.PQE_ERRORS, R.PQE_FENCE_LAT_MAX_MS,
        R.RCK_TGT_STAT_INFLIGHT 0, R.RCK_TGT_STAT_INFLIGHT 1, R.RCK_TGT_STAT_STATE 0, R.RCK_TGT_STAT_STATE 1] ∧
      SameParts { s with queues := t.queues, racking := t.racking } t) ∧
  (∀ (s : State) (q cid us st : Nat) (k : RunCmd), s.Sound → (s.queue q).cmds.find? (fun k => k.cid == cid &&
    k.status.isSome) = some k → k.status = some st → s.portsAlive = true → (s.queue q).fault = false →
      ∃ t, exec (.commandComplete q cid us) s = .next t ∧
      (t.queue q).cmds.any (fun j => j.sqIdx == k.sqIdx) = false ∧
      t.dram.mem = s.dram.mem ∧
      t.dirty = s.dirty) ∧
  (∀ (s : State) (port vec : Nat), s.Calm → port < 2 → vec < 2048 → s.rd R.PQE_COAL_US ≠ 0 → s.queues.pendVec.get (port *
    2048 + vec) ≠ 0 →
      ∃ t, exec (.coalesceTimeout port vec) s = .next t ∧
      (t.out = if (s.host port).msixOn then [.msix port vec] else []) ∧
      t.queues.pendVec = s.queues.pendVec.set (port * 2048 + vec) 0 ∧
      SameRegsBut s t [] ∧
      SameParts { s with queues := t.queues } t) ∧
  (∀ (s : State) (q : Nat), s.Sound → (s.queue q).cqFull = true →
      ∃ t, exec (.cqFullTimeout q) s = .next t ∧
      t.bit (R.FLT_STAT 0x80) 4 = true ∧
      SteadyRegsBut s t []) ∧
  (∀ (s : State) (q : Nat), s.Calm → (s.queue q).en = true → (s.queue q).fault = false → (s.queue q).sqHead = (s.queue
    q).sqTail →
      ∃ t, exec (.chainTimeout q) s = .next t ∧
      (t.queue q).cmds = (s.queue q).cmds.map (fun k => if k.more then k.close 0x15 else k) ∧
      SameRegsBut s t [] ∧
      SameParts { s with queues := t.queues } t)

/-- R297, R299, R302, R303, R304, R305, R307, R141: for the element in progress: NOP is done at once; FENCE_DURABLE takes the
granules to be covered and leaves DRAM and the dirty bits alone; COPY and ZERO write the destination granules and their
poison and leave each dirty or volatile, and a destination whose line-mask set is full is held; PIN changes the pin table;
HEAT_HINT writes the heat of its regions; DISCARD makes its granules clean, and with PARAM 1 releases their copies;
VOLATILE_SET with PARAM 1 adds a volatile range; QUERY sends its answer, or ends with a DMA error. -/
def Obligations.PersistCommandsDoTheirWork : Prop :=
  (∀ (s : State) (q cid : Nat) (k : RunCmd) (d : Desc), s.Calm → s.WorksOn q cid 0 k d →
      ∃ t, exec (.nop q cid) s = .next t ∧
      t.queue q = (s.setCmd q ({ k with progress := d.count } : RunCmd).nextElem).queue q ∧
      t.dram = s.dram ∧
      SameRegsBut s t [] ∧
      SameParts { s with queues := t.queues } t) ∧
  (∀ (s : State) (q cid n : Nat) (k : RunCmd) (d : Desc), s.Calm → s.WorksOn q cid 1 k d → k.covering = false →
      ∃ t, exec (.fenceDurable q cid n) s = .next t ∧
      t.queue q = (s.setCmd q (s.cover k d).fenceCheck).queue q ∧
      t.dram.mem = s.dram.mem ∧
      t.dirty.bits = s.dirty.bits ∧
      SameRegsBut s t [R.DRT_INFLIGHT_IN_USE, R.DRT_INFLIGHT_PEAK] ∧
      SameParts { s with dirty := t.dirty, steep := t.steep, queues := t.queues } t) ∧
  (∀ (s : State) (q cid n : Nat) (k : RunCmd) (d : Desc), s.Sound → s.WorksOn q cid 1 k d → k.covering = true →
      ∃ t, exec (.fenceDurable q cid n) s = .next t ∧
      t.dram.mem = s.dram.mem ∧
      t.dirty.bits = s.dirty.bits ∧
      ((t.queue q).cmds.any (fun j => j.sqIdx == k.sqIdx && j.covering)) = true) ∧
  (∀ (s : State) (q cid n : Nat) (k : RunCmd) (d : Desc) (full : List Nat) (found : List (Nat × Ecc)), s.Sound →
    s.WorksOn q cid 4 k d → ((List.range (min n (d.count - k.progress))).all (fun i => !s.unfilled (d.addr2 / 4096 +
    k.progress + i))) = true → full.all (fun g => !s.setHolds full g) = true →
      ∃ t, exec (.copy q cid n found full) s = .next t ∧
      (∀ i ∈ List.range (min n (d.count - k.progress)), t.isDirty (d.base + k.progress + i) = true ∨ s.inVol (d.base +
        k.progress + i) = true)) ∧
  (∀ (s : State) (q cid n : Nat) (k : RunCmd) (d : Desc) (full : List Nat), s.Sound → s.WorksOn q cid 4 k d →
    ((List.range (min n (d.count - k.progress))).all (fun i => !s.unfilled (d.addr2 / 4096 + k.progress + i))) = true →
    (d.addr2 / 4096 + d.count ≤ d.base ∨ d.base + d.count ≤ d.addr2 / 4096) → full.all (fun g => !s.setHolds full g) =
    true →
      ∃ t, exec (.copy q cid n [] full) s = .next t ∧
      (∀ i ∈ List.range (min n (d.count - k.progress)), t.granuleData (d.base + k.progress + i) = s.granuleData (d.addr2
        / 4096 + k.progress + i)) ∧
      (∀ i ∈ List.range (min n (d.count - k.progress)), t.poisonMask (d.base + k.progress + i) = s.poisonMask (d.addr2 /
        4096 + k.progress + i))) ∧
  (∀ (s : State) (q cid : Nat) (k : RunCmd) (d : Desc) (full : List Nat), s.Calm → s.WorksOn q cid 4 k d → k.progress <
    d.count → s.unfilled (d.addr2 / 4096 + k.progress) = false → s.inVol (d.base + k.progress) = false → full.all (fun g
    => !s.setHolds full g) = true →
      ∃ t, exec (.copy q cid 1 [] full) s = .next t ∧
      t.dram.mem = s.dram.mem.paste (4096 * (d.base + k.progress)) 4096 (s.granuleData (d.addr2 / 4096 + k.progress)) ∧
      t.isDirty (d.base + k.progress) = true ∧
      SameRegsBut s t (dirtyRegs ++ poisonRegs ++ fillRegs ++ [R.RCK_OWED 0, R.RCK_OWED 1]) ∧
      SameParts
        { s with dram := t.dram, dirty := t.dirty, steep := t.steep, queues := t.queues, racking := t.racking, hostA := t.hostA, hostB := t.hostB }
        t) ∧
  (∀ (s : State) (q cid n : Nat) (k : RunCmd) (d : Desc) (full : List Nat), s.Sound → s.WorksOn q cid 5 k d → full.all
    (fun g => !s.setHolds full g) = true →
      ∃ t, exec (.zero q cid n full) s = .next t ∧
      (∀ i ∈ List.range (min n (d.count - k.progress)), t.granuleData (d.base + k.progress + i) = [] ∧ t.poisonMask
        (d.base + k.progress + i) = 0) ∧
      (∀ i ∈ List.range (min n (d.count - k.progress)), t.isDirty (d.base + k.progress + i) = true ∨ s.inVol (d.base +
        k.progress + i) = true)) ∧
  (∀ (s : State) (q cid : Nat) (k : RunCmd) (d : Desc) (full : List Nat), s.Calm → s.WorksOn q cid 5 k d → k.progress <
    d.count → s.inVol (d.base + k.progress) = false → full.all (fun g => !s.setHolds full g) = true →
      ∃ t, exec (.zero q cid 1 full) s = .next t ∧
      t.dram.mem = s.dram.mem.paste (4096 * (d.base + k.progress)) 4096 [] ∧
      t.isDirty (d.base + k.progress) = true ∧
      SameRegsBut s t (dirtyRegs ++ poisonRegs ++ fillRegs ++ [R.RCK_OWED 0, R.RCK_OWED 1]) ∧
      SameParts
        { s with dram := t.dram, dirty := t.dirty, steep := t.steep, queues := t.queues, racking := t.racking, hostA := t.hostA, hostB := t.hostB }
        t) ∧
  (∀ (s : State) (q cid n : Nat) (k : RunCmd) (d : Desc) (full : List Nat), s.Sound → s.WorksOn q cid 5 k d → k.progress
    < d.count → 0 < n → s.setHolds full (d.base + k.progress) = true →
      ∃ t, exec (.zero q cid n full) s = .next t ∧
      t.dram.mem = s.dram.mem ∧
      t.dirty.bits = s.dirty.bits ∧
      (t.steep.fills.any (fun f => f.granule == d.base + k.progress)) = true) ∧
  (∀ (s : State) (q cid : Nat) (k : RunCmd) (d : Desc), s.Calm → s.WorksOn q cid 6 k d → (pinTable s.queues.pins
    d).length ≤ 1024 →
      ∃ t, exec (.pin q cid) s = .next t ∧
      t.queues.pins = pinTable s.queues.pins d ∧
      t.rd R.KLN_PINS = (pinTable s.queues.pins d).length ∧
      t.dram = s.dram ∧
      t.dirty = s.dirty ∧
      SameRegsBut s t [R.KLN_PINS] ∧
      SameParts { s with queues := t.queues } t) ∧
  (∀ (s : State) (q cid : Nat) (k : RunCmd) (d : Desc), s.Calm → s.WorksOn q cid 7 k d → k.progress < d.count →
      ∃ t, exec (.heatHint q cid 1) s = .next t ∧
      t.dirty.heat = s.dirty.heat.set (d.addr / (granuleBytes * granulesPerRegion) + k.progress) (2 * (d.param % 128) +
        s.dirty.heat.get (d.addr / (granuleBytes * granulesPerRegion) + k.progress) % 2) ∧
      t.dram = s.dram ∧
      t.dirty.bits = s.dirty.bits ∧
      SameRegsBut s t [R.STP_HINTS_DROPPED, R.STP_HINTS_QUEUED] ∧
      SameParts { s with dirty := t.dirty, steep := t.steep, queues := t.queues } t) ∧
  (∀ (s : State) (q cid n : Nat) (k : RunCmd) (d : Desc), s.Sound → s.WorksOn q cid 7 k d →
      ∃ t, exec (.heatHint q cid n) s = .next t ∧
      (∀ i ∈ List.range (min n (d.count - k.progress)), t.dirty.heat.get (d.addr / (granuleBytes * granulesPerRegion) +
        k.progress + i) = 2 * (d.param % 128) + s.dirty.heat.get (d.addr / (granuleBytes * granulesPerRegion) + k.progress
        + i) % 2) ∧
      t.dram.mem = s.dram.mem ∧
      t.dirty.bits = s.dirty.bits) ∧
  (∀ (s : State) (q cid n : Nat) (k : RunCmd) (d : Desc), s.Calm → s.WorksOn q cid 8 k d → d.param % 2 = 0 →
      ∃ t, exec (.discard q cid n) s = .next t ∧
      t.dirty.bits = s.dirty.bits.cut (d.base + k.progress) (d.base + k.progress + min n (d.count - k.progress)) ∧
      t.dram.mem = s.dram.mem ∧
      SameRegsBut s t (dirtyRegs ++ [R.CEL_LOST, R.CEL_MAP_DIRTY, R.CEL_MAP_LOADED, R.DRT_INFLIGHT_IN_USE,
        R.DRT_INFLIGHT_PEAK]) ∧
      SameParts { s with dirty := t.dirty, cellar := t.cellar, queues := t.queues } t) ∧
  (∀ (s : State) (q cid n : Nat) (k : RunCmd) (d : Desc), s.Sound → s.WorksOn q cid 8 k d →
      ∃ t, exec (.discard q cid n) s = .next t ∧
      t.dirty.bits = s.dirty.bits.cut (d.base + k.progress) (d.base + k.progress + min n (d.count - k.progress)) ∧
      (∀ i ∈ List.range (min n (d.count - k.progress)), d.param % 2 = 0 ∨ t.entry (d.base + k.progress + i) = 0) ∧
      t.dram.mem = s.dram.mem) ∧
  (∀ (s : State) (q cid : Nat) (k : RunCmd) (d : Desc), s.Calm → s.WorksOn q cid 9 k d → d.param % 2 = 1 →
    (s.dirty.vol.add (d.addr / (granuleBytes * granulesPerRegion) + d.offset) (d.addr / (granuleBytes * granulesPerRegion)
    + d.count)).length ≤ 256 →
      ∃ t, exec (.volatileSet q cid) s = .next t ∧
      t.dirty.vol = s.dirty.vol.add (d.addr / (granuleBytes * granulesPerRegion) + d.offset) (d.addr / (granuleBytes *
        granulesPerRegion) + d.count) ∧
      t.dram.mem = s.dram.mem ∧
      SameRegsBut s t (dirtyRegs ++ [R.CEL_LOST, R.CEL_MAP_DIRTY, R.CEL_MAP_LOADED, R.DRT_INFLIGHT_IN_USE,
        R.DRT_INFLIGHT_PEAK]) ∧
      SameParts { s with dirty := t.dirty, cellar := t.cellar, queues := t.queues } t) ∧
  (∀ (s : State) (q cid : Nat) (k : RunCmd) (d : Desc), s.Calm → s.WorksOn q cid 10 k d →
      ∃ t, exec (.query q cid true) s = .next t ∧
      t.out = [.dmaWrite (s.queue q).via d.addr2 (s.queryWords (d.base + d.offset) d.top)] ∧
      t.dram = s.dram ∧
      t.dirty = s.dirty ∧
      SameRegsBut s t [] ∧
      SameParts { s with queues := t.queues } t) ∧
  (∀ (s : State) (q cid : Nat) (k : RunCmd) (d : Desc), s.Sound → s.WorksOn q cid 10 k d →
      ∃ t, exec (.query q cid false) s = .next t ∧
      ((t.queue q).cmds.any (fun j => j.sqIdx == k.sqIdx && j.status == some 0x17)) = true ∧
      t.dram.mem = s.dram.mem ∧
      t.dirty = s.dirty)

/-- R143: when `VOLATILE_SET` makes a range persistent, what of it was volatile is volatile no more, every host granule of that
is dirty, and DRAM keeps its contents. -/
def Obligations.RangesThatCeaseToBeVolatileAreDirty : Prop :=
  ∀ (s : State) (q cid : Nat) (k : RunCmd) (d : Desc), s.Calm → s.WorksOn q cid 9 k d → d.param % 2 = 0 → (s.dirty.vol.cut
  (d.addr / (granuleBytes * granulesPerRegion) + d.offset) (d.addr / (granuleBytes * granulesPerRegion) + d.count)).length
  ≤ 256 →
    ∃ t, exec (.volatileSet q cid) s = .next t ∧
    t.dirty.vol = s.dirty.vol.cut (d.addr / (granuleBytes * granulesPerRegion) + d.offset) (d.addr / (granuleBytes *
      granulesPerRegion) + d.count) ∧
    (∀ g, s.inVol g = true → t.inVol g = false → g < s.rd R.CAP_HOST → t.dirty.bits.has g = true) ∧
    t.dram = s.dram ∧
    SameRegsBut s t dirtyRegs ∧
    SameParts { s with dirty := t.dirty, cellar := t.cellar, queues := t.queues } t

/-! ## Daluf fabric -/

/-- R317, R318, R319, R320, R321, Table 11-2: hellos are sent and received, missed ones take a port down, training brings it up
with its lanes, a frame in sequence is acknowledged, and the phantom feed is retried; what a port loses is latched. -/
def Obligations.DalufPortsFollowTheirLinks : Prop :=
  (∀ (s : State) (port : Nat), s.Calm → s.PortOn port →
      ∃ t, exec (.helloTx port) s = .next t ∧
      t.out = [.packet port 0 (s.hello port).sealed] ∧
      SameRegsBut s t [] ∧
      SameParts s t) ∧
  (∀ (s : State) (port eui fnn flags sq pt lanes power : Nat) (feed : Bool) (p : Packet), s.Calm → s.PortOn port → s.dlp
    port = 1 → p.payload = .hello eui fnn flags sq pt false lanes power feed → p.cls = 7 → p.hcrcOk = true →
    p.reservedZero = true → p.len ≤ 256 → eui < 2 ^ 64 → fnn < 2 ^ 13 → pt < 4 → power < 8 →
      ∃ t, exec (.helloRx port p) s = .next t ∧
      t.dlp port = 2 ∧
      t.rd (R.DLP_NBR port) = eui ∧
      t.rd (R.DLP_NBR_FNN port) = fnn ∧
      t.rd (R.DLP_NBR_PORT port) = pt ∧
      t.rd (R.DLP_NBR_PSTATE port) = power) ∧
  (∀ (s : State) (port eui fnn flags sq pt lanes power : Nat) (hr feed : Bool) (p : Packet), s.Sound → s.PortOn port →
    p.payload = .hello eui fnn flags sq pt hr lanes power feed → p.cls = 7 → p.hcrcOk = true → p.reservedZero = true →
    p.len ≤ 256 → eui < 2 ^ 64 → fnn < 2 ^ 13 → pt < 4 → power < 8 → (s.dlp port < 4 ∨ hr = true) →
      ∃ t, exec (.helloRx port p) s = .next t ∧
      2 ≤ t.dlp port ∧
      (t.dport port).nbrHr = hr ∧
      t.dram.mem = s.dram.mem ∧
      t.dirty = s.dirty) ∧
  (∀ (s : State) (port : Nat), s.Sound → s.PortOn port → 2 ≤ s.dlp port →
      ∃ t, exec (.hellosMissed port) s = .next t ∧
      t.dlp port = 1 ∧
      t.rd (R.DLP_HELLO port) = min 65535 (s.rd (R.DLP_HELLO port) + 3) ∧
      t.dirty = s.dirty) ∧
  (∀ (s : State) (port : Nat), s.Calm → s.PortOn port → s.dlp port = 2 →
      ∃ t, exec (.hellosMissed port) s = .next t ∧
      t.dlp port = 1 ∧
      t.rd (R.DLP_NBR_FNN port) = 0x1FFF) ∧
  (∀ (s : State) (port : Nat), s.Sound → s.PortOn port → s.dlp port = 4 → s.fabricOff = false →
      ∃ t, exec (.hellosMissed port) s = .next t ∧
      t.bit (R.FLT_STAT (0x91 + port)) 0 = true ∧
      SteadyRegsBut s t []) ∧
  (∀ (s : State) (port : Nat), s.Calm → s.PortOn port → s.dlp port = 3 →
      ∃ t, exec (.trainingDone port 0) s = .next t ∧
      t.dlp port = 4 ∧
      t.rd (R.DLP_STAT_LANES port) = 4 ∧
      t.rd (R.DLP_COST port) = 10 + s.rd (R.DLP_CTRL_COST_ADD port) ∧
      t.flag (R.DLP_STAT_SPARE_USED port) = false) ∧
  (∀ (s : State) (port bad : Nat), s.Sound → s.PortOn port → (s.dlp port = 3 ∨ (s.dlp port = 4 ∧ (s.dport
    port).retraining = true)) → ((List.range 4).filter (fun l => bad.testBit l)).length ≤ 2 →
      ∃ t, exec (.trainingDone port bad) s = .next t ∧
      t.dlp port = 4 ∧
      (t.dport port).badLanes = bad % 32 ∧
      (t.dport port).retraining = false ∧
      t.flag (R.DLP_STAT_SPARE_USED port) = (s.flag (R.DLP_CTRL_SPARE_EN port) && !bad.testBit 4 && decide (bad % 16 ≠
        0))) ∧
  (∀ (s : State) (port lane exp : Nat), s.Sound → s.PortOn port → s.dlp port = 4 → lane < 5 → (s.dport
    port).badLanes.testBit lane = false →
      ∃ t, exec (.laneFail port lane exp) s = .next t ∧
      ((t.dport port).badLanes.testBit lane = true ∨ t.dlp port < 4) ∧
      t.rd (R.DLP_LANE_ERR port lane) = min 15 exp ∧
      t.dirty = s.dirty) ∧
  (∀ (s : State) (port : Nat), s.Calm → s.PortOn port → s.dlp port = 3 →
      ∃ t, exec (.trainingTimeout port) s = .next t ∧
      t.dlp port = 2 ∧
      (t.dport port).retry = true ∧
      t.out = [] ∧
      SameRegsBut s t [R.DLP_STAT_STATE port, R.DLP_STAT_RETRAINS port] ∧
      SameParts { s with fabric := t.fabric } t) ∧
  (∀ (s : State) (port : Nat), s.Calm → s.PortOn port → s.dlp port = 2 → (s.dport port).retry = true → (s.dport
    port).nbrHr = true → s.hrAvail port = true →
      ∃ t, exec (.trainingRetry port) s = .next t ∧
      t.dlp port = 3 ∧
      (t.dport port).retry = false ∧
      SameRegsBut s t [R.DLP_STAT_STATE port] ∧
      SameParts { s with fabric := t.fabric } t) ∧
  (∀ (s : State) (port lane exp : Nat), s.Sound → s.PortOn port → s.dlp port = 4 → lane < 4 → s.flag (R.DLP_CTRL_SPARE_EN
    port) = true → s.flag (R.DLP_STAT_SPARE_USED port) = false → (s.dport port).badLanes = 0 →
      ∃ t, exec (.laneFail port lane exp) s = .next t ∧
      t.bit (R.FLT_STAT (0x91 + port)) 1 = true ∧
      SteadyRegsBut s t [R.ID_REPAIR lane, R.REC_SLOT_CODE_CODE, R.REC_SLOT_CODE_VALID, R.REC_SLOT_FIRST,
        R.REC_SLOT_FIRST_PC, R.REC_SLOT_PEND, R.REC_SLOT_SEQ, R.REC_SLOT_SUPP, R.REC_UNREC, R.REC_USED_EXT,
        R.REC_USED_HIST]) ∧
  (∀ (s : State) (port pl : Nat), s.Calm → s.PortOn port → pl < 2 → s.planeUp port pl = true → (s.dport port).retraining
    = false → (s.plane port pl).rxSeq < 4096 →
      ∃ t, exec (.linkFrameRx port pl 0 (s.plane port pl).rxSeq true) s = .next t ∧
      t.out = [.linkAck port pl (s.plane port pl).rxSeq] ∧
      (t.plane port pl).rxSeq = ((s.plane port pl).rxSeq + 1) % 4096 ∧
      SameRegsBut s t [] ∧
      SameParts { s with fabric := t.fabric } t) ∧
  (∀ (s : State) (port pl seq : Nat), s.Calm → s.PortOn port → pl < 2 → s.planeUp port pl = true → (s.dport
    port).retraining = false → seq < 4096 →
      ∃ t, exec (.linkFrameRx port pl 0 seq false) s = .next t ∧
      t.out = [.linkNak port pl (s.plane port pl).rxSeq] ∧
      (t.plane port pl) = s.plane port pl ∧
      SameRegsBut s t [R.DLP_CRC_ERR port] ∧
      SameParts s t) ∧
  (∀ (s : State) (port pl seq : Nat), s.Calm → s.PortOn port → pl < 2 → s.planeUp port pl = true → (s.dport
    port).retraining = false → (s.plane port pl).rxSeq < 4096 → seq < 4096 → seq ≠ (s.plane port pl).rxSeq →
      ∃ t, exec (.linkFrameRx port pl 0 seq true) s = .next t ∧
      t.out = [if ((s.plane port pl).rxSeq + 4096 - seq) % 4096 ≤ 2048 then .linkAck port pl (((s.plane port pl).rxSeq +
        4095) % 4096) else .linkNak port pl (s.plane port pl).rxSeq] ∧
      t.plane port pl = s.plane port pl ∧
      SameRegsBut s t [] ∧
      SameParts s t) ∧
  (∀ (s : State) (port pl seq : Nat), s.Calm → s.PortOn port → pl < 2 → s.planeUp port pl = true → (s.dport
    port).retraining = false → seq < 4096 → (s.plane port pl).waiting = [] →
      ∃ t, exec (.linkFrameRx port pl 1 seq true) s = .next t ∧
      (t.plane port pl).unacked = ackUpTo seq (s.plane port pl).unacked ∧
      (t.plane port pl).rxSeq = (s.plane port pl).rxSeq ∧
      SameRegsBut s t [] ∧
      SameParts { s with fabric := t.fabric } t) ∧
  (∀ (s : State) (port pl seq : Nat), s.Sound → s.PortOn port → pl < 2 → s.planeUp port pl = true → (s.dport
    port).retraining = false → seq < 4096 → ((s.plane port pl).unacked.any (fun f => f.1 == seq)) = true →
      ∃ t, exec (.linkFrameRx port pl 2 seq true) s = .next t ∧
      ((t.plane port pl).unacked.map (fun f => f.1)).head? = some seq ∧
      (t.plane port pl).rxSeq = (s.plane port pl).rxSeq) ∧
  (∀ (s : State) (port pl kind seq : Nat), s.Calm → s.PortOn port → 1 ≤ kind →
      ∃ t, exec (.linkFrameRx port pl kind seq false) s = .next t ∧
      t.out = [] ∧
      SameRegsBut s t [] ∧
      SameParts s t) ∧
  (∀ (s : State) (port : Nat), s.Sound → s.PortOn port → s.dlp port = 4 → (s.dport port).retraining = true →
      ∃ t, exec (.replayRetrainTimeout port) s = .next t ∧
      t.dlp port = 2 ∧
      t.dirty = s.dirty) ∧
  (∀ (s : State) (port : Nat), s.Sound → s.PortOn port → s.dlp port = 4 → (s.dport port).retraining = true → s.fabricOff
    = false →
      ∃ t, exec (.replayRetrainTimeout port) s = .next t ∧
      t.bit (R.FLT_STAT (0x91 + port)) 0 = true ∧
      SteadyRegsBut s t []) ∧
  (∀ (s : State) (port : Nat), s.Sound → s.PortOn port → s.flag (R.DLP_STAT_PH_OUT port) = true →
      ∃ t, exec (.phantomOvercurrent port) s = .next t ∧
      t.flag (R.DLP_STAT_PH_OUT port) = false ∧
      (t.dport port).feedOff = true ∧
      (t.dport port).overcurrents = (s.dport port).overcurrents + 1 ∧
      t.bit (R.FLT_STAT (0x91 + port)) 4 = true ∧
      SteadyRegsBut s t []) ∧
  (∀ (s : State) (port : Nat), s.Calm → s.PortOn port → (s.dport port).feedOff = true → (s.dport port).overcurrents < 3 →
    s.flag (R.DLP_CTRL_PH_TX port) = true → s.rd R.SNT_CTX_SUPPLY = 0 →
      ∃ t, exec (.phantomFeedRetry port) s = .next t ∧
      t.flag (R.DLP_STAT_PH_OUT port) = true ∧
      (t.dport port).feedOff = false ∧
      SameRegsBut s t [R.DLP_STAT_PH_OUT port] ∧
      SameParts { s with fabric := t.fabric } t)

/-- R322, R326, R329, R332, R333, R338: an LSA of a new device enters the database and leaves it 120 s later, the device floods
its own, a claim without conflict owns its number, the route table is installed whole, a packet without hops is dropped, and
a summary takes what it carries with it. -/
def Obligations.TheFabricKeepsItsDatabaseAndRoutes : Prop :=
  (∀ (s : State) (port : Nat) (a : Lsa) (p : Packet), s.Calm → s.PortOn port → s.fabricOff = false → s.planeUp port 0 =
    true → p.payload = .lsa a → p.cls = 6 → p.hcrcOk = true → p.reservedZero = true → p.len ≤ 256 → p.flood = true →
    s.seenFlood p.src 1 p.seq = false → a.eui ≠ s.rd R.ID_EUI → s.fabric.db.any (fun e => e.1.eui == a.eui) = false →
    a.fnn ≠ s.rd R.DFS_FNN_STAT_FNN →
      ∃ t, exec (.packetRx port 0 p) s = .next t ∧
      t.fabric.db = s.fabric.db ++ [(a, s.rd R.SNT_RTC)] ∧
      t.fabric.routeDue = true) ∧
  (∀ (s : State) (port : Nat) (p : Packet), s.Calm → s.PortOn port → s.planeUp port 0 = true → p.payload = .rLost [] →
    p.cls = 5 → p.hcrcOk = true → p.reservedZero = true → p.len ≤ 256 → p.flood = false → p.dst ≠ 0x1FFF → p.dst ≠
    s.srcFnn → p.hops ≤ 1 →
      ∃ t, exec (.packetRx port 0 p) s = .next t ∧
      t.rd (R.DLP_DROP2_HOPS port) = min 65535 (s.rd (R.DLP_DROP2_HOPS port) + 1) ∧
      t.out = [] ∧
      t.racking = s.racking ∧
      SameRegsBut s t [R.DLP_DROP2_HOPS port] ∧
      SameParts s t) ∧
  (∀ (s : State) (port pl : Nat) (p : Packet), s.Calm → s.PortOn port → s.planeUp port (pl % 2) = true → (p.hcrcOk =
    false ∨ p.reservedZero = false ∨ 256 < p.len) →
      ∃ t, exec (.packetRx port pl p) s = .next t ∧
      t.rd (R.DLP_CRC_ERR port) = min 65535 (s.rd (R.DLP_CRC_ERR port) + 1) ∧
      t.out = [] ∧
      SameRegsBut s t [R.DLP_CRC_ERR port] ∧
      SameParts s t) ∧
  (∀ (s : State) (port pl : Nat) (p : Packet), s.Calm → s.PortOn port → s.planeUp port (pl % 2) = true → p.hcrcOk = true
    → p.reservedZero = true → p.len ≤ 256 → p.classOk = true → p.local = false → p.flood = false → p.payload.typ ≠ 0 →
    p.dst ≠ 0x1FFF → p.dst ≠ s.srcFnn → 1 < p.hops → (s.fabricOff = true ∨ (s.routeTo p.dst).isNone = true) →
      ∃ t, exec (.packetRx port pl p) s = .next t ∧
      t.rd (R.DLP_DROP2_NO_ROUTE port) = min 65535 (s.rd (R.DLP_DROP2_NO_ROUTE port) + 1) ∧
      t.out = [] ∧
      SameRegsBut s t [R.DLP_DROP2_NO_ROUTE port] ∧
      SameParts s t) ∧
  (∀ (s : State), s.Calm → s.variant.fabric = true → s.srcFnn ≠ 0x1FFF → s.lsaSoon = false →
      ∃ t, exec .lsaPeriodic s = .next t ∧
      t.rd R.DFS_OWN_SEQ = (s.rd R.DFS_OWN_SEQ + 1) % 2 ^ 32 ∧
      t.fabric.db = s.fabric.db ∧
      SameRegsBut s t [R.DFS_OWN_SEQ] ∧
      SameParts { s with fabric := t.fabric } t) ∧
  (∀ (s : State), s.Calm → s.lsaSoon = true →
      ∃ t, exec .lsaPeriodic s = .next t ∧
      t.fabric = { s.fabric with lsaDue := true, stateDue := t.fabric.stateDue, changes := t.fabric.changes } ∧
      t.out = [] ∧
      SameRegsBut s t []) ∧
  (∀ (s : State) (eui : Nat), s.Calm → s.variant.fabric = true → s.fabric.db.any (fun e => e.1.eui == eui && decide (e.2
    + 120 ≤ s.rd R.SNT_RTC)) = true → s.rd R.DFS_FNN_STAT_CLAIM ≠ 3 →
      ∃ t, exec (.lsaAgeOut eui) s = .next t ∧
      t.fabric.db = s.fabric.db.filter (fun e => e.1.eui != eui) ∧
      t.fabric.routeDue = true ∧
      t.rd R.DFS_NODES_KNOWN = (s.fabric.db.filter (fun e => e.1.eui != eui)).length % 4096 ∧
      SameRegsBut s t [R.DFS_NODES_KNOWN, R.DFS_FNN_STAT_CLAIM, R.DFS_FNN_STAT_FNN, R.DFS_OWN_SEQ] ∧
      SameParts { s with fabric := t.fabric } t) ∧
  (∀ (s : State), s.Calm → s.FabricRuns → s.rd R.DFS_FNN_STAT_CLAIM = 1 →
      ∃ t, exec .claimWindowEnd s = .next t ∧
      t.rd R.DFS_FNN_STAT_CLAIM = 2 ∧
      t.fabric.remembered = some (s.rd R.DFS_FNN_STAT_FNN) ∧
      SameRegsBut s t [R.DFS_FNN_STAT_CLAIM, R.DFS_OWN_SEQ, R.DFS_FNN_STAT_FNN] ∧
      SameParts { s with fabric := t.fabric } t) ∧
  (∀ (s : State), s.Sound → s.FabricRuns → s.rd R.DFS_FNN_STAT_CLAIM = 0 →
      ∃ t, exec .claimWindowEnd s = .next t ∧
      t.rd R.DFS_FNN_STAT_CLAIM = 1 ∧
      t.rd R.DFS_FNN_STAT_FNN = s.firstFnn % 8192) ∧
  (∀ (s : State) (ms : Nat), s.Sound → s.FabricRuns → s.fabric.routeDue = true →
      ∃ t, exec (.routeInstall ms) s = .next t ∧
      t.fabric.routes = (if s.srcFnn = 0x1FFF then [] else routeTable s.srcFnn (s.ownLsa 0 :: s.fabric.db.map (fun e =>
        e.1))) ∧
      t.fabric.routeDue = false ∧
      t.rd R.DFS_ROUTE_CONV_MS = min 65535 ms ∧
      t.fabric.db = s.fabric.db) ∧
  (∀ (s : State) (ms : Nat), s.Calm → s.FabricRuns → s.fabric.routeDue = true → s.fabric.routes = [] → s.rd R.RCK_TGT0 =
    0 → s.rd R.RCK_TGT1 = 0 → s.srcFnn ≠ 0x1FFF →
      ∃ t, exec (.routeInstall ms) s = .next t ∧
      t.fabric.routes = routeTable s.srcFnn (s.ownLsa 0 :: s.fabric.db.map (fun e => e.1)) ∧
      t.fabric.routeDue = false ∧
      t.rd R.DFS_ROUTE_CONV_MS = min 65535 ms) ∧
  (∀ (s : State), s.Sound → s.variant.fabric = true → s.fabric.routeDue = true → s.fabricOff = false →
      ∃ t, exec .convergenceTimeout s = .next t ∧
      t.bit (R.FLT_STAT 0x90) 4 = true ∧
      t.fabric.routes = s.fabric.routes ∧
      SteadyRegsBut s t []) ∧
  (∀ (s : State) (kind : Nat), s.Calm → s.FabricRuns → s.summaryDue kind = true → (List.range 4).all (fun n => s.rd
    (R.DFS_COLL n) == 0 || s.reachable (s.rd (R.DFS_COLL n))) = true →
      ∃ t, exec (.alarmSummaryTx kind) s = .next t ∧
      t.fabric.alarmSeq = s.fabric.alarmSeq + 1 ∧
      t.fabric.faultDue = s.fabric.faultDue.drop 28 ∧
      t.fabric.faultNow = false ∧
      t.fabric.suppressed = 0) ∧
  (∀ (s : State) (kind : Nat), s.Sound → s.FabricRuns → s.summaryDue kind = true →
      ∃ t, exec (.alarmSummaryTx kind) s = .next t ∧
      t.fabric.alarmSeq = s.fabric.alarmSeq + 1 ∧
      t.dram.mem = s.dram.mem ∧
      t.dirty = s.dirty)

/-! ## Racking -/

/-- R306, R355, R357, R358, R359, R363, R365, R367: rack commands take the owed regions of their range, a send enters the
in-flight table under a new handle, a late acknowledgement and a released volume latch, a refused target is opened again,
and a guest region received whole replaces its copy. -/
def Obligations.RegionsAreRackedAndHeld : Prop :=
  (∀ (s : State) (q cid : Nat) (k : RunCmd) (d : Desc), s.Sound → s.WorksOn q cid 2 k d →
      ∃ t, exec (.rack q cid) s = .next t ∧
      t.queue q = (s.setCmd q (s.rackCheck (if k.covering then k else s.rackCover k d))).queue q ∧
      t.dram.mem = s.dram.mem ∧
      t.dirty.bits = s.dirty.bits) ∧
  (∀ (s : State) (q cid : Nat) (k : RunCmd) (d : Desc), s.Calm → s.WorksOn q cid 2 k d → k.covering = false →
    s.steep.unfilled = [] →
      ∃ t, exec (.rack q cid) s = .next t ∧
      t.queue q = (s.setCmd q (s.rackCheck (s.rackCover k d))).queue q ∧
      t.racking = s.racking ∧
      t.dram = s.dram ∧
      SameRegsBut s t [] ∧
      SameParts { s with steep := t.steep, queues := t.queues } t) ∧
  (∀ (s : State) (q cid : Nat) (k : RunCmd) (d : Desc), s.Sound → s.WorksOn q cid 3 k d →
      ∃ t, exec (.rackFence q cid) s = .next t ∧
      t.queue q = (s.setCmd q (s.rackCheck (if k.covering then k else s.rackCover k d))).queue q ∧
      t.dram.mem = s.dram.mem ∧
      t.dirty.bits = s.dirty.bits) ∧
  (∀ (s : State) (q cid : Nat) (k : RunCmd) (d : Desc), s.Calm → s.WorksOn q cid 3 k d → k.covering = false →
    s.steep.unfilled = [] →
      ∃ t, exec (.rackFence q cid) s = .next t ∧
      t.queue q = (s.setCmd q (s.rackCheck (s.rackCover k d))).queue q ∧
      t.racking = s.racking ∧
      t.dram = s.dram ∧
      SameRegsBut s t [] ∧
      SameParts { s with steep := t.steep, queues := t.queues } t) ∧
  (∀ (s : State) (tgt r : Nat) (found : List (Nat × Ecc)), s.Sound → tgt < 2 → s.rackSends tgt = true → s.rackEligible
    tgt r = true → s.rackTurn tgt r = true → ((s.sendOf tgt r).isSome = true ∨ s.rd (R.RCK_TGT_STAT_INFLIGHT tgt) < 64) →
      ∃ t, exec (.rackSendStart tgt r found) s = .next t ∧
      (t.sendOf tgt r).any (fun e => e.handle == s.racking.nextHandle % 65536 && !e.resend) = true ∧
      t.racking.debt0 = s.racking.debt0 ∧
      t.racking.debt1 = s.racking.debt1 ∧
      t.dram.mem = s.dram.mem) ∧
  (∀ (s : State) (tgt r : Nat), s.Calm → tgt < 2 → s.rackSends tgt = true → s.rackEligible tgt r = true → s.rackTurn tgt
    r = true → s.sendOf tgt r = none → s.rd (R.RCK_TGT_STAT_INFLIGHT tgt) < 64 →
      ∃ t, exec (.rackSendStart tgt r []) s = .next t ∧
      t.racking.sends = s.racking.sends ++
        [{ target := tgt, region := r, handle := s.racking.nextHandle % 65536, late := false }] ∧
      t.racking.debt0 = s.racking.debt0 ∧
      t.racking.debt1 = s.racking.debt1 ∧
      t.dram.mem = s.dram.mem) ∧
  (∀ (s : State) (tgt r : Nat) (e : Send), s.Sound → tgt < 2 → s.sendOf tgt r = some e → e.resend = false → e.late =
    false →
      ∃ t, exec (.ackTimeout tgt r) s = .next t ∧
      t.bit (R.FLT_STAT 0x95) 3 = true ∧
      SteadyRegsBut s t []) ∧
  (∀ (s : State) (tgt r : Nat) (e : Send), s.Sound → tgt < 2 → s.sendOf tgt r = some e → e.resend = false → e.late =
    false →
      ∃ t, exec (.ackTimeout tgt r) s = .next t ∧
      t.sendOf tgt r = some { e with resend := true, late := true, wr := false } ∧
      t.rd (R.RCK_RESENT tgt) = min (2 ^ 32 - 1) (s.rd (R.RCK_RESENT tgt) + 1)) ∧
  (∀ (s : State) (tgt r : Nat) (e : Send), s.Sound → tgt < 2 → s.sendOf tgt r = some e → e.resend = false → e.late = true
    →
      ∃ t, exec (.ackTimeout tgt r) s = .next t ∧
      t.tgtState tgt = 3 ∧
      t.sendOf tgt r = none ∧
      t.bit (R.FLT_STAT 0x95) 0 = true) ∧
  (∀ (s : State) (tgt : Nat), s.Sound → tgt < 2 → s.variant.fabric = true → s.steepReady = true → s.portsAlive = true →
    s.runs .fabric = true → (s.tgtState tgt = 1 ∨ s.tgtState tgt = 4) →
      ∃ t, exec (.rackOpenRetry tgt) s = .next t ∧
      t.tgtState tgt = 1 ∧
      t.dirty = s.dirty ∧
      t.dram.mem = s.dram.mem) ∧
  (∀ (s : State) (tgt : Nat), s.Calm → tgt < 2 → s.variant.fabric = true → s.steepReady = true → s.portsAlive = true →
    s.runs .fabric = true → s.tgtState tgt = 4 → s.genDue tgt = false →
      ∃ t, exec (.rackOpenRetry tgt) s = .next t ∧
      t.tgtState tgt = 1 ∧
      t.racking = s.racking ∧
      SameRegsBut s t [R.RCK_TGT_STAT_STATE tgt, R.RCK_GEN 0, R.RCK_GEN 1, R.RCK_OWED 0, R.RCK_OWED 1] ∧
      SameParts { s with queues := t.queues, racking := t.racking } t) ∧
  (∀ (s : State) (slot r : Nat) (v : Guest) (e : Recv), s.Calm → s.guestOpen = true → s.guestAt slot = some v →
    s.racking.recvs.find? (fun x => x.slot == slot && x.region == r && x.ended) = some e → e.drop = false →
      ∃ t, exec (.guestRegionCommit slot r) s = .next t ∧
      t.guestAt slot = some
        { v with held := v.held.insert1 r, lost := v.lost.erase1 r, lostDue := v.lostDue.erase1 r, fresh := true, lastCommit := s.opsec } ∧
      t.racking.copies = s.racking.copies.filter (fun c => c.1 != slot || c.2.1 / granulesPerRegion != r) ++
        s.guestCopies e ∧
      SameRegsBut s t [R.RCK_GUEST_OWN slot, R.RCK_GUEST_STAT_STATE slot, R.RCK_GUEST_GEN slot, R.RCK_GUEST_SIZE slot,
        R.RCK_GUEST_HELD slot, R.RCK_GUEST_VOLS, R.RCK_GUEST_LOST slot, R.RCK_GUEST_STAT_OWNER_REACH slot,
        R.RCK_GUEST_STAT_UNREACH_H slot] ∧
      SameParts { s with cellar := t.cellar, racking := t.racking } t) ∧
  (∀ (s : State) (who : Requester) (v : Guest), s.Sound → s.Writable who 0x95 → s.guestAt (s.rd R.RCK_GUEST_SEL) = some v
    → s.flag (R.RCK_GUEST_STAT_OWNER_REACH v.slot) = false → max 1 (s.rd R.RCK_GUEST_CTRL_GUEST_ORPHAN_H) ≤ s.rd
    (R.RCK_GUEST_STAT_UNREACH_H v.slot) →
      ∃ t, exec (.guestRelease who) s = .next t ∧
      t.guestAt v.slot = none ∧
      t.bit (R.FLT_STAT 0x95) 6 = true ∧
      SteadyRegsBut s t []) ∧
  (∀ (s : State) (who : Requester) (v : Guest), s.Sound → s.Writable who 0x95 → s.guestAt (s.rd R.RCK_GUEST_SEL) = some v
    → s.maint.isOpen = true →
      ∃ t, exec (.guestRelease who) s = .next t ∧
      t.guestAt v.slot = none ∧
      t.bit (R.FLT_STAT 0x95) 6 = true)

/-! ## Phase and charge clocks -/

/-- R33, R34, R36, R40: the first crossing only sets the reference point; with the mains as source an accepted crossing inside
0.75 P to 1.25 P ends the half-cycle (hc one on, pu 0), and one outside is counted and otherwise ignored. -/
def Obligations.CrossingsDriveTheHalfCycle : Prop :=
  (∀ (s : State) (ticks : Nat) (ok : Bool), s.Sound → s.track.refHeld = false →
      ∃ t, exec (.acceptedCrossing ticks ok) s = .next t ∧
      t.track.refHeld = true ∧
      t.rd R.PHS_STAT_AC_OK = b2n ok ∧
      t.hc = s.hc ∧
      t.pu = s.pu ∧
      SteadyRegsBut s t ([R.PHS_STAT_AC_OK, R.PHS_FREQ, R.PHS_HC, R.PHS_MISS_CNT_REJECTED, R.PHS_PERIOD,
        R.PHS_PHASE_ERR, R.PHS_PU, R.PHS_STAT_EW, R.PHS_STAT_LOCKED, R.PHS_STAT_SRC, R.PHS_STAT_SRC_REASON,
        R.PK_STAT_CHARGING 0, R.PK_STAT_CHARGING 1] ++ patrolRegs)) ∧
  (∀ (s : State) (ticks : Nat) (ok : Bool), s.Sound → s.track.refHeld = true → s.track.intervals ≠ [] → s.track.spansMiss
    = false → s.flag R.PHS_CTRL_EDGE = false → s.flag R.PHS_STAT_SRC = false → s.flag R.PHS_STAT_LOCKED = true →
    s.pseudoForced = false → s.flag R.PHS_STAT_EW = false → 3 * s.rd R.PHS_PERIOD ≤ 4 * ticks → 4 * ticks ≤ 5 * s.rd
    R.PHS_PERIOD →
      ∃ t, exec (.acceptedCrossing ticks ok) s = .next t ∧
      t.hc = (s.hc + 1) % 2 ^ 48 ∧
      t.pu = 0 ∧
      t.track.missRun = 0 ∧
      t.flag R.PHS_STAT_SRC = false ∧
      SteadyRegsBut s t ([R.PHS_STAT_SRC_REASON, R.PHS_STAT_AC_OK, R.PHS_HC, R.PHS_PERIOD, R.PHS_FREQ, R.PHS_PHASE_ERR,
        R.PHS_PU, R.PHS_MISS_CNT_REJECTED, R.PHS_STAT_EW, R.PHS_STAT_LOCKED, R.PHS_STAT_SRC, R.PK_STAT_CHARGING 0,
        R.PK_STAT_CHARGING 1] ++ patrolRegs)) ∧
  (∀ (s : State) (ticks : Nat) (ok : Bool), s.Sound → s.track.refHeld = true → s.track.intervals ≠ [] → (4 * ticks < 3 *
    s.rd R.PHS_PERIOD ∨ 5 * s.rd R.PHS_PERIOD < 4 * ticks) →
      ∃ t, exec (.acceptedCrossing ticks ok) s = .next t ∧
      t.rd R.PHS_MISS_CNT_REJECTED = min 65535 (s.rd R.PHS_MISS_CNT_REJECTED + 1) ∧
      t.track = s.track ∧
      t.hc = s.hc ∧
      t.pu = s.pu ∧
      SteadyRegsBut s t ([R.PHS_STAT_AC_OK, R.PHS_MISS_CNT_REJECTED, R.PHS_FREQ, R.PHS_HC, R.PHS_PERIOD,
        R.PHS_PHASE_ERR, R.PHS_PU, R.PHS_STAT_EW, R.PHS_STAT_LOCKED, R.PHS_STAT_SRC, R.PHS_STAT_SRC_REASON,
        R.PK_STAT_CHARGING 0, R.PK_STAT_CHARGING 1] ++ patrolRegs)) ∧
  (∀ (s : State), s.Sound →
      ∃ t, exec .rejectedCrossing s = .next t ∧
      t.rd R.PHS_MISS_CNT_REJECTED = min 65535 (s.rd R.PHS_MISS_CNT_REJECTED + 1) ∧
      t.track = s.track ∧
      t.hc = s.hc ∧
      t.pu = s.pu ∧
      SteadyRegsBut s t [R.PHS_MISS_CNT_REJECTED]) ∧
  (∀ (s : State), s.Sound → s.flag R.PHS_CTRL_EDGE = true → s.track.fallingDue = true → s.track.intervals ≠ [] → s.flag
    R.PHS_STAT_SRC = false → s.flag R.PHS_STAT_LOCKED = true → s.pseudoForced = false → s.flag R.PHS_STAT_EW = false →
      ∃ t, exec .placedFallingCrossing s = .next t ∧
      t.hc = (s.hc + 1) % 2 ^ 48 ∧
      t.pu = 0 ∧
      t.track.fallingDue = false ∧
      SteadyRegsBut s t ([R.PHS_STAT_SRC_REASON, R.PHS_HC, R.PHS_FREQ, R.PHS_PU, R.PHS_STAT_EW, R.PHS_STAT_SRC,
        R.PK_STAT_CHARGING 0, R.PK_STAT_CHARGING 1] ++ patrolRegs))

/-- R35, R36, R39, R41: lock is lost after 16 hc out of band; pu advances to 1,023 and holds; a pseudo half-cycle ends one hc
on; a missing half-cycle with the mains as source advances hc on the predicted grid and is counted. -/
def Obligations.TheGridGoesOnWithoutCrossings : Prop :=
  (∀ (s : State), s.Sound → s.flag R.PHS_STAT_LOCKED = true → 16 ≤ s.track.rangeRun →
      ∃ t, exec .lockLost s = .next t ∧
      t.flag R.PHS_STAT_LOCKED = false ∧
      t.track.rangeRun = 0 ∧
      t.track.lockRun = 0 ∧
      SteadyRegsBut s t [R.PHS_STAT_LOCKED]) ∧
  (∀ (s : State), s.Sound →
      ∃ t, exec .puAdvance s = .next t ∧
      t.pu = (if s.pu < 1023 then s.pu + 1 else s.pu) ∧
      t.hc = s.hc ∧
      SteadyRegsBut s t [R.PHS_PU]) ∧
  (∀ (s : State), s.Sound → s.flag R.PHS_STAT_SRC = true → s.flag R.PHS_STAT_LOCKED = false →
      ∃ t, exec .pseudoHalfCycleEnd s = .next t ∧
      t.hc = (s.hc + 1) % 2 ^ 48 ∧
      t.pu = 0 ∧
      t.flag R.PHS_STAT_SRC = true ∧
      SteadyRegsBut s t ([R.PHS_HC, R.PHS_FREQ, R.PHS_STAT_SRC_REASON, R.PHS_PU, R.PHS_STAT_SRC, R.PK_STAT_CHARGING 0,
        R.PK_STAT_CHARGING 1] ++ patrolRegs)) ∧
  (∀ (s : State) (ok : Bool), s.Sound → s.track.refHeld = true → s.track.intervals ≠ [] → s.track.missRun = 0 → s.flag
    R.PHS_STAT_SRC = false →
      ∃ t, exec (.missingHalfCycle ok) s = .next t ∧
      t.hc = (s.hc + 1) % 2 ^ 48 ∧
      t.pu = 256 ∧
      t.rd R.PHS_MISS_CNT_MISSED = min 65535 (s.rd R.PHS_MISS_CNT_MISSED + 1) ∧
      t.track.missRun = 1 ∧
      SteadyRegsBut s t ([R.PHS_STAT_SRC, R.PHS_STAT_AC_OK, R.PHS_HC, R.PHS_PU, R.PHS_MISS_CNT_MISSED, R.PHS_FREQ,
        R.PHS_STAT_SRC_REASON, R.GAU_REST_WINDOW, R.PHS_STAT_EW, R.PHS_STAT_LOCKED, R.PK_AUTH_STATE 0, R.PK_AUTH_STATE 1,
        R.PK_STAT_CHARGING 0, R.PK_STAT_CHARGING 1, R.WTH_BOOST_CNT] ++ patrolRegs))

/-- R41, R43, R45, R46, R49, R51, R393: `AC_OK` and Early Warning, the event service, the charge deadlines, the gauge path and
operating seconds. -/
def Obligations.PhaseServicesAnswer : Prop :=
  (∀ (s : State), s.Sound → s.flag R.PHS_CTRL_EW_ACOK = true → s.flag R.PHS_STAT_EW = false → s.flag R.GAU_REST_WINDOW =
    false → s.flag R.KLN_STAT_DEBOUNCE = false →
      ∃ t, exec .acOkLowTimeout s = .next t ∧
      t.flag R.PHS_STAT_AC_OK = false ∧
      t.flag R.PHS_STAT_EW = true ∧
      t.track.ewCause = s.track.ewCause ||| 2 ∧
      t.track.ewSince = s.hc ∧
      SteadyRegsBut s t [R.PHS_STAT_AC_OK, R.PHS_STAT_EW, R.WTH_BOOST_CNT, R.GAU_REST_WINDOW, R.PK_AUTH_STATE 0,
        R.PK_AUTH_STATE 1]) ∧
  (∀ (s : State), s.Sound → s.flag R.PHS_STAT_SRC = true → s.flag R.PHS_STAT_EW = true → s.inKiln = false →
      ∃ t, exec .acOkHighTimeout s = .next t ∧
      t.flag R.PHS_STAT_AC_OK = true ∧
      t.flag R.PHS_STAT_EW = false ∧
      t.track.ewCause = 0 ∧
      SteadyRegsBut s t [R.PHS_STAT_EW, R.PHS_STAT_AC_OK]) ∧
  (∀ (s : State) (slot : Nat) (e : SchedSlot), s.Inv → s.track.sched.find? (fun (x : Nat × SchedSlot) => x.1 == slot) =
    some (slot, e) → e.period = 0 → e.hc * 1024 + e.pu ≤ s.puNow →
      ∃ t, exec (.scheduledEventFire slot) s = .next t ∧
      t.track.sched = s.track.sched.filter (fun (x : Nat × SchedSlot) => x.1 != slot) ∧
      SteadyRegsBut s t [R.PK_STAT_CHARGING 0, R.PK_STAT_CHARGING 1]) ∧
  (∀ (s : State) (n : Nat), s.Calm → n < 8 → n ≠ 4 → (∀ k < n, s.flag (R.PHS_CDL_ARMED k) = false ∨ s.rd R.PHS_CT_DRAWN <
    s.rd (R.PHS_CDL_TARGET k)) → s.inKiln = false → s.flag (R.PHS_CDL_ARMED n) = true → s.rd (R.PHS_CDL_TARGET n) ≤ s.rd
    R.PHS_CT_DRAWN →
      ∃ t, exec (.chargeDeadlineFire n) s = .next t ∧
      t.flag (R.PHS_CDL_ARMED n) = false ∧
      t.flag (R.PHS_CDL_FIRED n) = true ∧
      SameRegsBut s t [R.PHS_CDL_ARMED n, R.PHS_CDL_FIRED n] ∧
      SameParts s t) ∧
  (∀ (s : State) (n : Nat), s.Sound → n < 8 → s.flag (R.PHS_CDL_ARMED n) = true → s.rd (R.PHS_CDL_TARGET n) ≤ s.rd
    R.PHS_CT_DRAWN →
      ∃ t, exec (.chargeDeadlineFire n) s = .next t ∧
      t.flag (R.PHS_CDL_ARMED n) = false ∧
      t.flag (R.PHS_CDL_FIRED n) = true) ∧
  (∀ (s : State) (n target : Nat), s.Calm → n < 8 → s.rd R.PHS_CT_DRAWN < target % 2 ^ 48 →
      ∃ t, exec (.chargeDeadlineArm n target) s = .next t ∧
      t.flag (R.PHS_CDL_ARMED n) = true ∧
      t.flag (R.PHS_CDL_FIRED n) = false ∧
      t.rd (R.PHS_CDL_TARGET n) = target % 2 ^ 48 ∧
      SameRegsBut s t [R.PHS_CDL_TARGET n, R.PHS_CDL_ARMED n, R.PHS_CDL_FIRED n] ∧
      SameParts s t) ∧
  (∀ (s : State) (p : Nat), s.Sound → p < 2 → (s.pack p).implausible = false →
      ∃ t, exec (.gaugePathImplausible p) s = .next t ∧
      t.flag R.PHS_STAT_CT_EST = true ∧
      t.rd (R.PK_UNC p) = min 0xFFFFFF (s.rd (R.PK_UNC p) + s.rd (R.PK_CAP p) * 5 / 100) ∧
      SteadyRegsBut s t (energyRegs ++ [R.PK_UNC 0, R.PK_UNC 1, R.PHS_STAT_CT_EST])) ∧
  (∀ (s : State) (p : Nat), s.Inv → p < 2 → s.flag R.PHS_STAT_CT_EST = true → (s.pack p).implausible = true → (s.pack (1
    - p)).implausible = false →
      ∃ t, exec (.gaugePathPlausible p) s = .next t ∧
      t.track.estEnds = true ∧
      SteadyRegsBut s t energyRegs) ∧
  (∀ (s : State), s.Sound → s.power.life = .running → s.opsec % 3600 ≠ 3599 → s.opsec + 1 < 2 ^ 40 →
      ∃ t, exec .opsecTick s = .next t ∧
      t.opsec = s.opsec + 1 ∧
      t.rd R.SNT_RTC = (s.rd R.SNT_RTC + 1) % 2 ^ 40 ∧
      SteadyRegsBut s t [R.PHS_OPSEC, R.SNT_RTC, R.CRY_UNLOCK_WAIT, R.PWR_RES_P1, R.PWR_RES_P2, R.BUD_ENERGY_AGE,
        R.GAU_REST_HOURS, R.PK_STAT_REPLACE 0, R.PK_STAT_REPLACE 1, R.WTH_HELD_S])

/-! ## Energy pack and readings -/

/-- R373, R375, R376, R377, R378, R379, Table 13-3: an inserted pack is identified, authenticated and counted; one that does not
answer is not counted; the override counts a pack that is not authenticated; a pack that leaves is Absent. -/
def Obligations.PacksComeAndGo : Prop :=
  (∀ (s : State) (port : Nat), s.Sound → s.packs.contains port = true → s.kiln.since = false → s.inKiln = false → (s.rd
    (R.PK_STAT_STATE port) = 0 ∨ s.rd (R.PK_STAT_STATE port) = 2) →
      ∃ t, exec (.packInserted port) s = .next t ∧
      t.rd (R.PK_STAT_STATE port) = 1 ∧
      t.rd (R.PK_AUTH_OVERRIDE port) = 0 ∧
      t.rd (R.PK_AUTH_STATE port) = 0 ∧
      SteadyRegsBut s t [R.PK_STAT_STATE port, R.PK_AUTH_OVERRIDE port, R.PK_AUTH_STATE port, R.GAU_DISAGREE_ACTIVE]) ∧
  (∀ (s : State) (port serial : Nat) (cells4 : Bool), s.Sound → s.packs.contains port = true → s.rd (R.PK_STAT_STATE
    port) = 1 → s.chem port ≠ 0 → cells4 = s.flag (R.PK_CFG_CELLS4 port) → s.inKiln = false → s.flag R.GAU_REST_WINDOW =
    false → serial < 2 ^ 32 →
      ∃ t, exec (.packIdentified port true serial (s.chem port) cells4) s = .next t ∧
      t.rd (R.PK_STAT_STATE port) = 2 ∧
      t.rd (R.PK_SERIAL port) = serial ∧
      t.rd (R.PK_AUTH_STATE port) = 3 ∧
      SteadyRegsBut s t (energyRegs ++ [R.PK_STAT_STATE port, R.PK_TRIM2_VSET_MV port, R.PK_AUTH_STATE port, R.PK_SERIAL
        port, R.PK_CAP port, R.PK_Q_CC port, R.PK_Q_VHI port, R.PK_RES_BASE port, R.PK_STAT_CHARGING port,
        R.PK_STAT_UNCOUNT port, R.PK_UNC port])) ∧
  (∀ (s : State) (port serial chem : Nat) (cells4 : Bool), s.Sound → s.packs.contains port = true → s.rd (R.PK_STAT_STATE
    port) = 1 →
      ∃ t, exec (.packIdentified port false serial chem cells4) s = .next t ∧
      t.rd (R.PK_STAT_STATE port) = 4 ∧
      t.bit (R.PK_STAT_UNCOUNT port) 4 = true ∧
      t.flag (R.PK_STAT_CHARGING port) = (s.flag (R.PK_STAT_CHARGING port) && !s.inWindow) ∧
      (t.flag (R.PK_STAT_CHARGING port) = false ∨ (t.pack port).chgStop = true) ∧
      t.bit (R.FLT_STAT (0xA9 + port)) 5 = true ∧
      SteadyRegsBut s t (energyRegs ++ [R.PK_STAT_STATE port, R.PK_STAT_UNCOUNT port, R.PK_AUTH_STATE port, R.PK_CAP
        port, R.PK_Q_CC port, R.PK_Q_VHI port, R.PK_RES_BASE port, R.PK_SERIAL port, R.PK_STAT_CHARGING port,
        R.PK_TRIM2_VSET_MV port, R.PK_UNC port])) ∧
  (∀ (s : State) (port : Nat), s.Sound → s.packs.contains port = true → s.rd (R.PK_STAT_STATE port) ≠ 0 →
      ∃ t, exec (.packRemoved port) s = .next t ∧
      t.rd (R.PK_STAT_STATE port) = 0 ∧
      t.rd (R.PK_STAT_UNCOUNT port) = 0 ∧
      t.rd (R.PK_AUTH_OVERRIDE port) = 0 ∧
      t.flag (R.PK_STAT_CHARGING port) = (s.flag (R.PK_STAT_CHARGING port) && !s.inWindow) ∧
      (t.flag (R.PK_STAT_CHARGING port) = false ∨ (t.pack port).chgStop = true) ∧
      t.bit (R.FLT_STAT (0xA9 + port)) 0 = true ∧
      SteadyRegsBut s t (energyRegs ++ [R.GAU_DISAGREE_ACTIVE, R.PK_AUTH_RUN port, R.PK_STAT_STATE port,
        R.PK_AUTH_OVERRIDE port, R.PK_AUTH_STATE port, R.PK_Q_VHI port, R.PK_STAT_AT_REST port, R.PK_STAT_CHARGING port,
        R.PK_STAT_UNCOUNT port])) ∧
  (∀ (s : State) (port n : Nat), s.Sound → s.packs.contains port = true → s.rd (R.PK_STAT_STATE port) = 2 → (s.pack
    port).challenge = some n → s.rd (R.PK_STAT_UNCOUNT port) ≤ 1 →
      ∃ t, exec (.authResponse port (some (s.expectedMac port n))) s = .next t ∧
      t.rd (R.PK_AUTH_STATE port) = 1 ∧
      t.rd (R.PK_STAT_STATE port) = 3 ∧
      t.rd (R.PK_STAT_UNCOUNT port) = 0 ∧
      SteadyRegsBut s t (energyRegs ++ [R.PK_AUTH_RUN port, R.PK_STAT_STATE port, R.PK_AUTH_STATE port, R.PK_AUTH_FAILS
        port, R.PK_STAT_REPLACE port, R.PK_STAT_UNCOUNT port])) ∧
  (∀ (s : State) (port n : Nat), s.Sound → s.packs.contains port = true → 2 ≤ s.rd (R.PK_STAT_STATE port) → (s.pack
    port).challenge = some n →
      ∃ t, exec (.authResponse port (some (s.expectedMac port n))) s = .next t ∧
      t.rd (R.PK_AUTH_STATE port) = 1 ∧
      (t.pack port).authOk = true ∧
      (t.pack port).challenge = none ∧
      t.bit (R.PK_STAT_UNCOUNT port) 0 = false ∧
      t.rd (R.PK_STAT_STATE port) = (if t.rd (R.PK_STAT_UNCOUNT port) = 0 then 3 else 4)) ∧
  (∀ (s : State) (port : Nat) (answer : Option Nat), s.Sound → s.packs.contains port = true → 2 ≤ s.rd (R.PK_STAT_STATE
    port) → (s.pack port).challenge.isSome = true → answer ≠ (s.pack port).challenge.map (s.expectedMac port) → (s.pack
    port).attempts + 1 < 3 →
      ∃ t, exec (.authResponse port answer) s = .next t ∧
      (t.pack port).attempts = (s.pack port).attempts + 1 ∧
      (t.pack port).challenge = none ∧
      t.rd (R.PK_STAT_STATE port) = s.rd (R.PK_STAT_STATE port) ∧
      t.rd (R.PK_AUTH_FAILS port) = min 65535 (s.rd (R.PK_AUTH_FAILS port) + 1) ∧
      SteadyRegsBut s t [R.PK_AUTH_FAILS port]) ∧
  (∀ (s : State) (port : Nat) (answer : Option Nat), s.Sound → s.packs.contains port = true → 2 ≤ s.rd (R.PK_STAT_STATE
    port) → (s.pack port).challenge.isSome = true → answer ≠ (s.pack port).challenge.map (s.expectedMac port) → 3 ≤
    (s.pack port).attempts + 1 →
      ∃ t, exec (.authResponse port answer) s = .next t ∧
      t.rd (R.PK_AUTH_STATE port) = 2 ∧
      (t.pack port).authOk = false ∧
      t.bit (R.PK_STAT_UNCOUNT port) 0 = !s.flag (R.PK_AUTH_OVERRIDE port) ∧
      t.rd (R.PK_STAT_STATE port) = (if t.rd (R.PK_STAT_UNCOUNT port) = 0 then 3 else 4) ∧
      t.bit (R.FLT_STAT (0xA9 + port)) 1 = true) ∧
  (∀ (s : State) (port : Nat), s.Calm → s.packs.contains port = true → (s.pack port).challenge = none → (s.pack
    port).attempts ≠ 0 → s.rd (R.PK_AUTH_STATE port) = 3 →
      ∃ t, exec (.authRetry port) s = .next t ∧
      (∃ n, t.out = [.packWrite port n] ∧ (t.pack port).challenge = some n) ∧
      t.rd (R.PK_AUTH_STATE port) = 3 ∧
      SameRegsBut s t [R.PK_AUTH_STATE port] ∧
      SameParts { s with packA := t.packA, packB := t.packB, freeCtr := t.freeCtr } t) ∧
  (∀ (s : State) (who : Requester) (port : Nat), s.Sound → s.packs.contains port = true → s.identified port = true → s.rd
    (R.PK_AUTH_STATE port) ≠ 3 → s.bit (R.PK_STAT_UNCOUNT port) 4 = false → s.inKiln = false → s.flag R.GAU_REST_WINDOW =
    false →
      ∃ t, exec (.authRun who port true) s = .next t ∧
      t.rd (R.PK_AUTH_STATE port) = 3 ∧
      t.rd (R.PK_STAT_STATE port) = s.rd (R.PK_STAT_STATE port) ∧
      SteadyRegsBut s t [R.PK_AUTH_STATE port]) ∧
  (∀ (s : State) (who : Requester) (port : Nat), s.Sound → s.packs.contains port = true → s.identified port = true → s.rd
    (R.PK_AUTH_STATE port) ≠ 3 → s.bit (R.PK_STAT_UNCOUNT port) 4 = false → (s.inKiln = true ∨ s.flag R.GAU_REST_WINDOW =
    true) →
      ∃ t, exec (.authRun who port true) s = .next t ∧
      (t.pack port).authDeferred = true ∧
      t.rd (R.PK_AUTH_STATE port) = s.rd (R.PK_AUTH_STATE port) ∧
      t.rd (R.PK_STAT_STATE port) = s.rd (R.PK_STAT_STATE port)) ∧
  (∀ (s : State) (who : Requester) (port : Nat), s.Sound → s.packs.contains port = true → s.Writable who (0xA9 + port) →
    s.identified port = true → s.rd (R.PK_AUTH_STATE port) ≠ 3 → s.bit (R.PK_STAT_UNCOUNT port) 4 = false → s.inKiln =
    false → s.flag R.GAU_REST_WINDOW = false →
      ∃ t, exec (.authRun who port false) s = .next t ∧
      t.rd (R.PK_AUTH_STATE port) = 3 ∧
      t.flag (R.PK_AUTH_RUN port) = true ∧
      SteadyRegsBut s t [R.PK_AUTH_STATE port, R.PK_AUTH_RUN port]) ∧
  (∀ (s : State) (who : Requester) (port : Nat), s.Sound → s.packs.contains port = true → s.Writable who (0xA9 + port) →
    s.identified port = true → (s.pack port).authOk = false → s.rd (R.PK_STAT_UNCOUNT port) ≤ 1 →
      ∃ t, exec (.authOverrideWrite who port 1) s = .next t ∧
      t.rd (R.PK_AUTH_OVERRIDE port) = 1 ∧
      t.rd (R.PK_STAT_STATE port) = 3 ∧
      t.bit (R.FLT_STAT (0xA9 + port)) 2 = true ∧
      SteadyRegsBut s t (energyRegs ++ [R.PK_STAT_STATE port, R.PK_STAT_UNCOUNT port, R.PK_AUTH_OVERRIDE port])) ∧
  (∀ (s : State) (who : Requester) (port value : Nat), s.Sound → s.packs.contains port = true → s.Writable who (0xA9 +
    port) →
      ∃ t, exec (.authOverrideWrite who port value) s = .next t ∧
      t.rd (R.PK_AUTH_OVERRIDE port) = value % 2 ∧
      (s.identified port = false ∨ t.bit (R.PK_STAT_UNCOUNT port) 0 = (!(s.pack port).authOk && value % 2 == 0)) ∧
      (s.identified port = false ∨ t.rd (R.PK_STAT_STATE port) = (if t.rd (R.PK_STAT_UNCOUNT port) = 0 then 3 else 4)) ∧
      SteadyRegsBut s t (energyRegs ++ [R.PK_STAT_STATE port, R.PK_STAT_UNCOUNT port, R.PK_AUTH_OVERRIDE port]))

/-- R381, R383, R384, R390, R391, R394, Tables 13-4 and 13-5: a rest correction takes the middle of a narrow interval, a
disagreement schedules a relearn, a rest window opens or the uncertainty widens, tests put a pack onto the bus and take it
off with their result, and charging stops at a cell's limit or a charger fault. -/
def Obligations.TheGaugeLearnsAndTestsItsPacks : Prop :=
  (∀ (s : State) (port lo hi : Nat), s.Sound → s.packs.contains port = true → s.identified port = true → s.bit
    (R.PK_STAT_UNCOUNT port) 4 = false → (s.pack port).learnMid = none → (s.pack port).firstV = false → 50 * ((s.curve
    port lo hi).2 - (s.curve port lo hi).1) < s.rd (R.PK_CAP port) →
      ∃ t, exec (.packAtRest port lo hi) s = .next t ∧
      t.flag (R.PK_STAT_AT_REST port) = true ∧
      t.rd (R.PK_Q_CC port) = min (((s.curve port lo hi).1 + (s.curve port lo hi).2) / 2) (s.rd (R.PK_CAP port)) ∧
      t.rd (R.PK_UNC port) = s.rd (R.PK_CAP port) / 100 ∧
      t.rd (R.PK_Q_VHI port) = min (s.curve port lo hi).2 0xFFFFFF ∧
      (t.pack port).disagree = false ∧
      SteadyRegsBut s t (energyRegs ++ [R.PK_STAT_AT_REST port, R.PK_Q_CC port, R.PK_Q_VHI port, R.PK_UNC port,
        R.GAU_DISAGREE_ACTIVE, R.GAU_REST_HOURS, R.PK_CAP port, R.PK_LEARN_CAP_PERMILLE port, R.PK_LEARN_COUNT port,
        R.PK_STAT_REPLACE port])) ∧
  (∀ (s : State) (port lo hi : Nat), s.Sound → s.packs.contains port = true → s.identified port = true → s.bit
    (R.PK_STAT_UNCOUNT port) 4 = false →
      ∃ t, exec (.packAtRest port lo hi) s = .next t ∧
      t.flag (R.PK_STAT_AT_REST port) = true ∧
      t.rd (R.PK_Q_VHI port) = min (s.curve port lo hi).2 0xFFFFFF ∧
      (t.pack port).vLo = (s.curve port lo hi).1 ∧
      (t.pack port).haveV = true ∧
      (t.pack port).firstV = false ∧
      SteadyRegsBut s t (energyRegs ++ [R.PK_STAT_AT_REST port, R.PK_Q_CC port, R.PK_Q_VHI port, R.PK_UNC port,
        R.GAU_DISAGREE_ACTIVE, R.GAU_REST_HOURS, R.PK_CAP port, R.PK_LEARN_CAP_PERMILLE port, R.PK_LEARN_COUNT port,
        R.PK_STAT_REPLACE 0, R.PK_STAT_REPLACE 1])) ∧
  (∀ (s : State) (port : Nat), s.Sound → s.packs.contains port = true → s.identified port = true → (s.pack port).haveV =
    true → 3 * s.rd (R.PK_CAP port) < 100 * max ((s.pack port).vLo - s.rd (R.PK_Q_CC port)) (s.rd (R.PK_Q_CC port) - s.rd
    (R.PK_Q_VHI port)) →
      ∃ t, exec (.gaugeDisagree port) s = .next t ∧
      t.flag R.GAU_DISAGREE_ACTIVE = true ∧
      t.rd R.GAU_RELEARNS = min 65535 (s.rd R.GAU_RELEARNS + 1) ∧
      t.bit (R.FLT_STAT 0xA8) 0 = true ∧
      SteadyRegsBut s t (energyRegs ++ [R.GAU_REST_HOURS, R.GAU_DISAGREE_CT, R.GAU_DISAGREE_ACTIVE, R.GAU_RELEARNS,
        R.PK_STAT_REPLACE 0, R.PK_STAT_REPLACE 1])) ∧
  (∀ (s : State) (who : Requester), s.Sound → s.variant.gauge = true → s.Writable who 0xA8 →
      ∃ t, exec (.relearn who) s = .next t ∧
      (t.pack 0).relearn = true ∧
      (t.pack 1).relearn = true ∧
      t.rd R.GAU_RELEARNS = min 65535 (s.rd R.GAU_RELEARNS + 1) ∧
      SteadyRegsBut s t [R.GAU_RELEARNS, R.GAU_REST_HOURS, R.PK_STAT_REPLACE 0, R.PK_STAT_REPLACE 1]) ∧
  (∀ (s : State) (who : Requester), s.Calm → s.variant.gauge = true → s.Writable who 0xA8 → s.packA.highZAt = 0 →
    s.packB.highZAt = 0 →
      ∃ t, exec (.relearn who) s = .next t ∧
      (t.pack 0).relearn = true ∧
      (t.pack 1).relearn = true ∧
      t.rd R.GAU_RELEARNS = min 65535 (s.rd R.GAU_RELEARNS + 1) ∧
      SameRegsBut s t [R.GAU_RELEARNS, R.GAU_REST_HOURS, R.PK_STAT_REPLACE 0, R.PK_STAT_REPLACE 1] ∧
      SameParts { s with packA := t.packA, packB := t.packB } t) ∧
  (∀ (s : State) (port : Nat), s.Sound → s.packs.contains port = true → s.identified port = true → ((s.pack port).relearn
    || decide ((s.pack port).restAt + 259200 ≤ s.opsec)) = true → s.flag R.GAU_CTRL_REST_PERMIT = true → (max
    s.packA.windowAt s.packB.windowAt = 0 ∨ max s.packA.windowAt s.packB.windowAt + 86400 ≤ s.opsec + 1) → s.testBar =
    false → s.flag R.PHS_STAT_EW = false → s.flag R.GAU_REST_WINDOW = false → s.packA.test = 0 → s.packB.test = 0 →
      ∃ t, exec (.noRest72h port) s = .next t ∧
      t.flag R.GAU_REST_WINDOW = true ∧
      t.rd (R.PK_UNC port) = s.rd (R.PK_UNC port) ∧
      SteadyRegsBut s t (energyRegs ++ [R.GAU_REST_WINDOW, R.PK_UNC port])) ∧
  (∀ (s : State) (port : Nat), s.Sound → s.packs.contains port = true → s.identified port = true → ((s.pack port).relearn
    || decide ((s.pack port).restAt + 259200 ≤ s.opsec)) = true → s.flag R.GAU_CTRL_REST_PERMIT = false → ((s.pack
    port).widenAt = 0 ∨ (s.pack port).widenAt + 86400 ≤ s.opsec + 1) →
      ∃ t, exec (.noRest72h port) s = .next t ∧
      t.rd (R.PK_UNC port) = max (s.rd (R.PK_UNC port)) (min (s.rd (R.PK_CAP port) / 5) (s.rd (R.PK_UNC port) + s.rd
        (R.PK_CAP port) / 400)) ∧
      t.bit (R.FLT_STAT 0xA8) 2 = true ∧
      SteadyRegsBut s t (energyRegs ++ [R.PK_UNC port, R.GAU_REST_WINDOW])) ∧
  (∀ (s : State), s.Sound → s.flag R.GAU_REST_WINDOW = true →
      ∃ t, exec .restWindowEnd s = .next t ∧
      t.flag R.GAU_REST_WINDOW = false ∧
      SteadyRegsBut s t [R.GAU_REST_WINDOW, R.PK_AUTH_STATE 0, R.PK_AUTH_STATE 1]) ∧
  (∀ (s : State) (port : Nat), s.Calm → s.packs.contains port = true → s.identified port = true → s.testBar = false →
    s.flag R.GAU_REST_WINDOW = false → (s.pack port).test = 0 → s.pu = 384 → s.power.mainGood = true → s.rd R.PHS_CT_DRAWN
    < 2 ^ 47 →
      ∃ t, exec (.switchoverTest port) s = .next t ∧
      (t.pack port).test = 1 ∧
      (t.pack port).pathOn = true ∧
      t.flag (R.PHS_CDL_ARMED (testSlot port)) = true ∧
      t.rd (R.PHS_CDL_TARGET (testSlot port)) = s.rd R.PHS_CT_DRAWN + 50 ∧
      SameRegsBut s t [R.PHS_CDL_TARGET (6 + port), R.PHS_CDL_ARMED (6 + port), R.PHS_CDL_FIRED (6 + port)] ∧
      SameParts { s with packA := t.packA, packB := t.packB } t) ∧
  (∀ (s : State) (port : Nat), s.Calm → s.packs.contains port = true → s.identified port = true → s.testBar = false →
    s.flag R.GAU_REST_WINDOW = false → (s.pack port).test = 0 → s.pu = 384 → s.power.mainGood = true → s.rd R.PHS_CT_DRAWN
    < 2 ^ 47 →
      ∃ t, exec (.pulseTest port) s = .next t ∧
      (t.pack port).test = 2 ∧
      (t.pack port).pathOn = true ∧
      t.flag (R.PHS_CDL_ARMED (testSlot port)) = true ∧
      t.rd (R.PHS_CDL_TARGET (testSlot port)) = s.rd R.PHS_CT_DRAWN + 200 ∧
      SameRegsBut s t [R.PHS_CDL_TARGET (6 + port), R.PHS_CDL_ARMED (6 + port), R.PHS_CDL_FIRED (6 + port)] ∧
      SameParts { s with packA := t.packA, packB := t.packB } t) ∧
  (∀ (s : State) (port us ma ri vFloor : Nat), s.Sound → port < 2 → s.variant.gauge = true → (s.pack port).test = 1 →
      ∃ t, exec (.packTestDone port us ma ri vFloor) s = .next t ∧
      (t.pack port).test = 0 ∧
      (t.pack port).pathOn = false ∧
      t.rd (R.PK_TESTS_SW_US port) = min 255 us ∧
      t.flag (R.PK_TESTS_SW_OK port) = (us != 0 && decide (us ≤ 50)) ∧
      (s.identified port = false ∨ t.bit (R.PK_STAT_UNCOUNT port) 2 = !(us != 0 && decide (us ≤ 50))) ∧
      SteadyRegsBut s t (energyRegs ++ [R.PK_TEST_DISCHARGE port, R.PK_STAT_STATE port, R.PK_STAT_UNCOUNT port,
        R.PK_TESTS_SW_US port, R.PK_TESTS_SW_OK port, R.PK_RES_BASE port, R.PK_TESTS_PULSES port])) ∧
  (∀ (s : State) (port us ma ri vFloor : Nat), s.Sound → port < 2 → (s.pack port).test = 2 →
      ∃ t, exec (.packTestDone port us ma ri vFloor) s = .next t ∧
      (t.pack port).test = 0 ∧
      (t.pack port).pathOn = false ∧
      t.rd (R.PK_TEST_DISCHARGE port) = 0 ∧
      (t.rd (R.PK_TESTS_PULSES port) = s.rd (R.PK_TESTS_PULSES port) ∨ (t.rd (R.PK_TESTS_PULSES port) = min 65535 (s.rd
        (R.PK_TESTS_PULSES port) + 1) ∧ (t.pack port).highZAt = 0)) ∧
      SteadyRegsBut s t (energyRegs ++ [R.PK_TEST_DISCHARGE port, R.PK_STAT_STATE port, R.PK_STAT_UNCOUNT port,
        R.PK_RES_BASE port, R.PK_TESTS_PULSES port])) ∧
  (∀ (s : State) (port us ma ri vFloor : Nat), s.Sound → port < 2 → (s.pack port).test = 3 → s.rd (R.PK_SOC_RAW port) ≤
    100 * clampTo (s.floorPct + 5) 90 (s.rd (R.PK_TEST_TO_PCT port)) →
      ∃ t, exec (.packTestDone port us ma ri vFloor) s = .next t ∧
      (t.pack port).test = 0 ∧
      (t.pack port).pathOn = false ∧
      (t.pack port).restUntil = s.opsec + 60 * s.restMin ∧
      SteadyRegsBut s t [R.PK_TEST_DISCHARGE port]) ∧
  (∀ (s : State) (who : Requester) (port : Nat), s.Calm → s.packs.contains port = true → s.Writable who (0xA9 + port) →
    s.flag (R.PK_TEST_SOLO port) = true → s.identified port = true → s.testBar = false → s.flag R.GAU_REST_WINDOW = false
    → (s.pack port).test = 0 →
      ∃ t, exec (.testDischarge who port) s = .next t ∧
      (t.pack port).test = 3 ∧
      (t.pack port).pathOn = true ∧
      t.rd (R.PK_TEST_DISCHARGE port) = 1 ∧
      SameRegsBut s t [R.PK_TEST_DISCHARGE port] ∧
      SameParts { s with packA := t.packA, packB := t.packB, track := { s.track with sched := t.track.sched } } t) ∧
  (∀ (s : State) (port : Nat), s.Sound → s.packs.contains port = true → s.cellHigh port = true → (s.inWindow = true ∨
    s.flag (R.PK_STAT_CHARGING port) = false) →
      ∃ t, exec (.cellOvervoltage port) s = .next t ∧
      t.flag (R.PK_STAT_CHARGING port) = false ∧
      t.bit (R.FLT_STAT (0xA9 + port)) 6 = true ∧
      SteadyRegsBut s t [R.PK_STAT_CHARGING port]) ∧
  (∀ (s : State) (port : Nat), s.Sound → s.packs.contains port = true → s.cellHigh port = true → s.inWindow = false →
    s.flag (R.PK_STAT_CHARGING port) = true →
      ∃ t, exec (.cellOvervoltage port) s = .next t ∧
      (t.pack port).chgStop = true ∧
      (chgSlot port,
        { owner := ownGauge, hc := if s.pu < 384 then s.hc else s.hc + 1, pu := 384, period := 0, seconds := 0 }) ∈
        t.track.sched ∧
      t.bit (R.FLT_STAT (0xA9 + port)) 6 = true ∧
      SteadyRegsBut s t []) ∧
  (∀ (s : State) (port kind : Nat), s.Sound → s.packs.contains port = true → s.flag (R.PK_STAT_CHARGING port) = (kind ==
    0) → (kind ≠ 0 ∨ s.rd (R.PK_SOC_RAW port) < 9000) → (kind ≠ 0 ∨ s.inWindow = true) →
      ∃ t, exec (.chargerFaultTimeout port kind) s = .next t ∧
      (t.pack port).chgLatched = true ∧
      t.flag (R.PK_STAT_CHARGING port) = false ∧
      t.bit (R.FLT_STAT (0xA9 + port)) 6 = true ∧
      SteadyRegsBut s t [R.PK_STAT_CHARGING port]) ∧
  (∀ (s : State) (port : Nat), s.Sound → s.packs.contains port = true → s.flag (R.PK_STAT_CHARGING port) = true → s.rd
    (R.PK_SOC_RAW port) < 9000 → s.inWindow = false →
      ∃ t, exec (.chargerFaultTimeout port 0) s = .next t ∧
      (t.pack port).chgLatched = true ∧
      (t.pack port).chgStop = true ∧
      (chgSlot port,
        { owner := ownGauge, hc := if s.pu < 384 then s.hc else s.hc + 1, pu := 384, period := 0, seconds := 0 }) ∈
        t.track.sched ∧
      t.bit (R.FLT_STAT (0xA9 + port)) 6 = true ∧
      SteadyRegsBut s t [])

/-! ## Power sequencer -/

/-- R407, R410, R412, R416, Tables 14-4 and 14-7: a program whose moment has come and whose CRC holds begins at its first step,
one whose CRC does not is not run and latches; where a wait, a check or a synchronization point is over, the program goes on
to its next step or ends, and of program 1 in the derived order the next rail group is switched off; a check or a point that
times out and a program that overruns latch; an input collapse outside a kiln is counted, latches and switches the `MAIN_IN`
rails off but for those a kiln keeps, and without a kiln in time the device is off. -/
def Obligations.ProgramsRunStepByStep : Prop :=
  (∀ (s : State) (n : Nat), s.Calm → n < 8 → s.seq.prog = none → s.seq.due.head? = some n → s.seq.ended = none →
    s.progValid n = true → s.seq.store.get (s.rd (R.SQP_DIR_START n)) / 2 ^ 28 = 3 → s.seq.store.get (s.rd
    (R.SQP_DIR_START n)) % 2 ^ 24 ≠ 0 →
      ∃ t, exec (.seqProgramStart n true) s = .next t ∧
      t.seq.prog = some n ∧
      t.seq.pc = 0 ∧
      t.seq.wait = .time ∧
      t.rd R.SEQ_STAT_PROG = n ∧
      t.flag R.SEQ_STAT_ACTIVE = true) ∧
  (∀ (s : State) (n : Nat), s.Sound → s.seq.prog = none → s.seq.due.head? = some n → s.power.life = .running →
    s.progValid n = true → n < 8 →
      ∃ t, exec (.seqProgramStart n true) s = .next t ∧
      t.bit R.SQP_STAT_CHECK_FAIL n = false ∧
      (t.seq.prog = none ∨ t.seq.wait ≠ .none) ∧
      t.dram.mem = s.dram.mem) ∧
  (∀ (s : State) (n : Nat), s.Sound → s.seq.prog = none → s.seq.due.head? = some n → s.power.life = .running →
    s.progValid n = true → n < 8 →
      ∃ t, exec (.seqProgramStart n false) s = .next t ∧
      t.bit R.SQP_STAT_CHECK_FAIL n = true ∧
      t.bit (R.FLT_STAT (srcPage 137 0)) (srcBit 137) = true ∧
      t.bit (R.FLT_STAT (srcPage 128 0)) (srcBit 128) = true ∧
      (n = 1 ∨ t.seq.prog = none) ∧
      t.dram.mem = s.dram.mem) ∧
  (∀ (s : State) (crcOk : Bool), s.Sound → s.seq.prog = none → s.seq.due.head? = some 1 → s.power.life = .running →
    s.progValid 1 = false →
      ∃ t, exec (.seqProgramStart 1 crcOk) s = .next t ∧
      t.bit (R.FLT_STAT (srcPage 128 0)) (srcBit 128) = true ∧
      (s.seq.rise ≠ [] ∨ t.seq.prog = none) ∧
      (s.seq.rise.length < 2 ∨ t.seq.prog = some 1) ∧
      t.dram.mem = s.dram.mem) ∧
  (∀ (s : State) (n : Nat), s.Calm → s.seq.prog = some n → s.seq.derived = none → s.seq.wait = .time → s.seq.ended = none
    → (s.seq.store.get (s.rd (R.SQP_DIR_START (s.seq.prog.getD 0)) + (s.seq.pc + 1))) / 2 ^ 28 = 3 → (s.seq.store.get
    (s.rd (R.SQP_DIR_START (s.seq.prog.getD 0)) + (s.seq.pc + 1))) % 2 ^ 24 ≠ 0 →
      ∃ t, exec .seqWaitDone s = .next t ∧
      t.seq.pc = s.seq.pc + 1 ∧
      t.seq.wait = .time ∧
      t.seq.prog = some n ∧
      t.rd R.SEQ_STAT_STEP = (s.seq.pc + 1) % 1024) ∧
  (∀ (s : State), s.Sound → (s.seq.wait = .time ∨ s.seq.wait = .gap ∨ s.seq.wait = .more) → s.seq.prog.isSome = true →
    s.power.life = .running →
      ∃ t, exec .seqWaitDone s = .next t ∧
      (t.seq.prog = none ∨ t.seq.wait ≠ .none) ∧
      t.dram.mem = s.dram.mem) ∧
  (∀ (s : State) (at_ : Nat), s.Sound → s.seq.wait = .hc at_ → s.seq.prog.isSome = true → s.power.life = .running → at_ ≤
    s.hc →
      ∃ t, exec .seqWaitDone s = .next t ∧
      (t.seq.prog = none ∨ t.seq.wait ≠ .none) ∧
      (t.seq.wait ≠ .hc at_ ∨ s.hc ≤ at_) ∧
      t.dram.mem = s.dram.mem) ∧
  (∀ (s : State) (e : RiseEntry) (l : List RiseEntry), s.Calm → s.seq.wait = .gap → s.seq.prog = some 1 → s.seq.derived =
    some (e :: l) → s.seq.ended = none →
      ∃ t, exec .seqWaitDone s = .next t ∧
      t.seq.derived = some l ∧
      t.rd R.SEQ_EN = s.rd R.SEQ_EN ^^^ (e.ens &&& s.rd R.SEQ_EN) ∧
      t.seq.wait = (match e.check with | some c => SeqWait.down c.1 | none => SeqWait.gap) ∧
      t.dram.mem = s.dram.mem) ∧
  (∀ (s : State) (n : Nat), s.Calm → s.seq.prog = some n → s.seq.derived = none → s.seq.wait = .up 3 → s.allGood 3 = true
    → s.seq.ended = none → (s.seq.store.get (s.rd (R.SQP_DIR_START (s.seq.prog.getD 0)) + (s.seq.pc + 1))) / 2 ^ 28 = 3 →
    (s.seq.store.get (s.rd (R.SQP_DIR_START (s.seq.prog.getD 0)) + (s.seq.pc + 1))) % 2 ^ 24 ≠ 0 →
      ∃ t, exec .seqCheckDone s = .next t ∧
      t.seq.pc = s.seq.pc + 1 ∧
      t.seq.wait = .time ∧
      t.seq.prog = some n ∧
      t.flag R.SEQ_STAT_CHECK_FAILED = false) ∧
  (∀ (s : State) (r : Nat), s.Sound → (s.seq.wait = .up r ∧ s.allGood r = true ∨ s.seq.wait = .down r ∧ s.allDown r =
    true) → s.seq.prog.isSome = true → s.power.life = .running →
      ∃ t, exec .seqCheckDone s = .next t ∧
      (t.seq.prog = none ∨ t.seq.wait ≠ .none) ∧
      t.dram.mem = s.dram.mem) ∧
  (∀ (s : State) (n : Nat), s.Calm → s.seq.prog = some n → s.seq.derived = none → s.seq.wait = .sync true 9 → s.seq.ended
    = none → (s.seq.store.get (s.rd (R.SQP_DIR_START (s.seq.prog.getD 0)) + (s.seq.pc + 1))) / 2 ^ 28 = 3 →
    (s.seq.store.get (s.rd (R.SQP_DIR_START (s.seq.prog.getD 0)) + (s.seq.pc + 1))) % 2 ^ 24 ≠ 0 →
      ∃ t, exec .syncAdvance s = .next t ∧
      t.seq.pc = s.seq.pc + 1 ∧
      t.seq.wait = .time ∧
      t.seq.prog = some n ∧
      t.rd R.SEQ_SYNC_STATE = 9) ∧
  (∀ (s : State) (b : Bool) (n : Nat), s.Sound → s.seq.wait = .sync b n → s.seq.prog.isSome = true → s.power.life =
    .running →
      ∃ t, exec .syncAdvance s = .next t ∧
      (t.seq.prog = none ∨ t.seq.wait ≠ .none) ∧
      t.dram.mem = s.dram.mem) ∧
  (∀ (s : State) (r : Nat), s.Sound → s.seq.wait = .up r → s.allGood r = false →
      ∃ t, exec .seqCheckTimeout s = .next t ∧
      t.bit (R.FLT_STAT 0xA0) 5 = true) ∧
  (∀ (s : State) (r : Nat), s.Sound → s.seq.wait = .down r → s.allDown r = false →
      ∃ t, exec .seqCheckTimeout s = .next t ∧
      t.bit (R.FLT_STAT (srcPage 126 0)) (srcBit 126) = true) ∧
  (∀ (s : State) (n : Nat) (b : Bool), s.Sound → s.seq.wait = .sync b n →
      ∃ t, exec .syncTimeout s = .next t ∧
      t.bit (R.FLT_STAT 0xA0) 9 = true) ∧
  (∀ (s : State) (n : Nat), s.Sound → s.seq.prog = some n → n ≠ 2 →
      ∃ t, exec .programOverrun s = .next t ∧
      t.bit (R.FLT_STAT 0xA0) 7 = true ∧
      SteadyRegsBut s t []) ∧
  (∀ (s : State), s.Sound → s.paged = true → s.inKiln = false →
      ∃ t, exec .inputCollapse s = .next t ∧
      t.bit (R.FLT_STAT 0xA0) 10 = true ∧
      SteadyRegsBut s t rankPowerRegs) ∧
  (∀ (s : State), s.Sound → s.paged = true → s.inKiln = false →
      ∃ t, exec .inputCollapse s = .next t ∧
      t.power.mainGood = false ∧
      t.seq.prog = none ∧
      t.rd R.SEQ_EN &&& (mainMask ^^^ (s.rd R.SEQ_KILN_EN &&& mainMask)) = 0 ∧
      t.rd R.SEQ_COLLAPSE_COUNT = min 65535 (s.rd R.SEQ_COLLAPSE_COUNT + 1) ∧
      t.dram.mem = s.dram.mem) ∧
  (∀ (s : State), s.Sound → s.seq.collapsed = true → s.inKiln = false →
      ∃ t, exec .collapseNoKilnTimeout s = .next t ∧
      t.power.life = .off ∧
      t.rd R.PWR_STAT_STATE = 4 ∧
      t.rd R.SEQ_EN &&& mainMask = 0 ∧
      t.seq.collapsed = false) ∧
  (∀ (s : State), s.Sound → s.seq.collapsed = true → s.inKiln = true →
      ∃ t, exec .collapseNoKilnTimeout s = .next t ∧
      t.seq.collapsed = false ∧
      t.power.life = s.power.life ∧
      t.dram.mem = s.dram.mem ∧
      SteadyRegsBut s t [])

/-- R406, R417, R419, R420, R421, R423: a margin inside its range is written under maintenance access and any other rejected,
and each step moves the margin in force towards it or withdraws it; the counters of one rail or of all are cleared under
maintenance access only, and saved to the older of the two copies; the staged program store is read and written at `ADDR`,
which advances; a press of `MR_N` below 1 s is counted, or starts a device that is off; a hold of 4 s is counted and may
fire the kiln trigger; a hold of 12 s latches and forces the device off. -/
def Obligations.MarginsCountersAndButtonsAct : Prop :=
  (∀ (s : State) (who : Requester) (v : Nat), s.Calm → s.Writable who 0xA0 → s.maint.isOpen = true → v < 128 → -50 ≤
    ofField 7 v → ofField 7 v ≤ 50 → s.mayMargin (s.rd R.SEQ_RAIL_SEL) = true →
      ∃ t, exec (.railMarginWrite who v) s = .next t ∧
      t.rd (R.SEQ_RAIL_MARGIN_PCT10 (s.rd R.SEQ_RAIL_SEL)) = v ∧
      SameRegsBut s t [R.SEQ_RAIL_MARGIN_PCT10 (s.rd R.SEQ_RAIL_SEL)] ∧
      SameParts s t) ∧
  (∀ (s : State) (who : Requester) (v : Nat), s.Sound → s.Writable who 0xA0 → (s.maint.isOpen = false ∨ ofField 7 (v %
    128) < -50 ∨ 50 < ofField 7 (v % 128) ∨ s.mayMargin (s.rd R.SEQ_RAIL_SEL) = false) →
      ∃ t, exec (.railMarginWrite who v) s = .next t ∧
      t.flag (R.CFG_REJECT 0xA0) = true ∧
      t.dram.mem = s.dram.mem ∧
      SteadyRegsBut s t []) ∧
  (∀ (s : State) (i : Nat), s.Calm → s.paged = true → s.kiln.since = false → s.pu = 384 → i < 32 → s.mayMargin i = true →
    s.safe.conds.has 4256 = true → s.latchedBit 133 0 = true →
      ∃ t, exec .marginStep s = .next t ∧
      t.rd (R.SEQ_RAIL_MARGIN_ACT10 i) = toField 8 (stepToward (s.marginNow i) (ofField 7 (s.rd (R.SEQ_RAIL_MARGIN_PCT10
        i)))) ∧
      t.rd (R.SEQ_RAIL_MARGIN_PCT10 i) = s.rd (R.SEQ_RAIL_MARGIN_PCT10 i) ∧
      SameRegsBut s t (R.SEQ_MARGINS :: (List.range 32).map R.SEQ_RAIL_MARGIN_ACT10) ∧
      SameParts s t) ∧
  (∀ (s : State) (i : Nat), s.Sound → s.paged = true → s.kiln.since = false → s.pu = 384 → i < 32 → (s.mayMargin i = true
    ∨ s.rd (R.SEQ_RAIL_MARGIN_ACT10 i) ≠ 0) →
      ∃ t, exec .marginStep s = .next t ∧
      (t.rd (R.SEQ_RAIL_MARGIN_ACT10 i) = toField 8 (stepToward (s.marginNow i) (ofField 7 (s.rd
        (R.SEQ_RAIL_MARGIN_PCT10 i)))) ∨ t.rd (R.SEQ_RAIL_MARGIN_ACT10 i) = 0) ∧
      t.dram.mem = s.dram.mem ∧
      SteadyRegsBut s t []) ∧
  (∀ (s : State) (who : Requester), s.Calm → s.Writable who 0xA0 → s.maint.isOpen = true →
      ∃ t, exec (.cntClearRail who) s = .next t ∧
      (List.range 6).all (fun k => t.rd (railCounter (s.rd R.SEQ_RAIL_SEL) k) == 0) = true ∧
      t.rd R.SEQ_EN = s.rd R.SEQ_EN ∧
      SameRegsBut s t ((List.range 6).map (fun k => railCounter (s.rd R.SEQ_RAIL_SEL) k)) ∧
      SameParts s t) ∧
  (∀ (s : State) (who : Requester), s.Sound → s.Writable who 0xA0 → s.maint.isOpen = false →
      ∃ t, exec (.cntClearRail who) s = .next t ∧
      t.flag (R.CFG_REJECT 0xA0) = true ∧
      SteadyRegsBut s t []) ∧
  (∀ (s : State) (who : Requester), s.Calm → s.Writable who 0xA0 → s.maint.isOpen = true →
      ∃ t, exec (.cntClearAll who) s = .next t ∧
      (List.range 192).all (fun j => t.rd (railCounter (j / 6) (j % 6)) == 0) = true ∧
      t.rd R.SEQ_EN = s.rd R.SEQ_EN ∧
      SameRegsBut s t ((List.range 192).map (fun j => railCounter (j / 6) (j % 6))) ∧
      SameParts s t) ∧
  (∀ (s : State) (who : Requester), s.Sound → s.Writable who 0xA0 → s.maint.isOpen = false →
      ∃ t, exec (.cntClearAll who) s = .next t ∧
      t.flag (R.CFG_REJECT 0xA0) = true ∧
      SteadyRegsBut s t []) ∧
  (∀ (s : State), s.Calm → s.paged = true → s.kiln.since = false → s.seq.prog ≠ some 1 → s.seq.railCopy = 1 →
      ∃ t, exec .railCounterSave s = .next t ∧
      t.seq.railCopy = 2 ∧
      t.seq.railB = (List.range 192).foldl (fun (m : NMap) j => m.set j (s.rd (railCounter (j / 6) (j % 6)))) [] ∧
      t.seq.railA = s.seq.railA ∧
      SameRegsBut s t [] ∧
      SameParts { s with seq := t.seq } t) ∧
  (∀ (s : State), s.Sound → s.paged = true → s.kiln.since = false → s.seq.prog ≠ some 1 →
      ∃ t, exec .railCounterSave s = .next t ∧
      (if s.seq.railCopy = 1 then t.seq.railB else t.seq.railA) = (List.range 192).foldl (fun (m : NMap) j => m.set j
        (s.rd (railCounter (j / 6) (j % 6)))) [] ∧
      (if s.seq.railCopy = 1 then t.seq.railA else t.seq.railB) = (if s.seq.railCopy = 1 then s.seq.railA else
        s.seq.railB) ∧
      t.seq.railCopy = (if s.seq.railCopy = 1 then 2 else 1) ∧
      t.dram.mem = s.dram.mem ∧
      SteadyRegsBut s t []) ∧
  (∀ (s : State) (who : Requester), s.Calm → s.mayRead who 0xA1 = true →
      ∃ t, exec (.sqpDataAccess who none) s = .next t ∧
      t.out = [.regData who (s.seq.staged.get (s.rd R.SQP_ADDR))] ∧
      t.rd R.SQP_ADDR = (s.rd R.SQP_ADDR + 1) % 1024 ∧
      t.seq = s.seq ∧
      SameRegsBut s t [R.SQP_ADDR] ∧
      SameParts { s with staged := t.staged } t) ∧
  (∀ (s : State) (who : Requester) (v : Nat), s.Calm → s.Writable who 0xA1 → (s.flag (R.COMMIT_PENDING 0xA1) = false ∨
    s.seq.staged.get (s.rd R.SQP_ADDR) = v) → v < 2 ^ 32 →
      ∃ t, exec (.sqpDataAccess who (some v)) s = .next t ∧
      t.seq.staged = s.seq.staged.set (s.rd R.SQP_ADDR) v ∧
      t.rd R.SQP_ADDR = (s.rd R.SQP_ADDR + 1) % 1024 ∧
      t.seq.store = s.seq.store ∧
      SameRegsBut s t [R.SQP_ADDR] ∧
      SameParts { s with staged := t.staged, seq := t.seq } t) ∧
  (∀ (s : State) (who : Requester) (v : Nat), s.Sound → s.Writable who 0xA1 → s.flag (R.COMMIT_PENDING 0xA1) = true →
    s.seq.staged.get (s.rd R.SQP_ADDR) ≠ v % 2 ^ 32 →
      ∃ t, exec (.sqpDataAccess who (some v)) s = .next t ∧
      t.flag (R.CFG_REJECT 0xA1) = true ∧
      (t.seq.staged = s.seq.staged ∨ t.kiln.since = true) ∧
      t.rd R.SQP_ADDR = s.rd R.SQP_ADDR) ∧
  (∀ (s : State) (ms : Nat), s.Calm → s.RecordsOpen → s.paged = true → s.seq.held4 = false → ms < 1000 →
      ∃ t, exec (.mrNPressRelease ms) s = .next t ∧
      t.rd R.SEQ_MRN_SHORT = min 255 (s.rd R.SEQ_MRN_SHORT + 1) ∧
      t.flag R.SEQ_MRN_LEVEL = true ∧
      t.seq.press = false ∧
      t.power = s.power) ∧
  (∀ (s : State) (ms : Nat), s.Sound → s.paged = true →
      ∃ t, exec (.mrNPressRelease ms) s = .next t ∧
      t.seq.press = false ∧
      t.seq.held4 = false ∧
      t.seq.held12 = false ∧
      t.flag R.SEQ_MRN_LEVEL = true ∧
      t.rd R.SEQ_MRN_SHORT = (if s.seq.held4 = false ∧ ms < 1000 then min 255 (s.rd R.SEQ_MRN_SHORT + 1) else s.rd
        R.SEQ_MRN_SHORT) ∧
      t.power.life = s.power.life ∧
      t.dram.mem = s.dram.mem ∧
      SteadyRegsBut s t []) ∧
  (∀ (s : State) (ms : Nat), s.Sound → (s.power.life = .off ∧ s.seq.forcedOff = false ∨ s.power.life = .dormant ∨
    s.power.life = .off ∧ ms < 1000) → s.power.mainGood = true → s.seq.held4 = false → ms < 4000 →
      ∃ t, exec (.mrNPressRelease ms) s = .next t ∧
      t.power.life = .starting ∧
      t.power.runSteps = [1] ∧
      t.rd R.SNT_LAST_WAKE_SOURCE = 1 ∧
      t.seq.press = false) ∧
  (∀ (s : State), s.Calm → s.RecordsOpen → s.paged = true → s.seq.held4 = false → s.inKiln = false → s.flag
    R.KLN_TRIG_MRN_EN = false →
      ∃ t, exec .mrNHold4s s = .next t ∧
      t.rd R.SEQ_MRN_HOLD4 = min 255 (s.rd R.SEQ_MRN_HOLD4 + 1) ∧
      t.seq.held4 = true ∧
      t.flag R.SEQ_MRN_LEVEL = false ∧
      t.rd R.KLN_STAT_STATE = s.rd R.KLN_STAT_STATE ∧
      SameRegsBut s t (tlogRegs ++ [R.SEQ_MRN_LEVEL, R.SEQ_MRN_HOLD4]) ∧
      SameParts { s with recs := t.recs, seq := t.seq } t) ∧
  (∀ (s : State), s.Sound → s.seq.held4 = false →
      ∃ t, exec .mrNHold4s s = .next t ∧
      t.rd R.SEQ_MRN_HOLD4 = min 255 (s.rd R.SEQ_MRN_HOLD4 + 1) ∧
      t.seq.held4 = true ∧
      t.flag R.SEQ_MRN_LEVEL = false ∧
      t.dram.mem = s.dram.mem ∧
      (s.paged = false ∨ s.inKiln = false ∨ t.rd R.KLN_IGNORED = min 65535 (s.rd R.KLN_IGNORED + 1)) ∧
      (s.paged = false ∨ s.inKiln = true ∨ s.flag R.KLN_TRIG_MRN_EN = false ∨ s.kilnLive = false ∨ t.kiln.since = true)) ∧
  (∀ (s : State), s.Sound → s.seq.held12 = false →
      ∃ t, exec .forceOff s = .next t ∧
      t.bit (R.FLT_STAT 0xA0) 11 = true ∧
      SteadyRegsBut s t rankPowerRegs) ∧
  (∀ (s : State), s.Sound → s.seq.held12 = false →
      ∃ t, exec .forceOff s = .next t ∧
      t.seq.held12 = true ∧
      t.seq.forcedOff = true ∧
      t.power.life = .off ∧
      t.rd R.PWR_STAT_STATE = 4 ∧
      t.packA.pathOn = false ∧
      t.packB.pathOn = false ∧
      (s.paged = false ∨ t.rd R.SEQ_EN &&& mainMask = 0))

/-! ## Power states, starts, the island -/

/-- R429, R430, R431, R432, R433, Tables 15-1 and 15-2: a dwell that is met leads into P1 or P2, an exit event leads back to P0,
the exit is measured; the patrol takes the device out of P2; `PERST_N` and the timer start a dormant device, which loses P3
with `MAIN_IN`. -/
def Obligations.RestIsEnteredAndLeft : Prop :=
  (∀ (s : State) (p1 p2 : Bool), s.Calm → s.power.life = .running → s.rd R.PWR_STAT_STATE = 0 → s.power.leaving = 0 →
    (s.dwelt (if p2 then 2 else if p1 then 1 else 0)).restBlock 1 = 0 → (s.dwelt (if p2 then 2 else if p1 then 1 else
    0)).restBlock 2 ≠ 0 → (s.variant.fabric = false ∨ s.srcFnn = 0x1FFF ∨ s.lsaSoon = true) →
      ∃ t, exec (.restDwellMet p1 p2) s = .next t ∧
      t.rd R.PWR_STAT_STATE = 1 ∧
      t.dram = s.dram ∧
      SameRegsBut s t (rankPowerRegs ++ [R.PWR_STAT_STATE, R.PWR_STAT_TARGET, R.PWR_STAT_BLOCK, R.PWR_TOL_EFF,
        R.PWR_ENTRIES_P1, R.PWR_ENTRIES_P2, R.SEQ_STAT_PENDING, R.SEQ_STAT_ACTIVE, R.SEQ_STAT_PROG, R.SEQ_STAT_STEP,
        R.SEQ_STAT_SYNC_SOLO, R.SEQ_STAT_SYNC_WAIT]) ∧
      SameParts { s with power := t.power, fabric := t.fabric } t) ∧
  (∀ (s : State) (p1 p2 : Bool), s.Calm → s.power.life = .running → s.rd R.PWR_STAT_STATE < 2 → s.power.leaving = 0 →
    (s.dwelt (if p2 then 2 else if p1 then 1 else 0)).restBlock 2 = 0 → (s.variant.fabric = false ∨ s.srcFnn = 0x1FFF ∨
    s.lsaSoon = true) →
      ∃ t, exec (.restDwellMet p1 p2) s = .next t ∧
      t.rd R.PWR_STAT_STATE = 2 ∧
      t.dram = s.dram ∧
      SameRegsBut s t (rankPowerRegs ++ [R.PWR_STAT_STATE, R.PWR_STAT_TARGET, R.PWR_TOL_EFF, R.PWR_ENTRIES_P2,
        R.PWR_STAT_BLOCK, R.PWR_ENTRIES_P1, R.SEQ_STAT_PENDING, R.SEQ_STAT_ACTIVE, R.SEQ_STAT_PROG, R.SEQ_STAT_STEP,
        R.SEQ_STAT_SYNC_SOLO, R.SEQ_STAT_SYNC_WAIT]) ∧
      SameParts { s with seq := t.seq, power := t.power, fabric := t.fabric } t) ∧
  (∀ (s : State) (p1 p2 : Bool), s.Sound → (s.power.life ≠ .running ∨ 2 ≤ s.rd R.PWR_STAT_STATE ∨ s.power.leaving ≠ 0 ∨
    ((s.dwelt (if p2 then 2 else if p1 then 1 else 0)).restBlock 1 ≠ 0 ∧ (s.dwelt (if p2 then 2 else if p1 then 1 else
    0)).restBlock 2 ≠ 0)) →
      ∃ t, exec (.restDwellMet p1 p2) s = .next t ∧
      t.power.life = s.power.life ∧
      t.dram.mem = s.dram.mem ∧
      SteadyRegsBut s t [R.PWR_TOL_EFF]) ∧
  (∀ (s : State), s.Calm → (s.rd R.PWR_STAT_STATE = 1 ∨ s.rd R.PWR_STAT_STATE = 2) → (s.variant.fabric = false ∨ s.srcFnn
    = 0x1FFF ∨ s.lsaSoon = true) →
      ∃ t, exec .restExitEvent s = .next t ∧
      t.rd R.PWR_STAT_STATE = 0 ∧
      t.power.leaving = s.rd R.PWR_STAT_STATE ∧
      t.dram = s.dram ∧
      SameRegsBut s t [R.PWR_STAT_STATE, R.SEQ_STAT_PENDING, R.SEQ_STAT_ACTIVE, R.SEQ_STAT_PROG, R.SEQ_STAT_STEP,
        R.SEQ_STAT_SYNC_SOLO, R.SEQ_STAT_SYNC_WAIT] ∧
      SameParts { s with seq := t.seq, power := t.power, fabric := t.fabric } t) ∧
  (∀ (s : State), s.Sound → (s.rd R.PWR_STAT_STATE = 1 ∨ s.rd R.PWR_STAT_STATE = 2) →
      ∃ t, exec .restExitEvent s = .next t ∧
      t.rd R.PWR_STAT_STATE = 0 ∧
      t.power.leaving = s.rd R.PWR_STAT_STATE ∧
      t.power.quiet = 0 ∧
      t.dram.mem = s.dram.mem) ∧
  (∀ (s : State) (us : Nat), s.Calm → s.power.leaving = 1 → s.restRuns = false → us ≤ 20 →
      ∃ t, exec (.restExitDone us) s = .next t ∧
      t.power.leaving = 0 ∧
      t.rd R.PWR_EXIT_P1_MAX_US = max (s.rd R.PWR_EXIT_P1_MAX_US) us ∧
      SameRegsBut s t [R.PWR_EXIT_P1_MAX_US] ∧
      SameParts { s with power := t.power, fabric := t.fabric } t) ∧
  (∀ (s : State) (us : Nat), s.Sound → s.power.leaving ≠ 0 → s.restRuns = false →
      ∃ t, exec (.restExitDone us) s = .next t ∧
      t.power.leaving = 0 ∧
      (s.power.leaving ≠ 1 ∨ t.rd R.PWR_EXIT_P1_MAX_US = max (s.rd R.PWR_EXIT_P1_MAX_US) (min us 255)) ∧
      (s.power.leaving = 1 ∨ t.rd R.PWR_EXIT_P2_MAX_US = max (s.rd R.PWR_EXIT_P2_MAX_US) (min us 65535)) ∧
      (us ≤ (if s.power.leaving = 1 then 20 else 2000) ∨ t.bit (R.FLT_STAT (srcPage 239 0)) (srcBit 239) = true) ∧
      t.dram.mem = s.dram.mem ∧
      SteadyRegsBut s t (rankPowerRegs ++ [R.PWR_EXIT_P1_MAX_US, R.PWR_EXIT_P2_MAX_US])) ∧
  (∀ (s : State), s.Sound → s.rd R.PWR_STAT_STATE = 2 →
      ∃ t, exec .patrolCatchup s = .next t ∧
      t.bit (R.FLT_STAT 0xD8) 2 = true ∧
      t.dram = s.dram ∧
      SteadyRegsBut s t []) ∧
  (∀ (s : State) (port : Nat), s.Calm → port < 2 → s.hasPort port = true → s.flag R.SNT_WAKE_EN_PERST = true →
    s.power.life = .dormant → s.power.mainGood = true →
      ∃ t, exec (.perstWake port) s = .next t ∧
      t.power.life = .starting ∧
      t.power.runSteps = [1] ∧
      t.rd R.SNT_LAST_WAKE_SOURCE = 3 ∧
      t.rd R.PWR_START_CAUSE = 2) ∧
  (∀ (s : State) (port : Nat), s.Sound → s.hasPort port = true →
      ∃ t, exec (.perstWake port) s = .next t ∧
      (t.host port).perstN = true ∧
      (s.flag R.SNT_WAKE_EN_PERST = true ∨ t.power.life = s.power.life)) ∧
  (∀ (s : State), s.Calm → s.flag R.SNT_WAKE_EN_TIMER = true → s.rd R.SNT_WAKE_AT ≤ s.rd R.SNT_RTC % 2 ^ 32 →
    s.power.life = .dormant → s.power.mainGood = true →
      ∃ t, exec .timerWake s = .next t ∧
      t.power.life = .starting ∧
      t.power.runSteps = [1] ∧
      t.rd R.SNT_LAST_WAKE_SOURCE = 4 ∧
      t.rd R.PWR_START_CAUSE = 2) ∧
  (∀ (s : State), s.Sound → s.flag R.SNT_WAKE_EN_TIMER = true → s.rd R.SNT_WAKE_AT ≤ s.rd R.SNT_RTC % 2 ^ 32 →
    (s.power.life = .off ∨ s.power.life = .starting ∨ s.power.life = .failed ∨ s.power.life = .goingDown) →
      ∃ t, exec .timerWake s = .next t ∧
      t.rd R.SNT_LAST_WAKE_IGNORED = min 65535 (s.rd R.SNT_LAST_WAKE_IGNORED + 1) ∧
      t.power.life = s.power.life ∧
      SteadyRegsBut s t [R.SNT_LAST_WAKE_IGNORED]) ∧
  (∀ (s : State), s.Sound → s.power.life = .dormant →
      ∃ t, exec .mainInLostP3 s = .next t ∧
      t.power.life = .off ∧
      t.rd R.PWR_STAT_STATE = 4 ∧
      t.power.mainGood = false ∧
      t.packA.pathOn = false ∧
      t.packB.pathOn = false)

/-- R21, R22, R24, R25, R437, R438, R439, R440: a start that takes 60 s fails and is tried again, the Sentinel's controls act,
the island takes its first supply, an island without power has lost everything, and a clock that leaves its setting is a
condition until it is back. -/
def Obligations.FailedStartsAndTheIslandAreKept : Prop :=
  (∀ (s : State), s.Sound → s.power.life = .starting → s.rd R.STP_STAT_HOLD = 0 → s.power.runSteps.headD 1 < 16 →
      ∃ t, exec .startTimeout s = .next t ∧
      t.rd R.SNT_FAILS_LAST_STEP = s.power.runSteps.headD 1 ∧
      t.rd R.SNT_FAILS_LAST_CAUSE = 242 ∧
      t.bit (R.FLT_STAT 0xD8) 3 = true ∧
      SteadyRegsBut s t startFailRegs) ∧
  (∀ (s : State), s.Calm → s.power.life = .failed → s.power.mainGood = true → s.seq.prog = none → s.seq.due.contains 1 =
    false →
      ∃ t, exec .startRetry s = .next t ∧
      t.power.life = .starting ∧
      t.power.runSteps = [1] ∧
      t.rd R.PWR_START_CAUSE = 4) ∧
  (∀ (s : State) (who : Requester), s.Sound → s.Writable who 0xE0 →
      ∃ t, exec (.forceCold who) s = .next t ∧
      t.flag R.SNT_CTRL_FORCE_COLD = true ∧
      t.rd R.SNT_FAILS_COLD = s.rd R.SNT_FAILS_COLD ∧
      SteadyRegsBut s t [R.SNT_CTRL_FORCE_COLD]) ∧
  (∀ (s : State) (who : Requester), s.Sound → s.Writable who 0xE0 → s.maint.isOpen = true →
      ∃ t, exec (.clearFails who) s = .next t ∧
      t.rd R.SNT_FAILS_WARM = 0 ∧
      t.rd R.SNT_FAILS_COLD = 0 ∧
      t.rd R.SNT_FAILS_RECOVERY = s.rd R.SNT_FAILS_RECOVERY ∧
      SteadyRegsBut s t [R.SNT_FAILS_COLD, R.SNT_FAILS_WARM]) ∧
  (∀ (s : State) (who : Requester), s.Sound → s.Writable who 0xE0 → s.maint.isOpen = true → s.flag R.SNT_FAILS_RECOVERY =
    true → s.power.life ≠ .recovery →
      ∃ t, exec (.clearRecovery who) s = .next t ∧
      t.flag R.SNT_FAILS_RECOVERY = false ∧
      t.flag R.SNT_CTRL_FORCE_COLD = true ∧
      t.rd R.SNT_FAILS_COLD = 0 ∧
      SteadyRegsBut s t (startFailRegs ++ [R.SNT_CTRL_FORCE_COLD])) ∧
  (∀ (s : State) (who : Requester), s.Sound → s.Writable who 0xE0 → s.maint.isOpen = true → s.flag R.SNT_FAILS_RECOVERY =
    true → s.power.life = .recovery →
      ∃ t, exec (.clearRecovery who) s = .next t ∧
      t.power.life = .starting ∧
      t.power.runSteps = [1] ∧
      t.flag R.SNT_FAILS_RECOVERY = false ∧
      t.flag R.SNT_CTRL_FORCE_COLD = true ∧
      t.rd R.SNT_FAILS_COLD = 0) ∧
  (∀ (s : State) (who : Requester), s.Sound → s.Writable who 0xE0 → s.maint.isOpen = false →
      ∃ t, exec (.clearFails who) s = .next t ∧
      t.rd R.SNT_FAILS_COLD = s.rd R.SNT_FAILS_COLD ∧
      t.flag (R.CFG_REJECT 0xE0) = true ∧
      SteadyRegsBut s t []) ∧
  (∀ (s : State) (src k : Nat) (on : Bool), s.Sound → hasSource s.variant src = true → s.power.sources.testBit src ≠ on →
    (List.range 7).find? (fun i => (s.power.sources ^^^ 2 ^ src).testBit i) = some k → k ≠ s.rd R.SNT_CTX_SUPPLY →
      ∃ t, exec (.islandSupplyChange src on) s = .next t ∧
      t.rd R.SNT_CTX_SUPPLY = k ∧
      t.rd R.SNT_CTX_SUPPLY_CHANGES = min 65535 (s.rd R.SNT_CTX_SUPPLY_CHANGES + 1) ∧
      t.dram = s.dram ∧
      SteadyRegsBut s t [R.SNT_CTX_SUPPLY, R.SNT_CTX_SUPPLY_CHANGES, R.SNT_ISLAND_AUX_OK]) ∧
  (∀ (s : State) (src : Nat) (on : Bool), s.Sound → hasSource s.variant src = true →
      ∃ t, exec (.islandSupplyChange src on) s = .next t ∧
      t.power.sources.testBit src = on ∧
      t.dram.mem = s.dram.mem ∧
      SteadyRegsBut s t [R.SNT_CTX_SUPPLY, R.SNT_CTX_SUPPLY_CHANGES, R.SNT_ISLAND_AUX_OK]) ∧
  (∀ (s : State), s.Sound →
      ∃ t, exec .islandPowerOn s = .next t ∧
      t.power.life = .off ∧
      t.rd R.PWR_STAT_STATE = 4 ∧
      t.rd R.SEQ_EN = 0 ∧
      t.dram.mem = [] ∧
      t.rd R.SNT_RTC = 0) ∧
  (∀ (s : State) (d : Nat), s.Sound → 3 ≤ d → d ≤ 24 → s.badClocks.contains d = false → (clockFaultSrcs s.variant
    d).isEmpty = false →
      ∃ t, exec (.clockFault d) s = .next t ∧
      t.badClocks = s.badClocks ++ [d] ∧
      (clockFaultSrcs s.variant d).all (fun x => t.bit (R.FLT_STAT (srcPage x.1 x.2)) (srcBit x.1)) = true ∧
      SteadyRegsBut s t []) ∧
  (∀ (s : State) (d : Nat), s.Calm → s.badClocks.contains d = true →
      ∃ t, exec (.clockBackInTolerance d) s = .next t ∧
      t.badClocks = s.badClocks.filter (fun k => k != d) ∧
      SameRegsBut s t [] ∧
      SameParts { s with badClocks := t.badClocks } t) ∧
  (∀ (s : State) (d : Nat), s.Sound → s.badClocks.contains d = true →
      ∃ t, exec (.clockBackInTolerance d) s = .next t ∧
      t.badClocks = s.badClocks.filter (fun k => k != d) ∧
      SteadyRegsBut s t []) ∧
  (∀ (s : State), s.Calm → s.paged = true →
      ∃ t, exec .xtal25Lost s = .next t ∧
      t.flag R.SEQ_STAT_RC_CLOCK = true ∧
      SameRegsBut s t [R.SEQ_STAT_RC_CLOCK] ∧
      SameParts s t) ∧
  (∀ (s : State), s.Sound → s.paged = true →
      ∃ t, exec .xtal25Lost s = .next t ∧
      t.flag R.SEQ_STAT_RC_CLOCK = true ∧
      SteadyRegsBut s t [])

/-! ## Starts, step by step -/

/-- R435, R438, R539, Table 15-5: a device that is off starts once `MAIN_IN` has held; a boot step that ends is recorded with
its time and lets the next steps run; one that fails ends the start; the last leaves the device running in P0 with the steep
in ST2. -/
def Obligations.AStartGoesStepByStep : Prop :=
  (∀ (s : State), s.Calm → s.power.life = .off → s.seq.forcedOff = false → s.power.cause < 8 →
      ∃ t, exec .mainInStable s = .next t ∧
      t.power.life = .starting ∧
      t.power.mainGood = true ∧
      t.power.runSteps = [1] ∧
      t.power.doneSteps = [] ∧
      t.rd R.PWR_START_CAUSE = s.power.cause ∧
      t.dram.mem = []) ∧
  (∀ (s : State) (ms cause : Nat), s.Calm → s.power.life = .starting → s.power.runSteps.contains 3 = true → ms < 65536 →
    s.recs.used.get 0x0103 < s.tlogRate →
      ∃ t, exec (.bootStepDone 3 true cause ms {}) s = .next t ∧
      t.rd R.PWR_START_STEP = 3 ∧
      t.rd (R.PWR_STEP_MS_ODD 1) = ms ∧
      t.power.doneSteps = 3 :: s.power.doneSteps ∧
      t.power.runSteps = s.power.runSteps.filter (fun k => k != 3) ++ [4]) ∧
  (∀ (s : State) (n cause ms : Nat) (ok : Bool) (f : BootFound), s.Sound → s.power.life = .starting →
    s.power.runSteps.contains n = true → ((ok = true ∧ (n = 3 ∨ n = 5 ∨ n = 8)) ∨ n = 6 ∨ n = 7 ∨ n = 9) →
      ∃ t, exec (.bootStepDone n ok cause ms f) s = .next t ∧
      t.rd R.PWR_START_STEP = n ∧
      (if n % 2 = 1 then t.rd (R.PWR_STEP_MS_ODD (n / 2)) else t.rd (R.PWR_STEP_MS_EVEN (n / 2 - 1))) = min ms 65535 ∧
      t.power.doneSteps = n :: s.power.doneSteps ∧
      t.power.runSteps = s.power.runSteps.filter (fun k => k != n) ++ stepsAfter s.variant.fabric (n ::
        s.power.doneSteps) n) ∧
  (∀ (s : State) (cause ms : Nat) (f : BootFound), s.Sound → s.power.life = .starting → s.power.runSteps.contains 1 =
    true → s.seqBusy 0 = false → s.seqBusy 7 = false →
      ∃ t, exec (.bootStepDone 1 true cause ms f) s = .next t ∧
      t.rd R.PWR_START_STEP = 1 ∧
      t.rd (R.PWR_STEP_MS_ODD 0) = min ms 65535 ∧
      t.power.doneSteps = 1 :: s.power.doneSteps) ∧
  (∀ (s : State) (cause ms : Nat) (f : BootFound), s.Sound → s.power.life = .starting → s.power.runSteps.contains 2 =
    true → s.flag R.SNT_FAILS_RECOVERY = false →
      ∃ t, exec (.bootStepDone 2 true cause ms f) s = .next t ∧
      t.rd R.PWR_START_STEP = 2 ∧
      t.rd (R.PWR_STEP_MS_EVEN 0) = min ms 65535 ∧
      t.power.doneSteps = 2 :: s.power.doneSteps ∧
      t.rd R.SNT_CTX_VALID = b2n (s.power.ctxOk && f.crcOk) ∧
      t.power.warm = (s.power.ctxOk && f.crcOk && f.layoutOk && !s.flag R.SNT_CTRL_FORCE_COLD && decide (s.rd
        R.SNT_FAILS_WARM < 3)) ∧
      t.rd R.PWR_START_KIND = b2n t.power.warm) ∧
  (∀ (s : State) (cause ms : Nat) (f : BootFound), s.Sound → s.power.life = .starting → s.power.runSteps.contains 4 =
    true → f.bank0Ok = true → f.bank1Ok = true →
      ∃ t, exec (.bootStepDone 4 true cause ms f) s = .next t ∧
      t.rd R.PWR_START_STEP = 4 ∧
      t.rd (R.PWR_STEP_MS_EVEN 1) = min ms 65535 ∧
      t.power.doneSteps = 4 :: s.power.doneSteps) ∧
  (∀ (s : State) (cause ms : Nat) (f : BootFound), s.Sound → s.power.life = .starting → s.power.runSteps.contains 10 =
    true → s.flag R.CRY_STAT_KEY_VALID = true → f.katOk = true → f.fields = [] →
      ∃ t, exec (.bootStepDone 10 true cause ms f) s = .next t ∧
      t.rd R.PWR_START_STEP = 10 ∧
      t.rd (R.PWR_STEP_MS_EVEN 4) = min ms 65535 ∧
      t.power.doneSteps = 10 :: s.power.doneSteps) ∧
  (∀ (s : State) (cause ms : Nat) (f : BootFound), s.Sound → s.power.life = .starting → s.power.runSteps.contains 11 =
    true → s.seqBusy 3 = false → s.rd R.STP_STAT_HOLD = 4 → s.cellar.chain.length < 8 →
      ∃ t, exec (.bootStepDone 11 true cause ms f) s = .next t ∧
      t.rd R.STP_STAT_HOLD = 0 ∧
      t.rd R.PWR_START_STEP = 11 ∧
      t.rd (R.PWR_STEP_MS_ODD 5) = min ms 65535 ∧
      t.power.doneSteps = 11 :: s.power.doneSteps) ∧
  (∀ (s : State) (n ms cause : Nat), s.Sound → s.power.life = .starting → s.power.runSteps.contains n = true → (n = 3 ∨ n
    = 4 ∨ n = 5 ∨ n = 8 ∨ n = 10 ∨ n = 12) → cause < 256 →
      ∃ t, exec (.bootStepDone n false cause ms {}) s = .next t ∧
      t.bit (R.FLT_STAT 0xD8) 3 = true ∧
      t.rd R.SNT_FAILS_LAST_STEP = n ∧
      t.rd R.SNT_FAILS_LAST_CAUSE = cause ∧
      SteadyRegsBut s t startFailRegs) ∧
  (∀ (s : State) (ms : Nat), s.Calm → s.RecordsOpen → s.power.life = .starting → s.power.runSteps.contains 12 = true →
    s.rd R.PWR_START_KIND = 1 → s.flag R.KLN_CTRL_ARM = true → s.cal.deferred = false → 0 < s.rd R.CAP_HOST →
    s.variant.fabric = false → s.flag R.PHS_STAT_EW = false → s.power.belowWarn = false → s.rd R.CEL_UNPOW = 1 →
      ∃ t, exec (.bootStepDone 12 true 0 ms { readyMs := 2000 }) s = .next t ∧
      t.power.life = .running ∧
      t.rd R.STP_STAT_PHASE = 2 ∧
      t.rd R.PWR_STAT_STATE = 0 ∧
      t.rd R.KLN_STAT_STATE = 1 ∧
      t.steep.unfilled = RSet.add [] 0 (s.rd R.CAP_HOST))

/-! ## Safety, records, calibration -/

/-- R454, R457, R458, R459, R460: the running reaction ends, the quiet time releases every severe source and leaves the manager
Normal, an event source is released, `ERR_N` is read back and tested, and the history is armed again. -/
def Obligations.ReactionsEndAndSourcesAreReleased : Prop :=
  (∀ (s : State) (src sev : Nat) (l : List (Nat × Nat)), s.Calm → s.RecordsOpen → s.runs .safety = true → s.safe.stack =
    (src, sev) :: l → [1, 2, 3, 4].all (fun n => watchdogSrc n != src) = true → s.held = [] →
      ∃ t, exec .reactionDone s = .next t ∧
      t.safe.stack = l ∧
      t.safe.reports = s.safe.reports.filter (fun r => r.src != src) ∧
      t.rd R.SAF_STAT_DEPTH = l.length % 8) ∧
  (∀ (s : State) (src sev : Nat) (l : List (Nat × Nat)), s.Sound → s.runs .safety = true → s.safe.stack = (src, sev) :: l
    → s.held = [] →
      ∃ t, exec .reactionDone s = .next t ∧
      t.safe.reports.all (fun r => r.src != src || s.safe.active.any (fun a => a.src == src)) = true ∧
      t.dram.mem = s.dram.mem ∧
      SteadyRegsBut s t []) ∧
  (∀ (s : State), s.Sound → s.runs .safety = false → s.paged = true → (s.condAny 183 = true ∨ s.condAny 184 = true) →
    s.held = [] →
      ∃ t, exec .reactionDone s = .next t ∧
      t.halted.contains 5 = false ∧
      t.rd R.SAF_RESTARTS_SAFETY = min 255 (s.rd R.SAF_RESTARTS_SAFETY + 1) ∧
      t.dram.mem = s.dram.mem ∧
      SteadyRegsBut s t []) ∧
  (∀ (s : State), s.Sound → s.RecordsOpen → s.rd R.SAF_STAT_STATE = 2 → s.rd R.SAF_QUIET_LEFT = 0 → s.kiln.since = false
    →
      ∃ t, exec .quietExpired s = .next t ∧
      t.rd R.SAF_STAT_STATE = 0 ∧
      t.safe.active.all (fun a => decide (a.sev < 2)) = true ∧
      SteadyRegsBut s t []) ∧
  (∀ (s : State), s.Sound → s.rd R.SAF_STAT_STATE = 2 → s.rd R.SAF_QUIET_LEFT = 0 → s.kiln.since = false →
      ∃ t, exec .quietExpired s = .next t ∧
      t.rd R.SAF_RECOVERIES = min 0xFFFFFFFF (s.rd R.SAF_RECOVERIES + 1) ∧
      t.dram.mem = s.dram.mem ∧
      SteadyRegsBut s t []) ∧
  (∀ (s : State) (src : Nat), s.Sound → condSrcs.contains src = false → s.safe.active.all (fun a => a.src != src ||
    !sticky a.act) = true →
      ∃ t, exec (.eventSourceRelease src) s = .next t ∧
      t.safe.active.any (fun a => a.src == src && decide (a.sev < 2)) = false ∧
      SteadyRegsBut s t []) ∧
  (∀ (s : State) (src : Nat), s.Sound →
      ∃ t, exec (.eventSourceRelease src) s = .next t ∧
      t.safe.active.all (fun a => !(a.src == src && decide (a.sev < 2) && !condSrcs.contains src && !sticky a.act)) =
        true ∧
      t.dram.mem = s.dram.mem ∧
      SteadyRegsBut s t []) ∧
  (∀ (s : State) (low : Bool), s.Calm → s.paged = true → low = s.flag R.SAF_STAT_ERRN_DRIVE →
      ∃ t, exec (.errnReadback low) s = .next t ∧
      t.rd R.SAF_STAT_ERRN_PIN = b2n (!low) ∧
      t.safe.readbackRun = 0 ∧
      SameRegsBut s t [R.SAF_CTRL_ERRN_TEST, R.SAF_STAT_ERRN_PIN] ∧
      SameParts s t) ∧
  (∀ (s : State) (low : Bool), s.Sound → s.paged = true →
      ∃ t, exec (.errnReadback low) s = .next t ∧
      t.rd R.SAF_STAT_ERRN_PIN = b2n (!low) ∧
      t.safe.readbackRun = (if low = s.flag R.SAF_STAT_ERRN_DRIVE then 0 else (s.safe.readbackRun + 1) % 3) ∧
      t.safe.errnTest = s.safe.errnTest - 1 ∧
      (low = s.flag R.SAF_STAT_ERRN_DRIVE ∨ s.safe.readbackRun ≠ 2 ∨ t.bit (R.FLT_STAT 0xC0) 11 = true) ∧
      SteadyRegsBut s t []) ∧
  (∀ (s : State) (low : Bool), s.Sound → s.paged = true → low ≠ s.flag R.SAF_STAT_ERRN_DRIVE → s.safe.readbackRun = 2 →
      ∃ t, exec (.errnReadback low) s = .next t ∧
      t.bit (R.FLT_STAT 0xC0) 11 = true ∧
      SteadyRegsBut s t []) ∧
  (∀ (s : State) (who : Requester), s.Calm → s.Writable who 0xC0 → s.maint.isOpen = true →
      ∃ t, exec (.errnTest who) s = .next t ∧
      t.safe.errnTest = 10 ∧
      t.flag R.SAF_CTRL_ERRN_TEST = true ∧
      t.flag R.SAF_STAT_ERRN_DRIVE = true ∧
      SameRegsBut s t [R.SAF_CTRL_ERRN_TEST] ∧
      SameParts s t) ∧
  (∀ (s : State) (who : Requester), s.Sound → s.Writable who 0xC0 → s.maint.isOpen = true →
      ∃ t, exec (.errnTest who) s = .next t ∧
      t.safe.errnTest = 10 ∧
      t.flag R.SAF_CTRL_ERRN_TEST = true ∧
      t.dram.mem = s.dram.mem ∧
      SteadyRegsBut s t []) ∧
  (∀ (s : State) (who : Requester), s.Calm → s.Writable who 0xC0 →
      ∃ t, exec (.histRearm who) s = .next t ∧
      t.safe.first = none ∧
      t.safe.hist = [] ∧
      t.rd R.SAF_HIST_COUNT = 0 ∧
      t.flag R.SAF_STAT_FIRST_VALID = false ∧
      SameRegsBut s t [R.SAF_HIST_LOST] ∧
      SameParts s t) ∧
  (∀ (s : State) (who : Requester), s.Sound → s.Writable who 0xC0 →
      ∃ t, exec (.histRearm who) s = .next t ∧
      (t.rd R.SAF_HIST_LOST = 0 ∨ t.safe.hist.length = 16) ∧
      t.dram.mem = s.dram.mem ∧
      SteadyRegsBut s t [])

/-- R450, R461, R465, R498, R499, Table 16-10: an injection that is not seen, a SAFETY pair that disagrees and a processor whose
watchdog expires latch; the comparator test marks the active slice, and its failure latches. -/
def Obligations.ProcessorsAndComparatorsAreWatched : Prop :=
  (∀ (s : State) (src inst : Nat), s.Sound → s.injWaits src inst = true →
      ∃ t, exec (.injectionTimeout src inst) s = .next t ∧
      t.bit (R.FLT_STAT 0xC0) 10 = true ∧
      SteadyRegsBut s t []) ∧
  (∀ (s : State), s.Sound → s.runs .safety = true → s.held = [] →
      ∃ t, exec .lockstepMismatch s = .next t ∧
      t.bit (R.FLT_STAT 0xC0) 0 = true ∧
      SteadyRegsBut s t []) ∧
  (∀ (s : State) (n : Nat), s.Sound → 0 < n → n < 6 → s.present n = true → s.halted.contains n = false → s.paged = true →
    s.held = [] →
      ∃ t, exec (.watchdogExpiry n) s = .next t ∧
      t.bit (R.FLT_STAT 0xC0) (srcBit (watchdogSrc n)) = true ∧
      SteadyRegsBut s t startFailRegs) ∧
  (∀ (s : State), s.Sound → s.paged = true → s.inWindow = true → s.safe.injWait = [] → s.rd (R.MON_CMP_STAT_FAILED 0) = 0
    → s.rd (R.MON_CMP_STAT_FAILED 1) = 0 → s.rd (R.MON_CMP_STAT_FAILED 2) = 0 →
      ∃ t, exec (.comparatorTest true true) s = .next t ∧
      t.bit (R.MON_CMP_STAT_PASS 0) (s.rd (R.MON_CMP_STAT_ACTIVE 0)) = true ∧
      t.rd (R.MON_CMP_STAT_FAILED 0) = 0 ∧
      t.rd (R.MON_CMP_STAT_ACTIVE 0) = s.rd (R.MON_CMP_STAT_ACTIVE 0)) ∧
  (∀ (s : State) (okOther : Bool), s.Sound → s.paged = true → s.inWindow = true → s.safe.injWait = [] →
      ∃ t, exec (.comparatorTest false okOther) s = .next t ∧
      t.bit (R.FLT_STAT 0xB8) 0 = true) ∧
  (∀ (s : State) (ok okOther : Bool), s.Sound → s.paged = true → s.inWindow = true →
      ∃ t, exec (.comparatorTest ok okOther) s = .next t ∧
      t.cal.rotation = (s.cal.rotation + 1) % 11 ∧
      (t.bit (R.MON_CMP_STAT_PASS 0) (s.rd (R.MON_CMP_STAT_ACTIVE 0)) = ok ∨ s.otherSlices.getD s.cal.rotation (0, 0) =
        (0, s.rd (R.MON_CMP_STAT_ACTIVE 0))) ∧
      (t.bit (R.MON_CMP_STAT_FAILED 0) (s.rd (R.MON_CMP_STAT_ACTIVE 0)) = !ok ∨ s.otherSlices.getD s.cal.rotation (0, 0)
        = (0, s.rd (R.MON_CMP_STAT_ACTIVE 0))) ∧
      ((ok = true ∧ okOther = true) ∨ t.bit (R.FLT_STAT 0xB8) 0 = true) ∧
      t.dram.mem = s.dram.mem) ∧
  (∀ (s : State) (ok okOther : Bool), s.Sound → (s.paged = false ∨ s.inWindow = false) →
      ∃ t, exec (.comparatorTest ok okOther) s = .next t ∧
      t.cal = s.cal ∧
      SteadyRegsBut s t [])

/-- R470, R477, R479, Tables 17-4 and 17-7: codes held back are summed up in the trouble log, a clear under maintenance access
is logged, a flush takes an image of the recorder and its end makes that image the copy. -/
def Obligations.RecordsAreKeptAndCleared : Prop :=
  (∀ (s : State), s.Calm → s.recs.held ≠ [] →
      ∃ t, exec .tlogRateSummary s = .next t ∧
      t.recs.held = [] ∧
      t.recs.nextSeq = s.recs.nextSeq + s.recs.held.length ∧
      t.recs.slots = s.recs.slots ∧
      SameRegsBut s t tlogRegs ∧
      SameParts { s with recs := t.recs } t) ∧
  (∀ (s : State), s.Sound →
      ∃ t, exec .tlogRateSummary s = .next t ∧
      t.recs.slots = s.recs.slots ∧
      t.dram = s.dram ∧
      SteadyRegsBut s t []) ∧
  (∀ (s : State) (who : Requester), s.Sound → s.Writable who 0xC8 → s.maint.isOpen = true →
      ∃ t, exec (.tlgClear who) s = .next t ∧
      t.bit (R.FLT_STAT 0xC8) 3 = true ∧
      SteadyRegsBut s t []) ∧
  (∀ (s : State) (who : Requester), s.Sound → s.Writable who 0xC8 → s.maint.isOpen = false →
      ∃ t, exec (.tlgClear who) s = .next t ∧
      t.flag (R.CFG_REJECT 0xC8) = true ∧
      min 4096 s.recs.live.length ≤ t.recs.live.length ∧
      SteadyRegsBut s t []) ∧
  (∀ (s : State) (who : Requester), s.Sound → s.Writable who 0xC9 → s.maint.isOpen = true → s.recs.writing = 0 →
      ∃ t, exec (.recClear who) s = .next t ∧
      t.bit (R.FLT_STAT 0xC9) 7 = true ∧
      t.flag R.REC_STAT_FLUSHING = true ∧
      SteadyRegsBut s t [R.REC_CTRL_CLEAR, R.REC_STAT_FLUSHING, R.REC_USED_HIST, R.REC_SLOT_SEQ, R.REC_SLOT_PEND,
        R.REC_UNREC, R.REC_USED_EXT, R.REC_SLOT_SUPP, R.REC_SLOT_FIRST, R.REC_SLOT_CODE_CODE, R.REC_SLOT_FIRST_PC,
        R.REC_SLOT_CODE_VALID]) ∧
  (∀ (s : State) (who : Requester), s.Sound → s.Writable who 0xC9 → s.maint.isOpen = true → s.recs.writing ≠ 0 →
      ∃ t, exec (.recClear who) s = .next t ∧
      t.recs.clearWaits = true ∧
      t.recs.slots = s.recs.slots ∧
      t.flag R.REC_CTRL_CLEAR = true ∧
      SteadyRegsBut s t [R.REC_CTRL_CLEAR]) ∧
  (∀ (s : State), s.Calm → s.inKiln = false → s.paged = true → s.recs.writing = 0 →
      ∃ t, exec (.recFlush none) s = .next t ∧
      t.flag R.REC_STAT_FLUSHING = true ∧
      t.recs.image = some
        { flushSeq := s.rd R.REC_FLUSH_SEQ + 1, opsec := s.opsec, pcycles := s.rd R.PHS_PCYCLES, slots := s.recs.slots, unrec := s.rd R.REC_UNREC, sealed := caskBatch (newerCask s.cellar.slot0 s.cellar.slot1), wear := ofField R.WTH_BUCKET.width (s.rd R.WTH_BUCKET), lifeDays := s.rd R.WTH_WEAR_CTRL_LIFE_DAYS, valid := true } ∧
      t.recs.writing ≠ 0 ∧
      SameRegsBut s t [R.REC_STAT_FLUSHING] ∧
      SameParts { s with recs := t.recs } t) ∧
  (∀ (s : State) (who : Requester), s.Sound → s.Writable who 0xC9 →
      ∃ t, exec (.recFlush (some who)) s = .next t ∧
      ((s.inKiln ∧ 3 ≤ s.kilnPhase ∧ ¬ s.kiln.sealed) ∨ t.flag R.REC_CTRL_FLUSH = true) ∧
      ((s.inKiln ∧ 3 ≤ s.kilnPhase ∧ ¬ s.kiln.sealed) ∨ t.recs.writing ≠ 0) ∧
      t.recs.slots = s.recs.slots ∧
      SteadyRegsBut s t [R.REC_CTRL_FLUSH, R.REC_STAT_FLUSHING]) ∧
  (∀ (s : State) (i : RecImage), s.Calm → s.recs.writing = 1 → s.recs.image = some i → s.recs.clearWaits = false →
      ∃ t, exec (.recFlushDone true) s = .next t ∧
      t.recs.copyA = some i ∧
      t.recs.copyB = s.recs.copyB ∧
      t.recs.writing = 0 ∧
      t.flag R.REC_STAT_FLUSHING = false ∧
      t.rd R.REC_FLUSH_SEQ = i.flushSeq % 2 ^ 32 ∧
      SameRegsBut s t [R.REC_CTRL_FLUSH, R.REC_CTRL_CLEAR, R.REC_STAT_FLUSHING, R.REC_STAT_FLUSHES, R.REC_LAST_FLUSH,
        R.REC_FLUSH_SEQ, R.REC_USED_HIST, R.REC_SLOT_SEQ, R.REC_SLOT_PEND, R.REC_USED_EXT, R.REC_SLOT_SUPP,
        R.REC_SLOT_FIRST, R.REC_SLOT_CODE_CODE, R.REC_SLOT_FIRST_PC, R.REC_SLOT_CODE_VALID, R.REC_UNREC] ∧
      SameParts { s with recs := t.recs, cellar := t.cellar } t) ∧
  (∀ (s : State) (ok : Bool), s.Sound → s.recs.writing ≠ 0 → s.recs.clearWaits = false →
      ∃ t, exec (.recFlushDone ok) s = .next t ∧
      t.recs.writing = 0 ∧
      t.flag R.REC_STAT_FLUSHING = false ∧
      t.flag R.REC_CTRL_FLUSH = false ∧
      (ok = true ∨ t.bit (R.FLT_STAT (srcPage 207 0)) (srcBit 207) = true) ∧
      t.recs.slots = s.recs.slots ∧
      t.dram.mem = s.dram.mem)

/-- R488, R489, R491, R493: a run starts on request, on a temperature change and on the reference check; the end of an ADC
stages its coefficients; the module calibration keeps its record. -/
def Obligations.CalibrationRunsAndChecks : Prop :=
  (∀ (s : State) (who : Requester), s.Calm → s.Writable who 0xB9 → s.flag R.CAL_STAT_RUNNING = false → s.works 0xB9 =
    true → s.inKiln = false → s.rd R.KLN_STAT_STATE ≠ 2 →
      ∃ t, exec (.calRun (some who)) s = .next t ∧
      t.flag R.CAL_STAT_RUNNING = true ∧
      t.rd R.MON_STAT_CAL_ADC = 0 ∧
      t.flash = s.flash ∧
      SameRegsBut s t [R.MON_STAT_CAL_ACTIVE, R.CAL_STAT_RUNNING, R.MON_STAT_CAL_ADC, R.CAL_BG, R.CAL_CTRL_RUN] ∧
      SameParts { s with cal := t.cal } t) ∧
  (∀ (s : State), s.Sound → s.power.life = .starting → s.power.runSteps.contains 6 = true → s.inKiln = false → s.rd
    R.KLN_STAT_STATE ≠ 2 → s.works 0xB9 = true →
      ∃ t, exec (.calRun none) s = .next t ∧
      t.flag R.CAL_STAT_RUNNING = true ∧
      t.dram.mem = s.dram.mem ∧
      SteadyRegsBut s t [R.MON_STAT_CAL_ACTIVE, R.MON_STAT_CAL_ADC]) ∧
  (∀ (s : State) (who : Requester), s.Sound → s.Writable who 0xB9 → s.flag R.CAL_STAT_RUNNING = false → s.works 0xB9 =
    true → (s.inKiln = true ∨ s.rd R.KLN_STAT_STATE = 2) →
      ∃ t, exec (.calRun (some who)) s = .next t ∧
      t.flag R.CAL_STAT_RUNNING = false ∧
      t.cal.deferred = true ∧
      t.dram.mem = s.dram.mem ∧
      SteadyRegsBut s t []) ∧
  (∀ (s : State) (who : Requester), s.Sound → s.Writable who 0xB9 → s.flag R.CAL_STAT_RUNNING = true →
      ∃ t, exec (.calRun (some who)) s = .next t ∧
      t.flag R.CAL_STAT_RUNNING = true ∧
      t.cal = s.cal ∧
      SteadyRegsBut s t []) ∧
  (∀ (s : State), s.Calm → s.paged = true → max 2 (s.rd R.CAL_CTRL_TEMP_DELTA_C) ≤ (ofField 8 (s.rd R.MON_TEMP_DIE_C) -
    ofField 8 (s.rd R.MON_TEMP_AT_CAL_C)).natAbs → s.flag R.CAL_STAT_RUNNING = false → s.inKiln = false → s.rd
    R.KLN_STAT_STATE ≠ 2 → s.works 0xB9 = true →
      ∃ t, exec .calTempCheck s = .next t ∧
      t.flag R.CAL_STAT_RUNNING = true ∧
      t.rd R.MON_STAT_CAL_ADC = 0 ∧
      t.flash = s.flash ∧
      SameRegsBut s t [R.MON_STAT_CAL_ACTIVE, R.CAL_STAT_RUNNING, R.MON_STAT_CAL_ADC, R.CAL_BG] ∧
      SameParts { s with cal := t.cal } t) ∧
  (∀ (s : State), s.Sound → s.paged = true → s.flag R.CAL_STAT_RUNNING = false → s.works 0xB9 = true → s.inKiln = false →
    s.rd R.KLN_STAT_STATE ≠ 2 →
      ∃ t, exec .calTempCheck s = .next t ∧
      t.flag R.CAL_STAT_RUNNING = decide (max 2 (s.rd R.CAL_CTRL_TEMP_DELTA_C) ≤ (ofField 8 (s.rd R.MON_TEMP_DIE_C) -
        ofField 8 (s.rd R.MON_TEMP_AT_CAL_C)).natAbs) ∧
      t.dram.mem = s.dram.mem ∧
      SteadyRegsBut s t [R.MON_STAT_CAL_ACTIVE, R.MON_STAT_CAL_ADC]) ∧
  (∀ (s : State) (gain ofs : Int), s.Calm → s.flag R.CAL_STAT_RUNNING = true → s.rd R.MON_STAT_CAL_ADC < 2 → gain.natAbs
    ≤ 20000 → ofs.natAbs ≤ 5000 →
      ∃ t, exec (.adcCalDone gain ofs [] []) s = .next t ∧
      t.rd R.MON_STAT_CAL_ADC = s.rd R.MON_STAT_CAL_ADC + 1 ∧
      t.cal.banks = s.cal.banks ++ [(s.rd R.MON_STAT_CAL_ADC, toField 20 gain, toField 16 ofs)] ∧
      t.flag R.CAL_STAT_RUNNING = true ∧
      SameRegsBut s t [R.MON_STAT_CAL_ADC] ∧
      SameParts { s with cal := t.cal } t) ∧
  (∀ (s : State) (gain ofs : Int) (trips : List (Nat × Nat × Int)) (again : List (Nat × Nat)), s.Sound → s.flag
    R.CAL_STAT_RUNNING = true → s.rd R.MON_STAT_CAL_ADC < 2 →
      ∃ t, exec (.adcCalDone gain ofs trips again) s = .next t ∧
      t.rd R.MON_STAT_CAL_ADC = s.rd R.MON_STAT_CAL_ADC + 1 ∧
      t.cal.banks = (if gain.natAbs ≤ 20000 ∧ ofs.natAbs ≤ 5000 then s.cal.banks ++ [(s.rd R.MON_STAT_CAL_ADC, toField
        20 gain, toField 16 ofs)] else s.cal.banks) ∧
      ((gain.natAbs ≤ 20000 ∧ ofs.natAbs ≤ 5000) ∨ t.cal.rejected = true) ∧
      ((gain.natAbs ≤ 20000 ∧ ofs.natAbs ≤ 5000) ∨ t.bit (R.FLT_STAT 0xB9) (srcBit 175) = true) ∧
      t.flag R.CAL_STAT_RUNNING = true ∧
      SteadyRegsBut s t [R.MON_STAT_CAL_ADC]) ∧
  (∀ (s : State) (gain ofs : Int) (trips : List (Nat × Nat × Int)) (again : List (Nat × Nat)), s.Sound → s.flag
    R.CAL_STAT_RUNNING = true → 2 ≤ s.rd R.MON_STAT_CAL_ADC → s.cal.vrefWaits = none →
      ∃ t, exec (.adcCalDone gain ofs trips again) s = .next t ∧
      t.flag R.CAL_STAT_RUNNING = false ∧
      t.flag R.MON_STAT_CAL_ACTIVE = false ∧
      t.rd R.CAL_RUNS_DONE = min 65535 (s.rd R.CAL_RUNS_DONE + 1) ∧
      t.rd R.MON_TEMP_AT_CAL_C = s.cal.startTemp % 256 ∧
      t.rd R.CAL_STAT_LAST = (if s.cal.rejected ∨ 20000 < gain.natAbs ∨ 5000 < ofs.natAbs then 2 else 1) ∧
      t.cal.lastCopy = (if s.cal.lastCopy = 1 then 2 else 1) ∧
      t.dram.mem = s.dram.mem) ∧
  (∀ (s : State) (who : Requester) (uv : Nat), s.Calm → s.Writable who 0xB9 → s.maint.isOpen = true → s.flag
    R.CAL_CTRL_VREF_EN = true → uv < 2 ^ 24 →
      ∃ t, exec (.moduleCal who uv) s = .next t ∧
      t.flash.moduleRec = some uv ∧
      t.rd R.CAL_BG = uv ∧
      t.flag R.CAL_STAT_MODULE_REC = true ∧
      SameRegsBut s t [R.CAL_STAT_MODULE_REC, R.CAL_BG, R.CAL_VREF_CHECK] ∧
      SameParts { s with flash := t.flash } t) ∧
  (∀ (s : State) (who : Requester) (uv : Nat), s.Sound → s.Writable who 0xB9 → s.maint.isOpen = true → s.flag
    R.CAL_CTRL_VREF_EN = true →
      ∃ t, exec (.moduleCal who uv) s = .next t ∧
      t.flash.moduleRec = some (uv % 2 ^ 24) ∧
      t.rd R.CAL_BG = uv % 2 ^ 24 ∧
      t.flag R.CAL_STAT_MODULE_REC = true ∧
      SteadyRegsBut s t []) ∧
  (∀ (s : State) (uv : Nat), s.Calm → s.paged = true → s.flag R.CAL_CTRL_VREF_EN = true → s.cal.vrefStopped = false →
    s.flag R.CAL_STAT_RUNNING = false → s.inKiln = false → s.rd R.KLN_STAT_STATE ≠ 2 → uv < 2 ^ 24 → 200 * (uv -
    s.flash.moduleRec.getD 1200000) ≤ s.flash.moduleRec.getD 1200000 → 200 * (s.flash.moduleRec.getD 1200000 - uv) ≤
    s.flash.moduleRec.getD 1200000 → s.works 0xB9 = true →
      ∃ t, exec (.vrefCheck uv) s = .next t ∧
      t.rd R.CAL_VREF_CHECK = uv ∧
      t.flag R.CAL_STAT_RUNNING = true ∧
      t.flash = s.flash ∧
      SameRegsBut s t [R.MON_STAT_CAL_ACTIVE, R.CAL_STAT_RUNNING, R.CAL_BG, R.CAL_VREF_CHECK, R.MON_STAT_CAL_ADC] ∧
      SameParts { s with cal := t.cal } t) ∧
  (∀ (s : State) (uv : Nat), s.Sound → s.paged = true → s.flag R.CAL_CTRL_VREF_EN = true → s.cal.vrefStopped = false →
    s.flag R.CAL_STAT_RUNNING = true →
      ∃ t, exec (.vrefCheck uv) s = .next t ∧
      t.cal.vrefWaits = some uv ∧
      SteadyRegsBut s t []) ∧
  (∀ (s : State) (uv : Nat), s.Sound → s.paged = true → s.flag R.CAL_CTRL_VREF_EN = true → s.cal.vrefStopped = false →
    s.flag R.CAL_STAT_RUNNING = false → uv < 2 ^ 24 → s.flash.moduleRec.getD 1200000 < 200 * (uv - s.flash.moduleRec.getD
    1200000) →
      ∃ t, exec (.vrefCheck uv) s = .next t ∧
      t.bit (R.FLT_STAT 0xB9) 4 = true ∧
      SteadyRegsBut s t [])

/-! ## Code flash -/

/-- R507, R508, R510, R527: the two key words open a sequence; a complete one starts a program or an erase of its bank, or is
reset; a programmed word takes only the bits that go from one to zero, an erased sector holds ones. -/
def Obligations.FlashCommandsTakeTheirSequence : Prop :=
  (∀ (s : State) (fw : Bool) (who : Requester), s.Sound → s.rd R.PWR_STAT_STATE = 0 → s.flashAdmit fw who = .accept →
    (s.flashSeq fw).step = 0 →
      ∃ t, exec (.cflKeyWrite fw who 0x5A3C) s = .next t ∧
      (t.flashSeq fw).step = 1 ∧
      t.flash.words = s.flash.words ∧
      SteadyRegsBut s t [R.CFL_STAT_ERR, R.CFL_STAT_SEQ_OPEN]) ∧
  (∀ (s : State) (fw : Bool) (who : Requester), s.Sound → s.rd R.PWR_STAT_STATE = 0 → s.flashAdmit fw who = .accept →
    (s.flashSeq fw).step = 1 →
      ∃ t, exec (.cflKeyWrite fw who 0xC3A5) s = .next t ∧
      (t.flashSeq fw).step = 2 ∧
      t.flash.words = s.flash.words ∧
      SteadyRegsBut s t [R.CFL_STAT_ERR, R.CFL_STAT_SEQ_OPEN]) ∧
  (∀ (s : State) (fw : Bool) (who : Requester) (v : Nat), s.Sound → s.rd R.PWR_STAT_STATE = 0 → s.flashAdmit fw who =
    .accept → ¬ ((s.flashSeq fw).step = 0 ∧ v % 65536 = 0x5A3C) ∧ ¬ ((s.flashSeq fw).step = 1 ∧ v % 65536 = 0xC3A5) →
      ∃ t, exec (.cflKeyWrite fw who v) s = .next t ∧
      (t.flashSeq fw).step = 0 ∧
      t.rd R.CFL_STAT_ERR = 1 ∧
      t.bit (R.FLT_STAT (srcPage 213 0)) (srcBit 213) = true ∧
      t.flash.words = s.flash.words ∧
      SteadyRegsBut s t [R.CFL_STAT_ERR, R.CFL_STAT_SEQ_OPEN]) ∧
  (∀ (s : State) (fw : Bool) (who : Requester) (addr word : Nat), s.Sound → s.rd R.PWR_STAT_STATE = 0 → s.flashAdmit fw
    who = .accept → (s.flashSeq fw).step = 2 → addr < 2 * bankBytes → word < 2 ^ 64 → s.flashOp (flashBank addr) = none →
    inRecords addr = false → s.protectedBank (flashBank addr) = false → s.flash.words.get (addr / 8) = 0 →
    s.flash.undefined.has (addr / 8) = false →
      ∃ t, exec (.wordProgram fw who addr word) s = .next t ∧
      t.flashOp (flashBank addr) = some { opcode := 1, addr := addr, word := word, who := b2n fw } ∧
      (t.flashSeq fw).step = 0 ∧
      t.flash.words = s.flash.words ∧
      t.rd R.CFL_STAT_ERR = 0 ∧
      SteadyRegsBut s t [R.CFL_STAT_BUSY1, R.CFL_STAT_ERR, R.CFL_STAT_BUSY0, R.CFL_STAT_SEQ_OPEN]) ∧
  (∀ (s : State) (fw : Bool) (who : Requester) (addr word : Nat), s.Sound → s.rd R.PWR_STAT_STATE = 0 → s.flashAdmit fw
    who = .accept → (s.flashSeq fw).step = 2 → s.flashOp (flashBank addr) = none → ((inRecords addr = false ∧
    s.protectedBank (flashBank addr) = false ∧ s.flash.words.get (addr % 33554432 / 8) = 0 ∧ s.flash.undefined.has (addr %
    33554432 / 8) = false) ∨ (inRecords addr = true ∧ s.flash.programs.get (addr % 33554432 / 8) < 2 ∧ (word % 2 ^ 64 ^^^
    (2 ^ 64 - 1)) &&& s.flash.words.get (addr % 33554432 / 8) = s.flash.words.get (addr % 33554432 / 8))) →
      ∃ t, exec (.wordProgram fw who addr word) s = .next t ∧
      t.flashOp (flashBank addr) = some { opcode := 1, addr := addr % 33554432, word := word % 2 ^ 64, who := b2n fw } ∧
      (t.flashSeq fw).step = 0 ∧
      t.rd R.CFL_STAT_ERR = 0 ∧
      t.flash.words = s.flash.words ∧
      SteadyRegsBut s t [R.CFL_STAT_BUSY1, R.CFL_STAT_ERR, R.CFL_STAT_BUSY0, R.CFL_STAT_SEQ_OPEN]) ∧
  (∀ (s : State) (fw : Bool) (who : Requester) (addr word : Nat), s.Sound → s.rd R.PWR_STAT_STATE = 0 → s.flashAdmit fw
    who = .accept → (s.flashSeq fw).step ≠ 2 →
      ∃ t, exec (.wordProgram fw who addr word) s = .next t ∧
      (t.flashSeq fw).step = 0 ∧
      t.rd R.CFL_STAT_ERR = 1 ∧
      t.flash.words = s.flash.words ∧
      t.flash.op0 = s.flash.op0 ∧ t.flash.op1 = s.flash.op1 ∧
      SteadyRegsBut s t [R.CFL_STAT_ERR, R.CFL_STAT_SEQ_OPEN]) ∧
  (∀ (s : State) (fw : Bool) (who : Requester) (addr word : Nat), s.Sound → s.rd R.PWR_STAT_STATE = 0 → s.flashAdmit fw
    who = .accept → (s.flashSeq fw).step = 2 → (inRecords addr = true ∨ s.protectedBank (flashBank addr) = false) →
    (s.flashOp (flashBank addr)).isSome = true →
      ∃ t, exec (.wordProgram fw who addr word) s = .next t ∧
      (t.flashSeq fw).step = 0 ∧
      t.rd R.CFL_STAT_ERR = 5 ∧
      t.flash.words = s.flash.words ∧
      t.flash.op0 = s.flash.op0 ∧ t.flash.op1 = s.flash.op1 ∧
      SteadyRegsBut s t [R.CFL_STAT_ERR, R.CFL_STAT_SEQ_OPEN]) ∧
  (∀ (s : State) (fw : Bool) (who : Requester) (addr : Nat), s.Sound → s.rd R.PWR_STAT_STATE = 0 → s.flashAdmit fw who =
    .accept → (s.flashSeq fw).step = 2 → s.flashOp (flashBank addr) = none → (inRecords addr = true ∨ s.protectedBank
    (flashBank addr) = false) →
      ∃ t, exec (.sectorErase fw who addr) s = .next t ∧
      t.flashOp (flashBank addr) = some { opcode := 2, addr := addr % 33554432, word := 0, who := b2n fw } ∧
      (t.flashSeq fw).step = 0 ∧
      t.flash.words = s.flash.words ∧
      t.rd R.CFL_STAT_ERR = 0 ∧
      SteadyRegsBut s t [R.CFL_STAT_BUSY0, R.CFL_STAT_ERR, R.CFL_STAT_BUSY1, R.CFL_STAT_SEQ_OPEN]) ∧
  (∀ (s : State) (fw : Bool) (who : Requester) (addr : Nat), s.Sound → s.rd R.PWR_STAT_STATE = 0 → s.flashAdmit fw who =
    .accept → (s.flashSeq fw).step ≠ 2 →
      ∃ t, exec (.sectorErase fw who addr) s = .next t ∧
      (t.flashSeq fw).step = 0 ∧
      t.rd R.CFL_STAT_ERR = 1 ∧
      t.flash.words = s.flash.words ∧
      t.flash.op0 = s.flash.op0 ∧ t.flash.op1 = s.flash.op1 ∧
      SteadyRegsBut s t [R.CFL_STAT_ERR, R.CFL_STAT_SEQ_OPEN]) ∧
  (∀ (s : State) (fw : Bool) (who : Requester) (addr : Nat), s.Sound → s.rd R.PWR_STAT_STATE = 0 → s.flashAdmit fw who =
    .accept → (s.flashSeq fw).step = 2 → (inRecords addr = true ∨ s.protectedBank (flashBank addr) = false) → (s.flashOp
    (flashBank addr)).isSome = true →
      ∃ t, exec (.sectorErase fw who addr) s = .next t ∧
      (t.flashSeq fw).step = 0 ∧
      t.rd R.CFL_STAT_ERR = 5 ∧
      t.flash.words = s.flash.words ∧
      t.flash.op0 = s.flash.op0 ∧ t.flash.op1 = s.flash.op1 ∧
      SteadyRegsBut s t [R.CFL_STAT_ERR, R.CFL_STAT_SEQ_OPEN]) ∧
  (∀ (s : State) (fw : Bool) (who : Requester) (addr : Nat), s.Sound → s.rd R.PWR_STAT_STATE = 0 → s.flashAdmit fw who =
    .accept → (s.flashSeq fw).step = 2 → s.flashOp (flashBank addr) = none → (inRecords addr = true ∨ s.protectedBank
    (flashBank addr) = false) →
      ∃ t, exec (.blockErase fw who addr) s = .next t ∧
      t.flashOp (flashBank addr) = some { opcode := 3, addr := addr % 33554432, word := 0, who := b2n fw } ∧
      (t.flashSeq fw).step = 0 ∧
      t.flash.words = s.flash.words ∧
      t.rd R.CFL_STAT_ERR = 0 ∧
      SteadyRegsBut s t [R.CFL_STAT_BUSY0, R.CFL_STAT_ERR, R.CFL_STAT_BUSY1, R.CFL_STAT_SEQ_OPEN]) ∧
  (∀ (s : State) (fw : Bool) (who : Requester) (addr : Nat), s.Sound → s.rd R.PWR_STAT_STATE = 0 → s.flashAdmit fw who =
    .accept → (s.flashSeq fw).step ≠ 2 →
      ∃ t, exec (.blockErase fw who addr) s = .next t ∧
      (t.flashSeq fw).step = 0 ∧
      t.rd R.CFL_STAT_ERR = 1 ∧
      t.flash.words = s.flash.words ∧
      t.flash.op0 = s.flash.op0 ∧ t.flash.op1 = s.flash.op1 ∧
      SteadyRegsBut s t [R.CFL_STAT_ERR, R.CFL_STAT_SEQ_OPEN]) ∧
  (∀ (s : State) (fw : Bool) (who : Requester) (addr : Nat), s.Sound → s.rd R.PWR_STAT_STATE = 0 → s.flashAdmit fw who =
    .accept → (s.flashSeq fw).step = 2 → (inRecords addr = true ∨ s.protectedBank (flashBank addr) = false) → (s.flashOp
    (flashBank addr)).isSome = true →
      ∃ t, exec (.blockErase fw who addr) s = .next t ∧
      (t.flashSeq fw).step = 0 ∧
      t.rd R.CFL_STAT_ERR = 5 ∧
      t.flash.words = s.flash.words ∧
      t.flash.op0 = s.flash.op0 ∧ t.flash.op1 = s.flash.op1 ∧
      SteadyRegsBut s t [R.CFL_STAT_ERR, R.CFL_STAT_SEQ_OPEN]) ∧
  (∀ (s : State) (fw : Bool) (who : Requester), s.Sound → s.rd R.PWR_STAT_STATE = 0 → s.flashAdmit fw who = .accept →
    (s.flashSeq fw).step = 2 →
      ∃ t, exec (.sequenceReset fw who) s = .next t ∧
      (t.flashSeq fw).step = 0 ∧
      t.rd R.CFL_STAT_ERR = 0 ∧
      t.flash.words = s.flash.words ∧
      SteadyRegsBut s t [R.CFL_STAT_ERR, R.CFL_STAT_SEQ_OPEN]) ∧
  (∀ (s : State) (fw : Bool) (who : Requester), s.Sound → s.rd R.PWR_STAT_STATE = 0 → s.flashAdmit fw who = .accept →
    (s.flashSeq fw).step ≠ 2 →
      ∃ t, exec (.sequenceReset fw who) s = .next t ∧
      (t.flashSeq fw).step = 0 ∧
      t.rd R.CFL_STAT_ERR = 1 ∧
      t.flash.words = s.flash.words ∧
      SteadyRegsBut s t [R.CFL_STAT_ERR, R.CFL_STAT_SEQ_OPEN]) ∧
  (∀ (s : State) (bank : Nat) (o : FlashOp), s.Sound → bank < 2 → s.flashOp bank = some o → o.opcode = 1 →
      ∃ t, exec (.flashOpDone bank true) s = .next t ∧
      t.flash.words = s.flash.words.set (o.addr / 8) (s.flash.words.get (o.addr / 8) ||| (o.word ^^^ (2 ^ 64 - 1))) ∧
      t.flashOp bank = none ∧
      SteadyRegsBut s t [R.CFL_STAT_BUSY0, R.CFL_ERASE_MAX, R.CFL_STAT_BUSY1, R.CFL_STAT_ERR]) ∧
  (∀ (s : State) (bank : Nat) (o : FlashOp), s.Sound → bank < 2 → s.flashOp bank = some o → o.opcode = 2 →
      ∃ t, exec (.flashOpDone bank true) s = .next t ∧
      t.flash.words = s.flash.words.keep (fun w => !(decide (512 * (o.addr / 4096) ≤ w) && decide (w < 512 * (o.addr /
        4096 + 1)))) ∧
      t.flashOp bank = none ∧
      SteadyRegsBut s t [R.CFL_ERASE_MAX, R.CFL_STAT_BUSY1, R.CFL_STAT_BUSY0, R.CFL_STAT_ERR]) ∧
  (∀ (s : State) (bank : Nat) (o : FlashOp), s.Sound → bank < 2 → s.flashOp bank = some o → o.opcode = 3 →
      ∃ t, exec (.flashOpDone bank true) s = .next t ∧
      t.flash.words = s.flash.words.keep (fun w => !(decide (8192 * (o.addr / 65536) ≤ w) && decide (w < 8192 * (o.addr
        / 65536 + 1)))) ∧
      t.flashOp bank = none ∧
      SteadyRegsBut s t [R.CFL_ERASE_MAX, R.CFL_STAT_BUSY1, R.CFL_STAT_BUSY0, R.CFL_STAT_ERR]) ∧
  (∀ (s : State) (bank : Nat) (o : FlashOp), s.Sound → bank < 2 → s.flashOp bank = some o →
      ∃ t, exec (.flashOpDone bank false) s = .next t ∧
      t.flashOp bank = none ∧
      t.rd R.CFL_STAT_ERR = 6 ∧
      t.bit (R.FLT_STAT (srcPage 214 0)) (srcBit 214) = true ∧
      t.flash.words = s.flash.words ∧
      t.flash.undefined.has (o.addr / 8) = true ∧
      SteadyRegsBut s t [R.CFL_ERASE_MAX, R.CFL_STAT_BUSY1, R.CFL_STAT_BUSY0, R.CFL_STAT_ERR]) ∧
  (∀ (s : State) (n : Nat), s.Sound →
      ∃ t, exec (.codeFlashCheck n []) s = .next t ∧
      t.rd R.CFL_CRC_PASS = min (2 ^ 16 - 1) (s.rd R.CFL_CRC_PASS + 1) ∧
      t.rd R.CFL_ECC_CORRECTED = min (2 ^ 16 - 1) (s.rd R.CFL_ECC_CORRECTED + n) ∧
      t.flash.words = s.flash.words ∧
      SteadyRegsBut s t [R.CFL_ECC_CORRECTED, R.CFL_CRC_PASS]) ∧
  (∀ (s : State) (b sec n : Nat), s.Sound → b < 2 → sec < 4096 →
      ∃ t, exec (.codeFlashCheck n [(b, sec)]) s = .next t ∧
      t.rd R.CFL_CRC_FAIL_BANK = b ∧
      t.rd R.CFL_CRC_FAIL_SECTOR = sec ∧
      t.bit (R.FLT_STAT 0xD0) 0 = true ∧
      SteadyRegsBut s t [R.CFL_CRC_PASS, R.CFL_CRC_FAIL_BANK, R.CFL_CRC_FAIL_SECTOR, R.CFL_CRC_FAIL_COUNT,
        R.CFL_ECC_CORRECTED]) ∧
  (∀ (s : State) (n : Nat) (bad : List (Nat × Nat)), s.Sound →
      ∃ t, exec (.codeFlashCheck n bad) s = .next t ∧
      t.rd R.CFL_CRC_PASS = min 65535 (s.rd R.CFL_CRC_PASS + 1) ∧
      t.rd R.CFL_ECC_CORRECTED = min 65535 (s.rd R.CFL_ECC_CORRECTED + n) ∧
      t.rd R.CFL_CRC_FAIL_COUNT = min 65535 (s.rd R.CFL_CRC_FAIL_COUNT + bad.length) ∧
      (bad = [] ∨ t.bit (R.FLT_STAT (srcPage 211 0)) (srcBit 211) = true) ∧
      (bad.any (fun x => s.protectedBank x.1) = false ∨ t.flag R.UPD_STAT_REPAIR = true) ∧
      t.flash.words = s.flash.words ∧
      SteadyRegsBut s t [R.CFL_CRC_PASS, R.CFL_CRC_FAIL_BANK, R.CFL_CRC_FAIL_SECTOR, R.CFL_CRC_FAIL_COUNT,
        R.CFL_ECC_CORRECTED])

/-- R506: a program or an erase of the code region of the bank that was booted or that MGMT runs from is refused with
`CFL.STAT.ERR` = 4, whatever that bank does; no word changes and no operation begins. -/
def Obligations.ProtectedCodeIsRefused : Prop :=
  (∀ (s : State) (fw : Bool) (who : Requester) (addr word : Nat), s.Sound → s.rd R.PWR_STAT_STATE = 0 → s.flashAdmit fw
    who = .accept → (s.flashSeq fw).step = 2 → inRecords addr = false → (s.rd R.UPD_BOOTREC_BANK = flashBank addr ∨ s.rd
    R.UPD_STAT_RUN_BANK = flashBank addr) →
      ∃ t, exec (.wordProgram fw who addr word) s = .next t ∧
      t.rd R.CFL_STAT_ERR = 4 ∧
      t.flash.words = s.flash.words ∧
      t.flash.op0 = s.flash.op0 ∧
      t.flash.op1 = s.flash.op1 ∧
      SteadyRegsBut s t [R.CFL_STAT_ERR, R.CFL_STAT_SEQ_OPEN]) ∧
  (∀ (s : State) (fw : Bool) (who : Requester) (addr : Nat), s.Sound → s.rd R.PWR_STAT_STATE = 0 → s.flashAdmit fw who =
    .accept → (s.flashSeq fw).step = 2 → inRecords addr = false → (s.rd R.UPD_BOOTREC_BANK = flashBank addr ∨ s.rd
    R.UPD_STAT_RUN_BANK = flashBank addr) →
      ∃ t, exec (.sectorErase fw who addr) s = .next t ∧
      t.rd R.CFL_STAT_ERR = 4 ∧
      t.flash.words = s.flash.words ∧
      t.flash.op0 = s.flash.op0 ∧
      t.flash.op1 = s.flash.op1 ∧
      SteadyRegsBut s t [R.CFL_STAT_ERR, R.CFL_STAT_SEQ_OPEN]) ∧
  (∀ (s : State) (fw : Bool) (who : Requester) (addr : Nat), s.Sound → s.rd R.PWR_STAT_STATE = 0 → s.flashAdmit fw who =
    .accept → (s.flashSeq fw).step = 2 → inRecords addr = false → (s.rd R.UPD_BOOTREC_BANK = flashBank addr ∨ s.rd
    R.UPD_STAT_RUN_BANK = flashBank addr) →
      ∃ t, exec (.blockErase fw who addr) s = .next t ∧
      t.rd R.CFL_STAT_ERR = 4 ∧
      t.flash.words = s.flash.words ∧
      t.flash.op0 = s.flash.op0 ∧
      t.flash.op1 = s.flash.op1 ∧
      SteadyRegsBut s t [R.CFL_STAT_ERR, R.CFL_STAT_SEQ_OPEN])

/-! ## Update -/

/-- R516, R517, R518: `UPDATE_START` and Transfer FW Initiate begin a download of length `len` or of open length for the port
that sent them, into the bank not running; `BREW_TRANSFER` and Transfer FW Continue write the bytes at the offset received
so far, and stay there where the write fails; Transfer FW End and Full end the download; each of these, where it succeeds,
leaves the lock with 60 s. A wrong offset and a lock held by another source are refused and leave the flash alone; Abort
frees the lock and empties the bank or, in the confirmation window, falls back; `UPDATE_STATUS` answers its fields; a lock
idle for its 60 s latches, and ends a download, a check or a staged package. -/
def Obligations.PackagesAreDownloaded : Prop :=
  (∀ (s : State) (port len : Nat), s.Calm → s.MailboxTakes port → s.steepReady = true → s.isAdmin port = true →
    s.power.life ≠ .recovery → len ≤ packageMax → s.rd R.UPD_STAT_LOCK = 0 → s.rd R.UPD_STAT_STATE = 0 → s.flag
    R.UPD_STAT_REPAIR = false → s.kiln.since = false →
      ∃ t, exec (.updateStart port len) s = .next t ∧
      t.rd R.UPD_STAT_STATE = 1 ∧
      t.rd R.UPD_TOTAL = len ∧
      t.rd R.UPD_RECEIVED = 0 ∧
      t.rd R.UPD_STAT_LOCK = 2 * port + 2 ∧
      t.rd R.UPD_LOCK_IDLE = 60 ∧
      t.out = [.reply port 0 []] ∧
      SameRegsBut s t [R.HP_MBOX_OPCODE port, R.UPD_STAT_STATE, R.UPD_STAT_LOCK, R.UPD_STAT_STAGE_BANK, R.UPD_TOTAL,
        R.UPD_LOCK_IDLE, R.UPD_REJECT_CODE, R.UPD_RECEIVED, R.UPD_SVN_STAGED, R.HP_MBOX_BUSY port, R.UPD_STAGED_VER] ∧
      SameParts { s with staged := t.staged, update := t.update } t) ∧
  (∀ (s : State) (port len : Nat), s.Sound → s.UpdateTakes port → ((s.lockedOut (s.source port false) = false ∨ s.flag
    R.UPD_STAT_REPAIR = true) ∧ (s.rd R.UPD_STAT_STATE = 0 ∨ s.rd R.UPD_STAT_STATE = 3 ∨ (s.flag R.UPD_STAT_REPAIR = true
    ∧ s.rd R.UPD_STAT_STATE ≤ 3)) ∧ s.kiln.since = false) → len ≤ packageMax →
      ∃ t, exec (.updateStart port len) s = .next t ∧
      t.rd R.UPD_LOCK_IDLE = 60 ∧
      t.rd R.UPD_STAT_STATE = 1 ∧
      t.rd R.UPD_TOTAL = len ∧
      t.rd R.UPD_RECEIVED = 0 ∧
      t.rd R.UPD_STAT_LOCK = s.source port false ∧
      t.rd R.UPD_STAT_STAGE_BANK = s.stageBank % 2 ∧
      t.bankPkg s.stageBank = none ∧
      .reply port 0 [] ∈ t.out ∧
      t.flash.words = s.flash.words) ∧
  (∀ (s : State) (port : Nat), s.Calm → s.MailboxTakes port → s.steepReady = true → s.isAdmin port = true → s.power.life
    ≠ .recovery → s.rd R.UPD_STAT_LOCK = 0 → s.rd R.UPD_STAT_STATE = 0 → s.flag R.UPD_STAT_REPAIR = false → s.kiln.since =
    false →
      ∃ t, exec (.transferFwInitiate port) s = .next t ∧
      t.rd R.UPD_STAT_STATE = 1 ∧
      t.rd R.UPD_TOTAL = 0 ∧
      t.rd R.UPD_RECEIVED = 0 ∧
      t.rd R.UPD_STAT_LOCK = 2 * port + 1 ∧
      t.rd R.UPD_LOCK_IDLE = 60 ∧
      t.out = [.reply port 0 []] ∧
      SameRegsBut s t [R.HP_MBOX_OPCODE port, R.UPD_STAT_STATE, R.UPD_STAT_LOCK, R.UPD_STAT_STAGE_BANK, R.UPD_LOCK_IDLE,
        R.UPD_REJECT_CODE, R.UPD_RECEIVED, R.UPD_TOTAL, R.UPD_SVN_STAGED, R.HP_MBOX_BUSY port, R.UPD_STAGED_VER] ∧
      SameParts { s with staged := t.staged, update := t.update } t) ∧
  (∀ (s : State) (port : Nat), s.Sound → s.UpdateTakes port → ((s.lockedOut (s.source port true) = false ∨ s.flag
    R.UPD_STAT_REPAIR = true) ∧ (s.rd R.UPD_STAT_STATE = 0 ∨ s.rd R.UPD_STAT_STATE = 3 ∨ (s.flag R.UPD_STAT_REPAIR = true
    ∧ s.rd R.UPD_STAT_STATE ≤ 3)) ∧ s.kiln.since = false) →
      ∃ t, exec (.transferFwInitiate port) s = .next t ∧
      t.rd R.UPD_LOCK_IDLE = 60 ∧
      t.rd R.UPD_STAT_STATE = 1 ∧
      t.rd R.UPD_TOTAL = 0 ∧
      t.rd R.UPD_RECEIVED = 0 ∧
      t.rd R.UPD_STAT_LOCK = s.source port true ∧
      t.rd R.UPD_STAT_STAGE_BANK = s.stageBank % 2 ∧
      t.bankPkg s.stageBank = none ∧
      .reply port 0 [] ∈ t.out ∧
      t.flash.words = s.flash.words) ∧
  (∀ (s : State) (port off len : Nat) (data : Memory), s.Calm → s.MailboxTakes port → s.steepReady = true → s.isAdmin
    port = true → (s.host port).bg = none → s.power.life ≠ .recovery → s.lockedOut (s.source port false) = false → s.rd
    R.UPD_STAT_STATE = 1 → s.kiln.since = false → off = s.rd R.UPD_RECEIVED → s.rd R.UPD_TOTAL ≤ packageMax → off + len <
    s.rd R.UPD_TOTAL → len ≤ 65528 → (List.range ((off + len) / 65536 + 1)).all (fun k => s.update.erased.has k) = true →
      ∃ t, exec (.brewTransfer port off len data true) s = .next t ∧
      t.rd R.UPD_LOCK_IDLE = 60 ∧
      t.rd R.UPD_RECEIVED = off + len ∧
      t.rd R.UPD_STAT_STATE = 1 ∧
      t.flash.words = (List.range len).foldl (fun m i => putFlashByte m (s.rd R.UPD_STAT_STAGE_BANK * bankBytes + off +
        i) (data.byte i)) s.flash.words ∧
      t.out = [.reply port 1 [], .bgDone port 0xC030 0 []] ∧
      SameRegsBut s t [R.HP_MBOX_OPCODE port, R.UPD_STAT_LOCK, R.UPD_RECEIVED, R.UPD_LOCK_IDLE, R.CFL_ERASE_MAX,
        R.CFL_STAT_ERR, R.HP_MBOX_BUSY port] ∧
      SameParts { s with flash := t.flash } t) ∧
  (∀ (s : State) (port off len : Nat) (data : Memory), s.Calm → s.MailboxTakes port → s.steepReady = true → s.isAdmin
    port = true → (s.host port).bg = none → s.power.life ≠ .recovery → s.lockedOut (s.source port false) = false → s.rd
    R.UPD_STAT_STATE = 1 → s.kiln.since = false → off = s.rd R.UPD_RECEIVED → s.rd R.UPD_TOTAL ≤ packageMax → off + len =
    s.rd R.UPD_TOTAL → len ≤ 65528 → 0 < len → (List.range ((off + len) / 65536 + 1)).all (fun k => s.update.erased.has k)
    = true →
      ∃ t, exec (.brewTransfer port off len data true) s = .next t ∧
      t.rd R.UPD_LOCK_IDLE = 60 ∧
      t.rd R.UPD_RECEIVED = off + len ∧
      t.rd R.UPD_STAT_STATE = 2 ∧
      t.flash.words = (List.range len).foldl (fun m i => putFlashByte m (s.rd R.UPD_STAT_STAGE_BANK * bankBytes + off +
        i) (data.byte i)) s.flash.words ∧
      t.out = [.reply port 1 [], .bgDone port 0xC030 0 []] ∧
      SameRegsBut s t [R.UPD_STAT_STATE, R.HP_MBOX_OPCODE port, R.UPD_STAT_LOCK, R.UPD_RECEIVED, R.UPD_LOCK_IDLE,
        R.CFL_ERASE_MAX, R.CFL_STAT_ERR, R.HP_MBOX_BUSY port] ∧
      SameParts { s with flash := t.flash } t) ∧
  (∀ (s : State) (port off len : Nat) (data : Memory) (ok : Bool), s.Sound → s.UpdateTakes port → s.lockedOut (s.source
    port false) = false → s.rd R.UPD_STAT_STATE = 1 → s.kiln.since = false → (s.host port).bg = none → off = s.rd
    R.UPD_RECEIVED → off + len ≤ (if s.rd R.UPD_TOTAL = 0 then packageMax else s.rd R.UPD_TOTAL) → len ≤ 65528 →
      ∃ t, exec (.brewTransfer port off len data ok) s = .next t ∧
      t.rd R.UPD_LOCK_IDLE = 60 ∧
      (ok = false ∨ t.rd R.UPD_RECEIVED = off + len) ∧
      (ok = true ∨ t.rd R.UPD_RECEIVED = off) ∧
      (ok = true ∨ t.bit (R.FLT_STAT (srcPage 214 0)) (srcBit 214) = true) ∧
      (ok = false ∨ (.bgDone port 0xC030 0 []) ∈ t.out) ∧
      (ok = true ∨ .reply port 2 [] ∈ t.out)) ∧
  (∀ (s : State) (port off len : Nat) (data : Memory) (ok : Bool), s.Sound → s.UpdateTakes port → s.lockedOut (s.source
    port false) = false → s.rd R.UPD_STAT_STATE = 1 → s.kiln.since = false → off ≠ s.rd R.UPD_RECEIVED →
      ∃ t, exec (.brewTransfer port off len data ok) s = .next t ∧
      .reply port rcInvalid [] ∈ t.out ∧
      t.rd R.UPD_RECEIVED = s.rd R.UPD_RECEIVED ∧
      t.flash.words = s.flash.words) ∧
  (∀ (s : State) (port off len : Nat) (data : Memory), s.Calm → s.MailboxTakes port → s.steepReady = true → s.isAdmin
    port = true → s.power.life ≠ .recovery → s.lockedOut (s.source port true) = false → s.rd R.UPD_STAT_STATE = 1 →
    s.kiln.since = false → off = s.rd R.UPD_RECEIVED → s.rd R.UPD_TOTAL ≤ packageMax → off + len ≤ s.rd R.UPD_TOTAL → 0 <
    s.rd R.UPD_TOTAL → len ≤ 65528 → (List.range ((off + len) / 65536 + 1)).all (fun k => s.update.erased.has k) = true →
      ∃ t, exec (.transferFwContinue port off len data true) s = .next t ∧
      t.rd R.UPD_LOCK_IDLE = 60 ∧
      t.rd R.UPD_RECEIVED = off + len ∧
      t.rd R.UPD_STAT_STATE = 1 ∧
      t.flash.words = (List.range len).foldl (fun m i => putFlashByte m (s.rd R.UPD_STAT_STAGE_BANK * bankBytes + off +
        i) (data.byte i)) s.flash.words ∧
      t.out = [.reply port 0 []] ∧
      SameRegsBut s t [R.HP_MBOX_OPCODE port, R.UPD_STAT_LOCK, R.UPD_RECEIVED, R.UPD_LOCK_IDLE, R.CFL_ERASE_MAX,
        R.CFL_STAT_ERR, R.HP_MBOX_BUSY port] ∧
      SameParts { s with flash := t.flash } t) ∧
  (∀ (s : State) (port off len : Nat) (data : Memory) (ok : Bool), s.Sound → s.UpdateTakes port → s.lockedOut (s.source
    port true) = false → s.rd R.UPD_STAT_STATE = 1 → s.kiln.since = false → off = s.rd R.UPD_RECEIVED → off + len ≤ (if
    s.rd R.UPD_TOTAL = 0 then packageMax else s.rd R.UPD_TOTAL) → len ≤ 65528 →
      ∃ t, exec (.transferFwContinue port off len data ok) s = .next t ∧
      t.rd R.UPD_LOCK_IDLE = 60 ∧
      (ok = false ∨ t.rd R.UPD_RECEIVED = off + len) ∧
      (ok = true ∨ t.rd R.UPD_RECEIVED = off) ∧
      (ok = true ∨ t.bit (R.FLT_STAT (srcPage 214 0)) (srcBit 214) = true) ∧
      (ok = false ∨ (.reply port 0 []) ∈ t.out) ∧
      (ok = true ∨ .reply port 2 [] ∈ t.out)) ∧
  (∀ (s : State) (port off len : Nat) (data : Memory) (ok : Bool), s.Sound → s.UpdateTakes port → s.lockedOut (s.source
    port true) = false → s.rd R.UPD_STAT_STATE = 1 → s.kiln.since = false → off ≠ s.rd R.UPD_RECEIVED →
      ∃ t, exec (.transferFwContinue port off len data ok) s = .next t ∧
      .reply port rcXferOrder [] ∈ t.out ∧
      t.rd R.UPD_RECEIVED = s.rd R.UPD_RECEIVED ∧
      t.flash.words = s.flash.words) ∧
  (∀ (s : State) (port : Nat), s.Calm → s.MailboxTakes port → s.steepReady = true → s.isAdmin port = true → s.power.life
    ≠ .recovery → s.lockedOut (s.source port true) = false → s.rd R.UPD_STAT_STATE = 1 →
      ∃ t, exec (.transferFwEnd port) s = .next t ∧
      t.rd R.UPD_LOCK_IDLE = 60 ∧
      t.rd R.UPD_STAT_STATE = 2 ∧
      t.rd R.UPD_RECEIVED = s.rd R.UPD_RECEIVED ∧
      t.out = [.reply port 0 []] ∧
      SameRegsBut s t [R.UPD_STAT_STATE, R.HP_MBOX_OPCODE port, R.UPD_STAT_LOCK, R.UPD_LOCK_IDLE, R.HP_MBOX_BUSY port] ∧
      SameParts s t) ∧
  (∀ (s : State) (port : Nat), s.Sound → s.UpdateTakes port → s.lockedOut (s.source port true) = false → s.rd
    R.UPD_STAT_STATE = 1 →
      ∃ t, exec (.transferFwEnd port) s = .next t ∧
      t.rd R.UPD_LOCK_IDLE = 60 ∧
      t.rd R.UPD_STAT_STATE = 2 ∧
      t.rd R.UPD_RECEIVED = s.rd R.UPD_RECEIVED ∧
      .reply port 0 [] ∈ t.out ∧
      t.flash.words = s.flash.words) ∧
  (∀ (s : State) (port len : Nat) (data : Memory), s.Calm → s.MailboxTakes port → s.steepReady = true → s.isAdmin port =
    true → s.power.life ≠ .recovery → s.rd R.UPD_STAT_LOCK = 0 → s.rd R.UPD_STAT_STATE = 0 → s.flag R.UPD_STAT_REPAIR =
    false → s.kiln.since = false → len ≤ 65528 →
      ∃ t, exec (.transferFwFull port len data true) s = .next t ∧
      t.rd R.UPD_LOCK_IDLE = 60 ∧
      t.rd R.UPD_STAT_STATE = 2 ∧
      t.rd R.UPD_RECEIVED = len ∧
      t.rd R.UPD_STAT_LOCK = 2 * port + 1 ∧
      t.out = [.reply port 0 []] ∧
      SameRegsBut s t [R.HP_MBOX_OPCODE port, R.CFL_ERASE_MAX, R.UPD_STAT_STATE, R.UPD_STAT_LOCK, R.UPD_STAT_STAGE_BANK,
        R.UPD_RECEIVED, R.UPD_TOTAL, R.UPD_LOCK_IDLE, R.UPD_REJECT_CODE, R.UPD_SVN_STAGED, R.CFL_STAT_ERR, R.HP_MBOX_BUSY
        port, R.UPD_STAGED_VER] ∧
      SameParts { s with staged := t.staged, flash := t.flash, update := t.update } t) ∧
  (∀ (s : State) (port len : Nat) (data : Memory) (ok : Bool), s.Sound → s.UpdateTakes port → ((s.lockedOut (s.source
    port true) = false ∨ s.flag R.UPD_STAT_REPAIR = true) ∧ (s.rd R.UPD_STAT_STATE = 0 ∨ s.rd R.UPD_STAT_STATE = 3 ∨
    (s.flag R.UPD_STAT_REPAIR = true ∧ s.rd R.UPD_STAT_STATE ≤ 3)) ∧ s.kiln.since = false) → len ≤ 65528 →
      ∃ t, exec (.transferFwFull port len data ok) s = .next t ∧
      t.rd R.UPD_LOCK_IDLE = 60 ∧
      t.rd R.UPD_STAT_STATE = (if ok then 2 else 1) ∧
      t.rd R.UPD_RECEIVED = (if ok then len else 0) ∧
      t.rd R.UPD_STAT_LOCK = s.source port true ∧
      .reply port (if ok then 0 else 2) [] ∈ t.out) ∧
  (∀ (s : State) (port : Nat), s.Calm → s.MailboxTakes port → s.steepReady = true → s.isAdmin port = true → s.power.life
    ≠ .recovery → s.lockedOut (s.source port false) = false → (s.rd R.UPD_STAT_STATE = 1 ∨ s.rd R.UPD_STAT_STATE = 2 ∨
    s.rd R.UPD_STAT_STATE = 3) →
      ∃ t, exec (.updateAbort port) s = .next t ∧
      t.rd R.UPD_STAT_STATE = 0 ∧
      t.rd R.UPD_STAT_LOCK = 0 ∧
      t.bankPkg (s.rd R.UPD_STAT_STAGE_BANK) = none ∧
      t.out = [.reply port 0 []]) ∧
  (∀ (s : State) (port : Nat), s.Sound → s.UpdateTakes port → s.lockedOut (s.source port false) = false → s.rd
    R.UPD_STAT_STATE ≠ 4 ∧ s.rd R.UPD_STAT_STATE ≤ 5 →
      ∃ t, exec (.updateAbort port) s = .next t ∧
      t.rd R.UPD_STAT_STATE = (if s.rd R.UPD_STAT_STATE = 5 then 3 else 0) ∧
      t.rd R.UPD_STAT_LOCK = 0 ∧
      .reply port 0 [] ∈ t.out ∧
      (s.rd R.UPD_STAT_STATE ≠ 5 ∨ t.rd R.UPD_COUNTS_FALLBACKS = min 65535 (s.rd R.UPD_COUNTS_FALLBACKS + 1))) ∧
  (∀ (s : State) (port : Nat), s.Calm → s.MailboxTakes port → s.steepReady = true → s.isAdmin port = true → s.power.life
    ≠ .recovery → s.lockedOut (s.source port true) = false → (s.rd R.UPD_STAT_STATE = 1 ∨ s.rd R.UPD_STAT_STATE = 2 ∨ s.rd
    R.UPD_STAT_STATE = 3) →
      ∃ t, exec (.transferFwAbort port) s = .next t ∧
      t.rd R.UPD_STAT_STATE = 0 ∧
      t.rd R.UPD_STAT_LOCK = 0 ∧
      t.bankPkg (s.rd R.UPD_STAT_STAGE_BANK) = none ∧
      t.out = [.reply port 0 []]) ∧
  (∀ (s : State) (port : Nat), s.Sound → s.UpdateTakes port → s.lockedOut (s.source port true) = false → s.rd
    R.UPD_STAT_STATE ≠ 4 ∧ s.rd R.UPD_STAT_STATE ≤ 5 →
      ∃ t, exec (.transferFwAbort port) s = .next t ∧
      t.rd R.UPD_STAT_STATE = (if s.rd R.UPD_STAT_STATE = 5 then 3 else 0) ∧
      t.rd R.UPD_STAT_LOCK = 0 ∧
      .reply port 0 [] ∈ t.out ∧
      (s.rd R.UPD_STAT_STATE ≠ 5 ∨ t.rd R.UPD_COUNTS_FALLBACKS = min 65535 (s.rd R.UPD_COUNTS_FALLBACKS + 1))) ∧
  (∀ (s : State) (port : Nat), s.Calm → s.MailboxTakes port → s.steepReady = true → s.isAdmin port = true → s.power.life
    ≠ .recovery →
      ∃ t, exec (.updateStatus port) s = .next t ∧
      t.out = [.reply port 0 s.statusWords] ∧
      t.rd R.UPD_STAT_STATE = s.rd R.UPD_STAT_STATE ∧
      t.flash = s.flash ∧
      SameRegsBut s t [R.HP_MBOX_OPCODE port, R.HP_MBOX_BUSY port, R.UPD_LOCK_IDLE, R.UPD_STAT_LOCK] ∧
      SameParts s t) ∧
  (∀ (s : State) (port : Nat), s.Sound → s.UpdateTakes port →
      ∃ t, exec (.updateStatus port) s = .next t ∧
      .reply port 0 s.statusWords ∈ t.out ∧
      t.flash = s.flash ∧
      t.rd R.UPD_LOCK_IDLE = (if s.rd R.UPD_STAT_LOCK = s.source port false then 60 else s.rd R.UPD_LOCK_IDLE)) ∧
  (∀ (s : State) (port len : Nat), s.Sound → s.UpdateTakes port → s.rd R.UPD_STAT_LOCK ≠ 0 → s.rd R.UPD_STAT_LOCK ≠
    s.source port false → s.flag R.UPD_STAT_REPAIR = false →
      ∃ t, exec (.updateStart port len) s = .next t ∧
      .reply port (busyCode false) [] ∈ t.out ∧
      t.rd R.UPD_STAT_STATE = s.rd R.UPD_STAT_STATE ∧
      t.flash.words = s.flash.words) ∧
  (∀ (s : State) (port off len : Nat) (data : Memory) (ok : Bool), s.Sound → s.UpdateTakes port → s.rd R.UPD_STAT_LOCK ≠
    0 → s.rd R.UPD_STAT_LOCK ≠ s.source port true → s.flag R.UPD_STAT_REPAIR = false →
      ∃ t, exec (.transferFwContinue port off len data ok) s = .next t ∧
      .reply port (busyCode true) [] ∈ t.out ∧
      t.rd R.UPD_STAT_STATE = s.rd R.UPD_STAT_STATE ∧
      t.flash.words = s.flash.words) ∧
  (∀ (s : State), s.Sound → s.rd R.UPD_STAT_LOCK ≠ 0 → s.rd R.UPD_LOCK_IDLE = 0 → (s.rd R.UPD_STAT_STATE = 1 ∨ s.rd
    R.UPD_STAT_STATE = 2 ∨ s.rd R.UPD_STAT_STATE = 3) →
      ∃ t, exec .updateLockExpired s = .next t ∧
      t.bit (R.FLT_STAT 0xD1) 3 = true ∧
      t.flash.words = s.flash.words ∧
      SteadyRegsBut s t []) ∧
  (∀ (s : State), s.Sound → s.rd R.UPD_STAT_LOCK ≠ 0 → s.rd R.UPD_LOCK_IDLE = 0 → (s.rd R.UPD_STAT_STATE = 1 ∨ s.rd
    R.UPD_STAT_STATE = 2 ∨ s.rd R.UPD_STAT_STATE = 3) →
      ∃ t, exec .updateLockExpired s = .next t ∧
      t.rd R.UPD_STAT_STATE = 0 ∧
      t.rd R.UPD_STAT_LOCK = 0 ∧
      t.rd R.UPD_RECEIVED = 0 ∧
      t.bankPkg (s.rd R.UPD_STAT_STAGE_BANK) = none) ∧
  (∀ (s : State), s.Sound → (s.rd R.UPD_STAT_STATE = 0 ∨ 4 ≤ s.rd R.UPD_STAT_STATE) →
      ∃ t, exec .updateLockExpired s = .next t ∧
      (t.rd R.UPD_STAT_STATE = s.rd R.UPD_STAT_STATE ∨ t.rd R.UPD_STAT_STATE = 3) ∧
      t.flash.words = s.flash.words ∧
      SteadyRegsBut s t [])

/-- R518, R521, R522, R523, R524: a package that passes its checks is Staged; activation hands the processors over one by one,
each with its new version; a failed hand-over latches; reset activation writes a trial boot-record word; the confirmation
window confirms where the readiness self-test passes. -/
def Obligations.PackagesAreActivatedAndConfirmed : Prop :=
  (∀ (s : State) (k : Package), s.Calm → s.RecordsOpen → s.rd R.UPD_STAT_STATE = 2 → s.failingCheck k = none →
    s.update.repair = false → s.update.fromRom = false → k.version < 2 ^ 32 → k.svn < 2 ^ 16 →
      ∃ t, exec (.verifyDone k) s = .next t ∧
      t.rd R.UPD_STAT_STATE = 3 ∧
      t.rd R.UPD_STAGED_VER = k.version ∧
      t.rd R.UPD_SVN_STAGED = k.svn ∧
      t.bankPkg (s.rd R.UPD_STAT_STAGE_BANK) = some k) ∧
  (∀ (s : State) (k : Package) (c : Nat × Nat), s.Sound → s.rd R.UPD_STAT_STATE = 2 → s.failingCheck k = some c →
      ∃ t, exec (.verifyDone k) s = .next t ∧
      t.rd R.UPD_STAT_STATE = 0 ∧
      t.rd R.UPD_REJECT_CODE = c.1 ∧
      t.rd R.UPD_REJECT_MIX = c.2 ∧
      t.rd R.UPD_STAT_LOCK = 0 ∧
      t.bankPkg (s.rd R.UPD_STAT_STAGE_BANK) = none ∧
      t.bit (R.FLT_STAT (srcPage 227 0)) (srcBit 227) = true ∧
      t.flash = s.flash) ∧
  (∀ (s : State) (k : Package), s.Sound → s.rd R.UPD_STAT_STATE = 2 → s.failingCheck k = none → s.update.repair = true →
    k.version = s.runVersion →
      ∃ t, exec (.verifyDone k) s = .next t ∧
      t.rd R.UPD_STAT_STATE = 0 ∧
      t.flag R.UPD_STAT_REPAIR = false ∧
      t.rd R.UPD_STAT_LOCK = 0 ∧
      t.bankPkg (s.rd R.UPD_STAT_STAGE_BANK) = some k) ∧
  (∀ (s : State) (k : Package), s.Sound → s.rd R.UPD_STAT_STATE = 2 → s.failingCheck k = none → s.update.repair = true →
    k.version ≠ s.runVersion →
      ∃ t, exec (.verifyDone k) s = .next t ∧
      t.rd R.UPD_STAT_STATE = 0 ∧
      t.rd R.UPD_STAT_LOCK = 0 ∧
      t.bankPkg (s.rd R.UPD_STAT_STAGE_BANK) = none ∧
      t.freeCtr ≠ s.freeCtr) ∧
  (∀ (s : State) (k : Package), s.Sound → s.rd R.UPD_STAT_STATE = 2 → s.failingCheck k = none → s.update.repair = false →
    s.update.fromRom = false →
      ∃ t, exec (.verifyDone k) s = .next t ∧
      t.rd R.UPD_STAT_STATE = 3 ∧
      t.rd R.UPD_STAGED_VER = k.version % 2 ^ 32 ∧
      t.bankPkg (s.rd R.UPD_STAT_STAGE_BANK) = some k) ∧
  (∀ (s : State) (k : Package), s.Sound → s.rd R.UPD_STAT_STATE = 2 → s.failingCheck k = none → s.update.repair = false →
    s.update.fromRom = true →
      ∃ t, exec (.verifyDone k) s = .next t ∧
      t.power.life = .starting ∧
      t.power.runSteps = [1] ∧
      t.rd R.SNT_FAILS_COLD = 0 ∧
      t.flag R.SNT_FAILS_RECOVERY = false ∧
      t.flash.bootA = (s.bootWrite (s.rd R.UPD_STAT_STAGE_BANK) k.svn true).flash.bootA) ∧
  (∀ (s : State) (port p : Nat) (l : List Nat) (k : Package), s.Calm → s.MailboxTakes port → s.steepReady = true →
    s.isAdmin port = true → s.power.life ≠ .recovery → s.lockedOut (s.source port false) = false → s.bankPkg (s.rd
    R.UPD_STAT_STAGE_BANK) = some k → s.rd R.UPD_STAT_STATE = 3 → s.rd R.STP_STAT_PHASE = 4 → s.rd R.KLN_STAT_STATE = 1 →
    k.digestsOk = true → s.resetBarred k = false → [1, 2, 3, 4, 5].filter (fun n => s.present n && k.images.any (fun i =>
    i.typ == n)) = p :: l →
      ∃ t, exec (.updateActivate port) s = .next t ∧
      t.rd R.UPD_STAT_STATE = 4 ∧
      t.rd R.UPD_STAT_PROC = p ∧
      t.update.left = p :: l ∧
      t.halted.contains p = true ∧
      t.out = [.reply port 0 []]) ∧
  (∀ (s : State) (port : Nat) (k : Package), s.Sound → s.UpdateTakes port → s.lockedOut (s.source port false) = false →
    s.bankPkg (s.rd R.UPD_STAT_STAGE_BANK) = some k → s.rd R.UPD_STAT_STATE = 3 → s.rd R.STP_STAT_PHASE = 4 → s.rd
    R.KLN_STAT_STATE = 1 → s.rd R.SAF_STAT_STATE = 0 → k.digestsOk = true → s.resetBarred k = false →
      ∃ t, exec (.updateActivate port) s = .next t ∧
      t.rd R.UPD_STAT_STATE = (if [1, 2, 3, 4, 5].any (fun n => s.present n && k.images.any (fun i => i.typ == n)) then
        4 else 5) ∧
      t.update.left = [1, 2, 3, 4, 5].filter (fun n => s.present n && k.images.any (fun i => i.typ == n)) ∧
      .reply port 0 [] ∈ t.out ∧
      t.flash.words = s.flash.words) ∧
  (∀ (s : State) (port : Nat) (k : Package), s.Sound → s.UpdateTakes port → s.lockedOut (s.source port false) = false →
    s.bankPkg (s.rd R.UPD_STAT_STAGE_BANK) = some k → s.rd R.UPD_STAT_STATE = 3 → (s.rd R.STP_STAT_PHASE ≠ 4 ∨ s.rd
    R.KLN_STAT_STATE ≠ 1 ∨ s.rd R.SAF_STAT_STATE ≠ 0) →
      ∃ t, exec (.updateActivate port) s = .next t ∧
      .reply port 6 [] ∈ t.out ∧
      t.rd R.UPD_STAT_STATE = 3 ∧
      t.flash.words = s.flash.words) ∧
  (∀ (s : State) (port p : Nat) (l : List Nat) (k : Package), s.Calm → s.MailboxTakes port → s.steepReady = true →
    s.isAdmin port = true → s.power.life ≠ .recovery → s.lockedOut (s.source port true) = false → s.bankPkg (s.rd
    R.UPD_STAT_STAGE_BANK) = some k → s.rd R.UPD_STAT_STATE = 3 → s.rd R.STP_STAT_PHASE = 4 → s.rd R.KLN_STAT_STATE = 1 →
    k.digestsOk = true → s.resetBarred k = false → [1, 2, 3, 4, 5].filter (fun n => s.present n && k.images.any (fun i =>
    i.typ == n)) = p :: l →
      ∃ t, exec (.activateFwOnline port) s = .next t ∧
      t.rd R.UPD_STAT_STATE = 4 ∧
      t.rd R.UPD_STAT_PROC = p ∧
      t.update.left = p :: l ∧
      t.halted.contains p = true ∧
      t.out = [.reply port 0 []]) ∧
  (∀ (s : State) (port : Nat) (k : Package), s.Sound → s.UpdateTakes port → s.lockedOut (s.source port true) = false →
    s.bankPkg (s.rd R.UPD_STAT_STAGE_BANK) = some k → s.rd R.UPD_STAT_STATE = 3 → s.rd R.STP_STAT_PHASE = 4 → s.rd
    R.KLN_STAT_STATE = 1 → s.rd R.SAF_STAT_STATE = 0 → k.digestsOk = true → s.resetBarred k = false →
      ∃ t, exec (.activateFwOnline port) s = .next t ∧
      t.rd R.UPD_STAT_STATE = (if [1, 2, 3, 4, 5].any (fun n => s.present n && k.images.any (fun i => i.typ == n)) then
        4 else 5) ∧
      t.update.left = [1, 2, 3, 4, 5].filter (fun n => s.present n && k.images.any (fun i => i.typ == n)) ∧
      .reply port 0 [] ∈ t.out ∧
      t.flash.words = s.flash.words) ∧
  (∀ (s : State) (port : Nat) (k : Package), s.Sound → s.UpdateTakes port → s.lockedOut (s.source port true) = false →
    s.bankPkg (s.rd R.UPD_STAT_STAGE_BANK) = some k → s.rd R.UPD_STAT_STATE = 3 → (s.rd R.STP_STAT_PHASE ≠ 4 ∨ s.rd
    R.KLN_STAT_STATE ≠ 1 ∨ s.rd R.SAF_STAT_STATE ≠ 0) →
      ∃ t, exec (.activateFwOnline port) s = .next t ∧
      .reply port 6 [] ∈ t.out ∧
      t.rd R.UPD_STAT_STATE = 3 ∧
      t.flash.words = s.flash.words) ∧
  (∀ (s : State) (port : Nat) (k : Package), s.Calm → s.MailboxTakes port → s.steepReady = true → s.isAdmin port = true →
    s.power.life ≠ .recovery → s.lockedOut (s.source port false) = false → s.bankPkg (s.rd R.UPD_STAT_STAGE_BANK) = some k
    → s.rd R.UPD_STAT_STATE = 3 → s.kiln.since = false →
      ∃ t, exec (.updateActivateAtReset port) s = .next t ∧
      t.rd R.UPD_STAT_STATE = 6 ∧
      t.flash = (s.bootWrite (s.rd R.UPD_STAT_STAGE_BANK) k.svn true).flash ∧
      t.out = [.reply port 0 []] ∧
      SameRegsBut s t [R.UPD_STAT_STATE, R.UPD_LOCK_IDLE, R.HP_MBOX_OPCODE port, R.HP_MBOX_BUSY port] ∧
      SameParts { s with flash := t.flash } t) ∧
  (∀ (s : State) (port : Nat) (k : Package), s.Sound → s.UpdateTakes port → s.lockedOut (s.source port false) = false →
    s.bankPkg (s.rd R.UPD_STAT_STAGE_BANK) = some k → s.rd R.UPD_STAT_STATE = 3 → s.kiln.since = false →
      ∃ t, exec (.updateActivateAtReset port) s = .next t ∧
      t.rd R.UPD_STAT_STATE = 6 ∧
      t.flash.bootA = (s.bootWrite (s.rd R.UPD_STAT_STAGE_BANK) k.svn true).flash.bootA ∧
      t.flash.bootB = (s.bootWrite (s.rd R.UPD_STAT_STAGE_BANK) k.svn true).flash.bootB ∧
      .reply port 0 [] ∈ t.out ∧
      t.flash.words = s.flash.words) ∧
  (∀ (s : State) (port : Nat) (k : Package), s.Calm → s.MailboxTakes port → s.steepReady = true → s.isAdmin port = true →
    s.power.life ≠ .recovery → s.lockedOut (s.source port true) = false → s.bankPkg (s.rd R.UPD_STAT_STAGE_BANK) = some k
    → s.rd R.UPD_STAT_STATE = 3 → s.kiln.since = false →
      ∃ t, exec (.activateFwReset port) s = .next t ∧
      t.rd R.UPD_STAT_STATE = 6 ∧
      t.flash = (s.bootWrite (s.rd R.UPD_STAT_STAGE_BANK) k.svn true).flash ∧
      t.out = [.reply port 0 []] ∧
      SameRegsBut s t [R.UPD_STAT_STATE, R.UPD_LOCK_IDLE, R.HP_MBOX_OPCODE port, R.HP_MBOX_BUSY port] ∧
      SameParts { s with flash := t.flash } t) ∧
  (∀ (s : State) (port : Nat) (k : Package), s.Sound → s.UpdateTakes port → s.lockedOut (s.source port true) = false →
    s.bankPkg (s.rd R.UPD_STAT_STAGE_BANK) = some k → s.rd R.UPD_STAT_STATE = 3 → s.kiln.since = false →
      ∃ t, exec (.activateFwReset port) s = .next t ∧
      t.rd R.UPD_STAT_STATE = 6 ∧
      t.flash.bootA = (s.bootWrite (s.rd R.UPD_STAT_STAGE_BANK) k.svn true).flash.bootA ∧
      t.flash.bootB = (s.bootWrite (s.rd R.UPD_STAT_STAGE_BANK) k.svn true).flash.bootB ∧
      .reply port 0 [] ∈ t.out ∧
      t.flash.words = s.flash.words) ∧
  (∀ (s : State) (p ms : Nat) (l : List Nat) (k : Package), s.Calm → s.rd R.UPD_STAT_STATE = 4 → s.halted.contains p =
    true → s.update.left = p :: l → 0 < p → p < 6 → s.bankPkg (s.rd R.UPD_STAT_STAGE_BANK) = some k → s.changedBlocks k =
    [] → ((k.images.find? (fun i => i.typ == p)).map (fun i => i.version)).getD 0 < 2 ^ 32 → s.held = [] →
      ∃ t, exec (.handoverRunning ms []) s = .next t ∧
      t.rd (R.ID_FWVER p) = ((k.images.find? (fun i => i.typ == p)).map (fun i => i.version)).getD 0 ∧
      t.rd R.UPD_HANDOVER = max (min 255 ms) (s.rd R.UPD_HANDOVER) ∧
      t.update.left = l ∧
      t.update.changed = s.update.changed ++ [p]) ∧
  (∀ (s : State) (p ms : Nat) (l blocks : List Nat) (k : Package), s.Sound → s.rd R.UPD_STAT_STATE = 4 →
    s.halted.contains p = true → s.update.left = p :: l → 0 < p → p < 6 → s.bankPkg (s.rd R.UPD_STAT_STAGE_BANK) = some k
    → s.held = [] →
      ∃ t, exec (.handoverRunning ms blocks) s = .next t ∧
      t.rd (R.ID_FWVER p) = ((k.images.find? (fun i => i.typ == p)).map (fun i => i.version)).getD 0 % 2 ^ 32 ∧
      t.rd R.UPD_HANDOVER = max (min 255 ms) (s.rd R.UPD_HANDOVER) ∧
      t.update.left = l ∧
      t.update.changed = s.update.changed ++ [p] ∧
      t.rd R.UPD_STAT_STATE = (if l = [] then 5 else 4) ∧
      t.flash.words = s.flash.words) ∧
  (∀ (s : State), s.Sound → s.rd R.UPD_STAT_STATE = 4 → s.held = [] →
      ∃ t, exec .handoverFail s = .next t ∧
      t.bit (R.FLT_STAT 0xD1) 1 = true ∧
      t.flash.bootA = s.flash.bootA ∧
      SteadyRegsBut s t []) ∧
  (∀ (s : State), s.Sound → s.rd R.UPD_STAT_STATE = 4 → s.held = [] →
      ∃ t, exec .handoverFail s = .next t ∧
      t.rd R.UPD_STAT_STATE = 3 ∧
      t.flash.words = s.flash.words) ∧
  (∀ (s : State) (a b c : Bool) (k : Package), s.Calm → s.RecordsOpen → s.rd R.UPD_STAT_STATE = 5 → s.readiness a b c = 0
    → s.condAny 36 = false → s.bankPkg (s.rd R.UPD_STAT_STAGE_BANK) = some k → k.svn < 2 ^ 16 → s.kiln.since = false →
      ∃ t, exec (.confirmWindowEnd a b c) s = .next t ∧
      t.rd R.UPD_STAT_STATE = 0 ∧
      t.rd R.UPD_BOOTREC_BANK = s.rd R.UPD_STAT_STAGE_BANK ∧
      t.rd R.UPD_SVN_COUNTER = max k.svn (s.rd R.UPD_SVN_COUNTER) ∧
      t.update.kept = [] ∧
      t.flash = (s.bootWrite (s.rd R.UPD_STAT_STAGE_BANK) k.svn false).flash) ∧
  (∀ (s : State) (a b c : Bool), s.Sound → s.kiln.since = false → s.rd R.UPD_STAT_STATE = 5 → s.readiness a b c ≠ 0 →
      ∃ t, exec (.confirmWindowEnd a b c) s = .next t ∧
      t.rd R.UPD_STAT_STATE = 3 ∧
      t.rd R.KLN_SELFTEST_FAIL = s.readiness a b c ∧
      t.rd R.UPD_COUNTS_FALLBACKS = min 65535 (s.rd R.UPD_COUNTS_FALLBACKS + 1) ∧
      t.flash.bootA = s.flash.bootA) ∧
  (∀ (s : State) (a b c : Bool) (k : Package), s.Sound → s.kiln.since = false → s.rd R.UPD_STAT_STATE = 5 → s.readiness a
    b c = 0 → s.bankPkg (s.rd R.UPD_STAT_STAGE_BANK) = some k →
      ∃ t, exec (.confirmWindowEnd a b c) s = .next t ∧
      t.rd R.UPD_STAT_STATE = 0 ∧
      t.rd R.UPD_BOOTREC_BANK = s.rd R.UPD_STAT_STAGE_BANK ∧
      t.update.kept = [] ∧
      t.flash.bootA = (s.bootWrite (s.rd R.UPD_STAT_STAGE_BANK) k.svn false).flash.bootA)
end

