-- ==== Sys2Proof/Laws/Maps.lean ====
section
/-!
SUPPORT. Laws/Maps.lean: number maps, the register file and byte memory: a read after a write, and that every operation keeps
the canonical form.
-/

namespace Sys2Proof.Machine

set_option Elab.async false
set_option linter.unusedTactic false
set_option linter.unreachableTactic false

/-! ### Number maps -/

theorem NMap.wfFrom_mono {m : NMap} {a b : Nat} (h : NMap.wfFrom a m = true) (hb : b ≤ a) : NMap.wfFrom b m = true := by
  cases m with
  | nil => rfl
  | cons e t =>
    simp only [NMap.wfFrom, Bool.and_eq_true, decide_eq_true_eq] at h ⊢
    exact ⟨⟨by omega, h.1.2⟩, h.2⟩

theorem NMap.get_eq_zero_of_wfFrom {m : NMap} {b k : Nat} (h : NMap.wfFrom b m = true) (hk : k < b) : m.get k = 0 := by
  induction m generalizing b with
  | nil => rfl
  | cons e t ih =>
    obtain ⟨k', v'⟩ := e
    simp only [NMap.wfFrom, Bool.and_eq_true, decide_eq_true_eq] at h
    have hne : ¬ k = k' := by omega
    simp only [NMap.get, hne, if_false]
    exact ih h.2 (by omega)

/-- A read at another key does not see the write. -/
theorem NMap.get_set_ne (m : NMap) {k j : Nat} (v : Nat) (h : j ≠ k) : (m.set k v).get j = m.get j := by
  induction m with
  | nil => by_cases hv : v = 0 <;> simp [NMap.set, NMap.get, hv, h]
  | cons e t ih =>
    obtain ⟨k', v'⟩ := e
    simp only [NMap.set]
    split
    · split <;> simp [NMap.get, h]
    · split
      · rename_i hk
        subst hk
        split <;> simp [NMap.get, h]
      · simp [NMap.get, ih]

theorem NMap.get_set_self_from {m : NMap} {b : Nat} (k v : Nat) (h : NMap.wfFrom b m = true) : (m.set k v).get k = v := by
  induction m generalizing b with
  | nil => by_cases hv : v = 0 <;> simp [NMap.set, NMap.get, hv]
  | cons e t ih =>
    obtain ⟨k', v'⟩ := e
    have h' := h
    simp only [NMap.wfFrom, Bool.and_eq_true, decide_eq_true_eq] at h
    simp only [NMap.set]
    split
    · split
      · rename_i hk hv
        have hne : ¬ k = k' := by omega
        simp only [NMap.get, hne, if_false, hv]
        exact NMap.get_eq_zero_of_wfFrom h.2 (by omega)
      · simp [NMap.get]
    · split
      · rename_i hk
        subst hk
        split
        · rename_i hv
          rw [hv]
          exact NMap.get_eq_zero_of_wfFrom h.2 (by omega)
        · simp [NMap.get]
      · rename_i hk
        simp only [NMap.get, hk, if_false]
        exact ih h.2

/-- A read at the key that was written gives the value written. -/
theorem NMap.get_set_self {m : NMap} (k v : Nat) (h : m.wf = true) : (m.set k v).get k = v :=
  NMap.get_set_self_from k v h

theorem NMap.wfFrom_set {m : NMap} {b : Nat} (k v : Nat) (hb : b ≤ k) (h : NMap.wfFrom b m = true) :
    NMap.wfFrom b (m.set k v) = true := by
  induction m generalizing b with
  | nil => by_cases hv : v = 0 <;> simp [NMap.set, NMap.wfFrom, hv, hb]
  | cons e t ih =>
    obtain ⟨k', v'⟩ := e
    have h' := h
    simp only [NMap.wfFrom, Bool.and_eq_true, decide_eq_true_eq] at h
    simp only [NMap.set]
    split
    · split
      · exact h'
      · rename_i hk hv
        simp only [NMap.wfFrom, Bool.and_eq_true, decide_eq_true_eq]
        exact ⟨⟨hb, hv⟩, ⟨⟨by omega, h.1.2⟩, h.2⟩⟩
    · split
      · split
        · exact NMap.wfFrom_mono h.2 (by omega)
        · rename_i hk hv
          subst hk
          simp only [NMap.wfFrom, Bool.and_eq_true, decide_eq_true_eq]
          exact ⟨⟨hb, hv⟩, h.2⟩
      · simp only [NMap.wfFrom, Bool.and_eq_true, decide_eq_true_eq]
        exact ⟨h.1, ih (by omega) h.2⟩

/-- A write keeps the canonical form. -/
theorem NMap.wf_set {m : NMap} (k v : Nat) (h : m.wf = true) : (m.set k v).wf = true :=
  NMap.wfFrom_set k v (Nat.zero_le k) h

theorem NMap.wfFrom_keep {m : NMap} {b : Nat} (p : Nat → Bool) (h : NMap.wfFrom b m = true) :
    NMap.wfFrom b (m.keep p) = true := by
  induction m generalizing b with
  | nil => rfl
  | cons e t ih =>
    obtain ⟨k', v'⟩ := e
    simp only [NMap.wfFrom, Bool.and_eq_true, decide_eq_true_eq] at h
    simp only [NMap.keep, List.filter]
    split
    · simp only [NMap.wfFrom, Bool.and_eq_true, decide_eq_true_eq]
      exact ⟨h.1, ih h.2⟩
    · exact NMap.wfFrom_mono (ih h.2) (by omega)

/-- Taking entries away keeps the canonical form. -/
theorem NMap.wf_keep {m : NMap} (p : Nat → Bool) (h : m.wf = true) : (m.keep p).wf = true :=
  NMap.wfFrom_keep p h

/-- Entries that are kept read as before. -/
theorem NMap.get_keep_pos (m : NMap) {p : Nat → Bool} {k : Nat} (h : p k = true) : (m.keep p).get k = m.get k := by
  induction m with
  | nil => rfl
  | cons e t ih =>
    obtain ⟨k', v'⟩ := e
    simp only [NMap.keep, List.filter] at ih ⊢
    split
    · simp only [NMap.get, ih]
    · rename_i hp
      have hne : ¬ k = k' := by
        intro hk
        subst hk
        simp [h] at hp
      simp only [NMap.get, hne, if_false, ih]

/-- Entries that are not kept read as 0. -/
theorem NMap.get_keep_neg (m : NMap) {p : Nat → Bool} {k : Nat} (h : p k = false) : (m.keep p).get k = 0 := by
  induction m with
  | nil => rfl
  | cons e t ih =>
    obtain ⟨k', v'⟩ := e
    simp only [NMap.keep, List.filter] at ih ⊢
    split
    · rename_i hp
      have hne : ¬ k = k' := by
        intro hk
        subst hk
        simp [h] at hp
      simp only [NMap.get, hne, if_false, ih]
    · exact ih

/-! ### The register file -/

theorem RegFile.xor_cancel (a b : Nat) : a ^^^ b ^^^ b = a := by
  rw [Nat.xor_assoc, Nat.xor_self, Nat.xor_zero]

/-- A field reads as it was written, cut to its width (R6). -/
theorem RegFile.rd_wr_self {m : NMap} (f : Fld) (v : Nat) (h : m.wf = true) :
    RegFile.rd (RegFile.wr m f v) f = v % 2 ^ f.width := by
  simp only [RegFile.rd, RegFile.wr, NMap.get_set_self _ _ h, RegFile.xor_cancel]

/-- A write of one field leaves every other field alone. -/
theorem RegFile.rd_wr_ne (m : NMap) {f g : Fld} (v : Nat) (h : g.key ≠ f.key) :
    RegFile.rd (RegFile.wr m f v) g = RegFile.rd m g := by
  simp only [RegFile.rd, RegFile.wr, NMap.get_set_ne _ _ h]

theorem RegFile.wf_wr {m : NMap} (f : Fld) (v : Nat) (h : m.wf = true) : NMap.wf (RegFile.wr m f v) = true :=
  NMap.wf_set _ _ h

/-! ### Byte memory -/

theorem Memory.wfFrom_mono {m : Memory} {a b : Nat} (h : Memory.wfFrom a m = true) (hb : b ≤ a) :
    Memory.wfFrom b m = true := by
  cases m with
  | nil => rfl
  | cons e t =>
    simp only [Memory.wfFrom, Bool.and_eq_true, decide_eq_true_eq] at h ⊢
    exact ⟨⟨by omega, h.1.2⟩, h.2⟩

theorem Memory.byte_eq_zero_of_wfFrom {m : Memory} {b a : Nat} (h : Memory.wfFrom b m = true) (ha : a < b) :
    m.byte a = 0 := by
  induction m generalizing b with
  | nil => rfl
  | cons e t ih =>
    obtain ⟨k', v'⟩ := e
    simp only [Memory.wfFrom, Bool.and_eq_true, decide_eq_true_eq] at h
    have hne : ¬ a = k' := by omega
    simp only [Memory.byte, hne, if_false]
    exact ih h.2 (by omega)

/-- A write of one byte leaves every other byte alone. -/
theorem Memory.byte_setByte_ne (m : Memory) {a b : Nat} (v : Byte) (h : b ≠ a) : (m.setByte a v).byte b = m.byte b := by
  induction m with
  | nil =>
    simp only [Memory.setByte]
    split <;> simp [Memory.byte, h]
  | cons e t ih =>
    obtain ⟨k', v'⟩ := e
    simp only [Memory.setByte]
    split
    · split <;> simp [Memory.byte, h]
    · split
      · rename_i hk
        subst hk
        split <;> simp [Memory.byte, h]
      · simp [Memory.byte, ih]

theorem Memory.byte_setByte_self_from {m : Memory} {b : Nat} (a : Nat) (v : Byte) (h : Memory.wfFrom b m = true) :
    (m.setByte a v).byte a = v := by
  induction m generalizing b with
  | nil =>
    simp only [Memory.setByte]
    split
    · rename_i hv
      simp [Memory.byte, hv]
    · simp [Memory.byte]
  | cons e t ih =>
    obtain ⟨k', v'⟩ := e
    simp only [Memory.wfFrom, Bool.and_eq_true, decide_eq_true_eq] at h
    simp only [Memory.setByte]
    split
    · split
      · rename_i hk hv
        have hne : ¬ a = k' := by omega
        simp only [Memory.byte, hne, if_false, hv]
        exact Memory.byte_eq_zero_of_wfFrom h.2 (by omega)
      · simp [Memory.byte]
    · split
      · rename_i hk
        subst hk
        split
        · rename_i hv
          rw [hv]
          exact Memory.byte_eq_zero_of_wfFrom h.2 (by omega)
        · simp [Memory.byte]
      · rename_i hk
        simp only [Memory.byte, hk, if_false]
        exact ih h.2

/-- A byte reads as it was written. -/
theorem Memory.byte_setByte_self {m : Memory} (a : Nat) (v : Byte) (h : m.wf = true) : (m.setByte a v).byte a = v :=
  Memory.byte_setByte_self_from a v h

theorem Memory.wfFrom_setByte {m : Memory} {b : Nat} (a : Nat) (v : Byte) (hb : b ≤ a) (h : Memory.wfFrom b m = true) :
    Memory.wfFrom b (m.setByte a v) = true := by
  induction m generalizing b with
  | nil =>
    simp only [Memory.setByte]
    split
    · rfl
    · rename_i hv
      simp only [Memory.wfFrom, Bool.and_eq_true, decide_eq_true_eq]
      exact ⟨⟨hb, hv⟩, trivial⟩
  | cons e t ih =>
    obtain ⟨k', v'⟩ := e
    have h' := h
    simp only [Memory.wfFrom, Bool.and_eq_true, decide_eq_true_eq] at h
    simp only [Memory.setByte]
    split
    · split
      · exact h'
      · rename_i hk hv
        simp only [Memory.wfFrom, Bool.and_eq_true, decide_eq_true_eq]
        exact ⟨⟨hb, hv⟩, ⟨⟨by omega, h.1.2⟩, h.2⟩⟩
    · split
      · split
        · exact Memory.wfFrom_mono h.2 (by omega)
        · rename_i hk hv
          subst hk
          simp only [Memory.wfFrom, Bool.and_eq_true, decide_eq_true_eq]
          exact ⟨⟨hb, hv⟩, h.2⟩
      · simp only [Memory.wfFrom, Bool.and_eq_true, decide_eq_true_eq]
        exact ⟨h.1, ih (by omega) h.2⟩

/-- A write of one byte keeps the canonical form. -/
theorem Memory.wf_setByte {m : Memory} (a : Nat) (v : Byte) (h : m.wf = true) : (m.setByte a v).wf = true :=
  Memory.wfFrom_setByte a v (Nat.zero_le a) h

/-- A write of a run of bytes keeps the canonical form. -/
theorem Memory.wf_write {m : Memory} (a : Nat) (bs : List Byte) (h : m.wf = true) : (m.write a bs).wf = true := by
  induction bs generalizing m a with
  | nil => exact h
  | cons b t ih => exact ih (a + 1) (Memory.wf_setByte a b h)

theorem Memory.wfFrom_filter {m : Memory} {b : Nat} (p : Host.Cell → Bool) (h : Memory.wfFrom b m = true) :
    Memory.wfFrom b (m.filter p) = true := by
  induction m generalizing b with
  | nil => rfl
  | cons e t ih =>
    obtain ⟨k', v'⟩ := e
    simp only [Memory.wfFrom, Bool.and_eq_true, decide_eq_true_eq] at h
    simp only [List.filter]
    split
    · simp only [Memory.wfFrom, Bool.and_eq_true, decide_eq_true_eq]
      exact ⟨h.1, ih h.2⟩
    · exact Memory.wfFrom_mono (ih h.2) (by omega)

theorem Memory.wf_overlay {m : Memory} (base n : Nat) (img : Memory) (h : m.wf = true) :
    (m.overlay base n img).wf = true := by
  induction img generalizing m with
  | nil => exact h
  | cons e t ih =>
    simp only [Memory.overlay]
    split
    · exact ih (Memory.wf_setByte _ _ h)
    · exact ih h

/-- Replacing a block of bytes keeps the canonical form, whatever the block's image is. -/
theorem Memory.wf_paste {m : Memory} (base n : Nat) (img : Memory) (h : m.wf = true) : (m.paste base n img).wf = true :=
  Memory.wf_overlay base n img (Memory.wfFrom_filter _ h)

theorem Memory.byte_filter_pos (m : Memory) {p : Host.Cell → Bool} {a : Nat} (h : ∀ v, p (a, v) = true) :
    Memory.byte (m.filter p) a = m.byte a := by
  induction m with
  | nil => rfl
  | cons e t ih =>
    obtain ⟨k', v'⟩ := e
    simp only [List.filter]
    split
    · simp only [Memory.byte, ih]
    · rename_i hp
      have hne : ¬ a = k' := by
        intro hk
        subst hk
        simp [h v'] at hp
      simp only [Memory.byte, hne, if_false, ih]

theorem Memory.byte_overlay_ne (m : Memory) (base n : Nat) (img : Memory) {a : Nat} (h : a < base ∨ base + n ≤ a) :
    (m.overlay base n img).byte a = m.byte a := by
  induction img generalizing m with
  | nil => rfl
  | cons e t ih =>
    obtain ⟨k, v⟩ := e
    simp only [Memory.overlay]
    rw [ih]
    split
    · exact Memory.byte_setByte_ne _ _ (by omega)
    · rfl

/-- Replacing a block of bytes leaves every byte outside the block alone. -/
theorem Memory.byte_paste_ne (m : Memory) (base n : Nat) (img : Memory) {a : Nat} (h : a < base ∨ base + n ≤ a) :
    (m.paste base n img).byte a = m.byte a := by
  rw [Memory.paste, Memory.byte_overlay_ne _ _ _ _ h]
  exact Memory.byte_filter_pos _ (fun v => by simp only [Bool.or_eq_true, decide_eq_true_eq]; omega)

end Sys2Proof.Machine
end

