-- ==== Sys2Proof/Laws/State.lean ====
section
/-!
SUPPORT. Laws/State.lean: what each named update of the state does to each field: true by unfolding, tagged for the simplifier.
-/

namespace Sys2Proof.Machine

set_option Elab.async false
set_option linter.unusedTactic false
set_option linter.unreachableTactic false

/-! ### A register write -/

@[simp] theorem State.wr_variant (s : State) (f : Fld) (v : Nat) : (s.wr f v).variant = s.variant := rfl
@[simp] theorem State.wr_regs (s : State) (f : Fld) (v : Nat) : (s.wr f v).regs = RegFile.wr s.regs f v := rfl
@[simp] theorem State.wr_staged (s : State) (f : Fld) (v : Nat) : (s.wr f v).staged = s.staged := rfl
@[simp] theorem State.wr_latched (s : State) (f : Fld) (v : Nat) : (s.wr f v).latched = s.latched := rfl
@[simp] theorem State.wr_track (s : State) (f : Fld) (v : Nat) : (s.wr f v).track = s.track := rfl
@[simp] theorem State.wr_maint (s : State) (f : Fld) (v : Nat) : (s.wr f v).maint = s.maint := rfl
@[simp] theorem State.wr_safe (s : State) (f : Fld) (v : Nat) : (s.wr f v).safe = s.safe := rfl
@[simp] theorem State.wr_recs (s : State) (f : Fld) (v : Nat) : (s.wr f v).recs = s.recs := rfl
@[simp] theorem State.wr_hostA (s : State) (f : Fld) (v : Nat) : (s.wr f v).hostA = s.hostA := rfl
@[simp] theorem State.wr_hostB (s : State) (f : Fld) (v : Nat) : (s.wr f v).hostB = s.hostB := rfl
@[simp] theorem State.wr_dram (s : State) (f : Fld) (v : Nat) : (s.wr f v).dram = s.dram := rfl
@[simp] theorem State.wr_dirty (s : State) (f : Fld) (v : Nat) : (s.wr f v).dirty = s.dirty := rfl
@[simp] theorem State.wr_budget (s : State) (f : Fld) (v : Nat) : (s.wr f v).budget = s.budget := rfl
@[simp] theorem State.wr_kiln (s : State) (f : Fld) (v : Nat) : (s.wr f v).kiln = s.kiln := rfl
@[simp] theorem State.wr_cellar (s : State) (f : Fld) (v : Nat) : (s.wr f v).cellar = s.cellar := rfl
@[simp] theorem State.wr_steep (s : State) (f : Fld) (v : Nat) : (s.wr f v).steep = s.steep := rfl
@[simp] theorem State.wr_queues (s : State) (f : Fld) (v : Nat) : (s.wr f v).queues = s.queues := rfl
@[simp] theorem State.wr_fabric (s : State) (f : Fld) (v : Nat) : (s.wr f v).fabric = s.fabric := rfl
@[simp] theorem State.wr_racking (s : State) (f : Fld) (v : Nat) : (s.wr f v).racking = s.racking := rfl
@[simp] theorem State.wr_packA (s : State) (f : Fld) (v : Nat) : (s.wr f v).packA = s.packA := rfl
@[simp] theorem State.wr_packB (s : State) (f : Fld) (v : Nat) : (s.wr f v).packB = s.packB := rfl
@[simp] theorem State.wr_learnt (s : State) (f : Fld) (v : Nat) : (s.wr f v).learnt = s.learnt := rfl
@[simp] theorem State.wr_seq (s : State) (f : Fld) (v : Nat) : (s.wr f v).seq = s.seq := rfl
@[simp] theorem State.wr_power (s : State) (f : Fld) (v : Nat) : (s.wr f v).power = s.power := rfl
@[simp] theorem State.wr_cal (s : State) (f : Fld) (v : Nat) : (s.wr f v).cal = s.cal := rfl
@[simp] theorem State.wr_flash (s : State) (f : Fld) (v : Nat) : (s.wr f v).flash = s.flash := rfl
@[simp] theorem State.wr_update (s : State) (f : Fld) (v : Nat) : (s.wr f v).update = s.update := rfl
@[simp] theorem State.wr_halted (s : State) (f : Fld) (v : Nat) : (s.wr f v).halted = s.halted := rfl
@[simp] theorem State.wr_badClocks (s : State) (f : Fld) (v : Nat) : (s.wr f v).badClocks = s.badClocks := rfl
@[simp] theorem State.wr_hostTime (s : State) (f : Fld) (v : Nat) : (s.wr f v).hostTime = s.hostTime := rfl
@[simp] theorem State.wr_hostTimeAt (s : State) (f : Fld) (v : Nat) : (s.wr f v).hostTimeAt = s.hostTimeAt := rfl
@[simp] theorem State.wr_freeCtr (s : State) (f : Fld) (v : Nat) : (s.wr f v).freeCtr = s.freeCtr := rfl
@[simp] theorem State.wr_held (s : State) (f : Fld) (v : Nat) : (s.wr f v).held = s.held := rfl
@[simp] theorem State.wr_out (s : State) (f : Fld) (v : Nat) : (s.wr f v).out = s.out := rfl
@[simp] theorem State.wr_pending (s : State) (f : Fld) (v : Nat) : (s.wr f v).pending = s.pending := rfl

/-! ### Sending -/

@[simp] theorem State.send_variant (s : State) (o : Output) : (s.send o).variant = s.variant := rfl
@[simp] theorem State.send_regs (s : State) (o : Output) : (s.send o).regs = s.regs := rfl
@[simp] theorem State.send_staged (s : State) (o : Output) : (s.send o).staged = s.staged := rfl
@[simp] theorem State.send_latched (s : State) (o : Output) : (s.send o).latched = s.latched := rfl
@[simp] theorem State.send_track (s : State) (o : Output) : (s.send o).track = s.track := rfl
@[simp] theorem State.send_maint (s : State) (o : Output) : (s.send o).maint = s.maint := rfl
@[simp] theorem State.send_safe (s : State) (o : Output) : (s.send o).safe = s.safe := rfl
@[simp] theorem State.send_recs (s : State) (o : Output) : (s.send o).recs = s.recs := rfl
@[simp] theorem State.send_hostA (s : State) (o : Output) : (s.send o).hostA = s.hostA := rfl
@[simp] theorem State.send_hostB (s : State) (o : Output) : (s.send o).hostB = s.hostB := rfl
@[simp] theorem State.send_dram (s : State) (o : Output) : (s.send o).dram = s.dram := rfl
@[simp] theorem State.send_dirty (s : State) (o : Output) : (s.send o).dirty = s.dirty := rfl
@[simp] theorem State.send_budget (s : State) (o : Output) : (s.send o).budget = s.budget := rfl
@[simp] theorem State.send_kiln (s : State) (o : Output) : (s.send o).kiln = s.kiln := rfl
@[simp] theorem State.send_cellar (s : State) (o : Output) : (s.send o).cellar = s.cellar := rfl
@[simp] theorem State.send_steep (s : State) (o : Output) : (s.send o).steep = s.steep := rfl
@[simp] theorem State.send_queues (s : State) (o : Output) : (s.send o).queues = s.queues := rfl
@[simp] theorem State.send_fabric (s : State) (o : Output) : (s.send o).fabric = s.fabric := rfl
@[simp] theorem State.send_racking (s : State) (o : Output) : (s.send o).racking = s.racking := rfl
@[simp] theorem State.send_packA (s : State) (o : Output) : (s.send o).packA = s.packA := rfl
@[simp] theorem State.send_packB (s : State) (o : Output) : (s.send o).packB = s.packB := rfl
@[simp] theorem State.send_learnt (s : State) (o : Output) : (s.send o).learnt = s.learnt := rfl
@[simp] theorem State.send_seq (s : State) (o : Output) : (s.send o).seq = s.seq := rfl
@[simp] theorem State.send_power (s : State) (o : Output) : (s.send o).power = s.power := rfl
@[simp] theorem State.send_cal (s : State) (o : Output) : (s.send o).cal = s.cal := rfl
@[simp] theorem State.send_flash (s : State) (o : Output) : (s.send o).flash = s.flash := rfl
@[simp] theorem State.send_update (s : State) (o : Output) : (s.send o).update = s.update := rfl
@[simp] theorem State.send_halted (s : State) (o : Output) : (s.send o).halted = s.halted := rfl
@[simp] theorem State.send_badClocks (s : State) (o : Output) : (s.send o).badClocks = s.badClocks := rfl
@[simp] theorem State.send_hostTime (s : State) (o : Output) : (s.send o).hostTime = s.hostTime := rfl
@[simp] theorem State.send_hostTimeAt (s : State) (o : Output) : (s.send o).hostTimeAt = s.hostTimeAt := rfl
@[simp] theorem State.send_freeCtr (s : State) (o : Output) : (s.send o).freeCtr = s.freeCtr := rfl
@[simp] theorem State.send_held (s : State) (o : Output) : (s.send o).held = s.held := rfl
@[simp] theorem State.send_out (s : State) (o : Output) : (s.send o).out = s.out ++ [o] := rfl
@[simp] theorem State.send_pending (s : State) (o : Output) : (s.send o).pending = s.pending := rfl

/-! ### The start of a command -/

@[simp] theorem State.begin_variant (s : State) : s.begin.variant = s.variant := rfl
@[simp] theorem State.begin_regs (s : State) : s.begin.regs = s.regs := rfl
@[simp] theorem State.begin_staged (s : State) : s.begin.staged = s.staged := rfl
@[simp] theorem State.begin_latched (s : State) : s.begin.latched = s.latched := rfl
@[simp] theorem State.begin_track (s : State) : s.begin.track = s.track := rfl
@[simp] theorem State.begin_maint (s : State) : s.begin.maint = s.maint := rfl
@[simp] theorem State.begin_safe (s : State) : s.begin.safe = { s.safe with todo := [] } := rfl
@[simp] theorem State.begin_recs (s : State) : s.begin.recs = s.recs := rfl
@[simp] theorem State.begin_hostA (s : State) : s.begin.hostA = s.hostA := rfl
@[simp] theorem State.begin_hostB (s : State) : s.begin.hostB = s.hostB := rfl
@[simp] theorem State.begin_dram (s : State) : s.begin.dram = s.dram := rfl
@[simp] theorem State.begin_dirty (s : State) : s.begin.dirty = s.dirty := rfl
@[simp] theorem State.begin_budget (s : State) : s.begin.budget = s.budget := rfl
@[simp] theorem State.begin_kiln (s : State) : s.begin.kiln = s.kiln := rfl
@[simp] theorem State.begin_cellar (s : State) : s.begin.cellar = s.cellar := rfl
@[simp] theorem State.begin_steep (s : State) : s.begin.steep = s.steep := rfl
@[simp] theorem State.begin_queues (s : State) : s.begin.queues = s.queues := rfl
@[simp] theorem State.begin_fabric (s : State) : s.begin.fabric = s.fabric := rfl
@[simp] theorem State.begin_racking (s : State) : s.begin.racking = s.racking := rfl
@[simp] theorem State.begin_packA (s : State) : s.begin.packA = s.packA := rfl
@[simp] theorem State.begin_packB (s : State) : s.begin.packB = s.packB := rfl
@[simp] theorem State.begin_learnt (s : State) : s.begin.learnt = s.learnt := rfl
@[simp] theorem State.begin_seq (s : State) : s.begin.seq = s.seq := rfl
@[simp] theorem State.begin_power (s : State) : s.begin.power = s.power := rfl
@[simp] theorem State.begin_cal (s : State) : s.begin.cal = s.cal := rfl
@[simp] theorem State.begin_flash (s : State) : s.begin.flash = s.flash := rfl
@[simp] theorem State.begin_update (s : State) : s.begin.update = { s.update with trigger := false } := rfl
@[simp] theorem State.begin_halted (s : State) : s.begin.halted = s.halted := rfl
@[simp] theorem State.begin_badClocks (s : State) : s.begin.badClocks = s.badClocks := rfl
@[simp] theorem State.begin_hostTime (s : State) : s.begin.hostTime = s.hostTime := rfl
@[simp] theorem State.begin_hostTimeAt (s : State) : s.begin.hostTimeAt = s.hostTimeAt := rfl
@[simp] theorem State.begin_freeCtr (s : State) : s.begin.freeCtr = s.freeCtr := rfl
@[simp] theorem State.begin_held (s : State) : s.begin.held = s.held := rfl
@[simp] theorem State.begin_out (s : State) : s.begin.out = [] := rfl
@[simp] theorem State.begin_pending (s : State) : s.begin.pending = s.pending := rfl

/-! ### A detection -/

@[simp] theorem State.detect_variant (s : State) (src inst : Nat) : (s.detect src inst).variant = s.variant := rfl
@[simp] theorem State.detect_regs (s : State) (src inst : Nat) : (s.detect src inst).regs = s.regs := rfl
@[simp] theorem State.detect_staged (s : State) (src inst : Nat) : (s.detect src inst).staged = s.staged := rfl
@[simp] theorem State.detect_latched (s : State) (src inst : Nat) : (s.detect src inst).latched = s.latched := rfl
@[simp] theorem State.detect_track (s : State) (src inst : Nat) : (s.detect src inst).track = s.track := rfl
@[simp] theorem State.detect_maint (s : State) (src inst : Nat) : (s.detect src inst).maint = s.maint := rfl
@[simp] theorem State.detect_safe (s : State) (src inst : Nat) :
    (s.detect src inst).safe = { s.safe with todo := s.safe.todo ++ [(src, inst)] } := rfl
@[simp] theorem State.detect_recs (s : State) (src inst : Nat) : (s.detect src inst).recs = s.recs := rfl
@[simp] theorem State.detect_hostA (s : State) (src inst : Nat) : (s.detect src inst).hostA = s.hostA := rfl
@[simp] theorem State.detect_hostB (s : State) (src inst : Nat) : (s.detect src inst).hostB = s.hostB := rfl
@[simp] theorem State.detect_dram (s : State) (src inst : Nat) : (s.detect src inst).dram = s.dram := rfl
@[simp] theorem State.detect_dirty (s : State) (src inst : Nat) : (s.detect src inst).dirty = s.dirty := rfl
@[simp] theorem State.detect_budget (s : State) (src inst : Nat) : (s.detect src inst).budget = s.budget := rfl
@[simp] theorem State.detect_kiln (s : State) (src inst : Nat) : (s.detect src inst).kiln = s.kiln := rfl
@[simp] theorem State.detect_cellar (s : State) (src inst : Nat) : (s.detect src inst).cellar = s.cellar := rfl
@[simp] theorem State.detect_steep (s : State) (src inst : Nat) : (s.detect src inst).steep = s.steep := rfl
@[simp] theorem State.detect_queues (s : State) (src inst : Nat) : (s.detect src inst).queues = s.queues := rfl
@[simp] theorem State.detect_fabric (s : State) (src inst : Nat) : (s.detect src inst).fabric = s.fabric := rfl
@[simp] theorem State.detect_racking (s : State) (src inst : Nat) : (s.detect src inst).racking = s.racking := rfl
@[simp] theorem State.detect_packA (s : State) (src inst : Nat) : (s.detect src inst).packA = s.packA := rfl
@[simp] theorem State.detect_packB (s : State) (src inst : Nat) : (s.detect src inst).packB = s.packB := rfl
@[simp] theorem State.detect_learnt (s : State) (src inst : Nat) : (s.detect src inst).learnt = s.learnt := rfl
@[simp] theorem State.detect_seq (s : State) (src inst : Nat) : (s.detect src inst).seq = s.seq := rfl
@[simp] theorem State.detect_power (s : State) (src inst : Nat) : (s.detect src inst).power = s.power := rfl
@[simp] theorem State.detect_cal (s : State) (src inst : Nat) : (s.detect src inst).cal = s.cal := rfl
@[simp] theorem State.detect_flash (s : State) (src inst : Nat) : (s.detect src inst).flash = s.flash := rfl
@[simp] theorem State.detect_update (s : State) (src inst : Nat) : (s.detect src inst).update = s.update := rfl
@[simp] theorem State.detect_halted (s : State) (src inst : Nat) : (s.detect src inst).halted = s.halted := rfl
@[simp] theorem State.detect_badClocks (s : State) (src inst : Nat) : (s.detect src inst).badClocks = s.badClocks := rfl
@[simp] theorem State.detect_hostTime (s : State) (src inst : Nat) : (s.detect src inst).hostTime = s.hostTime := rfl
@[simp] theorem State.detect_hostTimeAt (s : State) (src inst : Nat) : (s.detect src inst).hostTimeAt = s.hostTimeAt := rfl
@[simp] theorem State.detect_freeCtr (s : State) (src inst : Nat) : (s.detect src inst).freeCtr = s.freeCtr := rfl
@[simp] theorem State.detect_held (s : State) (src inst : Nat) : (s.detect src inst).held = s.held := rfl
@[simp] theorem State.detect_out (s : State) (src inst : Nat) : (s.detect src inst).out = s.out := rfl
@[simp] theorem State.detect_pending (s : State) (src inst : Nat) : (s.detect src inst).pending = s.pending := rfl

/-! ### Queue -/

@[simp] theorem State.reset_pending : State.reset.pending = [] := rfl

/-! ### Choices -/

@[simp] theorem State.cond_true (s : State) (g : State → State) : s.cond true g = g s := rfl
@[simp] theorem State.cond_false (s : State) (g : State → State) : s.cond false g = s := rfl

/-! ### Reading registers -/

@[simp] theorem State.rd_begin (s : State) (f : Fld) : s.begin.rd f = s.rd f := rfl
@[simp] theorem State.rd_send (s : State) (o : Output) (f : Fld) : (s.send o).rd f = s.rd f := rfl
@[simp] theorem State.rd_detect (s : State) (src inst : Nat) (f : Fld) : (s.detect src inst).rd f = s.rd f := rfl

/-- A field reads as it was written, cut to its width (R6). -/
theorem State.rd_wr_self {s : State} (f : Fld) (v : Nat) (h : s.regs.wf = true) : (s.wr f v).rd f = v % 2 ^ f.width :=
  RegFile.rd_wr_self f v h

/-- A write of one field leaves every other field alone. -/
theorem State.rd_wr_ne (s : State) {f g : Fld} (v : Nat) (h : g.key ≠ f.key) : (s.wr f v).rd g = s.rd g :=
  RegFile.rd_wr_ne s.regs v h

/-- A register write keeps the canonical form of the registers. -/
theorem State.wf_wr {s : State} (f : Fld) (v : Nat) (h : s.regs.wf = true) : (s.wr f v).regs.wf = true :=
  RegFile.wf_wr f v h

end Sys2Proof.Machine
end

