-- ==== Sys2Proof/Laws/Finish.lean ====
section
/-!
SUPPORT. Laws/Finish.lean: what the end of a command does where nothing was detected and no fault source is active: it brings
the safety manager's page up to date and leaves everything else alone.
-/

namespace Sys2Proof.Machine

set_option Elab.async false
set_option linter.unusedTactic false
set_option linter.unreachableTactic false

/-- `t` has the parts of `u`, registers in canonical form, and the registers of `u` outside the page `SAF`; only the fabric's
request for a state summary may have been raised. -/
structure Settled (u t : State) : Prop where
  wf : t.regs.wf = true
  regs : ∀ k, keyPage k ≠ safPage → t.regs.get k = u.regs.get k
  parts : t = { u with regs := t.regs, fabric := { u.fabric with stateDue := t.fabric.stateDue, changes := t.fabric.changes } }

theorem Settled.refl {u : State} (h : u.regs.wf = true) : Settled u u := ⟨h, fun _ _ => rfl, rfl⟩

theorem Settled.wr {u t : State} (h : Settled u t) {f : Fld} (v : Nat) (hf : keyPage f.key = safPage) : Settled u (t.wr f v) := by
  refine ⟨State.wf_wr f v h.wf, fun k hk => ?_, ?_⟩
  · rw [← h.regs k hk]
    exact NMap.get_set_ne _ _ (fun e => hk (e ▸ hf))
  · have hp := h.parts
    simp only [State.wr]
    rw [hp]

theorem Settled.each {u : State} {n : Nat} {g : State → Nat → State} (hg : ∀ t i, Settled u t → Settled u (g t i)) {t : State}
    (h : Settled u t) : Settled u (t.each n g) := by
  unfold State.each
  generalize List.range n = l
  induction l generalizing t with
  | nil => exact h
  | cons a r ih => exact ih (hg t a h)

theorem keyPage_saf (off lsb idx : Nat) (ho : off < 4096) (hl : lsb < 32) (hi : idx < 4096) (w r : Nat) :
    keyPage (Fld.key { page := safPage, off := off, lsb := lsb, width := w, reset := r, idx := idx }) = safPage := by
  simp only [keyPage, Fld.key, safPage]
  omega

theorem State.showSafe_settled {u t : State} (h : Settled u t) : Settled u t.showSafe := by
  unfold State.showSafe
  simp only
  refine Settled.wr (Settled.wr (Settled.wr (Settled.wr (Settled.wr (Settled.wr ?_ _ ?_) _ ?_) _ ?_) _ ?_) _ ?_) _ ?_ <;>
    try decide
  suffices hs : ∀ (n : Nat) (t : State) (a p : List Nat), n ≤ 8 → Settled u t →
      Settled u (t.each n (fun s w => (s.wr (R.SAF_ACTIVE w) (srcWord a w)).wr (R.SAF_PENDING w) (srcWord p w))) from
    hs 8 t _ _ (Nat.le_refl 8) h
  intro n t a p hn ht
  unfold State.each
  have hl : ∀ w ∈ List.range n, w < 8 := by
    intro w hw
    have := List.mem_range.mp hw
    omega
  generalize List.range n = l at hl
  induction l generalizing t with
  | nil => exact ht
  | cons b r ih =>
    have hb : b < 8 := hl b (by simp)
    refine ih _ (Settled.wr (Settled.wr ht _ ?_) _ ?_) (fun w hw => hl w (by simp [hw])) <;>
      · simp only [keyPage, Fld.key, R.SAF_ACTIVE, R.SAF_PENDING, safPage]
        omega

theorem State.driveErrn_settled {u t : State} (h : Settled u t) : Settled u t.driveErrn := by
  unfold State.driveErrn
  simp only
  split
  · exact h
  · have h2 := Settled.wr h (f := R.SAF_STAT_ERRN_DRIVE) (b2n t.errnLow) (by decide)
    refine ⟨h2.wf, h2.regs, ?_⟩
    have hp := h.parts
    simp only [State.wr]
    rw [hp]

/-- A command that detected nothing and leaves no source active ends with the page `SAF` brought up to date, nothing else. -/
theorem finish_settled {u : State} (hw : u.regs.wf = true) (hg : u.update.trigger = false) (ht : u.safe.todo = [])
    (ha : u.safe.active = []) (hp : u.safe.pend = [])
    (hn : u.rd R.SAF_STAT_STATE = 0 ∨ (u.rd R.SAF_STAT_STATE = 1 ∧ u.kiln.since = true)) (h1 : u.rd R.PST_STATE_PNG_DIAG = 0)
    (h2 : u.rd R.PST_STATE_PAR_MARGIN = 0) (h3 : u.rd R.PST_STATE_DIAG_SRC = 0) : Settled u (finish u) := by
  have hr : u.releaseEnded = u := by
    have : ∀ (sf : Safe), sf.active = [] → ({ sf with active := sf.active.filter (fun a =>
        !(decide (a.sev < 2) && (condSrcs.contains a.src || sticky a.act) && !u.condStands a)) } : Safe) = sf := by
      intro sf h
      cases sf
      simp_all
    unfold State.releaseEnded
    rw [this u.safe ha]
  have hf : u.faultState = u := by
    unfold State.faultState
    rcases hn with hn | ⟨hn, hk⟩
    · simp [hn]
    · simp [hn, hk]
  have hh : u.holdReasons = u := by
    unfold State.holdReasons
    simp [ha, h1, h2, h3, b2n]
  have hq : u.runPending = u := by
    unfold State.runPending
    simp [hp, firstPending]
  unfold finish State.settle
  simp only [hg, ht, hr, hf, hh, hq]
  have hs := State.showSafe_settled (Settled.refl hw)
  have htodo : u.showSafe.safe.todo = [] := by
    rw [hs.parts]
    exact ht
  simp only [htodo, List.isEmpty_nil]
  exact State.driveErrn_settled hs

/-- In a calm state a command that detects nothing ends with the page `SAF` brought up to date, nothing else: `u` is the state
before its end. -/
theorem State.Calm.settles {s u : State} (h : s.Calm) (hw : u.regs.wf = true) (hg : u.update.trigger = false)
    (hs : u.safe = s.begin.safe) (hn : u.rd R.SAF_STAT_STATE = s.rd R.SAF_STAT_STATE)
    (h1 : u.rd R.PST_STATE_PNG_DIAG = s.rd R.PST_STATE_PNG_DIAG)
    (h2 : u.rd R.PST_STATE_PAR_MARGIN = s.rd R.PST_STATE_PAR_MARGIN)
    (h3 : u.rd R.PST_STATE_DIAG_SRC = s.rd R.PST_STATE_DIAG_SRC) : Settled u (finish u) :=
  finish_settled hw hg (by rw [hs]; rfl) (by rw [hs]; exact h.active) (by rw [hs]; exact h.pend) (Or.inl (hn.trans h.normal))
    (h1.trans h.diag) (h2.trans h.margin) (h3.trans h.src)

/-- As `State.Calm.settles`, in a kiln. -/
theorem State.KilnCalm.settles {s u : State} (h : s.KilnCalm) (hw : u.regs.wf = true) (hg : u.update.trigger = false)
    (hs : u.safe = s.begin.safe) (hk : u.kiln.since = true) (hn : u.rd R.SAF_STAT_STATE = s.rd R.SAF_STAT_STATE)
    (h1 : u.rd R.PST_STATE_PNG_DIAG = s.rd R.PST_STATE_PNG_DIAG)
    (h2 : u.rd R.PST_STATE_PAR_MARGIN = s.rd R.PST_STATE_PAR_MARGIN)
    (h3 : u.rd R.PST_STATE_DIAG_SRC = s.rd R.PST_STATE_DIAG_SRC) : Settled u (finish u) :=
  finish_settled hw hg (by rw [hs]; rfl) (by rw [hs]; exact h.active) (by rw [hs]; exact h.pend)
    (Or.inr ⟨hn.trans h.fault, hk⟩) (h1.trans h.diag) (h2.trans h.margin) (h3.trans h.src)

theorem Settled.rd {u t : State} (h : Settled u t) {f : Fld} (hf : keyPage f.key ≠ safPage) : t.rd f = u.rd f := by
  unfold State.rd RegFile.rd
  rw [h.regs _ hf]

theorem Settled.variant_eq {u t : State} (h : Settled u t) : t.variant = u.variant := by rw [h.parts]
theorem Settled.staged_eq {u t : State} (h : Settled u t) : t.staged = u.staged := by rw [h.parts]
theorem Settled.latched_eq {u t : State} (h : Settled u t) : t.latched = u.latched := by rw [h.parts]
theorem Settled.track_eq {u t : State} (h : Settled u t) : t.track = u.track := by rw [h.parts]
theorem Settled.maint_eq {u t : State} (h : Settled u t) : t.maint = u.maint := by rw [h.parts]
theorem Settled.safe_eq {u t : State} (h : Settled u t) : t.safe = u.safe := by rw [h.parts]
theorem Settled.recs_eq {u t : State} (h : Settled u t) : t.recs = u.recs := by rw [h.parts]
theorem Settled.hostA_eq {u t : State} (h : Settled u t) : t.hostA = u.hostA := by rw [h.parts]
theorem Settled.hostB_eq {u t : State} (h : Settled u t) : t.hostB = u.hostB := by rw [h.parts]
theorem Settled.dram_eq {u t : State} (h : Settled u t) : t.dram = u.dram := by rw [h.parts]
theorem Settled.dirty_eq {u t : State} (h : Settled u t) : t.dirty = u.dirty := by rw [h.parts]
theorem Settled.budget_eq {u t : State} (h : Settled u t) : t.budget = u.budget := by rw [h.parts]
theorem Settled.kiln_eq {u t : State} (h : Settled u t) : t.kiln = u.kiln := by rw [h.parts]
theorem Settled.cellar_eq {u t : State} (h : Settled u t) : t.cellar = u.cellar := by rw [h.parts]
theorem Settled.steep_eq {u t : State} (h : Settled u t) : t.steep = u.steep := by rw [h.parts]
theorem Settled.queues_eq {u t : State} (h : Settled u t) : t.queues = u.queues := by rw [h.parts]
theorem Settled.racking_eq {u t : State} (h : Settled u t) : t.racking = u.racking := by rw [h.parts]
theorem Settled.packA_eq {u t : State} (h : Settled u t) : t.packA = u.packA := by rw [h.parts]
theorem Settled.packB_eq {u t : State} (h : Settled u t) : t.packB = u.packB := by rw [h.parts]
theorem Settled.learnt_eq {u t : State} (h : Settled u t) : t.learnt = u.learnt := by rw [h.parts]
theorem Settled.seq_eq {u t : State} (h : Settled u t) : t.seq = u.seq := by rw [h.parts]
theorem Settled.power_eq {u t : State} (h : Settled u t) : t.power = u.power := by rw [h.parts]
theorem Settled.cal_eq {u t : State} (h : Settled u t) : t.cal = u.cal := by rw [h.parts]
theorem Settled.flash_eq {u t : State} (h : Settled u t) : t.flash = u.flash := by rw [h.parts]
theorem Settled.update_eq {u t : State} (h : Settled u t) : t.update = u.update := by rw [h.parts]
theorem Settled.halted_eq {u t : State} (h : Settled u t) : t.halted = u.halted := by rw [h.parts]
theorem Settled.badClocks_eq {u t : State} (h : Settled u t) : t.badClocks = u.badClocks := by rw [h.parts]
theorem Settled.hostTime_eq {u t : State} (h : Settled u t) : t.hostTime = u.hostTime := by rw [h.parts]
theorem Settled.hostTimeAt_eq {u t : State} (h : Settled u t) : t.hostTimeAt = u.hostTimeAt := by rw [h.parts]
theorem Settled.freeCtr_eq {u t : State} (h : Settled u t) : t.freeCtr = u.freeCtr := by rw [h.parts]
theorem Settled.out_eq {u t : State} (h : Settled u t) : t.out = u.out := by rw [h.parts]
theorem Settled.pending_eq {u t : State} (h : Settled u t) : t.pending = u.pending := by rw [h.parts]

end Sys2Proof.Machine
end

