-- ==== Sys2Proof/Laws/Reactive.lean ====
section
/-!
SUPPORT. Laws/Reactive.lean: what the reactions of the safety manager can change. `Reactive P` says that `P` survives every
register write to a field that a reaction can write and every change of a part that a reaction can change; one lemma for each
operation that a reaction runs then says that `P` survives it.
-/

namespace Sys2Proof.Machine

set_option Elab.async false
set_option linter.unusedTactic false
set_option linter.unreachableTactic false

/-- The register fields that a reaction can write in any way: the headers of the pages but `FLT_STAT`, and fields of the pages `ID` (firmware versions),
`PST`, `HP`, `WTH` (state), `KLN`, `STP`, `PQE`, `DFS`, `DLP`, `RCK`, `SEQ`, `PHS` (charge deadlines), `MON` (status), `CAL`,
`SAF`, `TLG`, `PWR` (status), `UPD` and the pack pages (the test requested). -/
def ReactKey (k : Nat) : Prop :=
  k / 131072 % 4096 ≠ 0x010 ∧ (k / 131072 % 4096 < 64 ∨
    (k / 536870912 = 0x00 ∧ 0x50 ≤ k / 131072 % 4096 ∧ k / 131072 % 4096 < 0x68) ∨ k / 536870912 = 0x02 ∨
    k / 536870912 = 0x10 ∨ k / 536870912 = 0x11 ∨ (k / 536870912 = 0x41 ∧ k / 131072 % 4096 = 0x4C) ∨
    k / 536870912 = 0x42 ∨ k / 536870912 = 0x43 ∨ k / 536870912 = 0x80 ∨
    (0x90 ≤ k / 536870912 ∧ k / 536870912 ≤ 0x95) ∨ k / 536870912 = 0xA0 ∨
    (k / 536870912 = 0xB0 ∧ 0x80 ≤ k / 131072 % 4096 ∧ k / 131072 % 4096 < 0xC0) ∨
    (k / 536870912 = 0xB8 ∧ k / 131072 % 4096 = 0x44) ∨ k / 536870912 = 0xB9 ∨ k / 536870912 = 0xC0 ∨
    k / 536870912 = 0xC8 ∨ (k / 536870912 = 0xD8 ∧ k / 131072 % 4096 = 0x4C) ∨ k / 536870912 = 0xD1 ∨
    ((k / 536870912 = 0xA9 ∨ k / 536870912 = 0xAA) ∧ k / 131072 % 4096 = 0xA0))

/-- A `FLT_STAT` field: a reaction only sets bits in it. -/
def LatchKey (k : Nat) : Prop := k / 131072 % 4096 = 0x010

/-- `P` survives what a reaction of the safety manager can do to the state. -/
structure Reactive (P : State → Prop) : Prop where
  wr : ∀ {s : State} {f : Fld} (v : Nat), ReactKey f.key → P s → P (s.wr f v)
  parts : ∀ {s : State} {staged : NMap} {safe : Safe} {recs : Records} {hostA hostB : HostPort} {kiln : Kiln} {steep : Steep}
    {queues : Queues} {fabric : Fabric} {racking : Racking} {packA packB : Pack} {seq : Seq} {power : Power} {cal : Cal}
    {update : Update} {halted : List Nat} {out : List Output},
    (s.staged.wf = true → staged.wf = true) → (update.kept = s.update.kept ∨ update.kept = []) → P s →
      P { s with staged := staged, safe := safe, recs := recs, hostA := hostA, hostB := hostB, kiln := kiln, steep := steep,
                 queues := queues, fabric := fabric, racking := racking, packA := packA, packB := packB, seq := seq,
                 power := power, cal := cal, update := update, halted := halted, out := out }
  settings : ∀ {s : State}, P s → P s.restoreSettings
  retire : ∀ {s : State} {r : List Nat} {a : List Nat} {w : List HeldWrite}, P s →
    P { s with dram := { s.dram with retiring := r, retireAfter := a, waiting := w } }
  dies : ∀ {s : State} {d : List DieRow}, P s → P { s with cellar := { s.cellar with dieTable := d } }
  scrub : ∀ {s : State} {a b : Bool}, P s → P { s with dirty := { s.dirty with scrubRun := a, scrubDue := b } }
  latch : ∀ {s : State} (page b : Nat), P s → P (s.setBit (R.FLT_STAT page) b true)

theorem pres_ite {P : State → Prop} {c : Prop} [Decidable c] {a b : State} (ha : P a) (hb : P b) : P (if c then a else b) := by
  split <;> assumption

theorem pres_ite_fst {α : Type} {P : State → Prop} {c : Prop} [Decidable c] {a b : State × α} (ha : P a.1) (hb : P b.1) :
    P (if c then a else b).1 := by
  split <;> assumption

theorem pres_ite_snd {α : Type} {P : State → Prop} {c : Prop} [Decidable c] {a b : α × State} (ha : P a.2) (hb : P b.2) :
    P (if c then a else b).2 := by
  split <;> assumption

theorem pres_cond {P : State → Prop} {s : State} {c : Bool} {g : State → State} (hs : P s) (hg : ∀ t, P t → P (g t)) :
    P (s.cond c g) := by
  unfold State.cond
  split
  · exact hg _ hs
  · exact hs

theorem pres_foldl {α : Type} {P : State → Prop} {l : List α} {g : State → α → State} {s : State} (hs : P s)
    (hg : ∀ t a, P t → P (g t a)) : P (l.foldl g s) := by
  induction l generalizing s with
  | nil => exact hs
  | cons a t ih => exact ih (hg _ _ hs)

theorem pres_each {P : State → Prop} {n : Nat} {g : State → Nat → State} {s : State} (hs : P s)
    (hg : ∀ t a, P t → P (g t a)) : P (s.each n g) :=
  pres_foldl hs hg

theorem Reactive.inc {P : State → Prop} (C : Reactive P) {s : State} (f : Fld) (hf : ReactKey f.key) (hP : P s) :
    P (State.inc s f) := by
  unfold State.inc
  repeat' first
    | with_reducible assumption | with_reducible apply pres_ite | with_reducible apply C.wr
    | exact Or.inl (by assumption) | exact hf | (unfold ReactKey; simp only [Fld.key]; omega)
    | (unfold ReactKey; decide)

theorem Reactive.bump {P : State → Prop} (C : Reactive P) {s : State} (f : Fld) (hf : ReactKey f.key) (hP : P s) :
    P (State.bump s f) := by
  unfold State.bump
  repeat' first
    | with_reducible assumption | with_reducible apply C.wr | exact Or.inl (by assumption) | exact hf
    | (unfold ReactKey; simp only [Fld.key]; omega) | (unfold ReactKey; decide)

theorem Reactive.setBit {P : State → Prop} (C : Reactive P) {s : State} (f : Fld) (i : Nat) (b : Bool) (hf : ReactKey f.key) (hP : P s) :
    P (State.setBit s f i b) := by
  unfold State.setBit
  repeat' first
    | with_reducible assumption | with_reducible apply pres_ite | with_reducible apply C.wr
    | exact Or.inl (by assumption) | exact hf | (unfold ReactKey; simp only [Fld.key]; omega)
    | (unfold ReactKey; decide)

theorem Reactive.send {P : State → Prop} (C : Reactive P) {s : State} (o : Output) (hP : P s) :
    P (State.send s o) := by
  unfold State.send
  repeat' first
    | with_reducible assumption | with_reducible refine C.parts (fun h => h) (Or.inl rfl) ?_
    | (unfold ReactKey; simp only [Fld.key]; omega)

theorem Reactive.setHost {P : State → Prop} (C : Reactive P) {s : State} (p : Nat) (h : HostPort) (hP : P s) :
    P (State.setHost s p h) := by
  unfold State.setHost
  repeat' first
    | with_reducible assumption | with_reducible apply pres_ite
    | with_reducible refine C.parts (fun h => h) (Or.inl rfl) ?_ | (unfold ReactKey; simp only [Fld.key]; omega)

theorem Reactive.msix {P : State → Prop} (C : Reactive P) {s : State} (p vec : Nat) (hP : P s) :
    P (State.msix s p vec) := by
  unfold State.msix
  repeat' first
    | with_reducible assumption | with_reducible apply pres_ite | with_reducible apply C.send

theorem Reactive.setPack {P : State → Prop} (C : Reactive P) {s : State} (p : Nat) (k : Pack) (hP : P s) :
    P (State.setPack s p k) := by
  unfold State.setPack
  repeat' first
    | with_reducible assumption | with_reducible apply pres_ite
    | with_reducible refine C.parts (fun h => h) (Or.inl rfl) ?_ | (unfold ReactKey; simp only [Fld.key]; omega)

theorem Reactive.showTlog {P : State → Prop} (C : Reactive P) {s : State}  (hP : P s) :
    P (State.showTlog s) := by
  unfold State.showTlog
  repeat' first
    | with_reducible assumption | with_reducible apply pres_ite | with_reducible apply C.wr | intro _ | split
    | with_reducible refine C.parts (fun h => h) (Or.inl rfl) ?_ | (unfold ReactKey; simp only [Fld.key]; omega)
    | (unfold ReactKey; decide)

theorem Reactive.pushTlog {P : State → Prop} (C : Reactive P) {s : State} (e : TEntry) (hP : P s) :
    P (State.pushTlog s e) := by
  unfold State.pushTlog
  repeat' first
    | with_reducible assumption | with_reducible apply pres_ite | with_reducible apply C.showTlog
    | with_reducible refine C.parts (fun h => h) (Or.inl rfl) ?_ | (unfold ReactKey; simp only [Fld.key]; omega)

theorem Reactive.detect {P : State → Prop} (C : Reactive P) {s : State} (src inst : Nat) (hP : P s) :
    P (State.detect s src inst) := by
  unfold State.detect
  repeat' first
    | with_reducible assumption | with_reducible refine C.parts (fun h => h) (Or.inl rfl) ?_
    | (unfold ReactKey; simp only [Fld.key]; omega)

theorem Reactive.appendTlog {P : State → Prop} (C : Reactive P) {s : State} (limited : Bool) (e : TEntry) (hP : P s) :
    P (State.appendTlog s limited e) := by
  unfold State.appendTlog
  repeat' first
    | with_reducible assumption | with_reducible apply pres_cond | with_reducible apply pres_ite
    | with_reducible apply C.inc | with_reducible apply C.pushTlog | with_reducible apply C.detect | intro _
    | with_reducible refine C.parts (fun h => h) (Or.inl rfl) ?_ | (unfold ReactKey; simp only [Fld.key]; omega)
    | (unfold ReactKey; decide)

theorem Reactive.tlog {P : State → Prop} (C : Reactive P) {s : State} (code data : Nat) (hP : P s) :
    P (State.tlog s code data) := by
  unfold State.tlog
  repeat' first
    | with_reducible assumption | with_reducible apply C.appendTlog
    | (unfold ReactKey; simp only [Fld.key]; omega)

theorem Reactive.notice {P : State → Prop} (C : Reactive P) {s : State} (page : Nat) (hP : P s) :
    P (State.notice s page) := by
  unfold State.notice
  repeat' first
    | with_reducible assumption | with_reducible apply C.tlog | (unfold ReactKey; simp only [Fld.key]; omega)

theorem Reactive.pushEvent {P : State → Prop} (C : Reactive P) {s : State} (log : Nat) (kind : EvtKind) (granule : Option Nat) (words : List Nat) (p : Nat) (hP : P s) :
    P (State.pushEvent s log kind granule words p) := by
  unfold State.pushEvent
  repeat' first
    | with_reducible assumption | with_reducible apply pres_cond | with_reducible apply pres_ite
    | with_reducible apply C.setBit | with_reducible apply C.setHost | with_reducible apply C.msix
    | with_reducible apply C.detect | with_reducible apply C.wr
    | with_reducible refine C.parts (fun h => h) (Or.inl rfl) ?_ | intro _ | (unfold ReactKey; decide)
    | (simp only [ReactKey, Fld.key, R.HP_EVT_OVF]; omega)
    | (unfold evtPend; split <;>
        (simp only [ReactKey, Fld.key, R.HP_EVT_PEND_INFO, R.HP_EVT_PEND_WARN, R.HP_EVT_PEND2_FAIL, R.HP_EVT_PEND2_FATAL]; omega))

theorem Reactive.event {P : State → Prop} (C : Reactive P) {s : State} (log : Nat) (kind : EvtKind) (granule : Option Nat) (words : List Nat) (hP : P s) :
    P (State.event s log kind granule words) := by
  unfold State.event
  repeat' first
    | with_reducible assumption | with_reducible apply pres_foldl | with_reducible apply C.tlog
    | with_reducible apply C.pushEvent | intro _ | (unfold ReactKey; simp only [Fld.key]; omega)

theorem Reactive.vendor {P : State → Prop} (C : Reactive P) {s : State} (log subtype : Nat) (words : List Nat) (hP : P s) :
    P (State.vendor s log subtype words) := by
  unfold State.vendor
  repeat' first
    | with_reducible assumption | with_reducible apply C.event | (unfold ReactKey; simp only [Fld.key]; omega)

theorem Reactive.healthNote {P : State → Prop} (C : Reactive P) {s : State} (hP : P s) :
    P (State.healthNote s) := by
  unfold State.healthNote
  repeat' first
    | with_reducible assumption | with_reducible apply pres_ite | with_reducible apply C.event | with_reducible refine C.parts (fun h => h) (Or.inl rfl) ?_

theorem Reactive.dirtyLoad {P : State → Prop} (C : Reactive P) {s : State} (p : Nat) (hP : P s) :
    P (State.dirtyLoad s p) := by
  unfold State.dirtyLoad
  repeat' first
    | with_reducible assumption | with_reducible apply pres_cond | with_reducible apply pres_ite
    | with_reducible apply C.inc | with_reducible apply C.wr | intro _
    | with_reducible refine C.parts (fun h => h) (Or.inr rfl) ?_ | (unfold ReactKey; simp only [Fld.key]; omega)
    | (unfold ReactKey; decide)
    | (simp only [ReactKey, Fld.key, R.HP_LOAD_STAT_DIRTY_LOAD, R.HP_LOAD_STAT_SEVERE_ENTRIES]; omega)

theorem Reactive.pstUpdate {P : State → Prop} (C : Reactive P) {s : State} (upd : State → State)
    (hu : ∀ t, P t → P (upd t)) (hP : P s) : P (s.pstUpdate upd) := by
  unfold State.pstUpdate
  extract_lets before old s1 s2 s3 s4 s5
  have h1 : P s1 := hu _ hP
  have h2 : P s2 := C.wr _ (by unfold ReactKey; decide) h1
  have h3 : P s3 := C.wr _ (by unfold ReactKey; decide) h2
  have h4 : P s4 := by
    refine pres_cond h3 (fun t ht => ?_)
    refine C.tlog _ _ (C.vendor _ _ _ (C.inc _ (by unfold ReactKey; decide) ?_))
    exact C.parts (fun h => h) (Or.inl rfl) ht
  have h5 : P s5 := C.healthNote (C.bump _ (by unfold ReactKey; decide) h4)
  exact pres_each h5 (fun t a ht => C.dirtyLoad _ ht)

theorem Reactive.setCond {P : State → Prop} (C : Reactive P) {s : State} (src inst : Nat) (on : Bool) (hP : P s) :
    P (State.setCond s src inst on) := by
  unfold State.setCond
  repeat' first
    | with_reducible assumption | with_reducible apply pres_ite | with_reducible apply C.detect | intro _
    | with_reducible refine C.parts (fun h => h) (Or.inl rfl) ?_ | (unfold ReactKey; simp only [Fld.key]; omega)

theorem Reactive.noteOwed {P : State → Prop} (C : Reactive P) {s : State} (t : Nat) (a : RSet) (hP : P s) :
    P (State.noteOwed s t a) := by
  unfold State.noteOwed
  repeat' first
    | with_reducible assumption | with_reducible refine C.parts (fun h => h) (Or.inl rfl) ?_

theorem Reactive.setDebt {P : State → Prop} (C : Reactive P) {s : State} (t : Nat) (d : RSet) (hP : P s) :
    P (State.setDebt s t d) := by
  have h1 : P (s.noteOwed t (RSet.diff d (s.debt t))) := C.noteOwed _ _ hP
  unfold State.setDebt
  generalize s.noteOwed t (RSet.diff d (s.debt t)) = u at h1
  refine C.wr _ (by simp only [ReactKey, Fld.key, R.RCK_OWED]; omega) (pres_ite ?_ ?_)
  · exact C.parts (fun h => h) (Or.inl rfl) h1
  · exact C.parts (fun h => h) (Or.inl rfl) h1

theorem Reactive.showSteep {P : State → Prop} (C : Reactive P) {s : State}  (hP : P s) :
    P (State.showSteep s) := by
  unfold State.showSteep
  repeat' first
    | with_reducible assumption | with_reducible apply C.wr | (unfold ReactKey; simp only [Fld.key]; omega)
    | (unfold ReactKey; decide)

theorem Reactive.mapQueues {P : State → Prop} (C : Reactive P) {s : State} (f : Queue → Queue) (hP : P s) :
    P (State.mapQueues s f) := by
  unfold State.mapQueues
  repeat' first
    | with_reducible assumption | with_reducible refine C.parts (fun h => h) (Or.inl rfl) ?_
    | (unfold ReactKey; simp only [Fld.key]; omega)

theorem Reactive.showQueues {P : State → Prop} (C : Reactive P) {s : State}  (hP : P s) :
    P (State.showQueues s) := by
  unfold State.showQueues
  repeat' first
    | with_reducible assumption | with_reducible apply C.wr | intro _
    | (unfold ReactKey; simp only [Fld.key]; omega) | (unfold ReactKey; decide)

theorem Reactive.freezeQueues {P : State → Prop} (C : Reactive P) {s : State}  (hP : P s) :
    P (State.freezeQueues s) := by
  unfold State.freezeQueues
  repeat' first
    | with_reducible assumption | with_reducible apply pres_ite | with_reducible apply C.mapQueues
    | with_reducible apply C.showQueues | intro _ | with_reducible refine C.parts (fun h => h) (Or.inl rfl) ?_
    | (unfold ReactKey; simp only [Fld.key]; omega)

theorem Reactive.armCdl {P : State → Prop} (C : Reactive P) {s : State} (n target : Nat) (hP : P s) :
    P (State.armCdl s n target) := by
  unfold State.armCdl
  repeat' first
    | with_reducible assumption | with_reducible apply pres_ite | with_reducible apply C.wr
    | (unfold ReactKey; simp only [Fld.key]; omega) | (unfold ReactKey; decide)
    | (simp only [ReactKey, Fld.key, R.PHS_CDL_ARMED, R.PHS_CDL_FIRED, R.PHS_CDL_TARGET]; omega)

theorem Reactive.disarmCdl {P : State → Prop} (C : Reactive P) {s : State} (n : Nat) (hP : P s) :
    P (State.disarmCdl s n) := by
  unfold State.disarmCdl
  repeat' first
    | with_reducible assumption | with_reducible apply C.wr | (unfold ReactKey; simp only [Fld.key]; omega)
    | (unfold ReactKey; decide) | (simp only [ReactKey, Fld.key, R.PHS_CDL_ARMED]; omega)

theorem Reactive.showMargins {P : State → Prop} (C : Reactive P) {s : State}  (hP : P s) :
    P (State.showMargins s) := by
  unfold State.showMargins
  repeat' first
    | with_reducible assumption | with_reducible apply pres_cond | with_reducible apply C.setCond
    | with_reducible apply C.wr | intro _ | (unfold ReactKey; simp only [Fld.key]; omega)
    | (unfold ReactKey; decide)

theorem Reactive.dropMargin {P : State → Prop} (C : Reactive P) {s : State} (i : Nat) (hP : P s) :
    P (State.dropMargin s i) := by
  unfold State.dropMargin
  repeat' first
    | with_reducible assumption | with_reducible apply C.wr | (unfold ReactKey; simp only [Fld.key]; omega)
    | (unfold ReactKey; decide)
    | (simp only [ReactKey, Fld.key, R.SEQ_RAIL_MARGIN_ACT10, R.SEQ_RAIL_MARGIN_PCT10]; omega)

theorem Reactive.dropMargins {P : State → Prop} (C : Reactive P) {s : State}  (hP : P s) :
    P (State.dropMargins s) := by
  unfold State.dropMargins
  repeat' first
    | with_reducible assumption | with_reducible apply pres_each | with_reducible apply C.showMargins
    | with_reducible apply C.dropMargin | intro _ | (unfold ReactKey; simp only [Fld.key]; omega)

theorem Reactive.showSeq {P : State → Prop} (C : Reactive P) {s : State}  (hP : P s) :
    P (State.showSeq s) := by
  unfold State.showSeq
  repeat' first
    | with_reducible assumption | with_reducible apply C.wr | split
    | with_reducible refine C.parts (fun h => h) (Or.inl rfl) ?_ | (unfold ReactKey; simp only [Fld.key]; omega)
    | (unfold ReactKey; decide)

theorem Reactive.seqStop {P : State → Prop} (C : Reactive P) {s : State} (failed : Bool) (hP : P s) :
    P (State.seqStop s failed) := by
  unfold State.seqStop
  repeat' first
    | with_reducible assumption | with_reducible apply C.showSeq | with_reducible apply C.wr
    | with_reducible refine C.parts (fun h => h) (Or.inl rfl) ?_ | (unfold ReactKey; simp only [Fld.key]; omega)
    | (unfold ReactKey; decide)

theorem Reactive.seqRequest {P : State → Prop} (C : Reactive P) {s : State} (n : Nat) (hP : P s) :
    P (State.seqRequest s n) := by
  unfold State.seqRequest
  repeat' first
    | with_reducible assumption | with_reducible apply pres_ite | with_reducible apply C.setBit
    | with_reducible apply C.seqStop | intro _ | split
    | with_reducible refine C.parts (fun h => h) (Or.inl rfl) ?_ | (unfold ReactKey; simp only [Fld.key]; omega)
    | (unfold ReactKey; decide)

theorem Reactive.setDport {P : State → Prop} (C : Reactive P) {s : State} (n : Nat) (d : DPort) (hP : P s) :
    P (State.setDport s n d) := by
  unfold State.setDport
  repeat' first
    | with_reducible assumption | with_reducible refine C.parts (fun h => h) (Or.inl rfl) ?_
    | (unfold ReactKey; simp only [Fld.key]; omega)

theorem Reactive.setPlane {P : State → Prop} (C : Reactive P) {s : State} (n pl : Nat) (l : Plane) (hP : P s) :
    P (State.setPlane s n pl l) := by
  unfold State.setPlane
  repeat' first
    | with_reducible assumption | with_reducible apply pres_ite | with_reducible apply C.setDport
    | with_reducible refine C.parts (fun h => h) (Or.inl rfl) ?_ | (unfold ReactKey; simp only [Fld.key]; omega)

theorem Reactive.pump {P : State → Prop} (C : Reactive P) {s : State} (n pl k : Nat) (hP : P s) : P (s.pump n pl k) := by
  induction k generalizing s with
  | zero => exact hP
  | succ k ih =>
    unfold State.pump
    simp only
    split
    · exact hP
    · split
      · exact hP
      · split
        · exact hP
        · exact ih (C.send _ (C.setPlane _ _ _ hP))

theorem Reactive.dropAlarm {P : State → Prop} (C : Reactive P) {s : State} (n : Nat) (hP : P s) :
    P (State.dropAlarm s n) := by
  unfold State.dropAlarm
  repeat' first
    | with_reducible assumption | with_reducible apply C.inc | with_reducible apply C.detect
    | with_reducible refine C.parts (fun h => h) (Or.inl rfl) ?_ | (unfold ReactKey; simp only [Fld.key]; omega)
    | (unfold ReactKey; decide) | (simp only [ReactKey, Fld.key, R.DLP_DROP_ALARM]; omega)

theorem Reactive.sendOn {P : State → Prop} (C : Reactive P) {s : State} (n pl : Nat) (p : Packet) (hP : P s) :
    P (s.sendOn n pl p) := by
  unfold State.sendOn
  simp only
  split
  · exact hP
  · split
    · split
      · exact C.pump _ _ _ (C.setPlane _ _ _ hP)
      · split
        · exact C.pump _ _ _ (C.setPlane _ _ _ (C.dropAlarm _ (C.setPlane _ _ _ hP)))
        · exact C.dropAlarm _ hP
    · exact C.pump _ _ _ (C.setPlane _ _ _ hP)

theorem Reactive.floodOut {P : State → Prop} (C : Reactive P) {s : State} (src : Nat) (p : Packet) (hP : P s) :
    P (State.floodOut s src p) := by
  unfold State.floodOut
  repeat' first
    | with_reducible assumption | with_reducible apply pres_each | with_reducible apply pres_cond | with_reducible apply C.sendOn | intro _

theorem Reactive.remember {P : State → Prop} (C : Reactive P) {s : State} (src typ sq : Nat) (hP : P s) :
    P (State.remember s src typ sq) := by
  unfold State.remember
  repeat' first
    | with_reducible assumption | with_reducible apply pres_ite
    | with_reducible refine C.parts (fun h => h) (Or.inl rfl) ?_ | (unfold ReactKey; simp only [Fld.key]; omega)

theorem Reactive.floodOwn {P : State → Prop} (C : Reactive P) {s : State} (typ : Nat) (p : Packet) (hP : P s) :
    P (State.floodOwn s typ p) := by
  unfold State.floodOwn
  repeat' first
    | with_reducible assumption | with_reducible apply C.floodOut | with_reducible apply C.remember

theorem Reactive.floodKiln {P : State → Prop} (C : Reactive P) {s : State} (trig : Nat) (hP : P s) :
    P (State.floodKiln s trig) := by
  unfold State.floodKiln
  repeat' first
    | with_reducible assumption | with_reducible apply pres_cond | with_reducible apply pres_ite
    | with_reducible apply pres_each | with_reducible apply C.inc | with_reducible apply C.sendOn
    | with_reducible apply C.remember | intro _ | with_reducible refine C.parts (fun h => h) (Or.inl rfl) ?_
    | (unfold ReactKey; simp only [Fld.key]; omega) | (unfold ReactKey; decide)

theorem Reactive.floodLsa {P : State → Prop} (C : Reactive P) {s : State}  (hP : P s) :
    P (State.floodLsa s) := by
  unfold State.floodLsa
  repeat' first
    | with_reducible assumption | with_reducible apply pres_ite | with_reducible apply C.bump
    | with_reducible apply C.floodOwn | with_reducible refine C.parts (fun h => h) (Or.inl rfl) ?_
    | (unfold ReactKey; decide)

theorem Reactive.announce {P : State → Prop} (C : Reactive P) {s : State}  (hP : P s) :
    P (State.announce s) := by
  unfold State.announce
  repeat' first
    | with_reducible assumption | with_reducible apply pres_ite | with_reducible apply C.floodLsa
    | with_reducible refine C.parts (fun h => h) (Or.inl rfl) ?_

theorem Reactive.adjacency {P : State → Prop} (C : Reactive P) {s : State}  (hP : P s) :
    P (State.adjacency s) := by
  unfold State.adjacency
  repeat' first
    | with_reducible assumption | with_reducible apply C.announce
    | with_reducible refine C.parts (fun h => h) (Or.inl rfl) ?_

theorem Reactive.claim {P : State → Prop} (C : Reactive P) {s : State} (n : Nat) (hP : P s) :
    P (State.claim s n) := by
  unfold State.claim
  repeat' first
    | with_reducible assumption | with_reducible apply C.detect | with_reducible apply C.adjacency
    | with_reducible apply C.wr | split | with_reducible refine C.parts (fun h => h) (Or.inl rfl) ?_ | intro _
    | (unfold ReactKey; decide)

theorem Reactive.loseFnn {P : State → Prop} (C : Reactive P) {s : State}  (hP : P s) :
    P (State.loseFnn s) := by
  unfold State.loseFnn
  repeat' first
    | with_reducible assumption | with_reducible apply C.inc | with_reducible apply C.detect
    | with_reducible apply C.claim | (unfold ReactKey; decide)

theorem Reactive.settleClaim {P : State → Prop} (C : Reactive P) {s : State}  (hP : P s) :
    P (State.settleClaim s) := by
  unfold State.settleClaim
  repeat' first
    | with_reducible assumption | with_reducible apply pres_cond | with_reducible apply pres_ite
    | with_reducible apply C.claim | with_reducible apply C.loseFnn | intro _

theorem Reactive.unicast {P : State → Prop} (C : Reactive P) {s : State} (p : Packet) (hP : P s) :
    P (State.unicast s p) := by
  unfold State.unicast
  repeat' first
    | with_reducible assumption | with_reducible apply C.sendOn | split
    | with_reducible refine C.parts (fun h => h) (Or.inl rfl) ?_ | (unfold ReactKey; simp only [Fld.key]; omega)

theorem Reactive.setSends {P : State → Prop} (C : Reactive P) {s : State} (l : List Send) (hP : P s) :
    P (State.setSends s l) := by
  unfold State.setSends
  repeat' first
    | with_reducible assumption | with_reducible apply pres_each | with_reducible apply C.wr | intro _
    | with_reducible refine C.parts (fun h => h) (Or.inl rfl) ?_ | (unfold ReactKey; simp only [Fld.key]; omega)
    | (unfold ReactKey; decide) | (simp only [ReactKey, Fld.key, R.RCK_TGT_STAT_INFLIGHT]; omega)

theorem Reactive.mapRacks {P : State → Prop} (C : Reactive P) {s : State} (f : RunCmd → RunCmd) (hP : P s) :
    P (State.mapRacks s f) := by
  unfold State.mapRacks
  repeat' first
    | with_reducible assumption | with_reducible apply pres_ite | with_reducible apply C.mapQueues | intro _
    | with_reducible refine C.parts (fun h => h) (Or.inl rfl) ?_ | (unfold ReactKey; simp only [Fld.key]; omega)

theorem Reactive.rackSettle {P : State → Prop} (C : Reactive P) {s : State}  (hP : P s) :
    P (State.rackSettle s) := by
  unfold State.rackSettle
  repeat' first
    | with_reducible assumption | with_reducible apply C.mapRacks | (unfold ReactKey; simp only [Fld.key]; omega)

theorem Reactive.abandonSends {P : State → Prop} (C : Reactive P) {s : State} (t : Nat) (hP : P s) :
    P (State.abandonSends s t) := by
  unfold State.abandonSends
  repeat' first
    | with_reducible assumption | with_reducible apply C.setSends | intro _
    | (unfold ReactKey; simp only [Fld.key]; omega)

theorem Reactive.suspend {P : State → Prop} (C : Reactive P) {s : State} (t : Nat) (hP : P s) :
    P (State.suspend s t) := by
  unfold State.suspend
  repeat' first
    | with_reducible assumption | with_reducible apply C.detect | with_reducible apply C.rackSettle
    | with_reducible apply C.abandonSends | with_reducible apply C.wr
    | (unfold ReactKey; simp only [Fld.key]; omega) | (unfold ReactKey; decide)
    | (simp only [ReactKey, Fld.key, R.RCK_TGT_STAT_STATE]; omega)

theorem Reactive.advanceGen {P : State → Prop} (C : Reactive P) {s : State} (t n : Nat) (hP : P s) :
    P (State.advanceGen s t n) := by
  unfold State.advanceGen
  repeat' first
    | with_reducible assumption | with_reducible apply pres_ite | with_reducible apply C.detect
    | with_reducible apply C.setDebt | with_reducible apply C.wr
    | with_reducible refine C.parts (fun h => h) (Or.inl rfl) ?_ | (unfold ReactKey; simp only [Fld.key]; omega)
    | (unfold ReactKey; decide) | (simp only [ReactKey, Fld.key, R.RCK_GEN]; omega)

theorem Reactive.rackTo {P : State → Prop} (C : Reactive P) {s : State} (eui cls len sq tag : Nat) (p : Payload) (hP : P s) :
    P (State.rackTo s eui cls len sq tag p) := by
  unfold State.rackTo
  repeat' first
    | with_reducible assumption | with_reducible apply pres_cond | with_reducible apply C.unicast | split
    | with_reducible refine C.parts (fun h => h) (Or.inl rfl) ?_ | intro _

theorem Reactive.sendOpen {P : State → Prop} (C : Reactive P) {s : State} (t : Nat) (hP : P s) :
    P (State.sendOpen s t) := by
  unfold State.sendOpen
  repeat' first
    | with_reducible assumption | with_reducible apply pres_cond | with_reducible apply pres_foldl
    | with_reducible apply C.advanceGen | with_reducible apply C.rackTo | intro _
    | (unfold ReactKey; simp only [Fld.key]; omega)

theorem Reactive.openTarget {P : State → Prop} (C : Reactive P) {s : State} (t : Nat) (hP : P s) :
    P (State.openTarget s t) := by
  unfold State.openTarget
  repeat' first
    | with_reducible assumption | with_reducible apply pres_cond | with_reducible apply C.rackSettle
    | with_reducible apply C.sendOpen | with_reducible apply C.wr | intro _
    | (unfold ReactKey; simp only [Fld.key]; omega) | (unfold ReactKey; decide)
    | (simp only [ReactKey, Fld.key, R.RCK_TGT_STAT_STATE]; omega)

theorem Reactive.followRoutes {P : State → Prop} (C : Reactive P) {s : State}  (hP : P s) :
    P (State.followRoutes s) := by
  unfold State.followRoutes
  repeat' first
    | with_reducible assumption | with_reducible apply pres_ite | with_reducible apply pres_each
    | with_reducible apply C.suspend | with_reducible apply C.openTarget | intro _
    | (unfold ReactKey; simp only [Fld.key]; omega)

theorem Reactive.fabricRuns {P : State → Prop} (C : Reactive P) {s : State}  (hP : P s) :
    P (State.fabricRuns s) := by
  unfold State.fabricRuns
  repeat' first
    | with_reducible assumption | with_reducible apply pres_cond | with_reducible apply C.settleClaim
    | with_reducible apply C.followRoutes | intro _

theorem Reactive.restExit {P : State → Prop} (C : Reactive P) {s : State}  (hP : P s) :
    P (State.restExit s) := by
  unfold State.restExit
  repeat' first
    | with_reducible assumption | with_reducible apply pres_cond | with_reducible apply pres_ite
    | with_reducible apply C.seqRequest | with_reducible apply C.announce | with_reducible apply C.wr
    | with_reducible refine C.parts (fun h => h) (Or.inl rfl) ?_ | intro _ | (unfold ReactKey; decide)

theorem Reactive.abandonCal {P : State → Prop} (C : Reactive P) {s : State}  (hP : P s) :
    P (State.abandonCal s) := by
  unfold State.abandonCal
  repeat' first
    | with_reducible assumption | with_reducible apply pres_ite | with_reducible apply C.detect
    | with_reducible apply C.wr | with_reducible refine C.parts (fun h => h) (Or.inl rfl) ?_
    | (unfold ReactKey; simp only [Fld.key]; omega) | (unfold ReactKey; decide)

theorem Reactive.updateK0 {P : State → Prop} (C : Reactive P) {s : State}  (hP : P s) :
    P (State.updateK0 s) := by
  unfold State.updateK0
  repeat' first
    | with_reducible assumption | with_reducible apply pres_ite | with_reducible apply C.wr
    | with_reducible refine C.parts (fun h => h) (Or.inl rfl) ?_ | (unfold ReactKey; simp only [Fld.key]; omega)
    | (unfold ReactKey; decide)

theorem Reactive.unhalt {P : State → Prop} (C : Reactive P) {s : State} (n : Nat) (hP : P s) :
    P (State.unhalt s n) := by
  unfold State.unhalt
  repeat' first
    | with_reducible assumption | with_reducible apply pres_cond | with_reducible apply pres_foldl
    | with_reducible apply C.fabricRuns | with_reducible apply C.wr | intro _
    | with_reducible refine C.parts (fun h => h) (Or.inl rfl) ?_ | (unfold ReactKey; simp only [Fld.key]; omega)
    | (unfold ReactKey; decide) | (simp only [ReactKey, Fld.key, R.STALE]; omega)

theorem Reactive.returnImages {P : State → Prop} (C : Reactive P) {s : State}  (hP : P s) :
    P (State.returnImages s) := by
  unfold State.returnImages
  repeat' first
    | with_reducible assumption | with_reducible apply pres_cond | with_reducible apply pres_ite
    | with_reducible apply pres_foldl | with_reducible apply C.unhalt | with_reducible apply C.settings
    | with_reducible apply C.wr | with_reducible refine C.parts (fun h => h) (Or.inl rfl) ?_
    | with_reducible refine C.dies ?_ | intro _ | (unfold ReactKey; decide)
    | (simp only [ReactKey, Fld.key, R.ID_FWVER]; omega)

theorem Reactive.fallback {P : State → Prop} (C : Reactive P) {s : State}  (hP : P s) :
    P (State.fallback s) := by
  unfold State.fallback
  simp only
  exact C.vendor _ _ _ (C.detect _ _ (C.inc _ (by unfold ReactKey; decide) (C.wr _ (by unfold ReactKey; decide) (C.wr _ (by unfold ReactKey; decide) (C.returnImages hP)))))

theorem Reactive.dropTest {P : State → Prop} (C : Reactive P) {s : State} (p : Nat) (hP : P s) :
    P (State.dropTest s p) := by
  unfold State.dropTest
  refine pres_ite hP (C.disarmCdl _ (C.wr _ ?_ (C.setPack _ _ hP)))
  simp only [ReactKey, Fld.key, R.PK_TEST_DISCHARGE]
  omega

theorem Reactive.packPathOn {P : State → Prop} (C : Reactive P) {s : State}  (hP : P s) :
    P (State.packPathOn s) := by
  unfold State.packPathOn
  repeat' first
    | with_reducible assumption | with_reducible apply pres_cond | with_reducible apply pres_each
    | with_reducible apply C.setPack | intro _ | with_reducible refine C.parts (fun h => h) (Or.inl rfl) ?_
    | (unfold ReactKey; simp only [Fld.key]; omega)

theorem Reactive.freezeSteep {P : State → Prop} (C : Reactive P) {s : State}  (hP : P s) :
    P (State.freezeSteep s) := by
  unfold State.freezeSteep
  repeat' first
    | with_reducible assumption | with_reducible apply C.showSteep | with_reducible apply C.wr
    | with_reducible refine C.parts (fun h => h) (Or.inl rfl) ?_ | (unfold ReactKey; simp only [Fld.key]; omega)
    | (unfold ReactKey; decide)

theorem Reactive.freezeRacking {P : State → Prop} (C : Reactive P) {s : State}  (hP : P s) :
    P (State.freezeRacking s) := by
  unfold State.freezeRacking
  repeat' first
    | with_reducible assumption | with_reducible apply C.wr
    | with_reducible refine C.parts (fun h => h) (Or.inl rfl) ?_ | (unfold ReactKey; simp only [Fld.key]; omega)
    | (unfold ReactKey; decide) | (simp only [ReactKey, Fld.key, R.RCK_TGT_STAT_INFLIGHT]; omega)

theorem Reactive.freezeRetire {P : State → Prop} (C : Reactive P) {s : State}  (hP : P s) : P (State.freezeRetire s) :=
  C.retire hP

theorem Reactive.dropStaged {P : State → Prop} (C : Reactive P) {s : State} (page : Nat) (hP : P s) :
    P (State.dropStaged s page) := by
  unfold State.dropStaged
  repeat' first
    | with_reducible assumption | intro _ | with_reducible refine C.parts (fun h => h) (Or.inl rfl) ?_
    | with_reducible refine C.parts (fun h => NMap.wf_keep _ h) (Or.inl rfl) ?_
    | (unfold ReactKey; simp only [Fld.key]; omega)

theorem Reactive.discardCommits {P : State → Prop} (C : Reactive P) {s : State}  (hP : P s) :
    P (State.discardCommits s) := by
  unfold State.discardCommits
  repeat' first
    | with_reducible assumption | with_reducible apply pres_foldl | with_reducible apply C.notice
    | with_reducible apply C.dropStaged | with_reducible apply C.wr | intro _
    | (unfold ReactKey; simp only [Fld.key]; omega) | (unfold ReactKey; decide)
    | (simp only [ReactKey, Fld.key, R.COMMIT_PENDING]; omega)

theorem Reactive.closePhase {P : State → Prop} (C : Reactive P) {s : State}  (hP : P s) :
    P (State.closePhase s) := by
  unfold State.closePhase
  repeat' first
    | with_reducible assumption | with_reducible apply pres_cond | with_reducible apply C.detect
    | with_reducible apply C.wr | intro _ | split | with_reducible refine C.parts (fun h => h) (Or.inl rfl) ?_
    | (unfold ReactKey; simp only [Fld.key]; omega) | (unfold ReactKey; decide)
    | (simp only [ReactKey, Fld.key, R.KLN_PHASE_CT, R.KLN_PHASE_US]; omega)

theorem Reactive.enterPhase {P : State → Prop} (C : Reactive P) {s : State} (k : Nat) (hP : P s) :
    P (State.enterPhase s k) := by
  unfold State.enterPhase
  repeat' first
    | with_reducible assumption | with_reducible apply pres_cond | with_reducible apply pres_ite
    | with_reducible apply C.tlog | with_reducible apply C.closePhase | with_reducible apply C.wr | intro _
    | with_reducible refine C.parts (fun h => h) (Or.inl rfl) ?_ | (unfold ReactKey; simp only [Fld.key]; omega)
    | (unfold ReactKey; decide)

theorem Reactive.cdlMark {P : State → Prop} (C : Reactive P) {s : State} (n : Nat) (hP : P s) :
    P (State.cdlMark s n) := by
  unfold State.cdlMark
  repeat' first
    | with_reducible assumption | with_reducible apply pres_cond | with_reducible apply C.detect | intro _ | split
    | with_reducible refine C.parts (fun h => h) (Or.inl rfl) ?_ | (unfold ReactKey; simp only [Fld.key]; omega)

theorem Reactive.armKiln {P : State → Prop} (C : Reactive P) {s : State} (n target : Nat) (hP : P s) :
    P (State.armKiln s n target) := by
  unfold State.armKiln
  repeat' first
    | with_reducible assumption | with_reducible apply pres_cond | with_reducible apply C.armCdl
    | with_reducible apply C.cdlMark | intro _ | (unfold ReactKey; simp only [Fld.key]; omega)

theorem Reactive.groupMessage {P : State → Prop} (C : Reactive P) {s : State} (trig : Nat) (group : Bool) (hP : P s) :
    P (State.groupMessage s trig group) := by
  unfold State.groupMessage
  repeat' first
    | with_reducible assumption | with_reducible apply pres_cond | with_reducible apply C.floodKiln | intro _

theorem Reactive.enterK0 {P : State → Prop} (C : Reactive P) {s : State} (trig mask : Nat) (p3 group : Bool) (hP : P s) :
    P (State.enterK0 s trig mask p3 group) := by
  unfold State.enterK0
  repeat' first
    | with_reducible assumption | with_reducible apply pres_each | with_reducible apply C.dropMargins
    | with_reducible apply C.restExit | with_reducible apply C.abandonCal | with_reducible apply C.updateK0
    | with_reducible apply C.dropTest | with_reducible apply C.enterPhase | with_reducible apply C.armKiln
    | with_reducible apply C.groupMessage | with_reducible apply C.wr
    | with_reducible refine C.parts (fun h => h) (Or.inl rfl) ?_ | intro _ | (unfold ReactKey; decide)
    | (simp only [ReactKey, Fld.key, R.HP_GPF_P2_LATE]; omega)

theorem Reactive.enterK3 {P : State → Prop} (C : Reactive P) {s : State}  (hP : P s) :
    P (State.enterK3 s) := by
  unfold State.enterK3
  repeat' first
    | with_reducible assumption | with_reducible apply pres_cond | with_reducible apply pres_each
    | with_reducible apply C.setHost | with_reducible apply C.freezeQueues | with_reducible apply C.freezeSteep
    | with_reducible apply C.freezeRacking | with_reducible apply C.freezeRetire | with_reducible apply C.discardCommits
    | with_reducible apply C.enterPhase | with_reducible apply C.wr
    | with_reducible refine C.parts (fun h => h) (Or.inl rfl) ?_ | with_reducible refine C.scrub ?_ | intro _
    | (unfold ReactKey; decide)
    | (simp only [ReactKey, Fld.key, R.HP_LINK_STAT_CXL, R.HP_LINK_STAT_FLIT256, R.HP_LINK_STAT_RATE, R.HP_LINK_STAT_UP, R.HP_LINK_STAT_WIDTH, R.HP_MBOX_BUSY]; omega)

theorem Reactive.k2Check {P : State → Prop} (C : Reactive P) {s : State}  (hP : P s) :
    P (State.k2Check s) := by
  unfold State.k2Check
  repeat' first
    | with_reducible assumption | with_reducible apply pres_ite | with_reducible apply C.enterK3
    | (unfold ReactKey; simp only [Fld.key]; omega)

theorem Reactive.openK2 {P : State → Prop} (C : Reactive P) {s : State}  (hP : P s) :
    P (State.openK2 s) := by
  unfold State.openK2
  repeat' first
    | with_reducible assumption | with_reducible apply pres_ite | with_reducible apply C.enterPhase
    | with_reducible apply C.k2Check | with_reducible refine C.parts (fun h => h) (Or.inl rfl) ?_
    | (unfold ReactKey; simp only [Fld.key]; omega)

theorem Reactive.pathOn {P : State → Prop} (C : Reactive P) {s : State}  (hP : P s) :
    P (State.pathOn s) := by
  unfold State.pathOn
  repeat' first
    | with_reducible assumption | with_reducible apply C.packPathOn
    | with_reducible refine C.parts (fun h => h) (Or.inl rfl) ?_

theorem Reactive.startKiln {P : State → Prop} (C : Reactive P) {s : State} (trig mask : Nat) (p3 group : Bool) (hP : P s) :
    P (State.startKiln s trig mask p3 group) := by
  unfold State.startKiln
  repeat' first
    | with_reducible assumption | with_reducible apply pres_ite | with_reducible apply C.enterPhase
    | with_reducible apply C.enterK0 | with_reducible apply C.openK2 | with_reducible apply C.pathOn

theorem Reactive.joinTrigger {P : State → Prop} (C : Reactive P) {s : State} (trig : Nat) (group : Bool) (hP : P s) :
    P (State.joinTrigger s trig group) := by
  unfold State.joinTrigger
  repeat' first
    | with_reducible assumption | with_reducible apply pres_cond | with_reducible apply pres_ite
    | with_reducible apply C.groupMessage | with_reducible apply C.pathOn | with_reducible apply C.wr
    | with_reducible refine C.parts (fun h => h) (Or.inl rfl) ?_ | intro _ | (unfold ReactKey; decide)

theorem Reactive.fireTrigger {P : State → Prop} (C : Reactive P) {s : State} (trig : Nat) (p3 group : Bool) (hP : P s) :
    P (State.fireTrigger s trig p3 group) := by
  unfold State.fireTrigger
  repeat' first
    | with_reducible assumption | with_reducible apply pres_cond | with_reducible apply pres_ite
    | with_reducible apply C.inc | with_reducible apply C.startKiln | with_reducible apply C.joinTrigger | intro _
    | (unfold ReactKey; decide)

theorem Reactive.showSafe {P : State → Prop} (C : Reactive P) {s : State}  (hP : P s) :
    P (State.showSafe s) := by
  unfold State.showSafe
  repeat' first
    | with_reducible assumption | with_reducible apply pres_each | with_reducible apply C.wr | intro _
    | (unfold ReactKey; simp only [Fld.key]; omega) | (unfold ReactKey; decide)
    | (simp only [ReactKey, Fld.key, R.SAF_ACTIVE, R.SAF_PENDING]; omega)

theorem Reactive.holdReasons {P : State → Prop} (C : Reactive P) {s : State} (hP : P s) : P s.holdReasons := by
  unfold State.holdReasons
  extract_lets png par all src want
  split
  · exact hP
  · refine C.pstUpdate _ (fun t ht => ?_) hP
    refine C.wr _ (by unfold ReactKey; decide) (C.wr _ (by unfold ReactKey; decide) (C.wr _ (by unfold ReactKey; decide) ht))

theorem Reactive.driveErrn {P : State → Prop} (C : Reactive P) {s : State}  (hP : P s) :
    P (State.driveErrn s) := by
  unfold State.driveErrn
  repeat' first
    | with_reducible assumption | with_reducible apply pres_ite | with_reducible apply C.wr
    | with_reducible refine C.parts (fun h => h) (Or.inl rfl) ?_ | (unfold ReactKey; simp only [Fld.key]; omega)
    | (unfold ReactKey; decide)

theorem Reactive.enterHist {P : State → Prop} (C : Reactive P) {s : State} (e : HistEntry) (hP : P s) :
    P (State.enterHist s e) := by
  unfold State.enterHist
  repeat' first
    | with_reducible assumption | with_reducible apply pres_ite | with_reducible apply C.inc
    | with_reducible refine C.parts (fun h => h) (Or.inl rfl) ?_ | (unfold ReactKey; simp only [Fld.key]; omega)
    | (unfold ReactKey; decide)

theorem Reactive.dispatch {P : State → Prop} (C : Reactive P) {s : State} (src sev : Nat) (hP : P s) :
    P (State.dispatch s src sev) := by
  unfold State.dispatch
  repeat' first
    | with_reducible assumption | with_reducible apply pres_ite | with_reducible apply C.inc
    | with_reducible apply C.detect | intro _ | with_reducible refine C.parts (fun h => h) (Or.inl rfl) ?_
    | (unfold ReactKey; simp only [Fld.key]; omega) | (unfold ReactKey; decide)

theorem Reactive.kilnAction {P : State → Prop} (C : Reactive P) {s : State} (src : Nat) (hP : P s) :
    P (State.kilnAction s src) := by
  unfold State.kilnAction
  repeat' first
    | with_reducible assumption | with_reducible apply pres_cond | with_reducible apply pres_ite
    | with_reducible apply C.inc | with_reducible apply C.detect | with_reducible apply C.fireTrigger
    | with_reducible apply C.wr | intro _ | (unfold ReactKey; simp only [Fld.key]; omega)
    | (unfold ReactKey; decide)

theorem Reactive.repeatedFail {P : State → Prop} (C : Reactive P) {s : State} (src : Nat) (hP : P s) :
    P (State.repeatedFail s src) := by
  unfold State.repeatedFail
  repeat' first
    | with_reducible assumption | with_reducible apply pres_cond | with_reducible apply pres_ite
    | with_reducible apply C.setCond | intro _ | with_reducible refine C.parts (fun h => h) (Or.inl rfl) ?_
    | (unfold ReactKey; simp only [Fld.key]; omega)

theorem Reactive.latchOne {P : State → Prop} (C : Reactive P) {s : State} (src inst : Nat) (hP : P s) :
    P (State.latch s src inst) := by
  unfold State.latch
  repeat' first
    | with_reducible assumption | with_reducible apply pres_cond | with_reducible apply pres_ite
    | with_reducible apply C.inc | with_reducible apply C.latch | with_reducible apply C.restExit
    | with_reducible apply C.trigger | with_reducible apply C.enterHist | with_reducible apply C.dispatch
    | with_reducible apply C.kilnAction | with_reducible apply C.repeatedFail | with_reducible apply C.wr
    | intro _ | with_reducible refine C.parts (fun h => h) (Or.inl rfl) ?_
    | (unfold ReactKey; simp only [Fld.key]; omega) | (unfold ReactKey; decide)
    | (simp only [ReactKey, Fld.key, R.EVT_CNT]; omega)

theorem Reactive.closeWindow {P : State → Prop} (C : Reactive P) {s : State}  (hP : P s) :
    P (State.closeWindow s) := by
  unfold State.closeWindow
  repeat' first
    | with_reducible assumption | with_reducible apply pres_foldl | with_reducible apply C.latchOne | intro _
    | with_reducible refine C.parts (fun h => h) (Or.inl rfl) ?_ | (unfold ReactKey; simp only [Fld.key]; omega)

theorem Reactive.releaseEnded {P : State → Prop} (C : Reactive P) {s : State}  (hP : P s) :
    P (State.releaseEnded s) := by
  unfold State.releaseEnded
  repeat' first
    | with_reducible assumption | intro _ | with_reducible refine C.parts (fun h => h) (Or.inl rfl) ?_
    | (unfold ReactKey; simp only [Fld.key]; omega)

theorem Reactive.faultState {P : State → Prop} (C : Reactive P) {s : State}  (hP : P s) :
    P (State.faultState s) := by
  unfold State.faultState
  repeat' first
    | with_reducible assumption | with_reducible apply pres_ite | with_reducible apply C.wr | intro _
    | (unfold ReactKey; simp only [Fld.key]; omega) | (unfold ReactKey; decide)

theorem Reactive.runPending {P : State → Prop} (C : Reactive P) {s : State}  (hP : P s) :
    P (State.runPending s) := by
  unfold State.runPending
  repeat' first
    | with_reducible assumption | with_reducible apply pres_cond | with_reducible apply pres_ite
    | with_reducible apply C.inc | intro _ | split | with_reducible refine C.parts (fun h => h) (Or.inl rfl) ?_
    | (unfold ReactKey; simp only [Fld.key]; omega) | (unfold ReactKey; decide)

/-- The collection windows of a command close (R453, R456). -/
theorem Reactive.settle {P : State → Prop} (C : Reactive P) {s : State} (n : Nat) (hP : P s) : P (s.settle n) := by
  induction n generalizing s with
  | zero => exact hP
  | succ n ih =>
    unfold State.settle
    simp only
    split
    · exact ih (C.fallback hP)
    · split
      · have h2 : P (((((s.releaseEnded).faultState).holdReasons).runPending).showSafe) :=
          C.showSafe (C.runPending (C.holdReasons (C.faultState (C.releaseEnded hP))))
        split
        · exact C.driveErrn h2
        · exact ih h2
      · exact ih (C.closeWindow hP)

theorem Reactive.finish {P : State → Prop} (C : Reactive P) {s : State} (hP : P s) : P (finish s) := C.settle 16 hP

/-- From `s` to `t`, nothing changed that the reactions of the safety manager cannot change. -/
structure Unreacted (s t : State) : Prop where
  variant : t.variant = s.variant
  latched : t.latched = s.latched
  track : t.track = s.track
  maint : t.maint = s.maint
  dram : t.dram = { s.dram with retiring := t.dram.retiring, retireAfter := t.dram.retireAfter, waiting := t.dram.waiting }
  dirty : t.dirty = { s.dirty with scrubRun := t.dirty.scrubRun, scrubDue := t.dirty.scrubDue }
  budget : t.budget = s.budget
  cellar : t.cellar = { s.cellar with dieTable := t.cellar.dieTable }
  learnt : t.learnt = s.learnt
  flash : t.flash = s.flash
  badClocks : t.badClocks = s.badClocks
  hostTime : t.hostTime = s.hostTime
  hostTimeAt : t.hostTimeAt = s.hostTimeAt
  freeCtr : t.freeCtr = s.freeCtr
  pending : t.pending = s.pending
  kept : t.update.kept = s.update.kept ∨ t.update.kept = []
  regs : s.update.kept = [] → ∀ k, ¬ ReactKey k → ¬ LatchKey k → t.regs.get k = s.regs.get k
  wf : s.regs.wf = true → t.regs.wf = true

theorem NMap.wf_foldl_set {α : Type} (l : List α) (k v : α → Nat) {m : NMap} (h : m.wf = true) :
    NMap.wf (l.foldl (fun (m : NMap) (e : α) => m.set (k e) (v e)) m) = true := by
  induction l generalizing m with
  | nil => exact h
  | cons a t ih => exact ih (NMap.wf_set _ _ h)

theorem unreacted_reactive (s : State) : Reactive (Unreacted s) where
  wr v hk h :=
    { h with
      regs := fun e k hn hl => by
        rw [← h.regs e k hn hl]
        exact NMap.get_set_ne _ _ (fun he => hn (he ▸ hk))
      wf := fun e => State.wf_wr _ v (h.wf e) }
  parts _ hu h :=
    { h with
      kept := by
        rcases hu with hu | hu
        · rcases h.kept with hk | hk
          · exact Or.inl (hu.trans hk)
          · exact Or.inr (hu.trans hk)
        · exact Or.inr hu }
  latch page b h := by
    have hl : LatchKey (R.FLT_STAT page).key := by
      simp only [LatchKey, Fld.key, R.FLT_STAT]
      omega
    unfold State.setBit
    split
    · exact h
    · exact { h with
        regs := fun e k hn hk => by
          rw [← h.regs e k hn hk]
          exact NMap.get_set_ne _ _ (fun he => hk (he ▸ hl))
        wf := fun e => State.wf_wr _ _ (h.wf e) }
  retire h := { h with dram := by rw [h.dram] }
  dies h := { h with cellar := by rw [h.cellar] }
  scrub h := { h with dirty := by rw [h.dirty] }
  settings := by
    intro t h
    unfold State.restoreSettings
    split
    · exact h
    · rename_i hne
      have hk : t.update.kept ≠ [] := by
        intro e
        simp [e] at hne
      refine { h with kept := Or.inr rfl, regs := fun e => ?_, wf := fun e => ?_ }
      · rcases h.kept with h1 | h1
        · exact absurd (h1.trans e) hk
        · exact absurd h1 hk
      · exact NMap.wf_foldl_set _ _ _ (NMap.wf_keep _ (h.wf e))

theorem Unreacted.refl (s : State) : Unreacted s s :=
  ⟨rfl, rfl, rfl, rfl, rfl, rfl, rfl, rfl, rfl, rfl, rfl, rfl, rfl, rfl, rfl, Or.inl rfl, fun _ _ _ _ => rfl, fun h => h⟩

/-- The end of a command changes only what the reactions of the safety manager can change. -/
theorem finish_unreacted (s : State) : Unreacted s (finish s) := (unreacted_reactive s).finish (Unreacted.refl s)

/-- A field that no reaction writes reads after the command's end as before it, where no old settings are kept (R525). -/
theorem finish_rd {s : State} {f : Fld} (hk : s.update.kept = []) (hf : ¬ ReactKey f.key) (hl : ¬ LatchKey f.key) :
    (finish s).rd f = s.rd f := by
  unfold State.rd RegFile.rd
  rw [(finish_unreacted s).regs hk _ hf hl]

/-! ### Latches (R453, R454) -/

theorem State.setBit_wf {s : State} {f : Fld} {i : Nat} {b : Bool} (h : s.regs.wf = true) : (s.setBit f i b).regs.wf = true := by
  unfold State.setBit
  split
  · exact h
  · exact State.wf_wr _ _ h

theorem State.bit_setBit_self {s : State} {f : Fld} {i : Nat} (hw : s.regs.wf = true) (hi : i < f.width) :
    (s.setBit f i true).bit f i = true := by
  unfold State.setBit
  split
  · assumption
  · rename_i h
    have hb : (s.rd f).testBit i = false := by
      simpa [State.bit] using h
    unfold State.bit
    rw [State.rd_wr_self _ _ hw]
    simp [Nat.testBit_mod_two_pow, Nat.testBit_xor, hb, hi]

theorem State.bit_setBit_keep {s : State} {f g : Fld} {i j : Nat} (hw : s.regs.wf = true) (hi : i < f.width)
    (hk : f.key = g.key → f = g) (h : s.bit f i = true) : (s.setBit g j true).bit f i = true := by
  unfold State.setBit
  split
  · exact h
  · rename_i hj
    by_cases he : f.key = g.key
    · obtain rfl := hk he
      have hne : j ≠ i := by
        rintro rfl
        exact hj h
      unfold State.bit at h ⊢
      rw [State.rd_wr_self _ _ hw]
      simp [Nat.testBit_mod_two_pow, Nat.testBit_xor, h, hi, hne]
    · unfold State.bit at h ⊢
      rw [State.rd_wr_ne _ _ he]
      exact h

/-- A latch bit is set, in registers in canonical form, and no old settings are kept (R525). -/
def LatchedAt (page b : Nat) (s : State) : Prop :=
  s.regs.wf = true ∧ s.update.kept = [] ∧ s.bit (R.FLT_STAT page) b = true

theorem latchedAt_reactive {page b : Nat} (hb : b < 16) : Reactive (LatchedAt page b) where
  wr := by
    intro t f v hk h
    refine ⟨State.wf_wr _ _ h.1, h.2.1, ?_⟩
    unfold State.bit
    rw [State.rd_wr_ne]
    · exact h.2.2
    · intro he
      have h16 := hk.1
      rw [← he] at h16
      apply h16
      simp only [Fld.key, R.FLT_STAT]
      omega
  parts _ hu h := ⟨h.1, hu.elim (fun e => e.trans h.2.1) id, h.2.2⟩
  retire h := h
  dies h := h
  scrub h := h
  settings := by
    intro t h
    have hk := h.2.1
    unfold State.restoreSettings
    simp only [hk, List.isEmpty_nil, if_true]
    exact h
  latch := by
    intro t p c h
    refine ⟨State.setBit_wf h.1, ?_, State.bit_setBit_keep h.1 hb (fun e => ?_) h.2.2⟩
    · unfold State.setBit
      split <;> exact h.2.1
    · have : page = p := by
        simp only [Fld.key, R.FLT_STAT] at e
        omega
      rw [this]

/-- The end of a command clears no latch bit. -/
theorem finish_keeps_latch {s : State} {page b : Nat} (hb : b < 16) (hw : s.regs.wf = true) (hk : s.update.kept = [])
    (h : s.bit (R.FLT_STAT page) b = true) : (finish s).bit (R.FLT_STAT page) b = true :=
  ((latchedAt_reactive hb).finish ⟨hw, hk, h⟩).2.2

theorem mem_insertLatch {s : State} {d e : Nat × Nat} {l : List (Nat × Nat)} (h : e = d ∨ e ∈ l) : e ∈ s.insertLatch d l := by
  induction l with
  | nil =>
    rcases h with h | h
    · simp [State.insertLatch, h]
    · simp at h
  | cons a t ih =>
    unfold State.insertLatch
    simp only [List.mem_cons] at h
    split
    · simp only [List.mem_cons]
      exact h
    · split
      · rename_i had
        simp only [List.mem_cons]
        rcases h with h | h | h
        · exact Or.inl (h.trans had)
        · exact Or.inl h
        · exact Or.inr h
      · simp only [List.mem_cons]
        rcases h with h | h | h
        · exact Or.inr (ih (Or.inl h))
        · exact Or.inl h
        · exact Or.inr (ih (Or.inr h))

theorem mem_foldl_insertLatch {s : State} {e : Nat × Nat} {w l : List (Nat × Nat)} (h : e ∈ w ∨ e ∈ l) :
    e ∈ w.foldl (fun l d => s.insertLatch d l) l := by
  induction w generalizing l with
  | nil =>
    rcases h with h | h
    · simp at h
    · exact h
  | cons a t ih =>
    simp only [List.foldl_cons]
    simp only [List.mem_cons] at h
    rcases h with (h | h) | h
    · exact ih (Or.inr (mem_insertLatch (Or.inl h)))
    · exact ih (Or.inl h)
    · exact ih (Or.inr (mem_insertLatch (Or.inr h)))

theorem State.latch_sets {s : State} {src inst : Nat} (hb : srcBit src < 16) (hw : s.regs.wf = true) (hk : s.update.kept = [])
    (hn : namedSources.contains src = true) (hp : pagePresent s.variant (srcPage src inst) = true) :
    LatchedAt (srcPage src inst) (srcBit src) (s.latch src inst) := by
  have C := latchedAt_reactive (page := srcPage src inst) hb
  have h0 : LatchedAt (srcPage src inst) (srcBit src) (s.setBit (R.FLT_STAT (srcPage src inst)) (srcBit src) true) := by
    refine ⟨State.setBit_wf hw, ?_, State.bit_setBit_self hw hb⟩
    unfold State.setBit
    split <;> exact hk
  unfold State.latch
  rw [if_pos ⟨hn, Or.inl hp⟩]
  generalize s.setBit (R.FLT_STAT (srcPage src inst)) (srcBit src) true = u at h0
  repeat' first
    | with_reducible assumption | with_reducible apply pres_cond | with_reducible apply pres_ite
    | with_reducible apply C.inc | with_reducible apply C.latch | with_reducible apply C.restExit
    | with_reducible apply C.enterHist | with_reducible apply C.dispatch
    | with_reducible apply C.kilnAction | with_reducible apply C.repeatedFail | with_reducible apply C.wr
    | intro _ | with_reducible refine C.parts (fun h => h) (Or.inl rfl) ?_
    | (unfold ReactKey; simp only [Fld.key]; omega) | (unfold ReactKey; decide)
    | (simp only [ReactKey, Fld.key, R.EVT_CNT]; omega)

theorem foldl_latch_sets {v : Variant} {d : Nat × Nat} {w : List (Nat × Nat)} (hd : d ∈ w) (hb : srcBit d.1 < 16)
    (hn : namedSources.contains d.1 = true) (hp : pagePresent v (srcPage d.1 d.2) = true) {s : State} (hw : s.regs.wf = true)
    (hk : s.update.kept = []) (hv : s.variant = v) :
    LatchedAt (srcPage d.1 d.2) (srcBit d.1) (w.foldl (fun s d => s.latch d.1 d.2) s) := by
  induction w generalizing s with
  | nil => simp at hd
  | cons a t ih =>
    simp only [List.foldl_cons]
    by_cases he : d = a
    · subst he
      exact pres_foldl (State.latch_sets hb hw hk hn (hv ▸ hp)) (fun u e hu => (latchedAt_reactive hb).latchOne e.1 e.2 hu)
    · have hm : d ∈ t := by
        rcases List.mem_cons.mp hd with h | h
        · exact absurd h he
        · exact h
      have hu := (unreacted_reactive s).latchOne a.1 a.2 (Unreacted.refl s)
      exact ih hm (hu.wf hw) (hu.kept.elim (fun e => e.trans hk) id) (hu.variant.trans hv)

/-- Every detection of a command latches its fault bit as the command ends (R453): the source is one that a fault bit table names
and its page is present. -/
theorem finish_latches {s : State} {src inst : Nat} (hm : (src, inst) ∈ s.safe.todo) (hg : s.update.trigger = false)
    (hb : srcBit src < 16) (hn : namedSources.contains src = true) (hp : pagePresent s.variant (srcPage src inst) = true)
    (hw : s.regs.wf = true) (hk : s.update.kept = []) : (finish s).bit (R.FLT_STAT (srcPage src inst)) (srcBit src) = true := by
  have hne : s.safe.todo.isEmpty = false := by
    cases h : s.safe.todo with
    | nil =>
      rw [h] at hm
      simp at hm
    | cons a t => rfl
  unfold finish State.settle
  simp only [hg, hne, Bool.false_eq_true, if_false]
  refine ((latchedAt_reactive hb).settle 15 ?_).2.2
  unfold State.closeWindow
  exact foldl_latch_sets (d := (src, inst)) (mem_foldl_insertLatch (Or.inl hm)) hb hn hp hw hk rfl

end Sys2Proof.Machine
end

