-- ==== Sys2Proof/Laws/Reactive/Ops.lean ====
section
/-!
SUPPORT. Laws/Reactive/Ops.lean: more operations of Machine/Ops.lean that change only what a reaction can change
(Laws/Reactive.lean).
-/

namespace Sys2Proof.Machine

set_option Elab.async false
set_option linter.unusedTactic false
set_option linter.unreachableTactic false

theorem Reactive.addSat {P : State → Prop} (C : Reactive P) {s : State} (f : Fld) (n : Nat) (hf : ReactKey f.key) (hP : P s) :
    P (State.addSat s f n) := by
  unfold State.addSat
  repeat' first
    | with_reducible assumption | with_reducible apply C.wr | exact Or.inl (by assumption) | exact hf
    | (unfold ReactKey; decide)

theorem Reactive.warning {P : State → Prop} (C : Reactive P) {s : State} (page : Nat) (hP : P s) :
    P (State.warning s page) := by
  unfold State.warning
  repeat' first
    | with_reducible assumption | with_reducible apply C.tlog

theorem Reactive.reject {P : State → Prop} (C : Reactive P) {s : State} (page : Nat) (hP : P s) :
    P (State.reject s page) := by
  unfold State.reject
  repeat' first
    | with_reducible assumption | with_reducible apply C.wr | (unfold ReactKey; decide)
    | (simp only [ReactKey, Fld.key, R.CFG_REJECT]; omega)

theorem Reactive.reply {P : State → Prop} (C : Reactive P) {s : State} (p rc : Nat) (words : List Nat) (hP : P s) :
    P (State.reply s p rc words) := by
  unfold State.reply
  repeat' first
    | with_reducible assumption | with_reducible apply pres_cond | with_reducible apply C.send
    | with_reducible apply C.msix | intro _

theorem Reactive.bgEnd {P : State → Prop} (C : Reactive P) {s : State} (p opcode rc : Nat) (words : List Nat) (hP : P s) :
    P (State.bgEnd s p opcode rc words) := by
  unfold State.bgEnd
  repeat' first
    | with_reducible assumption | with_reducible apply pres_cond | with_reducible apply C.send
    | with_reducible apply C.msix | intro _

end Sys2Proof.Machine
end

