-- ==== Sys2Proof/Laws/Reactive/DirtyOps.lean ====
section
/-!
SUPPORT. Laws/Reactive/DirtyOps.lean: more operations of Machine/DirtyOps.lean that change only what a reaction can change
(Laws/Reactive.lean).
-/

namespace Sys2Proof.Machine

set_option Elab.async false
set_option linter.unusedTactic false
set_option linter.unreachableTactic false

theorem Reactive.leaveBoost {P : State → Prop} (C : Reactive P) {s : State}  (hP : P s) :
    P (State.leaveBoost s) := by
  unfold State.leaveBoost
  repeat' first
    | with_reducible assumption | with_reducible apply pres_ite | with_reducible apply C.wr
    | with_reducible refine C.parts (fun h => h) (Or.inl rfl) ?_ | (unfold ReactKey; decide)

end Sys2Proof.Machine
end

