-- ==== Sys2Proof/Laws/Reactive/MemOps.lean ====
section
/-!
SUPPORT. Laws/Reactive/MemOps.lean: more operations of Machine/MemOps.lean that change only what a reaction can change
(Laws/Reactive.lean).
-/

namespace Sys2Proof.Machine

set_option Elab.async false
set_option linter.unusedTactic false
set_option linter.unreachableTactic false

theorem Reactive.debtMark {P : State → Prop} (C : Reactive P) {s : State} (r : Nat) (hP : P s) :
    P (State.debtMark s r) := by
  unfold State.debtMark
  repeat' first
    | with_reducible assumption | with_reducible apply pres_cond | with_reducible apply pres_ite
    | with_reducible apply C.setDebt | with_reducible apply C.wr
    | with_reducible refine C.parts (fun h => h) (Or.inl rfl) ?_ | intro _ | (unfold ReactKey; decide)

theorem Reactive.showPoison {P : State → Prop} (C : Reactive P) {s : State} (p : Nat) (hP : P s) :
    P (State.showPoison s p) := by
  unfold State.showPoison
  repeat' first
    | with_reducible assumption | with_reducible apply C.wr | (unfold ReactKey; decide)
    | (simp only [ReactKey, Fld.key, R.HP_POISON_ENTRIES]; omega)

theorem Reactive.listAt {P : State → Prop} (C : Reactive P) {s : State} (g : Nat) (whole : Bool) (lines : LineMask) (p : Nat) (hP : P s) :
    P (State.listAt s g whole lines p) := by
  unfold State.listAt
  repeat' first
    | with_reducible assumption | with_reducible apply pres_cond | with_reducible apply pres_ite
    | with_reducible apply C.setHost | with_reducible apply C.detect | with_reducible apply C.showPoison
    | with_reducible apply C.wr | with_reducible refine C.parts (fun h => h) (Or.inl rfl) ?_ | intro _
    | (unfold ReactKey; decide) | (simp only [ReactKey, Fld.key, R.HP_POISON_OVERFLOW]; omega)

theorem Reactive.listPoison {P : State → Prop} (C : Reactive P) {s : State} (g : Nat) (whole : Bool) (lines : LineMask) (hP : P s) :
    P (State.listPoison s g whole lines) := by
  unfold State.listPoison
  repeat' first
    | with_reducible assumption | with_reducible apply pres_foldl | with_reducible apply C.listAt | intro _

theorem Reactive.maskLine {P : State → Prop} (C : Reactive P) {s : State} (g l : Nat) (hP : P s) :
    P (State.maskLine s g l) := by
  unfold State.maskLine
  repeat' first
    | with_reducible assumption | with_reducible apply pres_ite | with_reducible apply C.showSteep
    | with_reducible refine C.parts (fun h => h) (Or.inl rfl) ?_

theorem Reactive.maskAll {P : State → Prop} (C : Reactive P) {s : State} (g : Nat) (hP : P s) :
    P (State.maskAll s g) := by
  unfold State.maskAll
  repeat' first
    | with_reducible assumption | with_reducible apply pres_ite | with_reducible apply C.showSteep
    | with_reducible refine C.parts (fun h => h) (Or.inl rfl) ?_

theorem Reactive.raiseFill {P : State → Prop} (C : Reactive P) {s : State} (g : Nat) (held : List (Nat × Nat × Nat)) (hP : P s) :
    P (State.raiseFill s g held) := by
  unfold State.raiseFill
  repeat' first
    | with_reducible assumption | with_reducible apply pres_ite
    | with_reducible refine C.parts (fun h => h) (Or.inl rfl) ?_ | intro _

theorem Reactive.admitFills {P : State → Prop} (C : Reactive P) {s : State}  (hP : P s) :
    P (State.admitFills s) := by
  unfold State.admitFills
  repeat' first
    | with_reducible assumption | with_reducible refine C.parts (fun h => h) (Or.inl rfl) ?_

theorem Reactive.respond {P : State → Prop} (C : Reactive P) {s : State} (p : Nat) (o : Output) (hP : P s) :
    P (State.respond s p o) := by
  unfold State.respond
  repeat' first
    | with_reducible assumption | with_reducible apply C.send | with_reducible apply C.wr | (unfold ReactKey; decide)
    | (simp only [ReactKey, Fld.key, R.HP_LOAD_STAT_DEVLOAD]; omega)

theorem Reactive.answerRead {P : State → Prop} (C : Reactive P) {s : State} (port tag g l : Nat) (hP : P s) :
    P (State.answerRead s port tag g l) := by
  unfold State.answerRead
  repeat' first
    | with_reducible assumption | with_reducible apply pres_ite | with_reducible apply C.respond

theorem Reactive.answerOld {P : State → Prop} (C : Reactive P) {s : State} (data : Memory) (poison : LineMask) (h : Nat × Nat × Nat) (hP : P s) :
    P (State.answerOld s data poison h) := by
  unfold State.answerOld
  repeat' first
    | with_reducible assumption | with_reducible apply pres_ite | with_reducible apply C.respond

theorem Reactive.answerOvertaken {P : State → Prop} (C : Reactive P) {s : State} (g : Nat) (data : Memory) (poison : LineMask) (hP : P s) :
    P (State.answerOvertaken s g data poison) := by
  unfold State.answerOvertaken
  repeat' first
    | with_reducible assumption | with_reducible apply pres_ite | with_reducible apply pres_foldl
    | with_reducible apply C.answerOld | with_reducible refine C.parts (fun h => h) (Or.inl rfl) ?_ | intro _

end Sys2Proof.Machine
end

