-- ==== Sys2Proof/Laws/Reactive/QueueOps.lean ====
section
/-!
SUPPORT. Laws/Reactive/QueueOps.lean: more operations of Machine/QueueOps.lean that change only what a reaction can change
(Laws/Reactive.lean).
-/

namespace Sys2Proof.Machine

set_option Elab.async false
set_option linter.unusedTactic false
set_option linter.unreachableTactic false

theorem Reactive.setQueue {P : State → Prop} (C : Reactive P) {s : State} (c : Queue) (hP : P s) :
    P (State.setQueue s c) := by
  unfold State.setQueue
  repeat' first
    | with_reducible assumption | with_reducible refine C.parts (fun h => h) (Or.inl rfl) ?_

theorem Reactive.useContext {P : State → Prop} (C : Reactive P) {s : State} (q : Nat) (hP : P s) :
    P (State.useContext s q) := by
  unfold State.useContext
  repeat' first
    | with_reducible assumption | with_reducible apply pres_cond | with_reducible apply C.inc
    | with_reducible apply C.wr | with_reducible refine C.parts (fun h => h) (Or.inl rfl) ?_ | intro _
    | (unfold ReactKey; decide)

theorem Reactive.served {P : State → Prop} (C : Reactive P) {s : State} (c q : Nat) (fresh : Bool) (hP : P s) :
    P (State.served s c q fresh) := by
  unfold State.served
  repeat' first
    | with_reducible assumption | with_reducible apply pres_ite
    | with_reducible refine C.parts (fun h => h) (Or.inl rfl) ?_

theorem Reactive.startQueue {P : State → Prop} (C : Reactive P) {s : State} (q : Nat) (hP : P s) :
    P (State.startQueue s q) := by
  unfold State.startQueue
  repeat' first
    | with_reducible assumption | with_reducible apply pres_ite | with_reducible apply C.setQueue
    | with_reducible refine C.parts (fun h => h) (Or.inl rfl) ?_

theorem Reactive.setCmd {P : State → Prop} (C : Reactive P) {s : State} (q : Nat) (k : RunCmd) (hP : P s) :
    P (State.setCmd s q k) := by
  unfold State.setCmd
  repeat' first
    | with_reducible assumption | with_reducible apply pres_ite | with_reducible apply C.setQueue
    | with_reducible refine C.parts (fun h => h) (Or.inl rfl) ?_ | intro _

theorem Reactive.vectorCause {P : State → Prop} (C : Reactive P) {s : State} (port vec : Nat) (hP : P s) :
    P (State.vectorCause s port vec) := by
  unfold State.vectorCause
  repeat' first
    | with_reducible assumption | with_reducible apply pres_ite | with_reducible apply C.msix
    | with_reducible refine C.parts (fun h => h) (Or.inl rfl) ?_

theorem Reactive.postCompletion {P : State → Prop} (C : Reactive P) {s : State} (q : Nat) (d : Completion) (hP : P s) :
    P (State.postCompletion s q d) := by
  unfold State.postCompletion
  repeat' first
    | with_reducible assumption | with_reducible apply pres_cond | with_reducible apply pres_ite
    | with_reducible apply C.bump | with_reducible apply C.send | with_reducible apply C.setQueue
    | with_reducible apply C.vectorCause | with_reducible refine C.parts (fun h => h) (Or.inl rfl) ?_ | intro _
    | (unfold ReactKey; decide)

theorem Reactive.settleQueue {P : State → Prop} (C : Reactive P) {s : State} (q : Nat) (hP : P s) :
    P (State.settleQueue s q) := by
  unfold State.settleQueue
  repeat' first
    | with_reducible assumption | with_reducible apply pres_cond | with_reducible apply C.setQueue
    | with_reducible refine C.parts (fun h => h) (Or.inl rfl) ?_ | intro _

theorem Reactive.complete {P : State → Prop} (C : Reactive P) {s : State} (q : Nat) (k : RunCmd) (st : Nat) (hP : P s) :
    P (State.complete s q k st) := by
  unfold State.complete
  repeat' first
    | with_reducible assumption | with_reducible apply pres_ite | with_reducible apply C.inc
    | with_reducible apply C.setQueue | with_reducible apply C.startQueue | with_reducible apply C.postCompletion
    | with_reducible apply C.settleQueue | with_reducible refine C.parts (fun h => h) (Or.inl rfl) ?_ | intro _
    | (unfold ReactKey; decide)

theorem Reactive.mapFences {P : State → Prop} (C : Reactive P) {s : State} (f : RunCmd → RunCmd) (hP : P s) :
    P (State.mapFences s f) := by
  unfold State.mapFences
  repeat' first
    | with_reducible assumption | with_reducible apply pres_ite | with_reducible apply C.mapQueues
    | with_reducible refine C.parts (fun h => h) (Or.inl rfl) ?_ | intro _

theorem Reactive.fenceCommit {P : State → Prop} (C : Reactive P) {s : State} (g : Nat) (hP : P s) :
    P (State.fenceCommit s g) := by
  unfold State.fenceCommit
  repeat' first
    | with_reducible assumption | with_reducible apply pres_ite | with_reducible apply C.mapFences
    | with_reducible refine C.parts (fun h => h) (Or.inl rfl) ?_ | intro _

theorem Reactive.fenceClean {P : State → Prop} (C : Reactive P) {s : State} (lo hi : Nat) (hP : P s) :
    P (State.fenceClean s lo hi) := by
  unfold State.fenceClean
  repeat' first
    | with_reducible assumption | with_reducible apply C.mapFences
    | with_reducible refine C.parts (fun h => h) (Or.inl rfl) ?_ | intro _

theorem Reactive.fenceGiveUp {P : State → Prop} (C : Reactive P) {s : State} (g : Nat) (hP : P s) :
    P (State.fenceGiveUp s g) := by
  unfold State.fenceGiveUp
  repeat' first
    | with_reducible assumption | with_reducible apply pres_ite | with_reducible apply C.mapFences
    | with_reducible refine C.parts (fun h => h) (Or.inl rfl) ?_ | intro _

theorem Reactive.fenceFlushed {P : State → Prop} (C : Reactive P) {s : State}  (hP : P s) :
    P (State.fenceFlushed s) := by
  unfold State.fenceFlushed
  repeat' first
    | with_reducible assumption | with_reducible apply C.mapFences

theorem Reactive.dropPortQueues {P : State → Prop} (C : Reactive P) {s : State} (p : Nat) (hP : P s) :
    P (State.dropPortQueues s p) := by
  unfold State.dropPortQueues
  repeat' first
    | with_reducible assumption | with_reducible apply pres_ite | with_reducible apply C.mapQueues
    | with_reducible apply C.showQueues | with_reducible refine C.parts (fun h => h) (Or.inl rfl) ?_ | intro _

theorem Reactive.abortCmds {P : State → Prop} (C : Reactive P) {s : State} (q : Nat) (hP : P s) :
    P (State.abortCmds s q) := by
  unfold State.abortCmds
  repeat' first
    | with_reducible assumption | with_reducible apply pres_ite | with_reducible apply pres_foldl
    | with_reducible apply C.setQueue | with_reducible apply C.complete
    | with_reducible refine C.parts (fun h => h) (Or.inl rfl) ?_ | intro _

theorem Reactive.disableQueue {P : State → Prop} (C : Reactive P) {s : State} (q : Nat) (hP : P s) :
    P (State.disableQueue s q) := by
  unfold State.disableQueue
  repeat' first
    | with_reducible assumption | with_reducible apply pres_ite | with_reducible apply C.setQueue
    | with_reducible apply C.showQueues | with_reducible apply C.settleQueue | with_reducible apply C.abortCmds
    | with_reducible refine C.parts (fun h => h) (Or.inl rfl) ?_

theorem Reactive.faultQueue {P : State → Prop} (C : Reactive P) {s : State} (q : Nat) (hP : P s) :
    P (State.faultQueue s q) := by
  unfold State.faultQueue
  repeat' first
    | with_reducible assumption | with_reducible apply C.inc | with_reducible apply C.setQueue
    | with_reducible apply C.wr | with_reducible refine C.parts (fun h => h) (Or.inl rfl) ?_ | (unfold ReactKey; decide)

end Sys2Proof.Machine
end

