-- ==== Sys2Proof/Laws/Reactive/SeqOps.lean ====
section
/-!
SUPPORT. Laws/Reactive/SeqOps.lean: more operations of Machine/SeqOps.lean that change only what a reaction can change
(Laws/Reactive.lean).
-/

namespace Sys2Proof.Machine

set_option Elab.async false
set_option linter.unusedTactic false
set_option linter.unreachableTactic false

theorem Reactive.easeMargins {P : State → Prop} (C : Reactive P) {s : State}  (hP : P s) :
    P (State.easeMargins s) := by
  unfold State.easeMargins
  repeat' first
    | with_reducible assumption | with_reducible apply pres_each | with_reducible apply C.wr | intro _
    | (unfold ReactKey; decide) | (simp only [ReactKey, Fld.key, R.SEQ_RAIL_MARGIN_PCT10]; omega)

theorem Reactive.setEnables {P : State → Prop} (C : Reactive P) {s : State} (mask : Nat) (hP : P s) :
    P (State.setEnables s mask) := by
  unfold State.setEnables
  repeat' first
    | with_reducible assumption | with_reducible apply pres_ite | with_reducible apply pres_foldl
    | with_reducible apply C.wr | with_reducible refine C.parts (fun h => h) (Or.inl rfl) ?_ | intro _
    | (unfold ReactKey; decide) | (simp only [ReactKey, Fld.key, R.SEQ_RAIL_MV_STATE]; omega)

theorem Reactive.seqWaits {P : State → Prop} (C : Reactive P) {s : State} (w : SeqWait) (hP : P s) :
    P (State.seqWaits s w) := by
  unfold State.seqWaits
  repeat' first
    | with_reducible assumption | with_reducible refine C.parts (fun h => h) (Or.inl rfl) ?_

theorem Reactive.seqNext {P : State → Prop} (C : Reactive P) {s : State}  (hP : P s) :
    P (State.seqNext s) := by
  unfold State.seqNext
  repeat' first
    | with_reducible assumption | with_reducible refine C.parts (fun h => h) (Or.inl rfl) ?_

theorem Reactive.checkFailed {P : State → Prop} (C : Reactive P) {s : State} (rails : Nat) (up : Bool) (hP : P s) :
    P (State.checkFailed s rails up) := by
  unfold State.checkFailed
  repeat' first
    | with_reducible assumption | with_reducible apply pres_ite | with_reducible apply pres_foldl
    | with_reducible apply C.inc | with_reducible apply C.detect | with_reducible apply C.wr | intro _
    | (unfold ReactKey; decide)
    | (simp only [ReactKey, Fld.key, R.SEQ_RAIL_CNT_SEQ_DOWN_FAIL, R.SEQ_RAIL_CNT_SEQ_UP_FAIL]; omega)

theorem Reactive.afterFail {P : State → Prop} (C : Reactive P) {s : State} (up : Bool) (hP : P s) :
    P (State.afterFail s up) := by
  unfold State.afterFail
  repeat' first
    | with_reducible assumption | with_reducible apply pres_ite | with_reducible apply C.seqNext
    | with_reducible apply C.seqStop

theorem Reactive.seqAbandon {P : State → Prop} (C : Reactive P) {s : State}  (hP : P s) :
    P (State.seqAbandon s) := by
  unfold State.seqAbandon
  repeat' first
    | with_reducible assumption | with_reducible apply pres_ite | with_reducible apply C.seqStop

end Sys2Proof.Machine
end

