-- ==== Sys2Proof/Laws/Reactive/LinkOps.lean ====
section
/-!
SUPPORT. Laws/Reactive/LinkOps.lean: more operations of Machine/LinkOps.lean that change only what a reaction can change
(Laws/Reactive.lean).
-/

namespace Sys2Proof.Machine

set_option Elab.async false
set_option linter.unusedTactic false
set_option linter.unreachableTactic false

theorem Reactive.lsaTick {P : State → Prop} (C : Reactive P) {s : State}  (hP : P s) :
    P (State.lsaTick s) := by
  unfold State.lsaTick
  repeat' first
    | with_reducible assumption | with_reducible apply pres_cond | with_reducible apply C.floodLsa | intro _

theorem Reactive.dropHr {P : State → Prop} (C : Reactive P) {s : State} (n : Nat) (hP : P s) :
    P (State.dropHr s n) := by
  unfold State.dropHr
  repeat' first
    | with_reducible assumption | with_reducible apply C.addSat | with_reducible apply C.setDport
    | with_reducible apply C.wr | with_reducible refine C.parts (fun h => h) (Or.inl rfl) ?_ | (unfold ReactKey; decide)
    | (simp only [ReactKey, Fld.key, R.DLP_COST, R.DLP_DROP_LINK, R.DLP_STAT_LANES, R.DLP_STAT_SPARE_USED]; omega)

theorem Reactive.dropSb {P : State → Prop} (C : Reactive P) {s : State} (n : Nat) (hP : P s) :
    P (State.dropSb s n) := by
  unfold State.dropSb
  repeat' first
    | with_reducible assumption | with_reducible apply C.addSat | with_reducible apply C.setDport
    | with_reducible apply C.wr | with_reducible refine C.parts (fun h => h) (Or.inl rfl) ?_ | (unfold ReactKey; decide)
    | (simp only [ReactKey, Fld.key, R.DLP_DROP_LINK, R.DLP_NBR, R.DLP_NBR_FNN, R.DLP_NBR_PORT, R.DLP_NBR_PSTATE]; omega)

theorem Reactive.portFall {P : State → Prop} (C : Reactive P) {s : State} (n upTo : Nat) (hP : P s) :
    P (State.portFall s n upTo) := by
  unfold State.portFall
  repeat' first
    | with_reducible assumption | with_reducible apply pres_cond | with_reducible apply pres_ite
    | with_reducible apply C.detect | with_reducible apply C.adjacency | with_reducible apply C.dropHr
    | with_reducible apply C.dropSb | with_reducible apply C.wr | intro _ | (unfold ReactKey; decide)
    | (simp only [ReactKey, Fld.key, R.DLP_STAT_STATE]; omega)

theorem Reactive.hrOff {P : State → Prop} (C : Reactive P) {s : State}  (hP : P s) :
    P (State.hrOff s) := by
  unfold State.hrOff
  repeat' first
    | with_reducible assumption | with_reducible apply pres_cond | with_reducible apply pres_each
    | with_reducible apply C.portFall | intro _

theorem Reactive.showFeed {P : State → Prop} (C : Reactive P) {s : State} (n : Nat) (hP : P s) :
    P (State.showFeed s n) := by
  unfold State.showFeed
  repeat' first
    | with_reducible assumption | with_reducible apply C.wr | (unfold ReactKey; decide)
    | (simp only [ReactKey, Fld.key, R.DLP_STAT_PH_OUT]; omega)

theorem Reactive.showFeeds {P : State → Prop} (C : Reactive P) {s : State}  (hP : P s) :
    P (State.showFeeds s) := by
  unfold State.showFeeds
  repeat' first
    | with_reducible assumption | with_reducible apply pres_cond | with_reducible apply pres_each
    | with_reducible apply C.showFeed | intro _

theorem Reactive.alarmLatch {P : State → Prop} (C : Reactive P) {s : State} (src sev : Nat) (hP : P s) :
    P (State.alarmLatch s src sev) := by
  unfold State.alarmLatch
  repeat' first
    | with_reducible assumption | with_reducible apply pres_ite
    | with_reducible refine C.parts (fun h => h) (Or.inl rfl) ?_ | intro _

end Sys2Proof.Machine
end

