-- ==== Sys2Proof/Laws/Reactive/RackOps.lean ====
section
/-!
SUPPORT. Laws/Reactive/RackOps.lean: more operations of Machine/RackOps.lean that change only what a reaction can change
(Laws/Reactive.lean).
-/

namespace Sys2Proof.Machine

set_option Elab.async false
set_option linter.unusedTactic false
set_option linter.unreachableTactic false

theorem Reactive.rackSent {P : State → Prop} (C : Reactive P) {s : State} (t r : Nat) (hP : P s) :
    P (State.rackSent s t r) := by
  unfold State.rackSent
  repeat' first
    | with_reducible assumption | with_reducible apply pres_ite | with_reducible apply C.mapRacks
    | with_reducible refine C.parts (fun h => h) (Or.inl rfl) ?_ | intro _

theorem Reactive.rackAcked {P : State → Prop} (C : Reactive P) {s : State} (t r : Nat) (hP : P s) :
    P (State.rackAcked s t r) := by
  unfold State.rackAcked
  repeat' first
    | with_reducible assumption | with_reducible apply pres_ite | with_reducible apply C.mapRacks
    | with_reducible refine C.parts (fun h => h) (Or.inl rfl) ?_ | intro _

theorem Reactive.refuse {P : State → Prop} (C : Reactive P) {s : State} (t : Nat) (hP : P s) :
    P (State.refuse s t) := by
  unfold State.refuse
  repeat' first
    | with_reducible assumption | with_reducible apply C.detect | with_reducible apply C.rackSettle
    | with_reducible apply C.abandonSends | with_reducible apply C.wr | (unfold ReactKey; decide)
    | (simp only [ReactKey, Fld.key, R.RCK_TGT_STAT_STATE]; omega)

theorem Reactive.fabricStops {P : State → Prop} (C : Reactive P) {s : State}  (hP : P s) :
    P (State.fabricStops s) := by
  unfold State.fabricStops
  repeat' first
    | with_reducible assumption | with_reducible apply pres_cond | with_reducible apply pres_each
    | with_reducible apply C.suspend | intro _

theorem Reactive.rackStart {P : State → Prop} (C : Reactive P) {s : State}  (hP : P s) :
    P (State.rackStart s) := by
  unfold State.rackStart
  repeat' first
    | with_reducible assumption | with_reducible apply pres_cond | with_reducible apply pres_each
    | with_reducible apply C.openTarget | intro _

theorem Reactive.showGuest {P : State → Prop} (C : Reactive P) {s : State} (slot : Nat) (hP : P s) :
    P (State.showGuest s slot) := by
  unfold State.showGuest
  repeat' first
    | with_reducible assumption | with_reducible apply pres_cond | with_reducible apply C.wr | split
    | with_reducible refine C.parts (fun h => h) (Or.inl rfl) ?_ | intro _ | (unfold ReactKey; decide)
    | (simp only [ReactKey, Fld.key, R.RCK_GUEST_GEN, R.RCK_GUEST_HELD, R.RCK_GUEST_LOST, R.RCK_GUEST_OWN, R.RCK_GUEST_SIZE, R.RCK_GUEST_STAT_OWNER_REACH, R.RCK_GUEST_STAT_STATE, R.RCK_GUEST_STAT_UNREACH_H]; omega)

theorem Reactive.putGuest {P : State → Prop} (C : Reactive P) {s : State} (v : Guest) (hP : P s) :
    P (State.putGuest s v) := by
  unfold State.putGuest
  repeat' first
    | with_reducible assumption | with_reducible apply C.showGuest
    | with_reducible refine C.parts (fun h => h) (Or.inl rfl) ?_ | intro _

theorem Reactive.guestKeep {P : State → Prop} (C : Reactive P) {s : State} (v : Guest) (keep : RSet) (hP : P s) :
    P (State.guestKeep s v keep) := by
  unfold State.guestKeep
  repeat' first
    | with_reducible assumption | with_reducible apply C.putGuest
    | with_reducible refine C.parts (fun h => h) (Or.inl rfl) ?_ | intro _

theorem Reactive.dropGuest {P : State → Prop} (C : Reactive P) {s : State} (slot : Nat) (hP : P s) :
    P (State.dropGuest s slot) := by
  unfold State.dropGuest
  repeat' first
    | with_reducible assumption | with_reducible apply C.showGuest
    | with_reducible refine C.parts (fun h => h) (Or.inl rfl) ?_ | intro _

theorem Reactive.sendLost {P : State → Prop} (C : Reactive P) {s : State} (slot : Nat) (hP : P s) :
    P (State.sendLost s slot) := by
  unfold State.sendLost
  repeat' first
    | with_reducible assumption | with_reducible apply pres_ite | with_reducible apply pres_foldl
    | with_reducible apply C.rackTo | with_reducible apply C.putGuest | split
    | with_reducible refine C.parts (fun h => h) (Or.inl rfl) ?_ | intro _

theorem Reactive.guestsFollow {P : State → Prop} (C : Reactive P) {s : State}  (hP : P s) :
    P (State.guestsFollow s) := by
  unfold State.guestsFollow
  repeat' first
    | with_reducible assumption | with_reducible apply pres_foldl | with_reducible apply C.showGuest
    | with_reducible apply C.sendLost | intro _

theorem Reactive.guestHours {P : State → Prop} (C : Reactive P) {s : State}  (hP : P s) :
    P (State.guestHours s) := by
  unfold State.guestHours
  repeat' first
    | with_reducible assumption | with_reducible apply pres_cond | with_reducible apply pres_foldl
    | with_reducible apply C.inc | intro _ | (unfold ReactKey; decide)
    | (simp only [ReactKey, Fld.key, R.RCK_GUEST_STAT_UNREACH_H]; omega)

end Sys2Proof.Machine
end

