-- ==== Sys2Proof/Laws/Reactive/StopOps.lean ====
section
/-!
SUPPORT. Laws/Reactive/StopOps.lean: more operations of Machine/StopOps.lean that change only what a reaction can change
(Laws/Reactive.lean).
-/

namespace Sys2Proof.Machine

set_option Elab.async false
set_option linter.unusedTactic false
set_option linter.unreachableTactic false

theorem Reactive.noQuiet {P : State → Prop} (C : Reactive P) {s : State}  (hP : P s) :
    P (State.noQuiet s) := by
  unfold State.noQuiet
  repeat' first
    | with_reducible assumption | with_reducible refine C.parts (fun h => h) (Or.inl rfl) ?_

theorem Reactive.halt {P : State → Prop} (C : Reactive P) {s : State} (n : Nat) (hP : P s) :
    P (State.halt s n) := by
  unfold State.halt
  repeat' first
    | with_reducible assumption | with_reducible apply pres_cond | with_reducible apply pres_ite
    | with_reducible apply pres_foldl | with_reducible apply C.fabricStops | with_reducible apply C.wr
    | with_reducible refine C.parts (fun h => h) (Or.inl rfl) ?_ | intro _ | (unfold ReactKey; decide)
    | (simp only [ReactKey, Fld.key, R.STALE]; omega)

theorem Reactive.nextHandover {P : State → Prop} (C : Reactive P) {s : State}  (hP : P s) :
    P (State.nextHandover s) := by
  unfold State.nextHandover
  repeat' first
    | with_reducible assumption | with_reducible apply C.halt | with_reducible apply C.wr | split
    | with_reducible refine C.parts (fun h => h) (Or.inl rfl) ?_ | (unfold ReactKey; decide)

theorem Reactive.handTick {P : State → Prop} (C : Reactive P) {s : State}  (hP : P s) :
    P (State.handTick s) := by
  unfold State.handTick
  repeat' first
    | with_reducible assumption | with_reducible apply pres_cond | with_reducible apply C.nextHandover
    | with_reducible refine C.parts (fun h => h) (Or.inl rfl) ?_ | intro _

theorem Reactive.handoverBack {P : State → Prop} (C : Reactive P) {s : State}  (hP : P s) :
    P (State.handoverBack s) := by
  unfold State.handoverBack
  repeat' first
    | with_reducible assumption | with_reducible apply C.detect | with_reducible apply C.vendor
    | with_reducible apply C.returnImages | with_reducible apply C.wr | (unfold ReactKey; decide)

theorem Reactive.holdOffPages {P : State → Prop} (C : Reactive P) {s : State}  (hP : P s) :
    P (State.holdOffPages s) := by
  unfold State.holdOffPages
  repeat' first
    | with_reducible assumption | with_reducible apply pres_cond | with_reducible apply pres_foldl
    | with_reducible apply C.wr | with_reducible refine C.parts (fun h => h) (Or.inl rfl) ?_ | intro _
    | (unfold ReactKey; decide) | (simp only [ReactKey, Fld.key, R.STALE]; omega)

theorem Reactive.logReport {P : State → Prop} (C : Reactive P) {s : State} (r : Report) (hP : P s) :
    P (State.logReport s r) := by
  unfold State.logReport
  repeat' first
    | with_reducible assumption | with_reducible apply C.appendTlog
    | with_reducible refine C.parts (fun h => h) (Or.inl rfl) ?_

theorem Reactive.reportAll {P : State → Prop} (C : Reactive P) {s : State}  (hP : P s) :
    P (State.reportAll s) := by
  unfold State.reportAll
  repeat' first
    | with_reducible assumption | with_reducible apply pres_foldl | with_reducible apply C.logReport
    | with_reducible refine C.parts (fun h => h) (Or.inl rfl) ?_ | intro _

end Sys2Proof.Machine
end

