-- ==== Sys2Proof/Laws/Reactive/KilnOps.lean ====
section
/-!
SUPPORT. Laws/Reactive/KilnOps.lean: more operations of Machine/KilnOps.lean that change only what a reaction can change
(Laws/Reactive.lean).
-/

namespace Sys2Proof.Machine

set_option Elab.async false
set_option linter.unusedTactic false
set_option linter.unreachableTactic false

theorem Reactive.k2PortDone {P : State → Prop} (C : Reactive P) {s : State} (p : Nat) (hP : P s) :
    P (State.k2PortDone s p) := by
  unfold State.k2PortDone
  repeat' first
    | with_reducible assumption | with_reducible apply C.k2Check
    | with_reducible refine C.parts (fun h => h) (Or.inl rfl) ?_ | intro _

theorem Reactive.sampleDrain {P : State → Prop} (C : Reactive P) {s : State}  (hP : P s) :
    P (State.sampleDrain s) := by
  unfold State.sampleDrain
  repeat' first
    | with_reducible assumption | with_reducible refine C.parts (fun h => h) (Or.inl rfl) ?_ | intro _

theorem Reactive.project {P : State → Prop} (C : Reactive P) {s : State}  (hP : P s) :
    P (State.project s) := by
  unfold State.project
  repeat' first
    | with_reducible assumption | with_reducible apply pres_cond | with_reducible apply C.wr | intro _
    | (unfold ReactKey; decide)

theorem Reactive.kilnLose {P : State → Prop} (C : Reactive P) {s : State} (g : Nat) (hP : P s) :
    P (State.kilnLose s g) := by
  unfold State.kilnLose
  repeat' first
    | with_reducible assumption | with_reducible apply pres_ite | with_reducible apply C.detect
    | with_reducible apply C.wr | with_reducible refine C.parts (fun h => h) (Or.inl rfl) ?_ | (unfold ReactKey; decide)

theorem Reactive.loseRanks {P : State → Prop} (C : Reactive P) {s : State} (en : Nat) (hP : P s) :
    P (State.loseRanks s en) := by
  unfold State.loseRanks
  repeat' first
    | with_reducible assumption | with_reducible apply pres_ite | with_reducible apply pres_foldl
    | with_reducible apply C.kilnLose | intro _

theorem Reactive.prime {P : State → Prop} (C : Reactive P) {s : State}  (hP : P s) :
    P (State.prime s) := by
  unfold State.prime
  repeat' first
    | with_reducible assumption | with_reducible apply pres_ite | with_reducible apply C.wr
    | with_reducible refine C.parts (fun h => h) (Or.inl rfl) ?_ | (unfold ReactKey; decide)

theorem Reactive.unprime {P : State → Prop} (C : Reactive P) {s : State}  (hP : P s) :
    P (State.unprime s) := by
  unfold State.unprime
  repeat' first
    | with_reducible assumption | with_reducible apply C.wr | with_reducible refine C.parts (fun h => h) (Or.inl rfl) ?_
    | (unfold ReactKey; decide)

theorem Reactive.calBegin {P : State → Prop} (C : Reactive P) {s : State}  (hP : P s) :
    P (State.calBegin s) := by
  unfold State.calBegin
  repeat' first
    | with_reducible assumption | with_reducible apply pres_cond | with_reducible apply C.wr
    | with_reducible refine C.parts (fun h => h) (Or.inl rfl) ?_ | intro _ | (unfold ReactKey; decide)

theorem Reactive.toReady {P : State → Prop} (C : Reactive P) {s : State}  (hP : P s) :
    P (State.toReady s) := by
  unfold State.toReady
  repeat' first
    | with_reducible assumption | with_reducible apply pres_cond | with_reducible apply pres_ite
    | with_reducible apply C.prime | with_reducible apply C.unprime | with_reducible apply C.calBegin | intro _

theorem Reactive.cancelKiln {P : State → Prop} (C : Reactive P) {s : State}  (hP : P s) :
    P (State.cancelKiln s) := by
  unfold State.cancelKiln
  repeat' first
    | with_reducible assumption | with_reducible apply pres_cond | with_reducible apply pres_each
    | with_reducible apply C.inc | with_reducible apply C.setHost | with_reducible apply C.setPack
    | with_reducible apply C.detect | with_reducible apply C.bgEnd | with_reducible apply C.disarmCdl
    | with_reducible apply C.pathOn | with_reducible apply C.toReady | with_reducible apply C.wr
    | with_reducible refine C.parts (fun h => h) (Or.inl rfl) ?_ | intro _ | (unfold ReactKey; decide)
    | (simp only [ReactKey, Fld.key, R.HP_MBOX_BG]; omega)

end Sys2Proof.Machine
end

