-- ==== Sys2Proof/Laws/Reactive/FaultOps.lean ====
section
/-!
SUPPORT. Laws/Reactive/FaultOps.lean: more operations of Machine/FaultOps.lean that change only what a reaction can change
(Laws/Reactive.lean).
-/

namespace Sys2Proof.Machine

set_option Elab.async false
set_option linter.unusedTactic false
set_option linter.unreachableTactic false

theorem Reactive.injSeen {P : State → Prop} (C : Reactive P) {s : State} (src inst : Nat) (hP : P s) :
    P (State.injSeen s src inst) := by
  unfold State.injSeen
  repeat' first
    | with_reducible assumption | with_reducible apply C.setBit | with_reducible apply C.appendTlog
    | with_reducible apply C.enterHist | with_reducible refine C.parts (fun h => h) (Or.inl rfl) ?_ | intro _
    | (unfold ReactKey; decide) | (simp only [ReactKey, Fld.key, R.FLT_FORCE, R.SAF_INJ_SEEN]; omega)

end Sys2Proof.Machine
end

