-- ==== Sys2Proof/Laws/Reactive/PackOps.lean ====
section
/-!
SUPPORT. Laws/Reactive/PackOps.lean: more operations of Machine/PackOps.lean that change only what a reaction can change
(Laws/Reactive.lean).
-/

namespace Sys2Proof.Machine

set_option Elab.async false
set_option linter.unusedTactic false
set_option linter.unreachableTactic false

theorem Reactive.ramp {P : State → Prop} (C : Reactive P) {s : State} (p before : Nat) (hP : P s) :
    P (State.ramp s p before) := by
  unfold State.ramp
  repeat' first
    | with_reducible assumption | with_reducible apply pres_ite | with_reducible apply C.setPack
    | with_reducible refine C.parts (fun h => h) (Or.inl rfl) ?_

end Sys2Proof.Machine
end

