-- ==== Sys2Proof/Laws/Reactive/PowerOps.lean ====
section
/-!
SUPPORT. Laws/Reactive/PowerOps.lean: more operations of Machine/PowerOps.lean that change only what a reaction can change
(Laws/Reactive.lean).
-/

namespace Sys2Proof.Machine

set_option Elab.async false
set_option linter.unusedTactic false
set_option linter.unreachableTactic false

theorem Reactive.openPaths {P : State → Prop} (C : Reactive P) {s : State}  (hP : P s) :
    P (State.openPaths s) := by
  unfold State.openPaths
  repeat' first
    | with_reducible assumption | with_reducible apply C.setPack | with_reducible apply C.pathOn
    | with_reducible refine C.parts (fun h => h) (Or.inl rfl) ?_

theorem Reactive.coreOff {P : State → Prop} (C : Reactive P) {s : State}  (hP : P s) :
    P (State.coreOff s) := by
  unfold State.coreOff
  repeat' first
    | with_reducible assumption | with_reducible refine C.parts (fun h => h) (Or.inl rfl) ?_

theorem Reactive.enterP4 {P : State → Prop} (C : Reactive P) {s : State}  (hP : P s) :
    P (State.enterP4 s) := by
  unfold State.enterP4
  repeat' first
    | with_reducible assumption | with_reducible apply C.seqRequest | with_reducible apply C.announce
    | with_reducible apply C.hrOff | with_reducible apply C.openPaths | with_reducible apply C.coreOff
    | with_reducible apply C.wr | with_reducible refine C.parts (fun h => h) (Or.inl rfl) ?_ | intro _
    | (unfold ReactKey; decide)

theorem Reactive.goDown {P : State → Prop} (C : Reactive P) {s : State}  (hP : P s) :
    P (State.goDown s) := by
  unfold State.goDown
  repeat' first
    | with_reducible assumption | with_reducible apply pres_ite | with_reducible apply C.seqRequest
    | with_reducible apply C.enterP4 | split | with_reducible refine C.parts (fun h => h) (Or.inl rfl) ?_

theorem Reactive.showCask {P : State → Prop} (C : Reactive P) {s : State} (c : Cask) (hP : P s) :
    P (State.showCask s c) := by
  unfold State.showCask
  repeat' first
    | with_reducible assumption | with_reducible apply pres_each | with_reducible apply C.wr | intro _
    | (unfold ReactKey; decide) | (simp only [ReactKey, Fld.key, R.KLN_PHASE_CT, R.KLN_PHASE_US]; omega)

theorem Reactive.stepHold {P : State → Prop} (C : Reactive P) {s : State} (n : Nat) (hP : P s) :
    P (State.stepHold s n) := by
  unfold State.stepHold
  repeat' first
    | with_reducible assumption | with_reducible apply C.wr | with_reducible refine C.parts (fun h => h) (Or.inl rfl) ?_
    | (unfold ReactKey; decide)

theorem Reactive.restCease {P : State → Prop} (C : Reactive P) {s : State}  (hP : P s) :
    P (State.restCease s) := by
  unfold State.restCease
  repeat' first
    | with_reducible assumption | with_reducible apply pres_cond | with_reducible apply C.restExit | intro _

end Sys2Proof.Machine
end

