-- ==== Sys2Proof/Laws/Reactive/Phase.lean ====
section
/-!
SUPPORT. Laws/Reactive/Phase.lean: more operations of Machine/Phase.lean that change only what a reaction can change
(Laws/Reactive.lean).
-/

namespace Sys2Proof.Machine

set_option Elab.async false
set_option linter.unusedTactic false
set_option linter.unreachableTactic false

theorem Reactive.amendTlog {P : State → Prop} (C : Reactive P) {s : State} (code data : Nat) (hP : P s) :
    P (State.amendTlog s code data) := by
  unfold State.amendTlog
  repeat' first
    | with_reducible assumption | with_reducible apply pres_ite | split
    | with_reducible refine C.parts (fun h => h) (Or.inl rfl) ?_ | intro _

end Sys2Proof.Machine
end

