-- ==== Sys2Proof/Laws/Reactive/Monitor.lean ====
section
/-!
SUPPORT. Laws/Reactive/Monitor.lean: more operations of Machine/Monitor.lean that change only what a reaction can change
(Laws/Reactive.lean).
-/

namespace Sys2Proof.Machine

set_option Elab.async false
set_option linter.unusedTactic false
set_option linter.unreachableTactic false

theorem Reactive.railRuns {P : State → Prop} (C : Reactive P) {s : State} (i mv : Nat) (hP : P s) :
    P (State.railRuns s i mv) := by
  unfold State.railRuns
  repeat' first
    | with_reducible assumption | with_reducible apply pres_ite | with_reducible apply pres_foldl | split
    | with_reducible refine C.parts (fun h => h) (Or.inl rfl) ?_ | intro _

theorem Reactive.packRamp {P : State → Prop} (C : Reactive P) {s : State} (p : Nat) (hP : P s) :
    P (State.packRamp s p) := by
  unfold State.packRamp
  repeat' first
    | with_reducible assumption | with_reducible apply pres_ite | with_reducible apply C.setPack
    | with_reducible refine C.parts (fun h => h) (Or.inl rfl) ?_

theorem Reactive.housekeeping {P : State → Prop} (C : Reactive P) {s : State} (f : Frame) (hP : P s) :
    P (State.housekeeping s f) := by
  unfold State.housekeeping
  repeat' first
    | with_reducible assumption | with_reducible apply pres_cond | with_reducible apply pres_ite
    | with_reducible apply pres_foldl | with_reducible apply C.detect | with_reducible apply C.wr
    | with_reducible refine C.parts (fun h => h) (Or.inl rfl) ?_ | intro _ | (unfold ReactKey; decide)

end Sys2Proof.Machine
end

