-- ==== Sys2Proof/Laws/Reactive/Dram.lean ====
section
/-!
SUPPORT. Laws/Reactive/Dram.lean: more operations of Machine/Dram.lean that change only what a reaction can change
(Laws/Reactive.lean).
-/

namespace Sys2Proof.Machine

set_option Elab.async false
set_option linter.unusedTactic false
set_option linter.unreachableTactic false

theorem Reactive.dramEvent {P : State → Prop} (C : Reactive P) {s : State} (g n kind device : Nat) (hP : P s) :
    P (State.dramEvent s g n kind device) := by
  unfold State.dramEvent
  repeat' first
    | with_reducible assumption | with_reducible apply pres_ite | with_reducible apply C.event

theorem Reactive.mediaEvent {P : State → Prop} (C : Reactive P) {s : State} (g : Nat) (hP : P s) :
    P (State.mediaEvent s g) := by
  unfold State.mediaEvent
  repeat' first
    | with_reducible assumption | with_reducible apply C.event

theorem Reactive.patrolLate {P : State → Prop} (C : Reactive P) {s : State} (c : Nat) (hP : P s) :
    P (State.patrolLate s c) := by
  unfold State.patrolLate
  repeat' first
    | with_reducible assumption | with_reducible apply pres_ite | with_reducible apply C.detect

end Sys2Proof.Machine
end

