-- ==== Sys2Proof/Laws/Reactive/Host.lean ====
section
/-!
SUPPORT. Laws/Reactive/Host.lean: more operations of Machine/Host.lean that change only what a reaction can change
(Laws/Reactive.lean).
-/

namespace Sys2Proof.Machine

set_option Elab.async false
set_option linter.unusedTactic false
set_option linter.unreachableTactic false

theorem Reactive.devLoad {P : State → Prop} (C : Reactive P) {s : State} (p pct : Nat) (hP : P s) :
    P (State.devLoad s p pct) := by
  unfold State.devLoad
  repeat' first
    | with_reducible assumption | with_reducible apply C.wr | (unfold ReactKey; decide)
    | (simp only [ReactKey, Fld.key, R.HP_LOAD_STAT_BW_LOAD]; omega)

theorem Reactive.holdWrite {P : State → Prop} (C : Reactive P) {s : State} (w : HeldWrite) (full : Bool) (hP : P s) :
    P (State.holdWrite s w full) := by
  unfold State.holdWrite
  repeat' first
    | with_reducible assumption | with_reducible apply pres_cond | with_reducible apply C.inc
    | with_reducible apply C.detect | with_reducible apply C.raiseFill
    | with_reducible refine C.parts (fun h => h) (Or.inl rfl) ?_ | intro _ | (unfold ReactKey; decide)

theorem Reactive.dropLink {P : State → Prop} (C : Reactive P) {s : State} (p : Nat) (hP : P s) :
    P (State.dropLink s p) := by
  unfold State.dropLink
  repeat' first
    | with_reducible assumption | with_reducible apply C.healthNote | with_reducible apply C.dropPortQueues
    | with_reducible apply C.k2PortDone | with_reducible apply C.wr | (unfold ReactKey; decide)
    | (simp only [ReactKey, Fld.key, R.HP_LINK_STAT_CXL, R.HP_LINK_STAT_FLIT256, R.HP_LINK_STAT_RATE, R.HP_LINK_STAT_UP, R.HP_LINK_STAT_WIDTH]; omega)

theorem Reactive.linkDown {P : State → Prop} (C : Reactive P) {s : State} (p : Nat) (hP : P s) :
    P (State.linkDown s p) := by
  unfold State.linkDown
  repeat' first
    | with_reducible assumption | with_reducible apply pres_cond | with_reducible apply pres_ite
    | with_reducible apply C.setHost | with_reducible apply C.detect | with_reducible apply C.dropLink
    | with_reducible refine C.parts (fun h => h) (Or.inl rfl) ?_ | intro _

theorem Reactive.decoderCommit {P : State → Prop} (C : Reactive P) {s : State} (p n base size ways gran : Nat) (hP : P s) :
    P (State.decoderCommit s p n base size ways gran) := by
  unfold State.decoderCommit
  repeat' first
    | with_reducible assumption | with_reducible apply pres_ite | with_reducible apply C.setBit
    | with_reducible apply C.setHost | with_reducible apply C.detect
    | with_reducible refine C.parts (fun h => h) (Or.inl rfl) ?_ | intro _ | (unfold ReactKey; decide)
    | (simp only [ReactKey, Fld.key, R.HP_DEC_STAT_COMMITTED, R.HP_DEC_STAT_REJECTED]; omega)

theorem Reactive.gpfDone {P : State → Prop} (C : Reactive P) {s : State} (p : Nat) (hP : P s) :
    P (State.gpfDone s p) := by
  unfold State.gpfDone
  repeat' first
    | with_reducible assumption | with_reducible apply pres_ite | with_reducible apply C.send
    | with_reducible apply C.setHost | with_reducible apply C.k2PortDone | with_reducible apply C.wr
    | with_reducible refine C.parts (fun h => h) (Or.inl rfl) ?_ | intro _ | (unfold ReactKey; decide)
    | (simp only [ReactKey, Fld.key, R.HP_GPF_P2_DONE]; omega)

theorem Reactive.gpfLate {P : State → Prop} (C : Reactive P) {s : State} (p : Nat) (hP : P s) :
    P (State.gpfLate s p) := by
  unfold State.gpfLate
  repeat' first
    | with_reducible assumption | with_reducible apply pres_ite | with_reducible apply C.detect
    | with_reducible apply C.k2PortDone | with_reducible apply C.wr | (unfold ReactKey; decide)
    | (simp only [ReactKey, Fld.key, R.HP_GPF_P2_LATE]; omega)

theorem Reactive.mboxLate {P : State → Prop} (C : Reactive P) {s : State} (p : Nat) (hP : P s) :
    P (State.mboxLate s p) := by
  unfold State.mboxLate
  repeat' first
    | with_reducible assumption | with_reducible apply pres_cond | with_reducible apply C.detect | intro _

end Sys2Proof.Machine
end

