-- ==== Sys2Proof/Laws/Reactive/Mailbox.lean ====
section
/-!
SUPPORT. Laws/Reactive/Mailbox.lean: more operations of Machine/Mailbox.lean that change only what a reaction can change
(Laws/Reactive.lean).
-/

namespace Sys2Proof.Machine

set_option Elab.async false
set_option linter.unusedTactic false
set_option linter.unreachableTactic false

theorem Reactive.setAlert {P : State → Prop} (C : Reactive P) {s : State} (p : Nat) (limits : List Nat) (hP : P s) :
    P (State.setAlert s p limits) := by
  unfold State.setAlert
  repeat' first
    | with_reducible assumption | with_reducible apply C.setHost | with_reducible apply C.reply
    | with_reducible refine C.parts (fun h => h) (Or.inl rfl) ?_

theorem Reactive.setShutdown {P : State → Prop} (C : Reactive P) {s : State} (p v : Nat) (hP : P s) :
    P (State.setShutdown s p v) := by
  unfold State.setShutdown
  repeat' first
    | with_reducible assumption | with_reducible apply C.setHost | with_reducible apply C.reply
    | with_reducible refine C.parts (fun h => h) (Or.inl rfl) ?_

theorem Reactive.background {P : State → Prop} (C : Reactive P) {s : State} (p : Nat) (body : State → State) (hbody : ∀ t, P t → P (body t)) (hP : P s) :
    P (State.background s p body) := by
  unfold State.background
  repeat' first
    | with_reducible assumption | with_reducible apply pres_ite | with_reducible apply C.reply
    | with_reducible apply hbody | intro _

theorem Reactive.relistLines {P : State → Prop} (C : Reactive P) {s : State} (p lo hi : Nat) (hP : P s) :
    P (State.relistLines s p lo hi) := by
  unfold State.relistLines
  repeat' first
    | with_reducible assumption | with_reducible apply pres_foldl | with_reducible apply C.listAt | intro _

theorem Reactive.wipeStart {P : State → Prop} (C : Reactive P) {s : State} (p op : Nat) (hP : P s) :
    P (State.wipeStart s p op) := by
  unfold State.wipeStart
  repeat' first
    | with_reducible assumption | with_reducible apply pres_ite | with_reducible apply C.setHost
    | with_reducible apply C.reply | with_reducible apply C.background | with_reducible apply C.wr
    | with_reducible refine C.parts (fun h => h) (Or.inl rfl) ?_ | intro _ | (unfold ReactKey; decide)
    | (simp only [ReactKey, Fld.key, R.HP_MBOX_BG, R.HP_MBOX_PCT]; omega)

theorem Reactive.plannedKiln {P : State → Prop} (C : Reactive P) {s : State} (p : Nat) (p3 group : Bool) (hP : P s) :
    P (State.plannedKiln s p p3 group) := by
  unfold State.plannedKiln
  repeat' first
    | with_reducible assumption | with_reducible apply pres_ite | with_reducible apply C.setHost
    | with_reducible apply C.reply | with_reducible apply C.fireTrigger | with_reducible apply C.background
    | with_reducible apply C.wr | with_reducible refine C.parts (fun h => h) (Or.inl rfl) ?_ | intro _
    | (unfold ReactKey; decide) | (simp only [ReactKey, Fld.key, R.HP_MBOX_BG, R.HP_MBOX_PCT]; omega)

theorem Reactive.tlogParity {P : State → Prop} (C : Reactive P) {s : State} (bad : List Nat) (hP : P s) :
    P (State.tlogParity s bad) := by
  unfold State.tlogParity
  repeat' first
    | with_reducible assumption | with_reducible apply pres_cond | with_reducible apply C.showTlog
    | with_reducible apply C.detect | with_reducible refine C.parts (fun h => h) (Or.inl rfl) ?_ | intro _

theorem Reactive.setWindow {P : State → Prop} (C : Reactive P) {s : State} (p : Nat) (r : ExportReply) (hP : P s) :
    P (State.setWindow s p r) := by
  unfold State.setWindow
  repeat' first
    | with_reducible assumption | with_reducible apply pres_ite | with_reducible apply pres_foldl
    | with_reducible refine C.parts (fun h => h) (Or.inl rfl) ?_ | intro _

theorem Reactive.rackExport {P : State → Prop} (C : Reactive P) {s : State} (p target owner first n : Nat) (remote : Option ExportReply) (hP : P s) :
    P (State.rackExport s p target owner first n remote) := by
  unfold State.rackExport
  repeat' first
    | with_reducible assumption | with_reducible apply pres_ite | with_reducible apply C.reply
    | with_reducible apply C.bgEnd | with_reducible apply C.background | with_reducible apply C.setWindow
    | with_reducible apply C.wr | split | with_reducible refine C.parts (fun h => h) (Or.inl rfl) ?_ | intro _
    | (unfold ReactKey; decide)

end Sys2Proof.Machine
end

