-- ==== Sys2Proof/Laws/Reactive/PageOps.lean ====
section
/-!
SUPPORT. Laws/Reactive/PageOps.lean: more operations of Machine/PageOps.lean that change only what a reaction can change
(Laws/Reactive.lean).
-/

namespace Sys2Proof.Machine

set_option Elab.async false
set_option linter.unusedTactic false
set_option linter.unreachableTactic false

theorem Reactive.giveReg {P : State → Prop} (C : Reactive P) {s : State} (who : Requester) (v : Nat) (hP : P s) :
    P (State.giveReg s who v) := by
  unfold State.giveReg
  repeat' first
    | with_reducible assumption | with_reducible apply C.send

theorem Reactive.under {P : State → Prop} (C : Reactive P) {s : State} (a : Admit) (page : Nat) (f : State → State) (hf : ∀ t, P t → P (f t)) (hP : P s) :
    P (State.under s a page f) := by
  unfold State.under
  repeat' first
    | with_reducible assumption | with_reducible apply C.reject | with_reducible apply C.restExit
    | with_reducible apply hf | split | with_reducible refine C.parts (fun h => h) (Or.inl rfl) ?_ | intro _

end Sys2Proof.Machine
end

