-- ==== Sys2Proof/Laws/Reactive/Wither.lean ====
section
/-!
SUPPORT. Laws/Reactive/Wither.lean: more operations of Machine/Wither.lean that change only what a reaction can change
(Laws/Reactive.lean).
-/

namespace Sys2Proof.Machine

set_option Elab.async false
set_option linter.unusedTactic false
set_option linter.unreachableTactic false

theorem Reactive.dirtyReasons {P : State → Prop} (C : Reactive P) {s : State} (d b e : Nat) (hP : P s) :
    P (State.dirtyReasons s d b e) := by
  unfold State.dirtyReasons
  repeat' first
    | with_reducible assumption | with_reducible apply pres_ite | with_reducible apply C.wr | (unfold ReactKey; decide)

theorem Reactive.boundFaults {P : State → Prop} (C : Reactive P) {s : State} (old b : Nat) (hP : P s) :
    P (State.boundFaults s old b) := by
  unfold State.boundFaults
  repeat' first
    | with_reducible assumption | with_reducible apply pres_cond | with_reducible apply C.detect
    | with_reducible apply C.setCond | intro _

end Sys2Proof.Machine
end

