-- ==== Sys2Proof/Laws/Reactive/Cellar.lean ====
section
/-!
SUPPORT. Laws/Reactive/Cellar.lean: more operations of Machine/Cellar.lean that change only what a reaction can change
(Laws/Reactive.lean).
-/

namespace Sys2Proof.Machine

set_option Elab.async false
set_option linter.unusedTactic false
set_option linter.unreachableTactic false

theorem Reactive.relocCheck {P : State → Prop} (C : Reactive P) {s : State} (chan : Nat) (hP : P s) :
    P (State.relocCheck s chan) := by
  unfold State.relocCheck
  repeat' first
    | with_reducible assumption | with_reducible apply pres_cond | with_reducible apply C.setCond | intro _

theorem Reactive.guestLost {P : State → Prop} (C : Reactive P) {s : State} (slot g : Nat) (hP : P s) :
    P (State.guestLost s slot g) := by
  unfold State.guestLost
  repeat' first
    | with_reducible assumption | with_reducible apply pres_ite | with_reducible apply C.detect
    | with_reducible apply C.sendLost | with_reducible apply C.wr
    | with_reducible refine C.parts (fun h => h) (Or.inl rfl) ?_ | intro _ | (unfold ReactKey; decide)
    | (simp only [ReactKey, Fld.key, R.RCK_GUEST_HELD, R.RCK_GUEST_LOST]; omega)

end Sys2Proof.Machine
end

