-- ==== Sys2Proof/Laws/Reactive/Kiln.lean ====
section
/-!
SUPPORT. Laws/Reactive/Kiln.lean: more operations of Machine/Kiln.lean that change only what a reaction can change
(Laws/Reactive.lean).
-/

namespace Sys2Proof.Machine

set_option Elab.async false
set_option linter.unusedTactic false
set_option linter.unreachableTactic false

theorem Reactive.mainFail {P : State → Prop} (C : Reactive P) {s : State}  (hP : P s) :
    P (State.mainFail s) := by
  unfold State.mainFail
  repeat' first
    | with_reducible assumption | with_reducible apply pres_cond | with_reducible apply pres_ite
    | with_reducible apply C.restExit | with_reducible apply C.k2Check | with_reducible apply C.pathOn
    | with_reducible apply C.fireTrigger | with_reducible apply C.goDown | with_reducible apply C.wr
    | with_reducible refine C.parts (fun h => h) (Or.inl rfl) ?_ | intro _ | (unfold ReactKey; decide)

theorem Reactive.mainWarn {P : State → Prop} (C : Reactive P) {s : State}  (hP : P s) :
    P (State.mainWarn s) := by
  unfold State.mainWarn
  repeat' first
    | with_reducible assumption | with_reducible apply pres_cond | with_reducible apply C.restExit
    | with_reducible apply C.k2Check | with_reducible apply C.prime | with_reducible apply C.wr
    | with_reducible refine C.parts (fun h => h) (Or.inl rfl) ?_ | intro _ | (unfold ReactKey; decide)

theorem Reactive.primedClear {P : State → Prop} (C : Reactive P) {s : State}  (hP : P s) :
    P (State.primedClear s) := by
  unfold State.primedClear
  repeat' first
    | with_reducible assumption | with_reducible apply pres_ite | with_reducible apply C.unprime

theorem Reactive.escalate {P : State → Prop} (C : Reactive P) {s : State}  (hP : P s) :
    P (State.escalate s) := by
  unfold State.escalate
  repeat' first
    | with_reducible assumption | with_reducible apply pres_ite | with_reducible apply C.restExit
    | with_reducible apply C.fireTrigger

theorem Reactive.pathsCarry {P : State → Prop} (C : Reactive P) {s : State}  (hP : P s) :
    P (State.pathsCarry s) := by
  unfold State.pathsCarry
  repeat' first
    | with_reducible assumption | with_reducible apply pres_cond | with_reducible apply pres_each
    | with_reducible apply C.setPack | with_reducible apply C.pathOn
    | with_reducible refine C.parts (fun h => h) (Or.inl rfl) ?_ | intro _

theorem Reactive.pathConfirmed {P : State → Prop} (C : Reactive P) {s : State}  (hP : P s) :
    P (State.pathConfirmed s) := by
  unfold State.pathConfirmed
  repeat' first
    | with_reducible assumption | with_reducible apply pres_ite | with_reducible apply C.openK2
    | with_reducible apply C.pathsCarry | with_reducible refine C.parts (fun h => h) (Or.inl rfl) ?_

theorem Reactive.pathLate {P : State → Prop} (C : Reactive P) {s : State}  (hP : P s) :
    P (State.pathLate s) := by
  unfold State.pathLate
  repeat' first
    | with_reducible assumption | with_reducible apply pres_ite | with_reducible apply C.detect
    | with_reducible apply C.openK2 | with_reducible refine C.parts (fun h => h) (Or.inl rfl) ?_

theorem Reactive.phaseLate {P : State → Prop} (C : Reactive P) {s : State}  (hP : P s) :
    P (State.phaseLate s) := by
  unfold State.phaseLate
  repeat' first
    | with_reducible assumption | with_reducible apply pres_ite | with_reducible apply C.detect
    | with_reducible refine C.parts (fun h => h) (Or.inl rfl) ?_

theorem Reactive.keepErrors {P : State → Prop} (C : Reactive P) {s : State} (k : KeepFound) (hP : P s) :
    P (State.keepErrors s k) := by
  unfold State.keepErrors
  repeat' first
    | with_reducible assumption | with_reducible apply pres_cond | with_reducible apply pres_foldl
    | with_reducible apply C.detect | with_reducible apply C.setDebt
    | with_reducible refine C.parts (fun h => h) (Or.inl rfl) ?_ | intro _

theorem Reactive.pathsStandby {P : State → Prop} (C : Reactive P) {s : State}  (hP : P s) :
    P (State.pathsStandby s) := by
  unfold State.pathsStandby
  repeat' first
    | with_reducible assumption | with_reducible apply C.setPack | with_reducible apply C.pathOn
    | with_reducible refine C.parts (fun h => h) (Or.inl rfl) ?_

theorem Reactive.selfTest {P : State → Prop} (C : Reactive P) {s : State} (cmpOk shedOk romOk : Bool) (hP : P s) :
    P (State.selfTest s cmpOk shedOk romOk) := by
  unfold State.selfTest
  repeat' first
    | with_reducible assumption | with_reducible apply pres_cond | with_reducible apply C.inc
    | with_reducible apply C.setCond | with_reducible apply C.wr | intro _ | (unfold ReactKey; decide)

theorem Reactive.armWrite {P : State → Prop} (C : Reactive P) {s : State} (on : Bool) (hP : P s) :
    P (State.armWrite s on) := by
  unfold State.armWrite
  repeat' first
    | with_reducible assumption | with_reducible apply pres_cond | with_reducible apply pres_ite
    | with_reducible apply C.reject | with_reducible apply C.setCond | with_reducible apply C.toReady
    | with_reducible apply C.wr | intro _ | (unfold ReactKey; decide)

end Sys2Proof.Machine
end

