-- ==== Sys2Proof/Laws/Reactive/Flash.lean ====
section
/-!
SUPPORT. Laws/Reactive/Flash.lean: more operations of Machine/Flash.lean that change only what a reaction can change
(Laws/Reactive.lean).
-/

namespace Sys2Proof.Machine

set_option Elab.async false
set_option linter.unusedTactic false
set_option linter.unreachableTactic false

theorem Reactive.setBankPkg {P : State → Prop} (C : Reactive P) {s : State} (b : Nat) (k : Option Package) (hP : P s) :
    P (State.setBankPkg s b k) := by
  unfold State.setBankPkg
  repeat' first
    | with_reducible assumption | with_reducible apply pres_ite
    | with_reducible refine C.parts (fun h => h) (Or.inl rfl) ?_

theorem Reactive.dropStaging {P : State → Prop} (C : Reactive P) {s : State}  (hP : P s) :
    P (State.dropStaging s) := by
  unfold State.dropStaging
  repeat' first
    | with_reducible assumption | with_reducible apply C.setBankPkg | with_reducible apply C.wr
    | with_reducible refine C.parts (fun h => h) (Or.inl rfl) ?_ | (unfold ReactKey; decide)

end Sys2Proof.Machine
end

