-- ==== Sys2Proof/Laws/Reactive/Update.lean ====
section
/-!
SUPPORT. Laws/Reactive/Update.lean: more operations of Machine/Update.lean that change only what a reaction can change
(Laws/Reactive.lean).
-/

namespace Sys2Proof.Machine

set_option Elab.async false
set_option linter.unusedTactic false
set_option linter.unreachableTactic false

theorem Reactive.keepLock {P : State → Prop} (C : Reactive P) {s : State} (src : Nat) (hP : P s) :
    P (State.keepLock s src) := by
  unfold State.keepLock
  repeat' first
    | with_reducible assumption | with_reducible apply C.wr | (unfold ReactKey; decide)

theorem Reactive.freeLock {P : State → Prop} (C : Reactive P) {s : State}  (hP : P s) :
    P (State.freeLock s) := by
  unfold State.freeLock
  repeat' first
    | with_reducible assumption | with_reducible apply C.wr | (unfold ReactKey; decide)

theorem Reactive.updStart {P : State → Prop} (C : Reactive P) {s : State} (p : Nat) (cxl : Bool) (len : Nat) (hP : P s) :
    P (State.updStart s p cxl len).1 := by
  unfold State.updStart
  repeat' first
    | with_reducible assumption | with_reducible apply pres_ite | with_reducible apply C.setBankPkg
    | with_reducible apply C.dropStaging | with_reducible apply C.keepLock | with_reducible apply C.wr
    | with_reducible apply pres_ite_fst | with_reducible refine C.parts (fun h => h) (Or.inl rfl) ?_
    | (unfold ReactKey; decide)

theorem Reactive.updEnd {P : State → Prop} (C : Reactive P) {s : State} (p : Nat) (cxl : Bool) (hP : P s) :
    P (State.updEnd s p cxl).1 := by
  unfold State.updEnd
  repeat' first
    | with_reducible assumption | with_reducible apply pres_ite | with_reducible apply C.keepLock
    | with_reducible apply C.wr | with_reducible apply pres_ite_fst | (unfold ReactKey; decide)

theorem Reactive.updAbort {P : State → Prop} (C : Reactive P) {s : State} (p : Nat) (cxl : Bool) (hP : P s) :
    P (State.updAbort s p cxl).1 := by
  unfold State.updAbort
  repeat' first
    | with_reducible assumption | with_reducible apply pres_ite | with_reducible apply C.fallback
    | with_reducible apply C.dropStaging | with_reducible apply C.freeLock | with_reducible apply C.wr
    | with_reducible apply pres_ite_fst | (unfold ReactKey; decide)

theorem Reactive.rejectPackage {P : State → Prop} (C : Reactive P) {s : State} (code mix : Nat) (hP : P s) :
    P (State.rejectPackage s code mix) := by
  unfold State.rejectPackage
  repeat' first
    | with_reducible assumption | with_reducible apply C.detect | with_reducible apply C.dropStaging
    | with_reducible apply C.freeLock | with_reducible apply C.wr | (unfold ReactKey; decide)

theorem Reactive.activate {P : State → Prop} (C : Reactive P) {s : State} (p : Nat) (cxl : Bool) (hP : P s) :
    P (State.activate s p cxl).1 := by
  unfold State.activate
  repeat' first
    | with_reducible assumption | with_reducible apply pres_ite | with_reducible apply C.nextHandover
    | with_reducible apply C.rejectPackage | with_reducible apply C.wr | with_reducible apply pres_ite_fst | split
    | with_reducible refine C.parts (fun h => h) (Or.inl rfl) ?_ | intro _ | (unfold ReactKey; decide)

theorem Reactive.updStatus {P : State → Prop} (C : Reactive P) {s : State} (p : Nat) (hP : P s) :
    P (State.updStatus s p) := by
  unfold State.updStatus
  repeat' first
    | with_reducible assumption | with_reducible apply pres_cond | with_reducible apply C.reply
    | with_reducible apply C.keepLock | intro _

theorem Reactive.lockExpired {P : State → Prop} (C : Reactive P) {s : State}  (hP : P s) :
    P (State.lockExpired s) := by
  unfold State.lockExpired
  repeat' first
    | with_reducible assumption | with_reducible apply pres_ite | with_reducible apply C.detect
    | with_reducible apply C.dropStaging | with_reducible apply C.freeLock | with_reducible apply C.wr
    | (unfold ReactKey; decide)

end Sys2Proof.Machine
end

