-- ==== Sys2Proof/Laws/Reactive/Boot.lean ====
section
/-!
SUPPORT. Laws/Reactive/Boot.lean: more operations of Machine/Boot.lean that change only what a reaction can change
(Laws/Reactive.lean).
-/

namespace Sys2Proof.Machine

set_option Elab.async false
set_option linter.unusedTactic false
set_option linter.unreachableTactic false

theorem Reactive.saveRails {P : State → Prop} (C : Reactive P) {s : State}  (hP : P s) :
    P (State.saveRails s) := by
  unfold State.saveRails
  repeat' first
    | with_reducible assumption | with_reducible apply pres_ite | with_reducible apply pres_foldl
    | with_reducible refine C.parts (fun h => h) (Or.inl rfl) ?_ | intro _

theorem Reactive.bootRefs {P : State → Prop} (C : Reactive P) {s : State} (calOk : Bool) (hP : P s) :
    P (State.bootRefs s calOk) := by
  unfold State.bootRefs
  repeat' first
    | with_reducible assumption | with_reducible apply pres_cond | with_reducible apply C.detect
    | with_reducible apply C.wr | split | with_reducible refine C.parts (fun h => h) (Or.inl rfl) ?_ | intro _
    | (unfold ReactKey; decide)

theorem Reactive.bootB9 {P : State → Prop} (C : Reactive P) {s : State}  (hP : P s) :
    P (State.bootB9 s) := by
  unfold State.bootB9
  repeat' first
    | with_reducible assumption | with_reducible apply pres_ite | with_reducible apply C.wr | split
    | with_reducible refine C.parts (fun h => h) (Or.inl rfl) ?_ | (unfold ReactKey; decide)

theorem Reactive.defaultSlices {P : State → Prop} (C : Reactive P) {s : State}  (hP : P s) :
    P (State.defaultSlices s) := by
  unfold State.defaultSlices
  repeat' first
    | with_reducible assumption | with_reducible apply pres_cond | with_reducible apply pres_each
    | with_reducible apply C.wr | intro _ | (unfold ReactKey; decide)
    | (simp only [ReactKey, Fld.key, R.HP_SLICE_BASE, R.HP_SLICE_SIZE]; omega)

theorem Reactive.listLost {P : State → Prop} (C : Reactive P) {s : State}  (hP : P s) :
    P (State.listLost s) := by
  unfold State.listLost
  repeat' first
    | with_reducible assumption | with_reducible apply pres_foldl | with_reducible apply C.listPoison | intro _

end Sys2Proof.Machine
end

