-- ==== Sys2Proof/Laws/Reactive/Steep.lean ====
section
/-!
SUPPORT. Laws/Reactive/Steep.lean: more operations of Machine/Steep.lean that change only what a reaction can change
(Laws/Reactive.lean).
-/

namespace Sys2Proof.Machine

set_option Elab.async false
set_option linter.unusedTactic false
set_option linter.unreachableTactic false

theorem Reactive.bulkBegin {P : State → Prop} (C : Reactive P) {s : State}  (hP : P s) :
    P (State.bulkBegin s) := by
  unfold State.bulkBegin
  repeat' first
    | with_reducible assumption | with_reducible apply pres_ite | with_reducible apply C.wr | (unfold ReactKey; decide)

theorem Reactive.bulkDelay {P : State → Prop} (C : Reactive P) {s : State}  (hP : P s) :
    P (State.bulkDelay s) := by
  unfold State.bulkDelay
  repeat' first
    | with_reducible assumption | with_reducible apply pres_ite | with_reducible apply C.bulkBegin
    | with_reducible refine C.parts (fun h => h) (Or.inl rfl) ?_

theorem Reactive.fillLatency {P : State → Prop} (C : Reactive P) {s : State} (us : Nat) (hP : P s) :
    P (State.fillLatency s us) := by
  unfold State.fillLatency
  repeat' first
    | with_reducible assumption | with_reducible apply C.bump | with_reducible apply C.wr
    | with_reducible refine C.parts (fun h => h) (Or.inl rfl) ?_ | (unfold ReactKey; decide)

theorem Reactive.waitSlot {P : State → Prop} (C : Reactive P) {s : State} (w : SlotWait) (hP : P s) :
    P (State.waitSlot s w) := by
  unfold State.waitSlot
  repeat' first
    | with_reducible assumption | with_reducible apply pres_ite | with_reducible apply C.inc
    | with_reducible apply C.detect | with_reducible refine C.parts (fun h => h) (Or.inl rfl) ?_ | intro _
    | (unfold ReactKey; decide)

theorem Reactive.ceiling {P : State → Prop} (C : Reactive P) {s : State} (port tag : Nat) (hP : P s) :
    P (State.ceiling s port tag) := by
  unfold State.ceiling
  repeat' first
    | with_reducible assumption | with_reducible apply pres_cond | with_reducible apply pres_ite
    | with_reducible apply C.inc | with_reducible apply C.detect | with_reducible apply C.respond
    | with_reducible refine C.parts (fun h => h) (Or.inl rfl) ?_ | intro _ | (unfold ReactKey; decide)

theorem Reactive.bulkTake {P : State → Prop} (C : Reactive P) {s : State}  (hP : P s) :
    P (State.bulkTake s) := by
  unfold State.bulkTake
  repeat' first
    | with_reducible assumption | with_reducible apply pres_ite
    | with_reducible refine C.parts (fun h => h) (Or.inl rfl) ?_ | intro _

theorem Reactive.bulkRate {P : State → Prop} (C : Reactive P) {s : State}  (hP : P s) :
    P (State.bulkRate s) := by
  unfold State.bulkRate
  repeat' first
    | with_reducible assumption | with_reducible apply C.wr | split
    | with_reducible refine C.parts (fun h => h) (Or.inl rfl) ?_ | intro _ | (unfold ReactKey; decide)

end Sys2Proof.Machine
end

