-- ==== Sys2Proof/Laws/Reactive/Queues.lean ====
section
/-!
SUPPORT. Laws/Reactive/Queues.lean: more operations of Machine/Queues.lean that change only what a reaction can change
(Laws/Reactive.lean).
-/

namespace Sys2Proof.Machine

set_option Elab.async false
set_option linter.unusedTactic false
set_option linter.unreachableTactic false

theorem Reactive.byOwner {P : State → Prop} (C : Reactive P) {s : State} (p q : Nat) (f : State → State) (hf : ∀ t, P t → P (f t)) (hP : P s) :
    P (State.byOwner s p q f) := by
  unfold State.byOwner
  repeat' first
    | with_reducible assumption | with_reducible apply pres_ite | with_reducible apply C.reject
    | with_reducible apply C.restExit | with_reducible apply hf | intro _

theorem Reactive.badDoorbell {P : State → Prop} (C : Reactive P) {s : State} (q : Nat) (hP : P s) :
    P (State.badDoorbell s q) := by
  unfold State.badDoorbell
  repeat' first
    | with_reducible assumption | with_reducible apply C.detect | with_reducible apply C.faultQueue

theorem Reactive.sqTail {P : State → Prop} (C : Reactive P) {s : State} (q tail : Nat) (hP : P s) :
    P (State.sqTail s q tail) := by
  unfold State.sqTail
  repeat' first
    | with_reducible assumption | with_reducible apply pres_ite | with_reducible apply C.setQueue
    | with_reducible apply C.badDoorbell | with_reducible refine C.parts (fun h => h) (Or.inl rfl) ?_

theorem Reactive.postRecord {P : State → Prop} (C : Reactive P) {s : State} (q : Nat) (hP : P s) :
    P (State.postRecord s q) := by
  unfold State.postRecord
  repeat' first
    | with_reducible assumption | with_reducible apply pres_ite | with_reducible apply C.setQueue
    | with_reducible apply C.postCompletion | split | with_reducible refine C.parts (fun h => h) (Or.inl rfl) ?_

theorem Reactive.dropRecord {P : State → Prop} (C : Reactive P) {s : State} (q : Nat) (hP : P s) :
    P (State.dropRecord s q) := by
  unfold State.dropRecord
  repeat' first
    | with_reducible assumption | with_reducible apply C.setQueue | with_reducible apply C.showQueues
    | with_reducible refine C.parts (fun h => h) (Or.inl rfl) ?_

theorem Reactive.fetchDesc {P : State → Prop} (C : Reactive P) {s : State} (d : Desc) (hP : P s) :
    P (State.fetchDesc s d) := by
  unfold State.fetchDesc
  repeat' first
    | with_reducible assumption | with_reducible apply pres_ite | with_reducible apply C.setQueue
    | with_reducible apply C.useContext | with_reducible apply C.served | with_reducible apply C.startQueue | split
    | with_reducible refine C.parts (fun h => h) (Or.inl rfl) ?_

theorem Reactive.dmaFails {P : State → Prop} (C : Reactive P) {s : State} (q kind : Nat) (hP : P s) :
    P (State.dmaFails s q kind) := by
  unfold State.dmaFails
  repeat' first
    | with_reducible assumption | with_reducible apply pres_ite | with_reducible apply C.detect
    | with_reducible apply C.faultQueue

theorem Reactive.advance {P : State → Prop} (C : Reactive P) {s : State} (q : Nat) (k : RunCmd) (d : Desc) (upTo n : Nat) (hP : P s) :
    P (State.advance s q k d upTo n) := by
  unfold State.advance
  repeat' first
    | with_reducible assumption | with_reducible apply pres_ite | with_reducible apply C.setCmd
    | with_reducible refine C.parts (fun h => h) (Or.inl rfl) ?_

theorem Reactive.holdDst {P : State → Prop} (C : Reactive P) {s : State} (g : Nat) (hP : P s) :
    P (State.holdDst s g) := by
  unfold State.holdDst
  repeat' first
    | with_reducible assumption | with_reducible apply pres_cond | with_reducible apply C.inc
    | with_reducible apply C.detect | with_reducible apply C.raiseFill | intro _ | (unfold ReactKey; decide)

theorem Reactive.hintRegion {P : State → Prop} (C : Reactive P) {s : State} (r : Nat) (hP : P s) :
    P (State.hintRegion s r).1 := by
  unfold State.hintRegion
  repeat' first
    | with_reducible assumption | with_reducible apply pres_ite | with_reducible apply C.inc
    | with_reducible apply C.detect | with_reducible apply C.wr | with_reducible apply pres_ite_fst
    | with_reducible refine C.parts (fun h => h) (Or.inl rfl) ?_ | (unfold ReactKey; decide)

theorem Reactive.fenceStats {P : State → Prop} (C : Reactive P) {s : State} (st us : Nat) (hP : P s) :
    P (State.fenceStats s st us) := by
  unfold State.fenceStats
  repeat' first
    | with_reducible assumption | with_reducible apply pres_cond | with_reducible apply C.inc
    | with_reducible apply C.detect | with_reducible apply C.wr
    | with_reducible refine C.parts (fun h => h) (Or.inl rfl) ?_ | intro _ | (unfold ReactKey; decide)

theorem Reactive.commandDone {P : State → Prop} (C : Reactive P) {s : State} (q cid us : Nat) (hP : P s) :
    P (State.commandDone s q cid us) := by
  unfold State.commandDone
  repeat' first
    | with_reducible assumption | with_reducible apply pres_cond | with_reducible apply pres_ite
    | with_reducible apply C.complete | with_reducible apply C.fenceStats | split
    | with_reducible refine C.parts (fun h => h) (Or.inl rfl) ?_ | intro _

theorem Reactive.coalesce {P : State → Prop} (C : Reactive P) {s : State} (port vec : Nat) (hP : P s) :
    P (State.coalesce s port vec) := by
  unfold State.coalesce
  repeat' first
    | with_reducible assumption | with_reducible apply pres_ite | with_reducible apply C.msix
    | with_reducible refine C.parts (fun h => h) (Or.inl rfl) ?_

theorem Reactive.chainLate {P : State → Prop} (C : Reactive P) {s : State} (q : Nat) (hP : P s) :
    P (State.chainLate s q) := by
  unfold State.chainLate
  repeat' first
    | with_reducible assumption | with_reducible apply pres_ite | with_reducible apply C.setQueue
    | with_reducible apply C.sqTail | with_reducible refine C.parts (fun h => h) (Or.inl rfl) ?_ | intro _

end Sys2Proof.Machine
end

