-- ==== Sys2Proof/Laws/Reactive/Racking.lean ====
section
/-!
SUPPORT. Laws/Reactive/Racking.lean: more operations of Machine/Racking.lean that change only what a reaction can change
(Laws/Reactive.lean).
-/

namespace Sys2Proof.Machine

set_option Elab.async false
set_option linter.unusedTactic false
set_option linter.unreachableTactic false

theorem Reactive.rackFills {P : State → Prop} (C : Reactive P) {s : State} (left : RSet) (hP : P s) :
    P (State.rackFills s left) := by
  unfold State.rackFills
  repeat' first
    | with_reducible assumption | with_reducible apply pres_cond | with_reducible apply pres_foldl
    | with_reducible apply C.raiseFill | intro _

theorem Reactive.passRegion {P : State → Prop} (C : Reactive P) {s : State} (t r : Nat) (hP : P s) :
    P (State.passRegion s t r) := by
  unfold State.passRegion
  repeat' first
    | with_reducible assumption | with_reducible apply pres_ite
    | with_reducible refine C.parts (fun h => h) (Or.inl rfl) ?_

theorem Reactive.sendAgain {P : State → Prop} (C : Reactive P) {s : State} (e : Send) (late : Bool) (hP : P s) :
    P (State.sendAgain s e late) := by
  unfold State.sendAgain
  repeat' first
    | with_reducible assumption | with_reducible apply pres_ite | with_reducible apply C.inc
    | with_reducible apply C.detect | with_reducible apply C.setSends | with_reducible apply C.wr
    | with_reducible refine C.parts (fun h => h) (Or.inl rfl) ?_ | intro _ | (unfold ReactKey; decide)
    | (simp only [ReactKey, Fld.key, R.RCK_RESENT]; omega)

theorem Reactive.ackLate {P : State → Prop} (C : Reactive P) {s : State} (t r : Nat) (hP : P s) :
    P (State.ackLate s t r) := by
  unfold State.ackLate
  repeat' first
    | with_reducible assumption | with_reducible apply pres_ite | with_reducible apply C.suspend
    | with_reducible apply C.sendAgain | split | with_reducible refine C.parts (fun h => h) (Or.inl rfl) ?_

theorem Reactive.ackRx {P : State → Prop} (C : Reactive P) {s : State} (t h r st : Nat) (hP : P s) :
    P (State.ackRx s t h r st) := by
  unfold State.ackRx
  repeat' first
    | with_reducible assumption | with_reducible apply pres_cond | with_reducible apply pres_ite
    | with_reducible apply C.inc | with_reducible apply C.setDebt | with_reducible apply C.setSends
    | with_reducible apply C.rackAcked | with_reducible apply C.refuse | with_reducible apply C.sendAgain
    | with_reducible apply C.wr | split | with_reducible refine C.parts (fun h => h) (Or.inl rfl) ?_ | intro _
    | (unfold ReactKey; decide) | (simp only [ReactKey, Fld.key, R.RCK_ACKED, R.RCK_TGT_STAT_REPLY]; omega)

theorem Reactive.openRetry {P : State → Prop} (C : Reactive P) {s : State} (t : Nat) (hP : P s) :
    P (State.openRetry s t) := by
  unfold State.openRetry
  repeat' first
    | with_reducible assumption | with_reducible apply pres_ite | with_reducible apply C.sendOpen
    | with_reducible apply C.openTarget

theorem Reactive.replyRx {P : State → Prop} (C : Reactive P) {s : State} (t st gen : Nat) (hP : P s) :
    P (State.replyRx s t st gen) := by
  unfold State.replyRx
  repeat' first
    | with_reducible assumption | with_reducible apply pres_ite | with_reducible apply C.refuse
    | with_reducible apply C.advanceGen | with_reducible apply C.sendOpen | with_reducible apply C.wr | split
    | with_reducible refine C.parts (fun h => h) (Or.inl rfl) ?_ | (unfold ReactKey; decide)
    | (simp only [ReactKey, Fld.key, R.RCK_TGT_STAT_REPLY, R.RCK_TGT_STAT_STATE]; omega)

theorem Reactive.releasedRx {P : State → Prop} (C : Reactive P) {s : State} (t : Nat) (hP : P s) :
    P (State.releasedRx s t) := by
  unfold State.releasedRx
  repeat' first
    | with_reducible assumption | with_reducible apply pres_ite | with_reducible apply C.abandonSends
    | with_reducible apply C.openTarget | with_reducible refine C.parts (fun h => h) (Or.inl rfl) ?_

theorem Reactive.lostRx {P : State → Prop} (C : Reactive P) {s : State} (t : Nat) (l : List Nat) (hP : P s) :
    P (State.lostRx s t l) := by
  unfold State.lostRx
  repeat' first
    | with_reducible assumption | with_reducible apply pres_foldl | with_reducible apply C.setDebt
    | with_reducible apply C.rackSettle | intro _

theorem Reactive.guestDrop {P : State → Prop} (C : Reactive P) {s : State}  (hP : P s) :
    P (State.guestDrop s) := by
  unfold State.guestDrop
  repeat' first
    | with_reducible assumption | with_reducible apply C.inc | with_reducible apply C.detect | (unfold ReactKey; decide)

theorem Reactive.answerOpen {P : State → Prop} (C : Reactive P) {s : State} (owner st slot gen committed : Nat) (hP : P s) :
    P (State.answerOpen s owner st slot gen committed) := by
  unfold State.answerOpen
  repeat' first
    | with_reducible assumption | with_reducible apply C.rackTo

theorem Reactive.openRx {P : State → Prop} (C : Reactive P) {s : State} (src owner gen size count : Nat) (hP : P s) :
    P (State.openRx s src owner gen size count) := by
  unfold State.openRx
  repeat' first
    | with_reducible assumption | with_reducible apply pres_cond | with_reducible apply pres_ite
    | with_reducible apply C.putGuest | with_reducible apply C.guestKeep | with_reducible apply C.guestDrop
    | with_reducible apply C.answerOpen | split | with_reducible refine C.parts (fun h => h) (Or.inl rfl) ?_ | intro _

theorem Reactive.rangesRx {P : State → Prop} (C : Reactive P) {s : State} (src first : Nat) (l : List (Nat × Nat)) (hP : P s) :
    P (State.rangesRx s src first l) := by
  unfold State.rangesRx
  repeat' first
    | with_reducible assumption | with_reducible apply pres_ite | with_reducible apply C.putGuest
    | with_reducible apply C.guestKeep | with_reducible apply C.guestDrop | split
    | with_reducible refine C.parts (fun h => h) (Or.inl rfl) ?_

theorem Reactive.ackTo {P : State → Prop} (C : Reactive P) {s : State} (owner h region st : Nat) (hP : P s) :
    P (State.ackTo s owner h region st) := by
  unfold State.ackTo
  repeat' first
    | with_reducible assumption | with_reducible apply C.rackTo

theorem Reactive.beginRx {P : State → Prop} (C : Reactive P) {s : State} (src h gen region : Nat) (drop : Bool) (hP : P s) :
    P (State.beginRx s src h gen region drop) := by
  unfold State.beginRx
  repeat' first
    | with_reducible assumption | with_reducible apply pres_ite | with_reducible apply C.guestDrop
    | with_reducible apply C.ackTo | split | with_reducible refine C.parts (fun h => h) (Or.inl rfl) ?_ | intro _

theorem Reactive.recvWith {P : State → Prop} (C : Reactive P) {s : State} (src h : Nat) (f : Recv → Recv) (hP : P s) :
    P (State.recvWith s src h f) := by
  unfold State.recvWith
  repeat' first
    | with_reducible assumption | with_reducible apply pres_ite | with_reducible apply C.guestDrop | split
    | with_reducible refine C.parts (fun h => h) (Or.inl rfl) ?_ | intro _

theorem Reactive.dataRx {P : State → Prop} (C : Reactive P) {s : State} (src h off part : Nat) (data : Memory) (hP : P s) :
    P (State.dataRx s src h off part data) := by
  unfold State.dataRx
  repeat' first
    | with_reducible assumption | with_reducible apply pres_ite | with_reducible apply C.recvWith
    | with_reducible refine C.parts (fun h => h) (Or.inl rfl) ?_ | intro _

theorem Reactive.poisonRx {P : State → Prop} (C : Reactive P) {s : State} (src h off : Nat) (m : LineMask) (hP : P s) :
    P (State.poisonRx s src h off m) := by
  unfold State.poisonRx
  repeat' first
    | with_reducible assumption | with_reducible apply C.recvWith
    | with_reducible refine C.parts (fun h => h) (Or.inl rfl) ?_ | intro _

theorem Reactive.endRx {P : State → Prop} (C : Reactive P) {s : State} (src h nData nPoison crc : Nat) (hP : P s) :
    P (State.endRx s src h nData nPoison crc) := by
  unfold State.endRx
  repeat' first
    | with_reducible assumption | with_reducible apply pres_ite | with_reducible apply C.guestDrop
    | with_reducible apply C.ackTo | with_reducible apply C.recvWith | split
    | with_reducible refine C.parts (fun h => h) (Or.inl rfl) ?_ | intro _

theorem Reactive.releaseRx {P : State → Prop} (C : Reactive P) {s : State} (src owner gen : Nat) (hP : P s) :
    P (State.releaseRx s src owner gen) := by
  unfold State.releaseRx
  repeat' first
    | with_reducible assumption | with_reducible apply pres_cond | with_reducible apply pres_ite
    | with_reducible apply C.dropGuest | with_reducible apply C.releasedRx | with_reducible apply C.guestDrop | split
    | with_reducible refine C.parts (fun h => h) (Or.inl rfl) ?_ | intro _

theorem Reactive.guestRelease {P : State → Prop} (C : Reactive P) {s : State} (who : Requester) (hP : P s) :
    P (State.guestRelease s who) := by
  unfold State.guestRelease
  repeat' first
    | with_reducible assumption | with_reducible apply pres_ite | with_reducible apply C.detect
    | with_reducible apply C.reject | with_reducible apply C.rackTo | with_reducible apply C.dropGuest
    | with_reducible apply C.under | split | with_reducible refine C.parts (fun h => h) (Or.inl rfl) ?_ | intro _

end Sys2Proof.Machine
end

