-- ==== Sys2Proof/Laws/Reactive/Fabric.lean ====
section
/-!
SUPPORT. Laws/Reactive/Fabric.lean: more operations of Machine/Fabric.lean that change only what a reaction can change
(Laws/Reactive.lean).
-/

namespace Sys2Proof.Machine

set_option Elab.async false
set_option linter.unusedTactic false
set_option linter.unreachableTactic false

theorem Reactive.onPort {P : State → Prop} (C : Reactive P) {s : State} (n : Nat) (f : State → State) (hf : ∀ t, P t → P (f t)) (hP : P s) :
    P (State.onPort s n f) := by
  unfold State.onPort
  repeat' first
    | with_reducible assumption | with_reducible apply pres_ite | with_reducible apply hf | intro _

theorem Reactive.exchange {P : State → Prop} (C : Reactive P) {s : State} (n : Nat) (hP : P s) :
    P (State.exchange s n) := by
  unfold State.exchange
  repeat' first
    | with_reducible assumption | with_reducible apply pres_cond | with_reducible apply pres_ite
    | with_reducible apply pres_foldl | with_reducible apply C.sendOn | intro _

theorem Reactive.mayTrain {P : State → Prop} (C : Reactive P) {s : State} (n : Nat) (hP : P s) :
    P (State.mayTrain s n) := by
  unfold State.mayTrain
  repeat' first
    | with_reducible assumption | with_reducible apply pres_cond | with_reducible apply C.wr | intro _
    | (unfold ReactKey; decide) | (simp only [ReactKey, Fld.key, R.DLP_STAT_STATE]; omega)

theorem Reactive.helloRx {P : State → Prop} (C : Reactive P) {s : State} (n : Nat) (eui fnn port : Nat) (hr : Bool) (power : Nat) (hP : P s) :
    P (State.helloRx s n eui fnn port hr power) := by
  unfold State.helloRx
  repeat' first
    | with_reducible assumption | with_reducible apply pres_cond | with_reducible apply pres_ite
    | with_reducible apply C.setDport | with_reducible apply C.adjacency | with_reducible apply C.portFall
    | with_reducible apply C.exchange | with_reducible apply C.mayTrain | with_reducible apply C.wr
    | with_reducible refine C.parts (fun h => h) (Or.inl rfl) ?_ | intro _ | (unfold ReactKey; decide)
    | (simp only [ReactKey, Fld.key, R.DLP_NBR, R.DLP_NBR_FNN, R.DLP_NBR_PORT, R.DLP_NBR_PSTATE, R.DLP_STAT_STATE]; omega)

theorem Reactive.checked {P : State → Prop} (C : Reactive P) {s : State} (n : Nat) (p : Packet) (f : State → State) (hf : ∀ t, P t → P (f t)) (hP : P s) :
    P (State.checked s n p f) := by
  unfold State.checked
  repeat' first
    | with_reducible assumption | with_reducible apply pres_ite | with_reducible apply C.inc | with_reducible apply hf
    | intro _ | (unfold ReactKey; decide) | (simp only [ReactKey, Fld.key, R.DLP_CRC_ERR]; omega)

theorem Reactive.helloIn {P : State → Prop} (C : Reactive P) {s : State} (n : Nat) (p : Packet) (hP : P s) :
    P (State.helloIn s n p) := by
  unfold State.helloIn
  repeat' first
    | with_reducible assumption | with_reducible apply C.helloRx | with_reducible apply C.checked | split
    | with_reducible refine C.parts (fun h => h) (Or.inl rfl) ?_ | intro _

theorem Reactive.hellosMissed {P : State → Prop} (C : Reactive P) {s : State} (n : Nat) (hP : P s) :
    P (State.hellosMissed s n) := by
  unfold State.hellosMissed
  repeat' first
    | with_reducible assumption | with_reducible apply pres_cond | with_reducible apply C.addSat
    | with_reducible apply C.portFall | intro _ | (unfold ReactKey; decide)
    | (simp only [ReactKey, Fld.key, R.DLP_HELLO]; omega)

theorem Reactive.showLanes {P : State → Prop} (C : Reactive P) {s : State} (n lanes : Nat) (hP : P s) :
    P (State.showLanes s n lanes) := by
  unfold State.showLanes
  repeat' first
    | with_reducible assumption | with_reducible apply pres_cond | with_reducible apply C.detect
    | with_reducible apply C.wr | intro _ | (unfold ReactKey; decide)
    | (simp only [ReactKey, Fld.key, R.DLP_COST, R.DLP_STAT_LANES]; omega)

theorem Reactive.replay {P : State → Prop} (C : Reactive P) {s : State} (n pl : Nat) (hP : P s) :
    P (State.replay s n pl) := by
  unfold State.replay
  repeat' first
    | with_reducible assumption | with_reducible apply pres_foldl | with_reducible apply C.addSat
    | with_reducible apply C.send | intro _ | (unfold ReactKey; decide)
    | (simp only [ReactKey, Fld.key, R.DLP_RETRIES]; omega)

theorem Reactive.trainLate {P : State → Prop} (C : Reactive P) {s : State} (n : Nat) (hP : P s) :
    P (State.trainLate s n) := by
  unfold State.trainLate
  repeat' first
    | with_reducible assumption | with_reducible apply pres_ite | with_reducible apply C.inc
    | with_reducible apply C.setDport | with_reducible apply C.wr
    | with_reducible refine C.parts (fun h => h) (Or.inl rfl) ?_ | (unfold ReactKey; decide)
    | (simp only [ReactKey, Fld.key, R.DLP_STAT_RETRAINS, R.DLP_STAT_STATE]; omega)

theorem Reactive.trainRetry {P : State → Prop} (C : Reactive P) {s : State} (n : Nat) (hP : P s) :
    P (State.trainRetry s n) := by
  unfold State.trainRetry
  repeat' first
    | with_reducible assumption | with_reducible apply pres_cond | with_reducible apply C.setDport
    | with_reducible apply C.mayTrain | with_reducible refine C.parts (fun h => h) (Or.inl rfl) ?_ | intro _

theorem Reactive.frameIn {P : State → Prop} (C : Reactive P) {s : State} (n pl seq : Nat) (crcOk : Bool) (hP : P s) :
    P (State.frameIn s n pl seq crcOk) := by
  unfold State.frameIn
  repeat' first
    | with_reducible assumption | with_reducible apply pres_ite | with_reducible apply C.inc
    | with_reducible apply C.send | with_reducible apply C.setPlane
    | with_reducible refine C.parts (fun h => h) (Or.inl rfl) ?_ | (unfold ReactKey; decide)
    | (simp only [ReactKey, Fld.key, R.DLP_CRC_ERR]; omega)

theorem Reactive.ackIn {P : State → Prop} (C : Reactive P) {s : State} (n pl seq : Nat) (hP : P s) :
    P (State.ackIn s n pl seq) := by
  unfold State.ackIn
  repeat' first
    | with_reducible assumption | with_reducible apply pres_ite | with_reducible apply C.setPlane
    | with_reducible apply C.pump | with_reducible refine C.parts (fun h => h) (Or.inl rfl) ?_

theorem Reactive.nakIn {P : State → Prop} (C : Reactive P) {s : State} (n pl seq : Nat) (hP : P s) :
    P (State.nakIn s n pl seq) := by
  unfold State.nakIn
  repeat' first
    | with_reducible assumption | with_reducible apply pres_ite | with_reducible apply C.detect
    | with_reducible apply C.setDport | with_reducible apply C.setPlane | with_reducible apply C.replay
    | with_reducible refine C.parts (fun h => h) (Or.inl rfl) ?_ | intro _

theorem Reactive.linkFrame {P : State → Prop} (C : Reactive P) {s : State} (n pl kind seq : Nat) (crcOk : Bool) (hP : P s) :
    P (State.linkFrame s n pl kind seq crcOk) := by
  unfold State.linkFrame
  repeat' first
    | with_reducible assumption | with_reducible apply pres_cond | with_reducible apply pres_ite
    | with_reducible apply C.frameIn | with_reducible apply C.ackIn | with_reducible apply C.nakIn | split
    | with_reducible refine C.parts (fun h => h) (Or.inl rfl) ?_ | intro _

theorem Reactive.replayLate {P : State → Prop} (C : Reactive P) {s : State} (n : Nat) (hP : P s) :
    P (State.replayLate s n) := by
  unfold State.replayLate
  repeat' first
    | with_reducible assumption | with_reducible apply pres_cond | with_reducible apply C.portFall | intro _

theorem Reactive.firstClaim {P : State → Prop} (C : Reactive P) {s : State}  (hP : P s) :
    P (State.firstClaim s) := by
  unfold State.firstClaim
  repeat' first
    | with_reducible assumption | with_reducible apply pres_cond | with_reducible apply C.claim | intro _

theorem Reactive.claimEnd {P : State → Prop} (C : Reactive P) {s : State}  (hP : P s) :
    P (State.claimEnd s) := by
  unfold State.claimEnd
  repeat' first
    | with_reducible assumption | with_reducible apply pres_ite | with_reducible apply C.adjacency
    | with_reducible apply C.firstClaim | with_reducible apply C.wr
    | with_reducible refine C.parts (fun h => h) (Or.inl rfl) ?_ | (unfold ReactKey; decide)

theorem Reactive.showDb {P : State → Prop} (C : Reactive P) {s : State}  (hP : P s) :
    P (State.showDb s) := by
  unfold State.showDb
  repeat' first
    | with_reducible assumption | with_reducible apply C.wr | (unfold ReactKey; decide)

theorem Reactive.lsaIn {P : State → Prop} (C : Reactive P) {s : State} (a : Lsa) (hP : P s) :
    P (State.lsaIn s a).1 := by
  unfold State.lsaIn
  repeat' first
    | with_reducible assumption | with_reducible apply pres_cond | with_reducible apply pres_ite
    | with_reducible apply C.detect | with_reducible apply C.loseFnn | with_reducible apply C.showDb
    | with_reducible apply pres_ite_fst | with_reducible refine C.parts (fun h => h) (Or.inl rfl) ?_ | intro _

theorem Reactive.dbxIn {P : State → Prop} (C : Reactive P) {s : State} (n : Nat) (a : Lsa) (hP : P s) :
    P (State.dbxIn s n a) := by
  unfold State.dbxIn
  repeat' first
    | with_reducible assumption | with_reducible apply pres_cond | with_reducible apply C.floodOut
    | with_reducible apply C.remember | with_reducible apply C.firstClaim | with_reducible apply C.lsaIn
    | with_reducible refine C.parts (fun h => h) (Or.inl rfl) ?_ | intro _

theorem Reactive.lsaAge {P : State → Prop} (C : Reactive P) {s : State} (eui : Nat) (hP : P s) :
    P (State.lsaAge s eui) := by
  unfold State.lsaAge
  repeat' first
    | with_reducible assumption | with_reducible apply pres_cond | with_reducible apply pres_ite
    | with_reducible apply C.claim | with_reducible apply C.showDb
    | with_reducible refine C.parts (fun h => h) (Or.inl rfl) ?_ | intro _

theorem Reactive.showRoute {P : State → Prop} (C : Reactive P) {s : State}  (hP : P s) :
    P (State.showRoute s) := by
  unfold State.showRoute
  repeat' first
    | with_reducible assumption | with_reducible apply C.wr | intro _ | (unfold ReactKey; decide)
    | (simp only [ReactKey, Fld.key, R.DFS_ROUTE_E_COST, R.DFS_ROUTE_E_HOPS, R.DFS_ROUTE_E_PORTS, R.DFS_ROUTE_E_VALID]; omega)

theorem Reactive.showColl {P : State → Prop} (C : Reactive P) {s : State}  (hP : P s) :
    P (State.showColl s) := by
  unfold State.showColl
  repeat' first
    | with_reducible assumption | with_reducible apply pres_each | with_reducible apply C.setBit | intro _
    | (unfold ReactKey; decide)

theorem Reactive.install {P : State → Prop} (C : Reactive P) {s : State} (ms : Nat) (hP : P s) :
    P (State.install s ms) := by
  unfold State.install
  repeat' first
    | with_reducible assumption | with_reducible apply pres_cond | with_reducible apply pres_ite
    | with_reducible apply C.inc | with_reducible apply C.detect | with_reducible apply C.followRoutes
    | with_reducible apply C.guestsFollow | with_reducible apply C.showRoute | with_reducible apply C.showColl
    | with_reducible apply C.wr | with_reducible refine C.parts (fun h => h) (Or.inl rfl) ?_ | intro _
    | (unfold ReactKey; decide)

theorem Reactive.toCollector {P : State → Prop} (C : Reactive P) {s : State} (kind n : Nat) (hP : P s) :
    P (State.toCollector s kind n) := by
  unfold State.toCollector
  repeat' first
    | with_reducible assumption | with_reducible apply pres_ite | with_reducible apply C.inc
    | with_reducible apply C.detect | with_reducible apply C.unicast | split
    | with_reducible refine C.parts (fun h => h) (Or.inl rfl) ?_ | intro _ | (unfold ReactKey; decide)
    | (simp only [ReactKey, Fld.key, R.DFS_COLL_DROP]; omega)

theorem Reactive.sendSummary {P : State → Prop} (C : Reactive P) {s : State} (kind : Nat) (hP : P s) :
    P (State.sendSummary s kind) := by
  unfold State.sendSummary
  repeat' first
    | with_reducible assumption | with_reducible apply pres_ite | with_reducible apply pres_each
    | with_reducible apply pres_foldl | with_reducible apply C.toCollector
    | with_reducible refine C.parts (fun h => h) (Or.inl rfl) ?_ | intro _

theorem Reactive.kilnIn {P : State → Prop} (C : Reactive P) {s : State} (group trig : Nat) (hP : P s) :
    P (State.kilnIn s group trig) := by
  unfold State.kilnIn
  repeat' first
    | with_reducible assumption | with_reducible apply pres_ite | with_reducible apply C.inc
    | with_reducible apply C.detect | with_reducible apply C.tlog | with_reducible apply C.fireTrigger
    | with_reducible apply C.prime | split | with_reducible refine C.parts (fun h => h) (Or.inl rfl) ?_
    | (unfold ReactKey; decide)

theorem Reactive.forward {P : State → Prop} (C : Reactive P) {s : State} (n : Nat) (p : Packet) (hP : P s) :
    P (State.forward s n p) := by
  unfold State.forward
  repeat' first
    | with_reducible assumption | with_reducible apply pres_ite | with_reducible apply C.inc
    | with_reducible apply C.unicast | with_reducible refine C.parts (fun h => h) (Or.inl rfl) ?_
    | (unfold ReactKey; decide) | (simp only [ReactKey, Fld.key, R.DLP_DROP2_HOPS, R.DLP_DROP2_NO_ROUTE]; omega)

theorem Reactive.overcurrent {P : State → Prop} (C : Reactive P) {s : State} (n : Nat) (hP : P s) :
    P (State.overcurrent s n) := by
  unfold State.overcurrent
  repeat' first
    | with_reducible assumption | with_reducible apply pres_ite | with_reducible apply C.detect
    | with_reducible apply C.setDport | with_reducible apply C.showFeed
    | with_reducible refine C.parts (fun h => h) (Or.inl rfl) ?_

theorem Reactive.feedRetry {P : State → Prop} (C : Reactive P) {s : State} (n : Nat) (hP : P s) :
    P (State.feedRetry s n) := by
  unfold State.feedRetry
  repeat' first
    | with_reducible assumption | with_reducible apply pres_cond | with_reducible apply C.setDport
    | with_reducible apply C.showFeed | with_reducible refine C.parts (fun h => h) (Or.inl rfl) ?_ | intro _

end Sys2Proof.Machine
end

