-- ==== Sys2Proof/Laws/Reactive/Pack.lean ====
section
/-!
SUPPORT. Laws/Reactive/Pack.lean: more operations of Machine/Pack.lean that change only what a reaction can change
(Laws/Reactive.lean).
-/

namespace Sys2Proof.Machine

set_option Elab.async false
set_option linter.unusedTactic false
set_option linter.unreachableTactic false

theorem Reactive.onPack {P : State → Prop} (C : Reactive P) {s : State} (p : Nat) (f : State → State) (hf : ∀ t, P t → P (f t)) (hP : P s) :
    P (State.onPack s p f) := by
  unfold State.onPack
  repeat' first
    | with_reducible assumption | with_reducible apply pres_ite | with_reducible apply hf | intro _

theorem Reactive.packEvent {P : State → Prop} (C : Reactive P) {s : State} (p k : Nat) (hP : P s) :
    P (State.packEvent s p k) := by
  unfold State.packEvent
  repeat' first
    | with_reducible assumption | with_reducible apply C.vendor

theorem Reactive.schedule {P : State → Prop} (C : Reactive P) {s : State} (p : Nat) (hP : P s) :
    P (State.schedule s p) := by
  unfold State.schedule
  repeat' first
    | with_reducible assumption | with_reducible apply C.setPack
    | with_reducible refine C.parts (fun h => h) (Or.inl rfl) ?_

theorem Reactive.startTest {P : State → Prop} (C : Reactive P) {s : State} (p k ct : Nat) (hP : P s) :
    P (State.startTest s p k ct) := by
  unfold State.startTest
  repeat' first
    | with_reducible assumption | with_reducible apply pres_ite | with_reducible apply C.setPack
    | with_reducible apply C.armCdl | with_reducible apply C.pathOn
    | with_reducible refine C.parts (fun h => h) (Or.inl rfl) ?_

theorem Reactive.switchTest {P : State → Prop} (C : Reactive P) {s : State} (p : Nat) (hP : P s) :
    P (State.switchTest s p) := by
  unfold State.switchTest
  repeat' first
    | with_reducible assumption | with_reducible apply pres_cond | with_reducible apply C.startTest | intro _

end Sys2Proof.Machine
end

