-- ==== Sys2Proof/Laws/Reactive/Sequencer.lean ====
section
/-!
SUPPORT. Laws/Reactive/Sequencer.lean: more operations of Machine/Sequencer.lean that change only what a reaction can change
(Laws/Reactive.lean).
-/

namespace Sys2Proof.Machine

set_option Elab.async false
set_option linter.unusedTactic false
set_option linter.unreachableTactic false

theorem Reactive.seqDrop {P : State → Prop} (C : Reactive P) {s : State}  (hP : P s) :
    P (State.seqDrop s) := by
  unfold State.seqDrop
  repeat' first
    | with_reducible assumption | with_reducible apply C.seqAbandon
    | with_reducible refine C.parts (fun h => h) (Or.inl rfl) ?_

theorem Reactive.marginWrite {P : State → Prop} (C : Reactive P) {s : State} (v : Nat) (hP : P s) :
    P (State.marginWrite s v) := by
  unfold State.marginWrite
  repeat' first
    | with_reducible assumption | with_reducible apply pres_ite | with_reducible apply C.reject
    | with_reducible apply C.wr | (unfold ReactKey; decide)
    | (simp only [ReactKey, Fld.key, R.SEQ_RAIL_MARGIN_PCT10]; omega)

theorem Reactive.marginStep {P : State → Prop} (C : Reactive P) {s : State}  (hP : P s) :
    P (State.marginStep s) := by
  unfold State.marginStep
  repeat' first
    | with_reducible assumption | with_reducible apply pres_cond | with_reducible apply pres_each
    | with_reducible apply C.showMargins | with_reducible apply C.wr | intro _ | (unfold ReactKey; decide)
    | (simp only [ReactKey, Fld.key, R.SEQ_RAIL_MARGIN_ACT10]; omega)

theorem Reactive.clearCounts {P : State → Prop} (C : Reactive P) {s : State} (f : State → State) (hf : ∀ t, P t → P (f t)) (hP : P s) :
    P (State.clearCounts s f) := by
  unfold State.clearCounts
  repeat' first
    | with_reducible assumption | with_reducible apply pres_ite | with_reducible apply C.reject
    | with_reducible apply hf | intro _

theorem Reactive.pressLog {P : State → Prop} (C : Reactive P) {s : State} (k : Nat) (hP : P s) :
    P (State.pressLog s k) := by
  unfold State.pressLog
  repeat' first
    | with_reducible assumption | with_reducible apply C.tlog

theorem Reactive.press4 {P : State → Prop} (C : Reactive P) {s : State}  (hP : P s) :
    P (State.press4 s) := by
  unfold State.press4
  repeat' first
    | with_reducible assumption | with_reducible apply pres_ite | with_reducible apply C.inc
    | with_reducible apply C.warning | with_reducible apply C.fireTrigger | with_reducible apply C.pressLog
    | with_reducible apply C.wr | with_reducible refine C.parts (fun h => h) (Or.inl rfl) ?_ | (unfold ReactKey; decide)

end Sys2Proof.Machine
end

