-- ==== Sys2Proof/Laws/Reactive/PowerStates.lean ====
section
/-!
SUPPORT. Laws/Reactive/PowerStates.lean: more operations of Machine/PowerStates.lean that change only what a reaction can change
(Laws/Reactive.lean).
-/

namespace Sys2Proof.Machine

set_option Elab.async false
set_option linter.unusedTactic false
set_option linter.unreachableTactic false

theorem Reactive.patrolBehind {P : State → Prop} (C : Reactive P) {s : State}  (hP : P s) :
    P (State.patrolBehind s) := by
  unfold State.patrolBehind
  repeat' first
    | with_reducible assumption | with_reducible apply pres_ite | with_reducible apply C.detect
    | with_reducible apply C.restExit | with_reducible refine C.parts (fun h => h) (Or.inl rfl) ?_

theorem Reactive.sntMaint {P : State → Prop} (C : Reactive P) {s : State} (who : Requester) (f : State → State) (hf : ∀ t, P t → P (f t)) (hP : P s) :
    P (State.sntMaint s who f) := by
  unfold State.sntMaint
  repeat' first
    | with_reducible assumption | with_reducible apply pres_ite | with_reducible apply C.reject
    | with_reducible apply C.under | with_reducible apply hf | intro _

end Sys2Proof.Machine
end

