-- ==== Sys2Proof/Laws/Reactive/Reaction.lean ====
section
/-!
SUPPORT. Laws/Reactive/Reaction.lean: more operations of Machine/Reaction.lean that change only what a reaction can change
(Laws/Reactive.lean).
-/

namespace Sys2Proof.Machine

set_option Elab.async false
set_option linter.unusedTactic false
set_option linter.unreachableTactic false

theorem Reactive.restartProc {P : State → Prop} (C : Reactive P) {s : State} (n : Nat) (hP : P s) :
    P (State.restartProc s n) := by
  unfold State.restartProc
  repeat' first
    | with_reducible assumption | with_reducible apply pres_cond | with_reducible apply pres_foldl
    | with_reducible apply C.inc | with_reducible apply C.setCond | with_reducible apply C.unhalt
    | with_reducible apply C.wr | split | with_reducible refine C.parts (fun h => h) (Or.inl rfl) ?_ | intro _
    | (unfold ReactKey; decide) | (simp only [ReactKey, Fld.key, R.ID_FWVER]; omega)

theorem Reactive.lockstep {P : State → Prop} (C : Reactive P) {s : State}  (hP : P s) :
    P (State.lockstep s) := by
  unfold State.lockstep
  repeat' first
    | with_reducible assumption | with_reducible apply pres_ite | with_reducible apply C.setCond
    | with_reducible apply C.halt

theorem Reactive.reportOne {P : State → Prop} (C : Reactive P) {s : State} (r : Report) (hP : P s) :
    P (State.reportOne s r) := by
  unfold State.reportOne
  repeat' first
    | with_reducible assumption | with_reducible apply pres_cond | with_reducible apply C.vendor
    | with_reducible apply C.alarmLatch | with_reducible apply C.logReport | intro _

theorem Reactive.restartOwed {P : State → Prop} (C : Reactive P) {s : State} (src : Nat) (hP : P s) :
    P (State.restartOwed s src) := by
  unfold State.restartOwed
  repeat' first
    | with_reducible assumption | with_reducible apply pres_cond | with_reducible apply C.restartProc | split
    | with_reducible refine C.parts (fun h => h) (Or.inl rfl) ?_ | intro _

theorem Reactive.reactionDone {P : State → Prop} (C : Reactive P) {s : State}  (hP : P s) :
    P (State.reactionDone s) := by
  unfold State.reactionDone
  repeat' first
    | with_reducible assumption | with_reducible apply pres_ite | with_reducible apply pres_foldl
    | with_reducible apply C.restartProc | with_reducible apply C.reportOne | with_reducible apply C.restartOwed | split
    | with_reducible refine C.parts (fun h => h) (Or.inl rfl) ?_ | intro _

theorem Reactive.eventRelease {P : State → Prop} (C : Reactive P) {s : State} (src : Nat) (hP : P s) :
    P (State.eventRelease s src) := by
  unfold State.eventRelease
  repeat' first
    | with_reducible assumption | with_reducible refine C.parts (fun h => h) (Or.inl rfl) ?_ | intro _

theorem Reactive.errnRead {P : State → Prop} (C : Reactive P) {s : State} (low : Bool) (hP : P s) :
    P (State.errnRead s low) := by
  unfold State.errnRead
  repeat' first
    | with_reducible assumption | with_reducible apply pres_cond | with_reducible apply pres_ite
    | with_reducible apply C.detect | with_reducible apply C.wr
    | with_reducible refine C.parts (fun h => h) (Or.inl rfl) ?_ | intro _ | (unfold ReactKey; decide)

theorem Reactive.rearm {P : State → Prop} (C : Reactive P) {s : State}  (hP : P s) :
    P (State.rearm s) := by
  unfold State.rearm
  repeat' first
    | with_reducible assumption | with_reducible apply C.wr | with_reducible refine C.parts (fun h => h) (Or.inl rfl) ?_
    | (unfold ReactKey; decide)

theorem Reactive.injectLate {P : State → Prop} (C : Reactive P) {s : State} (src inst : Nat) (hP : P s) :
    P (State.injectLate s src inst) := by
  unfold State.injectLate
  repeat' first
    | with_reducible assumption | with_reducible apply pres_ite | with_reducible apply C.setBit
    | with_reducible apply C.detect | with_reducible apply C.wr
    | with_reducible refine C.parts (fun h => h) (Or.inl rfl) ?_ | intro _ | (unfold ReactKey; decide)
    | (simp only [ReactKey, Fld.key, R.FLT_FORCE]; omega)

theorem Reactive.cmpConds {P : State → Prop} (C : Reactive P) {s : State}  (hP : P s) :
    P (State.cmpConds s) := by
  unfold State.cmpConds
  repeat' first
    | with_reducible assumption | with_reducible apply pres_cond | with_reducible apply C.setCond | intro _

end Sys2Proof.Machine
end

