-- ==== Sys2Proof/Laws/Reactive/Calibration.lean ====
section
/-!
SUPPORT. Laws/Reactive/Calibration.lean: more operations of Machine/Calibration.lean that change only what a reaction can change
(Laws/Reactive.lean).
-/

namespace Sys2Proof.Machine

set_option Elab.async false
set_option linter.unusedTactic false
set_option linter.unreachableTactic false

theorem Reactive.calTrigger {P : State → Prop} (C : Reactive P) {s : State}  (hP : P s) :
    P (State.calTrigger s) := by
  unfold State.calTrigger
  repeat' first
    | with_reducible assumption | with_reducible apply pres_ite | with_reducible apply C.calBegin
    | with_reducible refine C.parts (fun h => h) (Or.inl rfl) ?_

theorem Reactive.calTemp {P : State → Prop} (C : Reactive P) {s : State}  (hP : P s) :
    P (State.calTemp s) := by
  unfold State.calTemp
  repeat' first
    | with_reducible assumption | with_reducible apply pres_cond | with_reducible apply C.calTrigger | intro _

theorem Reactive.adcResult {P : State → Prop} (C : Reactive P) {s : State} (a : Nat) (gain ofs : Int) (hP : P s) :
    P (State.adcResult s a gain ofs) := by
  unfold State.adcResult
  repeat' first
    | with_reducible assumption | with_reducible apply pres_ite | with_reducible apply C.detect
    | with_reducible apply C.wr | with_reducible refine C.parts (fun h => h) (Or.inl rfl) ?_ | (unfold ReactKey; decide)

theorem Reactive.storeCal {P : State → Prop} (C : Reactive P) {s : State}  (hP : P s) :
    P (State.storeCal s) := by
  unfold State.storeCal
  repeat' first
    | with_reducible assumption | with_reducible apply pres_ite
    | with_reducible refine C.parts (fun h => h) (Or.inl rfl) ?_

theorem Reactive.vrefCheck {P : State → Prop} (C : Reactive P) {s : State} (uv : Nat) (hP : P s) :
    P (State.vrefCheck s uv) := by
  unfold State.vrefCheck
  repeat' first
    | with_reducible assumption | with_reducible apply pres_ite | with_reducible apply C.detect
    | with_reducible apply C.calTrigger | with_reducible apply C.wr
    | with_reducible refine C.parts (fun h => h) (Or.inl rfl) ?_ | (unfold ReactKey; decide)

theorem Reactive.vrefResume {P : State → Prop} (C : Reactive P) {s : State}  (hP : P s) :
    P (State.vrefResume s) := by
  unfold State.vrefResume
  repeat' first
    | with_reducible assumption | with_reducible apply pres_ite | with_reducible apply C.vrefCheck | split
    | with_reducible refine C.parts (fun h => h) (Or.inl rfl) ?_

end Sys2Proof.Machine
end

