-- ==== Sys2Proof/Laws/Reactive/Keep.lean ====
section
/-!
SUPPORT. Laws/Reactive/Keep.lean: more operations of Machine/Keep.lean that change only what a reaction can change
(Laws/Reactive.lean).
-/

namespace Sys2Proof.Machine

set_option Elab.async false
set_option linter.unusedTactic false
set_option linter.unreachableTactic false

theorem Reactive.remark {P : State → Prop} (C : Reactive P) {s : State} (g : Nat) (hP : P s) :
    P (State.remark s g) := by
  unfold State.remark
  repeat' first
    | with_reducible assumption | with_reducible apply pres_ite
    | with_reducible refine C.parts (fun h => h) (Or.inl rfl) ?_

theorem Reactive.steepLine {P : State → Prop} (C : Reactive P) {s : State} (r : Nat) (hP : P s) :
    P (State.steepLine s r) := by
  unfold State.steepLine
  repeat' first
    | with_reducible assumption | with_reducible apply pres_ite | with_reducible apply pres_foldl
    | with_reducible apply C.detect | with_reducible apply C.showSteep | with_reducible apply C.remark
    | with_reducible refine C.parts (fun h => h) (Or.inl rfl) ?_ | intro _

theorem Reactive.debtLine {P : State → Prop} (C : Reactive P) {s : State} (t n : Nat) (hP : P s) :
    P (State.debtLine s t n) := by
  unfold State.debtLine
  repeat' first
    | with_reducible assumption | with_reducible apply pres_foldl | with_reducible apply C.setDebt | intro _

end Sys2Proof.Machine
end

