-- ==== Sys2Proof/Laws/Reactive/PageRegs.lean ====
section
/-!
SUPPORT. Laws/Reactive/PageRegs.lean: more operations of Machine/PageRegs.lean that change only what a reaction can change
(Laws/Reactive.lean).
-/

namespace Sys2Proof.Machine

set_option Elab.async false
set_option linter.unusedTactic false
set_option linter.unreachableTactic false

theorem Reactive.followBulk {P : State → Prop} (C : Reactive P) {s : State}  (hP : P s) :
    P (State.followBulk s) := by
  unfold State.followBulk
  repeat' first
    | with_reducible assumption | with_reducible apply pres_ite | with_reducible apply C.bulkBegin
    | with_reducible apply C.wr | (unfold ReactKey; decide)

theorem Reactive.rejectH {P : State → Prop} (C : Reactive P) {s : State} (page : Nat) (hP : P s) :
    P (State.rejectH s page) := by
  unfold State.rejectH
  repeat' first
    | with_reducible assumption | with_reducible apply C.notice | with_reducible apply C.reject

theorem Reactive.writeHeader {P : State → Prop} (C : Reactive P) {s : State} (page off v : Nat) (hP : P s) :
    P (State.writeHeader s page off v) := by
  unfold State.writeHeader
  repeat' first
    | with_reducible assumption | with_reducible apply pres_cond | with_reducible apply pres_ite
    | with_reducible apply C.reject | with_reducible apply C.wr | intro _ | (unfold ReactKey; decide)
    | (simp only [ReactKey, Fld.key, R.CFG_REJECT, R.FLT_MASK, R.FLT_SEV]; omega)

theorem Reactive.retarget {P : State → Prop} (C : Reactive P) {s : State} (t eui gen : Nat) (had : RSet) (hP : P s) :
    P (State.retarget s t eui gen had) := by
  unfold State.retarget
  repeat' first
    | with_reducible assumption | with_reducible apply pres_cond | with_reducible apply pres_ite
    | with_reducible apply C.setDebt | with_reducible apply C.setSends | with_reducible apply C.rackSettle
    | with_reducible apply C.abandonSends | with_reducible apply C.rackTo | with_reducible apply C.openTarget
    | with_reducible apply C.wr | with_reducible refine C.parts (fun h => h) (Or.inl rfl) ?_ | intro _
    | (unfold ReactKey; decide) | (simp only [ReactKey, Fld.key, R.RCK_TGT_STAT_STATE]; omega)

end Sys2Proof.Machine
end

