-- ==== Sys2Proof/Laws/Reactive/Pages.lean ====
section
/-!
SUPPORT. Laws/Reactive/Pages.lean: more operations of Machine/Pages.lean that change only what a reaction can change
(Laws/Reactive.lean).
-/

namespace Sys2Proof.Machine

set_option Elab.async false
set_option linter.unusedTactic false
set_option linter.unreachableTactic false

theorem Reactive.dlpOff {P : State → Prop} (C : Reactive P) {s : State} (n : Nat) (hP : P s) :
    P (State.dlpOff s n) := by
  unfold State.dlpOff
  repeat' first
    | with_reducible assumption | with_reducible apply C.portFall | with_reducible apply C.showFeed

theorem Reactive.disableQueues {P : State → Prop} (C : Reactive P) {s : State}  (hP : P s) :
    P (State.disableQueues s) := by
  unfold State.disableQueues
  repeat' first
    | with_reducible assumption | with_reducible apply pres_foldl | with_reducible apply C.disableQueue | intro _

theorem Reactive.startBlock {P : State → Prop} (C : Reactive P) {s : State} (page : Nat) (hP : P s) :
    P (State.startBlock s page) := by
  unfold State.startBlock
  repeat' first
    | with_reducible assumption | with_reducible apply pres_cond | with_reducible apply pres_ite
    | with_reducible apply C.showFeed | with_reducible apply C.wr | intro _ | (unfold ReactKey; decide)
    | (simp only [ReactKey, Fld.key, R.DLP_STAT_STATE]; omega)

theorem Reactive.enableClear {P : State → Prop} (C : Reactive P) {s : State} (page : Nat) (hP : P s) :
    P (State.enableClear s page) := by
  unfold State.enableClear
  repeat' first
    | with_reducible assumption | with_reducible apply pres_ite | with_reducible apply C.reject
    | with_reducible apply C.dlpOff | with_reducible apply C.disableQueues | with_reducible apply C.wr
    | (unfold ReactKey; decide) | (simp only [ReactKey, Fld.key, R.ENABLE]; omega)

theorem Reactive.enableSet {P : State → Prop} (C : Reactive P) {s : State} (page : Nat) (hP : P s) :
    P (State.enableSet s page) := by
  unfold State.enableSet
  repeat' first
    | with_reducible assumption | with_reducible apply pres_cond | with_reducible apply pres_ite
    | with_reducible apply C.startBlock | with_reducible apply C.wr | intro _ | (unfold ReactKey; decide)
    | (simp only [ReactKey, Fld.key, R.ENABLE, R.RUNNING]; omega)

theorem Reactive.slotWord {P : State → Prop} (C : Reactive P) {s : State} (q off v : Nat) (hP : P s) :
    P (State.slotWord s q off v) := by
  unfold State.slotWord
  repeat' first
    | with_reducible assumption | with_reducible apply pres_ite | with_reducible apply C.setQueue
    | with_reducible apply C.rejectH

theorem Reactive.slotWrite {P : State → Prop} (C : Reactive P) {s : State} (who : Requester) (p n off size v : Nat) (hP : P s) :
    P (State.slotWrite s who p n off size v) := by
  unfold State.slotWrite
  repeat' first
    | with_reducible assumption | with_reducible apply pres_ite | with_reducible apply pres_each
    | with_reducible apply C.notice | with_reducible apply C.reject | with_reducible apply C.byOwner
    | with_reducible apply C.slotWord | intro _

theorem Reactive.inject {P : State → Prop} (C : Reactive P) {s : State} (page bit : Nat) (seen : Bool) (hP : P s) :
    P (State.inject s page bit seen) := by
  unfold State.inject
  repeat' first
    | with_reducible assumption | with_reducible apply pres_ite | with_reducible apply C.setBit
    | with_reducible apply C.reject | with_reducible apply C.injSeen | split
    | with_reducible refine C.parts (fun h => h) (Or.inl rfl) ?_ | (unfold ReactKey; decide)
    | (simp only [ReactKey, Fld.key, R.FLT_FORCE]; omega)

theorem Reactive.maintLog {P : State → Prop} (C : Reactive P) {s : State} (on : Nat) (hP : P s) :
    P (State.maintLog s on) := by
  unfold State.maintLog
  repeat' first
    | with_reducible assumption | with_reducible apply C.tlog

end Sys2Proof.Machine
end

