-- ==== Sys2Proof/Laws/Reactive/Records.lean ====
section
/-!
SUPPORT. Laws/Reactive/Records.lean: more operations of Machine/Records.lean that change only what a reaction can change
(Laws/Reactive.lean).
-/

namespace Sys2Proof.Machine

set_option Elab.async false
set_option linter.unusedTactic false
set_option linter.unreachableTactic false

theorem Reactive.rateSummary {P : State → Prop} (C : Reactive P) {s : State}  (hP : P s) :
    P (State.rateSummary s) := by
  unfold State.rateSummary
  repeat' first
    | with_reducible assumption | with_reducible apply pres_foldl | with_reducible apply C.appendTlog
    | with_reducible refine C.parts (fun h => h) (Or.inl rfl) ?_ | intro _

theorem Reactive.tlgClear {P : State → Prop} (C : Reactive P) {s : State}  (hP : P s) :
    P (State.tlgClear s) := by
  unfold State.tlgClear
  repeat' first
    | with_reducible assumption | with_reducible apply pres_ite | with_reducible apply C.showTlog
    | with_reducible apply C.detect | with_reducible apply C.notice | with_reducible apply C.reject
    | with_reducible refine C.parts (fun h => h) (Or.inl rfl) ?_

end Sys2Proof.Machine
end

