-- ==== Sys2Proof/Laws/Stable.lean ====
section
/-!
SUPPORT. Laws/Stable.lean: what every operation keeps. `Stable P` says that `P` survives every change that leaves the variant and
the queue alone and keeps the canonical forms and the capacities of `State.Inv`; one lemma for each operation of the model then says
that `P` survives it.
-/

namespace Sys2Proof.Machine

set_option Elab.async false
set_option linter.unusedTactic false
set_option linter.unreachableTactic false

/-- `P` survives every change that leaves the variant and the queue alone and keeps what `State.Inv` says. -/
structure Stable (P : State → Prop) : Prop where
  same : ∀ {s : State} {regs : NMap} {staged : NMap} {latched : NMap} {track : Track} {maint : Maint} {safe : Safe} {recs : Records}
      {hostA : HostPort} {hostB : HostPort} {dram : Dram} {dirty : Dirty} {budget : Budget} {kiln : Kiln}
      {cellar : Cellar} {steep : Steep} {queues : Queues} {fabric : Fabric} {racking : Racking} {packA : Pack}
      {packB : Pack} {learnt : List Learnt} {seq : Seq} {power : Power} {cal : Cal} {flash : CodeFlash}
      {update : Update} {halted : List Nat} {badClocks : List Nat} {hostTime : Nat} {hostTimeAt : Nat}
      {freeCtr : Nat} {out : List Output} {held : List Instr},
    (s.regs.wf = true → regs.wf = true) → (s.staged.wf = true → staged.wf = true) →
    (s.latched.wf = true → latched.wf = true) → (s.dram.mem.wf = true → dram.mem.wf = true) →
    (s.recs.live.length ≤ 4096 → recs.live.length ≤ 4096) → (s.safe.hist.length ≤ 16 → safe.hist.length ≤ 16) →
    (s.safe.stack.length ≤ 4 → safe.stack.length ≤ 4) → (s.steep.hints.length ≤ 4096 → steep.hints.length ≤ 4096) →
    (s.dirty.inflight.length ≤ 16384 → dirty.inflight.length ≤ 16384) →
    ((∀ l ∈ s.hostA.logs, l.length ≤ 256) → ∀ l ∈ hostA.logs, l.length ≤ 256) →
    ((∀ l ∈ s.hostB.logs, l.length ≤ 256) → ∀ l ∈ hostB.logs, l.length ≤ 256) → P s →
      P { s with regs := regs, staged := staged, latched := latched, track := track, maint := maint, safe := safe, recs := recs,
                 hostA := hostA, hostB := hostB, dram := dram, dirty := dirty, budget := budget, kiln := kiln, cellar := cellar,
                 steep := steep, queues := queues, fabric := fabric, racking := racking, packA := packA, packB := packB, learnt := learnt,
                 seq := seq, power := power, cal := cal, flash := flash, update := update, halted := halted, badClocks := badClocks,
                 hostTime := hostTime, hostTimeAt := hostTimeAt, freeCtr := freeCtr, out := out, held := held }

theorem Stable.wr {P : State → Prop} (C : Stable P) {s : State} {f : Fld} (v : Nat) (hP : P s) : P (s.wr f v) :=
  C.same (State.wf_wr f v) id id id id id id id id id id hP

end Sys2Proof.Machine
end

