-- ==== Sys2Proof/Laws/Stable/Ops.lean ====
section
/-!
SUPPORT. Laws/Stable/Ops.lean: what the operations of Machine/Ops.lean keep (Laws/Stable.lean).
-/

namespace Sys2Proof.Machine

set_option Elab.async false
set_option linter.unusedTactic false
set_option linter.unreachableTactic false

theorem Stable.inc {P : State → Prop} (C : Stable P) {s : State} (f : Fld) (hP : P s) :
    P (State.inc s f) := by
  unfold State.inc
  repeat' first
    | with_reducible assumption | with_reducible apply pres_ite | with_reducible apply C.wr

theorem Stable.addSat {P : State → Prop} (C : Stable P) {s : State} (f : Fld) (n : Nat) (hP : P s) :
    P (State.addSat s f n) := by
  unfold State.addSat
  repeat' first
    | with_reducible assumption | with_reducible apply C.wr

theorem Stable.bump {P : State → Prop} (C : Stable P) {s : State} (f : Fld) (hP : P s) :
    P (State.bump s f) := by
  unfold State.bump
  repeat' first
    | with_reducible assumption | with_reducible apply C.wr

theorem Stable.setBit {P : State → Prop} (C : Stable P) {s : State} (f : Fld) (i : Nat) (b : Bool) (hP : P s) :
    P (State.setBit s f i b) := by
  unfold State.setBit
  repeat' first
    | with_reducible assumption | with_reducible apply pres_ite | with_reducible apply C.wr

theorem Stable.takeFree {P : State → Prop} (C : Stable P) {s : State} (w : Nat) (hP : P s) :
    P (State.takeFree s w).2 := by
  unfold State.takeFree
  repeat' first
    | with_reducible assumption | with_reducible apply pres_ite_snd
    | with_reducible refine C.same (fun h => h) (fun h => h) (fun h => h) (fun h => h) (fun h => h) (fun h => h) (fun h => h) (fun h => h) (fun h => h) (fun h => h) (fun h => h) ?_
    | with_reducible refine C.same ?_ ?_ ?_ ?_ ?_ ?_ ?_ ?_ ?_ ?_ ?_ ?_ | exact fun h => h

theorem Stable.send {P : State → Prop} (C : Stable P) {s : State} (o : Output) (hP : P s) :
    P (State.send s o) := by
  unfold State.send
  repeat' first
    | with_reducible assumption
    | with_reducible refine C.same (fun h => h) (fun h => h) (fun h => h) (fun h => h) (fun h => h) (fun h => h) (fun h => h) (fun h => h) (fun h => h) (fun h => h) (fun h => h) ?_
    | with_reducible refine C.same ?_ ?_ ?_ ?_ ?_ ?_ ?_ ?_ ?_ ?_ ?_ ?_ | exact fun h => h

theorem Stable.begin {P : State → Prop} (C : Stable P) {s : State}  (hP : P s) :
    P (State.begin s) := by
  unfold State.begin
  repeat' first
    | with_reducible assumption
    | with_reducible refine C.same (fun h => h) (fun h => h) (fun h => h) (fun h => h) (fun h => h) (fun h => h) (fun h => h) (fun h => h) (fun h => h) (fun h => h) (fun h => h) ?_
    | with_reducible refine C.same ?_ ?_ ?_ ?_ ?_ ?_ ?_ ?_ ?_ ?_ ?_ ?_ | exact fun h => h | exact fun _ => rfl
    | exact fun _ => Nat.zero_le _

theorem Stable.fuse {P : State → Prop} (C : Stable P) {s : State}  (hP : P s) :
    P (State.fuse s) := by
  unfold State.fuse
  repeat' first
    | with_reducible assumption | with_reducible apply pres_ite | with_reducible apply C.wr | split
    | with_reducible refine C.same (fun h => h) (fun h => h) (fun h => h) (fun h => h) (fun h => h) (fun h => h) (fun h => h) (fun h => h) (fun h => h) (fun h => h) (fun h => h) ?_
    | with_reducible refine C.same ?_ ?_ ?_ ?_ ?_ ?_ ?_ ?_ ?_ ?_ ?_ ?_ | exact fun h => h

theorem Stable.setHost {P : State → Prop} (C : Stable P) {s : State} {p : Nat} {k : HostPort}
    (hk : (∀ l ∈ (s.host p).logs, l.length ≤ 256) → ∀ l ∈ k.logs, l.length ≤ 256) (hP : P s) : P (s.setHost p k) := by
  unfold State.host at hk
  unfold State.setHost
  split
  · rename_i hp
    simp only [hp] at hk
    exact C.same (fun h => h) (fun h => h) (fun h => h) (fun h => h) (fun h => h) (fun h => h) (fun h => h) (fun h => h)
      (fun h => h) hk (fun h => h) hP
  · rename_i hp
    simp only [hp] at hk
    exact C.same (fun h => h) (fun h => h) (fun h => h) (fun h => h) (fun h => h) (fun h => h) (fun h => h) (fun h => h)
      (fun h => h) (fun h => h) hk hP

theorem Stable.hold {P : State → Prop} (C : Stable P) {s : State} (c : Instr) (hP : P s) :
    P (State.hold s c) := by
  unfold State.hold
  repeat' first
    | with_reducible assumption
    | with_reducible refine C.same (fun h => h) (fun h => h) (fun h => h) (fun h => h) (fun h => h) (fun h => h) (fun h => h) (fun h => h) (fun h => h) (fun h => h) (fun h => h) ?_
    | with_reducible refine C.same ?_ ?_ ?_ ?_ ?_ ?_ ?_ ?_ ?_ ?_ ?_ ?_ | exact fun h => h

theorem Stable.msix {P : State → Prop} (C : Stable P) {s : State} (p vec : Nat) (hP : P s) :
    P (State.msix s p vec) := by
  unfold State.msix
  repeat' first
    | with_reducible assumption | with_reducible apply pres_ite | with_reducible apply C.send

theorem Stable.dropHeld {P : State → Prop} (C : Stable P) {s : State} (p : Nat) (hP : P s) :
    P (State.dropHeld s p) := by
  unfold State.dropHeld
  repeat' first
    | with_reducible assumption
    | with_reducible refine C.same (fun h => h) (fun h => h) (fun h => h) (fun h => h) (fun h => h) (fun h => h) (fun h => h) (fun h => h) (fun h => h) (fun h => h) (fun h => h) ?_
    | with_reducible refine C.same ?_ ?_ ?_ ?_ ?_ ?_ ?_ ?_ ?_ ?_ ?_ ?_ | exact fun h => h
    | (intro h; exact Nat.le_trans (List.length_filter_le _ _) h) | intro _

theorem Stable.setPack {P : State → Prop} (C : Stable P) {s : State} (p : Nat) (k : Pack) (hP : P s) :
    P (State.setPack s p k) := by
  unfold State.setPack
  repeat' first
    | with_reducible assumption | with_reducible apply pres_ite
    | with_reducible refine C.same (fun h => h) (fun h => h) (fun h => h) (fun h => h) (fun h => h) (fun h => h) (fun h => h) (fun h => h) (fun h => h) (fun h => h) (fun h => h) ?_
    | with_reducible refine C.same ?_ ?_ ?_ ?_ ?_ ?_ ?_ ?_ ?_ ?_ ?_ ?_ | exact fun h => h

theorem Stable.showTlog {P : State → Prop} (C : Stable P) {s : State}  (hP : P s) :
    P (State.showTlog s) := by
  unfold State.showTlog
  repeat' first
    | with_reducible assumption | with_reducible apply pres_ite | with_reducible apply C.wr | split
    | with_reducible refine C.same (fun h => h) (fun h => h) (fun h => h) (fun h => h) (fun h => h) (fun h => h) (fun h => h) (fun h => h) (fun h => h) (fun h => h) (fun h => h) ?_
    | with_reducible refine C.same ?_ ?_ ?_ ?_ ?_ ?_ ?_ ?_ ?_ ?_ ?_ ?_ | exact fun h => h
    | (intro h; simp only [List.length_map]; exact h) | intro _

theorem Stable.pushTlog {P : State → Prop} (C : Stable P) {s : State} (e : TEntry) (hP : P s) : P (s.pushTlog e) := by
  unfold State.pushTlog
  refine C.showTlog ?_
  refine C.same (fun h => h) (fun h => h) (fun h => h) (fun h => h) ?_ (fun h => h) (fun h => h) (fun h => h) (fun h => h)
    (fun h => h) (fun h => h) hP
  intro h
  simp only [List.length_append, List.length_cons, List.length_nil]
  split
  · rw [List.length_drop]
    omega
  · omega

theorem Stable.detect {P : State → Prop} (C : Stable P) {s : State} (src inst : Nat) (hP : P s) :
    P (State.detect s src inst) := by
  unfold State.detect
  repeat' first
    | with_reducible assumption
    | with_reducible refine C.same (fun h => h) (fun h => h) (fun h => h) (fun h => h) (fun h => h) (fun h => h) (fun h => h) (fun h => h) (fun h => h) (fun h => h) (fun h => h) ?_
    | with_reducible refine C.same ?_ ?_ ?_ ?_ ?_ ?_ ?_ ?_ ?_ ?_ ?_ ?_ | exact fun h => h

theorem Stable.appendTlog {P : State → Prop} (C : Stable P) {s : State} (limited : Bool) (e : TEntry) (hP : P s) :
    P (State.appendTlog s limited e) := by
  unfold State.appendTlog
  repeat' first
    | with_reducible assumption | with_reducible apply pres_cond | with_reducible apply pres_ite
    | with_reducible apply C.inc | with_reducible apply C.pushTlog | with_reducible apply C.detect
    | with_reducible refine C.same (fun h => h) (fun h => h) (fun h => h) (fun h => h) (fun h => h) (fun h => h) (fun h => h) (fun h => h) (fun h => h) (fun h => h) (fun h => h) ?_
    | with_reducible refine C.same ?_ ?_ ?_ ?_ ?_ ?_ ?_ ?_ ?_ ?_ ?_ ?_ | exact fun h => h | exact NMap.wf_set _ _
    | intro _

theorem Stable.tlog {P : State → Prop} (C : Stable P) {s : State} (code data : Nat) (hP : P s) :
    P (State.tlog s code data) := by
  unfold State.tlog
  repeat' first
    | with_reducible assumption | with_reducible apply C.appendTlog

theorem Stable.notice {P : State → Prop} (C : Stable P) {s : State} (page : Nat) (hP : P s) :
    P (State.notice s page) := by
  unfold State.notice
  repeat' first
    | with_reducible assumption | with_reducible apply C.tlog

theorem Stable.warning {P : State → Prop} (C : Stable P) {s : State} (page : Nat) (hP : P s) :
    P (State.warning s page) := by
  unfold State.warning
  repeat' first
    | with_reducible assumption | with_reducible apply C.tlog

theorem Stable.reject {P : State → Prop} (C : Stable P) {s : State} (page : Nat) (hP : P s) :
    P (State.reject s page) := by
  unfold State.reject
  repeat' first
    | with_reducible assumption | with_reducible apply C.wr

theorem Stable.pushEvent {P : State → Prop} (C : Stable P) {s : State} (log : Nat) (kind : EvtKind) (granule : Option Nat)
    (words : List Nat) (p : Nat) (hP : P s) : P (s.pushEvent log kind granule words p) := by
  unfold State.pushEvent
  simp only
  split
  · exact pres_cond (C.setBit _ _ _ hP) (fun t ht => C.detect _ _ ht)
  · rename_i hl
    refine pres_cond (C.wr _ (C.setHost (fun h l hm => ?_) hP)) (fun t ht => C.msix _ _ ht)
    rcases List.mem_or_eq_of_mem_set hm with hm | hm
    · exact h l hm
    · rw [hm]
      simp only [List.length_append, List.length_cons, List.length_nil]
      omega

theorem Stable.event {P : State → Prop} (C : Stable P) {s : State} (log : Nat) (kind : EvtKind) (granule : Option Nat) (words : List Nat) (hP : P s) :
    P (State.event s log kind granule words) := by
  unfold State.event
  repeat' first
    | with_reducible assumption | with_reducible apply pres_foldl | with_reducible apply C.tlog
    | with_reducible apply C.pushEvent | intro _

theorem Stable.vendor {P : State → Prop} (C : Stable P) {s : State} (log subtype : Nat) (words : List Nat) (hP : P s) :
    P (State.vendor s log subtype words) := by
  unfold State.vendor
  repeat' first
    | with_reducible assumption | with_reducible apply C.event

theorem Stable.healthNote {P : State → Prop} (C : Stable P) {s : State}  (hP : P s) :
    P (State.healthNote s) := by
  unfold State.healthNote
  repeat' first
    | with_reducible assumption | with_reducible apply pres_ite | with_reducible apply C.event
    | with_reducible refine C.same (fun h => h) (fun h => h) (fun h => h) (fun h => h) (fun h => h) (fun h => h) (fun h => h) (fun h => h) (fun h => h) (fun h => h) (fun h => h) ?_
    | with_reducible refine C.same ?_ ?_ ?_ ?_ ?_ ?_ ?_ ?_ ?_ ?_ ?_ ?_ | exact fun h => h

theorem Stable.dirtyLoad {P : State → Prop} (C : Stable P) {s : State} (p : Nat) (hP : P s) :
    P (State.dirtyLoad s p) := by
  unfold State.dirtyLoad
  repeat' first
    | with_reducible assumption | with_reducible apply pres_cond | with_reducible apply pres_ite
    | with_reducible apply C.inc | with_reducible apply C.wr | intro _

theorem Stable.pstUpdate {P : State → Prop} (C : Stable P) {s : State} (upd : State → State)
    (hu : ∀ t, P t → P (upd t)) (hP : P s) : P (s.pstUpdate upd) := by
  unfold State.pstUpdate
  extract_lets before old s1 s2 s3 s4 s5
  have h1 : P s1 := hu _ hP
  have h2 : P s2 := C.wr _ h1
  have h3 : P s3 := C.wr _ h2
  have h4 : P s4 := by
    refine pres_cond h3 (fun t ht => ?_)
    refine C.tlog _ _ (C.vendor _ _ _ (C.inc _ ?_))
    exact C.same (fun h => h) (fun h => h) (fun h => h) (fun h => h) (fun h => h) (fun h => h) (fun h => h) (fun h => h)
      (fun h => h) (fun h => h) (fun h => h) ht
  have h5 : P s5 := C.healthNote (C.bump _ h4)
  exact pres_each h5 (fun t a ht => C.dirtyLoad _ ht)

theorem Stable.setCond {P : State → Prop} (C : Stable P) {s : State} (src inst : Nat) (on : Bool) (hP : P s) :
    P (State.setCond s src inst on) := by
  unfold State.setCond
  repeat' first
    | with_reducible assumption | with_reducible apply pres_ite | with_reducible apply C.detect
    | with_reducible refine C.same (fun h => h) (fun h => h) (fun h => h) (fun h => h) (fun h => h) (fun h => h) (fun h => h) (fun h => h) (fun h => h) (fun h => h) (fun h => h) ?_
    | with_reducible refine C.same ?_ ?_ ?_ ?_ ?_ ?_ ?_ ?_ ?_ ?_ ?_ ?_ | exact fun h => h | intro _

theorem Stable.reply {P : State → Prop} (C : Stable P) {s : State} (p rc : Nat) (words : List Nat) (hP : P s) :
    P (State.reply s p rc words) := by
  unfold State.reply
  repeat' first
    | with_reducible assumption | with_reducible apply pres_cond | with_reducible apply C.send
    | with_reducible apply C.msix | intro _

theorem Stable.bgEnd {P : State → Prop} (C : Stable P) {s : State} (p opcode rc : Nat) (words : List Nat) (hP : P s) :
    P (State.bgEnd s p opcode rc words) := by
  unfold State.bgEnd
  repeat' first
    | with_reducible assumption | with_reducible apply pres_cond | with_reducible apply C.send
    | with_reducible apply C.msix | intro _

end Sys2Proof.Machine
end

