-- ==== Sys2Proof/Laws/Stable/DirtyOps.lean ====
section
/-!
SUPPORT. Laws/Stable/DirtyOps.lean: what the operations of Machine/DirtyOps.lean keep (Laws/Stable.lean).
-/

namespace Sys2Proof.Machine

set_option Elab.async false
set_option linter.unusedTactic false
set_option linter.unreachableTactic false

theorem Stable.flagInflight {P : State → Prop} (C : Stable P) {s : State} (g : Nat) (hP : P s) :
    P (State.flagInflight s g) := by
  unfold State.flagInflight
  repeat' first
    | with_reducible assumption | with_reducible apply pres_ite
    | with_reducible refine C.same (fun h => h) (fun h => h) (fun h => h) (fun h => h) (fun h => h) (fun h => h) (fun h => h) (fun h => h) (fun h => h) (fun h => h) (fun h => h) ?_
    | with_reducible refine C.same ?_ ?_ ?_ ?_ ?_ ?_ ?_ ?_ ?_ ?_ ?_ ?_ | exact fun h => h
    | (intro h; simp only [List.length_map]; exact h) | intro _

theorem Stable.rankAdd {P : State → Prop} (C : Stable P) {s : State} (g : Nat) (hP : P s) :
    P (State.rankAdd s g) := by
  unfold State.rankAdd
  repeat' first
    | with_reducible assumption | with_reducible apply C.wr

theorem Stable.rankSub {P : State → Prop} (C : Stable P) {s : State} (g : Nat) (hP : P s) :
    P (State.rankSub s g) := by
  unfold State.rankSub
  repeat' first
    | with_reducible assumption | with_reducible apply C.wr

theorem Stable.markDirty {P : State → Prop} (C : Stable P) {s : State} (g : Nat) (hP : P s) :
    P (State.markDirty s g) := by
  unfold State.markDirty
  repeat' first
    | with_reducible assumption | with_reducible apply pres_ite | with_reducible apply C.flagInflight
    | with_reducible apply C.rankAdd | with_reducible apply C.wr
    | with_reducible refine C.same (fun h => h) (fun h => h) (fun h => h) (fun h => h) (fun h => h) (fun h => h) (fun h => h) (fun h => h) (fun h => h) (fun h => h) (fun h => h) ?_
    | with_reducible refine C.same ?_ ?_ ?_ ?_ ?_ ?_ ?_ ?_ ?_ ?_ ?_ ?_ | exact fun h => h

theorem Stable.markClean {P : State → Prop} (C : Stable P) {s : State} (g : Nat) (hP : P s) :
    P (State.markClean s g) := by
  unfold State.markClean
  repeat' first
    | with_reducible assumption | with_reducible apply pres_ite | with_reducible apply C.rankSub
    | with_reducible apply C.wr
    | with_reducible refine C.same (fun h => h) (fun h => h) (fun h => h) (fun h => h) (fun h => h) (fun h => h) (fun h => h) (fun h => h) (fun h => h) (fun h => h) (fun h => h) ?_
    | with_reducible refine C.same ?_ ?_ ?_ ?_ ?_ ?_ ?_ ?_ ?_ ?_ ?_ ?_ | exact fun h => h

theorem Stable.rankBulk {P : State → Prop} (C : Stable P) {s : State} (set : RSet) (up : Bool) (hP : P s) :
    P (State.rankBulk s set up) := by
  unfold State.rankBulk
  repeat' first
    | with_reducible assumption | with_reducible apply pres_ite | with_reducible apply pres_each
    | with_reducible apply pres_foldl | with_reducible apply C.wr | intro _

theorem Stable.markRange {P : State → Prop} (C : Stable P) {s : State} (lo hi : Nat) (hP : P s) :
    P (State.markRange s lo hi) := by
  unfold State.markRange
  repeat' first
    | with_reducible assumption | with_reducible apply pres_ite | with_reducible apply C.rankBulk
    | with_reducible apply C.wr
    | with_reducible refine C.same (fun h => h) (fun h => h) (fun h => h) (fun h => h) (fun h => h) (fun h => h) (fun h => h) (fun h => h) (fun h => h) (fun h => h) (fun h => h) ?_
    | with_reducible refine C.same ?_ ?_ ?_ ?_ ?_ ?_ ?_ ?_ ?_ ?_ ?_ ?_ | exact fun h => h
    | (intro h; simp only [List.length_map]; exact h) | intro _

theorem Stable.cleanRange {P : State → Prop} (C : Stable P) {s : State} (lo hi : Nat) (hP : P s) :
    P (State.cleanRange s lo hi) := by
  unfold State.cleanRange
  repeat' first
    | with_reducible assumption | with_reducible apply C.rankBulk | with_reducible apply C.wr
    | with_reducible refine C.same (fun h => h) (fun h => h) (fun h => h) (fun h => h) (fun h => h) (fun h => h) (fun h => h) (fun h => h) (fun h => h) (fun h => h) (fun h => h) ?_
    | with_reducible refine C.same ?_ ?_ ?_ ?_ ?_ ?_ ?_ ?_ ?_ ?_ ?_ ?_ | exact fun h => h

theorem Stable.showInflight {P : State → Prop} (C : Stable P) {s : State}  (hP : P s) :
    P (State.showInflight s) := by
  unfold State.showInflight
  repeat' first
    | with_reducible assumption | with_reducible apply C.wr

theorem Stable.dropCopies {P : State → Prop} (C : Stable P) {s : State} (lo hi : Nat) (hP : P s) :
    P (State.dropCopies s lo hi) := by
  unfold State.dropCopies
  repeat' first
    | with_reducible assumption | with_reducible apply C.showInflight
    | with_reducible refine C.same (fun h => h) (fun h => h) (fun h => h) (fun h => h) (fun h => h) (fun h => h) (fun h => h) (fun h => h) (fun h => h) (fun h => h) (fun h => h) ?_
    | with_reducible refine C.same ?_ ?_ ?_ ?_ ?_ ?_ ?_ ?_ ?_ ?_ ?_ ?_ | exact fun h => h
    | (intro h; exact Nat.le_trans (List.length_filter_le _ _) h) | intro _

theorem Stable.touch {P : State → Prop} (C : Stable P) {s : State} (r : Nat) (hP : P s) :
    P (State.touch s r) := by
  unfold State.touch
  repeat' first
    | with_reducible assumption | with_reducible apply pres_ite
    | with_reducible refine C.same (fun h => h) (fun h => h) (fun h => h) (fun h => h) (fun h => h) (fun h => h) (fun h => h) (fun h => h) (fun h => h) (fun h => h) (fun h => h) ?_
    | with_reducible refine C.same ?_ ?_ ?_ ?_ ?_ ?_ ?_ ?_ ?_ ?_ ?_ ?_ | exact fun h => h | exact NMap.wf_set _ _

theorem Stable.enterBoost {P : State → Prop} (C : Stable P) {s : State}  (hP : P s) :
    P (State.enterBoost s) := by
  unfold State.enterBoost
  repeat' first
    | with_reducible assumption | with_reducible apply pres_ite | with_reducible apply C.inc
    | with_reducible apply C.detect | with_reducible apply C.wr

theorem Stable.leaveBoost {P : State → Prop} (C : Stable P) {s : State}  (hP : P s) :
    P (State.leaveBoost s) := by
  unfold State.leaveBoost
  repeat' first
    | with_reducible assumption | with_reducible apply pres_ite | with_reducible apply C.wr
    | with_reducible refine C.same (fun h => h) (fun h => h) (fun h => h) (fun h => h) (fun h => h) (fun h => h) (fun h => h) (fun h => h) (fun h => h) (fun h => h) (fun h => h) ?_
    | with_reducible refine C.same ?_ ?_ ?_ ?_ ?_ ?_ ?_ ?_ ?_ ?_ ?_ ?_ | exact fun h => h

end Sys2Proof.Machine
end

