-- ==== Sys2Proof/Laws/Stable/CellarOps.lean ====
section
/-!
SUPPORT. Laws/Stable/CellarOps.lean: what the operations of Machine/CellarOps.lean keep (Laws/Stable.lean).
-/

namespace Sys2Proof.Machine

set_option Elab.async false
set_option linter.unusedTactic false
set_option linter.unreachableTactic false

theorem Stable.showMap {P : State → Prop} (C : Stable P) {s : State}  (hP : P s) :
    P (State.showMap s) := by
  unfold State.showMap
  repeat' first
    | with_reducible assumption | with_reducible apply C.wr

theorem Stable.setEntry {P : State → Prop} (C : Stable P) {s : State} (g e : Nat) (hP : P s) :
    P (State.setEntry s g e) := by
  unfold State.setEntry
  repeat' first
    | with_reducible assumption | with_reducible apply C.showMap | with_reducible apply C.wr
    | with_reducible refine C.same (fun h => h) (fun h => h) (fun h => h) (fun h => h) (fun h => h) (fun h => h) (fun h => h) (fun h => h) (fun h => h) (fun h => h) (fun h => h) ?_
    | with_reducible refine C.same ?_ ?_ ?_ ?_ ?_ ?_ ?_ ?_ ?_ ?_ ?_ ?_ | exact fun h => h | exact NMap.wf_set _ _
    | (intro h; simp only [List.length_map]; exact h)

theorem Stable.releaseEntries {P : State → Prop} (C : Stable P) {s : State} (lo hi : Nat) (hP : P s) :
    P (State.releaseEntries s lo hi) := by
  unfold State.releaseEntries
  repeat' first
    | with_reducible assumption | with_reducible apply pres_ite | with_reducible apply pres_foldl
    | with_reducible apply C.showMap | with_reducible apply C.wr
    | with_reducible refine C.same (fun h => h) (fun h => h) (fun h => h) (fun h => h) (fun h => h) (fun h => h) (fun h => h) (fun h => h) (fun h => h) (fun h => h) (fun h => h) ?_
    | with_reducible refine C.same ?_ ?_ ?_ ?_ ?_ ?_ ?_ ?_ ?_ ?_ ?_ ?_ | exact fun h => h | exact NMap.wf_keep _
    | (intro h; simp only [List.length_map]; exact h) | (intro h; exact Nat.le_trans (List.length_filter_le _ _) h)
    | intro _

theorem Stable.putCodeword {P : State → Prop} (C : Stable P) {s : State} (a : Nat) (index typ : Nat) (poison : LineMask) (data : Memory) (hP : P s) :
    P (State.putCodeword s a index typ poison data) := by
  unfold State.putCodeword
  repeat' first
    | with_reducible assumption
    | with_reducible refine C.same (fun h => h) (fun h => h) (fun h => h) (fun h => h) (fun h => h) (fun h => h) (fun h => h) (fun h => h) (fun h => h) (fun h => h) (fun h => h) ?_
    | with_reducible refine C.same ?_ ?_ ?_ ?_ ?_ ?_ ?_ ?_ ?_ ?_ ?_ ?_ | exact fun h => h

theorem Stable.showZ {P : State → Prop} (C : Stable P) {s : State}  (hP : P s) :
    P (State.showZ s) := by
  unfold State.showZ
  repeat' first
    | with_reducible assumption | with_reducible apply pres_cond | with_reducible apply C.setCond
    | with_reducible apply C.wr | split
    | with_reducible refine C.same (fun h => h) (fun h => h) (fun h => h) (fun h => h) (fun h => h) (fun h => h) (fun h => h) (fun h => h) (fun h => h) (fun h => h) (fun h => h) ?_
    | with_reducible refine C.same ?_ ?_ ?_ ?_ ?_ ?_ ?_ ?_ ?_ ?_ ?_ ?_ | exact fun h => h
    | (intro h; exact Nat.le_trans (List.length_filter_le _ _) h) | intro _

theorem Stable.updGroup {P : State → Prop} (C : Stable P) {s : State} (id : Nat) (f : Group → Group) (hP : P s) :
    P (State.updGroup s id f) := by
  unfold State.updGroup
  repeat' first
    | with_reducible assumption | with_reducible apply pres_ite
    | with_reducible refine C.same (fun h => h) (fun h => h) (fun h => h) (fun h => h) (fun h => h) (fun h => h) (fun h => h) (fun h => h) (fun h => h) (fun h => h) (fun h => h) ?_
    | with_reducible refine C.same ?_ ?_ ?_ ?_ ?_ ?_ ?_ ?_ ?_ ?_ ?_ ?_ | exact fun h => h
    | (intro h; simp only [List.length_map]; exact h) | intro _

theorem Stable.closeBroken {P : State → Prop} (C : Stable P) {s : State}  (hP : P s) :
    P (State.closeBroken s) := by
  unfold State.closeBroken
  repeat' first
    | with_reducible assumption | with_reducible apply pres_ite
    | with_reducible refine C.same (fun h => h) (fun h => h) (fun h => h) (fun h => h) (fun h => h) (fun h => h) (fun h => h) (fun h => h) (fun h => h) (fun h => h) (fun h => h) ?_
    | with_reducible refine C.same ?_ ?_ ?_ ?_ ?_ ?_ ?_ ?_ ?_ ?_ ?_ ?_ | exact fun h => h | exact fun _ => rfl
    | exact fun _ => Nat.zero_le _ | (intro h; simp only [List.length_map]; exact h) | intro _

theorem Stable.eraseGroup {P : State → Prop} (C : Stable P) {s : State} (id : Nat) (hP : P s) :
    P (State.eraseGroup s id) := by
  unfold State.eraseGroup
  repeat' first
    | with_reducible assumption | with_reducible apply pres_ite | with_reducible apply C.showZ | split
    | with_reducible refine C.same (fun h => h) (fun h => h) (fun h => h) (fun h => h) (fun h => h) (fun h => h) (fun h => h) (fun h => h) (fun h => h) (fun h => h) (fun h => h) ?_
    | with_reducible refine C.same ?_ ?_ ?_ ?_ ?_ ?_ ?_ ?_ ?_ ?_ ?_ ?_ | exact fun h => h | exact fun _ => rfl
    | exact fun _ => Nat.zero_le _ | (intro h; simp only [List.length_map]; exact h)
    | (intro h; exact Nat.le_trans (List.length_filter_le _ _) h) | intro _

theorem Stable.noteProgram {P : State → Prop} (C : Stable P) {s : State} (a : Nat) (hP : P s) :
    P (State.noteProgram s a) := by
  unfold State.noteProgram
  repeat' first
    | with_reducible assumption | with_reducible apply pres_ite | with_reducible apply C.updGroup | split
    | with_reducible refine C.same (fun h => h) (fun h => h) (fun h => h) (fun h => h) (fun h => h) (fun h => h) (fun h => h) (fun h => h) (fun h => h) (fun h => h) (fun h => h) ?_
    | with_reducible refine C.same ?_ ?_ ?_ ?_ ?_ ?_ ?_ ?_ ?_ ?_ ?_ ?_ | exact fun h => h | intro _

theorem Stable.countUsed {P : State → Prop} (C : Stable P) {s : State} (n : Nat) (hP : P s) :
    P (State.countUsed s n) := by
  unfold State.countUsed
  repeat' first
    | with_reducible assumption
    | with_reducible refine C.same (fun h => h) (fun h => h) (fun h => h) (fun h => h) (fun h => h) (fun h => h) (fun h => h) (fun h => h) (fun h => h) (fun h => h) (fun h => h) ?_
    | with_reducible refine C.same ?_ ?_ ?_ ?_ ?_ ?_ ?_ ?_ ?_ ?_ ?_ ?_ | exact fun h => h

theorem Stable.countDone {P : State → Prop} (C : Stable P) {s : State} (n : Nat) (hP : P s) :
    P (State.countDone s n) := by
  unfold State.countDone
  repeat' first
    | with_reducible assumption
    | with_reducible refine C.same (fun h => h) (fun h => h) (fun h => h) (fun h => h) (fun h => h) (fun h => h) (fun h => h) (fun h => h) (fun h => h) (fun h => h) (fun h => h) ?_
    | with_reducible refine C.same ?_ ?_ ?_ ?_ ?_ ?_ ?_ ?_ ?_ ?_ ?_ ?_ | exact fun h => h

theorem Stable.putWraps {P : State → Prop} (C : Stable P) {s : State} (w : WrapCopy) (hP : P s) :
    P (State.putWraps s w) := by
  unfold State.putWraps
  repeat' first
    | with_reducible assumption
    | with_reducible refine C.same (fun h => h) (fun h => h) (fun h => h) (fun h => h) (fun h => h) (fun h => h) (fun h => h) (fun h => h) (fun h => h) (fun h => h) (fun h => h) ?_
    | with_reducible refine C.same ?_ ?_ ?_ ?_ ?_ ?_ ?_ ?_ ?_ ?_ ?_ ?_ | exact fun h => h

theorem Stable.moveWraps {P : State → Prop} (C : Stable P) {s : State} (chan : Nat) (hP : P s) :
    P (State.moveWraps s chan) := by
  unfold State.moveWraps
  repeat' first
    | with_reducible assumption | with_reducible apply pres_ite
    | with_reducible refine C.same (fun h => h) (fun h => h) (fun h => h) (fun h => h) (fun h => h) (fun h => h) (fun h => h) (fun h => h) (fun h => h) (fun h => h) (fun h => h) ?_
    | with_reducible refine C.same ?_ ?_ ?_ ?_ ?_ ?_ ?_ ?_ ?_ ?_ ?_ ?_ | exact fun h => h | intro _

theorem Stable.showImage {P : State → Prop} (C : Stable P) {s : State}  (hP : P s) :
    P (State.showImage s) := by
  unfold State.showImage
  repeat' first
    | with_reducible assumption | with_reducible apply C.wr

end Sys2Proof.Machine
end

