-- ==== Sys2Proof/Laws/Stable/MemOps.lean ====
section
/-!
SUPPORT. Laws/Stable/MemOps.lean: what the operations of Machine/MemOps.lean keep (Laws/Stable.lean).
-/

namespace Sys2Proof.Machine

set_option Elab.async false
set_option linter.unusedTactic false
set_option linter.unreachableTactic false

theorem Stable.noteOwed {P : State → Prop} (C : Stable P) {s : State} (t : Nat) (a : RSet) (hP : P s) :
    P (State.noteOwed s t a) := by
  unfold State.noteOwed
  repeat' first
    | with_reducible assumption
    | with_reducible refine C.same (fun h => h) (fun h => h) (fun h => h) (fun h => h) (fun h => h) (fun h => h) (fun h => h) (fun h => h) (fun h => h) (fun h => h) (fun h => h) ?_
    | with_reducible refine C.same ?_ ?_ ?_ ?_ ?_ ?_ ?_ ?_ ?_ ?_ ?_ ?_ | exact fun h => h

theorem Stable.setDebt {P : State → Prop} (C : Stable P) {s : State} (t : Nat) (d : RSet) (hP : P s) :
    P (State.setDebt s t d) := by
  unfold State.setDebt
  repeat' first
    | with_reducible assumption | with_reducible apply pres_ite | with_reducible apply C.noteOwed
    | with_reducible apply C.wr
    | with_reducible refine C.same (fun h => h) (fun h => h) (fun h => h) (fun h => h) (fun h => h) (fun h => h) (fun h => h) (fun h => h) (fun h => h) (fun h => h) (fun h => h) ?_
    | with_reducible refine C.same ?_ ?_ ?_ ?_ ?_ ?_ ?_ ?_ ?_ ?_ ?_ ?_ | exact fun h => h

theorem Stable.debtMark {P : State → Prop} (C : Stable P) {s : State} (r : Nat) (hP : P s) :
    P (State.debtMark s r) := by
  unfold State.debtMark
  repeat' first
    | with_reducible assumption | with_reducible apply pres_cond | with_reducible apply pres_ite
    | with_reducible apply C.setDebt | with_reducible apply C.wr
    | with_reducible refine C.same (fun h => h) (fun h => h) (fun h => h) (fun h => h) (fun h => h) (fun h => h) (fun h => h) (fun h => h) (fun h => h) (fun h => h) (fun h => h) ?_
    | with_reducible refine C.same ?_ ?_ ?_ ?_ ?_ ?_ ?_ ?_ ?_ ?_ ?_ ?_ | exact fun h => h
    | (intro h; simp only [List.length_map]; exact h) | intro _

theorem Stable.wrote {P : State → Prop} (C : Stable P) {s : State} (g : Nat) (hP : P s) :
    P (State.wrote s g) := by
  unfold State.wrote
  repeat' first
    | with_reducible assumption | with_reducible apply C.markDirty | with_reducible apply C.debtMark

theorem Stable.wroteRange {P : State → Prop} (C : Stable P) {s : State} (lo hi : Nat) (hP : P s) :
    P (State.wroteRange s lo hi) := by
  unfold State.wroteRange
  repeat' first
    | with_reducible assumption | with_reducible apply pres_ite | with_reducible apply pres_foldl
    | with_reducible apply C.markRange | with_reducible apply C.debtMark | intro _

theorem Stable.showPoison {P : State → Prop} (C : Stable P) {s : State} (p : Nat) (hP : P s) :
    P (State.showPoison s p) := by
  unfold State.showPoison
  repeat' first
    | with_reducible assumption | with_reducible apply C.wr

theorem Stable.listAt {P : State → Prop} (C : Stable P) {s : State} (g : Nat) (whole : Bool) (lines : LineMask) (p : Nat) (hP : P s) :
    P (State.listAt s g whole lines p) := by
  unfold State.listAt
  repeat' first
    | with_reducible assumption | with_reducible apply pres_cond | with_reducible apply pres_ite
    | with_reducible apply C.setHost | with_reducible apply C.detect | with_reducible apply C.showPoison
    | with_reducible apply C.wr
    | with_reducible refine C.same (fun h => h) (fun h => h) (fun h => h) (fun h => h) (fun h => h) (fun h => h) (fun h => h) (fun h => h) (fun h => h) (fun h => h) (fun h => h) ?_
    | with_reducible refine C.same ?_ ?_ ?_ ?_ ?_ ?_ ?_ ?_ ?_ ?_ ?_ ?_ | exact fun h => h
    | (intro h; simp only [List.length_map]; exact h) | (intro h; exact Nat.le_trans (List.length_filter_le _ _) h)
    | intro _

theorem Stable.listPoison {P : State → Prop} (C : Stable P) {s : State} (g : Nat) (whole : Bool) (lines : LineMask) (hP : P s) :
    P (State.listPoison s g whole lines) := by
  unfold State.listPoison
  repeat' first
    | with_reducible assumption | with_reducible apply pres_foldl | with_reducible apply C.listAt | intro _

theorem Stable.unlistLine {P : State → Prop} (C : Stable P) {s : State} (g l : Nat) (hP : P s) : P (s.unlistLine g l) := by
  unfold State.unlistLine
  refine pres_each hP (fun t p ht => pres_ite ?_ ht)
  exact C.showPoison _ (C.setHost (fun h => h) ht)

theorem Stable.setPoison {P : State → Prop} (C : Stable P) {s : State} (g l : Nat) (on : Bool) (hP : P s) :
    P (State.setPoison s g l on) := by
  unfold State.setPoison
  repeat' first
    | with_reducible assumption | with_reducible apply pres_ite | with_reducible apply C.listPoison
    | with_reducible apply C.unlistLine
    | with_reducible refine C.same (fun h => h) (fun h => h) (fun h => h) (fun h => h) (fun h => h) (fun h => h) (fun h => h) (fun h => h) (fun h => h) (fun h => h) (fun h => h) ?_
    | with_reducible refine C.same ?_ ?_ ?_ ?_ ?_ ?_ ?_ ?_ ?_ ?_ ?_ ?_ | exact fun h => h

theorem Stable.storeLine {P : State → Prop} (C : Stable P) {s : State} (g l : Nat) (data : Memory) (poison : Bool) (hP : P s) :
    P (State.storeLine s g l data poison) := by
  unfold State.storeLine
  repeat' first
    | with_reducible assumption | with_reducible apply C.setPoison
    | with_reducible refine C.same (fun h => h) (fun h => h) (fun h => h) (fun h => h) (fun h => h) (fun h => h) (fun h => h) (fun h => h) (fun h => h) (fun h => h) (fun h => h) ?_
    | with_reducible refine C.same ?_ ?_ ?_ ?_ ?_ ?_ ?_ ?_ ?_ ?_ ?_ ?_ | exact fun h => h | exact Memory.wf_paste _ _ _

theorem Stable.showSteep {P : State → Prop} (C : Stable P) {s : State}  (hP : P s) :
    P (State.showSteep s) := by
  unfold State.showSteep
  repeat' first
    | with_reducible assumption | with_reducible apply C.wr

theorem Stable.maskLine {P : State → Prop} (C : Stable P) {s : State} (g l : Nat) (hP : P s) :
    P (State.maskLine s g l) := by
  unfold State.maskLine
  repeat' first
    | with_reducible assumption | with_reducible apply pres_ite | with_reducible apply C.showSteep
    | with_reducible refine C.same (fun h => h) (fun h => h) (fun h => h) (fun h => h) (fun h => h) (fun h => h) (fun h => h) (fun h => h) (fun h => h) (fun h => h) (fun h => h) ?_
    | with_reducible refine C.same ?_ ?_ ?_ ?_ ?_ ?_ ?_ ?_ ?_ ?_ ?_ ?_ | exact fun h => h | exact NMap.wf_set _ _

theorem Stable.maskAll {P : State → Prop} (C : Stable P) {s : State} (g : Nat) (hP : P s) :
    P (State.maskAll s g) := by
  unfold State.maskAll
  repeat' first
    | with_reducible assumption | with_reducible apply pres_ite | with_reducible apply C.showSteep
    | with_reducible refine C.same (fun h => h) (fun h => h) (fun h => h) (fun h => h) (fun h => h) (fun h => h) (fun h => h) (fun h => h) (fun h => h) (fun h => h) (fun h => h) ?_
    | with_reducible refine C.same ?_ ?_ ?_ ?_ ?_ ?_ ?_ ?_ ?_ ?_ ?_ ?_ | exact fun h => h | exact NMap.wf_set _ _

theorem Stable.writeLine {P : State → Prop} (C : Stable P) {s : State} (g l : Nat) (data : Memory) (poison : Bool) (hP : P s) :
    P (State.writeLine s g l data poison) := by
  unfold State.writeLine
  repeat' first
    | with_reducible assumption | with_reducible apply C.wrote | with_reducible apply C.storeLine
    | with_reducible apply C.maskLine

theorem Memory.wf_foldl_setByte {α : Type} (l : List α) (a : α → Nat) (v : α → Byte) {m : Memory} (h : m.wf = true) :
    Memory.wf (l.foldl (fun (m : Memory) (e : α) => m.setByte (a e) (v e)) m) = true := by
  induction l generalizing m with
  | nil => exact h
  | cons e t ih => exact ih (Memory.wf_setByte _ _ h)

theorem Stable.mergeBytes {P : State → Prop} (C : Stable P) {s : State} (g l : Nat) (bytes : List (Nat × Byte)) (hP : P s) :
    P (s.mergeBytes g l bytes) :=
  C.same (fun h => h) (fun h => h) (fun h => h) (fun h => Memory.wf_foldl_setByte _ _ _ h) (fun h => h) (fun h => h) (fun h => h) (fun h => h) (fun h => h) (fun h => h) (fun h => h) hP

theorem Stable.raiseFill {P : State → Prop} (C : Stable P) {s : State} (g : Nat) (held : List (Nat × Nat × Nat)) (hP : P s) :
    P (State.raiseFill s g held) := by
  unfold State.raiseFill
  repeat' first
    | with_reducible assumption | with_reducible apply pres_ite
    | with_reducible refine C.same (fun h => h) (fun h => h) (fun h => h) (fun h => h) (fun h => h) (fun h => h) (fun h => h) (fun h => h) (fun h => h) (fun h => h) (fun h => h) ?_
    | with_reducible refine C.same ?_ ?_ ?_ ?_ ?_ ?_ ?_ ?_ ?_ ?_ ?_ ?_ | exact fun h => h
    | (intro h; simp only [List.length_map]; exact h) | intro _

theorem Stable.admitFills {P : State → Prop} (C : Stable P) {s : State}  (hP : P s) :
    P (State.admitFills s) := by
  unfold State.admitFills
  repeat' first
    | with_reducible assumption
    | with_reducible refine C.same (fun h => h) (fun h => h) (fun h => h) (fun h => h) (fun h => h) (fun h => h) (fun h => h) (fun h => h) (fun h => h) (fun h => h) (fun h => h) ?_
    | with_reducible refine C.same ?_ ?_ ?_ ?_ ?_ ?_ ?_ ?_ ?_ ?_ ?_ ?_ | exact fun h => h

theorem Stable.respond {P : State → Prop} (C : Stable P) {s : State} (p : Nat) (o : Output) (hP : P s) :
    P (State.respond s p o) := by
  unfold State.respond
  repeat' first
    | with_reducible assumption | with_reducible apply C.send | with_reducible apply C.wr

theorem Stable.answerRead {P : State → Prop} (C : Stable P) {s : State} (port tag g l : Nat) (hP : P s) :
    P (State.answerRead s port tag g l) := by
  unfold State.answerRead
  repeat' first
    | with_reducible assumption | with_reducible apply pres_ite | with_reducible apply C.respond

theorem Stable.finishWrite {P : State → Prop} (C : Stable P) {s : State} (w : HeldWrite) (hP : P s) :
    P (State.finishWrite s w) := by
  unfold State.finishWrite
  repeat' first
    | with_reducible assumption | with_reducible apply pres_ite | with_reducible apply C.reply
    | with_reducible apply C.wrote | with_reducible apply C.storeLine | with_reducible apply C.mergeBytes
    | with_reducible apply C.respond | with_reducible apply C.answerRead

theorem Stable.answerOld {P : State → Prop} (C : Stable P) {s : State} (data : Memory) (poison : LineMask) (h : Nat × Nat × Nat) (hP : P s) :
    P (State.answerOld s data poison h) := by
  unfold State.answerOld
  repeat' first
    | with_reducible assumption | with_reducible apply pres_ite | with_reducible apply C.respond

theorem Stable.answerOvertaken {P : State → Prop} (C : Stable P) {s : State} (g : Nat) (data : Memory) (poison : LineMask) (hP : P s) :
    P (State.answerOvertaken s g data poison) := by
  unfold State.answerOvertaken
  repeat' first
    | with_reducible assumption | with_reducible apply pres_ite | with_reducible apply pres_foldl
    | with_reducible apply C.answerOld
    | with_reducible refine C.same (fun h => h) (fun h => h) (fun h => h) (fun h => h) (fun h => h) (fun h => h) (fun h => h) (fun h => h) (fun h => h) (fun h => h) (fun h => h) ?_
    | with_reducible refine C.same ?_ ?_ ?_ ?_ ?_ ?_ ?_ ?_ ?_ ?_ ?_ ?_ | exact fun h => h
    | (intro h; simp only [List.length_map]; exact h) | (intro h; exact Nat.le_trans (List.length_filter_le _ _) h)
    | intro _

theorem Stable.fillGranule {P : State → Prop} (C : Stable P) {s : State} (g : Nat) (data : Memory) (poison : LineMask) (lost : Bool) (hP : P s) :
    P (State.fillGranule s g data poison lost) := by
  unfold State.fillGranule
  repeat' first
    | with_reducible assumption | with_reducible apply pres_cond | with_reducible apply pres_ite
    | with_reducible apply pres_foldl | with_reducible apply C.listPoison | with_reducible apply C.showSteep
    | with_reducible apply C.answerOvertaken
    | with_reducible refine C.same (fun h => h) (fun h => h) (fun h => h) (fun h => h) (fun h => h) (fun h => h) (fun h => h) (fun h => h) (fun h => h) (fun h => h) (fun h => h) ?_
    | with_reducible refine C.same ?_ ?_ ?_ ?_ ?_ ?_ ?_ ?_ ?_ ?_ ?_ ?_ | exact fun h => h | exact NMap.wf_keep _
    | exact NMap.wf_set _ _ | exact Memory.wf_paste _ _ _ | (intro h; exact Nat.le_trans (List.length_filter_le _ _) h)
    | intro _

theorem Stable.endFill {P : State → Prop} (C : Stable P) {s : State} (g : Nat) (hP : P s) :
    P (State.endFill s g) := by
  unfold State.endFill
  repeat' first
    | with_reducible assumption | with_reducible apply pres_foldl | with_reducible apply C.admitFills
    | with_reducible apply C.answerRead | with_reducible apply C.finishWrite
    | with_reducible refine C.same (fun h => h) (fun h => h) (fun h => h) (fun h => h) (fun h => h) (fun h => h) (fun h => h) (fun h => h) (fun h => h) (fun h => h) (fun h => h) ?_
    | with_reducible refine C.same ?_ ?_ ?_ ?_ ?_ ?_ ?_ ?_ ?_ ?_ ?_ ?_ | exact fun h => h
    | (intro h; simp only [List.length_map]; exact h) | (intro h; exact Nat.le_trans (List.length_filter_le _ _) h)
    | intro _

theorem Stable.dirCheckpoint {P : State → Prop} (C : Stable P) {s : State}  (hP : P s) :
    P (State.dirCheckpoint s) := by
  unfold State.dirCheckpoint
  repeat' first
    | with_reducible assumption
    | with_reducible refine C.same (fun h => h) (fun h => h) (fun h => h) (fun h => h) (fun h => h) (fun h => h) (fun h => h) (fun h => h) (fun h => h) (fun h => h) (fun h => h) ?_
    | with_reducible refine C.same ?_ ?_ ?_ ?_ ?_ ?_ ?_ ?_ ?_ ?_ ?_ ?_ | exact fun h => h

theorem Stable.steepCheck {P : State → Prop} (C : Stable P) {s : State}  (hP : P s) :
    P (State.steepCheck s) := by
  unfold State.steepCheck
  repeat' first
    | with_reducible assumption | with_reducible apply pres_ite | with_reducible apply C.vendor
    | with_reducible apply C.dirCheckpoint | with_reducible apply C.wr

end Sys2Proof.Machine
end

