-- ==== Sys2Proof/Laws/Stable/QueueOps.lean ====
section
/-!
SUPPORT. Laws/Stable/QueueOps.lean: what the operations of Machine/QueueOps.lean keep (Laws/Stable.lean).
-/

namespace Sys2Proof.Machine

set_option Elab.async false
set_option linter.unusedTactic false
set_option linter.unreachableTactic false

theorem Stable.setQueue {P : State → Prop} (C : Stable P) {s : State} (c : Queue) (hP : P s) :
    P (State.setQueue s c) := by
  unfold State.setQueue
  repeat' first
    | with_reducible assumption
    | with_reducible refine C.same (fun h => h) (fun h => h) (fun h => h) (fun h => h) (fun h => h) (fun h => h) (fun h => h) (fun h => h) (fun h => h) (fun h => h) (fun h => h) ?_
    | with_reducible refine C.same ?_ ?_ ?_ ?_ ?_ ?_ ?_ ?_ ?_ ?_ ?_ ?_ | exact fun h => h

theorem Stable.mapQueues {P : State → Prop} (C : Stable P) {s : State} (f : Queue → Queue) (hP : P s) :
    P (State.mapQueues s f) := by
  unfold State.mapQueues
  repeat' first
    | with_reducible assumption
    | with_reducible refine C.same (fun h => h) (fun h => h) (fun h => h) (fun h => h) (fun h => h) (fun h => h) (fun h => h) (fun h => h) (fun h => h) (fun h => h) (fun h => h) ?_
    | with_reducible refine C.same ?_ ?_ ?_ ?_ ?_ ?_ ?_ ?_ ?_ ?_ ?_ ?_ | exact fun h => h
    | (intro h; simp only [List.length_map]; exact h)

theorem Stable.showQueues {P : State → Prop} (C : Stable P) {s : State}  (hP : P s) :
    P (State.showQueues s) := by
  unfold State.showQueues
  repeat' first
    | with_reducible assumption | with_reducible apply C.wr | intro _

theorem Stable.useContext {P : State → Prop} (C : Stable P) {s : State} (q : Nat) (hP : P s) :
    P (State.useContext s q) := by
  unfold State.useContext
  repeat' first
    | with_reducible assumption | with_reducible apply pres_cond | with_reducible apply C.inc
    | with_reducible apply C.wr
    | with_reducible refine C.same (fun h => h) (fun h => h) (fun h => h) (fun h => h) (fun h => h) (fun h => h) (fun h => h) (fun h => h) (fun h => h) (fun h => h) (fun h => h) ?_
    | with_reducible refine C.same ?_ ?_ ?_ ?_ ?_ ?_ ?_ ?_ ?_ ?_ ?_ ?_ | exact fun h => h
    | (intro h; exact Nat.le_trans (List.length_filter_le _ _) h) | intro _

theorem Stable.served {P : State → Prop} (C : Stable P) {s : State} (c q : Nat) (fresh : Bool) (hP : P s) :
    P (State.served s c q fresh) := by
  unfold State.served
  repeat' first
    | with_reducible assumption | with_reducible apply pres_ite
    | with_reducible refine C.same (fun h => h) (fun h => h) (fun h => h) (fun h => h) (fun h => h) (fun h => h) (fun h => h) (fun h => h) (fun h => h) (fun h => h) (fun h => h) ?_
    | with_reducible refine C.same ?_ ?_ ?_ ?_ ?_ ?_ ?_ ?_ ?_ ?_ ?_ ?_ | exact fun h => h | exact NMap.wf_set _ _

theorem Stable.startQueue {P : State → Prop} (C : Stable P) {s : State} (q : Nat) (hP : P s) :
    P (State.startQueue s q) := by
  unfold State.startQueue
  repeat' first
    | with_reducible assumption | with_reducible apply pres_ite | with_reducible apply C.setQueue
    | with_reducible refine C.same (fun h => h) (fun h => h) (fun h => h) (fun h => h) (fun h => h) (fun h => h) (fun h => h) (fun h => h) (fun h => h) (fun h => h) (fun h => h) ?_
    | with_reducible refine C.same ?_ ?_ ?_ ?_ ?_ ?_ ?_ ?_ ?_ ?_ ?_ ?_ | exact fun h => h

theorem Stable.setCmd {P : State → Prop} (C : Stable P) {s : State} (q : Nat) (k : RunCmd) (hP : P s) :
    P (State.setCmd s q k) := by
  unfold State.setCmd
  repeat' first
    | with_reducible assumption | with_reducible apply pres_ite | with_reducible apply C.setQueue
    | with_reducible refine C.same (fun h => h) (fun h => h) (fun h => h) (fun h => h) (fun h => h) (fun h => h) (fun h => h) (fun h => h) (fun h => h) (fun h => h) (fun h => h) ?_
    | with_reducible refine C.same ?_ ?_ ?_ ?_ ?_ ?_ ?_ ?_ ?_ ?_ ?_ ?_ | exact fun h => h
    | (intro h; simp only [List.length_map]; exact h) | intro _

theorem Stable.vectorCause {P : State → Prop} (C : Stable P) {s : State} (port vec : Nat) (hP : P s) :
    P (State.vectorCause s port vec) := by
  unfold State.vectorCause
  repeat' first
    | with_reducible assumption | with_reducible apply pres_ite | with_reducible apply C.msix
    | with_reducible refine C.same (fun h => h) (fun h => h) (fun h => h) (fun h => h) (fun h => h) (fun h => h) (fun h => h) (fun h => h) (fun h => h) (fun h => h) (fun h => h) ?_
    | with_reducible refine C.same ?_ ?_ ?_ ?_ ?_ ?_ ?_ ?_ ?_ ?_ ?_ ?_ | exact fun h => h | exact NMap.wf_set _ _

theorem Stable.postCompletion {P : State → Prop} (C : Stable P) {s : State} (q : Nat) (d : Completion) (hP : P s) :
    P (State.postCompletion s q d) := by
  unfold State.postCompletion
  repeat' first
    | with_reducible assumption | with_reducible apply pres_cond | with_reducible apply pres_ite
    | with_reducible apply C.bump | with_reducible apply C.send | with_reducible apply C.setQueue
    | with_reducible apply C.vectorCause
    | with_reducible refine C.same (fun h => h) (fun h => h) (fun h => h) (fun h => h) (fun h => h) (fun h => h) (fun h => h) (fun h => h) (fun h => h) (fun h => h) (fun h => h) ?_
    | with_reducible refine C.same ?_ ?_ ?_ ?_ ?_ ?_ ?_ ?_ ?_ ?_ ?_ ?_ | exact fun h => h | intro _

theorem Stable.settleQueue {P : State → Prop} (C : Stable P) {s : State} (q : Nat) (hP : P s) :
    P (State.settleQueue s q) := by
  unfold State.settleQueue
  repeat' first
    | with_reducible assumption | with_reducible apply pres_cond | with_reducible apply C.setQueue
    | with_reducible refine C.same (fun h => h) (fun h => h) (fun h => h) (fun h => h) (fun h => h) (fun h => h) (fun h => h) (fun h => h) (fun h => h) (fun h => h) (fun h => h) ?_
    | with_reducible refine C.same ?_ ?_ ?_ ?_ ?_ ?_ ?_ ?_ ?_ ?_ ?_ ?_ | exact fun h => h | intro _

theorem Stable.complete {P : State → Prop} (C : Stable P) {s : State} (q : Nat) (k : RunCmd) (st : Nat) (hP : P s) :
    P (State.complete s q k st) := by
  unfold State.complete
  repeat' first
    | with_reducible assumption | with_reducible apply pres_ite | with_reducible apply C.inc
    | with_reducible apply C.setQueue | with_reducible apply C.startQueue | with_reducible apply C.postCompletion
    | with_reducible apply C.settleQueue
    | with_reducible refine C.same (fun h => h) (fun h => h) (fun h => h) (fun h => h) (fun h => h) (fun h => h) (fun h => h) (fun h => h) (fun h => h) (fun h => h) (fun h => h) ?_
    | with_reducible refine C.same ?_ ?_ ?_ ?_ ?_ ?_ ?_ ?_ ?_ ?_ ?_ ?_ | exact fun h => h
    | (intro h; exact Nat.le_trans (List.length_filter_le _ _) h) | intro _

theorem Stable.releaseHeld {P : State → Prop} (C : Stable P) {s : State} (q : Nat) (hP : P s) : ∀ k, P (s.releaseHeld q k) := by
  intro k
  induction k generalizing s with
  | zero => exact hP
  | succ k ih =>
    unfold State.releaseHeld
    simp only
    split
    · exact C.setQueue _ hP
    · split
      · exact ih (C.postCompletion _ _ (C.setQueue _ hP))
      · exact hP

theorem Stable.mapFences {P : State → Prop} (C : Stable P) {s : State} (f : RunCmd → RunCmd) (hP : P s) :
    P (State.mapFences s f) := by
  unfold State.mapFences
  repeat' first
    | with_reducible assumption | with_reducible apply pres_ite | with_reducible apply C.mapQueues
    | with_reducible refine C.same (fun h => h) (fun h => h) (fun h => h) (fun h => h) (fun h => h) (fun h => h) (fun h => h) (fun h => h) (fun h => h) (fun h => h) (fun h => h) ?_
    | with_reducible refine C.same ?_ ?_ ?_ ?_ ?_ ?_ ?_ ?_ ?_ ?_ ?_ ?_ | exact fun h => h
    | (intro h; simp only [List.length_map]; exact h) | intro _

theorem Stable.fenceCommit {P : State → Prop} (C : Stable P) {s : State} (g : Nat) (hP : P s) :
    P (State.fenceCommit s g) := by
  unfold State.fenceCommit
  repeat' first
    | with_reducible assumption | with_reducible apply pres_ite | with_reducible apply C.mapFences
    | with_reducible refine C.same (fun h => h) (fun h => h) (fun h => h) (fun h => h) (fun h => h) (fun h => h) (fun h => h) (fun h => h) (fun h => h) (fun h => h) (fun h => h) ?_
    | with_reducible refine C.same ?_ ?_ ?_ ?_ ?_ ?_ ?_ ?_ ?_ ?_ ?_ ?_ | exact fun h => h
    | (intro h; simp only [List.length_map]; exact h) | intro _

theorem Stable.fenceClean {P : State → Prop} (C : Stable P) {s : State} (lo hi : Nat) (hP : P s) :
    P (State.fenceClean s lo hi) := by
  unfold State.fenceClean
  repeat' first
    | with_reducible assumption | with_reducible apply C.mapFences
    | with_reducible refine C.same (fun h => h) (fun h => h) (fun h => h) (fun h => h) (fun h => h) (fun h => h) (fun h => h) (fun h => h) (fun h => h) (fun h => h) (fun h => h) ?_
    | with_reducible refine C.same ?_ ?_ ?_ ?_ ?_ ?_ ?_ ?_ ?_ ?_ ?_ ?_ | exact fun h => h
    | (intro h; simp only [List.length_map]; exact h) | intro _

theorem Stable.fenceGiveUp {P : State → Prop} (C : Stable P) {s : State} (g : Nat) (hP : P s) :
    P (State.fenceGiveUp s g) := by
  unfold State.fenceGiveUp
  repeat' first
    | with_reducible assumption | with_reducible apply pres_ite | with_reducible apply C.mapFences
    | with_reducible refine C.same (fun h => h) (fun h => h) (fun h => h) (fun h => h) (fun h => h) (fun h => h) (fun h => h) (fun h => h) (fun h => h) (fun h => h) (fun h => h) ?_
    | with_reducible refine C.same ?_ ?_ ?_ ?_ ?_ ?_ ?_ ?_ ?_ ?_ ?_ ?_ | exact fun h => h
    | (intro h; simp only [List.length_map]; exact h) | intro _

theorem Stable.fenceFlushed {P : State → Prop} (C : Stable P) {s : State}  (hP : P s) :
    P (State.fenceFlushed s) := by
  unfold State.fenceFlushed
  repeat' first
    | with_reducible assumption | with_reducible apply C.mapFences

theorem Stable.freezeQueues {P : State → Prop} (C : Stable P) {s : State}  (hP : P s) :
    P (State.freezeQueues s) := by
  unfold State.freezeQueues
  repeat' first
    | with_reducible assumption | with_reducible apply pres_ite | with_reducible apply C.mapQueues
    | with_reducible apply C.showQueues
    | with_reducible refine C.same (fun h => h) (fun h => h) (fun h => h) (fun h => h) (fun h => h) (fun h => h) (fun h => h) (fun h => h) (fun h => h) (fun h => h) (fun h => h) ?_
    | with_reducible refine C.same ?_ ?_ ?_ ?_ ?_ ?_ ?_ ?_ ?_ ?_ ?_ ?_ | exact fun h => h
    | (intro h; simp only [List.length_map]; exact h) | intro _

theorem Stable.dropPortQueues {P : State → Prop} (C : Stable P) {s : State} (p : Nat) (hP : P s) :
    P (State.dropPortQueues s p) := by
  unfold State.dropPortQueues
  repeat' first
    | with_reducible assumption | with_reducible apply pres_ite | with_reducible apply C.mapQueues
    | with_reducible apply C.showQueues
    | with_reducible refine C.same (fun h => h) (fun h => h) (fun h => h) (fun h => h) (fun h => h) (fun h => h) (fun h => h) (fun h => h) (fun h => h) (fun h => h) (fun h => h) ?_
    | with_reducible refine C.same ?_ ?_ ?_ ?_ ?_ ?_ ?_ ?_ ?_ ?_ ?_ ?_ | exact fun h => h
    | (intro h; simp only [List.length_map]; exact h) | intro _

theorem Stable.abortCmds {P : State → Prop} (C : Stable P) {s : State} (q : Nat) (hP : P s) :
    P (State.abortCmds s q) := by
  unfold State.abortCmds
  repeat' first
    | with_reducible assumption | with_reducible apply pres_ite | with_reducible apply pres_foldl
    | with_reducible apply C.setQueue | with_reducible apply C.complete
    | with_reducible refine C.same (fun h => h) (fun h => h) (fun h => h) (fun h => h) (fun h => h) (fun h => h) (fun h => h) (fun h => h) (fun h => h) (fun h => h) (fun h => h) ?_
    | with_reducible refine C.same ?_ ?_ ?_ ?_ ?_ ?_ ?_ ?_ ?_ ?_ ?_ ?_ | exact fun h => h
    | (intro h; simp only [List.length_map]; exact h) | intro _

theorem Stable.disableQueue {P : State → Prop} (C : Stable P) {s : State} (q : Nat) (hP : P s) :
    P (State.disableQueue s q) := by
  unfold State.disableQueue
  repeat' first
    | with_reducible assumption | with_reducible apply pres_ite | with_reducible apply C.setQueue
    | with_reducible apply C.showQueues | with_reducible apply C.settleQueue | with_reducible apply C.abortCmds
    | with_reducible refine C.same (fun h => h) (fun h => h) (fun h => h) (fun h => h) (fun h => h) (fun h => h) (fun h => h) (fun h => h) (fun h => h) (fun h => h) (fun h => h) ?_
    | with_reducible refine C.same ?_ ?_ ?_ ?_ ?_ ?_ ?_ ?_ ?_ ?_ ?_ ?_ | exact fun h => h

theorem Stable.faultQueue {P : State → Prop} (C : Stable P) {s : State} (q : Nat) (hP : P s) :
    P (State.faultQueue s q) := by
  unfold State.faultQueue
  repeat' first
    | with_reducible assumption | with_reducible apply C.inc | with_reducible apply C.setQueue
    | with_reducible apply C.wr
    | with_reducible refine C.same (fun h => h) (fun h => h) (fun h => h) (fun h => h) (fun h => h) (fun h => h) (fun h => h) (fun h => h) (fun h => h) (fun h => h) (fun h => h) ?_
    | with_reducible refine C.same ?_ ?_ ?_ ?_ ?_ ?_ ?_ ?_ ?_ ?_ ?_ ?_ | exact fun h => h

end Sys2Proof.Machine
end

