-- ==== Sys2Proof/Laws/Stable/SeqOps.lean ====
section
/-!
SUPPORT. Laws/Stable/SeqOps.lean: what the operations of Machine/SeqOps.lean keep (Laws/Stable.lean).
-/

namespace Sys2Proof.Machine

set_option Elab.async false
set_option linter.unusedTactic false
set_option linter.unreachableTactic false

theorem Stable.armCdl {P : State → Prop} (C : Stable P) {s : State} (n target : Nat) (hP : P s) :
    P (State.armCdl s n target) := by
  unfold State.armCdl
  repeat' first
    | with_reducible assumption | with_reducible apply pres_ite | with_reducible apply C.wr

theorem Stable.disarmCdl {P : State → Prop} (C : Stable P) {s : State} (n : Nat) (hP : P s) :
    P (State.disarmCdl s n) := by
  unfold State.disarmCdl
  repeat' first
    | with_reducible assumption | with_reducible apply C.wr

theorem Stable.showMargins {P : State → Prop} (C : Stable P) {s : State}  (hP : P s) :
    P (State.showMargins s) := by
  unfold State.showMargins
  repeat' first
    | with_reducible assumption | with_reducible apply pres_cond | with_reducible apply C.setCond
    | with_reducible apply C.wr | intro _

theorem Stable.dropMargin {P : State → Prop} (C : Stable P) {s : State} (i : Nat) (hP : P s) :
    P (State.dropMargin s i) := by
  unfold State.dropMargin
  repeat' first
    | with_reducible assumption | with_reducible apply C.wr

theorem Stable.dropMargins {P : State → Prop} (C : Stable P) {s : State}  (hP : P s) :
    P (State.dropMargins s) := by
  unfold State.dropMargins
  repeat' first
    | with_reducible assumption | with_reducible apply pres_each | with_reducible apply C.showMargins
    | with_reducible apply C.dropMargin | intro _

theorem Stable.easeMargins {P : State → Prop} (C : Stable P) {s : State}  (hP : P s) :
    P (State.easeMargins s) := by
  unfold State.easeMargins
  repeat' first
    | with_reducible assumption | with_reducible apply pres_each | with_reducible apply C.wr | intro _

theorem Stable.setEnables {P : State → Prop} (C : Stable P) {s : State} (mask : Nat) (hP : P s) :
    P (State.setEnables s mask) := by
  unfold State.setEnables
  repeat' first
    | with_reducible assumption | with_reducible apply pres_ite | with_reducible apply pres_foldl
    | with_reducible apply C.wr
    | with_reducible refine C.same (fun h => h) (fun h => h) (fun h => h) (fun h => h) (fun h => h) (fun h => h) (fun h => h) (fun h => h) (fun h => h) (fun h => h) (fun h => h) ?_
    | with_reducible refine C.same ?_ ?_ ?_ ?_ ?_ ?_ ?_ ?_ ?_ ?_ ?_ ?_ | exact fun h => h | intro _

theorem Stable.ranksOff {P : State → Prop} (C : Stable P) {s : State} (mask : Nat) (hP : P s) :
    P (State.ranksOff s mask) := by
  unfold State.ranksOff
  repeat' first
    | with_reducible assumption | with_reducible apply pres_cond | with_reducible apply pres_each
    | with_reducible apply C.wr | intro _

theorem Stable.clrEnables {P : State → Prop} (C : Stable P) {s : State} (mask : Nat) (hP : P s) :
    P (State.clrEnables s mask) := by
  unfold State.clrEnables
  repeat' first
    | with_reducible assumption | with_reducible apply pres_cond | with_reducible apply pres_ite
    | with_reducible apply pres_foldl | with_reducible apply C.ranksOff | with_reducible apply C.wr
    | with_reducible refine C.same (fun h => h) (fun h => h) (fun h => h) (fun h => h) (fun h => h) (fun h => h) (fun h => h) (fun h => h) (fun h => h) (fun h => h) (fun h => h) ?_
    | with_reducible refine C.same ?_ ?_ ?_ ?_ ?_ ?_ ?_ ?_ ?_ ?_ ?_ ?_ | exact fun h => h
    | (intro h; simp only [List.length_map]; exact h) | (intro h; exact Nat.le_trans (List.length_filter_le _ _) h)
    | intro _

theorem Stable.showSeq {P : State → Prop} (C : Stable P) {s : State}  (hP : P s) :
    P (State.showSeq s) := by
  unfold State.showSeq
  repeat' first
    | with_reducible assumption | with_reducible apply C.wr | split
    | with_reducible refine C.same (fun h => h) (fun h => h) (fun h => h) (fun h => h) (fun h => h) (fun h => h) (fun h => h) (fun h => h) (fun h => h) (fun h => h) (fun h => h) ?_
    | with_reducible refine C.same ?_ ?_ ?_ ?_ ?_ ?_ ?_ ?_ ?_ ?_ ?_ ?_ | exact fun h => h

theorem Stable.seqWaits {P : State → Prop} (C : Stable P) {s : State} (w : SeqWait) (hP : P s) :
    P (State.seqWaits s w) := by
  unfold State.seqWaits
  repeat' first
    | with_reducible assumption
    | with_reducible refine C.same (fun h => h) (fun h => h) (fun h => h) (fun h => h) (fun h => h) (fun h => h) (fun h => h) (fun h => h) (fun h => h) (fun h => h) (fun h => h) ?_
    | with_reducible refine C.same ?_ ?_ ?_ ?_ ?_ ?_ ?_ ?_ ?_ ?_ ?_ ?_ | exact fun h => h

theorem Stable.seqNext {P : State → Prop} (C : Stable P) {s : State}  (hP : P s) :
    P (State.seqNext s) := by
  unfold State.seqNext
  repeat' first
    | with_reducible assumption
    | with_reducible refine C.same (fun h => h) (fun h => h) (fun h => h) (fun h => h) (fun h => h) (fun h => h) (fun h => h) (fun h => h) (fun h => h) (fun h => h) (fun h => h) ?_
    | with_reducible refine C.same ?_ ?_ ?_ ?_ ?_ ?_ ?_ ?_ ?_ ?_ ?_ ?_ | exact fun h => h

theorem Stable.checkFailed {P : State → Prop} (C : Stable P) {s : State} (rails : Nat) (up : Bool) (hP : P s) :
    P (State.checkFailed s rails up) := by
  unfold State.checkFailed
  repeat' first
    | with_reducible assumption | with_reducible apply pres_ite | with_reducible apply pres_foldl
    | with_reducible apply C.inc | with_reducible apply C.detect | with_reducible apply C.wr | intro _

theorem Stable.seqStop {P : State → Prop} (C : Stable P) {s : State} (failed : Bool) (hP : P s) :
    P (State.seqStop s failed) := by
  unfold State.seqStop
  repeat' first
    | with_reducible assumption | with_reducible apply C.showSeq | with_reducible apply C.wr
    | with_reducible refine C.same (fun h => h) (fun h => h) (fun h => h) (fun h => h) (fun h => h) (fun h => h) (fun h => h) (fun h => h) (fun h => h) (fun h => h) (fun h => h) ?_
    | with_reducible refine C.same ?_ ?_ ?_ ?_ ?_ ?_ ?_ ?_ ?_ ?_ ?_ ?_ | exact fun h => h
    | (intro h; exact Nat.le_trans (List.length_filter_le _ _) h) | intro _

theorem Stable.derivedStep {P : State → Prop} (C : Stable P) {s : State}  (hP : P s) :
    P (State.derivedStep s) := by
  unfold State.derivedStep
  repeat' first
    | with_reducible assumption | with_reducible apply C.clrEnables | with_reducible apply C.seqWaits
    | with_reducible apply C.seqStop | split
    | with_reducible refine C.same (fun h => h) (fun h => h) (fun h => h) (fun h => h) (fun h => h) (fun h => h) (fun h => h) (fun h => h) (fun h => h) (fun h => h) (fun h => h) ?_
    | with_reducible refine C.same ?_ ?_ ?_ ?_ ?_ ?_ ?_ ?_ ?_ ?_ ?_ ?_ | exact fun h => h | exact fun _ => rfl
    | exact fun _ => Nat.zero_le _

theorem Stable.derivedDown {P : State → Prop} (C : Stable P) {s : State}  (hP : P s) :
    P (State.derivedDown s) := by
  unfold State.derivedDown
  repeat' first
    | with_reducible assumption | with_reducible apply C.showSeq | with_reducible apply C.derivedStep
    | with_reducible refine C.same (fun h => h) (fun h => h) (fun h => h) (fun h => h) (fun h => h) (fun h => h) (fun h => h) (fun h => h) (fun h => h) (fun h => h) (fun h => h) ?_
    | with_reducible refine C.same ?_ ?_ ?_ ?_ ?_ ?_ ?_ ?_ ?_ ?_ ?_ ?_ | exact fun h => h

theorem Stable.seqEnd {P : State → Prop} (C : Stable P) {s : State}  (hP : P s) :
    P (State.seqEnd s) := by
  unfold State.seqEnd
  repeat' first
    | with_reducible assumption | with_reducible apply pres_ite | with_reducible apply C.detect
    | with_reducible apply C.seqStop | with_reducible apply C.derivedDown

theorem Stable.seqClear {P : State → Prop} (C : Stable P) {s : State} (mask : Nat) (hP : P s) :
    P (State.seqClear s mask) := by
  unfold State.seqClear
  repeat' first
    | with_reducible assumption | with_reducible apply pres_ite | with_reducible apply C.clrEnables
    | with_reducible apply C.seqWaits | with_reducible apply C.seqNext | intro _

theorem Stable.afterFail {P : State → Prop} (C : Stable P) {s : State} (up : Bool) (hP : P s) :
    P (State.afterFail s up) := by
  unfold State.afterFail
  repeat' first
    | with_reducible assumption | with_reducible apply pres_ite | with_reducible apply C.seqNext
    | with_reducible apply C.seqStop

theorem Stable.seqStep {P : State → Prop} (C : Stable P) {s : State}  (hP : P s) :
    P (State.seqStep s) := by
  unfold State.seqStep
  repeat' first
    | with_reducible assumption | with_reducible apply pres_ite | with_reducible apply C.send
    | with_reducible apply C.armCdl | with_reducible apply C.setEnables | with_reducible apply C.seqWaits
    | with_reducible apply C.seqNext | with_reducible apply C.checkFailed | with_reducible apply C.seqEnd
    | with_reducible apply C.seqClear | with_reducible apply C.afterFail | with_reducible apply C.wr | split
    | with_reducible refine C.same (fun h => h) (fun h => h) (fun h => h) (fun h => h) (fun h => h) (fun h => h) (fun h => h) (fun h => h) (fun h => h) (fun h => h) (fun h => h) ?_
    | with_reducible refine C.same ?_ ?_ ?_ ?_ ?_ ?_ ?_ ?_ ?_ ?_ ?_ ?_ | exact fun h => h
    | (intro h; simp only [List.length_map]; exact h) | intro _

theorem Stable.seqRun {P : State → Prop} (C : Stable P) {s : State} (hP : P s) : ∀ k, P (s.seqRun k) := by
  intro k
  induction k generalizing s with
  | zero => exact C.showSeq (C.seqWaits _ hP)
  | succ k ih =>
    unfold State.seqRun
    refine pres_ite (C.showSeq hP) ?_
    split <;> first | exact C.showSeq hP | exact ih (C.seqStep hP)

theorem Stable.seqGo {P : State → Prop} (C : Stable P) {s : State}  (hP : P s) :
    P (State.seqGo s) := by
  unfold State.seqGo
  repeat' first
    | with_reducible assumption | with_reducible apply pres_ite | with_reducible apply C.showSeq
    | with_reducible apply C.seqNext | with_reducible apply C.derivedStep | with_reducible apply C.seqRun

theorem Stable.seqShedLook {P : State → Prop} (C : Stable P) {s : State}  (hP : P s) :
    P (State.seqShedLook s) := by
  unfold State.seqShedLook
  repeat' first
    | with_reducible assumption | with_reducible apply C.seqClear | with_reducible apply C.seqRun | split
    | with_reducible refine C.same (fun h => h) (fun h => h) (fun h => h) (fun h => h) (fun h => h) (fun h => h) (fun h => h) (fun h => h) (fun h => h) (fun h => h) (fun h => h) ?_
    | with_reducible refine C.same ?_ ?_ ?_ ?_ ?_ ?_ ?_ ?_ ?_ ?_ ?_ ?_ | exact fun h => h

theorem Stable.seqBegin {P : State → Prop} (C : Stable P) {s : State} (n : Nat) (crcOk : Bool) (hP : P s) :
    P (State.seqBegin s n crcOk) := by
  unfold State.seqBegin
  repeat' first
    | with_reducible assumption | with_reducible apply pres_cond | with_reducible apply pres_ite
    | with_reducible apply C.setBit | with_reducible apply C.detect | with_reducible apply C.showSeq
    | with_reducible apply C.derivedDown | with_reducible apply C.seqRun | with_reducible apply C.wr
    | with_reducible refine C.same (fun h => h) (fun h => h) (fun h => h) (fun h => h) (fun h => h) (fun h => h) (fun h => h) (fun h => h) (fun h => h) (fun h => h) (fun h => h) ?_
    | with_reducible refine C.same ?_ ?_ ?_ ?_ ?_ ?_ ?_ ?_ ?_ ?_ ?_ ?_ | exact fun h => h
    | (intro h; exact Nat.le_trans (List.length_filter_le _ _) h) | intro _

theorem Stable.seqRequest {P : State → Prop} (C : Stable P) {s : State} (n : Nat) (hP : P s) :
    P (State.seqRequest s n) := by
  unfold State.seqRequest
  repeat' first
    | with_reducible assumption | with_reducible apply pres_ite | with_reducible apply C.setBit
    | with_reducible apply C.seqStop | split
    | with_reducible refine C.same (fun h => h) (fun h => h) (fun h => h) (fun h => h) (fun h => h) (fun h => h) (fun h => h) (fun h => h) (fun h => h) (fun h => h) (fun h => h) ?_
    | with_reducible refine C.same ?_ ?_ ?_ ?_ ?_ ?_ ?_ ?_ ?_ ?_ ?_ ?_ | exact fun h => h
    | (intro h; exact Nat.le_trans (List.length_filter_le _ _) h) | intro _

theorem Stable.seqAbandon {P : State → Prop} (C : Stable P) {s : State}  (hP : P s) :
    P (State.seqAbandon s) := by
  unfold State.seqAbandon
  repeat' first
    | with_reducible assumption | with_reducible apply pres_ite | with_reducible apply C.seqStop

end Sys2Proof.Machine
end

