-- ==== Sys2Proof/Laws/Stable/LinkOps.lean ====
section
/-!
SUPPORT. Laws/Stable/LinkOps.lean: what the operations of Machine/LinkOps.lean keep (Laws/Stable.lean).
-/

namespace Sys2Proof.Machine

set_option Elab.async false
set_option linter.unusedTactic false
set_option linter.unreachableTactic false

theorem Stable.setDport {P : State → Prop} (C : Stable P) {s : State} (n : Nat) (d : DPort) (hP : P s) :
    P (State.setDport s n d) := by
  unfold State.setDport
  repeat' first
    | with_reducible assumption
    | with_reducible refine C.same (fun h => h) (fun h => h) (fun h => h) (fun h => h) (fun h => h) (fun h => h) (fun h => h) (fun h => h) (fun h => h) (fun h => h) (fun h => h) ?_
    | with_reducible refine C.same ?_ ?_ ?_ ?_ ?_ ?_ ?_ ?_ ?_ ?_ ?_ ?_ | exact fun h => h | exact NMap.wf_set _ _

theorem Stable.setPlane {P : State → Prop} (C : Stable P) {s : State} (n pl : Nat) (l : Plane) (hP : P s) :
    P (State.setPlane s n pl l) := by
  unfold State.setPlane
  repeat' first
    | with_reducible assumption | with_reducible apply pres_ite | with_reducible apply C.setDport
    | with_reducible refine C.same (fun h => h) (fun h => h) (fun h => h) (fun h => h) (fun h => h) (fun h => h) (fun h => h) (fun h => h) (fun h => h) (fun h => h) (fun h => h) ?_
    | with_reducible refine C.same ?_ ?_ ?_ ?_ ?_ ?_ ?_ ?_ ?_ ?_ ?_ ?_ | exact fun h => h

theorem Stable.pump {P : State → Prop} (C : Stable P) {s : State} (n pl : Nat) (hP : P s) : ∀ k, P (s.pump n pl k) := by
  intro k
  induction k generalizing s with
  | zero => exact hP
  | succ k ih =>
    unfold State.pump
    simp only
    split
    · exact hP
    · split
      · exact hP
      · split
        · exact hP
        · exact ih (C.send _ (C.setPlane _ _ _ hP))

theorem Stable.dropAlarm {P : State → Prop} (C : Stable P) {s : State} (n : Nat) (hP : P s) :
    P (State.dropAlarm s n) := by
  unfold State.dropAlarm
  repeat' first
    | with_reducible assumption | with_reducible apply C.inc | with_reducible apply C.detect
    | with_reducible refine C.same (fun h => h) (fun h => h) (fun h => h) (fun h => h) (fun h => h) (fun h => h) (fun h => h) (fun h => h) (fun h => h) (fun h => h) (fun h => h) ?_
    | with_reducible refine C.same ?_ ?_ ?_ ?_ ?_ ?_ ?_ ?_ ?_ ?_ ?_ ?_ | exact fun h => h

theorem Stable.sendOn {P : State → Prop} (C : Stable P) {s : State} (n pl : Nat) (p : Packet) (hP : P s) :
    P (State.sendOn s n pl p) := by
  unfold State.sendOn
  repeat' first
    | with_reducible assumption | with_reducible apply pres_ite | with_reducible apply C.setPlane
    | with_reducible apply C.pump | with_reducible apply C.dropAlarm | split
    | with_reducible refine C.same (fun h => h) (fun h => h) (fun h => h) (fun h => h) (fun h => h) (fun h => h) (fun h => h) (fun h => h) (fun h => h) (fun h => h) (fun h => h) ?_
    | with_reducible refine C.same ?_ ?_ ?_ ?_ ?_ ?_ ?_ ?_ ?_ ?_ ?_ ?_ | exact fun h => h | intro _

theorem Stable.floodOut {P : State → Prop} (C : Stable P) {s : State} (src : Nat) (p : Packet) (hP : P s) :
    P (State.floodOut s src p) := by
  unfold State.floodOut
  repeat' first
    | with_reducible assumption | with_reducible apply pres_cond | with_reducible apply pres_each
    | with_reducible apply C.sendOn | intro _

theorem Stable.remember {P : State → Prop} (C : Stable P) {s : State} (src typ sq : Nat) (hP : P s) :
    P (State.remember s src typ sq) := by
  unfold State.remember
  repeat' first
    | with_reducible assumption | with_reducible apply pres_ite
    | with_reducible refine C.same (fun h => h) (fun h => h) (fun h => h) (fun h => h) (fun h => h) (fun h => h) (fun h => h) (fun h => h) (fun h => h) (fun h => h) (fun h => h) ?_
    | with_reducible refine C.same ?_ ?_ ?_ ?_ ?_ ?_ ?_ ?_ ?_ ?_ ?_ ?_ | exact fun h => h

theorem Stable.floodOwn {P : State → Prop} (C : Stable P) {s : State} (typ : Nat) (p : Packet) (hP : P s) :
    P (State.floodOwn s typ p) := by
  unfold State.floodOwn
  repeat' first
    | with_reducible assumption | with_reducible apply C.floodOut | with_reducible apply C.remember

theorem Stable.floodKiln {P : State → Prop} (C : Stable P) {s : State} (trig : Nat) (hP : P s) :
    P (State.floodKiln s trig) := by
  unfold State.floodKiln
  repeat' first
    | with_reducible assumption | with_reducible apply pres_cond | with_reducible apply pres_ite
    | with_reducible apply pres_each | with_reducible apply C.inc | with_reducible apply C.sendOn
    | with_reducible apply C.remember
    | with_reducible refine C.same (fun h => h) (fun h => h) (fun h => h) (fun h => h) (fun h => h) (fun h => h) (fun h => h) (fun h => h) (fun h => h) (fun h => h) (fun h => h) ?_
    | with_reducible refine C.same ?_ ?_ ?_ ?_ ?_ ?_ ?_ ?_ ?_ ?_ ?_ ?_ | exact fun h => h | intro _

theorem Stable.floodLsa {P : State → Prop} (C : Stable P) {s : State}  (hP : P s) :
    P (State.floodLsa s) := by
  unfold State.floodLsa
  repeat' first
    | with_reducible assumption | with_reducible apply pres_ite | with_reducible apply C.bump
    | with_reducible apply C.floodOwn
    | with_reducible refine C.same (fun h => h) (fun h => h) (fun h => h) (fun h => h) (fun h => h) (fun h => h) (fun h => h) (fun h => h) (fun h => h) (fun h => h) (fun h => h) ?_
    | with_reducible refine C.same ?_ ?_ ?_ ?_ ?_ ?_ ?_ ?_ ?_ ?_ ?_ ?_ | exact fun h => h

theorem Stable.announce {P : State → Prop} (C : Stable P) {s : State}  (hP : P s) :
    P (State.announce s) := by
  unfold State.announce
  repeat' first
    | with_reducible assumption | with_reducible apply pres_ite | with_reducible apply C.floodLsa
    | with_reducible refine C.same (fun h => h) (fun h => h) (fun h => h) (fun h => h) (fun h => h) (fun h => h) (fun h => h) (fun h => h) (fun h => h) (fun h => h) (fun h => h) ?_
    | with_reducible refine C.same ?_ ?_ ?_ ?_ ?_ ?_ ?_ ?_ ?_ ?_ ?_ ?_ | exact fun h => h

theorem Stable.lsaTick {P : State → Prop} (C : Stable P) {s : State}  (hP : P s) :
    P (State.lsaTick s) := by
  unfold State.lsaTick
  repeat' first
    | with_reducible assumption | with_reducible apply pres_cond | with_reducible apply C.floodLsa | intro _

theorem Stable.adjacency {P : State → Prop} (C : Stable P) {s : State}  (hP : P s) :
    P (State.adjacency s) := by
  unfold State.adjacency
  repeat' first
    | with_reducible assumption | with_reducible apply C.announce
    | with_reducible refine C.same (fun h => h) (fun h => h) (fun h => h) (fun h => h) (fun h => h) (fun h => h) (fun h => h) (fun h => h) (fun h => h) (fun h => h) (fun h => h) ?_
    | with_reducible refine C.same ?_ ?_ ?_ ?_ ?_ ?_ ?_ ?_ ?_ ?_ ?_ ?_ | exact fun h => h

theorem Stable.claim {P : State → Prop} (C : Stable P) {s : State} (n : Nat) (hP : P s) :
    P (State.claim s n) := by
  unfold State.claim
  repeat' first
    | with_reducible assumption | with_reducible apply C.detect | with_reducible apply C.adjacency
    | with_reducible apply C.wr | split
    | with_reducible refine C.same (fun h => h) (fun h => h) (fun h => h) (fun h => h) (fun h => h) (fun h => h) (fun h => h) (fun h => h) (fun h => h) (fun h => h) (fun h => h) ?_
    | with_reducible refine C.same ?_ ?_ ?_ ?_ ?_ ?_ ?_ ?_ ?_ ?_ ?_ ?_ | exact fun h => h | intro _

theorem Stable.loseFnn {P : State → Prop} (C : Stable P) {s : State}  (hP : P s) :
    P (State.loseFnn s) := by
  unfold State.loseFnn
  repeat' first
    | with_reducible assumption | with_reducible apply C.inc | with_reducible apply C.detect
    | with_reducible apply C.claim

theorem Stable.settleClaim {P : State → Prop} (C : Stable P) {s : State}  (hP : P s) :
    P (State.settleClaim s) := by
  unfold State.settleClaim
  repeat' first
    | with_reducible assumption | with_reducible apply pres_cond | with_reducible apply pres_ite
    | with_reducible apply C.claim | with_reducible apply C.loseFnn | intro _

theorem Stable.unicast {P : State → Prop} (C : Stable P) {s : State} (p : Packet) (hP : P s) :
    P (State.unicast s p) := by
  unfold State.unicast
  repeat' first
    | with_reducible assumption | with_reducible apply C.sendOn | split
    | with_reducible refine C.same (fun h => h) (fun h => h) (fun h => h) (fun h => h) (fun h => h) (fun h => h) (fun h => h) (fun h => h) (fun h => h) (fun h => h) (fun h => h) ?_
    | with_reducible refine C.same ?_ ?_ ?_ ?_ ?_ ?_ ?_ ?_ ?_ ?_ ?_ ?_ | exact fun h => h

theorem Stable.dropHr {P : State → Prop} (C : Stable P) {s : State} (n : Nat) (hP : P s) :
    P (State.dropHr s n) := by
  unfold State.dropHr
  repeat' first
    | with_reducible assumption | with_reducible apply C.addSat | with_reducible apply C.setDport
    | with_reducible apply C.wr
    | with_reducible refine C.same (fun h => h) (fun h => h) (fun h => h) (fun h => h) (fun h => h) (fun h => h) (fun h => h) (fun h => h) (fun h => h) (fun h => h) (fun h => h) ?_
    | with_reducible refine C.same ?_ ?_ ?_ ?_ ?_ ?_ ?_ ?_ ?_ ?_ ?_ ?_ | exact fun h => h

theorem Stable.dropSb {P : State → Prop} (C : Stable P) {s : State} (n : Nat) (hP : P s) :
    P (State.dropSb s n) := by
  unfold State.dropSb
  repeat' first
    | with_reducible assumption | with_reducible apply C.addSat | with_reducible apply C.setDport
    | with_reducible apply C.wr
    | with_reducible refine C.same (fun h => h) (fun h => h) (fun h => h) (fun h => h) (fun h => h) (fun h => h) (fun h => h) (fun h => h) (fun h => h) (fun h => h) (fun h => h) ?_
    | with_reducible refine C.same ?_ ?_ ?_ ?_ ?_ ?_ ?_ ?_ ?_ ?_ ?_ ?_ | exact fun h => h

theorem Stable.portFall {P : State → Prop} (C : Stable P) {s : State} (n upTo : Nat) (hP : P s) :
    P (State.portFall s n upTo) := by
  unfold State.portFall
  repeat' first
    | with_reducible assumption | with_reducible apply pres_cond | with_reducible apply pres_ite
    | with_reducible apply C.detect | with_reducible apply C.adjacency | with_reducible apply C.dropHr
    | with_reducible apply C.dropSb | with_reducible apply C.wr | intro _

theorem Stable.hrOff {P : State → Prop} (C : Stable P) {s : State}  (hP : P s) :
    P (State.hrOff s) := by
  unfold State.hrOff
  repeat' first
    | with_reducible assumption | with_reducible apply pres_cond | with_reducible apply pres_each
    | with_reducible apply C.portFall | intro _

theorem Stable.showFeed {P : State → Prop} (C : Stable P) {s : State} (n : Nat) (hP : P s) :
    P (State.showFeed s n) := by
  unfold State.showFeed
  repeat' first
    | with_reducible assumption | with_reducible apply C.wr

theorem Stable.showFeeds {P : State → Prop} (C : Stable P) {s : State}  (hP : P s) :
    P (State.showFeeds s) := by
  unfold State.showFeeds
  repeat' first
    | with_reducible assumption | with_reducible apply pres_cond | with_reducible apply pres_each
    | with_reducible apply C.showFeed | intro _

theorem Stable.alarmLatch {P : State → Prop} (C : Stable P) {s : State} (src sev : Nat) (hP : P s) :
    P (State.alarmLatch s src sev) := by
  unfold State.alarmLatch
  repeat' first
    | with_reducible assumption | with_reducible apply pres_ite
    | with_reducible refine C.same (fun h => h) (fun h => h) (fun h => h) (fun h => h) (fun h => h) (fun h => h) (fun h => h) (fun h => h) (fun h => h) (fun h => h) (fun h => h) ?_
    | with_reducible refine C.same ?_ ?_ ?_ ?_ ?_ ?_ ?_ ?_ ?_ ?_ ?_ ?_ | exact fun h => h
    | (intro h; simp only [List.length_map]; exact h) | intro _

end Sys2Proof.Machine
end

