-- ==== Sys2Proof/Laws/Stable/RackOps.lean ====
section
/-!
SUPPORT. Laws/Stable/RackOps.lean: what the operations of Machine/RackOps.lean keep (Laws/Stable.lean).
-/

namespace Sys2Proof.Machine

set_option Elab.async false
set_option linter.unusedTactic false
set_option linter.unreachableTactic false

theorem Stable.setSends {P : State → Prop} (C : Stable P) {s : State} (l : List Send) (hP : P s) :
    P (State.setSends s l) := by
  unfold State.setSends
  repeat' first
    | with_reducible assumption | with_reducible apply pres_each | with_reducible apply C.wr
    | with_reducible refine C.same (fun h => h) (fun h => h) (fun h => h) (fun h => h) (fun h => h) (fun h => h) (fun h => h) (fun h => h) (fun h => h) (fun h => h) (fun h => h) ?_
    | with_reducible refine C.same ?_ ?_ ?_ ?_ ?_ ?_ ?_ ?_ ?_ ?_ ?_ ?_ | exact fun h => h
    | (intro h; exact Nat.le_trans (List.length_filter_le _ _) h) | intro _

theorem Stable.mapRacks {P : State → Prop} (C : Stable P) {s : State} (f : RunCmd → RunCmd) (hP : P s) :
    P (State.mapRacks s f) := by
  unfold State.mapRacks
  repeat' first
    | with_reducible assumption | with_reducible apply pres_ite | with_reducible apply C.mapQueues
    | with_reducible refine C.same (fun h => h) (fun h => h) (fun h => h) (fun h => h) (fun h => h) (fun h => h) (fun h => h) (fun h => h) (fun h => h) (fun h => h) (fun h => h) ?_
    | with_reducible refine C.same ?_ ?_ ?_ ?_ ?_ ?_ ?_ ?_ ?_ ?_ ?_ ?_ | exact fun h => h
    | (intro h; simp only [List.length_map]; exact h) | intro _

theorem Stable.rackSettle {P : State → Prop} (C : Stable P) {s : State}  (hP : P s) :
    P (State.rackSettle s) := by
  unfold State.rackSettle
  repeat' first
    | with_reducible assumption | with_reducible apply C.mapRacks

theorem Stable.rackSent {P : State → Prop} (C : Stable P) {s : State} (t r : Nat) (hP : P s) :
    P (State.rackSent s t r) := by
  unfold State.rackSent
  repeat' first
    | with_reducible assumption | with_reducible apply pres_ite | with_reducible apply C.mapRacks
    | with_reducible refine C.same (fun h => h) (fun h => h) (fun h => h) (fun h => h) (fun h => h) (fun h => h) (fun h => h) (fun h => h) (fun h => h) (fun h => h) (fun h => h) ?_
    | with_reducible refine C.same ?_ ?_ ?_ ?_ ?_ ?_ ?_ ?_ ?_ ?_ ?_ ?_ | exact fun h => h
    | (intro h; simp only [List.length_map]; exact h) | intro _

theorem Stable.rackAcked {P : State → Prop} (C : Stable P) {s : State} (t r : Nat) (hP : P s) :
    P (State.rackAcked s t r) := by
  unfold State.rackAcked
  repeat' first
    | with_reducible assumption | with_reducible apply pres_ite | with_reducible apply C.mapRacks
    | with_reducible refine C.same (fun h => h) (fun h => h) (fun h => h) (fun h => h) (fun h => h) (fun h => h) (fun h => h) (fun h => h) (fun h => h) (fun h => h) (fun h => h) ?_
    | with_reducible refine C.same ?_ ?_ ?_ ?_ ?_ ?_ ?_ ?_ ?_ ?_ ?_ ?_ | exact fun h => h
    | (intro h; simp only [List.length_map]; exact h) | intro _

theorem Stable.abandonSends {P : State → Prop} (C : Stable P) {s : State} (t : Nat) (hP : P s) :
    P (State.abandonSends s t) := by
  unfold State.abandonSends
  repeat' first
    | with_reducible assumption | with_reducible apply C.setSends | intro _

theorem Stable.suspend {P : State → Prop} (C : Stable P) {s : State} (t : Nat) (hP : P s) :
    P (State.suspend s t) := by
  unfold State.suspend
  repeat' first
    | with_reducible assumption | with_reducible apply C.detect | with_reducible apply C.rackSettle
    | with_reducible apply C.abandonSends | with_reducible apply C.wr

theorem Stable.refuse {P : State → Prop} (C : Stable P) {s : State} (t : Nat) (hP : P s) :
    P (State.refuse s t) := by
  unfold State.refuse
  repeat' first
    | with_reducible assumption | with_reducible apply C.detect | with_reducible apply C.rackSettle
    | with_reducible apply C.abandonSends | with_reducible apply C.wr

theorem Stable.advanceGen {P : State → Prop} (C : Stable P) {s : State} (t n : Nat) (hP : P s) :
    P (State.advanceGen s t n) := by
  unfold State.advanceGen
  repeat' first
    | with_reducible assumption | with_reducible apply pres_ite | with_reducible apply C.detect
    | with_reducible apply C.setDebt | with_reducible apply C.wr
    | with_reducible refine C.same (fun h => h) (fun h => h) (fun h => h) (fun h => h) (fun h => h) (fun h => h) (fun h => h) (fun h => h) (fun h => h) (fun h => h) (fun h => h) ?_
    | with_reducible refine C.same ?_ ?_ ?_ ?_ ?_ ?_ ?_ ?_ ?_ ?_ ?_ ?_ | exact fun h => h

theorem Stable.rackTo {P : State → Prop} (C : Stable P) {s : State} (eui cls len sq tag : Nat) (p : Payload) (hP : P s) :
    P (State.rackTo s eui cls len sq tag p) := by
  unfold State.rackTo
  repeat' first
    | with_reducible assumption | with_reducible apply pres_cond | with_reducible apply C.unicast | split
    | with_reducible refine C.same (fun h => h) (fun h => h) (fun h => h) (fun h => h) (fun h => h) (fun h => h) (fun h => h) (fun h => h) (fun h => h) (fun h => h) (fun h => h) ?_
    | with_reducible refine C.same ?_ ?_ ?_ ?_ ?_ ?_ ?_ ?_ ?_ ?_ ?_ ?_ | exact fun h => h | intro _

theorem Stable.sendOpen {P : State → Prop} (C : Stable P) {s : State} (t : Nat) (hP : P s) :
    P (State.sendOpen s t) := by
  unfold State.sendOpen
  repeat' first
    | with_reducible assumption | with_reducible apply pres_cond | with_reducible apply pres_foldl
    | with_reducible apply C.advanceGen | with_reducible apply C.rackTo | intro _

theorem Stable.openTarget {P : State → Prop} (C : Stable P) {s : State} (t : Nat) (hP : P s) :
    P (State.openTarget s t) := by
  unfold State.openTarget
  repeat' first
    | with_reducible assumption | with_reducible apply pres_cond | with_reducible apply C.rackSettle
    | with_reducible apply C.sendOpen | with_reducible apply C.wr | intro _

theorem Stable.followRoutes {P : State → Prop} (C : Stable P) {s : State}  (hP : P s) :
    P (State.followRoutes s) := by
  unfold State.followRoutes
  repeat' first
    | with_reducible assumption | with_reducible apply pres_ite | with_reducible apply pres_each
    | with_reducible apply C.suspend | with_reducible apply C.openTarget | intro _

theorem Stable.fabricStops {P : State → Prop} (C : Stable P) {s : State}  (hP : P s) :
    P (State.fabricStops s) := by
  unfold State.fabricStops
  repeat' first
    | with_reducible assumption | with_reducible apply pres_cond | with_reducible apply pres_each
    | with_reducible apply C.suspend | intro _

theorem Stable.fabricRuns {P : State → Prop} (C : Stable P) {s : State}  (hP : P s) :
    P (State.fabricRuns s) := by
  unfold State.fabricRuns
  repeat' first
    | with_reducible assumption | with_reducible apply pres_cond | with_reducible apply C.settleClaim
    | with_reducible apply C.followRoutes | intro _

theorem Stable.rackStart {P : State → Prop} (C : Stable P) {s : State}  (hP : P s) :
    P (State.rackStart s) := by
  unfold State.rackStart
  repeat' first
    | with_reducible assumption | with_reducible apply pres_cond | with_reducible apply pres_each
    | with_reducible apply C.openTarget | intro _

theorem Stable.showGuest {P : State → Prop} (C : Stable P) {s : State} (slot : Nat) (hP : P s) :
    P (State.showGuest s slot) := by
  unfold State.showGuest
  repeat' first
    | with_reducible assumption | with_reducible apply pres_cond | with_reducible apply C.wr | split
    | with_reducible refine C.same (fun h => h) (fun h => h) (fun h => h) (fun h => h) (fun h => h) (fun h => h) (fun h => h) (fun h => h) (fun h => h) (fun h => h) (fun h => h) ?_
    | with_reducible refine C.same ?_ ?_ ?_ ?_ ?_ ?_ ?_ ?_ ?_ ?_ ?_ ?_ | exact fun h => h | intro _

theorem Stable.putGuest {P : State → Prop} (C : Stable P) {s : State} (v : Guest) (hP : P s) :
    P (State.putGuest s v) := by
  unfold State.putGuest
  repeat' first
    | with_reducible assumption | with_reducible apply C.showGuest
    | with_reducible refine C.same (fun h => h) (fun h => h) (fun h => h) (fun h => h) (fun h => h) (fun h => h) (fun h => h) (fun h => h) (fun h => h) (fun h => h) (fun h => h) ?_
    | with_reducible refine C.same ?_ ?_ ?_ ?_ ?_ ?_ ?_ ?_ ?_ ?_ ?_ ?_ | exact fun h => h
    | (intro h; exact Nat.le_trans (List.length_filter_le _ _) h) | intro _

theorem Stable.guestKeep {P : State → Prop} (C : Stable P) {s : State} (v : Guest) (keep : RSet) (hP : P s) :
    P (State.guestKeep s v keep) := by
  unfold State.guestKeep
  repeat' first
    | with_reducible assumption | with_reducible apply C.putGuest
    | with_reducible refine C.same (fun h => h) (fun h => h) (fun h => h) (fun h => h) (fun h => h) (fun h => h) (fun h => h) (fun h => h) (fun h => h) (fun h => h) (fun h => h) ?_
    | with_reducible refine C.same ?_ ?_ ?_ ?_ ?_ ?_ ?_ ?_ ?_ ?_ ?_ ?_ | exact fun h => h | exact NMap.wf_keep _
    | (intro h; exact Nat.le_trans (List.length_filter_le _ _) h) | intro _

theorem Stable.dropGuest {P : State → Prop} (C : Stable P) {s : State} (slot : Nat) (hP : P s) :
    P (State.dropGuest s slot) := by
  unfold State.dropGuest
  repeat' first
    | with_reducible assumption | with_reducible apply C.showGuest
    | with_reducible refine C.same (fun h => h) (fun h => h) (fun h => h) (fun h => h) (fun h => h) (fun h => h) (fun h => h) (fun h => h) (fun h => h) (fun h => h) (fun h => h) ?_
    | with_reducible refine C.same ?_ ?_ ?_ ?_ ?_ ?_ ?_ ?_ ?_ ?_ ?_ ?_ | exact fun h => h
    | (intro h; exact Nat.le_trans (List.length_filter_le _ _) h) | intro _

theorem Stable.sendLost {P : State → Prop} (C : Stable P) {s : State} (slot : Nat) (hP : P s) :
    P (State.sendLost s slot) := by
  unfold State.sendLost
  repeat' first
    | with_reducible assumption | with_reducible apply pres_ite | with_reducible apply pres_foldl
    | with_reducible apply C.rackTo | with_reducible apply C.putGuest | split
    | with_reducible refine C.same (fun h => h) (fun h => h) (fun h => h) (fun h => h) (fun h => h) (fun h => h) (fun h => h) (fun h => h) (fun h => h) (fun h => h) (fun h => h) ?_
    | with_reducible refine C.same ?_ ?_ ?_ ?_ ?_ ?_ ?_ ?_ ?_ ?_ ?_ ?_ | exact fun h => h | intro _

theorem Stable.guestsFollow {P : State → Prop} (C : Stable P) {s : State}  (hP : P s) :
    P (State.guestsFollow s) := by
  unfold State.guestsFollow
  repeat' first
    | with_reducible assumption | with_reducible apply pres_foldl | with_reducible apply C.showGuest
    | with_reducible apply C.sendLost | intro _

theorem Stable.guestHours {P : State → Prop} (C : Stable P) {s : State}  (hP : P s) :
    P (State.guestHours s) := by
  unfold State.guestHours
  repeat' first
    | with_reducible assumption | with_reducible apply pres_cond | with_reducible apply pres_foldl
    | with_reducible apply C.inc | intro _

end Sys2Proof.Machine
end

