-- ==== Sys2Proof/Laws/Stable/StopOps.lean ====
section
/-!
SUPPORT. Laws/Stable/StopOps.lean: what the operations of Machine/StopOps.lean keep (Laws/Stable.lean).
-/

namespace Sys2Proof.Machine

set_option Elab.async false
set_option linter.unusedTactic false
set_option linter.unreachableTactic false

theorem Stable.noQuiet {P : State → Prop} (C : Stable P) {s : State}  (hP : P s) :
    P (State.noQuiet s) := by
  unfold State.noQuiet
  repeat' first
    | with_reducible assumption
    | with_reducible refine C.same (fun h => h) (fun h => h) (fun h => h) (fun h => h) (fun h => h) (fun h => h) (fun h => h) (fun h => h) (fun h => h) (fun h => h) (fun h => h) ?_
    | with_reducible refine C.same ?_ ?_ ?_ ?_ ?_ ?_ ?_ ?_ ?_ ?_ ?_ ?_ | exact fun h => h

theorem Stable.restExit {P : State → Prop} (C : Stable P) {s : State}  (hP : P s) :
    P (State.restExit s) := by
  unfold State.restExit
  repeat' first
    | with_reducible assumption | with_reducible apply pres_cond | with_reducible apply pres_ite
    | with_reducible apply C.seqRequest | with_reducible apply C.announce | with_reducible apply C.wr
    | with_reducible refine C.same (fun h => h) (fun h => h) (fun h => h) (fun h => h) (fun h => h) (fun h => h) (fun h => h) (fun h => h) (fun h => h) (fun h => h) (fun h => h) ?_
    | with_reducible refine C.same ?_ ?_ ?_ ?_ ?_ ?_ ?_ ?_ ?_ ?_ ?_ ?_ | exact fun h => h | intro _

theorem Stable.abandonCal {P : State → Prop} (C : Stable P) {s : State}  (hP : P s) :
    P (State.abandonCal s) := by
  unfold State.abandonCal
  repeat' first
    | with_reducible assumption | with_reducible apply pres_ite | with_reducible apply C.detect
    | with_reducible apply C.wr
    | with_reducible refine C.same (fun h => h) (fun h => h) (fun h => h) (fun h => h) (fun h => h) (fun h => h) (fun h => h) (fun h => h) (fun h => h) (fun h => h) (fun h => h) ?_
    | with_reducible refine C.same ?_ ?_ ?_ ?_ ?_ ?_ ?_ ?_ ?_ ?_ ?_ ?_ | exact fun h => h | exact fun _ => rfl
    | exact fun _ => Nat.zero_le _

theorem Stable.updateK0 {P : State → Prop} (C : Stable P) {s : State}  (hP : P s) :
    P (State.updateK0 s) := by
  unfold State.updateK0
  repeat' first
    | with_reducible assumption | with_reducible apply pres_ite | with_reducible apply C.wr
    | with_reducible refine C.same (fun h => h) (fun h => h) (fun h => h) (fun h => h) (fun h => h) (fun h => h) (fun h => h) (fun h => h) (fun h => h) (fun h => h) (fun h => h) ?_
    | with_reducible refine C.same ?_ ?_ ?_ ?_ ?_ ?_ ?_ ?_ ?_ ?_ ?_ ?_ | exact fun h => h

theorem Stable.halt {P : State → Prop} (C : Stable P) {s : State} (n : Nat) (hP : P s) :
    P (State.halt s n) := by
  unfold State.halt
  repeat' first
    | with_reducible assumption | with_reducible apply pres_cond | with_reducible apply pres_ite
    | with_reducible apply pres_foldl | with_reducible apply C.fabricStops | with_reducible apply C.wr
    | with_reducible refine C.same (fun h => h) (fun h => h) (fun h => h) (fun h => h) (fun h => h) (fun h => h) (fun h => h) (fun h => h) (fun h => h) (fun h => h) (fun h => h) ?_
    | with_reducible refine C.same ?_ ?_ ?_ ?_ ?_ ?_ ?_ ?_ ?_ ?_ ?_ ?_ | exact fun h => h | exact fun _ => rfl
    | exact fun _ => Nat.zero_le _ | (intro h; exact Nat.le_trans (List.length_filter_le _ _) h) | intro _

theorem Stable.unhalt {P : State → Prop} (C : Stable P) {s : State} (n : Nat) (hP : P s) :
    P (State.unhalt s n) := by
  unfold State.unhalt
  repeat' first
    | with_reducible assumption | with_reducible apply pres_cond | with_reducible apply pres_foldl
    | with_reducible apply C.fabricRuns | with_reducible apply C.wr
    | with_reducible refine C.same (fun h => h) (fun h => h) (fun h => h) (fun h => h) (fun h => h) (fun h => h) (fun h => h) (fun h => h) (fun h => h) (fun h => h) (fun h => h) ?_
    | with_reducible refine C.same ?_ ?_ ?_ ?_ ?_ ?_ ?_ ?_ ?_ ?_ ?_ ?_ | exact fun h => h
    | (intro h; exact Nat.le_trans (List.length_filter_le _ _) h) | intro _

theorem Stable.nextHandover {P : State → Prop} (C : Stable P) {s : State}  (hP : P s) :
    P (State.nextHandover s) := by
  unfold State.nextHandover
  repeat' first
    | with_reducible assumption | with_reducible apply C.halt | with_reducible apply C.wr | split
    | with_reducible refine C.same (fun h => h) (fun h => h) (fun h => h) (fun h => h) (fun h => h) (fun h => h) (fun h => h) (fun h => h) (fun h => h) (fun h => h) (fun h => h) ?_
    | with_reducible refine C.same ?_ ?_ ?_ ?_ ?_ ?_ ?_ ?_ ?_ ?_ ?_ ?_ | exact fun h => h | exact fun _ => rfl
    | exact fun _ => Nat.zero_le _

theorem Stable.handTick {P : State → Prop} (C : Stable P) {s : State}  (hP : P s) :
    P (State.handTick s) := by
  unfold State.handTick
  repeat' first
    | with_reducible assumption | with_reducible apply pres_cond | with_reducible apply C.nextHandover
    | with_reducible refine C.same (fun h => h) (fun h => h) (fun h => h) (fun h => h) (fun h => h) (fun h => h) (fun h => h) (fun h => h) (fun h => h) (fun h => h) (fun h => h) ?_
    | with_reducible refine C.same ?_ ?_ ?_ ?_ ?_ ?_ ?_ ?_ ?_ ?_ ?_ ?_ | exact fun h => h | intro _

theorem Stable.restoreSettings {P : State → Prop} (C : Stable P) {s : State} (hP : P s) : P s.restoreSettings := by
  unfold State.restoreSettings
  refine pres_ite hP ?_
  exact C.same (fun h => NMap.wf_foldl_set _ _ _ (NMap.wf_keep _ h)) (fun h => h) (fun h => h) (fun h => h) (fun h => h) (fun h => h) (fun h => h) (fun h => h) (fun h => h) (fun h => h) (fun h => h) hP

theorem Stable.returnImages {P : State → Prop} (C : Stable P) {s : State}  (hP : P s) :
    P (State.returnImages s) := by
  unfold State.returnImages
  repeat' first
    | with_reducible assumption | with_reducible apply pres_cond | with_reducible apply pres_ite
    | with_reducible apply pres_foldl | with_reducible apply C.unhalt | with_reducible apply C.restoreSettings
    | with_reducible apply C.wr
    | with_reducible refine C.same (fun h => h) (fun h => h) (fun h => h) (fun h => h) (fun h => h) (fun h => h) (fun h => h) (fun h => h) (fun h => h) (fun h => h) (fun h => h) ?_
    | with_reducible refine C.same ?_ ?_ ?_ ?_ ?_ ?_ ?_ ?_ ?_ ?_ ?_ ?_ | exact fun h => h | exact fun _ => rfl
    | exact fun _ => Nat.zero_le _ | (intro h; simp only [List.length_map]; exact h) | intro _

theorem Stable.fallback {P : State → Prop} (C : Stable P) {s : State}  (hP : P s) :
    P (State.fallback s) := by
  unfold State.fallback
  repeat' first
    | with_reducible assumption | with_reducible apply C.inc | with_reducible apply C.detect
    | with_reducible apply C.vendor | with_reducible apply C.returnImages | with_reducible apply C.wr

theorem Stable.handoverBack {P : State → Prop} (C : Stable P) {s : State}  (hP : P s) :
    P (State.handoverBack s) := by
  unfold State.handoverBack
  repeat' first
    | with_reducible assumption | with_reducible apply C.detect | with_reducible apply C.vendor
    | with_reducible apply C.returnImages | with_reducible apply C.wr

theorem Stable.dropTest {P : State → Prop} (C : Stable P) {s : State} (p : Nat) (hP : P s) :
    P (State.dropTest s p) := by
  unfold State.dropTest
  repeat' first
    | with_reducible assumption | with_reducible apply pres_ite | with_reducible apply C.setPack
    | with_reducible apply C.disarmCdl | with_reducible apply C.wr
    | with_reducible refine C.same (fun h => h) (fun h => h) (fun h => h) (fun h => h) (fun h => h) (fun h => h) (fun h => h) (fun h => h) (fun h => h) (fun h => h) (fun h => h) ?_
    | with_reducible refine C.same ?_ ?_ ?_ ?_ ?_ ?_ ?_ ?_ ?_ ?_ ?_ ?_ | exact fun h => h

theorem Stable.packPathOn {P : State → Prop} (C : Stable P) {s : State}  (hP : P s) :
    P (State.packPathOn s) := by
  unfold State.packPathOn
  repeat' first
    | with_reducible assumption | with_reducible apply pres_cond | with_reducible apply pres_each
    | with_reducible apply C.setPack
    | with_reducible refine C.same (fun h => h) (fun h => h) (fun h => h) (fun h => h) (fun h => h) (fun h => h) (fun h => h) (fun h => h) (fun h => h) (fun h => h) (fun h => h) ?_
    | with_reducible refine C.same ?_ ?_ ?_ ?_ ?_ ?_ ?_ ?_ ?_ ?_ ?_ ?_ | exact fun h => h | intro _

theorem Stable.freezeSteep {P : State → Prop} (C : Stable P) {s : State}  (hP : P s) :
    P (State.freezeSteep s) := by
  unfold State.freezeSteep
  repeat' first
    | with_reducible assumption | with_reducible apply C.showSteep | with_reducible apply C.wr
    | with_reducible refine C.same (fun h => h) (fun h => h) (fun h => h) (fun h => h) (fun h => h) (fun h => h) (fun h => h) (fun h => h) (fun h => h) (fun h => h) (fun h => h) ?_
    | with_reducible refine C.same ?_ ?_ ?_ ?_ ?_ ?_ ?_ ?_ ?_ ?_ ?_ ?_ | exact fun h => h | exact fun _ => rfl
    | exact fun _ => Nat.zero_le _

theorem Stable.freezeRacking {P : State → Prop} (C : Stable P) {s : State}  (hP : P s) :
    P (State.freezeRacking s) := by
  unfold State.freezeRacking
  repeat' first
    | with_reducible assumption | with_reducible apply C.wr
    | with_reducible refine C.same (fun h => h) (fun h => h) (fun h => h) (fun h => h) (fun h => h) (fun h => h) (fun h => h) (fun h => h) (fun h => h) (fun h => h) (fun h => h) ?_
    | with_reducible refine C.same ?_ ?_ ?_ ?_ ?_ ?_ ?_ ?_ ?_ ?_ ?_ ?_ | exact fun h => h | exact fun _ => rfl
    | exact fun _ => Nat.zero_le _

theorem Stable.freezeRetire {P : State → Prop} (C : Stable P) {s : State}  (hP : P s) :
    P (State.freezeRetire s) := by
  unfold State.freezeRetire
  repeat' first
    | with_reducible assumption
    | with_reducible refine C.same (fun h => h) (fun h => h) (fun h => h) (fun h => h) (fun h => h) (fun h => h) (fun h => h) (fun h => h) (fun h => h) (fun h => h) (fun h => h) ?_
    | with_reducible refine C.same ?_ ?_ ?_ ?_ ?_ ?_ ?_ ?_ ?_ ?_ ?_ ?_ | exact fun h => h | exact fun _ => rfl
    | exact fun _ => Nat.zero_le _

theorem Stable.dropStaged {P : State → Prop} (C : Stable P) {s : State} (page : Nat) (hP : P s) :
    P (State.dropStaged s page) := by
  unfold State.dropStaged
  repeat' first
    | with_reducible assumption | with_reducible apply pres_ite
    | with_reducible refine C.same (fun h => h) (fun h => h) (fun h => h) (fun h => h) (fun h => h) (fun h => h) (fun h => h) (fun h => h) (fun h => h) (fun h => h) (fun h => h) ?_
    | with_reducible refine C.same ?_ ?_ ?_ ?_ ?_ ?_ ?_ ?_ ?_ ?_ ?_ ?_ | exact fun h => h | exact NMap.wf_keep _
    | intro _

theorem Stable.discardCommits {P : State → Prop} (C : Stable P) {s : State}  (hP : P s) :
    P (State.discardCommits s) := by
  unfold State.discardCommits
  repeat' first
    | with_reducible assumption | with_reducible apply pres_foldl | with_reducible apply C.notice
    | with_reducible apply C.dropStaged | with_reducible apply C.wr | intro _

theorem Stable.flashAbandon {P : State → Prop} (C : Stable P) {s : State}  (hP : P s) :
    P (State.flashAbandon s) := by
  unfold State.flashAbandon
  repeat' first
    | with_reducible assumption | with_reducible apply pres_foldl | with_reducible apply C.wr | split
    | with_reducible refine C.same (fun h => h) (fun h => h) (fun h => h) (fun h => h) (fun h => h) (fun h => h) (fun h => h) (fun h => h) (fun h => h) (fun h => h) (fun h => h) ?_
    | with_reducible refine C.same ?_ ?_ ?_ ?_ ?_ ?_ ?_ ?_ ?_ ?_ ?_ ?_ | exact fun h => h | intro _

theorem Stable.holdOffPages {P : State → Prop} (C : Stable P) {s : State}  (hP : P s) :
    P (State.holdOffPages s) := by
  unfold State.holdOffPages
  repeat' first
    | with_reducible assumption | with_reducible apply pres_cond | with_reducible apply pres_foldl
    | with_reducible apply C.wr
    | with_reducible refine C.same (fun h => h) (fun h => h) (fun h => h) (fun h => h) (fun h => h) (fun h => h) (fun h => h) (fun h => h) (fun h => h) (fun h => h) (fun h => h) ?_
    | with_reducible refine C.same ?_ ?_ ?_ ?_ ?_ ?_ ?_ ?_ ?_ ?_ ?_ ?_ | exact fun h => h | exact NMap.wf_keep _
    | intro _

theorem Stable.logReport {P : State → Prop} (C : Stable P) {s : State} (r : Report) (hP : P s) :
    P (State.logReport s r) := by
  unfold State.logReport
  repeat' first
    | with_reducible assumption | with_reducible apply C.appendTlog
    | with_reducible refine C.same (fun h => h) (fun h => h) (fun h => h) (fun h => h) (fun h => h) (fun h => h) (fun h => h) (fun h => h) (fun h => h) (fun h => h) (fun h => h) ?_
    | with_reducible refine C.same ?_ ?_ ?_ ?_ ?_ ?_ ?_ ?_ ?_ ?_ ?_ ?_ | exact fun h => h

theorem Stable.reportAll {P : State → Prop} (C : Stable P) {s : State}  (hP : P s) :
    P (State.reportAll s) := by
  unfold State.reportAll
  repeat' first
    | with_reducible assumption | with_reducible apply pres_foldl | with_reducible apply C.logReport
    | with_reducible refine C.same (fun h => h) (fun h => h) (fun h => h) (fun h => h) (fun h => h) (fun h => h) (fun h => h) (fun h => h) (fun h => h) (fun h => h) (fun h => h) ?_
    | with_reducible refine C.same ?_ ?_ ?_ ?_ ?_ ?_ ?_ ?_ ?_ ?_ ?_ ?_ | exact fun h => h | exact fun _ => rfl
    | exact fun _ => Nat.zero_le _ | intro _

end Sys2Proof.Machine
end

