-- ==== Sys2Proof/Laws/Stable/KilnOps.lean ====
section
/-!
SUPPORT. Laws/Stable/KilnOps.lean: what the operations of Machine/KilnOps.lean keep (Laws/Stable.lean).
-/

namespace Sys2Proof.Machine

set_option Elab.async false
set_option linter.unusedTactic false
set_option linter.unreachableTactic false

theorem Stable.closePhase {P : State → Prop} (C : Stable P) {s : State}  (hP : P s) :
    P (State.closePhase s) := by
  unfold State.closePhase
  repeat' first
    | with_reducible assumption | with_reducible apply pres_cond | with_reducible apply C.detect
    | with_reducible apply C.wr | split
    | with_reducible refine C.same (fun h => h) (fun h => h) (fun h => h) (fun h => h) (fun h => h) (fun h => h) (fun h => h) (fun h => h) (fun h => h) (fun h => h) (fun h => h) ?_
    | with_reducible refine C.same ?_ ?_ ?_ ?_ ?_ ?_ ?_ ?_ ?_ ?_ ?_ ?_ | exact fun h => h | intro _

theorem Stable.enterPhase {P : State → Prop} (C : Stable P) {s : State} (k : Nat) (hP : P s) :
    P (State.enterPhase s k) := by
  unfold State.enterPhase
  repeat' first
    | with_reducible assumption | with_reducible apply pres_cond | with_reducible apply pres_ite
    | with_reducible apply C.tlog | with_reducible apply C.closePhase | with_reducible apply C.wr
    | with_reducible refine C.same (fun h => h) (fun h => h) (fun h => h) (fun h => h) (fun h => h) (fun h => h) (fun h => h) (fun h => h) (fun h => h) (fun h => h) (fun h => h) ?_
    | with_reducible refine C.same ?_ ?_ ?_ ?_ ?_ ?_ ?_ ?_ ?_ ?_ ?_ ?_ | exact fun h => h | intro _

theorem Stable.cdlMark {P : State → Prop} (C : Stable P) {s : State} (n : Nat) (hP : P s) :
    P (State.cdlMark s n) := by
  unfold State.cdlMark
  repeat' first
    | with_reducible assumption | with_reducible apply pres_cond | with_reducible apply C.detect | split
    | with_reducible refine C.same (fun h => h) (fun h => h) (fun h => h) (fun h => h) (fun h => h) (fun h => h) (fun h => h) (fun h => h) (fun h => h) (fun h => h) (fun h => h) ?_
    | with_reducible refine C.same ?_ ?_ ?_ ?_ ?_ ?_ ?_ ?_ ?_ ?_ ?_ ?_ | exact fun h => h | intro _

theorem Stable.armKiln {P : State → Prop} (C : Stable P) {s : State} (n target : Nat) (hP : P s) :
    P (State.armKiln s n target) := by
  unfold State.armKiln
  repeat' first
    | with_reducible assumption | with_reducible apply pres_cond | with_reducible apply C.armCdl
    | with_reducible apply C.cdlMark | intro _

theorem Stable.groupMessage {P : State → Prop} (C : Stable P) {s : State} (trig : Nat) (group : Bool) (hP : P s) :
    P (State.groupMessage s trig group) := by
  unfold State.groupMessage
  repeat' first
    | with_reducible assumption | with_reducible apply pres_cond | with_reducible apply C.floodKiln | intro _

theorem Stable.enterK0 {P : State → Prop} (C : Stable P) {s : State} (trig mask : Nat) (p3 group : Bool) (hP : P s) :
    P (State.enterK0 s trig mask p3 group) := by
  unfold State.enterK0
  repeat' first
    | with_reducible assumption | with_reducible apply pres_each | with_reducible apply C.dropMargins
    | with_reducible apply C.restExit | with_reducible apply C.abandonCal | with_reducible apply C.updateK0
    | with_reducible apply C.dropTest | with_reducible apply C.enterPhase | with_reducible apply C.armKiln
    | with_reducible apply C.groupMessage | with_reducible apply C.wr
    | with_reducible refine C.same (fun h => h) (fun h => h) (fun h => h) (fun h => h) (fun h => h) (fun h => h) (fun h => h) (fun h => h) (fun h => h) (fun h => h) (fun h => h) ?_
    | with_reducible refine C.same ?_ ?_ ?_ ?_ ?_ ?_ ?_ ?_ ?_ ?_ ?_ ?_ | exact fun h => h
    | (intro h; exact Nat.le_trans (List.length_filter_le _ _) h) | intro _

theorem Stable.enterK3 {P : State → Prop} (C : Stable P) {s : State}  (hP : P s) :
    P (State.enterK3 s) := by
  unfold State.enterK3
  repeat' first
    | with_reducible assumption | with_reducible apply pres_cond | with_reducible apply pres_each
    | with_reducible apply C.setHost | with_reducible apply C.freezeQueues | with_reducible apply C.freezeSteep
    | with_reducible apply C.freezeRacking | with_reducible apply C.freezeRetire | with_reducible apply C.discardCommits
    | with_reducible apply C.enterPhase | with_reducible apply C.wr
    | with_reducible refine C.same (fun h => h) (fun h => h) (fun h => h) (fun h => h) (fun h => h) (fun h => h) (fun h => h) (fun h => h) (fun h => h) (fun h => h) (fun h => h) ?_
    | with_reducible refine C.same ?_ ?_ ?_ ?_ ?_ ?_ ?_ ?_ ?_ ?_ ?_ ?_ | exact fun h => h | intro _

theorem Stable.k2Check {P : State → Prop} (C : Stable P) {s : State}  (hP : P s) :
    P (State.k2Check s) := by
  unfold State.k2Check
  repeat' first
    | with_reducible assumption | with_reducible apply pres_ite | with_reducible apply C.enterK3

theorem Stable.openK2 {P : State → Prop} (C : Stable P) {s : State}  (hP : P s) :
    P (State.openK2 s) := by
  unfold State.openK2
  repeat' first
    | with_reducible assumption | with_reducible apply pres_ite | with_reducible apply C.enterPhase
    | with_reducible apply C.k2Check
    | with_reducible refine C.same (fun h => h) (fun h => h) (fun h => h) (fun h => h) (fun h => h) (fun h => h) (fun h => h) (fun h => h) (fun h => h) (fun h => h) (fun h => h) ?_
    | with_reducible refine C.same ?_ ?_ ?_ ?_ ?_ ?_ ?_ ?_ ?_ ?_ ?_ ?_ | exact fun h => h

theorem Stable.k2PortDone {P : State → Prop} (C : Stable P) {s : State} (p : Nat) (hP : P s) :
    P (State.k2PortDone s p) := by
  unfold State.k2PortDone
  repeat' first
    | with_reducible assumption | with_reducible apply C.k2Check
    | with_reducible refine C.same (fun h => h) (fun h => h) (fun h => h) (fun h => h) (fun h => h) (fun h => h) (fun h => h) (fun h => h) (fun h => h) (fun h => h) (fun h => h) ?_
    | with_reducible refine C.same ?_ ?_ ?_ ?_ ?_ ?_ ?_ ?_ ?_ ?_ ?_ ?_ | exact fun h => h
    | (intro h; exact Nat.le_trans (List.length_filter_le _ _) h) | intro _

theorem Stable.pathOn {P : State → Prop} (C : Stable P) {s : State}  (hP : P s) :
    P (State.pathOn s) := by
  unfold State.pathOn
  repeat' first
    | with_reducible assumption | with_reducible apply C.packPathOn
    | with_reducible refine C.same (fun h => h) (fun h => h) (fun h => h) (fun h => h) (fun h => h) (fun h => h) (fun h => h) (fun h => h) (fun h => h) (fun h => h) (fun h => h) ?_
    | with_reducible refine C.same ?_ ?_ ?_ ?_ ?_ ?_ ?_ ?_ ?_ ?_ ?_ ?_ | exact fun h => h

theorem Stable.startKiln {P : State → Prop} (C : Stable P) {s : State} (trig mask : Nat) (p3 group : Bool) (hP : P s) :
    P (State.startKiln s trig mask p3 group) := by
  unfold State.startKiln
  repeat' first
    | with_reducible assumption | with_reducible apply pres_ite | with_reducible apply C.enterPhase
    | with_reducible apply C.enterK0 | with_reducible apply C.openK2 | with_reducible apply C.pathOn

theorem Stable.joinTrigger {P : State → Prop} (C : Stable P) {s : State} (trig : Nat) (group : Bool) (hP : P s) :
    P (State.joinTrigger s trig group) := by
  unfold State.joinTrigger
  repeat' first
    | with_reducible assumption | with_reducible apply pres_cond | with_reducible apply pres_ite
    | with_reducible apply C.groupMessage | with_reducible apply C.pathOn | with_reducible apply C.wr
    | with_reducible refine C.same (fun h => h) (fun h => h) (fun h => h) (fun h => h) (fun h => h) (fun h => h) (fun h => h) (fun h => h) (fun h => h) (fun h => h) (fun h => h) ?_
    | with_reducible refine C.same ?_ ?_ ?_ ?_ ?_ ?_ ?_ ?_ ?_ ?_ ?_ ?_ | exact fun h => h
    | (intro h; simp only [List.length_map]; exact h) | intro _

theorem Stable.fireTrigger {P : State → Prop} (C : Stable P) {s : State} (trig : Nat) (p3 group : Bool) (hP : P s) :
    P (State.fireTrigger s trig p3 group) := by
  unfold State.fireTrigger
  repeat' first
    | with_reducible assumption | with_reducible apply pres_cond | with_reducible apply pres_ite
    | with_reducible apply C.inc | with_reducible apply C.startKiln | with_reducible apply C.joinTrigger | intro _

theorem Stable.snapshotDone {P : State → Prop} (C : Stable P) {s : State}  (hP : P s) :
    P (State.snapshotDone s) := by
  unfold State.snapshotDone
  repeat' first
    | with_reducible assumption | with_reducible apply pres_cond | with_reducible apply C.showInflight
    | with_reducible apply C.seqRequest | with_reducible apply C.hrOff | with_reducible apply C.flashAbandon
    | with_reducible apply C.holdOffPages | with_reducible apply C.enterPhase | with_reducible apply C.wr
    | with_reducible refine C.same (fun h => h) (fun h => h) (fun h => h) (fun h => h) (fun h => h) (fun h => h) (fun h => h) (fun h => h) (fun h => h) (fun h => h) (fun h => h) ?_
    | with_reducible refine C.same ?_ ?_ ?_ ?_ ?_ ?_ ?_ ?_ ?_ ?_ ?_ ?_ | exact fun h => h | exact fun _ => rfl
    | exact fun _ => Nat.zero_le _ | (intro h; simp only [List.length_map]; exact h) | intro _

theorem Stable.shedRanks {P : State → Prop} (C : Stable P) {s : State}  (hP : P s) :
    P (State.shedRanks s) := by
  unfold State.shedRanks
  repeat' first
    | with_reducible assumption | with_reducible apply pres_cond | with_reducible apply pres_each
    | with_reducible apply C.seqShedLook | with_reducible apply C.wr
    | with_reducible refine C.same (fun h => h) (fun h => h) (fun h => h) (fun h => h) (fun h => h) (fun h => h) (fun h => h) (fun h => h) (fun h => h) (fun h => h) (fun h => h) ?_
    | with_reducible refine C.same ?_ ?_ ?_ ?_ ?_ ?_ ?_ ?_ ?_ ?_ ?_ ?_ | exact fun h => h | exact NMap.wf_keep _
    | intro _

theorem Stable.settleShed {P : State → Prop} (C : Stable P) {s : State}  (hP : P s) :
    P (State.settleShed s) := by
  unfold State.settleShed
  repeat' first
    | with_reducible assumption | with_reducible apply pres_ite | with_reducible apply C.seqShedLook
    | with_reducible refine C.same (fun h => h) (fun h => h) (fun h => h) (fun h => h) (fun h => h) (fun h => h) (fun h => h) (fun h => h) (fun h => h) (fun h => h) (fun h => h) ?_
    | with_reducible refine C.same ?_ ?_ ?_ ?_ ?_ ?_ ?_ ?_ ?_ ?_ ?_ ?_ | exact fun h => h | exact fun _ => rfl
    | exact fun _ => Nat.zero_le _

theorem Stable.sampleDrain {P : State → Prop} (C : Stable P) {s : State}  (hP : P s) :
    P (State.sampleDrain s) := by
  unfold State.sampleDrain
  repeat' first
    | with_reducible assumption
    | with_reducible refine C.same (fun h => h) (fun h => h) (fun h => h) (fun h => h) (fun h => h) (fun h => h) (fun h => h) (fun h => h) (fun h => h) (fun h => h) (fun h => h) ?_
    | with_reducible refine C.same ?_ ?_ ?_ ?_ ?_ ?_ ?_ ?_ ?_ ?_ ?_ ?_ | exact fun h => h
    | (intro h; exact Nat.le_trans (List.length_filter_le _ _) h) | intro _

theorem Stable.project {P : State → Prop} (C : Stable P) {s : State}  (hP : P s) :
    P (State.project s) := by
  unfold State.project
  repeat' first
    | with_reducible assumption | with_reducible apply pres_cond | with_reducible apply C.wr | intro _

theorem Stable.shedDone {P : State → Prop} (C : Stable P) {s : State}  (hP : P s) :
    P (State.shedDone s) := by
  unfold State.shedDone
  repeat' first
    | with_reducible assumption | with_reducible apply pres_cond | with_reducible apply C.disarmCdl
    | with_reducible apply C.enterPhase | with_reducible apply C.cdlMark | with_reducible apply C.armKiln
    | with_reducible apply C.shedRanks | with_reducible apply C.settleShed | with_reducible apply C.project
    | with_reducible refine C.same (fun h => h) (fun h => h) (fun h => h) (fun h => h) (fun h => h) (fun h => h) (fun h => h) (fun h => h) (fun h => h) (fun h => h) (fun h => h) ?_
    | with_reducible refine C.same ?_ ?_ ?_ ?_ ?_ ?_ ?_ ?_ ?_ ?_ ?_ ?_ | exact fun h => h | intro _

theorem Stable.kilnLose {P : State → Prop} (C : Stable P) {s : State} (g : Nat) (hP : P s) :
    P (State.kilnLose s g) := by
  unfold State.kilnLose
  repeat' first
    | with_reducible assumption | with_reducible apply pres_ite | with_reducible apply C.detect
    | with_reducible apply C.wr
    | with_reducible refine C.same (fun h => h) (fun h => h) (fun h => h) (fun h => h) (fun h => h) (fun h => h) (fun h => h) (fun h => h) (fun h => h) (fun h => h) (fun h => h) ?_
    | with_reducible refine C.same ?_ ?_ ?_ ?_ ?_ ?_ ?_ ?_ ?_ ?_ ?_ ?_ | exact fun h => h

theorem Stable.loseRanks {P : State → Prop} (C : Stable P) {s : State} (en : Nat) (hP : P s) :
    P (State.loseRanks s en) := by
  unfold State.loseRanks
  repeat' first
    | with_reducible assumption | with_reducible apply pres_ite | with_reducible apply pres_foldl
    | with_reducible apply C.kilnLose | intro _

theorem Stable.drainEnd {P : State → Prop} (C : Stable P) {s : State} (reason : Nat) (hP : P s) :
    P (State.drainEnd s reason) := by
  unfold State.drainEnd
  repeat' first
    | with_reducible assumption | with_reducible apply pres_cond | with_reducible apply C.detect
    | with_reducible apply C.disarmCdl | with_reducible apply C.reportAll | with_reducible apply C.enterPhase
    | with_reducible apply C.armKiln | with_reducible apply C.shedRanks | with_reducible apply C.settleShed
    | with_reducible refine C.same (fun h => h) (fun h => h) (fun h => h) (fun h => h) (fun h => h) (fun h => h) (fun h => h) (fun h => h) (fun h => h) (fun h => h) (fun h => h) ?_
    | with_reducible refine C.same ?_ ?_ ?_ ?_ ?_ ?_ ?_ ?_ ?_ ?_ ?_ ?_ | exact fun h => h | intro _

theorem Stable.putCask {P : State → Prop} (C : Stable P) {s : State} (c : Cask) (hP : P s) :
    P (State.putCask s c) := by
  unfold State.putCask
  repeat' first
    | with_reducible assumption | with_reducible apply pres_ite
    | with_reducible refine C.same (fun h => h) (fun h => h) (fun h => h) (fun h => h) (fun h => h) (fun h => h) (fun h => h) (fun h => h) (fun h => h) (fun h => h) (fun h => h) ?_
    | with_reducible refine C.same ?_ ?_ ?_ ?_ ?_ ?_ ?_ ?_ ?_ ?_ ?_ ?_ | exact fun h => h

theorem Stable.shedAll {P : State → Prop} (C : Stable P) {s : State}  (hP : P s) :
    P (State.shedAll s) := by
  unfold State.shedAll
  repeat' first
    | with_reducible assumption | with_reducible apply pres_cond | with_reducible apply pres_each
    | with_reducible apply C.wr
    | with_reducible refine C.same (fun h => h) (fun h => h) (fun h => h) (fun h => h) (fun h => h) (fun h => h) (fun h => h) (fun h => h) (fun h => h) (fun h => h) (fun h => h) ?_
    | with_reducible refine C.same ?_ ?_ ?_ ?_ ?_ ?_ ?_ ?_ ?_ ?_ ?_ ?_ | exact fun h => h | intro _

theorem Stable.enterK7 {P : State → Prop} (C : Stable P) {s : State}  (hP : P s) :
    P (State.enterK7 s) := by
  unfold State.enterK7
  repeat' first
    | with_reducible assumption | with_reducible apply C.seqRequest | with_reducible apply C.enterPhase
    | with_reducible apply C.settleShed | with_reducible apply C.shedAll

theorem Stable.seal {P : State → Prop} (C : Stable P) {s : State} (hdrA hdrB rewritten secLost : Bool) (hP : P s) :
    P (State.seal s hdrA hdrB rewritten secLost) := by
  unfold State.seal
  repeat' first
    | with_reducible assumption | with_reducible apply pres_cond | with_reducible apply pres_ite
    | with_reducible apply C.inc | with_reducible apply C.detect | with_reducible apply C.putCask
    | with_reducible apply C.enterK7
    | with_reducible refine C.same (fun h => h) (fun h => h) (fun h => h) (fun h => h) (fun h => h) (fun h => h) (fun h => h) (fun h => h) (fun h => h) (fun h => h) (fun h => h) ?_
    | with_reducible refine C.same ?_ ?_ ?_ ?_ ?_ ?_ ?_ ?_ ?_ ?_ ?_ ?_ | exact fun h => h | exact fun _ => rfl
    | exact fun _ => Nat.zero_le _ | intro _

theorem Stable.prime {P : State → Prop} (C : Stable P) {s : State}  (hP : P s) :
    P (State.prime s) := by
  unfold State.prime
  repeat' first
    | with_reducible assumption | with_reducible apply pres_ite | with_reducible apply C.wr
    | with_reducible refine C.same (fun h => h) (fun h => h) (fun h => h) (fun h => h) (fun h => h) (fun h => h) (fun h => h) (fun h => h) (fun h => h) (fun h => h) (fun h => h) ?_
    | with_reducible refine C.same ?_ ?_ ?_ ?_ ?_ ?_ ?_ ?_ ?_ ?_ ?_ ?_ | exact fun h => h

theorem Stable.unprime {P : State → Prop} (C : Stable P) {s : State}  (hP : P s) :
    P (State.unprime s) := by
  unfold State.unprime
  repeat' first
    | with_reducible assumption | with_reducible apply C.wr
    | with_reducible refine C.same (fun h => h) (fun h => h) (fun h => h) (fun h => h) (fun h => h) (fun h => h) (fun h => h) (fun h => h) (fun h => h) (fun h => h) (fun h => h) ?_
    | with_reducible refine C.same ?_ ?_ ?_ ?_ ?_ ?_ ?_ ?_ ?_ ?_ ?_ ?_ | exact fun h => h | exact fun _ => rfl
    | exact fun _ => Nat.zero_le _

theorem Stable.calBegin {P : State → Prop} (C : Stable P) {s : State}  (hP : P s) :
    P (State.calBegin s) := by
  unfold State.calBegin
  repeat' first
    | with_reducible assumption | with_reducible apply pres_cond | with_reducible apply C.wr
    | with_reducible refine C.same (fun h => h) (fun h => h) (fun h => h) (fun h => h) (fun h => h) (fun h => h) (fun h => h) (fun h => h) (fun h => h) (fun h => h) (fun h => h) ?_
    | with_reducible refine C.same ?_ ?_ ?_ ?_ ?_ ?_ ?_ ?_ ?_ ?_ ?_ ?_ | exact fun h => h | intro _

theorem Stable.toReady {P : State → Prop} (C : Stable P) {s : State}  (hP : P s) :
    P (State.toReady s) := by
  unfold State.toReady
  repeat' first
    | with_reducible assumption | with_reducible apply pres_cond | with_reducible apply pres_ite
    | with_reducible apply C.prime | with_reducible apply C.unprime | with_reducible apply C.calBegin | intro _

theorem Stable.cancelKiln {P : State → Prop} (C : Stable P) {s : State}  (hP : P s) :
    P (State.cancelKiln s) := by
  unfold State.cancelKiln
  repeat' first
    | with_reducible assumption | with_reducible apply pres_cond | with_reducible apply pres_each
    | with_reducible apply C.inc | with_reducible apply C.setHost | with_reducible apply C.setPack
    | with_reducible apply C.detect | with_reducible apply C.bgEnd | with_reducible apply C.disarmCdl
    | with_reducible apply C.pathOn | with_reducible apply C.toReady | with_reducible apply C.wr
    | with_reducible refine C.same (fun h => h) (fun h => h) (fun h => h) (fun h => h) (fun h => h) (fun h => h) (fun h => h) (fun h => h) (fun h => h) (fun h => h) (fun h => h) ?_
    | with_reducible refine C.same ?_ ?_ ?_ ?_ ?_ ?_ ?_ ?_ ?_ ?_ ?_ ?_ | exact fun h => h | exact fun _ => rfl
    | exact fun _ => Nat.zero_le _ | intro _

end Sys2Proof.Machine
end

