-- ==== Sys2Proof/Laws/Stable/FaultOps.lean ====
section
/-!
SUPPORT. Laws/Stable/FaultOps.lean: what the operations of Machine/FaultOps.lean keep (Laws/Stable.lean).
-/

namespace Sys2Proof.Machine

set_option Elab.async false
set_option linter.unusedTactic false
set_option linter.unreachableTactic false

theorem Stable.showSafe {P : State → Prop} (C : Stable P) {s : State}  (hP : P s) :
    P (State.showSafe s) := by
  unfold State.showSafe
  repeat' first
    | with_reducible assumption | with_reducible apply pres_each | with_reducible apply C.wr | intro _

theorem Stable.holdReasons {P : State → Prop} (C : Stable P) {s : State}  (hP : P s) :
    P (State.holdReasons s) := by
  unfold State.holdReasons
  repeat' first
    | with_reducible assumption | with_reducible apply pres_ite | with_reducible apply pres_foldl
    | with_reducible apply C.pstUpdate | with_reducible apply C.wr | intro _

theorem Stable.driveErrn {P : State → Prop} (C : Stable P) {s : State}  (hP : P s) :
    P (State.driveErrn s) := by
  unfold State.driveErrn
  repeat' first
    | with_reducible assumption | with_reducible apply pres_ite | with_reducible apply C.wr
    | with_reducible refine C.same (fun h => h) (fun h => h) (fun h => h) (fun h => h) (fun h => h) (fun h => h) (fun h => h) (fun h => h) (fun h => h) (fun h => h) (fun h => h) ?_
    | with_reducible refine C.same ?_ ?_ ?_ ?_ ?_ ?_ ?_ ?_ ?_ ?_ ?_ ?_ | exact fun h => h

theorem Stable.enterHist {P : State → Prop} (C : Stable P) {s : State} (e : HistEntry) (hP : P s) : P (s.enterHist e) := by
  unfold State.enterHist
  simp only
  split
  · exact hP
  · split
    · exact C.inc _ hP
    · rename_i hl
      refine C.same (fun h => h) (fun h => h) (fun h => h) (fun h => h) (fun h => h) (fun _ => ?_) (fun h => h) (fun h => h) (fun h => h) (fun h => h) (fun h => h) hP
      simp only [List.length_append, List.length_cons, List.length_nil]
      omega

theorem Stable.injSeen {P : State → Prop} (C : Stable P) {s : State} (src inst : Nat) (hP : P s) :
    P (State.injSeen s src inst) := by
  unfold State.injSeen
  repeat' first
    | with_reducible assumption | with_reducible apply C.setBit | with_reducible apply C.appendTlog
    | with_reducible apply C.enterHist
    | with_reducible refine C.same (fun h => h) (fun h => h) (fun h => h) (fun h => h) (fun h => h) (fun h => h) (fun h => h) (fun h => h) (fun h => h) (fun h => h) (fun h => h) ?_
    | with_reducible refine C.same ?_ ?_ ?_ ?_ ?_ ?_ ?_ ?_ ?_ ?_ ?_ ?_ | exact fun h => h
    | (intro h; exact Nat.le_trans (List.length_filter_le _ _) h) | intro _

theorem Stable.dispatch {P : State → Prop} (C : Stable P) {s : State} (src sev : Nat) (hP : P s) : P (s.dispatch src sev) := by
  have hp : ∀ t, P t → P { t with safe := { t.safe with pend := t.safe.pend ++ [(src, sev)] } } := fun t ht =>
    C.same (fun h => h) (fun h => h) (fun h => h) (fun h => h) (fun h => h) (fun h => h) (fun h => h) (fun h => h) (fun h => h) (fun h => h) (fun h => h) ht
  unfold State.dispatch
  simp only
  split
  · exact hP
  · split
    · exact hp _ hP
    · split
      · refine C.same (fun h => h) (fun h => h) (fun h => h) (fun h => h) (fun h => h) (fun h => h) (fun _ => ?_) (fun h => h) (fun h => h) (fun h => h) (fun h => h) hP
        simp
      · split
        · split
          · rename_i hl
            refine C.inc _ ?_
            refine C.same (fun h => h) (fun h => h) (fun h => h) (fun h => h) (fun h => h) (fun h => h) (fun _ => ?_) (fun h => h) (fun h => h) (fun h => h) (fun h => h) hP
            simp only [List.length_cons]
            omega
          · have h1 := C.inc R.SAF_NEST_OVF (hp _ hP)
            split
            · exact h1
            · exact C.detect _ _ (C.same (fun h => h) (fun h => h) (fun h => h) (fun h => h) (fun h => h) (fun h => h) (fun h => h) (fun h => h) (fun h => h) (fun h => h) (fun h => h) h1)
        · exact hp _ hP

theorem Stable.kilnAction {P : State → Prop} (C : Stable P) {s : State} (src : Nat) (hP : P s) :
    P (State.kilnAction s src) := by
  unfold State.kilnAction
  repeat' first
    | with_reducible assumption | with_reducible apply pres_cond | with_reducible apply pres_ite
    | with_reducible apply C.inc | with_reducible apply C.detect | with_reducible apply C.fireTrigger
    | with_reducible apply C.wr | intro _

theorem Stable.repeatedFail {P : State → Prop} (C : Stable P) {s : State} (src : Nat) (hP : P s) :
    P (State.repeatedFail s src) := by
  unfold State.repeatedFail
  repeat' first
    | with_reducible assumption | with_reducible apply pres_cond | with_reducible apply pres_ite
    | with_reducible apply C.setCond
    | with_reducible refine C.same (fun h => h) (fun h => h) (fun h => h) (fun h => h) (fun h => h) (fun h => h) (fun h => h) (fun h => h) (fun h => h) (fun h => h) (fun h => h) ?_
    | with_reducible refine C.same ?_ ?_ ?_ ?_ ?_ ?_ ?_ ?_ ?_ ?_ ?_ ?_ | exact fun h => h | intro _

theorem Stable.latch {P : State → Prop} (C : Stable P) {s : State} (src inst : Nat) (hP : P s) :
    P (State.latch s src inst) := by
  unfold State.latch
  repeat' first
    | with_reducible assumption | with_reducible apply pres_cond | with_reducible apply pres_ite
    | with_reducible apply C.inc | with_reducible apply C.setBit | with_reducible apply C.restExit
    | with_reducible apply C.enterHist | with_reducible apply C.dispatch | with_reducible apply C.kilnAction
    | with_reducible apply C.repeatedFail | with_reducible apply C.activate | with_reducible apply C.wr
    | with_reducible refine C.same (fun h => h) (fun h => h) (fun h => h) (fun h => h) (fun h => h) (fun h => h) (fun h => h) (fun h => h) (fun h => h) (fun h => h) (fun h => h) ?_
    | with_reducible refine C.same ?_ ?_ ?_ ?_ ?_ ?_ ?_ ?_ ?_ ?_ ?_ ?_ | exact fun h => h | intro _

theorem Stable.closeWindow {P : State → Prop} (C : Stable P) {s : State}  (hP : P s) :
    P (State.closeWindow s) := by
  unfold State.closeWindow
  repeat' first
    | with_reducible assumption | with_reducible apply pres_foldl | with_reducible apply C.latch
    | with_reducible refine C.same (fun h => h) (fun h => h) (fun h => h) (fun h => h) (fun h => h) (fun h => h) (fun h => h) (fun h => h) (fun h => h) (fun h => h) (fun h => h) ?_
    | with_reducible refine C.same ?_ ?_ ?_ ?_ ?_ ?_ ?_ ?_ ?_ ?_ ?_ ?_ | exact fun h => h | exact fun _ => rfl
    | exact fun _ => Nat.zero_le _ | intro _

theorem Stable.releaseEnded {P : State → Prop} (C : Stable P) {s : State}  (hP : P s) :
    P (State.releaseEnded s) := by
  unfold State.releaseEnded
  repeat' first
    | with_reducible assumption
    | with_reducible refine C.same (fun h => h) (fun h => h) (fun h => h) (fun h => h) (fun h => h) (fun h => h) (fun h => h) (fun h => h) (fun h => h) (fun h => h) (fun h => h) ?_
    | with_reducible refine C.same ?_ ?_ ?_ ?_ ?_ ?_ ?_ ?_ ?_ ?_ ?_ ?_ | exact fun h => h
    | (intro h; exact Nat.le_trans (List.length_filter_le _ _) h) | intro _

theorem Stable.faultState {P : State → Prop} (C : Stable P) {s : State}  (hP : P s) :
    P (State.faultState s) := by
  unfold State.faultState
  repeat' first
    | with_reducible assumption | with_reducible apply pres_ite | with_reducible apply C.wr | intro _

theorem Stable.runPending {P : State → Prop} (C : Stable P) {s : State} (hP : P s) : P s.runPending := by
  unfold State.runPending
  split
  · exact hP
  · split
    · rename_i hc
      refine pres_cond ?_ (fun t ht => C.inc _ ht)
      refine C.same (fun h => h) (fun h => h) (fun h => h) (fun h => h) (fun h => h) (fun h => h) (fun _ => ?_) (fun h => h) (fun h => h) (fun h => h) (fun h => h) hP
      simp only [List.length_cons]
      rcases hc.2 with h | h
      · rw [List.isEmpty_iff] at h
        rw [h]
        simp
      · omega
    · exact hP

theorem Stable.settle {P : State → Prop} (C : Stable P) {s : State} (hP : P s) : ∀ k, P (s.settle k) := by
  intro k
  induction k generalizing s with
  | zero => exact hP
  | succ k ih =>
    unfold State.settle
    simp only
    split
    · exact ih (C.fallback hP)
    · split
      · have h2 : P (((((s.releaseEnded).faultState).holdReasons).runPending).showSafe) :=
          C.showSafe (C.runPending (C.holdReasons (C.faultState (C.releaseEnded hP))))
        split
        · exact C.driveErrn h2
        · exact ih h2
      · exact ih (C.closeWindow hP)

theorem Stable.finish {P : State → Prop} (C : Stable P) {s : State} (hP : P s) : P (finish s) := C.settle hP 16

end Sys2Proof.Machine
end

