-- ==== Sys2Proof/Laws/Stable/PackOps.lean ====
section
/-!
SUPPORT. Laws/Stable/PackOps.lean: what the operations of Machine/PackOps.lean keep (Laws/Stable.lean).
-/

namespace Sys2Proof.Machine

set_option Elab.async false
set_option linter.unusedTactic false
set_option linter.unreachableTactic false

theorem Stable.post {P : State → Prop} (C : Stable P) {s : State} (slot : Nat) (e : SchedSlot) (hP : P s) :
    P (State.post s slot e) := by
  unfold State.post
  repeat' first
    | with_reducible assumption
    | with_reducible refine C.same (fun h => h) (fun h => h) (fun h => h) (fun h => h) (fun h => h) (fun h => h) (fun h => h) (fun h => h) (fun h => h) (fun h => h) (fun h => h) ?_
    | with_reducible refine C.same ?_ ?_ ?_ ?_ ?_ ?_ ?_ ?_ ?_ ?_ ?_ ?_ | exact fun h => h
    | (intro h; exact Nat.le_trans (List.length_filter_le _ _) h) | intro _

theorem Stable.showSteps {P : State → Prop} (C : Stable P) {s : State}  (hP : P s) :
    P (State.showSteps s) := by
  unfold State.showSteps
  repeat' first
    | with_reducible assumption | with_reducible apply pres_each | with_reducible apply C.wr | intro _

theorem Stable.gaugeShow {P : State → Prop} (C : Stable P) {s : State}  (hP : P s) :
    P (State.gaugeShow s) := by
  unfold State.gaugeShow
  repeat' first
    | with_reducible assumption | with_reducible apply pres_cond | with_reducible apply pres_ite
    | with_reducible apply pres_each | with_reducible apply C.detect | with_reducible apply C.wr | intro _

theorem Stable.packJudge {P : State → Prop} (C : Stable P) {s : State} (p : Nat) (hP : P s) :
    P (State.packJudge s p) := by
  unfold State.packJudge
  repeat' first
    | with_reducible assumption | with_reducible apply pres_cond | with_reducible apply pres_ite
    | with_reducible apply C.setBit | with_reducible apply C.setCond | with_reducible apply C.gaugeShow
    | with_reducible apply C.wr | intro _

theorem Stable.uncount {P : State → Prop} (C : Stable P) {s : State} (p b : Nat) (on : Bool) (hP : P s) :
    P (State.uncount s p b on) := by
  unfold State.uncount
  repeat' first
    | with_reducible assumption | with_reducible apply C.setBit | with_reducible apply C.packJudge

theorem Stable.chargeCheck {P : State → Prop} (C : Stable P) {s : State} (p : Nat) (hP : P s) :
    P (State.chargeCheck s p) := by
  unfold State.chargeCheck
  repeat' first
    | with_reducible assumption | with_reducible apply pres_ite | with_reducible apply C.post | intro _

theorem Stable.chargerSet {P : State → Prop} (C : Stable P) {s : State} (p : Nat) (hP : P s) :
    P (State.chargerSet s p) := by
  unfold State.chargerSet
  repeat' first
    | with_reducible assumption | with_reducible apply C.setPack | with_reducible apply C.wr
    | with_reducible refine C.same (fun h => h) (fun h => h) (fun h => h) (fun h => h) (fun h => h) (fun h => h) (fun h => h) (fun h => h) (fun h => h) (fun h => h) (fun h => h) ?_
    | with_reducible refine C.same ?_ ?_ ?_ ?_ ?_ ?_ ?_ ?_ ?_ ?_ ?_ ?_ | exact fun h => h

theorem Stable.showDisagree {P : State → Prop} (C : Stable P) {s : State}  (hP : P s) :
    P (State.showDisagree s) := by
  unfold State.showDisagree
  repeat' first
    | with_reducible assumption | with_reducible apply C.disagree | with_reducible apply C.wr

theorem Stable.chargeOff {P : State → Prop} (C : Stable P) {s : State} (p : Nat) (hP : P s) :
    P (State.chargeOff s p) := by
  unfold State.chargeOff
  repeat' first
    | with_reducible assumption | with_reducible apply C.wr

theorem Stable.chargeStop {P : State → Prop} (C : Stable P) {s : State} (p : Nat) (hP : P s) :
    P (State.chargeStop s p) := by
  unfold State.chargeStop
  repeat' first
    | with_reducible assumption | with_reducible apply pres_ite | with_reducible apply C.setPack
    | with_reducible apply C.post | with_reducible apply C.chargeOff
    | with_reducible refine C.same (fun h => h) (fun h => h) (fun h => h) (fun h => h) (fun h => h) (fun h => h) (fun h => h) (fun h => h) (fun h => h) (fun h => h) (fun h => h) ?_
    | with_reducible refine C.same ?_ ?_ ?_ ?_ ?_ ?_ ?_ ?_ ?_ ?_ ?_ ?_ | exact fun h => h | intro _

theorem Stable.sendChallenge {P : State → Prop} (C : Stable P) {s : State} (p : Nat) (hP : P s) :
    P (State.sendChallenge s p) := by
  unfold State.sendChallenge
  repeat' first
    | with_reducible assumption | with_reducible apply C.takeFree | with_reducible apply C.send
    | with_reducible apply C.setPack | with_reducible apply C.wr
    | with_reducible refine C.same (fun h => h) (fun h => h) (fun h => h) (fun h => h) (fun h => h) (fun h => h) (fun h => h) (fun h => h) (fun h => h) (fun h => h) (fun h => h) ?_
    | with_reducible refine C.same ?_ ?_ ?_ ?_ ?_ ?_ ?_ ?_ ?_ ?_ ?_ ?_ | exact fun h => h

theorem Stable.startAuth {P : State → Prop} (C : Stable P) {s : State} (p : Nat) (daily : Bool) (hP : P s) :
    P (State.startAuth s p daily) := by
  unfold State.startAuth
  repeat' first
    | with_reducible assumption | with_reducible apply pres_ite | with_reducible apply C.setPack
    | with_reducible apply C.sendChallenge
    | with_reducible refine C.same (fun h => h) (fun h => h) (fun h => h) (fun h => h) (fun h => h) (fun h => h) (fun h => h) (fun h => h) (fun h => h) (fun h => h) (fun h => h) ?_
    | with_reducible refine C.same ?_ ?_ ?_ ?_ ?_ ?_ ?_ ?_ ?_ ?_ ?_ ?_ | exact fun h => h

theorem Stable.authDue {P : State → Prop} (C : Stable P) {s : State}  (hP : P s) :
    P (State.authDue s) := by
  unfold State.authDue
  repeat' first
    | with_reducible assumption | with_reducible apply pres_cond | with_reducible apply pres_foldl
    | with_reducible apply C.startAuth | intro _

theorem Stable.endRest {P : State → Prop} (C : Stable P) {s : State}  (hP : P s) :
    P (State.endRest s) := by
  unfold State.endRest
  repeat' first
    | with_reducible assumption | with_reducible apply C.authDue | with_reducible apply C.wr

theorem Stable.ramp {P : State → Prop} (C : Stable P) {s : State} (p before : Nat) (hP : P s) :
    P (State.ramp s p before) := by
  unfold State.ramp
  repeat' first
    | with_reducible assumption | with_reducible apply pres_ite | with_reducible apply C.setPack
    | with_reducible refine C.same (fun h => h) (fun h => h) (fun h => h) (fun h => h) (fun h => h) (fun h => h) (fun h => h) (fun h => h) (fun h => h) (fun h => h) (fun h => h) ?_
    | with_reducible refine C.same ?_ ?_ ?_ ?_ ?_ ?_ ?_ ?_ ?_ ?_ ?_ ?_ | exact fun h => h

theorem Stable.ageGauge {P : State → Prop} (C : Stable P) {s : State} (p : Nat) (hP : P s) :
    P (State.ageGauge s p) := by
  unfold State.ageGauge
  repeat' first
    | with_reducible assumption | with_reducible apply pres_ite | with_reducible apply C.setPack
    | with_reducible apply C.ramp | with_reducible apply C.wr
    | with_reducible refine C.same (fun h => h) (fun h => h) (fun h => h) (fun h => h) (fun h => h) (fun h => h) (fun h => h) (fun h => h) (fun h => h) (fun h => h) (fun h => h) ?_
    | with_reducible refine C.same ?_ ?_ ?_ ?_ ?_ ?_ ?_ ?_ ?_ ?_ ?_ ?_ | exact fun h => h

theorem Stable.replacePack {P : State → Prop} (C : Stable P) {s : State} (p : Nat) (hP : P s) :
    P (State.replacePack s p) := by
  unfold State.replacePack
  repeat' first
    | with_reducible assumption | with_reducible apply pres_ite | with_reducible apply C.detect
    | with_reducible apply C.healthNote | with_reducible apply C.wr

theorem Stable.packHours {P : State → Prop} (C : Stable P) {s : State}  (hP : P s) :
    P (State.packHours s) := by
  unfold State.packHours
  repeat' first
    | with_reducible assumption | with_reducible apply pres_cond | with_reducible apply pres_ite
    | with_reducible apply pres_foldl | with_reducible apply C.replacePack | with_reducible apply C.wr | intro _

theorem Stable.storeLearnt {P : State → Prop} (C : Stable P) {s : State} (p : Nat) (hP : P s) :
    P (State.storeLearnt s p) := by
  unfold State.storeLearnt
  repeat' first
    | with_reducible assumption
    | with_reducible refine C.same (fun h => h) (fun h => h) (fun h => h) (fun h => h) (fun h => h) (fun h => h) (fun h => h) (fun h => h) (fun h => h) (fun h => h) (fun h => h) ?_
    | with_reducible refine C.same ?_ ?_ ?_ ?_ ?_ ?_ ?_ ?_ ?_ ?_ ?_ ?_ | exact fun h => h
    | (intro h; exact Nat.le_trans (List.length_filter_le _ _) h) | intro _

theorem Stable.estCease {P : State → Prop} (C : Stable P) {s : State}  (hP : P s) :
    P (State.estCease s) := by
  unfold State.estCease
  repeat' first
    | with_reducible assumption | with_reducible apply pres_cond
    | with_reducible refine C.same (fun h => h) (fun h => h) (fun h => h) (fun h => h) (fun h => h) (fun h => h) (fun h => h) (fun h => h) (fun h => h) (fun h => h) (fun h => h) ?_
    | with_reducible refine C.same ?_ ?_ ?_ ?_ ?_ ?_ ?_ ?_ ?_ ?_ ?_ ?_ | exact fun h => h | intro _

theorem Stable.removePack {P : State → Prop} (C : Stable P) {s : State} (p : Nat) (hP : P s) :
    P (State.removePack s p) := by
  unfold State.removePack
  repeat' first
    | with_reducible assumption | with_reducible apply pres_cond | with_reducible apply C.setPack
    | with_reducible apply C.setCond | with_reducible apply C.dropTest | with_reducible apply C.showDisagree
    | with_reducible apply C.chargeStop | with_reducible apply C.storeLearnt | with_reducible apply C.estCease
    | with_reducible apply C.wr | intro _

end Sys2Proof.Machine
end

