-- ==== Sys2Proof/Laws/Stable/PowerOps.lean ====
section
/-!
SUPPORT. Laws/Stable/PowerOps.lean: what the operations of Machine/PowerOps.lean keep (Laws/Stable.lean).
-/

namespace Sys2Proof.Machine

set_option Elab.async false
set_option linter.unusedTactic false
set_option linter.unreachableTactic false

theorem Stable.startReset {P : State → Prop} (C : Stable P) {s : State} (hP : P s) : P s.startReset := by
  have h1 := C.restoreSettings (C.flashAbandon hP)
  unfold State.startReset
  generalize s.flashAbandon.restoreSettings = u at h1
  refine pres_cond ?_ (fun t ht => C.setCond _ _ _ ht)
  refine C.same (fun h => NMap.wf_keep _ h) (fun _ => rfl) (fun _ => rfl) (fun _ => rfl) (fun _ => Nat.zero_le _)
    (fun _ => Nat.zero_le _) (fun _ => Nat.zero_le _) (fun _ => Nat.zero_le _) (fun _ => Nat.zero_le _) ?_ ?_ h1 <;>
  · intro _ l hl
    simp only [List.mem_cons, List.not_mem_nil, or_false, or_self] at hl
    simp [hl]


theorem Stable.startBegin {P : State → Prop} (C : Stable P) {s : State} (cause : Nat) (hP : P s) :
    P (State.startBegin s cause) := by
  unfold State.startBegin
  repeat' first
    | with_reducible assumption | with_reducible apply pres_cond | with_reducible apply C.fuse
    | with_reducible apply C.tlog | with_reducible apply C.showSeq | with_reducible apply C.seqRequest
    | with_reducible apply C.startReset | with_reducible apply C.wr
    | with_reducible refine C.same (fun h => h) (fun h => h) (fun h => h) (fun h => h) (fun h => h) (fun h => h) (fun h => h) (fun h => h) (fun h => h) (fun h => h) (fun h => h) ?_
    | with_reducible refine C.same ?_ ?_ ?_ ?_ ?_ ?_ ?_ ?_ ?_ ?_ ?_ ?_ | exact fun h => h | exact fun _ => rfl
    | exact fun _ => Nat.zero_le _ | intro _

theorem Stable.openPaths {P : State → Prop} (C : Stable P) {s : State}  (hP : P s) :
    P (State.openPaths s) := by
  unfold State.openPaths
  repeat' first
    | with_reducible assumption | with_reducible apply C.setPack | with_reducible apply C.pathOn
    | with_reducible refine C.same (fun h => h) (fun h => h) (fun h => h) (fun h => h) (fun h => h) (fun h => h) (fun h => h) (fun h => h) (fun h => h) (fun h => h) (fun h => h) ?_
    | with_reducible refine C.same ?_ ?_ ?_ ?_ ?_ ?_ ?_ ?_ ?_ ?_ ?_ ?_ | exact fun h => h

theorem Stable.coreOff {P : State → Prop} (C : Stable P) {s : State}  (hP : P s) :
    P (State.coreOff s) := by
  unfold State.coreOff
  repeat' first
    | with_reducible assumption
    | with_reducible refine C.same (fun h => h) (fun h => h) (fun h => h) (fun h => h) (fun h => h) (fun h => h) (fun h => h) (fun h => h) (fun h => h) (fun h => h) (fun h => h) ?_
    | with_reducible refine C.same ?_ ?_ ?_ ?_ ?_ ?_ ?_ ?_ ?_ ?_ ?_ ?_ | exact fun h => h | exact fun _ => rfl
    | exact fun _ => Nat.zero_le _

theorem Stable.enterP4 {P : State → Prop} (C : Stable P) {s : State}  (hP : P s) :
    P (State.enterP4 s) := by
  unfold State.enterP4
  repeat' first
    | with_reducible assumption | with_reducible apply C.seqRequest | with_reducible apply C.announce
    | with_reducible apply C.hrOff | with_reducible apply C.openPaths | with_reducible apply C.coreOff
    | with_reducible apply C.wr
    | with_reducible refine C.same (fun h => h) (fun h => h) (fun h => h) (fun h => h) (fun h => h) (fun h => h) (fun h => h) (fun h => h) (fun h => h) (fun h => h) (fun h => h) ?_
    | with_reducible refine C.same ?_ ?_ ?_ ?_ ?_ ?_ ?_ ?_ ?_ ?_ ?_ ?_ | exact fun h => h
    | (intro h; exact Nat.le_trans (List.length_filter_le _ _) h) | intro _

theorem Stable.goDown {P : State → Prop} (C : Stable P) {s : State}  (hP : P s) :
    P (State.goDown s) := by
  unfold State.goDown
  repeat' first
    | with_reducible assumption | with_reducible apply pres_ite | with_reducible apply C.seqRequest
    | with_reducible apply C.enterP4 | split
    | with_reducible refine C.same (fun h => h) (fun h => h) (fun h => h) (fun h => h) (fun h => h) (fun h => h) (fun h => h) (fun h => h) (fun h => h) (fun h => h) (fun h => h) ?_
    | with_reducible refine C.same ?_ ?_ ?_ ?_ ?_ ?_ ?_ ?_ ?_ ?_ ?_ ?_ | exact fun h => h

theorem Stable.enterP3 {P : State → Prop} (C : Stable P) {s : State}  (hP : P s) :
    P (State.enterP3 s) := by
  unfold State.enterP3
  repeat' first
    | with_reducible assumption | with_reducible apply C.inc | with_reducible apply C.seqRequest
    | with_reducible apply C.announce | with_reducible apply C.hrOff | with_reducible apply C.chargeOff
    | with_reducible apply C.coreOff | with_reducible apply C.wr
    | with_reducible refine C.same (fun h => h) (fun h => h) (fun h => h) (fun h => h) (fun h => h) (fun h => h) (fun h => h) (fun h => h) (fun h => h) (fun h => h) (fun h => h) ?_
    | with_reducible refine C.same ?_ ?_ ?_ ?_ ?_ ?_ ?_ ?_ ?_ ?_ ?_ ?_ | exact fun h => h

theorem Stable.wake {P : State → Prop} (C : Stable P) {s : State} (src : Nat) (hP : P s) :
    P (State.wake s src) := by
  unfold State.wake
  repeat' first
    | with_reducible assumption | with_reducible apply pres_cond | with_reducible apply pres_ite
    | with_reducible apply C.inc | with_reducible apply C.seqRequest | with_reducible apply C.startBegin
    | with_reducible apply C.wr | split
    | with_reducible refine C.same (fun h => h) (fun h => h) (fun h => h) (fun h => h) (fun h => h) (fun h => h) (fun h => h) (fun h => h) (fun h => h) (fun h => h) (fun h => h) ?_
    | with_reducible refine C.same ?_ ?_ ?_ ?_ ?_ ?_ ?_ ?_ ?_ ?_ ?_ ?_ | exact fun h => h | intro _

theorem Stable.failStart {P : State → Prop} (C : Stable P) {s : State} (step cause : Nat) (hP : P s) :
    P (State.failStart s step cause) := by
  unfold State.failStart
  repeat' first
    | with_reducible assumption | with_reducible apply pres_cond | with_reducible apply pres_ite
    | with_reducible apply C.inc | with_reducible apply C.detect | with_reducible apply C.seqRequest
    | with_reducible apply C.wr
    | with_reducible refine C.same (fun h => h) (fun h => h) (fun h => h) (fun h => h) (fun h => h) (fun h => h) (fun h => h) (fun h => h) (fun h => h) (fun h => h) (fun h => h) ?_
    | with_reducible refine C.same ?_ ?_ ?_ ?_ ?_ ?_ ?_ ?_ ?_ ?_ ?_ ?_ | exact fun h => h | exact fun _ => rfl
    | exact fun _ => Nat.zero_le _ | intro _

theorem Stable.stepDone {P : State → Prop} (C : Stable P) {s : State} (n ms : Nat) (hP : P s) :
    P (State.stepDone s n ms) := by
  unfold State.stepDone
  repeat' first
    | with_reducible assumption | with_reducible apply pres_ite | with_reducible apply C.tlog
    | with_reducible apply C.wr
    | with_reducible refine C.same (fun h => h) (fun h => h) (fun h => h) (fun h => h) (fun h => h) (fun h => h) (fun h => h) (fun h => h) (fun h => h) (fun h => h) (fun h => h) ?_
    | with_reducible refine C.same ?_ ?_ ?_ ?_ ?_ ?_ ?_ ?_ ?_ ?_ ?_ ?_ | exact fun h => h
    | (intro h; exact Nat.le_trans (List.length_filter_le _ _) h) | intro _

theorem Stable.showCask {P : State → Prop} (C : Stable P) {s : State} (c : Cask) (hP : P s) :
    P (State.showCask s c) := by
  unfold State.showCask
  repeat' first
    | with_reducible assumption | with_reducible apply pres_each | with_reducible apply C.wr | intro _

theorem Stable.st1Begin {P : State → Prop} (C : Stable P) {s : State} (okA okB : Bool) (hP : P s) :
    P (State.st1Begin s okA okB) := by
  unfold State.st1Begin
  repeat' first
    | with_reducible assumption | with_reducible apply pres_cond | with_reducible apply pres_ite
    | with_reducible apply pres_each | with_reducible apply C.inc | with_reducible apply C.bump
    | with_reducible apply C.detect | with_reducible apply C.seqRequest | with_reducible apply C.showCask
    | with_reducible apply C.wr | split
    | with_reducible refine C.same (fun h => h) (fun h => h) (fun h => h) (fun h => h) (fun h => h) (fun h => h) (fun h => h) (fun h => h) (fun h => h) (fun h => h) (fun h => h) ?_
    | with_reducible refine C.same ?_ ?_ ?_ ?_ ?_ ?_ ?_ ?_ ?_ ?_ ?_ ?_ | exact fun h => h
    | (intro h; simp only [List.length_map]; exact h) | intro _

theorem Stable.overlay {P : State → Prop} (C : Stable P) {s : State} (l : KilnLog) (hP : P s) :
    P (State.overlay s l) := by
  unfold State.overlay
  repeat' first
    | with_reducible assumption | with_reducible apply pres_ite | with_reducible apply pres_foldl | split
    | with_reducible refine C.same (fun h => h) (fun h => h) (fun h => h) (fun h => h) (fun h => h) (fun h => h) (fun h => h) (fun h => h) (fun h => h) (fun h => h) (fun h => h) ?_
    | with_reducible refine C.same ?_ ?_ ?_ ?_ ?_ ?_ ?_ ?_ ?_ ?_ ?_ ?_ | exact fun h => h | exact NMap.wf_set _ _
    | (intro h; simp only [List.length_map]; exact h) | intro _

theorem Stable.applySections {P : State → Prop} (C : Stable P) {s : State} (c : Cask) (sealed : Bool) (hP : P s) :
    P (State.applySections s c sealed) := by
  unfold State.applySections
  repeat' first
    | with_reducible assumption | with_reducible apply pres_ite | with_reducible apply C.tlog
    | with_reducible apply C.wr
    | with_reducible refine C.same (fun h => h) (fun h => h) (fun h => h) (fun h => h) (fun h => h) (fun h => h) (fun h => h) (fun h => h) (fun h => h) (fun h => h) (fun h => h) ?_
    | with_reducible refine C.same ?_ ?_ ?_ ?_ ?_ ?_ ?_ ?_ ?_ ?_ ?_ ?_ | exact fun h => h

theorem Stable.restoreWear {P : State → Prop} (C : Stable P) {s : State} (best : Option Cask) (hP : P s) :
    P (State.restoreWear s best) := by
  unfold State.restoreWear
  repeat' first
    | with_reducible assumption | with_reducible apply pres_ite | with_reducible apply C.wr | split
    | with_reducible refine C.same (fun h => h) (fun h => h) (fun h => h) (fun h => h) (fun h => h) (fun h => h) (fun h => h) (fun h => h) (fun h => h) (fun h => h) (fun h => h) ?_
    | with_reducible refine C.same ?_ ?_ ?_ ?_ ?_ ?_ ?_ ?_ ?_ ?_ ?_ ?_ | exact fun h => h | intro _

theorem Stable.applyUnsealed {P : State → Prop} (C : Stable P) {s : State}  (hP : P s) :
    P (State.applyUnsealed s) := by
  unfold State.applyUnsealed
  repeat' first
    | with_reducible assumption | with_reducible apply pres_ite | with_reducible apply pres_foldl
    | with_reducible apply C.detect
    | with_reducible refine C.same (fun h => h) (fun h => h) (fun h => h) (fun h => h) (fun h => h) (fun h => h) (fun h => h) (fun h => h) (fun h => h) (fun h => h) (fun h => h) ?_
    | with_reducible refine C.same ?_ ?_ ?_ ?_ ?_ ?_ ?_ ?_ ?_ ?_ ?_ ?_ | exact fun h => h | exact fun _ => rfl
    | exact fun _ => Nat.zero_le _ | intro _

theorem Stable.reclaimGroups {P : State → Prop} (C : Stable P) {s : State}  (hP : P s) :
    P (State.reclaimGroups s) := by
  unfold State.reclaimGroups
  repeat' first
    | with_reducible assumption | with_reducible apply pres_ite
    | with_reducible refine C.same (fun h => h) (fun h => h) (fun h => h) (fun h => h) (fun h => h) (fun h => h) (fun h => h) (fun h => h) (fun h => h) (fun h => h) (fun h => h) ?_
    | with_reducible refine C.same ?_ ?_ ?_ ?_ ?_ ?_ ?_ ?_ ?_ ?_ ?_ ?_ | exact fun h => h
    | (intro h; simp only [List.length_map]; exact h) | intro _

theorem Stable.stepHold {P : State → Prop} (C : Stable P) {s : State} (n : Nat) (hP : P s) :
    P (State.stepHold s n) := by
  unfold State.stepHold
  repeat' first
    | with_reducible assumption | with_reducible apply C.wr
    | with_reducible refine C.same (fun h => h) (fun h => h) (fun h => h) (fun h => h) (fun h => h) (fun h => h) (fun h => h) (fun h => h) (fun h => h) (fun h => h) (fun h => h) ?_
    | with_reducible refine C.same ?_ ?_ ?_ ?_ ?_ ?_ ?_ ?_ ?_ ?_ ?_ ?_ | exact fun h => h

theorem Stable.showChain {P : State → Prop} (C : Stable P) {s : State}  (hP : P s) :
    P (State.showChain s) := by
  unfold State.showChain
  repeat' first
    | with_reducible assumption | with_reducible apply C.wr | intro _

theorem Stable.buildMap {P : State → Prop} (C : Stable P) {s : State} (best : Option Cask) (hP : P s) :
    P (State.buildMap s best) := by
  unfold State.buildMap
  repeat' first
    | with_reducible assumption | with_reducible apply pres_foldl | with_reducible apply C.overlay | split
    | with_reducible refine C.same (fun h => h) (fun h => h) (fun h => h) (fun h => h) (fun h => h) (fun h => h) (fun h => h) (fun h => h) (fun h => h) (fun h => h) (fun h => h) ?_
    | with_reducible refine C.same ?_ ?_ ?_ ?_ ?_ ?_ ?_ ?_ ?_ ?_ ?_ ?_ | exact fun h => h | exact NMap.wf_keep _
    | exact NMap.wf_set _ _ | exact fun _ => rfl | exact fun _ => Nat.zero_le _
    | (intro h; simp only [List.length_map]; exact h) | (intro h; exact Nat.le_trans (List.length_filter_le _ _) h)
    | intro _

theorem Stable.openEpoch {P : State → Prop} (C : Stable P) {s : State} (best : Option Cask) (bad : Bool) (hP : P s) :
    P (State.openEpoch s best bad) := by
  unfold State.openEpoch
  repeat' first
    | with_reducible assumption | with_reducible apply pres_ite | with_reducible apply C.wr
    | with_reducible refine C.same (fun h => h) (fun h => h) (fun h => h) (fun h => h) (fun h => h) (fun h => h) (fun h => h) (fun h => h) (fun h => h) (fun h => h) (fun h => h) ?_
    | with_reducible refine C.same ?_ ?_ ?_ ?_ ?_ ?_ ?_ ?_ ?_ ?_ ?_ ?_ | exact fun h => h

theorem Stable.st1Load {P : State → Prop} (C : Stable P) {s : State} (okA okB ckpt0 ckpt1 : Bool) (hP : P s) :
    P (State.st1Load s okA okB ckpt0 ckpt1).1 := by
  unfold State.st1Load
  repeat' first
    | with_reducible assumption | with_reducible apply pres_cond | with_reducible apply pres_ite
    | with_reducible apply C.detect | with_reducible apply C.showMap | with_reducible apply C.showZ
    | with_reducible apply C.showQueues | with_reducible apply C.applySections | with_reducible apply C.restoreWear
    | with_reducible apply C.applyUnsealed | with_reducible apply C.reclaimGroups | with_reducible apply C.stepHold
    | with_reducible apply C.showChain | with_reducible apply C.buildMap | with_reducible apply C.openEpoch
    | with_reducible apply C.wr | with_reducible apply pres_ite_fst | split
    | with_reducible refine C.same (fun h => h) (fun h => h) (fun h => h) (fun h => h) (fun h => h) (fun h => h) (fun h => h) (fun h => h) (fun h => h) (fun h => h) (fun h => h) ?_
    | with_reducible refine C.same ?_ ?_ ?_ ?_ ?_ ?_ ?_ ?_ ?_ ?_ ?_ ?_ | exact fun h => h | exact fun _ => rfl
    | exact fun _ => Nat.zero_le _ | (intro h; simp only [List.length_map]; exact h)
    | (intro h; exact Nat.le_trans (List.length_filter_le _ _) h) | intro _

theorem Stable.assumeUnpow {P : State → Prop} (C : Stable P) {s : State}  (hP : P s) :
    P (State.assumeUnpow s) := by
  unfold State.assumeUnpow
  repeat' first
    | with_reducible assumption | with_reducible apply pres_ite | with_reducible apply C.detect
    | with_reducible apply C.ageGauge | with_reducible apply C.wr
    | with_reducible refine C.same (fun h => h) (fun h => h) (fun h => h) (fun h => h) (fun h => h) (fun h => h) (fun h => h) (fun h => h) (fun h => h) (fun h => h) (fun h => h) ?_
    | with_reducible refine C.same ?_ ?_ ?_ ?_ ?_ ?_ ?_ ?_ ?_ ?_ ?_ ?_ | exact fun h => h

theorem Stable.steepReadyNow {P : State → Prop} (C : Stable P) {s : State} (ms : Nat) (hP : P s) :
    P (State.steepReadyNow s ms) := by
  unfold State.steepReadyNow
  repeat' first
    | with_reducible assumption | with_reducible apply pres_cond | with_reducible apply pres_ite
    | with_reducible apply C.detect | with_reducible apply C.vendor | with_reducible apply C.setCond
    | with_reducible apply C.showSteep | with_reducible apply C.steepCheck | with_reducible apply C.announce
    | with_reducible apply C.rackStart | with_reducible apply C.toReady | with_reducible apply C.showChain
    | with_reducible apply C.assumeUnpow | with_reducible apply C.wr
    | with_reducible refine C.same (fun h => h) (fun h => h) (fun h => h) (fun h => h) (fun h => h) (fun h => h) (fun h => h) (fun h => h) (fun h => h) (fun h => h) (fun h => h) ?_
    | with_reducible refine C.same ?_ ?_ ?_ ?_ ?_ ?_ ?_ ?_ ?_ ?_ ?_ ?_ | exact fun h => h | exact fun _ => rfl
    | exact fun _ => Nat.zero_le _ | (intro h; simp only [List.length_map]; exact h) | intro _

theorem Stable.showRest {P : State → Prop} (C : Stable P) {s : State}  (hP : P s) :
    P (State.showRest s) := by
  unfold State.showRest
  repeat' first
    | with_reducible assumption | with_reducible apply pres_ite | with_reducible apply C.wr

theorem Stable.restCease {P : State → Prop} (C : Stable P) {s : State}  (hP : P s) :
    P (State.restCease s) := by
  unfold State.restCease
  repeat' first
    | with_reducible assumption | with_reducible apply pres_cond | with_reducible apply C.restExit | intro _

theorem Stable.restEnter {P : State → Prop} (C : Stable P) {s : State} (n : Nat) (hP : P s) :
    P (State.restEnter s n) := by
  unfold State.restEnter
  repeat' first
    | with_reducible assumption | with_reducible apply pres_cond | with_reducible apply pres_ite
    | with_reducible apply pres_each | with_reducible apply C.inc | with_reducible apply C.seqRequest
    | with_reducible apply C.announce | with_reducible apply C.wr | intro _

theorem Stable.ranksActive {P : State → Prop} (C : Stable P) {s : State}  (hP : P s) :
    P (State.ranksActive s) := by
  unfold State.ranksActive
  repeat' first
    | with_reducible assumption | with_reducible apply pres_cond | with_reducible apply pres_each
    | with_reducible apply C.wr | intro _

theorem Stable.seqSettle {P : State → Prop} (C : Stable P) {s : State}  (hP : P s) :
    P (State.seqSettle s) := by
  unfold State.seqSettle
  repeat' first
    | with_reducible assumption | with_reducible apply pres_cond | with_reducible apply pres_ite
    | with_reducible apply C.detect | with_reducible apply C.k2Check | with_reducible apply C.startBegin
    | with_reducible apply C.enterP4 | with_reducible apply C.failStart | with_reducible apply C.wr | split
    | with_reducible refine C.same (fun h => h) (fun h => h) (fun h => h) (fun h => h) (fun h => h) (fun h => h) (fun h => h) (fun h => h) (fun h => h) (fun h => h) (fun h => h) ?_
    | with_reducible refine C.same ?_ ?_ ?_ ?_ ?_ ?_ ?_ ?_ ?_ ?_ ?_ ?_ | exact fun h => h | intro _

end Sys2Proof.Machine
end

