-- ==== Sys2Proof/Laws/Stable/RecOps.lean ====
section
/-!
SUPPORT. Laws/Stable/RecOps.lean: what the operations of Machine/RecOps.lean keep (Laws/Stable.lean).
-/

namespace Sys2Proof.Machine

set_option Elab.async false
set_option linter.unusedTactic false
set_option linter.unreachableTactic false

theorem Stable.showRec {P : State → Prop} (C : Stable P) {s : State}  (hP : P s) :
    P (State.showRec s) := by
  unfold State.showRec
  repeat' first
    | with_reducible assumption | with_reducible apply C.wr | split
    | with_reducible refine C.same (fun h => h) (fun h => h) (fun h => h) (fun h => h) (fun h => h) (fun h => h) (fun h => h) (fun h => h) (fun h => h) (fun h => h) (fun h => h) ?_
    | with_reducible refine C.same ?_ ?_ ?_ ?_ ?_ ?_ ?_ ?_ ?_ ?_ ?_ ?_ | exact fun h => h
    | (intro h; exact Nat.le_trans (List.length_filter_le _ _) h) | intro _

theorem Stable.occurKind {P : State → Prop} (C : Stable P) {s : State} (row : CodeRow) (ext : Bool) (v : Option Int) (hP : P s) :
    P (State.occurKind s row ext v) := by
  unfold State.occurKind
  repeat' first
    | with_reducible assumption | with_reducible apply pres_cond | with_reducible apply pres_ite
    | with_reducible apply C.inc | with_reducible apply C.detect
    | with_reducible refine C.same (fun h => h) (fun h => h) (fun h => h) (fun h => h) (fun h => h) (fun h => h) (fun h => h) (fun h => h) (fun h => h) (fun h => h) (fun h => h) ?_
    | with_reducible refine C.same ?_ ?_ ?_ ?_ ?_ ?_ ?_ ?_ ?_ ?_ ?_ ?_ | exact fun h => h
    | (intro h; simp only [List.length_map]; exact h) | intro _

theorem Stable.occur {P : State → Prop} (C : Stable P) {s : State} (code : Nat) (v : Option Int) (hP : P s) :
    P (State.occur s code v) := by
  unfold State.occur
  repeat' first
    | with_reducible assumption | with_reducible apply pres_cond | with_reducible apply C.showRec
    | with_reducible apply C.occurKind | split
    | with_reducible refine C.same (fun h => h) (fun h => h) (fun h => h) (fun h => h) (fun h => h) (fun h => h) (fun h => h) (fun h => h) (fun h => h) (fun h => h) (fun h => h) ?_
    | with_reducible refine C.same ?_ ?_ ?_ ?_ ?_ ?_ ?_ ?_ ?_ ?_ ?_ ?_ | exact fun h => h | intro _

theorem Stable.flushStart {P : State → Prop} (C : Stable P) {s : State}  (hP : P s) :
    P (State.flushStart s) := by
  unfold State.flushStart
  repeat' first
    | with_reducible assumption | with_reducible apply pres_ite | with_reducible apply C.wr | split
    | with_reducible refine C.same (fun h => h) (fun h => h) (fun h => h) (fun h => h) (fun h => h) (fun h => h) (fun h => h) (fun h => h) (fun h => h) (fun h => h) (fun h => h) ?_
    | with_reducible refine C.same ?_ ?_ ?_ ?_ ?_ ?_ ?_ ?_ ?_ ?_ ?_ ?_ | exact fun h => h
    | (intro h; exact Nat.le_trans (List.length_filter_le _ _) h) | intro _

theorem Stable.recClear {P : State → Prop} (C : Stable P) {s : State}  (hP : P s) :
    P (State.recClear s) := by
  unfold State.recClear
  repeat' first
    | with_reducible assumption | with_reducible apply C.detect | with_reducible apply C.notice
    | with_reducible apply C.showRec | with_reducible apply C.flushStart | with_reducible apply C.wr
    | with_reducible refine C.same (fun h => h) (fun h => h) (fun h => h) (fun h => h) (fun h => h) (fun h => h) (fun h => h) (fun h => h) (fun h => h) (fun h => h) (fun h => h) ?_
    | with_reducible refine C.same ?_ ?_ ?_ ?_ ?_ ?_ ?_ ?_ ?_ ?_ ?_ ?_ | exact fun h => h | exact fun _ => rfl
    | exact fun _ => Nat.zero_le _

theorem Stable.flushEnd {P : State → Prop} (C : Stable P) {s : State} (ok : Bool) (hP : P s) : P (s.flushEnd ok) := by
  unfold State.flushEnd
  refine pres_ite hP ?_
  dsimp only
  refine C.showRec (pres_cond ?_ (fun t ht => C.recClear ht))
  refine pres_ite (pres_cond (C.inc _ (C.wr _ (C.wr _ (C.wr _ (C.wr _ ?_))))) (fun t ht => ?_)) (C.detect _ _ (C.wr _ (C.wr _ ?_)))
  · refine C.same (fun h => h) (fun h => h) (fun h => h) (fun h => h) (fun h => ?_) (fun h => h) (fun h => h) (fun h => h) (fun h => h) (fun h => h) (fun h => h) hP
    refine Nat.le_trans (Nat.le_of_eq (congrArg List.length ?_)) h
    (repeat' split) <;> rfl
  · exact C.same (fun h => h) (fun h => h) (fun h => h) (fun h => h) (fun h => h) (fun h => h) (fun h => h) (fun h => h) (fun h => h) (fun h => h) (fun h => h) ht
  · refine C.same (fun h => h) (fun h => h) (fun h => h) (fun h => h) (fun h => ?_) (fun h => h) (fun h => h) (fun h => h) (fun h => h) (fun h => h) (fun h => h) hP
    refine Nat.le_trans (Nat.le_of_eq (congrArg List.length ?_)) h
    (repeat' split) <;> rfl

end Sys2Proof.Machine
end

