-- ==== Sys2Proof/Laws/Stable/Phase.lean ====
section
/-!
SUPPORT. Laws/Stable/Phase.lean: what the operations of Machine/Phase.lean keep (Laws/Stable.lean).
-/

namespace Sys2Proof.Machine

set_option Elab.async false
set_option linter.unusedTactic false
set_option linter.unreachableTactic false

theorem Stable.cdlEffect {P : State → Prop} (C : Stable P) {s : State} (n : Nat) (hP : P s) :
    P (State.cdlEffect s n) := by
  unfold State.cdlEffect
  repeat' first
    | with_reducible assumption | with_reducible apply pres_ite | with_reducible apply C.send
    | with_reducible apply C.seqGo | with_reducible apply C.cdlMark | with_reducible apply C.k2Check
    | with_reducible apply C.project | with_reducible apply C.seqSettle | split
    | with_reducible refine C.same (fun h => h) (fun h => h) (fun h => h) (fun h => h) (fun h => h) (fun h => h) (fun h => h) (fun h => h) (fun h => h) (fun h => h) (fun h => h) ?_
    | with_reducible refine C.same ?_ ?_ ?_ ?_ ?_ ?_ ?_ ?_ ?_ ?_ ?_ ?_ | exact fun h => h

theorem Stable.fireOne {P : State → Prop} (C : Stable P) {s : State} (n : Nat) (hP : P s) :
    P (State.fireOne s n) := by
  unfold State.fireOne
  repeat' first
    | with_reducible assumption | with_reducible apply pres_ite | with_reducible apply C.cdlEffect
    | with_reducible apply C.wr

theorem Stable.fireDue {P : State → Prop} (C : Stable P) {s : State} (n : Nat) (hP : P s) :
    P (State.fireDue s n) := by
  unfold State.fireDue
  repeat' first
    | with_reducible assumption | with_reducible apply pres_each | with_reducible apply C.fireOne | intro _

theorem Stable.fireCdl {P : State → Prop} (C : Stable P) {s : State} (n : Nat) (hP : P s) :
    P (State.fireCdl s n) := by
  unfold State.fireCdl
  repeat' first
    | with_reducible assumption | with_reducible apply pres_ite | with_reducible apply C.fireDue

theorem Stable.fireEvent {P : State → Prop} (C : Stable P) {s : State} (slot : Nat) (e : SchedSlot) (hP : P s) :
    P (State.fireEvent s slot e) := by
  unfold State.fireEvent
  repeat' first
    | with_reducible assumption | with_reducible apply pres_cond | with_reducible apply pres_ite
    | with_reducible apply pres_each | with_reducible apply C.send | with_reducible apply C.post
    | with_reducible apply C.chargerSet
    | with_reducible refine C.same (fun h => h) (fun h => h) (fun h => h) (fun h => h) (fun h => h) (fun h => h) (fun h => h) (fun h => h) (fun h => h) (fun h => h) (fun h => h) ?_
    | with_reducible refine C.same ?_ ?_ ?_ ?_ ?_ ?_ ?_ ?_ ?_ ?_ ?_ ?_ | exact fun h => h
    | (intro h; exact Nat.le_trans (List.length_filter_le _ _) h) | intro _

theorem Stable.fireSkipped {P : State → Prop} (C : Stable P) {s : State} (hc pu : Nat) (hP : P s) :
    P (State.fireSkipped s hc pu) := by
  unfold State.fireSkipped
  repeat' first
    | with_reducible assumption | with_reducible apply pres_foldl | with_reducible apply C.fireEvent | intro _

theorem Stable.regrid {P : State → Prop} (C : Stable P) {s : State} (force : Bool) (hP : P s) :
    P (State.regrid s force) := by
  unfold State.regrid
  repeat' first
    | with_reducible assumption | with_reducible apply pres_ite | with_reducible apply C.showSteps
    | with_reducible refine C.same (fun h => h) (fun h => h) (fun h => h) (fun h => h) (fun h => h) (fun h => h) (fun h => h) (fun h => h) (fun h => h) (fun h => h) (fun h => h) ?_
    | with_reducible refine C.same ?_ ?_ ?_ ?_ ?_ ?_ ?_ ?_ ?_ ?_ ?_ ?_ | exact fun h => h
    | (intro h; simp only [List.length_map]; exact h) | intro _

theorem Stable.amendTlog {P : State → Prop} (C : Stable P) {s : State} (code data : Nat) (hP : P s) :
    P (State.amendTlog s code data) := by
  unfold State.amendTlog
  repeat' first
    | with_reducible assumption | with_reducible apply pres_ite | split
    | with_reducible refine C.same (fun h => h) (fun h => h) (fun h => h) (fun h => h) (fun h => h) (fun h => h) (fun h => h) (fun h => h) (fun h => h) (fun h => h) (fun h => h) ?_
    | with_reducible refine C.same ?_ ?_ ?_ ?_ ?_ ?_ ?_ ?_ ?_ ?_ ?_ ?_ | exact fun h => h
    | (intro h; simp only [List.length_map]; exact h) | intro _

theorem Stable.raiseEw {P : State → Prop} (C : Stable P) {s : State} (cause at0 : Nat) (hP : P s) :
    P (State.raiseEw s cause at0) := by
  unfold State.raiseEw
  repeat' first
    | with_reducible assumption | with_reducible apply pres_cond | with_reducible apply pres_ite
    | with_reducible apply C.detect | with_reducible apply C.tlog | with_reducible apply C.vendor
    | with_reducible apply C.enterBoost | with_reducible apply C.restExit | with_reducible apply C.k2Check
    | with_reducible apply C.prime | with_reducible apply C.endRest | with_reducible apply C.amendTlog
    | with_reducible apply C.wr
    | with_reducible refine C.same (fun h => h) (fun h => h) (fun h => h) (fun h => h) (fun h => h) (fun h => h) (fun h => h) (fun h => h) (fun h => h) (fun h => h) (fun h => h) ?_
    | with_reducible refine C.same ?_ ?_ ?_ ?_ ?_ ?_ ?_ ?_ ?_ ?_ ?_ ?_ | exact fun h => h | intro _

theorem Stable.startDebounce {P : State → Prop} (C : Stable P) {s : State}  (hP : P s) :
    P (State.startDebounce s) := by
  unfold State.startDebounce
  repeat' first
    | with_reducible assumption | with_reducible apply pres_cond | with_reducible apply C.debounced
    | with_reducible apply C.wr
    | with_reducible refine C.same (fun h => h) (fun h => h) (fun h => h) (fun h => h) (fun h => h) (fun h => h) (fun h => h) (fun h => h) (fun h => h) (fun h => h) (fun h => h) ?_
    | with_reducible refine C.same ?_ ?_ ?_ ?_ ?_ ?_ ?_ ?_ ?_ ?_ ?_ ?_ | exact fun h => h | intro _

theorem Stable.withdrawEw {P : State → Prop} (C : Stable P) {s : State}  (hP : P s) :
    P (State.withdrawEw s) := by
  unfold State.withdrawEw
  repeat' first
    | with_reducible assumption | with_reducible apply pres_cond | with_reducible apply pres_ite
    | with_reducible apply C.vendor | with_reducible apply C.leaveBoost | with_reducible apply C.startDebounce
    | with_reducible apply C.wr
    | with_reducible refine C.same (fun h => h) (fun h => h) (fun h => h) (fun h => h) (fun h => h) (fun h => h) (fun h => h) (fun h => h) (fun h => h) (fun h => h) (fun h => h) ?_
    | with_reducible refine C.same ?_ ?_ ?_ ?_ ?_ ?_ ?_ ?_ ?_ ?_ ?_ ?_ | exact fun h => h | intro _

theorem Stable.setSource {P : State → Prop} (C : Stable P) {s : State} (pseudo : Bool) (hP : P s) :
    P (State.setSource s pseudo) := by
  unfold State.setSource
  repeat' first
    | with_reducible assumption | with_reducible apply pres_ite | with_reducible apply C.regrid
    | with_reducible apply C.wr

theorem Stable.countRange {P : State → Prop} (C : Stable P) {s : State}  (hP : P s) :
    P (State.countRange s) := by
  unfold State.countRange
  repeat' first
    | with_reducible assumption | with_reducible apply pres_ite
    | with_reducible refine C.same (fun h => h) (fun h => h) (fun h => h) (fun h => h) (fun h => h) (fun h => h) (fun h => h) (fun h => h) (fun h => h) (fun h => h) (fun h => h) ?_
    | with_reducible refine C.same ?_ ?_ ?_ ?_ ?_ ?_ ?_ ?_ ?_ ?_ ?_ ?_ | exact fun h => h

theorem Stable.endHalf {P : State → Prop} (C : Stable P) {s : State} (pu : Nat) (hP : P s) :
    P (State.endHalf s pu) := by
  unfold State.endHalf
  repeat' first
    | with_reducible assumption | with_reducible apply C.fireDue | with_reducible apply C.fireSkipped
    | with_reducible apply C.setSource | with_reducible apply C.countRange | with_reducible apply C.wr

theorem Stable.takeIntervals {P : State → Prop} (C : Stable P) {s : State} (new : List Nat) (hP : P s) :
    P (State.takeIntervals s new) := by
  unfold State.takeIntervals
  repeat' first
    | with_reducible assumption | with_reducible apply pres_cond | with_reducible apply C.wr
    | with_reducible refine C.same (fun h => h) (fun h => h) (fun h => h) (fun h => h) (fun h => h) (fun h => h) (fun h => h) (fun h => h) (fun h => h) (fun h => h) (fun h => h) ?_
    | with_reducible refine C.same ?_ ?_ ?_ ?_ ?_ ?_ ?_ ?_ ?_ ?_ ?_ ?_ | exact fun h => h | intro _

theorem Stable.acceptCrossing {P : State → Prop} (C : Stable P) {s : State} (lockedBefore : Bool) (hP : P s) :
    P (State.acceptCrossing s lockedBefore) := by
  unfold State.acceptCrossing
  repeat' first
    | with_reducible assumption | with_reducible apply pres_cond | with_reducible apply pres_ite
    | with_reducible apply C.setCond | with_reducible apply C.fireDue | with_reducible apply C.fireSkipped
    | with_reducible apply C.withdrawEw | with_reducible apply C.setSource | with_reducible apply C.countRange
    | with_reducible apply C.endHalf | with_reducible apply C.wr
    | with_reducible refine C.same (fun h => h) (fun h => h) (fun h => h) (fun h => h) (fun h => h) (fun h => h) (fun h => h) (fun h => h) (fun h => h) (fun h => h) (fun h => h) ?_
    | with_reducible refine C.same ?_ ?_ ?_ ?_ ?_ ?_ ?_ ?_ ?_ ?_ ?_ ?_ | exact fun h => h | intro _

theorem Stable.crossing {P : State → Prop} (C : Stable P) {s : State} (ticks : Nat) (acOk : Bool) (hP : P s) :
    P (State.crossing s ticks acOk) := by
  unfold State.crossing
  repeat' first
    | with_reducible assumption | with_reducible apply pres_ite | with_reducible apply C.inc
    | with_reducible apply C.takeIntervals | with_reducible apply C.acceptCrossing | with_reducible apply C.wr
    | with_reducible refine C.same (fun h => h) (fun h => h) (fun h => h) (fun h => h) (fun h => h) (fun h => h) (fun h => h) (fun h => h) (fun h => h) (fun h => h) (fun h => h) ?_
    | with_reducible refine C.same ?_ ?_ ?_ ?_ ?_ ?_ ?_ ?_ ?_ ?_ ?_ ?_ | exact fun h => h | intro _

theorem Stable.placeFalling {P : State → Prop} (C : Stable P) {s : State}  (hP : P s) :
    P (State.placeFalling s) := by
  unfold State.placeFalling
  repeat' first
    | with_reducible assumption | with_reducible apply pres_ite | with_reducible apply C.acceptCrossing
    | with_reducible refine C.same (fun h => h) (fun h => h) (fun h => h) (fun h => h) (fun h => h) (fun h => h) (fun h => h) (fun h => h) (fun h => h) (fun h => h) (fun h => h) ?_
    | with_reducible refine C.same ?_ ?_ ?_ ?_ ?_ ?_ ?_ ?_ ?_ ?_ ?_ ?_ | exact fun h => h | exact fun _ => rfl
    | exact fun _ => Nat.zero_le _

theorem Stable.loseLock {P : State → Prop} (C : Stable P) {s : State}  (hP : P s) :
    P (State.loseLock s) := by
  unfold State.loseLock
  repeat' first
    | with_reducible assumption | with_reducible apply pres_ite | with_reducible apply C.detect
    | with_reducible apply C.wr
    | with_reducible refine C.same (fun h => h) (fun h => h) (fun h => h) (fun h => h) (fun h => h) (fun h => h) (fun h => h) (fun h => h) (fun h => h) (fun h => h) (fun h => h) ?_
    | with_reducible refine C.same ?_ ?_ ?_ ?_ ?_ ?_ ?_ ?_ ?_ ?_ ?_ ?_ | exact fun h => h

theorem Stable.puStep {P : State → Prop} (C : Stable P) {s : State}  (hP : P s) :
    P (State.puStep s) := by
  unfold State.puStep
  repeat' first
    | with_reducible assumption | with_reducible apply pres_ite | with_reducible apply C.lsaTick
    | with_reducible apply C.handTick | with_reducible apply C.wr

theorem Stable.pseudoEnd {P : State → Prop} (C : Stable P) {s : State}  (hP : P s) :
    P (State.pseudoEnd s) := by
  unfold State.pseudoEnd
  repeat' first
    | with_reducible assumption | with_reducible apply pres_ite | with_reducible apply C.endHalf

theorem Stable.loseSense {P : State → Prop} (C : Stable P) {s : State}  (hP : P s) :
    P (State.loseSense s) := by
  unfold State.loseSense
  repeat' first
    | with_reducible assumption | with_reducible apply C.setCond | with_reducible apply C.withdrawEw
    | with_reducible apply C.setSource | with_reducible apply C.wr
    | with_reducible refine C.same (fun h => h) (fun h => h) (fun h => h) (fun h => h) (fun h => h) (fun h => h) (fun h => h) (fun h => h) (fun h => h) (fun h => h) (fun h => h) ?_
    | with_reducible refine C.same ?_ ?_ ?_ ?_ ?_ ?_ ?_ ?_ ?_ ?_ ?_ ?_ | exact fun h => h | exact fun _ => rfl
    | exact fun _ => Nat.zero_le _

theorem Stable.missing {P : State → Prop} (C : Stable P) {s : State} (acOk : Bool) (hP : P s) :
    P (State.missing s acOk) := by
  unfold State.missing
  repeat' first
    | with_reducible assumption | with_reducible apply pres_cond | with_reducible apply pres_ite
    | with_reducible apply C.inc | with_reducible apply C.raiseEw | with_reducible apply C.endHalf
    | with_reducible apply C.loseSense | with_reducible apply C.wr
    | with_reducible refine C.same (fun h => h) (fun h => h) (fun h => h) (fun h => h) (fun h => h) (fun h => h) (fun h => h) (fun h => h) (fun h => h) (fun h => h) (fun h => h) ?_
    | with_reducible refine C.same ?_ ?_ ?_ ?_ ?_ ?_ ?_ ?_ ?_ ?_ ?_ ?_ | exact fun h => h | exact fun _ => rfl
    | exact fun _ => Nat.zero_le _ | intro _

theorem Stable.fireSlot {P : State → Prop} (C : Stable P) {s : State} (slot : Nat) (hP : P s) :
    P (State.fireSlot s slot) := by
  unfold State.fireSlot
  repeat' first
    | with_reducible assumption | with_reducible apply pres_ite | with_reducible apply C.fireDue
    | with_reducible apply C.fireEvent | split
    | with_reducible refine C.same (fun h => h) (fun h => h) (fun h => h) (fun h => h) (fun h => h) (fun h => h) (fun h => h) (fun h => h) (fun h => h) (fun h => h) (fun h => h) ?_
    | with_reducible refine C.same ?_ ?_ ?_ ?_ ?_ ?_ ?_ ?_ ?_ ?_ ?_ ?_ | exact fun h => h | intro _

theorem Stable.acOkLow {P : State → Prop} (C : Stable P) {s : State}  (hP : P s) :
    P (State.acOkLow s) := by
  unfold State.acOkLow
  repeat' first
    | with_reducible assumption | with_reducible apply pres_cond | with_reducible apply C.raiseEw
    | with_reducible apply C.wr
    | with_reducible refine C.same (fun h => h) (fun h => h) (fun h => h) (fun h => h) (fun h => h) (fun h => h) (fun h => h) (fun h => h) (fun h => h) (fun h => h) (fun h => h) ?_
    | with_reducible refine C.same ?_ ?_ ?_ ?_ ?_ ?_ ?_ ?_ ?_ ?_ ?_ ?_ | exact fun h => h | intro _

theorem Stable.acOkHigh {P : State → Prop} (C : Stable P) {s : State}  (hP : P s) :
    P (State.acOkHigh s) := by
  unfold State.acOkHigh
  repeat' first
    | with_reducible assumption | with_reducible apply pres_cond | with_reducible apply C.withdrawEw
    | with_reducible apply C.wr
    | with_reducible refine C.same (fun h => h) (fun h => h) (fun h => h) (fun h => h) (fun h => h) (fun h => h) (fun h => h) (fun h => h) (fun h => h) (fun h => h) (fun h => h) ?_
    | with_reducible refine C.same ?_ ?_ ?_ ?_ ?_ ?_ ?_ ?_ ?_ ?_ ?_ ?_ | exact fun h => h | intro _

theorem Stable.ownerArm {P : State → Prop} (C : Stable P) {s : State} (n target : Nat) (hP : P s) :
    P (State.ownerArm s n target) := by
  unfold State.ownerArm
  repeat' first
    | with_reducible assumption | with_reducible apply pres_cond | with_reducible apply pres_ite
    | with_reducible apply C.armCdl | with_reducible apply C.cdlEffect | intro _

theorem Stable.gaugeBad {P : State → Prop} (C : Stable P) {s : State} (p : Nat) (hP : P s) :
    P (State.gaugeBad s p) := by
  unfold State.gaugeBad
  repeat' first
    | with_reducible assumption | with_reducible apply pres_cond | with_reducible apply pres_ite
    | with_reducible apply C.setPack | with_reducible apply C.detect | with_reducible apply C.gaugeShow
    | with_reducible apply C.wr
    | with_reducible refine C.same (fun h => h) (fun h => h) (fun h => h) (fun h => h) (fun h => h) (fun h => h) (fun h => h) (fun h => h) (fun h => h) (fun h => h) (fun h => h) ?_
    | with_reducible refine C.same ?_ ?_ ?_ ?_ ?_ ?_ ?_ ?_ ?_ ?_ ?_ ?_ | exact fun h => h | intro _

theorem Stable.gaugeGood {P : State → Prop} (C : Stable P) {s : State} (p : Nat) (hP : P s) :
    P (State.gaugeGood s p) := by
  unfold State.gaugeGood
  repeat' first
    | with_reducible assumption | with_reducible apply pres_ite | with_reducible apply C.setPack
    | with_reducible apply C.gaugeShow | with_reducible apply C.estCease
    | with_reducible refine C.same (fun h => h) (fun h => h) (fun h => h) (fun h => h) (fun h => h) (fun h => h) (fun h => h) (fun h => h) (fun h => h) (fun h => h) (fun h => h) ?_
    | with_reducible refine C.same ?_ ?_ ?_ ?_ ?_ ?_ ?_ ?_ ?_ ?_ ?_ ?_ | exact fun h => h

theorem Stable.lowSecond {P : State → Prop} (C : Stable P) {s : State}  (hP : P s) :
    P (State.lowSecond s) := by
  unfold State.lowSecond
  repeat' first
    | with_reducible assumption | with_reducible apply pres_cond | with_reducible apply C.detect
    | with_reducible refine C.same (fun h => h) (fun h => h) (fun h => h) (fun h => h) (fun h => h) (fun h => h) (fun h => h) (fun h => h) (fun h => h) (fun h => h) (fun h => h) ?_
    | with_reducible refine C.same ?_ ?_ ?_ ?_ ?_ ?_ ?_ ?_ ?_ ?_ ?_ ?_ | exact fun h => h | intro _

theorem Stable.second {P : State → Prop} (C : Stable P) {s : State}  (hP : P s) :
    P (State.second s) := by
  unfold State.second
  repeat' first
    | with_reducible assumption | with_reducible apply pres_cond | with_reducible apply pres_ite
    | with_reducible apply pres_foldl | with_reducible apply C.inc | with_reducible apply C.bump
    | with_reducible apply C.pushTlog | with_reducible apply C.lsaTick | with_reducible apply C.guestHours
    | with_reducible apply C.handTick | with_reducible apply C.packHours | with_reducible apply C.lowSecond
    | with_reducible apply C.wr
    | with_reducible refine C.same (fun h => h) (fun h => h) (fun h => h) (fun h => h) (fun h => h) (fun h => h) (fun h => h) (fun h => h) (fun h => h) (fun h => h) (fun h => h) ?_
    | with_reducible refine C.same ?_ ?_ ?_ ?_ ?_ ?_ ?_ ?_ ?_ ?_ ?_ ?_ | exact fun h => h | exact fun _ => rfl
    | exact fun _ => Nat.zero_le _ | (intro h; simp only [List.length_map]; exact h) | intro _

end Sys2Proof.Machine
end

