-- ==== Sys2Proof/Laws/Stable/Monitor.lean ====
section
/-!
SUPPORT. Laws/Stable/Monitor.lean: what the operations of Machine/Monitor.lean keep (Laws/Stable.lean).
-/

namespace Sys2Proof.Machine

set_option Elab.async false
set_option linter.unusedTactic false
set_option linter.unreachableTactic false

theorem Stable.storeReadings {P : State → Prop} (C : Stable P) {s : State} (f : Frame) (hP : P s) :
    P (State.storeReadings s f) := by
  unfold State.storeReadings
  repeat' first
    | with_reducible assumption | with_reducible apply pres_cond | with_reducible apply pres_ite
    | with_reducible apply pres_each | with_reducible apply C.detect | with_reducible apply C.wr | intro _

theorem Stable.storeSupplies {P : State → Prop} (C : Stable P) {s : State} (f : Frame) (hP : P s) :
    P (State.storeSupplies s f) := by
  unfold State.storeSupplies
  repeat' first
    | with_reducible assumption | with_reducible apply pres_cond | with_reducible apply pres_ite
    | with_reducible apply C.detect | with_reducible apply C.healthNote | with_reducible apply C.wr
    | with_reducible refine C.same (fun h => h) (fun h => h) (fun h => h) (fun h => h) (fun h => h) (fun h => h) (fun h => h) (fun h => h) (fun h => h) (fun h => h) (fun h => h) ?_
    | with_reducible refine C.same ?_ ?_ ?_ ?_ ?_ ?_ ?_ ?_ ?_ ?_ ?_ ?_ | exact fun h => h | intro _

theorem Stable.railRuns {P : State → Prop} (C : Stable P) {s : State} (i mv : Nat) (hP : P s) :
    P (State.railRuns s i mv) := by
  unfold State.railRuns
  repeat' first
    | with_reducible assumption | with_reducible apply pres_ite | with_reducible apply pres_foldl | split
    | with_reducible refine C.same (fun h => h) (fun h => h) (fun h => h) (fun h => h) (fun h => h) (fun h => h) (fun h => h) (fun h => h) (fun h => h) (fun h => h) (fun h => h) ?_
    | with_reducible refine C.same ?_ ?_ ?_ ?_ ?_ ?_ ?_ ?_ ?_ ?_ ?_ ?_ | exact fun h => h | exact NMap.wf_set _ _
    | intro _

theorem Stable.railFail {P : State → Prop} (C : Stable P) {s : State} (i : Nat) (ov : Bool) (hP : P s) :
    P (State.railFail s i ov) := by
  unfold State.railFail
  repeat' first
    | with_reducible assumption | with_reducible apply pres_cond | with_reducible apply pres_ite
    | with_reducible apply C.inc | with_reducible apply C.detect | with_reducible apply C.setCond
    | with_reducible apply C.showMargins | with_reducible apply C.dropMargin | with_reducible apply C.clrEnables
    | with_reducible apply C.loseRanks | with_reducible apply C.wr | intro _

theorem Stable.railWarns {P : State → Prop} (C : Stable P) {s : State} (i : Nat) (ov : Bool) (hP : P s) :
    P (State.railWarns s i ov) := by
  unfold State.railWarns
  repeat' first
    | with_reducible assumption | with_reducible apply pres_ite | with_reducible apply C.inc
    | with_reducible apply C.detect | with_reducible apply C.wr

theorem Stable.railSample {P : State → Prop} (C : Stable P) {s : State} (i : Nat) (hP : P s) :
    P (State.railSample s i) := by
  unfold State.railSample
  repeat' first
    | with_reducible assumption | with_reducible apply pres_ite | with_reducible apply C.railRuns
    | with_reducible apply C.railFail | with_reducible apply C.railWarns | with_reducible apply C.wr

theorem Stable.sampleRails {P : State → Prop} (C : Stable P) {s : State}  (hP : P s) :
    P (State.sampleRails s) := by
  unfold State.sampleRails
  repeat' first
    | with_reducible assumption | with_reducible apply pres_cond | with_reducible apply pres_each
    | with_reducible apply C.setCond | with_reducible apply C.railSample | intro _

theorem Stable.chargeFrame {P : State → Prop} (C : Stable P) {s : State} (f : Frame) (hP : P s) :
    P (State.chargeFrame s f) := by
  unfold State.chargeFrame
  repeat' first
    | with_reducible assumption | with_reducible apply pres_cond | with_reducible apply pres_ite
    | with_reducible apply C.wr
    | with_reducible refine C.same (fun h => h) (fun h => h) (fun h => h) (fun h => h) (fun h => h) (fun h => h) (fun h => h) (fun h => h) (fun h => h) (fun h => h) (fun h => h) ?_
    | with_reducible refine C.same ?_ ?_ ?_ ?_ ?_ ?_ ?_ ?_ ?_ ?_ ?_ ?_ | exact fun h => h | intro _

theorem Stable.packTemp {P : State → Prop} (C : Stable P) {s : State} (p : Nat) (f : Frame) (hP : P s) :
    P (State.packTemp s p f) := by
  unfold State.packTemp
  repeat' first
    | with_reducible assumption | with_reducible apply pres_cond | with_reducible apply pres_ite
    | with_reducible apply pres_foldl | with_reducible apply C.detect | with_reducible apply C.uncount
    | with_reducible apply C.wr | split
    | with_reducible refine C.same (fun h => h) (fun h => h) (fun h => h) (fun h => h) (fun h => h) (fun h => h) (fun h => h) (fun h => h) (fun h => h) (fun h => h) (fun h => h) ?_
    | with_reducible refine C.same ?_ ?_ ?_ ?_ ?_ ?_ ?_ ?_ ?_ ?_ ?_ ?_ | exact fun h => h | exact fun _ => rfl
    | exact fun _ => Nat.zero_le _ | (intro h; simp only [List.length_map]; exact h)
    | (intro h; exact Nat.le_trans (List.length_filter_le _ _) h) | intro _

theorem Stable.packCharge {P : State → Prop} (C : Stable P) {s : State} (p : Nat) (uc : Int) (hP : P s) :
    P (State.packCharge s p uc) := by
  unfold State.packCharge
  repeat' first
    | with_reducible assumption | with_reducible apply C.setPack | with_reducible apply C.wr
    | with_reducible refine C.same (fun h => h) (fun h => h) (fun h => h) (fun h => h) (fun h => h) (fun h => h) (fun h => h) (fun h => h) (fun h => h) (fun h => h) (fun h => h) ?_
    | with_reducible refine C.same ?_ ?_ ?_ ?_ ?_ ?_ ?_ ?_ ?_ ?_ ?_ ?_ | exact fun h => h

theorem Stable.packInterval {P : State → Prop} (C : Stable P) {s : State} (p : Nat) (iv : Option (Nat × Nat)) (returning : Bool) (hP : P s) :
    P (State.packInterval s p iv returning) := by
  unfold State.packInterval
  repeat' first
    | with_reducible assumption | with_reducible apply pres_cond | with_reducible apply pres_ite
    | with_reducible apply C.setPack | with_reducible apply C.wr | split
    | with_reducible refine C.same (fun h => h) (fun h => h) (fun h => h) (fun h => h) (fun h => h) (fun h => h) (fun h => h) (fun h => h) (fun h => h) (fun h => h) (fun h => h) ?_
    | with_reducible refine C.same ?_ ?_ ?_ ?_ ?_ ?_ ?_ ?_ ?_ ?_ ?_ ?_ | exact fun h => h | intro _

theorem Stable.packRi {P : State → Prop} (C : Stable P) {s : State} (p : Nat) (ri : Option Nat) (hP : P s) :
    P (State.packRi s p ri) := by
  unfold State.packRi
  repeat' first
    | with_reducible assumption | with_reducible apply C.setPack | with_reducible apply C.wr | split
    | with_reducible refine C.same (fun h => h) (fun h => h) (fun h => h) (fun h => h) (fun h => h) (fun h => h) (fun h => h) (fun h => h) (fun h => h) (fun h => h) (fun h => h) ?_
    | with_reducible refine C.same ?_ ?_ ?_ ?_ ?_ ?_ ?_ ?_ ?_ ?_ ?_ ?_ | exact fun h => h

theorem Stable.packRamp {P : State → Prop} (C : Stable P) {s : State} (p : Nat) (hP : P s) :
    P (State.packRamp s p) := by
  unfold State.packRamp
  repeat' first
    | with_reducible assumption | with_reducible apply pres_ite | with_reducible apply C.setPack
    | with_reducible refine C.same (fun h => h) (fun h => h) (fun h => h) (fun h => h) (fun h => h) (fun h => h) (fun h => h) (fun h => h) (fun h => h) (fun h => h) (fun h => h) ?_
    | with_reducible refine C.same ?_ ?_ ?_ ?_ ?_ ?_ ?_ ?_ ?_ ?_ ?_ ?_ | exact fun h => h

theorem Stable.packFrame {P : State → Prop} (C : Stable P) {s : State} (p : Nat) (f : Frame) (hP : P s) :
    P (State.packFrame s p f) := by
  unfold State.packFrame
  repeat' first
    | with_reducible assumption | with_reducible apply pres_cond | with_reducible apply pres_ite
    | with_reducible apply pres_each | with_reducible apply pres_foldl | with_reducible apply C.chargeCheck
    | with_reducible apply C.packTemp | with_reducible apply C.packCharge | with_reducible apply C.packInterval
    | with_reducible apply C.packRi | with_reducible apply C.packRamp | with_reducible apply C.wr | intro _

theorem Stable.frameEdge {P : State → Prop} (C : Stable P) {s : State}  (hP : P s) :
    P (State.frameEdge s) := by
  unfold State.frameEdge
  repeat' first
    | with_reducible assumption | with_reducible apply pres_ite | with_reducible apply pres_foldl
    | with_reducible apply C.wr
    | with_reducible refine C.same (fun h => h) (fun h => h) (fun h => h) (fun h => h) (fun h => h) (fun h => h) (fun h => h) (fun h => h) (fun h => h) (fun h => h) (fun h => h) ?_
    | with_reducible refine C.same ?_ ?_ ?_ ?_ ?_ ?_ ?_ ?_ ?_ ?_ ?_ ?_ | exact fun h => h | exact fun _ => rfl
    | exact fun _ => Nat.zero_le _ | (intro h; simp only [List.length_map]; exact h)
    | (intro h; exact Nat.le_trans (List.length_filter_le _ _) h) | intro _

theorem Stable.housekeeping {P : State → Prop} (C : Stable P) {s : State} (f : Frame) (hP : P s) :
    P (State.housekeeping s f) := by
  unfold State.housekeeping
  repeat' first
    | with_reducible assumption | with_reducible apply pres_cond | with_reducible apply pres_ite
    | with_reducible apply pres_foldl | with_reducible apply C.detect | with_reducible apply C.wr
    | with_reducible refine C.same (fun h => h) (fun h => h) (fun h => h) (fun h => h) (fun h => h) (fun h => h) (fun h => h) (fun h => h) (fun h => h) (fun h => h) (fun h => h) ?_
    | with_reducible refine C.same ?_ ?_ ?_ ?_ ?_ ?_ ?_ ?_ ?_ ?_ ?_ ?_ | exact fun h => h
    | (intro h; exact Nat.le_trans (List.length_filter_le _ _) h) | intro _

theorem Stable.frame {P : State → Prop} (C : Stable P) {s : State} (f : Frame) (hP : P s) :
    P (State.frame s f) := by
  unfold State.frame
  repeat' first
    | with_reducible assumption | with_reducible apply pres_cond | with_reducible apply pres_foldl
    | with_reducible apply C.gaugeShow | with_reducible apply C.occur | with_reducible apply C.storeReadings
    | with_reducible apply C.storeSupplies | with_reducible apply C.sampleRails | with_reducible apply C.chargeFrame
    | with_reducible apply C.packFrame | with_reducible apply C.frameEdge | with_reducible apply C.housekeeping
    | with_reducible apply C.wr | intro _

end Sys2Proof.Machine
end

