-- ==== Sys2Proof/Laws/Stable/Dram.lean ====
section
/-!
SUPPORT. Laws/Stable/Dram.lean: what the operations of Machine/Dram.lean keep (Laws/Stable.lean).
-/

namespace Sys2Proof.Machine

set_option Elab.async false
set_option linter.unusedTactic false
set_option linter.unreachableTactic false

theorem Stable.dramEvent {P : State → Prop} (C : Stable P) {s : State} (g n kind device : Nat) (hP : P s) :
    P (State.dramEvent s g n kind device) := by
  unfold State.dramEvent
  repeat' first
    | with_reducible assumption | with_reducible apply pres_ite | with_reducible apply C.event

theorem Stable.showPool {P : State → Prop} (C : Stable P) {s : State}  (hP : P s) :
    P (State.showPool s) := by
  unfold State.showPool
  repeat' first
    | with_reducible assumption | with_reducible apply pres_cond | with_reducible apply C.setCond
    | with_reducible apply C.wr | intro _

theorem Stable.retireStart {P : State → Prop} (C : Stable P) {s : State} (g : Nat) (hP : P s) :
    P (State.retireStart s g) := by
  unfold State.retireStart
  repeat' first
    | with_reducible assumption | with_reducible apply pres_ite | with_reducible apply C.setCond
    | with_reducible refine C.same (fun h => h) (fun h => h) (fun h => h) (fun h => h) (fun h => h) (fun h => h) (fun h => h) (fun h => h) (fun h => h) (fun h => h) (fun h => h) ?_
    | with_reducible refine C.same ?_ ?_ ?_ ?_ ?_ ?_ ?_ ?_ ?_ ?_ ?_ ?_ | exact fun h => h

theorem Stable.degrade {P : State → Prop} (C : Stable P) {s : State} (g : Nat) (hP : P s) :
    P (State.degrade s g) := by
  unfold State.degrade
  repeat' first
    | with_reducible assumption | with_reducible apply pres_ite | with_reducible apply C.setCond
    | with_reducible apply C.wr
    | with_reducible refine C.same (fun h => h) (fun h => h) (fun h => h) (fun h => h) (fun h => h) (fun h => h) (fun h => h) (fun h => h) (fun h => h) (fun h => h) (fun h => h) ?_
    | with_reducible refine C.same ?_ ?_ ?_ ?_ ?_ ?_ ?_ ?_ ?_ ?_ ?_ ?_ | exact fun h => h

theorem Stable.spareStart {P : State → Prop} (C : Stable P) {s : State} (g l device : Nat) (hP : P s) :
    P (State.spareStart s g l device) := by
  unfold State.spareStart
  repeat' first
    | with_reducible assumption | with_reducible apply pres_ite | with_reducible apply C.detect
    | with_reducible apply C.dramEvent | with_reducible apply C.degrade | with_reducible apply C.wr | split
    | with_reducible refine C.same (fun h => h) (fun h => h) (fun h => h) (fun h => h) (fun h => h) (fun h => h) (fun h => h) (fun h => h) (fun h => h) (fun h => h) (fun h => h) ?_
    | with_reducible refine C.same ?_ ?_ ?_ ?_ ?_ ?_ ?_ ?_ ?_ ?_ ?_ ?_ | exact fun h => h | exact NMap.wf_set _ _

theorem Stable.corrected {P : State → Prop} (C : Stable P) {s : State} (g l device : Nat) (hP : P s) :
    P (State.corrected s g l device) := by
  unfold State.corrected
  repeat' first
    | with_reducible assumption | with_reducible apply pres_cond | with_reducible apply pres_foldl
    | with_reducible apply C.inc | with_reducible apply C.detect | with_reducible apply C.healthNote
    | with_reducible apply C.dramEvent | with_reducible apply C.retireStart | with_reducible apply C.spareStart
    | with_reducible apply C.wr
    | with_reducible refine C.same (fun h => h) (fun h => h) (fun h => h) (fun h => h) (fun h => h) (fun h => h) (fun h => h) (fun h => h) (fun h => h) (fun h => h) (fun h => h) ?_
    | with_reducible refine C.same ?_ ?_ ?_ ?_ ?_ ?_ ?_ ?_ ?_ ?_ ?_ ?_ | exact fun h => h
    | (intro h; simp only [List.length_map]; exact h) | (intro h; exact Nat.le_trans (List.length_filter_le _ _) h)
    | intro _

theorem Stable.recordUe {P : State → Prop} (C : Stable P) {s : State} (g l device : Nat) (hP : P s) :
    P (State.recordUe s g l device) := by
  unfold State.recordUe
  repeat' first
    | with_reducible assumption | with_reducible apply pres_cond | with_reducible apply C.inc
    | with_reducible apply C.degrade | with_reducible apply C.wr | intro _

theorem Stable.refill {P : State → Prop} (C : Stable P) {s : State} (g : Nat) (held : List (Nat × Nat × Nat)) (demand : Bool) (hP : P s) :
    P (State.refill s g held demand) := by
  unfold State.refill
  repeat' first
    | with_reducible assumption | with_reducible apply pres_ite | with_reducible apply C.inc
    | with_reducible apply C.detect | with_reducible apply C.showSteep | with_reducible apply C.raiseFill
    | with_reducible refine C.same (fun h => h) (fun h => h) (fun h => h) (fun h => h) (fun h => h) (fun h => h) (fun h => h) (fun h => h) (fun h => h) (fun h => h) (fun h => h) ?_
    | with_reducible refine C.same ?_ ?_ ?_ ?_ ?_ ?_ ?_ ?_ ?_ ?_ ?_ ?_ | exact fun h => h | exact fun _ => rfl
    | exact fun _ => Nat.zero_le _

theorem Stable.retireRefilled {P : State → Prop} (C : Stable P) {s : State} (g : Nat) (hP : P s) :
    P (State.retireRefilled s g) := by
  unfold State.retireRefilled
  repeat' first
    | with_reducible assumption | with_reducible apply pres_ite | with_reducible apply C.retireStart
    | with_reducible refine C.same (fun h => h) (fun h => h) (fun h => h) (fun h => h) (fun h => h) (fun h => h) (fun h => h) (fun h => h) (fun h => h) (fun h => h) (fun h => h) ?_
    | with_reducible refine C.same ?_ ?_ ?_ ?_ ?_ ?_ ?_ ?_ ?_ ?_ ?_ ?_ | exact fun h => h
    | (intro h; exact Nat.le_trans (List.length_filter_le _ _) h) | intro _

theorem Stable.poisonUe {P : State → Prop} (C : Stable P) {s : State} (g l : Nat) (hP : P s) :
    P (State.poisonUe s g l) := by
  unfold State.poisonUe
  repeat' first
    | with_reducible assumption | with_reducible apply pres_cond | with_reducible apply C.detect
    | with_reducible apply C.setPoison | with_reducible apply C.retireStart | intro _

theorem Stable.mediaEvent {P : State → Prop} (C : Stable P) {s : State} (g : Nat) (hP : P s) :
    P (State.mediaEvent s g) := by
  unfold State.mediaEvent
  repeat' first
    | with_reducible assumption | with_reducible apply C.event

theorem Stable.patrolLine {P : State → Prop} (C : Stable P) {s : State} (e : Nat × Ecc) (hP : P s) :
    P (State.patrolLine s e) := by
  unfold State.patrolLine
  repeat' first
    | with_reducible assumption | with_reducible apply pres_ite | with_reducible apply C.corrected
    | with_reducible apply C.recordUe | with_reducible apply C.refill | with_reducible apply C.poisonUe | split
    | with_reducible refine C.same (fun h => h) (fun h => h) (fun h => h) (fun h => h) (fun h => h) (fun h => h) (fun h => h) (fun h => h) (fun h => h) (fun h => h) (fun h => h) ?_
    | with_reducible refine C.same ?_ ?_ ?_ ?_ ?_ ?_ ?_ ?_ ?_ ?_ ?_ ?_ | exact fun h => h | exact fun _ => rfl
    | exact fun _ => Nat.zero_le _

theorem Stable.patrolLate {P : State → Prop} (C : Stable P) {s : State} (c : Nat) (hP : P s) :
    P (State.patrolLate s c) := by
  unfold State.patrolLate
  repeat' first
    | with_reducible assumption | with_reducible apply pres_ite | with_reducible apply C.detect

theorem Stable.spareEnd {P : State → Prop} (C : Stable P) {s : State}  (hP : P s) :
    P (State.spareEnd s) := by
  unfold State.spareEnd
  repeat' first
    | with_reducible assumption | with_reducible apply pres_ite | with_reducible apply C.event
    | with_reducible apply C.wr | intro _

theorem Stable.spareLine {P : State → Prop} (C : Stable P) {s : State} (e : Nat × Ecc) (hP : P s) :
    P (State.spareLine s e) := by
  unfold State.spareLine
  repeat' first
    | with_reducible assumption | with_reducible apply pres_ite | with_reducible apply C.corrected
    | with_reducible apply C.recordUe | with_reducible apply C.poisonUe | with_reducible apply C.patrolLine | split
    | with_reducible refine C.same (fun h => h) (fun h => h) (fun h => h) (fun h => h) (fun h => h) (fun h => h) (fun h => h) (fun h => h) (fun h => h) (fun h => h) (fun h => h) ?_
    | with_reducible refine C.same ?_ ?_ ?_ ?_ ?_ ?_ ?_ ?_ ?_ ?_ ?_ ?_ | exact fun h => h

theorem Stable.spareStep {P : State → Prop} (C : Stable P) {s : State} (found : List (Nat × Ecc)) (hP : P s) :
    P (State.spareStep s found) := by
  unfold State.spareStep
  repeat' first
    | with_reducible assumption | with_reducible apply pres_cond | with_reducible apply pres_ite
    | with_reducible apply pres_foldl | with_reducible apply C.spareEnd | with_reducible apply C.spareLine
    | with_reducible apply C.wr
    | with_reducible refine C.same (fun h => h) (fun h => h) (fun h => h) (fun h => h) (fun h => h) (fun h => h) (fun h => h) (fun h => h) (fun h => h) (fun h => h) (fun h => h) ?_
    | with_reducible refine C.same ?_ ?_ ?_ ?_ ?_ ?_ ?_ ?_ ?_ ?_ ?_ ?_ | exact fun h => h | intro _

theorem Stable.shedLate {P : State → Prop} (C : Stable P) {s : State} (c r : Nat) (hP : P s) :
    P (State.shedLate s c r) := by
  unfold State.shedLate
  repeat' first
    | with_reducible assumption | with_reducible apply pres_ite | with_reducible apply C.detect
    | with_reducible apply C.wr
    | with_reducible refine C.same (fun h => h) (fun h => h) (fun h => h) (fun h => h) (fun h => h) (fun h => h) (fun h => h) (fun h => h) (fun h => h) (fun h => h) (fun h => h) ?_
    | with_reducible refine C.same ?_ ?_ ?_ ?_ ?_ ?_ ?_ ?_ ?_ ?_ ?_ ?_ | exact fun h => h

end Sys2Proof.Machine
end

