-- ==== Sys2Proof/Laws/Stable/Host.lean ====
section
/-!
SUPPORT. Laws/Stable/Host.lean: what the operations of Machine/Host.lean keep (Laws/Stable.lean).
-/

namespace Sys2Proof.Machine

set_option Elab.async false
set_option linter.unusedTactic false
set_option linter.unreachableTactic false

theorem Stable.devLoad {P : State → Prop} (C : Stable P) {s : State} (p pct : Nat) (hP : P s) :
    P (State.devLoad s p pct) := by
  unfold State.devLoad
  repeat' first
    | with_reducible assumption | with_reducible apply C.wr

theorem Stable.holdWrite {P : State → Prop} (C : Stable P) {s : State} (w : HeldWrite) (full : Bool) (hP : P s) :
    P (State.holdWrite s w full) := by
  unfold State.holdWrite
  repeat' first
    | with_reducible assumption | with_reducible apply pres_cond | with_reducible apply C.inc
    | with_reducible apply C.detect | with_reducible apply C.raiseFill
    | with_reducible refine C.same (fun h => h) (fun h => h) (fun h => h) (fun h => h) (fun h => h) (fun h => h) (fun h => h) (fun h => h) (fun h => h) (fun h => h) (fun h => h) ?_
    | with_reducible refine C.same ?_ ?_ ?_ ?_ ?_ ?_ ?_ ?_ ?_ ?_ ?_ ?_ | exact fun h => h | exact fun _ => rfl
    | exact fun _ => Nat.zero_le _ | intro _

theorem Stable.writePart {P : State → Prop} (C : Stable P) {s : State} (g l : Nat) (bytes : List (Nat × Byte)) (ecc : Ecc) (hP : P s) :
    P (State.writePart s g l bytes ecc) := by
  unfold State.writePart
  repeat' first
    | with_reducible assumption | with_reducible apply pres_ite | with_reducible apply C.wrote
    | with_reducible apply C.mergeBytes | with_reducible apply C.corrected | with_reducible apply C.recordUe
    | with_reducible apply C.poisonUe | split
    | with_reducible refine C.same (fun h => h) (fun h => h) (fun h => h) (fun h => h) (fun h => h) (fun h => h) (fun h => h) (fun h => h) (fun h => h) (fun h => h) (fun h => h) ?_
    | with_reducible refine C.same ?_ ?_ ?_ ?_ ?_ ?_ ?_ ?_ ?_ ?_ ?_ ?_ | exact fun h => h

theorem Stable.hostWrite {P : State → Prop} (C : Stable P) {s : State} (p tag g l : Nat) (bytes : List (Nat × Byte)) (poison setFull : Bool) (ecc : Ecc) (hP : P s) :
    P (State.hostWrite s p tag g l bytes poison setFull ecc) := by
  unfold State.hostWrite
  repeat' first
    | with_reducible assumption | with_reducible apply pres_ite | with_reducible apply C.touch
    | with_reducible apply C.writeLine | with_reducible apply C.respond | with_reducible apply C.holdWrite
    | with_reducible apply C.writePart

theorem Stable.access {P : State → Prop} (C : Stable P) {s : State} (w : HeldWrite) (go : State → State) (hgo : ∀ t, P t → P (go t)) (hP : P s) :
    P (State.access s w go) := by
  unfold State.access
  repeat' first
    | with_reducible assumption | with_reducible apply pres_ite | with_reducible apply hgo
    | with_reducible refine C.same (fun h => h) (fun h => h) (fun h => h) (fun h => h) (fun h => h) (fun h => h) (fun h => h) (fun h => h) (fun h => h) (fun h => h) (fun h => h) ?_
    | with_reducible refine C.same ?_ ?_ ?_ ?_ ?_ ?_ ?_ ?_ ?_ ?_ ?_ ?_ | exact fun h => h | intro _

theorem Stable.hostRead {P : State → Prop} (C : Stable P) {s : State} (p tag g l : Nat) (ecc : Ecc) (hP : P s) :
    P (State.hostRead s p tag g l ecc) := by
  unfold State.hostRead
  repeat' first
    | with_reducible assumption | with_reducible apply pres_ite | with_reducible apply C.raiseFill
    | with_reducible apply C.respond | with_reducible apply C.answerRead | with_reducible apply C.corrected
    | with_reducible apply C.recordUe | with_reducible apply C.refill | with_reducible apply C.poisonUe
    | with_reducible apply C.mediaEvent | split
    | with_reducible refine C.same (fun h => h) (fun h => h) (fun h => h) (fun h => h) (fun h => h) (fun h => h) (fun h => h) (fun h => h) (fun h => h) (fun h => h) (fun h => h) ?_
    | with_reducible refine C.same ?_ ?_ ?_ ?_ ?_ ?_ ?_ ?_ ?_ ?_ ?_ ?_ | exact fun h => h | exact fun _ => rfl
    | exact fun _ => Nat.zero_le _

theorem Stable.retireLine {P : State → Prop} (C : Stable P) {s : State} (e : Nat × Ecc) (hP : P s) :
    P (State.retireLine s e) := by
  unfold State.retireLine
  repeat' first
    | with_reducible assumption | with_reducible apply pres_cond | with_reducible apply pres_ite
    | with_reducible apply C.detect | with_reducible apply C.setPoison | with_reducible apply C.corrected
    | with_reducible apply C.recordUe | split
    | with_reducible refine C.same (fun h => h) (fun h => h) (fun h => h) (fun h => h) (fun h => h) (fun h => h) (fun h => h) (fun h => h) (fun h => h) (fun h => h) (fun h => h) ?_
    | with_reducible refine C.same ?_ ?_ ?_ ?_ ?_ ?_ ?_ ?_ ?_ ?_ ?_ ?_ | exact fun h => h | intro _

theorem Stable.retireDone {P : State → Prop} (C : Stable P) {s : State} (g : Nat) (found : List (Nat × Ecc)) (hP : P s) :
    P (State.retireDone s g found) := by
  unfold State.retireDone
  repeat' first
    | with_reducible assumption | with_reducible apply pres_cond | with_reducible apply pres_ite
    | with_reducible apply pres_foldl | with_reducible apply C.rankAdd | with_reducible apply C.rankSub
    | with_reducible apply C.dramEvent | with_reducible apply C.showPool | with_reducible apply C.retireLine | split
    | with_reducible refine C.same (fun h => h) (fun h => h) (fun h => h) (fun h => h) (fun h => h) (fun h => h) (fun h => h) (fun h => h) (fun h => h) (fun h => h) (fun h => h) ?_
    | with_reducible refine C.same ?_ ?_ ?_ ?_ ?_ ?_ ?_ ?_ ?_ ?_ ?_ ?_ | exact fun h => h | exact NMap.wf_set _ _
    | (intro h; exact Nat.le_trans (List.length_filter_le _ _) h) | intro _

theorem Stable.runWaiting {P : State → Prop} (C : Stable P) {s : State} (g : Nat) (hP : P s) :
    P (State.runWaiting s g) := by
  unfold State.runWaiting
  repeat' first
    | with_reducible assumption | with_reducible apply pres_ite | with_reducible apply pres_foldl
    | with_reducible apply C.hostWrite | with_reducible apply C.hostRead
    | with_reducible refine C.same (fun h => h) (fun h => h) (fun h => h) (fun h => h) (fun h => h) (fun h => h) (fun h => h) (fun h => h) (fun h => h) (fun h => h) (fun h => h) ?_
    | with_reducible refine C.same ?_ ?_ ?_ ?_ ?_ ?_ ?_ ?_ ?_ ?_ ?_ ?_ | exact fun h => h
    | (intro h; exact Nat.le_trans (List.length_filter_le _ _) h) | intro _

theorem Stable.dropLink {P : State → Prop} (C : Stable P) {s : State} (p : Nat) (hP : P s) :
    P (State.dropLink s p) := by
  unfold State.dropLink
  repeat' first
    | with_reducible assumption | with_reducible apply C.healthNote | with_reducible apply C.dropPortQueues
    | with_reducible apply C.k2PortDone | with_reducible apply C.wr

theorem Stable.linkDown {P : State → Prop} (C : Stable P) {s : State} (p : Nat) (hP : P s) :
    P (State.linkDown s p) := by
  unfold State.linkDown
  repeat' first
    | with_reducible assumption | with_reducible apply pres_cond | with_reducible apply pres_ite
    | with_reducible apply C.setHost | with_reducible apply C.detect | with_reducible apply C.dropLink
    | with_reducible refine C.same (fun h => h) (fun h => h) (fun h => h) (fun h => h) (fun h => h) (fun h => h) (fun h => h) (fun h => h) (fun h => h) (fun h => h) (fun h => h) ?_
    | with_reducible refine C.same ?_ ?_ ?_ ?_ ?_ ?_ ?_ ?_ ?_ ?_ ?_ ?_ | exact fun h => h | intro _

theorem Stable.resetPort {P : State → Prop} (C : Stable P) {s : State} (p : Nat) (hP : P s) :
    P (State.resetPort s p) := by
  unfold State.resetPort
  repeat' first
    | with_reducible assumption | with_reducible apply C.setHost | with_reducible apply C.dropHeld
    | with_reducible apply C.dropLink | with_reducible apply C.wr
    | with_reducible refine C.same (fun h => h) (fun h => h) (fun h => h) (fun h => h) (fun h => h) (fun h => h) (fun h => h) (fun h => h) (fun h => h) (fun h => h) (fun h => h) ?_
    | with_reducible refine C.same ?_ ?_ ?_ ?_ ?_ ?_ ?_ ?_ ?_ ?_ ?_ ?_ | exact fun h => h | exact NMap.wf_keep _
    | exact fun _ => rfl | exact fun _ => Nat.zero_le _ | (intro h; exact Nat.le_trans (List.length_filter_le _ _) h)
    | intro _

theorem Stable.portReset {P : State → Prop} (C : Stable P) {s : State} (p : Nat) (perst : Bool) (hP : P s) :
    P (State.portReset s p perst) := by
  unfold State.portReset
  repeat' first
    | with_reducible assumption | with_reducible apply pres_cond | with_reducible apply pres_ite
    | with_reducible apply C.setHost | with_reducible apply C.restExit | with_reducible apply C.resetPort
    | with_reducible refine C.same (fun h => h) (fun h => h) (fun h => h) (fun h => h) (fun h => h) (fun h => h) (fun h => h) (fun h => h) (fun h => h) (fun h => h) (fun h => h) ?_
    | with_reducible refine C.same ?_ ?_ ?_ ?_ ?_ ?_ ?_ ?_ ?_ ?_ ?_ ?_ | exact fun h => h | intro _

theorem Stable.decoderCommit {P : State → Prop} (C : Stable P) {s : State} (p n base size ways gran : Nat) (hP : P s) :
    P (State.decoderCommit s p n base size ways gran) := by
  unfold State.decoderCommit
  repeat' first
    | with_reducible assumption | with_reducible apply pres_ite | with_reducible apply C.setBit
    | with_reducible apply C.setHost | with_reducible apply C.detect
    | with_reducible refine C.same (fun h => h) (fun h => h) (fun h => h) (fun h => h) (fun h => h) (fun h => h) (fun h => h) (fun h => h) (fun h => h) (fun h => h) (fun h => h) ?_
    | with_reducible refine C.same ?_ ?_ ?_ ?_ ?_ ?_ ?_ ?_ ?_ ?_ ?_ ?_ | exact fun h => h
    | (intro h; exact Nat.le_trans (List.length_filter_le _ _) h) | intro _

theorem Stable.gpfRequest {P : State → Prop} (C : Stable P) {s : State} (p : Nat) (hP : P s) :
    P (State.gpfRequest s p) := by
  unfold State.gpfRequest
  repeat' first
    | with_reducible assumption | with_reducible apply pres_ite | with_reducible apply C.setHost
    | with_reducible refine C.same (fun h => h) (fun h => h) (fun h => h) (fun h => h) (fun h => h) (fun h => h) (fun h => h) (fun h => h) (fun h => h) (fun h => h) (fun h => h) ?_
    | with_reducible refine C.same ?_ ?_ ?_ ?_ ?_ ?_ ?_ ?_ ?_ ?_ ?_ ?_ | exact fun h => h
    | (intro h; simp only [List.length_map]; exact h) | intro _

theorem Stable.gpfDone {P : State → Prop} (C : Stable P) {s : State} (p : Nat) (hP : P s) :
    P (State.gpfDone s p) := by
  unfold State.gpfDone
  repeat' first
    | with_reducible assumption | with_reducible apply pres_ite | with_reducible apply C.send
    | with_reducible apply C.setHost | with_reducible apply C.k2PortDone | with_reducible apply C.wr
    | with_reducible refine C.same (fun h => h) (fun h => h) (fun h => h) (fun h => h) (fun h => h) (fun h => h) (fun h => h) (fun h => h) (fun h => h) (fun h => h) (fun h => h) ?_
    | with_reducible refine C.same ?_ ?_ ?_ ?_ ?_ ?_ ?_ ?_ ?_ ?_ ?_ ?_ | exact fun h => h | intro _

theorem Stable.gpfLate {P : State → Prop} (C : Stable P) {s : State} (p : Nat) (hP : P s) :
    P (State.gpfLate s p) := by
  unfold State.gpfLate
  repeat' first
    | with_reducible assumption | with_reducible apply pres_ite | with_reducible apply C.detect
    | with_reducible apply C.k2PortDone | with_reducible apply C.wr

theorem Stable.mboxLate {P : State → Prop} (C : Stable P) {s : State} (p : Nat) (hP : P s) :
    P (State.mboxLate s p) := by
  unfold State.mboxLate
  repeat' first
    | with_reducible assumption | with_reducible apply pres_cond | with_reducible apply C.detect | intro _

end Sys2Proof.Machine
end

