-- ==== Sys2Proof/Laws/Stable/Mailbox.lean ====
section
/-!
SUPPORT. Laws/Stable/Mailbox.lean: what the operations of Machine/Mailbox.lean keep (Laws/Stable.lean).
-/

namespace Sys2Proof.Machine

set_option Elab.async false
set_option linter.unusedTactic false
set_option linter.unreachableTactic false

theorem Stable.mbox {P : State → Prop} (C : Stable P) {s : State} (c : Instr) (p op : Nat) (early admin : Bool) (body : State → State) (hbody : ∀ t, P t → P (body t)) (hP : P s) :
    P (State.mbox s c p op early admin body) := by
  unfold State.mbox
  repeat' first
    | with_reducible assumption | with_reducible apply pres_ite | with_reducible apply C.setHost
    | with_reducible apply C.hold | with_reducible apply C.reply | with_reducible apply C.restExit
    | with_reducible apply C.wr | with_reducible apply hbody
    | with_reducible refine C.same (fun h => h) (fun h => h) (fun h => h) (fun h => h) (fun h => h) (fun h => h) (fun h => h) (fun h => h) (fun h => h) (fun h => h) (fun h => h) ?_
    | with_reducible refine C.same ?_ ?_ ?_ ?_ ?_ ?_ ?_ ?_ ?_ ?_ ?_ ?_ | exact fun h => h | exact fun _ => rfl
    | exact fun _ => Nat.zero_le _ | intro _

theorem Stable.mboxRead {P : State → Prop} (C : Stable P) {s : State} (c : Instr) (p op : Nat) (early : Bool) (words : State → List Nat) (hP : P s) :
    P (State.mboxRead s c p op early words) := by
  unfold State.mboxRead
  repeat' first
    | with_reducible assumption | with_reducible apply C.reply | with_reducible apply C.mbox | intro _

theorem Stable.clearEvents {P : State → Prop} (C : Stable P) {s : State} (p log : Nat) (all : Bool) (handles : List Nat) (hP : P s) :
    P (s.clearEvents p log all handles) := by
  unfold State.clearEvents
  simp only
  refine pres_ite (C.reply _ _ _ hP) ?_
  refine C.reply _ _ _ (pres_cond (C.wr _ (C.setHost ?_ hP)) (fun t ht => C.setBit _ _ _ ht))
  intro h l hm
  rcases List.mem_or_eq_of_mem_set hm with hm | hm
  · exact h l hm
  · rw [hm]
    split
    · exact Nat.zero_le _
    · rw [List.length_drop, List.getD_eq_getElem?_getD]
      cases he : (s.host p).logs[log]? with
      | none => simp
      | some x =>
        have := h x (List.mem_of_getElem? he)
        simp only [Option.getD_some]
        omega

theorem Stable.openReply {P : State → Prop} (C : Stable P) {s : State} (p : Nat) (hP : P s) :
    P (State.openReply s p) := by
  unfold State.openReply
  repeat' first
    | with_reducible assumption | with_reducible apply C.takeFree | with_reducible apply C.reply

theorem Stable.hostUnpow {P : State → Prop} (C : Stable P) {s : State} (seconds : Nat) (hP : P s) :
    P (State.hostUnpow s seconds) := by
  unfold State.hostUnpow
  repeat' first
    | with_reducible assumption | with_reducible apply pres_cond | with_reducible apply pres_ite
    | with_reducible apply C.notice | with_reducible apply C.ageGauge | with_reducible apply C.wr
    | with_reducible refine C.same (fun h => h) (fun h => h) (fun h => h) (fun h => h) (fun h => h) (fun h => h) (fun h => h) (fun h => h) (fun h => h) (fun h => h) (fun h => h) ?_
    | with_reducible refine C.same ?_ ?_ ?_ ?_ ?_ ?_ ?_ ?_ ?_ ?_ ?_ ?_ | exact fun h => h | intro _

theorem Stable.setTime {P : State → Prop} (C : Stable P) {s : State} (p seconds : Nat) (hP : P s) :
    P (State.setTime s p seconds) := by
  unfold State.setTime
  repeat' first
    | with_reducible assumption | with_reducible apply C.reply | with_reducible apply C.hostUnpow
    | with_reducible refine C.same (fun h => h) (fun h => h) (fun h => h) (fun h => h) (fun h => h) (fun h => h) (fun h => h) (fun h => h) (fun h => h) (fun h => h) (fun h => h) ?_
    | with_reducible refine C.same ?_ ?_ ?_ ?_ ?_ ?_ ?_ ?_ ?_ ?_ ?_ ?_ | exact fun h => h | exact fun _ => rfl
    | exact fun _ => Nat.zero_le _ | intro _

theorem Stable.setAlert {P : State → Prop} (C : Stable P) {s : State} (p : Nat) (limits : List Nat) (hP : P s) :
    P (State.setAlert s p limits) := by
  unfold State.setAlert
  repeat' first
    | with_reducible assumption | with_reducible apply C.setHost | with_reducible apply C.reply
    | with_reducible refine C.same (fun h => h) (fun h => h) (fun h => h) (fun h => h) (fun h => h) (fun h => h) (fun h => h) (fun h => h) (fun h => h) (fun h => h) (fun h => h) ?_
    | with_reducible refine C.same ?_ ?_ ?_ ?_ ?_ ?_ ?_ ?_ ?_ ?_ ?_ ?_ | exact fun h => h | exact fun _ => rfl
    | exact fun _ => Nat.zero_le _

theorem Stable.setShutdown {P : State → Prop} (C : Stable P) {s : State} (p v : Nat) (hP : P s) :
    P (State.setShutdown s p v) := by
  unfold State.setShutdown
  repeat' first
    | with_reducible assumption | with_reducible apply C.setHost | with_reducible apply C.reply
    | with_reducible refine C.same (fun h => h) (fun h => h) (fun h => h) (fun h => h) (fun h => h) (fun h => h) (fun h => h) (fun h => h) (fun h => h) (fun h => h) (fun h => h) ?_
    | with_reducible refine C.same ?_ ?_ ?_ ?_ ?_ ?_ ?_ ?_ ?_ ?_ ?_ ?_ | exact fun h => h | exact fun _ => rfl
    | exact fun _ => Nat.zero_le _

theorem Stable.background {P : State → Prop} (C : Stable P) {s : State} (p : Nat) (body : State → State) (hbody : ∀ t, P t → P (body t)) (hP : P s) :
    P (State.background s p body) := by
  unfold State.background
  repeat' first
    | with_reducible assumption | with_reducible apply pres_ite | with_reducible apply C.reply
    | with_reducible apply hbody | intro _

theorem Stable.relistLines {P : State → Prop} (C : Stable P) {s : State} (p lo hi : Nat) (hP : P s) :
    P (State.relistLines s p lo hi) := by
  unfold State.relistLines
  repeat' first
    | with_reducible assumption | with_reducible apply pres_foldl | with_reducible apply C.listAt | intro _

theorem Stable.scanMedia {P : State → Prop} (C : Stable P) {s : State} (p base n : Nat) (found : List (Nat × Ecc)) (hP : P s) :
    P (State.scanMedia s p base n found) := by
  unfold State.scanMedia
  repeat' first
    | with_reducible assumption | with_reducible apply pres_cond | with_reducible apply pres_ite
    | with_reducible apply pres_foldl | with_reducible apply C.setHost | with_reducible apply C.reply
    | with_reducible apply C.bgEnd | with_reducible apply C.patrolLine | with_reducible apply C.background
    | with_reducible apply C.relistLines | with_reducible apply C.wr
    | with_reducible refine C.same (fun h => h) (fun h => h) (fun h => h) (fun h => h) (fun h => h) (fun h => h) (fun h => h) (fun h => h) (fun h => h) (fun h => h) (fun h => h) ?_
    | with_reducible refine C.same ?_ ?_ ?_ ?_ ?_ ?_ ?_ ?_ ?_ ?_ ?_ ?_ | exact fun h => h | exact fun _ => rfl
    | exact fun _ => Nat.zero_le _ | (intro h; exact Nat.le_trans (List.length_filter_le _ _) h) | intro _

theorem Stable.mailWrite {P : State → Prop} (C : Stable P) {s : State} (p line : Nat) (bytes : List (Nat × Byte)) (poison setFull : Bool) (hP : P s) :
    P (State.mailWrite s p line bytes poison setFull) := by
  unfold State.mailWrite
  repeat' first
    | with_reducible assumption | with_reducible apply pres_ite | with_reducible apply C.reply
    | with_reducible apply C.writeLine | with_reducible apply C.holdWrite

theorem Stable.wipeStart {P : State → Prop} (C : Stable P) {s : State} (p op : Nat) (hP : P s) :
    P (State.wipeStart s p op) := by
  unfold State.wipeStart
  repeat' first
    | with_reducible assumption | with_reducible apply pres_ite | with_reducible apply C.setHost
    | with_reducible apply C.reply | with_reducible apply C.background | with_reducible apply C.wr
    | with_reducible refine C.same (fun h => h) (fun h => h) (fun h => h) (fun h => h) (fun h => h) (fun h => h) (fun h => h) (fun h => h) (fun h => h) (fun h => h) (fun h => h) ?_
    | with_reducible refine C.same ?_ ?_ ?_ ?_ ?_ ?_ ?_ ?_ ?_ ?_ ?_ ?_ | exact fun h => h | exact fun _ => rfl
    | exact fun _ => Nat.zero_le _ | intro _

theorem Stable.newKey {P : State → Prop} (C : Stable P) {s : State}  (hP : P s) :
    P (State.newKey s) := by
  unfold State.newKey
  repeat' first
    | with_reducible assumption | with_reducible apply C.putWraps | with_reducible apply C.wr
    | with_reducible refine C.same (fun h => h) (fun h => h) (fun h => h) (fun h => h) (fun h => h) (fun h => h) (fun h => h) (fun h => h) (fun h => h) (fun h => h) (fun h => h) ?_
    | with_reducible refine C.same ?_ ?_ ?_ ?_ ?_ ?_ ?_ ?_ ?_ ?_ ?_ ?_ | exact fun h => h

theorem Stable.emptyCellar {P : State → Prop} (C : Stable P) {s : State}  (hP : P s) :
    P (State.emptyCellar s) := by
  unfold State.emptyCellar
  repeat' first
    | with_reducible assumption | with_reducible apply C.showMap | with_reducible apply C.showChain
    | with_reducible apply C.wr
    | with_reducible refine C.same (fun h => h) (fun h => h) (fun h => h) (fun h => h) (fun h => h) (fun h => h) (fun h => h) (fun h => h) (fun h => h) (fun h => h) (fun h => h) ?_
    | with_reducible refine C.same ?_ ?_ ?_ ?_ ?_ ?_ ?_ ?_ ?_ ?_ ?_ ?_ | exact fun h => h | exact fun _ => rfl
    | exact fun _ => Nat.zero_le _ | (intro h; simp only [List.length_map]; exact h) | intro _

theorem Stable.zeroDram {P : State → Prop} (C : Stable P) {s : State}  (hP : P s) :
    P (State.zeroDram s) := by
  unfold State.zeroDram
  repeat' first
    | with_reducible assumption | with_reducible apply pres_each | with_reducible apply C.setHost
    | with_reducible apply C.cleanRange | with_reducible apply C.dropCopies | with_reducible apply C.showPoison
    | with_reducible apply C.fenceClean
    | with_reducible refine C.same (fun h => h) (fun h => h) (fun h => h) (fun h => h) (fun h => h) (fun h => h) (fun h => h) (fun h => h) (fun h => h) (fun h => h) (fun h => h) ?_
    | with_reducible refine C.same ?_ ?_ ?_ ?_ ?_ ?_ ?_ ?_ ?_ ?_ ?_ ?_ | exact fun h => h | exact fun _ => rfl
    | exact fun _ => Nat.zero_le _ | intro _

theorem Stable.wipeDone {P : State → Prop} (C : Stable P) {s : State} (p : Nat) (hP : P s) :
    P (State.wipeDone s p) := by
  unfold State.wipeDone
  repeat' first
    | with_reducible assumption | with_reducible apply pres_ite | with_reducible apply C.setHost
    | with_reducible apply C.bgEnd | with_reducible apply C.newKey | with_reducible apply C.emptyCellar
    | with_reducible apply C.zeroDram | with_reducible apply C.wr | split
    | with_reducible refine C.same (fun h => h) (fun h => h) (fun h => h) (fun h => h) (fun h => h) (fun h => h) (fun h => h) (fun h => h) (fun h => h) (fun h => h) (fun h => h) ?_
    | with_reducible refine C.same ?_ ?_ ?_ ?_ ?_ ?_ ?_ ?_ ?_ ?_ ?_ ?_ | exact fun h => h | exact fun _ => rfl
    | exact fun _ => Nat.zero_le _

theorem Stable.relistCopies {P : State → Prop} (C : Stable P) {s : State} (p : Nat) (hP : P s) : P (s.relistCopies p) := by
  unfold State.relistCopies
  refine pres_foldl hP (fun t e ht => ?_)
  dsimp only
  exact pres_ite (C.listAt _ _ _ _ ht) ht


theorem Stable.relist {P : State → Prop} (C : Stable P) {s : State} (p : Nat) (hP : P s) :
    P (State.relist s p) := by
  unfold State.relist
  repeat' first
    | with_reducible assumption | with_reducible apply pres_ite | with_reducible apply pres_foldl
    | with_reducible apply C.setHost | with_reducible apply C.showPoison | with_reducible apply C.listAt
    | with_reducible apply C.relistLines | with_reducible apply C.relistCopies
    | with_reducible refine C.same (fun h => h) (fun h => h) (fun h => h) (fun h => h) (fun h => h) (fun h => h) (fun h => h) (fun h => h) (fun h => h) (fun h => h) (fun h => h) ?_
    | with_reducible refine C.same ?_ ?_ ?_ ?_ ?_ ?_ ?_ ?_ ?_ ?_ ?_ ?_ | exact fun h => h | exact fun _ => rfl
    | exact fun _ => Nat.zero_le _ | (intro h; simp only [List.length_map]; exact h)
    | (intro h; exact Nat.le_trans (List.length_filter_le _ _) h) | intro _

theorem Stable.setPartition {P : State → Prop} (C : Stable P) {s : State} (p aB aN bB bN : Nat) (hP : P s) :
    P (State.setPartition s p aB aN bB bN) := by
  unfold State.setPartition
  repeat' first
    | with_reducible assumption | with_reducible apply pres_cond | with_reducible apply pres_ite
    | with_reducible apply pres_each | with_reducible apply C.reply | with_reducible apply C.relist
    | with_reducible apply C.wr
    | with_reducible refine C.same (fun h => h) (fun h => h) (fun h => h) (fun h => h) (fun h => h) (fun h => h) (fun h => h) (fun h => h) (fun h => h) (fun h => h) (fun h => h) ?_
    | with_reducible refine C.same ?_ ?_ ?_ ?_ ?_ ?_ ?_ ?_ ?_ ?_ ?_ ?_ | exact fun h => h | exact fun _ => rfl
    | exact fun _ => Nat.zero_le _ | intro _

theorem Stable.plannedKiln {P : State → Prop} (C : Stable P) {s : State} (p : Nat) (p3 group : Bool) (hP : P s) :
    P (State.plannedKiln s p p3 group) := by
  unfold State.plannedKiln
  repeat' first
    | with_reducible assumption | with_reducible apply pres_ite | with_reducible apply C.setHost
    | with_reducible apply C.reply | with_reducible apply C.fireTrigger | with_reducible apply C.background
    | with_reducible apply C.wr
    | with_reducible refine C.same (fun h => h) (fun h => h) (fun h => h) (fun h => h) (fun h => h) (fun h => h) (fun h => h) (fun h => h) (fun h => h) (fun h => h) (fun h => h) ?_
    | with_reducible refine C.same ?_ ?_ ?_ ?_ ?_ ?_ ?_ ?_ ?_ ?_ ?_ ?_ | exact fun h => h | exact fun _ => rfl
    | exact fun _ => Nat.zero_le _ | intro _

theorem Stable.caskUnlock {P : State → Prop} (C : Stable P) {s : State} (p key : Nat) (hP : P s) :
    P (State.caskUnlock s p key) := by
  unfold State.caskUnlock
  repeat' first
    | with_reducible assumption | with_reducible apply pres_cond | with_reducible apply pres_ite
    | with_reducible apply C.inc | with_reducible apply C.detect | with_reducible apply C.reply
    | with_reducible apply C.putWraps | with_reducible apply C.wr | intro _

theorem Stable.setHostKey {P : State → Prop} (C : Stable P) {s : State} (p cur new : Nat) (second : Bool) (hP : P s) :
    P (State.setHostKey s p cur new second) := by
  unfold State.setHostKey
  repeat' first
    | with_reducible assumption | with_reducible apply pres_ite | with_reducible apply C.reply
    | with_reducible apply C.putWraps | with_reducible apply C.second | with_reducible apply C.wr
    | with_reducible refine C.same (fun h => h) (fun h => h) (fun h => h) (fun h => h) (fun h => h) (fun h => h) (fun h => h) (fun h => h) (fun h => h) (fun h => h) (fun h => h) ?_
    | with_reducible refine C.same ?_ ?_ ?_ ?_ ?_ ?_ ?_ ?_ ?_ ?_ ?_ ?_ | exact fun h => h | exact fun _ => rfl
    | exact fun _ => Nat.zero_le _ | intro _

theorem Stable.tlogParity {P : State → Prop} (C : Stable P) {s : State} (bad : List Nat) (hP : P s) :
    P (State.tlogParity s bad) := by
  unfold State.tlogParity
  repeat' first
    | with_reducible assumption | with_reducible apply pres_cond | with_reducible apply C.showTlog
    | with_reducible apply C.detect
    | with_reducible refine C.same (fun h => h) (fun h => h) (fun h => h) (fun h => h) (fun h => h) (fun h => h) (fun h => h) (fun h => h) (fun h => h) (fun h => h) (fun h => h) ?_
    | with_reducible refine C.same ?_ ?_ ?_ ?_ ?_ ?_ ?_ ?_ ?_ ?_ ?_ ?_ | exact fun h => h
    | (intro h; exact Nat.le_trans (List.length_filter_le _ _) h) | intro _

theorem Stable.setWindow {P : State → Prop} (C : Stable P) {s : State} (p : Nat) (r : ExportReply) (hP : P s) :
    P (State.setWindow s p r) := by
  unfold State.setWindow
  repeat' first
    | with_reducible assumption | with_reducible apply pres_ite | with_reducible apply pres_foldl
    | with_reducible refine C.same (fun h => h) (fun h => h) (fun h => h) (fun h => h) (fun h => h) (fun h => h) (fun h => h) (fun h => h) (fun h => h) (fun h => h) (fun h => h) ?_
    | with_reducible refine C.same ?_ ?_ ?_ ?_ ?_ ?_ ?_ ?_ ?_ ?_ ?_ ?_ | exact fun h => h | exact Memory.wf_paste _ _ _
    | exact fun _ => rfl | exact fun _ => Nat.zero_le _ | intro _

theorem Stable.rackExport {P : State → Prop} (C : Stable P) {s : State} (p target owner first n : Nat) (remote : Option ExportReply) (hP : P s) :
    P (State.rackExport s p target owner first n remote) := by
  unfold State.rackExport
  repeat' first
    | with_reducible assumption | with_reducible apply pres_ite | with_reducible apply C.reply
    | with_reducible apply C.bgEnd | with_reducible apply C.background | with_reducible apply C.setWindow
    | with_reducible apply C.wr | split
    | with_reducible refine C.same (fun h => h) (fun h => h) (fun h => h) (fun h => h) (fun h => h) (fun h => h) (fun h => h) (fun h => h) (fun h => h) (fun h => h) (fun h => h) ?_
    | with_reducible refine C.same ?_ ?_ ?_ ?_ ?_ ?_ ?_ ?_ ?_ ?_ ?_ ?_ | exact fun h => h | exact fun _ => rfl
    | exact fun _ => Nat.zero_le _ | intro _

end Sys2Proof.Machine
end

