-- ==== Sys2Proof/Laws/Stable/PageOps.lean ====
section
/-!
SUPPORT. Laws/Stable/PageOps.lean: what the operations of Machine/PageOps.lean keep (Laws/Stable.lean).
-/

namespace Sys2Proof.Machine

set_option Elab.async false
set_option linter.unusedTactic false
set_option linter.unreachableTactic false

theorem Stable.giveReg {P : State → Prop} (C : Stable P) {s : State} (who : Requester) (v : Nat) (hP : P s) :
    P (State.giveReg s who v) := by
  unfold State.giveReg
  repeat' first
    | with_reducible assumption | with_reducible apply C.send

theorem Stable.under {P : State → Prop} (C : Stable P) {s : State} (a : Admit) (page : Nat) (f : State → State) (hf : ∀ t, P t → P (f t)) (hP : P s) :
    P (State.under s a page f) := by
  unfold State.under
  repeat' first
    | with_reducible assumption | with_reducible apply C.reject | with_reducible apply C.restExit
    | with_reducible apply hf | split
    | with_reducible refine C.same (fun h => h) (fun h => h) (fun h => h) (fun h => h) (fun h => h) (fun h => h) (fun h => h) (fun h => h) (fun h => h) (fun h => h) (fun h => h) ?_
    | with_reducible refine C.same ?_ ?_ ?_ ?_ ?_ ?_ ?_ ?_ ?_ ?_ ?_ ?_ | exact fun h => h | intro _

theorem Stable.command {P : State → Prop} (C : Stable P) {s : State} (c : Instr) (a : Admit) (page : Nat) (f : State → State) (hf : ∀ t, P t → P (f t)) (hP : P s) :
    P (State.command s c a page f) := by
  unfold State.command
  repeat' first
    | with_reducible assumption | with_reducible apply pres_ite | with_reducible apply C.hold
    | with_reducible apply C.under | with_reducible apply hf | intro _

end Sys2Proof.Machine
end

