-- ==== Sys2Proof/Laws/Stable/Wither.lean ====
section
/-!
SUPPORT. Laws/Stable/Wither.lean: what the operations of Machine/Wither.lean keep (Laws/Stable.lean).
-/

namespace Sys2Proof.Machine

set_option Elab.async false
set_option linter.unusedTactic false
set_option linter.unreachableTactic false

theorem Stable.scrubStart {P : State → Prop} (C : Stable P) {s : State}  (hP : P s) :
    P (State.scrubStart s) := by
  unfold State.scrubStart
  repeat' first
    | with_reducible assumption | with_reducible apply pres_ite
    | with_reducible refine C.same (fun h => h) (fun h => h) (fun h => h) (fun h => h) (fun h => h) (fun h => h) (fun h => h) (fun h => h) (fun h => h) (fun h => h) (fun h => h) ?_
    | with_reducible refine C.same ?_ ?_ ?_ ?_ ?_ ?_ ?_ ?_ ?_ ?_ ?_ ?_ | exact fun h => h

theorem Stable.bitmapUe {P : State → Prop} (C : Stable P) {s : State} (r : Nat) (hP : P s) :
    P (State.bitmapUe s r) := by
  unfold State.bitmapUe
  repeat' first
    | with_reducible assumption | with_reducible apply C.detect | with_reducible apply C.setCond
    | with_reducible apply C.markRange
    | with_reducible refine C.same (fun h => h) (fun h => h) (fun h => h) (fun h => h) (fun h => h) (fun h => h) (fun h => h) (fun h => h) (fun h => h) (fun h => h) (fun h => h) ?_
    | with_reducible refine C.same ?_ ?_ ?_ ?_ ?_ ?_ ?_ ?_ ?_ ?_ ?_ ?_ | exact fun h => h

theorem Stable.rankTallies {P : State → Prop} (C : Stable P) {s : State}  (hP : P s) :
    P (State.rankTallies s) := by
  unfold State.rankTallies
  repeat' first
    | with_reducible assumption | with_reducible apply pres_each | with_reducible apply C.rankBulk
    | with_reducible apply C.wr | intro _

theorem Stable.scrubPass {P : State → Prop} (C : Stable P) {s : State} (bad : List Nat) (hP : P s) :
    P (State.scrubPass s bad) := by
  unfold State.scrubPass
  repeat' first
    | with_reducible assumption | with_reducible apply pres_cond | with_reducible apply pres_ite
    | with_reducible apply pres_foldl | with_reducible apply C.inc | with_reducible apply C.addSat
    | with_reducible apply C.setCond | with_reducible apply C.injSeen | with_reducible apply C.missing
    | with_reducible apply C.bitmapUe | with_reducible apply C.rankTallies | with_reducible apply C.wr
    | with_reducible refine C.same (fun h => h) (fun h => h) (fun h => h) (fun h => h) (fun h => h) (fun h => h) (fun h => h) (fun h => h) (fun h => h) (fun h => h) (fun h => h) ?_
    | with_reducible refine C.same ?_ ?_ ?_ ?_ ?_ ?_ ?_ ?_ ?_ ?_ ?_ ?_ | exact fun h => h
    | (intro h; exact Nat.le_trans (List.length_filter_le _ _) h) | intro _

theorem Stable.volLost {P : State → Prop} (C : Stable P) {s : State} (copyOk : Bool) (hP : P s) :
    P (State.volLost s copyOk) := by
  unfold State.volLost
  repeat' first
    | with_reducible assumption | with_reducible apply pres_ite | with_reducible apply pres_foldl
    | with_reducible apply C.markRange
    | with_reducible refine C.same (fun h => h) (fun h => h) (fun h => h) (fun h => h) (fun h => h) (fun h => h) (fun h => h) (fun h => h) (fun h => h) (fun h => h) (fun h => h) ?_
    | with_reducible refine C.same ?_ ?_ ?_ ?_ ?_ ?_ ?_ ?_ ?_ ?_ ?_ ?_ | exact fun h => h | exact fun _ => rfl
    | exact fun _ => Nat.zero_le _ | intro _

theorem Stable.scrubEnd {P : State → Prop} (C : Stable P) {s : State} (bad : List Nat) (vol : Option Bool) (hP : P s) :
    P (s.scrubEnd bad vol) := by
  unfold State.scrubEnd
  cases vol with
  | none => exact C.scrubPass _ hP
  | some b => exact C.scrubPass _ (C.volLost _ hP)

theorem Stable.heatSweep {P : State → Prop} (C : Stable P) {s : State} (bad : List Nat) (hP : P s) :
    P (State.heatSweep s bad) := by
  unfold State.heatSweep
  repeat' first
    | with_reducible assumption | with_reducible apply pres_cond | with_reducible apply pres_ite
    | with_reducible apply pres_foldl | with_reducible apply C.inc | with_reducible apply C.detect
    | with_reducible refine C.same (fun h => h) (fun h => h) (fun h => h) (fun h => h) (fun h => h) (fun h => h) (fun h => h) (fun h => h) (fun h => h) (fun h => h) (fun h => h) ?_
    | with_reducible refine C.same ?_ ?_ ?_ ?_ ?_ ?_ ?_ ?_ ?_ ?_ ?_ ?_ | exact fun h => h | exact NMap.wf_set _ _
    | exact fun _ => rfl | exact fun _ => Nat.zero_le _ | (intro h; exact Nat.le_trans (List.length_filter_le _ _) h)
    | intro _

theorem Stable.takeEnergyTerm {P : State → Prop} (C : Stable P) {s : State}  (hP : P s) :
    P (State.takeEnergyTerm s).2 := by
  unfold State.takeEnergyTerm
  repeat' first
    | with_reducible assumption | with_reducible apply pres_ite | with_reducible apply C.takeFree
    | with_reducible apply pres_ite_snd

theorem Stable.dirtyReasons {P : State → Prop} (C : Stable P) {s : State} (d b e : Nat) (hP : P s) :
    P (State.dirtyReasons s d b e) := by
  unfold State.dirtyReasons
  repeat' first
    | with_reducible assumption | with_reducible apply pres_ite | with_reducible apply C.wr

theorem Stable.showInflow {P : State → Prop} (C : Stable P) {s : State}  (hP : P s) :
    P (State.showInflow s) := by
  unfold State.showInflow
  repeat' first
    | with_reducible assumption | with_reducible apply C.wr
    | with_reducible refine C.same (fun h => h) (fun h => h) (fun h => h) (fun h => h) (fun h => h) (fun h => h) (fun h => h) (fun h => h) (fun h => h) (fun h => h) (fun h => h) ?_
    | with_reducible refine C.same ?_ ?_ ?_ ?_ ?_ ?_ ?_ ?_ ?_ ?_ ?_ ?_ | exact fun h => h

theorem Stable.showTerms {P : State → Prop} (C : Stable P) {s : State} (be term : Nat) (hP : P s) :
    P (State.showTerms s be term) := by
  unfold State.showTerms
  repeat' first
    | with_reducible assumption | with_reducible apply C.wr

theorem Stable.boundFaults {P : State → Prop} (C : Stable P) {s : State} (old b : Nat) (hP : P s) :
    P (State.boundFaults s old b) := by
  unfold State.boundFaults
  repeat' first
    | with_reducible assumption | with_reducible apply pres_cond | with_reducible apply C.detect
    | with_reducible apply C.setCond | intro _

theorem Stable.showBound {P : State → Prop} (C : Stable P) {s : State} (b : Nat) (hP : P s) :
    P (State.showBound s b) := by
  unfold State.showBound
  repeat' first
    | with_reducible assumption | with_reducible apply C.pstUpdate | with_reducible apply C.dirtyReasons
    | with_reducible apply C.boundFaults | with_reducible apply C.wr | intro _

theorem Stable.publishBound {P : State → Prop} (C : Stable P) {s : State} (b : Nat) (hP : P s) :
    P (State.publishBound s b) := by
  unfold State.publishBound
  repeat' first
    | with_reducible assumption | with_reducible apply C.bump | with_reducible apply C.showBound

theorem Stable.budget1ms {P : State → Prop} (C : Stable P) {s : State}  (hP : P s) :
    P (State.budget1ms s) := by
  unfold State.budget1ms
  repeat' first
    | with_reducible assumption | with_reducible apply pres_ite | with_reducible apply C.takeEnergyTerm
    | with_reducible apply C.showInflow | with_reducible apply C.showTerms | with_reducible apply C.publishBound

theorem Stable.safeBound {P : State → Prop} (C : Stable P) {s : State}  (hP : P s) :
    P (State.safeBound s) := by
  unfold State.safeBound
  repeat' first
    | with_reducible assumption | with_reducible apply pres_cond | with_reducible apply pres_ite
    | with_reducible apply C.inc | with_reducible apply C.setCond | with_reducible apply C.takeEnergyTerm
    | with_reducible apply C.showBound | with_reducible apply C.wr
    | with_reducible refine C.same (fun h => h) (fun h => h) (fun h => h) (fun h => h) (fun h => h) (fun h => h) (fun h => h) (fun h => h) (fun h => h) (fun h => h) (fun h => h) ?_
    | with_reducible refine C.same ?_ ?_ ?_ ?_ ?_ ?_ ?_ ?_ ?_ ?_ ?_ ?_ | exact fun h => h | intro _

theorem Stable.hostEnergy {P : State → Prop} (C : Stable P) {s : State} (v : Nat) (hP : P s) :
    P (State.hostEnergy s v) := by
  unfold State.hostEnergy
  repeat' first
    | with_reducible assumption | with_reducible apply pres_ite | with_reducible apply C.wr
    | with_reducible refine C.same (fun h => h) (fun h => h) (fun h => h) (fun h => h) (fun h => h) (fun h => h) (fun h => h) (fun h => h) (fun h => h) (fun h => h) (fun h => h) ?_
    | with_reducible refine C.same ?_ ?_ ?_ ?_ ?_ ?_ ?_ ?_ ?_ ?_ ?_ ?_ | exact fun h => h

theorem Stable.hostEnergyOut {P : State → Prop} (C : Stable P) {s : State}  (hP : P s) :
    P (State.hostEnergyOut s) := by
  unfold State.hostEnergyOut
  repeat' first
    | with_reducible assumption | with_reducible apply pres_ite | with_reducible apply C.detect
    | with_reducible refine C.same (fun h => h) (fun h => h) (fun h => h) (fun h => h) (fun h => h) (fun h => h) (fun h => h) (fun h => h) (fun h => h) (fun h => h) (fun h => h) ?_
    | with_reducible refine C.same ?_ ?_ ?_ ?_ ?_ ?_ ?_ ?_ ?_ ?_ ?_ ?_ | exact fun h => h

theorem Stable.refillBucket {P : State → Prop} (C : Stable P) {s : State}  (hP : P s) :
    P (State.refillBucket s) := by
  unfold State.refillBucket
  repeat' first
    | with_reducible assumption | with_reducible apply C.wr
    | with_reducible refine C.same (fun h => h) (fun h => h) (fun h => h) (fun h => h) (fun h => h) (fun h => h) (fun h => h) (fun h => h) (fun h => h) (fun h => h) (fun h => h) ?_
    | with_reducible refine C.same ?_ ?_ ?_ ?_ ?_ ?_ ?_ ?_ ?_ ?_ ?_ ?_ | exact fun h => h

theorem Stable.scanOn {P : State → Prop} (C : Stable P) {s : State} (took : List Nat) (want : Nat) (hP : P s) :
    P (State.scanOn s took want) := by
  unfold State.scanOn
  repeat' first
    | with_reducible assumption | with_reducible apply pres_cond | with_reducible apply pres_ite
    | with_reducible apply C.wr | split
    | with_reducible refine C.same (fun h => h) (fun h => h) (fun h => h) (fun h => h) (fun h => h) (fun h => h) (fun h => h) (fun h => h) (fun h => h) (fun h => h) (fun h => h) ?_
    | with_reducible refine C.same ?_ ?_ ?_ ?_ ?_ ?_ ?_ ?_ ?_ ?_ ?_ ?_ | exact fun h => h | intro _

theorem Stable.settleGrant {P : State → Prop} (C : Stable P) {s : State} (c : Nat) (hP : P s) :
    P (State.settleGrant s c) := by
  unfold State.settleGrant
  repeat' first
    | with_reducible assumption
    | with_reducible refine C.same (fun h => h) (fun h => h) (fun h => h) (fun h => h) (fun h => h) (fun h => h) (fun h => h) (fun h => h) (fun h => h) (fun h => h) (fun h => h) ?_
    | with_reducible refine C.same ?_ ?_ ?_ ?_ ?_ ?_ ?_ ?_ ?_ ?_ ?_ ?_ | exact fun h => h | exact NMap.wf_set _ _
    | intro _

theorem Stable.startCopy {P : State → Prop} (C : Stable P) {s : State} (g fence : Nat) (hP : P s) : P (s.startCopy g fence) := by
  unfold State.startCopy
  split
  · exact hP
  · rename_i hl
    refine C.settleGrant _ (C.showInflight (C.same (fun h => h) (fun h => h) (fun h => h) (fun h => h) (fun h => h) (fun h => h) (fun h => h) (fun h => h) (fun _ => ?_) (fun h => h) (fun h => h) hP))
    simp only [List.length_append, List.length_cons, List.length_nil]
    omega

theorem Stable.witherMove {P : State → Prop} (C : Stable P) {s : State}  (hP : P s) :
    P (State.witherMove s) := by
  unfold State.witherMove
  repeat' first
    | with_reducible assumption | with_reducible apply pres_ite | with_reducible apply C.detect
    | with_reducible apply C.wr
    | with_reducible refine C.same (fun h => h) (fun h => h) (fun h => h) (fun h => h) (fun h => h) (fun h => h) (fun h => h) (fun h => h) (fun h => h) (fun h => h) (fun h => h) ?_
    | with_reducible refine C.same ?_ ?_ ?_ ?_ ?_ ?_ ?_ ?_ ?_ ?_ ?_ ?_ | exact fun h => h | intro _

theorem Stable.witherTick {P : State → Prop} (C : Stable P) {s : State} (n : Nat) (space : Bool) (hP : P s) :
    P (State.witherTick s n space) := by
  unfold State.witherTick
  repeat' first
    | with_reducible assumption | with_reducible apply pres_cond | with_reducible apply pres_ite
    | with_reducible apply pres_foldl | with_reducible apply C.detect | with_reducible apply C.restCease
    | with_reducible apply C.refillBucket | with_reducible apply C.scanOn | with_reducible apply C.startCopy
    | with_reducible apply C.witherMove | with_reducible apply C.wr
    | with_reducible refine C.same (fun h => h) (fun h => h) (fun h => h) (fun h => h) (fun h => h) (fun h => h) (fun h => h) (fun h => h) (fun h => h) (fun h => h) (fun h => h) ?_
    | with_reducible refine C.same ?_ ?_ ?_ ?_ ?_ ?_ ?_ ?_ ?_ ?_ ?_ ?_ | exact fun h => h | intro _

theorem Stable.freeCopy {P : State → Prop} (C : Stable P) {s : State} (g : Nat) (hP : P s) :
    P (State.freeCopy s g) := by
  unfold State.freeCopy
  repeat' first
    | with_reducible assumption | with_reducible apply C.showInflight
    | with_reducible refine C.same (fun h => h) (fun h => h) (fun h => h) (fun h => h) (fun h => h) (fun h => h) (fun h => h) (fun h => h) (fun h => h) (fun h => h) (fun h => h) ?_
    | with_reducible refine C.same ?_ ?_ ?_ ?_ ?_ ?_ ?_ ?_ ?_ ?_ ?_ ?_ | exact fun h => h
    | (intro h; exact Nat.le_trans (List.length_filter_le _ _) h) | intro _

theorem Stable.tornCopy {P : State → Prop} (C : Stable P) {s : State} (g : Nat) (hP : P s) :
    P (State.tornCopy s g) := by
  unfold State.tornCopy
  repeat' first
    | with_reducible assumption | with_reducible apply pres_ite | with_reducible apply C.inc
    | with_reducible apply C.detect | with_reducible apply C.fenceGiveUp | with_reducible apply C.freeCopy
    | with_reducible refine C.same (fun h => h) (fun h => h) (fun h => h) (fun h => h) (fun h => h) (fun h => h) (fun h => h) (fun h => h) (fun h => h) (fun h => h) (fun h => h) ?_
    | with_reducible refine C.same ?_ ?_ ?_ ?_ ?_ ?_ ?_ ?_ ?_ ?_ ?_ ?_ | exact fun h => h | exact NMap.wf_set _ _

theorem pres_foldl_fst {α β : Type} {P : State → Prop} {l : List α} {g : State × β → α → State × β} {a : State × β} (hs : P a.1)
    (hg : ∀ t e, P t.1 → P (g t e).1) : P (l.foldl g a).1 := by
  induction l generalizing a with
  | nil => exact hs
  | cons e t ih => exact ih (hg _ _ hs)

theorem Stable.copyErrors {P : State → Prop} (C : Stable P) {s : State} (g : Nat) (found : List (Nat × Ecc)) (hP : P s) :
    P (s.copyErrors g found).1 := by
  unfold State.copyErrors
  refine pres_foldl_fst hP (fun t e ht => ?_)
  simp only
  refine pres_ite_fst ht ?_
  split
  · exact ht
  · exact C.corrected _ _ _ ht
  · exact C.retireStart _ (pres_cond (C.recordUe _ _ _ ht) (fun u hu => C.detect _ _ hu))

theorem Stable.copyRead {P : State → Prop} (C : Stable P) {s : State} (g addr : Nat) (found : List (Nat × Ecc)) (hP : P s) :
    P (s.copyRead g addr found) := by
  unfold State.copyRead
  split
  · exact hP
  · split
    · exact C.tornCopy _ hP
    · extract_lets r s1 data
      have h1 : P s1 := C.same (s := r.1) (fun h => h) (fun h => h) (fun h => h) (fun h => h) (fun h => h) (fun h => h) (fun h => h) (fun h => h) (fun h => h) (fun h => h) (fun h => h) (C.copyErrors _ _ hP)
      refine C.bump _ (C.same (s := s1) (fun h => h) (fun h => h) (fun h => h) (fun h => h) (fun h => h) (fun h => h) (fun h => h) (fun h => h) (fun h => ?_) (fun h => h) (fun h => h) h1)
      simp only [List.length_map]
      exact h

theorem Stable.retireEngine {P : State → Prop} (C : Stable P) {s : State} (e : Nat) (hP : P s) :
    P (State.retireEngine s e) := by
  unfold State.retireEngine
  repeat' first
    | with_reducible assumption | with_reducible apply pres_ite | with_reducible apply C.tlog
    | with_reducible apply C.healthNote | with_reducible apply C.occur | with_reducible apply C.wr
    | with_reducible refine C.same (fun h => h) (fun h => h) (fun h => h) (fun h => h) (fun h => h) (fun h => h) (fun h => h) (fun h => h) (fun h => h) (fun h => h) (fun h => h) ?_
    | with_reducible refine C.same ?_ ?_ ?_ ?_ ?_ ?_ ?_ ?_ ?_ ?_ ?_ ?_ | exact fun h => h | intro _

theorem Stable.copyGranted {P : State → Prop} (C : Stable P) {s : State} (g addr : Nat) (found : List (Nat × Ecc)) (bad : List Nat) (hP : P s) :
    P (State.copyGranted s g addr found bad) := by
  unfold State.copyGranted
  repeat' first
    | with_reducible assumption | with_reducible apply pres_ite | with_reducible apply pres_foldl
    | with_reducible apply C.settleGrant | with_reducible apply C.copyRead | with_reducible apply C.retireEngine
    | intro _

theorem Stable.commitCopy {P : State → Prop} (C : Stable P) {s : State} (g : Nat) (hP : P s) :
    P (State.commitCopy s g) := by
  unfold State.commitCopy
  repeat' first
    | with_reducible assumption | with_reducible apply pres_cond | with_reducible apply pres_ite
    | with_reducible apply C.inc | with_reducible apply C.detect | with_reducible apply C.markClean
    | with_reducible apply C.setEntry | with_reducible apply C.putCodeword | with_reducible apply C.noteProgram
    | with_reducible apply C.countUsed | with_reducible apply C.countDone | with_reducible apply C.showImage
    | with_reducible apply C.fenceCommit | with_reducible apply C.freeCopy | with_reducible apply C.wr | split
    | with_reducible refine C.same (fun h => h) (fun h => h) (fun h => h) (fun h => h) (fun h => h) (fun h => h) (fun h => h) (fun h => h) (fun h => h) (fun h => h) (fun h => h) ?_
    | with_reducible refine C.same ?_ ?_ ?_ ?_ ?_ ?_ ?_ ?_ ?_ ?_ ?_ ?_ | exact fun h => h | intro _

theorem Stable.padStripe {P : State → Prop} (C : Stable P) {s : State} (a : Nat) (hP : P s) :
    P (State.padStripe s a) := by
  unfold State.padStripe
  repeat' first
    | with_reducible assumption | with_reducible apply pres_ite | with_reducible apply C.bump
    | with_reducible apply C.putCodeword | with_reducible apply C.noteProgram | with_reducible apply C.countUsed
    | with_reducible apply C.showImage

theorem Stable.wearAllow {P : State → Prop} (C : Stable P) {s : State}  (hP : P s) :
    P (State.wearAllow s) := by
  unfold State.wearAllow
  repeat' first
    | with_reducible assumption | with_reducible apply pres_cond | with_reducible apply pres_ite
    | with_reducible apply C.detect | with_reducible apply C.wr
    | with_reducible refine C.same (fun h => h) (fun h => h) (fun h => h) (fun h => h) (fun h => h) (fun h => h) (fun h => h) (fun h => h) (fun h => h) (fun h => h) (fun h => h) ?_
    | with_reducible refine C.same ?_ ?_ ?_ ?_ ?_ ?_ ?_ ?_ ?_ ?_ ?_ ?_ | exact fun h => h | intro _

end Sys2Proof.Machine
end

