-- ==== Sys2Proof/Laws/Stable/Cellar.lean ====
section
/-!
SUPPORT. Laws/Stable/Cellar.lean: what the operations of Machine/Cellar.lean keep (Laws/Stable.lean).
-/

namespace Sys2Proof.Machine

set_option Elab.async false
set_option linter.unusedTactic false
set_option linter.unreachableTactic false

theorem Stable.showLife {P : State → Prop} (C : Stable P) {s : State}  (hP : P s) :
    P (State.showLife s) := by
  unfold State.showLife
  repeat' first
    | with_reducible assumption | with_reducible apply pres_cond | with_reducible apply pres_foldl
    | with_reducible apply C.detect | with_reducible apply C.healthNote | with_reducible apply C.wr | intro _

theorem Stable.rewriteRecords {P : State → Prop} (C : Stable P) {s : State}  (hP : P s) :
    P (State.rewriteRecords s) := by
  unfold State.rewriteRecords
  repeat' first
    | with_reducible assumption | with_reducible apply pres_cond | with_reducible apply pres_ite
    | with_reducible refine C.same (fun h => h) (fun h => h) (fun h => h) (fun h => h) (fun h => h) (fun h => h) (fun h => h) (fun h => h) (fun h => h) (fun h => h) (fun h => h) ?_
    | with_reducible refine C.same ?_ ?_ ?_ ?_ ?_ ?_ ?_ ?_ ?_ ?_ ?_ ?_ | exact fun h => h
    | (intro h; simp only [List.length_map]; exact h) | intro _

theorem Stable.endurance {P : State → Prop} (C : Stable P) {s : State}  (hP : P s) :
    P (State.endurance s) := by
  unfold State.endurance
  repeat' first
    | with_reducible assumption | with_reducible apply pres_cond | with_reducible apply C.showLife
    | with_reducible apply C.rewriteRecords | with_reducible apply C.wr
    | with_reducible refine C.same (fun h => h) (fun h => h) (fun h => h) (fun h => h) (fun h => h) (fun h => h) (fun h => h) (fun h => h) (fun h => h) (fun h => h) (fun h => h) ?_
    | with_reducible refine C.same ?_ ?_ ?_ ?_ ?_ ?_ ?_ ?_ ?_ ?_ ?_ ?_ | exact fun h => h | intro _

theorem Stable.updBlock {P : State → Prop} (C : Stable P) {s : State} (k : Nat × Nat × Nat) (f : Block → Block) (hP : P s) :
    P (State.updBlock s k f) := by
  unfold State.updBlock
  repeat' first
    | with_reducible assumption | with_reducible apply pres_ite
    | with_reducible refine C.same (fun h => h) (fun h => h) (fun h => h) (fun h => h) (fun h => h) (fun h => h) (fun h => h) (fun h => h) (fun h => h) (fun h => h) (fun h => h) ?_
    | with_reducible refine C.same ?_ ?_ ?_ ?_ ?_ ?_ ?_ ?_ ?_ ?_ ?_ ?_ | exact fun h => h
    | (intro h; simp only [List.length_map]; exact h) | intro _

theorem Stable.showSpares {P : State → Prop} (C : Stable P) {s : State} (chan die : Nat) (hP : P s) :
    P (State.showSpares s chan die) := by
  unfold State.showSpares
  repeat' first
    | with_reducible assumption | with_reducible apply pres_cond | with_reducible apply pres_foldl
    | with_reducible apply C.detect | with_reducible apply C.wr | intro _

theorem Stable.retireBlock {P : State → Prop} (C : Stable P) {s : State} (k : Nat × Nat × Nat) (hP : P s) :
    P (State.retireBlock s k) := by
  unfold State.retireBlock
  repeat' first
    | with_reducible assumption | with_reducible apply pres_ite | with_reducible apply C.inc
    | with_reducible apply C.closeBroken | with_reducible apply C.updBlock
    | with_reducible refine C.same (fun h => h) (fun h => h) (fun h => h) (fun h => h) (fun h => h) (fun h => h) (fun h => h) (fun h => h) (fun h => h) (fun h => h) (fun h => h) ?_
    | with_reducible refine C.same ?_ ?_ ?_ ?_ ?_ ?_ ?_ ?_ ?_ ?_ ?_ ?_ | exact fun h => h | intro _

theorem Stable.replaceMember {P : State → Prop} (C : Stable P) {s : State} (id : Nat) (k : Nat × Nat × Nat) (hP : P s) :
    P (State.replaceMember s id k).1 := by
  unfold State.replaceMember
  repeat' first
    | with_reducible assumption | with_reducible apply pres_cond | with_reducible apply C.updGroup
    | with_reducible apply C.updBlock | with_reducible apply C.showSpares | with_reducible apply pres_ite_fst | split
    | with_reducible refine C.same (fun h => h) (fun h => h) (fun h => h) (fun h => h) (fun h => h) (fun h => h) (fun h => h) (fun h => h) (fun h => h) (fun h => h) (fun h => h) ?_
    | with_reducible refine C.same ?_ ?_ ?_ ?_ ?_ ?_ ?_ ?_ ?_ ?_ ?_ ?_ | exact fun h => h | intro _

theorem Stable.dropGroup {P : State → Prop} (C : Stable P) {s : State} (id : Nat) (hP : P s) :
    P (State.dropGroup s id) := by
  unfold State.dropGroup
  repeat' first
    | with_reducible assumption | with_reducible apply pres_cond | with_reducible apply pres_ite
    | with_reducible apply C.setCond | with_reducible apply C.showZ | with_reducible apply C.updGroup | split
    | with_reducible refine C.same (fun h => h) (fun h => h) (fun h => h) (fun h => h) (fun h => h) (fun h => h) (fun h => h) (fun h => h) (fun h => h) (fun h => h) (fun h => h) ?_
    | with_reducible refine C.same ?_ ?_ ?_ ?_ ?_ ?_ ?_ ?_ ?_ ?_ ?_ ?_ | exact fun h => h | intro _

theorem Stable.moveGroup {P : State → Prop} (C : Stable P) {s : State} (a b : Zone) (hP : P s) :
    ∀ t, s.moveGroup a b = some t → P t := by
  intro t ht
  unfold State.moveGroup at ht
  cases hg : s.emptyGroup a with
  | none => simp [hg] at ht
  | some g =>
    simp only [hg, Option.map_some, Option.some.injEq] at ht
    rw [← ht]
    exact C.updGroup _ _ hP

theorem Stable.resizeMove {P : State → Prop} (C : Stable P) {s : State} (hP : P s) : ∀ t, s.resizeMove = some t → P t := by
  intro t ht
  have hm : ∀ a b t, s.moveGroup a b = some t → P t := fun a b => C.moveGroup a b hP
  unfold State.resizeMove at ht
  simp only at ht
  split at ht
  · rename_i u hu
    cases ht
    repeat' split at hu
    all_goals first | exact hm _ _ _ hu | cases hu
  · repeat' split at ht
    all_goals first | exact hm _ _ _ ht | cases ht

theorem Stable.resizeMoves {P : State → Prop} (C : Stable P) {s : State} (hP : P s) : ∀ k, P (s.resizeMoves k) := by
  intro k
  induction k generalizing s with
  | zero => exact hP
  | succ k ih =>
    unfold State.resizeMoves
    split
    · rename_i t ht
      exact ih (C.resizeMove hP _ ht)
    · exact hP

theorem Stable.resizeGo {P : State → Prop} (C : Stable P) {s : State}  (hP : P s) :
    P (State.resizeGo s) := by
  unfold State.resizeGo
  repeat' first
    | with_reducible assumption | with_reducible apply pres_ite | with_reducible apply C.showZ
    | with_reducible apply C.resizeMoves | with_reducible apply C.wr

theorem Stable.takeImage {P : State → Prop} (C : Stable P) {s : State} (id : Nat) (k : Nat × Nat × Nat) (hP : P s) :
    P (s.takeImage id k).1 := by
  unfold State.takeImage
  extract_lets fit has cands
  split
  · exact hP
  · split
    · exact hP
    · exact C.showImage (pres_cond (C.updGroup _ _ (C.updGroup _ _ hP)) (fun t ht => C.detect _ _ ht))


theorem Stable.mendMember {P : State → Prop} (C : Stable P) {s : State} (id : Nat) (k : Nat × Nat × Nat) (hP : P s) :
    P (s.mendMember id k) := by
  have h1 := C.replaceMember id k hP
  unfold State.mendMember
  extract_lets r pslc r2
  have h2 : P r2.1 := pres_ite_fst h1 (C.takeImage _ _ h1)
  exact pres_ite h1 (pres_ite h2 (C.dropGroup _ h2))

theorem Stable.exchangeWorn {P : State → Prop} (C : Stable P) {s : State} (id : Nat) (k : Nat × Nat × Nat) (hP : P s) :
    P (State.exchangeWorn s id k) := by
  unfold State.exchangeWorn
  repeat' first
    | with_reducible assumption | with_reducible apply pres_ite | with_reducible apply C.updGroup | split
    | with_reducible refine C.same (fun h => h) (fun h => h) (fun h => h) (fun h => h) (fun h => h) (fun h => h) (fun h => h) (fun h => h) (fun h => h) (fun h => h) (fun h => h) ?_
    | with_reducible refine C.same ?_ ?_ ?_ ?_ ?_ ?_ ?_ ?_ ?_ ?_ ?_ ?_ | exact fun h => h
    | (intro h; exact Nat.le_trans (List.length_filter_le _ _) h) | intro _

theorem Stable.dissolve {P : State → Prop} (C : Stable P) {s : State} (id : Nat) (hP : P s) :
    P (State.dissolve s id) := by
  unfold State.dissolve
  repeat' first
    | with_reducible assumption | with_reducible apply C.updGroup | split
    | with_reducible refine C.same (fun h => h) (fun h => h) (fun h => h) (fun h => h) (fun h => h) (fun h => h) (fun h => h) (fun h => h) (fun h => h) (fun h => h) (fun h => h) ?_
    | with_reducible refine C.same ?_ ?_ ?_ ?_ ?_ ?_ ?_ ?_ ?_ ?_ ?_ ?_ | exact fun h => h | exact fun _ => rfl
    | exact fun _ => Nat.zero_le _ | (intro h; exact Nat.le_trans (List.length_filter_le _ _) h) | intro _

theorem Stable.rewidth {P : State → Prop} (C : Stable P) {s : State} (id : Nat) (hP : P s) :
    P (State.rewidth s id) := by
  unfold State.rewidth
  repeat' first
    | with_reducible assumption | with_reducible apply pres_cond | with_reducible apply C.updGroup
    | with_reducible apply C.dissolve | split
    | with_reducible refine C.same (fun h => h) (fun h => h) (fun h => h) (fun h => h) (fun h => h) (fun h => h) (fun h => h) (fun h => h) (fun h => h) (fun h => h) (fun h => h) ?_
    | with_reducible refine C.same ?_ ?_ ?_ ?_ ?_ ?_ ?_ ?_ ?_ ?_ ?_ ?_ | exact fun h => h | intro _

theorem Stable.eraseFail {P : State → Prop} (C : Stable P) {s : State} (k : Nat × Nat × Nat) (hP : P s) :
    P (State.eraseFail s k) := by
  unfold State.eraseFail
  repeat' first
    | with_reducible assumption | with_reducible apply C.inc | with_reducible apply C.detect
    | with_reducible apply C.retireBlock | with_reducible apply C.wr

theorem Stable.mendGroup {P : State → Prop} (C : Stable P) {s : State} (id : Nat) (failed : List (Nat × Nat × Nat))
    (hP : P s) : ∀ n, P (s.mendGroup id failed n) := by
  intro n
  induction n generalizing s with
  | zero => exact hP
  | succ n ih =>
    unfold State.mendGroup
    split
    · exact hP
    · rename_i g _
      have h1 : P ((g.members.filter (fun k => failed.contains k && !s.isBad k)).foldl State.eraseFail s) :=
        pres_foldl hP (fun t k ht => C.eraseFail _ ht)
      exact pres_ite h1 (ih (pres_foldl h1 (fun t k ht => C.mendMember _ _ ht)))


theorem Stable.eraseNow {P : State → Prop} (C : Stable P) {s : State} (id : Nat) (failed : List (Nat × Nat × Nat)) (hP : P s) :
    P (State.eraseNow s id failed) := by
  unfold State.eraseNow
  repeat' first
    | with_reducible assumption | with_reducible apply pres_cond | with_reducible apply pres_ite
    | with_reducible apply pres_foldl | with_reducible apply C.showZ | with_reducible apply C.eraseGroup
    | with_reducible apply C.showImage | with_reducible apply C.resizeGo | with_reducible apply C.exchangeWorn
    | with_reducible apply C.rewidth | with_reducible apply C.mendGroup | split
    | with_reducible refine C.same (fun h => h) (fun h => h) (fun h => h) (fun h => h) (fun h => h) (fun h => h) (fun h => h) (fun h => h) (fun h => h) (fun h => h) (fun h => h) ?_
    | with_reducible refine C.same ?_ ?_ ?_ ?_ ?_ ?_ ?_ ?_ ?_ ?_ ?_ ?_ | exact fun h => h | intro _

theorem Stable.reform {P : State → Prop} (C : Stable P) {s : State}  (hP : P s) :
    P (State.reform s) := by
  unfold State.reform
  repeat' first
    | with_reducible assumption | with_reducible apply pres_foldl | with_reducible apply C.showZ
    | with_reducible apply C.mendGroup | intro _

theorem Stable.eraseDone {P : State → Prop} (C : Stable P) {s : State} (id : Nat) (failed : List (Nat × Nat × Nat)) (hP : P s) :
    P (State.eraseDone s id failed) := by
  unfold State.eraseDone
  repeat' first
    | with_reducible assumption | with_reducible apply pres_cond | with_reducible apply pres_ite
    | with_reducible apply C.eraseNow
    | with_reducible refine C.same (fun h => h) (fun h => h) (fun h => h) (fun h => h) (fun h => h) (fun h => h) (fun h => h) (fun h => h) (fun h => h) (fun h => h) (fun h => h) ?_
    | with_reducible refine C.same ?_ ?_ ?_ ?_ ?_ ?_ ?_ ?_ ?_ ?_ ?_ ?_ | exact fun h => h | intro _

theorem Stable.lateErases {P : State → Prop} (C : Stable P) {s : State}  (hP : P s) :
    P (State.lateErases s) := by
  unfold State.lateErases
  repeat' first
    | with_reducible assumption | with_reducible apply pres_foldl | with_reducible apply C.eraseNow
    | with_reducible refine C.same (fun h => h) (fun h => h) (fun h => h) (fun h => h) (fun h => h) (fun h => h) (fun h => h) (fun h => h) (fun h => h) (fun h => h) (fun h => h) ?_
    | with_reducible refine C.same ?_ ?_ ?_ ?_ ?_ ?_ ?_ ?_ ?_ ?_ ?_ ?_ | exact fun h => h | exact fun _ => rfl
    | exact fun _ => Nat.zero_le _ | intro _

theorem Stable.spareFirst {P : State → Prop} (C : Stable P) {s : State}  (hP : P s) :
    P (State.spareFirst s) := by
  unfold State.spareFirst
  repeat' first
    | with_reducible assumption | with_reducible apply C.showZ | with_reducible apply C.updGroup | split
    | with_reducible refine C.same (fun h => h) (fun h => h) (fun h => h) (fun h => h) (fun h => h) (fun h => h) (fun h => h) (fun h => h) (fun h => h) (fun h => h) (fun h => h) ?_
    | with_reducible refine C.same ?_ ?_ ?_ ?_ ?_ ?_ ?_ ?_ ?_ ?_ ?_ ?_ | exact fun h => h | intro _

theorem Stable.programFail {P : State → Prop} (C : Stable P) {s : State} (chan die blk page : Nat) (granules : List Nat) (hP : P s) :
    P (s.programFail chan die blk page granules) := by
  unfold State.programFail
  extract_lets s1 s2 s3 s4
  have h1 : P s1 := C.wr _ (C.inc _ hP)
  have h2 : P s2 := C.retireBlock _ (C.detect _ _ (C.wr _ (C.wr _ h1)))
  have h3 : P s3 := by
    refine pres_cond (C.showSpares _ _ (C.reform h2)) (fun t ht => C.spareFirst ?_)
    exact C.same (fun h => h) (fun h => h) (fun h => h) (fun h => h) (fun h => h) (fun h => h) (fun h => h) (fun h => h) (fun h => h) (fun h => h) (fun h => h) ht
  have h4 : P s4 := pres_foldl h3 (fun t g ht => pres_ite (C.freeCopy _ ht) ht)
  exact pres_cond h4 (fun t ht => pres_foldl ht (fun u g hu => C.kilnLose _ hu))


theorem Stable.retireDie {P : State → Prop} (C : Stable P) {s : State} (chan die : Nat) (hP : P s) :
    P (State.retireDie s chan die) := by
  unfold State.retireDie
  repeat' first
    | with_reducible assumption | with_reducible apply pres_ite | with_reducible apply C.inc
    | with_reducible apply C.setBit | with_reducible apply C.detect | with_reducible apply C.closeBroken
    | with_reducible apply C.project | with_reducible apply C.reform | with_reducible apply C.wr
    | with_reducible refine C.same (fun h => h) (fun h => h) (fun h => h) (fun h => h) (fun h => h) (fun h => h) (fun h => h) (fun h => h) (fun h => h) (fun h => h) (fun h => h) ?_
    | with_reducible refine C.same ?_ ?_ ?_ ?_ ?_ ?_ ?_ ?_ ?_ ?_ ?_ ?_ | exact fun h => h

theorem Stable.relocCheck {P : State → Prop} (C : Stable P) {s : State} (chan : Nat) (hP : P s) :
    P (State.relocCheck s chan) := by
  unfold State.relocCheck
  repeat' first
    | with_reducible assumption | with_reducible apply pres_cond | with_reducible apply C.setCond | intro _

theorem Stable.killChannel {P : State → Prop} (C : Stable P) {s : State} (chan : Nat) (hP : P s) :
    P (State.killChannel s chan) := by
  unfold State.killChannel
  repeat' first
    | with_reducible assumption | with_reducible apply pres_ite | with_reducible apply C.setCond
    | with_reducible apply C.closeBroken | with_reducible apply C.moveWraps | with_reducible apply C.project
    | with_reducible apply C.reform | with_reducible apply C.relocCheck | with_reducible apply C.wr
    | with_reducible refine C.same (fun h => h) (fun h => h) (fun h => h) (fun h => h) (fun h => h) (fun h => h) (fun h => h) (fun h => h) (fun h => h) (fun h => h) (fun h => h) ?_
    | with_reducible refine C.same ?_ ?_ ?_ ?_ ?_ ?_ ?_ ?_ ?_ ?_ ?_ ?_ | exact fun h => h

theorem Stable.relocate {P : State → Prop} (C : Stable P) {s : State} (k : Nat × Nat × Nat) (hP : P s) :
    P (State.relocate s k) := by
  unfold State.relocate
  repeat' first
    | with_reducible assumption | with_reducible apply pres_ite
    | with_reducible refine C.same (fun h => h) (fun h => h) (fun h => h) (fun h => h) (fun h => h) (fun h => h) (fun h => h) (fun h => h) (fun h => h) (fun h => h) (fun h => h) ?_
    | with_reducible refine C.same ?_ ?_ ?_ ?_ ?_ ?_ ?_ ?_ ?_ ?_ ?_ ?_ | exact fun h => h

theorem Stable.disturb {P : State → Prop} (C : Stable P) {s : State} (k : Nat × Nat × Nat) (hP : P s) :
    P (State.disturb s k) := by
  unfold State.disturb
  repeat' first
    | with_reducible assumption | with_reducible apply pres_cond | with_reducible apply pres_ite | split
    | with_reducible refine C.same (fun h => h) (fun h => h) (fun h => h) (fun h => h) (fun h => h) (fun h => h) (fun h => h) (fun h => h) (fun h => h) (fun h => h) (fun h => h) ?_
    | with_reducible refine C.same ?_ ?_ ?_ ?_ ?_ ?_ ?_ ?_ ?_ ?_ ?_ ?_ | exact fun h => h | intro _

theorem Stable.rebuildReads {P : State → Prop} (C : Stable P) {s : State} (a : Nat) (hP : P s) :
    P (State.rebuildReads s a) := by
  unfold State.rebuildReads
  repeat' first
    | with_reducible assumption | with_reducible apply pres_foldl | with_reducible apply C.updBlock
    | with_reducible apply C.disturb | split
    | with_reducible refine C.same (fun h => h) (fun h => h) (fun h => h) (fun h => h) (fun h => h) (fun h => h) (fun h => h) (fun h => h) (fun h => h) (fun h => h) (fun h => h) ?_
    | with_reducible refine C.same ?_ ?_ ?_ ?_ ?_ ?_ ?_ ?_ ?_ ?_ ?_ ?_ | exact fun h => h
    | (intro h; exact Nat.le_trans (List.length_filter_le _ _) h) | intro _

theorem Stable.ladder {P : State → Prop} (C : Stable P) {s : State} (a step : Nat) (hP : P s) :
    P (State.ladder s a step) := by
  unfold State.ladder
  repeat' first
    | with_reducible assumption | with_reducible apply pres_cond | with_reducible apply pres_ite
    | with_reducible apply C.inc | with_reducible apply C.detect | with_reducible apply C.updBlock
    | with_reducible apply C.showSpares | with_reducible apply C.retireBlock | with_reducible apply C.reform
    | with_reducible apply C.relocate | with_reducible apply C.disturb | with_reducible apply C.rebuildReads
    | with_reducible apply C.wr
    | with_reducible refine C.same (fun h => h) (fun h => h) (fun h => h) (fun h => h) (fun h => h) (fun h => h) (fun h => h) (fun h => h) (fun h => h) (fun h => h) (fun h => h) ?_
    | with_reducible refine C.same ?_ ?_ ?_ ?_ ?_ ?_ ?_ ?_ ?_ ?_ ?_ ?_ | exact fun h => h | intro _

theorem Stable.loseGranule {P : State → Prop} (C : Stable P) {s : State} (g : Nat) (hP : P s) :
    P (State.loseGranule s g) := by
  unfold State.loseGranule
  repeat' first
    | with_reducible assumption | with_reducible apply C.detect | with_reducible apply C.setEntry
    | with_reducible apply C.listPoison | with_reducible apply C.mediaEvent

theorem Stable.unreadable {P : State → Prop} (C : Stable P) {s : State} (g : Nat) (hP : P s) :
    P (State.unreadable s g) := by
  unfold State.unreadable
  repeat' first
    | with_reducible assumption | with_reducible apply pres_ite | with_reducible apply C.markDirty
    | with_reducible apply C.setEntry | with_reducible apply C.loseGranule

theorem Stable.pageLost {P : State → Prop} (C : Stable P) {s : State} (r : Nat) (hP : P s) :
    P (State.pageLost s r) := by
  unfold State.pageLost
  repeat' first
    | with_reducible assumption | with_reducible apply pres_foldl | with_reducible apply C.unreadable
    | with_reducible refine C.same (fun h => h) (fun h => h) (fun h => h) (fun h => h) (fun h => h) (fun h => h) (fun h => h) (fun h => h) (fun h => h) (fun h => h) (fun h => h) ?_
    | with_reducible refine C.same ?_ ?_ ?_ ?_ ?_ ?_ ?_ ?_ ?_ ?_ ?_ ?_ | exact fun h => h | intro _

theorem Stable.guestLost {P : State → Prop} (C : Stable P) {s : State} (slot g : Nat) (hP : P s) :
    P (State.guestLost s slot g) := by
  unfold State.guestLost
  repeat' first
    | with_reducible assumption | with_reducible apply pres_ite | with_reducible apply C.detect
    | with_reducible apply C.sendLost | with_reducible apply C.wr
    | with_reducible refine C.same (fun h => h) (fun h => h) (fun h => h) (fun h => h) (fun h => h) (fun h => h) (fun h => h) (fun h => h) (fun h => h) (fun h => h) (fun h => h) ?_
    | with_reducible refine C.same ?_ ?_ ?_ ?_ ?_ ?_ ?_ ?_ ?_ ?_ ?_ ?_ | exact fun h => h
    | (intro h; simp only [List.length_map]; exact h) | intro _

theorem Stable.readDone {P : State → Prop} (C : Stable P) {s : State} (a step errs : Nat) (what : ReadFor) (hP : P s) :
    P (State.readDone s a step errs what) := by
  unfold State.readDone
  repeat' first
    | with_reducible assumption | with_reducible apply pres_cond | with_reducible apply pres_ite
    | with_reducible apply C.bump | with_reducible apply C.detect | with_reducible apply C.relocate
    | with_reducible apply C.ladder | with_reducible apply C.unreadable | with_reducible apply C.pageLost
    | with_reducible apply C.guestLost | split
    | with_reducible refine C.same (fun h => h) (fun h => h) (fun h => h) (fun h => h) (fun h => h) (fun h => h) (fun h => h) (fun h => h) (fun h => h) (fun h => h) (fun h => h) ?_
    | with_reducible refine C.same ?_ ?_ ?_ ?_ ?_ ?_ ?_ ?_ ?_ ?_ ?_ ?_ | exact fun h => h
    | (intro h; simp only [List.length_map]; exact h) | intro _

theorem Stable.chainCheck {P : State → Prop} (C : Stable P) {s : State}  (hP : P s) :
    P (State.chainCheck s) := by
  unfold State.chainCheck
  repeat' first
    | with_reducible assumption | with_reducible apply C.showChain
    | with_reducible refine C.same (fun h => h) (fun h => h) (fun h => h) (fun h => h) (fun h => h) (fun h => h) (fun h => h) (fun h => h) (fun h => h) (fun h => h) (fun h => h) ?_
    | with_reducible refine C.same ?_ ?_ ?_ ?_ ?_ ?_ ?_ ?_ ?_ ?_ ?_ ?_ | exact fun h => h
    | (intro h; exact Nat.le_trans (List.length_filter_le _ _) h) | intro _

theorem Stable.flushPage {P : State → Prop} (C : Stable P) {s : State} (r a : Nat) (hP : P s) :
    P (State.flushPage s r a) := by
  unfold State.flushPage
  repeat' first
    | with_reducible assumption | with_reducible apply pres_cond | with_reducible apply pres_ite
    | with_reducible apply pres_foldl | with_reducible apply C.bump | with_reducible apply C.showMap
    | with_reducible apply C.putCodeword | with_reducible apply C.showZ | with_reducible apply C.noteProgram
    | with_reducible apply C.countUsed | with_reducible apply C.showImage | with_reducible apply C.dirCheckpoint
    | with_reducible apply C.fenceFlushed | with_reducible apply C.chainCheck
    | with_reducible refine C.same (fun h => h) (fun h => h) (fun h => h) (fun h => h) (fun h => h) (fun h => h) (fun h => h) (fun h => h) (fun h => h) (fun h => h) (fun h => h) ?_
    | with_reducible refine C.same ?_ ?_ ?_ ?_ ?_ ?_ ?_ ?_ ?_ ?_ ?_ ?_ | exact fun h => h | exact NMap.wf_keep _
    | exact NMap.wf_set _ _ | exact fun _ => rfl | exact fun _ => Nat.zero_le _
    | (intro h; simp only [List.length_map]; exact h) | intro _

theorem Stable.mapScrub {P : State → Prop} (C : Stable P) {s : State} (bad : List Nat) (hP : P s) :
    P (State.mapScrub s bad) := by
  unfold State.mapScrub
  repeat' first
    | with_reducible assumption | with_reducible apply pres_cond | with_reducible apply pres_ite
    | with_reducible apply pres_foldl | with_reducible apply C.inc | with_reducible apply C.addSat
    | with_reducible apply C.setCond | with_reducible apply C.unreadable | intro _

theorem Stable.moveCopy {P : State → Prop} (C : Stable P) {s : State} (g a step : Nat) (hP : P s) :
    P (State.moveCopy s g a step) := by
  unfold State.moveCopy
  repeat' first
    | with_reducible assumption | with_reducible apply pres_ite | with_reducible apply C.setCond
    | with_reducible apply C.setEntry | with_reducible apply C.putCodeword | with_reducible apply C.noteProgram
    | with_reducible apply C.countUsed | with_reducible apply C.showImage | with_reducible apply C.relocCheck
    | with_reducible apply C.ladder | with_reducible apply C.unreadable | split
    | with_reducible refine C.same (fun h => h) (fun h => h) (fun h => h) (fun h => h) (fun h => h) (fun h => h) (fun h => h) (fun h => h) (fun h => h) (fun h => h) (fun h => h) ?_
    | with_reducible refine C.same ?_ ?_ ?_ ?_ ?_ ?_ ?_ ?_ ?_ ?_ ?_ ?_ | exact fun h => h | intro _

theorem Stable.movePage {P : State → Prop} (C : Stable P) {s : State} (r a step : Nat) (hP : P s) :
    P (State.movePage s r a step) := by
  unfold State.movePage
  repeat' first
    | with_reducible assumption | with_reducible apply pres_cond | with_reducible apply pres_ite
    | with_reducible apply C.putCodeword | with_reducible apply C.noteProgram | with_reducible apply C.countUsed
    | with_reducible apply C.showImage | with_reducible apply C.dirCheckpoint | with_reducible apply C.ladder
    | with_reducible apply C.pageLost
    | with_reducible refine C.same (fun h => h) (fun h => h) (fun h => h) (fun h => h) (fun h => h) (fun h => h) (fun h => h) (fun h => h) (fun h => h) (fun h => h) (fun h => h) ?_
    | with_reducible refine C.same ?_ ?_ ?_ ?_ ?_ ?_ ?_ ?_ ?_ ?_ ?_ ?_ | exact fun h => h | exact NMap.wf_set _ _
    | exact fun _ => rfl | exact fun _ => Nat.zero_le _ | intro _

theorem Stable.moveGuest {P : State → Prop} (C : Stable P) {s : State} (slot g step : Nat) (hP : P s) :
    P (State.moveGuest s slot g step) := by
  unfold State.moveGuest
  repeat' first
    | with_reducible assumption | with_reducible apply pres_ite | with_reducible apply C.countUsed
    | with_reducible apply C.guestLost
    | with_reducible refine C.same (fun h => h) (fun h => h) (fun h => h) (fun h => h) (fun h => h) (fun h => h) (fun h => h) (fun h => h) (fun h => h) (fun h => h) (fun h => h) ?_
    | with_reducible refine C.same ?_ ?_ ?_ ?_ ?_ ?_ ?_ ?_ ?_ ?_ ?_ ?_ | exact fun h => h
    | (intro h; simp only [List.length_map]; exact h) | intro _

theorem Stable.gcMove {P : State → Prop} (C : Stable P) {s : State} (what : ReadFor) (a step : Nat) (hP : P s) :
    P (State.gcMove s what a step) := by
  unfold State.gcMove
  repeat' first
    | with_reducible assumption | with_reducible apply pres_cond | with_reducible apply pres_ite
    | with_reducible apply C.moveCopy | with_reducible apply C.movePage | with_reducible apply C.moveGuest | split
    | with_reducible refine C.same (fun h => h) (fun h => h) (fun h => h) (fun h => h) (fun h => h) (fun h => h) (fun h => h) (fun h => h) (fun h => h) (fun h => h) (fun h => h) ?_
    | with_reducible refine C.same ?_ ?_ ?_ ?_ ?_ ?_ ?_ ?_ ?_ ?_ ?_ ?_ | exact fun h => h
    | (intro h; simp only [List.length_map]; exact h) | intro _

theorem Stable.foldMove {P : State → Prop} (C : Stable P) {s : State} (g a step : Nat) (hP : P s) :
    P (State.foldMove s g a step) := by
  unfold State.foldMove
  repeat' first
    | with_reducible assumption | with_reducible apply pres_ite | with_reducible apply C.showChain
    | with_reducible apply C.moveCopy

theorem Stable.wearLevel {P : State → Prop} (C : Stable P) {s : State} (addrs : List Nat) (hP : P s) :
    P (State.wearLevel s addrs) := by
  unfold State.wearLevel
  repeat' first
    | with_reducible assumption | with_reducible apply pres_cond | with_reducible apply pres_ite
    | with_reducible apply pres_foldl | with_reducible apply C.showLife | with_reducible apply C.moveCopy
    | with_reducible apply C.movePage | split
    | with_reducible refine C.same (fun h => h) (fun h => h) (fun h => h) (fun h => h) (fun h => h) (fun h => h) (fun h => h) (fun h => h) (fun h => h) (fun h => h) (fun h => h) ?_
    | with_reducible refine C.same ?_ ?_ ?_ ?_ ?_ ?_ ?_ ?_ ?_ ?_ ?_ ?_ | exact fun h => h | intro _

theorem Stable.flashPatrol {P : State → Prop} (C : Stable P) {s : State} (pct : Nat) (found : List (Nat × Nat × Nat × ReadFor)) (hP : P s) :
    P (State.flashPatrol s pct found) := by
  unfold State.flashPatrol
  repeat' first
    | with_reducible assumption | with_reducible apply pres_ite | with_reducible apply pres_foldl
    | with_reducible apply C.inc | with_reducible apply C.readDone | with_reducible apply C.wr
    | with_reducible refine C.same (fun h => h) (fun h => h) (fun h => h) (fun h => h) (fun h => h) (fun h => h) (fun h => h) (fun h => h) (fun h => h) (fun h => h) (fun h => h) ?_
    | with_reducible refine C.same ?_ ?_ ?_ ?_ ?_ ?_ ?_ ?_ ?_ ?_ ?_ ?_ | exact fun h => h | exact fun _ => rfl
    | exact fun _ => Nat.zero_le _ | intro _

end Sys2Proof.Machine
end

