-- ==== Sys2Proof/Laws/Stable/Kiln.lean ====
section
/-!
SUPPORT. Laws/Stable/Kiln.lean: what the operations of Machine/Kiln.lean keep (Laws/Stable.lean).
-/

namespace Sys2Proof.Machine

set_option Elab.async false
set_option linter.unusedTactic false
set_option linter.unreachableTactic false

theorem Stable.mainFail {P : State → Prop} (C : Stable P) {s : State}  (hP : P s) :
    P (State.mainFail s) := by
  unfold State.mainFail
  repeat' first
    | with_reducible assumption | with_reducible apply pres_cond | with_reducible apply pres_ite
    | with_reducible apply C.restExit | with_reducible apply C.k2Check | with_reducible apply C.pathOn
    | with_reducible apply C.fireTrigger | with_reducible apply C.goDown | with_reducible apply C.wr
    | with_reducible refine C.same (fun h => h) (fun h => h) (fun h => h) (fun h => h) (fun h => h) (fun h => h) (fun h => h) (fun h => h) (fun h => h) (fun h => h) (fun h => h) ?_
    | with_reducible refine C.same ?_ ?_ ?_ ?_ ?_ ?_ ?_ ?_ ?_ ?_ ?_ ?_ | exact fun h => h | intro _

theorem Stable.mainWarn {P : State → Prop} (C : Stable P) {s : State}  (hP : P s) :
    P (State.mainWarn s) := by
  unfold State.mainWarn
  repeat' first
    | with_reducible assumption | with_reducible apply pres_cond | with_reducible apply C.restExit
    | with_reducible apply C.k2Check | with_reducible apply C.prime | with_reducible apply C.wr
    | with_reducible refine C.same (fun h => h) (fun h => h) (fun h => h) (fun h => h) (fun h => h) (fun h => h) (fun h => h) (fun h => h) (fun h => h) (fun h => h) (fun h => h) ?_
    | with_reducible refine C.same ?_ ?_ ?_ ?_ ?_ ?_ ?_ ?_ ?_ ?_ ?_ ?_ | exact fun h => h | intro _

theorem Stable.primedClear {P : State → Prop} (C : Stable P) {s : State}  (hP : P s) :
    P (State.primedClear s) := by
  unfold State.primedClear
  repeat' first
    | with_reducible assumption | with_reducible apply pres_ite | with_reducible apply C.unprime

theorem Stable.escalate {P : State → Prop} (C : Stable P) {s : State}  (hP : P s) :
    P (State.escalate s) := by
  unfold State.escalate
  repeat' first
    | with_reducible assumption | with_reducible apply pres_ite | with_reducible apply C.restExit
    | with_reducible apply C.fireTrigger

theorem Stable.powerReturn {P : State → Prop} (C : Stable P) {s : State}  (hP : P s) :
    P (State.powerReturn s) := by
  unfold State.powerReturn
  repeat' first
    | with_reducible assumption | with_reducible apply pres_cond | with_reducible apply C.startDebounce
    | with_reducible refine C.same (fun h => h) (fun h => h) (fun h => h) (fun h => h) (fun h => h) (fun h => h) (fun h => h) (fun h => h) (fun h => h) (fun h => h) (fun h => h) ?_
    | with_reducible refine C.same ?_ ?_ ?_ ?_ ?_ ?_ ?_ ?_ ?_ ?_ ?_ ?_ | exact fun h => h | intro _

theorem Stable.pathsCarry {P : State → Prop} (C : Stable P) {s : State}  (hP : P s) :
    P (State.pathsCarry s) := by
  unfold State.pathsCarry
  repeat' first
    | with_reducible assumption | with_reducible apply pres_cond | with_reducible apply pres_each
    | with_reducible apply C.setPack | with_reducible apply C.pathOn
    | with_reducible refine C.same (fun h => h) (fun h => h) (fun h => h) (fun h => h) (fun h => h) (fun h => h) (fun h => h) (fun h => h) (fun h => h) (fun h => h) (fun h => h) ?_
    | with_reducible refine C.same ?_ ?_ ?_ ?_ ?_ ?_ ?_ ?_ ?_ ?_ ?_ ?_ | exact fun h => h | intro _

theorem Stable.pathConfirmed {P : State → Prop} (C : Stable P) {s : State}  (hP : P s) :
    P (State.pathConfirmed s) := by
  unfold State.pathConfirmed
  repeat' first
    | with_reducible assumption | with_reducible apply pres_ite | with_reducible apply C.openK2
    | with_reducible apply C.pathsCarry
    | with_reducible refine C.same (fun h => h) (fun h => h) (fun h => h) (fun h => h) (fun h => h) (fun h => h) (fun h => h) (fun h => h) (fun h => h) (fun h => h) (fun h => h) ?_
    | with_reducible refine C.same ?_ ?_ ?_ ?_ ?_ ?_ ?_ ?_ ?_ ?_ ?_ ?_ | exact fun h => h

theorem Stable.pathLate {P : State → Prop} (C : Stable P) {s : State}  (hP : P s) :
    P (State.pathLate s) := by
  unfold State.pathLate
  repeat' first
    | with_reducible assumption | with_reducible apply pres_ite | with_reducible apply C.detect
    | with_reducible apply C.openK2
    | with_reducible refine C.same (fun h => h) (fun h => h) (fun h => h) (fun h => h) (fun h => h) (fun h => h) (fun h => h) (fun h => h) (fun h => h) (fun h => h) (fun h => h) ?_
    | with_reducible refine C.same ?_ ?_ ?_ ?_ ?_ ?_ ?_ ?_ ?_ ?_ ?_ ?_ | exact fun h => h

theorem Stable.debounced {P : State → Prop} (C : Stable P) {s : State}  (hP : P s) :
    P (State.debounced s) := by
  unfold State.debounced
  repeat' first
    | with_reducible assumption | with_reducible apply pres_ite | with_reducible apply C.cancelKiln
    | with_reducible apply C.authDue
    | with_reducible refine C.same (fun h => h) (fun h => h) (fun h => h) (fun h => h) (fun h => h) (fun h => h) (fun h => h) (fun h => h) (fun h => h) (fun h => h) (fun h => h) ?_
    | with_reducible refine C.same ?_ ?_ ?_ ?_ ?_ ?_ ?_ ?_ ?_ ?_ ?_ ?_ | exact fun h => h

theorem Stable.phaseLate {P : State → Prop} (C : Stable P) {s : State}  (hP : P s) :
    P (State.phaseLate s) := by
  unfold State.phaseLate
  repeat' first
    | with_reducible assumption | with_reducible apply pres_ite | with_reducible apply C.detect
    | with_reducible refine C.same (fun h => h) (fun h => h) (fun h => h) (fun h => h) (fun h => h) (fun h => h) (fun h => h) (fun h => h) (fun h => h) (fun h => h) (fun h => h) ?_
    | with_reducible refine C.same ?_ ?_ ?_ ?_ ?_ ?_ ?_ ?_ ?_ ?_ ?_ ?_ | exact fun h => h

theorem Stable.drainErrors {P : State → Prop} (C : Stable P) {s : State} (g : Nat) (ue : List (Nat × Ecc)) (hP : P s) :
    P (State.drainErrors s g ue) := by
  unfold State.drainErrors
  repeat' first
    | with_reducible assumption | with_reducible apply pres_foldl | with_reducible apply C.detect
    | with_reducible apply C.corrected | with_reducible apply C.recordUe | split
    | with_reducible refine C.same (fun h => h) (fun h => h) (fun h => h) (fun h => h) (fun h => h) (fun h => h) (fun h => h) (fun h => h) (fun h => h) (fun h => h) (fun h => h) ?_
    | with_reducible refine C.same ?_ ?_ ?_ ?_ ?_ ?_ ?_ ?_ ?_ ?_ ?_ ?_ | exact fun h => h
    | (intro h; exact Nat.le_trans (List.length_filter_le _ _) h) | intro _

theorem Stable.putKiln {P : State → Prop} (C : Stable P) {s : State} (a index typ : Nat) (poison : LineMask) (data : Memory) (hP : P s) :
    P (State.putKiln s a index typ poison data) := by
  unfold State.putKiln
  repeat' first
    | with_reducible assumption | with_reducible apply pres_ite | with_reducible apply C.bump
    | with_reducible apply C.putCodeword | with_reducible apply C.updGroup | with_reducible apply C.noteProgram
    | with_reducible refine C.same (fun h => h) (fun h => h) (fun h => h) (fun h => h) (fun h => h) (fun h => h) (fun h => h) (fun h => h) (fun h => h) (fun h => h) (fun h => h) ?_
    | with_reducible refine C.same ?_ ?_ ?_ ?_ ?_ ?_ ?_ ?_ ?_ ?_ ?_ ?_ | exact fun h => h | intro _

theorem Stable.logWord {P : State → Prop} (C : Stable P) {s : State} (a : Nat) (hP : P s) :
    P (State.logWord s a) := by
  unfold State.logWord
  repeat' first
    | with_reducible assumption | with_reducible apply pres_ite | with_reducible apply C.putKiln
    | with_reducible refine C.same (fun h => h) (fun h => h) (fun h => h) (fun h => h) (fun h => h) (fun h => h) (fun h => h) (fun h => h) (fun h => h) (fun h => h) (fun h => h) ?_
    | with_reducible refine C.same ?_ ?_ ?_ ?_ ?_ ?_ ?_ ?_ ?_ ?_ ?_ ?_ | exact fun h => h | exact fun _ => rfl
    | exact fun _ => Nat.zero_le _

theorem Stable.padKiln {P : State → Prop} (C : Stable P) {s : State} (a : Nat) (hP : P s) :
    P (State.padKiln s a) := by
  unfold State.padKiln
  repeat' first
    | with_reducible assumption | with_reducible apply pres_cond | with_reducible apply pres_foldl
    | with_reducible apply C.putKiln | split
    | with_reducible refine C.same (fun h => h) (fun h => h) (fun h => h) (fun h => h) (fun h => h) (fun h => h) (fun h => h) (fun h => h) (fun h => h) (fun h => h) (fun h => h) ?_
    | with_reducible refine C.same ?_ ?_ ?_ ?_ ?_ ?_ ?_ ?_ ?_ ?_ ?_ ?_ | exact fun h => h | exact fun _ => rfl
    | exact fun _ => Nat.zero_le _ | (intro h; simp only [List.length_map]; exact h) | intro _

theorem Stable.saveGranule {P : State → Prop} (C : Stable P) {s : State} (g a : Nat) (img : Memory × LineMask) (hP : P s) :
    P (State.saveGranule s g a img) := by
  unfold State.saveGranule
  repeat' first
    | with_reducible assumption | with_reducible apply C.markClean | with_reducible apply C.putKiln
    | with_reducible apply C.wr
    | with_reducible refine C.same (fun h => h) (fun h => h) (fun h => h) (fun h => h) (fun h => h) (fun h => h) (fun h => h) (fun h => h) (fun h => h) (fun h => h) (fun h => h) ?_
    | with_reducible refine C.same ?_ ?_ ?_ ?_ ?_ ?_ ?_ ?_ ?_ ?_ ?_ ?_ | exact fun h => h

theorem Stable.drainSlot {P : State → Prop} (C : Stable P) {s : State} (d : DrainSlot) (ue : List (Nat × Ecc))
    (unread : List Nat) (hP : P s) : ∀ k, P (s.drainSlot d ue unread k) := by
  intro k
  induction k generalizing s with
  | zero => exact hP
  | succ k ih =>
    unfold State.drainSlot
    split
    · exact hP
    · split
      · exact ih (C.kilnLose _ (C.drainErrors _ _ hP))
      · split
        · exact hP
        · exact C.saveGranule _ _ _ (C.drainErrors _ _ hP)

theorem Stable.stripeDone {P : State → Prop} (C : Stable P) {s : State} (slots : List DrainSlot) (ue : List (Nat × Ecc)) (unread : List Nat) (hP : P s) :
    P (State.stripeDone s slots ue unread) := by
  unfold State.stripeDone
  repeat' first
    | with_reducible assumption | with_reducible apply pres_cond | with_reducible apply pres_ite
    | with_reducible apply pres_foldl | with_reducible apply C.showZ | with_reducible apply C.countUsed
    | with_reducible apply C.countDone | with_reducible apply C.shedRanks | with_reducible apply C.settleShed
    | with_reducible apply C.sampleDrain | with_reducible apply C.project | with_reducible apply C.logWord
    | with_reducible apply C.padKiln | with_reducible apply C.drainSlot
    | with_reducible refine C.same (fun h => h) (fun h => h) (fun h => h) (fun h => h) (fun h => h) (fun h => h) (fun h => h) (fun h => h) (fun h => h) (fun h => h) (fun h => h) ?_
    | with_reducible refine C.same ?_ ?_ ?_ ?_ ?_ ?_ ?_ ?_ ?_ ?_ ?_ ?_ | exact fun h => h
    | (intro h; simp only [List.length_map]; exact h) | intro _

theorem Stable.keepErrors {P : State → Prop} (C : Stable P) {s : State} (k : KeepFound) (hP : P s) : P (s.keepErrors k) := by
  unfold State.keepErrors
  dsimp only
  refine pres_foldl (pres_foldl (pres_cond ?_ (fun t ht => C.detect _ _ ht)) (fun t e ht => pres_foldl ht (fun u i hu => C.setDebt _ _ hu))) (fun t r ht => ?_)
  · exact C.same (fun h => h) (fun h => h) (fun h => h) (fun h => h) (fun h => h) (fun h => h) (fun h => h) (fun h => h) (fun h => h) (fun h => h) (fun h => h) hP
  · exact C.same (fun h => h) (fun h => h) (fun h => h) (fun h => h) (fun h => h) (fun h => h) (fun h => h) (fun h => h) (fun h => h) (fun h => h) (fun h => h) ht

theorem Stable.castLast {P : State → Prop} (C : Stable P) {s : State}  (hP : P s) :
    P (State.castLast s) := by
  unfold State.castLast
  repeat' first
    | with_reducible assumption | with_reducible apply pres_ite
    | with_reducible refine C.same (fun h => h) (fun h => h) (fun h => h) (fun h => h) (fun h => h) (fun h => h) (fun h => h) (fun h => h) (fun h => h) (fun h => h) (fun h => h) ?_
    | with_reducible refine C.same ?_ ?_ ?_ ?_ ?_ ?_ ?_ ?_ ?_ ?_ ?_ ?_ | exact fun h => h
    | (intro h; simp only [List.length_map]; exact h) | intro _

theorem Stable.pathsStandby {P : State → Prop} (C : Stable P) {s : State}  (hP : P s) :
    P (State.pathsStandby s) := by
  unfold State.pathsStandby
  repeat' first
    | with_reducible assumption | with_reducible apply C.setPack | with_reducible apply C.pathOn
    | with_reducible refine C.same (fun h => h) (fun h => h) (fun h => h) (fun h => h) (fun h => h) (fun h => h) (fun h => h) (fun h => h) (fun h => h) (fun h => h) (fun h => h) ?_
    | with_reducible refine C.same ?_ ?_ ?_ ?_ ?_ ?_ ?_ ?_ ?_ ?_ ?_ ?_ | exact fun h => h

theorem Stable.kilnOver {P : State → Prop} (C : Stable P) {s : State}  (hP : P s) :
    P (State.kilnOver s) := by
  unfold State.kilnOver
  repeat' first
    | with_reducible assumption | with_reducible apply pres_cond | with_reducible apply pres_ite
    | with_reducible apply C.seqAbandon | with_reducible apply C.closePhase | with_reducible apply C.startBegin
    | with_reducible apply C.enterP4 | with_reducible apply C.enterP3 | with_reducible apply C.castLast
    | with_reducible apply C.pathsStandby | with_reducible apply C.wr
    | with_reducible refine C.same (fun h => h) (fun h => h) (fun h => h) (fun h => h) (fun h => h) (fun h => h) (fun h => h) (fun h => h) (fun h => h) (fun h => h) (fun h => h) ?_
    | with_reducible refine C.same ?_ ?_ ?_ ?_ ?_ ?_ ?_ ?_ ?_ ?_ ?_ ?_ | exact fun h => h | exact fun _ => rfl
    | exact fun _ => Nat.zero_le _ | intro _

theorem Stable.kilnCut {P : State → Prop} (C : Stable P) {s : State} (control : Bool) (hP : P s) :
    P (State.kilnCut s control) := by
  unfold State.kilnCut
  repeat' first
    | with_reducible assumption | with_reducible apply pres_ite | with_reducible apply C.clrEnables
    | with_reducible apply C.seqRequest | with_reducible apply C.seqAbandon | with_reducible apply C.enterP4
    | with_reducible apply C.wr
    | with_reducible refine C.same (fun h => h) (fun h => h) (fun h => h) (fun h => h) (fun h => h) (fun h => h) (fun h => h) (fun h => h) (fun h => h) (fun h => h) (fun h => h) ?_
    | with_reducible refine C.same ?_ ?_ ?_ ?_ ?_ ?_ ?_ ?_ ?_ ?_ ?_ ?_ | exact fun h => h

theorem Stable.collapse {P : State → Prop} (C : Stable P) {s : State} (control : Bool) (hP : P s) :
    P (State.collapse s control) := by
  unfold State.collapse
  repeat' first
    | with_reducible assumption | with_reducible apply pres_ite | with_reducible apply C.kilnCut

theorem Stable.selfTest {P : State → Prop} (C : Stable P) {s : State} (cmpOk shedOk romOk : Bool) (hP : P s) :
    P (State.selfTest s cmpOk shedOk romOk) := by
  unfold State.selfTest
  repeat' first
    | with_reducible assumption | with_reducible apply pres_cond | with_reducible apply C.inc
    | with_reducible apply C.setCond | with_reducible apply C.wr | intro _

theorem Stable.armWrite {P : State → Prop} (C : Stable P) {s : State} (on : Bool) (hP : P s) :
    P (State.armWrite s on) := by
  unfold State.armWrite
  repeat' first
    | with_reducible assumption | with_reducible apply pres_cond | with_reducible apply pres_ite
    | with_reducible apply C.reject | with_reducible apply C.setCond | with_reducible apply C.toReady
    | with_reducible apply C.wr | intro _

end Sys2Proof.Machine
end

