-- ==== Sys2Proof/Laws/Stable/Flash.lean ====
section
/-!
SUPPORT. Laws/Stable/Flash.lean: what the operations of Machine/Flash.lean keep (Laws/Stable.lean).
-/

namespace Sys2Proof.Machine

set_option Elab.async false
set_option linter.unusedTactic false
set_option linter.unreachableTactic false

theorem Stable.setFlashOp {P : State → Prop} (C : Stable P) {s : State} (b : Nat) (o : Option FlashOp) (hP : P s) :
    P (State.setFlashOp s b o) := by
  unfold State.setFlashOp
  repeat' first
    | with_reducible assumption | with_reducible apply pres_ite | with_reducible apply C.wr
    | with_reducible refine C.same (fun h => h) (fun h => h) (fun h => h) (fun h => h) (fun h => h) (fun h => h) (fun h => h) (fun h => h) (fun h => h) (fun h => h) (fun h => h) ?_
    | with_reducible refine C.same ?_ ?_ ?_ ?_ ?_ ?_ ?_ ?_ ?_ ?_ ?_ ?_ | exact fun h => h

theorem Stable.journal {P : State → Prop} (C : Stable P) {s : State} (kind addr : Nat) (hP : P s) :
    P (State.journal s kind addr) := by
  unfold State.journal
  repeat' first
    | with_reducible assumption | with_reducible apply pres_ite
    | with_reducible refine C.same (fun h => h) (fun h => h) (fun h => h) (fun h => h) (fun h => h) (fun h => h) (fun h => h) (fun h => h) (fun h => h) (fun h => h) (fun h => h) ?_
    | with_reducible refine C.same ?_ ?_ ?_ ?_ ?_ ?_ ?_ ?_ ?_ ?_ ?_ ?_ | exact fun h => h

theorem Stable.journalDone {P : State → Prop} (C : Stable P) {s : State} (addr : Nat) (hP : P s) :
    P (State.journalDone s addr) := by
  unfold State.journalDone
  repeat' first
    | with_reducible assumption | with_reducible apply pres_ite
    | with_reducible refine C.same (fun h => h) (fun h => h) (fun h => h) (fun h => h) (fun h => h) (fun h => h) (fun h => h) (fun h => h) (fun h => h) (fun h => h) (fun h => h) ?_
    | with_reducible refine C.same ?_ ?_ ?_ ?_ ?_ ?_ ?_ ?_ ?_ ?_ ?_ ?_ | exact fun h => h
    | (intro h; simp only [List.length_map]; exact h) | intro _

theorem Stable.countErases {P : State → Prop} (C : Stable P) {s : State} (lo hi : Nat) (hP : P s) :
    P (State.countErases s lo hi) := by
  unfold State.countErases
  repeat' first
    | with_reducible assumption | with_reducible apply pres_cond | with_reducible apply pres_foldl
    | with_reducible apply C.detect | with_reducible apply C.wr
    | with_reducible refine C.same (fun h => h) (fun h => h) (fun h => h) (fun h => h) (fun h => h) (fun h => h) (fun h => h) (fun h => h) (fun h => h) (fun h => h) (fun h => h) ?_
    | with_reducible refine C.same ?_ ?_ ?_ ?_ ?_ ?_ ?_ ?_ ?_ ?_ ?_ ?_ | exact fun h => h | exact NMap.wf_set _ _
    | intro _

theorem Stable.loseRecords {P : State → Prop} (C : Stable P) {s : State} (lo hi : Nat) (hP : P s) :
    P (State.loseRecords s lo hi) := by
  unfold State.loseRecords
  repeat' first
    | with_reducible assumption | with_reducible apply pres_cond | with_reducible apply pres_ite
    | with_reducible refine C.same (fun h => h) (fun h => h) (fun h => h) (fun h => h) (fun h => h) (fun h => h) (fun h => h) (fun h => h) (fun h => h) (fun h => h) (fun h => h) ?_
    | with_reducible refine C.same ?_ ?_ ?_ ?_ ?_ ?_ ?_ ?_ ?_ ?_ ?_ ?_ | exact fun h => h | exact fun _ => rfl
    | exact fun _ => Nat.zero_le _ | intro _

theorem Stable.eraseSectors {P : State → Prop} (C : Stable P) {s : State} (lo hi : Nat) (hP : P s) :
    P (State.eraseSectors s lo hi) := by
  unfold State.eraseSectors
  repeat' first
    | with_reducible assumption | with_reducible apply C.countErases | with_reducible apply C.loseRecords
    | with_reducible refine C.same (fun h => h) (fun h => h) (fun h => h) (fun h => h) (fun h => h) (fun h => h) (fun h => h) (fun h => h) (fun h => h) (fun h => h) (fun h => h) ?_
    | with_reducible refine C.same ?_ ?_ ?_ ?_ ?_ ?_ ?_ ?_ ?_ ?_ ?_ ?_ | exact fun h => h | exact NMap.wf_keep _
    | intro _

theorem Stable.setFlashSeq {P : State → Prop} (C : Stable P) {s : State} (fw : Bool) (q : FlashSeq) (hP : P s) :
    P (State.setFlashSeq s fw q) := by
  unfold State.setFlashSeq
  repeat' first
    | with_reducible assumption | with_reducible apply pres_ite | with_reducible apply C.wr
    | with_reducible refine C.same (fun h => h) (fun h => h) (fun h => h) (fun h => h) (fun h => h) (fun h => h) (fun h => h) (fun h => h) (fun h => h) (fun h => h) (fun h => h) ?_
    | with_reducible refine C.same ?_ ?_ ?_ ?_ ?_ ?_ ?_ ?_ ?_ ?_ ?_ ?_ | exact fun h => h

theorem Stable.flashErr {P : State → Prop} (C : Stable P) {s : State} (e : Nat) (hP : P s) :
    P (State.flashErr s e) := by
  unfold State.flashErr
  repeat' first
    | with_reducible assumption | with_reducible apply C.wr

theorem Stable.breakSeq {P : State → Prop} (C : Stable P) {s : State} (fw : Bool) (hP : P s) :
    P (State.breakSeq s fw) := by
  unfold State.breakSeq
  repeat' first
    | with_reducible assumption | with_reducible apply C.detect | with_reducible apply C.setFlashSeq
    | with_reducible apply C.flashErr

theorem Stable.keyWrite {P : State → Prop} (C : Stable P) {s : State} (fw : Bool) (v : Nat) (hP : P s) :
    P (State.keyWrite s fw v) := by
  unfold State.keyWrite
  repeat' first
    | with_reducible assumption | with_reducible apply pres_ite | with_reducible apply C.setFlashSeq
    | with_reducible apply C.breakSeq

theorem Stable.flashCommand {P : State → Prop} (C : Stable P) {s : State} (fw : Bool) (op addr word : Nat) (hP : P s) :
    P (State.flashCommand s fw op addr word) := by
  unfold State.flashCommand
  repeat' first
    | with_reducible assumption | with_reducible apply pres_cond | with_reducible apply pres_ite
    | with_reducible apply C.setFlashOp | with_reducible apply C.journal | with_reducible apply C.setFlashSeq
    | with_reducible apply C.flashErr | with_reducible apply C.breakSeq | intro _

theorem Stable.seqReset {P : State → Prop} (C : Stable P) {s : State} (fw : Bool) (hP : P s) :
    P (State.seqReset s fw) := by
  unfold State.seqReset
  repeat' first
    | with_reducible assumption | with_reducible apply pres_ite | with_reducible apply C.setFlashSeq
    | with_reducible apply C.flashErr | with_reducible apply C.breakSeq

theorem Stable.flashDone {P : State → Prop} (C : Stable P) {s : State} (b : Nat) (ok : Bool) (hP : P s) :
    P (State.flashDone s b ok) := by
  unfold State.flashDone
  repeat' first
    | with_reducible assumption | with_reducible apply pres_cond | with_reducible apply pres_ite
    | with_reducible apply C.detect | with_reducible apply C.setFlashOp | with_reducible apply C.journalDone
    | with_reducible apply C.countErases | with_reducible apply C.loseRecords | with_reducible apply C.eraseSectors
    | with_reducible apply C.flashErr | split
    | with_reducible refine C.same (fun h => h) (fun h => h) (fun h => h) (fun h => h) (fun h => h) (fun h => h) (fun h => h) (fun h => h) (fun h => h) (fun h => h) (fun h => h) ?_
    | with_reducible refine C.same ?_ ?_ ?_ ?_ ?_ ?_ ?_ ?_ ?_ ?_ ?_ ?_ | exact fun h => h | exact NMap.wf_set _ _
    | intro _

theorem Stable.bootWrite {P : State → Prop} (C : Stable P) {s : State} (bank svn : Nat) (trial : Bool) (hP : P s) :
    P (State.bootWrite s bank svn trial) := by
  unfold State.bootWrite
  repeat' first
    | with_reducible assumption
    | with_reducible refine C.same (fun h => h) (fun h => h) (fun h => h) (fun h => h) (fun h => h) (fun h => h) (fun h => h) (fun h => h) (fun h => h) (fun h => h) (fun h => h) ?_
    | with_reducible refine C.same ?_ ?_ ?_ ?_ ?_ ?_ ?_ ?_ ?_ ?_ ?_ ?_ | exact fun h => h
    | (intro h; simp only [List.length_map]; exact h) | intro _

theorem Stable.setBankPkg {P : State → Prop} (C : Stable P) {s : State} (b : Nat) (k : Option Package) (hP : P s) :
    P (State.setBankPkg s b k) := by
  unfold State.setBankPkg
  repeat' first
    | with_reducible assumption | with_reducible apply pres_ite
    | with_reducible refine C.same (fun h => h) (fun h => h) (fun h => h) (fun h => h) (fun h => h) (fun h => h) (fun h => h) (fun h => h) (fun h => h) (fun h => h) (fun h => h) ?_
    | with_reducible refine C.same ?_ ?_ ?_ ?_ ?_ ?_ ?_ ?_ ?_ ?_ ?_ ?_ | exact fun h => h

theorem Stable.dropStaging {P : State → Prop} (C : Stable P) {s : State}  (hP : P s) :
    P (State.dropStaging s) := by
  unfold State.dropStaging
  repeat' first
    | with_reducible assumption | with_reducible apply C.setBankPkg | with_reducible apply C.wr
    | with_reducible refine C.same (fun h => h) (fun h => h) (fun h => h) (fun h => h) (fun h => h) (fun h => h) (fun h => h) (fun h => h) (fun h => h) (fun h => h) (fun h => h) ?_
    | with_reducible refine C.same ?_ ?_ ?_ ?_ ?_ ?_ ?_ ?_ ?_ ?_ ?_ ?_ | exact fun h => h | exact fun _ => rfl
    | exact fun _ => Nat.zero_le _

theorem Stable.flashCheck {P : State → Prop} (C : Stable P) {s : State} (corrected : Nat) (bad : List (Nat × Nat)) (hP : P s) :
    P (State.flashCheck s corrected bad) := by
  unfold State.flashCheck
  repeat' first
    | with_reducible assumption | with_reducible apply pres_cond | with_reducible apply pres_ite
    | with_reducible apply pres_foldl | with_reducible apply C.inc | with_reducible apply C.addSat
    | with_reducible apply C.detect | with_reducible apply C.vendor | with_reducible apply C.setCond
    | with_reducible apply C.corrected | with_reducible apply C.dropStaging | with_reducible apply C.wr
    | with_reducible refine C.same (fun h => h) (fun h => h) (fun h => h) (fun h => h) (fun h => h) (fun h => h) (fun h => h) (fun h => h) (fun h => h) (fun h => h) (fun h => h) ?_
    | with_reducible refine C.same ?_ ?_ ?_ ?_ ?_ ?_ ?_ ?_ ?_ ?_ ?_ ?_ | exact fun h => h | exact fun _ => rfl
    | exact fun _ => Nat.zero_le _ | intro _

end Sys2Proof.Machine
end

