-- ==== Sys2Proof/Laws/Stable/Update.lean ====
section
/-!
SUPPORT. Laws/Stable/Update.lean: what the operations of Machine/Update.lean keep (Laws/Stable.lean).
-/

namespace Sys2Proof.Machine

set_option Elab.async false
set_option linter.unusedTactic false
set_option linter.unreachableTactic false

theorem Stable.updBox {P : State → Prop} (C : Stable P) {s : State} (c : Instr) (p op : Nat) (body : State → State) (hbody : ∀ t, P t → P (body t)) (hP : P s) :
    P (State.updBox s c p op body) := by
  unfold State.updBox
  repeat' first
    | with_reducible assumption | with_reducible apply pres_ite | with_reducible apply C.mbox
    | with_reducible apply C.wr | with_reducible apply hbody | intro _

theorem Stable.keepLock {P : State → Prop} (C : Stable P) {s : State} (src : Nat) (hP : P s) :
    P (State.keepLock s src) := by
  unfold State.keepLock
  repeat' first
    | with_reducible assumption | with_reducible apply C.wr

theorem Stable.freeLock {P : State → Prop} (C : Stable P) {s : State}  (hP : P s) :
    P (State.freeLock s) := by
  unfold State.freeLock
  repeat' first
    | with_reducible assumption | with_reducible apply C.wr

theorem Stable.updStart {P : State → Prop} (C : Stable P) {s : State} (p : Nat) (cxl : Bool) (len : Nat) (hP : P s) :
    P (State.updStart s p cxl len).1 := by
  unfold State.updStart
  repeat' first
    | with_reducible assumption | with_reducible apply pres_ite | with_reducible apply C.setBankPkg
    | with_reducible apply C.dropStaging | with_reducible apply C.keepLock | with_reducible apply C.wr
    | with_reducible apply pres_ite_fst
    | with_reducible refine C.same (fun h => h) (fun h => h) (fun h => h) (fun h => h) (fun h => h) (fun h => h) (fun h => h) (fun h => h) (fun h => h) (fun h => h) (fun h => h) ?_
    | with_reducible refine C.same ?_ ?_ ?_ ?_ ?_ ?_ ?_ ?_ ?_ ?_ ?_ ?_ | exact fun h => h | exact NMap.wf_keep _

theorem Stable.eraseFor {P : State → Prop} (C : Stable P) {s : State} (lo hi : Nat) (hP : P s) :
    P (State.eraseFor s lo hi) := by
  unfold State.eraseFor
  repeat' first
    | with_reducible assumption | with_reducible apply pres_foldl | with_reducible apply C.journal
    | with_reducible apply C.journalDone | with_reducible apply C.eraseSectors
    | with_reducible refine C.same (fun h => h) (fun h => h) (fun h => h) (fun h => h) (fun h => h) (fun h => h) (fun h => h) (fun h => h) (fun h => h) (fun h => h) (fun h => h) ?_
    | with_reducible refine C.same ?_ ?_ ?_ ?_ ?_ ?_ ?_ ?_ ?_ ?_ ?_ ?_ | exact fun h => h
    | (intro h; exact Nat.le_trans (List.length_filter_le _ _) h) | intro _

theorem Stable.journalFor {P : State → Prop} (C : Stable P) {s : State} (lo hi : Nat) (hP : P s) :
    P (State.journalFor s lo hi) := by
  unfold State.journalFor
  repeat' first
    | with_reducible assumption | with_reducible apply pres_foldl | with_reducible apply C.journal | intro _

theorem Stable.journalEnd {P : State → Prop} (C : Stable P) {s : State} (lo hi : Nat) (hP : P s) :
    P (State.journalEnd s lo hi) := by
  unfold State.journalEnd
  repeat' first
    | with_reducible assumption | with_reducible apply pres_foldl | with_reducible apply C.journalDone | intro _

theorem Stable.putBlock {P : State → Prop} (C : Stable P) {s : State} (p : Nat) (cxl : Bool) (off len : Nat) (data : Memory) (ok : Bool) (hP : P s) :
    P (State.putBlock s p cxl off len data ok).1 := by
  unfold State.putBlock
  repeat' first
    | with_reducible assumption | with_reducible apply pres_ite | with_reducible apply pres_foldl
    | with_reducible apply C.detect | with_reducible apply C.flashErr | with_reducible apply C.keepLock
    | with_reducible apply C.eraseFor | with_reducible apply C.journalFor | with_reducible apply C.journalEnd
    | with_reducible apply C.wr | with_reducible apply pres_ite_fst
    | with_reducible refine C.same (fun h => h) (fun h => h) (fun h => h) (fun h => h) (fun h => h) (fun h => h) (fun h => h) (fun h => h) (fun h => h) (fun h => h) (fun h => h) ?_
    | with_reducible refine C.same ?_ ?_ ?_ ?_ ?_ ?_ ?_ ?_ ?_ ?_ ?_ ?_ | exact fun h => h | exact NMap.wf_keep _
    | intro _

theorem Stable.updEnd {P : State → Prop} (C : Stable P) {s : State} (p : Nat) (cxl : Bool) (hP : P s) :
    P (State.updEnd s p cxl).1 := by
  unfold State.updEnd
  repeat' first
    | with_reducible assumption | with_reducible apply pres_ite | with_reducible apply C.keepLock
    | with_reducible apply C.wr | with_reducible apply pres_ite_fst

theorem Stable.updAbort {P : State → Prop} (C : Stable P) {s : State} (p : Nat) (cxl : Bool) (hP : P s) :
    P (State.updAbort s p cxl).1 := by
  unfold State.updAbort
  repeat' first
    | with_reducible assumption | with_reducible apply pres_ite | with_reducible apply C.fallback
    | with_reducible apply C.dropStaging | with_reducible apply C.freeLock | with_reducible apply C.wr
    | with_reducible apply pres_ite_fst

theorem Stable.answer {P : State → Prop} (C : Stable P) (p : Nat) {r : State × Nat} (hP : P r.1) : P (answer p r) :=
  C.reply _ _ _ hP

theorem Stable.rejectPackage {P : State → Prop} (C : Stable P) {s : State} (code mix : Nat) (hP : P s) :
    P (State.rejectPackage s code mix) := by
  unfold State.rejectPackage
  repeat' first
    | with_reducible assumption | with_reducible apply C.detect | with_reducible apply C.dropStaging
    | with_reducible apply C.freeLock | with_reducible apply C.wr

theorem Stable.activate {P : State → Prop} (C : Stable P) {s : State} (p : Nat) (cxl : Bool) (hP : P s) :
    P (State.activate s p cxl).1 := by
  unfold State.activate
  repeat' first
    | with_reducible assumption | with_reducible apply pres_ite | with_reducible apply C.nextHandover
    | with_reducible apply C.rejectPackage | with_reducible apply C.wr | with_reducible apply pres_ite_fst | split
    | with_reducible refine C.same (fun h => h) (fun h => h) (fun h => h) (fun h => h) (fun h => h) (fun h => h) (fun h => h) (fun h => h) (fun h => h) (fun h => h) (fun h => h) ?_
    | with_reducible refine C.same ?_ ?_ ?_ ?_ ?_ ?_ ?_ ?_ ?_ ?_ ?_ ?_ | exact fun h => h | exact fun _ => rfl
    | exact fun _ => Nat.zero_le _ | (intro h; exact Nat.le_trans (List.length_filter_le _ _) h) | intro _

theorem Stable.activateReset {P : State → Prop} (C : Stable P) {s : State} (p : Nat) (cxl : Bool) (hP : P s) :
    P (State.activateReset s p cxl).1 := by
  unfold State.activateReset
  repeat' first
    | with_reducible assumption | with_reducible apply pres_ite | with_reducible apply C.bootWrite
    | with_reducible apply C.wr | with_reducible apply pres_ite_fst | split
    | with_reducible refine C.same (fun h => h) (fun h => h) (fun h => h) (fun h => h) (fun h => h) (fun h => h) (fun h => h) (fun h => h) (fun h => h) (fun h => h) (fun h => h) ?_
    | with_reducible refine C.same ?_ ?_ ?_ ?_ ?_ ?_ ?_ ?_ ?_ ?_ ?_ ?_ | exact fun h => h

theorem Stable.brewBlock {P : State → Prop} (C : Stable P) {s : State} (p off len : Nat) (data : Memory) (ok : Bool) (hP : P s) :
    P (State.brewBlock s p off len data ok) := by
  unfold State.brewBlock
  repeat' first
    | with_reducible assumption | with_reducible apply pres_cond | with_reducible apply pres_ite
    | with_reducible apply C.bgEnd | with_reducible apply C.background | with_reducible apply C.putBlock
    | with_reducible apply C.answer | with_reducible apply C.wr | intro _

theorem Stable.updStatus {P : State → Prop} (C : Stable P) {s : State} (p : Nat) (hP : P s) :
    P (State.updStatus s p) := by
  unfold State.updStatus
  repeat' first
    | with_reducible assumption | with_reducible apply pres_cond | with_reducible apply C.reply
    | with_reducible apply C.keepLock | intro _

theorem Stable.updFull {P : State → Prop} (C : Stable P) {s : State} (p len : Nat) (data : Memory) (ok : Bool) (hP : P s) :
    P (State.updFull s p len data ok).1 := by
  unfold State.updFull
  repeat' first
    | with_reducible assumption | with_reducible apply pres_ite | with_reducible apply C.updStart
    | with_reducible apply C.putBlock | with_reducible apply C.updEnd | with_reducible apply pres_ite_fst

theorem Stable.lockExpired {P : State → Prop} (C : Stable P) {s : State}  (hP : P s) :
    P (State.lockExpired s) := by
  unfold State.lockExpired
  repeat' first
    | with_reducible assumption | with_reducible apply pres_ite | with_reducible apply C.detect
    | with_reducible apply C.dropStaging | with_reducible apply C.freeLock | with_reducible apply C.wr

theorem Stable.writeChecks {P : State → Prop} (C : Stable P) {s : State} (bytes : Nat) (hP : P s) :
    P (State.writeChecks s bytes) := by
  unfold State.writeChecks
  repeat' first
    | with_reducible assumption | with_reducible apply pres_foldl | with_reducible apply C.journalDone
    | with_reducible apply C.eraseFor | with_reducible apply C.journalFor
    | with_reducible refine C.same (fun h => h) (fun h => h) (fun h => h) (fun h => h) (fun h => h) (fun h => h) (fun h => h) (fun h => h) (fun h => h) (fun h => h) (fun h => h) ?_
    | with_reducible refine C.same ?_ ?_ ?_ ?_ ?_ ?_ ?_ ?_ ?_ ?_ ?_ ?_ | exact fun h => h | intro _

theorem Stable.verifyDone {P : State → Prop} (C : Stable P) {s : State} (k : Package) (hP : P s) :
    P (State.verifyDone s k) := by
  unfold State.verifyDone
  repeat' first
    | with_reducible assumption | with_reducible apply pres_ite | with_reducible apply C.takeFree
    | with_reducible apply C.detect | with_reducible apply C.vendor | with_reducible apply C.startBegin
    | with_reducible apply C.bootWrite | with_reducible apply C.setBankPkg | with_reducible apply C.freeLock
    | with_reducible apply C.rejectPackage | with_reducible apply C.writeChecks | with_reducible apply C.wr | split
    | with_reducible refine C.same (fun h => h) (fun h => h) (fun h => h) (fun h => h) (fun h => h) (fun h => h) (fun h => h) (fun h => h) (fun h => h) (fun h => h) (fun h => h) ?_
    | with_reducible refine C.same ?_ ?_ ?_ ?_ ?_ ?_ ?_ ?_ ?_ ?_ ?_ ?_ | exact fun h => h | exact fun _ => rfl
    | exact fun _ => Nat.zero_le _

theorem Stable.resetBlocks {P : State → Prop} (C : Stable P) {s : State} (k : Package) (ids : List Nat) (hP : P s) :
    P (State.resetBlocks s k ids) := by
  unfold State.resetBlocks
  repeat' first
    | with_reducible assumption | with_reducible apply pres_ite | with_reducible apply pres_foldl
    | with_reducible apply C.addSat | with_reducible apply C.detect | with_reducible apply C.notice
    | with_reducible refine C.same (fun h => h) (fun h => h) (fun h => h) (fun h => h) (fun h => h) (fun h => h) (fun h => h) (fun h => h) (fun h => h) (fun h => h) (fun h => h) ?_
    | with_reducible refine C.same ?_ ?_ ?_ ?_ ?_ ?_ ?_ ?_ ?_ ?_ ?_ ?_ | exact fun h => h | exact NMap.wf_keep _
    | exact NMap.wf_set _ _ | (intro h; simp only [List.length_map]; exact h)
    | (intro h; exact Nat.le_trans (List.length_filter_le _ _) h) | intro _

theorem Stable.migrateBlocks {P : State → Prop} (C : Stable P) {s : State} (k : Package) (failed : List Nat) (hP : P s) :
    P (State.migrateBlocks s k failed) := by
  unfold State.migrateBlocks
  repeat' first
    | with_reducible assumption | with_reducible apply pres_cond | with_reducible apply pres_ite
    | with_reducible apply pres_foldl | with_reducible apply C.addSat | with_reducible apply C.detect
    | with_reducible apply C.resetBlocks
    | with_reducible refine C.same (fun h => h) (fun h => h) (fun h => h) (fun h => h) (fun h => h) (fun h => h) (fun h => h) (fun h => h) (fun h => h) (fun h => h) (fun h => h) ?_
    | with_reducible refine C.same ?_ ?_ ?_ ?_ ?_ ?_ ?_ ?_ ?_ ?_ ?_ ?_ | exact fun h => h | exact NMap.wf_keep _
    | exact NMap.wf_set _ _ | (intro h; simp only [List.length_map]; exact h)
    | (intro h; exact Nat.le_trans (List.length_filter_le _ _) h) | intro _

theorem Stable.handoverDone {P : State → Prop} (C : Stable P) {s : State} (ms : Nat) (blocks : List Nat) (hP : P s) :
    P (State.handoverDone s ms blocks) := by
  unfold State.handoverDone
  repeat' first
    | with_reducible assumption | with_reducible apply pres_cond | with_reducible apply pres_ite
    | with_reducible apply C.unhalt | with_reducible apply C.nextHandover | with_reducible apply C.resetBlocks
    | with_reducible apply C.wr | split
    | with_reducible refine C.same (fun h => h) (fun h => h) (fun h => h) (fun h => h) (fun h => h) (fun h => h) (fun h => h) (fun h => h) (fun h => h) (fun h => h) (fun h => h) ?_
    | with_reducible refine C.same ?_ ?_ ?_ ?_ ?_ ?_ ?_ ?_ ?_ ?_ ?_ ?_ | exact fun h => h | exact fun _ => rfl
    | exact fun _ => Nat.zero_le _ | (intro h; simp only [List.length_map]; exact h) | intro _

theorem Stable.confirm {P : State → Prop} (C : Stable P) {s : State}  (hP : P s) :
    P (State.confirm s) := by
  unfold State.confirm
  repeat' first
    | with_reducible assumption | with_reducible apply C.inc | with_reducible apply C.vendor
    | with_reducible apply C.bootWrite | with_reducible apply C.freeLock | with_reducible apply C.wr | split
    | with_reducible refine C.same (fun h => h) (fun h => h) (fun h => h) (fun h => h) (fun h => h) (fun h => h) (fun h => h) (fun h => h) (fun h => h) (fun h => h) (fun h => h) ?_
    | with_reducible refine C.same ?_ ?_ ?_ ?_ ?_ ?_ ?_ ?_ ?_ ?_ ?_ ?_ | exact fun h => h | exact fun _ => rfl
    | exact fun _ => Nat.zero_le _ | (intro h; simp only [List.length_map]; exact h)
    | (intro h; exact Nat.le_trans (List.length_filter_le _ _) h) | intro _

theorem Stable.windowEnd {P : State → Prop} (C : Stable P) {s : State} (cmpOk shedOk romOk : Bool) (hP : P s) :
    P (State.windowEnd s cmpOk shedOk romOk) := by
  unfold State.windowEnd
  repeat' first
    | with_reducible assumption | with_reducible apply pres_ite | with_reducible apply C.fallback
    | with_reducible apply C.selfTest | with_reducible apply C.confirm

end Sys2Proof.Machine
end

