-- ==== Sys2Proof/Laws/Stable/Boot.lean ====
section
/-!
SUPPORT. Laws/Stable/Boot.lean: what the operations of Machine/Boot.lean keep (Laws/Stable.lean).
-/

namespace Sys2Proof.Machine

set_option Elab.async false
set_option linter.unusedTactic false
set_option linter.unreachableTactic false

theorem Stable.mainStable {P : State → Prop} (C : Stable P) {s : State}  (hP : P s) :
    P (State.mainStable s) := by
  unfold State.mainStable
  repeat' first
    | with_reducible assumption | with_reducible apply pres_ite | with_reducible apply C.seqRequest
    | with_reducible apply C.startBegin | with_reducible apply C.wr | split
    | with_reducible refine C.same (fun h => h) (fun h => h) (fun h => h) (fun h => h) (fun h => h) (fun h => h) (fun h => h) (fun h => h) (fun h => h) (fun h => h) (fun h => h) ?_
    | with_reducible refine C.same ?_ ?_ ?_ ?_ ?_ ?_ ?_ ?_ ?_ ?_ ?_ ?_ | exact fun h => h

theorem NMap.wf_foldl_set_if {α : Type} (l : List α) (k v : α → Nat) (c : α → Bool) {m : NMap} (h : m.wf = true) :
    NMap.wf (l.foldl (fun (m : NMap) (e : α) => if c e then m.set (k e) (v e) else m) m) = true := by
  induction l generalizing m with
  | nil => exact h
  | cons a t ih =>
    refine ih ?_
    show NMap.wf (if c a then m.set (k a) (v a) else m) = true
    split
    · exact NMap.wf_set _ _ h
    · exact h

theorem Stable.findFields {P : State → Prop} (C : Stable P) {s : State} (l : List (Nat × Nat)) (hP : P s) : P (s.findFields l) := by
  unfold State.findFields
  extract_lets s1 s2 n
  have h1 : P s1 := C.same (fun h => NMap.wf_foldl_set_if _ _ _ _ h) (fun h => h) (fun h => h) (fun h => h) (fun h => h) (fun h => h) (fun h => h) (fun h => h) (fun h => h) (fun h => h) (fun h => h) hP
  have h2 : P s2 := pres_cond h1 (fun t ht => C.wr _ ht)
  exact C.wr _ (C.wr _ h2)

theorem Stable.saveRails {P : State → Prop} (C : Stable P) {s : State}  (hP : P s) :
    P (State.saveRails s) := by
  unfold State.saveRails
  repeat' first
    | with_reducible assumption | with_reducible apply pres_ite | with_reducible apply pres_foldl
    | with_reducible refine C.same (fun h => h) (fun h => h) (fun h => h) (fun h => h) (fun h => h) (fun h => h) (fun h => h) (fun h => h) (fun h => h) (fun h => h) (fun h => h) ?_
    | with_reducible refine C.same ?_ ?_ ?_ ?_ ?_ ?_ ?_ ?_ ?_ ?_ ?_ ?_ | exact fun h => h | exact NMap.wf_set _ _
    | exact fun _ => rfl | exact fun _ => Nat.zero_le _ | intro _

theorem Stable.loadRails {P : State → Prop} (C : Stable P) {s : State}  (hP : P s) :
    P (State.loadRails s) := by
  unfold State.loadRails
  repeat' first
    | with_reducible assumption | with_reducible apply pres_ite | with_reducible apply pres_each
    | with_reducible apply C.wr | intro _

theorem Stable.resumeCounts {P : State → Prop} (C : Stable P) {s : State}  (hP : P s) :
    P (State.resumeCounts s) := by
  unfold State.resumeCounts
  repeat' first
    | with_reducible assumption | with_reducible apply C.wr | intro _

theorem Stable.islandUnpow {P : State → Prop} (C : Stable P) {s : State} (found : Nat) (hP : P s) :
    P (State.islandUnpow s found) := by
  unfold State.islandUnpow
  repeat' first
    | with_reducible assumption | with_reducible apply pres_ite | with_reducible apply C.wr
    | with_reducible refine C.same (fun h => h) (fun h => h) (fun h => h) (fun h => h) (fun h => h) (fun h => h) (fun h => h) (fun h => h) (fun h => h) (fun h => h) (fun h => h) ?_
    | with_reducible refine C.same ?_ ?_ ?_ ?_ ?_ ?_ ?_ ?_ ?_ ?_ ?_ ?_ | exact fun h => h

theorem Stable.bootBank {P : State → Prop} (C : Stable P) {s : State}  (hP : P s) :
    P (State.bootBank s) := by
  unfold State.bootBank
  repeat' first
    | with_reducible assumption | with_reducible apply pres_cond | with_reducible apply pres_ite
    | with_reducible apply C.detect | with_reducible apply C.wr | split
    | with_reducible refine C.same (fun h => h) (fun h => h) (fun h => h) (fun h => h) (fun h => h) (fun h => h) (fun h => h) (fun h => h) (fun h => h) (fun h => h) (fun h => h) ?_
    | with_reducible refine C.same ?_ ?_ ?_ ?_ ?_ ?_ ?_ ?_ ?_ ?_ ?_ ?_ | exact fun h => h | intro _

theorem Stable.enterRecovery {P : State → Prop} (C : Stable P) {s : State}  (hP : P s) :
    P (State.enterRecovery s) := by
  unfold State.enterRecovery
  repeat' first
    | with_reducible assumption | with_reducible apply C.detect | with_reducible apply C.wr
    | with_reducible refine C.same (fun h => h) (fun h => h) (fun h => h) (fun h => h) (fun h => h) (fun h => h) (fun h => h) (fun h => h) (fun h => h) (fun h => h) (fun h => h) ?_
    | with_reducible refine C.same ?_ ?_ ?_ ?_ ?_ ?_ ?_ ?_ ?_ ?_ ?_ ?_ | exact fun h => h | exact fun _ => rfl
    | exact fun _ => Nat.zero_le _

theorem Stable.loadStore {P : State → Prop} (C : Stable P) {s : State} (bad : Nat) (hP : P s) :
    P (State.loadStore s bad) := by
  unfold State.loadStore
  repeat' first
    | with_reducible assumption | with_reducible apply pres_cond | with_reducible apply C.detect
    | with_reducible apply C.wr
    | with_reducible refine C.same (fun h => h) (fun h => h) (fun h => h) (fun h => h) (fun h => h) (fun h => h) (fun h => h) (fun h => h) (fun h => h) (fun h => h) (fun h => h) ?_
    | with_reducible refine C.same ?_ ?_ ?_ ?_ ?_ ?_ ?_ ?_ ?_ ?_ ?_ ?_ | exact fun h => h
    | (intro h; simp only [List.length_map]; exact h) | (intro h; exact Nat.le_trans (List.length_filter_le _ _) h)
    | intro _

theorem Stable.contextGone {P : State → Prop} (C : Stable P) {s : State}  (hP : P s) :
    P (State.contextGone s) := by
  unfold State.contextGone
  repeat' first
    | with_reducible assumption | with_reducible apply C.loadRails | with_reducible apply C.resumeCounts
    | with_reducible refine C.same (fun h => h) (fun h => h) (fun h => h) (fun h => h) (fun h => h) (fun h => h) (fun h => h) (fun h => h) (fun h => h) (fun h => h) (fun h => h) ?_
    | with_reducible refine C.same ?_ ?_ ?_ ?_ ?_ ?_ ?_ ?_ ?_ ?_ ?_ ?_ | exact fun h => h | exact fun _ => rfl
    | exact fun _ => Nat.zero_le _

theorem Stable.showSram {P : State → Prop} (C : Stable P) {s : State}  (hP : P s) :
    P (State.showSram s) := by
  unfold State.showSram
  repeat' first
    | with_reducible assumption | with_reducible apply C.wr

theorem Stable.bootB3 {P : State → Prop} (C : Stable P) {s : State} (f : BootFound) (hP : P s) :
    P (State.bootB3 s f) := by
  unfold State.bootB3
  repeat' first
    | with_reducible assumption | with_reducible apply pres_ite | with_reducible apply pres_foldl
    | with_reducible apply C.tlog | with_reducible apply C.occur | with_reducible apply C.showSram
    | with_reducible apply C.wr
    | with_reducible refine C.same (fun h => h) (fun h => h) (fun h => h) (fun h => h) (fun h => h) (fun h => h) (fun h => h) (fun h => h) (fun h => h) (fun h => h) (fun h => h) ?_
    | with_reducible refine C.same ?_ ?_ ?_ ?_ ?_ ?_ ?_ ?_ ?_ ?_ ?_ ?_ | exact fun h => h | intro _

theorem Stable.bootB2 {P : State → Prop} (C : Stable P) {s : State} (f : BootFound) (hP : P s) :
    P (State.bootB2 s f) := by
  unfold State.bootB2
  repeat' first
    | with_reducible assumption | with_reducible apply pres_cond | with_reducible apply pres_ite
    | with_reducible apply C.inc | with_reducible apply C.detect | with_reducible apply C.islandUnpow
    | with_reducible apply C.bootBank | with_reducible apply C.enterRecovery | with_reducible apply C.loadStore
    | with_reducible apply C.contextGone | with_reducible apply C.wr
    | with_reducible refine C.same (fun h => h) (fun h => h) (fun h => h) (fun h => h) (fun h => h) (fun h => h) (fun h => h) (fun h => h) (fun h => h) (fun h => h) (fun h => h) ?_
    | with_reducible refine C.same ?_ ?_ ?_ ?_ ?_ ?_ ?_ ?_ ?_ ?_ ?_ ?_ | exact fun h => h | intro _

theorem Stable.bootJournal {P : State → Prop} (C : Stable P) {s : State}  (hP : P s) :
    P (State.bootJournal s) := by
  unfold State.bootJournal
  repeat' first
    | with_reducible assumption | with_reducible apply pres_ite | with_reducible apply pres_foldl
    | with_reducible apply C.inc | with_reducible apply C.detect | with_reducible apply C.journalDone
    | with_reducible apply C.eraseSectors | intro _

theorem Stable.bootB4 {P : State → Prop} (C : Stable P) {s : State} (f : BootFound) (hP : P s) :
    P (State.bootB4 s f).1 := by
  unfold State.bootB4
  repeat' first
    | with_reducible assumption | with_reducible apply pres_ite | with_reducible apply C.enterRecovery
    | with_reducible apply C.bootJournal | with_reducible apply C.wr | with_reducible apply pres_ite_fst | intro _

theorem Stable.loadRecords {P : State → Prop} (C : Stable P) {s : State}  (hP : P s) :
    P (State.loadRecords s) := by
  unfold State.loadRecords
  repeat' first
    | with_reducible assumption | with_reducible apply pres_cond | with_reducible apply pres_ite
    | with_reducible apply C.detect | with_reducible apply C.showRec | with_reducible apply C.wr | split
    | with_reducible refine C.same (fun h => h) (fun h => h) (fun h => h) (fun h => h) (fun h => h) (fun h => h) (fun h => h) (fun h => h) (fun h => h) (fun h => h) (fun h => h) ?_
    | with_reducible refine C.same ?_ ?_ ?_ ?_ ?_ ?_ ?_ ?_ ?_ ?_ ?_ ?_ | exact fun h => h | intro _

theorem Stable.bootImages {P : State → Prop} (C : Stable P) {s : State} (f : BootFound) (hP : P s) :
    P (State.bootImages s f) := by
  unfold State.bootImages
  repeat' first
    | with_reducible assumption | with_reducible apply pres_cond | with_reducible apply pres_ite
    | with_reducible apply pres_foldl | with_reducible apply C.detect | with_reducible apply C.dropStaging
    | with_reducible apply C.migrateBlocks | with_reducible apply C.wr | split
    | with_reducible refine C.same (fun h => h) (fun h => h) (fun h => h) (fun h => h) (fun h => h) (fun h => h) (fun h => h) (fun h => h) (fun h => h) (fun h => h) (fun h => h) ?_
    | with_reducible refine C.same ?_ ?_ ?_ ?_ ?_ ?_ ?_ ?_ ?_ ?_ ?_ ?_ | exact fun h => h | exact fun _ => rfl
    | exact fun _ => Nat.zero_le _ | (intro h; exact Nat.le_trans (List.length_filter_le _ _) h) | intro _

theorem Stable.bootB5 {P : State → Prop} (C : Stable P) {s : State} (f : BootFound) (hP : P s) :
    P (State.bootB5 s f) := by
  unfold State.bootB5
  repeat' first
    | with_reducible assumption | with_reducible apply pres_cond | with_reducible apply pres_ite
    | with_reducible apply pres_foldl | with_reducible apply C.takeFree | with_reducible apply C.setCond
    | with_reducible apply C.halt | with_reducible apply C.loadRecords | with_reducible apply C.bootImages
    | with_reducible apply C.wr
    | with_reducible refine C.same (fun h => h) (fun h => h) (fun h => h) (fun h => h) (fun h => h) (fun h => h) (fun h => h) (fun h => h) (fun h => h) (fun h => h) (fun h => h) ?_
    | with_reducible refine C.same ?_ ?_ ?_ ?_ ?_ ?_ ?_ ?_ ?_ ?_ ?_ ?_ | exact fun h => h
    | (intro h; exact Nat.le_trans (List.length_filter_le _ _) h) | intro _

theorem Stable.armComparators {P : State → Prop} (C : Stable P) {s : State}  (hP : P s) :
    P (State.armComparators s) := by
  unfold State.armComparators
  repeat' first
    | with_reducible assumption | with_reducible apply pres_cond | with_reducible apply pres_each
    | with_reducible apply C.wr | intro _

theorem Stable.bootRefs {P : State → Prop} (C : Stable P) {s : State} (calOk : Bool) (hP : P s) :
    P (State.bootRefs s calOk) := by
  unfold State.bootRefs
  repeat' first
    | with_reducible assumption | with_reducible apply pres_cond | with_reducible apply C.detect
    | with_reducible apply C.wr | split
    | with_reducible refine C.same (fun h => h) (fun h => h) (fun h => h) (fun h => h) (fun h => h) (fun h => h) (fun h => h) (fun h => h) (fun h => h) (fun h => h) (fun h => h) ?_
    | with_reducible refine C.same ?_ ?_ ?_ ?_ ?_ ?_ ?_ ?_ ?_ ?_ ?_ ?_ | exact fun h => h | intro _

theorem Stable.postWorks {P : State → Prop} (C : Stable P) {s : State}  (hP : P s) :
    P (State.postWorks s) := by
  unfold State.postWorks
  repeat' first
    | with_reducible assumption | with_reducible apply C.post | intro _

theorem Stable.bootB6 {P : State → Prop} (C : Stable P) {s : State} (f : BootFound) (hP : P s) :
    P (State.bootB6 s f) := by
  unfold State.bootB6
  repeat' first
    | with_reducible assumption | with_reducible apply pres_cond | with_reducible apply C.detect
    | with_reducible apply C.setCond | with_reducible apply C.saveRails | with_reducible apply C.armComparators
    | with_reducible apply C.bootRefs | with_reducible apply C.postWorks | with_reducible apply C.wr | intro _

theorem Stable.bootB7 {P : State → Prop} (C : Stable P) {s : State} (f : BootFound) (hP : P s) :
    P (State.bootB7 s f) := by
  unfold State.bootB7
  repeat' first
    | with_reducible assumption | with_reducible apply pres_ite | with_reducible apply pres_foldl
    | with_reducible apply C.setPack | with_reducible apply C.setCond | with_reducible apply C.packJudge
    | with_reducible apply C.ageGauge | with_reducible apply C.wr | intro _

theorem Stable.countDies {P : State → Prop} (C : Stable P) {s : State}  (hP : P s) :
    P (State.countDies s) := by
  unfold State.countDies
  repeat' first
    | with_reducible assumption | with_reducible apply pres_ite | with_reducible apply pres_each
    | with_reducible apply C.wr | intro _

theorem Stable.showDies {P : State → Prop} (C : Stable P) {s : State} (c : Nat) (hP : P s) :
    P (State.showDies s c) := by
  unfold State.showDies
  repeat' first
    | with_reducible assumption | with_reducible apply pres_cond | with_reducible apply pres_ite
    | with_reducible apply C.detect | with_reducible apply C.wr | intro _

theorem Stable.findDies {P : State → Prop} (C : Stable P) {s : State} (f : BootFound) (hP : P s) :
    P (State.findDies s f) := by
  unfold State.findDies
  repeat' first
    | with_reducible assumption | with_reducible apply pres_each | with_reducible apply pres_foldl
    | with_reducible apply C.showDies
    | with_reducible refine C.same (fun h => h) (fun h => h) (fun h => h) (fun h => h) (fun h => h) (fun h => h) (fun h => h) (fun h => h) (fun h => h) (fun h => h) (fun h => h) ?_
    | with_reducible refine C.same ?_ ?_ ?_ ?_ ?_ ?_ ?_ ?_ ?_ ?_ ?_ ?_ | exact fun h => h | exact fun _ => rfl
    | exact fun _ => Nat.zero_le _ | (intro h; exact Nat.le_trans (List.length_filter_le _ _) h) | intro _

theorem Stable.trainIf {P : State → Prop} (C : Stable P) {s : State} (f : BootFound) (c : Nat) (hP : P s) :
    P (State.trainIf s f c) := by
  unfold State.trainIf
  repeat' first
    | with_reducible assumption | with_reducible apply pres_cond | with_reducible apply pres_ite
    | with_reducible apply C.detect | with_reducible apply C.killChannel | with_reducible apply C.trained
    | with_reducible apply C.wr
    | with_reducible refine C.same (fun h => h) (fun h => h) (fun h => h) (fun h => h) (fun h => h) (fun h => h) (fun h => h) (fun h => h) (fun h => h) (fun h => h) (fun h => h) ?_
    | with_reducible refine C.same ?_ ?_ ?_ ?_ ?_ ?_ ?_ ?_ ?_ ?_ ?_ ?_ | exact fun h => h | exact NMap.wf_keep _
    | exact NMap.wf_set _ _ | (intro h; simp only [List.length_map]; exact h) | intro _

theorem Stable.layGroup {P : State → Prop} (C : Stable P) {s : State} (ms : List (Nat × Nat × Nat)) (hP : P s) :
    P (State.layGroup s ms) := by
  unfold State.layGroup
  repeat' first
    | with_reducible assumption | with_reducible apply pres_ite
    | with_reducible refine C.same (fun h => h) (fun h => h) (fun h => h) (fun h => h) (fun h => h) (fun h => h) (fun h => h) (fun h => h) (fun h => h) (fun h => h) (fun h => h) ?_
    | with_reducible refine C.same ?_ ?_ ?_ ?_ ?_ ?_ ?_ ?_ ?_ ?_ ?_ ?_ | exact fun h => h

theorem Stable.layCellar {P : State → Prop} (C : Stable P) {s : State} (f : BootFound) (hP : P s) :
    P (State.layCellar s f) := by
  unfold State.layCellar
  repeat' first
    | with_reducible assumption | with_reducible apply pres_each | with_reducible apply pres_foldl
    | with_reducible apply C.layGroup | with_reducible apply C.wr
    | with_reducible refine C.same (fun h => h) (fun h => h) (fun h => h) (fun h => h) (fun h => h) (fun h => h) (fun h => h) (fun h => h) (fun h => h) (fun h => h) (fun h => h) ?_
    | with_reducible refine C.same ?_ ?_ ?_ ?_ ?_ ?_ ?_ ?_ ?_ ?_ ?_ ?_ | exact fun h => h
    | (intro h; simp only [List.length_map]; exact h) | (intro h; exact Nat.le_trans (List.length_filter_le _ _) h)
    | intro _

theorem Stable.bootB8 {P : State → Prop} (C : Stable P) {s : State} (f : BootFound) (hP : P s) :
    P (State.bootB8 s f) := by
  unfold State.bootB8
  repeat' first
    | with_reducible assumption | with_reducible apply pres_cond | with_reducible apply pres_each
    | with_reducible apply pres_foldl | with_reducible apply C.detect | with_reducible apply C.showZ
    | with_reducible apply C.showImage | with_reducible apply C.lateErases | with_reducible apply C.killChannel
    | with_reducible apply C.countDies | with_reducible apply C.findDies | with_reducible apply C.trainIf
    | with_reducible apply C.layCellar
    | with_reducible refine C.same (fun h => h) (fun h => h) (fun h => h) (fun h => h) (fun h => h) (fun h => h) (fun h => h) (fun h => h) (fun h => h) (fun h => h) (fun h => h) ?_
    | with_reducible refine C.same ?_ ?_ ?_ ?_ ?_ ?_ ?_ ?_ ?_ ?_ ?_ ?_ | exact fun h => h | exact fun _ => rfl
    | exact fun _ => Nat.zero_le _ | intro _

theorem Stable.bootB9 {P : State → Prop} (C : Stable P) {s : State}  (hP : P s) :
    P (State.bootB9 s) := by
  unfold State.bootB9
  repeat' first
    | with_reducible assumption | with_reducible apply pres_ite | with_reducible apply C.wr | split
    | with_reducible refine C.same (fun h => h) (fun h => h) (fun h => h) (fun h => h) (fun h => h) (fun h => h) (fun h => h) (fun h => h) (fun h => h) (fun h => h) (fun h => h) ?_
    | with_reducible refine C.same ?_ ?_ ?_ ?_ ?_ ?_ ?_ ?_ ?_ ?_ ?_ ?_ | exact fun h => h

theorem Stable.firstKey {P : State → Prop} (C : Stable P) {s : State}  (hP : P s) :
    P (State.firstKey s) := by
  unfold State.firstKey
  repeat' first
    | with_reducible assumption | with_reducible apply pres_ite | with_reducible apply C.putWraps
    | with_reducible refine C.same (fun h => h) (fun h => h) (fun h => h) (fun h => h) (fun h => h) (fun h => h) (fun h => h) (fun h => h) (fun h => h) (fun h => h) (fun h => h) ?_
    | with_reducible refine C.same ?_ ?_ ?_ ?_ ?_ ?_ ?_ ?_ ?_ ?_ ?_ ?_ | exact fun h => h

theorem Stable.bootB10 {P : State → Prop} (C : Stable P) {s : State} (f : BootFound) (hP : P s) :
    P (State.bootB10 s f).1 := by
  unfold State.bootB10
  repeat' first
    | with_reducible assumption | with_reducible apply pres_cond | with_reducible apply pres_ite
    | with_reducible apply C.detect | with_reducible apply C.putWraps | with_reducible apply C.stepHold
    | with_reducible apply C.firstKey | with_reducible apply C.wr | with_reducible apply pres_ite_fst | intro _

theorem Stable.repairRow {P : State → Prop} (C : Stable P) {s : State} (r : PendRow) (found : Bool × Bool) (hP : P s) :
    P (State.repairRow s r found) := by
  unfold State.repairRow
  repeat' first
    | with_reducible assumption | with_reducible apply pres_cond | with_reducible apply pres_ite
    | with_reducible apply pres_foldl | with_reducible apply C.inc | with_reducible apply C.addSat
    | with_reducible apply C.detect | with_reducible apply C.dramEvent | with_reducible apply C.wr
    | with_reducible refine C.same (fun h => h) (fun h => h) (fun h => h) (fun h => h) (fun h => h) (fun h => h) (fun h => h) (fun h => h) (fun h => h) (fun h => h) (fun h => h) ?_
    | with_reducible refine C.same ?_ ?_ ?_ ?_ ?_ ?_ ?_ ?_ ?_ ?_ ?_ ?_ | exact fun h => h | exact NMap.wf_set _ _
    | (intro h; exact Nat.le_trans (List.length_filter_le _ _) h) | intro _

theorem Stable.repairRows {P : State → Prop} (C : Stable P) {s : State} (l : List (Nat × Nat)) (hP : P s) :
    P (State.repairRows s l) := by
  unfold State.repairRows
  repeat' first
    | with_reducible assumption | with_reducible apply pres_ite | with_reducible apply pres_foldl
    | with_reducible apply C.repairRow | with_reducible apply C.wr
    | with_reducible refine C.same (fun h => h) (fun h => h) (fun h => h) (fun h => h) (fun h => h) (fun h => h) (fun h => h) (fun h => h) (fun h => h) (fun h => h) (fun h => h) ?_
    | with_reducible refine C.same ?_ ?_ ?_ ?_ ?_ ?_ ?_ ?_ ?_ ?_ ?_ ?_ | exact fun h => h
    | (intro h; simp only [List.length_map]; exact h) | (intro h; exact Nat.le_trans (List.length_filter_le _ _) h)
    | intro _

theorem Stable.sizeKeep {P : State → Prop} (C : Stable P) {s : State}  (hP : P s) :
    P (State.sizeKeep s) := by
  unfold State.sizeKeep
  repeat' first
    | with_reducible assumption | with_reducible apply pres_ite | with_reducible apply C.wr

theorem Stable.defaultSlices {P : State → Prop} (C : Stable P) {s : State}  (hP : P s) :
    P (State.defaultSlices s) := by
  unfold State.defaultSlices
  repeat' first
    | with_reducible assumption | with_reducible apply pres_cond | with_reducible apply pres_each
    | with_reducible apply C.wr | intro _

theorem Stable.layChan {P : State → Prop} (C : Stable P) {s : State} (used : List Nat) (c : Nat) (hP : P s) :
    P (State.layChan s used c) := by
  unfold State.layChan
  repeat' first
    | with_reducible assumption | with_reducible apply pres_cond | with_reducible apply pres_ite
    | with_reducible apply C.detect | with_reducible apply C.wr | intro _

theorem Stable.layDram {P : State → Prop} (C : Stable P) {s : State}  (hP : P s) :
    P (State.layDram s) := by
  unfold State.layDram
  repeat' first
    | with_reducible assumption | with_reducible apply pres_each | with_reducible apply C.sizeKeep
    | with_reducible apply C.defaultSlices | with_reducible apply C.layChan | with_reducible apply C.wr | intro _

theorem Stable.trainChan {P : State → Prop} (C : Stable P) {s : State} (f : BootFound) (r : Nat × Nat × Bool) (c : Nat) (hP : P s) :
    P (State.trainChan s f r c) := by
  unfold State.trainChan
  repeat' first
    | with_reducible assumption | with_reducible apply pres_cond | with_reducible apply pres_ite
    | with_reducible apply C.detect | with_reducible apply C.trained | with_reducible apply C.wr
    | with_reducible refine C.same (fun h => h) (fun h => h) (fun h => h) (fun h => h) (fun h => h) (fun h => h) (fun h => h) (fun h => h) (fun h => h) (fun h => h) (fun h => h) ?_
    | with_reducible refine C.same ?_ ?_ ?_ ?_ ?_ ?_ ?_ ?_ ?_ ?_ ?_ ?_ | exact fun h => h
    | (intro h; exact Nat.le_trans (List.length_filter_le _ _) h) | intro _

theorem Stable.trainFound {P : State → Prop} (C : Stable P) {s : State} (f : BootFound) (hP : P s) :
    P (State.trainFound s f) := by
  unfold State.trainFound
  repeat' first
    | with_reducible assumption | with_reducible apply pres_foldl | with_reducible apply C.showSteps
    | with_reducible apply C.layDram | with_reducible apply C.trainChan | intro _

theorem Stable.listLost {P : State → Prop} (C : Stable P) {s : State}  (hP : P s) :
    P (State.listLost s) := by
  unfold State.listLost
  repeat' first
    | with_reducible assumption | with_reducible apply pres_foldl | with_reducible apply C.listPoison | intro _

theorem Stable.bootB11 {P : State → Prop} (C : Stable P) {s : State} (f : BootFound) (ms : Nat) (hP : P s) :
    P (State.bootB11 s f ms).1 := by
  unfold State.bootB11
  repeat' first
    | with_reducible assumption | with_reducible apply pres_cond | with_reducible apply pres_ite
    | with_reducible apply C.detect | with_reducible apply C.openEpoch | with_reducible apply C.st1Load
    | with_reducible apply C.showPool | with_reducible apply C.repairRows | with_reducible apply C.listLost
    | with_reducible apply C.wr | with_reducible apply pres_ite_fst | intro _

theorem Stable.bootDone {P : State → Prop} (C : Stable P) {s : State} (n ms : Nat) (f : BootFound) (hP : P s) :
    P (State.bootDone s n ms f) := by
  unfold State.bootDone
  repeat' first
    | with_reducible assumption | with_reducible apply pres_cond | with_reducible apply pres_ite
    | with_reducible apply pres_foldl | with_reducible apply C.detect | with_reducible apply C.failStart
    | with_reducible apply C.stepDone | with_reducible apply C.st1Begin | with_reducible apply C.steepReadyNow
    | with_reducible apply C.retireEngine | with_reducible apply C.bootB3 | with_reducible apply C.bootB2
    | with_reducible apply C.bootB4 | with_reducible apply C.bootB5 | with_reducible apply C.bootB6
    | with_reducible apply C.bootB7 | with_reducible apply C.bootB8 | with_reducible apply C.bootB9
    | with_reducible apply C.bootB10 | with_reducible apply C.trainFound | with_reducible apply C.bootB11 | split
    | with_reducible refine C.same (fun h => h) (fun h => h) (fun h => h) (fun h => h) (fun h => h) (fun h => h) (fun h => h) (fun h => h) (fun h => h) (fun h => h) (fun h => h) ?_
    | with_reducible refine C.same ?_ ?_ ?_ ?_ ?_ ?_ ?_ ?_ ?_ ?_ ?_ ?_ | exact fun h => h | intro _

theorem Stable.bootStep {P : State → Prop} (C : Stable P) {s : State} (n : Nat) (ok : Bool) (cause ms : Nat) (f : BootFound) (hP : P s) :
    P (State.bootStep s n ok cause ms f) := by
  unfold State.bootStep
  repeat' first
    | with_reducible assumption | with_reducible apply pres_ite | with_reducible apply C.failStart
    | with_reducible apply C.findFields | with_reducible apply C.bootDone

end Sys2Proof.Machine
end

