-- ==== Sys2Proof/Laws/Stable/Steep.lean ====
section
/-!
SUPPORT. Laws/Stable/Steep.lean: what the operations of Machine/Steep.lean keep (Laws/Stable.lean).
-/

namespace Sys2Proof.Machine

set_option Elab.async false
set_option linter.unusedTactic false
set_option linter.unreachableTactic false

theorem Stable.bulkBegin {P : State → Prop} (C : Stable P) {s : State}  (hP : P s) :
    P (State.bulkBegin s) := by
  unfold State.bulkBegin
  repeat' first
    | with_reducible assumption | with_reducible apply pres_ite | with_reducible apply C.wr

theorem Stable.bulkDelay {P : State → Prop} (C : Stable P) {s : State}  (hP : P s) :
    P (State.bulkDelay s) := by
  unfold State.bulkDelay
  repeat' first
    | with_reducible assumption | with_reducible apply pres_ite | with_reducible apply C.bulkBegin
    | with_reducible refine C.same (fun h => h) (fun h => h) (fun h => h) (fun h => h) (fun h => h) (fun h => h) (fun h => h) (fun h => h) (fun h => h) (fun h => h) (fun h => h) ?_
    | with_reducible refine C.same ?_ ?_ ?_ ?_ ?_ ?_ ?_ ?_ ?_ ?_ ?_ ?_ | exact fun h => h

theorem Stable.fillLost {P : State → Prop} (C : Stable P) {s : State} (g : Nat) (hP : P s) :
    P (State.fillLost s g) := by
  unfold State.fillLost
  repeat' first
    | with_reducible assumption | with_reducible apply C.detect | with_reducible apply C.fillGranule

theorem Stable.fillLoses {P : State → Prop} (C : Stable P) {s : State} (g : Nat) (hP : P s) :
    P (State.fillLoses s g) := by
  unfold State.fillLoses
  repeat' first
    | with_reducible assumption | with_reducible apply C.inc | with_reducible apply C.loseGranule
    | with_reducible apply C.fillLost

theorem Stable.loadPage {P : State → Prop} (C : Stable P) {s : State} (r mapStep : Nat) (hP : P s) :
    P (State.loadPage s r mapStep) := by
  unfold State.loadPage
  repeat' first
    | with_reducible assumption | with_reducible apply pres_cond | with_reducible apply pres_ite
    | with_reducible apply C.addSat | with_reducible apply C.bump | with_reducible apply C.showMap
    | with_reducible apply C.ladder | with_reducible apply C.pageLost
    | with_reducible refine C.same (fun h => h) (fun h => h) (fun h => h) (fun h => h) (fun h => h) (fun h => h) (fun h => h) (fun h => h) (fun h => h) (fun h => h) (fun h => h) ?_
    | with_reducible refine C.same ?_ ?_ ?_ ?_ ?_ ?_ ?_ ?_ ?_ ?_ ?_ ?_ | exact fun h => h
    | (intro h; simp only [List.length_map]; exact h) | intro _

theorem Stable.fillBy {P : State → Prop} (C : Stable P) {s : State} (g mapStep step busy : Nat) (demand : Bool) (hP : P s) :
    P (State.fillBy s g mapStep step busy demand) := by
  unfold State.fillBy
  repeat' first
    | with_reducible assumption | with_reducible apply pres_cond | with_reducible apply pres_ite
    | with_reducible apply C.inc | with_reducible apply C.bump | with_reducible apply C.detect
    | with_reducible apply C.setCond | with_reducible apply C.fillGranule | with_reducible apply C.mediaEvent
    | with_reducible apply C.ladder | with_reducible apply C.fillLost | with_reducible apply C.fillLoses
    | with_reducible apply C.loadPage | split
    | with_reducible refine C.same (fun h => h) (fun h => h) (fun h => h) (fun h => h) (fun h => h) (fun h => h) (fun h => h) (fun h => h) (fun h => h) (fun h => h) (fun h => h) ?_
    | with_reducible refine C.same ?_ ?_ ?_ ?_ ?_ ?_ ?_ ?_ ?_ ?_ ?_ ?_ | exact fun h => h | exact fun _ => rfl
    | exact fun _ => Nat.zero_le _ | intro _

theorem Stable.fillLatency {P : State → Prop} (C : Stable P) {s : State} (us : Nat) (hP : P s) :
    P (State.fillLatency s us) := by
  unfold State.fillLatency
  repeat' first
    | with_reducible assumption | with_reducible apply C.bump | with_reducible apply C.wr
    | with_reducible refine C.same (fun h => h) (fun h => h) (fun h => h) (fun h => h) (fun h => h) (fun h => h) (fun h => h) (fun h => h) (fun h => h) (fun h => h) (fun h => h) ?_
    | with_reducible refine C.same ?_ ?_ ?_ ?_ ?_ ?_ ?_ ?_ ?_ ?_ ?_ ?_ | exact fun h => h

theorem Stable.fillOne {P : State → Prop} (C : Stable P) {s : State} (w : SlotWait) (hP : P s) :
    P (State.fillOne s w) := by
  unfold State.fillOne
  repeat' first
    | with_reducible assumption | with_reducible apply pres_cond | with_reducible apply C.endFill
    | with_reducible apply C.retireRefilled | with_reducible apply C.fillBy | with_reducible apply C.fillLatency
    | intro _

theorem Stable.waitSlot {P : State → Prop} (C : Stable P) {s : State} (w : SlotWait) (hP : P s) :
    P (State.waitSlot s w) := by
  unfold State.waitSlot
  repeat' first
    | with_reducible assumption | with_reducible apply pres_ite | with_reducible apply C.inc
    | with_reducible apply C.detect
    | with_reducible refine C.same (fun h => h) (fun h => h) (fun h => h) (fun h => h) (fun h => h) (fun h => h) (fun h => h) (fun h => h) (fun h => h) (fun h => h) (fun h => h) ?_
    | with_reducible refine C.same ?_ ?_ ?_ ?_ ?_ ?_ ?_ ?_ ?_ ?_ ?_ ?_ | exact fun h => h | intro _

theorem Stable.runWaits {P : State → Prop} (C : Stable P) {s : State}  (hP : P s) :
    P (State.runWaits s) := by
  unfold State.runWaits
  repeat' first
    | with_reducible assumption | with_reducible apply pres_ite | with_reducible apply pres_foldl
    | with_reducible apply C.fillOne
    | with_reducible refine C.same (fun h => h) (fun h => h) (fun h => h) (fun h => h) (fun h => h) (fun h => h) (fun h => h) (fun h => h) (fun h => h) (fun h => h) (fun h => h) ?_
    | with_reducible refine C.same ?_ ?_ ?_ ?_ ?_ ?_ ?_ ?_ ?_ ?_ ?_ ?_ | exact fun h => h
    | (intro h; exact Nat.le_trans (List.length_filter_le _ _) h) | intro _

theorem Stable.demandDone {P : State → Prop} (C : Stable P) {s : State} (w : SlotWait) (hP : P s) :
    P (State.demandDone s w) := by
  unfold State.demandDone
  repeat' first
    | with_reducible assumption | with_reducible apply pres_ite | with_reducible apply C.steepCheck
    | with_reducible apply C.fillOne | with_reducible apply C.waitSlot | with_reducible apply C.runWaits | intro _

theorem Stable.ceiling {P : State → Prop} (C : Stable P) {s : State} (port tag : Nat) (hP : P s) :
    P (State.ceiling s port tag) := by
  unfold State.ceiling
  repeat' first
    | with_reducible assumption | with_reducible apply pres_cond | with_reducible apply pres_ite
    | with_reducible apply C.inc | with_reducible apply C.detect | with_reducible apply C.respond
    | with_reducible refine C.same (fun h => h) (fun h => h) (fun h => h) (fun h => h) (fun h => h) (fun h => h) (fun h => h) (fun h => h) (fun h => h) (fun h => h) (fun h => h) ?_
    | with_reducible refine C.same ?_ ?_ ?_ ?_ ?_ ?_ ?_ ?_ ?_ ?_ ?_ ?_ | exact fun h => h
    | (intro h; simp only [List.length_map]; exact h) | (intro h; exact Nat.le_trans (List.length_filter_le _ _) h)
    | intro _

theorem Stable.bulkTake {P : State → Prop} (C : Stable P) {s : State}  (hP : P s) :
    P (State.bulkTake s) := by
  unfold State.bulkTake
  repeat' first
    | with_reducible assumption | with_reducible apply pres_ite
    | with_reducible refine C.same (fun h => h) (fun h => h) (fun h => h) (fun h => h) (fun h => h) (fun h => h) (fun h => h) (fun h => h) (fun h => h) (fun h => h) (fun h => h) ?_
    | with_reducible refine C.same ?_ ?_ ?_ ?_ ?_ ?_ ?_ ?_ ?_ ?_ ?_ ?_ | exact fun h => h
    | (intro h; exact Nat.le_trans (List.length_filter_le _ _) h) | intro _

theorem Stable.bulkRate {P : State → Prop} (C : Stable P) {s : State}  (hP : P s) :
    P (State.bulkRate s) := by
  unfold State.bulkRate
  repeat' first
    | with_reducible assumption | with_reducible apply C.wr | split
    | with_reducible refine C.same (fun h => h) (fun h => h) (fun h => h) (fun h => h) (fun h => h) (fun h => h) (fun h => h) (fun h => h) (fun h => h) (fun h => h) (fun h => h) ?_
    | with_reducible refine C.same ?_ ?_ ?_ ?_ ?_ ?_ ?_ ?_ ?_ ?_ ?_ ?_ | exact fun h => h
    | (intro h; exact Nat.le_trans (List.length_filter_le _ _) h) | intro _

theorem Stable.bulkFill {P : State → Prop} (C : Stable P) {s : State} (mapStep step busy : Nat) (hP : P s) :
    P (State.bulkFill s mapStep step busy) := by
  unfold State.bulkFill
  repeat' first
    | with_reducible assumption | with_reducible apply pres_ite | with_reducible apply C.showSteep
    | with_reducible apply C.steepCheck | with_reducible apply C.fillOne | with_reducible apply C.waitSlot
    | with_reducible apply C.runWaits | with_reducible apply C.bulkTake | with_reducible apply C.bulkRate | split
    | with_reducible refine C.same (fun h => h) (fun h => h) (fun h => h) (fun h => h) (fun h => h) (fun h => h) (fun h => h) (fun h => h) (fun h => h) (fun h => h) (fun h => h) ?_
    | with_reducible refine C.same ?_ ?_ ?_ ?_ ?_ ?_ ?_ ?_ ?_ ?_ ?_ ?_ | exact fun h => h

end Sys2Proof.Machine
end

