-- ==== Sys2Proof/Laws/Stable/Queues.lean ====
section
/-!
SUPPORT. Laws/Stable/Queues.lean: what the operations of Machine/Queues.lean keep (Laws/Stable.lean).
-/

namespace Sys2Proof.Machine

set_option Elab.async false
set_option linter.unusedTactic false
set_option linter.unreachableTactic false

theorem Stable.byOwner {P : State → Prop} (C : Stable P) {s : State} (p q : Nat) (f : State → State) (hf : ∀ t, P t → P (f t)) (hP : P s) :
    P (State.byOwner s p q f) := by
  unfold State.byOwner
  repeat' first
    | with_reducible assumption | with_reducible apply pres_ite | with_reducible apply C.reject
    | with_reducible apply C.restExit | with_reducible apply hf | intro _

theorem Stable.badDoorbell {P : State → Prop} (C : Stable P) {s : State} (q : Nat) (hP : P s) :
    P (State.badDoorbell s q) := by
  unfold State.badDoorbell
  repeat' first
    | with_reducible assumption | with_reducible apply C.detect | with_reducible apply C.faultQueue

theorem Stable.sqTail {P : State → Prop} (C : Stable P) {s : State} (q tail : Nat) (hP : P s) :
    P (State.sqTail s q tail) := by
  unfold State.sqTail
  repeat' first
    | with_reducible assumption | with_reducible apply pres_ite | with_reducible apply C.setQueue
    | with_reducible apply C.badDoorbell
    | with_reducible refine C.same (fun h => h) (fun h => h) (fun h => h) (fun h => h) (fun h => h) (fun h => h) (fun h => h) (fun h => h) (fun h => h) (fun h => h) (fun h => h) ?_
    | with_reducible refine C.same ?_ ?_ ?_ ?_ ?_ ?_ ?_ ?_ ?_ ?_ ?_ ?_ | exact fun h => h

theorem Stable.cqHead {P : State → Prop} (C : Stable P) {s : State} (q head : Nat) (hP : P s) :
    P (State.cqHead s q head) := by
  unfold State.cqHead
  repeat' first
    | with_reducible assumption | with_reducible apply pres_ite | with_reducible apply C.setQueue
    | with_reducible apply C.startQueue | with_reducible apply C.settleQueue | with_reducible apply C.releaseHeld
    | with_reducible apply C.badDoorbell
    | with_reducible refine C.same (fun h => h) (fun h => h) (fun h => h) (fun h => h) (fun h => h) (fun h => h) (fun h => h) (fun h => h) (fun h => h) (fun h => h) (fun h => h) ?_
    | with_reducible refine C.same ?_ ?_ ?_ ?_ ?_ ?_ ?_ ?_ ?_ ?_ ?_ ?_ | exact fun h => h

theorem Stable.postRecord {P : State → Prop} (C : Stable P) {s : State} (q : Nat) (hP : P s) :
    P (State.postRecord s q) := by
  unfold State.postRecord
  repeat' first
    | with_reducible assumption | with_reducible apply pres_ite | with_reducible apply C.setQueue
    | with_reducible apply C.postCompletion | split
    | with_reducible refine C.same (fun h => h) (fun h => h) (fun h => h) (fun h => h) (fun h => h) (fun h => h) (fun h => h) (fun h => h) (fun h => h) (fun h => h) (fun h => h) ?_
    | with_reducible refine C.same ?_ ?_ ?_ ?_ ?_ ?_ ?_ ?_ ?_ ?_ ?_ ?_ | exact fun h => h

theorem Stable.enableQueue {P : State → Prop} (C : Stable P) {s : State} (p q : Nat) (hP : P s) :
    P (State.enableQueue s p q) := by
  unfold State.enableQueue
  repeat' first
    | with_reducible assumption | with_reducible apply pres_ite | with_reducible apply C.reject
    | with_reducible apply C.setQueue | with_reducible apply C.showQueues | with_reducible apply C.sqTail
    | with_reducible apply C.cqHead | with_reducible apply C.postRecord
    | with_reducible refine C.same (fun h => h) (fun h => h) (fun h => h) (fun h => h) (fun h => h) (fun h => h) (fun h => h) (fun h => h) (fun h => h) (fun h => h) (fun h => h) ?_
    | with_reducible refine C.same ?_ ?_ ?_ ?_ ?_ ?_ ?_ ?_ ?_ ?_ ?_ ?_ | exact fun h => h | exact fun _ => rfl
    | exact fun _ => Nat.zero_le _

theorem Stable.dropRecord {P : State → Prop} (C : Stable P) {s : State} (q : Nat) (hP : P s) :
    P (State.dropRecord s q) := by
  unfold State.dropRecord
  repeat' first
    | with_reducible assumption | with_reducible apply C.setQueue | with_reducible apply C.showQueues
    | with_reducible refine C.same (fun h => h) (fun h => h) (fun h => h) (fun h => h) (fun h => h) (fun h => h) (fun h => h) (fun h => h) (fun h => h) (fun h => h) (fun h => h) ?_
    | with_reducible refine C.same ?_ ?_ ?_ ?_ ?_ ?_ ?_ ?_ ?_ ?_ ?_ ?_ | exact fun h => h

theorem Stable.fetchDesc {P : State → Prop} (C : Stable P) {s : State} (d : Desc) (hP : P s) :
    P (State.fetchDesc s d) := by
  unfold State.fetchDesc
  repeat' first
    | with_reducible assumption | with_reducible apply pres_ite | with_reducible apply C.setQueue
    | with_reducible apply C.useContext | with_reducible apply C.served | with_reducible apply C.startQueue | split
    | with_reducible refine C.same (fun h => h) (fun h => h) (fun h => h) (fun h => h) (fun h => h) (fun h => h) (fun h => h) (fun h => h) (fun h => h) (fun h => h) (fun h => h) ?_
    | with_reducible refine C.same ?_ ?_ ?_ ?_ ?_ ?_ ?_ ?_ ?_ ?_ ?_ ?_ | exact fun h => h

theorem Stable.dmaFails {P : State → Prop} (C : Stable P) {s : State} (q kind : Nat) (hP : P s) :
    P (State.dmaFails s q kind) := by
  unfold State.dmaFails
  repeat' first
    | with_reducible assumption | with_reducible apply pres_ite | with_reducible apply C.detect
    | with_reducible apply C.faultQueue

theorem Stable.runElem {P : State → Prop} (C : Stable P) {s : State} (q cid op : Nat) (f : State → RunCmd → Desc → State)
    (hf : ∀ t k d, P t → P (f t k d)) (hP : P s) : P (s.runElem q cid op f) := by
  unfold State.runElem
  split
  · exact hP
  · split
    · exact hP
    · exact pres_ite (hf _ _ _ hP) hP

theorem Stable.advance {P : State → Prop} (C : Stable P) {s : State} (q : Nat) (k : RunCmd) (d : Desc) (upTo n : Nat) (hP : P s) :
    P (State.advance s q k d upTo n) := by
  unfold State.advance
  repeat' first
    | with_reducible assumption | with_reducible apply pres_ite | with_reducible apply C.setCmd
    | with_reducible refine C.same (fun h => h) (fun h => h) (fun h => h) (fun h => h) (fun h => h) (fun h => h) (fun h => h) (fun h => h) (fun h => h) (fun h => h) (fun h => h) ?_
    | with_reducible refine C.same ?_ ?_ ?_ ?_ ?_ ?_ ?_ ?_ ?_ ?_ ?_ ?_ | exact fun h => h

theorem Stable.runNop {P : State → Prop} (C : Stable P) {s : State} (q cid : Nat) (hP : P s) :
    P (State.runNop s q cid) := by
  unfold State.runNop
  repeat' first
    | with_reducible assumption | with_reducible apply C.runElem | with_reducible apply C.advance | intro _

theorem Stable.fenceCopies {P : State → Prop} (C : Stable P) {s : State} (q n : Nat) (left : RSet) (hP : P s) :
    P (State.fenceCopies s q n left) := by
  unfold State.fenceCopies
  repeat' first
    | with_reducible assumption | with_reducible apply pres_ite | with_reducible apply pres_foldl
    | with_reducible apply C.raiseFill | with_reducible apply C.startCopy | intro _

theorem Stable.runFence {P : State → Prop} (C : Stable P) {s : State} (q cid n : Nat) (hP : P s) :
    P (State.runFence s q cid n) := by
  unfold State.runFence
  repeat' first
    | with_reducible assumption | with_reducible apply pres_ite | with_reducible apply C.setCmd
    | with_reducible apply C.runElem | with_reducible apply C.fenceCopies | intro _

theorem Stable.putGranule {P : State → Prop} (C : Stable P) {s : State} (g : Nat) (data : Memory) (poison : LineMask) (hP : P s) :
    P (s.putGranule g data poison) := by
  unfold State.putGranule
  dsimp only
  refine pres_each ?_ (fun t l ht => pres_ite (C.setPoison _ _ _ ht) ht)
  exact C.same (fun h => h) (fun h => h) (fun h => h) (fun h => Memory.wf_paste _ _ _ h) (fun h => h) (fun h => h) (fun h => h) (fun h => h) (fun h => h) (fun h => h) (fun h => h) (C.maskAll _ (C.wrote _ hP))

theorem Stable.holdDst {P : State → Prop} (C : Stable P) {s : State} (g : Nat) (hP : P s) :
    P (State.holdDst s g) := by
  unfold State.holdDst
  repeat' first
    | with_reducible assumption | with_reducible apply pres_cond | with_reducible apply C.inc
    | with_reducible apply C.detect | with_reducible apply C.raiseFill | intro _

theorem Stable.copyRun {P : State → Prop} (C : Stable P) {s : State} (src dst : Nat) (found : List (Nat × Ecc)) (full : List Nat)
    (hP : P s) : ∀ j k, P (s.copyRun src dst found full j k).1 := by
  intro j k
  induction k generalizing s j with
  | zero => exact hP
  | succ k ih =>
    unfold State.copyRun
    refine pres_ite_fst (C.raiseFill _ _ hP) (pres_ite_fst (C.holdDst _ hP) ?_)
    exact ih (C.putGranule _ _ _ (C.copyErrors _ _ hP)) _


theorem Stable.runCopy {P : State → Prop} (C : Stable P) {s : State} (q cid n : Nat) (found : List (Nat × Ecc)) (full : List Nat) (hP : P s) :
    P (State.runCopy s q cid n found full) := by
  unfold State.runCopy
  repeat' first
    | with_reducible assumption | with_reducible apply C.runElem | with_reducible apply C.advance
    | with_reducible apply C.copyRun
    | with_reducible refine C.same (fun h => h) (fun h => h) (fun h => h) (fun h => h) (fun h => h) (fun h => h) (fun h => h) (fun h => h) (fun h => h) (fun h => h) (fun h => h) ?_
    | with_reducible refine C.same ?_ ?_ ?_ ?_ ?_ ?_ ?_ ?_ ?_ ?_ ?_ ?_ | exact fun h => h | intro _

theorem Stable.zeroRun {P : State → Prop} (C : Stable P) {s : State} (dst : Nat) (full : List Nat) (hP : P s) :
    ∀ j k, P (s.zeroRun dst full j k).1 := by
  intro j k
  induction k generalizing s j with
  | zero => exact hP
  | succ k ih =>
    unfold State.zeroRun
    exact pres_ite_fst (C.holdDst _ hP) (ih (C.putGranule _ _ _ hP) _)


theorem Stable.runZero {P : State → Prop} (C : Stable P) {s : State} (q cid n : Nat) (full : List Nat) (hP : P s) :
    P (State.runZero s q cid n full) := by
  unfold State.runZero
  repeat' first
    | with_reducible assumption | with_reducible apply C.runElem | with_reducible apply C.advance
    | with_reducible apply C.zeroRun | intro _

theorem Stable.runPin {P : State → Prop} (C : Stable P) {s : State} (q cid : Nat) (hP : P s) :
    P (State.runPin s q cid) := by
  unfold State.runPin
  repeat' first
    | with_reducible assumption | with_reducible apply pres_ite | with_reducible apply C.detect
    | with_reducible apply C.setCmd | with_reducible apply C.runElem | with_reducible apply C.advance
    | with_reducible apply C.wr
    | with_reducible refine C.same (fun h => h) (fun h => h) (fun h => h) (fun h => h) (fun h => h) (fun h => h) (fun h => h) (fun h => h) (fun h => h) (fun h => h) (fun h => h) ?_
    | with_reducible refine C.same ?_ ?_ ?_ ?_ ?_ ?_ ?_ ?_ ?_ ?_ ?_ ?_ | exact fun h => h | intro _

theorem Stable.hintRegion {P : State → Prop} (C : Stable P) {s : State} (r : Nat) (hP : P s) : P (s.hintRegion r).1 := by
  unfold State.hintRegion
  simp only
  refine pres_ite_fst ?_ hP
  split
  · exact C.detect _ _ (C.inc _ hP)
  · rename_i hl
    refine C.wr _ (C.same (fun h => h) (fun h => h) (fun h => h) (fun h => h) (fun h => h) (fun h => h) (fun h => h) (fun _ => ?_) (fun h => h) (fun h => h) (fun h => h) hP)
    simp only [List.length_append, List.length_cons, List.length_nil]
    omega

theorem Stable.setLevel {P : State → Prop} (C : Stable P) {s : State} (r v : Nat) (hP : P s) :
    P (State.setLevel s r v) := by
  unfold State.setLevel
  repeat' first
    | with_reducible assumption
    | with_reducible refine C.same (fun h => h) (fun h => h) (fun h => h) (fun h => h) (fun h => h) (fun h => h) (fun h => h) (fun h => h) (fun h => h) (fun h => h) (fun h => h) ?_
    | with_reducible refine C.same ?_ ?_ ?_ ?_ ?_ ?_ ?_ ?_ ?_ ?_ ?_ ?_ | exact fun h => h | exact NMap.wf_set _ _

theorem Stable.runHint {P : State → Prop} (C : Stable P) {s : State} (q cid n : Nat) (hP : P s) : P (s.runHint q cid n) := by
  unfold State.runHint
  refine C.runElem _ _ _ _ (fun t k d ht => ?_) hP
  exact C.advance _ _ _ _ _ (pres_foldl_fst ht (fun u i hu => C.hintRegion _ (C.setLevel _ _ hu)))

theorem Stable.cleanDrop {P : State → Prop} (C : Stable P) {s : State} (lo hi : Nat) (hP : P s) :
    P (State.cleanDrop s lo hi) := by
  unfold State.cleanDrop
  repeat' first
    | with_reducible assumption | with_reducible apply C.cleanRange | with_reducible apply C.dropCopies
    | with_reducible apply C.fenceClean

theorem Stable.runDiscard {P : State → Prop} (C : Stable P) {s : State} (q cid n : Nat) (hP : P s) :
    P (State.runDiscard s q cid n) := by
  unfold State.runDiscard
  repeat' first
    | with_reducible assumption | with_reducible apply pres_cond | with_reducible apply C.releaseEntries
    | with_reducible apply C.runElem | with_reducible apply C.advance | with_reducible apply C.cleanDrop | intro _

theorem Stable.setVolatile {P : State → Prop} (C : Stable P) {s : State} (lo hi : Nat) (on : Bool) (hP : P s) :
    P (State.setVolatile s lo hi on) := by
  unfold State.setVolatile
  repeat' first
    | with_reducible assumption | with_reducible apply pres_ite | with_reducible apply pres_foldl
    | with_reducible apply C.markRange | with_reducible apply C.releaseEntries | with_reducible apply C.cleanDrop
    | with_reducible refine C.same (fun h => h) (fun h => h) (fun h => h) (fun h => h) (fun h => h) (fun h => h) (fun h => h) (fun h => h) (fun h => h) (fun h => h) (fun h => h) ?_
    | with_reducible refine C.same ?_ ?_ ?_ ?_ ?_ ?_ ?_ ?_ ?_ ?_ ?_ ?_ | exact fun h => h | intro _

theorem Stable.runVolatile {P : State → Prop} (C : Stable P) {s : State} (q cid : Nat) (hP : P s) :
    P (State.runVolatile s q cid) := by
  unfold State.runVolatile
  repeat' first
    | with_reducible assumption | with_reducible apply pres_ite | with_reducible apply C.detect
    | with_reducible apply C.setCmd | with_reducible apply C.runElem | with_reducible apply C.advance
    | with_reducible apply C.setVolatile
    | with_reducible refine C.same (fun h => h) (fun h => h) (fun h => h) (fun h => h) (fun h => h) (fun h => h) (fun h => h) (fun h => h) (fun h => h) (fun h => h) (fun h => h) ?_
    | with_reducible refine C.same ?_ ?_ ?_ ?_ ?_ ?_ ?_ ?_ ?_ ?_ ?_ ?_ | exact fun h => h | intro _

theorem Stable.runQuery {P : State → Prop} (C : Stable P) {s : State} (q cid : Nat) (ok : Bool) (hP : P s) :
    P (State.runQuery s q cid ok) := by
  unfold State.runQuery
  repeat' first
    | with_reducible assumption | with_reducible apply pres_ite | with_reducible apply C.send
    | with_reducible apply C.setCmd | with_reducible apply C.runElem | with_reducible apply C.advance | intro _

theorem Stable.fenceStats {P : State → Prop} (C : Stable P) {s : State} (st us : Nat) (hP : P s) :
    P (State.fenceStats s st us) := by
  unfold State.fenceStats
  repeat' first
    | with_reducible assumption | with_reducible apply pres_cond | with_reducible apply C.inc
    | with_reducible apply C.detect | with_reducible apply C.wr
    | with_reducible refine C.same (fun h => h) (fun h => h) (fun h => h) (fun h => h) (fun h => h) (fun h => h) (fun h => h) (fun h => h) (fun h => h) (fun h => h) (fun h => h) ?_
    | with_reducible refine C.same ?_ ?_ ?_ ?_ ?_ ?_ ?_ ?_ ?_ ?_ ?_ ?_ | exact fun h => h | intro _

theorem Stable.commandDone {P : State → Prop} (C : Stable P) {s : State} (q cid us : Nat) (hP : P s) :
    P (State.commandDone s q cid us) := by
  unfold State.commandDone
  repeat' first
    | with_reducible assumption | with_reducible apply pres_cond | with_reducible apply pres_ite
    | with_reducible apply C.complete | with_reducible apply C.fenceStats | split
    | with_reducible refine C.same (fun h => h) (fun h => h) (fun h => h) (fun h => h) (fun h => h) (fun h => h) (fun h => h) (fun h => h) (fun h => h) (fun h => h) (fun h => h) ?_
    | with_reducible refine C.same ?_ ?_ ?_ ?_ ?_ ?_ ?_ ?_ ?_ ?_ ?_ ?_ | exact fun h => h | intro _

theorem Stable.coalesce {P : State → Prop} (C : Stable P) {s : State} (port vec : Nat) (hP : P s) :
    P (State.coalesce s port vec) := by
  unfold State.coalesce
  repeat' first
    | with_reducible assumption | with_reducible apply pres_ite | with_reducible apply C.msix
    | with_reducible refine C.same (fun h => h) (fun h => h) (fun h => h) (fun h => h) (fun h => h) (fun h => h) (fun h => h) (fun h => h) (fun h => h) (fun h => h) (fun h => h) ?_
    | with_reducible refine C.same ?_ ?_ ?_ ?_ ?_ ?_ ?_ ?_ ?_ ?_ ?_ ?_ | exact fun h => h | exact NMap.wf_set _ _

theorem Stable.chainLate {P : State → Prop} (C : Stable P) {s : State} (q : Nat) (hP : P s) :
    P (State.chainLate s q) := by
  unfold State.chainLate
  repeat' first
    | with_reducible assumption | with_reducible apply pres_ite | with_reducible apply C.setQueue
    | with_reducible apply C.sqTail
    | with_reducible refine C.same (fun h => h) (fun h => h) (fun h => h) (fun h => h) (fun h => h) (fun h => h) (fun h => h) (fun h => h) (fun h => h) (fun h => h) (fun h => h) ?_
    | with_reducible refine C.same ?_ ?_ ?_ ?_ ?_ ?_ ?_ ?_ ?_ ?_ ?_ ?_ | exact fun h => h
    | (intro h; simp only [List.length_map]; exact h) | intro _

end Sys2Proof.Machine
end

