-- ==== Sys2Proof/Laws/Stable/Racking.lean ====
section
/-!
SUPPORT. Laws/Stable/Racking.lean: what the operations of Machine/Racking.lean keep (Laws/Stable.lean).
-/

namespace Sys2Proof.Machine

set_option Elab.async false
set_option linter.unusedTactic false
set_option linter.unreachableTactic false

theorem Stable.rackFills {P : State → Prop} (C : Stable P) {s : State} (left : RSet) (hP : P s) :
    P (State.rackFills s left) := by
  unfold State.rackFills
  repeat' first
    | with_reducible assumption | with_reducible apply pres_cond | with_reducible apply pres_foldl
    | with_reducible apply C.raiseFill | intro _

theorem Stable.runRack {P : State → Prop} (C : Stable P) {s : State} (q cid op : Nat) (hP : P s) :
    P (State.runRack s q cid op) := by
  unfold State.runRack
  repeat' first
    | with_reducible assumption | with_reducible apply pres_cond | with_reducible apply pres_ite
    | with_reducible apply C.setCmd | with_reducible apply C.runElem | with_reducible apply C.rackFills | intro _

theorem Stable.passRegion {P : State → Prop} (C : Stable P) {s : State} (t r : Nat) (hP : P s) :
    P (State.passRegion s t r) := by
  unfold State.passRegion
  repeat' first
    | with_reducible assumption | with_reducible apply pres_ite
    | with_reducible refine C.same (fun h => h) (fun h => h) (fun h => h) (fun h => h) (fun h => h) (fun h => h) (fun h => h) (fun h => h) (fun h => h) (fun h => h) (fun h => h) ?_
    | with_reducible refine C.same ?_ ?_ ?_ ?_ ?_ ?_ ?_ ?_ ?_ ?_ ?_ ?_ | exact fun h => h

theorem Stable.readRegion {P : State → Prop} (C : Stable P) {s : State} (r : Nat) (found : List (Nat × Ecc)) (hP : P s) :
    P (s.readRegion r found).1 := by
  unfold State.readRegion
  exact pres_foldl_fst hP (fun t e ht => C.copyErrors _ _ ht)

theorem Stable.sendRegion {P : State → Prop} (C : Stable P) {s : State} (t r : Nat) (found : List (Nat × Ecc)) (hP : P s) :
    P (State.sendRegion s t r found) := by
  unfold State.sendRegion
  repeat' first
    | with_reducible assumption | with_reducible apply pres_ite | with_reducible apply pres_foldl
    | with_reducible apply C.setSends | with_reducible apply C.rackSent | with_reducible apply C.rackTo
    | with_reducible apply C.readRegion
    | with_reducible refine C.same (fun h => h) (fun h => h) (fun h => h) (fun h => h) (fun h => h) (fun h => h) (fun h => h) (fun h => h) (fun h => h) (fun h => h) (fun h => h) ?_
    | with_reducible refine C.same ?_ ?_ ?_ ?_ ?_ ?_ ?_ ?_ ?_ ?_ ?_ ?_ | exact fun h => h | exact fun _ => rfl
    | exact fun _ => Nat.zero_le _ | (intro h; simp only [List.length_map]; exact h)
    | (intro h; exact Nat.le_trans (List.length_filter_le _ _) h) | intro _

theorem Stable.showRackRate {P : State → Prop} (C : Stable P) {s : State} (t : Nat) (hP : P s) :
    P (State.showRackRate s t) := by
  unfold State.showRackRate
  repeat' first
    | with_reducible assumption | with_reducible apply pres_ite | with_reducible apply C.wr

theorem Stable.noteSent {P : State → Prop} (C : Stable P) {s : State} (t : Nat) (hP : P s) :
    P (State.noteSent s t) := by
  unfold State.noteSent
  repeat' first
    | with_reducible assumption | with_reducible apply C.showRackRate
    | with_reducible refine C.same (fun h => h) (fun h => h) (fun h => h) (fun h => h) (fun h => h) (fun h => h) (fun h => h) (fun h => h) (fun h => h) (fun h => h) (fun h => h) ?_
    | with_reducible refine C.same ?_ ?_ ?_ ?_ ?_ ?_ ?_ ?_ ?_ ?_ ?_ ?_ | exact fun h => h
    | (intro h; exact Nat.le_trans (List.length_filter_le _ _) h) | intro _

theorem Stable.sendStart {P : State → Prop} (C : Stable P) {s : State} (t r : Nat) (found : List (Nat × Ecc)) (hP : P s) :
    P (State.sendStart s t r found) := by
  unfold State.sendStart
  repeat' first
    | with_reducible assumption | with_reducible apply pres_cond | with_reducible apply pres_ite
    | with_reducible apply C.restCease | with_reducible apply C.passRegion | with_reducible apply C.sendRegion
    | with_reducible apply C.noteSent | intro _

theorem Stable.sendAgain {P : State → Prop} (C : Stable P) {s : State} (e : Send) (late : Bool) (hP : P s) :
    P (State.sendAgain s e late) := by
  unfold State.sendAgain
  repeat' first
    | with_reducible assumption | with_reducible apply pres_ite | with_reducible apply C.inc
    | with_reducible apply C.detect | with_reducible apply C.setSends | with_reducible apply C.wr
    | with_reducible refine C.same (fun h => h) (fun h => h) (fun h => h) (fun h => h) (fun h => h) (fun h => h) (fun h => h) (fun h => h) (fun h => h) (fun h => h) (fun h => h) ?_
    | with_reducible refine C.same ?_ ?_ ?_ ?_ ?_ ?_ ?_ ?_ ?_ ?_ ?_ ?_ | exact fun h => h
    | (intro h; simp only [List.length_map]; exact h) | intro _

theorem Stable.ackLate {P : State → Prop} (C : Stable P) {s : State} (t r : Nat) (hP : P s) :
    P (State.ackLate s t r) := by
  unfold State.ackLate
  repeat' first
    | with_reducible assumption | with_reducible apply pres_ite | with_reducible apply C.suspend
    | with_reducible apply C.sendAgain | split
    | with_reducible refine C.same (fun h => h) (fun h => h) (fun h => h) (fun h => h) (fun h => h) (fun h => h) (fun h => h) (fun h => h) (fun h => h) (fun h => h) (fun h => h) ?_
    | with_reducible refine C.same ?_ ?_ ?_ ?_ ?_ ?_ ?_ ?_ ?_ ?_ ?_ ?_ | exact fun h => h

theorem Stable.ackRx {P : State → Prop} (C : Stable P) {s : State} (t h r st : Nat) (hP : P s) :
    P (State.ackRx s t h r st) := by
  unfold State.ackRx
  repeat' first
    | with_reducible assumption | with_reducible apply pres_cond | with_reducible apply pres_ite
    | with_reducible apply C.inc | with_reducible apply C.setDebt | with_reducible apply C.setSends
    | with_reducible apply C.rackAcked | with_reducible apply C.refuse | with_reducible apply C.sendAgain
    | with_reducible apply C.wr | split
    | with_reducible refine C.same (fun h => h) (fun h => h) (fun h => h) (fun h => h) (fun h => h) (fun h => h) (fun h => h) (fun h => h) (fun h => h) (fun h => h) (fun h => h) ?_
    | with_reducible refine C.same ?_ ?_ ?_ ?_ ?_ ?_ ?_ ?_ ?_ ?_ ?_ ?_ | exact fun h => h
    | (intro h; exact Nat.le_trans (List.length_filter_le _ _) h) | intro _

theorem Stable.openRetry {P : State → Prop} (C : Stable P) {s : State} (t : Nat) (hP : P s) :
    P (State.openRetry s t) := by
  unfold State.openRetry
  repeat' first
    | with_reducible assumption | with_reducible apply pres_ite | with_reducible apply C.sendOpen
    | with_reducible apply C.openTarget

theorem Stable.replyRx {P : State → Prop} (C : Stable P) {s : State} (t st gen : Nat) (hP : P s) :
    P (State.replyRx s t st gen) := by
  unfold State.replyRx
  repeat' first
    | with_reducible assumption | with_reducible apply pres_ite | with_reducible apply C.refuse
    | with_reducible apply C.advanceGen | with_reducible apply C.sendOpen | with_reducible apply C.wr | split
    | with_reducible refine C.same (fun h => h) (fun h => h) (fun h => h) (fun h => h) (fun h => h) (fun h => h) (fun h => h) (fun h => h) (fun h => h) (fun h => h) (fun h => h) ?_
    | with_reducible refine C.same ?_ ?_ ?_ ?_ ?_ ?_ ?_ ?_ ?_ ?_ ?_ ?_ | exact fun h => h

theorem Stable.releasedRx {P : State → Prop} (C : Stable P) {s : State} (t : Nat) (hP : P s) :
    P (State.releasedRx s t) := by
  unfold State.releasedRx
  repeat' first
    | with_reducible assumption | with_reducible apply pres_ite | with_reducible apply C.abandonSends
    | with_reducible apply C.openTarget
    | with_reducible refine C.same (fun h => h) (fun h => h) (fun h => h) (fun h => h) (fun h => h) (fun h => h) (fun h => h) (fun h => h) (fun h => h) (fun h => h) (fun h => h) ?_
    | with_reducible refine C.same ?_ ?_ ?_ ?_ ?_ ?_ ?_ ?_ ?_ ?_ ?_ ?_ | exact fun h => h

theorem Stable.lostRx {P : State → Prop} (C : Stable P) {s : State} (t : Nat) (l : List Nat) (hP : P s) :
    P (State.lostRx s t l) := by
  unfold State.lostRx
  repeat' first
    | with_reducible assumption | with_reducible apply pres_foldl | with_reducible apply C.setDebt
    | with_reducible apply C.rackSettle | intro _

theorem Stable.guestDrop {P : State → Prop} (C : Stable P) {s : State}  (hP : P s) :
    P (State.guestDrop s) := by
  unfold State.guestDrop
  repeat' first
    | with_reducible assumption | with_reducible apply C.inc | with_reducible apply C.detect

theorem Stable.answerOpen {P : State → Prop} (C : Stable P) {s : State} (owner st slot gen committed : Nat) (hP : P s) :
    P (State.answerOpen s owner st slot gen committed) := by
  unfold State.answerOpen
  repeat' first
    | with_reducible assumption | with_reducible apply C.rackTo

theorem Stable.openRx {P : State → Prop} (C : Stable P) {s : State} (src owner gen size count : Nat) (hP : P s) :
    P (State.openRx s src owner gen size count) := by
  unfold State.openRx
  repeat' first
    | with_reducible assumption | with_reducible apply pres_cond | with_reducible apply pres_ite
    | with_reducible apply C.putGuest | with_reducible apply C.guestKeep | with_reducible apply C.guestDrop
    | with_reducible apply C.answerOpen | split
    | with_reducible refine C.same (fun h => h) (fun h => h) (fun h => h) (fun h => h) (fun h => h) (fun h => h) (fun h => h) (fun h => h) (fun h => h) (fun h => h) (fun h => h) ?_
    | with_reducible refine C.same ?_ ?_ ?_ ?_ ?_ ?_ ?_ ?_ ?_ ?_ ?_ ?_ | exact fun h => h | exact fun _ => rfl
    | exact fun _ => Nat.zero_le _ | (intro h; exact Nat.le_trans (List.length_filter_le _ _) h) | intro _

theorem Stable.rangesRx {P : State → Prop} (C : Stable P) {s : State} (src first : Nat) (l : List (Nat × Nat)) (hP : P s) :
    P (State.rangesRx s src first l) := by
  unfold State.rangesRx
  repeat' first
    | with_reducible assumption | with_reducible apply pres_ite | with_reducible apply C.putGuest
    | with_reducible apply C.guestKeep | with_reducible apply C.guestDrop | split
    | with_reducible refine C.same (fun h => h) (fun h => h) (fun h => h) (fun h => h) (fun h => h) (fun h => h) (fun h => h) (fun h => h) (fun h => h) (fun h => h) (fun h => h) ?_
    | with_reducible refine C.same ?_ ?_ ?_ ?_ ?_ ?_ ?_ ?_ ?_ ?_ ?_ ?_ | exact fun h => h

theorem Stable.ackTo {P : State → Prop} (C : Stable P) {s : State} (owner h region st : Nat) (hP : P s) :
    P (State.ackTo s owner h region st) := by
  unfold State.ackTo
  repeat' first
    | with_reducible assumption | with_reducible apply C.rackTo

theorem Stable.beginRx {P : State → Prop} (C : Stable P) {s : State} (src h gen region : Nat) (drop : Bool) (hP : P s) :
    P (State.beginRx s src h gen region drop) := by
  unfold State.beginRx
  repeat' first
    | with_reducible assumption | with_reducible apply pres_ite | with_reducible apply C.guestDrop
    | with_reducible apply C.ackTo | split
    | with_reducible refine C.same (fun h => h) (fun h => h) (fun h => h) (fun h => h) (fun h => h) (fun h => h) (fun h => h) (fun h => h) (fun h => h) (fun h => h) (fun h => h) ?_
    | with_reducible refine C.same ?_ ?_ ?_ ?_ ?_ ?_ ?_ ?_ ?_ ?_ ?_ ?_ | exact fun h => h
    | (intro h; exact Nat.le_trans (List.length_filter_le _ _) h) | intro _

theorem Stable.recvWith {P : State → Prop} (C : Stable P) {s : State} (src h : Nat) (f : Recv → Recv) (hP : P s) :
    P (State.recvWith s src h f) := by
  unfold State.recvWith
  repeat' first
    | with_reducible assumption | with_reducible apply pres_ite | with_reducible apply C.guestDrop | split
    | with_reducible refine C.same (fun h => h) (fun h => h) (fun h => h) (fun h => h) (fun h => h) (fun h => h) (fun h => h) (fun h => h) (fun h => h) (fun h => h) (fun h => h) ?_
    | with_reducible refine C.same ?_ ?_ ?_ ?_ ?_ ?_ ?_ ?_ ?_ ?_ ?_ ?_ | exact fun h => h
    | (intro h; simp only [List.length_map]; exact h) | intro _

theorem Stable.dataRx {P : State → Prop} (C : Stable P) {s : State} (src h off part : Nat) (data : Memory) (hP : P s) :
    P (State.dataRx s src h off part data) := by
  unfold State.dataRx
  repeat' first
    | with_reducible assumption | with_reducible apply pres_ite | with_reducible apply C.recvWith
    | with_reducible refine C.same (fun h => h) (fun h => h) (fun h => h) (fun h => h) (fun h => h) (fun h => h) (fun h => h) (fun h => h) (fun h => h) (fun h => h) (fun h => h) ?_
    | with_reducible refine C.same ?_ ?_ ?_ ?_ ?_ ?_ ?_ ?_ ?_ ?_ ?_ ?_ | exact fun h => h | exact Memory.wf_paste _ _ _
    | intro _

theorem Stable.poisonRx {P : State → Prop} (C : Stable P) {s : State} (src h off : Nat) (m : LineMask) (hP : P s) :
    P (State.poisonRx s src h off m) := by
  unfold State.poisonRx
  repeat' first
    | with_reducible assumption | with_reducible apply C.recvWith
    | with_reducible refine C.same (fun h => h) (fun h => h) (fun h => h) (fun h => h) (fun h => h) (fun h => h) (fun h => h) (fun h => h) (fun h => h) (fun h => h) (fun h => h) ?_
    | with_reducible refine C.same ?_ ?_ ?_ ?_ ?_ ?_ ?_ ?_ ?_ ?_ ?_ ?_ | exact fun h => h | intro _

theorem Stable.endRx {P : State → Prop} (C : Stable P) {s : State} (src h nData nPoison crc : Nat) (hP : P s) :
    P (State.endRx s src h nData nPoison crc) := by
  unfold State.endRx
  repeat' first
    | with_reducible assumption | with_reducible apply pres_ite | with_reducible apply C.guestDrop
    | with_reducible apply C.ackTo | with_reducible apply C.recvWith | split
    | with_reducible refine C.same (fun h => h) (fun h => h) (fun h => h) (fun h => h) (fun h => h) (fun h => h) (fun h => h) (fun h => h) (fun h => h) (fun h => h) (fun h => h) ?_
    | with_reducible refine C.same ?_ ?_ ?_ ?_ ?_ ?_ ?_ ?_ ?_ ?_ ?_ ?_ | exact fun h => h
    | (intro h; exact Nat.le_trans (List.length_filter_le _ _) h) | intro _

theorem Stable.guestCommit {P : State → Prop} (C : Stable P) {s : State} (slot region : Nat) (hP : P s) :
    P (State.guestCommit s slot region) := by
  unfold State.guestCommit
  repeat' first
    | with_reducible assumption | with_reducible apply pres_cond | with_reducible apply pres_ite
    | with_reducible apply C.countUsed | with_reducible apply C.countDone | with_reducible apply C.putGuest
    | with_reducible apply C.ackTo | split
    | with_reducible refine C.same (fun h => h) (fun h => h) (fun h => h) (fun h => h) (fun h => h) (fun h => h) (fun h => h) (fun h => h) (fun h => h) (fun h => h) (fun h => h) ?_
    | with_reducible refine C.same ?_ ?_ ?_ ?_ ?_ ?_ ?_ ?_ ?_ ?_ ?_ ?_ | exact fun h => h
    | (intro h; exact Nat.le_trans (List.length_filter_le _ _) h) | intro _

theorem Stable.releaseRx {P : State → Prop} (C : Stable P) {s : State} (src owner gen : Nat) (hP : P s) :
    P (State.releaseRx s src owner gen) := by
  unfold State.releaseRx
  repeat' first
    | with_reducible assumption | with_reducible apply pres_cond | with_reducible apply pres_ite
    | with_reducible apply C.dropGuest | with_reducible apply C.releasedRx | with_reducible apply C.guestDrop | split
    | with_reducible refine C.same (fun h => h) (fun h => h) (fun h => h) (fun h => h) (fun h => h) (fun h => h) (fun h => h) (fun h => h) (fun h => h) (fun h => h) (fun h => h) ?_
    | with_reducible refine C.same ?_ ?_ ?_ ?_ ?_ ?_ ?_ ?_ ?_ ?_ ?_ ?_ | exact fun h => h | intro _

theorem Stable.guestRelease {P : State → Prop} (C : Stable P) {s : State} (who : Requester) (hP : P s) :
    P (State.guestRelease s who) := by
  unfold State.guestRelease
  repeat' first
    | with_reducible assumption | with_reducible apply pres_ite | with_reducible apply C.detect
    | with_reducible apply C.reject | with_reducible apply C.rackTo | with_reducible apply C.dropGuest
    | with_reducible apply C.under | split
    | with_reducible refine C.same (fun h => h) (fun h => h) (fun h => h) (fun h => h) (fun h => h) (fun h => h) (fun h => h) (fun h => h) (fun h => h) (fun h => h) (fun h => h) ?_
    | with_reducible refine C.same ?_ ?_ ?_ ?_ ?_ ?_ ?_ ?_ ?_ ?_ ?_ ?_ | exact fun h => h | intro _

theorem Stable.rackRx {P : State → Prop} (C : Stable P) {s : State} (p : Packet) (hP : P s) :
    P (State.rackRx s p) := by
  unfold State.rackRx
  repeat' first
    | with_reducible assumption | with_reducible apply C.wake | with_reducible apply C.ackRx
    | with_reducible apply C.replyRx | with_reducible apply C.lostRx | with_reducible apply C.openRx
    | with_reducible apply C.rangesRx | with_reducible apply C.beginRx | with_reducible apply C.dataRx
    | with_reducible apply C.poisonRx | with_reducible apply C.endRx | with_reducible apply C.releaseRx | split
    | with_reducible refine C.same (fun h => h) (fun h => h) (fun h => h) (fun h => h) (fun h => h) (fun h => h) (fun h => h) (fun h => h) (fun h => h) (fun h => h) (fun h => h) ?_
    | with_reducible refine C.same ?_ ?_ ?_ ?_ ?_ ?_ ?_ ?_ ?_ ?_ ?_ ?_ | exact fun h => h | intro _

end Sys2Proof.Machine
end

