-- ==== Sys2Proof/Laws/Stable/Fabric.lean ====
section
/-!
SUPPORT. Laws/Stable/Fabric.lean: what the operations of Machine/Fabric.lean keep (Laws/Stable.lean).
-/

namespace Sys2Proof.Machine

set_option Elab.async false
set_option linter.unusedTactic false
set_option linter.unreachableTactic false

theorem Stable.onPort {P : State → Prop} (C : Stable P) {s : State} (n : Nat) (f : State → State) (hf : ∀ t, P t → P (f t)) (hP : P s) :
    P (State.onPort s n f) := by
  unfold State.onPort
  repeat' first
    | with_reducible assumption | with_reducible apply pres_ite | with_reducible apply hf | intro _

theorem Stable.exchange {P : State → Prop} (C : Stable P) {s : State} (n : Nat) (hP : P s) :
    P (State.exchange s n) := by
  unfold State.exchange
  repeat' first
    | with_reducible assumption | with_reducible apply pres_cond | with_reducible apply pres_ite
    | with_reducible apply pres_foldl | with_reducible apply C.sendOn | intro _

theorem Stable.mayTrain {P : State → Prop} (C : Stable P) {s : State} (n : Nat) (hP : P s) :
    P (State.mayTrain s n) := by
  unfold State.mayTrain
  repeat' first
    | with_reducible assumption | with_reducible apply pres_cond | with_reducible apply C.wr | intro _

theorem Stable.helloRx {P : State → Prop} (C : Stable P) {s : State} (n : Nat) (eui fnn port : Nat) (hr : Bool) (power : Nat) (hP : P s) :
    P (State.helloRx s n eui fnn port hr power) := by
  unfold State.helloRx
  repeat' first
    | with_reducible assumption | with_reducible apply pres_cond | with_reducible apply pres_ite
    | with_reducible apply C.setDport | with_reducible apply C.adjacency | with_reducible apply C.portFall
    | with_reducible apply C.exchange | with_reducible apply C.mayTrain | with_reducible apply C.wr
    | with_reducible refine C.same (fun h => h) (fun h => h) (fun h => h) (fun h => h) (fun h => h) (fun h => h) (fun h => h) (fun h => h) (fun h => h) (fun h => h) (fun h => h) ?_
    | with_reducible refine C.same ?_ ?_ ?_ ?_ ?_ ?_ ?_ ?_ ?_ ?_ ?_ ?_ | exact fun h => h | intro _

theorem Stable.checked {P : State → Prop} (C : Stable P) {s : State} (n : Nat) (p : Packet) (f : State → State) (hf : ∀ t, P t → P (f t)) (hP : P s) :
    P (State.checked s n p f) := by
  unfold State.checked
  repeat' first
    | with_reducible assumption | with_reducible apply pres_ite | with_reducible apply C.inc | with_reducible apply hf
    | intro _

theorem Stable.helloIn {P : State → Prop} (C : Stable P) {s : State} (n : Nat) (p : Packet) (hP : P s) :
    P (State.helloIn s n p) := by
  unfold State.helloIn
  repeat' first
    | with_reducible assumption | with_reducible apply C.helloRx | with_reducible apply C.checked | split
    | with_reducible refine C.same (fun h => h) (fun h => h) (fun h => h) (fun h => h) (fun h => h) (fun h => h) (fun h => h) (fun h => h) (fun h => h) (fun h => h) (fun h => h) ?_
    | with_reducible refine C.same ?_ ?_ ?_ ?_ ?_ ?_ ?_ ?_ ?_ ?_ ?_ ?_ | exact fun h => h | intro _

theorem Stable.hellosMissed {P : State → Prop} (C : Stable P) {s : State} (n : Nat) (hP : P s) :
    P (State.hellosMissed s n) := by
  unfold State.hellosMissed
  repeat' first
    | with_reducible assumption | with_reducible apply pres_cond | with_reducible apply C.addSat
    | with_reducible apply C.portFall | intro _

theorem Stable.laneWord {P : State → Prop} (C : Stable P) {s : State} (n lane used : Nat) (hP : P s) :
    P (State.laneWord s n lane used) := by
  unfold State.laneWord
  repeat' first
    | with_reducible assumption | with_reducible apply C.wr

theorem Stable.recordSpare {P : State → Prop} (C : Stable P) {s : State} (n lane : Nat) (hP : P s) :
    P (State.recordSpare s n lane) := by
  unfold State.recordSpare
  repeat' first
    | with_reducible assumption | with_reducible apply C.detect | with_reducible apply C.tlog
    | with_reducible apply C.occur | with_reducible apply C.wr

theorem Stable.showLanes {P : State → Prop} (C : Stable P) {s : State} (n lanes : Nat) (hP : P s) :
    P (State.showLanes s n lanes) := by
  unfold State.showLanes
  repeat' first
    | with_reducible assumption | with_reducible apply pres_cond | with_reducible apply C.detect
    | with_reducible apply C.wr | intro _

theorem Stable.replay {P : State → Prop} (C : Stable P) {s : State} (n pl : Nat) (hP : P s) :
    P (State.replay s n pl) := by
  unfold State.replay
  repeat' first
    | with_reducible assumption | with_reducible apply pres_foldl | with_reducible apply C.addSat
    | with_reducible apply C.send | intro _

theorem Stable.trained {P : State → Prop} (C : Stable P) {s : State} (n bad : Nat) (hP : P s) :
    P (State.trained s n bad) := by
  unfold State.trained
  repeat' first
    | with_reducible assumption | with_reducible apply pres_cond | with_reducible apply pres_ite
    | with_reducible apply C.setDport | with_reducible apply C.pump | with_reducible apply C.adjacency
    | with_reducible apply C.portFall | with_reducible apply C.exchange | with_reducible apply C.laneWord
    | with_reducible apply C.recordSpare | with_reducible apply C.showLanes | with_reducible apply C.replay
    | with_reducible apply C.wr
    | with_reducible refine C.same (fun h => h) (fun h => h) (fun h => h) (fun h => h) (fun h => h) (fun h => h) (fun h => h) (fun h => h) (fun h => h) (fun h => h) (fun h => h) ?_
    | with_reducible refine C.same ?_ ?_ ?_ ?_ ?_ ?_ ?_ ?_ ?_ ?_ ?_ ?_ | exact fun h => h
    | (intro h; exact Nat.le_trans (List.length_filter_le _ _) h) | intro _

theorem Stable.trainLate {P : State → Prop} (C : Stable P) {s : State} (n : Nat) (hP : P s) :
    P (State.trainLate s n) := by
  unfold State.trainLate
  repeat' first
    | with_reducible assumption | with_reducible apply pres_ite | with_reducible apply C.inc
    | with_reducible apply C.setDport | with_reducible apply C.wr
    | with_reducible refine C.same (fun h => h) (fun h => h) (fun h => h) (fun h => h) (fun h => h) (fun h => h) (fun h => h) (fun h => h) (fun h => h) (fun h => h) (fun h => h) ?_
    | with_reducible refine C.same ?_ ?_ ?_ ?_ ?_ ?_ ?_ ?_ ?_ ?_ ?_ ?_ | exact fun h => h

theorem Stable.trainRetry {P : State → Prop} (C : Stable P) {s : State} (n : Nat) (hP : P s) :
    P (State.trainRetry s n) := by
  unfold State.trainRetry
  repeat' first
    | with_reducible assumption | with_reducible apply pres_cond | with_reducible apply C.setDport
    | with_reducible apply C.mayTrain
    | with_reducible refine C.same (fun h => h) (fun h => h) (fun h => h) (fun h => h) (fun h => h) (fun h => h) (fun h => h) (fun h => h) (fun h => h) (fun h => h) (fun h => h) ?_
    | with_reducible refine C.same ?_ ?_ ?_ ?_ ?_ ?_ ?_ ?_ ?_ ?_ ?_ ?_ | exact fun h => h | intro _

theorem Stable.laneFail {P : State → Prop} (C : Stable P) {s : State} (n lane : Nat) (hP : P s) :
    P (State.laneFail s n lane) := by
  unfold State.laneFail
  repeat' first
    | with_reducible assumption | with_reducible apply pres_cond | with_reducible apply pres_ite
    | with_reducible apply C.setDport | with_reducible apply C.adjacency | with_reducible apply C.portFall
    | with_reducible apply C.laneWord | with_reducible apply C.recordSpare | with_reducible apply C.showLanes
    | with_reducible apply C.wr
    | with_reducible refine C.same (fun h => h) (fun h => h) (fun h => h) (fun h => h) (fun h => h) (fun h => h) (fun h => h) (fun h => h) (fun h => h) (fun h => h) (fun h => h) ?_
    | with_reducible refine C.same ?_ ?_ ?_ ?_ ?_ ?_ ?_ ?_ ?_ ?_ ?_ ?_ | exact fun h => h | intro _

theorem Stable.frameIn {P : State → Prop} (C : Stable P) {s : State} (n pl seq : Nat) (crcOk : Bool) (hP : P s) :
    P (State.frameIn s n pl seq crcOk) := by
  unfold State.frameIn
  repeat' first
    | with_reducible assumption | with_reducible apply pres_ite | with_reducible apply C.inc
    | with_reducible apply C.send | with_reducible apply C.setPlane
    | with_reducible refine C.same (fun h => h) (fun h => h) (fun h => h) (fun h => h) (fun h => h) (fun h => h) (fun h => h) (fun h => h) (fun h => h) (fun h => h) (fun h => h) ?_
    | with_reducible refine C.same ?_ ?_ ?_ ?_ ?_ ?_ ?_ ?_ ?_ ?_ ?_ ?_ | exact fun h => h

theorem Stable.ackIn {P : State → Prop} (C : Stable P) {s : State} (n pl seq : Nat) (hP : P s) :
    P (State.ackIn s n pl seq) := by
  unfold State.ackIn
  repeat' first
    | with_reducible assumption | with_reducible apply pres_ite | with_reducible apply C.setPlane
    | with_reducible apply C.pump
    | with_reducible refine C.same (fun h => h) (fun h => h) (fun h => h) (fun h => h) (fun h => h) (fun h => h) (fun h => h) (fun h => h) (fun h => h) (fun h => h) (fun h => h) ?_
    | with_reducible refine C.same ?_ ?_ ?_ ?_ ?_ ?_ ?_ ?_ ?_ ?_ ?_ ?_ | exact fun h => h

theorem Stable.nakIn {P : State → Prop} (C : Stable P) {s : State} (n pl seq : Nat) (hP : P s) :
    P (State.nakIn s n pl seq) := by
  unfold State.nakIn
  repeat' first
    | with_reducible assumption | with_reducible apply pres_ite | with_reducible apply C.detect
    | with_reducible apply C.setDport | with_reducible apply C.setPlane | with_reducible apply C.replay
    | with_reducible refine C.same (fun h => h) (fun h => h) (fun h => h) (fun h => h) (fun h => h) (fun h => h) (fun h => h) (fun h => h) (fun h => h) (fun h => h) (fun h => h) ?_
    | with_reducible refine C.same ?_ ?_ ?_ ?_ ?_ ?_ ?_ ?_ ?_ ?_ ?_ ?_ | exact fun h => h | intro _

theorem Stable.linkFrame {P : State → Prop} (C : Stable P) {s : State} (n pl kind seq : Nat) (crcOk : Bool) (hP : P s) :
    P (State.linkFrame s n pl kind seq crcOk) := by
  unfold State.linkFrame
  repeat' first
    | with_reducible assumption | with_reducible apply pres_cond | with_reducible apply pres_ite
    | with_reducible apply C.frameIn | with_reducible apply C.ackIn | with_reducible apply C.nakIn | split
    | with_reducible refine C.same (fun h => h) (fun h => h) (fun h => h) (fun h => h) (fun h => h) (fun h => h) (fun h => h) (fun h => h) (fun h => h) (fun h => h) (fun h => h) ?_
    | with_reducible refine C.same ?_ ?_ ?_ ?_ ?_ ?_ ?_ ?_ ?_ ?_ ?_ ?_ | exact fun h => h | intro _

theorem Stable.replayLate {P : State → Prop} (C : Stable P) {s : State} (n : Nat) (hP : P s) :
    P (State.replayLate s n) := by
  unfold State.replayLate
  repeat' first
    | with_reducible assumption | with_reducible apply pres_cond | with_reducible apply C.portFall | intro _

theorem Stable.firstClaim {P : State → Prop} (C : Stable P) {s : State}  (hP : P s) :
    P (State.firstClaim s) := by
  unfold State.firstClaim
  repeat' first
    | with_reducible assumption | with_reducible apply pres_cond | with_reducible apply C.claim | intro _

theorem Stable.claimEnd {P : State → Prop} (C : Stable P) {s : State}  (hP : P s) :
    P (State.claimEnd s) := by
  unfold State.claimEnd
  repeat' first
    | with_reducible assumption | with_reducible apply pres_ite | with_reducible apply C.adjacency
    | with_reducible apply C.firstClaim | with_reducible apply C.wr
    | with_reducible refine C.same (fun h => h) (fun h => h) (fun h => h) (fun h => h) (fun h => h) (fun h => h) (fun h => h) (fun h => h) (fun h => h) (fun h => h) (fun h => h) ?_
    | with_reducible refine C.same ?_ ?_ ?_ ?_ ?_ ?_ ?_ ?_ ?_ ?_ ?_ ?_ | exact fun h => h

theorem Stable.showDb {P : State → Prop} (C : Stable P) {s : State}  (hP : P s) :
    P (State.showDb s) := by
  unfold State.showDb
  repeat' first
    | with_reducible assumption | with_reducible apply C.wr

theorem Stable.lsaIn {P : State → Prop} (C : Stable P) {s : State} (a : Lsa) (hP : P s) :
    P (State.lsaIn s a).1 := by
  unfold State.lsaIn
  repeat' first
    | with_reducible assumption | with_reducible apply pres_cond | with_reducible apply pres_ite
    | with_reducible apply C.detect | with_reducible apply C.loseFnn | with_reducible apply C.showDb
    | with_reducible apply pres_ite_fst
    | with_reducible refine C.same (fun h => h) (fun h => h) (fun h => h) (fun h => h) (fun h => h) (fun h => h) (fun h => h) (fun h => h) (fun h => h) (fun h => h) (fun h => h) ?_
    | with_reducible refine C.same ?_ ?_ ?_ ?_ ?_ ?_ ?_ ?_ ?_ ?_ ?_ ?_ | exact fun h => h
    | (intro h; exact Nat.le_trans (List.length_filter_le _ _) h) | intro _

theorem Stable.dbxIn {P : State → Prop} (C : Stable P) {s : State} (n : Nat) (a : Lsa) (hP : P s) :
    P (State.dbxIn s n a) := by
  unfold State.dbxIn
  repeat' first
    | with_reducible assumption | with_reducible apply pres_cond | with_reducible apply C.floodOut
    | with_reducible apply C.remember | with_reducible apply C.firstClaim | with_reducible apply C.lsaIn
    | with_reducible refine C.same (fun h => h) (fun h => h) (fun h => h) (fun h => h) (fun h => h) (fun h => h) (fun h => h) (fun h => h) (fun h => h) (fun h => h) (fun h => h) ?_
    | with_reducible refine C.same ?_ ?_ ?_ ?_ ?_ ?_ ?_ ?_ ?_ ?_ ?_ ?_ | exact fun h => h | intro _

theorem Stable.lsaAge {P : State → Prop} (C : Stable P) {s : State} (eui : Nat) (hP : P s) :
    P (State.lsaAge s eui) := by
  unfold State.lsaAge
  repeat' first
    | with_reducible assumption | with_reducible apply pres_cond | with_reducible apply pres_ite
    | with_reducible apply C.claim | with_reducible apply C.showDb
    | with_reducible refine C.same (fun h => h) (fun h => h) (fun h => h) (fun h => h) (fun h => h) (fun h => h) (fun h => h) (fun h => h) (fun h => h) (fun h => h) (fun h => h) ?_
    | with_reducible refine C.same ?_ ?_ ?_ ?_ ?_ ?_ ?_ ?_ ?_ ?_ ?_ ?_ | exact fun h => h
    | (intro h; exact Nat.le_trans (List.length_filter_le _ _) h) | intro _

theorem Stable.showRoute {P : State → Prop} (C : Stable P) {s : State}  (hP : P s) :
    P (State.showRoute s) := by
  unfold State.showRoute
  repeat' first
    | with_reducible assumption | with_reducible apply C.wr | intro _

theorem Stable.showColl {P : State → Prop} (C : Stable P) {s : State}  (hP : P s) :
    P (State.showColl s) := by
  unfold State.showColl
  repeat' first
    | with_reducible assumption | with_reducible apply pres_each | with_reducible apply C.setBit | intro _

theorem Stable.install {P : State → Prop} (C : Stable P) {s : State} (ms : Nat) (hP : P s) :
    P (State.install s ms) := by
  unfold State.install
  repeat' first
    | with_reducible assumption | with_reducible apply pres_cond | with_reducible apply pres_ite
    | with_reducible apply C.inc | with_reducible apply C.detect | with_reducible apply C.followRoutes
    | with_reducible apply C.guestsFollow | with_reducible apply C.showRoute | with_reducible apply C.showColl
    | with_reducible apply C.wr
    | with_reducible refine C.same (fun h => h) (fun h => h) (fun h => h) (fun h => h) (fun h => h) (fun h => h) (fun h => h) (fun h => h) (fun h => h) (fun h => h) (fun h => h) ?_
    | with_reducible refine C.same ?_ ?_ ?_ ?_ ?_ ?_ ?_ ?_ ?_ ?_ ?_ ?_ | exact fun h => h | exact fun _ => rfl
    | exact fun _ => Nat.zero_le _ | (intro h; simp only [List.length_map]; exact h) | intro _

theorem Stable.toCollector {P : State → Prop} (C : Stable P) {s : State} (kind n : Nat) (hP : P s) :
    P (State.toCollector s kind n) := by
  unfold State.toCollector
  repeat' first
    | with_reducible assumption | with_reducible apply pres_ite | with_reducible apply C.inc
    | with_reducible apply C.detect | with_reducible apply C.unicast | split
    | with_reducible refine C.same (fun h => h) (fun h => h) (fun h => h) (fun h => h) (fun h => h) (fun h => h) (fun h => h) (fun h => h) (fun h => h) (fun h => h) (fun h => h) ?_
    | with_reducible refine C.same ?_ ?_ ?_ ?_ ?_ ?_ ?_ ?_ ?_ ?_ ?_ ?_ | exact fun h => h | exact NMap.wf_set _ _
    | intro _

theorem Stable.sendSummary {P : State → Prop} (C : Stable P) {s : State} (kind : Nat) (hP : P s) :
    P (State.sendSummary s kind) := by
  unfold State.sendSummary
  repeat' first
    | with_reducible assumption | with_reducible apply pres_ite | with_reducible apply pres_each
    | with_reducible apply pres_foldl | with_reducible apply C.toCollector
    | with_reducible refine C.same (fun h => h) (fun h => h) (fun h => h) (fun h => h) (fun h => h) (fun h => h) (fun h => h) (fun h => h) (fun h => h) (fun h => h) (fun h => h) ?_
    | with_reducible refine C.same ?_ ?_ ?_ ?_ ?_ ?_ ?_ ?_ ?_ ?_ ?_ ?_ | exact fun h => h | exact NMap.wf_set _ _
    | intro _

theorem Stable.wakeIn {P : State → Prop} (C : Stable P) {s : State}  (hP : P s) :
    P (State.wakeIn s) := by
  unfold State.wakeIn
  repeat' first
    | with_reducible assumption | with_reducible apply pres_cond | with_reducible apply pres_ite
    | with_reducible apply C.inc | with_reducible apply C.startBegin | with_reducible apply C.wake
    | with_reducible apply C.wr
    | with_reducible refine C.same (fun h => h) (fun h => h) (fun h => h) (fun h => h) (fun h => h) (fun h => h) (fun h => h) (fun h => h) (fun h => h) (fun h => h) (fun h => h) ?_
    | with_reducible refine C.same ?_ ?_ ?_ ?_ ?_ ?_ ?_ ?_ ?_ ?_ ?_ ?_ | exact fun h => h | intro _

theorem Stable.kilnIn {P : State → Prop} (C : Stable P) {s : State} (group trig : Nat) (hP : P s) :
    P (State.kilnIn s group trig) := by
  unfold State.kilnIn
  repeat' first
    | with_reducible assumption | with_reducible apply pres_ite | with_reducible apply C.inc
    | with_reducible apply C.detect | with_reducible apply C.tlog | with_reducible apply C.fireTrigger
    | with_reducible apply C.prime | split
    | with_reducible refine C.same (fun h => h) (fun h => h) (fun h => h) (fun h => h) (fun h => h) (fun h => h) (fun h => h) (fun h => h) (fun h => h) (fun h => h) (fun h => h) ?_
    | with_reducible refine C.same ?_ ?_ ?_ ?_ ?_ ?_ ?_ ?_ ?_ ?_ ?_ ?_ | exact fun h => h

theorem Stable.deliver {P : State → Prop} (C : Stable P) {s : State} (n : Nat) (p : Packet) (hP : P s) :
    P (State.deliver s n p) := by
  unfold State.deliver
  repeat' first
    | with_reducible assumption | with_reducible apply pres_cond | with_reducible apply pres_ite
    | with_reducible apply C.wake | with_reducible apply C.rackRx | with_reducible apply C.helloRx
    | with_reducible apply C.lsaIn | with_reducible apply C.dbxIn | with_reducible apply C.wakeIn
    | with_reducible apply C.kilnIn | split
    | with_reducible refine C.same (fun h => h) (fun h => h) (fun h => h) (fun h => h) (fun h => h) (fun h => h) (fun h => h) (fun h => h) (fun h => h) (fun h => h) (fun h => h) ?_
    | with_reducible refine C.same ?_ ?_ ?_ ?_ ?_ ?_ ?_ ?_ ?_ ?_ ?_ ?_ | exact fun h => h | intro _

theorem Stable.floodIn {P : State → Prop} (C : Stable P) {s : State} (n : Nat) (p : Packet) (hP : P s) :
    P (State.floodIn s n p) := by
  unfold State.floodIn
  repeat' first
    | with_reducible assumption | with_reducible apply pres_cond | with_reducible apply pres_ite
    | with_reducible apply C.floodOut | with_reducible apply C.remember | with_reducible apply C.deliver
    | with_reducible refine C.same (fun h => h) (fun h => h) (fun h => h) (fun h => h) (fun h => h) (fun h => h) (fun h => h) (fun h => h) (fun h => h) (fun h => h) (fun h => h) ?_
    | with_reducible refine C.same ?_ ?_ ?_ ?_ ?_ ?_ ?_ ?_ ?_ ?_ ?_ ?_ | exact fun h => h | intro _

theorem Stable.forward {P : State → Prop} (C : Stable P) {s : State} (n : Nat) (p : Packet) (hP : P s) :
    P (State.forward s n p) := by
  unfold State.forward
  repeat' first
    | with_reducible assumption | with_reducible apply pres_ite | with_reducible apply C.inc
    | with_reducible apply C.unicast
    | with_reducible refine C.same (fun h => h) (fun h => h) (fun h => h) (fun h => h) (fun h => h) (fun h => h) (fun h => h) (fun h => h) (fun h => h) (fun h => h) (fun h => h) ?_
    | with_reducible refine C.same ?_ ?_ ?_ ?_ ?_ ?_ ?_ ?_ ?_ ?_ ?_ ?_ | exact fun h => h

theorem Stable.packetIn {P : State → Prop} (C : Stable P) {s : State} (n pl : Nat) (p : Packet) (hP : P s) :
    P (State.packetIn s n pl p) := by
  unfold State.packetIn
  repeat' first
    | with_reducible assumption | with_reducible apply pres_cond | with_reducible apply pres_ite
    | with_reducible apply C.checked | with_reducible apply C.deliver | with_reducible apply C.floodIn
    | with_reducible apply C.forward | intro _

theorem Stable.overcurrent {P : State → Prop} (C : Stable P) {s : State} (n : Nat) (hP : P s) :
    P (State.overcurrent s n) := by
  unfold State.overcurrent
  repeat' first
    | with_reducible assumption | with_reducible apply pres_ite | with_reducible apply C.detect
    | with_reducible apply C.setDport | with_reducible apply C.showFeed
    | with_reducible refine C.same (fun h => h) (fun h => h) (fun h => h) (fun h => h) (fun h => h) (fun h => h) (fun h => h) (fun h => h) (fun h => h) (fun h => h) (fun h => h) ?_
    | with_reducible refine C.same ?_ ?_ ?_ ?_ ?_ ?_ ?_ ?_ ?_ ?_ ?_ ?_ | exact fun h => h

theorem Stable.feedRetry {P : State → Prop} (C : Stable P) {s : State} (n : Nat) (hP : P s) :
    P (State.feedRetry s n) := by
  unfold State.feedRetry
  repeat' first
    | with_reducible assumption | with_reducible apply pres_cond | with_reducible apply C.setDport
    | with_reducible apply C.showFeed
    | with_reducible refine C.same (fun h => h) (fun h => h) (fun h => h) (fun h => h) (fun h => h) (fun h => h) (fun h => h) (fun h => h) (fun h => h) (fun h => h) (fun h => h) ?_
    | with_reducible refine C.same ?_ ?_ ?_ ?_ ?_ ?_ ?_ ?_ ?_ ?_ ?_ ?_ | exact fun h => h | intro _

end Sys2Proof.Machine
end

