-- ==== Sys2Proof/Laws/Stable/Pack.lean ====
section
/-!
SUPPORT. Laws/Stable/Pack.lean: what the operations of Machine/Pack.lean keep (Laws/Stable.lean).
-/

namespace Sys2Proof.Machine

set_option Elab.async false
set_option linter.unusedTactic false
set_option linter.unreachableTactic false

theorem Stable.onPack {P : State → Prop} (C : Stable P) {s : State} (p : Nat) (f : State → State) (hf : ∀ t, P t → P (f t)) (hP : P s) :
    P (State.onPack s p f) := by
  unfold State.onPack
  repeat' first
    | with_reducible assumption | with_reducible apply pres_ite | with_reducible apply hf | intro _

theorem Stable.packEvent {P : State → Prop} (C : Stable P) {s : State} (p k : Nat) (hP : P s) :
    P (State.packEvent s p k) := by
  unfold State.packEvent
  repeat' first
    | with_reducible assumption | with_reducible apply C.vendor

theorem Stable.insertPack {P : State → Prop} (C : Stable P) {s : State} (p : Nat) (hP : P s) :
    P (State.insertPack s p) := by
  unfold State.insertPack
  repeat' first
    | with_reducible assumption | with_reducible apply pres_cond | with_reducible apply pres_ite
    | with_reducible apply C.setPack | with_reducible apply C.setCond | with_reducible apply C.showDisagree
    | with_reducible apply C.packEvent | with_reducible apply C.wr | intro _

theorem Stable.selectLearnt {P : State → Prop} (C : Stable P) {s : State} (p serial : Nat) (hP : P s) :
    P (State.selectLearnt s p serial) := by
  unfold State.selectLearnt
  repeat' first
    | with_reducible assumption | with_reducible apply C.setPack | with_reducible apply C.wr | split
    | with_reducible refine C.same (fun h => h) (fun h => h) (fun h => h) (fun h => h) (fun h => h) (fun h => h) (fun h => h) (fun h => h) (fun h => h) (fun h => h) (fun h => h) ?_
    | with_reducible refine C.same ?_ ?_ ?_ ?_ ?_ ?_ ?_ ?_ ?_ ?_ ?_ ?_ | exact fun h => h
    | (intro h; simp only [List.length_map]; exact h) | intro _

theorem Stable.identify {P : State → Prop} (C : Stable P) {s : State} (p : Nat) (answered : Bool) (serial chem : Nat) (cells4 : Bool) (hP : P s) :
    P (State.identify s p answered serial chem cells4) := by
  unfold State.identify
  repeat' first
    | with_reducible assumption | with_reducible apply pres_cond | with_reducible apply pres_ite
    | with_reducible apply C.detect | with_reducible apply C.uncount | with_reducible apply C.chargeCheck
    | with_reducible apply C.chargeStop | with_reducible apply C.startAuth | with_reducible apply C.packEvent
    | with_reducible apply C.selectLearnt | with_reducible apply C.wr | intro _

theorem Stable.packGone {P : State → Prop} (C : Stable P) {s : State} (p : Nat) (hP : P s) :
    P (State.packGone s p) := by
  unfold State.packGone
  repeat' first
    | with_reducible assumption | with_reducible apply pres_cond | with_reducible apply pres_ite
    | with_reducible apply C.setCond | with_reducible apply C.gaugeShow | with_reducible apply C.removePack
    | with_reducible apply C.kilnCut | with_reducible apply C.packEvent | intro _

theorem Stable.authPass {P : State → Prop} (C : Stable P) {s : State} (p : Nat) (hP : P s) :
    P (State.authPass s p) := by
  unfold State.authPass
  repeat' first
    | with_reducible assumption | with_reducible apply pres_cond | with_reducible apply C.setPack
    | with_reducible apply C.packJudge | with_reducible apply C.packEvent | with_reducible apply C.wr
    | with_reducible refine C.same (fun h => h) (fun h => h) (fun h => h) (fun h => h) (fun h => h) (fun h => h) (fun h => h) (fun h => h) (fun h => h) (fun h => h) (fun h => h) ?_
    | with_reducible refine C.same ?_ ?_ ?_ ?_ ?_ ?_ ?_ ?_ ?_ ?_ ?_ ?_ | exact fun h => h | intro _

theorem Stable.authFail {P : State → Prop} (C : Stable P) {s : State} (p : Nat) (hP : P s) :
    P (State.authFail s p) := by
  unfold State.authFail
  repeat' first
    | with_reducible assumption | with_reducible apply pres_cond | with_reducible apply pres_ite
    | with_reducible apply C.setPack | with_reducible apply C.detect | with_reducible apply C.packJudge
    | with_reducible apply C.replacePack | with_reducible apply C.packEvent | with_reducible apply C.wr
    | with_reducible refine C.same (fun h => h) (fun h => h) (fun h => h) (fun h => h) (fun h => h) (fun h => h) (fun h => h) (fun h => h) (fun h => h) (fun h => h) (fun h => h) ?_
    | with_reducible refine C.same ?_ ?_ ?_ ?_ ?_ ?_ ?_ ?_ ?_ ?_ ?_ ?_ | exact fun h => h | intro _

theorem Stable.authResponse {P : State → Prop} (C : Stable P) {s : State} (p : Nat) (answer : Option Nat) (hP : P s) :
    P (State.authResponse s p answer) := by
  unfold State.authResponse
  repeat' first
    | with_reducible assumption | with_reducible apply pres_ite | with_reducible apply C.inc
    | with_reducible apply C.setPack | with_reducible apply C.answer | with_reducible apply C.authPass
    | with_reducible apply C.authFail
    | with_reducible refine C.same (fun h => h) (fun h => h) (fun h => h) (fun h => h) (fun h => h) (fun h => h) (fun h => h) (fun h => h) (fun h => h) (fun h => h) (fun h => h) ?_
    | with_reducible refine C.same ?_ ?_ ?_ ?_ ?_ ?_ ?_ ?_ ?_ ?_ ?_ ?_ | exact fun h => h
    | (intro h; simp only [List.length_map]; exact h)

theorem Stable.authRetry {P : State → Prop} (C : Stable P) {s : State} (p : Nat) (hP : P s) :
    P (State.authRetry s p) := by
  unfold State.authRetry
  repeat' first
    | with_reducible assumption | with_reducible apply pres_cond | with_reducible apply C.sendChallenge | intro _

theorem Stable.authRun {P : State → Prop} (C : Stable P) {s : State} (who : Requester) (p : Nat) (daily : Bool) (hP : P s) :
    P (State.authRun s who p daily) := by
  unfold State.authRun
  repeat' first
    | with_reducible assumption | with_reducible apply pres_cond | with_reducible apply pres_ite
    | with_reducible apply C.startAuth | with_reducible apply C.command | with_reducible apply C.wr | intro _

theorem Stable.learnCap {P : State → Prop} (C : Stable P) {s : State} (p mid : Nat) (hP : P s) :
    P (State.learnCap s p mid) := by
  unfold State.learnCap
  repeat' first
    | with_reducible assumption | with_reducible apply pres_cond | with_reducible apply pres_ite
    | with_reducible apply C.inc | with_reducible apply C.replacePack | with_reducible apply C.wr | split
    | with_reducible refine C.same (fun h => h) (fun h => h) (fun h => h) (fun h => h) (fun h => h) (fun h => h) (fun h => h) (fun h => h) (fun h => h) (fun h => h) (fun h => h) ?_
    | with_reducible refine C.same ?_ ?_ ?_ ?_ ?_ ?_ ?_ ?_ ?_ ?_ ?_ ?_ | exact fun h => h | intro _

theorem Stable.atRest {P : State → Prop} (C : Stable P) {s : State} (p lo hi : Nat) (hP : P s) :
    P (State.atRest s p lo hi) := by
  unfold State.atRest
  repeat' first
    | with_reducible assumption | with_reducible apply pres_cond | with_reducible apply pres_ite
    | with_reducible apply C.setPack | with_reducible apply C.gaugeShow | with_reducible apply C.showDisagree
    | with_reducible apply C.ramp | with_reducible apply C.packHours | with_reducible apply C.learnCap
    | with_reducible apply C.disagree | with_reducible apply C.wr
    | with_reducible refine C.same (fun h => h) (fun h => h) (fun h => h) (fun h => h) (fun h => h) (fun h => h) (fun h => h) (fun h => h) (fun h => h) (fun h => h) (fun h => h) ?_
    | with_reducible refine C.same ?_ ?_ ?_ ?_ ?_ ?_ ?_ ?_ ?_ ?_ ?_ ?_ | exact fun h => h | intro _

theorem Stable.schedule {P : State → Prop} (C : Stable P) {s : State} (p : Nat) (hP : P s) :
    P (State.schedule s p) := by
  unfold State.schedule
  repeat' first
    | with_reducible assumption | with_reducible apply C.setPack
    | with_reducible refine C.same (fun h => h) (fun h => h) (fun h => h) (fun h => h) (fun h => h) (fun h => h) (fun h => h) (fun h => h) (fun h => h) (fun h => h) (fun h => h) ?_
    | with_reducible refine C.same ?_ ?_ ?_ ?_ ?_ ?_ ?_ ?_ ?_ ?_ ?_ ?_ | exact fun h => h

theorem Stable.disagree {P : State → Prop} (C : Stable P) {s : State} (p : Nat) (hP : P s) :
    P (State.disagree s p) := by
  unfold State.disagree
  repeat' first
    | with_reducible assumption | with_reducible apply pres_ite | with_reducible apply C.inc
    | with_reducible apply C.setPack | with_reducible apply C.detect | with_reducible apply C.gaugeShow
    | with_reducible apply C.showDisagree | with_reducible apply C.packHours | with_reducible apply C.schedule
    | with_reducible apply C.wr
    | with_reducible refine C.same (fun h => h) (fun h => h) (fun h => h) (fun h => h) (fun h => h) (fun h => h) (fun h => h) (fun h => h) (fun h => h) (fun h => h) (fun h => h) ?_
    | with_reducible refine C.same ?_ ?_ ?_ ?_ ?_ ?_ ?_ ?_ ?_ ?_ ?_ ?_ | exact fun h => h

theorem Stable.noRest {P : State → Prop} (C : Stable P) {s : State} (p : Nat) (hP : P s) :
    P (State.noRest s p) := by
  unfold State.noRest
  repeat' first
    | with_reducible assumption | with_reducible apply pres_ite | with_reducible apply C.setPack
    | with_reducible apply C.detect | with_reducible apply C.gaugeShow | with_reducible apply C.chargeCheck
    | with_reducible apply C.restCease | with_reducible apply C.wr
    | with_reducible refine C.same (fun h => h) (fun h => h) (fun h => h) (fun h => h) (fun h => h) (fun h => h) (fun h => h) (fun h => h) (fun h => h) (fun h => h) (fun h => h) ?_
    | with_reducible refine C.same ?_ ?_ ?_ ?_ ?_ ?_ ?_ ?_ ?_ ?_ ?_ ?_ | exact fun h => h

theorem Stable.startTest {P : State → Prop} (C : Stable P) {s : State} (p k ct : Nat) (hP : P s) :
    P (State.startTest s p k ct) := by
  unfold State.startTest
  repeat' first
    | with_reducible assumption | with_reducible apply pres_ite | with_reducible apply C.setPack
    | with_reducible apply C.armCdl | with_reducible apply C.pathOn
    | with_reducible refine C.same (fun h => h) (fun h => h) (fun h => h) (fun h => h) (fun h => h) (fun h => h) (fun h => h) (fun h => h) (fun h => h) (fun h => h) (fun h => h) ?_
    | with_reducible refine C.same ?_ ?_ ?_ ?_ ?_ ?_ ?_ ?_ ?_ ?_ ?_ ?_ | exact fun h => h

theorem Stable.switchTest {P : State → Prop} (C : Stable P) {s : State} (p : Nat) (hP : P s) :
    P (State.switchTest s p) := by
  unfold State.switchTest
  repeat' first
    | with_reducible assumption | with_reducible apply pres_cond | with_reducible apply C.startTest | intro _

theorem Stable.switchResult {P : State → Prop} (C : Stable P) {s : State} (p us : Nat) (hP : P s) :
    P (State.switchResult s p us) := by
  unfold State.switchResult
  repeat' first
    | with_reducible assumption | with_reducible apply pres_cond | with_reducible apply pres_ite
    | with_reducible apply C.setPack | with_reducible apply C.setCond | with_reducible apply C.uncount
    | with_reducible apply C.wr
    | with_reducible refine C.same (fun h => h) (fun h => h) (fun h => h) (fun h => h) (fun h => h) (fun h => h) (fun h => h) (fun h => h) (fun h => h) (fun h => h) (fun h => h) ?_
    | with_reducible refine C.same ?_ ?_ ?_ ?_ ?_ ?_ ?_ ?_ ?_ ?_ ?_ ?_ | exact fun h => h | intro _

theorem Stable.highZ {P : State → Prop} (C : Stable P) {s : State} (p : Nat) (on : Bool) (hP : P s) :
    P (State.highZ s p on) := by
  unfold State.highZ
  repeat' first
    | with_reducible assumption | with_reducible apply pres_cond | with_reducible apply pres_ite
    | with_reducible apply C.setPack | with_reducible apply C.setCond | with_reducible apply C.uncount
    | with_reducible refine C.same (fun h => h) (fun h => h) (fun h => h) (fun h => h) (fun h => h) (fun h => h) (fun h => h) (fun h => h) (fun h => h) (fun h => h) (fun h => h) ?_
    | with_reducible refine C.same ?_ ?_ ?_ ?_ ?_ ?_ ?_ ?_ ?_ ?_ ?_ ?_ | exact fun h => h | intro _

theorem Stable.pulseResult {P : State → Prop} (C : Stable P) {s : State} (p ma ri vFloor : Nat) (hP : P s) :
    P (State.pulseResult s p ma ri vFloor) := by
  unfold State.pulseResult
  repeat' first
    | with_reducible assumption | with_reducible apply pres_cond | with_reducible apply pres_ite
    | with_reducible apply C.inc | with_reducible apply C.setPack | with_reducible apply C.highZ
    | with_reducible apply C.wr
    | with_reducible refine C.same (fun h => h) (fun h => h) (fun h => h) (fun h => h) (fun h => h) (fun h => h) (fun h => h) (fun h => h) (fun h => h) (fun h => h) (fun h => h) ?_
    | with_reducible refine C.same ?_ ?_ ?_ ?_ ?_ ?_ ?_ ?_ ?_ ?_ ?_ ?_ | exact fun h => h | exact fun _ => rfl
    | exact fun _ => Nat.zero_le _ | intro _

theorem Stable.testDone {P : State → Prop} (C : Stable P) {s : State} (p us ma ri vFloor : Nat) (hP : P s) :
    P (State.testDone s p us ma ri vFloor) := by
  unfold State.testDone
  repeat' first
    | with_reducible assumption | with_reducible apply pres_cond | with_reducible apply C.setPack
    | with_reducible apply C.disarmCdl | with_reducible apply C.pathOn | with_reducible apply C.switchResult
    | with_reducible apply C.pulseResult | with_reducible apply C.wr | split
    | with_reducible refine C.same (fun h => h) (fun h => h) (fun h => h) (fun h => h) (fun h => h) (fun h => h) (fun h => h) (fun h => h) (fun h => h) (fun h => h) (fun h => h) ?_
    | with_reducible refine C.same ?_ ?_ ?_ ?_ ?_ ?_ ?_ ?_ ?_ ?_ ?_ ?_ | exact fun h => h | intro _

theorem Stable.dischargeTest {P : State → Prop} (C : Stable P) {s : State} (p : Nat) (hP : P s) :
    P (State.dischargeTest s p) := by
  unfold State.dischargeTest
  repeat' first
    | with_reducible assumption | with_reducible apply pres_ite | with_reducible apply C.setPack
    | with_reducible apply C.reject | with_reducible apply C.pathOn | with_reducible apply C.chargeCheck
    | with_reducible apply C.restCease | with_reducible apply C.wr
    | with_reducible refine C.same (fun h => h) (fun h => h) (fun h => h) (fun h => h) (fun h => h) (fun h => h) (fun h => h) (fun h => h) (fun h => h) (fun h => h) (fun h => h) ?_
    | with_reducible refine C.same ?_ ?_ ?_ ?_ ?_ ?_ ?_ ?_ ?_ ?_ ?_ ?_ | exact fun h => h

theorem Stable.chargerFault {P : State → Prop} (C : Stable P) {s : State} (p kind : Nat) (hP : P s) :
    P (State.chargerFault s p kind) := by
  unfold State.chargerFault
  repeat' first
    | with_reducible assumption | with_reducible apply pres_cond | with_reducible apply pres_ite
    | with_reducible apply C.setPack | with_reducible apply C.detect | with_reducible apply C.chargeStop
    | with_reducible refine C.same (fun h => h) (fun h => h) (fun h => h) (fun h => h) (fun h => h) (fun h => h) (fun h => h) (fun h => h) (fun h => h) (fun h => h) (fun h => h) ?_
    | with_reducible refine C.same ?_ ?_ ?_ ?_ ?_ ?_ ?_ ?_ ?_ ?_ ?_ ?_ | exact fun h => h | intro _

end Sys2Proof.Machine
end

