-- ==== Sys2Proof/Laws/Stable/Sequencer.lean ====
section
/-!
SUPPORT. Laws/Stable/Sequencer.lean: what the operations of Machine/Sequencer.lean keep (Laws/Stable.lean).
-/

namespace Sys2Proof.Machine

set_option Elab.async false
set_option linter.unusedTactic false
set_option linter.unreachableTactic false

theorem Stable.programStart {P : State → Prop} (C : Stable P) {s : State} (n : Nat) (crcOk : Bool) (hP : P s) :
    P (State.programStart s n crcOk) := by
  unfold State.programStart
  repeat' first
    | with_reducible assumption | with_reducible apply pres_ite | with_reducible apply C.seqBegin
    | with_reducible apply C.seqSettle

theorem Stable.waitDone {P : State → Prop} (C : Stable P) {s : State}  (hP : P s) :
    P (State.waitDone s) := by
  unfold State.waitDone
  repeat' first
    | with_reducible assumption | with_reducible apply pres_ite | with_reducible apply C.seqRun
    | with_reducible apply C.seqGo | with_reducible apply C.seqSettle | split
    | with_reducible refine C.same (fun h => h) (fun h => h) (fun h => h) (fun h => h) (fun h => h) (fun h => h) (fun h => h) (fun h => h) (fun h => h) (fun h => h) (fun h => h) ?_
    | with_reducible refine C.same ?_ ?_ ?_ ?_ ?_ ?_ ?_ ?_ ?_ ?_ ?_ ?_ | exact fun h => h

theorem Stable.checkDone {P : State → Prop} (C : Stable P) {s : State}  (hP : P s) :
    P (State.checkDone s) := by
  unfold State.checkDone
  repeat' first
    | with_reducible assumption | with_reducible apply pres_ite | with_reducible apply C.seqGo
    | with_reducible apply C.seqSettle | with_reducible apply C.wr | split
    | with_reducible refine C.same (fun h => h) (fun h => h) (fun h => h) (fun h => h) (fun h => h) (fun h => h) (fun h => h) (fun h => h) (fun h => h) (fun h => h) (fun h => h) ?_
    | with_reducible refine C.same ?_ ?_ ?_ ?_ ?_ ?_ ?_ ?_ ?_ ?_ ?_ ?_ | exact fun h => h

theorem Stable.checkTimeout {P : State → Prop} (C : Stable P) {s : State}  (hP : P s) :
    P (State.checkTimeout s) := by
  unfold State.checkTimeout
  repeat' first
    | with_reducible assumption | with_reducible apply pres_ite | with_reducible apply C.checkFailed
    | with_reducible apply C.afterFail | with_reducible apply C.seqRun | with_reducible apply C.seqGo
    | with_reducible apply C.seqSettle | split
    | with_reducible refine C.same (fun h => h) (fun h => h) (fun h => h) (fun h => h) (fun h => h) (fun h => h) (fun h => h) (fun h => h) (fun h => h) (fun h => h) (fun h => h) ?_
    | with_reducible refine C.same ?_ ?_ ?_ ?_ ?_ ?_ ?_ ?_ ?_ ?_ ?_ ?_ | exact fun h => h

theorem Stable.syncAdvance {P : State → Prop} (C : Stable P) {s : State}  (hP : P s) :
    P (State.syncAdvance s) := by
  unfold State.syncAdvance
  repeat' first
    | with_reducible assumption | with_reducible apply C.seqGo | with_reducible apply C.seqSettle
    | with_reducible apply C.wr | split
    | with_reducible refine C.same (fun h => h) (fun h => h) (fun h => h) (fun h => h) (fun h => h) (fun h => h) (fun h => h) (fun h => h) (fun h => h) (fun h => h) (fun h => h) ?_
    | with_reducible refine C.same ?_ ?_ ?_ ?_ ?_ ?_ ?_ ?_ ?_ ?_ ?_ ?_ | exact fun h => h

theorem Stable.syncTimeout {P : State → Prop} (C : Stable P) {s : State}  (hP : P s) :
    P (State.syncTimeout s) := by
  unfold State.syncTimeout
  repeat' first
    | with_reducible assumption | with_reducible apply pres_ite | with_reducible apply C.inc
    | with_reducible apply C.detect | with_reducible apply C.seqStop | with_reducible apply C.seqGo
    | with_reducible apply C.seqSettle | split
    | with_reducible refine C.same (fun h => h) (fun h => h) (fun h => h) (fun h => h) (fun h => h) (fun h => h) (fun h => h) (fun h => h) (fun h => h) (fun h => h) (fun h => h) ?_
    | with_reducible refine C.same ?_ ?_ ?_ ?_ ?_ ?_ ?_ ?_ ?_ ?_ ?_ ?_ | exact fun h => h

theorem Stable.seqDrop {P : State → Prop} (C : Stable P) {s : State}  (hP : P s) :
    P (State.seqDrop s) := by
  unfold State.seqDrop
  repeat' first
    | with_reducible assumption | with_reducible apply C.seqAbandon
    | with_reducible refine C.same (fun h => h) (fun h => h) (fun h => h) (fun h => h) (fun h => h) (fun h => h) (fun h => h) (fun h => h) (fun h => h) (fun h => h) (fun h => h) ?_
    | with_reducible refine C.same ?_ ?_ ?_ ?_ ?_ ?_ ?_ ?_ ?_ ?_ ?_ ?_ | exact fun h => h

theorem Stable.inputCollapse {P : State → Prop} (C : Stable P) {s : State}  (hP : P s) :
    P (State.inputCollapse s) := by
  unfold State.inputCollapse
  repeat' first
    | with_reducible assumption | with_reducible apply pres_ite | with_reducible apply C.inc
    | with_reducible apply C.detect | with_reducible apply C.clrEnables | with_reducible apply C.seqDrop
    | with_reducible refine C.same (fun h => h) (fun h => h) (fun h => h) (fun h => h) (fun h => h) (fun h => h) (fun h => h) (fun h => h) (fun h => h) (fun h => h) (fun h => h) ?_
    | with_reducible refine C.same ?_ ?_ ?_ ?_ ?_ ?_ ?_ ?_ ?_ ?_ ?_ ?_ | exact fun h => h | exact NMap.wf_keep _

theorem Stable.cutOff {P : State → Prop} (C : Stable P) {s : State}  (hP : P s) :
    P (State.cutOff s) := by
  unfold State.cutOff
  repeat' first
    | with_reducible assumption | with_reducible apply pres_foldl | with_reducible apply C.clrEnables
    | with_reducible apply C.enterP4 | with_reducible apply C.seqDrop
    | with_reducible refine C.same (fun h => h) (fun h => h) (fun h => h) (fun h => h) (fun h => h) (fun h => h) (fun h => h) (fun h => h) (fun h => h) (fun h => h) (fun h => h) ?_
    | with_reducible refine C.same ?_ ?_ ?_ ?_ ?_ ?_ ?_ ?_ ?_ ?_ ?_ ?_ | exact fun h => h | exact fun _ => rfl
    | exact fun _ => Nat.zero_le _ | intro _

theorem Stable.collapseOver {P : State → Prop} (C : Stable P) {s : State}  (hP : P s) :
    P (State.collapseOver s) := by
  unfold State.collapseOver
  repeat' first
    | with_reducible assumption | with_reducible apply pres_cond | with_reducible apply pres_ite
    | with_reducible apply C.cutOff
    | with_reducible refine C.same (fun h => h) (fun h => h) (fun h => h) (fun h => h) (fun h => h) (fun h => h) (fun h => h) (fun h => h) (fun h => h) (fun h => h) (fun h => h) ?_
    | with_reducible refine C.same ?_ ?_ ?_ ?_ ?_ ?_ ?_ ?_ ?_ ?_ ?_ ?_ | exact fun h => h | intro _

theorem Stable.marginWrite {P : State → Prop} (C : Stable P) {s : State} (v : Nat) (hP : P s) :
    P (State.marginWrite s v) := by
  unfold State.marginWrite
  repeat' first
    | with_reducible assumption | with_reducible apply pres_ite | with_reducible apply C.reject
    | with_reducible apply C.wr

theorem Stable.marginStep {P : State → Prop} (C : Stable P) {s : State}  (hP : P s) :
    P (State.marginStep s) := by
  unfold State.marginStep
  repeat' first
    | with_reducible assumption | with_reducible apply pres_cond | with_reducible apply pres_each
    | with_reducible apply C.showMargins | with_reducible apply C.wr | intro _

theorem Stable.clearRail {P : State → Prop} (C : Stable P) {s : State} (i : Nat) (hP : P s) :
    P (State.clearRail s i) := by
  unfold State.clearRail
  repeat' first
    | with_reducible assumption | with_reducible apply pres_each | with_reducible apply C.wr | intro _

theorem Stable.clearCounts {P : State → Prop} (C : Stable P) {s : State} (f : State → State) (hf : ∀ t, P t → P (f t)) (hP : P s) :
    P (State.clearCounts s f) := by
  unfold State.clearCounts
  repeat' first
    | with_reducible assumption | with_reducible apply pres_ite | with_reducible apply C.reject
    | with_reducible apply hf | intro _

theorem Stable.sqpNext {P : State → Prop} (C : Stable P) {s : State}  (hP : P s) :
    P (State.sqpNext s) := by
  unfold State.sqpNext
  repeat' first
    | with_reducible assumption | with_reducible apply C.wr

theorem Stable.sqpData {P : State → Prop} (C : Stable P) {s : State} (who : Requester) (write : Option Nat) (hP : P s) :
    P (State.sqpData s who write) := by
  unfold State.sqpData
  repeat' first
    | with_reducible assumption | with_reducible apply pres_cond | with_reducible apply pres_ite
    | with_reducible apply C.reject | with_reducible apply C.giveReg | with_reducible apply C.under
    | with_reducible apply C.sqpNext | split
    | with_reducible refine C.same (fun h => h) (fun h => h) (fun h => h) (fun h => h) (fun h => h) (fun h => h) (fun h => h) (fun h => h) (fun h => h) (fun h => h) (fun h => h) ?_
    | with_reducible refine C.same ?_ ?_ ?_ ?_ ?_ ?_ ?_ ?_ ?_ ?_ ?_ ?_ | exact fun h => h | exact NMap.wf_set _ _
    | intro _

theorem Stable.pressLog {P : State → Prop} (C : Stable P) {s : State} (k : Nat) (hP : P s) :
    P (State.pressLog s k) := by
  unfold State.pressLog
  repeat' first
    | with_reducible assumption | with_reducible apply C.tlog

theorem Stable.pressWake {P : State → Prop} (C : Stable P) {s : State} (short : Bool) (hP : P s) :
    P (State.pressWake s short) := by
  unfold State.pressWake
  repeat' first
    | with_reducible assumption | with_reducible apply pres_ite | with_reducible apply C.startBegin
    | with_reducible apply C.wake | with_reducible apply C.wr | split
    | with_reducible refine C.same (fun h => h) (fun h => h) (fun h => h) (fun h => h) (fun h => h) (fun h => h) (fun h => h) (fun h => h) (fun h => h) (fun h => h) (fun h => h) ?_
    | with_reducible refine C.same ?_ ?_ ?_ ?_ ?_ ?_ ?_ ?_ ?_ ?_ ?_ ?_ | exact fun h => h

theorem Stable.pressEnd {P : State → Prop} (C : Stable P) {s : State} (ms : Nat) (hP : P s) :
    P (State.pressEnd s ms) := by
  unfold State.pressEnd
  repeat' first
    | with_reducible assumption | with_reducible apply pres_ite | with_reducible apply C.inc
    | with_reducible apply C.notice | with_reducible apply C.vendor | with_reducible apply C.pressLog
    | with_reducible apply C.pressWake | with_reducible apply C.wr
    | with_reducible refine C.same (fun h => h) (fun h => h) (fun h => h) (fun h => h) (fun h => h) (fun h => h) (fun h => h) (fun h => h) (fun h => h) (fun h => h) (fun h => h) ?_
    | with_reducible refine C.same ?_ ?_ ?_ ?_ ?_ ?_ ?_ ?_ ?_ ?_ ?_ ?_ | exact fun h => h

theorem Stable.press4 {P : State → Prop} (C : Stable P) {s : State}  (hP : P s) :
    P (State.press4 s) := by
  unfold State.press4
  repeat' first
    | with_reducible assumption | with_reducible apply pres_ite | with_reducible apply C.inc
    | with_reducible apply C.warning | with_reducible apply C.fireTrigger | with_reducible apply C.pressLog
    | with_reducible apply C.wr
    | with_reducible refine C.same (fun h => h) (fun h => h) (fun h => h) (fun h => h) (fun h => h) (fun h => h) (fun h => h) (fun h => h) (fun h => h) (fun h => h) (fun h => h) ?_
    | with_reducible refine C.same ?_ ?_ ?_ ?_ ?_ ?_ ?_ ?_ ?_ ?_ ?_ ?_ | exact fun h => h

theorem Stable.forceOff {P : State → Prop} (C : Stable P) {s : State}  (hP : P s) :
    P (State.forceOff s) := by
  unfold State.forceOff
  repeat' first
    | with_reducible assumption | with_reducible apply pres_ite | with_reducible apply C.inc
    | with_reducible apply C.detect | with_reducible apply C.openPaths | with_reducible apply C.cutOff
    | with_reducible apply C.pressLog | with_reducible apply C.wr
    | with_reducible refine C.same (fun h => h) (fun h => h) (fun h => h) (fun h => h) (fun h => h) (fun h => h) (fun h => h) (fun h => h) (fun h => h) (fun h => h) (fun h => h) ?_
    | with_reducible refine C.same ?_ ?_ ?_ ?_ ?_ ?_ ?_ ?_ ?_ ?_ ?_ ?_ | exact fun h => h | exact fun _ => rfl
    | exact fun _ => Nat.zero_le _

end Sys2Proof.Machine
end

