-- ==== Sys2Proof/Laws/Stable/PowerStates.lean ====
section
/-!
SUPPORT. Laws/Stable/PowerStates.lean: what the operations of Machine/PowerStates.lean keep (Laws/Stable.lean).
-/

namespace Sys2Proof.Machine

set_option Elab.async false
set_option linter.unusedTactic false
set_option linter.unreachableTactic false

theorem Stable.restSelect {P : State → Prop} (C : Stable P) {s : State} (p1 p2 : Bool) (hP : P s) :
    P (State.restSelect s p1 p2) := by
  unfold State.restSelect
  repeat' first
    | with_reducible assumption | with_reducible apply pres_ite | with_reducible apply C.showRest
    | with_reducible apply C.restEnter
    | with_reducible refine C.same (fun h => h) (fun h => h) (fun h => h) (fun h => h) (fun h => h) (fun h => h) (fun h => h) (fun h => h) (fun h => h) (fun h => h) (fun h => h) ?_
    | with_reducible refine C.same ?_ ?_ ?_ ?_ ?_ ?_ ?_ ?_ ?_ ?_ ?_ ?_ | exact fun h => h

theorem Stable.restLeft {P : State → Prop} (C : Stable P) {s : State} (us : Nat) (hP : P s) :
    P (State.restLeft s us) := by
  unfold State.restLeft
  repeat' first
    | with_reducible assumption | with_reducible apply pres_cond | with_reducible apply pres_ite
    | with_reducible apply C.detect | with_reducible apply C.ranksActive | with_reducible apply C.wr
    | with_reducible refine C.same (fun h => h) (fun h => h) (fun h => h) (fun h => h) (fun h => h) (fun h => h) (fun h => h) (fun h => h) (fun h => h) (fun h => h) (fun h => h) ?_
    | with_reducible refine C.same ?_ ?_ ?_ ?_ ?_ ?_ ?_ ?_ ?_ ?_ ?_ ?_ | exact fun h => h | intro _

theorem Stable.patrolBehind {P : State → Prop} (C : Stable P) {s : State}  (hP : P s) :
    P (State.patrolBehind s) := by
  unfold State.patrolBehind
  repeat' first
    | with_reducible assumption | with_reducible apply pres_ite | with_reducible apply C.detect
    | with_reducible apply C.restExit
    | with_reducible refine C.same (fun h => h) (fun h => h) (fun h => h) (fun h => h) (fun h => h) (fun h => h) (fun h => h) (fun h => h) (fun h => h) (fun h => h) (fun h => h) ?_
    | with_reducible refine C.same ?_ ?_ ?_ ?_ ?_ ?_ ?_ ?_ ?_ ?_ ?_ ?_ | exact fun h => h

theorem Stable.perstRise {P : State → Prop} (C : Stable P) {s : State} (p : Nat) (hP : P s) :
    P (State.perstRise s p) := by
  unfold State.perstRise
  repeat' first
    | with_reducible assumption | with_reducible apply pres_cond | with_reducible apply pres_ite
    | with_reducible apply C.setHost | with_reducible apply C.wake
    | with_reducible refine C.same (fun h => h) (fun h => h) (fun h => h) (fun h => h) (fun h => h) (fun h => h) (fun h => h) (fun h => h) (fun h => h) (fun h => h) (fun h => h) ?_
    | with_reducible refine C.same ?_ ?_ ?_ ?_ ?_ ?_ ?_ ?_ ?_ ?_ ?_ ?_ | exact fun h => h | intro _

theorem Stable.sntMaint {P : State → Prop} (C : Stable P) {s : State} (who : Requester) (f : State → State) (hf : ∀ t, P t → P (f t)) (hP : P s) :
    P (State.sntMaint s who f) := by
  unfold State.sntMaint
  repeat' first
    | with_reducible assumption | with_reducible apply pres_ite | with_reducible apply C.reject
    | with_reducible apply C.under | with_reducible apply hf | intro _

theorem Stable.clearFails {P : State → Prop} (C : Stable P) {s : State}  (hP : P s) :
    P (State.clearFails s) := by
  unfold State.clearFails
  repeat' first
    | with_reducible assumption | with_reducible apply C.wr

theorem Stable.leaveRecovery {P : State → Prop} (C : Stable P) {s : State}  (hP : P s) :
    P (State.leaveRecovery s) := by
  unfold State.leaveRecovery
  repeat' first
    | with_reducible assumption | with_reducible apply pres_ite | with_reducible apply C.startBegin
    | with_reducible apply C.clearFails | with_reducible apply C.wr
    | with_reducible refine C.same (fun h => h) (fun h => h) (fun h => h) (fun h => h) (fun h => h) (fun h => h) (fun h => h) (fun h => h) (fun h => h) (fun h => h) (fun h => h) ?_
    | with_reducible refine C.same ?_ ?_ ?_ ?_ ?_ ?_ ?_ ?_ ?_ ?_ ?_ ?_ | exact fun h => h

theorem Stable.supplyChange {P : State → Prop} (C : Stable P) {s : State} (src : Nat) (on : Bool) (hP : P s) :
    P (State.supplyChange s src on) := by
  unfold State.supplyChange
  repeat' first
    | with_reducible assumption | with_reducible apply pres_cond | with_reducible apply pres_ite
    | with_reducible apply C.inc | with_reducible apply C.detect | with_reducible apply C.showFeeds
    | with_reducible apply C.wr | split
    | with_reducible refine C.same (fun h => h) (fun h => h) (fun h => h) (fun h => h) (fun h => h) (fun h => h) (fun h => h) (fun h => h) (fun h => h) (fun h => h) (fun h => h) ?_
    | with_reducible refine C.same ?_ ?_ ?_ ?_ ?_ ?_ ?_ ?_ ?_ ?_ ?_ ?_ | exact fun h => h | intro _

theorem Stable.sntRecorded {P : State → Prop} (C : Stable P) {s : State} (old : State) (hP : P s) :
    P (State.sntRecorded s old) := by
  unfold State.sntRecorded
  repeat' first
    | with_reducible assumption | with_reducible apply C.wr

theorem Stable.islandOn {P : State → Prop} (C : Stable P) {s : State}  (hP : P s) :
    P (State.islandOn s) := by
  unfold State.islandOn
  repeat' first
    | with_reducible assumption | with_reducible apply pres_cond | with_reducible apply C.hrOff
    | with_reducible apply C.openPaths | with_reducible apply C.coreOff | with_reducible apply C.seqDrop
    | with_reducible apply C.sntRecorded | with_reducible apply C.wr
    | with_reducible refine C.same (fun h => h) (fun h => h) (fun h => h) (fun h => h) (fun h => h) (fun h => h) (fun h => h) (fun h => h) (fun h => h) (fun h => h) (fun h => h) ?_
    | with_reducible refine C.same ?_ ?_ ?_ ?_ ?_ ?_ ?_ ?_ ?_ ?_ ?_ ?_ | exact fun h => h | exact NMap.wf_keep _
    | exact fun _ => rfl | exact fun _ => Nat.zero_le _ | intro _

end Sys2Proof.Machine
end

