-- ==== Sys2Proof/Laws/Stable/Reaction.lean ====
section
/-!
SUPPORT. Laws/Stable/Reaction.lean: what the operations of Machine/Reaction.lean keep (Laws/Stable.lean).
-/

namespace Sys2Proof.Machine

set_option Elab.async false
set_option linter.unusedTactic false
set_option linter.unreachableTactic false

theorem Stable.restartProc {P : State → Prop} (C : Stable P) {s : State} (n : Nat) (hP : P s) :
    P (State.restartProc s n) := by
  unfold State.restartProc
  repeat' first
    | with_reducible assumption | with_reducible apply pres_cond | with_reducible apply pres_foldl
    | with_reducible apply C.inc | with_reducible apply C.setCond | with_reducible apply C.unhalt
    | with_reducible apply C.wr | split
    | with_reducible refine C.same (fun h => h) (fun h => h) (fun h => h) (fun h => h) (fun h => h) (fun h => h) (fun h => h) (fun h => h) (fun h => h) (fun h => h) (fun h => h) ?_
    | with_reducible refine C.same ?_ ?_ ?_ ?_ ?_ ?_ ?_ ?_ ?_ ?_ ?_ ?_ | exact fun h => h | intro _

theorem Stable.lockstep {P : State → Prop} (C : Stable P) {s : State}  (hP : P s) :
    P (State.lockstep s) := by
  unfold State.lockstep
  repeat' first
    | with_reducible assumption | with_reducible apply pres_ite | with_reducible apply C.setCond
    | with_reducible apply C.halt

theorem Stable.updateCut {P : State → Prop} (C : Stable P) {s : State}  (hP : P s) :
    P (State.updateCut s) := by
  unfold State.updateCut
  repeat' first
    | with_reducible assumption | with_reducible apply pres_cond | with_reducible apply pres_ite
    | with_reducible apply C.handoverBack | with_reducible apply C.flashAbandon | with_reducible apply C.wr
    | with_reducible refine C.same (fun h => h) (fun h => h) (fun h => h) (fun h => h) (fun h => h) (fun h => h) (fun h => h) (fun h => h) (fun h => h) (fun h => h) (fun h => h) ?_
    | with_reducible refine C.same ?_ ?_ ?_ ?_ ?_ ?_ ?_ ?_ ?_ ?_ ?_ ?_ | exact fun h => h | intro _

theorem Stable.watchdog {P : State → Prop} (C : Stable P) {s : State} (n : Nat) (hP : P s) :
    P (State.watchdog s n) := by
  unfold State.watchdog
  repeat' first
    | with_reducible assumption | with_reducible apply pres_cond | with_reducible apply pres_ite
    | with_reducible apply C.detect | with_reducible apply C.setCond | with_reducible apply C.halt
    | with_reducible apply C.handoverBack | with_reducible apply C.failStart | with_reducible apply C.updateCut | split
    | with_reducible refine C.same (fun h => h) (fun h => h) (fun h => h) (fun h => h) (fun h => h) (fun h => h) (fun h => h) (fun h => h) (fun h => h) (fun h => h) (fun h => h) ?_
    | with_reducible refine C.same ?_ ?_ ?_ ?_ ?_ ?_ ?_ ?_ ?_ ?_ ?_ ?_ | exact fun h => h | intro _

theorem Stable.reportOne {P : State → Prop} (C : Stable P) {s : State} (r : Report) (hP : P s) :
    P (State.reportOne s r) := by
  unfold State.reportOne
  repeat' first
    | with_reducible assumption | with_reducible apply pres_cond | with_reducible apply C.vendor
    | with_reducible apply C.alarmLatch | with_reducible apply C.logReport | intro _

theorem Stable.restartOwed {P : State → Prop} (C : Stable P) {s : State} (src : Nat) (hP : P s) :
    P (State.restartOwed s src) := by
  unfold State.restartOwed
  repeat' first
    | with_reducible assumption | with_reducible apply pres_cond | with_reducible apply C.restartProc | split
    | with_reducible refine C.same (fun h => h) (fun h => h) (fun h => h) (fun h => h) (fun h => h) (fun h => h) (fun h => h) (fun h => h) (fun h => h) (fun h => h) (fun h => h) ?_
    | with_reducible refine C.same ?_ ?_ ?_ ?_ ?_ ?_ ?_ ?_ ?_ ?_ ?_ ?_ | exact fun h => h | intro _

theorem Stable.reactionDone {P : State → Prop} (C : Stable P) {s : State} (hP : P s) : P s.reactionDone := by
  unfold State.reactionDone
  refine pres_ite ?_ (pres_ite (C.restartProc _ hP) hP)
  split
  · exact hP
  · rename_i t hst
    refine C.restartOwed _ (pres_foldl ?_ (fun t r ht => C.reportOne _ ht))
    refine C.same (fun h => h) (fun h => h) (fun h => h) (fun h => h) (fun h => h) (fun h => h) (fun h => ?_) (fun h => h) (fun h => h) (fun h => h) (fun h => h) hP
    show t.length ≤ 4
    rw [hst] at h
    simp only [List.length_cons] at h
    omega

theorem Stable.clearLatches {P : State → Prop} (C : Stable P) {s : State} (src : Nat) (hP : P s) :
    P (State.clearLatches s src) := by
  unfold State.clearLatches
  repeat' first
    | with_reducible assumption | with_reducible apply pres_each | with_reducible apply C.setBit | intro _

theorem Stable.quietOver {P : State → Prop} (C : Stable P) {s : State}  (hP : P s) :
    P (State.quietOver s) := by
  unfold State.quietOver
  repeat' first
    | with_reducible assumption | with_reducible apply pres_ite | with_reducible apply pres_foldl
    | with_reducible apply C.inc | with_reducible apply C.notice | with_reducible apply C.clearLatches
    | with_reducible apply C.wr
    | with_reducible refine C.same (fun h => h) (fun h => h) (fun h => h) (fun h => h) (fun h => h) (fun h => h) (fun h => h) (fun h => h) (fun h => h) (fun h => h) (fun h => h) ?_
    | with_reducible refine C.same ?_ ?_ ?_ ?_ ?_ ?_ ?_ ?_ ?_ ?_ ?_ ?_ | exact fun h => h
    | (intro h; exact Nat.le_trans (List.length_filter_le _ _) h) | intro _

theorem Stable.eventRelease {P : State → Prop} (C : Stable P) {s : State} (src : Nat) (hP : P s) :
    P (State.eventRelease s src) := by
  unfold State.eventRelease
  repeat' first
    | with_reducible assumption
    | with_reducible refine C.same (fun h => h) (fun h => h) (fun h => h) (fun h => h) (fun h => h) (fun h => h) (fun h => h) (fun h => h) (fun h => h) (fun h => h) (fun h => h) ?_
    | with_reducible refine C.same ?_ ?_ ?_ ?_ ?_ ?_ ?_ ?_ ?_ ?_ ?_ ?_ | exact fun h => h
    | (intro h; exact Nat.le_trans (List.length_filter_le _ _) h) | intro _

theorem Stable.errnRead {P : State → Prop} (C : Stable P) {s : State} (low : Bool) (hP : P s) :
    P (State.errnRead s low) := by
  unfold State.errnRead
  repeat' first
    | with_reducible assumption | with_reducible apply pres_cond | with_reducible apply pres_ite
    | with_reducible apply C.detect | with_reducible apply C.wr
    | with_reducible refine C.same (fun h => h) (fun h => h) (fun h => h) (fun h => h) (fun h => h) (fun h => h) (fun h => h) (fun h => h) (fun h => h) (fun h => h) (fun h => h) ?_
    | with_reducible refine C.same ?_ ?_ ?_ ?_ ?_ ?_ ?_ ?_ ?_ ?_ ?_ ?_ | exact fun h => h | intro _

theorem Stable.rearm {P : State → Prop} (C : Stable P) {s : State}  (hP : P s) :
    P (State.rearm s) := by
  unfold State.rearm
  repeat' first
    | with_reducible assumption | with_reducible apply C.wr
    | with_reducible refine C.same (fun h => h) (fun h => h) (fun h => h) (fun h => h) (fun h => h) (fun h => h) (fun h => h) (fun h => h) (fun h => h) (fun h => h) (fun h => h) ?_
    | with_reducible refine C.same ?_ ?_ ?_ ?_ ?_ ?_ ?_ ?_ ?_ ?_ ?_ ?_ | exact fun h => h | exact fun _ => rfl
    | exact fun _ => Nat.zero_le _

theorem Stable.injectLate {P : State → Prop} (C : Stable P) {s : State} (src inst : Nat) (hP : P s) :
    P (State.injectLate s src inst) := by
  unfold State.injectLate
  repeat' first
    | with_reducible assumption | with_reducible apply pres_ite | with_reducible apply C.setBit
    | with_reducible apply C.detect | with_reducible apply C.wr
    | with_reducible refine C.same (fun h => h) (fun h => h) (fun h => h) (fun h => h) (fun h => h) (fun h => h) (fun h => h) (fun h => h) (fun h => h) (fun h => h) (fun h => h) ?_
    | with_reducible refine C.same ?_ ?_ ?_ ?_ ?_ ?_ ?_ ?_ ?_ ?_ ?_ ?_ | exact fun h => h
    | (intro h; exact Nat.le_trans (List.length_filter_le _ _) h) | intro _

theorem Stable.swapSlice {P : State → Prop} (C : Stable P) {s : State} (t k : Nat) (hP : P s) :
    P (State.swapSlice s t k) := by
  unfold State.swapSlice
  repeat' first
    | with_reducible assumption | with_reducible apply pres_ite | with_reducible apply C.inc
    | with_reducible apply C.tlog | with_reducible apply C.occur | with_reducible apply C.wr
    | with_reducible refine C.same (fun h => h) (fun h => h) (fun h => h) (fun h => h) (fun h => h) (fun h => h) (fun h => h) (fun h => h) (fun h => h) (fun h => h) (fun h => h) ?_
    | with_reducible refine C.same ?_ ?_ ?_ ?_ ?_ ?_ ?_ ?_ ?_ ?_ ?_ ?_ | exact fun h => h
    | (intro h; exact Nat.le_trans (List.length_filter_le _ _) h) | intro _

theorem Stable.cmpConds {P : State → Prop} (C : Stable P) {s : State}  (hP : P s) :
    P (State.cmpConds s) := by
  unfold State.cmpConds
  repeat' first
    | with_reducible assumption | with_reducible apply pres_cond | with_reducible apply C.setCond | intro _

theorem Stable.testSlice {P : State → Prop} (C : Stable P) {s : State} (t k : Nat) (ok : Bool) (hP : P s) :
    P (State.testSlice s t k ok) := by
  unfold State.testSlice
  repeat' first
    | with_reducible assumption | with_reducible apply pres_cond | with_reducible apply pres_ite
    | with_reducible apply C.inc | with_reducible apply C.setBit | with_reducible apply C.detect
    | with_reducible apply C.swapSlice | split
    | with_reducible refine C.same (fun h => h) (fun h => h) (fun h => h) (fun h => h) (fun h => h) (fun h => h) (fun h => h) (fun h => h) (fun h => h) (fun h => h) (fun h => h) ?_
    | with_reducible refine C.same ?_ ?_ ?_ ?_ ?_ ?_ ?_ ?_ ?_ ?_ ?_ ?_ | exact fun h => h | intro _

theorem Stable.compareTest {P : State → Prop} (C : Stable P) {s : State} (ok okOther : Bool) (hP : P s) :
    P (State.compareTest s ok okOther) := by
  unfold State.compareTest
  repeat' first
    | with_reducible assumption | with_reducible apply pres_cond | with_reducible apply pres_foldl
    | with_reducible apply C.injSeen | with_reducible apply C.cmpConds | with_reducible apply C.testSlice
    | with_reducible refine C.same (fun h => h) (fun h => h) (fun h => h) (fun h => h) (fun h => h) (fun h => h) (fun h => h) (fun h => h) (fun h => h) (fun h => h) (fun h => h) ?_
    | with_reducible refine C.same ?_ ?_ ?_ ?_ ?_ ?_ ?_ ?_ ?_ ?_ ?_ ?_ | exact fun h => h | intro _

end Sys2Proof.Machine
end

