-- ==== Sys2Proof/Laws/Stable/Calibration.lean ====
section
/-!
SUPPORT. Laws/Stable/Calibration.lean: what the operations of Machine/Calibration.lean keep (Laws/Stable.lean).
-/

namespace Sys2Proof.Machine

set_option Elab.async false
set_option linter.unusedTactic false
set_option linter.unreachableTactic false

theorem Stable.calTrigger {P : State → Prop} (C : Stable P) {s : State}  (hP : P s) :
    P (State.calTrigger s) := by
  unfold State.calTrigger
  repeat' first
    | with_reducible assumption | with_reducible apply pres_ite | with_reducible apply C.calBegin
    | with_reducible refine C.same (fun h => h) (fun h => h) (fun h => h) (fun h => h) (fun h => h) (fun h => h) (fun h => h) (fun h => h) (fun h => h) (fun h => h) (fun h => h) ?_
    | with_reducible refine C.same ?_ ?_ ?_ ?_ ?_ ?_ ?_ ?_ ?_ ?_ ?_ ?_ | exact fun h => h

theorem Stable.calRun {P : State → Prop} (C : Stable P) {s : State} (who : Option Requester) (hP : P s) :
    P (State.calRun s who) := by
  unfold State.calRun
  repeat' first
    | with_reducible assumption | with_reducible apply pres_cond | with_reducible apply C.command
    | with_reducible apply C.calTrigger | with_reducible apply C.wr | split
    | with_reducible refine C.same (fun h => h) (fun h => h) (fun h => h) (fun h => h) (fun h => h) (fun h => h) (fun h => h) (fun h => h) (fun h => h) (fun h => h) (fun h => h) ?_
    | with_reducible refine C.same ?_ ?_ ?_ ?_ ?_ ?_ ?_ ?_ ?_ ?_ ?_ ?_ | exact fun h => h | intro _

theorem Stable.calTemp {P : State → Prop} (C : Stable P) {s : State}  (hP : P s) :
    P (State.calTemp s) := by
  unfold State.calTemp
  repeat' first
    | with_reducible assumption | with_reducible apply pres_cond | with_reducible apply C.calTrigger | intro _

theorem Stable.adcResult {P : State → Prop} (C : Stable P) {s : State} (a : Nat) (gain ofs : Int) (hP : P s) :
    P (State.adcResult s a gain ofs) := by
  unfold State.adcResult
  repeat' first
    | with_reducible assumption | with_reducible apply pres_ite | with_reducible apply C.detect
    | with_reducible apply C.wr
    | with_reducible refine C.same (fun h => h) (fun h => h) (fun h => h) (fun h => h) (fun h => h) (fun h => h) (fun h => h) (fun h => h) (fun h => h) (fun h => h) (fun h => h) ?_
    | with_reducible refine C.same ?_ ?_ ?_ ?_ ?_ ?_ ?_ ?_ ?_ ?_ ?_ ?_ | exact fun h => h

theorem Stable.selectSlice {P : State → Prop} (C : Stable P) {s : State} (t : Nat) (hP : P s) :
    P (State.selectSlice s t) := by
  unfold State.selectSlice
  repeat' first
    | with_reducible assumption | with_reducible apply pres_cond | with_reducible apply pres_ite
    | with_reducible apply C.detect | with_reducible apply C.swapSlice | with_reducible apply C.wr | split
    | with_reducible refine C.same (fun h => h) (fun h => h) (fun h => h) (fun h => h) (fun h => h) (fun h => h) (fun h => h) (fun h => h) (fun h => h) (fun h => h) (fun h => h) ?_
    | with_reducible refine C.same ?_ ?_ ?_ ?_ ?_ ?_ ?_ ?_ ?_ ?_ ?_ ?_ | exact fun h => h
    | (intro h; exact Nat.le_trans (List.length_filter_le _ _) h) | intro _

theorem Stable.measureSlices {P : State → Prop} (C : Stable P) {s : State} (trips : List (Nat × Nat × Int)) (again : List (Nat × Nat)) (hP : P s) :
    P (State.measureSlices s trips again) := by
  unfold State.measureSlices
  repeat' first
    | with_reducible assumption | with_reducible apply pres_cond | with_reducible apply pres_each
    | with_reducible apply pres_foldl | with_reducible apply C.setBit | with_reducible apply C.cmpConds
    | with_reducible apply C.selectSlice | with_reducible apply C.wr | intro _

theorem Stable.storeCal {P : State → Prop} (C : Stable P) {s : State}  (hP : P s) :
    P (State.storeCal s) := by
  unfold State.storeCal
  repeat' first
    | with_reducible assumption | with_reducible apply pres_ite
    | with_reducible refine C.same (fun h => h) (fun h => h) (fun h => h) (fun h => h) (fun h => h) (fun h => h) (fun h => h) (fun h => h) (fun h => h) (fun h => h) (fun h => h) ?_
    | with_reducible refine C.same ?_ ?_ ?_ ?_ ?_ ?_ ?_ ?_ ?_ ?_ ?_ ?_ | exact fun h => h

theorem Stable.calEnd {P : State → Prop} (C : Stable P) {s : State}  (hP : P s) :
    P (State.calEnd s) := by
  unfold State.calEnd
  repeat' first
    | with_reducible assumption | with_reducible apply pres_cond | with_reducible apply pres_ite
    | with_reducible apply C.inc | with_reducible apply C.storeCal | with_reducible apply C.wr | intro _

theorem Stable.adcDone {P : State → Prop} (C : Stable P) {s : State} (gain ofs : Int) (trips : List (Nat × Nat × Int)) (again : List (Nat × Nat)) (hP : P s) :
    P (State.adcDone s gain ofs trips again) := by
  unfold State.adcDone
  repeat' first
    | with_reducible assumption | with_reducible apply pres_ite | with_reducible apply C.adcResult
    | with_reducible apply C.measureSlices | with_reducible apply C.calEnd | with_reducible apply C.wr

theorem Stable.moduleCal {P : State → Prop} (C : Stable P) {s : State} (uv : Nat) (hP : P s) :
    P (State.moduleCal s uv) := by
  unfold State.moduleCal
  repeat' first
    | with_reducible assumption | with_reducible apply pres_ite | with_reducible apply C.reject
    | with_reducible apply C.wr
    | with_reducible refine C.same (fun h => h) (fun h => h) (fun h => h) (fun h => h) (fun h => h) (fun h => h) (fun h => h) (fun h => h) (fun h => h) (fun h => h) (fun h => h) ?_
    | with_reducible refine C.same ?_ ?_ ?_ ?_ ?_ ?_ ?_ ?_ ?_ ?_ ?_ ?_ | exact fun h => h

theorem Stable.vrefCheck {P : State → Prop} (C : Stable P) {s : State} (uv : Nat) (hP : P s) :
    P (State.vrefCheck s uv) := by
  unfold State.vrefCheck
  repeat' first
    | with_reducible assumption | with_reducible apply pres_ite | with_reducible apply C.detect
    | with_reducible apply C.calTrigger | with_reducible apply C.wr
    | with_reducible refine C.same (fun h => h) (fun h => h) (fun h => h) (fun h => h) (fun h => h) (fun h => h) (fun h => h) (fun h => h) (fun h => h) (fun h => h) (fun h => h) ?_
    | with_reducible refine C.same ?_ ?_ ?_ ?_ ?_ ?_ ?_ ?_ ?_ ?_ ?_ ?_ | exact fun h => h

theorem Stable.vrefResume {P : State → Prop} (C : Stable P) {s : State}  (hP : P s) :
    P (State.vrefResume s) := by
  unfold State.vrefResume
  repeat' first
    | with_reducible assumption | with_reducible apply pres_ite | with_reducible apply C.vrefCheck | split
    | with_reducible refine C.same (fun h => h) (fun h => h) (fun h => h) (fun h => h) (fun h => h) (fun h => h) (fun h => h) (fun h => h) (fun h => h) (fun h => h) (fun h => h) ?_
    | with_reducible refine C.same ?_ ?_ ?_ ?_ ?_ ?_ ?_ ?_ ?_ ?_ ?_ ?_ | exact fun h => h

theorem Stable.clockBad {P : State → Prop} (C : Stable P) {s : State} (d : Nat) (hP : P s) :
    P (State.clockBad s d) := by
  unfold State.clockBad
  repeat' first
    | with_reducible assumption | with_reducible apply pres_ite | with_reducible apply pres_foldl
    | with_reducible apply C.setCond
    | with_reducible refine C.same (fun h => h) (fun h => h) (fun h => h) (fun h => h) (fun h => h) (fun h => h) (fun h => h) (fun h => h) (fun h => h) (fun h => h) (fun h => h) ?_
    | with_reducible refine C.same ?_ ?_ ?_ ?_ ?_ ?_ ?_ ?_ ?_ ?_ ?_ ?_ | exact fun h => h | intro _

theorem Stable.clockGood {P : State → Prop} (C : Stable P) {s : State} (d : Nat) (hP : P s) :
    P (State.clockGood s d) := by
  unfold State.clockGood
  repeat' first
    | with_reducible assumption | with_reducible apply pres_ite | with_reducible apply pres_foldl
    | with_reducible apply C.setCond
    | with_reducible refine C.same (fun h => h) (fun h => h) (fun h => h) (fun h => h) (fun h => h) (fun h => h) (fun h => h) (fun h => h) (fun h => h) (fun h => h) (fun h => h) ?_
    | with_reducible refine C.same ?_ ?_ ?_ ?_ ?_ ?_ ?_ ?_ ?_ ?_ ?_ ?_ | exact fun h => h
    | (intro h; exact Nat.le_trans (List.length_filter_le _ _) h) | intro _

end Sys2Proof.Machine
end

