-- ==== Sys2Proof/Laws/Stable/Keep.lean ====
section
/-!
SUPPORT. Laws/Stable/Keep.lean: what the operations of Machine/Keep.lean keep (Laws/Stable.lean).
-/

namespace Sys2Proof.Machine

set_option Elab.async false
set_option linter.unusedTactic false
set_option linter.unreachableTactic false

theorem Stable.remark {P : State → Prop} (C : Stable P) {s : State} (g : Nat) (hP : P s) :
    P (State.remark s g) := by
  unfold State.remark
  repeat' first
    | with_reducible assumption | with_reducible apply pres_ite
    | with_reducible refine C.same (fun h => h) (fun h => h) (fun h => h) (fun h => h) (fun h => h) (fun h => h) (fun h => h) (fun h => h) (fun h => h) (fun h => h) (fun h => h) ?_
    | with_reducible refine C.same ?_ ?_ ?_ ?_ ?_ ?_ ?_ ?_ ?_ ?_ ?_ ?_ | exact fun h => h

theorem Stable.steepLine {P : State → Prop} (C : Stable P) {s : State} (r : Nat) (hP : P s) :
    P (State.steepLine s r) := by
  unfold State.steepLine
  repeat' first
    | with_reducible assumption | with_reducible apply pres_ite | with_reducible apply pres_foldl
    | with_reducible apply C.detect | with_reducible apply C.showSteep | with_reducible apply C.remark
    | with_reducible refine C.same (fun h => h) (fun h => h) (fun h => h) (fun h => h) (fun h => h) (fun h => h) (fun h => h) (fun h => h) (fun h => h) (fun h => h) (fun h => h) ?_
    | with_reducible refine C.same ?_ ?_ ?_ ?_ ?_ ?_ ?_ ?_ ?_ ?_ ?_ ?_ | exact fun h => h
    | (intro h; exact Nat.le_trans (List.length_filter_le _ _) h) | intro _

theorem Stable.maskLost {P : State → Prop} (C : Stable P) {s : State} (g : Nat) (hP : P s) :
    P (State.maskLost s g) := by
  unfold State.maskLost
  repeat' first
    | with_reducible assumption | with_reducible apply pres_cond | with_reducible apply pres_foldl
    | with_reducible apply C.setPoison | with_reducible apply C.maskAll | intro _

theorem Stable.maskTableLine {P : State → Prop} (C : Stable P) {s : State} (n : Nat) (hP : P s) :
    P (State.maskTableLine s n) := by
  unfold State.maskTableLine
  repeat' first
    | with_reducible assumption | with_reducible apply pres_foldl | with_reducible apply C.detect
    | with_reducible apply C.maskLost | intro _

theorem Stable.heatLine {P : State → Prop} (C : Stable P) {s : State} (n : Nat) (hP : P s) :
    P (State.heatLine s n) := by
  unfold State.heatLine
  repeat' first
    | with_reducible assumption | with_reducible apply pres_ite | with_reducible apply pres_foldl
    | with_reducible apply C.detect
    | with_reducible refine C.same (fun h => h) (fun h => h) (fun h => h) (fun h => h) (fun h => h) (fun h => h) (fun h => h) (fun h => h) (fun h => h) (fun h => h) (fun h => h) ?_
    | with_reducible refine C.same ?_ ?_ ?_ ?_ ?_ ?_ ?_ ?_ ?_ ?_ ?_ ?_ | exact fun h => h | exact NMap.wf_set _ _
    | intro _

theorem Stable.debtLine {P : State → Prop} (C : Stable P) {s : State} (t n : Nat) (hP : P s) :
    P (State.debtLine s t n) := by
  unfold State.debtLine
  repeat' first
    | with_reducible assumption | with_reducible apply pres_foldl | with_reducible apply C.setDebt | intro _

theorem Stable.mapLine {P : State → Prop} (C : Stable P) {s : State} (n : Nat) (hP : P s) :
    P (State.mapLine s n) := by
  unfold State.mapLine
  repeat' first
    | with_reducible assumption | with_reducible apply pres_foldl | with_reducible apply C.setCond
    | with_reducible apply C.unreadable | intro _

theorem Stable.dirLine {P : State → Prop} (C : Stable P) {s : State} (n : Nat) (hP : P s) :
    P (State.dirLine s n) := by
  unfold State.dirLine
  repeat' first
    | with_reducible assumption | with_reducible apply pres_foldl | with_reducible apply C.setCond
    | with_reducible apply C.pageLost | intro _

theorem Stable.keepUe {P : State → Prop} (C : Stable P) {s : State} (g l : Nat) (hP : P s) :
    P (State.keepUe s g l) := by
  unfold State.keepUe
  repeat' first
    | with_reducible assumption | with_reducible apply pres_cond | with_reducible apply C.bitmapUe
    | with_reducible apply C.dmaFails | with_reducible apply C.steepLine | with_reducible apply C.maskTableLine
    | with_reducible apply C.heatLine | with_reducible apply C.debtLine | with_reducible apply C.mapLine
    | with_reducible apply C.dirLine | split
    | with_reducible refine C.same (fun h => h) (fun h => h) (fun h => h) (fun h => h) (fun h => h) (fun h => h) (fun h => h) (fun h => h) (fun h => h) (fun h => h) (fun h => h) ?_
    | with_reducible refine C.same ?_ ?_ ?_ ?_ ?_ ?_ ?_ ?_ ?_ ?_ ?_ ?_ | exact fun h => h | exact NMap.wf_keep _
    | (intro h; simp only [List.length_map]; exact h) | intro _

theorem Stable.patrolRead {P : State → Prop} (C : Stable P) {s : State} (e : Nat × Ecc) (hP : P s) :
    P (State.patrolRead s e) := by
  unfold State.patrolRead
  repeat' first
    | with_reducible assumption | with_reducible apply pres_ite | with_reducible apply C.corrected
    | with_reducible apply C.recordUe | with_reducible apply C.patrolLine | with_reducible apply C.keepUe | split
    | with_reducible refine C.same (fun h => h) (fun h => h) (fun h => h) (fun h => h) (fun h => h) (fun h => h) (fun h => h) (fun h => h) (fun h => h) (fun h => h) (fun h => h) ?_
    | with_reducible refine C.same ?_ ?_ ?_ ?_ ?_ ?_ ?_ ?_ ?_ ?_ ?_ ?_ | exact fun h => h | exact NMap.wf_keep _

theorem Stable.patrol {P : State → Prop} (C : Stable P) {s : State} (c : Nat) (found : List (Nat × Ecc)) (hP : P s) :
    P (State.patrol s c found) := by
  unfold State.patrol
  repeat' first
    | with_reducible assumption | with_reducible apply pres_cond | with_reducible apply pres_ite
    | with_reducible apply pres_foldl | with_reducible apply C.bump | with_reducible apply C.patrolRead
    | with_reducible apply C.wr
    | with_reducible refine C.same (fun h => h) (fun h => h) (fun h => h) (fun h => h) (fun h => h) (fun h => h) (fun h => h) (fun h => h) (fun h => h) (fun h => h) (fun h => h) ?_
    | with_reducible refine C.same ?_ ?_ ?_ ?_ ?_ ?_ ?_ ?_ ?_ ?_ ?_ ?_ | exact fun h => h | exact NMap.wf_set _ _
    | intro _

end Sys2Proof.Machine
end

