-- ==== Sys2Proof/Laws/Stable/PageRegs.lean ====
section
/-!
SUPPORT. Laws/Stable/PageRegs.lean: what the operations of Machine/PageRegs.lean keep (Laws/Stable.lean).
-/

namespace Sys2Proof.Machine

set_option Elab.async false
set_option linter.unusedTactic false
set_option linter.unreachableTactic false

theorem Stable.followBulk {P : State → Prop} (C : Stable P) {s : State}  (hP : P s) :
    P (State.followBulk s) := by
  unfold State.followBulk
  repeat' first
    | with_reducible assumption | with_reducible apply pres_ite | with_reducible apply C.bulkBegin
    | with_reducible apply C.wr

theorem Stable.followDlp {P : State → Prop} (C : Stable P) {s : State} (old : State) (n : Nat) (tx : Bool) (hP : P s) :
    P (s.followDlp old n tx) := by
  unfold State.followDlp
  extract_lets s1 s2 s3
  have h1 : P s1 := pres_cond hP (fun t ht => C.setDport _ _ ht)
  have h3 : P s3 := pres_cond (C.showFeed _ h1) (fun t ht => C.portFall _ _ ht)
  exact pres_cond h3 (fun t ht => C.adjacency (C.wr _ ht))

theorem Stable.follow {P : State → Prop} (C : Stable P) {s : State} (old : State) (page off bits : Nat) (hP : P s) :
    P (s.follow old page off bits) := by
  unfold State.follow
  extract_lets hit c p s1
  have h1 : P s1 := pres_cond hP (fun t ht => C.setPack _ _ ht)
  refine pres_ite (C.dirtyLoad _ hP) ?_
  refine pres_ite (pres_cond hP fun t ht => C.wearAllow ht) ?_
  refine pres_ite (C.followBulk hP) ?_
  refine pres_ite (C.wr _ (pres_cond hP fun t ht => C.warning _ ht)) ?_
  refine pres_ite (C.showPool hP) ?_
  refine pres_ite (C.armComparators hP) ?_
  refine pres_ite (pres_cond (C.showColl (C.showRoute hP)) fun t ht => C.announce ht) ?_
  refine pres_ite (C.followDlp _ _ _ hP) ?_
  refine pres_ite (C.gaugeShow hP) ?_
  refine pres_ite (C.chargeCheck _ h1) ?_
  refine pres_ite (pres_cond hP fun t ht => C.setSource _ ht) ?_
  refine pres_ite (C.showTlog hP) ?_
  refine pres_ite (C.showRec hP) ?_
  exact pres_ite (C.showRest hP) hP

theorem Stable.rejectH {P : State → Prop} (C : Stable P) {s : State} (page : Nat) (hP : P s) :
    P (State.rejectH s page) := by
  unfold State.rejectH
  repeat' first
    | with_reducible assumption | with_reducible apply C.notice | with_reducible apply C.reject

theorem Stable.putNow {P : State → Prop} (C : Stable P) {s : State} (f : Fld) (v : Nat) (hP : P s) :
    P (State.putNow s f v) := by
  unfold State.putNow
  repeat' first
    | with_reducible assumption | with_reducible apply C.wr
    | with_reducible refine C.same (fun h => h) (fun h => h) (fun h => h) (fun h => h) (fun h => h) (fun h => h) (fun h => h) (fun h => h) (fun h => h) (fun h => h) (fun h => h) ?_
    | with_reducible refine C.same ?_ ?_ ?_ ?_ ?_ ?_ ?_ ?_ ?_ ?_ ?_ ?_ | exact fun h => h | exact NMap.wf_set _ _

theorem Stable.writeField {P : State → Prop} (C : Stable P) {s : State} (page : Nat) (r : WriteRow) (f : Fld) (v : Nat) (hP : P s) :
    P (State.writeField s page r f v) := by
  unfold State.writeField
  repeat' first
    | with_reducible assumption | with_reducible apply pres_ite | with_reducible apply C.reject
    | with_reducible apply C.rejectH | with_reducible apply C.putNow | with_reducible apply C.wr
    | with_reducible refine C.same (fun h => h) (fun h => h) (fun h => h) (fun h => h) (fun h => h) (fun h => h) (fun h => h) (fun h => h) (fun h => h) (fun h => h) (fun h => h) ?_
    | with_reducible refine C.same ?_ ?_ ?_ ?_ ?_ ?_ ?_ ?_ ?_ ?_ ?_ ?_ | exact fun h => h | exact NMap.wf_set _ _

theorem Stable.writeHeader {P : State → Prop} (C : Stable P) {s : State} (page off v : Nat) (hP : P s) :
    P (State.writeHeader s page off v) := by
  unfold State.writeHeader
  repeat' first
    | with_reducible assumption | with_reducible apply pres_cond | with_reducible apply pres_ite
    | with_reducible apply C.reject | with_reducible apply C.wr | intro _

theorem Stable.reactByte {P : State → Prop} (C : Stable P) {s : State} (src b : Nat) (hP : P s) :
    P (State.reactByte s src b) := by
  unfold State.reactByte
  repeat' first
    | with_reducible assumption | with_reducible apply pres_ite | with_reducible apply C.inc
    | with_reducible refine C.same (fun h => h) (fun h => h) (fun h => h) (fun h => h) (fun h => h) (fun h => h) (fun h => h) (fun h => h) (fun h => h) (fun h => h) (fun h => h) ?_
    | with_reducible refine C.same ?_ ?_ ?_ ?_ ?_ ?_ ?_ ?_ ?_ ?_ ?_ ?_ | exact fun h => h | exact NMap.wf_set _ _

theorem Stable.writeSpecial {P : State → Prop} (C : Stable P) {s : State} (page off v : Nat) (hP : P s) :
    P (State.writeSpecial s page off v) := by
  unfold State.writeSpecial
  repeat' first
    | with_reducible assumption | with_reducible apply pres_ite | with_reducible apply pres_each
    | with_reducible apply C.reject | with_reducible apply C.reactByte | with_reducible apply C.wr | intro _

theorem Stable.flashWrite {P : State → Prop} (C : Stable P) {s : State} (off v : Nat) (hP : P s) :
    P (State.flashWrite s off v) := by
  unfold State.flashWrite
  repeat' first
    | with_reducible assumption | with_reducible apply pres_cond | with_reducible apply pres_ite
    | with_reducible apply C.reject | with_reducible apply C.breakSeq | intro _

theorem Stable.writeWord {P : State → Prop} (C : Stable P) {s : State} (who : Requester) (page off size v : Nat) (hP : P s) :
    P (State.writeWord s who page off size v) := by
  unfold State.writeWord
  repeat' first
    | with_reducible assumption | with_reducible apply pres_cond | with_reducible apply pres_ite
    | with_reducible apply pres_each | with_reducible apply pres_foldl | with_reducible apply C.reject
    | with_reducible apply C.follow | with_reducible apply C.writeField | with_reducible apply C.writeHeader
    | with_reducible apply C.writeSpecial | with_reducible apply C.flashWrite | intro _

theorem Stable.applyWaiting {P : State → Prop} (C : Stable P) {s : State} (page : Nat) (p : WriteRow → Bool) (hP : P s) :
    P (State.applyWaiting s page p) := by
  unfold State.applyWaiting
  repeat' first
    | with_reducible assumption | with_reducible apply pres_foldl | with_reducible apply C.wr
    | with_reducible refine C.same (fun h => h) (fun h => h) (fun h => h) (fun h => h) (fun h => h) (fun h => h) (fun h => h) (fun h => h) (fun h => h) (fun h => h) (fun h => h) ?_
    | with_reducible refine C.same ?_ ?_ ?_ ?_ ?_ ?_ ?_ ?_ ?_ ?_ ?_ ?_ | exact fun h => h | exact NMap.wf_set _ _
    | (intro h; exact Nat.le_trans (List.length_filter_le _ _) h) | intro _

theorem Stable.dropWaiting {P : State → Prop} (C : Stable P) {s : State} (page : Nat) (p : WriteRow → Bool) (hP : P s) :
    P (State.dropWaiting s page p) := by
  unfold State.dropWaiting
  repeat' first
    | with_reducible assumption | with_reducible apply pres_foldl
    | with_reducible refine C.same (fun h => h) (fun h => h) (fun h => h) (fun h => h) (fun h => h) (fun h => h) (fun h => h) (fun h => h) (fun h => h) (fun h => h) (fun h => h) ?_
    | with_reducible refine C.same ?_ ?_ ?_ ?_ ?_ ?_ ?_ ?_ ?_ ?_ ?_ ?_ | exact fun h => h | exact NMap.wf_set _ _
    | (intro h; exact Nat.le_trans (List.length_filter_le _ _) h) | intro _

theorem Stable.retarget {P : State → Prop} (C : Stable P) {s : State} (t eui gen : Nat) (had : RSet) (hP : P s) :
    P (State.retarget s t eui gen had) := by
  unfold State.retarget
  repeat' first
    | with_reducible assumption | with_reducible apply pres_cond | with_reducible apply pres_ite
    | with_reducible apply C.setDebt | with_reducible apply C.setSends | with_reducible apply C.rackSettle
    | with_reducible apply C.abandonSends | with_reducible apply C.rackTo | with_reducible apply C.openTarget
    | with_reducible apply C.wr
    | with_reducible refine C.same (fun h => h) (fun h => h) (fun h => h) (fun h => h) (fun h => h) (fun h => h) (fun h => h) (fun h => h) (fun h => h) (fun h => h) (fun h => h) ?_
    | with_reducible refine C.same ?_ ?_ ?_ ?_ ?_ ?_ ?_ ?_ ?_ ?_ ?_ ?_ | exact fun h => h | exact fun _ => rfl
    | exact fun _ => Nat.zero_le _ | (intro h; exact Nat.le_trans (List.length_filter_le _ _) h) | intro _

theorem Stable.commitRanges {P : State → Prop} (C : Stable P) {s : State}  (hP : P s) :
    P (State.commitRanges s) := by
  unfold State.commitRanges
  repeat' first
    | with_reducible assumption | with_reducible apply pres_ite | with_reducible apply C.detect
    | with_reducible apply C.reject | with_reducible apply C.applyWaiting | with_reducible apply C.dropWaiting
    | with_reducible apply C.retarget

theorem Stable.commitZones {P : State → Prop} (C : Stable P) {s : State}  (hP : P s) :
    P (State.commitZones s) := by
  unfold State.commitZones
  repeat' first
    | with_reducible assumption | with_reducible apply pres_ite | with_reducible apply C.detect
    | with_reducible apply C.reject | with_reducible apply C.showZ | with_reducible apply C.showImage
    | with_reducible apply C.resizeGo | with_reducible apply C.applyWaiting | with_reducible apply C.dropWaiting
    | with_reducible apply C.wr
    | with_reducible refine C.same (fun h => h) (fun h => h) (fun h => h) (fun h => h) (fun h => h) (fun h => h) (fun h => h) (fun h => h) (fun h => h) (fun h => h) (fun h => h) ?_
    | with_reducible refine C.same ?_ ?_ ?_ ?_ ?_ ?_ ?_ ?_ ?_ ?_ ?_ ?_ | exact fun h => h
    | (intro h; exact Nat.le_trans (List.length_filter_le _ _) h) | intro _

theorem Stable.commitStore {P : State → Prop} (C : Stable P) {s : State}  (hP : P s) :
    P (State.commitStore s) := by
  unfold State.commitStore
  repeat' first
    | with_reducible assumption | with_reducible apply pres_ite | with_reducible apply pres_each
    | with_reducible apply C.inc | with_reducible apply C.setBit | with_reducible apply C.detect
    | with_reducible apply C.reject | with_reducible apply C.applyWaiting | with_reducible apply C.wr
    | with_reducible refine C.same (fun h => h) (fun h => h) (fun h => h) (fun h => h) (fun h => h) (fun h => h) (fun h => h) (fun h => h) (fun h => h) (fun h => h) (fun h => h) ?_
    | with_reducible refine C.same ?_ ?_ ?_ ?_ ?_ ?_ ?_ ?_ ?_ ?_ ?_ ?_ | exact fun h => h | intro _

theorem Stable.commitPage {P : State → Prop} (C : Stable P) {s : State} (page : Nat) (hP : P s) :
    P (State.commitPage s page) := by
  unfold State.commitPage
  repeat' first
    | with_reducible assumption | with_reducible apply pres_ite | with_reducible apply C.applyWaiting
    | with_reducible apply C.commitRanges | with_reducible apply C.commitZones | with_reducible apply C.commitStore
    | with_reducible apply C.wr

theorem Stable.safePoint {P : State → Prop} (C : Stable P) {s : State} (page : Nat) (hP : P s) :
    P (State.safePoint s page) := by
  unfold State.safePoint
  repeat' first
    | with_reducible assumption | with_reducible apply pres_cond | with_reducible apply C.follow
    | with_reducible apply C.applyWaiting | with_reducible apply C.commitPage | intro _

end Sys2Proof.Machine
end

