-- ==== Sys2Proof/Laws/Stable/Pages.lean ====
section
/-!
SUPPORT. Laws/Stable/Pages.lean: what the operations of Machine/Pages.lean keep (Laws/Stable.lean).
-/

namespace Sys2Proof.Machine

set_option Elab.async false
set_option linter.unusedTactic false
set_option linter.unreachableTactic false

theorem Stable.pairRead {P : State → Prop} (C : Stable P) {s : State} (who : Requester) (n : Nat) (lo high : Bool) (v hi : Nat) (hP : P s) :
    P (State.pairRead s who n lo high v hi).2 := by
  unfold State.pairRead
  repeat' first
    | with_reducible assumption | with_reducible apply pres_ite | with_reducible apply pres_ite_snd | split
    | with_reducible refine C.same (fun h => h) (fun h => h) (fun h => h) (fun h => h) (fun h => h) (fun h => h) (fun h => h) (fun h => h) (fun h => h) (fun h => h) (fun h => h) ?_
    | with_reducible refine C.same ?_ ?_ ?_ ?_ ?_ ?_ ?_ ?_ ?_ ?_ ?_ ?_ | exact fun h => h | exact NMap.wf_set _ _

theorem Stable.readBy {P : State → Prop} (C : Stable P) {s : State} (who : Requester) (off size base : Nat) (word : Nat → Nat) (lo : Nat → Bool) (hP : P s) :
    P (State.readBy s who off size base word lo) := by
  unfold State.readBy
  repeat' first
    | with_reducible assumption | with_reducible apply pres_ite | with_reducible apply C.takeFree
    | with_reducible apply C.giveReg | with_reducible apply C.pairRead | split
    | with_reducible refine C.same (fun h => h) (fun h => h) (fun h => h) (fun h => h) (fun h => h) (fun h => h) (fun h => h) (fun h => h) (fun h => h) (fun h => h) (fun h => h) ?_
    | with_reducible refine C.same ?_ ?_ ?_ ?_ ?_ ?_ ?_ ?_ ?_ ?_ ?_ ?_ | exact fun h => h

theorem Stable.pageRead {P : State → Prop} (C : Stable P) {s : State} (who : Requester) (page off size : Nat) (hP : P s) :
    P (State.pageRead s who page off size) := by
  unfold State.pageRead
  repeat' first
    | with_reducible assumption | with_reducible apply pres_cond | with_reducible apply pres_ite
    | with_reducible apply C.showRest | with_reducible apply C.giveReg | with_reducible apply C.sqpNext
    | with_reducible apply C.readBy | intro _

theorem Stable.barRead {P : State → Prop} (C : Stable P) {s : State} (who : Requester) (p size : Nat) (a : Place) (hP : P s) :
    P (State.barRead s who p size a) := by
  unfold State.barRead
  repeat' first
    | with_reducible assumption | with_reducible apply pres_ite | with_reducible apply C.giveReg
    | with_reducible apply C.readBy | with_reducible apply C.pageRead | with_reducible apply C.slotWord | split
    | with_reducible refine C.same (fun h => h) (fun h => h) (fun h => h) (fun h => h) (fun h => h) (fun h => h) (fun h => h) (fun h => h) (fun h => h) (fun h => h) (fun h => h) ?_
    | with_reducible refine C.same ?_ ?_ ?_ ?_ ?_ ?_ ?_ ?_ ?_ ?_ ?_ ?_ | exact fun h => h | intro _

theorem Stable.readReg {P : State → Prop} (C : Stable P) {s : State} (who : Requester) (a : RegAddr) (size : Nat) (hP : P s) :
    P (State.readReg s who a size) := by
  unfold State.readReg
  repeat' first
    | with_reducible assumption | with_reducible apply C.pageRead | with_reducible apply C.barRead | split
    | with_reducible refine C.same (fun h => h) (fun h => h) (fun h => h) (fun h => h) (fun h => h) (fun h => h) (fun h => h) (fun h => h) (fun h => h) (fun h => h) (fun h => h) ?_
    | with_reducible refine C.same ?_ ?_ ?_ ?_ ?_ ?_ ?_ ?_ ?_ ?_ ?_ ?_ | exact fun h => h

theorem Stable.commitWrite {P : State → Prop} (C : Stable P) {s : State} (page : Nat) (hP : P s) :
    P (State.commitWrite s page) := by
  unfold State.commitWrite
  repeat' first
    | with_reducible assumption | with_reducible apply pres_cond | with_reducible apply pres_ite
    | with_reducible apply C.safePoint | with_reducible apply C.wr | intro _

theorem Stable.linkTrained {P : State → Prop} (C : Stable P) {s : State} (p width rate : Nat) (flit256 cxl : Bool) (corr replay : Nat) (bad : Bool) (hP : P s) :
    P (State.linkTrained s p width rate flit256 cxl corr replay bad) := by
  unfold State.linkTrained
  repeat' first
    | with_reducible assumption | with_reducible apply pres_cond | with_reducible apply pres_ite
    | with_reducible apply C.inc | with_reducible apply C.addSat | with_reducible apply C.setHost
    | with_reducible apply C.detect | with_reducible apply C.healthNote | with_reducible apply C.replay
    | with_reducible apply C.safePoint | with_reducible apply C.wr
    | with_reducible refine C.same (fun h => h) (fun h => h) (fun h => h) (fun h => h) (fun h => h) (fun h => h) (fun h => h) (fun h => h) (fun h => h) (fun h => h) (fun h => h) ?_
    | with_reducible refine C.same ?_ ?_ ?_ ?_ ?_ ?_ ?_ ?_ ?_ ?_ ?_ ?_ | exact fun h => h | intro _

theorem Stable.dlpOff {P : State → Prop} (C : Stable P) {s : State} (n : Nat) (hP : P s) :
    P (State.dlpOff s n) := by
  unfold State.dlpOff
  repeat' first
    | with_reducible assumption | with_reducible apply C.portFall | with_reducible apply C.showFeed

theorem Stable.disableQueues {P : State → Prop} (C : Stable P) {s : State}  (hP : P s) :
    P (State.disableQueues s) := by
  unfold State.disableQueues
  repeat' first
    | with_reducible assumption | with_reducible apply pres_foldl | with_reducible apply C.disableQueue | intro _

theorem Stable.haltBlock {P : State → Prop} (C : Stable P) {s : State} (page : Nat) (hP : P s) :
    P (State.haltBlock s page) := by
  unfold State.haltBlock
  repeat' first
    | with_reducible assumption | with_reducible apply pres_cond | with_reducible apply pres_ite
    | with_reducible apply C.abandonSends | with_reducible apply C.linkDown | with_reducible apply C.killChannel
    | with_reducible apply C.dlpOff | with_reducible apply C.disableQueues | with_reducible apply C.wr | intro _

theorem Stable.startBlock {P : State → Prop} (C : Stable P) {s : State} (page : Nat) (hP : P s) :
    P (State.startBlock s page) := by
  unfold State.startBlock
  repeat' first
    | with_reducible assumption | with_reducible apply pres_cond | with_reducible apply pres_ite
    | with_reducible apply C.showFeed | with_reducible apply C.wr | intro _

theorem Stable.fieldsReset {P : State → Prop} (C : Stable P) {s : State} (page : Nat) (hP : P s) :
    P (State.fieldsReset s page) := by
  unfold State.fieldsReset
  repeat' first
    | with_reducible assumption
    | with_reducible refine C.same (fun h => h) (fun h => h) (fun h => h) (fun h => h) (fun h => h) (fun h => h) (fun h => h) (fun h => h) (fun h => h) (fun h => h) (fun h => h) ?_
    | with_reducible refine C.same ?_ ?_ ?_ ?_ ?_ ?_ ?_ ?_ ?_ ?_ ?_ ?_ | exact fun h => h | exact NMap.wf_keep _
    | intro _

theorem Stable.blockReset {P : State → Prop} (C : Stable P) {s : State} (page : Nat) (hP : P s) :
    P (State.blockReset s page) := by
  unfold State.blockReset
  repeat' first
    | with_reducible assumption | with_reducible apply pres_cond | with_reducible apply pres_ite
    | with_reducible apply pres_each | with_reducible apply C.showInflight | with_reducible apply C.showQueues
    | with_reducible apply C.openTarget | with_reducible apply C.followRoutes | with_reducible apply C.guestsFollow
    | with_reducible apply C.resetPort | with_reducible apply C.freeLock | with_reducible apply C.showDb
    | with_reducible apply C.showRoute | with_reducible apply C.showColl | with_reducible apply C.disableQueues
    | with_reducible apply C.wr
    | with_reducible refine C.same (fun h => h) (fun h => h) (fun h => h) (fun h => h) (fun h => h) (fun h => h) (fun h => h) (fun h => h) (fun h => h) (fun h => h) (fun h => h) ?_
    | with_reducible refine C.same ?_ ?_ ?_ ?_ ?_ ?_ ?_ ?_ ?_ ?_ ?_ ?_ | exact fun h => h | exact fun _ => rfl
    | exact fun _ => Nat.zero_le _ | (intro h; simp only [List.length_map]; exact h) | intro _

theorem Stable.resetNow {P : State → Prop} (C : Stable P) {s : State} (page : Nat) (hP : P s) :
    P (State.resetNow s page) := by
  unfold State.resetNow
  repeat' first
    | with_reducible assumption | with_reducible apply pres_cond | with_reducible apply C.dropStaged
    | with_reducible apply C.firstClaim | with_reducible apply C.follow | with_reducible apply C.haltBlock
    | with_reducible apply C.startBlock | with_reducible apply C.fieldsReset | with_reducible apply C.blockReset
    | with_reducible apply C.wr | intro _

theorem Stable.softReset {P : State → Prop} (C : Stable P) {s : State} (page : Nat) (hP : P s) :
    P (State.softReset s page) := by
  unfold State.softReset
  repeat' first
    | with_reducible assumption | with_reducible apply pres_ite | with_reducible apply C.reject
    | with_reducible apply C.dropStaged | with_reducible apply C.resetNow | with_reducible apply C.wr

theorem Stable.safePointReached {P : State → Prop} (C : Stable P) {s : State} (page : Nat) (hP : P s) :
    P (State.safePointReached s page) := by
  unfold State.safePointReached
  repeat' first
    | with_reducible assumption | with_reducible apply pres_ite | with_reducible apply C.safePoint
    | with_reducible apply C.resetNow

theorem Stable.enableClear {P : State → Prop} (C : Stable P) {s : State} (page : Nat) (hP : P s) :
    P (State.enableClear s page) := by
  unfold State.enableClear
  repeat' first
    | with_reducible assumption | with_reducible apply pres_ite | with_reducible apply C.reject
    | with_reducible apply C.dlpOff | with_reducible apply C.disableQueues | with_reducible apply C.wr

theorem Stable.blockHalt {P : State → Prop} (C : Stable P) {s : State} (page : Nat) (hP : P s) :
    P (State.blockHalt s page) := by
  unfold State.blockHalt
  repeat' first
    | with_reducible assumption | with_reducible apply pres_cond | with_reducible apply pres_ite
    | with_reducible apply C.safePoint | with_reducible apply C.haltBlock | with_reducible apply C.resetNow
    | with_reducible apply C.wr | intro _

theorem Stable.enableSet {P : State → Prop} (C : Stable P) {s : State} (page : Nat) (hP : P s) :
    P (State.enableSet s page) := by
  unfold State.enableSet
  repeat' first
    | with_reducible assumption | with_reducible apply pres_cond | with_reducible apply pres_ite
    | with_reducible apply C.startBlock | with_reducible apply C.wr | intro _

theorem Stable.ctrlWrite {P : State → Prop} (C : Stable P) {s : State} (page v : Nat) (hP : P s) :
    P (State.ctrlWrite s page v) := by
  unfold State.ctrlWrite
  repeat' first
    | with_reducible assumption | with_reducible apply pres_cond | with_reducible apply pres_ite
    | with_reducible apply C.reject | with_reducible apply C.commitWrite | with_reducible apply C.softReset
    | with_reducible apply C.enableClear | with_reducible apply C.enableSet | intro _

theorem Stable.pageWrite {P : State → Prop} (C : Stable P) {s : State} (who : Requester) (page off size v : Nat) (hP : P s) :
    P (State.pageWrite s who page off size v) := by
  unfold State.pageWrite
  repeat' first
    | with_reducible assumption | with_reducible apply pres_cond | with_reducible apply pres_ite
    | with_reducible apply C.notice | with_reducible apply C.reject | with_reducible apply C.under
    | with_reducible apply C.writeWord | with_reducible apply C.ctrlWrite | intro _

theorem Stable.slotWord {P : State → Prop} (C : Stable P) {s : State} (q off v : Nat) (hP : P s) :
    P (State.slotWord s q off v) := by
  unfold State.slotWord
  repeat' first
    | with_reducible assumption | with_reducible apply pres_ite | with_reducible apply C.setQueue
    | with_reducible apply C.rejectH

theorem Stable.slotWrite {P : State → Prop} (C : Stable P) {s : State} (who : Requester) (p n off size v : Nat) (hP : P s) :
    P (State.slotWrite s who p n off size v) := by
  unfold State.slotWrite
  repeat' first
    | with_reducible assumption | with_reducible apply pres_ite | with_reducible apply pres_each
    | with_reducible apply C.notice | with_reducible apply C.reject | with_reducible apply C.byOwner
    | with_reducible apply C.slotWord | intro _

theorem Stable.bellWrite {P : State → Prop} (C : Stable P) {s : State} (p q off size v : Nat) (hP : P s) :
    P (State.bellWrite s p q off size v) := by
  unfold State.bellWrite
  repeat' first
    | with_reducible assumption | with_reducible apply pres_ite | with_reducible apply C.byOwner
    | with_reducible apply C.sqTail | with_reducible apply C.cqHead | intro _

theorem Stable.barWrite {P : State → Prop} (C : Stable P) {s : State} (who : Requester) (p size v : Nat) (a : Place) (hP : P s) :
    P (State.barWrite s who p size v a) := by
  unfold State.barWrite
  repeat' first
    | with_reducible assumption | with_reducible apply C.pageWrite | with_reducible apply C.slotWrite
    | with_reducible apply C.bellWrite | split
    | with_reducible refine C.same (fun h => h) (fun h => h) (fun h => h) (fun h => h) (fun h => h) (fun h => h) (fun h => h) (fun h => h) (fun h => h) (fun h => h) (fun h => h) ?_
    | with_reducible refine C.same ?_ ?_ ?_ ?_ ?_ ?_ ?_ ?_ ?_ ?_ ?_ ?_ | exact fun h => h

theorem Stable.regWrite {P : State → Prop} (C : Stable P) {s : State} (who : Requester) (a : RegAddr) (size v : Nat) (hP : P s) :
    P (State.regWrite s who a size v) := by
  unfold State.regWrite
  repeat' first
    | with_reducible assumption | with_reducible apply C.pageWrite | with_reducible apply C.barWrite | split
    | with_reducible refine C.same (fun h => h) (fun h => h) (fun h => h) (fun h => h) (fun h => h) (fun h => h) (fun h => h) (fun h => h) (fun h => h) (fun h => h) (fun h => h) ?_
    | with_reducible refine C.same ?_ ?_ ?_ ?_ ?_ ?_ ?_ ?_ ?_ ?_ ?_ ?_ | exact fun h => h

theorem Stable.fltClear {P : State → Prop} (C : Stable P) {s : State} (page mask : Nat) (hP : P s) :
    P (State.fltClear s page mask) := by
  unfold State.fltClear
  repeat' first
    | with_reducible assumption | with_reducible apply C.wr

theorem Stable.inject {P : State → Prop} (C : Stable P) {s : State} (page bit : Nat) (seen : Bool) (hP : P s) :
    P (State.inject s page bit seen) := by
  unfold State.inject
  repeat' first
    | with_reducible assumption | with_reducible apply pres_ite | with_reducible apply C.setBit
    | with_reducible apply C.reject | with_reducible apply C.injSeen | split
    | with_reducible refine C.same (fun h => h) (fun h => h) (fun h => h) (fun h => h) (fun h => h) (fun h => h) (fun h => h) (fun h => h) (fun h => h) (fun h => h) (fun h => h) ?_
    | with_reducible refine C.same ?_ ?_ ?_ ?_ ?_ ?_ ?_ ?_ ?_ ?_ ?_ ?_ | exact fun h => h

theorem Stable.newNonce {P : State → Prop} (C : Stable P) {s : State}  (hP : P s) :
    P (State.newNonce s) := by
  unfold State.newNonce
  repeat' first
    | with_reducible assumption | with_reducible apply C.takeFree | with_reducible apply C.wr

theorem Stable.maintLog {P : State → Prop} (C : Stable P) {s : State} (on : Nat) (hP : P s) :
    P (State.maintLog s on) := by
  unfold State.maintLog
  repeat' first
    | with_reducible assumption | with_reducible apply C.tlog

theorem Stable.maintClose {P : State → Prop} (C : Stable P) {s : State}  (hP : P s) :
    P (State.maintClose s) := by
  unfold State.maintClose
  repeat' first
    | with_reducible assumption | with_reducible apply pres_ite | with_reducible apply C.easeMargins
    | with_reducible apply C.maintLog
    | with_reducible refine C.same (fun h => h) (fun h => h) (fun h => h) (fun h => h) (fun h => h) (fun h => h) (fun h => h) (fun h => h) (fun h => h) (fun h => h) (fun h => h) ?_
    | with_reducible refine C.same ?_ ?_ ?_ ?_ ?_ ?_ ?_ ?_ ?_ ?_ ?_ ?_ | exact fun h => h

theorem Stable.unlock {P : State → Prop} (C : Stable P) {s : State} (strap : Bool) (v : Nat) (hP : P s) :
    P (State.unlock s strap v) := by
  unfold State.unlock
  repeat' first
    | with_reducible assumption | with_reducible apply pres_cond | with_reducible apply pres_ite
    | with_reducible apply C.notice | with_reducible apply C.warning | with_reducible apply C.newNonce
    | with_reducible apply C.maintLog | with_reducible apply C.maintClose
    | with_reducible refine C.same (fun h => h) (fun h => h) (fun h => h) (fun h => h) (fun h => h) (fun h => h) (fun h => h) (fun h => h) (fun h => h) (fun h => h) (fun h => h) ?_
    | with_reducible refine C.same ?_ ?_ ?_ ?_ ?_ ?_ ?_ ?_ ?_ ?_ ?_ ?_ | exact fun h => h | intro _

theorem Stable.unlockWrite {P : State → Prop} (C : Stable P) {s : State} (who : Requester) (strap : Bool) (v : Nat) (hP : P s) :
    P (State.unlockWrite s who strap v) := by
  unfold State.unlockWrite
  repeat' first
    | with_reducible assumption | with_reducible apply pres_ite | with_reducible apply C.reject
    | with_reducible apply C.under | with_reducible apply C.unlock | split
    | with_reducible refine C.same (fun h => h) (fun h => h) (fun h => h) (fun h => h) (fun h => h) (fun h => h) (fun h => h) (fun h => h) (fun h => h) (fun h => h) (fun h => h) ?_
    | with_reducible refine C.same ?_ ?_ ?_ ?_ ?_ ?_ ?_ ?_ ?_ ?_ ?_ ?_ | exact fun h => h | intro _

end Sys2Proof.Machine
end

