-- ==== Sys2Proof/Laws/Stable/Records.lean ====
section
/-!
SUPPORT. Laws/Stable/Records.lean: what the operations of Machine/Records.lean keep (Laws/Stable.lean).
-/

namespace Sys2Proof.Machine

set_option Elab.async false
set_option linter.unusedTactic false
set_option linter.unreachableTactic false

theorem Stable.rateSummary {P : State → Prop} (C : Stable P) {s : State}  (hP : P s) :
    P (State.rateSummary s) := by
  unfold State.rateSummary
  repeat' first
    | with_reducible assumption | with_reducible apply pres_foldl | with_reducible apply C.appendTlog
    | with_reducible refine C.same (fun h => h) (fun h => h) (fun h => h) (fun h => h) (fun h => h) (fun h => h) (fun h => h) (fun h => h) (fun h => h) (fun h => h) (fun h => h) ?_
    | with_reducible refine C.same ?_ ?_ ?_ ?_ ?_ ?_ ?_ ?_ ?_ ?_ ?_ ?_ | exact fun h => h | exact fun _ => rfl
    | exact fun _ => Nat.zero_le _ | intro _

theorem Stable.tlgClear {P : State → Prop} (C : Stable P) {s : State}  (hP : P s) :
    P (State.tlgClear s) := by
  unfold State.tlgClear
  repeat' first
    | with_reducible assumption | with_reducible apply pres_ite | with_reducible apply C.showTlog
    | with_reducible apply C.detect | with_reducible apply C.notice | with_reducible apply C.reject
    | with_reducible refine C.same (fun h => h) (fun h => h) (fun h => h) (fun h => h) (fun h => h) (fun h => h) (fun h => h) (fun h => h) (fun h => h) (fun h => h) (fun h => h) ?_
    | with_reducible refine C.same ?_ ?_ ?_ ?_ ?_ ?_ ?_ ?_ ?_ ?_ ?_ ?_ | exact fun h => h | exact fun _ => rfl
    | exact fun _ => Nat.zero_le _

theorem Stable.recClearWrite {P : State → Prop} (C : Stable P) {s : State}  (hP : P s) :
    P (State.recClearWrite s) := by
  unfold State.recClearWrite
  repeat' first
    | with_reducible assumption | with_reducible apply pres_ite | with_reducible apply C.reject
    | with_reducible apply C.recClear | with_reducible apply C.wr
    | with_reducible refine C.same (fun h => h) (fun h => h) (fun h => h) (fun h => h) (fun h => h) (fun h => h) (fun h => h) (fun h => h) (fun h => h) (fun h => h) (fun h => h) ?_
    | with_reducible refine C.same ?_ ?_ ?_ ?_ ?_ ?_ ?_ ?_ ?_ ?_ ?_ ?_ | exact fun h => h

theorem Stable.recFlush {P : State → Prop} (C : Stable P) {s : State}  (hP : P s) :
    P (State.recFlush s) := by
  unfold State.recFlush
  repeat' first
    | with_reducible assumption | with_reducible apply pres_ite | with_reducible apply C.flushStart

theorem Stable.recFlushBy {P : State → Prop} (C : Stable P) {s : State} (who : Option Requester) (hP : P s) :
    P (State.recFlushBy s who) := by
  unfold State.recFlushBy
  repeat' first
    | with_reducible assumption | with_reducible apply pres_cond | with_reducible apply C.command
    | with_reducible apply C.recFlush | with_reducible apply C.wr | split
    | with_reducible refine C.same (fun h => h) (fun h => h) (fun h => h) (fun h => h) (fun h => h) (fun h => h) (fun h => h) (fun h => h) (fun h => h) (fun h => h) (fun h => h) ?_
    | with_reducible refine C.same ?_ ?_ ?_ ?_ ?_ ?_ ?_ ?_ ?_ ?_ ?_ ?_ | exact fun h => h | intro _

end Sys2Proof.Machine
end

