-- ==== Sys2Proof/Laws/Stable/Exec.lean ====
section
/-!
SUPPORT. Laws/Stable/Exec.lean: what every command keeps (Laws/Stable.lean): one lemma for each meaning, and from them one for `exec`.
-/

namespace Sys2Proof.Machine

set_option Elab.async false
set_option linter.unusedTactic false
set_option linter.unreachableTactic false

theorem Stable.execChargeDeadlineFire {P : State → Prop} (C : Stable P) {s : State} (slot : Nat) (hP : P s) :
    ∀ t, Machine.execChargeDeadlineFire slot s = .next t → P t := by
  intro t h
  cases h
  repeat' first
    | with_reducible assumption | with_reducible apply C.finish | with_reducible apply C.begin
    | with_reducible apply C.fireCdl

theorem Stable.execAcceptedCrossing {P : State → Prop} (C : Stable P) {s : State} (ticks : Nat) (acOk : Bool) (hP : P s) :
    ∀ t, Machine.execAcceptedCrossing ticks acOk s = .next t → P t := by
  intro t h
  cases h
  repeat' first
    | with_reducible assumption | with_reducible apply C.finish | with_reducible apply C.begin
    | with_reducible apply C.crossing

theorem Stable.execRejectedCrossing {P : State → Prop} (C : Stable P) {s : State}  (hP : P s) :
    ∀ t, Machine.execRejectedCrossing s = .next t → P t := by
  intro t h
  cases h
  repeat' first
    | with_reducible assumption | with_reducible apply C.finish | with_reducible apply C.inc
    | with_reducible apply C.begin

theorem Stable.execPlacedFallingCrossing {P : State → Prop} (C : Stable P) {s : State}  (hP : P s) :
    ∀ t, Machine.execPlacedFallingCrossing s = .next t → P t := by
  intro t h
  cases h
  repeat' first
    | with_reducible assumption | with_reducible apply C.finish | with_reducible apply C.begin
    | with_reducible apply C.placeFalling

theorem Stable.execLockLost {P : State → Prop} (C : Stable P) {s : State}  (hP : P s) :
    ∀ t, Machine.execLockLost s = .next t → P t := by
  intro t h
  cases h
  repeat' first
    | with_reducible assumption | with_reducible apply C.finish | with_reducible apply C.begin
    | with_reducible apply C.loseLock

theorem Stable.execPuAdvance {P : State → Prop} (C : Stable P) {s : State}  (hP : P s) :
    ∀ t, Machine.execPuAdvance s = .next t → P t := by
  intro t h
  cases h
  repeat' first
    | with_reducible assumption | with_reducible apply C.finish | with_reducible apply C.begin
    | with_reducible apply C.puStep

theorem Stable.execPseudoHalfCycleEnd {P : State → Prop} (C : Stable P) {s : State}  (hP : P s) :
    ∀ t, Machine.execPseudoHalfCycleEnd s = .next t → P t := by
  intro t h
  cases h
  repeat' first
    | with_reducible assumption | with_reducible apply C.finish | with_reducible apply C.begin
    | with_reducible apply C.pseudoEnd

theorem Stable.execMissingHalfCycle {P : State → Prop} (C : Stable P) {s : State} (acOk : Bool) (hP : P s) :
    ∀ t, Machine.execMissingHalfCycle acOk s = .next t → P t := by
  intro t h
  cases h
  repeat' first
    | with_reducible assumption | with_reducible apply C.finish | with_reducible apply C.begin
    | with_reducible apply C.missing

theorem Stable.execScheduledEventFire {P : State → Prop} (C : Stable P) {s : State} (slot : Nat) (hP : P s) :
    ∀ t, Machine.execScheduledEventFire slot s = .next t → P t := by
  intro t h
  cases h
  repeat' first
    | with_reducible assumption | with_reducible apply C.finish | with_reducible apply C.begin
    | with_reducible apply C.fireSlot

theorem Stable.execAcOkLowTimeout {P : State → Prop} (C : Stable P) {s : State}  (hP : P s) :
    ∀ t, Machine.execAcOkLowTimeout s = .next t → P t := by
  intro t h
  cases h
  repeat' first
    | with_reducible assumption | with_reducible apply C.finish | with_reducible apply C.begin
    | with_reducible apply C.acOkLow

theorem Stable.execAcOkHighTimeout {P : State → Prop} (C : Stable P) {s : State}  (hP : P s) :
    ∀ t, Machine.execAcOkHighTimeout s = .next t → P t := by
  intro t h
  cases h
  repeat' first
    | with_reducible assumption | with_reducible apply C.finish | with_reducible apply C.begin
    | with_reducible apply C.acOkHigh

theorem Stable.execChargeDeadlineArm {P : State → Prop} (C : Stable P) {s : State} (slot target : Nat) (hP : P s) :
    ∀ t, Machine.execChargeDeadlineArm slot target s = .next t → P t := by
  intro t h
  cases h
  repeat' first
    | with_reducible assumption | with_reducible apply C.finish | with_reducible apply C.begin
    | with_reducible apply C.ownerArm

theorem Stable.execGaugePathImplausible {P : State → Prop} (C : Stable P) {s : State} (pack : Nat) (hP : P s) :
    ∀ t, Machine.execGaugePathImplausible pack s = .next t → P t := by
  intro t h
  cases h
  repeat' first
    | with_reducible assumption | with_reducible apply C.finish | with_reducible apply C.begin
    | with_reducible apply C.gaugeBad

theorem Stable.execGaugePathPlausible {P : State → Prop} (C : Stable P) {s : State} (pack : Nat) (hP : P s) :
    ∀ t, Machine.execGaugePathPlausible pack s = .next t → P t := by
  intro t h
  cases h
  repeat' first
    | with_reducible assumption | with_reducible apply C.finish | with_reducible apply C.begin
    | with_reducible apply C.gaugeGood

theorem Stable.execOpsecTick {P : State → Prop} (C : Stable P) {s : State}  (hP : P s) :
    ∀ t, Machine.execOpsecTick s = .next t → P t := by
  intro t h
  cases h
  repeat' first
    | with_reducible assumption | with_reducible apply C.finish | with_reducible apply C.begin
    | with_reducible apply C.second | intro _

theorem Stable.execConversionFrame {P : State → Prop} (C : Stable P) {s : State} (f : Frame) (hP : P s) :
    ∀ t, Machine.execConversionFrame f s = .next t → P t := by
  intro t h
  cases h
  repeat' first
    | with_reducible assumption | with_reducible apply C.finish | with_reducible apply C.begin
    | with_reducible apply C.frame

theorem Stable.execPatrolOverdue {P : State → Prop} (C : Stable P) {s : State} (chan : Nat) (hP : P s) :
    ∀ t, Machine.execPatrolOverdue chan s = .next t → P t := by
  intro t h
  cases h
  repeat' first
    | with_reducible assumption | with_reducible apply C.finish | with_reducible apply C.begin
    | with_reducible apply C.patrolLate

theorem Stable.execSparingCopyStep {P : State → Prop} (C : Stable P) {s : State} (found : List (Nat × Ecc)) (hP : P s) :
    ∀ t, Machine.execSparingCopyStep found s = .next t → P t := by
  intro t h
  cases h
  repeat' first
    | with_reducible assumption | with_reducible apply C.finish | with_reducible apply C.begin
    | with_reducible apply C.spareStep

theorem Stable.execRankShedTimeout {P : State → Prop} (C : Stable P) {s : State} (chan rank : Nat) (hP : P s) :
    ∀ t, Machine.execRankShedTimeout chan rank s = .next t → P t := by
  intro t h
  cases h
  repeat' first
    | with_reducible assumption | with_reducible apply C.finish | with_reducible apply C.begin
    | with_reducible apply C.shedLate

theorem Stable.execHostWrite {P : State → Prop} (C : Stable P) {s : State} (port tag line load : Nat) (bytes : List (Nat × Byte))
    (poison setFull : Bool) (ecc : Ecc) (hP : P s) :
    ∀ t, Machine.execHostWrite port tag line load bytes poison setFull ecc s = .next t → P t := by
  intro t h
  have h1 : P ((s.begin.devLoad (port % 2) load).noQuiet.restExit) := C.restExit (C.noQuiet (C.devLoad _ _ (C.begin hP)))
  unfold Machine.execHostWrite at h
  simp only at h
  split at h
  · cases h
    exact C.finish (C.begin hP)
  · split at h
    · cases h
      exact C.finish (C.respond _ _ h1)
    · split at h
      · cases h
      · cases h
        exact C.finish (C.access _ _ (fun t ht => C.hostWrite _ _ _ _ _ _ _ _ ht) h1)

theorem Stable.execHostRead {P : State → Prop} (C : Stable P) {s : State} (port tag line load : Nat) (ecc : Ecc) (hP : P s) :
    ∀ t, Machine.execHostRead port tag line load ecc s = .next t → P t := by
  intro t h
  have h1 : P ((s.begin.devLoad (port % 2) load).noQuiet.restExit) := C.restExit (C.noQuiet (C.devLoad _ _ (C.begin hP)))
  unfold Machine.execHostRead at h
  simp only at h
  split at h
  · cases h
    exact C.finish (C.begin hP)
  · split at h
    · cases h
      exact C.finish (C.respond _ _ h1)
    · split at h
      · cases h
      · cases h
        exact C.finish (C.access _ _ (fun t ht => C.hostRead _ _ _ _ _ ht) h1)

theorem Stable.execRetireCopyDone {P : State → Prop} (C : Stable P) {s : State} (granule : Nat) (found : List (Nat × Ecc)) (hP : P s) :
    ∀ t, Machine.execRetireCopyDone granule found s = .next t → P t := by
  intro t h
  cases h
  repeat' first
    | with_reducible assumption | with_reducible apply C.finish | with_reducible apply C.begin
    | with_reducible apply C.retireDone | with_reducible apply C.runWaiting

theorem Stable.execLinkDown {P : State → Prop} (C : Stable P) {s : State} (port : Nat) (hP : P s) :
    ∀ t, Machine.execLinkDown port s = .next t → P t := by
  intro t h
  cases h
  repeat' first
    | with_reducible assumption | with_reducible apply C.finish | with_reducible apply C.begin
    | with_reducible apply C.linkDown

theorem Stable.execPortReset {P : State → Prop} (C : Stable P) {s : State} (port : Nat) (perst : Bool) (hP : P s) :
    ∀ t, Machine.execPortReset port perst s = .next t → P t := by
  intro t h
  cases h
  repeat' first
    | with_reducible assumption | with_reducible apply C.finish | with_reducible apply C.begin
    | with_reducible apply C.portReset

theorem Stable.execDecoderCommit {P : State → Prop} (C : Stable P) {s : State} (port n base size ways gran : Nat) (hP : P s) :
    ∀ t, Machine.execDecoderCommit port n base size ways gran s = .next t → P t := by
  intro t h
  cases h
  repeat' first
    | with_reducible assumption | with_reducible apply C.finish | with_reducible apply C.begin
    | with_reducible apply C.restExit | with_reducible apply C.decoderCommit

theorem Stable.execGpfPhase1 {P : State → Prop} (C : Stable P) {s : State} (port : Nat) (hP : P s) :
    ∀ t, Machine.execGpfPhase1 port s = .next t → P t := by
  intro t h
  cases h
  repeat' first
    | with_reducible assumption | with_reducible apply pres_cond | with_reducible apply C.finish
    | with_reducible apply C.send | with_reducible apply C.begin | with_reducible apply C.restExit | intro _

theorem Stable.execGpfPhase2Request {P : State → Prop} (C : Stable P) {s : State} (port : Nat) (hP : P s) :
    ∀ t, Machine.execGpfPhase2Request port s = .next t → P t := by
  intro t h
  cases h
  repeat' first
    | with_reducible assumption | with_reducible apply pres_cond | with_reducible apply C.finish
    | with_reducible apply C.begin | with_reducible apply C.restExit | with_reducible apply C.gpfRequest | intro _

theorem Stable.execGpfPhase2Done {P : State → Prop} (C : Stable P) {s : State} (port : Nat) (hP : P s) :
    ∀ t, Machine.execGpfPhase2Done port s = .next t → P t := by
  intro t h
  cases h
  repeat' first
    | with_reducible assumption | with_reducible apply C.finish | with_reducible apply C.begin
    | with_reducible apply C.gpfDone

theorem Stable.execGpfWindowExpired {P : State → Prop} (C : Stable P) {s : State} (port : Nat) (hP : P s) :
    ∀ t, Machine.execGpfWindowExpired port s = .next t → P t := by
  intro t h
  cases h
  repeat' first
    | with_reducible assumption | with_reducible apply C.finish | with_reducible apply C.begin
    | with_reducible apply C.gpfLate

theorem Stable.execMailboxTimeout {P : State → Prop} (C : Stable P) {s : State} (port : Nat) (hP : P s) :
    ∀ t, Machine.execMailboxTimeout port s = .next t → P t := by
  intro t h
  cases h
  repeat' first
    | with_reducible assumption | with_reducible apply C.finish | with_reducible apply C.begin
    | with_reducible apply C.mboxLate

theorem Stable.execIdentify {P : State → Prop} (C : Stable P) {s : State} (port : Nat) (hP : P s) :
    ∀ t, Machine.execIdentify port s = .next t → P t := by
  intro t h
  cases h
  repeat' first
    | with_reducible assumption | with_reducible apply C.finish | with_reducible apply C.begin
    | with_reducible apply C.mboxRead | with_reducible apply C.identify

theorem Stable.execGetHealthInfo {P : State → Prop} (C : Stable P) {s : State} (port : Nat) (hP : P s) :
    ∀ t, Machine.execGetHealthInfo port s = .next t → P t := by
  intro t h
  cases h
  repeat' first
    | with_reducible assumption | with_reducible apply C.finish | with_reducible apply C.begin
    | with_reducible apply C.mboxRead | intro _

theorem Stable.execGetEventRecords {P : State → Prop} (C : Stable P) {s : State} (port log : Nat) (hP : P s) :
    ∀ t, Machine.execGetEventRecords port log s = .next t → P t := by
  intro t h
  cases h
  repeat' first
    | with_reducible assumption | with_reducible apply C.finish | with_reducible apply C.begin
    | with_reducible apply C.mboxRead | intro _

theorem Stable.execClearEventRecords {P : State → Prop} (C : Stable P) {s : State} (port log : Nat) (all : Bool) (handles : List Nat) (hP : P s) :
    ∀ t, Machine.execClearEventRecords port log all handles s = .next t → P t := by
  intro t h
  cases h
  repeat' first
    | with_reducible assumption | with_reducible apply C.finish | with_reducible apply C.begin
    | with_reducible apply C.mbox | with_reducible apply C.clearEvents | intro _

theorem Stable.execGetSupportedLogs {P : State → Prop} (C : Stable P) {s : State} (port : Nat) (hP : P s) :
    ∀ t, Machine.execGetSupportedLogs port s = .next t → P t := by
  intro t h
  cases h
  repeat' first
    | with_reducible assumption | with_reducible apply C.finish | with_reducible apply C.begin
    | with_reducible apply C.mbox | with_reducible apply C.openReply | intro _

theorem Stable.execGetLog {P : State → Prop} (C : Stable P) {s : State} (port : Nat) (hP : P s) :
    ∀ t, Machine.execGetLog port s = .next t → P t := by
  intro t h
  cases h
  repeat' first
    | with_reducible assumption | with_reducible apply C.finish | with_reducible apply C.begin
    | with_reducible apply C.mbox | with_reducible apply C.openReply | intro _

theorem Stable.execGetFwInfo {P : State → Prop} (C : Stable P) {s : State} (port : Nat) (hP : P s) :
    ∀ t, Machine.execGetFwInfo port s = .next t → P t := by
  intro t h
  cases h
  repeat' first
    | with_reducible assumption | with_reducible apply C.finish | with_reducible apply C.begin
    | with_reducible apply C.mboxRead

theorem Stable.execGetTimestamp {P : State → Prop} (C : Stable P) {s : State} (port : Nat) (hP : P s) :
    ∀ t, Machine.execGetTimestamp port s = .next t → P t := by
  intro t h
  cases h
  repeat' first
    | with_reducible assumption | with_reducible apply C.finish | with_reducible apply C.begin
    | with_reducible apply C.mboxRead | intro _

theorem Stable.execSetTimestamp {P : State → Prop} (C : Stable P) {s : State} (port seconds : Nat) (hP : P s) :
    ∀ t, Machine.execSetTimestamp port seconds s = .next t → P t := by
  intro t h
  cases h
  repeat' first
    | with_reducible assumption | with_reducible apply C.finish | with_reducible apply C.begin
    | with_reducible apply C.mbox | with_reducible apply C.setTime | intro _

theorem Stable.execGetAlertConfiguration {P : State → Prop} (C : Stable P) {s : State} (port : Nat) (hP : P s) :
    ∀ t, Machine.execGetAlertConfiguration port s = .next t → P t := by
  intro t h
  cases h
  repeat' first
    | with_reducible assumption | with_reducible apply C.finish | with_reducible apply C.begin
    | with_reducible apply C.mboxRead | intro _

theorem Stable.execSetAlertConfiguration {P : State → Prop} (C : Stable P) {s : State} (port : Nat) (limits : List Nat) (hP : P s) :
    ∀ t, Machine.execSetAlertConfiguration port limits s = .next t → P t := by
  intro t h
  cases h
  repeat' first
    | with_reducible assumption | with_reducible apply C.finish | with_reducible apply C.begin
    | with_reducible apply C.mbox | with_reducible apply C.setAlert | intro _

theorem Stable.execSetShutdownState {P : State → Prop} (C : Stable P) {s : State} (port value : Nat) (hP : P s) :
    ∀ t, Machine.execSetShutdownState port value s = .next t → P t := by
  intro t h
  cases h
  repeat' first
    | with_reducible assumption | with_reducible apply C.finish | with_reducible apply C.begin
    | with_reducible apply C.mbox | with_reducible apply C.setShutdown | intro _

theorem Stable.execScanMedia {P : State → Prop} (C : Stable P) {s : State} (port base n : Nat) (found : List (Nat × Ecc)) (hP : P s) :
    ∀ t, Machine.execScanMedia port base n found s = .next t → P t := by
  intro t h
  cases h
  repeat' first
    | with_reducible assumption | with_reducible apply C.finish | with_reducible apply C.begin
    | with_reducible apply C.mbox | with_reducible apply C.scanMedia | intro _

theorem Stable.execGetPoisonList {P : State → Prop} (C : Stable P) {s : State} (port base n : Nat) (hP : P s) :
    ∀ t, Machine.execGetPoisonList port base n s = .next t → P t := by
  intro t h
  cases h
  repeat' first
    | with_reducible assumption | with_reducible apply C.finish | with_reducible apply C.begin
    | with_reducible apply C.mboxRead | intro _

theorem Stable.execInjectPoison {P : State → Prop} (C : Stable P) {s : State} (port line : Nat) (setFull : Bool) (hP : P s) :
    ∀ t, Machine.execInjectPoison port line setFull s = .next t → P t := by
  intro t h
  cases h
  repeat' first
    | with_reducible assumption | with_reducible apply C.finish | with_reducible apply C.begin
    | with_reducible apply C.mbox | with_reducible apply C.mailWrite | intro _

theorem Stable.execClearPoison {P : State → Prop} (C : Stable P) {s : State} (port line : Nat) (bytes : List Byte) (setFull : Bool) (hP : P s) :
    ∀ t, Machine.execClearPoison port line bytes setFull s = .next t → P t := by
  intro t h
  cases h
  repeat' first
    | with_reducible assumption | with_reducible apply C.finish | with_reducible apply C.begin
    | with_reducible apply C.mbox | with_reducible apply C.mailWrite | intro _

theorem Stable.execSanitize {P : State → Prop} (C : Stable P) {s : State} (port : Nat) (hP : P s) :
    ∀ t, Machine.execSanitize port s = .next t → P t := by
  intro t h
  cases h
  repeat' first
    | with_reducible assumption | with_reducible apply C.finish | with_reducible apply C.begin
    | with_reducible apply C.mbox | with_reducible apply C.wipeStart | intro _

theorem Stable.execSecureErase {P : State → Prop} (C : Stable P) {s : State} (port : Nat) (hP : P s) :
    ∀ t, Machine.execSecureErase port s = .next t → P t := by
  intro t h
  cases h
  repeat' first
    | with_reducible assumption | with_reducible apply C.finish | with_reducible apply C.begin
    | with_reducible apply C.mbox | with_reducible apply C.wipeStart | intro _

theorem Stable.execSanitizeComplete {P : State → Prop} (C : Stable P) {s : State} (port : Nat) (hP : P s) :
    ∀ t, Machine.execSanitizeComplete port s = .next t → P t := by
  intro t h
  cases h
  repeat' first
    | with_reducible assumption | with_reducible apply C.finish | with_reducible apply C.begin
    | with_reducible apply C.wipeDone

theorem Stable.execGetCorirvoInfo {P : State → Prop} (C : Stable P) {s : State} (port : Nat) (hP : P s) :
    ∀ t, Machine.execGetCorirvoInfo port s = .next t → P t := by
  intro t h
  cases h
  repeat' first
    | with_reducible assumption | with_reducible apply C.finish | with_reducible apply C.begin
    | with_reducible apply C.mboxRead

theorem Stable.execGetPersistenceReport {P : State → Prop} (C : Stable P) {s : State} (port : Nat) (hP : P s) :
    ∀ t, Machine.execGetPersistenceReport port s = .next t → P t := by
  intro t h
  cases h
  repeat' first
    | with_reducible assumption | with_reducible apply C.finish | with_reducible apply C.begin
    | with_reducible apply C.mboxRead

theorem Stable.execSetPartition {P : State → Prop} (C : Stable P) {s : State} (port aBase aSize bBase bSize : Nat) (hP : P s) :
    ∀ t, Machine.execSetPartition port aBase aSize bBase bSize s = .next t → P t := by
  intro t h
  cases h
  repeat' first
    | with_reducible assumption | with_reducible apply C.finish | with_reducible apply C.begin
    | with_reducible apply C.mbox | with_reducible apply C.setPartition | intro _

theorem Stable.execPlannedKiln {P : State → Prop} (C : Stable P) {s : State} (port : Nat) (p3 group : Bool) (hP : P s) :
    ∀ t, Machine.execPlannedKiln port p3 group s = .next t → P t := by
  intro t h
  cases h
  repeat' first
    | with_reducible assumption | with_reducible apply C.finish | with_reducible apply C.begin
    | with_reducible apply C.mbox | with_reducible apply C.plannedKiln | intro _

theorem Stable.execCaskUnlock {P : State → Prop} (C : Stable P) {s : State} (port key : Nat) (hP : P s) :
    ∀ t, Machine.execCaskUnlock port key s = .next t → P t := by
  intro t h
  cases h
  repeat' first
    | with_reducible assumption | with_reducible apply C.finish | with_reducible apply C.begin
    | with_reducible apply C.mbox | with_reducible apply C.caskUnlock | intro _

theorem Stable.execSetCaskHostKey {P : State → Prop} (C : Stable P) {s : State} (port current new : Nat) (second : Bool) (hP : P s) :
    ∀ t, Machine.execSetCaskHostKey port current new second s = .next t → P t := by
  intro t h
  cases h
  repeat' first
    | with_reducible assumption | with_reducible apply C.finish | with_reducible apply C.begin
    | with_reducible apply C.second | with_reducible apply C.mbox | with_reducible apply C.setHostKey | exact fun h => h
    | intro _

theorem Stable.execReadTroubleLog {P : State → Prop} (C : Stable P) {s : State} (port src first : Nat) (bad : List Nat) (hP : P s) :
    ∀ t, Machine.execReadTroubleLog port src first bad s = .next t → P t := by
  intro t h
  cases h
  repeat' first
    | with_reducible assumption | with_reducible apply C.finish | with_reducible apply C.begin
    | with_reducible apply C.mboxRead | with_reducible apply C.tlogParity | intro _

theorem Stable.execReadEventRecorder {P : State → Prop} (C : Stable P) {s : State} (port first : Nat) (hP : P s) :
    ∀ t, Machine.execReadEventRecorder port first s = .next t → P t := by
  intro t h
  cases h
  repeat' first
    | with_reducible assumption | with_reducible apply C.finish | with_reducible apply C.begin
    | with_reducible apply C.mboxRead | intro _

theorem Stable.execRackExport {P : State → Prop} (C : Stable P) {s : State} (port target owner granule count : Nat) (remote : Option ExportReply) (hP : P s) :
    ∀ t, Machine.execRackExport port target owner granule count remote s = .next t → P t := by
  intro t h
  cases h
  repeat' first
    | with_reducible assumption | with_reducible apply C.finish | with_reducible apply C.begin
    | with_reducible apply C.mbox | with_reducible apply C.rackExport | intro _

theorem Stable.execDirtyScrubStart {P : State → Prop} (C : Stable P) {s : State}  (hP : P s) :
    ∀ t, Machine.execDirtyScrubStart s = .next t → P t := by
  intro t h
  cases h
  repeat' first
    | with_reducible assumption | with_reducible apply C.finish | with_reducible apply C.begin
    | with_reducible apply C.scrubStart

theorem Stable.execDirtyScrubEnd {P : State → Prop} (C : Stable P) {s : State} (bad : List Nat) (vol : Option Bool) (hP : P s) :
    ∀ t, Machine.execDirtyScrubEnd bad vol s = .next t → P t := by
  intro t h
  cases h
  repeat' first
    | with_reducible assumption | with_reducible apply C.finish | with_reducible apply C.begin
    | with_reducible apply C.scrubEnd

theorem Stable.execHeatEpochEnd {P : State → Prop} (C : Stable P) {s : State} (bad : List Nat) (hP : P s) :
    ∀ t, Machine.execHeatEpochEnd bad s = .next t → P t := by
  intro t h
  cases h
  repeat' first
    | with_reducible assumption | with_reducible apply C.finish | with_reducible apply C.begin
    | with_reducible apply C.heatSweep

theorem Stable.execBudgetCompute {P : State → Prop} (C : Stable P) {s : State}  (hP : P s) :
    ∀ t, Machine.execBudgetCompute s = .next t → P t := by
  intro t h
  cases h
  repeat' first
    | with_reducible assumption | with_reducible apply C.finish | with_reducible apply C.begin
    | with_reducible apply C.budget1ms

theorem Stable.execSafeBoundCheck {P : State → Prop} (C : Stable P) {s : State}  (hP : P s) :
    ∀ t, Machine.execSafeBoundCheck s = .next t → P t := by
  intro t h
  cases h
  repeat' first
    | with_reducible assumption | with_reducible apply C.finish | with_reducible apply C.begin
    | with_reducible apply C.safeBound

theorem Stable.execHostEnergyWrite {P : State → Prop} (C : Stable P) {s : State} (who : Requester) (ct : Nat) (hP : P s) :
    ∀ t, Machine.execHostEnergyWrite who ct s = .next t → P t := by
  intro t h
  cases h
  repeat' first
    | with_reducible assumption | with_reducible apply C.finish | with_reducible apply C.begin
    | with_reducible apply C.under | with_reducible apply C.hostEnergy | intro _

theorem Stable.execHostEnergyExpired {P : State → Prop} (C : Stable P) {s : State}  (hP : P s) :
    ∀ t, Machine.execHostEnergyExpired s = .next t → P t := by
  intro t h
  cases h
  repeat' first
    | with_reducible assumption | with_reducible apply C.finish | with_reducible apply C.begin
    | with_reducible apply C.hostEnergyOut

theorem Stable.execWitherTick {P : State → Prop} (C : Stable P) {s : State} (n : Nat) (space : Bool) (hP : P s) :
    ∀ t, Machine.execWitherTick n space s = .next t → P t := by
  intro t h
  cases h
  repeat' first
    | with_reducible assumption | with_reducible apply C.finish | with_reducible apply C.begin
    | with_reducible apply C.witherTick
    | with_reducible refine C.same (fun h => h) (fun h => h) (fun h => h) (fun h => h) (fun h => h) (fun h => h) (fun h => h) (fun h => h) (fun h => h) (fun h => h) (fun h => h) ?_
    | with_reducible refine C.same ?_ ?_ ?_ ?_ ?_ ?_ ?_ ?_ ?_ ?_ ?_ ?_ | exact fun h => h

theorem Stable.execCopyReadDone {P : State → Prop} (C : Stable P) {s : State} (granule addr : Nat) (found : List (Nat × Ecc)) (bad : List Nat) (hP : P s) :
    ∀ t, Machine.execCopyReadDone granule addr found bad s = .next t → P t := by
  intro t h
  cases h
  repeat' first
    | with_reducible assumption | with_reducible apply C.finish | with_reducible apply C.begin
    | with_reducible apply C.copyGranted

theorem Stable.execMapCommit {P : State → Prop} (C : Stable P) {s : State} (granules : List Nat) (hP : P s) :
    ∀ t, Machine.execMapCommit granules s = .next t → P t := by
  intro t h
  cases h
  repeat' first
    | with_reducible assumption | with_reducible apply pres_cond | with_reducible apply pres_foldl
    | with_reducible apply C.finish | with_reducible apply C.begin | with_reducible apply C.commitCopy | intro _

theorem Stable.execStripeCloseTimeout {P : State → Prop} (C : Stable P) {s : State} (addrs : List Nat) (hP : P s) :
    ∀ t, Machine.execStripeCloseTimeout addrs s = .next t → P t := by
  intro t h
  cases h
  repeat' first
    | with_reducible assumption | with_reducible apply pres_cond | with_reducible apply pres_foldl
    | with_reducible apply C.finish | with_reducible apply C.begin | with_reducible apply C.padStripe | intro _

theorem Stable.execWearAllowanceRecompute {P : State → Prop} (C : Stable P) {s : State}  (hP : P s) :
    ∀ t, Machine.execWearAllowanceRecompute s = .next t → P t := by
  intro t h
  cases h
  repeat' first
    | with_reducible assumption | with_reducible apply C.finish | with_reducible apply C.begin
    | with_reducible apply C.wearAllow

theorem Stable.execEnduranceRecompute {P : State → Prop} (C : Stable P) {s : State}  (hP : P s) :
    ∀ t, Machine.execEnduranceRecompute s = .next t → P t := by
  intro t h
  cases h
  repeat' first
    | with_reducible assumption | with_reducible apply C.finish | with_reducible apply C.begin
    | with_reducible apply C.endurance

theorem Stable.execNandEraseDone {P : State → Prop} (C : Stable P) {s : State} (group : Nat) (failed : List (Nat × Nat × Nat)) (hP : P s) :
    ∀ t, Machine.execNandEraseDone group failed s = .next t → P t := by
  intro t h
  cases h
  repeat' first
    | with_reducible assumption | with_reducible apply C.finish | with_reducible apply C.begin
    | with_reducible apply C.eraseDone

theorem Stable.execNandProgramFail {P : State → Prop} (C : Stable P) {s : State} (chan die blk page : Nat) (granules : List Nat) (hP : P s) :
    ∀ t, Machine.execNandProgramFail chan die blk page granules s = .next t → P t := by
  intro t h
  cases h
  repeat' first
    | with_reducible assumption | with_reducible apply pres_cond | with_reducible apply C.finish
    | with_reducible apply C.begin | with_reducible apply C.programFail | intro _

theorem Stable.execDieTimeout {P : State → Prop} (C : Stable P) {s : State} (chan die : Nat) (hP : P s) :
    ∀ t, Machine.execDieTimeout chan die s = .next t → P t := by
  intro t h
  cases h
  repeat' first
    | with_reducible assumption | with_reducible apply pres_cond | with_reducible apply C.finish
    | with_reducible apply C.begin | with_reducible apply C.retireDie | intro _

theorem Stable.execChannelDead {P : State → Prop} (C : Stable P) {s : State} (chan : Nat) (hP : P s) :
    ∀ t, Machine.execChannelDead chan s = .next t → P t := by
  intro t h
  cases h
  repeat' first
    | with_reducible assumption | with_reducible apply C.finish | with_reducible apply C.begin
    | with_reducible apply C.killChannel

theorem Stable.execCodewordReadDone {P : State → Prop} (C : Stable P) {s : State} (addr step errs : Nat) (what : ReadFor) (hP : P s) :
    ∀ t, Machine.execCodewordReadDone addr step errs what s = .next t → P t := by
  intro t h
  cases h
  repeat' first
    | with_reducible assumption | with_reducible apply pres_cond | with_reducible apply C.finish
    | with_reducible apply C.begin | with_reducible apply C.readDone | intro _

theorem Stable.execMapFlushDone {P : State → Prop} (C : Stable P) {s : State} (region addr : Nat) (hP : P s) :
    ∀ t, Machine.execMapFlushDone region addr s = .next t → P t := by
  intro t h
  cases h
  repeat' first
    | with_reducible assumption | with_reducible apply C.finish | with_reducible apply C.begin
    | with_reducible apply C.flushPage

theorem Stable.execMapScrub {P : State → Prop} (C : Stable P) {s : State} (bad : List Nat) (hP : P s) :
    ∀ t, Machine.execMapScrub bad s = .next t → P t := by
  intro t h
  cases h
  repeat' first
    | with_reducible assumption | with_reducible apply C.finish | with_reducible apply C.begin
    | with_reducible apply C.mapScrub

theorem Stable.execGarbageCollectMove {P : State → Prop} (C : Stable P) {s : State} (what : ReadFor) (addr step : Nat) (hP : P s) :
    ∀ t, Machine.execGarbageCollectMove what addr step s = .next t → P t := by
  intro t h
  cases h
  repeat' first
    | with_reducible assumption | with_reducible apply C.finish | with_reducible apply C.begin
    | with_reducible apply C.gcMove

theorem Stable.execFoldMoveCommit {P : State → Prop} (C : Stable P) {s : State} (granule addr step : Nat) (hP : P s) :
    ∀ t, Machine.execFoldMoveCommit granule addr step s = .next t → P t := by
  intro t h
  cases h
  repeat' first
    | with_reducible assumption | with_reducible apply C.finish | with_reducible apply C.begin
    | with_reducible apply C.foldMove

theorem Stable.execWearLevelCheck {P : State → Prop} (C : Stable P) {s : State} (addrs : List Nat) (hP : P s) :
    ∀ t, Machine.execWearLevelCheck addrs s = .next t → P t := by
  intro t h
  cases h
  repeat' first
    | with_reducible assumption | with_reducible apply C.finish | with_reducible apply C.begin
    | with_reducible apply C.wearLevel

theorem Stable.execFlashPatrolStep {P : State → Prop} (C : Stable P) {s : State} (pct : Nat) (found : List (Nat × Nat × Nat × ReadFor)) (hP : P s) :
    ∀ t, Machine.execFlashPatrolStep pct found s = .next t → P t := by
  intro t h
  cases h
  repeat' first
    | with_reducible assumption | with_reducible apply pres_cond | with_reducible apply C.finish
    | with_reducible apply C.begin | with_reducible apply C.flashPatrol | intro _

theorem Stable.execFlashPatrolOverdue {P : State → Prop} (C : Stable P) {s : State}  (hP : P s) :
    ∀ t, Machine.execFlashPatrolOverdue s = .next t → P t := by
  intro t h
  cases h
  repeat' first
    | with_reducible assumption | with_reducible apply pres_cond | with_reducible apply C.finish
    | with_reducible apply C.begin | with_reducible apply C.detect | intro _

theorem Stable.execMainInFail {P : State → Prop} (C : Stable P) {s : State}  (hP : P s) :
    ∀ t, Machine.execMainInFail s = .next t → P t := by
  intro t h
  cases h
  repeat' first
    | with_reducible assumption | with_reducible apply C.finish | with_reducible apply C.begin
    | with_reducible apply C.mainFail

theorem Stable.execMainInWarn {P : State → Prop} (C : Stable P) {s : State}  (hP : P s) :
    ∀ t, Machine.execMainInWarn s = .next t → P t := by
  intro t h
  cases h
  repeat' first
    | with_reducible assumption | with_reducible apply C.finish | with_reducible apply C.begin
    | with_reducible apply C.mainWarn

theorem Stable.execPrimedClear {P : State → Prop} (C : Stable P) {s : State}  (hP : P s) :
    ∀ t, Machine.execPrimedClear s = .next t → P t := by
  intro t h
  cases h
  repeat' first
    | with_reducible assumption | with_reducible apply C.finish | with_reducible apply C.begin
    | with_reducible apply C.primedClear

theorem Stable.execEwEscalation {P : State → Prop} (C : Stable P) {s : State}  (hP : P s) :
    ∀ t, Machine.execEwEscalation s = .next t → P t := by
  intro t h
  cases h
  repeat' first
    | with_reducible assumption | with_reducible apply C.finish | with_reducible apply C.begin
    | with_reducible apply C.escalate

theorem Stable.execPowerReturn {P : State → Prop} (C : Stable P) {s : State}  (hP : P s) :
    ∀ t, Machine.execPowerReturn s = .next t → P t := by
  intro t h
  cases h
  repeat' first
    | with_reducible assumption | with_reducible apply C.finish | with_reducible apply C.begin
    | with_reducible apply C.powerReturn

theorem Stable.execPackPathConfirmed {P : State → Prop} (C : Stable P) {s : State}  (hP : P s) :
    ∀ t, Machine.execPackPathConfirmed s = .next t → P t := by
  intro t h
  cases h
  repeat' first
    | with_reducible assumption | with_reducible apply C.finish | with_reducible apply C.begin
    | with_reducible apply C.pathConfirmed

theorem Stable.execPackPathTimeout {P : State → Prop} (C : Stable P) {s : State}  (hP : P s) :
    ∀ t, Machine.execPackPathTimeout s = .next t → P t := by
  intro t h
  cases h
  repeat' first
    | with_reducible assumption | with_reducible apply C.finish | with_reducible apply C.begin
    | with_reducible apply C.pathLate

theorem Stable.execKilnCancel {P : State → Prop} (C : Stable P) {s : State}  (hP : P s) :
    ∀ t, Machine.execKilnCancel s = .next t → P t := by
  intro t h
  cases h
  repeat' first
    | with_reducible assumption | with_reducible apply C.finish | with_reducible apply C.begin
    | with_reducible apply C.debounced

theorem Stable.execPhaseTimeOverrun {P : State → Prop} (C : Stable P) {s : State}  (hP : P s) :
    ∀ t, Machine.execPhaseTimeOverrun s = .next t → P t := by
  intro t h
  cases h
  repeat' first
    | with_reducible assumption | with_reducible apply C.finish | with_reducible apply C.begin
    | with_reducible apply C.phaseLate

theorem Stable.execKilnSnapshotDone {P : State → Prop} (C : Stable P) {s : State}  (hP : P s) :
    ∀ t, Machine.execKilnSnapshotDone s = .next t → P t := by
  intro t h
  cases h
  repeat' first
    | with_reducible assumption | with_reducible apply pres_cond | with_reducible apply C.finish
    | with_reducible apply C.begin | with_reducible apply C.snapshotDone | intro _

theorem Stable.execKilnShedDone {P : State → Prop} (C : Stable P) {s : State}  (hP : P s) :
    ∀ t, Machine.execKilnShedDone s = .next t → P t := by
  intro t h
  cases h
  repeat' first
    | with_reducible assumption | with_reducible apply pres_cond | with_reducible apply C.finish
    | with_reducible apply C.begin | with_reducible apply C.shedDone | intro _

theorem Stable.execKilnStripeProgrammed {P : State → Prop} (C : Stable P) {s : State} (slots : List DrainSlot) (ue : List (Nat × Ecc)) (unread bad : List Nat) (hP : P s) :
    ∀ t, Machine.execKilnStripeProgrammed slots ue unread bad s = .next t → P t := by
  intro t h
  cases h
  repeat' first
    | with_reducible assumption | with_reducible apply pres_cond | with_reducible apply pres_foldl
    | with_reducible apply C.finish | with_reducible apply C.begin | with_reducible apply C.retireEngine
    | with_reducible apply C.stripeDone | intro _

theorem Stable.execDrainComplete {P : State → Prop} (C : Stable P) {s : State} (reason : Nat) (hP : P s) :
    ∀ t, Machine.execDrainComplete reason s = .next t → P t := by
  intro t h
  cases h
  repeat' first
    | with_reducible assumption | with_reducible apply pres_cond | with_reducible apply C.finish
    | with_reducible apply C.begin | with_reducible apply C.drainEnd | intro _

theorem Stable.execSealComplete {P : State → Prop} (C : Stable P) {s : State} (hdrA hdrB rewritten secLost : Bool) (found : KeepFound) (hP : P s) :
    ∀ t, Machine.execSealComplete hdrA hdrB rewritten secLost found s = .next t → P t := by
  intro t h
  cases h
  repeat' first
    | with_reducible assumption | with_reducible apply pres_cond | with_reducible apply C.finish
    | with_reducible apply C.begin | with_reducible apply C.seal | with_reducible apply C.keepErrors | intro _

theorem Stable.execKilnPowerDownDone {P : State → Prop} (C : Stable P) {s : State}  (hP : P s) :
    ∀ t, Machine.execKilnPowerDownDone s = .next t → P t := by
  intro t h
  cases h
  repeat' first
    | with_reducible assumption | with_reducible apply C.finish | with_reducible apply C.begin
    | with_reducible apply C.kilnOver

theorem Stable.execHoldupCollapse {P : State → Prop} (C : Stable P) {s : State} (control : Bool) (hP : P s) :
    ∀ t, Machine.execHoldupCollapse control s = .next t → P t := by
  intro t h
  cases h
  repeat' first
    | with_reducible assumption | with_reducible apply C.finish | with_reducible apply C.begin
    | with_reducible apply C.collapse

theorem Stable.execKilnSelftest {P : State → Prop} (C : Stable P) {s : State} (cmpOk shedOk romOk : Bool) (hP : P s) :
    ∀ t, Machine.execKilnSelftest cmpOk shedOk romOk s = .next t → P t := by
  intro t h
  cases h
  repeat' first
    | with_reducible assumption | with_reducible apply C.finish | with_reducible apply C.begin
    | with_reducible apply C.selfTest

theorem Stable.execKilnArmWrite {P : State → Prop} (C : Stable P) {s : State} (who : Requester) (on : Bool) (hP : P s) :
    ∀ t, Machine.execKilnArmWrite who on s = .next t → P t := by
  intro t h
  cases h
  repeat' first
    | with_reducible assumption | with_reducible apply C.finish | with_reducible apply C.begin
    | with_reducible apply C.command | with_reducible apply C.armWrite | intro _

theorem Stable.execCflKeyWrite {P : State → Prop} (C : Stable P) {s : State} (fw : Bool) (who : Requester) (value : Nat) (hP : P s) :
    ∀ t, Machine.execCflKeyWrite fw who value s = .next t → P t := by
  intro t h
  cases h
  repeat' first
    | with_reducible assumption | with_reducible apply C.finish | with_reducible apply C.begin
    | with_reducible apply C.under | with_reducible apply C.keyWrite | intro _

theorem Stable.execWordProgram {P : State → Prop} (C : Stable P) {s : State} (fw : Bool) (who : Requester) (addr word : Nat) (hP : P s) :
    ∀ t, Machine.execWordProgram fw who addr word s = .next t → P t := by
  intro t h
  cases h
  repeat' first
    | with_reducible assumption | with_reducible apply C.finish | with_reducible apply C.begin
    | with_reducible apply C.under | with_reducible apply C.flashCommand | intro _

theorem Stable.execSectorErase {P : State → Prop} (C : Stable P) {s : State} (fw : Bool) (who : Requester) (addr : Nat) (hP : P s) :
    ∀ t, Machine.execSectorErase fw who addr s = .next t → P t := by
  intro t h
  cases h
  repeat' first
    | with_reducible assumption | with_reducible apply C.finish | with_reducible apply C.begin
    | with_reducible apply C.under | with_reducible apply C.flashCommand | intro _

theorem Stable.execBlockErase {P : State → Prop} (C : Stable P) {s : State} (fw : Bool) (who : Requester) (addr : Nat) (hP : P s) :
    ∀ t, Machine.execBlockErase fw who addr s = .next t → P t := by
  intro t h
  cases h
  repeat' first
    | with_reducible assumption | with_reducible apply C.finish | with_reducible apply C.begin
    | with_reducible apply C.under | with_reducible apply C.flashCommand | intro _

theorem Stable.execSequenceReset {P : State → Prop} (C : Stable P) {s : State} (fw : Bool) (who : Requester) (hP : P s) :
    ∀ t, Machine.execSequenceReset fw who s = .next t → P t := by
  intro t h
  cases h
  repeat' first
    | with_reducible assumption | with_reducible apply C.finish | with_reducible apply C.begin
    | with_reducible apply C.under | with_reducible apply C.seqReset | intro _

theorem Stable.execFlashOpDone {P : State → Prop} (C : Stable P) {s : State} (bank : Nat) (ok : Bool) (hP : P s) :
    ∀ t, Machine.execFlashOpDone bank ok s = .next t → P t := by
  intro t h
  cases h
  repeat' first
    | with_reducible assumption | with_reducible apply C.finish | with_reducible apply C.begin
    | with_reducible apply C.flashDone

theorem Stable.execCodeFlashCheck {P : State → Prop} (C : Stable P) {s : State} (corrected : Nat) (bad : List (Nat × Nat)) (hP : P s) :
    ∀ t, Machine.execCodeFlashCheck corrected bad s = .next t → P t := by
  intro t h
  cases h
  repeat' first
    | with_reducible assumption | with_reducible apply C.finish | with_reducible apply C.begin
    | with_reducible apply C.corrected | with_reducible apply C.flashCheck

theorem Stable.execBrewTransfer {P : State → Prop} (C : Stable P) {s : State} (port off len : Nat) (data : Memory) (ok : Bool) (hP : P s) :
    ∀ t, Machine.execBrewTransfer port off len data ok s = .next t → P t := by
  intro t h
  cases h
  repeat' first
    | with_reducible assumption | with_reducible apply C.finish | with_reducible apply C.begin
    | with_reducible apply C.updBox | with_reducible apply C.brewBlock | intro _

theorem Stable.execUpdateStatus {P : State → Prop} (C : Stable P) {s : State} (port : Nat) (hP : P s) :
    ∀ t, Machine.execUpdateStatus port s = .next t → P t := by
  intro t h
  cases h
  repeat' first
    | with_reducible assumption | with_reducible apply C.finish | with_reducible apply C.begin
    | with_reducible apply C.updBox | with_reducible apply C.updStatus | intro _

theorem Stable.execUpdateStart {P : State → Prop} (C : Stable P) {s : State} (port len : Nat) (hP : P s) :
    ∀ t, Machine.execUpdateStart port len s = .next t → P t := by
  intro t h
  cases h
  repeat' first
    | with_reducible assumption | with_reducible apply C.finish | with_reducible apply C.begin
    | with_reducible apply C.updBox | with_reducible apply C.updStart | with_reducible apply C.answer | intro _

theorem Stable.execUpdateActivate {P : State → Prop} (C : Stable P) {s : State} (port : Nat) (hP : P s) :
    ∀ t, Machine.execUpdateActivate port s = .next t → P t := by
  intro t h
  cases h
  repeat' first
    | with_reducible assumption | with_reducible apply C.finish | with_reducible apply C.begin
    | with_reducible apply C.updBox | with_reducible apply C.answer | with_reducible apply C.activate | intro _

theorem Stable.execUpdateActivateAtReset {P : State → Prop} (C : Stable P) {s : State} (port : Nat) (hP : P s) :
    ∀ t, Machine.execUpdateActivateAtReset port s = .next t → P t := by
  intro t h
  cases h
  repeat' first
    | with_reducible assumption | with_reducible apply C.finish | with_reducible apply C.begin
    | with_reducible apply C.updBox | with_reducible apply C.answer | with_reducible apply C.activateReset | intro _

theorem Stable.execUpdateAbort {P : State → Prop} (C : Stable P) {s : State} (port : Nat) (hP : P s) :
    ∀ t, Machine.execUpdateAbort port s = .next t → P t := by
  intro t h
  cases h
  repeat' first
    | with_reducible assumption | with_reducible apply C.finish | with_reducible apply C.begin
    | with_reducible apply C.updBox | with_reducible apply C.updAbort | with_reducible apply C.answer | intro _

theorem Stable.execTransferFwInitiate {P : State → Prop} (C : Stable P) {s : State} (port : Nat) (hP : P s) :
    ∀ t, Machine.execTransferFwInitiate port s = .next t → P t := by
  intro t h
  cases h
  repeat' first
    | with_reducible assumption | with_reducible apply C.finish | with_reducible apply C.begin
    | with_reducible apply C.updBox | with_reducible apply C.updStart | with_reducible apply C.answer | intro _

theorem Stable.execTransferFwContinue {P : State → Prop} (C : Stable P) {s : State} (port off len : Nat) (data : Memory) (ok : Bool) (hP : P s) :
    ∀ t, Machine.execTransferFwContinue port off len data ok s = .next t → P t := by
  intro t h
  cases h
  repeat' first
    | with_reducible assumption | with_reducible apply C.finish | with_reducible apply C.begin
    | with_reducible apply C.updBox | with_reducible apply C.putBlock | with_reducible apply C.answer | intro _

theorem Stable.execTransferFwEnd {P : State → Prop} (C : Stable P) {s : State} (port : Nat) (hP : P s) :
    ∀ t, Machine.execTransferFwEnd port s = .next t → P t := by
  intro t h
  cases h
  repeat' first
    | with_reducible assumption | with_reducible apply C.finish | with_reducible apply C.begin
    | with_reducible apply C.updBox | with_reducible apply C.updEnd | with_reducible apply C.answer | intro _

theorem Stable.execTransferFwAbort {P : State → Prop} (C : Stable P) {s : State} (port : Nat) (hP : P s) :
    ∀ t, Machine.execTransferFwAbort port s = .next t → P t := by
  intro t h
  cases h
  repeat' first
    | with_reducible assumption | with_reducible apply C.finish | with_reducible apply C.begin
    | with_reducible apply C.updBox | with_reducible apply C.updAbort | with_reducible apply C.answer | intro _

theorem Stable.execTransferFwFull {P : State → Prop} (C : Stable P) {s : State} (port len : Nat) (data : Memory) (ok : Bool) (hP : P s) :
    ∀ t, Machine.execTransferFwFull port len data ok s = .next t → P t := by
  intro t h
  cases h
  repeat' first
    | with_reducible assumption | with_reducible apply C.finish | with_reducible apply C.begin
    | with_reducible apply C.updBox | with_reducible apply C.answer | with_reducible apply C.updFull | intro _

theorem Stable.execActivateFwOnline {P : State → Prop} (C : Stable P) {s : State} (port : Nat) (hP : P s) :
    ∀ t, Machine.execActivateFwOnline port s = .next t → P t := by
  intro t h
  cases h
  repeat' first
    | with_reducible assumption | with_reducible apply C.finish | with_reducible apply C.begin
    | with_reducible apply C.updBox | with_reducible apply C.answer | with_reducible apply C.activate | intro _

theorem Stable.execActivateFwReset {P : State → Prop} (C : Stable P) {s : State} (port : Nat) (hP : P s) :
    ∀ t, Machine.execActivateFwReset port s = .next t → P t := by
  intro t h
  cases h
  repeat' first
    | with_reducible assumption | with_reducible apply C.finish | with_reducible apply C.begin
    | with_reducible apply C.updBox | with_reducible apply C.answer | with_reducible apply C.activateReset | intro _

theorem Stable.execUpdateLockExpired {P : State → Prop} (C : Stable P) {s : State}  (hP : P s) :
    ∀ t, Machine.execUpdateLockExpired s = .next t → P t := by
  intro t h
  cases h
  repeat' first
    | with_reducible assumption | with_reducible apply C.finish | with_reducible apply C.begin
    | with_reducible apply C.lockExpired

theorem Stable.execVerifyDone {P : State → Prop} (C : Stable P) {s : State} (k : Package) (hP : P s) :
    ∀ t, Machine.execVerifyDone k s = .next t → P t := by
  intro t h
  cases h
  repeat' first
    | with_reducible assumption | with_reducible apply C.finish | with_reducible apply C.begin
    | with_reducible apply C.verifyDone

theorem Stable.execConfirmWindowEnd {P : State → Prop} (C : Stable P) {s : State} (cmpOk shedOk romOk : Bool) (hP : P s) :
    ∀ t, Machine.execConfirmWindowEnd cmpOk shedOk romOk s = .next t → P t := by
  intro t h
  cases h
  repeat' first
    | with_reducible assumption | with_reducible apply C.finish | with_reducible apply C.begin
    | with_reducible apply C.windowEnd

theorem Stable.execMainInStable {P : State → Prop} (C : Stable P) {s : State}  (hP : P s) :
    ∀ t, Machine.execMainInStable s = .next t → P t := by
  intro t h
  cases h
  repeat' first
    | with_reducible assumption | with_reducible apply C.finish | with_reducible apply C.begin
    | with_reducible apply C.mainStable

theorem Stable.execBootStepDone {P : State → Prop} (C : Stable P) {s : State} (n : Nat) (ok : Bool) (cause ms : Nat) (found : BootFound) (hP : P s) :
    ∀ t, Machine.execBootStepDone n ok cause ms found s = .next t → P t := by
  intro t h
  cases h
  repeat' first
    | with_reducible assumption | with_reducible apply C.finish | with_reducible apply C.begin
    | with_reducible apply C.bootStep

theorem Stable.execBulkDelayElapsed {P : State → Prop} (C : Stable P) {s : State}  (hP : P s) :
    ∀ t, Machine.execBulkDelayElapsed s = .next t → P t := by
  intro t h
  cases h
  repeat' first
    | with_reducible assumption | with_reducible apply C.finish | with_reducible apply C.begin
    | with_reducible apply C.bulkDelay

theorem Stable.execDemandFillDone {P : State → Prop} (C : Stable P) {s : State} (granule mapStep step us busy : Nat) (hP : P s) :
    ∀ t, Machine.execDemandFillDone granule mapStep step us busy s = .next t → P t := by
  intro t h
  cases h
  repeat' first
    | with_reducible assumption | with_reducible apply C.finish | with_reducible apply C.begin
    | with_reducible apply C.demandDone

theorem Stable.execFillCeiling {P : State → Prop} (C : Stable P) {s : State} (port tag : Nat) (hP : P s) :
    ∀ t, Machine.execFillCeiling port tag s = .next t → P t := by
  intro t h
  cases h
  repeat' first
    | with_reducible assumption | with_reducible apply C.finish | with_reducible apply C.begin
    | with_reducible apply C.ceiling

theorem Stable.execBulkFillDone {P : State → Prop} (C : Stable P) {s : State} (mapStep step busy : Nat) (hP : P s) :
    ∀ t, Machine.execBulkFillDone mapStep step busy s = .next t → P t := by
  intro t h
  cases h
  repeat' first
    | with_reducible assumption | with_reducible apply C.finish | with_reducible apply C.begin
    | with_reducible apply C.bulkFill

theorem Stable.execSqDoorbell {P : State → Prop} (C : Stable P) {s : State} (port q tail : Nat) (hP : P s) :
    ∀ t, Machine.execSqDoorbell port q tail s = .next t → P t := by
  intro t h
  cases h
  repeat' first
    | with_reducible assumption | with_reducible apply C.finish | with_reducible apply C.begin
    | with_reducible apply C.byOwner | with_reducible apply C.sqTail | intro _

theorem Stable.execCqDoorbell {P : State → Prop} (C : Stable P) {s : State} (port q head : Nat) (hP : P s) :
    ∀ t, Machine.execCqDoorbell port q head s = .next t → P t := by
  intro t h
  cases h
  repeat' first
    | with_reducible assumption | with_reducible apply C.finish | with_reducible apply C.begin
    | with_reducible apply C.byOwner | with_reducible apply C.cqHead | intro _

theorem Stable.execQueueEnable {P : State → Prop} (C : Stable P) {s : State} (port q : Nat) (hP : P s) :
    ∀ t, Machine.execQueueEnable port q s = .next t → P t := by
  intro t h
  cases h
  repeat' first
    | with_reducible assumption | with_reducible apply C.finish | with_reducible apply C.begin
    | with_reducible apply C.byOwner | with_reducible apply C.enableQueue | intro _

theorem Stable.execQueueDisable {P : State → Prop} (C : Stable P) {s : State} (port q : Nat) (hP : P s) :
    ∀ t, Machine.execQueueDisable port q s = .next t → P t := by
  intro t h
  cases h
  repeat' first
    | with_reducible assumption | with_reducible apply C.finish | with_reducible apply C.begin
    | with_reducible apply C.disableQueue | with_reducible apply C.byOwner | intro _

theorem Stable.execIntRecordDiscard {P : State → Prop} (C : Stable P) {s : State} (port q : Nat) (hP : P s) :
    ∀ t, Machine.execIntRecordDiscard port q s = .next t → P t := by
  intro t h
  cases h
  repeat' first
    | with_reducible assumption | with_reducible apply C.finish | with_reducible apply C.begin
    | with_reducible apply C.byOwner | with_reducible apply C.dropRecord | intro _

theorem Stable.execDescriptorFetch {P : State → Prop} (C : Stable P) {s : State} (words : List Nat) (hP : P s) :
    ∀ t, Machine.execDescriptorFetch words s = .next t → P t := by
  intro t h
  cases h
  repeat' first
    | with_reducible assumption | with_reducible apply C.finish | with_reducible apply C.begin
    | with_reducible apply C.fetchDesc

theorem Stable.execDmaFailure {P : State → Prop} (C : Stable P) {s : State} (q kind : Nat) (hP : P s) :
    ∀ t, Machine.execDmaFailure q kind s = .next t → P t := by
  intro t h
  cases h
  repeat' first
    | with_reducible assumption | with_reducible apply C.finish | with_reducible apply C.begin
    | with_reducible apply C.dmaFails

theorem Stable.execNop {P : State → Prop} (C : Stable P) {s : State} (q cid : Nat) (hP : P s) :
    ∀ t, Machine.execNop q cid s = .next t → P t := by
  intro t h
  cases h
  repeat' first
    | with_reducible assumption | with_reducible apply C.finish | with_reducible apply C.begin
    | with_reducible apply C.runNop

theorem Stable.execFenceDurable {P : State → Prop} (C : Stable P) {s : State} (q cid n : Nat) (hP : P s) :
    ∀ t, Machine.execFenceDurable q cid n s = .next t → P t := by
  intro t h
  cases h
  repeat' first
    | with_reducible assumption | with_reducible apply C.finish | with_reducible apply C.begin
    | with_reducible apply C.runFence

theorem Stable.execCopy {P : State → Prop} (C : Stable P) {s : State} (q cid n : Nat) (found : List (Nat × Ecc)) (full : List Nat) (hP : P s) :
    ∀ t, Machine.execCopy q cid n found full s = .next t → P t := by
  intro t h
  cases h
  repeat' first
    | with_reducible assumption | with_reducible apply C.finish | with_reducible apply C.begin
    | with_reducible apply C.runCopy

theorem Stable.execZero {P : State → Prop} (C : Stable P) {s : State} (q cid n : Nat) (full : List Nat) (hP : P s) :
    ∀ t, Machine.execZero q cid n full s = .next t → P t := by
  intro t h
  cases h
  repeat' first
    | with_reducible assumption | with_reducible apply C.finish | with_reducible apply C.begin
    | with_reducible apply C.runZero

theorem Stable.execPin {P : State → Prop} (C : Stable P) {s : State} (q cid : Nat) (hP : P s) :
    ∀ t, Machine.execPin q cid s = .next t → P t := by
  intro t h
  cases h
  repeat' first
    | with_reducible assumption | with_reducible apply C.finish | with_reducible apply C.begin
    | with_reducible apply C.runPin

theorem Stable.execHeatHint {P : State → Prop} (C : Stable P) {s : State} (q cid n : Nat) (hP : P s) :
    ∀ t, Machine.execHeatHint q cid n s = .next t → P t := by
  intro t h
  cases h
  repeat' first
    | with_reducible assumption | with_reducible apply C.finish | with_reducible apply C.begin
    | with_reducible apply C.runHint

theorem Stable.execDiscard {P : State → Prop} (C : Stable P) {s : State} (q cid n : Nat) (hP : P s) :
    ∀ t, Machine.execDiscard q cid n s = .next t → P t := by
  intro t h
  cases h
  repeat' first
    | with_reducible assumption | with_reducible apply C.finish | with_reducible apply C.begin
    | with_reducible apply C.runDiscard

theorem Stable.execVolatileSet {P : State → Prop} (C : Stable P) {s : State} (q cid : Nat) (hP : P s) :
    ∀ t, Machine.execVolatileSet q cid s = .next t → P t := by
  intro t h
  cases h
  repeat' first
    | with_reducible assumption | with_reducible apply C.finish | with_reducible apply C.begin
    | with_reducible apply C.runVolatile

theorem Stable.execQuery {P : State → Prop} (C : Stable P) {s : State} (q cid : Nat) (ok : Bool) (hP : P s) :
    ∀ t, Machine.execQuery q cid ok s = .next t → P t := by
  intro t h
  cases h
  repeat' first
    | with_reducible assumption | with_reducible apply C.finish | with_reducible apply C.begin
    | with_reducible apply C.runQuery

theorem Stable.execCommandComplete {P : State → Prop} (C : Stable P) {s : State} (q cid us : Nat) (hP : P s) :
    ∀ t, Machine.execCommandComplete q cid us s = .next t → P t := by
  intro t h
  cases h
  repeat' first
    | with_reducible assumption | with_reducible apply C.finish | with_reducible apply C.begin
    | with_reducible apply C.commandDone

theorem Stable.execCoalesceTimeout {P : State → Prop} (C : Stable P) {s : State} (port vec : Nat) (hP : P s) :
    ∀ t, Machine.execCoalesceTimeout port vec s = .next t → P t := by
  intro t h
  cases h
  repeat' first
    | with_reducible assumption | with_reducible apply C.finish | with_reducible apply C.begin
    | with_reducible apply C.coalesce

theorem Stable.execCqFullTimeout {P : State → Prop} (C : Stable P) {s : State} (q : Nat) (hP : P s) :
    ∀ t, Machine.execCqFullTimeout q s = .next t → P t := by
  intro t h
  cases h
  repeat' first
    | with_reducible assumption | with_reducible apply pres_cond | with_reducible apply C.finish
    | with_reducible apply C.begin | with_reducible apply C.detect | intro _

theorem Stable.execChainTimeout {P : State → Prop} (C : Stable P) {s : State} (q : Nat) (hP : P s) :
    ∀ t, Machine.execChainTimeout q s = .next t → P t := by
  intro t h
  cases h
  repeat' first
    | with_reducible assumption | with_reducible apply C.finish | with_reducible apply C.begin
    | with_reducible apply C.chainLate

theorem Stable.execRack {P : State → Prop} (C : Stable P) {s : State} (q cid : Nat) (hP : P s) :
    ∀ t, Machine.execRack q cid s = .next t → P t := by
  intro t h
  cases h
  repeat' first
    | with_reducible assumption | with_reducible apply C.finish | with_reducible apply C.begin
    | with_reducible apply C.runRack

theorem Stable.execRackFence {P : State → Prop} (C : Stable P) {s : State} (q cid : Nat) (hP : P s) :
    ∀ t, Machine.execRackFence q cid s = .next t → P t := by
  intro t h
  cases h
  repeat' first
    | with_reducible assumption | with_reducible apply C.finish | with_reducible apply C.begin
    | with_reducible apply C.runRack

theorem Stable.execRackSendStart {P : State → Prop} (C : Stable P) {s : State} (target region : Nat) (found : List (Nat × Ecc)) (hP : P s) :
    ∀ t, Machine.execRackSendStart target region found s = .next t → P t := by
  intro t h
  cases h
  repeat' first
    | with_reducible assumption | with_reducible apply C.finish | with_reducible apply C.begin
    | with_reducible apply C.sendStart

theorem Stable.execAckTimeout {P : State → Prop} (C : Stable P) {s : State} (target region : Nat) (hP : P s) :
    ∀ t, Machine.execAckTimeout target region s = .next t → P t := by
  intro t h
  cases h
  repeat' first
    | with_reducible assumption | with_reducible apply C.finish | with_reducible apply C.begin
    | with_reducible apply C.ackLate

theorem Stable.execRackOpenRetry {P : State → Prop} (C : Stable P) {s : State} (target : Nat) (hP : P s) :
    ∀ t, Machine.execRackOpenRetry target s = .next t → P t := by
  intro t h
  cases h
  repeat' first
    | with_reducible assumption | with_reducible apply C.finish | with_reducible apply C.begin
    | with_reducible apply C.openRetry

theorem Stable.execGuestRegionCommit {P : State → Prop} (C : Stable P) {s : State} (slot region : Nat) (hP : P s) :
    ∀ t, Machine.execGuestRegionCommit slot region s = .next t → P t := by
  intro t h
  cases h
  repeat' first
    | with_reducible assumption | with_reducible apply C.finish | with_reducible apply C.begin
    | with_reducible apply C.guestCommit

theorem Stable.execGuestRelease {P : State → Prop} (C : Stable P) {s : State} (who : Requester) (hP : P s) :
    ∀ t, Machine.execGuestRelease who s = .next t → P t := by
  intro t h
  cases h
  repeat' first
    | with_reducible assumption | with_reducible apply C.finish | with_reducible apply C.begin
    | with_reducible apply C.guestRelease

theorem Stable.execHelloTx {P : State → Prop} (C : Stable P) {s : State} (port : Nat) (hP : P s) :
    ∀ t, Machine.execHelloTx port s = .next t → P t := by
  intro t h
  cases h
  repeat' first
    | with_reducible assumption | with_reducible apply C.finish | with_reducible apply C.send
    | with_reducible apply C.begin | with_reducible apply C.onPort | intro _

theorem Stable.execHelloRx {P : State → Prop} (C : Stable P) {s : State} (port : Nat) (p : Packet) (hP : P s) :
    ∀ t, Machine.execHelloRx port p s = .next t → P t := by
  intro t h
  cases h
  repeat' first
    | with_reducible assumption | with_reducible apply C.finish | with_reducible apply C.begin
    | with_reducible apply C.onPort | with_reducible apply C.helloIn | intro _

theorem Stable.execHellosMissed {P : State → Prop} (C : Stable P) {s : State} (port : Nat) (hP : P s) :
    ∀ t, Machine.execHellosMissed port s = .next t → P t := by
  intro t h
  cases h
  repeat' first
    | with_reducible assumption | with_reducible apply C.finish | with_reducible apply C.begin
    | with_reducible apply C.onPort | with_reducible apply C.hellosMissed | intro _

theorem Stable.execTrainingDone {P : State → Prop} (C : Stable P) {s : State} (port bad : Nat) (hP : P s) :
    ∀ t, Machine.execTrainingDone port bad s = .next t → P t := by
  intro t h
  cases h
  repeat' first
    | with_reducible assumption | with_reducible apply C.finish | with_reducible apply C.begin
    | with_reducible apply C.onPort | with_reducible apply C.trained | intro _

theorem Stable.execTrainingTimeout {P : State → Prop} (C : Stable P) {s : State} (port : Nat) (hP : P s) :
    ∀ t, Machine.execTrainingTimeout port s = .next t → P t := by
  intro t h
  cases h
  repeat' first
    | with_reducible assumption | with_reducible apply C.finish | with_reducible apply C.begin
    | with_reducible apply C.onPort | with_reducible apply C.trainLate | intro _

theorem Stable.execTrainingRetry {P : State → Prop} (C : Stable P) {s : State} (port : Nat) (hP : P s) :
    ∀ t, Machine.execTrainingRetry port s = .next t → P t := by
  intro t h
  cases h
  repeat' first
    | with_reducible assumption | with_reducible apply C.finish | with_reducible apply C.begin
    | with_reducible apply C.onPort | with_reducible apply C.trainRetry | intro _

theorem Stable.execLaneFail {P : State → Prop} (C : Stable P) {s : State} (port lane exp : Nat) (hP : P s) :
    ∀ t, Machine.execLaneFail port lane exp s = .next t → P t := by
  intro t h
  cases h
  repeat' first
    | with_reducible assumption | with_reducible apply pres_cond | with_reducible apply C.finish
    | with_reducible apply C.begin | with_reducible apply C.onPort | with_reducible apply C.laneFail
    | with_reducible apply C.wr | intro _

theorem Stable.execLinkFrameRx {P : State → Prop} (C : Stable P) {s : State} (port plane kind seq : Nat) (crcOk : Bool) (hP : P s) :
    ∀ t, Machine.execLinkFrameRx port plane kind seq crcOk s = .next t → P t := by
  intro t h
  cases h
  repeat' first
    | with_reducible assumption | with_reducible apply C.finish | with_reducible apply C.begin
    | with_reducible apply C.onPort | with_reducible apply C.linkFrame | intro _

theorem Stable.execReplayRetrainTimeout {P : State → Prop} (C : Stable P) {s : State} (port : Nat) (hP : P s) :
    ∀ t, Machine.execReplayRetrainTimeout port s = .next t → P t := by
  intro t h
  cases h
  repeat' first
    | with_reducible assumption | with_reducible apply C.finish | with_reducible apply C.begin
    | with_reducible apply C.onPort | with_reducible apply C.replayLate | intro _

theorem Stable.execClaimWindowEnd {P : State → Prop} (C : Stable P) {s : State}  (hP : P s) :
    ∀ t, Machine.execClaimWindowEnd s = .next t → P t := by
  intro t h
  cases h
  repeat' first
    | with_reducible assumption | with_reducible apply C.finish | with_reducible apply C.begin
    | with_reducible apply C.claimEnd

theorem Stable.execLsaPeriodic {P : State → Prop} (C : Stable P) {s : State}  (hP : P s) :
    ∀ t, Machine.execLsaPeriodic s = .next t → P t := by
  intro t h
  cases h
  repeat' first
    | with_reducible assumption | with_reducible apply C.finish | with_reducible apply C.begin
    | with_reducible apply C.announce

theorem Stable.execLsaAgeOut {P : State → Prop} (C : Stable P) {s : State} (eui : Nat) (hP : P s) :
    ∀ t, Machine.execLsaAgeOut eui s = .next t → P t := by
  intro t h
  cases h
  repeat' first
    | with_reducible assumption | with_reducible apply pres_cond | with_reducible apply C.finish
    | with_reducible apply C.begin | with_reducible apply C.lsaAge | intro _

theorem Stable.execRouteInstall {P : State → Prop} (C : Stable P) {s : State} (ms : Nat) (hP : P s) :
    ∀ t, Machine.execRouteInstall ms s = .next t → P t := by
  intro t h
  cases h
  repeat' first
    | with_reducible assumption | with_reducible apply C.finish | with_reducible apply C.begin
    | with_reducible apply C.install

theorem Stable.execConvergenceTimeout {P : State → Prop} (C : Stable P) {s : State}  (hP : P s) :
    ∀ t, Machine.execConvergenceTimeout s = .next t → P t := by
  intro t h
  cases h
  repeat' first
    | with_reducible assumption | with_reducible apply pres_cond | with_reducible apply C.finish
    | with_reducible apply C.begin | with_reducible apply C.detect | intro _

theorem Stable.execAlarmSummaryTx {P : State → Prop} (C : Stable P) {s : State} (kind : Nat) (hP : P s) :
    ∀ t, Machine.execAlarmSummaryTx kind s = .next t → P t := by
  intro t h
  cases h
  repeat' first
    | with_reducible assumption | with_reducible apply C.finish | with_reducible apply C.begin
    | with_reducible apply C.sendSummary

theorem Stable.execPacketRx {P : State → Prop} (C : Stable P) {s : State} (port plane : Nat) (p : Packet) (hP : P s) :
    ∀ t, Machine.execPacketRx port plane p s = .next t → P t := by
  intro t h
  cases h
  repeat' first
    | with_reducible assumption | with_reducible apply C.finish | with_reducible apply C.begin
    | with_reducible apply C.onPort | with_reducible apply C.packetIn | intro _

theorem Stable.execPhantomOvercurrent {P : State → Prop} (C : Stable P) {s : State} (port : Nat) (hP : P s) :
    ∀ t, Machine.execPhantomOvercurrent port s = .next t → P t := by
  intro t h
  cases h
  repeat' first
    | with_reducible assumption | with_reducible apply C.finish | with_reducible apply C.begin
    | with_reducible apply C.onPort | with_reducible apply C.overcurrent | intro _

theorem Stable.execPhantomFeedRetry {P : State → Prop} (C : Stable P) {s : State} (port : Nat) (hP : P s) :
    ∀ t, Machine.execPhantomFeedRetry port s = .next t → P t := by
  intro t h
  cases h
  repeat' first
    | with_reducible assumption | with_reducible apply C.finish | with_reducible apply C.begin
    | with_reducible apply C.onPort | with_reducible apply C.feedRetry | intro _

theorem Stable.execPackInserted {P : State → Prop} (C : Stable P) {s : State} (port : Nat) (hP : P s) :
    ∀ t, Machine.execPackInserted port s = .next t → P t := by
  intro t h
  cases h
  repeat' first
    | with_reducible assumption | with_reducible apply C.finish | with_reducible apply C.begin
    | with_reducible apply C.onPack | with_reducible apply C.insertPack | intro _

theorem Stable.execPackIdentified {P : State → Prop} (C : Stable P) {s : State} (port : Nat) (answered : Bool) (serial chem : Nat) (cells4 : Bool) (hP : P s) :
    ∀ t, Machine.execPackIdentified port answered serial chem cells4 s = .next t → P t := by
  intro t h
  cases h
  repeat' first
    | with_reducible assumption | with_reducible apply C.finish | with_reducible apply C.begin
    | with_reducible apply C.onPack | with_reducible apply C.identify | intro _

theorem Stable.execPackRemoved {P : State → Prop} (C : Stable P) {s : State} (port : Nat) (hP : P s) :
    ∀ t, Machine.execPackRemoved port s = .next t → P t := by
  intro t h
  cases h
  repeat' first
    | with_reducible assumption | with_reducible apply C.finish | with_reducible apply C.begin
    | with_reducible apply C.onPack | with_reducible apply C.packGone | intro _

theorem Stable.execAuthResponse {P : State → Prop} (C : Stable P) {s : State} (port : Nat) (answer : Option Nat) (hP : P s) :
    ∀ t, Machine.execAuthResponse port answer s = .next t → P t := by
  intro t h
  cases h
  repeat' first
    | with_reducible assumption | with_reducible apply C.finish | with_reducible apply C.begin
    | with_reducible apply C.answer | with_reducible apply C.onPack | with_reducible apply C.authResponse | intro _

theorem Stable.execAuthRetry {P : State → Prop} (C : Stable P) {s : State} (port : Nat) (hP : P s) :
    ∀ t, Machine.execAuthRetry port s = .next t → P t := by
  intro t h
  cases h
  repeat' first
    | with_reducible assumption | with_reducible apply C.finish | with_reducible apply C.begin
    | with_reducible apply C.onPack | with_reducible apply C.authRetry | intro _

theorem Stable.execAuthRun {P : State → Prop} (C : Stable P) {s : State} (who : Requester) (port : Nat) (daily : Bool) (hP : P s) :
    ∀ t, Machine.execAuthRun who port daily s = .next t → P t := by
  intro t h
  cases h
  repeat' first
    | with_reducible assumption | with_reducible apply C.finish | with_reducible apply C.begin
    | with_reducible apply C.onPack | with_reducible apply C.authRun | intro _

theorem Stable.execAuthOverrideWrite {P : State → Prop} (C : Stable P) {s : State} (who : Requester) (port value : Nat) (hP : P s) :
    ∀ t, Machine.execAuthOverrideWrite who port value s = .next t → P t := by
  intro t h
  cases h
  repeat' first
    | with_reducible assumption | with_reducible apply C.finish | with_reducible apply C.begin
    | with_reducible apply C.packJudge | with_reducible apply C.under | with_reducible apply C.onPack
    | with_reducible apply C.wr | intro _

theorem Stable.execPackAtRest {P : State → Prop} (C : Stable P) {s : State} (port lo hi : Nat) (hP : P s) :
    ∀ t, Machine.execPackAtRest port lo hi s = .next t → P t := by
  intro t h
  cases h
  repeat' first
    | with_reducible assumption | with_reducible apply C.finish | with_reducible apply C.begin
    | with_reducible apply C.onPack | with_reducible apply C.atRest | intro _

theorem Stable.execGaugeDisagree {P : State → Prop} (C : Stable P) {s : State} (port : Nat) (hP : P s) :
    ∀ t, Machine.execGaugeDisagree port s = .next t → P t := by
  intro t h
  cases h
  repeat' first
    | with_reducible assumption | with_reducible apply C.finish | with_reducible apply C.begin
    | with_reducible apply C.onPack | with_reducible apply C.disagree | intro _

theorem Stable.execRelearn {P : State → Prop} (C : Stable P) {s : State} (who : Requester) (hP : P s) :
    ∀ t, Machine.execRelearn who s = .next t → P t := by
  intro t h
  cases h
  repeat' first
    | with_reducible assumption | with_reducible apply pres_foldl | with_reducible apply C.finish
    | with_reducible apply C.inc | with_reducible apply C.begin | with_reducible apply C.packHours
    | with_reducible apply C.command | with_reducible apply C.schedule | intro _

theorem Stable.execNoRest72h {P : State → Prop} (C : Stable P) {s : State} (port : Nat) (hP : P s) :
    ∀ t, Machine.execNoRest72h port s = .next t → P t := by
  intro t h
  cases h
  repeat' first
    | with_reducible assumption | with_reducible apply C.finish | with_reducible apply C.begin
    | with_reducible apply C.onPack | with_reducible apply C.noRest | intro _

theorem Stable.execRestWindowEnd {P : State → Prop} (C : Stable P) {s : State}  (hP : P s) :
    ∀ t, Machine.execRestWindowEnd s = .next t → P t := by
  intro t h
  cases h
  repeat' first
    | with_reducible assumption | with_reducible apply pres_cond | with_reducible apply C.finish
    | with_reducible apply C.begin | with_reducible apply C.chargeCheck | with_reducible apply C.endRest | intro _

theorem Stable.execSwitchoverTest {P : State → Prop} (C : Stable P) {s : State} (port : Nat) (hP : P s) :
    ∀ t, Machine.execSwitchoverTest port s = .next t → P t := by
  intro t h
  cases h
  repeat' first
    | with_reducible assumption | with_reducible apply C.finish | with_reducible apply C.begin
    | with_reducible apply C.switchTest

theorem Stable.execPulseTest {P : State → Prop} (C : Stable P) {s : State} (port : Nat) (hP : P s) :
    ∀ t, Machine.execPulseTest port s = .next t → P t := by
  intro t h
  cases h
  repeat' first
    | with_reducible assumption | with_reducible apply pres_cond | with_reducible apply C.finish
    | with_reducible apply C.begin | with_reducible apply C.onPack | with_reducible apply C.startTest | intro _

theorem Stable.execPackTestDone {P : State → Prop} (C : Stable P) {s : State} (port us ma ri vFloor : Nat) (hP : P s) :
    ∀ t, Machine.execPackTestDone port us ma ri vFloor s = .next t → P t := by
  intro t h
  cases h
  repeat' first
    | with_reducible assumption | with_reducible apply pres_cond | with_reducible apply C.finish
    | with_reducible apply C.begin | with_reducible apply C.testDone | intro _

theorem Stable.execTestDischarge {P : State → Prop} (C : Stable P) {s : State} (who : Requester) (port : Nat) (hP : P s) :
    ∀ t, Machine.execTestDischarge who port s = .next t → P t := by
  intro t h
  cases h
  repeat' first
    | with_reducible assumption | with_reducible apply C.finish | with_reducible apply C.begin
    | with_reducible apply C.command | with_reducible apply C.onPack | with_reducible apply C.dischargeTest | intro _

theorem Stable.execCellOvervoltage {P : State → Prop} (C : Stable P) {s : State} (port : Nat) (hP : P s) :
    ∀ t, Machine.execCellOvervoltage port s = .next t → P t := by
  intro t h
  cases h
  repeat' first
    | with_reducible assumption | with_reducible apply pres_cond | with_reducible apply C.finish
    | with_reducible apply C.begin | with_reducible apply C.detect | with_reducible apply C.chargeStop
    | with_reducible apply C.onPack | intro _

theorem Stable.execChargerFaultTimeout {P : State → Prop} (C : Stable P) {s : State} (port kind : Nat) (hP : P s) :
    ∀ t, Machine.execChargerFaultTimeout port kind s = .next t → P t := by
  intro t h
  cases h
  repeat' first
    | with_reducible assumption | with_reducible apply C.finish | with_reducible apply C.begin
    | with_reducible apply C.onPack | with_reducible apply C.chargerFault | intro _

theorem Stable.execSeqProgramStart {P : State → Prop} (C : Stable P) {s : State} (n : Nat) (crcOk : Bool) (hP : P s) :
    ∀ t, Machine.execSeqProgramStart n crcOk s = .next t → P t := by
  intro t h
  cases h
  repeat' first
    | with_reducible assumption | with_reducible apply C.finish | with_reducible apply C.begin
    | with_reducible apply C.programStart

theorem Stable.execSeqWaitDone {P : State → Prop} (C : Stable P) {s : State}  (hP : P s) :
    ∀ t, Machine.execSeqWaitDone s = .next t → P t := by
  intro t h
  cases h
  repeat' first
    | with_reducible assumption | with_reducible apply C.finish | with_reducible apply C.begin
    | with_reducible apply C.waitDone

theorem Stable.execSeqCheckDone {P : State → Prop} (C : Stable P) {s : State}  (hP : P s) :
    ∀ t, Machine.execSeqCheckDone s = .next t → P t := by
  intro t h
  cases h
  repeat' first
    | with_reducible assumption | with_reducible apply C.finish | with_reducible apply C.begin
    | with_reducible apply C.checkDone

theorem Stable.execSeqCheckTimeout {P : State → Prop} (C : Stable P) {s : State}  (hP : P s) :
    ∀ t, Machine.execSeqCheckTimeout s = .next t → P t := by
  intro t h
  cases h
  repeat' first
    | with_reducible assumption | with_reducible apply C.finish | with_reducible apply C.begin
    | with_reducible apply C.checkTimeout

theorem Stable.execSyncAdvance {P : State → Prop} (C : Stable P) {s : State}  (hP : P s) :
    ∀ t, Machine.execSyncAdvance s = .next t → P t := by
  intro t h
  cases h
  repeat' first
    | with_reducible assumption | with_reducible apply C.finish | with_reducible apply C.begin
    | with_reducible apply C.syncAdvance

theorem Stable.execSyncTimeout {P : State → Prop} (C : Stable P) {s : State}  (hP : P s) :
    ∀ t, Machine.execSyncTimeout s = .next t → P t := by
  intro t h
  cases h
  repeat' first
    | with_reducible assumption | with_reducible apply C.finish | with_reducible apply C.begin
    | with_reducible apply C.syncTimeout

theorem Stable.execProgramOverrun {P : State → Prop} (C : Stable P) {s : State}  (hP : P s) :
    ∀ t, Machine.execProgramOverrun s = .next t → P t := by
  intro t h
  cases h
  repeat' first
    | with_reducible assumption | with_reducible apply pres_cond | with_reducible apply C.finish
    | with_reducible apply C.begin | with_reducible apply C.detect | intro _

theorem Stable.execInputCollapse {P : State → Prop} (C : Stable P) {s : State}  (hP : P s) :
    ∀ t, Machine.execInputCollapse s = .next t → P t := by
  intro t h
  cases h
  repeat' first
    | with_reducible assumption | with_reducible apply C.finish | with_reducible apply C.begin
    | with_reducible apply C.inputCollapse

theorem Stable.execCollapseNoKilnTimeout {P : State → Prop} (C : Stable P) {s : State}  (hP : P s) :
    ∀ t, Machine.execCollapseNoKilnTimeout s = .next t → P t := by
  intro t h
  cases h
  repeat' first
    | with_reducible assumption | with_reducible apply C.finish | with_reducible apply C.begin
    | with_reducible apply C.collapseOver

theorem Stable.execRailMarginWrite {P : State → Prop} (C : Stable P) {s : State} (who : Requester) (pct10 : Nat) (hP : P s) :
    ∀ t, Machine.execRailMarginWrite who pct10 s = .next t → P t := by
  intro t h
  cases h
  repeat' first
    | with_reducible assumption | with_reducible apply C.finish | with_reducible apply C.begin
    | with_reducible apply C.command | with_reducible apply C.marginWrite | intro _

theorem Stable.execMarginStep {P : State → Prop} (C : Stable P) {s : State}  (hP : P s) :
    ∀ t, Machine.execMarginStep s = .next t → P t := by
  intro t h
  cases h
  repeat' first
    | with_reducible assumption | with_reducible apply pres_cond | with_reducible apply C.finish
    | with_reducible apply C.begin | with_reducible apply C.marginStep | intro _

theorem Stable.execCntClearRail {P : State → Prop} (C : Stable P) {s : State} (who : Requester) (hP : P s) :
    ∀ t, Machine.execCntClearRail who s = .next t → P t := by
  intro t h
  cases h
  repeat' first
    | with_reducible assumption | with_reducible apply C.finish | with_reducible apply C.begin
    | with_reducible apply C.command | with_reducible apply C.clearRail | with_reducible apply C.clearCounts | intro _

theorem Stable.execCntClearAll {P : State → Prop} (C : Stable P) {s : State} (who : Requester) (hP : P s) :
    ∀ t, Machine.execCntClearAll who s = .next t → P t := by
  intro t h
  cases h
  repeat' first
    | with_reducible assumption | with_reducible apply pres_each | with_reducible apply C.finish
    | with_reducible apply C.begin | with_reducible apply C.command | with_reducible apply C.clearRail
    | with_reducible apply C.clearCounts | intro _

theorem Stable.execRailCounterSave {P : State → Prop} (C : Stable P) {s : State}  (hP : P s) :
    ∀ t, Machine.execRailCounterSave s = .next t → P t := by
  intro t h
  cases h
  repeat' first
    | with_reducible assumption | with_reducible apply pres_cond | with_reducible apply C.finish
    | with_reducible apply C.begin | with_reducible apply C.saveRails | intro _

theorem Stable.execSqpDataAccess {P : State → Prop} (C : Stable P) {s : State} (who : Requester) (write : Option Nat) (hP : P s) :
    ∀ t, Machine.execSqpDataAccess who write s = .next t → P t := by
  intro t h
  cases h
  repeat' first
    | with_reducible assumption | with_reducible apply C.finish | with_reducible apply C.begin
    | with_reducible apply C.sqpData

theorem Stable.execMrNPressRelease {P : State → Prop} (C : Stable P) {s : State} (ms : Nat) (hP : P s) :
    ∀ t, Machine.execMrNPressRelease ms s = .next t → P t := by
  intro t h
  cases h
  repeat' first
    | with_reducible assumption | with_reducible apply C.finish | with_reducible apply C.begin
    | with_reducible apply C.pressEnd

theorem Stable.execMrNHold4s {P : State → Prop} (C : Stable P) {s : State}  (hP : P s) :
    ∀ t, Machine.execMrNHold4s s = .next t → P t := by
  intro t h
  cases h
  repeat' first
    | with_reducible assumption | with_reducible apply C.finish | with_reducible apply C.begin
    | with_reducible apply C.press4

theorem Stable.execForceOff {P : State → Prop} (C : Stable P) {s : State}  (hP : P s) :
    ∀ t, Machine.execForceOff s = .next t → P t := by
  intro t h
  cases h
  repeat' first
    | with_reducible assumption | with_reducible apply C.finish | with_reducible apply C.begin
    | with_reducible apply C.forceOff

theorem Stable.execRestDwellMet {P : State → Prop} (C : Stable P) {s : State} (p1 p2 : Bool) (hP : P s) :
    ∀ t, Machine.execRestDwellMet p1 p2 s = .next t → P t := by
  intro t h
  cases h
  repeat' first
    | with_reducible assumption | with_reducible apply C.finish | with_reducible apply C.begin
    | with_reducible apply C.restSelect

theorem Stable.execRestExitEvent {P : State → Prop} (C : Stable P) {s : State}  (hP : P s) :
    ∀ t, Machine.execRestExitEvent s = .next t → P t := by
  intro t h
  cases h
  repeat' first
    | with_reducible assumption | with_reducible apply C.finish | with_reducible apply C.begin
    | with_reducible apply C.noQuiet | with_reducible apply C.restExit

theorem Stable.execRestExitDone {P : State → Prop} (C : Stable P) {s : State} (us : Nat) (hP : P s) :
    ∀ t, Machine.execRestExitDone us s = .next t → P t := by
  intro t h
  cases h
  repeat' first
    | with_reducible assumption | with_reducible apply C.finish | with_reducible apply C.begin
    | with_reducible apply C.restLeft

theorem Stable.execPatrolCatchup {P : State → Prop} (C : Stable P) {s : State}  (hP : P s) :
    ∀ t, Machine.execPatrolCatchup s = .next t → P t := by
  intro t h
  cases h
  repeat' first
    | with_reducible assumption | with_reducible apply C.finish | with_reducible apply C.begin
    | with_reducible apply C.patrolBehind

theorem Stable.execPerstWake {P : State → Prop} (C : Stable P) {s : State} (port : Nat) (hP : P s) :
    ∀ t, Machine.execPerstWake port s = .next t → P t := by
  intro t h
  cases h
  repeat' first
    | with_reducible assumption | with_reducible apply C.finish | with_reducible apply C.begin
    | with_reducible apply C.perstRise

theorem Stable.execTimerWake {P : State → Prop} (C : Stable P) {s : State}  (hP : P s) :
    ∀ t, Machine.execTimerWake s = .next t → P t := by
  intro t h
  cases h
  repeat' first
    | with_reducible assumption | with_reducible apply pres_cond | with_reducible apply C.finish
    | with_reducible apply C.begin | with_reducible apply C.wake | intro _

theorem Stable.execMainInLostP3 {P : State → Prop} (C : Stable P) {s : State}  (hP : P s) :
    ∀ t, Machine.execMainInLostP3 s = .next t → P t := by
  intro t h
  cases h
  repeat' first
    | with_reducible assumption | with_reducible apply pres_cond | with_reducible apply C.finish
    | with_reducible apply C.begin | with_reducible apply C.enterP4
    | with_reducible refine C.same (fun h => h) (fun h => h) (fun h => h) (fun h => h) (fun h => h) (fun h => h) (fun h => h) (fun h => h) (fun h => h) (fun h => h) (fun h => h) ?_
    | with_reducible refine C.same ?_ ?_ ?_ ?_ ?_ ?_ ?_ ?_ ?_ ?_ ?_ ?_ | exact fun h => h | intro _

theorem Stable.execStartTimeout {P : State → Prop} (C : Stable P) {s : State}  (hP : P s) :
    ∀ t, Machine.execStartTimeout s = .next t → P t := by
  intro t h
  cases h
  repeat' first
    | with_reducible assumption | with_reducible apply pres_cond | with_reducible apply C.finish
    | with_reducible apply C.begin | with_reducible apply C.failStart | intro _

theorem Stable.execStartRetry {P : State → Prop} (C : Stable P) {s : State}  (hP : P s) :
    ∀ t, Machine.execStartRetry s = .next t → P t := by
  intro t h
  cases h
  repeat' first
    | with_reducible assumption | with_reducible apply pres_cond | with_reducible apply C.finish
    | with_reducible apply C.begin | with_reducible apply C.startBegin | intro _

theorem Stable.execForceCold {P : State → Prop} (C : Stable P) {s : State} (who : Requester) (hP : P s) :
    ∀ t, Machine.execForceCold who s = .next t → P t := by
  intro t h
  cases h
  repeat' first
    | with_reducible assumption | with_reducible apply C.finish | with_reducible apply C.begin
    | with_reducible apply C.under | with_reducible apply C.wr | intro _

theorem Stable.execClearFails {P : State → Prop} (C : Stable P) {s : State} (who : Requester) (hP : P s) :
    ∀ t, Machine.execClearFails who s = .next t → P t := by
  intro t h
  cases h
  repeat' first
    | with_reducible assumption | with_reducible apply C.finish | with_reducible apply C.begin
    | with_reducible apply C.sntMaint | with_reducible apply C.clearFails | intro _

theorem Stable.execClearRecovery {P : State → Prop} (C : Stable P) {s : State} (who : Requester) (hP : P s) :
    ∀ t, Machine.execClearRecovery who s = .next t → P t := by
  intro t h
  cases h
  repeat' first
    | with_reducible assumption | with_reducible apply C.finish | with_reducible apply C.begin
    | with_reducible apply C.sntMaint | with_reducible apply C.leaveRecovery | intro _

theorem Stable.execIslandSupplyChange {P : State → Prop} (C : Stable P) {s : State} (source : Nat) (present : Bool) (hP : P s) :
    ∀ t, Machine.execIslandSupplyChange source present s = .next t → P t := by
  intro t h
  cases h
  repeat' first
    | with_reducible assumption | with_reducible apply C.finish | with_reducible apply C.begin
    | with_reducible apply C.supplyChange

theorem Stable.execIslandPowerOn {P : State → Prop} (C : Stable P) {s : State}  (hP : P s) :
    ∀ t, Machine.execIslandPowerOn s = .next t → P t := by
  intro t h
  cases h
  repeat' first
    | with_reducible assumption | with_reducible apply C.finish | with_reducible apply C.begin
    | with_reducible apply C.islandOn

theorem Stable.execQuietExpired {P : State → Prop} (C : Stable P) {s : State}  (hP : P s) :
    ∀ t, Machine.execQuietExpired s = .next t → P t := by
  intro t h
  cases h
  repeat' first
    | with_reducible assumption | with_reducible apply C.finish | with_reducible apply C.begin
    | with_reducible apply C.quietOver

theorem Stable.execEventSourceRelease {P : State → Prop} (C : Stable P) {s : State} (src : Nat) (hP : P s) :
    ∀ t, Machine.execEventSourceRelease src s = .next t → P t := by
  intro t h
  cases h
  repeat' first
    | with_reducible assumption | with_reducible apply C.finish | with_reducible apply C.begin
    | with_reducible apply C.eventRelease

theorem Stable.execErrnReadback {P : State → Prop} (C : Stable P) {s : State} (low : Bool) (hP : P s) :
    ∀ t, Machine.execErrnReadback low s = .next t → P t := by
  intro t h
  cases h
  repeat' first
    | with_reducible assumption | with_reducible apply pres_cond | with_reducible apply C.finish
    | with_reducible apply C.begin | with_reducible apply C.errnRead | intro _

theorem Stable.execErrnTest {P : State → Prop} (C : Stable P) {s : State} (who : Requester) (hP : P s) :
    ∀ t, Machine.execErrnTest who s = .next t → P t := by
  intro t h
  cases h
  repeat' first
    | with_reducible assumption | with_reducible apply pres_ite | with_reducible apply C.finish
    | with_reducible apply C.begin | with_reducible apply C.reject | with_reducible apply C.command
    | with_reducible apply C.wr
    | with_reducible refine C.same (fun h => h) (fun h => h) (fun h => h) (fun h => h) (fun h => h) (fun h => h) (fun h => h) (fun h => h) (fun h => h) (fun h => h) (fun h => h) ?_
    | with_reducible refine C.same ?_ ?_ ?_ ?_ ?_ ?_ ?_ ?_ ?_ ?_ ?_ ?_ | exact fun h => h | intro _

theorem Stable.execHistRearm {P : State → Prop} (C : Stable P) {s : State} (who : Requester) (hP : P s) :
    ∀ t, Machine.execHistRearm who s = .next t → P t := by
  intro t h
  cases h
  repeat' first
    | with_reducible assumption | with_reducible apply C.finish | with_reducible apply C.begin
    | with_reducible apply C.command | with_reducible apply C.rearm | intro _

theorem Stable.execInjectionTimeout {P : State → Prop} (C : Stable P) {s : State} (src inst : Nat) (hP : P s) :
    ∀ t, Machine.execInjectionTimeout src inst s = .next t → P t := by
  intro t h
  cases h
  repeat' first
    | with_reducible assumption | with_reducible apply C.finish | with_reducible apply C.begin
    | with_reducible apply C.injectLate

theorem Stable.execComparatorTest {P : State → Prop} (C : Stable P) {s : State} (ok okOther : Bool) (hP : P s) :
    ∀ t, Machine.execComparatorTest ok okOther s = .next t → P t := by
  intro t h
  cases h
  repeat' first
    | with_reducible assumption | with_reducible apply pres_cond | with_reducible apply C.finish
    | with_reducible apply C.begin | with_reducible apply C.compareTest | intro _

theorem Stable.execCalRun {P : State → Prop} (C : Stable P) {s : State} (who : Option Requester) (hP : P s) :
    ∀ t, Machine.execCalRun who s = .next t → P t := by
  intro t h
  cases h
  repeat' first
    | with_reducible assumption | with_reducible apply C.finish | with_reducible apply C.begin
    | with_reducible apply C.calRun

theorem Stable.execCalTempCheck {P : State → Prop} (C : Stable P) {s : State}  (hP : P s) :
    ∀ t, Machine.execCalTempCheck s = .next t → P t := by
  intro t h
  cases h
  repeat' first
    | with_reducible assumption | with_reducible apply pres_cond | with_reducible apply C.finish
    | with_reducible apply C.begin | with_reducible apply C.calTemp | intro _

theorem Stable.execModuleCal {P : State → Prop} (C : Stable P) {s : State} (who : Requester) (uv : Nat) (hP : P s) :
    ∀ t, Machine.execModuleCal who uv s = .next t → P t := by
  intro t h
  cases h
  repeat' first
    | with_reducible assumption | with_reducible apply C.finish | with_reducible apply C.begin
    | with_reducible apply C.command | with_reducible apply C.moduleCal | intro _

theorem Stable.execVrefCheck {P : State → Prop} (C : Stable P) {s : State} (uv : Nat) (hP : P s) :
    ∀ t, Machine.execVrefCheck uv s = .next t → P t := by
  intro t h
  cases h
  repeat' first
    | with_reducible assumption | with_reducible apply C.finish | with_reducible apply C.begin
    | with_reducible apply C.vrefCheck

theorem Stable.execAdcCalDone {P : State → Prop} (C : Stable P) {s : State} (gain ofs : Int) (trips : List (Nat × Nat × Int)) (again : List (Nat × Nat)) (hP : P s) :
    ∀ t, Machine.execAdcCalDone gain ofs trips again s = .next t → P t := by
  intro t h
  cases h
  repeat' first
    | with_reducible assumption | with_reducible apply C.finish | with_reducible apply C.begin
    | with_reducible apply C.adcDone | with_reducible apply C.vrefResume

theorem Stable.execClockFault {P : State → Prop} (C : Stable P) {s : State} (domain : Nat) (hP : P s) :
    ∀ t, Machine.execClockFault domain s = .next t → P t := by
  intro t h
  cases h
  repeat' first
    | with_reducible assumption | with_reducible apply C.finish | with_reducible apply C.begin
    | with_reducible apply C.clockBad

theorem Stable.execClockBackInTolerance {P : State → Prop} (C : Stable P) {s : State} (domain : Nat) (hP : P s) :
    ∀ t, Machine.execClockBackInTolerance domain s = .next t → P t := by
  intro t h
  cases h
  repeat' first
    | with_reducible assumption | with_reducible apply C.finish | with_reducible apply C.begin
    | with_reducible apply C.clockGood

theorem Stable.execXtal25Lost {P : State → Prop} (C : Stable P) {s : State}  (hP : P s) :
    ∀ t, Machine.execXtal25Lost s = .next t → P t := by
  intro t h
  cases h
  repeat' first
    | with_reducible assumption | with_reducible apply pres_cond | with_reducible apply C.finish
    | with_reducible apply C.begin | with_reducible apply C.wr | intro _

theorem Stable.execPatrolStep {P : State → Prop} (C : Stable P) {s : State} (chan : Nat) (found : List (Nat × Ecc)) (hP : P s) :
    ∀ t, Machine.execPatrolStep chan found s = .next t → P t := by
  intro t h
  cases h
  repeat' first
    | with_reducible assumption | with_reducible apply C.finish | with_reducible apply C.begin
    | with_reducible apply C.patrol

theorem Stable.execReadLoLatch {P : State → Prop} (C : Stable P) {s : State} (who : Requester) (a : RegAddr) (size : Nat) (hP : P s) :
    ∀ t, Machine.execReadLoLatch who a size s = .next t → P t := by
  intro t h
  cases h
  repeat' first
    | with_reducible assumption | with_reducible apply C.finish | with_reducible apply C.begin
    | with_reducible apply C.readReg

theorem Stable.execCommit {P : State → Prop} (C : Stable P) {s : State} (who : Requester) (page : Nat) (hP : P s) :
    ∀ t, Machine.execCommit who page s = .next t → P t := by
  intro t h
  cases h
  repeat' first
    | with_reducible assumption | with_reducible apply C.finish | with_reducible apply C.begin
    | with_reducible apply C.command | with_reducible apply C.commitWrite | intro _

theorem Stable.execLinkTrained {P : State → Prop} (C : Stable P) {s : State} (port width rate : Nat) (flit256 cxl : Bool) (corr replay : Nat) (bad : Bool) (hP : P s) :
    ∀ t, Machine.execLinkTrained port width rate flit256 cxl corr replay bad s = .next t → P t := by
  intro t h
  cases h
  repeat' first
    | with_reducible assumption | with_reducible apply C.finish | with_reducible apply C.begin
    | with_reducible apply C.replay | with_reducible apply C.linkTrained

theorem Stable.execSoftReset {P : State → Prop} (C : Stable P) {s : State} (who : Requester) (page : Nat) (hP : P s) :
    ∀ t, Machine.execSoftReset who page s = .next t → P t := by
  intro t h
  cases h
  repeat' first
    | with_reducible assumption | with_reducible apply C.finish | with_reducible apply C.begin
    | with_reducible apply C.command | with_reducible apply C.softReset | intro _

theorem Stable.execSafePointCommitApply {P : State → Prop} (C : Stable P) {s : State} (page : Nat) (hP : P s) :
    ∀ t, Machine.execSafePointCommitApply page s = .next t → P t := by
  intro t h
  cases h
  repeat' first
    | with_reducible assumption | with_reducible apply C.finish | with_reducible apply C.begin
    | with_reducible apply C.safePointReached | intro _

theorem Stable.execEnableClear {P : State → Prop} (C : Stable P) {s : State} (who : Requester) (page : Nat) (hP : P s) :
    ∀ t, Machine.execEnableClear who page s = .next t → P t := by
  intro t h
  cases h
  repeat' first
    | with_reducible assumption | with_reducible apply C.finish | with_reducible apply C.begin
    | with_reducible apply C.command | with_reducible apply C.enableClear | intro _

theorem Stable.execBlockHalt {P : State → Prop} (C : Stable P) {s : State} (page : Nat) (hP : P s) :
    ∀ t, Machine.execBlockHalt page s = .next t → P t := by
  intro t h
  cases h
  repeat' first
    | with_reducible assumption | with_reducible apply C.finish | with_reducible apply C.begin
    | with_reducible apply C.blockHalt

theorem Stable.execEnableSet {P : State → Prop} (C : Stable P) {s : State} (who : Requester) (page : Nat) (hP : P s) :
    ∀ t, Machine.execEnableSet who page s = .next t → P t := by
  intro t h
  cases h
  repeat' first
    | with_reducible assumption | with_reducible apply C.finish | with_reducible apply C.begin
    | with_reducible apply C.command | with_reducible apply C.enableSet | intro _

theorem Stable.execRegisterWrite {P : State → Prop} (C : Stable P) {s : State} (who : Requester) (a : RegAddr) (size value : Nat) (hP : P s) :
    ∀ t, Machine.execRegisterWrite who a size value s = .next t → P t := by
  intro t h
  cases h
  repeat' first
    | with_reducible assumption | with_reducible apply C.finish | with_reducible apply C.begin
    | with_reducible apply C.regWrite

theorem Stable.execFltStatClear {P : State → Prop} (C : Stable P) {s : State} (who : Requester) (page mask : Nat) (hP : P s) :
    ∀ t, Machine.execFltStatClear who page mask s = .next t → P t := by
  intro t h
  cases h
  repeat' first
    | with_reducible assumption | with_reducible apply C.finish | with_reducible apply C.begin
    | with_reducible apply C.under | with_reducible apply C.fltClear | intro _

theorem Stable.execFaultInject {P : State → Prop} (C : Stable P) {s : State} (who : Requester) (page bit : Nat) (seen : Bool) (hP : P s) :
    ∀ t, Machine.execFaultInject who page bit seen s = .next t → P t := by
  intro t h
  cases h
  repeat' first
    | with_reducible assumption | with_reducible apply C.finish | with_reducible apply C.begin
    | with_reducible apply C.under | with_reducible apply C.inject | intro _

theorem Stable.execPageLock {P : State → Prop} (C : Stable P) {s : State} (who : Requester) (page : Nat) (hP : P s) :
    ∀ t, Machine.execPageLock who page s = .next t → P t := by
  intro t h
  cases h
  repeat' first
    | with_reducible assumption | with_reducible apply C.finish | with_reducible apply C.begin
    | with_reducible apply C.under | with_reducible apply C.wr | intro _

theorem Stable.execMaintUnlock {P : State → Prop} (C : Stable P) {s : State} (who : Requester) (strap : Bool) (value : Nat) (hP : P s) :
    ∀ t, Machine.execMaintUnlock who strap value s = .next t → P t := by
  intro t h
  cases h
  repeat' first
    | with_reducible assumption | with_reducible apply C.finish | with_reducible apply C.begin
    | with_reducible apply C.unlockWrite

theorem Stable.execMaintIdleTimeout {P : State → Prop} (C : Stable P) {s : State}  (hP : P s) :
    ∀ t, Machine.execMaintIdleTimeout s = .next t → P t := by
  intro t h
  cases h
  repeat' first
    | with_reducible assumption | with_reducible apply C.finish | with_reducible apply C.begin
    | with_reducible apply C.maintClose

theorem Stable.execMaintStrapLow {P : State → Prop} (C : Stable P) {s : State}  (hP : P s) :
    ∀ t, Machine.execMaintStrapLow s = .next t → P t := by
  intro t h
  cases h
  repeat' first
    | with_reducible assumption | with_reducible apply C.finish | with_reducible apply C.begin
    | with_reducible apply C.maintClose
    | with_reducible refine C.same (fun h => h) (fun h => h) (fun h => h) (fun h => h) (fun h => h) (fun h => h) (fun h => h) (fun h => h) (fun h => h) (fun h => h) (fun h => h) ?_
    | with_reducible refine C.same ?_ ?_ ?_ ?_ ?_ ?_ ?_ ?_ ?_ ?_ ?_ ?_ | exact fun h => h

theorem Stable.execTlogRateSummary {P : State → Prop} (C : Stable P) {s : State}  (hP : P s) :
    ∀ t, Machine.execTlogRateSummary s = .next t → P t := by
  intro t h
  cases h
  repeat' first
    | with_reducible assumption | with_reducible apply C.finish | with_reducible apply C.begin
    | with_reducible apply C.rateSummary

theorem Stable.execTlgClear {P : State → Prop} (C : Stable P) {s : State} (who : Requester) (hP : P s) :
    ∀ t, Machine.execTlgClear who s = .next t → P t := by
  intro t h
  cases h
  repeat' first
    | with_reducible assumption | with_reducible apply C.finish | with_reducible apply C.begin
    | with_reducible apply C.command | with_reducible apply C.tlgClear | intro _

theorem Stable.execRecClear {P : State → Prop} (C : Stable P) {s : State} (who : Requester) (hP : P s) :
    ∀ t, Machine.execRecClear who s = .next t → P t := by
  intro t h
  cases h
  repeat' first
    | with_reducible assumption | with_reducible apply C.finish | with_reducible apply C.begin
    | with_reducible apply C.recClear | with_reducible apply C.command | with_reducible apply C.recClearWrite | intro _

theorem Stable.execRecFlush {P : State → Prop} (C : Stable P) {s : State} (who : Option Requester) (hP : P s) :
    ∀ t, Machine.execRecFlush who s = .next t → P t := by
  intro t h
  cases h
  repeat' first
    | with_reducible assumption | with_reducible apply C.finish | with_reducible apply C.begin
    | with_reducible apply C.recFlushBy

theorem Stable.execRecFlushDone {P : State → Prop} (C : Stable P) {s : State} (ok : Bool) (hP : P s) :
    ∀ t, Machine.execRecFlushDone ok s = .next t → P t := by
  intro t h
  cases h
  repeat' first
    | with_reducible assumption | with_reducible apply C.finish | with_reducible apply C.begin
    | with_reducible apply C.flushEnd

theorem Stable.execHeld {P : State → Prop} (C : Stable P) {s : State} (c : Instr) (hP : P s) :
    ∀ t, Machine.execHeld c s = .next t → P t := by
  unfold Machine.execHeld
  split
  · exact C.execIdentify _ hP
  · exact C.execGetHealthInfo _ hP
  · exact C.execGetEventRecords _ _ hP
  · exact C.execClearEventRecords _ _ _ _ hP
  · exact C.execGetSupportedLogs _ hP
  · exact C.execGetLog _ hP
  · exact C.execGetFwInfo _ hP
  · exact C.execGetTimestamp _ hP
  · exact C.execSetTimestamp _ _ hP
  · exact C.execGetAlertConfiguration _ hP
  · exact C.execSetAlertConfiguration _ _ hP
  · exact C.execSetShutdownState _ _ hP
  · exact C.execGetPoisonList _ _ _ hP
  · exact C.execInjectPoison _ _ _ hP
  · exact C.execClearPoison _ _ _ _ hP
  · exact C.execScanMedia _ _ _ _ hP
  · exact C.execSanitize _ hP
  · exact C.execSecureErase _ hP
  · exact C.execGetCorirvoInfo _ hP
  · exact C.execGetPersistenceReport _ hP
  · exact C.execSetPartition _ _ _ _ _ hP
  · exact C.execPlannedKiln _ _ _ hP
  · exact C.execCaskUnlock _ _ hP
  · exact C.execSetCaskHostKey _ _ _ _ hP
  · exact C.execReadTroubleLog _ _ _ _ hP
  · exact C.execReadEventRecorder _ _ hP
  · exact C.execRackExport _ _ _ _ _ _ hP
  · exact C.execBrewTransfer _ _ _ _ _ hP
  · exact C.execUpdateStatus _ hP
  · exact C.execUpdateStart _ _ hP
  · exact C.execUpdateActivate _ hP
  · exact C.execUpdateActivateAtReset _ hP
  · exact C.execUpdateAbort _ hP
  · exact C.execTransferFwInitiate _ hP
  · exact C.execTransferFwContinue _ _ _ _ _ hP
  · exact C.execTransferFwEnd _ hP
  · exact C.execTransferFwAbort _ hP
  · exact C.execTransferFwFull _ _ _ _ hP
  · exact C.execActivateFwOnline _ hP
  · exact C.execActivateFwReset _ hP
  · exact C.execCommit _ _ hP
  · exact C.execEnableClear _ _ hP
  · exact C.execEnableSet _ _ hP
  · exact C.execSoftReset _ _ hP
  · exact C.execTlgClear _ hP
  · exact C.execRecClear _ hP
  · exact C.execTestDischarge _ _ hP
  · exact C.execRelearn _ hP
  · exact C.execCntClearRail _ hP
  · exact C.execCntClearAll _ hP
  · exact C.execRailMarginWrite _ _ hP
  · exact C.execModuleCal _ _ hP
  · exact C.execHistRearm _ hP
  · exact C.execErrnTest _ hP
  · exact C.execKilnArmWrite _ _ hP
  · exact C.execCalRun _ hP
  · exact C.execAuthRun _ _ _ hP
  · exact C.execRecFlush _ hP
  · intro t h
    cases h
    exact hP

theorem Stable.takeOne {P : State → Prop} (C : Stable P) {s : State} (c : Instr) (hP : P s) : P (s.takeOne c) := by
  unfold State.takeOne
  have h1 : P (match mailPort c with
      | none => s
      | some p => s.setHost p { s.host p with waiting := none }) := by
    split
    · exact hP
    · exact C.setHost (fun h => h) hP
  extract_lets u
  split
  · rename_i t ht
    exact C.same (fun h => h) (fun h => h) (fun h => h) (fun h => h) (fun h => h) (fun h => h) (fun h => h) (fun h => h) (fun h => h) (fun h => h) (fun h => h) (C.execHeld c h1 t ht)
  · exact h1
  · exact h1

theorem Stable.takeUp {P : State → Prop} (C : Stable P) {s : State} (hP : P s) : P s.takeUp := by
  unfold State.takeUp
  refine pres_foldl ?_ (fun t c ht => C.takeOne c ht)
  exact C.same (fun h => h) (fun h => h) (fun h => h) (fun h => h) (fun h => h) (fun h => h) (fun h => h) (fun h => h) (fun h => h) (fun h => h) (fun h => h) hP

theorem Stable.execReactionDone {P : State → Prop} (C : Stable P) {s : State}  (hP : P s) :
    ∀ t, Machine.execReactionDone s = .next t → P t := by
  intro t h
  cases h
  repeat' first
    | with_reducible assumption | with_reducible apply C.takeUp | with_reducible apply C.finish
    | with_reducible apply C.begin | with_reducible apply C.reactionDone

theorem Stable.execWatchdogExpiry {P : State → Prop} (C : Stable P) {s : State} (proc : Nat) (hP : P s) :
    ∀ t, Machine.execWatchdogExpiry proc s = .next t → P t := by
  intro t h
  cases h
  repeat' first
    | with_reducible assumption | with_reducible apply C.takeUp | with_reducible apply C.finish
    | with_reducible apply C.begin | with_reducible apply C.watchdog

theorem Stable.execLockstepMismatch {P : State → Prop} (C : Stable P) {s : State}  (hP : P s) :
    ∀ t, Machine.execLockstepMismatch s = .next t → P t := by
  intro t h
  cases h
  repeat' first
    | with_reducible assumption | with_reducible apply C.takeUp | with_reducible apply C.finish
    | with_reducible apply C.begin | with_reducible apply C.lockstep

theorem Stable.execHandoverRunning {P : State → Prop} (C : Stable P) {s : State} (ms : Nat) (blocks : List Nat) (hP : P s) :
    ∀ t, Machine.execHandoverRunning ms blocks s = .next t → P t := by
  intro t h
  cases h
  repeat' first
    | with_reducible assumption | with_reducible apply C.takeUp | with_reducible apply C.finish
    | with_reducible apply C.begin | with_reducible apply C.handoverDone

theorem Stable.execHandoverFail {P : State → Prop} (C : Stable P) {s : State}  (hP : P s) :
    ∀ t, Machine.execHandoverFail s = .next t → P t := by
  intro t h
  cases h
  repeat' first
    | with_reducible assumption | with_reducible apply pres_cond | with_reducible apply C.takeUp
    | with_reducible apply C.finish | with_reducible apply C.begin | with_reducible apply C.handoverBack | intro _

/-- What every command keeps. -/
theorem exec_stable {P : State → Prop} (C : Stable P) {s t : State} {i : Instr} (hP : P s) (h : exec i s = .next t) : P t := by
  cases i with
  | acceptedCrossing _ _ => exact C.execAcceptedCrossing _ _ hP t h
  | rejectedCrossing => exact C.execRejectedCrossing hP t h
  | placedFallingCrossing => exact C.execPlacedFallingCrossing hP t h
  | lockLost => exact C.execLockLost hP t h
  | puAdvance => exact C.execPuAdvance hP t h
  | pseudoHalfCycleEnd => exact C.execPseudoHalfCycleEnd hP t h
  | missingHalfCycle _ => exact C.execMissingHalfCycle _ hP t h
  | scheduledEventFire _ => exact C.execScheduledEventFire _ hP t h
  | acOkLowTimeout => exact C.execAcOkLowTimeout hP t h
  | acOkHighTimeout => exact C.execAcOkHighTimeout hP t h
  | conversionFrame _ => exact C.execConversionFrame _ hP t h
  | chargeDeadlineFire _ => exact C.execChargeDeadlineFire _ hP t h
  | chargeDeadlineArm _ _ => exact C.execChargeDeadlineArm _ _ hP t h
  | gaugePathImplausible _ => exact C.execGaugePathImplausible _ hP t h
  | gaugePathPlausible _ => exact C.execGaugePathPlausible _ hP t h
  | opsecTick => exact C.execOpsecTick hP t h
  | readLoLatch _ _ _ => exact C.execReadLoLatch _ _ _ hP t h
  | registerWrite _ _ _ _ => exact C.execRegisterWrite _ _ _ _ hP t h
  | commit _ _ => exact C.execCommit _ _ hP t h
  | safePointCommitApply _ => exact C.execSafePointCommitApply _ hP t h
  | softReset _ _ => exact C.execSoftReset _ _ hP t h
  | enableClear _ _ => exact C.execEnableClear _ _ hP t h
  | blockHalt _ => exact C.execBlockHalt _ hP t h
  | enableSet _ _ => exact C.execEnableSet _ _ hP t h
  | fltStatClear _ _ _ => exact C.execFltStatClear _ _ _ hP t h
  | faultInject _ _ _ _ => exact C.execFaultInject _ _ _ _ hP t h
  | pageLock _ _ => exact C.execPageLock _ _ hP t h
  | maintUnlock _ _ _ => exact C.execMaintUnlock _ _ _ hP t h
  | maintIdleTimeout => exact C.execMaintIdleTimeout hP t h
  | maintStrapLow => exact C.execMaintStrapLow hP t h
  | hostWrite _ _ _ _ _ _ _ _ => exact C.execHostWrite _ _ _ _ _ _ _ _ hP t h
  | hostRead _ _ _ _ _ => exact C.execHostRead _ _ _ _ _ hP t h
  | linkTrained _ _ _ _ _ _ _ _ => exact C.execLinkTrained _ _ _ _ _ _ _ _ hP t h
  | portReset _ _ => exact C.execPortReset _ _ hP t h
  | linkDown _ => exact C.execLinkDown _ hP t h
  | decoderCommit _ _ _ _ _ _ => exact C.execDecoderCommit _ _ _ _ _ _ hP t h
  | gpfPhase1 _ => exact C.execGpfPhase1 _ hP t h
  | gpfPhase2Request _ => exact C.execGpfPhase2Request _ hP t h
  | gpfPhase2Done _ => exact C.execGpfPhase2Done _ hP t h
  | gpfWindowExpired _ => exact C.execGpfWindowExpired _ hP t h
  | mailboxTimeout _ => exact C.execMailboxTimeout _ hP t h
  | identify _ => exact C.execIdentify _ hP t h
  | getHealthInfo _ => exact C.execGetHealthInfo _ hP t h
  | getEventRecords _ _ => exact C.execGetEventRecords _ _ hP t h
  | clearEventRecords _ _ _ _ => exact C.execClearEventRecords _ _ _ _ hP t h
  | getSupportedLogs _ => exact C.execGetSupportedLogs _ hP t h
  | getLog _ => exact C.execGetLog _ hP t h
  | getFwInfo _ => exact C.execGetFwInfo _ hP t h
  | getTimestamp _ => exact C.execGetTimestamp _ hP t h
  | setTimestamp _ _ => exact C.execSetTimestamp _ _ hP t h
  | getAlertConfiguration _ => exact C.execGetAlertConfiguration _ hP t h
  | setAlertConfiguration _ _ => exact C.execSetAlertConfiguration _ _ hP t h
  | setShutdownState _ _ => exact C.execSetShutdownState _ _ hP t h
  | scanMedia _ _ _ _ => exact C.execScanMedia _ _ _ _ hP t h
  | getPoisonList _ _ _ => exact C.execGetPoisonList _ _ _ hP t h
  | injectPoison _ _ _ => exact C.execInjectPoison _ _ _ hP t h
  | clearPoison _ _ _ _ => exact C.execClearPoison _ _ _ _ hP t h
  | sanitize _ => exact C.execSanitize _ hP t h
  | secureErase _ => exact C.execSecureErase _ hP t h
  | sanitizeComplete _ => exact C.execSanitizeComplete _ hP t h
  | getCorirvoInfo _ => exact C.execGetCorirvoInfo _ hP t h
  | getPersistenceReport _ => exact C.execGetPersistenceReport _ hP t h
  | setPartition _ _ _ _ _ => exact C.execSetPartition _ _ _ _ _ hP t h
  | plannedKiln _ _ _ => exact C.execPlannedKiln _ _ _ hP t h
  | caskUnlock _ _ => exact C.execCaskUnlock _ _ hP t h
  | setCaskHostKey _ _ _ _ => exact C.execSetCaskHostKey _ _ _ _ hP t h
  | readTroubleLog _ _ _ _ => exact C.execReadTroubleLog _ _ _ _ hP t h
  | readEventRecorder _ _ => exact C.execReadEventRecorder _ _ hP t h
  | rackExport _ _ _ _ _ _ => exact C.execRackExport _ _ _ _ _ _ hP t h
  | brewTransfer _ _ _ _ _ => exact C.execBrewTransfer _ _ _ _ _ hP t h
  | updateStatus _ => exact C.execUpdateStatus _ hP t h
  | updateStart _ _ => exact C.execUpdateStart _ _ hP t h
  | updateActivate _ => exact C.execUpdateActivate _ hP t h
  | updateActivateAtReset _ => exact C.execUpdateActivateAtReset _ hP t h
  | updateAbort _ => exact C.execUpdateAbort _ hP t h
  | transferFwInitiate _ => exact C.execTransferFwInitiate _ hP t h
  | transferFwContinue _ _ _ _ _ => exact C.execTransferFwContinue _ _ _ _ _ hP t h
  | transferFwEnd _ => exact C.execTransferFwEnd _ hP t h
  | transferFwAbort _ => exact C.execTransferFwAbort _ hP t h
  | transferFwFull _ _ _ _ => exact C.execTransferFwFull _ _ _ _ hP t h
  | activateFwOnline _ => exact C.execActivateFwOnline _ hP t h
  | activateFwReset _ => exact C.execActivateFwReset _ hP t h
  | patrolStep _ _ => exact C.execPatrolStep _ _ hP t h
  | patrolOverdue _ => exact C.execPatrolOverdue _ hP t h
  | retireCopyDone _ _ => exact C.execRetireCopyDone _ _ hP t h
  | sparingCopyStep _ => exact C.execSparingCopyStep _ hP t h
  | rankShedTimeout _ _ => exact C.execRankShedTimeout _ _ hP t h
  | dirtyScrubStart => exact C.execDirtyScrubStart hP t h
  | dirtyScrubEnd _ _ => exact C.execDirtyScrubEnd _ _ hP t h
  | heatEpochEnd _ => exact C.execHeatEpochEnd _ hP t h
  | budgetCompute => exact C.execBudgetCompute hP t h
  | safeBoundCheck => exact C.execSafeBoundCheck hP t h
  | hostEnergyWrite _ _ => exact C.execHostEnergyWrite _ _ hP t h
  | hostEnergyExpired => exact C.execHostEnergyExpired hP t h
  | witherTick _ _ => exact C.execWitherTick _ _ hP t h
  | copyReadDone _ _ _ _ => exact C.execCopyReadDone _ _ _ _ hP t h
  | mapCommit _ => exact C.execMapCommit _ hP t h
  | stripeCloseTimeout _ => exact C.execStripeCloseTimeout _ hP t h
  | wearAllowanceRecompute => exact C.execWearAllowanceRecompute hP t h
  | enduranceRecompute => exact C.execEnduranceRecompute hP t h
  | codewordReadDone _ _ _ _ => exact C.execCodewordReadDone _ _ _ _ hP t h
  | nandProgramFail _ _ _ _ _ => exact C.execNandProgramFail _ _ _ _ _ hP t h
  | nandEraseDone _ _ => exact C.execNandEraseDone _ _ hP t h
  | dieTimeout _ _ => exact C.execDieTimeout _ _ hP t h
  | channelDead _ => exact C.execChannelDead _ hP t h
  | mapFlushDone _ _ => exact C.execMapFlushDone _ _ hP t h
  | mapScrub _ => exact C.execMapScrub _ hP t h
  | garbageCollectMove _ _ _ => exact C.execGarbageCollectMove _ _ _ hP t h
  | wearLevelCheck _ => exact C.execWearLevelCheck _ hP t h
  | foldMoveCommit _ _ _ => exact C.execFoldMoveCommit _ _ _ hP t h
  | flashPatrolStep _ _ => exact C.execFlashPatrolStep _ _ hP t h
  | flashPatrolOverdue => exact C.execFlashPatrolOverdue hP t h
  | mainInFail => exact C.execMainInFail hP t h
  | mainInWarn => exact C.execMainInWarn hP t h
  | primedClear => exact C.execPrimedClear hP t h
  | ewEscalation => exact C.execEwEscalation hP t h
  | packPathTimeout => exact C.execPackPathTimeout hP t h
  | kilnSnapshotDone => exact C.execKilnSnapshotDone hP t h
  | kilnShedDone => exact C.execKilnShedDone hP t h
  | kilnStripeProgrammed _ _ _ _ => exact C.execKilnStripeProgrammed _ _ _ _ hP t h
  | drainComplete _ => exact C.execDrainComplete _ hP t h
  | sealComplete _ _ _ _ _ => exact C.execSealComplete _ _ _ _ _ hP t h
  | kilnPowerDownDone => exact C.execKilnPowerDownDone hP t h
  | kilnCancel => exact C.execKilnCancel hP t h
  | phaseTimeOverrun => exact C.execPhaseTimeOverrun hP t h
  | holdupCollapse _ => exact C.execHoldupCollapse _ hP t h
  | kilnSelftest _ _ _ => exact C.execKilnSelftest _ _ _ hP t h
  | kilnArmWrite _ _ => exact C.execKilnArmWrite _ _ hP t h
  | mainInStable => exact C.execMainInStable hP t h
  | bootStepDone _ _ _ _ _ => exact C.execBootStepDone _ _ _ _ _ hP t h
  | bulkDelayElapsed => exact C.execBulkDelayElapsed hP t h
  | demandFillDone _ _ _ _ _ => exact C.execDemandFillDone _ _ _ _ _ hP t h
  | fillCeiling _ _ => exact C.execFillCeiling _ _ hP t h
  | bulkFillDone _ _ _ => exact C.execBulkFillDone _ _ _ hP t h
  | sqDoorbell _ _ _ => exact C.execSqDoorbell _ _ _ hP t h
  | cqDoorbell _ _ _ => exact C.execCqDoorbell _ _ _ hP t h
  | queueEnable _ _ => exact C.execQueueEnable _ _ hP t h
  | queueDisable _ _ => exact C.execQueueDisable _ _ hP t h
  | descriptorFetch _ => exact C.execDescriptorFetch _ hP t h
  | dmaFailure _ _ => exact C.execDmaFailure _ _ hP t h
  | nop _ _ => exact C.execNop _ _ hP t h
  | fenceDurable _ _ _ => exact C.execFenceDurable _ _ _ hP t h
  | rack _ _ => exact C.execRack _ _ hP t h
  | rackFence _ _ => exact C.execRackFence _ _ hP t h
  | copy _ _ _ _ _ => exact C.execCopy _ _ _ _ _ hP t h
  | zero _ _ _ _ => exact C.execZero _ _ _ _ hP t h
  | pin _ _ => exact C.execPin _ _ hP t h
  | heatHint _ _ _ => exact C.execHeatHint _ _ _ hP t h
  | discard _ _ _ => exact C.execDiscard _ _ _ hP t h
  | volatileSet _ _ => exact C.execVolatileSet _ _ hP t h
  | query _ _ _ => exact C.execQuery _ _ _ hP t h
  | commandComplete _ _ _ => exact C.execCommandComplete _ _ _ hP t h
  | coalesceTimeout _ _ => exact C.execCoalesceTimeout _ _ hP t h
  | cqFullTimeout _ => exact C.execCqFullTimeout _ hP t h
  | chainTimeout _ => exact C.execChainTimeout _ hP t h
  | intRecordDiscard _ _ => exact C.execIntRecordDiscard _ _ hP t h
  | helloTx _ => exact C.execHelloTx _ hP t h
  | helloRx _ _ => exact C.execHelloRx _ _ hP t h
  | hellosMissed _ => exact C.execHellosMissed _ hP t h
  | trainingDone _ _ => exact C.execTrainingDone _ _ hP t h
  | trainingTimeout _ => exact C.execTrainingTimeout _ hP t h
  | laneFail _ _ _ => exact C.execLaneFail _ _ _ hP t h
  | linkFrameRx _ _ _ _ _ => exact C.execLinkFrameRx _ _ _ _ _ hP t h
  | replayRetrainTimeout _ => exact C.execReplayRetrainTimeout _ hP t h
  | packetRx _ _ _ => exact C.execPacketRx _ _ _ hP t h
  | lsaPeriodic => exact C.execLsaPeriodic hP t h
  | lsaAgeOut _ => exact C.execLsaAgeOut _ hP t h
  | claimWindowEnd => exact C.execClaimWindowEnd hP t h
  | routeInstall _ => exact C.execRouteInstall _ hP t h
  | convergenceTimeout => exact C.execConvergenceTimeout hP t h
  | alarmSummaryTx _ => exact C.execAlarmSummaryTx _ hP t h
  | phantomOvercurrent _ => exact C.execPhantomOvercurrent _ hP t h
  | rackSendStart _ _ _ => exact C.execRackSendStart _ _ _ hP t h
  | ackTimeout _ _ => exact C.execAckTimeout _ _ hP t h
  | rackOpenRetry _ => exact C.execRackOpenRetry _ hP t h
  | guestRegionCommit _ _ => exact C.execGuestRegionCommit _ _ hP t h
  | guestRelease _ => exact C.execGuestRelease _ hP t h
  | packInserted _ => exact C.execPackInserted _ hP t h
  | packIdentified _ _ _ _ _ => exact C.execPackIdentified _ _ _ _ _ hP t h
  | packRemoved _ => exact C.execPackRemoved _ hP t h
  | authResponse _ _ => exact C.execAuthResponse _ _ hP t h
  | authRun _ _ _ => exact C.execAuthRun _ _ _ hP t h
  | authOverrideWrite _ _ _ => exact C.execAuthOverrideWrite _ _ _ hP t h
  | packAtRest _ _ _ => exact C.execPackAtRest _ _ _ hP t h
  | gaugeDisagree _ => exact C.execGaugeDisagree _ hP t h
  | relearn _ => exact C.execRelearn _ hP t h
  | noRest72h _ => exact C.execNoRest72h _ hP t h
  | restWindowEnd => exact C.execRestWindowEnd hP t h
  | switchoverTest _ => exact C.execSwitchoverTest _ hP t h
  | pulseTest _ => exact C.execPulseTest _ hP t h
  | packTestDone _ _ _ _ _ => exact C.execPackTestDone _ _ _ _ _ hP t h
  | testDischarge _ _ => exact C.execTestDischarge _ _ hP t h
  | cellOvervoltage _ => exact C.execCellOvervoltage _ hP t h
  | chargerFaultTimeout _ _ => exact C.execChargerFaultTimeout _ _ hP t h
  | seqProgramStart _ _ => exact C.execSeqProgramStart _ _ hP t h
  | seqWaitDone => exact C.execSeqWaitDone hP t h
  | seqCheckDone => exact C.execSeqCheckDone hP t h
  | seqCheckTimeout => exact C.execSeqCheckTimeout hP t h
  | syncAdvance => exact C.execSyncAdvance hP t h
  | syncTimeout => exact C.execSyncTimeout hP t h
  | programOverrun => exact C.execProgramOverrun hP t h
  | inputCollapse => exact C.execInputCollapse hP t h
  | collapseNoKilnTimeout => exact C.execCollapseNoKilnTimeout hP t h
  | railMarginWrite _ _ => exact C.execRailMarginWrite _ _ hP t h
  | marginStep => exact C.execMarginStep hP t h
  | cntClearRail _ => exact C.execCntClearRail _ hP t h
  | cntClearAll _ => exact C.execCntClearAll _ hP t h
  | railCounterSave => exact C.execRailCounterSave hP t h
  | sqpDataAccess _ _ => exact C.execSqpDataAccess _ _ hP t h
  | mrNPressRelease _ => exact C.execMrNPressRelease _ hP t h
  | mrNHold4s => exact C.execMrNHold4s hP t h
  | forceOff => exact C.execForceOff hP t h
  | restDwellMet _ _ => exact C.execRestDwellMet _ _ hP t h
  | restExitEvent => exact C.execRestExitEvent hP t h
  | restExitDone _ => exact C.execRestExitDone _ hP t h
  | patrolCatchup => exact C.execPatrolCatchup hP t h
  | perstWake _ => exact C.execPerstWake _ hP t h
  | timerWake => exact C.execTimerWake hP t h
  | mainInLostP3 => exact C.execMainInLostP3 hP t h
  | startTimeout => exact C.execStartTimeout hP t h
  | startRetry => exact C.execStartRetry hP t h
  | forceCold _ => exact C.execForceCold _ hP t h
  | clearFails _ => exact C.execClearFails _ hP t h
  | clearRecovery _ => exact C.execClearRecovery _ hP t h
  | islandSupplyChange _ _ => exact C.execIslandSupplyChange _ _ hP t h
  | islandPowerOn => exact C.execIslandPowerOn hP t h
  | reactionDone => exact C.execReactionDone hP t h
  | quietExpired => exact C.execQuietExpired hP t h
  | eventSourceRelease _ => exact C.execEventSourceRelease _ hP t h
  | errnReadback _ => exact C.execErrnReadback _ hP t h
  | errnTest _ => exact C.execErrnTest _ hP t h
  | histRearm _ => exact C.execHistRearm _ hP t h
  | injectionTimeout _ _ => exact C.execInjectionTimeout _ _ hP t h
  | lockstepMismatch => exact C.execLockstepMismatch hP t h
  | watchdogExpiry _ => exact C.execWatchdogExpiry _ hP t h
  | comparatorTest _ _ => exact C.execComparatorTest _ _ hP t h
  | tlogRateSummary => exact C.execTlogRateSummary hP t h
  | tlgClear _ => exact C.execTlgClear _ hP t h
  | recClear _ => exact C.execRecClear _ hP t h
  | recFlush _ => exact C.execRecFlush _ hP t h
  | recFlushDone _ => exact C.execRecFlushDone _ hP t h
  | calRun _ => exact C.execCalRun _ hP t h
  | calTempCheck => exact C.execCalTempCheck hP t h
  | adcCalDone _ _ _ _ => exact C.execAdcCalDone _ _ _ _ hP t h
  | moduleCal _ _ => exact C.execModuleCal _ _ hP t h
  | vrefCheck _ => exact C.execVrefCheck _ hP t h
  | cflKeyWrite _ _ _ => exact C.execCflKeyWrite _ _ _ hP t h
  | wordProgram _ _ _ _ => exact C.execWordProgram _ _ _ _ hP t h
  | sectorErase _ _ _ => exact C.execSectorErase _ _ _ hP t h
  | blockErase _ _ _ => exact C.execBlockErase _ _ _ hP t h
  | sequenceReset _ _ => exact C.execSequenceReset _ _ hP t h
  | flashOpDone _ _ => exact C.execFlashOpDone _ _ hP t h
  | codeFlashCheck _ _ => exact C.execCodeFlashCheck _ _ hP t h
  | updateLockExpired => exact C.execUpdateLockExpired hP t h
  | verifyDone _ => exact C.execVerifyDone _ hP t h
  | handoverRunning _ _ => exact C.execHandoverRunning _ _ hP t h
  | handoverFail => exact C.execHandoverFail hP t h
  | confirmWindowEnd _ _ _ => exact C.execConfirmWindowEnd _ _ _ hP t h
  | packPathConfirmed => exact C.execPackPathConfirmed hP t h
  | powerReturn => exact C.execPowerReturn hP t h
  | clockFault _ => exact C.execClockFault _ hP t h
  | clockBackInTolerance _ => exact C.execClockBackInTolerance _ hP t h
  | xtal25Lost => exact C.execXtal25Lost hP t h
  | trainingRetry _ => exact C.execTrainingRetry _ hP t h
  | phantomFeedRetry _ => exact C.execPhantomFeedRetry _ hP t h
  | authRetry _ => exact C.execAuthRetry _ hP t h

end Sys2Proof.Machine
end

