-- ==== Sys2Proof/Machine/Manifest.lean ====
section
/-!
DEFINITION. Machine/Manifest.lean: the bytes of a manifest (R241 to R244): its sections, its directory and its header, and where a
slot holds them.
-/

namespace Sys2Proof.Machine

open Sys2Proof

/-- Data codewords of a slot: copy A, copy B, the reserve and the map room begin here (Table 08-7). -/
def copyB : Nat := 36864
def reserveAt : Nat := 73728
def mapRoomAt : Nat := 81920
def slotWords : Nat := 262144

/-- Positions p and p + 36,864 of a slot stand on dies in different channels, where `place` gives the flash address of each (R241). -/
def copiesApart (place : Nat → Nat) : Prop := ∀ p < copyB, (addrBlock (place p)).1 ≠ (addrBlock (place (p + copyB))).1

/-! ### Sections (Table 08-9) -/

/-- Section 1: batch, entry count, group count and group numbers of each log of the chain. -/
def KilnLog.bytes (l : KilnLog) : List Nat :=
  leBytes 8 l.batch ++ leBytes 8 l.entries.length ++ leBytes 4 l.groups.length ++ l.groups.flatMap (leBytes 4)

/-- A bitmap over `n` members, bit i of byte j for member 8j + i. -/
def bitmapBytes (set : RSet) (n : Nat) : List Nat :=
  (List.range (ceilDiv n 8)).map (fun j => ((List.range 8).map (fun i => b2n (set.has (8 * j + i)) * 2 ^ i)).sum)

/-- Section 3: a run of the lost list, its first granule in bits 32 to 0 and its count in bits 63 to 33 (R244). -/
def runBytes (r : Nat × Nat) : List Nat := leBytes 8 (r.1 % 2 ^ 33 + (r.2 - r.1) * 2 ^ 33)

/-- The bytes of section `t` of a cask of `n` host granules. The spec gives those of sections 1, 2, 3, 7 and 10, one byte of heat for
each region in section 4, and for the others what they hold but no bytes (assumption 198). -/
def Cask.sect (c : Cask) (n t : Nat) : List Nat :=
  let regions := ceilDiv n granulesPerRegion
  match t with
  | 1 => c.chain.flatMap KilnLog.bytes
  | 2 => bitmapBytes c.regionIndex regions
  | 3 => c.lostList.flatMap runBytes
  | 4 => (List.range regions).map (fun r => c.heat.get r % 256)
  | 5 => Config.sectionBytes 5 (c.vol.flatMap (fun r => [r.1, r.2]))
  | 6 => Config.sectionBytes 6 (c.pins.flatMap (fun p => [p.base, p.size, p.cls]))
  | 7 => bitmapBytes c.debt0 regions ++ bitmapBytes c.debt1 regions
  | 8 => Config.sectionBytes 8 (c.interrupted.flatMap (fun r => [r.queue, r.cid, r.opcode, r.status, r.offset, r.element, r.later]))
  | 9 => Config.sectionBytes 9 (c.retire.flatMap (fun e => [e.1, e.2]))
  | 10 => c.tlog.flatMap (fun e => e.toWords.flatMap (leBytes 4))
  | 11 => Config.sectionBytes 11 ([(c.bucket % 2 ^ 40).toNat, c.lifeDays, c.hostTime, c.fnn] ++ c.learnt)
  | 12 => c.mapRegions.toList.flatMap (fun r => (List.range granulesPerRegion).flatMap (fun i =>
      leBytes 8 (c.mapPages.get (r * granulesPerRegion + i))))
  | _ => []

/-- Codewords that a section takes. -/
def Cask.sectionWords (c : Cask) (n t : Nat) : Nat := ceilDiv (c.sect n t).length granuleBytes

/-- Where section `t` begins: packed after the header in type order, section 12 in the map room (Table 08-7). -/
def Cask.sectionStart (c : Cask) (n t : Nat) : Nat :=
  if t = 12 then mapRoomAt else 1 + ((List.range (t - 1)).map (fun i => c.sectionWords n (i + 1))).sum

/-! ### Header (Table 08-8) -/

/-- A directory entry: `TYPE`, `START`, `LENGTH` and the CRC-32 of the section's bytes (R243). -/
def Cask.dirEntry (c : Cask) (n t : Nat) : List Nat :=
  leBytes 2 t ++ leBytes 2 0 ++ leBytes 4 (c.sectionStart n t) ++ leBytes 4 (c.sect n t).length ++
    leBytes 4 (crc32Bytes (c.sect n t))

/-- The 4,092 bytes before `HCRC` of the header of copy `copy` (R242). -/
def Cask.headerBody (c : Cask) (n copy : Nat) : List Nat :=
  "KNMCASK1".toList.map Char.toNat ++ leBytes 2 1 ++ [copy, c.endKind, c.trigger, c.flags, c.coarseK, 0] ++ leBytes 8 c.batch ++
    leBytes 8 c.prevBatch ++ leBytes 6 c.hcK0 ++ leBytes 2 c.puK0 ++ leBytes 5 c.opsec ++ leBytes 3 0 ++ leBytes 4 c.pcycles ++
    leBytes 8 c.dK3 ++ leBytes 8 c.drained ++ leBytes 8 c.lost ++ leBytes 8 c.listed ++ leBytes 4 c.ctUsed ++ leBytes 4 c.eK0 ++
    leBytes 4 c.iLearn ++ leBytes 4 c.vMbps ++ leBytes 4 c.merges ++ (List.range 6).flatMap (fun i => leBytes 4 (c.fwver.getD i 0)) ++
    leBytes 2 12 ++ List.replicate 126 0 ++ (List.range 12).flatMap (fun i => c.dirEntry n (i + 1)) ++ List.replicate (64 + 3580) 0

/-- The header: its body and `HCRC`. -/
def Cask.header (c : Cask) (n copy : Nat) : List Nat :=
  let b := c.headerBody n copy
  b ++ leBytes 4 (crc32Bytes b)

end Sys2Proof.Machine
end

