-- ==== Sys2Proof/WellFormed.lean ====
section
/-!
DEFINITION. WellFormed.lean: which operands the spec gives the commands: the numbers of ports, channels, packs, slots, pages, fault
bits and so on lie in the ranges of the spec. One check for each kind of operand.
-/

namespace Sys2Proof

open Sys2Proof.Machine

/-- A host port: 0 is A, 1 is B (R81). -/
def portOk (p : Nat) : Bool := decide (p < 2)
/-- A Daluf port (R316). -/
def dalufOk (p : Nat) : Bool := decide (p < 4)
/-- A pack port (R369). -/
def packOk (p : Nat) : Bool := decide (p < 2)
/-- A DRAM channel (R110). -/
def dmcOk (c : Nat) : Bool := decide (c < 16)
/-- A NAND channel (R171). -/
def nchOk (c : Nat) : Bool := decide (c < 32)
/-- A DRAM rank (Table 05-1). -/
def rankOk (r : Nat) : Bool := decide (r < 8)
/-- A NAND die of a channel (R171). -/
def dieOk (d : Nat) : Bool := decide (d < 16)
/-- A plane of a Daluf port: 0 the sideband, 1 the high-rate plane (R316, R320). -/
def planeOk (p : Nat) : Bool := decide (p < 2)
/-- A slot of the event service (R49). -/
def eventOk (n : Nat) : Bool := decide (n < 64)
/-- A charge-deadline slot (R46). -/
def cdlOk (n : Nat) : Bool := decide (n < 8)
/-- A guest volume slot (R360). -/
def guestOk (n : Nat) : Bool := decide (n < 32)
/-- A persist queue pair (R285). -/
def queueOk (q : Nat) : Bool := decide (q < 262144)
/-- A register page of Table 03-3. -/
def pageOk (p : Nat) : Bool := pageList.contains p
/-- A fault bit of a page (R59). -/
def bitOk (b : Nat) : Bool := decide (b < 16)
/-- A register address: in BAR2 or BAR4, in a page or a slot of the per-queue window, or the three bytes of a sideband transfer (R56,
R73, R290). -/
def regOk (a : RegAddr) : Bool :=
  match a with
  | .page page off => decide (page < 1024) && decide (off < 4096)
  | .slot n off => decide (n < 32768) && decide (off < 64)
  | .bar2 off => decide (off < 0x400000)
  | .bar4 off => decide (off < 0x1000000)
  | .bytes index low high => decide (index < 256) && decide (low < 256) && decide (high < 16)
/-- A granule number: 36 bits (Table 07-2). -/
def granuleOk (g : Nat) : Bool := decide (g < 2 ^ 36)
/-- A 64-byte line of the DPA space (R83). -/
def lineOk (l : Nat) : Bool := decide (l < 2 ^ 42)
/-- A 2 MiB region. -/
def regionOk (r : Nat) : Bool := decide (r < 2 ^ 27)
/-- A racking target (R351). -/
def targetOk (t : Nat) : Bool := decide (t < 2)
/-- A clock domain of Table 01-6. -/
def domainOk (d : Nat) : Bool := decide (1 ≤ d) && decide (d ≤ 24)
/-- A processor of Table 01-5. -/
def procOk (n : Nat) : Bool := decide (1 ≤ n) && decide (n ≤ 5)
/-- A code-flash bank (R506). -/
def bankOk (b : Nat) : Bool := decide (b < 2)
/-- An event log of a port (R95). -/
def logOk (l : Nat) : Bool := decide (l < 4)
/-- A fault source of Table 16-1. -/
def sourceOk (src : Nat) : Bool := decide (src ≤ 250)
/-- A supply of the island (R24). -/
def supplyOk (n : Nat) : Bool := decide (n < 7)
/-- A boot step (R435). -/
def bootOk (n : Nat) : Bool := decide (1 ≤ n) && decide (n ≤ 12)
/-- A sequencer program (Table 14-6). -/
def programOk (n : Nat) : Bool := decide (n < 8)
/-- A high-rate lane, 4 the spare (R316). -/
def laneOk (l : Nat) : Bool := decide (l < 5)

/-- Every operand of a command lies in its range. -/
def Instr.wf (i : Instr) : Bool :=
  match i with
  | .acceptedCrossing _ _ => true
  | .rejectedCrossing => true
  | .placedFallingCrossing => true
  | .lockLost => true
  | .puAdvance => true
  | .pseudoHalfCycleEnd => true
  | .missingHalfCycle _ => true
  | .scheduledEventFire slot => eventOk slot
  | .acOkLowTimeout => true
  | .acOkHighTimeout => true
  | .conversionFrame _ => true
  | .chargeDeadlineFire slot => cdlOk slot
  | .chargeDeadlineArm slot _ => cdlOk slot
  | .gaugePathImplausible pack => packOk pack
  | .gaugePathPlausible pack => packOk pack
  | .opsecTick => true
  | .readLoLatch _ a _ => regOk a
  | .registerWrite _ a _ _ => regOk a
  | .commit _ page => pageOk page
  | .safePointCommitApply page => pageOk page
  | .softReset _ page => pageOk page
  | .enableClear _ page => pageOk page
  | .blockHalt page => pageOk page
  | .enableSet _ page => pageOk page
  | .fltStatClear _ page _ => pageOk page
  | .faultInject _ page bit _ => pageOk page && bitOk bit
  | .pageLock _ page => pageOk page
  | .maintUnlock _ _ _ => true
  | .maintIdleTimeout => true
  | .maintStrapLow => true
  | .hostWrite port _ line _ _ _ _ _ => portOk port && lineOk line
  | .hostRead port _ line _ _ => portOk port && lineOk line
  | .linkTrained port _ _ _ _ _ _ _ => portOk port
  | .portReset port _ => portOk port
  | .linkDown port => portOk port
  | .decoderCommit port _ _ _ _ _ => portOk port
  | .gpfPhase1 port => portOk port
  | .gpfPhase2Request port => portOk port
  | .gpfPhase2Done port => portOk port
  | .gpfWindowExpired port => portOk port
  | .mailboxTimeout port => portOk port
  | .identify port => portOk port
  | .getHealthInfo port => portOk port
  | .getEventRecords port log => portOk port && logOk log
  | .clearEventRecords port log _ _ => portOk port && logOk log
  | .getSupportedLogs port => portOk port
  | .getLog port => portOk port
  | .getFwInfo port => portOk port
  | .getTimestamp port => portOk port
  | .setTimestamp port _ => portOk port
  | .getAlertConfiguration port => portOk port
  | .setAlertConfiguration port _ => portOk port
  | .setShutdownState port _ => portOk port
  | .scanMedia port _ _ _ => portOk port
  | .getPoisonList port _ _ => portOk port
  | .injectPoison port line _ => portOk port && lineOk line
  | .clearPoison port line _ _ => portOk port && lineOk line
  | .sanitize port => portOk port
  | .secureErase port => portOk port
  | .sanitizeComplete port => portOk port
  | .getCorirvoInfo port => portOk port
  | .getPersistenceReport port => portOk port
  | .setPartition port _ _ _ _ => portOk port
  | .plannedKiln port _ _ => portOk port
  | .caskUnlock port _ => portOk port
  | .setCaskHostKey port _ _ _ => portOk port
  | .readTroubleLog port _ _ _ => portOk port
  | .readEventRecorder port _ => portOk port
  | .rackExport port _ _ granule _ _ => portOk port && granuleOk granule
  | .brewTransfer port _ _ _ _ => portOk port
  | .updateStatus port => portOk port
  | .updateStart port _ => portOk port
  | .updateActivate port => portOk port
  | .updateActivateAtReset port => portOk port
  | .updateAbort port => portOk port
  | .transferFwInitiate port => portOk port
  | .transferFwContinue port _ _ _ _ => portOk port
  | .transferFwEnd port => portOk port
  | .transferFwAbort port => portOk port
  | .transferFwFull port _ _ _ => portOk port
  | .activateFwOnline port => portOk port
  | .activateFwReset port => portOk port
  | .patrolStep chan _ => dmcOk chan
  | .patrolOverdue chan => dmcOk chan
  | .retireCopyDone granule _ => granuleOk granule
  | .sparingCopyStep _ => true
  | .rankShedTimeout chan rank => dmcOk chan && rankOk rank
  | .dirtyScrubStart => true
  | .dirtyScrubEnd _ _ => true
  | .heatEpochEnd _ => true
  | .budgetCompute => true
  | .safeBoundCheck => true
  | .hostEnergyWrite _ _ => true
  | .hostEnergyExpired => true
  | .witherTick _ _ => true
  | .copyReadDone granule _ _ _ => granuleOk granule
  | .mapCommit _ => true
  | .stripeCloseTimeout _ => true
  | .wearAllowanceRecompute => true
  | .enduranceRecompute => true
  | .codewordReadDone _ _ _ _ => true
  | .nandProgramFail chan die _ _ _ => nchOk chan && dieOk die
  | .nandEraseDone _ _ => true
  | .dieTimeout chan die => nchOk chan && dieOk die
  | .channelDead chan => nchOk chan
  | .mapFlushDone region _ => regionOk region
  | .mapScrub _ => true
  | .garbageCollectMove _ _ _ => true
  | .wearLevelCheck _ => true
  | .foldMoveCommit granule _ _ => granuleOk granule
  | .flashPatrolStep _ _ => true
  | .flashPatrolOverdue => true
  | .mainInFail => true
  | .mainInWarn => true
  | .primedClear => true
  | .ewEscalation => true
  | .packPathTimeout => true
  | .kilnSnapshotDone => true
  | .kilnShedDone => true
  | .kilnStripeProgrammed _ _ _ _ => true
  | .drainComplete _ => true
  | .sealComplete _ _ _ _ _ => true
  | .kilnPowerDownDone => true
  | .kilnCancel => true
  | .phaseTimeOverrun => true
  | .holdupCollapse _ => true
  | .kilnSelftest _ _ _ => true
  | .kilnArmWrite _ _ => true
  | .mainInStable => true
  | .bootStepDone n _ _ _ _ => bootOk n
  | .bulkDelayElapsed => true
  | .demandFillDone granule _ _ _ _ => granuleOk granule
  | .fillCeiling port _ => portOk port
  | .bulkFillDone _ _ _ => true
  | .sqDoorbell port q _ => portOk port && queueOk q
  | .cqDoorbell port q _ => portOk port && queueOk q
  | .queueEnable port q => portOk port && queueOk q
  | .queueDisable port q => portOk port && queueOk q
  | .descriptorFetch _ => true
  | .dmaFailure q _ => queueOk q
  | .nop q _ => queueOk q
  | .fenceDurable q _ _ => queueOk q
  | .rack q _ => queueOk q
  | .rackFence q _ => queueOk q
  | .copy q _ _ _ _ => queueOk q
  | .zero q _ _ _ => queueOk q
  | .pin q _ => queueOk q
  | .heatHint q _ _ => queueOk q
  | .discard q _ _ => queueOk q
  | .volatileSet q _ => queueOk q
  | .query q _ _ => queueOk q
  | .commandComplete q _ _ => queueOk q
  | .coalesceTimeout port _ => portOk port
  | .cqFullTimeout q => queueOk q
  | .chainTimeout q => queueOk q
  | .intRecordDiscard port q => portOk port && queueOk q
  | .helloTx port => dalufOk port
  | .helloRx port _ => dalufOk port
  | .hellosMissed port => dalufOk port
  | .trainingDone port _ => dalufOk port
  | .trainingTimeout port => dalufOk port
  | .laneFail port lane _ => dalufOk port && laneOk lane
  | .linkFrameRx port plane _ _ _ => dalufOk port && planeOk plane
  | .replayRetrainTimeout port => dalufOk port
  | .packetRx port plane _ => dalufOk port && planeOk plane
  | .lsaPeriodic => true
  | .lsaAgeOut _ => true
  | .claimWindowEnd => true
  | .routeInstall _ => true
  | .convergenceTimeout => true
  | .alarmSummaryTx _ => true
  | .phantomOvercurrent port => dalufOk port
  | .rackSendStart target region _ => targetOk target && regionOk region
  | .ackTimeout target region => targetOk target && regionOk region
  | .rackOpenRetry target => targetOk target
  | .guestRegionCommit slot region => guestOk slot && regionOk region
  | .guestRelease _ => true
  | .packInserted port => packOk port
  | .packIdentified port _ _ _ _ => packOk port
  | .packRemoved port => packOk port
  | .authResponse port _ => packOk port
  | .authRun _ port _ => packOk port
  | .authOverrideWrite _ port _ => packOk port
  | .packAtRest port _ _ => packOk port
  | .gaugeDisagree port => packOk port
  | .relearn _ => true
  | .noRest72h port => packOk port
  | .restWindowEnd => true
  | .switchoverTest port => packOk port
  | .pulseTest port => packOk port
  | .packTestDone port _ _ _ _ => packOk port
  | .testDischarge _ port => packOk port
  | .cellOvervoltage port => packOk port
  | .chargerFaultTimeout port _ => packOk port
  | .seqProgramStart n _ => programOk n
  | .seqWaitDone => true
  | .seqCheckDone => true
  | .seqCheckTimeout => true
  | .syncAdvance => true
  | .syncTimeout => true
  | .programOverrun => true
  | .inputCollapse => true
  | .collapseNoKilnTimeout => true
  | .railMarginWrite _ _ => true
  | .marginStep => true
  | .cntClearRail _ => true
  | .cntClearAll _ => true
  | .railCounterSave => true
  | .sqpDataAccess _ _ => true
  | .mrNPressRelease _ => true
  | .mrNHold4s => true
  | .forceOff => true
  | .restDwellMet _ _ => true
  | .restExitEvent => true
  | .restExitDone _ => true
  | .patrolCatchup => true
  | .perstWake port => portOk port
  | .timerWake => true
  | .mainInLostP3 => true
  | .startTimeout => true
  | .startRetry => true
  | .forceCold _ => true
  | .clearFails _ => true
  | .clearRecovery _ => true
  | .islandSupplyChange source _ => supplyOk source
  | .islandPowerOn => true
  | .reactionDone => true
  | .quietExpired => true
  | .eventSourceRelease src => sourceOk src
  | .errnReadback _ => true
  | .errnTest _ => true
  | .histRearm _ => true
  | .injectionTimeout src _ => sourceOk src
  | .lockstepMismatch => true
  | .watchdogExpiry proc => procOk proc
  | .comparatorTest _ _ => true
  | .tlogRateSummary => true
  | .tlgClear _ => true
  | .recClear _ => true
  | .recFlush _ => true
  | .recFlushDone _ => true
  | .calRun _ => true
  | .calTempCheck => true
  | .adcCalDone _ _ _ _ => true
  | .moduleCal _ _ => true
  | .vrefCheck _ => true
  | .cflKeyWrite _ _ _ => true
  | .wordProgram _ _ _ _ => true
  | .sectorErase _ _ _ => true
  | .blockErase _ _ _ => true
  | .sequenceReset _ _ => true
  | .flashOpDone bank _ => bankOk bank
  | .codeFlashCheck _ _ => true
  | .updateLockExpired => true
  | .verifyDone _ => true
  | .handoverRunning _ _ => true
  | .handoverFail => true
  | .confirmWindowEnd _ _ _ => true
  | .packPathConfirmed => true
  | .powerReturn => true
  | .clockFault domain => domainOk domain
  | .clockBackInTolerance domain => domainOk domain
  | .xtal25Lost => true
  | .trainingRetry port => dalufOk port
  | .phantomFeedRetry port => dalufOk port
  | .authRetry port => packOk port

end Sys2Proof
end

