-- ==== Sys2Proof/Tests/Slice0.lean ====
section
/-!
SUPPORT. Tests/Slice0.lean: an ill-formed command for every check of `Instr.wf`; a few single steps whose results the spec gives;
and for every statement with hypotheses, states and operands that meet them, clause by clause (operands that no hypothesis names
are left out).
-/

namespace Sys2Proof.Tests

set_option Elab.async false

open Sys2Proof Sys2Proof.Machine

/-! ### Small states -/

abbrev z : State := State.reset
/-- The state in a kiln of this service. -/
abbrev zk : State := { (State.reset.wr R.SAF_STAT_STATE 1) with kiln := { since := true, late := true } }
/-- All processors run. -/
abbrev awake (s : State) : State := { s with halted := [] }
/-- The start is over: pages answer. -/
abbrev live (s : State) : State := { s with power := { s.power with life := .running } }
/-- Running, with all processors. -/
abbrev up (s : State) : State := awake (live s)
/-- Running, with all processors and `MAIN_IN`. -/
abbrev on (s : State) : State := { up s with power := { (up s).power with mainGood := true } }

/-- `Inv`, computed. -/
def invB (s : State) : Bool :=
  s.regs.wf && s.staged.wf && s.latched.wf && s.dram.mem.wf && decide (s.recs.live.length ≤ 4096) &&
    decide (s.safe.hist.length ≤ 16) && decide (s.safe.stack.length ≤ 4) && decide (s.steep.hints.length ≤ 4096) &&
    decide (s.dirty.inflight.length ≤ 16384) && s.hostA.logs.all (fun l => decide (l.length ≤ 256)) &&
    s.hostB.logs.all (fun l => decide (l.length ≤ 256))

/-- `Calm`, computed, but for the state of the safety manager. -/
def quietB (s : State) : Bool :=
  invB s && s.safe.active.isEmpty && s.safe.pend.isEmpty && s.rd R.PST_STATE_PNG_DIAG == 0 &&
    s.rd R.PST_STATE_PAR_MARGIN == 0 && s.rd R.PST_STATE_DIAG_SRC == 0

theorem inv_of {s : State} (h : invB s = true) : s.Inv := by
  simp only [invB, Bool.and_eq_true, decide_eq_true_eq, List.all_eq_true] at h
  obtain ⟨⟨⟨⟨⟨⟨⟨⟨⟨⟨h1, h2⟩, h3⟩, h4⟩, h5⟩, h6⟩, h7⟩, h8⟩, h9⟩, h10⟩, h11⟩ := h
  exact ⟨h1, h2, h3, h4, h5, h6, h7, h8, h9, h10, h11⟩

theorem sound_of {s : State} (h : (invB s && s.update.kept.isEmpty) = true) : s.Sound := by
  simp only [Bool.and_eq_true, List.isEmpty_iff] at h
  exact ⟨inv_of h.1, h.2⟩

theorem calm_of {s : State} (h : (quietB s && s.rd R.SAF_STAT_STATE == 0) = true) : s.Calm := by
  simp only [quietB, Bool.and_eq_true, List.isEmpty_iff, beq_iff_eq] at h
  obtain ⟨⟨⟨⟨⟨⟨h1, h2⟩, h3⟩, h4⟩, h5⟩, h6⟩, h7⟩ := h
  exact ⟨inv_of h1, h2, h3, h7, h4, h5, h6⟩

theorem kilnCalm_of {s : State} (h : (quietB s && s.kiln.since && s.rd R.SAF_STAT_STATE == 1) = true) : s.KilnCalm := by
  simp only [quietB, Bool.and_eq_true, List.isEmpty_iff, beq_iff_eq] at h
  obtain ⟨⟨⟨⟨⟨⟨⟨h1, h2⟩, h3⟩, h4⟩, h5⟩, h6⟩, h7⟩, h8⟩ := h
  exact ⟨inv_of h1, h2, h3, h7, h8, h4, h5, h6⟩

/-! ### `Instr.wf` refuses an ill-formed operand of each kind -/

theorem smoke_bank : Instr.wf (.flashOpDone 2 true) = false ∧ Instr.wf (.flashOpDone 1 true) = true := by decide
theorem smoke_bit : Instr.wf (.faultInject .portA 0x43 16 true) = false ∧ Instr.wf (.faultInject .portA 0x43 15 true) = true := by decide
theorem smoke_boot : Instr.wf (.bootStepDone 13 true 0 0 {}) = false ∧ Instr.wf (.bootStepDone 12 true 0 0 {}) = true := by decide
theorem smoke_cdl : Instr.wf (.chargeDeadlineFire 8) = false ∧ Instr.wf (.chargeDeadlineFire 7) = true := by decide
theorem smoke_daluf : Instr.wf (.helloTx 4) = false ∧ Instr.wf (.helloTx 3) = true := by decide
theorem smoke_die : Instr.wf (.dieTimeout 31 16) = false ∧ Instr.wf (.dieTimeout 31 15) = true := by decide
theorem smoke_dmc : Instr.wf (.patrolStep 16 []) = false ∧ Instr.wf (.patrolStep 15 []) = true := by decide
theorem smoke_domain : Instr.wf (.clockFault 0) = false ∧ Instr.wf (.clockFault 24) = true := by decide
theorem smoke_event : Instr.wf (.scheduledEventFire 64) = false ∧ Instr.wf (.scheduledEventFire 63) = true := by decide
theorem smoke_granule : Instr.wf (.retireCopyDone (2 ^ 36) []) = false ∧ Instr.wf (.retireCopyDone (2 ^ 36 - 1) []) = true := by decide
theorem smoke_guest : Instr.wf (.guestRegionCommit 32 0) = false ∧ Instr.wf (.guestRegionCommit 31 0) = true := by decide
theorem smoke_lane : Instr.wf (.laneFail 3 5 0) = false ∧ Instr.wf (.laneFail 3 4 0) = true := by decide
theorem smoke_line : Instr.wf (.hostRead 1 0 (2 ^ 42) 0 .clean) = false ∧ Instr.wf (.hostRead 1 0 (2 ^ 42 - 1) 0 .clean) = true := by decide
theorem smoke_log : Instr.wf (.getEventRecords 1 4) = false ∧ Instr.wf (.getEventRecords 1 3) = true := by decide
theorem smoke_nch : Instr.wf (.dieTimeout 32 15) = false ∧ Instr.wf (.dieTimeout 31 0) = true := by decide
theorem smoke_pack : Instr.wf (.gaugePathImplausible 2) = false ∧ Instr.wf (.gaugePathImplausible 1) = true := by decide
theorem smoke_page : Instr.wf (.blockHalt 3) = false ∧ Instr.wf (.blockHalt 0xE0) = true := by decide
theorem smoke_plane : Instr.wf (.linkFrameRx 3 2 0 0 true) = false ∧ Instr.wf (.linkFrameRx 3 1 0 0 true) = true := by decide
theorem smoke_port : Instr.wf (.gpfPhase1 2) = false ∧ Instr.wf (.gpfPhase1 1) = true := by decide
theorem smoke_proc : Instr.wf (.watchdogExpiry 6) = false ∧ Instr.wf (.watchdogExpiry 5) = true := by decide
theorem smoke_program : Instr.wf (.seqProgramStart 8 true) = false ∧ Instr.wf (.seqProgramStart 7 true) = true := by decide
theorem smoke_queue : Instr.wf (.sqDoorbell 1 262144 0) = false ∧ Instr.wf (.sqDoorbell 1 262143 0) = true := by decide
theorem smoke_rank : Instr.wf (.rankShedTimeout 15 8) = false ∧ Instr.wf (.rankShedTimeout 15 7) = true := by decide
theorem smoke_reg : Instr.wf (.readLoLatch .portA (.page 0xB0 0x1000) 4) = false ∧ Instr.wf (.readLoLatch .portA (.slot 32767 0x3C) 4) = true := by decide
theorem smoke_region : Instr.wf (.mapFlushDone (2 ^ 27) 0) = false ∧ Instr.wf (.mapFlushDone (2 ^ 27 - 1) 0) = true := by decide
theorem smoke_source : Instr.wf (.eventSourceRelease 251) = false ∧ Instr.wf (.eventSourceRelease 250) = true := by decide
theorem smoke_supply : Instr.wf (.islandSupplyChange 7 true) = false ∧ Instr.wf (.islandSupplyChange 6 true) = true := by decide
theorem smoke_target : Instr.wf (.ackTimeout 2 0) = false ∧ Instr.wf (.ackTimeout 1 0) = true := by decide

/-! ### Single steps -/

/-- The command is carried out and the state after it passes the check. -/
def after (c : Instr) (s : State) (p : State → Bool) : Bool :=
  match exec c s with
  | .next t => p t
  | .fault _ => false
  | .refused _ => false

/-- No row of the table gives bits. -/
theorem test_words_spell_nothing : decodeTableWord 16 0x1234 = none ∧ State.reset.withFetchWord 16 0x1234 = State.reset := by
  decide +kernel

theorem test_step_takes_the_front :
    step { z with pending := [.opsecTick, .puAdvance] } = exec .opsecTick { z with pending := [.puAdvance] } := rfl

theorem test_idle : step z = .next z := rfl

/-- R69: from K0 on a write to a page of kind K is ignored, and sets no `CFG_REJECT`. -/
theorem test_kind_k_from_k0 : after (.registerWrite .portA (.page 0xA8 0x044) 4 1) (live zk)
    (fun t => decide (t.regs = (live zk).regs) && !t.flag (R.CFG_REJECT 0xA8)) = true := by decide +kernel

/-- R62: the fabric page of a KNM-1608-E ignores writes. -/
theorem test_absent_page : after (.registerWrite .portA (.page 0x90 0x044) 4 1) { live z with variant := .e }
    (fun t => decide (t.regs = z.regs)) = true := by decide +kernel

/-- R71: the strap going low closes maintenance access. -/
theorem test_maint_strap_low : after .maintStrapLow { live z with maint := { isOpen := true, strap := true } }
    (fun t => !t.maint.isOpen) = true := by decide +kernel

/-- R39: the end of a pseudo half-cycle advances hc by one. -/
theorem test_hc_counts : after (.pseudoHalfCycleEnd) (((on z).wr R.PHS_HC 41).wr R.PHS_STAT_SRC 1)
    (fun t => t.rd R.PHS_HC == 42) = true := by decide +kernel

/-- R46: a slot whose target is reached fires and is no longer armed. -/
theorem test_cdl_fires :
    after (.chargeDeadlineFire 5) (((z.wr (R.PHS_CDL_ARMED 5) 1).wr (R.PHS_CDL_TARGET 5) 9).wr R.PHS_CT_DRAWN 9)
      (fun t => t.flag (R.PHS_CDL_FIRED 5) && !t.flag (R.PHS_CDL_ARMED 5)) = true := by decide +kernel

/-- R11, R135: a host write marks its granule, and only its granule. -/
theorem test_write_marks :
    after (.hostWrite 1 5 (64 * 7 + 3) 10 ((List.range 64).map (fun i => (i, 0xAB))) false true .clean)
      (((((z.wr (R.HP_LINK_STAT_UP 1) 1).wr (R.HP_LINK_STAT_CXL 1) 1).wr R.STP_STAT_PHASE 4).wr (R.HP_SLICE_SIZE 1) 1).wr
        R.CAP_HOST 65536)
      (fun t => t.isDirty 7 && !t.isDirty 6 && !t.isDirty 8 && t.rd R.DRT_DIRTY == 1) = true := by decide +kernel

/-- R84: 256 MiB units 3 and 4 do not fit a slice of 4 units from 0. -/
theorem test_decoder_outside :
    after (.decoderCommit 1 7 3 2 1 256) ((z.wr (R.HP_LINK_STAT_UP 1) 1).wr (R.HP_SLICE_SIZE 1) 4)
      (fun t => t.rd (R.HP_DEC_STAT_REJECTED 1) == 0x80 && t.hostB.notCommitted == 0x80 && t.hostB.decoders.isEmpty) = true := by
  decide +kernel

/-- R506: the code region of the bank that was booted takes no erase; its record region does. -/
theorem test_protected_bank :
    after (.sectorErase true .portA 0) { z with flash := { z.flash with firmware := { step := 2 } } }
      (fun t => t.rd R.CFL_STAT_ERR == 4 && !t.flag R.CFL_STAT_BUSY0) = true ∧
    after (.sectorErase true .portA 0xF00000) { z with flash := { z.flash with firmware := { step := 2 } } }
      (fun t => t.rd R.CFL_STAT_ERR == 0 && t.flag R.CFL_STAT_BUSY0) = true := by decide +kernel

/-- R507: a wrong key ends the sequence with `ERR` 1. -/
theorem test_wrong_key : after (.cflKeyWrite true .portA 0xC3A5) z (fun t => t.rd R.CFL_STAT_ERR == 1) = true := by
  decide +kernel

/-- R51: one operating second. -/
theorem test_opsec : after .opsecTick (on z) (fun t => t.rd R.PHS_OPSEC == z.rd R.PHS_OPSEC + 1) = true := by decide +kernel

/-- R3: a KNM-1608-E has fewer queue pairs; the doorbell of one above its count does nothing. -/
theorem test_absent_queue : after (.sqDoorbell 0 262143 3) { (up z).wr (R.HP_LINK_STAT_UP 0) 1 with variant := .e }
    (fun t => t.queues.list.isEmpty) = true := by decide +kernel

/-- R219: `MAIN_IN` failing while the controller is Disarmed starts no kiln. -/
theorem test_disarmed : after .mainInFail ((on z).wr (R.KLN_STAT_STATE) 0) (fun t => !t.kiln.since) = true := by decide +kernel

/-- The geometry of the Malthouse module on 16 channels: four ranks of 4-high 32 Gb stacks (the example after R113). -/
abbrev malthouse : State := z.each 16 (fun s c => (((s.wr (R.DMC_GEOM_RANKS c) 4).wr (R.DMC_GEOM_CHIP_ID_BITS c) 2).wr
  (R.DMC_GEOM_ROW_BITS c) 3).wr (R.DMC_GEOM_DENSITY c) 3)

/-- R26, the example after Table 01-8: 42,330 MiB of keep region, 4,284,130,816 granules for the host. -/
theorem test_capacity : after (.bootStepDone 11 true 0 0 {})
    { malthouse with power := { z.power with life := .starting, runSteps := [11] } }
    (fun t => t.rd R.CAP_KEEP == 21165 && t.rd R.CAP_HOST == 4284130816) = true := by decide +kernel

/-- R112, R113, the example after Table 05-2: channel 9, row 37,282, rank 0. -/
theorem test_granule_place : (let s := (malthouse.wr R.CAP_DMC_POPULATED 0xFFFF)
    (s.chanOf 0x12345678, s.rowOf (s.localOf 0x12345678), s.rankOf 0x12345678)) = (9, 37282, 0) := by decide +kernel

/-- The link states of one module of the ring of Table 11-10. -/
abbrev ringLsa (cut : Bool) (i : Nat) : Lsa :=
  Lsa.mk i i false false 0 1 5 [((i + 7) % 8, !(cut && i == 1), 10), ((i + 1) % 8, !(cut && i == 0), 10), ((i + 4) % 8, true, 10)]

/-- R332, Table 11-10: masks and hops of M0, with all links up and with port 1 cut. -/
theorem test_ring_routes :
    (routeTable 0 ((List.range 8).map (ringLsa false))).map (fun r => (r.fnn, r.ports, r.hops)) =
      [(1, 2, 1), (2, 2, 2), (3, 5, 2), (4, 4, 1), (5, 6, 2), (6, 1, 2), (7, 1, 1)] ∧
    (routeTable 0 ((List.range 8).map (ringLsa true))).map (fun r => (r.fnn, r.ports, r.hops)) =
      [(1, 4, 3), (2, 5, 3), (3, 5, 2), (4, 4, 1), (5, 4, 2), (6, 1, 2), (7, 1, 1)] := by decide +kernel

/-- R475, the example of code 0x0210: 103 µs falls in bin 3 and 45 µs in bin 2 at a base of 16 µs. -/
theorem test_bins : (binOf 16 (some 103), binOf 16 (some 45)) = (3, 2) := by decide

/-! ### What the statements assume can be met -/

abbrev one : State := { z with pending := [.gpfPhase1 1] }

theorem test_front_runs : ∃ t, step one = .next t := ⟨_, rfl⟩

/-- O3 -/
theorem witness_everyStepKeepsTheInvariant : ∃ s t : State, s.Inv ∧ step s = .next t :=
  ⟨one, (test_front_runs).elim (fun t e => ⟨t, inv_of (by decide +kernel), e⟩)⟩

/-- The command stops the device. -/
def stops (c : Instr) (s : State) : Bool :=
  match exec c s with
  | .next _ => false
  | .fault f => decide (f = .dpaOutsideSlice)
  | .refused _ => false

theorem fault_of {c : Instr} {s : State} (h : stops c s = true) : exec c s = .fault .dpaOutsideSlice := by
  unfold stops at h
  split at h <;> simp_all

/-- O4 -/
theorem witness_onlyAccessesOutsideTheSliceStop :
    (∃ (s : State) (c : Instr), exec c s = .fault .dpaOutsideSlice) ∧
    (∃ (s : State) (port line : Nat), port < 2 ∧ s.memUp port = true ∧ s.serves = true ∧ s.rd R.PWR_STAT_STATE = 0 ∧
      s.decodes port (line / 64) = false) ∧
    (∃ c : Instr, c.accessesMemory = false) ∧
    (∃ (s : State) (port : Nat), port < 2 ∧ s.memUp port = false) ∧
    (∃ (s : State) (port line : Nat), port < 2 ∧ s.decodes port (line / 64) = true) ∧
    (∃ (s : State) (port : Nat), port < 2 ∧ s.serves = false ∧ s.rd R.PWR_STAT_STATE = 0) :=
  ⟨⟨((z.wr (R.HP_LINK_STAT_UP 1) 1).wr (R.HP_LINK_STAT_CXL 1) 1).wr R.STP_STAT_PHASE 4,
     .hostRead 1 0 64 0 .clean, fault_of (by decide +kernel)⟩,
   ⟨((z.wr (R.HP_LINK_STAT_UP 1) 1).wr (R.HP_LINK_STAT_CXL 1) 1).wr R.STP_STAT_PHASE 4, 1, 64, by decide +kernel⟩,
   ⟨.gpfPhase1 1, rfl⟩, ⟨z, 1, by decide +kernel⟩,
   ⟨(z.wr (R.HP_SLICE_SIZE 1) 1).wr R.CAP_HOST 65536, 1, 64, by decide +kernel⟩, ⟨z, 1, by decide +kernel⟩⟩

/-- O5 -/
theorem witness_commandsLeaveTheQueueAndTheVariant : ∃ (c : Instr) (s t : State), exec c s = .next t :=
  ⟨.gpfPhase1 1, z, _, rfl⟩

/-- O6 -/
theorem witness_quietCommandsWriteNoSteadyRegister :
    ∃ (c : Instr) (s t : State), s.Sound ∧ c.quietOnRegs = true ∧ exec c s = .next t :=
  ⟨.gpfPhase1 1, z, _, sound_of (by decide +kernel), rfl, rfl⟩

/-- O7 -/
theorem witness_memoryAndStoredStateHaveTheirWriters :
    ∃ (c : Instr) (s t : State), c.begins = false ∧ c.writesDram = false ∧ c.writesDirty = false ∧ c.writesCellar = false ∧
      c.writesFlash = false ∧ c.writesBudget = false ∧ c.writesTrack = false ∧ exec c s = .next t :=
  ⟨.gpfPhase1 1, z, _, rfl, rfl, rfl, rfl, rfl, rfl, rfl, rfl⟩

/-- O10, first clause -/
theorem witness_decodersDecodeInside : ∃ (s : State) (port g : Nat), s.decodes port g = true :=
  ⟨(z.wr (R.HP_SLICE_SIZE 1) 1).wr R.CAP_HOST 65536, 1, 65535, by decide +kernel⟩

theorem witness_readingsAreStored :
    ∃ (s : State) (i : Nat), s.Sound ∧ i < 48 ∧ s.variant.gauge = true ∧ s.flag R.MON_STAT_CAL_ACTIVE = false ∧
      s.cal.badAdc = [] ∧ s.cal.banks = [] ∧ s.cal.swaps = [] ∧ s.cal.trimLeft = [] :=
  ⟨z, 47, sound_of (by decide +kernel), by decide +kernel⟩

theorem witness_readingALowWordLatchesTheHighOne :
    (∃ (s : State) (who : Requester) (page off : Nat), s.Sound ∧ isLo page off = true ∧ off % 4 = 0 ∧ s.mayRead who page
      = true) ∧
    (∃ (s : State) (who : Requester) (page off : Nat), s.Calm ∧ isLo page off = true ∧ off % 4 = 0 ∧ s.mayRead who page
      = true) ∧
    (∃ (s : State) (who : Requester) (page off w : Nat), s.Calm ∧ 4 ≤ off ∧ isLo page (off - 4) = true ∧ isLo page off =
      false ∧ off % 4 = 0 ∧ s.mayRead who page = true ∧ s.latched.get (pairKey who (page * 4096 + (off - 4))) = w + 1) ∧
    (∃ (s : State) (who : Requester) (page off : Nat), s.Calm ∧ who.port.isSome = true ∧ off % 8 = 0 ∧ off + 8 ≤ 4096 ∧
      s.mayRead who page = true) ∧
    (∃ (s : State) (who : Requester) (page off : Nat), s.Calm ∧ page ≠ 0xD8 ∧ page ≠ 0xA1 ∧ off % 4 = 0 ∧ off + 4 ≤ 4096
      ∧ isLo page off = false ∧ (off < 4 ∨ isLo page (off - 4) = false) ∧ s.mayRead who page = true) ∧
    (∃ (s : State) (who : Requester) (page : Nat), s.Calm ∧ s.answers who = true ∧ s.mayRead who page = false) :=
  ⟨⟨live (z.wr R.PHS_HC (2 ^ 40 + 5)), Requester.sideband, 0xB0, 0x48, sound_of (by decide +kernel), by decide +kernel⟩,
   ⟨live (z.wr R.PHS_HC (2 ^ 40 + 5)), Requester.portA, 0xB0, 0x48, calm_of (by decide +kernel), by decide +kernel⟩,
   ⟨{ live (z.wr R.PHS_HC (2 ^ 40 + 5)) with latched := [(pairKey .portA (0xB0 * 4096 + 0x48), 257)] }, Requester.portA,
     0xB0, 0x4C, 256, calm_of (by decide +kernel), by decide +kernel⟩,
   ⟨live (z.wr R.PHS_HC (2 ^ 40 + 5)), Requester.portA, 0xB0, 0x48, calm_of (by decide +kernel), by decide +kernel⟩,
   ⟨live z, Requester.portA, 0x41, 0x44, calm_of (by decide +kernel), by decide +kernel⟩,
   ⟨{ live z with variant := .e }, Requester.portA, 0x90, calm_of (by decide +kernel), by decide +kernel⟩⟩

theorem witness_writesAreAppliedStagedOrRejected :
    (∃ (s : State) (who : Requester), s.Calm ∧ s.mayWrite who 0x41 = .accept ∧ s.rd R.PWR_STAT_STATE = 0 ∧ s.lockHolds
      0x41 = false) ∧
    (∃ (s : State) (who : Requester) (page off size : Nat), s.Calm ∧ plainPage page = true ∧ s.Writable who page ∧ (size
      = 4 ∨ (size = 8 ∧ who.port.isSome = true)) ∧ off % size = 0 ∧ 0x040 ≤ off ∧ off + size ≤ 4096 ∧ s.RecordsOpen) ∧
    (∃ (s : State) (who : Requester) (page off size : Nat), s.Calm ∧ plainPage page = true ∧ s.Writable who page ∧ (size
      = 4 ∨ (size = 8 ∧ who.port.isSome = true)) ∧ off % size = 0 ∧ 0x040 ≤ off ∧ off + size ≤ 4096 ∧ s.RecordsOpen ∧
      s.blockOff page = false ∧ s.flag (R.COMMIT_PENDING page) = false) ∧
    (∃ (s : State) (who : Requester) (page off size : Nat), s.Calm ∧ plainPage page = true ∧ s.Writable who page ∧ (size
      = 4 ∨ (size = 8 ∧ who.port.isSome = true)) ∧ off % size = 0 ∧ 0x040 ≤ off ∧ off + size ≤ 4096 ∧ s.RecordsOpen ∧
      s.blockOff page = false ∧ (s.guarded page = false ∨ s.maint.isOpen = false)) ∧
    (∃ (s : State) (who : Requester) (page off size : Nat), s.Calm ∧ plainPage page = true ∧ s.Writable who page ∧ (size
      = 4 ∨ (size = 8 ∧ who.port.isSome = true)) ∧ off % size = 0 ∧ 0x040 ≤ off ∧ off + size ≤ 4096 ∧ s.RecordsOpen ∧
      s.blockOff page = true ∧ (s.guarded page = false ∨ s.maint.isOpen = true) ∧ s.flag (R.COMMIT_PENDING page) = false) ∧
    (∃ (s : State) (who : Requester), s.Calm ∧ s.mayWrite who 0xB0 = .accept ∧ s.rd R.PWR_STAT_STATE = 0 ∧ s.lockHolds
      0xB0 = false ∧ s.blockOff 0xB0 = false ∧ s.flag (R.COMMIT_PENDING 0xB0) = false ∧ s.staged = [] ∧ s.rd
      R.PHS_CTRL_AC_EN = 1 ∧ s.rd R.PHS_CTRL_EW_ACOK = 1 ∧ s.rd R.PHS_CTRL_FORCE_PSEUDO = 0 ∧ s.rd R.PHS_CTRL_EDGE = 0 ∧
      s.rd R.PHS_CTRL_GLITCH = 50) ∧
    (∃ (s : State) (who : Requester) (page off size : Nat), s.Calm ∧ page ≠ safPage ∧ page ≠ 0xD0 ∧ s.mayWrite who page
      = .accept ∧ s.rd R.PWR_STAT_STATE = 0 ∧ s.lockHolds page = true ∧ (size = 4 ∨ (size = 8 ∧ who.port.isSome = true)) ∧
      off % size = 0 ∧ 0x040 ≤ off ∧ off + size ≤ 4096 ∧ s.writtenAt who page off size ≠ []) ∧
    (∃ (s : State) (who : Requester) (page : Nat), s.Calm ∧ page ≠ safPage ∧ s.mayWrite who page = .reject) ∧
    (∃ (s : State) (who : Requester) (page off size : Nat), s.Calm ∧ page ≠ safPage ∧ s.Writable who page ∧
      s.RecordsOpen ∧ (off % size ≠ 0 ∨ 4096 < off + size ∨ ¬(size = 4 ∨ (size = 8 ∧ who.port.isSome = true)))) ∧
    (∃ (s : State) (who : Requester) (page : Nat), s.Calm ∧ page ≠ safPage ∧ page ≠ 0xD0 ∧ s.Writable who page) ∧
    (∃ (s : State) (who : Requester) (page : Nat), s.Calm ∧ page ≠ safPage ∧ page ≠ 0xD0 ∧ s.mayWrite who page = .accept
      ∧ s.rd R.PWR_STAT_STATE = 0 ∧ maintOnly page = false) ∧
    (∃ (s : State) (who : Requester) (page : Nat), s.Calm ∧ page ≠ safPage ∧ page ≠ 0xD0 ∧ s.Writable who page) ∧
    (∃ (s : State) (who : Requester) (page v : Nat), s.Calm ∧ page ≠ safPage ∧ page ≠ 0xD0 ∧ s.Writable who page ∧
      v.testBit 2 = true) ∧
    (∃ (s : State) (page : Nat), s.Calm ∧ pagePresent s.variant page = false) ∧
    (∃ (s : State) (n off size : Nat), s.Calm ∧ s.ReachesQueue 0 (s.slotQueue .portA n) ∧ (size = 4 ∨ size = 8) ∧ off %
      size = 0 ∧ off + size ≤ 64) :=
  ⟨⟨live z, Requester.portA, calm_of (by decide +kernel), by decide +kernel⟩,
   ⟨live z, Requester.portA, 0x44, 0x40, 4, calm_of (by decide +kernel), by decide +kernel⟩,
   ⟨live z, Requester.portA, 0x95, 0x48, 8, calm_of (by decide +kernel), by decide +kernel⟩,
   ⟨live z, Requester.portA, 0x80, 0x44, 4, calm_of (by decide +kernel), by decide +kernel⟩,
   ⟨((live z).wr (R.ENABLE 0x80) 0).wr (R.RUNNING 0x80) 0, Requester.portA, 0x80, 0x44, 4, calm_of (by decide +kernel),
     by decide +kernel⟩,
   ⟨live z, Requester.portB, calm_of (by decide +kernel), by decide +kernel⟩,
   ⟨(live z).wr (R.LOCKED 0x41) 1, Requester.portA, 0x41, 0x44, 4, calm_of (by decide +kernel), by decide +kernel⟩,
   ⟨live z, Requester.sideband, 0x41, calm_of (by decide +kernel), by decide +kernel⟩,
   ⟨live z, Requester.portA, 0x41, 0x45, 2, calm_of (by decide +kernel), by decide +kernel⟩,
   ⟨live z, Requester.portA, 0x41, calm_of (by decide +kernel), by decide +kernel⟩,
   ⟨(live z).wr (R.LOCKED 0x41) 1, Requester.portA, 0x41, calm_of (by decide +kernel), by decide +kernel⟩,
   ⟨live z, Requester.portA, 0x41, calm_of (by decide +kernel), by decide +kernel⟩,
   ⟨((live z)).wr (R.CFG_REJECT 0x41) 1, Requester.portA, 0x41, 4, calm_of (by decide +kernel), by decide +kernel⟩,
   ⟨{ live z with variant := .e }, 0x90, calm_of (by decide +kernel), by decide +kernel⟩,
   ⟨live z, 5, 0, 4, calm_of (by decide +kernel), by decide +kernel⟩⟩

theorem witness_commitsApplyAtTheSafePoint :
    (∃ (s : State) (who : Requester) (page : Nat), s.Calm ∧ page ≠ safPage ∧ s.Writable who page ∧ s.ownerRuns page =
      true ∧ (s.flag (R.COMMIT_PENDING page) = true ∨ (s.blockOff page = false ∧ s.waitsSafe page = true))) ∧
    (∃ (s : State) (who : Requester) (page : Nat), s.Calm ∧ page ≠ safPage ∧ s.Writable who page ∧ s.flag
      (R.COMMIT_PENDING page) = false ∧ (s.blockOff page = true ∨ s.waitsSafe page = false)) ∧
    (∃ (s : State) (who : Requester) (page v : Nat) (r : WriteRow) (f : Fld), s.Calm ∧ plainPage page = true ∧ [0x70,
      0x95].contains page = false ∧ s.Writable who page ∧ s.flag (R.COMMIT_PENDING page) = false ∧ (s.blockOff page = true
      ∨ s.waitsSafe page = false) ∧ s.waiting page = [(r, f, v)]) ∧
    (∃ (s : State) (page : Nat), s.Calm ∧ page ≠ safPage ∧ pagePresent s.variant page = true ∧ s.paged = true ∧
      s.atSafePoint page = true ∧ s.flag (R.SOFT_RESET page) = false ∧ s.flag (R.COMMIT_PENDING page) = true) ∧
    (∃ (s : State) (page : Nat), s.Calm ∧ page ≠ safPage ∧ pagePresent s.variant page = true ∧ s.paged = true ∧
      s.atSafePoint page = true ∧ s.flag (R.SOFT_RESET page) = true) ∧
    (∃ (s : State) (page : Nat), s.Calm ∧ pagePresent s.variant page = true ∧ s.paged = true ∧ s.atSafePoint page = true
      ∧ s.flag (R.SOFT_RESET page) = false ∧ s.flag (R.COMMIT_PENDING page) = false ∧ s.waiting page = []) ∧
    (∃ (s : State) (v : Nat), s.Calm ∧ s.paged = true ∧ s.flag (R.COMMIT_PENDING 0x10) = true ∧ s.staged =
      [((R.HP_LINK_CTRL_MAX_WIDTH 0).key, v + 1)] ∧ v < 8 ∧ s.rd (R.HP_LOAD_CTRL_DIRTY_EN 0) = 0) :=
  ⟨⟨{ up z with staged := [(R.PHS_CTRL_AC_EN.key, 1)] }, Requester.portB, 0xB0, calm_of (by decide +kernel),
     by decide +kernel⟩,
   ⟨live z, Requester.portB, 0x41, calm_of (by decide +kernel), by decide +kernel⟩,
   ⟨{ live z with staged := [(R.PHS_CTRL_AC_EN.key, 1)] }.wr (R.ENABLE 0xB0) 0 |>.wr (R.RUNNING 0xB0) 0,
     Requester.portA, 0xB0, 0, ((fieldOfKey R.PHS_CTRL_AC_EN.key).map Prod.fst).getD
     { page := 0, pages := 0, off := 0, stride := 0, n := 0, lsb := 0, width := 0, cls := 0, win := 0, reset := 0 },
     ((fieldOfKey R.PHS_CTRL_AC_EN.key).map Prod.snd).getD R.PHS_HC, calm_of (by decide +kernel), by decide +kernel⟩,
   ⟨({ live z with staged := [((R.HP_LINK_CTRL_MAX_WIDTH 0).key, 4)] }.wr (R.COMMIT_PENDING 0x10) 1).wr
     (R.HP_LOAD_CTRL_DIRTY_EN 0) 0, 0x10, calm_of (by decide +kernel), by decide +kernel⟩,
   ⟨((live z)).wr (R.SOFT_RESET 0xB8) 1, 0xB8, calm_of (by decide +kernel), by decide +kernel⟩,
   ⟨live z, 0x30, calm_of (by decide +kernel), by decide +kernel⟩,
   ⟨({ live z with staged := [((R.HP_LINK_CTRL_MAX_WIDTH 0).key, 3 + 1)] }.wr (R.COMMIT_PENDING 0x10) 1).wr
     (R.HP_LOAD_CTRL_DIRTY_EN 0) 0, 3, calm_of (by decide +kernel), by decide +kernel⟩⟩

theorem witness_blocksStartHaltAndReset :
    (∃ (s : State) (who : Requester), s.Calm ∧ s.admission who 0x41 = .accept ∧ s.rd R.PWR_STAT_STATE = 0) ∧
    (∃ (s : State), s.Calm ∧ s.paged = true ∧ s.flag (R.ENABLE 0x41) = false ∧ s.flag (R.RUNNING 0x41) = true ∧ s.flag
      (R.COMMIT_PENDING 0x41) = false ∧ s.staged = [] ∧ s.rd R.WTH_STATE_STATE ≠ wthFrozen) ∧
    (∃ (s : State) (who : Requester), s.Calm ∧ s.admission who 0x41 = .accept ∧ s.rd R.PWR_STAT_STATE = 0 ∧ s.blockOff
      0x41 = true ∧ s.rd R.WTH_STATE_STATE = wthOff) ∧
    (∃ (s : State) (who : Requester), s.Calm ∧ s.admission who 0xC8 = .accept ∧ s.ownerRuns 0xC8 = true ∧ s.rd
      R.PWR_STAT_STATE = 0 ∧ s.blockOff 0xC8 = false) ∧
    (∃ (s : State) (who : Requester), s.Calm ∧ s.admission who 0x42 = .accept ∧ s.ownerRuns 0x42 = true ∧ s.rd
      R.PWR_STAT_STATE = 0) ∧
    (∃ (s : State) (who : Requester) (page : Nat), s.Calm ∧ page ≠ safPage ∧ s.Writable who page ∧ s.ownerRuns page =
      true ∧ kindF page = false ∧ (s.guarded page = false ∨ s.maint.isOpen = true)) ∧
    (∃ (s : State) (who : Requester) (page : Nat), s.Calm ∧ page ≠ safPage ∧ s.Writable who page ∧ s.ownerRuns page =
      true) ∧
    (∃ (s : State) (page : Nat), s.Calm ∧ page ≠ safPage ∧ pagePresent s.variant page = true ∧ s.paged = true ∧ s.flag
      (R.ENABLE page) = false ∧ s.portBusy page = false) ∧
    (∃ (s : State) (who : Requester) (page : Nat), s.Calm ∧ page ≠ safPage ∧ s.Writable who page ∧ s.ownerRuns page =
      true ∧ (kindF page = true ∨ kindK page = true)) ∧
    (∃ (s : State) (who : Requester) (page : Nat), s.Calm ∧ page ≠ safPage ∧ s.Writable who page ∧ s.ownerRuns page =
      true ∧ kindF page = false ∧ kindK page = false ∧ s.waitsSafe page = true ∧ s.blockOff page = false) ∧
    (∃ (s : State) (who : Requester) (page : Nat), s.Calm ∧ page ≠ safPage ∧ s.Writable who page ∧ s.ownerRuns page =
      true ∧ kindF page = false ∧ kindK page = false ∧ (s.waitsSafe page = false ∨ s.blockOff page = true)) ∧
    (∃ (s : State) (who : Requester) (page : Nat), s.Calm ∧ plainPage page = true ∧ s.Writable who page ∧ s.ownerRuns
      page = true ∧ kindF page = false ∧ kindK page = false ∧ (s.waitsSafe page = false ∨ s.blockOff page = true)) :=
  ⟨⟨live z, Requester.portA, calm_of (by decide +kernel), by decide +kernel⟩,
   ⟨(live z).wr (R.ENABLE 0x41) 0, calm_of (by decide +kernel), by decide +kernel⟩,
   ⟨(((live z).wr (R.ENABLE 0x41) 0).wr (R.RUNNING 0x41) 0).wr R.WTH_STATE_STATE wthOff, Requester.portA, calm_of
     (by decide +kernel), by decide +kernel⟩,
   ⟨((up z).wr R.TLG_CTRL_RATE 9).wr R.TLG_CURSOR 77, Requester.portA, calm_of (by decide +kernel), by decide +kernel⟩,
   ⟨(up z).wr R.KLN_TRIG_EW_HC 5, Requester.portA, calm_of (by decide +kernel), by decide +kernel⟩,
   ⟨up z, Requester.portA, 0x41, calm_of (by decide +kernel), by decide +kernel⟩,
   ⟨up z, Requester.portA, 0xB8, calm_of (by decide +kernel), by decide +kernel⟩,
   ⟨(live z).wr (R.ENABLE 0x80) 0, 0x80, calm_of (by decide +kernel), by decide +kernel⟩,
   ⟨(up z).wr R.KLN_TRIG_EW_HC 5, Requester.portA, 0x42, calm_of (by decide +kernel), by decide +kernel⟩,
   ⟨up z, Requester.portA, 0x30, calm_of (by decide +kernel), by decide +kernel⟩,
   ⟨up z, Requester.portA, 0xC8, calm_of (by decide +kernel), by decide +kernel⟩,
   ⟨((up z).wr (R.ENABLE 0x95) 0 |>.wr (R.RUNNING 0x95) 0).wr R.RCK_RANGE_SEL 3, Requester.portA, 0x95, calm_of
     (by decide +kernel), by decide +kernel⟩⟩

theorem witness_faultBitsClearAndForce :
    (∃ (s : State) (who : Requester) (page : Nat), s.Calm ∧ page ≠ safPage ∧ s.mayClear who page = .accept ∧ s.rd
      R.PWR_STAT_STATE = 0) ∧
    (∃ (s : State) (who : Requester), s.Calm ∧ s.admission who 0x43 = .accept ∧ s.rd R.PWR_STAT_STATE = 0 ∧ s.flag
      R.SAF_CTRL_INJ_EN = true ∧ s.kiln.since = false ∧ s.runs .safety = true ∧ s.safe.injWait = [] ∧ s.rd (R.FLT_FORCE
      0x43) = 0) ∧
    (∃ (s : State) (who : Requester) (page bit f l : Nat), s.Calm ∧ page ≠ safPage ∧ s.Writable who page ∧ pageFirstSrc
      page = some (f, l) ∧ bit < 16 ∧ f + bit ≤ l ∧ namedSources.contains (f + bit) = true ∧ s.flag R.SAF_CTRL_INJ_EN =
      true ∧ s.kiln.since = false ∧ s.runs .safety = true ∧ s.injWaits (f + bit) (page - srcPage f 0) = false) ∧
    (∃ (s : State) (who : Requester) (page bit f l : Nat), s.Calm ∧ s.RecordsOpen ∧ s.Writable who page ∧ pageFirstSrc
      page = some (f, l) ∧ bit < 16 ∧ f + bit ≤ l ∧ namedSources.contains (f + bit) = true ∧ f + bit ≠ 24 ∧ f + bit ≠ 25 ∧
      f + bit ≠ 159 ∧ f + bit ≠ 160 ∧ s.flag R.SAF_CTRL_INJ_EN = true ∧ s.kiln.since = false ∧ s.runs .safety = true) ∧
    (∃ (s : State) (who : Requester) (page : Nat), s.Calm ∧ page ≠ safPage ∧ s.admission who page = .accept ∧ s.rd
      R.PWR_STAT_STATE = 0) :=
  ⟨⟨(live z).wr (R.FLT_STAT 0x41) 0xFF, Requester.portA, 0x41, calm_of (by decide +kernel), by decide +kernel⟩,
   ⟨awake (live z), Requester.portA, calm_of (by decide +kernel), by decide +kernel⟩,
   ⟨awake (live z), Requester.portA, 0x43, 1, ((pageFirstSrc 0x43).getD (0, 0)).1, ((pageFirstSrc 0x43).getD (0, 0)).2,
     calm_of (by decide +kernel), by decide +kernel⟩,
   ⟨awake (live z), Requester.portA, 0x43, 1, ((pageFirstSrc 0x43).getD (0, 0)).1, ((pageFirstSrc 0x43).getD (0, 0)).2,
     calm_of (by decide +kernel), by decide +kernel⟩,
   ⟨live z, Requester.portA, 0x41, calm_of (by decide +kernel), by decide +kernel⟩⟩

theorem witness_maintenanceAccessOpensAndCloses :
    (∃ (s : State), s.Sound ∧ s.paged = true ∧ s.maint.wrong < 3 ∧ s.rd R.ID_MAINT_NONCE ≠ 0x5A3CC3A5 ∧ s.rd
      R.ID_MAINT_NONCE < 2 ^ 32) ∧
    (∃ (s : State) (v : Nat), s.Sound ∧ s.paged = true ∧ s.maint.isOpen = false ∧ v % 2 ^ 32 ≠ 0 ∧ v % 2 ^ 32 ≠ s.rd
      R.ID_MAINT_NONCE ^^^ 0x5A3CC3A5 ∧ s.maint.wrong < 3) ∧
    (∃ (s : State), s.Sound) ∧
    (∃ (s : State), s.Sound) :=
  ⟨⟨live z, sound_of (by decide +kernel), by decide +kernel⟩,
   ⟨live z, 1, sound_of (by decide +kernel), by decide +kernel⟩,
   ⟨{ z with maint := { isOpen := true, strap := true } }, sound_of (by decide +kernel)⟩,
   ⟨{ z with maint := { isOpen := true, strap := true } }, sound_of (by decide +kernel)⟩⟩

theorem witness_hostWritesReachDram :
    (∃ (s : State) (port line : Nat) (bytes : List (Nat × Byte)), s.Sound ∧ s.ServesLine port line ∧ fullLine bytes =
      true ∧ s.unfilled (line / 64) = false ∧ s.inVol (line / 64) = false ∧ s.isDirty (line / 64) = false) ∧
    (∃ (s : State) (port line : Nat) (bytes : List (Nat × Byte)), s.Calm ∧ s.ServesLine port line ∧ fullLine bytes =
      true ∧ s.unfilled (line / 64) = false ∧ s.isPoison (line / 64) (line % 64) = false ∧ s.listed 0 (line / 64) (line %
      64) = false ∧ s.listed 1 (line / 64) (line % 64) = false) ∧
    (∃ (s : State) (port : Nat), s.Sound ∧ port < 2 ∧ s.memUp port = true ∧ s.serves = false) :=
  ⟨⟨((((z.wr (R.HP_LINK_STAT_UP 1) 1).wr (R.HP_LINK_STAT_CXL 1) 1).wr R.STP_STAT_PHASE 4).wr (R.HP_SLICE_SIZE 1) 2).wr
     R.CAP_HOST 131072, 1, 64 * 131071 + 63, ((List.range 64).map (fun i => (i, BitVec.ofNat 8 i)) : List (Nat × Byte)),
     sound_of (by decide +kernel), by decide +kernel⟩,
   ⟨((((z.wr (R.HP_LINK_STAT_UP 1) 1).wr (R.HP_LINK_STAT_CXL 1) 1).wr R.STP_STAT_PHASE 4).wr (R.HP_SLICE_SIZE 1) 2).wr
     R.CAP_HOST 131072, 1, 64 * 131071 + 63, ((List.range 64).map (fun i => (i, BitVec.ofNat 8 i)) : List (Nat × Byte)),
     calm_of (by decide +kernel), by decide +kernel⟩,
   ⟨(z.wr (R.HP_LINK_STAT_UP 1) 1).wr (R.HP_LINK_STAT_CXL 1) 1, 1, sound_of (by decide +kernel), by decide +kernel⟩⟩

theorem witness_hostReadsAnswer :
    (∃ (s : State) (port line : Nat), s.Calm ∧ s.ServesLine port line ∧ s.unfilled (line / 64) = false ∧ s.isPoison
      (line / 64) (line % 64) = false) ∧
    (∃ (s : State) (port line : Nat), s.Calm ∧ s.ServesLine port line ∧ s.unfilled (line / 64) = false ∧ s.isPoison
      (line / 64) (line % 64) = true) ∧
    (∃ (s : State) (port line : Nat), s.Calm ∧ s.ServesLine port line ∧ s.unfilled (line / 64) = true ∧ (s.mask (line /
      64)).getLsbD (line % 64) = false ∧ s.filling (line / 64) = false ∧ s.demandFills < 4096) ∧
    (∃ (s : State) (port : Nat), s.Calm ∧ port < 2 ∧ s.memUp port = true ∧ s.rd R.PWR_STAT_STATE = 0 ∧ s.serves = false) :=
  ⟨⟨{ (((z.wr (R.HP_LINK_STAT_UP 0) 1).wr (R.HP_LINK_STAT_CXL 0) 1).wr R.STP_STAT_PHASE 4).wr (R.HP_SLICE_SIZE 0) 1 with dram := { z.dram with mem := [(64, 9), (128, 8)] } }.wr
     R.CAP_HOST 65536, 0, 1, calm_of (by decide +kernel), by decide +kernel⟩,
   ⟨{ (((z.wr (R.HP_LINK_STAT_UP 0) 1).wr (R.HP_LINK_STAT_CXL 0) 1).wr R.STP_STAT_PHASE 4).wr (R.HP_SLICE_SIZE 0) 1 with dram := { z.dram with poison := [(1, 2)] } }.wr
     R.CAP_HOST 65536, 0, 1, calm_of (by decide +kernel), by decide +kernel⟩,
   ⟨{ (((z.wr (R.HP_LINK_STAT_UP 0) 1).wr (R.HP_LINK_STAT_CXL 0) 1).wr R.STP_STAT_PHASE 2).wr (R.HP_SLICE_SIZE 0) 1 with steep := { z.steep with unfilled := [(0, 65536)] } }.wr
     R.CAP_HOST 65536, 0, 64 * 65535, calm_of (by decide +kernel), by decide +kernel⟩,
   ⟨(z.wr (R.HP_LINK_STAT_UP 1) 1).wr (R.HP_LINK_STAT_CXL 1) 1, 1, calm_of (by decide +kernel), by decide +kernel⟩⟩

theorem witness_linksComeAndGo :
    (∃ (s : State) (port : Nat), s.Sound ∧ port < 2 ∧ s.hasPort port = true ∧ s.portsOn = true ∧ s.flag (R.ENABLE (0x10
      + port)) = true ∧ s.flag (R.COMMIT_PENDING (0x10 + port)) = false) ∧
    (∃ (s : State) (port width rate : Nat), s.Calm ∧ port < 2 ∧ s.hasPort port = true ∧ s.portsOn = true ∧ s.flag
      (R.ENABLE (0x10 + port)) = true ∧ s.flag (R.COMMIT_PENDING (0x10 + port)) = false ∧ s.maxWidth port = 5 ∧ 5 ≤ width
      ∧ s.maxRate port ≤ rate ∧ s.recs.health = s.healthKey) ∧
    (∃ (s : State) (port width : Nat), s.Sound ∧ port < 2 ∧ s.hasPort port = true ∧ s.portsOn = true ∧ s.flag (R.ENABLE
      (0x10 + port)) = true ∧ s.flag (R.COMMIT_PENDING (0x10 + port)) = false ∧ width < 5) ∧
    (∃ (s : State) (port : Nat), s.Calm ∧ port < 2 ∧ s.hasPort port = true ∧ s.portsOn = true ∧ s.rd R.PWR_STAT_STATE ≤
      2) ∧
    (∃ (s : State) (port : Nat), s.Sound ∧ port < 2 ∧ s.hasPort port = true ∧ s.linkUp port = true) ∧
    (∃ (s : State) (port : Nat), s.Sound ∧ port < 2 ∧ s.hasPort port = true ∧ s.linkUp port = true ∧ (s.host
      port).downExplained = false ∧ s.inKiln = false ∧ s.flag (R.ENABLE (0x10 + port)) = true) :=
  ⟨⟨live z, 1, sound_of (by decide +kernel), by decide +kernel⟩,
   ⟨{ (live z) with recs := { (live z).recs with health := (live z).healthKey } }, 1, 5, 6, calm_of (by decide +kernel),
     by decide +kernel⟩,
   ⟨live z, 1, 4, sound_of (by decide +kernel), by decide +kernel⟩,
   ⟨{ live (z.wr (R.HP_LINK_STAT_UP 1) 1) with hostB := { z.hostB with decoders := [(0, 0, 1)] } }, 1, calm_of
     (by decide +kernel), by decide +kernel⟩,
   ⟨z.wr (R.HP_LINK_STAT_UP 1) 1, 1, sound_of (by decide +kernel), by decide +kernel⟩,
   ⟨z.wr (R.HP_LINK_STAT_UP 0) 1, 0, sound_of (by decide +kernel), by decide +kernel⟩⟩

theorem witness_decodersCommitInsideTheSlice :
    (∃ (s : State) (port n base size ways gran : Nat), s.Calm ∧ port < 2 ∧ interleaveOk ways gran = true ∧ n < 8 ∧
      s.hasPort port = true ∧ s.linkUp port = true ∧ s.rd R.PWR_STAT_STATE = 0 ∧ s.rd (R.HP_SLICE_BASE port) ≤ base ∧ base
      + size ≤ s.rd (R.HP_SLICE_BASE port) + s.rd (R.HP_SLICE_SIZE port)) ∧
    (∃ (s : State) (port n base size ways gran : Nat), s.Sound ∧ port < 2 ∧ interleaveOk ways gran = true ∧ n < 8 ∧
      s.hasPort port = true ∧ s.linkUp port = true ∧ s.rd R.PWR_STAT_STATE = 0 ∧ 0 < size ∧ (base < s.rd (R.HP_SLICE_BASE
      port) ∨ s.rd (R.HP_SLICE_BASE port) + s.rd (R.HP_SLICE_SIZE port) < base + size)) ∧
    (∃ (s : State) (port n ways gran : Nat), s.Calm ∧ port < 2 ∧ interleaveOk ways gran = false ∧ n < 8 ∧ s.hasPort port
      = true ∧ s.linkUp port = true ∧ s.rd R.PWR_STAT_STATE = 0) :=
  ⟨⟨{ (z.wr (R.HP_LINK_STAT_UP 1) 1).wr (R.HP_SLICE_SIZE 1) 4 with hostB := { z.hostB with notCommitted := 129 } }, 1,
     7, 3, 1, 1, 256, calm_of (by decide +kernel), by decide +kernel⟩,
   ⟨(z.wr (R.HP_LINK_STAT_UP 1) 1).wr (R.HP_SLICE_SIZE 1) 4, 1, 7, 3, 2, 1, 256, sound_of (by decide +kernel),
     by decide +kernel⟩,
   ⟨(z.wr (R.HP_LINK_STAT_UP 1) 1).wr (R.HP_SLICE_SIZE 1) 4, 1, 7, 99, 256, calm_of (by decide +kernel),
     by decide +kernel⟩⟩

theorem witness_flushesAreAnswered :
    (∃ (s : State) (port : Nat), s.Calm ∧ port < 2 ∧ s.hasPort port = true ∧ s.linkUp port = true ∧ s.rd
      R.PWR_STAT_STATE = 0) ∧
    (∃ (s : State) (port : Nat), s.Calm ∧ port < 2 ∧ s.hasPort port = true ∧ s.linkUp port = true ∧ s.rd
      R.PWR_STAT_STATE = 0) ∧
    (∃ (s : State) (port : Nat), s.Calm ∧ port < 2 ∧ (s.host port).gpfWait = true ∧ s.linkUp port = true ∧ s.portsOn =
      true ∧ (s.steep.heldWrites.all (fun w => w.port != port || !w.flush)) = true ∧ s.inKiln = false) ∧
    (∃ (s : State) (port : Nat), s.Sound ∧ port < s.variant.ports ∧ port < 2 ∧ s.inKiln = true ∧ s.kilnPhase ≤ 2 ∧
      s.kiln.k2Wait.contains port = true) ∧
    (∃ (s : State) (port : Nat), s.Sound ∧ port < s.variant.ports ∧ port < 2 ∧ (s.host port).waiting.isSome = true) :=
  ⟨⟨z.wr (R.HP_LINK_STAT_UP 1) 1, 1, calm_of (by decide +kernel), by decide +kernel⟩,
   ⟨z.wr (R.HP_LINK_STAT_UP 1) 1, 1, calm_of (by decide +kernel), by decide +kernel⟩,
   ⟨{ live (z.wr (R.HP_LINK_STAT_UP 1) 1) with hostB := { z.hostB with gpfWait := true } }, 1, calm_of
     (by decide +kernel), by decide +kernel⟩,
   ⟨{ z.wr R.KLN_STAT_STATE 10 with kiln := { z.kiln with k2Wait := [1] } }, 1, sound_of (by decide +kernel),
     by decide +kernel⟩,
   ⟨{ z with hostA := { z.hostA with waiting := some 0x4000 } }, 0, sound_of (by decide +kernel), by decide +kernel⟩⟩

theorem witness_mailboxReadsReturnTheirFields :
    (∃ (s : State) (port : Nat), s.Calm ∧ s.MailboxTakes port) ∧
    (∃ (s : State) (port : Nat), s.Calm ∧ s.MailboxTakes port ∧ (s.host port).mailIrq = 0) ∧
    (∃ (s : State) (port log : Nat), s.Calm ∧ log < 4 ∧ s.MailboxTakes port) ∧
    (∃ (s : State) (port : Nat), s.Calm ∧ s.MailboxTakes port) ∧
    (∃ (s : State) (port : Nat), s.Calm ∧ s.MailboxTakes port) ∧
    (∃ (s : State) (port : Nat), s.Calm ∧ s.MailboxTakes port) ∧
    (∃ (s : State) (port : Nat), s.Calm ∧ s.MailboxTakes port) ∧
    (∃ (s : State) (port : Nat), s.Calm ∧ s.MailboxTakes port ∧ s.steepReady = true) ∧
    (∃ (s : State) (port : Nat), s.Calm ∧ s.MailboxTakes port ∧ s.steepReady = true) ∧
    (∃ (s : State) (port : Nat) (bad : List Nat), s.Calm ∧ s.MailboxTakes port ∧ s.steepReady = true ∧ (s.recs.live.any
      (fun e => bad.contains e.seqno)) = false) ∧
    (∃ (s : State) (port : Nat), s.Sound ∧ s.MailboxTakes port ∧ s.steepReady = true) ∧
    (∃ (s : State) (port : Nat), s.Calm ∧ s.MailboxTakes port ∧ s.steepReady = true) ∧
    (∃ (s : State) (port : Nat), s.Calm ∧ s.MailboxTakes port ∧ s.steepReady = false) ∧
    (∃ (s : State) (port : Nat), s.Calm ∧ s.MailboxTakes port) ∧
    (∃ (s : State) (port : Nat), s.Calm ∧ s.MailboxTakes port) :=
  ⟨⟨awake ((z.wr (R.HP_LINK_STAT_UP 1) 1).wr R.STP_STAT_PHASE 4), 1, calm_of (by decide +kernel), by decide +kernel⟩,
   ⟨awake ((z.wr (R.HP_LINK_STAT_UP 0) 1).wr R.STP_STAT_PHASE 4), 0, calm_of (by decide +kernel), by decide +kernel⟩,
   ⟨awake ((z.wr (R.HP_LINK_STAT_UP 1) 1).wr R.STP_STAT_PHASE 4), 1, 3, calm_of (by decide +kernel), by decide +kernel⟩,
   ⟨awake ((z.wr (R.HP_LINK_STAT_UP 1) 1).wr R.STP_STAT_PHASE 4), 1, calm_of (by decide +kernel), by decide +kernel⟩,
   ⟨awake ((z.wr (R.HP_LINK_STAT_UP 1) 1).wr R.STP_STAT_PHASE 4), 1, calm_of (by decide +kernel), by decide +kernel⟩,
   ⟨awake ((z.wr (R.HP_LINK_STAT_UP 1) 1).wr R.STP_STAT_PHASE 4), 1, calm_of (by decide +kernel), by decide +kernel⟩,
   ⟨awake ((z.wr (R.HP_LINK_STAT_UP 1) 1).wr R.STP_STAT_PHASE 4), 1, calm_of (by decide +kernel), by decide +kernel⟩,
   ⟨awake ((z.wr (R.HP_LINK_STAT_UP 1) 1).wr R.STP_STAT_PHASE 4), 1, calm_of (by decide +kernel), by decide +kernel⟩,
   ⟨awake ((z.wr (R.HP_LINK_STAT_UP 1) 1).wr R.STP_STAT_PHASE 4), 1, calm_of (by decide +kernel), by decide +kernel⟩,
   ⟨awake ((z.wr (R.HP_LINK_STAT_UP 1) 1).wr R.STP_STAT_PHASE 4), 1, ([] : List Nat), calm_of (by decide +kernel),
     by decide +kernel⟩,
   ⟨awake ((z.wr (R.HP_LINK_STAT_UP 1) 1).wr R.STP_STAT_PHASE 4), 1, sound_of (by decide +kernel), by decide +kernel⟩,
   ⟨awake ((z.wr (R.HP_LINK_STAT_UP 1) 1).wr R.STP_STAT_PHASE 4), 1, calm_of (by decide +kernel), by decide +kernel⟩,
   ⟨awake (z.wr (R.HP_LINK_STAT_UP 1) 1), 1, calm_of (by decide +kernel), by decide +kernel⟩,
   ⟨awake ((z.wr (R.HP_LINK_STAT_UP 1) 1).wr R.STP_STAT_PHASE 4), 1, calm_of (by decide +kernel), by decide +kernel⟩,
   ⟨awake ((z.wr (R.HP_LINK_STAT_UP 1) 1).wr R.STP_STAT_PHASE 4), 1, calm_of (by decide +kernel), by decide +kernel⟩⟩

theorem witness_hostSettingsAreKept :
    (∃ (s : State) (port log : Nat), s.Calm ∧ s.MailboxTakes port ∧ log < 4 ∧ (s.host port).logs.length = 4) ∧
    (∃ (s : State) (port log : Nat) (handles : List Nat), s.Calm ∧ s.MailboxTakes port ∧ log < 4 ∧ (((s.host
      port).logs.getD log []).take handles.length).map (fun r => r.handle) ≠ handles) ∧
    (∃ (s : State) (port : Nat), s.Calm ∧ s.MailboxTakes port ∧ s.isAdmin port = true) ∧
    (∃ (s : State) (port : Nat), s.Calm ∧ s.MailboxTakes port ∧ s.steepReady = true) ∧
    (∃ (s : State) (port : Nat), s.Calm ∧ s.MailboxTakes port ∧ s.steepReady = true) :=
  ⟨⟨{ awake ((z.wr (R.HP_LINK_STAT_UP 1) 1).wr R.STP_STAT_PHASE 4) with hostB := { z.hostB with logs := [[], [{ handle := 1, kind := .dram, granule := none, words := [] }], [], []] } },
     1, 1, calm_of (by decide +kernel), by decide +kernel⟩,
   ⟨awake ((z.wr (R.HP_LINK_STAT_UP 1) 1).wr R.STP_STAT_PHASE 4), 1, 1, [3], calm_of (by decide +kernel),
     by decide +kernel⟩,
   ⟨awake ((z.wr (R.HP_LINK_STAT_UP 1) 1).wr R.STP_STAT_PHASE 4), 1, calm_of (by decide +kernel), by decide +kernel⟩,
   ⟨awake ((z.wr (R.HP_LINK_STAT_UP 1) 1).wr R.STP_STAT_PHASE 4), 1, calm_of (by decide +kernel), by decide +kernel⟩,
   ⟨awake ((z.wr (R.HP_LINK_STAT_UP 1) 1).wr R.STP_STAT_PHASE 4), 1, calm_of (by decide +kernel), by decide +kernel⟩⟩

theorem witness_poisonIsInjectedClearedAndScanned :
    (∃ (s : State) (port line : Nat), s.Sound ∧ s.MailboxTakes port ∧ s.steepReady = true ∧ s.decodes port (line / 64) =
      true ∧ s.unfilled (line / 64) = false ∧ s.inVol (line / 64) = false ∧ s.isDirty (line / 64) = false) ∧
    (∃ (s : State) (port line : Nat), s.Sound ∧ s.MailboxTakes port ∧ s.steepReady = true ∧ s.decodes port (line / 64) =
      true ∧ s.unfilled (line / 64) = false ∧ s.inVol (line / 64) = false ∧ s.isDirty (line / 64) = false) ∧
    (∃ (s : State) (port line : Nat) (full : Bool), s.Sound ∧ s.MailboxTakes port ∧ s.steepReady = true ∧ s.decodes port
      (line / 64) = true ∧ s.holds (line / 64) (line % 64) true full = false) ∧
    (∃ (s : State) (port line : Nat) (full : Bool), s.Sound ∧ s.MailboxTakes port ∧ s.steepReady = true ∧ s.decodes port
      (line / 64) = true ∧ s.holds (line / 64) (line % 64) true full = false) ∧
    (∃ (s : State) (port base n : Nat), s.Calm ∧ s.MailboxTakes port ∧ s.steepReady = true ∧ s.decodes port base = true
      ∧ s.decodes port (base + n - 1) = true ∧ (s.host port).bg = none ∧ s.rd (R.HP_POISON_OVERFLOW port) = 0) ∧
    (∃ (s : State) (port base n : Nat), s.Sound ∧ s.MailboxTakes port ∧ s.steepReady = true ∧ s.decodes port base = true
      ∧ s.decodes port (base + n - 1) = true ∧ (s.host port).bg = none) ∧
    (∃ (s : State) (port base n : Nat), s.Calm ∧ s.MailboxTakes port ∧ s.steepReady = true ∧ (s.decodes port base =
      false ∨ s.decodes port (base + n - 1) = false)) :=
  ⟨⟨awake (((((z.wr (R.HP_LINK_STAT_UP 1) 1)).wr R.STP_STAT_PHASE 4).wr (R.HP_SLICE_SIZE 1) 2).wr R.CAP_HOST 131072), 1,
     64 * 131071 + 63, sound_of (by decide +kernel), by decide +kernel⟩,
   ⟨{ awake (((((z.wr (R.HP_LINK_STAT_UP 1) 1)).wr R.STP_STAT_PHASE 4).wr (R.HP_SLICE_SIZE 1) 2).wr R.CAP_HOST 131072) with dram := { z.dram with poison := [(5, 64 * 131072)] } },
     1, 64 * 131071 + 63, sound_of (by decide +kernel), by decide +kernel⟩,
   ⟨{ awake (((((z.wr (R.HP_LINK_STAT_UP 1) 1)).wr R.STP_STAT_PHASE 4).wr (R.HP_SLICE_SIZE 1) 2).wr R.CAP_HOST 131072) with dirty := { z.dirty with bits := [(131071, 1)] } },
     1, 64 * 131071 + 63, true, sound_of (by decide +kernel), by decide +kernel⟩,
   ⟨{ awake (((((z.wr (R.HP_LINK_STAT_UP 1) 1)).wr R.STP_STAT_PHASE 4).wr (R.HP_SLICE_SIZE 1) 2).wr R.CAP_HOST 131072) with dram := { z.dram with poison := [(5, 64 * 131072)] } },
     1, 64 * 131071 + 63, true, sound_of (by decide +kernel), by decide +kernel⟩,
   ⟨awake (((((z.wr (R.HP_LINK_STAT_UP 1) 1)).wr R.STP_STAT_PHASE 4).wr (R.HP_SLICE_SIZE 1) 2).wr R.CAP_HOST 131072), 1,
     0, 131072, calm_of (by decide +kernel), by decide +kernel⟩,
   ⟨awake (((((z.wr (R.HP_LINK_STAT_UP 1) 1)).wr R.STP_STAT_PHASE 4).wr (R.HP_SLICE_SIZE 1) 2).wr R.CAP_HOST 131072), 1,
     0, 131072, sound_of (by decide +kernel), by decide +kernel⟩,
   ⟨awake (((((z.wr (R.HP_LINK_STAT_UP 1) 1)).wr R.STP_STAT_PHASE 4).wr (R.HP_SLICE_SIZE 1) 2).wr R.CAP_HOST 131072), 1,
     0, 131073, calm_of (by decide +kernel), by decide +kernel⟩⟩

theorem witness_sanitizeDestroysTheKeyAndTheData :
    (∃ (s : State) (port : Nat), s.Calm ∧ s.MailboxTakes port ∧ s.isAdmin port = true ∧ s.rd R.STP_STAT_PHASE = 4 ∧
      (s.host port).bg = none) ∧
    (∃ (s : State) (port : Nat), s.Calm ∧ s.MailboxTakes port ∧ s.isAdmin port = true ∧ s.rd R.STP_STAT_PHASE = 4 ∧
      (s.host port).bg = none) ∧
    (∃ (s : State) (port : Nat) (b : MboxCmd), s.Sound ∧ port < 2 ∧ (s.host port).bg = some b ∧ (b.opcode = opSanitize ∨
      b.opcode = opSecureErase) ∧ s.inKiln = false ∧ s.steepReady = true) :=
  ⟨⟨awake ((z.wr (R.HP_LINK_STAT_UP 1) 1).wr R.STP_STAT_PHASE 4), 1, calm_of (by decide +kernel), by decide +kernel⟩,
   ⟨awake ((z.wr (R.HP_LINK_STAT_UP 1) 1).wr R.STP_STAT_PHASE 4), 1, calm_of (by decide +kernel), by decide +kernel⟩,
   ⟨{ (z.wr R.STP_STAT_PHASE 4).wr R.CAP_HOST 65536 with hostB := { z.hostB with bg := some ({ opcode := opSanitize, words := [] } : MboxCmd) }, dram := { z.dram with mem := [(64, 9)], poison := [(1, 2)] }, cellar := { z.cellar with map := [(1, 7)] } },
     1, ({ opcode := opSanitize, words := [] } : MboxCmd), sound_of (by decide +kernel), by decide +kernel⟩⟩

theorem witness_vendorCommandsTakeEffect :
    (∃ (s : State) (port aB aN bB bN : Nat), s.Calm ∧ s.MailboxTakes port ∧ s.isAdmin port = true ∧ s.steepReady = true
      ∧ aB + aN ≤ s.decodable / 65536 ∧ (1 < s.variant.ports → bB + bN ≤ s.decodable / 65536 ∧ (s.admin = 2 ∨ overlaps aB
      aN bB bN = false)) ∧ s.decodable / 65536 < 2 ^ 18 ∧ (s.hostA.decoders.all (fun d => decide (aB ≤ d.2.1) && decide
      (d.2.1 + d.2.2 ≤ aB + aN))) = true ∧ (s.variant.ports ≤ 1 ∨ s.hostB.decoders.all (fun d => decide (bB ≤ d.2.1) &&
      decide (d.2.1 + d.2.2 ≤ bB + bN)) = true)) ∧
    (∃ (s : State) (port aB aN : Nat), s.Calm ∧ s.MailboxTakes port ∧ s.isAdmin port = true ∧ s.steepReady = true ∧
      s.decodable / 65536 < aB + aN) ∧
    (∃ (s : State) (port : Nat), s.Sound ∧ s.MailboxTakes port ∧ s.isAdmin port = true ∧ s.steepReady = true ∧
      s.kilnLive = true ∧ (s.host port).bg = none ∧ s.portsOn = true) ∧
    (∃ (s : State) (port : Nat), s.Calm ∧ s.MailboxTakes port ∧ s.isAdmin port = true ∧ s.steepReady = true ∧ s.rd
      R.KLN_STAT_STATE = 0) ∧
    (∃ (s : State) (port key : Nat), s.Calm ∧ s.MailboxTakes port ∧ s.isAdmin port = true ∧ s.flag R.CRY_STAT_LOCKED =
      true ∧ s.rd R.CRY_UNLOCK_WAIT = 0 ∧ s.cellar.wrapA.readable = true ∧ s.cellar.wrapA.hostKey = key) ∧
    (∃ (s : State) (port key : Nat), s.Sound ∧ s.MailboxTakes port ∧ s.isAdmin port = true ∧ s.flag R.CRY_STAT_LOCKED =
      true ∧ s.rd R.CRY_UNLOCK_WAIT = 0 ∧ s.rd R.CRY_STAT_UNLOCK_FAILS < 65535 ∧ s.cellar.wrapA.hostKey ≠ key ∧
      s.cellar.wrapB.hostKey ≠ key) ∧
    (∃ (s : State) (port cur : Nat), s.Calm ∧ s.MailboxTakes port ∧ s.isAdmin port = true ∧ s.steepReady = true ∧
      s.cellar.wrapA.hostKey = cur) ∧
    (∃ (s : State) (port n : Nat), s.Calm ∧ s.MailboxTakes port ∧ s.isAdmin port = true ∧ s.steepReady = true ∧
      s.variant.fabric = true ∧ 0 < n ∧ n ≤ 256 ∧ (s.host port).bg = none ∧ s.racking.guests = []) ∧
    (∃ (s : State) (port owner g n : Nat) (r : ExportReply), s.Calm ∧ s.MailboxTakes port ∧ s.isAdmin port = true ∧
      s.steepReady = true ∧ s.variant.fabric = true ∧ 0 < n ∧ n ≤ 256 ∧ (s.host port).bg = none ∧ s.localExport owner g n
      = some r) :=
  ⟨⟨awake ((((z.wr (R.HP_LINK_STAT_UP 1) 1)).wr R.STP_STAT_PHASE 4).wr R.CAP_HOST 262144), 1, 0, 4, 1, 3, calm_of
     (by decide +kernel), by decide +kernel⟩,
   ⟨awake ((((z.wr (R.HP_LINK_STAT_UP 1) 1)).wr R.STP_STAT_PHASE 4).wr R.CAP_HOST 262144), 1, 0, 5, calm_of
     (by decide +kernel), by decide +kernel⟩,
   ⟨up (((z.wr (R.HP_LINK_STAT_UP 1) 1).wr R.STP_STAT_PHASE 4).wr R.KLN_STAT_STATE 1), 1, sound_of (by decide +kernel),
     by decide +kernel⟩,
   ⟨awake ((z.wr (R.HP_LINK_STAT_UP 1) 1).wr R.STP_STAT_PHASE 4), 1, calm_of (by decide +kernel), by decide +kernel⟩,
   ⟨{ awake ((z.wr (R.HP_LINK_STAT_UP 1) 1).wr R.CRY_STAT_LOCKED 1) with cellar := { z.cellar with wrapA := { keyEpoch := 1, hostKey := 77, gen := 3, readable := true } } },
     1, 77, calm_of (by decide +kernel), by decide +kernel⟩,
   ⟨{ awake ((z.wr (R.HP_LINK_STAT_UP 1) 1).wr R.CRY_STAT_LOCKED 1) with cellar := { z.cellar with wrapA := { keyEpoch := 1, hostKey := 77, gen := 3, readable := true } } },
     1, 78, sound_of (by decide +kernel), by decide +kernel⟩,
   ⟨awake ((z.wr (R.HP_LINK_STAT_UP 1) 1).wr R.STP_STAT_PHASE 4), 1, z.cellar.wrapA.hostKey, calm_of
     (by decide +kernel), by decide +kernel⟩,
   ⟨awake ((z.wr (R.HP_LINK_STAT_UP 1) 1).wr R.STP_STAT_PHASE 4), 1, 256, calm_of (by decide +kernel),
     by decide +kernel⟩,
   ⟨{ awake ((z.wr (R.HP_LINK_STAT_UP 1) 1).wr R.STP_STAT_PHASE 4) with racking := { z.racking with guests := [({ slot := 3, owner := 5, gen := 9, fresh := true, lost := [(0, 1)], lastCommit := 0, held := [], size := 4 } : Guest)] } },
     1, 5, 0, 1, ({ gen := 9, flags := 2, age := 0, granules := [(2, [], 0)] } : ExportReply), calm_of
     (by decide +kernel), by decide +kernel⟩⟩

theorem witness_patrolAndRepairGoOn :
    (∃ (s : State) (c : Nat), s.Sound ∧ c < 16 ∧ s.patrolStep c ≠ 0 ∧ s.dramUp = true ∧ s.works (0x20 + c) = true ∧
      s.dram.patrolPos.get c + s.patrolStep c < max 1 (s.rd (R.DMC_GRAN c))) ∧
    (∃ (s : State) (c : Nat), s.Sound ∧ c < 16 ∧ s.patrolStep c ≠ 0 ∧ s.dramUp = true ∧ s.works (0x20 + c) = true) ∧
    (∃ (s : State) (g n : Nat), s.Sound ∧ s.dram.retiring.contains g = true ∧ s.freeSlot = some n) ∧
    (∃ (s : State) (g n : Nat), s.Sound ∧ s.dram.retiring.contains g = true ∧ s.freeSlot = some n ∧ s.isDirty g = false
      ∧ (s.dram.waiting.all (fun w => w.granule != g)) = true) ∧
    (∃ (s : State) (g : Nat), s.Sound ∧ s.dram.retiring.contains g = true ∧ s.freeSlot = none ∧ (s.dram.waiting.all (fun
      w => w.granule != g)) = true) ∧
    (∃ (s : State), s.Sound ∧ s.flag R.DRS_SPARE_PROG_ACTIVE = true ∧ s.dramUp = true ∧ s.kiln.since = false ∧ 2 ≤
      s.dram.sparingLeft) ∧
    (∃ (s : State), s.Sound ∧ s.flag R.DRS_SPARE_PROG_ACTIVE = true ∧ s.dramUp = true ∧ s.kiln.since = false ∧ 2 ≤
      s.dram.sparingLeft) ∧
    (∃ (s : State), s.Sound ∧ s.flag R.DRS_SPARE_PROG_ACTIVE = true ∧ s.dramUp = true ∧ s.kiln.since = false ∧
      s.dram.sparingLeft ≤ 1) ∧
    (∃ (s : State) (c r : Nat), s.Sound ∧ c < 16 ∧ r < 6 ∧ s.inKiln = true ∧ s.rd (R.DMC_RANK_PWR (s.dmcOf c) r) = 2 ∧
      s.dram.shedding.has (8 * c + r) = true) ∧
    (∃ (s : State) (c : Nat), s.Sound ∧ c < s.variant.dmcs ∧ s.rd (R.DMC_PATROL_HOURS c) ≠ 0) :=
  ⟨⟨((live z).wr R.STP_STAT_PHASE 4).wr (R.DMC_GRAN 3) 1000000000, 3, sound_of (by decide +kernel), by decide +kernel⟩,
   ⟨((live z).wr R.STP_STAT_PHASE 4).wr (R.DMC_GRAN 3) 1000000000, 3, sound_of (by decide +kernel), by decide +kernel⟩,
   ⟨{ z with dram := { z.dram with retiring := [77, 78] } }.wr R.DRS_POOL_SLOTS 100, 77, 0, sound_of
     (by decide +kernel), by decide +kernel⟩,
   ⟨{ z with dram := { z.dram with retiring := [77] } }.wr R.DRS_POOL_SLOTS 100, 77, 0, sound_of (by decide +kernel),
     by decide +kernel⟩,
   ⟨{ z with dram := { z.dram with retiring := [77] } }, 77, sound_of (by decide +kernel), by decide +kernel⟩,
   ⟨({ live z with dram := { z.dram with sparingLeft := 2, sparingAll := 2 } }.wr R.STP_STAT_PHASE 4).wr
     R.DRS_SPARE_PROG_ACTIVE 1, sound_of (by decide +kernel), by decide +kernel⟩,
   ⟨({ live z with dram := { z.dram with sparingLeft := 2, sparingAll := 2 } }.wr R.STP_STAT_PHASE 4).wr
     R.DRS_SPARE_PROG_ACTIVE 1, sound_of (by decide +kernel), by decide +kernel⟩,
   ⟨({ live z with dram := { z.dram with sparingLeft := 1, sparingAll := 2 } }.wr R.STP_STAT_PHASE 4).wr
     R.DRS_SPARE_PROG_ACTIVE 1, sound_of (by decide +kernel), by decide +kernel⟩,
   ⟨{ (z.wr R.KLN_STAT_STATE 11).wr (R.DMC_RANK_PWR 15 5) 2 with dram := { z.dram with shedding := RSet.insert1 [] 125 } },
     15, 5, sound_of (by decide +kernel), by decide +kernel⟩,
   ⟨{ z with variant := .e }, 7, sound_of (by decide +kernel), by decide +kernel⟩⟩

theorem witness_fillsBringGranulesBack :
    (∃ (s : State), s.Calm ∧ s.rd R.STP_STAT_PHASE = 2 ∧ s.flag R.STP_CTRL_BULK_EN = true) ∧
    (∃ (s : State) (g : Nat), s.Sound ∧ s.fillsRun = true ∧ s.unfilled g = true ∧ s.steep.fills.any (fun f => f.granule
      == g && f.demand) = true ∧ s.partialFull g = false) ∧
    (∃ (s : State) (g : Nat), s.Sound ∧ s.fillsRun = true ∧ s.unfilled g = true ∧ s.steep.fills.any (fun f => f.granule
      == g && f.demand) = true ∧ s.partialFull g = false ∧ s.inVol g = false ∧ s.cellar.loaded.has (g / 512) = true ∧
      entState (s.entry g) = 0 ∧ (s.steep.heldWrites.all (fun w => w.granule != g)) = true) ∧
    (∃ (s : State) (g : Nat), s.Sound ∧ s.fillsRun = true ∧ s.unfilled g = true ∧ s.steep.fills.any (fun f => f.granule
      == g && f.demand) = true ∧ s.partialFull g = false ∧ s.inVol g = false ∧ s.cellar.loaded.has (g / 512) = true ∧
      entState (s.entry g) = 3 ∧ (s.steep.heldWrites.all (fun w => w.granule != g)) = true) ∧
    (∃ (s : State) (g : Nat) (c : Codeword), s.Sound ∧ s.fillsRun = true ∧ s.unfilled g = true ∧ s.steep.fills.any (fun
      f => f.granule == g && f.demand) = true ∧ s.partialFull g = false ∧ s.inVol g = false ∧ s.cellar.loaded.has (g /
      512) = true ∧ entState (s.entry g) = 1 ∧ s.copyOf g = some c ∧ (s.steep.heldWrites.all (fun w => w.granule != g)) =
      true) ∧
    (∃ (s : State) (g : Nat), s.Sound ∧ s.fillsRun = true ∧ s.unfilled g = true ∧ s.steep.fills.any (fun f => f.granule
      == g && f.demand) = true ∧ s.partialFull g = false ∧ s.inVol g = true ∧ (s.steep.heldWrites.all (fun w => w.granule
      != g)) = true) ∧
    (∃ (s : State) (port tag : Nat), s.Sound ∧ port < 2 ∧ s.steep.fills.any (fun f => f.held.any (fun h => h.1 == port
      && h.2.1 == tag)) = true) ∧
    (∃ (s : State) (r g : Nat), s.Sound ∧ s.bulkRuns = true ∧ s.bulkTake.steep.bulkRegion = r + 1 ∧ s.bulkTake.bulkNext
      r = some g ∧ s.bulkTake.partialFull g = false) ∧
    (∃ (s : State) (r g : Nat), s.Sound ∧ s.bulkRuns = true ∧ s.bulkTake.steep.bulkRegion = r + 1 ∧ s.bulkTake.bulkNext
      r = some g ∧ s.bulkTake.partialFull g = false ∧ s.inVol g = true ∧ (s.steep.heldWrites.all (fun w => w.granule !=
      g)) = true) :=
  ⟨⟨z.wr R.STP_STAT_PHASE 2, calm_of (by decide +kernel), by decide +kernel⟩,
   ⟨{ z.wr R.STP_STAT_PHASE 2 with steep := { z.steep with unfilled := [(0, 100)], fills := [{ granule := 7, demand := true, held := [(0, 1, 2)] }], heldWrites := [{ port := 0, tag := 3, granule := 7, line := 2, poison := false, data := [(0, 7)] }] } },
     7, sound_of (by decide +kernel), by decide +kernel⟩,
   ⟨{ z.wr R.STP_STAT_PHASE 2 with cellar := { z.cellar with loaded := RSet.insert1 [] 0 }, steep := { z.steep with unfilled := [(0, 100)], masks := [(7, 1)], fills := [{ granule := 7, demand := true, held := [(0, 1, 2)] }] }, dram := { z.dram with mem := [(28672, 7), (28900, 8)] } },
     7, sound_of (by decide +kernel), by decide +kernel⟩,
   ⟨{ z.wr R.STP_STAT_PHASE 2 with cellar := { z.cellar with map := [(7, 3)], loaded := RSet.insert1 [] 0 }, steep := { z.steep with unfilled := [(0, 100)], masks := [(7, 1)], fills := [{ granule := 7, demand := true, held := [(0, 1, 2)] }] }, dram := { z.dram with mem := [(28672, 7), (28900, 8)] } },
     7, sound_of (by decide +kernel), by decide +kernel⟩,
   ⟨{ z.wr R.STP_STAT_PHASE 2 with cellar := { z.cellar with groups := [({ id := 4, zone := .image, st := .opened, members := [(0, 0, 0)], cap := 16, erasedAt := 0, closedAt := 0, kilnUse := false, writtenAt := 0 } : Group)], flash := [(5, ({ index := 7, typ := 0, poison := 3, seq := 9, batch := 0, keyEpoch := 0, data := [(0, 1), (4095, 2)] } : Codeword))], loaded := [(0, 1)], map := [(7, mkEntry 1 true 5 9)] }, steep := { z.steep with unfilled := [(0, 100)], fills := [{ granule := 7, demand := true, held := [(0, 1, 2)] }] } },
     7, ({ index := 7, typ := 0, poison := 3, seq := 9, batch := 0, keyEpoch := 0, data := [(0, 1), (4095, 2)] } :
     Codeword), sound_of (by decide +kernel), by decide +kernel⟩,
   ⟨{ z.wr R.STP_STAT_PHASE 2 with dirty := { z.dirty with vol := [(0, 1)] }, steep := { z.steep with unfilled := [(0, 100)], masks := [(7, 1)], fills := [{ granule := 7, demand := true, held := [(0, 1, 2)] }] }, dram := { z.dram with mem := [(28672, 7), (28900, 8)] } },
     7, sound_of (by decide +kernel), by decide +kernel⟩,
   ⟨{ z with steep := { z.steep with fills := [{ granule := 7, demand := true, held := [(0, 1, 2)] }] } }, 0, 1,
     sound_of (by decide +kernel), by decide +kernel⟩,
   ⟨{ z.wr R.STP_STAT_PHASE 3 with steep := { z.steep with unfilled := [(0, 100)] }, dram := { z.dram with mem := [(0, 7), (28900, 8)] } },
     0, 0, sound_of (by decide +kernel), by decide +kernel⟩,
   ⟨{ z.wr R.STP_STAT_PHASE 3 with dirty := { z.dirty with vol := [(0, 1)] }, steep := { z.steep with unfilled := [(0, 100)] }, dram := { z.dram with mem := [(0, 7), (28900, 8)] } },
     0, 0, sound_of (by decide +kernel), by decide +kernel⟩⟩

theorem witness_theDirtyMapIsScrubbedAndHeatDecays :
    (∃ (s : State), s.Sound ∧ s.live = true ∧ s.works 0x40 = true ∧ s.dirty.scrubRun = false) ∧
    (∃ (s : State), s.Sound ∧ s.dirty.scrubRun = true ∧ s.pastK3 = false) ∧
    (∃ (s : State), s.Sound ∧ s.live = true ∧ s.works 0x40 = true ∧ s.dirty.scrubRun = true) ∧
    (∃ (s : State), s.Sound ∧ s.dirty.scrubRun = true ∧ s.pastK3 = false) ∧
    (∃ (s : State), s.Sound ∧ s.live = true ∧ s.rd R.PWR_STAT_STATE ≠ 2 ∧ s.flag R.DRT_CTRL_HEAT_EN = true ∧ s.works
      0x40 = true) :=
  ⟨⟨(live z).wr R.STP_STAT_PHASE 4, sound_of (by decide +kernel), by decide +kernel⟩,
   ⟨{ z with dirty := { z.dirty with bits := [(3, 5), (900, 1000)], scrubRun := true } }, sound_of (by decide +kernel),
     by decide +kernel⟩,
   ⟨{ live z with dirty := { z.dirty with scrubRun := true } }.wr R.STP_STAT_PHASE 4, sound_of (by decide +kernel),
     by decide +kernel⟩,
   ⟨{ z with dirty := { z.dirty with bits := [(3, 5), (900, 1000)], scrubRun := true } }, sound_of (by decide +kernel),
     by decide +kernel⟩,
   ⟨{ live z with dirty := { z.dirty with heat := [(1, 255), (2, 1), (7, 2)], skip := [(3, 4)] } }.wr R.STP_STAT_PHASE
     4, sound_of (by decide +kernel), by decide +kernel⟩⟩

theorem witness_theSaveBoundIsComputedAndChecked :
    (∃ (s : State), s.Sound ∧ s.budgetOn = true ∧ s.works 0x44 = true ∧ s.iKiln ≠ 0 ∧ s.budget.clamp = none) ∧
    (∃ (s : State), s.Sound ∧ s.budgetOn = true ∧ s.works 0x44 = true ∧ s.energy = 0) ∧
    (∃ (s : State), s.Sound ∧ s.runs .safety = true ∧ s.budgetOn = true ∧ s.iKiln ≠ 0) ∧
    (∃ (s : State) (who : Requester), s.Sound ∧ s.variant.gauge = false ∧ s.Writable who 0x44) ∧
    (∃ (s : State), s.Sound ∧ s.variant = .e ∧ s.budget.expired = false) :=
  ⟨⟨(((live z).wr R.STP_STAT_PHASE 4).wr R.GAU_E 100000).wr R.CEL_Z 5000000, sound_of (by decide +kernel),
     by decide +kernel⟩,
   ⟨((live z).wr R.STP_STAT_PHASE 4).wr R.CEL_Z 5000000, sound_of (by decide +kernel), by decide +kernel⟩,
   ⟨(((awake (live z)).wr R.STP_STAT_PHASE 4).wr R.GAU_E 100000).wr R.CEL_Z 5000000, sound_of (by decide +kernel),
     by decide +kernel⟩,
   ⟨{ z with variant := .e, power := { z.power with life := .running }, budget := { z.budget with expired := true } },
     Requester.portA, sound_of (by decide +kernel), by decide +kernel⟩,
   ⟨{ z with variant := .e }, sound_of (by decide +kernel), by decide +kernel⟩⟩

theorem witness_witherCopiesRaceWrites :
    (∃ (s : State), s.Sound ∧ s.live = true) ∧
    (∃ (s : State) (g : Nat) (e : InFlight), s.Sound ∧ s.inflightOf g .read = some e ∧ s.grantee (s.chanOf (s.placeOf
      g)) = some g ∧ e.wrRead = false) ∧
    (∃ (s : State) (g : Nat) (e : InFlight), s.Sound ∧ s.inflightOf g .read = some e ∧ s.grantee (s.chanOf (s.placeOf
      g)) = some g ∧ e.wrRead = false) ∧
    (∃ (s : State) (g : Nat) (e : InFlight), s.Sound ∧ s.inflightOf g .read = some e ∧ s.grantee (s.chanOf (s.placeOf
      g)) = some g ∧ e.wrRead = true ∧ s.dirty.torn.get g < 7 ∧ s.rd R.WTH_TORN < 2 ^ 32 - 1) ∧
    (∃ (s : State) (g : Nat) (e : InFlight), s.Sound ∧ s.live = true ∧ s.inflightOf g .prog = some e ∧ s.mayCommit e =
      true ∧ s.placeFree e.addr = true ∧ s.inImageZone e.addr = true ∧ e.wrProg = false ∧ s.isDirty g = true) ∧
    (∃ (s : State) (g : Nat) (e : InFlight), s.Sound ∧ s.live = true ∧ s.inflightOf g .prog = some e ∧ s.mayCommit e =
      true ∧ s.placeFree e.addr = true ∧ s.inImageZone e.addr = true ∧ e.wrProg = true) ∧
    (∃ (s : State), s.Sound ∧ s.live = true) ∧
    (∃ (s : State), s.Sound ∧ s.live = true) ∧
    (∃ (s : State) (a : Nat), s.Sound ∧ s.live = true ∧ s.placeFree a = true ∧ s.inImageZone a = true ∧ s.stripeOpen a =
      true) ∧
    (∃ (s : State), s.Sound) :=
  ⟨⟨({ live z with dirty := { z.dirty with bits := [(3, 9)] } }.wr R.STP_STAT_PHASE 4).wr R.WTH_ALLOW 86400001, sound_of
     (by decide +kernel), by decide +kernel⟩,
   ⟨{ z with dirty := { z.dirty with inflight := [({ granule := 7, phase := .read, wrRead := false, wrProg := false, data := [], poison := 0, addr := 0, fence := 0, boost := false } : InFlight)] } },
     7,
     ({ granule := 7, phase := .read, wrRead := false, wrProg := false, data := [], poison := 0, addr := 0, fence := 0, boost := false }
     : InFlight), sound_of (by decide +kernel), by decide +kernel⟩,
   ⟨{ z with dirty := { z.dirty with inflight := [({ granule := 7, phase := .read, wrRead := false, wrProg := false, data := [], poison := 0, addr := 0, fence := 0, boost := false } : InFlight)] } },
     7,
     ({ granule := 7, phase := .read, wrRead := false, wrProg := false, data := [], poison := 0, addr := 0, fence := 0, boost := false }
     : InFlight), sound_of (by decide +kernel), by decide +kernel⟩,
   ⟨{ z with dirty := { z.dirty with inflight := [({ granule := 7, phase := .read, wrRead := true, wrProg := false, data := [], poison := 0, addr := 0, fence := 0, boost := false } : InFlight)] } },
     7,
     ({ granule := 7, phase := .read, wrRead := true, wrProg := false, data := [], poison := 0, addr := 0, fence := 0, boost := false }
     : InFlight), sound_of (by decide +kernel), by decide +kernel⟩,
   ⟨{ live z with dirty := { z.dirty with inflight := [({ granule := 7, phase := .prog, wrRead := false, wrProg := false, data := [], poison := 5, addr := 5, fence := 0, boost := false } : InFlight)], bits := [(7, 8)] }, cellar := { z.cellar with groups := [{ id := 4, zone := .image, st := .opened, members := [(0, 0, 0), (1, 0, 0)], cap := 16, erasedAt := 0, closedAt := 0, kilnUse := false, writtenAt := 0 }] } }.wr
     R.STP_STAT_PHASE 4 |>.wr (R.NCH_GEOM_PAGES 0) 1000, 7,
     ({ granule := 7, phase := .prog, wrRead := false, wrProg := false, data := [], poison := 5, addr := 5, fence := 0, boost := false }
     : InFlight), sound_of (by decide +kernel), by decide +kernel⟩,
   ⟨{ live z with dirty := { z.dirty with inflight := [({ granule := 7, phase := .prog, wrRead := false, wrProg := true, data := [], poison := 5, addr := 5, fence := 0, boost := false } : InFlight)], bits := [(7, 8)] }, cellar := { z.cellar with groups := [{ id := 4, zone := .image, st := .opened, members := [(0, 0, 0), (1, 0, 0)], cap := 16, erasedAt := 0, closedAt := 0, kilnUse := false, writtenAt := 0 }] } }.wr
     R.STP_STAT_PHASE 4 |>.wr (R.NCH_GEOM_PAGES 0) 1000, 7,
     ({ granule := 7, phase := .prog, wrRead := false, wrProg := true, data := [], poison := 5, addr := 5, fence := 0, boost := false }
     : InFlight), sound_of (by decide +kernel), by decide +kernel⟩,
   ⟨{ live z with dirty := { z.dirty with inflight := [({ granule := 7, phase := .prog, wrRead := false, wrProg := true, data := [], poison := 5, addr := 5, fence := 0, boost := false } : InFlight)], bits := [(7, 8)] }, cellar := { z.cellar with groups := [{ id := 4, zone := .image, st := .opened, members := [(0, 0, 0)], cap := 16, erasedAt := 0, closedAt := 0, kilnUse := false, writtenAt := 0 }] } }.wr
     R.STP_STAT_PHASE 4 |>.wr (R.NCH_GEOM_PAGES 0) 1000, sound_of (by decide +kernel), by decide +kernel⟩,
   ⟨{ live z with cellar := { z.cellar with groups := [{ id := 4, zone := .image, st := .opened, members := [(0, 0, 0)], cap := 16, erasedAt := 0, closedAt := 0, kilnUse := false, writtenAt := 0 }] } }.wr
     R.STP_STAT_PHASE 4 |>.wr (R.NCH_GEOM_PAGES 0) 1000, sound_of (by decide +kernel), by decide +kernel⟩,
   ⟨{ live z with cellar := { z.cellar with flash := [(4, { index := 9, typ := 0, poison := 0, seq := 3, batch := 0, keyEpoch := 0, data := [] })], groups := [{ id := 4, zone := .image, st := .opened, members := [(0, 0, 0), (1, 0, 0)], cap := 16, erasedAt := 0, closedAt := 0, kilnUse := false, writtenAt := 0 }] } }.wr
     R.STP_STAT_PHASE 4 |>.wr (R.NCH_GEOM_PAGES 0) 1000, 5, sound_of (by decide +kernel), by decide +kernel⟩,
   ⟨(z.wr R.PHS_OPSEC 864000).wr R.CEL_ENDUR 1000000, sound_of (by decide +kernel)⟩⟩

theorem witness_flashOperationsEnd :
    (∃ (s : State) (id : Nat) (g : Group), s.Sound ∧ s.cellar.groups.find? (fun g => g.id == id) = some g ∧ s.cellarOn =
      true ∧ s.erasable g = true ∧ g.zone = .image ∧ s.badMembers g = [] ∧ s.flag R.CEL_RESIZE_ACTIVE = false) ∧
    (∃ (s : State) (id : Nat) (g : Group), s.Sound ∧ s.cellar.groups.find? (fun g => g.id == id) = some g ∧ s.cellarOn =
      true ∧ s.erasable g = true ∧ s.flag R.CEL_RESIZE_ACTIVE = false) ∧
    (∃ (s : State), s.Sound ∧ s.cellarOn = false ∧ s.inKiln = true) ∧
    (∃ (s : State) (chan : Nat), s.Sound ∧ chan < s.variant.nchs ∧ s.rd (R.NCH_FAILS_PROGRAM chan) < 65535) ∧
    (∃ (s : State) (chan : Nat), s.Sound ∧ chan < s.variant.nchs ∧ s.rd (R.NCH_FAILS_PROGRAM chan) < 65535) ∧
    (∃ (s : State) (chan die : Nat), s.Sound ∧ chan < s.variant.nchs ∧ die < 16 ∧ s.cellar.deadDies.has (chan * 16 +
      die) = false) ∧
    (∃ (s : State) (chan : Nat), s.Sound ∧ chan < s.variant.nchs ∧ s.cellar.deadChans.has chan = false) :=
  ⟨⟨{ z with cellar := { z.cellar with groups := [({ id := 4, zone := .image, st := .closed, members := [(0, 0, 0)], cap := 16, erasedAt := 0, closedAt := 0, kilnUse := false, writtenAt := 0 } : Group)], flash := [(5, ({ index := 3, typ := 0, poison := 0, seq := 1, batch := 0, keyEpoch := 0, data := [] } : Codeword)), (16384, ({ index := 3, typ := 0, poison := 0, seq := 1, batch := 0, keyEpoch := 0, data := [] } : Codeword))] } }.wr
     R.STP_STAT_PHASE 4, 4,
     ({ id := 4, zone := .image, st := .closed, members := [(0, 0, 0)], cap := 16, erasedAt := 0, closedAt := 0, kilnUse := false, writtenAt := 0 }
     : Group), sound_of (by decide +kernel), by decide +kernel⟩,
   ⟨{ z with cellar := { z.cellar with groups := [({ id := 4, zone := .image, st := .closed, members := [(0, 0, 0)], cap := 16, erasedAt := 0, closedAt := 0, kilnUse := false, writtenAt := 0 } : Group)], flash := [(5, { index := 3, typ := 0, poison := 0, seq := 1, batch := 0, keyEpoch := 0, data := [] }), (16384, { index := 3, typ := 0, poison := 0, seq := 1, batch := 0, keyEpoch := 0, data := [] })] } }.wr
     R.STP_STAT_PHASE 4, 4,
     ({ id := 4, zone := .image, st := .closed, members := [(0, 0, 0)], cap := 16, erasedAt := 0, closedAt := 0, kilnUse := false, writtenAt := 0 }
     : Group), sound_of (by decide +kernel), by decide +kernel⟩,
   ⟨zk.wr R.KLN_STAT_STATE 15, sound_of (by decide +kernel), by decide +kernel⟩,
   ⟨{ z with dirty := { z.dirty with inflight := [({ granule := 7, phase := .prog, wrRead := false, wrProg := false, data := [], poison := 5, addr := 5, fence := 0, boost := false } : InFlight)] } },
     31, sound_of (by decide +kernel), by decide +kernel⟩,
   ⟨z, 31, sound_of (by decide +kernel), by decide +kernel⟩,
   ⟨{ z with variant := .e }, 15, 15, sound_of (by decide +kernel), by decide +kernel⟩,
   ⟨z, 31, sound_of (by decide +kernel), by decide +kernel⟩⟩

theorem witness_flashReadsEnd :
    (∃ (s : State) (a step : Nat), s.Sound ∧ s.cellarOn = true ∧ s.reach a step ≤ 9) ∧
    (∃ (s : State) (a g step : Nat), s.Sound ∧ s.cellarOn = true ∧ 9 < s.reach a step ∧ s.hasCopy g = true ∧ entAddr
      (s.entry g) = a ∧ s.unfilled g = false ∧ s.isDirty g = false) ∧
    (∃ (s : State) (a step : Nat), s.Sound ∧ s.cellarOn = true ∧ 9 < s.reach a step) ∧
    (∃ (s : State) (a step : Nat), s.Sound ∧ s.cellarOn = true ∧ 9 < s.reach a step) ∧
    (∃ (s : State) (a step : Nat), s.Sound ∧ s.cellarOn = true ∧ 9 < s.reach a step) ∧
    (∃ (s : State), s.Sound ∧ s.flashPatrolLate = true) ∧
    (∃ (s : State), s.Sound ∧ s.flashPatrolLate = false) ∧
    (∃ (s : State) (pct : Nat), s.Sound ∧ s.cellarOn = true ∧ s.works 0x70 = true ∧ pct < 100) ∧
    (∃ (s : State) (pct : Nat), s.Sound ∧ s.cellarOn = true ∧ s.works 0x70 = true ∧ 100 ≤ pct ∧ s.rd R.CEL_PATROL_PASSES
      < 65535) ∧
    (∃ (s : State), s.Sound ∧ s.cellarOn = true ∧ s.works 0x70 = true) :=
  ⟨⟨z.wr R.STP_STAT_PHASE 4, 5, 9, sound_of (by decide +kernel), by decide +kernel⟩,
   ⟨{ z with cellar := { z.cellar with map := [(7, mkEntry 1 false 5 3)] } }.wr R.STP_STAT_PHASE 4, 5, 7, 10, sound_of
     (by decide +kernel), by decide +kernel⟩,
   ⟨{ z with cellar := { z.cellar with map := [(7, mkEntry 1 false 5 3)] } }.wr R.STP_STAT_PHASE 4, 5, 10, sound_of
     (by decide +kernel), by decide +kernel⟩,
   ⟨z.wr R.STP_STAT_PHASE 4, 5, 10, sound_of (by decide +kernel), by decide +kernel⟩,
   ⟨{ z.wr R.STP_STAT_PHASE 4 with racking := { z.racking with guests := [({ slot := 3, owner := 5, gen := 9, fresh := true, lost := [(0, 1)], lastCommit := 0, held := [], size := 4 } : Guest)] } },
     5, 10, sound_of (by decide +kernel), by decide +kernel⟩,
   ⟨z.wr R.PHS_OPSEC 2000000, sound_of (by decide +kernel), by decide +kernel⟩,
   ⟨z, sound_of (by decide +kernel), by decide +kernel⟩,
   ⟨z.wr R.STP_STAT_PHASE 4, 99, sound_of (by decide +kernel), by decide +kernel⟩,
   ⟨z.wr R.STP_STAT_PHASE 4, 100, sound_of (by decide +kernel), by decide +kernel⟩,
   ⟨{ z with cellar := { z.cellar with map := [(7, mkEntry 1 false 5 3)] } }.wr R.STP_STAT_PHASE 4, sound_of
     (by decide +kernel), by decide +kernel⟩⟩

theorem witness_theMapIsFlushedScrubbedAndMoved :
    (∃ (s : State) (r a : Nat), s.Sound ∧ s.cellarOn = true ∧ (s.cellar.mapDirty.has r = true ∨ s.cellar.dirKiln.has r =
      true) ∧ s.placeFree a = true ∧ s.inImageZone a = true) ∧
    (∃ (s : State), s.Sound ∧ s.cellarOn = true ∧ s.works 0x70 = true ∧ s.corruptEntries = [] ∧ s.rd
      R.CEL_MAP_SCRUB_PASSES < 65535) ∧
    (∃ (s : State), s.Sound ∧ s.cellarOn = true ∧ s.works 0x70 = true ∧ s.rd R.CEL_MAP_SCRUB_PASSES < 65535) ∧
    (∃ (s : State) (g a step : Nat) (c : Codeword), s.Sound ∧ s.mayMove a = true ∧ entState (s.entry g) = 1 ∧ s.moveDue
      (entAddr (s.entry g)) = true ∧ s.copyOf g = some c ∧ s.reach (entAddr (s.entry g)) step ≤ 9) ∧
    (∃ (s : State) (r a step : Nat), s.Sound ∧ s.mayMove a = true ∧ s.cellar.dir.get r ≠ 0 ∧ s.moveDue (entAddr
      (s.cellar.dir.get r)) = true ∧ s.reach (entAddr (s.cellar.dir.get r)) step ≤ 9) ∧
    (∃ (s : State) (g a step : Nat) (c : Codeword), s.Sound ∧ s.mayMove a = true ∧ s.foldNext g = true ∧ s.copyOf g =
      some c ∧ s.reach (entAddr (s.entry g)) step ≤ 9) ∧
    (∃ (s : State), s.Sound ∧ s.cellarOn = true) ∧
    (∃ (s : State), s.Sound) ∧
    (∃ (s : State), s.Sound) :=
  ⟨⟨{ z with cellar := { z.cellar with mapDirty := [(3, 4)], deltas := 1048575, groups := [{ id := 4, zone := .image, st := .opened, members := [(0, 0, 0), (1, 0, 0)], cap := 16, erasedAt := 0, closedAt := 0, kilnUse := false, writtenAt := 0 }] } }.wr
     R.STP_STAT_PHASE 4 |>.wr (R.NCH_GEOM_PAGES 0) 1000, 3, 5, sound_of (by decide +kernel), by decide +kernel⟩,
   ⟨z.wr R.STP_STAT_PHASE 4, sound_of (by decide +kernel), by decide +kernel⟩,
   ⟨{ z.wr R.STP_STAT_PHASE 4 with cellar := { z.cellar with map := [(7, mkEntry 1 false 5 3), (9, mkEntry 1 false 6 3)], loaded := RSet.insert1 [] 0 } },
     sound_of (by decide +kernel), by decide +kernel⟩,
   ⟨{ z with cellar := { z.cellar with groups := [({ id := 4, zone := .image, st := .opened, members := [(0, 0, 0)], cap := 16, erasedAt := 0, closedAt := 0, kilnUse := false, writtenAt := 0 } : Group)], flash := [(5, ({ index := 7, typ := 0, poison := 3, seq := 9, batch := 0, keyEpoch := 0, data := [] } : Codeword))], map := [(7, mkEntry 1 true 5 9)], reloc := [(0, 0, 0)] } }.wr
     R.STP_STAT_PHASE 4 |>.wr (R.NCH_GEOM_PAGES 0) 1000, 7, 6, 0,
     ({ index := 7, typ := 0, poison := 3, seq := 9, batch := 0, keyEpoch := 0, data := [] } : Codeword), sound_of
     (by decide +kernel), by decide +kernel⟩,
   ⟨{ z with cellar := { z.cellar with groups := [{ id := 4, zone := .image, st := .opened, members := [(0, 0, 0), (1, 0, 0)], cap := 16, erasedAt := 0, closedAt := 0, kilnUse := false, writtenAt := 0 }], dir := [(7, mkEntry 0 true 5 9)], reloc := [(0, 0, 0)] } }.wr
     R.STP_STAT_PHASE 4 |>.wr (R.NCH_GEOM_PAGES 0) 1000, 7, 6, 0, sound_of (by decide +kernel), by decide +kernel⟩,
   ⟨{ z with cellar := { z.cellar with groups := [({ id := 4, zone := .image, st := .opened, members := [(0, 0, 0)], cap := 16, erasedAt := 0, closedAt := 0, kilnUse := false, writtenAt := 0 } : Group), ({ id := 5, zone := .kiln, st := .opened, members := [(1, 0, 0)], cap := 16, erasedAt := 0, closedAt := 0, kilnUse := false, writtenAt := 0 } : Group)], flash := [(5, ({ index := 7, typ := 0, poison := 3, seq := 9, batch := 0, keyEpoch := 0, data := [] } : Codeword)), (2 ^ 34, ({ index := 7, typ := 0, poison := 3, seq := 9, batch := 0, keyEpoch := 0, data := [] } : Codeword))], map := [(7, mkEntry 2 true (2 ^ 34) 9)] } }.wr
     R.STP_STAT_PHASE 4 |>.wr (R.NCH_GEOM_PAGES 0) 1000, 7, 6, 0,
     ({ index := 7, typ := 0, poison := 3, seq := 9, batch := 0, keyEpoch := 0, data := [] } : Codeword), sound_of
     (by decide +kernel), by decide +kernel⟩,
   ⟨{ z with cellar := { z.cellar with blocks := [({ chan := 0, die := 0, blk := 0, tlc := 1500, pslc := 0, reads := 0, bad := false, spare := false, rebuiltAt := 0, level := 0 } : Block)] } }.wr
     R.STP_STAT_PHASE 4, sound_of (by decide +kernel), by decide +kernel⟩,
   ⟨{ z with cellar := { z.cellar with blocks := [({ chan := 0, die := 0, blk := 0, tlc := 1500, pslc := 0, reads := 0, bad := false, spare := false, rebuiltAt := 0, level := 0 } : Block)] } }.wr
     R.STP_STAT_PHASE 4, sound_of (by decide +kernel)⟩,
   ⟨{ z with cellar := { z.cellar with used := 5, done := 6 } }, sound_of (by decide +kernel)⟩⟩

theorem witness_powerWarningsMoveTheController :
    (∃ (s : State), s.Calm ∧ s.power.life = .running ∧ s.rd R.KLN_STAT_STATE = 0 ∧ s.seq.prog = none) ∧
    (∃ (s : State), s.Sound ∧ s.power.life = .running ∧ s.inKiln = false ∧ s.kilnLive = false) ∧
    (∃ (s : State), s.Calm ∧ s.rd R.PWR_STAT_STATE = 0 ∧ s.rd R.KLN_STAT_STATE = 1 ∧ s.flag R.KLN_STAT_DEBOUNCE = false) ∧
    (∃ (s : State), s.Calm ∧ s.rd R.KLN_STAT_STATE = 2 ∧ s.power.belowWarn = false ∧ s.flag R.PHS_STAT_EW = false ∧
      s.kiln.goodFrom + 4 ≤ s.hc) ∧
    (∃ (s : State), s.Calm ∧ s.inKiln = false ∧ s.rd R.KLN_STAT_STATE ≠ 2) ∧
    (∃ (s : State), s.Calm ∧ s.rd R.KLN_STAT_STATE = 2) ∧
    (∃ (s : State) (a b c : Bool), s.Calm ∧ s.readiness a b c = 0 ∧ s.condAny 36 = false) ∧
    (∃ (s : State) (a b c : Bool), s.Sound ∧ s.readiness a b c ≠ 0) ∧
    (∃ (s : State) (who : Requester), s.Calm ∧ s.Writable who 0x42 ∧ s.rd R.KLN_STAT_STATE = 0 ∧ s.condAny 44 = false ∧
      s.ownerRuns 0x42 = true ∧ s.steepReady = true ∧ s.flag R.PHS_STAT_EW = false ∧ s.power.belowWarn = false ∧
      s.cal.deferred = false) ∧
    (∃ (s : State) (who : Requester), s.Calm ∧ s.Writable who 0x42 ∧ s.ownerRuns 0x42 = true ∧ s.maint.isOpen = false) :=
  ⟨⟨{ z with power := { z.power with life := .running, mainGood := true } }, calm_of (by decide +kernel),
     by decide +kernel⟩,
   ⟨{ z with power := { z.power with life := .running, mainGood := true }, seq := { z.seq with prog := some 3 } },
     sound_of (by decide +kernel), by decide +kernel⟩,
   ⟨z.wr R.KLN_STAT_STATE 1, calm_of (by decide +kernel), by decide +kernel⟩,
   ⟨(z.wr R.KLN_STAT_STATE 2).wr R.PHS_HC 4, calm_of (by decide +kernel), by decide +kernel⟩,
   ⟨z, calm_of (by decide +kernel), by decide +kernel⟩,
   ⟨(z.wr R.KLN_STAT_STATE 2).wr R.PHS_HC 4, calm_of (by decide +kernel), by decide +kernel⟩,
   ⟨{ (((((z.wr R.CAP_NCH_POP 1).wr (R.NCH_GEOM_PAGES 0) 1000).wr (R.SQP_DIR_LENGTH 2) 1).wr R.SQP_STAT_VALID 4).wr R.KLN_STAT_SLOT_READY 1) with cellar := { z.cellar with groups := [({ id := 4, zone := .kiln, st := .erased, members := [(0, 0, 0)], cap := 600000, erasedAt := 0, closedAt := 0, kilnUse := false, writtenAt := 0 } : Group)] }, packA := { z.packA with swAt := 1 } },
     true, true, true, calm_of (by decide +kernel), by decide +kernel⟩,
   ⟨z, true, true, true, sound_of (by decide +kernel), by decide +kernel⟩,
   ⟨((up z).wr R.KLN_CTRL_ARM 0).wr R.STP_STAT_PHASE 4, Requester.portA, calm_of (by decide +kernel), by decide +kernel⟩,
   ⟨up z, Requester.portA, calm_of (by decide +kernel), by decide +kernel⟩⟩

theorem witness_aKilnStarts :
    (∃ (s : State), s.Calm ∧ s.paged = true ∧ s.kilnLive = true ∧ s.rd R.PWR_STAT_STATE = 0 ∧ s.flag R.CAL_STAT_RUNNING
      = false ∧ s.flag R.KLN_TRIG_GROUP_TX = false ∧ s.recs.used.get 0x0102 < s.tlogRate ∧ 0 < s.rd R.BUD_I_KILN_CT_PER_S
      ∧ s.rd R.BUD_I_KILN_CT_PER_S < 2 ^ 20 ∧ 0 < s.rd R.BUD_E_COUNT_CT ∧ s.rd R.BUD_E_COUNT_CT < 2 ^ 24 ∧ s.rd
      R.PHS_CT_DRAWN < 2 ^ 47 ∧ s.windowW ≤ 50) ∧
    (∃ (s : State), s.Calm ∧ s.kilnLive = true ∧ s.rd R.PWR_STAT_STATE = 0 ∧ s.ewHc ≠ 0 ∧ s.flag R.PHS_STAT_EW = true ∧
      s.track.ewSince + s.ewHc ≤ s.hc ∧ s.flag R.CAL_STAT_RUNNING = false ∧ s.flag R.KLN_TRIG_GROUP_TX = false ∧
      s.recs.used.get 0x0102 < s.tlogRate ∧ 0 < s.rd R.BUD_I_KILN_CT_PER_S ∧ s.rd R.BUD_I_KILN_CT_PER_S < 2 ^ 20 ∧ 0 <
      s.rd R.BUD_E_COUNT_CT ∧ s.rd R.BUD_E_COUNT_CT < 2 ^ 24 ∧ s.rd R.PHS_CT_DRAWN < 2 ^ 47 ∧ s.windowW ≤ 50) ∧
    (∃ (s : State), s.Sound ∧ s.paged = true ∧ s.kilnLive = true ∧ s.rd R.PWR_STAT_STATE = 0) ∧
    (∃ (s : State), s.Sound ∧ s.kilnLive = true ∧ s.rd R.PWR_STAT_STATE = 0 ∧ s.ewHc ≠ 0 ∧ s.flag R.PHS_STAT_EW = true ∧
      s.track.ewSince + s.ewHc ≤ s.hc) :=
  ⟨⟨(((live z).wr R.KLN_STAT_STATE 1).wr R.BUD_I_KILN_CT_PER_S 4000).wr R.BUD_E_COUNT_CT 100000, calm_of
     (by decide +kernel), by decide +kernel⟩,
   ⟨(((((live z).wr R.KLN_STAT_STATE 2).wr R.BUD_I_KILN_CT_PER_S 4000).wr R.BUD_E_COUNT_CT 100000).wr R.PHS_STAT_EW
     1).wr R.PHS_HC 100, calm_of (by decide +kernel), by decide +kernel⟩,
   ⟨(live z).wr R.KLN_STAT_STATE 1, sound_of (by decide +kernel), by decide +kernel⟩,
   ⟨(((live z).wr R.KLN_STAT_STATE 2).wr R.PHS_STAT_EW 1).wr R.PHS_HC 100, sound_of (by decide +kernel),
     by decide +kernel⟩⟩

theorem witness_theKilnGoesThroughItsPhases :
    (∃ (s : State), s.KilnCalm ∧ s.rd R.KLN_STAT_STATE = 9 ∧ s.kiln.k2Force = false ∧ s.kiln.k2Wait ≠ [] ∧
      s.recs.used.get 0x0102 < s.tlogRate) ∧
    (∃ (s : State), s.Sound ∧ s.rd R.KLN_STAT_STATE = 9) ∧
    (∃ (s : State), s.Sound ∧ s.rd R.KLN_STAT_STATE = 9 ∧ s.kiln.pathDue = true) ∧
    (∃ (s : State), s.Sound ∧ s.inKiln = true ∧ s.kilnPhase ≤ 2 ∧ s.rd R.KLN_STAT_TRIGGER ≤ 2 ∧ s.flag
      R.KLN_STAT_DEBOUNCE = true ∧ s.kiln.goodFrom + 4 ≤ s.hc) ∧
    (∃ (s : State), s.Sound ∧ s.inKiln = true ∧ s.kiln.late = false) ∧
    (∃ (s : State), s.KilnCalm ∧ s.rd R.KLN_STAT_STATE = 15 ∧ s.power.mainGood = false ∧ s.seq.prog = none ∧
      s.variant.fabric = false ∧ s.kiln.late = true ∧ s.kiln.sealed = false) ∧
    (∃ (s : State), s.Sound ∧ s.rd R.KLN_STAT_STATE = 15 ∧ s.power.mainGood = false) ∧
    (∃ (s : State), s.Sound ∧ s.rd R.KLN_STAT_STATE = 15 ∧ s.power.mainGood = true ∧ s.kiln.p3Consent = false) ∧
    (∃ (s : State) (control : Bool), s.Sound ∧ s.inKiln = true ∧ (2 ≤ s.kiln.lowFrames ∨ control = true)) ∧
    (∃ (s : State), s.KilnCalm ∧ s.inKiln = true ∧ s.seq.prog = none ∧ s.variant.fabric = false ∧ s.rd R.SEQ_EN = 0) :=
  ⟨⟨{ zk.wr R.KLN_STAT_STATE 9 with kiln := { zk.kiln with k2Wait := [0] }, packA := { zk.packA with standby := true } },
     kilnCalm_of (by decide +kernel), by decide +kernel⟩,
   ⟨{ zk.wr R.KLN_STAT_STATE 9 with packA := { zk.packA with standby := true } }, sound_of (by decide +kernel),
     by decide +kernel⟩,
   ⟨{ zk.wr R.KLN_STAT_STATE 9 with kiln := { zk.kiln with pathDue := true } }, sound_of (by decide +kernel),
     by decide +kernel⟩,
   ⟨((zk.wr R.KLN_STAT_STATE 9).wr R.KLN_STAT_DEBOUNCE 1).wr R.PHS_HC 4, sound_of (by decide +kernel),
     by decide +kernel⟩,
   ⟨{ zk.wr R.KLN_STAT_STATE 9 with kiln := { zk.kiln with late := false } }, sound_of (by decide +kernel),
     by decide +kernel⟩,
   ⟨{ zk.wr R.KLN_STAT_STATE 15 with variant := .s }, kilnCalm_of (by decide +kernel), by decide +kernel⟩,
   ⟨{ zk.wr R.KLN_STAT_STATE 15 with variant := .s, kiln := { zk.kiln with sealed := true } }, sound_of
     (by decide +kernel), by decide +kernel⟩,
   ⟨{ zk.wr R.KLN_STAT_STATE 15 with variant := .s, power := { zk.power with mainGood := true } }, sound_of
     (by decide +kernel), by decide +kernel⟩,
   ⟨{ zk.wr R.KLN_STAT_STATE 12 with variant := .s, kiln := { zk.kiln with lowFrames := 2 } }, false, sound_of
     (by decide +kernel), by decide +kernel⟩,
   ⟨{ zk.wr R.KLN_STAT_STATE 12 with variant := .s }, kilnCalm_of (by decide +kernel), by decide +kernel⟩⟩

theorem witness_theDrainSavesAndSeals :
    (∃ (s : State), s.Sound ∧ s.rd R.KLN_STAT_STATE = 11) ∧
    (∃ (s : State), s.Sound ∧ s.rd R.KLN_STAT_STATE = 12) ∧
    (∃ (s : State), s.KilnCalm ∧ s.rd R.KLN_STAT_STATE = 12 ∧ s.kiln.late = true ∧ s.flag (R.PHS_CDL_FIRED 0) = false ∧
      s.recs.used.get 0x0102 < s.tlogRate ∧ s.seq.wait = .none ∧ 0 < s.kiln.iK ∧ s.kiln.iK < 2 ^ 20 ∧ s.rd R.KLN_REMAIN =
      1000000 ∧ s.kiln.v = 1000 ∧ s.rd R.PHS_CT_DRAWN < 2 ^ 47) ∧
    (∃ (s : State), s.Sound ∧ s.rd R.KLN_STAT_STATE = 13) ∧
    (∃ (s : State) (d : DrainSlot) (g : Nat), s.Sound ∧ s.rd R.KLN_STAT_STATE = 13 ∧ s.nextDrain d.chan = some g ∧
      s.isDirty g = true ∧ s.kiln.ordinals < s.kiln.capacity ∧ s.kilnPlace d.addr = true) ∧
    (∃ (s : State), s.KilnCalm ∧ s.rd R.KLN_STAT_STATE = 13 ∧ s.dirty.bits = [] ∧ s.kiln.late = true ∧ s.recs.used.get
      0x0102 < s.tlogRate ∧ s.safe.reports = [] ∧ 0 < s.kiln.iK ∧ s.kiln.iK < 2 ^ 20 ∧ s.rd R.PHS_CT_DRAWN < 2 ^ 47) ∧
    (∃ (s : State) (reason : Nat), s.Sound ∧ s.rd R.KLN_STAT_STATE = 13 ∧ s.drainOver reason = true) ∧
    (∃ (s : State) (a b lost : Bool), s.Sound ∧ s.rd R.KLN_STAT_STATE = 14 ∧ (a = true ∨ b = true) ∧ lost = false) ∧
    (∃ (s : State) (a b lost : Bool), s.Sound ∧ s.rd R.KLN_STAT_STATE = 14 ∧ ((a = false ∧ b = false) ∨ lost = true)) ∧
    (∃ (s : State), s.Sound ∧ s.rd R.KLN_STAT_STATE = 14 ∧ s.nextSlot = 0) ∧
    (∃ (s : State), s.Sound ∧ s.rd R.KLN_STAT_STATE = 14 ∧ s.nextSlot ≠ 0) ∧
    (∃ (s : State), s.Sound ∧ s.rd R.KLN_STAT_STATE = 14) :=
  ⟨⟨{ zk.wr R.KLN_STAT_STATE 11 with dirty := { zk.dirty with bits := [(1, 3)], inflight := [{ granule := 7, phase := .prog, wrRead := false, wrProg := true, data := [], poison := 5, addr := 4096, fence := 0, boost := false }] } },
     sound_of (by decide +kernel), by decide +kernel⟩,
   ⟨{ zk.wr R.KLN_STAT_STATE 12 with kiln := { zk.kiln with iK := 4000, dK3 := 7, v := 3 } }, sound_of
     (by decide +kernel), by decide +kernel⟩,
   ⟨{ (zk.wr R.KLN_STAT_STATE 12).wr R.KLN_REMAIN 1000000 with kiln := { zk.kiln with iK := 4000, v := 1000 } },
     kilnCalm_of (by decide +kernel), by decide +kernel⟩,
   ⟨{ zk.wr R.KLN_STAT_STATE 13 |>.wr (R.NCH_GEOM_PAGES 0) 1000 with dirty := { zk.dirty with bits := [(1, 3), (16, 20)] }, kiln := { zk.kiln with capacity := 9 }, cellar := { zk.cellar with groups := [{ id := 4, zone := .kiln, st := .erased, members := [(0, 0, 0)], cap := 16, erasedAt := 0, closedAt := 0, kilnUse := false, writtenAt := 0 }] } },
     sound_of (by decide +kernel), by decide +kernel⟩,
   ⟨{ zk.wr R.KLN_STAT_STATE 13 |>.wr (R.NCH_GEOM_PAGES 0) 1000 with dirty := { zk.dirty with bits := [(1, 3)] }, kiln := { zk.kiln with capacity := 9 }, cellar := { zk.cellar with groups := [({ id := 4, zone := .kiln, st := .erased, members := [(0, 0, 0), (1, 0, 0)], cap := 16, erasedAt := 0, closedAt := 0, kilnUse := false, writtenAt := 0 } : Group)] } },
     ({ chan := 0, addr := 5 } : DrainSlot), 1, sound_of (by decide +kernel), by decide +kernel⟩,
   ⟨{ zk.wr R.KLN_STAT_STATE 13 with kiln := { zk.kiln with iK := 4000 } }, kilnCalm_of (by decide +kernel),
     by decide +kernel⟩,
   ⟨{ zk.wr R.KLN_STAT_STATE 13 with kiln := { zk.kiln with iK := 4000, floored := true }, dirty := { zk.dirty with bits := [(1, 3)] } },
     2, sound_of (by decide +kernel), by decide +kernel⟩,
   ⟨zk.wr R.KLN_STAT_STATE 14, true, false, false, sound_of (by decide +kernel), by decide +kernel⟩,
   ⟨zk.wr R.KLN_STAT_STATE 14, true, false, true, sound_of (by decide +kernel), by decide +kernel⟩,
   ⟨zk.wr R.KLN_STAT_STATE 14, sound_of (by decide +kernel), by decide +kernel⟩,
   ⟨(zk.wr R.KLN_STAT_STATE 14).wr R.KLN_STAT_NEXT_SLOT 1, sound_of (by decide +kernel), by decide +kernel⟩,
   ⟨zk.wr R.KLN_STAT_STATE 14, sound_of (by decide +kernel), by decide +kernel⟩⟩

theorem witness_persistQueuesTakeCommands :
    (∃ (s : State) (port q tail : Nat), s.Calm ∧ s.ReachesQueue port q ∧ (s.queue q).en = true ∧ tail < (s.queue
      q).sqDepth ∧ tail < 65536) ∧
    (∃ (s : State) (port q tail : Nat), s.Sound ∧ s.ReachesQueue port q ∧ (s.queue q).en = true ∧ (s.queue q).sqDepth ≤
      tail ∧ tail < 65536) ∧
    (∃ (s : State) (port q head : Nat), s.Calm ∧ s.ReachesQueue port q ∧ (s.queue q).en = true ∧ head < (s.queue
      q).cqDepth ∧ head < 65536) ∧
    (∃ (s : State) (port q : Nat), s.Calm ∧ s.ReachesQueue port q ∧ (s.queue q).en = false ∧ s.steepReady = true ∧
      s.flag (R.ENABLE 0x80) = true ∧ (s.queue q).running = false ∧ s.mayEnable port q = true) ∧
    (∃ (s : State) (port q : Nat), s.Calm ∧ s.ReachesQueue port q ∧ (s.queue q).en = true) ∧
    (∃ (s : State) (port q : Nat), s.Calm ∧ s.ReachesQueue port q) ∧
    (∃ (s : State) (cls q : Nat) (fresh : Bool), s.Calm ∧ s.portsAlive = true ∧ s.flag (R.ENABLE 0x80) = true ∧
      s.arbitrate = some (cls, q, fresh)) ∧
    (∃ (s : State) (q : Nat), s.Sound ∧ (s.queue q).en = true) ∧
    (∃ (s : State) (q cid st : Nat) (k : RunCmd), s.Calm ∧ (s.queue q).cmds.find? (fun k => k.cid == cid &&
      k.status.isSome) = some k ∧ k.status = some st ∧ k.opcode ≠ 1 ∧ s.portsAlive = true ∧ (s.queue q).fault = false ∧
      (s.queue q).cqRoom = true ∧ (s.queue q).held = []) ∧
    (∃ (s : State) (q cid st : Nat) (k : RunCmd), s.Sound ∧ (s.queue q).cmds.find? (fun k => k.cid == cid &&
      k.status.isSome) = some k ∧ k.status = some st ∧ s.portsAlive = true ∧ (s.queue q).fault = false) ∧
    (∃ (s : State) (port vec : Nat), s.Calm ∧ port < 2 ∧ vec < 2048 ∧ s.rd R.PQE_COAL_US ≠ 0 ∧ s.queues.pendVec.get
      (port * 2048 + vec) ≠ 0) ∧
    (∃ (s : State) (q : Nat), s.Sound ∧ (s.queue q).cqFull = true) ∧
    (∃ (s : State) (q : Nat), s.Calm ∧ (s.queue q).en = true ∧ (s.queue q).fault = false ∧ (s.queue q).sqHead = (s.queue
      q).sqTail) :=
  ⟨⟨{ up ((z.wr R.STP_STAT_PHASE 4).wr (R.HP_LINK_STAT_UP 0) 1) with queues := { z.queues with list := [{ q := 3, en := true, owner := 1, running := true, sqLog2 := 4, cqLog2 := 4 }] } },
     0, 3, 5, calm_of (by decide +kernel), by decide +kernel⟩,
   ⟨{ up ((z.wr R.STP_STAT_PHASE 4).wr (R.HP_LINK_STAT_UP 0) 1) with queues := { z.queues with list := [{ q := 3, en := true, owner := 1, running := true, sqLog2 := 4, cqLog2 := 4 }] } },
     0, 3, 16, sound_of (by decide +kernel), by decide +kernel⟩,
   ⟨{ up ((z.wr R.STP_STAT_PHASE 4).wr (R.HP_LINK_STAT_UP 0) 1) with queues := { z.queues with list := [{ q := 3, en := true, owner := 1, running := true, sqLog2 := 4, cqLog2 := 4, cqTail := 9 }] } },
     0, 3, 5, calm_of (by decide +kernel), by decide +kernel⟩,
   ⟨{ up ((z.wr R.STP_STAT_PHASE 4).wr (R.HP_LINK_STAT_UP 0) 1) with queues := { z.queues with list := [{ q := 3, sqTail := 7, owner := 1, intRec := some { queue := 3, cid := 5, opcode := 1, status := 1, offset := 0, element := 0, later := 0, laterOvf := false, addr := 0, count := 9, kiln := true, sqIdx := 0 }, postDue := true }] } },
     0, 3, calm_of (by decide +kernel), by decide +kernel⟩,
   ⟨{ up ((z.wr R.STP_STAT_PHASE 4).wr (R.HP_LINK_STAT_UP 0) 1) with queues := { z.queues with list := [{ q := 3, en := true, owner := 1, running := true, sqLog2 := 4, cqLog2 := 4 }] } },
     0, 3, calm_of (by decide +kernel), by decide +kernel⟩,
   ⟨{ up ((z.wr R.STP_STAT_PHASE 4).wr (R.HP_LINK_STAT_UP 0) 1) with queues := { z.queues with list := [{ q := 3, sqTail := 7, owner := 1, intRec := some { queue := 3, cid := 5, opcode := 1, status := 1, offset := 0, element := 0, later := 0, laterOvf := false, addr := 0, count := 9, kiln := true, sqIdx := 0 }, postDue := true }] } },
     0, 3, calm_of (by decide +kernel), by decide +kernel⟩,
   ⟨{ up ((z.wr R.STP_STAT_PHASE 4).wr (R.HP_LINK_STAT_UP 0) 1) with queues := { z.queues with list := [{ q := 3, en := true, owner := 1, running := true, sqLog2 := 4, cqLog2 := 4, sqTail := 2 }] } },
     4, 3, true, calm_of (by decide +kernel), by decide +kernel⟩,
   ⟨{ up ((z.wr R.STP_STAT_PHASE 4).wr (R.HP_LINK_STAT_UP 0) 1) with queues := { z.queues with list := [{ q := 3, en := true, owner := 1, running := true, sqLog2 := 4, cqLog2 := 4 }] } },
     3, sound_of (by decide +kernel), by decide +kernel⟩,
   ⟨{ up ((z.wr R.STP_STAT_PHASE 4).wr (R.HP_LINK_STAT_UP 0) 1) with queues := { z.queues with list := [{ q := 3, en := true, owner := 1, running := true, sqLog2 := 4, cqLog2 := 4, cmds := [({ cid := 7, sqIdx := 0, sqAfter := 1, elems := [({ opcode := 0, irq := false, order := false, chain := false, cid := 7, param := 0, addr := 32768, addr2 := 0, count := 4, offset := 0, reservedZero := true } : Desc)], started := true, status := some 0 } : RunCmd)] }] } },
     3, 7, 0,
     ({ cid := 7, sqIdx := 0, sqAfter := 1, elems := [({ opcode := 0, irq := false, order := false, chain := false, cid := 7, param := 0, addr := 32768, addr2 := 0, count := 4, offset := 0, reservedZero := true } : Desc)], started := true, status := some 0 }
     : RunCmd), calm_of (by decide +kernel), by decide +kernel⟩,
   ⟨{ up ((z.wr R.STP_STAT_PHASE 4).wr (R.HP_LINK_STAT_UP 0) 1) with queues := { z.queues with list := [{ q := 3, en := true, owner := 1, running := true, sqLog2 := 4, cqLog2 := 4, cmds := [({ cid := 7, sqIdx := 0, sqAfter := 1, elems := [({ opcode := 1, irq := true, order := false, chain := false, cid := 7, param := 0, addr := 32768, addr2 := 0, count := 4, offset := 0, reservedZero := true } : Desc)], started := true, status := some 0 } : RunCmd)] }] } },
     3, 7, 0,
     ({ cid := 7, sqIdx := 0, sqAfter := 1, elems := [({ opcode := 1, irq := true, order := false, chain := false, cid := 7, param := 0, addr := 32768, addr2 := 0, count := 4, offset := 0, reservedZero := true } : Desc)], started := true, status := some 0 }
     : RunCmd), sound_of (by decide +kernel), by decide +kernel⟩,
   ⟨{ z.wr R.PQE_COAL_US 5 with queues := { z.queues with pendVec := [(2056, 2)] } }, 1, 8, calm_of (by decide +kernel),
     by decide +kernel⟩,
   ⟨{ up ((z.wr R.STP_STAT_PHASE 4).wr (R.HP_LINK_STAT_UP 0) 1) with queues := { z.queues with list := [{ q := 3, en := true, owner := 1, running := true, sqLog2 := 4, cqLog2 := 4, cqFull := true }] } },
     3, sound_of (by decide +kernel), by decide +kernel⟩,
   ⟨{ up ((z.wr R.STP_STAT_PHASE 4).wr (R.HP_LINK_STAT_UP 0) 1) with queues := { z.queues with list := [{ q := 3, en := true, owner := 1, running := true, sqLog2 := 4, cqLog2 := 4, cmds := [({ cid := 7, sqIdx := 0, sqAfter := 1, elems := [({ opcode := 0, irq := false, order := false, chain := false, cid := 7, param := 0, addr := 32768, addr2 := 0, count := 4, offset := 0, reservedZero := true } : Desc)], started := true, more := true } : RunCmd)] }] } },
     3, calm_of (by decide +kernel), by decide +kernel⟩⟩

theorem witness_persistCommandsDoTheirWork :
    (∃ (s : State) (q cid : Nat) (k : RunCmd) (d : Desc), s.Calm ∧ s.WorksOn q cid 0 k d) ∧
    (∃ (s : State) (q cid : Nat) (k : RunCmd) (d : Desc), s.Calm ∧ s.WorksOn q cid 1 k d ∧ k.covering = false) ∧
    (∃ (s : State) (q cid : Nat) (k : RunCmd) (d : Desc), s.Sound ∧ s.WorksOn q cid 1 k d ∧ k.covering = true) ∧
    (∃ (s : State) (q cid n : Nat) (k : RunCmd) (d : Desc) (full : List Nat), s.Sound ∧ s.WorksOn q cid 4 k d ∧
      ((List.range (min n (d.count - k.progress))).all (fun i => !s.unfilled (d.addr2 / 4096 + k.progress + i))) = true ∧
      full.all (fun g => !s.setHolds full g) = true) ∧
    (∃ (s : State) (q cid n : Nat) (k : RunCmd) (d : Desc) (full : List Nat), s.Sound ∧ s.WorksOn q cid 4 k d ∧
      ((List.range (min n (d.count - k.progress))).all (fun i => !s.unfilled (d.addr2 / 4096 + k.progress + i))) = true ∧
      (d.addr2 / 4096 + d.count ≤ d.base ∨ d.base + d.count ≤ d.addr2 / 4096) ∧ full.all (fun g => !s.setHolds full g) =
      true) ∧
    (∃ (s : State) (q cid : Nat) (k : RunCmd) (d : Desc) (full : List Nat), s.Calm ∧ s.WorksOn q cid 4 k d ∧ k.progress
      < d.count ∧ s.unfilled (d.addr2 / 4096 + k.progress) = false ∧ s.inVol (d.base + k.progress) = false ∧ full.all (fun
      g => !s.setHolds full g) = true) ∧
    (∃ (s : State) (q cid : Nat) (k : RunCmd) (d : Desc) (full : List Nat), s.Sound ∧ s.WorksOn q cid 5 k d ∧ full.all
      (fun g => !s.setHolds full g) = true) ∧
    (∃ (s : State) (q cid : Nat) (k : RunCmd) (d : Desc) (full : List Nat), s.Calm ∧ s.WorksOn q cid 5 k d ∧ k.progress
      < d.count ∧ s.inVol (d.base + k.progress) = false ∧ full.all (fun g => !s.setHolds full g) = true) ∧
    (∃ (s : State) (q cid n : Nat) (k : RunCmd) (d : Desc) (full : List Nat), s.Sound ∧ s.WorksOn q cid 5 k d ∧
      k.progress < d.count ∧ 0 < n ∧ s.setHolds full (d.base + k.progress) = true) ∧
    (∃ (s : State) (q cid : Nat) (k : RunCmd) (d : Desc), s.Calm ∧ s.WorksOn q cid 6 k d ∧ (pinTable s.queues.pins
      d).length ≤ 1024) ∧
    (∃ (s : State) (q cid : Nat) (k : RunCmd) (d : Desc), s.Calm ∧ s.WorksOn q cid 7 k d ∧ k.progress < d.count) ∧
    (∃ (s : State) (q cid : Nat) (k : RunCmd) (d : Desc), s.Sound ∧ s.WorksOn q cid 7 k d) ∧
    (∃ (s : State) (q cid : Nat) (k : RunCmd) (d : Desc), s.Calm ∧ s.WorksOn q cid 8 k d ∧ d.param % 2 = 0) ∧
    (∃ (s : State) (q cid : Nat) (k : RunCmd) (d : Desc), s.Sound ∧ s.WorksOn q cid 8 k d) ∧
    (∃ (s : State) (q cid : Nat) (k : RunCmd) (d : Desc), s.Calm ∧ s.WorksOn q cid 9 k d ∧ d.param % 2 = 1 ∧
      (s.dirty.vol.add (d.addr / (granuleBytes * granulesPerRegion) + d.offset) (d.addr / (granuleBytes *
      granulesPerRegion) + d.count)).length ≤ 256) ∧
    (∃ (s : State) (q cid : Nat) (k : RunCmd) (d : Desc), s.Calm ∧ s.WorksOn q cid 10 k d) ∧
    (∃ (s : State) (q cid : Nat) (k : RunCmd) (d : Desc), s.Sound ∧ s.WorksOn q cid 10 k d) :=
  ⟨⟨{ up ((z.wr R.STP_STAT_PHASE 4).wr (R.HP_LINK_STAT_UP 0) 1) with queues := { z.queues with list := [{ q := 3, en := true, owner := 1, running := true, sqLog2 := 4, cqLog2 := 4, cmds := [({ cid := 7, sqIdx := 0, sqAfter := 1, elems := [({ opcode := 0, irq := false, order := false, chain := false, cid := 7, param := 0, addr := 32768, addr2 := 0, count := 4, offset := 0, reservedZero := true } : Desc)], started := true } : RunCmd)] }] } },
     3, 7,
     ({ cid := 7, sqIdx := 0, sqAfter := 1, elems := [({ opcode := 0, irq := false, order := false, chain := false, cid := 7, param := 0, addr := 32768, addr2 := 0, count := 4, offset := 0, reservedZero := true } : Desc)], started := true }
     : RunCmd),
     ({ opcode := 0, irq := false, order := false, chain := false, cid := 7, param := 0, addr := 32768, addr2 := 0, count := 4, offset := 0, reservedZero := true }
     : Desc), calm_of (by decide +kernel), by decide +kernel⟩,
   ⟨{ up ((z.wr R.STP_STAT_PHASE 4).wr (R.HP_LINK_STAT_UP 0) 1) with dirty := { z.dirty with bits := [(9, 11)] }, queues := { z.queues with list := [{ q := 3, en := true, owner := 1, running := true, sqLog2 := 4, cqLog2 := 4, cmds := [({ cid := 7, sqIdx := 0, sqAfter := 1, elems := [({ opcode := 1, irq := false, order := false, chain := false, cid := 7, param := 0, addr := 32768, addr2 := 0, count := 4, offset := 0, reservedZero := true } : Desc)], started := true } : RunCmd)] }] } },
     3, 7,
     ({ cid := 7, sqIdx := 0, sqAfter := 1, elems := [({ opcode := 1, irq := false, order := false, chain := false, cid := 7, param := 0, addr := 32768, addr2 := 0, count := 4, offset := 0, reservedZero := true } : Desc)], started := true }
     : RunCmd),
     ({ opcode := 1, irq := false, order := false, chain := false, cid := 7, param := 0, addr := 32768, addr2 := 0, count := 4, offset := 0, reservedZero := true }
     : Desc), calm_of (by decide +kernel), by decide +kernel⟩,
   ⟨{ up ((z.wr R.STP_STAT_PHASE 4).wr (R.HP_LINK_STAT_UP 0) 1) with queues := { z.queues with list := [{ q := 3, en := true, owner := 1, running := true, sqLog2 := 4, cqLog2 := 4, cmds := [({ cid := 7, sqIdx := 0, sqAfter := 1, elems := [({ opcode := 1, irq := false, order := false, chain := false, cid := 7, param := 0, addr := 32768, addr2 := 0, count := 4, offset := 0, reservedZero := true } : Desc)], started := true, covering := true } : RunCmd)] }] } },
     3, 7,
     ({ cid := 7, sqIdx := 0, sqAfter := 1, elems := [({ opcode := 1, irq := false, order := false, chain := false, cid := 7, param := 0, addr := 32768, addr2 := 0, count := 4, offset := 0, reservedZero := true } : Desc)], started := true, covering := true }
     : RunCmd),
     ({ opcode := 1, irq := false, order := false, chain := false, cid := 7, param := 0, addr := 32768, addr2 := 0, count := 4, offset := 0, reservedZero := true }
     : Desc), sound_of (by decide +kernel), by decide +kernel⟩,
   ⟨{ up ((z.wr R.STP_STAT_PHASE 4).wr (R.HP_LINK_STAT_UP 0) 1) with dram := { z.dram with mem := [(4096 * 32 + 5, 9)] }, queues := { z.queues with list := [{ q := 3, en := true, owner := 1, running := true, sqLog2 := 4, cqLog2 := 4, cmds := [({ cid := 7, sqIdx := 0, sqAfter := 1, elems := [({ opcode := 4, irq := false, order := false, chain := false, cid := 7, param := 0, addr := 32768, addr2 := 131072, count := 4, offset := 0, reservedZero := true } : Desc)], started := true } : RunCmd)] }] } },
     3, 7, 3,
     ({ cid := 7, sqIdx := 0, sqAfter := 1, elems := [({ opcode := 4, irq := false, order := false, chain := false, cid := 7, param := 0, addr := 32768, addr2 := 131072, count := 4, offset := 0, reservedZero := true } : Desc)], started := true }
     : RunCmd),
     ({ opcode := 4, irq := false, order := false, chain := false, cid := 7, param := 0, addr := 32768, addr2 := 131072, count := 4, offset := 0, reservedZero := true }
     : Desc), [5, 9], sound_of (by decide +kernel), by decide +kernel⟩,
   ⟨{ up ((z.wr R.STP_STAT_PHASE 4).wr (R.HP_LINK_STAT_UP 0) 1) with dram := { z.dram with mem := [(4096 * 32 + 5, 9), (4096 * 33 + 5, 8)], poison := [(33 * 64, 33 * 64 + 2)] }, queues := { z.queues with list := [{ q := 3, en := true, owner := 1, running := true, sqLog2 := 4, cqLog2 := 4, cmds := [({ cid := 7, sqIdx := 0, sqAfter := 1, elems := [({ opcode := 4, irq := false, order := false, chain := false, cid := 7, param := 0, addr := 32768, addr2 := 131072, count := 4, offset := 0, reservedZero := true } : Desc)], started := true } : RunCmd)] }] } },
     3, 7, 3,
     ({ cid := 7, sqIdx := 0, sqAfter := 1, elems := [({ opcode := 4, irq := false, order := false, chain := false, cid := 7, param := 0, addr := 32768, addr2 := 131072, count := 4, offset := 0, reservedZero := true } : Desc)], started := true }
     : RunCmd),
     ({ opcode := 4, irq := false, order := false, chain := false, cid := 7, param := 0, addr := 32768, addr2 := 131072, count := 4, offset := 0, reservedZero := true }
     : Desc), [5, 9], sound_of (by decide +kernel), by decide +kernel⟩,
   ⟨{ up ((z.wr R.STP_STAT_PHASE 4).wr (R.HP_LINK_STAT_UP 0) 1) with dram := { z.dram with mem := [(4096 * 32 + 5, 9)] }, queues := { z.queues with list := [{ q := 3, en := true, owner := 1, running := true, sqLog2 := 4, cqLog2 := 4, cmds := [({ cid := 7, sqIdx := 0, sqAfter := 1, elems := [({ opcode := 4, irq := false, order := false, chain := false, cid := 7, param := 0, addr := 32768, addr2 := 131072, count := 4, offset := 0, reservedZero := true } : Desc)], started := true } : RunCmd)] }] } },
     3, 7,
     ({ cid := 7, sqIdx := 0, sqAfter := 1, elems := [({ opcode := 4, irq := false, order := false, chain := false, cid := 7, param := 0, addr := 32768, addr2 := 131072, count := 4, offset := 0, reservedZero := true } : Desc)], started := true }
     : RunCmd),
     ({ opcode := 4, irq := false, order := false, chain := false, cid := 7, param := 0, addr := 32768, addr2 := 131072, count := 4, offset := 0, reservedZero := true }
     : Desc), [5, 9], calm_of (by decide +kernel), by decide +kernel⟩,
   ⟨{ up ((z.wr R.STP_STAT_PHASE 4).wr (R.HP_LINK_STAT_UP 0) 1) with dram := { z.dram with mem := [(4096 * 8 + 5, 9), (4096 * 9 + 5, 9)] }, queues := { z.queues with list := [{ q := 3, en := true, owner := 1, running := true, sqLog2 := 4, cqLog2 := 4, cmds := [({ cid := 7, sqIdx := 0, sqAfter := 1, elems := [({ opcode := 5, irq := false, order := false, chain := false, cid := 7, param := 0, addr := 32768, addr2 := 0, count := 4, offset := 0, reservedZero := true } : Desc)], started := true } : RunCmd)] }] } },
     3, 7,
     ({ cid := 7, sqIdx := 0, sqAfter := 1, elems := [({ opcode := 5, irq := false, order := false, chain := false, cid := 7, param := 0, addr := 32768, addr2 := 0, count := 4, offset := 0, reservedZero := true } : Desc)], started := true }
     : RunCmd),
     ({ opcode := 5, irq := false, order := false, chain := false, cid := 7, param := 0, addr := 32768, addr2 := 0, count := 4, offset := 0, reservedZero := true }
     : Desc), [5, 9], sound_of (by decide +kernel), by decide +kernel⟩,
   ⟨{ up ((z.wr R.STP_STAT_PHASE 4).wr (R.HP_LINK_STAT_UP 0) 1) with dram := { z.dram with mem := [(4096 * 8 + 5, 9)] }, queues := { z.queues with list := [{ q := 3, en := true, owner := 1, running := true, sqLog2 := 4, cqLog2 := 4, cmds := [({ cid := 7, sqIdx := 0, sqAfter := 1, elems := [({ opcode := 5, irq := false, order := false, chain := false, cid := 7, param := 0, addr := 32768, addr2 := 0, count := 4, offset := 0, reservedZero := true } : Desc)], started := true } : RunCmd)] }] } },
     3, 7,
     ({ cid := 7, sqIdx := 0, sqAfter := 1, elems := [({ opcode := 5, irq := false, order := false, chain := false, cid := 7, param := 0, addr := 32768, addr2 := 0, count := 4, offset := 0, reservedZero := true } : Desc)], started := true }
     : RunCmd),
     ({ opcode := 5, irq := false, order := false, chain := false, cid := 7, param := 0, addr := 32768, addr2 := 0, count := 4, offset := 0, reservedZero := true }
     : Desc), [5, 9], calm_of (by decide +kernel), by decide +kernel⟩,
   ⟨{ up ((z.wr R.STP_STAT_PHASE 4).wr (R.HP_LINK_STAT_UP 0) 1) with steep := { z.steep with unfilled := [(8, 9)] }, dram := { z.dram with mem := [(4096 * 8 + 5, 9)] }, queues := { z.queues with list := [{ q := 3, en := true, owner := 1, running := true, sqLog2 := 4, cqLog2 := 4, cmds := [({ cid := 7, sqIdx := 0, sqAfter := 1, elems := [({ opcode := 5, irq := false, order := false, chain := false, cid := 7, param := 0, addr := 32768, addr2 := 0, count := 4, offset := 0, reservedZero := true } : Desc)], started := true } : RunCmd)] }] } },
     3, 7, 2,
     ({ cid := 7, sqIdx := 0, sqAfter := 1, elems := [({ opcode := 5, irq := false, order := false, chain := false, cid := 7, param := 0, addr := 32768, addr2 := 0, count := 4, offset := 0, reservedZero := true } : Desc)], started := true }
     : RunCmd),
     ({ opcode := 5, irq := false, order := false, chain := false, cid := 7, param := 0, addr := 32768, addr2 := 0, count := 4, offset := 0, reservedZero := true }
     : Desc), [8], sound_of (by decide +kernel), by decide +kernel⟩,
   ⟨{ up ((z.wr R.STP_STAT_PHASE 4).wr (R.HP_LINK_STAT_UP 0) 1) with queues := { z.queues with list := [{ q := 3, en := true, owner := 1, running := true, sqLog2 := 4, cqLog2 := 4, cmds := [({ cid := 7, sqIdx := 0, sqAfter := 1, elems := [({ opcode := 6, irq := false, order := false, chain := false, cid := 7, param := 3, addr := 2097152, addr2 := 0, count := 4, offset := 0, reservedZero := true } : Desc)], started := true } : RunCmd)] }] } },
     3, 7,
     ({ cid := 7, sqIdx := 0, sqAfter := 1, elems := [({ opcode := 6, irq := false, order := false, chain := false, cid := 7, param := 3, addr := 2097152, addr2 := 0, count := 4, offset := 0, reservedZero := true } : Desc)], started := true }
     : RunCmd),
     ({ opcode := 6, irq := false, order := false, chain := false, cid := 7, param := 3, addr := 2097152, addr2 := 0, count := 4, offset := 0, reservedZero := true }
     : Desc), calm_of (by decide +kernel), by decide +kernel⟩,
   ⟨{ up ((z.wr R.STP_STAT_PHASE 4).wr (R.HP_LINK_STAT_UP 0) 1) with queues := { z.queues with list := [{ q := 3, en := true, owner := 1, running := true, sqLog2 := 4, cqLog2 := 4, cmds := [({ cid := 7, sqIdx := 0, sqAfter := 1, elems := [({ opcode := 7, irq := false, order := false, chain := false, cid := 7, param := 100, addr := 2097152, addr2 := 0, count := 4, offset := 0, reservedZero := true } : Desc)], started := true } : RunCmd)] }] } },
     3, 7,
     ({ cid := 7, sqIdx := 0, sqAfter := 1, elems := [({ opcode := 7, irq := false, order := false, chain := false, cid := 7, param := 100, addr := 2097152, addr2 := 0, count := 4, offset := 0, reservedZero := true } : Desc)], started := true }
     : RunCmd),
     ({ opcode := 7, irq := false, order := false, chain := false, cid := 7, param := 100, addr := 2097152, addr2 := 0, count := 4, offset := 0, reservedZero := true }
     : Desc), calm_of (by decide +kernel), by decide +kernel⟩,
   ⟨{ up ((z.wr R.STP_STAT_PHASE 4).wr (R.HP_LINK_STAT_UP 0) 1) with queues := { z.queues with list := [{ q := 3, en := true, owner := 1, running := true, sqLog2 := 4, cqLog2 := 4, cmds := [({ cid := 7, sqIdx := 0, sqAfter := 1, elems := [({ opcode := 7, irq := false, order := false, chain := false, cid := 7, param := 100, addr := 2097152, addr2 := 0, count := 4, offset := 0, reservedZero := true } : Desc)], started := true } : RunCmd)] }] } },
     3, 7,
     ({ cid := 7, sqIdx := 0, sqAfter := 1, elems := [({ opcode := 7, irq := false, order := false, chain := false, cid := 7, param := 100, addr := 2097152, addr2 := 0, count := 4, offset := 0, reservedZero := true } : Desc)], started := true }
     : RunCmd),
     ({ opcode := 7, irq := false, order := false, chain := false, cid := 7, param := 100, addr := 2097152, addr2 := 0, count := 4, offset := 0, reservedZero := true }
     : Desc), sound_of (by decide +kernel), by decide +kernel⟩,
   ⟨{ up ((z.wr R.STP_STAT_PHASE 4).wr (R.HP_LINK_STAT_UP 0) 1) with dirty := { z.dirty with bits := [(8, 11)] }, queues := { z.queues with list := [{ q := 3, en := true, owner := 1, running := true, sqLog2 := 4, cqLog2 := 4, cmds := [({ cid := 7, sqIdx := 0, sqAfter := 1, elems := [({ opcode := 8, irq := false, order := false, chain := false, cid := 7, param := 0, addr := 32768, addr2 := 0, count := 4, offset := 0, reservedZero := true } : Desc)], started := true } : RunCmd)] }] } },
     3, 7,
     ({ cid := 7, sqIdx := 0, sqAfter := 1, elems := [({ opcode := 8, irq := false, order := false, chain := false, cid := 7, param := 0, addr := 32768, addr2 := 0, count := 4, offset := 0, reservedZero := true } : Desc)], started := true }
     : RunCmd),
     ({ opcode := 8, irq := false, order := false, chain := false, cid := 7, param := 0, addr := 32768, addr2 := 0, count := 4, offset := 0, reservedZero := true }
     : Desc), calm_of (by decide +kernel), by decide +kernel⟩,
   ⟨{ up ((z.wr R.STP_STAT_PHASE 4).wr (R.HP_LINK_STAT_UP 0) 1) with dirty := { z.dirty with bits := [(8, 11)] }, cellar := { z.cellar with map := [(9, mkEntry 1 false 5 3)] }, queues := { z.queues with list := [{ q := 3, en := true, owner := 1, running := true, sqLog2 := 4, cqLog2 := 4, cmds := [({ cid := 7, sqIdx := 0, sqAfter := 1, elems := [({ opcode := 8, irq := false, order := false, chain := false, cid := 7, param := 1, addr := 32768, addr2 := 0, count := 4, offset := 0, reservedZero := true } : Desc)], started := true } : RunCmd)] }] } },
     3, 7,
     ({ cid := 7, sqIdx := 0, sqAfter := 1, elems := [({ opcode := 8, irq := false, order := false, chain := false, cid := 7, param := 1, addr := 32768, addr2 := 0, count := 4, offset := 0, reservedZero := true } : Desc)], started := true }
     : RunCmd),
     ({ opcode := 8, irq := false, order := false, chain := false, cid := 7, param := 1, addr := 32768, addr2 := 0, count := 4, offset := 0, reservedZero := true }
     : Desc), sound_of (by decide +kernel), by decide +kernel⟩,
   ⟨{ up ((z.wr R.STP_STAT_PHASE 4).wr (R.HP_LINK_STAT_UP 0) 1) with queues := { z.queues with list := [{ q := 3, en := true, owner := 1, running := true, sqLog2 := 4, cqLog2 := 4, cmds := [({ cid := 7, sqIdx := 0, sqAfter := 1, elems := [({ opcode := 9, irq := false, order := false, chain := false, cid := 7, param := 1, addr := 2097152, addr2 := 0, count := 4, offset := 0, reservedZero := true } : Desc)], started := true } : RunCmd)] }] } },
     3, 7,
     ({ cid := 7, sqIdx := 0, sqAfter := 1, elems := [({ opcode := 9, irq := false, order := false, chain := false, cid := 7, param := 1, addr := 2097152, addr2 := 0, count := 4, offset := 0, reservedZero := true } : Desc)], started := true }
     : RunCmd),
     ({ opcode := 9, irq := false, order := false, chain := false, cid := 7, param := 1, addr := 2097152, addr2 := 0, count := 4, offset := 0, reservedZero := true }
     : Desc), calm_of (by decide +kernel), by decide +kernel⟩,
   ⟨{ up ((z.wr R.STP_STAT_PHASE 4).wr (R.HP_LINK_STAT_UP 0) 1) with queues := { z.queues with list := [{ q := 3, en := true, owner := 1, running := true, sqLog2 := 4, cqLog2 := 4, cmds := [({ cid := 7, sqIdx := 0, sqAfter := 1, elems := [({ opcode := 10, irq := false, order := false, chain := false, cid := 7, param := 0, addr := 32768, addr2 := 4096, count := 4, offset := 0, reservedZero := true } : Desc)], started := true } : RunCmd)] }] } },
     3, 7,
     ({ cid := 7, sqIdx := 0, sqAfter := 1, elems := [({ opcode := 10, irq := false, order := false, chain := false, cid := 7, param := 0, addr := 32768, addr2 := 4096, count := 4, offset := 0, reservedZero := true } : Desc)], started := true }
     : RunCmd),
     ({ opcode := 10, irq := false, order := false, chain := false, cid := 7, param := 0, addr := 32768, addr2 := 4096, count := 4, offset := 0, reservedZero := true }
     : Desc), calm_of (by decide +kernel), by decide +kernel⟩,
   ⟨{ up ((z.wr R.STP_STAT_PHASE 4).wr (R.HP_LINK_STAT_UP 0) 1) with queues := { z.queues with list := [{ q := 3, en := true, owner := 1, running := true, sqLog2 := 4, cqLog2 := 4, cmds := [({ cid := 7, sqIdx := 0, sqAfter := 1, elems := [({ opcode := 10, irq := false, order := false, chain := false, cid := 7, param := 0, addr := 32768, addr2 := 4096, count := 4, offset := 0, reservedZero := true } : Desc)], started := true } : RunCmd)] }] } },
     3, 7,
     ({ cid := 7, sqIdx := 0, sqAfter := 1, elems := [({ opcode := 10, irq := false, order := false, chain := false, cid := 7, param := 0, addr := 32768, addr2 := 4096, count := 4, offset := 0, reservedZero := true } : Desc)], started := true }
     : RunCmd),
     ({ opcode := 10, irq := false, order := false, chain := false, cid := 7, param := 0, addr := 32768, addr2 := 4096, count := 4, offset := 0, reservedZero := true }
     : Desc), sound_of (by decide +kernel), by decide +kernel⟩⟩

theorem witness_rangesThatCeaseToBeVolatileAreDirty :
    ∃ (s : State) (q cid : Nat) (k : RunCmd) (d : Desc), s.Calm ∧ s.WorksOn q cid 9 k d ∧ d.param % 2 = 0 ∧
      (s.dirty.vol.cut (d.addr / (granuleBytes * granulesPerRegion) + d.offset) (d.addr / (granuleBytes *
      granulesPerRegion) + d.count)).length ≤ 256 :=
  ⟨{ up ((z.wr R.STP_STAT_PHASE 4).wr (R.HP_LINK_STAT_UP 0) 1) with dirty := { z.dirty with vol := [(1, 3)] }, queues := { z.queues with list := [{ q := 3, en := true, owner := 1, running := true, sqLog2 := 4, cqLog2 := 4, cmds := [({ cid := 7, sqIdx := 0, sqAfter := 1, elems := [({ opcode := 9, irq := false, order := false, chain := false, cid := 7, param := 0, addr := 2097152, addr2 := 0, count := 4, offset := 0, reservedZero := true } : Desc)], started := true } : RunCmd)] }] } },
    3, 7,
    ({ cid := 7, sqIdx := 0, sqAfter := 1, elems := [({ opcode := 9, irq := false, order := false, chain := false, cid := 7, param := 0, addr := 2097152, addr2 := 0, count := 4, offset := 0, reservedZero := true } : Desc)], started := true }
    : RunCmd),
    ({ opcode := 9, irq := false, order := false, chain := false, cid := 7, param := 0, addr := 2097152, addr2 := 0, count := 4, offset := 0, reservedZero := true }
    : Desc), calm_of (by decide +kernel), by decide +kernel⟩

theorem witness_dalufPortsFollowTheirLinks :
    (∃ (s : State) (port : Nat), s.Calm ∧ s.PortOn port) ∧
    (∃ (s : State) (port eui fnn flags sq pt lanes power : Nat) (feed : Bool) (p : Packet), s.Calm ∧ s.PortOn port ∧
      s.dlp port = 1 ∧ p.payload = .hello eui fnn flags sq pt false lanes power feed ∧ p.cls = 7 ∧ p.hcrcOk = true ∧
      p.reservedZero = true ∧ p.len ≤ 256 ∧ eui < 2 ^ 64 ∧ fnn < 2 ^ 13 ∧ pt < 4 ∧ power < 8) ∧
    (∃ (s : State) (port eui fnn flags sq pt lanes power : Nat) (hr feed : Bool) (p : Packet), s.Sound ∧ s.PortOn port ∧
      p.payload = .hello eui fnn flags sq pt hr lanes power feed ∧ p.cls = 7 ∧ p.hcrcOk = true ∧ p.reservedZero = true ∧
      p.len ≤ 256 ∧ eui < 2 ^ 64 ∧ fnn < 2 ^ 13 ∧ pt < 4 ∧ power < 8 ∧ (s.dlp port < 4 ∨ hr = true)) ∧
    (∃ (s : State) (port : Nat), s.Sound ∧ s.PortOn port ∧ 2 ≤ s.dlp port) ∧
    (∃ (s : State) (port : Nat), s.Calm ∧ s.PortOn port ∧ s.dlp port = 2) ∧
    (∃ (s : State) (port : Nat), s.Sound ∧ s.PortOn port ∧ s.dlp port = 4 ∧ s.fabricOff = false) ∧
    (∃ (s : State) (port : Nat), s.Calm ∧ s.PortOn port ∧ s.dlp port = 3) ∧
    (∃ (s : State) (port bad : Nat), s.Sound ∧ s.PortOn port ∧ (s.dlp port = 3 ∨ (s.dlp port = 4 ∧ (s.dport
      port).retraining = true)) ∧ ((List.range 4).filter (fun l => bad.testBit l)).length ≤ 2) ∧
    (∃ (s : State) (port lane : Nat), s.Sound ∧ s.PortOn port ∧ s.dlp port = 4 ∧ lane < 5 ∧ (s.dport
      port).badLanes.testBit lane = false) ∧
    (∃ (s : State) (port : Nat), s.Calm ∧ s.PortOn port ∧ s.dlp port = 3) ∧
    (∃ (s : State) (port : Nat), s.Calm ∧ s.PortOn port ∧ s.dlp port = 2 ∧ (s.dport port).retry = true ∧ (s.dport
      port).nbrHr = true ∧ s.hrAvail port = true) ∧
    (∃ (s : State) (port lane : Nat), s.Sound ∧ s.PortOn port ∧ s.dlp port = 4 ∧ lane < 4 ∧ s.flag (R.DLP_CTRL_SPARE_EN
      port) = true ∧ s.flag (R.DLP_STAT_SPARE_USED port) = false ∧ (s.dport port).badLanes = 0) ∧
    (∃ (s : State) (port pl : Nat), s.Calm ∧ s.PortOn port ∧ pl < 2 ∧ s.planeUp port pl = true ∧ (s.dport
      port).retraining = false ∧ (s.plane port pl).rxSeq < 4096) ∧
    (∃ (s : State) (port pl seq : Nat), s.Calm ∧ s.PortOn port ∧ pl < 2 ∧ s.planeUp port pl = true ∧ (s.dport
      port).retraining = false ∧ seq < 4096) ∧
    (∃ (s : State) (port pl seq : Nat), s.Calm ∧ s.PortOn port ∧ pl < 2 ∧ s.planeUp port pl = true ∧ (s.dport
      port).retraining = false ∧ (s.plane port pl).rxSeq < 4096 ∧ seq < 4096 ∧ seq ≠ (s.plane port pl).rxSeq) ∧
    (∃ (s : State) (port pl seq : Nat), s.Calm ∧ s.PortOn port ∧ pl < 2 ∧ s.planeUp port pl = true ∧ (s.dport
      port).retraining = false ∧ seq < 4096 ∧ (s.plane port pl).waiting = []) ∧
    (∃ (s : State) (port pl seq : Nat), s.Sound ∧ s.PortOn port ∧ pl < 2 ∧ s.planeUp port pl = true ∧ (s.dport
      port).retraining = false ∧ seq < 4096 ∧ ((s.plane port pl).unacked.any (fun f => f.1 == seq)) = true) ∧
    (∃ (s : State) (port kind : Nat), s.Calm ∧ s.PortOn port ∧ 1 ≤ kind) ∧
    (∃ (s : State) (port : Nat), s.Sound ∧ s.PortOn port ∧ s.dlp port = 4 ∧ (s.dport port).retraining = true) ∧
    (∃ (s : State) (port : Nat), s.Sound ∧ s.PortOn port ∧ s.dlp port = 4 ∧ (s.dport port).retraining = true ∧
      s.fabricOff = false) ∧
    (∃ (s : State) (port : Nat), s.Sound ∧ s.PortOn port ∧ s.flag (R.DLP_STAT_PH_OUT port) = true) ∧
    (∃ (s : State) (port : Nat), s.Calm ∧ s.PortOn port ∧ (s.dport port).feedOff = true ∧ (s.dport port).overcurrents <
      3 ∧ s.flag (R.DLP_CTRL_PH_TX port) = true ∧ s.rd R.SNT_CTX_SUPPLY = 0) :=
  ⟨⟨up (z.wr (R.DLP_STAT_STATE 2) 1), 2, calm_of (by decide +kernel), by decide +kernel⟩,
   ⟨up (z.wr (R.DLP_STAT_STATE 2) 1), 2, 77, 12, 0, 3, 1, 4, 0, false, (Packet.sealed
     { dst := 0x1FFF, cls := 7, src := 9, hops := 64, flood := false, len := 20, seq := 7, flow := 0, tag := 0, hcrc := 0, res0 := 0, res1 := 0, payload := .hello 77 12 0 3 1 false 4 0 false }
     : Packet), calm_of (by decide +kernel), by decide +kernel⟩,
   ⟨up ((z.wr (R.DLP_STAT_STATE 2) 1).wr (R.DLP_CTRL_HR_EN 2) 1), 2, 77, 12, 0, 3, 1, 4, 0, true, false, (Packet.sealed
     { dst := 0x1FFF, cls := 7, src := 9, hops := 64, flood := false, len := 20, seq := 7, flow := 0, tag := 0, hcrc := 0, res0 := 0, res1 := 0, payload := .hello 77 12 0 3 1 true 4 0 false }
     : Packet), sound_of (by decide +kernel), by decide +kernel⟩,
   ⟨up (z.wr (R.DLP_STAT_STATE 2) 4), 2, sound_of (by decide +kernel), by decide +kernel⟩,
   ⟨up ((z.wr (R.DLP_STAT_STATE 2) 2).wr (R.DLP_NBR_FNN 2) 9), 2, calm_of (by decide +kernel), by decide +kernel⟩,
   ⟨up (z.wr (R.DLP_STAT_STATE 2) 4), 2, sound_of (by decide +kernel), by decide +kernel⟩,
   ⟨up (z.wr (R.DLP_STAT_STATE 2) 3), 2, calm_of (by decide +kernel), by decide +kernel⟩,
   ⟨up (z.wr (R.DLP_STAT_STATE 2) 3), 2, 5, sound_of (by decide +kernel), by decide +kernel⟩,
   ⟨{ up (z.wr (R.DLP_STAT_STATE 2) 4) with fabric := { z.fabric with ports := [{}, {}, { badLanes := 5 }, {}] } }, 2,
     1, sound_of (by decide +kernel), by decide +kernel⟩,
   ⟨up (z.wr (R.DLP_STAT_STATE 2) 3), 2, calm_of (by decide +kernel), by decide +kernel⟩,
   ⟨{ up ((z.wr (R.DLP_STAT_STATE 2) 2).wr (R.DLP_CTRL_HR_EN 2) 1) with fabric := { z.fabric with ports := [{}, {}, { retry := true, nbrHr := true }, {}] } },
     2, calm_of (by decide +kernel), by decide +kernel⟩,
   ⟨up ((z.wr (R.DLP_STAT_STATE 2) 4).wr (R.DLP_CTRL_SPARE_EN 2) 1), 2, 1, sound_of (by decide +kernel),
     by decide +kernel⟩,
   ⟨up (z.wr (R.DLP_STAT_STATE 2) 4), 2, 1, calm_of (by decide +kernel), by decide +kernel⟩,
   ⟨up (z.wr (R.DLP_STAT_STATE 2) 4), 2, 1, 9, calm_of (by decide +kernel), by decide +kernel⟩,
   ⟨up (z.wr (R.DLP_STAT_STATE 2) 4), 2, 1, 9, calm_of (by decide +kernel), by decide +kernel⟩,
   ⟨up (z.wr (R.DLP_STAT_STATE 2) 4), 2, 1, 9, calm_of (by decide +kernel), by decide +kernel⟩,
   ⟨{ up (z.wr (R.DLP_STAT_STATE 2) 4) with fabric := { z.fabric with ports := [{}, {}, { hr := { unacked := [(8, (Packet.sealed { dst := 5, cls := 5, src := 9, hops := 1, flood := false, len := 2, seq := 7, flow := 0, tag := 0, hcrc := 0, res0 := 0, res1 := 0, payload := .rLost [] } : Packet)), (9, (Packet.sealed { dst := 5, cls := 5, src := 9, hops := 1, flood := false, len := 2, seq := 7, flow := 0, tag := 0, hcrc := 0, res0 := 0, res1 := 0, payload := .rLost [] } : Packet))] } }, {}] } },
     2, 1, 9, sound_of (by decide +kernel), by decide +kernel⟩,
   ⟨up (z.wr (R.DLP_STAT_STATE 2) 4), 2, 2, calm_of (by decide +kernel), by decide +kernel⟩,
   ⟨{ up (z.wr (R.DLP_STAT_STATE 2) 4) with fabric := { z.fabric with ports := [{}, {}, { retraining := true }, {}] } },
     2, sound_of (by decide +kernel), by decide +kernel⟩,
   ⟨{ up (z.wr (R.DLP_STAT_STATE 2) 4) with fabric := { z.fabric with ports := [{}, {}, { retraining := true }, {}] } },
     2, sound_of (by decide +kernel), by decide +kernel⟩,
   ⟨up ((z.wr (R.DLP_STAT_STATE 2) 1).wr (R.DLP_STAT_PH_OUT 2) 1), 2, sound_of (by decide +kernel), by decide +kernel⟩,
   ⟨{ up (((z.wr (R.DLP_STAT_STATE 2) 1).wr (R.DLP_CTRL_PH_TX 2) 1).wr R.SNT_CTX_SUPPLY 0) with fabric := { z.fabric with ports := [{}, {}, { feedOff := true }, {}] } },
     2, calm_of (by decide +kernel), by decide +kernel⟩⟩

theorem witness_theFabricKeepsItsDatabaseAndRoutes :
    (∃ (s : State) (port : Nat) (a : Lsa) (p : Packet), s.Calm ∧ s.PortOn port ∧ s.fabricOff = false ∧ s.planeUp port 0
      = true ∧ p.payload = .lsa a ∧ p.cls = 6 ∧ p.hcrcOk = true ∧ p.reservedZero = true ∧ p.len ≤ 256 ∧ p.flood = true ∧
      s.seenFlood p.src 1 p.seq = false ∧ a.eui ≠ s.rd R.ID_EUI ∧ s.fabric.db.any (fun e => e.1.eui == a.eui) = false ∧
      a.fnn ≠ s.rd R.DFS_FNN_STAT_FNN) ∧
    (∃ (s : State) (port : Nat) (p : Packet), s.Calm ∧ s.PortOn port ∧ s.planeUp port 0 = true ∧ p.payload = .rLost [] ∧
      p.cls = 5 ∧ p.hcrcOk = true ∧ p.reservedZero = true ∧ p.len ≤ 256 ∧ p.flood = false ∧ p.dst ≠ 0x1FFF ∧ p.dst ≠
      s.srcFnn ∧ p.hops ≤ 1) ∧
    (∃ (s : State) (port pl : Nat) (p : Packet), s.Calm ∧ s.PortOn port ∧ s.planeUp port (pl % 2) = true ∧ (p.hcrcOk =
      false ∨ p.reservedZero = false ∨ 256 < p.len)) ∧
    (∃ (s : State) (port pl : Nat) (p : Packet), s.Calm ∧ s.PortOn port ∧ s.planeUp port (pl % 2) = true ∧ p.hcrcOk =
      true ∧ p.reservedZero = true ∧ p.len ≤ 256 ∧ p.classOk = true ∧ p.local = false ∧ p.flood = false ∧ p.payload.typ ≠
      0 ∧ p.dst ≠ 0x1FFF ∧ p.dst ≠ s.srcFnn ∧ 1 < p.hops ∧ (s.fabricOff = true ∨ (s.routeTo p.dst).isNone = true)) ∧
    (∃ (s : State), s.Calm ∧ s.variant.fabric = true ∧ s.srcFnn ≠ 0x1FFF ∧ s.lsaSoon = false) ∧
    (∃ (s : State), s.Calm ∧ s.lsaSoon = true) ∧
    (∃ (s : State) (eui : Nat), s.Calm ∧ s.variant.fabric = true ∧ s.fabric.db.any (fun e => e.1.eui == eui && decide
      (e.2 + 120 ≤ s.rd R.SNT_RTC)) = true ∧ s.rd R.DFS_FNN_STAT_CLAIM ≠ 3) ∧
    (∃ (s : State), s.Calm ∧ s.FabricRuns ∧ s.rd R.DFS_FNN_STAT_CLAIM = 1) ∧
    (∃ (s : State), s.Sound ∧ s.FabricRuns ∧ s.rd R.DFS_FNN_STAT_CLAIM = 0) ∧
    (∃ (s : State), s.Sound ∧ s.FabricRuns ∧ s.fabric.routeDue = true) ∧
    (∃ (s : State), s.Calm ∧ s.FabricRuns ∧ s.fabric.routeDue = true ∧ s.fabric.routes = [] ∧ s.rd R.RCK_TGT0 = 0 ∧ s.rd
      R.RCK_TGT1 = 0 ∧ s.srcFnn ≠ 0x1FFF) ∧
    (∃ (s : State), s.Sound ∧ s.variant.fabric = true ∧ s.fabric.routeDue = true ∧ s.fabricOff = false) ∧
    (∃ (s : State) (kind : Nat), s.Calm ∧ s.FabricRuns ∧ s.summaryDue kind = true ∧ (List.range 4).all (fun n => s.rd
      (R.DFS_COLL n) == 0 || s.reachable (s.rd (R.DFS_COLL n))) = true) ∧
    (∃ (s : State) (kind : Nat), s.Sound ∧ s.FabricRuns ∧ s.summaryDue kind = true) :=
  ⟨⟨up (z.wr (R.DLP_STAT_STATE 2) 2), 2,
     ({ eui := 77, fnn := 12, tentative := false, dormant := false, power := 0, seq := 3, group := 0, nbrs := [] } : Lsa),
     (Packet.sealed
     { dst := 0x1FFF, cls := 6, src := 9, hops := 64, flood := true, len := 36, seq := 7, flow := 0, tag := 0, hcrc := 0, res0 := 0, res1 := 0, payload := .lsa ({ eui := 77, fnn := 12, tentative := false, dormant := false, power := 0, seq := 3, group := 0, nbrs := [] } : Lsa) }
     : Packet), calm_of (by decide +kernel), by decide +kernel⟩,
   ⟨up (z.wr (R.DLP_STAT_STATE 2) 2), 2, (Packet.sealed
     { dst := 5, cls := 5, src := 9, hops := 1, flood := false, len := 2, seq := 7, flow := 0, tag := 0, hcrc := 0, res0 := 0, res1 := 0, payload := .rLost [] }
     : Packet), calm_of (by decide +kernel), by decide +kernel⟩,
   ⟨up (z.wr (R.DLP_STAT_STATE 2) 2), 2, 0,
     ({ dst := 5, cls := 5, src := 9, hops := 1, flood := false, len := 2, seq := 7, flow := 0, tag := 0, hcrc := 1, res0 := 0, res1 := 0, payload := .rLost [] }
     : Packet), calm_of (by decide +kernel), by decide +kernel⟩,
   ⟨up (z.wr (R.DLP_STAT_STATE 2) 2), 2, 0, (Packet.sealed
     { dst := 5, cls := 5, src := 9, hops := 9, flood := false, len := 2, seq := 7, flow := 0, tag := 0, hcrc := 0, res0 := 0, res1 := 0, payload := .rLost [] }
     : Packet), calm_of (by decide +kernel), by decide +kernel⟩,
   ⟨up ((z.wr R.DFS_FNN_STAT_CLAIM 2).wr R.DFS_FNN_STAT_FNN 8), calm_of (by decide +kernel), by decide +kernel⟩,
   ⟨{ up ((z.wr R.DFS_FNN_STAT_CLAIM 2).wr R.DFS_FNN_STAT_FNN 8) with fabric := { z.fabric with lsaAt := 1 } }, calm_of
     (by decide +kernel), by decide +kernel⟩,
   ⟨{ up (z.wr R.SNT_RTC 500) with fabric := { z.fabric with db := [(({ eui := 77, fnn := 12, tentative := false, dormant := false, power := 0, seq := 3, group := 0, nbrs := [] } : Lsa), 380)] } },
     77, calm_of (by decide +kernel), by decide +kernel⟩,
   ⟨up ((z.wr R.DFS_FNN_STAT_CLAIM 1).wr R.DFS_FNN_STAT_FNN 8), calm_of (by decide +kernel), by decide +kernel⟩,
   ⟨up z, sound_of (by decide +kernel), by decide +kernel⟩,
   ⟨{ up ((((((z.wr R.DFS_FNN_STAT_CLAIM 2).wr R.DFS_FNN_STAT_FNN 8).wr (R.DLP_STAT_STATE 2) 4).wr (R.DLP_NBR_FNN 2) 12).wr (R.DLP_COST 2) 10).wr R.RCK_TGT0 77) with fabric := { z.fabric with db := [(({ eui := 77, fnn := 12, tentative := false, dormant := false, power := 0, seq := 3, group := 0, nbrs := [(8, true, 10)] } : Lsa), 380)], routeDue := true } },
     sound_of (by decide +kernel), by decide +kernel⟩,
   ⟨{ up (((((z.wr R.DFS_FNN_STAT_CLAIM 2).wr R.DFS_FNN_STAT_FNN 8).wr (R.DLP_STAT_STATE 2) 4).wr (R.DLP_NBR_FNN 2) 12).wr (R.DLP_COST 2) 10) with fabric := { z.fabric with db := [(({ eui := 77, fnn := 12, tentative := false, dormant := false, power := 0, seq := 3, group := 0, nbrs := [(8, true, 10)] } : Lsa), 380)], routeDue := true } },
     calm_of (by decide +kernel), by decide +kernel⟩,
   ⟨{ up z with fabric := { z.fabric with routeDue := true } }, sound_of (by decide +kernel), by decide +kernel⟩,
   ⟨{ up z with fabric := { z.fabric with faultDue := [(5, 2, 1)], faultNow := true } }, 1, calm_of (by decide +kernel),
     by decide +kernel⟩,
   ⟨{ up z with fabric := { z.fabric with faultDue := [(5, 2, 1)], faultNow := true } }, 1, sound_of
     (by decide +kernel), by decide +kernel⟩⟩

theorem witness_regionsAreRackedAndHeld :
    (∃ (s : State) (q cid : Nat) (k : RunCmd) (d : Desc), s.Sound ∧ s.WorksOn q cid 2 k d) ∧
    (∃ (s : State) (q cid : Nat) (k : RunCmd) (d : Desc), s.Calm ∧ s.WorksOn q cid 2 k d ∧ k.covering = false ∧
      s.steep.unfilled = []) ∧
    (∃ (s : State) (q cid : Nat) (k : RunCmd) (d : Desc), s.Sound ∧ s.WorksOn q cid 3 k d) ∧
    (∃ (s : State) (q cid : Nat) (k : RunCmd) (d : Desc), s.Calm ∧ s.WorksOn q cid 3 k d ∧ k.covering = false ∧
      s.steep.unfilled = []) ∧
    (∃ (s : State) (tgt r : Nat), s.Sound ∧ tgt < 2 ∧ s.rackSends tgt = true ∧ s.rackEligible tgt r = true ∧ s.rackTurn
      tgt r = true ∧ ((s.sendOf tgt r).isSome = true ∨ s.rd (R.RCK_TGT_STAT_INFLIGHT tgt) < 64)) ∧
    (∃ (s : State) (tgt r : Nat), s.Calm ∧ tgt < 2 ∧ s.rackSends tgt = true ∧ s.rackEligible tgt r = true ∧ s.rackTurn
      tgt r = true ∧ s.sendOf tgt r = none ∧ s.rd (R.RCK_TGT_STAT_INFLIGHT tgt) < 64) ∧
    (∃ (s : State) (tgt r : Nat) (e : Send), s.Sound ∧ tgt < 2 ∧ s.sendOf tgt r = some e ∧ e.resend = false ∧ e.late =
      false) ∧
    (∃ (s : State) (tgt r : Nat) (e : Send), s.Sound ∧ tgt < 2 ∧ s.sendOf tgt r = some e ∧ e.resend = false ∧ e.late =
      false) ∧
    (∃ (s : State) (tgt r : Nat) (e : Send), s.Sound ∧ tgt < 2 ∧ s.sendOf tgt r = some e ∧ e.resend = false ∧ e.late =
      true) ∧
    (∃ (s : State) (tgt : Nat), s.Sound ∧ tgt < 2 ∧ s.variant.fabric = true ∧ s.steepReady = true ∧ s.portsAlive = true
      ∧ s.runs .fabric = true ∧ (s.tgtState tgt = 1 ∨ s.tgtState tgt = 4)) ∧
    (∃ (s : State) (tgt : Nat), s.Calm ∧ tgt < 2 ∧ s.variant.fabric = true ∧ s.steepReady = true ∧ s.portsAlive = true ∧
      s.runs .fabric = true ∧ s.tgtState tgt = 4 ∧ s.genDue tgt = false) ∧
    (∃ (s : State) (slot r : Nat) (v : Guest) (e : Recv), s.Calm ∧ s.guestOpen = true ∧ s.guestAt slot = some v ∧
      s.racking.recvs.find? (fun x => x.slot == slot && x.region == r && x.ended) = some e ∧ e.drop = false) ∧
    (∃ (s : State) (who : Requester) (v : Guest), s.Sound ∧ s.Writable who 0x95 ∧ s.guestAt (s.rd R.RCK_GUEST_SEL) =
      some v ∧ s.flag (R.RCK_GUEST_STAT_OWNER_REACH v.slot) = false ∧ max 1 (s.rd R.RCK_GUEST_CTRL_GUEST_ORPHAN_H) ≤ s.rd
      (R.RCK_GUEST_STAT_UNREACH_H v.slot)) ∧
    (∃ (s : State) (who : Requester) (v : Guest), s.Sound ∧ s.Writable who 0x95 ∧ s.guestAt (s.rd R.RCK_GUEST_SEL) =
      some v ∧ s.maint.isOpen = true) :=
  ⟨⟨{ up (((z.wr R.STP_STAT_PHASE 4).wr R.RCK_TGT0 77).wr (R.RCK_TGT_STAT_STATE 0) 2) with steep := { z.steep with unfilled := [(520, 530)] }, racking := { z.racking with debt0 := [(1, 2)] }, queues := { z.queues with list := [{ q := 3, en := true, owner := 1, running := true, sqLog2 := 4, cqLog2 := 4, cmds := [({ cid := 7, sqIdx := 0, sqAfter := 1, elems := [({ opcode := 2, irq := false, order := false, chain := false, cid := 7, param := 0, addr := 4096 * 512, addr2 := 0, count := 512, offset := 0, reservedZero := true } : Desc)], started := true } : RunCmd)] }] } },
     3, 7,
     ({ cid := 7, sqIdx := 0, sqAfter := 1, elems := [({ opcode := 2, irq := false, order := false, chain := false, cid := 7, param := 0, addr := 4096 * 512, addr2 := 0, count := 512, offset := 0, reservedZero := true } : Desc)], started := true }
     : RunCmd),
     ({ opcode := 2, irq := false, order := false, chain := false, cid := 7, param := 0, addr := 4096 * 512, addr2 := 0, count := 512, offset := 0, reservedZero := true }
     : Desc), sound_of (by decide +kernel), by decide +kernel⟩,
   ⟨{ up (((z.wr R.STP_STAT_PHASE 4).wr R.RCK_TGT0 77).wr (R.RCK_TGT_STAT_STATE 0) 2) with racking := { z.racking with debt0 := [(1, 2)] }, queues := { z.queues with list := [{ q := 3, en := true, owner := 1, running := true, sqLog2 := 4, cqLog2 := 4, cmds := [({ cid := 7, sqIdx := 0, sqAfter := 1, elems := [({ opcode := 2, irq := false, order := false, chain := false, cid := 7, param := 0, addr := 4096 * 512, addr2 := 0, count := 512, offset := 0, reservedZero := true } : Desc)], started := true } : RunCmd)] }] } },
     3, 7,
     ({ cid := 7, sqIdx := 0, sqAfter := 1, elems := [({ opcode := 2, irq := false, order := false, chain := false, cid := 7, param := 0, addr := 4096 * 512, addr2 := 0, count := 512, offset := 0, reservedZero := true } : Desc)], started := true }
     : RunCmd),
     ({ opcode := 2, irq := false, order := false, chain := false, cid := 7, param := 0, addr := 4096 * 512, addr2 := 0, count := 512, offset := 0, reservedZero := true }
     : Desc), calm_of (by decide +kernel), by decide +kernel⟩,
   ⟨{ up (((z.wr R.STP_STAT_PHASE 4).wr R.RCK_TGT0 77).wr (R.RCK_TGT_STAT_STATE 0) 2) with steep := { z.steep with unfilled := [(520, 530)] }, racking := { z.racking with debt0 := [(1, 2)] }, queues := { z.queues with list := [{ q := 3, en := true, owner := 1, running := true, sqLog2 := 4, cqLog2 := 4, cmds := [({ cid := 7, sqIdx := 0, sqAfter := 1, elems := [({ opcode := 3, irq := false, order := false, chain := false, cid := 7, param := 0, addr := 4096 * 512, addr2 := 0, count := 512, offset := 0, reservedZero := true } : Desc)], started := true } : RunCmd)] }] } },
     3, 7,
     ({ cid := 7, sqIdx := 0, sqAfter := 1, elems := [({ opcode := 3, irq := false, order := false, chain := false, cid := 7, param := 0, addr := 4096 * 512, addr2 := 0, count := 512, offset := 0, reservedZero := true } : Desc)], started := true }
     : RunCmd),
     ({ opcode := 3, irq := false, order := false, chain := false, cid := 7, param := 0, addr := 4096 * 512, addr2 := 0, count := 512, offset := 0, reservedZero := true }
     : Desc), sound_of (by decide +kernel), by decide +kernel⟩,
   ⟨{ up (((z.wr R.STP_STAT_PHASE 4).wr R.RCK_TGT0 77).wr (R.RCK_TGT_STAT_STATE 0) 2) with racking := { z.racking with debt0 := [(1, 2)] }, queues := { z.queues with list := [{ q := 3, en := true, owner := 1, running := true, sqLog2 := 4, cqLog2 := 4, cmds := [({ cid := 7, sqIdx := 0, sqAfter := 1, elems := [({ opcode := 3, irq := false, order := false, chain := false, cid := 7, param := 0, addr := 4096 * 512, addr2 := 0, count := 512, offset := 0, reservedZero := true } : Desc)], started := true } : RunCmd)] }] } },
     3, 7,
     ({ cid := 7, sqIdx := 0, sqAfter := 1, elems := [({ opcode := 3, irq := false, order := false, chain := false, cid := 7, param := 0, addr := 4096 * 512, addr2 := 0, count := 512, offset := 0, reservedZero := true } : Desc)], started := true }
     : RunCmd),
     ({ opcode := 3, irq := false, order := false, chain := false, cid := 7, param := 0, addr := 4096 * 512, addr2 := 0, count := 512, offset := 0, reservedZero := true }
     : Desc), calm_of (by decide +kernel), by decide +kernel⟩,
   ⟨{ up (((z.wr R.STP_STAT_PHASE 4).wr R.RCK_TGT0 77).wr (R.RCK_TGT_STAT_STATE 0) 2) with racking := { z.racking with debt0 := [(1, 2)] }, dirty := { z.dirty with vol := [(1, 2)] }, fabric := { z.fabric with db := [(({ eui := 77, fnn := 12, tentative := false, dormant := false, power := 0, seq := 3, group := 0, nbrs := [] } : Lsa), 380)], routes := [{ fnn := 12, ports := 4, hops := 1, cost := 10 }] } },
     0, 1, sound_of (by decide +kernel), by decide +kernel⟩,
   ⟨{ up (((z.wr R.STP_STAT_PHASE 4).wr R.RCK_TGT0 77).wr (R.RCK_TGT_STAT_STATE 0) 2) with racking := { z.racking with debt0 := [(1, 2)] }, dirty := { z.dirty with vol := [(1, 2)] }, fabric := { z.fabric with db := [(({ eui := 77, fnn := 12, tentative := false, dormant := false, power := 0, seq := 3, group := 0, nbrs := [] } : Lsa), 380)], routes := [{ fnn := 12, ports := 4, hops := 1, cost := 10 }] } },
     0, 1, calm_of (by decide +kernel), by decide +kernel⟩,
   ⟨{ z with racking := { z.racking with sends := [({ target := 1, region := 4, handle := 9 } : Send)] } }, 1, 4,
     ({ target := 1, region := 4, handle := 9 } : Send), sound_of (by decide +kernel), by decide +kernel⟩,
   ⟨{ z with racking := { z.racking with sends := [({ target := 1, region := 4, handle := 9 } : Send)] } }, 1, 4,
     ({ target := 1, region := 4, handle := 9 } : Send), sound_of (by decide +kernel), by decide +kernel⟩,
   ⟨{ z with racking := { z.racking with sends := [({ target := 1, region := 4, handle := 9, late := true } : Send)] } },
     1, 4, ({ target := 1, region := 4, handle := 9, late := true } : Send), sound_of (by decide +kernel),
     by decide +kernel⟩,
   ⟨{ up (((z.wr R.STP_STAT_PHASE 4).wr R.RCK_TGT0 77).wr (R.RCK_TGT_STAT_STATE 0) 1) with racking := { z.racking with genDue0 := true } },
     0, sound_of (by decide +kernel), by decide +kernel⟩,
   ⟨{ up (((z.wr R.STP_STAT_PHASE 4).wr R.RCK_TGT0 77).wr (R.RCK_TGT_STAT_STATE 0) 4) with racking := { z.racking with genDue0 := false }, fabric := { z.fabric with db := [(({ eui := 77, fnn := 12, tentative := false, dormant := false, power := 0, seq := 3, group := 0, nbrs := [] } : Lsa), 380)], routes := [{ fnn := 12, ports := 4, hops := 1, cost := 10 }] } },
     0, calm_of (by decide +kernel), by decide +kernel⟩,
   ⟨{ up (z.wr R.STP_STAT_PHASE 4) with racking := { z.racking with recvs := [({ slot := 5, region := 4, handle := 9, drop := false, ended := true } : Recv)], guests := [({ slot := 5, owner := 77, gen := 1, size := 9, ranges := [(0, 9)], count := 1 } : Guest)] } },
     5, 4, ({ slot := 5, owner := 77, gen := 1, size := 9, ranges := [(0, 9)], count := 1 } : Guest),
     ({ slot := 5, region := 4, handle := 9, drop := false, ended := true } : Recv), calm_of (by decide +kernel),
     by decide +kernel⟩,
   ⟨{ up ((((z.wr R.STP_STAT_PHASE 4).wr R.RCK_GUEST_SEL 5).wr (R.RCK_GUEST_STAT_UNREACH_H 5) 200).wr (R.HP_LINK_STAT_UP 0) 1) with racking := { z.racking with guests := [({ slot := 5, owner := 77, gen := 1, size := 9, ranges := [(0, 9)], count := 1 } : Guest)] } },
     Requester.portA, ({ slot := 5, owner := 77, gen := 1, size := 9, ranges := [(0, 9)], count := 1 } : Guest), sound_of
     (by decide +kernel), by decide +kernel⟩,
   ⟨{ up (((z.wr R.STP_STAT_PHASE 4).wr R.RCK_GUEST_SEL 5).wr (R.HP_LINK_STAT_UP 0) 1) with maint := { isOpen := true, strap := true }, racking := { z.racking with guests := [({ slot := 5, owner := 77, gen := 1, size := 9, ranges := [(0, 9)], count := 1 } : Guest)] } },
     Requester.portA, ({ slot := 5, owner := 77, gen := 1, size := 9, ranges := [(0, 9)], count := 1 } : Guest), sound_of
     (by decide +kernel), by decide +kernel⟩⟩

theorem witness_crossingsDriveTheHalfCycle :
    (∃ (s : State), s.Sound ∧ s.track.refHeld = false) ∧
    (∃ (s : State) (ticks : Nat), s.Sound ∧ s.track.refHeld = true ∧ s.track.intervals ≠ [] ∧ s.track.spansMiss = false
      ∧ s.flag R.PHS_CTRL_EDGE = false ∧ s.flag R.PHS_STAT_SRC = false ∧ s.flag R.PHS_STAT_LOCKED = true ∧ s.pseudoForced
      = false ∧ s.flag R.PHS_STAT_EW = false ∧ 3 * s.rd R.PHS_PERIOD ≤ 4 * ticks ∧ 4 * ticks ≤ 5 * s.rd R.PHS_PERIOD) ∧
    (∃ (s : State) (ticks : Nat), s.Sound ∧ s.track.refHeld = true ∧ s.track.intervals ≠ [] ∧ (4 * ticks < 3 * s.rd
      R.PHS_PERIOD ∨ 5 * s.rd R.PHS_PERIOD < 4 * ticks)) ∧
    (∃ (s : State), s.Sound) ∧
    (∃ (s : State), s.Sound ∧ s.flag R.PHS_CTRL_EDGE = true ∧ s.track.fallingDue = true ∧ s.track.intervals ≠ [] ∧
      s.flag R.PHS_STAT_SRC = false ∧ s.flag R.PHS_STAT_LOCKED = true ∧ s.pseudoForced = false ∧ s.flag R.PHS_STAT_EW =
      false) :=
  ⟨⟨z, sound_of (by decide +kernel), by decide +kernel⟩,
   ⟨({ z with track := { z.track with refHeld := true, intervals := [1000000] } }.wr R.PHS_STAT_SRC 0).wr
     R.PHS_STAT_LOCKED 1, 1250000, sound_of (by decide +kernel), by decide +kernel⟩,
   ⟨{ z with track := { z.track with refHeld := true, intervals := [1000000] } }, 1250001, sound_of (by decide +kernel),
     by decide +kernel⟩,
   ⟨z.wr R.PHS_MISS_CNT_REJECTED 65535, sound_of (by decide +kernel)⟩,
   ⟨(({ z with track := { z.track with refHeld := true, intervals := [1000000], fallingDue := true } }.wr R.PHS_STAT_SRC
     0).wr R.PHS_STAT_LOCKED 1).wr R.PHS_CTRL_EDGE 1, sound_of (by decide +kernel), by decide +kernel⟩⟩

theorem witness_theGridGoesOnWithoutCrossings :
    (∃ (s : State), s.Sound ∧ s.flag R.PHS_STAT_LOCKED = true ∧ 16 ≤ s.track.rangeRun) ∧
    (∃ (s : State), s.Sound) ∧
    (∃ (s : State), s.Sound ∧ s.flag R.PHS_STAT_SRC = true ∧ s.flag R.PHS_STAT_LOCKED = false) ∧
    (∃ (s : State), s.Sound ∧ s.track.refHeld = true ∧ s.track.intervals ≠ [] ∧ s.track.missRun = 0 ∧ s.flag
      R.PHS_STAT_SRC = false) :=
  ⟨⟨{ z with track := { z.track with rangeRun := 16 } }.wr R.PHS_STAT_LOCKED 1, sound_of (by decide +kernel),
     by decide +kernel⟩,
   ⟨z.wr R.PHS_PU 1023, sound_of (by decide +kernel)⟩,
   ⟨z.wr R.PHS_HC (2 ^ 48 - 1), sound_of (by decide +kernel), by decide +kernel⟩,
   ⟨{ z with track := { z.track with refHeld := true, intervals := [1000000] } }.wr R.PHS_STAT_SRC 0, sound_of
     (by decide +kernel), by decide +kernel⟩⟩

theorem witness_phaseServicesAnswer :
    (∃ (s : State), s.Sound ∧ s.flag R.PHS_CTRL_EW_ACOK = true ∧ s.flag R.PHS_STAT_EW = false ∧ s.flag R.GAU_REST_WINDOW
      = false ∧ s.flag R.KLN_STAT_DEBOUNCE = false) ∧
    (∃ (s : State), s.Sound ∧ s.flag R.PHS_STAT_SRC = true ∧ s.flag R.PHS_STAT_EW = true ∧ s.inKiln = false) ∧
    (∃ (s : State) (slot : Nat) (e : SchedSlot), s.Inv ∧ s.track.sched.find? (fun (x : Nat × SchedSlot) => x.1 == slot)
      = some (slot, e) ∧ e.period = 0 ∧ e.hc * 1024 + e.pu ≤ s.puNow) ∧
    (∃ (s : State) (n : Nat), s.Calm ∧ n < 8 ∧ n ≠ 4 ∧ (∀ k < n, s.flag (R.PHS_CDL_ARMED k) = false ∨ s.rd
      R.PHS_CT_DRAWN < s.rd (R.PHS_CDL_TARGET k)) ∧ s.inKiln = false ∧ s.flag (R.PHS_CDL_ARMED n) = true ∧ s.rd
      (R.PHS_CDL_TARGET n) ≤ s.rd R.PHS_CT_DRAWN) ∧
    (∃ (s : State) (n : Nat), s.Sound ∧ n < 8 ∧ s.flag (R.PHS_CDL_ARMED n) = true ∧ s.rd (R.PHS_CDL_TARGET n) ≤ s.rd
      R.PHS_CT_DRAWN) ∧
    (∃ (s : State) (n target : Nat), s.Calm ∧ n < 8 ∧ s.rd R.PHS_CT_DRAWN < target % 2 ^ 48) ∧
    (∃ (s : State) (p : Nat), s.Sound ∧ p < 2 ∧ (s.pack p).implausible = false) ∧
    (∃ (s : State) (p : Nat), s.Inv ∧ p < 2 ∧ s.flag R.PHS_STAT_CT_EST = true ∧ (s.pack p).implausible = true ∧ (s.pack
      (1 - p)).implausible = false) ∧
    (∃ (s : State), s.Sound ∧ s.power.life = .running ∧ s.opsec % 3600 ≠ 3599 ∧ s.opsec + 1 < 2 ^ 40) :=
  ⟨⟨z.wr R.PHS_STAT_AC_OK 1, sound_of (by decide +kernel), by decide +kernel⟩,
   ⟨z.wr R.PHS_STAT_EW 1, sound_of (by decide +kernel), by decide +kernel⟩,
   ⟨{ z with track := { z.track with sched := [(63, ({ owner := 1, hc := 0, pu := 0, period := 0, seconds := 0 } : SchedSlot))] } },
     63, ({ owner := 1, hc := 0, pu := 0, period := 0, seconds := 0 } : SchedSlot), inv_of (by decide +kernel),
     by decide +kernel⟩,
   ⟨z.wr (R.PHS_CDL_ARMED 7) 1, 7, calm_of (by decide +kernel), by decide +kernel⟩,
   ⟨z.wr (R.PHS_CDL_ARMED 7) 1, 7, sound_of (by decide +kernel), by decide +kernel⟩,
   ⟨z, 7, 1, calm_of (by decide +kernel), by decide +kernel⟩,
   ⟨z.wr (R.PK_CAP 1) 1000, 1, sound_of (by decide +kernel), by decide +kernel⟩,
   ⟨{ z.wr R.PHS_STAT_CT_EST 1 with packB := { z.packB with implausible := true } }, 1, inv_of (by decide +kernel),
     by decide +kernel⟩,
   ⟨live z, sound_of (by decide +kernel), by decide +kernel⟩⟩

theorem witness_packsComeAndGo :
    (∃ (s : State) (port : Nat), s.Sound ∧ s.packs.contains port = true ∧ s.kiln.since = false ∧ s.inKiln = false ∧
      (s.rd (R.PK_STAT_STATE port) = 0 ∨ s.rd (R.PK_STAT_STATE port) = 2)) ∧
    (∃ (s : State) (port serial : Nat) (cells4 : Bool), s.Sound ∧ s.packs.contains port = true ∧ s.rd (R.PK_STAT_STATE
      port) = 1 ∧ s.chem port ≠ 0 ∧ cells4 = s.flag (R.PK_CFG_CELLS4 port) ∧ s.inKiln = false ∧ s.flag R.GAU_REST_WINDOW =
      false ∧ serial < 2 ^ 32) ∧
    (∃ (s : State) (port : Nat), s.Sound ∧ s.packs.contains port = true ∧ s.rd (R.PK_STAT_STATE port) = 1) ∧
    (∃ (s : State) (port : Nat), s.Sound ∧ s.packs.contains port = true ∧ s.rd (R.PK_STAT_STATE port) ≠ 0) ∧
    (∃ (s : State) (port n : Nat), s.Sound ∧ s.packs.contains port = true ∧ s.rd (R.PK_STAT_STATE port) = 2 ∧ (s.pack
      port).challenge = some n ∧ s.rd (R.PK_STAT_UNCOUNT port) ≤ 1) ∧
    (∃ (s : State) (port n : Nat), s.Sound ∧ s.packs.contains port = true ∧ 2 ≤ s.rd (R.PK_STAT_STATE port) ∧ (s.pack
      port).challenge = some n) ∧
    (∃ (s : State) (port : Nat) (answer : Option Nat), s.Sound ∧ s.packs.contains port = true ∧ 2 ≤ s.rd
      (R.PK_STAT_STATE port) ∧ (s.pack port).challenge.isSome = true ∧ answer ≠ (s.pack port).challenge.map (s.expectedMac
      port) ∧ (s.pack port).attempts + 1 < 3) ∧
    (∃ (s : State) (port : Nat) (answer : Option Nat), s.Sound ∧ s.packs.contains port = true ∧ 2 ≤ s.rd
      (R.PK_STAT_STATE port) ∧ (s.pack port).challenge.isSome = true ∧ answer ≠ (s.pack port).challenge.map (s.expectedMac
      port) ∧ 3 ≤ (s.pack port).attempts + 1) ∧
    (∃ (s : State) (port : Nat), s.Calm ∧ s.packs.contains port = true ∧ (s.pack port).challenge = none ∧ (s.pack
      port).attempts ≠ 0 ∧ s.rd (R.PK_AUTH_STATE port) = 3) ∧
    (∃ (s : State) (port : Nat), s.Sound ∧ s.packs.contains port = true ∧ s.identified port = true ∧ s.rd
      (R.PK_AUTH_STATE port) ≠ 3 ∧ s.bit (R.PK_STAT_UNCOUNT port) 4 = false ∧ s.inKiln = false ∧ s.flag R.GAU_REST_WINDOW
      = false) ∧
    (∃ (s : State) (port : Nat), s.Sound ∧ s.packs.contains port = true ∧ s.identified port = true ∧ s.rd
      (R.PK_AUTH_STATE port) ≠ 3 ∧ s.bit (R.PK_STAT_UNCOUNT port) 4 = false ∧ (s.inKiln = true ∨ s.flag R.GAU_REST_WINDOW
      = true)) ∧
    (∃ (s : State) (who : Requester) (port : Nat), s.Sound ∧ s.packs.contains port = true ∧ s.Writable who (0xA9 + port)
      ∧ s.identified port = true ∧ s.rd (R.PK_AUTH_STATE port) ≠ 3 ∧ s.bit (R.PK_STAT_UNCOUNT port) 4 = false ∧ s.inKiln =
      false ∧ s.flag R.GAU_REST_WINDOW = false) ∧
    (∃ (s : State) (who : Requester) (port : Nat), s.Sound ∧ s.packs.contains port = true ∧ s.Writable who (0xA9 + port)
      ∧ s.identified port = true ∧ (s.pack port).authOk = false ∧ s.rd (R.PK_STAT_UNCOUNT port) ≤ 1) ∧
    (∃ (s : State) (who : Requester) (port : Nat), s.Sound ∧ s.packs.contains port = true ∧ s.Writable who (0xA9 +
      port)) :=
  ⟨⟨on z, 1, sound_of (by decide +kernel), by decide +kernel⟩,
   ⟨on ((z.wr (R.PK_STAT_STATE 1) 1).wr (R.PK_CFG_CHEM 1) 1), 1, 991, true, sound_of (by decide +kernel),
     by decide +kernel⟩,
   ⟨on ((z.wr (R.PK_STAT_STATE 1) 1).wr (R.PK_CFG_CHEM 1) 1), 1, sound_of (by decide +kernel), by decide +kernel⟩,
   ⟨on (z.wr (R.PK_STAT_STATE 1) 3), 1, sound_of (by decide +kernel), by decide +kernel⟩,
   ⟨{ on (z.wr (R.PK_STAT_STATE 1) 2) with packB := { z.packB with challenge := some 5 } }, 1, 5, sound_of
     (by decide +kernel), by decide +kernel⟩,
   ⟨{ on ((z.wr (R.PK_STAT_STATE 1) 2).wr (R.PK_STAT_UNCOUNT 1) 6) with packB := { z.packB with challenge := some 5 } },
     1, 5, sound_of (by decide +kernel), by decide +kernel⟩,
   ⟨{ on (z.wr (R.PK_STAT_STATE 1) 2) with packB := { z.packB with challenge := some 5, attempts := 1 } }, 1, (none :
     Option Nat), sound_of (by decide +kernel), by decide +kernel⟩,
   ⟨{ on (z.wr (R.PK_STAT_STATE 1) 2) with packB := { z.packB with challenge := some 5, attempts := 2 } }, 1, (none :
     Option Nat), sound_of (by decide +kernel), by decide +kernel⟩,
   ⟨{ on (z.wr (R.PK_AUTH_STATE 1) 3) with packB := { z.packB with attempts := 1 } }, 1, calm_of (by decide +kernel),
     by decide +kernel⟩,
   ⟨on (z.wr (R.PK_STAT_STATE 1) 3), 1, sound_of (by decide +kernel), by decide +kernel⟩,
   ⟨on ((z.wr (R.PK_STAT_STATE 1) 3).wr R.GAU_REST_WINDOW 1), 1, sound_of (by decide +kernel), by decide +kernel⟩,
   ⟨on ((z.wr (R.HP_LINK_STAT_UP 0) 1).wr (R.PK_STAT_STATE 1) 3), Requester.portA, 1, sound_of (by decide +kernel),
     by decide +kernel⟩,
   ⟨on (((z.wr (R.HP_LINK_STAT_UP 0) 1).wr (R.PK_STAT_STATE 1) 4).wr (R.PK_STAT_UNCOUNT 1) 1), Requester.portA, 1,
     sound_of (by decide +kernel), by decide +kernel⟩,
   ⟨on (((z.wr (R.HP_LINK_STAT_UP 0) 1).wr (R.PK_STAT_STATE 1) 3).wr (R.PK_AUTH_OVERRIDE 1) 1), Requester.portA, 1,
     sound_of (by decide +kernel), by decide +kernel⟩⟩

theorem witness_theGaugeLearnsAndTestsItsPacks :
    (∃ (s : State) (port lo hi : Nat), s.Sound ∧ s.packs.contains port = true ∧ s.identified port = true ∧ s.bit
      (R.PK_STAT_UNCOUNT port) 4 = false ∧ (s.pack port).learnMid = none ∧ (s.pack port).firstV = false ∧ 50 * ((s.curve
      port lo hi).2 - (s.curve port lo hi).1) < s.rd (R.PK_CAP port)) ∧
    (∃ (s : State) (port : Nat), s.Sound ∧ s.packs.contains port = true ∧ s.identified port = true ∧ s.bit
      (R.PK_STAT_UNCOUNT port) 4 = false) ∧
    (∃ (s : State) (port : Nat), s.Sound ∧ s.packs.contains port = true ∧ s.identified port = true ∧ (s.pack port).haveV
      = true ∧ 3 * s.rd (R.PK_CAP port) < 100 * max ((s.pack port).vLo - s.rd (R.PK_Q_CC port)) (s.rd (R.PK_Q_CC port) -
      s.rd (R.PK_Q_VHI port))) ∧
    (∃ (s : State) (who : Requester), s.Sound ∧ s.variant.gauge = true ∧ s.Writable who 0xA8) ∧
    (∃ (s : State) (who : Requester), s.Calm ∧ s.variant.gauge = true ∧ s.Writable who 0xA8 ∧ s.packA.highZAt = 0 ∧
      s.packB.highZAt = 0) ∧
    (∃ (s : State) (port : Nat), s.Sound ∧ s.packs.contains port = true ∧ s.identified port = true ∧ ((s.pack
      port).relearn || decide ((s.pack port).restAt + 259200 ≤ s.opsec)) = true ∧ s.flag R.GAU_CTRL_REST_PERMIT = true ∧
      (max s.packA.windowAt s.packB.windowAt = 0 ∨ max s.packA.windowAt s.packB.windowAt + 86400 ≤ s.opsec + 1) ∧
      s.testBar = false ∧ s.flag R.PHS_STAT_EW = false ∧ s.flag R.GAU_REST_WINDOW = false ∧ s.packA.test = 0 ∧
      s.packB.test = 0) ∧
    (∃ (s : State) (port : Nat), s.Sound ∧ s.packs.contains port = true ∧ s.identified port = true ∧ ((s.pack
      port).relearn || decide ((s.pack port).restAt + 259200 ≤ s.opsec)) = true ∧ s.flag R.GAU_CTRL_REST_PERMIT = false ∧
      ((s.pack port).widenAt = 0 ∨ (s.pack port).widenAt + 86400 ≤ s.opsec + 1)) ∧
    (∃ (s : State), s.Sound ∧ s.flag R.GAU_REST_WINDOW = true) ∧
    (∃ (s : State) (port : Nat), s.Calm ∧ s.packs.contains port = true ∧ s.identified port = true ∧ s.testBar = false ∧
      s.flag R.GAU_REST_WINDOW = false ∧ (s.pack port).test = 0 ∧ s.pu = 384 ∧ s.power.mainGood = true ∧ s.rd
      R.PHS_CT_DRAWN < 2 ^ 47) ∧
    (∃ (s : State) (port : Nat), s.Calm ∧ s.packs.contains port = true ∧ s.identified port = true ∧ s.testBar = false ∧
      s.flag R.GAU_REST_WINDOW = false ∧ (s.pack port).test = 0 ∧ s.pu = 384 ∧ s.power.mainGood = true ∧ s.rd
      R.PHS_CT_DRAWN < 2 ^ 47) ∧
    (∃ (s : State) (port : Nat), s.Sound ∧ port < 2 ∧ s.variant.gauge = true ∧ (s.pack port).test = 1) ∧
    (∃ (s : State) (port : Nat), s.Sound ∧ port < 2 ∧ (s.pack port).test = 2) ∧
    (∃ (s : State) (port : Nat), s.Sound ∧ port < 2 ∧ (s.pack port).test = 3 ∧ s.rd (R.PK_SOC_RAW port) ≤ 100 * clampTo
      (s.floorPct + 5) 90 (s.rd (R.PK_TEST_TO_PCT port))) ∧
    (∃ (s : State) (who : Requester) (port : Nat), s.Calm ∧ s.packs.contains port = true ∧ s.Writable who (0xA9 + port)
      ∧ s.flag (R.PK_TEST_SOLO port) = true ∧ s.identified port = true ∧ s.testBar = false ∧ s.flag R.GAU_REST_WINDOW =
      false ∧ (s.pack port).test = 0) ∧
    (∃ (s : State) (port : Nat), s.Sound ∧ s.packs.contains port = true ∧ s.cellHigh port = true ∧ (s.inWindow = true ∨
      s.flag (R.PK_STAT_CHARGING port) = false)) ∧
    (∃ (s : State) (port : Nat), s.Sound ∧ s.packs.contains port = true ∧ s.cellHigh port = true ∧ s.inWindow = false ∧
      s.flag (R.PK_STAT_CHARGING port) = true) ∧
    (∃ (s : State) (port kind : Nat), s.Sound ∧ s.packs.contains port = true ∧ s.flag (R.PK_STAT_CHARGING port) = (kind
      == 0) ∧ (kind ≠ 0 ∨ s.rd (R.PK_SOC_RAW port) < 9000) ∧ (kind ≠ 0 ∨ s.inWindow = true)) ∧
    (∃ (s : State) (port : Nat), s.Sound ∧ s.packs.contains port = true ∧ s.flag (R.PK_STAT_CHARGING port) = true ∧ s.rd
      (R.PK_SOC_RAW port) < 9000 ∧ s.inWindow = false) :=
  ⟨⟨on ((z.wr (R.PK_STAT_STATE 1) 3).wr (R.PK_CAP 1) 360000), 1, 200000, 203000, sound_of (by decide +kernel),
     by decide +kernel⟩,
   ⟨{ on (((z.wr (R.PK_STAT_STATE 1) 3).wr (R.PK_CAP 1) 360000).wr (R.PK_CFG_CHEM 1) 1) with packB := { z.packB with firstV := true, learnMid := some 300000, learnDrawn := 90000 } },
     1, sound_of (by decide +kernel), by decide +kernel⟩,
   ⟨{ on (((z.wr (R.PK_STAT_STATE 1) 3).wr (R.PK_CAP 1) 360000).wr (R.PK_Q_CC 1) 100000) with packB := { z.packB with haveV := true, vLo := 200000 } },
     1, sound_of (by decide +kernel), by decide +kernel⟩,
   ⟨{ on (z.wr (R.HP_LINK_STAT_UP 0) 1) with packB := { z.packB with highZAt := 1 } }, Requester.portA, sound_of
     (by decide +kernel), by decide +kernel⟩,
   ⟨on (z.wr (R.HP_LINK_STAT_UP 0) 1), Requester.portA, calm_of (by decide +kernel), by decide +kernel⟩,
   ⟨{ on ((z.wr (R.PK_STAT_STATE 1) 3).wr R.GAU_CTRL_REST_PERMIT 1) with packB := { z.packB with relearn := true } }, 1,
     sound_of (by decide +kernel), by decide +kernel⟩,
   ⟨{ on (((z.wr (R.PK_STAT_STATE 1) 3).wr (R.PK_CAP 1) 360000).wr R.GAU_CTRL_REST_PERMIT 0) with packB := { z.packB with relearn := true } },
     1, sound_of (by decide +kernel), by decide +kernel⟩,
   ⟨on (z.wr R.GAU_REST_WINDOW 1), sound_of (by decide +kernel), by decide +kernel⟩,
   ⟨on ((z.wr (R.PK_STAT_STATE 1) 3).wr R.PHS_PU 384), 1, calm_of (by decide +kernel), by decide +kernel⟩,
   ⟨on ((z.wr (R.PK_STAT_STATE 1) 3).wr R.PHS_PU 384), 1, calm_of (by decide +kernel), by decide +kernel⟩,
   ⟨{ on ((z.wr (R.PK_STAT_STATE 1) 4).wr (R.PK_STAT_UNCOUNT 1) 4) with packB := { z.packB with test := 1, pathOn := true, authOk := true } },
     1, sound_of (by decide +kernel), by decide +kernel⟩,
   ⟨{ on ((z.wr (R.PK_STAT_STATE 1) 4).wr (R.PK_STAT_UNCOUNT 1) 2) with packB := { z.packB with test := 2, pathOn := true, authOk := true } },
     1, sound_of (by decide +kernel), by decide +kernel⟩,
   ⟨{ on (((z.wr (R.PK_STAT_STATE 1) 3).wr (R.PK_SOC_RAW 1) 4000).wr (R.PK_TEST_TO_PCT 1) 50) with packB := { z.packB with test := 3, pathOn := true, authOk := true } },
     1, sound_of (by decide +kernel), by decide +kernel⟩,
   ⟨on (((z.wr (R.HP_LINK_STAT_UP 0) 1).wr (R.PK_STAT_STATE 1) 3).wr (R.PK_TEST_SOLO 1) 1), Requester.portA, 1, calm_of
     (by decide +kernel), by decide +kernel⟩,
   ⟨on (((z.wr (R.PK_CELL 1 2) 4300).wr (R.PK_STAT_CHARGING 1) 1).wr R.PHS_PU 500), 1, sound_of (by decide +kernel),
     by decide +kernel⟩,
   ⟨on ((z.wr (R.PK_CELL 1 2) 4300).wr (R.PK_STAT_CHARGING 1) 1), 1, sound_of (by decide +kernel), by decide +kernel⟩,
   ⟨on z, 1, 1, sound_of (by decide +kernel), by decide +kernel⟩,
   ⟨on (z.wr (R.PK_STAT_CHARGING 1) 1), 1, sound_of (by decide +kernel), by decide +kernel⟩⟩

theorem witness_programsRunStepByStep :
    (∃ (s : State) (n : Nat), s.Calm ∧ n < 8 ∧ s.seq.prog = none ∧ s.seq.due.head? = some n ∧ s.seq.ended = none ∧
      s.progValid n = true ∧ s.seq.store.get (s.rd (R.SQP_DIR_START n)) / 2 ^ 28 = 3 ∧ s.seq.store.get (s.rd
      (R.SQP_DIR_START n)) % 2 ^ 24 ≠ 0) ∧
    (∃ (s : State) (n : Nat), s.Sound ∧ s.seq.prog = none ∧ s.seq.due.head? = some n ∧ s.power.life = .running ∧
      s.progValid n = true ∧ n < 8) ∧
    (∃ (s : State) (n : Nat), s.Sound ∧ s.seq.prog = none ∧ s.seq.due.head? = some n ∧ s.power.life = .running ∧
      s.progValid n = true ∧ n < 8) ∧
    (∃ (s : State), s.Sound ∧ s.seq.prog = none ∧ s.seq.due.head? = some 1 ∧ s.power.life = .running ∧ s.progValid 1 =
      false) ∧
    (∃ (s : State) (n : Nat), s.Calm ∧ s.seq.prog = some n ∧ s.seq.derived = none ∧ s.seq.wait = .time ∧ s.seq.ended =
      none ∧ (s.seq.store.get (s.rd (R.SQP_DIR_START (s.seq.prog.getD 0)) + (s.seq.pc + 1))) / 2 ^ 28 = 3 ∧
      (s.seq.store.get (s.rd (R.SQP_DIR_START (s.seq.prog.getD 0)) + (s.seq.pc + 1))) % 2 ^ 24 ≠ 0) ∧
    (∃ (s : State), s.Sound ∧ (s.seq.wait = .time ∨ s.seq.wait = .gap ∨ s.seq.wait = .more) ∧ s.seq.prog.isSome = true ∧
      s.power.life = .running) ∧
    (∃ (s : State) (at_ : Nat), s.Sound ∧ s.seq.wait = .hc at_ ∧ s.seq.prog.isSome = true ∧ s.power.life = .running ∧
      at_ ≤ s.hc) ∧
    (∃ (s : State) (e : RiseEntry) (l : List RiseEntry), s.Calm ∧ s.seq.wait = .gap ∧ s.seq.prog = some 1 ∧
      s.seq.derived = some (e :: l) ∧ s.seq.ended = none) ∧
    (∃ (s : State) (n : Nat), s.Calm ∧ s.seq.prog = some n ∧ s.seq.derived = none ∧ s.seq.wait = .up 3 ∧ s.allGood 3 =
      true ∧ s.seq.ended = none ∧ (s.seq.store.get (s.rd (R.SQP_DIR_START (s.seq.prog.getD 0)) + (s.seq.pc + 1))) / 2 ^ 28
      = 3 ∧ (s.seq.store.get (s.rd (R.SQP_DIR_START (s.seq.prog.getD 0)) + (s.seq.pc + 1))) % 2 ^ 24 ≠ 0) ∧
    (∃ (s : State) (r : Nat), s.Sound ∧ (s.seq.wait = .up r ∧ s.allGood r = true ∨ s.seq.wait = .down r ∧ s.allDown r =
      true) ∧ s.seq.prog.isSome = true ∧ s.power.life = .running) ∧
    (∃ (s : State) (n : Nat), s.Calm ∧ s.seq.prog = some n ∧ s.seq.derived = none ∧ s.seq.wait = .sync true 9 ∧
      s.seq.ended = none ∧ (s.seq.store.get (s.rd (R.SQP_DIR_START (s.seq.prog.getD 0)) + (s.seq.pc + 1))) / 2 ^ 28 = 3 ∧
      (s.seq.store.get (s.rd (R.SQP_DIR_START (s.seq.prog.getD 0)) + (s.seq.pc + 1))) % 2 ^ 24 ≠ 0) ∧
    (∃ (s : State) (b : Bool) (n : Nat), s.Sound ∧ s.seq.wait = .sync b n ∧ s.seq.prog.isSome = true ∧ s.power.life =
      .running) ∧
    (∃ (s : State) (r : Nat), s.Sound ∧ s.seq.wait = .up r ∧ s.allGood r = false) ∧
    (∃ (s : State) (r : Nat), s.Sound ∧ s.seq.wait = .down r ∧ s.allDown r = false) ∧
    (∃ (s : State) (n : Nat) (b : Bool), s.Sound ∧ s.seq.wait = .sync b n) ∧
    (∃ (s : State) (n : Nat), s.Sound ∧ s.seq.prog = some n ∧ n ≠ 2) ∧
    (∃ (s : State), s.Sound ∧ s.paged = true ∧ s.inKiln = false) ∧
    (∃ (s : State), s.Sound ∧ s.paged = true ∧ s.inKiln = false) ∧
    (∃ (s : State), s.Sound ∧ s.seq.collapsed = true ∧ s.inKiln = false) ∧
    (∃ (s : State), s.Sound ∧ s.seq.collapsed = true ∧ s.inKiln = true) :=
  ⟨⟨{ on ((z.wr (R.SQP_DIR_LENGTH 5) 3).wr R.SQP_STAT_VALID 32) with seq := { z.seq with due := [5], store := [(0, 805306369)] } },
     5, calm_of (by decide +kernel), by decide +kernel⟩,
   ⟨{ on (((z.wr (R.SQP_DIR_LENGTH 5) 3).wr R.SQP_STAT_VALID 32).wr R.SQP_STAT_CHECK_FAIL 32) with seq := { z.seq with due := [5], store := [(0, 0x10000003), (1, 0x20000001)] } },
     5, sound_of (by decide +kernel), by decide +kernel⟩,
   ⟨{ on ((z.wr (R.SQP_DIR_LENGTH 5) 3).wr R.SQP_STAT_VALID 32) with seq := { z.seq with due := [5], store := [(0, 0x10000003), (1, 0x20000001)] } },
     5, sound_of (by decide +kernel), by decide +kernel⟩,
   ⟨{ on (z.wr R.SEQ_EN 7) with seq := { z.seq with due := [1], rise := [{ ens := 1, check := none }, { ens := 6, check := none }] } },
     sound_of (by decide +kernel), by decide +kernel⟩,
   ⟨{ on z with seq := { z.seq with prog := some 0, pc := 4, wait := .time, store := [(5, 805306369)] } }, 0, calm_of
     (by decide +kernel), by decide +kernel⟩,
   ⟨{ on z with seq := { z.seq with prog := some 0, pc := 4, wait := .time, store := [(5, 0x10000003), (6, 0x30000005)] } },
     sound_of (by decide +kernel), by decide +kernel⟩,
   ⟨{ on (z.wr R.PHS_HC 9) with seq := { z.seq with prog := some 0, pc := 4, wait := .hc 8, store := [(5, 0x10000003), (6, 0x30000005)] } },
     8, sound_of (by decide +kernel), by decide +kernel⟩,
   ⟨{ on (z.wr R.SEQ_EN 7) with seq := { z.seq with prog := some 1, wait := .gap, derived := some [{ ens := 6, check := some (3, 5) }], rise := [{ ens := 1, check := none }, { ens := 6, check := some (3, 5) }] } },
     ({ ens := 6, check := some (3, 5) } : RiseEntry), ([] : List RiseEntry), calm_of (by decide +kernel),
     by decide +kernel⟩,
   ⟨{ on (((z.wr (R.SEQ_RAIL_MV_STATE 0) 2).wr (R.SEQ_RAIL_MV_STATE 1) 2).wr R.SEQ_STAT_CHECK_FAILED 1) with seq := { z.seq with prog := some 0, pc := 4, wait := .up 3, store := [(5, 805306369)] } },
     0, calm_of (by decide +kernel), by decide +kernel⟩,
   ⟨{ on (z.wr (R.SEQ_RAIL_MV_STATE 0) 0) with seq := { z.seq with prog := some 0, pc := 4, wait := .down 1, store := [(5, 0x10000003), (6, 0x30000005)] } },
     1, sound_of (by decide +kernel), by decide +kernel⟩,
   ⟨{ on z with seq := { z.seq with prog := some 0, pc := 4, wait := .sync true 9, store := [(5, 805306369)] } }, 0,
     calm_of (by decide +kernel), by decide +kernel⟩,
   ⟨{ on z with seq := { z.seq with prog := some 0, pc := 4, wait := .sync false 9, store := [(5, 0x10000003), (6, 0x30000005)] } },
     false, 9, sound_of (by decide +kernel), by decide +kernel⟩,
   ⟨{ on z with seq := { z.seq with prog := some 0, pc := 4, wait := .up 3, store := [(5, 805306369)] } }, 3, sound_of
     (by decide +kernel), by decide +kernel⟩,
   ⟨{ on (z.wr (R.SEQ_RAIL_MV_STATE 1) 2 |>.wr (R.SEQ_RAIL_MV_MV 1) 900 |>.wr (R.SEQ_RAIL_MV_STATE 0) 2 |>.wr (R.SEQ_RAIL_MV_MV 0) 900 ) with seq := { z.seq with prog := some 0, pc := 4, wait := .down 3, store := [(5, 805306369)] } },
     3, sound_of (by decide +kernel), by decide +kernel⟩,
   ⟨{ on z with seq := { z.seq with prog := some 0, pc := 4, wait := .sync true 9, store := [(5, 805306369)] } }, 9,
     true, sound_of (by decide +kernel), by decide +kernel⟩,
   ⟨{ on z with seq := { z.seq with prog := some 0, pc := 4, wait := .time, store := [(5, 805306369)] } }, 0, sound_of
     (by decide +kernel), by decide +kernel⟩,
   ⟨on z, sound_of (by decide +kernel), by decide +kernel⟩,
   ⟨{ on ((z.wr R.SEQ_EN 1023).wr R.SEQ_KILN_EN 15) with seq := { z.seq with prog := some 4 } }, sound_of
     (by decide +kernel), by decide +kernel⟩,
   ⟨{ on (z.wr R.SEQ_EN 1023) with variant := .s, seq := { z.seq with collapsed := true, rise := [{ ens := 1023, check := none }] } },
     sound_of (by decide +kernel), by decide +kernel⟩,
   ⟨{ up (zk.wr R.KLN_STAT_STATE 9) with seq := { z.seq with collapsed := true } }, sound_of (by decide +kernel),
     by decide +kernel⟩⟩

theorem witness_marginsCountersAndButtonsAct :
    (∃ (s : State) (who : Requester) (v : Nat), s.Calm ∧ s.Writable who 0xA0 ∧ s.maint.isOpen = true ∧ v < 128 ∧ -50 ≤
      ofField 7 v ∧ ofField 7 v ≤ 50 ∧ s.mayMargin (s.rd R.SEQ_RAIL_SEL) = true) ∧
    (∃ (s : State) (who : Requester) (v : Nat), s.Sound ∧ s.Writable who 0xA0 ∧ (s.maint.isOpen = false ∨ ofField 7 (v %
      128) < -50 ∨ 50 < ofField 7 (v % 128) ∨ s.mayMargin (s.rd R.SEQ_RAIL_SEL) = false)) ∧
    (∃ (s : State) (i : Nat), s.Calm ∧ s.paged = true ∧ s.kiln.since = false ∧ s.pu = 384 ∧ i < 32 ∧ s.mayMargin i =
      true ∧ s.safe.conds.has 4256 = true ∧ s.latchedBit 133 0 = true) ∧
    (∃ (s : State) (i : Nat), s.Sound ∧ s.paged = true ∧ s.kiln.since = false ∧ s.pu = 384 ∧ i < 32 ∧ (s.mayMargin i =
      true ∨ s.rd (R.SEQ_RAIL_MARGIN_ACT10 i) ≠ 0)) ∧
    (∃ (s : State) (who : Requester), s.Calm ∧ s.Writable who 0xA0 ∧ s.maint.isOpen = true) ∧
    (∃ (s : State) (who : Requester), s.Sound ∧ s.Writable who 0xA0 ∧ s.maint.isOpen = false) ∧
    (∃ (s : State) (who : Requester), s.Calm ∧ s.Writable who 0xA0 ∧ s.maint.isOpen = true) ∧
    (∃ (s : State) (who : Requester), s.Sound ∧ s.Writable who 0xA0 ∧ s.maint.isOpen = false) ∧
    (∃ (s : State), s.Calm ∧ s.paged = true ∧ s.kiln.since = false ∧ s.seq.prog ≠ some 1 ∧ s.seq.railCopy = 1) ∧
    (∃ (s : State), s.Sound ∧ s.paged = true ∧ s.kiln.since = false ∧ s.seq.prog ≠ some 1) ∧
    (∃ (s : State) (who : Requester), s.Calm ∧ s.mayRead who 0xA1 = true) ∧
    (∃ (s : State) (who : Requester) (v : Nat), s.Calm ∧ s.Writable who 0xA1 ∧ (s.flag (R.COMMIT_PENDING 0xA1) = false ∨
      s.seq.staged.get (s.rd R.SQP_ADDR) = v) ∧ v < 2 ^ 32) ∧
    (∃ (s : State) (who : Requester) (v : Nat), s.Sound ∧ s.Writable who 0xA1 ∧ s.flag (R.COMMIT_PENDING 0xA1) = true ∧
      s.seq.staged.get (s.rd R.SQP_ADDR) ≠ v % 2 ^ 32) ∧
    (∃ (s : State) (ms : Nat), s.Calm ∧ s.RecordsOpen ∧ s.paged = true ∧ s.seq.held4 = false ∧ ms < 1000) ∧
    (∃ (s : State), s.Sound ∧ s.paged = true) ∧
    (∃ (s : State) (ms : Nat), s.Sound ∧ (s.power.life = .off ∧ s.seq.forcedOff = false ∨ s.power.life = .dormant ∨
      s.power.life = .off ∧ ms < 1000) ∧ s.power.mainGood = true ∧ s.seq.held4 = false ∧ ms < 4000) ∧
    (∃ (s : State), s.Calm ∧ s.RecordsOpen ∧ s.paged = true ∧ s.seq.held4 = false ∧ s.inKiln = false ∧ s.flag
      R.KLN_TRIG_MRN_EN = false) ∧
    (∃ (s : State), s.Sound ∧ s.seq.held4 = false) ∧
    (∃ (s : State), s.Sound ∧ s.seq.held12 = false) ∧
    (∃ (s : State), s.Sound ∧ s.seq.held12 = false) :=
  ⟨⟨{ on (((z.wr (R.HP_LINK_STAT_UP 0) 1).wr R.SEQ_RAIL_SEL 3).wr (R.SEQ_RAIL_CFG_TRIM_USED 3) 1) with maint := { z.maint with isOpen := true } },
     Requester.portA, 100, calm_of (by decide +kernel), by decide +kernel⟩,
   ⟨{ on (((z.wr (R.HP_LINK_STAT_UP 0) 1).wr R.SEQ_RAIL_SEL 3).wr (R.SEQ_RAIL_CFG_TRIM_USED 3) 1) with maint := { z.maint with isOpen := true } },
     Requester.portA, 63, sound_of (by decide +kernel), by decide +kernel⟩,
   ⟨{ on (((((z.wr (R.SEQ_RAIL_CFG_TRIM_USED 3) 1).wr (R.SEQ_RAIL_MARGIN_PCT10 3) 100).wr (R.SEQ_RAIL_MARGIN_ACT10 3) 250).wr R.PHS_PU 384).setBit (R.FLT_STAT 0xA0) 13 true) with safe := { z.safe with conds := [(4256, 4257)] } },
     3, calm_of (by decide +kernel), by decide +kernel⟩,
   ⟨on (((z.wr (R.SEQ_RAIL_CFG_TRIM_USED 3) 1).wr (R.SEQ_RAIL_MARGIN_PCT10 3) 100).wr R.PHS_PU 384), 3, sound_of
     (by decide +kernel), by decide +kernel⟩,
   ⟨{ on (((z.wr (R.HP_LINK_STAT_UP 0) 1).wr R.SEQ_RAIL_SEL 3).wr (R.SEQ_RAIL_CNT_UV_WARN 3) 7) with maint := { z.maint with isOpen := true } },
     Requester.portA, calm_of (by decide +kernel), by decide +kernel⟩,
   ⟨on (z.wr (R.HP_LINK_STAT_UP 0) 1), Requester.portA, sound_of (by decide +kernel), by decide +kernel⟩,
   ⟨{ on (((z.wr (R.HP_LINK_STAT_UP 0) 1).wr R.SEQ_RAIL_SEL 3).wr (R.SEQ_RAIL_CNT_UV_WARN 5) 7) with maint := { z.maint with isOpen := true } },
     Requester.portA, calm_of (by decide +kernel), by decide +kernel⟩,
   ⟨on (z.wr (R.HP_LINK_STAT_UP 0) 1), Requester.portA, sound_of (by decide +kernel), by decide +kernel⟩,
   ⟨{ on (z.wr (R.SEQ_RAIL_CNT_UV_WARN 5) 7) with seq := { z.seq with railCopy := 1 } }, calm_of (by decide +kernel),
     by decide +kernel⟩,
   ⟨on (z.wr (R.SEQ_RAIL_CNT_UV_WARN 5) 7), sound_of (by decide +kernel), by decide +kernel⟩,
   ⟨{ on ((z.wr (R.HP_LINK_STAT_UP 0) 1).wr R.SQP_ADDR 1023) with seq := { z.seq with staged := [(1023, 5)] } },
     Requester.portA, calm_of (by decide +kernel), by decide +kernel⟩,
   ⟨{ on ((z.wr (R.HP_LINK_STAT_UP 0) 1).wr R.SQP_ADDR 7) with maint := { z.maint with isOpen := true } },
     Requester.portA, 99, calm_of (by decide +kernel), by decide +kernel⟩,
   ⟨{ on ((z.wr (R.HP_LINK_STAT_UP 0) 1).wr (R.COMMIT_PENDING 0xA1) 1) with maint := { z.maint with isOpen := true } },
     Requester.portA, 99, sound_of (by decide +kernel), by decide +kernel⟩,
   ⟨{ on z with seq := { z.seq with press := true } }, 400, calm_of (by decide +kernel), by decide +kernel⟩,
   ⟨{ on z with seq := { z.seq with press := true } }, sound_of (by decide +kernel), by decide +kernel⟩,
   ⟨{ (z.wr R.PWR_STAT_STATE 4) with halted := [2, 3, 4, 5], power := { z.power with life := .off, mainGood := true }, seq := { z.seq with press := true, forcedOff := true } },
     400, sound_of (by decide +kernel), by decide +kernel⟩,
   ⟨on (z.wr R.KLN_TRIG_MRN_EN 0), calm_of (by decide +kernel), by decide +kernel⟩,
   ⟨on ((z.wr R.KLN_TRIG_MRN_EN 1).wr R.KLN_STAT_STATE 1), sound_of (by decide +kernel), by decide +kernel⟩,
   ⟨on z, sound_of (by decide +kernel), by decide +kernel⟩,
   ⟨on (z.wr R.SEQ_EN 9), sound_of (by decide +kernel), by decide +kernel⟩⟩

theorem witness_restIsEnteredAndLeft :
    (∃ (s : State) (p1 p2 : Bool), s.Calm ∧ s.power.life = .running ∧ s.rd R.PWR_STAT_STATE = 0 ∧ s.power.leaving = 0 ∧
      (s.dwelt (if p2 then 2 else if p1 then 1 else 0)).restBlock 1 = 0 ∧ (s.dwelt (if p2 then 2 else if p1 then 1 else
      0)).restBlock 2 ≠ 0 ∧ (s.variant.fabric = false ∨ s.srcFnn = 0x1FFF ∨ s.lsaSoon = true)) ∧
    (∃ (s : State) (p1 p2 : Bool), s.Calm ∧ s.power.life = .running ∧ s.rd R.PWR_STAT_STATE < 2 ∧ s.power.leaving = 0 ∧
      (s.dwelt (if p2 then 2 else if p1 then 1 else 0)).restBlock 2 = 0 ∧ (s.variant.fabric = false ∨ s.srcFnn = 0x1FFF ∨
      s.lsaSoon = true)) ∧
    (∃ (s : State) (p1 p2 : Bool), s.Sound ∧ (s.power.life ≠ .running ∨ 2 ≤ s.rd R.PWR_STAT_STATE ∨ s.power.leaving ≠ 0
      ∨ ((s.dwelt (if p2 then 2 else if p1 then 1 else 0)).restBlock 1 ≠ 0 ∧ (s.dwelt (if p2 then 2 else if p1 then 1 else
      0)).restBlock 2 ≠ 0))) ∧
    (∃ (s : State), s.Calm ∧ (s.rd R.PWR_STAT_STATE = 1 ∨ s.rd R.PWR_STAT_STATE = 2) ∧ (s.variant.fabric = false ∨
      s.srcFnn = 0x1FFF ∨ s.lsaSoon = true)) ∧
    (∃ (s : State), s.Sound ∧ (s.rd R.PWR_STAT_STATE = 1 ∨ s.rd R.PWR_STAT_STATE = 2)) ∧
    (∃ (s : State) (us : Nat), s.Calm ∧ s.power.leaving = 1 ∧ s.restRuns = false ∧ us ≤ 20) ∧
    (∃ (s : State), s.Sound ∧ s.power.leaving ≠ 0 ∧ s.restRuns = false) ∧
    (∃ (s : State), s.Sound ∧ s.rd R.PWR_STAT_STATE = 2) ∧
    (∃ (s : State) (port : Nat), s.Calm ∧ port < 2 ∧ s.hasPort port = true ∧ s.flag R.SNT_WAKE_EN_PERST = true ∧
      s.power.life = .dormant ∧ s.power.mainGood = true) ∧
    (∃ (s : State) (port : Nat), s.Sound ∧ s.hasPort port = true) ∧
    (∃ (s : State), s.Calm ∧ s.flag R.SNT_WAKE_EN_TIMER = true ∧ s.rd R.SNT_WAKE_AT ≤ s.rd R.SNT_RTC % 2 ^ 32 ∧
      s.power.life = .dormant ∧ s.power.mainGood = true) ∧
    (∃ (s : State), s.Sound ∧ s.flag R.SNT_WAKE_EN_TIMER = true ∧ s.rd R.SNT_WAKE_AT ≤ s.rd R.SNT_RTC % 2 ^ 32 ∧
      (s.power.life = .off ∨ s.power.life = .starting ∨ s.power.life = .failed ∨ s.power.life = .goingDown)) ∧
    (∃ (s : State), s.Sound ∧ s.power.life = .dormant) :=
  ⟨⟨on ((((z.wr R.WTH_STATE_STATE wthIdle).wr R.STP_STAT_PHASE 4).wr R.KLN_STAT_STATE 1).wr R.PWR_PERMIT_P1 1), true,
     false, calm_of (by decide +kernel), by decide +kernel⟩,
   ⟨on ((((z.wr R.WTH_STATE_STATE wthIdle).wr R.STP_STAT_PHASE 4).wr R.KLN_STAT_STATE 1).wr R.PWR_PERMIT_P2 1), true,
     true, calm_of (by decide +kernel), by decide +kernel⟩,
   ⟨on z, true, false, sound_of (by decide +kernel), by decide +kernel⟩,
   ⟨on (z.wr R.PWR_STAT_STATE 1), calm_of (by decide +kernel), by decide +kernel⟩,
   ⟨on (z.wr R.PWR_STAT_STATE 2), sound_of (by decide +kernel), by decide +kernel⟩,
   ⟨{ awake z with power := { z.power with life := .running, mainGood := true, leaving := 1 } }, 12, calm_of
     (by decide +kernel), by decide +kernel⟩,
   ⟨{ awake z with power := { z.power with life := .running, mainGood := true, leaving := 2 } }, sound_of
     (by decide +kernel), by decide +kernel⟩,
   ⟨on (z.wr R.PWR_STAT_STATE 2), sound_of (by decide +kernel), by decide +kernel⟩,
   ⟨{ awake (z.wr R.SNT_WAKE_EN_PERST 1) with power := { z.power with mainGood := true, life := .dormant } }, 1, calm_of
     (by decide +kernel), by decide +kernel⟩,
   ⟨{ on z with hostA := { z.hostA with perstN := false } }, 0, sound_of (by decide +kernel), by decide +kernel⟩,
   ⟨{ awake ((z.wr R.SNT_WAKE_EN_TIMER 1).wr R.SNT_RTC 9) with power := { z.power with mainGood := true, life := .dormant } },
     calm_of (by decide +kernel), by decide +kernel⟩,
   ⟨{ awake ((z.wr R.SNT_WAKE_EN_TIMER 1).wr R.SNT_RTC 9) with power := { z.power with life := .starting, mainGood := true } },
     sound_of (by decide +kernel), by decide +kernel⟩,
   ⟨{ awake (z.wr R.PWR_STAT_STATE 3) with power := { z.power with mainGood := true, life := .dormant }, variant := .s },
     sound_of (by decide +kernel), by decide +kernel⟩⟩

theorem witness_failedStartsAndTheIslandAreKept :
    (∃ (s : State), s.Sound ∧ s.power.life = .starting ∧ s.rd R.STP_STAT_HOLD = 0 ∧ s.power.runSteps.headD 1 < 16) ∧
    (∃ (s : State), s.Calm ∧ s.power.life = .failed ∧ s.power.mainGood = true ∧ s.seq.prog = none ∧ s.seq.due.contains 1
      = false) ∧
    (∃ (s : State) (who : Requester), s.Sound ∧ s.Writable who 0xE0) ∧
    (∃ (s : State) (who : Requester), s.Sound ∧ s.Writable who 0xE0 ∧ s.maint.isOpen = true) ∧
    (∃ (s : State) (who : Requester), s.Sound ∧ s.Writable who 0xE0 ∧ s.maint.isOpen = true ∧ s.flag
      R.SNT_FAILS_RECOVERY = true ∧ s.power.life ≠ .recovery) ∧
    (∃ (s : State) (who : Requester), s.Sound ∧ s.Writable who 0xE0 ∧ s.maint.isOpen = true ∧ s.flag
      R.SNT_FAILS_RECOVERY = true ∧ s.power.life = .recovery) ∧
    (∃ (s : State) (who : Requester), s.Sound ∧ s.Writable who 0xE0 ∧ s.maint.isOpen = false) ∧
    (∃ (s : State) (src k : Nat) (on : Bool), s.Sound ∧ hasSource s.variant src = true ∧ s.power.sources.testBit src ≠
      on ∧ (List.range 7).find? (fun i => (s.power.sources ^^^ 2 ^ src).testBit i) = some k ∧ k ≠ s.rd R.SNT_CTX_SUPPLY) ∧
    (∃ (s : State) (src : Nat), s.Sound ∧ hasSource s.variant src = true) ∧
    (∃ (s : State), s.Sound) ∧
    (∃ (s : State) (d : Nat), s.Sound ∧ 3 ≤ d ∧ d ≤ 24 ∧ s.badClocks.contains d = false ∧ (clockFaultSrcs s.variant
      d).isEmpty = false) ∧
    (∃ (s : State) (d : Nat), s.Calm ∧ s.badClocks.contains d = true) ∧
    (∃ (s : State) (d : Nat), s.Sound ∧ s.badClocks.contains d = true) ∧
    (∃ (s : State), s.Calm ∧ s.paged = true) ∧
    (∃ (s : State), s.Sound ∧ s.paged = true) :=
  ⟨⟨{ awake z with power := { z.power with mainGood := true, life := .starting, runSteps := [7, 8] } }, sound_of
     (by decide +kernel), by decide +kernel⟩,
   ⟨{ awake z with power := { z.power with mainGood := true, life := .failed } }, calm_of (by decide +kernel),
     by decide +kernel⟩,
   ⟨on (z.wr (R.HP_LINK_STAT_UP 0) 1), Requester.portA, sound_of (by decide +kernel), by decide +kernel⟩,
   ⟨{ on ((z.wr (R.HP_LINK_STAT_UP 0) 1).wr R.SNT_FAILS_COLD 2) with maint := { z.maint with isOpen := true } },
     Requester.portA, sound_of (by decide +kernel), by decide +kernel⟩,
   ⟨{ on ((z.wr (R.HP_LINK_STAT_UP 0) 1).wr R.SNT_FAILS_RECOVERY 1) with maint := { z.maint with isOpen := true } },
     Requester.portA, sound_of (by decide +kernel), by decide +kernel⟩,
   ⟨{ awake ((z.wr (R.HP_LINK_STAT_UP 0) 1).wr R.SNT_FAILS_RECOVERY 1) with power := { z.power with life := .recovery, mainGood := true }, maint := { z.maint with isOpen := true } },
     Requester.portA, sound_of (by decide +kernel), by decide +kernel⟩,
   ⟨on ((z.wr (R.HP_LINK_STAT_UP 0) 1).wr R.SNT_FAILS_COLD 1), Requester.portA, sound_of (by decide +kernel),
     by decide +kernel⟩,
   ⟨{ awake z with power := { z.power with life := .running, mainGood := true, sources := 3 } }, 0, 1, false, sound_of
     (by decide +kernel), by decide +kernel⟩,
   ⟨{ awake z with power := { z.power with life := .running, mainGood := true, sources := 3 } }, 1, sound_of
     (by decide +kernel), by decide +kernel⟩,
   ⟨{ on ((z.wr R.SEQ_EN 5).wr R.SNT_RTC 9) with variant := .s, dram := { z.dram with mem := [(5, 6)] } }, sound_of
     (by decide +kernel)⟩,
   ⟨on z, 20, sound_of (by decide +kernel), by decide +kernel⟩,
   ⟨{ on z with badClocks := [20] }, 20, calm_of (by decide +kernel), by decide +kernel⟩,
   ⟨{ on z with badClocks := [20, 3] }, 20, sound_of (by decide +kernel), by decide +kernel⟩,
   ⟨on z, calm_of (by decide +kernel), by decide +kernel⟩,
   ⟨on z, sound_of (by decide +kernel), by decide +kernel⟩⟩

theorem witness_aStartGoesStepByStep :
    (∃ (s : State), s.Calm ∧ s.power.life = .off ∧ s.seq.forcedOff = false ∧ s.power.cause < 8) ∧
    (∃ (s : State) (ms : Nat), s.Calm ∧ s.power.life = .starting ∧ s.power.runSteps.contains 3 = true ∧ ms < 65536 ∧
      s.recs.used.get 0x0103 < s.tlogRate) ∧
    (∃ (s : State) (n : Nat) (ok : Bool), s.Sound ∧ s.power.life = .starting ∧ s.power.runSteps.contains n = true ∧ ((ok
      = true ∧ (n = 3 ∨ n = 5 ∨ n = 8)) ∨ n = 6 ∨ n = 7 ∨ n = 9)) ∧
    (∃ (s : State), s.Sound ∧ s.power.life = .starting ∧ s.power.runSteps.contains 1 = true ∧ s.seqBusy 0 = false ∧
      s.seqBusy 7 = false) ∧
    (∃ (s : State), s.Sound ∧ s.power.life = .starting ∧ s.power.runSteps.contains 2 = true ∧ s.flag
      R.SNT_FAILS_RECOVERY = false) ∧
    (∃ (s : State) (f : BootFound), s.Sound ∧ s.power.life = .starting ∧ s.power.runSteps.contains 4 = true ∧ f.bank0Ok
      = true ∧ f.bank1Ok = true) ∧
    (∃ (s : State) (f : BootFound), s.Sound ∧ s.power.life = .starting ∧ s.power.runSteps.contains 10 = true ∧ s.flag
      R.CRY_STAT_KEY_VALID = true ∧ f.katOk = true ∧ f.fields = []) ∧
    (∃ (s : State), s.Sound ∧ s.power.life = .starting ∧ s.power.runSteps.contains 11 = true ∧ s.seqBusy 3 = false ∧
      s.rd R.STP_STAT_HOLD = 4 ∧ s.cellar.chain.length < 8) ∧
    (∃ (s : State) (n cause : Nat), s.Sound ∧ s.power.life = .starting ∧ s.power.runSteps.contains n = true ∧ (n = 3 ∨ n
      = 4 ∨ n = 5 ∨ n = 8 ∨ n = 10 ∨ n = 12) ∧ cause < 256) ∧
    (∃ (s : State), s.Calm ∧ s.RecordsOpen ∧ s.power.life = .starting ∧ s.power.runSteps.contains 12 = true ∧ s.rd
      R.PWR_START_KIND = 1 ∧ s.flag R.KLN_CTRL_ARM = true ∧ s.cal.deferred = false ∧ 0 < s.rd R.CAP_HOST ∧
      s.variant.fabric = false ∧ s.flag R.PHS_STAT_EW = false ∧ s.power.belowWarn = false ∧ s.rd R.CEL_UNPOW = 1) :=
  ⟨⟨z, calm_of (by decide +kernel), by decide +kernel⟩,
   ⟨{ z with power := { z.power with life := .starting, runSteps := [3], doneSteps := [2, 1] } }, 40, calm_of
     (by decide +kernel), by decide +kernel⟩,
   ⟨{ z with power := { z.power with life := .starting, runSteps := [8], doneSteps := [2, 1] } }, 8, true, sound_of
     (by decide +kernel), by decide +kernel⟩,
   ⟨{ z with power := { z.power with life := .starting, runSteps := [1] } }, sound_of (by decide +kernel),
     by decide +kernel⟩,
   ⟨{ z with power := { z.power with life := .starting, runSteps := [2], ctxOk := true } }, sound_of
     (by decide +kernel), by decide +kernel⟩,
   ⟨{ z with power := { z.power with life := .starting, runSteps := [4], ctxOk := true } }, ({} : BootFound), sound_of
     (by decide +kernel), by decide +kernel⟩,
   ⟨{ z with power := { z.power with life := .starting, runSteps := [10] } }.wr R.CRY_STAT_KEY_VALID 1, ({} :
     BootFound), sound_of (by decide +kernel), by decide +kernel⟩,
   ⟨{ z with power := { z.power with life := .starting, runSteps := [11] } }.wr R.STP_STAT_HOLD 4, sound_of
     (by decide +kernel), by decide +kernel⟩,
   ⟨{ z with power := { z.power with life := .starting, runSteps := [4] } }, 4, 211, sound_of (by decide +kernel),
     by decide +kernel⟩,
   ⟨{ (z.wr R.PWR_START_KIND 1).wr R.CAP_HOST 1024 |>.wr R.CEL_UNPOW 1 with variant := .s, power := { z.power with life := .starting, runSteps := [12], warm := true } },
     calm_of (by decide +kernel), by decide +kernel⟩⟩

theorem witness_reactionsEndAndSourcesAreReleased :
    (∃ (s : State) (src sev : Nat) (l : List (Nat × Nat)), s.Calm ∧ s.RecordsOpen ∧ s.runs .safety = true ∧ s.safe.stack
      = (src, sev) :: l ∧ [1, 2, 3, 4].all (fun n => watchdogSrc n != src) = true ∧ s.held = []) ∧
    (∃ (s : State) (src sev : Nat) (l : List (Nat × Nat)), s.Sound ∧ s.runs .safety = true ∧ s.safe.stack = (src, sev)
      :: l ∧ s.held = []) ∧
    (∃ (s : State), s.Sound ∧ s.runs .safety = false ∧ s.paged = true ∧ (s.condAny 183 = true ∨ s.condAny 184 = true) ∧
      s.held = []) ∧
    (∃ (s : State), s.Sound ∧ s.RecordsOpen ∧ s.rd R.SAF_STAT_STATE = 2 ∧ s.rd R.SAF_QUIET_LEFT = 0 ∧ s.kiln.since =
      false) ∧
    (∃ (s : State), s.Sound ∧ s.rd R.SAF_STAT_STATE = 2 ∧ s.rd R.SAF_QUIET_LEFT = 0 ∧ s.kiln.since = false) ∧
    (∃ (s : State) (src : Nat), s.Sound ∧ condSrcs.contains src = false ∧ s.safe.active.all (fun a => a.src != src ||
      !sticky a.act) = true) ∧
    (∃ (s : State), s.Sound) ∧
    (∃ (s : State) (low : Bool), s.Calm ∧ s.paged = true ∧ low = s.flag R.SAF_STAT_ERRN_DRIVE) ∧
    (∃ (s : State), s.Sound ∧ s.paged = true) ∧
    (∃ (s : State) (low : Bool), s.Sound ∧ s.paged = true ∧ low ≠ s.flag R.SAF_STAT_ERRN_DRIVE ∧ s.safe.readbackRun = 2) ∧
    (∃ (s : State) (who : Requester), s.Calm ∧ s.Writable who 0xC0 ∧ s.maint.isOpen = true) ∧
    (∃ (s : State) (who : Requester), s.Sound ∧ s.Writable who 0xC0 ∧ s.maint.isOpen = true) ∧
    (∃ (s : State) (who : Requester), s.Calm ∧ s.Writable who 0xC0) ∧
    (∃ (s : State) (who : Requester), s.Sound ∧ s.Writable who 0xC0) :=
  ⟨⟨{ on z with safe := { z.safe with stack := [(30, 2)], reports := [{ src := 30, inst := 0, sev := 2, masked := false, kiln := false, data := 1, opsec := 5, hc := 6, pu := 7 }] } },
     30, 2, ([] : List (Nat × Nat)), calm_of (by decide +kernel), by decide +kernel⟩,
   ⟨{ on z with safe := { z.safe with stack := [(30, 2), (5, 1)], reports := [{ src := 30, inst := 0, sev := 2, masked := false, kiln := false, data := 1, opsec := 5, hc := 6, pu := 7 }] } },
     30, 2, [(5, 1)], sound_of (by decide +kernel), by decide +kernel⟩,
   ⟨{ z with halted := [5], power := { z.power with life := .running, mainGood := true }, safe := { z.safe with conds := RSet.insert1 [] (184 * 32) } },
     sound_of (by decide +kernel), by decide +kernel⟩,
   ⟨{ on (z.wr R.SAF_STAT_STATE 2) with safe := { z.safe with active := [{ src := 30, sev := 2, act := 1, insts := [0] }] } },
     sound_of (by decide +kernel), by decide +kernel⟩,
   ⟨{ on (z.wr R.SAF_STAT_STATE 2) with safe := { z.safe with active := [{ src := 30, sev := 2, act := 1, insts := [0] }] } },
     sound_of (by decide +kernel), by decide +kernel⟩,
   ⟨{ on z with safe := { z.safe with active := [{ src := 30, sev := 1, act := 1, insts := [0] }] } }, 30, sound_of
     (by decide +kernel), by decide +kernel⟩,
   ⟨{ on z with safe := { z.safe with active := [{ src := 30, sev := 2, act := 1, insts := [0] }] } }, sound_of
     (by decide +kernel)⟩,
   ⟨{ on z with safe := { z.safe with readbackRun := 2 } }, false, calm_of (by decide +kernel), by decide +kernel⟩,
   ⟨{ on z with safe := { z.safe with readbackRun := 1, errnTest := 1 } }, sound_of (by decide +kernel),
     by decide +kernel⟩,
   ⟨{ on z with safe := { z.safe with readbackRun := 2 } }, true, sound_of (by decide +kernel), by decide +kernel⟩,
   ⟨{ on (z.wr (R.HP_LINK_STAT_UP 0) 1) with maint := { z.maint with isOpen := true } }, Requester.portA, calm_of
     (by decide +kernel), by decide +kernel⟩,
   ⟨{ on (z.wr (R.HP_LINK_STAT_UP 0) 1) with maint := { z.maint with isOpen := true } }, Requester.portA, sound_of
     (by decide +kernel), by decide +kernel⟩,
   ⟨{ on (z.wr (R.HP_LINK_STAT_UP 0) 1) with safe := { z.safe with hist := [{ src := 30, sev := 2, inst := 0, injected := false, masked := false, preempt := false, order := 0, opsec := 0, pu := 0, hc := 0 }] } },
     Requester.portA, calm_of (by decide +kernel), by decide +kernel⟩,
   ⟨on ((z.wr (R.HP_LINK_STAT_UP 0) 1).wr R.SAF_HIST_LOST 7), Requester.portA, sound_of (by decide +kernel),
     by decide +kernel⟩⟩

theorem witness_processorsAndComparatorsAreWatched :
    (∃ (s : State) (src inst : Nat), s.Sound ∧ s.injWaits src inst = true) ∧
    (∃ (s : State), s.Sound ∧ s.runs .safety = true ∧ s.held = []) ∧
    (∃ (s : State) (n : Nat), s.Sound ∧ 0 < n ∧ n < 6 ∧ s.present n = true ∧ s.halted.contains n = false ∧ s.paged =
      true ∧ s.held = []) ∧
    (∃ (s : State), s.Sound ∧ s.paged = true ∧ s.inWindow = true ∧ s.safe.injWait = [] ∧ s.rd (R.MON_CMP_STAT_FAILED 0)
      = 0 ∧ s.rd (R.MON_CMP_STAT_FAILED 1) = 0 ∧ s.rd (R.MON_CMP_STAT_FAILED 2) = 0) ∧
    (∃ (s : State), s.Sound ∧ s.paged = true ∧ s.inWindow = true ∧ s.safe.injWait = []) ∧
    (∃ (s : State), s.Sound ∧ s.paged = true ∧ s.inWindow = true) ∧
    (∃ (s : State), s.Sound ∧ (s.paged = false ∨ s.inWindow = false)) :=
  ⟨⟨{ on z with safe := { z.safe with injWait := [(30, 0)] } }, 30, 0, sound_of (by decide +kernel), by decide +kernel⟩,
   ⟨on z, sound_of (by decide +kernel), by decide +kernel⟩,
   ⟨on z, 3, sound_of (by decide +kernel), by decide +kernel⟩,
   ⟨on (z.wr R.PHS_PU 500), sound_of (by decide +kernel), by decide +kernel⟩,
   ⟨on (z.wr R.PHS_PU 500), sound_of (by decide +kernel), by decide +kernel⟩,
   ⟨on (z.wr R.PHS_PU 500), sound_of (by decide +kernel), by decide +kernel⟩,
   ⟨on (z.wr R.PHS_PU 700), sound_of (by decide +kernel), by decide +kernel⟩⟩

theorem witness_recordsAreKeptAndCleared :
    (∃ (s : State), s.Calm ∧ s.recs.held ≠ []) ∧
    (∃ (s : State), s.Sound) ∧
    (∃ (s : State) (who : Requester), s.Sound ∧ s.Writable who 0xC8 ∧ s.maint.isOpen = true) ∧
    (∃ (s : State) (who : Requester), s.Sound ∧ s.Writable who 0xC8 ∧ s.maint.isOpen = false) ∧
    (∃ (s : State) (who : Requester), s.Sound ∧ s.Writable who 0xC9 ∧ s.maint.isOpen = true ∧ s.recs.writing = 0) ∧
    (∃ (s : State) (who : Requester), s.Sound ∧ s.Writable who 0xC9 ∧ s.maint.isOpen = true ∧ s.recs.writing ≠ 0) ∧
    (∃ (s : State), s.Calm ∧ s.inKiln = false ∧ s.paged = true ∧ s.recs.writing = 0) ∧
    (∃ (s : State) (who : Requester), s.Sound ∧ s.Writable who 0xC9) ∧
    (∃ (s : State) (i : RecImage), s.Calm ∧ s.recs.writing = 1 ∧ s.recs.image = some i ∧ s.recs.clearWaits = false) ∧
    (∃ (s : State), s.Sound ∧ s.recs.writing ≠ 0 ∧ s.recs.clearWaits = false) :=
  ⟨⟨{ on z with recs := { z.recs with held := [(0x0105, 4)] } }, calm_of (by decide +kernel), by decide +kernel⟩,
   ⟨{ on z with recs := { z.recs with held := [(0x0105, 4), (0x0106, 70000)] } }, sound_of (by decide +kernel)⟩,
   ⟨{ on (z.wr (R.HP_LINK_STAT_UP 0) 1) with maint := { z.maint with isOpen := true } }, Requester.portA, sound_of
     (by decide +kernel), by decide +kernel⟩,
   ⟨on (z.wr (R.HP_LINK_STAT_UP 0) 1), Requester.portA, sound_of (by decide +kernel), by decide +kernel⟩,
   ⟨{ on (z.wr (R.HP_LINK_STAT_UP 0) 1) with maint := { z.maint with isOpen := true } }, Requester.portA, sound_of
     (by decide +kernel), by decide +kernel⟩,
   ⟨{ on (z.wr (R.HP_LINK_STAT_UP 0) 1) with maint := { z.maint with isOpen := true }, recs := { z.recs with writing := 2 } },
     Requester.portA, sound_of (by decide +kernel), by decide +kernel⟩,
   ⟨on z, calm_of (by decide +kernel), by decide +kernel⟩,
   ⟨on (z.wr (R.HP_LINK_STAT_UP 0) 1), Requester.portA, sound_of (by decide +kernel), by decide +kernel⟩,
   ⟨{ on (z.wr R.REC_STAT_FLUSHING 1) with recs := { z.recs with writing := 1, image := some ({ flushSeq := 5, opsec := 6, pcycles := 7, slots := [], unrec := 0, valid := true } : RecImage) } },
     ({ flushSeq := 5, opsec := 6, pcycles := 7, slots := [], unrec := 0, valid := true } : RecImage), calm_of
     (by decide +kernel), by decide +kernel⟩,
   ⟨{ on ((z.wr R.REC_STAT_FLUSHING 1).wr R.REC_CTRL_FLUSH 1) with recs := { z.recs with writing := 2, image := some { flushSeq := 5, opsec := 6, pcycles := 7, slots := [], unrec := 0, valid := true } } },
     sound_of (by decide +kernel), by decide +kernel⟩⟩

theorem witness_calibrationRunsAndChecks :
    (∃ (s : State) (who : Requester), s.Calm ∧ s.Writable who 0xB9 ∧ s.flag R.CAL_STAT_RUNNING = false ∧ s.works 0xB9 =
      true ∧ s.inKiln = false ∧ s.rd R.KLN_STAT_STATE ≠ 2) ∧
    (∃ (s : State), s.Sound ∧ s.power.life = .starting ∧ s.power.runSteps.contains 6 = true ∧ s.inKiln = false ∧ s.rd
      R.KLN_STAT_STATE ≠ 2 ∧ s.works 0xB9 = true) ∧
    (∃ (s : State) (who : Requester), s.Sound ∧ s.Writable who 0xB9 ∧ s.flag R.CAL_STAT_RUNNING = false ∧ s.works 0xB9 =
      true ∧ (s.inKiln = true ∨ s.rd R.KLN_STAT_STATE = 2)) ∧
    (∃ (s : State) (who : Requester), s.Sound ∧ s.Writable who 0xB9 ∧ s.flag R.CAL_STAT_RUNNING = true) ∧
    (∃ (s : State), s.Calm ∧ s.paged = true ∧ max 2 (s.rd R.CAL_CTRL_TEMP_DELTA_C) ≤ (ofField 8 (s.rd R.MON_TEMP_DIE_C)
      - ofField 8 (s.rd R.MON_TEMP_AT_CAL_C)).natAbs ∧ s.flag R.CAL_STAT_RUNNING = false ∧ s.inKiln = false ∧ s.rd
      R.KLN_STAT_STATE ≠ 2 ∧ s.works 0xB9 = true) ∧
    (∃ (s : State), s.Sound ∧ s.paged = true ∧ s.flag R.CAL_STAT_RUNNING = false ∧ s.works 0xB9 = true ∧ s.inKiln =
      false ∧ s.rd R.KLN_STAT_STATE ≠ 2) ∧
    (∃ (s : State) (gain ofs : Int), s.Calm ∧ s.flag R.CAL_STAT_RUNNING = true ∧ s.rd R.MON_STAT_CAL_ADC < 2 ∧
      gain.natAbs ≤ 20000 ∧ ofs.natAbs ≤ 5000) ∧
    (∃ (s : State), s.Sound ∧ s.flag R.CAL_STAT_RUNNING = true ∧ s.rd R.MON_STAT_CAL_ADC < 2) ∧
    (∃ (s : State), s.Sound ∧ s.flag R.CAL_STAT_RUNNING = true ∧ 2 ≤ s.rd R.MON_STAT_CAL_ADC ∧ s.cal.vrefWaits = none) ∧
    (∃ (s : State) (who : Requester) (uv : Nat), s.Calm ∧ s.Writable who 0xB9 ∧ s.maint.isOpen = true ∧ s.flag
      R.CAL_CTRL_VREF_EN = true ∧ uv < 2 ^ 24) ∧
    (∃ (s : State) (who : Requester), s.Sound ∧ s.Writable who 0xB9 ∧ s.maint.isOpen = true ∧ s.flag R.CAL_CTRL_VREF_EN
      = true) ∧
    (∃ (s : State) (uv : Nat), s.Calm ∧ s.paged = true ∧ s.flag R.CAL_CTRL_VREF_EN = true ∧ s.cal.vrefStopped = false ∧
      s.flag R.CAL_STAT_RUNNING = false ∧ s.inKiln = false ∧ s.rd R.KLN_STAT_STATE ≠ 2 ∧ uv < 2 ^ 24 ∧ 200 * (uv -
      s.flash.moduleRec.getD 1200000) ≤ s.flash.moduleRec.getD 1200000 ∧ 200 * (s.flash.moduleRec.getD 1200000 - uv) ≤
      s.flash.moduleRec.getD 1200000 ∧ s.works 0xB9 = true) ∧
    (∃ (s : State), s.Sound ∧ s.paged = true ∧ s.flag R.CAL_CTRL_VREF_EN = true ∧ s.cal.vrefStopped = false ∧ s.flag
      R.CAL_STAT_RUNNING = true) ∧
    (∃ (s : State) (uv : Nat), s.Sound ∧ s.paged = true ∧ s.flag R.CAL_CTRL_VREF_EN = true ∧ s.cal.vrefStopped = false ∧
      s.flag R.CAL_STAT_RUNNING = false ∧ uv < 2 ^ 24 ∧ s.flash.moduleRec.getD 1200000 < 200 * (uv -
      s.flash.moduleRec.getD 1200000)) :=
  ⟨⟨on (z.wr (R.HP_LINK_STAT_UP 0) 1), Requester.portA, calm_of (by decide +kernel), by decide +kernel⟩,
   ⟨{ awake z with power := { z.power with life := .starting, mainGood := true, runSteps := [6] } }, sound_of
     (by decide +kernel), by decide +kernel⟩,
   ⟨on ((z.wr (R.HP_LINK_STAT_UP 0) 1).wr R.KLN_STAT_STATE 2), Requester.portA, sound_of (by decide +kernel),
     by decide +kernel⟩,
   ⟨on ((z.wr (R.HP_LINK_STAT_UP 0) 1).wr R.CAL_STAT_RUNNING 1), Requester.portA, sound_of (by decide +kernel),
     by decide +kernel⟩,
   ⟨on (z.wr R.MON_TEMP_DIE_C 90), calm_of (by decide +kernel), by decide +kernel⟩,
   ⟨on (z.wr R.MON_TEMP_DIE_C 1), sound_of (by decide +kernel), by decide +kernel⟩,
   ⟨on (z.wr R.CAL_STAT_RUNNING 1), (-300 : Int), (40 : Int), calm_of (by decide +kernel), by decide +kernel⟩,
   ⟨on (z.wr R.CAL_STAT_RUNNING 1), sound_of (by decide +kernel), by decide +kernel⟩,
   ⟨on ((z.wr R.CAL_STAT_RUNNING 1).wr R.MON_STAT_CAL_ADC 2), sound_of (by decide +kernel), by decide +kernel⟩,
   ⟨{ on ((z.wr (R.HP_LINK_STAT_UP 0) 1).wr R.CAL_CTRL_VREF_EN 1) with maint := { z.maint with isOpen := true } },
     Requester.portA, 1200100, calm_of (by decide +kernel), by decide +kernel⟩,
   ⟨{ on ((z.wr (R.HP_LINK_STAT_UP 0) 1).wr R.CAL_CTRL_VREF_EN 1) with maint := { z.maint with isOpen := true } },
     Requester.portA, sound_of (by decide +kernel), by decide +kernel⟩,
   ⟨on (z.wr R.CAL_CTRL_VREF_EN 1), 1200100, calm_of (by decide +kernel), by decide +kernel⟩,
   ⟨on ((z.wr R.CAL_CTRL_VREF_EN 1).wr R.CAL_STAT_RUNNING 1), sound_of (by decide +kernel), by decide +kernel⟩,
   ⟨on (z.wr R.CAL_CTRL_VREF_EN 1), 1300000, sound_of (by decide +kernel), by decide +kernel⟩⟩

theorem witness_flashCommandsTakeTheirSequence :
    (∃ (s : State) (fw : Bool) (who : Requester), s.Sound ∧ s.rd R.PWR_STAT_STATE = 0 ∧ s.flashAdmit fw who = .accept ∧
      (s.flashSeq fw).step = 0) ∧
    (∃ (s : State) (fw : Bool) (who : Requester), s.Sound ∧ s.rd R.PWR_STAT_STATE = 0 ∧ s.flashAdmit fw who = .accept ∧
      (s.flashSeq fw).step = 1) ∧
    (∃ (s : State) (fw : Bool) (who : Requester) (v : Nat), s.Sound ∧ s.rd R.PWR_STAT_STATE = 0 ∧ s.flashAdmit fw who =
      .accept ∧ ¬ ((s.flashSeq fw).step = 0 ∧ v % 65536 = 0x5A3C) ∧ ¬ ((s.flashSeq fw).step = 1 ∧ v % 65536 = 0xC3A5)) ∧
    (∃ (s : State) (fw : Bool) (who : Requester) (addr word : Nat), s.Sound ∧ s.rd R.PWR_STAT_STATE = 0 ∧ s.flashAdmit
      fw who = .accept ∧ (s.flashSeq fw).step = 2 ∧ addr < 2 * bankBytes ∧ word < 2 ^ 64 ∧ s.flashOp (flashBank addr) =
      none ∧ inRecords addr = false ∧ s.protectedBank (flashBank addr) = false ∧ s.flash.words.get (addr / 8) = 0 ∧
      s.flash.undefined.has (addr / 8) = false) ∧
    (∃ (s : State) (fw : Bool) (who : Requester) (addr word : Nat), s.Sound ∧ s.rd R.PWR_STAT_STATE = 0 ∧ s.flashAdmit
      fw who = .accept ∧ (s.flashSeq fw).step = 2 ∧ s.flashOp (flashBank addr) = none ∧ ((inRecords addr = false ∧
      s.protectedBank (flashBank addr) = false ∧ s.flash.words.get (addr % 33554432 / 8) = 0 ∧ s.flash.undefined.has (addr
      % 33554432 / 8) = false) ∨ (inRecords addr = true ∧ s.flash.programs.get (addr % 33554432 / 8) < 2 ∧ (word % 2 ^ 64
      ^^^ (2 ^ 64 - 1)) &&& s.flash.words.get (addr % 33554432 / 8) = s.flash.words.get (addr % 33554432 / 8)))) ∧
    (∃ (s : State) (fw : Bool) (who : Requester), s.Sound ∧ s.rd R.PWR_STAT_STATE = 0 ∧ s.flashAdmit fw who = .accept ∧
      (s.flashSeq fw).step ≠ 2) ∧
    (∃ (s : State) (fw : Bool) (who : Requester) (addr : Nat), s.Sound ∧ s.rd R.PWR_STAT_STATE = 0 ∧ s.flashAdmit fw who
      = .accept ∧ (s.flashSeq fw).step = 2 ∧ (inRecords addr = true ∨ s.protectedBank (flashBank addr) = false) ∧
      (s.flashOp (flashBank addr)).isSome = true) ∧
    (∃ (s : State) (fw : Bool) (who : Requester) (addr : Nat), s.Sound ∧ s.rd R.PWR_STAT_STATE = 0 ∧ s.flashAdmit fw who
      = .accept ∧ (s.flashSeq fw).step = 2 ∧ s.flashOp (flashBank addr) = none ∧ (inRecords addr = true ∨ s.protectedBank
      (flashBank addr) = false)) ∧
    (∃ (s : State) (fw : Bool) (who : Requester), s.Sound ∧ s.rd R.PWR_STAT_STATE = 0 ∧ s.flashAdmit fw who = .accept ∧
      (s.flashSeq fw).step ≠ 2) ∧
    (∃ (s : State) (fw : Bool) (who : Requester) (addr : Nat), s.Sound ∧ s.rd R.PWR_STAT_STATE = 0 ∧ s.flashAdmit fw who
      = .accept ∧ (s.flashSeq fw).step = 2 ∧ (inRecords addr = true ∨ s.protectedBank (flashBank addr) = false) ∧
      (s.flashOp (flashBank addr)).isSome = true) ∧
    (∃ (s : State) (fw : Bool) (who : Requester) (addr : Nat), s.Sound ∧ s.rd R.PWR_STAT_STATE = 0 ∧ s.flashAdmit fw who
      = .accept ∧ (s.flashSeq fw).step = 2 ∧ s.flashOp (flashBank addr) = none ∧ (inRecords addr = true ∨ s.protectedBank
      (flashBank addr) = false)) ∧
    (∃ (s : State) (fw : Bool) (who : Requester), s.Sound ∧ s.rd R.PWR_STAT_STATE = 0 ∧ s.flashAdmit fw who = .accept ∧
      (s.flashSeq fw).step ≠ 2) ∧
    (∃ (s : State) (fw : Bool) (who : Requester) (addr : Nat), s.Sound ∧ s.rd R.PWR_STAT_STATE = 0 ∧ s.flashAdmit fw who
      = .accept ∧ (s.flashSeq fw).step = 2 ∧ (inRecords addr = true ∨ s.protectedBank (flashBank addr) = false) ∧
      (s.flashOp (flashBank addr)).isSome = true) ∧
    (∃ (s : State) (fw : Bool) (who : Requester), s.Sound ∧ s.rd R.PWR_STAT_STATE = 0 ∧ s.flashAdmit fw who = .accept ∧
      (s.flashSeq fw).step = 2) ∧
    (∃ (s : State) (fw : Bool) (who : Requester), s.Sound ∧ s.rd R.PWR_STAT_STATE = 0 ∧ s.flashAdmit fw who = .accept ∧
      (s.flashSeq fw).step ≠ 2) ∧
    (∃ (s : State) (bank : Nat) (o : FlashOp), s.Sound ∧ bank < 2 ∧ s.flashOp bank = some o ∧ o.opcode = 1) ∧
    (∃ (s : State) (bank : Nat) (o : FlashOp), s.Sound ∧ bank < 2 ∧ s.flashOp bank = some o ∧ o.opcode = 2) ∧
    (∃ (s : State) (bank : Nat) (o : FlashOp), s.Sound ∧ bank < 2 ∧ s.flashOp bank = some o ∧ o.opcode = 3) ∧
    (∃ (s : State) (bank : Nat) (o : FlashOp), s.Sound ∧ bank < 2 ∧ s.flashOp bank = some o) ∧
    (∃ (s : State), s.Sound) ∧
    (∃ (s : State) (b sec : Nat), s.Sound ∧ b < 2 ∧ sec < 4096) ∧
    (∃ (s : State), s.Sound) :=
  ⟨⟨z, true, Requester.portA, sound_of (by decide +kernel), by decide +kernel⟩,
   ⟨{ z with flash := { z.flash with firmware := { step := 1 } } }, true, Requester.portA, sound_of (by decide +kernel),
     by decide +kernel⟩,
   ⟨{ z with flash := { z.flash with firmware := { step := 1 } } }, true, Requester.portA, 0x5A3C, sound_of
     (by decide +kernel), by decide +kernel⟩,
   ⟨{ z with flash := { z.flash with firmware := { step := 2 } } }, true, Requester.portA, 0x1000008, 77, sound_of
     (by decide +kernel), by decide +kernel⟩,
   ⟨{ z with flash := { z.flash with firmware := { step := 2 } } }, true, Requester.portA, 0xF00000, 77, sound_of
     (by decide +kernel), by decide +kernel⟩,
   ⟨{ z with flash := { z.flash with firmware := { step := 1 } } }, true, Requester.portA, sound_of (by decide +kernel),
     by decide +kernel⟩,
   ⟨{ z with flash := { z.flash with op0 := some { opcode := 2, addr := 4096, word := 0, who := 1 }, firmware := { step := 2 } } },
     true, Requester.portA, 0xF00000, sound_of (by decide +kernel), by decide +kernel⟩,
   ⟨{ z with flash := { z.flash with firmware := { step := 2 } } }, true, Requester.portA, 0xF00000, sound_of
     (by decide +kernel), by decide +kernel⟩,
   ⟨{ z with flash := { z.flash with firmware := { step := 1 } } }, true, Requester.portA, sound_of (by decide +kernel),
     by decide +kernel⟩,
   ⟨{ z with flash := { z.flash with op0 := some { opcode := 2, addr := 4096, word := 0, who := 1 }, firmware := { step := 2 } } },
     true, Requester.portA, 0xF00000, sound_of (by decide +kernel), by decide +kernel⟩,
   ⟨{ z with flash := { z.flash with firmware := { step := 2 } } }, true, Requester.portA, 0xF00000, sound_of
     (by decide +kernel), by decide +kernel⟩,
   ⟨{ z with flash := { z.flash with firmware := { step := 1 } } }, true, Requester.portA, sound_of (by decide +kernel),
     by decide +kernel⟩,
   ⟨{ z with flash := { z.flash with op0 := some { opcode := 2, addr := 4096, word := 0, who := 1 }, firmware := { step := 2 } } },
     true, Requester.portA, 0xF00000, sound_of (by decide +kernel), by decide +kernel⟩,
   ⟨{ z with flash := { z.flash with firmware := { step := 2 } } }, true, Requester.portA, sound_of (by decide +kernel),
     by decide +kernel⟩,
   ⟨{ z with flash := { z.flash with firmware := { step := 1 } } }, true, Requester.portA, sound_of (by decide +kernel),
     by decide +kernel⟩,
   ⟨{ z with flash := { z.flash with op0 := some ({ opcode := 1, addr := 64, word := 77, who := 1 } : FlashOp) } }, 0,
     ({ opcode := 1, addr := 64, word := 77, who := 1 } : FlashOp), sound_of (by decide +kernel), by decide +kernel⟩,
   ⟨{ z with flash := { z.flash with op1 := some ({ opcode := 2, addr := 4096, word := 0, who := 1 } : FlashOp), words := [(512, 4), (1024, 5)] } },
     1, ({ opcode := 2, addr := 4096, word := 0, who := 1 } : FlashOp), sound_of (by decide +kernel), by decide +kernel⟩,
   ⟨{ z with flash := { z.flash with op1 := some ({ opcode := 3, addr := 65540, word := 0, who := 1 } : FlashOp), words := [(512, 4), (8192, 5), (16384, 6)] } },
     1, ({ opcode := 3, addr := 65540, word := 0, who := 1 } : FlashOp), sound_of (by decide +kernel), by decide +kernel⟩,
   ⟨{ z with flash := { z.flash with op1 := some ({ opcode := 1, addr := 65540, word := 0, who := 1 } : FlashOp), words := [(512, 4)] } },
     1, ({ opcode := 1, addr := 65540, word := 0, who := 1 } : FlashOp), sound_of (by decide +kernel), by decide +kernel⟩,
   ⟨z, sound_of (by decide +kernel)⟩,
   ⟨z, 1, 9, sound_of (by decide +kernel), by decide +kernel⟩,
   ⟨z, sound_of (by decide +kernel)⟩⟩

theorem witness_protectedCodeIsRefused :
    (∃ (s : State) (fw : Bool) (who : Requester) (addr : Nat), s.Sound ∧ s.rd R.PWR_STAT_STATE = 0 ∧ s.flashAdmit fw who
      = .accept ∧ (s.flashSeq fw).step = 2 ∧ inRecords addr = false ∧ (s.rd R.UPD_BOOTREC_BANK = flashBank addr ∨ s.rd
      R.UPD_STAT_RUN_BANK = flashBank addr)) ∧
    (∃ (s : State) (fw : Bool) (who : Requester) (addr : Nat), s.Sound ∧ s.rd R.PWR_STAT_STATE = 0 ∧ s.flashAdmit fw who
      = .accept ∧ (s.flashSeq fw).step = 2 ∧ inRecords addr = false ∧ (s.rd R.UPD_BOOTREC_BANK = flashBank addr ∨ s.rd
      R.UPD_STAT_RUN_BANK = flashBank addr)) ∧
    (∃ (s : State) (fw : Bool) (who : Requester) (addr : Nat), s.Sound ∧ s.rd R.PWR_STAT_STATE = 0 ∧ s.flashAdmit fw who
      = .accept ∧ (s.flashSeq fw).step = 2 ∧ inRecords addr = false ∧ (s.rd R.UPD_BOOTREC_BANK = flashBank addr ∨ s.rd
      R.UPD_STAT_RUN_BANK = flashBank addr)) :=
  ⟨⟨{ z.wr R.UPD_STAT_RUN_BANK 1 with flash := { z.flash with firmware := { step := 2 } } }, true, Requester.portA,
     0x1000008, sound_of (by decide +kernel), by decide +kernel⟩,
   ⟨{ z.wr R.UPD_STAT_RUN_BANK 1 with flash := { z.flash with firmware := { step := 2 } } }, true, Requester.portA,
     0x1000008, sound_of (by decide +kernel), by decide +kernel⟩,
   ⟨{ z.wr R.UPD_STAT_RUN_BANK 1 with flash := { z.flash with firmware := { step := 2 } } }, true, Requester.portA,
     0x1000008, sound_of (by decide +kernel), by decide +kernel⟩⟩

theorem witness_packagesAreDownloaded :
    (∃ (s : State) (port len : Nat), s.Calm ∧ s.MailboxTakes port ∧ s.steepReady = true ∧ s.isAdmin port = true ∧
      s.power.life ≠ .recovery ∧ len ≤ packageMax ∧ s.rd R.UPD_STAT_LOCK = 0 ∧ s.rd R.UPD_STAT_STATE = 0 ∧ s.flag
      R.UPD_STAT_REPAIR = false ∧ s.kiln.since = false) ∧
    (∃ (s : State) (port len : Nat), s.Sound ∧ s.UpdateTakes port ∧ ((s.lockedOut (s.source port false) = false ∨ s.flag
      R.UPD_STAT_REPAIR = true) ∧ (s.rd R.UPD_STAT_STATE = 0 ∨ s.rd R.UPD_STAT_STATE = 3 ∨ (s.flag R.UPD_STAT_REPAIR =
      true ∧ s.rd R.UPD_STAT_STATE ≤ 3)) ∧ s.kiln.since = false) ∧ len ≤ packageMax) ∧
    (∃ (s : State) (port : Nat), s.Calm ∧ s.MailboxTakes port ∧ s.steepReady = true ∧ s.isAdmin port = true ∧
      s.power.life ≠ .recovery ∧ s.rd R.UPD_STAT_LOCK = 0 ∧ s.rd R.UPD_STAT_STATE = 0 ∧ s.flag R.UPD_STAT_REPAIR = false ∧
      s.kiln.since = false) ∧
    (∃ (s : State) (port : Nat), s.Sound ∧ s.UpdateTakes port ∧ ((s.lockedOut (s.source port true) = false ∨ s.flag
      R.UPD_STAT_REPAIR = true) ∧ (s.rd R.UPD_STAT_STATE = 0 ∨ s.rd R.UPD_STAT_STATE = 3 ∨ (s.flag R.UPD_STAT_REPAIR =
      true ∧ s.rd R.UPD_STAT_STATE ≤ 3)) ∧ s.kiln.since = false)) ∧
    (∃ (s : State) (port off len : Nat), s.Calm ∧ s.MailboxTakes port ∧ s.steepReady = true ∧ s.isAdmin port = true ∧
      (s.host port).bg = none ∧ s.power.life ≠ .recovery ∧ s.lockedOut (s.source port false) = false ∧ s.rd
      R.UPD_STAT_STATE = 1 ∧ s.kiln.since = false ∧ off = s.rd R.UPD_RECEIVED ∧ s.rd R.UPD_TOTAL ≤ packageMax ∧ off + len
      < s.rd R.UPD_TOTAL ∧ len ≤ 65528 ∧ (List.range ((off + len) / 65536 + 1)).all (fun k => s.update.erased.has k) =
      true) ∧
    (∃ (s : State) (port off len : Nat), s.Calm ∧ s.MailboxTakes port ∧ s.steepReady = true ∧ s.isAdmin port = true ∧
      (s.host port).bg = none ∧ s.power.life ≠ .recovery ∧ s.lockedOut (s.source port false) = false ∧ s.rd
      R.UPD_STAT_STATE = 1 ∧ s.kiln.since = false ∧ off = s.rd R.UPD_RECEIVED ∧ s.rd R.UPD_TOTAL ≤ packageMax ∧ off + len
      = s.rd R.UPD_TOTAL ∧ len ≤ 65528 ∧ 0 < len ∧ (List.range ((off + len) / 65536 + 1)).all (fun k =>
      s.update.erased.has k) = true) ∧
    (∃ (s : State) (port off len : Nat), s.Sound ∧ s.UpdateTakes port ∧ s.lockedOut (s.source port false) = false ∧ s.rd
      R.UPD_STAT_STATE = 1 ∧ s.kiln.since = false ∧ (s.host port).bg = none ∧ off = s.rd R.UPD_RECEIVED ∧ off + len ≤ (if
      s.rd R.UPD_TOTAL = 0 then packageMax else s.rd R.UPD_TOTAL) ∧ len ≤ 65528) ∧
    (∃ (s : State) (port off : Nat), s.Sound ∧ s.UpdateTakes port ∧ s.lockedOut (s.source port false) = false ∧ s.rd
      R.UPD_STAT_STATE = 1 ∧ s.kiln.since = false ∧ off ≠ s.rd R.UPD_RECEIVED) ∧
    (∃ (s : State) (port off len : Nat), s.Calm ∧ s.MailboxTakes port ∧ s.steepReady = true ∧ s.isAdmin port = true ∧
      s.power.life ≠ .recovery ∧ s.lockedOut (s.source port true) = false ∧ s.rd R.UPD_STAT_STATE = 1 ∧ s.kiln.since =
      false ∧ off = s.rd R.UPD_RECEIVED ∧ s.rd R.UPD_TOTAL ≤ packageMax ∧ off + len ≤ s.rd R.UPD_TOTAL ∧ 0 < s.rd
      R.UPD_TOTAL ∧ len ≤ 65528 ∧ (List.range ((off + len) / 65536 + 1)).all (fun k => s.update.erased.has k) = true) ∧
    (∃ (s : State) (port off len : Nat), s.Sound ∧ s.UpdateTakes port ∧ s.lockedOut (s.source port true) = false ∧ s.rd
      R.UPD_STAT_STATE = 1 ∧ s.kiln.since = false ∧ off = s.rd R.UPD_RECEIVED ∧ off + len ≤ (if s.rd R.UPD_TOTAL = 0 then
      packageMax else s.rd R.UPD_TOTAL) ∧ len ≤ 65528) ∧
    (∃ (s : State) (port off : Nat), s.Sound ∧ s.UpdateTakes port ∧ s.lockedOut (s.source port true) = false ∧ s.rd
      R.UPD_STAT_STATE = 1 ∧ s.kiln.since = false ∧ off ≠ s.rd R.UPD_RECEIVED) ∧
    (∃ (s : State) (port : Nat), s.Calm ∧ s.MailboxTakes port ∧ s.steepReady = true ∧ s.isAdmin port = true ∧
      s.power.life ≠ .recovery ∧ s.lockedOut (s.source port true) = false ∧ s.rd R.UPD_STAT_STATE = 1) ∧
    (∃ (s : State) (port : Nat), s.Sound ∧ s.UpdateTakes port ∧ s.lockedOut (s.source port true) = false ∧ s.rd
      R.UPD_STAT_STATE = 1) ∧
    (∃ (s : State) (port len : Nat), s.Calm ∧ s.MailboxTakes port ∧ s.steepReady = true ∧ s.isAdmin port = true ∧
      s.power.life ≠ .recovery ∧ s.rd R.UPD_STAT_LOCK = 0 ∧ s.rd R.UPD_STAT_STATE = 0 ∧ s.flag R.UPD_STAT_REPAIR = false ∧
      s.kiln.since = false ∧ len ≤ 65528) ∧
    (∃ (s : State) (port len : Nat), s.Sound ∧ s.UpdateTakes port ∧ ((s.lockedOut (s.source port true) = false ∨ s.flag
      R.UPD_STAT_REPAIR = true) ∧ (s.rd R.UPD_STAT_STATE = 0 ∨ s.rd R.UPD_STAT_STATE = 3 ∨ (s.flag R.UPD_STAT_REPAIR =
      true ∧ s.rd R.UPD_STAT_STATE ≤ 3)) ∧ s.kiln.since = false) ∧ len ≤ 65528) ∧
    (∃ (s : State) (port : Nat), s.Calm ∧ s.MailboxTakes port ∧ s.steepReady = true ∧ s.isAdmin port = true ∧
      s.power.life ≠ .recovery ∧ s.lockedOut (s.source port false) = false ∧ (s.rd R.UPD_STAT_STATE = 1 ∨ s.rd
      R.UPD_STAT_STATE = 2 ∨ s.rd R.UPD_STAT_STATE = 3)) ∧
    (∃ (s : State) (port : Nat), s.Sound ∧ s.UpdateTakes port ∧ s.lockedOut (s.source port false) = false ∧ s.rd
      R.UPD_STAT_STATE ≠ 4 ∧ s.rd R.UPD_STAT_STATE ≤ 5) ∧
    (∃ (s : State) (port : Nat), s.Calm ∧ s.MailboxTakes port ∧ s.steepReady = true ∧ s.isAdmin port = true ∧
      s.power.life ≠ .recovery ∧ s.lockedOut (s.source port true) = false ∧ (s.rd R.UPD_STAT_STATE = 1 ∨ s.rd
      R.UPD_STAT_STATE = 2 ∨ s.rd R.UPD_STAT_STATE = 3)) ∧
    (∃ (s : State) (port : Nat), s.Sound ∧ s.UpdateTakes port ∧ s.lockedOut (s.source port true) = false ∧ s.rd
      R.UPD_STAT_STATE ≠ 4 ∧ s.rd R.UPD_STAT_STATE ≤ 5) ∧
    (∃ (s : State) (port : Nat), s.Calm ∧ s.MailboxTakes port ∧ s.steepReady = true ∧ s.isAdmin port = true ∧
      s.power.life ≠ .recovery) ∧
    (∃ (s : State) (port : Nat), s.Sound ∧ s.UpdateTakes port) ∧
    (∃ (s : State) (port : Nat), s.Sound ∧ s.UpdateTakes port ∧ s.rd R.UPD_STAT_LOCK ≠ 0 ∧ s.rd R.UPD_STAT_LOCK ≠
      s.source port false ∧ s.flag R.UPD_STAT_REPAIR = false) ∧
    (∃ (s : State) (port : Nat), s.Sound ∧ s.UpdateTakes port ∧ s.rd R.UPD_STAT_LOCK ≠ 0 ∧ s.rd R.UPD_STAT_LOCK ≠
      s.source port true ∧ s.flag R.UPD_STAT_REPAIR = false) ∧
    (∃ (s : State), s.Sound ∧ s.rd R.UPD_STAT_LOCK ≠ 0 ∧ s.rd R.UPD_LOCK_IDLE = 0 ∧ (s.rd R.UPD_STAT_STATE = 1 ∨ s.rd
      R.UPD_STAT_STATE = 2 ∨ s.rd R.UPD_STAT_STATE = 3)) ∧
    (∃ (s : State), s.Sound ∧ s.rd R.UPD_STAT_LOCK ≠ 0 ∧ s.rd R.UPD_LOCK_IDLE = 0 ∧ (s.rd R.UPD_STAT_STATE = 1 ∨ s.rd
      R.UPD_STAT_STATE = 2 ∨ s.rd R.UPD_STAT_STATE = 3)) ∧
    (∃ (s : State), s.Sound ∧ (s.rd R.UPD_STAT_STATE = 0 ∨ 4 ≤ s.rd R.UPD_STAT_STATE)) :=
  ⟨⟨awake (((z.wr (R.HP_LINK_STAT_UP 1) 1).wr R.STP_STAT_PHASE 4).wr R.UPD_STAT_STATE 0), 1, 100, calm_of
     (by decide +kernel), by decide +kernel⟩,
   ⟨(awake ((z.wr (R.HP_LINK_STAT_UP 1) 1).wr R.STP_STAT_PHASE 4)).wr R.UPD_STAT_STATE 3, 1, 77, sound_of
     (by decide +kernel), by decide +kernel⟩,
   ⟨awake (((z.wr (R.HP_LINK_STAT_UP 1) 1).wr R.STP_STAT_PHASE 4).wr R.UPD_STAT_STATE 0), 1, calm_of
     (by decide +kernel), by decide +kernel⟩,
   ⟨(awake ((z.wr (R.HP_LINK_STAT_UP 1) 1).wr R.STP_STAT_PHASE 4)).wr R.UPD_STAT_STATE 3, 1, sound_of
     (by decide +kernel), by decide +kernel⟩,
   ⟨{ awake ((((z.wr (R.HP_LINK_STAT_UP 1) 1).wr R.STP_STAT_PHASE 4).wr R.UPD_STAT_STATE 1).wr R.UPD_TOTAL 100) with update := { z.update with erased := [(0, 3)] } },
     1, 0, 5, calm_of (by decide +kernel), by decide +kernel⟩,
   ⟨{ awake ((((z.wr (R.HP_LINK_STAT_UP 1) 1).wr R.STP_STAT_PHASE 4).wr R.UPD_STAT_STATE 1).wr R.UPD_TOTAL 100) with update := { z.update with erased := [(0, 3)] } },
     1, 0, 100, calm_of (by decide +kernel), by decide +kernel⟩,
   ⟨((awake ((z.wr (R.HP_LINK_STAT_UP 1) 1).wr R.STP_STAT_PHASE 4)).wr R.UPD_STAT_STATE 1).wr R.UPD_TOTAL 100, 1, 0, 5,
     sound_of (by decide +kernel), by decide +kernel⟩,
   ⟨((awake ((z.wr (R.HP_LINK_STAT_UP 1) 1).wr R.STP_STAT_PHASE 4)).wr R.UPD_STAT_STATE 1).wr R.UPD_TOTAL 100, 1, 3,
     sound_of (by decide +kernel), by decide +kernel⟩,
   ⟨{ awake ((((z.wr (R.HP_LINK_STAT_UP 1) 1).wr R.STP_STAT_PHASE 4).wr R.UPD_STAT_STATE 1).wr R.UPD_TOTAL 100) with update := { z.update with erased := [(0, 3)] } },
     1, 0, 7, calm_of (by decide +kernel), by decide +kernel⟩,
   ⟨((awake ((z.wr (R.HP_LINK_STAT_UP 1) 1).wr R.STP_STAT_PHASE 4)).wr R.UPD_STAT_STATE 1).wr R.UPD_TOTAL 100, 1, 0, 5,
     sound_of (by decide +kernel), by decide +kernel⟩,
   ⟨((awake ((z.wr (R.HP_LINK_STAT_UP 1) 1).wr R.STP_STAT_PHASE 4)).wr R.UPD_STAT_STATE 1).wr R.UPD_TOTAL 100, 1, 3,
     sound_of (by decide +kernel), by decide +kernel⟩,
   ⟨awake (((z.wr (R.HP_LINK_STAT_UP 1) 1).wr R.STP_STAT_PHASE 4).wr R.UPD_STAT_STATE 1), 1, calm_of
     (by decide +kernel), by decide +kernel⟩,
   ⟨(awake ((z.wr (R.HP_LINK_STAT_UP 1) 1).wr R.STP_STAT_PHASE 4)).wr R.UPD_STAT_STATE 1, 1, sound_of
     (by decide +kernel), by decide +kernel⟩,
   ⟨awake (((z.wr (R.HP_LINK_STAT_UP 1) 1).wr R.STP_STAT_PHASE 4).wr R.UPD_STAT_STATE 0), 1, 5, calm_of
     (by decide +kernel), by decide +kernel⟩,
   ⟨(awake ((z.wr (R.HP_LINK_STAT_UP 1) 1).wr R.STP_STAT_PHASE 4)).wr R.UPD_STAT_STATE 3, 1, 5, sound_of
     (by decide +kernel), by decide +kernel⟩,
   ⟨awake (((z.wr (R.HP_LINK_STAT_UP 1) 1).wr R.STP_STAT_PHASE 4).wr R.UPD_STAT_STATE 2), 1, calm_of
     (by decide +kernel), by decide +kernel⟩,
   ⟨(awake ((z.wr (R.HP_LINK_STAT_UP 1) 1).wr R.STP_STAT_PHASE 4)).wr R.UPD_STAT_STATE 5, 1, sound_of
     (by decide +kernel), by decide +kernel⟩,
   ⟨awake (((z.wr (R.HP_LINK_STAT_UP 1) 1).wr R.STP_STAT_PHASE 4).wr R.UPD_STAT_STATE 2), 1, calm_of
     (by decide +kernel), by decide +kernel⟩,
   ⟨(awake ((z.wr (R.HP_LINK_STAT_UP 1) 1).wr R.STP_STAT_PHASE 4)).wr R.UPD_STAT_STATE 5, 1, sound_of
     (by decide +kernel), by decide +kernel⟩,
   ⟨awake (((z.wr (R.HP_LINK_STAT_UP 1) 1).wr R.STP_STAT_PHASE 4).wr R.UPD_STAT_STATE 2), 1, calm_of
     (by decide +kernel), by decide +kernel⟩,
   ⟨(awake ((z.wr (R.HP_LINK_STAT_UP 1) 1).wr R.STP_STAT_PHASE 4)).wr R.UPD_STAT_STATE 2 |>.wr R.UPD_STAT_LOCK 4, 1,
     sound_of (by decide +kernel), by decide +kernel⟩,
   ⟨(awake ((z.wr (R.HP_LINK_STAT_UP 1) 1).wr R.STP_STAT_PHASE 4)).wr R.UPD_STAT_STATE 3 |>.wr R.UPD_STAT_LOCK 2, 1,
     sound_of (by decide +kernel), by decide +kernel⟩,
   ⟨(awake ((z.wr (R.HP_LINK_STAT_UP 1) 1).wr R.STP_STAT_PHASE 4)).wr R.UPD_STAT_STATE 3 |>.wr R.UPD_STAT_LOCK 2, 1,
     sound_of (by decide +kernel), by decide +kernel⟩,
   ⟨(z.wr R.UPD_STAT_STATE 2).wr R.UPD_STAT_LOCK 2, sound_of (by decide +kernel), by decide +kernel⟩,
   ⟨(z.wr R.UPD_STAT_STATE 2).wr R.UPD_STAT_LOCK 2, sound_of (by decide +kernel), by decide +kernel⟩,
   ⟨(z.wr R.UPD_STAT_STATE 5).wr R.UPD_STAT_LOCK 2, sound_of (by decide +kernel), by decide +kernel⟩⟩

theorem witness_packagesAreActivatedAndConfirmed :
    (∃ (s : State) (k : Package), s.Calm ∧ s.RecordsOpen ∧ s.rd R.UPD_STAT_STATE = 2 ∧ s.failingCheck k = none ∧
      s.update.repair = false ∧ s.update.fromRom = false ∧ k.version < 2 ^ 32 ∧ k.svn < 2 ^ 16) ∧
    (∃ (s : State) (k : Package) (c : Nat × Nat), s.Sound ∧ s.rd R.UPD_STAT_STATE = 2 ∧ s.failingCheck k = some c) ∧
    (∃ (s : State) (k : Package), s.Sound ∧ s.rd R.UPD_STAT_STATE = 2 ∧ s.failingCheck k = none ∧ s.update.repair = true
      ∧ k.version = s.runVersion) ∧
    (∃ (s : State) (k : Package), s.Sound ∧ s.rd R.UPD_STAT_STATE = 2 ∧ s.failingCheck k = none ∧ s.update.repair = true
      ∧ k.version ≠ s.runVersion) ∧
    (∃ (s : State) (k : Package), s.Sound ∧ s.rd R.UPD_STAT_STATE = 2 ∧ s.failingCheck k = none ∧ s.update.repair =
      false ∧ s.update.fromRom = false) ∧
    (∃ (s : State) (k : Package), s.Sound ∧ s.rd R.UPD_STAT_STATE = 2 ∧ s.failingCheck k = none ∧ s.update.repair =
      false ∧ s.update.fromRom = true) ∧
    (∃ (s : State) (port p : Nat) (l : List Nat) (k : Package), s.Calm ∧ s.MailboxTakes port ∧ s.steepReady = true ∧
      s.isAdmin port = true ∧ s.power.life ≠ .recovery ∧ s.lockedOut (s.source port false) = false ∧ s.bankPkg (s.rd
      R.UPD_STAT_STAGE_BANK) = some k ∧ s.rd R.UPD_STAT_STATE = 3 ∧ s.rd R.STP_STAT_PHASE = 4 ∧ s.rd R.KLN_STAT_STATE = 1
      ∧ k.digestsOk = true ∧ s.resetBarred k = false ∧ [1, 2, 3, 4, 5].filter (fun n => s.present n && k.images.any (fun i
      => i.typ == n)) = p :: l) ∧
    (∃ (s : State) (port : Nat) (k : Package), s.Sound ∧ s.UpdateTakes port ∧ s.lockedOut (s.source port false) = false
      ∧ s.bankPkg (s.rd R.UPD_STAT_STAGE_BANK) = some k ∧ s.rd R.UPD_STAT_STATE = 3 ∧ s.rd R.STP_STAT_PHASE = 4 ∧ s.rd
      R.KLN_STAT_STATE = 1 ∧ s.rd R.SAF_STAT_STATE = 0 ∧ k.digestsOk = true ∧ s.resetBarred k = false) ∧
    (∃ (s : State) (port : Nat) (k : Package), s.Sound ∧ s.UpdateTakes port ∧ s.lockedOut (s.source port false) = false
      ∧ s.bankPkg (s.rd R.UPD_STAT_STAGE_BANK) = some k ∧ s.rd R.UPD_STAT_STATE = 3 ∧ (s.rd R.STP_STAT_PHASE ≠ 4 ∨ s.rd
      R.KLN_STAT_STATE ≠ 1 ∨ s.rd R.SAF_STAT_STATE ≠ 0)) ∧
    (∃ (s : State) (port p : Nat) (l : List Nat) (k : Package), s.Calm ∧ s.MailboxTakes port ∧ s.steepReady = true ∧
      s.isAdmin port = true ∧ s.power.life ≠ .recovery ∧ s.lockedOut (s.source port true) = false ∧ s.bankPkg (s.rd
      R.UPD_STAT_STAGE_BANK) = some k ∧ s.rd R.UPD_STAT_STATE = 3 ∧ s.rd R.STP_STAT_PHASE = 4 ∧ s.rd R.KLN_STAT_STATE = 1
      ∧ k.digestsOk = true ∧ s.resetBarred k = false ∧ [1, 2, 3, 4, 5].filter (fun n => s.present n && k.images.any (fun i
      => i.typ == n)) = p :: l) ∧
    (∃ (s : State) (port : Nat) (k : Package), s.Sound ∧ s.UpdateTakes port ∧ s.lockedOut (s.source port true) = false ∧
      s.bankPkg (s.rd R.UPD_STAT_STAGE_BANK) = some k ∧ s.rd R.UPD_STAT_STATE = 3 ∧ s.rd R.STP_STAT_PHASE = 4 ∧ s.rd
      R.KLN_STAT_STATE = 1 ∧ s.rd R.SAF_STAT_STATE = 0 ∧ k.digestsOk = true ∧ s.resetBarred k = false) ∧
    (∃ (s : State) (port : Nat) (k : Package), s.Sound ∧ s.UpdateTakes port ∧ s.lockedOut (s.source port true) = false ∧
      s.bankPkg (s.rd R.UPD_STAT_STAGE_BANK) = some k ∧ s.rd R.UPD_STAT_STATE = 3 ∧ (s.rd R.STP_STAT_PHASE ≠ 4 ∨ s.rd
      R.KLN_STAT_STATE ≠ 1 ∨ s.rd R.SAF_STAT_STATE ≠ 0)) ∧
    (∃ (s : State) (port : Nat) (k : Package), s.Calm ∧ s.MailboxTakes port ∧ s.steepReady = true ∧ s.isAdmin port =
      true ∧ s.power.life ≠ .recovery ∧ s.lockedOut (s.source port false) = false ∧ s.bankPkg (s.rd R.UPD_STAT_STAGE_BANK)
      = some k ∧ s.rd R.UPD_STAT_STATE = 3 ∧ s.kiln.since = false) ∧
    (∃ (s : State) (port : Nat) (k : Package), s.Sound ∧ s.UpdateTakes port ∧ s.lockedOut (s.source port false) = false
      ∧ s.bankPkg (s.rd R.UPD_STAT_STAGE_BANK) = some k ∧ s.rd R.UPD_STAT_STATE = 3 ∧ s.kiln.since = false) ∧
    (∃ (s : State) (port : Nat) (k : Package), s.Calm ∧ s.MailboxTakes port ∧ s.steepReady = true ∧ s.isAdmin port =
      true ∧ s.power.life ≠ .recovery ∧ s.lockedOut (s.source port true) = false ∧ s.bankPkg (s.rd R.UPD_STAT_STAGE_BANK)
      = some k ∧ s.rd R.UPD_STAT_STATE = 3 ∧ s.kiln.since = false) ∧
    (∃ (s : State) (port : Nat) (k : Package), s.Sound ∧ s.UpdateTakes port ∧ s.lockedOut (s.source port true) = false ∧
      s.bankPkg (s.rd R.UPD_STAT_STAGE_BANK) = some k ∧ s.rd R.UPD_STAT_STATE = 3 ∧ s.kiln.since = false) ∧
    (∃ (s : State) (p : Nat) (l : List Nat) (k : Package), s.Calm ∧ s.rd R.UPD_STAT_STATE = 4 ∧ s.halted.contains p =
      true ∧ s.update.left = p :: l ∧ 0 < p ∧ p < 6 ∧ s.bankPkg (s.rd R.UPD_STAT_STAGE_BANK) = some k ∧ s.changedBlocks k
      = [] ∧ ((k.images.find? (fun i => i.typ == p)).map (fun i => i.version)).getD 0 < 2 ^ 32 ∧ s.held = []) ∧
    (∃ (s : State) (p : Nat) (l : List Nat) (k : Package), s.Sound ∧ s.rd R.UPD_STAT_STATE = 4 ∧ s.halted.contains p =
      true ∧ s.update.left = p :: l ∧ 0 < p ∧ p < 6 ∧ s.bankPkg (s.rd R.UPD_STAT_STAGE_BANK) = some k ∧ s.held = []) ∧
    (∃ (s : State), s.Sound ∧ s.rd R.UPD_STAT_STATE = 4 ∧ s.held = []) ∧
    (∃ (s : State), s.Sound ∧ s.rd R.UPD_STAT_STATE = 4 ∧ s.held = []) ∧
    (∃ (s : State) (a b c : Bool) (k : Package), s.Calm ∧ s.RecordsOpen ∧ s.rd R.UPD_STAT_STATE = 5 ∧ s.readiness a b c
      = 0 ∧ s.condAny 36 = false ∧ s.bankPkg (s.rd R.UPD_STAT_STAGE_BANK) = some k ∧ k.svn < 2 ^ 16 ∧ s.kiln.since =
      false) ∧
    (∃ (s : State) (a b c : Bool), s.Sound ∧ s.kiln.since = false ∧ s.rd R.UPD_STAT_STATE = 5 ∧ s.readiness a b c ≠ 0) ∧
    (∃ (s : State) (a b c : Bool) (k : Package), s.Sound ∧ s.kiln.since = false ∧ s.rd R.UPD_STAT_STATE = 5 ∧
      s.readiness a b c = 0 ∧ s.bankPkg (s.rd R.UPD_STAT_STAGE_BANK) = some k) :=
  ⟨⟨z.wr R.UPD_STAT_STATE 2,
     ({ version := 77, part := 0x3216, variants := 7, keySlot := 0, svn := 3, minRom := 0, length := 0, formOk := true, sigOk := true, digestsOk := true, images := [{ typ := 4, version := 9, ifVer := 0, minPeer := 0 }], settings := [], codes := [] }
     : Package), calm_of (by decide +kernel), by decide +kernel⟩,
   ⟨(z.wr R.UPD_STAT_STATE 2).wr R.UPD_STAT_LOCK 2,
     ({ version := 77, part := 0x3216, variants := 7, keySlot := 0, svn := 3, minRom := 0, length := 0, formOk := true, sigOk := false, digestsOk := true, images := [{ typ := 4, version := 9, ifVer := 0, minPeer := 0 }], settings := [], codes := [] }
     : Package), (2, 0), sound_of (by decide +kernel), by decide +kernel⟩,
   ⟨{ (z.wr R.UPD_STAT_STATE 2).wr R.UPD_STAT_REPAIR 1 with update := { z.update with repair := true, bank0 := some { ({ version := 77, part := 0x3216, variants := 7, keySlot := 0, svn := 3, minRom := 0, length := 0, formOk := true, sigOk := true, digestsOk := true, images := [{ typ := 4, version := 9, ifVer := 0, minPeer := 0 }], settings := [], codes := [] } : Package) with images := [] }, bank1 := some { ({ version := 77, part := 0x3216, variants := 7, keySlot := 0, svn := 3, minRom := 0, length := 0, formOk := true, sigOk := true, digestsOk := true, images := [{ typ := 4, version := 9, ifVer := 0, minPeer := 0 }], settings := [], codes := [] } : Package) with images := [] } } },
     ({ version := 77, part := 0x3216, variants := 7, keySlot := 0, svn := 3, minRom := 0, length := 0, formOk := true, sigOk := true, digestsOk := true, images := [{ typ := 4, version := 9, ifVer := 0, minPeer := 0 }], settings := [], codes := [] }
     : Package), sound_of (by decide +kernel), by decide +kernel⟩,
   ⟨{ (z.wr R.UPD_STAT_STATE 2).wr R.UPD_STAT_REPAIR 1 with update := { z.update with repair := true } },
     ({ version := 77, part := 0x3216, variants := 7, keySlot := 0, svn := 3, minRom := 0, length := 0, formOk := true, sigOk := true, digestsOk := true, images := [{ typ := 4, version := 9, ifVer := 0, minPeer := 0 }], settings := [], codes := [] }
     : Package), sound_of (by decide +kernel), by decide +kernel⟩,
   ⟨z.wr R.UPD_STAT_STATE 2,
     ({ version := 77, part := 0x3216, variants := 7, keySlot := 0, svn := 3, minRom := 0, length := 0, formOk := true, sigOk := true, digestsOk := true, images := [{ typ := 4, version := 9, ifVer := 0, minPeer := 0 }], settings := [], codes := [] }
     : Package), sound_of (by decide +kernel), by decide +kernel⟩,
   ⟨{ ((z.wr R.UPD_STAT_STATE 2).wr R.SNT_FAILS_COLD 3).wr R.SNT_FAILS_RECOVERY 1 with power := { z.power with life := .recovery, mainGood := true }, update := { z.update with fromRom := true } },
     ({ version := 77, part := 0x3216, variants := 7, keySlot := 0, svn := 3, minRom := 0, length := 0, formOk := true, sigOk := true, digestsOk := true, images := [{ typ := 4, version := 9, ifVer := 0, minPeer := 0 }], settings := [], codes := [] }
     : Package), sound_of (by decide +kernel), by decide +kernel⟩,
   ⟨{ awake ((((z.wr (R.HP_LINK_STAT_UP 1) 1).wr R.STP_STAT_PHASE 4).wr R.UPD_STAT_STATE 3).wr R.KLN_STAT_STATE 1) with update := { z.update with bank0 := some ({ version := 77, part := 0x3216, variants := 7, keySlot := 0, svn := 3, minRom := 0, length := 0, formOk := true, sigOk := true, digestsOk := true, images := [{ typ := 4, version := 9, ifVer := 0, minPeer := 0 }], settings := [], codes := [] } : Package) } },
     1, 4, ([] : List Nat),
     ({ version := 77, part := 0x3216, variants := 7, keySlot := 0, svn := 3, minRom := 0, length := 0, formOk := true, sigOk := true, digestsOk := true, images := [{ typ := 4, version := 9, ifVer := 0, minPeer := 0 }], settings := [], codes := [] }
     : Package), calm_of (by decide +kernel), by decide +kernel⟩,
   ⟨{ awake ((z.wr (R.HP_LINK_STAT_UP 1) 1).wr R.STP_STAT_PHASE 4) with update := { z.update with bank0 := some ({ version := 77, part := 0x3216, variants := 7, keySlot := 0, svn := 3, minRom := 0, length := 0, formOk := true, sigOk := true, digestsOk := true, images := [{ typ := 4, version := 9, ifVer := 0, minPeer := 0 }], settings := [], codes := [] } : Package) } }.wr
     R.UPD_STAT_STATE 3 |>.wr R.KLN_STAT_STATE 1, 1,
     ({ version := 77, part := 0x3216, variants := 7, keySlot := 0, svn := 3, minRom := 0, length := 0, formOk := true, sigOk := true, digestsOk := true, images := [{ typ := 4, version := 9, ifVer := 0, minPeer := 0 }], settings := [], codes := [] }
     : Package), sound_of (by decide +kernel), by decide +kernel⟩,
   ⟨{ awake ((z.wr (R.HP_LINK_STAT_UP 1) 1).wr R.STP_STAT_PHASE 4) with update := { z.update with bank0 := some ({ version := 77, part := 0x3216, variants := 7, keySlot := 0, svn := 3, minRom := 0, length := 0, formOk := true, sigOk := true, digestsOk := true, images := [{ typ := 4, version := 9, ifVer := 0, minPeer := 0 }], settings := [], codes := [] } : Package) } }.wr
     R.UPD_STAT_STATE 3, 1,
     ({ version := 77, part := 0x3216, variants := 7, keySlot := 0, svn := 3, minRom := 0, length := 0, formOk := true, sigOk := true, digestsOk := true, images := [{ typ := 4, version := 9, ifVer := 0, minPeer := 0 }], settings := [], codes := [] }
     : Package), sound_of (by decide +kernel), by decide +kernel⟩,
   ⟨{ awake ((((z.wr (R.HP_LINK_STAT_UP 1) 1).wr R.STP_STAT_PHASE 4).wr R.UPD_STAT_STATE 3).wr R.KLN_STAT_STATE 1) with update := { z.update with bank0 := some ({ version := 77, part := 0x3216, variants := 7, keySlot := 0, svn := 3, minRom := 0, length := 0, formOk := true, sigOk := true, digestsOk := true, images := [{ typ := 4, version := 9, ifVer := 0, minPeer := 0 }], settings := [], codes := [] } : Package) } },
     1, 4, ([] : List Nat),
     ({ version := 77, part := 0x3216, variants := 7, keySlot := 0, svn := 3, minRom := 0, length := 0, formOk := true, sigOk := true, digestsOk := true, images := [{ typ := 4, version := 9, ifVer := 0, minPeer := 0 }], settings := [], codes := [] }
     : Package), calm_of (by decide +kernel), by decide +kernel⟩,
   ⟨{ awake ((z.wr (R.HP_LINK_STAT_UP 1) 1).wr R.STP_STAT_PHASE 4) with update := { z.update with bank0 := some ({ version := 77, part := 0x3216, variants := 7, keySlot := 0, svn := 3, minRom := 0, length := 0, formOk := true, sigOk := true, digestsOk := true, images := [{ typ := 4, version := 9, ifVer := 0, minPeer := 0 }], settings := [], codes := [] } : Package) } }.wr
     R.UPD_STAT_STATE 3 |>.wr R.KLN_STAT_STATE 1, 1,
     ({ version := 77, part := 0x3216, variants := 7, keySlot := 0, svn := 3, minRom := 0, length := 0, formOk := true, sigOk := true, digestsOk := true, images := [{ typ := 4, version := 9, ifVer := 0, minPeer := 0 }], settings := [], codes := [] }
     : Package), sound_of (by decide +kernel), by decide +kernel⟩,
   ⟨{ awake ((z.wr (R.HP_LINK_STAT_UP 1) 1).wr R.STP_STAT_PHASE 4) with update := { z.update with bank0 := some ({ version := 77, part := 0x3216, variants := 7, keySlot := 0, svn := 3, minRom := 0, length := 0, formOk := true, sigOk := true, digestsOk := true, images := [{ typ := 4, version := 9, ifVer := 0, minPeer := 0 }], settings := [], codes := [] } : Package) } }.wr
     R.UPD_STAT_STATE 3, 1,
     ({ version := 77, part := 0x3216, variants := 7, keySlot := 0, svn := 3, minRom := 0, length := 0, formOk := true, sigOk := true, digestsOk := true, images := [{ typ := 4, version := 9, ifVer := 0, minPeer := 0 }], settings := [], codes := [] }
     : Package), sound_of (by decide +kernel), by decide +kernel⟩,
   ⟨{ awake (((z.wr (R.HP_LINK_STAT_UP 1) 1).wr R.STP_STAT_PHASE 4).wr R.UPD_STAT_STATE 3) with update := { z.update with bank0 := some ({ version := 77, part := 0x3216, variants := 7, keySlot := 0, svn := 3, minRom := 0, length := 0, formOk := true, sigOk := true, digestsOk := true, images := [{ typ := 4, version := 9, ifVer := 0, minPeer := 0 }], settings := [], codes := [] } : Package) } },
     1,
     ({ version := 77, part := 0x3216, variants := 7, keySlot := 0, svn := 3, minRom := 0, length := 0, formOk := true, sigOk := true, digestsOk := true, images := [{ typ := 4, version := 9, ifVer := 0, minPeer := 0 }], settings := [], codes := [] }
     : Package), calm_of (by decide +kernel), by decide +kernel⟩,
   ⟨{ awake ((z.wr (R.HP_LINK_STAT_UP 1) 1).wr R.STP_STAT_PHASE 4) with update := { z.update with bank0 := some ({ version := 77, part := 0x3216, variants := 7, keySlot := 0, svn := 3, minRom := 0, length := 0, formOk := true, sigOk := true, digestsOk := true, images := [{ typ := 4, version := 9, ifVer := 0, minPeer := 0 }], settings := [], codes := [] } : Package) } }.wr
     R.UPD_STAT_STATE 3, 1,
     ({ version := 77, part := 0x3216, variants := 7, keySlot := 0, svn := 3, minRom := 0, length := 0, formOk := true, sigOk := true, digestsOk := true, images := [{ typ := 4, version := 9, ifVer := 0, minPeer := 0 }], settings := [], codes := [] }
     : Package), sound_of (by decide +kernel), by decide +kernel⟩,
   ⟨{ awake (((z.wr (R.HP_LINK_STAT_UP 1) 1).wr R.STP_STAT_PHASE 4).wr R.UPD_STAT_STATE 3) with update := { z.update with bank0 := some ({ version := 77, part := 0x3216, variants := 7, keySlot := 0, svn := 3, minRom := 0, length := 0, formOk := true, sigOk := true, digestsOk := true, images := [{ typ := 4, version := 9, ifVer := 0, minPeer := 0 }], settings := [], codes := [] } : Package) } },
     1,
     ({ version := 77, part := 0x3216, variants := 7, keySlot := 0, svn := 3, minRom := 0, length := 0, formOk := true, sigOk := true, digestsOk := true, images := [{ typ := 4, version := 9, ifVer := 0, minPeer := 0 }], settings := [], codes := [] }
     : Package), calm_of (by decide +kernel), by decide +kernel⟩,
   ⟨{ awake ((z.wr (R.HP_LINK_STAT_UP 1) 1).wr R.STP_STAT_PHASE 4) with update := { z.update with bank0 := some ({ version := 77, part := 0x3216, variants := 7, keySlot := 0, svn := 3, minRom := 0, length := 0, formOk := true, sigOk := true, digestsOk := true, images := [{ typ := 4, version := 9, ifVer := 0, minPeer := 0 }], settings := [], codes := [] } : Package) } }.wr
     R.UPD_STAT_STATE 3, 1,
     ({ version := 77, part := 0x3216, variants := 7, keySlot := 0, svn := 3, minRom := 0, length := 0, formOk := true, sigOk := true, digestsOk := true, images := [{ typ := 4, version := 9, ifVer := 0, minPeer := 0 }], settings := [], codes := [] }
     : Package), sound_of (by decide +kernel), by decide +kernel⟩,
   ⟨{ z.wr R.UPD_STAT_STATE 4 with halted := [4], update := { z.update with bank0 := some ({ version := 77, part := 0x3216, variants := 7, keySlot := 0, svn := 3, minRom := 0, length := 0, formOk := true, sigOk := true, digestsOk := true, images := [{ typ := 4, version := 9, ifVer := 0, minPeer := 0 }], settings := [], codes := [] } : Package), left := [4] } },
     4, ([] : List Nat),
     ({ version := 77, part := 0x3216, variants := 7, keySlot := 0, svn := 3, minRom := 0, length := 0, formOk := true, sigOk := true, digestsOk := true, images := [{ typ := 4, version := 9, ifVer := 0, minPeer := 0 }], settings := [], codes := [] }
     : Package), calm_of (by decide +kernel), by decide +kernel⟩,
   ⟨{ z.wr R.UPD_STAT_STATE 4 with halted := [4], update := { z.update with bank0 := some ({ version := 77, part := 0x3216, variants := 7, keySlot := 0, svn := 3, minRom := 0, length := 0, formOk := true, sigOk := true, digestsOk := true, images := [{ typ := 4, version := 9, ifVer := 0, minPeer := 0 }], settings := [], codes := [] } : Package), left := [4] } },
     4, ([] : List Nat),
     ({ version := 77, part := 0x3216, variants := 7, keySlot := 0, svn := 3, minRom := 0, length := 0, formOk := true, sigOk := true, digestsOk := true, images := [{ typ := 4, version := 9, ifVer := 0, minPeer := 0 }], settings := [], codes := [] }
     : Package), sound_of (by decide +kernel), by decide +kernel⟩,
   ⟨z.wr R.UPD_STAT_STATE 4, sound_of (by decide +kernel), by decide +kernel⟩,
   ⟨z.wr R.UPD_STAT_STATE 4, sound_of (by decide +kernel), by decide +kernel⟩,
   ⟨{ ((((((z.wr R.CAP_NCH_POP 1).wr (R.NCH_GEOM_PAGES 0) 1000).wr (R.SQP_DIR_LENGTH 2) 1).wr R.SQP_STAT_VALID 4).wr R.KLN_STAT_SLOT_READY 1).wr R.UPD_STAT_STATE 5) with cellar := { z.cellar with groups := [({ id := 4, zone := .kiln, st := .erased, members := [(0, 0, 0)], cap := 600000, erasedAt := 0, closedAt := 0, kilnUse := false, writtenAt := 0 } : Group)] }, packA := { z.packA with swAt := 1 }, update := { z.update with bank0 := some ({ version := 77, part := 0x3216, variants := 7, keySlot := 0, svn := 3, minRom := 0, length := 0, formOk := true, sigOk := true, digestsOk := true, images := [{ typ := 4, version := 9, ifVer := 0, minPeer := 0 }], settings := [], codes := [] } : Package) } },
     true, true, true,
     ({ version := 77, part := 0x3216, variants := 7, keySlot := 0, svn := 3, minRom := 0, length := 0, formOk := true, sigOk := true, digestsOk := true, images := [{ typ := 4, version := 9, ifVer := 0, minPeer := 0 }], settings := [], codes := [] }
     : Package), calm_of (by decide +kernel), by decide +kernel⟩,
   ⟨z.wr R.UPD_STAT_STATE 5, true, true, true, sound_of (by decide +kernel), by decide +kernel⟩,
   ⟨{ ((((((z.wr R.CAP_NCH_POP 1).wr (R.NCH_GEOM_PAGES 0) 1000).wr (R.SQP_DIR_LENGTH 2) 1).wr R.SQP_STAT_VALID 4).wr R.KLN_STAT_SLOT_READY 1).wr R.UPD_STAT_STATE 5) with cellar := { z.cellar with groups := [({ id := 4, zone := .kiln, st := .erased, members := [(0, 0, 0)], cap := 600000, erasedAt := 0, closedAt := 0, kilnUse := false, writtenAt := 0 } : Group)] }, packA := { z.packA with swAt := 1 }, update := { z.update with bank0 := some ({ version := 77, part := 0x3216, variants := 7, keySlot := 0, svn := 3, minRom := 0, length := 0, formOk := true, sigOk := true, digestsOk := true, images := [{ typ := 4, version := 9, ifVer := 0, minPeer := 0 }], settings := [], codes := [] } : Package) } },
     true, true, true,
     ({ version := 77, part := 0x3216, variants := 7, keySlot := 0, svn := 3, minRom := 0, length := 0, formOk := true, sigOk := true, digestsOk := true, images := [{ typ := 4, version := 9, ifVer := 0, minPeer := 0 }], settings := [], codes := [] }
     : Package), sound_of (by decide +kernel), by decide +kernel⟩⟩

end Sys2Proof.Tests
end

section
/-!
PROOFS. Proofs/Scope.lean: what every command leaves alone (R1), and the register write whose frame is too wide (R67).
-/

namespace Sys2Proof.Machine

/-! ### The queue and the variant -/

/-- `u` has the queue and the variant of `s`. -/
def SameQueueAndVariant (s u : State) : Prop := u.pending = s.pending ∧ u.variant = s.variant

/-- `Stable.same` changes neither part, so the property goes from the state before to the state after. -/
theorem stable_sameQueueAndVariant (s : State) : Stable (SameQueueAndVariant s) where
  same _ _ _ _ _ _ _ _ _ _ _ h := h

/-- Settles O5: what survives every change that leaves the queue and the variant alone survives every command (`exec_stable`). -/
theorem commandsLeaveTheQueueAndTheVariant : Obligations.CommandsLeaveTheQueueAndTheVariant := by
  unfold Obligations.CommandsLeaveTheQueueAndTheVariant
  intro c s t h
  exact exec_stable (stable_sameQueueAndVariant s) ⟨rfl, rfl⟩ h

/-! ### A register write that empties the list of copies -/

/-- A copy of granule 0 that the wither engine has begun, before its read. -/
def queuedCopy : InFlight :=
  { granule := 0, phase := .read, wrRead := false, wrProg := false, data := [], poison := 0, addr := 0, fence := 0, boost := false }

/-- A device that runs, with one dirty granule, its copy in flight. -/
def copyingState : State :=
  { State.reset with power := { life := .running }, dirty := { bits := [(0, 1)], summary := [(0, 1)], inflight := [queuedCopy] } }

/-- R67: `SOFT_RESET` written to `PAGE_CTRL` of `WTH`, with `ENABLE` kept. -/
def witherSoftReset : Sys2Proof.Instr := .registerWrite .portA (.page 0x41 0x008) 4 5

/-- `WTH` needs no safe point, so its soft reset happens within the write, and it drops the copies in flight. -/
theorem witherSoftReset_drops_copies : (Outcome.state (exec witherSoftReset copyingState)).dirty.inflight = [] := by
  decide +kernel

/-- Refutes O10: its last clause says that no register write touches the dirty state, but a write of `PAGE_CTRL` can ask for a soft
reset (R67, Table 03-4), and that of `WTH` drops the copies in flight. -/
theorem not_writesAreAppliedStagedOrRejected : ¬ Obligations.WritesAreAppliedStagedOrRejected := by
  unfold Obligations.WritesAreAppliedStagedOrRejected
  rintro ⟨-, -, -, -, -, -, -, -, -, -, -, -, -, -, -, hframe⟩
  obtain ⟨t, hexec : exec witherSoftReset copyingState = .next t, hdirty, -⟩ :=
    hframe copyingState .portA (.page 0x41 0x008) 4 5
  have hdropped : t.dirty.inflight = [] := by simpa only [hexec, Outcome.state] using witherSoftReset_drops_copies
  rw [hdirty] at hdropped
  exact absurd hdropped (by decide)

end Sys2Proof.Machine
end

section
/-!
PROOFS. Proofs/IslandSupply.lean: a change of the island's supply that asks for a kiln, and so stops retire copies (R24, R120, R455).
-/

namespace Sys2Proof.Machine

/-! ### F247 with the planned-kiln action -/

/-- Bit 2 of a reaction, the planned-kiln action (R455), added to what the table fixes for the source `src`. -/
def askingForKiln (src : Nat) : NMap := [(src, minAct src ^^^ (minAct src ||| 2 ^ 2))]

/-- A device whose island has no source, with its kiln controller Ready, `MAIN_IN` good, no port link-up, and two retire copies in
progress; the reaction table asks for a kiln where the island comes to run from a phantom feed (F247). -/
def islandStarvedState : State :=
  { State.reset with power := { mainGood := true, sources := 0 }, safe := { react := askingForKiln 247 },
                     dram := { retiring := [1, 2] } }.wr R.KLN_STAT_STATE 1

/-- The phantom feed of the first Daluf port appears. -/
def phantomFeedAppears : Sys2Proof.Instr := .islandSupplyChange 3 true

theorem islandStarvedState_sound : islandStarvedState.Sound where
  inv :=
    { regs := by decide, staged := by decide, latched := by decide, mem := by decide, tlog := by decide, hist := by decide,
      stack := by decide, hints := by decide, inflight := by decide, logsA := by decide, logsB := by decide }
  kept := rfl

/-- F247 latches, its reaction is a kiln that no pack path and no port holds up before K3, and K3 lets only the first retire copy
finish (R120). -/
theorem phantomFeed_stops_retire_copies :
    (Outcome.state (exec phantomFeedAppears islandStarvedState)).dram.retiring = [1] := by
  decide +kernel

/-- Refutes O51: its eighth clause says that a change of the supply leaves DRAM as it is, but it detects F247 (R24), which the
reaction table may answer with a kiln (R455, R466), and K3 abandons retire copies (R120). -/
theorem not_failedStartsAndTheIslandAreKept : ¬ Obligations.FailedStartsAndTheIslandAreKept := by
  unfold Obligations.FailedStartsAndTheIslandAreKept
  rintro ⟨-, -, -, -, -, -, -, hsupply, -⟩
  obtain ⟨t, hexec : exec phantomFeedAppears islandStarvedState = .next t, -, -, hdram, -⟩ :=
    hsupply islandStarvedState 3 3 true islandStarvedState_sound rfl (by decide) (by decide) (by decide)
  have hstopped : t.dram.retiring = [1] := by simpa only [hexec, Outcome.state] using phantomFeed_stops_retire_copies
  rw [hdram] at hstopped
  exact absurd hstopped (by decide)

end Sys2Proof.Machine
end

section
/-!
PROOFS. Proofs/Stores.lean: what an operation can change that writes only certain of DRAM, the dirty bits, the cellar, the
code flash, the budget unit and the phase tracker.
-/

namespace Sys2Proof.Machine

/-! ### What an operation that writes only certain stores can change -/

/-- The parts of the state that hold memory and what is stored about it. -/
inductive Store where
  | dram
  | dirty
  | cellar
  | flash
  | budget
  | track

/-- `P` survives what an operation can do that writes, of the stores, only those of `W`: every change of the rest of the state
but its variant and its queue, every change of a store of `W`, and what a reaction of the safety manager does to the stores: K3
stops retire copies (R120) and the dirty scrub (R231), a fallback returns the die table (R523). -/
structure Touches (W : Store → Prop) (P : State → Prop) : Prop where
  set : ∀ {s : State} {regs staged latched : NMap} {track : Track} {maint : Maint} {safe : Safe} {recs : Records}
      {hostA hostB : HostPort} {dram : Dram} {dirty : Dirty} {budget : Budget} {kiln : Kiln} {cellar : Cellar}
      {steep : Steep} {queues : Queues} {fabric : Fabric} {racking : Racking} {packA packB : Pack} {learnt : List Learnt}
      {seq : Seq} {power : Power} {cal : Cal} {flash : CodeFlash} {update : Update} {halted badClocks : List Nat}
      {hostTime hostTimeAt freeCtr : Nat} {out : List Output} {held : List Instr},
    (dram = s.dram ∨ W .dram) → (dirty = s.dirty ∨ W .dirty) → (cellar = s.cellar ∨ W .cellar) →
    (flash = s.flash ∨ W .flash) → (budget = s.budget ∨ W .budget) → (track = s.track ∨ W .track) → P s →
      P { s with regs := regs, staged := staged, latched := latched, track := track, maint := maint, safe := safe,
                 recs := recs, hostA := hostA, hostB := hostB, dram := dram, dirty := dirty, budget := budget, kiln := kiln,
                 cellar := cellar, steep := steep, queues := queues, fabric := fabric, racking := racking, packA := packA,
                 packB := packB, learnt := learnt, seq := seq, power := power, cal := cal, flash := flash, update := update,
                 halted := halted, badClocks := badClocks, hostTime := hostTime, hostTimeAt := hostTimeAt,
                 freeCtr := freeCtr, out := out, held := held }
  freeze : ∀ {s : State}, P s → P s.freezeRetire
  scrubStop : ∀ {s : State}, P s → P { s with dirty := { s.dirty with scrubRun := false, scrubDue := false } }
  dieTable : ∀ {s : State} {d : List DieRow}, P s → P { s with cellar := { s.cellar with dieTable := d } }

section

variable {W : Store → Prop} {P : State → Prop} {s : State} (C : Touches W P) (hP : P s) {regs staged latched : NMap}
  {track : Track} {maint : Maint} {safe : Safe} {recs : Records} {hostA hostB : HostPort} {dram : Dram} {dirty : Dirty}
  {budget : Budget} {kiln : Kiln} {cellar : Cellar} {steep : Steep} {queues : Queues} {fabric : Fabric} {racking : Racking}
  {packA packB : Pack} {learnt : List Learnt} {seq : Seq} {power : Power} {cal : Cal} {flash : CodeFlash} {update : Update}
  {halted badClocks : List Nat} {hostTime hostTimeAt freeCtr : Nat} {out : List Output} {held : List Instr}

include C hP

theorem Touches.other :
    P { s with regs := regs, staged := staged, latched := latched, maint := maint, safe := safe, recs := recs,
               hostA := hostA, hostB := hostB, kiln := kiln, steep := steep, queues := queues, fabric := fabric,
               racking := racking, packA := packA, packB := packB, learnt := learnt, seq := seq, power := power,
               cal := cal, update := update, halted := halted, badClocks := badClocks, hostTime := hostTime,
               hostTimeAt := hostTimeAt, freeCtr := freeCtr, out := out, held := held } :=
  C.set (.inl rfl) (.inl rfl) (.inl rfl) (.inl rfl) (.inl rfl) (.inl rfl) hP

theorem Touches.setDram (hdram : W .dram) :
    P { s with regs := regs, staged := staged, latched := latched, maint := maint, safe := safe, recs := recs,
               hostA := hostA, hostB := hostB, dram := dram, kiln := kiln, steep := steep, queues := queues,
               fabric := fabric, racking := racking, packA := packA, packB := packB, learnt := learnt, seq := seq,
               power := power, cal := cal, update := update, halted := halted, badClocks := badClocks,
               hostTime := hostTime, hostTimeAt := hostTimeAt, freeCtr := freeCtr, out := out, held := held } :=
  C.set (.inr hdram) (.inl rfl) (.inl rfl) (.inl rfl) (.inl rfl) (.inl rfl) hP

theorem Touches.setDirty (hdirty : W .dirty) :
    P { s with regs := regs, staged := staged, latched := latched, maint := maint, safe := safe, recs := recs,
               hostA := hostA, hostB := hostB, dirty := dirty, kiln := kiln, steep := steep, queues := queues,
               fabric := fabric, racking := racking, packA := packA, packB := packB, learnt := learnt, seq := seq,
               power := power, cal := cal, update := update, halted := halted, badClocks := badClocks,
               hostTime := hostTime, hostTimeAt := hostTimeAt, freeCtr := freeCtr, out := out, held := held } :=
  C.set (.inl rfl) (.inr hdirty) (.inl rfl) (.inl rfl) (.inl rfl) (.inl rfl) hP

theorem Touches.setCellar (hcellar : W .cellar) :
    P { s with regs := regs, staged := staged, latched := latched, maint := maint, safe := safe, recs := recs,
               hostA := hostA, hostB := hostB, kiln := kiln, cellar := cellar, steep := steep, queues := queues,
               fabric := fabric, racking := racking, packA := packA, packB := packB, learnt := learnt, seq := seq,
               power := power, cal := cal, update := update, halted := halted, badClocks := badClocks,
               hostTime := hostTime, hostTimeAt := hostTimeAt, freeCtr := freeCtr, out := out, held := held } :=
  C.set (.inl rfl) (.inl rfl) (.inr hcellar) (.inl rfl) (.inl rfl) (.inl rfl) hP

theorem Touches.setFlash (hflash : W .flash) :
    P { s with regs := regs, staged := staged, latched := latched, maint := maint, safe := safe, recs := recs,
               hostA := hostA, hostB := hostB, kiln := kiln, steep := steep, queues := queues, fabric := fabric,
               racking := racking, packA := packA, packB := packB, learnt := learnt, seq := seq, power := power,
               cal := cal, flash := flash, update := update, halted := halted, badClocks := badClocks,
               hostTime := hostTime, hostTimeAt := hostTimeAt, freeCtr := freeCtr, out := out, held := held } :=
  C.set (.inl rfl) (.inl rfl) (.inl rfl) (.inr hflash) (.inl rfl) (.inl rfl) hP

theorem Touches.setBudget (hbudget : W .budget) :
    P { s with regs := regs, staged := staged, latched := latched, maint := maint, safe := safe, recs := recs,
               hostA := hostA, hostB := hostB, budget := budget, kiln := kiln, steep := steep, queues := queues,
               fabric := fabric, racking := racking, packA := packA, packB := packB, learnt := learnt, seq := seq,
               power := power, cal := cal, update := update, halted := halted, badClocks := badClocks,
               hostTime := hostTime, hostTimeAt := hostTimeAt, freeCtr := freeCtr, out := out, held := held } :=
  C.set (.inl rfl) (.inl rfl) (.inl rfl) (.inl rfl) (.inr hbudget) (.inl rfl) hP

theorem Touches.setTrack (htrack : W .track) :
    P { s with regs := regs, staged := staged, latched := latched, track := track, maint := maint, safe := safe,
               recs := recs, hostA := hostA, hostB := hostB, kiln := kiln, steep := steep, queues := queues,
               fabric := fabric, racking := racking, packA := packA, packB := packB, learnt := learnt, seq := seq,
               power := power, cal := cal, update := update, halted := halted, badClocks := badClocks,
               hostTime := hostTime, hostTimeAt := hostTimeAt, freeCtr := freeCtr, out := out, held := held } :=
  C.set (.inl rfl) (.inl rfl) (.inl rfl) (.inl rfl) (.inl rfl) (.inr htrack) hP

theorem Touches.setDirtyBudget (hdirty : W .dirty) (hbudget : W .budget) :
    P { s with regs := regs, staged := staged, latched := latched, maint := maint, safe := safe, recs := recs,
               hostA := hostA, hostB := hostB, dirty := dirty, budget := budget, kiln := kiln, steep := steep,
               queues := queues, fabric := fabric, racking := racking, packA := packA, packB := packB, learnt := learnt,
               seq := seq, power := power, cal := cal, update := update, halted := halted, badClocks := badClocks,
               hostTime := hostTime, hostTimeAt := hostTimeAt, freeCtr := freeCtr, out := out, held := held } :=
  C.set (.inl rfl) (.inr hdirty) (.inl rfl) (.inl rfl) (.inr hbudget) (.inl rfl) hP

end

end Sys2Proof.Machine
end

section
/-!
PROOFS. Proofs/StoreOps.lean: which of the stores each operation writes (Proofs/Stores.lean): its hypotheses on `W` name them.
-/

namespace Sys2Proof.Machine

section

variable {W : Store → Prop} {P : State → Prop} {s : State} (C : Touches W P) (hP : P s)

include C hP

/-! ### Machine/Ops.lean -/

theorem Touches.wr {f : Fld} {v : Nat} : P (s.wr f v) :=
  C.other hP

theorem Touches.inc {f : Fld} : P (s.inc f) :=
  pres_ite (C.wr hP) hP

theorem Touches.addSat {f : Fld} {n : Nat} : P (s.addSat f n) :=
  C.wr hP

theorem Touches.bump {f : Fld} : P (s.bump f) :=
  C.wr hP

theorem Touches.setBit {f : Fld} {i : Nat} {b : Bool} : P (s.setBit f i b) :=
  pres_ite hP (C.wr hP)

theorem Touches.takeFree {w : Nat} : P (s.takeFree w).2 :=
  C.other hP

theorem Touches.send {o : Output} : P (s.send o) :=
  C.other hP

theorem Touches.begin : P s.begin :=
  C.other hP

theorem Touches.setHost {p : Nat} {h : HostPort} : P (s.setHost p h) :=
  pres_ite (C.other hP) (C.other hP)

theorem Touches.hold {c : Instr} : P (s.hold c) :=
  C.other hP

theorem Touches.msix {p vec : Nat} : P (s.msix p vec) :=
  pres_ite (C.send hP) hP

theorem Touches.dropHeld {p : Nat} : P (s.dropHeld p) :=
  C.other hP

theorem Touches.setPack {p : Nat} {k : Pack} : P (s.setPack p k) :=
  pres_ite (C.other hP) (C.other hP)

theorem Touches.showTlog : P s.showTlog :=
  C.wr (C.wr (C.wr hP))

theorem Touches.pushTlog {e : TEntry} : P (s.pushTlog e) :=
  C.showTlog (C.other hP)

theorem Touches.detect {src inst : Nat} : P (s.detect src inst) :=
  C.other hP

theorem Touches.appendTlog {limited : Bool} {e : TEntry} : P (s.appendTlog limited e) :=
  pres_ite (pres_cond (C.inc (C.other hP)) (fun _ h1 => C.detect h1)) (C.pushTlog (C.other hP))

theorem Touches.tlog {code data : Nat} : P (s.tlog code data) :=
  C.appendTlog hP

theorem Touches.notice {page : Nat} : P (s.notice page) :=
  C.tlog hP

theorem Touches.warning {page : Nat} : P (s.warning page) :=
  C.tlog hP

theorem Touches.reject {page : Nat} : P (s.reject page) :=
  C.wr hP

theorem Touches.pushEvent {log : Nat} {kind : EvtKind} {granule : Option Nat} {words : List Nat} {p : Nat} :
    P (s.pushEvent log kind granule words p) :=
  pres_ite (pres_cond (C.setBit hP) (fun _ h1 => C.detect h1)) (pres_cond (C.wr (C.setHost hP)) (fun _ h1 => C.msix h1))

theorem Touches.event {log : Nat} {kind : EvtKind} {granule : Option Nat} {words : List Nat} :
    P (s.event log kind granule words) :=
  C.tlog (pres_foldl hP (fun _ _ h1 => C.pushEvent h1))

theorem Touches.vendor {log subtype : Nat} {words : List Nat} : P (s.vendor log subtype words) :=
  C.event hP

theorem Touches.healthNote : P s.healthNote :=
  pres_ite hP (C.event (C.other hP))

theorem Touches.dirtyLoad {p : Nat} : P (s.dirtyLoad p) := by
  unfold State.dirtyLoad
  exact pres_cond (C.wr hP) (fun _ h1 => C.inc h1)

theorem Touches.pstUpdate {upd : State → State} (hupd : ∀ t, P t → P (upd t)) : P (s.pstUpdate upd) :=
  pres_each
    (C.healthNote
      (C.bump (pres_cond (C.wr (C.wr (hupd _ hP))) (fun _ h1 => C.tlog (C.vendor (C.inc (C.other h1)))))))
    (fun _ _ h1 => C.dirtyLoad h1)

theorem Touches.setCond {src inst : Nat} {on : Bool} : P (s.setCond src inst on) :=
  pres_ite (pres_ite (C.other hP) (C.detect (C.other hP))) (C.other hP)

theorem Touches.reply {p rc : Nat} {words : List Nat} : P (s.reply p rc words) :=
  pres_cond (C.send hP) (fun _ h1 => C.msix h1)

theorem Touches.bgEnd {p opcode rc : Nat} {words : List Nat} : P (s.bgEnd p opcode rc words) :=
  pres_cond (C.send hP) (fun _ h1 => C.msix h1)

/-! ### Machine/DirtyOps.lean -/

theorem Touches.flagInflight {g : Nat} (hdirty : W .dirty) : P (s.flagInflight g) :=
  C.setDirty hP hdirty

theorem Touches.rankAdd {g : Nat} : P (s.rankAdd g) :=
  C.wr hP

theorem Touches.rankSub {g : Nat} : P (s.rankSub g) :=
  C.wr hP

theorem Touches.markDirty {g : Nat} (hdirty : W .dirty) : P (s.markDirty g) :=
  pres_ite hP
    (pres_ite (C.flagInflight hP hdirty) (C.rankAdd (C.wr (C.wr (C.setDirty (C.flagInflight hP hdirty) hdirty)))))

theorem Touches.markClean {g : Nat} (hdirty : W .dirty) : P (s.markClean g) :=
  pres_ite (C.rankSub (C.wr (C.setDirty hP hdirty))) hP

theorem Touches.rankBulk {set : RSet} {up : Bool} : P (s.rankBulk set up) :=
  pres_foldl (pres_each hP (fun _ _ h1 => pres_ite h1 (C.wr h1))) (fun _ _ h1 => C.wr (C.wr h1))

theorem Touches.markRange {lo hi : Nat} (hdirty : W .dirty) : P (s.markRange lo hi) :=
  pres_ite hP (C.rankBulk (C.wr (C.wr (C.setDirty hP hdirty))))

theorem Touches.cleanRange {lo hi : Nat} (hdirty : W .dirty) : P (s.cleanRange lo hi) :=
  C.rankBulk (C.wr (C.setDirty hP hdirty))

theorem Touches.showInflight : P s.showInflight :=
  C.wr (C.wr hP)

theorem Touches.dropCopies {lo hi : Nat} (hdirty : W .dirty) : P (s.dropCopies lo hi) :=
  C.showInflight (C.setDirty hP hdirty)

theorem Touches.touch {r : Nat} (hdirty : W .dirty) : P (s.touch r) :=
  pres_ite (C.setDirty hP hdirty) hP

theorem Touches.enterBoost : P s.enterBoost :=
  pres_ite (C.detect (C.inc (C.wr (C.wr hP)))) hP

theorem Touches.leaveBoost : P s.leaveBoost :=
  pres_ite (C.wr (C.wr hP)) hP

/-! ### Machine/CellarOps.lean -/

theorem Touches.showMap : P s.showMap :=
  C.wr (C.wr hP)

theorem Touches.setEntry {g e : Nat} (hcellar : W .cellar) : P (s.setEntry g e) :=
  C.showMap (C.wr (C.setCellar hP hcellar))

theorem Touches.releaseEntries {lo hi : Nat} (hcellar : W .cellar) : P (s.releaseEntries lo hi) :=
  pres_ite hP (C.showMap (C.wr (C.setCellar hP hcellar)))

theorem Touches.putCodeword {a index typ : Nat} {poison : LineMask} {data : Memory} (hcellar : W .cellar) :
    P (s.putCodeword a index typ poison data) :=
  C.setCellar hP hcellar

theorem Touches.showZ : P s.showZ :=
  pres_cond (C.wr (C.wr (C.wr (C.wr (C.wr hP))))) (fun _ h1 => C.setCond h1)

theorem Touches.updGroup {id : Nat} {f : Group → Group} (hcellar : W .cellar) : P (s.updGroup id f) :=
  C.setCellar hP hcellar

theorem Touches.closeBroken (hcellar : W .cellar) : P s.closeBroken :=
  C.setCellar hP hcellar

theorem Touches.eraseGroup {id : Nat} (hcellar : W .cellar) : P (s.eraseGroup id) := by
  unfold State.eraseGroup
  split
  · exact hP
  · exact C.showZ (C.setCellar hP hcellar)

theorem Touches.noteProgram {a : Nat} (hcellar : W .cellar) : P (s.noteProgram a) := by
  unfold State.noteProgram
  split
  · exact hP
  · exact C.updGroup (C.setCellar hP hcellar) hcellar

theorem Touches.countUsed {n : Nat} (hcellar : W .cellar) : P (s.countUsed n) :=
  C.setCellar hP hcellar

theorem Touches.countDone {n : Nat} (hcellar : W .cellar) : P (s.countDone n) :=
  C.setCellar hP hcellar

theorem Touches.putWraps {w : WrapCopy} (hcellar : W .cellar) : P (s.putWraps w) :=
  C.setCellar hP hcellar

theorem Touches.moveWraps {chan : Nat} (hcellar : W .cellar) : P (s.moveWraps chan) :=
  pres_ite (C.setCellar hP hcellar) (pres_ite (C.setCellar hP hcellar) hP)

theorem Touches.showImage : P s.showImage :=
  C.wr (C.wr hP)

/-! ### Machine/MemOps.lean -/

theorem Touches.noteOwed {t : Nat} {a : RSet} : P (s.noteOwed t a) :=
  C.other hP

theorem Touches.setDebt {t : Nat} {d : RSet} : P (s.setDebt t d) :=
  C.wr (pres_ite (C.other (C.noteOwed hP)) (C.other (C.noteOwed hP)))

theorem Touches.debtMark {r : Nat} : P (s.debtMark r) :=
  pres_ite hP (C.other (pres_cond (pres_cond hP (fun _ h1 => C.setDebt h1)) (fun _ h1 => C.setDebt h1)))

theorem Touches.wrote {g : Nat} (hdirty : W .dirty) : P (s.wrote g) :=
  C.debtMark (C.markDirty hP hdirty)

theorem Touches.showPoison {p : Nat} : P (s.showPoison p) :=
  C.wr hP

theorem Touches.listAt {g : Nat} {whole : Bool} {lines : LineMask} {p : Nat} : P (s.listAt g whole lines p) :=
  pres_ite
    (pres_cond hP (fun _ h1 => pres_cond (C.wr h1) (fun _ h2 => C.detect h2)))
    (C.showPoison (C.setHost (pres_cond hP (fun _ h1 => pres_cond (C.wr h1) (fun _ h2 => C.detect h2)))))

theorem Touches.listPoison {g : Nat} {whole : Bool} {lines : LineMask} : P (s.listPoison g whole lines) :=
  pres_foldl hP (fun _ _ h1 => C.listAt h1)

theorem Touches.unlistLine {g l : Nat} : P (s.unlistLine g l) :=
  pres_each hP (fun _ _ h1 => pres_ite (C.showPoison (C.setHost h1)) h1)

theorem Touches.setPoison {g l : Nat} {on : Bool} (hdram : W .dram) : P (s.setPoison g l on) :=
  pres_ite (C.listPoison (C.setDram hP hdram)) (C.unlistLine (C.setDram hP hdram))

theorem Touches.storeLine {g l : Nat} {data : Memory} {poison : Bool} (hdram : W .dram) : P (s.storeLine g l data poison) :=
  C.setPoison (C.setDram hP hdram) hdram

theorem Touches.showSteep : P s.showSteep :=
  C.wr (C.wr (C.wr (C.wr (C.wr (C.wr (C.wr hP))))))

theorem Touches.maskLine {g l : Nat} : P (s.maskLine g l) :=
  pres_ite (C.showSteep (C.other hP)) hP

theorem Touches.maskAll {g : Nat} : P (s.maskAll g) :=
  pres_ite (C.showSteep (C.other hP)) hP

theorem Touches.writeLine {g l : Nat} {data : Memory} {poison : Bool} (hdram : W .dram) (hdirty : W .dirty) :
    P (s.writeLine g l data poison) :=
  C.storeLine (C.maskLine (C.wrote hP hdirty)) hdram

theorem Touches.mergeBytes {g l : Nat} {bytes : List (Nat × Byte)} (hdram : W .dram) : P (s.mergeBytes g l bytes) :=
  C.setDram hP hdram

theorem Touches.raiseFill {g : Nat} {held : List (Nat × Nat × Nat)} : P (s.raiseFill g held) :=
  pres_ite (C.other hP) (pres_ite (C.other hP) (C.other hP))

theorem Touches.admitFills : P s.admitFills :=
  C.other hP

theorem Touches.respond {p : Nat} {o : Output} : P (s.respond p o) :=
  C.send (C.wr hP)

theorem Touches.answerRead {port tag g l : Nat} : P (s.answerRead port tag g l) :=
  pres_ite (C.respond hP) (C.respond hP)

theorem Touches.finishWrite {w : HeldWrite} (hdram : W .dram) (hdirty : W .dirty) : P (s.finishWrite w) := by
  unfold State.finishWrite
  extract_lets s1 s2
  have hwrote : P s2 := pres_ite (C.storeLine (C.wrote hP hdirty) hdram) (C.mergeBytes (C.wrote hP hdirty) hdram)
  exact pres_ite (C.answerRead hP) (pres_ite (C.reply hwrote) (C.respond hwrote))

theorem Touches.answerOld {data : Memory} {poison : LineMask} {h : Nat × Nat × Nat} : P (s.answerOld data poison h) :=
  C.respond hP

theorem Touches.answerOvertaken {g : Nat} {data : Memory} {poison : LineMask} : P (s.answerOvertaken g data poison) :=
  pres_foldl (C.other hP) (fun _ _ h1 => C.answerOld h1)

theorem Touches.fillGranule {g : Nat} {data : Memory} {poison : LineMask} {lost : Bool} (hdram : W .dram) :
    P (s.fillGranule g data poison lost) :=
  C.showSteep (pres_cond (C.setDram (C.answerOvertaken hP) hdram) (fun _ h1 => C.listPoison h1))

theorem Touches.endFill {g : Nat} (hdram : W .dram) (hdirty : W .dirty) : P (s.endFill g) :=
  C.admitFills
    (pres_foldl (pres_foldl (C.other hP) (fun _ _ h1 => C.answerRead h1)) (fun _ _ h1 => C.finishWrite h1 hdram hdirty))

theorem Touches.dirCheckpoint (hcellar : W .cellar) : P s.dirCheckpoint :=
  C.setCellar hP hcellar

theorem Touches.steepCheck (hcellar : W .cellar) : P s.steepCheck :=
  pres_ite (C.dirCheckpoint (C.vendor (C.wr (C.wr (C.wr hP)))) hcellar) hP

/-! ### Machine/QueueOps.lean -/

theorem Touches.setQueue {c : Queue} : P (s.setQueue c) :=
  C.other hP

theorem Touches.mapQueues {f : Queue → Queue} : P (s.mapQueues f) :=
  C.other hP

theorem Touches.showQueues : P s.showQueues :=
  C.wr (C.wr hP)

theorem Touches.useContext {q : Nat} : P (s.useContext q) := by
  unfold State.useContext
  exact pres_cond (C.wr (C.other hP)) (fun _ h1 => C.inc h1)

theorem Touches.served {c q : Nat} {fresh : Bool} : P (s.served c q fresh) :=
  C.other hP

theorem Touches.startQueue {q : Nat} : P (s.startQueue q) :=
  pres_ite (C.setQueue hP) hP

theorem Touches.setCmd {q : Nat} {k : RunCmd} : P (s.setCmd q k) :=
  C.setQueue hP

theorem Touches.vectorCause {port vec : Nat} : P (s.vectorCause port vec) :=
  pres_ite (C.msix (C.other hP)) (C.other hP)

theorem Touches.postCompletion {q : Nat} {d : Completion} : P (s.postCompletion q d) :=
  pres_cond (pres_cond (C.bump (C.setQueue (C.send hP))) (fun _ h1 => C.bump h1)) (fun _ h1 => C.vectorCause h1)

theorem Touches.settleQueue {q : Nat} : P (s.settleQueue q) :=
  pres_cond hP (fun _ h1 => C.setQueue h1)

theorem Touches.complete {q : Nat} {k : RunCmd} {st : Nat} : P (s.complete q k st) :=
  pres_ite (C.settleQueue (C.startQueue (C.postCompletion (C.setQueue hP)))) (pres_ite hP (C.inc (C.setQueue hP)))

theorem Touches.releaseHeld {q n : Nat} : P (s.releaseHeld q n) := by
  induction n generalizing s with
  | zero => exact hP
  | succ n ih =>
    unfold State.releaseHeld
    dsimp only
    split
    · exact C.setQueue hP
    · exact pres_ite (ih (C.postCompletion (C.setQueue hP))) hP

theorem Touches.mapFences {f : RunCmd → RunCmd} : P (s.mapFences f) :=
  C.mapQueues hP

theorem Touches.fenceCommit {g : Nat} : P (s.fenceCommit g) :=
  C.mapFences hP

theorem Touches.fenceClean {lo hi : Nat} : P (s.fenceClean lo hi) :=
  C.mapFences hP

theorem Touches.fenceGiveUp {g : Nat} : P (s.fenceGiveUp g) :=
  C.mapFences hP

theorem Touches.fenceFlushed : P s.fenceFlushed :=
  C.mapFences hP

theorem Touches.freezeQueues : P s.freezeQueues :=
  C.showQueues (C.mapQueues hP)

theorem Touches.dropPortQueues {p : Nat} : P (s.dropPortQueues p) :=
  C.showQueues (C.mapQueues hP)

theorem Touches.abortCmds {q : Nat} : P (s.abortCmds q) :=
  pres_foldl (C.setQueue hP) (fun _ _ h1 => C.complete h1)

theorem Touches.disableQueue {q : Nat} : P (s.disableQueue q) :=
  pres_ite (C.showQueues (C.settleQueue (C.abortCmds (C.setQueue hP)))) hP

theorem Touches.faultQueue {q : Nat} : P (s.faultQueue q) :=
  C.inc (C.wr (C.setQueue hP))

/-! ### Machine/SeqOps.lean -/

theorem Touches.armCdl {n target : Nat} : P (s.armCdl n target) :=
  pres_ite (C.wr (C.wr (C.wr (C.wr hP)))) (C.wr (C.wr (C.wr hP)))

theorem Touches.disarmCdl {n : Nat} : P (s.disarmCdl n) :=
  C.wr hP

theorem Touches.showMargins : P s.showMargins :=
  pres_cond (C.wr hP) (fun _ h1 => C.setCond h1)

theorem Touches.dropMargin {i : Nat} : P (s.dropMargin i) :=
  C.wr (C.wr hP)

theorem Touches.dropMargins : P s.dropMargins :=
  C.showMargins (pres_each hP (fun _ _ h1 => C.dropMargin h1))

theorem Touches.easeMargins : P s.easeMargins :=
  pres_each hP (fun _ _ h1 => C.wr h1)

theorem Touches.setEnables {mask : Nat} : P (s.setEnables mask) :=
  pres_ite (C.other hP) (pres_ite
    (pres_foldl (C.wr (C.other hP)) (fun _ _ h1 => C.wr h1))
    (C.other (pres_foldl (C.wr (C.other hP)) (fun _ _ h1 => C.wr h1))))

theorem Touches.ranksOff {mask : Nat} : P (s.ranksOff mask) :=
  pres_each hP (fun _ _ h1 => pres_each h1 (fun _ _ h2 => pres_cond h2 (fun _ h3 => C.wr h3)))

theorem Touches.clrEnables {mask : Nat} : P (s.clrEnables mask) :=
  pres_ite hP (C.other (pres_foldl (C.ranksOff (C.wr hP)) (fun _ _ h1 => pres_cond h1 (fun _ h2 => C.wr h2))))

theorem Touches.showSeq : P s.showSeq :=
  C.wr (C.wr (C.wr (C.wr (C.wr hP))))

theorem Touches.seqWaits {w : SeqWait} : P (s.seqWaits w) :=
  C.other hP

theorem Touches.seqNext : P s.seqNext :=
  C.other hP

theorem Touches.checkFailed {rails : Nat} {up : Bool} : P (s.checkFailed rails up) :=
  C.detect (C.wr (pres_foldl hP (fun _ _ h1 => C.wr (C.wr (pres_ite (C.inc h1) (C.inc h1))))))

theorem Touches.seqStop {failed : Bool} : P (s.seqStop failed) :=
  C.showSeq (C.wr (C.other hP))

theorem Touches.derivedStep : P s.derivedStep := by
  unfold State.derivedStep
  split
  · exact hP
  · exact C.seqStop hP
  · dsimp only
    split
    · exact C.seqWaits (C.other (C.clrEnables hP))
    · exact C.seqWaits (C.other (C.clrEnables hP))

theorem Touches.derivedDown : P s.derivedDown :=
  C.showSeq (C.derivedStep (C.other hP))

theorem Touches.seqEnd : P s.seqEnd :=
  pres_ite (C.derivedDown (C.detect hP)) (C.seqStop hP)

theorem Touches.seqClear {mask : Nat} : P (s.seqClear mask) :=
  pres_ite (C.seqNext (C.clrEnables hP)) (C.seqWaits (C.clrEnables hP))

theorem Touches.afterFail {up : Bool} : P (s.afterFail up) :=
  pres_ite (C.seqStop hP) (C.seqNext hP)

theorem Touches.seqStep : P s.seqStep := by
  unfold State.seqStep
  dsimp only
  split
  · exact C.seqEnd hP
  · exact C.seqNext (C.setEnables hP)
  · exact C.seqClear hP
  · exact pres_ite (C.seqNext hP) (C.seqWaits hP)
  · exact pres_ite (C.seqNext hP) (C.seqWaits hP)
  · exact pres_ite (pres_ite (C.seqNext (C.send (C.armCdl hP))) (C.seqWaits (C.armCdl hP))) (C.seqWaits hP)
  · exact pres_ite
      (C.afterFail (C.checkFailed (pres_ite (C.other hP) hP)))
      (pres_ite (C.seqNext (C.wr (pres_ite (C.other hP) hP))) (C.seqWaits (pres_ite (C.other hP) hP)))
  · exact pres_ite (C.afterFail (C.checkFailed hP)) (pres_ite (C.seqNext (C.wr hP)) (C.seqWaits hP))
  · exact pres_ite (C.other hP) (C.seqNext hP)
  · exact pres_ite (C.seqNext (C.wr hP)) (C.seqWaits hP)
  · exact C.seqEnd hP

theorem Touches.seqRun {n : Nat} : P (s.seqRun n) := by
  induction n generalizing s with
  | zero => exact C.showSeq (C.seqWaits hP)
  | succ n ih =>
    unfold State.seqRun
    refine pres_ite (C.showSeq hP) ?_
    split
    case h_1 => exact ih (C.seqStep hP)
    all_goals exact C.showSeq hP

theorem Touches.seqShedLook : P s.seqShedLook := by
  unfold State.seqShedLook
  split
  case h_1 => exact C.seqRun (C.seqClear (C.other hP))
  all_goals exact hP

theorem Touches.seqRequest {n : Nat} : P (s.seqRequest n) := by
  unfold State.seqRequest
  dsimp only
  split
  · exact C.other hP
  · exact pres_ite hP (pres_ite (C.other (C.seqStop hP)) (pres_ite (C.other (C.seqStop hP)) (C.setBit hP)))

theorem Touches.seqAbandon : P s.seqAbandon :=
  pres_ite (C.seqStop hP) hP

/-! ### Machine/LinkOps.lean -/

theorem Touches.setDport {n : Nat} {d : DPort} : P (s.setDport n d) :=
  C.other hP

theorem Touches.setPlane {n pl : Nat} {l : Plane} : P (s.setPlane n pl l) :=
  C.setDport hP

theorem Touches.pump {n pl k : Nat} : P (s.pump n pl k) := by
  induction k generalizing s with
  | zero => exact hP
  | succ k ih =>
    unfold State.pump
    refine pres_ite hP ?_
    split
    · exact hP
    · split
      · exact hP
      · exact ih (C.send (C.setPlane hP))

theorem Touches.dropAlarm {n : Nat} : P (s.dropAlarm n) :=
  C.detect (C.inc (C.other hP))

theorem Touches.sendOn {n pl : Nat} {p : Packet} : P (s.sendOn n pl p) := by
  unfold State.sendOn
  refine pres_ite hP ?_
  split
  · exact pres_ite (C.pump (C.setPlane hP)) (pres_ite (C.pump (C.setPlane (C.dropAlarm (C.setPlane hP)))) (C.dropAlarm hP))
  · exact C.pump (C.setPlane hP)

theorem Touches.floodOut {src : Nat} {p : Packet} : P (s.floodOut src p) :=
  pres_each hP (fun _ _ h1 => pres_cond h1 (fun _ h2 => C.sendOn (C.sendOn h2)))

theorem Touches.remember {src typ sq : Nat} : P (s.remember src typ sq) :=
  C.other hP

theorem Touches.floodOwn {typ : Nat} {p : Packet} : P (s.floodOwn typ p) :=
  C.floodOut (C.remember hP)

theorem Touches.floodKiln {trig : Nat} : P (s.floodKiln trig) :=
  pres_ite hP
    (C.inc (pres_each (C.remember (C.other hP)) (fun _ _ h1 => pres_cond h1 (fun _ h2 => C.sendOn (C.sendOn h2)))))

theorem Touches.floodLsa : P s.floodLsa :=
  pres_ite hP (C.floodOwn (C.bump (C.other hP)))

theorem Touches.announce : P s.announce :=
  pres_ite (C.other hP) (C.floodLsa hP)

theorem Touches.lsaTick : P s.lsaTick :=
  pres_cond hP (fun _ h1 => C.floodLsa h1)

theorem Touches.adjacency : P s.adjacency :=
  C.announce (C.other hP)

theorem Touches.claim {n : Nat} : P (s.claim n) := by
  unfold State.claim
  split
  · exact C.adjacency (C.wr (C.wr hP))
  · exact C.detect (C.wr (C.wr hP))

theorem Touches.loseFnn : P s.loseFnn := by
  unfold State.loseFnn
  exact C.claim (C.detect (C.inc hP))

theorem Touches.settleClaim : P s.settleClaim :=
  pres_ite (C.loseFnn hP) (pres_cond hP (fun _ h1 => C.claim h1))

theorem Touches.unicast {p : Packet} : P (s.unicast p) := by
  unfold State.unicast
  split
  · exact hP
  · exact C.sendOn hP

theorem Touches.dropHr {n : Nat} : P (s.dropHr n) :=
  C.wr (C.wr (C.wr (C.setDport (C.addSat hP))))

theorem Touches.dropSb {n : Nat} : P (s.dropSb n) :=
  C.wr (C.wr (C.wr (C.wr (C.setDport (C.addSat hP)))))

theorem Touches.portFall {n upTo : Nat} : P (s.portFall n upTo) := by
  unfold State.portFall
  extract_lets was s1 s2
  have hfell : P s2 :=
    pres_cond (C.wr (pres_cond (pres_cond hP (fun _ h1 => C.dropHr h1)) (fun _ h1 => C.dropSb h1))) (fun _ h1 => C.detect h1)
  exact pres_ite hP (pres_ite hfell (pres_ite hfell (C.adjacency hfell)))

theorem Touches.hrOff : P s.hrOff :=
  pres_cond hP (fun _ h1 => pres_each h1 (fun _ _ h2 => pres_cond h2 (fun _ h3 => C.portFall h3)))

theorem Touches.showFeed {n : Nat} : P (s.showFeed n) :=
  C.wr hP

theorem Touches.showFeeds : P s.showFeeds :=
  pres_cond hP (fun _ h1 => pres_each h1 (fun _ _ h2 => C.showFeed h2))

/-! ### Machine/RackOps.lean -/

theorem Touches.setSends {l : List Send} : P (s.setSends l) :=
  pres_each (C.other hP) (fun _ _ h1 => C.wr h1)

theorem Touches.mapRacks {f : RunCmd → RunCmd} : P (s.mapRacks f) :=
  C.mapQueues hP

theorem Touches.rackSettle : P s.rackSettle :=
  C.mapRacks hP

theorem Touches.rackSent {t r : Nat} : P (s.rackSent t r) :=
  C.mapRacks hP

theorem Touches.abandonSends {t : Nat} : P (s.abandonSends t) :=
  C.setSends hP

theorem Touches.suspend {t : Nat} : P (s.suspend t) :=
  C.rackSettle (C.detect (C.wr (C.abandonSends hP)))

theorem Touches.advanceGen {t n : Nat} : P (s.advanceGen t n) :=
  C.detect (C.setDebt (C.wr (pres_ite (C.other hP) (C.other hP))))

theorem Touches.rackTo {eui cls len sq tag : Nat} {p : Payload} : P (s.rackTo eui cls len sq tag p) := by
  unfold State.rackTo
  split
  · exact hP
  · exact pres_cond hP (fun _ h1 => C.unicast h1)

theorem Touches.sendOpen {t : Nat} : P (s.sendOpen t) :=
  pres_foldl (C.rackTo (pres_cond hP (fun _ h1 => C.advanceGen h1))) (fun _ _ h1 => C.rackTo h1)

theorem Touches.openTarget {t : Nat} : P (s.openTarget t) :=
  C.rackSettle (pres_cond (C.wr hP) (fun _ h1 => C.sendOpen h1))

theorem Touches.followRoutes : P s.followRoutes :=
  pres_each hP (fun _ _ h1 => pres_ite h1 (pres_ite (C.suspend h1) (pres_ite (C.openTarget h1) h1)))

theorem Touches.fabricStops : P s.fabricStops :=
  pres_cond hP (fun _ h1 => pres_each h1 (fun _ _ h2 => pres_cond h2 (fun _ h3 => C.suspend h3)))

theorem Touches.fabricRuns : P s.fabricRuns :=
  pres_cond hP (fun _ h1 => C.followRoutes (C.settleClaim h1))

theorem Touches.showGuest {slot : Nat} : P (s.showGuest slot) := by
  unfold State.showGuest
  dsimp only
  split
  · exact C.wr (C.wr (C.wr (C.wr (C.wr (C.wr (C.wr (C.wr (C.wr hP))))))))
  · exact C.wr (C.wr (C.wr (C.wr (pres_cond (C.wr (C.wr (C.wr (C.wr hP)))) (fun _ h1 => C.wr h1)))))

theorem Touches.putGuest {v : Guest} : P (s.putGuest v) :=
  C.showGuest (C.other hP)

theorem Touches.dropGuest {slot : Nat} : P (s.dropGuest slot) :=
  C.showGuest (C.other hP)

theorem Touches.sendLost {slot : Nat} : P (s.sendLost slot) := by
  unfold State.sendLost
  split
  · exact hP
  · exact pres_ite hP (C.putGuest (C.rackTo hP))

theorem Touches.guestsFollow : P s.guestsFollow :=
  pres_foldl hP (fun _ _ h1 => C.showGuest (C.sendLost h1))

theorem Touches.guestHours : P s.guestHours :=
  pres_foldl hP (fun _ _ h1 => pres_cond h1 (fun _ h2 => C.inc h2))

/-! ### Machine/StopOps.lean -/

theorem Touches.noQuiet : P s.noQuiet :=
  C.other hP

theorem Touches.restExit : P s.restExit :=
  pres_ite (C.announce (pres_cond (C.other (C.wr hP)) (fun _ h1 => C.seqRequest h1))) hP

theorem Touches.abandonCal : P s.abandonCal :=
  pres_ite (C.detect (C.wr (C.wr (C.wr (C.wr (C.other hP)))))) hP

theorem Touches.updateK0 : P s.updateK0 :=
  pres_ite (C.wr (C.wr (C.other hP))) hP

theorem Touches.halt {n : Nat} : P (s.halt n) :=
  pres_cond
    (pres_cond
      (pres_foldl (C.other hP) (fun _ _ h1 => C.wr h1))
      (fun _ h1 => pres_cond (C.wr (C.other h1)) (fun _ h2 => C.wr (C.wr h2))))
    (fun _ h1 => C.fabricStops h1)

theorem Touches.unhalt {n : Nat} : P (s.unhalt n) :=
  pres_cond
    (pres_cond (pres_foldl (C.other hP) (fun _ _ h1 => C.wr h1)) (fun _ h1 => C.wr h1))
    (fun _ h1 => C.fabricRuns h1)

theorem Touches.nextHandover : P s.nextHandover := by
  unfold State.nextHandover
  split
  · exact C.wr (C.halt hP)
  · exact C.wr (C.wr (C.wr hP))

theorem Touches.handTick : P s.handTick :=
  pres_cond hP (fun _ h1 => C.nextHandover (C.other h1))

theorem Touches.restoreSettings : P s.restoreSettings :=
  pres_ite hP (C.other hP)

theorem Touches.returnImages : P s.returnImages :=
  C.wr (C.restoreSettings (C.other (pres_cond
    (pres_cond
      (pres_cond (pres_foldl hP (fun _ _ h1 => pres_cond h1 (fun _ h2 => C.wr h2))) (fun _ h1 => C.wr h1))
      (fun _ h1 => C.unhalt h1))
    (fun _ h1 => C.dieTable h1))))

theorem Touches.fallback : P s.fallback :=
  C.vendor (C.detect (C.inc (C.wr (C.wr (C.returnImages hP)))))

theorem Touches.dropTest {p : Nat} : P (s.dropTest p) :=
  pres_ite hP (C.disarmCdl (C.wr (C.setPack hP)))

theorem Touches.packPathOn : P s.packPathOn :=
  pres_each hP (fun _ _ h1 => pres_cond h1 (fun _ h2 => C.setPack h2))

theorem Touches.freezeSteep : P s.freezeSteep :=
  C.showSteep (C.wr (C.other hP))

theorem Touches.freezeRacking : P s.freezeRacking :=
  C.wr (C.wr (C.other hP))

theorem Touches.freezeRetire : P s.freezeRetire :=
  C.freeze hP

theorem Touches.dropStaged {page : Nat} : P (s.dropStaged page) :=
  C.other hP

theorem Touches.discardCommits : P s.discardCommits :=
  pres_foldl hP (fun _ _ h1 => C.notice (C.wr (C.dropStaged h1)))

theorem Touches.flashAbandon (hflash : W .flash) : P s.flashAbandon :=
  C.wr (C.wr (C.setFlash hP hflash))

theorem Touches.holdOffPages : P s.holdOffPages :=
  C.other (pres_foldl hP (fun _ _ h1 => pres_cond h1 (fun _ h2 => C.wr h2)))

theorem Touches.logReport {r : Report} : P (s.logReport r) :=
  C.appendTlog hP

theorem Touches.reportAll : P s.reportAll :=
  pres_foldl (C.other hP) (fun _ _ h1 => C.logReport h1)

/-! ### Machine/KilnOps.lean -/

theorem Touches.closePhase : P s.closePhase := by
  unfold State.closePhase
  dsimp only
  split
  · exact pres_cond (C.wr (C.wr hP)) (fun _ h1 => C.detect h1)
  · exact C.wr (C.wr hP)

theorem Touches.enterPhase {k : Nat} : P (s.enterPhase k) :=
  C.tlog (pres_cond (C.other (C.wr (pres_cond hP (fun _ h1 => C.closePhase h1)))) (fun _ h1 => C.wr h1))

theorem Touches.cdlMark {n : Nat} : P (s.cdlMark n) := by
  unfold State.cdlMark
  split
  · exact pres_cond hP (fun _ h1 => C.other h1)
  · exact C.detect (C.other hP)
  · exact C.detect hP

theorem Touches.armKiln {n target : Nat} : P (s.armKiln n target) :=
  pres_cond (C.armCdl hP) (fun _ h1 => C.cdlMark h1)

theorem Touches.groupMessage {trig : Nat} {group : Bool} : P (s.groupMessage trig group) :=
  pres_cond hP (fun _ h1 => C.floodKiln h1)

theorem Touches.enterK0 {trig mask : Nat} {p3 group : Bool} : P (s.enterK0 trig mask p3 group) :=
  C.groupMessage (C.enterPhase (C.dropTest (C.dropTest (C.restExit (C.updateK0 (C.dropMargins (C.abandonCal (C.wr (pres_each
    (C.armKiln (C.armKiln (C.wr (C.wr (C.wr (C.wr (C.wr (C.wr (C.other hP)))))))))
    (fun _ _ h1 => C.wr h1))))))))))

theorem Touches.enterK3 : P s.enterK3 :=
  pres_each
    (C.discardCommits (pres_cond
      (C.freezeRetire
        (C.freezeRacking (C.freezeSteep (C.freezeQueues (C.other (C.scrubStop (C.wr (C.enterPhase hP))))))))
      (fun _ h1 => C.wr h1)))
    (fun _ _ h1 => C.wr (C.wr (C.wr (C.wr (C.wr (C.wr (C.setHost h1)))))))

theorem Touches.k2Check : P s.k2Check :=
  pres_ite (C.enterK3 hP) hP

theorem Touches.openK2 : P s.openK2 :=
  pres_ite (C.k2Check (C.other (C.enterPhase hP))) hP

theorem Touches.k2PortDone {p : Nat} : P (s.k2PortDone p) :=
  C.k2Check (C.other hP)

theorem Touches.pathOn : P s.pathOn :=
  C.packPathOn (C.other hP)

theorem Touches.startKiln {trig mask : Nat} {p3 group : Bool} : P (s.startKiln trig mask p3 group) :=
  pres_ite (C.openK2 (C.enterPhase (C.enterK0 hP))) (C.pathOn (C.enterPhase (C.enterK0 hP)))

theorem Touches.joinTrigger {trig : Nat} {group : Bool} : P (s.joinTrigger trig group) :=
  pres_cond (pres_cond (C.wr (C.wr (C.other hP))) (fun _ h1 => C.groupMessage h1)) (fun _ h1 => C.pathOn h1)

theorem Touches.fireTrigger {trig : Nat} {p3 group : Bool} : P (s.fireTrigger trig p3 group) :=
  pres_ite (C.startKiln hP) (pres_ite (C.joinTrigger hP) (pres_cond hP (fun _ h1 => C.inc h1)))

theorem Touches.snapshotDone (hdirty : W .dirty) (hflash : W .flash) : P s.snapshotDone :=
  C.seqRequest (C.hrOff (C.enterPhase (C.holdOffPages
    (C.flashAbandon (pres_cond (C.wr (C.other (C.showInflight (C.setDirty hP hdirty)))) (fun _ h1 => C.wr h1)) hflash))))

theorem Touches.shedRanks (hdram : W .dram) : P s.shedRanks :=
  C.seqShedLook (pres_each hP (fun _ _ h1 => pres_cond h1 (fun _ h2 => C.wr (C.setDram h2 hdram))))

theorem Touches.settleShed (hdram : W .dram) : P s.settleShed :=
  pres_ite hP (C.seqShedLook (C.setDram hP hdram))

theorem Touches.sampleDrain : P s.sampleDrain :=
  C.other hP

theorem Touches.project : P s.project :=
  pres_cond hP (fun _ h1 => C.wr h1)

theorem Touches.shedDone (hdram : W .dram) : P s.shedDone :=
  C.project (C.armKiln (pres_cond
    (C.other (C.disarmCdl (C.enterPhase (C.shedRanks (C.settleShed hP hdram) hdram))))
    (fun _ h1 => C.cdlMark h1)))

theorem Touches.kilnLose {g : Nat} : P (s.kilnLose g) :=
  pres_ite hP (C.detect (C.wr (C.other hP)))

theorem Touches.loseRanks {en : Nat} : P (s.loseRanks en) :=
  pres_ite (pres_ite hP (pres_foldl hP (fun _ _ h1 => C.kilnLose h1))) hP

theorem Touches.drainEnd {reason : Nat} (hdram : W .dram) : P (s.drainEnd reason) :=
  C.other (C.reportAll (C.armKiln (C.other (C.disarmCdl (C.enterPhase (C.settleShed (C.shedRanks (C.settleShed (pres_cond
    (C.other (pres_cond (C.other hP) (fun _ h1 => C.detect h1)))
    (fun _ h1 => C.detect h1)) hdram) hdram) hdram))))))

theorem Touches.putCask {c : Cask} (hcellar : W .cellar) : P (s.putCask c) :=
  pres_ite (C.setCellar hP hcellar) (C.setCellar hP hcellar)

theorem Touches.shedAll (hdram : W .dram) : P s.shedAll :=
  pres_each hP (fun _ _ h1 => pres_cond h1 (fun _ h2 => C.wr (C.setDram h2 hdram)))

theorem Touches.enterK7 (hdram : W .dram) : P s.enterK7 :=
  C.settleShed (C.seqRequest (C.shedAll (C.enterPhase hP) hdram)) hdram

theorem Touches.seal {hdrA hdrB rewritten secLost : Bool} (hdram : W .dram) (hcellar : W .cellar) (hbudget : W .budget) :
    P (s.seal hdrA hdrB rewritten secLost) := by
  unfold State.seal
  exact pres_ite
    (C.enterK7 (C.other (pres_cond
      (C.inc (pres_cond
        (C.setBudget (C.setCellar
          (C.setCellar (C.putCask (pres_cond hP (fun _ h1 => C.detect h1)) hcellar) hcellar) hcellar) hbudget)
        (fun _ h1 => C.detect h1)))
      (fun _ h1 => C.inc h1))) hdram)
    (C.enterK7 (C.other (pres_cond hP (fun _ h1 => C.detect h1))) hdram)

theorem Touches.prime : P s.prime :=
  pres_ite (C.wr (C.other hP)) hP

theorem Touches.unprime : P s.unprime :=
  C.wr (C.other hP)

theorem Touches.calBegin : P s.calBegin :=
  C.wr (C.wr (C.wr (C.other (pres_cond hP (fun _ h1 => C.wr h1)))))

theorem Touches.toReady : P s.toReady :=
  pres_ite (pres_cond (pres_cond (C.unprime hP) (fun _ h1 => C.calBegin h1)) (fun _ h1 => C.prime h1)) hP

theorem Touches.cancelKiln : P s.cancelKiln :=
  C.detect (C.wr (C.wr (pres_each
    (C.toReady (C.wr
      (C.wr (C.inc (C.disarmCdl (C.disarmCdl (C.disarmCdl (C.disarmCdl (C.setPack (C.setPack hP))))))))))
    (fun _ _ h1 => pres_cond h1 (fun _ h2 => C.bgEnd (C.wr (C.setHost h2)))))))

/-! ### Machine/FaultOps.lean -/

theorem Touches.showSafe : P s.showSafe :=
  C.wr (C.wr (C.wr (C.wr (C.wr (C.wr (pres_each hP (fun _ _ h1 => C.wr (C.wr h1))))))))

theorem Touches.holdReasons : P s.holdReasons :=
  pres_ite hP (C.pstUpdate hP (fun _ h1 => C.wr (C.wr (C.wr h1))))

theorem Touches.driveErrn : P s.driveErrn :=
  pres_ite hP (C.other (C.wr hP))

theorem Touches.enterHist {e : HistEntry} : P (s.enterHist e) :=
  pres_ite hP (pres_ite (C.inc hP) (C.other hP))

theorem Touches.injSeen {src inst : Nat} : P (s.injSeen src inst) :=
  C.appendTlog (C.enterHist (C.setBit (C.setBit (C.other hP))))

theorem Touches.dispatch {src sev : Nat} : P (s.dispatch src sev) :=
  pres_ite hP (pres_ite (C.other hP) (pres_ite (C.other hP) (pres_ite (pres_ite
    (C.inc (C.other hP))
    (pres_ite (C.inc (C.other hP)) (C.detect (C.other (C.inc (C.other hP)))))) (C.other hP))))

theorem Touches.kilnAction {src : Nat} : P (s.kilnAction src) :=
  pres_ite (C.inc hP) (pres_ite (C.fireTrigger (C.wr (C.inc hP))) (pres_cond (C.inc hP) (fun _ h1 => C.detect h1)))

theorem Touches.repeatedFail {src : Nat} : P (s.repeatedFail src) :=
  pres_ite (pres_cond (C.other hP) (fun _ h1 => C.setCond h1)) hP

theorem Touches.latch {src inst : Nat} : P (s.latch src inst) :=
  pres_ite (C.dispatch (pres_cond
    (C.repeatedFail (pres_cond
      (pres_cond (C.other (C.enterHist (C.inc (C.setBit hP)))) (fun _ h1 => C.restExit (C.wr (C.wr h1))))
      (fun _ h1 => C.other h1)))
    (fun _ h1 => C.kilnAction h1))) hP

theorem Touches.closeWindow : P s.closeWindow :=
  pres_foldl (C.other hP) (fun _ _ h1 => C.latch h1)

theorem Touches.releaseEnded : P s.releaseEnded :=
  C.other hP

theorem Touches.faultState : P s.faultState :=
  pres_ite (C.wr (C.wr hP)) (pres_ite (C.wr (C.wr hP)) hP)

theorem Touches.runPending : P s.runPending := by
  unfold State.runPending
  split
  · exact hP
  · exact pres_ite (pres_cond (C.other hP) (fun _ h1 => C.inc h1)) hP

theorem Touches.settle {n : Nat} : P (s.settle n) := by
  induction n generalizing s with
  | zero => exact hP
  | succ n ih =>
    unfold State.settle
    have hshown : P s.releaseEnded.faultState.holdReasons.runPending.showSafe :=
      C.showSafe (C.runPending (C.holdReasons (C.faultState (C.releaseEnded hP))))
    exact pres_ite (ih (C.fallback hP)) (pres_ite (pres_ite (C.driveErrn hshown) (ih hshown)) (ih (C.closeWindow hP)))

theorem Touches.finish : P (finish s) :=
  C.settle hP

/-! ### Machine/PackOps.lean -/

theorem Touches.post {slot : Nat} {e : SchedSlot} (htrack : W .track) : P (s.post slot e) :=
  C.setTrack hP htrack

theorem Touches.showSteps : P s.showSteps :=
  pres_each hP (fun _ _ h1 => C.wr h1)

theorem Touches.gaugeShow : P s.gaugeShow :=
  pres_ite
    (pres_cond (C.wr (C.wr (C.wr (pres_each hP (fun _ _ h1 => C.wr (C.wr (C.wr h1))))))) (fun _ h1 => C.detect h1)) hP

theorem Touches.packJudge {p : Nat} : P (s.packJudge p) :=
  pres_ite (C.gaugeShow (pres_cond (C.wr (C.setBit hP)) (fun _ h1 => C.setCond h1))) (C.gaugeShow hP)

theorem Touches.uncount {p b : Nat} {on : Bool} : P (s.uncount p b on) :=
  C.packJudge (C.setBit hP)

theorem Touches.chargeCheck {p : Nat} (htrack : W .track) : P (s.chargeCheck p) :=
  pres_ite hP (C.post hP htrack)

theorem Touches.showDisagree : P s.showDisagree :=
  C.wr hP

theorem Touches.chargeOff {p : Nat} : P (s.chargeOff p) :=
  C.wr hP

theorem Touches.chargeStop {p : Nat} (htrack : W .track) : P (s.chargeStop p) :=
  pres_ite hP (pres_ite (C.chargeOff hP) (C.post (C.setPack hP) htrack))

theorem Touches.sendChallenge {p : Nat} : P (s.sendChallenge p) :=
  C.send (C.wr (C.setPack (C.takeFree (C.takeFree hP))))

theorem Touches.startAuth {p : Nat} {daily : Bool} : P (s.startAuth p daily) :=
  pres_ite (C.setPack hP) (C.sendChallenge (C.setPack hP))

theorem Touches.authDue : P s.authDue :=
  pres_foldl hP (fun _ _ h1 => pres_cond h1 (fun _ h2 => C.startAuth h2))

theorem Touches.endRest : P s.endRest :=
  C.authDue (C.wr hP)

theorem Touches.ramp {p before : Nat} : P (s.ramp p before) :=
  pres_ite (C.setPack hP) (C.setPack hP)

theorem Touches.ageGauge {p : Nat} : P (s.ageGauge p) :=
  pres_ite (C.ramp (C.setPack (C.wr (C.wr hP)))) hP

theorem Touches.replacePack {p : Nat} : P (s.replacePack p) :=
  pres_ite hP (C.healthNote (C.detect (C.wr hP)))

theorem Touches.packHours : P s.packHours :=
  C.wr (pres_foldl hP (fun _ _ h1 => pres_cond h1 (fun _ h2 => C.replacePack h2)))

theorem Touches.storeLearnt {p : Nat} : P (s.storeLearnt p) :=
  C.other hP

theorem Touches.estCease (htrack : W .track) : P s.estCease :=
  pres_cond hP (fun _ h1 => C.setTrack h1 htrack)

theorem Touches.removePack {p : Nat} (htrack : W .track) : P (s.removePack p) := by
  unfold State.removePack
  exact pres_cond
    (pres_cond
      (pres_cond
        (C.wr (C.wr (C.wr (C.chargeStop (C.wr (C.wr (C.wr (C.wr (C.estCease (C.showDisagree
          (C.setPack (C.dropTest (pres_cond hP (fun _ h1 => C.storeLearnt h1))))) htrack))))) htrack))))
        (fun _ h1 => C.setCond h1))
      (fun _ h1 => C.setCond h1))
    (fun _ h1 => C.setCond h1)

/-! ### Machine/PowerOps.lean -/

theorem Touches.openPaths : P s.openPaths :=
  C.setPack (C.setPack hP)

theorem Touches.coreOff : P s.coreOff :=
  C.other hP

theorem Touches.enterP4 : P s.enterP4 :=
  C.seqRequest (C.announce (C.hrOff (C.wr (C.wr (C.other (C.coreOff (C.openPaths hP)))))))

theorem Touches.goDown : P s.goDown := by
  unfold State.goDown
  split
  · exact hP
  · exact hP
  · exact hP
  · exact C.seqRequest (C.other hP)
  · exact C.seqRequest (C.other hP)
  · exact pres_ite (C.other hP) (C.enterP4 (C.other hP))
  · exact C.seqRequest (C.other hP)

theorem Touches.failStart {step cause : Nat} : P (s.failStart step cause) :=
  C.seqRequest (C.detect (pres_cond
    (C.other (pres_ite (C.inc (C.inc (C.wr (C.wr hP)))) (C.inc (C.inc (C.wr (C.wr hP))))))
    (fun _ h1 => C.detect (C.wr h1))))

theorem Touches.showChain : P s.showChain :=
  C.wr (C.wr hP)

theorem Touches.showRest : P s.showRest :=
  C.wr (C.wr (C.wr hP))

theorem Touches.restCease : P s.restCease :=
  pres_cond hP (fun _ h1 => C.restExit h1)

theorem Touches.restEnter {n : Nat} : P (s.restEnter n) :=
  pres_ite
    (C.inc (C.announce (C.wr hP)))
    (C.seqRequest (C.inc
      (pres_each (C.announce (C.wr hP)) (fun _ _ h1 => pres_each h1 (fun _ _ h2 => pres_cond h2 (fun _ h3 => C.wr h3))))))

theorem Touches.ranksActive : P s.ranksActive :=
  pres_each hP (fun _ _ h1 => pres_each h1 (fun _ _ h2 => pres_cond h2 (fun _ h3 => C.wr h3)))

/-! ### Machine/Phase.lean -/

theorem Touches.regrid {force : Bool} (htrack : W .track) : P (s.regrid force) :=
  pres_ite (C.showSteps (C.setTrack hP htrack)) hP

theorem Touches.amendTlog {code data : Nat} : P (s.amendTlog code data) := by
  unfold State.amendTlog
  split
  · exact hP
  · exact C.other hP

theorem Touches.raiseEw {cause at0 : Nat} (htrack : W .track) : P (s.raiseEw cause at0) :=
  pres_ite
    (pres_cond (C.setTrack hP htrack) (fun _ h1 => C.amendTlog h1))
    (pres_cond
      (pres_cond
        (C.restExit (C.prime
          (C.enterBoost (C.vendor (C.tlog (C.detect (C.wr (C.setTrack (C.setTrack hP htrack) htrack))))))))
        (fun _ h1 => C.endRest h1))
      (fun _ h1 => C.k2Check (C.wr (C.other h1))))

theorem Touches.startDebounce : P s.startDebounce :=
  pres_cond (C.other hP) (fun _ h1 => C.wr (C.other h1))

theorem Touches.withdrawEw (htrack : W .track) : P s.withdrawEw :=
  pres_ite hP (pres_cond (C.leaveBoost (C.vendor (C.wr (C.setTrack hP htrack)))) (fun _ h1 => C.startDebounce h1))

theorem Touches.setSource {pseudo : Bool} (htrack : W .track) : P (s.setSource pseudo) :=
  C.regrid (C.wr (C.wr (C.wr hP))) htrack

theorem Touches.loseLock (htrack : W .track) : P s.loseLock :=
  pres_ite (C.detect (C.wr (C.setTrack hP htrack))) hP

theorem Touches.puStep : P s.puStep :=
  pres_ite (C.handTick (C.lsaTick (C.wr hP))) hP

theorem Touches.acOkLow (htrack : W .track) : P s.acOkLow :=
  pres_cond (C.wr (C.setTrack hP htrack)) (fun _ h1 => C.raiseEw h1 htrack)

theorem Touches.acOkHigh (htrack : W .track) : P s.acOkHigh :=
  pres_cond (C.wr hP) (fun _ h1 => C.withdrawEw h1 htrack)

theorem Touches.gaugeBad {p : Nat} (htrack : W .track) : P (s.gaugeBad p) :=
  pres_ite hP
    (C.gaugeShow (pres_cond (C.detect (C.wr (C.wr (C.setTrack (C.setPack hP) htrack)))) (fun _ h1 => C.detect h1)))

theorem Touches.gaugeGood {p : Nat} (htrack : W .track) : P (s.gaugeGood p) :=
  pres_ite hP (C.estCease (C.gaugeShow (C.setPack hP)) htrack)

theorem Touches.lowSecond (hcellar : W .cellar) : P s.lowSecond :=
  pres_cond (C.setCellar hP hcellar) (fun _ h1 => C.detect h1)

theorem Touches.second (hcellar : W .cellar) : P s.second := by
  unfold State.second
  extract_lets s1 s2 _ s3 _ s4 _ _ _ s5 _ _ s6 s7 s8 s9 s10 s11 s12 s13 s14
  have hhours : P s2 :=
    pres_cond (C.bump (pres_cond hP (fun _ h1 => C.inc h1))) (fun _ h1 => C.packHours (C.guestHours h1))
  have hlog : P s4 := pres_foldl (C.wr hhours) (fun _ _ h1 => C.pushTlog h1)
  have hmeans : P s6 := C.wr (C.other (C.other hlog))
  have hrest : P s9 := pres_cond (pres_cond (pres_cond hmeans (fun _ h1 => C.inc h1)) (fun _ h1 => C.inc h1))
    (fun _ h1 => C.inc h1)
  have hages : P s11 := pres_cond (pres_cond hrest (fun _ h1 => C.inc h1)) (fun _ h1 => C.inc h1)
  have hwaits : P s14 := pres_cond (pres_cond (pres_cond hages (fun _ h1 => C.wr h1)) (fun _ h1 => C.wr h1))
    (fun _ h1 => C.wr h1)
  exact C.lowSecond (C.handTick (C.lsaTick (pres_cond hwaits (fun _ h1 => C.wr h1)))) hcellar

/-! ### Machine/RecOps.lean -/

theorem Touches.showRec : P s.showRec := by
  unfold State.showRec
  dsimp only
  split
  · exact C.wr (C.wr (C.wr (C.wr (C.wr (C.wr (C.wr (C.wr (C.wr hP))))))))
  · exact C.wr (C.wr (C.wr (C.wr (C.wr (C.wr (C.wr (C.wr (C.wr hP))))))))

theorem Touches.occurKind {row : CodeRow} {ext : Bool} {v : Option ℤ} : P (s.occurKind row ext v) :=
  pres_ite
    (pres_cond (C.inc hP) (fun _ h1 => C.detect (C.other h1)))
    (pres_cond (pres_cond (C.other hP) (fun _ h1 => C.detect h1)) (fun _ h1 => C.detect h1))

theorem Touches.occur {code : Nat} {v : Option ℤ} : P (s.occur code v) := by
  unfold State.occur
  split
  · exact hP
  · exact C.showRec (pres_cond (pres_cond hP (fun _ h1 => C.occurKind h1)) (fun _ h1 => C.occurKind h1))

theorem Touches.flushStart : P s.flushStart :=
  pres_ite hP (C.wr (C.other hP))

theorem Touches.recClear : P s.recClear :=
  C.flushStart (C.detect (C.notice (C.showRec (C.wr (C.wr (C.other hP))))))

theorem Touches.flushEnd {ok : Bool} (hcellar : W .cellar) : P (s.flushEnd ok) :=
  pres_ite hP (C.showRec (pres_cond
    (pres_ite
      (pres_cond (C.inc (C.wr (C.wr (C.wr (C.wr (C.other hP)))))) (fun _ h1 => C.setCellar h1 hcellar))
      (C.detect (C.wr (C.wr (C.other hP)))))
    (fun _ h1 => C.recClear h1)))

/-! ### Machine/Monitor.lean -/

theorem Touches.storeReadings {f : Frame} : P (s.storeReadings f) :=
  pres_cond
    (C.wr
      (C.wr (pres_each hP (fun _ _ h1 => pres_ite (C.wr (C.wr h1)) (C.wr (C.wr (C.wr (C.wr (C.wr h1)))))))))
    (fun _ h1 => C.detect h1)

theorem Touches.storeSupplies {f : Frame} : P (s.storeSupplies f) :=
  pres_cond
    (pres_cond
      (pres_cond
        (pres_cond (C.wr (C.other (C.wr (C.wr (C.wr hP))))) (fun _ h1 => C.healthNote h1))
        (fun _ h1 => C.wr h1))
      (fun _ h1 => C.detect h1))
    (fun _ h1 => C.detect h1)

theorem Touches.railRuns {i mv : Nat} : P (s.railRuns i mv) :=
  C.other hP

theorem Touches.railFail {i : Nat} {ov : Bool} : P (s.railFail i ov) := by
  unfold State.railFail
  exact pres_cond
    (pres_cond
      (C.loseRanks (pres_cond
        (C.detect (C.wr (C.wr (C.inc (C.wr hP)))))
        (fun _ h1 => pres_cond (C.setCond h1) (fun _ h2 => C.detect h2))))
      (fun _ h1 => C.showMargins (C.dropMargin h1)))
    (fun _ h1 => C.clrEnables h1)

theorem Touches.railWarns {i : Nat} {ov : Bool} : P (s.railWarns i ov) :=
  pres_ite hP (C.detect (C.wr (C.wr (C.inc (C.wr hP)))))

theorem Touches.railSample {i : Nat} : P (s.railSample i) := by
  unfold State.railSample
  extract_lets mv s1
  have hruns : P s1 := C.railRuns (C.wr hP)
  have hmv {v : Nat} : P (s1.wr (R.SEQ_RAIL_MV_STATE i) v) := C.wr hruns
  exact pres_ite hmv (pres_ite hmv (pres_ite
    (pres_ite hmv hruns)
    (pres_ite
      (pres_ite hmv hruns)
      (pres_ite
        (pres_ite hmv hruns)
        (pres_ite hmv (pres_ite
          (C.railFail hruns)
          (pres_ite
            (C.railFail hruns)
            (pres_ite (C.railWarns hruns) (pres_ite (C.railWarns hruns) (pres_ite hmv hruns))))))))))

theorem Touches.sampleRails : P s.sampleRails :=
  pres_cond (pres_each hP (fun _ _ h1 => pres_cond h1 (fun _ h2 => C.railSample h2))) (fun _ h1 => C.setCond h1)

theorem Touches.chargeFrame {f : Frame} (htrack : W .track) : P (s.chargeFrame f) := by
  unfold State.chargeFrame
  extract_lets s1 est frac _ s2 uc d r s3 sum n _ s4
  have hest : P s2 := C.setTrack (pres_cond hP (fun _ h1 => C.wr (C.setTrack h1 htrack))) htrack
  have hdrawn : P s4 := C.setTrack (C.wr (C.wr hest)) htrack
  exact pres_ite (C.setTrack hdrawn htrack) (C.wr (C.wr (C.setTrack hdrawn htrack)))

theorem Touches.packTemp {p : Nat} {f : Frame} : P (s.packTemp p f) := by
  unfold State.packTemp
  refine pres_ite (C.wr (C.wr hP)) ?_
  split
  · exact pres_cond (C.wr (C.wr (C.wr hP))) (fun _ h1 => C.detect h1)
  · dsimp only
    split
    · exact pres_cond (C.wr (C.wr (C.wr hP))) (fun _ h1 => C.uncount h1)
    · exact pres_cond (C.wr (C.wr hP)) (fun _ h1 => C.uncount (C.detect h1))

theorem Touches.packCharge {p : Nat} {uc : ℤ} : P (s.packCharge p uc) :=
  C.wr (C.wr (C.setPack hP))

theorem Touches.packInterval {p : Nat} {iv : Option (Nat × Nat)} {returning : Bool} : P (s.packInterval p iv returning) := by
  unfold State.packInterval
  split
  · exact hP
  · exact pres_ite hP (pres_cond (C.wr (C.setPack hP)) (fun _ h1 => C.wr (C.wr h1)))

theorem Touches.packRi {p : Nat} {ri : Option Nat} : P (s.packRi p ri) := by
  unfold State.packRi
  split
  · exact hP
  · exact C.wr (C.setPack hP)

theorem Touches.packRamp {p : Nat} : P (s.packRamp p) :=
  pres_ite hP (C.setPack hP)

theorem Touches.packFrame {p : Nat} {f : Frame} (htrack : W .track) : P (s.packFrame p f) :=
  C.chargeCheck (C.packRamp (C.packRi (pres_cond
    (C.packInterval (C.packCharge (C.packTemp (C.wr (C.wr (C.wr (pres_each hP (fun _ _ h1 => C.wr h1))))))))
    (fun _ h1 => C.wr h1)))) htrack

theorem Touches.frameEdge : P s.frameEdge :=
  C.other (pres_foldl
    (C.other (pres_foldl (pres_foldl hP (fun _ _ h1 => C.wr (C.wr h1))) (fun _ _ h1 => C.wr h1)))
    (fun _ _ h1 => C.wr (C.wr h1)))

theorem Touches.housekeeping {f : Frame} : P (s.housekeeping f) :=
  pres_ite
    (pres_cond (C.wr (C.other (pres_cond (C.other hP) (fun _ h1 => C.detect h1)))) (fun _ h1 => C.detect h1))
    (pres_cond (C.other hP) (fun _ h1 => C.detect h1))

theorem Touches.frame {f : Frame} (htrack : W .track) : P (s.frame f) :=
  pres_foldl
    (C.gaugeShow (pres_cond
      (pres_foldl
        (C.housekeeping
          (C.chargeFrame (C.sampleRails (C.storeSupplies (C.storeReadings (C.frameEdge hP)))) htrack))
        (fun _ _ h1 => pres_cond h1 (fun _ h2 => C.packFrame h2 htrack)))
      (fun _ h1 => C.wr h1)))
    (fun _ _ h1 => C.occur h1)

/-! ### Machine/Dram.lean -/

theorem Touches.dramEvent {g n kind device : Nat} : P (s.dramEvent g n kind device) :=
  C.event hP

theorem Touches.showPool : P s.showPool :=
  pres_cond (pres_cond (C.wr (C.wr hP)) (fun _ h1 => C.setCond h1)) (fun _ h1 => C.setCond h1)

theorem Touches.retireStart {g : Nat} (hdram : W .dram) : P (s.retireStart g) :=
  pres_ite hP (pres_ite (C.setCond hP) (C.setDram hP hdram))

theorem Touches.degrade {g : Nat} (hdram : W .dram) : P (s.degrade g) :=
  pres_ite hP (C.setCond (C.wr (C.setDram hP hdram)))

theorem Touches.spareStart {g l device : Nat} (hdram : W .dram) : P (s.spareStart g l device) := by
  unfold State.spareStart
  dsimp only
  split
  · exact pres_ite hP (C.dramEvent (C.detect (C.wr (C.wr (C.wr (C.wr (C.wr (C.wr (C.setDram hP hdram)))))))))
  · exact pres_ite hP (C.degrade hP hdram)

theorem Touches.corrected {g l device : Nat} (hdram : W .dram) : P (s.corrected g l device) :=
  pres_cond
    (pres_cond
      (pres_cond
        (C.healthNote (C.inc (C.setDram hP hdram)))
        (fun _ h1 => pres_foldl
          (C.dramEvent (C.detect (C.wr (C.setDram h1 hdram))))
          (fun _ _ h2 => C.retireStart h2 hdram)))
      (fun _ h1 => C.dramEvent h1))
    (fun _ h1 => C.spareStart h1 hdram)

theorem Touches.recordUe {g l device : Nat} (hdram : W .dram) : P (s.recordUe g l device) :=
  pres_cond (C.wr (C.wr (C.wr (C.wr (C.wr (C.inc hP)))))) (fun _ h1 => C.degrade h1 hdram)

theorem Touches.refill {g : Nat} {held : List (Nat × Nat × Nat)} {demand : Bool} (hdram : W .dram) :
    P (s.refill g held demand) := by
  unfold State.refill
  extract_lets c r _ s1 s2 _ s3
  have hcounted : P s2 := C.detect (C.inc (C.showSteep (C.other hP)))
  have hasked : P s3 := pres_ite (C.raiseFill hcounted) (pres_ite hcounted (C.other hcounted))
  exact pres_ite hasked (C.setDram hasked hdram)

theorem Touches.retireRefilled {g : Nat} (hdram : W .dram) : P (s.retireRefilled g) :=
  pres_ite (C.retireStart (C.setDram hP hdram) hdram) hP

theorem Touches.poisonUe {g l : Nat} (hdram : W .dram) : P (s.poisonUe g l) :=
  C.retireStart (C.setPoison (pres_cond hP (fun _ h1 => C.detect h1)) hdram) hdram

theorem Touches.mediaEvent {g : Nat} : P (s.mediaEvent g) :=
  C.event hP

theorem Touches.patrolLine {e : Nat × Ecc} (hdram : W .dram) : P (s.patrolLine e) := by
  unfold State.patrolLine
  refine pres_ite hP ?_
  split
  · exact hP
  · exact C.corrected hP hdram
  · exact pres_ite (C.refill (C.recordUe hP hdram) hdram) (C.poisonUe (C.recordUe hP hdram) hdram)

theorem Touches.patrolLate {c : Nat} : P (s.patrolLate c) :=
  pres_ite hP (C.detect hP)

theorem Touches.spareEnd : P s.spareEnd :=
  C.event (C.wr hP)

theorem Touches.spareLine {e : Nat × Ecc} (hdram : W .dram) : P (s.spareLine e) := by
  unfold State.spareLine
  refine pres_ite (C.patrolLine hP hdram) (pres_ite hP ?_)
  split
  · exact hP
  · exact C.corrected hP hdram
  · exact C.poisonUe (C.recordUe hP hdram) hdram

theorem Touches.spareStep {found : List (Nat × Ecc)} (hdram : W .dram) : P (s.spareStep found) :=
  pres_ite hP
    (pres_cond (C.wr (C.setDram (pres_foldl hP (fun _ _ h1 => C.spareLine h1 hdram)) hdram)) (fun _ h1 => C.spareEnd h1))

theorem Touches.shedLate {c r : Nat} (hdram : W .dram) : P (s.shedLate c r) :=
  pres_ite (C.detect (C.wr (C.setDram hP hdram))) hP

/-! ### Machine/Host.lean -/

theorem Touches.devLoad {p pct : Nat} : P (s.devLoad p pct) :=
  C.wr hP

theorem Touches.holdWrite {w : HeldWrite} {full : Bool} : P (s.holdWrite w full) :=
  C.raiseFill (pres_cond (C.inc (C.other hP)) (fun _ h1 => C.detect h1))

theorem Touches.writePart {g l : Nat} {bytes : List (Nat × Byte)} {ecc : Ecc} (hdram : W .dram) (hdirty : W .dirty) :
    P (s.writePart g l bytes ecc) := by
  unfold State.writePart
  dsimp only
  split
  · exact C.mergeBytes (C.wrote hP hdirty) hdram
  · exact pres_ite (C.mergeBytes (C.wrote hP hdirty) hdram) (C.corrected (C.mergeBytes (C.wrote hP hdirty) hdram) hdram)
  · exact pres_ite
      (C.mergeBytes (C.wrote hP hdirty) hdram)
      (C.poisonUe (C.recordUe (C.mergeBytes (C.wrote hP hdirty) hdram) hdram) hdram)

theorem Touches.hostWrite {p tag g l : Nat} {bytes : List (Nat × Byte)} {poison setFull : Bool} {ecc : Ecc}
    (hdram : W .dram) (hdirty : W .dirty) :
    P (s.hostWrite p tag g l bytes poison setFull ecc) :=
  pres_ite
    (C.holdWrite (C.touch hP hdirty))
    (C.respond (pres_ite (C.writeLine (C.touch hP hdirty) hdram hdirty) (C.writePart (C.touch hP hdirty) hdram hdirty)))

theorem Touches.access {w : HeldWrite} {go : State → State} (hdram : W .dram) (hgo : ∀ t, P t → P (go t)) :
    P (s.access w go) :=
  pres_ite (C.setDram hP hdram) (hgo _ hP)

theorem Touches.hostRead {p tag g l : Nat} {ecc : Ecc} (hdram : W .dram) : P (s.hostRead p tag g l ecc) := by
  unfold State.hostRead
  refine pres_ite (C.raiseFill (C.other hP)) (pres_ite (C.raiseFill hP) (pres_ite (C.respond hP) ?_))
  split
  · exact C.answerRead hP
  · exact C.answerRead (C.corrected hP hdram)
  · exact pres_ite (C.refill (C.recordUe hP hdram) hdram) (C.mediaEvent (C.respond (C.poisonUe (C.recordUe hP hdram) hdram)))

theorem Touches.retireLine {e : Nat × Ecc} (hdram : W .dram) : P (s.retireLine e) := by
  unfold State.retireLine
  refine pres_ite hP ?_
  split
  · exact hP
  · exact C.corrected hP hdram
  · exact C.setPoison (pres_cond (C.recordUe hP hdram) (fun _ h1 => C.detect h1)) hdram

theorem Touches.retireDone {g : Nat} {found : List (Nat × Ecc)} (hdram : W .dram) : P (s.retireDone g found) := by
  unfold State.retireDone
  refine pres_ite ?_ hP
  dsimp only
  split
  · exact C.showPool (C.setDram (pres_foldl hP (fun _ _ h1 => C.retireLine h1 hdram)) hdram)
  · exact C.showPool (pres_cond
      (C.setDram (pres_cond
        (C.dramEvent (C.setDram (pres_foldl hP (fun _ _ h1 => C.retireLine h1 hdram)) hdram))
        (fun _ h1 => C.rankSub h1)) hdram)
      (fun _ h1 => C.rankAdd h1))

theorem Touches.runWaiting {g : Nat} (hdram : W .dram) (hdirty : W .dirty) : P (s.runWaiting g) :=
  pres_foldl (C.setDram hP hdram) (fun _ _ h1 => pres_ite (C.hostRead h1 hdram) (C.hostWrite h1 hdram hdirty))

theorem Touches.dropLink {p : Nat} : P (s.dropLink p) :=
  C.healthNote (C.k2PortDone (C.dropPortQueues (C.wr (C.wr (C.wr (C.wr (C.wr hP)))))))

theorem Touches.linkDown {p : Nat} : P (s.linkDown p) :=
  pres_ite (C.dropLink (pres_cond (C.setHost hP) (fun _ h1 => C.detect h1))) hP

theorem Touches.resetPort {p : Nat} : P (s.resetPort p) :=
  C.dropLink (C.wr (C.wr (C.wr (C.wr (C.wr (C.wr (C.dropHeld (C.setHost hP))))))))

theorem Touches.portReset {p : Nat} {perst : Bool} : P (s.portReset p perst) :=
  pres_ite (C.resetPort (C.restExit (pres_cond hP (fun _ h1 => C.setHost h1)))) (pres_cond hP (fun _ h1 => C.setHost h1))

theorem Touches.decoderCommit {p n base size ways gran : Nat} : P (s.decoderCommit p n base size ways gran) :=
  pres_ite (pres_ite
    (C.setBit (C.setBit (C.setHost hP)))
    (pres_ite (C.setBit (C.setBit (C.setHost hP))) (C.detect (C.setBit (C.setBit (C.setHost hP)))))) hP

theorem Touches.gpfRequest {p : Nat} (hdram : W .dram) : P (s.gpfRequest p) :=
  C.setDram (C.setHost hP) hdram

theorem Touches.gpfDone {p : Nat} : P (s.gpfDone p) :=
  pres_ite (C.k2PortDone (C.send (C.wr (C.setHost hP)))) hP

theorem Touches.gpfLate {p : Nat} : P (s.gpfLate p) :=
  pres_ite (C.k2PortDone (C.detect (C.wr hP))) hP

theorem Touches.mboxLate {p : Nat} : P (s.mboxLate p) :=
  pres_cond hP (fun _ h1 => C.detect h1)

/-! ### Machine/Mailbox.lean -/

theorem Touches.mbox {c : Instr} {p op : Nat} {early admin : Bool} {body : State → State} (hbody : ∀ t, P t → P (body t)) :
    P (s.mbox c p op early admin body) :=
  pres_ite hP (pres_ite
    (C.hold (C.wr (C.setHost hP)))
    (pres_ite
      (C.reply (C.restExit (C.wr (C.wr hP))))
      (pres_ite (C.reply (C.restExit (C.wr (C.wr hP)))) (hbody _ (C.restExit (C.wr (C.wr hP)))))))

theorem Touches.mboxRead {c : Instr} {p op : Nat} {early : Bool} {words : State → List Nat} :
    P (s.mboxRead c p op early words) :=
  C.mbox hP (fun _ h1 => C.reply h1)

theorem Touches.clearEvents {p log : Nat} {all : Bool} {handles : List Nat} : P (s.clearEvents p log all handles) :=
  pres_ite (C.reply hP) (C.reply (pres_cond (C.wr (C.setHost hP)) (fun _ h1 => C.setBit h1)))

theorem Touches.openReply {p : Nat} : P (s.openReply p) :=
  C.reply (C.takeFree hP)

theorem Touches.hostUnpow {seconds : Nat} (hcellar : W .cellar) : P (s.hostUnpow seconds) :=
  pres_ite (C.ageGauge (C.ageGauge (C.wr (C.wr (C.setCellar (pres_cond hP (fun _ h1 => C.notice h1)) hcellar))))) hP

theorem Touches.setTime {p seconds : Nat} (hcellar : W .cellar) : P (s.setTime p seconds) :=
  C.reply (C.other (C.hostUnpow hP hcellar))

theorem Touches.setAlert {p : Nat} {limits : List Nat} : P (s.setAlert p limits) :=
  C.reply (C.setHost hP)

theorem Touches.setShutdown {p v : Nat} : P (s.setShutdown p v) :=
  C.reply (C.setHost hP)

theorem Touches.background {p : Nat} {body : State → State} (hbody : ∀ t, P t → P (body t)) : P (s.background p body) :=
  pres_ite (C.reply hP) (hbody _ (C.reply hP))

theorem Touches.relistLines {p lo hi : Nat} : P (s.relistLines p lo hi) :=
  pres_foldl hP (fun _ _ h1 => C.listAt h1)

theorem Touches.scanMedia {p base n : Nat} {found : List (Nat × Ecc)} (hdram : W .dram) : P (s.scanMedia p base n found) :=
  pres_ite (C.reply hP) (C.background hP (fun _ h1 => C.bgEnd (pres_cond
    (C.setHost
      (pres_cond (pres_foldl h1 (fun _ _ h2 => C.patrolLine h2 hdram)) (fun _ h2 => C.relistLines h2)))
    (fun _ h2 => C.wr h2))))

theorem Touches.mailWrite {p line : Nat} {bytes : List (Nat × Byte)} {poison setFull : Bool} (hdram : W .dram)
    (hdirty : W .dirty) :
    P (s.mailWrite p line bytes poison setFull) :=
  pres_ite (C.reply hP) (pres_ite (C.holdWrite hP) (C.reply (C.writeLine hP hdram hdirty)))

theorem Touches.wipeStart {p op : Nat} : P (s.wipeStart p op) :=
  pres_ite (C.reply hP) (C.background hP (fun _ h1 => C.wr (C.wr (C.setHost h1))))

theorem Touches.newKey (hcellar : W .cellar) : P s.newKey :=
  C.wr (C.wr (C.wr (C.wr (C.putWraps (C.setCellar hP hcellar) hcellar))))

theorem Touches.emptyCellar (hcellar : W .cellar) : P s.emptyCellar :=
  C.showChain (C.showMap (C.wr (C.wr (C.setCellar hP hcellar))))

theorem Touches.zeroDram (hdram : W .dram) (hdirty : W .dirty) : P s.zeroDram :=
  pres_each
    (C.setDram (C.fenceClean (C.dropCopies (C.cleanRange hP hdirty) hdirty)) hdram)
    (fun _ _ h1 => C.showPoison (C.setHost h1))

theorem Touches.wipeDone {p : Nat} (hdram : W .dram) (hdirty : W .dirty) (hcellar : W .cellar) : P (s.wipeDone p) := by
  unfold State.wipeDone
  split
  · exact hP
  · exact pres_ite (C.bgEnd (C.wr (C.wr (C.setHost (pres_ite
      (C.zeroDram (C.emptyCellar (C.newKey hP hcellar) hcellar) hdram hdirty)
      (C.wr (C.emptyCellar (C.newKey hP hcellar) hcellar))))))) hP

theorem Touches.relistCopies {p : Nat} : P (s.relistCopies p) :=
  pres_foldl hP (fun _ _ h1 => pres_ite (C.listAt h1) h1)

theorem Touches.relist {p : Nat} : P (s.relist p) :=
  C.relistCopies (C.relistLines (pres_foldl (C.showPoison (C.setHost hP)) (fun _ _ h1 => C.listAt h1)))

theorem Touches.setPartition {p aB aN bB bN : Nat} : P (s.setPartition p aB aN bB bN) :=
  pres_ite (C.reply hP) (pres_ite (C.reply hP)
    (C.reply (pres_each (pres_cond (C.wr (C.wr (C.other hP))) (fun _ h1 => C.wr (C.wr h1))) (fun _ _ h1 => C.relist h1))))

theorem Touches.plannedKiln {p : Nat} {p3 group : Bool} : P (s.plannedKiln p p3 group) :=
  pres_ite (C.reply (C.fireTrigger hP)) (C.background hP (fun _ h1 => C.fireTrigger (C.wr (C.wr (C.setHost h1)))))

theorem Touches.caskUnlock {p key : Nat} (hcellar : W .cellar) : P (s.caskUnlock p key) :=
  pres_ite (C.reply hP) (pres_ite (C.reply hP) (pres_ite
    (C.reply (pres_cond (C.wr (C.wr (C.wr (C.wr (C.putWraps hP hcellar))))) (fun _ h1 => C.wr h1)))
    (C.reply (C.detect (C.wr (C.inc hP))))))

theorem Touches.setHostKey {p cur new : Nat} {second : Bool} (hcellar : W .cellar) : P (s.setHostKey p cur new second) :=
  pres_ite (C.reply hP)
    (pres_ite (C.reply (C.wr (C.wr (C.putWraps (C.setCellar hP hcellar) hcellar)))) (C.setCellar hP hcellar))

theorem Touches.tlogParity {bad : List Nat} : P (s.tlogParity bad) :=
  pres_cond hP (fun _ h1 => C.detect (C.showTlog (C.other h1)))

theorem Touches.setWindow {p : Nat} {r : ExportReply} : P (s.setWindow p r) :=
  pres_ite (C.other hP) (C.other hP)

theorem Touches.rackExport {p target owner first n : Nat} {remote : Option ExportReply} :
    P (s.rackExport p target owner first n remote) := by
  unfold State.rackExport
  refine pres_ite (C.reply hP) (pres_ite (C.reply hP) (C.background hP (fun _ h1 => pres_ite (C.bgEnd h1) ?_)))
  split
  · exact C.bgEnd h1
  · exact C.bgEnd (C.wr (C.setWindow h1))

/-! ### Machine/PageOps.lean -/

theorem Touches.giveReg {who : Requester} {v : Nat} : P (s.giveReg who v) :=
  C.send hP

theorem Touches.under {a : Admit} {page : Nat} {f : State → State} (hf : ∀ t, P t → P (f t)) : P (s.under a page f) := by
  unfold State.under
  split
  · exact hf _ (C.restExit hP)
  · exact hP
  · exact C.reject hP

theorem Touches.command {c : Instr} {a : Admit} {page : Nat} {f : State → State} (hf : ∀ t, P t → P (f t)) :
    P (s.command c a page f) :=
  C.under hP (fun _ h1 => pres_ite (hf _ h1) (C.hold h1))

/-! ### Machine/Wither.lean -/

theorem Touches.scrubStart (hdirty : W .dirty) : P s.scrubStart :=
  pres_ite hP (pres_ite (C.setDirty hP hdirty) (C.setDirty hP hdirty))

theorem Touches.bitmapUe {r : Nat} (hdirty : W .dirty) : P (s.bitmapUe r) :=
  C.setCond (C.detect (C.setDirty (C.markRange hP hdirty) hdirty))

theorem Touches.rankTallies : P s.rankTallies :=
  C.rankBulk (pres_each hP (fun _ _ h1 => C.wr h1))

theorem Touches.scrubPass {bad : List Nat} (hdirty : W .dirty) : P (s.scrubPass bad) := by
  unfold State.scrubPass
  extract_lets s1 s2 want missing good ranks counts s3 s4 _ s5 s6
  have hread : P s2 :=
    pres_foldl (pres_foldl hP (fun _ _ h1 => pres_cond h1 (fun _ h2 => C.injSeen h2))) (fun _ _ h1 => C.bitmapUe h1 hdirty)
  have htallied : P s3 := pres_ite hread (C.rankTallies hread)
  have hpassed : P s6 := C.inc (C.wr (C.setDirty (C.addSat (C.wr htallied)) hdirty))
  exact pres_ite hP (pres_cond (pres_cond hpassed (fun _ h1 => C.setCond h1)) (fun _ h1 => C.setCond h1))

theorem Touches.volLost {copyOk : Bool} (hdirty : W .dirty) : P (s.volLost copyOk) :=
  pres_ite hP (pres_foldl (C.setDirty hP hdirty) (fun _ _ h1 => C.markRange h1 hdirty))

theorem Touches.scrubEnd {bad : List Nat} {vol : Option Bool} (hdirty : W .dirty) : P (s.scrubEnd bad vol) := by
  cases vol with
  | none => exact C.scrubPass hP hdirty
  | some _ => exact C.scrubPass (C.volLost hP hdirty) hdirty

theorem Touches.heatSweep {bad : List Nat} (hdirty : W .dirty) : P (s.heatSweep bad) :=
  pres_ite hP (pres_ite
    (C.setDirty hP hdirty)
    (pres_cond (C.inc (C.setDirty (C.setDirty hP hdirty) hdirty)) (fun _ h1 => C.detect h1)))

theorem Touches.takeEnergyTerm : P (s.takeEnergyTerm).2 :=
  pres_ite_snd (C.takeFree hP) hP

theorem Touches.dirtyReasons {d b e : Nat} : P (s.dirtyReasons d b e) :=
  C.wr (C.wr (C.wr hP))

theorem Touches.showInflow (hdirty : W .dirty) : P s.showInflow :=
  C.wr (C.setDirty hP hdirty)

theorem Touches.showTerms {be term : Nat} : P (s.showTerms be term) :=
  C.wr (C.wr (C.wr (C.wr (C.wr (C.wr (C.wr (C.wr (C.wr (C.wr hP)))))))))

theorem Touches.boundFaults {old b : Nat} : P (s.boundFaults old b) :=
  pres_cond (pres_cond (pres_cond hP (fun _ h1 => C.detect h1)) (fun _ h1 => C.detect h1)) (fun _ h1 => C.setCond h1)

theorem Touches.showBound {b : Nat} : P (s.showBound b) := by
  unfold State.showBound
  exact C.pstUpdate (C.boundFaults (C.wr hP)) (fun _ h1 => C.dirtyReasons (C.wr (C.wr h1)))

theorem Touches.publishBound {b : Nat} : P (s.publishBound b) :=
  C.showBound (C.bump hP)

theorem Touches.budget1ms (hdirty : W .dirty) : P s.budget1ms :=
  pres_ite hP (C.publishBound (C.showTerms (C.showInflow (C.takeEnergyTerm hP) hdirty)))

theorem Touches.safeBound (hbudget : W .budget) : P s.safeBound :=
  pres_ite hP (pres_cond
    (C.inc (C.setBudget (pres_cond (C.wr (C.takeEnergyTerm hP)) (fun _ h1 => C.showBound h1)) hbudget))
    (fun _ h1 => C.setCond h1))

theorem Touches.hostEnergy {v : Nat} (hbudget : W .budget) : P (s.hostEnergy v) :=
  pres_ite hP (C.wr (C.wr (C.setBudget hP hbudget)))

theorem Touches.hostEnergyOut (hbudget : W .budget) : P s.hostEnergyOut :=
  pres_ite hP (C.detect (C.setBudget hP hbudget))

theorem Touches.refillBucket (hbudget : W .budget) : P s.refillBucket :=
  C.wr (C.setBudget hP hbudget)

theorem Touches.scanOn {took : List Nat} {want : Nat} (hbudget : W .budget) : P (s.scanOn took want) := by
  unfold State.scanOn
  refine pres_ite (pres_cond (C.setBudget hP hbudget) (fun _ h1 => C.wr h1)) ?_
  split
  · exact hP
  · exact C.setBudget hP hbudget

theorem Touches.settleGrant {c : Nat} (hdirty : W .dirty) : P (s.settleGrant c) :=
  C.setDirty hP hdirty

theorem Touches.startCopy {g fence : Nat} (hdirty : W .dirty) : P (s.startCopy g fence) :=
  pres_ite hP (C.settleGrant (C.showInflight (C.setDirty hP hdirty)) hdirty)

theorem Touches.witherMove (hdirty : W .dirty) : P s.witherMove :=
  pres_ite
    (pres_ite (pres_ite (C.detect (C.wr hP)) (C.wr hP)) (pres_ite (C.wr (C.wr hP)) (C.wr hP)))
    (pres_ite
      (pres_ite
        (pres_ite (C.detect (C.wr hP)) (C.wr hP))
        (pres_ite (C.wr hP) (C.wr (C.wr (C.setDirty hP hdirty)))))
      (pres_ite (pres_ite (C.wr (C.wr hP)) (pres_ite (C.detect (C.wr hP)) (pres_ite (C.wr hP) hP))) hP))

theorem Touches.witherTick {n : Nat} {space : Bool} (hdirty : W .dirty) (hbudget : W .budget) : P (s.witherTick n space) := by
  unfold State.witherTick
  extract_lets s1 s2 s3 rate win none' _ s4 s5 s6 due _ s7
  have hmoved : P s3 := C.witherMove (pres_cond (C.wr (C.refillBucket hP hbudget)) (fun _ h1 => C.detect h1)) hdirty
  have hrates : P s6 := pres_cond (C.wr (C.wr (C.setBudget hmoved hbudget))) (fun _ h1 => C.detect h1)
  have hdue : P s7 := C.restCease (C.setBudget hrates hbudget)
  exact pres_ite hP (pres_ite hdue (C.scanOn (pres_foldl hdue (fun _ _ h1 => C.startCopy h1 hdirty)) hbudget))

theorem Touches.freeCopy {g : Nat} (hdirty : W .dirty) : P (s.freeCopy g) :=
  C.showInflight (C.setDirty hP hdirty)

theorem Touches.tornCopy {g : Nat} (hdirty : W .dirty) : P (s.tornCopy g) :=
  pres_ite
    (C.fenceGiveUp (C.detect (C.inc (C.setDirty (C.inc (C.freeCopy hP hdirty)) hdirty))))
    (C.setDirty (C.inc (C.freeCopy hP hdirty)) hdirty)

theorem Touches.copyErrors {g : Nat} {found : List (Nat × Ecc)} (hdram : W .dram) : P (s.copyErrors g found).1 := by
  refine pres_foldl_fst hP (fun a e ha => pres_ite_fst ha ?_)
  split
  · exact ha
  · exact C.corrected ha hdram
  · exact C.retireStart (pres_cond (C.recordUe ha hdram) (fun _ h1 => C.detect h1)) hdram

theorem Touches.copyRead {g addr : Nat} {found : List (Nat × Ecc)} (hdram : W .dram) (hdirty : W .dirty) :
    P (s.copyRead g addr found) := by
  unfold State.copyRead
  split
  · exact hP
  · exact pres_ite (C.tornCopy hP hdirty) (C.bump (C.setDirty (C.setDirty (C.copyErrors hP hdram) hdirty) hdirty))

theorem Touches.retireEngine {e : Nat} : P (s.retireEngine e) :=
  pres_ite hP (C.healthNote
    (C.occur (C.tlog (pres_ite (C.wr (C.other hP)) (pres_ite (C.wr (C.other hP)) (C.wr (C.wr (C.other hP))))))))

theorem Touches.copyGranted {g addr : Nat} {found : List (Nat × Ecc)} {bad : List Nat} (hdram : W .dram) (hdirty : W .dirty) :
    P (s.copyGranted g addr found bad) :=
  pres_ite (C.settleGrant (C.copyRead (pres_foldl hP (fun _ _ h1 => C.retireEngine h1)) hdram hdirty) hdirty) hP

theorem Touches.commitCopy {g : Nat} (hdirty : W .dirty) (hcellar : W .cellar) (hbudget : W .budget) :
    P (s.commitCopy g) := by
  unfold State.commitCopy
  split
  · exact hP
  next e _ =>
    extract_lets s1 s2 s3 s4 s5
    have hmapped : P s2 := C.setEntry (C.showImage (C.noteProgram (C.putCodeword hP hcellar) hcellar)) hcellar
    have hfreed : P s4 := C.countDone (C.countUsed (C.freeCopy hmapped hdirty) hcellar) hcellar
    have hbits : P s5 := pres_ite (C.inc hfreed) (C.markClean hfreed hdirty)
    exact pres_ite hP (C.fenceCommit (pres_cond (C.wr (C.inc (C.setBudget hbits hbudget))) (fun _ h1 => C.detect h1)))

theorem Touches.padStripe {a : Nat} (hcellar : W .cellar) : P (s.padStripe a) :=
  pres_ite (C.showImage (C.bump (C.countUsed (C.noteProgram (C.putCodeword hP hcellar) hcellar) hcellar))) hP

theorem Touches.wearAllow (hbudget : W .budget) : P s.wearAllow :=
  pres_cond (pres_cond (C.wr (C.wr (C.wr hP))) (fun _ h1 => C.setBudget (C.wr h1) hbudget)) (fun _ h1 => C.detect h1)

/-! ### Machine/Cellar.lean -/

theorem Touches.showLife : P s.showLife :=
  C.healthNote (pres_cond (pres_cond (C.wr (C.wr hP)) (fun _ h1 => C.detect h1)) (fun _ h1 => C.detect h1))

theorem Touches.rewriteRecords (hcellar : W .cellar) : P s.rewriteRecords :=
  pres_cond hP (fun _ h1 => C.setCellar h1 hcellar)

theorem Touches.endurance (hcellar : W .cellar) : P s.endurance :=
  C.showLife (pres_cond (C.setCellar (C.wr (C.wr hP)) hcellar) (fun _ h1 => C.rewriteRecords h1 hcellar))

theorem Touches.updBlock {k : Nat × Nat × Nat} {f : Block → Block} (hcellar : W .cellar) : P (s.updBlock k f) :=
  C.setCellar hP hcellar

theorem Touches.showSpares {chan die : Nat} : P (s.showSpares chan die) :=
  pres_cond (C.wr (C.wr (C.wr (C.wr hP)))) (fun _ h1 => C.detect h1)

theorem Touches.retireBlock {k : Nat × Nat × Nat} (hcellar : W .cellar) : P (s.retireBlock k) :=
  pres_ite hP (C.closeBroken (C.inc (C.inc (C.setCellar (C.updBlock hP hcellar) hcellar))) hcellar)

theorem Touches.replaceMember {id : Nat} {k : Nat × Nat × Nat} (hcellar : W .cellar) : P (s.replaceMember id k).1 := by
  unfold State.replaceMember
  split
  · exact hP
  · split
    · exact hP
    · exact pres_cond (C.showSpares (C.updGroup (C.updBlock hP hcellar) hcellar)) (fun _ h1 => C.showSpares h1)

theorem Touches.dropGroup {id : Nat} (hcellar : W .cellar) : P (s.dropGroup id) := by
  unfold State.dropGroup
  refine pres_ite (C.updGroup hP hcellar) ?_
  split
  · exact C.showZ (C.updGroup (C.updGroup hP hcellar) hcellar)
  · exact pres_cond (C.showZ (C.updGroup hP hcellar)) (fun _ h1 => C.setCond h1)

theorem Touches.moveGroup {a b : Zone} {t : State} (hcellar : W .cellar) (ht : s.moveGroup a b = some t) : P t := by
  unfold State.moveGroup at ht
  obtain ⟨g, -, rfl⟩ := Option.map_eq_some_iff.mp ht
  exact C.updGroup hP hcellar

theorem Touches.resizeMove {t : State} (hcellar : W .cellar) (ht : s.resizeMove = some t) : P t := by
  have hmove {a b : Zone} (h : s.moveGroup a b = some t) : P t := C.moveGroup hP hcellar h
  unfold State.resizeMove at ht
  grind

theorem Touches.resizeMoves {n : Nat} (hcellar : W .cellar) : P (s.resizeMoves n) := by
  induction n generalizing s with
  | zero => exact hP
  | succ n ih =>
    unfold State.resizeMoves
    split
    next ht => exact ih (C.resizeMove hP hcellar ht)
    next => exact hP

theorem Touches.resizeGo (hcellar : W .cellar) : P s.resizeGo :=
  pres_ite (C.showZ (C.wr (C.wr (C.resizeMoves hP hcellar)))) hP

theorem Touches.takeImage {id : Nat} {k : Nat × Nat × Nat} (hcellar : W .cellar) : P (s.takeImage id k).1 := by
  unfold State.takeImage
  dsimp only
  split
  · exact hP
  · split
    · exact hP
    · exact C.showImage (pres_cond (C.updGroup (C.updGroup hP hcellar) hcellar) (fun _ h1 => C.detect h1))

theorem Touches.mendMember {id : Nat} {k : Nat × Nat × Nat} (hcellar : W .cellar) : P (s.mendMember id k) := by
  have hnew : P (s.replaceMember id k).1 := C.replaceMember hP hcellar
  unfold State.mendMember
  generalize s.replaceMember id k = r at hnew
  refine pres_ite hnew ?_
  dsimp only
  have htake : ∀ b : Bool, P (if b then (r.1, false) else r.1.takeImage id k).1 :=
    fun _ => pres_ite_fst hnew (C.takeImage hnew hcellar)
  exact pres_ite (htake _) (C.dropGroup (htake _) hcellar)

theorem Touches.exchangeWorn {id : Nat} {k : Nat × Nat × Nat} (hcellar : W .cellar) : P (s.exchangeWorn id k) := by
  unfold State.exchangeWorn
  split
  · exact hP
  · dsimp only
    split
    · exact hP
    · refine pres_ite hP ?_
      split
      · exact hP
      · exact C.updGroup (C.updGroup hP hcellar) hcellar

theorem Touches.dissolve {id : Nat} (hcellar : W .cellar) : P (s.dissolve id) := by
  unfold State.dissolve
  split
  · exact hP
  · exact C.updGroup hP hcellar

theorem Touches.rewidth {id : Nat} (hcellar : W .cellar) : P (s.rewidth id) := by
  unfold State.rewidth
  split
  · exact hP
  · exact C.updGroup (pres_cond hP (fun _ h1 => C.dissolve h1 hcellar)) hcellar

theorem Touches.eraseFail {k : Nat × Nat × Nat} (hcellar : W .cellar) : P (s.eraseFail k) :=
  C.retireBlock (C.detect (C.wr (C.wr (C.wr (C.inc hP))))) hcellar

theorem Touches.mendGroup {id n : Nat} {failed : List (Nat × Nat × Nat)} (hcellar : W .cellar) :
    P (s.mendGroup id failed n) := by
  induction n generalizing s with
  | zero => exact hP
  | succ n ih =>
    unfold State.mendGroup
    split
    · exact hP
    · next g _ =>
      have hfail : P ((g.members.filter (fun k => failed.contains k && !s.isBad k)).foldl State.eraseFail s) :=
        pres_foldl hP (fun _ _ h1 => C.eraseFail h1 hcellar)
      exact pres_ite hfail (ih (pres_foldl hfail (fun _ _ h1 => C.mendMember h1 hcellar)))

theorem Touches.eraseNow {id : Nat} {failed : List (Nat × Nat × Nat)} (hcellar : W .cellar) : P (s.eraseNow id failed) := by
  unfold State.eraseNow
  split
  · exact hP
  · exact pres_ite hP (C.showImage (C.resizeGo (C.showZ (pres_cond
      (C.mendGroup (pres_cond
        (pres_cond hP (fun _ h1 => pres_foldl h1 (fun _ _ h2 => C.exchangeWorn h2 hcellar)))
        (fun _ h1 => C.rewidth h1 hcellar)) hcellar)
      (fun _ h1 => C.eraseGroup h1 hcellar))) hcellar))

theorem Touches.reform (hcellar : W .cellar) : P s.reform :=
  C.showZ (pres_foldl hP (fun _ _ h1 => C.mendGroup h1 hcellar))

theorem Touches.eraseDone {id : Nat} {failed : List (Nat × Nat × Nat)} (hcellar : W .cellar) : P (s.eraseDone id failed) :=
  pres_ite (C.eraseNow hP hcellar) (pres_cond hP (fun _ h1 => C.setCellar h1 hcellar))

theorem Touches.spareFirst (hcellar : W .cellar) : P s.spareFirst := by
  unfold State.spareFirst
  split
  · exact hP
  · exact C.showZ (C.updGroup hP hcellar)

theorem Touches.programFail {chan die blk page : Nat} {granules : List Nat} (hdirty : W .dirty) (hcellar : W .cellar) :
    P (s.programFail chan die blk page granules) := by
  unfold State.programFail
  exact pres_cond
    (pres_foldl
      (pres_cond
        (C.showSpares (C.reform (C.retireBlock (C.detect (C.wr (C.wr (C.wr (C.inc hP))))) hcellar) hcellar))
        (fun _ h1 => C.spareFirst (C.other h1) hcellar))
      (fun _ _ h1 => pres_ite (C.freeCopy h1 hdirty) h1))
    (fun _ h1 => pres_foldl h1 (fun _ _ h2 => C.kilnLose h2))

theorem Touches.retireDie {chan die : Nat} (hcellar : W .cellar) : P (s.retireDie chan die) :=
  pres_ite hP (C.project
    (C.reform (C.closeBroken (C.detect (C.wr (C.wr (C.inc (C.setBit (C.setCellar hP hcellar)))))) hcellar) hcellar))

theorem Touches.relocCheck {chan : Nat} : P (s.relocCheck chan) :=
  pres_cond hP (fun _ h1 => C.setCond h1)

theorem Touches.killChannel {chan : Nat} (hcellar : W .cellar) : P (s.killChannel chan) :=
  pres_ite hP (C.project (C.relocCheck (C.reform
    (C.moveWraps (C.closeBroken (C.setCond (C.wr (C.wr (C.wr (C.setCellar hP hcellar))))) hcellar) hcellar) hcellar)))

theorem Touches.relocate {k : Nat × Nat × Nat} (hcellar : W .cellar) : P (s.relocate k) :=
  pres_ite hP (C.setCellar hP hcellar)

theorem Touches.disturb {k : Nat × Nat × Nat} (hcellar : W .cellar) : P (s.disturb k) := by
  unfold State.disturb
  split
  · exact hP
  · exact pres_cond hP (fun _ h1 => C.setCellar h1 hcellar)

theorem Touches.rebuildReads {a : Nat} (hcellar : W .cellar) : P (s.rebuildReads a) := by
  unfold State.rebuildReads
  split
  · exact hP
  · exact pres_foldl hP (fun _ _ h1 => C.disturb (C.updBlock h1 hcellar) hcellar)

theorem Touches.ladder {a step : Nat} (hcellar : W .cellar) : P (s.ladder a step) := by
  unfold State.ladder
  extract_lets k chan s1 s2 s3 s4 s5
  have hread : P s4 :=
    pres_cond (C.disturb (pres_cond (C.updBlock hP hcellar) (fun _ h1 => C.inc h1)) hcellar)
      (fun _ h1 => C.relocate (C.inc h1) hcellar)
  have hrebuilt : P s5 := C.rebuildReads (C.detect (C.inc hread)) hcellar
  exact pres_ite hread (pres_ite
    (pres_cond
      (C.relocate (C.updBlock hrebuilt hcellar) hcellar)
      (fun _ h1 => C.showSpares (C.reform (C.retireBlock h1 hcellar) hcellar)))
    (C.detect (C.wr (C.wr (C.wr (C.inc hread))))))

theorem Touches.loseGranule {g : Nat} (hcellar : W .cellar) : P (s.loseGranule g) :=
  C.mediaEvent (C.detect (C.listPoison (C.setEntry hP hcellar)))

theorem Touches.unreadable {g : Nat} (hdirty : W .dirty) (hcellar : W .cellar) : P (s.unreadable g) :=
  pres_ite (C.loseGranule hP hcellar) (C.setEntry (pres_ite hP (C.markDirty hP hdirty)) hcellar)

theorem Touches.pageLost {r : Nat} (hdirty : W .dirty) (hcellar : W .cellar) : P (s.pageLost r) :=
  pres_foldl (C.setCellar hP hcellar) (fun _ _ h1 => C.unreadable h1 hdirty hcellar)

theorem Touches.guestLost {slot g : Nat} : P (s.guestLost slot g) :=
  C.sendLost (C.detect (C.wr (C.wr (C.other hP))))

theorem Touches.readDone {a step errs : Nat} {what : ReadFor} (hdirty : W .dirty) (hcellar : W .cellar) :
    P (s.readDone a step errs what) := by
  unfold State.readDone
  extract_lets step s1 s2
  have hclimbed : P s2 :=
    pres_cond (C.ladder (pres_cond hP (fun _ h1 => C.relocate h1 hcellar)) hcellar) (fun _ h1 => C.bump h1)
  refine pres_ite hclimbed ?_
  cases what with
  | granule _ => exact pres_ite (C.unreadable hclimbed hdirty hcellar) hclimbed
  | mapPage _ => exact C.pageLost hclimbed hdirty hcellar
  | records => exact C.detect (C.setCellar hclimbed hcellar)
  | guest _ _ => exact C.guestLost hclimbed

theorem Touches.chainCheck (hcellar : W .cellar) : P s.chainCheck :=
  C.showChain (C.setCellar hP hcellar)

theorem Touches.flushPage {r a : Nat} (hcellar : W .cellar) : P (s.flushPage r a) :=
  pres_ite hP (C.fenceFlushed (C.showImage (C.showZ (C.showMap (C.chainCheck (pres_cond
    (C.setCellar (C.bump (C.countUsed (C.noteProgram (C.putCodeword hP hcellar) hcellar) hcellar)) hcellar)
    (fun _ h1 => C.dirCheckpoint h1 hcellar)) hcellar)))))

theorem Touches.mapScrub {bad : List Nat} (hdirty : W .dirty) (hcellar : W .cellar) : P (s.mapScrub bad) :=
  pres_ite hP (pres_cond
    (C.addSat (C.inc (pres_foldl hP (fun _ _ h1 => C.unreadable h1 hdirty hcellar))))
    (fun _ h1 => C.setCond h1))

theorem Touches.moveCopy {g a step : Nat} (hdirty : W .dirty) (hcellar : W .cellar) : P (s.moveCopy g a step) := by
  unfold State.moveCopy
  dsimp only
  split
  · exact C.unreadable (C.setCond (C.ladder hP hcellar)) hdirty hcellar
  · exact pres_ite
      (C.unreadable (C.ladder hP hcellar) hdirty hcellar)
      (C.relocCheck (C.showImage
        (C.setEntry (C.countUsed (C.noteProgram (C.putCodeword (C.ladder hP hcellar) hcellar) hcellar) hcellar) hcellar)))

theorem Touches.movePage {r a step : Nat} (hdirty : W .dirty) (hcellar : W .cellar) : P (s.movePage r a step) :=
  pres_ite
    (C.pageLost (C.ladder hP hcellar) hdirty hcellar)
    (C.showImage (pres_cond
      (C.setCellar
        (C.countUsed (C.noteProgram (C.putCodeword (C.ladder hP hcellar) hcellar) hcellar) hcellar) hcellar)
      (fun _ h1 => C.dirCheckpoint h1 hcellar)))

theorem Touches.moveGuest {slot g step : Nat} (hcellar : W .cellar) : P (s.moveGuest slot g step) :=
  pres_ite hP (pres_ite (C.guestLost hP) (C.countUsed (C.setCellar hP hcellar) hcellar))

theorem Touches.gcMove {what : ReadFor} {a step : Nat} (hdirty : W .dirty) (hcellar : W .cellar) :
    P (s.gcMove what a step) := by
  unfold State.gcMove
  split
  · exact pres_ite (C.moveCopy hP hdirty hcellar) hP
  · exact pres_ite (C.movePage hP hdirty hcellar) hP
  · exact pres_cond hP (fun _ h1 => C.setCellar h1 hcellar)
  · exact C.moveGuest hP hcellar

theorem Touches.foldMove {g a step : Nat} (hdirty : W .dirty) (hcellar : W .cellar) : P (s.foldMove g a step) :=
  pres_ite (C.showChain (C.moveCopy hP hdirty hcellar)) hP

theorem Touches.wearLevel {addrs : List Nat} (hdirty : W .dirty) (hcellar : W .cellar) : P (s.wearLevel addrs) := by
  unfold State.wearLevel
  refine pres_ite (C.showLife hP) ?_
  split
  · exact C.showLife hP
  · exact pres_foldl
      (pres_foldl (C.showLife hP) (fun _ _ h1 => pres_cond h1 (fun _ h2 => C.moveCopy h2 hdirty hcellar)))
      (fun _ _ h1 => pres_cond h1 (fun _ h2 => C.movePage h2 hdirty hcellar))

theorem Touches.flashPatrol {pct : Nat} {found : List (Nat × Nat × Nat × ReadFor)} (hdirty : W .dirty) (hcellar : W .cellar) :
    P (s.flashPatrol pct found) :=
  pres_ite
    (C.wr (pres_foldl (C.setCellar hP hcellar) (fun _ _ h1 => C.readDone h1 hdirty hcellar)))
    (C.wr (C.wr
      (C.inc (C.setCellar (pres_foldl (C.setCellar hP hcellar) (fun _ _ h1 => C.readDone h1 hdirty hcellar)) hcellar))))

/-! ### Machine/Kiln.lean -/

theorem Touches.mainFail : P s.mainFail :=
  pres_ite hP (pres_ite
    (pres_cond
      (pres_cond (C.fireTrigger (C.other hP)) (fun _ h1 => C.pathOn h1))
      (fun _ h1 => C.k2Check (C.wr (C.other h1))))
    (pres_ite (C.fireTrigger (C.restExit (C.other hP))) (C.goDown (C.other hP))))

theorem Touches.mainWarn : P s.mainWarn := by
  unfold State.mainWarn
  exact pres_cond (C.prime (pres_cond (C.other hP) (fun _ h1 => C.restExit h1))) (fun _ h1 => C.k2Check (C.wr (C.other h1)))

theorem Touches.primedClear : P s.primedClear :=
  pres_ite (C.unprime hP) hP

theorem Touches.escalate : P s.escalate :=
  pres_ite (C.fireTrigger (C.restExit hP)) hP

theorem Touches.powerReturn : P s.powerReturn :=
  pres_cond (C.other hP) (fun _ h1 => C.startDebounce h1)

theorem Touches.pathsCarry : P s.pathsCarry :=
  pres_each hP (fun _ _ h1 => pres_cond h1 (fun _ h2 => C.setPack h2))

theorem Touches.pathConfirmed : P s.pathConfirmed :=
  pres_ite (C.openK2 (C.pathsCarry (C.other hP))) hP

theorem Touches.pathLate : P s.pathLate :=
  pres_ite (C.openK2 (C.detect (C.other hP))) hP

theorem Touches.debounced : P s.debounced :=
  pres_ite (C.authDue (C.cancelKiln (C.other hP))) hP

theorem Touches.phaseLate : P s.phaseLate :=
  pres_ite (C.detect (C.other hP)) hP

theorem Touches.drainErrors {g : Nat} {ue : List (Nat × Ecc)} (hdram : W .dram) : P (s.drainErrors g ue) := by
  unfold State.drainErrors
  refine pres_foldl hP (fun _ _ h1 => ?_)
  split
  · exact h1
  · exact C.corrected h1 hdram
  · exact C.detect (C.recordUe h1 hdram)

theorem Touches.putKiln {a index typ : Nat} {poison : LineMask} {data : Memory} (hcellar : W .cellar) :
    P (s.putKiln a index typ poison data) :=
  C.other (C.bump (C.updGroup (C.noteProgram (C.putCodeword hP hcellar) hcellar) hcellar))

theorem Touches.logWord {a : Nat} (hcellar : W .cellar) : P (s.logWord a) :=
  pres_ite (C.other (C.putKiln hP hcellar)) hP

theorem Touches.padKiln {a : Nat} (hcellar : W .cellar) : P (s.padKiln a) := by
  unfold State.padKiln
  split
  · exact hP
  · exact pres_foldl hP (fun _ _ h1 => pres_cond h1 (fun _ h2 => C.putKiln h2 hcellar))

theorem Touches.saveGranule {g a : Nat} {img : Memory × LineMask} (hdirty : W .dirty) (hcellar : W .cellar) :
    P (s.saveGranule g a img) :=
  C.wr (C.wr (C.markClean (C.other (C.putKiln hP hcellar)) hdirty))

theorem Touches.drainSlot {d : DrainSlot} {ue : List (Nat × Ecc)} {unread : List Nat} {n : Nat} (hdram : W .dram)
    (hdirty : W .dirty) (hcellar : W .cellar) : P (s.drainSlot d ue unread n) := by
  induction n generalizing s with
  | zero => exact hP
  | succ n ih =>
    unfold State.drainSlot
    split
    · exact hP
    · exact pres_ite
        (ih (C.kilnLose (C.drainErrors hP hdram)))
        (pres_ite hP (C.saveGranule (C.drainErrors hP hdram) hdirty hcellar))

theorem Touches.stripeDone {slots : List DrainSlot} {ue : List (Nat × Ecc)} {unread : List Nat} (hdram : W .dram)
    (hdirty : W .dirty) (hcellar : W .cellar) :
    P (s.stripeDone slots ue unread) :=
  pres_ite (pres_cond
    (pres_cond
      (C.shedRanks (C.showZ (C.sampleDrain (C.countDone (C.countUsed (pres_cond
        (pres_foldl
          (C.settleShed hP hdram)
          (fun _ _ h1 => pres_ite (C.logWord h1 hcellar) (C.drainSlot h1 hdram hdirty hcellar)))
        (fun _ h1 => pres_foldl h1 (fun _ _ h2 => C.padKiln h2 hcellar))) hcellar) hcellar))) hdram)
      (fun _ h1 => C.other h1))
    (fun _ h1 => C.project h1)) hP

theorem Touches.keepErrors {k : KeepFound} : P (s.keepErrors k) :=
  pres_foldl
    (pres_foldl
      (pres_cond (C.other hP) (fun _ h1 => C.detect h1))
      (fun _ _ h1 => pres_foldl h1 (fun _ _ h2 => C.setDebt h2)))
    (fun _ _ h1 => C.other h1)

theorem Touches.kilnCut {control : Bool} : P (s.kilnCut control) :=
  pres_ite
    (C.enterP4 (C.clrEnables (C.seqAbandon (C.wr (C.other hP)))))
    (C.seqRequest (C.other (C.seqAbandon (C.wr (C.other hP)))))

theorem Touches.collapse {control : Bool} : P (s.collapse control) :=
  pres_ite (C.kilnCut hP) hP

theorem Touches.selfTest {cmpOk shedOk romOk : Bool} : P (s.selfTest cmpOk shedOk romOk) := by
  unfold State.selfTest
  exact pres_cond (pres_cond (C.wr (C.wr (C.wr hP))) (fun _ h1 => C.inc h1)) (fun _ h1 => C.setCond h1)

theorem Touches.armWrite {on : Bool} : P (s.armWrite on) :=
  pres_ite
    (pres_cond (pres_cond (C.wr hP) (fun _ h1 => C.setCond h1)) (fun _ h1 => C.toReady h1))
    (pres_ite (C.reject hP) (C.setCond (pres_cond (C.wr hP) (fun _ h1 => C.wr h1))))

/-! ### Machine/Flash.lean -/

theorem Touches.setFlashOp {b : Nat} {o : Option FlashOp} (hflash : W .flash) : P (s.setFlashOp b o) :=
  pres_ite (C.wr (C.setFlash hP hflash)) (C.wr (C.setFlash hP hflash))

theorem Touches.journal {kind addr : Nat} (hflash : W .flash) : P (s.journal kind addr) :=
  pres_ite (C.setFlash hP hflash) (C.setFlash hP hflash)

theorem Touches.journalDone {addr : Nat} (hflash : W .flash) : P (s.journalDone addr) :=
  C.setFlash hP hflash

theorem Touches.countErases {lo hi : Nat} (hflash : W .flash) : P (s.countErases lo hi) :=
  pres_foldl hP (fun _ _ h1 => pres_cond (C.wr (C.setFlash h1 hflash)) (fun _ h2 => C.detect h2))

theorem Touches.loseRecords {lo hi : Nat} (hflash : W .flash) : P (s.loseRecords lo hi) :=
  C.other (pres_cond (pres_cond hP (fun _ h1 => C.setFlash h1 hflash)) (fun _ h1 => C.setFlash h1 hflash))

theorem Touches.eraseSectors {lo hi : Nat} (hflash : W .flash) : P (s.eraseSectors lo hi) :=
  C.countErases (C.loseRecords (C.setFlash hP hflash) hflash) hflash

theorem Touches.setFlashSeq {fw : Bool} {q : FlashSeq} (hflash : W .flash) : P (s.setFlashSeq fw q) :=
  pres_ite (C.setFlash hP hflash) (C.wr (C.setFlash hP hflash))

theorem Touches.flashErr {e : Nat} : P (s.flashErr e) :=
  C.wr hP

theorem Touches.breakSeq {fw : Bool} (hflash : W .flash) : P (s.breakSeq fw) :=
  C.detect (C.flashErr (C.setFlashSeq hP hflash))

theorem Touches.keyWrite {fw : Bool} {v : Nat} (hflash : W .flash) : P (s.keyWrite fw v) :=
  pres_ite (C.setFlashSeq hP hflash) (C.breakSeq hP hflash)

theorem Touches.flashCommand {fw : Bool} {op addr word : Nat} (hflash : W .flash) : P (s.flashCommand fw op addr word) :=
  pres_ite
    (C.breakSeq hP hflash)
    (pres_ite
      (C.flashErr (C.setFlashSeq hP hflash))
      (pres_ite
        (C.flashErr (C.setFlashSeq hP hflash))
        (pres_ite
          (C.flashErr (C.setFlashSeq hP hflash))
          (pres_ite
            (C.flashErr (C.setFlashSeq hP hflash))
            (C.setFlashOp (pres_cond
              (C.flashErr (C.setFlashSeq hP hflash))
              (fun _ h1 => pres_cond h1 (fun _ h2 => pres_ite (C.journal h2 hflash) (C.journal h2 hflash)))) hflash)))))

theorem Touches.seqReset {fw : Bool} (hflash : W .flash) : P (s.seqReset fw) :=
  pres_ite (C.flashErr (C.setFlashSeq hP hflash)) (C.breakSeq hP hflash)

theorem Touches.flashDone {b : Nat} {ok : Bool} (hflash : W .flash) : P (s.flashDone b ok) := by
  unfold State.flashDone
  split
  · exact hP
  · exact pres_ite
      (pres_ite
        (pres_cond (C.setFlash (C.setFlashOp hP hflash) hflash) (fun _ h1 => C.journalDone h1 hflash))
        (C.detect (C.flashErr (C.setFlash (C.setFlashOp hP hflash) hflash))))
      (pres_ite
        (C.journalDone (C.eraseSectors (C.setFlashOp hP hflash) hflash) hflash)
        (C.detect
          (C.flashErr (C.setFlash (C.loseRecords (C.countErases (C.setFlashOp hP hflash) hflash) hflash) hflash))))

theorem Touches.bootWrite {bank svn : Nat} {trial : Bool} (hflash : W .flash) : P (s.bootWrite bank svn trial) :=
  C.setFlash hP hflash

theorem Touches.setBankPkg {b : Nat} {k : Option Package} : P (s.setBankPkg b k) :=
  pres_ite (C.other hP) (C.other hP)

theorem Touches.dropStaging : P s.dropStaging :=
  C.wr (C.wr (C.wr (C.wr (C.other (C.setBankPkg hP)))))

theorem Touches.flashCheck {corrected : Nat} {bad : List (Nat × Nat)} (hflash : W .flash) :
    P (s.flashCheck corrected bad) := by
  unfold State.flashCheck
  extract_lets s1 s2 s3
  have hfailed : P s3 := pres_foldl (pres_cond (C.addSat (C.inc hP)) (fun _ h1 => C.detect h1)) (fun _ _ h1 => pres_ite
    (C.wr (pres_cond (C.setCond (C.setFlash (C.inc (C.wr (C.wr h1))) hflash)) (fun _ h2 => C.vendor h2)))
    (C.detect (pres_cond (C.inc (C.wr (C.wr h1))) (fun _ h2 => C.wr (C.dropStaging h2)))))
  exact pres_ite (C.setCond (C.setFlash hfailed hflash)) hfailed

/-! ### Machine/Update.lean -/

theorem Touches.updBox {c : Instr} {p op : Nat} {body : State → State} (hbody : ∀ t, P t → P (body t)) :
    P (s.updBox c p op body) :=
  pres_ite (pres_ite (hbody _ (C.wr hP)) hP) (C.mbox hP (fun _ h1 => hbody _ h1))

theorem Touches.keepLock {src : Nat} : P (s.keepLock src) :=
  C.wr (C.wr hP)

theorem Touches.freeLock : P s.freeLock :=
  C.wr (C.wr hP)

theorem Touches.updStart {p : Nat} {cxl : Bool} {len : Nat} : P (s.updStart p cxl len).1 :=
  pres_ite_fst hP (pres_ite_fst hP (C.keepLock (C.wr (C.other (C.wr (C.setBankPkg (C.wr (C.wr (C.dropStaging hP)))))))))

theorem Touches.eraseFor {lo hi : Nat} (hflash : W .flash) : P (s.eraseFor lo hi) :=
  pres_foldl hP (fun _ _ h1 => C.other (C.journalDone (C.eraseSectors (C.journal h1 hflash) hflash) hflash))

theorem Touches.journalFor {lo hi : Nat} (hflash : W .flash) : P (s.journalFor lo hi) :=
  pres_foldl hP (fun _ _ h1 => C.journal h1 hflash)

theorem Touches.journalEnd {lo hi : Nat} (hflash : W .flash) : P (s.journalEnd lo hi) :=
  pres_foldl hP (fun _ _ h1 => C.journalDone h1 hflash)

theorem Touches.putBlock {p : Nat} {cxl : Bool} {off len : Nat} {data : Memory} {ok : Bool} (hflash : W .flash) :
    P (s.putBlock p cxl off len data ok).1 :=
  pres_ite_fst hP (pres_ite_fst hP (pres_ite_fst (C.keepLock hP) (pres_ite_fst (C.keepLock hP) (pres_ite_fst
    (C.detect (C.flashErr (C.keepLock (C.journalFor (C.eraseFor hP hflash) hflash))))
    (C.wr (C.journalEnd (C.setFlash (C.keepLock (C.journalFor (C.eraseFor hP hflash) hflash)) hflash) hflash))))))

theorem Touches.updEnd {p : Nat} {cxl : Bool} : P (s.updEnd p cxl).1 :=
  pres_ite_fst hP (pres_ite_fst hP (C.keepLock (C.wr hP)))

theorem Touches.updAbort {p : Nat} {cxl : Bool} : P (s.updAbort p cxl).1 :=
  pres_ite_fst hP (pres_ite_fst
    (C.freeLock (C.wr (C.dropStaging hP)))
    (pres_ite_fst (C.freeLock (C.fallback hP)) (pres_ite_fst (C.freeLock hP) hP)))

theorem Touches.rejectPackage {code mix : Nat} : P (s.rejectPackage code mix) :=
  C.freeLock (C.wr (C.dropStaging (C.detect (C.wr (C.wr hP)))))

theorem Touches.activate {p : Nat} {cxl : Bool} : P (s.activate p cxl).1 := by
  unfold State.activate
  dsimp only
  split
  · exact hP
  · exact pres_ite_fst hP (pres_ite_fst hP (pres_ite_fst hP
      (pres_ite_fst (C.rejectPackage hP) (pres_ite_fst (C.wr hP) (C.nextHandover (C.wr (C.wr (C.other hP))))))))

theorem Touches.activateReset {p : Nat} {cxl : Bool} (hflash : W .flash) : P (s.activateReset p cxl).1 := by
  unfold State.activateReset
  dsimp only
  split
  · exact hP
  · exact pres_ite_fst hP (pres_ite_fst hP (C.wr (C.bootWrite hP hflash)))

theorem Touches.brewBlock {p off len : Nat} {data : Memory} {ok : Bool} (hflash : W .flash) :
    P (s.brewBlock p off len data ok) :=
  pres_ite
    (C.reply (C.putBlock hP hflash))
    (C.background hP (fun _ h1 => C.bgEnd (pres_cond (C.putBlock h1 hflash) (fun _ h2 => C.wr h2))))

theorem Touches.updStatus {p : Nat} : P (s.updStatus p) :=
  C.reply (pres_cond hP (fun _ h1 => C.keepLock h1))

theorem Touches.updFull {p len : Nat} {data : Memory} {ok : Bool} (hflash : W .flash) : P (s.updFull p len data ok).1 :=
  pres_ite_fst (C.updStart hP)
    (pres_ite_fst (C.putBlock (C.updStart hP) hflash) (C.updEnd (C.putBlock (C.updStart hP) hflash)))

theorem Touches.lockExpired : P s.lockExpired :=
  pres_ite hP (C.detect (C.freeLock (C.wr (C.dropStaging hP))))

theorem Touches.confirm (hflash : W .flash) : P s.confirm := by
  unfold State.confirm
  dsimp only
  split
  · exact hP
  · exact C.vendor
      (C.inc (C.freeLock (C.wr (C.wr (C.wr (C.wr (C.wr (C.wr (C.wr (C.other (C.wr (C.bootWrite hP hflash))))))))))))

theorem Touches.windowEnd {cmpOk shedOk romOk : Bool} (hflash : W .flash) : P (s.windowEnd cmpOk shedOk romOk) :=
  pres_ite hP (pres_ite (C.confirm (C.selfTest hP) hflash) (C.fallback (C.selfTest hP)))

/-! ### Machine/Boot.lean -/

theorem Touches.saveRails : P s.saveRails :=
  pres_ite (C.other hP) (C.other hP)

theorem Touches.armComparators : P s.armComparators :=
  pres_each hP (fun _ _ h1 => pres_cond h1 (fun _ h2 => C.wr h2))

/-! ### Machine/Steep.lean -/

theorem Touches.bulkBegin : P s.bulkBegin :=
  pres_ite (C.wr (C.wr hP)) hP

theorem Touches.bulkDelay : P s.bulkDelay :=
  pres_ite (C.bulkBegin (C.other hP)) hP

theorem Touches.fillLost {g : Nat} (hdram : W .dram) : P (s.fillLost g) :=
  C.detect (C.fillGranule hP hdram)

theorem Touches.fillLoses {g : Nat} (hdram : W .dram) (hcellar : W .cellar) : P (s.fillLoses g) :=
  C.fillLost (C.inc (C.loseGranule hP hcellar)) hdram

theorem Touches.loadPage {r mapStep : Nat} (hdirty : W .dirty) (hcellar : W .cellar) : P (s.loadPage r mapStep) :=
  pres_ite hP (pres_ite
    (C.addSat (C.pageLost (C.ladder hP hcellar) hdirty hcellar))
    (C.showMap (C.setCellar (pres_cond hP (fun _ h1 => C.bump (C.ladder h1 hcellar))) hcellar)))

theorem Touches.fillBy {g mapStep step busy : Nat} {demand : Bool} (hdram : W .dram) (hdirty : W .dirty)
    (hcellar : W .cellar) : P (s.fillBy g mapStep step busy demand) := by
  unfold State.fillBy
  refine pres_ite (C.fillGranule hP hdram) ?_
  extract_lets gone s1
  have hloaded : P s1 := C.loadPage hP hdirty hcellar
  split
  · exact C.fillGranule hloaded hdram
  · exact pres_cond (C.fillLost hloaded hdram) (fun _ h1 => C.mediaEvent h1)
  · split
    · exact C.fillLoses (C.setCond hloaded) hdram hcellar
    · have hclimbed {b : Prop} [Decidable b] {a step : Nat} : P (if b then s1 else s1.ladder a step) :=
        pres_ite hloaded (C.ladder hloaded hcellar)
      have hcounted {t : State} {b : Bool} (ht : P t) : P ((t.bump R.CRY_DEC).cond b (fun s => s.inc R.STP_REBUILDS)) :=
        pres_cond (C.bump ht) (fun _ h1 => C.inc h1)
      exact pres_ite
        (C.fillLoses hclimbed hdram hcellar)
        (pres_cond
          (C.fillGranule (hcounted hclimbed) hdram)
          (fun _ h1 => pres_cond (C.detect h1) (fun _ h2 => C.mediaEvent h2)))

theorem Touches.fillLatency {us : Nat} : P (s.fillLatency us) :=
  C.bump (C.wr (C.other hP))

theorem Touches.fillOne {w : SlotWait} (hdram : W .dram) (hdirty : W .dirty) (hcellar : W .cellar) : P (s.fillOne w) :=
  C.retireRefilled
    (C.endFill (pres_cond (C.fillBy hP hdram hdirty hcellar) (fun _ h1 => C.fillLatency h1)) hdram hdirty) hdram

theorem Touches.waitSlot {w : SlotWait} : P (s.waitSlot w) :=
  pres_ite hP (C.detect (C.inc (C.other hP)))

theorem Touches.runWaits (hdram : W .dram) (hdirty : W .dirty) (hcellar : W .cellar) : P s.runWaits :=
  pres_foldl hP (fun _ _ h1 => pres_ite h1 (pres_ite (C.fillOne (C.other h1) hdram hdirty hcellar) (C.other h1)))

theorem Touches.demandDone {w : SlotWait} (hdram : W .dram) (hdirty : W .dirty) (hcellar : W .cellar) :
    P (s.demandDone w) :=
  pres_ite hP (pres_ite (C.waitSlot hP)
    (C.steepCheck (C.runWaits (C.fillOne hP hdram hdirty hcellar) hdram hdirty hcellar) hcellar))

theorem Touches.ceiling {port tag : Nat} : P (s.ceiling port tag) :=
  pres_ite
    (C.respond (C.detect (C.inc (C.other hP))))
    (pres_ite (C.respond (C.detect (C.inc (C.other hP)))) (pres_cond hP (fun _ h1 => C.detect h1)))

theorem Touches.bulkTake : P s.bulkTake :=
  pres_ite (C.other (C.other hP)) (pres_ite (C.other hP) (C.other (C.other hP)))

theorem Touches.bulkRate : P s.bulkRate := by
  unfold State.bulkRate
  dsimp only
  split
  · exact C.other hP
  · exact C.wr (C.other hP)

theorem Touches.bulkFill {mapStep step busy : Nat} (hdram : W .dram) (hdirty : W .dirty) (hcellar : W .cellar) :
    P (s.bulkFill mapStep step busy) := by
  unfold State.bulkFill
  refine pres_ite hP ?_
  dsimp only
  split
  · exact C.bulkTake hP
  · exact pres_ite
      (C.waitSlot (C.bulkTake hP))
      (C.steepCheck (C.showSteep (C.bulkTake
        (C.runWaits (C.bulkRate (C.fillOne (C.bulkTake hP) hdram hdirty hcellar)) hdram hdirty hcellar))) hcellar)

/-! ### Machine/Queues.lean -/

theorem Touches.byOwner {p q : Nat} {f : State → State} (hf : ∀ t, P t → P (f t)) : P (s.byOwner p q f) :=
  pres_ite hP (pres_ite (C.reject hP) (hf _ (C.restExit hP)))

theorem Touches.badDoorbell {q : Nat} : P (s.badDoorbell q) :=
  C.detect (C.faultQueue hP)

theorem Touches.sqTail {q tail : Nat} : P (s.sqTail q tail) :=
  pres_ite hP (pres_ite (C.badDoorbell hP) (C.setQueue hP))

theorem Touches.cqHead {q head : Nat} : P (s.cqHead q head) :=
  pres_ite hP (pres_ite (C.badDoorbell hP) (C.settleQueue (C.startQueue (C.releaseHeld (C.setQueue hP)))))

theorem Touches.postRecord {q : Nat} : P (s.postRecord q) := by
  unfold State.postRecord
  dsimp only
  split
  · exact hP
  · exact pres_ite (C.postCompletion (C.setQueue hP)) hP

theorem Touches.enableQueue {p q : Nat} : P (s.enableQueue p q) :=
  pres_ite hP (pres_ite (C.reject hP) (C.showQueues (C.postRecord (C.setQueue hP))))

theorem Touches.dropRecord {q : Nat} : P (s.dropRecord q) :=
  C.showQueues (C.setQueue hP)

theorem Touches.fetchDesc {d : Desc} : P (s.fetchDesc d) := by
  unfold State.fetchDesc
  split
  · exact hP
  · exact C.startQueue (C.served (C.setQueue (C.useContext hP)))

theorem Touches.dmaFails {q kind : Nat} : P (s.dmaFails q kind) :=
  pres_ite (C.detect (C.faultQueue hP)) hP

omit C in
theorem pres_runElem {q cid op : Nat} {f : State → RunCmd → Desc → State} (hf : ∀ t t1 t2, P t → P (f t t1 t2)) :
    P (s.runElem q cid op f) := by
  unfold State.runElem
  split
  · exact hP
  · split
    · exact hP
    · exact pres_ite (hf _ _ _ hP) hP

theorem Touches.advance {q : Nat} {k : RunCmd} {d : Desc} {upTo n : Nat} : P (s.advance q k d upTo n) :=
  C.setCmd hP

theorem Touches.runNop {q cid : Nat} : P (s.runNop q cid) :=
  pres_runElem hP (fun _ _ _ h1 => C.advance h1)

theorem Touches.fenceCopies {q n : Nat} {left : RSet} (hdirty : W .dirty) : P (s.fenceCopies q n left) :=
  pres_foldl hP (fun _ _ h1 => pres_ite (C.raiseFill h1) (pres_ite (C.startCopy h1 hdirty) h1))

theorem Touches.runFence {q cid n : Nat} (hdirty : W .dirty) : P (s.runFence q cid n) :=
  pres_runElem hP (fun _ _ _ h1 => C.fenceCopies (C.setCmd h1) hdirty)

theorem Touches.putGranule {g : Nat} {data : Memory} {poison : LineMask} (hdram : W .dram) (hdirty : W .dirty) :
    P (s.putGranule g data poison) :=
  pres_each (C.setDram (C.maskAll (C.wrote hP hdirty)) hdram) (fun _ _ h1 => pres_ite (C.setPoison h1 hdram) h1)

theorem Touches.holdDst {g : Nat} : P (s.holdDst g) :=
  C.raiseFill (pres_cond hP (fun _ h1 => C.detect (C.inc h1)))

theorem Touches.copyRun {src dst i n : Nat} {found : List (Nat × Ecc)} {full : List Nat} (hdram : W .dram)
    (hdirty : W .dirty) : P (s.copyRun src dst found full i n).1 := by
  induction n generalizing s i with
  | zero => exact hP
  | succ n ih =>
    unfold State.copyRun
    exact pres_ite_fst (C.raiseFill hP)
      (pres_ite_fst (C.holdDst hP) (ih (C.putGranule (C.copyErrors hP hdram) hdram hdirty)))

theorem Touches.runCopy {q cid n : Nat} {found : List (Nat × Ecc)} {full : List Nat} (hdram : W .dram) (hdirty : W .dirty) :
    P (s.runCopy q cid n found full) := by
  unfold State.runCopy
  exact pres_runElem hP (fun _ _ _ h1 => C.advance (C.copyRun h1 hdram hdirty))

theorem Touches.zeroRun {dst i n : Nat} {full : List Nat} (hdram : W .dram) (hdirty : W .dirty) :
    P (s.zeroRun dst full i n).1 := by
  induction n generalizing s i with
  | zero => exact hP
  | succ n ih =>
    unfold State.zeroRun
    exact pres_ite_fst (C.holdDst hP) (ih (C.putGranule hP hdram hdirty))

theorem Touches.runZero {q cid n : Nat} {full : List Nat} (hdram : W .dram) (hdirty : W .dirty) :
    P (s.runZero q cid n full) := by
  unfold State.runZero
  exact pres_runElem hP (fun _ _ _ h1 => C.advance (C.zeroRun h1 hdram hdirty))

theorem Touches.runPin {q cid : Nat} : P (s.runPin q cid) :=
  pres_runElem hP (fun _ _ _ h1 => pres_ite (C.detect (C.setCmd h1)) (C.advance (C.wr (C.other h1))))

theorem Touches.hintRegion {r : Nat} : P (s.hintRegion r).1 :=
  pres_ite_fst (pres_ite_fst (C.detect (C.inc hP)) (C.wr (C.other hP))) hP

theorem Touches.setLevel {r v : Nat} (hdirty : W .dirty) : P (s.setLevel r v) :=
  C.setDirty hP hdirty

theorem Touches.runHint {q cid n : Nat} (hdirty : W .dirty) : P (s.runHint q cid n) := by
  refine pres_runElem hP (fun t k d h1 => ?_)
  dsimp only
  refine C.advance ?_
  exact pres_foldl_fst h1 (fun _ _ h2 => C.hintRegion (C.setLevel h2 hdirty))

theorem Touches.cleanDrop {lo hi : Nat} (hdirty : W .dirty) : P (s.cleanDrop lo hi) :=
  C.fenceClean (C.dropCopies (C.cleanRange hP hdirty) hdirty)

theorem Touches.runDiscard {q cid n : Nat} (hdirty : W .dirty) (hcellar : W .cellar) : P (s.runDiscard q cid n) :=
  pres_runElem hP (fun _ _ _ h1 => C.advance (pres_cond (C.cleanDrop h1 hdirty) (fun _ h2 => C.releaseEntries h2 hcellar)))

theorem Touches.setVolatile {lo hi : Nat} {on : Bool} (hdirty : W .dirty) (hcellar : W .cellar) :
    P (s.setVolatile lo hi on) :=
  pres_ite
    (C.releaseEntries (C.cleanDrop (C.setDirty hP hdirty) hdirty) hcellar)
    (pres_foldl (C.setDirty hP hdirty) (fun _ _ h1 => C.markRange h1 hdirty))

theorem Touches.runVolatile {q cid : Nat} (hdirty : W .dirty) (hcellar : W .cellar) : P (s.runVolatile q cid) :=
  pres_runElem hP (fun _ _ _ h1 => pres_ite (C.detect (C.setCmd h1)) (C.advance (C.setVolatile h1 hdirty hcellar)))

theorem Touches.runQuery {q cid : Nat} {ok : Bool} : P (s.runQuery q cid ok) :=
  pres_runElem hP (fun _ _ _ h1 => pres_ite (C.advance (C.send h1)) (C.setCmd h1))

theorem Touches.fenceStats {st us : Nat} : P (s.fenceStats st us) :=
  pres_cond (C.wr (C.other hP)) (fun _ h1 => C.detect (C.inc h1))

theorem Touches.commandDone {q cid us : Nat} : P (s.commandDone q cid us) := by
  unfold State.commandDone
  split
  · exact hP
  · exact pres_ite hP (C.complete (pres_cond hP (fun _ h1 => C.fenceStats h1)))

theorem Touches.coalesce {port vec : Nat} : P (s.coalesce port vec) :=
  pres_ite (C.msix (C.other hP)) hP

theorem Touches.chainLate {q : Nat} : P (s.chainLate q) :=
  pres_ite (C.setQueue hP) hP

/-! ### Machine/Racking.lean -/

theorem Touches.rackFills {left : RSet} : P (s.rackFills left) :=
  pres_foldl hP (fun _ _ h1 => pres_cond h1 (fun _ h2 => C.raiseFill h2))

theorem Touches.runRack {q cid op : Nat} : P (s.runRack q cid op) :=
  pres_runElem hP (fun _ _ _ h1 => pres_cond (C.setCmd h1) (fun _ h2 => C.rackFills h2))

theorem Touches.passRegion {t r : Nat} : P (s.passRegion t r) :=
  pres_ite (C.other hP) (C.other hP)

theorem Touches.readRegion {r : Nat} {found : List (Nat × Ecc)} (hdram : W .dram) : P (s.readRegion r found).1 :=
  pres_foldl_fst hP (fun _ _ h1 => C.copyErrors h1 hdram)

theorem Touches.sendRegion {t r : Nat} {found : List (Nat × Ecc)} (hdram : W .dram) : P (s.sendRegion t r found) :=
  pres_ite
    (C.rackTo (C.rackTo (C.rackSent (C.setSends (C.other hP)))))
    (C.rackTo (pres_foldl
      (pres_foldl
        (C.rackTo (C.readRegion (C.rackSent (C.setSends (C.other hP))) hdram))
        (fun _ _ h1 => C.rackTo h1))
      (fun _ _ h1 => C.rackTo h1)))

theorem Touches.showRackRate {t : Nat} : P (s.showRackRate t) :=
  C.wr hP

theorem Touches.noteSent {t : Nat} : P (s.noteSent t) :=
  C.showRackRate (C.other hP)

theorem Touches.sendStart {t r : Nat} {found : List (Nat × Ecc)} (hdram : W .dram) : P (s.sendStart t r found) :=
  pres_ite (C.restCease
    (C.sendRegion (pres_cond (pres_cond hP (fun _ h1 => C.passRegion h1)) (fun _ h1 => C.noteSent h1)) hdram)) hP

theorem Touches.sendAgain {e : Send} {late : Bool} : P (s.sendAgain e late) :=
  C.detect (C.inc (C.setSends hP))

theorem Touches.ackLate {t r : Nat} : P (s.ackLate t r) := by
  unfold State.ackLate
  split
  · exact hP
  · exact pres_ite hP (pres_ite (C.suspend hP) (C.sendAgain hP))

theorem Touches.openRetry {t : Nat} : P (s.openRetry t) :=
  pres_ite hP (pres_ite (C.sendOpen hP) (pres_ite (C.openTarget hP) hP))

theorem Touches.ackTo {owner h region st : Nat} : P (s.ackTo owner h region st) :=
  C.rackTo hP

theorem Touches.guestCommit {slot region : Nat} (hcellar : W .cellar) : P (s.guestCommit slot region) := by
  unfold State.guestCommit
  split
  · exact pres_ite hP (C.ackTo
      (C.countUsed (pres_cond (C.putGuest (C.setCellar hP hcellar)) (fun _ h1 => C.countDone h1 hcellar)) hcellar))
  · exact hP
  · exact hP

theorem Touches.guestRelease {who : Requester} : P (s.guestRelease who) := by
  unfold State.guestRelease
  refine C.under hP (fun _ h1 => ?_)
  split
  · exact C.reject h1
  · exact pres_ite (C.detect (C.dropGuest (pres_ite (C.rackTo h1) (C.other h1)))) (C.reject h1)

/-! ### Machine/Fabric.lean -/

omit C in
theorem pres_onPort {n : Nat} {f : State → State} (hf : ∀ t, P t → P (f t)) : P (s.onPort n f) :=
  pres_ite (hf _ hP) hP

theorem Touches.exchange {n : Nat} : P (s.exchange n) :=
  pres_cond (pres_foldl hP (fun _ _ h1 => C.sendOn h1)) (fun _ h1 => C.sendOn h1)

theorem Touches.mayTrain {n : Nat} : P (s.mayTrain n) :=
  pres_cond hP (fun _ h1 => C.wr h1)

theorem Touches.helloRx {n eui fnn port : Nat} {hr : Bool} {power : Nat} : P (s.helloRx n eui fnn port hr power) :=
  C.mayTrain (pres_cond
    (pres_ite
      (C.adjacency (C.exchange (C.wr (C.wr (C.wr (C.wr (C.wr (C.setDport hP))))))))
      (pres_ite
        (C.adjacency (C.wr (C.wr (C.wr (C.wr (C.setDport hP))))))
        (C.wr (C.wr (C.wr (C.wr (C.setDport hP)))))))
    (fun _ h1 => C.portFall h1))

theorem Touches.checked {n : Nat} {p : Packet} {f : State → State} (hf : ∀ t, P t → P (f t)) : P (s.checked n p f) :=
  pres_ite (C.inc hP) (pres_ite (C.inc hP) (hf _ hP))

theorem Touches.helloIn {n : Nat} {p : Packet} : P (s.helloIn n p) := by
  unfold State.helloIn
  refine C.checked hP (fun _ h1 => ?_)
  split
  · exact C.helloRx h1
  · exact h1

theorem Touches.hellosMissed {n : Nat} : P (s.hellosMissed n) :=
  pres_cond hP (fun _ h1 => C.portFall (C.addSat h1))

theorem Touches.laneWord {n lane used : Nat} : P (s.laneWord n lane used) :=
  C.wr hP

theorem Touches.recordSpare {n lane : Nat} : P (s.recordSpare n lane) :=
  C.detect (C.occur (C.tlog (C.wr (C.wr (C.wr hP)))))

theorem Touches.showLanes {n lanes : Nat} : P (s.showLanes n lanes) :=
  pres_cond (C.wr (C.wr hP)) (fun _ h1 => C.detect h1)

theorem Touches.replay {n pl : Nat} : P (s.replay n pl) :=
  C.addSat (pres_foldl hP (fun _ _ h1 => C.send h1))

theorem Touches.trained {n bad : Nat} : P (s.trained n bad) := by
  unfold State.trained
  extract_lets again dead spare good _ _ s1 s2 s3 s4
  have hlanes : P s4 := C.showLanes (pres_ite (C.recordSpare (C.wr (C.setDport hP))) (C.laneWord (C.wr (C.wr (C.setDport hP)))))
  exact pres_ite (pres_ite
    (pres_cond hP (fun _ h1 => C.portFall h1))
    (pres_ite (C.adjacency (C.pump (C.replay hlanes))) (C.adjacency (C.exchange hlanes)))) hP

theorem Touches.trainLate {n : Nat} : P (s.trainLate n) :=
  pres_ite (C.inc (C.wr (C.setDport hP))) hP

theorem Touches.trainRetry {n : Nat} : P (s.trainRetry n) :=
  pres_cond hP (fun _ h1 => C.mayTrain (C.setDport h1))

theorem Touches.laneFail {n lane : Nat} : P (s.laneFail n lane) := by
  unfold State.laneFail
  extract_lets d used s1 left s2 s3
  have hnoted : P s1 := C.setDport hP
  have hlanes : P s3 := C.showLanes (pres_ite (C.laneWord (C.wr hnoted)) (pres_cond hnoted (fun _ h1 => C.laneWord h1)))
  exact pres_ite hP (pres_ite hnoted (pres_ite (C.recordSpare hnoted) (pres_ite (C.portFall hlanes) (C.adjacency hlanes))))

theorem Touches.frameIn {n pl seq : Nat} {crcOk : Bool} : P (s.frameIn n pl seq crcOk) :=
  pres_ite (C.send (C.inc hP)) (pres_ite (C.send (C.setPlane hP)) (pres_ite (C.send hP) (C.send hP)))

theorem Touches.ackIn {n pl seq : Nat} : P (s.ackIn n pl seq) :=
  C.pump (C.setPlane hP)

theorem Touches.nakIn {n pl seq : Nat} : P (s.nakIn n pl seq) :=
  pres_ite (pres_ite (C.detect (C.setDport (C.replay (C.setPlane hP)))) (C.replay (C.setPlane hP))) hP

theorem Touches.linkFrame {n pl kind seq : Nat} {crcOk : Bool} : P (s.linkFrame n pl kind seq crcOk) := by
  unfold State.linkFrame
  refine pres_ite hP ?_
  split
  · exact C.frameIn hP
  · exact pres_cond hP (fun _ h1 => C.ackIn h1)
  · exact pres_cond hP (fun _ h1 => C.nakIn h1)

theorem Touches.replayLate {n : Nat} : P (s.replayLate n) :=
  pres_cond hP (fun _ h1 => C.portFall h1)

theorem Touches.firstClaim : P s.firstClaim :=
  pres_cond hP (fun _ h1 => C.claim h1)

theorem Touches.claimEnd : P s.claimEnd :=
  pres_ite hP (pres_ite (C.firstClaim hP) (pres_ite (C.adjacency (C.wr (C.other hP))) hP))

theorem Touches.showDb : P s.showDb :=
  C.wr hP

theorem Touches.lsaAge {eui : Nat} : P (s.lsaAge eui) :=
  pres_ite (pres_cond (C.showDb (C.other hP)) (fun _ h1 => C.claim h1)) hP

theorem Touches.showRoute : P s.showRoute :=
  C.wr (C.wr (C.wr (C.wr hP)))

theorem Touches.showColl : P s.showColl :=
  pres_each hP (fun _ _ h1 => C.setBit h1)

theorem Touches.install {ms : Nat} : P (s.install ms) :=
  pres_ite hP (C.guestsFollow
    (C.followRoutes (C.showColl (C.showRoute (pres_cond (C.wr (C.wr (C.inc (C.other hP)))) (fun _ h1 => C.detect h1))))))

theorem Touches.toCollector {kind n : Nat} : P (s.toCollector kind n) := by
  unfold State.toCollector
  refine pres_ite hP ?_
  split
  · exact C.detect (C.inc (C.other hP))
  · exact C.unicast (C.inc (C.other hP))

theorem Touches.sendSummary {kind : Nat} : P (s.sendSummary kind) :=
  pres_ite hP (C.other (pres_each hP (fun _ _ h1 => C.toCollector h1)))

theorem Touches.overcurrent {n : Nat} : P (s.overcurrent n) :=
  pres_ite (C.detect (C.showFeed (C.setDport hP))) hP

theorem Touches.feedRetry {n : Nat} : P (s.feedRetry n) :=
  pres_cond hP (fun _ h1 => C.showFeed (C.setDport h1))

/-! ### Machine/Pack.lean -/

omit C in
theorem pres_onPack {p : Nat} {f : State → State} (hf : ∀ t, P t → P (f t)) : P (s.onPack p f) :=
  pres_ite (hf _ hP) hP

theorem Touches.packEvent {p k : Nat} : P (s.packEvent p k) :=
  C.vendor hP

theorem Touches.insertPack {p : Nat} : P (s.insertPack p) :=
  pres_ite hP (pres_cond (C.packEvent (C.wr (C.wr (C.wr (C.showDisagree (C.setPack hP)))))) (fun _ h1 => C.setCond h1))

theorem Touches.selectLearnt {p serial : Nat} : P (s.selectLearnt p serial) := by
  unfold State.selectLearnt
  dsimp only
  split
  · exact C.wr (C.wr (C.wr (C.wr (C.wr (C.wr hP)))))
  · exact C.setPack (C.wr (C.wr (C.wr (C.wr (C.wr (C.wr hP))))))
  · exact C.setPack (C.wr (C.wr (C.wr (C.wr (C.wr (C.wr hP))))))

theorem Touches.identify {p : Nat} {answered : Bool} {serial chem : Nat} {cells4 : Bool} (htrack : W .track) :
    P (s.identify p answered serial chem cells4) :=
  pres_ite hP (pres_ite
    (C.chargeCheck (C.startAuth (C.wr (C.selectLearnt hP))) htrack)
    (C.packEvent (C.detect (C.chargeStop (C.uncount (C.wr (pres_cond hP (fun _ h1 => C.wr h1)))) htrack))))

theorem Touches.packGone {p : Nat} (htrack : W .track) : P (s.packGone p) :=
  pres_ite hP (pres_cond (C.setCond (C.packEvent (C.gaugeShow (C.removePack hP htrack)))) (fun _ h1 => C.kilnCut h1))

theorem Touches.authPass {p : Nat} : P (s.authPass p) :=
  C.packJudge (pres_cond (C.wr (C.wr (C.setPack hP))) (fun _ h1 => C.packEvent (C.wr h1)))

theorem Touches.authFail {p : Nat} : P (s.authFail p) :=
  pres_cond
    (C.packJudge (pres_cond (C.packEvent (C.detect (C.wr (C.wr (C.setPack hP))))) (fun _ h1 => C.wr h1)))
    (fun _ h1 => C.replacePack h1)

theorem Touches.authResponse {p : Nat} {answer : Option Nat} : P (s.authResponse p answer) :=
  pres_ite hP (pres_ite (C.authPass hP) (pres_ite (C.authFail (C.inc hP)) (C.setPack (C.inc hP))))

theorem Touches.authRetry {p : Nat} : P (s.authRetry p) :=
  pres_cond hP (fun _ h1 => C.sendChallenge h1)

theorem Touches.authRun {who : Requester} {p : Nat} {daily : Bool} : P (s.authRun who p daily) :=
  pres_ite
    (pres_cond hP (fun _ h1 => C.startAuth h1))
    (C.command hP (fun _ h1 => C.wr (pres_cond h1 (fun _ h2 => C.startAuth h2))))

theorem Touches.learnCap {p mid : Nat} : P (s.learnCap p mid) := by
  unfold State.learnCap
  dsimp only
  split
  · exact hP
  · exact pres_ite hP (pres_cond (C.wr (C.inc (C.wr hP))) (fun _ h1 => C.replacePack h1))

theorem Touches.atRest {p lo hi : Nat} : P (s.atRest p lo hi) := by
  unfold State.atRest
  extract_lets cap before v lo hi _ s1 s2 mid s3 s4 _ s5
  have hfirst : P s2 := pres_cond (C.setPack (C.wr (C.wr hP))) (fun _ h1 => C.setPack (C.wr (C.wr h1)))
  have hlearnt : P s5 := C.setPack (C.wr (C.wr (C.learnCap hfirst)))
  exact pres_ite hP (pres_ite (C.gaugeShow (C.packHours (C.ramp (C.showDisagree hlearnt)))) (C.gaugeShow hfirst))

theorem Touches.schedule {p : Nat} : P (s.schedule p) :=
  C.setPack hP

theorem Touches.disagree {p : Nat} : P (s.disagree p) :=
  pres_ite (C.gaugeShow (C.packHours (C.schedule (C.inc (C.detect (C.showDisagree (C.setPack (C.wr hP)))))))) hP

theorem Touches.noRest {p : Nat} (htrack : W .track) : P (s.noRest p) :=
  pres_ite hP (pres_ite
    (pres_ite hP (C.restCease (C.chargeCheck (C.chargeCheck (C.wr (C.setPack hP)) htrack) htrack)))
    (pres_ite hP (C.gaugeShow (C.detect (C.wr (C.setPack hP))))))

theorem Touches.startTest {p k ct : Nat} : P (s.startTest p k ct) :=
  pres_ite hP (C.armCdl (C.setPack hP))

theorem Touches.switchTest {p : Nat} : P (s.switchTest p) :=
  pres_cond hP (fun _ h1 => C.startTest h1)

theorem Touches.switchResult {p us : Nat} : P (s.switchResult p us) :=
  pres_ite
    (C.uncount (pres_cond (C.setPack (C.wr (C.wr hP))) (fun _ h1 => C.setCond h1)))
    (pres_cond (C.setPack (C.wr (C.wr hP))) (fun _ h1 => C.setCond h1))

theorem Touches.highZ {p : Nat} {on : Bool} : P (s.highZ p on) :=
  C.uncount (pres_cond (C.setPack hP) (fun _ h1 => C.setCond h1))

theorem Touches.pulseResult {p ma ri vFloor : Nat} : P (s.pulseResult p ma ri vFloor) :=
  pres_ite
    (pres_cond hP (fun _ h1 => C.highZ h1))
    (C.highZ (pres_cond
      (pres_cond (C.setPack hP) (fun _ h1 => pres_ite (C.setPack h1) (C.wr (C.setPack h1))))
      (fun _ h1 => C.inc h1)))

theorem Touches.testDone {p us ma ri vFloor : Nat} : P (s.testDone p us ma ri vFloor) := by
  unfold State.testDone
  dsimp only
  split
  · exact C.switchResult (C.disarmCdl (C.wr (C.setPack hP)))
  · exact C.pulseResult (C.disarmCdl (C.wr (C.setPack hP)))
  · exact pres_cond hP (fun _ h1 => C.disarmCdl (C.wr (C.setPack (C.setPack h1))))
  · exact hP

theorem Touches.dischargeTest {p : Nat} (htrack : W .track) : P (s.dischargeTest p) :=
  pres_ite (C.restCease (C.chargeCheck (C.chargeCheck (C.wr (C.setPack hP)) htrack) htrack)) (C.reject hP)

theorem Touches.chargerFault {p kind : Nat} (htrack : W .track) : P (s.chargerFault p kind) :=
  pres_cond hP (fun _ h1 => C.detect (C.chargeStop (C.setPack h1) htrack))

/-! ### Machine/Sequencer.lean -/

theorem Touches.seqDrop : P s.seqDrop :=
  C.other (C.seqAbandon hP)

theorem Touches.inputCollapse : P s.inputCollapse :=
  pres_ite hP (C.other (C.detect (C.inc (C.clrEnables (C.seqDrop hP)))))

theorem Touches.cutOff : P s.cutOff :=
  C.enterP4 (C.clrEnables (pres_foldl (C.other (C.seqDrop hP)) (fun _ _ h1 => C.clrEnables h1)))

theorem Touches.collapseOver : P s.collapseOver :=
  pres_ite hP (pres_cond (C.other hP) (fun _ h1 => C.cutOff h1))

theorem Touches.marginWrite {v : Nat} : P (s.marginWrite v) :=
  pres_ite (C.wr hP) (C.reject hP)

theorem Touches.marginStep : P s.marginStep :=
  C.showMargins (pres_each hP (fun _ _ h1 => pres_cond h1 (fun _ h2 => C.wr h2)))

theorem Touches.clearRail {i : Nat} : P (s.clearRail i) :=
  pres_each hP (fun _ _ h1 => C.wr h1)

theorem Touches.clearCounts {f : State → State} (hf : ∀ t, P t → P (f t)) : P (s.clearCounts f) :=
  pres_ite (hf _ hP) (C.reject hP)

theorem Touches.sqpNext : P s.sqpNext :=
  C.wr hP

theorem Touches.sqpData {who : Requester} {write : Option Nat} : P (s.sqpData who write) := by
  unfold State.sqpData
  split
  · exact pres_ite (C.sqpNext (C.giveReg hP)) (pres_cond hP (fun _ h1 => C.giveReg h1))
  · exact C.under hP (fun _ h1 => pres_ite (C.reject h1) (C.sqpNext (C.other h1)))

theorem Touches.pressLog {k : Nat} : P (s.pressLog k) :=
  C.tlog hP

theorem Touches.press4 : P s.press4 :=
  pres_ite hP (pres_ite
    (C.pressLog (C.inc (C.wr (C.other hP))))
    (pres_ite
      (C.inc (C.pressLog (C.inc (C.wr (C.other hP)))))
      (pres_ite
        (C.fireTrigger (C.pressLog (C.inc (C.wr (C.other hP)))))
        (C.warning (C.pressLog (C.inc (C.wr (C.other hP))))))))

theorem Touches.forceOff : P s.forceOff :=
  pres_ite hP (pres_ite
    (C.wr (C.other (C.openPaths (C.other (C.other (C.detect (C.pressLog (C.inc (C.wr (C.other hP))))))))))
    (C.cutOff (C.other (C.other (C.detect (C.pressLog (C.inc (C.wr (C.other hP)))))))))

/-! ### Machine/PowerStates.lean -/

theorem Touches.restSelect {p1 p2 : Bool} : P (s.restSelect p1 p2) :=
  pres_ite
    (C.showRest (C.other hP))
    (pres_ite
      (C.restEnter (C.showRest (C.other hP)))
      (pres_ite (C.restEnter (C.showRest (C.other hP))) (C.showRest (C.other hP))))

theorem Touches.restLeft {us : Nat} : P (s.restLeft us) :=
  pres_ite hP (pres_cond
    (pres_ite
      (C.wr (pres_cond (C.other hP) (fun _ h1 => C.ranksActive h1)))
      (C.wr (pres_cond (C.other hP) (fun _ h1 => C.ranksActive h1))))
    (fun _ h1 => C.detect h1))

theorem Touches.patrolBehind : P s.patrolBehind :=
  pres_ite (C.detect (C.other (C.restExit hP))) hP

theorem Touches.sntMaint {who : Requester} {f : State → State} (hf : ∀ t, P t → P (f t)) : P (s.sntMaint who f) :=
  C.under hP (fun _ h1 => pres_ite (hf _ h1) (C.reject h1))

theorem Touches.clearFails : P s.clearFails :=
  C.wr (C.wr hP)

theorem Touches.supplyChange {src : Nat} {on : Bool} : P (s.supplyChange src on) := by
  unfold State.supplyChange
  refine pres_ite hP ?_
  dsimp only
  split
  · exact pres_cond (C.other hP) (fun _ h1 => C.wr h1)
  · exact pres_ite
      (pres_cond (C.other hP) (fun _ h1 => C.wr h1))
      (C.showFeeds (pres_cond (C.inc (C.wr (pres_cond (C.other hP) (fun _ h1 => C.wr h1)))) (fun _ h1 => C.detect h1)))

theorem Touches.sntRecorded {old : State} : P (s.sntRecorded old) :=
  C.wr (C.wr (C.wr hP))

theorem Touches.islandOn (hdram : W .dram) : P s.islandOn := by
  unfold State.islandOn
  extract_lets old s1 s2 s3 _ _ s4 s5 _ s6 _ _ s7 _ s8 s9 _
  have hsnt : P s3 := C.wr (C.wr (C.sntRecorded (C.other hP)))
  have hseq : P s5 := C.wr (C.seqDrop (C.other hsnt))
  have hmem : P s7 := C.setDram (C.other hseq) hdram
  have hoff : P s9 := C.hrOff (C.coreOff (C.openPaths (C.other hmem)))
  exact pres_cond (C.wr (C.wr (C.other hoff))) (fun _ h1 => C.wr (C.wr h1))

/-! ### Machine/Reaction.lean -/

theorem Touches.clearLatches {src : Nat} : P (s.clearLatches src) :=
  pres_each hP (fun _ _ h1 => C.setBit h1)

theorem Touches.quietOver : P s.quietOver :=
  pres_ite hP (C.notice (C.inc (C.wr (C.other (pres_foldl hP (fun _ _ h1 => C.clearLatches h1))))))

theorem Touches.eventRelease {src : Nat} : P (s.eventRelease src) :=
  C.other hP

theorem Touches.errnRead {low : Bool} : P (s.errnRead low) :=
  pres_cond (pres_cond (C.other (C.wr hP)) (fun _ h1 => C.wr h1)) (fun _ h1 => C.detect h1)

theorem Touches.rearm : P s.rearm :=
  C.wr (C.other hP)

theorem Touches.injectLate {src inst : Nat} : P (s.injectLate src inst) :=
  pres_ite hP (C.detect (C.wr (C.wr (C.setBit (C.other hP)))))

theorem Touches.swapSlice {t k : Nat} : P (s.swapSlice t k) :=
  pres_ite hP (C.occur (C.tlog (C.inc (C.wr (C.wr (C.wr (C.wr (C.other hP))))))))

theorem Touches.cmpConds : P s.cmpConds :=
  pres_cond (pres_cond hP (fun _ h1 => C.setCond h1)) (fun _ h1 => C.setCond h1)

theorem Touches.testSlice {t k : Nat} {ok : Bool} : P (s.testSlice t k ok) := by
  unfold State.testSlice
  extract_lets s1 s2 s3
  have hcounted : P s2 := pres_ite (C.inc (C.setBit (C.setBit hP))) (C.inc (C.setBit (C.setBit hP)))
  have htested : P s3 := pres_cond hcounted (fun _ h1 => C.detect h1)
  refine pres_ite ?_ htested
  split
  · exact C.swapSlice htested
  · exact htested

theorem Touches.compareTest {ok okOther : Bool} : P (s.compareTest ok okOther) :=
  C.cmpConds (C.other (C.testSlice (C.testSlice (pres_foldl hP (fun _ _ h1 => pres_cond h1 (fun _ h2 => C.injSeen h2))))))

/-! ### Machine/Calibration.lean -/

theorem Touches.calTrigger : P s.calTrigger :=
  pres_ite hP (pres_ite (C.other hP) (C.calBegin hP))

theorem Touches.calRun {who : Option Requester} : P (s.calRun who) := by
  unfold State.calRun
  split
  · exact C.command hP (fun _ h1 => C.calTrigger (C.wr h1))
  · exact pres_cond hP (fun _ h1 => C.calTrigger h1)

theorem Touches.calTemp : P s.calTemp :=
  pres_cond hP (fun _ h1 => C.calTrigger h1)

theorem Touches.adcResult {a : Nat} {gain ofs : ℤ} : P (s.adcResult a gain ofs) :=
  pres_ite (C.detect (C.other (C.wr (C.wr (C.wr hP))))) (C.other hP)

theorem Touches.selectSlice {t : Nat} : P (s.selectSlice t) := by
  unfold State.selectSlice
  dsimp only
  split
  · exact hP
  · exact pres_ite (pres_cond hP (fun _ h1 => C.swapSlice h1)) (C.detect (C.wr (C.other (C.swapSlice hP))))

theorem Touches.measureSlices {trips : List (Nat × Nat × ℤ)} {again : List (Nat × Nat)} : P (s.measureSlices trips again) :=
  C.cmpConds (pres_each
    (pres_foldl
      (pres_foldl hP (fun _ _ h1 => pres_cond h1 (fun _ h2 => C.setBit (C.setBit h2))))
      (fun _ _ h1 => pres_cond h1 (fun _ h2 => C.wr h2)))
    (fun _ _ h1 => C.selectSlice h1))

theorem Touches.storeCal : P s.storeCal :=
  C.other hP

theorem Touches.calEnd : P s.calEnd :=
  C.storeCal (C.wr (C.wr (C.wr (C.wr (C.wr (pres_cond (C.inc (C.wr (C.wr hP))) (fun _ h1 => C.inc h1)))))))

theorem Touches.adcDone {gain ofs : ℤ} {trips : List (Nat × Nat × ℤ)} {again : List (Nat × Nat)} :
    P (s.adcDone gain ofs trips again) :=
  pres_ite (pres_ite (C.wr (C.adcResult hP)) (C.calEnd (C.measureSlices (C.adcResult hP)))) hP

theorem Touches.moduleCal {uv : Nat} (hflash : W .flash) : P (s.moduleCal uv) :=
  pres_ite (C.reject hP) (pres_ite (C.reject hP) (C.wr (C.wr (C.wr (C.setFlash hP hflash)))))

theorem Touches.vrefCheck {uv : Nat} : P (s.vrefCheck uv) :=
  pres_ite hP (pres_ite (C.other hP) (pres_ite (C.calTrigger (C.other (C.wr hP))) (C.detect (C.wr hP))))

theorem Touches.vrefResume : P s.vrefResume := by
  unfold State.vrefResume
  split
  · exact pres_ite hP (C.vrefCheck (C.other hP))
  · exact hP

theorem Touches.clockBad {d : Nat} : P (s.clockBad d) :=
  pres_ite hP (pres_foldl (C.other hP) (fun _ _ h1 => C.setCond h1))

theorem Touches.clockGood {d : Nat} : P (s.clockGood d) :=
  pres_ite (pres_foldl (C.other hP) (fun _ _ h1 => C.setCond h1)) hP

/-! ### Machine/Keep.lean -/

theorem Touches.remark {g : Nat} : P (s.remark g) :=
  C.other hP

theorem Touches.steepLine {r : Nat} : P (s.steepLine r) :=
  C.detect (C.showSteep (C.other (pres_foldl hP (fun _ _ h1 => C.remark h1))))

theorem Touches.maskLost {g : Nat} (hdram : W .dram) : P (s.maskLost g) :=
  C.maskAll (pres_foldl hP (fun _ _ h1 => pres_cond h1 (fun _ h2 => C.setPoison h2 hdram)))

theorem Touches.maskTableLine {n : Nat} (hdram : W .dram) : P (s.maskTableLine n) :=
  C.detect (pres_foldl hP (fun _ _ h1 => C.maskLost h1 hdram))

theorem Touches.heatLine {n : Nat} (hdirty : W .dirty) : P (s.heatLine n) :=
  C.detect (C.setDirty hP hdirty)

theorem Touches.debtLine {t n : Nat} : P (s.debtLine t n) :=
  pres_foldl hP (fun _ _ h1 => C.setDebt h1)

theorem Touches.mapLine {n : Nat} (hdirty : W .dirty) (hcellar : W .cellar) : P (s.mapLine n) :=
  C.setCond (pres_foldl hP (fun _ _ h1 => C.unreadable h1 hdirty hcellar))

theorem Touches.dirLine {n : Nat} (hdirty : W .dirty) (hcellar : W .cellar) : P (s.dirLine n) :=
  C.setCond (pres_foldl hP (fun _ _ h1 => C.pageLost h1 hdirty hcellar))

theorem Touches.keepUe {g l : Nat} (hdram : W .dram) (hdirty : W .dirty) (hcellar : W .cellar) : P (s.keepUe g l) := by
  unfold State.keepUe
  dsimp only
  split
  · exact C.mapLine hP hdirty hcellar
  · exact C.dirLine hP hdirty hcellar
  · exact pres_cond hP (fun _ h1 => C.bitmapUe h1 hdirty)
  · exact pres_cond hP (fun _ h1 => C.steepLine h1)
  · exact C.heatLine hP hdirty
  · exact C.maskTableLine hP hdram
  · exact C.debtLine hP
  · exact C.debtLine hP
  · exact C.dmaFails hP
  · exact hP

theorem Touches.patrolRead {e : Nat × Ecc} (hdram : W .dram) (hdirty : W .dirty) (hcellar : W .cellar) :
    P (s.patrolRead e) := by
  unfold State.patrolRead
  refine pres_ite (C.patrolLine hP hdram) ?_
  split
  · exact hP
  · exact C.corrected hP hdram
  · exact C.keepUe (C.recordUe hP hdram) hdram hdirty hcellar

theorem Touches.patrol {c : Nat} {found : List (Nat × Ecc)} (hdram : W .dram) (hdirty : W .dirty) (hcellar : W .cellar) :
    P (s.patrol c found) := by
  unfold State.patrol
  extract_lets n s1 all pos s2 _ s3 _ s4
  have hread : P s2 := pres_foldl (C.wr hP) (fun _ _ h1 => C.patrolRead h1 hdram hdirty hcellar)
  have hstepped : P s4 :=
    pres_ite (C.wr (C.bump (C.setDram (C.setDram hread hdram) hdram))) (C.wr (C.setDram hread hdram))
  exact pres_ite (C.wr hP) (pres_cond hstepped (fun _ h1 => C.other h1))

/-! ### Machine/PageRegs.lean -/

theorem Touches.followBulk : P s.followBulk :=
  pres_ite (C.bulkBegin hP) (pres_ite (C.wr (C.wr hP)) hP)

theorem Touches.followDlp {old : State} {n : Nat} {tx : Bool} : P (s.followDlp old n tx) := by
  unfold State.followDlp
  exact pres_cond
    (pres_cond (C.showFeed (pres_cond hP (fun _ h1 => C.setDport h1))) (fun _ h1 => C.portFall h1))
    (fun _ h1 => C.adjacency (C.wr h1))

theorem Touches.follow {old : State} {page off bits : Nat} (hbudget : W .budget) (htrack : W .track) :
    P (s.follow old page off bits) :=
  pres_ite (C.dirtyLoad hP) (pres_ite
    (pres_cond hP (fun _ h1 => C.wearAllow h1 hbudget))
    (pres_ite
      (C.followBulk hP)
      (pres_ite
        (C.wr (pres_cond hP (fun _ h1 => C.warning h1)))
        (pres_ite (C.showPool hP) (pres_ite
          (C.armComparators hP)
          (pres_ite
            (pres_cond (C.showColl (C.showRoute hP)) (fun _ h1 => C.announce h1))
            (pres_ite (C.followDlp hP) (pres_ite (C.gaugeShow hP) (pres_ite
              (C.chargeCheck (pres_cond hP (fun _ h1 => C.setPack h1)) htrack)
              (pres_ite
                (pres_cond hP (fun _ h1 => C.setSource h1 htrack))
                (pres_ite (C.showTlog hP) (pres_ite (C.showRec hP) (pres_ite (C.showRest hP) hP)))))))))))))

theorem Touches.applyWaiting {page : Nat} {p : WriteRow → Bool} : P (s.applyWaiting page p) :=
  pres_foldl hP (fun _ _ h1 => C.other (C.wr h1))

theorem Touches.dropWaiting {page : Nat} {p : WriteRow → Bool} : P (s.dropWaiting page p) :=
  pres_foldl hP (fun _ _ h1 => C.other h1)

theorem Touches.retarget {t eui gen : Nat} {had : RSet} : P (s.retarget t eui gen had) := by
  unfold State.retarget
  extract_lets now s1 s2 _ s3 gone s4 s5
  have hleft : P s2 := pres_cond (C.setDebt (C.abandonSends hP)) (fun _ h1 => C.rackTo h1)
  have hnew : P s3 := pres_ite (C.other hleft) (C.other hleft)
  have howed : P s5 := C.setSends (C.setDebt hP)
  exact pres_ite
    (pres_ite (C.rackSettle (C.wr (C.setDebt hnew))) (C.openTarget hnew))
    (pres_ite hP (pres_ite (C.openTarget howed) (C.rackSettle howed)))

theorem Touches.commitRanges : P s.commitRanges :=
  pres_ite (C.detect (C.reject (C.dropWaiting hP))) (C.retarget (C.retarget (C.applyWaiting hP)))

theorem Touches.commitZones (hcellar : W .cellar) : P s.commitZones :=
  pres_ite
    (C.applyWaiting hP)
    (pres_ite
      (C.detect (C.reject (C.dropWaiting hP)))
      (C.showImage (C.showZ (C.resizeGo (C.wr (C.setCellar (C.setCellar (C.applyWaiting hP) hcellar) hcellar)) hcellar))))

theorem Touches.commitStore : P s.commitStore :=
  pres_ite
    (C.detect (C.reject hP))
    (C.inc (C.wr (pres_each (C.other (C.applyWaiting hP)) (fun _ _ h1 => C.wr (C.setBit (C.setBit h1))))))

theorem Touches.commitPage {page : Nat} (hcellar : W .cellar) : P (s.commitPage page) :=
  pres_ite
    (C.commitRanges (C.wr hP))
    (pres_ite (C.commitZones (C.wr hP) hcellar) (pres_ite (C.commitStore (C.wr hP)) (C.applyWaiting (C.wr hP))))

theorem Touches.safePoint {page : Nat} (hcellar : W .cellar) (hbudget : W .budget) (htrack : W .track) :
    P (s.safePoint page) :=
  C.follow (pres_cond (C.applyWaiting hP) (fun _ h1 => C.commitPage h1 hcellar)) hbudget htrack

/-! ### Machine/Pages.lean -/

theorem Touches.seen {page : Nat} : P (s.seen page) :=
  pres_ite (C.other hP) hP

theorem Touches.pairRead {who : Requester} {n : Nat} {lo high : Bool} {v hi : Nat} : P (s.pairRead who n lo high v hi).2 := by
  unfold State.pairRead
  refine pres_ite_snd (C.other hP) (pres_ite_snd ?_ hP)
  split
  · exact hP
  · exact C.other hP

theorem Touches.readBy {who : Requester} {off size base : Nat} {word : Nat → Nat} {lo : Nat → Bool} :
    P (s.readBy who off size base word lo) := by
  unfold State.readBy
  split
  · exact C.giveReg hP
  · exact C.giveReg (C.pairRead hP)
  · exact C.giveReg (C.takeFree hP)

theorem Touches.pageRead {who : Requester} {page off size : Nat} : P (s.pageRead who page off size) :=
  pres_ite hP
    (pres_ite (C.giveReg hP) (pres_cond (C.readBy (pres_cond hP (fun _ h1 => C.showRest h1))) (fun _ h1 => C.sqpNext h1)))

theorem Touches.barRead {who : Requester} {p size : Nat} {a : Place} : P (s.barRead who p size a) := by
  unfold State.barRead
  refine pres_ite hP ?_
  split
  · exact C.pageRead hP
  · exact pres_ite (C.giveReg hP) (C.readBy hP)
  · exact pres_ite (C.giveReg hP) (C.readBy hP)
  · exact C.readBy hP
  · exact C.readBy hP
  · exact C.giveReg hP

theorem Touches.readReg {who : Requester} {a : RegAddr} {size : Nat} : P (s.readReg who a size) := by
  unfold State.readReg
  split
  · exact C.barRead hP
  · split
    · exact C.pageRead hP
    · exact hP
    · exact hP
    · exact hP
    · exact hP
    · exact hP

theorem Touches.commitWrite {page : Nat} (hcellar : W .cellar) (hbudget : W .budget) (htrack : W .track) :
    P (s.commitWrite page) :=
  pres_ite hP (pres_cond (C.wr hP) (fun _ h1 => C.safePoint h1 hcellar hbudget htrack))

theorem Touches.linkTrained {p width rate : Nat} {flit256 cxl : Bool} {corr replay : Nat} {bad : Bool}
    (hcellar : W .cellar) (hbudget : W .budget) (htrack : W .track) :
    P (s.linkTrained p width rate flit256 cxl corr replay bad) :=
  pres_ite (C.healthNote (pres_cond
    (C.wr (C.wr (C.wr (C.wr (C.wr (C.setHost (pres_cond
      (pres_cond
        (C.addSat (C.addSat (pres_cond hP (fun _ h1 => C.safePoint h1 hcellar hbudget htrack))))
        (fun _ h1 => C.detect h1))
      (fun _ h1 => C.inc h1))))))))
    (fun _ h1 => C.detect h1))) hP

theorem Touches.dlpOff {n : Nat} : P (s.dlpOff n) :=
  C.showFeed (C.portFall hP)

theorem Touches.disableQueues : P s.disableQueues :=
  pres_foldl hP (fun _ _ h1 => C.disableQueue h1)

theorem Touches.haltBlock {page : Nat} (hcellar : W .cellar) : P (s.haltBlock page) :=
  pres_ite (C.linkDown hP) (pres_ite
    (pres_cond hP (fun _ h1 => C.wr h1))
    (pres_ite
      (pres_cond hP (fun _ h1 => C.wr h1))
      (pres_ite
        (C.killChannel hP hcellar)
        (pres_ite (C.disableQueues hP) (pres_ite (C.dlpOff hP) (pres_ite (C.abandonSends (C.abandonSends hP)) hP))))))

theorem Touches.startBlock {page : Nat} : P (s.startBlock page) :=
  pres_ite
    (pres_cond hP (fun _ h1 => C.wr h1))
    (pres_ite (pres_cond hP (fun _ h1 => C.wr h1)) (pres_ite (C.showFeed (pres_cond hP (fun _ h1 => C.wr h1))) hP))

theorem Touches.fieldsReset {page : Nat} : P (s.fieldsReset page) :=
  C.other hP

theorem Touches.blockReset {page : Nat} (hdram : W .dram) (hdirty : W .dirty) (hbudget : W .budget) :
    P (s.blockReset page) :=
  pres_ite (C.resetPort hP) (pres_ite
    (C.setDram hP hdram)
    (pres_ite
      (C.showInflight (C.setDirtyBudget hP hdirty hbudget))
      (pres_ite
        (pres_each (C.other hP) (fun _ _ h1 => pres_cond h1 (fun _ h2 => C.openTarget h2)))
        (pres_ite
          (C.showQueues (C.other (C.disableQueues hP)))
          (pres_ite
            (C.guestsFollow (C.followRoutes (C.showColl (C.showRoute (C.showDb (C.wr (C.other hP)))))))
            (pres_ite (pres_cond hP (fun _ h1 => C.freeLock (C.wr h1))) hP))))))

theorem Touches.resetNow {page : Nat} (hdram : W .dram) (hdirty : W .dirty) (hcellar : W .cellar)
    (hbudget : W .budget) (htrack : W .track) :
    P (s.resetNow page) :=
  pres_cond
    (C.follow (pres_cond
      (C.wr (C.wr (C.wr (C.wr (C.wr (C.dropStaged (C.blockReset
        (C.fieldsReset (pres_cond hP (fun _ h1 => C.haltBlock h1 hcellar))) hdram hdirty hbudget)))))))
      (fun _ h1 => C.startBlock h1)) hbudget htrack)
    (fun _ h1 => C.firstClaim h1)

theorem Touches.softReset {page : Nat} (hdram : W .dram) (hdirty : W .dirty) (hcellar : W .cellar)
    (hbudget : W .budget) (htrack : W .track) :
    P (s.softReset page) :=
  pres_ite (C.reject hP)
    (pres_ite (C.wr (C.wr (C.dropStaged hP))) (C.resetNow (C.wr (C.dropStaged hP)) hdram hdirty hcellar hbudget htrack))

theorem Touches.safePointReached {page : Nat} (hdram : W .dram) (hdirty : W .dirty) (hcellar : W .cellar)
    (hbudget : W .budget) (htrack : W .track) :
    P (s.safePointReached page) :=
  pres_ite hP
    (pres_ite (C.resetNow hP hdram hdirty hcellar hbudget htrack) (pres_ite hP (C.safePoint hP hcellar hbudget htrack)))

theorem Touches.enableClear {page : Nat} : P (s.enableClear page) :=
  pres_ite hP (pres_ite (C.reject hP) (pres_ite (C.disableQueues (C.wr hP)) (pres_ite (C.dlpOff (C.wr hP)) (C.wr hP))))

theorem Touches.blockHalt {page : Nat} (hdram : W .dram) (hdirty : W .dirty) (hcellar : W .cellar)
    (hbudget : W .budget) (htrack : W .track) :
    P (s.blockHalt page) :=
  pres_ite hP (pres_ite
    (C.resetNow (C.wr (C.haltBlock hP hcellar)) hdram hdirty hcellar hbudget htrack)
    (pres_cond (C.wr (C.haltBlock hP hcellar)) (fun _ h1 => C.safePoint h1 hcellar hbudget htrack)))

theorem Touches.enableSet {page : Nat} : P (s.enableSet page) :=
  pres_ite (C.wr hP) (pres_cond (C.wr (C.wr hP)) (fun _ h1 => C.startBlock h1))

theorem Touches.fltClear {page mask : Nat} : P (s.fltClear page mask) :=
  C.wr hP

theorem Touches.inject {page bit : Nat} {seen : Bool} : P (s.inject page bit seen) := by
  unfold State.inject
  split
  · exact hP
  · exact pres_ite hP (pres_ite (C.reject (C.setBit hP)) (pres_ite (C.injSeen hP) (pres_ite hP (C.setBit (C.other hP)))))

theorem Touches.newNonce : P s.newNonce :=
  C.wr (C.takeFree hP)

theorem Touches.maintLog {on : Nat} : P (s.maintLog on) :=
  C.tlog hP

theorem Touches.maintClose : P s.maintClose :=
  pres_ite (C.maintLog (C.easeMargins (C.other hP))) hP

theorem Touches.unlock {strap : Bool} {v : Nat} : P (s.unlock strap v) :=
  pres_ite
    (C.newNonce (C.maintClose (C.other hP)))
    (pres_ite
      (C.newNonce (C.notice (C.other hP)))
      (pres_ite
        (C.newNonce (C.other hP))
        (pres_ite
          (C.newNonce (pres_cond (C.other hP) (fun _ h1 => C.maintLog (C.other h1))))
          (C.newNonce (C.warning (C.other (C.other hP)))))))

theorem Touches.unlockWrite {who : Requester} {strap : Bool} {v : Nat} : P (s.unlockWrite who strap v) := by
  unfold State.unlockWrite
  split
  · exact C.under hP (fun _ h1 => h1)
  · exact C.under hP (fun _ h1 => h1)
  · exact pres_ite (C.unlock hP) hP

/-! ### Machine/Records.lean -/

theorem Touches.rateSummary : P s.rateSummary :=
  pres_foldl (C.other hP) (fun _ _ h1 => C.appendTlog h1)

theorem Touches.tlgClear : P s.tlgClear :=
  pres_ite (C.detect (C.notice (C.showTlog (C.other hP)))) (C.reject hP)

theorem Touches.recClearWrite : P s.recClearWrite :=
  pres_ite (pres_ite (C.wr (C.other hP)) (C.recClear hP)) (C.reject hP)

theorem Touches.recFlush : P s.recFlush :=
  pres_ite hP (C.flushStart hP)

theorem Touches.recFlushBy {who : Option Requester} : P (s.recFlushBy who) := by
  unfold State.recFlushBy
  split
  · exact C.command hP (fun _ h1 => C.recFlush (C.wr h1))
  · exact pres_cond hP (fun _ h1 => C.recFlush h1)

end

end Sys2Proof.Machine
end

section
/-!
PROOFS. Proofs/StoreWriters.lean: the commands that write each store, and the frame of the rest (O7).
-/

namespace Sys2Proof.Machine

/-- `P` holds of the state that the command went on with, where it did. -/
def AfterNext (P : State → Prop) : Host.Outcome State Fault Refusal → Prop
  | .next t => P t
  | .fault _ => True
  | .refused _ => True

theorem afterNext_ite {P : State → Prop} {c : Prop} [Decidable c] {a b : Host.Outcome State Fault Refusal}
    (ha : AfterNext P a) (hb : AfterNext P b) : AfterNext P (if c then a else b) := by
  split <;> assumption

/-- The stores that a command may write beside the starts, as `Instr.writesDram` and the five beside it say. -/
def storesOf (c : Sys2Proof.Instr) : Store → Bool
  | .dram => c.writesDram
  | .dirty => c.writesDirty
  | .cellar => c.writesCellar
  | .flash => c.writesFlash
  | .budget => c.writesBudget
  | .track => c.writesTrack

/-- Where every store may be written, `P` survives every change of the state that leaves its variant and its queue alone. -/
theorem Touches.stable {W : Store → Prop} {P : State → Prop} (C : Touches W P) (hW : ∀ p, W p) : Stable P where
  same _ _ _ _ _ _ _ _ _ _ _ :=
    C.set (.inr (hW _)) (.inr (hW _)) (.inr (hW _)) (.inr (hW _)) (.inr (hW _)) (.inr (hW _))

theorem Touches.afterNext_exec_of_all {W : Store → Prop} {P : State → Prop} {s : State} (C : Touches W P) (hP : P s)
    {c : Sys2Proof.Instr} (hall : ∀ p, storesOf c p = true) (hw : ∀ p, storesOf c p = true → W p) :
    AfterNext P (exec c s) := by
  have hstable : Stable P := C.stable (fun p => hw p (hall p))
  cases h : exec c s with
  | next t => exact exec_stable hstable hP h
  | fault _ => trivial
  | refused _ => trivial

/-- A command that begins no start changes only what an operation can change that writes the stores of the command: seven
commands may write every store, and each other one is a composition of operations (Proofs/StoreOps.lean). -/
theorem Touches.afterNext_exec {W : Store → Prop} {P : State → Prop} {s : State} (C : Touches W P) (hP : P s)
    {c : Sys2Proof.Instr} (hb : c.begins = false) (hw : ∀ p, storesOf c p = true → W p) :
    AfterNext P (exec c s) := by
  have hdram := hw .dram
  have hdirty := hw .dirty
  have hcellar := hw .cellar
  have hflash := hw .flash
  have hbudget := hw .budget
  have htrack := hw .track
  cases c with
  | acceptedCrossing | placedFallingCrossing | pseudoHalfCycleEnd | missingHalfCycle | scheduledEventFire |
  chargeDeadlineFire | chargeDeadlineArm | kilnPowerDownDone | mainInStable | packetRx | seqProgramStart |
  seqWaitDone | seqCheckDone | seqCheckTimeout | syncAdvance | syncTimeout | mrNPressRelease | perstWake | timerWake |
  startRetry | clearRecovery | verifyDone =>
    cases hb
  | registerWrite | bootStepDone | reactionDone | lockstepMismatch | watchdogExpiry | handoverRunning | handoverFail =>
    exact C.afterNext_exec_of_all hP (fun p => by cases p <;> rfl) hw
  | rejectedCrossing => exact C.finish (C.inc (C.begin hP))
  | lockLost => exact C.finish (C.loseLock (C.begin hP) (htrack rfl))
  | puAdvance => exact C.finish (C.puStep (C.begin hP))
  | acOkLowTimeout => exact C.finish (C.acOkLow (C.begin hP) (htrack rfl))
  | acOkHighTimeout => exact C.finish (C.acOkHigh (C.begin hP) (htrack rfl))
  | conversionFrame => exact C.finish (C.frame (C.begin hP) (htrack rfl))
  | gaugePathImplausible => exact C.finish (C.gaugeBad (C.begin hP) (htrack rfl))
  | gaugePathPlausible => exact C.finish (C.gaugeGood (C.begin hP) (htrack rfl))
  | opsecTick => exact C.finish (C.second (C.begin hP) (hcellar rfl))
  | readLoLatch => exact C.finish (C.readReg (C.begin hP))
  | commit =>
    exact C.finish (C.command (C.begin hP) (fun _ h1 => C.commitWrite h1 (hcellar rfl) (hbudget rfl) (htrack rfl)))
  | safePointCommitApply =>
    exact C.finish (C.safePointReached (C.begin hP) (hdram rfl) (hdirty rfl) (hcellar rfl) (hbudget rfl) (htrack rfl))
  | softReset =>
    exact C.finish (C.command (C.begin hP) (fun _ h1 => C.softReset h1 (hdram rfl) (hdirty rfl) (hcellar rfl)
      (hbudget rfl) (htrack rfl)))
  | enableClear => exact C.finish (C.command (C.begin hP) (fun _ h1 => C.enableClear h1))
  | blockHalt =>
    exact C.finish (C.blockHalt (C.begin hP) (hdram rfl) (hdirty rfl) (hcellar rfl) (hbudget rfl) (htrack rfl))
  | enableSet => exact C.finish (C.command (C.begin hP) (fun _ h1 => C.enableSet h1))
  | fltStatClear => exact C.finish (C.under (C.begin hP) (fun _ h1 => C.fltClear h1))
  | faultInject => exact C.finish (C.under (C.begin hP) (fun _ h1 => C.inject h1))
  | pageLock => exact C.finish (C.under (C.begin hP) (fun _ h1 => C.wr h1))
  | maintUnlock => exact C.finish (C.unlockWrite (C.begin hP))
  | maintIdleTimeout => exact C.finish (C.maintClose (C.begin hP))
  | maintStrapLow => exact C.finish (C.maintClose (C.other (C.begin hP)))
  | hostWrite =>
    have hserved (p load : Nat) : P ((s.begin.devLoad p load).noQuiet.restExit) :=
      C.restExit (C.noQuiet (C.devLoad (C.begin hP)))
    exact afterNext_ite (C.finish (C.begin hP)) (afterNext_ite (C.finish (C.respond (hserved _ _))) (afterNext_ite trivial
      (C.finish (C.access (hserved _ _) (hdram rfl) (fun _ h1 => C.hostWrite h1 (hdram rfl) (hdirty rfl))))))
  | hostRead =>
    have hserved (p load : Nat) : P ((s.begin.devLoad p load).noQuiet.restExit) :=
      C.restExit (C.noQuiet (C.devLoad (C.begin hP)))
    exact afterNext_ite (C.finish (C.begin hP)) (afterNext_ite (C.finish (C.respond (hserved _ _))) (afterNext_ite trivial
      (C.finish (C.access (hserved _ _) (hdram rfl) (fun _ h1 => C.hostRead h1 (hdram rfl))))))
  | linkTrained => exact C.finish (C.linkTrained (C.begin hP) (hcellar rfl) (hbudget rfl) (htrack rfl))
  | portReset => exact C.finish (C.portReset (C.begin hP))
  | linkDown => exact C.finish (C.linkDown (C.begin hP))
  | decoderCommit => exact C.finish (C.decoderCommit (C.restExit (C.begin hP)))
  | gpfPhase1 => exact C.finish (pres_cond (C.begin hP) (fun _ h1 => C.send (C.restExit h1)))
  | gpfPhase2Request => exact C.finish (pres_cond (C.begin hP) (fun _ h1 => C.gpfRequest (C.restExit h1) (hdram rfl)))
  | gpfPhase2Done => exact C.finish (C.gpfDone (C.begin hP))
  | gpfWindowExpired => exact C.finish (C.gpfLate (C.begin hP))
  | mailboxTimeout => exact C.finish (C.mboxLate (C.begin hP))
  | identify => exact C.finish (C.mboxRead (C.begin hP))
  | getHealthInfo => exact C.finish (C.mboxRead (C.begin hP))
  | getEventRecords => exact C.finish (C.mboxRead (C.begin hP))
  | clearEventRecords => exact C.finish (C.mbox (C.begin hP) (fun _ h1 => C.clearEvents h1))
  | getSupportedLogs => exact C.finish (C.mbox (C.begin hP) (fun _ h1 => C.openReply h1))
  | getLog => exact C.finish (C.mbox (C.begin hP) (fun _ h1 => C.openReply h1))
  | getFwInfo => exact C.finish (C.mboxRead (C.begin hP))
  | getTimestamp => exact C.finish (C.mboxRead (C.begin hP))
  | setTimestamp => exact C.finish (C.mbox (C.begin hP) (fun _ h1 => C.setTime h1 (hcellar rfl)))
  | getAlertConfiguration => exact C.finish (C.mboxRead (C.begin hP))
  | setAlertConfiguration => exact C.finish (C.mbox (C.begin hP) (fun _ h1 => C.setAlert h1))
  | setShutdownState => exact C.finish (C.mbox (C.begin hP) (fun _ h1 => C.setShutdown h1))
  | scanMedia => exact C.finish (C.mbox (C.begin hP) (fun _ h1 => C.scanMedia h1 (hdram rfl)))
  | getPoisonList => exact C.finish (C.mboxRead (C.begin hP))
  | injectPoison => exact C.finish (C.mbox (C.begin hP) (fun _ h1 => C.mailWrite h1 (hdram rfl) (hdirty rfl)))
  | clearPoison => exact C.finish (C.mbox (C.begin hP) (fun _ h1 => C.mailWrite h1 (hdram rfl) (hdirty rfl)))
  | sanitize => exact C.finish (C.mbox (C.begin hP) (fun _ h1 => C.wipeStart h1))
  | secureErase => exact C.finish (C.mbox (C.begin hP) (fun _ h1 => C.wipeStart h1))
  | sanitizeComplete => exact C.finish (C.wipeDone (C.begin hP) (hdram rfl) (hdirty rfl) (hcellar rfl))
  | getCorirvoInfo => exact C.finish (C.mboxRead (C.begin hP))
  | getPersistenceReport => exact C.finish (C.mboxRead (C.begin hP))
  | setPartition => exact C.finish (C.mbox (C.begin hP) (fun _ h1 => C.setPartition h1))
  | plannedKiln => exact C.finish (C.mbox (C.begin hP) (fun _ h1 => C.plannedKiln h1))
  | caskUnlock => exact C.finish (C.mbox (C.begin hP) (fun _ h1 => C.caskUnlock h1 (hcellar rfl)))
  | setCaskHostKey => exact C.finish (C.mbox (C.begin hP) (fun _ h1 => C.setHostKey h1 (hcellar rfl)))
  | readTroubleLog => exact C.finish (C.mboxRead (C.tlogParity (C.begin hP)))
  | readEventRecorder => exact C.finish (C.mboxRead (C.begin hP))
  | rackExport => exact C.finish (C.mbox (C.begin hP) (fun _ h1 => C.rackExport h1))
  | brewTransfer => exact C.finish (C.updBox (C.begin hP) (fun _ h1 => C.brewBlock h1 (hflash rfl)))
  | updateStatus => exact C.finish (C.updBox (C.begin hP) (fun _ h1 => C.updStatus h1))
  | updateStart => exact C.finish (C.updBox (C.begin hP) (fun _ h1 => C.reply (C.updStart h1)))
  | updateActivate => exact C.finish (C.updBox (C.begin hP) (fun _ h1 => C.reply (C.activate h1)))
  | updateActivateAtReset =>
    exact C.finish (C.updBox (C.begin hP) (fun _ h1 => C.reply (C.activateReset h1 (hflash rfl))))
  | updateAbort => exact C.finish (C.updBox (C.begin hP) (fun _ h1 => C.reply (C.updAbort h1)))
  | transferFwInitiate => exact C.finish (C.updBox (C.begin hP) (fun _ h1 => C.reply (C.updStart h1)))
  | transferFwContinue => exact C.finish (C.updBox (C.begin hP) (fun _ h1 => C.reply (C.putBlock h1 (hflash rfl))))
  | transferFwEnd => exact C.finish (C.updBox (C.begin hP) (fun _ h1 => C.reply (C.updEnd h1)))
  | transferFwAbort => exact C.finish (C.updBox (C.begin hP) (fun _ h1 => C.reply (C.updAbort h1)))
  | transferFwFull => exact C.finish (C.updBox (C.begin hP) (fun _ h1 => C.reply (C.updFull h1 (hflash rfl))))
  | activateFwOnline => exact C.finish (C.updBox (C.begin hP) (fun _ h1 => C.reply (C.activate h1)))
  | activateFwReset => exact C.finish (C.updBox (C.begin hP) (fun _ h1 => C.reply (C.activateReset h1 (hflash rfl))))
  | patrolStep => exact C.finish (C.patrol (C.begin hP) (hdram rfl) (hdirty rfl) (hcellar rfl))
  | patrolOverdue => exact C.finish (C.patrolLate (C.begin hP))
  | retireCopyDone => exact C.finish (C.runWaiting (C.retireDone (C.begin hP) (hdram rfl)) (hdram rfl) (hdirty rfl))
  | sparingCopyStep => exact C.finish (C.spareStep (C.begin hP) (hdram rfl))
  | rankShedTimeout => exact C.finish (C.shedLate (C.begin hP) (hdram rfl))
  | dirtyScrubStart => exact C.finish (C.scrubStart (C.begin hP) (hdirty rfl))
  | dirtyScrubEnd => exact C.finish (C.scrubEnd (C.begin hP) (hdirty rfl))
  | heatEpochEnd => exact C.finish (C.heatSweep (C.begin hP) (hdirty rfl))
  | budgetCompute => exact C.finish (C.budget1ms (C.begin hP) (hdirty rfl))
  | safeBoundCheck => exact C.finish (C.safeBound (C.begin hP) (hbudget rfl))
  | hostEnergyWrite => exact C.finish (C.under (C.begin hP) (fun _ h1 => C.hostEnergy h1 (hbudget rfl)))
  | hostEnergyExpired => exact C.finish (C.hostEnergyOut (C.begin hP) (hbudget rfl))
  | witherTick => exact C.finish (C.witherTick (C.begin hP) (hdirty rfl) (hbudget rfl))
  | copyReadDone => exact C.finish (C.copyGranted (C.begin hP) (hdram rfl) (hdirty rfl))
  | mapCommit =>
    exact C.finish (pres_cond (C.begin hP) (fun _ h1 => pres_foldl h1 (fun _ _ h2 => C.commitCopy h2 (hdirty rfl)
      (hcellar rfl) (hbudget rfl))))
  | stripeCloseTimeout =>
    exact C.finish (pres_cond (C.begin hP) (fun _ h1 => pres_foldl h1 (fun _ _ h2 => C.padStripe h2 (hcellar rfl))))
  | wearAllowanceRecompute => exact C.finish (C.wearAllow (C.begin hP) (hbudget rfl))
  | enduranceRecompute => exact C.finish (C.endurance (C.begin hP) (hcellar rfl))
  | codewordReadDone => exact C.finish (pres_cond (C.begin hP) (fun _ h1 => C.readDone h1 (hdirty rfl) (hcellar rfl)))
  | nandProgramFail => exact C.finish (pres_cond (C.begin hP) (fun _ h1 => C.programFail h1 (hdirty rfl) (hcellar rfl)))
  | nandEraseDone => exact C.finish (C.eraseDone (C.begin hP) (hcellar rfl))
  | dieTimeout => exact C.finish (pres_cond (C.begin hP) (fun _ h1 => C.retireDie h1 (hcellar rfl)))
  | channelDead => exact C.finish (C.killChannel (C.begin hP) (hcellar rfl))
  | mapFlushDone => exact C.finish (C.flushPage (C.begin hP) (hcellar rfl))
  | mapScrub => exact C.finish (C.mapScrub (C.begin hP) (hdirty rfl) (hcellar rfl))
  | garbageCollectMove => exact C.finish (C.gcMove (C.begin hP) (hdirty rfl) (hcellar rfl))
  | wearLevelCheck => exact C.finish (C.wearLevel (C.begin hP) (hdirty rfl) (hcellar rfl))
  | foldMoveCommit => exact C.finish (C.foldMove (C.begin hP) (hdirty rfl) (hcellar rfl))
  | flashPatrolStep => exact C.finish (pres_cond (C.begin hP) (fun _ h1 => C.flashPatrol h1 (hdirty rfl) (hcellar rfl)))
  | flashPatrolOverdue => exact C.finish (pres_cond (C.begin hP) (fun _ h1 => C.detect h1))
  | mainInFail => exact C.finish (C.mainFail (C.begin hP))
  | mainInWarn => exact C.finish (C.mainWarn (C.begin hP))
  | primedClear => exact C.finish (C.primedClear (C.begin hP))
  | ewEscalation => exact C.finish (C.escalate (C.begin hP))
  | packPathTimeout => exact C.finish (C.pathLate (C.begin hP))
  | kilnSnapshotDone =>
    exact C.finish (pres_cond (C.begin hP) (fun _ h1 => C.snapshotDone h1 (hdirty rfl) (hflash rfl)))
  | kilnShedDone => exact C.finish (pres_cond (C.begin hP) (fun _ h1 => C.shedDone h1 (hdram rfl)))
  | kilnStripeProgrammed =>
    exact C.finish (C.stripeDone (pres_cond (C.begin hP) (fun _ h1 => pres_foldl h1 (fun _ _ h2 => C.retireEngine
      h2))) (hdram rfl) (hdirty rfl) (hcellar rfl))
  | drainComplete => exact C.finish (pres_cond (C.begin hP) (fun _ h1 => C.drainEnd h1 (hdram rfl)))
  | sealComplete =>
    exact C.finish (pres_cond (C.begin hP) (fun _ h1 => C.seal (C.keepErrors h1) (hdram rfl) (hcellar rfl)
      (hbudget rfl)))
  | kilnCancel => exact C.finish (C.debounced (C.begin hP))
  | phaseTimeOverrun => exact C.finish (C.phaseLate (C.begin hP))
  | holdupCollapse => exact C.finish (C.collapse (C.begin hP))
  | kilnSelftest => exact C.finish (C.selfTest (C.begin hP))
  | kilnArmWrite => exact C.finish (C.command (C.begin hP) (fun _ h1 => C.armWrite h1))
  | bulkDelayElapsed => exact C.finish (C.bulkDelay (C.begin hP))
  | demandFillDone => exact C.finish (C.demandDone (C.begin hP) (hdram rfl) (hdirty rfl) (hcellar rfl))
  | fillCeiling => exact C.finish (C.ceiling (C.begin hP))
  | bulkFillDone => exact C.finish (C.bulkFill (C.begin hP) (hdram rfl) (hdirty rfl) (hcellar rfl))
  | sqDoorbell => exact C.finish (C.byOwner (C.begin hP) (fun _ h1 => C.sqTail h1))
  | cqDoorbell => exact C.finish (C.byOwner (C.begin hP) (fun _ h1 => C.cqHead h1))
  | queueEnable => exact C.finish (C.byOwner (C.begin hP) (fun _ h1 => C.enableQueue h1))
  | queueDisable => exact C.finish (C.byOwner (C.begin hP) (fun _ h1 => C.disableQueue h1))
  | descriptorFetch => exact C.finish (C.fetchDesc (C.begin hP))
  | dmaFailure => exact C.finish (C.dmaFails (C.begin hP))
  | nop => exact C.finish (C.runNop (C.begin hP))
  | fenceDurable => exact C.finish (C.runFence (C.begin hP) (hdirty rfl))
  | rack => exact C.finish (C.runRack (C.begin hP))
  | rackFence => exact C.finish (C.runRack (C.begin hP))
  | copy => exact C.finish (C.runCopy (C.begin hP) (hdram rfl) (hdirty rfl))
  | zero => exact C.finish (C.runZero (C.begin hP) (hdram rfl) (hdirty rfl))
  | pin => exact C.finish (C.runPin (C.begin hP))
  | heatHint => exact C.finish (C.runHint (C.begin hP) (hdirty rfl))
  | discard => exact C.finish (C.runDiscard (C.begin hP) (hdirty rfl) (hcellar rfl))
  | volatileSet => exact C.finish (C.runVolatile (C.begin hP) (hdirty rfl) (hcellar rfl))
  | query => exact C.finish (C.runQuery (C.begin hP))
  | commandComplete => exact C.finish (C.commandDone (C.begin hP))
  | coalesceTimeout => exact C.finish (C.coalesce (C.begin hP))
  | cqFullTimeout => exact C.finish (pres_cond (C.begin hP) (fun _ h1 => C.detect h1))
  | chainTimeout => exact C.finish (C.chainLate (C.begin hP))
  | intRecordDiscard => exact C.finish (C.byOwner (C.begin hP) (fun _ h1 => C.dropRecord h1))
  | helloTx => exact C.finish (pres_onPort (C.begin hP) (fun _ h1 => C.send h1))
  | helloRx => exact C.finish (pres_onPort (C.begin hP) (fun _ h1 => C.helloIn h1))
  | hellosMissed => exact C.finish (pres_onPort (C.begin hP) (fun _ h1 => C.hellosMissed h1))
  | trainingDone => exact C.finish (pres_onPort (C.begin hP) (fun _ h1 => C.trained h1))
  | trainingTimeout => exact C.finish (pres_onPort (C.begin hP) (fun _ h1 => C.trainLate h1))
  | laneFail => exact C.finish (pres_onPort (C.begin hP) (fun _ h1 => C.laneFail (pres_cond h1 (fun _ h2 => C.wr h2))))
  | linkFrameRx => exact C.finish (pres_onPort (C.begin hP) (fun _ h1 => C.linkFrame h1))
  | replayRetrainTimeout => exact C.finish (pres_onPort (C.begin hP) (fun _ h1 => C.replayLate h1))
  | lsaPeriodic => exact C.finish (C.announce (C.begin hP))
  | lsaAgeOut => exact C.finish (pres_cond (C.begin hP) (fun _ h1 => C.lsaAge h1))
  | claimWindowEnd => exact C.finish (C.claimEnd (C.begin hP))
  | routeInstall => exact C.finish (C.install (C.begin hP))
  | convergenceTimeout => exact C.finish (pres_cond (C.begin hP) (fun _ h1 => C.detect h1))
  | alarmSummaryTx => exact C.finish (C.sendSummary (C.begin hP))
  | phantomOvercurrent => exact C.finish (pres_onPort (C.begin hP) (fun _ h1 => C.overcurrent h1))
  | rackSendStart => exact C.finish (C.sendStart (C.begin hP) (hdram rfl))
  | ackTimeout => exact C.finish (C.ackLate (C.begin hP))
  | rackOpenRetry => exact C.finish (C.openRetry (C.begin hP))
  | guestRegionCommit => exact C.finish (C.guestCommit (C.begin hP) (hcellar rfl))
  | guestRelease => exact C.finish (C.guestRelease (C.begin hP))
  | packInserted => exact C.finish (pres_onPack (C.begin hP) (fun _ h1 => C.insertPack h1))
  | packIdentified => exact C.finish (pres_onPack (C.begin hP) (fun _ h1 => C.identify h1 (htrack rfl)))
  | packRemoved => exact C.finish (pres_onPack (C.begin hP) (fun _ h1 => C.packGone h1 (htrack rfl)))
  | authResponse => exact C.finish (pres_onPack (C.begin hP) (fun _ h1 => C.authResponse h1))
  | authRun => exact C.finish (pres_onPack (C.begin hP) (fun _ h1 => C.authRun h1))
  | authOverrideWrite =>
    exact C.finish (pres_onPack (C.begin hP) (fun _ h1 => C.under h1 (fun _ h2 => C.packJudge (C.wr h2))))
  | packAtRest => exact C.finish (pres_onPack (C.begin hP) (fun _ h1 => C.atRest h1))
  | gaugeDisagree => exact C.finish (pres_onPack (C.begin hP) (fun _ h1 => C.disagree h1))
  | relearn =>
    exact C.finish (C.command (C.begin hP) (fun _ h1 => C.packHours (C.inc (pres_foldl h1 (fun _ _ h2 => C.schedule
      h2)))))
  | noRest72h => exact C.finish (pres_onPack (C.begin hP) (fun _ h1 => C.noRest h1 (htrack rfl)))
  | restWindowEnd =>
    exact C.finish (pres_cond (C.begin hP) (fun _ h1 => C.chargeCheck (C.chargeCheck (C.endRest h1) (htrack rfl))
      (htrack rfl)))
  | switchoverTest => exact C.finish (C.switchTest (C.begin hP))
  | pulseTest => exact C.finish (pres_onPack (C.begin hP) (fun _ h1 => pres_cond h1 (fun _ h2 => C.startTest h2)))
  | packTestDone => exact C.finish (pres_cond (C.begin hP) (fun _ h1 => C.testDone h1))
  | testDischarge =>
    exact C.finish (pres_onPack (C.begin hP) (fun _ h1 => C.command h1 (fun _ h2 => C.dischargeTest h2 (htrack rfl))))
  | cellOvervoltage =>
    exact C.finish (pres_onPack (C.begin hP) (fun _ h1 => pres_cond h1 (fun _ h2 => C.detect (C.chargeStop h2
      (htrack rfl)))))
  | chargerFaultTimeout => exact C.finish (pres_onPack (C.begin hP) (fun _ h1 => C.chargerFault h1 (htrack rfl)))
  | programOverrun => exact C.finish (pres_cond (C.begin hP) (fun _ h1 => C.detect h1))
  | inputCollapse => exact C.finish (C.inputCollapse (C.begin hP))
  | collapseNoKilnTimeout => exact C.finish (C.collapseOver (C.begin hP))
  | railMarginWrite => exact C.finish (C.command (C.begin hP) (fun _ h1 => C.marginWrite h1))
  | marginStep => exact C.finish (pres_cond (C.begin hP) (fun _ h1 => C.marginStep h1))
  | cntClearRail => exact C.finish (C.command (C.begin hP) (fun _ h1 => C.clearCounts h1 (fun _ h2 => C.clearRail h2)))
  | cntClearAll =>
    exact C.finish (C.command (C.begin hP) (fun _ h1 => C.clearCounts h1 (fun _ h2 => pres_each h2 (fun _ _ h3 =>
      C.clearRail h3))))
  | railCounterSave => exact C.finish (pres_cond (C.begin hP) (fun _ h1 => C.saveRails h1))
  | sqpDataAccess => exact C.finish (C.sqpData (C.begin hP))
  | mrNHold4s => exact C.finish (C.press4 (C.begin hP))
  | forceOff => exact C.finish (C.forceOff (C.begin hP))
  | restDwellMet => exact C.finish (C.restSelect (C.begin hP))
  | restExitEvent => exact C.finish (C.restExit (C.noQuiet (C.begin hP)))
  | restExitDone => exact C.finish (C.restLeft (C.begin hP))
  | patrolCatchup => exact C.finish (C.patrolBehind (C.begin hP))
  | mainInLostP3 => exact C.finish (pres_cond (C.begin hP) (fun _ h1 => C.enterP4 (C.other h1)))
  | startTimeout => exact C.finish (pres_cond (C.begin hP) (fun _ h1 => C.failStart h1))
  | forceCold => exact C.finish (C.under (C.begin hP) (fun _ h1 => C.wr h1))
  | clearFails => exact C.finish (C.sntMaint (C.begin hP) (fun _ h1 => C.clearFails h1))
  | islandSupplyChange => exact C.finish (C.supplyChange (C.begin hP))
  | islandPowerOn => exact C.finish (C.islandOn (C.begin hP) (hdram rfl))
  | quietExpired => exact C.finish (C.quietOver (C.begin hP))
  | eventSourceRelease => exact C.finish (C.eventRelease (C.begin hP))
  | errnReadback => exact C.finish (pres_cond (C.begin hP) (fun _ h1 => C.errnRead h1))
  | errnTest => exact C.finish (C.command (C.begin hP) (fun _ h1 => pres_ite (C.wr (C.other h1)) (C.reject h1)))
  | histRearm => exact C.finish (C.command (C.begin hP) (fun _ h1 => C.rearm h1))
  | injectionTimeout => exact C.finish (C.injectLate (C.begin hP))
  | comparatorTest => exact C.finish (pres_cond (C.begin hP) (fun _ h1 => C.compareTest h1))
  | tlogRateSummary => exact C.finish (C.rateSummary (C.begin hP))
  | tlgClear => exact C.finish (C.command (C.begin hP) (fun _ h1 => C.tlgClear h1))
  | recClear => exact C.finish (C.command (C.begin hP) (fun _ h1 => C.recClearWrite h1))
  | recFlush => exact C.finish (C.recFlushBy (C.begin hP))
  | recFlushDone => exact C.finish (C.flushEnd (C.begin hP) (hcellar rfl))
  | calRun => exact C.finish (C.calRun (C.begin hP))
  | moduleCal => exact C.finish (C.command (C.begin hP) (fun _ h1 => C.moduleCal h1 (hflash rfl)))
  | calTempCheck => exact C.finish (pres_cond (C.begin hP) (fun _ h1 => C.calTemp h1))
  | adcCalDone => exact C.finish (C.vrefResume (C.adcDone (C.begin hP)))
  | vrefCheck => exact C.finish (C.vrefCheck (C.begin hP))
  | cflKeyWrite => exact C.finish (C.under (C.begin hP) (fun _ h1 => C.keyWrite h1 (hflash rfl)))
  | wordProgram => exact C.finish (C.under (C.begin hP) (fun _ h1 => C.flashCommand h1 (hflash rfl)))
  | sectorErase => exact C.finish (C.under (C.begin hP) (fun _ h1 => C.flashCommand h1 (hflash rfl)))
  | blockErase => exact C.finish (C.under (C.begin hP) (fun _ h1 => C.flashCommand h1 (hflash rfl)))
  | sequenceReset => exact C.finish (C.under (C.begin hP) (fun _ h1 => C.seqReset h1 (hflash rfl)))
  | flashOpDone => exact C.finish (C.flashDone (C.begin hP) (hflash rfl))
  | codeFlashCheck => exact C.finish (C.flashCheck (C.begin hP) (hflash rfl))
  | updateLockExpired => exact C.finish (C.lockExpired (C.begin hP))
  | confirmWindowEnd => exact C.finish (C.windowEnd (C.begin hP) (hflash rfl))
  | packPathConfirmed => exact C.finish (C.pathConfirmed (C.begin hP))
  | powerReturn => exact C.finish (C.powerReturn (C.begin hP))
  | clockFault => exact C.finish (C.clockBad (C.begin hP))
  | clockBackInTolerance => exact C.finish (C.clockGood (C.begin hP))
  | xtal25Lost => exact C.finish (pres_cond (C.begin hP) (fun _ h1 => C.wr h1))
  | trainingRetry => exact C.finish (pres_onPort (C.begin hP) (fun _ h1 => C.trainRetry h1))
  | phantomFeedRetry => exact C.finish (pres_onPort (C.begin hP) (fun _ h1 => C.feedRetry h1))
  | authRetry => exact C.finish (pres_onPack (C.begin hP) (fun _ h1 => C.authRetry h1))

/-! ### The frames of the statement -/

/-- Of DRAM a reaction changes the list of retire copies, which K3 cuts to the one that is finishing
(R120): cut again, it stays. -/
theorem touches_dram (s₀ : State) :
    Touches (· ≠ .dram) (fun t => t.dram = s₀.dram ∨ t.dram = s₀.freezeRetire.dram) where
  set hdram _ _ _ _ _ hP := by
    rcases hdram with rfl | hne
    · exact hP
    · exact absurd rfl hne
  freeze hP := by
    right
    rcases hP with h | h <;> simp [State.freezeRetire, h, List.take_take]
  scrubStop hP := hP
  dieTable hP := hP

/-- Of the dirty bits and the copies in flight a reaction changes the scrub that K3 ends (R231). -/
theorem touches_dirty (s₀ : State) :
    Touches (· ≠ .dirty)
      (fun t => t.dirty = s₀.dirty ∨ t.dirty = { s₀.dirty with scrubRun := false, scrubDue := false }) where
  set _ hdirty _ _ _ _ hP := by
    rcases hdirty with rfl | hne
    · exact hP
    · exact absurd rfl hne
  freeze hP := hP
  scrubStop hP := by
    right
    rcases hP with h | h <;> simp [h]
  dieTable hP := hP

/-- Of the cellar a reaction changes the die table, which a fallback returns (R523). -/
theorem touches_cellar (s₀ : State) :
    Touches (· ≠ .cellar) (fun t => ∃ d, t.cellar = { s₀.cellar with dieTable := d }) where
  set _ _ hcellar _ _ _ hP := by
    rcases hcellar with rfl | hne
    · exact hP
    · exact absurd rfl hne
  freeze hP := hP
  scrubStop hP := hP
  dieTable := by
    rintro t d ⟨e, he⟩
    exact ⟨d, by simp [he]⟩

theorem touches_flash (s₀ : State) : Touches (· ≠ .flash) (fun t => t.flash = s₀.flash) where
  set _ _ _ hflash _ _ hP := by
    rcases hflash with rfl | hne
    · exact hP
    · exact absurd rfl hne
  freeze hP := hP
  scrubStop hP := hP
  dieTable hP := hP

theorem touches_budget (s₀ : State) : Touches (· ≠ .budget) (fun t => t.budget = s₀.budget) where
  set _ _ _ _ hbudget _ hP := by
    rcases hbudget with rfl | hne
    · exact hP
    · exact absurd rfl hne
  freeze hP := hP
  scrubStop hP := hP
  dieTable hP := hP

theorem touches_track (s₀ : State) : Touches (· ≠ .track) (fun t => t.track = s₀.track) where
  set _ _ _ _ _ htrack hP := by
    rcases htrack with rfl | hne
    · exact hP
    · exact absurd rfl hne
  freeze hP := hP
  scrubStop hP := hP
  dieTable hP := hP

/-- What survives every operation that leaves the store `p` alone survives a command that begins no
start and does not write `p`. -/
theorem Touches.next {p : Store} {P : State → Prop} {s t : State} {c : Sys2Proof.Instr} (C : Touches (· ≠ p) P) (hP : P s)
    (hb : c.begins = false) (hp : storesOf c p = false) (h : exec c s = .next t) : P t := by
  have hafter := C.afterNext_exec hP hb (fun q hq hqp => by simp [← hqp, hq] at hp)
  rwa [h] at hafter

/-- Settles O7, by what each operation can change of the stores. -/
theorem memoryAndStoredStateHaveTheirWriters : Obligations.MemoryAndStoredStateHaveTheirWriters := by
  unfold Obligations.MemoryAndStoredStateHaveTheirWriters
  refine ⟨?_, ?_, ?_, ?_, ?_, ?_⟩ <;> intro c s t hb hw h
  · exact (touches_dram s).next (.inl rfl) hb hw h
  · exact (touches_dirty s).next (.inl rfl) hb hw h
  · exact (touches_cellar s).next ⟨s.cellar.dieTable, rfl⟩ hb hw h
  · exact (touches_flash s).next rfl hb hw h
  · exact (touches_budget s).next rfl hb hw h
  · exact (touches_track s).next rfl hb hw h

end Sys2Proof.Machine
end

section
/-!
PROOFS. Proofs/HalfCycleEnd.lean: a half-cycle ends while the sequencer waits on charge: the deadline that coincides with its end lets
the running program go on (R46, R48), and what that program does next no frame of a crossing names.
-/

namespace Sys2Proof.Machine

/-! ### A frame, read at one register -/

/-- A steady register that a frame does not name reads the same after the command. -/
theorem rd_after_of_steadyRegsBut {c : Sys2Proof.Instr} {s t : State} {fs : List Fld} {f : Fld} (hexec : exec c s = .next t)
    (hframe : SteadyRegsBut s t fs) (hsteady : f.reactive = false) (hoff : f.off < 4096) (hlsb : f.lsb < 32) (hidx : f.idx < 4096)
    (hother : ∀ g ∈ fs, f.key ≠ g.key) : (Outcome.state (exec c s)).rd f = s.rd f := by
  rw [hexec]
  exact hframe f hsteady hoff hlsb hidx hother

/-! ### A power-down that waits on charge -/

/-- The program word `EN_CLR` of one enable of the lower bank (Table 14-4). -/
def enClrWord (enable : Nat) : Nat := 2 * 2 ^ 28 + 2 ^ enable

/-- The program word `WAIT_US` (Table 14-4). -/
def waitUsWord (us : Nat) : Nat := 3 * 2 ^ 28 + us

/-- `POWER_DOWN` stands at the `WAIT_CT` of step 0; then it clears enable 5 and waits again. -/
def waitingPowerDown : Seq :=
  { prog := some 1, wait := .ct, store := [(1, enClrWord 5), (2, waitUsWord 1000)] }

/-- The mains clock is locked and the source; `POWER_DOWN` waits on `CDL4`, whose target `CT_DRAWN` has reached (R46); enable 5 is
high and feeds rank 0 of channel 0. -/
def chargeReachedState : State :=
  let s : State := { State.reset with power := { life := .goingDown }, seq := waitingPowerDown, packA := { pathOn := true },
                                      track := { refHeld := true, intervals := [1000000] } }
  let s := (s.wr R.PHS_STAT_SRC 0).wr R.PHS_STAT_LOCKED 1
  ((s.wr (R.PHS_CDL_ARMED 4) 1).wr R.SEQ_EN (2 ^ 5)).wr (R.DMC_SHED_EN 0 0) 5

theorem chargeReachedState_sound : chargeReachedState.Sound := ⟨by constructor <;> decide, rfl⟩

/-- Before the half-cycle ends, the rank is active. -/
theorem chargeReachedState_rank_active : chargeReachedState.rd (R.DMC_RANK_PWR 0 0) = 0 := by decide

/-- A crossing one period after the reference point ends the half-cycle, `CDL4` fires first, and the `EN_CLR` after the wait takes
the rank's supply (R128). -/
theorem crossing_takes_rank_supply :
    (Outcome.state (exec (.acceptedCrossing 1000000 true) chargeReachedState)).rd (R.DMC_RANK_PWR 0 0) = 3 := by
  decide +kernel

/-- The same, where the half-cycle ends without a crossing. -/
theorem missingHalfCycle_takes_rank_supply :
    (Outcome.state (exec (.missingHalfCycle true) chargeReachedState)).rd (R.DMC_RANK_PWR 0 0) = 3 := by
  decide +kernel

/-- Refutes O43: its second clause frames the registers of an accepted crossing without those that the sequencer writes, but a charge
deadline that coincides with the end of the half-cycle fires before it (R48), and the program that waited on it goes on (R46): its
next step may take the supply of a DRAM rank. -/
theorem not_crossingsDriveTheHalfCycle : ¬ Obligations.CrossingsDriveTheHalfCycle := by
  unfold Obligations.CrossingsDriveTheHalfCycle
  rintro ⟨-, hcrossing, -⟩
  obtain ⟨t, hexec, -, -, -, -, hframe⟩ :=
    hcrossing chargeReachedState 1000000 true chargeReachedState_sound rfl (by decide) rfl (by decide) (by decide) (by decide)
      (by decide) (by decide) (by decide) (by decide)
  have hkept := rd_after_of_steadyRegsBut (f := R.DMC_RANK_PWR 0 0) hexec hframe rfl (by decide) (by decide)
    (by decide) (by decide)
  rw [crossing_takes_rank_supply, chargeReachedState_rank_active] at hkept
  exact absurd hkept (by decide)

/-- Refutes O44: its fourth clause frames the registers of a missing half-cycle without those that the sequencer writes, but the
half-cycle ends as at a crossing (`not_crossingsDriveTheHalfCycle`). -/
theorem not_theGridGoesOnWithoutCrossings : ¬ Obligations.TheGridGoesOnWithoutCrossings := by
  unfold Obligations.TheGridGoesOnWithoutCrossings
  rintro ⟨-, -, -, hmissing⟩
  obtain ⟨t, hexec, -, -, -, -, hframe⟩ :=
    hmissing chargeReachedState true chargeReachedState_sound rfl (by decide) rfl (by decide)
  have hkept := rd_after_of_steadyRegsBut (f := R.DMC_RANK_PWR 0 0) hexec hframe rfl (by decide) (by decide)
    (by decide) (by decide)
  rw [missingHalfCycle_takes_rank_supply, chargeReachedState_rank_active] at hkept
  exact absurd hkept (by decide)

end Sys2Proof.Machine
end

section
/-!
PROOFS. Proofs/ChargerEvent.lean: the event of the event service that changes a charger sets its voltage with its enable (R394,
Table 02-2).
-/

namespace Sys2Proof.Machine

/-! ### A voltage setpoint that changes -/

/-- A pack of four LFP cells on port A, Counted, whose charger still has no voltage setpoint. -/
def countedPackState : State :=
  ((State.reset.wr (R.PK_STAT_STATE 0) pkCounted).wr (R.PK_CFG_CELLS4 0) 1).wr (R.PK_CFG_CHEM 0) 1

/-- The gauge has posted the change of the charger of port A (`State.chargeCheck`), and its moment has come: pu 384 of hc 1. -/
def setpointDueState : State := ((countedPackState.chargeCheck 0).wr R.PHS_HC 1).wr R.PHS_PU 384

/-- The event that the gauge posted. -/
def setpointEvent : SchedSlot := { owner := ownGauge, hc := 1, pu := 384, period := 0, seconds := 0 }

theorem setpointDueState_inv : setpointDueState.Inv := by constructor <;> decide

theorem setpointDueState_unset : setpointDueState.rd (R.PK_TRIM2_VSET_MV 0) = 0 := by decide

/-- The event sets four times the 3,600 mV of an LFP cell (R394). -/
theorem chargerEvent_sets_voltage :
    (Outcome.state (exec (.scheduledEventFire (chgSlot 0)) setpointDueState)).rd (R.PK_TRIM2_VSET_MV 0) = 14400 := by
  decide +kernel

/-- Refutes O45: its third clause says that an event of the event service changes no steady register but the charger enables, but the
event of a charger sets its voltage as well (R394, Table 02-2). -/
theorem not_phaseServicesAnswer : ¬ Obligations.PhaseServicesAnswer := by
  unfold Obligations.PhaseServicesAnswer
  rintro ⟨-, -, hevent, -⟩
  obtain ⟨t, hexec, -, hframe⟩ :=
    hevent setpointDueState (chgSlot 0) setpointEvent setpointDueState_inv (by decide) rfl (by decide)
  have hkept := rd_after_of_steadyRegsBut (f := R.PK_TRIM2_VSET_MV 0) hexec hframe rfl (by decide) (by decide)
    (by decide) (by decide)
  rw [chargerEvent_sets_voltage, setpointDueState_unset] at hkept
  exact absurd hkept (by decide)

end Sys2Proof.Machine
end

section
/-!
PROOFS. Proofs/PageReads.lean: reads of the register pages (R57, R58): the latch of the high word, and what a read leaves alone.
-/

namespace Sys2Proof.Machine

/-! ### The page of a field -/

/-- A field of the register space stands on its page. -/
theorem Fld.keyPage_key {f : Fld} (hoff : f.off < 4096) (hlsb : f.lsb < 32) (hidx : f.idx < 4096) : keyPage f.key = f.page := by
  unfold keyPage Fld.key
  omega

/-! ### The frames of a command that has settled -/

/-- Where the command wrote no register, its end writes none outside the safety manager's page. -/
theorem Settled.sameRegs {s u t : State} (h : Settled u t) (hregs : u.regs = s.regs) : SameRegsBut s t [] := by
  intro f hpage hoff hlsb hidx _
  rw [h.rd (by rwa [Fld.keyPage_key hoff hlsb hidx])]
  unfold State.rd
  rw [hregs]

/-- Where the command changed registers and outputs alone, so has its end. -/
theorem Settled.sameParts {s t : State} {regs : NMap} {out : List Output}
    (h : Settled { s.begin with regs := regs, out := out } t) : SameParts s t :=
  h.parts.trans (by rw [h.out_eq, h.safe_eq]; rfl)

/-- A command that only answers a register read leaves every register and every part alone. -/
theorem Settled.frame_of_giveReg {s t : State} {who : Requester} {v : Nat} (h : Settled (s.begin.giveReg who v) t) :
    t.out = [.regData who v] ∧ t.latched = s.latched ∧ SameRegsBut s t [] ∧ SameParts s t :=
  ⟨h.out_eq, h.latched_eq, h.sameRegs rfl, Settled.sameParts (regs := s.regs) (out := [.regData who v]) h⟩

/-! ### What a read may change -/

/-- From `s` to `u`, nothing changed that a read of a register page leaves alone: it latches a high word, takes an open value,
answers, shows what keeps the device out of rest (`PWR`), and moves the address of the program store on (`SQP`). -/
structure ReadsOnly (s u : State) : Prop where
  wf : s.regs.wf = true → u.regs.wf = true
  regs : ∀ k, keyPage k ≠ 0xD8 → keyPage k ≠ 0xA1 → u.regs.get k = s.regs.get k
  parts : u = { s with regs := u.regs, latched := u.latched, freeCtr := u.freeCtr, out := u.out }

theorem ReadsOnly.refl (s : State) : ReadsOnly s s := ⟨id, fun _ _ _ => rfl, rfl⟩

theorem ReadsOnly.wr {s u : State} (h : ReadsOnly s u) {f : Fld} (v : Nat)
    (hf : keyPage f.key = 0xD8 ∨ keyPage f.key = 0xA1) : ReadsOnly s (u.wr f v) where
  wf hw := State.wf_wr f v (h.wf hw)
  regs k hpwr hsqp := by
    have hne : k ≠ f.key := by
      rintro rfl
      exact hf.elim hpwr hsqp
    exact (NMap.get_set_ne u.regs _ hne).trans (h.regs k hpwr hsqp)
  parts := by
    have hparts := h.parts
    unfold State.wr
    rw [hparts]

theorem ReadsOnly.set {s u : State} (h : ReadsOnly s u) (latched : NMap) (freeCtr : Nat) (out : List Output) :
    ReadsOnly s { u with latched := latched, freeCtr := freeCtr, out := out } where
  wf := h.wf
  regs := h.regs
  parts := by
    have hparts := h.parts
    rw [hparts]

theorem ReadsOnly.giveReg {s u : State} (h : ReadsOnly s u) (who : Requester) (v : Nat) : ReadsOnly s (u.giveReg who v) :=
  h.set u.latched u.freeCtr (u.out ++ [Output.regData who v])

theorem ReadsOnly.showRest {s u : State} (h : ReadsOnly s u) : ReadsOnly s u.showRest :=
  ((h.wr _ (.inl rfl)).wr _ (.inl rfl)).wr _ (.inl rfl)

theorem ReadsOnly.sqpNext {s u : State} (h : ReadsOnly s u) : ReadsOnly s u.sqpNext := h.wr _ (.inr rfl)

theorem ReadsOnly.pairRead {s u : State} (h : ReadsOnly s u) (who : Requester) (n : Nat) (lo high : Bool) (v hi : Nat) :
    ReadsOnly s (u.pairRead who n lo high v hi).2 := by
  unfold State.pairRead
  split
  · exact h.set (u.latched.set (pairKey who n) (hi + 1)) u.freeCtr u.out
  · split
    · split
      · exact h
      · exact h.set (u.latched.set (pairKey who n) 0) u.freeCtr u.out
    · exact h

theorem ReadsOnly.readBy {s u : State} (h : ReadsOnly s u) (who : Requester) (off size base : Nat) (word : Nat → Nat)
    (lo : Nat → Bool) : ReadsOnly s (u.readBy who off size base word lo) := by
  unfold State.readBy
  split
  · exact h.giveReg who _
  · exact (h.pairRead who _ _ _ _ _).giveReg who _
  · exact (h.set u.latched (u.freeCtr + 1) u.out).giveReg who _

theorem State.pageRead_readsOnly (s : State) (who : Requester) (page off size : Nat) :
    ReadsOnly s (s.pageRead who page off size) := by
  unfold State.pageRead
  split
  · exact ReadsOnly.refl s
  · split
    · exact (ReadsOnly.refl s).giveReg who 0
    · exact pres_cond ((pres_cond (ReadsOnly.refl s) (fun _ h => h.showRest)).readBy who _ _ _ _ _) (fun _ h => h.sqpNext)

theorem ReadsOnly.rd {s u : State} (h : ReadsOnly s u) {f : Fld} (hpwr : keyPage f.key ≠ 0xD8) (hsqp : keyPage f.key ≠ 0xA1) :
    u.rd f = s.rd f := by
  unfold State.rd RegFile.rd
  rw [h.regs f.key hpwr hsqp]

/-- In a calm state a read of a register page ends with the page `SAF` brought up to date, nothing else. -/
theorem State.Calm.pageRead_settled {s : State} (hc : s.Calm) (who : Requester) (page off size : Nat) :
    Settled (s.begin.pageRead who page off size) (finish (s.begin.pageRead who page off size)) := by
  have h := s.begin.pageRead_readsOnly who page off size
  refine hc.settles (h.wf hc.inv.regs) (by rw [h.parts]; rfl) (by rw [h.parts]) ?_ ?_ ?_ ?_ <;>
    exact h.rd (by decide) (by decide)

/-! ### A read of a page that the requester sees -/

/-- The state whose registers a read of the page shows. -/
abbrev State.shownFor (s : State) (page : Nat) : State := s.cond (page == 0xD8) State.showRest

theorem State.shownFor_begin (s : State) (page : Nat) : s.begin.shownFor page = (s.shownFor page).begin := by
  unfold State.shownFor State.cond
  split <;> rfl

theorem State.shownFor_latched (s : State) (page : Nat) : (s.shownFor page).latched = s.latched := by
  unfold State.shownFor State.cond
  split <;> rfl

/-- A word reads the same after a command has begun. -/
theorem State.pageWord_begin (s : State) (who : Requester) (page : Nat) : s.begin.pageWord who page = s.pageWord who page := by
  funext off
  unfold State.pageWord State.seen
  by_cases hheld : (s.power.heldWindows.isSome && offPages.contains page) = true
  · rw [if_pos hheld, if_pos (show (s.begin.power.heldWindows.isSome && offPages.contains page) = true from hheld)]
    rfl
  · rw [if_neg hheld, if_neg (show ¬ (s.begin.power.heldWindows.isSome && offPages.contains page) = true from hheld)]
    rfl

/-- The read itself, before `SQP.DATA` moves its address on. -/
abbrev State.wordsRead (s : State) (who : Requester) (page off size : Nat) : State :=
  (s.shownFor page).begin.readBy who off size (page * 4096) ((s.shownFor page).pageWord who page) (isLo page)

theorem State.pageRead_of_mayRead {s : State} {who : Requester} {page : Nat} (hr : s.mayRead who page = true) (off size : Nat) :
    s.begin.pageRead who page off size =
      (s.wordsRead who page off size).cond (page == 0xA1 && decide (off ≤ 0x047) && decide (0x044 < off + size)) State.sqpNext := by
  have hmay : s.begin.mayRead who page = true := hr
  have hanswers : s.begin.answers who = true := by
    simp only [State.mayRead, Bool.and_eq_true] at hmay
    obtain ⟨⟨-, hanswers⟩, -⟩ := hmay
    exact hanswers
  have hbegin : s.begin.pageRead who page off size = ((s.begin.shownFor page).readBy who off size (page * 4096)
      ((s.begin.shownFor page).pageWord who page) (isLo page)).cond
        (page == 0xA1 && decide (off ≤ 0x047) && decide (0x044 < off + size)) State.sqpNext :=
    (if_neg (by simp [hanswers])).trans (if_neg (by simp [hmay]))
  rw [hbegin, State.shownFor_begin, State.pageWord_begin]

theorem State.pageRead_out {s : State} {who : Requester} {page : Nat} (hr : s.mayRead who page = true) (off size : Nat) :
    (s.begin.pageRead who page off size).out = (s.wordsRead who page off size).out := by
  rw [State.pageRead_of_mayRead hr]
  unfold State.cond
  split <;> rfl

theorem State.pageRead_latched {s : State} {who : Requester} {page : Nat} (hr : s.mayRead who page = true) (off size : Nat) :
    (s.begin.pageRead who page off size).latched = (s.wordsRead who page off size).latched := by
  rw [State.pageRead_of_mayRead hr]
  unfold State.cond
  split <;> rfl

/-! ### The shapes of a read -/

theorem readShape_word (who : Requester) {off : Nat} (ho : off % 4 = 0) : readShape who off 4 = .word off 0 4 := by
  simp [readShape, ho]

theorem readShape_both {who : Requester} {off : Nat} (hport : who.port.isSome = true) (ho : off % 8 = 0) :
    readShape who off 8 = .both := by
  simp [readShape, hport, ho]

section

variable {s : State} {who : Requester} {off base : Nat} {word : Nat → Nat} {lo : Nat → Bool}

/-- An aligned word that is the low one of a pair latches the high one. -/
theorem State.readBy_low (ho : off % 4 = 0) (hlo : lo off = true) :
    s.readBy who off 4 base word lo =
      { s with latched := s.latched.set (pairKey who (base + off)) (word (off + 4) + 1) }.giveReg who (word off % 2 ^ 32) := by
  simp [State.readBy, readShape_word who ho, State.pairRead, hlo]

/-- An aligned word that is the high one of a pair, with its latch held, is the word latched, and the latch ends. -/
theorem State.readBy_high {w : Nat} (ho : off % 4 = 0) (hlo : lo off = false) (h4 : 4 ≤ off) (hhigh : lo (off - 4) = true)
    (hheld : s.latched.get (pairKey who (base + (off - 4))) = w + 1) :
    s.readBy who off 4 base word lo =
      { s with latched := s.latched.set (pairKey who (base + (off - 4))) 0 }.giveReg who (w % 2 ^ 32) := by
  simp [State.readBy, readShape_word who ho, State.pairRead, hlo, h4, hhigh, hheld]

/-- An aligned word of no pair is the register's. -/
theorem State.readBy_single (ho : off % 4 = 0) (hlo : lo off = false) (hlow : off < 4 ∨ lo (off - 4) = false) :
    s.readBy who off 4 base word lo = s.giveReg who (word off % 2 ^ 32) := by
  have hhigh : (decide (4 ≤ off) && lo (off - 4)) = false := by
    rcases hlow with h | h
    · simp [h]
    · simp [h]
  simp [State.readBy, readShape_word who ho, State.pairRead, hlo, hhigh]

/-- A 64-bit read takes both halves at once. -/
theorem State.readBy_both (hport : who.port.isSome = true) (ho : off % 8 = 0) :
    s.readBy who off 8 base word lo = s.giveReg who (word off + word (off + 4) * 2 ^ 32) := by
  simp [State.readBy, readShape_both hport ho]

end

/-! ### The command -/

/-- A read over the sideband is of 32 bits (R73). -/
theorem exec_readLoLatch_page (s : State) (who : Requester) (page off size : Nat) :
    exec (.readLoLatch who (.page page off) size) s =
      .next (finish (s.begin.pageRead who page off (if who.port.isSome then size else 4))) := by
  have hread : s.begin.readReg who (.page page off) size =
      s.begin.pageRead who page off (if who.port.isSome then size else 4) := by
    cases who <;> simp +contextual [State.readReg, Requester.port, RegAddr.place, State.barRead, State.pageRead]
  exact congrArg (fun u => Host.Outcome.next (finish u)) hread

theorem exec_readLoLatch_word (s : State) (who : Requester) (page off : Nat) :
    exec (.readLoLatch who (.page page off) 4) s = .next (finish (s.begin.pageRead who page off 4)) := by
  rw [exec_readLoLatch_page, ite_self]

/-- Settles O9, by the shape of the read; what the end of a command does keeps its answer in a calm state, and the latches in
every state. -/
theorem readingALowWordLatchesTheHighOne : Obligations.ReadingALowWordLatchesTheHighOne := by
  unfold Obligations.ReadingALowWordLatchesTheHighOne
  refine ⟨?_, ?_, ?_, ?_, ?_, ?_⟩
  · intro s who page off hs hlo ho hr
    refine ⟨_, exec_readLoLatch_word s who page off, ?_⟩
    rw [(finish_unreacted _).latched, State.pageRead_latched hr, State.wordsRead, State.readBy_low ho hlo]
    exact NMap.get_set_self _ _ (by rw [State.begin_latched, State.shownFor_latched]; exact hs.inv.latched)
  · intro s who page off hc hlo ho hr
    have hend := hc.pageRead_settled who page off 4
    have hkeep := s.begin.pageRead_readsOnly who page off 4
    refine ⟨_, exec_readLoLatch_word s who page off, ?_, ?_, ?_⟩
    · rw [hend.out_eq, State.pageRead_out hr, State.wordsRead, State.readBy_low ho hlo]
      rfl
    · rw [hend.dirty_eq, hkeep.parts]
      rfl
    · rw [hend.cellar_eq, hkeep.parts]
      rfl
  · intro s who page off w hc h4 hhigh hlo ho hr hheld
    have hend := hc.pageRead_settled who page off 4
    have hlatched : (s.shownFor page).begin.latched = s.latched := s.shownFor_latched page
    have hread := State.readBy_high (s := (s.shownFor page).begin) (base := page * 4096)
      (word := (s.shownFor page).pageWord who page) ho hlo h4 hhigh (by rw [hlatched]; exact hheld)
    refine ⟨_, exec_readLoLatch_word s who page off, ?_, ?_⟩
    · rw [hend.out_eq, State.pageRead_out hr, State.wordsRead, hread]
      rfl
    · rw [hend.latched_eq, State.pageRead_latched hr, State.wordsRead, hread]
      exact NMap.get_set_self _ _ (by rw [hlatched]; exact hc.inv.latched)
  · intro s who page off hc hport ho _ hr
    have hend := hc.pageRead_settled who page off 8
    refine ⟨finish (s.begin.pageRead who page off 8), by rw [exec_readLoLatch_page, if_pos hport], ?_, ?_⟩
    · rw [hend.out_eq, State.pageRead_out hr, State.wordsRead, State.readBy_both hport ho]
      rfl
    · rw [hend.latched_eq, State.pageRead_latched hr, State.wordsRead, State.readBy_both hport ho]
      exact s.shownFor_latched page
  · intro s who page off hc hpwr hsqp ho _ hlo hlow hr
    have hend := hc.pageRead_settled who page off 4
    have hread : s.begin.pageRead who page off 4 = s.begin.giveReg who (s.pageWord who page off % 2 ^ 32) := by
      rw [State.pageRead_of_mayRead hr, State.wordsRead, State.readBy_single ho hlo hlow, State.shownFor]
      simp [State.cond, hpwr, hsqp]
    rw [hread] at hend
    exact ⟨_, by rw [exec_readLoLatch_word, hread], hend.frame_of_giveReg⟩
  · intro s who page off size hc hanswers hhidden
    have hbegin : s.begin.answers who = true := hanswers
    have hend := hc.pageRead_settled who page off (if who.port.isSome then size else 4)
    have hread : s.begin.pageRead who page off (if who.port.isSome then size else 4) = s.begin.giveReg who 0 :=
      (if_neg (by simp [hbegin])).trans (if_pos hhidden)
    rw [hread] at hend
    exact ⟨_, by rw [exec_readLoLatch_page, hread], hend.frame_of_giveReg⟩

end Sys2Proof.Machine
end

section
/-!
PROOFS. Proofs/CommitBehindReset.lean: a commit that is marked while a soft reset of its page waits (R65, R67): the reset, which comes
first at the safe point, discards what was staged.
-/

namespace Sys2Proof.Machine

/-! ### A commit behind a soft reset -/

/-- A device that runs, with `LOAD_CTRL.DIRTY_EN` of port A at 0. -/
def runningState : State :=
  ({ State.reset with power := { life := .running }, halted := [] } : State).wr (R.HP_LOAD_CTRL_DIRTY_EN 0) 0

/-- `LINK_CTRL` of port A at its reset values but for a `MAX_WIDTH` of 3. -/
def narrowLinkWord : Nat := 0x163

/-- Port A asks for a soft reset of its running page, then stages a narrower link and commits it, before the next link training,
which is the safe point of the page (R107). -/
def commitBehindReset : List Sys2Proof.Instr :=
  [.softReset .portA 0x10, .registerWrite .portA (.page 0x10 0x044) 4 narrowLinkWord, .commit .portA 0x10]

/-- The soft reset and the commit wait, and `MAX_WIDTH` is staged. -/
def commitBehindResetState : State :=
  { (runningState.wr (R.SOFT_RESET 0x10) 1).wr (R.COMMIT_PENDING 0x10) 1 with
    staged := [((R.HP_LINK_CTRL_MAX_WIDTH 0).key, 4)] }

/-- The three commands lead to the state. -/
theorem commitBehindReset_leads_to_state :
    commitBehindReset.foldl (fun s c => Outcome.state (exec c s)) runningState = commitBehindResetState := by
  decide +kernel

theorem commitBehindResetState_calm : commitBehindResetState.Calm where
  inv := by constructor <;> decide
  active := rfl
  pend := rfl
  normal := by decide
  diag := by decide
  margin := by decide
  src := by decide

/-- At the safe point the reset returns `MAX_WIDTH` to x16. -/
theorem safePoint_discards_width :
    (Outcome.state (exec (.safePointCommitApply 0x10) commitBehindResetState)).rd (R.HP_LINK_CTRL_MAX_WIDTH 0) = 5 := by
  decide +kernel

/-- Refutes O11: its last clause says that the safe point of a port's page with a commit pending gives `MAX_WIDTH` the value staged,
but a soft reset that waits comes before the commit and discards what is staged (R67, Table 03-4). -/
theorem not_commitsApplyAtTheSafePoint : ¬ Obligations.CommitsApplyAtTheSafePoint := by
  unfold Obligations.CommitsApplyAtTheSafePoint
  rintro ⟨-, -, -, -, -, -, hwidth⟩
  obtain ⟨t, hexec, -, hstaged, -⟩ :=
    hwidth commitBehindResetState 3 commitBehindResetState_calm rfl (by decide) rfl (by decide) (by decide)
  have hreset : t.rd (R.HP_LINK_CTRL_MAX_WIDTH 0) = 5 := by
    simpa only [hexec, Outcome.state] using safePoint_discards_width
  rw [hstaged] at hreset
  exact absurd hreset (by decide)

end Sys2Proof.Machine
end

section
/-!
PROOFS. Proofs/FabricPortOff.lean: a Daluf port that `ENABLE` switches off while its link is up loses the link (R64, Table 11-15), and
the reaction to that may be a kiln (R455).
-/

namespace Sys2Proof.Machine

/-! ### F105 with the planned-kiln action -/

/-- A device that runs, its kiln controller Ready, `MAIN_IN` good, no host port link-up, the link of its first Daluf port up, and a
scrub of the dirty bits in progress; the reaction table asks for a kiln where a Daluf link is lost (F105). -/
def scrubbingState : State :=
  (({ State.reset with power := { life := .running, mainGood := true }, halted := [], safe := { react := askingForKiln 105 },
                       dirty := { scrubRun := true } } : State).wr R.KLN_STAT_STATE 1).wr (R.DLP_STAT_STATE 0) 4

theorem scrubbingState_calm : scrubbingState.Calm where
  inv := by constructor <;> decide
  active := rfl
  pend := rfl
  normal := by decide
  diag := by decide
  margin := by decide
  src := by decide

/-- F105 latches, its reaction is a kiln that no pack path and no port holds up before K3, and K3 ends the scrub (R231). -/
theorem enableClear_ends_scrub :
    (Outcome.state (exec (.enableClear .portA 0x91) scrubbingState)).dirty.scrubRun = false := by
  decide +kernel

/-- Refutes O12: its sixth clause says that clearing `ENABLE` leaves the dirty state as it is, but on the page of a Daluf port that is
up it loses the link and detects F105, which the reaction table may answer with a kiln (R455, R466), and K3 ends the dirty scrub. -/
theorem not_blocksStartHaltAndReset : ¬ Obligations.BlocksStartHaltAndReset := by
  unfold Obligations.BlocksStartHaltAndReset
  rintro ⟨-, -, -, -, -, hclear, -⟩
  obtain ⟨t, hexec, -, hdirty⟩ :=
    hclear scrubbingState .portA 0x91 scrubbingState_calm (by decide) (by decide) (by decide) (by decide) (by decide)
  have hended : t.dirty.scrubRun = false := by simpa only [hexec, Outcome.state] using enableClear_ends_scrub
  rw [hdirty] at hended
  exact absurd hended (by decide)

end Sys2Proof.Machine
end

section
/-!
PROOFS. Proofs/MaintenanceAccess.lean: maintenance access opens and closes (R71), whatever faults are active: the reactions that follow
a command write no steady register and never the state of the access.
-/

namespace Sys2Proof.Machine

/-! ### Steady registers and reactions -/

/-- The key of a steady field is none that a reaction writes. -/
theorem Fld.not_reactKey_of_steady {f : Fld} (hsteady : f.reactive = false) (hoff : f.off < 4096) (hlsb : f.lsb < 32)
    (hidx : f.idx < 4096) : ¬ ReactKey f.key ∧ ¬ LatchKey f.key := by
  have hpage : f.key / 536870912 = f.page := by
    unfold Fld.key
    omega
  have hkeyOff : f.key / 131072 % 4096 = f.off := by
    unfold Fld.key
    omega
  unfold ReactKey LatchKey
  rw [hpage, hkeyOff]
  simp only [Fld.reactive, List.contains_cons, List.contains_nil, Bool.or_eq_false_iff, Bool.and_eq_false_iff,
    decide_eq_false_iff_not, beq_eq_false_iff_ne] at hsteady
  grind

theorem Unreacted.kept_nil {s t : State} (h : Unreacted s t) (hk : s.update.kept = []) : t.update.kept = [] :=
  h.kept.elim (fun he => he.trans hk) id

/-- Where no old settings are kept, what changes only as a reaction can leaves every steady register alone. -/
theorem Unreacted.steadyRegs {s t : State} (h : Unreacted s t) (hk : s.update.kept = []) : SteadyRegsBut s t [] := by
  intro f hsteady hoff hlsb hidx _
  obtain ⟨hreact, hlatch⟩ := Fld.not_reactKey_of_steady hsteady hoff hlsb hidx
  unfold State.rd RegFile.rd
  rw [h.regs hk f.key hreact hlatch]

/-- The end of the command goes on from what came before it. -/
theorem Unreacted.finish {s u : State} (h : Unreacted s u) : Unreacted s (finish u) := (unreacted_reactive s).finish h

/-! ### A new nonce -/

theorem State.newNonce_steadyRegs (s : State) : SteadyRegsBut s s.newNonce [R.ID_MAINT_NONCE] :=
  fun f _ _ _ _ hother => State.rd_wr_ne (s.takeFree 32).2 (s.takeFree 32).1 (hother R.ID_MAINT_NONCE (by simp))

/-- A command that ends by drawing a new nonce changes, of the steady registers, the nonce alone. -/
theorem Unreacted.finish_newNonce {s u : State} (h : Unreacted s u) (hk : s.update.kept = []) :
    (Machine.finish u.newNonce).maint = s.maint ∧ SteadyRegsBut s (Machine.finish u.newNonce) [R.ID_MAINT_NONCE] := by
  have hend : Unreacted u.newNonce (Machine.finish u.newNonce) := finish_unreacted u.newNonce
  refine ⟨hend.maint.trans h.maint, fun f hsteady hoff hlsb hidx hother => ?_⟩
  calc (Machine.finish u.newNonce).rd f
      = u.newNonce.rd f := hend.steadyRegs (h.kept_nil hk) f hsteady hoff hlsb hidx (by simp)
    _ = u.rd f := u.newNonce_steadyRegs f hsteady hoff hlsb hidx hother
    _ = s.rd f := h.steadyRegs hk f hsteady hoff hlsb hidx (by simp)

/-! ### Opening and closing -/

/-- Closing ends the access; the margins that it eases (R418) and the log are what a reaction can write as well. -/
theorem State.maintClose_unreacted (s : State) :
    Unreacted { s with maint := { s.maint with isOpen := false } } s.maintClose := by
  have C := unreacted_reactive { s with maint := { s.maint with isOpen := false } }
  unfold State.maintClose
  split
  · exact C.maintLog 0 (C.easeMargins (Unreacted.refl _))
  · next hclosed =>
    have hsame : { s with maint := { s.maint with isOpen := false } } = s := by
      rw [← Bool.eq_false_iff.mpr hclosed]
    rw [hsame]
    exact Unreacted.refl s

/-- The state with the strap as `strap` tells. -/
abbrev State.strapped (s : State) (strap : Bool) : State := { s with maint := { s.maint with strap := strap } }

/-- The right value, with the strap high and fewer than three wrong ones before it, opens access and draws a new nonce. -/
theorem State.unlock_right {s : State} {v : Nat} (hv : v ≠ 0) (hwrong : s.maint.wrong < 3)
    (hright : v = s.rd R.ID_MAINT_NONCE ^^^ 0x5A3CC3A5) :
    ∃ u, s.unlock true v = u.newNonce ∧
      Unreacted { s with maint := { s.maint with strap := true, isOpen := true } } u := by
  have hfew : ¬ 3 ≤ (s.strapped true).maint.wrong := by simpa using hwrong
  refine ⟨(s.strapped true).cond (!s.maint.isOpen) (fun s => { s with maint := { s.maint with isOpen := true } }.maintLog 1),
    ?_, ?_⟩
  · exact (if_neg hv).trans ((if_neg (by decide)).trans ((if_neg hfew).trans (if_pos hright)))
  · cases hopen : s.maint.isOpen with
    | false => exact (unreacted_reactive _).maintLog 1 (Unreacted.refl _)
    | true =>
      have hsame : { s with maint := { s.maint with strap := true, isOpen := true } } = s.strapped true := by
        simp only [State.strapped, hopen]
      rw [hsame]
      exact Unreacted.refl (s.strapped true)

/-- A wrong value is counted and warned of, and draws a new nonce. -/
theorem State.unlock_wrong {s : State} {v : Nat} (hv : v ≠ 0) (hwrong : s.maint.wrong < 3)
    (hbad : v ≠ s.rd R.ID_MAINT_NONCE ^^^ 0x5A3CC3A5) :
    ∃ u, s.unlock true v = u.newNonce ∧
      Unreacted { s with maint := { s.maint with strap := true, wrong := s.maint.wrong + 1 } } u := by
  have hfew : ¬ 3 ≤ (s.strapped true).maint.wrong := by simpa using hwrong
  refine ⟨{ s with maint := { s.maint with strap := true, wrong := s.maint.wrong + 1 } }.warning 0x00, ?_,
    (unreacted_reactive _).warning 0x00 (Unreacted.refl _)⟩
  exact (if_neg hv).trans ((if_neg (by decide)).trans ((if_neg hfew).trans (if_neg hbad)))

/-- Over the sideband, while the pages answer, a write of `MAINT_UNLOCK` is the unlock. -/
theorem exec_maintUnlock_sideband {s : State} (hpaged : s.paged = true) (strap : Bool) (v : Nat) :
    exec (.maintUnlock .sideband strap v) s = .next (finish (s.begin.unlock strap (v % 2 ^ 32))) := by
  have hwrite : s.begin.unlockWrite .sideband strap v = s.begin.unlock strap (v % 2 ^ 32) := if_pos hpaged
  exact congrArg (fun u => Host.Outcome.next (finish u)) hwrite

/-- Settles O14: what the unlock and the closing write besides the state of the access is what a reaction can write as well, but for
the nonce; and the end of a command writes neither. -/
theorem maintenanceAccessOpensAndCloses : Obligations.MaintenanceAccessOpensAndCloses := by
  unfold Obligations.MaintenanceAccessOpensAndCloses
  refine ⟨?_, ?_, ?_, ?_⟩
  · intro s hs hpaged hwrong hnonce hword
    have hkey : s.rd R.ID_MAINT_NONCE ^^^ 0x5A3CC3A5 ≠ 0 := fun h => hnonce (Nat.xor_eq_zero_iff.mp h)
    have hfits : (s.rd R.ID_MAINT_NONCE ^^^ 0x5A3CC3A5) % 2 ^ 32 = s.rd R.ID_MAINT_NONCE ^^^ 0x5A3CC3A5 :=
      Nat.mod_eq_of_lt (Nat.xor_lt_two_pow hword (by decide))
    obtain ⟨u, hunlock, hu⟩ := State.unlock_right (s := s.begin) hkey hwrong rfl
    obtain ⟨hmaint, hframe⟩ := hu.finish_newNonce hs.kept
    refine ⟨finish u.newNonce, ?_, by rw [hmaint], by rw [hmaint], hframe⟩
    rw [exec_maintUnlock_sideband hpaged, hfits, hunlock]
  · intro s v hs hpaged hclosed hv hbad hwrong
    obtain ⟨u, hunlock, hu⟩ := State.unlock_wrong (s := s.begin) hv hwrong hbad
    obtain ⟨hmaint, hframe⟩ := hu.finish_newNonce hs.kept
    refine ⟨finish u.newNonce, ?_, ?_, by rw [hmaint]; rfl, hframe⟩
    · rw [exec_maintUnlock_sideband hpaged, hunlock]
    · rw [hmaint]
      exact hclosed
  · intro s hs
    have hclose := s.begin.maintClose_unreacted.finish
    exact ⟨finish s.begin.maintClose, rfl, by rw [hclose.maint], by rw [hclose.maint]; rfl, hclose.steadyRegs hs.kept⟩
  · intro s hs
    have hclose := (s.begin.strapped false).maintClose_unreacted.finish
    exact ⟨finish (s.begin.strapped false).maintClose, rfl, by rw [hclose.maint], by rw [hclose.maint],
      hclose.steadyRegs hs.kept⟩

end Sys2Proof.Machine
end

section
/-!
PROOFS. Proofs/InterleaveAfterRefusal.lean: a decoder whose commit was refused for its range (R84) is committed again with an
interleave that the port does not support (R80): the second refusal clears what the first one left in `DEC_STAT.REJECTED`.
-/

namespace Sys2Proof.Machine

/-! ### A commit refused twice -/

/-- Port A of a running device is link-up; its slice is empty. -/
def linkedState : State := runningState.wr (R.HP_LINK_STAT_UP 0) 1

/-- Decoder 0 asks for 256 MiB that the slice does not hold; the reaction to F007 ends, and its event source is released (R454). -/
def refusedCommit : List Sys2Proof.Instr := [.decoderCommit 0 0 0 1 1 256, .reactionDone, .eventSourceRelease 7]

/-- The device is calm again, and the refusal stands in `DEC_STAT.REJECTED`. -/
def refusedCommitState : State := refusedCommit.foldl (fun s c => Outcome.state (exec c s)) linkedState

theorem refusedCommitState_calm : refusedCommitState.Calm where
  inv := by constructor <;> decide +kernel
  active := by decide +kernel
  pend := by decide +kernel
  normal := by decide +kernel
  diag := by decide +kernel
  margin := by decide +kernel
  src := by decide +kernel

theorem refusedCommitState_rejected : refusedCommitState.rd (R.HP_DEC_STAT_REJECTED 0) = 1 := by decide +kernel

/-- An interleave over three ways, which the port does not support (Table 04-1). -/
def threeWayCommit : Sys2Proof.Instr := .decoderCommit 0 0 0 1 3 256

theorem threeWayCommit_clears_rejected :
    (Outcome.state (exec threeWayCommit refusedCommitState)).rd (R.HP_DEC_STAT_REJECTED 0) = 0 := by
  decide +kernel

/-- Refutes O18: its last clause says that a commit with an unsupported interleave changes `DEC_STAT.COMMITTED` alone, but it clears
the decoder's bit of `DEC_STAT.REJECTED` as well, which tells whether R84 refused the last attempt. -/
theorem not_decodersCommitInsideTheSlice : ¬ Obligations.DecodersCommitInsideTheSlice := by
  unfold Obligations.DecodersCommitInsideTheSlice
  rintro ⟨-, -, -, hunsupported⟩
  obtain ⟨t, hexec, -, -, -, hframe, -⟩ := hunsupported refusedCommitState 0 0 0 1 3 256 refusedCommitState_calm
    (by decide) rfl (by decide) (by decide +kernel) (by decide +kernel) (by decide +kernel)
  have hkept : t.rd (R.HP_DEC_STAT_REJECTED 0) = 1 :=
    (hframe _ (by decide) (by decide) (by decide) (by decide) (by decide)).trans refusedCommitState_rejected
  have hcleared : t.rd (R.HP_DEC_STAT_REJECTED 0) = 0 := by
    simpa only [threeWayCommit, hexec, Outcome.state] using threeWayCommit_clears_rejected
  rw [hkept] at hcleared
  exact absurd hcleared (by decide)

end Sys2Proof.Machine
end

section
/-!
PROOFS. Proofs/RestExit.lean: the registers that leaving a rest state leaves alone (R431, R329).
-/

namespace Sys2Proof.Machine

/-! ### The pages that a rest exit writes -/

/-- The pages of the fabric and its ports, of the sequencer and of the power states. -/
def wakePage (p : Nat) : Bool := (decide (0x90 ≤ p) && decide (p ≤ 0x94)) || p == 0xA0 || p == 0xD8

/-- From `s` to `t`, registers changed on the pages that a rest exit writes alone. -/
def WakeRegs (s t : State) : Prop := ∀ k, wakePage (keyPage k) = false → t.regs.get k = s.regs.get k

theorem WakeRegs.refl (s : State) : WakeRegs s s := fun _ _ => rfl

theorem wakePage_hostPage (p : Nat) : wakePage (0x10 + p % 2) = false := by
  rcases Nat.mod_two_eq_zero_or_one p with hp | hp <;> rw [hp] <;> rfl

theorem WakeRegs.rd {s t : State} (h : WakeRegs s t) {f : Fld} (hf : wakePage (keyPage f.key) = false) : t.rd f = s.rd f := by
  unfold State.rd RegFile.rd
  rw [h f.key hf]

section

variable {s₀ s : State} (h : WakeRegs s₀ s)

include h

theorem WakeRegs.wr {f : Fld} (hf : wakePage (keyPage f.key) = true) (v : Nat) : WakeRegs s₀ (s.wr f v) := by
  intro k hk
  have hne : k ≠ f.key := by
    rintro rfl
    rw [hf] at hk
    cases hk
  exact (NMap.get_set_ne s.regs _ hne).trans (h k hk)

theorem WakeRegs.inc {f : Fld} (hf : wakePage (keyPage f.key) = true) : WakeRegs s₀ (s.inc f) :=
  pres_ite (h.wr hf _) h

theorem WakeRegs.setBit {f : Fld} (hf : wakePage (keyPage f.key) = true) (i : Nat) (b : Bool) : WakeRegs s₀ (s.setBit f i b) :=
  pres_ite h (h.wr hf _)

/-! ### The sequencer -/

theorem WakeRegs.seqStop (failed : Bool) : WakeRegs s₀ (s.seqStop failed) := by
  have hpending : WakeRegs s₀ (s.wr R.SEQ_STAT_PENDING 0) := h.wr (by decide) 0
  exact ((((hpending.wr (by decide) _).wr (by decide) _).wr (by decide) _).wr (by decide) _).wr (by decide) _

theorem WakeRegs.seqRequest (n : Nat) : WakeRegs s₀ (s.seqRequest n) := by
  unfold State.seqRequest
  split
  · exact h
  · exact pres_ite h (pres_ite (h.seqStop false) (pres_ite (h.seqStop false) (h.setBit (by decide) n true)))

/-! ### The flood of the state -/

theorem WakeRegs.pump (n pl k : Nat) : WakeRegs s₀ (s.pump n pl k) := by
  induction k generalizing s with
  | zero => exact h
  | succ k ih =>
    unfold State.pump
    refine pres_ite h ?_
    split
    · exact h
    · split
      · exact h
      · exact ih h

theorem WakeRegs.dropAlarm (n : Nat) : WakeRegs s₀ (s.dropAlarm n) := by
  have hpage : wakePage (keyPage (R.DLP_DROP_ALARM n).key) = true := by
    have hkey : keyPage (R.DLP_DROP_ALARM n).key = 0x91 + n % 4 := by
      simp only [keyPage, Fld.key, R.DLP_DROP_ALARM]
      omega
    simp only [hkey, wakePage, Bool.or_eq_true, Bool.and_eq_true, decide_eq_true_eq]
    omega
  exact WakeRegs.inc (s := { s with fabric := { s.fabric with hopDrops := s.fabric.hopDrops + 1 } }) h hpage

theorem WakeRegs.sendOn (n pl : Nat) (p : Packet) : WakeRegs s₀ (s.sendOn n pl p) := by
  have hput {u : State} (hu : WakeRegs s₀ u) (l : Plane) (k : Nat) : WakeRegs s₀ ((u.setPlane n pl l).pump n pl k) :=
    WakeRegs.pump (s := u.setPlane n pl l) hu n pl k
  unfold State.sendOn
  refine pres_ite h ?_
  split
  · exact pres_ite (hput h _ _) (pres_ite (hput (WakeRegs.dropAlarm (s := s.setPlane n pl _) h n) _ _) (h.dropAlarm n))
  · exact hput h _ _

theorem WakeRegs.floodOut (src : Nat) (p : Packet) : WakeRegs s₀ (s.floodOut src p) :=
  pres_each h (fun _ n h1 => pres_cond h1 (fun _ h2 => (h2.sendOn n 0 p).sendOn n 1 p))

theorem WakeRegs.floodOwn (typ : Nat) (p : Packet) : WakeRegs s₀ (s.floodOwn typ p) :=
  WakeRegs.floodOut (s := s.remember p.src typ p.seq) h 4 p

theorem WakeRegs.floodLsa : WakeRegs s₀ s.floodLsa := by
  unfold State.floodLsa
  refine pres_ite h (WakeRegs.floodOwn ?_ _ _)
  exact WakeRegs.wr (s := { s with fabric := { s.fabric with lsaAt := s.puNow + 1, lsaDue := false } }) h (by decide) _

theorem WakeRegs.announce : WakeRegs s₀ s.announce := by
  unfold State.announce
  exact pres_ite h h.floodLsa

/-! ### The exit -/

theorem WakeRegs.restExit : WakeRegs s₀ s.restExit := by
  have hstate : WakeRegs s₀ (s.wr R.PWR_STAT_STATE 0) := h.wr (by decide) 0
  exact pres_ite (WakeRegs.announce (pres_cond hstate (fun _ h1 => h1.seqRequest 5))) h

end

/-- In P0 there is no rest to leave. -/
theorem State.restExit_of_p0 {s : State} (h : s.rd R.PWR_STAT_STATE = 0) : s.restExit = s :=
  if_neg (by simp [h])

end Sys2Proof.Machine
end

section
/-!
PROOFS. Proofs/MemoryAccess.lean: which commands stop the device: CXL.mem accesses outside the slice of their port, and no other
(R83 to R85).
-/

namespace Sys2Proof.Machine

/-! ### A command that accesses no memory -/

/-- The meaning of each command but the two accesses is a next state. -/
theorem exec_next_of_not_accessesMemory {c : Sys2Proof.Instr} (hc : c.accessesMemory = false) (s : State) :
    ∃ t, exec c s = .next t := by
  cases c with
  | hostWrite | hostRead => cases hc
  | _ => exact ⟨_, rfl⟩

/-! ### An access -/

/-- The state that serves an access of port `p`: the device has left its rest state. -/
abbrev State.readied (s : State) (p load : Nat) : State := (s.begin.devLoad p load).noQuiet.restExit

/-- What becomes of an access of port `p` to granule `g`: `down` while the port takes no requests, `early` before Steep Ready, a
fault outside the slice, else `done`. -/
def State.accessOutcome (s : State) (p g load : Nat) (down early done : State) : Host.Outcome State Fault Refusal :=
  if s.memUp p = false then .next down
  else if (s.readied p load).serves = false then .next early
  else if (s.readied p load).decodes p g = false then .fault .dpaOutsideSlice
  else .next done

theorem exec_hostWrite_eq_accessOutcome (port tag line load : Nat) (bytes : List (Nat × Byte)) (poison setFull : Bool)
    (ecc : Ecc) (s : State) :
    ∃ down early done, exec (.hostWrite port tag line load bytes poison setFull ecc) s =
      s.accessOutcome (port % 2) (line / 64) load down early done :=
  ⟨_, _, _, rfl⟩

theorem exec_hostRead_eq_accessOutcome (port tag line load : Nat) (ecc : Ecc) (s : State) :
    ∃ down early done, exec (.hostRead port tag line load ecc) s =
      s.accessOutcome (port % 2) (line / 64) load down early done :=
  ⟨_, _, _, rfl⟩

/-- Granules decode alike where the slice and the host capacity read the same. -/
theorem State.decodes_congr {s t : State} {p g : Nat} (hbase : t.rd (R.HP_SLICE_BASE p) = s.rd (R.HP_SLICE_BASE p))
    (hsize : t.rd (R.HP_SLICE_SIZE p) = s.rd (R.HP_SLICE_SIZE p)) (hcap : t.rd R.CAP_HOST = s.rd R.CAP_HOST) :
    t.decodes p g = s.decodes p g := by
  unfold State.decodes State.inSlice State.decodable
  rw [hbase, hsize, hcap]

/-- Leaving the rest state and showing the load do not move the slice. -/
theorem State.readied_decodes (s : State) (p g load : Nat) : (s.readied p load).decodes p g = s.decodes p g := by
  have hrest : WakeRegs (s.begin.devLoad p load).noQuiet (s.readied p load) := (WakeRegs.refl _).restExit
  have hbase : keyPage (R.HP_SLICE_BASE p).key = 0x10 + p % 2 := by
    simp only [keyPage, Fld.key, R.HP_SLICE_BASE]
    omega
  have hsize : keyPage (R.HP_SLICE_SIZE p).key = 0x10 + p % 2 := by
    simp only [keyPage, Fld.key, R.HP_SLICE_SIZE]
    omega
  refine State.decodes_congr ?_ ?_ ?_
  · rw [hrest.rd (by rw [hbase, wakePage_hostPage])]
    exact State.rd_wr_ne s.begin _ (by simp only [Fld.key, R.HP_SLICE_BASE, R.HP_LOAD_STAT_BW_LOAD]; omega)
  · rw [hrest.rd (by rw [hsize, wakePage_hostPage])]
    exact State.rd_wr_ne s.begin _ (by simp only [Fld.key, R.HP_SLICE_SIZE, R.HP_LOAD_STAT_BW_LOAD]; omega)
  · rw [hrest.rd (by decide)]
    exact State.rd_wr_ne s.begin _ (by simp only [Fld.key, R.CAP_HOST, R.HP_LOAD_STAT_BW_LOAD]; omega)

/-- In P0 the access changes nothing of what serving depends on. -/
theorem State.readied_serves_of_p0 {s : State} (h0 : s.rd R.PWR_STAT_STATE = 0) (p load : Nat) :
    (s.readied p load).serves = s.serves := by
  have hother {f : Fld} (hf : f.key ≠ (R.HP_LOAD_STAT_BW_LOAD p).key) : (s.begin.devLoad p load).noQuiet.rd f = s.rd f :=
    State.rd_wr_ne s.begin _ hf
  have hphase := hother (f := R.STP_STAT_PHASE) (by simp only [Fld.key, R.STP_STAT_PHASE, R.HP_LOAD_STAT_BW_LOAD]; omega)
  have hpower := hother (f := R.PWR_STAT_STATE) (by simp only [Fld.key, R.PWR_STAT_STATE, R.HP_LOAD_STAT_BW_LOAD]; omega)
  have hrest : s.readied p load = (s.begin.devLoad p load).noQuiet := State.restExit_of_p0 (hpower.trans h0)
  rw [hrest]
  unfold State.serves State.steepReady
  rw [hphase]
  rfl

section

variable {s : State} {p g load : Nat} {down early done : State}

/-- An access goes on, or the port takes requests and the access stops outside the slice. -/
theorem State.accessOutcome_cases :
    (∃ t, s.accessOutcome p g load down early done = .next t) ∨
      (s.memUp p = true ∧ s.accessOutcome p g load down early done = .fault .dpaOutsideSlice) := by
  unfold State.accessOutcome
  split
  · exact .inl ⟨down, rfl⟩
  · next hup =>
    split
    · exact .inl ⟨early, rfl⟩
    · split
      · exact .inr ⟨Bool.eq_true_of_not_eq_false hup, rfl⟩
      · exact .inl ⟨done, rfl⟩

theorem State.accessOutcome_next
    (h : s.memUp p = false ∨ s.decodes p g = true ∨ (s.serves = false ∧ s.rd R.PWR_STAT_STATE = 0)) :
    ∃ t, s.accessOutcome p g load down early done = .next t := by
  unfold State.accessOutcome
  rw [State.readied_decodes]
  rcases h with hdown | hinside | ⟨hearly, h0⟩
  · exact ⟨down, if_pos hdown⟩
  · simp only [hinside, Bool.true_eq_false, if_false]
    split
    · exact ⟨down, rfl⟩
    · split
      · exact ⟨early, rfl⟩
      · exact ⟨done, rfl⟩
  · rw [State.readied_serves_of_p0 h0, if_pos hearly]
    split
    · exact ⟨down, rfl⟩
    · exact ⟨early, rfl⟩

theorem State.accessOutcome_fault (hup : s.memUp p = true) (hserves : s.serves = true) (h0 : s.rd R.PWR_STAT_STATE = 0)
    (houtside : s.decodes p g = false) : s.accessOutcome p g load down early done = .fault .dpaOutsideSlice := by
  unfold State.accessOutcome
  rw [State.readied_decodes, State.readied_serves_of_p0 h0]
  simp [hup, hserves, houtside]

end

/-! ### Every command -/

/-- The command is an access to memory through a port that takes requests. -/
def AccessesThroughUpPort (s : State) (c : Sys2Proof.Instr) : Prop :=
  ∃ port tag line load, s.memUp (port % 2) = true ∧ ((∃ ecc, c = .hostRead port tag line load ecc) ∨
    ∃ bytes poison setFull ecc, c = .hostWrite port tag line load bytes poison setFull ecc)

/-- A command goes on, or it is an access that stops outside the slice. -/
theorem exec_next_or_fault (c : Sys2Proof.Instr) (s : State) :
    (∃ t, exec c s = .next t) ∨ (AccessesThroughUpPort s c ∧ exec c s = .fault .dpaOutsideSlice) := by
  by_cases hc : c.accessesMemory = false
  · exact .inl (exec_next_of_not_accessesMemory hc s)
  · cases c with
    | hostWrite port tag line load bytes poison setFull ecc =>
      obtain ⟨down, early, done, hexec⟩ := exec_hostWrite_eq_accessOutcome port tag line load bytes poison setFull ecc s
      rw [hexec]
      exact State.accessOutcome_cases.imp_right (fun ⟨hup, hfault⟩ =>
        ⟨⟨port, tag, line, load, hup, .inr ⟨bytes, poison, setFull, ecc, rfl⟩⟩, hfault⟩)
    | hostRead port tag line load ecc =>
      obtain ⟨down, early, done, hexec⟩ := exec_hostRead_eq_accessOutcome port tag line load ecc s
      rw [hexec]
      exact State.accessOutcome_cases.imp_right (fun ⟨hup, hfault⟩ =>
        ⟨⟨port, tag, line, load, hup, .inl ⟨ecc, rfl⟩⟩, hfault⟩)
    | _ => exact absurd rfl hc

/-- A command that goes on leaves the queue and the variant alone (R1). -/
theorem exec_next_keeps_queue {c : Sys2Proof.Instr} {s : State} (h : ∃ t, exec c s = .next t) :
    ∃ t, exec c s = .next t ∧ t.pending = s.pending ∧ t.variant = s.variant := by
  obtain ⟨t, ht⟩ := h
  exact ⟨t, ht, commandsLeaveTheQueueAndTheVariant c s t ht⟩

/-- Settles O4: every command but the two accesses has a next state for its meaning, and of an access the outcome is known by the
port, the start and the slice (`State.accessOutcome`), which leaving a rest state does not move. -/
theorem onlyAccessesOutsideTheSliceStop : Obligations.OnlyAccessesOutsideTheSliceStop := by
  unfold Obligations.OnlyAccessesOutsideTheSliceStop
  refine ⟨?_, ?_, ?_, ?_, ?_⟩
  · intro c s r hrefused
    rcases exec_next_or_fault c s with ⟨t, hnext⟩ | ⟨-, hfault⟩
    · cases hrefused.symm.trans hnext
    · cases hrefused.symm.trans hfault
  · intro c s f hstop
    rcases exec_next_or_fault c s with ⟨t, hnext⟩ | ⟨haccess, hfault⟩
    · cases hstop.symm.trans hnext
    · cases hstop.symm.trans hfault
      exact ⟨rfl, haccess⟩
  · intro c s hc
    exact exec_next_keeps_queue (exec_next_of_not_accessesMemory hc s)
  · intro s port tag line load ecc bytes poison setFull hport hserved
    obtain ⟨_, _, _, hread⟩ := exec_hostRead_eq_accessOutcome port tag line load ecc s
    obtain ⟨_, _, _, hwrite⟩ := exec_hostWrite_eq_accessOutcome port tag line load bytes poison setFull ecc s
    rw [Nat.mod_eq_of_lt hport] at hread hwrite
    exact ⟨exec_next_keeps_queue (hread ▸ State.accessOutcome_next hserved),
      exec_next_keeps_queue (hwrite ▸ State.accessOutcome_next hserved)⟩
  · intro s port tag line load ecc bytes poison setFull hport hup hserves h0 houtside
    obtain ⟨_, _, _, hread⟩ := exec_hostRead_eq_accessOutcome port tag line load ecc s
    obtain ⟨_, _, _, hwrite⟩ := exec_hostWrite_eq_accessOutcome port tag line load bytes poison setFull ecc s
    rw [Nat.mod_eq_of_lt hport] at hread hwrite
    exact ⟨hread.trans (State.accessOutcome_fault hup hserves h0 houtside),
      hwrite.trans (State.accessOutcome_fault hup hserves h0 houtside)⟩

end Sys2Proof.Machine
end

section
/-!
PROOFS. Proofs/PatrolOfTheHeatMap.lean: the patrol reads the keep region as well (R118), and an uncorrectable error that it meets in a
line of the heat map raises the heat of 64 regions (R28, R163).
-/

namespace Sys2Proof.Machine

/-! ### A patrol step that meets a failing line of the heat map -/

/-- Host-visible capacity of the Malthouse module in granules: 16 TiB less its keep region (R26). -/
def malthouseHost : Nat := 4284130816

/-- The first granule of the heat map on the Malthouse module: past the granule map (32 GiB), the map directory (64 MiB) and the
dirty and steep bitmaps (512 MiB each) of Table 01-8, in the order of assumption 150. -/
def heatMapGranule : Nat := malthouseHost + (32 * 2 ^ 30 + 64 * 2 ^ 20 + 2 * (512 * 2 ^ 20)) / granuleBytes

/-- A Malthouse module in ST4 with 16 TiB on 16 channels: no region has any heat, and the patrol of channel 6 has come to the
local index of `heatMapGranule` (R112). -/
def patrolledState : State :=
  ((((({ State.reset with power := { life := .running }, halted := [],
                          dram := { patrolPos := [(6, heatMapGranule / 16)] } } : State).wr R.STP_STAT_PHASE 4).wr
    R.CAP_DMC_POPULATED 0xFFFF).wr R.CAP_DRAM (2 ^ 32)).wr R.CAP_HOST malthouseHost).wr (R.DMC_GRAN 6) (2 ^ 28)

theorem patrolledState_sound : patrolledState.Sound where
  inv := by constructor <;> decide
  kept := rfl

/-- The first line of the granule does not correct: its regions are set to level 127 with `TOUCHED` clear (Table 06-7). -/
theorem patrolStep_raises_heat :
    (Outcome.state (exec (.patrolStep 6 [(64 * heatMapGranule, .failing 0)]) patrolledState)).dirty.heat.get 0 = 254 := by
  decide

/-- Refutes O25: its second clause says that a patrol step leaves the dirty state as it is, whatever it finds, but a line that it
finds failing may be one of the heat map in the keep region (R28, R118), whose 64 regions then go to the highest level (R163,
Table 06-7). -/
theorem not_patrolAndRepairGoOn : ¬ Obligations.PatrolAndRepairGoOn := by
  unfold Obligations.PatrolAndRepairGoOn
  rintro ⟨-, hpatrol, -⟩
  obtain ⟨t, hexec, -, -, -, hdirty⟩ :=
    hpatrol patrolledState 6 [(64 * heatMapGranule, .failing 0)] patrolledState_sound (by decide) (by decide)
      (by decide) (by decide)
  have hraised : t.dirty.heat.get 0 = 254 := by
    simpa only [hexec, Outcome.state] using patrolStep_raises_heat
  rw [hdirty] at hraised
  exact absurd hraised (by decide)

end Sys2Proof.Machine
end

section
/-!
PROOFS. Proofs/NumberSets.lean: what each operation on sets of numbers does to membership. None of it needs the canonical form.
-/

namespace Sys2Proof.Machine

-- One theorem after another: proofs elaborated side by side each hold a stack, and the whole text compiles near its memory limit.
set_option Elab.async false

theorem RSet.has_cons (i : Nat × Nat) (s : RSet) (x : Nat) :
    RSet.has (i :: s) x = true ↔ (i.1 ≤ x ∧ x < i.2) ∨ RSet.has s x = true := by
  simp [RSet.has]

theorem RSet.has_iff_exists {s : RSet} {x : Nat} : RSet.has s x = true ↔ ∃ i ∈ s, i.1 ≤ x ∧ x < i.2 := by
  induction s with
  | nil => simp [RSet.has]
  | cons i s ih => simp [RSet.has_cons, ih]

theorem RSet.has_cut {s : RSet} {lo hi x : Nat} : RSet.has (s.cut lo hi) x = true ↔ RSet.has s x = true ∧ (x < lo ∨ hi ≤ x) := by
  induction s with
  | nil => simp [RSet.cut, RSet.has]
  | cons i s ih =>
    simp only [RSet.cut]
    split_ifs <;> simp only [RSet.has_cons, ih] <;> grind

theorem RSet.has_put {s : RSet} {lo hi x : Nat} (h : lo < hi) :
    RSet.has (s.put lo hi) x = true ↔ (lo ≤ x ∧ x < hi) ∨ RSet.has s x = true := by
  induction s generalizing lo hi with
  | nil => simp [RSet.put, RSet.has]
  | cons i s ih =>
    simp only [RSet.put]
    split_ifs with hempty hbefore htouch hafter
    · simp only [RSet.has_cons, ih h]
      grind
    · simp only [RSet.has_cons]
    · simp only [RSet.has_cons]
      grind
    · simp only [RSet.has_cons, ih (show i.1 < hi by omega)]
      grind
    · simp only [RSet.has_cons, ih h]
      grind

theorem RSet.has_add {s : RSet} {lo hi x : Nat} :
    RSet.has (s.add lo hi) x = true ↔ (lo ≤ x ∧ x < hi) ∨ RSet.has s x = true := by
  unfold RSet.add
  split_ifs with h
  · rw [RSet.has_put h, RSet.has_cut]
    grind
  · grind

theorem RSet.has_union {s t : RSet} {x : Nat} : RSet.has (s.union t) x = true ↔ RSet.has s x = true ∨ RSet.has t x = true := by
  unfold RSet.union
  induction t generalizing s with
  | nil => simp [RSet.has]
  | cons i t ih =>
    rw [List.foldl_cons, ih, RSet.has_add, RSet.has_cons]
    tauto

theorem RSet.has_diff {s t : RSet} {x : Nat} : RSet.has (s.diff t) x = true ↔ RSet.has s x = true ∧ ¬ RSet.has t x = true := by
  unfold RSet.diff
  induction t generalizing s with
  | nil => simp [RSet.has]
  | cons i t ih =>
    rw [List.foldl_cons, ih, RSet.has_cut, RSet.has_cons]
    grind

/-- Every member that lies between the limits lies in an interval of the slice. -/
theorem RSet.exists_mem_slice {s : RSet} {lo hi x : Nat} (h : RSet.has s x = true) (hlo : lo ≤ x) (hhi : x < hi) :
    ∃ i ∈ s.slice lo hi, i.1 ≤ x ∧ x < i.2 := by
  obtain ⟨i, hi, hfrom, hto⟩ := RSet.has_iff_exists.mp h
  refine ⟨(max i.1 lo, min i.2 _), ?_, max_le hfrom hlo, lt_min hto hhi⟩
  exact List.mem_filterMap.mpr ⟨i, hi, if_pos (by omega)⟩

end Sys2Proof.Machine
end

section
/-!
PROOFS. Proofs/VolatileRanges.lean: a range that `VOLATILE_SET` makes persistent (R143): what of it was volatile is marked dirty, and
nothing else changes but the registers that count dirty granules.
-/

namespace Sys2Proof.Machine

-- One theorem after another: proofs elaborated side by side each hold a stack, and the whole text compiles near its memory limit.
set_option Elab.async false

/-! ### What marking granules dirty changes -/

/-- From `s` to `u`, nothing changed but the dirty state, of which the volatile ranges stay and no bit is cleared, and the registers
that count dirty granules (R135 to R137). -/
structure MarksOnly (s u : State) : Prop where
  wf : s.regs.wf = true → u.regs.wf = true
  regs : ∀ k, (∀ f ∈ dirtyRegs, k ≠ f.key) → u.regs.get k = s.regs.get k
  parts : u = { s with regs := u.regs, dirty := u.dirty }
  vol : u.dirty.vol = s.dirty.vol
  bits : ∀ g, s.isDirty g = true → u.isDirty g = true

theorem MarksOnly.refl (s : State) : MarksOnly s s := ⟨id, fun _ _ => rfl, rfl, rfl, fun _ => id⟩

theorem rankDirty_mem_dirtyRegs (n : Nat) : R.DRT_RANK_DIRTY n ∈ dirtyRegs := by
  have hcut : R.DRT_RANK_DIRTY n = R.DRT_RANK_DIRTY (n % 128) := by simp [R.DRT_RANK_DIRTY]
  rw [hcut]
  exact List.mem_cons_of_mem _ (List.mem_cons_of_mem _
    (List.mem_map_of_mem (List.mem_range.mpr (Nat.mod_lt n (by decide)))))

theorem keyPage_dirtyRegs {f : Fld} (hf : f ∈ dirtyRegs) : keyPage f.key = 0x40 := by
  simp only [dirtyRegs, List.mem_cons, List.mem_map, List.mem_range] at hf
  rcases hf with rfl | rfl | ⟨n, -, rfl⟩
  · rfl
  · rfl
  · simp only [keyPage, Fld.key, R.DRT_RANK_DIRTY]
    omega

section

variable {s u : State} (h : MarksOnly s u)

include h

theorem MarksOnly.rd {f : Fld} (hf : ∀ g ∈ dirtyRegs, f.key ≠ g.key) : u.rd f = s.rd f := by
  unfold State.rd RegFile.rd
  rw [h.regs f.key hf]

theorem MarksOnly.rd_of_page {f : Fld} (hf : keyPage f.key ≠ 0x40) : u.rd f = s.rd f := by
  refine h.rd (fun g hg he => hf ?_)
  rw [he, keyPage_dirtyRegs hg]

theorem MarksOnly.inVol (g : Nat) : u.inVol g = s.inVol g := by
  unfold State.inVol
  rw [h.vol]

theorem MarksOnly.wr {f : Fld} (hf : f ∈ dirtyRegs) (v : Nat) : MarksOnly s (u.wr f v) where
  wf hw := State.wf_wr f v (h.wf hw)
  regs k hk := (NMap.get_set_ne u.regs _ (hk f hf)).trans (h.regs k hk)
  parts := by
    have hparts := h.parts
    unfold State.wr
    rw [hparts]
  vol := h.vol
  bits := h.bits

theorem MarksOnly.setDirty {d : Dirty} (hvol : d.vol = u.dirty.vol)
    (hbits : ∀ g, u.dirty.bits.has g = true → d.bits.has g = true) : MarksOnly s { u with dirty := d } where
  wf := h.wf
  regs := h.regs
  parts := by
    have hparts := h.parts
    rw [hparts]
  vol := hvol.trans h.vol
  bits g hg := hbits g (h.bits g hg)

theorem MarksOnly.rankBulk (set : RSet) (up : Bool) : MarksOnly s (u.rankBulk set up) := by
  have hmove {t : State} (ht : MarksOnly s t) (i v : Nat) : MarksOnly s (t.wr (R.DRT_RANK_DIRTY i) v) :=
    ht.wr (rankDirty_mem_dirtyRegs i) v
  exact pres_foldl (pres_each h (fun _ i ht => pres_ite ht (hmove ht i _))) (fun _ _ ht => hmove (hmove ht _ _) _ _)

end

/-! ### A run of granules -/

/-- The state after the bits of a run of clean granules, before its counts (`State.markRange`). -/
def State.withMarked (s : State) (lo hi : Nat) : State :=
  { s with dirty := { s.dirty with
      bits := s.dirty.bits.union (s.cleanIn lo hi), summary := s.dirty.summary.union (regionsOf (s.cleanIn lo hi)),
      inflow := s.dirty.inflow + (s.cleanIn lo hi).card,
      inflight := s.dirty.inflight.map (fun (e : InFlight) =>
        if lo ≤ e.granule ∧ e.granule < hi ∧ ¬ s.inVol e.granule then e.hit else e) } }

theorem State.withMarked_marksOnly (s : State) (lo hi : Nat) : MarksOnly s (s.withMarked lo hi) :=
  (MarksOnly.refl s).setDirty rfl (fun _ hg => RSet.has_union.mpr (.inl hg))

/-- The counts change no bit: they follow the bits of `State.withMarked`. -/
theorem State.markRange_counts (s : State) {lo hi : Nat} (h : lo < hi) :
    MarksOnly (s.withMarked lo hi) (s.markRange lo hi) := by
  unfold State.markRange
  rw [if_neg (by omega)]
  exact (((MarksOnly.refl (s.withMarked lo hi)).wr (.head _) _).wr (.tail _ (.head _)) _).rankBulk _ _

theorem MarksOnly.trans {s u t : State} (h : MarksOnly s u) (h' : MarksOnly u t) : MarksOnly s t where
  wf hw := h'.wf (h.wf hw)
  regs k hk := (h'.regs k hk).trans (h.regs k hk)
  parts := by
    have hparts := h'.parts
    rw [h.parts] at hparts
    exact hparts
  vol := h'.vol.trans h.vol
  bits g hg := h'.bits g (h.bits g hg)

theorem State.markRange_marksOnly (s : State) (lo hi : Nat) : MarksOnly s (s.markRange lo hi) := by
  by_cases h : lo < hi
  · exact (s.withMarked_marksOnly lo hi).trans (s.markRange_counts h)
  · rw [State.markRange, if_pos (by omega)]
    exact MarksOnly.refl s

theorem RSet.has_granules (v : RSet) (g : Nat) :
    RSet.has (v.map (fun i => (i.1 * granulesPerRegion, i.2 * granulesPerRegion))) g = v.has (g / granulesPerRegion) := by
  rw [Bool.eq_iff_iff, RSet.has_iff_exists, RSet.has_iff_exists]
  simp only [List.mem_map, exists_exists_and_eq_and]
  refine exists_congr (fun i => and_congr_right (fun _ => ?_))
  unfold granulesPerRegion
  omega

/-- Every granule of the run that is not volatile is dirty afterwards. -/
theorem State.markRange_isDirty {s : State} {lo hi g : Nat} (hlo : lo ≤ g) (hhi : g < hi) (hg : s.inVol g = false) :
    (s.markRange lo hi).isDirty g = true := by
  refine (s.markRange_counts (by omega)).bits g (RSet.has_union.mpr ?_)
  by_cases hb : s.dirty.bits.has g = true
  · exact .inl hb
  · refine .inr ?_
    unfold State.cleanIn
    rw [RSet.has_diff, RSet.has_diff, RSet.has_granules]
    refine ⟨⟨?_, hb⟩, by rw [Bool.not_eq_true]; exact hg⟩
    simp [RSet.has, hlo, hhi]

/-! ### Ranges made persistent -/

/-- The granules of each range of regions marked dirty, up to the host's capacity. -/
def State.markRegions (s : State) (ranges : RSet) : State :=
  ranges.foldl (fun s v => s.markRange (v.1 * granulesPerRegion) (s.regionEnd v.2)) s

theorem State.setVolatile_false (s : State) (lo hi : Nat) :
    s.setVolatile lo hi false =
      { s with dirty := { s.dirty with vol := s.dirty.vol.cut lo hi } }.markRegions (s.dirty.vol.slice lo hi) := rfl

theorem MarksOnly.markRegions {s u : State} (h : MarksOnly s u) (ranges : RSet) : MarksOnly s (u.markRegions ranges) :=
  pres_foldl h (fun t _ ht => ht.trans (t.markRange_marksOnly _ _))

theorem MarksOnly.regionEnd {s u : State} (h : MarksOnly s u) (n : Nat) : u.regionEnd n = s.regionEnd n := by
  unfold State.regionEnd
  rw [h.rd_of_page (by decide)]

/-- Every host granule of the ranges that is not volatile is dirty afterwards. -/
theorem State.markRegions_isDirty {s : State} {ranges : RSet} {g : Nat} (hg : s.inVol g = false) (hcap : g < s.rd R.CAP_HOST)
    (hmem : ranges.has (g / granulesPerRegion) = true) : (s.markRegions ranges).isDirty g = true := by
  induction ranges generalizing s with
  | nil => simp [RSet.has] at hmem
  | cons v ranges ih =>
    have hstep := s.markRange_marksOnly (v.1 * granulesPerRegion) (s.regionEnd v.2)
    rcases (RSet.has_cons v ranges _).mp hmem with ⟨hfrom, hto⟩ | hlater
    · have hlo : v.1 * granulesPerRegion ≤ g := by
        unfold granulesPerRegion at *
        omega
      have hhi : g < s.regionEnd v.2 := by
        unfold State.regionEnd granulesPerRegion at *
        omega
      exact ((MarksOnly.refl _).markRegions ranges).bits g (State.markRange_isDirty hlo hhi hg)
    · exact ih ((hstep.inVol g).trans hg) (hcap.trans_eq (hstep.rd_of_page (by decide)).symm) hlater

/-! ### The command -/

/-- A step of a command that runs is what the command's opcode does with its element. -/
theorem State.runElem_of_worksOn {s : State} {q cid op : Nat} {k : RunCmd} {d : Desc} (h : s.WorksOn q cid op k d)
    (f : State → RunCmd → Desc → State) : s.begin.runElem q cid op f = f s.begin k d := by
  obtain ⟨hruns, hcmd, hdesc, hop⟩ := h
  have hfound : (if s.begin.cmdsRun then (s.begin.queue q).running? cid else none) = some k := (if_pos hruns).trans hcmd
  unfold State.runElem
  rw [hfound]
  simp only [hdesc, hop, if_true]

/-- The state in which the range has ceased to be volatile, before its granules are marked. -/
abbrev State.uncovered (s : State) (lo hi : Nat) : State :=
  { s with dirty := { s.dirty with vol := s.dirty.vol.cut lo hi } }

/-- An element that goes on changes the queues alone. -/
theorem State.advance_queues (s : State) (q : Nat) (k : RunCmd) (d : Desc) (upTo n : Nat) :
    ∃ queues : Queues, s.advance q k d upTo n = { s with queues := queues } := ⟨_, rfl⟩

/-- `VOLATILE_SET` that makes a range persistent: the range leaves the table, its granules are marked, and the queue goes on. -/
theorem exec_volatileSet_persistent {s : State} {q cid lo hi : Nat} {k : RunCmd} {d : Desc} (hworks : s.WorksOn q cid 9 k d)
    (hlo : d.addr / (granuleBytes * granulesPerRegion) + d.offset = lo)
    (hhi : d.addr / (granuleBytes * granulesPerRegion) + d.count = hi) (hparam : d.param % 2 = 0)
    (hroom : (s.dirty.vol.cut lo hi).length ≤ 256) :
    exec (.volatileSet q cid) s =
      .next (finish (((s.begin.uncovered lo hi).markRegions (s.dirty.vol.slice lo hi)).advance q { k with result := 0 } d
        d.count (s.dirty.vol.cut lo hi).length)) := by
  have hon : (d.param % 2 == 1) = false := by simp [hparam]
  refine congrArg (fun u => Host.Outcome.next (finish u)) ?_
  unfold State.runVolatile
  rw [State.runElem_of_worksOn hworks]
  simp only [hlo, hhi, hon, Bool.false_eq_true, if_false, State.begin_dirty]
  exact if_neg (by omega)

section

variable {s u : State} {lo hi : Nat} (hmarks : MarksOnly (s.begin.uncovered lo hi) u) (queues : Queues)

include hmarks

/-- In a calm state a range that ceases to be volatile raises no fault. -/
theorem MarksOnly.settled (hc : s.Calm) : Settled { u with queues := queues } (finish { u with queues := queues }) := by
  have hkeeps {f : Fld} (hf : keyPage f.key ≠ 0x40) : u.rd f = s.rd f := hmarks.rd_of_page hf
  have hsafe : u.safe = s.begin.safe := by rw [hmarks.parts]
  have htrigger : u.update.trigger = false := by rw [hmarks.parts]; rfl
  exact hc.settles (hmarks.wf hc.inv.regs) htrigger hsafe (hkeeps (by decide)) (hkeeps (by decide)) (hkeeps (by decide))
    (hkeeps (by decide))

/-- What was volatile in the range, and is no more, is dirty. -/
theorem MarksOnly.isDirty_of_uncovered (hu : u = (s.begin.uncovered lo hi).markRegions (s.dirty.vol.slice lo hi)) {g : Nat}
    (hwas : s.inVol g = true) (hnow : u.inVol g = false) (hcap : g < s.rd R.CAP_HOST) : u.isDirty g = true := by
  have hcut : (s.begin.uncovered lo hi).inVol g = false := (hmarks.inVol g).symm.trans hnow
  have hvol : s.dirty.vol.has (g / granulesPerRegion) = true := hwas
  have hinside : lo ≤ g / granulesPerRegion ∧ g / granulesPerRegion < hi := by
    have hout : ¬ (s.dirty.vol.cut lo hi).has (g / granulesPerRegion) = true := Bool.eq_false_iff.mp hcut
    by_contra houtside
    exact hout (RSet.has_cut.mpr ⟨hvol, by omega⟩)
  rw [hu]
  exact State.markRegions_isDirty hcut hcap (RSet.has_iff_exists.mpr (RSet.exists_mem_slice hvol hinside.1 hinside.2))

theorem MarksOnly.sameParts (h : Settled { u with queues := queues } (finish { u with queues := queues })) :
    SameParts { s with dirty := u.dirty, cellar := s.cellar, queues := queues } (finish { u with queues := queues }) := by
  refine h.parts.trans ?_
  rw [h.out_eq, h.safe_eq, hmarks.parts]
  rfl

end

/-- Settles O39: the granules that lay in the range and were volatile are those of the slice that is marked. -/
theorem rangesThatCeaseToBeVolatileAreDirty : Obligations.RangesThatCeaseToBeVolatileAreDirty := by
  unfold Obligations.RangesThatCeaseToBeVolatileAreDirty
  intro s q cid k d hc hworks hparam
  generalize hlo : d.addr / (granuleBytes * granulesPerRegion) + d.offset = lo
  generalize hhi : d.addr / (granuleBytes * granulesPerRegion) + d.count = hi
  intro hroom
  have hexec := exec_volatileSet_persistent hworks hlo hhi hparam hroom
  generalize hu : (s.begin.uncovered lo hi).markRegions (s.dirty.vol.slice lo hi) = u at hexec
  have hmarks : MarksOnly (s.begin.uncovered lo hi) u := by
    rw [← hu]
    exact (MarksOnly.refl _).markRegions _
  obtain ⟨queues, hqueues⟩ := u.advance_queues q { k with result := 0 } d d.count (s.dirty.vol.cut lo hi).length
  rw [hqueues] at hexec
  have hend := hmarks.settled queues hc
  have hdirty : (finish { u with queues := queues }).dirty = u.dirty := hend.dirty_eq
  refine ⟨_, hexec, ?_, ?_, ?_, ?_, ?_⟩
  · rw [hdirty]
    exact hmarks.vol
  · intro g hwas hnow hcap
    unfold State.inVol at hnow
    rw [hdirty] at hnow ⊢
    exact hmarks.isDirty_of_uncovered hu.symm hwas hnow hcap
  · rw [hend.dram_eq, hmarks.parts]
    rfl
  · intro f hpage hoff hlsb hidx hother
    calc (finish { u with queues := queues }).rd f
        = u.rd f := hend.rd (by rwa [Fld.keyPage_key hoff hlsb hidx])
      _ = s.rd f := hmarks.rd hother
  · have hcellar : (finish { u with queues := queues }).cellar = s.cellar := by
      rw [hend.cellar_eq, hmarks.parts]
      rfl
    rw [hdirty, hcellar, hend.queues_eq]
    exact hmarks.sameParts queues hend

end Sys2Proof.Machine
end

section
/-!
PROOFS. Proofs/ScrubEndKiln.lean: a scrub pass of the dirty bits that ends with a miscount found (R138): the reaction to that may be
a kiln (R455), which ends the scrub for good.
-/

namespace Sys2Proof.Machine

-- One theorem after another: proofs elaborated side by side each hold a stack, and the whole text compiles near its memory limit.
set_option Elab.async false

/-! ### F025 with the planned-kiln action -/

/-- A device that runs, its kiln controller Ready, `MAIN_IN` good, no host port link-up; D counts one granule though no dirty bit is
set, a scrub pass is about to end and the next one is due; the reaction table asks for a kiln where counts disagree (F025). -/
def miscountedState : State :=
  (({ State.reset with power := { life := .running, mainGood := true }, halted := [], safe := { react := askingForKiln 25 },
                       dirty := { scrubRun := true, scrubDue := true } } : State).wr R.KLN_STAT_STATE 1).wr R.DRT_DIRTY 1

theorem miscountedState_sound : miscountedState.Sound where
  inv := by constructor <;> decide
  kept := rfl

/-- F025 latches, its reaction is a kiln that no pack path and no port holds up before K3, and K3 ends the scrub (R231). -/
theorem scrubEnd_starts_no_pass :
    (Outcome.state (exec (.dirtyScrubEnd [] none) miscountedState)).dirty.scrubRun = false := by
  decide +kernel

/-- Refutes O27: its second clause says that a pass that is due starts as the one before it ends, but a pass that finds D wrong
detects F025, which the reaction table may answer with a kiln (R455, R466), and K3 ends the dirty scrub. -/
theorem not_theDirtyMapIsScrubbedAndHeatDecays : ¬ Obligations.TheDirtyMapIsScrubbedAndHeatDecays := by
  unfold Obligations.TheDirtyMapIsScrubbedAndHeatDecays
  rintro ⟨-, hend, -⟩
  obtain ⟨t, hexec, -, -, hnext, -⟩ := hend miscountedState miscountedState_sound rfl (by decide)
  have hnone : t.dirty.scrubRun = false := by simpa only [hexec, Outcome.state] using scrubEnd_starts_no_pass
  rw [hnext] at hnone
  exact absurd hnone (by decide)

end Sys2Proof.Machine
end

section
/-!
PROOFS. Proofs/StripePadding.lean: a stripe that is closed is filled with a codeword of padding (R175), which is encrypted as any
other and counted.
-/

namespace Sys2Proof.Machine

-- One theorem after another: proofs elaborated side by side each hold a stack, and the whole text compiles near its memory limit.
set_option Elab.async false

/-! ### An open stripe -/

/-- The copy of granule 9, the first of its stripe. -/
def firstOfStripe : Codeword :=
  { index := 9, typ := 0, poison := 0, seq := 3, batch := 0, keyEpoch := 0, data := [] }

/-- An image-zone group of two blocks, open. -/
def openImageGroup : Group :=
  { id := 4, zone := .image, st := .opened, members := [(0, 0, 0), (1, 0, 0)], cap := 16, erasedAt := 0, closedAt := 0,
    kilnUse := false, writtenAt := 0 }

/-- A device that runs; the stripe of flash address 4 is open, and address 5 of it is free. -/
def openStripeState : State :=
  (({ State.reset with power := { life := .running },
                       cellar := { flash := [(4, firstOfStripe)], groups := [openImageGroup] } } : State).wr
    R.STP_STAT_PHASE 4).wr (R.NCH_GEOM_PAGES 0) 1000

theorem openStripeState_sound : openStripeState.Sound where
  inv := by constructor <;> decide
  kept := rfl

theorem padding_counts_encryption :
    (Outcome.state (exec (.stripeCloseTimeout [5]) openStripeState)).rd R.CRY_ENC = 1 := by
  decide

/-- Refutes O29: its eighth clause says that closing stripes writes no steady register, but the padding is a codeword that `CRY.ENC`
counts; its ninth clause, for one stripe, names that register. -/
theorem not_witherCopiesRaceWrites : ¬ Obligations.WitherCopiesRaceWrites := by
  unfold Obligations.WitherCopiesRaceWrites
  rintro ⟨-, -, -, -, -, -, -, hclose, -⟩
  obtain ⟨t, hexec, -, -, -, hframe⟩ := hclose openStripeState [5] openStripeState_sound (by decide)
  have hkept := rd_after_of_steadyRegsBut (f := R.CRY_ENC) hexec hframe rfl (by decide) (by decide) (by decide) (by decide)
  rw [padding_counts_encryption] at hkept
  exact absurd hkept (by decide)

end Sys2Proof.Machine
end

section
/-!
PROOFS. Proofs/SteadyFrames.lean: the frame of a command whose registers are written one after another, before the reactions that
follow it.
-/

namespace Sys2Proof.Machine

-- One theorem after another: proofs elaborated side by side each hold a stack, and the whole text compiles near its memory limit.
set_option Elab.async false

/-- Every change that keeps the canonical form of the registers keeps it. -/
theorem stable_regsWf : Stable (fun s => s.regs.wf = true) where
  same hregs _ _ _ _ _ _ _ _ _ _ h := hregs h

theorem State.rd_inc_ne (s : State) {f g : Fld} (h : g.key ≠ f.key) : (s.inc f).rd g = s.rd g := by
  unfold State.inc
  split
  · exact State.rd_wr_ne s _ h
  · rfl

theorem State.inc_update (s : State) (f : Fld) : (s.inc f).update = s.update := by
  unfold State.inc
  split <;> rfl

theorem State.inc_budget (s : State) (f : Fld) : (s.inc f).budget = s.budget := by
  unfold State.inc
  split <;> rfl

/-- The state with other accounts of the budget. -/
def State.withBudget (s : State) (b : Budget) : State := { s with budget := b }

section

variable {s u : State} {fs : List Fld}

theorem SteadyRegsBut.of_regs (h : u.regs = s.regs) : SteadyRegsBut s u fs := by
  intro f _ _ _ _ _
  unfold State.rd
  rw [h]

theorem SteadyRegsBut.mono {gs : List Fld} (h : SteadyRegsBut s u fs) (hsub : fs ⊆ gs) : SteadyRegsBut s u gs :=
  fun f hsteady hoff hlsb hidx hother => h f hsteady hoff hlsb hidx (fun g hg => hother g (hsub hg))

theorem SteadyRegsBut.wr (h : SteadyRegsBut s u fs) {g : Fld} (hg : g ∈ fs) (v : Nat) : SteadyRegsBut s (u.wr g v) fs :=
  fun f hsteady hoff hlsb hidx hother => (State.rd_wr_ne u v (hother g hg)).trans (h f hsteady hoff hlsb hidx hother)

theorem SteadyRegsBut.inc (h : SteadyRegsBut s u fs) {g : Fld} (hg : g ∈ fs) : SteadyRegsBut s (u.inc g) fs := by
  unfold State.inc
  exact pres_ite (P := fun t => SteadyRegsBut s t fs) (h.wr hg _) h

theorem SteadyRegsBut.withBudget (h : SteadyRegsBut s u fs) (b : Budget) : SteadyRegsBut s (u.withBudget b) fs := h

/-- Reactions add no register to a frame. -/
theorem SteadyRegsBut.unreacted {t : State} (h : SteadyRegsBut s u fs) (hk : u.update.kept = []) (ht : Unreacted u t) :
    SteadyRegsBut s t fs :=
  fun f hsteady hoff hlsb hidx hother =>
    (ht.steadyRegs hk f hsteady hoff hlsb hidx (by simp)).trans (h f hsteady hoff hlsb hidx hother)

/-- Reactions leave a steady register as it is. -/
theorem Unreacted.rd_steady {t : State} (ht : Unreacted u t) (hk : u.update.kept = []) {f : Fld} (hsteady : f.reactive = false)
    (hplace : f.off < 4096 ∧ f.lsb < 32 ∧ f.idx < 4096) : t.rd f = u.rd f :=
  ht.steadyRegs hk f hsteady hplace.1 hplace.2.1 hplace.2.2 (by simp)

end

end Sys2Proof.Machine
end

section
/-!
PROOFS. Proofs/SaveBound.lean: the save bound (R144 to R149): what a computation of it and SAFETY's check of it write, and the host's
energy on the KNM-1608-E.
-/

namespace Sys2Proof.Machine

-- One theorem after another: proofs elaborated side by side each hold a stack, and the whole text compiles near its memory limit.
set_option Elab.async false

/-! ### The bound fits its register -/

theorem State.rawBound_le (s : State) (be : Nat) : (s.rawBound be).1 ≤ boundMax := by
  unfold State.rawBound
  split
  · exact Nat.zero_le _
  · exact Nat.min_le_right _ _

theorem State.rawBound_fits (s : State) (be : Nat) : (s.rawBound be).1 % 2 ^ 32 = (s.rawBound be).1 :=
  Nat.mod_eq_of_lt (Nat.lt_of_le_of_lt (s.rawBound_le be) (by decide))

/-- The index of the least of a list is one of the list. -/
theorem leastOf_snd_lt {l : List Nat} (h : l ≠ []) : (leastOf l).2 < l.length := by
  change ((l.findIdx? (fun x => x == l.foldl min (l.headD 0))).getD 0) < l.length
  cases hfound : l.findIdx? (fun x => x == l.foldl min (l.headD 0)) with
  | none => exact List.length_pos_iff.mpr h
  | some i => exact (List.findIdx?_eq_some_iff_getElem.mp hfound).1

theorem State.rawBound_term_fits (s : State) (be : Nat) : (s.rawBound be).2 % 2 ^ 3 = (s.rawBound be).2 := by
  refine Nat.mod_eq_of_lt ?_
  unfold State.rawBound
  split
  · decide
  · exact Nat.lt_trans (leastOf_snd_lt (by simp)) (show 4 < 2 ^ 3 by decide)

theorem State.rawBound_of_no_energy {s : State} (h : s.energy = 0) (be : Nat) : s.rawBound be = (0, 4) := if_pos h

/-! ### The bound shown -/

/-- Beyond `BUD.BOUND` itself, what shows a bound is what a reaction can write as well. -/
theorem State.showBound_unreacted (s : State) (b : Nat) : Unreacted (s.wr R.BUD_BOUND b) (s.showBound b) := by
  have C := unreacted_reactive (s.wr R.BUD_BOUND b)
  have hdirty : ReactKey R.PST_DIRTY.key := by unfold ReactKey; decide
  have hbound : ReactKey R.PST_BOUND.key := by unfold ReactKey; decide
  unfold State.showBound
  exact C.pstUpdate _ (fun _ ht => C.dirtyReasons _ _ _ (C.wr _ hbound (C.wr _ hdirty ht)))
    (C.boundFaults _ _ (Unreacted.refl _))

/-! ### A computation -/

/-- The registers that a computation of B writes (Tables 06-10 and 06-14). -/
def boundRegs : List Fld :=
  [R.DRT_INFLOW, R.BUD_B_ENERGY, R.BUD_B_ZONE, R.BUD_LIMIT, R.BUD_E_COUNT_CT, R.BUD_E_COUNT_SRC, R.BUD_Q_FIX,
   R.BUD_I_KILN_CT_PER_S, R.BUD_I_KILN_LEARNT, R.BUD_DRAIN_MBPS, R.BUD_DRAIN_TERM, R.BUD_UPDATES, R.BUD_BOUND]

/-- The state once these registers are written: `be` and `term` the energy term and the term that limits, `b` the bound. -/
def State.boundComputed (s : State) (be term b : Nat) : State :=
  ((s.showInflow.showTerms be term).bump R.BUD_UPDATES).wr R.BUD_BOUND b

theorem State.publishBound_unreacted (s : State) (be term b : Nat) :
    Unreacted (s.boundComputed be term b) ((s.showInflow.showTerms be term).publishBound b) :=
  State.showBound_unreacted _ b

theorem State.boundComputed_frame (s : State) (be term b : Nat) : SteadyRegsBut s (s.boundComputed be term b) boundRegs := by
  unfold State.boundComputed State.bump State.showTerms State.showInflow
  repeat' refine SteadyRegsBut.wr ?_ (by decide) _
  exact SteadyRegsBut.of_regs rfl

theorem State.showTerms_updates (s : State) (be term : Nat) : (s.showTerms be term).rd R.BUD_UPDATES = s.rd R.BUD_UPDATES := by
  simp (disch := decide) only [State.showTerms, State.rd_wr_ne]

theorem State.showInflow_updates (s : State) : s.showInflow.rd R.BUD_UPDATES = s.rd R.BUD_UPDATES :=
  State.rd_wr_ne _ _ (by decide)

section

variable {s : State} (hw : s.regs.wf = true) (be term b : Nat)

include hw

theorem State.showTerms_limit : (s.showTerms be term).rd R.BUD_LIMIT = term % 2 ^ 3 := by
  simp (disch := decide) only [State.showTerms, State.rd_wr_ne]
  exact State.rd_wr_self R.BUD_LIMIT term (State.wf_wr _ _ (State.wf_wr _ _ hw))

theorem State.showTerms_source : (s.showTerms be term).rd R.BUD_E_COUNT_SRC = b2n (!s.variant.gauge) := by
  simp (disch := decide) only [State.showTerms, State.rd_wr_ne]
  refine (State.rd_wr_self R.BUD_E_COUNT_SRC _ ?_).trans ?_
  · exact State.wf_wr _ _ (State.wf_wr _ _ (State.wf_wr _ _ (State.wf_wr _ _ hw)))
  · simp only [State.wr_variant]
    cases s.variant.gauge <;> rfl

theorem State.boundComputed_regs :
    (s.boundComputed be term b).rd R.BUD_BOUND = b % 2 ^ 32 ∧ (s.boundComputed be term b).rd R.BUD_LIMIT = term % 2 ^ 3 ∧
      (s.boundComputed be term b).rd R.BUD_UPDATES = (s.rd R.BUD_UPDATES + 1) % 2 ^ 32 ∧
      (s.boundComputed be term b).rd R.BUD_E_COUNT_SRC = b2n (!s.variant.gauge) := by
  have hinflow : s.showInflow.regs.wf = true := stable_regsWf.showInflow hw
  have hterms := stable_regsWf.showTerms be term hinflow
  unfold State.boundComputed State.bump
  refine ⟨State.rd_wr_self _ _ (State.wf_wr _ _ hterms), ?_, ?_, ?_⟩ <;> rw [State.rd_wr_ne _ _ (by decide)]
  · rw [State.rd_wr_ne _ _ (by decide), State.showTerms_limit hinflow]
  · rw [State.rd_wr_self _ _ hterms, State.showTerms_updates, State.showInflow_updates]
    rfl
  · rw [State.rd_wr_ne _ _ (by decide), State.showTerms_source hinflow]
    rfl

/-- What a computation of B leaves in the registers, once the reactions to it have followed. -/
theorem State.finish_publishBound (hk : s.update.kept = []) :
    let t := finish ((s.showInflow.showTerms be term).publishBound b)
    t.rd R.BUD_BOUND = b % 2 ^ 32 ∧ t.rd R.BUD_LIMIT = term % 2 ^ 3 ∧ t.rd R.BUD_UPDATES = (s.rd R.BUD_UPDATES + 1) % 2 ^ 32 ∧
      t.rd R.BUD_E_COUNT_SRC = b2n (!s.variant.gauge) ∧ SteadyRegsBut s t boundRegs := by
  have hend := (s.publishBound_unreacted be term b).finish
  have hkept : (s.boundComputed be term b).update.kept = [] := hk
  obtain ⟨hbound, hlimit, hupdates, hsource⟩ := State.boundComputed_regs hw be term b
  refine ⟨?_, ?_, ?_, ?_, (s.boundComputed_frame be term b).unreacted hkept hend⟩
  · rw [hend.rd_steady hkept rfl (by decide), hbound]
  · rw [hend.rd_steady hkept rfl (by decide), hlimit]
  · rw [hend.rd_steady hkept rfl (by decide), hupdates]
  · rw [hend.rd_steady hkept rfl (by decide), hsource]

end

theorem State.budget1ms_of_on {s : State} (hon : s.budgetOn = true) (hworks : s.works 0x44 = true) :
    s.budget1ms =
      (s.takeEnergyTerm.2.showInflow.showTerms s.takeEnergyTerm.1
        (s.takeEnergyTerm.2.rawBound s.takeEnergyTerm.1).2).publishBound
          (s.takeEnergyTerm.2.clamped (s.takeEnergyTerm.2.rawBound s.takeEnergyTerm.1).1) :=
  if_neg (by simp [hon, hworks])

/-- Where a kiln current is known, so is the energy term. -/
theorem State.takeEnergyTerm_of_iKiln {s : State} (h : s.iKiln ≠ 0) :
    s.takeEnergyTerm = (min s.bEnergy (2 ^ 32 - 1), s) :=
  if_neg (fun hopen => h hopen.1)

/-- An open value may be taken; the rest of the state stays. -/
theorem State.takeEnergyTerm_snd (s : State) : ∃ n, s.takeEnergyTerm.2 = { s with freeCtr := n } := by
  unfold State.takeEnergyTerm
  split
  · exact ⟨s.freeCtr + 1, rfl⟩
  · exact ⟨s.freeCtr, rfl⟩

theorem State.clamped_zero (s : State) : s.clamped 0 = 0 := by
  unfold State.clamped
  cases s.budget.clamp <;> simp

/-! ### SAFETY's check (R149) -/

/-- B as SAFETY computes it. -/
def State.safeRaw (s : State) : Nat := (s.rawBound (min s.bEnergy (2 ^ 32 - 1))).1

/-- B is more than 1 % above it, or has not been computed since the last check. -/
def State.checkFails (s : State) : Bool :=
  decide (101 * s.safeRaw < 100 * s.rd R.BUD_BOUND) || s.rd R.BUD_UPDATES == s.budget.lastUpdates

/-- The check fails, and B is to be lowered. -/
def State.lowersBound (s : State) : Bool := s.checkFails && decide (s.safeRaw < s.rd R.BUD_BOUND)

/-- The state with SAFETY's bound shown, and B lowered to it where the check asks for that. -/
def State.boundChecked (s : State) : State :=
  (s.wr R.BUD_SAFE_BOUND s.safeRaw).cond s.lowersBound (fun u => u.showBound s.safeRaw)

/-- The counter of the checks with this outcome. -/
def checkCounter (fails : Bool) : Fld := if fails then R.BUD_CHECKS_FAILED else R.BUD_CHECKS_PASSED

/-- The accounts with the outcome of the check kept. -/
def State.checkedBudget (s : State) : Budget :=
  { s.boundChecked.budget with
    lastUpdates := s.boundChecked.rd R.BUD_UPDATES, clamp := if s.checkFails then some s.safeRaw else none }

/-- The state with the outcome of the check kept and counted. -/
def State.checkNoted (s : State) : State := (s.boundChecked.withBudget s.checkedBudget).inc (checkCounter s.checkFails)

theorem State.safeBound_of_runs {s : State} (hruns : s.runs .safety = true) (hon : s.budgetOn = true) (hk : s.iKiln ≠ 0) :
    s.safeBound = s.checkNoted.cond (s.checkFails || s.checkNoted.condAny 57) (fun u => u.setCond 57 0 s.checkFails) := by
  have hbound (v : Nat) : (s.wr R.BUD_SAFE_BOUND v).rd R.BUD_BOUND = s.rd R.BUD_BOUND := State.rd_wr_ne s v (by decide)
  unfold State.safeBound
  rw [if_neg (by simp [hruns, hon]), State.takeEnergyTerm_of_iKiln hk]
  simp only [hbound]
  rfl

/-- The state with the registers that the check itself writes. -/
def State.boundLowered (s : State) : State :=
  (s.wr R.BUD_SAFE_BOUND s.safeRaw).cond s.lowersBound (fun u => u.wr R.BUD_BOUND s.safeRaw)

theorem State.boundChecked_unreacted (s : State) : Unreacted s.boundLowered s.boundChecked := by
  unfold State.boundLowered State.boundChecked
  cases s.lowersBound with
  | true => exact State.showBound_unreacted _ _
  | false => exact Unreacted.refl _

theorem State.boundLowered_frame (s : State) : SteadyRegsBut s s.boundLowered [R.BUD_SAFE_BOUND, R.BUD_BOUND] := by
  have hsafe : SteadyRegsBut s (s.wr R.BUD_SAFE_BOUND s.safeRaw) [R.BUD_SAFE_BOUND, R.BUD_BOUND] :=
    (SteadyRegsBut.of_regs rfl).wr (by simp) _
  exact pres_cond (P := fun u => SteadyRegsBut s u _) hsafe (fun u hu => hu.wr (by simp) _)

theorem State.lowersBound_eq_min (s : State) :
    (if s.lowersBound then s.safeRaw else s.rd R.BUD_BOUND) =
      min (s.rd R.BUD_BOUND) (if 101 * s.safeRaw < 100 * s.rd R.BUD_BOUND ∨ s.rd R.BUD_UPDATES = s.budget.lastUpdates then
        s.safeRaw else s.rd R.BUD_BOUND) := by
  simp only [State.lowersBound, State.checkFails, Bool.and_eq_true, Bool.or_eq_true, decide_eq_true_eq, beq_iff_eq]
  split_ifs <;> omega

theorem State.boundLowered_regs {s : State} (hw : s.regs.wf = true) :
    s.boundLowered.rd R.BUD_SAFE_BOUND = s.safeRaw ∧
      s.boundLowered.rd R.BUD_BOUND = if s.lowersBound then s.safeRaw else s.rd R.BUD_BOUND := by
  have hfits : s.safeRaw % 2 ^ 32 = s.safeRaw := s.rawBound_fits _
  have hsafe : (s.wr R.BUD_SAFE_BOUND s.safeRaw).rd R.BUD_SAFE_BOUND = s.safeRaw := (State.rd_wr_self _ _ hw).trans hfits
  unfold State.boundLowered
  cases s.lowersBound with
  | true =>
    exact ⟨(State.rd_wr_ne _ _ (by decide)).trans hsafe, (State.rd_wr_self _ _ (State.wf_wr _ _ hw)).trans hfits⟩
  | false => exact ⟨hsafe, State.rd_wr_ne _ _ (by decide)⟩

theorem State.boundLowered_update (s : State) : s.boundLowered.update = s.update := by
  unfold State.boundLowered State.cond
  split <;> rfl

/-- The registers of SAFETY's check. -/
def checkRegs : List Fld := [R.BUD_CHECKS_FAILED, R.BUD_CHECKS_PASSED, R.BUD_SAFE_BOUND, R.BUD_BOUND]

theorem checkCounter_mem (fails : Bool) : checkCounter fails ∈ checkRegs := by
  cases fails <;> decide

section

variable {s : State} (hk : s.update.kept = [])

include hk

theorem State.boundChecked_rd {f : Fld} (hsteady : f.reactive = false) (hplace : f.off < 4096 ∧ f.lsb < 32 ∧ f.idx < 4096) :
    s.boundChecked.rd f = s.boundLowered.rd f :=
  s.boundChecked_unreacted.rd_steady (s.boundLowered_update ▸ hk) hsteady hplace

theorem State.boundChecked_frame : SteadyRegsBut s s.boundChecked checkRegs :=
  (s.boundLowered_frame.mono (by decide)).unreacted (s.boundLowered_update ▸ hk) s.boundChecked_unreacted

theorem State.checkNoted_frame : SteadyRegsBut s s.checkNoted checkRegs :=
  ((State.boundChecked_frame hk).withBudget s.checkedBudget).inc (checkCounter_mem s.checkFails)

theorem State.checkNoted_kept : s.checkNoted.update.kept = [] := by
  have hchecked : s.boundChecked.update.kept = [] := s.boundChecked_unreacted.kept_nil (s.boundLowered_update ▸ hk)
  unfold State.checkNoted
  rw [State.inc_update]
  exact hchecked

theorem State.checkNoted_lastUpdates : s.checkNoted.budget.lastUpdates = s.rd R.BUD_UPDATES := by
  unfold State.checkNoted
  rw [State.inc_budget]
  exact State.boundChecked_frame hk R.BUD_UPDATES rfl (by decide) (by decide) (by decide) (by decide)

theorem State.checkNoted_regs (hw : s.regs.wf = true) :
    s.checkNoted.rd R.BUD_SAFE_BOUND = s.safeRaw ∧
      s.checkNoted.rd R.BUD_BOUND = if s.lowersBound then s.safeRaw else s.rd R.BUD_BOUND := by
  obtain ⟨hsafe, hbound⟩ := State.boundLowered_regs hw
  have hother {f : Fld} (h : ∀ fails, f.key ≠ (checkCounter fails).key) : s.checkNoted.rd f = s.boundChecked.rd f :=
    State.rd_inc_ne _ (h _)
  constructor
  · rw [hother (by decide), State.boundChecked_rd hk rfl (by decide), hsafe]
  · rw [hother (by decide), State.boundChecked_rd hk rfl (by decide), hbound]

end

/-- The check ends by raising or ending the condition of F057. -/
theorem State.safeBound_unreacted {s : State} (hruns : s.runs .safety = true) (hon : s.budgetOn = true) (hk : s.iKiln ≠ 0) :
    Unreacted s.checkNoted (finish s.safeBound) := by
  have C := unreacted_reactive s.checkNoted
  rw [State.safeBound_of_runs hruns hon hk]
  exact (pres_cond (Unreacted.refl _) (fun _ h => C.setCond 57 0 _ h)).finish

/-! ### The host's energy (R147) -/

/-- The host's energy, written now. -/
def State.hostEnergyNow (s : State) : State := s.withBudget { s.budget with mark := s.netCt, expired := false }

/-- The host's energy, too old to count. -/
def State.hostEnergyOld (s : State) : State := s.withBudget { s.budget with expired := true }

theorem State.hostEnergy_of_ungauged {s : State} (h : s.variant.gauge = false) (v : Nat) :
    s.hostEnergy v = (s.hostEnergyNow.wr R.BUD_HOST_ENERGY v).wr R.BUD_ENERGY_AGE 0 :=
  if_neg (by simp [h])

theorem State.hostEnergyOut_of_counting {s : State} (hvariant : s.variant = .e) (hcounts : s.budget.expired = false) :
    s.hostEnergyOut = s.hostEnergyOld.detect 59 0 :=
  if_neg (by simp [hvariant, hcounts, Variant.gauge])

/-- A register command that is accepted in P0 runs as it is. -/
theorem State.under_of_writable {s : State} {who : Requester} {page : Nat} (h : s.Writable who page) (f : State → State) :
    s.begin.under (s.admission who page) page f = f s.begin := by
  rw [h.1]
  exact congrArg f (State.restExit_of_p0 (s := s.begin) h.2)

/-- Settles O28: what a computation, a check and a write of the host's energy write besides their own registers is what a reaction can
write as well. -/
theorem theSaveBoundIsComputedAndChecked : Obligations.TheSaveBoundIsComputedAndChecked := by
  unfold Obligations.TheSaveBoundIsComputedAndChecked
  refine ⟨?_, ?_, ?_, ?_, ?_⟩
  · intro s hs hon hworks hk hclamp
    have hexec : exec .budgetCompute s = .next (finish s.begin.budget1ms) := rfl
    have hclamped : s.begin.clamped s.safeRaw = s.safeRaw := by
      unfold State.clamped
      rw [State.begin_budget, hclamp]
      rfl
    rw [State.budget1ms_of_on (s := s.begin) hon hworks, State.takeEnergyTerm_of_iKiln (s := s.begin) hk] at hexec
    obtain ⟨hbound, hlimit, hupdates, hsource, hframe⟩ := State.finish_publishBound (s := s.begin) hs.inv.regs
      (min s.bEnergy (2 ^ 32 - 1)) (s.rawBound (min s.bEnergy (2 ^ 32 - 1))).2 (s.begin.clamped s.safeRaw) hs.kept
    refine ⟨_, hexec, ?_, hlimit.trans (s.rawBound_term_fits _), hupdates, hsource, hframe.mono (by decide)⟩
    exact hbound.trans ((congrArg (· % 2 ^ 32) hclamped).trans (s.rawBound_fits _))
  · intro s hs hon hworks henergy
    have hexec : exec .budgetCompute s = .next (finish s.begin.budget1ms) := rfl
    obtain ⟨n, htaken⟩ := s.begin.takeEnergyTerm_snd
    have hnone : { s.begin with freeCtr := n }.energy = 0 := henergy
    rw [State.budget1ms_of_on (s := s.begin) hon hworks, htaken, State.rawBound_of_no_energy hnone, State.clamped_zero] at hexec
    obtain ⟨hbound, -, -, -, hframe⟩ := State.finish_publishBound (s := { s.begin with freeCtr := n }) hs.inv.regs
      s.begin.takeEnergyTerm.1 4 0 hs.kept
    exact ⟨_, hexec, hbound, hframe.mono (by decide)⟩
  · intro s hs hruns hon hk
    have hend := State.safeBound_unreacted (s := s.begin) hruns hon hk
    have hkept := State.checkNoted_kept (s := s.begin) hs.kept
    obtain ⟨hsafe, hbound⟩ := State.checkNoted_regs (s := s.begin) hs.kept hs.inv.regs
    refine ⟨finish s.begin.safeBound, rfl, ?_, ?_, ?_, (State.checkNoted_frame (s := s.begin) hs.kept).unreacted hkept hend⟩
    · rw [hend.rd_steady hkept rfl (by decide), hsafe]
      rfl
    · rw [hend.budget, State.checkNoted_lastUpdates (s := s.begin) hs.kept]
      rfl
    · rw [hend.rd_steady hkept rfl (by decide), hbound, State.lowersBound_eq_min]
      rfl
  · intro s who ct hs hungauged hwritable
    have hexec : exec (.hostEnergyWrite who ct) s =
        .next (finish (s.begin.under (s.admission who 0x44) 0x44 (fun s => s.hostEnergy ct))) := rfl
    rw [State.under_of_writable hwritable, State.hostEnergy_of_ungauged (s := s.begin) hungauged] at hexec
    have hw : s.begin.hostEnergyNow.regs.wf = true := hs.inv.regs
    have hend := finish_unreacted ((s.begin.hostEnergyNow.wr R.BUD_HOST_ENERGY ct).wr R.BUD_ENERGY_AGE 0)
    have hkept : s.begin.hostEnergyNow.update.kept = [] := hs.kept
    have hframe : SteadyRegsBut s s.begin.hostEnergyNow [R.BUD_HOST_ENERGY, R.BUD_ENERGY_AGE] := .of_regs rfl
    refine ⟨_, hexec, ?_, ?_, ?_, ?_, ((hframe.wr (by simp) _).wr (by simp) _).unreacted hkept hend⟩
    · rw [hend.rd_steady hkept rfl (by decide), State.rd_wr_ne _ _ (by decide), State.rd_wr_self _ _ hw]
      rfl
    · rw [hend.budget]
      rfl
    · rw [hend.budget]
      rfl
    · rw [hend.rd_steady hkept rfl (by decide), State.rd_wr_self _ _ (State.wf_wr _ _ hw)]
      rfl
  · intro s hs hvariant hcounts
    have hexec : exec .hostEnergyExpired s = .next (finish s.begin.hostEnergyOut) := rfl
    rw [State.hostEnergyOut_of_counting (s := s.begin) hvariant hcounts] at hexec
    have hend := finish_unreacted (s.begin.hostEnergyOld.detect 59 0)
    have hkept : s.begin.hostEnergyOld.update.kept = [] := hs.kept
    have hpage : pagePresent s.begin.hostEnergyOld.variant 0x44 = true := by
      change pagePresent s.variant 0x44 = true
      rw [hvariant]
      decide
    refine ⟨_, hexec, ?_, ?_, ?_⟩
    · rw [hend.budget]
      rfl
    · exact finish_latches (src := 59) (inst := 0) (by simp) rfl (by decide) (by decide) hpage hs.inv.regs hkept
    · exact SteadyRegsBut.unreacted (u := s.begin.hostEnergyOld.detect 59 0) (.of_regs rfl) hkept hend

end Sys2Proof.Machine
end

section
/-!
PROOFS. Proofs/FailedErase.lean: an erase of a kiln-zone group whose block fails, with no substitute there (R189): the group leaves the
zone, and is not erased.
-/

namespace Sys2Proof.Machine

-- One theorem after another: proofs elaborated side by side each hold a stack, and the whole text compiles near its memory limit.
set_option Elab.async false

/-! ### A group that cannot be made whole -/

/-- A good block of channel `chan`, in a group: the spare pool does not have it. -/
def usedBlock (chan : Nat) : Block :=
  { chan := chan, die := 0, blk := 0, tlc := 0, pslc := 1, reads := 0, bad := false, spare := false, rebuiltAt := 0, level := 0 }

/-- A codeword of an earlier kiln; the fold has moved what it held. -/
def foldedCodeword : Codeword :=
  { index := 9, typ := 0, poison := 0, seq := 3, batch := 1, keyEpoch := 0, data := [] }

/-- A kiln-zone group of two blocks, due for its erase. -/
def foldedGroup : Group :=
  { id := 4, zone := .kiln, st := .closed, members := [(0, 0, 0), (1, 0, 0)], cap := 4, erasedAt := 0, closedAt := 0,
    kilnUse := false, writtenAt := 0 }

/-- A device that runs, with one kiln-zone group and no spare block or group. -/
def noSubstituteState : State :=
  ({ State.reset with power := { life := .running }, halted := [],
                      cellar := { flash := [(4, foldedCodeword)], groups := [foldedGroup],
                                  blocks := [usedBlock 0, usedBlock 1] } } : State).wr R.STP_STAT_PHASE 4

theorem noSubstituteState_sound : noSubstituteState.Sound where
  inv := by constructor <;> decide
  kept := rfl

/-- The erase of the block on channel 0 fails; the block is retired, and the group leaves its zone with its codeword. -/
theorem failedErase_keeps_codewords :
    (Outcome.state (exec (.nandEraseDone 4 [(0, 0, 0)]) noSubstituteState)).cellar.flash = [(4, foldedCodeword)] := by
  decide +kernel

/-- Refutes O30: its second clause says that the codewords of the group are gone whatever blocks fail, but a group whose failed block
has no substitute is removed from its zone (R189) and not erased. -/
theorem not_flashOperationsEnd : ¬ Obligations.FlashOperationsEnd := by
  unfold Obligations.FlashOperationsEnd
  rintro ⟨-, herase, -⟩
  obtain ⟨t, hexec, hflash, -, -⟩ := herase noSubstituteState 4 foldedGroup [(0, 0, 0)] noSubstituteState_sound rfl
    (by decide) (by decide) (by decide)
  have hkept : t.cellar.flash = [(4, foldedCodeword)] := by
    simpa only [hexec, Outcome.state] using failedErase_keeps_codewords
  rw [hflash] at hkept
  exact absurd hkept (by decide)

end Sys2Proof.Machine
end

section
/-!
PROOFS. Proofs/RebuildKiln.lean: a map page that only the die-parity rebuild can read (R186), whether a read of it or its move asks for
it: the reaction to that may be a kiln (R455), which ends the dirty scrub.
-/

namespace Sys2Proof.Machine

-- One theorem after another: proofs elaborated side by side each hold a stack, and the whole text compiles near its memory limit.
set_option Elab.async false

/-! ### F066 with the planned-kiln action -/

/-- The map page of region 2. -/
def pageOfRegion2 : Codeword :=
  { index := 2, typ := 1, poison := 0, seq := 3, batch := 0, keyEpoch := 0, data := [] }

/-- A device that runs, its kiln controller Ready, `MAIN_IN` good, no host port link-up, in a scrub pass of the dirty bits; the map page
of region 2 stands at flash address 4, on a block that is to be moved, and address 5 of its stripe is free; the reaction table asks for
a kiln where a codeword is rebuilt (F066). -/
def rebuildingState : State :=
  ((({ State.reset with power := { life := .running, mainGood := true }, halted := [], safe := { react := askingForKiln 66 },
                        dirty := { scrubRun := true },
                        cellar := { flash := [(4, pageOfRegion2)], groups := [openImageGroup],
                                    dir := [(2, mkEntry 0 false 4 3)], reloc := [(0, 0, 0)] } } : State).wr
    R.KLN_STAT_STATE 1).wr R.STP_STAT_PHASE 4).wr (R.NCH_GEOM_PAGES 0) 1000

theorem rebuildingState_sound : rebuildingState.Sound where
  inv := by constructor <;> decide
  kept := rfl

/-- The read latches F066, whose reaction is a kiln that no pack path and no port holds up before K3, and K3 ends the scrub (R231). -/
theorem rebuiltRead_ends_scrub :
    (Outcome.state (exec (.codewordReadDone 4 9 0 (.mapPage 2)) rebuildingState)).dirty.scrubRun = false := by
  decide +kernel

/-- The move reads the page, which latches F066 as any other read of it does. -/
theorem rebuiltMove_ends_scrub :
    (Outcome.state (exec (.garbageCollectMove (.mapPage 2) 5 9) rebuildingState)).dirty.scrubRun = false := by
  decide +kernel

/-- Refutes O31: its first clause says that a read which succeeds leaves the dirty state as it is, but one that needs the rebuild
detects F066, which the reaction table may answer with a kiln (R455, R466), and K3 ends the dirty scrub. -/
theorem not_flashReadsEnd : ¬ Obligations.FlashReadsEnd := by
  unfold Obligations.FlashReadsEnd
  rintro ⟨hread, -⟩
  obtain ⟨t, hexec, -, hdirty, -⟩ := hread rebuildingState 4 9 0 (.mapPage 2) rebuildingState_sound (by decide) (by decide)
  have hended : t.dirty.scrubRun = false := by simpa only [hexec, Outcome.state] using rebuiltRead_ends_scrub
  rw [hdirty] at hended
  exact absurd hended (by decide)

/-- Refutes O32: its fifth clause says that the move of a map page leaves the dirty state as it is, but a page that has to be rebuilt
detects F066, with the same reaction. -/
theorem not_theMapIsFlushedScrubbedAndMoved : ¬ Obligations.TheMapIsFlushedScrubbedAndMoved := by
  unfold Obligations.TheMapIsFlushedScrubbedAndMoved
  rintro ⟨-, -, -, -, hmove, -⟩
  obtain ⟨t, hexec, -, -, -, hdirty⟩ := hmove rebuildingState 2 5 9 rebuildingState_sound (by decide) (by decide) (by decide)
    (by decide)
  have hended : t.dirty.scrubRun = false := by simpa only [hexec, Outcome.state] using rebuiltMove_ends_scrub
  rw [hdirty] at hended
  exact absurd hended (by decide)

end Sys2Proof.Machine
end

section
/-!
PROOFS. Proofs/CancelBeforeService.lean: a kiln is cancelled in a state that no kiln of this service has entered (R248), so the fault of the
cancellation itself may ask for the next kiln.
-/

namespace Sys2Proof.Machine

-- One theorem after another, as the text compiles near its memory limit.
set_option Elab.async false

/-! ### F047 with the planned-kiln action -/

/-- A device in K0 of a kiln of trigger 1 whose mark `kiln.since` is not set: `MAIN_IN` has been good for 4 hc, the debounce runs, no host
port is link-up, and after Steep Ready the armed controller would become Ready; the reaction table asks for a kiln where a kiln is
cancelled (F047). No run from reset leads here, as K0 sets the mark, but the clause does not ask for it. -/
def unmarkedKilnState : State :=
  ((((({ State.reset with power := { life := .running, mainGood := true }, halted := [], safe := { react := askingForKiln 47 } } : State).wr
    R.KLN_STAT_STATE 8).wr R.KLN_STAT_TRIGGER 1).wr R.KLN_STAT_DEBOUNCE 1).wr R.STP_STAT_PHASE 2).wr R.PHS_HC 4

theorem unmarkedKilnState_sound : unmarkedKilnState.Sound where
  inv := by constructor <;> decide
  kept := rfl

/-- The cancellation makes the controller Ready and detects F047, whose reaction is a planned kiln (R455): its trigger is 6. -/
theorem kilnCancel_triggers_kiln :
    (Outcome.state (exec .kilnCancel unmarkedKilnState)).rd R.KLN_STAT_TRIGGER = 6 := by
  decide +kernel

/-- Refutes O35: its fourth clause says that a cancelled kiln leaves no trigger, but the cancellation detects F047, which the
reaction table may answer with the next kiln (R455, R466) where `kiln.since` does not yet hold it back. -/
theorem not_theKilnGoesThroughItsPhases : ¬ Obligations.TheKilnGoesThroughItsPhases := by
  unfold Obligations.TheKilnGoesThroughItsPhases
  rintro ⟨-, -, -, hcancel, -⟩
  obtain ⟨t, hexec, -, hnone, -⟩ := hcancel unmarkedKilnState unmarkedKilnState_sound (by decide) (by decide) (by decide)
    (by decide) (by decide)
  have hsix : t.rd R.KLN_STAT_TRIGGER = 6 := by simpa only [hexec, Outcome.state] using kilnCancel_triggers_kiln
  rw [hnone] at hsix
  exact absurd hsix (by decide)

end Sys2Proof.Machine
end

section
/-!
PROOFS. Proofs/CommandEnd.lean: what the end of a command (R453) leaves alone of the power and of the kiln while no kiln can start,
whatever fault sources are active.
-/

namespace Sys2Proof.Machine

-- One theorem after another, as the text compiles near its memory limit.
set_option Elab.async false

/-! ### The fields held -/

/-- The register fields of a kiln's state, its trigger, the charge drawn and the deadline `CDL0`. -/
def heldFields : List Fld :=
  [R.KLN_STAT_STATE, R.KLN_STAT_TRIGGER, R.PHS_CT_DRAWN, R.PHS_CDL_TARGET 0, R.PHS_CDL_ARMED 0]

/-- A key of none of these fields. -/
abbrev Unheld (k : Nat) : Prop := ∀ f ∈ heldFields, f.key ≠ k

/-! ### Keys of other fields -/

theorem unheld_of_page {k : Nat} (h : keyPage k ≠ 0x42 ∧ keyPage k ≠ 0xB0) : Unheld k := by
  have hpages : ∀ f ∈ heldFields, keyPage f.key = 0x42 ∨ keyPage f.key = 0xB0 := by decide
  rintro f hf rfl
  exact (hpages f hf).elim h.1 h.2

theorem unheld_of_off {k : Nat} (h : keyOff k < 0x40 ∨ 0x88 ≤ keyOff k) : Unheld k := by
  have hoffs : ∀ f ∈ heldFields, 0x40 ≤ keyOff f.key ∧ keyOff f.key < 0x88 := by decide
  rintro f hf rfl
  have := hoffs f hf
  omega

theorem unheld_evtOvf (p : Nat) : Unheld (R.HP_EVT_OVF p).key :=
  unheld_of_page (by simp only [keyPage, Fld.key, R.HP_EVT_OVF]; omega)

theorem unheld_evtPend (p log : Nat) : Unheld (evtPend p log).key := by
  refine unheld_of_page ?_
  unfold evtPend
  split <;> simp only [keyPage, Fld.key, R.HP_EVT_PEND_INFO, R.HP_EVT_PEND_WARN, R.HP_EVT_PEND2_FAIL, R.HP_EVT_PEND2_FATAL] <;>
    omega

theorem unheld_dirtyLoad (p : Nat) : Unheld (R.HP_LOAD_STAT_DIRTY_LOAD p).key ∧ Unheld (R.HP_LOAD_STAT_SEVERE_ENTRIES p).key :=
  ⟨unheld_of_page (by simp only [keyPage, Fld.key, R.HP_LOAD_STAT_DIRTY_LOAD]; omega),
    unheld_of_page (by simp only [keyPage, Fld.key, R.HP_LOAD_STAT_SEVERE_ENTRIES]; omega)⟩

theorem unheld_margin (i : Nat) : Unheld (R.SEQ_RAIL_MARGIN_PCT10 i).key ∧ Unheld (R.SEQ_RAIL_MARGIN_ACT10 i).key :=
  ⟨unheld_of_page (by simp only [keyPage, Fld.key, R.SEQ_RAIL_MARGIN_PCT10]; omega),
    unheld_of_page (by simp only [keyPage, Fld.key, R.SEQ_RAIL_MARGIN_ACT10]; omega)⟩

theorem unheld_dropAlarm (n : Nat) : Unheld (R.DLP_DROP_ALARM n).key :=
  unheld_of_page (by simp only [keyPage, Fld.key, R.DLP_DROP_ALARM]; omega)

theorem unheld_rackTarget (t : Nat) : Unheld (R.RCK_TGT_STAT_STATE t).key ∧ Unheld (R.RCK_TGT_STAT_INFLIGHT t).key :=
  ⟨unheld_of_page (by simp only [keyPage, Fld.key, R.RCK_TGT_STAT_STATE]; omega),
    unheld_of_page (by simp only [keyPage, Fld.key, R.RCK_TGT_STAT_INFLIGHT]; omega)⟩

theorem unheld_rackDebt (t : Nat) : Unheld (R.RCK_OWED t).key ∧ Unheld (R.RCK_GEN t).key :=
  ⟨unheld_of_page (by simp only [keyPage, Fld.key, R.RCK_OWED]; omega),
    unheld_of_page (by simp only [keyPage, Fld.key, R.RCK_GEN]; omega)⟩

theorem unheld_fwver (n : Nat) : Unheld (R.ID_FWVER n).key :=
  unheld_of_page (by simp only [keyPage, Fld.key, R.ID_FWVER]; omega)

theorem unheld_testDischarge (p : Nat) : Unheld (R.PK_TEST_DISCHARGE p).key :=
  unheld_of_page (by simp only [keyPage, Fld.key, R.PK_TEST_DISCHARGE]; omega)

theorem unheld_active (w : Nat) : Unheld (R.SAF_ACTIVE w).key ∧ Unheld (R.SAF_PENDING w).key :=
  ⟨unheld_of_page (by simp only [keyPage, Fld.key, R.SAF_ACTIVE]; omega),
    unheld_of_page (by simp only [keyPage, Fld.key, R.SAF_PENDING]; omega)⟩

theorem unheld_latch (page : Nat) : Unheld (R.FLT_STAT page).key ∧ Unheld (R.EVT_CNT page).key :=
  ⟨unheld_of_off (by simp only [keyOff, Fld.key, R.FLT_STAT]; omega),
    unheld_of_off (by simp only [keyOff, Fld.key, R.EVT_CNT]; omega)⟩

theorem unheld_stale (page : Nat) : Unheld (R.STALE page).key :=
  unheld_of_off (by simp only [keyOff, Fld.key, R.STALE]; omega)

theorem unheld_phase (k : Nat) : Unheld (R.KLN_PHASE_US k).key ∧ Unheld (R.KLN_PHASE_CT k).key :=
  ⟨unheld_of_off (by simp only [keyOff, Fld.key, R.KLN_PHASE_US]; omega),
    unheld_of_off (by simp only [keyOff, Fld.key, R.KLN_PHASE_CT]; omega)⟩

theorem unheld_cdl {n : Nat} (hn : n % 8 ≠ 0) :
    Unheld (R.PHS_CDL_TARGET n).key ∧ Unheld (R.PHS_CDL_ARMED n).key ∧ Unheld (R.PHS_CDL_FIRED n).key :=
  ⟨unheld_of_off (by simp only [keyOff, Fld.key, R.PHS_CDL_TARGET]; omega),
    unheld_of_off (by simp only [keyOff, Fld.key, R.PHS_CDL_ARMED]; omega),
    unheld_of_off (by simp only [keyOff, Fld.key, R.PHS_CDL_FIRED]; omega)⟩

/-! ### What survives -/

/-- A source whose latch cannot end the trial of an update (R523). -/
abbrev Unrelated (src : Nat) : Prop := src < 183 ∨ 189 < src

/-- `P` survives what the end of a command does, but for the start of a kiln: no write of `heldFields`, no change of a kiln's mark, of
what the device does and of its supply. `trial` tells that the trial of an update may end with it, which `P` then survives. -/
structure Endures (trial : Prop) (P : State → Prop) : Prop where
  wr : ∀ {s : State} {f : Fld} {v : Nat}, Unheld f.key → P s → P (s.wr f v)
  parts : ∀ {s : State} {safe : Safe} {recs : Records} {hostA hostB : HostPort} {kiln : Kiln} {cellar : Cellar} {queues : Queues}
    {fabric : Fabric} {racking : Racking} {packA packB : Pack} {seq : Seq} {power : Power} {cal : Cal} {update : Update}
    {halted : List Nat} {out : List Output},
    safe.todo ⊆ s.safe.todo → (kiln.since = s.kiln.since ∧ kiln.m0 = s.kiln.m0) →
    (power.life = s.power.life ∧ power.mainGood = s.power.mainGood) →
    (update.kept = s.update.kept ∧ (update.trigger = true → s.update.trigger = true)) → P s →
      P { s with safe := safe, recs := recs, hostA := hostA, hostB := hostB, kiln := kiln, cellar := cellar, queues := queues,
                 fabric := fabric, racking := racking, packA := packA, packB := packB, seq := seq, power := power, cal := cal,
                 update := update, halted := halted, out := out }
  detect : ∀ {s : State} {src inst : Nat}, Unrelated src ∨ trial → P s → P (s.detect src inst)
  window : ∀ {s : State} {d : Nat × Nat}, P s → d ∈ s.safe.todo → Unrelated d.1 ∨ trial
  tried : ∀ {s : State}, P s → s.update.trigger = true → trial
  trigger : ∀ {s : State}, trial → P s → P { s with update := { s.update with trigger := true } }
  settings : ∀ {s : State}, trial → P s → P s.restoreSettings

section

variable {trial : Prop} {P : State → Prop} {s : State} (C : Endures trial P) (hP : P s)

include C hP

/-! ### Machine/Ops.lean -/

theorem Endures.put {f : Fld} {v : Nat} (hf : Unheld f.key := by decide) : P (s.wr f v) :=
  C.wr hf hP

theorem Endures.other {safe : Safe} {recs : Records} {hostA hostB : HostPort} {kiln : Kiln} {cellar : Cellar} {queues : Queues}
    {fabric : Fabric} {racking : Racking} {packA packB : Pack} {seq : Seq} {power : Power} {cal : Cal} {update : Update}
    {halted : List Nat} {out : List Output} (htodo : safe.todo ⊆ s.safe.todo := by exact fun _ h => h)
    (hkiln : kiln.since = s.kiln.since ∧ kiln.m0 = s.kiln.m0 := by exact ⟨rfl, rfl⟩)
    (hpower : power.life = s.power.life ∧ power.mainGood = s.power.mainGood := by exact ⟨rfl, rfl⟩)
    (hupdate : update.kept = s.update.kept ∧ (update.trigger = true → s.update.trigger = true) := by exact ⟨rfl, fun h => h⟩) :
    P { s with safe := safe, recs := recs, hostA := hostA, hostB := hostB, kiln := kiln, cellar := cellar, queues := queues,
               fabric := fabric, racking := racking, packA := packA, packB := packB, seq := seq, power := power, cal := cal,
               update := update, halted := halted, out := out } :=
  C.parts htodo hkiln hpower hupdate hP

theorem Endures.finds {src inst : Nat} (hsrc : Unrelated src := by decide) : P (s.detect src inst) :=
  C.detect (.inl hsrc) hP

theorem Endures.inc {f : Fld} (hf : Unheld f.key := by decide) : P (s.inc f) :=
  pres_ite (C.wr hf hP) hP

theorem Endures.bump {f : Fld} (hf : Unheld f.key := by decide) : P (s.bump f) :=
  C.wr hf hP

theorem Endures.setBit {f : Fld} {i : Nat} {b : Bool} (hf : Unheld f.key := by decide) : P (s.setBit f i b) :=
  pres_ite hP (C.wr hf hP)

theorem Endures.send {o : Output} : P (s.send o) :=
  C.other hP

theorem Endures.setHost {p : Nat} {h : HostPort} : P (s.setHost p h) :=
  pres_ite (C.other hP) (C.other hP)

theorem Endures.msix {p vec : Nat} : P (s.msix p vec) :=
  pres_ite (C.send hP) hP

theorem Endures.setPack {p : Nat} {k : Pack} : P (s.setPack p k) :=
  pres_ite (C.other hP) (C.other hP)

theorem Endures.showTlog : P s.showTlog :=
  C.put (C.put (C.put hP))

theorem Endures.appendTlog {limited : Bool} {e : TEntry} : P (s.appendTlog limited e) :=
  pres_ite (pres_cond (C.inc (C.other hP)) (fun _ h1 => C.finds h1)) (C.showTlog (C.other hP))

theorem Endures.tlog {code data : Nat} : P (s.tlog code data) :=
  C.appendTlog hP

theorem Endures.pushEvent {log : Nat} {kind : EvtKind} {granule : Option Nat} {words : List Nat} {p : Nat} :
    P (s.pushEvent log kind granule words p) :=
  pres_ite (pres_cond (C.setBit hP (unheld_evtOvf p)) (fun _ h1 => C.finds h1))
    (pres_cond (C.put (C.setHost hP) (unheld_evtPend p log)) (fun _ h1 => C.msix h1))

theorem Endures.event {log : Nat} {kind : EvtKind} {granule : Option Nat} {words : List Nat} :
    P (s.event log kind granule words) :=
  C.tlog (pres_foldl hP (fun _ _ h1 => C.pushEvent h1))

theorem Endures.vendor {log subtype : Nat} {words : List Nat} : P (s.vendor log subtype words) :=
  C.event hP

theorem Endures.healthNote : P s.healthNote :=
  pres_ite hP (C.event (C.other hP))

theorem Endures.dirtyLoad {p : Nat} : P (s.dirtyLoad p) := by
  unfold State.dirtyLoad
  exact pres_cond (C.put hP (unheld_dirtyLoad p).1) (fun _ h1 => C.inc h1 (unheld_dirtyLoad p).2)

theorem Endures.pstUpdate {upd : State → State} (hupd : ∀ t, P t → P (upd t)) : P (s.pstUpdate upd) :=
  pres_each
    (C.healthNote
      (C.bump (pres_cond (C.put (C.put (hupd _ hP))) (fun _ h1 => C.tlog (C.vendor (C.inc (C.other h1)))))))
    (fun _ _ h1 => C.dirtyLoad h1)

theorem Endures.setCond {src inst : Nat} {on : Bool} (hsrc : Unrelated src ∨ trial) : P (s.setCond src inst on) :=
  pres_ite (pres_ite (C.other hP) (C.detect hsrc (C.other hP))) (C.other hP)

/-! ### Machine/SeqOps.lean -/

theorem Endures.armCdl {n target : Nat} (hn : n % 8 ≠ 0) : P (s.armCdl n target) :=
  have hset {u : State} (hu : P u) : P ((u.wr (R.PHS_CDL_TARGET n) target).wr (R.PHS_CDL_FIRED n) 0) :=
    C.put (C.put hu (unheld_cdl hn).1) (unheld_cdl hn).2.2
  pres_ite (C.put (C.put (hset hP) (unheld_cdl hn).2.1) (unheld_cdl hn).2.2) (C.put (hset hP) (unheld_cdl hn).2.1)

theorem Endures.disarmCdl {n : Nat} (hn : n % 8 ≠ 0) : P (s.disarmCdl n) :=
  C.put hP (unheld_cdl hn).2.1

theorem Endures.showMargins : P s.showMargins :=
  pres_cond (C.put hP) (fun _ h1 => C.setCond h1 (.inl (by decide)))

theorem Endures.dropMargin {i : Nat} : P (s.dropMargin i) :=
  C.put (C.put hP (unheld_margin i).1) (unheld_margin i).2

theorem Endures.dropMargins : P s.dropMargins :=
  C.showMargins (pres_each hP (fun _ _ h1 => C.dropMargin h1))

theorem Endures.showSeq : P s.showSeq :=
  C.put (C.put (C.put (C.put (C.put hP))))

theorem Endures.seqStop {failed : Bool} : P (s.seqStop failed) :=
  C.showSeq (C.put (C.other hP))

theorem Endures.seqRequest {n : Nat} : P (s.seqRequest n) := by
  unfold State.seqRequest
  dsimp only
  split
  · exact C.other hP
  · exact pres_ite hP (pres_ite (C.other (C.seqStop hP)) (pres_ite (C.other (C.seqStop hP)) (C.setBit hP)))

/-! ### Machine/LinkOps.lean -/

theorem Endures.setPlane {n pl : Nat} {l : Plane} : P (s.setPlane n pl l) :=
  C.other hP

theorem Endures.pump {n pl k : Nat} : P (s.pump n pl k) := by
  induction k generalizing s with
  | zero => exact hP
  | succ k ih =>
    unfold State.pump
    refine pres_ite hP ?_
    split
    · exact hP
    · split
      · exact hP
      · exact ih (C.send (C.setPlane hP))

theorem Endures.dropAlarm {n : Nat} : P (s.dropAlarm n) :=
  C.finds (C.inc (C.other hP) (unheld_dropAlarm n))

theorem Endures.sendOn {n pl : Nat} {p : Packet} : P (s.sendOn n pl p) := by
  unfold State.sendOn
  refine pres_ite hP ?_
  split
  · exact pres_ite (C.pump (C.setPlane hP)) (pres_ite (C.pump (C.setPlane (C.dropAlarm (C.setPlane hP)))) (C.dropAlarm hP))
  · exact C.pump (C.setPlane hP)

theorem Endures.floodOut {src : Nat} {p : Packet} : P (s.floodOut src p) :=
  pres_each hP (fun _ _ h1 => pres_cond h1 (fun _ h2 => C.sendOn (C.sendOn h2)))

theorem Endures.remember {src typ sq : Nat} : P (s.remember src typ sq) :=
  C.other hP

theorem Endures.floodKiln {trig : Nat} : P (s.floodKiln trig) :=
  pres_ite hP
    (C.inc (pres_each (C.remember (C.other hP)) (fun _ _ h1 => pres_cond h1 (fun _ h2 => C.sendOn (C.sendOn h2)))))

theorem Endures.floodLsa : P s.floodLsa :=
  pres_ite hP (C.floodOut (C.remember (C.bump (C.other hP))))

theorem Endures.announce : P s.announce :=
  pres_ite (C.other hP) (C.floodLsa hP)

theorem Endures.claim {n : Nat} : P (s.claim n) := by
  unfold State.claim
  split
  · exact C.announce (C.other (C.put (C.put hP)))
  · exact C.finds (C.put (C.put hP))

theorem Endures.loseFnn : P s.loseFnn := by
  unfold State.loseFnn
  exact C.claim (C.finds (C.inc hP))

theorem Endures.settleClaim : P s.settleClaim :=
  pres_ite (C.loseFnn hP) (pres_cond hP (fun _ h1 => C.claim h1))

theorem Endures.unicast {p : Packet} : P (s.unicast p) := by
  unfold State.unicast
  split
  · exact hP
  · exact C.sendOn hP

/-! ### Machine/RackOps.lean -/

theorem Endures.setDebt {t : Nat} {d : RSet} : P (s.setDebt t d) :=
  have howed : P (s.noteOwed t (RSet.diff d (s.debt t))) := C.other hP
  C.put (pres_ite (C.other howed) (C.other howed)) (unheld_rackDebt t).1

theorem Endures.rackSettle : P s.rackSettle :=
  C.other hP

theorem Endures.suspend {t : Nat} : P (s.suspend t) :=
  have hsends : P (s.abandonSends t) := pres_each (C.other hP) (fun _ _ h1 => C.put h1 (unheld_rackTarget _).2)
  C.rackSettle (C.finds (C.put hsends (unheld_rackTarget t).1))

theorem Endures.advanceGen {t n : Nat} : P (s.advanceGen t n) :=
  C.finds (C.setDebt (C.put (pres_ite (C.other hP) (C.other hP)) (unheld_rackDebt t).2))

theorem Endures.rackTo {eui cls len sq tag : Nat} {p : Payload} : P (s.rackTo eui cls len sq tag p) := by
  unfold State.rackTo
  split
  · exact hP
  · exact pres_cond hP (fun _ h1 => C.unicast h1)

theorem Endures.sendOpen {t : Nat} : P (s.sendOpen t) :=
  pres_foldl (C.rackTo (pres_cond hP (fun _ h1 => C.advanceGen h1))) (fun _ _ h1 => C.rackTo h1)

theorem Endures.openTarget {t : Nat} : P (s.openTarget t) :=
  C.rackSettle (pres_cond (C.put hP (unheld_rackTarget t).1) (fun _ h1 => C.sendOpen h1))

theorem Endures.followRoutes : P s.followRoutes :=
  pres_each hP (fun _ _ h1 => pres_ite h1 (pres_ite (C.suspend h1) (pres_ite (C.openTarget h1) h1)))

theorem Endures.fabricRuns : P s.fabricRuns :=
  pres_cond hP (fun _ h1 => C.followRoutes (C.settleClaim h1))

/-! ### Machine/StopOps.lean -/

theorem Endures.restExit : P s.restExit :=
  pres_ite (C.announce (pres_cond (C.other (C.put hP)) (fun _ h1 => C.seqRequest h1))) hP

theorem Endures.abandonCal : P s.abandonCal :=
  pres_ite (C.finds (C.put (C.put (C.put (C.put (C.other hP)))))) hP

theorem Endures.updateK0 : P s.updateK0 :=
  pres_ite (C.put (C.put (C.other hP))) hP

theorem Endures.unhalt {n : Nat} : P (s.unhalt n) :=
  pres_cond
    (pres_cond (pres_foldl (C.other hP) (fun _ _ h1 => C.put h1 (unheld_stale _))) (fun _ h1 => C.put h1))
    (fun _ h1 => C.fabricRuns h1)

theorem Endures.returnImages (htrial : trial) : P s.returnImages :=
  C.put (C.settings htrial (C.other (pres_cond
    (pres_cond
      (pres_cond (pres_foldl hP (fun _ _ h1 => pres_cond h1 (fun _ h2 => C.put h2 (unheld_fwver _)))) (fun _ h1 => C.put h1))
      (fun _ h1 => C.unhalt h1))
    (fun _ h1 => C.other h1)) (hupdate := by exact ⟨rfl, nofun⟩)))

theorem Endures.fallback (htrial : trial) : P s.fallback :=
  C.vendor (C.finds (C.inc (C.put (C.put (C.returnImages hP htrial)))))

theorem Endures.dropTest {p : Nat} (hp : p < 2) : P (s.dropTest p) :=
  pres_ite hP (C.disarmCdl (C.put (C.setPack hP) (unheld_testDischarge p)) (by unfold testSlot; omega))

theorem Endures.packPathOn : P s.packPathOn :=
  pres_each hP (fun _ _ h1 => pres_cond h1 (fun _ h2 => C.setPack h2))

/-! ### Machine/KilnOps.lean -/

theorem Endures.closePhase : P s.closePhase := by
  unfold State.closePhase
  have hphase : P ((s.wr (R.KLN_PHASE_US s.kilnPhase) (min (s.usOf (s.puNow - s.kiln.markPu)) (2 ^ 32 - 1))).wr
      (R.KLN_PHASE_CT s.kilnPhase) (min (s.rd R.PHS_CT_DRAWN - s.kiln.markCt) (2 ^ 24 - 1))) :=
    C.put (C.put hP (unheld_phase _).1) (unheld_phase _).2
  dsimp only
  split
  · exact pres_cond hphase (fun _ h1 => C.finds h1)
  · exact hphase

theorem Endures.cdlMark {n : Nat} : P (s.cdlMark n) := by
  unfold State.cdlMark
  split
  · exact pres_cond hP (fun _ h1 => C.other h1)
  · exact C.finds (C.other hP)
  · exact C.finds hP

theorem Endures.armKiln {n target : Nat} (hn : n % 8 ≠ 0) : P (s.armKiln n target) :=
  pres_cond (C.armCdl hP hn) (fun _ h1 => C.cdlMark h1)

theorem Endures.groupMessage {trig : Nat} {group : Bool} : P (s.groupMessage trig group) :=
  pres_cond hP (fun _ h1 => C.floodKiln h1)

theorem Endures.pathOn : P s.pathOn :=
  C.packPathOn (C.other hP)

/-! ### Machine/FaultOps.lean -/

theorem Endures.showSafe : P s.showSafe :=
  C.put (C.put (C.put (C.put (C.put (C.put (pres_each hP (fun _ _ h1 =>
    C.put (C.put h1 (unheld_active _).1) (unheld_active _).2)))))))

theorem Endures.holdReasons : P s.holdReasons :=
  pres_ite hP (C.pstUpdate hP (fun _ h1 => C.put (C.put (C.put h1))))

theorem Endures.driveErrn : P s.driveErrn :=
  pres_ite hP (C.other (C.put hP))

theorem Endures.enterHist {e : HistEntry} : P (s.enterHist e) :=
  pres_ite hP (pres_ite (C.inc hP) (C.other hP))

theorem Endures.dispatch {src sev : Nat} : P (s.dispatch src sev) :=
  pres_ite hP (pres_ite (C.other hP) (pres_ite (C.other hP) (pres_ite (pres_ite
    (C.inc (C.other hP))
    (pres_ite (C.inc (C.other hP)) (C.finds (C.other (C.inc (C.other hP)))))) (C.other hP))))

theorem Endures.repeatedFail {src : Nat} (hsrc : Unrelated src ∨ trial) : P (s.repeatedFail src) := by
  unfold State.repeatedFail
  split
  · next hfail =>
    have htrial : trial := hsrc.resolve_left (by unfold Unrelated; omega)
    exact pres_cond (C.other hP) (fun _ h1 => C.setCond h1 (.inr htrial))
  · exact hP

theorem Endures.releaseEnded : P s.releaseEnded :=
  C.other hP

theorem Endures.faultState : P s.faultState :=
  pres_ite (C.put (C.put hP)) (pres_ite (C.put (C.put hP)) hP)

theorem Endures.runPending : P s.runPending := by
  unfold State.runPending
  split
  · exact hP
  · exact pres_ite (pres_cond (C.other hP) (fun _ h1 => C.inc h1)) hP

end

/-! ### Where no kiln can start -/

theorem mem_of_mem_insertLatch {s : State} {d e : Nat × Nat} {l : List (Nat × Nat)} (h : e ∈ s.insertLatch d l) :
    e = d ∨ e ∈ l := by
  induction l with
  | nil => simpa [State.insertLatch] using h
  | cons a t ih =>
    unfold State.insertLatch at h
    split at h
    · simpa using h
    · split at h
      · exact .inr h
      · rcases List.mem_cons.mp h with rfl | ht
        · exact .inr (by simp)
        · exact (ih ht).imp_right (List.mem_cons_of_mem a)

/-- A window latches nothing that was not detected. -/
theorem mem_of_mem_foldl_insertLatch {s : State} {e : Nat × Nat} {w l : List (Nat × Nat)}
    (h : e ∈ w.foldl (fun l d => s.insertLatch d l) l) : e ∈ w ∨ e ∈ l := by
  induction w generalizing l with
  | nil => exact .inr h
  | cons a t ih =>
    rcases ih h with ht | hl
    · exact .inl (List.mem_cons_of_mem a ht)
    · exact (mem_of_mem_insertLatch hl).imp_left (by rintro rfl; simp)

section

variable {trial : Prop} {P : State → Prop} {s : State} (C : Endures trial P)
  (hidle : ∀ {t : State}, P t → t.kiln.since = true ∨ t.kilnLive = false) (hP : P s)

include C hidle hP

/-- The planned-kiln action is ignored after K0, and suppressed while the controller is neither Ready nor Primed (R455, R463). -/
theorem Endures.kilnAction {src : Nat} : P (s.kilnAction src) := by
  have hlive : s.kiln.since = false → s.kilnLive = false := fun hsince => (hidle hP).resolve_left (by simp [hsince])
  unfold State.kilnAction
  dsimp only
  split
  · exact C.inc hP
  · next hsince =>
    rw [if_neg (by simp [hlive (by simpa using hsince)])]
    exact pres_cond (C.inc hP) (fun _ h1 => C.finds h1)

theorem Endures.latch {src inst : Nat} (hsrc : Unrelated src ∨ trial) : P (s.latch src inst) := by
  have htrial (h : (decide (183 ≤ src) && decide (src ≤ 189)) = true) : trial :=
    hsrc.resolve_left (by simp only [Bool.and_eq_true, decide_eq_true_eq] at h; unfold Unrelated; omega)
  unfold State.latch
  extract_lets page sev act msk s1 pre e r s2 safe2 s3 s4 s5 s6
  have h1 : P s1 := C.inc (C.setBit hP (unheld_latch page).1) (unheld_latch page).2
  have h3 : P s3 := C.other (C.enterHist h1)
  have h4 : P s4 := pres_cond h3 (fun _ h => C.restExit (C.put (C.put h)))
  have h5 : P s5 := by
    unfold s5 State.cond
    split
    · next hfail => exact C.trigger (htrial (by simp only [Bool.and_eq_true] at hfail ⊢; exact hfail.1)) h4
    · exact h4
  have h6 : P s6 := pres_cond (C.repeatedFail h5 hsrc) (fun _ h => C.kilnAction hidle h)
  exact pres_ite (C.dispatch h6) hP

theorem Endures.closeWindow : P s.closeWindow := by
  unfold State.closeWindow
  extract_lets w
  refine List.foldlRecOn w _ (C.other hP (htodo := List.nil_subset _)) (fun t ht d hd => ?_)
  have hmem : d ∈ s.safe.todo := by simpa using mem_of_mem_foldl_insertLatch hd
  exact C.latch hidle ht (C.window hP hmem)

theorem Endures.settle {n : Nat} : P (s.settle n) := by
  induction n generalizing s with
  | zero => exact hP
  | succ n ih =>
    unfold State.settle
    have hshown : P s.releaseEnded.faultState.holdReasons.runPending.showSafe :=
      C.showSafe (C.runPending (C.holdReasons (C.faultState (C.releaseEnded hP))))
    dsimp only
    split
    · next htrig => exact ih (C.fallback hP (C.tried hP htrig))
    · exact pres_ite (pres_ite (C.driveErrn hshown) (ih hshown)) (ih (C.closeWindow hidle hP))

theorem Endures.finish : P (finish s) :=
  C.settle hidle hP

end

/-! ### Fields shown -/

/-- `t` shows the values listed in its fields, and has the mark of `s₀`, its life and its supply. Where the trial of an update may end
(`trial`), no old settings are kept that could come back (R525); else nothing detected can end it. -/
structure Shows (trial : Prop) (vals : List (Fld × Nat)) (s₀ t : State) : Prop where
  wf : t.regs.wf = true
  rd : ∀ e ∈ vals, t.rd e.1 = e.2
  since : t.kiln.since = s₀.kiln.since
  m0 : t.kiln.m0 = s₀.kiln.m0
  life : t.power.life = s₀.power.life
  mainGood : t.power.mainGood = s₀.power.mainGood
  kept : trial → t.update.kept = []
  trigger : ¬ trial → t.update.trigger = false
  todo : ¬ trial → ∀ d ∈ t.safe.todo, Unrelated d.1

section

variable {trial : Prop} {vals : List (Fld × Nat)} {s₀ t : State}

theorem shows_endures (hvals : ∀ e ∈ vals, e.1 ∈ heldFields) : Endures trial (Shows trial vals s₀) where
  wr hf h :=
    { h with
      wf := State.wf_wr _ _ h.wf
      rd := fun e he => (State.rd_wr_ne _ _ (hf e.1 (hvals e he))).trans (h.rd e he) }
  parts htodo hkiln hpower hupdate h :=
    { h with
      since := hkiln.1.trans h.since
      m0 := hkiln.2.trans h.m0
      life := hpower.1.trans h.life
      mainGood := hpower.2.trans h.mainGood
      kept := fun ht => hupdate.1.trans (h.kept ht)
      trigger := fun ht => Bool.eq_false_iff.mpr (fun hset => Bool.eq_false_iff.mp (h.trigger ht) (hupdate.2 hset))
      todo := fun ht d hd => h.todo ht d (htodo hd) }
  detect hsrc h :=
    { h with
      todo := fun ht d hd => by
        rcases List.mem_append.mp hd with hd | hd
        · exact h.todo ht d hd
        · rw [List.mem_singleton.mp hd]
          exact hsrc.resolve_right ht }
  window h hd := or_iff_not_imp_right.mpr (fun ht => h.todo ht _ hd)
  tried h htrigger := by_contra (fun ht => Bool.eq_false_iff.mp (h.trigger ht) htrigger)
  trigger ht h := { h with trigger := fun hn => absurd ht hn }
  settings ht h := by
    rwa [State.restoreSettings, if_pos (by simp [h.kept ht])]

/-- A state shows what it reads, at the start. -/
theorem shows_refl {u : State} (f : Fld) (hw : u.regs.wf = true) (hkept : trial → u.update.kept = [])
    (htrigger : ¬ trial → u.update.trigger = false) (htodo : ¬ trial → u.safe.todo = []) : Shows trial [(f, u.rd f)] u u where
  wf := hw
  rd := by
    intro e he
    rw [List.mem_singleton.mp he]
  since := rfl
  m0 := rfl
  life := rfl
  mainGood := rfl
  kept := hkept
  trigger := htrigger
  todo ht d hd := by
    rw [htodo ht] at hd
    cases hd

/-- A field newly written shows what was written, cut to its width. -/
theorem Shows.wr (h : Shows trial vals s₀ t) {f : Fld} (v : Nat) (hf : ∀ e ∈ vals, e.1.key ≠ f.key) :
    Shows trial ((f, v % 2 ^ f.width) :: vals) s₀ (t.wr f v) :=
  { h with
    wf := State.wf_wr _ _ h.wf
    rd := by
      intro e he
      rcases List.mem_cons.mp he with rfl | he
      · exact State.rd_wr_self f v h.wf
      · exact (State.rd_wr_ne t v (hf e he)).trans (h.rd e he) }

end

end Sys2Proof.Machine
end

section
/-!
PROOFS. Proofs/KilnStart.lean: a power failure and an escalated Early Warning start a kiln (R222, R229): K0 takes the mark and arms
`CDL0`, K1 follows, and nothing that the end of the command does changes what they show (Proofs/CommandEnd.lean).
-/

namespace Sys2Proof.Machine

-- One theorem after another, as the text compiles near its memory limit.
set_option Elab.async false

/-! ### K0 and K1 -/

/-- The mark that K0 takes of a kiln (R229). -/
def State.marked (s : State) (trig mask : Nat) (p3 : Bool) : State :=
  { s with kiln := { since := true, m0 := s.rd R.PHS_CT_DRAWN, e0 := s.rd R.BUD_E_COUNT_CT, iK := s.rd R.BUD_I_KILN_CT_PER_S,
                     w := s.windowW, v := s.rd R.BUD_DRAIN_MBPS, hc0 := s.hc, pu0 := s.pu, trigMask := mask,
                     p3Consent := p3 && trig == 3, k2Wait := (List.range s.variant.ports).filter s.linkUp } }

/-- What a kiln of trigger `trig` shows from K0 on that is marked at the charge `m0` with the energy `e0`: its trigger, and `CDL0` armed
at that energy, where there is any (R46). -/
def markedVals (trig m0 e0 : Nat) : List (Fld × Nat) :=
  [(R.PHS_CDL_ARMED 0, b2n (decide (0 < e0))), (R.PHS_CDL_TARGET 0, (m0 + e0) % 2 ^ 48), (R.KLN_STAT_TRIGGER, trig % 2 ^ 3),
   (R.PHS_CT_DRAWN, m0)]

theorem markedVals_held (trig m0 e0 : Nat) : ∀ e ∈ markedVals trig m0 e0, e.1 ∈ heldFields := by
  simp [markedVals, heldFields]

theorem cdlTarget_ne_cdlArmed : (R.PHS_CDL_TARGET 0).key ≠ (R.PHS_CDL_ARMED 0).key := by decide

theorem unheld_gpfLate (p : Nat) : Unheld (R.HP_GPF_P2_LATE p).key :=
  unheld_of_page (by simp only [keyPage, Fld.key, R.HP_GPF_P2_LATE]; omega)

section

variable {trial : Prop} {vals : List (Fld × Nat)} {s₀ t : State}

/-- `CDL0` is armed, or fires at once where its target is already reached. -/
theorem Shows.armKiln {m0 e0 : Nat} (h : Shows trial vals s₀ t) (hvals : ∀ e ∈ vals, e.1 ∈ heldFields)
    (hcdl : ∀ e ∈ vals, e.1.key ≠ (R.PHS_CDL_TARGET 0).key ∧ e.1.key ≠ (R.PHS_CDL_ARMED 0).key)
    (hdrawn : (R.PHS_CT_DRAWN, m0) ∈ vals) :
    Shows trial ((R.PHS_CDL_ARMED 0, b2n (decide (0 < e0))) :: (R.PHS_CDL_TARGET 0, (m0 + e0) % 2 ^ 48) :: vals) s₀
      (t.armKiln 0 (m0 + e0)) := by
  have hheld : ∀ e ∈ (R.PHS_CDL_ARMED 0, b2n (decide (0 < e0))) :: (R.PHS_CDL_TARGET 0, (m0 + e0) % 2 ^ 48) :: vals,
      e.1 ∈ heldFields :=
    List.forall_mem_cons.mpr ⟨by simp [heldFields], List.forall_mem_cons.mpr ⟨by simp [heldFields], hvals⟩⟩
  have C := shows_endures (trial := trial) (s₀ := s₀) hheld
  have C1 := shows_endures (trial := trial) (s₀ := s₀) (List.forall_mem_cons.mp hheld).2
  have htarget : Shows trial ((R.PHS_CDL_TARGET 0, (m0 + e0) % 2 ^ 48) :: vals) s₀
      ((t.wr (R.PHS_CDL_TARGET 0) (m0 + e0)).wr (R.PHS_CDL_FIRED 0) 0) :=
    C1.put (h.wr (m0 + e0) (fun e he => (hcdl e he).1))
  have harmed (v : Nat) := htarget.wr (f := R.PHS_CDL_ARMED 0) v
    (List.forall_mem_cons.mpr ⟨cdlTarget_ne_cdlArmed, fun e he => (hcdl e he).2⟩)
  have hm0 : ((t.wr (R.PHS_CDL_TARGET 0) (m0 + e0)).wr (R.PHS_CDL_FIRED 0) 0).rd R.PHS_CT_DRAWN = m0 :=
    htarget.rd (R.PHS_CT_DRAWN, m0) (List.mem_cons_of_mem _ hdrawn)
  unfold State.armKiln
  refine pres_cond ?_ (fun _ h1 => C.cdlMark h1)
  unfold State.armCdl
  dsimp only
  rw [hm0]
  split
  · next hreached =>
    obtain rfl : e0 = 0 := by omega
    exact C.put (harmed 0)
  · next hahead =>
    have hpos : 0 < e0 := by omega
    rw [show b2n (decide (0 < e0)) = 1 % 2 ^ (R.PHS_CDL_ARMED 0).width by simp [hpos, b2n, R.PHS_CDL_ARMED]]
    exact harmed 1

/-- A phase entered shows its state; what else is shown stays. -/
theorem Shows.enterPhase {k : Nat} (h : Shows trial vals s₀ t) (hvals : ∀ e ∈ vals, e.1 ∈ heldFields)
    (hstate : ∀ e ∈ vals, e.1.key ≠ R.KLN_STAT_STATE.key) :
    Shows trial ((R.KLN_STAT_STATE, (8 + k) % 2 ^ 4) :: vals) s₀ (t.enterPhase k) := by
  have C := shows_endures (trial := trial) (s₀ := s₀) hvals
  have C' := shows_endures (trial := trial) (s₀ := s₀) (vals := (R.KLN_STAT_STATE, (8 + k) % 2 ^ 4) :: vals)
    (List.forall_mem_cons.mpr ⟨by simp [heldFields], hvals⟩)
  have hentered := (pres_cond (c := t.inKiln) h (fun _ h1 => C.closePhase h1)).wr (f := R.KLN_STAT_STATE) (8 + k) hstate
  exact C'.tlog (pres_cond (C'.other hentered) (fun _ h1 => C'.put h1))

/-- Without the state shown, a phase entered changes nothing shown. -/
theorem Shows.enterPhase_tail {k : Nat} (h : Shows trial vals s₀ t) (hvals : ∀ e ∈ vals, e.1 ∈ heldFields)
    (hstate : ∀ e ∈ vals, e.1.key ≠ R.KLN_STAT_STATE.key) : Shows trial vals s₀ (t.enterPhase k) :=
  { h.enterPhase hvals hstate with rd := fun e he => (h.enterPhase hvals hstate).rd e (List.mem_cons_of_mem _ he) }

end

section

variable {trial : Prop} {s : State}

theorem State.enterK0_shows (trig mask : Nat) (p3 group : Bool)
    (h : Shows trial [(R.PHS_CT_DRAWN, s.rd R.PHS_CT_DRAWN)] (s.marked trig mask p3) (s.marked trig mask p3)) :
    Shows trial (markedVals trig (s.rd R.PHS_CT_DRAWN) (s.rd R.BUD_E_COUNT_CT)) (s.marked trig mask p3)
      (s.enterK0 trig mask p3 group) := by
  have C := shows_endures (trial := trial) (s₀ := s.marked trig mask p3)
    (vals := [(R.KLN_STAT_TRIGGER, trig % 2 ^ 3), (R.PHS_CT_DRAWN, s.rd R.PHS_CT_DRAWN)]) (by simp [heldFields])
  have C0 := shows_endures (trial := trial) (s₀ := s.marked trig mask p3)
    (markedVals_held trig (s.rd R.PHS_CT_DRAWN) (s.rd R.BUD_E_COUNT_CT))
  unfold State.enterK0
  extract_lets s1 s2 s3 s4 s5 s6 s7 s8
  have h3 : Shows trial _ (s.marked trig mask p3) s3 :=
    C.put (C.put (C.put (C.put (C.put (h.wr (f := R.KLN_STAT_TRIGGER) trig (by simp; decide))))))
  have h4 : Shows trial (markedVals trig (s.rd R.PHS_CT_DRAWN) (s.rd R.BUD_E_COUNT_CT)) (s.marked trig mask p3) s4 :=
    h3.armKiln (by simp [heldFields]) (by simp; decide) (by simp)
  have h6 : Shows trial _ (s.marked trig mask p3) s6 :=
    pres_each (C0.armKiln h4 (by decide)) (fun _ p h => C0.put h (unheld_gpfLate p))
  have h8 : Shows trial _ (s.marked trig mask p3) s8 :=
    C0.dropTest (C0.dropTest (C0.restExit (C0.updateK0 (C0.dropMargins (C0.abandonCal (C0.put h6))))) (by decide)) (by decide)
  exact C0.groupMessage (h8.enterPhase_tail (markedVals_held _ _ _) (by simp [markedVals]; decide))

/-- Trigger 1 or 2 starts a kiln in K1, which waits for the pack path. -/
theorem State.startKiln_shows {trig : Nat} (mask : Nat) (p3 group : Bool) (hsupply : trig < 3)
    (h : Shows trial [(R.PHS_CT_DRAWN, s.rd R.PHS_CT_DRAWN)] (s.marked trig mask p3) (s.marked trig mask p3)) :
    Shows trial ((R.KLN_STAT_STATE, 9) :: markedVals trig (s.rd R.PHS_CT_DRAWN) (s.rd R.BUD_E_COUNT_CT)) (s.marked trig mask p3)
      (s.startKiln trig mask p3 group) := by
  have hk1 := (State.enterK0_shows trig mask p3 group h).enterPhase (k := 1) (markedVals_held _ _ _) (by simp [markedVals]; decide)
  unfold State.startKiln
  dsimp only
  rw [if_neg (by omega)]
  exact (shows_endures (List.forall_mem_cons.mpr ⟨by simp [heldFields], markedVals_held _ _ _⟩)).pathOn hk1

/-- The end of the command changes none of it. -/
theorem State.startKiln_finish_shows {trig : Nat} (mask : Nat) (p3 group : Bool) (hsupply : trig < 3)
    (h : Shows trial [(R.PHS_CT_DRAWN, s.rd R.PHS_CT_DRAWN)] (s.marked trig mask p3) (s.marked trig mask p3)) :
    Shows trial ((R.KLN_STAT_STATE, 9) :: markedVals trig (s.rd R.PHS_CT_DRAWN) (s.rd R.BUD_E_COUNT_CT)) (s.marked trig mask p3)
      (finish (s.startKiln trig mask p3 group)) :=
  (shows_endures (List.forall_mem_cons.mpr ⟨by simp [heldFields], markedVals_held _ _ _⟩)).finish (fun hu => .inl hu.since)
    (State.startKiln_shows mask p3 group hsupply h)

end

/-! ### The commands -/

/-- A calm state has nothing detected at the start of a command, so nothing that could end the trial of an update. -/
theorem State.Calm.marked_shows {s u : State} (hc : s.Calm) (hregs : u.regs = s.regs) (hsafe : u.safe = s.begin.safe)
    (hupdate : u.update = s.begin.update) (trig mask : Nat) (p3 : Bool) :
    Shows False [(R.PHS_CT_DRAWN, u.rd R.PHS_CT_DRAWN)] (u.marked trig mask p3) (u.marked trig mask p3) :=
  shows_refl (u := u.marked trig mask p3) R.PHS_CT_DRAWN ((congrArg NMap.wf hregs).trans hc.inv.regs)
    (fun h => h.elim) (fun _ => congrArg Update.trigger hupdate) (fun _ => congrArg Safe.todo hsafe)

theorem State.Sound.marked_shows {s u : State} (hs : s.Sound) (hregs : u.regs = s.regs)
    (hupdate : u.update = s.begin.update) (trig mask : Nat) (p3 : Bool) :
    Shows True [(R.PHS_CT_DRAWN, u.rd R.PHS_CT_DRAWN)] (u.marked trig mask p3) (u.marked trig mask p3) :=
  shows_refl (u := u.marked trig mask p3) R.PHS_CT_DRAWN ((congrArg NMap.wf hregs).trans hs.inv.regs)
    (fun _ => (congrArg Update.kept hupdate).trans hs.kept) (fun h => absurd trivial h) (fun h => absurd trivial h)

/-- A trigger that comes in P0 while the controller is Ready or Primed starts a kiln. -/
theorem State.fireTrigger_of_live {s : State} (hlive : s.kilnLive = true) (trig : Nat) (p3 group : Bool) :
    s.fireTrigger trig p3 group = s.startKiln trig (2 ^ (trig - 1)) p3 group :=
  if_pos hlive

theorem State.not_inKiln_of_live {s : State} (hlive : s.kilnLive = true) : s.inKiln = false := by
  unfold State.kilnLive at hlive
  unfold State.inKiln
  simp only [Bool.or_eq_true, beq_iff_eq] at hlive
  simp only [decide_eq_false_iff_not]
  omega

/-- `MAIN_IN` good no more. -/
def State.mainLost (s : State) : State := { s with power := { s.power with mainGood := false } }

@[simp] theorem State.rd_mainLost (s : State) (f : Fld) : s.mainLost.rd f = s.rd f := rfl

/-- A power failure outside a kiln: trigger 1 where the controller is Ready or Primed, else the way down (R219, R222). -/
theorem State.mainFail_of_not_inKiln {s : State} (hpaged : s.paged = true) (hout : s.inKiln = false) :
    s.mainFail = if s.kilnLive then s.mainLost.restExit.fireTrigger 1 false false else s.mainLost.goDown := by
  have hpages : ¬ s.paged = false := by simp [hpaged]
  have hlost : ¬ s.mainLost.inKiln = true := by rw [show s.mainLost.inKiln = false from hout]; decide
  unfold State.mainFail
  rw [if_neg hpages]
  exact if_neg hlost

theorem exec_mainInFail_of_live {s : State} (hpaged : s.paged = true) (hlive : s.kilnLive = true)
    (hp0 : s.rd R.PWR_STAT_STATE = 0) :
    exec .mainInFail s = .next (finish (s.begin.mainLost.startKiln 1 1 false false)) := by
  have hlost : s.begin.mainLost.kilnLive = true := hlive
  have hstay : s.begin.mainLost.restExit = s.begin.mainLost := State.restExit_of_p0 hp0
  have hmain : s.begin.mainFail = s.begin.mainLost.startKiln 1 1 false false := by
    rw [State.mainFail_of_not_inKiln (s := s.begin) hpaged (State.not_inKiln_of_live hlive),
      if_pos (show s.begin.kilnLive = true from hlive), hstay]
    exact State.fireTrigger_of_live hlost 1 false false
  exact congrArg (fun u => Host.Outcome.next (finish u)) hmain

theorem exec_ewEscalation_of_live {s : State} (hlive : s.kilnLive = true)
    (hp0 : s.rd R.PWR_STAT_STATE = 0) (hon : s.ewHc ≠ 0) (hew : s.flag R.PHS_STAT_EW = true)
    (hstood : s.track.ewSince + s.ewHc ≤ s.hc) :
    exec .ewEscalation s = .next (finish (s.begin.startKiln 2 2 false false)) := by
  have hmain : s.begin.escalate = s.begin.startKiln 2 2 false false := by
    have hdue : s.begin.ewHc ≠ 0 ∧ s.begin.flag R.PHS_STAT_EW ∧ s.begin.track.ewSince + s.begin.ewHc ≤ s.begin.hc ∧
        s.begin.kilnLive := ⟨hon, hew, hstood, hlive⟩
    have hstay : s.begin.restExit = s.begin := State.restExit_of_p0 hp0
    unfold State.escalate
    rw [if_pos hdue, hstay]
    exact State.fireTrigger_of_live (s := s.begin) hlive 2 false false
  exact congrArg (fun u => Host.Outcome.next (finish u)) hmain

/-- What a state shows that has the mark of a kiln and is in K1. -/
theorem Shows.inK1 {trial : Prop} {trig m0 e0 : Nat} {s₀ t : State}
    (h : Shows trial ((R.KLN_STAT_STATE, 9) :: markedVals trig m0 e0) s₀ t) :
    t.rd R.KLN_STAT_STATE = 9 ∧ t.rd R.KLN_STAT_TRIGGER = trig % 2 ^ 3 ∧ t.rd (R.PHS_CDL_TARGET 0) = (m0 + e0) % 2 ^ 48 ∧
      t.rd (R.PHS_CDL_ARMED 0) = b2n (decide (0 < e0)) :=
  ⟨h.rd (R.KLN_STAT_STATE, 9) (by simp), h.rd (R.KLN_STAT_TRIGGER, trig % 2 ^ 3) (by simp [markedVals]),
    h.rd (R.PHS_CDL_TARGET 0, (m0 + e0) % 2 ^ 48) (by simp [markedVals]),
    h.rd (R.PHS_CDL_ARMED 0, b2n (decide (0 < e0))) (by simp [markedVals])⟩

/-- Settles O34: what a kiln shows in K1 (`State.startKiln_shows`) stays to the end of the command, as the mark of K0 lets no reaction
start another kiln. -/
theorem aKilnStarts : Obligations.AKilnStarts := by
  unfold Obligations.AKilnStarts
  refine ⟨?_, ?_, ?_, ?_⟩
  case refine_1 =>
    intro s hc hpaged hlive hp0 _ _ _ _ _ hpos hE hct _
    have h := State.startKiln_finish_shows 1 false false (by decide) (hc.marked_shows (u := s.begin.mainLost) rfl rfl rfl 1 1 false)
    obtain ⟨hstate, htrig, htarget, harmed⟩ := h.inK1
    refine ⟨_, exec_mainInFail_of_live hpaged hlive hp0, hstate, htrig, h.since, h.m0, htarget.trans ?_, ?_⟩
    · exact Nat.mod_eq_of_lt (by simp only [State.rd_mainLost, State.rd_begin]; omega)
    · unfold State.flag
      rw [harmed]
      simp [b2n, hpos]
  case refine_2 =>
    intro s hc hlive hp0 hon hew hstood _ _ _ _ _ _ _ _ _
    have h := State.startKiln_finish_shows 2 false false (by decide) (hc.marked_shows (u := s.begin) rfl rfl rfl 2 2 false)
    obtain ⟨hstate, htrig, -⟩ := h.inK1
    exact ⟨_, exec_ewEscalation_of_live hlive hp0 hon hew hstood, hstate, htrig, h.since, h.m0⟩
  case refine_3 =>
    intro s hs hpaged hlive hp0
    have h := State.startKiln_finish_shows 1 false false (by decide) (hs.marked_shows (u := s.begin.mainLost) rfl rfl 1 1 false)
    obtain ⟨hstate, htrig, -⟩ := h.inK1
    exact ⟨_, exec_mainInFail_of_live hpaged hlive hp0, h.since, by simp [State.inKiln, hstate], htrig, h.m0, h.mainGood⟩
  case refine_4 =>
    intro s hs hlive hp0 hon hew hstood
    have h := State.startKiln_finish_shows 2 false false (by decide) (hs.marked_shows (u := s.begin) rfl rfl 2 2 false)
    obtain ⟨hstate, htrig, -⟩ := h.inK1
    exact ⟨_, exec_ewEscalation_of_live hlive hp0 hon hew hstood, h.since, by simp [State.inKiln, hstate], htrig, h.m0⟩

end Sys2Proof.Machine
end

section
/-!
PROOFS. Proofs/PowerWarnings.lean: what the supply and the arming of the kiln controller do outside a kiln (R218 to R221, R248). But for
the way down, such a command writes the page `KLN` and the controller's part of the state alone.
-/

namespace Sys2Proof.Machine

-- One theorem after another, as the text compiles near its memory limit.
set_option Elab.async false

/-! ### Commands that write the page `KLN` alone -/

/-- `u` is `s` at the start of a command, but for what is written to the fields of `fs`, the kiln's part and the supply's. -/
structure OnKilnPage (fs : List Fld) (s u : State) : Prop where
  wf : u.regs.wf = true
  rd : ∀ f, (∀ g ∈ fs, f.key ≠ g.key) → u.rd f = s.rd f
  parts : u = { s.begin with regs := u.regs, kiln := u.kiln, power := u.power }

section

variable {fs : List Fld} {s u : State}

theorem State.Calm.onKilnPage (hc : s.Calm) : OnKilnPage fs s s.begin := ⟨hc.inv.regs, fun _ _ => rfl, rfl⟩

theorem OnKilnPage.withPower (h : OnKilnPage fs s u) (p : Power) : OnKilnPage fs s { u with power := p } :=
  ⟨h.wf, h.rd, congrArg (fun v : State => { v with power := p }) h.parts⟩

theorem OnKilnPage.withKiln (h : OnKilnPage fs s u) (k : Kiln) : OnKilnPage fs s { u with kiln := k } :=
  ⟨h.wf, h.rd, congrArg (fun v : State => { v with kiln := k }) h.parts⟩

theorem OnKilnPage.wr (h : OnKilnPage fs s u) {g : Fld} (v : Nat) (hg : g ∈ fs := by simp) : OnKilnPage fs s (u.wr g v) where
  wf := State.wf_wr g v h.wf
  rd f hf := (State.rd_wr_ne u v (hf g hg)).trans (h.rd f hf)
  parts := by
    unfold State.wr
    rw [h.parts]

theorem OnKilnPage.inc (h : OnKilnPage fs s u) {g : Fld} (hg : g ∈ fs := by simp) : OnKilnPage fs s (u.inc g) :=
  pres_ite (h.wr _ hg) h

variable (h : OnKilnPage fs s u) (hc : s.Calm) (hfs : ∀ g ∈ fs, keyPage g.key = 0x42)

include h hc hfs

theorem OnKilnPage.settled : Settled u (finish u) := by
  have hkeeps {f : Fld} (hf : keyPage f.key ≠ 0x42) : u.rd f = s.rd f :=
    h.rd f (fun g hg hkey => hf ((congrArg keyPage hkey).trans (hfs g hg)))
  have hsafe : u.safe = s.begin.safe := by rw [h.parts]
  have htrigger : u.update.trigger = false := by rw [h.parts]; rfl
  exact hc.settles h.wf htrigger hsafe (hkeeps (by decide)) (hkeeps (by decide)) (hkeeps (by decide)) (hkeeps (by decide))

theorem OnKilnPage.sameRegs : SameRegsBut s (finish u) fs := by
  intro f hpage hoff hlsb hidx hother
  rw [(h.settled hc hfs).rd (by rwa [Fld.keyPage_key hoff hlsb hidx]), h.rd f hother]

theorem OnKilnPage.sameParts {k : Kiln} {p : Power} (hk : u.kiln = k) (hp : u.power = p) :
    SameParts { s with kiln := k, power := p } (finish u) := by
  have hend := h.settled hc hfs
  refine hend.parts.trans ?_
  rw [hend.out_eq, hend.safe_eq, h.parts, hk, hp]
  rfl

end

/-! ### The controller's operations -/

theorem State.inc_kiln (s : State) (f : Fld) : (s.inc f).kiln = s.kiln :=
  pres_ite (P := fun t : State => t.kiln = s.kiln) rfl rfl

theorem State.inc_power (s : State) (f : Fld) : (s.inc f).power = s.power :=
  pres_ite (P := fun t : State => t.power = s.power) rfl rfl

section

variable {s : State}

/-- The controller Primed: the groups of the next kiln are opened. -/
def State.primed (s : State) : State :=
  { s with kiln := { s.kiln with goodFrom := s.hc, opened := s.targets, preload := true } }.wr R.KLN_STAT_STATE 2

theorem State.prime_of_ready (hready : s.rd R.KLN_STAT_STATE = 1) : s.prime = s.primed :=
  if_pos hready

theorem State.primedClear_of_clear (hprimed : s.rd R.KLN_STAT_STATE = 2) (hew : s.flag R.PHS_STAT_EW = false)
    (hgood : s.power.belowWarn = false) (hlong : s.kiln.goodFrom + 4 ≤ s.hc) : s.primedClear = s.unprime :=
  if_pos ⟨hprimed, hew, hgood, hlong⟩

theorem State.rd_unprime_ne {f : Fld} (hf : f.key ≠ R.KLN_STAT_STATE.key) : s.unprime.rd f = s.rd f :=
  State.rd_wr_ne _ 1 hf

/-- Where no warning stands and no calibration was put off, an armed controller is Ready, and nothing more. -/
theorem State.toReady_of_no_warning (hsteep : s.steepReady = true) (harmed : s.flag R.KLN_CTRL_ARM = true)
    (hcal : s.cal.deferred = false) (hew : s.flag R.PHS_STAT_EW = false) (hgood : s.power.belowWarn = false) :
    s.toReady = s.unprime := by
  unfold State.toReady
  rw [if_pos ⟨hsteep, harmed⟩]
  simp only [hcal, hew, hgood, State.cond_false, Bool.or_self]

/-- `MAIN_IN` is below `WARN_MV`. -/
def State.warned (s : State) : State := { s with power := { s.power with belowWarn := true } }

/-- A warning in P0 primes a Ready controller, where no debounce runs. -/
theorem State.mainWarn_of_ready (hp0 : s.rd R.PWR_STAT_STATE = 0) (hready : s.rd R.KLN_STAT_STATE = 1)
    (hdebounce : s.flag R.KLN_STAT_DEBOUNCE = false) : s.mainWarn = s.warned.primed := by
  have hprime : s.warned.prime = s.warned.primed := State.prime_of_ready (s := s.warned) hready
  have hstay : s.warned.cond (s.warned.rd R.PWR_STAT_STATE == 1) State.restExit = s.warned := by
    rw [show s.warned.rd R.PWR_STAT_STATE = 0 from hp0]
    rfl
  have hnone : s.warned.primed.flag R.KLN_STAT_DEBOUNCE = false := by
    unfold State.flag State.primed
    rw [State.rd_wr_ne _ _ (by decide)]
    exact hdebounce
  have hend {k : State → State} : s.warned.prime.cond (s.warned.prime.flag R.KLN_STAT_DEBOUNCE) k = s.warned.primed := by
    rw [hprime, hnone, State.cond_false]
  unfold State.mainWarn
  exact (congrArg (fun t : State => t.prime.cond (t.prime.flag R.KLN_STAT_DEBOUNCE) _) hstay).trans hend

/-- `MAIN_IN` is back. -/
def State.mainBack (s : State) : State := { s with power := { s.power with mainGood := true, belowWarn := false } }

/-- `MAIN_IN` is good from now on. -/
def State.goodNow (s : State) : State := { s with kiln := { s.kiln with goodFrom := s.hc } }

theorem State.powerReturn_of_not_primed (hout : s.inKiln = false) (hprimed : s.rd R.KLN_STAT_STATE ≠ 2) : s.powerReturn = s.mainBack := by
  have hnone : (s.rd R.KLN_STAT_STATE == 2 || (s.inKiln && decide (s.kilnPhase ≤ 2) && s.rd R.KLN_STAT_TRIGGER == 1 &&
      !s.kiln.k2Force)) = false := by
    simp [hout, hprimed]
  exact congrArg (fun b => s.mainBack.cond b State.startDebounce) hnone

/-- From Primed the 4 hc back begin; the debounce is of a kiln alone. -/
theorem State.powerReturn_of_primed (hprimed : s.rd R.KLN_STAT_STATE = 2) : s.powerReturn = s.mainBack.goodNow := by
  have hback : (s.rd R.KLN_STAT_STATE == 2 || (s.inKiln && decide (s.kilnPhase ≤ 2) && s.rd R.KLN_STAT_TRIGGER == 1 &&
      !s.kiln.k2Force)) = true := by
    simp [hprimed]
  have hout : (s.inKiln && decide (s.kilnPhase ≤ 2)) = false := by
    simp [State.inKiln, hprimed]
  calc s.powerReturn
      = s.mainBack.startDebounce := congrArg (fun b => s.mainBack.cond b State.startDebounce) hback
    _ = s.mainBack.goodNow := by
      unfold State.startDebounce
      exact congrArg (fun b => s.mainBack.goodNow.cond b (fun s =>
        ({ s with kiln := { s.kiln with debounced := true } }).wr R.KLN_STAT_DEBOUNCE 1)) hout

/-! ### The readiness self-test (R221) -/

/-- What the self-test shows of the checks failed. -/
def State.selfTested (s : State) (bad : Nat) : State :=
  ((s.wr R.KLN_SELFTEST_FAIL bad).wr R.KLN_STAT_TEST_OK (b2n (bad == 0))).wr R.KLN_CTRL_SELFTEST 0

theorem State.selfTested_wf (hw : s.regs.wf = true) (bad : Nat) : (s.selfTested bad).regs.wf = true :=
  State.wf_wr _ _ (State.wf_wr _ _ (State.wf_wr _ _ hw))

theorem State.selfTested_regs (hw : s.regs.wf = true) (bad : Nat) :
    (s.selfTested bad).rd R.KLN_STAT_TEST_OK = b2n (bad == 0) % 2 ∧ (s.selfTested bad).rd R.KLN_SELFTEST_FAIL = bad % 2 ^ 8 := by
  have hfail := State.wf_wr R.KLN_SELFTEST_FAIL bad hw
  unfold State.selfTested
  constructor
  · rw [State.rd_wr_ne _ _ (by decide), State.rd_wr_self _ _ hfail]
    rfl
  · rw [State.rd_wr_ne _ _ (by decide), State.rd_wr_ne _ _ (by decide), State.rd_wr_self _ _ hw]
    rfl

theorem State.selfTest_of_ready {a b c : Bool} (hready : s.readiness a b c = 0) (hnone : s.condAny 36 = false) :
    s.selfTest a b c = (s.selfTested 0).inc R.KLN_SELFTEST_PASSED := by
  have hnone' : ((s.selfTested 0).inc R.KLN_SELFTEST_PASSED).condAny 36 = false := by
    unfold State.inc
    split <;> exact hnone
  unfold State.selfTest
  rw [hready]
  exact congrArg (fun d => ((s.selfTested 0).inc R.KLN_SELFTEST_PASSED).cond d (fun s => s.setCond 36 0 false)) hnone'

theorem State.selfTest_of_unready {a b c : Bool} (hbad : s.readiness a b c ≠ 0) :
    s.selfTest a b c = (s.selfTested (s.readiness a b c)).setCond 36 0 true := by
  have hfails : (s.readiness a b c == 0) = false := by simp [hbad]
  unfold State.selfTest
  simp [hfails, bne, State.selfTested]

/-! ### The way down (R219) -/

theorem State.seqRequest_of_idle (hidle : s.seq.prog = none) (n : Nat) :
    s.seqRequest n = { s with seq := { s.seq with due := s.seq.due.filter (fun k => k != n) ++ [n] } } := by
  unfold State.seqRequest
  rw [hidle]

/-- The device goes down. -/
def State.descending (s : State) : State := { s with power := { s.power with life := .goingDown } }

theorem State.goDown_of_running (hruns : s.power.life = .running) : s.goDown = s.descending.seqRequest 1 := by
  unfold State.goDown
  rw [hruns]
  rfl

/-- `MAIN_IN` lost outside a kiln while the controller is neither Ready nor Primed: `POWER_DOWN` is asked for. -/
theorem exec_mainInFail_of_running (hruns : s.power.life = .running) (hout : s.inKiln = false) (hlive : s.kilnLive = false) :
    exec .mainInFail s = .next (finish (s.begin.mainLost.descending.seqRequest 1)) := by
  have hpaged : s.begin.paged = true := by
    unfold State.paged
    rw [show s.begin.power.life = .running from hruns]
  have hmain : s.begin.mainFail = s.begin.mainLost.descending.seqRequest 1 := by
    rw [State.mainFail_of_not_inKiln hpaged hout, if_neg (by rw [show s.begin.kilnLive = false from hlive]; decide)]
    exact State.goDown_of_running hruns
  exact congrArg (fun u => Host.Outcome.next (finish u)) hmain

/-- No kiln starts on the way down, whatever is active: what the command did to the supply and to the way down stays. -/
theorem State.Sound.descending_finish_shows (hs : s.Sound) (hlive : s.kilnLive = false) :
    Shows True [(R.KLN_STAT_STATE, s.rd R.KLN_STAT_STATE)] s.begin.mainLost.descending
      (finish (s.begin.mainLost.descending.seqRequest 1)) := by
  have hstart : Shows True [(R.KLN_STAT_STATE, s.rd R.KLN_STAT_STATE)] s.begin.mainLost.descending s.begin.mainLost.descending :=
    shows_refl (u := s.begin.mainLost.descending) R.KLN_STAT_STATE hs.inv.regs (fun _ => hs.kept)
      (fun h => absurd trivial h) (fun h => absurd trivial h)
  have C := shows_endures (trial := True) (vals := [(R.KLN_STAT_STATE, s.rd R.KLN_STAT_STATE)])
    (s₀ := s.begin.mainLost.descending) (by simp [heldFields])
  refine C.finish (fun {t} ht => .inr ?_) (C.seqRequest hstart)
  unfold State.kilnLive
  rw [ht.rd (R.KLN_STAT_STATE, s.rd R.KLN_STAT_STATE) (by simp)]
  exact hlive

/-! ### The write of `ARM` (R220) -/

/-- An accepted write of `ARM` runs at once, where the processor that owns the page runs. -/
theorem exec_kilnArmWrite_of_writable {who : Requester} (on : Bool) (hwritable : s.Writable who 0x42)
    (howner : s.ownerRuns 0x42 = true) : exec (.kilnArmWrite who on) s = .next (finish (s.begin.armWrite on)) := by
  refine congrArg (fun u => Host.Outcome.next (finish u)) ?_
  unfold State.command
  rw [State.under_of_writable hwritable]
  exact if_pos howner

theorem State.flag_armed (hw : s.regs.wf = true) : (s.wr R.KLN_CTRL_ARM 1).flag R.KLN_CTRL_ARM = true := by
  unfold State.flag
  rw [State.rd_wr_self _ _ hw]
  decide

/-- Arming a Disarmed controller after Steep Ready makes it Ready. -/
theorem State.armWrite_of_disarmed (hw : s.regs.wf = true) (hdisarmed : s.rd R.KLN_STAT_STATE = 0) (hnone : s.condAny 44 = false)
    (hsteep : s.steepReady = true) (hcal : s.cal.deferred = false) (hew : s.flag R.PHS_STAT_EW = false)
    (hgood : s.power.belowWarn = false) : s.armWrite true = (s.wr R.KLN_CTRL_ARM 1).unprime := by
  have hother {f : Fld} (hf : f.key ≠ R.KLN_CTRL_ARM.key) : (s.wr R.KLN_CTRL_ARM 1).rd f = s.rd f := State.rd_wr_ne s 1 hf
  have hready : (s.wr R.KLN_CTRL_ARM 1).toReady = (s.wr R.KLN_CTRL_ARM 1).unprime := by
    refine State.toReady_of_no_warning ?_ (State.flag_armed hw) hcal ?_ hgood
    · unfold State.steepReady
      rw [hother (by decide)]
      exact hsteep
    · unfold State.flag
      rw [hother (by decide)]
      exact hew
  unfold State.armWrite
  simp only [if_true, hnone, State.cond_false, hother (f := R.KLN_STAT_STATE) (by decide), hdisarmed, beq_self_eq_true,
    State.cond_true, hready]

end

/-- A continuing state that stands is latched at the end of the command: it is latched already, or is detected. -/
theorem finish_setCond_latches {s : State} {src inst : Nat} (hw : s.regs.wf = true) (hk : s.update.kept = [])
    (hg : s.update.trigger = false) (hb : srcBit src < 16) (hn : namedSources.contains src = true)
    (hp : pagePresent s.variant (srcPage src inst) = true) :
    (finish (s.setCond src inst true)).bit (R.FLT_STAT (srcPage src inst)) (srcBit src) = true := by
  unfold State.setCond
  dsimp only
  rw [if_pos rfl]
  split
  · next hlatched => exact finish_keeps_latch hb hw hk (Bool.and_eq_true_iff.mp hlatched).2
  · exact finish_latches (src := src) (inst := inst) (by simp) hg hb hn hp hw hk

/-- Settles O33: in a calm state each command but the way down writes the page `KLN` alone (`OnKilnPage`); where sources are active, the
way down and a failed self-test outlast what they react with. -/
theorem powerWarningsMoveTheController : Obligations.PowerWarningsMoveTheController := by
  unfold Obligations.PowerWarningsMoveTheController
  refine ⟨?_, ?_, ?_, ?_, ?_, ?_, ?_, ?_, ?_, ?_⟩
  case refine_1 =>
    intro s hc hruns hdisarmed hidle
    have hout : s.inKiln = false := by simp [State.inKiln, hdisarmed]
    have hlive : s.kilnLive = false := by simp [State.kilnLive, hdisarmed]
    have hasked := State.seqRequest_of_idle (s := s.begin.mainLost.descending) hidle 1
    have hend := hc.settles (u := s.begin.mainLost.descending.seqRequest 1) (by rw [hasked]; exact hc.inv.regs) (by rw [hasked]; rfl)
      (by rw [hasked]; rfl) (by rw [hasked]; rfl) (by rw [hasked]; rfl) (by rw [hasked]; rfl) (by rw [hasked]; rfl)
    refine ⟨_, exec_mainInFail_of_running hruns hout hlive, ?_, ?_, ?_⟩
    · rw [hend.power_eq, hasked]
      rfl
    · rw [hend.power_eq, hasked]
      rfl
    · rw [hend.seq_eq, hasked]
      rfl
  case refine_2 =>
    intro s hs hruns hout hlive
    have hexec := exec_mainInFail_of_running hruns hout hlive
    have hend := hs.descending_finish_shows hlive
    have hdram : Unreacted s.begin.mainLost.descending (finish (s.begin.mainLost.descending.seqRequest 1)) :=
      ((unreacted_reactive _).seqRequest 1 (Unreacted.refl _)).finish
    refine ⟨_, hexec, hend.life, hend.mainGood, ?_⟩
    rw [hdram.dram]
    rfl
  case refine_3 =>
    intro s hc hp0 hready hdebounce
    have hexec : exec .mainInWarn s = .next (finish s.begin.warned.primed) :=
      congrArg (fun u => Host.Outcome.next (finish u)) (State.mainWarn_of_ready (s := s.begin) hp0 hready hdebounce)
    have h : OnKilnPage [R.KLN_STAT_STATE] s s.begin.warned.primed := ((hc.onKilnPage.withPower _).withKiln _).wr _
    have hend := h.settled hc (by decide)
    refine ⟨_, hexec, ?_, ?_, h.sameRegs hc (by decide), h.sameParts hc (by decide) hend.kiln_eq.symm rfl⟩
    · rw [hend.rd (by decide)]
      exact State.rd_wr_self _ _ hc.inv.regs
    · rw [hend.kiln_eq]
      rfl
  case refine_4 =>
    intro s hc hprimed hgood hew hlong
    have hexec : exec .primedClear s = .next (finish s.begin.unprime) :=
      congrArg (fun u => Host.Outcome.next (finish u)) (State.primedClear_of_clear (s := s.begin) hprimed hew hgood hlong)
    have h : OnKilnPage [R.KLN_STAT_STATE] s s.begin.unprime := (hc.onKilnPage.withKiln _).wr _
    have hend := h.settled hc (by decide)
    refine ⟨_, hexec, ?_, h.sameRegs hc (by decide), h.sameParts hc (by decide) hend.kiln_eq.symm rfl⟩
    rw [hend.rd (by decide)]
    exact State.rd_wr_self _ _ hc.inv.regs
  case refine_5 =>
    intro s hc hout hprimed
    have hexec : exec .powerReturn s = .next (finish s.begin.mainBack) :=
      congrArg (fun u => Host.Outcome.next (finish u)) (State.powerReturn_of_not_primed (s := s.begin) hout hprimed)
    have h : OnKilnPage [] s s.begin.mainBack := hc.onKilnPage.withPower _
    have hend := h.settled hc (by decide)
    refine ⟨_, hexec, ?_, hend.rd (by decide), h.sameRegs hc (by decide), h.sameParts hc (by decide) rfl hend.power_eq.symm⟩
    rw [hend.power_eq]
    rfl
  case refine_6 =>
    intro s hc hprimed
    have hexec : exec .powerReturn s = .next (finish s.begin.mainBack.goodNow) :=
      congrArg (fun u => Host.Outcome.next (finish u)) (State.powerReturn_of_primed (s := s.begin) hprimed)
    have h : OnKilnPage [] s s.begin.mainBack.goodNow := (hc.onKilnPage.withPower _).withKiln _
    have hend := h.settled hc (by decide)
    refine ⟨_, hexec, ?_, ?_, h.sameRegs hc (by decide), h.sameParts hc (by decide) hend.kiln_eq.symm hend.power_eq.symm⟩
    · rw [hend.power_eq]
      rfl
    · rw [hend.kiln_eq]
      rfl
  case refine_7 =>
    intro s a b c hc hready hnone
    have hexec : exec (.kilnSelftest a b c) s = .next (finish ((s.begin.selfTested 0).inc R.KLN_SELFTEST_PASSED)) :=
      congrArg (fun u => Host.Outcome.next (finish u)) (State.selfTest_of_ready (s := s.begin) hready hnone)
    have h : OnKilnPage [R.KLN_STAT_TEST_OK, R.KLN_SELFTEST_PASSED, R.KLN_CTRL_SELFTEST, R.KLN_SELFTEST_FAIL] s
        ((s.begin.selfTested 0).inc R.KLN_SELFTEST_PASSED) :=
      (((hc.onKilnPage.wr _).wr _).wr _).inc
    have hend := h.settled hc (by decide)
    obtain ⟨hok, hfail⟩ := State.selfTested_regs (s := s.begin) hc.inv.regs 0
    refine ⟨_, hexec, ?_, ?_, ?_, h.sameRegs hc (by decide), h.sameParts hc (by decide) (State.inc_kiln _ _) (State.inc_power _ _)⟩
    · unfold State.flag
      rw [hend.rd (by decide), State.rd_inc_ne _ (by decide), hok]
      decide
    · rw [hend.rd (by decide), State.rd_inc_ne _ (by decide), hfail]
      rfl
    · rw [hend.rd (by decide), h.rd _ (by decide)]
  case refine_8 =>
    intro s a b c hs hbad
    have hfailed := State.selfTest_of_unready (s := s.begin) hbad
    have hsteady : Unreacted s.begin (finish (s.begin.selfTest a b c)) :=
      ((unreacted_reactive s.begin).selfTest a b c (Unreacted.refl _)).finish
    have hpage : pagePresent s.variant 0x42 = true := by cases s.variant <;> decide
    refine ⟨_, rfl, ?_, hsteady.steadyRegs hs.kept⟩
    rw [hfailed]
    exact finish_setCond_latches (src := 36) (inst := 0) (State.selfTested_wf (s := s.begin) hs.inv.regs _) hs.kept rfl (by decide)
      (by decide) hpage
  case refine_9 =>
    intro s who hc hwritable hdisarmed hnone howner hsteep hew hgood hcal
    have hexec := exec_kilnArmWrite_of_writable true hwritable howner
    rw [State.armWrite_of_disarmed (s := s.begin) hc.inv.regs hdisarmed hnone hsteep hcal hew hgood] at hexec
    have h : OnKilnPage [R.KLN_CTRL_ARM, R.KLN_STAT_STATE] s (s.begin.wr R.KLN_CTRL_ARM 1).unprime :=
      ((hc.onKilnPage.wr _).withKiln _).wr _
    have hend := h.settled hc (by decide)
    refine ⟨_, hexec, ?_, ?_, h.sameRegs hc (by decide), h.sameParts hc (by decide) hend.kiln_eq.symm rfl⟩
    · rw [State.flag, hend.rd (by decide), State.rd_unprime_ne (by decide)]
      exact State.flag_armed (s := s.begin) hc.inv.regs
    · rw [hend.rd (by decide)]
      exact State.rd_wr_self _ _ (State.wf_wr _ _ hc.inv.regs)
  case refine_10 =>
    intro s who hc hwritable howner hclosed
    have hexec := exec_kilnArmWrite_of_writable false hwritable howner
    have hreject : s.begin.armWrite false = s.begin.reject 0x42 := if_pos hclosed
    rw [hreject] at hexec
    have h : OnKilnPage [R.CFG_REJECT 0x42] s (s.begin.reject 0x42) := hc.onKilnPage.wr _
    have hend := h.settled hc (by decide)
    refine ⟨_, hexec, ?_, h.sameRegs hc (by decide), h.sameParts hc (by decide) rfl rfl⟩
    unfold State.flag
    rw [hend.rd (by decide), show (s.begin.reject 0x42).rd (R.CFG_REJECT 0x42) = 1 from State.rd_wr_self _ _ hc.inv.regs]
    decide

end Sys2Proof.Machine
end

section
/-!
PROOFS. Proofs/FillBehindFill.lean: a fill that frees an entry of the partial-region table lets a fill that waits for one complete in
the same command (R265), so a second granule comes back with it.
-/

namespace Sys2Proof.Machine

-- One theorem after another: proofs elaborated side by side each hold a stack, and the whole text compiles near its memory limit.
set_option Elab.async false

/-! ### A fill that waits for a partial-region entry -/

/-- The first granule of region 1. -/
def firstOfRegion1 : Nat := granulesPerRegion

/-- Its copy. -/
def copyInRegion1 : Codeword :=
  { index := firstOfRegion1, typ := 0, poison := 0, seq := 3, batch := 0, keyEpoch := 0, data := [(0, 7)] }

/-- A device in the bulk steep, DRAM all zero. Region 0 is partial: only its granule 0 is unfilled, which has no copy and is demand
filled. The fill of the first granule of region 1, from flash address 4, has read its codeword and waits for a table entry. A fill
comes to wait only while the table holds 32,768 regions; the same follows there, but the clause does not ask for it, and a table of one
region keeps the state small. -/
def waitingFillState : State :=
  ({ State.reset with
      power := { life := .running },
      steep := { unfilled := [(0, 1), (firstOfRegion1, 2 * granulesPerRegion)], partials := [0],
                 fills := [{ granule := 0, demand := true, held := [] }, { granule := firstOfRegion1, demand := true, held := [] }],
                 slotWaits := [{ granule := firstOfRegion1, mapStep := 0, step := 0, us := 0, busy := 0 }] },
      cellar := { flash := [(4, copyInRegion1)], groups := [openImageGroup], loaded := [(0, 2)],
                  map := [(firstOfRegion1, mkEntry 1 false 4 3)] } } : State).wr R.STP_STAT_PHASE 3

theorem waitingFillState_sound : waitingFillState.Sound where
  inv := by constructor <;> decide
  kept := rfl

/-- Granule 0 ends region 0, whose entry the waiting fill takes: the copy's one byte that is not zero is written to DRAM. -/
theorem demandFillDone_completes_waiting_fill :
    (Outcome.state (exec (.demandFillDone 0 0 0 0 0) waitingFillState)).dram.mem = [(granuleBytes * firstOfRegion1, 7)] := by
  decide +kernel

/-- Written as its lines say, a granule without a copy leaves DRAM all zero. -/
theorem mem_of_zero_fill :
    waitingFillState.dram.mem.paste (4096 * 0) 4096
      (Memory.mergeLines [] (waitingFillState.granuleData 0) (waitingFillState.mask 0)) = [] := by
  decide +kernel

/-- Refutes O26: its third clause says that a demand fill of a granule without a copy changes no DRAM but that granule's, but where it
frees an entry of the partial-region table, a fill that waits for one completes with it (R265) and writes its own granule. -/
theorem not_fillsBringGranulesBack : ¬ Obligations.FillsBringGranulesBack := by
  unfold Obligations.FillsBringGranulesBack
  rintro ⟨-, -, hzero, -⟩
  obtain ⟨t, hexec, hmem, -⟩ := hzero waitingFillState 0 0 0 0 0 waitingFillState_sound (by decide) (by decide) (by decide)
    (by decide) (by decide) (by decide) (by decide) (by decide)
  have hboth : t.dram.mem = [(granuleBytes * firstOfRegion1, 7)] := by
    simpa only [hexec, Outcome.state] using demandFillDone_completes_waiting_fill
  rw [hmem, mem_of_zero_fill] at hboth
  exact absurd hboth (by decide)

end Sys2Proof.Machine
end

section
/-!
PROOFS. Proofs/FullCompletionQueue.lean: a command ends while its CQ has no free slot, so its completion is held and the command stays
with its queue (R295).
-/

namespace Sys2Proof.Machine

-- One theorem after another, as the text compiles near its memory limit.
set_option Elab.async false

/-! ### A completion without a slot -/

/-- A `NOP` that has ended with status 0 and waits for its completion. -/
def endedNop : RunCmd :=
  { cid := 7, sqIdx := 0, sqAfter := 1, status := some 0, started := true,
    elems := [{ opcode := 0, irq := false, order := false, chain := false, cid := 7, param := 0, addr := 0, addr2 := 0, count := 1,
                offset := 0, reservedZero := true }] }

/-- The queue of port A that ran it. Of the two slots of its CQ (R288), one holds a completion that the host has not taken and the
other stays empty. -/
def fullCqQueue : Queue :=
  { q := 0, en := true, owner := 1, running := true, sqHead := 1, sqTail := 1, cqTail := 1, cmds := [endedNop] }

/-- A running device with this queue. -/
def fullCqState : State :=
  ({ State.reset with power := { life := .running }, halted := [], queues := { list := [fullCqQueue] } } : State).wr R.STP_STAT_PHASE 4

theorem fullCqState_sound : fullCqState.Sound where
  inv := by constructor <;> decide
  kept := rfl

/-- The completion is held, with the queue stalled, and the command is not taken from the queue. -/
theorem commandComplete_holds_without_room :
    (Outcome.state (exec (.commandComplete 0 7 0) fullCqState)).queue 0 =
      { fullCqQueue with held := [endedNop.completion 0], cqFull := true } := by
  decide +kernel

/-- Refutes O37: its tenth clause says that the command leaves its queue as it completes, without asking for room in the CQ, but
where there is none the completion is held (R295) and the command stays until it is posted. -/
theorem not_persistQueuesTakeCommands : ¬ Obligations.PersistQueuesTakeCommands := by
  unfold Obligations.PersistQueuesTakeCommands
  rintro ⟨-, -, -, -, -, -, -, -, -, hcomplete, -⟩
  obtain ⟨t, hexec, hgone, -⟩ := hcomplete fullCqState 0 7 0 0 endedNop fullCqState_sound (by decide) rfl (by decide)
    (by decide)
  have hheld : t.queue 0 = { fullCqQueue with held := [endedNop.completion 0], cqFull := true } := by
    simpa only [hexec, Outcome.state] using commandComplete_holds_without_room
  rw [hheld] at hgone
  exact absurd hgone (by decide)

end Sys2Proof.Machine
end

section
/-!
PROOFS. Proofs/FullFillTable.lean: a destination of `ZERO` is held while the table of demand fills is full, so the fill that it asks for
waits for an entry (R266, R273).
-/

namespace Sys2Proof.Machine

-- One theorem after another, as the text compiles near its memory limit.
set_option Elab.async false

/-! ### A destination behind 4,096 fills -/

/-- The `ZERO` of granule 0. -/
def zeroOfGranule0 : Desc :=
  { opcode := 5, irq := false, order := false, chain := false, cid := 7, param := 0, addr := 0, addr2 := 0, count := 1, offset := 0,
    reservedZero := true }

/-- Its command, under way. -/
def runningZero : RunCmd := { cid := 7, sqIdx := 0, sqAfter := 1, elems := [zeroOfGranule0], started := true }

/-- The queue of port A that runs it. -/
def zeroingQueue : Queue := { q := 0, en := true, owner := 1, running := true, sqHead := 1, sqTail := 1, cmds := [runningZero] }

/-- Demand fills of the granules 1 to 4,096, which take every entry of the table (R266). -/
def everyFill : List Fill := (List.range 4096).map (fun i => { granule := i + 1, demand := true, held := [] })

/-- A device in the bulk steep whose fill table is full, with granules 0 to 4,096 unfilled. -/
def fullFillTableState : State :=
  ({ State.reset with power := { life := .running }, halted := [], queues := { list := [zeroingQueue] },
                      steep := { unfilled := [(0, 4097)], fills := everyFill } } : State).wr R.STP_STAT_PHASE 3

theorem fullFillTableState_sound : fullFillTableState.Sound where
  inv := by constructor <;> decide
  kept := rfl

/-- The destination is held for want of a line-mask entry (R273), and its fill waits for an entry of the fill table. -/
theorem zero_waits_for_fill_entry :
    (Outcome.state (exec (.zero 0 7 1 [0]) fullFillTableState)).steep.waitFills = [{ granule := 0, demand := true, held := [] }] ∧
      (Outcome.state (exec (.zero 0 7 1 [0]) fullFillTableState)).steep.fills.any (fun f => f.granule == 0) = false := by
  decide +kernel

/-- Refutes O38: its ninth clause says that the fill of a held destination is among those in flight, but where 4,096 demand fills are
in flight it waits for an entry of their table (R266). -/
theorem not_persistCommandsDoTheirWork : ¬ Obligations.PersistCommandsDoTheirWork := by
  unfold Obligations.PersistCommandsDoTheirWork
  rintro ⟨-, -, -, -, -, -, -, -, hheld, -⟩
  obtain ⟨t, hexec, -, -, hfilling⟩ := hheld fullFillTableState 0 7 1 runningZero zeroOfGranule0 [0] fullFillTableState_sound
    (by decide) (by decide) (by decide) (by decide)
  have hnone : t.steep.fills.any (fun f => f.granule == 0) = false := by
    simpa only [hexec, Outcome.state] using zero_waits_for_fill_entry.2
  exact Bool.eq_false_iff.mp hnone hfilling

end Sys2Proof.Machine
end

section
/-!
PROOFS. Proofs/RackRateSpent.lean: a region whose turn has come is not sent while its target's rate of the last 100 ms is used up (R370).
-/

namespace Sys2Proof.Machine

-- One theorem after another, as the text compiles near its memory limit.
set_option Elab.async false

/-! ### A target whose rate is spent -/

/-- The LSA of the device with EUI 9, which owns number 5: target 0. -/
def targetLsa : Lsa :=
  { eui := 9, fnn := 5, tentative := false, dormant := false, power := 0, seq := 1, group := 0, nbrs := [] }

/-- A device in P0 after its steep, its racking target 0 Active with a route by the first Daluf port, that owes it region 3. In this
half-cycle four sends with data have gone to the target, and at `MAX_MBPS` of 100 MB/s a fifth within 100 ms is more than it may
take (R370). -/
def spentRateState : State :=
  ((((({ State.reset with power := { life := .running }, halted := [],
                          racking := { debt0 := [(3, 4)], sentWin := List.replicate 4 (0, 1), nextHandle := 4 },
                          fabric := { db := [(targetLsa, 0)], routes := [{ fnn := 5, ports := 1, hops := 1, cost := 10 }] } } : State).wr
    R.STP_STAT_PHASE 4).wr (R.ENABLE 0x95) 1).wr R.RCK_TGT0 9).wr (R.RCK_TGT_STAT_STATE 0) 2).wr R.RCK_TGT_RATE_MAX_MBPS0 100

theorem spentRateState_sound : spentRateState.Sound where
  inv := by constructor <;> decide
  kept := rfl

/-- No send begins. -/
theorem rackSendStart_waits_for_rate :
    (Outcome.state (exec (.rackSendStart 0 3 []) spentRateState)).sendOf 0 3 = none := by
  decide +kernel

/-- Refutes O42: its fifth clause says that a region whose turn has come is sent, without asking for room in the target's rate, but a
send that would exceed `MAX_MBPS` over 100 ms does not start (R370). -/
theorem not_regionsAreRackedAndHeld : ¬ Obligations.RegionsAreRackedAndHeld := by
  unfold Obligations.RegionsAreRackedAndHeld
  rintro ⟨-, -, -, -, hsend, -⟩
  obtain ⟨t, hexec, hsent, -⟩ := hsend spentRateState 0 3 [] spentRateState_sound (by decide) (by decide) (by decide)
    (by decide) (.inr (by decide))
  have hnone : t.sendOf 0 3 = none := by simpa only [hexec, Outcome.state] using rackSendStart_waits_for_rate
  rw [hnone] at hsent
  exact absurd hsent (by decide)

end Sys2Proof.Machine
end

section
/-!
PROOFS. Proofs/DeviceInvariant.lean: what every state keeps: the invariant of the reset state and of every step.
-/

namespace Sys2Proof.Machine

-- One theorem after another, as the text compiles near its memory limit.
set_option Elab.async false

/-- The invariant survives every change that leaves variant and queue alone and keeps the canonical forms and the capacities. -/
theorem stable_inv : Stable State.Inv where
  same hregs hstaged hlatched hmem htlog hhist hstack hhints hinflight hlogsA hlogsB h :=
    { regs := hregs h.regs, staged := hstaged h.staged, latched := hlatched h.latched, mem := hmem h.mem,
      tlog := htlog h.tlog, hist := hhist h.hist, stack := hstack h.stack, hints := hhints h.hints,
      inflight := hinflight h.inflight, logsA := hlogsA h.logsA, logsB := hlogsB h.logsB }

/-- The invariant does not speak of the queue. -/
theorem State.Inv.behind {s : State} (h : s.Inv) (rest : List Instr) : { s with pending := rest }.Inv :=
  { regs := h.regs, staged := h.staged, latched := h.latched, mem := h.mem, tlog := h.tlog, hist := h.hist,
    stack := h.stack, hints := h.hints, inflight := h.inflight, logsA := h.logsA, logsB := h.logsB }

theorem step_of_pending_nil {s : State} (h : s.pending = []) : step s = .next s := by
  unfold step
  rw [h]

theorem step_of_pending_cons {s : State} {c : Instr} {rest : List Instr} (h : s.pending = c :: rest) :
    step s = exec c { s with pending := rest } := by
  unfold step
  rw [h]

theorem step_keeps_inv {s t : State} (hs : s.Inv) (h : step s = .next t) : t.Inv := by
  cases hq : s.pending with
  | nil =>
    rw [step_of_pending_nil hq] at h
    cases h
    exact hs
  | cons c rest =>
    rw [step_of_pending_cons hq] at h
    exact exec_stable stable_inv (hs.behind rest) h

/-- Settles O3: the invariant is one of the properties that every command keeps, and the queue is no part of it. -/
theorem everyStepKeepsTheInvariant : Obligations.EveryStepKeepsTheInvariant :=
  fun _ _ => step_keeps_inv

/-- Settles O1, by the queue's form. -/
theorem stepRunsTheFrontCommand : Obligations.StepRunsTheFrontCommand :=
  ⟨fun _ _ _ => step_of_pending_cons rfl, fun _ => step_of_pending_nil⟩

/-! ### The reset state -/

theorem State.reset_inv : State.reset.Inv := by
  constructor <;> decide

theorem State.reset_sound : State.reset.Sound where
  inv := State.reset_inv
  kept := rfl

theorem State.reset_calm : State.reset.Calm where
  inv := State.reset_inv
  active := rfl
  pend := rfl
  normal := rfl
  diag := rfl
  margin := rfl
  src := rfl

/-- The register file of the reset state is empty, so that each field reads what its table gives. -/
theorem State.reset_rd (f : Fld) : State.reset.rd f = f.reset :=
  Nat.zero_xor f.reset

/-- Settles O2: no register has been written at reset. -/
theorem resetHoldsTheInvariantAndTheTableValues : Obligations.ResetHoldsTheInvariantAndTheTableValues :=
  ⟨⟨State.reset_inv, State.reset_sound, State.reset_calm⟩, State.reset_rd, rfl, rfl, rfl, rfl, rfl⟩

end Sys2Proof.Machine
end

section
/-!
PROOFS. Proofs/ProtectedCode.lean: a program or an erase of a protected code region (R506).
-/

namespace Sys2Proof.Machine

-- One theorem after another, as the text compiles near its memory limit.
set_option Elab.async false

/-- The registers that a refused flash command writes: `CFL.STAT.ERR`, and `SEQ_OPEN` for a host's sequence. -/
def refusalRegs : List Fld := [R.CFL_STAT_ERR, R.CFL_STAT_SEQ_OPEN]

section

variable {s : State}

/-- In P0 an accepted register write runs at once: no rest state is left (R431). -/
theorem State.under_of_accept {a : Admit} (ha : a = .accept) (h0 : s.rd R.PWR_STAT_STATE = 0) (page : Nat) (f : State → State) :
    s.begin.under a page f = f s.begin := by
  rw [ha]
  exact congrArg f (State.restExit_of_p0 h0)

theorem State.setFlashSeq_frame (s : State) (fw : Bool) (q : FlashSeq) : SteadyRegsBut s (s.setFlashSeq fw q) refusalRegs := by
  cases fw with
  | true => exact .of_regs rfl
  | false => exact SteadyRegsBut.wr (.of_regs rfl) (by decide) _

/-- A sequence is no part of the words and of the operations, and its only register is `SEQ_OPEN`. -/
theorem State.setFlashSeq_keeps (s : State) (fw : Bool) (q : FlashSeq) :
    (s.setFlashSeq fw q).flash.words = s.flash.words ∧ (s.setFlashSeq fw q).flash.op0 = s.flash.op0 ∧
      (s.setFlashSeq fw q).flash.op1 = s.flash.op1 ∧ (s.setFlashSeq fw q).update = s.update ∧
      (s.regs.wf = true → (s.setFlashSeq fw q).regs.wf = true) := by
  cases fw with
  | true => exact ⟨rfl, rfl, rfl, rfl, id⟩
  | false => exact ⟨rfl, rfl, rfl, rfl, State.wf_wr _ _⟩

theorem State.setFlashSeq_protectedBank (s : State) (fw : Bool) (q : FlashSeq) (b : Nat) :
    (s.setFlashSeq fw q).protectedBank b = s.protectedBank b := by
  cases fw with
  | true => rfl
  | false =>
    unfold State.protectedBank State.setFlashSeq
    simp only [Bool.false_eq_true, if_false]
    rw [State.rd_wr_ne _ _ (by decide), State.rd_wr_ne _ _ (by decide)]
    rfl

/-- The keys written, a command to a protected code region ends its sequence with `ERR` 4 before anything else is looked at. -/
theorem State.flashCommand_of_protected {fw : Bool} {op addr word : Nat} (hstep : (s.flashSeq fw).step = 2)
    (hcode : inRecords addr = false) (hprot : s.protectedBank (flashBank addr) = true) :
    s.flashCommand fw op addr word = (s.setFlashSeq fw {}).flashErr 4 := by
  have hcode' : inRecords (addr % (2 * bankBytes)) = false := by
    unfold inRecords at hcode ⊢
    rwa [Nat.mod_mod_of_dvd _ (Nat.dvd_mul_left bankBytes 2)]
  unfold State.flashCommand
  rw [if_neg (by simp [hstep])]
  simp only
  rw [if_pos ⟨hcode', by rw [State.setFlashSeq_protectedBank]; exact hprot⟩]

/-- R506: whatever command completes the sequence, with `ERR` 4 nothing is written and nothing begins. -/
theorem State.protected_refused (hs : s.Sound) (h0 : s.rd R.PWR_STAT_STATE = 0) {fw : Bool} {who : Requester}
    (hadmit : s.flashAdmit fw who = .accept) (hstep : (s.flashSeq fw).step = 2) {addr : Nat} (hcode : inRecords addr = false)
    (hbank : s.rd R.UPD_BOOTREC_BANK = flashBank addr ∨ s.rd R.UPD_STAT_RUN_BANK = flashBank addr) (op word : Nat) :
    let t := finish (s.begin.under (s.flashAdmit fw who) 0xD0 (fun s => s.flashCommand fw op addr word))
    t.rd R.CFL_STAT_ERR = 4 ∧ t.flash.words = s.flash.words ∧ t.flash.op0 = s.flash.op0 ∧ t.flash.op1 = s.flash.op1 ∧
      SteadyRegsBut s t refusalRegs := by
  have hprot : s.begin.protectedBank (flashBank addr) = true := by
    unfold State.protectedBank
    rcases hbank with hbank | hbank <;> simp [hbank]
  obtain ⟨hwords, hop0, hop1, hupdate, hwf⟩ := s.begin.setFlashSeq_keeps fw {}
  have hkept : (s.begin.setFlashSeq fw {}).update.kept = [] := by
    rw [hupdate]
    exact hs.kept
  rw [State.under_of_accept hadmit h0, State.flashCommand_of_protected (s := s.begin) hstep hcode hprot]
  have hend := finish_unreacted ((s.begin.setFlashSeq fw {}).flashErr 4)
  refine ⟨?_, ?_, ?_, ?_, ?_⟩
  · rw [hend.rd_steady hkept rfl (by decide)]
    exact State.rd_wr_self _ _ (hwf hs.inv.regs)
  · rw [hend.flash]
    exact hwords
  · rw [hend.flash]
    exact hop0
  · rw [hend.flash]
    exact hop1
  · exact ((s.begin.setFlashSeq_frame fw {}).wr (by decide) 4).unreacted hkept hend

end

/-- Settles O58: protection is looked at before all else, and no reaction to a fault writes `CFL` or the code flash. -/
theorem protectedCodeIsRefused : Obligations.ProtectedCodeIsRefused :=
  ⟨fun _ _ _ _ word hs h0 hadmit hstep hcode hbank =>
      ⟨_, rfl, State.protected_refused hs h0 hadmit hstep hcode hbank 1 word⟩,
    fun _ _ _ _ hs h0 hadmit hstep hcode hbank =>
      ⟨_, rfl, State.protected_refused hs h0 hadmit hstep hcode hbank 2 0⟩,
    fun _ _ _ _ hs h0 hadmit hstep hcode hbank =>
      ⟨_, rfl, State.protected_refused hs h0 hadmit hstep hcode hbank 3 0⟩⟩

end Sys2Proof.Machine
end

section
/-!
PROOFS. Proofs/HeldCommands.lean: register commands to a block whose processor is stopped (R18, R521): they wait, so that what the
statements say of their effect does not come with them.
-/

namespace Sys2Proof.Machine

-- One theorem after another, as the text compiles near its memory limit.
set_option Elab.async false

/-- A running device whose SAFETY is stopped and whose maintenance access is open: pack 0 is identified, and the trim output of
rail 0 is used. -/
def safetyStoppedState : State :=
  (({ State.reset with power := { life := .running }, halted := [5], maint := { strap := true, isOpen := true } } : State).wr
    (R.PK_STAT_STATE 0) 3).wr (R.SEQ_RAIL_CFG_TRIM_USED 0) 1

theorem safetyStoppedState_inv : safetyStoppedState.Inv := by
  constructor <;> decide

theorem safetyStoppedState_sound : safetyStoppedState.Sound where
  inv := safetyStoppedState_inv
  kept := rfl

theorem safetyStoppedState_calm : safetyStoppedState.Calm where
  inv := safetyStoppedState_inv
  active := rfl
  pend := rfl
  normal := by decide
  diag := by decide
  margin := by decide
  src := by decide

/-- Port A may write the pages of SAFETY's blocks, whether or not SAFETY runs. -/
theorem safetyStoppedState_writable {page : Nat} (h : page ∈ [0xA0, 0xA8, 0xA9, 0xC0]) :
    safetyStoppedState.Writable .portA page := by
  revert page
  decide

/-! ### The authentication of a pack -/

theorem authRun_waits : (Outcome.state (exec (.authRun .portA 0 false) safetyStoppedState)).rd (R.PK_AUTH_STATE 0) = 0 := by
  decide +kernel

/-- Refutes O46: its twelfth clause says that a write of `AUTH.RUN` sends the pack its challenge at once, but the block of the pack
ports is SAFETY's, and while SAFETY is stopped the write waits (R18). -/
theorem not_packsComeAndGo : ¬ Obligations.PacksComeAndGo := by
  unfold Obligations.PacksComeAndGo
  rintro ⟨-, -, -, -, -, -, -, -, -, -, -, hrun, -⟩
  obtain ⟨t, hexec : exec (.authRun .portA 0 false) safetyStoppedState = .next t, hshown, -⟩ :=
    hrun safetyStoppedState .portA 0 safetyStoppedState_sound (by decide) (safetyStoppedState_writable (by decide)) (by decide)
      (by decide) (by decide) (by decide) (by decide)
  have hwaits : t.rd (R.PK_AUTH_STATE 0) = 0 := by simpa only [hexec, Outcome.state] using authRun_waits
  rw [hwaits] at hshown
  exact absurd hshown (by decide)

/-! ### A relearn -/

theorem relearn_waits : ((Outcome.state (exec (.relearn .portA) safetyStoppedState)).pack 0).relearn = false := by
  decide +kernel

/-- Refutes O47: its fourth clause says that a write of `RELEARN` schedules the relearn, but the gauge is SAFETY's, and while
SAFETY is stopped the write waits (R18). -/
theorem not_theGaugeLearnsAndTestsItsPacks : ¬ Obligations.TheGaugeLearnsAndTestsItsPacks := by
  unfold Obligations.TheGaugeLearnsAndTestsItsPacks
  rintro ⟨-, -, -, hrelearn, -⟩
  obtain ⟨t, hexec : exec (.relearn .portA) safetyStoppedState = .next t, hdue, -⟩ :=
    hrelearn safetyStoppedState .portA safetyStoppedState_sound (by decide) (safetyStoppedState_writable (by decide))
  have hwaits : (t.pack 0).relearn = false := by simpa only [hexec, Outcome.state] using relearn_waits
  rw [hwaits] at hdue
  exact absurd hdue (by decide)

/-! ### A rail's margin -/

theorem marginWrite_waits :
    (Outcome.state (exec (.railMarginWrite .portA 1) safetyStoppedState)).rd (R.SEQ_RAIL_MARGIN_PCT10 0) = 0 := by
  decide +kernel

/-- Refutes O49: its first clause says that a margin inside its range is written, but the sequencer is SAFETY's, and while SAFETY
is stopped the write waits (R18). -/
theorem not_marginsCountersAndButtonsAct : ¬ Obligations.MarginsCountersAndButtonsAct := by
  unfold Obligations.MarginsCountersAndButtonsAct
  rintro ⟨hmargin, -⟩
  obtain ⟨t, hexec : exec (.railMarginWrite .portA 1) safetyStoppedState = .next t, hwritten, -⟩ :=
    hmargin safetyStoppedState .portA 1 safetyStoppedState_calm (safetyStoppedState_writable (by decide)) rfl (by decide)
      (by decide) (by decide) (by decide)
  have hselected : safetyStoppedState.rd R.SEQ_RAIL_SEL = 0 := by decide
  have hwaits : t.rd (R.SEQ_RAIL_MARGIN_PCT10 0) = 0 := by simpa only [hexec, Outcome.state] using marginWrite_waits
  rw [hselected, hwaits] at hwritten
  exact absurd hwritten (by decide)

/-! ### A test of `ERR_N` -/

theorem errnTest_waits : (Outcome.state (exec (.errnTest .portA) safetyStoppedState)).safe.errnTest = 0 := by
  decide +kernel

/-- Refutes O53: its eleventh clause says that a write of `ERRN_TEST` under maintenance access drives `ERR_N` low for ten
readbacks, but the safety manager's block is SAFETY's, and while SAFETY is stopped the write waits (R18). -/
theorem not_reactionsEndAndSourcesAreReleased : ¬ Obligations.ReactionsEndAndSourcesAreReleased := by
  unfold Obligations.ReactionsEndAndSourcesAreReleased
  rintro ⟨-, -, -, -, -, -, -, -, -, -, htest, -⟩
  obtain ⟨t, hexec : exec (.errnTest .portA) safetyStoppedState = .next t, hruns, -⟩ :=
    htest safetyStoppedState .portA safetyStoppedState_calm (safetyStoppedState_writable (by decide)) rfl
  have hwaits : t.safe.errnTest = 0 := by simpa only [hexec, Outcome.state] using errnTest_waits
  rw [hwaits] at hruns
  exact absurd hruns (by decide)

end Sys2Proof.Machine
end

section
/-!
PROOFS. Proofs/KilnByFault.lean: commands that detect a fault whose reaction asks for a kiln (R455): the kiln comes before the command
ends, and what K0 to K3 stop does not stay as the command left it.
-/

namespace Sys2Proof.Machine

-- One theorem after another, as the text compiles near its memory limit.
set_option Elab.async false

/-- A running device with `MAIN_IN` good, no port link-up and its kiln controller Ready, whose reaction table asks for a kiln where
the source `src` latches; a scrub of the dirty bits runs, two granules are being retired. -/
def kilnReadyState (src : Nat) : State :=
  ({ State.reset with power := { life := .running, mainGood := true }, halted := [], safe := { react := askingForKiln src },
                      dirty := { scrubRun := true }, dram := { retiring := [1, 2] } } : State).wr R.KLN_STAT_STATE 1

/-! ### Hellos missed -/

/-- The first Daluf port is up. -/
def fabricUpState : State := (kilnReadyState 105).wr (R.DLP_STAT_STATE 0) 4

theorem fabricUpState_sound : fabricUpState.Sound where
  inv := by constructor <;> decide
  kept := rfl

theorem hellosMissed_ends_scrub : (Outcome.state (exec (.hellosMissed 0) fabricUpState)).dirty.scrubRun = false := by
  decide +kernel

/-- Refutes O40: its fourth clause says that three missed hellos leave the dirty state as it is, but they latch F105 where the link
was up (Table 11-15), a reaction to it may be a kiln (R455), and K3 ends the scrub of the dirty bits (R231). -/
theorem not_dalufPortsFollowTheirLinks : ¬ Obligations.DalufPortsFollowTheirLinks := by
  unfold Obligations.DalufPortsFollowTheirLinks
  rintro ⟨-, -, -, hmissed, -⟩
  obtain ⟨t, hexec : exec (.hellosMissed 0) fabricUpState = .next t, -, -, hdirty⟩ :=
    hmissed fabricUpState 0 fabricUpState_sound (by decide) (by decide)
  have hended : t.dirty.scrubRun = false := by simpa only [hexec, Outcome.state] using hellosMissed_ends_scrub
  rw [hdirty] at hended
  exact absurd hended (by decide)

/-! ### A summary to a collector -/

/-- A collector is named that no route leads to. -/
def cutOffState : State := (kilnReadyState 100).wr (R.DFS_COLL 0) 7

theorem cutOffState_sound : cutOffState.Sound where
  inv := by constructor <;> decide
  kept := rfl

theorem alarmSummaryTx_ends_scrub : (Outcome.state (exec (.alarmSummaryTx 2) cutOffState)).dirty.scrubRun = false := by
  decide +kernel

/-- Refutes O41: its last clause says that a summary leaves the dirty state as it is, but a collector out of reach latches F100
(R341), a reaction to it may be a kiln (R455), and K3 ends the scrub of the dirty bits (R231). -/
theorem not_theFabricKeepsItsDatabaseAndRoutes : ¬ Obligations.TheFabricKeepsItsDatabaseAndRoutes := by
  unfold Obligations.TheFabricKeepsItsDatabaseAndRoutes
  rintro ⟨-, -, -, -, -, -, -, -, -, -, -, -, -, hsummary⟩
  obtain ⟨t, hexec : exec (.alarmSummaryTx 2) cutOffState = .next t, -, -, hdirty⟩ :=
    hsummary cutOffState 2 cutOffState_sound (by decide) (by decide)
  have hended : t.dirty.scrubRun = false := by simpa only [hexec, Outcome.state] using alarmSummaryTx_ends_scrub
  rw [hdirty] at hended
  exact absurd hended (by decide)

/-! ### The patrol in P2 -/

/-- The device rests in P2 while program 0 still runs, which keeps `REST_EXIT` from becoming due before K3 (Table 14-7). -/
def overduePatrolState : State := { kilnReadyState 241 with seq := { prog := some 0 } }.wr R.PWR_STAT_STATE 2

theorem overduePatrolState_sound : overduePatrolState.Sound where
  inv := by constructor <;> decide
  kept := rfl

theorem patrolCatchup_stops_retire_copies : (Outcome.state (exec .patrolCatchup overduePatrolState)).dram.retiring = [1] := by
  decide +kernel

/-- Refutes O50: its eighth clause says that a patrol that takes the device out of P2 leaves DRAM as it is, but it latches F241
(R432), a reaction to it may be a kiln (R455), and K3 abandons retire copies (R120). -/
theorem not_restIsEnteredAndLeft : ¬ Obligations.RestIsEnteredAndLeft := by
  unfold Obligations.RestIsEnteredAndLeft
  rintro ⟨-, -, -, -, -, -, -, hpatrol, -⟩
  obtain ⟨t, hexec : exec .patrolCatchup overduePatrolState = .next t, -, hdram, -⟩ :=
    hpatrol overduePatrolState overduePatrolState_sound (by decide)
  have hstopped : t.dram.retiring = [1] := by simpa only [hexec, Outcome.state] using patrolCatchup_stops_retire_copies
  rw [hdram] at hstopped
  exact absurd hstopped (by decide)

/-! ### Coefficients out of range -/

/-- A calibration runs, at its first ADC. -/
def calibratingState : State := (kilnReadyState 175).wr R.CAL_STAT_RUNNING 1

theorem calibratingState_sound : calibratingState.Sound where
  inv := by constructor <;> decide
  kept := rfl

/-- The first ADC ends with a gain 3 % off. -/
theorem adcCalDone_abandons_run :
    (Outcome.state (exec (.adcCalDone 30000 0 [] []) calibratingState)).flag R.CAL_STAT_RUNNING = false := by
  decide +kernel

/-- Refutes O56: its eighth clause says that a calibration goes on after the end of one of the first two ADCs, whatever the
coefficients; but coefficients out of range latch F175 (R491), a reaction to it may be a kiln (R455), and K0 abandons the
run (R495). -/
theorem not_calibrationRunsAndChecks : ¬ Obligations.CalibrationRunsAndChecks := by
  unfold Obligations.CalibrationRunsAndChecks
  rintro ⟨-, -, -, -, -, -, -, hend, -⟩
  obtain ⟨t, hexec : exec (.adcCalDone 30000 0 [] []) calibratingState = .next t, -, -, -, -, hruns, -⟩ :=
    hend calibratingState 30000 0 [] [] calibratingState_sound (by decide) (by decide)
  have habandoned : t.flag R.CAL_STAT_RUNNING = false := by simpa only [hexec, Outcome.state] using adcCalDone_abandons_run
  rw [habandoned] at hruns
  exact absurd hruns (by decide)

end Sys2Proof.Machine
end

section
/-!
PROOFS. Proofs/StatesLeftOpen.lean: statements over every sound state that leave open a part of the state which the command meets: a
derived power-down that pauses, a code-flash operation as MGMT stops, a counter beyond its width.
-/

namespace Sys2Proof.Machine

-- One theorem after another, as the text compiles near its memory limit.
set_option Elab.async false

/-- A running device with no processor stopped. -/
def serviceState : State := { State.reset with power := { life := .running }, halted := [] }

/-! ### A derived power-down that pauses -/

/-- A derived power-down with no entry left stands at the pause that the sequencer makes after a run of steps without a wait. -/
def pausedState : State := { serviceState with seq := { prog := some 1, derived := some [], wait := .more } }

theorem pausedState_sound : pausedState.Sound where
  inv := by constructor <;> decide
  kept := rfl

/-- The pause ends; the steps of the store are no business of a derived power-down. -/
theorem seqWaitDone_ends_pause :
    (Outcome.state (exec .seqWaitDone pausedState)).seq.prog = some 1 ∧
      (Outcome.state (exec .seqWaitDone pausedState)).seq.wait = .none := by
  decide +kernel

/-- Refutes O48: its sixth clause says that where a wait is over the program waits again or has ended, but it does not ask that the
program runs from the store: after a pause a derived power-down (R411) goes on neither way. -/
theorem not_programsRunStepByStep : ¬ Obligations.ProgramsRunStepByStep := by
  unfold Obligations.ProgramsRunStepByStep
  rintro ⟨-, -, -, -, -, hwait, -⟩
  obtain ⟨t, hexec : exec .seqWaitDone pausedState = .next t, hgoes, -⟩ :=
    hwait pausedState pausedState_sound (by decide) (by decide) (by decide)
  obtain ⟨hprog, hnone⟩ : t.seq.prog = some 1 ∧ t.seq.wait = .none := by
    simpa only [hexec, Outcome.state] using seqWaitDone_ends_pause
  rw [hprog, hnone] at hgoes
  exact absurd hgoes (by decide)

/-! ### A code-flash operation as MGMT stops -/

/-- Bank 0 of the code flash programs a word. -/
def programmingState : State :=
  { serviceState with flash := { op0 := some { opcode := 1, addr := 0, word := 0, who := 1 } } }.wr R.CFL_STAT_BUSY0 1

theorem programmingState_sound : programmingState.Sound where
  inv := by constructor <;> decide
  kept := rfl

theorem watchdogExpiry_clears_busy : (Outcome.state (exec (.watchdogExpiry 4) programmingState)).rd R.CFL_STAT_BUSY0 = 0 := by
  decide +kernel

/-- Refutes O54: its third clause says that of the steady registers a watchdog writes only those of a failed start, but that of MGMT
abandons the code-flash operations that run (R526), and `CFL.STAT` shows them no more. -/
theorem not_processorsAndComparatorsAreWatched : ¬ Obligations.ProcessorsAndComparatorsAreWatched := by
  unfold Obligations.ProcessorsAndComparatorsAreWatched
  rintro ⟨-, -, hwatchdog, -⟩
  obtain ⟨t, hexec : exec (.watchdogExpiry 4) programmingState = .next t, -, hframe⟩ :=
    hwatchdog programmingState 4 programmingState_sound (by decide) (by decide) (by decide) (by decide) (by decide) rfl
  have hcleared : t.rd R.CFL_STAT_BUSY0 = 0 := by simpa only [hexec, Outcome.state] using watchdogExpiry_clears_busy
  have hkept : t.rd R.CFL_STAT_BUSY0 = 1 :=
    (hframe R.CFL_STAT_BUSY0 (by decide) (by decide) (by decide) (by decide) (by decide)).trans (by decide)
  rw [hcleared] at hkept
  exact absurd hkept (by decide)

/-! ### A counter beyond its width -/

/-- The register file holds for `CFL.CRC_PASS` a number that its 16 bits do not. No register write leaves such a number behind, but
`State.Sound` says nothing of the numbers in the file. -/
def overfullCounterState : State := { State.reset with regs := [(R.CFL_CRC_PASS.key, 65536)] }

theorem overfullCounterState_sound : overfullCounterState.Sound where
  inv := by constructor <;> decide
  kept := rfl

theorem codeFlashCheck_keeps_overfull :
    (Outcome.state (exec (.codeFlashCheck 0 []) overfullCounterState)).rd R.CFL_CRC_PASS = 65536 := by
  decide +kernel

/-- Refutes O57: its twentieth clause counts the hourly check as one more, 65,535 at most, in every sound state, but where the
register file holds more than the counter's width, one more is not counted, and the number stays above the limit. -/
theorem not_flashCommandsTakeTheirSequence : ¬ Obligations.FlashCommandsTakeTheirSequence := by
  unfold Obligations.FlashCommandsTakeTheirSequence
  rintro ⟨-, -, -, -, -, -, -, -, -, -, -, -, -, -, -, -, -, -, -, hcheck, -⟩
  obtain ⟨t, hexec : exec (.codeFlashCheck 0 []) overfullCounterState = .next t, hcounted, -⟩ :=
    hcheck overfullCounterState 0 overfullCounterState_sound
  have hstays : t.rd R.CFL_CRC_PASS = 65536 := by simpa only [hexec, Outcome.state] using codeFlashCheck_keeps_overfull
  rw [hstays] at hcounted
  exact absurd hcounted (by decide)

end Sys2Proof.Machine
end

section
/-!
PROOFS. Proofs/FaultBits.lean: the fault bits of the page headers (R454, R461) and the page locks (R70): what a clear, a forced bit and a
lock write, and what the detector's answer to an injection leaves alone.
-/

namespace Sys2Proof.Machine

-- One theorem after another, as the text compiles near its memory limit.
set_option Elab.async false

/-! ### Fields of a page header -/

theorem Fld.keyOff_key {f : Fld} (hoff : f.off < 4096) (hlsb : f.lsb < 32) (hidx : f.idx < 4096) : keyOff f.key = f.off := by
  unfold keyOff Fld.key
  omega

theorem Fld.key_ne_of_off {f g : Fld} (h : keyOff f.key ≠ keyOff g.key) : f.key ≠ g.key :=
  fun hkey => h (congrArg keyOff hkey)

theorem keyOff_fltStat (page : Nat) : keyOff (R.FLT_STAT page).key = 0x010 :=
  Fld.keyOff_key (by simp [R.FLT_STAT]) (by simp [R.FLT_STAT]) (by simp [R.FLT_STAT])

theorem keyOff_fltForce (page : Nat) : keyOff (R.FLT_FORCE page).key = 0x018 :=
  Fld.keyOff_key (by simp [R.FLT_FORCE]) (by simp [R.FLT_FORCE]) (by simp [R.FLT_FORCE])

theorem keyOff_locked (page : Nat) : keyOff (R.LOCKED page).key = 0x024 :=
  Fld.keyOff_key (by simp [R.LOCKED]) (by simp [R.LOCKED]) (by simp [R.LOCKED])

theorem keyPage_fltStat (page : Nat) : keyPage (R.FLT_STAT page).key = page :=
  Fld.keyPage_key (by simp [R.FLT_STAT]) (by simp [R.FLT_STAT]) (by simp [R.FLT_STAT])

theorem keyPage_fltForce (page : Nat) : keyPage (R.FLT_FORCE page).key = page :=
  Fld.keyPage_key (by simp [R.FLT_FORCE]) (by simp [R.FLT_FORCE]) (by simp [R.FLT_FORCE])

theorem keyPage_locked (page : Nat) : keyPage (R.LOCKED page).key = page :=
  Fld.keyPage_key (by simp [R.LOCKED]) (by simp [R.LOCKED]) (by simp [R.LOCKED])

/-- The fields that tell a calm state apart. -/
def calmFields : List Fld := [R.SAF_STAT_STATE, R.PST_STATE_PNG_DIAG, R.PST_STATE_PAR_MARGIN, R.PST_STATE_DIAG_SRC]

theorem keyOff_calmFields : ∀ f ∈ calmFields, keyOff f.key = 0x044 := by
  decide

/-! ### A command that writes one header field -/

/-- `u` is `s` at the start of a command, but for the field `g` and the injections that wait. -/
structure HeaderWrite (g : Fld) (s u : State) : Prop where
  wf : u.regs.wf = true
  rd : ∀ f, f.key ≠ g.key → u.rd f = s.rd f
  parts : u = { s.begin with regs := u.regs, safe := { s.begin.safe with injWait := u.safe.injWait } }

section

variable {g : Fld} {s u : State}

theorem State.Calm.headerWrite (hc : s.Calm) (g : Fld) : HeaderWrite g s s.begin where
  wf := hc.inv.regs
  rd _ _ := rfl
  parts := rfl

theorem HeaderWrite.wr (h : HeaderWrite g s u) (v : Nat) : HeaderWrite g s (u.wr g v) where
  wf := State.wf_wr _ _ h.wf
  rd f hf := (State.rd_wr_ne u v hf).trans (h.rd f hf)
  parts := by
    unfold State.wr
    rw [h.parts]

theorem HeaderWrite.setBit (h : HeaderWrite g s u) (i : Nat) (b : Bool) : HeaderWrite g s (u.setBit g i b) :=
  pres_ite h (h.wr _)

theorem HeaderWrite.injWait (h : HeaderWrite g s u) (l : List (Nat × Nat)) :
    HeaderWrite g s { u with safe := { u.safe with injWait := l } } where
  wf := h.wf
  rd := h.rd
  parts := by rw [h.parts]

variable (h : HeaderWrite g s u) (hc : s.Calm) (hoff : keyOff g.key < 0x040)

include h hc hoff

/-- A header field is none of those that tell a calm state, so that the command ends as it stands. -/
theorem HeaderWrite.settled : Settled u (finish u) := by
  have hkeeps {f : Fld} (hf : f ∈ calmFields) : u.rd f = s.rd f :=
    h.rd f (Fld.key_ne_of_off (by rw [keyOff_calmFields f hf]; omega))
  have hsafe : u.safe = { s.begin.safe with injWait := u.safe.injWait } := by rw [h.parts]
  have htrigger : u.update.trigger = false := by rw [h.parts]; rfl
  exact finish_settled h.wf htrigger (by rw [hsafe]; rfl) (by rw [hsafe]; exact hc.active) (by rw [hsafe]; exact hc.pend)
    (.inl ((hkeeps (by decide)).trans hc.normal)) ((hkeeps (by decide)).trans hc.diag) ((hkeeps (by decide)).trans hc.margin)
    ((hkeeps (by decide)).trans hc.src)

theorem HeaderWrite.sameRegs : SameRegsBut s (finish u) [g] := by
  intro f hpage hfoff hlsb hidx hother
  rw [(h.settled hc hoff).rd (by rwa [Fld.keyPage_key hfoff hlsb hidx]), h.rd f (hother g (by simp))]

theorem HeaderWrite.sameParts : SameParts s (finish u) := by
  have hend := h.settled hc hoff
  refine hend.parts.trans ?_
  rw [hend.out_eq, hend.safe_eq, h.parts]
  rfl

theorem HeaderWrite.active_eq : (finish u).safe.active = s.safe.active := by
  rw [(h.settled hc hoff).safe_eq, h.parts]
  rfl

end

/-! ### Forced bits -/

section

variable {s : State} {page bit f l : Nat}

/-- A bit that is forced, and not seen at once, waits for its detector (R461). -/
theorem State.inject_of_waiting (hfirst : pageFirstSrc page = some (f, l)) (hlast : f + bit ≤ l)
    (hnamed : namedSources.contains (f + bit) = true) (hen : s.flag R.SAF_CTRL_INJ_EN = true) (hkiln : s.kiln.since = false)
    (hruns : s.runs .safety = true) (hnew : s.injWaits (f + bit) (page - srcPage f 0) = false) :
    s.inject page bit false =
      { s with safe := { s.safe with injWait := s.safe.injWait ++ [(f + bit, page - srcPage f 0)] } }.setBit
        (R.FLT_FORCE page) bit true := by
  unfold State.inject
  rw [hfirst]
  simp only
  rw [if_neg (by rw [hnamed]; simpa using hlast), if_neg (by simp [hen, hkiln, hruns]), if_neg (by simp), if_neg (by simp [hnew])]

/-- A forced bit that the detector answers at once is seen, unless the test path drives a later test. -/
theorem State.inject_of_seen (hfirst : pageFirstSrc page = some (f, l)) (hlast : f + bit ≤ l)
    (hnamed : namedSources.contains (f + bit) = true) (hen : s.flag R.SAF_CTRL_INJ_EN = true) (hkiln : s.kiln.since = false)
    (hruns : s.runs .safety = true) (hdirect : f + bit ≠ 24 ∧ f + bit ≠ 25 ∧ f + bit ≠ 159 ∧ f + bit ≠ 160) :
    s.inject page bit true = s.injSeen (f + bit) (page - srcPage f 0) := by
  unfold State.inject
  rw [hfirst]
  simp only
  rw [if_neg (by rw [hnamed]; simpa using hlast), if_neg (by simp [hen, hkiln, hruns]), if_pos (by simp [hdirect])]

/-- The state with the bit forced: its injection waits. -/
def State.forced (s : State) (f page bit : Nat) : State :=
  { s with safe := { s.safe with injWait := s.safe.injWait ++ [(f + bit, page - srcPage f 0)] } }.setBit (R.FLT_FORCE page)
    bit true

theorem State.Calm.forced_headerWrite (hc : s.Calm) (f page bit : Nat) :
    HeaderWrite (R.FLT_FORCE page) s (s.begin.forced f page bit) ∧
      (s.begin.forced f page bit).safe.injWait = s.safe.injWait ++ [(f + bit, page - srcPage f 0)] :=
  ⟨((hc.headerWrite _).injWait _).setBit _ _,
    pres_ite (P := fun t : State => t.safe.injWait = s.safe.injWait ++ [(f + bit, page - srcPage f 0)]) rfl rfl⟩

theorem State.rd_forced_first {f : Nat} (hw : s.regs.wf = true) (hclear : s.rd (R.FLT_FORCE page) = 0) :
    (s.forced f page 0).rd (R.FLT_FORCE page) = 1 := by
  unfold State.forced State.setBit
  generalize s.safe.injWait ++ [(f + 0, page - srcPage f 0)] = waits
  have hzero : { s with safe := { s.safe with injWait := waits } }.rd (R.FLT_FORCE page) = 0 := hclear
  unfold State.bit
  rw [hzero, if_neg (by decide)]
  exact State.rd_wr_self _ _ hw

theorem exec_faultInject {who : Requester} (hwritable : s.Writable who page) (hbit : bit < 16) (seen : Bool) :
    exec (.faultInject who page bit seen) s = .next (finish (s.begin.inject page bit seen)) := by
  have hexec : exec (.faultInject who page bit seen) s =
      .next (finish (s.begin.under (s.admission who page) page (fun s => s.inject page (bit % 16) seen))) := rfl
  rwa [State.under_of_writable hwritable, Nat.mod_eq_of_lt hbit] at hexec

theorem exec_faultInject_of_waiting {who : Requester} (hwritable : s.Writable who page)
    (hfirst : pageFirstSrc page = some (f, l)) (hbit : bit < 16) (hlast : f + bit ≤ l)
    (hnamed : namedSources.contains (f + bit) = true) (hen : s.flag R.SAF_CTRL_INJ_EN = true) (hkiln : s.kiln.since = false)
    (hruns : s.runs .safety = true) (hnew : s.injWaits (f + bit) (page - srcPage f 0) = false) :
    exec (.faultInject who page bit false) s = .next (finish (s.begin.forced f page bit)) := by
  rw [exec_faultInject hwritable hbit, State.inject_of_waiting (s := s.begin) hfirst hlast hnamed hen hkiln hruns hnew]
  rfl

end

/-- The ranges of sources share none. -/
theorem rangeOfSrc_of_mem :
    ∀ r ∈ srcRanges, ∀ b < 16, r.1 + b ≤ r.2.1 → rangeOfSrc (r.1 + b) = some r := by
  decide +kernel

/-- A source of a page's fault bits has its bit on that page. -/
theorem srcPage_of_pageFirstSrc {page bit f l : Nat} (hfirst : pageFirstSrc page = some (f, l)) (hbit : bit < 16)
    (hlast : f + bit ≤ l) : srcPage (f + bit) (page - srcPage f 0) = page ∧ srcBit (f + bit) = bit := by
  unfold pageFirstSrc at hfirst
  obtain ⟨⟨f', l', p, n⟩, hr, hfl⟩ := Option.map_eq_some_iff.mp hfirst
  obtain ⟨rfl, rfl⟩ : f' = f ∧ l' = l := by simpa using hfl
  have hrange := rangeOfSrc_of_mem _ (List.mem_of_find?_eq_some hr)
  have hpage : p ≤ page := by
    have := List.find?_some hr
    simp at this
    omega
  have hsrc := hrange bit hbit hlast
  have hfirstSrc := hrange 0 (by decide) (by simp only; omega)
  simp only [Nat.add_zero] at hsrc hfirstSrc
  unfold srcPage srcBit
  rw [hsrc, hfirstSrc]
  simp only
  omega

/-! ### What an injection that is seen writes -/

/-- From `s` to `t`, the fields of `fs` read the same, and what the end of a command acts on stays, as does the dirty state. -/
structure Agrees (fs : List Fld) (s t : State) : Prop where
  wf : s.regs.wf = true → t.regs.wf = true
  rd : ∀ f ∈ fs, t.rd f = s.rd f
  todo : t.safe.todo = s.safe.todo
  active : t.safe.active = s.safe.active
  pend : t.safe.pend = s.safe.pend
  trigger : t.update.trigger = s.update.trigger
  dirty : t.dirty = s.dirty

section

variable {fs : List Fld} {s t : State}

theorem Agrees.refl (fs : List Fld) (s : State) : Agrees fs s s := ⟨id, fun _ _ => rfl, rfl, rfl, rfl, rfl, rfl⟩

theorem Agrees.withRecs (fs : List Fld) (s : State) (r : Records) : Agrees fs s { s with recs := r } :=
  { Agrees.refl fs s with }

theorem Agrees.withInjWait (fs : List Fld) (s : State) (l : List (Nat × Nat)) :
    Agrees fs s { s with safe := { s.safe with injWait := l } } :=
  { Agrees.refl fs s with }

theorem Agrees.trans {u : State} (h : Agrees fs s t) (h' : Agrees fs t u) : Agrees fs s u where
  wf hw := h'.wf (h.wf hw)
  rd f hf := (h'.rd f hf).trans (h.rd f hf)
  todo := h'.todo.trans h.todo
  active := h'.active.trans h.active
  pend := h'.pend.trans h.pend
  trigger := h'.trigger.trans h.trigger
  dirty := h'.dirty.trans h.dirty

theorem Agrees.wr (h : Agrees fs s t) {g : Fld} (hg : ∀ f ∈ fs, f.key ≠ g.key) (v : Nat) : Agrees fs s (t.wr g v) :=
  { h with wf := fun hw => State.wf_wr _ _ (h.wf hw), rd := fun f hf => (State.rd_wr_ne t v (hg f hf)).trans (h.rd f hf) }

theorem Agrees.inc (h : Agrees fs s t) {g : Fld} (hg : ∀ f ∈ fs, f.key ≠ g.key) : Agrees fs s (t.inc g) :=
  pres_ite (h.wr hg _) h

theorem Agrees.setBit (h : Agrees fs s t) {g : Fld} (hg : ∀ f ∈ fs, f.key ≠ g.key) (i : Nat) (b : Bool) :
    Agrees fs s (t.setBit g i b) :=
  pres_ite h (h.wr hg _)

theorem State.enterHist_agrees (hfs : ∀ f ∈ fs, f.key ≠ R.SAF_HIST_LOST.key) (e : HistEntry) :
    Agrees fs s (s.enterHist e) :=
  pres_ite (.refl fs s) (pres_ite ((Agrees.refl fs s).inc hfs) { Agrees.refl fs s with })

theorem State.enterHist_recs (e : HistEntry) : (s.enterHist e).recs = s.recs :=
  pres_ite (P := fun t : State => t.recs = s.recs) rfl
    (pres_ite (P := fun t : State => t.recs = s.recs) (pres_ite (P := fun t : State => t.recs = s.recs) rfl rfl) rfl)

/-- The registers that show the live log. -/
def tlogShown : List Fld := [R.TLG_HEAD, R.TLG_OLDEST, R.TLG_COUNT]

theorem State.pushTlog_agrees (hfs : ∀ f ∈ fs, ∀ g ∈ tlogShown, f.key ≠ g.key) (e : TEntry) : Agrees fs s (s.pushTlog e) :=
  have hshown (g : Fld) (hg : g ∈ tlogShown) : ∀ f ∈ fs, f.key ≠ g.key := fun f hf => hfs f hf g hg
  ((((Agrees.withRecs fs s _).wr (hshown R.TLG_HEAD (by decide)) _).wr (hshown R.TLG_OLDEST (by decide)) _).wr
    (hshown R.TLG_COUNT (by decide)) _ :)

/-- While no code has been held back, an entry is appended (R470). -/
theorem State.appendTlog_agrees (hused : s.recs.used = []) (hfs : ∀ f ∈ fs, ∀ g ∈ tlogShown, f.key ≠ g.key) (e : TEntry) :
    Agrees fs s (s.appendTlog true e) := by
  have hrate : ¬ s.tlogRate ≤ NMap.get [] e.code := by
    have hnone : NMap.get [] e.code = 0 := rfl
    rw [hnone]
    unfold State.tlogRate
    omega
  unfold State.appendTlog
  rw [if_neg (by rw [hused]; simpa using hrate)]
  exact (Agrees.withRecs fs s _).trans (State.pushTlog_agrees hfs e)

/-! ### The end of a calm command -/

/-- A field that no command's end shows: it stands in a page header, or is one of `SAF.INJ_SEEN`. -/
abbrev Fld.Unshown (f : Fld) : Prop := keyOff f.key < 0x040 ∨ (0x0A0 ≤ keyOff f.key ∧ keyOff f.key < 0x0C0)

variable (hfs : ∀ f ∈ fs, f.Unshown)

include hfs

theorem key_ne_of_unshown {g : Fld} (hg : 0x040 ≤ keyOff g.key ∧ (keyOff g.key < 0x0A0 ∨ 0x0C0 ≤ keyOff g.key)) :
    ∀ f ∈ fs, f.key ≠ g.key :=
  fun f hf => Fld.key_ne_of_off (by have := hfs f hf; omega)

theorem State.showSafe_agrees : Agrees fs s s.showSafe := by
  have hactive (w : Nat) : ∀ f ∈ fs, f.key ≠ (R.SAF_ACTIVE w).key :=
    key_ne_of_unshown hfs (by simp only [keyOff, Fld.key, R.SAF_ACTIVE]; omega)
  have hpending (w : Nat) : ∀ f ∈ fs, f.key ≠ (R.SAF_PENDING w).key :=
    key_ne_of_unshown hfs (by simp only [keyOff, Fld.key, R.SAF_PENDING]; omega)
  have hwords (a p : List Nat) : Agrees fs s
      (s.each 8 (fun s w => (s.wr (R.SAF_ACTIVE w) (srcWord a w)).wr (R.SAF_PENDING w) (srcWord p w))) :=
    pres_each (.refl fs s) (fun _ w h => (h.wr (hactive w) _).wr (hpending w) _)
  exact ((((((hwords _ _).wr (key_ne_of_unshown hfs (by decide)) _).wr (key_ne_of_unshown hfs (by decide)) _).wr
    (key_ne_of_unshown hfs (by decide)) _).wr (key_ne_of_unshown hfs (by decide)) _).wr
    (key_ne_of_unshown hfs (by decide)) _).wr (key_ne_of_unshown hfs (by decide)) _

theorem State.driveErrn_agrees : Agrees fs s s.driveErrn :=
  pres_ite (.refl fs s) { (Agrees.refl fs s).wr (key_ne_of_unshown hfs (g := R.SAF_STAT_ERRN_DRIVE) (by decide)) _ with }

end

section

variable {u : State} (htrigger : u.update.trigger = false) (htodo : u.safe.todo = []) (hactive : u.safe.active = [])
  (hpend : u.safe.pend = []) (hcalm : ∀ f ∈ calmFields, u.rd f = 0)

include htrigger htodo hactive hpend hcalm

/-- Where nothing was detected and no source is active, the end of a command only shows the safety manager's state. -/
theorem finish_eq_of_calm : finish u = u.showSafe.driveErrn := by
  have hrel : u.releaseEnded = u := by
    have hfilter : ({ u.safe with active := [] } : Safe) = u.safe := by rw [← hactive]
    unfold State.releaseEnded
    rw [hactive, List.filter_nil, hfilter]
  have hstate : u.faultState = u := by
    unfold State.faultState
    simp [hcalm R.SAF_STAT_STATE (by decide)]
  have hreasons : u.holdReasons = u := by
    unfold State.holdReasons
    simp [hactive, hcalm R.PST_STATE_PNG_DIAG (by decide), hcalm R.PST_STATE_PAR_MARGIN (by decide),
      hcalm R.PST_STATE_DIAG_SRC (by decide), b2n]
  have hpending : u.runPending = u := by
    unfold State.runPending
    simp [hpend, firstPending]
  have hshown : u.showSafe.safe.todo = [] := (State.showSafe_agrees (fs := []) (by simp)).todo.trans htodo
  unfold finish State.settle
  simp only [htrigger, htodo, hrel, hstate, hreasons, hpending, hshown, List.isEmpty_nil, if_true, Bool.false_eq_true, if_false]

theorem finish_agrees_of_calm {fs : List Fld} (hfs : ∀ f ∈ fs, f.Unshown) : Agrees fs u (finish u) := by
  rw [finish_eq_of_calm htrigger htodo hactive hpend hcalm]
  exact (State.showSafe_agrees hfs).trans (State.driveErrn_agrees hfs)

end

/-! ### The answer to an injection -/

theorem State.bit_setBit_false {s : State} {f : Fld} {i : Nat} (hw : s.regs.wf = true) (hi : i < f.width) :
    (s.setBit f i false).bit f i = false := by
  unfold State.setBit
  split
  · assumption
  · next hset =>
    have hbit : (s.rd f).testBit i = true := by simpa [State.bit] using hset
    unfold State.bit
    rw [State.rd_wr_self _ _ hw]
    simp [Nat.testBit_mod_two_pow, Nat.testBit_xor, hbit, hi]

theorem State.setBit_recs (s : State) (f : Fld) (i : Nat) (b : Bool) : (s.setBit f i b).recs = s.recs :=
  pres_ite (P := fun t : State => t.recs = s.recs) rfl rfl

theorem State.rd_setBit_ne {s : State} {f g : Fld} {i : Nat} {b : Bool} (h : f.key ≠ g.key) :
    (s.setBit g i b).rd f = s.rd f :=
  pres_ite (P := fun t : State => t.rd f = s.rd f) rfl (State.rd_wr_ne s _ h)

theorem keyOff_injSeen (w : Nat) : 0x0A0 ≤ keyOff (R.SAF_INJ_SEEN w).key ∧ keyOff (R.SAF_INJ_SEEN w).key < 0x0C0 := by
  simp only [keyOff, Fld.key, R.SAF_INJ_SEEN]
  omega

/-- What an injection that is seen tells of on the pages: its bit in `SAF.INJ_SEEN`, and the forced bit that clears. -/
def State.injMarked (s : State) (src inst : Nat) : State :=
  ({ s with safe := { s.safe with injWait := s.safe.injWait.filter (fun w => w != (src, inst)) } }.setBit
    (R.SAF_INJ_SEEN (src / 32)) (src % 32) true).setBit (R.FLT_FORCE (srcPage src inst)) (srcBit src) false

/-- The header fields of a page, and the word of `SAF.INJ_SEEN` that shows the source. -/
def injFields (src page : Nat) : List Fld := [R.SAF_INJ_SEEN (src / 32), R.FLT_FORCE page, R.FLT_STAT page]

theorem injFields_unshown (src page : Nat) : ∀ f ∈ injFields src page, f.Unshown := by
  simp only [injFields, List.forall_mem_cons, List.not_mem_nil, false_imp_iff, implies_true, and_true]
  refine ⟨.inr (keyOff_injSeen _), .inl ?_, .inl ?_⟩
  · rw [keyOff_fltForce]
    decide
  · rw [keyOff_fltStat]
    decide

section

variable {s : State} {src inst : Nat}

/-- The history and the trouble log tell of the injection, and of no page but theirs. -/
theorem State.injSeen_agrees (hused : s.recs.used = []) {fs : List Fld}
    (hfs : ∀ f ∈ fs, ∀ g ∈ R.SAF_HIST_LOST :: tlogShown, f.key ≠ g.key) :
    Agrees fs (s.injMarked src inst) (s.injSeen src inst) := by
  have hmarked : (s.injMarked src inst).recs = s.recs := (State.setBit_recs _ _ _ _).trans (State.setBit_recs _ _ _ _)
  have hlogged (e : HistEntry) : ((s.injMarked src inst).enterHist e).recs.used = [] := by
    rw [State.enterHist_recs, hmarked, hused]
  exact (State.enterHist_agrees (hfs := fun f hf => hfs f hf _ (by simp)) _).trans
    (State.appendTlog_agrees (hlogged _) (fun f hf g hg => hfs f hf g (by simp [hg])) _)

theorem State.injMarked_agrees {fs : List Fld} (hseen : ∀ f ∈ fs, f.key ≠ (R.SAF_INJ_SEEN (src / 32)).key)
    (hforce : ∀ f ∈ fs, f.key ≠ (R.FLT_FORCE (srcPage src inst)).key) : Agrees fs s (s.injMarked src inst) :=
  ((Agrees.withInjWait fs s _).setBit hseen _ _).setBit hforce _ _

theorem calmFields_ne_injSeen (w : Nat) : ∀ f ∈ calmFields, f.key ≠ (R.SAF_INJ_SEEN w).key := fun f hf =>
  Fld.key_ne_of_off (by rw [keyOff_calmFields f hf]; have := keyOff_injSeen w; omega)

theorem calmFields_ne_fltForce (page : Nat) : ∀ f ∈ calmFields, f.key ≠ (R.FLT_FORCE page).key := fun f hf =>
  Fld.key_ne_of_off (by rw [keyOff_calmFields f hf, keyOff_fltForce]; decide)

/-- After a seen injection a calm state is calm still. -/
theorem State.injSeen_keeps_calm (hused : s.recs.used = []) : Agrees calmFields s (s.injSeen src inst) :=
  have hmark : Agrees calmFields s (s.injMarked src inst) :=
    State.injMarked_agrees (calmFields_ne_injSeen _) (calmFields_ne_fltForce _)
  hmark.trans (State.injSeen_agrees hused (by decide))

theorem State.Calm.rd_calmFields (hc : s.Calm) : ∀ f ∈ calmFields, s.rd f = 0 := by
  simp only [calmFields, List.forall_mem_cons, List.not_mem_nil, false_imp_iff, implies_true, and_true]
  exact ⟨hc.normal, hc.diag, hc.margin, hc.src⟩

theorem State.injSeen_end_agrees (hc : s.Calm) (hused : s.recs.used = []) (page : Nat) :
    Agrees (injFields src page) (s.begin.injMarked src inst) (finish (s.begin.injSeen src inst)) := by
  have hunshown := injFields_unshown src page
  have hcalm : Agrees calmFields s.begin (s.begin.injSeen src inst) :=
    State.injSeen_keeps_calm (s := s.begin) hused
  have hlogged : ∀ g ∈ R.SAF_HIST_LOST :: tlogShown, 0x040 ≤ keyOff g.key ∧ (keyOff g.key < 0x0A0 ∨ 0x0C0 ≤ keyOff g.key) := by
    decide
  have hlog : Agrees (injFields src page) (s.begin.injMarked src inst) (s.begin.injSeen src inst) :=
    State.injSeen_agrees (s := s.begin) hused (fun f hf g hg => key_ne_of_unshown hunshown (hlogged g hg) f hf)
  generalize s.begin.injSeen src inst = u at hcalm hlog ⊢
  have hzero : ∀ f ∈ calmFields, u.rd f = 0 := fun f hf => (hcalm.rd f hf).trans (hc.rd_calmFields f hf)
  exact hlog.trans (finish_agrees_of_calm hcalm.trigger hcalm.todo (hcalm.active.trans hc.active) (hcalm.pend.trans hc.pend)
    hzero hunshown)

theorem State.injMarked_bits (hw : s.regs.wf = true) (hbit : srcBit src < 16) :
    (s.injMarked src inst).bit (R.SAF_INJ_SEEN (src / 32)) (src % 32) = true ∧
      (s.injMarked src inst).bit (R.FLT_FORCE (srcPage src inst)) (srcBit src) = false := by
  have hne : (R.SAF_INJ_SEEN (src / 32)).key ≠ (R.FLT_FORCE (srcPage src inst)).key :=
    Fld.key_ne_of_off (by have := keyOff_injSeen (src / 32); rw [keyOff_fltForce]; omega)
  unfold State.injMarked
  constructor
  · unfold State.bit
    rw [State.rd_setBit_ne hne]
    exact State.bit_setBit_self hw (Nat.mod_lt _ (by decide))
  · exact State.bit_setBit_false (State.setBit_wf hw) hbit

theorem State.injMarked_rd_fltStat (page : Nat) : (s.injMarked src inst).rd (R.FLT_STAT page) = s.rd (R.FLT_STAT page) := by
  have hseen : (R.FLT_STAT page).key ≠ (R.SAF_INJ_SEEN (src / 32)).key :=
    Fld.key_ne_of_off (by have := keyOff_injSeen (src / 32); rw [keyOff_fltStat]; omega)
  have hforce : (R.FLT_STAT page).key ≠ (R.FLT_FORCE (srcPage src inst)).key :=
    Fld.key_ne_of_off (by rw [keyOff_fltStat, keyOff_fltForce]; decide)
  unfold State.injMarked
  rw [State.rd_setBit_ne hforce, State.rd_setBit_ne hseen]
  rfl

/-- R461: in a calm state the detector's answer to an injection shows in `SAF.INJ_SEEN` and clears the forced bit; it latches
nothing. -/
theorem State.injSeen_ends (hc : s.Calm) (hused : s.recs.used = []) (hbit : srcBit src < 16) :
    let t := finish (s.begin.injSeen src inst)
    t.bit (R.SAF_INJ_SEEN (src / 32)) (src % 32) = true ∧ t.bit (R.FLT_FORCE (srcPage src inst)) (srcBit src) = false ∧
      t.rd (R.FLT_STAT (srcPage src inst)) = s.rd (R.FLT_STAT (srcPage src inst)) ∧ t.dirty = s.dirty := by
  have hend : Agrees (injFields src (srcPage src inst)) (s.begin.injMarked src inst) (finish (s.begin.injSeen src inst)) :=
    State.injSeen_end_agrees hc hused _
  have hmark : (s.begin.injMarked src inst).dirty = s.dirty :=
    (State.injMarked_agrees (s := s.begin) (src := src) (inst := inst) (fs := []) (by simp) (by simp)).dirty
  have hstat : (s.begin.injMarked src inst).rd (R.FLT_STAT (srcPage src inst)) = s.rd (R.FLT_STAT (srcPage src inst)) :=
    State.injMarked_rd_fltStat (s := s.begin) _
  obtain ⟨hseen, hforce⟩ := State.injMarked_bits (s := s.begin) (inst := inst) hc.inv.regs hbit
  unfold State.bit at hseen hforce ⊢
  generalize finish (s.begin.injSeen src inst) = t at hend ⊢
  generalize s.begin.injMarked src inst = m at hend hmark hstat hseen hforce
  refine ⟨?_, ?_, ?_, hend.dirty.trans hmark⟩
  · exact (congrArg (fun w => Nat.testBit w (src % 32)) (hend.rd (R.SAF_INJ_SEEN (src / 32)) (.head _))).trans hseen
  · exact (congrArg (fun w => Nat.testBit w (srcBit src)) (hend.rd (R.FLT_FORCE _) (.tail _ (.head _)))).trans hforce
  · exact (hend.rd (R.FLT_STAT _) (.tail _ (.tail _ (.head _)))).trans hstat

end

/-! ### The obligation -/

/-- Settles O13: a clear, a forced bit and a lock each write one field of a page header, with which no calm state ends; what an
injection that is seen writes besides is the history's and the trouble log's. -/
theorem faultBitsClearAndForce : Obligations.FaultBitsClearAndForce := by
  unfold Obligations.FaultBitsClearAndForce
  refine ⟨?_, ?_, ?_, ?_, ?_⟩
  · intro s who page mask hc hpage hadmit h0
    have hoff : keyOff (R.FLT_STAT page).key < 0x040 := by
      rw [keyOff_fltStat]
      decide
    have hexec : exec (.fltStatClear who page mask) s = .next (finish (s.begin.fltClear page mask)) := by
      rw [← State.under_of_accept hadmit h0 page (fun s => s.fltClear page mask)]
      rfl
    have hwrite : HeaderWrite (R.FLT_STAT page) s (s.begin.fltClear page mask) := (hc.headerWrite _).wr _
    refine ⟨_, hexec, ?_, hwrite.active_eq hc hoff, hwrite.sameRegs hc hoff, hwrite.sameParts hc hoff⟩
    rw [(hwrite.settled hc hoff).rd (by rwa [keyPage_fltStat])]
    exact State.rd_wr_self _ _ hc.inv.regs
  · intro s who hc hadmit h0 hen hkiln hruns hnone hclear
    have hexec : exec (.faultInject who 0x43 0 false) s = .next (finish (s.begin.forced 48 0x43 0)) :=
      exec_faultInject_of_waiting ⟨hadmit, h0⟩ (l := 56) (by decide) (by decide) (by decide) (by decide) hen hkiln hruns
        (by unfold State.injWaits; rw [hnone]; rfl)
    obtain ⟨hwrite, hwaits⟩ := hc.forced_headerWrite 48 0x43 0
    have hoff := (keyOff_fltForce 0x43).trans_lt (by decide : 0x018 < 0x040)
    have hsettled := hwrite.settled hc hoff
    refine ⟨_, hexec, ?_, ?_, hwrite.sameRegs hc hoff, hwrite.sameParts hc hoff⟩
    · rw [hsettled.rd (by rw [keyPage_fltForce]; decide)]
      exact State.rd_forced_first (s := s.begin) hc.inv.regs hclear
    · rw [hsettled.safe_eq, hwaits, hnone]
      rfl
  · intro s who page bit f l hc hpage hwritable hfirst hbit hlast hnamed hen hkiln hruns hnew
    have hexec := exec_faultInject_of_waiting hwritable hfirst hbit hlast hnamed hen hkiln hruns hnew
    obtain ⟨hwrite, hwaits⟩ := hc.forced_headerWrite f page bit
    have hoff := (keyOff_fltForce page).trans_lt (by decide : 0x018 < 0x040)
    have hsettled := hwrite.settled hc hoff
    refine ⟨_, hexec, ?_, ?_, hwrite.sameRegs hc hoff, hwrite.sameParts hc hoff⟩
    · unfold State.bit
      rw [hsettled.rd (by rwa [keyPage_fltForce])]
      exact State.bit_setBit_self hc.inv.regs hbit
    · rw [hsettled.safe_eq, hwaits]
  · intro s who page bit f l hc hopen hwritable hfirst hbit hlast hnamed hdirect hen hkiln hruns
    obtain ⟨-, hused, -⟩ := hopen
    obtain ⟨hsrcPage, hsrcBit⟩ := srcPage_of_pageFirstSrc hfirst hbit hlast
    have hexec := exec_faultInject hwritable hbit true
    rw [State.inject_of_seen (s := s.begin) hfirst hlast hnamed hen hkiln hruns hdirect] at hexec
    have hend := State.injSeen_ends (src := f + bit) (inst := page - srcPage f 0) hc hused (by rwa [hsrcBit])
    rw [hsrcPage, hsrcBit] at hend
    exact ⟨_, hexec, hend⟩
  · intro s who page hc hpage hadmit h0
    have hoff : keyOff (R.LOCKED page).key < 0x040 := by
      rw [keyOff_locked]
      decide
    have hexec : exec (.pageLock who page) s = .next (finish (s.begin.wr (R.LOCKED page) 1)) := by
      rw [← State.under_of_accept hadmit h0 page (fun s => s.wr (R.LOCKED page) 1)]
      rfl
    have hwrite : HeaderWrite (R.LOCKED page) s (s.begin.wr (R.LOCKED page) 1) := (hc.headerWrite _).wr _
    refine ⟨_, hexec, ?_, hwrite.sameRegs hc hoff, hwrite.sameParts hc hoff⟩
    unfold State.flag
    rw [(hwrite.settled hc hoff).rd (by rwa [keyPage_locked]), State.rd_wr_self (s := s.begin) _ _ hc.inv.regs]
    rfl

end Sys2Proof.Machine
end

section
/-!
PROOFS. Proofs/StoredReadings.lean: a conversion frame stores the readings and the die temperature (R484, R485), and nothing
after them in the frame writes their registers again.
-/

namespace Sys2Proof.Machine

-- One theorem after another, as the text compiles near its memory limit.
set_option Elab.async false

/-! ### What leaves the readings alone -/

/-- The fields of the readings: `IN_VAL` and the die temperature. -/
def ReadingKey (k : Nat) : Prop := (keyPage k = 0xB8 ∧ keyOff k = 0x5C) ∨ k = R.MON_TEMP_DIE_C.key

theorem not_readingKey_of_reactKey {k : Nat} (h : ReactKey k) : ¬ReadingKey k := by
  unfold ReactKey at h
  simp only [ReadingKey, keyPage, keyOff, Fld.key, R.MON_TEMP_DIE_C]
  omega

/-- The readings are in `u` as in `s`; `u` is in canonical form and has no settings to return to. -/
structure HoldsReadings (s u : State) : Prop where
  wf : u.regs.wf = true
  kept : u.update.kept = []
  regs : ∀ k, ReadingKey k → u.regs.get k = s.regs.get k

section

variable {s u : State}

theorem HoldsReadings.refl (hw : s.regs.wf = true) (hk : s.update.kept = []) : HoldsReadings s s := ⟨hw, hk, fun _ _ => rfl⟩

theorem HoldsReadings.same (h : HoldsReadings s u) {t : State} (hregs : t.regs = u.regs := by rfl)
    (hk : t.update.kept = u.update.kept := by rfl) : HoldsReadings s t where
  wf := (congrArg NMap.wf hregs).trans h.wf
  kept := hk.trans h.kept
  regs k hread := (congrArg (NMap.get · k) hregs).trans (h.regs k hread)

theorem HoldsReadings.wr_of_key (h : HoldsReadings s u) {f : Fld} {v : Nat} (hf : ¬ReadingKey f.key) :
    HoldsReadings s (u.wr f v) where
  wf := State.wf_wr _ _ h.wf
  kept := h.kept
  regs k hread := (NMap.get_set_ne _ _ (fun he => hf (by rw [← he]; exact hread))).trans (h.regs k hread)

theorem HoldsReadings.wr (h : HoldsReadings s u) {page off lsb width reset idx v : Nat}
    (hplace : page ≠ 0xB8 ∨ (off ≠ 0x5C ∧ (off ≠ 0x48 ∨ lsb ≠ 0)) := by omega)
    (hoff : off < 4096 := by omega) (hlsb : lsb < 32 := by omega)
    (hidx : idx < 4096 := by omega) : HoldsReadings s (u.wr ⟨page, off, lsb, width, reset, idx⟩ v) :=
  h.wr_of_key (by simp only [ReadingKey, keyPage, keyOff, Fld.key, R.MON_TEMP_DIE_C]; omega)

theorem HoldsReadings.inc (h : HoldsReadings s u) {page off lsb width reset idx : Nat}
    (hplace : page ≠ 0xB8 ∨ (off ≠ 0x5C ∧ (off ≠ 0x48 ∨ lsb ≠ 0)) := by omega)
    (hoff : off < 4096 := by omega) (hlsb : lsb < 32 := by omega)
    (hidx : idx < 4096 := by omega) : HoldsReadings s (u.inc ⟨page, off, lsb, width, reset, idx⟩) :=
  pres_ite (P := HoldsReadings s) h.wr h

theorem HoldsReadings.setBit (h : HoldsReadings s u) {page off lsb width reset idx i : Nat} {b : Bool}
    (hplace : page ≠ 0xB8 ∨ (off ≠ 0x5C ∧ (off ≠ 0x48 ∨ lsb ≠ 0)) := by omega)
    (hoff : off < 4096 := by omega) (hlsb : lsb < 32 := by omega)
    (hidx : idx < 4096 := by omega) : HoldsReadings s (u.setBit ⟨page, off, lsb, width, reset, idx⟩ i b) :=
  pres_ite (P := HoldsReadings s) h h.wr

theorem State.restoreSettings_of_none_kept (hk : u.update.kept = []) : u.restoreSettings = u := by
  unfold State.restoreSettings
  rw [hk]
  rfl

/-- No reaction writes a reading. -/
theorem holdsReadings_reactive (s : State) : Reactive (HoldsReadings s) where
  wr v hf h := h.wr_of_key (not_readingKey_of_reactKey hf)
  parts _ hk h := ⟨h.wf, hk.elim (·.trans h.kept) id, h.regs⟩
  settings h := by rwa [State.restoreSettings_of_none_kept h.kept]
  retire h := h.same
  dies h := h.same
  scrub h := h.same
  latch page b h := h.setBit (hplace := .inr ⟨by omega, .inl (by omega)⟩)

theorem HoldsReadings.detect (h : HoldsReadings s u) {src inst : Nat} : HoldsReadings s (u.detect src inst) :=
  (holdsReadings_reactive s).detect _ _ h

theorem HoldsReadings.setCond (h : HoldsReadings s u) {src inst : Nat} {on : Bool} : HoldsReadings s (u.setCond src inst on) :=
  (holdsReadings_reactive s).setCond _ _ _ h

theorem HoldsReadings.setPack (h : HoldsReadings s u) {p : Nat} {k : Pack} : HoldsReadings s (u.setPack p k) :=
  (holdsReadings_reactive s).setPack _ _ h

/-! ### The rest of the frame, operation for operation -/

theorem HoldsReadings.ranksOff (h : HoldsReadings s u) {mask : Nat} : HoldsReadings s (u.ranksOff mask) :=
  pres_each (P := HoldsReadings s) h (fun _ _ h => pres_each h (fun _ _ h => pres_cond h (fun _ h => h.wr)))

theorem HoldsReadings.clrEnables (h : HoldsReadings s u) {mask : Nat} : HoldsReadings s (u.clrEnables mask) := by
  unfold State.clrEnables
  extract_lets old gone s1 s2
  have hoff : HoldsReadings s s1 := h.wr.ranksOff
  have hfalling : HoldsReadings s s2 := pres_foldl hoff (fun _ _ h => pres_cond h (fun _ h => h.wr))
  exact pres_ite (P := HoldsReadings s) h hfalling.same

theorem HoldsReadings.railFail (h : HoldsReadings s u) {i : Nat} {ov : Bool} : HoldsReadings s (u.railFail i ov) := by
  have hC := holdsReadings_reactive s
  unfold State.railFail
  extract_lets s1 s2 s3 s4 s5 s6 s7
  have hcounted : HoldsReadings s s2 := by
    cases ov with
    | false => exact h.wr.inc
    | true => exact h.wr.inc
  have hlatched : HoldsReadings s s5 :=
    pres_cond hcounted.wr.wr.detect (fun _ h => pres_cond h.setCond (fun _ h => h.detect))
  have hmargins : HoldsReadings s s7 :=
    pres_cond (hC.loseRanks _ hlatched) (fun _ h => hC.showMargins (hC.dropMargin _ h))
  exact pres_cond hmargins (fun _ h => h.clrEnables)

theorem HoldsReadings.railWarns (h : HoldsReadings s u) {i : Nat} {ov : Bool} : HoldsReadings s (u.railWarns i ov) := by
  unfold State.railWarns
  extract_lets s1 s2
  have hcounted : HoldsReadings s s2 := by
    cases ov with
    | false => exact h.wr.inc
    | true => exact h.wr.inc
  exact pres_ite h hcounted.wr.wr.detect

theorem HoldsReadings.railSample (h : HoldsReadings s u) {i : Nat} : HoldsReadings s (u.railSample i) := by
  unfold State.railSample
  extract_lets mv s1
  have hruns : HoldsReadings s s1 := (holdsReadings_reactive s).railRuns _ _ h.wr
  have hstate {v : Nat} : HoldsReadings s (s1.wr (R.SEQ_RAIL_MV_STATE i) v) := hruns.wr
  refine pres_ite hstate (pres_ite hstate (pres_ite (pres_ite hstate hruns) (pres_ite (pres_ite hstate hruns) (pres_ite
    (pres_ite hstate hruns) (pres_ite hstate ?_)))))
  exact pres_ite hruns.railFail (pres_ite hruns.railFail (pres_ite hruns.railWarns (pres_ite hruns.railWarns
    (pres_ite hstate hruns))))

theorem HoldsReadings.sampleRails (h : HoldsReadings s u) : HoldsReadings s u.sampleRails :=
  pres_cond (P := HoldsReadings s) (pres_each h (fun _ _ h => pres_cond h (fun _ h => h.railSample))) (fun _ h => h.setCond)

theorem HoldsReadings.chargeFrame (h : HoldsReadings s u) {f : Frame} : HoldsReadings s (u.chargeFrame f) := by
  unfold State.chargeFrame
  extract_lets s1 est frac _ s2 uc d r s3 sum n _ s4
  have hest : HoldsReadings s s1 := pres_cond h (fun _ h => HoldsReadings.wr h.same)
  have hdrawn : HoldsReadings s s3 := (hest.same (t := s2)).wr.wr
  exact pres_ite hdrawn.same (HoldsReadings.wr (HoldsReadings.wr hdrawn.same))

theorem HoldsReadings.gaugeShow (h : HoldsReadings s u) : HoldsReadings s u.gaugeShow := by
  unfold State.gaugeShow
  extract_lets s1 cs num den e s2 s3 present
  have hpacks : HoldsReadings s s1 := pres_each h (fun _ _ h => h.wr.wr.wr)
  exact pres_ite (pres_cond hpacks.wr.wr.wr (fun _ h => h.detect)) h

theorem HoldsReadings.packJudge (h : HoldsReadings s u) {p : Nat} : HoldsReadings s (u.packJudge p) :=
  pres_ite (P := HoldsReadings s) (pres_cond h.setBit.wr (fun _ h => h.setCond)).gaugeShow h.gaugeShow

theorem HoldsReadings.uncount (h : HoldsReadings s u) {p b : Nat} {on : Bool} : HoldsReadings s (u.uncount p b on) :=
  h.setBit.packJudge

theorem HoldsReadings.packTemp (h : HoldsReadings s u) {p : Nat} {f : Frame} : HoldsReadings s (u.packTemp p f) := by
  unfold State.packTemp
  refine pres_ite h.wr.wr ?_
  split
  · exact pres_cond h.wr.wr.wr (fun _ h => h.detect)
  · dsimp only
    split
    · exact pres_cond h.wr.wr.wr (fun _ h => h.uncount)
    · exact pres_cond h.wr.wr (fun _ h => h.detect.uncount)

theorem HoldsReadings.packInterval (h : HoldsReadings s u) {p : Nat} {iv : Option (Nat × Nat)} {returning : Bool} :
    HoldsReadings s (u.packInterval p iv returning) := by
  unfold State.packInterval
  cases iv with
  | none => exact h
  | some v => exact pres_ite h (pres_cond h.setPack.wr (fun _ h => h.wr.wr))

theorem HoldsReadings.packRi (h : HoldsReadings s u) {p : Nat} {ri : Option Nat} : HoldsReadings s (u.packRi p ri) := by
  unfold State.packRi
  cases ri with
  | none => exact h
  | some v => exact h.setPack.wr

theorem HoldsReadings.chargeCheck (h : HoldsReadings s u) {p : Nat} : HoldsReadings s (u.chargeCheck p) :=
  pres_ite (P := HoldsReadings s) h h.same

theorem HoldsReadings.packFrame (h : HoldsReadings s u) {p : Nat} {f : Frame} : HoldsReadings s (u.packFrame p f) := by
  unfold State.packFrame
  extract_lets uc cells s1 s2 s3 s4 s5 s6
  have hcells : HoldsReadings s s1 := pres_each h (fun _ _ h => h.wr)
  have hcharge : HoldsReadings s s4 := HoldsReadings.wr (HoldsReadings.wr (HoldsReadings.setPack hcells.wr.wr.wr.packTemp))
  have hrest : HoldsReadings s s6 := pres_cond hcharge.packInterval (fun _ h => h.wr)
  exact ((holdsReadings_reactive s).packRamp _ hrest.packRi).chargeCheck

theorem HoldsReadings.occurKind (h : HoldsReadings s u) {row : CodeRow} {ext : Bool} {v : Option Int} :
    HoldsReadings s (u.occurKind row ext v) :=
  pres_ite (P := HoldsReadings s) (pres_cond h.inc (fun _ h => HoldsReadings.detect h.same))
    (pres_cond (pres_cond h.same (fun _ h => h.detect)) (fun _ h => h.detect))

theorem HoldsReadings.showRec (h : HoldsReadings s u) : HoldsReadings s u.showRec := by
  unfold State.showRec
  dsimp only
  split
  · exact h.wr.wr.wr.wr.wr.wr.wr.wr.wr
  · exact h.wr.wr.wr.wr.wr.wr.wr.wr.wr

theorem HoldsReadings.occur (h : HoldsReadings s u) {code : Nat} {v : Option Int} : HoldsReadings s (u.occur code v) := by
  unfold State.occur
  split
  · exact h
  · exact (pres_cond (P := HoldsReadings s) (pres_cond h (fun _ h => h.occurKind)) (fun _ h => h.occurKind)).showRec

/-- The part of a frame that follows its readings and supplies. -/
def State.frameRest (s : State) (f : Frame) : State :=
  let s := (s.sampleRails.chargeFrame f).housekeeping f
  let s := s.packs.foldl (fun s p => s.cond (s.rd (R.PK_STAT_STATE p) != pkAbsent) (fun s => s.packFrame p f)) s
  let s := s.cond (!s.variant.gauge) (fun s => s.wr (R.PK_CURRENT 0) (toField 32 (10 * f.ucA)))
  f.occ.foldl (fun s o => s.occur o.1 o.2) s.gaugeShow

theorem HoldsReadings.frameRest (h : HoldsReadings s u) {f : Frame} : HoldsReadings s (u.frameRest f) := by
  unfold State.frameRest
  extract_lets s1 s2 s3
  have hhouse : HoldsReadings s s1 := (holdsReadings_reactive s).housekeeping _ h.sampleRails.chargeFrame
  have hpacks : HoldsReadings s s2 := pres_foldl hhouse (fun _ _ h => pres_cond h (fun _ h => h.packFrame))
  have hcurrent : HoldsReadings s s3 := pres_cond hpacks (fun _ h => h.wr)
  exact pres_foldl hcurrent.gaugeShow (fun _ _ h => h.occur)

end

/-! ### What is stored -/

/-- A reading and its flags stored, as `State.storeReadings` stores each (R485, R490). -/
def State.storeReading (f : Frame) (s : State) (i : Nat) : State :=
  let stale := s.staleIn i
  let s := (s.wr (R.MON_IN_STAT_ADC i) (s.adcNow i)).wr (R.MON_IN_STAT_STALE i) (b2n stale)
  if stale then s
  else
    ((s.wr (R.MON_IN_VAL_VALUE i) (toField 16 (s.readingOf f i))).wr (R.MON_IN_VAL_RAW i) (f.raw.getD i 0)).wr
      (R.MON_IN_STAT_SAT i) (b2n (f.sat.contains i))

/-- Every ADC of a device with a gauge converts its own inputs: none is calibrated and none has failed its check. -/
structure State.Converts (s : State) : Prop where
  gauge : s.variant.gauge = true
  idle : s.flag R.MON_STAT_CAL_ACTIVE = false
  good : s.cal.badAdc = []

/-- The readings of the inputs below `n` are those of the frame. -/
structure StoredTo (f : Frame) (n : Nat) (s : State) : Prop where
  wf : s.regs.wf = true
  kept : s.update.kept = []
  converts : s.Converts
  value : ∀ i < n, s.rd (R.MON_IN_VAL_VALUE i) = toField 16 (f.value.getD i 0)
  raw : ∀ i < n, s.rd (R.MON_IN_VAL_RAW i) = f.raw.getD i 0 % 65536

theorem toField_lt (w : Nat) (x : Int) : toField w x < 2 ^ w := by
  have hpos : (0 : Int) < 2 ^ w := by positivity
  have hlt := Int.emod_lt_of_pos x hpos
  have hnonneg := Int.emod_nonneg x hpos.ne'
  unfold toField
  zify
  omega

section

variable {f : Frame} {s : State} {i : Nat}

theorem State.Converts.staleIn (h : s.Converts) (i : Nat) : s.staleIn i = false := by
  unfold State.staleIn State.adcAway
  rw [h.idle, h.good]
  rfl

theorem State.Converts.readingOf (h : s.Converts) (i : Nat) : s.readingOf f i = f.value.getD i 0 := by
  unfold State.readingOf
  rw [if_neg (by simp [h.gauge])]

theorem State.Converts.wr (h : s.Converts) {page off lsb width reset idx v : Nat} (hoff : off ≠ 0x44 := by omega)
    (hplace : off < 4096 := by omega) (hlsb : lsb < 32 := by omega) (hidx : idx < 4096 := by omega) :
    (s.wr ⟨page, off, lsb, width, reset, idx⟩ v).Converts where
  gauge := h.gauge
  idle := by
    have hne : R.MON_STAT_CAL_ACTIVE.key ≠ (Fld.mk page off lsb width reset idx).key := by
      simp only [Fld.key, R.MON_STAT_CAL_ACTIVE]
      omega
    unfold State.flag
    rw [State.rd_wr_ne _ _ hne]
    exact h.idle
  good := h.good

theorem State.Converts.storeReading_eq (h : s.Converts) :
    s.storeReading f i = ((((s.wr (R.MON_IN_STAT_ADC i) (s.adcNow i)).wr (R.MON_IN_STAT_STALE i) 0).wr (R.MON_IN_VAL_VALUE i)
      (toField 16 (f.value.getD i 0))).wr (R.MON_IN_VAL_RAW i) (f.raw.getD i 0)).wr (R.MON_IN_STAT_SAT i)
        (b2n (f.sat.contains i)) := by
  have hread : ((s.wr (R.MON_IN_STAT_ADC i) (s.adcNow i)).wr (R.MON_IN_STAT_STALE i) 0).readingOf f i = f.value.getD i 0 :=
    State.Converts.readingOf (State.Converts.wr (State.Converts.wr h)) i
  unfold State.storeReading
  rw [h.staleIn]
  simp only [Bool.false_eq_true, if_false, b2n]
  rw [hread]

theorem State.Converts.storeReading (h : s.Converts) : (s.storeReading f i).Converts := by
  rw [h.storeReading_eq]
  exact h.wr.wr.wr.wr.wr

/-- The fields of another input, and of the page beside `IN_VAL` and `IN_STAT`, stay. -/
theorem State.Converts.rd_storeReading_ne (h : s.Converts) {g : Fld} (hadc : g.key ≠ (R.MON_IN_STAT_ADC i).key)
    (hstale : g.key ≠ (R.MON_IN_STAT_STALE i).key) (hvalue : g.key ≠ (R.MON_IN_VAL_VALUE i).key)
    (hraw : g.key ≠ (R.MON_IN_VAL_RAW i).key) (hsat : g.key ≠ (R.MON_IN_STAT_SAT i).key) :
    (s.storeReading f i).rd g = s.rd g := by
  rw [h.storeReading_eq, State.rd_wr_ne _ _ hsat, State.rd_wr_ne _ _ hraw, State.rd_wr_ne _ _ hvalue,
    State.rd_wr_ne _ _ hstale, State.rd_wr_ne _ _ hadc]

theorem State.Converts.rd_storeReading (h : s.Converts) (hw : s.regs.wf = true) :
    (s.storeReading f i).rd (R.MON_IN_VAL_VALUE i) = toField 16 (f.value.getD i 0) ∧
      (s.storeReading f i).rd (R.MON_IN_VAL_RAW i) = f.raw.getD i 0 % 65536 := by
  have hwf : ((s.wr (R.MON_IN_STAT_ADC i) (s.adcNow i)).wr (R.MON_IN_STAT_STALE i) 0).regs.wf = true :=
    State.wf_wr _ _ (State.wf_wr _ _ hw)
  rw [h.storeReading_eq]
  constructor
  · rw [State.rd_wr_ne _ _ (by simp only [Fld.key, R.MON_IN_VAL_VALUE, R.MON_IN_STAT_SAT]; omega),
      State.rd_wr_ne _ _ (by simp only [Fld.key, R.MON_IN_VAL_VALUE, R.MON_IN_VAL_RAW]; omega), State.rd_wr_self _ _ hwf]
    exact Nat.mod_eq_of_lt (toField_lt 16 _)
  · rw [State.rd_wr_ne _ _ (by simp only [Fld.key, R.MON_IN_VAL_RAW, R.MON_IN_STAT_SAT]; omega),
      State.rd_wr_self _ _ (State.wf_wr _ _ hwf)]
    rfl

theorem StoredTo.storeReading {n : Nat} (h : StoredTo f n s) (hn : n < 48) : StoredTo f (n + 1) (State.storeReading f s n) where
  wf := by
    rw [h.converts.storeReading_eq]
    exact State.wf_wr _ _ (State.wf_wr _ _ (State.wf_wr _ _ (State.wf_wr _ _ (State.wf_wr _ _ h.wf))))
  kept := by
    rw [h.converts.storeReading_eq]
    exact h.kept
  converts := h.converts.storeReading
  value i hi := by
    rcases Nat.lt_succ_iff_lt_or_eq.mp hi with hlt | rfl
    · rw [h.converts.rd_storeReading_ne (by simp only [Fld.key, R.MON_IN_VAL_VALUE, R.MON_IN_STAT_ADC]; omega)
        (by simp only [Fld.key, R.MON_IN_VAL_VALUE, R.MON_IN_STAT_STALE]; omega)
        (by simp only [Fld.key, R.MON_IN_VAL_VALUE]; omega)
        (by simp only [Fld.key, R.MON_IN_VAL_VALUE, R.MON_IN_VAL_RAW]; omega)
        (by simp only [Fld.key, R.MON_IN_VAL_VALUE, R.MON_IN_STAT_SAT]; omega)]
      exact h.value i hlt
    · exact (h.converts.rd_storeReading h.wf).1
  raw i hi := by
    rcases Nat.lt_succ_iff_lt_or_eq.mp hi with hlt | rfl
    · rw [h.converts.rd_storeReading_ne (by simp only [Fld.key, R.MON_IN_VAL_RAW, R.MON_IN_STAT_ADC]; omega)
        (by simp only [Fld.key, R.MON_IN_VAL_RAW, R.MON_IN_STAT_STALE]; omega)
        (by simp only [Fld.key, R.MON_IN_VAL_RAW, R.MON_IN_VAL_VALUE]; omega)
        (by simp only [Fld.key, R.MON_IN_VAL_RAW]; omega)
        (by simp only [Fld.key, R.MON_IN_VAL_RAW, R.MON_IN_STAT_SAT]; omega)]
      exact h.raw i hlt
    · exact (h.converts.rd_storeReading h.wf).2

theorem StoredTo.each (h : StoredTo f 0 s) : ∀ n ≤ 48, StoredTo f n (s.each n (State.storeReading f)) := by
  intro n hn
  unfold State.each
  induction n with
  | zero => exact h
  | succ n ih =>
    rw [List.range_succ, List.foldl_append]
    exact (ih (by omega)).storeReading (by omega)

/-- Nothing waits for the edge of this frame (R492, R497). -/
theorem State.frameEdge_of_nothing_waits (hbanks : s.cal.banks = []) (hswaps : s.cal.swaps = []) (htrim : s.cal.trimLeft = []) :
    s.frameEdge = s := by
  unfold State.frameEdge
  simp only [hbanks, hswaps, htrim, List.foldl_nil, List.map_nil, List.filter_nil]
  have hcal : { s.cal with banks := [], swaps := [], trimLeft := [] } = s.cal := by
    rw [← hbanks, ← hswaps, ← htrim]
  rw [hcal]

theorem State.storeReadings_holds (hw : (s.each 48 (State.storeReading f)).regs.wf = true)
    (hk : (s.each 48 (State.storeReading f)).update.kept = []) :
    HoldsReadings (s.each 48 (State.storeReading f)) (s.storeReadings f) :=
  pres_cond (HoldsReadings.wr (HoldsReadings.wr (.refl hw hk))) (fun _ h => h.detect)

/-- Of the readings, the supplies write the die temperature, once. -/
theorem State.storeSupplies_writes_die (hw : s.regs.wf = true) (hk : s.update.kept = []) :
    ∃ u, HoldsReadings s u ∧ HoldsReadings (u.wr R.MON_TEMP_DIE_C (toField 8 f.die)) (s.storeSupplies f) := by
  unfold State.storeSupplies
  extract_lets hub s1 ma s2 _ s3 old s4 s5 s6
  have hshown : HoldsReadings s s2 := HoldsReadings.wr (HoldsReadings.wr (HoldsReadings.wr (.refl hw hk)))
  have hsupplies : HoldsReadings s s3 := hshown.same
  refine ⟨s3, hsupplies, ?_⟩
  have hdie : HoldsReadings (s3.wr R.MON_TEMP_DIE_C (toField 8 f.die)) (s3.wr R.MON_TEMP_DIE_C (toField 8 f.die)) :=
    .refl (State.wf_wr _ _ hsupplies.wf) hsupplies.kept
  have hnoted : HoldsReadings (s3.wr R.MON_TEMP_DIE_C (toField 8 f.die)) s4 :=
    pres_cond hdie (fun _ h => (holdsReadings_reactive _).healthNote h)
  have hpeak : HoldsReadings (s3.wr R.MON_TEMP_DIE_C (toField 8 f.die)) s5 := pres_cond hnoted (fun _ h => h.wr)
  exact pres_cond (pres_cond hpeak (fun _ h => h.detect)) (fun _ h => h.detect)

end

section

variable {s u : State} {i : Nat}

theorem HoldsReadings.trans {t : State} (h : HoldsReadings s u) (h' : HoldsReadings u t) : HoldsReadings s t where
  wf := h'.wf
  kept := h'.kept
  regs k hread := (h'.regs k hread).trans (h.regs k hread)

theorem HoldsReadings.rd_of_key (h : HoldsReadings s u) {g : Fld} (hread : ReadingKey g.key) : u.rd g = s.rd g := by
  unfold State.rd RegFile.rd
  rw [h.regs g.key hread]

theorem HoldsReadings.rd_value (h : HoldsReadings s u) : u.rd (R.MON_IN_VAL_VALUE i) = s.rd (R.MON_IN_VAL_VALUE i) :=
  h.rd_of_key (.inl (by simp only [keyPage, keyOff, Fld.key, R.MON_IN_VAL_VALUE]; omega))

theorem HoldsReadings.rd_raw (h : HoldsReadings s u) : u.rd (R.MON_IN_VAL_RAW i) = s.rd (R.MON_IN_VAL_RAW i) :=
  h.rd_of_key (.inl (by simp only [keyPage, keyOff, Fld.key, R.MON_IN_VAL_RAW]; omega))

theorem HoldsReadings.rd_die (h : HoldsReadings s u) : u.rd R.MON_TEMP_DIE_C = s.rd R.MON_TEMP_DIE_C :=
  h.rd_of_key (.inr rfl)

/-- R484, R485: what a frame of a device that converts leaves in the registers of its readings. -/
theorem State.Converts.rd_frame {f : Frame} (h : s.Converts) (hw : s.regs.wf = true) (hk : s.update.kept = [])
    (hedge : s.frameEdge = s) (hi : i < 48) :
    (finish (s.frame f)).rd (R.MON_IN_VAL_VALUE i) = toField 16 (f.value.getD i 0) ∧
      (finish (s.frame f)).rd (R.MON_IN_VAL_RAW i) = f.raw.getD i 0 % 65536 ∧
      (finish (s.frame f)).rd R.MON_TEMP_DIE_C = toField 8 f.die := by
  have hstored : StoredTo f 48 (s.each 48 (State.storeReading f)) :=
    StoredTo.each ⟨hw, hk, h, fun _ h => absurd h (Nat.not_lt_zero _), fun _ h => absurd h (Nat.not_lt_zero _)⟩ 48 le_rfl
  have hread : HoldsReadings (s.each 48 (State.storeReading f)) (s.storeReadings f) :=
    State.storeReadings_holds hstored.wf hstored.kept
  obtain ⟨u, hsupplies, hdie⟩ := State.storeSupplies_writes_die (f := f) hread.wf hread.kept
  have hbefore : HoldsReadings (s.each 48 (State.storeReading f)) u := hread.trans hsupplies
  have hframe : s.frame f = ((s.storeReadings f).storeSupplies f).frameRest f :=
    congrArg (fun t : State => ((t.storeReadings f).storeSupplies f).frameRest f) hedge
  have hafter : HoldsReadings (u.wr R.MON_TEMP_DIE_C (toField 8 f.die)) (finish (s.frame f)) := by
    rw [hframe]
    exact (holdsReadings_reactive _).finish hdie.frameRest
  refine ⟨?_, ?_, ?_⟩
  · rw [hafter.rd_value, State.rd_wr_ne _ _ (by simp only [Fld.key, R.MON_IN_VAL_VALUE, R.MON_TEMP_DIE_C]; omega),
      hbefore.rd_value, hstored.value i hi]
  · rw [hafter.rd_raw, State.rd_wr_ne _ _ (by simp only [Fld.key, R.MON_IN_VAL_RAW, R.MON_TEMP_DIE_C]; omega),
      hbefore.rd_raw, hstored.raw i hi]
  · rw [hafter.rd_die, State.rd_wr_self _ _ hbefore.wf]
    exact Nat.mod_eq_of_lt (toField_lt 8 _)

end

/-- Settles O8: the readings are stored one input after another, then the die temperature; no later part of the frame and
no reaction writes them. -/
theorem readingsAreStored : Obligations.ReadingsAreStored := by
  unfold Obligations.ReadingsAreStored
  intro s f i hs hi hgauge hidle hgood hbanks hswaps htrim
  exact ⟨_, rfl, State.Converts.rd_frame (s := s.begin) ⟨hgauge, hidle, hgood⟩ hs.inv.regs hs.kept
    (State.frameEdge_of_nothing_waits (s := s.begin) hbanks hswaps htrim) hi⟩

end Sys2Proof.Machine
end

section
/-!
PROOFS. Proofs/QuietCommands.lean: the commands of `Instr.quietOnRegs` write no register but those that reactions write too, operation for
operation (O6).
-/

namespace Sys2Proof.Machine

-- One theorem after another, as the text compiles near its memory limit.
set_option Elab.async false

/-! ### What leaves the steady registers alone -/

/-- The place of a field that is not steady, as `Fld.reactive` says. -/
def ReactivePlace (page off : Nat) : Prop :=
  off < 0x40 ∨ (page = 0x00 ∧ 0x50 ≤ off ∧ off < 0x68) ∨ page = 0x02 ∨ page = 0x10 ∨ page = 0x11 ∨ (page = 0x41 ∧ off = 0x4C) ∨
    page = 0x42 ∨ page = 0x43 ∨ page = 0x80 ∨ (0x90 ≤ page ∧ page ≤ 0x95) ∨ page = 0xA0 ∨
    (page = 0xB0 ∧ 0x80 ≤ off ∧ off < 0xC0) ∨ (page = 0xB8 ∧ off = 0x44) ∨ page = 0xB9 ∨ page = 0xC0 ∨ page = 0xC8 ∨
    (page = 0xD8 ∧ off = 0x4C) ∨ page = 0xD1 ∨ ((page = 0xA9 ∨ page = 0xAA) ∧ off = 0xA0)

/-- The steady registers are in `u` as in `s`, and `u` has no settings to return to. -/
structure KeepsSteady (s u : State) : Prop where
  kept : u.update.kept = []
  regs : ∀ k, ¬ReactivePlace (keyPage k) (keyOff k) → u.regs.get k = s.regs.get k

theorem not_reactivePlace_of_steady {f : Fld} (h : f.reactive = false) : ¬ReactivePlace f.page f.off := by
  unfold Fld.reactive at h
  unfold ReactivePlace
  simp at h
  omega

section

variable {s u : State}

theorem KeepsSteady.refl (hk : s.update.kept = []) : KeepsSteady s s := ⟨hk, fun _ _ => rfl⟩

theorem KeepsSteady.steadyRegsBut (h : KeepsSteady s u) : SteadyRegsBut s u [] := by
  intro f hsteady hoff hlsb hidx _
  have hplace : ¬ReactivePlace (keyPage f.key) (keyOff f.key) := by
    rw [Fld.keyPage_key hoff hlsb hidx, Fld.keyOff_key hoff hlsb hidx]
    exact not_reactivePlace_of_steady hsteady
  unfold State.rd RegFile.rd
  rw [h.regs _ hplace]

theorem KeepsSteady.same (h : KeepsSteady s u) {t : State} (hregs : t.regs = u.regs := by rfl)
    (hk : t.update.kept = u.update.kept := by rfl) : KeepsSteady s t where
  kept := hk.trans h.kept
  regs k hplace := (congrArg (NMap.get · k) hregs).trans (h.regs k hplace)

theorem KeepsSteady.wr_of_key (h : KeepsSteady s u) {f : Fld} {v : Nat} (hf : ReactivePlace (keyPage f.key) (keyOff f.key)) :
    KeepsSteady s (u.wr f v) where
  kept := h.kept
  regs k hplace := (NMap.get_set_ne _ _ (fun he => hplace (by rw [he]; exact hf))).trans (h.regs k hplace)

theorem KeepsSteady.wr (h : KeepsSteady s u) {page off lsb width reset idx v : Nat}
    (hplace : ReactivePlace page off := by unfold ReactivePlace; omega) (hoff : off < 4096 := by omega)
    (hlsb : lsb < 32 := by omega) (hidx : idx < 4096 := by omega) :
    KeepsSteady s (u.wr ⟨page, off, lsb, width, reset, idx⟩ v) :=
  h.wr_of_key (by rwa [Fld.keyPage_key hoff hlsb hidx, Fld.keyOff_key hoff hlsb hidx])

theorem KeepsSteady.inc (h : KeepsSteady s u) {page off lsb width reset idx : Nat}
    (hplace : ReactivePlace page off := by unfold ReactivePlace; omega) (hoff : off < 4096 := by omega)
    (hlsb : lsb < 32 := by omega) (hidx : idx < 4096 := by omega) :
    KeepsSteady s (u.inc ⟨page, off, lsb, width, reset, idx⟩) :=
  pres_ite (P := KeepsSteady s) (h.wr hplace hoff hlsb hidx) h

theorem KeepsSteady.setBit (h : KeepsSteady s u) {page off lsb width reset idx i : Nat} {b : Bool}
    (hplace : ReactivePlace page off := by unfold ReactivePlace; omega) (hoff : off < 4096 := by omega)
    (hlsb : lsb < 32 := by omega) (hidx : idx < 4096 := by omega) :
    KeepsSteady s (u.setBit ⟨page, off, lsb, width, reset, idx⟩ i b) :=
  pres_ite (P := KeepsSteady s) h (h.wr hplace hoff hlsb hidx)

/-- No reaction writes a steady register. -/
theorem keepsSteady_reactive (s : State) : Reactive (KeepsSteady s) where
  wr v hf h := h.wr_of_key hf.2
  parts _ hk h := ⟨hk.elim (·.trans h.kept) id, h.regs⟩
  settings h := by
    unfold State.restoreSettings
    rwa [h.kept]
  retire h := h.same
  dies h := h.same
  scrub h := h.same
  latch page b h := h.setBit

/-! ### Operations that only commands run -/

theorem KeepsSteady.begin (h : KeepsSteady s u) : KeepsSteady s u.begin := h.same

theorem KeepsSteady.hold (h : KeepsSteady s u) {c : Instr} : KeepsSteady s (u.hold c) := h.same

theorem KeepsSteady.command (h : KeepsSteady s u) {c : Instr} {a : Admit} {page : Nat} {f : State → State}
    (hf : ∀ t, KeepsSteady s t → KeepsSteady s (f t)) : KeepsSteady s (u.command c a page f) :=
  (keepsSteady_reactive s).under _ _ _ (fun _ h => pres_ite (hf _ h) h.hold) h

theorem KeepsSteady.fltClear (h : KeepsSteady s u) {page mask : Nat} : KeepsSteady s (u.fltClear page mask) := h.wr

theorem KeepsSteady.maintClose (h : KeepsSteady s u) : KeepsSteady s u.maintClose :=
  pres_ite (P := KeepsSteady s)
    ((keepsSteady_reactive s).maintLog _ ((keepsSteady_reactive s).easeMargins h.same)) h

theorem KeepsSteady.setHost (h : KeepsSteady s u) {p : Nat} {k : HostPort} : KeepsSteady s (u.setHost p k) :=
  (keepsSteady_reactive s).setHost _ _ h

theorem KeepsSteady.restExit (h : KeepsSteady s u) : KeepsSteady s u.restExit := (keepsSteady_reactive s).restExit h

theorem KeepsSteady.reply (h : KeepsSteady s u) {p rc : Nat} {words : List Nat} : KeepsSteady s (u.reply p rc words) :=
  (keepsSteady_reactive s).reply _ _ _ h

theorem KeepsSteady.detect (h : KeepsSteady s u) {src inst : Nat} : KeepsSteady s (u.detect src inst) :=
  (keepsSteady_reactive s).detect _ _ h

theorem KeepsSteady.setCond (h : KeepsSteady s u) {src inst : Nat} {on : Bool} : KeepsSteady s (u.setCond src inst on) :=
  (keepsSteady_reactive s).setCond _ _ _ h

theorem KeepsSteady.reject (h : KeepsSteady s u) {page : Nat} : KeepsSteady s (u.reject page) :=
  (keepsSteady_reactive s).reject _ h

/-! The host ports and their mailbox -/

theorem KeepsSteady.dropHeld (h : KeepsSteady s u) {p : Nat} : KeepsSteady s (u.dropHeld p) := h.same

theorem KeepsSteady.resetPort (h : KeepsSteady s u) {p : Nat} : KeepsSteady s (u.resetPort p) := by
  unfold State.resetPort
  extract_lets k keep s1 s2 s3 s4
  have hdropped : KeepsSteady s s2 := KeepsSteady.dropHeld h.setHost
  exact (keepsSteady_reactive s).dropLink _ (KeepsSteady.wr (KeepsSteady.wr (KeepsSteady.wr hdropped.wr.wr.wr)))

theorem KeepsSteady.portReset (h : KeepsSteady s u) {p : Nat} {perst : Bool} : KeepsSteady s (u.portReset p perst) :=
  have hnamed : KeepsSteady s (u.cond perst (fun u => u.setHost p { u.host p with perstN := false })) :=
    pres_cond h (fun _ h => h.setHost)
  pres_ite (P := KeepsSteady s) hnamed.restExit.resetPort hnamed

theorem KeepsSteady.gpfRequest (h : KeepsSteady s u) {p : Nat} : KeepsSteady s (u.gpfRequest p) :=
  (h.setHost (p := p) (k := { u.host p with gpfWait := true })).same

theorem KeepsSteady.mbox (h : KeepsSteady s u) {c : Instr} {p op : Nat} {early admin : Bool} {body : State → State}
    (hbody : ∀ t, KeepsSteady s t → KeepsSteady s (body t)) : KeepsSteady s (u.mbox c p op early admin body) := by
  have hopen : KeepsSteady s ((u.wr (R.HP_MBOX_BUSY p) 0).wr (R.HP_MBOX_OPCODE p) op).restExit :=
    KeepsSteady.restExit h.wr.wr
  exact pres_ite h (pres_ite (KeepsSteady.hold (KeepsSteady.wr h.setHost))
    (pres_ite hopen.reply (pres_ite hopen.reply (hbody _ hopen))))

theorem KeepsSteady.mboxRead (h : KeepsSteady s u) {c : Instr} {p op : Nat} {early : Bool} {words : State → List Nat} :
    KeepsSteady s (u.mboxRead c p op early words) :=
  h.mbox (fun _ h => h.reply)

theorem KeepsSteady.updBox (h : KeepsSteady s u) {c : Instr} {p op : Nat} {body : State → State}
    (hbody : ∀ t, KeepsSteady s t → KeepsSteady s (body t)) : KeepsSteady s (u.updBox c p op body) :=
  pres_ite (P := KeepsSteady s) (pres_ite (hbody _ h.wr) h) (h.mbox hbody)

theorem KeepsSteady.openReply (h : KeepsSteady s u) {p : Nat} : KeepsSteady s (u.openReply p) :=
  KeepsSteady.reply (u := (u.takeFree 32).2) h.same

theorem KeepsSteady.clearEvents (h : KeepsSteady s u) {p log : Nat} {all : Bool} {handles : List Nat} :
    KeepsSteady s (u.clearEvents p log all handles) := by
  unfold State.clearEvents
  extract_lets k l l' s1
  have hlog : KeepsSteady s s1 := by
    have hset : KeepsSteady s (u.setHost p { k with logs := k.logs.set log l' }) := h.setHost
    unfold s1 evtPend
    split
    · exact hset.wr
    · exact hset.wr
    · exact hset.wr
    · exact hset.wr
  exact pres_ite h.reply (pres_cond hlog (fun _ h => h.setBit)).reply

theorem KeepsSteady.relistCopies (h : KeepsSteady s u) {p : Nat} : KeepsSteady s (u.relistCopies p) :=
  pres_foldl (P := KeepsSteady s) h (fun _ _ h => pres_ite ((keepsSteady_reactive s).listAt _ _ _ _ h) h)

theorem KeepsSteady.relist (h : KeepsSteady s u) {p : Nat} : KeepsSteady s (u.relist p) := by
  unfold State.relist
  extract_lets _ s1 lost s2 lo
  have hshown : KeepsSteady s s1 := (keepsSteady_reactive s).showPoison _ h.setHost
  have hlost : KeepsSteady s s2 := pres_foldl hshown (fun _ _ h => (keepsSteady_reactive s).listAt _ _ _ _ h)
  exact KeepsSteady.relistCopies ((keepsSteady_reactive s).relistLines _ _ _ hlost)

theorem KeepsSteady.setPartition (h : KeepsSteady s u) {p aB aN bB bN : Nat} :
    KeepsSteady s (u.setPartition p aB aN bB bN) := by
  unfold State.setPartition
  extract_lets units two outside _ s1 s2 s3
  have hpartitioned : KeepsSteady s s1 := h.same
  have hslices : KeepsSteady s s3 := pres_cond hpartitioned.wr.wr (fun _ h => h.wr.wr)
  have hlists : KeepsSteady s (s3.each s3.variant.ports State.relist) := pres_each hslices (fun _ _ h => h.relist)
  exact pres_ite h.reply (pres_ite h.reply hlists.reply)

/-! Queues -/

theorem KeepsSteady.setQueue (h : KeepsSteady s u) {c : Queue} : KeepsSteady s (u.setQueue c) :=
  (keepsSteady_reactive s).setQueue _ h

theorem KeepsSteady.setCmd (h : KeepsSteady s u) {q : Nat} {k : RunCmd} : KeepsSteady s (u.setCmd q k) :=
  (keepsSteady_reactive s).setCmd _ _ h

theorem KeepsSteady.advance (h : KeepsSteady s u) {q : Nat} {k : RunCmd} {d : Desc} {upTo n : Nat} :
    KeepsSteady s (u.advance q k d upTo n) :=
  (keepsSteady_reactive s).advance _ _ _ _ _ h

theorem KeepsSteady.releaseHeld (h : KeepsSteady s u) {q n : Nat} : KeepsSteady s (u.releaseHeld q n) := by
  induction n generalizing u with
  | zero => exact h
  | succ n ih =>
    unfold State.releaseHeld
    dsimp only
    split
    · exact h.setQueue
    · exact pres_ite (ih ((keepsSteady_reactive s).postCompletion _ _ h.setQueue)) h

theorem KeepsSteady.cqHead (h : KeepsSteady s u) {q head : Nat} : KeepsSteady s (u.cqHead q head) :=
  have hC := keepsSteady_reactive s
  pres_ite (P := KeepsSteady s) h (pres_ite (hC.badDoorbell _ h)
    (hC.settleQueue _ (hC.startQueue _ (KeepsSteady.releaseHeld h.setQueue))))

theorem KeepsSteady.enableQueue (h : KeepsSteady s u) {p q : Nat} : KeepsSteady s (u.enableQueue p q) :=
  have hC := keepsSteady_reactive s
  pres_ite (P := KeepsSteady s) h (pres_ite h.reject (hC.showQueues (hC.postRecord _ h.setQueue)))

theorem KeepsSteady.runNop (h : KeepsSteady s u) {q cid : Nat} : KeepsSteady s (u.runNop q cid) :=
  pres_runElem h (fun _ _ _ h => h.advance)

theorem KeepsSteady.runRack (h : KeepsSteady s u) {q cid op : Nat} : KeepsSteady s (u.runRack q cid op) :=
  pres_runElem h (fun _ _ _ h => pres_cond h.setCmd (fun _ h => (keepsSteady_reactive s).rackFills _ h))

theorem KeepsSteady.runPin (h : KeepsSteady s u) {q cid : Nat} : KeepsSteady s (u.runPin q cid) :=
  pres_runElem h (fun _ _ _ h => pres_ite h.setCmd.detect (KeepsSteady.advance (KeepsSteady.wr h.same)))

theorem KeepsSteady.runQuery (h : KeepsSteady s u) {q cid : Nat} {ok : Bool} : KeepsSteady s (u.runQuery q cid ok) :=
  pres_runElem h (fun _ _ _ h => pres_ite (KeepsSteady.advance ((keepsSteady_reactive s).send _ h)) h.setCmd)

theorem KeepsSteady.setLevel (h : KeepsSteady s u) {r v : Nat} : KeepsSteady s (u.setLevel r v) := h.same

theorem KeepsSteady.runHint (h : KeepsSteady s u) {q cid n : Nat} : KeepsSteady s (u.runHint q cid n) := by
  refine pres_runElem h (fun t k d h => ?_)
  dsimp only
  refine KeepsSteady.advance ?_
  exact pres_foldl_fst h (fun _ _ h => (keepsSteady_reactive s).hintRegion _ h.setLevel)

/-! Faults, clocks and calibration -/

theorem KeepsSteady.clearLatches (h : KeepsSteady s u) {src : Nat} : KeepsSteady s (u.clearLatches src) :=
  pres_each (P := KeepsSteady s) h (fun _ _ h => h.setBit)

theorem KeepsSteady.quietOver (h : KeepsSteady s u) : KeepsSteady s u.quietOver := by
  unfold State.quietOver
  extract_lets gone s1 _ s2
  have hcleared : KeepsSteady s s1 := pres_foldl h (fun _ _ h => h.clearLatches)
  have hended : KeepsSteady s s2 := hcleared.same
  exact pres_ite h ((keepsSteady_reactive s).notice _ hended.wr.inc)

theorem KeepsSteady.clockBad (h : KeepsSteady s u) {d : Nat} : KeepsSteady s (u.clockBad d) :=
  pres_ite (P := KeepsSteady s) h (pres_foldl h.same (fun _ _ h => h.setCond))

theorem KeepsSteady.clockGood (h : KeepsSteady s u) {d : Nat} : KeepsSteady s (u.clockGood d) :=
  pres_ite (P := KeepsSteady s) (pres_foldl h.same (fun _ _ h => h.setCond)) h

theorem KeepsSteady.calRun (h : KeepsSteady s u) {who : Option Requester} : KeepsSteady s (u.calRun who) := by
  unfold State.calRun
  cases who with
  | none => exact pres_cond h (fun _ h => (keepsSteady_reactive s).calTrigger h)
  | some w => exact h.command (fun _ h => (keepsSteady_reactive s).calTrigger h.wr)

theorem KeepsSteady.moduleCal (h : KeepsSteady s u) {uv : Nat} : KeepsSteady s (u.moduleCal uv) := by
  unfold State.moduleCal
  extract_lets v _ s1
  have hrecord : KeepsSteady s s1 := h.same
  exact pres_ite h.reject (pres_ite h.reject hrecord.wr.wr.wr)

theorem KeepsSteady.scrubStart (h : KeepsSteady s u) : KeepsSteady s u.scrubStart :=
  pres_ite (P := KeepsSteady s) h (pres_ite h.same h.same)

theorem KeepsSteady.hostEnergyOut (h : KeepsSteady s u) : KeepsSteady s u.hostEnergyOut :=
  pres_ite (P := KeepsSteady s) h (KeepsSteady.detect h.same)

theorem KeepsSteady.clearRail (h : KeepsSteady s u) {i : Nat} : KeepsSteady s (u.clearRail i) := by
  refine pres_each (P := KeepsSteady s) h (fun t k h => ?_)
  unfold railCounter
  split
  · exact h.wr
  · exact h.wr
  · exact h.wr
  · exact h.wr
  · exact h.wr
  · exact h.wr

/-! Updates and guests -/

theorem KeepsSteady.bootWrite (h : KeepsSteady s u) {bank svn : Nat} {trial : Bool} : KeepsSteady s (u.bootWrite bank svn trial) :=
  h.same

theorem KeepsSteady.activateReset (h : KeepsSteady s u) {p : Nat} {cxl : Bool} : KeepsSteady s (u.activateReset p cxl).1 := by
  unfold State.activateReset
  dsimp only
  split
  · exact h
  · exact pres_ite_fst h (pres_ite_fst h h.bootWrite.wr)

/-- A trial that is confirmed has no settings to return to any more (R525). -/
theorem KeepsSteady.settingsForgotten (h : KeepsSteady s u) {t : State} (hregs : t.regs = u.regs) (hk : t.update.kept = []) :
    KeepsSteady s t :=
  h.same hregs (hk.trans h.kept.symm)

theorem KeepsSteady.confirm (h : KeepsSteady s u) : KeepsSteady s u.confirm := by
  have hC := keepsSteady_reactive s
  unfold State.confirm
  extract_lets b
  split
  · exact h
  · extract_lets s1 gen s2 cur _ s3 s4 s5
    have hbooted : KeepsSteady s s2 := KeepsSteady.wr h.bootWrite
    have hforgotten : KeepsSteady s s3 := hbooted.settingsForgotten rfl rfl
    have hshown : KeepsSteady s s4 := hforgotten.wr.wr.wr.wr
    have hended : KeepsSteady s s5 := hshown.wr.wr.wr
    exact hC.vendor _ _ _ (KeepsSteady.inc (hC.freeLock hended))

theorem KeepsSteady.windowEnd (h : KeepsSteady s u) {cmpOk shedOk romOk : Bool} :
    KeepsSteady s (u.windowEnd cmpOk shedOk romOk) :=
  have htested : KeepsSteady s (u.selfTest cmpOk shedOk romOk) := (keepsSteady_reactive s).selfTest _ _ _ h
  pres_ite (P := KeepsSteady s) h (pres_ite htested.confirm ((keepsSteady_reactive s).fallback htested))

theorem KeepsSteady.countUsed (h : KeepsSteady s u) {n : Nat} : KeepsSteady s (u.countUsed n) := h.same

theorem KeepsSteady.countDone (h : KeepsSteady s u) {n : Nat} : KeepsSteady s (u.countDone n) := h.same

theorem KeepsSteady.guestCommit (h : KeepsSteady s u) {slot region : Nat} : KeepsSteady s (u.guestCommit slot region) := by
  have hC := keepsSteady_reactive s
  unfold State.guestCommit
  split
  · exact pres_ite h (hC.ackTo _ _ _ _ (KeepsSteady.countUsed
      (pres_cond (hC.putGuest _ h.same) (fun _ h => h.countDone))))
  · exact h
  · exact h

end

/-! ### The commands -/

/-- Each quiet command is a composition of operations that leave the steady registers alone, and of the end of a command. -/
theorem KeepsSteady.afterNext_exec {s : State} (h : KeepsSteady s s) {c : Instr} (hq : c.quietOnRegs = true) :
    AfterNext (KeepsSteady s) (exec c s) := by
  have C := keepsSteady_reactive s
  cases c
  case enableClear => exact C.finish (h.begin.command (fun _ h => C.enableClear _ h))
  case enableSet => exact C.finish (h.begin.command (fun _ h => C.enableSet _ h))
  case fltStatClear => exact C.finish (C.under _ _ _ (fun _ h => h.fltClear) h.begin)
  case faultInject => exact C.finish (C.under _ _ _ (fun _ h => C.inject _ _ _ h) h.begin)
  case pageLock => exact C.finish (C.under _ _ _ (fun _ h => h.wr) h.begin)
  case maintIdleTimeout => exact C.finish h.begin.maintClose
  case maintStrapLow => exact C.finish h.begin.same.maintClose
  case portReset => exact C.finish h.begin.portReset
  case linkDown => exact C.finish (C.linkDown _ h.begin)
  case decoderCommit => exact C.finish (C.decoderCommit _ _ _ _ _ _ (C.restExit h.begin))
  case gpfPhase1 => exact C.finish (pres_cond h.begin (fun _ h => C.send _ (C.restExit h)))
  case gpfPhase2Request => exact C.finish (pres_cond h.begin (fun _ h => (C.restExit h).gpfRequest))
  case gpfPhase2Done => exact C.finish (C.gpfDone _ h.begin)
  case gpfWindowExpired => exact C.finish (C.gpfLate _ h.begin)
  case mailboxTimeout => exact C.finish (C.mboxLate _ h.begin)
  case identify => exact C.finish h.begin.mboxRead
  case getHealthInfo => exact C.finish h.begin.mboxRead
  case getEventRecords => exact C.finish h.begin.mboxRead
  case clearEventRecords => exact C.finish (h.begin.mbox (fun _ h => h.clearEvents))
  case getSupportedLogs => exact C.finish (h.begin.mbox (fun _ h => h.openReply))
  case getLog => exact C.finish (h.begin.mbox (fun _ h => h.openReply))
  case getFwInfo => exact C.finish h.begin.mboxRead
  case getTimestamp => exact C.finish h.begin.mboxRead
  case getAlertConfiguration => exact C.finish h.begin.mboxRead
  case setAlertConfiguration => exact C.finish (h.begin.mbox (fun _ h => C.setAlert _ _ h))
  case setShutdownState => exact C.finish (h.begin.mbox (fun _ h => C.setShutdown _ _ h))
  case getPoisonList => exact C.finish h.begin.mboxRead
  case sanitize => exact C.finish (h.begin.mbox (fun _ h => C.wipeStart _ _ h))
  case secureErase => exact C.finish (h.begin.mbox (fun _ h => C.wipeStart _ _ h))
  case getCorirvoInfo => exact C.finish h.begin.mboxRead
  case getPersistenceReport => exact C.finish h.begin.mboxRead
  case setPartition => exact C.finish (h.begin.mbox (fun _ h => h.setPartition))
  case plannedKiln => exact C.finish (h.begin.mbox (fun _ h => C.plannedKiln _ _ _ h))
  case readTroubleLog => exact C.finish ((C.tlogParity _ h.begin).mboxRead)
  case readEventRecorder => exact C.finish h.begin.mboxRead
  case rackExport => exact C.finish (h.begin.mbox (fun _ h => C.rackExport _ _ _ _ _ _ h))
  case updateStatus => exact C.finish (h.begin.updBox (fun _ h => C.updStatus _ h))
  case updateStart => exact C.finish (h.begin.updBox (fun _ h => C.reply _ _ _ (C.updStart _ _ _ h)))
  case updateActivate => exact C.finish (h.begin.updBox (fun _ h => C.reply _ _ _ (C.activate _ _ h)))
  case updateActivateAtReset => exact C.finish (h.begin.updBox (fun _ h => C.reply _ _ _ h.activateReset))
  case updateAbort => exact C.finish (h.begin.updBox (fun _ h => C.reply _ _ _ (C.updAbort _ _ h)))
  case transferFwInitiate => exact C.finish (h.begin.updBox (fun _ h => C.reply _ _ _ (C.updStart _ _ _ h)))
  case transferFwEnd => exact C.finish (h.begin.updBox (fun _ h => C.reply _ _ _ (C.updEnd _ _ h)))
  case transferFwAbort => exact C.finish (h.begin.updBox (fun _ h => C.reply _ _ _ (C.updAbort _ _ h)))
  case activateFwOnline => exact C.finish (h.begin.updBox (fun _ h => C.reply _ _ _ (C.activate _ _ h)))
  case activateFwReset => exact C.finish (h.begin.updBox (fun _ h => C.reply _ _ _ h.activateReset))
  case patrolOverdue => exact C.finish (C.patrolLate _ h.begin)
  case dirtyScrubStart => exact C.finish h.begin.scrubStart
  case hostEnergyExpired => exact C.finish h.begin.hostEnergyOut
  case flashPatrolOverdue => exact C.finish (pres_cond h.begin (fun _ h => C.detect _ _ h))
  case mainInFail => exact C.finish (C.mainFail h.begin)
  case mainInWarn => exact C.finish (C.mainWarn h.begin)
  case primedClear => exact C.finish (C.primedClear h.begin)
  case ewEscalation => exact C.finish (C.escalate h.begin)
  case packPathTimeout => exact C.finish (C.pathLate h.begin)
  case phaseTimeOverrun => exact C.finish (C.phaseLate h.begin)
  case kilnSelftest => exact C.finish (C.selfTest _ _ _ h.begin)
  case kilnArmWrite => exact C.finish (h.begin.command (fun _ h => C.armWrite _ h))
  case bulkDelayElapsed => exact C.finish (C.bulkDelay h.begin)
  case fillCeiling => exact C.finish (C.ceiling _ _ h.begin)
  case sqDoorbell => exact C.finish (C.byOwner _ _ _ (fun _ h => C.sqTail _ _ h) h.begin)
  case cqDoorbell => exact C.finish (C.byOwner _ _ _ (fun _ h => h.cqHead) h.begin)
  case queueEnable => exact C.finish (C.byOwner _ _ _ (fun _ h => h.enableQueue) h.begin)
  case queueDisable => exact C.finish (C.byOwner _ _ _ (fun _ h => C.disableQueue _ h) h.begin)
  case descriptorFetch => exact C.finish (C.fetchDesc _ h.begin)
  case dmaFailure => exact C.finish (C.dmaFails _ _ h.begin)
  case nop => exact C.finish h.begin.runNop
  case rack => exact C.finish h.begin.runRack
  case rackFence => exact C.finish h.begin.runRack
  case pin => exact C.finish h.begin.runPin
  case heatHint => exact C.finish h.begin.runHint
  case query => exact C.finish h.begin.runQuery
  case commandComplete => exact C.finish (C.commandDone _ _ _ h.begin)
  case coalesceTimeout => exact C.finish (C.coalesce _ _ h.begin)
  case cqFullTimeout => exact C.finish (pres_cond h.begin (fun _ h => C.detect _ _ h))
  case chainTimeout => exact C.finish (C.chainLate _ h.begin)
  case intRecordDiscard => exact C.finish (C.byOwner _ _ _ (fun _ h => C.dropRecord _ h) h.begin)
  case helloTx => exact C.finish (pres_onPort h.begin (fun _ h => C.send _ h))
  case helloRx => exact C.finish (pres_onPort h.begin (fun _ h => C.helloIn _ _ h))
  case hellosMissed => exact C.finish (pres_onPort h.begin (fun _ h => C.hellosMissed _ h))
  case trainingTimeout => exact C.finish (pres_onPort h.begin (fun _ h => C.trainLate _ h))
  case linkFrameRx => exact C.finish (pres_onPort h.begin (fun _ h => C.linkFrame _ _ _ _ _ h))
  case replayRetrainTimeout => exact C.finish (pres_onPort h.begin (fun _ h => C.replayLate _ h))
  case lsaPeriodic => exact C.finish (C.announce h.begin)
  case lsaAgeOut => exact C.finish (pres_cond h.begin (fun _ h => C.lsaAge _ h))
  case claimWindowEnd => exact C.finish (C.claimEnd h.begin)
  case routeInstall => exact C.finish (C.install _ h.begin)
  case convergenceTimeout => exact C.finish (pres_cond h.begin (fun _ h => C.detect _ _ h))
  case alarmSummaryTx => exact C.finish (C.sendSummary _ h.begin)
  case phantomOvercurrent => exact C.finish (pres_onPort h.begin (fun _ h => C.overcurrent _ h))
  case ackTimeout => exact C.finish (C.ackLate _ _ h.begin)
  case rackOpenRetry => exact C.finish (C.openRetry _ h.begin)
  case guestRegionCommit => exact C.finish h.begin.guestCommit
  case guestRelease => exact C.finish (C.guestRelease _ h.begin)
  case switchoverTest => exact C.finish (C.switchTest _ h.begin)
  case pulseTest => exact C.finish (pres_onPack h.begin (fun _ h => pres_cond h (fun _ h => C.startTest _ _ _ h)))
  case programOverrun => exact C.finish (pres_cond h.begin (fun _ h => C.detect _ _ h))
  case railMarginWrite => exact C.finish (h.begin.command (fun _ h => C.marginWrite _ h))
  case marginStep => exact C.finish (pres_cond h.begin (fun _ h => C.marginStep h))
  case cntClearRail => exact C.finish (h.begin.command (fun _ h => C.clearCounts _ (fun _ h => h.clearRail) h))
  case cntClearAll => exact C.finish (h.begin.command (fun _ h => C.clearCounts _ (fun _ h => pres_each h (fun _ _ h =>
    h.clearRail)) h))
  case railCounterSave => exact C.finish (pres_cond h.begin (fun _ h => C.saveRails h))
  case mrNHold4s => exact C.finish (C.press4 h.begin)
  case restExitEvent => exact C.finish (C.restExit (C.noQuiet h.begin))
  case patrolCatchup => exact C.finish (C.patrolBehind h.begin)
  case mainInLostP3 => exact C.finish (pres_cond h.begin (fun _ h => C.enterP4 h.same))
  case quietExpired => exact C.finish h.begin.quietOver
  case eventSourceRelease => exact C.finish (C.eventRelease _ h.begin)
  case errnReadback => exact C.finish (pres_cond h.begin (fun _ h => C.errnRead _ h))
  case errnTest => exact C.finish (h.begin.command (fun _ h => pres_ite h.same.wr (C.reject _ h)))
  case histRearm => exact C.finish (h.begin.command (fun _ h => C.rearm h))
  case injectionTimeout => exact C.finish (C.injectLate _ _ h.begin)
  case tlogRateSummary => exact C.finish (C.rateSummary h.begin)
  case tlgClear => exact C.finish (h.begin.command (fun _ h => C.tlgClear h))
  case calRun => exact C.finish h.begin.calRun
  case calTempCheck => exact C.finish (pres_cond h.begin (fun _ h => C.calTemp h))
  case moduleCal => exact C.finish (h.begin.command (fun _ h => h.moduleCal))
  case vrefCheck => exact C.finish (C.vrefCheck _ h.begin)
  case updateLockExpired => exact C.finish (C.lockExpired h.begin)
  case confirmWindowEnd => exact C.finish h.begin.windowEnd
  case packPathConfirmed => exact C.finish (C.pathConfirmed h.begin)
  case clockFault => exact C.finish h.begin.clockBad
  case clockBackInTolerance => exact C.finish h.begin.clockGood
  case xtal25Lost => exact C.finish (pres_cond h.begin (fun _ h => h.wr))
  case trainingRetry => exact C.finish (pres_onPort h.begin (fun _ h => C.trainRetry _ h))
  case phantomFeedRetry => exact C.finish (pres_onPort h.begin (fun _ h => C.feedRetry _ h))
  all_goals exact absurd hq Bool.false_ne_true

/-- Settles O6, by what each operation of a quiet command writes. -/
theorem quietCommandsWriteNoSteadyRegister : Obligations.QuietCommandsWriteNoSteadyRegister := by
  unfold Obligations.QuietCommandsWriteNoSteadyRegister
  intro c s t hs hq hexec
  have hafter : AfterNext (KeepsSteady s) (exec c s) := (KeepsSteady.refl hs.kept).afterNext_exec hq
  rw [hexec] at hafter
  exact KeepsSteady.steadyRegsBut hafter

end Sys2Proof.Machine
end

section
/-!
PROOFS. Proofs/StartFrame.lean: what a start shows of itself stays as a command ends, whatever faults it raised and whatever
reactions these begin, a kiln among them.
-/

namespace Sys2Proof.Machine

-- One theorem after another, as the text compiles near its memory limit.
set_option Elab.async false

/-! ### What leaves the progress of a start alone -/

/-- The fields that show a start: `START` and `STEP_MS` of `PWR`, whether the Sentinel context is valid, the hold of the steep, and
whether the cask key is valid. -/
def StartKey (k : Nat) : Prop :=
  (keyPage k = 0xD8 ∧ 0x60 ≤ keyOff k) ∨ k = R.SNT_CTX_VALID.key ∨ k = R.STP_STAT_HOLD.key ∨ k = R.CRY_STAT_KEY_VALID.key

/-- A place at which none of these fields stands. -/
abbrev StartFree (page off lsb : Nat) : Prop :=
  (page ≠ 0xD8 ∨ off < 0x60) ∧ (page ≠ 0xE0 ∨ off ≠ 0x44 ∨ lsb ≠ 0) ∧ (page ≠ 0x43 ∨ off ≠ 0x58 ∨ lsb ≠ 8) ∧
    (page ≠ 0x71 ∨ off ≠ 0x40 ∨ lsb ≠ 0)

/-- What the device does, its supply and the steps of its start are in `q` as in `p`. -/
structure SameStart (p q : Power) : Prop where
  life : q.life = p.life
  mainGood : q.mainGood = p.mainGood
  doneSteps : q.doneSteps = p.doneSteps
  runSteps : q.runSteps = p.runSteps
  warm : q.warm = p.warm

theorem SameStart.refl (p : Power) : SameStart p p := ⟨rfl, rfl, rfl, rfl, rfl⟩

theorem SameStart.trans {p q r : Power} (h : SameStart p q) (h' : SameStart q r) : SameStart p r :=
  ⟨h'.life.trans h.life, h'.mainGood.trans h.mainGood, h'.doneSteps.trans h.doneSteps, h'.runSteps.trans h.runSteps,
    h'.warm.trans h.warm⟩

/-- `s` is at the point of the start at which `s₀` is; it is in canonical form, and nothing that it detected can end the trial of
an update. -/
structure StartsAs (s₀ s : State) : Prop where
  wf : s.regs.wf = true
  variant : s.variant = s₀.variant
  power : SameStart s₀.power s.power
  trigger : s.update.trigger = false
  todo : ∀ d ∈ s.safe.todo, Unrelated d.1

/-- As `StartsAs`, and `s` shows the start as `s₀` does. -/
structure KeepsStart (s₀ s : State) : Prop extends StartsAs s₀ s where
  regs : ∀ k, StartKey k → s.regs.get k = s₀.regs.get k

section

variable {s₀ s : State}

theorem StartsAs.keepsStart (h : StartsAs s₀ s) : KeepsStart s s :=
  ⟨⟨h.wf, rfl, .refl _, h.trigger, h.todo⟩, fun _ _ => rfl⟩

theorem StartsAs.trans {t : State} (h : StartsAs s₀ s) (h' : StartsAs s t) : StartsAs s₀ t :=
  ⟨h'.wf, h'.variant.trans h.variant, h.power.trans h'.power, h'.trigger, h'.todo⟩

theorem KeepsStart.rd (h : KeepsStart s₀ s) {f : Fld} (hf : StartKey f.key) : s.rd f = s₀.rd f := by
  unfold State.rd RegFile.rd
  rw [h.regs _ hf]

theorem KeepsStart.same (h : KeepsStart s₀ s) {t : State} (hregs : t.regs = s.regs := by rfl)
    (hvariant : t.variant = s.variant := by rfl)
    (hpower : SameStart s.power t.power := by exact ⟨rfl, rfl, rfl, rfl, rfl⟩)
    (htrig : t.update.trigger = s.update.trigger := by rfl) (htodo : t.safe.todo = s.safe.todo := by rfl) : KeepsStart s₀ t where
  wf := (congrArg NMap.wf hregs).trans h.wf
  variant := hvariant.trans h.variant
  power := h.power.trans hpower
  trigger := htrig.trans h.trigger
  todo d hd := h.todo d (htodo ▸ hd)
  regs k hk := (congrArg (NMap.get · k) hregs).trans (h.regs k hk)

theorem KeepsStart.wr_of_key (h : KeepsStart s₀ s) {f : Fld} {v : Nat} (hf : ¬StartKey f.key) : KeepsStart s₀ (s.wr f v) where
  wf := State.wf_wr _ _ h.wf
  variant := h.variant
  regs k hk := (NMap.get_set_ne _ _ (fun he => hf (by rw [← he]; exact hk))).trans (h.regs k hk)
  power := h.power
  trigger := h.trigger
  todo := h.todo

theorem not_startKey_of_place {page off lsb width reset idx : Nat} (hplace : StartFree page off lsb)
    (hoff : off < 4096) (hlsb : lsb < 32) (hidx : idx < 4096) : ¬StartKey (Fld.key ⟨page, off, lsb, width, reset, idx⟩) := by
  simp only [StartKey, keyPage, keyOff, Fld.key, R.SNT_CTX_VALID, R.STP_STAT_HOLD, R.CRY_STAT_KEY_VALID]
  omega

theorem KeepsStart.wr (h : KeepsStart s₀ s) {page off lsb width reset idx v : Nat}
    (hplace : StartFree page off lsb := by omega)
    (hoff : off < 4096 := by omega) (hlsb : lsb < 32 := by omega) (hidx : idx < 4096 := by omega) :
    KeepsStart s₀ (s.wr ⟨page, off, lsb, width, reset, idx⟩ v) :=
  h.wr_of_key (not_startKey_of_place hplace hoff hlsb hidx)

theorem KeepsStart.inc (h : KeepsStart s₀ s) {page off lsb width reset idx : Nat}
    (hplace : StartFree page off lsb := by omega)
    (hoff : off < 4096 := by omega) (hlsb : lsb < 32 := by omega) (hidx : idx < 4096 := by omega) :
    KeepsStart s₀ (s.inc ⟨page, off, lsb, width, reset, idx⟩) :=
  pres_ite (P := KeepsStart s₀) (h.wr hplace hoff hlsb hidx) h

theorem KeepsStart.bump (h : KeepsStart s₀ s) {page off lsb width reset idx : Nat}
    (hplace : StartFree page off lsb := by omega)
    (hoff : off < 4096 := by omega) (hlsb : lsb < 32 := by omega) (hidx : idx < 4096 := by omega) :
    KeepsStart s₀ (s.bump ⟨page, off, lsb, width, reset, idx⟩) :=
  h.wr hplace hoff hlsb hidx

theorem KeepsStart.setBit (h : KeepsStart s₀ s) {page off lsb width reset idx i : Nat} {b : Bool}
    (hplace : StartFree page off lsb := by omega)
    (hoff : off < 4096 := by omega) (hlsb : lsb < 32 := by omega) (hidx : idx < 4096 := by omega) :
    KeepsStart s₀ (s.setBit ⟨page, off, lsb, width, reset, idx⟩ i b) :=
  pres_ite (P := KeepsStart s₀) h (h.wr hplace hoff hlsb hidx)

theorem KeepsStart.detect (h : KeepsStart s₀ s) {src inst : Nat} (hsrc : Unrelated src := by decide) :
    KeepsStart s₀ (s.detect src inst) where
  wf := h.wf
  variant := h.variant
  power := h.power
  trigger := h.trigger
  regs := h.regs
  todo d hd := by
    rcases List.mem_append.mp hd with hd | hd
    · exact h.todo d hd
    · rw [List.mem_singleton.mp hd]
      exact hsrc

theorem KeepsStart.setCond (h : KeepsStart s₀ s) {src inst : Nat} {on : Bool} (hsrc : Unrelated src := by decide) :
    KeepsStart s₀ (s.setCond src inst on) :=
  pres_ite (P := KeepsStart s₀) (pres_ite h.same (KeepsStart.detect h.same hsrc)) h.same

theorem KeepsStart.setPack (h : KeepsStart s₀ s) {p : Nat} {k : Pack} : KeepsStart s₀ (s.setPack p k) :=
  pres_ite (P := KeepsStart s₀) h.same h.same

/-! ### The end of a command, operation for operation -/

theorem KeepsStart.send (h : KeepsStart s₀ s) {o : Output} : KeepsStart s₀ (s.send o) :=
  h.same

theorem KeepsStart.setHost (h : KeepsStart s₀ s) {p : Nat} {k : HostPort} : KeepsStart s₀ (s.setHost p k) :=
  pres_ite (P := KeepsStart s₀) h.same h.same

theorem KeepsStart.msix (h : KeepsStart s₀ s) {p vec : Nat} : KeepsStart s₀ (s.msix p vec) :=
  pres_ite (P := KeepsStart s₀) h.send h

theorem KeepsStart.showTlog (h : KeepsStart s₀ s) : KeepsStart s₀ s.showTlog :=
  h.wr.wr.wr

theorem KeepsStart.pushTlog (h : KeepsStart s₀ s) {e : TEntry} : KeepsStart s₀ (s.pushTlog e) :=
  h.same.showTlog

theorem KeepsStart.appendTlog (h : KeepsStart s₀ s) {limited : Bool} {e : TEntry} : KeepsStart s₀ (s.appendTlog limited e) :=
  pres_ite (P := KeepsStart s₀) (pres_cond h.same.inc (fun _ h => h.detect)) h.same.pushTlog

theorem KeepsStart.tlog (h : KeepsStart s₀ s) {code data : Nat} : KeepsStart s₀ (s.tlog code data) :=
  h.appendTlog

theorem KeepsStart.notice (h : KeepsStart s₀ s) {page : Nat} : KeepsStart s₀ (s.notice page) :=
  h.tlog

theorem not_startKey_evtPend (p log : Nat) : ¬StartKey (evtPend p log).key := by
  unfold evtPend
  split <;> exact not_startKey_of_place (by omega) (by omega) (by omega) (by omega)

theorem KeepsStart.pushEvent (h : KeepsStart s₀ s) {log : Nat} {kind : EvtKind} {granule : Option Nat} {words : List Nat}
    {p : Nat} : KeepsStart s₀ (s.pushEvent log kind granule words p) :=
  pres_ite (P := KeepsStart s₀) (pres_cond h.setBit (fun _ h => h.detect))
    (pres_cond (h.setHost.wr_of_key (not_startKey_evtPend p log)) (fun _ h => h.msix))

theorem KeepsStart.event (h : KeepsStart s₀ s) {log : Nat} {kind : EvtKind} {granule : Option Nat} {words : List Nat} :
    KeepsStart s₀ (s.event log kind granule words) :=
  KeepsStart.tlog (pres_foldl h (fun _ _ h => h.pushEvent))

theorem KeepsStart.vendor (h : KeepsStart s₀ s) {log subtype : Nat} {words : List Nat} :
    KeepsStart s₀ (s.vendor log subtype words) :=
  h.event

theorem KeepsStart.healthNote (h : KeepsStart s₀ s) : KeepsStart s₀ s.healthNote :=
  pres_ite (P := KeepsStart s₀) h h.same.event

theorem KeepsStart.dirtyLoad (h : KeepsStart s₀ s) {p : Nat} : KeepsStart s₀ (s.dirtyLoad p) := by
  unfold State.dirtyLoad
  exact pres_cond (P := KeepsStart s₀) h.wr (fun _ h => h.inc)

theorem KeepsStart.pstUpdate (h : KeepsStart s₀ s)
    {upd : State → State} (hupd : ∀ t, KeepsStart s₀ t → KeepsStart s₀ (upd t)) : KeepsStart s₀ (s.pstUpdate upd) :=
  pres_each (P := KeepsStart s₀)
    (KeepsStart.bump (pres_cond (hupd _ h).wr.wr (fun _ h => h.same.inc.vendor.tlog))).healthNote
    (fun _ _ h => h.dirtyLoad)

theorem KeepsStart.showSteep (h : KeepsStart s₀ s) : KeepsStart s₀ s.showSteep :=
  h.wr.wr.wr.wr.wr.wr.wr

theorem KeepsStart.mapQueues (h : KeepsStart s₀ s) {f : Queue → Queue} : KeepsStart s₀ (s.mapQueues f) :=
  h.same

theorem KeepsStart.showQueues (h : KeepsStart s₀ s) : KeepsStart s₀ s.showQueues :=
  h.wr.wr

theorem KeepsStart.freezeQueues (h : KeepsStart s₀ s) : KeepsStart s₀ s.freezeQueues :=
  h.mapQueues.showQueues

theorem KeepsStart.armCdl (h : KeepsStart s₀ s) {n target : Nat} : KeepsStart s₀ (s.armCdl n target) :=
  pres_ite (P := KeepsStart s₀) h.wr.wr.wr.wr h.wr.wr.wr

theorem KeepsStart.disarmCdl (h : KeepsStart s₀ s) {n : Nat} : KeepsStart s₀ (s.disarmCdl n) :=
  h.wr

theorem KeepsStart.showMargins (h : KeepsStart s₀ s) : KeepsStart s₀ s.showMargins :=
  pres_cond (P := KeepsStart s₀) h.wr (fun _ h => h.setCond)

theorem KeepsStart.dropMargin (h : KeepsStart s₀ s) {i : Nat} : KeepsStart s₀ (s.dropMargin i) :=
  h.wr.wr

theorem KeepsStart.dropMargins (h : KeepsStart s₀ s) : KeepsStart s₀ s.dropMargins :=
  KeepsStart.showMargins (pres_each h (fun _ _ h => h.dropMargin))

theorem KeepsStart.showSeq (h : KeepsStart s₀ s) : KeepsStart s₀ s.showSeq :=
  h.wr.wr.wr.wr.wr

theorem KeepsStart.seqStop (h : KeepsStart s₀ s) {failed : Bool} : KeepsStart s₀ (s.seqStop failed) :=
  h.same.wr.showSeq

theorem KeepsStart.seqRequest (h : KeepsStart s₀ s) {n : Nat} : KeepsStart s₀ (s.seqRequest n) := by
  unfold State.seqRequest
  dsimp only
  split
  · exact h.same
  · exact pres_ite (P := KeepsStart s₀) h (pres_ite h.seqStop.same (pres_ite h.seqStop.same h.setBit))

theorem KeepsStart.setDport (h : KeepsStart s₀ s) {n : Nat} {d : DPort} : KeepsStart s₀ (s.setDport n d) :=
  h.same

theorem KeepsStart.setPlane (h : KeepsStart s₀ s) {n pl : Nat} {l : Plane} : KeepsStart s₀ (s.setPlane n pl l) :=
  h.setDport

theorem KeepsStart.pump (h : KeepsStart s₀ s) {n pl k : Nat} : KeepsStart s₀ (s.pump n pl k) := by
  induction k generalizing s with
  | zero => exact h
  | succ k ih =>
    unfold State.pump
    refine pres_ite (P := KeepsStart s₀) h ?_
    split
    · exact h
    · split
      · exact h
      · exact ih h.setPlane.send

theorem KeepsStart.dropAlarm (h : KeepsStart s₀ s) {n : Nat} : KeepsStart s₀ (s.dropAlarm n) :=
  h.same.inc.detect

theorem KeepsStart.sendOn (h : KeepsStart s₀ s) {n pl : Nat} {p : Packet} : KeepsStart s₀ (s.sendOn n pl p) := by
  unfold State.sendOn
  refine pres_ite (P := KeepsStart s₀) h ?_
  split
  · exact pres_ite (P := KeepsStart s₀) h.setPlane.pump (pres_ite h.setPlane.dropAlarm.setPlane.pump h.dropAlarm)
  · exact h.setPlane.pump

theorem KeepsStart.floodOut (h : KeepsStart s₀ s) {src : Nat} {p : Packet} : KeepsStart s₀ (s.floodOut src p) :=
  pres_each (P := KeepsStart s₀) h (fun _ _ h => pres_cond h (fun _ h => h.sendOn.sendOn))

theorem KeepsStart.remember (h : KeepsStart s₀ s) {src typ sq : Nat} : KeepsStart s₀ (s.remember src typ sq) :=
  h.same

theorem KeepsStart.floodOwn (h : KeepsStart s₀ s) {typ : Nat} {p : Packet} : KeepsStart s₀ (s.floodOwn typ p) :=
  h.remember.floodOut

theorem KeepsStart.floodKiln (h : KeepsStart s₀ s) {trig : Nat} : KeepsStart s₀ (s.floodKiln trig) :=
  pres_ite (P := KeepsStart s₀) h
    (KeepsStart.inc (pres_each h.same.remember (fun _ _ h => pres_cond h (fun _ h => h.sendOn.sendOn))))

theorem KeepsStart.floodLsa (h : KeepsStart s₀ s) : KeepsStart s₀ s.floodLsa :=
  pres_ite (P := KeepsStart s₀) h h.same.bump.floodOwn

theorem KeepsStart.announce (h : KeepsStart s₀ s) : KeepsStart s₀ s.announce :=
  pres_ite (P := KeepsStart s₀) h.same h.floodLsa

theorem KeepsStart.setSends (h : KeepsStart s₀ s) {l : List Send} : KeepsStart s₀ (s.setSends l) :=
  pres_each (P := KeepsStart s₀) h.same (fun _ _ h => h.wr)

theorem KeepsStart.mapRacks (h : KeepsStart s₀ s) {f : RunCmd → RunCmd} : KeepsStart s₀ (s.mapRacks f) :=
  h.mapQueues

theorem KeepsStart.rackSettle (h : KeepsStart s₀ s) : KeepsStart s₀ s.rackSettle :=
  h.mapRacks

theorem KeepsStart.abandonSends (h : KeepsStart s₀ s) {t : Nat} : KeepsStart s₀ (s.abandonSends t) :=
  h.setSends

theorem KeepsStart.suspend (h : KeepsStart s₀ s) {t : Nat} : KeepsStart s₀ (s.suspend t) :=
  h.abandonSends.wr.detect.rackSettle

theorem KeepsStart.restExit (h : KeepsStart s₀ s) : KeepsStart s₀ s.restExit := by
  unfold State.restExit
  extract_lets st s1 q s2
  have hawake : KeepsStart s₀ s1 := h.wr
  have hleft : KeepsStart s₀ s2 := hawake.same
  exact pres_ite (KeepsStart.announce (pres_cond hleft (fun _ h => h.seqRequest))) h

theorem KeepsStart.abandonCal (h : KeepsStart s₀ s) : KeepsStart s₀ s.abandonCal :=
  pres_ite (P := KeepsStart s₀) h.same.wr.wr.wr.wr.detect h

theorem KeepsStart.updateK0 (h : KeepsStart s₀ s) : KeepsStart s₀ s.updateK0 :=
  pres_ite (P := KeepsStart s₀) h.same.wr.wr h

theorem KeepsStart.dropTest (h : KeepsStart s₀ s) {p : Nat} : KeepsStart s₀ (s.dropTest p) :=
  pres_ite (P := KeepsStart s₀) h h.setPack.wr.disarmCdl

theorem KeepsStart.packPathOn (h : KeepsStart s₀ s) : KeepsStart s₀ s.packPathOn :=
  pres_each (P := KeepsStart s₀) h (fun _ _ h => pres_cond h (fun _ h => h.setPack))

theorem KeepsStart.freezeSteep (h : KeepsStart s₀ s) : KeepsStart s₀ s.freezeSteep :=
  h.same.wr.showSteep

theorem KeepsStart.freezeRacking (h : KeepsStart s₀ s) : KeepsStart s₀ s.freezeRacking :=
  h.same.wr.wr

theorem KeepsStart.freezeRetire (h : KeepsStart s₀ s) : KeepsStart s₀ s.freezeRetire :=
  h.same

theorem KeepsStart.dropStaged (h : KeepsStart s₀ s) {page : Nat} : KeepsStart s₀ (s.dropStaged page) :=
  h.same

theorem KeepsStart.discardCommits (h : KeepsStart s₀ s) : KeepsStart s₀ s.discardCommits :=
  pres_foldl (P := KeepsStart s₀) h (fun _ _ h => h.dropStaged.wr.notice)

theorem KeepsStart.closePhase (h : KeepsStart s₀ s) : KeepsStart s₀ s.closePhase := by
  unfold State.closePhase
  dsimp only
  split
  · exact pres_cond (P := KeepsStart s₀) h.wr.wr (fun _ h => h.detect)
  · exact h.wr.wr

theorem KeepsStart.enterPhase (h : KeepsStart s₀ s) {k : Nat} : KeepsStart s₀ (s.enterPhase k) := by
  unfold State.enterPhase
  extract_lets s1 s2 q s3 s4 data
  have hclosed : KeepsStart s₀ s1 := pres_cond h (fun _ h => h.closePhase)
  have hphase : KeepsStart s₀ s2 := hclosed.wr
  exact KeepsStart.tlog (pres_cond (hphase.same (t := s3)) (fun _ h => h.wr))

theorem KeepsStart.cdlMark (h : KeepsStart s₀ s) {n : Nat} : KeepsStart s₀ (s.cdlMark n) := by
  unfold State.cdlMark
  split
  · exact pres_cond (P := KeepsStart s₀) h (fun _ h => h.same)
  · exact h.same.detect
  · exact h.detect

theorem KeepsStart.armKiln (h : KeepsStart s₀ s) {n target : Nat} : KeepsStart s₀ (s.armKiln n target) :=
  pres_cond (P := KeepsStart s₀) h.armCdl (fun _ h => h.cdlMark)

theorem KeepsStart.groupMessage (h : KeepsStart s₀ s) {trig : Nat} {group : Bool} :
    KeepsStart s₀ (s.groupMessage trig group) :=
  pres_cond (P := KeepsStart s₀) h (fun _ h => h.floodKiln)

theorem KeepsStart.enterK0 (h : KeepsStart s₀ s) {trig mask : Nat} {p3 group : Bool} :
    KeepsStart s₀ (s.enterK0 trig mask p3 group) :=
  (KeepsStart.wr (pres_each h.same.wr.wr.wr.wr.wr.wr.armKiln.armKiln
    (fun _ _ h => h.wr))).abandonCal.dropMargins.updateK0.restExit.dropTest.dropTest.enterPhase.groupMessage

theorem KeepsStart.enterK3 (h : KeepsStart s₀ s) : KeepsStart s₀ s.enterK3 := by
  unfold State.enterK3
  extract_lets s1 s2 d s3 q s4 s5 s6 s7
  have hphase : KeepsStart s₀ s2 := KeepsStart.wr (h.enterPhase (k := 3))
  have hmarked : KeepsStart s₀ s4 := hphase.same
  have hfrozen : KeepsStart s₀ s5 := hmarked.freezeQueues.freezeSteep.freezeRacking.freezeRetire
  have hwither : KeepsStart s₀ s6 := pres_cond hfrozen (fun _ h => h.wr)
  exact pres_each hwither.discardCommits (fun _ _ h => h.setHost.wr.wr.wr.wr.wr.wr)

theorem KeepsStart.k2Check (h : KeepsStart s₀ s) : KeepsStart s₀ s.k2Check :=
  pres_ite (P := KeepsStart s₀) h.enterK3 h

theorem KeepsStart.openK2 (h : KeepsStart s₀ s) : KeepsStart s₀ s.openK2 :=
  pres_ite (P := KeepsStart s₀) h.enterPhase.same.k2Check h

theorem KeepsStart.pathOn (h : KeepsStart s₀ s) : KeepsStart s₀ s.pathOn :=
  h.same.packPathOn

theorem KeepsStart.startKiln (h : KeepsStart s₀ s) {trig mask : Nat} {p3 group : Bool} :
    KeepsStart s₀ (s.startKiln trig mask p3 group) :=
  pres_ite (P := KeepsStart s₀) h.enterK0.enterPhase.openK2 h.enterK0.enterPhase.pathOn

theorem KeepsStart.joinTrigger (h : KeepsStart s₀ s) {trig : Nat} {group : Bool} : KeepsStart s₀ (s.joinTrigger trig group) :=
  pres_cond (P := KeepsStart s₀) (pres_cond h.same.wr.wr (fun _ h => h.groupMessage)) (fun _ h => h.pathOn)

theorem KeepsStart.fireTrigger (h : KeepsStart s₀ s) {trig : Nat} {p3 group : Bool} :
    KeepsStart s₀ (s.fireTrigger trig p3 group) :=
  pres_ite (P := KeepsStart s₀) h.startKiln (pres_ite h.joinTrigger (pres_cond h (fun _ h => h.inc)))

theorem KeepsStart.showSafe (h : KeepsStart s₀ s) : KeepsStart s₀ s.showSafe :=
  (KeepsStart.wr (pres_each h (fun _ _ h => h.wr.wr))).wr.wr.wr.wr.wr

theorem KeepsStart.holdReasons (h : KeepsStart s₀ s) : KeepsStart s₀ s.holdReasons :=
  pres_ite (P := KeepsStart s₀) h (h.pstUpdate (fun _ h => h.wr.wr.wr))

theorem KeepsStart.driveErrn (h : KeepsStart s₀ s) : KeepsStart s₀ s.driveErrn := by
  have hdriven : KeepsStart s₀ (s.wr R.SAF_STAT_ERRN_DRIVE (b2n s.errnLow)) := h.wr
  exact pres_ite h hdriven.same

theorem KeepsStart.enterHist (h : KeepsStart s₀ s) {e : HistEntry} : KeepsStart s₀ (s.enterHist e) :=
  pres_ite (P := KeepsStart s₀) h (pres_ite h.inc h.same)

theorem KeepsStart.kilnAction (h : KeepsStart s₀ s) {src : Nat} : KeepsStart s₀ (s.kilnAction src) :=
  pres_ite (P := KeepsStart s₀) h.inc (pres_ite h.inc.wr.fireTrigger (pres_cond h.inc (fun _ h => h.detect)))

theorem KeepsStart.releaseEnded (h : KeepsStart s₀ s) : KeepsStart s₀ s.releaseEnded :=
  h.same

theorem KeepsStart.faultState (h : KeepsStart s₀ s) : KeepsStart s₀ s.faultState :=
  pres_ite (P := KeepsStart s₀) h.wr.wr (pres_ite h.wr.wr h)

theorem KeepsStart.runPending (h : KeepsStart s₀ s) : KeepsStart s₀ s.runPending := by
  unfold State.runPending
  split
  · exact h
  · exact pres_ite (P := KeepsStart s₀) (pres_cond h.same (fun _ h => h.inc)) h

theorem KeepsStart.dispatch (h : KeepsStart s₀ s) {src sev : Nat} : KeepsStart s₀ (s.dispatch src sev) := by
  unfold State.dispatch
  extract_lets st toPend q s1
  have hpend : KeepsStart s₀ (toPend s) := h.same
  have hovf : KeepsStart s₀ s1 := hpend.inc
  have hlatched : KeepsStart s₀ (({ s1 with safe := { s1.safe with ovfLatched := true } } : State).detect 190 0) :=
    KeepsStart.detect hovf.same
  exact pres_ite h (pres_ite hpend (pres_ite h.same (pres_ite (pres_ite (KeepsStart.inc h.same) (pres_ite hovf hlatched)) hpend)))

/-- A reaction to a fault that cannot end the trial of an update leaves the start alone. -/
theorem KeepsStart.latch (h : KeepsStart s₀ s) {src inst : Nat} (hsrc : Unrelated src) : KeepsStart s₀ (s.latch src inst) := by
  have hother : (decide (183 ≤ src) && decide (src ≤ 189)) = false := by
    simp only [Bool.and_eq_false_iff, decide_eq_false_iff_not]
    omega
  have hfail : ¬(src = 183 ∨ src = 184) := by omega
  unfold State.latch
  extract_lets page sev act msk s1 pre e r s2 q s3 s4 s5 s6
  have hbit : KeepsStart s₀ s1 := h.setBit.inc
  have hhist : KeepsStart s₀ s2 := hbit.enterHist
  have hnoted : KeepsStart s₀ s3 := hhist.same
  have hsevere : KeepsStart s₀ s4 := pres_cond hnoted (fun _ h => h.wr.wr.restExit)
  have htried : KeepsStart s₀ s5 := by
    unfold s5
    rwa [hother, Bool.false_and]
  have hrepeated : KeepsStart s₀ (s5.repeatedFail src) := by
    unfold State.repeatedFail
    rwa [if_neg hfail]
  exact pres_ite (KeepsStart.dispatch (pres_cond hrepeated (fun _ h => h.kilnAction))) h

theorem KeepsStart.closeWindow (h : KeepsStart s₀ s) : KeepsStart s₀ s.closeWindow := by
  unfold State.closeWindow
  extract_lets w
  have hstart : KeepsStart s₀ { s with safe := { s.safe with todo := [] } } :=
    ⟨⟨h.wf, h.variant, h.power, h.trigger, nofun⟩, h.regs⟩
  refine List.foldlRecOn w _ hstart (fun t ht d hd => ht.latch (h.todo d ?_))
  simpa using mem_of_mem_foldl_insertLatch hd

theorem KeepsStart.settle (h : KeepsStart s₀ s) {n : Nat} : KeepsStart s₀ (s.settle n) := by
  induction n generalizing s with
  | zero => exact h
  | succ n ih =>
    unfold State.settle
    have hshown := h.releaseEnded.faultState.holdReasons.runPending.showSafe
    rw [h.trigger, if_neg Bool.false_ne_true]
    exact pres_ite (P := KeepsStart s₀) (pres_ite hshown.driveErrn (ih hshown)) (ih h.closeWindow)

theorem KeepsStart.finish (h : KeepsStart s₀ s) : KeepsStart s₀ (finish s) :=
  h.settle

end

end Sys2Proof.Machine
end

section
/-!
PROOFS. Proofs/BootOperations.lean: what the operations that the boot steps share with other commands leave of a start.
-/

namespace Sys2Proof.Machine

-- One theorem after another, as the text compiles near its memory limit.
set_option Elab.async false

/-! ### What the boot steps share with other commands -/

section

variable {s₀ s : State}

theorem KeepsStart.takeFree (h : KeepsStart s₀ s) {w : Nat} : KeepsStart s₀ (s.takeFree w).2 :=
  h.same

theorem KeepsStart.showZ (h : KeepsStart s₀ s) : KeepsStart s₀ s.showZ :=
  pres_cond (P := KeepsStart s₀) h.wr.wr.wr.wr.wr (fun _ h => h.setCond)

theorem KeepsStart.updGroup (h : KeepsStart s₀ s) {id : Nat} {f : Group → Group} : KeepsStart s₀ (s.updGroup id f) :=
  h.same

theorem KeepsStart.closeBroken (h : KeepsStart s₀ s) : KeepsStart s₀ s.closeBroken :=
  h.same

theorem KeepsStart.eraseGroup (h : KeepsStart s₀ s) {id : Nat} : KeepsStart s₀ (s.eraseGroup id) := by
  unfold State.eraseGroup
  split
  · exact h
  · exact h.same.showZ

theorem KeepsStart.moveWraps (h : KeepsStart s₀ s) {chan : Nat} : KeepsStart s₀ (s.moveWraps chan) :=
  pres_ite (P := KeepsStart s₀) h.same (pres_ite h.same h)

theorem KeepsStart.showImage (h : KeepsStart s₀ s) : KeepsStart s₀ s.showImage :=
  h.wr.wr

theorem KeepsStart.fabricStops (h : KeepsStart s₀ s) : KeepsStart s₀ s.fabricStops :=
  pres_cond (P := KeepsStart s₀) h (fun _ h => pres_each h (fun _ _ h => pres_cond h (fun _ h => h.suspend)))

theorem KeepsStart.halt (h : KeepsStart s₀ s) {n : Nat} : KeepsStart s₀ (s.halt n) := by
  unfold State.halt
  extract_lets s1 s2
  have hstale : KeepsStart s₀ s2 := pres_foldl (P := KeepsStart s₀) h.same (fun _ _ h => h.wr)
  exact pres_cond (pres_cond hstale (fun _ h => pres_cond (KeepsStart.wr h.same) (fun _ h => h.wr.wr))) (fun _ h =>
      h.fabricStops)

theorem KeepsStart.project (h : KeepsStart s₀ s) : KeepsStart s₀ s.project :=
  pres_cond (P := KeepsStart s₀) h (fun _ h => h.wr)

theorem KeepsStart.gaugeShow (h : KeepsStart s₀ s) : KeepsStart s₀ s.gaugeShow :=
  pres_ite (P := KeepsStart s₀)
    (pres_cond ((KeepsStart.wr (pres_each h (fun _ _ h => h.wr.wr.wr))).wr.wr) (fun _ h => h.detect))
    h

theorem KeepsStart.packJudge (h : KeepsStart s₀ s) {p : Nat} : KeepsStart s₀ (s.packJudge p) :=
  pres_ite (P := KeepsStart s₀) (KeepsStart.gaugeShow (pres_cond h.setBit.wr (fun _ h => h.setCond))) h.gaugeShow

theorem KeepsStart.ramp (h : KeepsStart s₀ s) {p before : Nat} : KeepsStart s₀ (s.ramp p before) :=
  pres_ite (P := KeepsStart s₀) h.setPack h.setPack

theorem KeepsStart.ageGauge (h : KeepsStart s₀ s) {p : Nat} : KeepsStart s₀ (s.ageGauge p) :=
  pres_ite (P := KeepsStart s₀) h.wr.wr.setPack.ramp h

theorem KeepsStart.showRec (h : KeepsStart s₀ s) : KeepsStart s₀ s.showRec := by
  unfold State.showRec
  dsimp only
  split
  · exact h.wr.wr.wr.wr.wr.wr.wr.wr.wr
  · exact h.wr.wr.wr.wr.wr.wr.wr.wr.wr

theorem KeepsStart.occurKind (h : KeepsStart s₀ s) {row : CodeRow} {ext : Bool} {v : Option Int} :
    KeepsStart s₀ (s.occurKind row ext v) := by
  have hpool : Unrelated (if ext then 204 else 203) := by
    cases ext <;> decide
  exact pres_ite (P := KeepsStart s₀) (pres_cond h.inc (fun _ h => KeepsStart.detect h.same hpool))
    (pres_cond (pres_cond h.same (fun _ h => h.detect)) (fun _ h => h.detect))

theorem KeepsStart.occur (h : KeepsStart s₀ s) {code : Nat} {v : Option Int} : KeepsStart s₀ (s.occur code v) := by
  unfold State.occur
  split
  · exact h
  · exact KeepsStart.showRec (pres_cond (pres_cond h (fun _ h => h.occurKind)) (fun _ h => h.occurKind))

theorem KeepsStart.retireEngine (h : KeepsStart s₀ s) {e : Nat} : KeepsStart s₀ (s.retireEngine e) := by
  unfold State.retireEngine
  extract_lets q s1 w put s2
  have hdead : KeepsStart s₀ s1 := h.same
  have hsummary : KeepsStart s₀ s2 := pres_ite hdead.wr (pres_ite hdead.wr hdead.wr.wr)
  exact pres_ite h hsummary.tlog.occur.healthNote

theorem KeepsStart.updBlock (h : KeepsStart s₀ s) {k : Nat × Nat × Nat} {f : Block → Block} :
    KeepsStart s₀ (s.updBlock k f) :=
  h.same

theorem KeepsStart.showSpares (h : KeepsStart s₀ s) {chan die : Nat} : KeepsStart s₀ (s.showSpares chan die) :=
  pres_cond (P := KeepsStart s₀) h.wr.wr.wr.wr (fun _ h => h.detect)

theorem KeepsStart.retireBlock (h : KeepsStart s₀ s) {k : Nat × Nat × Nat} : KeepsStart s₀ (s.retireBlock k) :=
  have hlisted : KeepsStart s₀ (s.updBlock k (fun (b : Block) => { b with bad := true })) := h.updBlock
  pres_ite h (KeepsStart.inc (KeepsStart.inc hlisted.same)).closeBroken

theorem KeepsStart.replaceMember (h : KeepsStart s₀ s) {id : Nat} {k : Nat × Nat × Nat} :
    KeepsStart s₀ (s.replaceMember id k).1 := by
  unfold State.replaceMember
  split
  · exact h
  · split
    · exact h
    · exact pres_cond (P := KeepsStart s₀) h.updBlock.updGroup.showSpares (fun _ h => h.showSpares)

theorem KeepsStart.dropGroup (h : KeepsStart s₀ s) {id : Nat} : KeepsStart s₀ (s.dropGroup id) := by
  unfold State.dropGroup
  refine pres_ite (P := KeepsStart s₀) h.updGroup ?_
  split
  · exact h.updGroup.updGroup.showZ
  · exact pres_cond (P := KeepsStart s₀) h.updGroup.showZ (fun _ h => h.setCond)

theorem KeepsStart.moveGroup (h : KeepsStart s₀ s) {a b : Zone} {t : State} (ht : s.moveGroup a b = some t) :
    KeepsStart s₀ t := by
  unfold State.moveGroup at ht
  obtain ⟨g, -, rfl⟩ := Option.map_eq_some_iff.mp ht
  exact h.updGroup

theorem KeepsStart.resizeMove (h : KeepsStart s₀ s) {t : State} (ht : s.resizeMove = some t) : KeepsStart s₀ t := by
  have hmove {a b : Zone} (ha : s.moveGroup a b = some t) : KeepsStart s₀ t := h.moveGroup ha
  unfold State.resizeMove at ht
  grind

theorem KeepsStart.resizeMoves (h : KeepsStart s₀ s) {n : Nat} : KeepsStart s₀ (s.resizeMoves n) := by
  induction n generalizing s with
  | zero => exact h
  | succ n ih =>
    unfold State.resizeMoves
    split
    next ht => exact ih (h.resizeMove ht)
    next => exact h

theorem KeepsStart.resizeGo (h : KeepsStart s₀ s) : KeepsStart s₀ s.resizeGo :=
  pres_ite (P := KeepsStart s₀) h.resizeMoves.wr.wr.showZ h

theorem KeepsStart.takeImage (h : KeepsStart s₀ s) {id : Nat} {k : Nat × Nat × Nat} : KeepsStart s₀ (s.takeImage id k).1 := by
  unfold State.takeImage
  dsimp only
  split
  · exact h
  · split
    · exact h
    · exact KeepsStart.showImage (pres_cond h.updGroup.updGroup (fun _ h => h.detect))

theorem KeepsStart.mendMember (h : KeepsStart s₀ s) {id : Nat} {k : Nat × Nat × Nat} : KeepsStart s₀ (s.mendMember id k) := by
  have hnew : KeepsStart s₀ (s.replaceMember id k).1 := h.replaceMember
  unfold State.mendMember
  generalize s.replaceMember id k = r at hnew
  refine pres_ite hnew ?_
  dsimp only
  have htake : ∀ b : Bool, KeepsStart s₀ (if b then (r.1, false) else r.1.takeImage id k).1 :=
    fun _ => pres_ite_fst hnew hnew.takeImage
  exact pres_ite (htake _) (htake _).dropGroup

theorem KeepsStart.exchangeWorn (h : KeepsStart s₀ s) {id : Nat} {k : Nat × Nat × Nat} :
    KeepsStart s₀ (s.exchangeWorn id k) := by
  unfold State.exchangeWorn
  split
  · exact h
  · dsimp only
    split
    · exact h
    · refine pres_ite (P := KeepsStart s₀) h ?_
      split
      · exact h
      · exact h.updGroup.updGroup

theorem KeepsStart.dissolve (h : KeepsStart s₀ s) {id : Nat} : KeepsStart s₀ (s.dissolve id) := by
  unfold State.dissolve
  split
  · exact h
  · exact h.updGroup

theorem KeepsStart.rewidth (h : KeepsStart s₀ s) {id : Nat} : KeepsStart s₀ (s.rewidth id) := by
  unfold State.rewidth
  split
  · exact h
  · exact KeepsStart.updGroup (pres_cond h (fun _ h => h.dissolve))

theorem KeepsStart.eraseFail (h : KeepsStart s₀ s) {k : Nat × Nat × Nat} : KeepsStart s₀ (s.eraseFail k) :=
  h.inc.wr.wr.wr.detect.retireBlock

theorem KeepsStart.mendGroup (h : KeepsStart s₀ s) {id n : Nat} {failed : List (Nat × Nat × Nat)} :
    KeepsStart s₀ (s.mendGroup id failed n) := by
  induction n generalizing s with
  | zero => exact h
  | succ n ih =>
    unfold State.mendGroup
    split
    · exact h
    · next g _ =>
      have hfail : KeepsStart s₀ ((g.members.filter (fun k => failed.contains k && !s.isBad k)).foldl State.eraseFail s) :=
        pres_foldl h (fun _ _ h => h.eraseFail)
      exact pres_ite hfail (ih (pres_foldl hfail (fun _ _ h => h.mendMember)))

theorem KeepsStart.eraseNow (h : KeepsStart s₀ s) {id : Nat} {failed : List (Nat × Nat × Nat)} :
    KeepsStart s₀ (s.eraseNow id failed) := by
  unfold State.eraseNow
  split
  · exact h
  · refine pres_ite (P := KeepsStart s₀) h (KeepsStart.resizeGo (KeepsStart.showZ
      (pres_cond (KeepsStart.mendGroup (pres_cond ?worn (fun _ h => h.rewidth))) (fun _ h => h.eraseGroup)))).showImage
    exact pres_cond h (fun _ h => pres_foldl h (fun _ _ h => h.exchangeWorn))

theorem KeepsStart.reform (h : KeepsStart s₀ s) : KeepsStart s₀ s.reform :=
  KeepsStart.showZ (pres_foldl h (fun _ _ h => h.mendGroup))

theorem KeepsStart.relocCheck (h : KeepsStart s₀ s) {chan : Nat} : KeepsStart s₀ (s.relocCheck chan) :=
  pres_cond (P := KeepsStart s₀) h (fun _ h => h.setCond)

theorem KeepsStart.killChannel (h : KeepsStart s₀ s) {chan : Nat} : KeepsStart s₀ (s.killChannel chan) :=
  pres_ite (P := KeepsStart s₀) h h.same.wr.wr.wr.setCond.closeBroken.moveWraps.reform.relocCheck.project

theorem KeepsStart.journalDone (h : KeepsStart s₀ s) {addr : Nat} : KeepsStart s₀ (s.journalDone addr) :=
  h.same

theorem KeepsStart.countErases (h : KeepsStart s₀ s) {lo hi : Nat} : KeepsStart s₀ (s.countErases lo hi) :=
  pres_foldl (P := KeepsStart s₀) h (fun _ _ h => pres_cond h.same.wr (fun _ h => h.detect))

theorem KeepsStart.loseRecords (h : KeepsStart s₀ s) {lo hi : Nat} : KeepsStart s₀ (s.loseRecords lo hi) := by
  unfold State.loseRecords
  extract_lets hit s1 s2 off
  have hboot : KeepsStart s₀ s2 := pres_cond (P := KeepsStart s₀) (pres_cond h (fun _ h => h.same)) (fun _ h => h.same)
  exact hboot.same

theorem KeepsStart.eraseSectors (h : KeepsStart s₀ s) {lo hi : Nat} : KeepsStart s₀ (s.eraseSectors lo hi) :=
  h.same.loseRecords.countErases

theorem KeepsStart.setBankPkg (h : KeepsStart s₀ s) {b : Nat} {k : Option Package} : KeepsStart s₀ (s.setBankPkg b k) :=
  pres_ite (P := KeepsStart s₀) h.same h.same

theorem KeepsStart.dropStaging (h : KeepsStart s₀ s) : KeepsStart s₀ s.dropStaging := by
  unfold State.dropStaging
  extract_lets s1 q s2
  have hgone : KeepsStart s₀ s1 := h.setBankPkg
  have hstaged : KeepsStart s₀ s2 := hgone.same
  exact hstaged.wr.wr.wr.wr

theorem KeepsStart.saveRails (h : KeepsStart s₀ s) : KeepsStart s₀ s.saveRails :=
  pres_ite (P := KeepsStart s₀) h.same h.same

theorem KeepsStart.armComparators (h : KeepsStart s₀ s) : KeepsStart s₀ s.armComparators :=
  pres_each (P := KeepsStart s₀) h (fun _ _ h => pres_cond h (fun _ h => h.wr))

end

end Sys2Proof.Machine
end

section
/-!
PROOFS. Proofs/BootSteps.lean: what the boot steps B3 to B9 leave of a start, and what they find (Table 15-5).
-/

namespace Sys2Proof.Machine

-- One theorem after another, as the text compiles near its memory limit.
set_option Elab.async false

section

variable {s₀ s : State}

/-! ### What a start finds -/

theorem not_findable_of_startKey {k : Nat} (hk : StartKey k) : findable k = false := by
  rcases hk with ⟨hpage, -⟩ | rfl | rfl | rfl
  · have hrows : ∀ r ∈ keptRows, r.found = true → 0xD8 < r.page ∨ r.page + r.pages ≤ 0xD8 := by decide +kernel
    unfold findable
    rw [List.any_eq_false]
    intro r hr hcovers
    rw [hpage] at hcovers
    simp only [KeepRow.covers, Bool.and_eq_true, decide_eq_true_eq] at hcovers
    have := hrows r hr hcovers.1
    omega
  · decide +kernel
  · decide +kernel
  · decide +kernel

theorem get_foldl_set_findable (l : List (Nat × Nat)) {k : Nat} (hk : findable k = false) (m : NMap) :
    (l.foldl (fun (m : NMap) (e : Nat × Nat) => if findable e.1 then m.set e.1 e.2 else m) m).get k = m.get k := by
  induction l generalizing m with
  | nil => rfl
  | cons e l ih =>
    rw [List.foldl_cons, ih]
    split
    · next he => exact NMap.get_set_ne _ _ (fun heq => by simp [← heq, hk] at he)
    · rfl

theorem KeepsStart.findFields (h : KeepsStart s₀ s) {l : List (Nat × Nat)} : KeepsStart s₀ (s.findFields l) := by
  unfold State.findFields
  extract_lets s1 s2 n
  have hfound : KeepsStart s₀ s1 := {
    wf := NMap.wf_foldl_set_if l (fun e => e.1) (fun e => e.2) (fun e => findable e.1) h.wf
    variant := h.variant
    power := h.power
    trigger := h.trigger
    todo := h.todo
    regs := fun k hk => (get_foldl_set_findable l (not_findable_of_startKey hk) _).trans (h.regs k hk) }
  have hver : KeepsStart s₀ s2 := pres_cond hfound (fun _ h => h.wr)
  exact hver.wr.wr

/-- What a start does not find stays, but for the version of FABRIC and the summary of the engines. -/
theorem State.rd_findFields (l : List (Nat × Nat)) {f : Fld} (hf : findable f.key = false) (hver : f.key ≠ (R.ID_FWVER 2).key)
    (hrepair : f.key ≠ (R.ID_REPAIR 0).key) (hactive : f.key ≠ R.CAP_UNITS_LDPC_ACTIVE.key) :
    (s.findFields l).rd f = s.rd f := by
  unfold State.findFields
  extract_lets s1 s2 n
  have hfound : s1.rd f = s.rd f := by
    unfold State.rd RegFile.rd
    exact congrArg (fun v => v ^^^ f.reset) (get_foldl_set_findable l hf _)
  rw [State.rd_wr_ne _ _ hactive, State.rd_wr_ne _ _ hrepair, ← hfound]
  exact pres_cond (P := fun t : State => t.rd f = s1.rd f) rfl (fun t h => (State.rd_wr_ne _ _ hver).trans h)

/-! ### B3 to B9 -/

theorem KeepsStart.showSram (h : KeepsStart s₀ s) : KeepsStart s₀ s.showSram :=
  h.wr.wr

theorem KeepsStart.bootB3 (h : KeepsStart s₀ s) {f : BootFound} : KeepsStart s₀ (s.bootB3 f) := by
  unfold State.bootB3
  extract_lets s1
  have hnoted : KeepsStart s₀ s1 := pres_foldl (P := KeepsStart s₀) h.wr (fun _ _ h => h.tlog.occur)
  exact pres_ite h.showSram (KeepsStart.showSram hnoted.same)

theorem KeepsStart.bootJournal (h : KeepsStart s₀ s) : KeepsStart s₀ s.bootJournal :=
  pres_foldl (P := KeepsStart s₀) h (fun _ _ h => h.eraseSectors.journalDone.inc.detect)

/-- A block reset to its defaults may be the page that shows the start. -/
theorem StartsAs.resetBlocks (h : StartsAs s₀ s) {k : Package} {ids : List Nat} : StartsAs s₀ (s.resetBlocks k ids) := by
  unfold State.resetBlocks
  extract_lets bs mine q s1 s2
  have hreset : StartsAs s₀ s1 := ⟨NMap.wf_keep (fun key => !mine key) h.wf, h.variant, h.power, h.trigger, h.todo⟩
  have hnoted : KeepsStart s1 s2 := pres_foldl hreset.keepsStart (fun _ _ h => h.notice)
  exact pres_ite h (hreset.trans (KeepsStart.detect hnoted.wr).toStartsAs)

theorem StartsAs.migrateBlocks (h : StartsAs s₀ s) {k : Package} {failed : List Nat} :
    StartsAs s₀ (s.migrateBlocks k failed) := by
  unfold State.migrateBlocks
  extract_lets bs good s1 mine q s2
  have hreset : StartsAs s₀ s1 :=
    pres_cond h.resetBlocks (fun _ h => h.trans (KeepsStart.detect h.keepsStart).toStartsAs)
  have hkept : KeepsStart s1 s2 := hreset.keepsStart.same
  exact pres_ite hreset (hreset.trans hkept.wr.toStartsAs)

theorem StartsAs.bootImages (h : StartsAs s₀ s) {f : BootFound} : StartsAs s₀ (s.bootImages f) := by
  unfold State.bootImages
  extract_lets b u s1 old cut s2 s3 trial s4
  have hpkgs : KeepsStart s s1 := h.keepsStart.same
  have hstaging : KeepsStart s s2 := pres_cond (pres_cond hpkgs (fun _ h => h.dropStaging)) (fun _ h => h.detect)
  have hbooted : KeepsStart s s3 := hstaging.wr.wr.wr
  have himages : StartsAs s₀ s4 := by
    unfold s4
    split
    · exact h.trans hbooted.toStartsAs
    · extract_lets u1 q u2 d u3
      have hshown : KeepsStart s u1 := pres_foldl hbooted (fun _ _ h => h.wr)
      exact pres_cond (P := StartsAs s₀) (h.trans (hshown.same (t := u3)).toStartsAs) (fun _ h => h.migrateBlocks)
  refine pres_ite (himages.trans himages.keepsStart.wr.wr.toStartsAs) ?_
  split
  · exact himages.trans himages.keepsStart.wr.wr.wr.toStartsAs
  · exact himages.trans himages.keepsStart.wr.wr.wr.toStartsAs

theorem KeepsStart.loadRecords (h : KeepsStart s₀ s) : KeepsStart s₀ s.loadRecords := by
  unfold State.loadRecords
  extract_lets n s1 s2 bad
  have hreact : KeepsStart s₀ s2 := pres_cond (P := KeepsStart s₀) h.wr.wr (fun _ h => h.detect)
  split
  · exact hreact.wr.detect.showRec
  · exact KeepsStart.showRec (pres_cond hreact.wr.wr.wr.wr (fun _ h => h.detect))

theorem StartsAs.bootB5 (h : StartsAs s₀ s) {f : BootFound} : StartsAs s₀ (s.bootB5 f) := by
  unfold State.bootB5
  extract_lets s1 t q s2 s3 s4 v
  have himages : StartsAs s₀ (s.bootImages f) := h.bootImages
  have hrecords : KeepsStart (s.bootImages f) s1 := himages.keepsStart.loadRecords
  have hruns : KeepsStart (s.bootImages f) s2 := hrecords.same
  have hhalted : KeepsStart (s.bootImages f) s3 := pres_foldl hruns (fun _ _ h => h.halt)
  have hcorrupt : KeepsStart (s.bootImages f) s4 := pres_cond hhalted (fun _ h => KeepsStart.setCond h.same)
  exact himages.trans hcorrupt.takeFree.wr.toStartsAs

theorem KeepsStart.bootRefs (h : KeepsStart s₀ s) {ok : Bool} : KeepsStart s₀ (s.bootRefs ok) := by
  unfold State.bootRefs
  split
  · exact h.wr.wr.detect
  · exact pres_cond (P := KeepsStart s₀) h.wr (fun _ h => h.wr)

theorem KeepsStart.postWorks (h : KeepsStart s₀ s) : KeepsStart s₀ s.postWorks :=
  h.same

theorem KeepsStart.bootB6 (h : KeepsStart s₀ s) {f : BootFound} : KeepsStart s₀ (s.bootB6 f) := by
  unfold State.bootB6
  extract_lets s1 s2 s3 s4
  have hclocks : KeepsStart s₀ s2 := (h.bootRefs (ok := f.calOk)).armComparators.wr.wr.wr.wr
  have htested : KeepsStart s₀ s3 := pres_cond (P := KeepsStart s₀) hclocks.wr.wr (fun _ h => h.setCond)
  have hcal : KeepsStart s₀ s4 := pres_cond (pres_cond htested (fun _ h => h.detect)) (fun _ h => h.detect)
  exact hcal.saveRails.postWorks

theorem KeepsStart.bootB7 (h : KeepsStart s₀ s) {f : BootFound} : KeepsStart s₀ (s.bootB7 f) :=
  pres_foldl (P := KeepsStart s₀) h (fun _ _ h => pres_ite h.wr.packJudge.ageGauge (pres_ite h.setPack.setCond h))

theorem KeepsStart.showDies (h : KeepsStart s₀ s) {c : Nat} : KeepsStart s₀ (s.showDies c) :=
  pres_cond (P := KeepsStart s₀) h.wr.wr.wr.wr.wr (fun _ h => h.detect)

theorem KeepsStart.findDies (h : KeepsStart s₀ s) {f : BootFound} : KeepsStart s₀ (s.findDies f) := by
  unfold State.findDies
  extract_lets q s1 off q' s2
  have hdies : KeepsStart s₀ s1 := h.same
  exact pres_each (hdies.same (t := s2)) (fun _ _ h => h.showDies)

theorem KeepsStart.trainIf (h : KeepsStart s₀ s) {f : BootFound} {c : Nat} : KeepsStart s₀ (s.trainIf f c) := by
  unfold State.trainIf
  extract_lets pass mode cached keep got s1 q s2 s3
  have hfull : KeepsStart s₀ s1 := pres_cond h (fun _ h => h.same)
  have hcached : KeepsStart s₀ s2 := hfull.same
  exact pres_ite h (pres_ite hfull.killChannel (pres_cond (P := KeepsStart s₀) hcached.wr.wr.wr (fun _ h => h.detect)))

theorem KeepsStart.countDies (h : KeepsStart s₀ s) : KeepsStart s₀ s.countDies := by
  unfold State.countDies
  extract_lets cs s1 s2 s3
  have hdies : KeepsStart s₀ s1 := pres_each h (fun _ _ h => h.wr)
  exact hdies.wr.wr.wr

theorem KeepsStart.layGroup (h : KeepsStart s₀ s) {ms : List (Nat × Nat × Nat)} : KeepsStart s₀ (s.layGroup ms) :=
  pres_ite (P := KeepsStart s₀) h h.same

theorem KeepsStart.layCellar (h : KeepsStart s₀ s) {f : BootFound} : KeepsStart s₀ (s.layCellar f) := by
  unfold State.layCellar
  extract_lets here bs q s1 marks s2 s3
  have hblocks : KeepsStart s₀ s1 := h.same
  have hmarks : KeepsStart s₀ s2 := pres_each hblocks (fun _ _ h => h.wr)
  exact pres_foldl (P := KeepsStart s₀) hmarks.wr (fun _ _ h => h.layGroup)

theorem KeepsStart.lateErases (h : KeepsStart s₀ s) : KeepsStart s₀ s.lateErases := by
  unfold State.lateErases
  extract_lets s1
  have herased : KeepsStart s₀ s1 := pres_foldl h (fun _ _ h => h.eraseNow)
  exact herased.same

theorem KeepsStart.bootB8 (h : KeepsStart s₀ s) {f : BootFound} : KeepsStart s₀ (s.bootB8 f) := by
  unfold State.bootB8
  extract_lets q s1 s2 s3 s4 s5
  have halive : KeepsStart s₀ s1 := h.same
  have htrained : KeepsStart s₀ s2 := pres_each halive.findDies (fun _ _ h => h.trainIf)
  have hkilled : KeepsStart s₀ s3 := pres_foldl htrained (fun _ _ h => h.killChannel)
  have hlaid : KeepsStart s₀ s5 := pres_cond hkilled.countDies (fun _ h => h.layCellar)
  have hrecords := pres_cond (c := f.recordsBad) (g := fun s : State =>
    ({ s with cellar := { s.cellar with seq := s.cellar.seq + 1 } }).detect 81 0) hlaid (fun _ h => KeepsStart.detect h.same)
  exact hrecords.lateErases.showZ.showImage

theorem KeepsStart.bootB9 (h : KeepsStart s₀ s) : KeepsStart s₀ s.bootB9 := by
  unfold State.bootB9
  split
  · exact h
  · exact pres_ite (P := KeepsStart s₀) h.wr.wr.wr h

end

end Sys2Proof.Machine
end

section
/-!
PROOFS. Proofs/StepsDone.lean: a boot step that ends is recorded with its time and lets the next steps run (R435, R437, R260).
-/

namespace Sys2Proof.Machine

-- One theorem after another, as the text compiles near its memory limit.
set_option Elab.async false

/-! ### A step that is complete -/

/-- `t` shows that step `n` of the start of `s` is complete, after `ms`. -/
structure StepShown (n ms : Nat) (s t : State) : Prop where
  step : t.rd R.PWR_START_STEP = n
  time : (if n % 2 = 1 then t.rd (R.PWR_STEP_MS_ODD (n / 2)) else t.rd (R.PWR_STEP_MS_EVEN (n / 2 - 1))) = min ms 65535
  done : t.power.doneSteps = n :: s.power.doneSteps
  run : t.power.runSteps = s.power.runSteps.filter (fun k => k != n) ++ stepsAfter s.variant.fabric (n :: s.power.doneSteps) n
  warm : t.power.warm = s.power.warm

section

variable {s₀ s : State} {n ms : Nat}

theorem startKey_stepMs (n : Nat) : StartKey (R.PWR_STEP_MS_ODD n).key ∧ StartKey (R.PWR_STEP_MS_EVEN n).key := by
  constructor <;>
    · simp only [StartKey, keyPage, keyOff, Fld.key, R.PWR_STEP_MS_ODD, R.PWR_STEP_MS_EVEN]
      omega

theorem startKey_step : StartKey R.PWR_START_STEP.key := .inl (by decide)

theorem StepShown.keeps {t u : State} (h : StepShown n ms s t) (hk : KeepsStart t u) : StepShown n ms s u where
  step := (hk.rd startKey_step).trans h.step
  time := by
    rw [hk.rd (startKey_stepMs _).1, hk.rd (startKey_stepMs _).2]
    exact h.time
  done := hk.power.doneSteps.trans h.done
  run := hk.power.runSteps.trans h.run
  warm := hk.power.warm.trans h.warm

/-- The registers that the end of a step shows its time in. -/
def State.stepTimed (s : State) (n ms : Nat) : State :=
  (if n % 2 = 1 then s.wr (R.PWR_STEP_MS_ODD (n / 2)) (min ms 65535)
    else s.wr (R.PWR_STEP_MS_EVEN (n / 2 - 1)) (min ms 65535)).wr R.PWR_START_STEP n

theorem StartsAs.stepTimed (h : StartsAs s₀ s) : StartsAs s₀ (s.stepTimed n ms) := by
  have hwr {t : State} (ht : StartsAs s₀ t) {f : Fld} {v : Nat} : StartsAs s₀ (t.wr f v) :=
    ⟨State.wf_wr _ _ ht.wf, ht.variant, ht.power, ht.trigger, ht.todo⟩
  exact hwr (pres_ite (hwr h) (hwr h))

theorem State.stepTimed_shows (hw : s.regs.wf = true) (hn : n < 16) :
    (s.stepTimed n ms).rd R.PWR_START_STEP = n ∧
      (if n % 2 = 1 then (s.stepTimed n ms).rd (R.PWR_STEP_MS_ODD (n / 2))
        else (s.stepTimed n ms).rd (R.PWR_STEP_MS_EVEN (n / 2 - 1))) = min ms 65535 := by
  have htime : min ms 65535 % 2 ^ 16 = min ms 65535 := by omega
  have hodd (k : Nat) : (R.PWR_STEP_MS_ODD k).key ≠ R.PWR_START_STEP.key := by
    simp only [Fld.key, R.PWR_STEP_MS_ODD, R.PWR_START_STEP]
    omega
  have heven (k : Nat) : (R.PWR_STEP_MS_EVEN k).key ≠ R.PWR_START_STEP.key := by
    simp only [Fld.key, R.PWR_STEP_MS_EVEN, R.PWR_START_STEP]
    omega
  unfold State.stepTimed
  constructor
  · rw [State.rd_wr_self _ _ (pres_ite (P := fun t : State => t.regs.wf = true) (State.wf_wr _ _ hw) (State.wf_wr _ _ hw))]
    exact Nat.mod_eq_of_lt hn
  · split
    · rw [State.rd_wr_ne _ _ (hodd _), State.rd_wr_self _ _ hw]
      exact htime
    · rw [State.rd_wr_ne _ _ (heven _), State.rd_wr_self _ _ hw]
      exact htime

theorem StartsAs.stepDone (h : StartsAs s₀ s) (hn : n < 16) :
    StepShown n ms s₀ (s.stepDone n ms) ∧ KeepsStart (s.stepDone n ms) (s.stepDone n ms) ∧
      ∀ f : Fld, StartKey f.key → (s.stepDone n ms).rd f = (s.stepTimed n ms).rd f := by
  unfold State.stepDone
  extract_lets s1 s2 done q
  have hnoted : KeepsStart (s.stepTimed n ms) s2 := KeepsStart.tlog (s := s.stepTimed n ms) h.stepTimed.keepsStart
  have hshows := State.stepTimed_shows (ms := ms) h.wf hn
  have hsame : SameStart s₀.power s2.power := h.stepTimed.power.trans hnoted.power
  have hvariant : s2.variant = s₀.variant := hnoted.variant.trans h.stepTimed.variant
  refine ⟨⟨(hnoted.rd startKey_step).trans hshows.1, ?_, ?_, ?_, hsame.warm⟩,
    ⟨⟨hnoted.wf, rfl, .refl _, hnoted.trigger, hnoted.todo⟩, fun _ _ => rfl⟩, fun f hf => hnoted.rd hf⟩
  · refine Eq.trans ?_ hshows.2
    rw [← hnoted.rd (startKey_stepMs _).1, ← hnoted.rd (startKey_stepMs _).2]
    rfl
  · exact congrArg (n :: ·) hsame.doneSteps
  · show s2.power.runSteps.filter (fun k => k != n) ++ stepsAfter s2.variant.fabric (n :: s2.power.doneSteps) n = _
    rw [hsame.doneSteps, hsame.runSteps, hvariant]

end

/-! ### The command -/

section

variable {s : State} {n ms cause : Nat} {f : BootFound}

theorem State.Inv.keepsStart_begin (h : s.Inv) : KeepsStart s s.begin :=
  ⟨⟨h.regs, rfl, .refl _, rfl, nofun⟩, fun _ _ => rfl⟩

theorem exec_bootStepDone (hlife : s.power.life = .starting) (hrun : s.power.runSteps.contains n = true) {ok : Bool}
    (hok : ok = true ∨ n = 6 ∨ n = 7 ∨ n = 9) :
    exec (.bootStepDone n ok cause ms f) s = .next (finish ((s.begin.findFields f.fields).bootDone n ms f)) := by
  show Host.Outcome.next (finish (s.begin.bootStep n ok (cause % 256) ms f)) = _
  unfold State.bootStep
  rw [if_pos ⟨hlife, hrun⟩, if_pos (by simpa using hok)]

/-- R435: a step that its own work leaves alone is recorded. -/
theorem finish_stepDone_shown {u : State} (h : StartsAs s u) (hn : n < 16) : StepShown n ms s (finish (u.stepDone n ms)) :=
  (h.stepDone hn).1.keeps (h.stepDone hn).2.1.finish

theorem bootStepDone_shown (h : s.Inv) (hlife : s.power.life = .starting) (hrun : s.power.runSteps.contains n = true) {ok : Bool}
    (hstep : (ok = true ∧ (n = 3 ∨ n = 5 ∨ n = 8)) ∨ n = 6 ∨ n = 7 ∨ n = 9) :
    ∃ t, exec (.bootStepDone n ok cause ms f) s = .next t ∧ StepShown n ms s t := by
  refine ⟨_, exec_bootStepDone hlife hrun (hstep.imp_left And.left), ?_⟩
  have hfound : KeepsStart s (s.begin.findFields f.fields) := h.keepsStart_begin.findFields
  rcases hstep with ⟨-, rfl | rfl | rfl⟩ | rfl | rfl | rfl
  · exact finish_stepDone_shown hfound.bootB3.toStartsAs (by decide)
  · exact finish_stepDone_shown hfound.toStartsAs.bootB5 (by decide)
  · exact finish_stepDone_shown hfound.bootB8.toStartsAs (by decide)
  · exact finish_stepDone_shown hfound.bootB6.toStartsAs (by decide)
  · exact finish_stepDone_shown hfound.bootB7.toStartsAs (by decide)
  · exact finish_stepDone_shown hfound.bootB9.toStartsAs (by decide)

theorem seqBusy_findFields (l : List (Nat × Nat)) (k : Nat) : (s.begin.findFields l).seqBusy k = s.seqBusy k := by
  have hpending : (s.begin.findFields l).rd R.SEQ_STAT_PENDING = s.rd R.SEQ_STAT_PENDING :=
    State.rd_findFields l (by decide +kernel) (by decide) (by decide) (by decide)
  have hseq : (s.begin.findFields l).seq = s.seq :=
    pres_cond (P := fun t : State => t.seq = s.seq) rfl (fun _ h => h)
  unfold State.seqBusy State.bit
  rw [hpending, hseq]

/-- B1 is complete once neither `POWER_UP` nor `DORMANT_EXIT` is left to run. -/
theorem bootStepDone_one (h : s.Inv) (hlife : s.power.life = .starting) (hrun : s.power.runSteps.contains 1 = true)
    (hup : s.seqBusy 0 = false) (hexit : s.seqBusy 7 = false) :
    ∃ t, exec (.bootStepDone 1 true cause ms f) s = .next t ∧ StepShown 1 ms s t := by
  refine ⟨_, exec_bootStepDone hlife hrun (.inl rfl), ?_⟩
  have hfound : KeepsStart s (s.begin.findFields f.fields) := h.keepsStart_begin.findFields
  unfold State.bootDone
  simp only [seqBusy_findFields, hup, hexit, Bool.or_self, Bool.false_eq_true, if_false]
  exact finish_stepDone_shown hfound.toStartsAs (by decide)

/-- B4 with both banks good (R511). -/
theorem bootStepDone_four (h : s.Inv) (hlife : s.power.life = .starting) (hrun : s.power.runSteps.contains 4 = true)
    (h0 : f.bank0Ok = true) (h1 : f.bank1Ok = true) :
    ∃ t, exec (.bootStepDone 4 true cause ms f) s = .next t ∧ StepShown 4 ms s t := by
  refine ⟨_, exec_bootStepDone hlife hrun (.inl rfl), ?_⟩
  have hjournal : KeepsStart s (s.begin.findFields f.fields).bootJournal := h.keepsStart_begin.findFields.bootJournal
  have hlife : (s.begin.findFields f.fields).bootJournal.power.life ≠ .recovery := by
    rw [hjournal.power.life, hlife]
    decide
  have hb4 : (s.begin.findFields f.fields).bootB4 f = ((s.begin.findFields f.fields).bootJournal, none) := by
    unfold State.bootB4
    simp [h0, h1]
  unfold State.bootDone
  simp only [hb4, if_neg hlife]
  exact finish_stepDone_shown hjournal.toStartsAs (by decide)

end

/-! ### B2 -/

section

variable {s₀ s : State}

theorem KeepsStart.resumeCounts (h : KeepsStart s₀ s) : KeepsStart s₀ s.resumeCounts :=
  h.wr.wr

theorem not_startKey_railCounter (i k : Nat) : ¬StartKey (railCounter i k).key := by
  unfold railCounter
  split <;> exact not_startKey_of_place (by omega) (by omega) (by omega) (by omega)

theorem KeepsStart.loadRails (h : KeepsStart s₀ s) : KeepsStart s₀ s.loadRails :=
  pres_each (P := KeepsStart s₀) h (fun _ _ h => h.wr_of_key (not_startKey_railCounter _ _))

theorem KeepsStart.contextGone (h : KeepsStart s₀ s) : KeepsStart s₀ s.contextGone :=
  (KeepsStart.resumeCounts h.same).loadRails

theorem KeepsStart.islandUnpow (h : KeepsStart s₀ s) {found : Nat} : KeepsStart s₀ (s.islandUnpow found) := by
  unfold State.islandUnpow
  extract_lets q s1
  have hcounted : KeepsStart s₀ s1 := h.same
  exact pres_ite (KeepsStart.wr h.same) hcounted.wr.wr.wr

theorem KeepsStart.loadStore (h : KeepsStart s₀ s) {bad : Nat} : KeepsStart s₀ (s.loadStore bad) := by
  unfold State.loadStore
  extract_lets good lost q s1 s2
  have hstored : KeepsStart s₀ s1 := h.same
  exact pres_cond (P := KeepsStart s₀) hstored.wr (fun _ h => h.detect)

theorem KeepsStart.bootBank (h : KeepsStart s₀ s) : KeepsStart s₀ s.bootBank := by
  unfold State.bootBank
  extract_lets q whole
  split
  · exact h.wr.wr.wr
  · extract_lets lag a b mend trial s1 s2 bank
    have hwords : KeepsStart s₀ s1 := h.same
    have hmended : KeepsStart s₀ s2 := pres_cond hwords (fun _ h => h.detect)
    exact hmended.wr.wr.wr

/-- The start is at the same point, but for its kind. -/
structure KindDecided (s : State) (ctx warm : Bool) (t : State) : Prop where
  starts : StartsAs t t
  variant : t.variant = s.variant
  doneSteps : t.power.doneSteps = s.power.doneSteps
  runSteps : t.power.runSteps = s.power.runSteps
  decided : t.power.warm = warm
  valid : t.rd R.SNT_CTX_VALID = b2n ctx
  kind : t.rd R.PWR_START_KIND = b2n warm

/-- Whether the start is warm (R437). -/
def State.startsWarm (s : State) (f : BootFound) : Bool :=
  s.power.ctxOk && f.crcOk && f.layoutOk && !s.flag R.SNT_CTRL_FORCE_COLD && decide (s.rd R.SNT_FAILS_WARM < 3)

theorem KeepsStart.bootB2 (h : KeepsStart s₀ s) {f : BootFound} (hrec : s.flag R.SNT_FAILS_RECOVERY = false) :
    KindDecided s₀ (s.power.ctxOk && f.crcOk) (s.startsWarm f) (s.bootB2 f) := by
  unfold State.bootB2
  rw [if_neg (by simp [hrec])]
  extract_lets ctx few warm s1 s2 s3 s4 s5 s6 s7 s8 q s9 s10
  have hb2n (b : Bool) : b2n b % 2 ^ 1 = b2n b := by cases b <;> rfl
  have hfaults : KeepsStart s₀ s1 := pres_cond (pres_cond h (fun _ h => h.detect)) (fun _ h => h.detect)
  have hvalid : KeepsStart (s1.wr R.SNT_CTX_VALID (b2n ctx)) (s1.wr R.SNT_CTX_VALID (b2n ctx)) :=
    ⟨⟨State.wf_wr _ _ hfaults.wf, rfl, .refl _, hfaults.trigger, hfaults.todo⟩, fun _ _ => rfl⟩
  have hcontext : KeepsStart (s1.wr R.SNT_CTX_VALID (b2n ctx)) s5 :=
    KeepsStart.inc (pres_cond (pres_cond (pres_cond hvalid.wr (fun _ h => h.detect)) (fun _ h => h.detect))
      (fun _ h => h.contextGone))
  have hfew : KeepsStart (s1.wr R.SNT_CTX_VALID (b2n ctx)) s6 :=
    KeepsStart.wr (pres_cond hcontext (fun _ h => h.wr.detect))
  have hkind : KeepsStart (s6.wr R.PWR_START_KIND (b2n warm)) (s6.wr R.PWR_START_KIND (b2n warm)) :=
    ⟨⟨State.wf_wr _ _ hfew.wf, rfl, .refl _, hfew.trigger, hfew.todo⟩, fun _ _ => rfl⟩
  have hcounted : KeepsStart (s6.wr R.PWR_START_KIND (b2n warm)) s8 := pres_ite hkind.wr.inc hkind.wr.inc
  have hwarm : KeepsStart s9 s9 := ⟨⟨hcounted.wf, rfl, .refl _, hcounted.trigger, hcounted.todo⟩, fun _ _ => rfl⟩
  have hpool : KeepsStart s9 s10 := pres_cond hwarm (fun _ h => h.same)
  have hend : KeepsStart s9 (((s10.islandUnpow f.unpow).loadStore f.badStore).bootBank) := hpool.islandUnpow.loadStore.bootBank
  have hsame : SameStart s₀.power s8.power := (hfaults.power.trans hfew.power).trans hcounted.power
  have hvariant : s8.variant = s₀.variant := hcounted.variant.trans (hfew.variant.trans hfaults.variant)
  have hctx : s9.rd R.SNT_CTX_VALID = b2n ctx := by
    calc s8.rd R.SNT_CTX_VALID
      _ = s6.rd R.SNT_CTX_VALID := by rw [hcounted.rd (.inr (.inl rfl)), State.rd_wr_ne _ _ (by decide)]
      _ = b2n ctx := by rw [hfew.rd (.inr (.inl rfl)), State.rd_wr_self _ _ hfaults.wf]; exact hb2n ctx
  have hshown : s9.rd R.PWR_START_KIND = b2n warm := by
    calc s8.rd R.PWR_START_KIND
      _ = (s6.wr R.PWR_START_KIND (b2n warm)).rd R.PWR_START_KIND := hcounted.rd (.inl (by decide))
      _ = b2n warm := by rw [State.rd_wr_self _ _ hfew.wf]; cases warm <;> rfl
  exact {
    starts := hend.toStartsAs.keepsStart.toStartsAs
    variant := hend.variant.trans hvariant
    doneSteps := hend.power.doneSteps.trans hsame.doneSteps
    runSteps := hend.power.runSteps.trans hsame.runSteps
    decided := hend.power.warm
    valid := (hend.rd (.inr (.inl rfl))).trans hctx
    kind := (hend.rd (.inl (by decide))).trans hshown }

end

section

variable {s : State} {ms cause : Nat} {f : BootFound}

theorem startsWarm_findFields (l : List (Nat × Nat)) : (s.begin.findFields l).startsWarm f = s.startsWarm f := by
  have hpower : (s.begin.findFields l).power = s.power :=
    pres_cond (P := fun t : State => t.power = s.power) rfl (fun _ h => h)
  have hcold : (s.begin.findFields l).rd R.SNT_CTRL_FORCE_COLD = s.rd R.SNT_CTRL_FORCE_COLD :=
    State.rd_findFields l (by decide +kernel) (by decide) (by decide) (by decide)
  have hfails : (s.begin.findFields l).rd R.SNT_FAILS_WARM = s.rd R.SNT_FAILS_WARM :=
    State.rd_findFields l (by decide +kernel) (by decide) (by decide) (by decide)
  unfold State.startsWarm State.flag
  rw [hpower, hcold, hfails]

/-- B2 decides the kind of the start (R437). -/
theorem bootStepDone_two (h : s.Inv) (hlife : s.power.life = .starting) (hrun : s.power.runSteps.contains 2 = true)
    (hrec : s.flag R.SNT_FAILS_RECOVERY = false) :
    ∃ t, exec (.bootStepDone 2 true cause ms f) s = .next t ∧
      StepShown 2 ms { s with power := { s.power with warm := s.startsWarm f } } t ∧
      t.rd R.SNT_CTX_VALID = b2n (s.power.ctxOk && f.crcOk) ∧ t.rd R.PWR_START_KIND = b2n (s.startsWarm f) := by
  refine ⟨_, exec_bootStepDone hlife hrun (.inl rfl), ?_⟩
  have hfound : KeepsStart s (s.begin.findFields f.fields) := h.keepsStart_begin.findFields
  have hctx : (s.begin.findFields f.fields).power.ctxOk = s.power.ctxOk :=
    pres_cond (P := fun t : State => t.power.ctxOk = s.power.ctxOk) rfl (fun _ h => h)
  have hflag : (s.begin.findFields f.fields).flag R.SNT_FAILS_RECOVERY = false := by
    have hrd : (s.begin.findFields f.fields).rd R.SNT_FAILS_RECOVERY = s.rd R.SNT_FAILS_RECOVERY :=
      State.rd_findFields _ (by decide +kernel) (by decide) (by decide) (by decide)
    unfold State.flag
    rw [hrd]
    exact hrec
  have hkind := hfound.bootB2 (f := f) hflag
  rw [hctx, startsWarm_findFields] at hkind
  have hdone : (s.begin.findFields f.fields).bootDone 2 ms f = ((s.begin.findFields f.fields).bootB2 f).stepDone 2 ms := by
    unfold State.bootDone State.cond
    simp [hflag]
  rw [hdone]
  obtain ⟨hshown, hkeeps, hrd⟩ := hkind.starts.stepDone (n := 2) (ms := ms) (by decide)
  have hstep : StepShown 2 ms { s with power := { s.power with warm := s.startsWarm f } }
      (((s.begin.findFields f.fields).bootB2 f).stepDone 2 ms) := {
    step := hshown.step
    time := hshown.time
    done := by rw [hshown.done, hkind.doneSteps]
    run := by rw [hshown.run, hkind.doneSteps, hkind.runSteps, hkind.variant]
    warm := hshown.warm.trans hkind.decided }
  have htimed {g : Fld} (hg : StartKey g.key) (hstep : g.key ≠ R.PWR_START_STEP.key)
      (htime : g.key ≠ (R.PWR_STEP_MS_EVEN 0).key) :
      (finish (((s.begin.findFields f.fields).bootB2 f).stepDone 2 ms)).rd g = ((s.begin.findFields f.fields).bootB2 f).rd g := by
    rw [hkeeps.finish.rd hg, hrd g hg]
    exact (State.rd_wr_ne _ _ hstep).trans (State.rd_wr_ne _ _ htime)
  exact ⟨hstep.keeps hkeeps.finish, (htimed (.inr (.inl rfl)) (by decide) (by decide)).trans hkind.valid,
    (htimed (.inl (by decide)) (by decide) (by decide)).trans hkind.kind⟩

end

/-! ### B10 and B11 -/

section

variable {s₀ s : State} {n ms : Nat}

theorem KeepsStart.showCask (h : KeepsStart s₀ s) {c : Cask} : KeepsStart s₀ (s.showCask c) := by
  unfold State.showCask
  extract_lets s1 s2 s3 s4
  have htrigger : KeepsStart s₀ s1 := h.wr.wr.wr
  have hlost : KeepsStart s₀ s2 := htrigger.wr.wr
  have hshown : KeepsStart s₀ s3 := hlost.wr.wr.wr
  have htimes : KeepsStart s₀ s4 := hshown.wr.wr.wr
  exact pres_each htimes (fun _ _ h => h.wr.wr)

theorem StartsAs.written (h : StartsAs s₀ s) {f : Fld} {v : Nat} : StartsAs s₀ (s.wr f v) :=
  ⟨State.wf_wr _ _ h.wf, h.variant, h.power, h.trigger, h.todo⟩

/-- ST1 begins without a hold. -/
theorem StartsAs.st1Begin (h : StartsAs s₀ s) {a b : Bool} :
    KeepsStart ((s.wr R.STP_STAT_PHASE 1).wr R.STP_STAT_HOLD 0) (s.st1Begin a b) := by
  unfold State.st1Begin
  extract_lets best bad fin s1 s2 s3 s4 s5 s6 again s7
  clear_value best
  have hbegun : KeepsStart s1 s1 := h.written.written.keepsStart
  have hcask : KeepsStart s1 s3 := by
    unfold s3
    split
    · exact hbegun.wr.showCask
    · exact hbegun.wr
  have hnext : KeepsStart s1 s6 := (hcask.wr.wr.wr.bump.wr.wr : KeepsStart s1 s6)
  have hcounted : KeepsStart s1 s7 := pres_cond hnext (fun _ h => h.same)
  exact KeepsStart.seqRequest (pres_cond hcounted (fun _ h => KeepsStart.detect (KeepsStart.inc (pres_each h (fun _ _ h => h.inc)))))

theorem KeepsStart.openEpoch (h : KeepsStart s₀ s) {best : Option Cask} {bad : Bool} : KeepsStart s₀ (s.openEpoch best bad) := by
  unfold State.openEpoch
  extract_lets n c s1 c' s2
  have herased : KeepsStart s₀ s1 := pres_ite (P := KeepsStart s₀) h.same h.same
  have hopened : KeepsStart s₀ s2 := herased.same
  exact hopened.wr.wr

theorem StepShown.wr {t : State} (h : StepShown n ms s t) {f : Fld} {v : Nat} (hf : keyPage f.key ≠ 0xD8) :
    StepShown n ms s (t.wr f v) where
  step := (State.rd_wr_ne _ _ (fun he => hf (by rw [← he]; decide))).trans h.step
  time := by
    have hodd : (R.PWR_STEP_MS_ODD (n / 2)).key ≠ f.key := fun he => hf (by
      rw [← he]
      simp only [keyPage, Fld.key, R.PWR_STEP_MS_ODD]
      omega)
    have heven : (R.PWR_STEP_MS_EVEN (n / 2 - 1)).key ≠ f.key := fun he => hf (by
      rw [← he]
      simp only [keyPage, Fld.key, R.PWR_STEP_MS_EVEN]
      omega)
    rw [State.rd_wr_ne _ _ hodd, State.rd_wr_ne _ _ heven]
    exact h.time
  done := h.done
  run := h.run
  warm := h.warm

end

section

variable {s : State} {ms cause : Nat} {f : BootFound}

/-- B10 with a valid cask key is complete, and ST1 begins. -/
theorem bootStepDone_ten (h : s.Inv) (hlife : s.power.life = .starting) (hrun : s.power.runSteps.contains 10 = true)
    (hvalid : s.flag R.CRY_STAT_KEY_VALID = true) (hkat : f.katOk = true) :
    ∃ t, exec (.bootStepDone 10 true cause ms f) s = .next t ∧ StepShown 10 ms s t := by
  refine ⟨_, exec_bootStepDone hlife hrun (.inl rfl), ?_⟩
  have hengines : KeepsStart s (f.badEngines.foldl State.retireEngine (s.begin.findFields f.fields)) :=
    pres_foldl h.keepsStart_begin.findFields (fun _ _ h => h.retireEngine)
  generalize hu : f.badEngines.foldl State.retireEngine (s.begin.findFields f.fields) = u at hengines
  have hkey : u.flag R.CRY_STAT_KEY_VALID = true := by
    unfold State.flag
    rw [hengines.rd (.inr (.inr (.inr rfl)))]
    exact hvalid
  have hb10 : u.bootB10 f = (u, true) := by
    unfold State.bootB10
    rw [if_pos hkey]
  have hdone : (s.begin.findFields f.fields).bootDone 10 ms f = (u.stepDone 10 ms).st1Begin f.slot0Ok f.slot1Ok := by
    unfold State.bootDone
    simp [hkat, hu, hb10]
  rw [hdone]
  obtain ⟨hshown, hkeeps, -⟩ := hengines.toStartsAs.stepDone (n := 10) (ms := ms) (by decide)
  exact ((hshown.wr (by decide)).wr (by decide)).keeps hkeeps.toStartsAs.st1Begin.finish

/-- B11 in hold 4 with fewer than eight chained logs is complete, and the hold ends (R260). -/
theorem bootStepDone_eleven (h : s.Inv) (hlife : s.power.life = .starting) (hrun : s.power.runSteps.contains 11 = true)
    (hseq : s.seqBusy 3 = false) (hhold : s.rd R.STP_STAT_HOLD = 4) (hchain : s.cellar.chain.length < 8) :
    ∃ t, exec (.bootStepDone 11 true cause ms f) s = .next t ∧ StepShown 11 ms s t ∧ t.rd R.STP_STAT_HOLD = 0 := by
  refine ⟨_, exec_bootStepDone hlife hrun (.inl rfl), ?_⟩
  have hfound : KeepsStart s (s.begin.findFields f.fields) := h.keepsStart_begin.findFields
  have hbusy : (s.begin.findFields f.fields).seqBusy 3 = false := (seqBusy_findFields _ _).trans hseq
  have hcellar : (s.begin.findFields f.fields).cellar = s.cellar :=
    pres_cond (P := fun t : State => t.cellar = s.cellar) rfl (fun _ h => h)
  generalize s.begin.findFields f.fields = u at hfound hbusy hcellar
  have hheld : u.rd R.STP_STAT_HOLD = 4 := (hfound.rd (.inr (.inr (.inl rfl)))).trans hhold
  have hb11 : u.bootB11 f ms = (((u.wr R.STP_STAT_HOLD 0).openEpoch
      (newerCask (pickCask u.cellar.slot0 f.slot0Ok) (pickCask u.cellar.slot1 f.slot1Ok))
      (u.unsealedStart f.slot0Ok f.slot1Ok)).wr R.STP_TIMES_ST1_MS (min 65535 ms), true) := by
    unfold State.bootB11
    rw [if_pos hheld, if_neg (by rw [hcellar]; omega)]
  have hdone : u.bootDone 11 ms f = (u.bootB11 f ms).1.stepDone 11 ms := by
    unfold State.bootDone State.cond
    simp [hheld, hbusy, hb11]
  rw [hdone, hb11]
  have hended : KeepsStart (u.wr R.STP_STAT_HOLD 0) (((u.wr R.STP_STAT_HOLD 0).openEpoch
      (newerCask (pickCask u.cellar.slot0 f.slot0Ok) (pickCask u.cellar.slot1 f.slot1Ok))
      (u.unsealedStart f.slot0Ok f.slot1Ok)).wr R.STP_TIMES_ST1_MS (min 65535 ms)) :=
    (hfound.toStartsAs.written (f := R.STP_STAT_HOLD) (v := 0)).keepsStart.openEpoch.wr
  generalize ((u.wr R.STP_STAT_HOLD 0).openEpoch (newerCask (pickCask u.cellar.slot0 f.slot0Ok) (pickCask u.cellar.slot1 f.slot1Ok))
    (u.unsealedStart f.slot0Ok f.slot1Ok)).wr R.STP_TIMES_ST1_MS (min 65535 ms) = v at hended
  have hstarts : StartsAs s v := hfound.toStartsAs.written.trans hended.toStartsAs
  obtain ⟨hshown, hkeeps, hrd⟩ := hstarts.stepDone (n := 11) (ms := ms) (by decide)
  have hkey : StartKey R.STP_STAT_HOLD.key := .inr (.inr (.inl rfl))
  refine ⟨hshown.keeps hkeeps.finish, ?_⟩
  calc (finish (v.stepDone 11 ms)).rd R.STP_STAT_HOLD
    _ = (v.stepTimed 11 ms).rd R.STP_STAT_HOLD := by rw [hkeeps.finish.rd hkey, hrd _ hkey]
    _ = v.rd R.STP_STAT_HOLD := (State.rd_wr_ne _ _ (by decide)).trans (State.rd_wr_ne _ _ (by decide))
    _ = 0 := by rw [hended.rd hkey, State.rd_wr_self _ _ hfound.wf]; rfl

end

end Sys2Proof.Machine
end

section
/-!
PROOFS. Proofs/StartFailures.lean: a boot step that fails ends the start (R438).
-/

namespace Sys2Proof.Machine

-- One theorem after another, as the text compiles near its memory limit.
set_option Elab.async false

/-! ### A step that fails -/

section

variable {s u : State} {n cause : Nat}

/-- The safety manager and the update are in `t` as in `s`. -/
def SameManagers (s t : State) : Prop := t.safe = s.safe ∧ t.update = s.update

theorem State.seqRequest_sameManagers (s : State) (n : Nat) : SameManagers s (s.seqRequest n) := by
  have hsame {t : State} (hsafe : t.safe = s.safe := by rfl) (hupdate : t.update = s.update := by rfl) : SameManagers s t :=
    ⟨hsafe, hupdate⟩
  have hbit : SameManagers s (s.setBit R.SEQ_STAT_PENDING n true) := pres_ite hsame hsame
  unfold State.seqRequest
  dsimp only
  split
  · exact hsame
  · exact pres_ite hsame (pres_ite hsame (pres_ite hsame hbit))

/-- A start that fails, before `POWER_DOWN` is asked for (R438, R439). -/
def State.startFailed (s : State) (step cause : Nat) : State :=
  let s := ((s.wr R.SNT_FAILS_LAST_STEP step).wr R.SNT_FAILS_LAST_CAUSE cause).inc R.SNT_FAILS_TOTAL
  let s := if s.power.warm then s.inc R.SNT_FAILS_WARM else s.inc R.SNT_FAILS_COLD
  let recover := decide (3 ≤ s.rd R.SNT_FAILS_COLD)
  let s := { s with power := { s.power with life := .failed, runSteps := [], cause := 4 },
                    safe := { s.safe with errnStart := true } }
  (s.cond recover (fun s => (s.wr R.SNT_FAILS_RECOVERY 1).detect 244 0)).detect 242 0

/-- What a failing start notes of itself is in `u`, the rest as in `s`. -/
structure FailNoted (s : State) (n cause : Nat) (u : State) : Prop where
  wf : u.regs.wf = true
  variant : u.variant = s.variant
  kept : u.update.kept = []
  trigger : u.update.trigger = false
  step : u.rd R.SNT_FAILS_LAST_STEP = n
  cause : u.rd R.SNT_FAILS_LAST_CAUSE = cause
  frame : SteadyRegsBut s u startFailRegs

theorem FailNoted.same (h : FailNoted s n cause u) {t : State} (hregs : t.regs = u.regs := by rfl)
    (hvariant : t.variant = u.variant := by rfl) (hkept : t.update.kept = u.update.kept := by rfl)
    (htrig : t.update.trigger = u.update.trigger := by rfl) : FailNoted s n cause t := by
  have hrd (f : Fld) : t.rd f = u.rd f := congrArg (fun m => RegFile.rd m f) hregs
  exact ⟨(congrArg NMap.wf hregs).trans h.wf, hvariant.trans h.variant, hkept.trans h.kept, htrig.trans h.trigger,
    (hrd _).trans h.step, (hrd _).trans h.cause,
    fun f hsteady hoff hlsb hidx hother => (hrd f).trans (h.frame f hsteady hoff hlsb hidx hother)⟩

theorem FailNoted.wr (h : FailNoted s n cause u) {f : Fld} (hf : f ∈ startFailRegs)
    (hstep : R.SNT_FAILS_LAST_STEP.key ≠ f.key) (hcause : R.SNT_FAILS_LAST_CAUSE.key ≠ f.key) (v : Nat) :
    FailNoted s n cause (u.wr f v) :=
  ⟨State.wf_wr _ _ h.wf, h.variant, h.kept, h.trigger, (State.rd_wr_ne _ _ hstep).trans h.step,
    (State.rd_wr_ne _ _ hcause).trans h.cause, h.frame.wr hf v⟩

theorem FailNoted.inc (h : FailNoted s n cause u) {f : Fld} (hf : f ∈ startFailRegs)
    (hstep : R.SNT_FAILS_LAST_STEP.key ≠ f.key) (hcause : R.SNT_FAILS_LAST_CAUSE.key ≠ f.key) : FailNoted s n cause (u.inc f) :=
  pres_ite (P := FailNoted s n cause) (h.wr hf hstep hcause _) h

/-- `u` has only the registers of a failing start changed, so far. -/
theorem State.startFailed_noted (hw : u.regs.wf = true) (hvariant : u.variant = s.variant) (hkept : u.update.kept = [])
    (htrig : u.update.trigger = false) (hframe : SteadyRegsBut s u startFailRegs) (hn : n < 16) (hcause : cause < 256) :
    FailNoted s n cause (u.startFailed n cause) := by
  unfold State.startFailed
  extract_lets s1 s2 recover p sf s3
  have hmarked : FailNoted s n cause ((u.wr R.SNT_FAILS_LAST_STEP n).wr R.SNT_FAILS_LAST_CAUSE cause) := {
    wf := State.wf_wr _ _ (State.wf_wr _ _ hw)
    variant := hvariant
    kept := hkept
    trigger := htrig
    step := by
      rw [State.rd_wr_ne _ _ (by decide), State.rd_wr_self _ _ hw]
      exact Nat.mod_eq_of_lt hn
    cause := by
      rw [State.rd_wr_self _ _ (State.wf_wr _ _ hw)]
      exact Nat.mod_eq_of_lt hcause
    frame := (hframe.wr (by decide) _).wr (by decide) _ }
  have htotal : FailNoted s n cause s1 := hmarked.inc (by decide) (by decide) (by decide)
  have hcounted : FailNoted s n cause s2 :=
    pres_ite (htotal.inc (by decide) (by decide) (by decide)) (htotal.inc (by decide) (by decide) (by decide))
  have hfailed : FailNoted s n cause s3 := hcounted.same
  have hrecover := pres_cond (c := recover) (g := fun s : State => (s.wr R.SNT_FAILS_RECOVERY 1).detect 244 0) hfailed
    (fun _ h => (h.wr (f := R.SNT_FAILS_RECOVERY) (by decide) (by decide) (by decide) 1).same)
  exact hrecover.same

theorem FailNoted.finish_seqRequest (h : FailNoted s n cause u) (hmem : (242, 0) ∈ u.safe.todo) :
    (finish (u.seqRequest 1)).bit (R.FLT_STAT 0xD8) 3 = true ∧ (finish (u.seqRequest 1)).rd R.SNT_FAILS_LAST_STEP = n ∧
      (finish (u.seqRequest 1)).rd R.SNT_FAILS_LAST_CAUSE = cause ∧
      SteadyRegsBut s (finish (u.seqRequest 1)) startFailRegs := by
  have hreq : Unreacted u (u.seqRequest 1) := (unreacted_reactive u).seqRequest 1 (Unreacted.refl u)
  have hend : Unreacted u (finish (u.seqRequest 1)) := hreq.finish
  have htrig : (u.seqRequest 1).update.trigger = false := by
    rw [(State.seqRequest_sameManagers _ _).2, h.trigger]
  have hpage : pagePresent (u.seqRequest 1).variant (srcPage 242 0) = true := by
    cases (u.seqRequest 1).variant <;> decide
  refine ⟨?_, (hend.rd_steady h.kept (f := R.SNT_FAILS_LAST_STEP) (by decide) (by decide)).trans h.step,
    (hend.rd_steady h.kept (f := R.SNT_FAILS_LAST_CAUSE) (by decide) (by decide)).trans h.cause,
    h.frame.unreacted h.kept hend⟩
  exact finish_latches (src := 242) (inst := 0) (by rwa [(State.seqRequest_sameManagers _ _).1]) htrig (by decide)
    (by decide) hpage (hreq.wf h.wf) (hreq.kept.elim (·.trans h.kept) id)

end

section

variable {s : State} {n ms cause : Nat}

theorem bootStepDone_fails (h : s.Sound) (hlife : s.power.life = .starting) (hrun : s.power.runSteps.contains n = true)
    (hn : n = 3 ∨ n = 4 ∨ n = 5 ∨ n = 8 ∨ n = 10 ∨ n = 12) (hcause : cause < 256) :
    ∃ t, exec (.bootStepDone n false cause ms {}) s = .next t ∧ t.bit (R.FLT_STAT 0xD8) 3 = true ∧
      t.rd R.SNT_FAILS_LAST_STEP = n ∧ t.rd R.SNT_FAILS_LAST_CAUSE = cause ∧ SteadyRegsBut s t startFailRegs := by
  have hexec : exec (.bootStepDone n false cause ms {}) s =
      .next (finish (((s.begin.findFields []).startFailed n cause).seqRequest 1)) := by
    show Host.Outcome.next (finish (s.begin.bootStep n false (cause % 256) ms {})) = _
    unfold State.bootStep
    rw [if_pos ⟨hlife, hrun⟩, if_neg (by simp; omega), Nat.mod_eq_of_lt hcause]
    rfl
  have hfound : KeepsStart s (s.begin.findFields []) := h.inv.keepsStart_begin.findFields
  have hkept : (s.begin.findFields []).update.kept = [] :=
    pres_cond (P := fun t : State => t.update.kept = []) h.kept (fun _ h => h)
  have hframe : SteadyRegsBut s (s.begin.findFields []) startFailRegs := by
    unfold State.findFields
    extract_lets s1 s2 m
    have hver : SteadyRegsBut s s2 startFailRegs :=
      pres_cond (P := fun t => SteadyRegsBut s t startFailRegs) (.of_regs rfl) (fun _ h => h.wr (by decide) _)
    exact (hver.wr (by decide) _).wr (by decide) _
  refine ⟨_, hexec, FailNoted.finish_seqRequest
    (State.startFailed_noted hfound.wf hfound.variant hkept hfound.trigger hframe (by omega) hcause) ?_⟩
  exact List.mem_append_right _ (List.mem_singleton.mpr rfl)

end

end Sys2Proof.Machine
end

section
/-!
PROOFS. Proofs/StartsBegun.lean: a device that is off starts once `MAIN_IN` has held (R539).
-/

namespace Sys2Proof.Machine

-- One theorem after another, as the text compiles near its memory limit.
set_option Elab.async false

/-! ### A start begins -/

section

variable {s₀ s : State} {cause : Nat}

theorem KeepsStart.fuse (h : KeepsStart s₀ s) : KeepsStart s₀ s.fuse := by
  unfold State.fuse
  extract_lets v w1 w2 w3 w4 r n
  have hpart : KeepsStart s₀ w1 := h.wr.wr.wr
  have hunits : KeepsStart s₀ w2 := hpart.wr.wr.wr
  have hfabric : KeepsStart s₀ w3 := hunits.wr.wr.wr
  have hqueues : KeepsStart s₀ w4 := hfabric.wr.wr.wr
  exact hqueues.wr.wr

theorem State.restoreSettings_parts (s : State) :
    s.restoreSettings.update.trigger = s.update.trigger ∧ s.restoreSettings.power = s.power :=
  pres_ite (P := fun t : State => t.update.trigger = s.update.trigger ∧ t.power = s.power) ⟨rfl, rfl⟩ ⟨rfl, rfl⟩

/-- What a start clears leaves nothing detected that ends a trial, the supply, and no memory. -/
theorem State.startReset_clears (h : s.Inv) (htrig : s.update.trigger = false) :
    StartsAs s.startReset s.startReset ∧ s.startReset.power.mainGood = s.power.mainGood ∧ s.startReset.dram.mem = [] := by
  have hback : s.flashAbandon.restoreSettings.Inv := stable_inv.restoreSettings (stable_inv.flashAbandon h)
  have hparts := s.flashAbandon.restoreSettings_parts
  unfold State.startReset
  extract_lets s1 d c a b p fl up t
  have hclear : KeepsStart t t :=
    ⟨⟨NMap.wf_keep survives hback.regs, rfl, .refl _, hparts.1.trans htrig, nofun⟩, fun _ _ => rfl⟩
  have harmed := pres_cond (c := !s1.flag R.KLN_CTRL_ARM) (g := fun s : State => s.setCond 44 0 true) hclear
    (fun _ h => h.setCond)
  refine ⟨harmed.toStartsAs.keepsStart.toStartsAs, ?_, ?_⟩
  · have hgood : s.flashAbandon.restoreSettings.power.mainGood = s.power.mainGood := congrArg Power.mainGood hparts.2
    exact harmed.power.mainGood.trans hgood
  · exact pres_cond (P := fun t : State => t.dram.mem = []) rfl
      (fun t h => pres_ite (P := fun t : State => t.dram.mem = []) (pres_ite (P := fun t : State => t.dram.mem = []) h h) h)

theorem Unreacted.mem_eq {u : State} (h : Unreacted s u) : u.dram.mem = s.dram.mem := by
  rw [h.dram]

/-- What a start that begins shows. -/
structure StartBegun (good : Bool) (cause : Nat) (t : State) : Prop where
  life : t.power.life = .starting
  mainGood : t.power.mainGood = good
  runSteps : t.power.runSteps = [1]
  doneSteps : t.power.doneSteps = []
  cause : t.rd R.PWR_START_CAUSE = cause
  mem : t.dram.mem = []

theorem State.Inv.startBegin_finish (h : s.Inv) (htrig : s.update.trigger = false) (hcause : cause < 8) :
    StartBegun s.power.mainGood cause (finish (s.startBegin cause)) := by
  obtain ⟨hclear, hgood, hmem⟩ := State.startReset_clears h htrig
  unfold State.startBegin
  extract_lets from34 s1 q s2 s3
  have hnoted : KeepsStart s.startReset s1 := pres_cond hclear.keepsStart.fuse (fun _ h => h.tlog)
  have hnothing : Unreacted s.startReset.fuse s1 :=
    pres_cond (Unreacted.refl _) (fun _ h => (unreacted_reactive _).tlog _ _ h)
  have hbegun : KeepsStart s2 s2 := ⟨⟨hnoted.wf, rfl, .refl _, hnoted.trigger, hnoted.todo⟩, fun _ _ => rfl⟩
  have hshown : KeepsStart s3 s3 := hbegun.toStartsAs.written.keepsStart
  have hreq : KeepsStart s3 (finish ((s3.cond from34 (fun s => s.seqRequest 7)).seqRequest 0).showSeq) :=
    (KeepsStart.seqRequest (pres_cond hshown (fun _ h => h.seqRequest))).showSeq.finish
  have hend : Unreacted s3 (finish ((s3.cond from34 (fun s => s.seqRequest 7)).seqRequest 0).showSeq) :=
    Unreacted.finish ((unreacted_reactive _).showSeq ((unreacted_reactive _).seqRequest _
      (pres_cond (Unreacted.refl _) (fun _ h => (unreacted_reactive _).seqRequest _ h))))
  exact {
    life := hreq.power.life
    mainGood := hreq.power.mainGood.trans (hnoted.power.mainGood.trans hgood)
    runSteps := hreq.power.runSteps
    doneSteps := hreq.power.doneSteps
    cause := by
      rw [hreq.rd (.inl (by decide)), State.rd_wr_self _ _ hbegun.wf]
      exact Nat.mod_eq_of_lt hcause
    mem := hend.mem_eq.trans (hnothing.mem_eq.trans hmem) }

/-- R539: a device that is off starts once `MAIN_IN` has held. -/
theorem exec_mainInStable_begins (h : s.Inv) (hoff : s.power.life = .off) (hforced : s.seq.forcedOff = false)
    (hcause : s.power.cause < 8) : ∃ t, exec .mainInStable s = .next t ∧ StartBegun true s.power.cause t := by
  refine ⟨_, rfl, ?_⟩
  have hstart : s.begin.mainStable =
      (({ s.begin with power := { s.power with mainGood := true, belowWarn := false },
                       seq := { s.seq with forcedOff := false } }).wr R.SNT_LAST_WAKE_SOURCE 5).startBegin s.power.cause := by
    unfold State.mainStable
    simp [State.begin, hoff, hforced]
  rw [hstart]
  have hsupply : ({ s.begin with power := { s.power with mainGood := true, belowWarn := false },
                                 seq := { s.seq with forcedOff := false } } : State).Inv :=
    ⟨h.regs, h.staged, h.latched, h.mem, h.tlog, h.hist, h.stack, h.hints, h.inflight, h.logsA, h.logsB⟩
  exact State.Inv.startBegin_finish (stable_inv.wr _ hsupply) rfl hcause

end

end Sys2Proof.Machine
end

section
/-!
PROOFS. Proofs/Starts.lean: the last step leaves a device that has nothing to report running in P0 (R257, R261), and a start goes step by step
(O52).
-/

namespace Sys2Proof.Machine

-- One theorem after another, as the text compiles near its memory limit.
set_option Elab.async false

/-! ### Steep Ready -/

/-- As `Agrees`; and the supply, what the device does, what the steep has not filled, and what a record of an event needs stay. -/
structure Quiet (fs : List Fld) (s t : State) : Prop extends Agrees fs s t where
  variant : t.variant = s.variant
  used : t.recs.used.get 0x0105 = s.recs.used.get 0x0105
  deferred : t.cal.deferred = s.cal.deferred
  belowWarn : t.power.belowWarn = s.power.belowWarn
  life : t.power.life = s.power.life
  unfilled : t.steep.unfilled = s.steep.unfilled

/-- As `Quiet`, and the event logs stay. -/
structure Unheard (fs : List Fld) (s t : State) : Prop extends Quiet fs s t where
  hostA : t.hostA = s.hostA
  hostB : t.hostB = s.hostB

section

variable {fs : List Fld} {s t : State}

theorem Unheard.refl (fs : List Fld) (s : State) : Unheard fs s s :=
  ⟨⟨.refl fs s, rfl, rfl, rfl, rfl, rfl, rfl⟩, rfl, rfl⟩

theorem Quiet.trans {u : State} (h : Quiet fs s t) (h' : Quiet fs t u) : Quiet fs s u :=
  ⟨h.toAgrees.trans h'.toAgrees, h'.variant.trans h.variant, h'.used.trans h.used, h'.deferred.trans h.deferred,
    h'.belowWarn.trans h.belowWarn, h'.life.trans h.life, h'.unfilled.trans h.unfilled⟩

theorem Unheard.trans {u : State} (h : Unheard fs s t) (h' : Unheard fs t u) : Unheard fs s u :=
  ⟨h.toQuiet.trans h'.toQuiet, h'.hostA.trans h.hostA, h'.hostB.trans h.hostB⟩

theorem Quiet.wr (h : Quiet fs s t) {g : Fld} (hg : ∀ f ∈ fs, f.key ≠ g.key) (v : Nat) : Quiet fs s (t.wr g v) :=
  { h with toAgrees := h.toAgrees.wr hg v }

theorem Unheard.wr (h : Unheard fs s t) {g : Fld} (hg : ∀ f ∈ fs, f.key ≠ g.key) {v : Nat} : Unheard fs s (t.wr g v) :=
  { h with toQuiet := h.toQuiet.wr hg v }

theorem Unheard.cond_wr (h : Unheard fs s t) {c : Bool} {g : Fld} (hg : ∀ f ∈ fs, f.key ≠ g.key) {v : State → Nat} :
    Unheard fs s (t.cond c (fun t => t.wr g (v t))) :=
  pres_cond h (fun _ h => h.wr hg)

theorem State.tlog_eq_pushTlog {code data : Nat} (hused : s.recs.used.get code = 0) :
    s.tlog code data =
      ({ s with recs := { s.recs with used := s.recs.used.set code 1 } } : State).pushTlog (s.stamp code data) := by
  have hrate : ¬ s.tlogRate ≤ s.recs.used.get code := by
    unfold State.tlogRate
    omega
  show s.appendTlog true (s.stamp code data) = _
  unfold State.appendTlog
  have hcode : (s.stamp code data).code = code := rfl
  rw [hcode, if_neg (by simpa using hrate)]
  show ({ s with recs := { s.recs with used := s.recs.used.set code (s.recs.used.get code + 1) } } : State).pushTlog _ = _
  rw [hused]

/-- An entry of a code of which none has been made in this second is appended (R470). -/
theorem State.tlog_agrees {code data : Nat} (hused : s.recs.used.get code = 0) (hfs : ∀ f ∈ fs, ∀ g ∈ tlogShown, f.key ≠ g.key) :
    Agrees fs s (s.tlog code data) := by
  rw [State.tlog_eq_pushTlog hused]
  exact (Agrees.withRecs fs s _).trans (State.pushTlog_agrees hfs _)

theorem State.tlog_unheard {code data : Nat} (hused : s.recs.used.get code = 0) (hcode : code ≠ 0x0105)
    (hfs : ∀ f ∈ fs, ∀ g ∈ tlogShown, f.key ≠ g.key) : Unheard fs s (s.tlog code data) := by
  have heq := State.tlog_eq_pushTlog (data := data) hused
  exact {
    toAgrees := State.tlog_agrees hused hfs
    used := by
      rw [heq]
      exact NMap.get_set_ne _ _ hcode.symm
    variant := by rw [heq]; rfl
    deferred := by rw [heq]; rfl
    belowWarn := by rw [heq]; rfl
    life := by rw [heq]; rfl
    unfilled := by rw [heq]; rfl
    hostA := by rw [heq]; rfl
    hostB := by rw [heq]; rfl }

/-- The fields of the host ports are not among `fs`. -/
abbrev OffPorts (fs : List Fld) : Prop := ∀ f ∈ fs, keyPage f.key ≠ 0x10 ∧ keyPage f.key ≠ 0x11

theorem keyPage_evtPend (p log : Nat) : keyPage (evtPend p log).key = 0x10 ∨ keyPage (evtPend p log).key = 0x11 := by
  unfold evtPend
  split <;>
    · simp only [keyPage, Fld.key, R.HP_EVT_PEND_INFO, R.HP_EVT_PEND_WARN, R.HP_EVT_PEND2_FAIL, R.HP_EVT_PEND2_FATAL]
      omega

/-- A record goes into a log with room, unheard by the safety manager (R95). -/
theorem State.pushEvent_quiet {log p : Nat} {kind : EvtKind} {granule : Option Nat} {words : List Nat} (hports : OffPorts fs)
    (hroom : ((s.host p).logs.getD log []).length < 256) : Quiet fs s (s.pushEvent log kind granule words p) := by
  have hne : ∀ f ∈ fs, f.key ≠ (evtPend p log).key := fun f hf he => by
    have := hports f hf
    rw [he] at this
    exact (keyPage_evtPend p log).elim this.1 this.2
  unfold State.pushEvent
  extract_lets hp l r
  rw [if_neg (Nat.not_le.mpr hroom)]
  have hstored : Quiet fs s (s.setHost p { hp with logs := hp.logs.set log (l ++ [r]), nextHandle := hp.nextHandle + 1 }) :=
    pres_ite { (Unheard.refl fs s).toQuiet with } { (Unheard.refl fs s).toQuiet with }
  exact pres_cond (hstored.wr hne _) (fun t h => pres_ite { h with } h)

theorem State.pushEvent_zero_hostB {log : Nat} {kind : EvtKind} {granule : Option Nat} {words : List Nat} :
    (s.pushEvent log kind granule words 0).hostB = s.hostB := by
  have hdetect : ((s.setBit (R.HP_EVT_OVF 0) log true).cond (!s.bit (R.HP_EVT_OVF 0) log) (fun s => s.detect 4 0)).hostB = s.hostB :=
    pres_cond (P := fun t : State => t.hostB = s.hostB) (pres_ite (P := fun t : State => t.hostB = s.hostB) rfl rfl) (fun _ h => h)
  exact pres_ite (P := fun t : State => t.hostB = s.hostB) hdetect
    (pres_cond (P := fun t : State => t.hostB = s.hostB) rfl (fun t h => pres_ite (P := fun t : State => t.hostB = s.hostB) h h))

theorem getD_logs_length {ls : List (List EvtRec)} (h : ∀ l ∈ ls, l.length ≤ 248) (log : Nat) : (ls.getD log []).length < 256 := by
  rw [List.getD_eq_getElem?_getD]
  cases hl : ls[log]? with
  | none => simp
  | some l => exact Nat.lt_of_le_of_lt (h l (List.mem_of_getElem? hl)) (by decide)

/-- A vendor record with room for it in the logs, and its entry (R95, R470). -/
theorem State.vendor_quiet {log subtype : Nat} {words : List Nat} (hports : OffPorts fs)
    (hshown : ∀ f ∈ fs, ∀ g ∈ tlogShown, f.key ≠ g.key) (hA : ∀ l ∈ s.hostA.logs, l.length ≤ 248)
    (hB : ∀ l ∈ s.hostB.logs, l.length ≤ 248) (hused : s.recs.used.get 0x0105 = 0) :
    Agrees fs s (s.vendor log subtype words) ∧ (s.vendor log subtype words).variant = s.variant ∧
      (s.vendor log subtype words).power.life = s.power.life ∧
      (s.vendor log subtype words).steep.unfilled = s.steep.unfilled := by
  have hzero : Quiet fs s (s.pushEvent log (.vendor subtype) none words 0) := State.pushEvent_quiet hports (getD_logs_length hA log)
  have hone {t : State} (ht : t.hostB = s.hostB) : Quiet fs t (t.pushEvent log (.vendor subtype) none words 1) :=
    State.pushEvent_quiet hports (getD_logs_length (ls := t.hostB.logs) (by rw [ht]; exact hB) log)
  have hpushed : Quiet fs s ((s.eventPorts none).foldl (fun s p => s.pushEvent log (.vendor subtype) none words p) s) := by
    unfold State.eventPorts
    dsimp only
    split_ifs
    · exact hzero
    · exact hzero
    · exact hone rfl
    · exact hzero.trans (hone State.pushEvent_zero_hostB)
  unfold State.vendor State.event
  generalize (s.eventPorts none).foldl (fun s p => s.pushEvent log (.vendor subtype) none words p) s = u at hpushed
  have hnone : u.recs.used.get 0x0105 = 0 := hpushed.used.trans hused
  refine ⟨hpushed.toAgrees.trans (State.tlog_agrees hnone hshown), ?_, ?_, ?_⟩ <;> rw [State.tlog_eq_pushTlog hnone]
  · exact hpushed.variant
  · exact hpushed.life
  · exact hpushed.unfilled

/-- What the last boot step reads of the registers, and what the end of a command acts on. -/
def readyFields : List Fld := calmFields ++ [R.CAP_HOST, R.KLN_CTRL_ARM, R.PHS_STAT_EW, R.CEL_UNPOW]

theorem State.findFields_unheard : Unheard readyFields s (s.findFields []) := by
  unfold State.findFields
  extract_lets s1 s2 n
  have hver : Unheard readyFields s s2 := Unheard.cond_wr { Unheard.refl readyFields s with } (by decide)
  exact (hver.wr (by decide)).wr (by decide)

theorem State.stepDone_unheard {ms : Nat} (hused : s.recs.used = []) : Unheard readyFields s (s.stepDone 12 ms) := by
  have htimed : Unheard readyFields s (s.stepTimed 12 ms) := ((Unheard.refl _ s).wr (by decide)).wr (by decide)
  have hnone : (s.stepTimed 12 ms).recs.used.get 0x0103 = 0 := by
    show s.recs.used.get 0x0103 = 0
    rw [hused]
    rfl
  unfold State.stepDone
  extract_lets s1 s2 done q
  have hnoted : Unheard readyFields s s2 := htimed.trans (State.tlog_unheard hnone (by decide) (by decide))
  exact { hnoted with }

end

section

variable {s : State}

/-- What the device is to be once the steep is ready. -/
structure RunsReady (h : Nat) (t : State) : Prop where
  life : t.power.life = .running
  phase : t.rd R.STP_STAT_PHASE = 2
  rest : t.rd R.PWR_STAT_STATE = 0
  kiln : t.rd R.KLN_STAT_STATE = 1
  unfilled : t.steep.unfilled = RSet.add [] 0 h

theorem State.readyFigure_le (s : State) : 3000 ≤ s.readyFigure := by
  unfold State.readyFigure
  dsimp only
  split_ifs <;> decide

theorem State.toReady_eq_unprime (hphase : s.rd R.STP_STAT_PHASE = 2) (harm : s.flag R.KLN_CTRL_ARM = true)
    (hcal : s.cal.deferred = false) (hew : s.flag R.PHS_STAT_EW = false) (hwarn : s.power.belowWarn = false) :
    s.toReady = s.unprime := by
  have hready : s.steepReady = true := by simp [State.steepReady, hphase]
  unfold State.toReady State.cond
  simp [hready, harm, hcal, hew, hwarn]

/-- A calm device that has nothing to report as it gets ready: its kiln controller armed, its supply good, its unpowered interval
known, room in its logs, and no fabric. -/
structure ReadyToRun (s : State) : Prop where
  wf : s.regs.wf = true
  trigger : s.update.trigger = false
  todo : s.safe.todo = []
  active : s.safe.active = []
  pend : s.safe.pend = []
  calm : ∀ f ∈ calmFields, s.rd f = 0
  roomA : ∀ l ∈ s.hostA.logs, l.length ≤ 248
  roomB : ∀ l ∈ s.hostB.logs, l.length ≤ 248
  used : s.recs.used.get 0x0105 = 0
  arm : s.flag R.KLN_CTRL_ARM = true
  deferred : s.cal.deferred = false
  host : 0 < s.rd R.CAP_HOST
  fabric : s.variant.fabric = false
  ew : s.flag R.PHS_STAT_EW = false
  belowWarn : s.power.belowWarn = false
  unpow : s.rd R.CEL_UNPOW = 1

theorem Agrees.flag {fs : List Fld} {t : State} (h : Agrees fs s t) {f : Fld} (hf : f ∈ fs) : t.flag f = s.flag f := by
  unfold State.flag
  rw [h.rd f hf]

/-- The fields that the last boot step reads and writes. -/
def runFields : List Fld := R.STP_STAT_PHASE :: readyFields

theorem Unheard.showSteep {t : State} (h : Unheard runFields s t) : Unheard runFields s t.showSteep :=
  ((((((h.wr (by decide)).wr (by decide)).wr (by decide)).wr (by decide)).wr (by decide)).wr (by decide)).wr (by decide)

theorem Unheard.showChain {t : State} (h : Unheard runFields s t) : Unheard runFields s t.showChain :=
  (h.wr (by decide)).wr (by decide)

theorem State.announce_unheard {fs : List Fld} (hfabric : s.variant.fabric = false) : Unheard fs s s.announce := by
  have hflood : s.floodLsa = s := by
    unfold State.floodLsa
    rw [if_pos (.inl hfabric)]
  unfold State.announce
  rw [hflood]
  exact pres_ite { Unheard.refl fs s with } (.refl fs s)

/-- Without fabric, and with a host-visible granule unfilled, nothing follows the announcement. -/
theorem State.steepCheck_rackStart (hfabric : s.variant.fabric = false) (hunfilled : s.steep.unfilled ≠ []) :
    s.rackStart.steepCheck = s := by
  have hrack : s.rackStart = s := by
    unfold State.rackStart State.cond
    rw [hfabric]
    rfl
  rw [hrack]
  unfold State.steepCheck
  rw [if_neg (fun h => hunfilled h.2)]

theorem RSet.add_nil_ne_nil {n : Nat} (hn : 0 < n) : RSet.add [] 0 n ≠ [] := fun h => by
  have hmem : RSet.has (RSet.add [] 0 n) 0 = true := RSet.has_add.mpr (.inl ⟨le_rfl, hn⟩)
  rw [h] at hmem
  cases hmem

/-- The part of Steep Ready that follows the readiness of the steep: the kiln controller, the vendor record and P0. -/
def State.readyEnd (s : State) : State :=
  let s := s.toReady
  let s := s.cond (!s.flag R.KLN_CTRL_ARM) (fun s => s.setCond 44 0 true)
  let fin := s.rd R.PST_PREV
  let words := [3, fin, 0, 0] ++ words40 (s.rd R.KLN_LAST_LOST) ++ words40 (s.rd R.KLN_DRAINED) ++ [0, 0, 0, 0, 0, 0] ++
    [s.rd R.PST_EPOCH % 2 ^ 32, s.rd R.PST_EPOCH / 2 ^ 32]
  let s := { s with power := { s.power with report := words } }
  ((s.vendor (if fin = 2 ∨ fin = 3 then 2 else 0) 3 words).wr R.PWR_STAT_STATE 0).announce.rackStart.steepCheck

theorem ReadyToRun.readyEnd (h : ReadyToRun s) (hphase : s.rd R.STP_STAT_PHASE = 2) (hlife : s.power.life = .running)
    (hunfilled : s.steep.unfilled = RSet.add [] 0 (s.rd R.CAP_HOST)) : RunsReady (s.rd R.CAP_HOST) (finish s.readyEnd) := by
  unfold State.readyEnd
  extract_lets u₀ u fin words q v
  have hprime : u₀ = s.unprime := State.toReady_eq_unprime hphase h.arm h.deferred h.ew h.belowWarn
  have hopened : Unheard runFields s ({ s with kiln := { s.kiln with opened := [], preload := false } } : State) :=
    { Unheard.refl runFields s with }
  have harmed : Unheard runFields s s.unprime := hopened.wr (by decide)
  have hkept : u = s.unprime := by
    unfold u State.cond
    rw [hprime, harmed.flag (by decide), h.arm]
    rfl
  have hkiln : u.rd R.KLN_STAT_STATE = 1 := by
    rw [hkept]
    exact State.rd_wr_self _ _ h.wf
  have hprimed : Unheard runFields s u := by rwa [hkept]
  have hfs : ∀ f ∈ R.KLN_STAT_STATE :: runFields, f.key ≠ R.PWR_STAT_STATE.key := by decide
  have hreport : Unheard (R.KLN_STAT_STATE :: runFields) u v := { Unheard.refl _ u with }
  obtain ⟨hvendor, hvariant, hruns, hlist⟩ := State.vendor_quiet (s := v) (log := if fin = 2 ∨ fin = 3 then 2 else 0)
    (subtype := 3) (words := words) (fs := R.KLN_STAT_STATE :: runFields) (by decide) (by decide)
    (by rw [hreport.hostA, hprimed.hostA]; exact h.roomA) (by rw [hreport.hostB, hprimed.hostB]; exact h.roomB)
    (by rw [hreport.used, hprimed.used]; exact h.used)
  generalize v.vendor (if fin = 2 ∨ fin = 3 then 2 else 0) 3 words = w at hvendor hvariant hruns hlist
  have hfabric : (w.wr R.PWR_STAT_STATE 0).variant.fabric = false := by
    show w.variant.fabric = false
    rw [hvariant, hreport.variant, hprimed.variant]
    exact h.fabric
  have hann {fs : List Fld} : Unheard fs (w.wr R.PWR_STAT_STATE 0) (w.wr R.PWR_STAT_STATE 0).announce :=
    State.announce_unheard hfabric
  have hlisted : (w.wr R.PWR_STAT_STATE 0).announce.steep.unfilled = RSet.add [] 0 (s.rd R.CAP_HOST) := by
    rw [(hann (fs := [])).unfilled]
    show w.steep.unfilled = _
    rw [hlist, hreport.unfilled, hprimed.unfilled, hunfilled]
  rw [State.steepCheck_rackStart (by rw [(hann (fs := [])).variant]; exact hfabric)
    (by rw [hlisted]; exact RSet.add_nil_ne_nil h.host)]
  have hzero : (w.wr R.PWR_STAT_STATE 0).rd R.PWR_STAT_STATE = 0 :=
    State.rd_wr_self _ _ (hvendor.wf (hreport.wf (hprimed.wf h.wf)))
  have hafter : Agrees (R.KLN_STAT_STATE :: runFields) u (w.wr R.PWR_STAT_STATE 0).announce :=
    ((hreport.toAgrees.trans hvendor).wr hfs 0).trans hann.toAgrees
  have hrest : (w.wr R.PWR_STAT_STATE 0).announce.rd R.PWR_STAT_STATE = 0 :=
    ((hann (fs := [R.PWR_STAT_STATE])).rd _ (by decide)).trans hzero
  have hpower : (w.wr R.PWR_STAT_STATE 0).announce.power.life = .running := by
    rw [(hann (fs := [])).life]
    show w.power.life = _
    rw [hruns, hreport.life, hprimed.life, hlife]
  generalize (w.wr R.PWR_STAT_STATE 0).announce = x at hlisted hafter hrest hpower
  have hrun : Agrees runFields s x := hprimed.toAgrees.trans { hafter with rd := fun f hf => hafter.rd f (List.mem_cons_of_mem _ hf) }
  have hcalm : ∀ f ∈ calmFields, x.rd f = 0 := fun f hf =>
    (hrun.rd f (List.mem_cons_of_mem _ (List.mem_append_left _ hf))).trans (h.calm f hf)
  have hend : Settled x (finish x) := finish_settled (hrun.wf h.wf) (hrun.trigger.trans h.trigger) (hrun.todo.trans h.todo)
    (hrun.active.trans h.active) (hrun.pend.trans h.pend) (.inl (hcalm _ (by decide))) (hcalm _ (by decide)) (hcalm _ (by decide))
    (hcalm _ (by decide))
  exact {
    life := by rw [hend.power_eq, hpower]
    phase := by rw [hend.rd (by decide), hrun.rd _ (by decide), hphase]
    rest := by rw [hend.rd (by decide), hrest]
    kiln := by rw [hend.rd (by decide), hafter.rd _ (by decide), hkiln]
    unfilled := by rw [hend.steep_eq, hlisted] }

theorem ReadyToRun.steepReadyNow (h : ReadyToRun s) : RunsReady (s.rd R.CAP_HOST) (finish (s.steepReadyNow 2000)) := by
  unfold State.steepReadyNow
  extract_lets sf c st p s1 s2 s3 s4 s5 s6 s7 s8 fin words q s9
  have hsame (f : Fld) (hf : f ∈ readyFields) : (s1.wr R.STP_STAT_PHASE 2).rd f = s.rd f :=
    State.rd_wr_ne s1 _ ((by decide : ∀ f ∈ readyFields, f.key ≠ R.STP_STAT_PHASE.key) f hf)
  have hphase : (s1.wr R.STP_STAT_PHASE 2).rd R.STP_STAT_PHASE = 2 := State.rd_wr_self _ _ h.wf
  have htimes : Unheard runFields (s1.wr R.STP_STAT_PHASE 2) s2 := ((Unheard.refl _ _).wr (by decide)).wr (by decide)
  have hunpow : s3 = s2.showSteep.showChain := by
    have hrd : s2.showSteep.showChain.rd R.CEL_UNPOW = 1 := by
      rw [htimes.showSteep.showChain.rd _ (by decide), hsame _ (by decide), h.unpow]
    unfold s3 State.assumeUnpow
    rw [if_neg (fun hassume => absurd (hrd.symm.trans hassume.1) (by decide))]
  have hfails : Unheard runFields (s1.wr R.STP_STAT_PHASE 2) s4 := by
    unfold s4
    rw [hunpow]
    exact (htimes.showSteep.showChain.wr (by decide)).wr (by decide)
  have hintime : s6 = s5 := by
    have hfigure := s5.readyFigure_le
    unfold s6 State.cond
    rw [if_neg (by simp; omega)]
  have hshown : Unheard runFields (s1.wr R.STP_STAT_PHASE 2) s6 := by
    rw [hintime]
    exact pres_cond hfails (fun _ h => (h.wr (by decide)).wr (by decide))
  have hrd {f : Fld} (hf : f ∈ readyFields) : s6.rd f = s.rd f := by
    rw [hshown.rd f (List.mem_cons_of_mem _ hf), hsame f hf]
  have hflag {f : Fld} (hf : f ∈ readyFields) : s6.flag f = s.flag f := by
    unfold State.flag
    rw [hrd hf]
  have hready : ReadyToRun s6 := {
    wf := hshown.wf (State.wf_wr _ _ h.wf)
    trigger := hshown.trigger.trans h.trigger
    todo := hshown.todo.trans h.todo
    active := hshown.active.trans h.active
    pend := hshown.pend.trans h.pend
    calm := fun f hf => (hrd (List.mem_append_left _ hf)).trans (h.calm f hf)
    roomA := by rw [hshown.hostA]; exact h.roomA
    roomB := by rw [hshown.hostB]; exact h.roomB
    used := hshown.used.trans h.used
    arm := (hflag (by decide)).trans h.arm
    deferred := hshown.deferred.trans h.deferred
    host := by rw [hrd (by decide)]; exact h.host
    fabric := by rw [hshown.variant]; exact h.fabric
    ew := (hflag (by decide)).trans h.ew
    belowWarn := hshown.belowWarn.trans h.belowWarn
    unpow := (hrd (by decide)).trans h.unpow }
  have hend := hready.readyEnd ((hshown.rd _ (by decide)).trans hphase) hshown.life
    (by rw [hrd (by decide)]; exact hshown.unfilled)
  rwa [hrd (by decide)] at hend

/-- B12 of a calm device that has nothing to report: it runs, in P0 (R257, R261). -/
theorem bootStepDone_twelve {ms : Nat} (hc : s.Calm) (hopen : s.RecordsOpen) (hlife : s.power.life = .starting)
    (hrun : s.power.runSteps.contains 12 = true) (harm : s.flag R.KLN_CTRL_ARM = true) (hcal : s.cal.deferred = false)
    (hhost : 0 < s.rd R.CAP_HOST) (hfabric : s.variant.fabric = false) (hew : s.flag R.PHS_STAT_EW = false)
    (hwarn : s.power.belowWarn = false) (hunpow : s.rd R.CEL_UNPOW = 1) :
    ∃ t, exec (.bootStepDone 12 true 0 ms { readyMs := 2000 }) s = .next t ∧ RunsReady (s.rd R.CAP_HOST) t := by
  refine ⟨_, exec_bootStepDone hlife hrun (.inl rfl), ?_⟩
  obtain ⟨hlogs, hused, -⟩ := hopen
  have hfound : Unheard readyFields s.begin (s.begin.findFields []) := State.findFields_unheard
  have hnone : (s.begin.findFields []).recs.used = [] :=
    pres_cond (P := fun t : State => t.recs.used = []) hused (fun _ h => h)
  have hdone : Unheard readyFields s.begin ((s.begin.findFields []).stepDone 12 ms) :=
    hfound.trans (State.stepDone_unheard hnone)
  have hflag {f : Fld} (hf : f ∈ readyFields) : ((s.begin.findFields []).stepDone 12 ms).flag f = s.flag f := hdone.flag hf
  have hready : ReadyToRun ((s.begin.findFields []).stepDone 12 ms) := {
    wf := hdone.wf hc.inv.regs
    trigger := hdone.trigger
    todo := hdone.todo
    active := hdone.active.trans hc.active
    pend := hdone.pend.trans hc.pend
    calm := fun f hf => (hdone.rd f (List.mem_append_left _ hf)).trans (hc.rd_calmFields f hf)
    roomA := by rw [hdone.hostA]; exact fun l hl => hlogs l (List.mem_append_left _ hl)
    roomB := by rw [hdone.hostB]; exact fun l hl => hlogs l (List.mem_append_right _ hl)
    used := by
      rw [hdone.used]
      show s.recs.used.get 0x0105 = 0
      rw [hused]
      rfl
    arm := (hflag (by decide)).trans harm
    deferred := hdone.deferred.trans hcal
    host := by rw [hdone.rd _ (by decide)]; exact hhost
    fabric := by rw [hdone.variant]; exact hfabric
    ew := (hflag (by decide)).trans hew
    belowWarn := hdone.belowWarn.trans hwarn
    unpow := (hdone.rd _ (by decide)).trans hunpow }
  have hend := hready.steepReadyNow
  rwa [hdone.rd _ (by decide)] at hend

end

/-- Settles O52: nothing that ends a command leads a start on or back, so what a step noted of itself is shown. -/
theorem aStartGoesStepByStep : Obligations.AStartGoesStepByStep := by
  unfold Obligations.AStartGoesStepByStep
  refine ⟨?_, ?_, ?_, ?_, ?_, ?_, ?_, ?_, ?_, ?_⟩
  · intro s hc hoff hforced hcause
    obtain ⟨t, ht, h⟩ := exec_mainInStable_begins hc.inv hoff hforced hcause
    exact ⟨t, ht, h.life, h.mainGood, h.runSteps, h.doneSteps, h.cause, h.mem⟩
  · intro s ms cause hc hlife hrun hms _
    obtain ⟨t, ht, h⟩ := bootStepDone_shown (cause := cause) (f := {}) hc.inv hlife hrun (ok := true) (.inl ⟨rfl, .inl rfl⟩)
    exact ⟨t, ht, h.step, h.time.trans (Nat.min_eq_left (Nat.le_of_lt_succ hms)), h.done, h.run⟩
  · intro s n cause ms ok f hs hlife hrun hstep
    obtain ⟨t, ht, h⟩ := bootStepDone_shown hs.inv hlife hrun hstep
    exact ⟨t, ht, h.step, h.time, h.done, h.run⟩
  · intro s cause ms f hs hlife hrun hup hexit
    obtain ⟨t, ht, h⟩ := bootStepDone_one hs.inv hlife hrun hup hexit
    exact ⟨t, ht, h.step, h.time, h.done⟩
  · intro s cause ms f hs hlife hrun hrec
    obtain ⟨t, ht, h, hvalid, hkind⟩ := bootStepDone_two hs.inv hlife hrun hrec
    exact ⟨t, ht, h.step, h.time, h.done, hvalid, h.warm, hkind.trans (congrArg b2n h.warm.symm)⟩
  · intro s cause ms f hs hlife hrun h0 h1
    obtain ⟨t, ht, h⟩ := bootStepDone_four hs.inv hlife hrun h0 h1
    exact ⟨t, ht, h.step, h.time, h.done⟩
  · intro s cause ms f hs hlife hrun hvalid hkat _
    obtain ⟨t, ht, h⟩ := bootStepDone_ten hs.inv hlife hrun hvalid hkat
    exact ⟨t, ht, h.step, h.time, h.done⟩
  · intro s cause ms f hs hlife hrun hseq hhold hchain
    obtain ⟨t, ht, h, hended⟩ := bootStepDone_eleven hs.inv hlife hrun hseq hhold hchain
    exact ⟨t, ht, hended, h.step, h.time, h.done⟩
  · intro s n ms cause hs hlife hrun hn hcause
    exact bootStepDone_fails hs hlife hrun hn hcause
  · intro s ms hc hopen hlife hrun _ harm hcal hhost hfabric hew hwarn hunpow
    obtain ⟨t, ht, h⟩ := bootStepDone_twelve hc hopen hlife hrun harm hcal hhost hfabric hew hwarn hunpow
    exact ⟨t, ht, h.life, h.phase, h.rest, h.kiln, h.unfilled⟩

end Sys2Proof.Machine
end
